-- ==== Sys2Proof/Word.lean ====
section
/-!
DEFINITION. The word types of the QS7144: 32-bit bus words (R242, R309) and octets.
-/
namespace Sys2Proof

/-- A 32-bit bus word, register value or Stroke register (R238, R309). -/
abbrev Word := BitVec 32

/-- One octet of memory, of a frame or of a key. -/
abbrev Byte := BitVec 8

end Sys2Proof
end

