-- ==== Sys2Proof/Syntax.lean ====
section
/-!
DEFINITION. The commands the block takes, row by row of spec/opcode_table.json, and the operand forms they carry.
-/
namespace Sys2Proof

/-- Who makes a bus access (R210, R270, R274, R278): the Stroke core, running code in the ROM or elsewhere; a DMA channel;
the host port. -/
inductive Master where
  | core (rom : Bool)
  | dma (k : Fin 8)
  | host
  deriving DecidableEq, Repr

/-- The width of an access (R248). -/
inductive Size where
  | byte
  | half
  | word
  deriving DecidableEq, Repr

/-- The REG format of the Stroke core (R242): `res` are its reserved bits 6:5. -/
structure RegOps where
  rd : Fin 16
  ra : Fin 16
  rb : Fin 16
  s : Bool
  sh : Fin 32
  res : BitVec 2
  deriving DecidableEq, Repr

/-- The IMM format (R242): `res` is its reserved bit 16. -/
structure ImmOps where
  rd : Fin 16
  ra : Fin 16
  s : Bool
  imm : BitVec 16
  res : Bool
  deriving DecidableEq, Repr

/-- The MEM format (R242): `res` is its reserved bit 14. -/
structure MemOps where
  rd : Fin 16
  ra : Fin 16
  sz : BitVec 2
  sx : Bool
  off : BitVec 14
  res : Bool
  deriving DecidableEq, Repr

/-- The BR format (R242): `res` are its reserved bits 25:24. -/
structure BrOps where
  disp : BitVec 24
  res : BitVec 2
  deriving DecidableEq, Repr

/-- The SPC format with major opcode 0x18 or 0x19 (R242): register r and the X field. -/
structure SpcOps where
  r : Fin 16
  x : BitVec 17
  deriving DecidableEq, Repr

/-- WAIT (R246): bit 0 of its X field is the row's own; `res` are X's other bits, which make any other X. -/
structure WaitOps where
  r : Fin 16
  res : BitVec 16
  deriving DecidableEq, Repr

/-- The SPC format with major opcode 0x1A or 0x1B (R242): the A field and the mask X. -/
structure CallmOps where
  a : BitVec 9
  x : BitVec 17
  deriving DecidableEq, Repr

/-- How far a command of PROGRAM comes (R281): the unit before which VSYS is low, and how many units it comes to before another
command may (log entry 64); each may be none. -/
structure Stretch where
  low : Option Nat := none
  steps : Option Nat := none
  deriving DecidableEq, Repr

/-- How an I²C transfer ends on the bus (R496): with the octets read, unacknowledged, arbitration lost or the bus held
low, or the clock stretched beyond 25 ms. -/
inductive I2cEnd where
  | done (rx : List Byte)
  | noAck
  | lost
  | stretched
  deriving DecidableEq, Repr

/-- A PHR as a lane decodes it (R102, R104): `hcsOk`, `mcs` and `seed` are an OFDM frame's. -/
structure Phr where
  modeSwitch : Bool
  fcs2 : Bool
  white : Bool
  len : Nat
  mcs : Nat
  seed : Nat
  hcsOk : Bool
  deriving DecidableEq, Repr

/-- The transport a host-port command arrives by (R419); a management frame carries its request's MAC header, and the
lane it was received on (R427, R428). -/
inductive Tr where
  | spi
  | uart
  | mesh (hdr : List Byte) (lane : Fin 4)
  deriving DecidableEq, Repr


/-- The commands of the block: one constructor for each row of the opcode table, with the row's operands. An operand
is what the command's sender says (a written value, the octets on a wire, a level at a pin); everything else a command
depends on is in the state. -/
inductive Instr where
  /-- POWER_ON_RESET (R28): VSYS rises through 2.6 V and the whole package except the RTC domain is reset, clearing all AO contents. -/
  | powerOnReset
  /-- PACKAGE_RESET (R28): A latched low pulse on RESET_N performs a complete package reset, released only after RESET_N is high again. -/
  | packageReset
  /-- START_SEQUENCE (R389): After reset release the ROM runs the ordered start steps, from journal repair to the jump to firmware. -/
  | startSequence (straps : BitVec 2) (vsys : Nat) (fails : Nat)
  /-- LINK_REGION_RESET (R23): A write of PWR_RGNRST.LINK resets every link cluster, clears the link memory arrays and rings, and restores network time from the carry. -/
  | linkRegionReset
  /-- RADIO_DIE_RESET (R27): A write of PWR_RGNRST.RADIO resets the radio region, clears the Bow RAM and cache, retrains the link and reloads the regulatory profiles. -/
  | radioDieReset
  /-- PAD_RELEASE (R377): A write of PWR_PADREL.RELEASE releases the main-region pads held since EASY entry. -/
  | padRelease
  /-- CLUSTER_RESET (R17): A write of 1 to CTRL.CRST returns every register of the page to its reset value except locked fields, keeping the cluster's memory arrays. -/
  | clusterReset (page : Nat)
  /-- CLUSTER_RESET_COMPLETE (R17): The cluster reset completes within 8 cluster clock cycles, CRST reads 0 and stalled bus accesses proceed. -/
  | clusterResetComplete (page : Nat)
  /-- CLOCK_GATE_CLOSE (R18): A cluster's clock gate closes once all its units are idle and no bus access is pending. -/
  | clockGateClose (page : Nat)
  /-- REGISTER_WRITE (R308): A write to a register without behaviour of its own is applied or ignored under its access code. -/
  | registerWrite (m : Master) (size : Size) (a : Word) (v : Word)
  /-- PARITY_FAULT (R313): A configuration parity mismatch sets FLT.PAR, clears the governing enable, raises the fault line and stages a logbook record. -/
  | parityFault (a : Word)
  /-- D2D_RX_BURST_ERROR (R26): A receive sample burst fails its CRC, its samples are discarded and every lane holding a frame drops it with D2D. -/
  | d2dRxBurstError
  /-- D2D_TX_BURST_ERROR (R26): A transmit sample burst fails its CRC and the transmission ends at once with INTERNAL. -/
  | d2dTxBurstError
  /-- D2D_REGBUS_ERROR (R26): A radio register-bus transfer fails its CRC and is retried up to three times before failing with RCTL_FLT.PAR. -/
  | d2dRegbusError (fails : Fin 4)
  /-- BOW_UNRESPONSIVE (R46): A Bow sequencer that stops responding asserts RADIO_FLT, ends any transmission, clears UCODE_OK and stops the lanes. -/
  | bowUnresponsive
  /-- RADIO_REQUEST_SLEEP (R41): A request for SLEEP through RCTL_CMD or by the link controller cuts any transition and takes the radio to SLEEP. -/
  | radioRequestSleep (link : Bool) (temp : Int)
  /-- RADIO_REQUEST_STBY (R41): A request for STBY cuts any transition in progress and takes the radio to STBY. -/
  | radioRequestStby (link : Bool) (temp : Int)
  /-- RADIO_REQUEST_SYN (R41): A request for SYN walks the radio to SYN or waits behind a transition in progress. -/
  | radioRequestSyn (link : Bool) (temp : Int)
  /-- RADIO_REQUEST_RX (R41): A request for RX walks the radio through the intermediate states to RX. -/
  | radioRequestRx (link : Bool) (temp : Int)
  /-- RADIO_TRANSITION_DONE (R42): A radio state transition completes, its status goes to RCTL_CMDSTAT, EV_RADIO_STATE fires and any waiting request is carried out. -/
  | radioTransitionDone
  /-- CHANNEL_CHANGE (R69): A write to SYNTH_CHAN from the owner retunes the synthesiser in SYN or RX, or is kept for the next tune. -/
  | channelChange (v : Word) (link : Bool) (temp : Int)
  /-- CACHE_FLUSH (R48): A write of 1 to SYNTH_CCTL.FLUSH empties the calibration cache. -/
  | cacheFlush
  /-- SYN_UNLOCK (R49): Loss of synthesiser lock drops the lanes' frames or ends a transmission, starts retuning and fires EV_SYN_UNLOCK. -/
  | synUnlock
  /-- SYN_LOCK (R50): The synthesiser locks and an untimed transmission waiting for lock is sent, reporting its wait. -/
  | synLock
  /-- LOCK_TIMEOUT (R49): Lock is not regained within 1,000 µs, so SYNTH_STAT.LOCKTO is set, the radio goes to STBY and IRQ_RADIO fires. -/
  | lockTimeout
  /-- TX_BLANKING (R90): At t_s − 24 µs the receive chain stops and the lanes are blanked, dropping held frames with BLANKED. -/
  | txBlanking
  /-- TX_CHECK (R62): At release or at t_s − 16 µs the transmit path runs the blocking, enable, lock and regulatory checks on the computed airtime. -/
  | txCheck
  /-- PA_RAMP_UP (R523): At t_s − 8 µs PA ramp-up starts, or the charged transmission fails because lock or the radio state was lost. -/
  | paRampUp
  /-- TX_START (R52): The TX_GO edge takes effect and the first preamble sample leaves the antenna at t_s, firing EV_TX_START. -/
  | txStart
  /-- TX_END (R52): The last symbol of a transmission leaves the antenna, ramp-down starts and the radio returns to its previous state. -/
  | txEnd
  /-- DUTY_MINUTE_BOUNDARY (R64): After 1,966,080 counted LF ticks the oldest duty bucket is cleared and becomes the current bucket. -/
  | dutyMinuteBoundary
  /-- PROFILE_LOCK (R61): A write of 1 to TXP_CFG.LOCK makes PROFILE and LOCK read-only and copies PROFILE into the AO profile latch. -/
  | profileLock (v : Word)
  /-- TEST_CARRIER_START (R518): A write of TXP_TEST.CW = 1 in SYN by the firmware owner runs the checks, charges TXMAX and starts an unmodulated carrier. -/
  | testCarrierStart (idx : BitVec 6)
  /-- TEST_CARRIER_STOP (R518): A write of TXP_TEST.CW = 0 ends a running test carrier and the radio returns to SYN. -/
  | testCarrierStop
  /-- TEST_CARRIER_TIMEOUT (R518): The test carrier ends when TXMAX has elapsed. -/
  | testCarrierTimeout
  /-- LANE_ENABLE (R76): A write of 1 to a lane's LANES_ENABLE bit is checked against the lane's configuration and enables the lane or records PARAM. -/
  | laneEnable (v : Word)
  /-- LANE_DISABLE (R79): A write clearing a lane's enable drops any held frame with STOPPED and stops the lane. -/
  | laneDisable (v : Word)
  /-- LANE_COUNTER_CLEAR (R96): A write to LANES_CNTCLR clears the selected lanes' mailbox counters. -/
  | laneCounterClear (v : Word)
  /-- AGC_UPDATE (R83): Every 2 µs the analog gain loop measures the window level and adjusts or settles STEP, counting clipped intervals. -/
  | agcUpdate (level : Int) (clipped : Bool)
  /-- PREAMBLE_QUALIFIED (R84): An FSK lane sees PREQ octets of preamble, fires EV_LANEn_DET and freezes the analog gain if it is the first detection. -/
  | preambleQualified (n : Fin 4) (pwr : Int) (cfo : Int)
  /-- STF_DETECTED (R84): An OFDM lane's STF correlation reaches the threshold at a burst boundary, firing EV_LANEn_DET and freezing the gain. -/
  | stfDetected (n : Fin 4) (pwr : Int) (cfo : Int)
  /-- SFD_DETECTED (R92): An FSK lane finds the SFD, latches RSSI and fires EV_LANEn_SFD. -/
  | sfdDetected (n : Fin 4) (coded : Bool) (rssi : Int)
  /-- LTF_END (R92): An OFDM lane reaches the end of the LTF, latches RSSI and SNR and fires EV_LANEn_SFD. -/
  | ltfEnd (n : Fin 4) (rssi : Int) (snr : Byte)
  /-- LTF_MISSING (R520): An OFDM lane finds no LTF after its STF and drops the frame with HDR. -/
  | ltfMissing (n : Fin 4)
  /-- NOSYNC (R520): An FSK lane in PREAMBLE exhausts PRELIM octets or loses the preamble for two octet periods and drops the frame with NOSYNC. -/
  | nosync (n : Fin 4)
  /-- PHR_DECODED (R80): A lane decodes the PHR and judges its length, mode switch and header check, dropping or continuing the frame. -/
  | phrDecoded (n : Fin 4) (p : Phr)
  /-- ENERGY_MEASUREMENT (R93): A searching lane completes its channel-energy averaging window and reports the result in LANES_Ln_ED. -/
  | energyMeasurement (n : Fin 4) (ed : Int)
  /-- HEADER_END (R134): The last MAC header octet reaches the lane and the link controller fixes the frame's verdict within one link tick. -/
  | headerEnd (n : Fin 4) (hdr : List Byte)
  /-- FRAME_END (R138): The frame's last symbol ends at the lane, its FCS is checked and an unsecured frame is accepted or discarded. -/
  | frameEnd (n : Fin 4) (psdu : List Byte)
  /-- MIC_RESULT (R223): The cipher engine delivers the MIC result of a received secured frame, no later than t_end + 70 µs. -/
  | micResult (n : Fin 4)
  /-- LINK_MODE_OFF (R121): A write of LINK_MODE OFF aborts queued transmissions, cancels acknowledgements and relays, takes the radio to STBY and gives it to firmware. -/
  | linkModeOff
  /-- LINK_MODE_SW (R121): A write of LINK_MODE SW takes ownership or, from HW, cancels relays not yet at t_s − 16 µs. -/
  | linkModeSw
  /-- LINK_MODE_HW (R121): A write of LINK_MODE HW passes radio ownership to the link controller with hardware relaying. -/
  | linkModeHw
  /-- COX_UCODE_LOAD (R123): A write of LINK_UCCTL.LOAD clears UCODE_OK and opens a Cox microcode load. -/
  | coxUcodeLoad
  /-- COX_UCODE_DATA (R123): A write to LINK_UCDATA stores one word at ADDR and increments ADDR while a load is open. -/
  | coxUcodeData (v : Word)
  /-- COX_UCODE_DONE (R123): A write of LINK_UCCTL.DONE closes the load and starts a CRC-32 over the Cox RAM. -/
  | coxUcodeDone
  /-- COX_UCODE_CRC_READY (R123): The Cox RAM CRC is ready in LINK_UCCRC and DONE reads 0. -/
  | coxUcodeCrcReady
  /-- COX_UCODE_GOOD (R123): A write of LINK_UCCTL.GOOD after a completed CRC sets LINK_STAT.UCODE_OK. -/
  | coxUcodeGood
  /-- CHAIN_ALLOC (R158): A write to FBUF_ALLOC allocates a chain from the TX pool to the core or reports NOBUF. -/
  | chainAlloc (v : Word)
  /-- CHAIN_FREE (R128): A write to FBUF_FREE releases a delivered chain, passing relay-held cells to LINK. -/
  | chainFree (v : Word)
  /-- CELL_REVOKE (R128): A write of an owner code to FBUF_REVOKE takes every cell of that owner within 2 µs, keeping relay holds. -/
  | cellRevoke (v : Word)
  /-- TX_DESCRIPTOR_TAKE (R131): The link controller takes a TX descriptor from a ring, checks it and passes its cells to LINK. -/
  | txDescriptorTake (host : Bool)
  /-- FRAME_SECURED (R225): Securing of an outgoing frame ends and an untimed frame becomes ready for release. -/
  | frameSecured
  /-- TX_RELEASE (R151): An immediate frame is released when its whole occupancy overlaps no reservation. -/
  | txRelease
  /-- ACK_WINDOW_CLOSE (R149): The acknowledgement window closes without a match and the frame retries or completes with NO_ACK. -/
  | ackWindowClose
  /-- RETRY_WAIT_EXPIRY (R153): The random retry wait ends and the retry is queued as an immediate frame. -/
  | retryWaitExpiry
  /-- PEER_WRITE (R145): A write to PEER_WCMD applies the masked PEER_WD words to the indexed entry in one link tick. -/
  | peerWrite (v : Word)
  /-- MAILBOX_SELECT (R315): A write to MBX_SEL clears VALID and requests a snapshot of the item from its source domain. -/
  | mailboxSelect (m : Master) (page : Nat) (v : Word)
  /-- MAILBOX_SNAPSHOT (R316): The snapshot crosses back and MBX_D0–D3, ITEM and VALID change together. -/
  | mailboxSnapshot (page : Nat)
  /-- BEACON_PREPARE (R166): At t_s − 200 µs of a beacon instant the root allocates a chain, copies the template and fills it as a timed TIME flood. -/
  | beaconPrepare
  /-- SEEN_AGE_TICK (R176): Once a second every seen-cache entry's AGE advances. -/
  | seenAgeTick
  /-- NTIME_SET (R186): A write of NTIME_CMD.SET loads NTIME from SETLO/HI at the next tick and sets SYNC. -/
  | ntimeSet
  /-- NTIME_DESYNC (R186): A write of NTIME_CMD.DESYNC clears SYNC and NTIME_TRIM. -/
  | ntimeDesync
  /-- NTIME_COMPARE_ARM (R183): A write of NTIME_CMD.CMPARM arms the compare at NTIME_CMPLO/HI. -/
  | ntimeCompareArm
  /-- NTIME_COMPARE_MATCH (R183): NTIME reaches the armed compare value and EV_NTIME_CMP fires once. -/
  | ntimeCompareMatch
  /-- LFCAL_UPDATE (R182): After 65,536 LF ticks accumulated awake NTIME_LFCAL is updated. -/
  | lfcalUpdate
  /-- NETWORK_TIME_CARRY (R181): At an LF edge before the link clock stops or the link region resets, NTIME, the LF count and the trim are recorded in the AO carry. -/
  | networkTimeCarry
  /-- NETWORK_TIME_RESTORE (R181): At the first LF edge after the link clock restarts, NTIME, SYNC and trim are restored from the carry. -/
  | networkTimeRestore (phase : Fin 1221)
  /-- REANCHOR (R189): A write of SAMP_CMD.REANCHOR requests a re-anchor of the sample lattice. -/
  | reanchor
  /-- LATTICE_ANCHOR (R189): At the first LF edge after a start, REANCHOR or acknowledged frame, the scheduler sets the lattice anchor. -/
  | latticeAnchor
  /-- RESCAN (R204): A write of SAMP_CMD.RESCAN starts a beacon scan from LOST or TRACK. -/
  | rescan
  /-- SAMPLE_WAKE (R190): 22 LF ticks before a sample instant the scheduler requests STBY and starts the crystal. -/
  | sampleWake
  /-- SAMPLE_SYN_REQUEST (R190): 70 µs before the sample instant SYN is requested. -/
  | sampleSynRequest
  /-- SAMPLE_RX_REQUEST (R190): 10 µs before the sample instant RX is requested. -/
  | sampleRxRequest
  /-- SAMPLE_LISTEN_END (R191): At S + 400 µs the window closes, extends on energy or stays open for a detected frame. -/
  | sampleListenEnd
  /-- SAMPLE_EXTENSION_END (R191): The energy extension ends and the window closes unless a lane has detected. -/
  | sampleExtensionEnd
  /-- STROBE_WAKE (R193): The radio is woken to be in RX before the strobe-announced data frame. -/
  | strobeWake
  /-- STROBE_MISS (R193): No lane detects by the end of the strobe wait and the window closes with STROBE_MISS. -/
  | strobeMiss
  /-- PEER_SWEEP (R197): At each 2^28-tick boundary the peer table is swept and aged SYNCED bits are cleared. -/
  | peerSweep (stopped : Nat)
  /-- BEACON_WINDOW_OPEN (R201): Listening starts at E_b − g_b on the beacon lanes. -/
  | beaconWindowOpen
  /-- BEACON_WINDOW_CLOSE (R202): A beacon window closes without an applied update, counting a miss and firing EV_BCN_MISS. -/
  | beaconWindowClose
  /-- BEACON_HOLD_END (R203): The RX hold after a beacon window ends. -/
  | beaconHoldEnd
  /-- SCAN_TIMEOUT (R204): A scan reaches 2B without an applied update and tracking enters LOST. -/
  | scanTimeout
  /-- PAGE_BIND (R209): A write to CIPHn_OWNER binds or unbinds a cipher page and clears its data registers. -/
  | pageBind (m : Master) (n : Fin 8) (v : Word)
  /-- FRAME_DEC (R232): A START with OP 1 parses and checks a stored frame and writes its plaintext. -/
  | frameDec (m : Master) (n : Fin 8) (v : Word)
  /-- CCM_ENC (R232): A START with OP 2 encrypts with CCM under a RAW slot and writes the MIC. -/
  | ccmEnc (m : Master) (n : Fin 8) (v : Word)
  /-- CCM_DEC (R232): A START with OP 3 decrypts with CCM and checks the expected MIC. -/
  | ccmDec (m : Master) (n : Fin 8) (v : Word)
  /-- CMAC (R232): A START with OP 4 computes a CMAC tag over a whole message or a part. -/
  | cmac (m : Master) (n : Fin 8) (v : Word)
  /-- CMAC_VERIFY (R232): A START with OP 5 checks a CMAC tag without revealing it. -/
  | cmacVerify (m : Master) (n : Fin 8) (v : Word)
  /-- UNWRAP (R215): A START with OP 6 unwraps a 56-octet blob under slot 0 into a volatile key slot. -/
  | unwrap (m : Master) (n : Fin 8) (v : Word)
  /-- KEY_ERASE (R232): A START with OP 7 empties a volatile key slot. -/
  | keyErase (m : Master) (n : Fin 8) (v : Word)
  /-- CIPHER_OP_DONE (R212): A cipher-page operation completes, clearing BUSY, writing the status and firing EV_CIPHn_DONE. -/
  | cipherOpDone (n : Fin 8)
  /-- INTERRUPT_ACCEPT (R262): The core accepts the highest-priority pending line at an instruction boundary and enters its vector. -/
  | interruptAccept
  /-- INTC_SET (R264): A write to INTC_SETk sets software latches of interrupt lines. -/
  | intcSet (k : Fin 4) (v : Word)
  /-- INTC_CLR (R264): A write to INTC_CLRk clears software and edge latches. -/
  | intcClr (k : Fin 4) (v : Word)
  /-- ADD (R245): Adds ra and rb into rd. -/
  | add (o : RegOps)
  /-- ADC (R245): Adds ra, rb and C into rd. -/
  | adc (o : RegOps)
  /-- SUB (R245): Subtracts rb from ra into rd. -/
  | sub (o : RegOps)
  /-- SBC (R245): Subtracts rb and the borrow from ra. -/
  | sbc (o : RegOps)
  /-- AND (R245): Bitwise AND of ra and rb. -/
  | and (o : RegOps)
  /-- OR (R245): Bitwise OR of ra and rb. -/
  | or (o : RegOps)
  /-- XOR (R245): Bitwise XOR of ra and rb. -/
  | xor (o : RegOps)
  /-- ANDN (R245): ra AND NOT rb. -/
  | andn (o : RegOps)
  /-- SHL (R245): Shifts ra left by rb bits 4:0. -/
  | shl (o : RegOps)
  /-- SHR (R245): Shifts ra right logically by rb bits 4:0. -/
  | shr (o : RegOps)
  /-- SAR (R245): Shifts ra right arithmetically by rb bits 4:0. -/
  | sar (o : RegOps)
  /-- ROR (R245): Rotates ra right by rb bits 4:0. -/
  | ror (o : RegOps)
  /-- SHLI (R245): Shifts ra left by SH. -/
  | shli (o : RegOps)
  /-- SHRI (R245): Shifts ra right logically by SH. -/
  | shri (o : RegOps)
  /-- SARI (R245): Shifts ra right arithmetically by SH. -/
  | sari (o : RegOps)
  /-- RORI (R245): Rotates ra right by SH. -/
  | rori (o : RegOps)
  /-- MUL (R245): Low 32 bits of ra × rb. -/
  | mul (o : RegOps)
  /-- MULH (R245): High 32 bits of the signed product. -/
  | mulh (o : RegOps)
  /-- MULHU (R245): High 32 bits of the unsigned product. -/
  | mulhu (o : RegOps)
  /-- DIV (R247): Signed quotient rounded towards zero, with defined results for zero and overflow. -/
  | div (o : RegOps)
  /-- DIVU (R247): Unsigned quotient, with a defined result for division by zero. -/
  | divu (o : RegOps)
  /-- REM (R247): Signed remainder with the sign of ra. -/
  | rem (o : RegOps)
  /-- REMU (R247): Unsigned remainder. -/
  | remu (o : RegOps)
  /-- CMP (R245): Sets flags from ra − rb. -/
  | cmp (o : RegOps)
  /-- TST (R245): Sets N and Z from ra AND rb. -/
  | tst (o : RegOps)
  /-- SWAP (R249): Atomically exchanges rb with the word at ra. -/
  | swap (o : RegOps)
  /-- SEXB (R245): Sign-extends ra bits 7:0 into rd. -/
  | sexb (o : RegOps)
  /-- SEXH (R245): Sign-extends ra bits 15:0 into rd. -/
  | sexh (o : RegOps)
  /-- CLZ (R245): Counts leading zero bits of ra. -/
  | clz (o : RegOps)
  /-- ADDI (R244): Adds a sign-extended immediate to ra. -/
  | addi (o : ImmOps)
  /-- ANDI (R244): ANDs ra with a zero-extended immediate. -/
  | andi (o : ImmOps)
  /-- ORI (R244): ORs ra with a zero-extended immediate. -/
  | ori (o : ImmOps)
  /-- XORI (R244): XORs ra with a zero-extended immediate. -/
  | xori (o : ImmOps)
  /-- CMPI (R244): Sets flags from ra minus an immediate. -/
  | cmpi (o : ImmOps)
  /-- TSTI (R244): Sets N and Z from ra AND an immediate. -/
  | tsti (o : ImmOps)
  /-- MOVI (R244): Loads an immediate into rd. -/
  | movi (o : ImmOps)
  /-- MOVH (R244): Loads an immediate shifted left by 16 into rd. -/
  | movh (o : ImmOps)
  /-- LD (R248): Loads a byte, halfword or word from ra + off14, with one load delay slot. -/
  | ld (o : MemOps)
  /-- ST (R248): Stores a byte, halfword or word of rd at ra + off14. -/
  | st (o : MemOps)
  /-- BCC (R247): Branches by the displacement when condition c holds. -/
  | bcc (c : Fin 15) (o : BrOps)
  /-- CALL (R244): Writes the return address to LK and branches. -/
  | call (o : BrOps)
  /-- JMP (R246): Jumps to the address in r. -/
  | jmp (o : SpcOps)
  /-- CALLR (R246): Writes LK and jumps to the address in r. -/
  | callr (o : SpcOps)
  /-- RETX (R259): Returns from an exception, restoring PC from XPC and ST from XST. -/
  | retx (o : SpcOps)
  /-- SVC (R258): Raises the SVC exception, entering the ROM for numbers 0xF000 and above. -/
  | svc (o : SpcOps)
  /-- BRK (R246): Raises the BRK exception. -/
  | brk (o : SpcOps)
  /-- RDSP (R246): Reads a special register into r. -/
  | rdsp (o : SpcOps)
  /-- WRSP (R246): Writes r into a special register. -/
  | wrsp (o : SpcOps)
  /-- EI (R246): Sets IE and clears HOLD. -/
  | ei (o : SpcOps)
  /-- DI (R246): Clears IE. -/
  | di (o : SpcOps)
  /-- WAIT_DOZE (R246): WAIT 0 stops the core clock until an interrupt would be accepted. -/
  | waitDoze (o : WaitOps)
  /-- DOZE_END (R246): An enabled interrupt becomes pending and the core clock restarts after WAIT 0. -/
  | dozeEnd
  /-- WAIT_LOW_POWER (R372): WAIT 1 requests REST or EASY, checked under R371 and entered in timed stages. -/
  | waitLowPower (o : WaitOps) (a1 : BitVec 14) (a2 : BitVec 14)
  /-- SYNC (R246): Completes when every earlier bus write has reached its target. -/
  | sync (o : SpcOps)
  /-- IINV (R246): Invalidates the instruction cache. -/
  | iinv (o : SpcOps)
  /-- MOVS (R254): Copies g3 elements from g1 to g2. -/
  | movs (o : SpcOps)
  /-- FILLS (R254): Writes g4 to g3 elements at g2. -/
  | fills (o : SpcOps)
  /-- CMPS (R254): Compares elements at g1 and g2 until the first unequal pair. -/
  | cmps (o : SpcOps)
  /-- SCANS (R254): Scans elements at g1 for the value in g4. -/
  | scans (o : SpcOps)
  /-- CRCS (R254): Folds the elements' bytes into the CRC in g4. -/
  | crcs (o : SpcOps)
  /-- CALLM (R252): Pushes the named registers and a return address at g13 and jumps. -/
  | callm (o : CallmOps)
  /-- RETM (R253): Restores the frame CALLM built and jumps to the stored return address. -/
  | retm (o : CallmOps)
  /-- PROGRAM (R281): The ROM flash service programs blank 16-B units in order, verifying each. -/
  | program (vsys : Nat) (failAt : Option Nat) (lowAt : Stretch)
  /-- ERASE (R282): The ROM flash service journals and starts an erase of a sector or block. -/
  | erase (vsys : Nat)
  /-- SUSPEND (R283): The ROM service stops a running erase within 20 µs. -/
  | suspend
  /-- RESUME (R283): The ROM service restarts a suspended erase with a new pulse. -/
  | resume (vsys : Nat)
  /-- FLASH_STATUS (R279): The ROM service returns the erase state, unit, pulses and last status. -/
  | flashStatus
  /-- READ_COUNTERS (R279): The ROM service returns a unit's erase count, pulse count and marks. -/
  | readCounters
  /-- FCNT_RESERVE (R229): The ROM service writes a frame-counter record with RES + 4,096 and updates CIPH0_FCRES. -/
  | fcntReserve (vsys : Nat) (verified : Bool)
  /-- ERASE_PULSE_END (R276): A 200 µs erase pulse ends and its blank check decides whether to continue. -/
  | erasePulseEnd (blank : Bool)
  /-- SRAM_BANK_CLEAR_DONE (R273): A powered-up SRAM bank finishes clearing itself and stalled accesses proceed. -/
  | sramBankClearDone (b : Fin 8)
  /-- XSPI_SEQUENCE (R295): A write of XSPI_SEQCMD.START begins one command sequence. -/
  | xspiSequence (v : Word)
  /-- XSPI_SEQUENCE_DONE (R295): A command sequence ends, the read buffer is invalidated and polling starts if WIP was set. -/
  | xspiSequenceDone (rx : List Byte) (device : List (Nat × Byte))
  /-- XSPI_STATUS_POLL (R295): Every 1 µs the controller reads the device status until its busy bit reads 0. -/
  | xspiStatusPoll (status : Byte)
  /-- DMA_ENABLE (R297): Setting a channel's DMA_EN bit checks its addresses and starts or arms the transfer. -/
  | dmaEnable (v : Word)
  /-- DMA_ELEMENT (R299): A DMA channel moves one element. -/
  | dmaElement (n : Fin 8) (uncorrectable : Bool)
  /-- RIGGER_CHANNEL_FIRE (R322): A source event reaches an enabled channel, which dispatches its tasks in the same fabric cycle. -/
  | riggerChannelFire (n : Fin 64)
  /-- RIGGER_SOFT_FIRE (R347): A write to RIGGER_FIREk fires the channel as its source would. -/
  | riggerSoftFire (k : Fin 2) (v : Word)
  /-- RIGGER_LOCK (R325): A write of 1 to RIGGER_LOCKk locks a channel until a package reset. -/
  | riggerLock (k : Fin 2) (v : Word)
  /-- RIGGER_COUNT_CLEAR (R347): A write to RIGGER_CNTCLR clears one or every channel's counts. -/
  | riggerCountClear (v : Word)
  /-- PENDING_TASK (R324): A pending task acts as soon as its consumer is free. -/
  | pendingTask (t : Fin 256)
  /-- ST_TICK (R332): A short timer counts one tick, firing compares and ending periods. -/
  | stTick (n : Fin 8)
  /-- ST_TOP_WRITE (R332): A write to STIM_STn_TOP changes the period limit, possibly turning the count down. -/
  | stTopWrite (n : Fin 8) (v : Word)
  /-- ST_CC_WRITE (R333): A write to STIM_STn_CCk sets the compare value and re-arms it. -/
  | stCcWrite (n : Fin 8) (k : Fin 4) (v : Word)
  /-- LT_TICK (R337): A long timer counts down one tick or reloads at 0, firing EV_LTn_ZERO and compares. -/
  | ltTick (n : Fin 2)
  /-- LT_ENABLE (R337): Setting a long timer's enable loads its count from BUF. -/
  | ltEnable (v : Word)
  /-- LT_CMP_WRITE (R339): A write to LTIM_LTn_CMP sets and arms the compare. -/
  | ltCmpWrite (n : Fin 2) (v : Word)
  /-- RTC_SECOND (R340): The prescaler passes 32,767, the seconds advance and EV_RTC_SEC fires. -/
  | rtcSecond
  /-- RTC_SECONDS_WRITE (R341): A write to RTC_SECONDS requests a load of the seconds at the next LF edge. -/
  | rtcSecondsWrite (v : Word)
  /-- RTC_LOAD (R341): At the LF edge the seconds are loaded, the prescaler cleared and TIME_VALID set. -/
  | rtcLoad
  /-- RTC_ALARM_WRITE (R344): A write to RTC_ALARM arms the alarm. -/
  | rtcAlarmWrite (v : Word)
  /-- RTC_POWER_ON_RESET (R34): VRTC falls below 1.5 V and the RTC domain is cleared. -/
  | rtcPowerOnReset
  /-- VRTC_SWITCH (R382): VRTC switches between VAON and VBAK at the 50 mV thresholds. -/
  | vrtcSwitch (vaon : Nat) (vbak : Nat)
  /-- VIN_LOST (R355): VIN falls through 2.75 V, the power path changes source and EV_VIN_LOST fires. -/
  | vinLost
  /-- VIN_RETURN (R355): VIN rises through 2.85 V, the power path returns to VIN and EV_VIN_RETURN fires. -/
  | vinReturn
  /-- STORE_REGULATOR_START (R356): With VIN absent and VSTORE above 2.2 V the store regulator starts feeding VSYS. -/
  | storeRegulatorStart
  /-- STORE_REGULATOR_STOP (R356): VSTORE falls through 2.0 V, the regulator stops and VSYS is pulled to GND. -/
  | storeRegulatorStop
  /-- VSTORE_MEASUREMENT (R386): Every 1,024 LF ticks VSTORE is measured into GOV_LEVEL. -/
  | vstoreMeasurement (mv : Nat)
  /-- CHARGE_CEILING (R364): The comparator stops the charger at V_ceil and EV_GOV_CEIL fires. -/
  | chargeCeiling
  /-- CHARGE_RESTART (R364): VSTORE falls below 0.98 × V_ceil and charging restarts. -/
  | chargeRestart
  /-- OVERSHOOT_BLEED (R365): VSTORE exceeds 1.03 × V_ceil and DISCH is driven until VSTORE falls to V_ceil. -/
  | overshootBleed
  /-- OVERSHOOT_BLEED_END (R365): VSTORE falls to V_ceil and the overshoot bleed ends. -/
  | overshootBleedEnd
  /-- DOOR_OPEN (R366): A debounced DOOR assertion starts a bleed to V_SAFE and fires EV_GOV_DOOR. -/
  | doorOpen
  /-- DOOR_CLOSED (R366): DOOR has been low for 10 ms and the governor leaves HELD after a DOOR bleed. -/
  | doorClosed
  /-- GOV_DISCHARGE (R366): A write of GOV_CMD.DISCHARGE starts a bleed to V_SAFE. -/
  | govDischarge
  /-- GOV_RESUME (R366): A write of GOV_CMD.RESUME takes the governor from HELD to IDLE. -/
  | govResume
  /-- BLEED_SAFE (R366): VSTORE falls below V_SAFE, EV_GOV_SAFE fires and the governor enters HELD. -/
  | bleedSafe
  /-- BLEED_TIMEOUT (R367): T_BLEED_MAX passes without reaching V_SAFE and the governor enters LOCKOUT. -/
  | bleedTimeout
  /-- RELAY_PULSE_START (R488): A write of LUM_RLY.START drives a coil pulse within the governor's limits or is refused with BUSY. -/
  | relayPulseStart (v : Word)
  /-- RELAY_PULSE_END (R369): A coil pulse ends at LEN or RLY_TMAX and EV_RLY_DONE fires. -/
  | relayPulseEnd
  /-- RELAY_INTERVAL_END (R369): RLY_TMIN has passed since the last pulse start and a waiting relay task may act. -/
  | relayIntervalEnd
  /-- ENTRY_LF_EDGE (R372): At the LF edge of an entry the carry is recorded, the link clock stops and the radio goes to SLEEP. -/
  | entryLfEdge (wake : BitVec 14)
  /-- ENTRY_COMPLETE (R372): The regions are switched off or to low power and the device is in REST or EASY. -/
  | entryComplete
  /-- WAKE_FROM_REST (R374): A wake source ends REST and the core resumes on HFRC within 8 µs. -/
  | wakeFromRest (src : BitVec 14)
  /-- WAKE_FROM_EASY (R375): A wake source ends EASY with a start reset carrying the WAKE flag. -/
  | wakeFromEasy (src : BitVec 14)
  /-- XO_STABLE (R379): XO40 becomes stable and PWR_CLKSTAT.XOOK is set. -/
  | xoStable
  /-- PLL_LOCK (R379): The PLL locks and PLLLOCK is set. -/
  | pllLock
  /-- CLOCK_SELECT (R379): A write to PWR_CLKSEL switches the core and bus clock glitch-free, or is ignored without lock. -/
  | clockSelect (v : Word)
  /-- XO_FAIL (R380): XO40 stops while the PLL is selected and the core moves to HFRC with XOFAIL set. -/
  | xoFail
  /-- LF_CRYSTAL_OK (R381): The LF crystal has run stably for 1,024 cycles and the AO region switches to it, setting LFOK. -/
  | lfCrystalOk
  /-- LF_CRYSTAL_FAIL (R381): The LF crystal stops, the AO region returns to LFRC, LFOK clears and LFFAIL is set. -/
  | lfCrystalFail
  /-- ALIVE_WRITE (R408): A write of the key to SYS_ALIVE sets ALIVE, clears the start-fail count and reloads the watchdog. -/
  | aliveWrite (v : Word)
  /-- WATCHDOG_WARNING (R408): One eighth of the loaded watchdog time remains and IRQ_SYS asserts. -/
  | watchdogWarning
  /-- WATCHDOG_EXPIRY (R408): The watchdog expires, performing a start reset with cause WDOG and staging a record. -/
  | watchdogExpiry
  /-- SOFTWARE_RESET (R413): A write of 0x5A5A to SYS_SWRST requests a start reset with SOFT. -/
  | softwareReset (v : Word)
  /-- BOW_UCODE_LOAD (R398): A write of SYS_BOWCTL.LOAD with the radio in SLEEP opens the Bow RAM and clears UCODE_OK. -/
  | bowUcodeLoad
  /-- BOW_UCODE_DATA (R398): A write to SYS_BOWDATA stores one word across the die-to-die link while a load is open. -/
  | bowUcodeData (v : Word)
  /-- BOW_UCODE_DONE (R398): A write of SYS_BOWCTL.DONE closes the load and starts the Bow RAM CRC. -/
  | bowUcodeDone
  /-- BOW_UCODE_CRC_READY (R398): The Bow RAM CRC is ready in SYS_BOWCRC. -/
  | bowUcodeCrcReady
  /-- BOW_UCODE_GOOD (R398): A write of SYS_BOWCTL.GOOD after a completed CRC sets RCTL_STAT.UCODE_OK. -/
  | bowUcodeGood
  /-- OTP_READ (R417): OTPC_CMD OP 1 reads a row into OTPC_RD0–3. -/
  | otpRead (m : Master)
  /-- OTP_PROGRAM (R417): OTPC_CMD OP 2 programs one row outside the records and thermometers. -/
  | otpProgram (m : Master) (vsys : Nat) (verified : Bool)
  /-- APPEND_REG (R417): OTPC_CMD OP 3 programs the next generation of a regulatory profile if equal or stricter. -/
  | appendReg (m : Master) (vsys : Nat) (verified : Bool)
  /-- APPEND_GOV (R417): OTPC_CMD OP 4 programs the next governor record generation if equal or stricter. -/
  | appendGov (m : Master) (vsys : Nat) (verified : Bool)
  /-- ADVANCE (R417): OTPC_CMD OP 5 programs the next lifecycle bit. -/
  | advance (m : Master) (vsys : Nat) (verified : Bool)
  /-- RAISE_ARB (R417): OTPC_CMD OP 6 from ROM adds 1 bits to the anti-rollback thermometer. -/
  | raiseArb (m : Master) (vsys : Nat) (verified : Bool)
  /-- OTP_DONE (R417): An OTP operation completes, clears BUSY, sets DONE and writes its status. -/
  | otpDone
  /-- STATUS (R433): The host-port STATUS command returns the 20-octet device status. -/
  | status (tr : Tr) (tag : Byte)
  /-- RESET_LINK_REGION (R438): RESET with SCOPE 1 queues its reply and then performs a link-region reset. -/
  | resetLinkRegion (tr : Tr) (tag : Byte) (instant : Option (BitVec 48))
  /-- RESET_RADIO_DIE (R438): RESET with SCOPE 2 queues its reply and then performs a radio-die reset. -/
  | resetRadioDie (tr : Tr) (tag : Byte) (instant : Option (BitVec 48))
  /-- RESET_START (R438): RESET with SCOPE 3 queues its reply and then performs a start reset, at once or at the AT instant. -/
  | resetStart (tr : Tr) (tag : Byte) (instant : Option (BitVec 48))
  /-- RESET_DELAY_EXPIRY (R438): The reply is removed, sent or 5 ms have passed, and the requested reset takes place. -/
  | resetDelayExpiry
  /-- TIMED_RESET (R438): NTIME reaches the AT instant of a RESET and the reset takes place. -/
  | timedReset
  /-- ABORT_TX (R442): ABORT of TX ends the transmission, aborts queued frames and cancels acknowledgements and relays. -/
  | abortTx (tr : Tr) (tag : Byte)
  /-- ABORT_LANE (R442): ABORT of one lane drops its frame with STOPPED and clears its enable. -/
  | abortLane (tr : Tr) (tag : Byte) (n : Fin 4)
  /-- ABORT_LANES (R442): ABORT of all lanes stops every lane and takes the radio to STBY. -/
  | abortLanes (tr : Tr) (tag : Byte)
  /-- ABORT_RELAYS (R442): ABORT of relays cancels pending relays and clears their holds. -/
  | abortRelays (tr : Tr) (tag : Byte)
  /-- ABORT_CIPH (R213): ABORT of a cipher page ends its operation with ABORTED and clears its data registers. -/
  | abortCiph (tr : Tr) (tag : Byte) (n : Fin 8)
  /-- ABORT_DMA (R442): ABORT of a DMA channel ends its transfer with ABORTED. -/
  | abortDma (tr : Tr) (tag : Byte) (n : Fin 8)
  /-- ABORT_FLASH_PROG (R442): ABORT of a flash program ends PROGRAM after the unit in progress. -/
  | abortFlashProg (tr : Tr) (tag : Byte)
  /-- ABORT_FLASH_ERASE (R290): ABORT of a flash erase stops the erase and leaves the unit torn. -/
  | abortFlashErase (tr : Tr) (tag : Byte)
  /-- ABORT_XSPI (R442): ABORT of XSPI ends the sequence, releases the chip select and invalidates the read buffer. -/
  | abortXspi (tr : Tr) (tag : Byte)
  /-- ABORT_CORE (R442): ABORT of the core resets the core cluster, frees core cells and unbinds its cipher pages. -/
  | abortCore (tr : Tr) (tag : Byte)
  /-- ABORT_COX (R442): ABORT of the Cox sequencer resets the LINK cluster keeping UCODE_OK and sets LINK_MODE OFF. -/
  | abortCox (tr : Tr) (tag : Byte)
  /-- ABORT_UPDATE (R442): ABORT of the update returns the update or CONFIG engine to IDLE. -/
  | abortUpdate (tr : Tr) (tag : Byte)
  /-- ABORT_ALL (R442): ABORT of all targets aborts every target in parallel and revokes HOST cells. -/
  | abortAll (tr : Tr) (tag : Byte)
  /-- READ_MEM (R434): The host port reads memory as its own bus master and returns the octets. -/
  | readMem (tr : Tr) (tag : Byte) (p : List Byte)
  /-- WRITE_MEM (R434): The host port writes memory whole or refuses the whole write. -/
  | writeMem (tr : Tr) (tag : Byte) (p : List Byte)
  /-- SEND_FRAME (R435): The host port copies a frame into a HOST chain and queues its descriptor in the host TX ring. -/
  | sendFrame (tr : Tr) (tag : Byte) (p : List Byte)
  /-- FETCH_FRAME (R435): The host port returns the oldest host RX descriptor with its octets. -/
  | fetchFrame (tr : Tr) (tag : Byte)
  /-- APP (R436): The host port hands the payload to the firmware in a chain and asserts IRQ_HOSTP. -/
  | app (tr : Tr) (tag : Byte) (p : List Byte)
  /-- APP_REPLY (R436): A write of HOSTP_APPOUT.SEND sends the firmware's chain as the APP reply. -/
  | appReply (v : Word)
  /-- APP_TIMEOUT (R436): No APP answer comes within APPTMO and the reply is LATE. -/
  | appTimeout
  /-- UPDATE_BEGIN (R403): The update engine checks a release header, erases the staging area and writes the header. -/
  | updateBegin (tr : Tr) (tag : Byte) (p : List Byte)
  /-- UPDATE_BLOCK (R404): The update engine stores a block of payload at its offset in the staging area. -/
  | updateBlock (tr : Tr) (tag : Byte) (p : List Byte)
  /-- UPDATE_END (R405): The update engine checks IMG_CMAC over the staged image. -/
  | updateEnd (tr : Tr) (tag : Byte)
  /-- UPDATE_COMMIT (R406): The engine writes the COMMIT mark and requests a start reset with SOFTSRC COMMIT. -/
  | updateCommit (tr : Tr) (tag : Byte)
  /-- CONFIG_BEGIN (R437): The engine checks a crew-sheet header, erases the unapplied slot and writes the header. -/
  | configBegin (tr : Tr) (tag : Byte) (p : List Byte)
  /-- CONFIG_BLOCK (R437): The engine programs a block of crew-sheet records into the slot. -/
  | configBlock (tr : Tr) (tag : Byte) (p : List Byte)
  /-- CONFIG_END (R437): The engine checks the crew-sheet CMAC and records and returns to IDLE. -/
  | configEnd (tr : Tr) (tag : Byte)
  /-- LOG_READ (R432): The host port returns logbook records from a sequence number upwards. -/
  | logRead (tr : Tr) (tag : Byte) (p : List Byte)
  /-- STATS_READ (R455): The host port returns the last completed heat or the live statistics. -/
  | statsRead (tr : Tr) (tag : Byte) (p : List Byte)
  /-- TIME_GET (R439): The host port snapshots NTIME and the RTC with their AO tick counts. -/
  | timeGet (tr : Tr) (tag : Byte)
  /-- TIME_SET (R439): The host port loads NTIME, the RTC seconds or both. -/
  | timeSet (tr : Tr) (tag : Byte) (p : List Byte)
  /-- KEY_LOAD (R215): The host port passes a wrapped key blob to P1 for UNWRAP into a volatile slot. -/
  | keyLoad (tr : Tr) (tag : Byte) (p : List Byte)
  /-- DISCHARGE (R366): The host-port DISCHARGE command starts a bleed to V_SAFE. -/
  | discharge (tr : Tr) (tag : Byte)
  /-- SPI_POLL (R424): An SPI transaction with OP POLL returns the four status octets. -/
  | spiPoll (early : Bool)
  /-- SPI_WRITE (R424): An SPI transaction with OP WRITE delivers one command frame to the port. -/
  | spiWrite (octets : List Byte) (early : Bool)
  /-- SPI_READ (R424): An SPI transaction with OP READ sends the first waiting frame, removing it when read whole. -/
  | spiRead (n : Nat) (early : Bool)
  /-- SPI_UNKNOWN_OP (R424): An SPI transaction with any other OP is ignored and recorded as BADOP. -/
  | spiUnknownOp (op : Byte)
  /-- HOST_FRAME_TOO_LONG (R422): A host frame with LEN above 4,096 is discarded with a LENGTH reply. -/
  | hostFrameTooLong (tr : Tr) (code : Byte) (tag : Byte)
  /-- HOST_FRAME_SHORT (R422): A host frame that ends before LEN octets is discarded with a LENGTH reply. -/
  | hostFrameShort (tr : Tr) (code : Byte) (tag : Byte)
  /-- HOST_FRAME_CRC_FAIL (R422): A host frame with a CRC mismatch is discarded without reply and counted as CRC_FAIL. -/
  | hostFrameCrcFail (tr : Tr)
  /-- UART_GAP_TIMEOUT (R426): A gap of more than 2 ms between UART octets discards the partial frame. -/
  | uartGapTimeout
  /-- HEAT_END (R451): At a heat boundary the statistics are latched, heat counts restart and EV_HEAT_END fires. -/
  | heatEnd
  /-- HEAT_END_REQUEST (R450): A write of STATS_CMD.END ends the heat at the next LF edge. -/
  | heatEndRequest
  /-- TALLY_SNAPSHOT (R458): A trigger or the period starts a snapshot of the listed pages' performance counters. -/
  | tallySnapshot
  /-- TALLY_SNAPSHOT_DONE (R458): A snapshot has been written to the ring in main SRAM. -/
  | tallySnapshotDone
  /-- TALLY_BUFFER_CLEAR (R463): A write of TALLY_BUFSTAT.CLR empties the sampling buffer. -/
  | tallyBufferClear
  /-- LOG_COMMIT (R468): The ROM service commits staged records to the logbook ring. -/
  | logCommit (vsys : Nat) (failAt : Option Nat)
  /-- LOG_APPEND (R468): The ROM service commits staged records and then a USER record. -/
  | logAppend (vsys : Nat) (failAt : Option Nat)
  /-- LOG_POP (R480): A write of LOGB_POP from ROM removes the oldest staged record. -/
  | logPop (m : Master)
  /-- MON_RD (R472): The monitor reads n words. -/
  | monRd (a : Word) (n : Nat)
  /-- MON_WR (R472): The monitor writes one word. -/
  | monWr (a : Word) (v : Word)
  /-- MON_FILL (R472): The monitor writes a value to n words. -/
  | monFill (a : Word) (n : Nat) (v : Word)
  /-- MON_DUMP (R472): The monitor shows n octets as hex and ASCII. -/
  | monDump (a : Word) (n : Nat)
  /-- MON_LOAD (R472): The monitor takes hex records until an empty record. -/
  | monLoad
  /-- HEX_RECORD (R473): A hex record is checked and its octets written, or an empty record ends the load. -/
  | hexRecord (a : Word) (data : List Byte) (sum : Byte)
  /-- MON_GO (R472): The monitor restores the saved registers and jumps. -/
  | monGo (a : Word)
  /-- MON_BP (R474): The monitor sets a breakpoint comparator. -/
  | monBp (n : Nat) (a : Word) (kind : Nat) (mask : Nat)
  /-- MON_BPC (R474): The monitor clears a breakpoint comparator. -/
  | monBpc (n : Nat)
  /-- MON_STEP (R475): The monitor executes n instructions, raising BRK after each. -/
  | monStep (n : Nat)
  /-- MON_REGS (R472): The monitor shows the saved registers. -/
  | monRegs
  /-- MON_SET (R472): The monitor changes a saved register. -/
  | monSet (r : Fin 22) (v : Word)
  /-- MON_FLASH (R472): The monitor calls a ROM flash service and shows its results. -/
  | monFlash (op : Fin 4) (a1 : Word) (a2 : Word) (a3 : Word) (vsys : Nat)
  /-- MON_LOG (R472): The monitor shows logbook records. -/
  | monLog (seq : Word) (n : Nat)
  /-- MON_UNLOCK (R476): The monitor checks an unlock response and opens or issues a new challenge. -/
  | monUnlock (response : List Byte) (cycles : List Word)
  /-- UNLOCK_TIMEOUT (R476): 60 s pass without an unlock and the ROM continues the start sequence. -/
  | unlockTimeout
  /-- MON_BAUD_DETECT (R471): After a framing error the monitor measures the next 0x55 and adopts its rate. -/
  | monBaudDetect (baud : Nat)
  /-- DALI_SEND (R485): A write of DALI_FWD.SEND starts a forward-frame send. -/
  | daliSend (v : Word)
  /-- DALI_SETTLED (R485): The bus has been idle for the settling time and the forward frame starts. -/
  | daliSettled
  /-- DALI_FORWARD_DONE (R485): The forward frame has been sent, BUSY clears and EV_DALI_TXDONE fires. -/
  | daliForwardDone
  /-- DALI_BACKWARD_FRAME (R485): A backward frame arrives in the reply window and REPLY is set. -/
  | daliBackwardFrame (framing : Bool) (value : Byte)
  /-- DALI_REPLY_TIMEOUT (R485): The reply window closes with no reply and REPLY reports NO_REPLY. -/
  | daliReplyTimeout
  /-- DALI_COLLISION (R486): DALI_RX differs from the sent level, EV_DALI_COLL fires and the send retries. -/
  | daliCollision
  /-- DALI_BUS_FAIL (R487): DALI_RX stays active for 45 ms, BUSFAIL is set and IRQ_DALI asserts. -/
  | daliBusFail
  /-- DALI_BUS_IDLE (R487): The bus has been idle for 2.4 ms after a failure and BUSFAIL clears. -/
  | daliBusIdle
  /-- METER_PULSE (R490): A debounced meter pulse increments LUM_MCNT and fires EV_METER_PULSE. -/
  | meterPulse
  /-- METER_LOAD (R490): A write to LUM_MCNT loads the meter count. -/
  | meterLoad (v : Word)
  /-- ADC_START (R493): A write of ADC_CMD.START starts a conversion sequence over ADC_SEQ.MASK. -/
  | adcStart
  /-- ADC_SEQUENCE_DONE (R493): The conversion sequence ends, results are written and EV_ADC_DONE fires. -/
  | adcSequenceDone (codes : List (BitVec 12))
  /-- UART_RX_OCTET (R495): A UART receives an octet into its FIFO, or drops it and sets OVR. -/
  | uartRxOctet (n : Fin 3) (b : Byte) (ferr : Bool) (perr : Bool)
  /-- UART_TX_WRITE (R495): A write to UARTn_DATA queues an octet for transmission. -/
  | uartTxWrite (n : Fin 3) (v : Word)
  /-- UART_RX_READ (R495): A read of UARTn_DATA takes an octet from the RX FIFO. -/
  | uartRxRead (n : Fin 3)
  /-- I2C_START (R496): A write of I2Cn_CMD.START begins a write-then-read transfer. -/
  | i2cStart (n : Fin 2) (v : Word)
  /-- I2C_DONE (R496): An I2C transfer completes with its status and EV_I2Cn_DONE fires. -/
  | i2cDone (n : Fin 2) (e : I2cEnd)
  /-- GPIO_EDGE (R499): A selected edge on a GP ball sets its flag and fires EV_GPIOn. -/
  | gpioEdge (n : Fin 36) (rising : Bool)
  /-- GPIO_SET (R499): A write to GPIO_SETk sets output bits. -/
  | gpioSet (k : Fin 2) (v : Word)
  /-- GPIO_CLR (R499): A write to GPIO_CLRk clears output bits. -/
  | gpioClr (k : Fin 2) (v : Word)
  /-- HEADER_OVERLONG (R134): The 65th octet of a MAC header arrives at the lane and the frame is given DROP_LENGTH at that moment. -/
  | headerOverlong (n : Fin 4)
  /-- DALI_FOREIGN_FRAME (R483): A forward frame sent by another master arrives on DALI_RX and is counted and not delivered. -/
  | daliForeignFrame
  /-- UART_TX_OCTET_SENT (R495): A UART finishes shifting out an octet from its TX FIFO and the TX level falls. -/
  | uartTxOctetSent (n : Fin 3)
  /-- HOST_UART_FRAME_SENT (R435): The host port finishes sending a reply frame on the UART transport, freeing a FETCH_FRAME chain and releasing a pending RESET. -/
  | hostUartFrameSent
  deriving DecidableEq, Repr

end Sys2Proof
end

