-- ==== Sys2Proof/Decode.lean ====
section
/-!
DEFINITION. The commands that words spell: spec/opcode_table.json gives none of its rows bits.
-/
namespace Sys2Proof

/-- The command a word spells: none, since the table gives no row any bits. -/
def decodeTableWord (_nbits _w : Nat) : Option Instr := none

end Sys2Proof
end

