-- ==== Sys2Proof/Config.lean ====
section
/-!
DEFINITION. What one device fixes and the spec does not state: free values, each an opaque constant without a body,
so that nothing proved about the model can rest on a value of it (log entry 2).
-/
namespace Sys2Proof.Config

/-- The free values the spec leaves open (a result called undefined, a latency given as a range, a random draw):
the argument is the state's counter of free values taken so far (log entry 2). -/
opaque freeNat : Nat → Nat

/-- The octets of the 64 KB ROM (R269): the spec gives its services' effects and not its contents (log entry 3). -/
opaque romByte : Nat → Byte

end Sys2Proof.Config
end

