-- ==== Sys2Proof/Machine/Sparse.lean ====
section
/-!
DEFINITION. Sparse data by key in one canonical form: keys strictly rising, no entry equal to what an unlisted key
reads as, so that equal contents are equal lists. Memory, the register file, the link tables and OTP all use it.
-/
namespace Sys2Proof.Machine

/-- Contents by key; what an unlisted key reads as is a function beside it. -/
abbrev Sparse (α : Type) := List (Nat × α)

/-- The value at a key. -/
def Sparse.get {α : Type} (dflt : Nat → α) : Sparse α → Nat → α
  | [], k => dflt k
  | (i, v) :: m, k => if i = k then v else Sparse.get dflt m k

/-- Unlist a key. -/
def Sparse.del {α : Type} (m : Sparse α) (k : Nat) : Sparse α := m.filter fun e => e.1 != k

/-- List a key, in front of the first greater one. -/
def Sparse.ins {α : Type} : Sparse α → Nat → α → Sparse α
  | [], k, v => [(k, v)]
  | (i, w) :: m, k, v => if k < i then (k, v) :: (i, w) :: m else (i, w) :: Sparse.ins m k v

/-- Store a value at a key, keeping the keys rising; `dflt` itself is never listed. -/
def Sparse.set {α : Type} [DecidableEq α] (dflt : Nat → α) (m : Sparse α) (k : Nat) (v : α) : Sparse α :=
  if v = dflt k then Sparse.del m k else Sparse.ins (Sparse.del m k) k v

/-- Forget every listed key that `p` accepts: those keys read as unlisted again. -/
def Sparse.drop {α : Type} (p : Nat → Bool) (m : Sparse α) : Sparse α :=
  m.filter fun e => !p e.1

/-- The canonical form. -/
def Sparse.Wf {α : Type} (dflt : Nat → α) (m : Sparse α) : Prop :=
  m.Pairwise (fun a b => a.1 < b.1) ∧ ∀ e ∈ m, e.2 ≠ dflt e.1

end Sys2Proof.Machine
end

