-- ==== Sys2Proof/Machine/Dev.lean ====
section
/-!
DEFINITION. The state the block's units hold beside their registers: plain data, one structure per unit. Every
architectural register lives in the register file of `State`; what stands here is the state the chapters give in words.
-/
namespace Sys2Proof.Machine

/-! ### Stroke core (chapter 9) -/

/-- What the core clock does: running, stopped by WAIT 0, stopped by WAIT 1 (REST or EASY), or waiting in Dead (R246,
R372, R410). -/
inductive CoreRun where
  | run
  | doze
  | lowPower
  deriving DecidableEq, Repr

/-- A load whose result the next instruction does not see yet (R250): destination, value and the address of LD. -/
structure LdSlot where
  rd : Nat
  val : Word
  pc : Word
  deriving DecidableEq, Repr

/-- The Stroke core's registers (R238) and its load slot (R250), cache (R267) and clock. -/
structure Core where
  g : Sparse Word := []
  pc : Word := 0
  st : Word := 0x801
  xpc : Word := 0
  xst : Word := 0
  vbase : Word := 0
  xcause : Word := 0
  faddr : Word := 0
  cycle : Word := 0
  slot : Option LdSlot := none
  run : CoreRun := .run
  /-- An instruction is under way; a reset of the core ends it. -/
  insn : Bool := false
  /-- The service that an SVC named, while the ROM carries it out (R258, R279). -/
  svc : Option Nat := none
  /-- Lines of the instruction cache, newest first: line number and its eight words (R267). -/
  icache : List (Nat × List Word) := []
  deriving DecidableEq, Repr

/-- The interrupt controller's latches, bit n for line n (R262). -/
structure Intc where
  soft : Nat := 0
  edge : Nat := 0
  deriving DecidableEq, Repr

/-! ### Memory, flash, XSPI, DMA (chapter 10) -/

/-- One erase unit of the on-chip flash (R275, R282, R289). -/
structure FlashUnit where
  count : Nat := 0
  /-- Pulses of the last completed erase, and those an erase that left the unit torn had reached. -/
  pulses : Nat := 0
  reached : Nat := 0
  torn : Bool := false
  deriving DecidableEq, Repr

/-- A PROGRAM between two of its units (R281): target, source, units in all and verified, FLASHC_STAT.STATE before it, where
in the ROM it goes on, what it goes back to (PC, ST) and the XPC and XST it has saved. `ended`: its lock was revoked (R443). -/
structure Prog where
  dst : Nat
  src : Nat
  total : Nat
  done : Nat := 0
  was : Nat
  pc : Word := 0
  back : Word × Word
  keep : Word × Word
  ended : Bool := false
  deriving DecidableEq, Repr

/-- The flash controller: unit records by unit number, where the journal stands (R287, R288), a PROGRAM under way (R281). -/
structure Flash where
  units : Sparse FlashUnit := []
  jSector : Nat := 0
  jNext : Nat := 0
  jSeq : Nat := 0
  jOpen : Bool := false
  /-- The core was reset while the erase ran (R442): its result is journalled at the service's next call; that result. -/
  orphan : Bool := false
  owed : Option (Nat × Nat × Nat) := none
  prog : Option Prog := none
  deriving DecidableEq, Repr

/-- The XSPI controller: the chip select being polled, and the devices' busy bits (R295). -/
structure Xspi where
  pollCs : Nat := 0
  wip : Bool := false
  /-- Lines of the mapped-read buffer, newest first (R294). -/
  lines : List Nat := []
  deriving DecidableEq, Repr

/-- A DMA channel's live state (R298): running, and the element it stands at. -/
structure DmaCh where
  active : Bool := false
  idx : Nat := 0
  deriving DecidableEq, Repr

/-! ### Rigger and timers (chapter 12) -/

/-- A Rigger channel's counts (R324, R326, R348) and its firings in the present LF tick. -/
structure RigCh where
  drop : Nat := 0
  fired : Nat := 0
  trips : Nat := 0
  inTick : Nat := 0
  /-- Firings discarded in the present LF tick (R326). -/
  disc : Nat := 0
  deriving DecidableEq, Repr

/-- The Rigger's pending tasks: task number and the channel that sent it (R324). -/
structure Rigger where
  ch : Sparse RigCh := []
  pend : List (Nat × Nat) := []
  /-- Tasks taken in the present fabric cycle, with the channels that sent them (R323): an LF tick for channels 0–15, a bus
  clock cycle for the others (R321; log entry 132). -/
  taken : List (Nat × Nat) := []
  /-- Main-region channels whose event is held at its crossing while the main clocks are stopped (R322). -/
  held : List Nat := []
  /-- Event outputs 0–3 (R498). -/
  gpo : Nat := 0
  deriving DecidableEq, Repr

/-- A short timer's live state beside its registers (R332–R335): armed compares and outputs, bit k for channel k. -/
structure StLive where
  armed : Nat := 0xF
  out : Nat := 0
  /-- The TOP in force, while one written as the timer counts down waits for the next up half (R332). -/
  held : Option Nat := none
  deriving DecidableEq, Repr

/-- A long timer's live state (R337–R339). -/
structure LtLive where
  armed : Bool := false
  deriving DecidableEq, Repr

/-- The RTC domain beside its registers (R340, R341). -/
structure Rtc where
  prescaler : Nat := 0
  /-- A load waiting for the next LF edge, and whether a bus write asked for it (R342). -/
  load : Option (Nat × Bool) := none
  /-- TK_RTC_LOAD has been taken, and its LF edge is still to come (R330). -/
  task : Bool := false
  deriving DecidableEq, Repr

/-! ### Time, power, clocks (chapters 6, 12, 13) -/

/-- The AO network-time carry (R181): NTIME, the AO LF count and the trim at the record. -/
structure Carry where
  ntime : Nat
  ao : Nat
  trim : Nat
  sync : Bool
  deriving DecidableEq, Repr

/-- The counters that time drives (R4, R177, R182, R340). -/
structure Time where
  /-- Network time in link ticks, 48 bits (R177). -/
  ntime : Nat := 0
  /-- Fraction of NTIME under NTIME_TRIM (R179). -/
  frac : Int := 0
  /-- AO LF tick count, 48 bits (R385). -/
  ao : Nat := 0
  /-- Phase of the LF clock within the 25 ns grid (R4). -/
  lfPhase : Nat := 0
  /-- Link ticks and LF ticks accumulated awake for NTIME_LFCAL (R182). -/
  calLink : Nat := 0
  calLf : Nat := 0
  carry : Option Carry := none
  /-- NTIME waits for its restore from the carry at the next LF edge (R181). -/
  restore : Bool := false
  /-- The short-term clock of the receive instants: link ticks since reset, never set by software. -/
  link : Nat := 0
  /-- 25 ns since reset, the stops of the link clock included: the clock of spans that reach across them (R179, R193, R201). -/
  now : Nat := 0
  deriving DecidableEq, Repr

/-- The device's power state (R370). -/
inductive PwrState where
  | run
  | doze
  | rest
  | easy
  deriving DecidableEq, Repr

/-- The entry in progress (R372): none; requested (A1, A2 sampled up to the LF edge); after the LF edge. -/
inductive Entry where
  | none
  | stopped
  | edge
  deriving DecidableEq, Repr

/-- Supplies as the device sees them, in mV, and the inputs of the power chapter. -/
structure Supply where
  vin : Nat := 2600
  vstore : Nat := 0
  vsys : Nat := 2600
  vaon : Nat := 2600
  vbak : Nat := 0
  vrtc : Nat := 2600
  /-- VSTORE has risen through 2.2 V since the regulator last stopped (R356). -/
  storeReady : Bool := false
  door : Bool := false
  deriving DecidableEq, Repr

/-- The power controller beside its registers. -/
structure Pwr where
  state : PwrState := .run
  entry : Entry := .none
  /-- The target of the entry in progress is EASY. -/
  toEasy : Bool := false
  /-- The entry in progress latched the pads, which no earlier one held: an abandon releases them (R373). -/
  latched : Bool := false
  /-- SRAM banks still clearing, bit b (R273). -/
  clearing : Nat := 0xFF
  xoOk : Bool := false
  /-- A wake source seen since the entry began, in the bits of R376. -/
  wake : Nat := 0
  /-- The AO image-verified token (R375). -/
  token : Bool := false
  deriving DecidableEq, Repr

/-- The energy governor beside GOV_STAT (R366–R369). -/
structure Gov where
  /-- The bleed in progress or HELD was started by DOOR. -/
  byDoor : Bool := false
  /-- A relay pulse is being driven: its direction. -/
  pulse : Option Nat := none
  /-- RLY_TMIN has not passed since the start of the last pulse (R369). -/
  interval : Bool := false
  /-- The length in ms the pulse was started with, after the limit. -/
  pulseLen : Nat := 0
  /-- VSTORE has been measured in the present heat, and its lowest and highest value there (R387, R454). -/
  measured : Bool := false
  vmin : Nat := 0
  vmax : Nat := 0
  deriving DecidableEq, Repr

/-! ### Luminaire and general-purpose interfaces (chapter 17) -/

/-- Where a DALI send stands (R485): none; waiting for the settling time; sending. -/
inductive DaliPhase where
  | idle
  | settling
  | sending
  deriving DecidableEq, Repr

/-- The DALI cluster beside its registers. -/
structure Dali where
  phase : DaliPhase := .idle
  /-- The forward frame and its options, as DALI_FWD held them at the start. -/
  frame : Word := 0
  /-- Which copy of a send-twice frame is under way: 1 or 2. -/
  copy : Nat := 1
  /-- Tries left after a collision (R486). -/
  left : Nat := 0
  /-- The reply window is open (R485). -/
  window : Bool := false
  /-- Forward frames of other masters (R483). -/
  foreign : Nat := 0
  deriving DecidableEq, Repr

/-- A UART's FIFOs, oldest octet first (R495). -/
structure Uart where
  rx : List Byte := []
  tx : List Byte := []
  deriving DecidableEq, Repr

/-- The ADC: whether its limit channel has had a result since the enable (R494). -/
structure Adc where
  hadResult : Bool := false
  deriving DecidableEq, Repr

/-- The main-region pads latched at EASY entry (R21, R377): the levels of the GP balls and which are driven, DIM_PWM and
DALI_TX. -/
structure Pads where
  out : Nat := 0
  dir : Nat := 0
  dim : Bool := false
  dali : Bool := false
  deriving DecidableEq, Repr

/-! ### Radio (chapter 2) -/

/-- A radio state request (R40–R43): the state asked for, whether the channel is to be tuned afresh, whether the link
controller asked, and the link tick of its acceptance. -/
structure RadioReq where
  goal : Nat
  retune : Bool := false
  link : Bool := false
  at_ : Nat := 0
  deriving DecidableEq, Repr

/-- The step of a walk in progress (R42): the state it leads to, whether it tunes the synthesiser and missed the cache,
and the request it serves; a return from TX and a walk after a lost lock serve none. -/
structure Walk where
  next : Nat
  goal : Nat
  tunes : Bool := false
  retune : Bool := false
  miss : Bool := false
  req : Option RadioReq := none
  deriving DecidableEq, Repr

/-- An entry of the calibration cache (R48): frequency word, calibration code, die temperature in 0.25 °C. -/
structure CalEntry where
  word : Nat
  code : Nat
  temp : Int
  deriving DecidableEq, Repr

/-- The radio beside its registers. -/
structure Radio where
  walk : Option Walk := none
  waiting : Option RadioReq := none
  /-- The calibration cache, newest use first, 16 entries at most (R48). -/
  cache : List CalEntry := []
  /-- The frequency word of the last tune (R47). -/
  word : Nat := 0
  /-- The radio-die temperature in 0.25 °C. -/
  temp : Int := 100
  /-- The state a transmission returns to (R44): RX or SYN. -/
  back : Nat := 2
  /-- The Bow sequencer has stopped responding (R46). -/
  bowDead : Bool := false
  /-- Lock was lost and has not been regained (R49). -/
  unlock : Bool := false
  /-- The link ticks of the die-to-die link's latest CRC errors (R26). -/
  d2dErrs : List Nat := []
  /-- The profile latch in the AO region (R61): PROFILE once LOCK was set. -/
  profLatch : Option Nat := none
  /-- The pattern at ANT_SEL1:0 and FEM2:0 (R67). -/
  fem : Nat := 0
  /-- Lanes are blanked: from t_s − 24 µs of a transmission from RX until the radio is back in RX (R90). -/
  blank : Bool := false
  /-- The link tick at which the receive stream started: its bursts follow every 80 ticks from it (R25). -/
  rxAt : Nat := 0
  /-- The register-bus transfer under way has failed its fourth attempt: the access it carries is voided (R26). -/
  busFail : Bool := false
  deriving DecidableEq, Repr

/-- The duty meter (R64–R66): bucket milliseconds by index, the current bucket, the residue in µs, and the minute clock
in LF ticks. -/
structure Duty where
  buckets : Sparse Nat := []
  cur : Nat := 0
  residue : Nat := 0
  minute : Nat := 0
  deriving DecidableEq, Repr

/-! ### Lanes (chapter 3) and the frames they hold (chapters 4 and 5) -/

/-- The verdicts of R136. -/
inductive Verdict where
  | dropFilter
  | dropDup
  | dropReplay
  | dropLength
  | dropNobuf
  | deliver
  | relay
  | both
  deriving DecidableEq, Repr

/-- A frame a lane holds: what was latched and decoded of it, and what the link controller made of its header. -/
structure RxFrame where
  detAt : Nat := 0
  sfdAt : Nat := 0
  coded : Bool := false
  cfo : Int := 0
  rssi : Int := 0
  snr : Nat := 0
  len : Nat := 0
  fcs2 : Bool := false
  white : Bool := false
  mcs : Nat := 0
  seed : Nat := 0
  hdr : List Byte := []
  psdu : List Byte := []
  /-- An acknowledgement or a strobe, heard to its end without being stored (R149, R193). -/
  consumed : Bool := false
  verdict : Option Verdict := none
  row : Nat := 0
  cells : List Nat := []
  /-- Delivery goes to the host-port ring. -/
  toHost : Bool := false
  peer : Option Nat := none
  /-- NTIME, link tick and LF edge at its t_end. -/
  tend : Nat := 0
  tendLink : Nat := 0
  aoEnd : Nat := 0
  /-- The key latched at the verdict, or the counter a lookup failure adds to: 2 KEY, 3 UNSUPP, 4 not enabled (R217,
  R224); the slot it came from. -/
  key : List Byte := []
  keySlot : Nat := 0
  keyErr : Nat := 0
  /-- A repeat of a flood at the verdict (R168), and its relay conditions held there. -/
  repeat_ : Bool := false
  relayOk : Bool := false
  ackJob : Option Nat := none
  relayJob : Option Nat := none
  deriving DecidableEq, Repr

/-- A lane's live state beside LANES_STAT. -/
structure Lane where
  frame : Option RxFrame := none
  /-- The link tick of the burst boundary from which the lane searches (R25). -/
  since : Nat := 0
  /-- The lane's digital gain loop runs; and the gain it froze at, which no rule gives a number to (R88; log entry 101). -/
  digRuns : Bool := false
  dig : Nat := 0
  /-- Frames that have ended and wait for their MIC result, oldest first (R223). -/
  mics : List RxFrame := []
  deriving DecidableEq, Repr

/-- The gain control's state beside LANES_STAT and RXFE_GAIN (R84–R87): updates since a priority re-arm. -/
structure Gain where
  rearm : Option Nat := none
  updates : Nat := 0
  deriving DecidableEq, Repr

/-! ### Transmissions (chapters 2, 5 and 6) -/

/-- What is sent: a frame of the firmware's ring or of the host port's, an acknowledgement or a relay of a lane's frame,
a beacon of the root, a strobe, a management reply, the test carrier. -/
inductive TxKind where
  | ring
  | host
  | ack
  | relay
  | beacon
  /-- A strobe of a level-1 ladder attempt (R198): `parent` names its frame. -/
  | strobe
  /-- A management reply of the host port (R428). -/
  | mgmt
  | carrier
  deriving DecidableEq, Repr

/-- Where a transmission stands (R50–R52, R149–R153, R225). -/
inductive TxStage where
  | securing
  | ready
  | reserved
  | released
  | lockWait
  | checked
  | ramping
  | onAir
  | ackWait
  | retryWait
  deriving DecidableEq, Repr

/-- One transmission of the TX queue. -/
structure TxJob where
  id : Nat := 0
  kind : TxKind := .ring
  stage : TxStage := .ready
  /-- Lane it is sent from; for an acknowledgement or a relay the lane of the frame it answers. -/
  lane : Nat := 0
  /-- The lane frame it answers has been accepted (R138). -/
  confirmed : Bool := true
  /-- Descriptor slot, and the descriptor's options (R131). -/
  slot : Nat := 0
  tag : Nat := 0
  urgent : Bool := false
  timed : Bool := false
  coded : Bool := false
  fcs2 : Bool := false
  white : Bool := false
  /-- Preamble asked for, and the one of the present attempt. -/
  pre0 : Nat := 4
  pre : Nat := 4
  pwr : Nat := 0
  hidx : Nat := 50
  mcs : Nat := 0
  seed : Nat := 0
  /-- Carrier correction of frequency follow, in Hz (R110). -/
  cfo : Int := 0
  cells : List Nat := []
  /-- The octets sent, without FCS. -/
  octets : List Byte := []
  /-- t_s in link ticks of the block's own count, and the NTIME instant it stands for where one was asked (R152, R183). -/
  ts : Nat := 0
  nt : Option Nat := none
  /-- Airtime A in µs (R118). -/
  air : Nat := 0
  /-- Acknowledgement asked for, retries left, attempts made (R153). -/
  ar : Bool := false
  retries : Nat := 0
  attempts : Nat := 0
  /-- NTIME at the last attempt's t_s, and the link tick of its t_end and the LF edge after it. -/
  sentAt : Nat := 0
  tend : Nat := 0
  aoEnd : Nat := 0
  delay : Nat := 0
  fcnt : Nat := 0
  secured : Bool := false
  /-- Rendezvous ladder (R198, R199): level, the link tick of the sample instant aimed at, consecutive defers, the peer entry. -/
  level : Option Nat := none
  aim : Nat := 0
  defers : Nat := 0
  peer : Nat := 0
  parent : Nat := 0
  /-- A repeat of a flood (R168). -/
  repeat_ : Bool := false
  /-- The acknowledgement window has closed over a frame whose SFD ended inside it (R149). -/
  closed : Bool := false
  deriving DecidableEq, Repr

/-- A frame in the air (R100–R105): its preamble in octets and SFD where the mode is FSK, the modulation index in 0.01, MCS and seed where
it is OFDM, the PSDU with its FCS, whitened where the PHR says so, and for FSK the bits behind the SFD. -/
structure AirFrame where
  preamble : Nat := 0
  sfd : Nat := 0
  hidx : Nat := 0
  mcs : Nat := 0
  seed : Nat := 0
  psdu : List Byte := []
  bits : List Bool := []
  deriving DecidableEq, Repr

/-- The transmit side of the link controller. -/
structure TxEng where
  jobs : List TxJob := []
  nextId : Nat := 1
  /-- The next slot of the firmware's TX ring the link controller takes (R129, R131). -/
  take : Nat := 0
  /-- Slots that have completed and are not yet passed by DONE (R132). -/
  doneSlots : List Nat := []
  /-- OFDM scrambler seed counter (R105); it starts at 0, a DESIGN CHOICE (log entry 116). -/
  seed : Nat := 0
  /-- The frame in the air, from t_s to the fall of TX_ACTIVE (R52, R100). -/
  air : Option AirFrame := none
  deriving DecidableEq, Repr

/-! ### Cipher engine (chapter 8) -/

/-- A key slot (R214, R215): valid, the pages that may use it, its usage (bit 0 FRAME, 1 RAW, 2 CMAC), label and key. -/
structure KeySlot where
  valid : Bool := false
  mask : Nat := 0
  usage : Nat := 0
  size : Nat := 0
  label : Nat := 0
  key : List Byte := []
  deriving DecidableEq, Repr

/-- An operation running on a cipher page (R212): how it will complete, what it writes where, and a slot it fills or
empties (log entry 27). -/
structure CiphJob where
  status : Nat
  blocks : Nat := 0
  dst : Nat := 0
  out : List Byte := []
  tag : Option (List Byte) := none
  fill : Option (Nat × KeySlot) := none
  /-- The CMAC chain after the operation (R234). -/
  chain : Option (List Byte) := none
  deriving DecidableEq, Repr

/-- A cipher page's live state. -/
structure CiphPage where
  job : Option CiphJob := none
  chain : Option (List Byte) := none
  deriving DecidableEq, Repr

/-! ### Frame buffer (chapter 5) -/

/-- One cell of the frame buffer (R124, R126): owner code, pool (0 RX, 1 TX, 2 HOST), successor, end of chain, relay
hold. The free cell is the default. -/
structure Cell where
  owner : Nat := 0
  pool : Nat := 0
  next : Nat := 0
  last : Bool := false
  hold : Bool := false
  deriving DecidableEq, Repr

/-! ### Wake sampling and beacons (chapters 6 and 7) -/

/-- A rendezvous that a strobe announced (R193): D and the half window w in 25 ns of `Time.now`; the radio is to be in RX for it;
a lane has detected in its wait. -/
structure Rdv where
  at_ : Nat
  half : Nat
  awake : Bool := false
  hit : Bool := false
  deriving DecidableEq, Repr

/-- The wake-sampling scheduler beside SAMP_STAT, whose WIN shows one of the windows that are open (R205, R206). -/
structure Samp where
  /-- The lattice's anchor in LF ticks, and a request to set it at the next LF edge (R189). -/
  anchor : Option Nat := none
  reanchor : Bool := false
  /-- A sample window is open; its instant S; a lane has detected in it; its one extension runs (R190, R191). -/
  sample : Bool := false
  openAt : Nat := 0
  detected : Bool := false
  extended : Bool := false
  /-- A lane has measured channel energy at or above EDTH in the window (R191). -/
  energy : Bool := false
  /-- The window beside it: 0 none, 3 beacon, 4 scan, 5 hold, as WIN numbers them (R201, R203, R204). -/
  main : Nat := 0
  /-- In the open beacon window a lane has detected, an update was applied or rejected, and its close has passed (R201, R202);
  in a hold, its end has passed (R203). -/
  heard : Bool := false
  updated : Bool := false
  rejected : Bool := false
  ended : Bool := false
  /-- The scheduler started the radio from SLEEP for its windows (R205). -/
  woke : Bool := false
  /-- EN was cleared during a window (R205). -/
  closing : Bool := false
  rdv : Option Rdv := none
  /-- `Time.now` and T_HOP of the last applied update (R201). -/
  lastUpd : Nat := 0
  thop : Nat := 0
  /-- The beacon windows opened since the last applied update (R201). -/
  tracked : Nat := 0
  deriving DecidableEq, Repr

/-- The flood engine beside its registers: `Time.now` at the last applied update (R179), the seconds the link clock missed (R176),
and the link tick of the last SET by software (R178). -/
structure Flood where
  applied : Option Nat := none
  missed : Nat := 0
  setAt : Option Nat := none
  /-- TEND, HOPCNT and outcome of the last computed update (R187). -/
  tend : Nat := 0
  hop : Nat := 0
  ok : Bool := false
  deriving DecidableEq, Repr

/-! ### Host port (chapter 15) -/

/-- A reply on its way to the host: its frame, the cells of a fetched chain that leave with it (R435), and whether a reset
follows it (R438). -/
structure Reply where
  frame : List Byte
  cells : List Nat := []
  reset : Bool := false
  deriving DecidableEq, Repr

/-- A transport's command queue and reply slots (R423, R429): the outstanding command's code and tag; ABORT replies, the
reply, a reply that waits for its slot, one refusal; a refusal was dropped since the last transaction. -/
structure Port where
  out : Option (Nat × Nat) := none
  aborts : List (List Byte) := []
  reply : Option Reply := none
  held : Option Reply := none
  refusal : Option (List Byte) := none
  dropped : Bool := false
  deriving DecidableEq, Repr

/-- A reset that a RESET command asked for (R438): scope, the source SOFTSRC shows, and the NTIME instant. -/
structure ResetReq where
  scope : Nat
  src : Nat
  instant : Option Nat := none
  /-- The management reply it follows (R438). -/
  job : Option Nat := none
  deriving DecidableEq, Repr

/-- The update engine beside HOSTP_STAT.ENGINE (R402, R437): the transport that owns the work (0 SPI, 1 UART, 2 mesh),
the header, and the crew-sheet slot being written. -/
structure Upd where
  owner : Nat := 0
  hdr : List Byte := []
  slot : Nat := 0
  /-- The stretches sent so far (offset, octets), and whether one came again with different data (R404). -/
  sent : List (Nat × Nat) := []
  spoilt : Bool := false
  deriving DecidableEq, Repr

/-- The host port beside its registers. -/
structure Hostp where
  /-- IRQ_HOSTP's cause: an APP payload waits for the firmware (R436). -/
  appIrq : Bool := false
  /-- Descriptors waiting in the host TX ring, RX descriptors waiting for the host, and completions not yet noted (R133,
  R423), oldest first. -/
  tx : List (List Byte) := []
  rx : List (List Byte) := []
  /-- Management frames delivered and not yet carried out, oldest first: descriptor and octets (R427). -/
  mgmt : List (List Byte × List Byte) := []
  txdone : List (List Byte) := []
  spi : Port := {}
  uart : Port := {}
  mesh : Port := {}
  /-- An RX_NOTE waits (R423). -/
  rxNote : Bool := false
  /-- What HS_MISO carried in the last transaction (R424). -/
  miso : List Byte := []
  /-- The next slot number of the host TX ring. -/
  slot : Nat := 0
  /-- The reset that follows a reply, and the one that waits for its instant (R438). -/
  reset : Option ResetReq := none
  timed : Option ResetReq := none
  /-- The APP command that waits for the firmware: its transport and tag (R436). -/
  app : Option (Tr × Nat) := none
  upd : Upd := {}
  /-- The octets of a UART frame so far, the escape just seen, and whether a frame is open (R426). -/
  buf : List Byte := []
  esc : Bool := false
  isOpen : Bool := false
  deriving DecidableEq, Repr

/-- A sequencer RAM's load (R123, R398): open; its CRC running; its CRC complete and not yet declared good. -/
structure UcLoad where
  isOpen : Bool := false
  crc : Bool := false
  ready : Bool := false
  deriving DecidableEq, Repr

/-! ### Start-up (chapter 14) -/

/-- What runs on the core: the ROM from reset until its start sequence is commanded; firmware; the monitor; the unlock
exchange; factory service; RETIRED; Dead (R388, R389, R410, R471, R476). -/
inductive Phase where
  | rom
  | firmware
  | monitor
  | unlock
  | factory
  | retired
  | dead
  deriving DecidableEq, Repr

/-- The SYS cluster beside its registers. -/
structure Sys where
  phase : Phase := .rom
  /-- One eighth of the loaded watchdog time remains (R408). -/
  warned : Bool := false
  /-- The watchdog time in LF ticks, as loaded and as it stands (R408). -/
  wdLoad : Nat := 0
  wdLeft : Nat := 0
  /-- The start-fail count of the AO region (R409). -/
  fails : Nat := 0
  /-- The AO mark: slot and SEQ of the crew sheet whose AO records were applied last (R396). -/
  aoMark : Option (Nat × Nat) := none
  /-- OTP's identity and calibration rows as loaded at the last package or power-on reset (R414, R417). -/
  ident : List Byte := []
  calib : List Byte := []
  /-- The ROM was entered by a reset of the core cluster alone (R391). -/
  coreOnly : Bool := false
  deriving DecidableEq, Repr

/-- An OTP operation on its way (R417): status, the row read, the generation programmed, the octets programmed. -/
structure OtpJob where
  status : Nat
  rd : List Byte := []
  gen : Nat := 0
  row : Nat := 0
  data : List Byte := []
  deriving DecidableEq, Repr

/-- The monitor (R471–R476): the saved PC and ST of the program it stopped, the data and the status of its last reply,
whether it takes hex records, the steps left, the baud rate, the challenge and the attempts at it. -/
structure Mon where
  pc : Word := 0
  st : Word := 0x801
  out : List Byte := []
  status : Nat := 0
  load : Bool := false
  /-- Instructions the monitor still steps (R475). -/
  steps : Nat := 0
  baud : Nat := 115200
  challenge : List Byte := []
  tries : Nat := 0
  /-- The stepped program has IE at 1, which the monitor holds at 0 meanwhile (R475). -/
  ie : Bool := false
  /-- A correct response has opened the monitor until the next reset (R476). -/
  opened : Bool := false
  deriving DecidableEq, Repr

/-- A command sequence of the XSPI controller (R295), as XSPI_SEQCMD held it. -/
structure XspiSeq where
  cs : Nat
  dir : Nat
  len : Nat
  wip : Bool
  deriving DecidableEq, Repr

/-! ### Statistics and the tally unit (chapter 16) -/

/-- The heat timer (R450): the AO LF tick of the last boundary, a request to end the heat, and the updates or beacons
counted towards NBCN. -/
structure Heat where
  start : Nat := 0
  req : Bool := false
  beacons : Nat := 0
  deriving DecidableEq, Repr

/-- The tally unit beside its registers (R458–R463): the next SEQ, the snapshot on its way to the ring, the instructions
left before the next tag in RANDOM mode, and the buffer entry written next. -/
structure Tally where
  seq : Nat := 0
  snap : List Byte := []
  left : Nat := 0
  next : Nat := 0
  deriving DecidableEq, Repr

/-- The whole of the units' live state. -/
structure Dev where
  intc : Intc := {}
  flash : Flash := {}
  xspi : Xspi := {}
  dma : Sparse DmaCh := []
  rigger : Rigger := {}
  st : Sparse StLive := []
  lt : Sparse LtLive := []
  rtc : Rtc := {}
  time : Time := {}
  supply : Supply := {}
  pwr : Pwr := {}
  gov : Gov := {}
  radio : Radio := {}
  duty : Duty := {}
  lanes : Sparse Lane := []
  gain : Gain := {}
  tx : TxEng := {}
  keys : Sparse KeySlot := []
  ciph : Sparse CiphPage := []
  samp : Samp := {}
  flood : Flood := {}
  cells : Sparse Cell := []
  heat : Heat := {}
  tally : Tally := {}
  /-- Firmware's latest writes of peer entries: link tick, entry, mask of words (R145). -/
  peerWr : List (Nat × Nat × Nat) := []
  /-- Cox microcode: a load is open; a CRC runs; a CRC has completed for the load last closed (R123). -/
  coxLoad : UcLoad := {}
  bowLoad : UcLoad := {}
  dali : Dali := {}
  uart : Sparse Uart := []
  adc : Adc := {}
  /-- The levels at GP0–GP35 as inputs, bit n for GPn. -/
  gpIn : Nat := 0
  pads : Option Pads := none
  sys : Sys := {}
  otpc : Option OtpJob := none
  /-- OTP rows whose check bits are bad (R417). -/
  otpBad : List Nat := []
  mon : Mon := {}
  xseq : Option XspiSeq := none
  hostp : Hostp := {}
  /-- Events each cluster's sender has lost at a full latch, by page (R319; log entry 9). -/
  evLost : Sparse Nat := []
  /-- The logbook records staged in the AO region, oldest first, 64 octets each (R465, R467). -/
  staged : List (List Byte) := []
  /-- SRAM words and flash program units with a single-bit error, and those that cannot be corrected, by address (R272,
  R277, R291). -/
  eccOne : List Nat := []
  eccBad : List Nat := []
  /-- Registers whose parity does not match (R313, R314). -/
  parity : List Nat := []
  /-- Mailbox snapshots on their way: page and item (R315). -/
  mbx : Sparse Nat := []
  /-- Pages whose cluster reset has not completed (R17). -/
  resetting : List Nat := []
  /-- Pages whose clock gate is open (R18). -/
  gates : List Nat := []
  /-- Mailbox counts and statistics by page, item and word (R348, R385, R453 and the other mailbox maps). -/
  ctr : Sparse Nat := []
  deriving DecidableEq, Repr

end Sys2Proof.Machine
end

