-- ==== Sys2Proof/Machine/Bits.lean ====
section
/-!
DEFINITION. Bit fields, sign extension, byte order and rounding: the plain arithmetic that every register map and
frame layout uses (R5, R516).
-/
namespace Sys2Proof.Machine

/-- A field of a register: the register's address and the field's bits, high:low (R5, R6). -/
structure Fld where
  addr : Nat
  hi : Nat
  lo : Nat
  deriving DecidableEq, Repr

/-- The field's width in bits. -/
def Fld.width (f : Fld) : Nat := f.hi - f.lo + 1

/-- Bits hi:lo of a word, as a number. -/
def bitsGet (w : Word) (hi lo : Nat) : Nat := (w.toNat >>> lo) % 2 ^ (hi - lo + 1)

/-- The word with bits hi:lo replaced by the low bits of a number. -/
def bitsPut (w : Word) (hi lo v : Nat) : Word :=
  BitVec.ofNat 32 (w.toNat - bitsGet w hi lo * 2 ^ lo + v % 2 ^ (hi - lo + 1) * 2 ^ lo)

/-- Bit i of a number, as a truth value. -/
def bitOf (n i : Nat) : Bool := n.testBit i

/-- A number with bit i set. -/
def bitSet (n i : Nat) : Nat := n ||| 2 ^ i

/-- A number with bit i cleared. -/
def bitClr (n i : Nat) : Nat := if n.testBit i then n - 2 ^ i else n

/-- A truth value as a bit. -/
def b2n (b : Bool) : Nat := if b then 1 else 0

/-- The signed value of the low n bits of a number. -/
def signed (n v : Nat) : Int :=
  if v % 2 ^ n < 2 ^ (n - 1) then ((v % 2 ^ n : Nat) : Int) else ((v % 2 ^ n : Nat) : Int) - (2 ^ n : Nat)

/-- The low n bits of an integer. -/
def unsigned (n : Nat) (v : Int) : Nat := (v % ((2 ^ n : Nat) : Int)).toNat

/-- round(a / b), an exact half away from zero (R516). -/
def roundDiv (a : Int) (b : Nat) : Int :=
  if a < 0 then -(((2 * a.natAbs + b) / (2 * b) : Nat) : Int) else (((2 * a.natAbs + b) / (2 * b) : Nat) : Int)

/-- ceil(a / b) on natural numbers. -/
def ceilDiv (a b : Nat) : Nat := (a + b - 1) / b

/-- The number whose octets, least significant first, are given (R5). -/
def leNat : List Byte → Nat
  | [] => 0
  | b :: l => b.toNat + 256 * leNat l

/-- The n octets of a number, least significant first (R5). -/
def leBytes : Nat → Nat → List Byte
  | 0, _ => []
  | n + 1, v => BitVec.ofNat 8 v :: leBytes n (v / 256)

/-- The number whose octets, most significant first, are given. -/
def beNat (l : List Byte) : Nat := leNat l.reverse

/-- The n octets of a number, most significant first. -/
def beBytes (n v : Nat) : List Byte := (leBytes n v).reverse

/-- The word of four octets, least significant first. -/
def wordOf (l : List Byte) : Word := BitVec.ofNat 32 (leNat (l.take 4))

/-- n octets from position i of a list; octets beyond its end read 0. -/
def sliceOf (l : List Byte) (i n : Nat) : List Byte := (List.range n).map fun k => l.getD (i + k) 0

/-- The positions of the 1 bits among the low n bits of a number, ascending. -/
def onesOf (n v : Nat) : List Nat := (List.range n).filter fun i => v.testBit i

end Sys2Proof.Machine
end

