-- ==== Sys2Proof/Machine/RegMap.lean ====
section
/-!
DEFINITION. The register maps of the spec's chapters, register by register: the address of each register (an array's
index is an argument), its fields, and the rows by which the bus applies the access codes of R308. Bits no row names are
reserved: they read 0 and ignore writes (R309).
-/
namespace Sys2Proof.Reg
open Sys2Proof.Machine

abbrev LINK_RXRING : Nat := 0x41000108
abbrev LINK_RXRING_BASE : Fld := ⟨LINK_RXRING, 31, 4⟩
abbrev LINK_RXRING_SIZE : Fld := ⟨LINK_RXRING, 3, 0⟩
abbrev LINK_TXRING : Nat := 0x4100010C
abbrev LINK_TXRING_BASE : Fld := ⟨LINK_TXRING, 31, 4⟩
abbrev LINK_TXRING_SIZE : Fld := ⟨LINK_TXRING, 3, 0⟩
abbrev LINK_UCDATA : Nat := 0x41000814
abbrev LINK_UCDATA_DATA : Fld := ⟨LINK_UCDATA, 31, 0⟩
abbrev LINK_UCCRC : Nat := 0x41000818
abbrev LINK_UCCRC_CRC : Fld := ⟨LINK_UCCRC, 31, 0⟩
abbrev FBUF_FREE : Nat := 0x41001804
abbrev FBUF_FREE_CELL : Fld := ⟨FBUF_FREE, 8, 0⟩
abbrev FBUF_REVOKE : Nat := 0x41001808
abbrev FBUF_REVOKE_OWNER : Fld := ⟨FBUF_REVOKE, 8, 0⟩
abbrev FBUF_USE0 : Nat := 0x4100180C
abbrev FBUF_USE0_TX : Fld := ⟨FBUF_USE0, 24, 16⟩
abbrev FBUF_USE0_RX : Fld := ⟨FBUF_USE0, 8, 0⟩
abbrev FBUF_USE1 : Nat := 0x41001810
abbrev FBUF_USE1_FREE : Fld := ⟨FBUF_USE1, 24, 16⟩
abbrev FBUF_USE1_HOST : Fld := ⟨FBUF_USE1, 8, 0⟩
abbrev FBUF_NEXT (c : Nat) : Nat := 0x41001C00 + 0x4 * c
abbrev FBUF_NEXT_HI (c : Nat) : Fld := ⟨(FBUF_NEXT c), 31, 16⟩
abbrev FBUF_NEXT_LO (c : Nat) : Fld := ⟨(FBUF_NEXT c), 15, 0⟩
abbrev FILT_EXTLO : Nat := 0x41002104
abbrev FILT_EXTLO_EXT : Fld := ⟨FILT_EXTLO, 31, 0⟩
abbrev FILT_EXTHI : Nat := 0x41002108
abbrev FILT_EXTHI_EXT : Fld := ⟨FILT_EXTHI, 31, 0⟩
abbrev NTIME_SETLO : Nat := 0x41005800
abbrev NTIME_SETLO_VALUE : Fld := ⟨NTIME_SETLO, 31, 0⟩
abbrev NTIME_SETHI : Nat := 0x41005804
abbrev NTIME_SETHI_VALUE : Fld := ⟨NTIME_SETHI, 15, 0⟩
abbrev NTIME_CMPLO : Nat := 0x4100581C
abbrev NTIME_CMPLO_VALUE : Fld := ⟨NTIME_CMPLO, 31, 0⟩
abbrev NTIME_CMPHI : Nat := 0x41005820
abbrev NTIME_CMPHI_VALUE : Fld := ⟨NTIME_CMPHI, 15, 0⟩
abbrev CIPH_OWNER (n : Nat) : Nat := 0x41010100 + 0x1000 * n
abbrev CIPH_OWNER_PRIV (n : Nat) : Fld := ⟨(CIPH_OWNER n), 8, 8⟩
abbrev CIPH_OWNER_MASTER (n : Nat) : Fld := ⟨(CIPH_OWNER n), 3, 0⟩
abbrev CIPH_OP (n : Nat) : Nat := 0x41010800 + 0x1000 * n
abbrev CIPH_OP_START (n : Nat) : Fld := ⟨(CIPH_OP n), 31, 31⟩
abbrev CIPH_OP_PART (n : Nat) : Fld := ⟨(CIPH_OP n), 27, 26⟩
abbrev CIPH_OP_TAGLEN (n : Nat) : Fld := ⟨(CIPH_OP n), 21, 20⟩
abbrev CIPH_OP_SLOT (n : Nat) : Fld := ⟨(CIPH_OP n), 13, 8⟩
abbrev CIPH_OP_OP (n : Nat) : Fld := ⟨(CIPH_OP n), 2, 0⟩
abbrev CIPH_SRC (n : Nat) : Nat := 0x41010804 + 0x1000 * n
abbrev CIPH_SRC_ADDR (n : Nat) : Fld := ⟨(CIPH_SRC n), 31, 0⟩
abbrev CIPH_DST (n : Nat) : Nat := 0x41010808 + 0x1000 * n
abbrev CIPH_DST_ADDR (n : Nat) : Fld := ⟨(CIPH_DST n), 31, 0⟩
abbrev CIPH_ALEN (n : Nat) : Nat := 0x4101080C + 0x1000 * n
abbrev CIPH_ALEN_LEN (n : Nat) : Fld := ⟨(CIPH_ALEN n), 10, 0⟩
abbrev CIPH_MLEN (n : Nat) : Nat := 0x41010810 + 0x1000 * n
abbrev CIPH_MLEN_LEN (n : Nat) : Fld := ⟨(CIPH_MLEN n), 31, 0⟩
abbrev CIPH_RESULT (n : Nat) : Nat := 0x41010814 + 0x1000 * n
abbrev CIPH_RESULT_BUSY (n : Nat) : Fld := ⟨(CIPH_RESULT n), 31, 31⟩
abbrev CIPH_RESULT_BLOCKS (n : Nat) : Fld := ⟨(CIPH_RESULT n), 30, 8⟩
abbrev CIPH_RESULT_STATUS (n : Nat) : Fld := ⟨(CIPH_RESULT n), 7, 0⟩
abbrev CIPH_NONCE (n : Nat) (k : Nat) : Nat := 0x41010820 + 0x1000 * n + 0x4 * k
abbrev CIPH_NONCE_DATA (n : Nat) (k : Nat) : Fld := ⟨(CIPH_NONCE n k), 31, 0⟩
abbrev CIPH_NONCE3 (n : Nat) : Nat := 0x4101082C + 0x1000 * n
abbrev CIPH_NONCE3_DATA (n : Nat) : Fld := ⟨(CIPH_NONCE3 n), 7, 0⟩
abbrev CIPH_TAG (n : Nat) (k : Nat) : Nat := 0x41010830 + 0x1000 * n + 0x4 * k
abbrev CIPH_TAG_DATA (n : Nat) (k : Nat) : Fld := ⟨(CIPH_TAG n k), 31, 0⟩
abbrev CIPH0_FCNT : Nat := 0x41010180
abbrev CIPH0_FCNT_FCNT : Fld := ⟨CIPH0_FCNT, 31, 0⟩
abbrev CIPH0_FCRES : Nat := 0x41010184
abbrev CIPH0_FCRES_RES : Fld := ⟨CIPH0_FCRES, 31, 0⟩
abbrev CIPH0_FCSTAT : Nat := 0x41010188
abbrev CIPH0_FCSTAT_EXHAUSTED : Fld := ⟨CIPH0_FCSTAT, 3, 3⟩
abbrev CIPH0_FCSTAT_LIMIT : Fld := ⟨CIPH0_FCSTAT, 2, 2⟩
abbrev CIPH0_FCSTAT_LOW : Fld := ⟨CIPH0_FCSTAT, 1, 1⟩
abbrev CIPH0_FCSTAT_FCVALID : Fld := ⟨CIPH0_FCSTAT, 0, 0⟩
abbrev CIPH0_KMAP_CTL (i : Nat) : Nat := 0x41010200 + 0x10 * i
abbrev CIPH0_KMAP_CTL_VALID (i : Nat) : Fld := ⟨(CIPH0_KMAP_CTL i), 31, 31⟩
abbrev CIPH0_KMAP_CTL_MODE (i : Nat) : Fld := ⟨(CIPH0_KMAP_CTL i), 25, 24⟩
abbrev CIPH0_KMAP_CTL_KEYIDX (i : Nat) : Fld := ⟨(CIPH0_KMAP_CTL i), 23, 16⟩
abbrev CIPH0_KMAP_CTL_SLOT (i : Nat) : Fld := ⟨(CIPH0_KMAP_CTL i), 5, 0⟩
abbrev CIPH0_KMAP_SRCLO (i : Nat) : Nat := 0x41010204 + 0x10 * i
abbrev CIPH0_KMAP_SRCLO_KSRC (i : Nat) : Fld := ⟨(CIPH0_KMAP_SRCLO i), 31, 0⟩
abbrev CIPH0_KMAP_SRCHI (i : Nat) : Nat := 0x41010208 + 0x10 * i
abbrev CIPH0_KMAP_SRCHI_KSRC (i : Nat) : Fld := ⟨(CIPH0_KMAP_SRCHI i), 31, 0⟩
abbrev INTC_EN (k : Nat) : Nat := 0xE0000000 + 0x4 * k
abbrev INTC_EN_EN (k : Nat) : Fld := ⟨(INTC_EN k), 31, 0⟩
abbrev INTC_PEND (k : Nat) : Nat := 0xE0000010 + 0x4 * k
abbrev INTC_PEND_PEND (k : Nat) : Fld := ⟨(INTC_PEND k), 31, 0⟩
abbrev INTC_SET (k : Nat) : Nat := 0xE0000020 + 0x4 * k
abbrev INTC_SET_LINES (k : Nat) : Fld := ⟨(INTC_SET k), 31, 0⟩
abbrev INTC_CLR (k : Nat) : Nat := 0xE0000030 + 0x4 * k
abbrev INTC_CLR_LINES (k : Nat) : Fld := ⟨(INTC_CLR k), 31, 0⟩
abbrev INTC_MODE (k : Nat) : Nat := 0xE0000040 + 0x4 * k
abbrev INTC_MODE_EDGE (k : Nat) : Fld := ⟨(INTC_MODE k), 31, 0⟩
abbrev INTC_PRIO (m : Nat) : Nat := 0xE0000100 + 0x4 * m
abbrev INTC_PRIO_P3 (m : Nat) : Fld := ⟨(INTC_PRIO m), 26, 24⟩
abbrev INTC_PRIO_P2 (m : Nat) : Fld := ⟨(INTC_PRIO m), 18, 16⟩
abbrev INTC_PRIO_P1 (m : Nat) : Fld := ⟨(INTC_PRIO m), 10, 8⟩
abbrev INTC_PRIO_P0 (m : Nat) : Fld := ⟨(INTC_PRIO m), 2, 0⟩
abbrev INTC_STAT : Nat := 0xE0000200
abbrev INTC_STAT_ANY : Fld := ⟨INTC_STAT, 23, 23⟩
abbrev INTC_STAT_TOP : Fld := ⟨INTC_STAT, 22, 16⟩
abbrev INTC_STAT_PL : Fld := ⟨INTC_STAT, 3, 0⟩
abbrev MPU_CTRL : Nat := 0xE0001000
abbrev MPU_CTRL_EN : Fld := ⟨MPU_CTRL, 0, 0⟩
abbrev MPU_RBASE (i : Nat) : Nat := 0xE0001100 + 0x8 * i
abbrev MPU_RBASE_BASE (i : Nat) : Fld := ⟨(MPU_RBASE i), 31, 5⟩
abbrev MPU_RLIM (i : Nat) : Nat := 0xE0001104 + 0x8 * i
abbrev MPU_RLIM_LIMIT (i : Nat) : Fld := ⟨(MPU_RLIM i), 31, 5⟩
abbrev MPU_RLIM_S (i : Nat) : Fld := ⟨(MPU_RLIM i), 4, 4⟩
abbrev MPU_RLIM_X (i : Nat) : Fld := ⟨(MPU_RLIM i), 3, 3⟩
abbrev MPU_RLIM_W (i : Nat) : Fld := ⟨(MPU_RLIM i), 2, 2⟩
abbrev MPU_RLIM_R (i : Nat) : Fld := ⟨(MPU_RLIM i), 1, 1⟩
abbrev MPU_RLIM_EN (i : Nat) : Fld := ⟨(MPU_RLIM i), 0, 0⟩
abbrev BP_ADDR (n : Nat) : Nat := 0xE0002000 + 0x8 * n
abbrev BP_ADDR_ADDR (n : Nat) : Fld := ⟨(BP_ADDR n), 31, 0⟩
abbrev BP_CTL (n : Nat) : Nat := 0xE0002004 + 0x8 * n
abbrev BP_CTL_MASK (n : Nat) : Fld := ⟨(BP_CTL n), 7, 3⟩
abbrev BP_CTL_KIND (n : Nat) : Fld := ⟨(BP_CTL n), 2, 1⟩
abbrev BP_CTL_EN (n : Nat) : Fld := ⟨(BP_CTL n), 0, 0⟩
abbrev BP_STEP : Nat := 0xE0002040
abbrev BP_STEP_STEP : Fld := ⟨BP_STEP, 0, 0⟩
abbrev BP_STAT : Nat := 0xE0002044
abbrev BP_STAT_MISSED : Fld := ⟨BP_STAT, 31, 16⟩
abbrev BP_STAT_STEPHIT : Fld := ⟨BP_STAT, 4, 4⟩
abbrev BP_STAT_HIT : Fld := ⟨BP_STAT, 3, 0⟩
abbrev BP_MON : Nat := 0xE0002048
abbrev BP_MON_ROUTE : Fld := ⟨BP_MON, 0, 0⟩
abbrev XSPI_CS_CFG (n : Nat) : Nat := 0x40004100 + 0x4 * n
abbrev XSPI_CS_CFG_PROTO (n : Nat) : Fld := ⟨(XSPI_CS_CFG n), 31, 30⟩
abbrev XSPI_CS_CFG_DUMMY (n : Nat) : Fld := ⟨(XSPI_CS_CFG n), 28, 24⟩
abbrev XSPI_CS_CFG_RDOP (n : Nat) : Fld := ⟨(XSPI_CS_CFG n), 23, 16⟩
abbrev XSPI_CS_CFG_SIZE (n : Nat) : Fld := ⟨(XSPI_CS_CFG n), 15, 12⟩
abbrev XSPI_CS_CFG_DIV (n : Nat) : Fld := ⟨(XSPI_CS_CFG n), 7, 0⟩
abbrev XSPI_SEQADDR : Nat := 0x40004804
abbrev XSPI_SEQADDR_ADDR : Fld := ⟨XSPI_SEQADDR, 31, 0⟩
abbrev XSPI_SEQLEN : Nat := 0x40004808
abbrev XSPI_SEQLEN_LEN : Fld := ⟨XSPI_SEQLEN, 8, 0⟩
abbrev XSPI_SEQBUF (k : Nat) : Nat := 0x40004C00 + 0x4 * k
abbrev XSPI_SEQBUF_DATA (k : Nat) : Fld := ⟨(XSPI_SEQBUF k), 31, 0⟩
abbrev DMA_SRC (n : Nat) : Nat := 0x40002100 + 0x10 * n
abbrev DMA_SRC_ADDR (n : Nat) : Fld := ⟨(DMA_SRC n), 31, 0⟩
abbrev DMA_DST (n : Nat) : Nat := 0x40002104 + 0x10 * n
abbrev DMA_DST_ADDR (n : Nat) : Fld := ⟨(DMA_DST n), 31, 0⟩
abbrev RIGGER_EN (k : Nat) : Nat := 0x42001800 + 0x4 * k
abbrev RIGGER_EN_EN (k : Nat) : Fld := ⟨(RIGGER_EN k), 31, 0⟩
abbrev RIGGER_LOCK (k : Nat) : Nat := 0x42001808 + 0x4 * k
abbrev RIGGER_LOCK_LOCK (k : Nat) : Fld := ⟨(RIGGER_LOCK k), 31, 0⟩
abbrev RIGGER_STORM (k : Nat) : Nat := 0x42001810 + 0x4 * k
abbrev RIGGER_STORM_STORM (k : Nat) : Fld := ⟨(RIGGER_STORM k), 31, 0⟩
abbrev RIGGER_FIRE (k : Nat) : Nat := 0x42001818 + 0x4 * k
abbrev RIGGER_FIRE_FIRE (k : Nat) : Fld := ⟨(RIGGER_FIRE k), 31, 0⟩
abbrev RIGGER_TASK (n : Nat) : Nat := 0x42001104 + 0x8 * n
abbrev RIGGER_TASK_TASK3 (n : Nat) : Fld := ⟨(RIGGER_TASK n), 31, 24⟩
abbrev RIGGER_TASK_TASK2 (n : Nat) : Fld := ⟨(RIGGER_TASK n), 23, 16⟩
abbrev RIGGER_TASK_TASK1 (n : Nat) : Fld := ⟨(RIGGER_TASK n), 15, 8⟩
abbrev RIGGER_TASK_TASK0 (n : Nat) : Fld := ⟨(RIGGER_TASK n), 7, 0⟩
abbrev STIM_CHCFG (n : Nat) : Nat := 0x4000E104 + 0x8 * n
abbrev STIM_CHCFG_CAP3 (n : Nat) : Fld := ⟨(STIM_CHCFG n), 31, 31⟩
abbrev STIM_CHCFG_OUT3 (n : Nat) : Fld := ⟨(STIM_CHCFG n), 26, 24⟩
abbrev STIM_CHCFG_CAP2 (n : Nat) : Fld := ⟨(STIM_CHCFG n), 23, 23⟩
abbrev STIM_CHCFG_OUT2 (n : Nat) : Fld := ⟨(STIM_CHCFG n), 18, 16⟩
abbrev STIM_CHCFG_CAP1 (n : Nat) : Fld := ⟨(STIM_CHCFG n), 15, 15⟩
abbrev STIM_CHCFG_OUT1 (n : Nat) : Fld := ⟨(STIM_CHCFG n), 10, 8⟩
abbrev STIM_CHCFG_CAP0 (n : Nat) : Fld := ⟨(STIM_CHCFG n), 7, 7⟩
abbrev STIM_CHCFG_OUT0 (n : Nat) : Fld := ⟨(STIM_CHCFG n), 2, 0⟩
abbrev STIM_TOP (n : Nat) : Nat := 0x4000E840 + 0x20 * n
abbrev STIM_TOP_TOP (n : Nat) : Fld := ⟨(STIM_TOP n), 15, 0⟩
abbrev STIM_COUNT (n : Nat) : Nat := 0x4000E844 + 0x20 * n
abbrev STIM_COUNT_DOWN (n : Nat) : Fld := ⟨(STIM_COUNT n), 16, 16⟩
abbrev STIM_COUNT_COUNT (n : Nat) : Fld := ⟨(STIM_COUNT n), 15, 0⟩
abbrev STIM_CC (n : Nat) (k : Nat) : Nat := 0x4000E848 + 0x20 * n + 0x4 * k
abbrev STIM_CC_CC (n : Nat) (k : Nat) : Fld := ⟨(STIM_CC n k), 15, 0⟩
abbrev LTIM_COUNT (n : Nat) : Nat := 0x4000F810 + 0x10 * n
abbrev LTIM_COUNT_COUNT (n : Nat) : Fld := ⟨(LTIM_COUNT n), 31, 0⟩
abbrev LTIM_BUF (n : Nat) : Nat := 0x4000F814 + 0x10 * n
abbrev LTIM_BUF_BUF (n : Nat) : Fld := ⟨(LTIM_BUF n), 31, 0⟩
abbrev LTIM_CMP (n : Nat) : Nat := 0x4000F818 + 0x10 * n
abbrev LTIM_CMP_CMP (n : Nat) : Fld := ⟨(LTIM_CMP n), 31, 0⟩
abbrev RTC_SECONDS : Nat := 0x42008800
abbrev RTC_SECONDS_SECONDS : Fld := ⟨RTC_SECONDS, 31, 0⟩
abbrev RTC_SETSEC : Nat := 0x42008804
abbrev RTC_SETSEC_VALUE : Fld := ⟨RTC_SETSEC, 31, 0⟩
abbrev RTC_ALARM : Nat := 0x42008808
abbrev RTC_ALARM_ALARM : Fld := ⟨RTC_ALARM, 31, 0⟩
abbrev PWR_PADREL : Nat := 0x42000808
abbrev PWR_PADREL_RELEASE : Fld := ⟨PWR_PADREL, 0, 0⟩
abbrev PWR_RGNRST : Nat := 0x4200080C
abbrev PWR_RGNRST_RADIO : Fld := ⟨PWR_RGNRST, 1, 1⟩
abbrev PWR_RGNRST_LINK : Fld := ⟨PWR_RGNRST, 0, 0⟩
abbrev SYS_ALIVE : Nat := 0x40000804
abbrev SYS_ALIVE_KEY : Fld := ⟨SYS_ALIVE, 31, 0⟩
abbrev SYS_SWRST : Nat := 0x40000808
abbrev SYS_SWRST_KEY : Fld := ⟨SYS_SWRST, 31, 0⟩
abbrev SYS_BOWDATA : Nat := 0x40000824
abbrev SYS_BOWDATA_DATA : Fld := ⟨SYS_BOWDATA, 31, 0⟩
abbrev SYS_BOWCRC : Nat := 0x40000828
abbrev SYS_BOWCRC_CRC : Fld := ⟨SYS_BOWCRC, 31, 0⟩
abbrev OTPC_ADDR : Nat := 0x40014800
abbrev OTPC_ADDR_PROF : Fld := ⟨OTPC_ADDR, 17, 16⟩
abbrev OTPC_ADDR_OFFSET : Fld := ⟨OTPC_ADDR, 10, 0⟩
abbrev OTPC_CMD : Nat := 0x40014804
abbrev OTPC_CMD_OP : Fld := ⟨OTPC_CMD, 2, 0⟩
abbrev OTPC_STAT : Nat := 0x40014808
abbrev OTPC_STAT_BUSY : Fld := ⟨OTPC_STAT, 31, 31⟩
abbrev OTPC_STAT_IE : Fld := ⟨OTPC_STAT, 17, 17⟩
abbrev OTPC_STAT_DONE : Fld := ⟨OTPC_STAT, 16, 16⟩
abbrev OTPC_STAT_GEN : Fld := ⟨OTPC_STAT, 9, 8⟩
abbrev OTPC_STAT_STATUS : Fld := ⟨OTPC_STAT, 7, 0⟩
abbrev OTPC_WD (k : Nat) : Nat := 0x40014810 + 0x4 * k
abbrev OTPC_WD_DATA (k : Nat) : Fld := ⟨(OTPC_WD k), 31, 0⟩
abbrev OTPC_RD (k : Nat) : Nat := 0x40014820 + 0x4 * k
abbrev OTPC_RD_DATA (k : Nat) : Fld := ⟨(OTPC_RD k), 31, 0⟩
abbrev SPIH_EVT : Nat := 0x40009800
abbrev SPIH_EVT_EVENTS : Fld := ⟨SPIH_EVT, 4, 0⟩
abbrev SPIH_IE : Nat := 0x40009804
abbrev SPIH_IE_EVENTS : Fld := ⟨SPIH_IE, 4, 0⟩
abbrev TALLY_BASE : Nat := 0x40012150
abbrev TALLY_BASE_BASE : Fld := ⟨TALLY_BASE, 31, 4⟩
abbrev TALLY_DEPTH : Nat := 0x40012154
abbrev TALLY_DEPTH_DEPTH : Fld := ⟨TALLY_DEPTH, 7, 0⟩
abbrev TALLY_BUF (e : Nat) (k : Nat) : Nat := 0x40012C00 + 0x10 * e + 0x4 * k
abbrev TALLY_BUF_ENTRY (e : Nat) (k : Nat) : Fld := ⟨(TALLY_BUF e k), 31, 0⟩
abbrev DALI_CFG : Nat := 0x40010100
abbrev DALI_CFG_TXPOL : Fld := ⟨DALI_CFG, 31, 31⟩
abbrev DALI_CFG_RXPOL : Fld := ⟨DALI_CFG, 30, 30⟩
abbrev DALI_CFG_RETRY : Fld := ⟨DALI_CFG, 10, 8⟩
abbrev DALI_CFG_PRIO : Fld := ⟨DALI_CFG, 2, 0⟩
abbrev DALI_FWD : Nat := 0x40010800
abbrev DALI_FWD_SEND : Fld := ⟨DALI_FWD, 31, 31⟩
abbrev DALI_FWD_EXPECT : Fld := ⟨DALI_FWD, 30, 30⟩
abbrev DALI_FWD_TWICE : Fld := ⟨DALI_FWD, 29, 29⟩
abbrev DALI_FWD_LEN24 : Fld := ⟨DALI_FWD, 28, 28⟩
abbrev DALI_FWD_DATA : Fld := ⟨DALI_FWD, 23, 0⟩
abbrev DALI_STAT : Nat := 0x40010804
abbrev DALI_STAT_BUSY : Fld := ⟨DALI_STAT, 31, 31⟩
abbrev DALI_STAT_BUSFAIL : Fld := ⟨DALI_STAT, 30, 30⟩
abbrev DALI_STAT_REPLY : Fld := ⟨DALI_STAT, 27, 26⟩
abbrev DALI_STAT_STATUS : Fld := ⟨DALI_STAT, 23, 16⟩
abbrev DALI_STAT_VALUE : Fld := ⟨DALI_STAT, 7, 0⟩
abbrev LUM_RLY : Nat := 0x40011800
abbrev LUM_RLY_START : Fld := ⟨LUM_RLY, 31, 31⟩
abbrev LUM_RLY_DIR : Fld := ⟨LUM_RLY, 30, 30⟩
abbrev LUM_RLY_LEN : Fld := ⟨LUM_RLY, 7, 0⟩
abbrev LUM_DIM : Nat := 0x40011804
abbrev LUM_DIM_POL : Fld := ⟨LUM_DIM, 31, 31⟩
abbrev LUM_DIM_SRC : Fld := ⟨LUM_DIM, 9, 8⟩
abbrev LUM_DIM_TSEL : Fld := ⟨LUM_DIM, 4, 0⟩
abbrev LUM_METER : Nat := 0x40011808
abbrev LUM_METER_EN : Fld := ⟨LUM_METER, 31, 31⟩
abbrev LUM_METER_EDGE : Fld := ⟨LUM_METER, 30, 30⟩
abbrev LUM_METER_PIN : Fld := ⟨LUM_METER, 18, 16⟩
abbrev LUM_METER_DEB : Fld := ⟨LUM_METER, 7, 0⟩
abbrev LUM_MCNT : Nat := 0x4001180C
abbrev LUM_MCNT_COUNT : Fld := ⟨LUM_MCNT, 31, 0⟩
abbrev LUM_STAT : Nat := 0x40011810
abbrev LUM_STAT_RLYBUSY : Fld := ⟨LUM_STAT, 31, 31⟩
abbrev LUM_STAT_STATUS : Fld := ⟨LUM_STAT, 7, 0⟩
abbrev ADC_SEQ : Nat := 0x4000D100
abbrev ADC_SEQ_AVG : Fld := ⟨ADC_SEQ, 19, 16⟩
abbrev ADC_SEQ_MASK : Fld := ⟨ADC_SEQ, 15, 0⟩
abbrev ADC_LIM : Nat := 0x4000D104
abbrev ADC_LIM_DIR : Fld := ⟨ADC_LIM, 31, 30⟩
abbrev ADC_LIM_LCH : Fld := ⟨ADC_LIM, 27, 24⟩
abbrev ADC_LIM_HI : Fld := ⟨ADC_LIM, 23, 12⟩
abbrev ADC_LIM_LO : Fld := ⟨ADC_LIM, 11, 0⟩
abbrev ADC_CMD : Nat := 0x4000D800
abbrev ADC_CMD_START : Fld := ⟨ADC_CMD, 0, 0⟩
abbrev ADC_TCAL : Nat := 0x4000D804
abbrev ADC_TCAL_TC85 : Fld := ⟨ADC_TCAL, 27, 16⟩
abbrev ADC_TCAL_TC25 : Fld := ⟨ADC_TCAL, 11, 0⟩
abbrev ADC_STAT : Nat := 0x4000D808
abbrev ADC_STAT_BUSY : Fld := ⟨ADC_STAT, 31, 31⟩
abbrev ADC_STAT_STATUS : Fld := ⟨ADC_STAT, 7, 0⟩
abbrev ADC_RES (n : Nat) : Nat := 0x4000D810 + 0x4 * n
abbrev ADC_RES_CODE (n : Nat) : Fld := ⟨(ADC_RES n), 11, 0⟩
abbrev GPIO_PIN (n : Nat) : Nat := 0x4000C900 + 0x4 * n
abbrev GPIO_PIN_FUNC (n : Nat) : Fld := ⟨(GPIO_PIN n), 26, 24⟩
abbrev GPIO_PIN_TSEL (n : Nat) : Fld := ⟨(GPIO_PIN n), 23, 19⟩
abbrev GPIO_PIN_PULL (n : Nat) : Fld := ⟨(GPIO_PIN n), 18, 17⟩
abbrev GPIO_PIN_EDGE (n : Nat) : Fld := ⟨(GPIO_PIN n), 16, 15⟩
abbrev GPIO_PIN_OD (n : Nat) : Fld := ⟨(GPIO_PIN n), 14, 14⟩
abbrev GPIO_PIN_DRIVE (n : Nat) : Fld := ⟨(GPIO_PIN n), 13, 13⟩
abbrev GPIO_PIN_DIR (n : Nat) : Fld := ⟨(GPIO_PIN n), 12, 12⟩
abbrev GPIO_OUT (k : Nat) : Nat := 0x4000C800 + 0x20 * k
abbrev GPIO_OUT_LINES (k : Nat) : Fld := ⟨(GPIO_OUT k), 31, 0⟩
abbrev GPIO_SET (k : Nat) : Nat := 0x4000C804 + 0x20 * k
abbrev GPIO_SET_LINES (k : Nat) : Fld := ⟨(GPIO_SET k), 31, 0⟩
abbrev GPIO_CLR (k : Nat) : Nat := 0x4000C808 + 0x20 * k
abbrev GPIO_CLR_LINES (k : Nat) : Fld := ⟨(GPIO_CLR k), 31, 0⟩
abbrev GPIO_IN (k : Nat) : Nat := 0x4000C80C + 0x20 * k
abbrev GPIO_IN_LINES (k : Nat) : Fld := ⟨(GPIO_IN k), 31, 0⟩
abbrev GPIO_FLAG (k : Nat) : Nat := 0x4000C810 + 0x20 * k
abbrev GPIO_FLAG_LINES (k : Nat) : Fld := ⟨(GPIO_FLAG k), 31, 0⟩
abbrev GPIO_IE (k : Nat) : Nat := 0x4000C814 + 0x20 * k
abbrev GPIO_IE_LINES (k : Nat) : Fld := ⟨(GPIO_IE k), 31, 0⟩
abbrev UART_CFG (n : Nat) : Nat := 0x40006100 + 0x1000 * n
abbrev UART_CFG_PARITY (n : Nat) : Fld := ⟨(UART_CFG n), 31, 30⟩
abbrev UART_CFG_STOP2 (n : Nat) : Fld := ⟨(UART_CFG n), 29, 29⟩
abbrev UART_CFG_FLOW (n : Nat) : Fld := ⟨(UART_CFG n), 28, 28⟩
abbrev UART_CFG_BAUD (n : Nat) : Fld := ⟨(UART_CFG n), 21, 0⟩
abbrev UART_DATA (n : Nat) : Nat := 0x40006800 + 0x1000 * n
abbrev UART_DATA_DATA (n : Nat) : Fld := ⟨(UART_DATA n), 7, 0⟩
abbrev UART_STAT (n : Nat) : Nat := 0x40006804 + 0x1000 * n
abbrev UART_STAT_OVR (n : Nat) : Fld := ⟨(UART_STAT n), 29, 29⟩
abbrev UART_STAT_FERR (n : Nat) : Fld := ⟨(UART_STAT n), 28, 28⟩
abbrev UART_STAT_PERR (n : Nat) : Fld := ⟨(UART_STAT n), 27, 27⟩
abbrev UART_STAT_RXLEV (n : Nat) : Fld := ⟨(UART_STAT n), 12, 8⟩
abbrev UART_STAT_TXLEV (n : Nat) : Fld := ⟨(UART_STAT n), 4, 0⟩
abbrev I2C_CFG (n : Nat) : Nat := 0x4000A100 + 0x1000 * n
abbrev I2C_CFG_SPEED (n : Nat) : Fld := ⟨(I2C_CFG n), 1, 0⟩
abbrev I2C_CMD (n : Nat) : Nat := 0x4000A800 + 0x1000 * n
abbrev I2C_CMD_START (n : Nat) : Fld := ⟨(I2C_CMD n), 31, 31⟩
abbrev I2C_CMD_ADDR (n : Nat) : Fld := ⟨(I2C_CMD n), 30, 24⟩
abbrev I2C_CMD_WLEN (n : Nat) : Fld := ⟨(I2C_CMD n), 13, 8⟩
abbrev I2C_CMD_RLEN (n : Nat) : Fld := ⟨(I2C_CMD n), 5, 0⟩
abbrev I2C_STAT (n : Nat) : Nat := 0x4000A804 + 0x1000 * n
abbrev I2C_STAT_BUSY (n : Nat) : Fld := ⟨(I2C_STAT n), 31, 31⟩
abbrev I2C_STAT_STATUS (n : Nat) : Fld := ⟨(I2C_STAT n), 7, 0⟩
abbrev I2C_BUF (n : Nat) (k : Nat) : Nat := 0x4000AC00 + 0x1000 * n + 0x4 * k
abbrev I2C_BUF_DATA (n : Nat) (k : Nat) : Fld := ⟨(I2C_BUF n k), 31, 0⟩
abbrev RCTL_FEMCFG : Nat := 0x43000100
abbrev RCTL_FEMCFG_TX : Fld := ⟨RCTL_FEMCFG, 24, 20⟩
abbrev RCTL_FEMCFG_RX : Fld := ⟨RCTL_FEMCFG, 19, 15⟩
abbrev RCTL_FEMCFG_SYN : Fld := ⟨RCTL_FEMCFG, 14, 10⟩
abbrev RCTL_FEMCFG_STBY : Fld := ⟨RCTL_FEMCFG, 9, 5⟩
abbrev RCTL_FEMCFG_SLEEP : Fld := ⟨RCTL_FEMCFG, 4, 0⟩
abbrev RCTL_FEMTIM : Nat := 0x43000104
abbrev RCTL_FEMTIM_LAG : Fld := ⟨RCTL_FEMTIM, 11, 8⟩
abbrev RCTL_FEMTIM_LEAD : Fld := ⟨RCTL_FEMTIM, 3, 0⟩
abbrev RCTL_TXLAT : Nat := 0x43000108
abbrev RCTL_TXLAT_TICKS : Fld := ⟨RCTL_TXLAT, 11, 0⟩
abbrev RCTL_CMD : Nat := 0x43000800
abbrev RCTL_CMD_STATE : Fld := ⟨RCTL_CMD, 2, 0⟩
abbrev RCTL_STAT : Nat := 0x43000804
abbrev RCTL_STAT_TXACT : Fld := ⟨RCTL_STAT, 13, 13⟩
abbrev RCTL_STAT_LOCK : Fld := ⟨RCTL_STAT, 12, 12⟩
abbrev RCTL_STAT_LINKFAIL : Fld := ⟨RCTL_STAT, 11, 11⟩
abbrev RCTL_STAT_UCODE_OK : Fld := ⟨RCTL_STAT, 10, 10⟩
abbrev RCTL_STAT_OWNER : Fld := ⟨RCTL_STAT, 9, 8⟩
abbrev RCTL_STAT_TARGET : Fld := ⟨RCTL_STAT, 6, 4⟩
abbrev RCTL_STAT_BUSY : Fld := ⟨RCTL_STAT, 3, 3⟩
abbrev RCTL_STAT_STATE : Fld := ⟨RCTL_STAT, 2, 0⟩
abbrev RCTL_CMDSTAT : Nat := 0x43000808
abbrev RCTL_CMDSTAT_REFUSED : Fld := ⟨RCTL_CMDSTAT, 31, 24⟩
abbrev RCTL_CMDSTAT_TIME : Fld := ⟨RCTL_CMDSTAT, 23, 8⟩
abbrev RCTL_CMDSTAT_STATUS : Fld := ⟨RCTL_CMDSTAT, 7, 0⟩
abbrev RCTL_D2DERR : Nat := 0x4300080C
abbrev RCTL_D2DERR_FAILED : Fld := ⟨RCTL_D2DERR, 31, 31⟩
abbrev RCTL_D2DERR_REGBUS : Fld := ⟨RCTL_D2DERR, 23, 16⟩
abbrev RCTL_D2DERR_TXBURST : Fld := ⟨RCTL_D2DERR, 15, 8⟩
abbrev RCTL_D2DERR_RXBURST : Fld := ⟨RCTL_D2DERR, 7, 0⟩
abbrev SYNTH_F0 : Nat := 0x43001100
abbrev SYNTH_F0_F0 : Fld := ⟨SYNTH_F0, 29, 0⟩
abbrev SYNTH_SPACING : Nat := 0x43001104
abbrev SYNTH_SPACING_SPACING : Fld := ⟨SYNTH_SPACING, 20, 0⟩
abbrev SYNTH_CCTL : Nat := 0x43001108
abbrev SYNTH_CCTL_TDELTA : Fld := ⟨SYNTH_CCTL, 7, 4⟩
abbrev SYNTH_CCTL_FLUSH : Fld := ⟨SYNTH_CCTL, 0, 0⟩
abbrev SYNTH_CHAN : Nat := 0x43001800
abbrev SYNTH_CHAN_N : Fld := ⟨SYNTH_CHAN, 9, 0⟩
abbrev SYNTH_STAT : Nat := 0x43001804
abbrev SYNTH_STAT_UNLOCKS : Fld := ⟨SYNTH_STAT, 31, 16⟩
abbrev SYNTH_STAT_LOCKTO : Fld := ⟨SYNTH_STAT, 3, 3⟩
abbrev SYNTH_STAT_HIT : Fld := ⟨SYNTH_STAT, 2, 2⟩
abbrev SYNTH_STAT_CAL : Fld := ⟨SYNTH_STAT, 1, 1⟩
abbrev SYNTH_STAT_LOCK : Fld := ⟨SYNTH_STAT, 0, 0⟩
abbrev SYNTH_FREQ : Nat := 0x43001808
abbrev SYNTH_FREQ_FREQ : Fld := ⟨SYNTH_FREQ, 29, 0⟩
abbrev SYNTH_CACHE : Nat := 0x4300180C
abbrev SYNTH_CACHE_MISSES : Fld := ⟨SYNTH_CACHE, 31, 16⟩
abbrev SYNTH_CACHE_HITS : Fld := ⟨SYNTH_CACHE, 15, 0⟩
abbrev TXP_CFG : Nat := 0x43004100
abbrev TXP_CFG_LOCK : Fld := ⟨TXP_CFG, 31, 31⟩
abbrev TXP_CFG_CEIL : Fld := ⟨TXP_CFG, 15, 8⟩
abbrev TXP_CFG_PROFILE : Fld := ⟨TXP_CFG, 5, 4⟩
abbrev TXP_CFG_CLAMP : Fld := ⟨TXP_CFG, 0, 0⟩
abbrev TXP_PWR (i : Nat) : Nat := 0x43004200 + 0x4 * i
abbrev TXP_PWR_CODE (i : Nat) : Fld := ⟨(TXP_PWR i), 7, 0⟩
abbrev TXP_TEST : Nat := 0x43004800
abbrev TXP_TEST_INDEX : Fld := ⟨TXP_TEST, 13, 8⟩
abbrev TXP_TEST_CW : Fld := ⟨TXP_TEST, 0, 0⟩
abbrev TXP_STAT : Nat := 0x43004804
abbrev TXP_STAT_CLAMPED : Fld := ⟨TXP_STAT, 24, 24⟩
abbrev TXP_STAT_CODE : Fld := ⟨TXP_STAT, 23, 16⟩
abbrev TXP_STAT_INDEX : Fld := ⟨TXP_STAT, 13, 8⟩
abbrev TXP_STAT_STATUS : Fld := ⟨TXP_STAT, 7, 0⟩
abbrev TXP_REFUSE : Nat := 0x43004808
abbrev TXP_REFUSE_TXTIME : Fld := ⟨TXP_REFUSE, 31, 24⟩
abbrev TXP_REFUSE_DUTY : Fld := ⟨TXP_REFUSE, 23, 16⟩
abbrev TXP_REFUSE_POWER : Fld := ⟨TXP_REFUSE, 15, 8⟩
abbrev TXP_REFUSE_CHANNEL : Fld := ⟨TXP_REFUSE, 7, 0⟩
abbrev TXP_LATE : Nat := 0x4300480C
abbrev TXP_LATE_WAITS : Fld := ⟨TXP_LATE, 31, 16⟩
abbrev TXP_LATE_LATE : Fld := ⟨TXP_LATE, 15, 0⟩
abbrev TXP_PROF (p : Nat) (w : Nat) : Nat := 0x43004810 + 0x10 * p + 0x4 * w
abbrev TXP_PROF_WORD (p : Nat) (w : Nat) : Fld := ⟨(TXP_PROF p w), 31, 0⟩
abbrev LANES_CFG : Nat := 0x41008100
abbrev LANES_CFG_EDWIN : Fld := ⟨LANES_CFG, 2, 0⟩
abbrev LANES_MODE (n : Nat) : Nat := 0x41008120 + 0x20 * n
abbrev LANES_MODE_PRIO (n : Nat) : Fld := ⟨(LANES_MODE n), 31, 31⟩
abbrev LANES_MODE_HIDX (n : Nat) : Fld := ⟨(LANES_MODE n), 14, 8⟩
abbrev LANES_MODE_PHY (n : Nat) : Fld := ⟨(LANES_MODE n), 7, 6⟩
abbrev LANES_MODE_RATE (n : Nat) : Fld := ⟨(LANES_MODE n), 5, 4⟩
abbrev LANES_MODE_OPT (n : Nat) : Fld := ⟨(LANES_MODE n), 3, 2⟩
abbrev LANES_MODE_FEC (n : Nat) : Fld := ⟨(LANES_MODE n), 1, 1⟩
abbrev LANES_OFS (n : Nat) : Nat := 0x41008124 + 0x20 * n
abbrev LANES_OFS_OFS (n : Nat) : Fld := ⟨(LANES_OFS n), 11, 0⟩
abbrev LANES_SFD (n : Nat) : Nat := 0x41008128 + 0x20 * n
abbrev LANES_SFD_SFD1 (n : Nat) : Fld := ⟨(LANES_SFD n), 31, 16⟩
abbrev LANES_SFD_SFD0 (n : Nat) : Fld := ⟨(LANES_SFD n), 15, 0⟩
abbrev LANES_DET (n : Nat) : Nat := 0x4100812C + 0x20 * n
abbrev LANES_DET_DETMIN (n : Nat) : Fld := ⟨(LANES_DET n), 31, 24⟩
abbrev LANES_DET_STFTH (n : Nat) : Fld := ⟨(LANES_DET n), 19, 16⟩
abbrev LANES_DET_SFDERR (n : Nat) : Fld := ⟨(LANES_DET n), 9, 8⟩
abbrev LANES_DET_PREQ (n : Nat) : Fld := ⟨(LANES_DET n), 3, 0⟩
abbrev LANES_LEN (n : Nat) : Nat := 0x41008130 + 0x20 * n
abbrev LANES_LEN_PRELIM (n : Nat) : Fld := ⟨(LANES_LEN n), 31, 16⟩
abbrev LANES_LEN_MAXLEN (n : Nat) : Fld := ⟨(LANES_LEN n), 10, 0⟩
abbrev LANES_ENABLE : Nat := 0x41008800
abbrev LANES_ENABLE_EN : Fld := ⟨LANES_ENABLE, 3, 0⟩
abbrev LANES_STAT : Nat := 0x41008804
abbrev LANES_STAT_RESETTLE : Fld := ⟨LANES_STAT, 20, 20⟩
abbrev LANES_STAT_FROZEN : Fld := ⟨LANES_STAT, 19, 19⟩
abbrev LANES_STAT_OWNER : Fld := ⟨LANES_STAT, 18, 16⟩
abbrev LANES_STAT_STATE : Fld := ⟨LANES_STAT, 15, 0⟩
abbrev LANES_CFGERR : Nat := 0x41008808
abbrev LANES_CFGERR_STATUS : Fld := ⟨LANES_CFGERR, 31, 0⟩
abbrev LANES_CNTCLR : Nat := 0x4100880C
abbrev LANES_CNTCLR_CLR : Fld := ⟨LANES_CNTCLR, 3, 0⟩
abbrev LANES_ED (n : Nat) : Nat := 0x41008810 + 0x4 * n
abbrev LANES_ED_STALE (n : Nat) : Fld := ⟨(LANES_ED n), 31, 31⟩
abbrev LANES_ED_ED (n : Nat) : Fld := ⟨(LANES_ED n), 15, 0⟩
abbrev LANES_LAST (n : Nat) : Nat := 0x41008820 + 0x4 * n
abbrev LANES_LAST_SNR (n : Nat) : Fld := ⟨(LANES_LAST n), 31, 24⟩
abbrev LANES_LAST_DROP (n : Nat) : Fld := ⟨(LANES_LAST n), 23, 20⟩
abbrev LANES_LAST_RSSI (n : Nat) : Fld := ⟨(LANES_LAST n), 15, 0⟩
abbrev RXFE_AGC : Nat := 0x43002100
abbrev RXFE_AGC_MANUAL : Fld := ⟨RXFE_AGC, 31, 31⟩
abbrev RXFE_AGC_INIT : Fld := ⟨RXFE_AGC, 19, 16⟩
abbrev RXFE_AGC_DBAND : Fld := ⟨RXFE_AGC, 11, 8⟩
abbrev RXFE_AGC_TARGET : Fld := ⟨RXFE_AGC, 7, 0⟩
abbrev RXFE_MGAIN : Nat := 0x43002104
abbrev RXFE_MGAIN_STEP : Fld := ⟨RXFE_MGAIN, 3, 0⟩
abbrev RXFE_GAIN : Nat := 0x43002800
abbrev RXFE_GAIN_FROZEN : Fld := ⟨RXFE_GAIN, 31, 31⟩
abbrev RXFE_GAIN_LEVEL : Fld := ⟨RXFE_GAIN, 15, 8⟩
abbrev RXFE_GAIN_STEP : Fld := ⟨RXFE_GAIN, 3, 0⟩
abbrev RXFE_CLIP : Nat := 0x43002804
abbrev RXFE_CLIP_FROZEN : Fld := ⟨RXFE_CLIP, 31, 16⟩
abbrev RXFE_CLIP_ALL : Fld := ⟨RXFE_CLIP, 15, 0⟩
abbrev RXFE_CAL : Nat := 0x43002808
abbrev RXFE_CAL_OFFSET : Fld := ⟨RXFE_CAL, 15, 0⟩
abbrev LINK_CFG : Nat := 0x41000100
abbrev LINK_CFG_HOSTRX : Fld := ⟨LINK_CFG, 31, 31⟩
abbrev LINK_CFG_TACK : Fld := ⟨LINK_CFG, 26, 16⟩
abbrev LINK_CFG_ACKPRE : Fld := ⟨LINK_CFG, 15, 8⟩
abbrev LINK_CFG_WAITMAX : Fld := ⟨LINK_CFG, 7, 0⟩
abbrev LINK_ACKCFG : Nat := 0x41000104
abbrev LINK_ACKCFG_ACKPWR : Fld := ⟨LINK_ACKCFG, 5, 0⟩
abbrev LINK_MODE : Nat := 0x41000800
abbrev LINK_MODE_MODE : Fld := ⟨LINK_MODE, 1, 0⟩
abbrev LINK_STAT : Nat := 0x41000804
abbrev LINK_STAT_TXQ : Fld := ⟨LINK_STAT, 20, 16⟩
abbrev LINK_STAT_AUTOSW : Fld := ⟨LINK_STAT, 9, 9⟩
abbrev LINK_STAT_UCODE_OK : Fld := ⟨LINK_STAT, 8, 8⟩
abbrev LINK_STAT_MODE : Fld := ⟨LINK_STAT, 1, 0⟩
abbrev LINK_RXIDX : Nat := 0x41000808
abbrev LINK_RXIDX_WR : Fld := ⟨LINK_RXIDX, 25, 16⟩
abbrev LINK_RXIDX_RD : Fld := ⟨LINK_RXIDX, 9, 0⟩
abbrev LINK_TXIDX : Nat := 0x4100080C
abbrev LINK_TXIDX_DONE : Fld := ⟨LINK_TXIDX, 25, 16⟩
abbrev LINK_TXIDX_WR : Fld := ⟨LINK_TXIDX, 9, 0⟩
abbrev LINK_UCCTL : Nat := 0x41000810
abbrev LINK_UCCTL_ADDR : Fld := ⟨LINK_UCCTL, 15, 3⟩
abbrev LINK_UCCTL_GOOD : Fld := ⟨LINK_UCCTL, 2, 2⟩
abbrev LINK_UCCTL_DONE : Fld := ⟨LINK_UCCTL, 1, 1⟩
abbrev LINK_UCCTL_LOAD : Fld := ⟨LINK_UCCTL, 0, 0⟩
abbrev FBUF_SHMAX : Nat := 0x41001100
abbrev FBUF_SHMAX_HOST : Fld := ⟨FBUF_SHMAX, 23, 16⟩
abbrev FBUF_SHMAX_TX : Fld := ⟨FBUF_SHMAX, 15, 8⟩
abbrev FBUF_SHMAX_RX : Fld := ⟨FBUF_SHMAX, 7, 0⟩
abbrev FBUF_ALLOC : Nat := 0x41001800
abbrev FBUF_ALLOC_STATUS : Fld := ⟨FBUF_ALLOC, 31, 24⟩
abbrev FBUF_ALLOC_NCM1 : Fld := ⟨FBUF_ALLOC, 11, 9⟩
abbrev FBUF_ALLOC_CELL : Fld := ⟨FBUF_ALLOC, 8, 0⟩
abbrev FILT_ADDR : Nat := 0x41002100
abbrev FILT_ADDR_SHORT : Fld := ⟨FILT_ADDR, 31, 16⟩
abbrev FILT_ADDR_PAN : Fld := ⟨FILT_ADDR, 15, 0⟩
abbrev FILT_CFG : Nat := 0x4100210C
abbrev FILT_CFG_PENDEXT : Fld := ⟨FILT_CFG, 2, 2⟩
abbrev FILT_CFG_BCNANY : Fld := ⟨FILT_CFG, 1, 1⟩
abbrev FILT_CFG_PROMISC : Fld := ⟨FILT_CFG, 0, 0⟩
abbrev FILT_GROUP (i : Nat) : Nat := 0x41002200 + 0x4 * i
abbrev FILT_GROUP_VALID (i : Nat) : Fld := ⟨(FILT_GROUP i), 31, 31⟩
abbrev FILT_GROUP_ADDR (i : Nat) : Fld := ⟨(FILT_GROUP i), 15, 0⟩
abbrev PEER_WD (w : Nat) : Nat := 0x41003800 + 0x4 * w
abbrev PEER_WD_WORD (w : Nat) : Fld := ⟨(PEER_WD w), 31, 0⟩
abbrev PEER_WCMD : Nat := 0x41003820
abbrev PEER_WCMD_MASK : Fld := ⟨PEER_WCMD, 31, 24⟩
abbrev PEER_WCMD_INDEX : Fld := ⟨PEER_WCMD, 11, 0⟩
abbrev FLOOD_CFG : Nat := 0x41004100
abbrev FLOOD_CFG_RPWR : Fld := ⟨FLOOD_CFG, 21, 16⟩
abbrev FLOOD_CFG_HTRLEARN : Fld := ⟨FLOOD_CFG, 9, 9⟩
abbrev FLOOD_CFG_HTRAUTO : Fld := ⟨FLOOD_CFG, 8, 8⟩
abbrev FLOOD_CFG_NRELAY : Fld := ⟨FLOOD_CFG, 3, 0⟩
abbrev FLOOD_TRELAY : Nat := 0x41004104
abbrev FLOOD_TRELAY_TICKS : Fld := ⟨FLOOD_TRELAY, 17, 0⟩
abbrev FLOOD_WIN : Nat := 0x41004108
abbrev FLOOD_WIN_WIN : Fld := ⟨FLOOD_WIN, 22, 0⟩
abbrev FLOOD_RPRE : Nat := 0x4100410C
abbrev FLOOD_RPRE_PRE : Fld := ⟨FLOOD_RPRE, 15, 0⟩
abbrev FLOOD_SEEN : Nat := 0x41004110
abbrev FLOOD_SEEN_LIFE : Fld := ⟨FLOOD_SEEN, 15, 0⟩
abbrev FLOOD_HTR : Nat := 0x41004800
abbrev FLOOD_HTR_HTR : Fld := ⟨FLOOD_HTR, 15, 0⟩
abbrev FLOOD_SEQ : Nat := 0x41004804
abbrev FLOOD_SEQ_NEXT : Fld := ⟨FLOOD_SEQ, 15, 0⟩
abbrev FLOOD_BCN : Nat := 0x41004808
abbrev FLOOD_BCN_EN : Fld := ⟨FLOOD_BCN, 31, 31⟩
abbrev FLOOD_BCN_SECURE : Fld := ⟨FLOOD_BCN, 30, 30⟩
abbrev FLOOD_BCN_B : Fld := ⟨FLOOD_BCN, 27, 16⟩
abbrev FLOOD_BCN_LANE : Fld := ⟨FLOOD_BCN, 1, 0⟩
abbrev FLOOD_BTMPL : Nat := 0x4100480C
abbrev FLOOD_BTMPL_NCM1 : Fld := ⟨FLOOD_BTMPL, 22, 20⟩
abbrev FLOOD_BTMPL_CELL : Fld := ⟨FLOOD_BTMPL, 19, 11⟩
abbrev FLOOD_BTMPL_LENGTH : Fld := ⟨FLOOD_BTMPL, 10, 0⟩
abbrev NTIME_CFG : Nat := 0x41005100
abbrev NTIME_CFG_ROOT : Fld := ⟨NTIME_CFG, 31, 31⟩
abbrev NTIME_CFG_SECREQ : Fld := ⟨NTIME_CFG, 30, 30⟩
abbrev NTIME_CFG_TRIMSH : Fld := ⟨NTIME_CFG, 27, 24⟩
abbrev NTIME_CFG_TRIMEN : Fld := ⟨NTIME_CFG, 16, 16⟩
abbrev NTIME_CFG_SLEWLIM : Fld := ⟨NTIME_CFG, 15, 0⟩
abbrev NTIME_PROP : Nat := 0x41005104
abbrev NTIME_PROP_PROP : Fld := ⟨NTIME_PROP, 10, 0⟩
abbrev NTIME_CMD : Nat := 0x41005808
abbrev NTIME_CMD_CMPARM : Fld := ⟨NTIME_CMD, 2, 2⟩
abbrev NTIME_CMD_DESYNC : Fld := ⟨NTIME_CMD, 1, 1⟩
abbrev NTIME_CMD_SET : Fld := ⟨NTIME_CMD, 0, 0⟩
abbrev NTIME_STAT : Nat := 0x4100580C
abbrev NTIME_STAT_LASTHOP : Fld := ⟨NTIME_STAT, 31, 16⟩
abbrev NTIME_STAT_CMPARMED : Fld := ⟨NTIME_STAT, 2, 2⟩
abbrev NTIME_STAT_CVALID : Fld := ⟨NTIME_STAT, 1, 1⟩
abbrev NTIME_STAT_SYNC : Fld := ⟨NTIME_STAT, 0, 0⟩
abbrev NTIME_TRIM : Nat := 0x41005810
abbrev NTIME_TRIM_TRIM : Fld := ⟨NTIME_TRIM, 19, 0⟩
abbrev NTIME_LFCAL : Nat := 0x41005814
abbrev NTIME_LFCAL_RATIO : Fld := ⟨NTIME_LFCAL, 31, 0⟩
abbrev NTIME_DELTA : Nat := 0x41005818
abbrev NTIME_DELTA_DELTA : Fld := ⟨NTIME_DELTA, 31, 0⟩
abbrev SAMP_CFG : Nat := 0x42003100
abbrev SAMP_CFG_SLANES : Fld := ⟨SAMP_CFG, 31, 28⟩
abbrev SAMP_CFG_BLANES : Fld := ⟨SAMP_CFG, 27, 24⟩
abbrev SAMP_CFG_EDTH : Fld := ⟨SAMP_CFG, 23, 16⟩
abbrev SAMP_CFG_TS : Fld := ⟨SAMP_CFG, 15, 0⟩
abbrev SAMP_RDV : Nat := 0x42003104
abbrev SAMP_RDV_EN : Fld := ⟨SAMP_RDV, 31, 31⟩
abbrev SAMP_RDV_QOCT : Fld := ⟨SAMP_RDV, 19, 16⟩
abbrev SAMP_RDV_EXT : Fld := ⟨SAMP_RDV, 13, 0⟩
abbrev SAMP_BCFG : Nat := 0x42003108
abbrev SAMP_BCFG_TRACK : Fld := ⟨SAMP_BCFG, 31, 31⟩
abbrev SAMP_BCFG_RELAY : Fld := ⟨SAMP_BCFG, 30, 30⟩
abbrev SAMP_BCFG_HOLD : Fld := ⟨SAMP_BCFG, 15, 8⟩
abbrev SAMP_BCFG_EVERY : Fld := ⟨SAMP_BCFG, 7, 0⟩
abbrev SAMP_STAT : Nat := 0x42003800
abbrev SAMP_STAT_MISSES : Fld := ⟨SAMP_STAT, 17, 16⟩
abbrev SAMP_STAT_BSTATE : Fld := ⟨SAMP_STAT, 10, 8⟩
abbrev SAMP_STAT_WIN : Fld := ⟨SAMP_STAT, 2, 0⟩
abbrev SAMP_CMD : Nat := 0x42003804
abbrev SAMP_CMD_REANCHOR : Fld := ⟨SAMP_CMD, 1, 1⟩
abbrev SAMP_CMD_RESCAN : Fld := ⟨SAMP_CMD, 0, 0⟩
abbrev FLASHC_IMG : Nat := 0x40003100
abbrev FLASHC_IMG_LAST : Fld := ⟨FLASHC_IMG, 21, 16⟩
abbrev FLASHC_IMG_VALID : Fld := ⟨FLASHC_IMG, 0, 0⟩
abbrev FLASHC_IMGFIRST : Nat := 0x40003104
abbrev FLASHC_IMGFIRST_FIRST : Fld := ⟨FLASHC_IMGFIRST, 5, 0⟩
abbrev FLASHC_STAT : Nat := 0x40003800
abbrev FLASHC_STAT_LAST : Fld := ⟨FLASHC_STAT, 31, 24⟩
abbrev FLASHC_STAT_UNIT : Fld := ⟨FLASHC_STAT, 23, 16⟩
abbrev FLASHC_STAT_STATE : Fld := ⟨FLASHC_STAT, 15, 14⟩
abbrev FLASHC_STAT_PULSES : Fld := ⟨FLASHC_STAT, 10, 0⟩
abbrev FLASHC_ECC : Nat := 0x40003804
abbrev FLASHC_ECC_UNCORR : Fld := ⟨FLASHC_ECC, 31, 16⟩
abbrev FLASHC_ECC_CORR : Fld := ⟨FLASHC_ECC, 15, 0⟩
abbrev XSPI_SEQCMD : Nat := 0x40004800
abbrev XSPI_SEQCMD_START : Fld := ⟨XSPI_SEQCMD, 31, 31⟩
abbrev XSPI_SEQCMD_CS : Fld := ⟨XSPI_SEQCMD, 30, 30⟩
abbrev XSPI_SEQCMD_DIR : Fld := ⟨XSPI_SEQCMD, 29, 28⟩
abbrev XSPI_SEQCMD_ADDR : Fld := ⟨XSPI_SEQCMD, 27, 27⟩
abbrev XSPI_SEQCMD_WIP : Fld := ⟨XSPI_SEQCMD, 26, 26⟩
abbrev XSPI_SEQCMD_DUMMY : Fld := ⟨XSPI_SEQCMD, 20, 16⟩
abbrev XSPI_SEQCMD_OPCODE : Fld := ⟨XSPI_SEQCMD, 7, 0⟩
abbrev XSPI_STAT : Nat := 0x4000480C
abbrev XSPI_STAT_POLLING : Fld := ⟨XSPI_STAT, 9, 9⟩
abbrev XSPI_STAT_BUSY : Fld := ⟨XSPI_STAT, 8, 8⟩
abbrev XSPI_STAT_STATUS : Fld := ⟨XSPI_STAT, 7, 0⟩
abbrev XSPI_RESET : Nat := 0x40004810
abbrev XSPI_RESET_ASSERT : Fld := ⟨XSPI_RESET, 0, 0⟩
abbrev DMA_CNT (n : Nat) : Nat := 0x40002108 + 0x10 * n
abbrev DMA_CNT_CNT (n : Nat) : Fld := ⟨(DMA_CNT n), 15, 0⟩
abbrev DMA_CFG (n : Nat) : Nat := 0x4000210C + 0x10 * n
abbrev DMA_CFG_TRIG (n : Nat) : Fld := ⟨(DMA_CFG n), 5, 4⟩
abbrev DMA_CFG_DFIX (n : Nat) : Fld := ⟨(DMA_CFG n), 3, 3⟩
abbrev DMA_CFG_SFIX (n : Nat) : Fld := ⟨(DMA_CFG n), 2, 2⟩
abbrev DMA_CFG_SIZE (n : Nat) : Fld := ⟨(DMA_CFG n), 1, 0⟩
abbrev DMA_EN : Nat := 0x40002800
abbrev DMA_EN_EN : Fld := ⟨DMA_EN, 7, 0⟩
abbrev DMA_STAT (n : Nat) : Nat := 0x40002810 + 0x4 * n
abbrev DMA_STAT_STATUS (n : Nat) : Fld := ⟨(DMA_STAT n), 31, 24⟩
abbrev DMA_STAT_LEFT (n : Nat) : Fld := ⟨(DMA_STAT n), 15, 0⟩
abbrev RIGGER_SRC (n : Nat) : Nat := 0x42001100 + 0x8 * n
abbrev RIGGER_SRC_STORM (n : Nat) : Fld := ⟨(RIGGER_SRC n), 15, 8⟩
abbrev RIGGER_SRC_SRC (n : Nat) : Fld := ⟨(RIGGER_SRC n), 7, 0⟩
abbrev RIGGER_CNTCLR : Nat := 0x42001820
abbrev RIGGER_CNTCLR_ALL : Fld := ⟨RIGGER_CNTCLR, 31, 31⟩
abbrev RIGGER_CNTCLR_CHAN : Fld := ⟨RIGGER_CNTCLR, 5, 0⟩
abbrev STIM_CFG (n : Nat) : Nat := 0x4000E100 + 0x8 * n
abbrev STIM_CFG_GATE (n : Nat) : Fld := ⟨(STIM_CFG n), 23, 16⟩
abbrev STIM_CFG_GPOL (n : Nat) : Fld := ⟨(STIM_CFG n), 15, 15⟩
abbrev STIM_CFG_CLK (n : Nat) : Fld := ⟨(STIM_CFG n), 8, 8⟩
abbrev STIM_CFG_PRESC (n : Nat) : Fld := ⟨(STIM_CFG n), 7, 4⟩
abbrev STIM_CFG_MODE (n : Nat) : Fld := ⟨(STIM_CFG n), 0, 0⟩
abbrev STIM_EN : Nat := 0x4000E800
abbrev STIM_EN_EN : Fld := ⟨STIM_EN, 7, 0⟩
abbrev STIM_STAT (n : Nat) : Nat := 0x4000E858 + 0x20 * n
abbrev STIM_STAT_IE (n : Nat) : Fld := ⟨(STIM_STAT n), 20, 16⟩
abbrev STIM_STAT_GLATCH (n : Nat) : Fld := ⟨(STIM_STAT n), 8, 8⟩
abbrev STIM_STAT_FLAGS (n : Nat) : Fld := ⟨(STIM_STAT n), 4, 0⟩
abbrev LTIM_CFG (n : Nat) : Nat := 0x4000F100 + 0x4 * n
abbrev LTIM_CFG_CHAIN (n : Nat) : Fld := ⟨(LTIM_CFG n), 8, 8⟩
abbrev LTIM_CFG_CLK (n : Nat) : Fld := ⟨(LTIM_CFG n), 5, 4⟩
abbrev LTIM_CFG_PRESC (n : Nat) : Fld := ⟨(LTIM_CFG n), 3, 0⟩
abbrev LTIM_EN : Nat := 0x4000F800
abbrev LTIM_EN_EN : Fld := ⟨LTIM_EN, 1, 0⟩
abbrev LTIM_STAT (n : Nat) : Nat := 0x4000F81C + 0x10 * n
abbrev LTIM_STAT_IE (n : Nat) : Fld := ⟨(LTIM_STAT n), 17, 16⟩
abbrev LTIM_STAT_FLAGS (n : Nat) : Fld := ⟨(LTIM_STAT n), 1, 0⟩
abbrev RTC_STAT : Nat := 0x4200880C
abbrev RTC_STAT_IE : Fld := ⟨RTC_STAT, 17, 16⟩
abbrev RTC_STAT_SECF : Fld := ⟨RTC_STAT, 4, 4⟩
abbrev RTC_STAT_VBAK : Fld := ⟨RTC_STAT, 3, 3⟩
abbrev RTC_STAT_ARMED : Fld := ⟨RTC_STAT, 2, 2⟩
abbrev RTC_STAT_ALARMF : Fld := ⟨RTC_STAT, 1, 1⟩
abbrev RTC_STAT_TIME_VALID : Fld := ⟨RTC_STAT, 0, 0⟩
abbrev RTC_TRICKLE : Nat := 0x42008810
abbrev RTC_TRICKLE_LOCK : Fld := ⟨RTC_TRICKLE, 31, 31⟩
abbrev RTC_TRICKLE_VLIM : Fld := ⟨RTC_TRICKLE, 4, 4⟩
abbrev RTC_TRICKLE_DIODE : Fld := ⟨RTC_TRICKLE, 3, 3⟩
abbrev RTC_TRICKLE_RSEL : Fld := ⟨RTC_TRICKLE, 2, 1⟩
abbrev RTC_TRICKLE_EN : Fld := ⟨RTC_TRICKLE, 0, 0⟩
abbrev RTC_BKP (i : Nat) : Nat := 0x42008820 + 0x4 * i
abbrev RTC_BKP_DATA (i : Nat) : Fld := ⟨(RTC_BKP i), 31, 0⟩
abbrev PWR_SLEEPCFG : Nat := 0x42000100
abbrev PWR_SLEEPCFG_RETAIN : Fld := ⟨PWR_SLEEPCFG, 15, 8⟩
abbrev PWR_SLEEPCFG_TARGET : Fld := ⟨PWR_SLEEPCFG, 0, 0⟩
abbrev PWR_WAKEEN : Nat := 0x42000104
abbrev PWR_WAKEEN_EN : Fld := ⟨PWR_WAKEEN, 13, 0⟩
abbrev PWR_GPWAKE : Nat := 0x42000108
abbrev PWR_GPWAKE_EDGE : Fld := ⟨PWR_GPWAKE, 15, 0⟩
abbrev PWR_STAT : Nat := 0x42000800
abbrev PWR_STAT_PADHOLD : Fld := ⟨PWR_STAT, 31, 31⟩
abbrev PWR_STAT_ABANDON : Fld := ⟨PWR_STAT, 30, 30⟩
abbrev PWR_STAT_ABPT : Fld := ⟨PWR_STAT, 29, 28⟩
abbrev PWR_STAT_RESULT : Fld := ⟨PWR_STAT, 15, 8⟩
abbrev PWR_STAT_LAST : Fld := ⟨PWR_STAT, 1, 0⟩
abbrev PWR_WAKESRC : Nat := 0x42000804
abbrev PWR_WAKESRC_SRC : Fld := ⟨PWR_WAKESRC, 13, 0⟩
abbrev PWR_CLKREQ : Nat := 0x42000810
abbrev PWR_CLKREQ_PLLEN : Fld := ⟨PWR_CLKREQ, 1, 1⟩
abbrev PWR_CLKREQ_XOREQ : Fld := ⟨PWR_CLKREQ, 0, 0⟩
abbrev PWR_CLKSEL : Nat := 0x42000814
abbrev PWR_CLKSEL_SRC : Fld := ⟨PWR_CLKSEL, 8, 8⟩
abbrev PWR_CLKSEL_CDIV : Fld := ⟨PWR_CLKSEL, 5, 0⟩
abbrev PWR_CLKSTAT : Nat := 0x42000818
abbrev PWR_CLKSTAT_LFFAIL : Fld := ⟨PWR_CLKSTAT, 6, 6⟩
abbrev PWR_CLKSTAT_XOFAIL : Fld := ⟨PWR_CLKSTAT, 5, 5⟩
abbrev PWR_CLKSTAT_LFOK : Fld := ⟨PWR_CLKSTAT, 4, 4⟩
abbrev PWR_CLKSTAT_PLLLOCK : Fld := ⟨PWR_CLKSTAT, 3, 3⟩
abbrev PWR_CLKSTAT_XOOK : Fld := ⟨PWR_CLKSTAT, 2, 2⟩
abbrev PWR_CLKSTAT_SRC : Fld := ⟨PWR_CLKSTAT, 0, 0⟩
abbrev PWR_PATH : Nat := 0x4200081C
abbrev PWR_PATH_REGON : Fld := ⟨PWR_PATH, 2, 2⟩
abbrev PWR_PATH_SRC : Fld := ⟨PWR_PATH, 1, 1⟩
abbrev PWR_PATH_VINOK : Fld := ⟨PWR_PATH, 0, 0⟩
abbrev GOV_CHG : Nat := 0x42002100
abbrev GOV_CHG_EN : Fld := ⟨GOV_CHG, 31, 31⟩
abbrev GOV_CHG_ICHG : Fld := ⟨GOV_CHG, 4, 0⟩
abbrev GOV_REC (w : Nat) : Nat := 0x42002104 + 0x4 * w
abbrev GOV_REC_WORD (w : Nat) : Fld := ⟨(GOV_REC w), 31, 0⟩
abbrev GOV_VCEIL : Nat := 0x42002110
abbrev GOV_VCEIL_VCEIL : Fld := ⟨GOV_VCEIL, 12, 0⟩
abbrev GOV_CMD : Nat := 0x42002800
abbrev GOV_CMD_RESUME : Fld := ⟨GOV_CMD, 1, 1⟩
abbrev GOV_CMD_DISCHARGE : Fld := ⟨GOV_CMD, 0, 0⟩
abbrev GOV_STAT : Nat := 0x42002804
abbrev GOV_STAT_RLYBUSY : Fld := ⟨GOV_STAT, 12, 12⟩
abbrev GOV_STAT_DISCH : Fld := ⟨GOV_STAT, 11, 11⟩
abbrev GOV_STAT_VINOK : Fld := ⟨GOV_STAT, 10, 10⟩
abbrev GOV_STAT_DOOR : Fld := ⟨GOV_STAT, 9, 9⟩
abbrev GOV_STAT_STATE : Fld := ⟨GOV_STAT, 2, 0⟩
abbrev GOV_LEVEL : Nat := 0x42002808
abbrev GOV_LEVEL_VSTORE : Fld := ⟨GOV_LEVEL, 15, 0⟩
abbrev SYS_WDOGCFG : Nat := 0x40000100
abbrev SYS_WDOGCFG_LOCK : Fld := ⟨SYS_WDOGCFG, 31, 31⟩
abbrev SYS_WDOGCFG_PERIOD : Fld := ⟨SYS_WDOGCFG, 11, 0⟩
abbrev SYS_RSTCAUSE : Nat := 0x40000800
abbrev SYS_RSTCAUSE_DEADRSN : Fld := ⟨SYS_RSTCAUSE, 19, 16⟩
abbrev SYS_RSTCAUSE_SOFTSRC : Fld := ⟨SYS_RSTCAUSE, 13, 12⟩
abbrev SYS_RSTCAUSE_LAST : Fld := ⟨SYS_RSTCAUSE, 10, 8⟩
abbrev SYS_RSTCAUSE_DEAD : Fld := ⟨SYS_RSTCAUSE, 7, 7⟩
abbrev SYS_RSTCAUSE_LOCKUP : Fld := ⟨SYS_RSTCAUSE, 6, 6⟩
abbrev SYS_RSTCAUSE_ABORT : Fld := ⟨SYS_RSTCAUSE, 5, 5⟩
abbrev SYS_RSTCAUSE_WAKE : Fld := ⟨SYS_RSTCAUSE, 4, 4⟩
abbrev SYS_RSTCAUSE_SOFT : Fld := ⟨SYS_RSTCAUSE, 3, 3⟩
abbrev SYS_RSTCAUSE_WDOG : Fld := ⟨SYS_RSTCAUSE, 2, 2⟩
abbrev SYS_RSTCAUSE_PIN : Fld := ⟨SYS_RSTCAUSE, 1, 1⟩
abbrev SYS_RSTCAUSE_POR : Fld := ⟨SYS_RSTCAUSE, 0, 0⟩
abbrev SYS_WDOGSTAT : Nat := 0x4000080C
abbrev SYS_WDOGSTAT_ALIVE : Fld := ⟨SYS_WDOGSTAT, 31, 31⟩
abbrev SYS_WDOGSTAT_RUN : Fld := ⟨SYS_WDOGSTAT, 30, 30⟩
abbrev SYS_WDOGSTAT_REMAIN : Fld := ⟨SYS_WDOGSTAT, 11, 0⟩
abbrev SYS_BOOTINFO : Nat := 0x40000810
abbrev SYS_BOOTINFO_STAT_B : Fld := ⟨SYS_BOOTINFO, 31, 24⟩
abbrev SYS_BOOTINFO_STAT_A : Fld := ⟨SYS_BOOTINFO, 23, 16⟩
abbrev SYS_BOOTINFO_IGNORED : Fld := ⟨SYS_BOOTINFO, 15, 4⟩
abbrev SYS_BOOTINFO_FAILS : Fld := ⟨SYS_BOOTINFO, 3, 2⟩
abbrev SYS_BOOTINFO_TOKEN : Fld := ⟨SYS_BOOTINFO, 1, 1⟩
abbrev SYS_BOOTINFO_SLOT : Fld := ⟨SYS_BOOTINFO, 0, 0⟩
abbrev SYS_CREWSEQ : Nat := 0x40000814
abbrev SYS_CREWSEQ_SEQ : Fld := ⟨SYS_CREWSEQ, 31, 0⟩
abbrev SYS_LIFECYCLE : Nat := 0x40000818
abbrev SYS_LIFECYCLE_ARB : Fld := ⟨SYS_LIFECYCLE, 21, 16⟩
abbrev SYS_LIFECYCLE_HWREV : Fld := ⟨SYS_LIFECYCLE, 15, 8⟩
abbrev SYS_LIFECYCLE_STRAPS : Fld := ⟨SYS_LIFECYCLE, 5, 4⟩
abbrev SYS_LIFECYCLE_LC : Fld := ⟨SYS_LIFECYCLE, 1, 0⟩
abbrev SYS_BOWCTL : Nat := 0x40000820
abbrev SYS_BOWCTL_ADDR : Fld := ⟨SYS_BOWCTL, 13, 3⟩
abbrev SYS_BOWCTL_GOOD : Fld := ⟨SYS_BOWCTL, 2, 2⟩
abbrev SYS_BOWCTL_DONE : Fld := ⟨SYS_BOWCTL, 1, 1⟩
abbrev SYS_BOWCTL_LOAD : Fld := ⟨SYS_BOWCTL, 0, 0⟩
abbrev HOSTP_CFG : Nat := 0x40005100
abbrev HOSTP_CFG_SPIEN : Fld := ⟨HOSTP_CFG, 31, 31⟩
abbrev HOSTP_CFG_UARTEN : Fld := ⟨HOSTP_CFG, 30, 30⟩
abbrev HOSTP_CFG_MESHEN : Fld := ⟨HOSTP_CFG, 29, 29⟩
abbrev HOSTP_CFG_NOTE : Fld := ⟨HOSTP_CFG, 25, 24⟩
abbrev HOSTP_CFG_APPTMO : Fld := ⟨HOSTP_CFG, 15, 0⟩
abbrev HOSTP_UART : Nat := 0x40005104
abbrev HOSTP_UART_BAUD : Fld := ⟨HOSTP_UART, 21, 0⟩
abbrev HOSTP_APPCTL : Nat := 0x40005800
abbrev HOSTP_APPCTL_EN : Fld := ⟨HOSTP_APPCTL, 0, 0⟩
abbrev HOSTP_APPIN : Nat := 0x40005804
abbrev HOSTP_APPIN_VALID : Fld := ⟨HOSTP_APPIN, 31, 31⟩
abbrev HOSTP_APPIN_NCM1 : Fld := ⟨HOSTP_APPIN, 30, 27⟩
abbrev HOSTP_APPIN_CELL : Fld := ⟨HOSTP_APPIN, 26, 18⟩
abbrev HOSTP_APPIN_LENGTH : Fld := ⟨HOSTP_APPIN, 12, 0⟩
abbrev HOSTP_APPOUT : Nat := 0x40005808
abbrev HOSTP_APPOUT_SEND : Fld := ⟨HOSTP_APPOUT, 31, 31⟩
abbrev HOSTP_APPOUT_NCM1 : Fld := ⟨HOSTP_APPOUT, 30, 27⟩
abbrev HOSTP_APPOUT_CELL : Fld := ⟨HOSTP_APPOUT, 26, 18⟩
abbrev HOSTP_APPOUT_LENGTH : Fld := ⟨HOSTP_APPOUT, 12, 0⟩
abbrev HOSTP_STAT : Nat := 0x4000580C
abbrev HOSTP_STAT_ENGINE : Fld := ⟨HOSTP_STAT, 18, 16⟩
abbrev HOSTP_STAT_BUSY : Fld := ⟨HOSTP_STAT, 10, 8⟩
abbrev HOSTP_STAT_ABORTING : Fld := ⟨HOSTP_STAT, 0, 0⟩
abbrev SPIH_CFG : Nat := 0x40009100
abbrev SPIH_CFG_DRIVE : Fld := ⟨SPIH_CFG, 8, 8⟩
abbrev SPIH_STAT : Nat := 0x40009808
abbrev SPIH_STAT_ACTIVE : Fld := ⟨SPIH_STAT, 31, 31⟩
abbrev SPIH_STAT_OP : Fld := ⟨SPIH_STAT, 1, 0⟩
abbrev STATS_CFG : Nat := 0x40013100
abbrev STATS_CFG_MODE : Fld := ⟨STATS_CFG, 31, 31⟩
abbrev STATS_CFG_NBCN : Fld := ⟨STATS_CFG, 23, 16⟩
abbrev STATS_CFG_LEN : Fld := ⟨STATS_CFG, 15, 0⟩
abbrev STATS_CMD : Nat := 0x40013800
abbrev STATS_CMD_END : Fld := ⟨STATS_CMD, 0, 0⟩
abbrev STATS_STAT : Nat := 0x40013804
abbrev STATS_STAT_IE : Fld := ⟨STATS_STAT, 16, 16⟩
abbrev STATS_STAT_HEATF : Fld := ⟨STATS_STAT, 0, 0⟩
abbrev STATS_HEAT : Nat := 0x40013808
abbrev STATS_HEAT_HEAT : Fld := ⟨STATS_HEAT, 31, 0⟩
abbrev TALLY_CFG : Nat := 0x40012100
abbrev TALLY_CFG_PERIOD : Fld := ⟨TALLY_CFG, 23, 0⟩
abbrev TALLY_PAGE (i : Nat) : Nat := 0x40012110 + 0x4 * i
abbrev TALLY_PAGE_PAGE (i : Nat) : Fld := ⟨(TALLY_PAGE i), 31, 12⟩
abbrev TALLY_PAGE_VALID (i : Nat) : Fld := ⟨(TALLY_PAGE i), 0, 0⟩
abbrev TALLY_SAMP : Nat := 0x40012158
abbrev TALLY_SAMP_MODE : Fld := ⟨TALLY_SAMP, 31, 30⟩
abbrev TALLY_SAMP_STOPFULL : Fld := ⟨TALLY_SAMP, 29, 29⟩
abbrev TALLY_SAMP_INTLOG : Fld := ⟨TALLY_SAMP, 20, 16⟩
abbrev TALLY_SAMP_THRESH : Fld := ⟨TALLY_SAMP, 7, 0⟩
abbrev TALLY_STAT : Nat := 0x40012800
abbrev TALLY_STAT_BUSY : Fld := ⟨TALLY_STAT, 31, 31⟩
abbrev TALLY_STAT_OVERRUN : Fld := ⟨TALLY_STAT, 23, 16⟩
abbrev TALLY_STAT_WR : Fld := ⟨TALLY_STAT, 7, 0⟩
abbrev TALLY_BUFSTAT : Nat := 0x40012804
abbrev TALLY_BUFSTAT_CLR : Fld := ⟨TALLY_BUFSTAT, 31, 31⟩
abbrev TALLY_BUFSTAT_FULL : Fld := ⟨TALLY_BUFSTAT, 7, 7⟩
abbrev TALLY_BUFSTAT_N : Fld := ⟨TALLY_BUFSTAT, 6, 0⟩
abbrev LOGB_STAT : Nat := 0x42004800
abbrev LOGB_STAT_IE : Fld := ⟨LOGB_STAT, 16, 16⟩
abbrev LOGB_STAT_DROPPED : Fld := ⟨LOGB_STAT, 15, 8⟩
abbrev LOGB_STAT_COUNT : Fld := ⟨LOGB_STAT, 2, 0⟩
abbrev LOGB_POP : Nat := 0x42004804
abbrev LOGB_POP_POP : Fld := ⟨LOGB_POP, 0, 0⟩

/-! The page header (R301–R307), for the page at `p`. -/

abbrev ID (p : Nat) : Nat := p
abbrev CTRL (p : Nat) : Nat := p + 0x004
abbrev HSTAT (p : Nat) : Nat := p + 0x008
abbrev FLT (p : Nat) : Nat := p + 0x00C
abbrev MBX_SEL (p : Nat) : Nat := p + 0x020
abbrev MBX_STAT (p : Nat) : Nat := p + 0x024
abbrev MBX_D (p k : Nat) : Nat := p + 0x030 + 4 * k
abbrev PERF_SEL (p k : Nat) : Nat := p + 0x040 + 4 * k
abbrev PERF_CNT (p k : Nat) : Nat := p + 0x050 + 4 * k
abbrev CTRL_EN (p : Nat) : Fld := ⟨CTRL p, 0, 0⟩
abbrev CTRL_CLKHOLD (p : Nat) : Fld := ⟨CTRL p, 2, 2⟩
abbrev FLT_LASTOFS (p : Nat) : Fld := ⟨FLT p, 27, 16⟩
abbrev MBX_STAT_ITEM (p : Nat) : Fld := ⟨MBX_STAT p, 31, 16⟩

/-- One row of a register map: a register, or an array of them by up to two indices, with the masks of its fields by
access code (R308); `clr0` holds one mask for each counter that writing 0 clears (R517). -/
structure Row where
  off : Nat
  n1 : Nat
  s1 : Nat
  n2 : Nat
  s2 : Nat
  reset : Nat
  rw : Nat
  rwl : Nat
  rwk : Nat
  w1c : Nat
  clr0 : List Nat
  wo : Nat
  ro : Nat
  deriving DecidableEq, Repr

/-- The bits the register has. -/
def Row.mask (r : Row) : Nat :=
  r.rw ||| r.rwl ||| r.rwk ||| r.w1c ||| r.clr0.foldl (· ||| ·) 0 ||| r.wo ||| r.ro

/-- Does a page offset fall on the row? -/
def Row.hit (r : Row) (o : Nat) : Bool :=
  if o < r.off then false
  else
    let d := o - r.off
    if r.s1 = 0 then d == 0
    else if r.s2 = 0 then d % r.s1 == 0 && decide (d / r.s1 < r.n1)
    else decide (d / r.s1 < r.n1) && (d % r.s1 % r.s2 == 0) && decide (d % r.s1 / r.s2 < r.n2)

/-- The header rows every page begins with (R301). -/
def headerRows : List Row :=
  [⟨0x000, 1, 0, 1, 0, 0, 0, 0, 0, 0, [], 0, 0xFFFFF0FF⟩, -- ID
   ⟨0x004, 1, 0, 1, 0, 0, 0, 5, 0, 0, [], 2, 0⟩, -- CTRL (CRST acts and reads 0)
   ⟨0x008, 1, 0, 1, 0, 0, 0, 0, 0, 0, [], 0, 0xC000FFFF⟩, -- HSTAT
   ⟨0x00C, 1, 0, 1, 0, 0, 0, 0, 0, 0x1F, [], 0, 0x0FFF0000⟩, -- FLT
   ⟨0x020, 1, 0, 1, 0, 0, 0, 0xFFFF, 0, 0, [], 0, 0⟩, -- MBX_SEL
   ⟨0x024, 1, 0, 1, 0, 0, 0, 0, 0, 0, [], 0, 0xFFFF0003⟩, -- MBX_STAT
   ⟨0x030, 4, 4, 1, 0, 0, 0, 0, 0, 0, [], 0, 0xFFFFFFFF⟩, -- MBX_D
   ⟨0x040, 4, 4, 1, 0, 0, 0, 0xFF, 0, 0, [], 0, 0⟩, -- PERF_SEL
   ⟨0x050, 4, 4, 1, 0, 0, 0, 0xFFFFFFFF, 0, 0, [], 0, 0⟩] -- PERF_CNT

/-- The rows of the page at 0x40000000: SYS_ALIVE, SYS_SWRST, SYS_BOWDATA, SYS_BOWCRC, SYS_WDOGCFG, SYS_RSTCAUSE, SYS_WDOGSTAT, SYS_BOOTINFO, SYS_CREWSEQ, SYS_LIFECYCLE, SYS_BOWCTL. -/
def sysRows : List Row :=
  [⟨0x804, 1, 0, 1, 0, 0x0, 0x0, 0x0, 0x0, 0x0, [], 0xFFFFFFFF, 0x0⟩,
   ⟨0x808, 1, 0, 1, 0, 0x0, 0x0, 0x0, 0x0, 0x0, [], 0xFFFFFFFF, 0x0⟩,
   ⟨0x824, 1, 0, 1, 0, 0x0, 0x0, 0x0, 0x0, 0x0, [], 0xFFFFFFFF, 0x0⟩,
   ⟨0x828, 1, 0, 1, 0, 0x0, 0x0, 0x0, 0x0, 0x0, [], 0x0, 0xFFFFFFFF⟩,
   ⟨0x100, 1, 0, 1, 0, 0x3C, 0x0, 0x0, 0x80000FFF, 0x0, [], 0x0, 0x0⟩,
   ⟨0x800, 1, 0, 1, 0, 0x1, 0x0, 0x0, 0x0, 0xFF, [], 0x0, 0xF3700⟩,
   ⟨0x80C, 1, 0, 1, 0, 0x0, 0x0, 0x0, 0x0, 0x0, [], 0x0, 0xC0000FFF⟩,
   ⟨0x810, 1, 0, 1, 0, 0x0, 0x0, 0x0, 0x0, 0x0, [], 0x0, 0xFFFFFFFF⟩,
   ⟨0x814, 1, 0, 1, 0, 0x0, 0x0, 0x0, 0x0, 0x0, [], 0x0, 0xFFFFFFFF⟩,
   ⟨0x818, 1, 0, 1, 0, 0x0, 0x0, 0x0, 0x0, 0x0, [], 0x0, 0x3FFF33⟩,
   ⟨0x820, 1, 0, 1, 0, 0x0, 0x0, 0x3FFF, 0x0, 0x0, [], 0x0, 0x0⟩
  ]

/-- The rows of the page at 0x40002000: DMA_SRC, DMA_DST, DMA_CNT, DMA_CFG, DMA_EN, DMA_STAT. -/
def dmaRows : List Row :=
  [⟨0x100, 8, 16, 1, 0, 0x0, 0xFFFFFFFF, 0x0, 0x0, 0x0, [], 0x0, 0x0⟩,
   ⟨0x104, 8, 16, 1, 0, 0x0, 0xFFFFFFFF, 0x0, 0x0, 0x0, [], 0x0, 0x0⟩,
   ⟨0x108, 8, 16, 1, 0, 0x0, 0xFFFF, 0x0, 0x0, 0x0, [], 0x0, 0x0⟩,
   ⟨0x10C, 8, 16, 1, 0, 0x2, 0x3F, 0x0, 0x0, 0x0, [], 0x0, 0x0⟩,
   ⟨0x800, 1, 0, 1, 0, 0x0, 0x0, 0xFF, 0x0, 0x0, [], 0x0, 0x0⟩,
   ⟨0x810, 8, 4, 1, 0, 0x0, 0x0, 0x0, 0x0, 0x0, [], 0x0, 0xFF00FFFF⟩
  ]

/-- The rows of the page at 0x40003000: FLASHC_IMG, FLASHC_IMGFIRST, FLASHC_STAT, FLASHC_ECC. -/
def flashcRows : List Row :=
  [⟨0x100, 1, 0, 1, 0, 0x0, 0x0, 0x0, 0x3F0001, 0x0, [], 0x0, 0x0⟩,
   ⟨0x104, 1, 0, 1, 0, 0x0, 0x0, 0x0, 0x3F, 0x0, [], 0x0, 0x0⟩,
   ⟨0x800, 1, 0, 1, 0, 0x0, 0x0, 0x0, 0x0, 0x0, [], 0x0, 0xFFFFC7FF⟩,
   ⟨0x804, 1, 0, 1, 0, 0x0, 0x0, 0x0, 0x0, 0x0, [0xFFFF0000, 0xFFFF], 0x0, 0x0⟩
  ]

/-- The rows of the page at 0x40004000: XSPI_CS_CFG, XSPI_SEQADDR, XSPI_SEQLEN, XSPI_SEQBUF, XSPI_SEQCMD, XSPI_STAT, XSPI_RESET. -/
def xspiRows : List Row :=
  [⟨0x100, 2, 4, 1, 0, 0x8130002, 0xDFFFF0FF, 0x0, 0x0, 0x0, [], 0x0, 0x0⟩,
   ⟨0x804, 1, 0, 1, 0, 0x0, 0x0, 0xFFFFFFFF, 0x0, 0x0, [], 0x0, 0x0⟩,
   ⟨0x808, 1, 0, 1, 0, 0x0, 0x0, 0x1FF, 0x0, 0x0, [], 0x0, 0x0⟩,
   ⟨0xC00, 64, 4, 1, 0, 0x0, 0x0, 0xFFFFFFFF, 0x0, 0x0, [], 0x0, 0x0⟩,
   ⟨0x800, 1, 0, 1, 0, 0x0, 0x0, 0xFC1F00FF, 0x0, 0x0, [], 0x0, 0x0⟩,
   ⟨0x80C, 1, 0, 1, 0, 0x0, 0x0, 0x0, 0x0, 0x0, [], 0x0, 0x3FF⟩,
   ⟨0x810, 1, 0, 1, 0, 0x0, 0x0, 0x1, 0x0, 0x0, [], 0x0, 0x0⟩
  ]

/-- The rows of the page at 0x40005000: HOSTP_CFG, HOSTP_UART, HOSTP_APPCTL, HOSTP_APPIN, HOSTP_APPOUT, HOSTP_STAT. -/
def hostpRows : List Row :=
  [⟨0x100, 1, 0, 1, 0, 0xE10003E8, 0xE300FFFF, 0x0, 0x0, 0x0, [], 0x0, 0x0⟩,
   ⟨0x104, 1, 0, 1, 0, 0x1C200, 0x3FFFFF, 0x0, 0x0, 0x0, [], 0x0, 0x0⟩,
   ⟨0x800, 1, 0, 1, 0, 0x0, 0x0, 0x1, 0x0, 0x0, [], 0x0, 0x0⟩,
   ⟨0x804, 1, 0, 1, 0, 0x0, 0x0, 0x0, 0x0, 0x0, [], 0x0, 0xFFFC1FFF⟩,
   ⟨0x808, 1, 0, 1, 0, 0x0, 0x0, 0xFFFC1FFF, 0x0, 0x0, [], 0x0, 0x0⟩,
   ⟨0x80C, 1, 0, 1, 0, 0x0, 0x0, 0x0, 0x0, 0x0, [], 0x0, 0x70701⟩
  ]

/-- The rows of the page at 0x40006000: UART_CFG, UART_DATA, UART_STAT. -/
def uartRows : List Row :=
  [⟨0x100, 1, 0, 1, 0, 0x1C200, 0xF03FFFFF, 0x0, 0x0, 0x0, [], 0x0, 0x0⟩,
   ⟨0x800, 1, 0, 1, 0, 0x0, 0x0, 0xFF, 0x0, 0x0, [], 0x0, 0x0⟩,
   ⟨0x804, 1, 0, 1, 0, 0x0, 0x0, 0x0, 0x0, 0x38000000, [], 0x0, 0x1F1F⟩
  ]

/-- The rows of the page at 0x40009000: SPIH_EVT, SPIH_IE, SPIH_CFG, SPIH_STAT. -/
def spihRows : List Row :=
  [⟨0x800, 1, 0, 1, 0, 0x0, 0x0, 0x0, 0x0, 0x1F, [], 0x0, 0x0⟩,
   ⟨0x804, 1, 0, 1, 0, 0x0, 0x0, 0x1F, 0x0, 0x0, [], 0x0, 0x0⟩,
   ⟨0x100, 1, 0, 1, 0, 0x0, 0x0, 0x100, 0x0, 0x0, [], 0x0, 0x0⟩,
   ⟨0x808, 1, 0, 1, 0, 0x0, 0x0, 0x0, 0x0, 0x0, [], 0x0, 0x80000003⟩
  ]

/-- The rows of the page at 0x4000A000: I2C_CFG, I2C_CMD, I2C_STAT, I2C_BUF. -/
def i2cRows : List Row :=
  [⟨0x100, 1, 0, 1, 0, 0x0, 0x3, 0x0, 0x0, 0x0, [], 0x0, 0x0⟩,
   ⟨0x800, 1, 0, 1, 0, 0x0, 0x0, 0xFF003F3F, 0x0, 0x0, [], 0x0, 0x0⟩,
   ⟨0x804, 1, 0, 1, 0, 0x0, 0x0, 0x0, 0x0, 0x0, [], 0x0, 0x800000FF⟩,
   ⟨0xC00, 8, 4, 1, 0, 0x0, 0x0, 0xFFFFFFFF, 0x0, 0x0, [], 0x0, 0x0⟩
  ]

/-- The rows of the page at 0x4000C000: GPIO_PIN, GPIO_OUT, GPIO_SET, GPIO_CLR, GPIO_IN, GPIO_FLAG, GPIO_IE. -/
def gpioRows : List Row :=
  [⟨0x900, 36, 4, 1, 0, 0x0, 0x0, 0x7FFF000, 0x0, 0x0, [], 0x0, 0x0⟩,
   ⟨0x800, 2, 32, 1, 0, 0x0, 0x0, 0xFFFFFFFF, 0x0, 0x0, [], 0x0, 0x0⟩,
   ⟨0x804, 2, 32, 1, 0, 0x0, 0x0, 0x0, 0x0, 0x0, [], 0xFFFFFFFF, 0x0⟩,
   ⟨0x808, 2, 32, 1, 0, 0x0, 0x0, 0x0, 0x0, 0x0, [], 0xFFFFFFFF, 0x0⟩,
   ⟨0x80C, 2, 32, 1, 0, 0x0, 0x0, 0x0, 0x0, 0x0, [], 0x0, 0xFFFFFFFF⟩,
   ⟨0x810, 2, 32, 1, 0, 0x0, 0x0, 0x0, 0x0, 0xFFFFFFFF, [], 0x0, 0x0⟩,
   ⟨0x814, 2, 32, 1, 0, 0x0, 0x0, 0xFFFFFFFF, 0x0, 0x0, [], 0x0, 0x0⟩
  ]

/-- The rows of the page at 0x4000D000: ADC_SEQ, ADC_LIM, ADC_CMD, ADC_TCAL, ADC_STAT, ADC_RES. -/
def adcRows : List Row :=
  [⟨0x100, 1, 0, 1, 0, 0x0, 0xFFFFF, 0x0, 0x0, 0x0, [], 0x0, 0x0⟩,
   ⟨0x104, 1, 0, 1, 0, 0xFFF000, 0xCFFFFFFF, 0x0, 0x0, 0x0, [], 0x0, 0x0⟩,
   ⟨0x800, 1, 0, 1, 0, 0x0, 0x0, 0x0, 0x0, 0x0, [], 0x1, 0x0⟩,
   ⟨0x804, 1, 0, 1, 0, 0x0, 0x0, 0x0, 0x0, 0x0, [], 0x0, 0xFFF0FFF⟩,
   ⟨0x808, 1, 0, 1, 0, 0x0, 0x0, 0x0, 0x0, 0x0, [], 0x0, 0x800000FF⟩,
   ⟨0x810, 16, 4, 1, 0, 0x0, 0x0, 0x0, 0x0, 0x0, [], 0x0, 0xFFF⟩
  ]

/-- The rows of the page at 0x4000E000: STIM_CHCFG, STIM_TOP, STIM_COUNT, STIM_CC, STIM_CFG, STIM_EN, STIM_STAT. -/
def stimRows : List Row :=
  [⟨0x104, 8, 8, 1, 0, 0x0, 0x87878787, 0x0, 0x0, 0x0, [], 0x0, 0x0⟩,
   ⟨0x840, 8, 32, 1, 0, 0xFFFF, 0x0, 0xFFFF, 0x0, 0x0, [], 0x0, 0x0⟩,
   ⟨0x844, 8, 32, 1, 0, 0x0, 0x0, 0x0, 0x0, 0x0, [], 0x0, 0x1FFFF⟩,
   ⟨0x848, 8, 32, 4, 4, 0x0, 0x0, 0xFFFF, 0x0, 0x0, [], 0x0, 0x0⟩,
   ⟨0x100, 8, 8, 1, 0, 0x8000, 0xFF81F1, 0x0, 0x0, 0x0, [], 0x0, 0x0⟩,
   ⟨0x800, 1, 0, 1, 0, 0x0, 0x0, 0xFF, 0x0, 0x0, [], 0x0, 0x0⟩,
   ⟨0x858, 8, 32, 1, 0, 0x0, 0x0, 0x1F0000, 0x0, 0x1F, [], 0x0, 0x100⟩
  ]

/-- The rows of the page at 0x4000F000: LTIM_COUNT, LTIM_BUF, LTIM_CMP, LTIM_CFG, LTIM_EN, LTIM_STAT. -/
def ltimRows : List Row :=
  [⟨0x810, 2, 16, 1, 0, 0x0, 0x0, 0x0, 0x0, 0x0, [], 0x0, 0xFFFFFFFF⟩,
   ⟨0x814, 2, 16, 1, 0, 0xFFFFFFFF, 0x0, 0xFFFFFFFF, 0x0, 0x0, [], 0x0, 0x0⟩,
   ⟨0x818, 2, 16, 1, 0, 0x0, 0x0, 0xFFFFFFFF, 0x0, 0x0, [], 0x0, 0x0⟩,
   ⟨0x100, 2, 4, 1, 0, 0x0, 0x13F, 0x0, 0x0, 0x0, [], 0x0, 0x0⟩,
   ⟨0x800, 1, 0, 1, 0, 0x0, 0x0, 0x3, 0x0, 0x0, [], 0x0, 0x0⟩,
   ⟨0x81C, 2, 16, 1, 0, 0x0, 0x0, 0x30000, 0x0, 0x3, [], 0x0, 0x0⟩
  ]

/-- The rows of the page at 0x40010000: DALI_CFG, DALI_FWD, DALI_STAT. -/
def daliRows : List Row :=
  [⟨0x100, 1, 0, 1, 0, 0x305, 0xC0000707, 0x0, 0x0, 0x0, [], 0x0, 0x0⟩,
   ⟨0x800, 1, 0, 1, 0, 0x0, 0x0, 0xF0FFFFFF, 0x0, 0x0, [], 0x0, 0x0⟩,
   ⟨0x804, 1, 0, 1, 0, 0x0, 0x0, 0x0, 0x0, 0x0, [], 0x0, 0xCCFF00FF⟩
  ]

/-- The rows of the page at 0x40011000: LUM_RLY, LUM_DIM, LUM_METER, LUM_MCNT, LUM_STAT. -/
def lumRows : List Row :=
  [⟨0x800, 1, 0, 1, 0, 0xA, 0x0, 0xC00000FF, 0x0, 0x0, [], 0x0, 0x0⟩,
   ⟨0x804, 1, 0, 1, 0, 0x0, 0x0, 0x8000031F, 0x0, 0x0, [], 0x0, 0x0⟩,
   ⟨0x808, 1, 0, 1, 0, 0x8, 0x0, 0xC00700FF, 0x0, 0x0, [], 0x0, 0x0⟩,
   ⟨0x80C, 1, 0, 1, 0, 0x0, 0x0, 0xFFFFFFFF, 0x0, 0x0, [], 0x0, 0x0⟩,
   ⟨0x810, 1, 0, 1, 0, 0x0, 0x0, 0x0, 0x0, 0x0, [], 0x0, 0x800000FF⟩
  ]

/-- The rows of the page at 0x40012000: TALLY_BASE, TALLY_DEPTH, TALLY_BUF, TALLY_CFG, TALLY_PAGE, TALLY_SAMP, TALLY_STAT, TALLY_BUFSTAT. -/
def tallyRows : List Row :=
  [⟨0x150, 1, 0, 1, 0, 0x0, 0xFFFFFFF0, 0x0, 0x0, 0x0, [], 0x0, 0x0⟩,
   ⟨0x154, 1, 0, 1, 0, 0x0, 0xFF, 0x0, 0x0, 0x0, [], 0x0, 0x0⟩,
   ⟨0xC00, 64, 16, 4, 4, 0x0, 0x0, 0x0, 0x0, 0x0, [], 0x0, 0xFFFFFFFF⟩,
   ⟨0x100, 1, 0, 1, 0, 0x0, 0xFFFFFF, 0x0, 0x0, 0x0, [], 0x0, 0x0⟩,
   ⟨0x110, 16, 4, 1, 0, 0x0, 0xFFFFF001, 0x0, 0x0, 0x0, [], 0x0, 0x0⟩,
   ⟨0x158, 1, 0, 1, 0, 0xA0010, 0x0, 0xE01F00FF, 0x0, 0x0, [], 0x0, 0x0⟩,
   ⟨0x800, 1, 0, 1, 0, 0x0, 0x0, 0x0, 0x0, 0x0, [0xFF0000], 0x0, 0x800000FF⟩,
   ⟨0x804, 1, 0, 1, 0, 0x0, 0x0, 0x0, 0x0, 0x0, [], 0x80000000, 0xFF⟩
  ]

/-- The rows of the page at 0x40013000: STATS_CFG, STATS_CMD, STATS_STAT, STATS_HEAT. -/
def statsRows : List Row :=
  [⟨0x100, 1, 0, 1, 0, 0x10E10, 0x80FFFFFF, 0x0, 0x0, 0x0, [], 0x0, 0x0⟩,
   ⟨0x800, 1, 0, 1, 0, 0x0, 0x0, 0x0, 0x0, 0x0, [], 0x1, 0x0⟩,
   ⟨0x804, 1, 0, 1, 0, 0x0, 0x0, 0x10000, 0x0, 0x1, [], 0x0, 0x0⟩,
   ⟨0x808, 1, 0, 1, 0, 0x0, 0x0, 0x0, 0x0, 0x0, [], 0x0, 0xFFFFFFFF⟩
  ]

/-- The rows of the page at 0x40014000: OTPC_ADDR, OTPC_CMD, OTPC_STAT, OTPC_WD, OTPC_RD. -/
def otpcRows : List Row :=
  [⟨0x800, 1, 0, 1, 0, 0x0, 0x0, 0x307FF, 0x0, 0x0, [], 0x0, 0x0⟩,
   ⟨0x804, 1, 0, 1, 0, 0x0, 0x0, 0x0, 0x0, 0x0, [], 0x7, 0x0⟩,
   ⟨0x808, 1, 0, 1, 0, 0x0, 0x0, 0x20000, 0x0, 0x10000, [], 0x0, 0x800003FF⟩,
   ⟨0x810, 4, 4, 1, 0, 0x0, 0x0, 0xFFFFFFFF, 0x0, 0x0, [], 0x0, 0x0⟩,
   ⟨0x820, 4, 4, 1, 0, 0x0, 0x0, 0x0, 0x0, 0x0, [], 0x0, 0xFFFFFFFF⟩
  ]

/-- The rows of the page at 0x41000000: LINK_RXRING, LINK_TXRING, LINK_UCDATA, LINK_UCCRC, LINK_CFG, LINK_ACKCFG, LINK_MODE, LINK_STAT, LINK_RXIDX, LINK_TXIDX, LINK_UCCTL. -/
def linkRows : List Row :=
  [⟨0x108, 1, 0, 1, 0, 0x6, 0xFFFFFFFF, 0x0, 0x0, 0x0, [], 0x0, 0x0⟩,
   ⟨0x10C, 1, 0, 1, 0, 0x6, 0xFFFFFFFF, 0x0, 0x0, 0x0, [], 0x0, 0x0⟩,
   ⟨0x814, 1, 0, 1, 0, 0x0, 0x0, 0x0, 0x0, 0x0, [], 0xFFFFFFFF, 0x0⟩,
   ⟨0x818, 1, 0, 1, 0, 0x0, 0x0, 0x0, 0x0, 0x0, [], 0x0, 0xFFFFFFFF⟩,
   ⟨0x100, 1, 0, 1, 0, 0x3E80814, 0x87FFFFFF, 0x0, 0x0, 0x0, [], 0x0, 0x0⟩,
   ⟨0x104, 1, 0, 1, 0, 0x33, 0x3F, 0x0, 0x0, 0x0, [], 0x0, 0x0⟩,
   ⟨0x800, 1, 0, 1, 0, 0x0, 0x0, 0x3, 0x0, 0x0, [], 0x0, 0x0⟩,
   ⟨0x804, 1, 0, 1, 0, 0x0, 0x0, 0x0, 0x0, 0x200, [], 0x0, 0x1F0103⟩,
   ⟨0x808, 1, 0, 1, 0, 0x0, 0x0, 0x3FF, 0x0, 0x0, [], 0x0, 0x3FF0000⟩,
   ⟨0x80C, 1, 0, 1, 0, 0x0, 0x0, 0x3FF, 0x0, 0x0, [], 0x0, 0x3FF0000⟩,
   ⟨0x810, 1, 0, 1, 0, 0x0, 0x0, 0xFFFF, 0x0, 0x0, [], 0x0, 0x0⟩
  ]

/-- The rows of the page at 0x41001000: FBUF_FREE, FBUF_REVOKE, FBUF_USE0, FBUF_USE1, FBUF_NEXT, FBUF_SHMAX, FBUF_ALLOC. -/
def fbufRows : List Row :=
  [⟨0x804, 1, 0, 1, 0, 0x0, 0x0, 0x0, 0x0, 0x0, [], 0x1FF, 0x0⟩,
   ⟨0x808, 1, 0, 1, 0, 0x0, 0x0, 0x0, 0x0, 0x0, [], 0x1FF, 0x0⟩,
   ⟨0x80C, 1, 0, 1, 0, 0x0, 0x0, 0x0, 0x0, 0x0, [], 0x0, 0x1FF01FF⟩,
   ⟨0x810, 1, 0, 1, 0, 0x0, 0x0, 0x0, 0x0, 0x0, [], 0x0, 0x1FF01FF⟩,
   ⟨0xC00, 256, 4, 1, 0, 0x0, 0x0, 0x0, 0x0, 0x0, [], 0x0, 0xFFFFFFFF⟩,
   ⟨0x100, 1, 0, 1, 0, 0x2040C0, 0xFFFFFF, 0x0, 0x0, 0x0, [], 0x0, 0x0⟩,
   ⟨0x800, 1, 0, 1, 0, 0x0, 0x0, 0xE00, 0x0, 0x0, [], 0x0, 0xFF0001FF⟩
  ]

/-- The rows of the page at 0x41002000: FILT_EXTLO, FILT_EXTHI, FILT_ADDR, FILT_CFG, FILT_GROUP. -/
def filtRows : List Row :=
  [⟨0x104, 1, 0, 1, 0, 0x0, 0xFFFFFFFF, 0x0, 0x0, 0x0, [], 0x0, 0x0⟩,
   ⟨0x108, 1, 0, 1, 0, 0x0, 0xFFFFFFFF, 0x0, 0x0, 0x0, [], 0x0, 0x0⟩,
   ⟨0x100, 1, 0, 1, 0, 0xFFFFFFFF, 0xFFFFFFFF, 0x0, 0x0, 0x0, [], 0x0, 0x0⟩,
   ⟨0x10C, 1, 0, 1, 0, 0x0, 0x7, 0x0, 0x0, 0x0, [], 0x0, 0x0⟩,
   ⟨0x200, 64, 4, 1, 0, 0x0, 0x0, 0x8000FFFF, 0x0, 0x0, [], 0x0, 0x0⟩
  ]

/-- The rows of the page at 0x41003000: PEER_WD, PEER_WCMD. -/
def peerRows : List Row :=
  [⟨0x800, 8, 4, 1, 0, 0x0, 0x0, 0xFFFFFFFF, 0x0, 0x0, [], 0x0, 0x0⟩,
   ⟨0x820, 1, 0, 1, 0, 0x0, 0x0, 0x0, 0x0, 0x0, [], 0xFF000FFF, 0x0⟩
  ]

/-- The rows of the page at 0x41004000: FLOOD_CFG, FLOOD_TRELAY, FLOOD_WIN, FLOOD_RPRE, FLOOD_SEEN, FLOOD_HTR, FLOOD_SEQ, FLOOD_BCN, FLOOD_BTMPL. -/
def floodRows : List Row :=
  [⟨0x100, 1, 0, 1, 0, 0x330301, 0x3F030F, 0x0, 0x0, 0x0, [], 0x0, 0x0⟩,
   ⟨0x104, 1, 0, 1, 0, 0x9C40, 0x3FFFF, 0x0, 0x0, 0x0, [], 0x0, 0x0⟩,
   ⟨0x108, 1, 0, 1, 0, 0x1E8480, 0x7FFFFF, 0x0, 0x0, 0x0, [], 0x0, 0x0⟩,
   ⟨0x10C, 1, 0, 1, 0, 0x8, 0xFFFF, 0x0, 0x0, 0x0, [], 0x0, 0x0⟩,
   ⟨0x110, 1, 0, 1, 0, 0x258, 0xFFFF, 0x0, 0x0, 0x0, [], 0x0, 0x0⟩,
   ⟨0x800, 1, 0, 1, 0, 0xFFFF, 0x0, 0xFFFF, 0x0, 0x0, [], 0x0, 0x0⟩,
   ⟨0x804, 1, 0, 1, 0, 0x0, 0x0, 0xFFFF, 0x0, 0x0, [], 0x0, 0x0⟩,
   ⟨0x808, 1, 0, 1, 0, 0x403C0000, 0x0, 0xCFFF0003, 0x0, 0x0, [], 0x0, 0x0⟩,
   ⟨0x80C, 1, 0, 1, 0, 0x0, 0x0, 0x7FFFFF, 0x0, 0x0, [], 0x0, 0x0⟩
  ]

/-- The rows of the page at 0x41005000: NTIME_SETLO, NTIME_SETHI, NTIME_CMPLO, NTIME_CMPHI, NTIME_CFG, NTIME_PROP, NTIME_CMD, NTIME_STAT, NTIME_TRIM, NTIME_LFCAL, NTIME_DELTA. -/
def ntimeRows : List Row :=
  [⟨0x800, 1, 0, 1, 0, 0x0, 0x0, 0xFFFFFFFF, 0x0, 0x0, [], 0x0, 0x0⟩,
   ⟨0x804, 1, 0, 1, 0, 0x0, 0x0, 0xFFFF, 0x0, 0x0, [], 0x0, 0x0⟩,
   ⟨0x81C, 1, 0, 1, 0, 0x0, 0x0, 0xFFFFFFFF, 0x0, 0x0, [], 0x0, 0x0⟩,
   ⟨0x820, 1, 0, 1, 0, 0x0, 0x0, 0xFFFF, 0x0, 0x0, [], 0x0, 0x0⟩,
   ⟨0x100, 1, 0, 1, 0, 0x42010064, 0xCF01FFFF, 0x0, 0x0, 0x0, [], 0x0, 0x0⟩,
   ⟨0x104, 1, 0, 1, 0, 0x0, 0x7FF, 0x0, 0x0, 0x0, [], 0x0, 0x0⟩,
   ⟨0x808, 1, 0, 1, 0, 0x0, 0x0, 0x0, 0x0, 0x0, [], 0x7, 0x0⟩,
   ⟨0x80C, 1, 0, 1, 0, 0x0, 0x0, 0x0, 0x0, 0x0, [], 0x0, 0xFFFF0007⟩,
   ⟨0x810, 1, 0, 1, 0, 0x0, 0x0, 0xFFFFF, 0x0, 0x0, [], 0x0, 0x0⟩,
   ⟨0x814, 1, 0, 1, 0, 0x4C4B400, 0x0, 0x0, 0x0, 0x0, [], 0x0, 0xFFFFFFFF⟩,
   ⟨0x818, 1, 0, 1, 0, 0x0, 0x0, 0x0, 0x0, 0x0, [], 0x0, 0xFFFFFFFF⟩
  ]

/-- The rows of the page at 0x41008000: LANES_CFG, LANES_MODE, LANES_OFS, LANES_SFD, LANES_DET, LANES_LEN, LANES_ENABLE, LANES_STAT, LANES_CFGERR, LANES_CNTCLR, LANES_ED, LANES_LAST. -/
def lanesRows : List Row :=
  [⟨0x100, 1, 0, 1, 0, 0x3, 0x7, 0x0, 0x0, 0x0, [], 0x0, 0x0⟩,
   ⟨0x120, 4, 32, 1, 0, 0x6400, 0x80007FFE, 0x0, 0x0, 0x0, [], 0x0, 0x0⟩,
   ⟨0x124, 4, 32, 1, 0, 0x0, 0xFFF, 0x0, 0x0, 0x0, [], 0x0, 0x0⟩,
   ⟨0x128, 4, 32, 1, 0, 0x6F4E904E, 0xFFFFFFFF, 0x0, 0x0, 0x0, [], 0x0, 0x0⟩,
   ⟨0x12C, 4, 32, 1, 0, 0x800A0102, 0xFF0F030F, 0x0, 0x0, 0x0, [], 0x0, 0x0⟩,
   ⟨0x130, 4, 32, 1, 0, 0xFFFF07FF, 0xFFFF07FF, 0x0, 0x0, 0x0, [], 0x0, 0x0⟩,
   ⟨0x800, 1, 0, 1, 0, 0x0, 0x0, 0xF, 0x0, 0x0, [], 0x0, 0x0⟩,
   ⟨0x804, 1, 0, 1, 0, 0x70000, 0x0, 0x0, 0x0, 0x0, [], 0x0, 0x1FFFFF⟩,
   ⟨0x808, 1, 0, 1, 0, 0x0, 0x0, 0x0, 0x0, 0x0, [], 0x0, 0xFFFFFFFF⟩,
   ⟨0x80C, 1, 0, 1, 0, 0x0, 0x0, 0x0, 0x0, 0x0, [], 0xF, 0x0⟩,
   ⟨0x810, 4, 4, 1, 0, 0x80000000, 0x0, 0x0, 0x0, 0x0, [], 0x0, 0x8000FFFF⟩,
   ⟨0x820, 4, 4, 1, 0, 0x0, 0x0, 0x0, 0x0, 0x0, [], 0x0, 0xFFF0FFFF⟩
  ]

/-- The further rows of cipher page P0. -/
def ciph0Rows : List Row :=
  [⟨0x180, 1, 0, 1, 0, 0x0, 0x0, 0x0, 0x0, 0x0, [], 0x0, 0xFFFFFFFF⟩,
   ⟨0x184, 1, 0, 1, 0, 0x0, 0x0, 0x0, 0x0, 0x0, [], 0x0, 0xFFFFFFFF⟩,
   ⟨0x188, 1, 0, 1, 0, 0x0, 0x0, 0x0, 0x0, 0x0, [], 0x0, 0xF⟩,
   ⟨0x200, 8, 16, 1, 0, 0x0, 0x0, 0x83FF003F, 0x0, 0x0, [], 0x0, 0x0⟩,
   ⟨0x204, 8, 16, 1, 0, 0x0, 0x0, 0xFFFFFFFF, 0x0, 0x0, [], 0x0, 0x0⟩,
   ⟨0x208, 8, 16, 1, 0, 0x0, 0x0, 0xFFFFFFFF, 0x0, 0x0, [], 0x0, 0x0⟩
  ]

/-- The rows of the page at 0x41010000: CIPH_OWNER, CIPH_OP, CIPH_SRC, CIPH_DST, CIPH_ALEN, CIPH_MLEN, CIPH_RESULT, CIPH_NONCE, CIPH_NONCE3, CIPH_TAG. -/
def ciphRows : List Row :=
  [⟨0x100, 1, 0, 1, 0, 0x0, 0x10F, 0x0, 0x0, 0x0, [], 0x0, 0x0⟩,
   ⟨0x800, 1, 0, 1, 0, 0x0, 0x0, 0x8C303F07, 0x0, 0x0, [], 0x0, 0x0⟩,
   ⟨0x804, 1, 0, 1, 0, 0x0, 0x0, 0xFFFFFFFF, 0x0, 0x0, [], 0x0, 0x0⟩,
   ⟨0x808, 1, 0, 1, 0, 0x0, 0x0, 0xFFFFFFFF, 0x0, 0x0, [], 0x0, 0x0⟩,
   ⟨0x80C, 1, 0, 1, 0, 0x0, 0x0, 0x7FF, 0x0, 0x0, [], 0x0, 0x0⟩,
   ⟨0x810, 1, 0, 1, 0, 0x0, 0x0, 0xFFFFFFFF, 0x0, 0x0, [], 0x0, 0x0⟩,
   ⟨0x814, 1, 0, 1, 0, 0x0, 0x0, 0x0, 0x0, 0x0, [], 0x0, 0xFFFFFFFF⟩,
   ⟨0x820, 3, 4, 1, 0, 0x0, 0x0, 0xFFFFFFFF, 0x0, 0x0, [], 0x0, 0x0⟩,
   ⟨0x82C, 1, 0, 1, 0, 0x0, 0x0, 0xFF, 0x0, 0x0, [], 0x0, 0x0⟩,
   ⟨0x830, 4, 4, 1, 0, 0x0, 0x0, 0xFFFFFFFF, 0x0, 0x0, [], 0x0, 0x0⟩
  ]

/-- The rows of the page at 0x42000000: PWR_PADREL, PWR_RGNRST, PWR_SLEEPCFG, PWR_WAKEEN, PWR_GPWAKE, PWR_STAT, PWR_WAKESRC, PWR_CLKREQ, PWR_CLKSEL, PWR_CLKSTAT, PWR_PATH. -/
def pwrRows : List Row :=
  [⟨0x808, 1, 0, 1, 0, 0x0, 0x0, 0x0, 0x0, 0x0, [], 0x1, 0x0⟩,
   ⟨0x80C, 1, 0, 1, 0, 0x0, 0x0, 0x0, 0x0, 0x0, [], 0x3, 0x0⟩,
   ⟨0x100, 1, 0, 1, 0, 0xFF00, 0x0, 0xFF01, 0x0, 0x0, [], 0x0, 0x0⟩,
   ⟨0x104, 1, 0, 1, 0, 0x3403, 0x0, 0x3FFF, 0x0, 0x0, [], 0x0, 0x0⟩,
   ⟨0x108, 1, 0, 1, 0, 0x0, 0x0, 0xFFFF, 0x0, 0x0, [], 0x0, 0x0⟩,
   ⟨0x800, 1, 0, 1, 0, 0x0, 0x0, 0x0, 0x0, 0x40000000, [], 0x0, 0xB000FF03⟩,
   ⟨0x804, 1, 0, 1, 0, 0x0, 0x0, 0x0, 0x0, 0x3FFF, [], 0x0, 0x0⟩,
   ⟨0x810, 1, 0, 1, 0, 0x0, 0x0, 0x3, 0x0, 0x0, [], 0x0, 0x0⟩,
   ⟨0x814, 1, 0, 1, 0, 0x4, 0x0, 0x13F, 0x0, 0x0, [], 0x0, 0x0⟩,
   ⟨0x818, 1, 0, 1, 0, 0x0, 0x0, 0x0, 0x0, 0x60, [], 0x0, 0x1D⟩,
   ⟨0x81C, 1, 0, 1, 0, 0x0, 0x0, 0x0, 0x0, 0x0, [], 0x0, 0x7⟩
  ]

/-- The rows of the page at 0x42001000: RIGGER_EN, RIGGER_LOCK, RIGGER_STORM, RIGGER_FIRE, RIGGER_TASK, RIGGER_SRC, RIGGER_CNTCLR. -/
def riggerRows : List Row :=
  [⟨0x800, 2, 4, 1, 0, 0x0, 0x0, 0xFFFFFFFF, 0x0, 0x0, [], 0x0, 0x0⟩,
   ⟨0x808, 2, 4, 1, 0, 0x0, 0x0, 0xFFFFFFFF, 0x0, 0x0, [], 0x0, 0x0⟩,
   ⟨0x810, 2, 4, 1, 0, 0x0, 0x0, 0x0, 0x0, 0xFFFFFFFF, [], 0x0, 0x0⟩,
   ⟨0x818, 2, 4, 1, 0, 0x0, 0x0, 0x0, 0x0, 0x0, [], 0xFFFFFFFF, 0x0⟩,
   ⟨0x104, 64, 8, 1, 0, 0x0, 0x0, 0x0, 0xFFFFFFFF, 0x0, [], 0x0, 0x0⟩,
   ⟨0x100, 64, 8, 1, 0, 0x1000, 0x0, 0x0, 0xFFFF, 0x0, [], 0x0, 0x0⟩,
   ⟨0x820, 1, 0, 1, 0, 0x0, 0x0, 0x0, 0x0, 0x0, [], 0x8000003F, 0x0⟩
  ]

/-- The rows of the page at 0x42002000: GOV_CHG, GOV_REC, GOV_VCEIL, GOV_CMD, GOV_STAT, GOV_LEVEL. -/
def govRows : List Row :=
  [⟨0x100, 1, 0, 1, 0, 0xA, 0x0, 0x8000001F, 0x0, 0x0, [], 0x0, 0x0⟩,
   ⟨0x104, 3, 4, 1, 0, 0x0, 0x0, 0x0, 0x0, 0x0, [], 0x0, 0xFFFFFFFF⟩,
   ⟨0x110, 1, 0, 1, 0, 0x0, 0x0, 0x0, 0x0, 0x0, [], 0x0, 0x1FFF⟩,
   ⟨0x800, 1, 0, 1, 0, 0x0, 0x0, 0x0, 0x0, 0x0, [], 0x3, 0x0⟩,
   ⟨0x804, 1, 0, 1, 0, 0x0, 0x0, 0x0, 0x0, 0x0, [], 0x0, 0x1E07⟩,
   ⟨0x808, 1, 0, 1, 0, 0x0, 0x0, 0x0, 0x0, 0x0, [], 0x0, 0xFFFF⟩
  ]

/-- The rows of the page at 0x42003000: SAMP_CFG, SAMP_RDV, SAMP_BCFG, SAMP_STAT, SAMP_CMD. -/
def sampRows : List Row :=
  [⟨0x100, 1, 0, 1, 0, 0x11A603E8, 0xFFFFFFFF, 0x0, 0x0, 0x0, [], 0x0, 0x0⟩,
   ⟨0x104, 1, 0, 1, 0, 0x20A28, 0x800F3FFF, 0x0, 0x0, 0x0, [], 0x0, 0x0⟩,
   ⟨0x108, 1, 0, 1, 0, 0x40000001, 0xC000FFFF, 0x0, 0x0, 0x0, [], 0x0, 0x0⟩,
   ⟨0x800, 1, 0, 1, 0, 0x0, 0x0, 0x0, 0x0, 0x0, [], 0x0, 0x30707⟩,
   ⟨0x804, 1, 0, 1, 0, 0x0, 0x0, 0x0, 0x0, 0x0, [], 0x3, 0x0⟩
  ]

/-- The rows of the page at 0x42004000: LOGB_STAT, LOGB_POP. -/
def logbRows : List Row :=
  [⟨0x800, 1, 0, 1, 0, 0x10000, 0x0, 0x10000, 0x0, 0x0, [], 0x0, 0xFF07⟩,
   ⟨0x804, 1, 0, 1, 0, 0x0, 0x0, 0x0, 0x0, 0x0, [], 0x1, 0x0⟩
  ]

/-- The rows of the page at 0x42008000: RTC_SECONDS, RTC_SETSEC, RTC_ALARM, RTC_STAT, RTC_TRICKLE, RTC_BKP. -/
def rtcRows : List Row :=
  [⟨0x800, 1, 0, 1, 0, 0x0, 0x0, 0xFFFFFFFF, 0x0, 0x0, [], 0x0, 0x0⟩,
   ⟨0x804, 1, 0, 1, 0, 0x0, 0x0, 0xFFFFFFFF, 0x0, 0x0, [], 0x0, 0x0⟩,
   ⟨0x808, 1, 0, 1, 0, 0x0, 0x0, 0xFFFFFFFF, 0x0, 0x0, [], 0x0, 0x0⟩,
   ⟨0x80C, 1, 0, 1, 0, 0x0, 0x0, 0x30000, 0x0, 0x12, [], 0x0, 0xD⟩,
   ⟨0x810, 1, 0, 1, 0, 0x0, 0x0, 0x0, 0x8000001F, 0x0, [], 0x0, 0x0⟩,
   ⟨0x820, 8, 4, 1, 0, 0x0, 0x0, 0xFFFFFFFF, 0x0, 0x0, [], 0x0, 0x0⟩
  ]

/-- The rows of the page at 0x43000000: RCTL_FEMCFG, RCTL_FEMTIM, RCTL_TXLAT, RCTL_CMD, RCTL_STAT, RCTL_CMDSTAT, RCTL_D2DERR. -/
def rctlRows : List Row :=
  [⟨0x100, 1, 0, 1, 0, 0x0, 0x1FFFFFF, 0x0, 0x0, 0x0, [], 0x0, 0x0⟩,
   ⟨0x104, 1, 0, 1, 0, 0x102, 0xF0F, 0x0, 0x0, 0x0, [], 0x0, 0x0⟩,
   ⟨0x108, 1, 0, 1, 0, 0x0, 0x0, 0x0, 0x0, 0x0, [], 0x0, 0xFFF⟩,
   ⟨0x800, 1, 0, 1, 0, 0x0, 0x0, 0x0, 0x0, 0x0, [], 0x7, 0x0⟩,
   ⟨0x804, 1, 0, 1, 0, 0x0, 0x0, 0x0, 0x0, 0x0, [], 0x0, 0x3F7F⟩,
   ⟨0x808, 1, 0, 1, 0, 0x0, 0x0, 0x0, 0x0, 0x0, [], 0x0, 0xFFFFFFFF⟩,
   ⟨0x80C, 1, 0, 1, 0, 0x0, 0x0, 0x0, 0x0, 0x0, [0xFF0000, 0xFF00, 0xFF], 0x0, 0x80000000⟩
  ]

/-- The rows of the page at 0x43001000: SYNTH_F0, SYNTH_SPACING, SYNTH_CCTL, SYNTH_CHAN, SYNTH_STAT, SYNTH_FREQ, SYNTH_CACHE. -/
def synthRows : List Row :=
  [⟨0x100, 1, 0, 1, 0, 0x0, 0x3FFFFFFF, 0x0, 0x0, 0x0, [], 0x0, 0x0⟩,
   ⟨0x104, 1, 0, 1, 0, 0x0, 0x1FFFFF, 0x0, 0x0, 0x0, [], 0x0, 0x0⟩,
   ⟨0x108, 1, 0, 1, 0, 0x50, 0xF0, 0x1, 0x0, 0x0, [], 0x0, 0x0⟩,
   ⟨0x800, 1, 0, 1, 0, 0x0, 0x0, 0x3FF, 0x0, 0x0, [], 0x0, 0x0⟩,
   ⟨0x804, 1, 0, 1, 0, 0x0, 0x0, 0x0, 0x0, 0x8, [], 0x0, 0xFFFF0007⟩,
   ⟨0x808, 1, 0, 1, 0, 0x0, 0x0, 0x0, 0x0, 0x0, [], 0x0, 0x3FFFFFFF⟩,
   ⟨0x80C, 1, 0, 1, 0, 0x0, 0x0, 0x0, 0x0, 0x0, [0xFFFF0000, 0xFFFF], 0x0, 0x0⟩
  ]

/-- The rows of the page at 0x43002000: RXFE_AGC, RXFE_MGAIN, RXFE_GAIN, RXFE_CLIP, RXFE_CAL. -/
def rxfeRows : List Row :=
  [⟨0x100, 1, 0, 1, 0, 0xC03F4, 0x800F0FFF, 0x0, 0x0, 0x0, [], 0x0, 0x0⟩,
   ⟨0x104, 1, 0, 1, 0, 0xC, 0xF, 0x0, 0x0, 0x0, [], 0x0, 0x0⟩,
   ⟨0x800, 1, 0, 1, 0, 0x800C, 0x0, 0x0, 0x0, 0x0, [], 0x0, 0x8000FF0F⟩,
   ⟨0x804, 1, 0, 1, 0, 0x0, 0x0, 0x0, 0x0, 0x0, [0xFFFF0000, 0xFFFF], 0x0, 0x0⟩,
   ⟨0x808, 1, 0, 1, 0, 0x0, 0x0, 0x0, 0x0, 0x0, [], 0x0, 0xFFFF⟩
  ]

/-- The rows of the page at 0x43004000: TXP_CFG, TXP_PWR, TXP_TEST, TXP_STAT, TXP_REFUSE, TXP_LATE, TXP_PROF. -/
def txpRows : List Row :=
  [⟨0x100, 1, 0, 1, 0, 0xA001, 0xFF01, 0x0, 0x80000030, 0x0, [], 0x0, 0x0⟩,
   ⟨0x200, 64, 4, 1, 0, 0x0, 0xFF, 0x0, 0x0, 0x0, [], 0x0, 0x0⟩,
   ⟨0x800, 1, 0, 1, 0, 0x0, 0x0, 0x3F01, 0x0, 0x0, [], 0x0, 0x0⟩,
   ⟨0x804, 1, 0, 1, 0, 0x0, 0x0, 0x0, 0x0, 0x0, [], 0x0, 0x1FF3FFF⟩,
   ⟨0x808, 1, 0, 1, 0, 0x0, 0x0, 0x0, 0x0, 0x0, [0xFF000000, 0xFF0000, 0xFF00, 0xFF], 0x0, 0x0⟩,
   ⟨0x80C, 1, 0, 1, 0, 0x0, 0x0, 0x0, 0x0, 0x0, [0xFFFF0000, 0xFFFF], 0x0, 0x0⟩,
   ⟨0x810, 4, 16, 4, 4, 0x0, 0x0, 0x0, 0x0, 0x0, [], 0x0, 0xFFFFFFFF⟩
  ]

/-- The rows of the page at 0xE0000000: INTC_EN, INTC_PEND, INTC_SET, INTC_CLR, INTC_MODE, INTC_PRIO, INTC_STAT. -/
def intcRows : List Row :=
  [⟨0x000, 4, 4, 1, 0, 0x0, 0x0, 0xFFFFFFFF, 0x0, 0x0, [], 0x0, 0x0⟩,
   ⟨0x010, 4, 4, 1, 0, 0x0, 0x0, 0x0, 0x0, 0x0, [], 0x0, 0xFFFFFFFF⟩,
   ⟨0x020, 4, 4, 1, 0, 0x0, 0x0, 0x0, 0x0, 0x0, [], 0xFFFFFFFF, 0x0⟩,
   ⟨0x030, 4, 4, 1, 0, 0x0, 0x0, 0x0, 0x0, 0x0, [], 0xFFFFFFFF, 0x0⟩,
   ⟨0x040, 4, 4, 1, 0, 0x0, 0x0, 0xFFFFFFFF, 0x0, 0x0, [], 0x0, 0x0⟩,
   ⟨0x100, 32, 4, 1, 0, 0x7070707, 0x0, 0x7070707, 0x0, 0x0, [], 0x0, 0x0⟩,
   ⟨0x200, 1, 0, 1, 0, 0x8, 0x0, 0x0, 0x0, 0x0, [], 0x0, 0xFF000F⟩
  ]

/-- The rows of the page at 0xE0001000: MPU_CTRL, MPU_RBASE, MPU_RLIM. -/
def mpuRows : List Row :=
  [⟨0x000, 1, 0, 1, 0, 0x0, 0x0, 0x1, 0x0, 0x0, [], 0x0, 0x0⟩,
   ⟨0x100, 16, 8, 1, 0, 0x0, 0x0, 0xFFFFFFE0, 0x0, 0x0, [], 0x0, 0x0⟩,
   ⟨0x104, 16, 8, 1, 0, 0x0, 0x0, 0xFFFFFFFF, 0x0, 0x0, [], 0x0, 0x0⟩
  ]

/-- The rows of the page at 0xE0002000: BP_ADDR, BP_CTL, BP_STEP, BP_STAT, BP_MON. -/
def bpRows : List Row :=
  [⟨0x000, 4, 8, 1, 0, 0x0, 0x0, 0xFFFFFFFF, 0x0, 0x0, [], 0x0, 0x0⟩,
   ⟨0x004, 4, 8, 1, 0, 0x0, 0x0, 0xFF, 0x0, 0x0, [], 0x0, 0x0⟩,
   ⟨0x040, 1, 0, 1, 0, 0x0, 0x0, 0x1, 0x0, 0x0, [], 0x0, 0x0⟩,
   ⟨0x044, 1, 0, 1, 0, 0x0, 0x0, 0x0, 0x0, 0x1F, [0xFFFF0000], 0x0, 0x0⟩,
   ⟨0x048, 1, 0, 1, 0, 0x0, 0x0, 0x1, 0x0, 0x0, [], 0x0, 0x0⟩
  ]

/-- The rows of the page at a base address; none where no page lies there (R269). -/
def pageRows (base : Nat) : Option (List Row) :=
  match base with
  | 0x40000000 => some sysRows
  | 0x40001000 => some []  -- the INTC mirror: its registers are those at 0xE000_0000 (R264)
  | 0x40002000 => some dmaRows
  | 0x40003000 => some flashcRows
  | 0x40004000 => some xspiRows
  | 0x40005000 => some hostpRows
  | 0x40006000 => some uartRows
  | 0x40007000 => some uartRows
  | 0x40008000 => some uartRows
  | 0x40009000 => some spihRows
  | 0x4000A000 => some i2cRows
  | 0x4000B000 => some i2cRows
  | 0x4000C000 => some gpioRows
  | 0x4000D000 => some adcRows
  | 0x4000E000 => some stimRows
  | 0x4000F000 => some ltimRows
  | 0x40010000 => some daliRows
  | 0x40011000 => some lumRows
  | 0x40012000 => some tallyRows
  | 0x40013000 => some statsRows
  | 0x40014000 => some otpcRows
  | 0x41000000 => some linkRows
  | 0x41001000 => some fbufRows
  | 0x41002000 => some filtRows
  | 0x41003000 => some peerRows
  | 0x41004000 => some floodRows
  | 0x41005000 => some ntimeRows
  | 0x41008000 => some lanesRows
  | 0x41010000 => some (ciphRows ++ ciph0Rows)
  | 0x41011000 => some ciphRows
  | 0x41012000 => some ciphRows
  | 0x41013000 => some ciphRows
  | 0x41014000 => some ciphRows
  | 0x41015000 => some ciphRows
  | 0x41016000 => some ciphRows
  | 0x41017000 => some ciphRows
  | 0x42000000 => some pwrRows
  | 0x42001000 => some riggerRows
  | 0x42002000 => some govRows
  | 0x42003000 => some sampRows
  | 0x42004000 => some logbRows
  | 0x42008000 => some rtcRows
  | 0x43000000 => some rctlRows
  | 0x43001000 => some synthRows
  | 0x43002000 => some rxfeRows
  | 0x43004000 => some txpRows
  | 0xE0000000 => some intcRows
  | 0xE0001000 => some mpuRows
  | 0xE0002000 => some bpRows
  | _ => none

/-- The page of an address. -/
abbrev pageOf (a : Nat) : Nat := a / 0x1000 * 0x1000

/-- Is the page one with the header of R301 (the core-private pages have none, R266)? -/
def hasHeader (p : Nat) : Bool := decide (p < 0xE0000000)

/-- The one home of a register: the INTC mirror page shows the registers at 0xE000_0000 (R264). -/
def canon (a : Nat) : Nat :=
  if 0x40001800 ≤ a ∧ a < 0x40002000 then 0xE0000000 + (a - 0x40001800) else a

/-- The row of a word-aligned register address; none where the address names no register. -/
def rowOf (a : Nat) : Option Row :=
  match pageRows (pageOf a) with
  | none => none
  | some rows =>
    let o := a % 0x1000
    if o < 0x100 && hasHeader (pageOf a) then headerRows.find? (·.hit o) else rows.find? (·.hit o)

/-- The bits a register has; none where no register is. -/
def maskOf (a : Nat) : Nat :=
  match rowOf a with
  | some r => r.mask
  | none => 0

/-- The value a register holds at reset (R308's Reset column; log entry 4 for the factory-set ones): the power table
starts at 34 + 2i (R71), chip select 0 is fitted with 8 MB (R296), cipher pages P0–P2 have fixed owners (R235), an ID shows its own page (R302). -/
def resetWord (a : Nat) : Word :=
  if TXP_PWR 0 ≤ a ∧ a ≤ TXP_PWR 63 then BitVec.ofNat 32 (34 + 2 * ((a - TXP_PWR 0) / 4))
  else if a = XSPI_CS_CFG 0 then 0x08133002
  else if a = CIPH_OWNER 0 then 2
  else if a = CIPH_OWNER 1 then 3
  else if a = CIPH_OWNER 2 then 4
  else if a % 0x1000 = 0 ∧ a < 0xE0000000 then (if (pageRows a).isSome then BitVec.ofNat 32 (a + 0x10) else 0)
  else
    match rowOf a with
    | some r => BitVec.ofNat 32 r.reset
    | none => 0

end Sys2Proof.Reg
end

