-- ==== Sys2Proof/Machine/State.lean ====
section
/-!
DEFINITION. The state of the block: its register file, memories and tables, the Stroke core, the units' live state, the
events on their way to the Rigger, and the queue of waiting commands. Plain data throughout.
-/
namespace Sys2Proof.Machine

/-- Faults. No command of the block stops the machine: every refusal the spec describes is an effect (a status, an FLT
bit, a reply). The one constructor stands for a state the model has no clock for; no meaning raises it. Safe. -/
inductive Fault where
  /-- Raised by no command: kept so that the type has a name to answer with. Safe: nothing reaches it. -/
  | unreachable
  deriving DecidableEq, Repr

/-- Refusals. -/
inductive Refusal where
  /-- Raised by the dispatch for a command that has no meaning in this model yet. Safe: nothing is claimed of it. -/
  | notModelled (mnemonic : String)
  deriving DecidableEq, Repr

/-- What an unlisted octet of the address space reads as (R269): the ROM holds its own contents, on-chip and external
flash read erased, SRAM and the frame buffer read 0 (R273; log entry 5). -/
def memReset (a : Nat) : Byte :=
  if a < 0x10000 then Config.romByte a
  else if 0x01000000 ≤ a ∧ a < 0x01400000 then 0xFF
  else if 0x30000000 ≤ a ∧ a < 0x38000000 then 0xFF
  else 0

/-- What an unlisted word of a table or of a sequencer RAM reads as. -/
def wordReset (_ : Nat) : Word := 0

/-- What an unlisted octet of OTP reads as: unprogrammed, 0 (R414, R416; log entry 6). -/
def otpReset (_ : Nat) : Byte := 0

/-- The block's state. -/
structure State where
  /-- Every register by its bus address (R301 and the maps of each chapter). -/
  regs : Sparse Word
  /-- The octets of the address space (R269). -/
  mem : List Host.Cell
  /-- The peer table, eight words for each of its 4,096 entries (R143). -/
  peer : Sparse Word
  /-- The seen cache, two words for each of its 8,192 entries (R175). -/
  seen : Sparse Word
  /-- Cox sequencer RAM and Bow sequencer RAM, by word (R123, R398). -/
  cox : Sparse Word
  bow : Sparse Word
  /-- OTP, by octet (R414). -/
  otp : Sparse Byte
  /-- Erase units marked BAD: no path clears a mark (R282). -/
  bad : List Nat
  core : Core
  dev : Dev
  /-- Events emitted and not yet taken by the Rigger, oldest first (R318, R322). -/
  events : List Nat
  /-- How many free values have been taken (log entry 2); the model's own. -/
  free : Nat
  /-- The commands that are waiting, first in first out. -/
  pending : List Instr
  deriving DecidableEq, Repr

/-- The block right after power-on reset (R28, R241, R273, R308): registers at their reset values, memories as
`memReset` has them, OTP blank and so the governor without a record (R362, R386), the ROM's start sequence not yet run,
no command waiting. -/
def State.reset : State where
  regs := Sparse.set Reg.resetWord (Sparse.set Reg.resetWord [] Reg.SYS_RSTCAUSE 1) Reg.GOV_STAT 7
  mem := []
  peer := []
  seen := []
  cox := []
  bow := []
  otp := []
  bad := []
  core := {}
  dev := {}
  events := []
  free := 0
  pending := []

end Sys2Proof.Machine
end

