-- ==== Sys2Proof/Machine/Act.lean ====
section
/-!
DEFINITION. What a command can do to the state: the primitive changes, the acts made of them, and their run. Every
meaning is an act, so what all commands keep (canonical memories, reserved bits, the queue) is shown once, here.
-/
namespace Sys2Proof.Machine

/-- The word tables that have no addresses of their own (R269). -/
inductive Tab where
  | peer
  | seen
  | cox
  | bow
  deriving DecidableEq, Repr

/-- The primitive changes of the state. None of them touches the queue of waiting commands. -/
inductive Prim where
  /-- Give a register a value; bits it does not have stay 0 (R309). -/
  | reg (a : Nat) (v : Word)
  /-- Return every register that `p` accepts to its reset value (R17). -/
  | regClear (p : Nat → Bool)
  /-- Store one octet. -/
  | mem (a : Nat) (b : Byte)
  /-- Return every octet that `p` accepts to what it reads as after reset (R273). -/
  | memClear (p : Nat → Bool)
  | tab (t : Tab) (i : Nat) (v : Word)
  | tabClear (t : Tab) (p : Nat → Bool)
  /-- Program an octet of OTP: bits go from 0 to 1 only (R414). -/
  | otp (i : Nat) (b : Byte)
  /-- Mark an erase unit BAD (R282). -/
  | bad (u : Nat)
  | core (f : Core → Core)
  | dev (f : Dev → Dev)
  | emit (e : Nat)
  /-- Take a free value: the counter moves on. -/
  | bump

/-- The bits ST has (R239). -/
def stMask : Word := 0xF0000FC1

/-- The core's registers with the bits that always read 0 cleared: PC bits 1:0, ST's reserved bits, VBASE bits 9:0
(R238, R239). -/
def Core.norm (c : Core) : Core :=
  { c with pc := c.pc &&& 0xFFFFFFFC, st := c.st &&& stMask, vbase := c.vbase &&& 0xFFFFFC00 }

/-- The contents of a table. -/
def State.tab (s : State) : Tab → Sparse Word
  | .peer => s.peer
  | .seen => s.seen
  | .cox => s.cox
  | .bow => s.bow

/-- The state with a table's contents replaced. -/
def State.setTab (s : State) (t : Tab) (m : Sparse Word) : State :=
  match t with
  | .peer => { s with peer := m }
  | .seen => { s with seen := m }
  | .cox => { s with cox := m }
  | .bow => { s with bow := m }

/-- One primitive change. -/
def Prim.run : Prim → State → State
  | .reg a v, s =>
    { s with regs := Sparse.set Reg.resetWord s.regs a (v &&& BitVec.ofNat 32 (Reg.maskOf a)) }
  | .regClear p, s => { s with regs := Sparse.drop p s.regs }
  | .mem a b, s => { s with mem := Sparse.set memReset s.mem a b }
  | .memClear p, s => { s with mem := Sparse.drop p s.mem }
  | .tab t i v, s => s.setTab t (Sparse.set wordReset (s.tab t) i v)
  | .tabClear t p, s => s.setTab t (Sparse.drop p (s.tab t))
  | .otp i b, s => { s with otp := Sparse.set otpReset s.otp i (Sparse.get otpReset s.otp i ||| b) }
  | .bad u, s => { s with bad := if u ∈ s.bad then s.bad else u :: s.bad }
  | .core f, s => { s with core := (f s.core).norm }
  | .dev f, s => { s with dev := f s.dev }
  | .emit e, s => { s with events := s.events ++ [e] }
  | .bump, s => { s with free := s.free + 1 }

/-- An act: primitive changes one after the other, each chosen by looking at the state as it then stands. -/
inductive Act where
  | done
  | prim (p : Prim) (k : Act)
  | look (k : State → Act)

/-- Carry an act out. -/
def Act.run : Act → State → State
  | .done, s => s
  | .prim p k, s => k.run (p.run s)
  | .look k, s => (k s).run s

/-- Acts with a result, written in do notation: what follows is the continuation. -/
abbrev M (α : Type) := ContT Act Id α

/-- The state as it stands. -/
def getS : M State := fun k => Act.look k

/-- One primitive change. -/
def act (p : Prim) : M Unit := fun k => Act.prim p (k ())

/-- The act of a meaning. -/
def M.toAct (m : M Unit) : Act := m fun _ => Act.done

/-- Run a meaning's act on a state. -/
def M.run (m : M Unit) (s : State) : State := m.toAct.run s

end Sys2Proof.Machine
end

