-- ==== Sys2Proof/Machine/Ops.lean ====
section
/-!
DEFINITION. The named operations every chapter uses: reading and writing registers and their fields, memory, tables, the
units' state; FLT and the events; counters and statistics; the logbook's staging buffer; free values.
-/
namespace Sys2Proof.Machine
open Sys2Proof.Reg

/-! ### Reading -/

/-- A register's value. -/
def State.reg (s : State) (a : Nat) : Word := Sparse.get resetWord s.regs a

/-- A field's value (R6). -/
def State.fld (s : State) (f : Fld) : Nat := bitsGet (s.reg f.addr) f.hi f.lo

/-- A one-bit field as a truth value. -/
def State.bit (s : State) (f : Fld) : Bool := s.fld f == 1

/-- An octet of memory, whatever the access rules. -/
def State.byte (s : State) (a : Nat) : Byte := Sparse.get memReset s.mem a

/-- n octets of memory from an address. -/
def State.bytes (s : State) (a n : Nat) : List Byte := (List.range n).map fun i => s.byte (a + i)

/-- A little-endian word of memory (R248). -/
def State.memWord (s : State) (a : Nat) : Word := wordOf (s.bytes a 4)

/-- A word of a table. -/
def State.word (s : State) (t : Tab) (i : Nat) : Word := Sparse.get wordReset (s.tab t) i

/-- An octet of OTP (R414). -/
def State.otpByte (s : State) (i : Nat) : Byte := Sparse.get otpReset s.otp i

/-- n octets of OTP. -/
def State.otpBytes (s : State) (i n : Nat) : List Byte := (List.range n).map fun k => s.otpByte (i + k)

/-- A Stroke general register (R238). -/
def State.g (s : State) (r : Nat) : Word := Sparse.get wordReset s.core.g r

/-- An entry of a sparse store of units, `d` where none is listed. -/
def Sparse.val {α : Type} (d : α) (m : Sparse α) (k : Nat) : α := Sparse.get (fun _ => d) m k

/-! ### The pages (R269, R301) -/

abbrev sysPage : Nat := 0x40000000
abbrev intcPage : Nat := 0x40001000
abbrev dmaPage : Nat := 0x40002000
abbrev flashcPage : Nat := 0x40003000
abbrev xspiPage : Nat := 0x40004000
abbrev hostpPage : Nat := 0x40005000
abbrev uartPage (n : Nat) : Nat := 0x40006000 + 0x1000 * n
abbrev spihPage : Nat := 0x40009000
abbrev i2cPage (n : Nat) : Nat := 0x4000A000 + 0x1000 * n
abbrev gpioPage : Nat := 0x4000C000
abbrev adcPage : Nat := 0x4000D000
abbrev stimPage : Nat := 0x4000E000
abbrev ltimPage : Nat := 0x4000F000
abbrev daliPage : Nat := 0x40010000
abbrev lumPage : Nat := 0x40011000
abbrev tallyPage : Nat := 0x40012000
abbrev statsPage : Nat := 0x40013000
abbrev otpcPage : Nat := 0x40014000
abbrev linkPage : Nat := 0x41000000
abbrev fbufPage : Nat := 0x41001000
abbrev filtPage : Nat := 0x41002000
abbrev peerPage : Nat := 0x41003000
abbrev floodPage : Nat := 0x41004000
abbrev ntimePage : Nat := 0x41005000
abbrev lanesPage : Nat := 0x41008000
abbrev ciphPage (n : Nat) : Nat := 0x41010000 + 0x1000 * n
abbrev pwrPage : Nat := 0x42000000
abbrev riggerPage : Nat := 0x42001000
abbrev govPage : Nat := 0x42002000
abbrev sampPage : Nat := 0x42003000
abbrev logbPage : Nat := 0x42004000
abbrev rtcPage : Nat := 0x42008000
abbrev rctlPage : Nat := 0x43000000
abbrev synthPage : Nat := 0x43001000
abbrev rxfePage : Nat := 0x43002000
abbrev txpPage : Nat := 0x43004000

/-! ### Status codes (R8) -/

abbrev stOk : Nat := 0x00
abbrev stState : Nat := 0x01
abbrev stBusy : Nat := 0x02
abbrev stParam : Nat := 0x03
abbrev stLength : Nat := 0x04
abbrev stNobuf : Nat := 0x05
abbrev stLate : Nat := 0x06
abbrev stAborted : Nat := 0x07
abbrev stLocked : Nat := 0x08
abbrev stRegPower : Nat := 0x10
abbrev stRegChannel : Nat := 0x11
abbrev stRegDuty : Nat := 0x12
abbrev stRegTxtime : Nat := 0x13
abbrev stAuth : Nat := 0x20
abbrev stReplay : Nat := 0x21
abbrev stKey : Nat := 0x22
abbrev stLowSupply : Nat := 0x30
abbrev stWearWarn : Nat := 0x31
abbrev stEraseFail : Nat := 0x32
abbrev stProgFail : Nat := 0x33
abbrev stBadBlock : Nat := 0x34
abbrev stTorn : Nat := 0x35
abbrev stHeader : Nat := 0x40
abbrev stImage : Nat := 0x41
abbrev stRollback : Nat := 0x42
abbrev stOffset : Nat := 0x43
abbrev stNoAck : Nat := 0x50
abbrev stSyncLost : Nat := 0x51
abbrev stInternal : Nat := 0xFF

/-! ### Acting -/

def rd (a : Nat) : M Word := do return (← getS).reg a
def fld (f : Fld) : M Nat := do return (← getS).fld f
def bit (f : Fld) : M Bool := do return (← getS).bit f
def wr (a : Nat) (v : Word) : M Unit := act (.reg a v)

/-- Give a field a value; the register's other bits stay. -/
def setFld (f : Fld) (v : Nat) : M Unit := do
  let w ← rd f.addr
  act (.reg f.addr (bitsPut w f.hi f.lo v))

/-- Do nothing. -/
def nop : M Unit := pure ()

/-- Act on each element of a list, in order. -/
def forAll {α : Type} : List α → (α → M Unit) → M Unit
  | [], _ => nop
  | x :: l, f => do
    f x
    forAll l f

/-- Store octets from an address upwards, whatever the access rules. -/
def putBytes : Nat → List Byte → M Unit
  | _, [] => nop
  | a, b :: l => do
    act (.mem a b)
    putBytes (a + 1) l

/-- Forget the errors recorded at the addresses that `p` accepts: those words are written afresh (R272, R276). -/
def eccForget (p : Nat → Bool) : M Unit :=
  act (.dev fun d => { d with eccOne := d.eccOne.filter fun a => !p a, eccBad := d.eccBad.filter fun a => !p a })

/-- Change the core's state outside the general registers. -/
def modCore (f : Core → Core) : M Unit := act (.core f)

/-- Write a general register. -/
def setG (r : Nat) (v : Word) : M Unit := modCore fun c => { c with g := Sparse.set wordReset c.g r v }

/-- Change the units' live state. -/
def modDev (f : Dev → Dev) : M Unit := act (.dev f)

def modTime (f : Time → Time) : M Unit := modDev fun d => { d with time := f d.time }
def modPwr (f : Pwr → Pwr) : M Unit := modDev fun d => { d with pwr := f d.pwr }
def modGov (f : Gov → Gov) : M Unit := modDev fun d => { d with gov := f d.gov }
def modSupply (f : Supply → Supply) : M Unit := modDev fun d => { d with supply := f d.supply }
def modFlash (f : Flash → Flash) : M Unit := modDev fun d => { d with flash := f d.flash }
def modXspi (f : Xspi → Xspi) : M Unit := modDev fun d => { d with xspi := f d.xspi }
def modIntc (f : Intc → Intc) : M Unit := modDev fun d => { d with intc := f d.intc }
def modRigger (f : Rigger → Rigger) : M Unit := modDev fun d => { d with rigger := f d.rigger }
def modRtc (f : Rtc → Rtc) : M Unit := modDev fun d => { d with rtc := f d.rtc }

/-- Change one entry of a sparse store of units. -/
def Sparse.upd {α : Type} [DecidableEq α] (d : α) (m : Sparse α) (k : Nat) (f : α → α) : Sparse α :=
  Sparse.set (fun _ => d) m k (f (Sparse.val d m k))

/-- A free value (log entry 2). -/
def freeNat : M Nat := do
  let s ← getS
  act .bump
  return Config.freeNat s.free

/-- A free word. -/
def freeWord : M Word := do return BitVec.ofNat 32 (← freeNat)

/-- A free octet. -/
def freeByte : M Byte := do return BitVec.ofNat 8 (← freeNat)

/-- n free octets. -/
def freeBytes : Nat → M (List Byte)
  | 0 => pure []
  | n + 1 => do
    let b ← freeByte
    let l ← freeBytes n
    return b :: l

/-- A free number within a range the spec gives. -/
def freeIn (lo hi : Nat) : M Nat := do return lo + (← freeNat) % (hi - lo + 1)

/-! ### Counters (R385, R453, R456) -/

/-- Where a mailbox count or statistic stands: page, item and word. -/
def ctrKey (page item w : Nat) : Nat := page * 0x100000 + item * 4 + w

/-- The value of a mailbox count. -/
def State.ctr (s : State) (page item w : Nat) : Nat := Sparse.get (fun _ => 0) s.dev.ctr (ctrKey page item w)

def setCtr (page item w v : Nat) : M Unit :=
  modDev fun d => { d with ctr := Sparse.set (fun _ => 0) d.ctr (ctrKey page item w) v }

/-- Add to a saturating mailbox count of the given width. -/
def countN (bits page item w n : Nat) : M Unit := do
  let s ← getS
  setCtr page item w (min (2 ^ bits - 1) (s.ctr page item w + n))

/-- Add 1 to a 32-bit saturating mailbox count. -/
def count (page item w : Nat) : M Unit := countN 32 page item w 1

/-- Add to live statistic e of R453; the STATS page's live items 0x20–0x27 hold the statistics (R455). -/
def statN (e n : Nat) : M Unit := countN 32 statsPage (0x20 + e / 4) (e % 4) n

/-- Count live statistic e of R453 once. -/
def stat (e : Nat) : M Unit := statN e 1

/-- A cluster's performance event, n occurrences (R456, R457). -/
def perf (page ev n : Nat) : M Unit := do
  forAll (List.range 4) fun k => do
    let sel ← rd (PERF_SEL page k)
    if sel.toNat = ev ∧ ev ≠ 0 ∧ n ≠ 0 then
      let c ← rd (PERF_CNT page k)
      wr (PERF_CNT page k) (c + BitVec.ofNat 32 n)

/-! ### Pages, events and FLT (R301, R305, R329) -/

/-- The fault event of a page (R329): the main clusters in page-address order, then the link clusters, the cipher pages,
the AO clusters and the radio clusters. -/
def fltEvent (page : Nat) : Nat :=
  if page < 0x41000000 then 0xC0 + (page - 0x40000000) / 0x1000
  else if page < 0x41006000 then 0xD8 + (page - 0x41000000) / 0x1000
  else if page < 0x41010000 then 0xDE
  else if page < 0x42000000 then 0xE0 + (page - 0x41010000) / 0x1000
  else if page < 0x42008000 then 0xE8 + (page - 0x42000000) / 0x1000
  else if page < 0x43000000 then 0xED
  else if page < 0x43004000 then 0xF0 + (page - 0x43000000) / 0x1000
  else 0xF3

/-- The senders that must not stall and so hold one event at their crossing (R319): the lanes and their gain control, the
Cox sequencer, the Bow sequencer, the transmit path. -/
def latchOf (ev : Nat) : Option Nat :=
  if 0x90 ≤ ev ∧ ev < 0xA0 then some (ev % 4)
  else if ev = 0xA0 then some 4
  else if (0xA1 ≤ ev ∧ ev ≤ 0xA3) ∨ ev = 0xB0 ∨ ev = 0xB1 then some 5
  else if ev = 0xB8 ∨ ev = 0xB9 ∨ ev = 0xBC then some 6
  else if ev = 0xBA ∨ ev = 0xBB then some 7
  else none

/-- An enabled channel of the AO region, whose crossing is slow, has the event as its source (R318, R321). -/
def State.aoHears (s : State) (ev : Nat) : Bool :=
  (List.range 16).any fun n => s.bit ⟨RIGGER_EN 0, n, n⟩ && s.fld (RIGGER_SRC_SRC n) == ev

/-- The sender's latch still holds an event on its way into the AO region, and a further one is lost (R319; log entry
9). -/
def State.latchFull (s : State) (ev : Nat) : Bool :=
  (latchOf ev).isSome && s.aoHears ev && s.events.any fun e => latchOf e == latchOf ev && s.aoHears e

/-- An event goes to the Rigger and counts (R318, R322, R457). -/
def emitNow (page ev : Nat) : M Unit := do
  act (.emit ev)
  perf page 0x04 1

/-- The bits of FLT (R305). -/
abbrev fltWign : Nat := 0
abbrev fltPar : Nat := 1
abbrev fltState : Nat := 2
abbrev fltOvr : Nat := 3
abbrev fltAborted : Nat := 4

/-- The hardware sets a bit of a page's FLT and emits the fault event once (R305). -/
def setFlt (page b : Nat) : M Unit := do
  let w ← rd (FLT page)
  wr (FLT page) (w ||| BitVec.ofNat 32 (2 ^ b))
  emitNow page (fltEvent page)

/-- A further bit of FLT set in the cycle of another: it emits no event of its own (R305). -/
def addFlt (page b : Nat) : M Unit := setFld ⟨FLT page, b, b⟩ 1

/-- A cluster emits an event to the Rigger (R318, R322); one that finds its sender's latch full is lost, and counted (R319). -/
def emit (page ev : Nat) : M Unit := do
  let s ← getS
  if s.latchFull ev then
    act (.dev fun d => { d with evLost := Sparse.upd 0 d.evLost page (· + 1) })
    setFlt page fltOvr
  else emitNow page ev

/-- As `setFlt`, recording the offset of the register concerned (R305, R310, R313). -/
def setFltAt (page b a : Nat) : M Unit := do
  let w ← rd (FLT page)
  wr (FLT page) (bitsPut (w ||| BitVec.ofNat 32 (2 ^ b)) 27 16 (a % 0x1000))
  emitNow page (fltEvent page)

/-- A cluster's enable. -/
def State.en (s : State) (page : Nat) : Bool := s.bit (CTRL_EN page)

/-- A write of a register makes its parity good again (R312, R314). -/
def goodParity (a : Nat) : M Unit := modDev fun d => { d with parity := d.parity.filter (· != a) }

/-- Does a parity mismatch persist in a register from one address to another (R314)? -/
def State.parityIn (s : State) (lo hi : Nat) : Bool := s.dev.parity.any fun a => decide (lo ≤ a) && decide (a ≤ hi)

/-! ### Regions (R20, R370) -/

/-- Is the region of a page powered? EASY leaves only the AO region and the RTC domain (R370). -/
def State.powered (s : State) (page : Nat) : Bool :=
  if 0x42000000 ≤ page ∧ page < 0x43000000 then true
  else s.dev.pwr.state != .easy

/-- A page's clock gate opens on an access, an enable, an event or a task (R18). -/
def openGate (page : Nat) : M Unit :=
  modDev fun d => { d with gates := if page ∈ d.gates then d.gates else page :: d.gates }

/-! ### Interrupt pulses (R262, R263) -/

/-- A pulse on an interrupt line: a rising edge, latched (R262; log entry 7 for causes without a status bit). -/
def pulse (line : Nat) : M Unit := modIntc fun i => { i with edge := bitSet i.edge line }

/-! ### Logbook staging (R465–R467) -/

/-- A record as it is staged: SEQ and CRC are 0 (R465, R467). -/
def State.recordOf (s : State) (type : Nat) (hw : Bool) (code cluster : Nat) (payload : List Byte) : List Byte :=
  [0x4C, 0x47] ++ leBytes 1 type
    ++ leBytes 1 (b2n hw + 2 * s.fld RTC_STAT_TIME_VALID) ++ leBytes 4 0
    ++ leBytes 4 (s.reg RTC_SECONDS).toNat ++ leBytes 2 s.dev.rtc.prescaler
    ++ leBytes 1 (s.reg SYS_RSTCAUSE).toNat ++ leBytes 1 code ++ leBytes 4 cluster
    ++ sliceOf payload 0 40 ++ leBytes 4 0

/-- Place a record in the AO staging buffer, or drop and count it when the buffer is full (R467). -/
def stage (type : Nat) (hw : Bool) (code cluster : Nat) (payload : List Byte) : M Unit := do
  let s ← getS
  let rec' := s.recordOf type hw code cluster payload
  if s.dev.staged.length < 4 then
    modDev fun d => { d with staged := d.staged ++ [rec'] }
    setFld LOGB_STAT_COUNT (s.dev.staged.length + 1)
    stat 0x16
    emit logbPage 0x0C
  else
    setFld LOGB_STAT_DROPPED (min 255 (s.fld LOGB_STAT_DROPPED + 1))
    stat 0x17

end Sys2Proof.Machine
end

