-- ==== Sys2Proof/Machine/Lines.lean ====
section
/-!
DEFINITION. The interrupt lines' sources (R261, R263), the latching of their rising edges (R262), and how a command ends:
its act is run, and every line that rose by it latches its edge.
-/
namespace Sys2Proof.Machine
open Sys2Proof.Reg

/-- Any bit of a page's FLT is 1: the cluster's fault line (R261, R305). -/
def State.fault (s : State) (page : Nat) : Bool := (s.reg (FLT page)).toNat % 32 != 0

/-- The level of an interrupt line's source (R263). Lines whose cause has no status bit are pulses only (log entry 7). -/
def State.level (s : State) (n : Nat) : Bool :=
  match n with
  | 0 => s.fault sysPage || s.fault intcPage || s.dev.sys.warned
  | 1 => s.fault flashcPage
  | 2 => s.fault xspiPage
  | 3 => s.fault hostpPage || s.dev.hostp.appIrq
  | 4 => s.fault (uartPage 0)
  | 5 => s.fault (uartPage 1)
  | 6 => s.fault (uartPage 2)
  | 7 => s.fault spihPage || s.fld SPIH_EVT_EVENTS &&& s.fld SPIH_IE_EVENTS != 0
  | 8 => s.fault (i2cPage 0)
  | 9 => s.fault (i2cPage 1)
  | 10 => s.fault gpioPage || (s.fld (GPIO_FLAG_LINES 0) &&& s.fld (GPIO_IE_LINES 0) != 0)
      || (s.fld (GPIO_FLAG_LINES 1) &&& s.fld (GPIO_IE_LINES 1) != 0)
  | 11 => s.fault adcPage
  | 12 => s.fault daliPage || s.bit DALI_STAT_BUSFAIL
  | 13 => s.fault lumPage
  | 14 => s.fault tallyPage
  | 15 => s.fault statsPage || (s.bit STATS_STAT_HEATF && s.bit STATS_STAT_IE)
  | 16 => s.fault otpcPage || (s.bit OTPC_STAT_DONE && s.bit OTPC_STAT_IE)
  | 17 => s.fault dmaPage
  | 25 => s.fault stimPage || s.fld (STIM_STAT_FLAGS 0) &&& s.fld (STIM_STAT_IE 0) != 0
  | 33 => s.fault ltimPage || s.fld (LTIM_STAT_FLAGS 0) &&& s.fld (LTIM_STAT_IE 0) != 0
  | 34 => s.fld (LTIM_STAT_FLAGS 1) &&& s.fld (LTIM_STAT_IE 1) != 0
  | 35 => s.fault linkPage || s.bit LINK_STAT_AUTOSW
  | 36 => s.fld LINK_RXIDX_WR != s.fld LINK_RXIDX_RD
  | 38 => s.fault fbufPage
  | 39 => s.fault filtPage
  | 40 => s.fault peerPage
  | 41 => s.fault floodPage
  | 42 => s.fault ntimePage
  | 43 => s.fault lanesPage
  | 52 => s.fault pwrPage
  | 53 => s.fault riggerPage
  | 54 => s.fault govPage
  | 55 => s.fault sampPage
  | 56 => s.fault logbPage || (s.fld LOGB_STAT_COUNT != 0 && s.bit LOGB_STAT_IE)
  | 57 => s.fault rtcPage || (s.en rtcPage && s.bit RTC_STAT_ALARMF && s.fld RTC_STAT_IE % 2 == 1)
      || (s.en rtcPage && s.bit RTC_STAT_SECF && s.fld RTC_STAT_IE / 2 == 1)
  | 58 => s.fault rctlPage || s.fault synthPage || s.fault rxfePage || s.fault txpPage
  | k =>
    if 26 ≤ k ∧ k ≤ 32 then s.fld (STIM_STAT_FLAGS (k - 25)) &&& s.fld (STIM_STAT_IE (k - 25)) != 0
    else if 44 ≤ k ∧ k ≤ 51 then s.fault (ciphPage (k - 44))
    else false

/-- The lines whose source is high, bit n for line n. -/
def State.levels (s : State) : Nat :=
  (List.range 68).foldl (fun acc n => if s.level n then acc + 2 ^ n else acc) 0

/-- Latch the edges of the lines that rose from one state to the next (R262). -/
def latchEdges (s t : State) : State :=
  let up := (List.range 68).foldl (fun acc n => if t.level n && !s.level n then bitSet acc n else acc) t.dev.intc.edge
  { t with dev := { t.dev with intc := { t.dev.intc with edge := up } } }

/-- A command's outcome: its act is carried out and the lines that rose are latched. -/
def cmd (s : State) (m : M Unit) : Host.Outcome State Fault Refusal := .next (latchEdges s (m.run s))

end Sys2Proof.Machine
end

