-- ==== Sys2Proof/Machine/Intc.lean ====
section
/-!
DEFINITION. The interrupt controller: which lines are asserted and pending, which would be accepted, and its registers
(R261–R264).
-/
namespace Sys2Proof.Machine
open Sys2Proof.Reg

/-- A bit of one of the controller's four-word registers, for line n (R264). -/
def State.lineBit (s : State) (reg : Nat → Nat) (n : Nat) : Bool := bitOf (s.reg (reg (n / 32))).toNat (n % 32)

/-- A line's priority, 0 the highest (R261). -/
def State.linePrio (s : State) (n : Nat) : Nat := s.fld ⟨INTC_PRIO (n / 4), 8 * (n % 4) + 2, 8 * (n % 4)⟩

/-- Is a line asserted (R262)? Lines 68–127 have no source; only their software latch asserts them. -/
def State.asserted (s : State) (n : Nat) : Bool :=
  if s.lineBit INTC_MODE n then bitOf s.dev.intc.edge n else s.level n || bitOf s.dev.intc.soft n

/-- Is a line pending: enabled and asserted (R262)? Lines 68–127 never are (R263). -/
def State.linePending (s : State) (n : Nat) : Bool := decide (n < 68) && s.lineBit INTC_EN n && s.asserted n

/-- The pending line of highest priority, the lowest number among equals (R262). -/
def State.topLine (s : State) : Option Nat :=
  (List.range 68).foldl (fun best n =>
    if s.linePending n then
      match best with
      | none => some n
      | some b => if s.linePrio n < s.linePrio b then some n else some b
    else best) none

/-- ST.PL: 9–15 act as 8 (R239). -/
def State.pl (s : State) : Nat := min 8 (bitsGet s.core.st 11 8)

/-- The line the core would accept now; `ie` stands for ST.IE (R262). -/
def State.wouldAccept (s : State) (ie : Bool) : Option Nat :=
  match s.topLine with
  | some n => if ie && !bitOf s.core.st.toNat 6 && decide (s.linePrio n < s.pl) then some n else none
  | none => none

/-- INTC_PENDk (R264). -/
def State.intcPend (s : State) (k : Nat) : Nat :=
  (List.range 32).foldl (fun a j => if s.linePending (32 * k + j) then a + 2 ^ j else a) 0

/-- INTC_STAT (R264). -/
def State.intcStat (s : State) : Nat :=
  (match s.topLine with | some n => 2 ^ 23 + n * 2 ^ 16 | none => 0) + bitsGet s.core.st 11 8

/-- A line's latches clear: at acceptance, or through INTC_CLRk (R262, R264). -/
def clearLine (n : Nat) : M Unit := modIntc fun i => { soft := bitClr i.soft n, edge := bitClr i.edge n }

/-- INTC_SETk written (R264): the software latch. -/
def intcSet (k : Nat) (v : Word) : M Unit :=
  forAll (onesOf 32 v.toNat) fun j => modIntc fun i => { i with soft := bitSet i.soft (32 * k + j) }

/-- INTC_CLRk written (R264). -/
def intcClr (k : Nat) (v : Word) : M Unit := forAll (onesOf 32 v.toNat) fun j => clearLine (32 * k + j)

/-- INTC_SET (R262). -/
def execIntcSet (k : Fin 4) (v : Word) (s : State) : Host.Outcome State Fault Refusal := cmd s (intcSet k.val v)

/-- INTC_CLR (R262). -/
def execIntcClr (k : Fin 4) (v : Word) (s : State) : Host.Outcome State Fault Refusal := cmd s (intcClr k.val v)

end Sys2Proof.Machine
end

