-- ==== Sys2Proof/Machine/Fbuf.lean ====
section
/-!
DEFINITION. The frame buffer: its 512 cells, their owners, pools and chains (R124–R128, R158).
-/
namespace Sys2Proof.Machine
open Sys2Proof.Reg

/-- The owner codes of R126. -/
abbrev ownFree : Nat := 0
abbrev ownLink : Nat := 1
abbrev ownCore : Nat := 2
abbrev ownHost : Nat := 3

/-- The pools of R124. -/
abbrev poolRx : Nat := 0
abbrev poolTx : Nat := 1
abbrev poolHost : Nat := 2

def State.cell (s : State) (c : Nat) : Cell := Sparse.val {} s.dev.cells c

def setCell (c : Nat) (v : Cell) : M Unit :=
  modDev fun d => { d with cells := Sparse.set (fun _ => {}) d.cells c v }

/-- The first octet of a cell (R124). -/
def cellAddr (c : Nat) : Nat := 0x21000000 + 256 * c

/-- How many cells a pool holds. -/
def State.poolUse (s : State) (p : Nat) : Nat :=
  (s.dev.cells.filter fun e => e.2.owner != ownFree && e.2.pool == p).length

/-- How many cells are not free. -/
def State.cellsUsed (s : State) : Nat := (s.dev.cells.filter fun e => e.2.owner != ownFree).length

/-- A pool's reserved quota (R124). -/
def poolQuota (p : Nat) : Nat := if p = poolRx then 192 else if p = poolTx then 96 else 32

/-- The shared cells a pool may hold (R124, R158). -/
def State.poolShare (s : State) (p : Nat) : Nat :=
  min 192 (if p = poolRx then s.fld FBUF_SHMAX_RX else if p = poolTx then s.fld FBUF_SHMAX_TX
    else s.fld FBUF_SHMAX_HOST)

/-- Shared cells a pool would hold with so many cells: its quota is drawn first (R124). -/
def sharedOf (p use : Nat) : Nat := use - poolQuota p

/-- Can a pool supply n more cells (R124)? -/
def State.canAlloc (s : State) (p n : Nat) : Bool :=
  let others := ([poolRx, poolTx, poolHost].filter (· != p)).foldl (fun a q => a + sharedOf q (s.poolUse q)) 0
  let mine := sharedOf p (s.poolUse p + n)
  decide (mine ≤ s.poolShare p) && decide (mine + others ≤ 192)

/-- The free cells. -/
def State.freeCells (s : State) : List Nat := (List.range 512).filter fun c => (s.cell c).owner == ownFree

/-- Which free cells a chain takes is open: n of them, each a free choice (log entry 2). -/
def pickCells : Nat → List Nat → M (List Nat)
  | 0, _ => pure []
  | n + 1, l => do
    let i ← freeNat
    let c := l.getD (i % l.length) 0
    let rest ← pickCells n (l.erase c)
    return c :: rest

/-- Link a list of cells into a chain of an owner. -/
def linkCells (owner pool : Nat) (hold : Bool) : List Nat → M Unit
  | [] => nop
  | [c] => setCell c { owner := owner, pool := pool, next := 0, last := true, hold := hold }
  | c :: d :: l => do
    setCell c { owner := owner, pool := pool, next := d, last := false, hold := hold }
    linkCells owner pool hold (d :: l)

/-- Allocate a chain whole or not at all (R125); answers its cells. -/
def allocChain (pool owner n : Nat) : M (Option (List Nat)) := do
  let s ← getS
  if s.canAlloc pool n then
    let cells ← pickCells n s.freeCells
    linkCells owner pool false cells
    perf fbufPage 0x40 1
    return some cells
  else
    perf fbufPage 0x41 1
    return none

/-- The cells of a chain, from its first cell. -/
def State.chainFrom (s : State) : Nat → Nat → List Nat
  | 0, _ => []
  | k + 1, c => if (s.cell c).last then [c] else c :: s.chainFrom k (s.cell c).next

/-- The cells of the chain that starts at c; a frame has at most 8 (R125). -/
def State.chain (s : State) (c : Nat) : List Nat := s.chainFrom 8 c

/-- The owner lets a cell go: FREE, or LINK while a relay hold stands (R126, R128). -/
def releaseCell (c : Nat) : M Unit := do
  let s ← getS
  let x := s.cell c
  if x.hold then setCell c { x with owner := ownLink } else setCell c {}

def releaseCells (l : List Nat) : M Unit := forAll l releaseCell

/-- A relay lets its cells go: the hold clears, and a cell no one else owns returns to FREE (R126). -/
def clearHold (c : Nat) : M Unit := do
  let s ← getS
  let x := s.cell c
  if x.hold then
    if x.owner = ownLink then setCell c {} else setCell c { x with hold := false }

/-- The link controller uses a cell beside relay `id`: another transmission has it, or a frame still arriving that is to be
delivered (R121, R126). -/
def State.cellUsed (s : State) (id c : Nat) : Bool :=
  s.dev.tx.jobs.any (fun j => j.id != id && j.cells.contains c)
    || (List.range 4).any fun n =>
      let l := Sparse.val {} s.dev.lanes n
      (l.frame.toList ++ l.mics).any fun f => f.cells.contains c && (f.verdict == some .both || f.verdict == some .deliver)

/-- Relay `id` lets a cell go (R126): a cell the link controller still uses only loses its hold. -/
def dropHold (id c : Nat) : M Unit := do
  let s ← getS
  if s.cellUsed id c then setCell c { s.cell c with hold := false } else clearHold c

/-- The link controller lets go of cells that are still its own, whatever hold they carry (R138). -/
def releaseLink (l : List Nat) : M Unit := do
  let s ← getS
  forAll (l.filter fun c => (s.cell c).owner == ownLink) fun c => setCell c {}

/-- Cells that a revoke took from the link controller are no longer a frame's or a transmission's (R128; log entry 119). -/
def forgetCells (gone : List Nat) : M Unit := modDev fun d =>
  let keep (l : List Nat) : List Nat := l.filter fun c => !gone.contains c
  let frame (f : RxFrame) : RxFrame := { f with cells := keep f.cells }
  { d with
    tx := { d.tx with jobs := d.tx.jobs.map fun j => { j with cells := keep j.cells } }
    lanes := d.lanes.map fun e => (e.1, { e.2 with frame := e.2.frame.map frame, mics := e.2.mics.map frame }) }

/-- Release those cells of a list that the host port still owns: a revoke may have taken them (R128). -/
def releaseHost (l : List Nat) : M Unit := do
  let s ← getS
  releaseCells (l.filter fun c => (s.cell c).owner == ownHost)

/-- Pass the cells of a chain to an owner. -/
def passCells (l : List Nat) (owner : Nat) : M Unit :=
  forAll l fun c => do
    let s ← getS
    setCell c { s.cell c with owner := owner }

/-- Set the relay hold on the cells of a chain (R126). -/
def holdCells (l : List Nat) : M Unit :=
  forAll l fun c => do
    let s ← getS
    setCell c { s.cell c with hold := true }

/-- The octets stored in a chain. -/
def State.chainBytes (s : State) (cells : List Nat) (n : Nat) : List Byte :=
  (cells.flatMap fun c => s.bytes (cellAddr c) 256).take n

/-- Store octets into a chain, 256 to a cell (R125). -/
def chainWrite : List Nat → List Byte → M Unit
  | [], _ => nop
  | c :: cs, l => do
    putBytes (cellAddr c) (l.take 256)
    chainWrite cs (l.drop 256)

/-- The cells a frame of n stored octets occupies (R125). -/
def cellsFor (n : Nat) : Nat := ceilDiv n 256

/-- A write to FBUF_ALLOC: a chain from the TX pool for the core, or NOBUF (R158). -/
def fbufAlloc (v : Word) : M Unit := do
  setFld FBUF_ALLOC_NCM1 (bitsGet v 11 9)
  let r ← allocChain poolTx ownCore (bitsGet v 11 9 + 1)
  match r with
  | some cells =>
    setFld FBUF_ALLOC_CELL (cells.headD 0)
    setFld FBUF_ALLOC_STATUS stOk
  | none =>
    setFld FBUF_ALLOC_CELL 0
    setFld FBUF_ALLOC_STATUS stNobuf

/-- A write to FBUF_FREE (R128). -/
def fbufFree (v : Word) : M Unit := do
  let s ← getS
  let c := bitsGet v 8 0
  if (s.cell c).owner = ownCore then releaseCells ((s.chainFrom 512 c).filter fun x => (s.cell x).owner == ownCore)
  else setFlt fbufPage fltState

/-- Every cell of an owner (R128). -/
def State.ownedBy (s : State) (o : Nat) : List Nat := (List.range 512).filter fun c => (s.cell c).owner == o

/-- Take every cell of an owner; a revoke of CORE also resets the RX ring indices (R128). -/
def revoke (o : Nat) : M Unit := do
  let s ← getS
  if o ≠ ownFree then releaseCells (s.ownedBy o)
  if o = ownLink then forgetCells ((s.ownedBy o).filter fun c => !(s.cell c).hold)
  if o = ownCore then wr LINK_RXIDX 0

/-- FBUF_ALLOC written (R158). -/
def execChainAlloc (v : Word) (s : State) : Host.Outcome State Fault Refusal := cmd s (fbufAlloc v)

/-- FBUF_FREE written (R128). -/
def execChainFree (v : Word) (s : State) : Host.Outcome State Fault Refusal := cmd s (fbufFree v)

/-- FBUF_REVOKE written (R128). -/
def execCellRevoke (v : Word) (s : State) : Host.Outcome State Fault Refusal := cmd s (revoke (bitsGet v 1 0))

/-- What FBUF_NEXTc shows (R158). -/
def State.nextHalf (s : State) (c : Nat) : Nat :=
  let x := s.cell c
  b2n x.last * 2 ^ 15 + x.owner * 2 ^ 12 + b2n x.hold * 2 ^ 11 + x.next

end Sys2Proof.Machine
end

