-- ==== Sys2Proof/Machine/Aes.lean ====
section
/-!
DEFINITION. The algorithms the cipher engine applies (R215, R219, R232): the AES block cipher of FIPS 197, CCM*, CMAC
(SP 800-38B) and key wrap (SP 800-38F).
-/
namespace Sys2Proof.Machine

/-! ### AES -/

/-- The substitution box. -/
def sboxTab : List Nat :=
  [0x63, 0x7C, 0x77, 0x7B, 0xF2, 0x6B, 0x6F, 0xC5, 0x30, 0x01, 0x67, 0x2B, 0xFE, 0xD7, 0xAB, 0x76] ++
  [0xCA, 0x82, 0xC9, 0x7D, 0xFA, 0x59, 0x47, 0xF0, 0xAD, 0xD4, 0xA2, 0xAF, 0x9C, 0xA4, 0x72, 0xC0] ++
  [0xB7, 0xFD, 0x93, 0x26, 0x36, 0x3F, 0xF7, 0xCC, 0x34, 0xA5, 0xE5, 0xF1, 0x71, 0xD8, 0x31, 0x15] ++
  [0x04, 0xC7, 0x23, 0xC3, 0x18, 0x96, 0x05, 0x9A, 0x07, 0x12, 0x80, 0xE2, 0xEB, 0x27, 0xB2, 0x75] ++
  [0x09, 0x83, 0x2C, 0x1A, 0x1B, 0x6E, 0x5A, 0xA0, 0x52, 0x3B, 0xD6, 0xB3, 0x29, 0xE3, 0x2F, 0x84] ++
  [0x53, 0xD1, 0x00, 0xED, 0x20, 0xFC, 0xB1, 0x5B, 0x6A, 0xCB, 0xBE, 0x39, 0x4A, 0x4C, 0x58, 0xCF] ++
  [0xD0, 0xEF, 0xAA, 0xFB, 0x43, 0x4D, 0x33, 0x85, 0x45, 0xF9, 0x02, 0x7F, 0x50, 0x3C, 0x9F, 0xA8] ++
  [0x51, 0xA3, 0x40, 0x8F, 0x92, 0x9D, 0x38, 0xF5, 0xBC, 0xB6, 0xDA, 0x21, 0x10, 0xFF, 0xF3, 0xD2] ++
  [0xCD, 0x0C, 0x13, 0xEC, 0x5F, 0x97, 0x44, 0x17, 0xC4, 0xA7, 0x7E, 0x3D, 0x64, 0x5D, 0x19, 0x73] ++
  [0x60, 0x81, 0x4F, 0xDC, 0x22, 0x2A, 0x90, 0x88, 0x46, 0xEE, 0xB8, 0x14, 0xDE, 0x5E, 0x0B, 0xDB] ++
  [0xE0, 0x32, 0x3A, 0x0A, 0x49, 0x06, 0x24, 0x5C, 0xC2, 0xD3, 0xAC, 0x62, 0x91, 0x95, 0xE4, 0x79] ++
  [0xE7, 0xC8, 0x37, 0x6D, 0x8D, 0xD5, 0x4E, 0xA9, 0x6C, 0x56, 0xF4, 0xEA, 0x65, 0x7A, 0xAE, 0x08] ++
  [0xBA, 0x78, 0x25, 0x2E, 0x1C, 0xA6, 0xB4, 0xC6, 0xE8, 0xDD, 0x74, 0x1F, 0x4B, 0xBD, 0x8B, 0x8A] ++
  [0x70, 0x3E, 0xB5, 0x66, 0x48, 0x03, 0xF6, 0x0E, 0x61, 0x35, 0x57, 0xB9, 0x86, 0xC1, 0x1D, 0x9E] ++
  [0xE1, 0xF8, 0x98, 0x11, 0x69, 0xD9, 0x8E, 0x94, 0x9B, 0x1E, 0x87, 0xE9, 0xCE, 0x55, 0x28, 0xDF] ++
  [0x8C, 0xA1, 0x89, 0x0D, 0xBF, 0xE6, 0x42, 0x68, 0x41, 0x99, 0x2D, 0x0F, 0xB0, 0x54, 0xBB, 0x16]

def sbox (b : Byte) : Byte := BitVec.ofNat 8 (sboxTab.getD b.toNat 0)

/-- The inverse substitution: the octet whose substitute is given. -/
def invSbox (b : Byte) : Byte := BitVec.ofNat 8 (sboxTab.idxOf b.toNat)

/-- Octet by octet exclusive or. -/
def xorBytes (a b : List Byte) : List Byte := List.zipWith (· ^^^ ·) a b

/-- Multiplication by x in the field of 256 elements. -/
def xtime (b : Byte) : Byte := if b.toNat < 128 then b <<< 1 else (b <<< 1) ^^^ 0x1B

/-- Multiplication by a small constant. -/
def gfMul (k : Nat) (b : Byte) : Byte :=
  let b2 := xtime b
  let b4 := xtime b2
  let b8 := xtime b4
  (if bitOf k 0 then b else 0) ^^^ (if bitOf k 1 then b2 else 0) ^^^ (if bitOf k 2 then b4 else 0)
    ^^^ (if bitOf k 3 then b8 else 0)

/-- The octet at position i of a state. -/
def octet (l : List Byte) (i : Nat) : Byte := l.getD i 0

/-- One column times the matrix whose first row is given. -/
def mixColumn (row : List Nat) (c : List Byte) : List Byte :=
  (List.range 4).map fun i =>
    (List.range 4).foldl (fun a j => a ^^^ gfMul (row.getD ((j + 4 - i) % 4) 0) (octet c j)) 0

def mixColumns (row : List Nat) (l : List Byte) : List Byte :=
  (List.range 4).flatMap fun c => mixColumn row (sliceOf l (4 * c) 4)

/-- Rotate row r left by r columns, or right. -/
def shiftRows (l : List Byte) : List Byte :=
  (List.range 16).map fun i => octet l ((i % 4) + 4 * ((i / 4 + i % 4) % 4))
def invShiftRows (l : List Byte) : List Byte :=
  (List.range 16).map fun i => octet l ((i % 4) + 4 * ((i / 4 + 4 - i % 4) % 4))

/-- The next words of the key schedule, newest first: nk words to a key, i the index of the next word. -/
def expandFrom (nk : Nat) : Nat → Nat → Byte → List (List Byte) → List (List Byte)
  | 0, _, _, ws => ws
  | n + 1, i, rc, ws =>
    let prev := ws.headD []
    let back := ws.getD (nk - 1) []
    if i % nk = 0 then
      let t := (prev.drop 1 ++ prev.take 1).map sbox
      expandFrom nk n (i + 1) (xtime rc) (xorBytes back (xorBytes t [rc, 0, 0, 0]) :: ws)
    else if nk = 8 ∧ i % nk = 4 then expandFrom nk n (i + 1) rc (xorBytes back (prev.map sbox) :: ws)
    else expandFrom nk n (i + 1) rc (xorBytes back prev :: ws)

/-- The round keys of a 16- or 32-octet key, in order. -/
def roundKeys (key : List Byte) : List (List Byte) :=
  let nk := key.length / 4
  let first := ((List.range nk).map fun i => sliceOf key (4 * i) 4).reverse
  let ws := (expandFrom nk (4 * (nk + 7) - nk) nk 1 first).reverse
  (List.range (nk + 7)).map fun r => (ws.drop (4 * r)).take 4 |>.flatten

/-- Encrypt one block. -/
def aesEnc (key blk : List Byte) : List Byte :=
  let ks := roundKeys key
  let s := xorBytes blk (ks.headD [])
  let mid := (ks.drop 1).dropLast.foldl (fun s k => xorBytes (mixColumns [2, 3, 1, 1] (shiftRows (s.map sbox))) k) s
  xorBytes (shiftRows (mid.map sbox)) (ks.getLastD [])

/-- Decrypt one block. -/
def aesDec (key blk : List Byte) : List Byte :=
  let ks := (roundKeys key).reverse
  let s := xorBytes blk (ks.headD [])
  let mid := (ks.drop 1).dropLast.foldl
    (fun s k => mixColumns [14, 11, 13, 9] (xorBytes ((invShiftRows s).map invSbox) k)) s
  xorBytes ((invShiftRows mid).map invSbox) (ks.getLastD [])

/-- The blocks of 16 octets of a message, the last one padded with zeros. -/
def blocksOf : Nat → List Byte → List (List Byte)
  | 0, _ => []
  | n + 1, l => if l.isEmpty then [] else sliceOf l 0 16 :: blocksOf n (l.drop 16)

def blocks (l : List Byte) : List (List Byte) := blocksOf (l.length / 16 + 1) l

/-! ### CCM* (R219, R232) -/

/-- The CBC-MAC value of CCM* with two length octets. -/
def ccmMac (key nonce aad msg : List Byte) (mlen : Nat) : List Byte :=
  let fl := (if aad.isEmpty then 0 else 0x40) + (if mlen = 0 then 0 else 8 * ((mlen - 2) / 2)) + 1
  let b0 := leBytes 1 fl ++ nonce ++ beBytes 2 msg.length
  let a := if aad.isEmpty then [] else blocks (beBytes 2 aad.length ++ aad)
  (b0 :: a ++ blocks msg).foldl (fun x b => aesEnc key (xorBytes x b)) (List.replicate 16 0)

/-- The key stream block i of CCM*. -/
def ccmStream (key nonce : List Byte) (i : Nat) : List Byte := aesEnc key ([0x01] ++ nonce ++ beBytes 2 i)

/-- Encrypt or decrypt in counter mode from block 1 on. -/
def ccmCrypt (key nonce msg : List Byte) : List Byte :=
  ((List.range (ceilDiv msg.length 16)).flatMap fun i =>
    xorBytes (sliceOf msg (16 * i) 16) (ccmStream key nonce (i + 1))).take msg.length

/-- The MIC of a message: the first mlen octets of the encrypted CBC-MAC value. -/
def ccmTag (key nonce aad msg : List Byte) (mlen : Nat) : List Byte :=
  (xorBytes (ccmMac key nonce aad msg mlen) (ccmStream key nonce 0)).take mlen

/-- How many blocks a CCM operation processes (R225's worked frame). -/
def ccmBlocks (alen mlen : Nat) : Nat :=
  1 + (if alen = 0 then 0 else ceilDiv (alen + 2) 16) + 2 * ceilDiv mlen 16 + 1

/-! ### CMAC (R232, R234) -/

/-- Doubling in the field of CMAC's subkeys. -/
def cmacDouble (l : List Byte) : List Byte :=
  let v := beNat l
  beBytes 16 (if 2 ^ 127 ≤ v then ((2 * v) % 2 ^ 128) ^^^ 0x87 else 2 * v)

/-- Fold whole blocks into a running CMAC value. -/
def cmacFold (key acc : List Byte) (l : List Byte) : List Byte :=
  (blocks l).foldl (fun x b => aesEnc key (xorBytes x b)) acc

/-- Finish a CMAC from a running value with the message's last part. -/
def cmacFinish (key acc l : List Byte) : List Byte :=
  let k1 := cmacDouble (aesEnc key (List.replicate 16 0))
  let n := if l.length = 0 then 0 else (l.length - 1) / 16 * 16
  let x := cmacFold key acc (l.take n)
  let rest := l.drop n
  let last :=
    if rest.length = 16 then xorBytes rest k1
    else xorBytes (sliceOf (rest ++ [0x80]) 0 16) (cmacDouble k1)
  aesEnc key (xorBytes x last)

/-- The CMAC of a message. -/
def cmac (key l : List Byte) : List Byte := cmacFinish key (List.replicate 16 0) l

/-! ### Key wrap (R215) -/

/-- One step of unwrapping: A and the registers R1–Rn, for step t. -/
def kwStep (key : List Byte) (n t : Nat) (x : List Byte × List (List Byte)) : List Byte × List (List Byte) :=
  let i := (t - 1) % n
  let b := aesDec key (xorBytes x.1 (beBytes 8 t) ++ x.2.getD i [])
  (b.take 8, x.2.set i (b.drop 8))

/-- Unwrap a blob: its contents, or none where the integrity check fails. -/
def kwUnwrap (key blob : List Byte) : Option (List Byte) :=
  let n := blob.length / 8 - 1
  let r := (List.range n).map fun i => sliceOf blob (8 + 8 * i) 8
  let x := (List.range (6 * n)).foldl (fun x t => kwStep key n (6 * n - t) x) (blob.take 8, r)
  if x.1 = List.replicate 8 0xA6 then some x.2.flatten else none

end Sys2Proof.Machine
end

