-- ==== Sys2Proof/Machine/Lanes.lean ====
section
/-!
DEFINITION. The capture window and the receive lanes: enabling, detection, gain control, drops, the latch points and the
PHR (R73–R97, R519, R520).
-/
namespace Sys2Proof.Machine
open Sys2Proof.Reg

/-- Lane states (R77). -/
abbrev laneOff : Nat := 0
abbrev laneSearch : Nat := 1
abbrev lanePreamble : Nat := 2
abbrev laneHeader : Nat := 3
abbrev lanePayload : Nat := 4
abbrev laneBlanked : Nat := 5

/-- Drop reasons (R79). -/
abbrev dropGainPreempt : Nat := 1
abbrev dropBlanked : Nat := 2
abbrev dropLength : Nat := 3
abbrev dropHdr : Nat := 4
abbrev dropModesw : Nat := 5
abbrev dropNosync : Nat := 6
abbrev dropD2d : Nat := 7
abbrev dropRadio : Nat := 8
abbrev dropStopped : Nat := 9

/-- PHY mode of a lane (R95): 0 2-FSK, 1 4-FSK, 2 MR-OFDM. -/
def State.lanePhy (s : State) (n : Nat) : Nat := s.fld (LANES_MODE_PHY n)
def State.isOfdm (s : State) (n : Nat) : Bool := s.lanePhy n == 2

/-- FSK symbol rate in ksym/s (R95). -/
def State.laneRate (s : State) (n : Nat) : Nat := [50, 100, 150, 200].getD (s.fld (LANES_MODE_RATE n)) 50

/-- Signed offset in kHz (R74). -/
def State.laneOfs (s : State) (n : Nat) : Int := signed 12 (s.fld (LANES_OFS_OFS n))

/-- Lane width W in kHz (R75). -/
def State.laneWidth (s : State) (n : Nat) : Nat :=
  if s.isOfdm n then [1200, 800, 400, 200].getD (s.fld (LANES_MODE_OPT n)) 200
  else if s.lanePhy n = 1 then 400
  else [100, 200, 300, 400].getD (s.fld (LANES_MODE_RATE n)) 400

/-- Two lanes' PHY modes are the same (R76): modulation, and its rate or option. -/
def State.sameMode (s : State) (a b : Nat) : Bool :=
  s.lanePhy a == s.lanePhy b &&
    (if s.isOfdm a then s.fld (LANES_MODE_OPT a) == s.fld (LANES_MODE_OPT b)
     else s.fld (LANES_MODE_RATE a) == s.fld (LANES_MODE_RATE b))

/-- Two lanes have an SFD value in common; SFD1 counts for a lane that accepts coded frames (R76, R95). -/
def State.sfdShared (s : State) (a b : Nat) : Bool :=
  let l (n : Nat) := s.fld (LANES_SFD_SFD0 n) :: (if s.bit (LANES_MODE_FEC n) then [s.fld (LANES_SFD_SFD1 n)] else [])
  (l a).any fun x => (l b).contains x

/-- The checks of R76 on a lane's configuration. -/
def State.laneCfgOk (s : State) (n : Nat) : Bool :=
  let phy := s.lanePhy n
  let h := s.fld (LANES_MODE_HIDX n)
  decide (phy < 3)
    && !(phy == 1 && s.fld (LANES_MODE_RATE n) != 3)
    && !(phy == 0 && (decide (h < 33) || decide (100 < h)))
    && decide ((s.laneOfs n).natAbs ≤ 1900)
    && decide (2 * (s.laneOfs n).natAbs + s.laneWidth n ≤ 4000)
    && s.fld (LANES_LEN_MAXLEN n) != 0
    && (List.range 4).all fun m =>
        m == n || !(s.bit ⟨LANES_ENABLE, m, m⟩ && s.sameMode n m && s.laneOfs n == s.laneOfs m
          && (s.isOfdm n || s.sfdShared n m))

def State.lane (s : State) (n : Nat) : Lane := Sparse.val {} s.dev.lanes n
def setLane (n : Nat) (l : Lane) : M Unit :=
  modDev fun d => { d with lanes := Sparse.set (fun _ => {}) d.lanes n l }
def modFrame (n : Nat) (f : RxFrame → RxFrame) : M Unit := do
  let s ← getS
  match (s.lane n).frame with
  | some x => setLane n { s.lane n with frame := some (f x) }
  | none => nop

def modTx (f : TxEng → TxEng) : M Unit := modDev fun d => { d with tx := f d.tx }
def modGain (f : Gain → Gain) : M Unit := modDev fun d => { d with gain := f d.gain }

abbrev laneStateFld (n : Nat) : Fld := ⟨LANES_STAT, 4 * n + 3, 4 * n⟩
def State.laneState (s : State) (n : Nat) : Nat := s.fld (laneStateFld n)

/-- The next boundary of the receive stream's bursts of 2 µs, which follow one another from the entry to RX (R25). -/
def State.nextBurst (s : State) : Nat :=
  s.dev.radio.rxAt + 80 * ceilDiv (s.dev.time.link - s.dev.radio.rxAt) 80

/-- A lane's state (R77). In SEARCH the lane searches from the next burst (R25) and its digital gain loop runs (R88); in any
other state the energy it last measured is stale (R93). -/
def setLaneState (n v : Nat) : M Unit := do
  setFld (laneStateFld n) v
  let s ← getS
  if v = laneSearch then setLane n { s.lane n with since := s.nextBurst, digRuns := true }
  else
    setFld (LANES_ED_STALE n) 1
    setLane n { s.lane n with digRuns := false }

/-- The lane's digital gain loop freezes where it stands, which is open (R88; log entry 101). -/
def digitalFreeze (n : Nat) : M Unit := do
  let g ← freeNat
  let s ← getS
  setLane n { s.lane n with digRuns := false, dig := g }

/-- A lane holds a frame: PREAMBLE, HEADER or PAYLOAD (R78). -/
def State.holds (s : State) (n : Nat) : Bool := (s.lane n).frame.isSome && decide (s.laneState n ∈ [2, 3, 4])

/-- The lanes the open windows of the scheduler select, where the scheduler woke the radio for them (R190, R201, R205); a strobe
wait runs the lanes of the sample windows (log entry 124). -/
def State.windowLanes (s : State) : Nat :=
  let x := s.dev.samp
  if !x.woke then 15
  else (if x.sample || x.rdv.isSome then s.fld SAMP_CFG_SLANES else 0)
    ||| (if x.main != 0 then s.fld SAMP_CFG_BLANES else 0)

/-- A lane is enabled, and selected by the scheduler's window (R77, R190, R201). -/
def State.laneUp (s : State) (n : Nat) : Bool :=
  s.en lanesPage && s.bit ⟨LANES_ENABLE, n, n⟩ && bitOf s.windowLanes n

/-- The receive chain runs: the radio is in RX, no transmission has stopped it, and a Bow sequencer answers (R46, R52). -/
def State.rxRuns (s : State) : Bool := s.fld RCTL_STAT_STATE == 3 && !s.dev.radio.blank && !s.dev.radio.bowDead

/-- A lane may run (R77). -/
def State.laneOn (s : State) (n : Nat) : Bool := s.laneUp n && s.rxRuns

/-- The state of a lane that holds nothing: it searches, is held silent while the device transmits, or is off (R77, R90). -/
def State.laneRest (s : State) (n : Nat) : Nat :=
  if s.laneOn n then laneSearch else if s.laneUp n && s.dev.radio.blank then laneBlanked else laneOff

/-- The two halves of the LANES mailbox words (R96): low halves stand under the item, high halves beside it. -/
def laneCount (item n w : Nat) (high : Bool) : M Unit :=
  countN 16 lanesPage (item + n + if high then 0x8000 else 0) w 1

/-- Count a drop by its reason (R96). -/
def countDrop (n reason : Nat) : M Unit :=
  if reason = dropStopped then laneCount 0x30 n 0 false
  else laneCount 0x20 n ((reason - 1) / 2) ((reason - 1) % 2 == 1)

/-- Set GAIN_FREEZE and its owner; 7 for none (R84, R95, R97). -/
def setFreeze (owner : Nat) : M Unit := do
  setFld LANES_STAT_OWNER owner
  setFld LANES_STAT_FROZEN (b2n (decide (owner < 7)))
  setFld RXFE_GAIN_FROZEN (b2n (decide (owner < 7)))

/-- Of the lanes that hold a frame, the one that detected first, the lower among equals; 7 for none (R86). -/
def State.firstHolder (s : State) : Nat :=
  let at_ (n : Nat) := match (s.lane n).frame with | some f => f.detAt | none => 0
  ((List.range 4).filter fun n => s.holds n).foldl (fun best n => if best = 7 ∨ at_ n < at_ best then n else best) 7

/-- After a lane lets its frame go: ownership passes on or the gain unfreezes (R86); a re-settle without its lane ends. -/
def passFreeze (n : Nat) : M Unit := do
  let s ← getS
  if s.dev.gain.rearm = some n then
    modGain fun g => { g with rearm := none }
    setFld LANES_STAT_RESETTLE 0
    setFreeze s.firstHolder
  else if s.fld LANES_STAT_OWNER = n then setFreeze s.firstHolder

/-- What the link controller held for a lane's frame that goes no further: its cells return to FREE, an acknowledgement
or relay not yet confirmed is cancelled (R79, R138). -/
def frameGone (n : Nat) : M Unit := do
  let s ← getS
  match (s.lane n).frame with
  | none => nop
  | some f =>
    releaseLink f.cells
    modTx fun t => { t with jobs := t.jobs.filter fun j => !(some j.id == f.ackJob || some j.id == f.relayJob) }
    setLane n { s.lane n with frame := none }

/-- A lane drops its frame (R79): counter, LAST.DROP, event; it searches again where it may. -/
def laneDrop (n reason : Nat) (after : Nat) : M Unit := do
  let s ← getS
  if s.holds n then
    frameGone n
    setLaneState n after
    setFld (LANES_LAST_DROP n) reason
    countDrop n reason
    emit lanesPage (0x9C + n)
    passFreeze n
  else setLaneState n after

/-- Whether the lanes are blanked (R90). -/
def setBlank (b : Bool) : M Unit := modDev fun d => { d with radio := { d.radio with blank := b } }

/-- Every lane stops because the radio leaves RX or the lanes are stopped (R77, R91). -/
def lanesOff (reason : Nat) : M Unit := do
  setBlank false
  forAll (List.range 4) fun n => laneDrop n reason laneOff
  modGain fun _ => {}
  setFld LANES_STAT_RESETTLE 0
  setFreeze 7
  setFld RXFE_GAIN_LEVEL 0x80

/-- Blanking for a transmission from RX (R90). -/
def lanesBlank : M Unit := do
  let s ← getS
  forAll (List.range 4) fun n =>
    if s.laneOn n then laneDrop n dropBlanked laneBlanked else nop
  setBlank true
  modGain fun _ => {}
  setFld LANES_STAT_RESETTLE 0
  setFld RXFE_GAIN_LEVEL 0x80

/-- With MANUAL 1 and RXFE enabled the gain is held at RXFE_MGAIN.STEP (R89, R519). -/
def gainHold : M Unit := do
  let s ← getS
  if s.bit RXFE_AGC_MANUAL && s.en rxfePage then setFld RXFE_GAIN_STEP (min 12 (s.fld RXFE_MGAIN_STEP))

/-- The radio reaches RX: the receive stream starts (R25) and enabled lanes search; STEP starts from INIT on an entry from
SYN, and goes on from where blanking left it after a transmission (R90, R97, R519). -/
def lanesEnterRx : M Unit := do
  let s ← getS
  setFreeze 7
  if !s.dev.radio.blank then setFld RXFE_GAIN_STEP (min 12 (s.fld RXFE_AGC_INIT))
  gainHold
  modDev fun d => { d with radio := { d.radio with blank := false, rxAt := d.time.link } }
  let t ← getS
  forAll (List.range 4) fun n => setLaneState n (t.laneRest n)

/-! ### Enabling (R76, R77) -/

/-- Disable a lane: a held frame drops with STOPPED (R79, R15). -/
def laneStop (n : Nat) : M Unit := do
  setFld ⟨LANES_ENABLE, n, n⟩ 0
  laneDrop n dropStopped laneOff

/-- Try to enable a lane: R76 decides. -/
def laneStart (n : Nat) : M Unit := do
  let s ← getS
  if s.laneCfgOk n then
    setFld ⟨LANES_CFGERR, 8 * n + 7, 8 * n⟩ stOk
    setFld ⟨LANES_ENABLE, n, n⟩ 1
    openGate lanesPage
    let t ← getS
    if t.laneRest n ≠ laneOff then setLaneState n (t.laneRest n)
  else setFld ⟨LANES_CFGERR, 8 * n + 7, 8 * n⟩ stParam

/-- A write of LANES_ENABLE. Lanes that one write sets or clears are taken one after the other from lane 0 to lane 3, so that of
two that R76 lets not run together the lower one is enabled (DESIGN CHOICE: the spec gives no order; log entry 102). -/
def lanesEnableWrite (v : Nat) : M Unit := do
  let s ← getS
  let held (n : Nat) : Bool := bitOf v n && !s.bit ⟨LANES_ENABLE, n, n⟩ && s.parityIn (LANES_MODE n) (LANES_LEN n)
  if (List.range 4).any held then setFltAt lanesPage fltPar LANES_ENABLE
  forAll ((List.range 4).filter fun n => !held n) fun n => do
    let on ← bit ⟨LANES_ENABLE, n, n⟩
    if bitOf v n && !on then laneStart n
    if !bitOf v n && on then laneStop n

/-- LANES_CNTCLR written: the selected lanes' mailbox counts clear (R96). -/
def lanesCntClr (v : Nat) : M Unit :=
  forAll (onesOf 4 v) fun n =>
    forAll [0x10 + n, 0x20 + n, 0x30 + n, 0x8010 + n, 0x8020 + n] fun item =>
      forAll (List.range 4) fun w => setCtr lanesPage item w 0

/-- LANES_CNTCLR written (R96). -/
def execLaneCounterClear (v : Word) (s : State) : Host.Outcome State Fault Refusal := cmd s (lanesCntClr v.toNat)

/-- LANES_CTRL.EN changed: lanes start or stop with STOPPED (R77, R82). -/
def lanesCtrl (on : Bool) : M Unit := do
  let s ← getS
  forAll (List.range 4) fun n =>
    if on then (if s.laneRest n ≠ laneOff && s.laneState n == laneOff then setLaneState n (s.laneRest n) else nop)
    else laneDrop n dropStopped laneOff

/-! ### Detection and gain (R83–R89) -/

/-- The frame lane m holds was detected in the present link tick. -/
def State.justDetected (s : State) (m : Nat) : Bool :=
  match (s.lane m).frame with
  | some f => f.detAt == s.dev.time.link
  | none => false

/-- Of two lanes that detect in the same link tick the owner is the one of priority, and otherwise the lower one (R86). -/
def State.rather (s : State) (n m : Nat) : Bool :=
  let prio (k : Nat) := s.bit (LANES_MODE_PRIO k)
  (prio n && !prio m) || (prio n == prio m && decide (n < m))

/-- A lane of priority takes the gain: every other lane's frame is dropped, but for those detected in this link tick, which
R86 lets receive, and the loop runs (R87). -/
def gainRearm (n : Nat) : M Unit := do
  let s ← getS
  forAll (List.range 4) fun m =>
    if m ≠ n ∧ s.holds m ∧ s.justDetected m = false then (do stat 0x12; laneDrop m dropGainPreempt laneSearch) else nop
  setFreeze 7
  setFld LANES_STAT_RESETTLE 1
  modGain fun _ => { rearm := some n, updates := 0 }
  emit lanesPage 0xA0

/-- Freeze ownership at a detection on lane n (R84, R86, R87, R89). -/
def detectFreeze (n : Nat) : M Unit := do
  let s ← getS
  let owner := s.fld LANES_STAT_OWNER
  let prio (m : Nat) := s.bit (LANES_MODE_PRIO m)
  match s.dev.gain.rearm with
  | some m => if s.justDetected m && prio n && s.rather n m then modGain fun g => { g with rearm := some n } else nop
  | none =>
    if owner = 7 then setFreeze n
    else if s.justDetected owner then
      if s.rather n owner then setFreeze n
    else if prio n && !prio owner then
      if s.bit RXFE_AGC_MANUAL then setFreeze n else gainRearm n

/-- The scheduler notes a detection for its windows (R191, R193, R201): EV_SAMP_DET in a sample window, and in a strobe wait only
from D − 100 µs − w on, where the announced frame can be meant. -/
def sampDetect : M Unit := do
  let s ← getS
  let x := s.dev.samp
  if x.sample then
    count sampPage 0x02 3
    emit sampPage 0x09
  modDev fun d => { d with samp := { d.samp with
    detected := x.detected || x.sample
    heard := x.heard || x.main == 3
    rdv := x.rdv.map fun r => if r.at_ ≤ s.dev.time.now + 4000 + r.half then { r with hit := true } else r } }

/-- A detection on lane n at estimated power `pwr` (0.25 dBm): below DETMIN it is ignored (R84). The lane's digital gain loop
freezes, or stays open while the priority lane's gain settles afresh (R88). -/
def detect (n : Nat) (pwr cfo : Int) (state : Nat) : M Unit := do
  let s ← getS
  let dm := s.fld (LANES_DET_DETMIN n)
  if s.laneState n = laneSearch ∧ s.laneOn n ∧ (s.lane n).since ≤ s.dev.time.link
      ∧ (dm = 0x80 ∨ 4 * signed 8 dm ≤ pwr) then
    setLane n { s.lane n with frame := some { detAt := s.dev.time.link, cfo := cfo } }
    setLaneState n state
    sampDetect
    laneCount 0x10 n 0 false
    stat (0x02 + n)
    perf lanesPage (0x40 + n) 1
    emit lanesPage (0x90 + n)
    detectFreeze n
    let t ← getS
    if t.dev.gain.rearm = some n then setLane n { t.lane n with digRuns := true } else digitalFreeze n

/-- An FSK lane sees PREQ octets of preamble (R84). -/
def execPreambleQualified (n : Fin 4) (pwr cfo : Int) (s : State) : Host.Outcome State Fault Refusal := cmd s do
  if !s.isOfdm n then detect n pwr cfo lanePreamble

/-- An OFDM lane's STF correlation reaches the threshold (R84). -/
def execStfDetected (n : Fin 4) (pwr cfo : Int) (s : State) : Host.Outcome State Fault Refusal := cmd s do
  if s.isOfdm n then detect n pwr cfo laneHeader

/-- The loop's next STEP and whether the update is settled, from a window level in dBFS (R83). -/
def agcStep (step : Nat) (level target : Int) (dband : Nat) (clipped : Bool) : Nat × Bool :=
  let e := level - target
  let want : Int :=
    if clipped then (step : Int) - 4
    else if (max 1 (min 6 dband) : Nat) < e.natAbs then (step : Int) - roundDiv e 6
    else (step : Int)
  let next := (max 0 (min 12 want)).toNat
  (next, next == step)

/-- A re-settle ends with its lane as owner: GAIN_FREEZE rises, and the digital loops left open freeze (R87, R88). -/
def resettleEnd (n : Nat) : M Unit := do
  modGain fun _ => {}
  setFld LANES_STAT_RESETTLE 0
  setFreeze n
  let s ← getS
  forAll (List.range 4) fun m => if s.holds m && (s.lane m).digRuns then digitalFreeze m else nop

/-- A 2 µs interval of the receive window (R83, R85, R87, R519): level, clipping, the loop's update, and the end of a
re-settle at the first settled update or the fourth interval. The level is taken as a whole number of dBFS, as
RXFE_GAIN.LEVEL shows it, in e as well (DESIGN CHOICE: the spec gives e no resolution; log entry 103). -/
def execAgcUpdate (level : Int) (clipped : Bool) (s : State) : Host.Outcome State Fault Refusal := cmd s do
  if s.rxRuns then
    setFld RXFE_GAIN_LEVEL (unsigned 8 level)
    let frozen := s.bit LANES_STAT_FROZEN
    if clipped then
      setFld RXFE_CLIP_ALL (min 0xFFFF (s.fld RXFE_CLIP_ALL + 1))
      if frozen then
        setFld RXFE_CLIP_FROZEN (min 0xFFFF (s.fld RXFE_CLIP_FROZEN + 1))
        forAll (List.range 4) fun n => if s.holds n then laneCount 0x10 n 2 false else nop
    let (next, settled) := agcStep (s.fld RXFE_GAIN_STEP) level (signed 8 (s.fld RXFE_AGC_TARGET))
      (s.fld RXFE_AGC_DBAND) clipped
    let runs := s.en rxfePage && !frozen && !s.bit RXFE_AGC_MANUAL
    if runs then setFld RXFE_GAIN_STEP next
    match s.dev.gain.rearm with
    | none => nop
    | some n =>
      if (runs && settled) || decide (3 ≤ s.dev.gain.updates) then resettleEnd n
      else modGain fun g => { g with updates := g.updates + 1 }

/-! ### Latch points and PHR (R79–R81, R92, R520) -/

/-- RSSI and SNR latch (R92). R96's "SFDs found" counts an OFDM lane's LTF ends too, as EV_LANEn_SFD stands for both (DESIGN
CHOICE: R96 does not say; log entry 104). -/
def latch (n : Nat) (coded : Bool) (rssi : Int) (snr : Nat) : M Unit := do
  let s ← getS
  modFrame n fun f => { f with sfdAt := s.dev.time.link, coded := coded, rssi := rssi, snr := snr }
  setFld (LANES_LAST_RSSI n) (unsigned 16 rssi)
  setFld (LANES_LAST_SNR n) snr
  laneCount 0x10 n 0 true
  emit lanesPage (0x94 + n)

/-- The link ticks from qualification in which the SFD must have ended: PRELIM octets of preamble (R95, R520) and the SFD's
two, eight symbols to an octet in either modulation (R102, R113; log entry 105). -/
def State.preLimit (s : State) (n : Nat) : Nat := ceilDiv ((s.fld (LANES_LEN_PRELIM n) + 2) * 320000) (s.laneRate n)

/-- The frame's lane has waited for its SFD longer than PRELIM allows (R520). -/
def State.preOver (s : State) (n : Nat) : Bool :=
  match (s.lane n).frame with
  | some f => decide (f.detAt + s.preLimit n < s.dev.time.link)
  | none => false

/-- An FSK lane finds the SFD; a coded one only while its FEC bit is 1 (R92, R103). One that comes after PRELIM octets finds
the frame dropped (R520; log entry 105). -/
def sfdFound (n : Nat) (coded : Bool) (rssi : Int) : M Unit := do
  let s ← getS
  if s.laneState n = lanePreamble ∧ (coded = false ∨ s.bit (LANES_MODE_FEC n)) then
    if s.preOver n then laneDrop n dropNosync laneSearch
    else
      latch n coded rssi 0
      setLaneState n laneHeader

/-- An OFDM lane reaches the end of the LTF (R92). -/
def execLtfEnd (n : Fin 4) (rssi : Int) (snr : Byte) (s : State) : Host.Outcome State Fault Refusal := cmd s do
  if s.laneState n = laneHeader ∧ s.isOfdm n then latch n false rssi snr.toNat

/-- A searching lane completes its averaging window (R93). -/
def execEnergyMeasurement (n : Fin 4) (ed : Int) (s : State) : Host.Outcome State Fault Refusal := cmd s do
  if s.laneState n = laneSearch then
    setFld (LANES_ED_ED n) (unsigned 16 ed)
    setFld (LANES_ED_STALE n) 0
    if 4 * signed 8 (s.fld SAMP_CFG_EDTH) ≤ ed then
      modDev fun d => { d with samp := { d.samp with energy := true } }

/-- Does an OFDM option have an MCS (R104)? -/
def mcsOk (opt mcs : Nat) : Bool :=
  match opt with
  | 0 => decide (mcs ≤ 3)
  | 1 => decide (mcs ≤ 5)
  | 2 => decide (1 ≤ mcs) && decide (mcs ≤ 6)
  | _ => decide (2 ≤ mcs) && decide (mcs ≤ 6)

/-- A PHR as the lane decoded it: the drop it earns, if any, in the order R79–R81 judge it; an OFDM PHR that fails its
header check or names no MCS of the option is judged first, since its fields say nothing (log entry 25). -/
def State.phrDrop (s : State) (n : Nat) (p : Phr) : Option Nat :=
  if s.isOfdm n && (!p.hcsOk || !mcsOk (s.fld (LANES_MODE_OPT n)) p.mcs) then some dropHdr
  else if s.fld (LANES_LEN_MAXLEN n) < p.len then some dropLength
  else if p.modeSwitch then some dropModesw
  else if !s.isOfdm n && decide (p.len < if p.fcs2 then 2 else 4) then some dropHdr
  else if s.fld LINK_STAT_MODE = 0 then some dropStopped
  else none

/-- A lane decodes the PHR and judges it (R80, R81, R99); DROP_LENGTH counts in the link controller while it is on. -/
def phrJudge (n : Nat) (p : Phr) : M Unit := do
  let s ← getS
  if s.laneState n = laneHeader then
    match s.phrDrop n p with
    | some r =>
      if r = dropLength ∧ s.fld LINK_STAT_MODE ≠ 0 then
        count linkPage 0x02 2
        perf linkPage 0x40 1
      laneDrop n r laneSearch
    | none =>
      modFrame n fun f =>
        { f with len := p.len, fcs2 := p.fcs2 && !s.isOfdm n, white := p.white, mcs := p.mcs, seed := p.seed }
      setLaneState n lanePayload

end Sys2Proof.Machine
end

