-- ==== Sys2Proof/Machine/Crc.lean ====
section
/-!
DEFINITION. The check codes the spec names: CRC-32 (reflected, 0xEDB8_8320), CRC-16/CCITT and CRC-8 as the CRCS
instruction folds them (R254), the two frame check sequences (R102, R116) and the CRC-32 of stored records (R287, R465).
-/
namespace Sys2Proof.Machine

/-- Repeat a step n times. -/
def times {α : Type} : Nat → (α → α) → α → α
  | 0, _, x => x
  | n + 1, f, x => times n f (f x)

/-- One octet into a reflected CRC of polynomial p: the low bit first. -/
def crcReflStep (p acc : Nat) (b : Byte) : Nat :=
  times 8 (fun c => if c % 2 = 1 then (c / 2) ^^^ p else c / 2) (acc ^^^ b.toNat)

/-- One octet into a CRC of width w and polynomial p, the high bit first. -/
def crcMsbStep (w p acc : Nat) (b : Byte) : Nat :=
  times 8 (fun c => if c.testBit (w - 1) then ((2 * c) % 2 ^ w) ^^^ p else (2 * c) % 2 ^ w)
    ((acc ^^^ b.toNat * 2 ^ (w - 8)) % 2 ^ w)

/-- One octet folded as POLY of the CRCS instruction says (R254): 0 CRC-32, 1 CRC-16/CCITT, 2 CRC-8. -/
def crcsStep (poly acc : Nat) (b : Byte) : Nat :=
  match poly with
  | 0 => crcReflStep 0xEDB88320 (acc % 2 ^ 32) b
  | 1 => crcMsbStep 16 0x1021 (acc % 2 ^ 16) b
  | _ => crcMsbStep 8 0x07 (acc % 2 ^ 8) b

/-- CRC-32 with the usual initial value and final inversion: the CRC of images, journal and logbook records, and the
4-octet FCS (log entry 8). -/
def crc32 (l : List Byte) : Nat := (l.foldl (crcReflStep 0xEDB88320) 0xFFFFFFFF) ^^^ 0xFFFFFFFF

/-- The 2-octet FCS of IEEE 802.15.4: polynomial 0x1021 reflected, initial value 0 (log entry 8). -/
def fcs16 (l : List Byte) : Nat := l.foldl (crcReflStep 0x8408) 0

/-- CRC-16/CCITT of the host frames, most significant bit first (R422; log entry 8). -/
def crc16 (init : Nat) (l : List Byte) : Nat := l.foldl (crcMsbStep 16 0x1021) init

/-- The CRC-8 of the die-to-die link: x⁸ + x² + x + 1, initial value 0xFF, over a burst's 48 octets, or over a register-bus
transfer's address, data and direction (R25). -/
def d2dCrc (l : List Byte) : Nat := l.foldl (crcMsbStep 8 0x07) 0xFF

end Sys2Proof.Machine
end

