-- ==== Sys2Proof/Machine/Mac.lean ====
section
/-!
DEFINITION. MAC frames as the link controller reads them: addressing, the auxiliary security header, header IEs, the flood
header IE and the strobe frame (R98, R115, R116, R134, R162, R163, R219).
-/
namespace Sys2Proof.Machine

/-- An address of a frame. -/
inductive Addr where
  | none
  | short (a : Nat)
  | ext (a : Nat)
  deriving DecidableEq, Repr

/-- A header IE: where its content starts, its element ID and its length. -/
structure Ie where
  at_ : Nat
  id : Nat
  len : Nat
  deriving DecidableEq, Repr

/-- A MAC header as parsed (R134): `hdrLen` counts the octets up to the last header IE. -/
structure Mac where
  ok : Bool
  ftype : Nat
  sec : Bool
  ar : Bool
  ver : Nat
  dsn : Option Nat
  dpan : Option Nat
  dst : Addr
  span : Option Nat
  src : Addr
  /-- The security control octet, the frame counter and the key identifier (R219–R221). -/
  ctl : Nat
  fcnt : Nat
  ksrc : List Byte
  kidx : Nat
  auxAt : Nat
  ies : List Ie
  hdrLen : Nat
  deriving DecidableEq, Repr

/-- Security level and key identifier mode of the security control octet (R219). -/
def Mac.level (m : Mac) : Nat := m.ctl % 8
def Mac.kim (m : Mac) : Nat := m.ctl / 8 % 4

/-- What P0 does not support: level 0, frame counter suppression (bit 5), a 5-octet frame counter (bit 6) or a reserved
value (bit 7) of the security control octet (R224, R225; log entry 26). -/
def Mac.unsupported (m : Mac) : Bool := m.level == 0 || decide (32 ≤ m.ctl)

/-- The octets of the MIC at a level: 0, 4, 8 or 16 (R219). -/
def micLen (level : Nat) : Nat := [0, 4, 8, 16].getD (level % 4) 0

/-- The length of an address of a mode. -/
def addrLen (mode : Nat) : Nat := if mode = 2 then 2 else if mode = 3 then 8 else 0

/-- An address read from a frame. -/
def addrAt (l : List Byte) (i mode : Nat) : Addr :=
  if mode = 2 then .short (leNat (sliceOf l i 2)) else if mode = 3 then .ext (leNat (sliceOf l i 8)) else .none

/-- Which PAN IDs a frame carries, by version, modes and the compression bit: the standard's rules (R140; log entry 26). -/
def panRule (ver dm sm : Nat) (comp : Bool) : Bool × Bool :=
  let d := dm != 0
  let s := sm != 0
  if ver < 2 then (d, s && !(comp && d))
  else if !d && !s then (comp, false)
  else if d && !s then (!comp, false)
  else if !d && s then (false, !comp)
  else if dm = 3 ∧ sm = 3 then (!comp, false)
  else (true, !comp)

/-- The header IEs from position i on, and where they end: after a termination IE, or at the end of the octets. -/
def iesFrom (l : List Byte) : Nat → Nat → List Ie × Nat × Bool
  | 0, i => ([], i, true)
  | k + 1, i =>
    if l.length ≤ i then ([], l.length, true)
    else if l.length < i + 2 then ([], l.length, false)
    else
      let d := leNat (sliceOf l i 2)
      let len := d % 128
      let id := d / 128 % 256
      if 0x8000 ≤ d then ([], i, true)
      else if id = 0x7E ∨ id = 0x7F then ([], i + 2, true)
      else if l.length < i + 2 + len then ([], l.length, false)
      else
        let r := iesFrom l k (i + 2 + len)
        (⟨i + 2, id, len⟩ :: r.1, r.2)

/-- The octets of the key identifier in a mode. -/
def kidLen (mode : Nat) : Nat := [0, 1, 5, 9].getD mode 0

/-- Parse a MAC header (R98, R134). -/
def parseMac (l : List Byte) : Mac :=
  let fc := leNat (sliceOf l 0 2)
  let ver := fc / 4096 % 4
  let dm := fc / 1024 % 4
  let sm := fc / 16384 % 4
  let sup := ver == 2 && bitOf fc 8
  let p := panRule ver dm sm (bitOf fc 6)
  let i0 := 2 + (if sup then 0 else 1)
  let i1 := i0 + (if p.1 then 2 else 0)
  let i2 := i1 + addrLen dm
  let i3 := i2 + (if p.2 then 2 else 0)
  let aux := i3 + addrLen sm
  let sec := bitOf fc 3
  let ctl := if sec then leNat (sliceOf l aux 1) else 0
  let fl := if bitOf ctl 5 then 0 else if bitOf ctl 6 then 5 else 4
  let kl := kidLen (ctl / 8 % 4)
  let end_ := if sec then aux + 1 + fl + kl else aux
  let r := if ver == 2 && bitOf fc 9 then iesFrom l 64 end_ else ([], end_, true)
  { ok := decide (end_ ≤ l.length) && dm != 1 && sm != 1 && r.2.2
    ftype := fc % 8
    sec := sec
    ar := bitOf fc 5
    ver := ver
    dsn := if sup then none else some (leNat (sliceOf l 2 1))
    dpan := if p.1 then some (leNat (sliceOf l i0 2)) else none
    dst := addrAt l i1 dm
    span := if p.2 then some (leNat (sliceOf l i2 2)) else none
    src := addrAt l i3 sm
    ctl := ctl
    fcnt := leNat (sliceOf l (aux + 1) fl)
    ksrc := sliceOf l (aux + 1 + fl) (kl - 1)
    kidx := leNat (sliceOf l (aux + fl + kl) (min kl 1))
    auxAt := aux
    ies := r.1
    hdrLen := r.2.1 }

/-- A vendor header IE of a subtype with a length the subtype defines (R115): the first of its subtype. -/
def vendorIe (l : List Byte) (m : Mac) (sub : Nat) (lens : List Nat) : Option Ie :=
  m.ies.find? fun e => e.id == 0 && lens.contains e.len &&
    sliceOf l e.at_ 4 == [0x5A, 0x51, 0x48, BitVec.ofNat 8 sub]

/-- A flood header IE's fields (R162). -/
structure FloodIe where
  at_ : Nat
  len : Nat
  orig : Nat
  fseq : Nat
  hopcnt : Nat
  hoplim : Nat
  cls : Nat
  htr : Nat
  origin : Nat
  deriving DecidableEq, Repr

/-- The flood header IE a frame carries, valid or not (R163). -/
def floodIe (l : List Byte) (m : Mac) : Option FloodIe :=
  match vendorIe l m 0x01 [15, 21] with
  | none => none
  | some e => some
    { at_ := e.at_
      len := e.len
      orig := leNat (sliceOf l (e.at_ + 4) 2)
      fseq := leNat (sliceOf l (e.at_ + 6) 2)
      hopcnt := leNat (sliceOf l (e.at_ + 8) 2)
      hoplim := leNat (sliceOf l (e.at_ + 10) 2)
      cls := leNat (sliceOf l (e.at_ + 12) 1)
      htr := leNat (sliceOf l (e.at_ + 13) 2)
      origin := leNat (sliceOf l (e.at_ + 15) 6) }

/-- Is a flood header IE valid in its frame (R163)? -/
def floodValid (m : Mac) (f : FloodIe) : Bool :=
  (f.len == if f.cls = 3 then 21 else 15)
    && decide (f.cls ≤ 3)
    && decide (1 ≤ f.hoplim) && decide (f.hopcnt ≤ f.hoplim)
    && m.ftype == 1
    && decide (f.orig ≤ 0x0FFF) && m.src == .short f.orig
    && !m.ar
    && (match m.dst with
        | .short d =>
          if f.cls = 0 ∨ f.cls = 3 then d == 0xFFFF
          else if f.cls = 2 then decide (0x1000 ≤ d) && decide (d ≤ 0xFFFE)
          else decide (d ≤ 0x0FFF)
        | _ => false)

/-- A strobe frame's COUNT, DSN and FLAGS (R116). -/
structure Strobe where
  pan : Nat
  dst : Nat
  src : Nat
  count : Nat
  dsn : Nat
  flags : Nat
  deriving DecidableEq, Repr

/-- The strobe in a frame's first 18 octets, for a PSDU of 20 octets with exactly the layout of R116. -/
def strobeOf (l : List Byte) (psduLen : Nat) : Option Strobe :=
  if psduLen = 20 ∧ sliceOf l 0 2 = [0x41, 0xAB] ∧ sliceOf l 8 6 = [0x08, 0x00, 0x5A, 0x51, 0x48, 0x02] then
    some { pan := leNat (sliceOf l 2 2), dst := leNat (sliceOf l 4 2), src := leNat (sliceOf l 6 2)
           count := leNat (sliceOf l 14 2), dsn := leNat (sliceOf l 16 1), flags := leNat (sliceOf l 17 1) }
  else none

/-- A strobe's 18 octets (R116). -/
def strobeFrame (x : Strobe) : List Byte :=
  [0x41, 0xAB] ++ leBytes 2 x.pan ++ leBytes 2 x.dst ++ leBytes 2 x.src ++ [0x08, 0x00, 0x5A, 0x51, 0x48, 0x02]
    ++ leBytes 2 x.count ++ leBytes 1 x.dsn ++ leBytes 1 x.flags

/-- A list with octets replaced from position i on. -/
def patch (l : List Byte) (i : Nat) (v : List Byte) : List Byte := l.take i ++ v ++ l.drop (i + v.length)

/-- The FCS of a frame's octets (R102, R116). -/
def fcsOf (fcs2 : Bool) (l : List Byte) : List Byte := if fcs2 then leBytes 2 (fcs16 l) else leBytes 4 (crc32 l)

/-- Does a PSDU pass its FCS? -/
def fcsOk (fcs2 : Bool) (psdu : List Byte) : Bool :=
  let n := if fcs2 then 2 else 4
  decide (n ≤ psdu.length) && psdu.drop (psdu.length - n) == fcsOf fcs2 (psdu.take (psdu.length - n))

end Sys2Proof.Machine
end

