-- ==== Sys2Proof/Machine/Phy.lean ====
section
/-!
DEFINITION. What a frame is on the air: whitening, the PHR, the coded FSK format, and the parts a transmission puts together
(R98–R105). Modulation, and the OFDM chain the standard defines, lie below the octets of this model (log entry 114).
-/
namespace Sys2Proof.Machine

/-! ### Bits -/

/-- The bits of octets in the order they are sent, bit 0 of each octet first (R5). -/
def bitsOf (l : List Byte) : List Bool := l.flatMap fun b => (List.range 8).map fun i => b.toNat.testBit i

/-- The octets of bits in that order. -/
def octetsOf : Nat → List Bool → List Byte
  | 0, _ => []
  | k + 1, l =>
    BitVec.ofNat 8 ((List.range 8).foldl (fun a i => if (l.getD i false) then a + 2 ^ i else a) 0) :: octetsOf k (l.drop 8)

/-! ### PN9 whitening (R98, R102) -/

/-- Nine bits of the PN9 generator, oldest first, give the next one (log entry 115). -/
def pn9Next (l : List Bool) : List Bool := l.drop 1 ++ [xor (l.getD 0 true) (l.getD 5 true)]

/-- The first n bits of PN9 after a state of all ones. -/
def pn9Bits : Nat → List Bool → List Bool
  | 0, _ => []
  | k + 1, st =>
    let next := pn9Next st
    next.getD 8 false :: pn9Bits k next

/-- Octets under PN9: whitening, and its own inverse (R98, R102). -/
def whiten (l : List Byte) : List Byte :=
  octetsOf l.length ((bitsOf l).zipWith xor (pn9Bits (8 * l.length) (List.replicate 9 true)))

/-- A PSDU, or the part of one that has arrived, as the PHR's whitening bit has it (R102). -/
def whitened (on : Bool) (l : List Byte) : List Byte := if on then whiten l else l

/-! ### The FSK PHR and the coded format (R102, R103) -/

/-- The 16 bits of an FSK PHR (R102): mode switch, two reserved bits, FCS type, whitening, and the length from its highest bit
(log entry 115). -/
def phrBits (fcs2 white : Bool) (len : Nat) : List Bool :=
  [false, false, false, fcs2, white] ++ (List.range 11).map fun i => len.testBit (10 - i)

/-- N_unc for L octets of PSDU (R103). -/
def nUnc (len : Nat) : Nat := 64 * ceilDiv (16 + 8 * len + 6) 64

/-- The uncoded stream: PHR, PSDU, six tail bits and the pad (R103). -/
def uncoded (phr : List Bool) (psdu : List Byte) : List Bool :=
  let l := phr ++ bitsOf psdu
  l ++ List.replicate (nUnc psdu.length - l.length) false

/-- One output of the encoder: the parity of the generator's taps, the newest bit in the highest (R103). -/
def convOut (gen : Nat) (reg : List Bool) : Bool :=
  (List.range 7).foldl (fun a i => xor a (gen.testBit (6 - i) && reg.getD i false)) false

/-- The rate-1/2 code of constraint length 7, generators 133 and 171 octal, the 133 output first (R103). -/
def convBits : List Bool → List Bool → List Bool
  | [], _ => []
  | b :: l, reg =>
    let r := (b :: reg).take 7
    convOut 0o133 r :: convOut 0o171 r :: convBits l r

/-- A block of 128 bits written row by row into 16 rows of 8 and read column by column (R103). -/
def interleaveBlock (l : List Bool) : List Bool :=
  (List.range 8).flatMap fun c => (List.range 16).map fun r => l.getD (8 * r + c) false

/-- The coded bits, interleaved block by block; `k` blocks (R103). -/
def interleave : Nat → List Bool → List Bool
  | 0, _ => []
  | k + 1, l => interleaveBlock (l.take 128) ++ interleave k (l.drop 128)

/-- The coded form of a PHR and a whitened PSDU (R103). -/
def codedBits (phr : List Bool) (psdu : List Byte) : List Bool :=
  interleave (nUnc psdu.length / 64) (convBits (uncoded phr psdu) (List.replicate 6 false))

/-! ### A frame on the air (R100–R105) -/

/-- The PSDU of a frame's octets: with the FCS at its end, and whitened (R100, R102). -/
def psduOf (fcs2 white : Bool) (octets : List Byte) : List Byte := whitened white (octets ++ fcsOf fcs2 octets)

/-- The bits behind the SFD of an FSK frame (R100, R102, R103). -/
def fskBits (coded fcs2 white : Bool) (psdu : List Byte) : List Bool :=
  let phr := phrBits fcs2 white psdu.length
  if coded then codedBits phr psdu else phr ++ bitsOf psdu

end Sys2Proof.Machine
end

