-- ==== Sys2Proof/Machine/Txp.lean ====
section
/-!
DEFINITION. The transmit path: airtime, the regulatory checks and the duty meter, and how a transmission completes
(R53–R66, R118, R132, R522).
-/
namespace Sys2Proof.Machine
open Sys2Proof.Reg

/-! ### Airtime (R118) -/

/-- N_DBPS of an OFDM option and MCS (R104). -/
def ndbps (opt mcs : Nat) : Nat :=
  match opt with
  | 0 => [12, 24, 48, 96].getD mcs 12
  | 1 => [6, 12, 24, 48, 72, 96].getD mcs 6
  | 2 => [0, 6, 12, 24, 36, 48, 72].getD mcs 6
  | _ => [0, 0, 6, 12, 18, 24, 36].getD mcs 6

/-- The lowest MCS of an option (R104, R105). -/
def lowMcs (opt : Nat) : Nat := [0, 0, 1, 2].getD opt 2

/-- A in µs of a frame of L octets with P octets of preamble, in lane n's mode (R118). -/
def State.airtime (s : State) (n : Nat) (coded : Bool) (mcs p l : Nat) : Nat :=
  let nunc := 64 * ceilDiv (16 + 8 * l + 6) 64
  match s.lanePhy n with
  | 0 => ceilDiv (1000 * (if coded then 8 * (p + 2) + 2 * nunc else 8 * (p + 2 + 2 + l))) (s.laneRate n)
  | 1 => 5 * (if coded then 8 * (p + 2) + nunc else 8 * (p + 2) + 4 * (2 + l))
  | _ =>
    let opt := s.fld (LANES_MODE_OPT n)
    720 + 120 * ((if opt = 0 then 3 else 6) + ceilDiv (8 * l + 6) (ndbps opt mcs))

/-- L of a job's frame: its octets and its FCS (R118). -/
def TxJob.len (j : TxJob) : Nat := j.octets.length + if j.fcs2 then 2 else 4

/-- A job's airtime with a preamble of p octets. -/
def State.jobAir (s : State) (j : TxJob) (p : Nat) : Nat := s.airtime j.lane j.coded j.mcs p j.len

/-! ### Profiles and power (R54–R61) -/

/-- Word w of the active profile (R59, R61). -/
def State.prof (s : State) (w : Nat) : Nat := (s.reg (TXP_PROF (s.fld TXP_CFG_PROFILE) w)).toNat

/-- The active profile has a valid generation. -/
def State.profValid (s : State) : Bool := bitOf (s.prof 0) 31
def State.fMin (s : State) : Nat := s.prof 0 % 2 ^ 20
def State.fMax (s : State) : Nat := s.prof 1 % 2 ^ 20
def State.dutyPct (s : State) : Nat := s.prof 2 / 2 ^ 16
def State.pmax (s : State) : Int := signed 8 (s.prof 2)
def State.txMax (s : State) : Nat := s.prof 3 % 2 ^ 16

/-- The profile maximum as a code (R56). -/
def State.profCode (s : State) : Int := 2 * s.pmax + 80

/-- The table entry of a power index; codes above 160 act as 160 (R54, R55). -/
def State.tableCode (s : State) (idx : Nat) : Nat := min 160 (s.fld (TXP_PWR_CODE idx))

/-- The code applied: the smallest of the entry, the ceiling and the profile code (R56). -/
def State.appliedCode (s : State) (idx : Nat) : Nat :=
  (min (min (s.tableCode idx : Int) (s.fld TXP_CFG_CEIL)) s.profCode).toNat

/-! ### Duty meter (R64–R66) -/

def modDuty (f : Duty → Duty) : M Unit := modDev fun d => { d with duty := f d.duty }

/-- Bucket k in ms. -/
def Duty.bucket (d : Duty) (k : Nat) : Nat := Sparse.val 0 d.buckets k

/-- S, the sum of the 60 buckets (R65). -/
def Duty.sum (d : Duty) : Nat := (List.range 60).foldl (fun a k => a + d.bucket k) 0

/-- L in ms (R65). -/
def State.dutyLimit (s : State) : Nat := s.dutyPct * 360

/-- The duty rule of R65; a DUTY of 10,000 means no limit (R59). -/
def State.dutyOk (s : State) (a : Nat) : Bool :=
  s.dutyPct == 10000 || decide (1000 * s.dev.duty.sum + s.dev.duty.residue + a ≤ 1000 * s.dutyLimit)

/-- Charge an airtime of A µs (R65). -/
def dutyCharge (a : Nat) : M Unit := do
  let s ← getS
  let u := s.dev.duty.residue + a
  modDuty fun d => { d with residue := u % 1000
                            buckets := Sparse.upd 0 d.buckets d.cur (· + u / 1000) }
  statN 0x0F (u / 1000)

/-- A minute boundary of the meter's clock (R64): the oldest bucket is cleared and becomes the current one. -/
def dutyMinute : M Unit := modDuty fun d =>
  let k := (d.cur + 1) % 60
  { d with cur := k, buckets := Sparse.set (fun _ => 0) d.buckets k 0, minute := 0 }

/-- DUTY_MINUTE_BOUNDARY; the minute clock runs only while the crystal does (R64). -/
def execDutyMinuteBoundary (s : State) : Host.Outcome State Fault Refusal := cmd s do
  if s.bit PWR_CLKSTAT_LFOK then dutyMinute

/-! ### The checks (R62, R522) -/

/-- Transmission is blocked (R522). -/
def State.blocked (s : State) : Bool := s.bit RCTL_STAT_LINKFAIL || s.dev.radio.bowDead

/-- The correction of frequency follow at a lane offset of ofs kHz: whole steps of 10 Hz, limited to 40 ppm of the carrier
(R53, R110; log entry 28). -/
def State.follow (s : State) (ofs cfo : Int) : Int :=
  let carrier : Int := ((s.dev.radio.word * 40000000 : Nat) : Int) + ofs * 1000 * 1048576
  let lim : Int := ((carrier.toNat / (250000 * 1048576) : Nat) : Int)
  10 * max (-lim) (min lim (roundDiv cfo 10))

/-- Twice the carrier in 2⁻²⁰ Hz: the synthesiser's word, the lane's offset in kHz and the correction in Hz (R47, R53). -/
def State.carrier2 (s : State) (ofs cfo : Int) : Int :=
  2 * ((s.dev.radio.word * 40000000 : Nat) : Int) + 2 * (ofs * 1000 + cfo) * 1048576

/-- Checks 1 to 4 of R62: the first that fails, or OK. BW is in kHz, A in µs. -/
def State.regCheck (s : State) (carrier2 : Int) (bw a idx : Nat) : Nat :=
  let half : Int := ((bw * 1000 * 1048576 : Nat) : Int)
  if !s.profValid || decide (carrier2 - half < ((s.fMin * 2000 * 1048576 : Nat) : Int))
      || decide (((s.fMax * 2000 * 1048576 : Nat) : Int) < carrier2 + half) then stRegChannel
  else if s.txMax * 1000 < a then stRegTxtime
  else if s.profCode < 0 ∨ (!s.bit TXP_CFG_CLAMP ∧ s.profCode < (s.tableCode idx : Int)) then stRegPower
  else if !s.dutyOk a then stRegDuty
  else stOk

/-- All of R62 for a transmission; `timed` ones need lock. -/
def State.txCheck (s : State) (timed : Bool) (carrier2 : Int) (bw a idx : Nat) : Nat :=
  if s.blocked then stInternal
  else if !s.en txpPage then stState
  else if timed && !s.bit RCTL_STAT_LOCK then stLate
  else s.regCheck carrier2 bw a idx

/-- The check of a job at its lane's offset and width. -/
def State.jobCheck (s : State) (j : TxJob) (timed : Bool) : Nat :=
  s.txCheck timed (s.carrier2 (s.laneOfs j.lane) (s.follow (s.laneOfs j.lane) j.cfo)) (s.laneWidth j.lane) j.air j.pwr

/-- Record the outcome of a check: TXP_STAT, the refusal counts (R63) and LATE (R51). -/
def txNote (st idx : Nat) : M Unit := do
  let s ← getS
  setFld TXP_STAT_STATUS st
  let up (f : Fld) : M Unit := setFld f (min (2 ^ f.width - 1) (s.fld f + 1))
  if st = stOk then
    setFld TXP_STAT_INDEX idx
    setFld TXP_STAT_CODE (s.appliedCode idx)
    setFld TXP_STAT_CLAMPED (b2n (decide (s.appliedCode idx < s.tableCode idx)))
  else if st = stRegChannel then up TXP_REFUSE_CHANNEL
  else if st = stRegTxtime then up TXP_REFUSE_TXTIME
  else if st = stRegPower then up TXP_REFUSE_POWER
  else if st = stRegDuty then up TXP_REFUSE_DUTY
  else if st = stLate then up TXP_LATE_LATE
  if stRegPower ≤ st ∧ st ≤ stRegTxtime then stat 0x10
  if st = stLate then stat 0x11

/-! ### The queue -/

/-- The frames of the queue taken from the rings (R156). -/
def TxJob.queued (j : TxJob) : Bool := j.kind == .ring || j.kind == .host || j.kind == .mgmt

/-- Change the queue; LINK_STAT.TXQ follows. -/
def setJobs (l : List TxJob) : M Unit := do
  modTx fun t => { t with jobs := l }
  setFld LINK_STAT_TXQ (min 16 (l.filter TxJob.queued).length)

def State.jobs (s : State) : List TxJob := s.dev.tx.jobs
def State.job (s : State) (id : Nat) : Option TxJob := s.jobs.find? fun j => j.id == id

/-- Put a changed job in its place. -/
def putJob (j : TxJob) : M Unit := do
  let s ← getS
  setJobs (s.jobs.map fun k => if k.id = j.id then j else k)

/-- Add a job to the queue; answers its number. -/
def addJob (j : TxJob) : M Nat := do
  let s ← getS
  let id := s.dev.tx.nextId
  modTx fun t => { t with nextId := t.nextId + 1 }
  setJobs (s.jobs ++ [{ j with id := id }])
  return id

def dropJob (id : Nat) : M Unit := do
  let s ← getS
  setJobs (s.jobs.filter fun j => j.id != id)

/-- Of the jobs that `p` accepts, the one with the earliest t_s, the first taken among equals. -/
def State.pick (s : State) (p : TxJob → Bool) : Option TxJob :=
  (s.jobs.filter p).foldl (fun best j => match best with
    | none => some j
    | some b => if j.ts < b.ts then some j else some b) none

/-! ### Completion (R132) -/

/-- The words of a completion (R132). -/
def completionOf (j : TxJob) (st : Nat) : List Byte :=
  leBytes 4 (2 ^ 31 + j.tag % 256 * 2 ^ 16 + min 8 j.attempts * 2 ^ 12 + st % 256)
    ++ leBytes 4 (if j.secured then j.fcnt else 0)
    ++ leBytes 4 (j.sentAt % 2 ^ 32)
    ++ leBytes 2 (min 0xFFFF j.delay) ++ leBytes 2 (j.sentAt / 2 ^ 32)

/-- 2^SIZE of a ring, 16 to 1,024 (R129, R156). -/
def ringSize (v : Nat) : Nat := 2 ^ min 10 (max 4 v)

/-- LINK_TXIDX.DONE passes every completed slot up to the first that is not (R132). -/
def advanceDone : Nat → M Unit
  | 0 => nop
  | k + 1 => do
    let s ← getS
    let d := s.fld LINK_TXIDX_DONE
    if d ∈ s.dev.tx.doneSlots then
      modTx fun t => { t with doneSlots := t.doneSlots.erase d }
      setFld LINK_TXIDX_DONE ((d + 1) % ringSize (s.fld LINK_TXRING_SIZE))
      advanceDone k

/-- The completion goes to the descriptor's own slot, or into the host port's note (R132, R133, R423). -/
def reportDone (j : TxJob) (st : Nat) : M Unit := do
  let s ← getS
  let c := completionOf j st
  if j.kind = .ring then
    putBytes (s.fld LINK_TXRING_BASE * 16 + 16 * j.slot) c
    modTx fun t => { t with doneSlots := t.doneSlots ++ [j.slot] }
    advanceDone 1024
  else if 1 ≤ s.fld HOSTP_CFG_NOTE ∧ s.fld HOSTP_CFG_NOTE ≤ 2 then
    modDev fun d => { d with hostp := { d.hostp with txdone := d.hostp.txdone ++ [c] } }
  if st = stNoAck then
    count linkPage 0x03 3
    stat 0x0B
  perf linkPage 0x42 1
  emit linkPage 0xA3

/-- A relay is over before its frame is: an arriving frame forgets it, and one that was only to be relayed has no cells left
(R121, R126). -/
def detachRelay (id : Nat) : M Unit := modDev fun d =>
  let f (x : RxFrame) : RxFrame :=
    if x.relayJob = some id then { x with relayJob := none, cells := if x.verdict = some .both then x.cells else [] } else x
  { d with lanes := d.lanes.map fun e => (e.1, { e.2 with frame := e.2.frame.map f, mics := e.2.mics.map f }) }

/-- A relay lets its cells go: sent, refused or cancelled (R126). -/
def relayGone (j : TxJob) : M Unit := do
  detachRelay j.id
  forAll j.cells (dropHold j.id)

/-- End a transmission for good: its report or its counter, and its cells. An acknowledgement or relay that was refused,
late or failed counts under R63 and R173, one whose ramp could not start as RELAY_LATE whatever its status (R523); a beacon as BCN_MISS (R166). -/
def finishJob (j : TxJob) (st : Nat) : M Unit := do
  let s ← getS
  setJobs (s.jobs.filter fun k => k.id != j.id && !(k.kind == .strobe && k.parent == j.id))
  match j.kind with
  | .ring | .host =>
    reportDone j st
    releaseCells j.cells
  | .mgmt => releaseCells j.cells
  | .ack =>
    if st = stOk then
      count linkPage 0x03 2
      stat 0x09
  | .relay =>
    relayGone j
    if st = stOk then
      count floodPage 0x01 0
      stat 0x0C
      if j.repeat_ then count floodPage 0x02 3
    else if stRegPower ≤ st ∧ st ≤ stRegTxtime then count floodPage 0x01 1
    else if st = stLate ∨ st = stInternal ∨ st = stState ∨ (st = stAborted ∧ j.stage = .checked) then
      count floodPage 0x01 2
  | .beacon =>
    releaseCells j.cells
    if st = stOk then count floodPage 0x04 1
    else
      count floodPage 0x04 2
      stat 0x13
  | .strobe | .carrier => nop

/-- Cancel an acknowledgement or relay that will not be sent: no report, its cells let go. -/
def cancelJob (j : TxJob) : M Unit := do
  dropJob j.id
  if j.kind = .relay then relayGone j else releaseCells j.cells

/-! ### A transmission in the air -/

/-- The transmission whose PA is on. -/
def State.onAir (s : State) : Option TxJob := s.jobs.find? fun j => j.stage == .ramping || j.stage == .onAir

/-- TX_ACTIVE rises or falls (R24, R329). -/
def setTxActive (b : Bool) : M Unit := do
  let s ← getS
  if !b then modTx fun t => { t with air := none }
  if s.bit RCTL_STAT_TXACT != b then
    setFld RCTL_STAT_TXACT (b2n b)
    emit txpPage (if b then 0xBA else 0xBB)

/-- The scrambler seed of a frame the device originates on an OFDM lane: the counter's value, which then advances; the frames
of an FSK lane have none and leave it (R105; log entry 116). -/
def takeSeed (lane : Nat) : M Nat := do
  let s ← getS
  if s.isOfdm lane then
    modTx fun t => { t with seed := (t.seed + 1) % 4 }
    return s.dev.tx.seed
  else return 0

/-- A transmission as it goes on the air (R100–R105): FSK with its lane's SFD for its coding, 4-FSK at an index of 0.33. -/
def State.airFrame (s : State) (j : TxJob) : AirFrame :=
  if s.isOfdm j.lane then { mcs := j.mcs, seed := j.seed, psdu := psduOf j.fcs2 false j.octets }
  else
    let psdu := psduOf j.fcs2 j.white j.octets
    { preamble := j.pre
      sfd := s.fld (if j.coded then LANES_SFD_SFD1 j.lane else LANES_SFD_SFD0 j.lane)
      hidx := if s.lanePhy j.lane = 1 then 33 else j.hidx
      psdu := psdu
      bits := fskBits j.coded j.fcs2 j.white psdu }

/-- End the transmission in the air early, PA off (R26, R58, R523): it completes with a status. A strobe's frame ends with
it. Answers whether one was ended. -/
def cutAir (st : Nat) : M Bool := do
  let s ← getS
  match s.onAir with
  | none => return false
  | some j =>
    setTxActive false
    if j.kind = .carrier then
      setFld TXP_TEST_CW 0
      dropJob j.id
    else if j.kind = .strobe then
      dropJob j.id
      match s.job j.parent with
      | some p => finishJob p st
      | none => nop
    else finishJob j st
    return true

end Sys2Proof.Machine
end

