-- ==== Sys2Proof/Machine/Keys.lean ====
section
/-!
DEFINITION. Key slots, the key map, the peer table as frames use it, the outgoing frame counter, and securing and checking
frames on page P0 (R135, R143–R145, R214–R231).
-/
namespace Sys2Proof.Machine
open Sys2Proof.Reg

/-! ### Peer table (R135, R143, R145) -/

/-- Word w of peer entry i. -/
def State.peerW (s : State) (i w : Nat) : Word := s.word .peer (8 * i + w)

/-- Firmware has written word w of entry i in the present link tick: the hardware's update leaves it (R145). -/
def State.peerFirm (s : State) (i w : Nat) : Bool :=
  s.dev.peerWr.any fun x => x.1 == s.dev.time.link && x.2.1 == i && bitOf x.2.2 w

/-- The hardware writes a word of a peer entry (R144, R145). -/
def setPeer (i w : Nat) (v : Word) : M Unit := do
  let s ← getS
  if !s.peerFirm i w then act (.tab .peer (8 * i + w) v)

/-- Replace bits hi:lo of a word of a peer entry. -/
def setPeerBits (i w hi lo v : Nat) : M Unit := do
  let s ← getS
  setPeer i w (bitsPut (s.peerW i w) hi lo v)

/-- A bit of word 0 of a peer entry. -/
def State.peerBit (s : State) (i b : Nat) : Bool := bitOf (s.peerW i 0).toNat b

/-- The entry a short address hits (R135). -/
def State.peerHit (s : State) (a : Addr) : Option Nat :=
  match a with
  | .short x =>
    let i := x % 4096
    if s.peerBit i 31 && bitsGet (s.peerW i 0) 15 0 == x then some i else none
  | _ => none

/-- The extended address of a peer entry (R143). -/
def State.peerExt (s : State) (i : Nat) : Nat := (s.peerW i 4).toNat + (s.peerW i 5).toNat * 2 ^ 32

/-- The node's own extended address (R159). -/
def State.ownExt (s : State) : Nat := (s.reg FILT_EXTLO).toNat + (s.reg FILT_EXTHI).toNat * 2 ^ 32

/-- A write of PEER_WCMD: the words of the mask, in one link tick, in which they win over the hardware's (R145). -/
def peerWrite (v : Word) : M Unit := do
  let i := bitsGet v 11 0
  modDev fun d => { d with peerWr := (d.time.link, i, bitsGet v 31 24) :: d.peerWr.filter fun x => x.1 == d.time.link }
  forAll (onesOf 8 (bitsGet v 31 24)) fun w => do
    let s ← getS
    let x := s.reg (PEER_WD w)
    act (.tab .peer (8 * i + w) <|
      if w = 0 then bitsPut x 25 24 0 else if w = 3 then bitsPut x 15 0 0 else x)

/-- PEER_WRITE (R145). -/
def execPeerWrite (v : Word) (s : State) : Host.Outcome State Fault Refusal := cmd s (peerWrite v)

/-! ### Key slots (R214–R217) -/

def State.slot (s : State) (i : Nat) : KeySlot := Sparse.val {} s.dev.keys i
def setSlot (i : Nat) (k : KeySlot) : M Unit :=
  modDev fun d => { d with keys := Sparse.set (fun _ => {}) d.keys i k }

/-- The usage bits of R215. -/
abbrev useFrame : Nat := 0
abbrev useRaw : Nat := 1
abbrev useCmac : Nat := 2

/-- A slot's key for a use on a page (R216); slot 0 serves CMAC on P2 only (R214). -/
def State.keyFor (s : State) (slot use page : Nat) : Option (List Byte) :=
  let k := s.slot slot
  if k.valid && bitOf k.usage use && bitOf k.mask page then some k.key else none

/-- The key map entry that a mode, index and key source match first (R221). -/
def State.kmapFind (s : State) (mode idx : Nat) (src : List Byte) : Option Nat :=
  ((List.range 8).find? fun i =>
    s.bit (CIPH0_KMAP_CTL_VALID i) && s.fld (CIPH0_KMAP_CTL_MODE i) == mode
      && s.fld (CIPH0_KMAP_CTL_KEYIDX i) == idx
      && (mode != 2 || (s.reg (CIPH0_KMAP_SRCLO i)).toNat == leNat src)
      && (mode != 3 || (s.reg (CIPH0_KMAP_SRCLO i)).toNat + (s.reg (CIPH0_KMAP_SRCHI i)).toNat * 2 ^ 32 == leNat src)).map
    fun i => s.fld (CIPH0_KMAP_CTL_SLOT i)

/-- The slot a frame's key identifier names, the peer entry supplying the index in mode 0 (R221). -/
def State.frameSlot (s : State) (m : Mac) (peer : Option Nat) : Option Nat :=
  let idx := if m.kim = 0 then (match peer with | some i => bitsGet (s.peerW i 2) 23 16 | none => 0) else m.kidx
  s.kmapFind m.kim idx m.ksrc

/-- The 13-octet nonce of a frame (R220). -/
def frameNonce (ext fcnt level : Nat) : List Byte := beBytes 8 ext ++ beBytes 4 fcnt ++ beBytes 1 level

/-- The authenticated header: the HOPCNT octets of a flood header IE read as zero (R171, R219). -/
def authHeader (l : List Byte) (m : Mac) : List Byte :=
  let h := l.take m.hdrLen
  match floodIe l m with
  | some f => patch h (f.at_ + 8) [0, 0]
  | none => h

/-- A frame secured under a key: `l` leaves room for the MIC at its end (R219, R225; log entry 29). -/
def secureFrame (key nonce : List Byte) (l : List Byte) (m : Mac) : List Byte :=
  let n := micLen m.level
  let h := l.take m.hdrLen
  let priv := (l.drop m.hdrLen).take (l.length - m.hdrLen - n)
  if 4 ≤ m.level then
    h ++ ccmCrypt key nonce priv ++ ccmTag key nonce (authHeader l m) priv n
  else h ++ priv ++ ccmTag key nonce (authHeader l m ++ priv) [] n

/-- Check a secured frame without its FCS: its plaintext octets without MIC, and whether the MIC passes (R219, R222). -/
def openFrame (key nonce : List Byte) (l : List Byte) (m : Mac) : List Byte × Bool :=
  let n := micLen m.level
  let body := (l.drop m.hdrLen).take (l.length - m.hdrLen - n)
  let mic := l.drop (l.length - n)
  if l.length < m.hdrLen + n then (l, false)
  else if 4 ≤ m.level then
    let p := ccmCrypt key nonce body
    (l.take m.hdrLen ++ p, mic == ccmTag key nonce (authHeader l m) p n)
  else (l.take m.hdrLen ++ body, mic == ccmTag key nonce (authHeader l m ++ body) [] n)

/-! ### Outgoing frame counter (R227–R231) -/

/-- FCSTAT follows FCNT and RES (R229, R236); LOW's rise fires EV_FCNT_LOW and IRQ_CIPH. -/
def fcFlags : M Unit := do
  let s ← getS
  let n := s.fld CIPH0_FCNT_FCNT
  let r := s.fld CIPH0_FCRES_RES
  let ok := s.bit CIPH0_FCSTAT_FCVALID
  let low := ok && decide (r ≤ n + 2048)
  setFld CIPH0_FCSTAT_LIMIT (b2n (ok && n == r))
  setFld CIPH0_FCSTAT_EXHAUSTED (b2n (n == 0xFFFFFFFF))
  setFld CIPH0_FCSTAT_LOW (b2n low)
  if low && !s.bit CIPH0_FCSTAT_LOW then
    emit (ciphPage 0) 0xA7
    pulse 44

/-- A write of CIPH0_FCRES from a ROM address (R228, R236). -/
def fcResWrite (v : Word) : M Unit := do
  wr CIPH0_FCRES v
  fcFlags

/-- Take the next outgoing counter, or none (R225, R231). -/
def takeFcnt : M (Option Nat) := do
  let s ← getS
  let n := s.fld CIPH0_FCNT_FCNT
  if !s.bit CIPH0_FCSTAT_FCVALID || n == s.fld CIPH0_FCRES_RES || n == 0xFFFFFFFF then
    count (ciphPage 0) 0x02 2
    return none
  else
    setFld CIPH0_FCNT_FCNT (n + 1)
    fcFlags
    return some n

/-- Secure an outgoing frame's octets (R213, R225): the octets sent and the counter used, or the status it completes
with. -/
def secureTx (l : List Byte) : M (Except Nat (List Byte × Nat)) := do
  let s ← getS
  let m := parseMac l
  if !s.en (ciphPage 0) then return .error stState
  else if !m.ok || !m.sec || m.unsupported || decide (l.length < m.hdrLen + micLen m.level) then return .error stParam
  else
    match (s.frameSlot m (s.peerHit m.dst)).bind fun i => s.keyFor i useFrame 0 with
    | none =>
      count (ciphPage 0) 0x02 1
      return .error stKey
    | some key =>
      match ← takeFcnt with
      | none => return .error stLocked
      | some n =>
        count (ciphPage 0) 0x02 0
        let l := patch l (m.auxAt + 1) (leBytes 4 n)
        let blocks := ccmBlocks m.hdrLen (l.length - m.hdrLen - micLen m.level)
        perf (ciphPage 0) 0x40 blocks
        return .ok (secureFrame key (frameNonce s.ownExt n m.level) l m, n)

end Sys2Proof.Machine
end

