-- ==== Sys2Proof/Machine/Cipher.lean ====
section
/-!
DEFINITION. The cipher pages as general engines: who owns a page, binding, and the operations of CIPHn_OP (R208–R218,
R232–R234).
-/
namespace Sys2Proof.Machine
open Sys2Proof.Reg

/-! ### Ownership (R208–R210) -/

/-- Is the core in SYS mode (R239)? -/
def State.sysMode (s : State) : Bool := bitOf s.core.st.toNat 0

/-- May a master use offsets 0x800 upwards of a page (R208, R210)? P0 belongs to the link controller alone. -/
def State.ciphOwner (s : State) (m : Master) (n : Nat) : Bool :=
  match n, m with
  | 0, _ => false
  | 1, m => m == .host
  | 2, m => m == .core true
  | n, .core _ => s.fld (CIPH_OWNER_MASTER n) == 1 && (!s.bit (CIPH_OWNER_PRIV n) || s.sysMode)
  | n, .dma k => s.fld (CIPH_OWNER_MASTER n) == 8 + k.val
  | _, .host => false

/-- May a master write CIPHn_OWNER (R209)? -/
def State.mayBind (s : State) (m : Master) (n : Nat) : Bool :=
  match m with
  | .core _ => decide (3 ≤ n) && s.sysMode && (s.fld (CIPH_OWNER_MASTER n) == 0 || s.ciphOwner m n)
  | _ => false

def State.ciph (s : State) (n : Nat) : CiphPage := Sparse.val {} s.dev.ciph n
def modCiph (n : Nat) (f : CiphPage → CiphPage) : M Unit :=
  modDev fun d => { d with ciph := Sparse.upd {} d.ciph n f }

/-- Clear a page's data registers; an operation or a chain in progress goes with them (R209, R213). -/
def clearCiph (n : Nat) : M Unit := do
  act (.regClear fun a => decide (ciphPage n + 0x800 ≤ a) && decide (a < ciphPage n + 0x1000))
  modCiph n fun _ => {}

/-- A write to CIPHn_OWNER (R209, R235): the fixed owners of P0–P2 are read-only, and a write of them does nothing (R308). -/
def pageBind (m : Master) (n : Nat) (v : Word) : M Unit := do
  let s ← getS
  if n < 3 then nop
  else if !s.mayBind m n then setFlt (ciphPage n) fltState
  else if s.en (ciphPage n) then
    setFltAt (ciphPage n) fltWign (CIPH_OWNER n)
    perf (ciphPage n) 0x03 1
  else
    clearCiph n
    wr (CIPH_OWNER n) v
    goodParity (CIPH_OWNER n)

/-- PAGE_BIND (R209). -/
def execPageBind (m : Master) (n : Fin 8) (v : Word) (s : State) : Host.Outcome State Fault Refusal :=
  cmd s (pageBind m n.val v)

/-! ### Addresses (R233) -/

/-- Do n octets from an address lie in a range? -/
def within (a n lo hi : Nat) : Bool := decide (lo ≤ a) && decide (a + n ≤ hi)

/-- Do n octets lie in main SRAM, or in cells that the page's side owns (R233)? An empty input touches nothing. -/
def State.ciphAddr (s : State) (side a n : Nat) : Bool :=
  n == 0 || within a n 0x20000000 0x20080000
    || (within a n 0x21000000 0x21020000
      && (List.range ((a % 256 + n - 1) / 256 + 1)).all fun i =>
        (s.cell ((a - 0x21000000) / 256 + i)).owner == side)

/-- May CMAC read n octets from an address: also on-chip flash and the external window, where fitted (R233, R271)? -/
def State.cmacAddr (s : State) (side a n : Nat) : Bool :=
  let size (k : Nat) : Nat :=
    let z := s.fld (XSPI_CS_CFG_SIZE k)
    if 3 ≤ z ∧ z ≤ 6 then 2 ^ (z + 20) else 0
  s.ciphAddr side a n || within a n 0x01000000 0x01400000
    || within a n 0x30000000 (0x30000000 + size 0) || within a n 0x34000000 (0x34000000 + size 1)

/-- The side a page's cells belong to (R233). -/
def ciphSide (n : Nat) : Nat := if n = 1 then ownHost else ownCore

/-! ### Operations (R232) -/

/-- A CMAC chain between its parts is the running value and the last block, which is kept back until it is known
whether it ends the message (R234). -/
def chainStart : List Byte := List.replicate 16 0

/-- Fold a further part into a chain, keeping its last block back. -/
def chainAdd (key ch part : List Byte) : List Byte :=
  let l := ch.drop 16 ++ part
  cmacFold key (ch.take 16) (l.take (l.length - 16)) ++ l.drop (l.length - 16)

/-- A refused operation (R216: no other effect); a CMAC chain stays as it was. -/
def ciphRefuse (ch : Option (List Byte)) (st : Nat) : CiphJob := { status := st, chain := ch }

/-- The octets of CIPHn_NONCE or CIPHn_TAG (R235). -/
def State.ciphOctets (s : State) (base : Nat) (n : Nat) : List Byte :=
  ((List.range 4).flatMap fun k => leBytes 4 (s.reg (base + 4 * k)).toNat).take n

/-- FRAME_DEC (R219, R220, R232): the header as it is, the private data in the clear, without the MIC (log entry 42). -/
def State.frameDec (s : State) (n slot : Nat) : CiphJob :=
  let src := (s.reg (CIPH_SRC n)).toNat
  let dst := (s.reg (CIPH_DST n)).toNat
  let len := (s.reg (CIPH_MLEN n)).toNat
  let side := ciphSide n
  let l := s.bytes src len
  let m := parseMac l
  let out := len - micLen m.level
  if n = 1 then ciphRefuse none stParam
  else if len = 0 ∨ 2045 < len then ciphRefuse none stLength
  else if !s.ciphAddr side src len then ciphRefuse none stParam
  else if !m.ok || !m.sec || m.unsupported || decide (len < m.hdrLen + micLen m.level) then ciphRefuse none stParam
  else if !s.ciphAddr side dst out then ciphRefuse none stParam
  else if decide (dst = src) && decide (0x21000000 ≤ src) && (s.cell ((src - 0x21000000) / 256)).hold then
    ciphRefuse none stState
  else
    match s.keyFor slot useFrame n with
    | none => ciphRefuse none stKey
    | some key =>
      let ext := match m.src with
        | .ext x => x
        | _ => leNat (s.ciphOctets (CIPH_NONCE n 0) 8)
      let r := openFrame key (frameNonce ext m.fcnt m.level) l m
      { status := if r.2 then stOk else stAuth, dst := dst, out := r.1,
        blocks := ccmBlocks m.hdrLen (len - m.hdrLen - micLen m.level) }

/-- The length of a CCM MIC (R235). -/
def tagLen (t : Nat) : Nat := if t = 0 then 0 else 2 * 2 ^ t

/-- CCM_ENC and CCM_DEC (R232): the authenticated data stands at SRC, the message behind it (log entry 41). -/
def State.ccmOp (s : State) (n slot : Nat) (tlen : Nat) (enc : Bool) : CiphJob :=
  let src := (s.reg (CIPH_SRC n)).toNat
  let dst := (s.reg (CIPH_DST n)).toNat
  let alen := (s.reg (CIPH_ALEN n)).toNat
  let len := (s.reg (CIPH_MLEN n)).toNat
  let side := ciphSide n
  if 65535 < len then ciphRefuse none stLength
  else if !s.ciphAddr side src (alen + len) || !s.ciphAddr side dst len then ciphRefuse none stParam
  else
    match s.keyFor slot useRaw n with
    | none => ciphRefuse none stKey
    | some key =>
      let nonce := s.ciphOctets (CIPH_NONCE n 0) 13
      let aad := s.bytes src alen
      let msg := s.bytes (src + alen) len
      let out := ccmCrypt key nonce msg
      let blocks := ccmBlocks alen len
      if enc then
        { status := stOk, dst := dst, out := out, blocks := blocks,
          tag := some (sliceOf (ccmTag key nonce aad msg tlen) 0 16) }
      else
        let ok := s.ciphOctets (CIPH_TAG n 0) tlen == ccmTag key nonce aad out tlen
        { status := if ok then stOk else stAuth, dst := dst, out := out, blocks := blocks }

/-- CMAC and CMAC_VERIFY, whole or in parts (R232, R234); the two may share a chain (log entry 40). -/
def State.cmacOp (s : State) (n slot part : Nat) (verify : Bool) : CiphJob :=
  let src := (s.reg (CIPH_SRC n)).toNat
  let len := (s.reg (CIPH_MLEN n)).toNat
  let old := (s.ciph n).chain
  if (part = 1 ∨ part = 2) ∧ (len = 0 ∨ len % 16 ≠ 0) then ciphRefuse old stLength
  else if 2 ≤ part ∧ old = none then ciphRefuse old stState
  else if !s.cmacAddr (ciphSide n) src len then ciphRefuse old stParam
  else
    match s.keyFor slot useCmac n with
    | none => ciphRefuse old stKey
    | some key =>
      let l := s.bytes src len
      let blocks := max 1 (ceilDiv len 16)
      let ch := if 2 ≤ part then old.getD chainStart else chainStart
      if part = 1 ∨ part = 2 then { status := stOk, blocks := blocks, chain := some (chainAdd key ch l) }
      else
        let t := cmacFinish key (ch.take 16) (ch.drop 16 ++ l)
        if verify then
          { status := if t == s.ciphOctets (CIPH_TAG n 0) 16 then stOk else stAuth, blocks := blocks }
        else { status := stOk, blocks := blocks, tag := some t }

/-- What a wrapped blob gives (R215): the slot and its content, or the status it completes with. -/
def State.unwrapBlob (s : State) (blob : List Byte) : Except Nat (Nat × KeySlot) :=
  let kek := s.slot 0
  if blob.length ≠ 56 then .error stLength
  else if !kek.valid then .error stKey
  else
    match kwUnwrap kek.key blob with
    | none => .error stAuth
    | some r =>
      let o (i : Nat) : Nat := (octet r i).toNat
      let bad := o 0 < 8 ∨ 63 < o 0 ∨ 8 ≤ o 2 ∨ 1 < o 3 ∨ ((List.range 8).any fun i => o (8 + i) ≠ 0)
        ∨ (o 3 = 1 ∧ o 2 % 4 ≠ 0) ∨ (o 3 = 0 ∧ (List.range 16).any fun i => o (32 + i) ≠ 0)
      if bad then .error stParam
      else .ok (o 0, { valid := true, mask := o 1, usage := o 2, size := o 3, label := leNat (sliceOf r 4 4)
                       key := sliceOf r 16 (if o 3 = 0 then 16 else 32) })

/-- UNWRAP (R215, R232, R237): under slot 0 only. -/
def State.unwrapOp (s : State) (n slot : Nat) : CiphJob :=
  let src := (s.reg (CIPH_SRC n)).toNat
  if (s.reg (CIPH_MLEN n)).toNat ≠ 56 then ciphRefuse none stLength
  else if !s.ciphAddr (ciphSide n) src 56 then ciphRefuse none stParam
  else if slot ≠ 0 then ciphRefuse none stKey
  else
    match s.unwrapBlob (s.bytes src 56) with
    | .error st => { status := st, blocks := if st = stKey then 0 else 36 }
    | .ok f => { status := stOk, blocks := 36, fill := some f }

/-- KEY_ERASE (R216, R232). -/
def State.keyEraseOp (s : State) (n slot : Nat) : CiphJob :=
  let k := s.slot slot
  if slot < 8 then ciphRefuse none stParam
  else if !k.valid || !bitOf k.mask n then ciphRefuse none stKey
  else { status := stOk, fill := some (slot, {}) }

/-- The operation CIPHn_OP asks for, over the inputs as they stand (R217, R232; log entry 27). -/
def State.ciphPlan (s : State) (n : Nat) (v : Word) : CiphJob :=
  let slot := bitsGet v 13 8
  match bitsGet v 2 0 with
  | 1 => s.frameDec n slot
  | 2 => s.ccmOp n slot (tagLen (bitsGet v 21 20)) true
  | 3 => s.ccmOp n slot (tagLen (bitsGet v 21 20)) false
  | 4 => s.cmacOp n slot (bitsGet v 27 26) false
  | 5 => s.cmacOp n slot (bitsGet v 27 26) true
  | 6 => s.unwrapOp n slot
  | 7 => s.keyEraseOp n slot
  | _ => ciphRefuse (s.ciph n).chain stParam

/-- A write of CIPHn_OP with START (R210, R212): refused to other masters and while an operation runs. P3–P7 serve
their owner while enabled (R13; log entry 21). What a failed check leaves at the destination is open (log entry 43). -/
def ciphStart (m : Master) (n : Nat) (v : Word) : M Unit := do
  let s ← getS
  if !s.ciphOwner m n || s.bit (CIPH_RESULT_BUSY n) then setFlt (ciphPage n) fltState
  else
    wr (CIPH_OP n) (bitsPut v 31 31 0)
    if n < 3 || s.en (ciphPage n) then
      let j := s.ciphPlan n v
      let out ← if j.status = stOk then pure j.out else freeBytes j.out.length
      setFld (CIPH_RESULT_BUSY n) 1
      modCiph n fun p => { p with job := some { j with out := out } }

/-- The operation of a page completes (R212). -/
def ciphDone (n : Nat) : M Unit := do
  let s ← getS
  match (s.ciph n).job with
  | none => nop
  | some j =>
    putBytes j.dst j.out
    match j.tag with
    | some t => forAll (List.range 4) fun k => wr (CIPH_TAG n k) (wordOf (sliceOf t (4 * k) 4))
    | none => nop
    match j.fill with
    | some f => setSlot f.1 f.2
    | none => nop
    modCiph n fun _ => { job := none, chain := j.chain }
    wr (CIPH_RESULT n) (BitVec.ofNat 32 (min 0x7FFFFF j.blocks * 256 + j.status % 256))
    perf (ciphPage n) 0x40 j.blocks
    emit (ciphPage n) (0xA8 + n)
    pulse (44 + n)

/-- The written value with the row's operation in OP. -/
def withOp (v : Word) (op : Nat) : Word := bitsPut v 2 0 op

/-- FRAME_DEC (R232). -/
def execFrameDec (m : Master) (n : Fin 8) (v : Word) (s : State) : Host.Outcome State Fault Refusal :=
  cmd s (ciphStart m n.val (withOp v 1))

/-- CCM_ENC (R232). -/
def execCcmEnc (m : Master) (n : Fin 8) (v : Word) (s : State) : Host.Outcome State Fault Refusal :=
  cmd s (ciphStart m n.val (withOp v 2))

/-- CCM_DEC (R232). -/
def execCcmDec (m : Master) (n : Fin 8) (v : Word) (s : State) : Host.Outcome State Fault Refusal :=
  cmd s (ciphStart m n.val (withOp v 3))

/-- CMAC (R232, R234). -/
def execCmac (m : Master) (n : Fin 8) (v : Word) (s : State) : Host.Outcome State Fault Refusal :=
  cmd s (ciphStart m n.val (withOp v 4))

/-- CMAC_VERIFY (R232, R234). -/
def execCmacVerify (m : Master) (n : Fin 8) (v : Word) (s : State) : Host.Outcome State Fault Refusal :=
  cmd s (ciphStart m n.val (withOp v 5))

/-- UNWRAP (R215, R232). -/
def execUnwrap (m : Master) (n : Fin 8) (v : Word) (s : State) : Host.Outcome State Fault Refusal :=
  cmd s (ciphStart m n.val (withOp v 6))

/-- KEY_ERASE (R216, R232). -/
def execKeyErase (m : Master) (n : Fin 8) (v : Word) (s : State) : Host.Outcome State Fault Refusal :=
  cmd s (ciphStart m n.val (withOp v 7))

/-- CIPHER_OP_DONE (R212). -/
def execCipherOpDone (n : Fin 8) (s : State) : Host.Outcome State Fault Refusal := cmd s (ciphDone n.val)

end Sys2Proof.Machine
end

