-- ==== Sys2Proof/Machine/Otp.lean ====
section
/-!
DEFINITION. OTP: its records, the thermometers, what resets load from it, and the operations of the OTPC page (R59–R61,
R214, R361–R363, R401, R414–R418, R441).
-/
namespace Sys2Proof.Machine
open Sys2Proof.Reg

/-! ### Rows and records -/

/-- A row of OTP (R414). -/
def State.otpRow (s : State) (off : Nat) : List Byte := s.otpBytes off 16

/-- A row has been programmed: it holds a 1, or an earlier program failed to verify (R414, R417). -/
def State.otpUsed (s : State) (off : Nat) : Bool := (s.otpRow off).any (· != 0) || decide (off ∈ s.dev.otpBad)

/-- Is a record generation valid: VALID set and its check bits good (R59, R361, R417)? -/
def State.genValid (s : State) (off : Nat) : Bool := bitOf (octet (s.otpRow off) 3).toNat 7 && !decide (off ∈ s.dev.otpBad)

/-- The newest valid generation of the record at `base`: the one with the highest number (R60, R362). -/
def State.newestGen (s : State) (base : Nat) : Option Nat := ([3, 2, 1, 0] : List Nat).find? fun g => s.genValid (base + 16 * g)

/-- Its row; zero if none is valid. -/
def State.newestRow (s : State) (base : Nat) : List Byte :=
  match s.newestGen base with
  | some g => s.otpRow (base + 16 * g)
  | none => List.replicate 16 0

/-- The first generation never programmed. -/
def State.blankGen (s : State) (base : Nat) : Option Nat := (List.range 4).find? fun g => !s.otpUsed (base + 16 * g)

/-- Where the governor record and profile p's record stand (R414). -/
abbrev govBase : Nat := 0x040
def regBase (p : Nat) : Nat := 0x080 + 64 * p

/-- The lifecycle: BLANK 0, DEV 1, FIELD 2, RETIRED 3 (R416). -/
def State.lifecycle (s : State) : Nat :=
  let o := (s.otpByte 0x010).toNat
  if bitOf o 2 then 3 else if bitOf o 1 then 2 else if bitOf o 0 then 1 else 0

/-- The number of consecutive 1 bits of a number from bit 0 upwards, at most k. -/
def onesFrom (v : Nat) : Nat → Nat → Nat
  | 0, _ => 0
  | k + 1, i => if bitOf v i then 1 + onesFrom v k (i + 1) else 0

/-- The lifecycle in force: as the last start reset took it (R413, R417). -/
def State.lc (s : State) : Nat := s.fld SYS_LIFECYCLE_LC

/-- The anti-rollback counter (R401, R416). -/
def State.arb (s : State) : Nat := onesFrom (leNat (s.otpBytes 0x020 8)) 63 0

/-! ### What resets load -/

/-- The largest r with r² ≤ n among r ≤ `r + k`, counting down from r + k. -/
def sqrtBelow (n : Nat) : Nat → Nat
  | 0 => 0
  | r + 1 => if (r + 1) * (r + 1) ≤ n then r + 1 else sqrtBelow n r

/-- V_ceil in mV (R363). -/
def vceil (eMax cDecl : Nat) : Nat := if cDecl = 0 then 0 else sqrtBelow (20000000 * eMax / cDecl) 5500

/-- The governor takes its record (R362, R363); without one its state is NOREC unless the lockout stands. -/
def loadGov : M Unit := do
  let s ← getS
  let r := s.newestRow govBase
  forAll (List.range 3) fun w => wr (GOV_REC w) (wordOf (sliceOf r (4 * w) 4))
  let w0 := wordOf r
  setFld GOV_VCEIL_VCEIL (vceil (bitsGet w0 27 16) (bitsGet w0 15 0))
  let st ← fld GOV_STAT_STATE
  if st ≠ 6 then setFld GOV_STAT_STATE (if bitOf w0.toNat 31 then 0 else 7)

/-- TXP_PROF0–3 from OTP, and PROFILE and LOCK from the latch in the AO region (R61). -/
def loadProfiles : M Unit := do
  let s ← getS
  forAll (List.range 4) fun p =>
    forAll (List.range 4) fun w => wr (TXP_PROF p w) (wordOf (sliceOf (s.newestRow (regBase p)) (4 * w) 4))
  match s.dev.radio.profLatch with
  | some p =>
    setFld TXP_CFG_PROFILE p
    setFld TXP_CFG_LOCK 1
  | none => nop

/-- The identity and the factory calibration into the shadows (R414, R417). -/
def loadIdentity : M Unit := do
  let s ← getS
  modDev fun d => { d with sys := { d.sys with ident := s.otpRow 0x000, calib := s.otpRow 0x030 } }

/-- The extended address from the identity shadow (R159, R414). -/
def showExt : M Unit := do
  let s ← getS
  wr FILT_EXTLO (wordOf (sliceOf s.dev.sys.ident 0 4))
  wr FILT_EXTHI (wordOf (sliceOf s.dev.sys.ident 4 4))

/-- The registers whose reset values are the shadows' (R414). -/
def showIdentity : M Unit := do
  let s ← getS
  let i := s.dev.sys.ident
  let c := s.dev.sys.calib
  showExt
  setFld SYS_LIFECYCLE_HWREV (octet i 8).toNat
  setFld RCTL_TXLAT_TICKS (leNat (sliceOf c 0 2))
  setFld RXFE_CAL_OFFSET (leNat (sliceOf c 2 2))
  setFld ADC_TCAL_TC25 (leNat (sliceOf c 4 2))
  setFld ADC_TCAL_TC85 (leNat (sliceOf c 6 2))

/-- SYS_LIFECYCLE shows the lifecycle and the anti-rollback counter (R413). -/
def showLifecycle : M Unit := do
  let s ← getS
  setFld SYS_LIFECYCLE_LC s.lifecycle
  setFld SYS_LIFECYCLE_ARB s.arb

/-- A sealed slot as OTP gives it (R214, R415); an empty slot where nothing valid stands. -/
def State.sealed (s : State) (i : Nat) : KeySlot :=
  let k := s.otpBytes (0x200 + 32 * i) 32
  let a := s.otpRow (0x180 + 16 * i)
  let o (j : Nat) : Nat := (octet a j).toNat
  if k.all (· == 0) ∨ (0x200 + 32 * i) ∈ s.dev.otpBad ∨ (0x210 + 32 * i) ∈ s.dev.otpBad then {}
  else if i = 0 then { valid := true, mask := 4, usage := 4, size := 1, key := k }
  else if i < 3 then { valid := true, mask := 6, usage := 4, size := 1, key := k }
  else if i = 3 then { valid := true, mask := 7, usage := 5, size := 0, key := k.take 16 }
  else if !bitOf (o 0) 0 ∨ (0x180 + 16 * i) ∈ s.dev.otpBad ∨ (o 1 = 1 ∧ o 2 % 4 ≠ 0) then {}
  else { valid := true, mask := o 3, usage := o 2, size := o 1, label := leNat (sliceOf a 4 4)
         key := if o 1 = 0 then k.take 16 else k }

/-- The sealed slots are loaded, the volatile ones are empty (R218, R415). -/
def loadKeys : M Unit := do
  modDev fun d => { d with keys := [] }
  let s ← getS
  forAll (List.range 8) fun i => setSlot i (s.sealed i)

/-! ### The OTPC page (R417) -/

/-- A regulatory generation is equal to or stricter than another (R60). -/
def regStricter (n o : List Byte) : Bool :=
  let w (l : List Byte) (k : Nat) : Word := wordOf (sliceOf l (4 * k) 4)
  decide (bitsGet (w o 0) 19 0 ≤ bitsGet (w n 0) 19 0) && decide (bitsGet (w n 1) 19 0 ≤ bitsGet (w o 1) 19 0)
    && decide (bitsGet (w n 2) 31 16 ≤ bitsGet (w o 2) 31 16)
    && decide (signed 8 (w n 2).toNat ≤ signed 8 (w o 2).toNat)
    && decide (bitsGet (w n 3) 15 0 ≤ bitsGet (w o 3) 15 0)

/-- A governor generation is equal to or stricter than another (R362). -/
def govStricter (n o : List Byte) : Bool :=
  let w (l : List Byte) (k : Nat) : Word := wordOf (sliceOf l (4 * k) 4)
  decide (bitsGet (w n 0) 27 16 ≤ bitsGet (w o 0) 27 16) && decide (bitsGet (w o 0) 15 0 ≤ bitsGet (w n 0) 15 0)
    && decide (bitsGet (w n 1) 31 16 ≤ bitsGet (w o 1) 31 16) && decide (bitsGet (w n 1) 9 0 ≤ bitsGet (w o 1) 9 0)
    && decide (bitsGet (w o 2) 31 16 ≤ bitsGet (w n 2) 31 16) && decide (bitsGet (w n 2) 6 0 ≤ bitsGet (w o 2) 6 0)

/-- Who writes, as R441 tells writers apart: 0 the host port, 1 the monitor, 2 the Stroke core in SYS mode, 3 another. -/
def State.otpWriter (s : State) (m : Master) : Nat :=
  match m with
  | .host => 0
  | .dma _ => 3
  | .core _ =>
    if s.dev.sys.phase = .monitor ∨ s.dev.sys.phase = .factory then 1
    else if bitOf s.core.st.toNat 0 then 2 else 3

/-- May the writer perform the operation in this lifecycle (R441)? The ROM alone raises the counter, not the monitor that
runs in it (R401). -/
def State.otpMay (s : State) (m : Master) (op : Nat) : Bool :=
  let w := s.otpWriter m
  if op = 6 then m == .core true && s.dev.sys.phase == .rom
  else match s.lc with
    | 0 => w == 0 || w == 1
    | 1 => decide (w ≤ 2)
    | 2 => w == 2 && op != 2
    | _ => false

/-- OTPC_WD0–3 as the octets of a row (R418). -/
def State.otpWd (s : State) : List Byte := (List.range 4).flatMap fun k => leBytes 4 (s.reg (OTPC_WD k)).toNat

/-- Is a row one of a slot's key rows, and of which slot (R414)? -/
def keyRow (off : Nat) : Option Nat := if 0x200 ≤ off ∧ off < 0x300 then some ((off - 0x200) / 32) else none

/-- Is a row a slot's attribute row, and of which slot? -/
def attrRow (off : Nat) : Option Nat := if 0x180 ≤ off ∧ off < 0x200 then some ((off - 0x180) / 16) else none

/-- PROGRAM breaks the key-slot order of R415. -/
def State.keyOrderBad (s : State) (off : Nat) : Bool :=
  match attrRow off, keyRow off with
  | some i, _ => !s.otpUsed (0x200 + 32 * i) && !s.otpUsed (0x210 + 32 * i)
  | _, some i => s.otpUsed (0x180 + 16 * i)
  | _, _ => false

/-- The checks of R417 in their order: the first failing one's status, else the row, the generation and the octets to be
programmed. -/
def State.otpCheck (s : State) (m : Master) (op vsys : Nat) : Except Nat (Nat × Nat × List Byte) :=
  let off := s.fld OTPC_ADDR_OFFSET
  let wd := s.otpWd
  let arb := (s.reg (OTPC_WD 0)).toNat % 64
  let base := if op = 3 then regBase (s.fld OTPC_ADDR_PROF) else govBase
  if !s.otpMay m op then .error stState
  else if op = 2 ∧ (off % 16 ≠ 0 ∨ (0x010 ≤ off ∧ off < 0x030) ∨ (0x040 ≤ off ∧ off < 0x1C0)) then .error stParam
  else if op = 6 ∧ arb < s.arb then .error stParam
  else if op = 2 ∧ s.otpUsed off then .error stLocked
  else if (op = 3 ∨ op = 4) ∧ s.blankGen base = none then .error stLocked
  else if op = 5 ∧ s.lifecycle = 3 then .error stLocked
  else if (op = 3 ∨ op = 4) ∧ (!bitOf (octet wd 3).toNat 7 ∨ (s.newestGen base ≠ none
      ∧ (if op = 3 then regStricter wd (s.newestRow base) else govStricter wd (s.newestRow base)) = false)) then
    .error stParam
  else if op = 2 ∧ s.keyOrderBad off then .error stState
  else if vsys < 3000 then .error stLowSupply
  else if op = 2 then .ok (off, 0, wd)
  else if op = 3 ∨ op = 4 then
    let g := (s.blankGen base).getD 0
    .ok (base + 16 * g, g, wd)
  else if op = 5 then .ok (0x010, 0, leBytes 1 (2 ^ s.lifecycle))
  else .ok (0x020, 0, leBytes 8 (2 ^ arb - 1))

/-- A write of OTPC_CMD (R417): ignored while an operation runs. A writer that R441 does not admit also sets FLT.STATE
(log entry 50). A row that does not verify is left with some of its bits programmed. -/
def otpStart (m : Master) (op vsys : Nat) (verified : Bool) : M Unit := do
  let s ← getS
  if s.bit OTPC_STAT_BUSY then setFlt otpcPage fltState
  else
    let off := s.fld OTPC_ADDR_OFFSET
    setFld OTPC_STAT_BUSY 1
    let job ←
      if op = 1 then
        if off % 16 ≠ 0 then pure { status := stParam }
        else if (keyRow off).isSome then pure { status := stKey, rd := List.replicate 16 0 }
        else pure { status := stOk, rd := if 0x300 ≤ off then List.replicate 16 0 else s.otpRow off }
      else if op = 0 ∨ op = 7 then pure { status := stParam }
      else match s.otpCheck m op vsys with
        | .error st => do
          if !s.otpMay m op then setFlt otpcPage fltState
          pure { status := st }
        | .ok (row, gen, data) =>
          if verified then pure { status := stOk, gen := gen, row := row, data := data }
          else do
            let k ← freeBytes data.length
            pure { status := stProgFail, gen := gen, row := row, data := List.zipWith (· &&& ·) data k }
    modDev fun d => { d with otpc := some job }

/-- Program octets of OTP from an offset upwards. -/
def otpPut : Nat → List Byte → M Unit
  | _, [] => nop
  | i, b :: l => do
    act (.otp i b)
    otpPut (i + 1) l

/-- An operation of OTPC completes (R417). -/
def otpDone : M Unit := do
  let s ← getS
  match s.dev.otpc with
  | none => nop
  | some j =>
    if j.rd ≠ [] then
      forAll (List.range 4) fun k => wr (OTPC_RD k) (wordOf (sliceOf j.rd (4 * k) 4))
    otpPut j.row j.data
    modDev fun d =>
      { d with otpc := none
               otpBad := if j.status = stProgFail ∧ j.row ≠ 0x010 ∧ j.row ≠ 0x020 then j.row :: d.otpBad else d.otpBad }
    if j.data ≠ [] ∧ (0x040 ≤ j.row ∧ j.row < 0x180) then setFld OTPC_STAT_GEN j.gen
    setFld OTPC_STAT_STATUS j.status
    setFld OTPC_STAT_BUSY 0
    setFld OTPC_STAT_DONE 1
    let t ← getS
    setFld SYS_LIFECYCLE_ARB t.arb

/-- OTP_READ (R417). -/
def execOtpRead (m : Master) (s : State) : Host.Outcome State Fault Refusal := cmd s (otpStart m 1 0 true)

/-- PROGRAM of OTPC (R417). -/
def execOtpProgram (m : Master) (vsys : Nat) (verified : Bool) (s : State) : Host.Outcome State Fault Refusal :=
  cmd s (otpStart m 2 vsys verified)

/-- APPEND_REG (R60, R417). -/
def execAppendReg (m : Master) (vsys : Nat) (verified : Bool) (s : State) : Host.Outcome State Fault Refusal :=
  cmd s (otpStart m 3 vsys verified)

/-- APPEND_GOV (R362, R417). -/
def execAppendGov (m : Master) (vsys : Nat) (verified : Bool) (s : State) : Host.Outcome State Fault Refusal :=
  cmd s (otpStart m 4 vsys verified)

/-- ADVANCE (R416, R417). -/
def execAdvance (m : Master) (vsys : Nat) (verified : Bool) (s : State) : Host.Outcome State Fault Refusal :=
  cmd s (otpStart m 5 vsys verified)

/-- RAISE_ARB (R401, R417). -/
def execRaiseArb (m : Master) (vsys : Nat) (verified : Bool) (s : State) : Host.Outcome State Fault Refusal :=
  cmd s (otpStart m 6 vsys verified)

/-- OTP_DONE (R417). -/
def execOtpDone (s : State) : Host.Outcome State Fault Refusal := cmd s otpDone

end Sys2Proof.Machine
end

