-- ==== Sys2Proof/Machine/Space.lean ====
section
/-!
DEFINITION. The ranges of the address space (R269–R271).
-/
namespace Sys2Proof.Machine
open Sys2Proof.Reg

/-- What a range of R269 holds. -/
inductive RangeKind where
  | rom
  | flash
  | sram
  | cells
  | window (cs : Nat)
  | pages
  | private_
  deriving DecidableEq, Repr

/-- A range of R269. -/
structure Range where
  lo : Nat
  hi : Nat
  kind : RangeKind
  deriving DecidableEq, Repr

/-- The fitted size of a chip select (R271, R296). -/
def State.fitted (s : State) (cs : Nat) : Nat :=
  let z := s.fld (XSPI_CS_CFG_SIZE cs)
  if 3 ≤ z ∧ z ≤ 6 then 2 ^ (z + 20) else 0

/-- The ranges of R269, the external windows by their fitted sizes. -/
def State.ranges (s : State) : List Range :=
  [⟨0, 0x10000, .rom⟩, ⟨0x01000000, 0x01400000, .flash⟩, ⟨0x20000000, 0x20080000, .sram⟩,
   ⟨0x21000000, 0x21020000, .cells⟩, ⟨0x30000000, 0x30000000 + s.fitted 0, .window 0⟩,
   ⟨0x34000000, 0x34000000 + s.fitted 1, .window 1⟩, ⟨0x40000000, 0x40015000, .pages⟩,
   ⟨0x41000000, 0x41018000, .pages⟩, ⟨0x42000000, 0x42009000, .pages⟩, ⟨0x43000000, 0x43005000, .pages⟩,
   ⟨0xE0000000, 0xE0003000, .private_⟩]

/-- The range an address lies in; none in a hole (R269). -/
def State.rangeOf (s : State) (a : Nat) : Option Range :=
  s.ranges.find? fun r => decide (r.lo ≤ a) && decide (a < r.hi)

/-- The cell an address of the frame buffer lies in (R124). -/
def cellOf (a : Nat) : Nat := (a - 0x21000000) / 256

/-- The octets an access moves (R248). -/
def accLen : Size → Nat
  | .byte => 1
  | .half => 2
  | .word => 4

end Sys2Proof.Machine
end

