-- ==== Sys2Proof/Machine/Dma.lean ====
section
/-!
DEFINITION. The DMA channels: enabling, tasks and completion (R297–R300). The element itself moves over the bus.
-/
namespace Sys2Proof.Machine
open Sys2Proof.Reg

def State.dma (s : State) (n : Nat) : DmaCh := Sparse.val {} s.dev.dma n
def modDma (n : Nat) (f : DmaCh → DmaCh) : M Unit :=
  modDev fun d => { d with dma := Sparse.upd {} d.dma n f }

/-- Is channel n enabled? -/
def State.dmaOn (s : State) (n : Nat) : Bool := s.bit ⟨DMA_EN, n, n⟩

/-- The octets of an element of channel n (R300). -/
def State.dmaSize (s : State) (n : Nat) : Nat := 2 ^ s.fld (DMA_CFG_SIZE n)

/-- TRIG 3 acts as 0 (R300). -/
def State.dmaTrig (s : State) (n : Nat) : Nat := s.fld (DMA_CFG_TRIG n) % 3

/-- A transfer completes: the enable clears, the status is written, EV_DMAn_DONE fires (R298). -/
def dmaComplete (n st : Nat) : M Unit := do
  setFld ⟨DMA_EN, n, n⟩ 0
  setFld (DMA_STAT_STATUS n) st
  modDma n fun _ => {}
  emit dmaPage (0x50 + n)
  pulse (17 + n)

/-- Does a stretch of register addresses lie in pages that exist, with no hole between them (R270)? -/
def pagesOk (a n : Nat) : Bool := (List.range (n / 0x1000 + 2)).all fun k => (pageRows (pageOf (min (a + 0x1000 * k) (a + n - 1)))).isSome

/-- May the transfer run: both addresses aligned, every element inside its range, the kinds those of R297? -/
def State.dmaOk (s : State) (n : Nat) : Bool :=
  let sz := s.dmaSize n
  let cnt := s.fld (DMA_CNT_CNT n)
  let side (a : Nat) (fixed : Bool) (p : RangeKind → Bool) : Bool :=
    let len := sz * (if fixed then min 1 cnt else cnt)
    match s.rangeOf a with
    | none => false
    | some r => a % sz == 0 && p r.kind && decide (a + len ≤ r.hi) && (r.kind != .pages || pagesOk a (max 1 len))
  s.fld (DMA_CFG_SIZE n) != 3
    && side (s.reg (DMA_SRC n)).toNat (s.bit (DMA_CFG_SFIX n)) (fun k => k != .private_)
    && side (s.reg (DMA_DST n)).toNat (s.bit (DMA_CFG_DFIX n))
      (fun k => k == .sram || k == .cells || k == .pages)

/-- The enable of channel n rises (R297, R298). -/
def dmaRise (n : Nat) : M Unit := do
  let s ← getS
  setFld ⟨DMA_EN, n, n⟩ 1
  setFld (DMA_STAT_LEFT n) (s.fld (DMA_CNT_CNT n))
  if !s.dmaOk n then dmaComplete n stParam
  else if s.fld (DMA_CNT_CNT n) = 0 then dmaComplete n stOk
  else modDma n fun _ => { active := s.dmaTrig n == 0, idx := 0 }

/-- DMA_EN written: bits that rise start their channel, bits that fall reset it (R15, R297). A parity mismatch keeps an
enable at 0 (R314). -/
def dmaEnable (v : Nat) : M Unit := do
  let s ← getS
  let held (n : Nat) : Bool := bitOf v n && !s.dmaOn n && s.parityIn (DMA_SRC n) (DMA_CFG n)
  if (List.range 8).any held then setFltAt dmaPage fltPar DMA_EN
  forAll ((List.range 8).filter fun n => !held n) fun n => do
    let s ← getS
    if bitOf v n && !s.dmaOn n then dmaRise n
    else if !bitOf v n && s.dmaOn n then
      setFld ⟨DMA_EN, n, n⟩ 0
      modDma n fun _ => {}

/-- DMA_ENABLE (R297, R300). -/
def execDmaEnable (v : Word) (s : State) : Host.Outcome State Fault Refusal := cmd s do
  openGate dmaPage
  dmaEnable (v.toNat % 256)

/-- TK_DMAn: one element with TRIG 1, the whole transfer with TRIG 2 (R298). -/
def dmaTask (n : Nat) : M Unit := do
  let s ← getS
  if s.dmaOn n && s.dmaTrig n != 0 then modDma n fun c => { c with active := true }

/-- Is channel n busy with a task (R330)? -/
def State.dmaBusy (s : State) (n : Nat) : Bool := s.dmaOn n && s.dmaTrig n != 0 && (s.dma n).active

end Sys2Proof.Machine
end

