-- ==== Sys2Proof/Machine/Gov.lean ====
section
/-!
DEFINITION. The energy governor: charging and its ceiling, bleeding the store, the relay-pulse limits (R361–R369, R386,
R387), the power path and the store regulator (R355, R356).
-/
namespace Sys2Proof.Machine
open Sys2Proof.Reg

/-- The states GOV_STAT.STATE shows (R386). -/
abbrev govIdle : Nat := 0
abbrev govCharge : Nat := 1
abbrev govFull : Nat := 2
abbrev govOverbleed : Nat := 3
abbrev govBleed : Nat := 4
abbrev govHeld : Nat := 5
abbrev govLockout : Nat := 6
abbrev govNorec : Nat := 7

/-- Fields of the governor record shown in GOV_REC0–GOV_REC2 (R361). -/
def State.govValid (s : State) : Bool := bitOf (s.reg (GOV_REC 0)).toNat 31
def State.rlyTmax (s : State) : Nat := if s.govValid then bitsGet (s.reg (GOV_REC 2)) 6 0 else 0
def State.rlyTmin (s : State) : Nat := bitsGet (s.reg (GOV_REC 2)) 31 16
def State.bleedMax (s : State) : Nat := bitsGet (s.reg (GOV_REC 1)) 31 16

def setGovState (v : Nat) : M Unit := setFld GOV_STAT_STATE v

/-- IDLE and CHARGE follow the conditions of R364. -/
def govSettle : M Unit := do
  let s ← getS
  let st := s.fld GOV_STAT_STATE
  if st = govIdle ∨ st = govCharge then
    if s.bit GOV_CHG_EN ∧ s.bit PWR_PATH_VINOK ∧ s.dev.supply.vstore < s.fld GOV_VCEIL_VCEIL then
      setGovState govCharge
    else setGovState govIdle

/-- Start a bleed to V_SAFE; a request during a bleed, in HELD, in LOCKOUT or without a record is absorbed (R366, R362). -/
def startBleed (byDoor : Bool) : M Unit := do
  let s ← getS
  let st := s.fld GOV_STAT_STATE
  if st = govBleed ∨ st = govHeld ∨ st = govLockout ∨ st = govNorec then nop
  else
    setGovState govBleed
    setFld GOV_STAT_DISCH 1
    modGov fun g => { g with byDoor := byDoor }
    count govPage 0x01 2

/-- HELD ends: IDLE, and charging where R364 permits it. -/
def leaveHeld : M Unit := do
  setGovState govIdle
  govSettle

/-- A write of GOV_CMD (R386). -/
def govCmd (v : Word) : M Unit := do
  if bitOf v.toNat 0 then startBleed false
  if bitOf v.toNat 1 then
    let s ← getS
    if s.fld GOV_STAT_STATE = govHeld ∧ !s.dev.gov.byDoor then leaveHeld

/-- A wake source becomes active (R376); it counts for the entry in progress and is remembered. -/
def wakeSource (b : Nat) : M Unit := modPwr fun p => { p with wake := bitSet p.wake b }

/-- A debounced DOOR assertion (R366, R376, R491). -/
def execDoorOpen (s : State) : Host.Outcome State Fault Refusal := cmd s do
  if !(s.bit GOV_STAT_DOOR) then
    setFld GOV_STAT_DOOR 1
    modSupply fun p => { p with door := true }
    emit govPage 0x03
    wakeSource 10
    startBleed true

/-- DOOR low for 10 ms (R366). -/
def execDoorClosed (s : State) : Host.Outcome State Fault Refusal := cmd s do
  if s.bit GOV_STAT_DOOR then
    setFld GOV_STAT_DOOR 0
    modSupply fun p => { p with door := false }
    emit govPage 0x03
    if s.fld GOV_STAT_STATE = govHeld ∧ s.dev.gov.byDoor then leaveHeld

/-- GOV_CMD.DISCHARGE (R366). -/
def execGovDischarge (s : State) : Host.Outcome State Fault Refusal := cmd s (govCmd 1)

/-- GOV_CMD.RESUME (R366). -/
def execGovResume (s : State) : Host.Outcome State Fault Refusal := cmd s (govCmd 2)

/-- VSTORE falls below V_SAFE during a bleed (R366). -/
def execBleedSafe (s : State) : Host.Outcome State Fault Refusal := cmd s do
  if s.fld GOV_STAT_STATE = govBleed then
    setFld GOV_STAT_DISCH 0
    setGovState govHeld
    emit govPage 0x05
    if s.dev.gov.byDoor ∧ !s.bit GOV_STAT_DOOR then leaveHeld

/-- T_BLEED_MAX passes during a bleed (R367). -/
def execBleedTimeout (s : State) : Host.Outcome State Fault Refusal := cmd s do
  if s.fld GOV_STAT_STATE = govBleed then
    setGovState govLockout
    emit govPage 0x06
    pulse 54
    count govPage 0x02 3
    stage 0x04 true stInternal (s.reg govPage).toNat
      (leBytes 2 s.dev.supply.vstore ++ leBytes 2 s.bleedMax)

/-- The comparator stops the charger at V_ceil (R364). -/
def execChargeCeiling (s : State) : Host.Outcome State Fault Refusal := cmd s do
  if s.fld GOV_STAT_STATE = govCharge then
    modSupply fun p => { p with vstore := s.fld GOV_VCEIL_VCEIL }
    setGovState govFull
    emit govPage 0x04

/-- VSTORE falls below 0.98 V_ceil (R364). -/
def execChargeRestart (s : State) : Host.Outcome State Fault Refusal := cmd s do
  if s.fld GOV_STAT_STATE = govFull then
    modSupply fun p => { p with vstore := s.fld GOV_VCEIL_VCEIL * 98 / 100 }
    leaveHeld

/-- VSTORE exceeds 1.03 V_ceil (R365); a bleed in progress or a lockout already drives DISCH. In HELD the state stays
HELD while the overshoot is bled (log entry 20). -/
def execOvershootBleed (s : State) : Host.Outcome State Fault Refusal := cmd s do
  let st := s.fld GOV_STAT_STATE
  if st = govIdle ∨ st = govCharge ∨ st = govFull ∨ st = govHeld then
    if st ≠ govHeld then setGovState govOverbleed
    setFld GOV_STAT_DISCH 1
    modSupply fun p => { p with vstore := s.fld GOV_VCEIL_VCEIL * 103 / 100 + 1 }
    count govPage 0x01 3

/-- VSTORE falls to V_ceil and the overshoot bleed ends (R365). -/
def execOvershootBleedEnd (s : State) : Host.Outcome State Fault Refusal := cmd s do
  let st := s.fld GOV_STAT_STATE
  if st = govOverbleed ∨ (st = govHeld ∧ s.bit GOV_STAT_DISCH) then
    setFld GOV_STAT_DISCH 0
    modSupply fun p => { p with vstore := s.fld GOV_VCEIL_VCEIL }
    if st = govOverbleed then setGovState govFull

/-- VSTORE is measured every 1,024 LF ticks (R386, R387, R454); without a record DISCH follows it (R362). -/
def execVstoreMeasurement (mv : Nat) (s : State) : Host.Outcome State Fault Refusal := cmd s do
  modSupply fun p => { p with vstore := mv, storeReady := p.storeReady || decide (2200 ≤ mv) }
  setFld GOV_LEVEL_VSTORE (min 0xFFFF mv)
  let v := min 0xFFFF mv
  let lo := if s.dev.gov.measured then min s.dev.gov.vmin v else v
  let hi := if s.dev.gov.measured then max s.dev.gov.vmax v else v
  modGov fun g => { g with measured := true, vmin := lo, vmax := hi }
  setCtr govPage 0x01 0 lo
  setCtr govPage 0x01 1 hi
  setCtr statsPage 0x26 0 lo
  setCtr statsPage 0x26 1 hi
  if s.fld GOV_STAT_STATE = govNorec then setFld GOV_STAT_DISCH (b2n (decide (100 < mv)))
  govSettle

/-- VIN falls through 2.75 V (R355): the path takes the store regulator where it can run (R356). -/
def execVinLost (s : State) : Host.Outcome State Fault Refusal := cmd s do
  if s.bit PWR_PATH_VINOK then
    let reg := s.dev.supply.storeReady
    modSupply fun p => { p with vin := 2750, vsys := if reg then 3300 else 0, vaon := if reg then 3300 else 0 }
    setFld PWR_PATH_VINOK 0
    setFld GOV_STAT_VINOK 0
    setFld PWR_PATH_SRC 1
    setFld PWR_PATH_REGON (b2n reg)
    emit pwrPage 0x07
    govSettle

/-- VIN rises through 2.85 V (R355). -/
def execVinReturn (s : State) : Host.Outcome State Fault Refusal := cmd s do
  if !(s.bit PWR_PATH_VINOK) then
    modSupply fun p => { p with vin := 2850, vsys := 2850, vaon := 2850 }
    setFld PWR_PATH_VINOK 1
    setFld GOV_STAT_VINOK 1
    setFld PWR_PATH_SRC 0
    setFld PWR_PATH_REGON 0
    emit pwrPage 0x08
    wakeSource 12
    govSettle

/-- VIN absent and VSTORE above 2.2 V (R356). -/
def execStoreRegulatorStart (s : State) : Host.Outcome State Fault Refusal := cmd s do
  if !(s.bit PWR_PATH_VINOK) then
    modSupply fun p => { p with storeReady := true, vsys := 3300, vaon := 3300 }
    setFld PWR_PATH_REGON 1
    setFld PWR_PATH_SRC 1

/-- VSTORE falls through 2.0 V: the regulator stops and VSYS is pulled to GND (R356). -/
def execStoreRegulatorStop (s : State) : Host.Outcome State Fault Refusal := cmd s do
  modSupply fun p => { p with storeReady := false }
  if s.bit PWR_PATH_REGON then
    setFld PWR_PATH_REGON 0
    modSupply fun p => { p with vsys := 0, vaon := 0 }

/-! ### Relay coil pulses (R369, R488) -/

def setRlyBusy (b : Bool) : M Unit := do
  setFld GOV_STAT_RLYBUSY (b2n b)
  setFld LUM_STAT_RLYBUSY (b2n b)

/-- A relay pulse may start: none runs, the interval has passed and a record permits pulses (R369, R362). -/
def State.rlyFree (s : State) : Bool :=
  s.dev.gov.pulse.isNone && !s.dev.gov.interval && s.rlyTmax != 0

/-- The levels of RLY_A and RLY_B (R488). -/
def State.rlyA (s : State) : Bool := s.dev.gov.pulse == some 0
def State.rlyB (s : State) : Bool := s.dev.gov.pulse == some 1

/-- Start a coil pulse of direction `dir` within the governor's limits (R369). -/
def startPulse (dir : Nat) : M Unit := do
  let s ← getS
  let len := max 1 (s.fld LUM_RLY_LEN)
  modGov fun g => { g with pulse := some dir, pulseLen := len, interval := decide (0 < s.rlyTmin) }
  setRlyBusy true
  count govPage 0x02 0

/-- A pulse ends; one longer than RLY_TMAX, or cut, counts as clipped (R369, R488). -/
def endPulse (cut : Bool) : M Unit := do
  let s ← getS
  if s.dev.gov.pulse.isSome then
    if cut || decide (s.rlyTmax < s.dev.gov.pulseLen) then count govPage 0x02 1
    modGov fun g => { g with pulse := none }
    setRlyBusy s.dev.gov.interval
    emit lumPage 0x60

/-- A write of LUM_RLY with START (R488): a request that comes too early is refused with BUSY and counted. -/
def relayWrite (v : Word) : M Unit := do
  wr LUM_RLY (bitsPut v 31 31 0)
  if bitOf v.toNat 31 then
    let s ← getS
    if s.rlyFree then
      startPulse (s.fld LUM_RLY_DIR)
      setFld LUM_STAT_STATUS stOk
    else
      setFld LUM_STAT_STATUS stBusy
      count govPage 0x02 2

/-- LUM_RLY.START (R488). -/
def execRelayPulseStart (v : Word) (s : State) : Host.Outcome State Fault Refusal :=
  cmd s (relayWrite (bitsPut v 31 31 1))

/-- A coil pulse ends at LEN or RLY_TMAX (R369, R488). -/
def execRelayPulseEnd (s : State) : Host.Outcome State Fault Refusal := cmd s (endPulse false)

/-- RLY_TMIN has passed since the last pulse start (R369). -/
def execRelayIntervalEnd (s : State) : Host.Outcome State Fault Refusal := cmd s do
  modGov fun g => { g with interval := false }
  if s.dev.gov.pulse.isNone then setRlyBusy false

end Sys2Proof.Machine
end

