-- ==== Sys2Proof/Machine/Lum.lean ====
section
/-!
DEFINITION. The luminaire and general-purpose interfaces: DALI, dimming and meter, ADC, UARTs, I²C and the GP balls
(R483–R499).
-/
namespace Sys2Proof.Machine
open Sys2Proof.Reg

/-! ### DALI (R483–R487) -/

def modDali (f : Dali → Dali) : M Unit := modDev fun d => { d with dali := f d.dali }

/-- A send ends with a status: the controller is free again (R485–R487). -/
def daliEnd (status : Nat) : M Unit := do
  setFld DALI_STAT_BUSY 0
  setFld DALI_STAT_STATUS status
  modDali fun d => { d with phase := .idle }

/-- Start the send of the frame in DALI_FWD; the caller has seen that none is in progress (R485, R487). -/
def daliStart : M Unit := do
  let s ← getS
  let w := s.reg DALI_FWD
  if s.en daliPage then
    if bitOf w.toNat 29 && bitOf w.toNat 30 then setFld DALI_STAT_STATUS stParam
    else if s.bit DALI_STAT_BUSFAIL then setFld DALI_STAT_STATUS stState
    else
      setFld DALI_STAT_BUSY 1
      modDali fun d => { d with phase := .settling, frame := w, copy := 1, left := s.fld DALI_CFG_RETRY }

/-- A write of DALI_FWD (R485, R499): SEND while BUSY is ignored and sets FLT.STATE. -/
def daliWrite (v : Word) : M Unit := do
  let busy ← bit DALI_STAT_BUSY
  if bitOf v.toNat 31 && busy then setFlt daliPage fltState
  else
    wr DALI_FWD (bitsPut v 31 31 0)
    if bitOf v.toNat 31 then daliStart

/-- DALI_FWD.SEND (R485). -/
def execDaliSend (v : Word) (s : State) : Host.Outcome State Fault Refusal :=
  cmd s do
    openGate daliPage
    daliWrite (bitsPut v 31 31 1)

/-- The bus has been idle for the settling time; a send waits for a reply window to close first (R485). -/
def execDaliSettled (s : State) : Host.Outcome State Fault Refusal := cmd s do
  if s.dev.dali.phase = .settling ∧ !s.dev.dali.window then
    modDali fun d => { d with phase := .sending }

/-- The forward frame has been sent (R485): the second copy follows with TWICE, else BUSY clears. -/
def execDaliForwardDone (s : State) : Host.Outcome State Fault Refusal := cmd s do
  let d := s.dev.dali
  if d.phase = .sending then
    if bitOf d.frame.toNat 29 && d.copy == 1 then
      modDali fun d => { d with phase := .settling, copy := 2 }
    else
      daliEnd stOk
      setFld DALI_STAT_REPLY 0
      setFld DALI_STAT_VALUE 0
      modDali fun e => { e with window := bitOf d.frame.toNat 30 }
      emit daliPage 0x5D

/-- A backward frame in the reply window (R485): VALUE, or FRAMING when answers overlap. -/
def execDaliBackwardFrame (framing : Bool) (value : Byte) (s : State) : Host.Outcome State Fault Refusal := cmd s do
  if s.dev.dali.window then
    setFld DALI_STAT_REPLY (if framing then 3 else 1)
    if !framing then setFld DALI_STAT_VALUE value.toNat
    modDali fun d => { d with window := false }
    emit daliPage 0x5C

/-- The reply window closes with no reply (R485). -/
def execDaliReplyTimeout (s : State) : Host.Outcome State Fault Refusal := cmd s do
  if s.dev.dali.window then
    setFld DALI_STAT_REPLY 2
    modDali fun d => { d with window := false }

/-- DALI_RX differs from the sent level (R486): recovery and another try, or BUSY when the retries are exhausted. -/
def execDaliCollision (s : State) : Host.Outcome State Fault Refusal := cmd s do
  if s.dev.dali.phase = .sending then
    emit daliPage 0x5E
    if s.dev.dali.left = 0 then daliEnd stBusy
    else modDali fun d => { d with phase := .settling, left := d.left - 1 }

/-- DALI_RX stays active for more than 45 ms (R487). -/
def execDaliBusFail (s : State) : Host.Outcome State Fault Refusal := cmd s do
  setFld DALI_STAT_BUSFAIL 1
  if s.dev.dali.phase ≠ .idle then daliEnd stState

/-- The bus has been idle for 2.4 ms (R487). -/
def execDaliBusIdle (s : State) : Host.Outcome State Fault Refusal := cmd s do
  setFld DALI_STAT_BUSFAIL 0

/-- A forward frame of another master is counted and not delivered (R483). -/
def execDaliForeignFrame (s : State) : Host.Outcome State Fault Refusal := cmd s do
  if s.en daliPage then modDali fun d => { d with foreign := d.foreign + 1 }

/-- Abort point A1 of an entry: a frame in progress ends with ABORTED and the bus is released (R484). -/
def daliRelease : M Unit := do
  let s ← getS
  if s.dev.dali.phase ≠ .idle then daliEnd stAborted

/-- The pads stand at their reset defaults, held or not: Dead and RETIRED (R388, R411; log entry 134). -/
def State.padsIdle (s : State) : Bool := s.dev.sys.phase == .dead || s.dev.sys.phase == .retired

/-- The level of DALI_TX outside a frame: TXPOL's level releases the bus, low after reset; a held pad keeps its level
(R484, R377). -/
def State.daliTx (s : State) : Bool :=
  !s.padsIdle &&
  match s.dev.pads with
  | some p => p.dali
  | none => s.bit DALI_CFG_TXPOL

/-! ### Dimming and meter (R489, R490) -/

/-- The level of timer output STn_OUTk, index 4n + k: low in modes 0 and 4–7 (R334). -/
def State.stOut (s : State) (i : Nat) : Bool :=
  let mode := (s.reg (STIM_CHCFG (i / 4))).toNat / 2 ^ (8 * (i % 4)) % 8
  decide (1 ≤ mode ∧ mode ≤ 3) && bitOf (Sparse.val {} s.dev.st (i / 4)).out (i % 4)

/-- The level of DIM_PWM (R489, R377). -/
def State.dimPwm (s : State) : Bool :=
  !s.padsIdle &&
  match s.dev.pads with
  | some p => p.dim
  | none =>
    let src := s.fld LUM_DIM_SRC
    let lv := if src = 1 then true else if src = 2 then s.stOut (s.fld LUM_DIM_TSEL) else false
    lv != s.bit LUM_DIM_POL

/-- A debounced meter pulse (R490). -/
def execMeterPulse (s : State) : Host.Outcome State Fault Refusal := cmd s do
  if s.bit LUM_METER_EN then
    wr LUM_MCNT (s.reg LUM_MCNT + 1)
    emit lumPage 0x5F

/-- A write to LUM_MCNT loads the count (R490). -/
def execMeterLoad (v : Word) (s : State) : Host.Outcome State Fault Refusal := cmd s (wr LUM_MCNT v)

/-! ### ADC (R492–R494) -/

def modAdc (f : Adc → Adc) : M Unit := modDev fun d => { d with adc := f d.adc }

/-- Start the configured sequence; the caller has seen that none is in progress (R493). -/
def adcStart : M Unit := do
  let s ← getS
  if s.en adcPage then setFld ADC_STAT_BUSY 1

/-- A write of ADC_CMD (R493): START while BUSY is ignored and sets FLT.STATE. -/
def adcWrite (v : Word) : M Unit := do
  if bitOf v.toNat 0 then
    let busy ← bit ADC_STAT_BUSY
    if busy then setFlt adcPage fltState else adcStart

/-- ADC_CMD.START (R493). -/
def execAdcStart (s : State) : Host.Outcome State Fault Refusal := cmd s do
  openGate adcPage
  adcWrite 1

/-- Does a new result cross the limits against the one before (R494)? -/
def limitHit (dir lo hi old new : Nat) : Bool :=
  let below := decide (new < lo) && !decide (old < lo)
  let above := decide (hi < new) && !decide (hi < old)
  (below && bitOf dir 0) || (above && bitOf dir 1)

/-- Write the results of the channels in the mask, ascending; the limit channel's result is compared (R493, R494). -/
def adcResults : List Nat → List (BitVec 12) → M Unit
  | [], _ => nop
  | ch :: chs, codes => do
    let s ← getS
    let code := (codes.headD 0).toNat
    if ch = s.fld ADC_LIM_LCH then
      let old := s.fld (ADC_RES_CODE ch)
      if s.dev.adc.hadResult
          && limitHit (s.fld ADC_LIM_DIR) (s.fld ADC_LIM_LO) (s.fld ADC_LIM_HI) old code then
        emit adcPage 0x5B
      modAdc fun a => { a with hadResult := true }
    setFld (ADC_RES_CODE ch) code
    adcResults chs codes.tail

/-- The sequence ends with one mean code per channel of the mask (R493). -/
def execAdcSequenceDone (codes : List (BitVec 12)) (s : State) : Host.Outcome State Fault Refusal := cmd s do
  if s.bit ADC_STAT_BUSY then
    adcResults (onesOf 16 (s.fld ADC_SEQ_MASK)) codes
    setFld ADC_STAT_BUSY 0
    setFld ADC_STAT_STATUS stOk
    emit adcPage 0x5A

/-! ### UARTs (R495) -/

def modUart (n : Nat) (f : Uart → Uart) : M Unit :=
  modDev fun d => { d with uart := Sparse.upd {} d.uart n f }

def State.uart (s : State) (n : Nat) : Uart := Sparse.val {} s.dev.uart n

/-- Does UART n have its balls: UART1 only while the host port's UART transport is off, UART0 not while the monitor owns
it (R495, R419)? -/
def State.uartOn (s : State) (n : Nat) : Bool :=
  s.en (uartPage n) && !(n == 1 && s.bit HOSTP_CFG_UARTEN)
    && !(n == 0 && (s.dev.sys.phase == .monitor || s.dev.sys.phase == .unlock || s.dev.sys.phase == .factory))

/-- An octet arrives: into the FIFO of 16, or dropped with OVR; its errors show in STAT (R495, R499). -/
def uartReceive (n : Nat) (b : Byte) (ferr perr : Bool) : M Unit := do
  let s ← getS
  if s.uartOn n then
    if (s.uart n).rx.length < 16 then modUart n fun u => { u with rx := u.rx ++ [b] }
    else setFld (UART_STAT_OVR n) 1
    if ferr then setFld (UART_STAT_FERR n) 1
    if perr then setFld (UART_STAT_PERR n) 1
    emit (uartPage n) (0x62 + n)

/-- A write to UARTn_DATA queues an octet; with the FIFO full it is not queued (R495; log entry 22). -/
def uartWrite (n : Nat) (v : Word) : M Unit := do
  let s ← getS
  if (s.uart n).tx.length < 16 then modUart n fun u => { u with tx := u.tx ++ [BitVec.ofNat 8 v.toNat] }

/-- UARTn_DATA written (R495). -/
def execUartTxWrite (n : Fin 3) (v : Word) (s : State) : Host.Outcome State Fault Refusal := cmd s (uartWrite n v)

/-- A read of UARTn_DATA takes the oldest octet; of an empty FIFO it gives a free value (R495; log entry 2). -/
def uartRead (n : Nat) : M Byte := do
  let s ← getS
  match (s.uart n).rx with
  | [] => freeByte
  | b :: rest =>
    modUart n fun u => { u with rx := rest }
    return b

/-- UARTn_DATA read (R495). -/
def execUartRxRead (n : Fin 3) (s : State) : Host.Outcome State Fault Refusal := cmd s do
  let _ ← uartRead n

/-- An octet has been shifted out and the TX level falls (R495). -/
def execUartTxOctetSent (n : Fin 3) (s : State) : Host.Outcome State Fault Refusal := cmd s do
  if s.uartOn n then modUart n fun u => { u with tx := u.tx.tail }

/-! ### I²C (R496) -/

/-- How an I²C transfer goes on the bus: the octets read, or what stopped it (R496). -/
def i2cStatus (e : I2cEnd) : Nat :=
  match e with
  | .done _ => stOk
  | .noAck => stNoAck
  | .lost => stBusy
  | .stretched => stInternal

/-- A write of I2Cn_CMD (R496, R499): a START during a transfer is ignored and sets FLT.STATE (log entry 21). -/
def i2cWrite (n : Nat) (v : Word) : M Unit := do
  let s ← getS
  if bitOf v.toNat 31 && s.bit (I2C_STAT_BUSY n) then setFlt (i2cPage n) fltState
  else
    wr (I2C_CMD n) (bitsPut v 31 31 0)
    if bitOf v.toNat 31 && s.en (i2cPage n) then setFld (I2C_STAT_BUSY n) 1

/-- I2Cn_CMD.START (R496). -/
def execI2cStart (n : Fin 2) (v : Word) (s : State) : Host.Outcome State Fault Refusal :=
  cmd s do
    openGate (i2cPage n)
    i2cWrite n (bitsPut v 31 31 1)

/-- Store octets into the 32-octet buffer from an octet position (R496). -/
def i2cStore (n : Nat) : Nat → List Byte → M Unit
  | _, [] => nop
  | i, b :: l => do
    if i < 32 then
      let a := I2C_BUF n (i / 4)
      let w ← rd a
      wr a (bitsPut w (8 * (i % 4) + 7) (8 * (i % 4)) b.toNat)
    i2cStore n (i + 1) l

/-- A transfer completes: the octets read follow the octets written in the buffer (R496; log entry 23). -/
def execI2cDone (n : Fin 2) (e : I2cEnd) (s : State) : Host.Outcome State Fault Refusal := cmd s do
  if s.bit (I2C_STAT_BUSY n) then
    let wl := s.fld (I2C_CMD_WLEN n)
    let rl := s.fld (I2C_CMD_RLEN n)
    setFld (I2C_STAT_BUSY n) 0
    if 32 < wl + rl then setFld (I2C_STAT_STATUS n) stLength
    else
      match e with
      | .done rx => i2cStore n wl (sliceOf rx 0 rl)
      | _ => nop
      setFld (I2C_STAT_STATUS n) (i2cStatus e)
    emit (i2cPage n) (0x65 + n)

/-! ### GP balls (R497–R499) -/

/-- Does an edge selection take an edge: 0 none, 1 rising, 2 falling, 3 both (R384, R499)? -/
def edgeTaken (sel : Nat) (rising : Bool) : Bool := if rising then bitOf sel 0 else bitOf sel 1

/-- An edge at a GP ball: its level, its flag and event, and the wake edge of GP0–GP7 (R329, R376, R377, R499). -/
def execGpioEdge (n : Fin 36) (rising : Bool) (s : State) : Host.Outcome State Fault Refusal := cmd s do
  modDev fun d => { d with gpIn := if rising then bitSet d.gpIn n else bitClr d.gpIn n }
  if n.val < 8 ∧ edgeTaken (s.fld PWR_GPWAKE_EDGE / 4 ^ n.val % 4) rising then
    emit pwrPage (0x10 + n)
    wakeSource (2 + n)
  if s.powered gpioPage ∧ edgeTaken (s.fld (GPIO_PIN_EDGE n)) rising then
    let a := GPIO_FLAG (n / 32)
    wr a (s.reg a ||| BitVec.ofNat 32 (2 ^ (n.val % 32)))
    emit gpioPage (0x68 + n)

/-- A write to GPIO_SETk (R499). -/
def gpioSet (k : Nat) (v : Word) : M Unit := do
  let w ← rd (GPIO_OUT k)
  wr (GPIO_OUT k) (w ||| v)

/-- A write to GPIO_CLRk (R499). -/
def gpioClr (k : Nat) (v : Word) : M Unit := do
  let w ← rd (GPIO_OUT k)
  wr (GPIO_OUT k) (w &&& ~~~v)

/-- GPIO_SETk (R499). -/
def execGpioSet (k : Fin 2) (v : Word) (s : State) : Host.Outcome State Fault Refusal := cmd s (gpioSet k v)

/-- GPIO_CLRk (R499). -/
def execGpioClr (k : Fin 2) (v : Word) (s : State) : Host.Outcome State Fault Refusal := cmd s (gpioClr k v)

/-- The level GPIO_INk shows for a ball; an analog input's digital path is off (R497). -/
def State.gpLevel (s : State) (n : Nat) : Bool :=
  bitOf s.dev.gpIn n && !(decide (24 ≤ n) && s.fld (GPIO_PIN_FUNC n) == 1)

/-- The level the main region drives on a GP ball, none where it drives none: the output bit, a timer output or an event
output, a high level of an open-drain output not driven (R497–R499). The lines of a serial port are not modelled (log entry
134). -/
def State.gpDrive (s : State) (n : Nat) : Option Bool :=
  let more := decide (8 ≤ n ∧ n < 18) || decide (24 ≤ n)
  let tsel := s.fld (GPIO_PIN_TSEL n)
  let lv :=
    match (if more then s.fld (GPIO_PIN_FUNC n) else 0) with
    | 1 => none
    | 2 => some (s.stOut tsel)
    | 3 => some (bitOf s.dev.rigger.gpo (tsel % 4))
    | _ => if s.bit (GPIO_PIN_DIR n) then some (s.bit ⟨GPIO_OUT (n / 32), n % 32, n % 32⟩) else none
  if lv == some true && s.bit (GPIO_PIN_OD n) then none else lv

/-- The level on a GP ball the device drives: the latched one while the pads are held (R21, R377). -/
def State.gpOut (s : State) (n : Nat) : Option Bool :=
  if s.padsIdle then none else
  match s.dev.pads with
  | some p => if bitOf p.dir n then some (bitOf p.out n) else none
  | none => s.gpDrive n

end Sys2Proof.Machine
end

