-- ==== Sys2Proof/Machine/Radio.lean ====
section
/-!
DEFINITION. The radio's states and requests, the synthesiser and its calibration cache, loss of lock, the die-to-die
link's errors and a Bow sequencer that stops responding (R24–R27, R40–R50, R67–R70).
-/
namespace Sys2Proof.Machine
open Sys2Proof.Reg

/-! ### State of the radio (R42) -/

abbrev radSleep : Nat := 0
abbrev radStby : Nat := 1
abbrev radSyn : Nat := 2
abbrev radRx : Nat := 3
abbrev radTx : Nat := 4

def modRadio (f : Radio → Radio) : M Unit := modDev fun d => { d with radio := f d.radio }

def State.radio (s : State) : Nat := s.fld RCTL_STAT_STATE

/-- The antenna and front-end pattern of a state (R67). -/
def State.femOf (s : State) (st : Nat) : Nat := s.fld ⟨RCTL_FEMCFG, 5 * st + 4, 5 * st⟩

/-- Enter a state: STATE, and its pattern; TX's pattern is applied ahead of the ramp (R52, R67). -/
def enterState (st : Nat) : M Unit := do
  setFld RCTL_STAT_STATE st
  let s ← getS
  modRadio fun r => { r with fem := s.femOf st }

/-- SYN_LOCK and its mirrors (R24, R68, R69). -/
def setLock (b : Bool) : M Unit := do
  setFld RCTL_STAT_LOCK (b2n b)
  setFld SYNTH_STAT_LOCK (b2n b)

/-- BUSY and TARGET (R68). -/
def setBusy (goal : Nat) : M Unit := do
  setFld RCTL_STAT_BUSY 1
  setFld RCTL_STAT_TARGET goal
def setIdle : M Unit := do
  let s ← getS
  setFld RCTL_STAT_BUSY 0
  setFld RCTL_STAT_TARGET s.radio

/-! ### Completing requests (R43) -/

/-- A request completes: its status, its duration in µs from acceptance, EV_RADIO_STATE (R43, R329). TIME gives whole µs, a
fraction dropped, and 0xFFFF for anything longer (DESIGN CHOICE: R43 and R68 say neither; log entry 107). -/
def reqDone (r : RadioReq) (st : Nat) : M Unit := do
  let s ← getS
  setFld RCTL_CMDSTAT_STATUS st
  setFld RCTL_CMDSTAT_TIME (min 0xFFFF ((s.dev.time.link - r.at_) / 40))
  emit rctlPage 0xBC

/-- A request is refused with STATE (R40, R45, R46). -/
def reqRefused : M Unit := do
  let s ← getS
  setFld RCTL_CMDSTAT_REFUSED (min 255 (s.fld RCTL_CMDSTAT_REFUSED + 1))
  setFld RCTL_CMDSTAT_STATUS stState
  setFld RCTL_CMDSTAT_TIME 0
  setFlt rctlPage fltState
  emit rctlPage 0xBC

/-! ### The synthesiser (R47, R48) -/

/-- f in Hz (R47). -/
def State.synthHz (s : State) : Nat := s.fld SYNTH_F0_F0 + s.fld SYNTH_CHAN_N * s.fld SYNTH_SPACING_SPACING

/-- f lies in the synthesiser's range. -/
def State.synthOk (s : State) : Bool := decide (400000000 ≤ s.synthHz) && decide (s.synthHz ≤ 960000000)

/-- The frequency word: the nearest step of 40 MHz / 2²⁰. -/
def freqWord (hz : Nat) : Nat := (2 * hz * 2 ^ 20 + 40000000) / 80000000

/-- The frequency of a word in hertz, rounded to the nearest as R516 has it where no direction is named: what SYNTH_FREQ reports
(R47, R69). -/
def wordHz (w : Nat) : Nat := (w * 40000000 + 2 ^ 19) / 2 ^ 20

/-- The cache entry that a tune to a word hits (R48). -/
def State.cacheHit (s : State) (w : Nat) : Option CalEntry :=
  s.dev.radio.cache.find? fun e => e.word == w &&
    decide ((s.dev.radio.temp - e.temp).natAbs ≤ 16 * s.fld SYNTH_CCTL_TDELTA)

/-- Start a tune: lock is low until it ends; the cache decides hit or miss, and a hit makes its entry the newest use (R47,
R48). Answers whether it missed. -/
def tuneStart : M Bool := do
  let s ← getS
  let w := freqWord s.synthHz
  setLock false
  modRadio fun r => { r with word := w }
  setFld SYNTH_FREQ_FREQ (wordHz w)
  let hit := s.cacheHit w
  match hit with
  | some e => modRadio fun r => { r with cache := e :: r.cache.erase e }
  | none => nop
  setFld SYNTH_STAT_HIT (b2n hit.isSome)
  setFld SYNTH_STAT_CAL (b2n hit.isNone)
  let f := if hit.isSome then SYNTH_CACHE_HITS else SYNTH_CACHE_MISSES
  setFld f (min 0xFFFF (s.fld f + 1))
  return hit.isNone

/-- The calibration of a tune that missed is stored in place of the least recently used entry (R48). -/
def tuneStore (miss : Bool) : M Unit := do
  setFld SYNTH_STAT_CAL 0
  if miss then
    let code ← freeIn 0 0xFFFFFFFF
    modRadio fun r => { r with cache := ({ word := r.word, code := code, temp := r.temp } :: r.cache).take 16 }

/-- Lock rises: a loss of lock is over (R49). -/
def lockRise : M Unit := do
  modRadio fun r => { r with unlock := false }
  setLock true

/-- SYNTH_CCTL.FLUSH written (R48). -/
def cacheFlush : M Unit := modRadio fun r => { r with cache := [] }

/-- CACHE_FLUSH (R48). -/
def execCacheFlush (s : State) : Host.Outcome State Fault Refusal := cmd s cacheFlush

/-! ### Walks (R41–R44) -/

/-- The next state on the way from `cur` to `goal` (R41, R42); none where nothing is left to do. -/
def walkNext (cur goal : Nat) (retune : Bool) : Option Nat :=
  if goal ≤ 1 then (if cur = goal then none else if cur = 1 then some 0 else some 1)
  else if cur = 0 then some 1
  else if cur = 1 then some 2
  else if cur = 2 then (if retune then some 2 else if goal = 3 then some 3 else none)
  else if retune ∨ goal = 2 then some 2
  else none

/-- Start a walk's step: the receive chain stops when RX is left, the synthesiser below SYN, a tune starts (R42, R91). -/
def stepStart (next goal : Nat) (retune : Bool) (req : Option RadioReq) : M Unit := do
  let s ← getS
  if s.radio = radRx then lanesOff dropRadio
  if next < 2 then setLock false
  let tunes := next == 2 && (s.radio == 1 || (s.radio == 2 && retune))
  let miss ← if tunes then tuneStart else pure false
  setBusy goal
  modRadio fun r => { r with walk := some { next := next, goal := goal, tunes := tunes, retune := retune && !tunes
                                            miss := miss, req := req } }

/-- Carry a request out from the state reached (R41, R43, R47). A channel change outside SYN and RX only waits for the
next tune. -/
def carryOut (r : RadioReq) : M Unit := do
  let s ← getS
  if 2 ≤ r.goal ∧ !s.synthOk then
    setIdle
    reqDone r stParam
  else match walkNext s.radio r.goal r.retune with
    | none =>
      setIdle
      reqDone r stOk
    | some n => stepStart n r.goal r.retune (some r)

/-- Lock rises with an untimed transmission waiting for it: its wait is counted and noted (R50). -/
def lockHeard : M Unit := do
  let s ← getS
  match s.jobs.find? fun j => j.stage == .lockWait with
  | none => nop
  | some j =>
    setFld TXP_LATE_WAITS (min 0xFFFF (s.fld TXP_LATE_WAITS + 1))
    putJob { j with delay := (s.dev.time.link - j.ts) / 40 }

/-- The untimed transmission that waited is sent, now that the synthesiser is locked and no transition is in progress: its
instants follow those of R52 (R42, R50). -/
def lockGo : M Unit := do
  let s ← getS
  if s.bit RCTL_STAT_LOCK && s.dev.radio.walk.isNone && (s.radio == radSyn || s.radio == radRx) then
    match s.jobs.find? fun j => j.stage == .lockWait with
    | none => nop
    | some j => putJob { j with stage := .checked, ts := s.dev.time.link + if s.radio = radRx then 960 else 640 }

/-- The walk is over; a waiting request is carried out (R43), and a transmission that waited goes (R50). -/
def walkOver : M Unit := do
  modRadio fun r => { r with walk := none }
  setIdle
  let s ← getS
  match s.dev.radio.waiting with
  | none => nop
  | some r =>
    modRadio fun x => { x with waiting := none }
    carryOut r
  lockGo

/-- Abandon the walk in progress; its request completes with a status (R43, R46). -/
def walkCut (st : Nat) : M Unit := do
  let s ← getS
  match s.dev.radio.walk with
  | none => nop
  | some w =>
    modRadio fun r => { r with walk := none }
    setFld SYNTH_STAT_CAL 0
    match w.req with
    | some r => reqDone r st
    | none => nop

/-- The waiting request is superseded (R43). -/
def waitingCut (st : Nat) : M Unit := do
  let s ← getS
  match s.dev.radio.waiting with
  | none => nop
  | some r =>
    modRadio fun x => { x with waiting := none }
    reqDone r st

/-- Take the radio towards STBY or SLEEP at once: a transition or a transmission in progress is cut (R43, R523). A Bow
sequencer that does not respond moves it nowhere (R46). -/
def radioCut (goal : Nat) (req : Option RadioReq) : M Unit := do
  waitingCut stAborted
  let had := (← getS).dev.radio.walk.isSome
  walkCut stAborted
  let was ← cutAir stAborted
  modRadio fun r => { r with unlock := false }
  let s ← getS
  if s.dev.radio.bowDead then setIdle
  else if s.radio = goal ∧ !had ∧ !was then
    setIdle
    match req with
    | some r => reqDone r stOk
    | none => nop
  else stepStart (if s.radio = 1 ∧ goal = 0 ∧ !had then 0 else 1) goal false req

/-- The radio is at rest: no transition, no transmission. -/
def State.radioIdle (s : State) : Bool := !s.bit RCTL_STAT_BUSY

/-- A radio request (R40–R46): refused, cut through, left waiting, or carried out. -/
def radioReq (goal : Nat) (retune link : Bool) : M Unit := do
  let s ← getS
  let r : RadioReq := { goal := goal, retune := retune, link := link, at_ := s.dev.time.link }
  if s.bit RCTL_STAT_OWNER != link || s.dev.radio.bowDead || (!s.bit RCTL_STAT_UCODE_OK && goal != 0) then reqRefused
  else if 3 < goal then reqDone r stParam
  else if goal ≤ 1 ∧ !retune then radioCut goal (some r)
  else if s.radioIdle ∧ s.radio ≠ radTx then carryOut r
  else
    waitingCut stAborted
    modRadio fun x => { x with waiting := some r }

/-- A request as a command: the die temperature at the time, who asks, the state asked for. -/
def radioCmd (goal : Nat) (link : Bool) (temp : Int) : M Unit := do
  modRadio fun r => { r with temp := temp }
  radioReq goal false link

/-- RADIO_REQUEST_SLEEP (R41, R43). -/
def execRadioRequestSleep (link : Bool) (temp : Int) (s : State) : Host.Outcome State Fault Refusal :=
  cmd s (radioCmd radSleep link temp)

/-- RADIO_REQUEST_STBY (R41, R43). -/
def execRadioRequestStby (link : Bool) (temp : Int) (s : State) : Host.Outcome State Fault Refusal :=
  cmd s (radioCmd radStby link temp)

/-- RADIO_REQUEST_SYN (R41, R43). -/
def execRadioRequestSyn (link : Bool) (temp : Int) (s : State) : Host.Outcome State Fault Refusal :=
  cmd s (radioCmd radSyn link temp)

/-- RADIO_REQUEST_RX (R41, R43). -/
def execRadioRequestRx (link : Bool) (temp : Int) (s : State) : Host.Outcome State Fault Refusal :=
  cmd s (radioCmd radRx link temp)

/-- A write of SYNTH_CHAN (R69): ignored from a requester that does not own the radio; in SYN or RX, and in TX for the state it
returns to, a channel change; in SLEEP and STBY, and on the way down to them, N waits for the next tune. -/
def chanWrite (v : Word) (link : Bool) : M Unit := do
  let s ← getS
  if s.bit RCTL_STAT_OWNER != link then setFlt synthPage fltState
  else
    setFld SYNTH_CHAN_N (bitsGet v 9 0)
    let goal := s.fld RCTL_STAT_TARGET
    if 2 ≤ s.radio ∧ 2 ≤ goal then radioReq (if goal = radTx then s.dev.radio.back else goal) true link

/-- CHANNEL_CHANGE (R69). -/
def execChannelChange (v : Word) (link : Bool) (temp : Int) (s : State) : Host.Outcome State Fault Refusal := cmd s do
  modRadio fun r => { r with temp := temp }
  chanWrite v link

/-- The end of a walk's step: its state is entered, and the walk goes on or is over (R42, R43). A tune after a loss of lock that
ends without lock is repeated (R49). -/
def stepDone : M Unit := do
  let s ← getS
  match s.dev.radio.walk with
  | none => nop
  | some w =>
    if w.tunes && s.dev.radio.unlock then
      tuneStore w.miss
      let miss ← tuneStart
      modRadio fun r => { r with walk := some { w with miss := miss } }
    else
      enterState w.next
      if w.tunes then
        tuneStore w.miss
        lockRise
        lockHeard
      if w.next = radRx then lanesEnterRx
      else
        setBlank false
        forAll (List.range 4) fun n => setLaneState n laneOff
      match walkNext w.next w.goal w.retune with
      | some n => stepStart n w.goal w.retune w.req
      | none =>
        match w.req with
        | some r =>
          modRadio fun x => { x with walk := none }
          setIdle
          reqDone r stOk
        | none => nop
        walkOver

/-- RADIO_TRANSITION_DONE (R42). -/
def execRadioTransitionDone (s : State) : Host.Outcome State Fault Refusal := cmd s stepDone

/-! ### Lock (R49, R50) -/

/-- Walk back to a state with a fresh tune of the same channel, the lanes off meanwhile (R49). -/
def relock (goal : Nat) (req : Option RadioReq) : M Unit := do
  let miss ← tuneStart
  enterState radSyn
  setBlank false
  forAll (List.range 4) fun n => setLaneState n laneOff
  setBusy goal
  modRadio fun r => { r with walk := some { next := 2, goal := goal, tunes := true, retune := false, miss := miss
                                            req := req } }

/-- The radio leaves TX for the state it left, by a walk without a request (R42, R44). -/
def txReturn : M Unit := do
  let s ← getS
  let b := s.dev.radio.back
  if s.dev.radio.bowDead then setIdle
  else
    setBusy b
    modRadio fun r => { r with walk := some { next := b, goal := b, req := none } }

/-- Loss of lock (R49). R49 speaks of RX and TX; in SYN, and in a walk that leads there or beyond, the loss is counted and
raises its event, and the synthesiser is tuned afresh on the way to the state it was in or bound for (DESIGN CHOICE; log entry
108). A Bow sequencer that does not respond tunes nothing (R46). -/
def synUnlock : M Unit := do
  let s ← getS
  if s.bit RCTL_STAT_LOCK then
    setLock false
    modRadio fun r => { r with unlock := true }
    setFld SYNTH_STAT_UNLOCKS (min 0xFFFF (s.fld SYNTH_STAT_UNLOCKS + 1))
    emit synthPage 0xB8
    if s.dev.radio.bowDead then nop
    else if s.onAir.isSome then
      let _ ← cutAir stInternal
      relock s.dev.radio.back none
    else if s.radio = radRx then
      lanesOff dropRadio
      match s.dev.radio.walk with
      | some w => relock (if w.goal < 2 then 3 else w.goal) w.req
      | none => relock radRx none
    else match s.dev.radio.walk with
      | some w => if 2 ≤ w.goal then relock w.goal w.req else nop
      | none => if s.radio = radSyn then relock radSyn none else nop

/-- SYN_UNLOCK (R49). -/
def execSynUnlock (s : State) : Host.Outcome State Fault Refusal := cmd s synUnlock

/-- The synthesiser locks: the tune in progress ends, and a transmission waiting for lock is sent (R49, R50). -/
def execSynLock (s : State) : Host.Outcome State Fault Refusal := cmd s do
  match s.dev.radio.walk with
  | some w =>
    if w.tunes then
      modRadio fun r => { r with unlock := false }
      stepDone
  | none =>
    if !s.bit RCTL_STAT_LOCK ∧ 2 ≤ s.radio then
      lockRise
      lockHeard
      lockGo

/-- 1,000 µs without lock: a lost lock takes the radio to STBY, and a transmission that waited completes with INTERNAL
(R49, R50). -/
def execLockTimeout (s : State) : Host.Outcome State Fault Refusal := cmd s do
  match s.jobs.find? fun j => j.stage == .lockWait with
  | some j =>
    if !s.bit RCTL_STAT_LOCK then finishJob { j with delay := (s.dev.time.link - j.ts) / 40 } stInternal
  | none => nop
  if s.dev.radio.unlock ∧ !s.bit RCTL_STAT_LOCK then
    setFld SYNTH_STAT_LOCKTO 1
    pulse 58
    modRadio fun r => { r with unlock := false }
    radioCut radStby none

/-! ### The die-to-die link (R26) -/

/-- Declare the link failed at the fourth error within 1 ms (R26). -/
def d2dError : M Unit := do
  let s ← getS
  let now := s.dev.time.link
  let l := (now :: s.dev.radio.d2dErrs).filter fun t => decide (now - t < 40000)
  modRadio fun r => { r with d2dErrs := l.take 4 }
  if 4 ≤ l.length ∧ !s.bit RCTL_STAT_LINKFAIL then
    setFld RCTL_STAT_LINKFAIL 1
    setFld RCTL_D2DERR_FAILED 1
    emit rctlPage 0xB9
    pulse 59
    stage 0x03 true stInternal (s.reg rctlPage).toNat (leBytes 4 (s.reg RCTL_D2DERR).toNat)

/-- End a transmission in the air with INTERNAL and go back (R26). -/
def airInternal : M Unit := do
  let was ← cutAir stInternal
  if was then txReturn

/-- Count an error in a field of RCTL_D2DERR. -/
def d2dCount (f : Fld) : M Unit := do
  let n ← fld f
  setFld f (min 255 (n + 1))

/-- A burst's 48 octets do not have the CRC-8 that crossed with them (R25): what D2D_RX_BURST_ERROR and D2D_TX_BURST_ERROR say has
been found. Their rows carry no operand, so the burst itself is not part of the command. -/
def burstBad (burst : List Byte) (crc : Byte) : Bool := decide (d2dCrc burst ≠ crc.toNat)

/-- D2D_RX_BURST_ERROR (R25, R26, R91): a receive burst is bad. -/
def execD2dRxBurstError (s : State) : Host.Outcome State Fault Refusal := cmd s do
  d2dCount RCTL_D2DERR_RXBURST
  forAll (List.range 4) fun n => if s.holds n then laneDrop n dropD2d laneSearch else nop
  airInternal
  d2dError

/-- D2D_TX_BURST_ERROR (R25, R26): a transmit burst is bad. -/
def execD2dTxBurstError (s : State) : Host.Outcome State Fault Refusal := cmd s do
  d2dCount RCTL_D2DERR_TXBURST
  airInternal
  d2dError

/-- D2D_REGBUS_ERROR (R26): the transfer under way, with so many failed attempts more than the number given. After the fourth
the access it carries, the next one to a radio page, is voided (log entry 109). -/
def execD2dRegbusError (fails : Fin 4) (s : State) : Host.Outcome State Fault Refusal := cmd s do
  forAll (List.range (fails + 1)) fun _ => do
    d2dCount RCTL_D2DERR_REGBUS
    d2dError
  if fails.val = 3 then
    modRadio fun r => { r with busFail := true }
    setFlt rctlPage fltPar
    airInternal

/-! ### A Bow sequencer that stops responding (R46) -/

/-- BOW_UNRESPONSIVE (R46). A request that waits completes with STATE, since no request can be carried out any more, but it was
accepted before, so that it is neither counted in REFUSED nor sets FLT.STATE (DESIGN CHOICE: R46 names only the request that
started the transition and later ones; log entry 110). -/
def execBowUnresponsive (s : State) : Host.Outcome State Fault Refusal := cmd s do
  if !s.dev.radio.bowDead then
    modRadio fun r => { r with bowDead := true }
    setFld RCTL_STAT_UCODE_OK 0
    let _ ← cutAir stInternal
    lanesOff dropRadio
    walkCut stInternal
    waitingCut stState
    setIdle

end Sys2Proof.Machine
end

