-- ==== Sys2Proof/Machine/Seen.lean ====
section
/-!
DEFINITION. The seen cache, the relay conditions, NTIME's value and its compare, and the scheduler's start and stop as
every chapter that moves them needs them, and the scheduler's windows (R163–R168, R174–R183, R188–R205).
-/
namespace Sys2Proof.Machine
open Sys2Proof.Reg

/-! ### Seen cache (R168, R175, R176) -/

/-- The set of a flood (R175). -/
def seenSet (orig fseq : Nat) : Nat := (fseq + 753 * orig) % 2048

/-- Entry e's tag word and its other word. -/
def State.seenTag (s : State) (e : Nat) : Word := s.word .seen (2 * e)
def State.seenLow (s : State) (e : Nat) : Word := s.word .seen (2 * e + 1)

/-- FLOOD_SEEN.LIFE; 0 acts as 1 (R184). -/
def State.seenLife (s : State) : Nat := max 1 (s.fld FLOOD_SEEN_LIFE)

/-- An entry is valid and its AGE has not reached LIFE (R176). -/
def State.seenLive (s : State) (e : Nat) : Bool :=
  bitOf (s.seenLow e).toNat 0 && decide (bitsGet (s.seenLow e) 31 16 < s.seenLife)

/-- The live entry of a flood (R168). -/
def State.seenFind (s : State) (orig fseq : Nat) : Option Nat :=
  ((List.range 4).map fun w => 4 * seenSet orig fseq + w).find? fun e =>
    s.seenLive e && (s.seenTag e).toNat == orig * 2 ^ 16 + fseq

/-- An entry's reception count (R168). -/
def State.seenCount (s : State) (e : Nat) : Nat := bitsGet (s.seenLow e) 3 1 + 1

/-- FLOOD_CFG.NRELAY: 0 acts as 1, above 8 as 8 (R184). -/
def State.nrelay (s : State) : Nat := max 1 (min 8 (s.fld FLOOD_CFG_NRELAY))

/-- Enter a flood with a reception count: into a way that is not live, else over the largest AGE (R176). -/
def seenInsert (orig fseq hop cnt : Nat) : M Unit := do
  let s ← getS
  let ways := (List.range 4).map fun w => 4 * seenSet orig fseq + w
  let open_ := ways.filter fun e => !s.seenLive e
  let age (e : Nat) := bitsGet (s.seenLow e) 31 16
  let oldest := ways.foldl (fun m e => max m (age e)) 0
  let cands := if open_.isEmpty then ways.filter fun e => age e == oldest else open_
  if open_.isEmpty then count floodPage 0x03 0
  let i ← freeNat
  let e := cands.getD (i % cands.length) 0
  act (.tab .seen (2 * e) (BitVec.ofNat 32 (orig * 2 ^ 16 + fseq)))
  act (.tab .seen (2 * e + 1) (BitVec.ofNat 32 (min 4095 hop * 16 + (cnt - 1) * 2 + 1)))
  count floodPage 0x03 3

/-- One more reception of a flood (R168). -/
def seenBump (e : Nat) : M Unit := do
  let s ← getS
  act (.tab .seen (2 * e + 1) (bitsPut (s.seenLow e) 3 1 (min 7 (bitsGet (s.seenLow e) 3 1 + 1))))

/-- AGE advances by n seconds in every entry in use, saturating (R176). -/
def seenAge (n : Nat) : M Unit := do
  let s ← getS
  forAll s.seen fun kv =>
    if kv.1 % 2 = 1 ∧ bitOf kv.2.toNat 0 then
      act (.tab .seen kv.1 (bitsPut kv.2 31 16 (min 0xFFFF (bitsGet kv.2 31 16 + n))))
    else nop

/-! ### Relay conditions (R164, R167) -/

/-- T_RELAY in link ticks, FLOOD_WIN in µs, the relay preamble (R184). -/
def State.tRelay (s : State) : Nat := max 8000 (min 200000 (s.fld FLOOD_TRELAY_TICKS))
def State.floodWin (s : State) : Nat := max 1 (min 8000000 (s.fld FLOOD_WIN_WIN))
def State.rpre (s : State) : Nat := max 4 (s.fld FLOOD_RPRE_PRE)

/-- T_HOP in link ticks for a frame of L octets received on lane n (R167). -/
def State.tHop (s : State) (n : Nat) (coded : Bool) (mcs l : Nat) : Nat :=
  s.tRelay + 40 * s.airtime n coded mcs s.rpre l

/-- The class permits a relay (R164). -/
def State.classRelay (s : State) (m : Mac) (f : FloodIe) : Bool :=
  f.cls != 1 || (decide (s.fld FLOOD_HTR_HTR < f.htr) && m.dst != .short (s.fld FILT_ADDR_SHORT))

/-- The first relay condition that fails: 0 none, 1 the mode, 2 HOPLIM, 3 FLOOD_WIN, 4 the class (R167, R185). -/
def State.relayFail (s : State) (m : Mac) (f : FloodIe) (thop : Nat) : Nat :=
  if s.fld LINK_STAT_MODE ≠ 2 then 1
  else if f.hoplim ≤ f.hopcnt then 2
  else if 40 * s.floodWin < (f.hopcnt + 1) * thop then 3
  else if !s.classRelay m f then 4
  else 0

/-! ### Network time (R177, R183) -/

/-- NTIME and its comparisons modulo 2⁴⁸ (R152, R177). -/
def State.ntime (s : State) : Nat := s.dev.time.ntime
def behind (instant now : Nat) : Bool := decide (2 ^ 47 ≤ (instant + 2 ^ 48 - now % 2 ^ 48) % 2 ^ 48)

def State.cmpValue (s : State) : Nat := (s.reg NTIME_CMPLO).toNat + s.fld NTIME_CMPHI_VALUE * 2 ^ 32

/-- NTIME has reached the armed compare (R183, R186). -/
def State.cmpReached (s : State) : Bool :=
  s.bit NTIME_STAT_CMPARMED && !behind s.ntime s.cmpValue

/-- The compare fires once per arming (R183). -/
def cmpFire : M Unit := do
  let s ← getS
  if s.cmpReached then
    setFld NTIME_STAT_CMPARMED 0
    emit ntimePage 0xA6

/-! ### The scheduler's start and stop (R188, R189, R204, R205) -/

def modSamp (f : Samp → Samp) : M Unit := modDev fun d => { d with samp := f d.samp }
def modFlood (f : Flood → Flood) : M Unit := modDev fun d => { d with flood := f d.flood }

/-- The scheduler runs (R188). -/
def State.sampOn (s : State) : Bool :=
  s.en sampPage && s.fld LINK_STAT_MODE != 0 && !s.bit NTIME_CFG_ROOT && s.dev.pwr.state != .easy

/-- The states SAMP_STAT.WIN and BSTATE show (R206). -/
abbrev winNone : Nat := 0
abbrev winSample : Nat := 1
abbrev winStrobe : Nat := 2
abbrev winBeacon : Nat := 3
abbrev winScan : Nat := 4
abbrev winHold : Nat := 5
abbrev bOff : Nat := 0
abbrev bTrack : Nat := 1
abbrev bScan : Nat := 2
abbrev bLost : Nat := 3

/-- The window WIN shows where several are open: a beacon window, scan or hold first, then a strobe wait (log entry 124). -/
def Samp.shown (x : Samp) : Nat :=
  if x.main ≠ 0 then x.main else if x.rdv.isSome then winStrobe else if x.sample then winSample else winNone

/-- A window of the scheduler needs the radio: all but a strobe wait that sleeps (R193, R205). -/
def Samp.holds (x : Samp) : Bool := x.sample || x.main != 0 || x.rdv.any (·.awake)

/-- The link clock runs: not in EASY, and in REST, from the LF edge of its entry on, only for a window of the scheduler (R372). -/
def State.linkClock (s : State) : Bool :=
  match s.dev.pwr.state with
  | .easy => false
  | .rest => s.dev.samp.holds
  | _ => s.dev.pwr.entry != .edge || s.dev.samp.holds

/-- SEEN_AGE_TICK (R176): while the link clock is stopped the strobe is counted instead. -/
def execSeenAgeTick (s : State) : Host.Outcome State Fault Refusal := cmd s do
  if s.linkClock then seenAge 1
  else modFlood fun f => { f with missed := f.missed + 1 }

/-- Link ticks up to the next LF edge; none where this tick is one (R4). -/
def State.toLfEdge (s : State) : Nat :=
  if s.dev.time.lfPhase < 64 then 0 else ceilDiv (78125 - s.dev.time.lfPhase) 64

/-- Record NTIME, the LF count, the trim and SYNC as they stand at the LF edge at hand (R181). A restore that has not come yet
leaves the earlier record, which still holds (log entry 125). -/
def carryMake : M Unit := do
  let s ← getS
  if !s.dev.time.restore then
    let d := s.toLfEdge
    modTime fun t => { t with carry := some { ntime := (t.ntime + d) % 2 ^ 48, ao := (t.ao + if d = 0 then 0 else 1) % 2 ^ 48
                                              trim := s.fld NTIME_TRIM_TRIM, sync := s.bit NTIME_STAT_SYNC } }
    setFld NTIME_STAT_CVALID 1

/-- The link clock restarts: the seen cache takes the seconds it missed (R176), and NTIME waits for its restore (R181). -/
def clockStart : M Unit := do
  let s ← getS
  seenAge s.dev.flood.missed
  modFlood fun f => { f with missed := 0 }
  modTime fun t => { t with restore := t.restore || t.carry.isSome }

/-- The lanes of the open windows search while the radio receives, and no other lane of a radio the scheduler woke (R190,
R201). -/
def lanesFit : M Unit := do
  let s ← getS
  if s.rxRuns then
    forAll (List.range 4) fun n =>
      if s.laneState n = laneOff ∧ s.laneOn n then setLaneState n laneSearch
      else if s.laneState n = laneSearch ∧ !s.laneOn n then setLaneState n laneOff
      else nop

/-- Windows open or close: WIN follows, the lanes, and in REST the link clock with them (R206, R372). -/
def setWin (f : Samp → Samp) : M Unit := do
  let s ← getS
  modSamp f
  let t ← getS
  setFld SAMP_STAT_WIN t.dev.samp.shown
  if s.linkClock && !t.linkClock then carryMake
  if !s.linkClock && t.linkClock then clockStart
  lanesFit

/-- No window is open. -/
def Samp.shut (x : Samp) : Samp :=
  { x with sample := false, detected := false, extended := false, energy := false, main := 0, heard := false
           updated := false, rejected := false, ended := false, rdv := none }

/-- The scheduler stops (R188, R204). -/
def sampStop : M Unit := do
  setWin fun x => { x.shut with anchor := none, reanchor := false, woke := false, closing := false }
  setFld SAMP_STAT_BSTATE bOff
  setFld SAMP_STAT_MISSES 0

/-- A window has closed: where none holds the radio that the scheduler woke, it returns to SLEEP (R190, R191); a scheduler
disabled meanwhile stops (R205). -/
def winRest : M Unit := do
  let s ← getS
  if !s.dev.samp.holds then
    if s.dev.samp.woke then
      modSamp fun x => { x with woke := false }
      if s.radio ≠ radSleep ∨ !s.radioIdle then radioReq radSleep false true
    if s.dev.samp.closing then sampStop

/-- Close windows, and let the radio rest where none is left. -/
def winEnd (f : Samp → Samp) : M Unit := do
  setWin f
  winRest

/-- The sample window closes. -/
def Samp.sampleEnd (x : Samp) : Samp :=
  { x with sample := false, detected := false, extended := false, energy := false }

/-- The beacon window, scan or hold closes. -/
def Samp.mainEnd (x : Samp) : Samp :=
  { x with main := 0, heard := false, updated := false, rejected := false, ended := false }

/-- A beacon window, scan or hold opens. -/
def Samp.mainOpen (x : Samp) (w : Nat) : Samp := { x.mainEnd with main := w }

/-- Continuous RX (R193, R201, R204): the radio is woken where it sleeps or is on its way there. -/
def listen : M Unit := do
  let s ← getS
  if s.radio ≠ radRx ∧ s.radio ≠ radTx then
    if s.radio = radSleep ∨ s.fld RCTL_STAT_TARGET = radSleep then
      modSamp fun x => { x with woke := true }
    radioReq radRx false true

/-- A scan opens (R204). -/
def scanOpen : M Unit := do
  setFld SAMP_STAT_BSTATE bScan
  setWin fun x => x.mainOpen winScan
  listen

/-- A tracked beacon is missed (R202, R204). -/
def beaconMissed : M Unit := do
  count sampPage 0x04 1
  stat 0x13
  emit sampPage 0x0A
  let s ← getS
  let m := s.fld SAMP_STAT_MISSES
  if m < 2 then
    setFld SAMP_STAT_MISSES (m + 1)
    winEnd Samp.mainEnd
  else
    setFld NTIME_STAT_SYNC 0
    count sampPage 0x04 2
    emit sampPage 0x0B
    pulse 55
    scanOpen

/-- No lane holds a frame, no frame waits for its MIC and no acknowledgement or relay is due (R191). -/
def State.rxQuiet (s : State) : Bool :=
  (List.range 4).all (fun n => (s.lane n).frame.isNone && (s.lane n).mics.isEmpty)
    && !(s.jobs.any fun j => j.kind == .ack || j.kind == .relay)

/-- What the windows do once no frame and nothing a frame earned is left: a sample window kept open for a detection closes
(R191), a strobe wait whose frame came is over (R193), a beacon window goes on to its hold, or closes as a miss (R202, R203), a
hold whose end has passed closes, and so does any window of a scheduler disabled meanwhile (R205). -/
def winSettle : M Unit := do
  let s ← getS
  if s.rxQuiet then
    let x := s.dev.samp
    if x.closing then winEnd Samp.shut
    else
      if x.sample && x.extended && x.detected then winEnd Samp.sampleEnd
      if x.rdv.any (·.hit) then winEnd fun y => { y with rdv := none }
      if x.main = winBeacon then
        if x.updated then
          if s.fld SAMP_BCFG_HOLD = 0 then winEnd Samp.mainEnd else setWin fun y => y.mainOpen winHold
        else if x.rejected || x.ended then beaconMissed
      if x.main = winHold ∧ x.ended then winEnd Samp.mainEnd

/-- Beacon tracking leaves OFF where it may (R204). -/
def trackEnter : M Unit := do
  let s ← getS
  if s.sampOn && s.bit SAMP_BCFG_TRACK && s.fld SAMP_STAT_BSTATE == bOff then
    setFld SAMP_STAT_MISSES 0
    if s.bit NTIME_STAT_SYNC then setFld SAMP_STAT_BSTATE bTrack
    else scanOpen

/-- The scheduler starts: the lattice re-anchors at the next LF edge and tracking re-enters through OFF (R189, R205). -/
def sampStart : M Unit := do
  let s ← getS
  if s.sampOn then
    modSamp fun x => { x with reanchor := true, closing := false }
    trackEnter

/-- The scheduler follows a change of what it runs under, beside its own EN (R188): `was` says that it ran before. -/
def sampFollow (was : Bool) : M Unit := do
  let s ← getS
  if was && !s.sampOn then
    winEnd Samp.shut
    sampStop
  if !was && s.sampOn then sampStart

end Sys2Proof.Machine
end

