-- ==== Sys2Proof/Machine/Link.lean ====
section
/-!
DEFINITION. The link controller's modes, its microcode, and everything it sends: taking descriptors, securing, reserving,
releasing, the instants of a transmission, retries and the rendezvous ladder; and the lane commands that can end a frame (R76,
R50–R52, R117–R123, R129–R133, R146–R153,
R165, R195–R200, R225, R518, R523).
-/
namespace Sys2Proof.Machine
open Sys2Proof.Reg

/-! ### Reservations (R150, R151) -/

/-- T_ACK in µs and the acknowledgement's preamble (R156). -/
def State.tAck (s : State) : Nat := max 300 (min 2000 (s.fld LINK_CFG_TACK))
def State.ackPre (s : State) : Nat := max 4 (s.fld LINK_CFG_ACKPRE)

/-- From t_end to the close of the acknowledgement window, in link ticks (R149). -/
def State.ackSpan (s : State) (lane : Nat) : Nat :=
  let shr := if s.isOfdm lane then 720 * 40 else ceilDiv (8000 * 40 * (s.ackPre + 2)) (s.laneRate lane)
  40 * s.tAck + shr + 1600

/-- A job's occupancy of the radio, from and to (R150). -/
def TxJob.from_ (j : TxJob) : Nat := j.ts - 960
def State.jobTo (s : State) (j : TxJob) : Nat :=
  j.ts + 40 * j.air + max 800 (if j.ar then s.ackSpan j.lane else 0)

def State.overlaps (s : State) (j k : TxJob) : Bool :=
  decide (j.from_ < s.jobTo k) && decide (k.from_ < s.jobTo j)

/-- R150's ranks. -/
def TxJob.rank (j : TxJob) : Nat :=
  match j.kind with
  | .relay => 1
  | .ack => 2
  | _ => if j.timed then 3 else 4

/-- A job that holds a reservation. -/
def TxJob.reserves (j : TxJob) : Bool := decide (j.rank ≤ 3) && j.stage != .retryWait && j.stage != .ready

/-- A reservation whose PA has not started. -/
def TxJob.waits (j : TxJob) : Bool := j.stage == .securing || j.stage == .reserved || j.stage == .checked

/-! ### Ladder arithmetic (R192, R195–R199) -/

/-- An entry's sample interval in ms and in LF ticks (R143, R196). -/
def State.peerTs (s : State) (i : Nat) : Nat := bitsGet (s.peerW i 3) 31 16
def lfTicks (ms : Nat) : Nat := (2 * ms * 32768 + 1000) / 2000
def State.peerN (s : State) (i : Nat) : Nat := max 1 (lfTicks (s.peerTs i))

/-- LF ticks from the present to the i-th candidate sample instant E from now on (R196). -/
def State.ladDist (s : State) (p i : Nat) : Nat :=
  let age := (s.dev.time.ao + 2 ^ 32 - (s.peerW p 6).toNat) % 2 ^ 32
  let n := s.peerN p
  if age < 2 ^ 31 then ceilDiv age n * n - age + i * n else 2 ^ 32 - age + i * n

/-- The guard g in µs at that instant (R196). -/
def State.ladGuard (s : State) (p dist : Nat) : Nat :=
  ceilDiv (80 * ((s.dev.time.ao + dist + 2 ^ 32 - (s.peerW p 7).toNat) % 2 ^ 32)) 32768 + 200

/-- LF ticks as link ticks through NTIME_LFCAL (R182, R196; log entry 30). -/
def State.lfToLink (s : State) (d : Nat) : Nat := (2 * d * s.fld NTIME_LFCAL_RATIO + 65536) / 131072

/-- T_P in µs for a lane's strobes (R198): strobes are sent uncoded with a preamble of 4 octets (log entry 31). -/
def State.strobeAir (s : State) (lane : Nat) : Nat := s.airtime lane false 0 4 20
def State.strobeGap (s : State) (lane : Nat) : Nat := 32 * ceilDiv (s.strobeAir lane + 64) 32

/-- Q (R206). -/
def State.qoct (s : State) : Nat := max 1 (s.fld SAMP_RDV_QOCT)

/-- Is a level permitted with guard g (R198)? At level 1 the first strobe's COUNT must also fit its 16 bits (R116, R117;
log entry 118). -/
def State.ladOk (s : State) (p lane level g : Nat) : Bool :=
  let n := s.peerN p * 1000000
  match level with
  | 0 => decide ((2 * g * s.laneRate lane + 8000 * s.qoct) * 32768 < n * s.laneRate lane)
  | 1 => decide ((8 * g + s.strobeGap lane) * 32768 < n)
      && decide (s.strobeGap lane / 32 * (8 * g / s.strobeGap lane) + 2 ≤ 65535)
  | _ => true

/-- The first E beyond `past` whose transmission start at a level lies at or after a link tick: E in link ticks and g (R199). -/
def State.ladFind (s : State) (p level earliest past : Nat) : Option (Nat × Nat) :=
  let k := if level = 0 then 40 else 160
  ((List.range 16).map fun i =>
      let d := s.ladDist p i
      (s.dev.time.link + s.lfToLink d, s.ladGuard p d)).find? fun e =>
        decide (earliest + k * e.2 ≤ e.1) && (past == 0 || decide (past + 40000 < e.1))

/-- The lowest level from `lo` on that R198 permits, with its E and g, E beyond `past`; 2 where the entry has no live
synchronisation. -/
def State.ladPlan (s : State) (j : TxJob) (lo earliest past : Nat) : Nat × Nat × Nat :=
  let p := j.peer
  let try_ (l : Nat) : Option (Nat × Nat × Nat) :=
    match s.ladFind p l earliest past with
    | some e => if s.ladOk p j.lane l e.2 then some (l, e) else none
    | none => none
  if !s.peerBit p 26 || s.peerBit p 28 then (2, 0, 0)
  else match (if lo ≤ 0 then try_ 0 else none) with
    | some x => x
    | none => match (if lo ≤ 1 then try_ 1 else none) with
      | some x => x
      | none => (2, 0, 0)

/-- The NTIME instant of a link tick to come (R196). -/
def State.ntimeAt (s : State) (t : Nat) : Nat := (s.ntime + (t - s.dev.time.link)) % 2 ^ 48

/-- Place an attempt of a ladder frame at a level: level 0 timed with a long preamble, level 1 behind its strobes, level 2
immediate with the wake preamble (R198). Nothing is reserved yet. Answers the frame and its strobes. -/
def State.ladPlace (s : State) (j : TxJob) (plan : Nat × Nat × Nat) : TxJob × List TxJob :=
  let (level, e, g) := plan
  let r := s.laneRate j.lane
  match level with
  | 0 =>
    let p := max j.pre0 (ceilDiv (2 * g * r) 8000 + s.qoct)
    ({ j with level := some 0, aim := e, timed := true, pre := p, air := s.jobAir j p, ts := e - 40 * g, stage := .reserved,
              nt := some (s.ntimeAt (e - 40 * g)) }, [])
  | 1 =>
    let gap := s.strobeGap j.lane
    let a := s.strobeAir j.lane
    let n := 8 * g / gap + 1
    let t0 := e - 160 * g
    let t1 := t0 + 40 * gap * (n - 1) + 40 * a + 2560
    let m := parseMac j.octets
    let dst := match m.dst with | .short x => x | _ => 0xFFFF
    let strobes := (List.range n).map fun i =>
      let ts := t0 + 40 * gap * i
      let last := decide (i + 1 = n)
      { kind := TxKind.strobe, stage := TxStage.reserved, lane := j.lane, timed := true, fcs2 := true
        hidx := j.hidx, pwr := j.pwr, pre := 4, pre0 := 4, air := a, ts := ts, parent := j.id, nt := some (s.ntimeAt ts)
        octets := strobeFrame { pan := s.fld FILT_ADDR_PAN, dst := dst, src := s.fld FILT_ADDR_SHORT
                                count := (t1 - (ts + 40 * a)) / 1280, dsn := m.dsn.getD 0
                                flags := b2n last + 2 * b2n j.ar } : TxJob }
    ({ j with level := some 1, aim := e, timed := true, pre := j.pre0, air := s.jobAir j j.pre0, ts := t1,
              nt := some (s.ntimeAt t1), stage := .reserved }, strobes)
  | _ =>
    let p := max j.pre0 (ceilDiv ((s.peerTs j.peer * 1000 + 200) * r) 8000)
    ({ j with level := some 2, timed := false, nt := none, pre := p, air := s.jobAir j p, stage := .ready }, [])

/-! ### Reserving and yielding (R150, R199) -/

/-- Two transmissions of one ladder attempt: a frame and its strobes (R198). -/
def TxJob.kin (j k : TxJob) : Bool :=
  let head (x : TxJob) : Nat := if x.kind = .strobe then x.parent else x.id
  head j == head k

/-- Does a timed frame find its occupancy taken by rank 1 to 3 (R150)? -/
def State.taken (s : State) (j : TxJob) : Bool :=
  s.jobs.any fun k => !j.kin k && k.reserves && s.overlaps j k

/-- Drop the strobes of a frame. -/
def dropStrobes (id : Nat) : M Unit := do
  let s ← getS
  setJobs (s.jobs.filter fun k => !(k.kind == .strobe && k.parent == id))

/-- An attempt that is to be released after the random wait of R153 (R199), counted from the close of the acknowledgement window
or, for a first attempt, from now. -/
def waitRandom (j : TxJob) : M Unit := do
  let s ← getS
  let w ← freeIn 0 (1000 * s.fld LINK_CFG_WAITMAX)
  let base := if j.closed then j.tend + s.ackSpan j.lane else s.dev.time.link
  putJob { j with stage := .retryWait, ts := base + 40 * w, closed := false }

/-- Place a ladder attempt and reserve it; an attempt that yields at once, or that has yielded, counts as DEFER and moves
on to the next lattice instant, and the eighth consecutive one completes the frame with LATE (R199). `k` bounds the moves,
`past` is the instant moved on from. -/
def ladTry : Nat → TxJob → Nat → Nat → Nat → M Unit
  | 0, j, _, _, _ => finishJob j stLate
  | k + 1, j, lo, earliest, past => do
    let s ← getS
    let plan := s.ladPlan j lo earliest past
    let (f, strobes) := s.ladPlace j plan
    if 65535 < f.pre then finishJob j stParam
    else if f.level = some 2 then waitRandom f
    else if s.taken f || strobes.any s.taken then
      count sampPage 0x06 0
      let d := { j with defers := j.defers + 1 }
      putJob d
      if 8 ≤ d.defers then finishJob d stLate else ladTry k d (f.level.getD 0) earliest f.aim
    else
      putJob f
      forAll strobes fun x => do
        let _ ← addJob x

/-- An attempt at level 0 or 1 yields or is cancelled LATE: it moves to the next lattice instant (R199). -/
def ladDefer (j : TxJob) : M Unit := do
  dropStrobes j.id
  count sampPage 0x06 0
  let d := { j with defers := j.defers + 1, stage := TxStage.ready }
  putJob d
  let s ← getS
  if 8 ≤ d.defers then finishJob d stLate
  else ladTry 8 d (j.level.getD 0) (s.dev.time.link + 40000) j.aim

/-- A ladder attempt at level 0 or 1. -/
def TxJob.onLattice (j : TxJob) : Bool := j.level == some 0 || j.level == some 1

/-- A timed frame yields to a reservation above it (R150): LATE, or DEFER on the ladder. -/
def yieldJob (j : TxJob) : M Unit := do
  let s ← getS
  if j.kind = .strobe then
    match s.job j.parent with
    | some p => ladDefer p
    | none => dropJob j.id
  else if j.onLattice then ladDefer j
  else finishJob j stLate

/-- Count what a reservation that is not made counts (R150). -/
abbrev ackConflict : Nat := 0
abbrev relayConflict : Nat := 1
abbrev relayCancel : Nat := 2
def linkCount4 (w : Nat) : M Unit := count linkPage 0x04 w

/-- Reserve an acknowledgement or a relay (R150): answers its number, or none where it is not sent. -/
def reserve (j : TxJob) : M (Option Nat) := do
  let s ← getS
  let meets := s.jobs.filter fun k => k.reserves && s.overlaps j k
  if meets.any fun k => decide (k.rank ≤ j.rank) then
    linkCount4 (if j.kind = .relay then relayConflict else ackConflict)
    return none
  else
    forAll (meets.filter TxJob.waits) fun k =>
      if k.kind = .ack then do
        linkCount4 ackConflict
        cancelJob k
      else yieldJob k
    let id ← addJob j
    return some id

/-- Reserve a timed frame already in the queue (R150): it yields to what is reserved. -/
def reserveTimed (j : TxJob) : M Unit := do
  let s ← getS
  if s.taken j then yieldJob j else putJob { j with stage := .reserved }

/-- The first instant at or after a link tick at which an occupancy overlaps no reservation (R165). -/
def State.gapFrom (s : State) (j : TxJob) : Nat → Nat → Nat
  | 0, t => t
  | k + 1, t =>
    let f := { j with ts := t }
    match s.jobs.find? fun x => x.id != j.id && x.reserves && s.overlaps f x with
    | none => t
    | some x => s.gapFrom j k (s.jobTo x + 960)

/-! ### Taking descriptors (R131, R152, R165, R195, R225) -/

/-- Word k of a descriptor. -/
def descWord (d : List Byte) (k : Nat) : Word := wordOf (sliceOf d (4 * k) 4)

/-- A descriptor's job before any check (R131). -/
def jobOf (host : Bool) (slot : Nat) (d : List Byte) : TxJob :=
  let w0 := descWord d 0
  let w1 := descWord d 1
  let w3 := descWord d 3
  { kind := if host then .host else .ring
    slot := slot
    timed := bitOf w0.toNat 30
    urgent := bitOf w0.toNat 29
    secured := bitOf w0.toNat 28
    lane := bitsGet w0 27 26
    coded := bitOf w0.toNat 25
    fcs2 := bitOf w0.toNat 24
    white := bitOf w0.toNat 23
    pre0 := bitsGet w1 31 16
    pre := bitsGet w1 31 16
    pwr := bitsGet w1 15 10
    hidx := bitsGet w1 9 3
    mcs := bitsGet w1 2 0
    nt := if bitOf w0.toNat 30 then some ((descWord d 2).toNat + bitsGet w3 31 16 * 2 ^ 32) else none
    tag := bitsGet w3 15 8
    retries := bitsGet w3 7 5 }

/-- The lane's configuration and the fields lie in range (R119, R131). -/
def State.descOk (s : State) (j : TxJob) (len : Nat) : Bool :=
  s.laneCfgOk j.lane
    && decide (len + (if j.fcs2 then 2 else 4) ≤ 2047)
    && (match s.lanePhy j.lane with
        | 0 => decide (33 ≤ j.hidx) && decide (j.hidx ≤ 100) && decide (4 ≤ j.pre)
        | 1 => decide (4 ≤ j.pre)
        | _ => !j.fcs2 && !j.coded && mcsOk (s.fld (LANES_MODE_OPT j.lane)) j.mcs)

/-- Who owns the chain a descriptor names: the core, or the host port (R126, R131, R133). -/
def TxJob.sender (j : TxJob) : Nat := if j.kind = .host then ownHost else ownCore

/-- The status a descriptor earns under R131. A chain of more cells than NCM1 + 1 is taken whole (log entry 120). -/
def State.descCheck (s : State) (d : List Byte) (j : TxJob) : Nat :=
  let w0 := descWord d 0
  let len := bitsGet w0 10 0
  let cells := s.chain (bitsGet w0 19 11)
  if bitOf w0.toNat 31 || !s.descOk j len then stParam
  else if bitsGet w0 22 20 + 1 ≠ cellsFor len then stLength
  else if cells.length < bitsGet w0 22 20 + 1 ∨ cells.any (fun c => (s.cell c).owner != j.sender) then stState
  else stOk

/-- A timed frame's distance in link ticks, or the status R152 gives it. -/
def State.instantOf (s : State) (nt : Nat) : Except Nat Nat :=
  let d := (nt + 2 ^ 48 - s.ntime % 2 ^ 48) % 2 ^ 48
  if 2 ^ 47 ≤ d ∨ d < 1600 then .error stLate
  else if 2 ^ 32 < d then .error stParam
  else .ok (s.dev.time.link + d)

/-- A flood to originate may be (R165). -/
def State.mayOriginate (s : State) (m : Mac) (f : FloodIe) : Bool :=
  floodValid m f && f.orig == s.fld FILT_ADDR_SHORT && f.hopcnt == 0
    && (f.cls != 3 || s.bit NTIME_CFG_ROOT)

/-- The octets of a flood with FSEQ, and for a TIME flood ORIGIN, written in (R165); the flood is entered in the seen
cache with its count at 8. -/
def originate (l : List Byte) (f : FloodIe) (origin : Option Nat) : M (List Byte) := do
  let s ← getS
  let q := s.fld FLOOD_SEQ_NEXT
  setFld FLOOD_SEQ_NEXT ((q + 1) % 2 ^ 16)
  seenInsert f.orig q 0 8
  count floodPage 0x04 0
  let l := patch l (f.at_ + 6) (leBytes 2 q)
  return match origin with
    | some t => patch l (f.at_ + 15) (leBytes 6 (t % 2 ^ 48))
    | none => l

/-- The frame stands in the ladder (R195): its peer entry. -/
def State.ladder (s : State) (j : TxJob) (m : Mac) : Option Nat :=
  if j.kind == .ring && s.bit SAMP_RDV_EN && !j.timed && m.ar then
    match s.peerHit m.dst with
    | some i => if s.peerBit i 29 then some i else none
    | none => none
  else none

/-- A frame that is ready goes where its kind takes it: the ladder, its reservation, or the immediate queue. -/
def enqueue (j : TxJob) : M Unit := do
  let s ← getS
  match j.level with
  | some _ =>
    putJob { j with stage := .ready }
    ladTry 8 { j with stage := .ready } 0 (s.dev.time.link + 40000) 0
  | none => if j.timed then reserveTimed j else putJob { j with stage := .ready }

/-- The link controller takes a descriptor (R131, R152, R165, R225). `j` is in the queue already. One that fails its check
completes at once and frees what the sender owns of its chain (R132). -/
def takeDesc (d : List Byte) (j : TxJob) : M Unit := do
  let s ← getS
  let st := s.descCheck d j
  let w0 := descWord d 0
  let cells := s.chain (bitsGet w0 19 11)
  if st ≠ stOk then finishJob { j with cells := cells.filter fun c => (s.cell c).owner == j.sender } st
  else
    let l := s.chainBytes cells (bitsGet w0 10 0)
    passCells cells ownLink
    let m := parseMac l
    let j := { j with cells := cells, octets := l, ar := m.ok && m.ar }
    let j := { j with air := s.jobAir j j.pre }
    let lad := s.ladder j m
    let flood := floodIe l m
    let bad := match lad with
      | some i => s.isOfdm j.lane || decide (s.peerTs i < 100) || decide (10000 < s.peerTs i)
      | none => false
    let badFlood := match flood with | some f => !s.mayOriginate m f | none => false
    let inst : Except Nat Nat := match j.nt with | some t => s.instantOf t | none => .ok 0
    if bad || badFlood then finishJob j stParam
    else match inst with
    | .error e => finishJob j e
    | .ok ts =>
      let j := { j with ts := ts, peer := lad.getD 0, level := lad.map fun _ => 0 }
      let gapTime := match flood with | some f => f.cls == 3 && !j.timed | none => false
      let j := if gapTime then
          let t := s.gapFrom j (s.jobs.length + 1) (s.dev.time.link + 8000)
          { j with timed := true, ts := t, nt := some (s.ntimeAt t) }
        else j
      let l ← (match flood with
        | some f => originate l f (if f.cls = 3 then some ((j.nt.getD 0) + 40 * j.air) else none)
        | none => pure l)
      let seed ← takeSeed j.lane
      let j := { j with octets := l, seed := seed }
      if j.secured then
        match ← secureTx l with
        | .error e => finishJob j e
        | .ok (l', n) =>
          chainWrite cells l'
          putJob { j with octets := l', fcnt := n, stage := .securing }
      else
        chainWrite cells l
        enqueue j

/-- A descriptor waits in a ring for the link controller (R129, R133). -/
def State.ringWaits (s : State) (host : Bool) : Bool :=
  if host then !s.dev.hostp.tx.isEmpty
  else s.dev.tx.take != s.fld LINK_TXIDX_WR % ringSize (s.fld LINK_TXRING_SIZE)

/-- The link controller may take a frame (R120, R150). -/
def State.takes (s : State) : Bool :=
  s.en linkPage && s.fld LINK_STAT_MODE != 0 && decide ((s.jobs.filter TxJob.queued).length < 16)

/-- TX_DESCRIPTOR_TAKE (R131): from the firmware's ring or the host port's; one that cannot be read is INTERNAL (R272). -/
def execTxDescriptorTake (host : Bool) (s : State) : Host.Outcome State Fault Refusal := cmd s do
  if s.takes && s.ringWaits host then
    if host then
      let d := s.dev.hostp.tx.headD []
      modDev fun x => { x with hostp := { x.hostp with tx := x.hostp.tx.drop 1 } }
      let j := jobOf true 0 d
      let id ← addJob j
      takeDesc d { j with id := id }
    else
      let n := ringSize (s.fld LINK_TXRING_SIZE)
      let slot := s.dev.tx.take
      let a := s.fld LINK_TXRING_BASE * 16 + 16 * slot
      let d := s.bytes a 16
      modTx fun t => { t with take := (slot + 1) % n }
      let j := jobOf false slot d
      let id ← addJob j
      if s.dev.eccBad.any fun x => decide (a ≤ x) && decide (x < a + 16) then
        stat 0x15
        finishJob { j with id := id } stInternal
      else takeDesc d { j with id := id }

/-- FRAME_SECURED (R225): the frame that has been securing longest becomes ready. -/
def execFrameSecured (s : State) : Host.Outcome State Fault Refusal := cmd s do
  match s.jobs.find? fun j => j.stage == .securing with
  | none => nop
  | some j => if j.kind = .beacon then putJob { j with stage := .reserved } else enqueue j

/-! ### The instants of a transmission (R50–R52, R62, R90, R151, R523) -/

/-- A transmission occupies the radio, so that no immediate frame is released (R44, R151). -/
def TxJob.busy (j : TxJob) : Bool :=
  match j.stage with
  | .released | .lockWait | .checked | .ramping | .onAir | .ackWait => true
  | _ => false

/-- TX_RELEASE (R151): urgent frames first, then in ring order, into a gap; the checks of R62 run at once (R62). A frame that
passes them is charged here, before its wait for lock under R50, and the charge stands if lock does not come (DEDUCED from R62
and R523: R65's "at its start" names no other moment; log entry 111). -/
def execTxRelease (s : State) : Host.Outcome State Fault Refusal := cmd s do
  let rdy := s.jobs.filter fun j => j.stage == .ready
  match (rdy.filter (·.urgent)).head? <|> rdy.head? with
  | none => nop
  | some j =>
    let now := s.dev.time.link
    let f := { j with ts := now + 960 }
    if !(s.jobs.any TxJob.busy) && !(s.jobs.any fun k => k.reserves && s.overlaps f k) then
      let st := s.jobCheck j false
      txNote st j.pwr
      if st ≠ stOk then finishJob j st
      else
        dutyCharge j.air
        if s.bit RCTL_STAT_LOCK && s.dev.radio.walk.isNone then
          putJob { j with stage := .checked, ts := now + if s.radio = radRx then 960 else 640 }
        else putJob { j with stage := .lockWait, ts := now }

/-- The next transmission whose lanes are to be blanked: reserved and confirmed, or released. -/
def TxJob.comes (j : TxJob) : Bool :=
  j.confirmed && (j.stage == .reserved || j.stage == .checked)

/-- TX_BLANKING at t_s − 24 µs (R52, R90); a Bow sequencer that does not respond starts nothing (R46). -/
def execTxBlanking (s : State) : Host.Outcome State Fault Refusal := cmd s do
  if (s.pick TxJob.comes).isSome && s.radio == radRx && s.radioIdle && !s.dev.radio.bowDead then
    modRadio fun r => { r with back := radRx }
    lanesBlank
    setBusy radTx

/-- The radio goes back after a transmission that did not start (R52). -/
def unblank : M Unit := do
  let s ← getS
  if s.bit RCTL_STAT_BUSY && s.fld RCTL_STAT_TARGET == radTx && s.dev.radio.walk.isNone
      && !(s.jobs.any fun j => j.stage == .checked || j.stage == .ramping || j.stage == .onAir) then txReturn

/-- A timed transmission is refused or cancelled at its check (R62, R63, R199): a strobe's frame with it. -/
def refuseJob (j : TxJob) (st : Nat) : M Unit := do
  let s ← getS
  let t := if j.kind = .strobe then (s.job j.parent).getD j else j
  if st = stLate ∧ t.onLattice then ladDefer t
  else if t.kind = .strobe then dropJob t.id
  else finishJob t st

/-- TX_CHECK at t_s − 16 µs (R51, R52, R62): the earliest timed transmission; one still securing is LATE (R225). -/
def execTxCheck (s : State) : Host.Outcome State Fault Refusal := cmd s do
  match s.pick fun j => j.confirmed && decide (j.rank ≤ 3) && (j.stage == .reserved || j.stage == .securing) with
  | none => nop
  | some j =>
    if j.stage = .securing then
      finishJob j stLate
      unblank
      winSettle
    else
      let st := s.jobCheck j true
      txNote st j.pwr
      if st = stOk then
        dutyCharge j.air
        putJob { j with stage := .checked }
        if s.radio = radSyn then
          modRadio fun r => { r with back := radSyn }
          setBusy radTx
      else
        refuseJob j st
        unblank
        winSettle

/-- The radio is being tuned, or has lost lock and not regained it: a walk of any kind but one to STBY or SLEEP (R523). -/
def State.lockGone (s : State) : Bool :=
  s.dev.radio.unlock || (match s.dev.radio.walk with | some w => decide (2 ≤ w.goal) | none => false)

/-- The status of a transmission whose ramp cannot start (R523). -/
def State.rampFail (s : State) : Nat :=
  if s.blocked || !s.en txpPage || s.lockGone then stInternal else stAborted

/-- PA_RAMP_UP at t_s − 8 µs (R52, R523). -/
def execPaRampUp (s : State) : Host.Outcome State Fault Refusal := cmd s do
  match s.pick fun j => j.stage == .checked with
  | none => nop
  | some j =>
    let fine := !s.blocked && s.en txpPage && s.bit RCTL_STAT_LOCK && decide (2 ≤ s.radio)
      && s.dev.radio.walk.isNone
    if fine then
      if s.radio = radSyn then modRadio fun r => { r with back := radSyn }
      if s.radio = radRx ∧ !s.dev.radio.blank then
        modRadio fun r => { r with back := radRx }
        lanesBlank
      setFld RCTL_STAT_STATE radTx
      setFld RCTL_STAT_TARGET radTx
      setFld RCTL_STAT_BUSY 0
      modRadio fun r => { r with fem := s.femOf radTx }
      if 0 < j.attempts ∧ j.queued then linkCount4 3
      putJob { j with stage := .ramping, attempts := j.attempts + 1 }
      setTxActive true
    else
      refuseJob j (s.rampFail)
      unblank
      winSettle

/-- TX_START at t_s (R52, R53, R100, R329): the frame goes on the air. An acknowledgement that goes out re-anchors the lattice at
the LF edge after the t_end it answers (R189, R194; log entry 122). -/
def execTxStart (s : State) : Host.Outcome State Fault Refusal := cmd s do
  match s.jobs.find? fun j => j.stage == .ramping && j.kind != .carrier with
  | none => nop
  | some j =>
    putJob { j with stage := .onAir, sentAt := s.ntime }
    modTx fun t => { t with air := some (s.airFrame j) }
    if j.kind = .relay then emit floodPage 0xB0
    if j.kind = .beacon then emit floodPage 0xB1
    if j.kind = .ack ∧ s.sampOn then
      if s.dev.samp.anchor.isSome then count sampPage 0x03 3
      modSamp fun x => { x with anchor := some j.aoEnd, reanchor := false }

/-- TX_END (R44, R52, R149): TX_ACTIVE falls, the radio goes back unless another transmission follows, and the frame
completes or waits for its acknowledgement. -/
def execTxEnd (s : State) : Host.Outcome State Fault Refusal := cmd s do
  match s.jobs.find? fun j => j.stage == .onAir && j.kind != .carrier with
  | none => nop
  | some j =>
    setTxActive false
    perf linkPage 0x43 (40 * (j.air + 16))
    if j.ar then putJob { j with stage := .ackWait, tend := s.dev.time.link, aoEnd := s.dev.time.ao + 1, closed := false }
    else if j.kind = .strobe then dropJob j.id
    else finishJob j stOk
    if !(s.jobs.any fun k => k.stage == .checked || k.stage == .ramping) then txReturn
    winSettle

/-! ### Acknowledgements awaited and retries (R149, R153, R199, R200) -/

/-- A frame's attempts are used up (R153, R200). -/
def noAck (j : TxJob) : M Unit := do
  if j.level = some 2 then
    setPeerBits j.peer 0 28 28 1
    count sampPage 0x05 3
  finishJob j stNoAck

/-- An attempt has drawn no acknowledgement: the next, an immediate frame after its random wait or the ladder's next level, or
NO_ACK (R149, R153, R199). -/
def ackNone (j : TxJob) : M Unit := do
  let s ← getS
  stat 0x0A
  let close := j.tend + s.ackSpan j.lane
  if j.retries = 0 then noAck j
  else
    let f := { j with retries := j.retries - 1, timed := false, nt := none }
    match j.level with
    | some l =>
      let f := { f with stage := TxStage.ready, defers := 0 }
      putJob f
      ladTry 8 f (l + 1) (close + 40000) 0
    | none => waitRandom f

/-- The sender's lane still receives a frame whose SFD or LTF ended inside the acknowledgement window, and which may yet be the
acknowledgement (R149). -/
def State.ackComing (s : State) (j : TxJob) : Bool :=
  match (s.lane j.lane).frame with
  | some f => decide (3 ≤ s.laneState j.lane) && decide (f.detAt ≤ f.sfdAt) && decide (f.sfdAt ≤ j.tend + s.ackSpan j.lane)
      && (f.verdict.isNone || f.consumed || f.row == 0)
  | none => false

/-- ACK_WINDOW_CLOSE (R149): no further frame is waited for; one that is still arriving decides first. -/
def execAckWindowClose (s : State) : Host.Outcome State Fault Refusal := cmd s do
  match s.jobs.find? fun j => j.stage == .ackWait with
  | none => nop
  | some j => if s.ackComing j then putJob { j with closed := true } else ackNone j

/-- A frame that arrived over the close of the acknowledgement window is over without having matched (R149). -/
def ackSettle : M Unit := do
  let s ← getS
  match s.jobs.find? fun j => j.stage == .ackWait && j.closed && !s.ackComing j with
  | none => nop
  | some j => ackNone j

/-- A lane's frame is over, or what it earned: the acknowledgement window and the scheduler's windows follow (R149, R191). -/
def frameOver : M Unit := do
  ackSettle
  winSettle

/-- RETRY_WAIT_EXPIRY (R153): the earliest wait ends; the retry is an immediate frame. -/
def execRetryWaitExpiry (s : State) : Host.Outcome State Fault Refusal := cmd s do
  match s.pick fun j => j.stage == .retryWait with
  | none => nop
  | some j => putJob { j with stage := .ready }

/-- A matching acknowledgement completes the frame (R149); a ladder frame refreshes the peer entry (R200). -/
def ackMatched (j : TxJob) : M Unit := do
  match j.level with
  | some l =>
    setPeer j.peer 6 (BitVec.ofNat 32 j.aoEnd)
    setPeer j.peer 7 (BitVec.ofNat 32 j.aoEnd)
    setPeerBits j.peer 0 26 26 1
    setPeerBits j.peer 0 28 28 0
    count sampPage 0x05 l
  | none => nop
  finishJob j stOk

/-! ### Modes (R120–R122) -/

/-- Relays not yet at t_s − 16 µs are cancelled (R121, R173). -/
def cancelRelays : M Unit := do
  let s ← getS
  forAll (s.jobs.filter fun j => j.kind == .relay && j.stage == .reserved) fun j => do
    linkCount4 relayCancel
    cancelJob j

/-- Everything the link controller has queued ends: frames with a status, acknowledgements and relays unsent. -/
def cancelAll (st : Nat) : M Unit := do
  let s ← getS
  forAll (s.jobs.filter fun j => j.kind != .carrier && j.kind != .strobe) fun j =>
    if j.kind = .relay then do
      linkCount4 relayCancel
      cancelJob j
    else if j.kind = .ack then cancelJob j
    else finishJob j st

/-- LINK_MODE takes effect (R121); the mode 3 acts as OFF (R156). -/
def setMode (v : Nat) : M Unit := do
  let s ← getS
  let old := s.fld LINK_STAT_MODE
  let m := if v < 3 then v else 0
  if m ≠ 0 ∧ (!s.en linkPage ∨ !s.bit LINK_STAT_UCODE_OK) then
    setFlt linkPage fltState
    count linkPage 0xFFF 0
  else
    setFld LINK_MODE_MODE v
    setFld LINK_STAT_MODE m
    if old = 2 ∧ m ≠ 2 then cancelRelays
    if old ≠ 0 ∧ m = 0 then
      if s.onAir.isSome then
        let _ ← cutAir stAborted
      cancelAll stAborted
      setFld RCTL_STAT_OWNER 0
      if s.bit RCTL_STAT_UCODE_OK ∨ s.radio ≠ radSleep then radioCut radStby none
      sampStop
    if old = 0 ∧ m ≠ 0 then
      setFld RCTL_STAT_OWNER 1
      sampStart

/-- LINK_MODE written 0 (R121). -/
def execLinkModeOff (s : State) : Host.Outcome State Fault Refusal := cmd s (setMode 0)

/-- LINK_MODE written 1 (R121). -/
def execLinkModeSw (s : State) : Host.Outcome State Fault Refusal := cmd s (setMode 1)

/-- LINK_MODE written 2 (R121). -/
def execLinkModeHw (s : State) : Host.Outcome State Fault Refusal := cmd s (setMode 2)

/-- The link controller lowers the mode itself (R122). -/
def autoSw : M Unit := do
  let s ← getS
  if s.fld LINK_STAT_MODE = 2 then
    setMode 1
    setFld LINK_STAT_AUTOSW 1
    emit linkPage 0xA1

/-! ### Cox microcode (R123) -/

def modCox (f : UcLoad → UcLoad) : M Unit := modDev fun d => { d with coxLoad := f d.coxLoad }

/-- LINK_UCCTL.LOAD (R123): a CRC that still runs goes on to its result, which is then not of the load most recently closed. -/
def coxLoad : M Unit := do
  let s ← getS
  if s.fld LINK_STAT_MODE ≠ 0 then setFlt linkPage fltState
  else
    setFld LINK_STAT_UCODE_OK 0
    modCox fun u => { u with isOpen := true, ready := false }

/-- LINK_UCDATA written (R123). -/
def coxData (v : Word) : M Unit := do
  let s ← getS
  if s.dev.coxLoad.isOpen then
    let a := s.fld LINK_UCCTL_ADDR
    act (.tab .cox a v)
    setFld LINK_UCCTL_ADDR ((a + 1) % 2 ^ 13)
  else setFlt linkPage fltState

/-- LINK_UCCTL.DONE (R123). -/
def coxDone : M Unit := do
  let s ← getS
  if s.dev.coxLoad.isOpen then
    modCox fun _ => { crc := true }
    setFld LINK_UCCTL_DONE 1
  else setFlt linkPage fltState

/-- LINK_UCCTL.GOOD (R123). -/
def coxGood : M Unit := do
  let s ← getS
  if s.dev.coxLoad.ready then
    modCox fun _ => {}
    setFld LINK_STAT_UCODE_OK 1
  else setFlt linkPage fltState

/-- The octets of a table of n words, least significant first. -/
def State.tabBytes (s : State) (t : Tab) (n : Nat) : List Byte :=
  (List.range n).flatMap fun i => leBytes 4 (s.word t i).toNat

/-- COX_UCODE_LOAD (R123). -/
def execCoxUcodeLoad (s : State) : Host.Outcome State Fault Refusal := cmd s coxLoad

/-- COX_UCODE_DATA (R123). -/
def execCoxUcodeData (v : Word) (s : State) : Host.Outcome State Fault Refusal := cmd s (coxData v)

/-- COX_UCODE_DONE (R123). -/
def execCoxUcodeDone (s : State) : Host.Outcome State Fault Refusal := cmd s coxDone

/-- COX_UCODE_CRC_READY (R123): the CRC-32 of the 32 KB RAM. -/
def execCoxUcodeCrcReady (s : State) : Host.Outcome State Fault Refusal := cmd s do
  if s.dev.coxLoad.crc then
    wr LINK_UCCRC (BitVec.ofNat 32 (crc32 (s.tabBytes .cox 8192)))
    setFld LINK_UCCTL_DONE 0
    modCox fun u => { u with crc := false, ready := !u.isOpen }

/-- COX_UCODE_GOOD (R123). -/
def execCoxUcodeGood (s : State) : Host.Outcome State Fault Refusal := cmd s coxGood

/-- A write of LINK_UCCTL (R123, R156): the address, then LOAD, DONE and GOOD in this order. -/
def coxCtl (v : Word) : M Unit := do
  setFld LINK_UCCTL_ADDR (bitsGet v 15 3)
  if bitOf v.toNat 0 then coxLoad
  if bitOf v.toNat 1 then coxDone
  if bitOf v.toNat 2 then coxGood

/-! ### Profile lock and test carrier (R61, R518) -/

/-- A write of TXP_CFG.LOCK = 1 with a PROFILE (R61). -/
def profileLock (p : Nat) : M Unit := do
  let s ← getS
  if s.bit TXP_CFG_LOCK then setFlt txpPage fltState
  else
    setFld TXP_CFG_PROFILE p
    setFld TXP_CFG_LOCK 1
    modRadio fun r => { r with profLatch := some p }

/-- PROFILE_LOCK (R61): TXP_CFG written with LOCK = 1; its RW fields follow R310. -/
def execProfileLock (v : Word) (s : State) : Host.Outcome State Fault Refusal := cmd s do
  if s.en txpPage then setFltAt txpPage fltWign TXP_CFG
  else
    setFld TXP_CFG_CEIL (bitsGet v 15 8)
    setFld TXP_CFG_CLAMP (bitsGet v 0 0)
  profileLock (bitsGet v 5 4)

/-- The test carrier starts, or is refused (R518). -/
def carrierStart (idx : Nat) : M Unit := do
  let s ← getS
  if s.bit RCTL_STAT_OWNER || s.radio != radSyn || !s.radioIdle then setFlt txpPage fltState
  else
    setFld TXP_TEST_INDEX idx
    let a := s.txMax * 1000
    let st := s.txCheck false (s.carrier2 0 0) 0 a idx
    txNote st idx
    if st = stOk then
      dutyCharge a
      setFld TXP_TEST_CW 1
      modRadio fun r => { r with back := radSyn, fem := s.femOf radTx }
      setFld RCTL_STAT_STATE radTx
      setFld RCTL_STAT_TARGET radTx
      setTxActive true
      let _ ← addJob { kind := .carrier, stage := .onAir, pwr := idx, air := a, ts := s.dev.time.link }

/-- A running carrier ends (R518). -/
def carrierStop : M Unit := do
  let s ← getS
  match s.jobs.find? fun j => j.kind == .carrier with
  | none => nop
  | some _ =>
    let _ ← cutAir stOk
    txReturn

/-- A write of TXP_TEST (R71, R518). -/
def testWrite (v : Word) : M Unit := do
  let s ← getS
  if !bitOf v.toNat 0 then
    setFld TXP_TEST_INDEX (bitsGet v 13 8)
    carrierStop
  else if !s.bit TXP_TEST_CW then carrierStart (bitsGet v 13 8)
  else setFlt txpPage fltState

/-- TEST_CARRIER_START (R518). -/
def execTestCarrierStart (idx : BitVec 6) (s : State) : Host.Outcome State Fault Refusal :=
  cmd s (testWrite (BitVec.ofNat 32 (idx.toNat * 256 + 1)))

/-- TEST_CARRIER_STOP (R518). -/
def execTestCarrierStop (s : State) : Host.Outcome State Fault Refusal := cmd s carrierStop

/-- TEST_CARRIER_TIMEOUT (R518). -/
def execTestCarrierTimeout (s : State) : Host.Outcome State Fault Refusal := cmd s carrierStop

/-! ### Lane commands that can end a frame (R76, R79, R92, R103, R520) -/

/-- SFD_DETECTED (R92, R103, R520). -/
def execSfdDetected (n : Fin 4) (coded : Bool) (rssi : Int) (s : State) : Host.Outcome State Fault Refusal := cmd s do
  sfdFound n coded rssi
  frameOver

/-- PHR_DECODED (R80, R81, R99). -/
def execPhrDecoded (n : Fin 4) (p : Phr) (s : State) : Host.Outcome State Fault Refusal := cmd s do
  phrJudge n p
  frameOver

/-- No LTF after the STF (R520). -/
def execLtfMissing (n : Fin 4) (s : State) : Host.Outcome State Fault Refusal := cmd s do
  if s.laneState n = laneHeader ∧ s.isOfdm n then
    laneDrop n dropHdr laneSearch
    frameOver

/-- No SFD within PRELIM octets, or the preamble lost (R520). -/
def execNosync (n : Fin 4) (s : State) : Host.Outcome State Fault Refusal := cmd s do
  if s.laneState n = lanePreamble then
    laneDrop n dropNosync laneSearch
    frameOver

/-- LANES_ENABLE written with bits to set (R76). -/
def execLaneEnable (v : Word) (s : State) : Host.Outcome State Fault Refusal := cmd s do
  lanesEnableWrite v.toNat
  frameOver

/-- LANES_ENABLE written with bits cleared (R79). -/
def execLaneDisable (v : Word) (s : State) : Host.Outcome State Fault Refusal := cmd s do
  lanesEnableWrite v.toNat
  frameOver

end Sys2Proof.Machine
end

