-- ==== Sys2Proof/Machine/Ntime.lean ====
section
/-!
DEFINITION. Network time: steps, updates from TIME floods, the trim, the compare, the LF calibration and the carry across
sleep (R177–R183, R186).
-/
namespace Sys2Proof.Machine
open Sys2Proof.Reg

/-! ### Steps (R183) -/

/-- After a step of NTIME, a timed frame whose PA has not started and whose instant is now behind or less than 40 µs ahead is LATE;
any other keeps its instant, however far ahead that now lies (R152, R183). -/
def rejudge (id : Nat) : M Unit := do
  let s ← getS
  match s.job id with
  | none => nop
  | some j =>
    match j.nt with
    | none => nop
    | some t =>
      if j.waits then
        let d := (t + 2 ^ 48 - s.ntime % 2 ^ 48) % 2 ^ 48
        if 2 ^ 47 ≤ d ∨ d < 1600 then
          yieldJob j
          unblank
        else putJob { j with ts := s.dev.time.link + d }

/-- NTIME takes a value by a step (R183). -/
def timeStep (v : Nat) : M Unit := do
  modTime fun t => { t with ntime := v % 2 ^ 48 }
  let s ← getS
  forAll (s.jobs.map (·.id)) rejudge
  cmpFire

/-- NTIME_CMD.SET and TK_NTIME_SET (R177, R178, R179, R186). -/
def ntimeSet : M Unit := do
  let s ← getS
  modFlood fun f => { f with setAt := some s.dev.time.link }
  timeStep ((s.reg NTIME_SETLO).toNat + s.fld NTIME_SETHI_VALUE * 2 ^ 32)
  setFld NTIME_STAT_SYNC 1
  setFld NTIME_TRIM_TRIM 0

/-- SYNC and the trim clear (R177, R179). -/
def ntimeDesync : M Unit := do
  setFld NTIME_STAT_SYNC 0
  setFld NTIME_TRIM_TRIM 0

/-- NTIME_CMD.CMPARM (R183, R186). -/
def ntimeArm : M Unit := do
  setFld NTIME_STAT_CMPARMED 1
  cmpFire

/-- NTIME_SET (R186). -/
def execNtimeSet (s : State) : Host.Outcome State Fault Refusal := cmd s ntimeSet

/-- NTIME_DESYNC (R186). -/
def execNtimeDesync (s : State) : Host.Outcome State Fault Refusal := cmd s ntimeDesync

/-- NTIME_COMPARE_ARM (R183). -/
def execNtimeCompareArm (s : State) : Host.Outcome State Fault Refusal := cmd s ntimeArm

/-- NTIME_COMPARE_MATCH (R183). -/
def execNtimeCompareMatch (s : State) : Host.Outcome State Fault Refusal := cmd s cmpFire

/-- A write of NTIME_CMD: DESYNC before SET, so that a SET in the same write stands (R186). -/
def ntimeCmd (v : Word) : M Unit := do
  if bitOf v.toNat 1 then ntimeDesync
  if bitOf v.toNat 0 then ntimeSet
  if bitOf v.toNat 2 then ntimeArm

/-! ### Updates (R178, R179) -/

/-- The signed distance from one NTIME instant to another (R152, R177). -/
def ntDelta (a b : Nat) : Int := signed 48 ((a + 2 ^ 48 - b % 2 ^ 48) % 2 ^ 48)

/-- What a TIME flood says NTIME was at t_end (R178). -/
def State.expected (s : State) (f : FloodIe) (thop : Nat) : Nat :=
  (f.origin + f.hopcnt * thop + (roundDiv ((f.hopcnt + 1) * s.fld NTIME_PROP_PROP : Nat) 25).toNat) % 2 ^ 48

/-- The trim after an applied update of delta, I link ticks after the one before (R179). -/
def trimNext (trim delta : Int) (i sh : Nat) : Int :=
  max (-100000) (min 100000 (trim + roundDiv (1000000000 * delta) (i * 2 ^ min 8 sh)))

/-- An update counts for beacon tracking (R202–R204). With SAMP_BCFG.RELAY at 0 pending relays are cancelled and the window closes;
with it at 1 the window goes on to the end of the relay. -/
def beaconSeen (thop : Nat) : M Unit := do
  modSamp fun x => { x with thop := thop, tracked := 0 }
  modDev fun d => { d with samp := { d.samp with lastUpd := d.time.now } }
  setFld SAMP_STAT_MISSES 0
  let s ← getS
  if s.fld SAMP_STAT_BSTATE = bScan then setFld SAMP_STAT_BSTATE bTrack
  if s.dev.samp.main = winScan then winEnd Samp.mainEnd
  if s.dev.samp.main = winBeacon then
    if !s.dev.samp.updated then count sampPage 0x04 0
    if s.bit SAMP_BCFG_RELAY then modSamp fun x => { x with updated := true, rejected := false }
    else
      forAll (s.jobs.filter fun j => j.kind == .relay && j.stage == .reserved) fun j => do
        linkCount4 relayCancel
        cancelJob j
      winEnd Samp.mainEnd

/-- The time update of a TIME flood at its first acceptance (R178): `tend` is NTIME latched at t_end. A SET in the same tick stands,
and the update is discarded. -/
def timeUpdate (f : FloodIe) (thop tend : Nat) (secured : Bool) : M Unit := do
  let s ← getS
  if !s.bit NTIME_CFG_ROOT then
    let delta := ntDelta (s.expected f thop) tend
    let lim := s.fld NTIME_CFG_SLEWLIM
    let fine := f.orig == 0 && (secured || !s.bit NTIME_CFG_SECREQ)
      && (!s.bit NTIME_STAT_SYNC || lim == 0 || decide (delta.natAbs ≤ 40 * lim))
    setFld NTIME_DELTA_DELTA (unsigned 32 (max (-2147483648) (min 2147483647 delta)))
    let discarded := s.dev.flood.setAt == some s.dev.time.link
    modFlood fun x => { x with tend := tend, hop := f.hopcnt, ok := fine && !discarded }
    if discarded then nop
    else if fine then
      timeStep (unsigned 48 ((s.ntime : Int) + delta))
      setFld NTIME_STAT_SYNC 1
      setFld NTIME_STAT_LASTHOP f.hopcnt
      count ntimePage 0x04 0
      emit ntimePage 0xA4
      if s.bit FLOOD_CFG_HTRAUTO then setFld FLOOD_HTR_HTR (min 0xFFFF (f.hopcnt + 1))
      match s.dev.flood.applied with
      | some t =>
        let i := s.dev.time.now - t
        if s.bit NTIME_CFG_TRIMEN ∧ i ≠ 0 then
          let sh := s.fld NTIME_CFG_TRIMSH
          let trim := signed 20 (s.fld NTIME_TRIM_TRIM)
          let raw := trim + roundDiv (1000000000 * delta) (i * 2 ^ min 8 sh)
          setFld NTIME_TRIM_TRIM (unsigned 20 (trimNext trim delta i sh))
          if 100000 < raw.natAbs then count ntimePage 0x04 3
      | none => nop
      modFlood fun x => { x with applied := some s.dev.time.now }
      beaconSeen thop
    else
      count ntimePage 0x04 1
      emit ntimePage 0xA5
      if s.dev.samp.main = winBeacon ∧ !s.dev.samp.updated then modSamp fun x => { x with rejected := true }

/-! ### Calibration and carry (R181, R182) -/

/-- LFCAL_UPDATE: 65,536 LF ticks have been accumulated awake (R182). -/
def execLfcalUpdate (s : State) : Host.Outcome State Fault Refusal := cmd s do
  if 65536 ≤ s.dev.time.calLf then
    setFld NTIME_LFCAL_RATIO (s.dev.time.calLink % 2 ^ 32)
    modTime fun t => { t with calLink := 0, calLf := 0 }

/-- NETWORK_TIME_CARRY (R181): while the link clock still runs. -/
def execNetworkTimeCarry (s : State) : Host.Outcome State Fault Refusal := cmd s do
  if s.linkClock then carryMake

/-- Restore NTIME, SYNC and the trim from the carry (R181). `phase` is the measured phase from the LF edge in link ticks. -/
def carryRestore (phase : Nat) : M Unit := do
  let s ← getS
  match s.dev.time.carry with
  | none => nop
  | some c =>
    if s.en ntimePage then
      let d := (s.dev.time.ao + 2 ^ 48 - c.ao) % 2 ^ 48
      timeStep (c.ntime + s.lfToLink d + phase)
      setFld NTIME_STAT_SYNC (b2n c.sync)
      setFld NTIME_TRIM_TRIM c.trim
      modTime fun t => { t with restore := false }
      count ntimePage 0x04 2

/-- NETWORK_TIME_RESTORE (R181): only where the link clock has restarted and waits for its LF edge. -/
def execNetworkTimeRestore (phase : Fin 1221) (s : State) : Host.Outcome State Fault Refusal := cmd s do
  if s.dev.time.restore then carryRestore phase

end Sys2Proof.Machine
end

