-- ==== Sys2Proof/Machine/Rx.lean ====
section
/-!
DEFINITION. The receive side of the link controller: the address filter, the verdict, acceptance, delivery, acknowledgements
and relays of received frames (R111, R130–R149, R163–R173, R178, R193, R222–R224).
-/
namespace Sys2Proof.Machine
open Sys2Proof.Reg

/-! ### The filter (R140, R141) -/

/-- A valid group of FILT_GROUP (R141). -/
def State.groupHit (s : State) (a : Nat) : Bool :=
  decide (0x1000 ≤ a) && decide (a ≤ 0xFFFE)
    && (List.range 64).any fun i => s.bit (FILT_GROUP_VALID i) && s.fld (FILT_GROUP_ADDR i) == a

/-- A PAN ID is the node's own or the broadcast one; an absent one is implied by compression. -/
def State.panMine (s : State) (p : Option Nat) : Bool :=
  match p with
  | some x => x == s.fld FILT_ADDR_PAN || x == 0xFFFF
  | none => true

/-- The destination is the node's own short or extended address (R146). -/
def State.dstOwn (s : State) (a : Addr) : Bool :=
  match a with
  | .short x => x == s.fld FILT_ADDR_SHORT
  | .ext x => x == s.ownExt
  | .none => false

/-- The destination is one the node receives (R140). -/
def State.dstMine (s : State) (a : Addr) : Bool :=
  s.dstOwn a || (match a with | .short x => x == 0xFFFF || s.groupHit x | _ => false)

/-- The destination PAN ID of a frame, implied by the source's where it carries none (R140). -/
def Mac.pan (m : Mac) : Option Nat := m.dpan <|> m.span

/-- The filter of R140; `flood` is the frame's flood header IE. -/
def State.filterOk (s : State) (m : Mac) (flood : Option FloodIe) : Bool :=
  m.ok && decide (m.ver ≤ 2)
    && (match flood with | some f => floodValid m f | none => true)
    && (match m.ftype with
        | 0 => s.bit FILT_CFG_BCNANY || (m.span <|> m.dpan) == some (s.fld FILT_ADDR_PAN)
        | 1 => s.panMine m.pan && (s.dstMine m.dst || flood.isSome)
        | 3 => s.panMine m.pan && s.dstMine m.dst
        | _ => false)

/-! ### The verdict (R136, R137, R168) -/

/-- What R136 needs of a frame. -/
structure Look where
  m : Mac
  flood : Option FloodIe
  hit : Option Nat
  /-- The relay conditions hold (R167). -/
  ok : Bool
  /-- The seen-cache entry that matches (R168). -/
  seen : Option Nat
  strobe : Bool
  deriving DecidableEq, Repr

/-- Look a frame up: peer entry, flood header IE, seen cache, in one tick (R135, R168). -/
def State.look (s : State) (n : Nat) (f : RxFrame) (hdr : List Byte) : Look :=
  let m := parseMac hdr
  let fl := (floodIe hdr m).filter (floodValid m)
  { m := m
    flood := floodIe hdr m
    hit := s.peerHit m.src
    ok := match fl with
      | some x => s.relayFail m x (s.tHop n f.coded f.mcs f.len) == 0
      | none => false
    seen := fl.bind fun x => s.seenFind x.orig x.fseq
    strobe := f.fcs2 && (strobeOf hdr f.len).isSome }

/-- A match of the seen cache that is a hit (R168). -/
def State.seenHit (s : State) (x : Look) : Bool :=
  match x.seen with
  | some e => decide (s.nrelay ≤ s.seenCount e) || !x.ok
  | none => false

/-- R137 delivers the flood. -/
def State.floodDelivers (s : State) (x : Look) (f : FloodIe) : Bool :=
  match f.cls, x.m.dst with
  | 2, .short a => s.groupHit a
  | 1, .short a => a == s.fld FILT_ADDR_SHORT
  | c, _ => c == 0 || c == 3

/-- The row of R136 whose condition holds first, and its verdict before buffers are looked at. Row 0 stands for a
promiscuous delivery (R142). -/
def State.verdict (s : State) (x : Look) : Nat × Verdict :=
  let m := x.m
  let dsnEq := match x.hit with
    | some i => m.dsn == some (bitsGet (s.peerW i 2) 31 24)
    | none => false
  let fc := match x.hit with | some i => (s.peerW i 1).toNat | none => 0
  let blocked := match x.hit with | some i => s.peerBit i 27 | none => false
  let short := match m.src with | .short _ => true | _ => false
  let rep := x.seen.isSome
  if s.bit FILT_CFG_PROMISC then (0, .deliver)
  else if !s.filterOk m x.flood || m.ftype == 2 || x.strobe then (2, .dropFilter)
  else if blocked || (m.sec && short && x.hit.isNone) then (3, .dropFilter)
  else if s.seenHit x then (4, .dropDup)
  else if !rep && m.sec && x.hit.isSome && decide (m.fcnt < fc ∨ (m.fcnt = fc ∧ dsnEq = false)) then (5, .dropReplay)
  else if !rep && m.sec && x.hit.isSome && m.fcnt == fc then (6, .dropDup)
  else if !rep && !m.sec && x.flood.isNone && dsnEq then (7, .dropDup)
  else if s.fld LINK_STAT_MODE = 1 then (8, .deliver)
  else match x.flood with
    | none => (9, .deliver)
    | some f =>
      let d := !rep && s.floodDelivers x f
      if x.ok && d then (10, .both)
      else if x.ok then (11, .relay)
      else if d then (12, .deliver)
      else (13, .dropFilter)

/-- Rows whose frames are acknowledged (R136). -/
def rowAcked (row : Nat) : Bool := row == 6 || row == 7 || row == 8 || row == 9

/-! ### Counting and ending (R139, R157) -/

/-- Count a verdict that drops (R157, R453). -/
def countVerdict (v : Verdict) : M Unit := do
  match v with
  | .dropFilter => count linkPage 0x01 3
  | .dropDup =>
    count linkPage 0x02 0
    stat 0x0D
  | .dropReplay =>
    count linkPage 0x02 1
    stat 0x0E
  | .dropLength => count linkPage 0x02 2
  | .dropNobuf =>
    count linkPage 0x02 3
    stat 0x08
  | _ => nop

/-- The lane is done with its frame and searches again; ownership of the freeze passes on (R84, R86, R139). -/
def laneFree (n : Nat) : M Unit := do
  let s ← getS
  setLane n { s.lane n with frame := none }
  setLaneState n laneSearch
  passFreeze n

/-- A frame goes no further: its cells return to FREE, its acknowledgement and relay are not sent (R138). -/
def discard (f : RxFrame) : M Unit := do
  releaseLink f.cells
  let s ← getS
  setJobs (s.jobs.filter fun j => !(some j.id == f.ackJob || some j.id == f.relayJob))

/-! ### Scheduling an acknowledgement or a relay (R111, R146–R150, R170) -/

/-- From the SFD or LTF end to t_end, in link ticks (R118, R134). -/
def State.rxRest (s : State) (n : Nat) (f : RxFrame) : Nat :=
  let nunc := 64 * ceilDiv (16 + 8 * f.len + 6) 64
  match s.lanePhy n with
  | 0 => 40000 * (if f.coded then 2 * nunc else 8 * (2 + f.len)) / s.laneRate n
  | 1 => 200 * (if f.coded then nunc else 4 * (2 + f.len))
  | _ => 40 * (s.airtime n false f.mcs 0 f.len - 720)

/-- The acknowledgement of a frame (R147): an Imm-Ack, or an Enh-Ack addressed to the source. -/
def State.ackOctets (s : State) (m : Mac) (hit : Option Nat) : List Byte :=
  let pend := match hit with | some i => s.peerBit i 30 | none => s.bit FILT_CFG_PENDEXT
  let p := if pend then 16 else 0
  if m.ver < 2 then leBytes 2 (2 + p) ++ leBytes 1 (m.dsn.getD 0)
  else
    let (mode, addr) := match m.src with
      | .short a => (2, leBytes 2 a)
      | .ext a => (3, leBytes 8 a)
      | .none => (0, [])
    leBytes 2 (2 + p + (if m.dsn.isNone then 256 else 0) + mode * 1024 + 0x2000)
      ++ (match m.dsn with | some d => leBytes 1 d | none => [])
      ++ (if mode = 0 then [] else leBytes 2 ((m.span <|> m.dpan).getD (s.fld FILT_ADDR_PAN)) ++ addr)

/-- The acknowledgement of a lane's frame, before acceptance (R111, R146–R148): uncoded and not whitened, since R111 gives it
the received frame's FCS type and MCS alone (log entry 117). -/
def State.ackJob (s : State) (n : Nat) (f : RxFrame) (x : Look) : TxJob :=
  let j : TxJob :=
    { kind := .ack, stage := .reserved, lane := n, confirmed := false, timed := true, fcs2 := f.fcs2
      pre := s.ackPre, pre0 := s.ackPre, pwr := s.fld LINK_ACKCFG_ACKPWR, hidx := s.fld (LANES_MODE_HIDX n)
      mcs := f.mcs, cfo := f.cfo, octets := s.ackOctets x.m x.hit
      ts := f.sfdAt + s.rxRest n f + 40 * s.tAck }
  { j with air := s.jobAir j j.pre }

/-- The relay of a lane's frame, before acceptance (R111, R170, R172). -/
def State.relayJob (s : State) (n : Nat) (f : RxFrame) (cells : List Nat) (rep : Bool) : TxJob :=
  { kind := .relay, stage := .reserved, lane := n, confirmed := false, timed := true, fcs2 := f.fcs2
    white := f.white, coded := f.coded, pre := s.rpre, pre0 := s.rpre, pwr := s.fld FLOOD_CFG_RPWR
    hidx := s.fld (LANES_MODE_HIDX n), mcs := f.mcs, seed := f.seed, cfo := f.cfo, cells := cells
    repeat_ := rep
    ts := f.sfdAt + s.rxRest n f + s.tRelay
    air := s.airtime n f.coded f.mcs s.rpre f.len }

/-! ### The verdict's effects (R136, R139, R150, R155, R217) -/

/-- A free slot in the RX ring, or in the host port's (R129, R133); deliveries already decided count against it (log entry
32). -/
def State.slotFree (s : State) (host : Bool) : Bool :=
  let due := ((List.range 4).foldl (fun a n =>
      a + ((s.lane n).frame.toList ++ (s.lane n).mics).countP fun f =>
        f.toHost == host && (f.verdict == some .deliver || f.verdict == some .both)) 0)
  if host then decide (s.dev.hostp.rx.length + s.dev.hostp.mgmt.length + due < 16)
  else
    let n := ringSize (s.fld LINK_RXRING_SIZE)
    decide ((s.fld LINK_RXIDX_WR + n - s.fld LINK_RXIDX_RD % n) % n + due + 1 < n)

/-- The key a received secured frame latches at its verdict (R216, R217, R221, R224): the key and slot, or what fails. -/
def State.rxKey (s : State) (x : Look) : List Byte × Nat × Nat :=
  if !s.en (ciphPage 0) then ([], 64, 4)
  else if x.m.unsupported then ([], 64, 3)
  else match s.frameSlot x.m x.hit with
    | none => ([], 64, 2)
    | some i => match s.keyFor i useFrame 0 with
      | some k => (k, i, 0)
      | none => ([], 64, 2)

/-- A frame of a lane that awaits an acknowledgement (R149). -/
def State.awaiting (s : State) (n : Nat) : Option TxJob :=
  s.jobs.find? fun j => j.stage == .ackWait && j.lane == n

/-- The verdict on a lane's frame (R134–R139). A BOTH frame that the full ring turns into RELAY takes its chain from the RX pool
(R124, R154); the header's octets go into the chain as soon as it is allocated (R127). -/
def judge (n : Nat) (f : RxFrame) (hdr : List Byte) : M Unit := do
  let s ← getS
  let x := s.look n f hdr
  let (row, v0) := s.verdict x
  perf linkPage 0x40 1
  match x.flood with
  | some fl =>
    if !floodValid x.m fl then count floodPage 0x03 2
    else match s.relayFail x.m fl (s.tHop n f.coded f.mcs f.len) with
      | 2 => count floodPage 0x02 0
      | 3 => count floodPage 0x02 1
      | 4 => count floodPage 0x02 2
      | _ => nop
  | none => nop
  let promisc := row == 0
  let (key, slot, err) := if x.m.sec && !promisc then s.rxKey x else ([], 64, 0)
  let stored := f.len - if f.fcs2 then 2 else 4
  let toHost := s.bit LINK_CFG_HOSTRX || slot == 3
  let v1 := if s.slotFree toHost then v0 else match v0 with | .deliver => .dropNobuf | .both => .relay | v => v
  let host := toHost && v1 != .relay
  let wants := v1 == .deliver || v1 == .relay || v1 == .both
  let cells ← (if wants && stored != 0 then
      allocChain (if host then poolHost else poolRx) ownLink (cellsFor stored) else pure (some []))
  let v := if cells.isNone then .dropNobuf else v1
  let cells := cells.getD []
  chainWrite cells hdr
  countVerdict v
  let acked := rowAcked row && v != .dropNobuf && x.m.ar && s.dstOwn x.m.dst
  let aj ← (if acked then do
      let seed ← takeSeed n
      reserve { s.ackJob n f x with seed := seed }
    else pure none)
  let relays := v == .relay || v == .both
  let rj ← (if relays then do
      holdCells cells
      let r ← reserve (s.relayJob n f cells x.seen.isSome)
      match r with
      | none => forAll cells fun c => do
          let t ← getS
          setCell c { t.cell c with hold := false }
      | some _ => nop
      pure r
    else pure none)
  let consumed := (x.m.ftype == 2 && row == 2 && (s.awaiting n).isSome) || (x.strobe && row == 2)
  let g := { f with hdr := hdr, verdict := some v, row := row, cells := cells, toHost := host, peer := x.hit
                    key := key, keySlot := slot, keyErr := err, repeat_ := x.seen.isSome, relayOk := x.ok
                    consumed := consumed, ackJob := aj, relayJob := rj }
  setLane n { s.lane n with frame := some g }
  let stays := consumed || row == 6 || row == 7 || v == .deliver || v == .relay || v == .both
  if !stays then
    laneFree n
    frameOver

/-- HEADER_END (R134): the header's octets as they stand on the air, whitened where the PHR says so (R102). -/
def execHeaderEnd (n : Fin 4) (hdr : List Byte) (s : State) : Host.Outcome State Fault Refusal := cmd s do
  match (s.lane n).frame with
  | some f =>
    if s.laneState n = lanePayload ∧ f.verdict.isNone ∧ hdr.length ≤ 64 ∧ s.fld LINK_STAT_MODE ≠ 0 then
      judge n f (whitened f.white hdr)
  | none => nop

/-- HEADER_OVERLONG (R134): row 1 of R136. -/
def execHeaderOverlong (n : Fin 4) (s : State) : Host.Outcome State Fault Refusal := cmd s do
  match (s.lane n).frame with
  | some f =>
    if s.laneState n = lanePayload ∧ f.verdict.isNone then
      perf linkPage 0x40 1
      countVerdict .dropLength
      laneFree n
      frameOver
  | none => nop

/-! ### Acceptance (R138, R142, R144, R146, R168, R169) -/

/-- LQI's next value: one eighth of the way to q, rounded towards q (R144). -/
def lqiNext (lqi : Nat) (rssi : Int) : Nat :=
  let q2 : Int := max 0 (min 400 (rssi + 440))
  let d : Int := q2 - 2 * lqi
  (((lqi : Nat) : Int) + if d < 0 then -((ceilDiv d.natAbs 16 : Nat) : Int) else ((ceilDiv d.natAbs 16 : Nat) : Int)).toNat

/-- The peer entry at an accepted frame (R144). -/
def peerUpdate (i : Nat) (m : Mac) (rssi : Int) : M Unit := do
  match m.dsn with
  | some d => setPeerBits i 2 31 24 d
  | none => nop
  if m.sec then setPeer i 1 (BitVec.ofNat 32 m.fcnt)
  let s ← getS
  setPeerBits i 0 23 16 (lqiNext (bitsGet (s.peerW i 0) 23 16) rssi)

/-- The words of an RX descriptor (R130). -/
def rxDesc (n : Nat) (f : RxFrame) (both secured acked : Bool) (stored : Nat) : List Byte :=
  leBytes 4 (b2n both * 2 ^ 31 + b2n secured * 2 ^ 30 + b2n acked * 2 ^ 29 + b2n f.peer.isSome * 2 ^ 28
      + n * 2 ^ 26 + b2n f.coded * 2 ^ 25 + b2n f.fcs2 * 2 ^ 24 + (f.cells.length - 1) * 2 ^ 20
      + f.cells.headD 0 * 2 ^ 11 + stored)
    ++ leBytes 1 0 ++ leBytes 1 f.snr ++ leBytes 2 (unsigned 16 f.rssi)
    ++ leBytes 4 (f.tend % 2 ^ 32)
    ++ leBytes 2 (f.peer.getD 0) ++ leBytes 2 (f.tend / 2 ^ 32)

/-- RX-ring slots whose descriptor has an uncorrectable error are skipped and counted, while the ring has another (R272). -/
def rxSkip : Nat → M Unit
  | 0 => nop
  | k + 1 => do
    let s ← getS
    let wr := s.fld LINK_RXIDX_WR
    let n := ringSize (s.fld LINK_RXRING_SIZE)
    let a := s.fld LINK_RXRING_BASE * 16 + 16 * wr
    if (wr + 1) % n ≠ s.fld LINK_RXIDX_RD && s.dev.eccBad.any fun x => decide (a ≤ x) && decide (x < a + 16) then
      stat 0x15
      setFld LINK_RXIDX_WR ((wr + 1) % n)
      rxSkip k

/-- Deliver a frame: its cells pass to CORE or HOST and its descriptor to the ring (R130, R133). A frame whose chain a revoke
took is not delivered (R128; log entry 119), nor one for which the slots skipped leave the RX ring none (R272). -/
def deliver (n : Nat) (f : RxFrame) (both secured : Bool) (octets : List Byte) : M Unit := do
  if !f.toHost && (← getS).dev.eccBad != [] then rxSkip 1024
  let s ← getS
  if f.cells.length ≠ cellsFor octets.length then releaseLink f.cells
  else if !f.toHost && (s.fld LINK_RXIDX_WR + 1) % ringSize (s.fld LINK_RXRING_SIZE) == s.fld LINK_RXIDX_RD then
    releaseLink f.cells
  else
  chainWrite f.cells octets
  passCells f.cells (if f.toHost then ownHost else ownCore)
  let d := rxDesc n f both secured (f.ackJob.any fun i => (s.job i).isSome) octets.length
  if f.toHost then
    if f.keySlot = 3 then modDev fun x => { x with hostp := { x.hostp with mgmt := x.hostp.mgmt ++ [(d, octets)] } }
    else modDev fun x => { x with hostp := { x.hostp with rx := x.hostp.rx ++ [d], rxNote := true } }
  else
    let wr := s.fld LINK_RXIDX_WR
    putBytes (s.fld LINK_RXRING_BASE * 16 + 16 * wr) d
    setFld LINK_RXIDX_WR ((wr + 1) % ringSize (s.fld LINK_RXRING_SIZE))
  perf linkPage 0x41 1
  emit linkPage 0xA2

/-- Confirm an acknowledgement or relay at its instant from t_end (R138, R148, R172). -/
def confirm (id : Option Nat) (ts : Nat) (octets : Option (List Byte)) : M Unit := do
  let s ← getS
  match id.bind s.job with
  | some j => putJob { j with confirmed := true, ts := ts, octets := octets.getD j.octets }
  | none => nop

/-- Withdraw a reservation by its number. -/
def withdraw (id : Option Nat) : M Unit := do
  let s ← getS
  match id.bind s.job with
  | some j => cancelJob j
  | none => nop

/-- The relay copy of a frame's octets (R170). -/
def relayCopy (body : List Byte) (fl : FloodIe) : List Byte :=
  patch body (fl.at_ + 8) (leBytes 2 (fl.hopcnt + 1))

/-- The node is to acknowledge a frame: the acknowledgement carries the LF edge after the frame's t_end, at which the lattice
re-anchors once it is sent (R189, R194). -/
def ackConfirm (f : RxFrame) : M Unit := do
  let s ← getS
  match f.ackJob.bind s.job with
  | some j => putJob { j with confirmed := true, ts := f.tendLink + 40 * s.tAck, aoEnd := f.aoEnd }
  | none => nop

/-- A first copy of a flood is accepted: entered, learnt from, and used for time (R138, R169, R178, R184). -/
def floodFirst (n : Nat) (f : RxFrame) (m : Mac) (fl : FloodIe) (secured : Bool) : M Unit := do
  let s ← getS
  seenInsert fl.orig fl.fseq fl.hopcnt 1
  if s.bit FLOOD_CFG_HTRLEARN then
    match f.peer with
    | some i => setPeerBits i 2 15 0 fl.htr
    | none => nop
  if fl.cls = 3 ∧ m.ftype = 1 then timeUpdate fl (s.tHop n f.coded f.mcs f.len) f.tend secured

/-- A frame that is only relayed is accepted: its relay is confirmed with the relay copy, or, where none is reserved, its cells
return to FREE (R138, R168, R170); it counts as RELAY (R157). -/
def acceptRelay (f : RxFrame) (fl : Option FloodIe) (body : List Byte) (repeat_ : Bool) : M Unit := do
  let s ← getS
  match fl, f.relayJob.bind s.job with
  | some x, some j =>
    count linkPage 0x01 1
    holdCells f.cells
    chainWrite f.cells body
    putJob { j with confirmed := true, repeat_ := repeat_, ts := f.tendLink + s.tRelay, octets := relayCopy body x }
  | _, _ =>
    if f.verdict = some .relay then count linkPage 0x01 1
    releaseLink f.cells

/-- Acceptance of a frame whose checks have passed (R138): `body` is the PSDU as received without FCS, `plain` what its
cells hold on delivery. -/
def accept (n : Nat) (f : RxFrame) (body plain : List Byte) (secured : Bool) : M Unit := do
  let s ← getS
  let m := parseMac body
  let fl := (floodIe body m).filter (floodValid m)
  if f.row = 0 then
    count linkPage 0x01 0
    deliver n f false false body
  else if f.row = 6 ∨ f.row = 7 then
    if f.row = 7 then
      match f.peer, m.dsn with
      | some i, some d => setPeerBits i 2 31 24 d
      | _, _ => nop
    ackConfirm f
  else
    let found := fl.bind fun x => s.seenFind x.orig x.fseq
    let shadow := found.isSome && !f.repeat_
    if shadow then
      count floodPage 0x03 1
      withdraw f.ackJob
    if f.repeat_ || shadow then
      let full := match found with | some e => decide (s.nrelay ≤ s.seenCount e) | none => false
      if full then
        discard f
        count floodPage 0x01 3
        stat 0x0D
      else
        match found with
        | some e => seenBump e
        | none => nop
        acceptRelay f fl body true
    else
      match f.peer with
      | some i => peerUpdate i m f.rssi
      | none => nop
      match f.verdict with
      | some .deliver =>
        count linkPage 0x01 0
        deliver n f false secured plain
      | some .both =>
        count linkPage 0x01 2
        match fl with
        | some x => confirm f.relayJob (f.tendLink + s.tRelay) (some (relayCopy body x))
        | none => nop
        let t ← getS
        deliver n f (f.relayJob.any fun i => (t.job i).isSome) secured body
      | some .relay => acceptRelay f fl body false
      | _ => nop
      ackConfirm f
      match fl with
      | some x => floodFirst n f m x secured
      | none => nop

/-- A check failed at acceptance (R138, R224): counted, and nothing follows. -/
def failFrame (f : RxFrame) (p0item p0word : Nat) : M Unit := do
  count linkPage 0x03 1
  stat 0x07
  count (ciphPage 0) p0item p0word
  discard f

/-- A frame past its verdict whose MIC is being checked under the key it latched (R217, R222). -/
def RxFrame.latched (f : RxFrame) : Bool := f.verdict.isSome && decide (f.keySlot < 64)

/-- Every frame check and every securing in progress on P0 ends (R213): a frame that waits for its MIC fails at once, one that still
arrives with its key latched fails at its end, and a frame being secured completes with a status. Answers whether there was
any. -/
def checksStop (st : Nat) : M Bool := do
  let s ← getS
  let lanes := List.range 4
  let checks := lanes.flatMap fun n => (s.lane n).mics.filter fun f => f.keyErr == 0
  let arriving := lanes.any fun n => (s.lane n).frame.any RxFrame.latched
  let jobs := s.jobs.filter fun j => j.stage == .securing
  forAll lanes fun n =>
    setLane n { s.lane n with
      mics := (s.lane n).mics.filter fun f => f.keyErr != 0
      frame := (s.lane n).frame.map fun f => if f.latched then { f with key := [], keySlot := 64, keyErr := 4 } else f }
  forAll checks fun f => failFrame f 0x02 3
  forAll jobs fun j => finishJob j st
  return !checks.isEmpty || arriving || !jobs.isEmpty

/-! ### The end of a frame (R138, R149, R193, R223) -/

/-- A strobe the node hears (R193): taken, ignored, or not for it. D lies 32 µs × COUNT after its t_end; with more than 1,000 µs to
go a radio the scheduler woke sleeps until STROBE_WAKE, unless another window holds it. -/
def strobeHeard (x : Strobe) : M Unit := do
  let s ← getS
  if s.sampOn && x.pan == s.fld FILT_ADDR_PAN && (x.dst == s.fld FILT_ADDR_SHORT || x.dst == 0xFFFF) then
    let d := s.dev.time.now + 1280 * x.count
    let w := ceilDiv (80 * (1280 * x.count)) 1000000
    match s.dev.samp.rdv with
    | some r => if r.at_ + 1280 < d ∨ d + 1280 < r.at_ then count sampPage 0x03 2 else nop
    | none =>
      count sampPage 0x03 0
      winEnd fun y => { y.sampleEnd with rdv := some { at_ := d, half := w, awake := decide (1280 * x.count ≤ 40000) } }

/-- An acknowledgement ends on a lane that awaits one (R149). -/
def ackHeard (n : Nat) (f : RxFrame) (m : Mac) : M Unit := do
  let s ← getS
  match s.awaiting n with
  | none => nop
  | some j =>
    let own := parseMac j.octets
    let inTime := decide (f.sfdAt ≤ j.tend + s.ackSpan n)
    let named := m.dsn.isSome && m.dsn == own.dsn
    let fits := if m.ver < 2 then named
      else s.dstOwn m.dst && (named || (m.dsn.isNone && m.src == own.dst && m.src != .none))
    if m.ok && m.ftype == 2 && inTime && fits then ackMatched j

/-- FRAME_END's work (R138): the PSDU as it stood on the air, de-whitened where the PHR says so (R102); FCS, then acceptance,
or the wait for the MIC. -/
def frameEnd (n : Nat) (psdu : List Byte) : M Unit := do
  let s0 ← getS
  match (s0.lane n).frame with
  | none => nop
  | some f0 =>
    if s0.laneState n = lanePayload ∧ s0.fld LINK_STAT_MODE ≠ 0 then
      let psdu := whitened f0.white (sliceOf psdu 0 f0.len)
      let body := psdu.take (f0.len - if f0.fcs2 then 2 else 4)
      let m := parseMac body
      if f0.verdict.isNone then
        if 64 < m.hdrLen then
          perf linkPage 0x40 1
          countVerdict .dropLength
          laneFree n
          frameOver
        else judge n f0 (body.take m.hdrLen)
      let s ← getS
      match (s.lane n).frame with
      | none => nop
      | some f1 =>
        if f1.row ≠ 6 ∧ f1.row ≠ 7 then chainWrite f1.cells body
        let f := { f1 with tend := s.ntime, tendLink := s.dev.time.link, aoEnd := s.dev.time.ao + 1, psdu := psdu }
        laneFree n
        laneCount 0x10 n 1 false
        perf lanesPage (0x44 + n) 1
        emit lanesPage (0x98 + n)
        if !fcsOk f.fcs2 psdu then
          count linkPage 0x03 0
          stat 0x06
          discard f
        else if f.consumed then
          match strobeOf body f.len with
          | some x => strobeHeard x
          | none => ackHeard n f m
        else if m.sec && f.row != 0 then
          let t ← getS
          setLane n { t.lane n with mics := (t.lane n).mics ++ [f] }
        else
          if f.row == 0 && m.ftype == 2 then ackHeard n f m
          accept n f body body false
        frameOver

/-- MIC_RESULT's work (R222–R224): the oldest frame of the lane that waits. -/
def micResult (n : Nat) : M Unit := do
  let s ← getS
  match (s.lane n).mics with
  | [] => nop
  | f :: rest =>
    setLane n { s.lane n with mics := rest }
    let body := f.psdu.take (f.len - if f.fcs2 then 2 else 4)
    let m := parseMac body
    count (ciphPage 0) 0x01 0
    if f.keyErr = 4 then failFrame f 0x02 3
    else if f.keyErr = 3 then failFrame f 0x01 3
    else if f.keyErr = 2 then failFrame f 0x01 2
    else
      let ext := match m.src with
        | .ext a => a
        | _ => match f.peer with | some i => s.peerExt i | none => 0
      perf (ciphPage 0) 0x40 (ccmBlocks m.hdrLen (body.length - m.hdrLen - micLen m.level))
      let (plain, ok) := openFrame f.key (frameNonce ext m.fcnt m.level) body m
      if !ok then failFrame f 0x01 1
      else if f.keySlot = 3 ∧ (m.level < 5) then
        count hostpPage 0x02 2
        discard f
      else accept n f body (plain ++ body.drop (body.length - micLen m.level)) true
    winSettle

end Sys2Proof.Machine
end

