-- ==== Sys2Proof/Machine/Samp.lean ====
section
/-!
DEFINITION. The root's beacons, and the wake-sampling scheduler: the lattice, sample windows, strobe waits, beacon windows,
scans and the peer sweep (R166, R188–R193, R197, R201–R206).
-/
namespace Sys2Proof.Machine
open Sys2Proof.Reg

/-! ### The root's beacons (R166) -/

/-- B × 40,000,000 link ticks: 0 acts as 1 s, above 3,600 as 3,600 (R184). -/
def State.bcnPeriod (s : State) : Nat := max 1 (min 3600 (s.fld FLOOD_BCN_B)) * 40000000

/-- The first beacon instant at least 200 µs ahead; the instants restart at the wrap (R166). -/
def State.bcnInstant (s : State) : Nat :=
  let p := s.bcnPeriod
  let t := ceilDiv (s.ntime + 8000) p * p
  if 2 ^ 48 ≤ t then 0 else t

/-- A beacon is counted as missed (R166, R453). -/
def bcnMiss : M Unit := do
  count floodPage 0x04 2
  stat 0x13

/-- BEACON_PREPARE: 200 µs ahead of a beacon instant (R166). Beacons go at the lane's lowest MCS with a 4-octet FCS (log
entry 33). -/
def execBeaconPrepare (s : State) : Host.Outcome State Fault Refusal := cmd s do
  if s.bit NTIME_CFG_ROOT && s.bit FLOOD_BCN_EN && s.bit NTIME_STAT_SYNC && s.fld LINK_STAT_MODE != 0 then
    let tc := s.chain (s.fld FLOOD_BTMPL_CELL)
    let len := s.fld FLOOD_BTMPL_LENGTH
    let l := s.chainBytes tc len
    let m := parseMac l
    let lane := s.fld FLOOD_BCN_LANE
    match (floodIe l m).filter fun f => s.mayOriginate m f && f.cls == 3 with
    | none => bcnMiss
    | some f =>
      if tc.any (fun c => (s.cell c).owner != ownCore) || tc.length < cellsFor len || !s.laneCfgOk lane
          || decide (2047 < len + 4) then bcnMiss
      else match ← allocChain poolTx ownLink (cellsFor len) with
      | none => bcnMiss
      | some cells =>
        let t := s.bcnInstant
        let d := (t + 2 ^ 48 - s.ntime) % 2 ^ 48
        let mcs := lowMcs (s.fld (LANES_MODE_OPT lane))
        let air := s.airtime lane false mcs s.rpre (len + 4)
        let l ← originate l f (some (t + 40 * air))
        let seed ← takeSeed lane
        let job : TxJob :=
          { kind := .beacon, stage := .reserved, lane := lane, timed := true, pre := s.rpre, pre0 := s.rpre
            pwr := s.fld FLOOD_CFG_RPWR, hidx := s.fld (LANES_MODE_HIDX lane), mcs := mcs, seed := seed
            cells := cells, octets := l, ts := s.dev.time.link + d, nt := some t, air := air }
        if s.taken job then
          releaseCells cells
          bcnMiss
        else if s.bit FLOOD_BCN_SECURE then
          match ← secureTx l with
          | .error _ =>
            releaseCells cells
            bcnMiss
          | .ok (l', n) =>
            chainWrite cells l'
            let _ ← addJob { job with octets := l', fcnt := n, secured := true, stage := .securing }
        else
          chainWrite cells l
          let _ ← addJob job

/-! ### The lattice (R189, R194) -/

/-- A re-anchor is requested; without effect while the scheduler is stopped (R189). -/
def reanchor : M Unit := do
  let s ← getS
  if s.sampOn then modSamp fun x => { x with reanchor := true }

/-- REANCHOR (R189). -/
def execReanchor (s : State) : Host.Outcome State Fault Refusal := cmd s reanchor

/-- LATTICE_ANCHOR: the LF edge after a start, a REANCHOR or an acknowledged frame (R189). -/
def execLatticeAnchor (s : State) : Host.Outcome State Fault Refusal := cmd s do
  if s.dev.samp.reanchor && s.sampOn then
    if s.dev.samp.anchor.isSome then count sampPage 0x03 3
    modSamp fun x => { x with anchor := some s.dev.time.ao, reanchor := false }

/-- N in LF ticks (R189, R206). -/
def State.sampN (s : State) : Nat := lfTicks (max 100 (min 10000 (s.fld SAMP_CFG_TS)))

/-- The next sample instant at or after the present LF tick (R189, R207). -/
def State.sampNext (s : State) : Nat :=
  match s.dev.samp.anchor with
  | some a => a + ceilDiv (s.dev.time.ao - a) s.sampN * s.sampN
  | none => 0

/-! ### Sample windows (R190, R191, R205) -/

/-- SAMPLE_WAKE, 22 LF ticks ahead of a sample instant (R190, R205): an instant inside another window, or with the radio in RX,
counts as taken without a wake, and one while the node transmits is skipped. -/
def execSampleWake (s : State) : Host.Outcome State Fault Refusal := cmd s do
  if s.sampOn && s.dev.samp.anchor.isSome && !s.dev.samp.closing then
    if s.bit RCTL_STAT_TXACT || s.radio == radTx then count sampPage 0x02 1
    else if s.dev.samp.shown ≠ winNone ∨ s.radio = radRx then count sampPage 0x02 0
    else
      count sampPage 0x02 0
      setWin fun x => { x.sampleEnd with sample := true, woke := true, openAt := s.dev.time.now + 26855 }
      radioReq radStby false true

/-- SAMPLE_SYN_REQUEST (R190). -/
def execSampleSynRequest (s : State) : Host.Outcome State Fault Refusal := cmd s do
  if s.dev.samp.sample ∧ s.dev.samp.woke then radioReq radSyn false true

/-- SAMPLE_RX_REQUEST (R190). -/
def execSampleRxRequest (s : State) : Host.Outcome State Fault Refusal := cmd s do
  if s.dev.samp.sample ∧ s.dev.samp.woke then radioReq radRx false true

/-- SAMPLE_LISTEN_END at S + 400 µs (R191): a detection keeps the window, energy alone extends it once. -/
def execSampleListenEnd (s : State) : Host.Outcome State Fault Refusal := cmd s do
  let x := s.dev.samp
  if x.sample ∧ !x.extended then
    if x.detected then
      modSamp fun y => { y with extended := true }
      winSettle
    else if x.energy ∧ s.fld SAMP_RDV_EXT ≠ 0 then
      modSamp fun y => { y with extended := true }
      count sampPage 0x02 2
    else winEnd Samp.sampleEnd

/-- SAMPLE_EXTENSION_END (R191). -/
def execSampleExtensionEnd (s : State) : Host.Outcome State Fault Refusal := cmd s do
  let x := s.dev.samp
  if x.sample ∧ x.extended ∧ (!x.detected ∨ s.rxQuiet) then winEnd Samp.sampleEnd

/-! ### Strobe waits (R193) -/

/-- STROBE_WAKE: the radio is to be in RX at D − 100 µs − w (R193). -/
def execStrobeWake (s : State) : Host.Outcome State Fault Refusal := cmd s do
  if s.dev.samp.rdv.isSome then
    setWin fun x => { x with rdv := x.rdv.map fun r => { r with awake := true } }
    listen

/-- STROBE_MISS at the end of the wait (R193): without a detection in it the wait is over and counts; with one it is over once the
frame is. -/
def execStrobeMiss (s : State) : Host.Outcome State Fault Refusal := cmd s do
  match s.dev.samp.rdv with
  | none => nop
  | some r =>
    if r.hit then winSettle
    else
      count sampPage 0x03 1
      winEnd fun x => { x with rdv := none }

/-! ### Beacon windows (R201–R204) -/

/-- g_b in µs for an expected arrival a number of link ticks after the last applied update, rounded up as R196 rounds g (R201). -/
def State.bcnGuard (s : State) (dt : Nat) : Nat := (ceilDiv (80 * dt) 40000000 + 200) * 2 ^ s.fld SAMP_STAT_MISSES

/-- NTIME as it would stand now: the counter, or with the link clock stopped what its restore would give (R181, R201). -/
def State.ntimeNow (s : State) : Nat :=
  match s.dev.time.carry with
  | some c =>
    if s.linkClock && !s.dev.time.restore then s.ntime
    else c.ntime + s.lfToLink ((s.dev.time.ao + 2 ^ 48 - c.ao) % 2 ^ 48)
  | none => s.ntime

/-- The instants that are multiples of p from the start of an epoch of 2⁴⁸ ticks, across its wrap, where they restart (R166): the
i-th one, and the last one at or before t. -/
def bcnAt (p i : Nat) : Nat := let m := ceilDiv (2 ^ 48) p; i / m * 2 ^ 48 + i % m * p
def bcnIndex (p t : Nat) : Nat := t / 2 ^ 48 * ceilDiv (2 ^ 48) p + t % 2 ^ 48 / p

/-- The next tracked beacon's expected arrival, on the clock of `Time.now` (R201): of every EVERY-th interval from the last applied
update. -/
def State.bcnNext (s : State) : Nat :=
  let p := s.bcnPeriod
  let every := max 1 (s.fld SAMP_BCFG_EVERY)
  let off := s.fld NTIME_STAT_LASTHOP * s.dev.samp.thop
  let since := s.dev.time.now - s.dev.samp.lastUpd
  let y := s.ntimeNow + 2 ^ 50 - off
  let i0 := bcnIndex p (y - since)
  let i := i0 + every * ((bcnIndex p y - i0) / every + 1)
  s.dev.time.now + (bcnAt p i - y)

/-- BEACON_WINDOW_OPEN at E_b − g_b (R201); a sample window or a strobe wait that is open beside it goes on (R205). -/
def execBeaconWindowOpen (s : State) : Host.Outcome State Fault Refusal := cmd s do
  if s.sampOn && s.fld SAMP_STAT_BSTATE == bTrack && !s.dev.samp.closing && s.dev.samp.main == 0 then
    setWin fun x => { x.mainOpen winBeacon with tracked := x.tracked + 1 }
    listen

/-- BEACON_WINDOW_CLOSE at E_b + g_b and the qualification time (R201, R202): a window in which a lane has detected stays open until
its frame is over. -/
def execBeaconWindowClose (s : State) : Host.Outcome State Fault Refusal := cmd s do
  let x := s.dev.samp
  if x.main = winBeacon ∧ !x.updated then
    if x.heard then
      modSamp fun y => { y with ended := true }
      winSettle
    else beaconMissed

/-- BEACON_HOLD_END (R203): a frame in progress, and a relay it earned, finish first (log entry 123). -/
def execBeaconHoldEnd (s : State) : Host.Outcome State Fault Refusal := cmd s do
  if s.dev.samp.main = winHold then
    modSamp fun x => { x with ended := true }
    winSettle

/-- SCAN_TIMEOUT after 2B (R204). -/
def execScanTimeout (s : State) : Host.Outcome State Fault Refusal := cmd s do
  if s.fld SAMP_STAT_BSTATE = bScan then
    setFld SAMP_STAT_BSTATE bLost
    count sampPage 0x04 3
    winEnd Samp.mainEnd
    autoSw

/-- RESCAN (R204, R206). During SCAN, SYNC is 0. -/
def rescan : M Unit := do
  let s ← getS
  let b := s.fld SAMP_STAT_BSTATE
  if b = bLost ∨ b = bTrack then
    setFld NTIME_STAT_SYNC 0
    setFld SAMP_STAT_MISSES 0
    scanOpen
  else setFlt sampPage fltState

/-- RESCAN (R204). -/
def execRescan (s : State) : Host.Outcome State Fault Refusal := cmd s rescan

/-- A write of SAMP_CMD (R206). -/
def sampCmd (v : Word) : M Unit := do
  if bitOf v.toNat 0 then rescan
  if bitOf v.toNat 1 then reanchor

/-- SAMP_CTRL.EN changed (R188, R205): a window in use closes once its frame is over. -/
def sampCtrl (on : Bool) : M Unit := do
  let s ← getS
  if on then sampStart
  else if s.dev.samp.shown ≠ winNone ∧ !s.rxQuiet then modSamp fun x => { x with closing := true }
  else
    winEnd Samp.shut
    sampStop

/-! ### The peer sweep (R197) -/

/-- PEER_SWEEP, while the link clock runs: `stopped` is how many LF ticks it stood still before this run (R197). -/
def execPeerSweep (stopped : Nat) (s : State) : Host.Outcome State Fault Refusal := cmd s do
  if s.linkClock then
    let now := s.dev.time.ao
    forAll s.peer fun kv =>
      if kv.1 % 8 = 0 ∧ bitOf kv.2.toNat 31 ∧ bitOf kv.2.toNat 26 then
        if 2 ^ 31 ≤ stopped ∨ 7 * 2 ^ 28 ≤ (now + 2 ^ 32 - (s.peerW (kv.1 / 8) 7).toNat) % 2 ^ 32 then
          setPeerBits (kv.1 / 8) 0 26 26 0
        else nop
      else nop

end Sys2Proof.Machine
end

