-- ==== Sys2Proof/Machine/Stats.lean ====
section
/-!
DEFINITION. Heats and their statistics, the tally unit, instruction sampling, and the logbook's staging page (R450–R463,
R477–R481).
-/
namespace Sys2Proof.Machine
open Sys2Proof.Reg

def modHeat (f : Heat → Heat) : M Unit := modDev fun d => { d with heat := f d.heat }
def modTally (f : Tally → Tally) : M Unit := modDev fun d => { d with tally := f d.tally }

/-! ### Heats (R450–R455) -/

/-- A live statistic (R453): the heat's number and length follow the heat timer. -/
def State.statLive (s : State) (e : Nat) : Nat :=
  if e = 0 then ((s.reg STATS_HEAT).toNat + 1) % 2 ^ 32
  else if e = 1 then min (2 ^ 32 - 1) (s.dev.time.ao - s.dev.heat.start)
  else if 26 ≤ e then 0
  else s.ctr statsPage (0x20 + e / 4) (e % 4)

/-- A statistic of the last completed heat (R453, R455). -/
def State.statShadow (s : State) (e : Nat) : Nat := s.ctr statsPage (0x10 + e / 4) (e % 4)

/-- Does a mailbox count restart with each heat (R451)? All do but the lanes' and the statistics of STATS itself. -/
def restartsWithHeat (key : Nat) : Bool :=
  let p := key / 0x100000
  p != lanesPage && p != statsPage

/-- A heat boundary (R451, R454). -/
def heatEnd : M Unit := do
  let s ← getS
  forAll (List.range 32) fun e => setCtr statsPage (0x10 + e / 4) (e % 4) (s.statLive e)
  modDev fun d => { d with ctr := Sparse.drop (fun k => restartsWithHeat k) d.ctr }
  forAll (List.range 32) fun e => setCtr statsPage (0x20 + e / 4) (e % 4) 0
  let v := s.fld GOV_LEVEL_VSTORE
  modGov fun g => { g with measured := false }
  setCtr govPage 0x01 0 v
  setCtr govPage 0x01 1 v
  setCtr statsPage 0x26 0 v
  setCtr statsPage 0x26 1 v
  modHeat fun _ => { start := s.dev.time.ao }
  wr STATS_HEAT (s.reg STATS_HEAT + 1)
  setFld STATS_STAT_HEATF 1
  emit statsPage 0x59

/-- The heat ends at the next LF edge: STATS_CMD.END and TK_STATS_HEAT (R450). -/
def heatRequest : M Unit := modHeat fun h => { h with req := true }

/-- HEAT_END (R451). -/
def execHeatEnd (s : State) : Host.Outcome State Fault Refusal := cmd s heatEnd

/-- HEAT_END_REQUEST (R450, R477). -/
def execHeatEndRequest (s : State) : Host.Outcome State Fault Refusal := cmd s heatRequest

/-- Clear every statistic and begin a new heat (R452). -/
def statsClear : M Unit := do
  modDev fun d => { d with ctr := Sparse.drop (fun k => k / 0x100000 == statsPage) d.ctr }
  modHeat fun _ => { start := 0 }
  let s ← getS
  modHeat fun h => { h with start := s.dev.time.ao }

/-- An update or a beacon brings a BEACON heat nearer to its end (R450). -/
def heatBeacon (ev : Nat) : M Unit := do
  let s ← getS
  let want := if s.bit NTIME_CFG_ROOT then 0xB1 else 0xA4
  if s.bit STATS_CFG_MODE && ev == want then
    let n := s.dev.heat.beacons + 1
    if max 1 (s.fld STATS_CFG_NBCN) ≤ n then modHeat fun h => { h with req := true, beacons := 0 }
    else modHeat fun h => { h with beacons := n }

/-- Is a boundary due at this LF edge (R450)? -/
def State.heatDue (s : State) : Bool :=
  s.dev.heat.req
    || decide (max 1 (s.fld STATS_CFG_LEN) * 32768 ≤ s.dev.time.ao - s.dev.heat.start)

/-! ### Tally unit (R458–R460) -/

/-- The pages a snapshot takes, in index order. -/
def State.tallyPages (s : State) : List Nat :=
  ((List.range 16).filter fun i => s.bit (TALLY_PAGE_VALID i)).map fun i => s.fld (TALLY_PAGE_PAGE i) * 0x1000

/-- The octets of a snapshot (R459; log entry 45): SEQ, AO tick, NTIME, n, and the counters of each page. -/
def State.tallyImage (s : State) : List Byte :=
  let ps := s.tallyPages
  leBytes 4 s.dev.tally.seq ++ leBytes 4 s.dev.time.ao
    ++ leBytes 4 (if s.bit NTIME_STAT_SYNC then s.dev.time.ntime else 0) ++ leBytes 4 ps.length
    ++ ps.flatMap fun p => (List.range 4).flatMap fun k => leBytes 4 (s.reg (PERF_CNT p k)).toNat

/-- The octets of one slot of the ring. -/
def State.tallySlot (s : State) : Nat := 16 + 16 * s.tallyPages.length

/-- Does the ring lie wholly in main SRAM (R460)? -/
def State.tallyRingOk (s : State) : Bool :=
  let b := s.fld TALLY_BASE_BASE * 16
  decide (0x20000000 ≤ b) && decide (b + (s.fld TALLY_DEPTH_DEPTH + 1) * s.tallySlot ≤ 0x20080000)

/-- A snapshot starts. -/
def tallyStart : M Unit := do
  let s ← getS
  modTally fun t => { t with seq := t.seq + 1, snap := s.tallyImage }
  setFld TALLY_STAT_BUSY 1

/-- A trigger is dropped (R460). -/
def tallyOverrun : M Unit := do
  let n ← fld TALLY_STAT_OVERRUN
  setFld TALLY_STAT_OVERRUN (min 255 (n + 1))

/-- The task number and the channel that stand for a trigger of the period waiting behind a snapshot (R324, R460). -/
abbrev tallyTask : Nat := 0x94
abbrev noChannel : Nat := 64

/-- TALLY_SNAPSHOT (R458, R460): a trigger while one runs waits one deep; a further one is dropped. -/
def execTallySnapshot (s : State) : Host.Outcome State Fault Refusal := cmd s do
  if s.en tallyPage then
    if !s.bit TALLY_STAT_BUSY then tallyStart
    else if s.dev.rigger.pend.any fun p => p.1 == tallyTask then tallyOverrun
    else modRigger fun r => { r with pend := r.pend ++ [(tallyTask, noChannel)] }

/-- TALLY_SNAPSHOT_DONE (R458, R459). -/
def execTallySnapshotDone (s : State) : Host.Outcome State Fault Refusal := cmd s do
  if s.bit TALLY_STAT_BUSY then
    let w := s.fld TALLY_STAT_WR
    putBytes (s.fld TALLY_BASE_BASE * 16 + w * s.tallySlot) s.dev.tally.snap
    modTally fun t => { t with snap := [] }
    setFld TALLY_STAT_BUSY 0
    setFld TALLY_STAT_WR ((w + 1) % (s.fld TALLY_DEPTH_DEPTH + 1))

/-- The unit's live state goes with its enable (R15). -/
def tallyReset : M Unit := do
  modTally fun t => { t with seq := 0, snap := [] }
  setFld TALLY_STAT_BUSY 0
  setFld TALLY_STAT_WR 0

/-- A write that sets or clears TALLY_CTRL.EN (R460). -/
def tallyCtrl (on : Bool) : M Unit := do
  let s ← getS
  if !on then
    setFld (CTRL_EN tallyPage) 0
    tallyReset
  else if s.en tallyPage || s.tallyRingOk then setFld (CTRL_EN tallyPage) 1
  else setFlt tallyPage fltState

/-! ### Instruction sampling (R461–R463) -/

/-- Empty the sampling buffer. -/
def tallyBufClear : M Unit := do
  act (.regClear fun a => decide (TALLY_BUF 0 0 ≤ a) && decide (a < TALLY_BUF 64 0))
  setFld TALLY_BUFSTAT_FULL 0
  setFld TALLY_BUFSTAT_N 0
  modTally fun t => { t with next := 0, left := 0 }

/-- TALLY_BUFFER_CLEAR (R463). -/
def execTallyBufferClear (s : State) : Host.Outcome State Fault Refusal := cmd s tallyBufClear

/-- A write to TALLY_SAMP; a change of MODE empties the buffer (R463). -/
def tallySampWrite (v : Word) : M Unit := do
  let s ← getS
  wr TALLY_SAMP v
  goodParity TALLY_SAMP
  if bitsGet v 31 30 ≠ s.fld TALLY_SAMP_MODE then tallyBufClear

/-- Store one entry of the buffer (R463). -/
def tallyRecord (ws : List Word) : M Unit := do
  let s ← getS
  let n := s.fld TALLY_BUFSTAT_N
  if !s.bit TALLY_BUFSTAT_FULL then
    let e := s.dev.tally.next % 64
    forAll (List.range 4) fun k => wr (TALLY_BUF e k) (ws.getD k 0)
    setFld TALLY_BUFSTAT_N (min 64 (n + 1))
    modTally fun t => { t with next := (e + 1) % 64 }
    if s.bit TALLY_SAMP_STOPFULL && decide (63 ≤ n) then setFld TALLY_BUFSTAT_FULL 1

/-- The random interval before the next tag (R461): the LFSR's draw is open. -/
def tallyDraw : M Nat := do
  let k := max 4 (min 20 (← fld TALLY_SAMP_INTLOG))
  return 2 ^ k + (← freeIn 0 (2 ^ (k - 1) - 1))

/-- An instruction passes the sampling unit (R461, R462): how many cycles it spends in each stage is open (log entry 46).
`intr` says that an exception abandoned it. -/
def tallySample (pc ins cyc : Word) (slot intr : Bool) : M Unit := do
  let s ← getS
  let mode := s.fld TALLY_SAMP_MODE
  let flags (x : Nat) : Nat := b2n (bitOf x 0) * 2 ^ 31 + b2n intr * 2 ^ 30 + b2n slot * 2 ^ 29 + b2n (bitOf x 1) * 2 ^ 28
  if s.en tallyPage then
    if mode = 1 then
      if s.dev.tally.left = 0 then
        let n ← tallyDraw
        modTally fun t => { t with left := n }
      else if s.dev.tally.left = 1 then
        let d ← freeWord
        let x ← freeNat
        tallyRecord [pc, ins, d, BitVec.ofNat 32 (flags x + cyc.toNat % 2 ^ 28)]
        let n ← tallyDraw
        modTally fun t => { t with left := n }
      else modTally fun t => { t with left := t.left - 1 }
    else if mode = 2 ∧ !intr then
      let lat ← freeNat
      let wait ← freeNat
      let x ← freeNat
      if s.fld TALLY_SAMP_THRESH < lat then
        tallyRecord [pc, ins, BitVec.ofNat 32 (min 0xFFFF lat + wait % 2 ^ 16 * 2 ^ 16),
          BitVec.ofNat 32 (flags x + cyc.toNat % 2 ^ 28)]

/-! ### Logbook staging page (R480) -/

/-- A write of LOGB_POP: from ROM addresses it removes the oldest staged record. -/
def logPop (m : Master) : M Unit := do
  let s ← getS
  if m = .core true then
    modDev fun d => { d with staged := d.staged.drop 1 }
    setFld LOGB_STAT_COUNT (s.dev.staged.length - 1)
  else setFlt logbPage fltState

/-- LOG_POP (R480). -/
def execLogPop (m : Master) (s : State) : Host.Outcome State Fault Refusal := cmd s (logPop m)

end Sys2Proof.Machine
end

