-- ==== Sys2Proof/Machine/Timers.lean ====
section
/-!
DEFINITION. Short timers, long timers and the real-time clock (R331–R353).
-/
namespace Sys2Proof.Machine
open Sys2Proof.Reg

/-! ### Short timers (R331–R336) -/

def modSt (n : Nat) (f : StLive → StLive) : M Unit :=
  modDev fun d => { d with st := Sparse.upd {} d.st n f }

def State.st (s : State) (n : Nat) : StLive := Sparse.val {} s.dev.st n

/-- An output mode acts as 0 above 3 (R334). -/
def State.stOutMode (s : State) (n k : Nat) : Nat :=
  let m := (s.reg (STIM_CHCFG n)).toNat / 2 ^ (8 * k) % 8
  if m < 4 then m else 0

/-- Does channel k capture (R335)? -/
def State.stCap (s : State) (n k : Nat) : Bool := bitOf (s.reg (STIM_CHCFG n)).toNat (8 * k + 7)

/-- The level GATE selects (R331, R349); any other selection leaves the gate open. -/
def State.gateOpen (s : State) (n : Nat) : Bool :=
  let g := s.fld (STIM_CFG_GATE n)
  let pol := s.bit (STIM_CFG_GPOL n)
  if g = 0 ∨ 39 < g then true
  else if g ≤ 36 then bitOf s.dev.gpIn (g - 1) == pol
  else if g = 37 then s.bit RCTL_STAT_TXACT == pol
  else if g = 38 then s.bit RCTL_STAT_LOCK == pol
  else s.bit (STIM_STAT_GLATCH n) == pol

def setStOut (n k : Nat) (b : Bool) : M Unit :=
  modSt n fun t => { t with out := if b then bitSet t.out k else bitClr t.out k }

/-- The TOP in force (R332). -/
def State.stTop (s : State) (n : Nat) : Nat := (s.st n).held.getD (s.fld (STIM_TOP_TOP n))

/-- The timer counts up from here on: a TOP written meanwhile is in force (R332). -/
def stUp (n : Nat) : M Unit := do
  setFld (STIM_COUNT_DOWN n) 0
  modSt n fun t => { t with held := none }

/-- With TOP = 0 the outputs are low once the count stands at 0 (R332). -/
def stLow (n : Nat) : M Unit := do
  let s ← getS
  if s.stTop n = 0 ∧ s.fld (STIM_COUNT_COUNT n) = 0 then modSt n fun t => { t with out := 0 }

/-- A compare on channel k fires: flag, event and output (R329, R333, R334). -/
def stFire (n k : Nat) (down : Bool) : M Unit := do
  let s ← getS
  modSt n fun t => { t with armed := bitClr t.armed k }
  setFld (STIM_STAT_FLAGS n) (bitSet (s.fld (STIM_STAT_FLAGS n)) k)
  emit stimPage (0x28 + 4 * n + k)
  match s.stOutMode n k with
  | 1 => modSt n fun t => { t with out := if bitOf t.out k then bitClr t.out k else bitSet t.out k }
  | 2 => setStOut n k false
  | 3 => setStOut n k (!down)
  | _ => nop

/-- Fire every armed compare whose condition holds at the count (R333). -/
def stCompare (n : Nat) (down : Bool) : M Unit := do
  forAll (List.range 4) fun k => do
    let s ← getS
    let cc := s.fld (STIM_CC_CC n k)
    let cnt := s.fld (STIM_COUNT_COUNT n)
    let behind := if down then (cc + 0x10000 - cnt) % 0x10000 else (cnt + 0x10000 - cc) % 0x10000
    if bitOf (s.st n).armed k ∧ !s.stCap n k ∧ cc ≤ s.stTop n ∧ behind < 0x8000 then
      stFire n k down

/-- Arm every compare (R333). -/
def stArm (n : Nat) : M Unit := modSt n fun t => { t with armed := 0xF }

/-- A period starts: the compares are armed and EDGE outputs rise (R333, R334). -/
def stPeriodStart (n : Nat) : M Unit := do
  stArm n
  forAll (List.range 4) fun k => do
    let s ← getS
    if s.stOutMode n k = 2 then setStOut n k true

/-- The period ends at this tick: flag and EV_STn_TOP, and the next period starts (R332). -/
def stPeriodEnd (n : Nat) : M Unit := do
  let f ← fld (STIM_STAT_FLAGS n)
  setFld (STIM_STAT_FLAGS n) (bitSet f 4)
  emit stimPage (0x20 + n)
  stPeriodStart n

/-- The turn to counting down: the compares are armed, and judged at the count (R332, R333). -/
def stTurn (n cnt : Nat) : M Unit := do
  setFld (STIM_COUNT_DOWN n) 1
  setFld (STIM_COUNT_COUNT n) cnt
  stArm n
  stCompare n true

/-- Count 0 reached: the period ends, and the next one's compares are judged there (R332, R333). -/
def stBottom (n : Nat) : M Unit := do
  stUp n
  let s ← getS
  if s.stTop n = 0 then stLow n
  else
    stPeriodEnd n
    stCompare n false

/-- One tick of short timer n (R332): up to TOP, back to 0 or down again; a TOP below the count turns it down (log
entry 24). UPDOWN turns at the tick that reaches TOP, where an up firing and a down firing may meet (R334). -/
def stTick (n : Nat) : M Unit := do
  let s ← getS
  let cnt := s.fld (STIM_COUNT_COUNT n)
  let top := s.stTop n
  let updown := s.bit (STIM_CFG_MODE n)
  let down := s.bit (STIM_COUNT_DOWN n)
  if s.bit ⟨STIM_EN, n, n⟩ ∧ s.gateOpen n then
    if top = 0 ∧ cnt = 0 then stLow n
    else if !down then
      if top < cnt ∨ (updown ∧ cnt = top) then
        stTurn n (cnt - 1)
        if updown ∧ cnt = 1 then stBottom n
        else if !updown ∧ cnt = top + 1 then
          stUp n
          stLow n
      else if cnt = top then
        setFld (STIM_COUNT_COUNT n) 0
        stBottom n
      else
        setFld (STIM_COUNT_COUNT n) (cnt + 1)
        stCompare n false
        if updown ∧ cnt + 1 = top then stTurn n top
    else
      setFld (STIM_COUNT_COUNT n) (cnt - 1)
      stCompare n true
      if updown then
        if cnt ≤ 1 then stBottom n
      else if cnt ≤ top + 1 then
        stUp n
        stLow n

/-- A tick of the prescaled bus clock; a timer with CLK = 1 counts tasks instead (R331). -/
def execStTick (n : Fin 8) (s : State) : Host.Outcome State Fault Refusal := cmd s do
  if !s.bit (STIM_CFG_CLK n) then stTick n

/-- A write of STIM_STn_TOP: in force at once, or, where the timer counts down, from the next up half (R332). -/
def stTopWrite (n : Nat) (v : Word) : M Unit := do
  let s ← getS
  if s.bit (STIM_COUNT_DOWN n) then modSt n fun t => { t with held := some (s.stTop n) }
  wr (STIM_TOP n) v
  stLow n

/-- STIM_STn_TOP written (R332). -/
def execStTopWrite (n : Fin 8) (v : Word) (s : State) : Host.Outcome State Fault Refusal := cmd s (stTopWrite n v)

/-- A write to STIM_STn_CCk sets the compare and arms it (R333). -/
def stCcWrite (n k : Nat) (v : Word) : M Unit := do
  wr (STIM_CC n k) v
  modSt n fun t => { t with armed := bitSet t.armed k }

/-- STIM_STn_CCk written (R333). -/
def execStCcWrite (n : Fin 8) (k : Fin 4) (v : Word) (s : State) : Host.Outcome State Fault Refusal :=
  cmd s (stCcWrite n k v)

/-- A unit reset of short timer n: live state cleared, configuration kept (R15). -/
def stReset (n : Nat) : M Unit := do
  wr (STIM_COUNT n) 0
  setFld (STIM_STAT_GLATCH n) 0
  modSt n fun _ => {}

/-- STIM_EN written: bits that rise start a period, bits that fall reset their timer (R15, R331); a parity mismatch keeps
its timer off (R314). -/
def stEnable (v : Nat) : M Unit := do
  let s ← getS
  let old := s.fld STIM_EN_EN
  let held := (List.range 8).foldl (fun a n =>
    if s.parityIn (STIM_CFG n) (STIM_CHCFG n) && bitOf v n && !bitOf old n then bitSet a n else a) 0
  if held ≠ 0 then setFltAt stimPage fltPar STIM_EN
  let v := v - held
  setFld STIM_EN_EN v
  forAll (List.range 8) fun n =>
    if bitOf v n && !bitOf old n then stPeriodStart n
    else if bitOf old n && !bitOf v n then stReset n
    else nop

/-- The tasks of a short timer, j as R330 numbers them (R335, R336). The compares that CLEAR arms are judged at once (R327). -/
def stTask (n j : Nat) : M Unit := do
  let s ← getS
  match j with
  | 0 => setFld ⟨STIM_EN, n, n⟩ 1
  | 1 => setFld ⟨STIM_EN, n, n⟩ 0
  | 2 =>
    wr (STIM_COUNT n) 0
    stUp n
    stPeriodStart n
    if s.bit ⟨STIM_EN, n, n⟩ ∧ s.gateOpen n ∧ s.fld (STIM_TOP_TOP n) ≠ 0 then stCompare n false
    stLow n
  | 3 => if s.bit (STIM_CFG_CLK n) then stTick n
  | 4 => setFld (STIM_STAT_GLATCH n) 1
  | 5 => setFld (STIM_STAT_GLATCH n) 0
  | j =>
    let k := j - 6
    if s.stCap n k then
      setFld (STIM_CC_CC n k) (s.fld (STIM_COUNT_COUNT n))
      setFld (STIM_STAT_FLAGS n) (bitSet (s.fld (STIM_STAT_FLAGS n)) k)
      emit stimPage (0x28 + 4 * n + k)

/-! ### Long timers (R337–R339) -/

def setLtArmed (n : Nat) (b : Bool) : M Unit :=
  modDev fun d => { d with lt := Sparse.upd {} d.lt n fun _ => { armed := b } }

/-- Load the count from BUF and start a period (R337, R339). -/
def ltLoad (n : Nat) : M Unit := do
  let b ← rd (LTIM_BUF n)
  wr (LTIM_COUNT n) b
  setLtArmed n true

/-- What a tick of long timer n does to it: count down or reload, the zero event and the compare (R337, R339). -/
def ltStep (n : Nat) : M Unit := do
  let c ← fld (LTIM_COUNT_COUNT n)
  if c = 0 then ltLoad n else setFld (LTIM_COUNT_COUNT n) (c - 1)
  let s ← getS
  let now := s.fld (LTIM_COUNT_COUNT n)
  if now = 0 then
    setFld (LTIM_STAT_FLAGS n) (bitSet (s.fld (LTIM_STAT_FLAGS n)) 0)
    emit ltimPage (0x48 + n)
  if (Sparse.val {} s.dev.lt n).armed ∧ (s.fld (LTIM_CMP_CMP n) + 2 ^ 32 - now) % 2 ^ 32 < 2 ^ 31 then
    setLtArmed n false
    let f ← fld (LTIM_STAT_FLAGS n)
    setFld (LTIM_STAT_FLAGS n) (bitSet f 1)
    emit ltimPage (0x4A + n)

/-- A tick of LT0 or of an unchained LT1; a reload of LT0 ticks a chained LT1 (R337, R338). -/
def execLtTick (n : Fin 2) (s : State) : Host.Outcome State Fault Refusal := cmd s do
  let chained := s.bit (LTIM_CFG_CHAIN 1)
  if s.bit ⟨LTIM_EN, n.val, n.val⟩ ∧ !(n.val == 1 && chained) then
    ltStep n
    if n.val = 0 ∧ s.fld (LTIM_COUNT_COUNT 0) = 0 ∧ chained ∧ s.bit ⟨LTIM_EN, 1, 1⟩ then ltStep 1

/-- LTIM_EN written: a bit that rises loads its count from BUF, one that falls resets its timer (R15, R337). -/
def ltEnable (v : Nat) : M Unit := do
  let s ← getS
  let old := s.fld LTIM_EN_EN
  let held := [0, 1].foldl (fun a n =>
    if s.parityIn (LTIM_CFG n) (LTIM_CFG n) && bitOf v n && !bitOf old n then bitSet a n else a) 0
  if held ≠ 0 then setFltAt ltimPage fltPar LTIM_EN
  let v := v - held
  setFld LTIM_EN_EN v
  forAll [0, 1] fun n => do
    if bitOf v n && !bitOf old n then ltLoad n
    if bitOf old n && !bitOf v n then
      wr (LTIM_COUNT n) 0
      setLtArmed n false

/-- LTIM_EN written (R337). -/
def execLtEnable (v : Word) (s : State) : Host.Outcome State Fault Refusal := cmd s do
  openGate ltimPage
  ltEnable (v.toNat % 4)

/-- A write to LTIM_LTn_CMP sets and arms the compare (R339). -/
def ltCmpWrite (n : Nat) (v : Word) : M Unit := do
  wr (LTIM_CMP n) v
  setLtArmed n true

/-- LTIM_LTn_CMP written (R339). -/
def execLtCmpWrite (n : Fin 2) (v : Word) (s : State) : Host.Outcome State Fault Refusal := cmd s (ltCmpWrite n v)

/-- The tasks of a long timer: 0 START, 1 STOP, 2 RELOAD (R330, R337). -/
def ltTask (n j : Nat) : M Unit := do
  let s ← getS
  match j with
  | 0 =>
    if !s.bit ⟨LTIM_EN, n, n⟩ then
      setFld ⟨LTIM_EN, n, n⟩ 1
      ltLoad n
  | 1 => setFld ⟨LTIM_EN, n, n⟩ 0
  | _ => ltLoad n

/-! ### Real-time clock (R340–R346) -/

/-- The RTC emits an event; RTC_CTRL.EN = 0 suppresses it (R340). -/
def rtcEmit (ev : Nat) : M Unit := do
  let s ← getS
  if s.en rtcPage then emit rtcPage ev

/-- The alarm fires once the seconds stand at or past it (R344), and wakes the device (R376). -/
def rtcAlarmCheck : M Unit := do
  let s ← getS
  if s.bit RTC_STAT_ARMED ∧ ((s.reg RTC_SECONDS) - (s.reg RTC_ALARM)).toNat < 2 ^ 31 then
    setFld RTC_STAT_ARMED 0
    setFld RTC_STAT_ALARMF 1
    rtcEmit 0x02
    modPwr fun p => { p with wake := bitSet p.wake 0 }

/-- The prescaler passes 32,767 (R340). -/
def execRtcSecond (s : State) : Host.Outcome State Fault Refusal := cmd s do
  modRtc fun r => { r with prescaler := 0 }
  wr RTC_SECONDS (s.reg RTC_SECONDS + 1)
  setFld RTC_STAT_SECF 1
  rtcEmit 0x01
  rtcAlarmCheck

/-- A write to RTC_SECONDS asks for a load at the next LF edge; it wins over a task's (R341, R342). -/
def rtcSecondsWrite (v : Word) : M Unit := modRtc fun r => { r with load := some (v.toNat, true) }

/-- RTC_SECONDS written (R341). -/
def execRtcSecondsWrite (v : Word) (s : State) : Host.Outcome State Fault Refusal := cmd s (rtcSecondsWrite v)

/-- TK_RTC_LOAD: as a write, with the value in RTC_SETSEC; a bus write's value stands (R341, R342). -/
def rtcTaskLoad : M Unit := do
  let s ← getS
  modRtc fun r =>
    { r with task := true
             load := match r.load with | some (v, true) => some (v, true) | _ => some ((s.reg RTC_SETSEC).toNat, false) }

/-- The LF edge of a load (R341). -/
def execRtcLoad (s : State) : Host.Outcome State Fault Refusal := cmd s do
  match s.dev.rtc.load with
  | none => nop
  | some (v, _) =>
    wr RTC_SECONDS (BitVec.ofNat 32 v)
    modRtc fun _ => { prescaler := 0, load := none }
    setFld RTC_STAT_TIME_VALID 1
    rtcAlarmCheck

/-- A write to RTC_ALARM arms the alarm; one at or behind the present second fires at once (R344). -/
def rtcAlarmWrite (v : Word) : M Unit := do
  wr RTC_ALARM v
  setFld RTC_STAT_ARMED 1
  rtcAlarmCheck

/-- RTC_ALARM written (R344). -/
def execRtcAlarmWrite (v : Word) (s : State) : Host.Outcome State Fault Refusal := cmd s (rtcAlarmWrite v)

/-- VRTC falls below 1.5 V: the RTC domain is cleared, its whole page included (R34, R352, R383). -/
def execRtcPowerOnReset (s : State) : Host.Outcome State Fault Refusal := cmd s do
  act (.regClear fun a => pageOf a == rtcPage)
  modRtc fun _ => {}
  modSupply fun p => { p with vrtc := min p.vrtc 1499 }

/-- The switch between VAON and VBAK acts at the 50 mV thresholds (R382). -/
def execVrtcSwitch (vaon vbak : Nat) (s : State) : Host.Outcome State Fault Refusal := cmd s do
  let sel := if vaon + 50 < vbak then true else if vbak + 50 < vaon then false else s.bit RTC_STAT_VBAK
  modSupply fun p => { p with vaon := vaon, vbak := vbak, vrtc := if sel then vbak else vaon }
  setFld RTC_STAT_VBAK (b2n sel)

end Sys2Proof.Machine
end

