-- ==== Sys2Proof/Machine/Rigger.lean ====
section
/-!
DEFINITION. The Rigger: channels, the storm guard, locks, tasks and their pending bits (R321–R330, R347, R348).
-/
namespace Sys2Proof.Machine
open Sys2Proof.Reg

def State.rig (s : State) (n : Nat) : RigCh := Sparse.val {} s.dev.rigger.ch n
def modRig (n : Nat) (f : RigCh → RigCh) : M Unit :=
  modRigger fun r => { r with ch := Sparse.upd {} r.ch n f }

def State.rigOn (s : State) (n : Nat) : Bool := s.bit ⟨RIGGER_EN (n / 32), n % 32, n % 32⟩
def State.rigLocked (s : State) (n : Nat) : Bool := s.bit ⟨RIGGER_LOCK (n / 32), n % 32, n % 32⟩
def setRigOn (n : Nat) (b : Bool) : M Unit := setFld ⟨RIGGER_EN (n / 32), n % 32, n % 32⟩ (b2n b)

/-- A task a channel sent is lost (R20, R323, R324): DROP counts, 16-bit saturating. -/
def rigDrop (n : Nat) : M Unit :=
  if n < 64 then modRig n fun c => { c with drop := min 0xFFFF (c.drop + 1) } else nop

/-! ### Tasks (R330) -/

/-- The page whose cluster takes a task; none for a reserved number. -/
def taskPage (t : Nat) : Option Nat :=
  if t = 0x01 then some rtcPage
  else if t = 0x02 then some sampPage
  else if t = 0x03 then some govPage
  else if t = 0x04 then some pwrPage
  else if t = 0x05 then some logbPage
  else if 0x20 ≤ t ∧ t ≤ 0x27 then some riggerPage
  else if 0x30 ≤ t ∧ t < 0x80 then some stimPage
  else if 0x80 ≤ t ∧ t ≤ 0x85 then some ltimPage
  else if 0x88 ≤ t ∧ t ≤ 0x8F then some dmaPage
  else if t = 0x90 then some adcPage
  else if t = 0x91 then some daliPage
  else if t = 0x92 ∨ t = 0x93 then some lumPage
  else if t = tallyTask then some tallyPage
  else if t = 0x95 then some statsPage
  else if 0x98 ≤ t ∧ t ≤ 0xA3 then some gpioPage
  else if t = 0xB0 then some ntimePage
  else none

/-- Is a task's consumer busy with it (R324, R330)? While the main clocks are stopped a task into the main or link
region waits at its crossing (R320). -/
def State.taskBusy (s : State) (t : Nat) : Bool :=
  let stopped := s.dev.pwr.state == .rest && (match taskPage t with
    | some p => decide (p < 0x42000000) && t != 0x92 && t != 0x93
    | none => false)
  stopped ||
  (if t = 0x01 then s.dev.rtc.task
   else if 0x88 ≤ t ∧ t ≤ 0x8F then s.dmaBusy (t - 0x88)
   else if t = 0x90 then s.en adcPage && s.bit ADC_STAT_BUSY
   else if t = 0x91 then s.bit DALI_STAT_BUSY
   else if t = 0x92 ∨ t = 0x93 then s.dev.gov.pulse.isSome || s.dev.gov.interval
   else if t = tallyTask then s.bit TALLY_STAT_BUSY
   else false)

/-- The action of a task at its consumer (R330); `ch` is the channel that sent it. -/
def taskAct (t ch : Nat) : M Unit := do
  let s ← getS
  match taskPage t with
  | none => nop
  | some p =>
    openGate p
    perf p 0x05 1
    if t = 0x01 then rtcTaskLoad
    else if t = 0x02 then reanchor
    else if t = 0x03 then startBleed false
    else if t = 0x04 then wakeSource 13
    else if t = 0x05 then stage 0x0B true stOk (s.reg riggerPage).toNat (leBytes 1 ch)
    else if t ≤ 0x27 then pulse (60 + (t - 0x20))
    else if t < 0x80 then stTask ((t - 0x30) / 10) ((t - 0x30) % 10)
    else if t ≤ 0x85 then ltTask ((t - 0x80) / 3) ((t - 0x80) % 3)
    else if t ≤ 0x8F then dmaTask (t - 0x88)
    else if t = 0x90 then adcStart
    else if t = 0x91 then daliStart
    else if t = 0x92 ∨ t = 0x93 then
      if s.rlyFree then startPulse (t - 0x92) else count govPage 0x02 2
    else if t = tallyTask then
      if s.en tallyPage then tallyStart
    else if t = 0x95 then heatRequest
    else if t ≤ 0x9B then modRigger fun r => { r with gpo := bitSet r.gpo (t - 0x98) }
    else if t ≤ 0x9F then modRigger fun r => { r with gpo := bitClr r.gpo (t - 0x9C) }
    else if t ≤ 0xA3 then modRigger fun r =>
      { r with gpo := if bitOf r.gpo (t - 0xA0) then bitClr r.gpo (t - 0xA0) else bitSet r.gpo (t - 0xA0) }
    else ntimeSet

/-- A task that is pending acts, once its consumer is free (R324). -/
def pendAct (t : Nat) : M Unit := do
  let s ← getS
  match s.dev.rigger.pend.find? fun x => x.1 == t with
  | none => nop
  | some x =>
    if !s.taskBusy t then
      modRigger fun r => { r with pend := r.pend.erase x }
      taskAct x.1 x.2

/-- Do two channels run in one region's fabric (R321)? -/
def sameFabric (m n : Nat) : Bool := decide (m < 16) == decide (n < 16)

/-- A channel sends a task (R323, R324): a powered-off consumer loses it, a busy one holds one of it pending, and one
already sent by another channel in this fabric cycle acts once. A pending one acts first. -/
def sendTask (t ch : Nat) : M Unit := do
  let s ← getS
  match taskPage t with
  | none => nop
  | some p =>
    if s.dev.rigger.taken.any fun x => x.1 == t && x.2 != ch && sameFabric x.2 ch then nop
    else
      modRigger fun r => { r with taken := (t, ch) :: r.taken }
      if !s.powered p then rigDrop ch
      else
      pendAct t
      let s ← getS
      if s.taskBusy t then
        if s.dev.rigger.pend.any fun x => x.1 == t then
          rigDrop ch
          if t = tallyTask then tallyOverrun
        else
          modRigger fun r => { r with pend := r.pend ++ [(t, ch)] }
          perf p 0x06 1
          if t = 0x92 ∨ t = 0x93 then count govPage 0x02 2
      else taskAct t ch

/-- PENDING_TASK (R324): the consumer is free and its pending task acts. -/
def execPendingTask (t : Fin 256) (s : State) : Host.Outcome State Fault Refusal := cmd s (pendAct t.val)

/-! ### Channels (R321–R327) -/

/-- The place of a task among those of one cycle: short timers (R336) and event outputs, where a clear goes last (R498). -/
def taskOrder (t : Nat) : Nat :=
  if 0x30 ≤ t ∧ t < 0x80 then
    match (t - 0x30) % 10 with
    | 2 => 4
    | 1 => 5
    | 0 => 6
    | 4 => 7
    | 5 => 7
    | 3 => 8
    | j => j - 6
  else if 0x98 ≤ t ∧ t < 0x9C then 1
  else if 0x9C ≤ t ∧ t < 0xA0 then 2
  else 0

/-- The tasks a channel holds, without repeats and reserved numbers. -/
def State.rigTasks (s : State) (n : Nat) : List Nat :=
  ([s.fld (RIGGER_TASK_TASK0 n), s.fld (RIGGER_TASK_TASK1 n), s.fld (RIGGER_TASK_TASK2 n),
    s.fld (RIGGER_TASK_TASK3 n)].eraseDups).filter fun t => (taskPage t).isSome

/-- The storm guard refuses a firing (R326): an unlocked channel is disabled; a locked one discards, and its record
follows at the end of the LF tick. -/
def rigStorm (n : Nat) : M Unit := do
  let s ← getS
  let c := s.rig n
  setFld ⟨RIGGER_STORM (n / 32), n % 32, n % 32⟩ 1
  setFlt riggerPage fltOvr
  if s.rigLocked n then
    rigDrop n
    modRig n fun c => { c with disc := c.disc + 1, trips := if c.disc = 0 then min 0xFFFF (c.trips + 1) else c.trips }
  else
    setRigOn n false
    modRig n fun c => { c with trips := min 0xFFFF (c.trips + 1) }
    stage 0x02 true stBusy (s.reg riggerPage).toNat (leBytes 1 n ++ leBytes 1 0 ++ leBytes 2 (c.disc + 1))

/-- A channel fires if it is enabled and the storm guard lets it (R322, R326): its tasks, with the channel's number.
Channels 16–63 need the main region: its clocks stopped, the firing is held one deep (R322); off, it is lost. -/
def rigFire (n : Nat) : M (List (Nat × Nat)) := do
  let s ← getS
  if !s.rigOn n then return []
  else if 16 ≤ n ∧ s.dev.pwr.state = .rest then
    modRigger fun r => { r with held := if n ∈ r.held then r.held else r.held ++ [n] }
    return []
  else if 16 ≤ n ∧ s.dev.pwr.state = .easy then return []
  else if max 1 (s.fld (RIGGER_SRC_STORM n)) ≤ (s.rig n).inTick then
    rigStorm n
    return []
  else
    modRig n fun c => { c with inTick := c.inTick + 1, fired := min (2 ^ 32 - 1) (c.fired + 1) }
    return (s.rigTasks n).map fun t => (t, n)

/-- Gather what several channels send in one fabric cycle. -/
def rigGather : List Nat → M (List (Nat × Nat))
  | [] => pure []
  | n :: l => do
    let a ← rigFire n
    let b ← rigGather l
    return a ++ b

/-- A fabric cycle of the main region is over (R321). -/
def fabricCycle : M Unit := modRigger fun r => { r with taken := r.taken.filter fun x => x.2 < 16 }

/-- The channels of one fabric cycle fire; tasks that meet at a timer act in the order of R336. A main-region channel that has
fired in this cycle already opens a new one (log entry 132). -/
def fireSet (chs : List Nat) : M Unit := do
  let s ← getS
  if s.dev.rigger.taken.any fun x => decide (16 ≤ x.2) && decide (x.2 ∈ chs) then fabricCycle
  let ts ← rigGather chs
  forAll (List.range 9) fun k =>
    forAll (ts.filter fun x => taskOrder x.1 == k) fun x => sendTask x.1 x.2

/-- The numbers of R329's events. -/
def isEvent (e : Nat) : Bool :=
  [(0x01, 0x0C), (0x10, 0x18), (0x20, 0x4B), (0x50, 0x66), (0x68, 0x8B), (0x90, 0xB1), (0xB8, 0xBC), (0xC0, 0xD4), (0xD8, 0xDE),
    (0xE0, 0xED), (0xF0, 0xF3)].any fun r => decide (r.1 ≤ e ∧ e ≤ r.2)

/-- May a channel's source fire (R329)? Not number 0 nor a reserved one; with the main and link regions off only those of the AO
region and the RTC domain. -/
def State.srcFires (s : State) (n : Nat) : Bool :=
  let e := s.fld (RIGGER_SRC_SRC n)
  isEvent e && (s.dev.pwr.state != .easy || decide (e ≤ 0x18))

/-- RIGGER_CHANNEL_FIRE (R322): the channel's source event has reached it. -/
def execRiggerChannelFire (n : Fin 64) (s : State) : Host.Outcome State Fault Refusal := cmd s do
  if s.srcFires n then fireSet [n.val]

/-- A write of RIGGER_FIREk (R325, R347): a locked channel is not fired. -/
def rigSoftFire (k : Nat) (v : Nat) : M Unit := do
  let s ← getS
  let chs := (onesOf 32 v).map fun j => 32 * k + j
  if chs.any fun n => s.rigLocked n then setFlt riggerPage fltState
  fireSet (chs.filter fun n => !s.rigLocked n)

/-- RIGGER_SOFT_FIRE (R347). -/
def execRiggerSoftFire (k : Fin 2) (v : Word) (s : State) : Host.Outcome State Fault Refusal :=
  cmd s (rigSoftFire k.val v.toNat)

/-- A write of RIGGER_LOCKk: ones lock, zeros are ignored (R325, R347). -/
def rigLock (k : Nat) (v : Word) : M Unit := do
  let w ← rd (RIGGER_LOCK k)
  wr (RIGGER_LOCK k) (w ||| v)

/-- RIGGER_LOCK (R325). -/
def execRiggerLock (k : Fin 2) (v : Word) (s : State) : Host.Outcome State Fault Refusal := cmd s (rigLock k.val v)

/-- A write of RIGGER_CNTCLR (R347). -/
def rigCntClr (v : Word) : M Unit :=
  modRigger fun r =>
    let clr (c : RigCh) : RigCh := { c with drop := 0, fired := 0, trips := 0 }
    if bitOf v.toNat 31 then
      { r with ch := (List.range 64).foldl (fun m n => Sparse.upd {} m n clr) r.ch }
    else { r with ch := Sparse.upd {} r.ch (bitsGet v 5 0) clr }

/-- RIGGER_COUNT_CLEAR (R347). -/
def execRiggerCountClear (v : Word) (s : State) : Host.Outcome State Fault Refusal := cmd s (rigCntClr v)

/-- The registers of channel n. -/
def rigRegs (n a : Nat) : Bool := a == RIGGER_SRC n || a == RIGGER_TASK n

/-- A write of RIGGER_ENk: a locked channel's bit is read-only, and a parity mismatch keeps its channel off (R314, R325); the
flags of one write are one event (R305). -/
def rigEnable (k : Nat) (v : Nat) : M Unit := do
  let s ← getS
  let moved := (List.range 32).filter fun j => bitOf v j != s.rigOn (32 * k + j)
  let locked (j : Nat) : Bool := s.rigLocked (32 * k + j)
  let held (j : Nat) : Bool := !locked j && bitOf v j && s.dev.parity.any (rigRegs (32 * k + j))
  if moved.any held then setFltAt riggerPage fltPar (RIGGER_EN k)
  if moved.any locked then (if moved.any held then addFlt riggerPage fltState else setFlt riggerPage fltState)
  forAll (moved.filter fun j => !locked j && !held j) fun j => setRigOn (32 * k + j) (bitOf v j)

/-- The LF edge ends the storm guard's tick and the AO fabric's cycle (R321): firings a locked channel discarded are recorded (R326). -/
def rigLfTick : M Unit := do
  let s ← getS
  forAll (List.range 64) fun n => do
    let c := s.rig n
    if c.disc ≠ 0 then
      stage 0x02 true stBusy (s.reg riggerPage).toNat (leBytes 1 n ++ leBytes 1 1 ++ leBytes 2 (min 0xFFFF c.disc))
    if c.inTick ≠ 0 ∨ c.disc ≠ 0 then modRig n fun c => { c with inTick := 0, disc := 0 }
  modRigger fun r => { r with taken := [] }

/-- The events held for main-region channels reach them when the clocks run again (R320, R322). -/
def rigRelease : M Unit := do
  let s ← getS
  modRigger fun r => { r with held := [] }
  fabricCycle
  fireSet s.dev.rigger.held

end Sys2Proof.Machine
end

