-- ==== Sys2Proof/Machine/Reset.lean ====
section
/-!
DEFINITION. The resets and how they nest: cluster, link region, radio die, start, package and power-on (R12–R39, R241,
R413). Log entry 60 says what each keeps where the spec's words need a reading.
-/
namespace Sys2Proof.Machine
open Sys2Proof.Reg

/-! ### Regions by address (R18, R269) -/

def inMain (a : Nat) : Bool := decide (0x40000000 ≤ a) && decide (a < 0x41000000)
def inLink (a : Nat) : Bool := decide (0x41000000 ≤ a) && decide (a < 0x42000000)
def inAo (a : Nat) : Bool := decide (0x42000000 ≤ a) && decide (a < 0x42008000)
def inRadio (a : Nat) : Bool := decide (0x43000000 ≤ a) && decide (a < 0x44000000)
def inPrivate (a : Nat) : Bool := decide (0xE0000000 ≤ a)

/-- Clear registers, their parity and the mailbox counts and snapshots of the pages that `p` accepts. -/
def clearPages (p : Nat → Bool) : M Unit := do
  act (.regClear p)
  modDev fun d =>
    { d with parity := d.parity.filter fun a => !p a
             mbx := Sparse.drop p d.mbx
             ctr := Sparse.drop (fun k => p (k / 0x100000)) d.ctr
             resetting := d.resetting.filter fun a => !p a
             gates := d.gates.filter fun a => !p a }

/-- The values of some fields. -/
def State.keep (s : State) (l : List Fld) : List (Fld × Nat) := l.map fun f => (f, s.fld f)

/-- Put them back. -/
def putBack (l : List (Fld × Nat)) : M Unit := forAll l fun x => setFld x.1 x.2

/-- All of a register. -/
abbrev wholeReg (a : Nat) : Fld := ⟨a, 31, 0⟩

/-! ### On-chip flash at a reset (R289–R291) -/

/-- A 16-B unit is left with undefined contents, uncorrectable perhaps (R281, R291). -/
def spoilUnit (a : Nat) : M Unit := do
  let l ← freeBytes 16
  let k ← freeNat
  putBytes a l
  if k % 2 = 0 then modDev fun d => { d with eccBad := a :: d.eccBad }

/-- How an erase stands: FLASHC_STAT.STATE as it is, or as it was before the PROGRAM that runs beside a suspended erase. -/
def State.eraseState (s : State) : Nat :=
  if s.fld FLASHC_STAT_STATE = 3 then (match s.dev.flash.prog with | some p => p.was | none => 0) else s.fld FLASHC_STAT_STATE

/-- Is an address in the 16-B unit of flash that a PROGRAM under way is to write next? -/
def State.progMem (s : State) (x : Nat) : Bool :=
  match s.dev.flash.prog with
  | some p => !p.ended && decide (0x01000000 ≤ x ∧ x < 0x01400000) && decide (p.dst + 16 * p.done ≤ x ∧ x < p.dst + 16 * p.done + 16)
  | none => false

/-- A PROGRAM is cut off: the unit it was to write is left erased, programmed or uncorrectable (R291). -/
def progCut : M Unit := do
  let s ← getS
  match s.dev.flash.prog with
  | none => nop
  | some p =>
    if !p.ended then
      let k ← freeNat
      let a := p.dst + 16 * p.done
      if s.progMem a && s.progMem (a + 15) then
        if k % 3 = 1 then putBytes a (s.bytes (p.src + 16 * p.done) 16) else if k % 3 = 2 then spoilUnit a
      setFld FLASHC_STAT_STATE p.was
      modFlash fun f => { f with prog := some { p with ended := true } }

/-! ### The Stroke core (R241) -/

/-- The core's state after a reset of its cluster: the general registers, XPC, XST, XCAUSE and FADDR are undefined. -/
def coreReset : M Unit := do
  modCore fun c => { g := [], pc := 0, st := 0x801, xpc := 0, xst := 0, vbase := 0, xcause := 0, faddr := 0, cycle := c.cycle
                     slot := none, run := .run, icache := [] }
  progCut
  modFlash fun f => { f with prog := none }
  forAll (List.range 16) fun r => do
    let v ← freeWord
    setG r v
  let a ← freeWord
  let b ← freeWord
  let c ← freeWord
  let d ← freeWord
  modCore fun x => { x with xpc := a, xst := b, xcause := c, faddr := d }
  modIntc fun _ => {}
  modDev fun d => { d with mon := {} }

/-! ### Cluster reset (R17) -/

/-- An erase that runs or is suspended ends with its unit torn (R289, R290), a PROGRAM as it stands. -/
def flashTear : M Unit := do
  progCut
  let s ← getS
  let st := s.fld FLASHC_STAT_STATE
  if st = 1 ∨ st = 2 then
    modFlash fun f => { f with units := Sparse.upd {} f.units (s.fld FLASHC_STAT_UNIT) fun u =>
                                 { u with torn := true, reached := s.fld FLASHC_STAT_PULSES } }
  match s.dev.flash.owed with
  | some o =>
    modFlash fun f => { f with units := Sparse.upd {} f.units o.1 fun u => { u with torn := true, reached := o.2.2 } }
  | none => nop
  modFlash fun f => { f with orphan := false, owed := none }

/-- The fields of a page that a cluster reset leaves as they are: locked ones (R17), records of memory kept (R17), and
what other hardware drives or OTP gives (R33, R61, R413). -/
def State.clusterKeeps (s : State) (p : Nat) : List Fld :=
  if p = sysPage then
    [wholeReg SYS_RSTCAUSE, wholeReg SYS_LIFECYCLE, SYS_BOOTINFO_FAILS]
      ++ (if s.bit SYS_WDOGCFG_LOCK then [wholeReg SYS_WDOGCFG] else [])
  else if p = flashcPage then
    (if s.bit FLASHC_IMG_VALID then [wholeReg FLASHC_IMG, wholeReg FLASHC_IMGFIRST] else [])
  else if p = lumPage then [wholeReg LUM_MCNT]
  else if p = adcPage then [wholeReg ADC_TCAL]
  else if p = linkPage then [LINK_STAT_UCODE_OK]
  else if p = ntimePage then [NTIME_TRIM_TRIM, NTIME_STAT_SYNC, NTIME_STAT_CVALID]
  else if p = pwrPage then [wholeReg PWR_PATH, PWR_CLKSTAT_LFOK, PWR_STAT_PADHOLD]
  else if p = riggerPage then
    [wholeReg (RIGGER_LOCK 0), wholeReg (RIGGER_LOCK 1)]
      ++ ((List.range 64).filter s.rigLocked).flatMap fun n =>
        [wholeReg (RIGGER_SRC n), wholeReg (RIGGER_TASK n), ⟨RIGGER_EN (n / 32), n % 32, n % 32⟩, ⟨RIGGER_STORM (n / 32), n % 32, n % 32⟩]
  else if p = govPage then
    [wholeReg (GOV_REC 0), wholeReg (GOV_REC 1), wholeReg (GOV_REC 2), wholeReg GOV_VCEIL, GOV_STAT_VINOK, GOV_STAT_DOOR]
      ++ (if s.fld GOV_STAT_STATE = govLockout ∨ s.fld GOV_STAT_STATE = govNorec then [GOV_STAT_STATE, GOV_STAT_DISCH] else [])
  else if p = logbPage then [LOGB_STAT_COUNT, LOGB_STAT_DROPPED]
  else if p = rctlPage then
    [RCTL_STAT_UCODE_OK, RCTL_STAT_LINKFAIL, RCTL_STAT_OWNER, RCTL_D2DERR_FAILED, wholeReg RCTL_TXLAT]
  else if p = rxfePage then [wholeReg RXFE_CAL]
  else if p = txpPage then
    (if s.bit TXP_CFG_LOCK then [TXP_CFG_PROFILE, TXP_CFG_LOCK] else [])
      ++ (List.range 4).flatMap fun q => (List.range 4).map fun w => wholeReg (TXP_PROF q w)
  else []

/-- The radio's units go idle at once, in SLEEP; a transmission in the air ends with a status. -/
def radioOff (st : Nat) : M Unit := do
  let _ ← cutAir st
  lanesOff dropRadio
  modRadio fun r => { r with walk := none, waiting := none, unlock := false }
  setLock false
  enterState radSleep
  setIdle

/-- What a cluster reset stops before the page's registers return to their reset values (R15, R17). -/
def clusterStop (p : Nat) : M Unit := do
  let s ← getS
  if p = sysPage then modDev fun d => { d with bowLoad := {}, sys := { d.sys with warned := false, wdLoad := 0, wdLeft := 0 } }
  else if p = intcPage then
    act (.regClear fun a => decide (0xE0000000 ≤ a) && decide (a < 0xE0002000))
    coreReset
    setFld ⟨SYS_RSTCAUSE, 5, 5⟩ 1
    setFld SYS_RSTCAUSE_LAST 5
    modDev fun d => { d with sys := { d.sys with phase := .rom, coreOnly := true } }
  else if p = dmaPage then modDev fun d => { d with dma := [] }
  else if p = flashcPage then flashTear
  else if p = xspiPage then
    modXspi fun _ => {}
    modDev fun d => { d with xseq := none }
  else if p = hostpPage then modDev fun d => { d with hostp := {} }
  else if p = uartPage 0 ∨ p = uartPage 1 ∨ p = uartPage 2 then
    modDev fun d => { d with uart := Sparse.set (fun _ => {}) d.uart ((p - uartPage 0) / 0x1000) {} }
  else if p = gpioPage then modRigger fun r => { r with gpo := 0 }
  else if p = adcPage then modDev fun d => { d with adc := {} }
  else if p = stimPage then modDev fun d => { d with st := [] }
  else if p = ltimPage then modDev fun d => { d with lt := [] }
  else if p = daliPage then modDev fun d => { d with dali := {} }
  else if p = lumPage then endPulse true
  else if p = tallyPage then
    tallyReset
    tallyBufClear
  else if p = statsPage then statsClear
  else if p = otpcPage then modDev fun d => { d with otpc := none }
  else if p = linkPage then
    setMode 0
    cancelAll stAborted
    modDev fun d => { d with tx := { nextId := d.tx.nextId, seed := d.tx.seed, jobs := d.tx.jobs }, coxLoad := {} }
  else if p = lanesPage then lanesCtrl false
  else if ciphPage 0 ≤ p ∧ p ≤ ciphPage 7 then
    if p = ciphPage 0 then
      let _ ← checksStop stState
    clearCiph ((p - ciphPage 0) / 0x1000)
  else if p = riggerPage then
    modRigger fun r => { r with ch := Sparse.drop (fun n => !s.rigLocked n) r.ch, held := r.held.filter s.rigLocked }
  else if p = govPage then endPulse true
  else if p = sampPage then sampCtrl false
  else if p = rctlPage then radioOff stInternal
  else if p = synthPage then
    if 2 ≤ s.radio ∨ s.dev.radio.walk.isSome then radioCut radStby none
  else if p = txpPage then
    let was ← cutAir stState
    if was then txReturn

/-- What stands in a page after its registers have returned to their reset values: fields other hardware drives. -/
def clusterShow (p : Nat) : M Unit := do
  let s ← getS
  if p = linkPage then setJobs s.jobs
  else if p = lumPage ∨ p = govPage then setRlyBusy (s.dev.gov.pulse.isSome || s.dev.gov.interval)
  else if p = pwrPage then setFld PWR_CLKSTAT_XOOK (b2n (s.radio != radSleep && s.dev.pwr.xoOk))
  else if p = rctlPage then setIdle
  else if p = sampPage then setFld SAMP_STAT_WIN s.dev.samp.shown
  else if p = filtPage then showExt
  else if p = rxfePage then setFld RXFE_GAIN_FROZEN (s.fld LANES_STAT_FROZEN)

/-- A cluster reset of a page (R17): the registers of the page but for locked ones, its units, its counts, the tasks pending at
it (R324). The RTC
domain's own registers lie outside the reset chain (R33, R34). -/
def clusterReset (p : Nat) : M Unit := do
  let was := (← getS).sampOn
  clusterStop p
  modRigger fun r => { r with pend := r.pend.filter fun x => taskPage x.1 != some p }
  let s ← getS
  let kept := s.keep (s.clusterKeeps p)
  clearPages fun a => decide (pageOf a = p) && (p != rtcPage || decide (a < rtcPage + 0x100))
  putBack kept
  clusterShow p
  if p = ntimePage then sampFollow was
  modDev fun d => { d with resetting := p :: d.resetting.filter (· != p) }

/-- Is the page one with a header and a reset of its own? -/
def isCluster (p : Nat) : Bool := (pageRows p).isSome && hasHeader p

/-- CLUSTER_RESET (R17): CTRL.CRST written 1; a page without power takes no access (R20). -/
def execClusterReset (page : Nat) (s : State) : Host.Outcome State Fault Refusal := cmd s do
  if isCluster page then
    if s.powered page then clusterReset page else setFlt sysPage fltState

/-- CLUSTER_RESET_COMPLETE (R17): RSTBUSY reads 0 again. -/
def execClusterResetComplete (page : Nat) (s : State) : Host.Outcome State Fault Refusal := cmd s do
  modDev fun d => { d with resetting := d.resetting.filter (· != page) }

/-! ### Link-region and radio-die resets (R23, R27) -/

/-- The completions of the host port's frames that have not completed (R23): those the link controller has taken, then
those that wait. -/
def State.hostAborts (s : State) : List (List Byte) :=
  ((s.jobs.filter fun j => j.kind == .host) ++ s.dev.hostp.tx.map (jobOf true 0)).map fun j =>
    completionOf { j with secured := false } stAborted

/-- A link-region reset (R23). GAIN_FREEZE, which leaves the region, is clamped inactive (R20). A test carrier is the firmware's
and runs in the radio region: none of R518's ends, it goes on. -/
def linkRegionReset : M Unit := do
  let s ← getS
  if s.linkClock then carryMake
  let carrier := s.jobs.filter fun j => j.kind == .carrier
  if carrier = [] then setTxActive false
  let notes := s.hostAborts
  modDev fun d =>
    { d with lanes := [], gain := {}, tx := { jobs := carrier, nextId := d.tx.nextId }, ciph := [], flood := {}, cells := [], coxLoad := {}
             keys := Sparse.drop (fun i => decide (8 ≤ i)) d.keys
             hostp := { d.hostp with tx := [], rx := [], mgmt := [], txdone := d.hostp.txdone ++ notes, slot := 0 } }
  setFld RCTL_STAT_OWNER 0
  setBlank false
  setFld RXFE_GAIN_FROZEN 0
  if s.fld LINK_STAT_MODE ≠ 0 then
    if s.radio ≠ radSleep ∨ s.dev.radio.walk.isSome then radioCut radStby none
  clearPages inLink
  showIdentity
  act (.memClear fun a => decide (0x21000000 ≤ a) && decide (a < 0x21020000))
  act (.tabClear .peer fun _ => true)
  act (.tabClear .seen fun _ => true)
  act (.tabClear .cox fun _ => true)
  sampStop
  modTime fun t => { t with ntime := 0, frac := 0, calLink := 0, calLf := 0, restore := t.carry.isSome }
  let t ← getS
  setFld NTIME_STAT_CVALID (b2n t.dev.time.carry.isSome)

/-- LINK_REGION_RESET (R22, R23). -/
def execLinkRegionReset (s : State) : Host.Outcome State Fault Refusal := cmd s linkRegionReset

/-- A radio-die reset (R27): the radio is left in SLEEP, the profiles and the locked selection are reloaded (R61). -/
def radioDieReset : M Unit := do
  let s ← getS
  radioOff stInternal
  modRadio fun r => { r with word := 0, bowDead := false, d2dErrs := [], back := radSyn, cache := [], busFail := false }
  modDev fun d => { d with gain := {}, bowLoad := {} }
  let own := s.fld RCTL_STAT_OWNER
  clearPages inRadio
  setFld RCTL_STAT_OWNER own
  act (.tabClear .bow fun _ => true)
  loadProfiles
  showIdentity
  enterState radSleep
  setIdle

/-- RADIO_DIE_RESET (R22, R27). -/
def execRadioDieReset (s : State) : Host.Outcome State Fault Refusal := cmd s radioDieReset

/-! ### Start, package and power-on resets (R32, R33, R413) -/

/-- The configuration and counts of the main-region Rigger channels that are not locked (R33, R347). -/
def State.rigLoses (s : State) (a : Nat) : Bool :=
  (List.range 48).any fun k => !s.rigLocked (k + 16) && rigRegs (k + 16) a

/-- The main region's live state goes; the AO region's stays. -/
def mainClear : M Unit := do
  let s ← getS
  let lost (n : Nat) : Bool := decide (16 ≤ n) && !s.rigLocked n
  let fails := s.dev.sys.fails
  endPulse true
  flashTear
  let kept := s.keep [wholeReg SYS_RSTCAUSE, wholeReg LUM_MCNT]
  clearPages fun a => inMain a || inPrivate a
  putBack kept
  setFld SYS_BOOTINFO_FAILS (min 3 fails)
  act (.regClear s.rigLoses)
  forAll ((List.range 64).filter lost) fun n => do
    setRigOn n false
    setFld ⟨RIGGER_STORM (n / 32), n % 32, n % 32⟩ 0
  modDev fun d =>
    { d with xspi := {}, xseq := none, dma := [], st := [], lt := [], dali := {}, uart := [], adc := {}, tally := {}
             otpc := none, hostp := {}
             rigger := { d.rigger with ch := Sparse.drop lost d.rigger.ch, held := [], gpo := 0, taken := []
                                       pend := d.rigger.pend.filter fun x =>
                                         decide (x.2 < 16) && (match taskPage x.1 with | some p => inAo p || p == rtcPage | none => false) }
             sys := { d.sys with phase := .rom, warned := false, wdLoad := 0, wdLeft := 0, coreOnly := false }
             pwr := { d.pwr with state := .run, entry := .none, toEasy := false, wake := 0 } }
  let t ← getS
  setRlyBusy t.dev.gov.interval
  statsClear
  coreReset
  showIdentity
  showLifecycle
  loadKeys

/-- The clocks return to HFRC (R378, R389). -/
def clocksDefault : M Unit := do
  setFld PWR_CLKREQ_PLLEN 0
  setFld PWR_CLKREQ_XOREQ 0
  setFld PWR_CLKSEL_SRC 0
  setFld PWR_CLKSTAT_SRC 0
  setFld PWR_CLKSTAT_PLLLOCK 0
  setFld PWR_CLKSTAT_XOOK 0
  modPwr fun p => { p with xoOk := false }

/-- SYS_RSTCAUSE after a start reset with a cause, whose bit has the number of its LAST code (R413). -/
def rstCause (cause : Nat) : M Unit := do
  setFld ⟨SYS_RSTCAUSE, cause, cause⟩ 1
  setFld SYS_RSTCAUSE_LAST cause

/-- The causes of SYS_RSTCAUSE.LAST. -/
abbrev rstPor : Nat := 0
abbrev rstPin : Nat := 1
abbrev rstWdog : Nat := 2
abbrev rstSoft : Nat := 3
abbrev rstWake : Nat := 4
abbrev rstAbort : Nat := 5
abbrev rstLockup : Nat := 6

/-- A start reset (R32, R33): the main, link and radio regions; main SRAM is not cleared. -/
def startReset (cause : Nat) : M Unit := do
  linkRegionReset
  radioDieReset
  mainClear
  clocksDefault
  rstCause cause

/-- A start reset by request, and who asked (R413): 0 SYS_SWRST, 1 the host port, 2 network-wide, 3 a commit. -/
def softReset (src : Nat) : M Unit := do
  startReset rstSoft
  setFld SYS_RSTCAUSE_SOFTSRC src

/-- The AO region's configuration goes (R33); the staging buffer, the lockout, the LF crystal and the supplies' state
stay. -/
def aoClear : M Unit := do
  let s ← getS
  let lockout := s.fld GOV_STAT_STATE = govLockout
  let kept := s.keep ([LOGB_STAT_COUNT, LOGB_STAT_DROPPED, PWR_CLKSTAT_LFOK, wholeReg PWR_PATH, GOV_STAT_VINOK, GOV_STAT_DOOR]
    ++ if lockout then [GOV_STAT_STATE, GOV_STAT_DISCH] else [])
  clearPages inAo
  putBack kept
  wr LUM_MCNT 0
  modDev fun d =>
    { d with rigger := { gpo := d.rigger.gpo }, duty := {}, samp := {}, pads := none
             gov := { interval := d.gov.interval }
             radio := { d.radio with profLatch := none }
             time := { d.time with carry := none, restore := false }
             sys := { d.sys with aoMark := none } }
  let t ← getS
  setRlyBusy t.dev.gov.interval
  setFld NTIME_STAT_CVALID 0
  loadIdentity
  showIdentity
  loadGov
  wr TXP_CFG (resetWord TXP_CFG)

/-- Every SRAM bank powers up and clears itself (R273, R33). -/
def sramPowerUp (banks : Nat) : M Unit := do
  let hit (a : Nat) : Bool :=
    decide (0x20000000 ≤ a) && decide (a < 0x20080000) && bitOf banks ((a - 0x20000000) / 0x10000)
  act (.memClear hit)
  eccForget hit
  modPwr fun p => { p with clearing := p.clearing ||| banks }

/-- A package reset (R28, R33, R413). -/
def packageReset : M Unit := do
  linkRegionReset
  radioDieReset
  mainClear
  clocksDefault
  aoClear
  sramPowerUp 0xFF
  wr SYS_RSTCAUSE 0
  rstCause rstPin

/-- PACKAGE_RESET (R28). -/
def execPackageReset (s : State) : Host.Outcome State Fault Refusal := cmd s packageReset

/-- A power-on reset (R28, R33): the whole AO region besides. The RTC domain lies outside (R34). -/
def powerOnReset : M Unit := do
  setFld GOV_STAT_STATE 0
  linkRegionReset
  radioDieReset
  mainClear
  clocksDefault
  modDev fun d =>
    { d with staged := [], time := { d.time with ao := 0 }, gov := {}
             supply := { d.supply with vsys := max 2600 d.supply.vsys, vaon := max 2600 d.supply.vaon }
             sys := { d.sys with fails := 0 }
             pwr := { d.pwr with token := false } }
  aoClear
  modHeat fun _ => {}
  setFld LOGB_STAT_COUNT 0
  setFld LOGB_STAT_DROPPED 0
  setFld PWR_CLKSTAT_LFOK 0
  setFld SYS_BOOTINFO_FAILS 0
  sramPowerUp 0xFF
  wr SYS_RSTCAUSE 0
  rstCause rstPor

/-- POWER_ON_RESET (R28). -/
def execPowerOnReset (s : State) : Host.Outcome State Fault Refusal := cmd s powerOnReset

/-! ### What the hardware resets for -/

/-- A lockup (R260): its record is staged, then the start reset. -/
def lockup : M Unit := do
  let s ← getS
  stage 0x06 true stInternal (s.reg intcPage).toNat
    ([s.core.pc, s.core.xpc, s.core.xst, s.core.xcause, s.core.faddr].flatMap fun w => leBytes 4 w.toNat)
  startReset rstLockup

end Sys2Proof.Machine
end

