-- ==== Sys2Proof/Machine/Power.lean ====
section
/-!
DEFINITION. Power states, their entry and the wakes, clocks, pad hold, clock gates and SRAM banks (R18, R21, R273,
R370–R381).
-/
namespace Sys2Proof.Machine
open Sys2Proof.Reg

/-! ### Clocks (R378–R381) -/

/-- XO40 runs (R380); in REST only the radio keeps it (R379). -/
def State.xoRuns (s : State) : Bool :=
  s.radio != radSleep || s.dev.radio.walk.isSome
    || (s.dev.pwr.state != .rest && s.dev.pwr.state != .easy && (s.bit PWR_CLKREQ_XOREQ || s.bit PWR_CLKSTAT_SRC))

/-- PWR_CLKSTAT.XOOK and PLLLOCK as they read: XO40 stable while it runs, the PLL locked while it runs. -/
def State.xoOk (s : State) : Bool := s.xoRuns && s.bit PWR_CLKSTAT_XOOK
def State.pllOk (s : State) : Bool := s.xoOk && s.bit PWR_CLKREQ_PLLEN && s.bit PWR_CLKSTAT_PLLLOCK

/-- The core and bus move to HFRC. -/
def toHfrc : M Unit := do
  setFld PWR_CLKSEL_SRC 0
  setFld PWR_CLKSTAT_SRC 0

/-- XO_STABLE (R379). -/
def execXoStable (s : State) : Host.Outcome State Fault Refusal := cmd s do
  if s.xoRuns then
    setFld PWR_CLKSTAT_XOOK 1
    modPwr fun p => { p with xoOk := true }

/-- PLL_LOCK (R379). -/
def execPllLock (s : State) : Host.Outcome State Fault Refusal := cmd s do
  if s.bit PWR_CLKREQ_PLLEN ∧ s.xoOk then setFld PWR_CLKSTAT_PLLLOCK 1

/-- PWR_CLKREQ written: a PLL no longer asked for loses its lock, and what ran on it moves to HFRC (log entry 61). -/
def clkReqWrite (v : Word) : M Unit := do
  wr PWR_CLKREQ v
  if !bitOf v.toNat 1 then
    setFld PWR_CLKSTAT_PLLLOCK 0
    toHfrc
  let s ← getS
  if !s.xoRuns then setFld PWR_CLKSTAT_XOOK 0

/-- PWR_CLKSEL written (R379): the PLL without lock is refused. -/
def clkSelWrite (v : Word) : M Unit := do
  let s ← getS
  if bitOf v.toNat 8 && !s.pllOk then setFlt pwrPage fltState
  else
    wr PWR_CLKSEL v
    setFld PWR_CLKSTAT_SRC (b2n (bitOf v.toNat 8))

/-- CLOCK_SELECT (R379). -/
def execClockSelect (v : Word) (s : State) : Host.Outcome State Fault Refusal := cmd s (clkSelWrite v)

/-- A CLKFAIL record (R466). -/
def stageClkFail : M Unit := do
  let s ← getS
  stage 0x09 true stInternal (s.reg pwrPage).toNat (leBytes 4 (s.reg PWR_CLKSTAT).toNat)

/-- XO40 stops (R380). -/
def execXoFail (s : State) : Host.Outcome State Fault Refusal := cmd s do
  setFld PWR_CLKSTAT_XOOK 0
  setFld PWR_CLKSTAT_PLLLOCK 0
  modPwr fun p => { p with xoOk := false }
  if s.bit PWR_CLKSTAT_SRC then
    toHfrc
    setFld PWR_CLKSTAT_XOFAIL 1
    pulse 52
    stageClkFail

/-- LF_CRYSTAL_OK: 1,024 stable cycles (R381). -/
def execLfCrystalOk (_s : State) : Host.Outcome State Fault Refusal := cmd _s (setFld PWR_CLKSTAT_LFOK 1)

/-- LF_CRYSTAL_FAIL (R381). -/
def execLfCrystalFail (s : State) : Host.Outcome State Fault Refusal := cmd s do
  if s.bit PWR_CLKSTAT_LFOK then
    setFld PWR_CLKSTAT_LFOK 0
    setFld PWR_CLKSTAT_LFFAIL 1
    stageClkFail

/-! ### Pads and banks (R21, R273, R377) -/

/-- The main-region pads are latched (R21, R377). -/
def padsLatch : M Unit := do
  let s ← getS
  let out := (List.range 36).foldl (fun a n => if s.gpDrive n == some true then bitSet a n else a) 0
  let dir := (List.range 36).foldl (fun a n => if (s.gpDrive n).isSome then bitSet a n else a) 0
  match s.dev.pads with
  | some _ => nop
  | none => modDev fun d => { d with pads := some { out := out, dir := dir, dim := s.dimPwm, dali := s.daliTx } }
  setFld PWR_STAT_PADHOLD 1

/-- The hold is released (R377). -/
def padsRelease : M Unit := do
  modDev fun d => { d with pads := none }
  setFld PWR_STAT_PADHOLD 0

/-- PAD_RELEASE (R377). -/
def execPadRelease (s : State) : Host.Outcome State Fault Refusal := cmd s padsRelease

/-- SRAM_BANK_CLEAR_DONE (R273). -/
def execSramBankClearDone (b : Fin 8) (s : State) : Host.Outcome State Fault Refusal :=
  cmd s (modPwr fun p => { p with clearing := bitClr p.clearing b })

/-! ### Clock gates (R18) -/

/-- Does a cluster have a unit at work? -/
def State.pageBusy (s : State) (p : Nat) : Bool :=
  if p = sysPage then s.bit SYS_WDOGSTAT_RUN
  else if p = intcPage then s.core.run == .run
  else if p = dmaPage then s.fld DMA_EN_EN != 0
  else if p = flashcPage then s.fld FLASHC_STAT_STATE == 1 || s.fld FLASHC_STAT_STATE == 3
  else if p = xspiPage then s.bit XSPI_STAT_BUSY || s.bit XSPI_STAT_POLLING
  else if p = uartPage 0 then !(s.uart 0).tx.isEmpty
  else if p = uartPage 1 then !(s.uart 1).tx.isEmpty
  else if p = uartPage 2 then !(s.uart 2).tx.isEmpty
  else if p = i2cPage 0 then s.bit (I2C_STAT_BUSY 0)
  else if p = i2cPage 1 then s.bit (I2C_STAT_BUSY 1)
  else if p = adcPage then s.bit ADC_STAT_BUSY
  else if p = stimPage then s.fld STIM_EN_EN != 0
  else if p = ltimPage then s.fld LTIM_EN_EN != 0
  else if p = daliPage then s.dev.dali.phase != .idle
  else if p = lumPage then s.bit LUM_METER_EN || s.dev.gov.pulse.isSome
  else if p = hostpPage then s.dev.hostp.app.isSome || s.fld HOSTP_STAT_ENGINE != 0
  else if p = tallyPage then s.bit TALLY_STAT_BUSY
  else if p = otpcPage then s.bit OTPC_STAT_BUSY
  else if p = linkPage then !s.jobs.isEmpty
  else if p = lanesPage then s.fld LANES_STAT_STATE != 0
  else if p = ntimePage then s.en p
  else if ciphPage 0 ≤ p ∧ p ≤ ciphPage 7 then s.bit (CIPH_RESULT_BUSY ((p - ciphPage 0) / 0x1000))
  else if p = riggerPage then s.fld (RIGGER_EN_EN 0) + s.fld (RIGGER_EN_EN 1) != 0
  else if p = govPage then s.bit GOV_STAT_DISCH || s.dev.gov.pulse.isSome
  else if p = sampPage then s.fld SAMP_STAT_WIN != 0
  else if p = rtcPage then s.en p
  else if p = rctlPage ∨ p = synthPage ∨ p = rxfePage ∨ p = txpPage then s.radio != radSleep
  else false

/-- CLOCK_GATE_CLOSE (R18): only where every unit is idle and CLKHOLD does not keep the gate open (R303). -/
def execClockGateClose (page : Nat) (s : State) : Host.Outcome State Fault Refusal := cmd s do
  if !s.pageBusy page && !s.bit (CTRL_CLKHOLD page) then
    modDev fun d => { d with gates := d.gates.filter (· != page) }

/-! ### Entry (R370–R373) -/

/-- The LINK wake source: one of its lines asserted and enabled (R376). -/
def State.linkWake (s : State) : Bool := [36, 35, 41, 42, 55, 59].any fun n => s.linePending n

/-- Which of the sources given, those noted since the entry began and LINK are enabled; LINK is none on the way to EASY
(R376). -/
def State.wakeNow (s : State) (src : Nat) : Nat :=
  let all := src ||| s.dev.pwr.wake ||| (if s.linkWake then 2 else 0)
  (if s.dev.pwr.toEasy then all &&& 0x3FFD else all) &&& s.fld PWR_WAKEEN_EN

/-- An entry is abandoned at a point (R373). -/
def abandon (point : Nat) : M Unit := do
  setFld PWR_STAT_ABANDON 1
  setFld PWR_STAT_ABPT point
  count pwrPage 0x02 2
  modPwr fun p => { p with entry := .none, wake := 0 }
  modCore fun c => { c with run := .run }

/-- The conditions under which an entry is refused (R371). -/
def State.entryRefused (s : State) (easy : Bool) : Bool :=
  let f := s.fld FLASHC_STAT_STATE
  f == 1 || f == 3 || (easy && f == 2) || s.bit RCTL_STAT_TXACT || s.fld DMA_EN_EN != 0 || s.bit XSPI_STAT_BUSY

/-- WAIT 1 (R371–R373): `a1` and `a2` are the wake sources active when the points are sampled. -/
def lowPower (a1 a2 : Nat) : M Unit := do
  let s ← getS
  let easy := s.bit PWR_SLEEPCFG_TARGET
  if s.entryRefused easy then
    setFld PWR_STAT_RESULT stState
    setFlt pwrPage fltState
    count pwrPage 0x02 3
  else
    setFld PWR_STAT_RESULT stOk
    modPwr fun p => { p with toEasy := easy, wake := 0, latched := easy && s.dev.pads.isNone }
    daliRelease
    endPulse true
    let s ← getS
    if s.wakeNow a1 ≠ 0 then abandon 1
    else if s.wakeNow a2 ≠ 0 then abandon 2
    else
      if easy then padsLatch
      modPwr fun p => { p with entry := .stopped }
      modCore fun c => { c with run := .lowPower }

/-- ENTRY_LF_EDGE (R372, R373): the carry is recorded, the link clock stops, the radio goes to SLEEP unless a window
holds it; `wake` are the sources active when A3 is sampled. -/
def execEntryLfEdge (wake : BitVec 14) (s : State) : Host.Outcome State Fault Refusal := cmd s do
  if s.dev.pwr.entry = .stopped then
    carryMake
    if !s.dev.samp.holds then
      if s.radio ≠ radSleep ∨ s.dev.radio.walk.isSome then radioCut radSleep none
      lanesOff dropRadio
    if s.wakeNow wake.toNat ≠ 0 then
      if !s.dev.samp.holds ∧ s.radio ≠ radSleep ∧ s.radio ≠ radTx then
        modRadio fun r => { r with waiting := some { goal := s.radio, link := s.bit RCTL_STAT_OWNER, at_ := s.dev.time.link } }
      if !s.dev.samp.holds then modTime fun t => { t with restore := true }
      if s.dev.pwr.latched then padsRelease
      abandon 3
    else modPwr fun p => { p with entry := .edge }

/-- The banks REST does not keep, bit b (R370, R384). -/
def State.unretained (s : State) : Nat := 0xFF - s.fld PWR_SLEEPCFG_RETAIN

/-- ENTRY_COMPLETE (R372): in EASY the main, link and radio regions lose their power. -/
def execEntryComplete (s : State) : Host.Outcome State Fault Refusal := cmd s do
  if s.dev.pwr.entry = .edge then
    toHfrc
    setFld PWR_CLKSTAT_PLLLOCK 0
    if s.radio = radSleep ∨ s.dev.pwr.toEasy then setFld PWR_CLKSTAT_XOOK 0
    if s.dev.pwr.toEasy then
      modPwr fun p => { p with state := .easy }
      linkRegionReset
      radioDieReset
      mainClear
      modPwr fun p => { p with state := .easy, wake := s.dev.pwr.wake }
      setFld PWR_STAT_LAST 3
      count pwrPage 0x02 1
    else
      modPwr fun p => { p with state := .rest, entry := .none }
      setFld PWR_STAT_LAST 2
      count pwrPage 0x02 0
    modCore fun c => { c with run := .lowPower }

/-! ### Wakes (R374–R376) -/

/-- A wake from REST by sources of which one at least is enabled (R374, R376). -/
def wakeRest (src : Nat) : M Unit := do
  let s ← getS
  if s.dev.pwr.state = .rest ∧ s.wakeNow src ≠ 0 then
    wr PWR_WAKESRC (BitVec.ofNat 32 (s.wakeNow src))
    toHfrc
    modPwr fun p => { p with state := .run, wake := 0 }
    modCore fun c => { c with run := .run }
    sramPowerUp s.unretained
    if !s.linkClock then clockStart
    rigRelease

/-- WAKE_FROM_REST (R374, R376). -/
def execWakeFromRest (src : BitVec 14) (s : State) : Host.Outcome State Fault Refusal := cmd s (wakeRest src.toNat)

/-- WAKE_FROM_EASY (R375, R376): a start reset; the banks power up. A transaction on HS_CS_N that woke the device is not
received (R376, R447). LINK does not wake from EASY. -/
def execWakeFromEasy (src : BitVec 14) (s : State) : Host.Outcome State Fault Refusal := cmd s do
  let now := bitClr ((src.toNat ||| s.dev.pwr.wake) &&& s.fld PWR_WAKEEN_EN) 1
  if s.dev.pwr.state = .easy ∧ now ≠ 0 then
    startReset rstWake
    sramPowerUp 0xFF
    wr PWR_WAKESRC (BitVec.ofNat 32 now)
    if bitOf now 11 then
      wr SPIH_EVT (s.reg SPIH_EVT ||| 16)
      count spihPage 0x02 1

end Sys2Proof.Machine
end

