-- ==== Sys2Proof/Machine/Mail.lean ====
section
/-!
DEFINITION. Mailboxes: which items each page has, the words of a snapshot, and how one is taken (R70, R72, R96, R157, R161,
R185, R187, R207, R237, R306, R315, R348, R351, R353, R385, R387, R445, R449, R478, R481).
-/
namespace Sys2Proof.Machine
open Sys2Proof.Reg

/-- The four words of an item kept as counts. -/
def State.ctrWords (s : State) (page item : Nat) : List Nat := (List.range 4).map (s.ctr page item)

/-- The item number's offset from a base, where it lies among n. -/
def itemAt (item base n : Nat) : Option Nat := if base ≤ item ∧ item < base + n then some (item - base) else none

/-- SYNTH (R70): entry e of the cache is the e-th newest (log entry 34). -/
def State.mbxSynth (s : State) (item : Nat) : Option (List Nat) :=
  match itemAt item 0x10 16 with
  | none => none
  | some e =>
    match s.dev.radio.cache[e]? with
    | none => some [0, 0, 0, 0]
    | some c => some [c.word, c.code, unsigned 32 c.temp, 1 + 16 * e]

/-- TXP (R72). -/
def State.mbxTxp (s : State) (item : Nat) : Option (List Nat) :=
  let d := s.dev.duty
  if item = 0x01 then some [d.sum, d.residue, d.cur, s.dutyLimit]
  else (itemAt item 0x02 60).map fun k => [d.bucket k, (d.cur + 60 - k) % 60, 0, 0]

/-- LANES (R96): 16-bit counts in the halves of the words. -/
def State.mbxLanes (s : State) (item : Nat) : Option (List Nat) :=
  if item / 16 ∈ [1, 2, 3] ∧ item % 16 < 4 then
    some ((List.range 4).map fun w => s.ctr lanesPage item w + s.ctr lanesPage (item + 0x8000) w * 2 ^ 16)
  else none

/-- PEER (R161). -/
def State.mbxPeer (s : State) (item : Nat) : Option (List Nat) :=
  let ws (i : Nat) (l : List Nat) : List Nat := l.map fun w => (s.peerW i w).toNat
  match itemAt item 0x1000 0x1000, itemAt item 0x2000 0x1000, itemAt item 0x3000 0x1000 with
  | some i, _, _ => some (ws i [0, 1, 2, 3])
  | _, some i, _ => some (ws i [4, 5, 6, 7])
  | _, _, some i => some (ws i [0, 2, 6, 7])
  | _, _, _ => none

/-- FLOOD (R185). -/
def State.mbxFlood (s : State) (item : Nat) : Option (List Nat) :=
  if 1 ≤ item ∧ item ≤ 4 then some (s.ctrWords floodPage item)
  else (itemAt item 0x4000 8192).map fun e => [(s.seenTag e).toNat, (s.seenLow e).toNat, 0, 0]

/-- NTIME (R187). -/
def State.mbxNtime (s : State) (item : Nat) : Option (List Nat) :=
  if item = 0x01 then some [s.ntime, s.ntime / 2 ^ 32, s.dev.time.ao, s.fld NTIME_STAT_SYNC]
  else if item = 0x02 then
    let f := s.dev.flood
    some [f.tend, f.tend / 2 ^ 32, (s.reg NTIME_DELTA).toNat, f.hop % 2 ^ 16 + b2n f.ok * 2 ^ 16]
  else if item = 0x03 then
    match s.dev.time.carry with
    | some c => some [c.ntime, c.ntime / 2 ^ 32, c.ao, s.fld NTIME_STAT_CVALID]
    | none => some [0, 0, 0, s.fld NTIME_STAT_CVALID]
  else if item = 0x04 then some (s.ctrWords ntimePage 0x04)
  else none

/-- The LF tick of the next beacon window's opening, and its half-width g_b in µs (R201, R207). -/
def State.nextWindow (s : State) : Nat × Nat :=
  let e := s.bcnNext
  let g := s.bcnGuard (e - s.dev.samp.lastUpd)
  (s.dev.time.ao + (e - 40 * g - s.dev.time.now) * 64 / 78125, g)

/-- SAMP (R207). -/
def State.mbxSamp (s : State) (item : Nat) : Option (List Nat) :=
  if item = 0x01 then some [s.dev.samp.anchor.getD 0, s.sampNext, s.nextWindow.1, s.nextWindow.2]
  else if 2 ≤ item ∧ item ≤ 6 then some (s.ctrWords sampPage item)
  else none

/-- P0 (R237): the attributes of slot i; those of slots 0–3 are fixed, whether the slot is programmed or not. -/
def State.slotWords (s : State) (i : Nat) : List Nat :=
  let k := s.slot i
  let k := if i = 0 then { k with mask := 4, usage := 4, size := 1, label := 0 }
    else if i < 3 then { k with mask := 6, usage := 4, size := 1, label := 0 }
    else if i = 3 then { k with mask := 7, usage := 5, size := 0, label := 0 }
    else k
  [b2n k.valid * 2 ^ 31 + k.size * 2 ^ 11 + k.usage * 2 ^ 8 + k.mask, k.label, 0, 0]

def State.mbxCiph0 (s : State) (item : Nat) : Option (List Nat) :=
  if item = 1 ∨ item = 2 then some (s.ctrWords (ciphPage 0) item)
  else (itemAt item 0x100 64).map s.slotWords

/-- RIGGER (R348). -/
def State.mbxRigger (s : State) (item : Nat) : Option (List Nat) :=
  (itemAt item 0x10 64).map fun n =>
    let c := s.rig n
    [c.drop, c.fired, c.trips, b2n (s.rigLocked n) + 2 * b2n (s.rigOn n)]

/-- STATS (R478). -/
def State.mbxStats (s : State) (item : Nat) : Option (List Nat) :=
  match itemAt item 0x10 8, itemAt item 0x20 8 with
  | some j, _ => some ((List.range 4).map fun w => s.statShadow (4 * j + w))
  | _, some j => some ((List.range 4).map fun w => s.statLive (4 * j + w))
  | _, _ => none

/-- LOGB (R481). -/
def State.mbxLogb (s : State) (item : Nat) : Option (List Nat) :=
  (itemAt item 0x10 16).map fun k =>
    let r := s.dev.staged.getD (k / 4) []
    (List.range 4).map fun w => leNat (sliceOf r (16 * (k % 4) + 4 * w) 4)

/-- The words of a page's mailbox item; none where the cluster does not define the item (R306, R315). -/
def State.mbxItem (s : State) (page item : Nat) : Option (List Nat) :=
  if page = synthPage then s.mbxSynth item
  else if page = txpPage then s.mbxTxp item
  else if page = lanesPage then s.mbxLanes item
  else if page = linkPage then (itemAt item 1 4).map fun _ => s.ctrWords linkPage item
  else if page = peerPage then s.mbxPeer item
  else if page = floodPage then s.mbxFlood item
  else if page = ntimePage then s.mbxNtime item
  else if page = sampPage then s.mbxSamp item
  else if page = ciphPage 0 then s.mbxCiph0 item
  else if page = riggerPage then s.mbxRigger item
  else if page = ltimPage then
    if item = 1 then some [(s.reg (LTIM_COUNT 0)).toNat, (s.reg (LTIM_COUNT 1)).toNat, 0, s.fld LTIM_EN_EN] else none
  else if page = rtcPage then
    if item = 1 then some [(s.reg RTC_SECONDS).toNat, s.dev.rtc.prescaler, s.dev.time.ao, s.fld RTC_STAT_TIME_VALID]
    else none
  else if page = pwrPage then
    if item = 1 then some [s.dev.time.ao, s.dev.time.ao / 2 ^ 32 % 2 ^ 16, 0, s.fld PWR_CLKSTAT_LFOK]
    else if item = 2 then some (s.ctrWords pwrPage 2)
    else none
  else if page = govPage then (itemAt item 1 2).map fun _ => s.ctrWords govPage item
  else if page = hostpPage then (itemAt item 1 2).map fun _ => s.ctrWords hostpPage item
  else if page = spihPage then (itemAt item 1 2).map fun _ => s.ctrWords spihPage item
  else if page = statsPage then s.mbxStats item
  else if page = logbPage then s.mbxLogb item
  else none

/-- A write to MBX_SEL (R315): the old snapshot goes; an item the cluster does not have completes at once. -/
def mbxSelect (page : Nat) (v : Word) : M Unit := do
  let item := bitsGet v 15 0
  let s ← getS
  wr (MBX_SEL page) v
  forAll (List.range 4) fun k => wr (MBX_D page k) 0
  if (s.mbxItem page item).isSome then
    setFld ⟨MBX_STAT page, 1, 0⟩ 0
    modDev fun d => { d with mbx := Sparse.set (fun _ => 0x10000) d.mbx page item }
  else
    setFld ⟨MBX_STAT page, 1, 0⟩ 3
    setFld (MBX_STAT_ITEM page) item
    modDev fun d => { d with mbx := Sparse.set (fun _ => 0x10000) d.mbx page 0x10000 }

/-- The pending snapshot of a page crosses back (R315): words, item and VALID change together. -/
def mbxSnapshot (page : Nat) : M Unit := do
  let s ← getS
  let item := Sparse.val 0x10000 s.dev.mbx page
  if item < 0x10000 then
    let ws := (s.mbxItem page item).getD []
    forAll (List.range 4) fun k => wr (MBX_D page k) (BitVec.ofNat 32 (ws.getD k 0))
    setFld (MBX_STAT_ITEM page) item
    setFld ⟨MBX_STAT page, 1, 0⟩ 1
    modDev fun d => { d with mbx := Sparse.set (fun _ => 0x10000) d.mbx page 0x10000 }

/-- MAILBOX_SNAPSHOT (R315). -/
def execMailboxSnapshot (page : Nat) (s : State) : Host.Outcome State Fault Refusal := cmd s (mbxSnapshot page)

end Sys2Proof.Machine
end

