-- ==== Sys2Proof/Machine/Port.lean ====
section
/-!
DEFINITION. The host port's transports: frames, their queues and reply slots, management replies, the resets that follow
a reply, and the firmware's answer to APP (R419–R431, R436, R438).
-/
namespace Sys2Proof.Machine
open Sys2Proof.Reg

/-! ### Frames (R420, R421) -/

/-- A frame with its CRC (R420). -/
def hostFrame (code tag : Nat) (payload : List Byte) : List Byte :=
  let b := leBytes 1 code ++ leBytes 1 tag ++ leBytes 2 payload.length ++ payload
  b ++ leBytes 2 (crc16 0xFFFF b)

/-- A reply frame: the status, three zero octets, then the data (R420, R421). -/
def replyFrame (code tag st : Nat) (data : List Byte) : List Byte :=
  hostFrame (code + 0x80) tag (leBytes 1 st ++ [0, 0, 0] ++ data)

/-! ### Transports and their queues (R419, R423, R429) -/

def modHostp (f : Hostp → Hostp) : M Unit := modDev fun d => { d with hostp := f d.hostp }

/-- A transport's number: SPI 0, UART 1, mesh 2, as HOSTP_STAT.BUSY numbers them (R444). -/
def trNum : Tr → Nat
  | .spi => 0
  | .uart => 1
  | .mesh _ _ => 2

def State.port (s : State) (t : Nat) : Port :=
  match t with
  | 0 => s.dev.hostp.spi
  | 1 => s.dev.hostp.uart
  | _ => s.dev.hostp.mesh

def modPort (t : Nat) (f : Port → Port) : M Unit :=
  modHostp fun h => match t with
    | 0 => { h with spi := f h.spi }
    | 1 => { h with uart := f h.uart }
    | _ => { h with mesh := f h.mesh }

/-- A command becomes outstanding, or none is (R429, R444). -/
def setOut (t : Nat) (v : Option (Nat × Nat)) : M Unit := do
  modPort t fun p => { p with out := v }
  setFld ⟨HOSTP_STAT, 8 + t, 8 + t⟩ (b2n v.isSome)

/-- Is a transport enabled (R419, R444)? -/
def State.trOn (s : State) (t : Nat) : Bool :=
  match t with
  | 0 => s.bit HOSTP_CFG_SPIEN
  | 1 => s.bit HOSTP_CFG_UARTEN
  | _ => s.bit HOSTP_CFG_MESHEN

/-- The port's clocks run: the main region is neither in REST nor in EASY (R370). -/
def State.portAwake (s : State) : Bool := s.dev.pwr.state != .rest && s.dev.pwr.state != .easy

/-- The waiting note of a transport (R423; log entry 71): RX_NOTE first, then TXDONE with up to 16 completions. -/
def State.noteOf (s : State) (t : Nat) : Option (List Byte) :=
  if s.fld HOSTP_CFG_NOTE ≠ t + 1 ∨ 2 ≤ t then none
  else if s.dev.hostp.rxNote then some (hostFrame 0xE0 0 (leBytes 2 s.dev.hostp.rx.length))
  else if s.dev.hostp.txdone.isEmpty then none
  else some (hostFrame 0xE1 0 ((s.dev.hostp.txdone.take 16).flatMap id))

/-- The frames that wait at a transport, in the order the host receives them (R423). -/
def State.waiting (s : State) (t : Nat) : List (List Byte) :=
  let p := s.port t
  p.aborts ++ (p.reply.map fun r => r.frame).toList ++ p.refusal.toList ++ (s.noteOf t).toList

/-- The level of HS_IRQ_N: low while a frame waits for the SPI host (R424). -/
def State.hsIrqN (s : State) : Bool := !s.bit HOSTP_CFG_SPIEN || (s.waiting 0).isEmpty

/-! ### Management replies (R428) -/

/-- Room for a management reply's frame: cells of the HOST pool, of which the mesh's own frames are made. -/
def meshJob (s : State) (lane : Nat) (cells : List Nat) (octets : List Byte) : TxJob :=
  { kind := .mgmt, lane := lane, octets := octets, cells := cells, ar := true, retries := 3, fcs2 := false
    pre0 := s.ackPre, pre := s.ackPre, pwr := s.fld LINK_ACKCFG_ACKPWR, hidx := s.fld (LANES_MODE_HIDX lane)
    mcs := lowMcs (s.fld (LANES_MODE_OPT lane)), secured := true }

/-- The frame that answers a management frame (R428; log entry 74): a data frame to its source with the request's version,
security level and key identifier, the node's short address as source. Room is left for the MIC (log entry 29). -/
def State.meshFrame (s : State) (m : Mac) (dsn : Nat) (payload : List Byte) : List Byte :=
  let (mode, addr) := match m.src with
    | .short a => (2, leBytes 2 a)
    | .ext a => (3, leBytes 8 a)
    | .none => (0, [])
  let fc := 1 + 8 + 32 + 64 + mode * 1024 + m.ver * 4096 + 2 * 16384
  leBytes 2 fc ++ leBytes 1 dsn ++ leBytes 2 ((m.dpan <|> m.span).getD (s.fld FILT_ADDR_PAN)) ++ addr
    ++ leBytes 2 (s.fld FILT_ADDR_SHORT) ++ leBytes 1 (m.ctl % 32) ++ leBytes 4 0 ++ m.ksrc
    ++ (if m.kim = 0 then [] else leBytes 1 m.kidx) ++ payload ++ List.replicate (micLen m.level) 0

/-- Is a management frame answered: a unicast, not a flood, from a source that can be named (R428)? -/
def State.meshAnswers (s : State) (hdr : List Byte) : Bool :=
  let m := parseMac hdr
  (floodIe hdr m).isNone && s.dstOwn m.dst && m.src != .none

/-- A refusal or a note is lost (R423, R445). -/
def noteDropped (t : Nat) : M Unit := do
  count hostpPage 0x02 3
  modPort t fun p => { p with dropped := true }

/-- Send a management reply: a frame without its CRC (R420) goes to the queue secured under slot 3 (R428). One that
cannot be stored or secured is lost and counted (log entry 74). -/
def meshSend (hdr : List Byte) (lane : Nat) (frame : List Byte) : M Unit := do
  let s ← getS
  if s.meshAnswers hdr then
    let dsn ← freeNat
    let l := s.meshFrame (parseMac hdr) (dsn % 256) (frame.take (frame.length - 2))
    match ← secureTx l with
    | .error _ => noteDropped 2
    | .ok (l', n) =>
      if 2043 < l'.length then noteDropped 2
      else match ← allocChain poolHost ownLink (cellsFor l'.length) with
        | none => noteDropped 2
        | some cells =>
          chainWrite cells l'
          let s ← getS
          let j := meshJob s lane cells l'
          let seed ← takeSeed lane
          let _ ← addJob { j with fcnt := n, seed := seed, air := s.jobAir j j.pre, stage := .securing }

/-! ### Replies and refusals (R421–R423, R429, R430) -/

/-- Queue a reply at its transport. While the slot is taken the reply is held and its command stays outstanding (log
entry 70). -/
def queueReply (tr : Tr) (r : Reply) : M Unit := do
  match tr with
  | .mesh hdr lane =>
    meshSend hdr lane.val r.frame
    setOut 2 none
  | _ =>
    let t := trNum tr
    let s ← getS
    if (s.port t).reply.isNone then
      modPort t fun p => { p with reply := some r }
      setOut t none
    else
      modPort t fun p => { p with held := some r }
      setOut t (some ((octet r.frame 0).toNat - 0x80, (octet r.frame 1).toNat))

/-- Reply with a status and data. -/
def reply (tr : Tr) (code tag st : Nat) (data : List Byte) : M Unit :=
  queueReply tr { frame := replyFrame code tag st data }

/-- Queue an immediate refusal: BUSY, LENGTH or STATE (R423). -/
def refuse (tr : Tr) (code tag st : Nat) : M Unit := do
  match tr with
  | .mesh hdr lane => meshSend hdr lane.val (replyFrame code tag st [])
  | _ =>
    let t := trNum tr
    let s ← getS
    if (s.port t).refusal.isNone then modPort t fun p => { p with refusal := some (replyFrame code tag st []) }
    else noteDropped t

/-- A STATE refusal (R430). -/
def refuseState (tr : Tr) (code tag : Nat) : M Unit := do
  count hostpPage 0x01 1
  setFlt hostpPage fltState
  refuse tr code tag stState

/-- A LENGTH discard (R422, R445). -/
def refuseLength (tr : Tr) (code tag : Nat) : M Unit := do
  count hostpPage 0x02 0
  refuse tr code tag stLength

/-- Queue an ABORT's reply, which goes first (R423, R442). -/
def replyAbort (tr : Tr) (tag st : Nat) (data : List Byte) : M Unit := do
  match tr with
  | .mesh hdr lane => meshSend hdr lane.val (replyFrame 0x03 tag st data)
  | _ => modPort (trNum tr) fun p => { p with aborts := p.aborts ++ [replyFrame 0x03 tag st data] }

/-! ### The reset that follows a reply (R438) -/

/-- The wider of two resets asked for: a start reset takes in the others. -/
def resetMerge (a : Option ResetReq) (b : ResetReq) : ResetReq :=
  match a with
  | none => b
  | some x => if x.scope = 3 ∨ b.scope = 3 ∨ x.scope = b.scope then (if b.scope = 3 then b else x)
    else { b with scope := 4 }

/-- Carry out a reset by scope: 1 the link region, 2 the radio die, 3 a start reset with its source, 4 the first two. -/
def doReset (r : ResetReq) : M Unit :=
  match r.scope with
  | 1 => linkRegionReset
  | 2 => radioDieReset
  | 3 => softReset r.src
  | _ => do
    linkRegionReset
    radioDieReset

/-- The reset that waits for its reply takes place. -/
def resetNow : M Unit := do
  let s ← getS
  match s.dev.hostp.reset with
  | none => nop
  | some r =>
    modHostp fun h => { h with reset := none }
    doReset r

/-- The reset that waits follows the management reply just queued, where one was: `n` was the next frame's number before it
(R438). -/
def resetFollows (n : Nat) : M Unit := do
  let s ← getS
  if n < s.dev.tx.nextId then modHostp fun h => { h with reset := h.reset.map fun r => { r with job := some n } }

/-- The management reply that a reset follows has completed (R438). -/
def State.replyOver (s : State) : Bool :=
  match s.dev.hostp.reset with
  | some r => r.job.any fun id => s.jobs.all fun j => j.id != id
  | none => false

/-! ### A frame leaves (R423, R424, R435, R438) -/

/-- The reply of a transport has been read or sent: its cells go free, the held reply takes the slot, and a reset that
waited for it takes place. -/
def popReply (t : Nat) : M Unit := do
  let s ← getS
  match (s.port t).reply with
  | none => nop
  | some r =>
    releaseHost r.cells
    match (s.port t).held with
    | some h =>
      modPort t fun p => { p with reply := some h, held := none }
      setOut t none
    | none => modPort t fun p => { p with reply := none }
    if r.reset then resetNow

/-- The note of a transport leaves. -/
def popNote : M Unit :=
  modHostp fun h => if h.rxNote then { h with rxNote := false } else { h with txdone := h.txdone.drop 16 }

/-- The first waiting frame of a transport is removed (R424). -/
def popFrame (t : Nat) : M Unit := do
  let s ← getS
  let p := s.port t
  if !p.aborts.isEmpty then modPort t fun q => { q with aborts := q.aborts.drop 1 }
  else if p.reply.isSome then popReply t
  else if p.refusal.isSome then modPort t fun q => { q with refusal := none }
  else if (s.noteOf t).isSome then popNote

/-! ### APP (R436) -/

/-- The APP command in progress ends with a status and data: its reply is queued. -/
def appEnd (st : Nat) (data : List Byte) : M Unit := do
  let s ← getS
  match s.dev.hostp.app with
  | none => nop
  | some (tr, tag) =>
    modHostp fun h => { h with app := none, appIrq := false }
    setFld HOSTP_APPIN_VALID 0
    reply tr 0x30 tag st data

/-- HOSTP_APPOUT written (R436, R444): the chain of the reply must be the core's and must fit its length. -/
def appOut (v : Word) : M Unit := do
  let s ← getS
  wr HOSTP_APPOUT (bitsPut v 31 31 0)
  if bitOf v.toNat 31 then
    let len := bitsGet v 12 0
    let chain := s.chainFrom 16 (bitsGet v 26 18)
    let cells := chain.take (bitsGet v 30 27 + 1)
    if !s.bit HOSTP_APPIN_VALID || decide (4092 < len)
        || (len != 0 && (cells.any (fun c => (s.cell c).owner != ownCore) || decide (256 * cells.length < len))) then
      setFlt hostpPage fltState
    else
      let data := if len = 0 then [] else s.chainBytes cells len
      if len ≠ 0 then releaseCells cells
      appEnd stOk data

/-- APP_REPLY (R436): HOSTP_APPOUT written with SEND. -/
def execAppReply (v : Word) (s : State) : Host.Outcome State Fault Refusal := cmd s (appOut (bitsPut v 31 31 1))

/-- APP_TIMEOUT (R436). -/
def execAppTimeout (s : State) : Host.Outcome State Fault Refusal := cmd s (appEnd stLate [])

end Sys2Proof.Machine
end

