-- ==== Sys2Proof/Machine/Sysctl.lean ====
section
/-!
DEFINITION. The SYS page's watchdog, resets by software and the loading of the Bow sequencer (R45, R398, R408, R409,
R413).
-/
namespace Sys2Proof.Machine
open Sys2Proof.Reg

def modSys (f : Sys → Sys) : M Unit := modDev fun d => { d with sys := f d.sys }

/-! ### Watchdog (R408, R409) -/

/-- The start-fail count, shown in SYS_BOOTINFO (R409, R413). -/
def setFails (n : Nat) : M Unit := do
  modSys fun x => { x with fails := n }
  setFld SYS_BOOTINFO_FAILS (min 3 n)

/-- Load the watchdog with a number of seconds. -/
def wdogLoad (sec : Nat) : M Unit := do
  modSys fun x => { x with wdLoad := sec * 32768, wdLeft := sec * 32768, warned := false }
  setFld SYS_WDOGSTAT_REMAIN (min 4095 sec)

/-- SYS_WDOGCFG.PERIOD in seconds: 0 acts as 1, above 3,600 as 3,600 (R413). -/
def State.wdogPeriod (s : State) : Nat := max 1 (min 3600 (s.fld SYS_WDOGCFG_PERIOD))

/-- A write of SYS_ALIVE (R408, R409). -/
def aliveWrite (v : Word) : M Unit := do
  if v.toNat = 0xA11E then
    let s ← getS
    setFails 0
    setFld SYS_WDOGSTAT_ALIVE 1
    if s.bit SYS_WDOGSTAT_RUN then wdogLoad s.wdogPeriod
  else setFlt sysPage fltState

/-- ALIVE_WRITE (R408). -/
def execAliveWrite (v : Word) (s : State) : Host.Outcome State Fault Refusal := cmd s (aliveWrite v)

/-- WATCHDOG_WARNING: one eighth of the loaded time remains (R408). -/
def execWatchdogWarning (s : State) : Host.Outcome State Fault Refusal := cmd s do
  if s.bit SYS_WDOGSTAT_RUN then modSys fun x => { x with warned := true }

/-- The watchdog expires (R408, R409): the record, the start-fail count and the start reset. -/
def wdogExpire : M Unit := do
  let s ← getS
  if s.bit SYS_WDOGSTAT_RUN then
    stage 0x05 true stInternal (s.reg sysPage).toNat (leBytes 4 s.core.pc.toNat ++ leBytes 4 (s.reg SYS_WDOGSTAT).toNat)
    if !s.bit SYS_WDOGSTAT_ALIVE then setFails (s.dev.sys.fails + 1)
    startReset rstWdog

/-- WATCHDOG_EXPIRY (R408). -/
def execWatchdogExpiry (s : State) : Host.Outcome State Fault Refusal := cmd s wdogExpire

/-- A write of SYS_SWRST (R413). -/
def swrstWrite (v : Word) : M Unit :=
  if v.toNat = 0x5A5A then softReset 0 else setFlt sysPage fltState

/-- SOFTWARE_RESET (R413). -/
def execSoftwareReset (v : Word) (s : State) : Host.Outcome State Fault Refusal := cmd s (swrstWrite v)

/-! ### Bow microcode (R45, R398) -/

def modBow (f : UcLoad → UcLoad) : M Unit := modDev fun d => { d with bowLoad := f d.bowLoad }

/-- SYS_BOWCTL.LOAD (R123, R398): a CRC that still runs goes on to its result, which is then not of the load most recently
closed. -/
def bowLoad : M Unit := do
  let s ← getS
  if s.radio ≠ radSleep ∨ s.dev.radio.walk.isSome then setFlt sysPage fltState
  else
    setFld RCTL_STAT_UCODE_OK 0
    modBow fun u => { u with isOpen := true, ready := false }

/-- SYS_BOWDATA written (R398). -/
def bowData (v : Word) : M Unit := do
  let s ← getS
  if s.dev.bowLoad.isOpen then
    let a := s.fld SYS_BOWCTL_ADDR
    act (.tab .bow a v)
    setFld SYS_BOWCTL_ADDR ((a + 1) % 2 ^ 11)
  else setFlt sysPage fltState

/-- SYS_BOWCTL.DONE (R398). -/
def bowDone : M Unit := do
  let s ← getS
  if s.dev.bowLoad.isOpen then
    modBow fun _ => { crc := true }
    setFld SYS_BOWCTL_DONE 1
  else setFlt sysPage fltState

/-- SYS_BOWCTL.GOOD (R398). -/
def bowGood : M Unit := do
  let s ← getS
  if s.dev.bowLoad.ready then
    modBow fun _ => {}
    setFld RCTL_STAT_UCODE_OK 1
  else setFlt sysPage fltState

/-- A write of SYS_BOWCTL: the address, then LOAD, DONE and GOOD in this order. -/
def bowCtl (v : Word) : M Unit := do
  setFld SYS_BOWCTL_ADDR (bitsGet v 13 3)
  if bitOf v.toNat 0 then bowLoad
  if bitOf v.toNat 1 then bowDone
  if bitOf v.toNat 2 then bowGood

/-- BOW_UCODE_LOAD (R398). -/
def execBowUcodeLoad (s : State) : Host.Outcome State Fault Refusal := cmd s bowLoad

/-- BOW_UCODE_DATA (R398). -/
def execBowUcodeData (v : Word) (s : State) : Host.Outcome State Fault Refusal := cmd s (bowData v)

/-- BOW_UCODE_DONE (R398). -/
def execBowUcodeDone (s : State) : Host.Outcome State Fault Refusal := cmd s bowDone

/-- BOW_UCODE_CRC_READY (R398): the CRC-32 of the 8 KB RAM. -/
def execBowUcodeCrcReady (s : State) : Host.Outcome State Fault Refusal := cmd s do
  if s.dev.bowLoad.crc then
    wr SYS_BOWCRC (BitVec.ofNat 32 (crc32 (s.tabBytes .bow 2048)))
    setFld SYS_BOWCTL_DONE 0
    modBow fun u => { u with crc := false, ready := !u.isOpen }

/-- BOW_UCODE_GOOD (R45, R398). -/
def execBowUcodeGood (s : State) : Host.Outcome State Fault Refusal := cmd s bowGood

end Sys2Proof.Machine
end

