-- ==== Sys2Proof/Machine/Xspi.lean ====
section
/-!
DEFINITION. The external flash controller's command sequencer (R293–R296).
-/
namespace Sys2Proof.Machine
open Sys2Proof.Reg

/-- The first address of a chip select's window (R269). -/
def csBase (cs : Nat) : Nat := 0x30000000 + 0x04000000 * cs

/-- A write of XSPI_SEQCMD (R295): a START while a sequence runs is ignored; the cluster must be enabled (R13; log
entry 21). -/
def xspiWrite (v : Word) : M Unit := do
  let s ← getS
  wr XSPI_SEQCMD (bitsPut v 31 31 0)
  if bitOf v.toNat 31 then
    if s.bit XSPI_STAT_BUSY then setFlt xspiPage fltState
    else if s.en xspiPage then
      setFld XSPI_STAT_BUSY 1
      modDev fun d => { d with xseq := some { cs := bitsGet v 30 30, dir := bitsGet v 29 28, len := s.fld XSPI_SEQLEN_LEN
                                              wip := bitOf v.toNat 26 } }

/-- XSPI_SEQUENCE (R295). -/
def execXspiSequence (v : Word) (s : State) : Host.Outcome State Fault Refusal := cmd s (xspiWrite v)

/-- Store words of octets in XSPI_SEQBUF from word k on; a last word that is not full keeps its other octets. -/
def seqbufPut : Nat → List Byte → M Unit
  | _, [] => nop
  | k, b :: l => do
    let w ← rd (XSPI_SEQBUF (k / 4))
    wr (XSPI_SEQBUF (k / 4)) (bitsPut w (8 * (k % 4) + 7) (8 * (k % 4)) b.toNat)
    seqbufPut (k + 1) l

/-- What the device on a chip select holds changes as it answers the sequence: by device address. -/
def devicePut (cs : Nat) (l : List (Nat × Byte)) : M Unit :=
  forAll l fun x => if x.1 < 0x04000000 then act (.mem (csBase cs + x.1) x.2) else nop

/-- A sequence ends (R295, R296): `rx` are the octets the device drove, `device` what changed in it. The read buffer is
invalidated, and polling starts where WIP asked for it. -/
def xspiDone (rx : List Byte) (device : List (Nat × Byte)) : M Unit := do
  let s ← getS
  match s.dev.xseq with
  | none => nop
  | some j =>
    let st := if 256 < j.len then stLength else if j.dir = 3 then stParam else stOk
    modDev fun d => { d with xseq := none }
    if st = stOk then
      if j.dir = 1 then seqbufPut 0 (sliceOf rx 0 j.len)
      devicePut j.cs device
    modXspi fun x => { x with lines := [], pollCs := if j.wip then j.cs else x.pollCs }
    setFld XSPI_STAT_BUSY 0
    setFld XSPI_STAT_STATUS st
    if st = stOk ∧ j.wip then setFld XSPI_STAT_POLLING 1

/-- XSPI_SEQUENCE_DONE (R295). -/
def execXspiSequenceDone (rx : List Byte) (device : List (Nat × Byte)) (s : State) : Host.Outcome State Fault Refusal :=
  cmd s (xspiDone rx device)

/-- XSPI_STATUS_POLL (R295): the device's status register is read; bit 0 low ends the polling. -/
def execXspiStatusPoll (status : Byte) (s : State) : Host.Outcome State Fault Refusal := cmd s do
  if s.bit XSPI_STAT_POLLING ∧ !bitOf status.toNat 0 then setFld XSPI_STAT_POLLING 0

end Sys2Proof.Machine
end

