-- ==== Sys2Proof/Machine/Regs.lean ====
section
/-!
DEFINITION. The register pages as a bus master sees them: what a read shows, what a write does under the access codes, the
enables and their loss, and configuration parity (R13–R20, R210, R301–R314, R517).
-/
namespace Sys2Proof.Machine
open Sys2Proof.Reg

/-! ### Governing enables (R13, R310) -/

/-- The enable that governs a configuration register: its unit's, or CTRL.EN for one common to the cluster (R13). -/
def govFld (a : Nat) : Fld :=
  let p := pageOf a
  let o := a % 0x1000
  let unit (r n : Nat) : Fld := ⟨r, n, n⟩
  if p = dmaPage ∧ o < 0x180 then unit DMA_EN ((o - 0x100) / 0x10)
  else if p = stimPage ∧ o < 0x140 then unit STIM_EN ((o - 0x100) / 8)
  else if p = ltimPage ∧ o < 0x108 then unit LTIM_EN ((o - 0x100) / 4)
  else if p = lanesPage ∧ 0x120 ≤ o ∧ o < 0x1A0 then unit LANES_ENABLE ((o - 0x120) / 0x20)
  else if p = riggerPage ∧ o < 0x300 then unit (RIGGER_EN ((o - 0x100) / 8 / 32)) ((o - 0x100) / 8 % 32)
  else CTRL_EN p

/-- Is an address in the configuration region of a page (R301)? -/
def isConfig (a : Nat) : Bool := hasHeader (pageOf a) && decide (0x100 ≤ a % 0x1000) && decide (a % 0x1000 < 0x800)

/-- Is the lock of a register's RWK fields set (R308): SYS_WDOGCFG.LOCK, FLASHC_IMG.VALID, TXP_CFG.LOCK, RTC_TRICKLE.LOCK, a
Rigger channel's LOCK? -/
def State.lockedReg (s : State) (a : Nat) : Bool :=
  if a = SYS_WDOGCFG then s.bit SYS_WDOGCFG_LOCK
  else if pageOf a = flashcPage then s.bit FLASHC_IMG_VALID
  else if a = TXP_CFG then s.bit TXP_CFG_LOCK
  else if a = RTC_TRICKLE then s.bit RTC_TRICKLE_LOCK
  else if pageOf a = riggerPage then s.rigLocked ((a % 0x1000 - 0x100) / 8)
  else false

/-! ### Views -/

/-- HSTAT (R304): the gate of a page being accessed is open. -/
def State.hstat (s : State) (p : Nat) : Nat :=
  let units :=
    if p = dmaPage then s.fld DMA_EN_EN
    else if p = stimPage then s.fld STIM_EN_EN
    else if p = ltimPage then s.fld LTIM_EN_EN
    else if p = lanesPage then s.fld LANES_ENABLE_EN
    else if p = riggerPage then s.fld (RIGGER_EN_EN 0) % 2 ^ 16
    else if p = spihPage then s.fld HOSTP_CFG_SPIEN
    else s.fld (CTRL_EN p)
  b2n (p ∈ s.dev.gates) * 2 ^ 31 + b2n (p ∈ s.dev.resetting) * 2 ^ 30 + units

/-- The register's value as a read shows it: most hold what they show; the levels, mirrors and counts below are made
from the units' state. -/
def State.regView (s : State) (a : Nat) : Word :=
  let p := pageOf a
  let w := s.reg a
  if hasHeader p && a == HSTAT p then BitVec.ofNat 32 (s.hstat p)
  else if a = CTRL spihPage then bitsPut w 0 0 (s.fld HOSTP_CFG_SPIEN)
  else if a = SYS_WDOGSTAT then
    if s.bit SYS_WDOGSTAT_RUN then bitsPut w 11 0 (min 4095 (s.dev.sys.wdLeft / 32768)) else w
  else if a = PWR_CLKSTAT then bitsPut (bitsPut w 2 2 (b2n s.xoOk)) 3 3 (b2n s.pllOk)
  else if p = gpioPage then
    if a = GPIO_IN 0 then BitVec.ofNat 32 ((List.range 32).foldl (fun x j => if s.gpLevel j then x + 2 ^ j else x) 0)
    else if a = GPIO_IN 1 then
      BitVec.ofNat 32 ((List.range 4).foldl (fun x j => if s.gpLevel (32 + j) then x + 2 ^ j else x) 0)
    else w
  else if p = uartPage 0 ∨ p = uartPage 1 ∨ p = uartPage 2 then
    let n := (p - uartPage 0) / 0x1000
    if a = UART_STAT n then bitsPut (bitsPut w 12 8 (s.uart n).rx.length) 4 0 (s.uart n).tx.length else w
  else if p = fbufPage then
    if a = FBUF_USE0 then BitVec.ofNat 32 (s.poolUse poolTx * 2 ^ 16 + s.poolUse poolRx)
    else if a = FBUF_USE1 then BitVec.ofNat 32 ((512 - s.cellsUsed) * 2 ^ 16 + s.poolUse poolHost)
    else if FBUF_NEXT 0 ≤ a then
      let c := (a - FBUF_NEXT 0) / 2
      BitVec.ofNat 32 (s.nextHalf (c + 1) * 2 ^ 16 + s.nextHalf c)
    else w
  else if p = 0xE0000000 then
    if INTC_PEND 0 ≤ a ∧ a ≤ INTC_PEND 3 then BitVec.ofNat 32 (s.intcPend ((a - INTC_PEND 0) / 4))
    else if a = INTC_STAT then BitVec.ofNat 32 s.intcStat
    else w
  else w

/-! ### Enables -/

/-- A unit whose enable clears goes idle; a cluster's CTRL.EN likewise (R15, and each cluster's own rule). -/
def disableCluster (p : Nat) : M Unit := do
  let s ← getS
  if s.en p then
    if p = linkPage then
      setMode 0
      setFld (CTRL_EN p) 0
    else if p = tallyPage then tallyCtrl false
    else
      setFld (CTRL_EN p) 0
      if p = lanesPage then lanesCtrl false
      else if p = sampPage then sampCtrl false
      else if p = txpPage then
        let was ← cutAir stState
        if was then txReturn
      else if ciphPage 0 ≤ p ∧ p ≤ ciphPage 7 then clusterStop p
      else if p = uartPage 0 ∨ p = uartPage 1 ∨ p = uartPage 2 then modUart ((p - uartPage 0) / 0x1000) fun _ => {}
      else if p = i2cPage 0 ∨ p = i2cPage 1 then setFld (I2C_STAT_BUSY ((p - i2cPage 0) / 0x1000)) 0
      else if p = adcPage then
        setFld ADC_STAT_BUSY 0
        modAdc fun _ => {}
      else if p = daliPage then
        if s.dev.dali.phase ≠ .idle then daliEnd stAborted
        modDali fun d => { foreign := d.foreign }
      else if p = otpcPage then
        modDev fun d => { d with otpc := none }
        setFld OTPC_STAT_BUSY 0
      else if p = lumPage ∨ p = rctlPage ∨ p = synthPage then clusterStop p
      else if p = xspiPage then
        setFld XSPI_STAT_BUSY 0
        setFld XSPI_STAT_POLLING 0
        modXspi fun _ => {}
        modDev fun d => { d with xseq := none }

/-- The enable that governs a configuration register clears (R14, R313). -/
def disableUnit (a : Nat) : M Unit := do
  let s ← getS
  let f := govFld a
  if s.bit f then
    if f.addr = DMA_EN then
      setFld f 0
      modDma f.lo fun _ => {}
    else if f.addr = STIM_EN then
      setFld f 0
      stReset f.lo
    else if f.addr = LTIM_EN then
      setFld f 0
      wr (LTIM_COUNT f.lo) 0
      setLtArmed f.lo false
    else if f.addr = LANES_ENABLE then laneStop f.lo
    else if pageOf f.addr = riggerPage ∧ f.addr ≠ CTRL riggerPage then setFld f 0
    else disableCluster (pageOf a)

/-- Does a parity mismatch persist in a register that CTRL.EN of a page governs (R314)? -/
def State.parityCommon (s : State) (p : Nat) : Bool := s.dev.parity.any fun a => govFld a == CTRL_EN p

/-- May LINK be enabled: do both rings lie wholly in main SRAM (R156)? -/
def State.linkRingsOk (s : State) : Bool :=
  let ring (base size : Nat) : Bool :=
    decide (0x20000000 ≤ base) && decide (base + 16 * ringSize size ≤ 0x20080000)
  ring (16 * s.fld LINK_RXRING_BASE) (s.fld LINK_RXRING_SIZE) && ring (16 * s.fld LINK_TXRING_BASE) (s.fld LINK_TXRING_SIZE)

/-- CTRL.EN written 1 (R303, R314). -/
def enableCluster (p : Nat) : M Unit := do
  let s ← getS
  if !s.en p then
    if s.parityCommon p then setFltAt p fltPar (CTRL p)
    else if p = tallyPage then tallyCtrl true
    else if p = linkPage ∧ !s.linkRingsOk then setFlt p fltState
    else
      setFld (CTRL_EN p) 1
      if p = lanesPage then lanesCtrl true
      if p = sampPage then sampCtrl true
      if p = rxfePage then gainHold

/-- A write to CTRL (R17, R303): CRST resets and nothing else; SPIH's EN is a mirror (R446). -/
def ctrlWrite (p : Nat) (v : Word) : M Unit := do
  if bitOf v.toNat 1 then clusterReset p
  else
    setFld (CTRL_CLKHOLD p) (bitsGet v 2 2)
    if p = spihPage then nop
    else if bitOf v.toNat 0 then enableCluster p
    else disableCluster p

/-! ### Writes under the access codes (R308–R310, R517) -/

/-- A write to a register without behaviour of its own. -/
def plainWrite (a : Nat) (v : Word) : M Unit := do
  match rowOf a with
  | none => nop
  | some r =>
    let s ← getS
    let p := pageOf a
    let enabled := isConfig a && s.bit (govFld a)
    let locked := s.lockedReg a
    let both := p == riggerPage && isConfig a
    let rwkHeld := both && enabled && !locked && r.rwk != 0
    let rw := if enabled then 0 else r.rw
    let rwk := if locked || rwkHeld then 0 else r.rwk
    let w := BitVec.ofNat 32 (rw ||| r.rwl ||| rwk)
    let v := if a = LTIM_CFG 0 then bitsPut v 8 8 0 else v
    let x := (s.reg a &&& ~~~w) ||| (v &&& w)
    let x := x &&& ~~~(v &&& BitVec.ofNat 32 r.w1c)
    let x := r.clr0.foldl (fun y m => if v &&& BitVec.ofNat 32 m = 0 then y &&& ~~~(BitVec.ofNat 32 m) else y) x
    wr a x
    if rw ||| r.rwl ||| rwk ≠ 0 then goodParity a
    let wign := (enabled && r.rw != 0) || rwkHeld
    if wign then
      setFltAt p fltWign a
      perf p 0x03 1
    if locked && r.rwk != 0 then (if wign then addFlt p fltState else setFlt p fltState)

/-- TXP_CFG written: setting LOCK copies PROFILE into the AO region's latch (R61). -/
def txpCfgWrite (v : Word) : M Unit := do
  let s ← getS
  plainWrite TXP_CFG v
  let t ← getS
  if !s.bit TXP_CFG_LOCK && t.bit TXP_CFG_LOCK then
    modRadio fun r => { r with profLatch := some (t.fld TXP_CFG_PROFILE) }

/-- PWR_RGNRST written (R22, R384). -/
def rgnrstWrite (v : Word) : M Unit := do
  if bitOf v.toNat 0 then linkRegionReset
  if bitOf v.toNat 1 then radioDieReset

/-- RCTL_CMD written by the firmware (R40, R41, R68): the codes above 3 complete with PARAM, from a firmware that owns the
radio. -/
def rctlWrite (v : Word) : M Unit := radioReq (bitsGet v 2 0) false false

/-- Is a master the one that configures P0 and reads its own page: the core in SYS mode (R210)? -/
def State.coreSys (s : State) (m : Master) : Bool :=
  match m with
  | .core _ => s.sysMode
  | _ => false

/-- A write of a register of the main region with a behaviour of its own. -/
def writeMain (a : Nat) (v : Word) : Option (M Unit) :=
  if a = SYS_ALIVE then some (aliveWrite v)
  else if a = SYS_SWRST then some (swrstWrite v)
  else if a = SYS_BOWCTL then some (bowCtl v)
  else if a = SYS_BOWDATA then some (bowData v)
  else if a = DMA_EN then some (dmaEnable (v.toNat % 256))
  else if a = XSPI_SEQCMD then some (xspiWrite v)
  else if a = HOSTP_APPOUT then some (appOut v)
  else if a = UART_DATA 0 then some (uartWrite 0 v)
  else if a = UART_DATA 1 then some (uartWrite 1 v)
  else if a = UART_DATA 2 then some (uartWrite 2 v)
  else if a = I2C_CMD 0 then some (i2cWrite 0 v)
  else if a = I2C_CMD 1 then some (i2cWrite 1 v)
  else if a = GPIO_SET 0 then some (gpioSet 0 v)
  else if a = GPIO_SET 1 then some (gpioSet 1 v)
  else if a = GPIO_CLR 0 then some (gpioClr 0 v)
  else if a = GPIO_CLR 1 then some (gpioClr 1 v)
  else if a = ADC_CMD then some (adcWrite v)
  else if a = STIM_EN then some (stEnable (v.toNat % 256))
  else if STIM_TOP 0 ≤ a ∧ a < STIM_TOP 8 then
    let n := (a - STIM_TOP 0) / 0x20
    let o := (a - STIM_TOP 0) % 0x20
    if 8 ≤ o ∧ o < 24 then some (stCcWrite n ((o - 8) / 4) v) else if o = 0 then some (stTopWrite n v) else none
  else if a = LTIM_EN then some (ltEnable (v.toNat % 4))
  else if a = LTIM_CMP 0 then some (ltCmpWrite 0 v)
  else if a = LTIM_CMP 1 then some (ltCmpWrite 1 v)
  else if a = DALI_FWD then some (daliWrite v)
  else if a = LUM_RLY then some (relayWrite v)
  else if a = TALLY_SAMP then some (tallySampWrite v)
  else if a = TALLY_BUFSTAT then some (if bitOf v.toNat 31 then tallyBufClear else nop)
  else if a = STATS_CMD then some (if bitOf v.toNat 0 then heatRequest else nop)
  else none

/-- A write of OTPC_CMD (R417): the supply is what the block sees, and whether a row verifies is open (log entry 50). -/
def otpcWrite (m : Master) (v : Word) : M Unit := do
  let s ← getS
  let n ← freeNat
  otpStart m (bitsGet v 2 0) s.dev.supply.vsys (n % 2 == 0)

/-- A write of a register of the link region with a behaviour of its own. -/
def writeLink (m : Master) (a : Nat) (v : Word) : Option (M Unit) :=
  let n := (pageOf a - ciphPage 0) / 0x1000
  if a = LINK_MODE then some (setMode (bitsGet v 1 0))
  else if a = LINK_UCCTL then some (coxCtl v)
  else if a = LINK_UCDATA then some (coxData v)
  else if a = FBUF_ALLOC then some (fbufAlloc v)
  else if a = FBUF_FREE then some (fbufFree v)
  else if a = FBUF_REVOKE then some (revoke (bitsGet v 1 0))
  else if a = PEER_WCMD then some (peerWrite v)
  else if a = NTIME_CMD then some (ntimeCmd v)
  else if a = NTIME_CFG then some (do
    let was := (← getS).sampOn
    plainWrite NTIME_CFG v
    sampFollow was)
  else if a = LANES_ENABLE then some (lanesEnableWrite (v.toNat % 16))
  else if a = LANES_CNTCLR then some (lanesCntClr (v.toNat % 16))
  else if ciphPage 0 ≤ a then
    if a = CIPH_OWNER n then some (pageBind m n v)
    else if a = CIPH_OP n ∧ bitOf v.toNat 31 then some (ciphStart m n v)
    else if a = CIPH0_FCRES then if m = .core true then some (fcResWrite v) else none
    else none
  else none

/-- A write of a register of the AO region or the RTC domain with a behaviour of its own. -/
def writeAo (m : Master) (a : Nat) (v : Word) : Option (M Unit) :=
  if a = PWR_PADREL then some (if bitOf v.toNat 0 then padsRelease else nop)
  else if a = PWR_RGNRST then some (rgnrstWrite v)
  else if a = PWR_CLKREQ then some (clkReqWrite v)
  else if a = PWR_CLKSEL then some (clkSelWrite v)
  else if a = RIGGER_EN 0 then some (rigEnable 0 v.toNat)
  else if a = RIGGER_EN 1 then some (rigEnable 1 v.toNat)
  else if a = RIGGER_LOCK 0 then some (rigLock 0 v)
  else if a = RIGGER_LOCK 1 then some (rigLock 1 v)
  else if a = RIGGER_FIRE 0 then some (rigSoftFire 0 v.toNat)
  else if a = RIGGER_FIRE 1 then some (rigSoftFire 1 v.toNat)
  else if a = RIGGER_CNTCLR then some (rigCntClr v)
  else if a = GOV_CHG then some (do
    plainWrite GOV_CHG v
    govSettle)
  else if a = GOV_CMD then some (govCmd v)
  else if a = SAMP_CMD then some (sampCmd v)
  else if a = LOGB_POP then some (if bitOf v.toNat 0 then logPop m else nop)
  else if a = RTC_SECONDS then some (rtcSecondsWrite v)
  else if a = RTC_ALARM then some (rtcAlarmWrite v)
  else none

/-- A write of a register of the radio region with a behaviour of its own. -/
def writeRadio (a : Nat) (v : Word) : Option (M Unit) :=
  if a = RCTL_CMD then some (rctlWrite v)
  else if a = SYNTH_CHAN then some (chanWrite v false)
  else if a = SYNTH_CCTL then some (do
    plainWrite SYNTH_CCTL v
    setFld SYNTH_CCTL_FLUSH 0
    if bitOf v.toNat 0 then cacheFlush)
  else if a = TXP_CFG then some (txpCfgWrite v)
  else if a = TXP_TEST then some (testWrite v)
  else none

/-- A write of a core-private register with a behaviour of its own; the breakpoint registers take writes from ROM
addresses only (R482). -/
def writePrivate (m : Master) (a : Nat) (v : Word) : Option (M Unit) :=
  if INTC_SET 0 ≤ a ∧ a ≤ INTC_SET 3 then some (intcSet ((a - INTC_SET 0) / 4) v)
  else if INTC_CLR 0 ≤ a ∧ a ≤ INTC_CLR 3 then some (intcClr ((a - INTC_CLR 0) / 4) v)
  else if 0xE0002000 ≤ a ∧ m ≠ .core true then some nop
  else none

/-- Carry out the write of a register, `a` its one home (R264). -/
def writeReg (m : Master) (a : Nat) (v : Word) : M Unit :=
  let hook :=
    if a < 0x41000000 then (if a = OTPC_CMD then some (otpcWrite m v) else writeMain a v)
    else if a < 0x42000000 then writeLink m a v
    else if a < 0x43000000 then writeAo m a v
    else if a < 0xE0000000 then writeRadio a v
    else writePrivate m a v
  match hook with
  | some act => act
  | none => plainWrite a v

/-! ### The bus at a register page (R18, R20, R210, R270, R311) -/

/-- An access reaches a page: it completes the page's reset first (R311), opens its gate and is counted. -/
def enterPage (p : Nat) : M Unit := do
  modDev fun d => { d with resetting := d.resetting.filter (· != p) }
  if hasHeader p then
    openGate p
    perf p 0x02 1

/-- May a master reach a cipher page's data registers (R210), and write its configuration region (R210)? -/
def State.ciphRead (s : State) (m : Master) (p o : Nat) : Bool :=
  if o < 0x800 then true else s.ciphOwner m ((p - ciphPage 0) / 0x1000) && p != ciphPage 0

def State.ciphWrite (s : State) (m : Master) (p o : Nat) : Bool :=
  if 0x800 ≤ o then s.ciphRead m p o
  else if p = ciphPage 0 ∧ 0x180 ≤ o then s.coreSys m
  else true

/-- Is a page one of the cipher engine's? -/
def isCiph (p : Nat) : Bool := decide (ciphPage 0 ≤ p) && decide (p ≤ ciphPage 7)

/-- An access to a page of the radio die whose transfer on the register bus has failed four times (R26). -/
def State.busVoid (s : State) (p : Nat) : Bool := inRadio p && s.dev.radio.busFail

/-- It completes with no effect, and the bus is free for the next (R26). -/
def busVoided : M Unit := modRadio fun r => { r with busFail := false }

/-- Read the register word at a word-aligned address of a page that exists; a transfer to the radio die that failed reads 0
(R26). -/
def regRead (m : Master) (a : Nat) : M Word := do
  let s ← getS
  let p := pageOf a
  if !s.powered p then
    setFlt sysPage fltState
    return 0
  else if s.busVoid p then
    busVoided
    return 0
  else
    enterPage p
    if isCiph p && !s.ciphRead m p (a % 0x1000) then
      setFlt p fltState
      return 0
    else if a = UART_DATA 0 ∨ a = UART_DATA 1 ∨ a = UART_DATA 2 then
      let b ← uartRead ((p - uartPage 0) / 0x1000)
      return BitVec.ofNat 32 b.toNat
    else
      let t ← getS
      return t.regView (canon a)

/-- Write a register word at an address of a page that exists; a narrow write is ignored and sets FLT.STATE (R309);
FLASHC takes writes from ROM addresses only (R278); a transfer to the radio die that failed is not applied (R26). -/
def regWrite (m : Master) (size : Size) (a : Nat) (v : Word) : M Unit := do
  let s ← getS
  let p := pageOf a
  let o := a % 0x1000
  if !s.powered p then setFlt sysPage fltState
  else if s.busVoid p then busVoided
  else
    enterPage p
    if size ≠ .word then
      if hasHeader p then setFlt p fltState
    else if p = flashcPage ∧ m ≠ .core true then setFlt p fltState
    else if isCiph p && !s.ciphWrite m p o then setFlt p fltState
    else if hasHeader p && a == CTRL p then ctrlWrite p v
    else if hasHeader p && a == MBX_SEL p then mbxSelect p v
    else writeReg m (canon a) v

/-- MAILBOX_SELECT (R315): MBX_SEL of a page written. -/
def execMailboxSelect (m : Master) (page : Nat) (v : Word) (s : State) : Host.Outcome State Fault Refusal := cmd s do
  if isCluster page then regWrite m .word (MBX_SEL page) v

/-! ### Parity (R58, R313) -/

/-- The bits of a register that its parity covers (R312). -/
def parityMask (a : Nat) : Nat :=
  match rowOf a with
  | some r => r.rw ||| r.rwl ||| r.rwk
  | none => 0

/-- A mismatch is detected in a configuration register: one of its bits, or the parity bit itself, has flipped. A
register already in mismatch raises nothing more (R314). -/
def parityFault (a : Nat) : M Unit := do
  let s ← getS
  let p := pageOf a
  if isConfig a && parityMask a != 0 && s.powered p && !(s.dev.parity.contains a) then
    let bits := onesOf 32 (parityMask a)
    let k ← freeNat
    match bits[k % (bits.length + 1)]? with
    | some b => wr a (s.reg a ^^^ BitVec.ofNat 32 (2 ^ b))
    | none => nop
    modDev fun d => { d with parity := a :: d.parity }
    let v ← rd a
    setFltAt p fltPar a
    stage 0x01 true stInternal (s.reg p).toNat (leBytes 2 (a % 0x1000) ++ leBytes 4 v.toNat)
    if p = txpPage then
      let was ← cutAir stInternal
      if was then txReturn
    disableUnit a

/-- PARITY_FAULT (R313). -/
def execParityFault (a : Word) (s : State) : Host.Outcome State Fault Refusal := cmd s (parityFault a.toNat)

end Sys2Proof.Machine
end

