-- ==== Sys2Proof/Machine/Bus.lean ====
section
/-!
DEFINITION. Accesses by address: the ranges of R269, error correction, the frame-buffer rule, flash and its window, and the
DMA channels' elements (R269–R277, R291, R294, R297–R300).
-/
namespace Sys2Proof.Machine
open Sys2Proof.Reg

/-- How an access ends: with the word read, in a bus error (R270), in an uncorrectable SRAM error (R272). -/
inductive BusEnd where
  | ok (v : Word)
  | bus
  | ecc
  deriving DecidableEq, Repr

/-! ### Flash geometry (R275) -/

/-- The erase unit an address of on-chip flash lies in. -/
def unitOf (a : Nat) : Nat := if a < 0x01010000 then (a - 0x01000000) / 0x1000 else 16 + (a - 0x01010000) / 0x10000

def unitBase (u : Nat) : Nat := if u < 16 then 0x01000000 + 0x1000 * u else 0x01010000 + 0x10000 * (u - 16)

def unitSize (u : Nat) : Nat := if u < 16 then 0x1000 else 0x10000

def State.unit (s : State) (u : Nat) : FlashUnit := Sparse.val {} s.dev.flash.units u

/-- Is a unit's content undefined: BAD, torn, being erased or suspended in an erase (R282, R284, R289)? -/
def State.unitOpen (s : State) (u : Nat) : Bool :=
  decide (u ∈ s.bad) || (s.unit u).torn
    || (s.fld FLASHC_STAT_UNIT == u && (s.eraseState == 1 || s.eraseState == 2))

/-! ### Reading -/

/-- A read of on-chip flash (R277): it stalls through a pulse, a single-bit error is corrected and counted, an
uncorrectable one is a bus error. -/
def flashRead (a n : Nat) : M BusEnd := do
  let s ← getS
  let blk := a / 16 * 16
  if s.fld FLASHC_STAT_STATE = 1 then
    let c ← freeNat
    perf flashcPage 0x40 c
  if blk ∈ s.dev.eccBad then
    setFld FLASHC_ECC_UNCORR (min 0xFFFF (s.fld FLASHC_ECC_UNCORR + 1))
    return .bus
  else
    if blk ∈ s.dev.eccOne then
      setFld FLASHC_ECC_CORR (min 0xFFFF (s.fld FLASHC_ECC_CORR + 1))
      perf flashcPage 0x41 1
    if s.unitOpen (unitOf a) then
      let l ← freeBytes n
      return .ok (wordOf l)
    else return .ok (wordOf (s.bytes a n))

/-- The error correction of an SRAM word that is read (R272): a single error is corrected and the word rewritten. -/
def sramCheck (a : Nat) : M Bool := do
  let s ← getS
  let w := a / 4 * 4
  if w ∈ s.dev.eccBad then
    stat 0x15
    return false
  else
    if w ∈ s.dev.eccOne then
      stat 0x14
      eccForget (· == w)
    return true

/-- A line of an external window passes through the read buffer of four lines (R294). -/
def windowRead (a : Nat) : M Unit := do
  let s ← getS
  let ln := a / 32
  if ln ∈ s.dev.xspi.lines then perf xspiPage 0x40 1
  else
    perf xspiPage 0x41 1
    modXspi fun x => { x with lines := (ln :: x.lines).take 4 }

/-- Does a mapped read of an external window wait: a sequence runs, or its device is being polled (R295)? -/
def State.windowWaits (s : State) (a : Nat) : Bool :=
  match s.rangeOf a with
  | some ⟨_, _, .window cs⟩ => s.bit XSPI_STAT_BUSY || (s.bit XSPI_STAT_POLLING && s.dev.xspi.pollCs == cs)
  | _ => false

/-- May a master reach the core-private region (R266)? -/
def State.privOk (s : State) (m : Master) : Bool := s.coreSys m

/-- Read at an address aligned to the access's width. -/
def busRead (m : Master) (size : Size) (a : Nat) : M BusEnd := do
  let s ← getS
  let n := accLen size
  match s.rangeOf a with
  | none => return .bus
  | some r =>
    match r.kind with
    | .rom => return .ok (wordOf (s.bytes a n))
    | .flash => flashRead a n
    | .sram => do
      if ← sramCheck a then return .ok (wordOf (s.bytes a n)) else return .ecc
    | .cells => return .ok (wordOf (s.bytes a n))
    | .window _ => do
      windowRead a
      return .ok (wordOf (s.bytes a n))
    | .pages =>
      if (pageRows (pageOf a)).isNone then return .bus
      else do
        let w ← regRead m (a / 4 * 4)
        return .ok (wordOf ((leBytes 4 w.toNat).drop (a % 4) |>.take n))
    | .private_ =>
      if s.privOk m then do
        let w ← regRead m (a / 4 * 4)
        return .ok (wordOf ((leBytes 4 w.toNat).drop (a % 4) |>.take n))
      else return .bus

/-! ### Writing -/

/-- May a master write a cell of the frame buffer (R274)? -/
def State.cellWritable (s : State) (m : Master) (a : Nat) : Bool :=
  (s.cell (cellOf a)).owner == (match m with | .host => ownHost | _ => ownCore)

/-- Write at an address aligned to the access's width. -/
def busWrite (m : Master) (size : Size) (a : Nat) (v : Word) : M BusEnd := do
  let s ← getS
  let n := accLen size
  match s.rangeOf a with
  | none => return .bus
  | some r =>
    match r.kind with
    | .rom | .flash | .window _ => return .bus
    | .sram => do
      if size = .word then
        eccForget (· == a)
        putBytes a (leBytes n v.toNat)
        return .ok 0
      else if ← sramCheck a then
        putBytes a (leBytes n v.toNat)
        return .ok 0
      else return .ecc
    | .cells => do
      if s.cellWritable m a then putBytes a (leBytes n v.toNat) else setFlt fbufPage fltState
      return .ok 0
    | .pages =>
      if (pageRows (pageOf a)).isNone then return .bus
      else do
        regWrite m size (a / 4 * 4) v
        return .ok 0
    | .private_ =>
      if s.privOk m then do
        regWrite m size (a / 4 * 4) v
        return .ok 0
      else return .bus

/-- REGISTER_WRITE (R308, R309): a bus write of a register page; elsewhere the command names no register. -/
def execRegisterWrite (m : Master) (size : Size) (a v : Word) (s : State) : Host.Outcome State Fault Refusal := cmd s do
  if (pageRows (pageOf a.toNat)).isSome && a.toNat % accLen size == 0 then
    let _ ← busWrite m size a.toNat v

/-! ### DMA (R297–R299) -/

/-- The width of channel n's elements. -/
def State.dmaWidth (s : State) (n : Nat) : Size :=
  match s.fld (DMA_CFG_SIZE n) with
  | 0 => .byte
  | 1 => .half
  | _ => .word

/-- An uncorrectable error found at a source address is counted where its memory counts it (R272, R277). -/
def countUncorr (a : Nat) : M Unit := do
  let s ← getS
  match s.rangeOf a with
  | some ⟨_, _, .sram⟩ => stat 0x15
  | some ⟨_, _, .flash⟩ => setFld FLASHC_ECC_UNCORR (min 0xFFFF (s.fld FLASHC_ECC_UNCORR + 1))
  | _ => nop

/-- Channel n, the lowest with an element to move, moves it (R298, R299); a read that has to wait leaves all as it is (R295; log
entry 131). -/
def dmaElement (n : Nat) (uncorrectable : Bool) : M Unit := do
  let s ← getS
  if (List.range 8).find? (fun k => s.dmaOn k && (s.dma k).active) = some n then
    let i := (s.dma n).idx
    let sz := s.dmaSize n
    let cnt := s.fld (DMA_CNT_CNT n)
    let src := (s.reg (DMA_SRC n)).toNat + (if s.bit (DMA_CFG_SFIX n) then 0 else i * sz)
    let dst := (s.reg (DMA_DST n)).toNat + (if s.bit (DMA_CFG_DFIX n) then 0 else i * sz)
    let m := Master.dma (Fin.ofNat 8 n)
    if s.windowWaits src then return
    let got ← if uncorrectable then (do
        countUncorr src
        return BusEnd.ecc)
      else busRead m (s.dmaWidth n) src
    match got with
    | .bus | .ecc => dmaComplete n stInternal
    | .ok v =>
      match ← busWrite m (s.dmaWidth n) dst v with
      | .bus | .ecc => dmaComplete n stInternal
      | .ok _ =>
        perf dmaPage (0x40 + n) 1
        let t ← getS
        if t.dmaOn n then
          setFld (DMA_STAT_LEFT n) (cnt - (i + 1))
          if cnt ≤ i + 1 then dmaComplete n stOk
          else modDma n fun _ => { active := s.dmaTrig n != 1, idx := i + 1 }

/-- DMA_ELEMENT (R298, R299). -/
def execDmaElement (n : Fin 8) (uncorrectable : Bool) (s : State) : Host.Outcome State Fault Refusal :=
  cmd s (dmaElement n uncorrectable)

end Sys2Proof.Machine
end

