-- ==== Sys2Proof/Machine/Flags.lean ====
section
/-!
DEFINITION. The Stroke core's flags: what each instruction leaves in N, Z, C and V, and the results that go with them
(R239, R244–R247).
-/
namespace Sys2Proof.Machine

/-- The flags an instruction writes; those it does not name are unchanged (R245). -/
structure FlagOut where
  n : Option Bool := none
  z : Option Bool := none
  c : Option Bool := none
  v : Option Bool := none
  deriving DecidableEq, Repr

/-- ST's flags (R239). -/
def stN (st : Word) : Bool := bitOf st.toNat 31
def stZ (st : Word) : Bool := bitOf st.toNat 30
def stC (st : Word) : Bool := bitOf st.toNat 29
def stV (st : Word) : Bool := bitOf st.toNat 28

/-- Write one flag of ST, or leave it. -/
def putFlag (st : Word) (i : Nat) (f : Option Bool) : Word :=
  match f with
  | some b => bitsPut st i i (b2n b)
  | none => st

/-- ST with the flags an instruction writes. -/
def FlagOut.put (f : FlagOut) (st : Word) : Word :=
  putFlag (putFlag (putFlag (putFlag st 31 f.n) 30 f.z) 29 f.c) 28 f.v

/-- N and Z of a result. -/
def nzOf (r : Word) : FlagOut := { n := some (bitOf r.toNat 31), z := some (r == 0) }

/-- A sum with a carry in: N, Z, C and V (R244, R245). -/
def addOp (a b : Word) (c : Bool) : Word × FlagOut :=
  let r : Word := BitVec.ofNat 32 (a.toNat + b.toNat + b2n c)
  (r, { nzOf r with c := some (decide (2 ^ 32 ≤ a.toNat + b.toNat + b2n c))
                    v := some (a.toInt + b.toInt + (b2n c : Nat) != r.toInt) })

/-- A difference less a borrow where `c` is clear; C is 1 for no borrow (R239, R245). -/
def subOp (a b : Word) (c : Bool) : Word × FlagOut :=
  let r : Word := a - b - BitVec.ofNat 32 (1 - b2n c)
  (r, { nzOf r with c := some (decide (b.toNat + (1 - b2n c) ≤ a.toNat))
                    v := some (a.toInt - b.toInt - (1 - b2n c : Nat) != r.toInt) })

/-- A result with N and Z only. -/
def plainOp (r : Word) : Word × FlagOut := (r, nzOf r)

/-- N, Z and the last bit out of a shift, none for an amount of 0 (R245). -/
def shiftOut (r : Word) (c : Option Bool) : Word × FlagOut := (r, { nzOf r with c := c })

/-- SHL, SHR, SAR and ROR by 0–31 (R245). -/
def shlOp (a : Word) (n : Nat) : Word × FlagOut :=
  shiftOut (a <<< n) (if n = 0 then none else some (bitOf a.toNat (32 - n)))
def shrOp (a : Word) (n : Nat) : Word × FlagOut :=
  shiftOut (a >>> n) (if n = 0 then none else some (bitOf a.toNat (n - 1)))
def sarOp (a : Word) (n : Nat) : Word × FlagOut :=
  shiftOut (a.sshiftRight n) (if n = 0 then none else some (bitOf a.toNat (n - 1)))
def rorOp (a : Word) (n : Nat) : Word × FlagOut :=
  shiftOut (a.rotateRight n) (if n = 0 then none else some (bitOf a.toNat (n - 1)))

/-- The low and the high half of a product (R245). -/
def mulOp (a b : Word) : Word × FlagOut := plainOp (a * b)
def mulhOp (a b : Word) : Word × FlagOut := plainOp (BitVec.ofInt 32 (a.toInt * b.toInt / (2 ^ 32 : Int)))
def mulhuOp (a b : Word) : Word × FlagOut := plainOp (BitVec.ofNat 32 (a.toNat * b.toNat / 2 ^ 32))

/-- Signed overflow of a division: 0x8000_0000 by −1 (R247). -/
def divOver (a b : Word) : Bool := a == 0x80000000 && b == 0xFFFFFFFF

/-- N, Z and the V of R247. -/
def divOut (r : Word) (v : Bool) : Word × FlagOut := (r, { nzOf r with v := some v })

/-- DIV, DIVU, REM and REMU with the cases of R247. -/
def divOp (a b : Word) : Word × FlagOut :=
  if b = 0 then divOut 0xFFFFFFFF true
  else if divOver a b then divOut 0x80000000 true
  else divOut (BitVec.ofInt 32 (a.toInt.tdiv b.toInt)) false
def divuOp (a b : Word) : Word × FlagOut :=
  if b = 0 then divOut 0xFFFFFFFF true else divOut (BitVec.ofNat 32 (a.toNat / b.toNat)) false
def remOp (a b : Word) : Word × FlagOut :=
  if b = 0 then divOut a true
  else if divOver a b then divOut 0 true
  else divOut (BitVec.ofInt 32 (a.toInt.tmod b.toInt)) false
def remuOp (a b : Word) : Word × FlagOut :=
  if b = 0 then divOut a true else divOut (BitVec.ofNat 32 (a.toNat % b.toNat)) false

/-- The bits a number needs. -/
def bitLen (n : Nat) : Nat := if n = 0 then 0 else Nat.log2 n + 1

/-- The cycles of a division (R267): of magnitudes for DIV and REM, of the values for DIVU and REMU. -/
def divCycles (a b : Nat) : Nat := if b = 0 then 2 else 2 + ceilDiv (min 32 (bitLen a + 1 - bitLen b)) 2

/-- Sign extension of the low n bits. -/
def sextOf (n : Nat) (a : Word) : Word := BitVec.ofInt 32 (signed n a.toNat)

/-- The leading zero bits of a word, 0–32 (R245). -/
def clzOf (a : Word) : Word := BitVec.ofNat 32 (32 - bitLen a.toNat)

/-- Does condition c hold (R247)? -/
def condHolds (c : Nat) (st : Word) : Bool :=
  match c with
  | 0 => stZ st
  | 1 => !stZ st
  | 2 => stC st
  | 3 => !stC st
  | 4 => stN st
  | 5 => !stN st
  | 6 => stV st
  | 7 => !stV st
  | 8 => stC st && !stZ st
  | 9 => !stC st || stZ st
  | 10 => stN st == stV st
  | 11 => stN st != stV st
  | 12 => !stZ st && stN st == stV st
  | 13 => stZ st || stN st != stV st
  | _ => true

end Sys2Proof.Machine
end

