-- ==== Sys2Proof/Machine/Operands.lean ====
section
/-!
DEFINITION. The Stroke core's operands: instruction words from their fields, memory protection, breakpoints, and the core's
data accesses (R242, R248, R264–R267, R474, R482).
-/
namespace Sys2Proof.Machine
open Sys2Proof.Reg

/-! ### Instruction words (R242) -/

/-- The word of an ALU instruction, by its FN (R244, R245). -/
def regWord (fn : Nat) (o : RegOps) : Word :=
  BitVec.ofNat 32 (o.rd.val * 2 ^ 22 + o.ra.val * 2 ^ 18 + o.rb.val * 2 ^ 14 + b2n o.s * 2 ^ 13 + fn * 2 ^ 7
    + o.res.toNat * 2 ^ 5 + o.sh.val)

/-- The word of an IMM instruction, by its major opcode. -/
def immWord (op : Nat) (o : ImmOps) : Word :=
  BitVec.ofNat 32 (op * 2 ^ 26 + o.rd.val * 2 ^ 22 + o.ra.val * 2 ^ 18 + b2n o.s * 2 ^ 17 + b2n o.res * 2 ^ 16 + o.imm.toNat)

/-- The word of LD or ST. -/
def memWordOf (op : Nat) (o : MemOps) : Word :=
  BitVec.ofNat 32 (op * 2 ^ 26 + o.rd.val * 2 ^ 22 + o.ra.val * 2 ^ 18 + o.sz.toNat * 2 ^ 16 + b2n o.sx * 2 ^ 15
    + b2n o.res * 2 ^ 14 + o.off.toNat)

/-- The word of a branch or CALL. -/
def brWord (op : Nat) (o : BrOps) : Word := BitVec.ofNat 32 (op * 2 ^ 26 + o.res.toNat * 2 ^ 24 + o.disp.toNat)

/-- The word of a special (0x18) or string (0x19) instruction. -/
def spcWord (op fn : Nat) (o : SpcOps) : Word :=
  BitVec.ofNat 32 (op * 2 ^ 26 + fn * 2 ^ 21 + o.r.val * 2 ^ 17 + o.x.toNat)

/-- The word of CALLM or RETM. -/
def callmWord (op : Nat) (o : CallmOps) : Word := BitVec.ofNat 32 (op * 2 ^ 26 + o.a.toNat * 2 ^ 17 + o.x.toNat)

/-! ### Who accesses (R240, R278) -/

/-- The core as a bus master: code at ROM addresses or elsewhere. -/
def State.coreMaster (s : State) : Master := .core (decide (s.core.pc.toNat < 0x10000))

/-- The core's clock runs on: CYCLE counts, and the cycles in SYS mode (R238, R457). -/
def cyc (n : Nat) : M Unit := do
  modCore fun c => { c with cycle := c.cycle + BitVec.ofNat 32 n }
  let s ← getS
  if s.sysMode then perf intcPage 0x46 n

/-! ### Memory protection (R265) -/

/-- Does enabled region i of the MPU contain an address? -/
def State.mpuHas (s : State) (i a : Nat) : Bool :=
  s.bit (MPU_RLIM_EN i) && decide (s.fld (MPU_RBASE_BASE i) ≤ a / 32) && decide (a / 32 ≤ s.fld (MPU_RLIM_LIMIT i))

/-- Does the MPU permit a TASK access to an address, where `need` is the grant (R265)? -/
def State.mpuTask (s : State) (need : Nat → Fld) (a : Nat) : Bool :=
  if !s.bit MPU_CTRL_EN then true
  else match ((List.range 16).reverse).find? fun i => s.mpuHas i a with
    | some i => s.bit (need i)
    | none => false

/-- Does it permit a SYS access: checked against the regions with S alone (R265; log entry 80)? -/
def State.mpuSys (s : State) (need : Nat → Fld) (a : Nat) : Bool :=
  if !s.bit MPU_CTRL_EN then true
  else match ((List.range 16).reverse).find? fun i => s.mpuHas i a && s.bit (MPU_RLIM_S i) with
    | some i => s.bit (need i)
    | none => true

/-- Does it permit an access of the present mode? -/
def State.mpuOk (s : State) (need : Nat → Fld) (a : Nat) : Bool :=
  if s.sysMode then s.mpuSys need a else s.mpuTask need a

/-! ### Breakpoints (R474, R482) -/

/-- Does comparator n match an access of one of the kinds at an address? -/
def State.bpMatch (s : State) (kinds : List Nat) (a n : Nat) : Bool :=
  s.bit (BP_CTL_EN n) && decide (s.fld (BP_CTL_KIND n) ∈ kinds)
    && a / 2 ^ s.fld (BP_CTL_MASK n) == (s.reg (BP_ADDR n)).toNat / 2 ^ s.fld (BP_CTL_MASK n)

/-- Is BRK to be raised for an access? A match while HOLD is 1 is only counted (R474). -/
def bpHit (kinds : List Nat) (a : Nat) : M Bool := do
  let s ← getS
  let hits := (List.range 4).filter fun n => s.bpMatch kinds a n
  if hits.isEmpty then return false
  else if bitOf s.core.st.toNat 6 then
    setFld BP_STAT_MISSED (min 0xFFFF (s.fld BP_STAT_MISSED + 1))
    return false
  else
    setFld BP_STAT_HIT (hits.foldl bitSet (s.fld BP_STAT_HIT))
    return true

/-! ### Exceptions, as a cause -/

/-- A synchronous exception's cause: vector, KIND and FADDR (R256, R257). -/
structure Cause where
  v : Nat
  kind : Nat
  addr : Word
  deriving DecidableEq, Repr

abbrev vIllegal : Nat := 1
abbrev vPriv : Nat := 2
abbrev vAlign : Nat := 3
abbrev vIfault : Nat := 4
abbrev vDfault : Nat := 5
abbrev vSvc : Nat := 6
abbrev vBrk : Nat := 7
abbrev vEcc : Nat := 8
abbrev kNone : Nat := 0
abbrev kRead : Nat := 1
abbrev kWrite : Nat := 2
abbrev kFetch : Nat := 3
abbrev kSlot : Nat := 4
abbrev kReserved : Nat := 5
abbrev kPriv : Nat := 6

/-- The cause of a reserved encoding, of a privileged instruction in TASK mode, of BRK. -/
def illegal : Cause := ⟨vIllegal, kReserved, 0⟩
def privileged : Cause := ⟨vPriv, kPriv, 0⟩
def brkCause : Cause := ⟨vBrk, kNone, 0⟩

/-! ### Data accesses (R248, R249, R265, R270, R274, R474) -/

/-- No exception: the access waits for the external flash controller, and the instruction is still to be done (R295; log entry
131). -/
def stalled : Cause := ⟨0, kNone, 0⟩

/-- Would the bus refuse an access at an address, whatever it reads (R270)? -/
def State.busRefuses (s : State) (m : Master) (write : Bool) (a : Nat) : Bool :=
  match s.rangeOf a with
  | none => true
  | some r =>
    match r.kind with
    | .rom | .flash | .window _ => write
    | .sram | .cells => false
    | .pages => (pageRows (pageOf a)).isNone
    | .private_ => !s.privOk m

/-- What stops a data access before it is made: alignment, the MPU as `p`, the state the instruction began in, has it (a write
of its registers acts from the next instruction on, R265), a breakpoint, the bus (log entry 81 for the order). -/
def accessStop (p : State) (write : Bool) (n : Nat) (a : Word) : M (Option Cause) := do
  let s ← getS
  let k := if write then kWrite else kRead
  if a.toNat % n ≠ 0 then return some ⟨vAlign, k, a⟩
  else if !p.mpuOk (if write then MPU_RLIM_W else MPU_RLIM_R) a.toNat then return some ⟨vDfault, k, a⟩
  else if !write && s.windowWaits a.toNat then return some stalled
  else if ← bpHit (if write then [2, 3] else [1, 3]) a.toNat then return some brkCause
  else if s.busRefuses s.coreMaster write a.toNat then return some ⟨vDfault, k, a⟩
  else return none

/-- The cycles a data access takes (R267): 1 in SRAM, 2 in the frame buffer, 4–8 at a register page and more while its
gate is closed; the spec gives none elsewhere (log entry 84). -/
def accessCycles (a : Nat) : M Nat := do
  let s ← getS
  match s.rangeOf a with
  | some ⟨_, _, .sram⟩ => return 1
  | some ⟨_, _, .cells⟩ => return 2
  | some ⟨_, _, .pages⟩ =>
    let n ← freeIn 4 8
    if pageOf a ∈ s.dev.gates then return n else return n + (← freeNat)
  | _ => return 1 + (← freeNat)

/-- The core's bus read, once nothing stops it before. -/
def coreGet (size : Size) (a : Word) : M (Except Cause Word) := do
  let s ← getS
  match ← busRead s.coreMaster size a.toNat with
  | .ok v => return .ok v
  | .bus => return .error ⟨vDfault, kRead, a⟩
  | .ecc => return .error ⟨vEcc, kRead, a⟩

/-- The core's bus write, once nothing stops it before. -/
def corePut (size : Size) (a : Word) (v : Word) : M (Option Cause) := do
  let s ← getS
  match ← busWrite s.coreMaster size a.toNat v with
  | .ok _ => return none
  | .bus => return some ⟨vDfault, kWrite, a⟩
  | .ecc => return some ⟨vEcc, kWrite, a⟩

/-- The core reads at an address, in an instruction that began in `p`; a stop leaves everything as it was. -/
def coreRead (p : State) (size : Size) (a : Word) : M (Except Cause Word) := do
  match ← accessStop p false (accLen size) a with
  | some c => return .error c
  | none => coreGet size a

/-- The core writes at an address, in an instruction that began in `p`. -/
def coreWrite (p : State) (size : Size) (a : Word) (v : Word) : M (Option Cause) := do
  match ← accessStop p true (accLen size) a with
  | some c => return some c
  | none => corePut size a v

/-- Would an access find an uncorrectable error (R272, R277)? A write of a whole SRAM word reads nothing. -/
def State.accessFails (s : State) (write : Bool) (size : Size) (a : Nat) : Bool :=
  match s.rangeOf a with
  | some ⟨_, _, .sram⟩ => (!write || size != .word) && decide (a / 4 * 4 ∈ s.dev.eccBad)
  | some ⟨_, _, .flash⟩ => !write && decide (a / 16 * 16 ∈ s.dev.eccBad)
  | _ => false

/-- What would stop an access, found without making it: a string element's accesses are all looked at before any is made (R255). -/
def accessCheck (p : State) (write : Bool) (size : Size) (a : Word) : M (Option Cause) := do
  match ← accessStop p write (accLen size) a with
  | some c => return some c
  | none =>
    let s ← getS
    if s.accessFails write size a.toNat then
      match ← coreGet size a with
      | .error c => return some { c with kind := if write then kWrite else kRead }
      | .ok _ => return none
    else return none

/-- The access width of an SZ code (R248); 3 is reserved. -/
def sizeOf (sz : Nat) : Size :=
  match sz with
  | 0 => .byte
  | 1 => .half
  | _ => .word

end Sys2Proof.Machine
end

