-- ==== Sys2Proof/Machine/Trap.lean ====
section
/-!
DEFINITION. How an instruction runs: its fetch, the load slot, its retirement, and taking an exception (R243, R250, R251,
R256–R260, R265, R267, R274, R474, R475).
-/
namespace Sys2Proof.Machine
open Sys2Proof.Reg

/-! ### Taking an exception (R256, R257) -/

/-- Enter the handler of a vector: the shadows, the status, the vector's word. `pl` is an interrupt's priority; `at_` an
entry that does not read the vector table. -/
def enter (v : Nat) (xpc : Word) (pl : Option Nat) (at_ : Option Word) : M Unit := do
  let s ← getS
  modCore fun c =>
    let st := bitsPut (bitsPut (bitsPut c.st 0 0 1) 7 7 0) 6 6 1
    { c with xpc := xpc, xst := c.st, slot := none
             st := match pl with | some p => bitsPut st 11 8 p | none => st }
  cyc 5
  match at_ with
  | some a => modCore fun c => { c with pc := a }
  | none =>
    match ← busRead s.coreMaster .word ((s.core.vbase + BitVec.ofNat 32 (4 * v)).toNat) with
    | .ok w => modCore fun c => { c with pc := w }
    | _ => lockup

/-- Where BRK goes while BP_MON.ROUTE is 1, and the ROM services' entry (R258, R474). -/
abbrev romBrk : Word := 0x50
abbrev romSvc : Word := 0x40

/-- Raise a synchronous exception; with HOLD = 1 it is a lockup (R260). BRK routed to the ROM starts the monitor's hold on
the program it stopped (R471, R474). -/
def raise (c : Cause) (xpc : Word) (at_ : Option Word) : M Unit := do
  let s ← getS
  if bitOf s.core.st.toNat 6 then lockup
  else
    perf intcPage 0x45 1
    modCore fun x => { x with xcause := BitVec.ofNat 32 (c.v + 256 * c.kind), faddr := c.addr }
    if c.v = vBrk ∧ s.bit BP_MON_ROUTE then
      enter c.v xpc none (some romBrk)
      modDev fun d =>
        { d with sys := { d.sys with phase := .monitor }
                 mon := { d.mon with pc := xpc
                                     st := if d.mon.steps ≠ 0 ∧ d.mon.ie then bitsPut s.core.st 7 7 1 else s.core.st } }
    else enter c.v xpc none at_

/-! ### Fetch (R256, R265, R267, R277, R474) -/

/-- May a range be fetched from (R269)? -/
def fetchable : RangeKind → Bool
  | .rom | .flash | .sram | .window _ => true
  | _ => false

/-- A line enters the instruction cache of 256 sets of two (R267); which of a full set goes is open (log entry 85). -/
def cacheFill (ln : Nat) : M Unit := do
  let s ← getS
  let set := s.core.icache.filter fun e => e.1 % 256 == ln % 256
  let k ← if set.length < 2 then pure 2 else freeNat
  let out := if set.length < 2 then none else (set[k % 2]?).map (·.1)
  let words := (List.range 8).map fun i => s.memWord (32 * ln + 4 * i)
  modCore fun c => { c with icache := (ln, words) :: c.icache.filter fun e => some e.1 != out }

/-- The fetch of the instruction at PC; answers what stops it. A fetch that hits the cache goes no further (R277). -/
def fetch : M (Option Cause) := do
  let s ← getS
  let a := s.core.pc.toNat
  let fault : Cause := ⟨vIfault, kFetch, s.core.pc⟩
  match s.rangeOf a with
  | none => return some fault
  | some r =>
    if !fetchable r.kind || !s.mpuOk MPU_RLIM_X a then return some fault
    else if s.windowWaits a && !(s.core.icache.any fun e => e.1 == a / 32) then return some stalled
    else if ← bpHit [0] a then return some brkCause
    else if r.kind = .sram then
      if ← sramCheck a then return none else return some ⟨vEcc, kFetch, s.core.pc⟩
    else if s.core.icache.any fun e => e.1 == a / 32 then return none
    else
      perf intcPage 0x41 1
      cyc (← freeNat)
      match ← busRead s.coreMaster .word a with
      | .ok _ =>
        cacheFill (a / 32)
        return none
      | _ => return some fault

/-! ### Running (R250, R251, R475) -/

/-- How an instruction's execution ends. -/
inductive Done where
  /-- Execution goes on at the next instruction. -/
  | next
  | goto (pc : Word)
  /-- LD: the value reaches its register after the next instruction (R250). -/
  | load (rd : Nat) (v : Word)
  /-- A synchronous exception whose XPC is the instruction. -/
  | stop (c : Cause)
  /-- SVC: its XPC is the next instruction (R256). -/
  | svc (n : Nat)
  /-- A string instruction yields to an interrupt after an element (R255). -/
  | again
  /-- A string instruction is complete; its elements have been counted (R457). -/
  | ended

/-- The instruction completes: the load slot before it is written, PC moves (R250). -/
def retire (next : Word) (slot : Option LdSlot) : M Unit := do
  let s ← getS
  match s.core.slot with
  | some l => setG l.rd l.val
  | none => nop
  modCore fun c => { c with pc := next, slot := slot, insn := false }

/-- The program the monitor holds goes on from its saved PC and ST, with IE at 0 where it steps (R472, R475). -/
def monResume : M Unit := do
  let s ← getS
  let m := s.dev.mon
  setFld BP_STEP_STEP (b2n (m.steps != 0))
  modCore fun c => { c with pc := m.pc, st := if m.steps ≠ 0 then bitsPut m.st 7 7 0 else m.st, slot := none, run := .run }
  modDev fun d =>
    { d with sys := { d.sys with phase := .firmware }, mon := { d.mon with ie := bitOf m.st.toNat 7 } }

/-- The monitor after a stepped instruction: the next step, while steps are left (R475). -/
def monStepped : M Unit := do
  let s ← getS
  if s.dev.sys.phase = .monitor ∧ s.dev.mon.steps ≠ 0 then
    modDev fun d => { d with mon := { d.mon with steps := d.mon.steps - 1 } }
    if 1 < s.dev.mon.steps then monResume else setFld BP_STEP_STEP 0

/-- A BRK after a stepped instruction (R475), not raised while HOLD is 1 (log entry 83). -/
def stepBrk (stepped : Bool) : M Unit := do
  let s ← getS
  if stepped && !bitOf s.core.st.toNat 6 then
    setFld BP_STAT_STEPHIT 1
    raise brkCause s.core.pc none
    monStepped

/-- The SVC numbers the chapters define (R229, R279, R468). -/
def svcKnown (n : Nat) : Bool := decide (0xF000 ≤ n ∧ n ≤ 0xF006) || n == 0xF010 || n == 0xF011

/-- RETX's effect where XPC is aligned (R259). -/
def retx : M Unit := modCore fun c => { c with pc := c.xpc, st := c.xst, svc := none }

/-- SVC (R258): from 0xF000 on the ROM's services, where a number assigned nowhere returns PARAM (R279). -/
def serviceCall (n : Nat) (next : Word) : M Unit := do
  if n < 0xF000 then raise ⟨vSvc, kNone, 0⟩ next none
  else
    let s ← getS
    raise ⟨vSvc, kNone, 0⟩ next (some romSvc)
    if !bitOf s.core.st.toNat 6 then
      modCore fun c => { c with svc := some n }
      if !svcKnown n then
        setG 0 (BitVec.ofNat 32 stParam)
        retx

/-- Does the core execute: its clock runs, and the ROM's unmodelled code does not hold it (R389, R410, R471)? -/
def State.executes (s : State) : Bool :=
  s.core.run == .run && (s.dev.sys.phase == .rom || s.dev.sys.phase == .firmware)

/-- Run one instruction: `word` is its encoding, `bad` that the encoding is reserved (R243), `forbid` that the load slot
may not hold it (R251). A fault in the slot names the LD before it and suppresses its write-back (R251). -/
def insn (word : Word) (bad forbid : Bool) (body : M Done) : M Unit := do
  let s ← getS
  if s.executes then
    let pc := s.core.pc
    let slot := s.core.slot
    let stepped := s.bit BP_STEP_STEP
    let back := match slot with | some l => l.pc | none => pc
    let fault (c : Cause) : M Unit := do
      modCore fun x => { x with insn := false }
      if c = stalled then cyc (← freeNat)
      else
        tallySample pc word s.core.cycle slot.isSome true
        raise c back none
    match ← fetch with
    | some c => fault c
    | none =>
      if bad then fault illegal
      else if forbid && slot.isSome then
        retire pc none
        tallySample pc word s.core.cycle true true
        raise ⟨vIllegal, kSlot, 0⟩ pc none
      else
        modCore fun x => { x with insn := true }
        match ← body with
        | .stop c => fault c
        | .again =>
          modCore fun x => { x with insn := false }
          tallySample pc word s.core.cycle slot.isSome false
        | .ended =>
          let t ← getS
          tallySample pc word s.core.cycle slot.isSome false
          if t.core.insn then
            retire (pc + 4) none
            stepBrk stepped
        | d =>
          let t ← getS
          perf intcPage 0x40 1
          tallySample pc word s.core.cycle slot.isSome false
          if t.core.insn then
            match d with
            | .goto a =>
              retire a none
              stepBrk stepped
            | .load rd v => retire (pc + 4) (some ⟨rd, v, pc⟩)
            | .svc n =>
              retire (pc + 4) none
              serviceCall n (pc + 4)
            | _ =>
              retire (pc + 4) none
              stepBrk stepped

/-- A privileged instruction: in TASK mode it raises PRIV (R240). -/
def sysOnly (body : M Done) : M Done := do
  let s ← getS
  if s.sysMode then body else return .stop privileged

/-- INTERRUPT_ACCEPT (R251, R257, R262): at an instruction boundary, never between LD and its slot. -/
def acceptInterrupt : M Unit := do
  let s ← getS
  if s.executes && s.core.slot.isNone then
    match s.wouldAccept (bitOf s.core.st.toNat 7) with
    | none => nop
    | some n =>
      perf intcPage 0x44 1
      clearLine n
      enter (32 + n) s.core.pc (some (s.linePrio n)) none

/-- INTERRUPT_ACCEPT. -/
def execInterruptAccept (s : State) : Host.Outcome State Fault Refusal := cmd s acceptInterrupt

end Sys2Proof.Machine
end

