-- ==== Sys2Proof/Machine/Flash.lean ====
section
/-!
DEFINITION. On-chip flash: the ROM flash service, the journal, the frame-counter records and the logbook ring (R228–R230,
R275–R291, R464–R470). A command of a service is one call of it; where the core stands at the services' entry the call
returns to its caller.
-/
namespace Sys2Proof.Machine
open Sys2Proof.Reg

/-! ### Units (R275, R276, R280, R286) -/

/-- The pulses above which an erase is WEAR_WARN, and the most it may take (R276). -/
def warnPulses (u : Nat) : Nat := if u < 16 then 135 else 675
def maxPulses (u : Nat) : Nat := if u < 16 then 200 else 2000

/-- Is an address range inside on-chip flash? -/
def inFlash (a n : Nat) : Bool := decide (0x01000000 ≤ a) && decide (a + n ≤ 0x01400000)

/-- A unit that only the ROM's own paths reach, or a block of the committed image (R280). -/
def State.unitLocked (s : State) (u : Nat) : Bool :=
  decide (u < 4) || decide (12 ≤ u ∧ u < 16)
    || (decide (16 ≤ u) && s.bit FLASHC_IMG_VALID && decide (s.fld FLASHC_IMGFIRST_FIRST ≤ u - 16)
        && decide (u - 16 ≤ s.fld FLASHC_IMG_LAST))

/-- The least supply of a program or an erase, in mV (R280). -/
abbrev vFlash : Nat := 2800

def setUnit (u : Nat) (f : FlashUnit → FlashUnit) : M Unit :=
  modFlash fun x => { x with units := Sparse.upd {} x.units u f }

/-- A unit reads erased again. -/
def blankUnit (u : Nat) : M Unit := do
  let hit (a : Nat) : Bool := decide (unitBase u ≤ a) && decide (a < unitBase u + unitSize u)
  act (.memClear hit)
  eccForget hit

/-- Does a stretch of flash read all 0xFF, and correctably (R281)? -/
def State.blankAt (s : State) (a n : Nat) : Bool :=
  (s.bytes a n).all (· == 0xFF) && !(s.dev.eccBad.any fun x => decide (a ≤ x) && decide (x < a + n))

/-- The instruction cache is invalidated. -/
def dropCache : M Unit := modCore fun c => { c with icache := [] }

/-- A program or erase of a block takes the AO image-verified token away (R375). -/
def dropToken (u : Nat) : M Unit := if 16 ≤ u then modPwr fun p => { p with token := false } else nop

/-! ### Journal (R287, R288) -/

/-- The record types. -/
abbrev jStart : Nat := 1
abbrev jDone : Nat := 2
abbrev jFail : Nat := 3
abbrev jSnapshot : Nat := 4
abbrev jOpenRec : Nat := 5

/-- A record's 16 octets (R287). -/
def jRecord (type unit pulses count seq : Nat) : List Byte :=
  let l := leBytes 1 type ++ leBytes 1 unit ++ leBytes 2 pulses ++ leBytes 4 count ++ leBytes 4 seq
  l ++ leBytes 4 (crc32 l)

/-- Write the next record of the active sector. -/
def jPut (type unit pulses count : Nat) : M Unit := do
  let s ← getS
  let f := s.dev.flash
  putBytes (unitBase f.jSector + 16 * f.jNext) (jRecord type unit pulses count f.jSeq)
  modFlash fun x => { x with jNext := f.jNext + 1, jSeq := (f.jSeq + 1) % 2 ^ 32 }

/-- Open a blank sector: OPEN and the 79 snapshots (R288). -/
def jOpenSector (k : Nat) : M Unit := do
  modFlash fun x => { x with jSector := k, jNext := 0, jOpen := true }
  jPut jOpenRec 0xFF 0 0
  forAll (List.range 79) fun u => do
    let s ← getS
    let x := s.unit u
    jPut jSnapshot u (x.pulses % 2 ^ 14 + b2n x.torn * 2 ^ 14 + b2n (decide (u ∈ s.bad)) * 2 ^ 15) x.count

/-- How an erase stands in FLASHC_STAT once it has ended (R282, R292). -/
def showErase (u pulses st : Nat) : M Unit := do
  setFld FLASHC_STAT_UNIT u
  setFld FLASHC_STAT_PULSES pulses
  setFld FLASHC_STAT_LAST st
  emit flashcPage 0x58
  pulse 1

/-- An erase by the ROM itself, from its start to its end: the pulses it takes, and whether the unit checks blank within them
or goes BAD (R276, R282), are the device's, and open (log entry 65). Answers whether it is blank. -/
def romEraseBare (u : Nat) : M Bool := do
  dropToken u
  setUnit u fun x => { x with count := x.count + 1 }
  let s ← getS
  jPut jStart u 0 (s.unit u).count
  let bad ← freeNat
  let n ← freeIn 1 (maxPulses u)
  if bad % 2 = 0 then
    blankUnit u
    setUnit u fun x => { x with pulses := n, torn := false, reached := 0 }
    jPut jDone u n (s.unit u).count
    showErase u n (if warnPulses u < n then stWearWarn else stOk)
    dropCache
    return true
  else
    act (.bad u)
    setUnit u fun x => { x with pulses := maxPulses u, torn := false, reached := 0 }
    jPut jFail u (maxPulses u) (s.unit u).count
    showErase u (maxPulses u) stEraseFail
    dropCache
    return false

/-- Make room for so many records: a full sector gives way to the other, and is erased (R288). -/
def jRoom (n : Nat) : M Unit := do
  let s ← getS
  let f := s.dev.flash
  if !f.jOpen then jOpenSector f.jSector
  else if 256 < f.jNext + n then
    jOpenSector (1 - f.jSector)
    let _ ← romEraseBare f.jSector

/-- Journal one record. -/
def jAppend (type unit pulses count : Nat) : M Unit := do
  jRoom 1
  jPut type unit pulses count

/-- An erase by the ROM itself. -/
def romErase (u : Nat) : M Bool := do
  jRoom 2
  romEraseBare u

/-! ### The journal as a start reads it (R287–R289) -/

/-- Record i of journal sector k. -/
def State.jRec (s : State) (k i : Nat) : List Byte := s.bytes (unitBase k + 16 * i) 16

/-- Is a record good: its type and unit as said, its CRC right? -/
def jGood (types : List Nat) (unit : Nat → Bool) (l : List Byte) : Bool :=
  decide (leNat (l.take 1) ∈ types) && unit (leNat (sliceOf l 1 1)) && leNat (sliceOf l 12 4) == crc32 (l.take 12)

def jSeqOf (l : List Byte) : Nat := leNat (sliceOf l 8 4)

/-- Does sector k begin with OPEN and the 79 snapshots, all good and in sequence (R288)? -/
def State.jWhole (s : State) (k : Nat) : Bool :=
  jGood [jOpenRec] (· == 0xFF) (s.jRec k 0)
    && (List.range 79).all fun u =>
      let l := s.jRec k (u + 1)
      jGood [jSnapshot] (· == u) l && jSeqOf l == (jSeqOf (s.jRec k 0) + u + 1) % 2 ^ 32

/-- The sector a start takes as active: of those that are whole, the one whose OPEN has the higher SEQ (R288). -/
def State.jActive (s : State) : Option Nat :=
  match s.jWhole 0, s.jWhole 1 with
  | true, true => some (if jSeqOf (s.jRec 0 0) < jSeqOf (s.jRec 1 0) then 1 else 0)
  | true, false => some 0
  | false, true => some 1
  | false, false => none

/-- One record read (R287): what it says of its unit; a START without what ends it leaves the unit torn (R289). -/
def jTake (l : List Byte) : M Unit := do
  let u := leNat (sliceOf l 1 1)
  let p := leNat (sliceOf l 2 2)
  let count := leNat (sliceOf l 4 4)
  match leNat (l.take 1) with
  | 1 => setUnit u fun x => { x with count := count, torn := true }
  | 2 => setUnit u fun x => { x with count := count, pulses := p, torn := false }
  | 3 => do
    setUnit u fun x => { x with count := count, pulses := p, torn := false }
    act (.bad u)
  | 4 => do
    setUnit u fun x => { x with count := count, pulses := p % 2 ^ 14, torn := bitOf p 14 }
    if bitOf p 15 then act (.bad u)
  | _ => nop

/-- The records of the active sector from the i-th on, up to the first that is not one. -/
def jWalk (k : Nat) : Nat → Nat → M Unit
  | 0, i => modFlash fun f => { f with jNext := i }
  | n + 1, i => do
    let s ← getS
    let l := s.jRec k i
    if jGood [jStart, jDone, jFail, jSnapshot, jOpenRec] (fun u => decide (u < 79) || u == 0xFF) l then
      jTake l
      modFlash fun f => { f with jSeq := (jSeqOf l + 1) % 2 ^ 32 }
      jWalk k n (i + 1)
    else modFlash fun f => { f with jNext := i }

/-- The ROM reads the journal at a start (R288, R289): the active sector, and what its records say of each unit. A switch that
was cut off is repeated, the other sector being blanked for it (log entry 129). With no whole sector the journal is as it was:
a device without one. -/
def jLoad : M Unit := do
  let s ← getS
  match s.jActive with
  | none => nop
  | some k =>
    modFlash fun f => { f with jSector := k, jOpen := true }
    jWalk k 256 0
    let t ← getS
    let other := 1 - k
    if !t.jWhole other && !(t.unit other).torn && !t.blankAt (unitBase other) 4096 && decide (other ∉ t.bad) then
      setUnit other fun x => { x with count := x.count + 1 }
      blankUnit other
      jOpenSector other
      let _ ← romEraseBare k

/-- The result of an erase that ended while the service was not there is journalled at its next call (R442). -/
def jOwed : M Unit := do
  let s ← getS
  match s.dev.flash.owed with
  | none => nop
  | some (u, st, n) =>
    modFlash fun f => { f with owed := none }
    jAppend (if st = stEraseFail then jFail else jDone) u n (s.unit u).count
    dropCache

/-! ### Calls (R279) -/

/-- Was the service called from TASK mode? -/
def State.callerTask (s : State) : Bool :=
  let st := if s.core.pc = romSvc then s.core.xst else s.core.st
  !bitOf st.toNat 0

/-- Has the caller read permission for n octets (R279)? -/
def State.mayRead (s : State) (a n : Nat) : Bool :=
  !s.callerTask || (List.range (n / 32 + 2)).all fun k => s.mpuTask MPU_RLIM_R (min (a + 32 * k) (a + n - 1))

/-- Service n is called: where the core stands at the services' entry, by the SVC that led there; elsewhere the command stands
for that SVC and what it leads to, a lockup while HOLD is 1 (R260, R279; log entry 130). -/
def called (n : Nat) (body : M Unit) : M Unit := do
  let s ← getS
  if s.executes then
    if s.core.pc = romSvc then
      if s.core.svc = some n then body
    else if bitOf s.core.st.toNat 6 then lockup
    else body

/-- One call of service n: what the ROM owes is journalled, the body answers the results, and the call returns. -/
def service (n : Nat) (body : M (List (Nat × Nat))) : M Unit := called n do
  let s ← getS
  jOwed
  let rs ← body
  forAll rs fun r => setG r.1 (BitVec.ofNat 32 r.2)
  if s.core.pc = romSvc then retx

/-- The status in g0. -/
def ret (st : Nat) (rs : List (Nat × Nat)) : List (Nat × Nat) := (0, st) :: rs

/-! ### PROGRAM (R280, R281, R291) -/

/-- The checks of R280 that PROGRAM and ERASE share, in their order, for a unit. -/
def State.targetCheck (s : State) (u : Nat) (erase : Bool) (vsys : Nat) : Nat :=
  let st := s.fld FLASHC_STAT_STATE
  if s.unitLocked u then stLocked
  else if st = 1 ∨ st = 3 ∨ s.dev.flash.prog.isSome ∨ (st = 2 ∧ (erase ∨ s.fld FLASHC_STAT_UNIT = u)) then stBusy
  else if u ∈ s.bad then stBadBlock
  else if !erase && (s.unit u).torn then stTorn
  else if vsys < vFlash then stLowSupply
  else stOk

/-- The first 16-B unit of a stretch that does not read erased. -/
def State.firstUsed (s : State) (a n : Nat) : Option Nat :=
  ((List.range (n / 16)).map fun i => a + 16 * i).find? fun b => !s.blankAt b 16

/-- PROGRAM's checks (R279–R281): the results it ends with before anything is programmed, if any. -/
def programStop (a src n vsys : Nat) : M (Option (List (Nat × Nat))) := do
  let s ← getS
  let ok := a % 16 == 0 && n % 16 == 0 && decide (16 ≤ n ∧ n ≤ 4096) && inFlash a n && src % 4 == 0
    && decide (0x20000000 ≤ src ∧ src + n ≤ 0x20080000) && unitOf a == unitOf (a + n - 1) && s.mayRead src n
  let st := if ok then s.targetCheck (unitOf a) false vsys else stParam
  if st ≠ stOk then return some (ret st [(1, 0), (2, 0)])
  else
    match s.firstUsed a n with
    | some b => return some (ret stParam [(1, 0), (2, b)])
    | none => return none

/-- One 16-B unit is programmed and verified, the i-th of the call: `lowAt` is where VSYS is found low, `failAt` where the
verify fails. Answers the status that ends the PROGRAM, if any. -/
def programUnit (a src : Nat) (failAt lowAt : Option Nat) (i : Nat) : M (Option Nat) := do
  if lowAt = some i then return some stLowSupply
  else if failAt = some i then
    spoilUnit (a + 16 * i)
    return some stProgFail
  else
    let s ← getS
    putBytes (a + 16 * i) (s.bytes (src + 16 * i) 16)
    return none

/-- The results of a PROGRAM of n units that ends with a status after i of them (R279, R281). -/
def programRet (a i st : Nat) : List (Nat × Nat) := ret st [(1, 16 * i), (2, if st = stOk then 0 else a + 16 * i)]

/-- Units in ascending order, without a window between them: the monitor's caller has IE at 0. -/
def programAll (a src : Nat) : Nat → Nat → M (List (Nat × Nat))
  | 0, i => pure (programRet a i stOk)
  | n + 1, i => do
    match ← programUnit a src none none i with
    | some st => return programRet a i st
    | none => programAll a src n (i + 1)

/-- PROGRAM for the monitor (R472). -/
def program (a src n vsys : Nat) : M (List (Nat × Nat)) := do
  match ← programStop a src n vsys with
  | some rs => return rs
  | none =>
    dropToken (unitOf a)
    let rs ← programAll a src (n / 16) 0
    dropCache
    return rs

/-- The core's PROGRAM ends: the results, the saved registers, and the caller goes on (R279, R281). -/
def progEnd (p : Prog) (i st : Nat) : M Unit := do
  if !p.ended then setFld FLASHC_STAT_STATE p.was
  modFlash fun f => { f with prog := none }
  dropCache
  forAll (programRet p.dst i st) fun r => setG r.1 (BitVec.ofNat 32 r.2)
  modCore fun c => { c with pc := p.back.1, st := p.back.2, xpc := p.keep.1, xst := p.keep.2, svc := none }

/-- Does the window after a unit open on an interrupt that is accepted (R262, R281)? The caller's IE was 1, and the ROM opens
the window with IE at 1 and HOLD at 0. -/
def State.windowTaken (s : State) (p : Prog) : Bool :=
  bitOf p.back.2.toNat 7
    && (match s.topLine with | some n => decide (s.linePrio n < s.pl) | none => false)

/-- PROGRAM stands between two units, the i-th next: the core in the ROM, the window open where the caller's IE was 1 (R281). -/
def progPause (p : Prog) (i : Nat) : M Unit := do
  modFlash fun f => { f with prog := some { p with done := i } }
  modCore fun c =>
    { c with pc := p.pc, svc := none
             st := if bitOf p.back.2.toNat 7 then bitsPut (bitsPut (bitsPut c.st 0 0 1) 7 7 1) 6 6 0 else c.st }

/-- PROGRAM goes on at unit i, for at most so many units (R281). An interrupt accepted in a window is taken there. -/
def progGo (p : Prog) (failAt lowAt : Option Nat) : Nat → Nat → M Unit
  | 0, i => progPause p i
  | k + 1, i => do
    match ← programUnit p.dst p.src failAt lowAt i with
    | some st => progEnd p i st
    | none =>
      let s ← getS
      if p.total ≤ i + 1 then progEnd p (i + 1) stOk
      else if s.windowTaken p then
        progPause p (i + 1)
        acceptInterrupt
      else progGo p failAt lowAt k (i + 1)

/-- A new PROGRAM (R279–R281); where in the ROM it goes on is open. -/
def progStart (vsys : Nat) (failAt lowAt steps : Option Nat) : M Unit := do
  jOwed
  let s ← getS
  let a := (s.g 1).toNat
  let src := (s.g 2).toNat
  let n := (s.g 3).toNat
  match ← programStop a src n vsys with
  | some rs =>
    forAll rs fun r => setG r.1 (BitVec.ofNat 32 r.2)
    if s.core.pc = romSvc then retx
  | none =>
    dropToken (unitOf a)
    let pc ← freeIn 0x400 0x3FFF
    let c := s.core
    let p : Prog := { dst := a, src := src, total := n / 16, was := s.fld FLASHC_STAT_STATE, pc := BitVec.ofNat 32 (4 * pc)
                      back := if c.pc = romSvc then (c.xpc, c.xst) else (c.pc, c.st), keep := (c.xpc, c.xst) }
    modFlash fun f => { f with prog := some p }
    setFld FLASHC_STAT_STATE 3
    progGo p failAt lowAt (steps.getD p.total) 0

/-- PROGRAM goes on after a window: the ROM's status and the registers it saved come back; a revoked one ends (R281, R443). -/
def progResume (p : Prog) (failAt lowAt steps : Option Nat) : M Unit := do
  if p.ended then progEnd p p.done stAborted
  else
    modCore fun c => { c with xpc := p.keep.1, xst := p.keep.2, st := bitsPut (bitsPut (bitsPut c.st 0 0 1) 7 7 0) 6 6 1 }
    progGo p failAt lowAt (steps.getD p.total) p.done

/-- PROGRAM: a call, or, where the core stands in the ROM between two of its units, how it goes on (log entry 64). -/
def execProgram (vsys : Nat) (failAt : Option Nat) (lowAt : Stretch) (s : State) : Host.Outcome State Fault Refusal := cmd s do
  let go := called 0xF000 (progStart vsys failAt lowAt.low lowAt.steps)
  match s.dev.flash.prog with
  | some p => if s.core.pc = p.pc && s.executes then progResume p failAt lowAt.low lowAt.steps else go
  | none => go

/-! ### ERASE and its pulses (R282–R284) -/

/-- ERASE (R279, R280, R282). -/
def eraseCall (a vsys : Nat) : M (List (Nat × Nat)) := do
  let s ← getS
  let u := unitOf a
  let st := if inFlash a 16 && a == unitBase u then s.targetCheck u true vsys else stParam
  if st = stOk then
    dropToken u
    jRoom 2
    setUnit u fun x => { x with count := x.count + 1 }
    let t ← getS
    jPut jStart u 0 (t.unit u).count
    setFld FLASHC_STAT_UNIT u
    setFld FLASHC_STAT_PULSES 0
    setFld FLASHC_STAT_STATE 1
  return ret st []

/-- ERASE. -/
def execErase (vsys : Nat) (s : State) : Host.Outcome State Fault Refusal :=
  cmd s <| service 0xF001 <| eraseCall (s.g 1).toNat vsys

/-- An erase ends with a result (R282): BAD marks the unit for good; a core reset under way leaves the journal to the
service's next call (R442). -/
def eraseEnds (u n st : Nat) : M Unit := do
  let s ← getS
  if st = stEraseFail then act (.bad u) else blankUnit u
  setUnit u fun x => { x with pulses := n, torn := false, reached := 0 }
  setFld FLASHC_STAT_STATE 0
  showErase u n st
  if s.dev.flash.orphan then modFlash fun f => { f with orphan := false, owed := some (u, st, n) }
  else
    jAppend (if st = stEraseFail then jFail else jDone) u n (s.unit u).count
    dropCache

/-- ERASE_PULSE_END (R276, R282): the blank check after a pulse. -/
def execErasePulseEnd (blank : Bool) (s : State) : Host.Outcome State Fault Refusal := cmd s do
  if s.fld FLASHC_STAT_STATE = 1 then
    let u := s.fld FLASHC_STAT_UNIT
    let n := s.fld FLASHC_STAT_PULSES + 1
    setFld FLASHC_STAT_PULSES n
    if blank then eraseEnds u n (if warnPulses u < n then stWearWarn else stOk)
    else if maxPulses u ≤ n then eraseEnds u n stEraseFail

/-- SUSPEND (R279, R283). -/
def execSuspend (s : State) : Host.Outcome State Fault Refusal := cmd s <| service 0xF002 do
  let s ← getS
  if s.fld FLASHC_STAT_STATE = 1 then
    setFld FLASHC_STAT_STATE 2
    return ret stOk [(1, s.fld FLASHC_STAT_PULSES)]
  else return ret stState [(1, s.fld FLASHC_STAT_PULSES)]

/-- RESUME (R279, R283). -/
def execResume (vsys : Nat) (s : State) : Host.Outcome State Fault Refusal := cmd s <| service 0xF003 do
  let s ← getS
  if s.fld FLASHC_STAT_STATE ≠ 2 then return ret stState []
  else if vsys < vFlash then return ret stLowSupply []
  else
    setFld FLASHC_STAT_STATE 1
    return ret stOk []

/-- STATUS (R279). -/
def flashStatus : M (List (Nat × Nat)) := do
  let s ← getS
  return ret (s.fld FLASHC_STAT_LAST)
    [(1, s.fld FLASHC_STAT_STATE), (2, s.fld FLASHC_STAT_UNIT), (3, s.fld FLASHC_STAT_PULSES)]

/-- STATUS of the flash service. -/
def execFlashStatus (s : State) : Host.Outcome State Fault Refusal := cmd s <| service 0xF004 flashStatus

/-- READ_COUNTERS (R279). -/
def readCounters (u : Nat) : M (List (Nat × Nat)) := do
  let s ← getS
  if u < 79 then
    let x := s.unit u
    return ret stOk [(1, x.count), (2, x.pulses + b2n x.torn * 2 ^ 30 + b2n (decide (u ∈ s.bad)) * 2 ^ 31)]
  else return ret stParam []

/-- READ_COUNTERS. -/
def execReadCounters (s : State) : Host.Outcome State Fault Refusal := cmd s <| service 0xF005 <| readCounters (s.g 1).toNat

/-! ### Frame-counter records (R228–R230) -/

/-- The record slots: 256 in each of parameter sectors 2 and 3. -/
def fcSlot (i : Nat) : Nat := unitBase 2 + 16 * i

/-- Is a record of the frame counter good (R228)? -/
def fcGood (l : List Byte) : Bool := leNat (l.take 4) == 0x46434E54 && leNat (sliceOf l 12 4) == crc32 (l.take 12)

/-- The current record: slot, RES and SEQ (R228). -/
def State.fcCurrent (s : State) : Option (Nat × Nat × Nat) :=
  (List.range 512).foldl (fun best i =>
    let l := s.bytes (fcSlot i) 16
    if fcGood l then
      let seq := leNat (sliceOf l 8 4)
      match best with
      | some (_, _, q) => if q < seq then some (i, leNat (sliceOf l 4 4), seq) else best
      | none => some (i, leNat (sliceOf l 4 4), seq)
    else best) none

/-- The slot after the current record's, and the first blank slot from there on, going on in the other sector (R228). -/
def State.fcAfter (s : State) : Nat := match s.fcCurrent with | some (i, _, _) => i + 1 | none => 0
def State.fcBlank (s : State) : Option Nat :=
  ((List.range 512).map fun k => (s.fcAfter + k) % 512).find? fun i => s.blankAt (fcSlot i) 16

/-- The slot of the next record (R228). Where spoilt slots leave none blank it is the first of the sector that does not hold the
current record (log entry 127). -/
def State.fcNext (s : State) : Nat := s.fcBlank.getD (256 * (1 - (s.fcAfter - 1) / 256))

/-- The good records of a sector, 0 or 1. -/
def State.fcCount (s : State) (k : Nat) : Nat :=
  ((List.range 256).filter fun j => fcGood (s.bytes (fcSlot (256 * k + j)) 16)).length

/-- The next record comes with the erase of a sector (R228): it is the 128th of its own, or no slot is blank. -/
def State.fcErases (s : State) : Bool := s.fcBlank.isNone || s.fcCount (s.fcNext / 256) == 127

/-- Write a record with a limit; with the 128th of a sector the other sector is erased (R228). -/
def fcWrite (res : Nat) (verified : Bool) : M Nat := do
  let s ← getS
  let i := s.fcNext
  let seq := match s.fcCurrent with | some (_, _, q) => q + 1 | none => 0
  let l := leBytes 4 0x46434E54 ++ leBytes 4 res ++ leBytes 4 seq
  let blank ← if s.fcBlank.isNone then romErase (2 + i / 256) else pure true
  if !blank then return stProgFail
  else if !verified then
    spoilUnit (fcSlot i)
    return stProgFail
  else
    putBytes (fcSlot i) (l ++ leBytes 4 (crc32 l))
    if s.fcCount (i / 256) = 127 then
      let _ ← romErase (3 - i / 256)
    dropCache
    return stOk

/-- FCNT_RESERVE (R229, R230): the resumption where FCVALID is 0, nothing where LOW is 0, a new limit otherwise. A limit
that has no successor below 2³² is the last (log entry 63). -/
def fcReserve (vsys : Nat) (verified : Bool) : M Nat := do
  let s ← getS
  let st := s.fld FLASHC_STAT_STATE
  let valid := s.bit CIPH0_FCSTAT_FCVALID
  let cur := match s.fcCurrent with | some (_, r, _) => r | none => 0
  let base := if valid then s.fld CIPH0_FCRES_RES else cur
  if valid && !s.bit CIPH0_FCSTAT_LOW then return stOk
  else if valid && decide (2 ^ 32 ≤ base + 4096) then return stOk
  else if st = 1 ∨ st = 3 ∨ (st = 2 ∧ s.fcErases) then return stBusy
  else if vsys < vFlash then return stLowSupply
  else
    let new := if 2 ^ 32 ≤ base + 4096 then base else base + 4096
    let r ← if base = new then pure stOk else fcWrite new verified
    if r = stOk then
      if !valid then
        setFld CIPH0_FCNT_FCNT cur
        setFld CIPH0_FCSTAT_FCVALID 1
      setFld CIPH0_FCRES_RES new
      fcFlags
    return r

/-- FCNT_RESERVE. -/
def execFcntReserve (vsys : Nat) (verified : Bool) (s : State) : Host.Outcome State Fault Refusal := cmd s <| service 0xF006 do
  let st ← fcReserve vsys verified
  return ret st []

/-! ### The logbook's ring (R464–R470) -/

/-- A slot's first address (R464). -/
def logSlot (i : Nat) : Nat := 0x0100C000 + 64 * (i % 256)

/-- Is a slot's record good (R469)? -/
def logGood (l : List Byte) : Bool := l.take 2 == [0x4C, 0x47] && leNat (sliceOf l 60 4) == crc32 (l.take 60)

/-- The SEQ after the highest valid one; the first record of a device carries 0 (R464, R469). -/
def State.logNext (s : State) : Nat :=
  (List.range 256).foldl (fun n i =>
    let l := s.bytes (logSlot i) 64
    if logGood l then max n (leNat (sliceOf l 4 4) + 1) else n) 0

/-- Can the record with a SEQ go into its slot: a sector's first slot, whose sector is erased for it, or a blank one? A
first slot spoilt in a sector that is otherwise blank is skipped like any other, and so are the slots of a BAD sector (R464,
R468, R469; log entry 66). -/
def State.logFree (s : State) (q : Nat) : Bool :=
  let a := logSlot q
  let l := s.bytes a 64
  if 12 + q / 64 % 4 ∈ s.bad then false
  else if q % 64 = 0 then s.blankAt a 64 || logGood l || !s.blankAt (a + 64) (63 * 64)
  else s.blankAt a 64

/-- The SEQ the next record gets. -/
def State.logSeq (s : State) : Nat :=
  let n := s.logNext
  (((List.range 256).map fun k => n + k).find? s.logFree).getD n

/-- A record as it is committed: SEQ and CRC filled in (R465). -/
def logSealed (r : List Byte) (q : Nat) : List Byte :=
  let l := r.take 4 ++ leBytes 4 q ++ sliceOf r 8 52
  l ++ leBytes 4 (crc32 l)

/-- Commit one record, or say why not. -/
def logPut (r : List Byte) (vsys : Nat) (fail : Bool) : M (Nat × Nat) := do
  let s ← getS
  let q := s.logSeq
  let st := s.fld FLASHC_STAT_STATE
  if st = 1 ∨ st = 3 ∨ (st = 2 ∧ q % 64 = 0) then return (stBusy, q)
  else if vsys < vFlash then return (stLowSupply, q)
  else
    let blank ← if q % 64 = 0 then romErase (12 + q / 64 % 4) else pure true
    if !blank then return (stProgFail, q)
    else if fail then
      forAll (List.range 4) fun k => spoilUnit (logSlot q + 16 * k)
      return (stProgFail, q)
    else
      putBytes (logSlot q) (logSealed r q)
      dropCache
      return (stOk, q)

/-- Commit records in turn until one does not go; `done` follows each that does. Answers status, count, last SEQ. -/
def logAll (vsys : Nat) (failAt : Option Nat) (last : Option Nat) : Nat → List (List Byte × M Unit) → M (Nat × Nat × Option Nat)
  | i, [] => pure (stOk, i, last)
  | i, x :: xs => do
    match ← logPut x.1 vsys (failAt == some i) with
    | (0, q) =>
      x.2
      logAll vsys failAt (some q) (i + 1) xs
    | (st, _) => return (st, i, last)

/-- What is staged, then a LOST record where records were dropped (R468). -/
def State.logWork (s : State) : List (List Byte × M Unit) :=
  (s.dev.staged.map fun r => (r, do
    modDev fun d => { d with staged := d.staged.drop 1 }
    let t ← getS
    setFld LOGB_STAT_COUNT (t.fld LOGB_STAT_COUNT - 1)))
  ++ (if s.fld LOGB_STAT_DROPPED ≠ 0 then
        [(s.recordOf 0x0A false stNobuf 0 (leBytes 2 (s.fld LOGB_STAT_DROPPED)), setFld LOGB_STAT_DROPPED 0)]
      else [])

/-- Commit what is staged and a record of the caller's (R468). -/
def logCommit (vsys : Nat) (failAt : Option Nat) (own : List (List Byte)) : M (List (Nat × Nat)) := do
  let s ← getS
  let (st, n, last) ← logAll vsys failAt none 0 (s.logWork ++ own.map fun r => (r, nop))
  let q ← match last with
    | some q => pure q
    | none => freeNat
  return ret st [(1, n), (2, q % 2 ^ 32)]

/-- LOG_COMMIT. -/
def execLogCommit (vsys : Nat) (failAt : Option Nat) (s : State) : Host.Outcome State Fault Refusal :=
  cmd s <| service 0xF010 do
    let s ← getS
    let st := s.fld FLASHC_STAT_STATE
    if st = 1 ∨ st = 3 then
      let q ← freeNat
      return ret stBusy [(1, 0), (2, q % 2 ^ 32)]
    else logCommit vsys failAt []

/-- LOG_APPEND (R468): a bad type or source is PARAM before anything is committed. -/
def execLogAppend (vsys : Nat) (failAt : Option Nat) (s : State) : Host.Outcome State Fault Refusal :=
  cmd s <| service 0xF011 do
    let s ← getS
    let w := s.g 1
    let src := (s.g 2).toNat
    let ok := decide (0x80 ≤ bitsGet w 7 0) && decide (0x20000000 ≤ src ∧ src + 40 ≤ 0x20080000) && s.mayRead src 40
    let st := s.fld FLASHC_STAT_STATE
    if !ok ∨ st = 1 ∨ st = 3 then
      let q ← freeNat
      return ret (if ok then stBusy else stParam) [(1, 0), (2, q % 2 ^ 32)]
    else logCommit vsys failAt [s.recordOf (bitsGet w 7 0) false (bitsGet w 15 8) 0 (s.bytes src 40)]

end Sys2Proof.Machine
end

