-- ==== Sys2Proof/Machine/Update.lean ====
section
/-!
DEFINITION. Release bundles and crew sheets: their headers and records, and the update engine that stages them in external
flash (R392–R394, R399–R407, R437). Log entry 67 says how the engine's work stands to the commands' replies.
-/
namespace Sys2Proof.Machine
open Sys2Proof.Reg

/-- A little-endian number of n octets at a position of a list. -/
def numAt (l : List Byte) (i n : Nat) : Nat := leNat (sliceOf l i n)

/-- The node's own extended address as OTP gives it (R393, R414). -/
def State.otpExt (s : State) : List Byte := sliceOf s.dev.sys.ident 0 8

/-- A CMAC under a sealed slot on a page; none where the slot does not serve (R214, R216). -/
def State.sealedCmac (s : State) (slot page : Nat) (l : List Byte) : Option (List Byte) :=
  (s.keyFor slot useCmac page).map fun k => cmac k l

/-! ### The release header (R399, R400) -/

/-- Do two stretches overlap? -/
def overlapping (a n b m : Nat) : Bool := decide (a < b + m) && decide (b < a + n)

/-- Every field of R399 meets its requirement, the CMACs aside. -/
def State.bundleOk (s : State) (h : List Byte) : Bool :=
  let num := numAt h
  let hw := s.fld SYS_LIFECYCLE_HWREV
  let imgLen := num 16 4
  let fw := num 20 4
  let fwLen := num 24 4
  let cox := num 28 4
  let bow := num 40 4
  let entry := num 52 4
  h.take 4 == [0x51, 0x52, 0x42, 0x4C] && num 4 2 == 1 && num 6 2 == 128 && num 8 2 == 0x7144
    && decide (num 10 1 ≤ hw ∧ hw ≤ num 11 1) && decide (num 15 1 ≤ 63)
    && decide (1 ≤ imgLen ∧ imgLen ≤ 4128640)
    && decide (fw + fwLen ≤ imgLen) && num 32 4 == 32768 && decide (cox + 32768 ≤ imgLen)
    && num 44 4 == 8192 && decide (bow + 8192 ≤ imgLen)
    && !overlapping fw fwLen cox 32768 && !overlapping fw fwLen bow 8192 && !overlapping cox 32768 bow 8192
    && entry % 4 == 0 && decide (fw ≤ entry ∧ entry < fw + fwLen) && decide (num 56 2 ≤ 3600)
    && (sliceOf h 58 6).all (· == 0) && (sliceOf h 72 24).all (· == 0)
    && ((sliceOf h 64 8).all (· == 0xFF) || sliceOf h 64 8 == s.otpExt)

/-- The bundle's SVN, octets of payload and last block (R399). -/
def bundleSvn (h : List Byte) : Nat := numAt h 15 1
def bundleLen (h : List Byte) : Nat := numAt h 16 4
def bundleLast (h : List Byte) : Nat := ceilDiv (128 + bundleLen h) 65536 - 1

/-- HDR_CMAC and IMG_CMAC verify under slot 1 on a page. -/
def State.hdrCmacOk (s : State) (page : Nat) (h : List Byte) : Bool :=
  s.sealedCmac 1 page (h.take 96) == some (sliceOf h 96 16)
def State.imgCmacOk (s : State) (page : Nat) (h payload : List Byte) : Bool :=
  s.sealedCmac 1 page (h.take 112 ++ payload) == some (sliceOf h 112 16)

/-- Can a stretch of on-chip flash be relied on: no BAD or torn unit and no uncorrectable unit in it (R277, R282, R289)? -/
def State.flashSound (s : State) (a n : Nat) : Bool :=
  !((List.range 79).any fun u => s.unitOpen u && overlapping (unitBase u) (unitSize u) a n)
    && !(s.dev.eccBad.any fun x => overlapping x 16 a n)

/-- The image stands from here on in on-chip flash (R399). -/
abbrev imgBase : Nat := 0x01010000

/-- The header of the committed image. -/
def State.imgHeader (s : State) : List Byte := s.bytes imgBase 128

/-- The boot check (R400), on page P2. -/
def State.bootCheck (s : State) : Bool :=
  let h := s.imgHeader
  s.bundleOk h && decide (s.arb ≤ bundleSvn h) && s.flashSound imgBase (128 + bundleLen h) && s.hdrCmacOk 2 h
    && s.imgCmacOk 2 h (s.bytes (imgBase + 128) (bundleLen h))

/-! ### The crew sheet (R392–R394) -/

/-- The header of R393; `dev` says that the lifecycle is DEV. -/
def State.crewHeaderOk (s : State) (h : List Byte) : Bool :=
  let num := numAt h
  let hw := s.fld SYS_LIFECYCLE_HWREV
  h.take 4 == [0x43, 0x52, 0x45, 0x57] && num 4 1 == 1 && num 5 1 == 0 && num 6 2 == 64
    && (sliceOf h 12 8 == s.otpExt || (s.lc == 1 && (sliceOf h 12 8).all (· == 0xFF)))
    && num 20 2 == 0x7144 && decide (num 22 1 ≤ hw ∧ hw ≤ num 23 1)
    && num 24 4 == 64 + 8 * (num 28 2 + num 30 2) + 16 && decide (num 24 4 ≤ 65536)
    && (sliceOf h 32 32).all (· == 0)

def crewSeq (h : List Byte) : Nat := numAt h 8 4
def crewLen (h : List Byte) : Nat := numAt h 24 4

/-- Is a page one of R269's (not core-private)? -/
def sheetPage (p : Nat) : Bool := hasHeader p && (pageRows p).isSome

/-- A record that R394 admits. -/
def recordOk (a : Nat) (v : Word) : Bool :=
  let p := pageOf a
  let o := a % 0x1000
  a % 4 == 0 && sheetPage p && (rowOf a).isSome
    && p != sysPage && p != flashcPage && p != otpcPage && p != ciphPage 1 && p != ciphPage 2
    && !(p == ciphPage 0 && decide (0x180 ≤ o ∧ o ≤ 0x18C))
    && a != LINK_UCCTL && a != LINK_UCDATA && a != LINK_UCCRC
    && (decide (0x100 ≤ o) || (a == CTRL p && !bitOf v.toNat 1)
        || ((List.range 4).any fun k => a == PERF_SEL p k))

/-- The records of a whole slot's octets, in order: address and value. -/
def crewRecords (l : List Byte) (n : Nat) : List (Nat × Word) :=
  (List.range n).map fun k => (numAt l (64 + 8 * k) 4, wordOf (sliceOf l (68 + 8 * k) 4))

/-- How a slot whose header passes stands: the CMAC under slot 2 on a page, then the records (R392). -/
def State.crewStatus (s : State) (page : Nat) (l : List Byte) : Nat :=
  let n := crewLen l
  if s.sealedCmac 2 page (l.take (n - 16)) != some (sliceOf l (n - 16) 16) then stAuth
  else if (crewRecords l ((n - 80) / 8)).all fun r => recordOk r.1 r.2 then stOk
  else stParam

/-! ### The engine's hold on external flash (R403, R437) -/

/-- Where a device address of chip select 0 stands in the address space. -/
def extAt (a : Nat) : Nat := csBase 0 + a

/-- A sequence of the engine's ends: the read buffer is invalidated (R295). -/
def extEnds : M Unit := modXspi fun x => { x with lines := [] }

/-- Erase 64-KB units of the device on chip select 0, from a device address over a length. -/
def extErase (a n : Nat) : M Unit := do
  let lo := extAt (a / 0x10000 * 0x10000)
  let hi := extAt (ceilDiv (a + n) 0x10000 * 0x10000)
  act (.memClear fun x => decide (lo ≤ x) && decide (x < hi))
  extEnds

/-- Program octets: erased ones take their values, one that was programmed keeps an equal value and is left undefined by
another (R404; log entry 68). -/
def extPut : Nat → List Byte → M Unit
  | _, [] => extEnds
  | a, b :: l => do
    let s ← getS
    let old := s.byte (extAt a)
    if old = 0xFF then act (.mem (extAt a) b)
    else if old ≠ b then
      let v ← freeByte
      act (.mem (extAt a) v)
    extPut (a + 1) l

/-! ### The engine's states (R402, R437) -/

abbrev engIdle : Nat := 0
abbrev engReceiving : Nat := 1
abbrev engChecked : Nat := 2
abbrev engConfig : Nat := 3

def State.engine (s : State) : Nat := s.fld HOSTP_STAT_ENGINE
def setEngine (v : Nat) : M Unit := setFld HOSTP_STAT_ENGINE v
def modUpd (f : Upd → Upd) : M Unit := modHostp fun h => { h with upd := f h.upd }

/-- The engine goes to IDLE. -/
def engStop : M Unit := do
  setEngine engIdle
  modUpd fun _ => {}

/-- Another transport owns the work in progress (R402, R437). -/
def State.engElse (s : State) (t : Nat) : Bool := s.engine != engIdle && s.dev.hostp.upd.owner != t

/-- The most octets a block carries by a transport (R404, R437). -/
def blockMax (t : Nat) : Nat := if t = 2 then 96 else 1024

/-- UPDATE_BEGIN (R402, R403): the status. -/
def updateBegin (t : Nat) (h : List Byte) : M Nat := do
  let s ← getS
  if s.engElse t then return stBusy
  else
    engStop
    if !(s.lc == 1 || s.lc == 2) then return stState
    else if !s.bundleOk h then return stHeader
    else if !s.hdrCmacOk 1 h then return stAuth
    else if bundleSvn h < s.arb then return stRollback
    else
      extErase 0x100000 (0x10000 + bundleLen h)
      extPut 0x100000 h
      setEngine engReceiving
      modUpd fun _ => { owner := t, hdr := h }
      return stOk

/-- Does a stretch come again with other data: an octet already sent differs (R404)? -/
def State.sentOther (s : State) (off : Nat) (l : List Byte) : Bool :=
  ((List.range l.length).any fun i =>
    (s.dev.hostp.upd.sent.any fun x => decide (x.1 ≤ off + i) && decide (off + i < x.1 + x.2))
      && s.byte (extAt (0x110000 + off + i)) != octet l i)

/-- UPDATE_BLOCK (R404). -/
def updateBlock (t off : Nat) (l : List Byte) : M Nat := do
  let s ← getS
  if s.engElse t then return stBusy
  else if s.engine ≠ engReceiving then return stState
  else if bundleLen s.dev.hostp.upd.hdr < off + l.length then return stOffset
  else
    modUpd fun u => { u with sent := (off, l.length) :: u.sent, spoilt := u.spoilt || s.sentOther off l }
    extPut (0x110000 + off) l
    return stOk

/-- UPDATE_END (R405). -/
def updateEnd (t : Nat) : M Nat := do
  let s ← getS
  let u := s.dev.hostp.upd
  if s.engElse t then return stBusy
  else if s.engine ≠ engReceiving then return stState
  else if !u.spoilt && s.imgCmacOk 1 u.hdr (s.bytes (extAt 0x110000) (bundleLen u.hdr)) then
    setEngine engChecked
    return stOk
  else
    engStop
    return stImage

/-- What the COMMIT mark holds for the staged header (R406). -/
def State.commitMark (s : State) : List Byte := [0x43, 0x4D, 0x49, 0x54] ++ s.bytes (extAt 0x100060) 12

/-- UPDATE_COMMIT (R406): the mark is written; the start reset follows the reply. -/
def updateCommit (t : Nat) : M Nat := do
  let s ← getS
  if s.engElse t then return stBusy
  else if s.engine ≠ engChecked then return stState
  else
    extPut 0x100080 s.commitMark
    engStop
    modHostp fun h => { h with reset := some (resetMerge h.reset { scope := 3, src := 3 }) }
    return stOk

/-- The device address of the slot CONFIG_* writes: the one not applied at the last start (R397, R437). -/
def State.otherSlot (s : State) : Nat := 1 - s.fld SYS_BOOTINFO_SLOT

/-- CONFIG_BEGIN (R437). -/
def configBegin (t : Nat) (h : List Byte) : M Nat := do
  let s ← getS
  if s.engElse t then return stBusy
  else
    engStop
    if !(s.lc == 1 || s.lc == 2) then return stState
    else if !s.crewHeaderOk h || decide (crewSeq h ≤ (s.reg SYS_CREWSEQ).toNat) then return stHeader
    else
      let k := s.otherSlot
      extErase (0x10000 * k) 0x10000
      extPut (0x10000 * k) h
      setEngine engConfig
      modUpd fun _ => { owner := t, hdr := h, slot := k }
      return stOk

/-- CONFIG_BLOCK (R437). -/
def configBlock (t off : Nat) (l : List Byte) : M Nat := do
  let s ← getS
  let u := s.dev.hostp.upd
  if s.engElse t then return stBusy
  else if s.engine ≠ engConfig then return stState
  else if off < 64 ∨ crewLen u.hdr < off + l.length then return stOffset
  else
    extPut (0x10000 * u.slot + off) l
    return stOk

/-- CONFIG_END (R437): the engine goes to IDLE whatever the checks give. -/
def configEnd (t : Nat) : M Nat := do
  let s ← getS
  let u := s.dev.hostp.upd
  if s.engElse t then return stBusy
  else if s.engine ≠ engConfig then return stState
  else
    engStop
    return s.crewStatus 1 (s.bytes (extAt (0x10000 * u.slot)) (crewLen u.hdr))

end Sys2Proof.Machine
end

