-- ==== Sys2Proof/Machine/Boot.lean ====
section
/-!
DEFINITION. The ROM's start sequence, the commit of a release, the crew sheet's application, and Dead (R388–R396, R400,
R401, R407–R412). The command of the sequence runs its steps from reset release to where they lead (log entry 69).
-/
namespace Sys2Proof.Machine
open Sys2Proof.Reg

/-! ### The logbook at a start (R412, R469) -/

/-- The newest valid record of the ring. -/
def State.newestRecord (s : State) : Option (List Byte) :=
  (((List.range 256).map fun i => s.bytes (logSlot i) 64).filter logGood).foldl (fun best l =>
    match best with
    | some b => if numAt b 4 4 < numAt l 4 4 then some l else some b
    | none => some l) none

/-- The reason of an earlier Dead, where the newest committed record is a DEAD record (R412). -/
def State.earlierDead (s : State) : Option Nat :=
  match s.newestRecord with
  | some l => if numAt l 2 1 = 0x08 then some (numAt l 20 1) else none
  | none => none

/-- An earlier Dead shows in SYS_RSTCAUSE. -/
def showEarlier : M Unit := do
  let s ← getS
  match s.earlierDead with
  | some r =>
    setFld ⟨SYS_RSTCAUSE, 7, 7⟩ 1
    setFld SYS_RSTCAUSE_DEADRSN r
  | none => nop

/-- The ROM commits a record of its own, alone (R411). -/
def romRecord (vsys : Nat) (r : List Byte) : M Unit := do
  let _ ← logPut r vsys false

/-! ### Dead (R410, R411) -/

abbrev deadNocrew : Nat := 1
abbrev deadImage : Nat := 2
abbrev deadWdog : Nat := 3
abbrev deadCommit : Nat := 4

/-- Dead: the radio in SLEEP with the front-end pattern at zero (R67), the link controller OFF, the pads at their reset defaults, the watchdog off, the record. -/
def enterDead (reason vsys : Nat) : M Unit := do
  setMode 0
  radioOff stAborted
  modRadio fun r => { r with fem := 0 }
  act (.regClear fun a => decide (pageOf a = gpioPage))
  setFld SYS_WDOGSTAT_RUN 0
  setFld SYS_RSTCAUSE_DEADRSN reason
  let s ← getS
  romRecord vsys (s.recordOf 0x08 false stState 0
    (leBytes 1 reason ++ leBytes 1 (s.fld SYS_BOOTINFO_STAT_A) ++ leBytes 1 (s.fld SYS_BOOTINFO_STAT_B)))
  modCore fun c => { c with run := .doze }
  modDev fun d => { d with sys := { d.sys with phase := .dead, coreOnly := false } }

/-! ### Repair (R289) -/

/-- The torn units. -/
def State.tornUnits (s : State) : List Nat := (List.range 79).filter fun u => (s.unit u).torn

/-- Repair the torn units: the TORN records the ROM writes for them. -/
def repairTorn : List Nat → M (List (List Byte))
  | [] => pure []
  | u :: us => do
    let s ← getS
    let r := s.recordOf 0x07 false stTorn (s.reg flashcPage).toNat (leBytes 1 u ++ leBytes 2 (s.unit u).reached)
    let _ ← romErase u
    let rs ← repairTorn us
    return r :: rs

/-! ### A pending commit (R407) -/

/-- The staged header and its DONE mark (R403, R406). -/
def State.stagedHeader (s : State) : List Byte := s.bytes (extAt 0x100000) 128
def State.commitPending (s : State) : Bool :=
  s.bytes (extAt 0x100080) 16 == s.commitMark && (s.bytes (extAt 0x100090) 16).all (· == 0xFF)

/-- An attempt fails in the flash itself: a block that cannot be erased goes BAD, or a program unit does not verify. -/
def commitBreaks (last : Nat) : M Unit := do
  let k ← freeNat
  let u ← freeIn 16 (16 + last)
  if k % 2 = 0 then
    setUnit u fun x => { x with count := x.count + 1 }
    let s ← getS
    jAppend jStart u 0 (s.unit u).count
    act (.bad u)
    setUnit u fun x => { x with pulses := maxPulses u, torn := false, reached := 0 }
    jAppend jFail u (maxPulses u) (s.unit u).count
    showErase u (maxPulses u) stEraseFail
  else spoilUnit (unitBase u)

/-- Erase blocks; answers whether each is blank. A BAD one is not (R280). -/
def commitErase : List Nat → M Bool
  | [] => pure true
  | k :: ks => do
    let s ← getS
    let a ← if 16 + k ∈ s.bad then pure false else romErase (16 + k)
    let b ← commitErase ks
    return a && b

/-- One attempt: blocks 0 to LAST erased, the bundle copied, the copy checked. `broken` says that flash fails in it. -/
def commitOnce (broken : Bool) : M Bool := do
  let s ← getS
  let h := s.stagedHeader
  let last := min 62 (bundleLast h)
  let blank ← commitErase (List.range (last + 1))
  putBytes imgBase (h ++ s.bytes (extAt 0x110000) (min 4128640 (bundleLen h)))
  if broken then commitBreaks last
  dropCache
  let t ← getS
  return blank && !broken && t.bootCheck

/-- Up to so many attempts, of which the first `fails` fail in the flash. -/
def commitTries : Nat → Nat → M Bool
  | 0, _ => pure false
  | n + 1, fails => do
    if ← commitOnce (decide (0 < fails)) then return true else commitTries n (fails - 1)

/-- The commit succeeds: the anti-rollback counter rises, the DONE mark is programmed, the record is written. What the mark
holds is open. -/
def commitDone (vsys : Nat) : M Unit := do
  let s ← getS
  let svn := bundleSvn s.imgHeader
  otpPut 0x020 (leBytes 8 (2 ^ svn - 1))
  let b ← freeIn 0 254
  let l ← freeBytes 15
  extPut 0x100090 (BitVec.ofNat 8 b :: l)
  let t ← getS
  setFld SYS_LIFECYCLE_ARB t.arb
  romRecord vsys (t.recordOf 0x0E false stOk 0 (sliceOf t.imgHeader 12 4 ++ leBytes 1 t.arb))

/-! ### The crew sheet (R392, R395, R396) -/

/-- A slot's octets: its header, or all of it where the header's length is given. -/
def State.sheet (s : State) (k n : Nat) : List Byte := s.bytes (extAt (0x10000 * k)) n

/-- The slots whose headers pass, in the order the ROM takes them. -/
def State.sheetOrder (s : State) : List Nat :=
  let ok (k : Nat) : Bool := s.crewHeaderOk (s.sheet k 64)
  let by' : List Nat := if crewSeq (s.sheet 0 64) < crewSeq (s.sheet 1 64) then [1, 0] else [0, 1]
  by'.filter ok

/-- A slot's status as the ROM finds it. -/
def State.sheetStatus (s : State) (k : Nat) : Nat := s.crewStatus 2 (s.sheet k (crewLen (s.sheet k 64)))

/-- Where the statuses of the two slots are shown. -/
def setSheetStat (k st : Nat) : M Unit := setFld (if k = 0 then SYS_BOOTINFO_STAT_A else SYS_BOOTINFO_STAT_B) st

/-- Take the candidates in order: the first that passes. A slot behind it keeps the status its header gave (log entry 69). -/
def sheetTake : List Nat → M (Option Nat)
  | [] => pure none
  | k :: ks => do
    let s ← getS
    let st := s.sheetStatus k
    setSheetStat k st
    if st = stOk then return some k else sheetTake ks

/-- Write one record: the enable that governs the register is cleared before its first write, unless it is locked. A write
that sets its page's FLT counts in IGNORED. -/
def sheetWrite (first : Bool) (a : Nat) (v : Word) : M Unit := do
  let s ← getS
  let p := pageOf a
  let lockedEn := p == riggerPage && (govFld a).addr != CTRL riggerPage && s.rigLocked ((a % 0x1000 - 0x100) / 8)
  if first && isConfig a && !lockedEn then disableUnit a
  let n := (← getS).events.count (fltEvent p)
  let _ ← busWrite (.core true) .word a v
  if n < (← getS).events.count (fltEvent p) then
    setFld SYS_BOOTINFO_IGNORED (min 0xFFF ((← fld SYS_BOOTINFO_IGNORED) + 1))

/-- Write a list of records; `seen` are the addresses already written. -/
def sheetApply : List Nat → List (Nat × Word) → M Unit
  | _, [] => nop
  | seen, r :: rs => do
    sheetWrite (!seen.contains r.1) r.1 r.2
    sheetApply (r.1 :: seen) rs

/-- Step 9: the slot is applied, its AO records only where the AO mark differs, and TXP_CFG.LOCK is set. -/
def sheetUse (k : Nat) : M Unit := do
  let s ← getS
  let h := s.sheet k 64
  let mark := (k, crewSeq h)
  let rs := crewRecords (s.sheet k (crewLen h)) ((crewLen h - 80) / 8)
  setFld SYS_BOOTINFO_SLOT k
  wr SYS_CREWSEQ (BitVec.ofNat 32 (crewSeq h))
  sheetApply [] (if s.dev.sys.aoMark = some mark then rs.filter fun r => !inAo r.1 else rs)
  modDev fun d => { d with sys := { d.sys with aoMark := some mark } }
  if !s.bit TXP_CFG_LOCK then profileLock (← fld TXP_CFG_PROFILE)

/-! ### The image and the jump (R390, R391, R400, R408) -/

/-- Step 10: the token, or the check, which sets it. -/
def imagePasses : M Bool := do
  let s ← getS
  if s.dev.pwr.token then
    setFld SYS_BOOTINFO_TOKEN 1
    return true
  else if s.bootCheck then
    modPwr fun p => { p with token := true }
    return true
  else return false

/-- The watchdog starts with the image's alive window: 0 means 60 s (R399, R408). -/
def wdogStart : M Unit := do
  let s ← getS
  let n := numAt s.imgHeader 56 2
  setFld SYS_WDOGSTAT_RUN 1
  wdogLoad (if n = 0 then 60 else n)

/-- The jump to firmware (R390). -/
def jumpFirmware (cause : Word) : M Unit := do
  let s ← getS
  setG 1 (BitVec.ofNat 32 imgBase)
  setG 2 cause
  modCore fun c =>
    { c with pc := BitVec.ofNat 32 (imgBase + 0x80 + numAt s.imgHeader 52 4)
             st := bitsPut (bitsPut c.st 0 0 1) 7 7 0, vbase := 0, run := .run, slot := none }
  modDev fun d => { d with sys := { d.sys with phase := .firmware, coreOnly := false } }

/-- Steps 7 to 12, `cause` being SYS_RSTCAUSE as it read at step 2. -/
def bootEnd (cause : Word) (vsys : Nat) : M Unit := do
  setFld PWR_CLKREQ_XOREQ 1
  setFld PWR_CLKSTAT_XOOK 1
  modPwr fun p => { p with xoOk := true }
  let s ← getS
  forAll [0, 1] fun k => setSheetStat k (if s.crewHeaderOk (s.sheet k 64) then stOk else stHeader)
  match ← sheetTake s.sheetOrder with
  | none => enterDead deadNocrew vsys
  | some k =>
    sheetUse k
    if ← imagePasses then
      let _ ← fcReserve vsys true
      let t ← getS
      setFld FLASHC_IMGFIRST_FIRST 0
      setFld FLASHC_IMG_LAST (bundleLast t.imgHeader)
      setFld FLASHC_IMG_VALID 1
      wdogStart
      jumpFirmware cause
    else enterDead deadImage vsys

/-- The core alone was reset (R391): step 10, then the jump. -/
def bootCore (vsys : Nat) : M Unit := do
  let s ← getS
  if ← imagePasses then jumpFirmware (s.reg SYS_RSTCAUSE) else enterDead deadImage vsys

/-! ### Entry by strap and lifecycle (R388) -/

/-- The monitor, factory service or the unlock exchange is entered: BRK comes to the monitor once it is open (R474), and
what the saved registers hold is what the core holds after reset (R241). -/
def enterMonitor (ph : Phase) : M Unit := do
  let pc ← freeWord
  setFld BP_MON_ROUTE (b2n (ph != .unlock))
  modDev fun d => { d with sys := { d.sys with phase := ph }, mon := { pc := pc &&& 0xFFFFFFFC } }

/-- The challenge of the unlock exchange (R476): its CYCLE values are open to the block. -/
def newChallenge (cycles : List Word) : M Unit := do
  let s ← getS
  let m := [0x43, 0x48, 0x41, 0x4C] ++ leBytes 4 s.dev.time.ao ++ leBytes 4 s.logNext
    ++ cycles.flatMap fun w => leBytes 4 w.toNat
  let c ← match s.sealedCmac 0 2 m with
    | some c => pure c
    | none => freeBytes 16
  modDev fun d => { d with mon := { d.mon with challenge := c } }

/-- n free words. -/
def freeWords : Nat → M (List Word)
  | 0 => pure []
  | n + 1 => do
    let w ← freeWord
    let l ← freeWords n
    return w :: l

/-- Where step 6 leads: 0 on, 1 monitor, 2 factory service, 3 the unlock exchange, 4 RETIRED. -/
def bootMode (lc straps : Nat) : Nat :=
  match lc with
  | 0 => 2
  | 1 => if straps = 1 then 1 else if straps = 2 then 2 else 0
  | 2 => if straps = 1 then 3 else 0
  | _ => 4

/-- Does the start come to a program or an erase, and so wait for VSYS (R289, R407)? -/
def State.bootWrites (s : State) (straps : Nat) : Bool :=
  decide (3 ≤ s.dev.sys.fails) || s.tornUnits != [] || s.dev.staged != [] || s.fld LOGB_STAT_DROPPED != 0
    || s.earlierDead.isSome || s.commitPending || bootMode s.lc straps == 0

/-- The start sequence (R389): nothing happens yet where the ROM waits for VSYS. `fails` is how many attempts at a pending
commit fail in the flash. -/
def bootStart (straps vsys fails : Nat) : M Unit := do
  let s ← getS
  if s.dev.sys.phase = .rom then
    if s.dev.sys.coreOnly then
      if vFlash ≤ vsys ∨ s.dev.pwr.token ∨ s.bootCheck then bootCore vsys
    else if vsys < vFlash ∧ s.bootWrites straps then nop
    else
      setFld SYS_LIFECYCLE_STRAPS straps
      let cause := s.reg SYS_RSTCAUSE
      setG 2 cause
      if 3 ≤ s.dev.sys.fails then
        jLoad
        showEarlier
        enterDead deadWdog vsys
        if bootMode s.lc straps = 3 then newChallenge (← freeWords 16)
      else
        jLoad
        let torn ← repairTorn (← getS).tornUnits
        let earlier := s.earlierDead
        showEarlier
        let t ← getS
        let revive := match earlier with
          | some r => [t.recordOf 0x0F false stOk 0 (leBytes 1 r ++ leBytes 1 (t.fld SYS_RSTCAUSE_LAST))]
          | none => []
        let _ ← logCommit vsys none (torn ++ revive)
        let taken ← if s.commitPending then commitTries 3 fails else pure true
        if !taken then enterDead deadCommit vsys
        else
          if s.commitPending then commitDone vsys
          match bootMode s.lc straps with
          | 0 => bootEnd cause vsys
          | 1 => enterMonitor .monitor
          | 2 => enterMonitor .factory
          | 3 =>
            enterMonitor .unlock
            newChallenge (← freeWords 16)
          | _ => modDev fun d => { d with sys := { d.sys with phase := .retired } }

/-- START_SEQUENCE (R389, R391). -/
def execStartSequence (straps : BitVec 2) (vsys fails : Nat) (s : State) : Host.Outcome State Fault Refusal :=
  cmd s (bootStart straps.toNat vsys fails)

end Sys2Proof.Machine
end

