-- ==== Sys2Proof/Machine/Abort.lean ====
section
/-!
DEFINITION. ABORT: what each target stops and leaves (R82, R213, R290, R298, R442, R443). Log entry 62 says which clusters
FLT.ABORTED is set in.
-/
namespace Sys2Proof.Machine
open Sys2Proof.Reg

/-- The radio goes to STBY, where its sequencer runs or it has left SLEEP (R42). -/
def toStby : M Unit := do
  let s ← getS
  if s.bit RCTL_STAT_UCODE_OK ∨ s.radio ≠ radSleep then radioCut radStby none

/-- TX: the transmission in the air, the queue, the acknowledgements and the relays end. -/
def abortTx : M (List Nat) := do
  let s ← getS
  toStby
  let t ← getS
  forAll (t.jobs.filter fun j => j.kind == .ack) fun _ => linkCount4 relayCancel
  cancelAll stAborted
  return if s.jobs.isEmpty then [] else [linkPage, txpPage]

/-- LANE n (R82). -/
def abortLane (n : Nat) : M (List Nat) := do
  let s ← getS
  laneStop n
  return if s.bit ⟨LANES_ENABLE, n, n⟩ then [lanesPage] else []

/-- LANES (R82). -/
def abortLanes : M (List Nat) := do
  let s ← getS
  forAll (List.range 4) laneStop
  toStby
  return if s.fld LANES_ENABLE_EN ≠ 0 then [lanesPage] else []

/-- RELAYS. -/
def abortRelays : M (List Nat) := do
  let s ← getS
  cancelRelays
  return if s.jobs.any fun j => j.kind == .relay && j.stage == .reserved then [linkPage] else []

/-- CIPH page n (R213): what the operation had written is undefined; on P0 the checks and securings in progress end. -/
def abortCiph (n : Nat) : M (List Nat) := do
  if n = 0 then
    let was ← checksStop stAborted
    clearCiph 0
    return if was then [ciphPage 0] else []
  else
    let s ← getS
    let job := (s.ciph n).job
    clearCiph n
    if 3 ≤ n then wr (CIPH_OWNER n) 0
    match job with
    | none => return []
    | some j =>
      let l ← freeBytes j.out.length
      putBytes j.dst l
      setFld (CIPH_RESULT_STATUS n) stAborted
      emit (ciphPage n) (0xA8 + n)
      pulse (44 + n)
      return [ciphPage n]

/-- DMA channel n (R298). -/
def abortDma (n : Nat) : M (List Nat) := do
  let s ← getS
  if s.dmaOn n then
    dmaComplete n stAborted
    return [dmaPage]
  else return []

/-- FLASH_PROG: the PROGRAM ends; the service returns ABORTED, at once where the core stands in it (R291, R443). -/
def abortProg : M (List Nat) := do
  let s ← getS
  if s.fld FLASHC_STAT_STATE = 3 then
    progCut
    let t ← getS
    match t.dev.flash.prog with
    | some p =>
      if s.core.pc = p.pc then progEnd p p.done stAborted
      return [flashcPage]
    | none =>
      setFld FLASHC_STAT_STATE 0
      return [flashcPage]
  else return []

/-- FLASH_ERASE (R290): the erase stops and its unit is torn. -/
def abortErase : M (List Nat) := do
  let s ← getS
  if s.eraseState = 1 ∨ s.eraseState = 2 then
    setUnit (s.fld FLASHC_STAT_UNIT) fun u => { u with torn := true, reached := s.fld FLASHC_STAT_PULSES }
    modFlash fun f => { f with orphan := false, prog := f.prog.map fun p => { p with was := 0 } }
    if s.fld FLASHC_STAT_STATE ≠ 3 then setFld FLASHC_STAT_STATE 0
    setFld FLASHC_STAT_LAST stAborted
    return [flashcPage]
  else return []

/-- XSPI. -/
def abortXspi : M (List Nat) := do
  let s ← getS
  let active := s.bit XSPI_STAT_BUSY || s.bit XSPI_STAT_POLLING
  modDev fun d => { d with xseq := none }
  modXspi fun x => { x with lines := [] }
  setFld XSPI_STAT_POLLING 0
  if s.bit XSPI_STAT_BUSY then
    setFld XSPI_STAT_BUSY 0
    setFld XSPI_STAT_STATUS stAborted
  return if active then [xspiPage] else []

/-- CORE: the ROM path of R391 follows as the start sequence's next command. -/
def abortCore : M (List Nat) := do
  let s ← getS
  revoke ownCore
  forAll [3, 4, 5, 6, 7] fun n =>
    if s.fld (CIPH_OWNER_MASTER n) = 1 then do
      clearCiph n
      wr (CIPH_OWNER n) 0
    else nop
  if s.fld FLASHC_STAT_STATE = 1 then modFlash fun f => { f with orphan := true }
  clusterReset intcPage
  appEnd stAborted []
  return [intcPage]

/-- COX. -/
def abortCox : M (List Nat) := do
  clusterReset linkPage
  return [linkPage]

/-- UPDATE: the engine goes to IDLE. -/
def abortUpdate : M (List Nat) := do
  let s ← getS
  let was := s.engine != engIdle
  engStop
  return if was then [hostpPage] else []

/-- Act on each element of a list and gather the clusters acted on. -/
def gather : List (M (List Nat)) → M (List Nat)
  | [] => pure []
  | m :: ms => do
    let a ← m
    let b ← gather ms
    return a ++ b

/-- ALL: every target, every channel and page, and the HOST-owned cells. -/
def abortAll : M (List Nat) := do
  let l ← gather ([abortTx, abortLanes, abortRelays] ++ (List.range 8).map abortCiph ++ (List.range 8).map abortDma
    ++ [abortProg, abortErase, abortXspi, abortCore, abortCox, abortUpdate])
  revoke ownHost
  return l.eraseDups

/-- A target's code: its act and its bound in µs; none where TARGET or INDEX names nothing. -/
def abortPlan (target index : Nat) : Option (M (List Nat) × Nat) :=
  match target with
  | 0x02 => if index < 4 then some (abortLane index, 2) else none
  | 0x05 => if index < 8 then some (abortCiph index, 1) else none
  | 0x06 => if index < 8 then some (abortDma index, 4) else none
  | 0x01 => some (abortTx, 12)
  | 0x03 => some (abortLanes, 2)
  | 0x04 => some (abortRelays, 2)
  | 0x07 => some (abortProg, 80)
  | 0x08 => some (abortErase, 60)
  | 0x09 => some (abortXspi, 20)
  | 0x0A => some (abortCore, 20)
  | 0x0B => some (abortCox, 10)
  | 0x0C => some (abortUpdate, 100)
  | 0x0F => some (abortAll, 250)
  | _ => none

/-- ABORT (R442): the target is stopped, FLT.ABORTED is set in the clusters acted on, the record staged, the reply queued
ahead of all others. -/
def abortCmd (tr : Tr) (tag target index : Nat) : M Unit := do
  match abortPlan target index with
  | none => replyAbort tr tag stParam [0, 0, 0, 0]
  | some (m, bound) =>
    count hostpPage 0x01 0
    count hostpPage 0x02 1
    emit hostpPage 0x61
    let pages ← m
    forAll pages fun p => setFlt p fltAborted
    let us ← freeIn 0 bound
    let s ← getS
    stage 0x0D true stAborted (s.reg hostpPage).toNat (leBytes 1 target ++ leBytes 1 index ++ leBytes 2 us)
    replyAbort tr tag stOk (leBytes 2 us ++ leBytes 1 (b2n !pages.isEmpty) ++ [0])

end Sys2Proof.Machine
end

