-- ==== Sys2Proof/Machine/Host.lean ====
section
/-!
DEFINITION. The host port's commands, and how frames reach them by SPI, UART and mesh (R39, R366, R419–R449, R455).
-/
namespace Sys2Proof.Machine
open Sys2Proof.Reg

/-! ### Which frames are accepted (R422, R431, R432, R440) -/

/-- Does the command accept a payload of n octets (R422, R432)? Over the mesh a block carries fewer (R404, R437). -/
def sizeOk (code n : Nat) (mesh : Bool) : Bool :=
  let block := decide (5 ≤ n) && decide (n ≤ 4 + (if mesh then 96 else 1024))
  match code with
  | 0x01 | 0x21 | 0x42 | 0x43 | 0x4A | 0x58 | 0x61 => n == 0
  | 0x02 => n == 1 || n == 7
  | 0x03 => n == 2
  | 0x10 => n == 6
  | 0x11 => decide (5 ≤ n ∧ n ≤ 4094)
  | 0x20 => decide (17 ≤ n)
  | 0x30 => decide (n ≤ 4092)
  | 0x40 => n == 128
  | 0x41 | 0x49 => block
  | 0x48 => n == 64
  | 0x50 => n == 5
  | 0x51 => n == 1
  | 0x59 => n == 11
  | 0x60 => true
  | _ => false

/-- Does the lifecycle allow the command, by a wire and over the mesh (R440)? READ_MEM's limit in FIELD is its own. -/
def lcOk (code lc : Nat) (mesh : Bool) : Bool :=
  match code with
  | 0x01 | 0x02 | 0x03 | 0x50 | 0x51 | 0x58 | 0x61 => true
  | 0x10 => !mesh && decide (lc < 3)
  | 0x11 => !mesh && decide (lc < 2)
  | 0x20 | 0x21 | 0x59 => !mesh && decide (lc = 1 ∨ lc = 2)
  | _ => decide (lc = 1 ∨ lc = 2)

/-! ### STATUS (R433) -/

/-- VERSION of the committed image; 0 if no bundle stands there. -/
def State.imgVersion (s : State) : Nat := if s.bytes imgBase 4 == [0x51, 0x52, 0x42, 0x4C] then leNat (s.bytes (imgBase + 12) 4) else 0

/-- Is the start complete: has the firmware been jumped to, or does what stands instead of it run? -/
def State.starting (s : State) : Bool := s.dev.sys.phase == .rom || s.dev.sys.phase == .unlock

/-- The 20 octets of a STATUS reply. -/
def State.statusData (s : State) : List Byte :=
  let dead := s.dev.sys.phase == .dead
  leBytes 1 s.lc ++ leBytes 1 (if dead then s.fld SYS_RSTCAUSE_DEADRSN else 0) ++ leBytes 1 s.engine
    ++ leBytes 1 (s.fld LINK_MODE_MODE) ++ leBytes 4 (s.reg SYS_RSTCAUSE).toNat ++ leBytes 4 s.imgVersion
    ++ leBytes 4 (s.reg SYS_CREWSEQ).toNat
    ++ leBytes 1 (s.fld SYS_WDOGSTAT_ALIVE + 2 * s.fld NTIME_STAT_SYNC + 4 * s.fld PWR_STAT_PADHOLD + 8 * b2n s.starting)
    ++ leBytes 1 (s.fld GOV_STAT_STATE) ++ leBytes 2 (s.fld GOV_LEVEL_VSTORE)

/-! ### RESET (R39, R438) -/

/-- The request came in a flood (R39, R438). -/
def flooded : Tr → Bool
  | .mesh hdr _ => (floodIe hdr (parseMac hdr)).isSome
  | _ => false

/-- RESET: the reply first; at its instant, at once, or after the reply. A RESET with an instant that comes while another waits
for its own takes that one's place (DESIGN CHOICE: R39 and R438 do not say; log entry 112). -/
def resetCmd (tr : Tr) (tag scope : Nat) (at_ : Option Nat) : M Unit := do
  let s ← getS
  let r : ResetReq := { scope := scope, src := if flooded tr then 2 else 1 }
  if scope = 0 ∨ 3 < scope then reply tr 0x02 tag stParam []
  else
    let wait := match at_ with
      | some t => s.bit NTIME_STAT_SYNC && decide (0 < ntDelta t s.ntime)
      | none => false
    queueReply tr { frame := replyFrame 0x02 tag stOk [], reset := at_.isNone }
    match at_ with
    | none =>
      modHostp fun h => { h with reset := some (resetMerge h.reset r) }
      resetFollows s.dev.tx.nextId
    | some t =>
      if wait then modHostp fun h => { h with timed := some { r with instant := some t } }
      else doReset r

/-! ### Memory (R434) -/

/-- May a master read a stretch? -/
def State.readable (s : State) (m : Master) (a n : Nat) : Bool :=
  match s.rangeOf a with
  | none => false
  | some r => decide (a + n ≤ r.hi) && (r.kind != .private_ || s.privOk m)
      && ((r.kind != .pages && r.kind != .private_) || (a % 4 == 0 && n % 4 == 0
            && (List.range (n / 4)).all fun k => (pageRows (pageOf (a + 4 * k))).isSome))

/-- May it write one: main SRAM, its own cells, register words? A partial write of a word that cannot be read is a bus
error (R272). -/
def State.writable (s : State) (m : Master) (a n : Nat) : Bool :=
  s.readable m a n && match s.rangeOf a with
    | some ⟨_, _, .pages⟩ | some ⟨_, _, .private_⟩ => true
    | some ⟨_, _, .cells⟩ => (List.range n).all fun k => s.cellWritable m (a + k)
    | some ⟨_, _, .sram⟩ => !([a / 4 * 4, (a + n) / 4 * 4].any fun w =>
        decide (w ∈ s.dev.eccBad) && (decide (w < a) || decide (a + n < w + 4)) && overlapping w 4 a n)
    | _ => false

/-- The accesses that cover a stretch: words where it is aligned, octets elsewhere. -/
def accesses : Nat → Nat → Nat → List (Nat × Size)
  | 0, _, _ => []
  | k + 1, a, n =>
    if n = 0 then []
    else if a % 4 = 0 ∧ 4 ≤ n then (a, .word) :: accesses k (a + 4) (n - 4)
    else (a, .byte) :: accesses k (a + 1) (n - 1)

/-- Read through the bus as a master; none where an access ends in a bus error. -/
def readAll (m : Master) : List (Nat × Size) → M (Option (List Byte))
  | [] => pure (some [])
  | x :: xs => do
    match ← busRead m x.2 x.1 with
    | .ok v =>
      match ← readAll m xs with
      | some l => return some ((leBytes 4 v.toNat).take (accLen x.2) ++ l)
      | none => return none
    | _ => return none

/-- Write through the bus as a master. -/
def writeAll (m : Master) : List (Nat × Size) → List Byte → M Unit
  | [], _ => nop
  | x :: xs, l => do
    let _ ← busWrite m x.2 x.1 (wordOf (l.take (accLen x.2)))
    writeAll m xs (l.drop (accLen x.2))

/-- READ_MEM: the status and the data. In FIELD only the register pages are open (R440). -/
def readMem (a n : Nat) : M (Nat × List Byte) := do
  let s ← getS
  if s.lc = 2 ∧ ¬(0x40000000 ≤ a ∧ a + n ≤ 0x43005000) then return (stState, [])
  else if n = 0 ∨ 4092 < n ∨ !s.readable .host a n then return (stParam, [])
  else
    match ← readAll .host (accesses n a n) with
    | some l => return (stOk, l)
    | none =>
      let l ← freeBytes n
      return (stParam, l)

/-- WRITE_MEM: whole or not at all. -/
def writeMem (a : Nat) (l : List Byte) : M (Nat × List Byte) := do
  let s ← getS
  if s.writable .host a l.length then
    writeAll .host (accesses l.length a l.length) l
    return (stOk, [])
  else return (stParam, [])

/-! ### Frames for gateways (R133, R435) -/

/-- Slots of the host TX ring in use: descriptors not yet taken, and frames not yet completed. -/
def State.hostSlots (s : State) : Nat := s.dev.hostp.tx.length + s.jobs.countP fun j => j.kind == .host

/-- SEND_FRAME: a descriptor, then the frame's octets. -/
def sendFrame (p : List Byte) : M (Nat × List Byte) := do
  let d := p.take 16
  let l := p.drop 16
  let s ← getS
  if 2047 < l.length then return (stLength, [])
  else if 16 ≤ s.hostSlots then return (stBusy, [])
  else match ← allocChain poolHost ownHost (cellsFor l.length) with
    | none => return (stNobuf, [])
    | some cells =>
      chainWrite cells l
      let w := bitsPut (wordOf d) 22 0 ((cells.length - 1) * 2 ^ 20 + cells.headD 0 * 2 ^ 11 + l.length)
      modHostp fun h => { h with tx := h.tx ++ [leBytes 4 w.toNat ++ d.drop 4], slot := (s.dev.hostp.slot + 1) % 16 }
      return (stOk, leBytes 1 s.dev.hostp.slot ++ [0, 0, 0])

/-- FETCH_FRAME: the oldest RX descriptor with its octets; the chain goes with the reply. -/
def fetchFrame (tr : Tr) (tag : Nat) : M Unit := do
  let s ← getS
  match s.dev.hostp.rx with
  | [] => reply tr 0x21 tag stNobuf []
  | d :: rest =>
    let w := wordOf d
    let cells := s.chainFrom (bitsGet w 22 20 + 1) (bitsGet w 19 11)
    modHostp fun h => { h with rx := rest }
    queueReply tr { frame := replyFrame 0x21 tag stOk (d ++ s.chainBytes cells (bitsGet w 10 0)), cells := cells }

/-! ### APP (R436) -/

/-- APP: the payload goes to the firmware in a chain of the core's. An empty payload takes one cell. STATE where the
firmware does not answer APP, answers another, or no chain is to be had. -/
def appCmd (tr : Tr) (tag : Nat) (p : List Byte) : M Unit := do
  let s ← getS
  if !s.bit HOSTP_APPCTL_EN || s.dev.hostp.app.isSome then refuseState tr 0x30 tag
  else match ← allocChain poolHost ownHost (max 1 (cellsFor p.length)) with
    | none => refuseState tr 0x30 tag
    | some cells =>
      chainWrite cells p
      passCells cells ownCore
      setFld HOSTP_APPIN_NCM1 (cells.length - 1)
      setFld HOSTP_APPIN_CELL (cells.headD 0)
      setFld HOSTP_APPIN_LENGTH p.length
      setFld HOSTP_APPIN_VALID 1
      setOut (trNum tr) (some (0x30, tag))
      modHostp fun h => { h with app := some (tr, tag), appIrq := true }

/-! ### Logbook, statistics, time, keys (R215, R432, R439, R455) -/

/-- Up to n valid records from a SEQ upwards, in SEQ order (R432, R469). -/
def State.logFrom (s : State) (q n : Nat) : List (List Byte) :=
  let next := s.logNext
  let all := ((List.range 256).map fun k => next - 256 + k).filterMap fun i =>
    let l := s.bytes (logSlot i) 64
    if q ≤ i ∧ logGood l ∧ numAt l 4 4 = i then some l else none
  all.take n

def logRead (q n : Nat) : M (Nat × List Byte) := do
  let s ← getS
  if n = 0 ∨ 63 < n then return (stParam, []) else return (stOk, (s.logFrom q n).flatMap id)

/-- STATS_READ: 32 entries of 4 octets (R453, R455). -/
def statsRead (set : Nat) : M (Nat × List Byte) := do
  let s ← getS
  if 1 < set then return (stParam, [])
  else return (stOk, (List.range 32).flatMap fun e => leBytes 4 (if set = 0 then s.statShadow e else s.statLive e))

/-- TIME_GET (R439): the words of the two snapshots. -/
def State.timeData (s : State) : List Byte :=
  let n := (s.mbxItem ntimePage 0x01).getD []
  let r := (s.mbxItem rtcPage 0x01).getD []
  leBytes 4 (n.getD 0 0) ++ leBytes 2 (n.getD 1 0) ++ leBytes 1 (n.getD 3 0 % 2 + 2 * (r.getD 3 0 % 2)) ++ [0]
    ++ leBytes 4 (n.getD 2 0) ++ leBytes 4 (r.getD 0 0) ++ leBytes 2 (r.getD 1 0) ++ [0, 0] ++ leBytes 4 (r.getD 2 0)

/-- TIME_SET (R439). -/
def timeSet (flags nt sec : Nat) : M (Nat × List Byte) := do
  if flags % 4 = 0 then return (stParam, [])
  else
    if bitOf flags 0 then
      timeStep nt
      setFld NTIME_STAT_SYNC 1
      setFld NTIME_TRIM_TRIM 0
    if bitOf flags 1 then rtcSecondsWrite (BitVec.ofNat 32 sec)
    return (stOk, [])

/-- KEY_LOAD (R215): UNWRAP on page P1. -/
def keyLoad (blob : List Byte) : M (Nat × List Byte) := do
  let s ← getS
  if blob.length ≠ 56 then return (stLength, [])
  else if (s.ciph 1).job.isSome then return (stBusy, [])
  else
    let job : CiphJob := match s.unwrapBlob blob with
      | .error st => { status := st, blocks := if st = stKey then 0 else 36 }
      | .ok f => { status := stOk, blocks := 36, fill := some f }
    modCiph 1 fun p => { p with job := some job }
    ciphDone 1
    return (job.status, [])

/-! ### A command (R422, R429–R432) -/

/-- Reply with what a command answers; STATE is a refusal (R430). -/
def answer (tr : Tr) (code tag : Nat) (body : M (Nat × List Byte)) : M Unit := do
  let (st, data) ← body
  if st = stState then refuseState tr code tag else reply tr code tag st data

/-- A status alone. -/
def bare (m : M Nat) : M (Nat × List Byte) := do return (← m, [])

/-- Carry out an accepted command. -/
def carryOutCmd (tr : Tr) (code tag : Nat) (p : List Byte) : M Unit := do
  let t := trNum tr
  let ans := answer tr code tag
  match code with
  | 0x01 => ans (do return (stOk, (← getS).statusData))
  | 0x02 => resetCmd tr tag (numAt p 0 1) (if p.length = 7 then some (numAt p 1 6) else none)
  | 0x10 => ans (readMem (numAt p 0 4) (numAt p 4 2))
  | 0x11 => ans (writeMem (numAt p 0 4) (p.drop 4))
  | 0x20 => ans (sendFrame p)
  | 0x21 => fetchFrame tr tag
  | 0x30 => appCmd tr tag p
  | 0x40 => ans (bare (updateBegin t p))
  | 0x41 => ans (bare (updateBlock t (numAt p 0 4) (p.drop 4)))
  | 0x42 => ans (bare (updateEnd t))
  | 0x43 => do
    let n := (← getS).dev.tx.nextId
    let st ← updateCommit t
    if st = stOk then
      queueReply tr { frame := replyFrame 0x43 tag stOk [], reset := true }
      resetFollows n
    else ans (pure (st, []))
  | 0x48 => ans (bare (configBegin t p))
  | 0x49 => ans (bare (configBlock t (numAt p 0 4) (p.drop 4)))
  | 0x4A => ans (bare (configEnd t))
  | 0x50 => ans (logRead (numAt p 0 4) (numAt p 4 1))
  | 0x51 => ans (statsRead (numAt p 0 1))
  | 0x58 => ans (do return (stOk, (← getS).timeData))
  | 0x59 => ans (timeSet (numAt p 0 1) (numAt p 1 6) (numAt p 7 4))
  | 0x60 => ans (keyLoad p)
  | _ => ans (do
    govCmd 1
    return (stOk, []))

/-- A command received whole on a transport. -/
def hostCmd (tr : Tr) (code tag : Nat) (p : List Byte) : M Unit := do
  let s ← getS
  let mesh := trNum tr == 2
  if s.trOn (trNum tr) && s.portAwake then
    if s.dev.sys.phase = .dead ∧ code ≠ 0x01 then refuseState tr code tag
    else if code = 0x03 then
      if sizeOk 0x03 p.length mesh then abortCmd tr tag (numAt p 0 1) (numAt p 1 1)
      else replyAbort tr tag stParam [0, 0, 0, 0]
    else if (s.port (trNum tr)).out.isSome then
      count hostpPage 0x01 2
      refuse tr code tag stBusy
    else if s.starting && code != 0x01 then refuseState tr code tag
    else if !sizeOk code p.length mesh then reply tr code tag stParam []
    else if !lcOk code s.lc mesh then refuseState tr code tag
    else
      count hostpPage 0x01 0
      emit hostpPage 0x61
      carryOutCmd tr code tag p

/-! ### The rows of the commands (R432) -/

/-- STATUS. -/
def execStatus (tr : Tr) (tag : Byte) (s : State) : Host.Outcome State Fault Refusal := cmd s (hostCmd tr 0x01 tag.toNat [])

/-- The payload of a RESET: SCOPE, and AT where one is given (R432). -/
def resetPayload (scope : Nat) (at_ : Option (BitVec 48)) : List Byte :=
  leBytes 1 scope ++ match at_ with | some t => leBytes 6 t.toNat | none => []

/-- RESET with SCOPE 1. -/
def execResetLinkRegion (tr : Tr) (tag : Byte) (at_ : Option (BitVec 48)) (s : State) : Host.Outcome State Fault Refusal :=
  cmd s (hostCmd tr 0x02 tag.toNat (resetPayload 1 at_))

/-- RESET with SCOPE 2. -/
def execResetRadioDie (tr : Tr) (tag : Byte) (at_ : Option (BitVec 48)) (s : State) : Host.Outcome State Fault Refusal :=
  cmd s (hostCmd tr 0x02 tag.toNat (resetPayload 2 at_))

/-- RESET with SCOPE 3. -/
def execResetStart (tr : Tr) (tag : Byte) (at_ : Option (BitVec 48)) (s : State) : Host.Outcome State Fault Refusal :=
  cmd s (hostCmd tr 0x02 tag.toNat (resetPayload 3 at_))

/-- RESET_DELAY_EXPIRY (R438): the reset that waits for its reply takes place. -/
def execResetDelayExpiry (s : State) : Host.Outcome State Fault Refusal := cmd s resetNow

/-- TIMED_RESET (R438): NTIME has reached the instant. -/
def execTimedReset (s : State) : Host.Outcome State Fault Refusal := cmd s do
  match s.dev.hostp.timed with
  | none => nop
  | some r =>
    modHostp fun h => { h with timed := none }
    doReset r

/-- The payload of an ABORT (R432). -/
def abortPayload (target index : Nat) : List Byte := leBytes 1 target ++ leBytes 1 index

/-- ABORT of TX. -/
def execAbortTx (tr : Tr) (tag : Byte) (s : State) : Host.Outcome State Fault Refusal :=
  cmd s (hostCmd tr 0x03 tag.toNat (abortPayload 0x01 0))

/-- ABORT of a lane. -/
def execAbortLane (tr : Tr) (tag : Byte) (n : Fin 4) (s : State) : Host.Outcome State Fault Refusal :=
  cmd s (hostCmd tr 0x03 tag.toNat (abortPayload 0x02 n.val))

/-- ABORT of all lanes. -/
def execAbortLanes (tr : Tr) (tag : Byte) (s : State) : Host.Outcome State Fault Refusal :=
  cmd s (hostCmd tr 0x03 tag.toNat (abortPayload 0x03 0))

/-- ABORT of the relays. -/
def execAbortRelays (tr : Tr) (tag : Byte) (s : State) : Host.Outcome State Fault Refusal :=
  cmd s (hostCmd tr 0x03 tag.toNat (abortPayload 0x04 0))

/-- ABORT of a cipher page. -/
def execAbortCiph (tr : Tr) (tag : Byte) (n : Fin 8) (s : State) : Host.Outcome State Fault Refusal :=
  cmd s (hostCmd tr 0x03 tag.toNat (abortPayload 0x05 n.val))

/-- ABORT of a DMA channel. -/
def execAbortDma (tr : Tr) (tag : Byte) (n : Fin 8) (s : State) : Host.Outcome State Fault Refusal :=
  cmd s (hostCmd tr 0x03 tag.toNat (abortPayload 0x06 n.val))

/-- ABORT of a flash program. -/
def execAbortFlashProg (tr : Tr) (tag : Byte) (s : State) : Host.Outcome State Fault Refusal :=
  cmd s (hostCmd tr 0x03 tag.toNat (abortPayload 0x07 0))

/-- ABORT of a flash erase. -/
def execAbortFlashErase (tr : Tr) (tag : Byte) (s : State) : Host.Outcome State Fault Refusal :=
  cmd s (hostCmd tr 0x03 tag.toNat (abortPayload 0x08 0))

/-- ABORT of XSPI. -/
def execAbortXspi (tr : Tr) (tag : Byte) (s : State) : Host.Outcome State Fault Refusal :=
  cmd s (hostCmd tr 0x03 tag.toNat (abortPayload 0x09 0))

/-- ABORT of the core. -/
def execAbortCore (tr : Tr) (tag : Byte) (s : State) : Host.Outcome State Fault Refusal :=
  cmd s (hostCmd tr 0x03 tag.toNat (abortPayload 0x0A 0))

/-- ABORT of the Cox sequencer. -/
def execAbortCox (tr : Tr) (tag : Byte) (s : State) : Host.Outcome State Fault Refusal :=
  cmd s (hostCmd tr 0x03 tag.toNat (abortPayload 0x0B 0))

/-- ABORT of the update. -/
def execAbortUpdate (tr : Tr) (tag : Byte) (s : State) : Host.Outcome State Fault Refusal :=
  cmd s (hostCmd tr 0x03 tag.toNat (abortPayload 0x0C 0))

/-- ABORT of everything. -/
def execAbortAll (tr : Tr) (tag : Byte) (s : State) : Host.Outcome State Fault Refusal :=
  cmd s (hostCmd tr 0x03 tag.toNat (abortPayload 0x0F 0))

/-- READ_MEM. -/
def execReadMem (tr : Tr) (tag : Byte) (p : List Byte) (s : State) : Host.Outcome State Fault Refusal :=
  cmd s (hostCmd tr 0x10 tag.toNat p)

/-- WRITE_MEM. -/
def execWriteMem (tr : Tr) (tag : Byte) (p : List Byte) (s : State) : Host.Outcome State Fault Refusal :=
  cmd s (hostCmd tr 0x11 tag.toNat p)

/-- SEND_FRAME. -/
def execSendFrame (tr : Tr) (tag : Byte) (p : List Byte) (s : State) : Host.Outcome State Fault Refusal :=
  cmd s (hostCmd tr 0x20 tag.toNat p)

/-- FETCH_FRAME. -/
def execFetchFrame (tr : Tr) (tag : Byte) (s : State) : Host.Outcome State Fault Refusal :=
  cmd s (hostCmd tr 0x21 tag.toNat [])

/-- APP. -/
def execApp (tr : Tr) (tag : Byte) (p : List Byte) (s : State) : Host.Outcome State Fault Refusal :=
  cmd s (hostCmd tr 0x30 tag.toNat p)

/-- UPDATE_BEGIN. -/
def execUpdateBegin (tr : Tr) (tag : Byte) (p : List Byte) (s : State) : Host.Outcome State Fault Refusal :=
  cmd s (hostCmd tr 0x40 tag.toNat p)

/-- UPDATE_BLOCK. -/
def execUpdateBlock (tr : Tr) (tag : Byte) (p : List Byte) (s : State) : Host.Outcome State Fault Refusal :=
  cmd s (hostCmd tr 0x41 tag.toNat p)

/-- UPDATE_END. -/
def execUpdateEnd (tr : Tr) (tag : Byte) (s : State) : Host.Outcome State Fault Refusal :=
  cmd s (hostCmd tr 0x42 tag.toNat [])

/-- UPDATE_COMMIT. -/
def execUpdateCommit (tr : Tr) (tag : Byte) (s : State) : Host.Outcome State Fault Refusal :=
  cmd s (hostCmd tr 0x43 tag.toNat [])

/-- CONFIG_BEGIN. -/
def execConfigBegin (tr : Tr) (tag : Byte) (p : List Byte) (s : State) : Host.Outcome State Fault Refusal :=
  cmd s (hostCmd tr 0x48 tag.toNat p)

/-- CONFIG_BLOCK. -/
def execConfigBlock (tr : Tr) (tag : Byte) (p : List Byte) (s : State) : Host.Outcome State Fault Refusal :=
  cmd s (hostCmd tr 0x49 tag.toNat p)

/-- CONFIG_END. -/
def execConfigEnd (tr : Tr) (tag : Byte) (s : State) : Host.Outcome State Fault Refusal :=
  cmd s (hostCmd tr 0x4A tag.toNat [])

/-- LOG_READ. -/
def execLogRead (tr : Tr) (tag : Byte) (p : List Byte) (s : State) : Host.Outcome State Fault Refusal :=
  cmd s (hostCmd tr 0x50 tag.toNat p)

/-- STATS_READ. -/
def execStatsRead (tr : Tr) (tag : Byte) (p : List Byte) (s : State) : Host.Outcome State Fault Refusal :=
  cmd s (hostCmd tr 0x51 tag.toNat p)

/-- TIME_GET. -/
def execTimeGet (tr : Tr) (tag : Byte) (s : State) : Host.Outcome State Fault Refusal :=
  cmd s (hostCmd tr 0x58 tag.toNat [])

/-- TIME_SET. -/
def execTimeSet (tr : Tr) (tag : Byte) (p : List Byte) (s : State) : Host.Outcome State Fault Refusal :=
  cmd s (hostCmd tr 0x59 tag.toNat p)

/-- KEY_LOAD. -/
def execKeyLoad (tr : Tr) (tag : Byte) (p : List Byte) (s : State) : Host.Outcome State Fault Refusal :=
  cmd s (hostCmd tr 0x60 tag.toNat p)

/-- DISCHARGE. -/
def execDischarge (tr : Tr) (tag : Byte) (s : State) : Host.Outcome State Fault Refusal :=
  cmd s (hostCmd tr 0x61 tag.toNat [])

/-! ### Frames as octets (R420, R422) -/

/-- A frame is discarded with LENGTH (R422), on a transport that takes frames. -/
def frameBad (tr : Tr) (code tag : Nat) : M Unit := do
  let s ← getS
  if s.trOn (trNum tr) && s.portAwake then refuseLength tr code tag

/-- A frame's CRC does not match (R422). -/
def frameCrc (tr : Tr) : M Unit := do
  let s ← getS
  if s.trOn (trNum tr) && s.portAwake then count hostpPage 0x01 3

/-- A frame as received by SPI or UART (R420, R422): what follows its last octet is ignored. -/
def frameIn (tr : Tr) (l : List Byte) : M Unit := do
  let len := numAt l 2 2
  let code := numAt l 0 1
  let tag := numAt l 1 1
  if l.length < 4 ∨ 4096 < len ∨ l.length < 6 + len then frameBad tr code tag
  else if numAt l (4 + len) 2 ≠ crc16 0xFFFF (l.take (4 + len)) then frameCrc tr
  else hostCmd tr code tag (sliceOf l 4 len)

/-- HOST_FRAME_TOO_LONG (R422). -/
def execHostFrameTooLong (tr : Tr) (code tag : Byte) (s : State) : Host.Outcome State Fault Refusal :=
  cmd s (frameBad tr code.toNat tag.toNat)

/-- HOST_FRAME_SHORT (R422). -/
def execHostFrameShort (tr : Tr) (code tag : Byte) (s : State) : Host.Outcome State Fault Refusal :=
  cmd s (frameBad tr code.toNat tag.toNat)

/-- HOST_FRAME_CRC_FAIL (R422). -/
def execHostFrameCrcFail (tr : Tr) (s : State) : Host.Outcome State Fault Refusal := cmd s (frameCrc tr)

/-! ### SPI (R424, R425, R446, R447) -/

/-- A bit of SPIH_EVT is set and its cause counted. -/
def spihEvent (bit item w : Nat) : M Unit := do
  let v ← rd SPIH_EVT
  wr SPIH_EVT (v ||| BitVec.ofNat 32 (2 ^ bit))
  count spihPage item w

/-- The status octets of a transaction (R424). -/
def State.spiStatus (s : State) : List Byte :=
  let p := s.port 0
  let n := match s.waiting 0 with | f :: _ => f.length | [] => 0
  leBytes 1 (b2n (!(s.waiting 0).isEmpty) + 2 * b2n p.out.isSome + 4 * b2n (s.dev.sys.phase == .dead) + 8 * b2n p.dropped)
    ++ [0] ++ leBytes 2 n

/-- A transaction begins: HS_CS_N falls (EV_HS_CS). One in EASY wakes the device and is not received; one in REST is
discarded when clocked too soon, and when the falling edge is no enabled wake source. `body` is given the status octets
and answers what it sends and how many octets it takes. -/
def spiBegin (early : Bool) (op : Nat) (body : M (List Byte × Nat)) : M Unit := do
  let s ← getS
  emit pwrPage 0x18
  match s.dev.pwr.state with
  | .easy => wakeSource 11
  | st =>
    if st = .rest then wakeRest (2 ^ 11)
    let s ← getS
    if s.bit HOSTP_CFG_SPIEN then
      count spihPage 0x01 0
      if st = .rest && (early || s.dev.pwr.state == .rest) then spihEvent 0 0x01 1
      else
        setFld SPIH_STAT_OP op
        let head := s.spiStatus
        modPort 0 fun p => { p with dropped := false }
        let (out, taken) ← body
        modHostp fun h => { h with miso := head ++ out }
        countN 32 spihPage 0x02 2 (4 + taken)
        countN 32 spihPage 0x02 3 (4 + out.length)

/-- SPI_POLL (R424). -/
def execSpiPoll (early : Bool) (s : State) : Host.Outcome State Fault Refusal := cmd s (spiBegin early 0 (pure ([], 0)))

/-- SPI_WRITE (R424): one command frame; octets after its last are ignored and recorded (R447). -/
def execSpiWrite (octets : List Byte) (early : Bool) (s : State) : Host.Outcome State Fault Refusal :=
  cmd s <| spiBegin early 1 do
    if 6 + numAt octets 2 2 < octets.length ∧ numAt octets 2 2 ≤ 4096 then spihEvent 3 0x02 0
    frameIn .spi octets
    return (List.replicate octets.length 0, octets.length)

/-- SPI_READ (R424) of n octets after the status octets: read whole, the frame leaves; otherwise it waits (R447). -/
def execSpiRead (n : Nat) (early : Bool) (s : State) : Host.Outcome State Fault Refusal :=
  cmd s <| spiBegin early 2 do
    let t ← getS
    match t.waiting 0 with
    | [] => return (List.replicate n 0, n)
    | f :: _ =>
      if n < f.length then spihEvent 2 0x01 3 else popFrame 0
      return (sliceOf f 0 n, n)

/-- SPI_UNKNOWN_OP (R424): ignored and recorded as BADOP (R447); the OPs R424 names have rows of their own. -/
def execSpiUnknownOp (op : Byte) (s : State) : Host.Outcome State Fault Refusal := cmd s do
  if 2 < op.toNat then
    spiBegin false (op.toNat % 4) (do
      spihEvent 1 0x01 2
      return ([], 0))

/-! ### UART (R426) -/

/-- An octet on the port's UART: flags, stuffing, and the frame a closing flag ends. -/
def uartIn (b : Byte) : M Unit := do
  let s ← getS
  let h := s.dev.hostp
  if b = 0x7E then
    if h.isOpen ∧ h.buf ≠ [] then
      modHostp fun x => { x with buf := [], esc := false, isOpen := false }
      frameIn .uart h.buf
    else modHostp fun x => { x with buf := [], esc := false, isOpen := true }
  else if h.isOpen then
    if b = 0x7D ∧ !h.esc then modHostp fun x => { x with esc := true }
    else modHostp fun x => { x with buf := x.buf ++ [if h.esc then b ^^^ 0x20 else b], esc := false }

/-- UART_RX_OCTET (R426, R495): with the port's UART transport enabled, the octets of UART1 are the port's. -/
def execUartRxOctet (n : Fin 3) (b : Byte) (ferr perr : Bool) (s : State) : Host.Outcome State Fault Refusal := cmd s do
  if n.val = 1 ∧ s.bit HOSTP_CFG_UARTEN then
    if s.portAwake then uartIn b
  else uartReceive n.val b ferr perr

/-- UART_GAP_TIMEOUT (R426): the partial frame is discarded without a reply. -/
def execUartGapTimeout (s : State) : Host.Outcome State Fault Refusal := cmd s do
  modHostp fun x => { x with buf := [], esc := false, isOpen := false }

/-- HOST_UART_FRAME_SENT (R423, R435, R438): the first frame that waits at the UART has been sent. -/
def execHostUartFrameSent (s : State) : Host.Outcome State Fault Refusal := cmd s do
  if s.portAwake ∧ s.bit HOSTP_CFG_UARTEN then popFrame 1

/-! ### Mesh (R427, R428) -/

/-- Carry out one management frame: its chain returns to the pool, and its private data is one command frame without the
CRC, or it is discarded with LENGTH (R422). -/
def mgmtOne (d l : List Byte) : M Unit := do
  let w := wordOf d
  let s ← getS
  releaseHost (s.chainFrom (bitsGet w 22 20 + 1) (bitsGet w 19 11))
  if s.bit HOSTP_CFG_MESHEN then
    let m := parseMac l
    let p := sliceOf l m.hdrLen (l.length - m.hdrLen - micLen m.level)
    let tr : Tr := .mesh (l.take m.hdrLen) (Fin.ofNat 4 (bitsGet w 27 26))
    if p.length < 4 ∨ 4096 < numAt p 2 2 ∨ p.length ≠ 4 + numAt p 2 2 then frameBad tr (numAt p 0 1) (numAt p 1 1)
    else hostCmd tr (numAt p 0 1) (numAt p 1 1) (p.drop 4)

/-- Carry out up to n management frames that wait, oldest first, while the port's clocks run. -/
def mgmtTake : Nat → M Unit
  | 0 => nop
  | n + 1 => do
    let s ← getS
    match s.dev.hostp.mgmt with
    | [] => nop
    | x :: rest =>
      if s.portAwake then
        modHostp fun h => { h with mgmt := rest }
        mgmtOne x.1 x.2
        mgmtTake n

/-- Carry out the management frames that wait. -/
def mgmtRun : M Unit := do mgmtTake (← getS).dev.hostp.mgmt.length

/-- FRAME_END (R138), and the management frames it delivers. -/
def execFrameEnd (n : Fin 4) (psdu : List Byte) (s : State) : Host.Outcome State Fault Refusal := cmd s do
  frameEnd n.val psdu
  mgmtRun

/-- MIC_RESULT (R223), and the management frames it delivers. -/
def execMicResult (n : Fin 4) (s : State) : Host.Outcome State Fault Refusal := cmd s do
  micResult n.val
  mgmtRun

end Sys2Proof.Machine
end

