-- ==== Sys2Proof/Machine/Mon.lean ====
section
/-!
DEFINITION. The Boathouse monitor's command lines and hex records (R411, R471–R476). A reply's data and status stand in the
monitor's state; their layout on the line is not modelled (log entry 75).
-/
namespace Sys2Proof.Machine
open Sys2Proof.Reg

def modMon (f : Mon → Mon) : M Unit := modDev fun d => { d with mon := f d.mon }

/-- The monitor takes commands: in the monitor, in factory service, and in Dead where R388 opens it (R411). -/
def State.monOpen (s : State) : Bool :=
  match s.dev.sys.phase with
  | .monitor | .factory => true
  | .dead =>
    match bootMode s.lc (s.fld SYS_LIFECYCLE_STRAPS) with
    | 1 | 2 => true
    | 3 => s.dev.mon.opened
    | _ => false
  | _ => false

/-- The unlock exchange is open (R411, R476). -/
def State.monLocked (s : State) : Bool :=
  s.dev.sys.phase == .unlock
    || (s.dev.sys.phase == .dead && bootMode s.lc (s.fld SYS_LIFECYCLE_STRAPS) == 3 && !s.dev.mon.opened
          && decide (s.dev.mon.tries < 3))

/-- A reply: its data and its status, OK as `ok`, any other after `err`. -/
def monReply (st : Nat) (out : List Byte) : M Unit := modMon fun m => { m with status := st, out := out }

/-- A command line where the monitor is open; the unlock exchange answers others with STATE. -/
def monCmd (body : M (Nat × List Byte)) : M Unit := do
  let s ← getS
  if s.monOpen then
    let (st, out) ← body
    monReply st out
  else if s.monLocked then monReply stState []

/-- The ROM's accesses. -/
abbrev monMaster : Master := .core true

/-- Does a stretch meet the monitor's own data (R471)? -/
def monOwn (a n : Nat) : Bool := overlapping a n 0x2007F000 0x1000

/-- Words from an address upwards, while no access ends in a bus error. -/
def monRead (a : Word) (n : Nat) : M (Nat × List Byte) := do
  if a.toNat % 4 ≠ 0 ∨ n = 0 ∨ 64 < n then return (stParam, [])
  else match ← readAll monMaster ((List.range n).map fun k => (((a + BitVec.ofNat 32 (4 * k)) : Word).toNat, .word)) with
    | some l => return (stOk, l)
    | none => return (stParam, [])

/-- Write one value to n words, until an access ends in a bus error. -/
def fillWords : Nat → Word → Word → M Nat
  | 0, _, _ => pure stOk
  | n + 1, a, v => do
    match ← busWrite monMaster .word a.toNat v with
    | .ok _ => fillWords n (a + 4) v
    | _ => return stParam

/-- wr and fill (R472). -/
def monFill (a : Word) (n : Nat) (v : Word) : M (Nat × List Byte) := do
  if a.toNat % 4 ≠ 0 ∨ n = 0 ∨ 65535 < n ∨ monOwn a.toNat (4 * n) then return (stParam, [])
  else return (← fillWords n a v, [])

/-- MON_RD (R472). -/
def execMonRd (a : Word) (n : Nat) (s : State) : Host.Outcome State Fault Refusal := cmd s (monCmd (monRead a n))

/-- MON_WR (R472). -/
def execMonWr (a v : Word) (s : State) : Host.Outcome State Fault Refusal := cmd s (monCmd (monFill a 1 v))

/-- MON_FILL (R472). -/
def execMonFill (a : Word) (n : Nat) (v : Word) (s : State) : Host.Outcome State Fault Refusal :=
  cmd s (monCmd (monFill a n v))

/-- MON_DUMP (R472). -/
def execMonDump (a : Word) (n : Nat) (s : State) : Host.Outcome State Fault Refusal := cmd s <| monCmd do
  if n = 0 ∨ 4096 < n then return (stParam, [])
  else match ← readAll monMaster ((List.range n).map fun k => (((a + BitVec.ofNat 32 k) : Word).toNat, .byte)) with
    | some l => return (stOk, l)
    | none => return (stParam, [])

/-- MON_LOAD (R472). -/
def execMonLoad (s : State) : Host.Outcome State Fault Refusal := cmd s <| monCmd do
  modMon fun m => { m with load := true }
  return (stOk, [])

/-- The sum a hex record's checksum complements (R473). -/
def hexSum (a : Word) (data : List Byte) : Nat :=
  ((leBytes 4 a.toNat ++ data).foldl (fun x b => x + b.toNat) 0) % 256

/-- HEX_RECORD (R473), while the monitor takes records. -/
def execHexRecord (a : Word) (data : List Byte) (sum : Byte) (s : State) : Host.Outcome State Fault Refusal := cmd s do
  if s.dev.mon.load then
    monCmd do
      if 64 < data.length ∨ (hexSum a data + sum.toNat) % 256 ≠ 0 then return (stParam, [])
      else if data = [] then
        modMon fun m => { m with load := false }
        return (stOk, [])
      else if monOwn a.toNat data.length ∨ !s.writable monMaster a.toNat data.length then return (stParam, [])
      else
        writeAll monMaster (accesses data.length a.toNat data.length) data
        return (stOk, [])

/-! ### Running a program (R472, R475) -/

/-- The program's saved registers come back and it runs; in Dead nothing is run (R411). -/
def monRun (steps : Nat) : M (Nat × List Byte) := do
  let s ← getS
  if s.dev.sys.phase = .dead then return (stState, [])
  else
    modMon fun m => { m with steps := steps }
    monResume
    return (stOk, [])

/-- MON_GO (R472). -/
def execMonGo (a : Word) (s : State) : Host.Outcome State Fault Refusal := cmd s <| monCmd do
  if s.dev.sys.phase ≠ .dead then modMon fun m => { m with pc := a &&& 0xFFFFFFFC }
  monRun 0

/-- MON_STEP (R475). -/
def execMonStep (n : Nat) (s : State) : Host.Outcome State Fault Refusal := cmd s <| monCmd do
  if n = 0 ∨ 256 < n then return (stParam, []) else monRun n

/-! ### Comparators (R474, R482) -/

/-- MON_BP (R474). -/
def execMonBp (n : Nat) (a : Word) (kind mask : Nat) (s : State) : Host.Outcome State Fault Refusal := cmd s <| monCmd do
  if 4 ≤ n ∨ 4 ≤ kind ∨ 32 ≤ mask then return (stParam, [])
  else
    wr (BP_ADDR n) a
    wr (BP_CTL n) (BitVec.ofNat 32 (mask * 8 + kind * 2 + 1))
    return (stOk, [])

/-- MON_BPC (R474). -/
def execMonBpc (n : Nat) (s : State) : Host.Outcome State Fault Refusal := cmd s <| monCmd do
  if 4 ≤ n then return (stParam, [])
  else
    wr (BP_CTL n) 0
    return (stOk, [])

/-! ### Saved registers (R472) -/

/-- The saved registers in order: g0–g15, PC, ST, XPC, XST, XCAUSE, FADDR. -/
def State.savedRegs (s : State) : List Word :=
  (List.range 16).map s.g ++ [s.dev.mon.pc, s.dev.mon.st, s.core.xpc, s.core.xst, s.core.xcause, s.core.faddr]

/-- MON_REGS (R472). -/
def execMonRegs (s : State) : Host.Outcome State Fault Refusal :=
  cmd s <| monCmd (pure (stOk, s.savedRegs.flatMap fun w => leBytes 4 w.toNat))

/-- MON_SET (R472). -/
def execMonSet (r : Fin 22) (v : Word) (s : State) : Host.Outcome State Fault Refusal := cmd s <| monCmd do
  if r.val < 16 then setG r.val v
  else if r.val = 16 then modMon fun m => { m with pc := v &&& 0xFFFFFFFC }
  else if r.val = 17 then modMon fun m => { m with st := v &&& stMask }
  else if r.val = 18 then modCore fun c => { c with xpc := v }
  else if r.val = 19 then modCore fun c => { c with xst := v }
  else if r.val = 20 then modCore fun c => { c with xcause := v }
  else modCore fun c => { c with faddr := v }
  return (stOk, [])

/-! ### Services (R470, R472) -/

/-- MON_FLASH (R472): PROGRAM 0, ERASE 1, STATUS 2, READ_COUNTERS 3; what the service leaves in g0–g3 is shown. -/
def execMonFlash (op : Fin 4) (a1 a2 a3 : Word) (vsys : Nat) (s : State) : Host.Outcome State Fault Refusal :=
  cmd s <| monCmd do
    jOwed
    let rs ← match op with
      | 0 => program a1.toNat a2.toNat a3.toNat vsys
      | 1 => eraseCall a1.toNat vsys
      | 2 => flashStatus
      | _ => readCounters a1.toNat
    let st := match rs with | (_, v) :: _ => v | [] => stOk
    return (if op = 2 then stOk else st, rs.flatMap fun r => leBytes 4 r.2)

/-- MON_LOG (R472). -/
def execMonLog (seq : Word) (n : Nat) (s : State) : Host.Outcome State Fault Refusal :=
  cmd s <| monCmd (logRead seq.toNat n)

/-! ### The unlock exchange (R476) -/

/-- The monitor closes: the ROM goes on at step 7; in Dead there is nothing to go on to. -/
def monClose : M Unit := do
  let s ← getS
  if s.dev.sys.phase = .unlock then
    modDev fun d => { d with sys := { d.sys with phase := .rom } }
    bootEnd (s.g 2) vFlash
  else modMon fun m => { m with tries := 3 }

/-- What the response is taken over (R476). -/
def State.unlockText (s : State) : List Byte := [0x55, 0x4E, 0x4C, 0x4B] ++ s.dev.mon.challenge ++ s.otpExt

/-- MON_UNLOCK (R476): without a response the challenge is shown; each response is an attempt. -/
def execMonUnlock (response : List Byte) (cycles : List Word) (s : State) : Host.Outcome State Fault Refusal := cmd s do
  if s.monLocked then
    if response = [] then monReply stOk (s.dev.mon.challenge ++ s.otpExt)
    else
      let ok := s.sealedCmac 0 2 s.unlockText == some response
      let n := s.dev.mon.tries + 1
      stage 0x0C false (if ok then stOk else stAuth) 0 (leBytes 1 n)
      monReply (if ok then stOk else stAuth) []
      modMon fun m => { m with tries := n, opened := ok }
      if ok then
        if s.dev.sys.phase = .unlock then
          setFld BP_MON_ROUTE 1
          modDev fun d => { d with sys := { d.sys with phase := .monitor } }
      else
        newChallenge (cycles.take 16)
        if 3 ≤ n then monClose

/-- UNLOCK_TIMEOUT (R476). -/
def execUnlockTimeout (s : State) : Host.Outcome State Fault Refusal := cmd s do
  if s.monLocked then monClose

/-- MON_BAUD_DETECT (R471): a rate inside the range is adopted. -/
def execMonBaudDetect (baud : Nat) (s : State) : Host.Outcome State Fault Refusal := cmd s do
  if (s.monOpen || s.monLocked) && decide (9600 ≤ baud ∧ baud ≤ 921600) then modMon fun m => { m with baud := baud }

end Sys2Proof.Machine
end

