-- ==== Sys2Proof/Machine/Clock.lean ====
section
/-!
DEFINITION. What the block does when no command waits (log entry 1): an event on its way reaches the Rigger's channels
(R318, R322), or, with none, 25 ns pass and the counters that time drives advance (R4, R177, R340).
-/
namespace Sys2Proof.Machine
open Sys2Proof.Reg

/-! ### Events on their way to the Rigger (R318, R322) -/

/-- The enabled channels an event is the source of, in ascending order (R321, R322). -/
def State.listeners (s : State) (ev : Nat) : List Nat :=
  (List.range 64).filter fun n => s.rigOn n && s.fld (RIGGER_SRC_SRC n) == ev

/-- The event reaches the Rigger: a new fabric cycle, and a BEACON heat comes nearer to its end (R322, R450). -/
def eventArrives (ev : Nat) : M Unit := do
  fabricCycle
  heatBeacon ev

/-- The firings an event brings (R322). -/
def State.firings (s : State) (ev : Nat) : List Instr :=
  (s.listeners ev).map fun n => .riggerChannelFire ⟨n % 64, Nat.mod_lt n (by decide)⟩

/-! ### 25 ns (R4) -/

/-- NTIME after one link tick, and the fraction under a trim in ppb (R177, R179): a step of 0 or 2 ticks when the
fraction carries. -/
def ntimeNext (ntime : Nat) (frac trim : Int) : Nat × Int :=
  let f := frac + trim
  if 1000000000 ≤ f then ((ntime + 2) % 2 ^ 48, f - 1000000000)
  else if f ≤ -1000000000 then (ntime % 2 ^ 48, f + 1000000000)
  else ((ntime + 1) % 2 ^ 48, f)

/-- One link tick; the LF calibration counts NTIME ticks (R177, R182). -/
def linkTick : M Unit := do
  let s ← getS
  if s.linkClock then
    let n := ntimeNext s.dev.time.ntime s.dev.time.frac (signed 20 (s.fld NTIME_TRIM_TRIM))
    modTime fun t => { t with link := t.link + 1, ntime := n.1, frac := n.2
                              calLink := t.calLink + (n.1 + 2 ^ 48 - t.ntime % 2 ^ 48) % 2 ^ 48 }

/-- Is this 25 ns the one an LF edge falls in (R4)? 78,125 link ticks make 64 LF ticks. -/
def State.lfEdge (s : State) : Bool := decide (78125 ≤ s.dev.time.lfPhase + 64)

/-- The watchdog counts LF ticks in RUN and DOZE (R408). -/
def State.wdogCounts (s : State) : Bool :=
  s.bit SYS_WDOGSTAT_RUN && (s.dev.pwr.state == .run || s.dev.pwr.state == .doze) && s.dev.sys.wdLeft != 0

/-- One LF tick: the AO count (R385), the calibration (R182), the RTC prescaler and the duty minute on crystal ticks
(R64, R340, R381), the watchdog (R408), the storm guard's tick (R326). -/
def lfTick : M Unit := do
  let s ← getS
  modTime fun t => { t with ao := (t.ao + 1) % 2 ^ 48, calLf := if s.linkClock then t.calLf + 1 else t.calLf }
  if s.bit PWR_CLKSTAT_LFOK then
    modRtc fun r => { r with prescaler := min 32767 (r.prescaler + 1) }
    modDev fun d => { d with duty := { d.duty with minute := min 1966079 (d.duty.minute + 1) } }
  if s.wdogCounts then modDev fun d => { d with sys := { d.sys with wdLeft := d.sys.wdLeft - 1 } }
  rigLfTick

/-- 25 ns pass: a fabric cycle of the main region is over, the counters, then what waits for a frame to be over (R149, R191) and the management frames that wait. -/
def tick : M Unit := do
  let s ← getS
  modTime fun t => { t with now := t.now + 1 }
  fabricCycle
  linkTick
  if s.lfEdge then
    modTime fun t => { t with lfPhase := t.lfPhase + 64 - 78125 }
    lfTick
  else modTime fun t => { t with lfPhase := t.lfPhase + 64 }
  mgmtRun
  frameOver

/-! ### What the counters bring (R64, R176, R181–R183, R189, R340, R341, R408, R438, R450) -/

/-- The commands an LF edge brings: `s` before it, `t` after it. -/
def lfDue (s t : State) : List Instr :=
  (if t.dev.rtc.load.isSome then [.rtcLoad]
    else if s.bit PWR_CLKSTAT_LFOK && s.dev.rtc.prescaler == 32767 then [.rtcSecond] else [])
  ++ (if s.bit PWR_CLKSTAT_LFOK && s.dev.duty.minute == 1966079 then [.dutyMinuteBoundary] else [])
  ++ (if t.dev.time.ao % 32768 = 0 then [.seenAgeTick] else [])
  ++ (if 65536 ≤ t.dev.time.calLf then [.lfcalUpdate] else [])
  ++ (if t.dev.time.restore && t.linkClock then [.networkTimeRestore 0] else [])
  ++ (if t.dev.samp.reanchor then [.latticeAnchor] else [])
  ++ (if t.dev.time.ao % 2 ^ 28 = 0 && t.linkClock then [.peerSweep 0] else [])
  ++ (if t.heatDue && t.powered statsPage then [.heatEnd] else [])
  ++ (if s.wdogCounts && t.dev.sys.wdLeft * 8 == t.dev.sys.wdLoad then [.watchdogWarning] else [])
  ++ (if s.wdogCounts && t.dev.sys.wdLeft == 0 then [.watchdogExpiry] else [])

/-- The commands a tick brings. -/
def tickDue (s t : State) : List Instr :=
  (if t.cmpReached then [.ntimeCompareMatch] else [])
  ++ (if t.replyOver then [.resetDelayExpiry] else [])
  ++ (match t.dev.hostp.timed with
      | some r => (match r.instant with
        | some at_ => if (t.ntime + 2 ^ 48 - at_ % 2 ^ 48) % 2 ^ 48 < 2 ^ 47 then [.timedReset] else []
        | none => [])
      | none => [])
  ++ (if s.lfEdge then lfDue s t else [])

/-- The block with no command waiting: the next state, and the commands it brings about. -/
def idleNext (s : State) : State × List Instr :=
  match s.events with
  | ev :: rest =>
    let t := latchEdges s ((eventArrives ev).run { s with events := rest })
    (t, t.firings ev)
  | [] =>
    let t := latchEdges s (tick.run s)
    (t, tickDue s t)

end Sys2Proof.Machine
end

