-- ==== Sys2Proof/Machine/Alu.lean ====
section
/-!
DEFINITION. The Stroke core's arithmetic and logic: the ALU functions and the immediate instructions (R244, R245, R247,
R267).
-/
namespace Sys2Proof.Machine
open Sys2Proof.Reg

/-- A register and register instruction's body: `always` sets the flags whatever S says, `writes` that rd is written. -/
def aluBody (o : RegOps) (always writes : Bool) (f : Word → Word → Bool → Word × FlagOut) : M Done := do
  let s ← getS
  let x := f (s.g o.ra.val) (s.g o.rb.val) (stC s.core.st)
  if writes then setG o.rd.val x.1
  if always || o.s then modCore fun c => { c with st := x.2.put c.st }
  return .next

/-- An ALU instruction of one cycle. -/
def aluInsn (fn : Nat) (o : RegOps) (always writes : Bool) (f : Word → Word → Bool → Word × FlagOut) : M Unit :=
  insn (regWord fn o) (o.res != 0) false do
    cyc 1
    aluBody o always writes f

/-- A division or remainder, with the cycles of R267; `m` is what the operands' lengths are taken of. -/
def divInsn (fn : Nat) (o : RegOps) (m : Word → Nat) (f : Word → Word → Word × FlagOut) : M Unit :=
  insn (regWord fn o) (o.res != 0) false do
    let s ← getS
    cyc (divCycles (m (s.g o.ra.val)) (m (s.g o.rb.val)))
    aluBody o false true fun a b _ => f a b

/-- An immediate instruction of one cycle. -/
def immInsn (op : Nat) (o : ImmOps) (always writes : Bool) (f : Word → Word × FlagOut) : M Unit :=
  insn (immWord op o) o.res false do
    cyc 1
    let s ← getS
    let x := f (s.g o.ra.val)
    if writes then setG o.rd.val x.1
    if always || o.s then modCore fun c => { c with st := x.2.put c.st }
    return .next

/-- An immediate extended by zeros, or by its sign (R244). -/
def immZ (o : ImmOps) : Word := o.imm.setWidth 32
def immS (o : ImmOps) : Word := o.imm.signExtend 32

/-- ADD (R245). -/
def execAdd (o : RegOps) (s : State) : Host.Outcome State Fault Refusal :=
  cmd s (aluInsn 0x00 o false true (fun a b _ => addOp a b false))

/-- ADC (R245). -/
def execAdc (o : RegOps) (s : State) : Host.Outcome State Fault Refusal :=
  cmd s (aluInsn 0x01 o false true (fun a b c => addOp a b c))

/-- SUB (R245). -/
def execSub (o : RegOps) (s : State) : Host.Outcome State Fault Refusal :=
  cmd s (aluInsn 0x02 o false true (fun a b _ => subOp a b true))

/-- SBC (R245). -/
def execSbc (o : RegOps) (s : State) : Host.Outcome State Fault Refusal :=
  cmd s (aluInsn 0x03 o false true (fun a b c => subOp a b c))

/-- AND (R245). -/
def execAnd (o : RegOps) (s : State) : Host.Outcome State Fault Refusal :=
  cmd s (aluInsn 0x04 o false true (fun a b _ => plainOp (a &&& b)))

/-- OR (R245). -/
def execOr (o : RegOps) (s : State) : Host.Outcome State Fault Refusal :=
  cmd s (aluInsn 0x05 o false true (fun a b _ => plainOp (a ||| b)))

/-- XOR (R245). -/
def execXor (o : RegOps) (s : State) : Host.Outcome State Fault Refusal :=
  cmd s (aluInsn 0x06 o false true (fun a b _ => plainOp (a ^^^ b)))

/-- ANDN (R245). -/
def execAndn (o : RegOps) (s : State) : Host.Outcome State Fault Refusal :=
  cmd s (aluInsn 0x07 o false true (fun a b _ => plainOp (a &&& ~~~b)))

/-- SHL (R245). -/
def execShl (o : RegOps) (s : State) : Host.Outcome State Fault Refusal :=
  cmd s (aluInsn 0x08 o false true (fun a b _ => shlOp a (b.toNat % 32)))

/-- SHR (R245). -/
def execShr (o : RegOps) (s : State) : Host.Outcome State Fault Refusal :=
  cmd s (aluInsn 0x09 o false true (fun a b _ => shrOp a (b.toNat % 32)))

/-- SAR (R245). -/
def execSar (o : RegOps) (s : State) : Host.Outcome State Fault Refusal :=
  cmd s (aluInsn 0x0A o false true (fun a b _ => sarOp a (b.toNat % 32)))

/-- ROR (R245). -/
def execRor (o : RegOps) (s : State) : Host.Outcome State Fault Refusal :=
  cmd s (aluInsn 0x0B o false true (fun a b _ => rorOp a (b.toNat % 32)))

/-- SHLI (R245). -/
def execShli (o : RegOps) (s : State) : Host.Outcome State Fault Refusal :=
  cmd s (aluInsn 0x0C o false true (fun a _ _ => shlOp a o.sh.val))

/-- SHRI (R245). -/
def execShri (o : RegOps) (s : State) : Host.Outcome State Fault Refusal :=
  cmd s (aluInsn 0x0D o false true (fun a _ _ => shrOp a o.sh.val))

/-- SARI (R245). -/
def execSari (o : RegOps) (s : State) : Host.Outcome State Fault Refusal :=
  cmd s (aluInsn 0x0E o false true (fun a _ _ => sarOp a o.sh.val))

/-- RORI (R245). -/
def execRori (o : RegOps) (s : State) : Host.Outcome State Fault Refusal :=
  cmd s (aluInsn 0x0F o false true (fun a _ _ => rorOp a o.sh.val))

/-- MUL (R245). -/
def execMul (o : RegOps) (s : State) : Host.Outcome State Fault Refusal :=
  cmd s (aluInsn 0x10 o false true (fun a b _ => mulOp a b))

/-- MULH (R245). -/
def execMulh (o : RegOps) (s : State) : Host.Outcome State Fault Refusal :=
  cmd s (aluInsn 0x11 o false true (fun a b _ => mulhOp a b))

/-- MULHU (R245). -/
def execMulhu (o : RegOps) (s : State) : Host.Outcome State Fault Refusal :=
  cmd s (aluInsn 0x12 o false true (fun a b _ => mulhuOp a b))

/-- DIV (R245, R247). -/
def execDiv (o : RegOps) (s : State) : Host.Outcome State Fault Refusal :=
  cmd s (divInsn 0x14 o (fun w => w.toInt.natAbs) divOp)

/-- DIVU (R245, R247). -/
def execDivu (o : RegOps) (s : State) : Host.Outcome State Fault Refusal :=
  cmd s (divInsn 0x15 o (·.toNat) divuOp)

/-- REM (R245, R247). -/
def execRem (o : RegOps) (s : State) : Host.Outcome State Fault Refusal :=
  cmd s (divInsn 0x16 o (fun w => w.toInt.natAbs) remOp)

/-- REMU (R245, R247). -/
def execRemu (o : RegOps) (s : State) : Host.Outcome State Fault Refusal :=
  cmd s (divInsn 0x17 o (·.toNat) remuOp)

/-- CMP (R245). -/
def execCmp (o : RegOps) (s : State) : Host.Outcome State Fault Refusal :=
  cmd s (aluInsn 0x18 o true false (fun a b _ => subOp a b true))

/-- TST (R245). -/
def execTst (o : RegOps) (s : State) : Host.Outcome State Fault Refusal :=
  cmd s (aluInsn 0x19 o true false (fun a b _ => plainOp (a &&& b)))

/-- SEXB (R245). -/
def execSexb (o : RegOps) (s : State) : Host.Outcome State Fault Refusal :=
  cmd s (aluInsn 0x1D o false true (fun a _ _ => plainOp (sextOf 8 a)))

/-- SEXH (R245). -/
def execSexh (o : RegOps) (s : State) : Host.Outcome State Fault Refusal :=
  cmd s (aluInsn 0x1E o false true (fun a _ _ => plainOp (sextOf 16 a)))

/-- CLZ (R245). -/
def execClz (o : RegOps) (s : State) : Host.Outcome State Fault Refusal :=
  cmd s (aluInsn 0x1F o false true (fun a _ _ => plainOp (clzOf a)))

/-- ADDI (R244). -/
def execAddi (o : ImmOps) (s : State) : Host.Outcome State Fault Refusal :=
  cmd s (immInsn 0x01 o false true (fun a => addOp a (immS o) false))

/-- ANDI (R244). -/
def execAndi (o : ImmOps) (s : State) : Host.Outcome State Fault Refusal :=
  cmd s (immInsn 0x02 o false true (fun a => plainOp (a &&& (immZ o))))

/-- ORI (R244). -/
def execOri (o : ImmOps) (s : State) : Host.Outcome State Fault Refusal :=
  cmd s (immInsn 0x03 o false true (fun a => plainOp (a ||| (immZ o))))

/-- XORI (R244). -/
def execXori (o : ImmOps) (s : State) : Host.Outcome State Fault Refusal :=
  cmd s (immInsn 0x04 o false true (fun a => plainOp (a ^^^ (immZ o))))

/-- CMPI (R244). -/
def execCmpi (o : ImmOps) (s : State) : Host.Outcome State Fault Refusal :=
  cmd s (immInsn 0x05 o true false (fun a => subOp a (immS o) true))

/-- TSTI (R244). -/
def execTsti (o : ImmOps) (s : State) : Host.Outcome State Fault Refusal :=
  cmd s (immInsn 0x06 o true false (fun a => plainOp (a &&& (immZ o))))

/-- MOVI (R244). -/
def execMovi (o : ImmOps) (s : State) : Host.Outcome State Fault Refusal :=
  cmd s (immInsn 0x07 o false true (fun _ => ((immS o), {})))

/-- MOVH (R244). -/
def execMovh (o : ImmOps) (s : State) : Host.Outcome State Fault Refusal :=
  cmd s (immInsn 0x08 o false true (fun _ => ((immZ o) <<< 16, {})))

end Sys2Proof.Machine
end

