-- ==== Sys2Proof/Machine/Memops.lean ====
section
/-!
DEFINITION. The Stroke core's loads, stores, calls and branches (R244, R246–R253, R267).
-/
namespace Sys2Proof.Machine
open Sys2Proof.Reg

/-! ### LD, ST and SWAP (R248, R249) -/

/-- The address of a load or store (R248). -/
def State.memAddr (s : State) (o : MemOps) : Word := s.g o.ra.val + o.off.signExtend 32

/-- A narrow load's extension (R248). -/
def extendTo (size : Size) (sx : Bool) (v : Word) : Word := if sx then sextOf (8 * accLen size) v else v

/-- LD (R244, R248, R250). -/
def execLd (o : MemOps) (s : State) : Host.Outcome State Fault Refusal :=
  cmd s <| insn (memWordOf 0x10 o) (o.res || o.sz == 3) false do
    let s ← getS
    let a := s.memAddr o
    match ← coreRead s (sizeOf o.sz.toNat) a with
    | .error c => return .stop c
    | .ok v =>
      cyc (← accessCycles a.toNat)
      return .load o.rd.val (extendTo (sizeOf o.sz.toNat) o.sx v)

/-- ST (R244, R248). -/
def execSt (o : MemOps) (s : State) : Host.Outcome State Fault Refusal :=
  cmd s <| insn (memWordOf 0x11 o) (o.res || o.sz == 3 || o.sx) false do
    let s ← getS
    let a := s.memAddr o
    cyc (← accessCycles a.toNat)
    match ← coreWrite s (sizeOf o.sz.toNat) a (s.g o.rd.val) with
    | some c => return .stop c
    | none => return .next

/-- Is SWAP permitted at an address: main SRAM or the frame buffer (R249)? -/
def State.swapHere (s : State) (a : Nat) : Bool :=
  match s.rangeOf a with
  | some ⟨_, _, .sram⟩ => true
  | some ⟨_, _, .cells⟩ => true
  | _ => false

/-- SWAP (R245, R249): one atomic read and write; its rd is valid for the next instruction. -/
def execSwap (o : RegOps) (s : State) : Host.Outcome State Fault Refusal :=
  cmd s <| insn (regWord 0x1C o) (o.res != 0) true do
    let s ← getS
    let a := s.g o.ra.val
    if a.toNat % 4 ≠ 0 then return .stop ⟨vAlign, kRead, a⟩
    else if !s.swapHere a.toNat then return .stop ⟨vDfault, kRead, a⟩
    else
      match ← accessStop s true 4 a with
      | some c => return .stop c
      | none =>
        match ← coreRead s .word a with
        | .error c => return .stop c
        | .ok v =>
          let m := s.coreMaster
          let _ ← busWrite m .word a.toNat (s.g o.rb.val)
          setG o.rd.val v
          cyc 3
          return .next

/-! ### Branches and calls (R244, R246, R247) -/

/-- PC + 4 × disp (R244). -/
def brTarget (pc : Word) (o : BrOps) : Word := pc + (o.disp.signExtend 32 <<< 2)

/-- Bcc (R247). -/
def execBcc (c : Fin 15) (o : BrOps) (s : State) : Host.Outcome State Fault Refusal :=
  cmd s <| insn (brWord (0x20 + c.val) o) (o.res != 0) false do
    let s ← getS
    if condHolds c.val s.core.st then
      cyc 2
      return .goto (brTarget s.core.pc o)
    else
      cyc 1
      return .next

/-- The link register, LK (R238). -/
abbrev regLk : Nat := 14

/-- CALL (R244). -/
def execCall (o : BrOps) (s : State) : Host.Outcome State Fault Refusal :=
  cmd s <| insn (brWord 0x2F o) (o.res != 0) false do
    let s ← getS
    cyc 2
    setG regLk (s.core.pc + 4)
    return .goto (brTarget s.core.pc o)

/-- JMP (R246). -/
def execJmp (o : SpcOps) (s : State) : Host.Outcome State Fault Refusal :=
  cmd s <| insn (spcWord 0x18 0x00 o) false false do
    let s ← getS
    cyc 2
    return .goto (s.g o.r.val)

/-- CALLR (R246). -/
def execCallr (o : SpcOps) (s : State) : Host.Outcome State Fault Refusal :=
  cmd s <| insn (spcWord 0x18 0x01 o) false false do
    let s ← getS
    cyc 2
    setG regLk (s.core.pc + 4)
    return .goto (s.g o.r.val)

/-! ### CALLM and RETM (R252, R253) -/

/-- The stack pointer of CALLM and RETM (R238). -/
abbrev regSp : Nat := 13

/-- The words a mask pushes above the return address, in ascending order: registers, then XPC and XST (R252). -/
def State.frameWords (s : State) (mask : Nat) : List Word :=
  ((onesOf 16 mask).map s.g) ++ (if bitOf mask 16 then [s.core.xpc, s.core.xst] else [])

/-- How many words a frame has, the return address counted (R252). -/
def frameLen (mask : Nat) : Nat := 1 + (onesOf 16 mask).length + 2 * b2n (bitOf mask 16)

/-- Write a frame's words upwards, in an instruction that began in `p`; answers what stopped it and how many were written. -/
def pushWords (p : State) : Word → Nat → List Word → M (Option Cause × Nat)
  | _, n, [] => pure (none, n)
  | a, n, w :: l => do
    match ← coreWrite p .word a w with
    | some c => return (some c, n)
    | none => pushWords p (a + 4) (n + 1) l

/-- Does a write of memory by the core change it: main SRAM, or a cell that CORE owns (R274)? -/
def State.coreWrites (s : State) (a : Nat) : Bool :=
  match s.rangeOf a with
  | some ⟨_, _, .sram⟩ => true
  | some ⟨_, _, .cells⟩ => s.cellWritable s.coreMaster a
  | _ => false

/-- Words already written by a CALLM that faulted are undefined (R252). -/
def spoil : Word → Nat → M Unit
  | _, 0 => nop
  | a, n + 1 => do
    let s ← getS
    if s.coreWrites a.toNat then
      let l ← freeBytes 4
      putBytes a.toNat l
    spoil (a + 4) n

/-- CALLM (R252). -/
def execCallm (o : CallmOps) (s : State) : Host.Outcome State Fault Refusal :=
  cmd s <| insn (callmWord 0x1A o) false true do
    let s ← getS
    let mask := o.x.toNat
    let n := frameLen mask
    let sp := s.g regSp
    let new := sp - BitVec.ofNat 32 (4 * n)
    if sp.toNat % 4 ≠ 0 then return .stop ⟨vAlign, kWrite, sp⟩
    else
      match ← pushWords s new 0 ((s.core.pc + 4) :: s.frameWords mask) with
      | (some c, k) =>
        spoil new k
        return .stop c
      | (none, _) =>
        setG regSp new
        cyc (3 + n)
        return .goto (s.core.pc + (o.a.signExtend 32 <<< 2))

/-- Read a frame's words upwards, in an instruction that began in `p`. -/
def popWords (p : State) : Word → Nat → M (Except Cause (List Word))
  | _, 0 => pure (.ok [])
  | a, n + 1 => do
    match ← coreRead p .word a with
    | .error c => return .error c
    | .ok w =>
      match ← popWords p (a + 4) n with
      | .error c => return .error c
      | .ok l => return .ok (w :: l)

/-- Restore the named registers from a frame's words, g13 excepted (R253). -/
def restore : List Nat → List Word → M Unit
  | r :: rs, w :: ws => do
    if r ≠ regSp then setG r w
    restore rs ws
  | _, _ => nop

/-- RETM (R253). -/
def execRetm (o : CallmOps) (s : State) : Host.Outcome State Fault Refusal :=
  cmd s <| insn (callmWord 0x1B o) (o.a != 0) true do
    let s ← getS
    let mask := o.x.toNat
    let n := frameLen mask
    let sp := s.g regSp
    if sp.toNat % 4 ≠ 0 then return .stop ⟨vAlign, kRead, sp⟩
    else
      match ← popWords s sp n with
      | .error c => return .stop c
      | .ok ws =>
        restore (onesOf 16 mask) ws.tail
        if bitOf mask 16 then
          modCore fun c => { c with xpc := ws.getD (n - 2) 0, xst := ws.getD (n - 1) 0
                                    st := bitsPut (bitsPut c.st 6 6 1) 7 7 0 }
        setG regSp (sp + BitVec.ofNat 32 (4 * n))
        cyc (3 + n)
        return .goto (ws.headD 0)

end Sys2Proof.Machine
end

