-- ==== Sys2Proof/Machine/Special.lean ====
section
/-!
DEFINITION. The Stroke core's special instructions and its waits (R240, R246, R257–R259, R370–R373).
-/
namespace Sys2Proof.Machine
open Sys2Proof.Reg

/-- RETX (R246, R259): a misaligned XPC raises ALIGN. -/
def execRetx (o : SpcOps) (s : State) : Host.Outcome State Fault Refusal :=
  cmd s <| insn (spcWord 0x18 0x02 o) false true <| sysOnly do
    let s ← getS
    if s.core.xpc.toNat % 4 ≠ 0 then return .stop ⟨vAlign, kFetch, s.core.xpc⟩
    else
      cyc 3
      modCore fun c => { c with st := c.xst }
      return .goto s.core.xpc

/-- SVC (R246, R258). -/
def execSvc (o : SpcOps) (s : State) : Host.Outcome State Fault Refusal :=
  cmd s <| insn (spcWord 0x18 0x03 o) false true (pure (.svc (o.x.toNat % 2 ^ 16)))

/-- BRK (R246). -/
def execBrk (o : SpcOps) (s : State) : Host.Outcome State Fault Refusal :=
  cmd s <| insn (spcWord 0x18 0x04 o) false true (pure (.stop brkCause))

/-- A special register's value, by its number (R246). -/
def State.special (s : State) (x : Nat) : Word :=
  match x with
  | 0 => s.core.st
  | 1 => s.core.xpc
  | 2 => s.core.xst
  | 3 => s.core.vbase
  | 4 => s.core.xcause
  | 5 => s.core.faddr
  | _ => s.core.cycle

/-- RDSP (R240, R246): in TASK mode only ST and CYCLE. -/
def execRdsp (o : SpcOps) (s : State) : Host.Outcome State Fault Refusal :=
  cmd s <| insn (spcWord 0x18 0x05 o) (decide (7 ≤ o.x.toNat)) false do
    let s ← getS
    let x := o.x.toNat
    if s.sysMode || x == 0 || x == 6 then
      cyc 1
      setG o.r.val (s.special x)
      return .next
    else return .stop privileged

/-- WRSP (R246): XCAUSE, FADDR and CYCLE ignore writes. -/
def execWrsp (o : SpcOps) (s : State) : Host.Outcome State Fault Refusal :=
  cmd s <| insn (spcWord 0x18 0x06 o) (decide (7 ≤ o.x.toNat)) true <| sysOnly do
    let s ← getS
    let v := s.g o.r.val
    cyc 1
    modCore fun c =>
      match o.x.toNat with
      | 0 => { c with st := v }
      | 1 => { c with xpc := v }
      | 2 => { c with xst := v }
      | 3 => { c with vbase := v }
      | _ => c
    return .next

/-- EI (R246): IE ← 1, HOLD ← 0. -/
def execEi (o : SpcOps) (s : State) : Host.Outcome State Fault Refusal :=
  cmd s <| insn (spcWord 0x18 0x07 o) false false <| sysOnly do
    cyc 1
    modCore fun c => { c with st := bitsPut (bitsPut c.st 7 7 1) 6 6 0 }
    return .next

/-- DI (R246). -/
def execDi (o : SpcOps) (s : State) : Host.Outcome State Fault Refusal :=
  cmd s <| insn (spcWord 0x18 0x08 o) false false <| sysOnly do
    cyc 1
    modCore fun c => { c with st := bitsPut c.st 7 7 0 }
    return .next

/-- WAIT's encoding, bit 0 of X being `x`. -/
def waitOps (o : WaitOps) (x : Nat) : SpcOps := { r := o.r, x := BitVec.ofNat 17 (2 * o.res.toNat + x) }

/-- WAIT 0 (R246, R370), any other X raising ILLEGAL: the core clock stops unless an interrupt would be accepted with IE taken as 1. -/
def execWaitDoze (o : WaitOps) (s : State) : Host.Outcome State Fault Refusal :=
  cmd s <| insn (spcWord 0x18 0x09 (waitOps o 0)) (o.res != 0) true <| sysOnly do
    cyc (1 + (← freeNat))
    let s ← getS
    if (s.wouldAccept true).isNone then
      modCore fun c => { c with run := .doze }
      modPwr fun p => { p with state := .doze }
      setFld PWR_STAT_LAST 1
    return .next

/-- DOZE_END (R246, R370): an interrupt would be accepted with IE taken as 1; execution continues after WAIT. -/
def execDozeEnd (s : State) : Host.Outcome State Fault Refusal := cmd s do
  if s.core.run = .doze ∧ (s.wouldAccept true).isSome then
    modCore fun c => { c with run := .run }
    modPwr fun p => { p with state := .run }

/-- WAIT 1 (R246, R371–R373): `a1` and `a2` are the wake sources active when the abort points are sampled. -/
def execWaitLowPower (o : WaitOps) (a1 a2 : BitVec 14) (s : State) : Host.Outcome State Fault Refusal :=
  cmd s <| insn (spcWord 0x18 0x09 (waitOps o 1)) (o.res != 0) true <| sysOnly do
    cyc (1 + (← freeNat))
    lowPower a1.toNat a2.toNat
    return .next

/-- SYNC (R246): every earlier bus write has completed, as each of this model's has. -/
def execSync (o : SpcOps) (s : State) : Host.Outcome State Fault Refusal :=
  cmd s <| insn (spcWord 0x18 0x0A o) false false do
    cyc (1 + (← freeNat))
    return .next

/-- IINV (R240, R246). -/
def execIinv (o : SpcOps) (s : State) : Host.Outcome State Fault Refusal :=
  cmd s <| insn (spcWord 0x18 0x0B o) false false <| sysOnly do
    cyc (1 + (← freeNat))
    modCore fun c => { c with icache := [] }
    return .next

end Sys2Proof.Machine
end

