-- ==== Sys2Proof/Machine/Strings.lean ====
section
/-!
DEFINITION. The Stroke core's string instructions, element by element (R254, R255, R267). A command carries out the whole
instruction, or stops after the element at which a line becomes acceptable (R255; log entry 82).
-/
namespace Sys2Proof.Machine
open Sys2Proof.Reg

/-- The form X selects (R254): direction, element size, POLY. -/
def strDown (o : SpcOps) : Bool := bitOf o.x.toNat 0
def strEsz (o : SpcOps) : Nat := o.x.toNat / 2 % 4
def strPoly (o : SpcOps) : Nat := o.x.toNat / 8 % 4

/-- A reserved form: SZ 3, a POLY where none is used, POLY 3, or bits above them (R243, R254; log entry 82). -/
def strBad (crc : Bool) (o : SpcOps) : Bool :=
  (strEsz o) == 3 || decide (32 ≤ o.x.toNat) || (if crc then (strPoly o) == 3 else (strPoly o) != 0)

/-- A pointer moves by an element (R254). -/
def strMove (o : SpcOps) (a : Word) : Word :=
  let d : Word := BitVec.ofNat 32 (accLen (sizeOf (strEsz o)))
  if strDown o then a - d else a + d

/-- The low bits of a word that an element holds. -/
def elemOf (size : Size) (w : Word) : Word := BitVec.ofNat 32 (w.toNat % 2 ^ (8 * accLen size))

/-- How one element ended: done, the instruction stops early, a fault. -/
inductive Elem where
  | more
  | found
  | stop (c : Cause)

/-- The cycles of an element (R267): its own, one more where it touches the frame buffer; at a register page they are
open (log entry 84). -/
def elemCycles (n : Nat) (addrs : List Word) : M Unit := do
  let s ← getS
  cyc n
  if addrs.any fun a => match s.rangeOf a.toNat with | some ⟨_, _, .cells⟩ => true | _ => false then cyc 1
  if addrs.any fun a => match s.rangeOf a.toNat with
    | some ⟨_, _, .cells⟩ => false
    | some ⟨_, _, .sram⟩ => false
    | _ => true then cyc (← freeNat)

/-- The g3 elements in turn: after each, g3 falls, and an acceptable interrupt stops the instruction (R255). -/
def strLoop (elem : M Elem) (done : M Unit) : Nat → M Done
  | 0 => do
    done
    return .ended
  | n + 1 => do
    match ← elem with
    | .stop c => return .stop c
    | .found =>
      perf intcPage 0x40 1
      return .ended
    | .more =>
      perf intcPage 0x40 1
      let s ← getS
      setG 3 (s.g 3 - 1)
      if !s.core.insn then return .ended
      else if n ≠ 0 && (s.wouldAccept (bitOf s.core.st.toNat 7)).isSome then return .again
      else strLoop elem done n

/-- A string instruction (R254): a count of 0 does nothing. Its elements know the state it began in (R265). -/
def strInsn (fn : Nat) (o : SpcOps) (crc : Bool) (elem : State → M Elem) (done : M Unit) : M Unit :=
  insn (spcWord 0x19 fn o) (strBad crc o) true do
    cyc 1
    let s ← getS
    let n := (s.g 3).toNat
    if n = 0 then return .ended else strLoop (elem s) done n

/-- What stops an element that reads at g1 and reads or writes at g2, before any part of it is done (R255; log entry 128). -/
def pairStop (p : State) (o : SpcOps) (write : Bool) : M (Option Cause) := do
  let s ← getS
  let size := sizeOf (strEsz o)
  match ← accessCheck p false size (s.g 1) with
  | some c => return some c
  | none => accessCheck p write size (s.g 2)

/-- MOVS (R254). -/
def execMovs (o : SpcOps) (s : State) : Host.Outcome State Fault Refusal :=
  cmd s <| strInsn 0 o false (fun p => do
    match ← pairStop p o true with
    | some c => return .stop c
    | none =>
      let s ← getS
      let size := sizeOf (strEsz o)
      match ← coreGet size (s.g 1) with
      | .error c => return .stop c
      | .ok x =>
        match ← corePut size (s.g 2) x with
        | some c => return .stop c
        | none =>
          elemCycles 2 [s.g 1, s.g 2]
          setG 1 (strMove o (s.g 1))
          setG 2 (strMove o (s.g 2))
          return .more) nop

/-- FILLS (R254). -/
def execFills (o : SpcOps) (s : State) : Host.Outcome State Fault Refusal :=
  cmd s <| strInsn 1 o false (fun p => do
    let s ← getS
    match ← coreWrite p (sizeOf (strEsz o)) (s.g 2) (s.g 4) with
    | some c => return .stop c
    | none =>
      elemCycles 1 [s.g 2]
      setG 2 (strMove o (s.g 2))
      return .more) nop

/-- CMPS (R254). -/
def execCmps (o : SpcOps) (s : State) : Host.Outcome State Fault Refusal :=
  cmd s <| strInsn 2 o false (fun p => do
    match ← pairStop p o false with
    | some c => return .stop c
    | none =>
      let s ← getS
      let size := sizeOf (strEsz o)
      match ← coreGet size (s.g 1) with
      | .error c => return .stop c
      | .ok x =>
        match ← coreGet size (s.g 2) with
        | .error c => return .stop c
        | .ok y =>
          elemCycles 2 [s.g 1, s.g 2]
          modCore fun c => { c with st := (subOp x y true).2.put c.st }
          if x = y then
            setG 1 (strMove o (s.g 1))
            setG 2 (strMove o (s.g 2))
            return .more
          else return .found) nop

/-- SCANS (R254): Z alone is written. -/
def execScans (o : SpcOps) (s : State) : Host.Outcome State Fault Refusal :=
  cmd s <| strInsn 3 o false (fun p => do
    let s ← getS
    let size := sizeOf (strEsz o)
    match ← coreRead p size (s.g 1) with
    | .error c => return .stop c
    | .ok x =>
      elemCycles 1 [s.g 1]
      if x = elemOf size (s.g 4) then
        modCore fun c => { c with st := bitsPut c.st 30 30 1 }
        return .found
      else
        setG 1 (strMove o (s.g 1))
        return .more) (modCore fun c => { c with st := bitsPut c.st 30 30 0 })

/-- CRCS (R254). -/
def execCrcs (o : SpcOps) (s : State) : Host.Outcome State Fault Refusal :=
  cmd s <| strInsn 4 o true (fun p => do
    let s ← getS
    let size := sizeOf (strEsz o)
    match ← coreRead p size (s.g 1) with
    | .error c => return .stop c
    | .ok x =>
      elemCycles (accLen size) [s.g 1]
      setG 4 (BitVec.ofNat 32 ((leBytes (accLen size) x.toNat).foldl (crcsStep (strPoly o)) (s.g 4).toNat))
      setG 1 (strMove o (s.g 1))
      return .more) nop

end Sys2Proof.Machine
end

