-- ==== Sys2Proof/Machine/Dispatch.lean ====
section
/-!
DEFINITION. The one dispatch: each command's arm calls its meaning, or rejects it by name.
-/
namespace Sys2Proof.Machine

/-- The effect of a command on everything but the queue (R12 and the rules of each row). -/
def exec (i : Instr) (s : State) : Host.Outcome State Fault Refusal :=
  match i with
  | .powerOnReset => Sys2Proof.Machine.execPowerOnReset s
  | .packageReset => Sys2Proof.Machine.execPackageReset s
  | .startSequence straps vsys fails => Sys2Proof.Machine.execStartSequence straps vsys fails s
  | .linkRegionReset => Sys2Proof.Machine.execLinkRegionReset s
  | .radioDieReset => Sys2Proof.Machine.execRadioDieReset s
  | .padRelease => Sys2Proof.Machine.execPadRelease s
  | .clusterReset page => Sys2Proof.Machine.execClusterReset page s
  | .clusterResetComplete page => Sys2Proof.Machine.execClusterResetComplete page s
  | .clockGateClose page => Sys2Proof.Machine.execClockGateClose page s
  | .registerWrite m size a v => Sys2Proof.Machine.execRegisterWrite m size a v s
  | .parityFault a => Sys2Proof.Machine.execParityFault a s
  | .d2dRxBurstError => Sys2Proof.Machine.execD2dRxBurstError s
  | .d2dTxBurstError => Sys2Proof.Machine.execD2dTxBurstError s
  | .d2dRegbusError fails => Sys2Proof.Machine.execD2dRegbusError fails s
  | .bowUnresponsive => Sys2Proof.Machine.execBowUnresponsive s
  | .radioRequestSleep link temp => Sys2Proof.Machine.execRadioRequestSleep link temp s
  | .radioRequestStby link temp => Sys2Proof.Machine.execRadioRequestStby link temp s
  | .radioRequestSyn link temp => Sys2Proof.Machine.execRadioRequestSyn link temp s
  | .radioRequestRx link temp => Sys2Proof.Machine.execRadioRequestRx link temp s
  | .radioTransitionDone => Sys2Proof.Machine.execRadioTransitionDone s
  | .channelChange v link temp => Sys2Proof.Machine.execChannelChange v link temp s
  | .cacheFlush => Sys2Proof.Machine.execCacheFlush s
  | .synUnlock => Sys2Proof.Machine.execSynUnlock s
  | .synLock => Sys2Proof.Machine.execSynLock s
  | .lockTimeout => Sys2Proof.Machine.execLockTimeout s
  | .txBlanking => Sys2Proof.Machine.execTxBlanking s
  | .txCheck => Sys2Proof.Machine.execTxCheck s
  | .paRampUp => Sys2Proof.Machine.execPaRampUp s
  | .txStart => Sys2Proof.Machine.execTxStart s
  | .txEnd => Sys2Proof.Machine.execTxEnd s
  | .dutyMinuteBoundary => Sys2Proof.Machine.execDutyMinuteBoundary s
  | .profileLock v => Sys2Proof.Machine.execProfileLock v s
  | .testCarrierStart idx => Sys2Proof.Machine.execTestCarrierStart idx s
  | .testCarrierStop => Sys2Proof.Machine.execTestCarrierStop s
  | .testCarrierTimeout => Sys2Proof.Machine.execTestCarrierTimeout s
  | .laneEnable v => Sys2Proof.Machine.execLaneEnable v s
  | .laneDisable v => Sys2Proof.Machine.execLaneDisable v s
  | .laneCounterClear v => Sys2Proof.Machine.execLaneCounterClear v s
  | .agcUpdate level clipped => Sys2Proof.Machine.execAgcUpdate level clipped s
  | .preambleQualified n pwr cfo => Sys2Proof.Machine.execPreambleQualified n pwr cfo s
  | .stfDetected n pwr cfo => Sys2Proof.Machine.execStfDetected n pwr cfo s
  | .sfdDetected n coded rssi => Sys2Proof.Machine.execSfdDetected n coded rssi s
  | .ltfEnd n rssi snr => Sys2Proof.Machine.execLtfEnd n rssi snr s
  | .ltfMissing n => Sys2Proof.Machine.execLtfMissing n s
  | .nosync n => Sys2Proof.Machine.execNosync n s
  | .phrDecoded n p => Sys2Proof.Machine.execPhrDecoded n p s
  | .energyMeasurement n ed => Sys2Proof.Machine.execEnergyMeasurement n ed s
  | .headerEnd n hdr => Sys2Proof.Machine.execHeaderEnd n hdr s
  | .frameEnd n psdu => Sys2Proof.Machine.execFrameEnd n psdu s
  | .micResult n => Sys2Proof.Machine.execMicResult n s
  | .linkModeOff => Sys2Proof.Machine.execLinkModeOff s
  | .linkModeSw => Sys2Proof.Machine.execLinkModeSw s
  | .linkModeHw => Sys2Proof.Machine.execLinkModeHw s
  | .coxUcodeLoad => Sys2Proof.Machine.execCoxUcodeLoad s
  | .coxUcodeData v => Sys2Proof.Machine.execCoxUcodeData v s
  | .coxUcodeDone => Sys2Proof.Machine.execCoxUcodeDone s
  | .coxUcodeCrcReady => Sys2Proof.Machine.execCoxUcodeCrcReady s
  | .coxUcodeGood => Sys2Proof.Machine.execCoxUcodeGood s
  | .chainAlloc v => Sys2Proof.Machine.execChainAlloc v s
  | .chainFree v => Sys2Proof.Machine.execChainFree v s
  | .cellRevoke v => Sys2Proof.Machine.execCellRevoke v s
  | .txDescriptorTake host => Sys2Proof.Machine.execTxDescriptorTake host s
  | .frameSecured => Sys2Proof.Machine.execFrameSecured s
  | .txRelease => Sys2Proof.Machine.execTxRelease s
  | .ackWindowClose => Sys2Proof.Machine.execAckWindowClose s
  | .retryWaitExpiry => Sys2Proof.Machine.execRetryWaitExpiry s
  | .peerWrite v => Sys2Proof.Machine.execPeerWrite v s
  | .mailboxSelect m page v => Sys2Proof.Machine.execMailboxSelect m page v s
  | .mailboxSnapshot page => Sys2Proof.Machine.execMailboxSnapshot page s
  | .beaconPrepare => Sys2Proof.Machine.execBeaconPrepare s
  | .seenAgeTick => Sys2Proof.Machine.execSeenAgeTick s
  | .ntimeSet => Sys2Proof.Machine.execNtimeSet s
  | .ntimeDesync => Sys2Proof.Machine.execNtimeDesync s
  | .ntimeCompareArm => Sys2Proof.Machine.execNtimeCompareArm s
  | .ntimeCompareMatch => Sys2Proof.Machine.execNtimeCompareMatch s
  | .lfcalUpdate => Sys2Proof.Machine.execLfcalUpdate s
  | .networkTimeCarry => Sys2Proof.Machine.execNetworkTimeCarry s
  | .networkTimeRestore phase => Sys2Proof.Machine.execNetworkTimeRestore phase s
  | .reanchor => Sys2Proof.Machine.execReanchor s
  | .latticeAnchor => Sys2Proof.Machine.execLatticeAnchor s
  | .rescan => Sys2Proof.Machine.execRescan s
  | .sampleWake => Sys2Proof.Machine.execSampleWake s
  | .sampleSynRequest => Sys2Proof.Machine.execSampleSynRequest s
  | .sampleRxRequest => Sys2Proof.Machine.execSampleRxRequest s
  | .sampleListenEnd => Sys2Proof.Machine.execSampleListenEnd s
  | .sampleExtensionEnd => Sys2Proof.Machine.execSampleExtensionEnd s
  | .strobeWake => Sys2Proof.Machine.execStrobeWake s
  | .strobeMiss => Sys2Proof.Machine.execStrobeMiss s
  | .peerSweep stopped => Sys2Proof.Machine.execPeerSweep stopped s
  | .beaconWindowOpen => Sys2Proof.Machine.execBeaconWindowOpen s
  | .beaconWindowClose => Sys2Proof.Machine.execBeaconWindowClose s
  | .beaconHoldEnd => Sys2Proof.Machine.execBeaconHoldEnd s
  | .scanTimeout => Sys2Proof.Machine.execScanTimeout s
  | .pageBind m n v => Sys2Proof.Machine.execPageBind m n v s
  | .frameDec m n v => Sys2Proof.Machine.execFrameDec m n v s
  | .ccmEnc m n v => Sys2Proof.Machine.execCcmEnc m n v s
  | .ccmDec m n v => Sys2Proof.Machine.execCcmDec m n v s
  | .cmac m n v => Sys2Proof.Machine.execCmac m n v s
  | .cmacVerify m n v => Sys2Proof.Machine.execCmacVerify m n v s
  | .unwrap m n v => Sys2Proof.Machine.execUnwrap m n v s
  | .keyErase m n v => Sys2Proof.Machine.execKeyErase m n v s
  | .cipherOpDone n => Sys2Proof.Machine.execCipherOpDone n s
  | .interruptAccept => Sys2Proof.Machine.execInterruptAccept s
  | .intcSet k v => Sys2Proof.Machine.execIntcSet k v s
  | .intcClr k v => Sys2Proof.Machine.execIntcClr k v s
  | .add o => Sys2Proof.Machine.execAdd o s
  | .adc o => Sys2Proof.Machine.execAdc o s
  | .sub o => Sys2Proof.Machine.execSub o s
  | .sbc o => Sys2Proof.Machine.execSbc o s
  | .and o => Sys2Proof.Machine.execAnd o s
  | .or o => Sys2Proof.Machine.execOr o s
  | .xor o => Sys2Proof.Machine.execXor o s
  | .andn o => Sys2Proof.Machine.execAndn o s
  | .shl o => Sys2Proof.Machine.execShl o s
  | .shr o => Sys2Proof.Machine.execShr o s
  | .sar o => Sys2Proof.Machine.execSar o s
  | .ror o => Sys2Proof.Machine.execRor o s
  | .shli o => Sys2Proof.Machine.execShli o s
  | .shri o => Sys2Proof.Machine.execShri o s
  | .sari o => Sys2Proof.Machine.execSari o s
  | .rori o => Sys2Proof.Machine.execRori o s
  | .mul o => Sys2Proof.Machine.execMul o s
  | .mulh o => Sys2Proof.Machine.execMulh o s
  | .mulhu o => Sys2Proof.Machine.execMulhu o s
  | .div o => Sys2Proof.Machine.execDiv o s
  | .divu o => Sys2Proof.Machine.execDivu o s
  | .rem o => Sys2Proof.Machine.execRem o s
  | .remu o => Sys2Proof.Machine.execRemu o s
  | .cmp o => Sys2Proof.Machine.execCmp o s
  | .tst o => Sys2Proof.Machine.execTst o s
  | .swap o => Sys2Proof.Machine.execSwap o s
  | .sexb o => Sys2Proof.Machine.execSexb o s
  | .sexh o => Sys2Proof.Machine.execSexh o s
  | .clz o => Sys2Proof.Machine.execClz o s
  | .addi o => Sys2Proof.Machine.execAddi o s
  | .andi o => Sys2Proof.Machine.execAndi o s
  | .ori o => Sys2Proof.Machine.execOri o s
  | .xori o => Sys2Proof.Machine.execXori o s
  | .cmpi o => Sys2Proof.Machine.execCmpi o s
  | .tsti o => Sys2Proof.Machine.execTsti o s
  | .movi o => Sys2Proof.Machine.execMovi o s
  | .movh o => Sys2Proof.Machine.execMovh o s
  | .ld o => Sys2Proof.Machine.execLd o s
  | .st o => Sys2Proof.Machine.execSt o s
  | .bcc c o => Sys2Proof.Machine.execBcc c o s
  | .call o => Sys2Proof.Machine.execCall o s
  | .jmp o => Sys2Proof.Machine.execJmp o s
  | .callr o => Sys2Proof.Machine.execCallr o s
  | .retx o => Sys2Proof.Machine.execRetx o s
  | .svc o => Sys2Proof.Machine.execSvc o s
  | .brk o => Sys2Proof.Machine.execBrk o s
  | .rdsp o => Sys2Proof.Machine.execRdsp o s
  | .wrsp o => Sys2Proof.Machine.execWrsp o s
  | .ei o => Sys2Proof.Machine.execEi o s
  | .di o => Sys2Proof.Machine.execDi o s
  | .waitDoze o => Sys2Proof.Machine.execWaitDoze o s
  | .dozeEnd => Sys2Proof.Machine.execDozeEnd s
  | .waitLowPower o a1 a2 => Sys2Proof.Machine.execWaitLowPower o a1 a2 s
  | .sync o => Sys2Proof.Machine.execSync o s
  | .iinv o => Sys2Proof.Machine.execIinv o s
  | .movs o => Sys2Proof.Machine.execMovs o s
  | .fills o => Sys2Proof.Machine.execFills o s
  | .cmps o => Sys2Proof.Machine.execCmps o s
  | .scans o => Sys2Proof.Machine.execScans o s
  | .crcs o => Sys2Proof.Machine.execCrcs o s
  | .callm o => Sys2Proof.Machine.execCallm o s
  | .retm o => Sys2Proof.Machine.execRetm o s
  | .program vsys failAt lowAt => Sys2Proof.Machine.execProgram vsys failAt lowAt s
  | .erase vsys => Sys2Proof.Machine.execErase vsys s
  | .suspend => Sys2Proof.Machine.execSuspend s
  | .resume vsys => Sys2Proof.Machine.execResume vsys s
  | .flashStatus => Sys2Proof.Machine.execFlashStatus s
  | .readCounters => Sys2Proof.Machine.execReadCounters s
  | .fcntReserve vsys verified => Sys2Proof.Machine.execFcntReserve vsys verified s
  | .erasePulseEnd blank => Sys2Proof.Machine.execErasePulseEnd blank s
  | .sramBankClearDone b => Sys2Proof.Machine.execSramBankClearDone b s
  | .xspiSequence v => Sys2Proof.Machine.execXspiSequence v s
  | .xspiSequenceDone rx device => Sys2Proof.Machine.execXspiSequenceDone rx device s
  | .xspiStatusPoll status => Sys2Proof.Machine.execXspiStatusPoll status s
  | .dmaEnable v => Sys2Proof.Machine.execDmaEnable v s
  | .dmaElement n uncorrectable => Sys2Proof.Machine.execDmaElement n uncorrectable s
  | .riggerChannelFire n => Sys2Proof.Machine.execRiggerChannelFire n s
  | .riggerSoftFire k v => Sys2Proof.Machine.execRiggerSoftFire k v s
  | .riggerLock k v => Sys2Proof.Machine.execRiggerLock k v s
  | .riggerCountClear v => Sys2Proof.Machine.execRiggerCountClear v s
  | .pendingTask t => Sys2Proof.Machine.execPendingTask t s
  | .stTick n => Sys2Proof.Machine.execStTick n s
  | .stTopWrite n v => Sys2Proof.Machine.execStTopWrite n v s
  | .stCcWrite n k v => Sys2Proof.Machine.execStCcWrite n k v s
  | .ltTick n => Sys2Proof.Machine.execLtTick n s
  | .ltEnable v => Sys2Proof.Machine.execLtEnable v s
  | .ltCmpWrite n v => Sys2Proof.Machine.execLtCmpWrite n v s
  | .rtcSecond => Sys2Proof.Machine.execRtcSecond s
  | .rtcSecondsWrite v => Sys2Proof.Machine.execRtcSecondsWrite v s
  | .rtcLoad => Sys2Proof.Machine.execRtcLoad s
  | .rtcAlarmWrite v => Sys2Proof.Machine.execRtcAlarmWrite v s
  | .rtcPowerOnReset => Sys2Proof.Machine.execRtcPowerOnReset s
  | .vrtcSwitch vaon vbak => Sys2Proof.Machine.execVrtcSwitch vaon vbak s
  | .vinLost => Sys2Proof.Machine.execVinLost s
  | .vinReturn => Sys2Proof.Machine.execVinReturn s
  | .storeRegulatorStart => Sys2Proof.Machine.execStoreRegulatorStart s
  | .storeRegulatorStop => Sys2Proof.Machine.execStoreRegulatorStop s
  | .vstoreMeasurement mv => Sys2Proof.Machine.execVstoreMeasurement mv s
  | .chargeCeiling => Sys2Proof.Machine.execChargeCeiling s
  | .chargeRestart => Sys2Proof.Machine.execChargeRestart s
  | .overshootBleed => Sys2Proof.Machine.execOvershootBleed s
  | .overshootBleedEnd => Sys2Proof.Machine.execOvershootBleedEnd s
  | .doorOpen => Sys2Proof.Machine.execDoorOpen s
  | .doorClosed => Sys2Proof.Machine.execDoorClosed s
  | .govDischarge => Sys2Proof.Machine.execGovDischarge s
  | .govResume => Sys2Proof.Machine.execGovResume s
  | .bleedSafe => Sys2Proof.Machine.execBleedSafe s
  | .bleedTimeout => Sys2Proof.Machine.execBleedTimeout s
  | .relayPulseStart v => Sys2Proof.Machine.execRelayPulseStart v s
  | .relayPulseEnd => Sys2Proof.Machine.execRelayPulseEnd s
  | .relayIntervalEnd => Sys2Proof.Machine.execRelayIntervalEnd s
  | .entryLfEdge wake => Sys2Proof.Machine.execEntryLfEdge wake s
  | .entryComplete => Sys2Proof.Machine.execEntryComplete s
  | .wakeFromRest src => Sys2Proof.Machine.execWakeFromRest src s
  | .wakeFromEasy src => Sys2Proof.Machine.execWakeFromEasy src s
  | .xoStable => Sys2Proof.Machine.execXoStable s
  | .pllLock => Sys2Proof.Machine.execPllLock s
  | .clockSelect v => Sys2Proof.Machine.execClockSelect v s
  | .xoFail => Sys2Proof.Machine.execXoFail s
  | .lfCrystalOk => Sys2Proof.Machine.execLfCrystalOk s
  | .lfCrystalFail => Sys2Proof.Machine.execLfCrystalFail s
  | .aliveWrite v => Sys2Proof.Machine.execAliveWrite v s
  | .watchdogWarning => Sys2Proof.Machine.execWatchdogWarning s
  | .watchdogExpiry => Sys2Proof.Machine.execWatchdogExpiry s
  | .softwareReset v => Sys2Proof.Machine.execSoftwareReset v s
  | .bowUcodeLoad => Sys2Proof.Machine.execBowUcodeLoad s
  | .bowUcodeData v => Sys2Proof.Machine.execBowUcodeData v s
  | .bowUcodeDone => Sys2Proof.Machine.execBowUcodeDone s
  | .bowUcodeCrcReady => Sys2Proof.Machine.execBowUcodeCrcReady s
  | .bowUcodeGood => Sys2Proof.Machine.execBowUcodeGood s
  | .otpRead m => Sys2Proof.Machine.execOtpRead m s
  | .otpProgram m vsys verified => Sys2Proof.Machine.execOtpProgram m vsys verified s
  | .appendReg m vsys verified => Sys2Proof.Machine.execAppendReg m vsys verified s
  | .appendGov m vsys verified => Sys2Proof.Machine.execAppendGov m vsys verified s
  | .advance m vsys verified => Sys2Proof.Machine.execAdvance m vsys verified s
  | .raiseArb m vsys verified => Sys2Proof.Machine.execRaiseArb m vsys verified s
  | .otpDone => Sys2Proof.Machine.execOtpDone s
  | .status tr tag => Sys2Proof.Machine.execStatus tr tag s
  | .resetLinkRegion tr tag instant => Sys2Proof.Machine.execResetLinkRegion tr tag instant s
  | .resetRadioDie tr tag instant => Sys2Proof.Machine.execResetRadioDie tr tag instant s
  | .resetStart tr tag instant => Sys2Proof.Machine.execResetStart tr tag instant s
  | .resetDelayExpiry => Sys2Proof.Machine.execResetDelayExpiry s
  | .timedReset => Sys2Proof.Machine.execTimedReset s
  | .abortTx tr tag => Sys2Proof.Machine.execAbortTx tr tag s
  | .abortLane tr tag n => Sys2Proof.Machine.execAbortLane tr tag n s
  | .abortLanes tr tag => Sys2Proof.Machine.execAbortLanes tr tag s
  | .abortRelays tr tag => Sys2Proof.Machine.execAbortRelays tr tag s
  | .abortCiph tr tag n => Sys2Proof.Machine.execAbortCiph tr tag n s
  | .abortDma tr tag n => Sys2Proof.Machine.execAbortDma tr tag n s
  | .abortFlashProg tr tag => Sys2Proof.Machine.execAbortFlashProg tr tag s
  | .abortFlashErase tr tag => Sys2Proof.Machine.execAbortFlashErase tr tag s
  | .abortXspi tr tag => Sys2Proof.Machine.execAbortXspi tr tag s
  | .abortCore tr tag => Sys2Proof.Machine.execAbortCore tr tag s
  | .abortCox tr tag => Sys2Proof.Machine.execAbortCox tr tag s
  | .abortUpdate tr tag => Sys2Proof.Machine.execAbortUpdate tr tag s
  | .abortAll tr tag => Sys2Proof.Machine.execAbortAll tr tag s
  | .readMem tr tag p => Sys2Proof.Machine.execReadMem tr tag p s
  | .writeMem tr tag p => Sys2Proof.Machine.execWriteMem tr tag p s
  | .sendFrame tr tag p => Sys2Proof.Machine.execSendFrame tr tag p s
  | .fetchFrame tr tag => Sys2Proof.Machine.execFetchFrame tr tag s
  | .app tr tag p => Sys2Proof.Machine.execApp tr tag p s
  | .appReply v => Sys2Proof.Machine.execAppReply v s
  | .appTimeout => Sys2Proof.Machine.execAppTimeout s
  | .updateBegin tr tag p => Sys2Proof.Machine.execUpdateBegin tr tag p s
  | .updateBlock tr tag p => Sys2Proof.Machine.execUpdateBlock tr tag p s
  | .updateEnd tr tag => Sys2Proof.Machine.execUpdateEnd tr tag s
  | .updateCommit tr tag => Sys2Proof.Machine.execUpdateCommit tr tag s
  | .configBegin tr tag p => Sys2Proof.Machine.execConfigBegin tr tag p s
  | .configBlock tr tag p => Sys2Proof.Machine.execConfigBlock tr tag p s
  | .configEnd tr tag => Sys2Proof.Machine.execConfigEnd tr tag s
  | .logRead tr tag p => Sys2Proof.Machine.execLogRead tr tag p s
  | .statsRead tr tag p => Sys2Proof.Machine.execStatsRead tr tag p s
  | .timeGet tr tag => Sys2Proof.Machine.execTimeGet tr tag s
  | .timeSet tr tag p => Sys2Proof.Machine.execTimeSet tr tag p s
  | .keyLoad tr tag p => Sys2Proof.Machine.execKeyLoad tr tag p s
  | .discharge tr tag => Sys2Proof.Machine.execDischarge tr tag s
  | .spiPoll early => Sys2Proof.Machine.execSpiPoll early s
  | .spiWrite octets early => Sys2Proof.Machine.execSpiWrite octets early s
  | .spiRead n early => Sys2Proof.Machine.execSpiRead n early s
  | .spiUnknownOp op => Sys2Proof.Machine.execSpiUnknownOp op s
  | .hostFrameTooLong tr code tag => Sys2Proof.Machine.execHostFrameTooLong tr code tag s
  | .hostFrameShort tr code tag => Sys2Proof.Machine.execHostFrameShort tr code tag s
  | .hostFrameCrcFail tr => Sys2Proof.Machine.execHostFrameCrcFail tr s
  | .uartGapTimeout => Sys2Proof.Machine.execUartGapTimeout s
  | .heatEnd => Sys2Proof.Machine.execHeatEnd s
  | .heatEndRequest => Sys2Proof.Machine.execHeatEndRequest s
  | .tallySnapshot => Sys2Proof.Machine.execTallySnapshot s
  | .tallySnapshotDone => Sys2Proof.Machine.execTallySnapshotDone s
  | .tallyBufferClear => Sys2Proof.Machine.execTallyBufferClear s
  | .logCommit vsys failAt => Sys2Proof.Machine.execLogCommit vsys failAt s
  | .logAppend vsys failAt => Sys2Proof.Machine.execLogAppend vsys failAt s
  | .logPop m => Sys2Proof.Machine.execLogPop m s
  | .monRd a n => Sys2Proof.Machine.execMonRd a n s
  | .monWr a v => Sys2Proof.Machine.execMonWr a v s
  | .monFill a n v => Sys2Proof.Machine.execMonFill a n v s
  | .monDump a n => Sys2Proof.Machine.execMonDump a n s
  | .monLoad => Sys2Proof.Machine.execMonLoad s
  | .hexRecord a data sum => Sys2Proof.Machine.execHexRecord a data sum s
  | .monGo a => Sys2Proof.Machine.execMonGo a s
  | .monBp n a kind mask => Sys2Proof.Machine.execMonBp n a kind mask s
  | .monBpc n => Sys2Proof.Machine.execMonBpc n s
  | .monStep n => Sys2Proof.Machine.execMonStep n s
  | .monRegs => Sys2Proof.Machine.execMonRegs s
  | .monSet r v => Sys2Proof.Machine.execMonSet r v s
  | .monFlash op a1 a2 a3 vsys => Sys2Proof.Machine.execMonFlash op a1 a2 a3 vsys s
  | .monLog seq n => Sys2Proof.Machine.execMonLog seq n s
  | .monUnlock response cycles => Sys2Proof.Machine.execMonUnlock response cycles s
  | .unlockTimeout => Sys2Proof.Machine.execUnlockTimeout s
  | .monBaudDetect baud => Sys2Proof.Machine.execMonBaudDetect baud s
  | .daliSend v => Sys2Proof.Machine.execDaliSend v s
  | .daliSettled => Sys2Proof.Machine.execDaliSettled s
  | .daliForwardDone => Sys2Proof.Machine.execDaliForwardDone s
  | .daliBackwardFrame framing value => Sys2Proof.Machine.execDaliBackwardFrame framing value s
  | .daliReplyTimeout => Sys2Proof.Machine.execDaliReplyTimeout s
  | .daliCollision => Sys2Proof.Machine.execDaliCollision s
  | .daliBusFail => Sys2Proof.Machine.execDaliBusFail s
  | .daliBusIdle => Sys2Proof.Machine.execDaliBusIdle s
  | .meterPulse => Sys2Proof.Machine.execMeterPulse s
  | .meterLoad v => Sys2Proof.Machine.execMeterLoad v s
  | .adcStart => Sys2Proof.Machine.execAdcStart s
  | .adcSequenceDone codes => Sys2Proof.Machine.execAdcSequenceDone codes s
  | .uartRxOctet n b ferr perr => Sys2Proof.Machine.execUartRxOctet n b ferr perr s
  | .uartTxWrite n v => Sys2Proof.Machine.execUartTxWrite n v s
  | .uartRxRead n => Sys2Proof.Machine.execUartRxRead n s
  | .i2cStart n v => Sys2Proof.Machine.execI2cStart n v s
  | .i2cDone n e => Sys2Proof.Machine.execI2cDone n e s
  | .gpioEdge n rising => Sys2Proof.Machine.execGpioEdge n rising s
  | .gpioSet k v => Sys2Proof.Machine.execGpioSet k v s
  | .gpioClr k v => Sys2Proof.Machine.execGpioClr k v s
  | .headerOverlong n => Sys2Proof.Machine.execHeaderOverlong n s
  | .daliForeignFrame => Sys2Proof.Machine.execDaliForeignFrame s
  | .uartTxOctetSent n => Sys2Proof.Machine.execUartTxOctetSent n s
  | .hostUartFrameSent => Sys2Proof.Machine.execHostUartFrameSent s

end Sys2Proof.Machine
end

