-- ==== Sys2Proof/Machine/Step.lean ====
section
/-!
DEFINITION. One step: the command at the front of the queue, or what the block does by itself while none waits.
-/
namespace Sys2Proof.Machine

/-- One step. A command is executed on the state with the rest of the queue; with no command waiting the block takes an
event to the Rigger or lets 25 ns pass, and what these bring about waits in the queue (log entry 1). -/
def step (s : State) : Host.Outcome State Fault Refusal :=
  match s.pending with
  | c :: rest => exec c { s with pending := rest }
  | [] => .next { (idleNext s).1 with pending := (idleNext s).2 }

/-- The state with the command that a word spells put at the front of its queue; no row of the table gives bits, so the
state is as it was. -/
def State.withFetchWord (s : State) (nbits w : Nat) : State :=
  match Sys2Proof.decodeTableWord nbits w with
  | some c => { s with pending := c :: s.pending }
  | none => s

end Sys2Proof.Machine
end

