-- ==== Sys2Proof/Safety.lean ====
section
/-!
DEFINITION. What holds of every state the block can be in, and what no command undoes: the terms that claims about whole
runs use.
-/
namespace Sys2Proof.Machine

/-- Memory in its canonical form (R269). -/
abbrev Memory.Wf (m : List Host.Cell) : Prop := Sparse.Wf memReset m

/-- Every memory and table is in its canonical form. -/
structure State.Canonical (s : State) : Prop where
  regs : Sparse.Wf Reg.resetWord s.regs
  mem : Memory.Wf s.mem
  peer : Sparse.Wf wordReset s.peer
  seen : Sparse.Wf wordReset s.seen
  cox : Sparse.Wf wordReset s.cox
  bow : Sparse.Wf wordReset s.bow
  otp : Sparse.Wf otpReset s.otp

/-- No register shows a bit it does not have (R309). -/
def State.Masked (s : State) : Prop :=
  ∀ e ∈ s.regs, e.2 &&& BitVec.ofNat 32 (Reg.maskOf e.1) = e.2

/-- The core's registers show no bit they do not have: PC bits 1:0, ST's reserved bits, VBASE bits 9:0 (R238, R239). -/
def Core.Legal (c : Core) : Prop :=
  c.pc &&& 0xFFFFFFFC = c.pc ∧ c.st &&& stMask = c.st ∧ c.vbase &&& 0xFFFFFC00 = c.vbase

/-- What every step keeps. -/
structure State.Inv (s : State) : Prop where
  canonical : s.Canonical
  masked : s.Masked
  core : s.core.Legal

/-- OTP only gains bits, and BAD marks stay (R282, R414). -/
def State.KeepsOtp (s t : State) : Prop :=
  (∀ i, s.otpByte i &&& t.otpByte i = s.otpByte i) ∧ ∀ u ∈ s.bad, u ∈ t.bad

/-! ### What a command leaves alone -/

/-- What a command may change of what software can reach: registers, octets of memory, tables, OTP, BAD marks, the core,
the key slots. -/
structure Foot where
  regs : Nat → Bool := fun _ => false
  mem : Nat → Bool := fun _ => false
  tab : Tab → Bool := fun _ => false
  otp : Bool := false
  bad : Bool := false
  core : Bool := false
  keys : Bool := false

/-- From `s` to `t` nothing changes outside a footprint: every other register and every other octet of memory reads as
before, and so for the rest; the queue is never touched. -/
structure State.Within (s : State) (F : Foot) (t : State) : Prop where
  regs : ∀ a, F.regs a = false → t.reg a = s.reg a
  mem : ∀ a, F.mem a = false → t.byte a = s.byte a
  tab : ∀ x, F.tab x = false → ∀ i, t.word x i = s.word x i
  otp : F.otp = false → ∀ i, t.otpByte i = s.otpByte i
  bad : F.bad = false → t.bad = s.bad
  core : F.core = false → t.core = s.core
  keys : F.keys = false → t.dev.keys = s.dev.keys
  pending : t.pending = s.pending

/-- The registers of a page that any event of the page may move: FLT with its OVR bit and the performance counters
(R305, R319, R456). -/
def evRegs (page : Nat) : List Nat := [Reg.FLT page, Reg.PERF_CNT page 0, Reg.PERF_CNT page 1, Reg.PERF_CNT page 2, Reg.PERF_CNT page 3]

/-- A footprint of registers alone. -/
def onlyRegs (l : List Nat) : Foot := { regs := fun a => decide (a ∈ l) }

/-- A command completes: it answers a next state, and of that state `P` holds. -/
def Completes (c : Instr) (s : State) (P : State → Prop) : Prop := ∃ t, exec c s = .next t ∧ P t

/-! ### Fields that a command sets -/

/-- A register's value once fields were given values, one after the other. -/
def State.after (s : State) (l : List (Fld × Nat)) (a : Nat) : Word :=
  l.foldl (fun w x => if x.1.addr = a then bitsPut w x.1.hi x.1.lo x.2 else w) (s.reg a)

/-- The performance counters of a page (R456). -/
def perfOf (page : Nat) : List Nat := (evRegs page).tail

/-- From `s` to `t` the fields of a list have got their values, and no other register has changed but those noted; the rest
keeps to a footprint. -/
structure State.Sets (s t : State) (l : List (Fld × Nat)) (noted : List Nat := []) (F : Foot := {}) : Prop where
  regs : ∀ a ∉ noted, F.regs a = false → t.reg a = s.after l a
  rest : s.Within { F with regs := fun _ => true } t

/-- The registers of some pages, the mirrors and private pages of a unit among them where they are listed. -/
def onPages (l : List Nat) : Foot := { regs := fun a => decide (a / 0x1000 * 0x1000 ∈ l) }

/-! ### The Stroke core -/

/-- The fetch at PC goes through and goes no further: from error-free SRAM, or from a line of the instruction cache, where
the MPU and the breakpoints let it (R256, R265, R267, R474). -/
structure State.Fetches (s : State) : Prop where
  range : ∃ r, s.rangeOf s.core.pc.toNat = some r ∧ fetchable r.kind = true ∧
    if r.kind = .sram then s.core.pc.toNat / 4 * 4 ∉ s.dev.eccBad
    else s.core.icache.any (fun e => e.1 == s.core.pc.toNat / 32) = true
  mpu : s.mpuOk Reg.MPU_RLIM_X s.core.pc.toNat = true
  noBreak : ∀ n < 4, s.bpMatch [0] s.core.pc.toNat n = false

/-- The core executes its instruction: its clock runs, the fetch goes through, and neither single steps nor the sampling
unit look on (R389, R461, R475). -/
structure State.Ready (s : State) : Prop where
  inv : s.Inv
  runs : s.executes = true
  fetches : s.Fetches
  noStep : s.bit Reg.BP_STEP_STEP = false
  noSample : s.en tallyPage = false

/-- The registers the core's own clock and instructions count in: INTC's performance counters (R457). -/
def coreFoot : Foot := { regs := fun a => decide (a ∈ (evRegs intcPage).tail), core := true }

/-- A general register after an instruction that leaves `v`: a load in the slot before it is written last (R250). -/
def State.slotted (s : State) (k : Nat) (v : Word) : Word :=
  match s.core.slot with
  | some l => if k = l.rd then l.val else v
  | none => v

/-- An instruction has executed: PC is `next`, the load slot is over, the registers hold what `g` gives, the other special
registers are as before; nothing else of the block changes but the core's counters and what a further footprint names. -/
structure State.Executed (s t : State) (next : Word) (g : Nat → Word) (F : Foot := coreFoot) : Prop where
  pc : t.core.pc = next
  slot : t.core.slot = none
  regs : ∀ k, t.g k = s.slotted k (g k)
  xpc : t.core.xpc = s.core.xpc
  xst : t.core.xst = s.core.xst
  vbase : t.core.vbase = s.core.vbase
  xcause : t.core.xcause = s.core.xcause
  faddr : t.core.faddr = s.core.faddr
  icache : t.core.icache = s.core.icache
  rest : s.Within F t

/-- The general registers with one of them written. -/
def State.gWith (s : State) (rd : Nat) (v : Word) (k : Nat) : Word := if k = rd then v else s.g k

/-- N, Z, C and V are as given, `none` leaves one as before; ST's other bits are as before (R239, R245). -/
structure State.FlagsAre (s t : State) (n z c v : Option Bool) : Prop where
  n : stN t.core.st = n.getD (stN s.core.st)
  z : stZ t.core.st = z.getD (stZ s.core.st)
  c : stC t.core.st = c.getD (stC s.core.st)
  v : stV t.core.st = v.getD (stV s.core.st)
  rest : ∀ i < 28, t.core.st.toNat.testBit i = s.core.st.toNat.testBit i

/-- A row of R245 or R244: the result, and the carry and overflow it sets; N and Z are those of the result. -/
structure AluRow where
  res : Word
  carry : Option Bool := none
  ovf : Option Bool := none

/-- An instruction executes as its row says: `rd` is written where one is given, the flags where `fl` says so. -/
def State.Alu (s : State) (c : Instr) (rd : Option Nat) (fl : Bool) (r : AluRow) : Prop :=
  Completes c s fun t =>
    s.Executed t (s.core.pc + 4) (match rd with | some d => s.gWith d r.res | none => s.g) ∧
    s.FlagsAre t (if fl then some r.res.msb else none) (if fl then some (r.res == 0) else none)
      (if fl then r.carry else none) (if fl then r.ovf else none)

/-- Is an exact result outside the signed 32-bit numbers? -/
def outside32 (x : Int) : Bool := decide (x < -2147483648 ∨ 2147483647 < x)

/-- An access to main SRAM of n octets goes through: aligned, permitted, watched by no breakpoint, free of uncorrectable
errors (R248, R265, R272, R474). -/
structure State.SramAt (s : State) (write : Bool) (a : Word) (n : Nat) : Prop where
  aligned : a.toNat % n = 0
  lo : 0x20000000 ≤ a.toNat
  hi : a.toNat + n ≤ 0x20080000
  mpu : s.mpuOk (if write then Reg.MPU_RLIM_W else Reg.MPU_RLIM_R) a.toNat = true
  noBreak : ∀ k < 4, s.bpMatch (if write then [2, 3] else [1, 3]) a.toNat k = false
  clean : a.toNat / 4 * 4 ∉ s.dev.eccBad

/-- The core's footprint with the octets from an address on. -/
def storeFoot (a n : Nat) : Foot := { coreFoot with mem := fun x => decide (a ≤ x ∧ x < a + n) }

/-- The word of the vector table can be read, from main SRAM (R257). -/
structure State.VectorAt (s : State) (v : Nat) : Prop where
  lo : 0x20000000 ≤ (s.core.vbase + BitVec.ofNat 32 (4 * v)).toNat
  hi : (s.core.vbase + BitVec.ofNat 32 (4 * v)).toNat < 0x20080000
  clean : (s.core.vbase + BitVec.ofNat 32 (4 * v)).toNat ∉ s.dev.eccBad

/-- What the entry to an exception leaves (R257): the shadows, ST with MODE at SYS, IE 0 and HOLD 1, and PC. -/
structure State.Entered (s t : State) (xpc pc : Word) (g : Nat → Word) (F : Foot := coreFoot) : Prop where
  xpc : t.core.xpc = xpc
  xst : t.core.xst = s.core.st
  mode : bitOf t.core.st.toNat 0 = true
  ie : bitOf t.core.st.toNat 7 = false
  hold : bitOf t.core.st.toNat 6 = true
  flags : ∀ i, 28 ≤ i → t.core.st.toNat.testBit i = s.core.st.toNat.testBit i
  pc : t.core.pc = pc &&& 0xFFFFFFFC
  vbase : t.core.vbase = s.core.vbase
  slot : t.core.slot = none
  regs : ∀ k, t.g k = g k
  rest : s.Within F t

/-- A synchronous exception is taken through the vector table (R256, R257): the entry, and XCAUSE and FADDR; ST.PL is as
before. -/
def State.Traps (s t : State) (v kind : Nat) (faddr xpc : Word) (g : Nat → Word) : Prop :=
  s.Entered t xpc (s.memWord (s.core.vbase + BitVec.ofNat 32 (4 * v)).toNat) g ∧
    t.core.xcause = BitVec.ofNat 32 (v + 256 * kind) ∧ t.core.faddr = faddr ∧
    bitsGet t.core.st 11 8 = bitsGet s.core.st 11 8

/-- XPC of an exception that "the instruction" raises, or the LD before it in whose slot it stands (R251, R256). -/
def State.faultPc (s : State) : Word :=
  match s.core.slot with
  | some l => l.pc
  | none => s.core.pc

/-- Where a string instruction's element k stands: D chooses the direction, SZ the step (R254). -/
def elemAddr (o : SpcOps) (a : Word) (k : Nat) : Word :=
  let d := BitVec.ofNat 32 (k * 2 ^ (o.x.toNat / 2 % 4))
  if o.x.toNat % 2 = 1 then a - d else a + d

/-- Memory after n elements of z octets were copied one by one (R254). -/
def moveElems (z : Nat) (src dst : Nat → Word) : Nat → (Nat → Byte) → Nat → Byte
  | 0, m => m
  | n + 1, m =>
    let m' := moveElems z src dst n m
    fun x => if (dst n).toNat ≤ x ∧ x < (dst n).toNat + z then m' ((src n).toNat + (x - (dst n).toNat)) else m' x

/-- The frame of R252, from the new g13 upwards. -/
def State.frame (s : State) (mask : Nat) : List Word :=
  (s.core.pc + 4) :: ((List.range 16).filter fun k => mask.testBit k).map s.g
    ++ if mask.testBit 16 then [s.core.xpc, s.core.xst] else []

/-- Bit b of a page's FLT (R305). -/
def fltBit (page b : Nat) : Fld := ⟨Reg.FLT page, b, b⟩

/-- A page reports a fault of a kind and nothing else changes: FLT's bit and its event (R305). -/
def State.Reports (s t : State) (page b : Nat) : Prop := s.Sets t [(fltBit page b, 1)] (perfOf page)

/-- The link side rests: no transmission, no walk or request of the radio, no frame at a lane. -/
structure State.Quiet (s : State) : Prop where
  jobs : s.dev.tx.jobs = []
  walk : s.dev.radio.walk = none
  waiting : s.dev.radio.waiting = none
  txact : s.bit Reg.RCTL_STAT_TXACT = false
  lanes : s.dev.lanes = []
  mgmt : s.dev.hostp.mgmt = []

/-- No window of the scheduler is open and no acknowledgement window has closed over a frame: the end of a lane's frame moves
nothing of the scheduler's or of a transmission's (R149, R191). -/
structure State.Unwatched (s : State) : Prop where
  sample : s.dev.samp.sample = false
  main : s.dev.samp.main = 0
  rdv : s.dev.samp.rdv = none
  closing : s.dev.samp.closing = false
  closed : ∀ j ∈ s.dev.tx.jobs, j.closed = false

/-- Lanes that hold nothing search or rest as the open windows select them (R77, R190, R201). -/
def State.LanesFit (s : State) : Prop :=
  ∀ n < 4, (s.laneState n = laneOff → s.laneOn n = false) ∧ (s.laneState n = laneSearch → s.laneOn n = true)

/-- Network time as it stands at the LF edge at hand, with what is carried beside it (R181). -/
def State.carryNow (s : State) : Carry :=
  { ntime := (s.dev.time.ntime + s.toLfEdge) % 2 ^ 48
    ao := (s.dev.time.ao + if s.toLfEdge = 0 then 0 else 1) % 2 ^ 48
    trim := s.fld Reg.NTIME_TRIM_TRIM
    sync := s.bit Reg.NTIME_STAT_SYNC }

/-- A cell its owner lets go: free, or the link controller's while a relay holds it (R126, R128). -/
def State.letGo (s : State) (c : Nat) : Cell := if (s.cell c).hold then { s.cell c with owner := ownLink } else {}

/-- Registers of a set read their reset values, but for some. -/
def State.Cleared (t : State) (p : Nat → Bool) (but : List Nat) : Prop :=
  ∀ a, p a = true → a ∉ but → t.reg a = Reg.resetWord a

/-- The registers that show OTP (R61, R362, R414). -/
def otpShown : List Nat :=
  [Reg.FILT_EXTLO, Reg.FILT_EXTHI, Reg.SYS_LIFECYCLE, Reg.RCTL_TXLAT, Reg.RXFE_CAL, Reg.ADC_TCAL, Reg.GOV_REC 0, Reg.GOV_REC 1,
   Reg.GOV_REC 2, Reg.GOV_VCEIL] ++ (List.range 4).flatMap fun p => (List.range 4).map (Reg.TXP_PROF p)

/-- The frame buffer's octets and main SRAM's (R269). -/
def cellMem (a : Nat) : Bool := decide (0x21000000 ≤ a) && decide (a < 0x21020000)
def sramMem (a : Nat) : Bool := decide (0x20000000 ≤ a) && decide (a < 0x20080000)

/-- What a start reset leaves, whatever started it (R32, R33, R241, R413): the core at the ROM's entry, the main, link and
radio regions and the core-private registers at their reset values but for what shows OTP or survives, the link region's
memories clear, and all else of memory (but for the unit of a PROGRAM that it cuts off), OTP and the RTC domain as before. -/
structure State.StartReset (s t : State) (cause : Nat) : Prop where
  pc : t.core.pc = 0
  st : t.core.st = 0x801
  vbase : t.core.vbase = 0
  icache : t.core.icache = []
  last : t.fld Reg.SYS_RSTCAUSE_LAST = cause
  bit : t.bit ⟨Reg.SYS_RSTCAUSE, cause, cause⟩ = true
  main : t.Cleared inMain ([Reg.SYS_RSTCAUSE, Reg.SYS_BOOTINFO, Reg.LUM_STAT, Reg.LUM_MCNT] ++ otpShown)
  private_ : t.Cleared inPrivate []
  link : t.Cleared inLink (Reg.NTIME_STAT :: otpShown)
  radio : t.Cleared inRadio ([Reg.RCTL_STAT, Reg.TXP_CFG] ++ otpShown)
  cells : ∀ a, cellMem a = true → t.byte a = 0
  tabs : ∀ x i, t.word x i = 0
  rtc : ∀ a, Reg.pageOf a = rtcPage → t.reg a = s.reg a
  mem : ∀ a, cellMem a = false → s.progMem a = false → t.byte a = s.byte a
  otp : ∀ i, t.otpByte i = s.otpByte i
  bad : t.bad = s.bad
  phase : t.dev.sys.phase = .rom

/-- The registers that a cluster reset may leave as they are, or that show what other hardware drives (R17, R33). -/
def clusterKept (a : Nat) : Bool :=
  decide (a ∈ [Reg.SYS_RSTCAUSE, Reg.SYS_BOOTINFO, Reg.SYS_WDOGSTAT, Reg.SYS_WDOGCFG, Reg.FLASHC_IMG, Reg.FLASHC_IMGFIRST,
    Reg.LUM_MCNT, Reg.LUM_STAT, Reg.LINK_STAT, Reg.NTIME_TRIM, Reg.NTIME_STAT, Reg.PWR_PATH, Reg.PWR_CLKSTAT, Reg.PWR_STAT,
    Reg.GOV_STAT, Reg.LOGB_STAT, Reg.RCTL_STAT, Reg.RCTL_D2DERR, Reg.TXP_CFG] ++ otpShown)
  || decide (Reg.pageOf a = riggerPage) && (decide (riggerPage + 0x100 ≤ a))
  || decide (Reg.pageOf a = rtcPage) && decide (rtcPage + 0x100 ≤ a)

/-! ### The lanes -/

/-- Lane n has let its frame go for a drop reason and searches, or rests in another state (R79): LAST.DROP names the
reason, and of what is not the lanes' own nothing changes. -/
structure State.Dropped (s t : State) (n reason state : Nat) : Prop where
  frame : (t.lane n).frame = none
  lane : t.laneState n = state
  last : t.fld (Reg.LANES_LAST_DROP n) = reason
  others : ∀ m < 4, m ≠ n → (t.lane m).frame = (s.lane m).frame ∧ t.laneState m = s.laneState m
  rest : s.Within { regs := fun a => decide (a / 0x1000 * 0x1000 ∈ [lanesPage, rxfePage] ∨ a ∈ Reg.LINK_STAT :: perfOf linkPage) } t

/-! ### Services of the ROM -/

/-- A call of a ROM service has returned its results in general registers (R279): where the core stands at the services'
entry it goes back to its caller; other general and special registers are as before; the rest keeps to a footprint. -/
structure State.Served (s t : State) (rs : List (Nat × Nat)) (F : Foot := {}) : Prop where
  regs : ∀ k, t.g k = match rs.find? fun r => r.1 == k with | some r => BitVec.ofNat 32 r.2 | none => s.g k
  pc : t.core.pc = if s.core.pc = 0x40 then s.core.xpc &&& 0xFFFFFFFC else s.core.pc
  st : t.core.st = if s.core.pc = 0x40 then s.core.xst &&& stMask else s.core.st
  xpc : t.core.xpc = s.core.xpc
  xst : t.core.xst = s.core.xst
  vbase : t.core.vbase = s.core.vbase
  rest : s.Within { F with core := true } t

/-- Service n of the ROM may be called: the core executes, at the services' entry because of an SVC n or elsewhere with HOLD at 0,
and not where a PROGRAM goes on; no erase's result is still to be journalled (R260, R279, R281, R442). -/
structure State.Serves (s : State) (n : Nat) : Prop where
  inv : s.Inv
  runs : s.executes = true
  called : if s.core.pc = 0x40 then s.core.svc = some n else bitOf s.core.st.toNat 6 = false
  fresh : ∀ p, s.dev.flash.prog = some p → s.core.pc ≠ p.pc
  owed : s.dev.flash.owed = none

/-- The status of a service's caller (R279). -/
def State.callerSt (s : State) : Word := if s.core.pc = 0x40 then s.core.xst else s.core.st

/-- An operation starts on a cipher page (R212, R217): BUSY, OP as written with START at 0, and the work that it will
complete with. -/
def State.CipherStarts (s t : State) (n : Nat) (j : CiphJob) : Prop :=
  (t.ciph n).job = some j ∧ t.bit (Reg.CIPH_OP_START n) = false ∧ s.Sets t [(Reg.CIPH_RESULT_BUSY n, 1)] [Reg.CIPH_OP n]


/-! ### The host port -/

/-- Both footprints. -/
def Foot.with (F G : Foot) : Foot :=
  { regs := fun a => F.regs a || G.regs a, mem := fun a => F.mem a || G.mem a, tab := fun x => F.tab x || G.tab x
    otp := F.otp || G.otp, bad := F.bad || G.bad, core := F.core || G.core, keys := F.keys || G.keys }

/-- What an answer on a transport may touch: by a wire the status and counters of HOSTP; over the mesh a secured frame in
cells of the HOST pool besides (R423, R428). -/
def portFoot : Tr → Foot
  | .mesh _ _ =>
    { regs := fun a => decide (a ∈ Reg.HOSTP_STAT :: Reg.LINK_STAT :: Reg.CIPH0_FCNT :: Reg.CIPH0_FCSTAT ::
        (evRegs hostpPage ++ evRegs (ciphPage 0) ++ perfOf fbufPage)), mem := cellMem }
  | _ => onlyRegs (Reg.HOSTP_STAT :: evRegs hostpPage)

/-- A row that is a command of the host port (R432): transport, tag, code and payload. -/
def hostRow : Instr → Option (Tr × Byte × Nat × List Byte)
  | .status tr tag => some (tr, tag, 0x01, [])
  | .resetLinkRegion tr tag i => some (tr, tag, 0x02, resetPayload 1 i)
  | .resetRadioDie tr tag i => some (tr, tag, 0x02, resetPayload 2 i)
  | .resetStart tr tag i => some (tr, tag, 0x02, resetPayload 3 i)
  | .abortTx tr tag => some (tr, tag, 0x03, abortPayload 1 0)
  | .abortLane tr tag n => some (tr, tag, 0x03, abortPayload 2 n.val)
  | .abortLanes tr tag => some (tr, tag, 0x03, abortPayload 3 0)
  | .abortRelays tr tag => some (tr, tag, 0x03, abortPayload 4 0)
  | .abortCiph tr tag n => some (tr, tag, 0x03, abortPayload 5 n.val)
  | .abortDma tr tag n => some (tr, tag, 0x03, abortPayload 6 n.val)
  | .abortFlashProg tr tag => some (tr, tag, 0x03, abortPayload 7 0)
  | .abortFlashErase tr tag => some (tr, tag, 0x03, abortPayload 8 0)
  | .abortXspi tr tag => some (tr, tag, 0x03, abortPayload 9 0)
  | .abortCore tr tag => some (tr, tag, 0x03, abortPayload 0x0A 0)
  | .abortCox tr tag => some (tr, tag, 0x03, abortPayload 0x0B 0)
  | .abortUpdate tr tag => some (tr, tag, 0x03, abortPayload 0x0C 0)
  | .abortAll tr tag => some (tr, tag, 0x03, abortPayload 0x0F 0)
  | .readMem tr tag p => some (tr, tag, 0x10, p)
  | .writeMem tr tag p => some (tr, tag, 0x11, p)
  | .sendFrame tr tag p => some (tr, tag, 0x20, p)
  | .fetchFrame tr tag => some (tr, tag, 0x21, [])
  | .app tr tag p => some (tr, tag, 0x30, p)
  | .updateBegin tr tag p => some (tr, tag, 0x40, p)
  | .updateBlock tr tag p => some (tr, tag, 0x41, p)
  | .updateEnd tr tag => some (tr, tag, 0x42, [])
  | .updateCommit tr tag => some (tr, tag, 0x43, [])
  | .configBegin tr tag p => some (tr, tag, 0x48, p)
  | .configBlock tr tag p => some (tr, tag, 0x49, p)
  | .configEnd tr tag => some (tr, tag, 0x4A, [])
  | .logRead tr tag p => some (tr, tag, 0x50, p)
  | .statsRead tr tag p => some (tr, tag, 0x51, p)
  | .timeGet tr tag => some (tr, tag, 0x58, [])
  | .timeSet tr tag p => some (tr, tag, 0x59, p)
  | .keyLoad tr tag p => some (tr, tag, 0x60, p)
  | .discharge tr tag => some (tr, tag, 0x61, [])
  | _ => none

/-- The port hears a command on a transport: enabled, its clocks running, and not Dead (R370, R419, R431). -/
structure State.Hears (s : State) (tr : Tr) : Prop where
  inv : s.Inv
  on : s.trOn (trNum tr) = true
  awake : s.portAwake = true
  alive : s.dev.sys.phase ≠ .dead

/-- The port takes a command: besides, the start is complete, none is outstanding on the transport, and the lifecycle
allows it (R429–R431, R440). -/
structure State.Takes (s : State) (tr : Tr) (code : Nat) : Prop where
  hears : s.Hears tr
  started : s.starting = false
  free : (s.port (trNum tr)).out = none
  lc : lcOk code s.lc (trNum tr == 2) = true

/-- A command has been carried out and answered (R421, R423, R429, R445): counted, its event fired, its reply queued at its
wire, or held while the slot is taken; the rest keeps to a footprint. -/
structure State.Answers (s t : State) (tr : Tr) (tag : Byte) (code st : Nat) (data : List Byte) (F : Foot := {})
    (cells : List Nat := []) (reset : Bool := false) : Prop where
  counted : t.ctr hostpPage 1 0 = min 0xFFFFFFFF (s.ctr hostpPage 1 0 + 1)
  event : t.events.take (s.events.length + 1) = s.events ++ [0x61]
  empty : trNum tr < 2 → (s.port (trNum tr)).reply = none →
    (t.port (trNum tr)).reply = some { frame := replyFrame code tag.toNat st data, cells := cells, reset := reset } ∧
      (t.port (trNum tr)).out = none
  full : trNum tr < 2 → ∀ r, (s.port (trNum tr)).reply = some r →
    (t.port (trNum tr)).reply = some r ∧
      (t.port (trNum tr)).held = some { frame := replyFrame code tag.toNat st data, cells := cells, reset := reset } ∧
      (t.port (trNum tr)).out = some (code, tag.toNat)
  rest : s.Within (F.with (portFoot tr)) t

/-- A command has been refused at once (R423, R429, R430): the refusal waits at its wire, or is dropped where one waits
already; what is outstanding stays so. -/
structure State.Refuses (s t : State) (tr : Tr) (tag : Byte) (code st : Nat) : Prop where
  slot : trNum tr < 2 →
    (t.port (trNum tr)).refusal = some ((s.port (trNum tr)).refusal.getD (replyFrame code tag.toNat st [])) ∧
      ((s.port (trNum tr)).refusal.isSome = true → (t.port (trNum tr)).dropped = true) ∧
      (t.port (trNum tr)).reply = (s.port (trNum tr)).reply ∧ (t.port (trNum tr)).out = (s.port (trNum tr)).out
  app : t.dev.hostp.app = s.dev.hostp.app
  upd : t.dev.hostp.upd = s.dev.hostp.upd
  rest : s.Within (portFoot tr) t

/-- An ABORT has been carried out (R423, R442, R445): counted, its reply queued ahead of all others with a time within the
bound and whether the target was active, its record staged, FLT.ABORTED set in the clusters acted on. -/
structure State.Aborts (s t : State) (tr : Tr) (tag : Byte) (bound : Nat) (acted : Bool) (pages : List Nat) (F : Foot) : Prop where
  counted : t.ctr hostpPage 2 1 = min 0xFFFFFFFF (s.ctr hostpPage 2 1 + 1)
  reply : trNum tr < 2 → ∃ us, us ≤ bound ∧
    (t.port (trNum tr)).aborts = (s.port (trNum tr)).aborts ++
      [replyFrame 0x03 tag.toNat 0 (leBytes 2 us ++ [if acted then 1 else 0, 0])]
  record : s.dev.staged.length < 4 → t.dev.staged.length = s.dev.staged.length + 1
  flagged : ∀ p ∈ pages, t.bit (fltBit p fltAborted) = true
  rest : s.Within ((F.with (portFoot tr)).with (onlyRegs (Reg.LOGB_STAT :: (evRegs logbPage ++ pages.flatMap evRegs)))) t

/-! ### The monitor -/

/-- A row that is a command line of the monitor other than the unlock exchange's (R472). -/
def monRow : Instr → Bool
  | .monRd _ _ | .monWr _ _ | .monFill _ _ _ | .monDump _ _ | .monLoad | .monGo _ | .monBp _ _ _ _ | .monBpc _ | .monStep _
  | .monRegs | .monSet _ _ | .monFlash _ _ _ _ _ | .monLog _ _ => true
  | _ => false

/-- The monitor has replied (R472): a status and the data it shows; the rest keeps to a footprint. -/
structure State.Shows (s t : State) (st : Nat) (out : List Byte) (F : Foot := {}) : Prop where
  status : t.dev.mon.status = st
  out : t.dev.mon.out = out
  rest : s.Within F t

end Sys2Proof.Machine
end

