-- ==== Sys2Proof/Certificates/Slice0/Obligations.lean ====
section
/-!
DEFINITION. The statements for the provers, chapter by chapter. A clause about a command says that it completes, on which
states and operands, what it sets, and that nothing else changes; `cites` of OBLIGATIONS.json names the rules.
-/
open Sys2Proof Sys2Proof.Machine

/-! ### The block as a whole -/

/-- A step with a command at the front of the queue is that command on the state with the rest of the queue. -/
def Obligations.StepRunsFront : Prop :=
  ∀ (c : Instr) (s : State) (rest : List Instr),
    step { s with pending := c :: rest } = exec c { s with pending := rest }

/-- With no command waiting, an event on its way reaches the enabled channels whose source it is, each of which will fire (R318,
R322); with none, 25 ns pass (log entry 1): the link count moves by one where the link clock runs, and NTIME with it while no
trim is set (R177). -/
def Obligations.IdleStep : Prop :=
  ∀ s : State, s.Inv → s.pending = [] →
    (∀ ev rest, s.events = ev :: rest →
      ∃ t, step s = .next t ∧ t.events = rest ∧
        (∀ n : Fin 64, Instr.riggerChannelFire n ∈ t.pending ↔
          s.bit ⟨Reg.RIGGER_EN (n.val / 32), n.val % 32, n.val % 32⟩ = true ∧ s.fld (Reg.RIGGER_SRC_SRC n.val) = ev) ∧
        (∀ c ∈ t.pending, ∃ n : Fin 64, c = .riggerChannelFire n) ∧
        (∀ a, t.reg a = s.reg a) ∧ (∀ a, t.byte a = s.byte a) ∧ t.core = s.core) ∧
    (s.events = [] → s.lfEdge = false → s.dev.hostp.mgmt = [] → s.Unwatched →
      ∃ t, step s = .next t ∧
        t.dev.time.now = s.dev.time.now + 1 ∧ t.dev.time.link = s.dev.time.link + (if s.linkClock then 1 else 0) ∧
        (s.linkClock = true → s.fld Reg.NTIME_TRIM_TRIM = 0 → s.dev.time.frac = 0 →
          t.dev.time.ntime = (s.dev.time.ntime + 1) % 2 ^ 48) ∧
        (∀ a, t.reg a = s.reg a) ∧ (∀ a, t.byte a = s.byte a) ∧ (∀ i, t.otpByte i = s.otpByte i) ∧ t.core = s.core)

/-- Every command answers a next state, and leaves the commands that wait behind it as they are. -/
def Obligations.CommandsKeepQueue : Prop :=
  ∀ (c : Instr) (s : State), ∃ t, exec c s = .next t ∧ t.pending = s.pending

/-- What every state of the block has, the state after reset has. -/
def Obligations.ResetInv : Prop := State.reset.Inv

/-- Every step keeps it: canonical memories and tables, no register with a bit it does not have (R309), the core's reserved bits
at 0 (R238, R239). -/
def Obligations.StepKeepsInv : Prop := ∀ s t : State, s.Inv → step s = .next t → t.Inv

/-- No step takes a bit of OTP back, or a BAD mark (R282, R414). -/
def Obligations.StepKeepsOtp : Prop := ∀ s t : State, step s = .next t → s.KeepsOtp t

/-! ### The Stroke core -/

/-- R245's arithmetic rows, with the division corners of R247. R244's immediate rows. R245's logical rows. R245's shifts and
rotates, by rb bits 4:0 or by SH: C is the last bit out, unchanged for 0. -/
def Obligations.AluInstructions : Prop :=
  (∀ (o : RegOps) (s : State), s.Ready → o.res = 0 →
    let a := s.g o.ra.val
    let b := s.g o.rb.val
    let k := b2n (stC s.core.st)
    let rd := some o.rd.val
    s.Alu (.add o) rd o.s ⟨a + b, some (decide (2 ^ 32 ≤ a.toNat + b.toNat)), some (outside32 (a.toInt + b.toInt))⟩ ∧
    s.Alu (.adc o) rd o.s ⟨a + b + BitVec.ofNat 32 k, some (decide (2 ^ 32 ≤ a.toNat + b.toNat + k)),
      some (outside32 (a.toInt + b.toInt + k))⟩ ∧
    s.Alu (.sub o) rd o.s ⟨a - b, some (decide (b.toNat ≤ a.toNat)), some (outside32 (a.toInt - b.toInt))⟩ ∧
    s.Alu (.sbc o) rd o.s ⟨a - b - BitVec.ofNat 32 (1 - k), some (decide (b.toNat + (1 - k) ≤ a.toNat)),
      some (outside32 (a.toInt - b.toInt - (1 - k : Nat)))⟩ ∧
    s.Alu (.cmp o) none true ⟨a - b, some (decide (b.toNat ≤ a.toNat)), some (outside32 (a.toInt - b.toInt))⟩ ∧
    s.Alu (.mul o) rd o.s ⟨BitVec.ofNat 32 (a.toNat * b.toNat), none, none⟩ ∧
    s.Alu (.mulh o) rd o.s ⟨BitVec.ofInt 32 (a.toInt * b.toInt / 4294967296), none, none⟩ ∧
    s.Alu (.mulhu o) rd o.s ⟨BitVec.ofNat 32 (a.toNat * b.toNat / 2 ^ 32), none, none⟩ ∧
    (b = 0 →
      s.Alu (.div o) rd o.s ⟨0xFFFFFFFF, none, some true⟩ ∧ s.Alu (.divu o) rd o.s ⟨0xFFFFFFFF, none, some true⟩ ∧
      s.Alu (.rem o) rd o.s ⟨a, none, some true⟩ ∧ s.Alu (.remu o) rd o.s ⟨a, none, some true⟩) ∧
    (b ≠ 0 →
      s.Alu (.divu o) rd o.s ⟨BitVec.ofNat 32 (a.toNat / b.toNat), none, some false⟩ ∧
      s.Alu (.remu o) rd o.s ⟨BitVec.ofNat 32 (a.toNat % b.toNat), none, some false⟩) ∧
    (a = 0x80000000 → b = 0xFFFFFFFF →
      s.Alu (.div o) rd o.s ⟨0x80000000, none, some true⟩ ∧ s.Alu (.rem o) rd o.s ⟨0, none, some true⟩) ∧
    (b ≠ 0 → (a ≠ 0x80000000 ∨ b ≠ 0xFFFFFFFF) →
      s.Alu (.div o) rd o.s ⟨BitVec.ofInt 32 (a.toInt.tdiv b.toInt), none, some false⟩ ∧
      s.Alu (.rem o) rd o.s ⟨BitVec.ofInt 32 (a.toInt.tmod b.toInt), none, some false⟩)) ∧
  (∀ (o : ImmOps) (s : State), s.Ready → o.res = false →
    let a := s.g o.ra.val
    let z : Word := o.imm.setWidth 32
    let i : Word := o.imm.signExtend 32
    let rd := some o.rd.val
    s.Alu (.addi o) rd o.s ⟨a + i, some (decide (2 ^ 32 ≤ a.toNat + i.toNat)), some (outside32 (a.toInt + i.toInt))⟩ ∧
    s.Alu (.andi o) rd o.s ⟨a &&& z, none, none⟩ ∧ s.Alu (.ori o) rd o.s ⟨a ||| z, none, none⟩ ∧
    s.Alu (.xori o) rd o.s ⟨a ^^^ z, none, none⟩ ∧
    s.Alu (.cmpi o) none true ⟨a - i, some (decide (i.toNat ≤ a.toNat)), some (outside32 (a.toInt - i.toInt))⟩ ∧
    s.Alu (.tsti o) none true ⟨a &&& z, none, none⟩ ∧
    s.Alu (.movi o) rd false ⟨i, none, none⟩ ∧ s.Alu (.movh o) rd false ⟨z <<< 16, none, none⟩) ∧
  (∀ (o : RegOps) (s : State), s.Ready → o.res = 0 →
    let a := s.g o.ra.val
    let b := s.g o.rb.val
    let rd := some o.rd.val
    s.Alu (.and o) rd o.s ⟨a &&& b, none, none⟩ ∧ s.Alu (.or o) rd o.s ⟨a ||| b, none, none⟩ ∧
    s.Alu (.xor o) rd o.s ⟨a ^^^ b, none, none⟩ ∧ s.Alu (.andn o) rd o.s ⟨a &&& ~~~b, none, none⟩ ∧
    s.Alu (.tst o) none true ⟨a &&& b, none, none⟩ ∧
    s.Alu (.sexb o) rd o.s ⟨(a.setWidth 8).signExtend 32, none, none⟩ ∧
    s.Alu (.sexh o) rd o.s ⟨(a.setWidth 16).signExtend 32, none, none⟩ ∧
    ∃ n ≤ 32, s.Alu (.clz o) rd o.s ⟨BitVec.ofNat 32 n, none, none⟩ ∧ a.toNat < 2 ^ (32 - n) ∧
      (n < 32 → 2 ^ (31 - n) ≤ a.toNat)) ∧
  (∀ (o : RegOps) (s : State), s.Ready → o.res = 0 →
    let a := s.g o.ra.val
    let b := (s.g o.rb.val).toNat % 32
    let n := o.sh.val
    let rd := some o.rd.val
    let left (n : Nat) : AluRow := ⟨a <<< n, if n = 0 then none else some (a.toNat.testBit (32 - n)), none⟩
    let out (n : Nat) : Option Bool := if n = 0 then none else some (a.toNat.testBit (n - 1))
    s.Alu (.shl o) rd o.s (left b) ∧ s.Alu (.shr o) rd o.s ⟨a >>> b, out b, none⟩ ∧
    s.Alu (.sar o) rd o.s ⟨a.sshiftRight b, out b, none⟩ ∧ s.Alu (.ror o) rd o.s ⟨a.rotateRight b, out b, none⟩ ∧
    s.Alu (.shli o) rd o.s (left n) ∧ s.Alu (.shri o) rd o.s ⟨a >>> n, out n, none⟩ ∧
    s.Alu (.sari o) rd o.s ⟨a.sshiftRight n, out n, none⟩ ∧ s.Alu (.rori o) rd o.s ⟨a.rotateRight n, out n, none⟩)

/-- LD from main SRAM: nothing is read by the next instruction yet, the loaded value stands in the slot (R248, R250). ST to main
SRAM: the low octets of rd, least significant first, at the address, and nothing else of memory (R248). SWAP of an aligned
word of main SRAM: rd gets the word, the word gets rb, with no load delay; elsewhere than in main SRAM and the frame buffer
it raises DFAULT (R249). -/
def Obligations.MemoryInstructions : Prop :=
  (∀ (o : MemOps) (s : State), s.Ready → o.res = false → o.sz ≠ 3 →
    let n := 2 ^ o.sz.toNat
    let a := s.g o.ra.val + o.off.signExtend 32
    let v : Word := wordOf (s.bytes a.toNat n)
    s.SramAt false a n →
    Completes (.ld o) s fun t =>
      t.core.slot = some ⟨o.rd.val, if o.sx then BitVec.ofInt 32 (signed (8 * n) v.toNat) else v, s.core.pc⟩ ∧
      t.core.pc = s.core.pc + 4 ∧ (∀ k, t.g k = s.slotted k (s.g k)) ∧ t.core.st = s.core.st ∧
      t.core.xpc = s.core.xpc ∧ t.core.xst = s.core.xst ∧ t.core.vbase = s.core.vbase ∧ s.Within coreFoot t) ∧
  (∀ (o : MemOps) (s : State), s.Ready → o.res = false → o.sz ≠ 3 → o.sx = false →
    let n := 2 ^ o.sz.toNat
    let a := s.g o.ra.val + o.off.signExtend 32
    s.SramAt true a n →
    Completes (.st o) s fun t =>
      s.Executed t (s.core.pc + 4) s.g (storeFoot a.toNat n) ∧ t.core.st = s.core.st ∧
      t.bytes a.toNat n = leBytes n (s.g o.rd.val).toNat) ∧
  (∀ (o : RegOps) (s : State), s.Ready → o.res = 0 → s.core.slot = none →
    let a := s.g o.ra.val
    (s.SramAt false a 4 → s.SramAt true a 4 →
      Completes (.swap o) s fun t =>
        s.Executed t (s.core.pc + 4) (s.gWith o.rd.val (wordOf (s.bytes a.toNat 4))) (storeFoot a.toNat 4) ∧
        t.core.st = s.core.st ∧ t.bytes a.toNat 4 = leBytes 4 (s.g o.rb.val).toNat) ∧
    (a.toNat % 4 = 0 → s.swapHere a.toNat = false → bitOf s.core.st.toNat 6 = false → s.VectorAt 5 →
      Completes (.swap o) s fun t => s.Traps t 5 1 a s.core.pc s.g))

/-- Bcc goes to PC + 4 × disp where its condition holds and on to the next instruction where not (R244, R247); CALL, JMP and
CALLR go to their targets, and the calls leave the return address in LK (R244, R246). SVC with a number below 0xF000 enters
vector 6 with XPC at the next instruction; from 0xF000 on a number of a chapter enters the ROM at 0x40, and one assigned
nowhere returns PARAM in g0; BRK enters vector 7 with XPC at itself (R246, R256, R258, R279). -/
def Obligations.ControlFlow : Prop :=
  (∀ s : State, s.Ready →
    (∀ (c : Fin 15) (o : BrOps), o.res = 0 →
      Completes (.bcc c o) s fun t =>
        s.Executed t (if condHolds c.val s.core.st then s.core.pc + 4 * o.disp.signExtend 32 else s.core.pc + 4) s.g ∧
        t.core.st = s.core.st) ∧
    (∀ o : BrOps, o.res = 0 →
      Completes (.call o) s fun t =>
        s.Executed t (s.core.pc + 4 * o.disp.signExtend 32) (s.gWith 14 (s.core.pc + 4)) ∧ t.core.st = s.core.st) ∧
    (∀ o : SpcOps, (s.g o.r.val).toNat % 4 = 0 →
      (Completes (.jmp o) s fun t => s.Executed t (s.g o.r.val) s.g ∧ t.core.st = s.core.st) ∧
      (Completes (.callr o) s fun t =>
        s.Executed t (s.g o.r.val) (s.gWith 14 (s.core.pc + 4)) ∧ t.core.st = s.core.st))) ∧
  (∀ (o : SpcOps) (s : State), s.Ready → s.core.slot = none → bitOf s.core.st.toNat 6 = false →
    let n := o.x.toNat % 2 ^ 16
    (n < 0xF000 → s.VectorAt 6 → Completes (.svc o) s fun t => s.Traps t 6 0 0 (s.core.pc + 4) s.g) ∧
    (0xF000 ≤ n → svcKnown n = true →
      Completes (.svc o) s fun t => s.Entered t (s.core.pc + 4) 0x40 s.g ∧ t.core.xcause = 6) ∧
    (0xF000 ≤ n → svcKnown n = false →
      Completes (.svc o) s fun t =>
        t.core.pc = s.core.pc + 4 ∧ t.core.st = s.core.st ∧ ∀ k, t.g k = if k = 0 then 3 else s.g k) ∧
    (s.bit Reg.BP_MON_ROUTE = false → s.VectorAt 7 → Completes (.brk o) s fun t => s.Traps t 7 0 0 s.core.pc s.g))

/-- R259. In TASK mode RETX raises PRIV and in the load slot ILLEGAL (R240, R251): here the core is in SYS mode and the slot is
empty. With HOLD set, the ALIGN that it raises is a lockup (R260). -/
def Obligations.ReturnFromException : Prop :=
  ∀ (o : SpcOps) (s : State), s.Ready → s.sysMode = true → s.core.slot = none →
    (s.core.xpc.toNat % 4 = 0 →
      Completes (.retx o) s fun t =>
        t.core.pc = s.core.xpc ∧ t.core.st = s.core.xst &&& stMask ∧ t.core.xpc = s.core.xpc ∧ t.core.xst = s.core.xst ∧
        (∀ k, t.g k = s.g k) ∧ s.Within coreFoot t) ∧
    (s.core.xpc.toNat % 4 ≠ 0 → bitOf s.core.st.toNat 6 = false → s.VectorAt 3 →
      Completes (.retx o) s fun t => s.Traps t 3 3 s.core.xpc s.core.pc s.g) ∧
    (s.core.xpc.toNat % 4 ≠ 0 → bitOf s.core.st.toNat 6 = true → Completes (.retx o) s fun t => s.StartReset t 6)

/-- A special register's new value after WRSP (R238, R239, R246): XCAUSE, FADDR and CYCLE ignore it. WAIT 0 stops the core's
clock where no interrupt would be accepted with IE taken as 1, and DOZE_END starts it again where one would; WAIT 1 begins an
entry, is refused, or is abandoned at A1 or A2; SYNC completes; IINV empties the instruction cache (R246, R370–R373). -/
def Obligations.SpecialFunctions : Prop :=
  (∀ (o : SpcOps) (s : State), s.Ready →
    (o.x.toNat < 6 → (s.sysMode = true ∨ o.x.toNat = 0) →
      Completes (.rdsp o) s fun t =>
        s.Executed t (s.core.pc + 4) (s.gWith o.r.val (s.special o.x.toNat)) ∧ t.core.st = s.core.st) ∧
    (o.x.toNat < 7 → s.sysMode = true → s.core.slot = none →
      Completes (.wrsp o) s fun t =>
        let v := s.g o.r.val
        t.core.pc = s.core.pc + 4 ∧
        t.core.st = (if o.x.toNat = 0 then v &&& stMask else s.core.st) ∧
        t.core.xpc = (if o.x.toNat = 1 then v else s.core.xpc) ∧
        t.core.xst = (if o.x.toNat = 2 then v else s.core.xst) ∧
        t.core.vbase = (if o.x.toNat = 3 then v &&& 0xFFFFFC00 else s.core.vbase) ∧
        t.core.xcause = s.core.xcause ∧ t.core.faddr = s.core.faddr ∧ (∀ k, t.g k = s.g k) ∧ s.Within coreFoot t) ∧
    (s.sysMode = true →
      (Completes (.ei o) s fun t =>
        s.Executed t (s.core.pc + 4) s.g ∧ ∀ i < 32, t.core.st.toNat.testBit i =
          if i = 7 then true else if i = 6 then false else s.core.st.toNat.testBit i) ∧
      (Completes (.di o) s fun t =>
        s.Executed t (s.core.pc + 4) s.g ∧ ∀ i < 32, t.core.st.toNat.testBit i =
          if i = 7 then false else s.core.st.toNat.testBit i))) ∧
  (∀ s : State,
    (∀ o : WaitOps, o.res = 0 → s.Ready → s.sysMode = true → s.core.slot = none → s.topLine = none →
      Completes (.waitDoze o) s fun t =>
        t.core.run = .doze ∧ t.core.pc = s.core.pc + 4 ∧ (∀ k, t.g k = s.g k) ∧ t.core.st = s.core.st ∧
        t.dev.pwr.state = .doze) ∧
    (s.Inv → s.core.run = .doze → (s.wouldAccept true).isSome = true →
      Completes .dozeEnd s fun t =>
        t.core = { s.core with run := .run } ∧ t.dev.pwr.state = .run ∧ s.Within coreFoot t) ∧
    (∀ o : SpcOps, s.Ready →
      Completes (.sync o) s fun t => s.Executed t (s.core.pc + 4) s.g ∧ t.core.st = s.core.st) ∧
    (∀ o : SpcOps, s.Ready → s.sysMode = true →
      Completes (.iinv o) s fun t =>
        t.core.icache = [] ∧ t.core.pc = s.core.pc + 4 ∧ (∀ k, t.g k = s.slotted k (s.g k)) ∧ t.core.st = s.core.st ∧
        s.Within coreFoot t) ∧
    (∀ (o : WaitOps) (a1 a2 : BitVec 14), o.res = 0 → s.Ready → s.sysMode = true → s.core.slot = none → s.dev.dali.phase = .idle →
      s.dev.gov.pulse = none →
      let easy := s.bit Reg.PWR_SLEEPCFG_TARGET
      let link := if s.linkWake then 2 else 0
      let en := s.fld Reg.PWR_WAKEEN_EN &&& (if easy then 0x3FFD else 0x3FFF)
      let up (w : Nat) : Nat := min 0xFFFFFFFF (s.ctr pwrPage 2 w + 1)
      let went (t : State) : Prop := t.core.pc = s.core.pc + 4 ∧ (∀ k, t.g k = s.g k) ∧ t.core.st = s.core.st
      let left (point : Nat) (t : State) : Prop := went t ∧ t.core.run = .run ∧ t.dev.pwr.entry = .none ∧
        t.bit Reg.PWR_STAT_ABANDON = true ∧ t.fld Reg.PWR_STAT_ABPT = point ∧ t.fld Reg.PWR_STAT_RESULT = 0 ∧ t.ctr pwrPage 2 2 = up 2 ∧
        s.Within { coreFoot with regs := fun a => coreFoot.regs a || decide (a ∈ [Reg.PWR_STAT, Reg.GOV_STAT, Reg.LUM_STAT]) } t
      (s.entryRefused easy = true → Completes (.waitLowPower o a1 a2) s fun t =>
        went t ∧ t.core.run = s.core.run ∧ t.dev.pwr = s.dev.pwr ∧ t.fld Reg.PWR_STAT_RESULT = 1 ∧ t.bit (fltBit pwrPage fltState) = true ∧
        t.ctr pwrPage 2 3 = up 3 ∧ s.Within { coreFoot with regs := fun a => coreFoot.regs a || decide (a ∈ Reg.PWR_STAT :: evRegs pwrPage) } t) ∧
      (s.entryRefused easy = false → (a1.toNat ||| link) &&& en ≠ 0 → Completes (.waitLowPower o a1 a2) s (left 1)) ∧
      (s.entryRefused easy = false → (a1.toNat ||| link) &&& en = 0 → (a2.toNat ||| link) &&& en ≠ 0 →
        Completes (.waitLowPower o a1 a2) s (left 2)) ∧
      (s.entryRefused easy = false → (a1.toNat ||| link) &&& en = 0 → (a2.toNat ||| link) &&& en = 0 →
        Completes (.waitLowPower o a1 a2) s fun t =>
          went t ∧ t.core.run = .lowPower ∧ t.dev.pwr.entry = .stopped ∧ t.dev.pwr.toEasy = easy ∧ t.fld Reg.PWR_STAT_RESULT = 0 ∧
          (easy = true → t.bit Reg.PWR_STAT_PADHOLD = true ∧ t.dev.pads.isSome = true ∧
            ∀ n < 36, t.gpOut n = s.gpOut n) ∧
          s.Within { coreFoot with regs := fun a => coreFoot.regs a || decide (a ∈ [Reg.PWR_STAT, Reg.GOV_STAT, Reg.LUM_STAT]) } t)))

/-- The string instructions over error-free main SRAM with IE at 0 (R254, R255): all elements, or up to the early stop. An
interrupt that would be accepted stops a move after its element: the registers describe the elements not yet done, and PC
stays at the instruction (R255; log entry 82). -/
def Obligations.StringMoves : Prop :=
  (∀ (o : SpcOps) (s : State), s.Ready → s.core.slot = none → o.x.toNat < 8 → o.x.toNat / 2 % 4 ≠ 3 →
    let z := 2 ^ (o.x.toNat / 2 % 4)
    let n := (s.g 3).toNat
    let src := elemAddr o (s.g 1)
    let dst := elemAddr o (s.g 2)
    let F : Foot := { coreFoot with mem := fun x => (List.range n).any fun k => decide ((dst k).toNat ≤ x ∧ x < (dst k).toNat + z) }
    (∀ k < n, s.SramAt true (dst k) z) → bitOf s.core.st.toNat 7 = false →
      ((∀ k < n, s.SramAt false (src k) z) →
        Completes (.movs o) s fun t =>
          s.Executed t (s.core.pc + 4) (fun r => if r = 1 then src n else if r = 2 then dst n else if r = 3 then 0 else s.g r) F ∧
          t.core.st = s.core.st ∧ ∀ x, t.byte x = moveElems z src dst n s.byte x) ∧
      Completes (.fills o) s fun t =>
        s.Executed t (s.core.pc + 4) (fun r => if r = 2 then dst n else if r = 3 then 0 else s.g r) F ∧
        t.core.st = s.core.st ∧ ∀ k < n, t.bytes (dst k).toNat z = leBytes z (s.g 4).toNat) ∧
  (∀ (o : SpcOps) (s : State), s.Ready → s.core.slot = none → o.x.toNat < 8 → o.x.toNat / 2 % 4 ≠ 3 →
    let z := 2 ^ (o.x.toNat / 2 % 4)
    (s.wouldAccept (bitOf s.core.st.toNat 7)).isSome = true → 2 ≤ (s.g 3).toNat → s.SramAt false (s.g 1) z → s.SramAt true (s.g 2) z →
    Completes (.movs o) s fun t =>
      s.Executed t s.core.pc
        (fun r => if r = 1 then elemAddr o (s.g 1) 1 else if r = 2 then elemAddr o (s.g 2) 1
          else if r = 3 then s.g 3 - 1 else s.g r) (storeFoot (s.g 2).toNat z) ∧
      t.core.st = s.core.st ∧ t.bytes (s.g 2).toNat z = s.bytes (s.g 1).toNat z)

/-- CMPS, SCANS and CRCS read only: flags and stops as R254's table gives them. -/
def Obligations.StringCompares : Prop :=
  ∀ (o : SpcOps) (s : State), s.Ready → s.core.slot = none → o.x.toNat / 2 % 4 ≠ 3 → bitOf s.core.st.toNat 7 = false →
    let z := 2 ^ (o.x.toNat / 2 % 4)
    let n := (s.g 3).toNat
    let src := elemAddr o (s.g 1)
    let dst := elemAddr o (s.g 2)
    let x (k : Nat) : Word := wordOf (s.bytes (src k).toNat z)
    let y (k : Nat) : Word := wordOf (s.bytes (dst k).toNat z)
    let v : Word := BitVec.ofNat 32 ((s.g 4).toNat % 2 ^ (8 * z))
    (∀ k < n, s.SramAt false (src k) z) →
      (o.x.toNat < 8 → (∀ k < n, s.SramAt false (dst k) z) → ∀ m ≤ n, (∀ k < m, x k = y k) → (m < n → x m ≠ y m) →
        Completes (.cmps o) s fun t =>
          s.Executed t (s.core.pc + 4) (fun r => if r = 1 then src m else if r = 2 then dst m
            else if r = 3 then BitVec.ofNat 32 (n - m) else s.g r) ∧
          if n = 0 then t.core.st = s.core.st
          else if m = n then s.FlagsAre t (some false) (some true) (some true) (some false)
          else s.FlagsAre t (some (x m - y m).msb) (some false) (some (decide ((y m).toNat ≤ (x m).toNat)))
            (some (outside32 ((x m).toInt - (y m).toInt)))) ∧
      (o.x.toNat < 8 → ∀ m ≤ n, (∀ k < m, x k ≠ v) → (m < n → x m = v) →
        Completes (.scans o) s fun t =>
          s.Executed t (s.core.pc + 4) (fun r => if r = 1 then src m else if r = 3 then BitVec.ofNat 32 (n - m) else s.g r) ∧
          if n = 0 then t.core.st = s.core.st else s.FlagsAre t none (some (decide (m < n))) none none) ∧
      (o.x.toNat < 24 →
        Completes (.crcs o) s fun t =>
          s.Executed t (s.core.pc + 4) (fun r => if r = 1 then src n else if r = 3 then 0
            else if r = 4 ∧ n ≠ 0 then
              BitVec.ofNat 32 (((List.range n).flatMap fun k => s.bytes (src k).toNat z).foldl (crcsStep (o.x.toNat / 8 % 4)) (s.g 4).toNat)
            else s.g r) ∧
          t.core.st = s.core.st)

/-- CALLM pushes R252's frame and jumps; RETM reads the frame at g13 and restores from it (R253). -/
def Obligations.CallFrames : Prop :=
  ∀ (o : CallmOps) (s : State), s.Ready → s.core.slot = none →
    let sp := s.g 13
    let frame := s.frame o.x.toNat
    let n := frame.length
    let new := sp - BitVec.ofNat 32 (4 * n)
    let w (i : Nat) : Word := s.memWord (sp + BitVec.ofNat 32 (4 * i)).toNat
    (sp.toNat % 4 = 0 → (∀ i < n, s.SramAt true (new + BitVec.ofNat 32 (4 * i)) 4) →
      Completes (.callm o) s fun t =>
        s.Executed t (s.core.pc + 4 * o.a.signExtend 32) (s.gWith 13 new) (storeFoot new.toNat (4 * n)) ∧
        t.core.st = s.core.st ∧ ∀ i < n, t.memWord (new.toNat + 4 * i) = frame.getD i 0) ∧
    (sp.toNat % 4 ≠ 0 → bitOf s.core.st.toNat 6 = false → s.VectorAt 3 →
      Completes (.callm o) s fun t => s.Traps t 3 2 sp s.core.pc s.g) ∧
    (o.a = 0 → sp.toNat % 4 = 0 → (∀ i < n, s.SramAt false (sp + BitVec.ofNat 32 (4 * i)) 4) →
      Completes (.retm o) s fun t =>
        t.core.pc = w 0 &&& 0xFFFFFFFC ∧
        (∀ k, t.g k = if k = 13 then sp + BitVec.ofNat 32 (4 * n)
          else if k < 16 ∧ o.x.toNat.testBit k then w (1 + ((List.range k).filter fun j => o.x.toNat.testBit j).length)
          else s.g k) ∧
        (o.x.toNat.testBit 16 = false → t.core.xpc = s.core.xpc ∧ t.core.xst = s.core.xst ∧ t.core.st = s.core.st) ∧
        (o.x.toNat.testBit 16 = true → t.core.xpc = w (n - 2) ∧ t.core.xst = w (n - 1) ∧
          ∀ i < 32, t.core.st.toNat.testBit i =
            if i = 6 then true else if i = 7 then false else s.core.st.toNat.testBit i) ∧
        t.core.vbase = s.core.vbase ∧ t.core.slot = none ∧ s.Within coreFoot t)

/-- Reserved encodings, privileged instructions in TASK mode, misaligned accesses, and what may not stand in the load slot (R240,
R243, R248, R251, R256, R257). HOLD is 0 and the vector can be read. A synchronous exception while HOLD is 1 is a lockup: a
start reset with cause LOCKUP (R260). -/
def Obligations.Exceptions : Prop :=
  (∀ s : State, s.Ready → bitOf s.core.st.toNat 6 = false →
    (s.VectorAt 1 → ∀ (w : WaitOps) (p q : BitVec 14), w.res ≠ 0 → ∀ x ∈ [Instr.waitDoze w, .waitLowPower w p q],
      Completes x s fun t => s.Traps t 1 5 0 s.faultPc s.g) ∧
    (s.VectorAt 1 → ∀ (o : RegOps) (i : ImmOps) (b : BrOps) (m : MemOps) (c : Fin 15), o.res ≠ 0 → i.res = true → b.res ≠ 0 →
      m.res = true ∨ m.sz = 3 →
      ∀ x ∈ [Instr.add o, .adc o, .sub o, .sbc o, .and o, .or o, .xor o, .andn o, .shl o, .shr o, .sar o, .ror o, .shli o,
          .shri o, .sari o, .rori o, .mul o, .mulh o, .mulhu o, .div o, .divu o, .rem o, .remu o, .cmp o, .tst o, .swap o,
          .sexb o, .sexh o, .clz o, .addi i, .andi i, .ori i, .xori i, .cmpi i, .tsti i, .movi i, .movh i, .bcc c b,
          .call b, .ld m, .st m],
        Completes x s fun t => s.Traps t 1 5 0 s.faultPc s.g) ∧
    (s.VectorAt 2 → s.sysMode = false → ∀ o : SpcOps, 1 ≤ o.x.toNat → o.x.toNat ≤ 5 → ∀ x ∈ [Instr.ei o, .di o, .iinv o, .rdsp o],
      Completes x s fun t => s.Traps t 2 6 0 s.faultPc s.g) ∧
    (s.VectorAt 2 → s.sysMode = false → s.core.slot = none → ∀ (o : SpcOps) (w : WaitOps) (a b : BitVec 14), o.x.toNat < 7 → w.res = 0 →
      ∀ x ∈ [Instr.retx o, .wrsp o, .waitDoze w, .waitLowPower w a b],
        Completes x s fun t => s.Traps t 2 6 0 s.core.pc s.g) ∧
    (s.VectorAt 3 → ∀ o : MemOps, o.res = false → o.sz ≠ 3 →
      let a := s.g o.ra.val + o.off.signExtend 32
      a.toNat % 2 ^ o.sz.toNat ≠ 0 →
      (Completes (.ld o) s fun t => s.Traps t 3 1 a s.faultPc s.g) ∧
      (o.sx = false → Completes (.st o) s fun t => s.Traps t 3 2 a s.faultPc s.g)) ∧
    (s.VectorAt 1 → s.core.slot.isSome = true → ∀ (o : SpcOps) (r : RegOps) (c : CallmOps) (w : WaitOps) (a b : BitVec 14),
      o.x.toNat < 6 → r.res = 0 → c.a = 0 → w.res = 0 →
      ∀ x ∈ [Instr.movs o, .fills o, .cmps o, .scans o, .crcs o, .callm c, .retm c, .swap r, .wrsp o, .svc o, .brk o, .retx o,
          .waitDoze w, .waitLowPower w a b],
        Completes x s fun t => s.Traps t 1 4 0 s.core.pc (fun k => s.slotted k (s.g k)))) ∧
  (∀ (o : SpcOps) (s : State), s.Ready → s.core.slot = none → bitOf s.core.st.toNat 6 = true → o.x.toNat < 0xF000 →
    ∀ x ∈ [Instr.brk o, .svc o],
      Completes x s fun t =>
        t.core.pc = 0 ∧ t.core.st = 0x801 ∧ t.core.vbase = 0 ∧ t.core.icache = [] ∧ t.fld Reg.SYS_RSTCAUSE_LAST = 6 ∧
        ∀ n < 68, t.linePending n = false)

/-- INTERRUPT_ACCEPT takes the pending line of highest priority, the lowest number among equals, below ST.PL: the entry of R257
with ST.PL at the line's priority, and the line's latches clear (R262). With nothing to accept nothing changes. INTC_SET sets
the software latches of the lines named, INTC_CLR clears both latches of them (R262, R264). -/
def Obligations.Interrupts : Prop :=
  (∀ s : State, s.Inv → s.executes = true → s.core.slot = none →
    (∀ n < 68, s.linePending n = true → (∀ m < 68, s.linePending m = true → s.linePrio n < s.linePrio m ∨ s.linePrio n = s.linePrio m ∧ n ≤ m) →
      bitOf s.core.st.toNat 7 = true → bitOf s.core.st.toNat 6 = false → s.linePrio n < s.pl → s.VectorAt (32 + n) →
      Completes .interruptAccept s fun t =>
        s.Entered t s.core.pc (s.memWord (s.core.vbase + BitVec.ofNat 32 (4 * (32 + n))).toNat) s.g ∧
        bitsGet t.core.st 11 8 = s.linePrio n ∧ t.core.xcause = s.core.xcause ∧ t.core.faddr = s.core.faddr ∧
        (∀ k, t.dev.intc.edge.testBit k = (decide (k ≠ n) && s.dev.intc.edge.testBit k)) ∧
        ∀ k, t.dev.intc.soft.testBit k = (decide (k ≠ n) && s.dev.intc.soft.testBit k)) ∧
    ((∀ n < 68, s.linePending n = true → s.pl ≤ s.linePrio n) ∨ bitOf s.core.st.toNat 7 = false ∨ bitOf s.core.st.toNat 6 = true →
      Completes .interruptAccept s fun t => t = s)) ∧
  (∀ (k : Fin 4) (v : Word) (s : State),
    (Completes (.intcSet k v) s fun t =>
      (∀ n, t.dev.intc.soft.testBit n =
        (s.dev.intc.soft.testBit n || decide (n / 32 = k.val) && v.toNat.testBit (n % 32))) ∧
      t.dev.intc.edge = s.dev.intc.edge ∧ s.Within {} t) ∧
    (Completes (.intcClr k v) s fun t =>
      (∀ n, t.dev.intc.soft.testBit n =
        (s.dev.intc.soft.testBit n && !(decide (n / 32 = k.val) && v.toNat.testBit (n % 32)))) ∧
      (∀ n, t.dev.intc.edge.testBit n =
        (s.dev.intc.edge.testBit n && !(decide (n / 32 = k.val) && v.toNat.testBit (n % 32)))) ∧ s.Within {} t))

/-! ### Resets, clusters and registers -/

/-- The resets of a region, of the package and of the RTC domain (R22, R23, R27, R28, R33, R34, R241, R413). -/
def Obligations.Resets : Prop :=
  ∀ s : State, s.Inv →
    (Completes .linkRegionReset s fun t =>
      t.Cleared inLink (Reg.NTIME_STAT :: otpShown) ∧ (∀ x ≠ .bow, ∀ i, t.word x i = 0) ∧
      (∀ a, cellMem a = true → t.byte a = 0) ∧ t.dev.hostp.rx = [] ∧ t.dev.hostp.tx = [] ∧
      (s.linkClock = true → s.dev.time.restore = false → t.fld Reg.NTIME_STAT_CVALID = 1) ∧
      s.Within { regs := fun a => inLink a || inRadio a || decide (a ∈ Reg.SAMP_STAT :: otpShown), mem := cellMem
                 tab := (· != .bow), keys := true } t ∧
      ∀ i < 8, Sparse.val {} t.dev.keys i = Sparse.val {} s.dev.keys i) ∧
    (s.onAir = none →
      Completes .radioDieReset s fun t =>
        t.Cleared inRadio ([Reg.RCTL_STAT, Reg.TXP_CFG] ++ otpShown) ∧ t.radio = 0 ∧ (∀ i, t.word .bow i = 0) ∧
        t.dev.radio.cache = [] ∧ t.bit Reg.RCTL_STAT_UCODE_OK = false ∧ t.bit Reg.RCTL_STAT_LINKFAIL = false ∧
        (∀ p < 4, s.dev.radio.profLatch = some p → t.fld Reg.TXP_CFG_PROFILE = p ∧ t.bit Reg.TXP_CFG_LOCK = true) ∧
        s.Within { regs := fun a => inRadio a || decide (Reg.pageOf a = lanesPage) || decide (a ∈ otpShown), tab := (· == .bow) } t) ∧
    (∀ x ∈ [(Instr.packageReset, 1), (Instr.powerOnReset, 0)],
      Completes x.1 s fun t =>
        t.core.pc = 0 ∧ t.core.st = 0x801 ∧ t.core.vbase = 0 ∧ t.core.icache = [] ∧
        t.reg Reg.SYS_RSTCAUSE = BitVec.ofNat 32 (2 ^ x.2 + 256 * x.2) ∧
        t.Cleared inMain ([Reg.SYS_RSTCAUSE, Reg.SYS_BOOTINFO, Reg.LUM_STAT] ++ otpShown) ∧ t.Cleared inPrivate [] ∧
        t.Cleared inLink otpShown ∧ t.Cleared inRadio ([Reg.RCTL_STAT] ++ otpShown) ∧
        t.Cleared inAo ([Reg.LOGB_STAT, Reg.PWR_CLKSTAT, Reg.PWR_PATH, Reg.GOV_STAT] ++ otpShown) ∧
        (∀ a, cellMem a || sramMem a → t.byte a = 0) ∧ (∀ y i, t.word y i = 0) ∧
        s.Within { regs := fun a => inMain a || inLink a || inAo a || inRadio a || inPrivate a
                   mem := fun a => cellMem a || sramMem a || s.progMem a
                   tab := fun _ => true, core := true, keys := true } t) ∧
    Completes .rtcPowerOnReset s fun t =>
      t.Cleared (fun a => decide (Reg.pageOf a = rtcPage)) [] ∧ s.Within (onPages [rtcPage]) t

/-- A register of a configuration region without a behaviour of its own (R13, R308–R310): a write takes its RW fields while the
governing enable is 0; while it is 1 they stay and FLT.WIGN and LASTOFS say so; RWL and unlocked RWK fields are written in
both. FLASHC, the Rigger and the cipher pages have rules of their own. A write narrower than a word is ignored and sets
FLT.STATE (R309); one to a region without power sets it in SYS (R20); one whose transfer to the radio die failed four times does
nothing (R26). CTRL.EN enables a cluster (R303). A parity mismatch:
one bit of the register, FLT.PAR with the offset, a staged record; and the unit's enable clears (R14, R313, R314). -/
def Obligations.RegisterWrites : Prop :=
  (∀ (m : Master) (a v : Word) (s : State), s.Inv →
    let p := Reg.pageOf a.toNat
    let n := a.toNat
    (∀ r, Reg.rowOf n = some r → isConfig n = true → n % 4 = 0 → r.w1c = 0 → r.clr0 = [] → s.powered p = true →
      p ≠ flashcPage → p ≠ riggerPage → (p < ciphPage 0 ∨ ciphPage 7 < p) →
      n ∉ [Reg.TALLY_SAMP, Reg.GOV_CHG, Reg.SYNTH_CCTL, Reg.TXP_CFG, Reg.LTIM_CFG 0] → s.lockedReg n = false → s.busVoid p = false →
      (s.bit (govFld n) = false →
        let w := BitVec.ofNat 32 (r.rw ||| r.rwl ||| r.rwk)
        Completes (.registerWrite m .word a v) s fun t =>
          t.reg n = s.reg n &&& ~~~w ||| v &&& w &&& BitVec.ofNat 32 (Reg.maskOf n) ∧ s.Within (onlyRegs (n :: perfOf p)) t) ∧
      (s.bit (govFld n) = true → r.rw ≠ 0 →
        let w := BitVec.ofNat 32 (r.rwl ||| r.rwk)
        Completes (.registerWrite m .word a v) s fun t =>
          t.reg n = s.reg n &&& ~~~w ||| v &&& w &&& BitVec.ofNat 32 (Reg.maskOf n) ∧ t.bit (fltBit p fltWign) = true ∧
          t.fld (Reg.FLT_LASTOFS p) = n % 0x1000 ∧ s.Within (onlyRegs (n :: evRegs p)) t)) ∧
    (∀ z : Size, isCluster p = true → s.powered p = true → n % accLen z = 0 → s.busVoid p = true →
      Completes (.registerWrite m z a v) s fun t => t.dev.radio.busFail = false ∧ s.Within {} t) ∧
    (∀ z : Size, z ≠ .word → isCluster p = true → s.powered p = true → n % accLen z = 0 → s.busVoid p = false →
      Completes (.registerWrite m z a v) s fun t => s.Reports t p fltState) ∧
    (∀ z : Size, isCluster p = true → s.powered p = false → n % accLen z = 0 →
      Completes (.registerWrite m z a v) s fun t => s.Reports t sysPage fltState) ∧
    (n = Reg.CTRL p → isCluster p = true → s.powered p = true → v &&& 3 = 1 → s.en p = false → s.parityCommon p = false →
      p ∉ [sysPage, flashcPage, spihPage, tallyPage, linkPage, lanesPage, sampPage, rxfePage] → (p < ciphPage 0 ∨ ciphPage 7 < p) →
      s.busVoid p = false →
      Completes (.registerWrite m .word a v) s fun t =>
        s.Sets t [(Reg.CTRL_CLKHOLD p, bitsGet v 2 2), (Reg.CTRL_EN p, 1)] (perfOf p))) ∧
  (∀ (a : Word) (s : State), s.Inv →
    let n := a.toNat
    let p := Reg.pageOf n
    isConfig n = true → parityMask n ≠ 0 → s.powered p = true → n ∉ s.dev.parity → p ≠ txpPage →
      (s.bit (govFld n) = false →
        Completes (.parityFault a) s fun t =>
          t.bit (fltBit p fltPar) = true ∧ t.fld (Reg.FLT_LASTOFS p) = n % 0x1000 ∧ n ∈ t.dev.parity ∧
          (s.dev.staged.length < 4 → t.dev.staged.length = s.dev.staged.length + 1) ∧
          s.Within (onlyRegs (n :: Reg.LOGB_STAT :: (evRegs p ++ evRegs logbPage))) t) ∧
      (p ∈ [dmaPage, stimPage, ltimPage, riggerPage] → s.bit (govFld n) = true →
        Completes (.parityFault a) s fun t => t.bit (govFld n) = false ∧ t.bit (fltBit p fltPar) = true))

/-- A cluster reset of any page; what ends it, and the small commands of clocks, pads and banks (R17, R18, R21, R273, R377). The
watchdog, resets by software, and the loading of the Bow sequencer (R45, R398, R408, R409, R413). -/
def Obligations.SystemControl : Prop :=
  (∀ s : State, s.Inv →
    (∀ p, isCluster p = true → s.powered p = true →
      Completes (.clusterReset p) s fun t =>
        (∀ a, Reg.pageOf a = p → clusterKept a = false → t.reg a = Reg.resetWord a) ∧ p ∈ t.dev.resetting) ∧
    (∀ p, isCluster p = true → s.powered p = false → Completes (.clusterReset p) s fun t => s.Reports t sysPage fltState) ∧
    (∀ p, Completes (.clusterResetComplete p) s fun t => p ∉ t.dev.resetting ∧ s.Within {} t) ∧
    (∀ p, s.pageBusy p = false → s.bit (Reg.CTRL_CLKHOLD p) = false →
      Completes (.clockGateClose p) s fun t => p ∉ t.dev.gates ∧ s.Within {} t) ∧
    (Completes .padRelease s fun t => t.dev.pads = none ∧ s.Sets t [(Reg.PWR_STAT_PADHOLD, 0)]) ∧
    (∀ b : Fin 8, Completes (.sramBankClearDone b) s fun t =>
      (∀ k, t.dev.pwr.clearing.testBit k = (decide (k ≠ b.val) && s.dev.pwr.clearing.testBit k)) ∧ s.Within {} t)) ∧
  (∀ s : State, s.Inv →
    (Completes (.aliveWrite 0xA11E) s fun t =>
      t.dev.sys.fails = 0 ∧ t.fld Reg.SYS_BOOTINFO_FAILS = 0 ∧ t.bit Reg.SYS_WDOGSTAT_ALIVE = true ∧
      (s.bit Reg.SYS_WDOGSTAT_RUN = true →
        t.dev.sys.wdLeft = 32768 * max 1 (min 3600 (s.fld Reg.SYS_WDOGCFG_PERIOD)) ∧ t.dev.sys.warned = false) ∧
      (s.bit Reg.SYS_WDOGSTAT_RUN = false → t.dev.sys.wdLeft = s.dev.sys.wdLeft) ∧
      s.Within (onlyRegs [Reg.SYS_BOOTINFO, Reg.SYS_WDOGSTAT]) t) ∧
    (∀ v : Word, v ≠ 0xA11E → Completes (.aliveWrite v) s fun t => s.Reports t sysPage fltState) ∧
    (s.bit Reg.SYS_WDOGSTAT_RUN = true →
      (Completes .watchdogWarning s fun t => t.dev.sys.warned = true ∧ s.Within {} t) ∧
      Completes .watchdogExpiry s fun t =>
        s.StartReset t 2 ∧
        t.dev.sys.fails = s.dev.sys.fails + (if s.bit Reg.SYS_WDOGSTAT_ALIVE then 0 else 1) ∧
        (s.dev.staged.length < 4 → t.dev.staged.length = s.dev.staged.length + 1)) ∧
    (Completes (.softwareReset 0x5A5A) s fun t => s.StartReset t 3 ∧ t.fld Reg.SYS_RSTCAUSE_SOFTSRC = 0) ∧
    (∀ v : Word, v ≠ 0x5A5A → Completes (.softwareReset v) s fun t => s.Reports t sysPage fltState) ∧
    (s.radio = 0 → s.dev.radio.walk = none →
      Completes .bowUcodeLoad s fun t => t.dev.bowLoad = { s.dev.bowLoad with isOpen := true, ready := false } ∧ s.Sets t [(Reg.RCTL_STAT_UCODE_OK, 0)]) ∧
    (s.dev.bowLoad.isOpen = true → ∀ v : Word,
      let i := s.fld Reg.SYS_BOWCTL_ADDR
      (Completes (.bowUcodeData v) s fun t =>
        t.word .bow i = v ∧ (∀ k ≠ i, t.word .bow k = s.word .bow k) ∧
        s.Sets t [(Reg.SYS_BOWCTL_ADDR, (i + 1) % 2 ^ 11)] [] { tab := (· == .bow) }) ∧
      Completes .bowUcodeDone s fun t => t.dev.bowLoad = { isOpen := false, crc := true } ∧ s.Sets t [(Reg.SYS_BOWCTL_DONE, 1)]) ∧
    (s.dev.bowLoad.isOpen = false → ∀ v : Word,
      (Completes (.bowUcodeData v) s fun t => s.Reports t sysPage fltState) ∧
      Completes .bowUcodeDone s fun t => s.Reports t sysPage fltState) ∧
    (s.dev.bowLoad.crc = true →
      Completes .bowUcodeCrcReady s fun t =>
        t.dev.bowLoad = { s.dev.bowLoad with crc := false, ready := !s.dev.bowLoad.isOpen } ∧
        s.Sets t [(Reg.SYS_BOWCRC_CRC, crc32 ((List.range 2048).flatMap fun k => leBytes 4 (s.word .bow k).toNat)), (Reg.SYS_BOWCTL_DONE, 0)]) ∧
    (s.dev.bowLoad.ready = true →
      Completes .bowUcodeGood s fun t => s.Sets t [(Reg.RCTL_STAT_UCODE_OK, 1)]) ∧
    (s.dev.bowLoad.ready = false → Completes .bowUcodeGood s fun t => s.Reports t sysPage fltState))

/-! ### The radio, the transmit path and the lanes -/

/-- Radio requests and their walks (R40–R45, R47, R68, R69): refusals, requests already met, the first step of a walk, its end; a
channel change. -/
def Obligations.RadioRequests : Prop :=
  ∀ (s : State) (link : Bool) (temp : Int), s.Inv → s.Quiet →
    let cmds : List (Nat × Instr) := [(0, .radioRequestSleep link temp), (1, .radioRequestStby link temp), (2, .radioRequestSyn link temp), (3, .radioRequestRx link temp)]
    (s.bit Reg.RCTL_STAT_OWNER ≠ link → ∀ x ∈ cmds,
      Completes x.2 s fun t =>
        s.Sets t [(Reg.RCTL_CMDSTAT_REFUSED, min 255 (s.fld Reg.RCTL_CMDSTAT_REFUSED + 1)), (Reg.RCTL_CMDSTAT_STATUS, 1),
          (Reg.RCTL_CMDSTAT_TIME, 0)] (evRegs rctlPage) ∧
        t.bit (fltBit rctlPage fltState) = true ∧ t.dev.radio.walk = none) ∧
    (s.bit Reg.RCTL_STAT_OWNER = link → s.dev.radio.bowDead = false → s.bit Reg.RCTL_STAT_BUSY = false → s.radio ≤ 3 →
      (s.bit Reg.RCTL_STAT_UCODE_OK = false → ∀ x ∈ cmds, x.1 ≠ 0 →
        Completes x.2 s fun t =>
          t.fld Reg.RCTL_CMDSTAT_STATUS = 1 ∧ t.bit (fltBit rctlPage fltState) = true ∧ s.Within (onPages [rctlPage]) t) ∧
      (s.bit Reg.RCTL_STAT_UCODE_OK = true → ∀ x ∈ cmds,
        (2 ≤ x.1 → s.synthOk = false →
          Completes x.2 s fun t => t.fld Reg.RCTL_CMDSTAT_STATUS = 3 ∧ t.radio = s.radio ∧ s.Within (onPages [rctlPage]) t) ∧
        (2 ≤ x.1 → s.synthOk = true → s.radio = 1 →
          Completes x.2 s fun t =>
            t.bit Reg.RCTL_STAT_BUSY = true ∧ t.fld Reg.RCTL_STAT_TARGET = x.1 ∧ t.bit Reg.RCTL_STAT_LOCK = false ∧
            t.fld Reg.SYNTH_FREQ_FREQ = (freqWord s.synthHz * 40000000 + 2 ^ 19) / 2 ^ 20 % 2 ^ 30 ∧
            (t.dev.radio.walk.map fun w => (w.next, w.goal, w.tunes)) = some (2, x.1, true) ∧
            s.Within (onPages [rctlPage, synthPage]) t) ∧
        ((2 ≤ x.1 → s.synthOk = true) → s.radio = x.1 →
          Completes x.2 s fun t =>
            s.Sets t [(Reg.RCTL_STAT_BUSY, 0), (Reg.RCTL_STAT_TARGET, x.1), (Reg.RCTL_CMDSTAT_STATUS, 0), (Reg.RCTL_CMDSTAT_TIME, 0)]
              (evRegs rctlPage) ∧ t.dev.radio.walk = none) ∧
        ((2 ≤ x.1 → s.synthOk = true) → s.radio = 0 → x.1 ≠ 0 →
          Completes x.2 s fun t =>
            s.Sets t [(Reg.RCTL_STAT_LOCK, 0), (Reg.SYNTH_STAT_LOCK, 0), (Reg.RCTL_STAT_BUSY, 1), (Reg.RCTL_STAT_TARGET, x.1)] ∧
            (t.dev.radio.walk.map fun w => (w.next, w.goal)) = some (1, x.1)) ∧
        (x.1 ≤ 1 → s.radio = 2 →
          Completes x.2 s fun t =>
            s.Sets t [(Reg.RCTL_STAT_LOCK, 0), (Reg.SYNTH_STAT_LOCK, 0), (Reg.RCTL_STAT_BUSY, 1), (Reg.RCTL_STAT_TARGET, x.1)] ∧
            (t.dev.radio.walk.map fun w => (w.next, w.goal)) = some (1, x.1)))) ∧
    (∀ v : Word, s.bit Reg.RCTL_STAT_OWNER = link → s.bit Reg.RCTL_STAT_BUSY = false → s.radio ≤ 1 →
      Completes (.channelChange v link temp) s fun t => s.Sets t [(Reg.SYNTH_CHAN_N, bitsGet v 9 0)]) ∧
    (∀ v : Word, s.bit Reg.RCTL_STAT_OWNER ≠ link →
      Completes (.channelChange v link temp) s fun t => s.Reports t synthPage fltState) ∧
    Completes .cacheFlush s fun t => t.dev.radio.cache = [] ∧ s.Within {} t

/-- The end of a walk's last step: its state, its request's status and time, lock after a tune, the lanes in RX (R42, R43, R48,
R77); the synthesiser loses lock, finds it, tunes again while it has not, or does not find it within 1,000 µs (R49, R50; log
entry 108 for a loss in SYN). Errors on the die-to-die link, and a Bow
sequencer that stops responding, with nothing in the air (R26, R46). -/
def Obligations.RadioTransitions : Prop :=
  (∀ s : State, s.Inv → s.dev.tx.jobs = [] → s.dev.lanes = [] → s.dev.radio.waiting = none → s.dev.radio.bowDead = false →
    (∀ (w : Walk) (r : RadioReq), s.dev.radio.walk = some w → w.req = some r → w.next = w.goal → w.goal ≤ 3 → w.retune = false →
      (w.tunes = true → s.dev.radio.unlock = false) →
      Completes .radioTransitionDone s fun t =>
        t.radio = w.goal ∧ t.bit Reg.RCTL_STAT_BUSY = false ∧ t.fld Reg.RCTL_STAT_TARGET = w.goal ∧
        t.fld Reg.RCTL_CMDSTAT_STATUS = 0 ∧ t.fld Reg.RCTL_CMDSTAT_TIME = min 0xFFFF ((s.dev.time.link - r.at_) / 40) ∧
        t.dev.radio.walk = none ∧
        (w.tunes = true → t.bit Reg.RCTL_STAT_LOCK = true ∧
          t.dev.radio.cache.tail = (if w.miss then s.dev.radio.cache.take 15 else s.dev.radio.cache.tail) ∧
          (w.miss = true → (t.dev.radio.cache.head?.map fun e => (e.word, e.temp)) = some (s.dev.radio.word, s.dev.radio.temp))) ∧
        (w.goal = 3 → ∀ n < 4, t.laneState n =
          if s.en lanesPage && s.bit ⟨Reg.LANES_ENABLE, n, n⟩ && bitOf s.windowLanes n then laneSearch else laneOff) ∧
        (w.goal < 3 → ∀ n < 4, t.laneState n = laneOff) ∧
        s.Within (onPages [rctlPage, synthPage, lanesPage, rxfePage]) t) ∧
    (∀ w : Walk, s.dev.radio.walk = some w → w.tunes = true → s.dev.radio.unlock = true →
      Completes .radioTransitionDone s fun t =>
        t.radio = s.radio ∧ t.bit Reg.RCTL_STAT_LOCK = false ∧ t.dev.radio.unlock = true ∧
        (t.dev.radio.walk.map fun x => (x.next, x.goal, x.tunes, x.req)) = some (w.next, w.goal, true, w.req) ∧
        s.Within (onlyRegs [Reg.RCTL_STAT, Reg.SYNTH_STAT, Reg.SYNTH_FREQ, Reg.SYNTH_CACHE]) t) ∧
    (∀ w : Walk, s.dev.radio.walk = some w → w.tunes = true → w.next = 2 → 2 ≤ w.goal → w.retune = false →
      Completes .synLock s fun t =>
        t.radio = 2 ∧ t.bit Reg.RCTL_STAT_LOCK = true ∧ t.bit Reg.SYNTH_STAT_LOCK = true ∧ t.dev.radio.unlock = false) ∧
    (s.dev.radio.walk = none → s.bit Reg.RCTL_STAT_LOCK = true → s.radio = 2 →
      Completes .synUnlock s fun t =>
        t.bit Reg.RCTL_STAT_LOCK = false ∧ t.bit Reg.SYNTH_STAT_LOCK = false ∧ t.radio = 2 ∧
        t.fld Reg.SYNTH_STAT_UNLOCKS = min 0xFFFF (s.fld Reg.SYNTH_STAT_UNLOCKS + 1) ∧ t.bit Reg.RCTL_STAT_BUSY = true ∧
        (t.dev.radio.walk.map fun w => (w.next, w.goal, w.tunes)) = some (2, 2, true) ∧
        s.Within (onPages [rctlPage, synthPage, lanesPage]) t) ∧
    (s.dev.radio.walk = none → s.bit Reg.RCTL_STAT_LOCK = false → 2 ≤ s.radio →
      Completes .synLock s fun t =>
        t.dev.radio.unlock = false ∧ s.Sets t [(Reg.RCTL_STAT_LOCK, 1), (Reg.SYNTH_STAT_LOCK, 1)]) ∧
    (s.dev.radio.walk = none → s.dev.radio.unlock = true → s.bit Reg.RCTL_STAT_LOCK = false → s.radio = 2 →
      Completes .lockTimeout s fun t =>
        s.Sets t [(Reg.SYNTH_STAT_LOCKTO, 1), (Reg.RCTL_STAT_LOCK, 0), (Reg.SYNTH_STAT_LOCK, 0), (Reg.RCTL_STAT_BUSY, 1),
          (Reg.RCTL_STAT_TARGET, 1)] ∧
        (t.dev.radio.walk.map fun w => (w.next, w.goal)) = some (1, 1))) ∧
  (∀ s : State, s.Inv → s.Quiet →
    (s.dev.radio.d2dErrs = [] →
      (Completes .d2dRxBurstError s fun t =>
        s.Sets t [(Reg.RCTL_D2DERR_RXBURST, min 255 (s.fld Reg.RCTL_D2DERR_RXBURST + 1))]) ∧
      (Completes .d2dTxBurstError s fun t =>
        s.Sets t [(Reg.RCTL_D2DERR_TXBURST, min 255 (s.fld Reg.RCTL_D2DERR_TXBURST + 1))]) ∧
      ∀ k : Fin 4, k.val < 3 → Completes (.d2dRegbusError k) s fun t =>
        s.Sets t [(Reg.RCTL_D2DERR_REGBUS, min 255 (s.fld Reg.RCTL_D2DERR_REGBUS + k.val + 1))]) ∧
    (s.bit Reg.RCTL_STAT_LINKFAIL = false →
      Completes (.d2dRegbusError 3) s fun t =>
        t.dev.radio.busFail = true ∧ t.bit (fltBit rctlPage fltPar) = true ∧ t.bit Reg.RCTL_STAT_LINKFAIL = true ∧ t.bit Reg.RCTL_D2DERR_FAILED = true ∧
        s.Within (onPages [rctlPage, logbPage]) t) ∧
    (s.dev.radio.bowDead = false →
      Completes .bowUnresponsive s fun t =>
        t.dev.radio.bowDead = true ∧ t.bit Reg.RCTL_STAT_UCODE_OK = false ∧ t.bit Reg.RCTL_STAT_BUSY = false ∧
        s.Within (onPages [rctlPage, lanesPage, rxfePage]) t))

/-- The instants of one frame of the firmware's ring that is alone in the queue (R44, R51–R53, R62–R65, R132, R149, R151):
release, blanking, check, ramp, start and end. -/
def Obligations.Transmission : Prop :=
  ∀ (s : State) (j : TxJob), s.Inv → s.Unwatched → s.dev.tx.jobs = [j] → s.dev.lanes = [] → s.dev.radio.walk = none →
    j.kind = .ring → j.confirmed = true → s.dev.tx.doneSlots = [] → s.dev.duty.cur < 60 → s.dev.radio.bowDead = false →
    let a := 16 * s.fld Reg.LINK_TXRING_BASE + 16 * j.slot
    let reported (t : State) (k : TxJob) (st : Nat) : Prop :=
      t.dev.tx.jobs = [] ∧ t.bytes a 16 = completionOf k st ∧
      (j.slot = s.fld Reg.LINK_TXIDX_DONE → t.fld Reg.LINK_TXIDX_DONE = (j.slot + 1) % ringSize (s.fld Reg.LINK_TXRING_SIZE))
    let slotMem : Nat → Bool := fun x => decide (a ≤ x ∧ x < a + 16)
    let charged (t : State) : Prop :=
      1000 * t.dev.duty.sum + t.dev.duty.residue = 1000 * s.dev.duty.sum + s.dev.duty.residue + j.air
    (j.stage = .ready → s.jobCheck j false = 0 →
      Completes .txRelease s fun t =>
        t.dev.tx.jobs = [{ j with stage := if s.bit Reg.RCTL_STAT_LOCK then .checked else .lockWait
                                  ts := s.dev.time.link + if s.bit Reg.RCTL_STAT_LOCK then (if s.radio = 3 then 960 else 640) else 0 }] ∧
        charged t ∧ t.fld Reg.TXP_STAT_STATUS = 0 ∧ t.fld Reg.TXP_STAT_CODE = s.appliedCode j.pwr % 256 ∧
        s.Within (onlyRegs [Reg.TXP_STAT, Reg.LINK_STAT]) t) ∧
    (j.stage = .ready → s.jobCheck j false ≠ 0 →
      Completes .txRelease s fun t =>
        reported t j (s.jobCheck j false) ∧ t.dev.duty = s.dev.duty ∧
        s.Within { onPages [linkPage, txpPage] with mem := slotMem } t) ∧
    (j.stage = .reserved → s.radio = 3 → s.bit Reg.RCTL_STAT_BUSY = false →
      Completes .txBlanking s fun t =>
        t.bit Reg.RCTL_STAT_BUSY = true ∧ t.fld Reg.RCTL_STAT_TARGET = 4 ∧
        (∀ n < 4, s.laneOn n = true → t.laneState n = laneBlanked) ∧ t.dev.radio.blank = true ∧ t.dev.radio.back = 3 ∧
        s.Within (onPages [rctlPage, lanesPage, rxfePage]) t) ∧
    (j.stage = .reserved → j.timed = true → s.jobCheck j true = 0 →
      Completes .txCheck s fun t =>
        t.dev.tx.jobs = [{ j with stage := .checked }] ∧ charged t ∧ t.fld Reg.TXP_STAT_STATUS = 0 ∧
        (s.radio = 2 → t.bit Reg.RCTL_STAT_BUSY = true ∧ t.fld Reg.RCTL_STAT_TARGET = 4) ∧
        s.Within (onlyRegs [Reg.TXP_STAT, Reg.LINK_STAT, Reg.RCTL_STAT]) t) ∧
    (j.stage = .reserved → j.timed = true → j.level = none → s.jobCheck j true ≠ 0 →
      Completes .txCheck s fun t =>
        reported t j (s.jobCheck j true) ∧ t.dev.duty = s.dev.duty ∧
        s.Within { onPages [linkPage, txpPage, rctlPage] with mem := slotMem } t) ∧
    (j.stage = .checked → s.blocked = false → s.en txpPage = true → s.bit Reg.RCTL_STAT_LOCK = true → s.radio = 2 →
      Completes .paRampUp s fun t =>
        t.dev.tx.jobs = [{ j with stage := .ramping, attempts := j.attempts + 1 }] ∧ t.radio = 4 ∧
        t.bit Reg.RCTL_STAT_TXACT = true ∧ t.bit Reg.RCTL_STAT_BUSY = false ∧ t.dev.radio.back = 2 ∧
        s.Within (onlyRegs (Reg.RCTL_STAT :: Reg.LINK_STAT :: evRegs txpPage)) t) ∧
    (j.stage = .ramping →
      Completes .txStart s fun t =>
        t.dev.tx.jobs = [{ j with stage := .onAir, sentAt := s.dev.time.ntime }] ∧ t.dev.tx.air = some (s.airFrame j) ∧
        s.Within (onlyRegs [Reg.LINK_STAT]) t) ∧
    (j.stage = .onAir →
      (j.ar = false → Completes .txEnd s fun t =>
        reported t j 0 ∧ t.dev.tx.air = none ∧ t.bit Reg.RCTL_STAT_TXACT = false ∧ t.bit Reg.RCTL_STAT_BUSY = true ∧
        t.fld Reg.RCTL_STAT_TARGET = s.dev.radio.back % 8 ∧
        s.Within { onPages [linkPage, txpPage, rctlPage] with mem := slotMem } t) ∧
      (j.ar = true → Completes .txEnd s fun t =>
        t.dev.tx.jobs = [{ j with stage := .ackWait, tend := s.dev.time.link, aoEnd := s.dev.time.ao + 1 }] ∧
        t.bit Reg.RCTL_STAT_TXACT = false ∧ s.Within (onPages [linkPage, txpPage, rctlPage]) t))

/-- The minute of the duty meter (R64, R65), the profile lock (R61) and the test carrier (R518). -/
def Obligations.TransmitLimits : Prop :=
  ∀ s : State, s.Inv →
    (s.bit Reg.PWR_CLKSTAT_LFOK = true → s.dev.duty.cur < 60 →
      Completes .dutyMinuteBoundary s fun t =>
        t.dev.duty.cur = (s.dev.duty.cur + 1) % 60 ∧ t.dev.duty.bucket t.dev.duty.cur = 0 ∧
        (∀ k ≠ t.dev.duty.cur, t.dev.duty.bucket k = s.dev.duty.bucket k) ∧ t.dev.duty.residue = s.dev.duty.residue ∧
        s.Within {} t) ∧
    (∀ v : Word, s.bit Reg.TXP_CFG_LOCK = false → s.en txpPage = false →
      Completes (.profileLock v) s fun t =>
        t.dev.radio.profLatch = some (bitsGet v 5 4) ∧
        s.Sets t [(Reg.TXP_CFG_CEIL, bitsGet v 15 8), (Reg.TXP_CFG_CLAMP, bitsGet v 0 0), (Reg.TXP_CFG_PROFILE, bitsGet v 5 4),
          (Reg.TXP_CFG_LOCK, 1)]) ∧
    (∀ v : Word, s.bit Reg.TXP_CFG_LOCK = true → s.en txpPage = true →
      Completes (.profileLock v) s fun t =>
        t.reg Reg.TXP_CFG = s.reg Reg.TXP_CFG ∧ t.dev.radio.profLatch = s.dev.radio.profLatch ∧
        t.bit (fltBit txpPage fltState) = true ∧ t.bit (fltBit txpPage fltWign) = true ∧ s.Within (onlyRegs (evRegs txpPage)) t) ∧
    (∀ i : BitVec 6, s.Quiet → s.bit Reg.TXP_TEST_CW = false →
      (s.bit Reg.RCTL_STAT_OWNER = false → s.radio = 2 → s.bit Reg.RCTL_STAT_BUSY = false →
        s.txCheck false (s.carrier2 0 0) 0 (s.txMax * 1000) i.toNat = 0 →
        Completes (.testCarrierStart i) s fun t =>
          t.bit Reg.TXP_TEST_CW = true ∧ t.fld Reg.TXP_TEST_INDEX = i.toNat ∧ t.radio = 4 ∧ t.bit Reg.RCTL_STAT_TXACT = true ∧
          t.dev.tx.jobs.length = 1 ∧
          s.Within (onlyRegs ([Reg.TXP_TEST, Reg.TXP_STAT, Reg.RCTL_STAT, Reg.LINK_STAT] ++ evRegs txpPage)) t) ∧
      (s.bit Reg.RCTL_STAT_OWNER = true ∨ s.radio ≠ 2 →
        Completes (.testCarrierStart i) s fun t =>
          t.bit (fltBit txpPage fltState) = true ∧ t.bit Reg.TXP_TEST_CW = false ∧
          s.Within (onlyRegs (evRegs txpPage)) t)) ∧
    (∀ j : TxJob, s.dev.tx.jobs = [j] → j.kind = .carrier → j.stage = .onAir → s.dev.radio.bowDead = false → ∀ x ∈ [Instr.testCarrierStop, .testCarrierTimeout],
      Completes x s fun t =>
        t.dev.tx.jobs = [] ∧ t.bit Reg.TXP_TEST_CW = false ∧ t.bit Reg.RCTL_STAT_TXACT = false ∧
        t.bit Reg.RCTL_STAT_BUSY = true ∧ t.fld Reg.RCTL_STAT_TARGET = s.dev.radio.back % 8 ∧
        s.Within (onlyRegs ([Reg.TXP_TEST, Reg.RCTL_STAT, Reg.LINK_STAT] ++ evRegs txpPage)) t)

/-- Enabling and disabling a lane, its counters, the gain control and energy detection (R76, R79, R83, R93, R96). -/
def Obligations.LaneControl : Prop :=
  ∀ (n : Fin 4) (s : State), s.Inv →
    let k := n.val
    let on : Fld := ⟨Reg.LANES_ENABLE, k, k⟩
    (∀ v : Word, v = s.reg Reg.LANES_ENABLE ||| BitVec.ofNat 32 (2 ^ k) → s.bit on = false → s.dev.parity = [] → s.Unwatched →
      (s.laneCfgOk k = true →
        Completes (.laneEnable v) s fun t =>
          lanesPage ∈ t.dev.gates ∧
          s.Sets t ([(⟨Reg.LANES_CFGERR, 8 * k + 7, 8 * k⟩, 0), (on, 1)] ++
            if s.en lanesPage && bitOf s.windowLanes k && s.rxRuns then [(laneStateFld k, 1)]
            else if s.en lanesPage && bitOf s.windowLanes k && s.dev.radio.blank then [(laneStateFld k, 5), (Reg.LANES_ED_STALE k, 1)]
            else [])) ∧
      (s.laneCfgOk k = false →
        Completes (.laneEnable v) s fun t => s.Sets t [(⟨Reg.LANES_CFGERR, 8 * k + 7, 8 * k⟩, 3)])) ∧
    (∀ v : Word, v = s.reg Reg.LANES_ENABLE &&& ~~~(BitVec.ofNat 32 (2 ^ k)) → s.bit on = true → s.Unwatched →
      (s.holds k = false →
        Completes (.laneDisable v) s fun t => s.Sets t [(on, 0), (laneStateFld k, 0), (Reg.LANES_ED_STALE k, 1)]) ∧
      (s.holds k = true → Completes (.laneDisable v) s fun t => t.bit on = false ∧ s.Dropped t k 9 0)) ∧
    (∀ v : Word, Completes (.laneCounterClear v) s fun t =>
      (∀ item ∈ [0x10, 0x20, 0x30, 0x8010, 0x8020], ∀ w < 4,
        t.ctr lanesPage (item + k) w = if v.toNat.testBit k then 0 else s.ctr lanesPage (item + k) w) ∧
      s.Within {} t) ∧
    (∀ (level : Int) (clipped : Bool),
      let step := s.fld Reg.RXFE_GAIN_STEP
      let e := level - signed 8 (s.fld Reg.RXFE_AGC_TARGET)
      let band := max 1 (min 6 (s.fld Reg.RXFE_AGC_DBAND))
      let want : Int := if clipped then step - 4 else if band < e.natAbs then step - roundDiv e 6 else step
      (s.rxRuns = false → Completes (.agcUpdate level clipped) s fun t => s.Within {} t) ∧
      (s.rxRuns = true → s.bit Reg.LANES_STAT_FROZEN = false → s.dev.gain.rearm = none → s.bit Reg.RXFE_AGC_MANUAL = false →
        s.en rxfePage = true →
        Completes (.agcUpdate level clipped) s fun t =>
          s.Sets t ([(Reg.RXFE_GAIN_LEVEL, unsigned 8 level), (Reg.RXFE_GAIN_STEP, (max 0 (min 12 want)).toNat)] ++
            if clipped then [(Reg.RXFE_CLIP_ALL, min 0xFFFF (s.fld Reg.RXFE_CLIP_ALL + 1))] else [])) ∧
      (∀ m : Fin 4, s.rxRuns = true → s.dev.gain.rearm = some m.val → s.dev.gain.updates = 3 →
        Completes (.agcUpdate level clipped) s fun t =>
          t.dev.gain.rearm = none ∧ t.bit Reg.LANES_STAT_RESETTLE = false ∧ t.fld Reg.LANES_STAT_OWNER = m.val ∧
          t.bit Reg.LANES_STAT_FROZEN = true ∧ t.bit Reg.RXFE_GAIN_FROZEN = true ∧
          (∀ k < 4, s.holds k = true → (t.lane k).digRuns = false)) ∧
      (s.rxRuns = true → s.bit Reg.LANES_STAT_FROZEN = true →
        Completes (.agcUpdate level clipped) s fun t =>
          t.fld Reg.RXFE_GAIN_STEP = step ∧
          t.fld Reg.RXFE_CLIP_FROZEN = (if clipped then min 0xFFFF (s.fld Reg.RXFE_CLIP_FROZEN + 1) else s.fld Reg.RXFE_CLIP_FROZEN))) ∧
    (∀ ed : Int,
      (s.laneState k = laneSearch →
        Completes (.energyMeasurement n ed) s fun t =>
          t.dev.samp.energy = (s.dev.samp.energy || decide (4 * signed 8 (s.fld Reg.SAMP_CFG_EDTH) ≤ ed)) ∧
          s.Sets t [(Reg.LANES_ED_ED k, unsigned 16 ed), (Reg.LANES_ED_STALE k, 0)]) ∧
      (s.laneState k ≠ laneSearch → Completes (.energyMeasurement n ed) s fun t => s.Within {} t))

/-- A detection on a searching lane, by the preamble on an FSK lane and by the STF on an OFDM lane: the frame, the lane's state,
and the freeze of the gain, which a lane of priority takes over from one without (R84, R86, R87, R93); below DETMIN nothing
happens. -/
def Obligations.Detection : Prop :=
  ∀ (n : Fin 4) (pwr cfo : Int) (s : State), s.Inv → s.dev.gain.rearm = none → (s.lane n.val).since ≤ s.dev.time.link →
    let k := n.val
    let dm := s.fld (Reg.LANES_DET_DETMIN k)
    let c := if s.isOfdm k then Instr.stfDetected n pwr cfo else .preambleQualified n pwr cfo
    let other := if s.isOfdm k then Instr.preambleQualified n pwr cfo else .stfDetected n pwr cfo
    let st := if s.isOfdm k then laneHeader else lanePreamble
    let owner := s.fld Reg.LANES_STAT_OWNER
    let F : Foot := onlyRegs (Reg.LANES_STAT :: Reg.LANES_ED k :: Reg.RXFE_GAIN :: (evRegs lanesPage ++ perfOf sampPage))
    (Completes other s fun t => s.Within {} t) ∧
    (dm ≠ 0x80 → pwr < 4 * signed 8 dm → Completes c s fun t => s.Within {} t) ∧
    (s.laneState k = laneSearch → s.laneOn k = true → (dm = 0x80 ∨ 4 * signed 8 dm ≤ pwr) →
      (owner = 7 →
        Completes c s fun t =>
          (t.lane k).frame = some { detAt := s.dev.time.link, cfo := cfo } ∧ (t.lane k).digRuns = false ∧
          t.dev.samp.detected = (s.dev.samp.detected || s.dev.samp.sample) ∧
          s.Sets t [(laneStateFld k, st), (Reg.LANES_ED_STALE k, 1), (Reg.LANES_STAT_OWNER, k), (Reg.LANES_STAT_FROZEN, 1),
            (Reg.RXFE_GAIN_FROZEN, 1)] (evRegs lanesPage ++ perfOf sampPage)) ∧
      (∀ f, owner < 4 → owner ≠ k → (s.lane owner).frame = some f → f.detAt < s.dev.time.link →
        (s.bit (Reg.LANES_MODE_PRIO k) = false ∨ s.bit (Reg.LANES_MODE_PRIO owner) = true →
          Completes c s fun t =>
            (t.lane k).frame = some { detAt := s.dev.time.link, cfo := cfo } ∧ t.dev.gain = s.dev.gain ∧
            s.Sets t [(laneStateFld k, st), (Reg.LANES_ED_STALE k, 1)] (evRegs lanesPage ++ perfOf sampPage)) ∧
        (s.bit (Reg.LANES_MODE_PRIO k) = true → s.bit (Reg.LANES_MODE_PRIO owner) = false →
          s.bit Reg.RXFE_AGC_MANUAL = true →
          Completes c s fun t =>
            t.fld Reg.LANES_STAT_OWNER = k ∧ t.bit Reg.LANES_STAT_FROZEN = true ∧ t.laneState k = st ∧ s.Within F t) ∧
        (s.bit (Reg.LANES_MODE_PRIO k) = true → s.bit (Reg.LANES_MODE_PRIO owner) = false →
          s.bit Reg.RXFE_AGC_MANUAL = false →
          Completes c s fun t =>
            t.dev.gain.rearm = some k ∧ t.dev.gain.updates = 0 ∧ t.bit Reg.LANES_STAT_RESETTLE = true ∧
            t.bit Reg.LANES_STAT_FROZEN = false ∧ t.bit Reg.RXFE_GAIN_FROZEN = false ∧ t.laneState k = st ∧
            (t.lane k).digRuns = true ∧
            (∀ m < 4, m ≠ k → s.holds m = true → s.justDetected m = false →
              (t.lane m).frame = none ∧ t.laneState m = laneSearch ∧ t.fld (Reg.LANES_LAST_DROP m) = 1) ∧
            s.Within { regs := fun a => decide (a / 0x1000 * 0x1000 ∈ [lanesPage, rxfePage] ∨ a ∈ Reg.LINK_STAT :: perfOf sampPage) } t)))

/-- R78: while a lane receives a frame, no other frame on its channel is taken in its place. -/
def Obligations.OneFrameAtATime : Prop :=
  ∀ (n : Fin 4) (pwr cfo : Int) (s : State), s.Inv → s.laneState n.val ∈ [lanePreamble, laneHeader, lanePayload] →
    ∀ c ∈ [Instr.preambleQualified n pwr cfo, .stfDetected n pwr cfo],
      Completes c s fun t =>
        (∀ m, t.lane m = s.lane m) ∧ t.laneState n.val = s.laneState n.val ∧ t.dev.gain = s.dev.gain ∧ s.Within {} t

/-- From the SFD or the LTF to the PHR: the latched RSSI and SNR, a lane that misses them, and the PHR's judgement (R79–R81, R92,
R99, R520; log entry 25 for the order on an OFDM lane). -/
def Obligations.LaneFrames : Prop :=
  ∀ (n : Fin 4) (f : RxFrame) (s : State), s.Inv → s.Unwatched → (s.lane n.val).frame = some f →
    let k := n.val
    let others (t : State) : Prop := ∀ m < 4, m ≠ k → t.lane m = s.lane m
    (s.laneState k = lanePreamble → ∀ (coded : Bool) (rssi : Int),
      (s.preOver k = true → coded = false → Completes (.sfdDetected n coded rssi) s fun t => s.Dropped t k 6 laneSearch) ∧
      (s.preOver k = false → coded = false ∨ s.bit (Reg.LANES_MODE_FEC k) = true →
        Completes (.sfdDetected n coded rssi) s fun t =>
          (t.lane k).frame = some { f with sfdAt := s.dev.time.link, coded := coded, rssi := rssi, snr := 0 } ∧ others t ∧
          s.Sets t [(Reg.LANES_LAST_RSSI k, unsigned 16 rssi), (Reg.LANES_LAST_SNR k, 0), (laneStateFld k, laneHeader),
            (Reg.LANES_ED_STALE k, 1)]
            (evRegs lanesPage)) ∧
      (coded = true → s.bit (Reg.LANES_MODE_FEC k) = false → Completes (.sfdDetected n coded rssi) s fun t => s.Within {} t)) ∧
    (s.laneState k = laneHeader → s.isOfdm k = true → ∀ (rssi : Int) (snr : Byte),
      Completes (.ltfEnd n rssi snr) s fun t =>
        (t.lane k).frame = some { f with sfdAt := s.dev.time.link, coded := false, rssi := rssi, snr := snr.toNat } ∧ others t ∧
        s.Sets t [(Reg.LANES_LAST_RSSI k, unsigned 16 rssi), (Reg.LANES_LAST_SNR k, snr.toNat)] (evRegs lanesPage)) ∧
    (s.laneState k = laneHeader → s.isOfdm k = true → Completes (.ltfMissing n) s fun t => s.Dropped t k 4 laneSearch) ∧
    (s.laneState k = lanePreamble → Completes (.nosync n) s fun t => s.Dropped t k 6 laneSearch) ∧
    (s.laneState k = laneHeader → ∀ p : Phr,
      let bad := s.isOfdm k && (!p.hcsOk || !mcsOk (s.fld (Reg.LANES_MODE_OPT k)) p.mcs)
      let long := decide (s.fld (Reg.LANES_LEN_MAXLEN k) < p.len)
      let short := !s.isOfdm k && decide (p.len < if p.fcs2 then 2 else 4)
      (bad = true → Completes (.phrDecoded n p) s fun t => s.Dropped t k 4 laneSearch) ∧
      (bad = false → long = true → Completes (.phrDecoded n p) s fun t => s.Dropped t k 3 laneSearch) ∧
      (bad = false → long = false → p.modeSwitch = true → Completes (.phrDecoded n p) s fun t => s.Dropped t k 5 laneSearch) ∧
      (bad = false → long = false → p.modeSwitch = false → short = true →
        Completes (.phrDecoded n p) s fun t => s.Dropped t k 4 laneSearch) ∧
      (bad = false → long = false → p.modeSwitch = false → short = false →
        (s.fld Reg.LINK_STAT_MODE = 0 → Completes (.phrDecoded n p) s fun t => s.Dropped t k 9 laneSearch) ∧
        (s.fld Reg.LINK_STAT_MODE ≠ 0 → Completes (.phrDecoded n p) s fun t =>
          (t.lane k).frame = some { f with len := p.len, fcs2 := p.fcs2 && !s.isOfdm k, white := p.white, mcs := p.mcs, seed := p.seed } ∧
          others t ∧ s.Sets t [(laneStateFld k, lanePayload), (Reg.LANES_ED_STALE k, 1)])))

/-- The verdict at the end of the MAC header, with the link controller in SW and no transmission queued, on a frame without a
flood header (R134–R140): a frame the filter refuses is dropped and counted; an unsecured one from an unknown source is to be
delivered, and its chain of free cells passes to the link controller; a header that does not end within 64 octets is
DROP_LENGTH. -/
def Obligations.Verdicts : Prop :=
  ∀ (n : Fin 4) (f : RxFrame) (hdr : List Byte) (s : State), s.Inv → (s.lane n.val).frame = some f →
    s.laneState n.val = lanePayload → f.verdict = none → s.fld Reg.LINK_STAT_MODE = 1 → s.dev.tx.jobs = [] →
    s.Unwatched → s.bit Reg.FILT_CFG_PROMISC = false →
    let k := n.val
    let h := whitened f.white hdr
    let m := parseMac h
    let stored := f.len - if f.fcs2 then 2 else 4
    let up (item w : Nat) : Nat := min 0xFFFFFFFF (s.ctr linkPage item w + 1)
    let F : Foot := { regs := fun a => decide (a / 0x1000 * 0x1000 ∈ [lanesPage, rxfePage] ∨
      a ∈ Reg.LINK_STAT :: (perfOf linkPage ++ perfOf fbufPage)) }
    (hdr.length ≤ 64 → floodIe h m = none → strobeOf h f.len = none →
      (s.filterOk m none = false → m.ftype ≠ 2 →
        Completes (.headerEnd n hdr) s fun t =>
          (t.lane k).frame = none ∧ t.laneState k = laneSearch ∧ t.ctr linkPage 1 3 = up 1 3 ∧ t.dev.tx.jobs = [] ∧
          t.dev.cells = s.dev.cells ∧ s.Within F t) ∧
      (s.filterOk m none = true → m.ftype = 1 → m.sec = false → m.ar = false → s.peerHit m.src = none →
        s.bit Reg.LINK_CFG_HOSTRX = false → s.slotFree false = true → 0 < stored → s.canAlloc poolRx (cellsFor stored) = true →
        cellsFor stored ≤ s.freeCells.length →
        Completes (.headerEnd n hdr) s fun t =>
          (∀ g, (t.lane k).frame = some g →
            g.verdict = some .deliver ∧ g.hdr = h ∧ g.len = f.len ∧ g.row = 8 ∧ g.cells.length = cellsFor stored ∧ g.cells.Nodup ∧
            g.ackJob = none ∧ g.relayJob = none ∧ t.chainBytes g.cells h.length = h ∧
            ∀ c ∈ g.cells, (s.cell c).owner = ownFree ∧ (t.cell c).owner = ownLink ∧ (t.cell c).pool = poolRx) ∧
          (t.lane k).frame.isSome = true ∧ t.laneState k = lanePayload ∧ t.dev.tx.jobs = [] ∧
          s.Within { F with mem := cellMem } t)) ∧
    Completes (.headerOverlong n) s fun t =>
      (t.lane k).frame = none ∧ t.laneState k = laneSearch ∧ t.ctr linkPage 2 2 = up 2 2 ∧ s.Within F t

/-- The end of a frame whose verdict is delivery to the firmware (R130, R138, R139, R223): a bad FCS frees its cells; an
unsecured frame is delivered at once, its descriptor in the ring and its cells the core's; a secured one waits for its MIC,
whose failure frees the cells and counts DROP_AUTH. -/
def Obligations.FrameEnds : Prop :=
  ∀ (n : Fin 4) (f : RxFrame) (s : State), s.Inv → s.dev.tx.jobs = [] → s.Unwatched → f.verdict = some .deliver →
    f.row = 8 → f.consumed = false → f.toHost = false → f.repeat_ = false → f.ackJob = none → f.relayJob = none →
    f.cells.Nodup → (∀ c ∈ f.cells, c < 512 ∧ (s.cell c).owner = ownLink) →
    let k := n.val
    let slot := s.fld Reg.LINK_RXRING_BASE * 16 + 16 * s.fld Reg.LINK_RXIDX_WR
    slot + 16 ≤ 0x21000000 →
    let inCells (a : Nat) : Bool := f.cells.any fun c => decide (cellAddr c ≤ a ∧ a < cellAddr c + 256)
    let F : Foot := { regs := fun a => decide (a / 0x1000 * 0x1000 ∈ [lanesPage, rxfePage] ∨
                        a ∈ Reg.LINK_STAT :: (evRegs linkPage ++ perfOf (ciphPage 0)))
                      mem := fun a => decide (slot ≤ a ∧ a < slot + 16) || inCells a }
    let delivered (t : State) (g : RxFrame) (secured : Bool) (octets : List Byte) : Prop :=
      t.bytes slot 16 = rxDesc k g false secured false octets.length ∧ t.chainBytes f.cells octets.length = octets ∧
      (∀ c ∈ f.cells, (t.cell c).owner = ownCore) ∧
      t.fld Reg.LINK_RXIDX_WR = (s.fld Reg.LINK_RXIDX_WR + 1) % ringSize (s.fld Reg.LINK_RXRING_SIZE) ∧
      s.Within { F with regs := fun a => F.regs a || decide (a = Reg.LINK_RXIDX) } t
    let freed (t : State) : Prop := (∀ c ∈ f.cells, t.cell c = {}) ∧ (∀ c ∉ f.cells, t.cell c = s.cell c) ∧ s.Within { F with mem := inCells } t
    (∀ air : List Byte, (s.lane k).frame = some f → s.laneState k = lanePayload → s.fld Reg.LINK_STAT_MODE ≠ 0 → air.length = f.len →
      let psdu := whitened f.white air
      let body := psdu.take (f.len - if f.fcs2 then 2 else 4)
      let m := parseMac body
      let g := { f with tend := s.dev.time.ntime, tendLink := s.dev.time.link, aoEnd := s.dev.time.ao + 1, psdu := psdu }
      (fcsOk f.fcs2 psdu = false →
        Completes (.frameEnd n air) s fun t =>
          (t.lane k).frame = none ∧ t.laneState k = laneSearch ∧
          t.ctr linkPage 3 0 = min 0xFFFFFFFF (s.ctr linkPage 3 0 + 1) ∧ freed t) ∧
      (fcsOk f.fcs2 psdu = true → m.sec = false → f.peer = none → floodIe body m = none → f.cells.length = cellsFor body.length →
        Completes (.frameEnd n air) s fun t =>
          (t.lane k).frame = none ∧ t.laneState k = laneSearch ∧ t.ctr linkPage 1 0 = min 0xFFFFFFFF (s.ctr linkPage 1 0 + 1) ∧
          delivered t g false body) ∧
      (fcsOk f.fcs2 psdu = true → m.sec = true →
        Completes (.frameEnd n air) s fun t =>
          (t.lane k).frame = none ∧ (t.lane k).mics = (s.lane k).mics ++ [g] ∧ t.dev.cells = s.dev.cells ∧
          s.Within { F with mem := inCells } t)) ∧
    ((s.lane k).mics = [] → Completes (.micResult n) s fun t => s.Within {} t) ∧
    (∀ rest, (s.lane k).mics = f :: rest → f.peer = none → f.keySlot ≠ 3 →
      let body := f.psdu.take (f.len - if f.fcs2 then 2 else 4)
      let m := parseMac body
      let ext := match m.src with | .ext a => a | _ => 0
      let r := openFrame f.key (frameNonce ext m.fcnt m.level) body m
      (f.keyErr ∈ [2, 3, 4] ∨ f.keyErr = 0 ∧ r.2 = false →
        Completes (.micResult n) s fun t =>
          (t.lane k).mics = rest ∧ t.ctr linkPage 3 1 = min 0xFFFFFFFF (s.ctr linkPage 3 1 + 1) ∧ freed t) ∧
      (f.keyErr = 0 → r.2 = true → floodIe body m = none →
        let plain := r.1 ++ body.drop (body.length - micLen m.level)
        f.cells.length = cellsFor plain.length →
        Completes (.micResult n) s fun t => (t.lane k).mics = rest ∧ delivered t f true plain))

/-! ### The link controller -/

/-- LINK_MODE with nothing queued and the scheduler disabled, and the loading of the Cox microcode (R120, R121, R123, R188). -/
def Obligations.LinkModes : Prop :=
  ∀ s : State, s.Inv → s.Quiet → s.en sampPage = false →
    let mode := s.fld Reg.LINK_STAT_MODE
    let a := s.fld Reg.LINK_UCCTL_ADDR
    (∀ x ∈ [(Instr.linkModeSw, 1), (Instr.linkModeHw, 2)],
      (s.en linkPage = true → s.bit Reg.LINK_STAT_UCODE_OK = true →
        Completes x.1 s fun t =>
          s.Sets t ([(Reg.LINK_MODE_MODE, x.2), (Reg.LINK_STAT_MODE, x.2)] ++ if mode = 0 then [(Reg.RCTL_STAT_OWNER, 1)] else [])) ∧
      (s.en linkPage = false ∨ s.bit Reg.LINK_STAT_UCODE_OK = false → Completes x.1 s fun t => s.Reports t linkPage fltState)) ∧
    (mode = 0 → Completes .linkModeOff s fun t => s.Sets t [(Reg.LINK_MODE_MODE, 0)]) ∧
    (mode ≠ 0 → s.radio = 1 → s.bit Reg.RCTL_STAT_BUSY = false → s.Unwatched →
      Completes .linkModeOff s fun t =>
        t.fld Reg.LINK_STAT_MODE = 0 ∧ t.bit Reg.RCTL_STAT_OWNER = false ∧ t.radio = 1 ∧ t.fld Reg.SAMP_STAT_BSTATE = 0 ∧
        t.dev.tx.jobs = [] ∧ s.Within (onlyRegs [Reg.LINK_MODE, Reg.LINK_STAT, Reg.RCTL_STAT, Reg.SAMP_STAT]) t) ∧
    (mode = 0 → Completes .coxUcodeLoad s fun t =>
      t.dev.coxLoad = { s.dev.coxLoad with isOpen := true, ready := false } ∧ s.Sets t [(Reg.LINK_STAT_UCODE_OK, 0)]) ∧
    (mode ≠ 0 → Completes .coxUcodeLoad s fun t => s.Reports t linkPage fltState) ∧
    (s.dev.coxLoad.isOpen = true → ∀ v : Word,
      (Completes (.coxUcodeData v) s fun t =>
        t.word .cox a = v ∧ (∀ k ≠ a, t.word .cox k = s.word .cox k) ∧
        s.Sets t [(Reg.LINK_UCCTL_ADDR, (a + 1) % 2 ^ 13)] [] { tab := (· == .cox) }) ∧
      Completes .coxUcodeDone s fun t => t.dev.coxLoad = { isOpen := false, crc := true } ∧ s.Sets t [(Reg.LINK_UCCTL_DONE, 1)]) ∧
    (s.dev.coxLoad.isOpen = false → ∀ v : Word,
      (Completes (.coxUcodeData v) s fun t => s.Reports t linkPage fltState) ∧
      Completes .coxUcodeDone s fun t => s.Reports t linkPage fltState) ∧
    (s.dev.coxLoad.crc = true →
      Completes .coxUcodeCrcReady s fun t =>
        t.dev.coxLoad = { s.dev.coxLoad with crc := false, ready := !s.dev.coxLoad.isOpen } ∧
        t.reg Reg.LINK_UCCRC = BitVec.ofNat 32 (crc32 ((List.range 8192).flatMap fun k => leBytes 4 (s.word .cox k).toNat)) ∧
        t.bit Reg.LINK_UCCTL_DONE = false ∧ s.Within (onlyRegs [Reg.LINK_UCCRC, Reg.LINK_UCCTL]) t) ∧
    (s.dev.coxLoad.ready = true → Completes .coxUcodeGood s fun t => s.Sets t [(Reg.LINK_STAT_UCODE_OK, 1)]) ∧
    (s.dev.coxLoad.ready = false → Completes .coxUcodeGood s fun t => s.Reports t linkPage fltState)

/-- FBUF_ALLOC, FBUF_FREE and FBUF_REVOKE: a chain is taken whole from free cells or not at all; a released cell is free, or the
link controller's while a relay holds it (R124–R128, R158). -/
def Obligations.Cells : Prop :=
  ∀ (v : Word) (s : State), s.Inv →
    let n := bitsGet v 11 9 + 1
    let c := bitsGet v 8 0
    let o := bitsGet v 1 0
    let gone := s.letGo
    (s.canAlloc poolTx n = true → n ≤ s.freeCells.length →
      Completes (.chainAlloc v) s fun t =>
        let l := t.chain (t.fld Reg.FBUF_ALLOC_CELL)
        t.fld Reg.FBUF_ALLOC_STATUS = 0 ∧ l.length = n ∧ l.Nodup ∧
        (∀ x ∈ l, (s.cell x).owner = ownFree ∧ (t.cell x).owner = ownCore ∧ (t.cell x).pool = poolTx ∧ (t.cell x).hold = false) ∧
        (∀ x ∉ l, t.cell x = s.cell x) ∧ s.Within (onlyRegs (Reg.FBUF_ALLOC :: perfOf fbufPage)) t) ∧
    (s.canAlloc poolTx n = false →
      Completes (.chainAlloc v) s fun t =>
        t.dev.cells = s.dev.cells ∧
        s.Sets t [(Reg.FBUF_ALLOC_NCM1, n - 1), (Reg.FBUF_ALLOC_CELL, 0), (Reg.FBUF_ALLOC_STATUS, 5)] (perfOf fbufPage)) ∧
    ((s.cell c).owner = ownCore →
      Completes (.chainFree v) s fun t =>
        (∀ x, t.cell x = if x ∈ s.chainFrom 512 c ∧ (s.cell x).owner = ownCore then gone x else s.cell x) ∧ s.Within {} t) ∧
    ((s.cell c).owner ≠ ownCore →
      Completes (.chainFree v) s fun t => t.dev.cells = s.dev.cells ∧ s.Reports t fbufPage fltState) ∧
    Completes (.cellRevoke v) s fun t =>
      (∀ x, t.cell x = if o ≠ ownFree ∧ x < 512 ∧ (s.cell x).owner = o then gone x else s.cell x) ∧
      (o = ownLink → ∀ j ∈ t.dev.tx.jobs, ∀ x ∈ j.cells, x < 512 → (s.cell x).owner = ownLink → (s.cell x).hold = true) ∧
      (o = ownCore → t.reg Reg.LINK_RXIDX = 0) ∧ s.Within (onlyRegs (if o = ownCore then [Reg.LINK_RXIDX] else [])) t

/-- Taking a descriptor from either ring (R129–R133, R151): one out of range completes with its status in its slot; an unsecured
immediate frame that is no flood goes into the queue and its cells pass to the link controller; nothing is taken while the
mode is OFF. The securing, the acknowledgement window and the retries of a frame that is alone in the queue and in no ladder
(R132, R149, R153, R225). -/
def Obligations.DescriptorsAndWaits : Prop :=
  (∀ (host : Bool) (s : State), s.Inv → s.dev.tx.jobs = [] →
    let slot := s.dev.tx.take
    let a := 16 * s.fld Reg.LINK_TXRING_BASE + 16 * slot
    let d := if host then s.dev.hostp.tx.headD [] else s.bytes a 16
    let j := jobOf host (if host then 0 else slot) d
    let st := s.descCheck d j
    let cells := s.chain (bitsGet (descWord d 0) 19 11)
    let l := s.chainBytes cells (bitsGet (descWord d 0) 10 0)
    let slotMem : Nat → Bool := fun x => !host && decide (a ≤ x ∧ x < a + 16)
    (s.takes = false → Completes (.txDescriptorTake host) s fun t => s.Within {} t) ∧
    (s.takes = true → s.ringWaits host = true → s.dev.eccBad = [] → s.dev.tx.doneSlots = [] → s.fld Reg.HOSTP_CFG_NOTE = 0 →
      (st ≠ 0 →
        Completes (.txDescriptorTake host) s fun t =>
          t.dev.tx.jobs = [] ∧ (∀ c, t.cell c = if c ∈ cells ∧ (s.cell c).owner = j.sender then s.letGo c else s.cell c) ∧
          (host = false → t.bytes a 16 = completionOf j st ∧ t.dev.tx.take = (slot + 1) % ringSize (s.fld Reg.LINK_TXRING_SIZE) ∧
            (slot = s.fld Reg.LINK_TXIDX_DONE → t.fld Reg.LINK_TXIDX_DONE = (slot + 1) % ringSize (s.fld Reg.LINK_TXRING_SIZE))) ∧
          (host = true → t.dev.hostp.tx = s.dev.hostp.tx.drop 1) ∧ s.Within { onPages [linkPage] with mem := slotMem } t) ∧
      (st = 0 → j.timed = false → j.secured = false → s.bit Reg.SAMP_RDV_EN = false → floodIe l (parseMac l) = none →
        s.isOfdm j.lane = false → cells.Nodup → (∀ c ∈ cells, c < 512) →
        Completes (.txDescriptorTake host) s fun t =>
          t.dev.tx.jobs = [{ j with id := s.dev.tx.nextId, stage := .ready, cells := cells, octets := l, seed := 0
                                    ar := (parseMac l).ok && (parseMac l).ar
                                    air := s.airtime j.lane j.coded j.mcs j.pre (l.length + if j.fcs2 then 2 else 4) }] ∧
          (∀ c ∈ cells, (t.cell c).owner = ownLink) ∧ s.Within (onlyRegs [Reg.LINK_STAT]) t))) ∧
  (∀ (j : TxJob) (s : State), s.Inv → s.dev.tx.jobs = [j] → j.level = none → j.timed = false →
    (j.kind = .ring → j.stage = .securing →
      Completes .frameSecured s fun t => t.dev.tx.jobs = [{ j with stage := .ready }] ∧ s.Within (onlyRegs [Reg.LINK_STAT]) t) ∧
    (j.stage ≠ .securing → Completes .frameSecured s fun t => s.Within {} t) ∧
    (j.stage = .retryWait →
      Completes .retryWaitExpiry s fun t => t.dev.tx.jobs = [{ j with stage := .ready }] ∧ s.Within (onlyRegs [Reg.LINK_STAT]) t) ∧
    (j.stage = .ackWait → s.ackComing j = true →
      Completes .ackWindowClose s fun t => t.dev.tx.jobs = [{ j with closed := true }] ∧ s.Within (onlyRegs [Reg.LINK_STAT]) t) ∧
    (j.stage = .ackWait → s.ackComing j = false → j.closed = false → j.kind = .ring → j.pre < 65536 → s.dev.tx.doneSlots = [] →
      let a := 16 * s.fld Reg.LINK_TXRING_BASE + 16 * j.slot
      (j.retries = 0 →
        Completes .ackWindowClose s fun t =>
          t.dev.tx.jobs = [] ∧ t.bytes a 16 = completionOf j 0x50 ∧
          t.ctr linkPage 3 3 = min 0xFFFFFFFF (s.ctr linkPage 3 3 + 1) ∧
          s.Within { onPages [linkPage] with mem := fun x => decide (a ≤ x ∧ x < a + 16) } t) ∧
      (j.retries ≠ 0 →
        Completes .ackWindowClose s fun t =>
          (t.dev.tx.jobs.map fun k => { k with ts := j.ts }) = [{ j with stage := .retryWait, retries := j.retries - 1, nt := none }] ∧
          (∀ k ∈ t.dev.tx.jobs, s.dev.time.link ≤ k.ts ∧ k.ts ≤ s.dev.time.link + 40000 * s.fld Reg.LINK_CFG_WAITMAX) ∧
          s.Within (onlyRegs [Reg.LINK_STAT]) t)))

/-- What completes whatever else waits: a descriptor is taken beside other frames; the frame that has been securing longest, the
earliest retry and the frame whose acknowledgement window closes go on, the other frames staying as they are (R129, R131,
R149, R150, R153, R199, R225); an unbound page is bound, and the operation of a page ends (R209, R212); an interrupt ends DOZE, and
an entry into a low-power state goes through its LF edge and its end (R246, R370, R372). -/
def Obligations.QueuesGoOn : Prop :=
  ∀ s : State, s.Inv →
    let n := ringSize (s.fld Reg.LINK_TXRING_SIZE)
    -- frame `j` has become `k`, and the other frames stand as they did
    let goes (j k : TxJob) (t : State) : Prop := t.dev.tx.jobs = s.dev.tx.jobs.map fun x => if x.id = j.id then k else x
    let gone (j : TxJob) (t : State) : Prop := ∀ k ∈ t.dev.tx.jobs, k.id ≠ j.id
    (s.takes = true → s.ringWaits false = true →
      Completes (.txDescriptorTake false) s fun t => t.dev.tx.take = (s.dev.tx.take + 1) % n ∧ s.dev.tx.nextId < t.dev.tx.nextId) ∧
    (s.takes = true → s.ringWaits true = true →
      Completes (.txDescriptorTake true) s fun t => t.dev.hostp.tx = s.dev.hostp.tx.drop 1 ∧ s.dev.tx.nextId < t.dev.tx.nextId) ∧
    (∀ host : Bool,
      let a := 16 * s.fld Reg.LINK_TXRING_BASE + 16 * s.dev.tx.take
      let d := if host then s.dev.hostp.tx.headD [] else s.bytes a 16
      let j := jobOf host (if host then 0 else s.dev.tx.take) d
      let l := s.chainBytes (s.chain (bitsGet (descWord d 0) 19 11)) (bitsGet (descWord d 0) 10 0)
      s.takes = true → s.ringWaits host = true → s.dev.eccBad = [] → s.descCheck d j = 0 → j.timed = false → j.secured = false →
        s.bit Reg.SAMP_RDV_EN = false → floodIe l (parseMac l) = none → (∀ x ∈ s.dev.tx.jobs, x.id ≠ s.dev.tx.nextId) →
        Completes (.txDescriptorTake host) s fun t =>
          ∃ k, t.dev.tx.jobs = s.dev.tx.jobs ++ [k] ∧ k.id = s.dev.tx.nextId ∧ k.stage = .ready ∧ k.octets = l ∧ k.kind = j.kind) ∧
    (∀ j, (s.dev.tx.jobs.find? fun x => x.stage == .securing) = some j →
      (j.kind = .beacon → Completes .frameSecured s (goes j { j with stage := .reserved })) ∧
      (j.kind ≠ .beacon → j.level = none → j.timed = false → Completes .frameSecured s (goes j { j with stage := .ready })) ∧
      (j.kind ≠ .beacon → j.level = none → j.timed = true → s.taken j = false →
        Completes .frameSecured s (goes j { j with stage := .reserved })) ∧
      (j.kind = .ring ∨ j.kind = .host → j.level = none → j.timed = true → s.taken j = true → Completes .frameSecured s (gone j)) ∧
      (j.level ≠ none → j.kind = .ring → Completes .frameSecured s fun t => ∀ k ∈ t.dev.tx.jobs, k.id = j.id → k.stage ≠ .securing)) ∧
    (∀ j, s.pick (fun x => x.stage == .retryWait) = some j → Completes .retryWaitExpiry s (goes j { j with stage := .ready })) ∧
    (∀ j, (s.dev.tx.jobs.find? fun x => x.stage == .ackWait) = some j →
      (s.ackComing j = true → Completes .ackWindowClose s (goes j { j with closed := true })) ∧
      (s.ackComing j = false → j.retries = 0 → j.kind = .ring ∨ j.kind = .host → Completes .ackWindowClose s fun t =>
        gone j t ∧ t.ctr linkPage 3 3 = min 0xFFFFFFFF (s.ctr linkPage 3 3 + 1)) ∧
      (s.ackComing j = false → j.retries ≠ 0 → j.level = none → Completes .ackWindowClose s fun t =>
        ∃ w, w ≤ 1000 * s.fld Reg.LINK_CFG_WAITMAX ∧
          goes j { j with stage := .retryWait, retries := j.retries - 1, timed := false, nt := none, closed := false
                          ts := (if j.closed = true then j.tend + s.ackSpan j.lane else s.dev.time.link) + 40 * w } t) ∧
      (s.ackComing j = false → j.retries ≠ 0 → j.level ≠ none → j.kind = .ring → Completes .ackWindowClose s fun t =>
        ∀ k ∈ t.dev.tx.jobs, k.id = j.id → k.stage ≠ .ackWait)) ∧
    (∀ (fromRom : Bool) (p : Fin 8) (v : Word), 3 ≤ p.val → s.en (ciphPage p.val) = false → s.sysMode = true →
      s.fld (Reg.CIPH_OWNER_MASTER p.val) = 0 → Completes (.pageBind (.core fromRom) p v) s fun t =>
        t.reg (Reg.CIPH_OWNER p.val) = v &&& BitVec.ofNat 32 (Reg.maskOf (Reg.CIPH_OWNER p.val)) ∧ (t.ciph p.val).job = none) ∧
    (∀ (p : Fin 8) (j : CiphJob), (s.ciph p.val).job = some j → Completes (.cipherOpDone p) s fun t =>
      (t.ciph p.val).job = none ∧ t.bytes j.dst j.out.length = j.out ∧ t.bit (Reg.CIPH_RESULT_BUSY p.val) = false) ∧
    (s.core.run = .doze → (s.wouldAccept true).isSome = true → Completes .dozeEnd s fun t => t.core = { s.core with run := .run }) ∧
    (∀ src : BitVec 14, s.dev.pwr.entry = .stopped →
      (s.wakeNow src.toNat = 0 → Completes (.entryLfEdge src) s fun t => t.dev.pwr.entry = .edge) ∧
      (s.wakeNow src.toNat ≠ 0 → Completes (.entryLfEdge src) s fun t => t.dev.pwr.entry = .none ∧ t.core.run = .run)) ∧
    (s.dev.pwr.entry = .edge → s.dev.pwr.toEasy = false →
      Completes .entryComplete s fun t => t.dev.pwr.state = .rest ∧ t.dev.pwr.entry = .none ∧ t.core.run = .lowPower)

/-- PEER_WCMD writes the words its mask names, but for reserved bits; the sweep clears LIVE where a sample time is too old; AGE
moves with the seconds and counts them while the link clock stands (R143, R145, R176, R197). MBX_SEL takes an item and its
snapshot shows the item's words, all at once; an item the cluster does not have completes at once with its own code (R306,
R315). FLASHC takes writes from the ROM alone (R278). -/
def Obligations.TablesAndMailboxes : Prop :=
  (∀ s : State, s.Inv →
    (∀ v : Word, let i := bitsGet v 11 0
      Completes (.peerWrite v) s fun t =>
        (∀ w < 8, t.word .peer (8 * i + w) =
          if v.toNat.testBit (24 + w) then
            let x := s.reg (Reg.PEER_WD w)
            if w = 0 then x &&& 0xFCFFFFFF else if w = 3 then x &&& 0xFFFF0000 else x
          else s.word .peer (8 * i + w)) ∧
        (∀ k, k / 8 ≠ i → t.word .peer k = s.word .peer k) ∧ s.Within { tab := (· == .peer) } t) ∧
    (∀ stopped : Nat, s.linkClock = true → s.dev.peerWr = [] →
      Completes (.peerSweep stopped) s fun t =>
        (∀ k, t.word .peer k =
          let w := s.word .peer k
          if k % 8 = 0 ∧ w.toNat.testBit 31 ∧ w.toNat.testBit 26 ∧
              (2 ^ 31 ≤ stopped ∨ 7 * 2 ^ 28 ≤ (s.dev.time.ao + 2 ^ 32 - (s.word .peer (k + 7)).toNat) % 2 ^ 32) then w &&& 0xFBFFFFFF
          else w) ∧ s.Within { tab := (· == .peer) } t) ∧
    (∀ stopped : Nat, s.linkClock = false → Completes (.peerSweep stopped) s fun t => s.Within {} t) ∧
    (s.linkClock = true →
      Completes .seenAgeTick s fun t =>
        (∀ k, t.word .seen k =
          let w := s.word .seen k
          if k % 2 = 1 ∧ w.toNat.testBit 0 then bitsPut w 31 16 (min 0xFFFF (bitsGet w 31 16 + 1)) else w) ∧
        s.Within { tab := (· == .seen) } t) ∧
    (s.linkClock = false →
      Completes .seenAgeTick s fun t => t.dev.flood.missed = s.dev.flood.missed + 1 ∧ s.Within {} t)) ∧
  (∀ (m : Master) (page : Nat) (v : Word) (s : State), s.Inv → isCluster page = true → s.powered page = true →
    let item := bitsGet v 15 0
    let st : Fld := ⟨Reg.MBX_STAT page, 1, 0⟩
    let clear : List (Fld × Nat) := (⟨Reg.MBX_SEL page, 31, 0⟩, item) :: (List.range 4).map fun k => (⟨Reg.MBX_D page k, 31, 0⟩, 0)
    (∀ w, s.mbxItem page item = some w → (page = flashcPage → m = .core true) →
      Completes (.mailboxSelect m page v) s fun t =>
        Sparse.val 0x10000 t.dev.mbx page = item ∧ s.Sets t (clear ++ [(st, 0)]) (perfOf page)) ∧
    (s.mbxItem page item = none → (page = flashcPage → m = .core true) →
      Completes (.mailboxSelect m page v) s fun t =>
        s.Sets t (clear ++ [(st, 3), (Reg.MBX_STAT_ITEM page, item)]) (perfOf page)) ∧
    (∀ i < 0x10000, Sparse.val 0x10000 s.dev.mbx page = i → ∀ w, s.mbxItem page i = some w →
      Completes (.mailboxSnapshot page) s fun t =>
        s.Sets t (((List.range 4).map fun k => (⟨Reg.MBX_D page k, 31, 0⟩, w.getD k 0)) ++ [(Reg.MBX_STAT_ITEM page, i), (st, 1)])))

/-- BEACON_PREPARE: nothing where the node is no root; a template that is not a TIME flood of the core's counts BCN_MISS; a
beacon that can be placed is queued for its instant with its own FSEQ and ORIGIN (R165, R166). Beacon windows, holds, scans and
RESCAN, the radio in RX already and nothing held by a lane (R201–R204, R206, R122). -/
def Obligations.Beacons : Prop :=
  (∀ s : State, s.Inv → s.dev.tx.jobs = [] →
    let cells := s.chain (s.fld Reg.FLOOD_BTMPL_CELL)
    let len := s.fld Reg.FLOOD_BTMPL_LENGTH
    let l := s.chainBytes cells len
    let lane := s.fld Reg.FLOOD_BCN_LANE
    let mcs := lowMcs (s.fld (Reg.LANES_MODE_OPT lane))
    let on := s.bit Reg.NTIME_CFG_ROOT && s.bit Reg.FLOOD_BCN_EN && s.bit Reg.NTIME_STAT_SYNC && s.fld Reg.LINK_STAT_MODE != 0
    let q := s.fld Reg.FLOOD_SEQ_NEXT
    (on = false → Completes .beaconPrepare s fun t => s.Within {} t) ∧
    (on = true → floodIe l (parseMac l) = none →
      Completes .beaconPrepare s fun t =>
        t.ctr floodPage 4 2 = min 0xFFFFFFFF (s.ctr floodPage 4 2 + 1) ∧ t.dev.tx.jobs = [] ∧ s.Within {} t) ∧
    (on = true → ∀ f, floodIe l (parseMac l) = some f → s.mayOriginate (parseMac l) f = true → f.cls = 3 →
      cells.all (fun c => (s.cell c).owner == ownCore) = true → cellsFor len ≤ cells.length → s.canAlloc poolTx (cellsFor len) = true →
      cellsFor len ≤ s.freeCells.length → s.bit Reg.FLOOD_BCN_SECURE = false → s.laneCfgOk lane = true → len + 4 ≤ 2047 →
      let air := s.airtime lane false mcs s.rpre (len + 4)
      let octets := patch (patch l (f.at_ + 6) (leBytes 2 q)) (f.at_ + 15) (leBytes 6 ((s.bcnInstant + 40 * air) % 2 ^ 48))
      Completes .beaconPrepare s fun t =>
        t.fld Reg.FLOOD_SEQ_NEXT = (q + 1) % 2 ^ 16 ∧
        (t.dev.tx.jobs.map fun j => (j.kind, j.stage, j.lane, j.octets)) = [(.beacon, .reserved, lane, octets)] ∧
        (∀ j ∈ t.dev.tx.jobs,
          j.nt = some s.bcnInstant ∧ j.air = air ∧ j.ts = s.dev.time.link + (s.bcnInstant + 2 ^ 48 - s.dev.time.ntime) % 2 ^ 48 ∧
          j.cells.length = cellsFor len ∧ t.chainBytes j.cells octets.length = octets ∧ ∀ c ∈ j.cells, (s.cell c).owner = ownFree ∧ (t.cell c).owner = ownLink) ∧
        s.Within { regs := fun a => decide (a ∈ Reg.FLOOD_SEQ :: Reg.LINK_STAT :: perfOf fbufPage), mem := cellMem, tab := (· == .seen) } t)) ∧
  (∀ s : State, s.Inv → s.Quiet → s.LanesFit → s.radio = 3 → s.dev.pwr.state = .run → s.dev.pwr.entry = .none →
    s.dev.samp.woke = false → s.dev.samp.closing = false → s.dev.samp.sample = false → s.dev.samp.rdv = none →
    let samp := s.dev.samp
    let b := s.fld Reg.SAMP_STAT_BSTATE
    let up (item w : Nat) : Nat := min 0xFFFFFFFF (s.ctr sampPage item w + 1)
    (s.sampOn = true → b = 1 → samp.main = 0 →
      Completes .beaconWindowOpen s fun t =>
        t.dev.samp = { samp.mainOpen 3 with tracked := samp.tracked + 1 } ∧ s.Sets t [(Reg.SAMP_STAT_WIN, 3)]) ∧
    (b ≠ 1 ∨ samp.main ≠ 0 → Completes .beaconWindowOpen s fun t => t.dev.samp = samp ∧ s.Within {} t) ∧
    (samp.main = 3 → samp.updated = false →
      (s.fld Reg.SAMP_STAT_MISSES < 2 →
        Completes .beaconWindowClose s fun t =>
          t.ctr sampPage 4 1 = up 4 1 ∧ t.events = s.events ++ [0x0A] ∧ t.dev.samp = samp.mainEnd ∧
          s.Sets t [(Reg.SAMP_STAT_MISSES, s.fld Reg.SAMP_STAT_MISSES + 1), (Reg.SAMP_STAT_WIN, 0)] (perfOf sampPage)) ∧
      (2 ≤ s.fld Reg.SAMP_STAT_MISSES →
        Completes .beaconWindowClose s fun t =>
          t.ctr sampPage 4 1 = up 4 1 ∧ t.ctr sampPage 4 2 = up 4 2 ∧ t.events = s.events ++ [0x0A, 0x0B] ∧
          t.dev.intc.edge.testBit 55 = true ∧ t.dev.samp = samp.mainOpen 4 ∧
          s.Sets t [(Reg.NTIME_STAT_SYNC, 0), (Reg.SAMP_STAT_BSTATE, 2), (Reg.SAMP_STAT_WIN, 4)] (perfOf sampPage))) ∧
    (samp.main ≠ 3 ∨ samp.updated = true → Completes .beaconWindowClose s fun t => t.dev.samp = samp ∧ s.Within {} t) ∧
    (samp.main = 5 → Completes .beaconHoldEnd s fun t => t.dev.samp = samp.mainEnd ∧ s.Sets t [(Reg.SAMP_STAT_WIN, 0)]) ∧
    (samp.main ≠ 5 → Completes .beaconHoldEnd s fun t => t.dev.samp = samp ∧ s.Within {} t) ∧
    (b = 2 → s.fld Reg.LINK_STAT_MODE = 1 →
      Completes .scanTimeout s fun t =>
        t.ctr sampPage 4 3 = up 4 3 ∧ s.Sets t [(Reg.SAMP_STAT_BSTATE, 3), (Reg.SAMP_STAT_WIN, 0)]) ∧
    (b = 2 → s.fld Reg.LINK_STAT_MODE = 2 → s.en linkPage = true → s.bit Reg.LINK_STAT_UCODE_OK = true →
      Completes .scanTimeout s fun t =>
        t.ctr sampPage 4 3 = up 4 3 ∧
        s.Sets t [(Reg.SAMP_STAT_BSTATE, 3), (Reg.SAMP_STAT_WIN, 0), (Reg.LINK_MODE_MODE, 1), (Reg.LINK_STAT_MODE, 1),
          (Reg.LINK_STAT_AUTOSW, 1)] (evRegs linkPage)) ∧
    (b = 1 ∨ b = 3 →
      Completes .rescan s fun t =>
        s.Sets t [(Reg.NTIME_STAT_SYNC, 0), (Reg.SAMP_STAT_MISSES, 0), (Reg.SAMP_STAT_BSTATE, 2), (Reg.SAMP_STAT_WIN, 4)]) ∧
    (b = 0 ∨ b = 2 → Completes .rescan s fun t => s.Reports t sampPage fltState))

/-- NTIME_CMD, the compare, the calibration and the carry across sleep (R177, R179, R181–R183, R186). -/
def Obligations.NetworkTime : Prop :=
  ∀ s : State, s.Inv → s.dev.tx.jobs = [] →
    let now := s.dev.time.ntime
    let cmp := (s.reg Reg.NTIME_CMPLO).toNat + s.fld Reg.NTIME_CMPHI_VALUE * 2 ^ 32
    let reached := (now + 2 ^ 48 - cmp % 2 ^ 48) % 2 ^ 48 < 2 ^ 47
    let armed := s.bit Reg.NTIME_STAT_CMPARMED = true
    (¬ armed →
      Completes .ntimeSet s fun t =>
        t.dev.time = { s.dev.time with ntime := ((s.reg Reg.NTIME_SETLO).toNat + s.fld Reg.NTIME_SETHI_VALUE * 2 ^ 32) % 2 ^ 48 } ∧
        t.dev.flood.setAt = some s.dev.time.link ∧
        s.Sets t [(Reg.NTIME_STAT_SYNC, 1), (Reg.NTIME_TRIM_TRIM, 0)]) ∧
    (Completes .ntimeDesync s fun t =>
      t.dev.time = s.dev.time ∧ s.Sets t [(Reg.NTIME_STAT_SYNC, 0), (Reg.NTIME_TRIM_TRIM, 0)]) ∧
    (reached → Completes .ntimeCompareArm s fun t =>
      t.events = s.events ++ [0xA6] ∧ s.Sets t [(Reg.NTIME_STAT_CMPARMED, 0)] (perfOf ntimePage)) ∧
    (¬ reached → Completes .ntimeCompareArm s fun t =>
      t.events = s.events ∧ s.Sets t [(Reg.NTIME_STAT_CMPARMED, 1)]) ∧
    (armed → reached → Completes .ntimeCompareMatch s fun t =>
      t.events = s.events ++ [0xA6] ∧ s.Sets t [(Reg.NTIME_STAT_CMPARMED, 0)] (perfOf ntimePage)) ∧
    (¬ armed ∨ ¬ reached → Completes .ntimeCompareMatch s fun t => t.events = s.events ∧ s.Within {} t) ∧
    (65536 ≤ s.dev.time.calLf → Completes .lfcalUpdate s fun t =>
      t.dev.time = { s.dev.time with calLink := 0, calLf := 0 } ∧ s.Sets t [(Reg.NTIME_LFCAL_RATIO, s.dev.time.calLink % 2 ^ 32)]) ∧
    (s.linkClock = true → s.dev.time.restore = false → Completes .networkTimeCarry s fun t =>
      t.dev.time.carry = some s.carryNow ∧ s.Sets t [(Reg.NTIME_STAT_CVALID, 1)]) ∧
    (s.linkClock = false ∨ s.dev.time.restore = true →
      Completes .networkTimeCarry s fun t => t.dev.time = s.dev.time ∧ s.Within {} t) ∧
    (∀ phase : Fin 1221,
      (∀ c, s.dev.time.carry = some c → s.dev.time.restore = true → s.en ntimePage = true → ¬ armed →
        let d := (s.dev.time.ao + 2 ^ 48 - c.ao) % 2 ^ 48
        Completes (.networkTimeRestore phase) s fun t =>
          t.dev.time = { s.dev.time with restore := false
                                         ntime := (c.ntime + (2 * d * s.fld Reg.NTIME_LFCAL_RATIO + 65536) / 131072 + phase.val) % 2 ^ 48 } ∧
          s.Sets t [(Reg.NTIME_STAT_SYNC, if c.sync then 1 else 0), (Reg.NTIME_TRIM_TRIM, c.trim)]) ∧
      (s.dev.time.restore = false → Completes (.networkTimeRestore phase) s fun t => t.dev.time = s.dev.time ∧ s.Within {} t))

/-- The lattice and the windows of a scheduler that runs, the link controller owning the radio (R189–R191, R193, R194, R204–R206),
with nothing held by a lane; a window opened in REST starts the link clock (R372). While a lane holds a frame, what a
detection keeps open stays open (R191, R193, R202, R203; log entry 123). -/
def Obligations.SampleWindows : Prop :=
  (∀ s : State, s.Inv → s.Quiet → s.LanesFit → s.bit Reg.RCTL_STAT_OWNER = true → s.dev.radio.bowDead = false →
    s.bit Reg.RCTL_STAT_BUSY = false → s.bit Reg.RCTL_STAT_UCODE_OK = true → s.synthOk = true → s.dev.samp.closing = false →
    let samp := s.dev.samp
    let up (item w : Nat) : Nat := min 0xFFFFFFFF (s.ctr sampPage item w + 1)
    let running := s.dev.pwr.state = .run ∧ s.dev.pwr.entry = .none
    (Completes .reanchor s fun t => t.dev.samp = { samp with reanchor := samp.reanchor || s.sampOn } ∧ s.Within {} t) ∧
    (samp.reanchor = true → s.sampOn = true →
      Completes .latticeAnchor s fun t =>
        t.dev.samp = { samp with anchor := some s.dev.time.ao, reanchor := false } ∧
        (samp.anchor.isSome = true → t.ctr sampPage 3 3 = up 3 3) ∧ s.Within {} t) ∧
    (s.sampOn = true → samp.anchor.isSome = true →
      (s.radio = 4 → Completes .sampleWake s fun t => t.ctr sampPage 2 1 = up 2 1 ∧ t.dev.samp = samp ∧ s.Within {} t) ∧
      (s.radio = 3 ∨ s.radio ≠ 4 ∧ samp.shown ≠ 0 →
        Completes .sampleWake s fun t => t.ctr sampPage 2 0 = up 2 0 ∧ t.dev.samp = samp ∧ s.Within {} t) ∧
      (s.radio = 0 → samp.shown = 0 →
        (running →
          Completes .sampleWake s fun t =>
            t.ctr sampPage 2 0 = up 2 0 ∧ (∃ at_, t.dev.samp = { samp.sampleEnd with sample := true, woke := true, openAt := at_ }) ∧
            (t.dev.radio.walk.map fun w => (w.next, w.goal)) = some (1, 1) ∧
            s.Sets t [(Reg.SAMP_STAT_WIN, 1), (Reg.RCTL_STAT_LOCK, 0), (Reg.SYNTH_STAT_LOCK, 0), (Reg.RCTL_STAT_BUSY, 1),
              (Reg.RCTL_STAT_TARGET, 1)]) ∧
        (s.dev.pwr.state = .rest → s.linkClock = false →
          Completes .sampleWake s fun t =>
            t.linkClock = true ∧ t.fld Reg.SAMP_STAT_WIN = 1 ∧ t.dev.flood.missed = 0 ∧
            t.dev.time.restore = (s.dev.time.restore || s.dev.time.carry.isSome) ∧
            s.Within { regs := fun a => decide (a = Reg.SAMP_STAT ∨ a / 0x1000 * 0x1000 ∈ [rctlPage, synthPage])
                       tab := (· == .seen) } t))) ∧
    (samp.sample = true → samp.woke = true →
      (s.radio = 1 → Completes .sampleSynRequest s fun t =>
        t.bit Reg.RCTL_STAT_BUSY = true ∧ t.fld Reg.RCTL_STAT_TARGET = 2 ∧
        (t.dev.radio.walk.map fun w => (w.next, w.goal, w.tunes)) = some (2, 2, true) ∧ t.dev.samp = samp ∧
        s.Within (onPages [rctlPage, synthPage]) t) ∧
      (s.radio = 2 → Completes .sampleRxRequest s fun t =>
        (t.dev.radio.walk.map fun w => (w.next, w.goal, w.tunes)) = some (3, 3, false) ∧ t.dev.samp = samp ∧
        s.Sets t [(Reg.RCTL_STAT_BUSY, 1), (Reg.RCTL_STAT_TARGET, 3)])) ∧
    (samp.sample = false ∨ samp.woke = false → ∀ x ∈ [Instr.sampleSynRequest, .sampleRxRequest],
      Completes x s fun t => t.dev.samp = samp ∧ s.Within {} t) ∧
    (running → samp.sample = true → samp.main = 0 → samp.rdv = none →
      (samp.extended = false → samp.detected = false → samp.energy = true → s.fld Reg.SAMP_RDV_EXT ≠ 0 →
        Completes .sampleListenEnd s fun t =>
          t.dev.samp = { samp with extended := true } ∧ t.ctr sampPage 2 2 = up 2 2 ∧ s.Within {} t) ∧
      (samp.extended = false → samp.detected = true ∨ samp.energy = false → samp.woke = false →
        Completes .sampleListenEnd s fun t => t.dev.samp = samp.sampleEnd ∧ s.Sets t [(Reg.SAMP_STAT_WIN, 0)]) ∧
      (samp.extended = false → samp.detected = true ∨ samp.energy = false → s.radio = 3 → samp.woke = true →
        Completes .sampleListenEnd s fun t =>
          t.fld Reg.SAMP_STAT_WIN = 0 ∧ t.dev.samp = { samp.sampleEnd with woke := false } ∧
          t.bit Reg.RCTL_STAT_BUSY = true ∧ t.fld Reg.RCTL_STAT_TARGET = 0 ∧
          (t.dev.radio.walk.map fun w => (w.next, w.goal)) = some (1, 0) ∧
          s.Within { regs := fun a => decide (a = Reg.SAMP_STAT ∨ a / 0x1000 * 0x1000 ∈ [rctlPage, synthPage, lanesPage, rxfePage]) } t) ∧
      (samp.extended = true → samp.woke = false →
        Completes .sampleExtensionEnd s fun t => t.dev.samp = samp.sampleEnd ∧ s.Sets t [(Reg.SAMP_STAT_WIN, 0)])) ∧
    (∀ r, running → samp.rdv = some r →
      (s.radio = 3 → Completes .strobeWake s fun t =>
        t.dev.samp = { samp with rdv := some { r with awake := true } } ∧ s.Sets t [(Reg.SAMP_STAT_WIN, samp.shown)]) ∧
      (s.radio = 0 → Completes .strobeWake s fun t =>
        t.dev.samp = { samp with rdv := some { r with awake := true }, woke := true } ∧
        (t.dev.radio.walk.map fun w => (w.next, w.goal)) = some (1, 3) ∧
        s.Sets t [(Reg.SAMP_STAT_WIN, samp.shown), (Reg.RCTL_STAT_LOCK, 0), (Reg.SYNTH_STAT_LOCK, 0), (Reg.RCTL_STAT_BUSY, 1),
          (Reg.RCTL_STAT_TARGET, 3)]) ∧
      (r.hit = false → samp.woke = false →
        Completes .strobeMiss s fun t =>
          t.ctr sampPage 3 1 = up 3 1 ∧ t.dev.samp = { samp with rdv := none } ∧
          s.Sets t [(Reg.SAMP_STAT_WIN, { samp with rdv := none }.shown)]))) ∧
  (∀ s : State, s.Inv → s.rxQuiet = false →
    let samp := s.dev.samp
    (samp.sample = true → samp.extended = false → samp.detected = true →
      Completes .sampleListenEnd s fun t => t.dev.samp = { samp with extended := true } ∧ s.Within {} t) ∧
    (samp.sample = true → samp.extended = true → samp.detected = true →
      Completes .sampleExtensionEnd s fun t => t.dev.samp = samp ∧ s.Within {} t) ∧
    (∀ r, samp.rdv = some r → r.hit = true → Completes .strobeMiss s fun t => t.dev.samp = samp ∧ s.Within {} t) ∧
    (samp.main = 3 → samp.updated = false → samp.heard = true →
      Completes .beaconWindowClose s fun t => t.dev.samp = { samp with ended := true } ∧ s.Within {} t) ∧
    (samp.main = 5 → Completes .beaconHoldEnd s fun t => t.dev.samp = { samp with ended := true } ∧ s.Within {} t))

/-! ### Cipher pages, flash, transfers -/

/-- Binding a page clears its data registers; operations of a page that others own, or that is busy, set FLT.STATE (R208–R212,
R235). FCNT_RESERVE: nothing while the reservation is not low; the resumption after power-on, from the limit recorded last,
with the new limit recorded first (R228–R231). -/
def Obligations.CipherPages : Prop :=
  (∀ (m : Master) (n : Fin 8) (v : Word) (s : State), s.Inv →
    let p := ciphPage n.val
    (s.mayBind m n.val = true → s.en p = false →
      Completes (.pageBind m n v) s fun t =>
        t.reg (Reg.CIPH_OWNER n.val) = v &&& BitVec.ofNat 32 (Reg.maskOf (Reg.CIPH_OWNER n.val)) ∧
        t.Cleared (fun a => decide (p + 0x800 ≤ a ∧ a < p + 0x1000)) [] ∧ t.ciph n.val = {} ∧ Reg.CIPH_OWNER n.val ∉ t.dev.parity ∧
        s.Within (onPages [p]) t) ∧
    (s.mayBind m n.val = true → s.en p = true →
      Completes (.pageBind m n v) s fun t =>
        t.reg (Reg.CIPH_OWNER n.val) = s.reg (Reg.CIPH_OWNER n.val) ∧ t.bit (fltBit p fltWign) = true ∧ s.Within (onlyRegs (evRegs p)) t) ∧
    (3 ≤ n.val → s.mayBind m n.val = false → Completes (.pageBind m n v) s fun t => s.Reports t p fltState) ∧
    (n.val < 3 → Completes (.pageBind m n v) s fun t => s.Within {} t) ∧
    (s.ciphOwner m n.val = false ∨ s.bit (Reg.CIPH_RESULT_BUSY n.val) = true →
      ∀ x ∈ [Instr.frameDec m n v, .ccmEnc m n v, .ccmDec m n v, .cmac m n v, .cmacVerify m n v, .unwrap m n v, .keyErase m n v],
        Completes x s fun t => (t.ciph n.val).job = (s.ciph n.val).job ∧ s.Reports t p fltState) ∧
    (∀ j, (s.ciph n.val).job = some j →
      Completes (.cipherOpDone n) s fun t =>
        t.bytes j.dst j.out.length = j.out ∧ (∀ tag, j.tag = some tag → ∀ k < 4,
          t.reg (Reg.CIPH_TAG n.val k) = wordOf (sliceOf tag (4 * k) 4)) ∧
        (∀ f, j.fill = some f → t.slot f.1 = f.2 ∧ ∀ k ≠ f.1, t.slot k = s.slot k) ∧
        t.ciph n.val = { job := none, chain := j.chain } ∧ t.bit (Reg.CIPH_RESULT_BUSY n.val) = false ∧
        t.fld (Reg.CIPH_RESULT_STATUS n.val) = j.status % 256 ∧ t.fld (Reg.CIPH_RESULT_BLOCKS n.val) = min 0x7FFFFF j.blocks ∧
        t.events = s.events ++ [0xA8 + n.val] ∧ t.dev.intc.edge.testBit (44 + n.val) = true ∧
        s.Within { regs := fun a => decide (a ∈ Reg.CIPH_RESULT n.val :: perfOf p) || j.tag.isSome && decide (a ∈ (List.range 4).map (Reg.CIPH_TAG n.val))
                   mem := fun a => decide (j.dst ≤ a ∧ a < j.dst + j.out.length), keys := j.fill.isSome } t) ∧
    ((s.ciph n.val).job = none → Completes (.cipherOpDone n) s fun t => s.Within {} t)) ∧
  (∀ (vsys : Nat) (verified : Bool) (s : State), s.Serves 0xF006 →
    let stat := s.fld Reg.FLASHC_STAT_STATE
    let valid := s.bit Reg.CIPH0_FCSTAT_FCVALID
    let cur := match s.fcCurrent with | some (_, r, _) => r | none => 0
    let a := fcSlot s.fcNext
    (valid = true → s.bit Reg.CIPH0_FCSTAT_LOW = false →
      Completes (.fcntReserve vsys verified) s fun t => s.Served t [(0, 0)]) ∧
    (valid = false → stat = 1 ∨ stat = 3 → Completes (.fcntReserve vsys verified) s fun t => s.Served t [(0, 2)]) ∧
    (valid = false → stat = 0 → vsys < 2800 → Completes (.fcntReserve vsys verified) s fun t => s.Served t [(0, 0x30)]) ∧
    (valid = false → stat = 0 → 2800 ≤ vsys → cur + 4096 < 2 ^ 32 → s.fcErases = false →
      Completes (.fcntReserve vsys true) s fun t =>
        s.Served t [(0, 0)] { regs := fun x => decide (x ∈ [Reg.CIPH0_FCNT, Reg.CIPH0_FCRES, Reg.CIPH0_FCSTAT] ++ perfOf (ciphPage 0))
                              mem := fun x => decide (a ≤ x ∧ x < a + 16) } ∧
        t.fld Reg.CIPH0_FCNT_FCNT = cur ∧ t.fld Reg.CIPH0_FCRES_RES = cur + 4096 ∧ t.bit Reg.CIPH0_FCSTAT_FCVALID = true ∧
        t.bit Reg.CIPH0_FCSTAT_LIMIT = false ∧ leNat (t.bytes a 4) = 0x46434E54 ∧ leNat (t.bytes (a + 4) 4) = cur + 4096 ∧
        leNat (t.bytes (a + 12) 4) = crc32 (t.bytes a 12)) ∧
    (valid = false → stat = 0 → 2800 ≤ vsys → cur + 4096 < 2 ^ 32 → s.fcBlank.isSome = true →
      Completes (.fcntReserve vsys false) s fun t =>
        s.Served t [(0, 0x33)] { mem := fun x => decide (a ≤ x ∧ x < a + 16) }))

/-- What each operation of an enabled page that its owner starts will complete with, over inputs in main SRAM under a key that
permits it; and a key that does not (R214–R220, R232–R234). -/
def Obligations.CipherOps : Prop :=
  ∀ (m : Master) (n : Fin 8) (v : Word) (s : State), s.Inv → s.ciphOwner m n.val = true → s.en (ciphPage n.val) = true →
    s.bit (Reg.CIPH_RESULT_BUSY n.val) = false →
    let k := n.val
    let slot := bitsGet v 13 8
    let part := bitsGet v 27 26
    let src := (s.reg (Reg.CIPH_SRC k)).toNat
    let dst := (s.reg (Reg.CIPH_DST k)).toNat
    let len := (s.reg (Reg.CIPH_MLEN k)).toNat
    let alen := (s.reg (Reg.CIPH_ALEN k)).toNat
    let tlen := tagLen (bitsGet v 21 20)
    let nonce := s.ciphOctets (Reg.CIPH_NONCE k 0) 13
    let tag := s.ciphOctets (Reg.CIPH_TAG k 0)
    let sram (a n : Nat) : Prop := 0x20000000 ≤ a ∧ a + n ≤ 0x20080000
    (∀ key, s.keyFor slot useRaw k = some key → len ≤ 65535 → sram src (alen + len) → sram dst len →
      let a := s.bytes src alen
      let x := s.bytes (src + alen) len
      let y := ccmCrypt key nonce x
      (Completes (.ccmEnc m n v) s fun t =>
        s.CipherStarts t k { status := 0, dst := dst, out := y, blocks := ccmBlocks alen len, tag := some (sliceOf (ccmTag key nonce a x tlen) 0 16) }) ∧
      (tag tlen = ccmTag key nonce a y tlen →
        Completes (.ccmDec m n v) s fun t => s.CipherStarts t k { status := 0, dst := dst, out := y, blocks := ccmBlocks alen len }) ∧
      (tag tlen ≠ ccmTag key nonce a y tlen →
        Completes (.ccmDec m n v) s fun t => ((t.ciph k).job.map fun j => (j.status, j.dst, j.out.length)) = some (0x20, dst, len))) ∧
    (∀ key, s.keyFor slot useCmac k = some key → sram src len →
      let x := s.bytes src len
      let blocks := max 1 (ceilDiv len 16)
      (part = 0 → Completes (.cmac m n v) s fun t => s.CipherStarts t k { status := 0, blocks := blocks, tag := some (cmac key x) }) ∧
      (part = 0 → Completes (.cmacVerify m n v) s fun t =>
        s.CipherStarts t k { status := if cmac key x = tag 16 then 0 else 0x20, blocks := blocks }) ∧
      (part = 1 → 0 < len → len % 16 = 0 → Completes (.cmac m n v) s fun t =>
        s.CipherStarts t k { status := 0, blocks := blocks, chain := some (cmacFold key (List.replicate 16 0) (x.take (len - 16)) ++ x.drop (len - 16)) }) ∧
      (∀ r b, part = 3 → (s.ciph k).chain = some (r ++ b) → r.length = 16 →
        Completes (.cmac m n v) s fun t => s.CipherStarts t k { status := 0, blocks := blocks, tag := some (cmacFinish key r (b ++ x)) })) ∧
    (∀ key, s.keyFor slot useFrame k = some key → k ≠ 1 → 0 < len → len ≤ 2045 → sram src len → sram dst len →
      let l := s.bytes src len
      let h := parseMac l
      let ext := match h.src with | .ext x => x | _ => leNat (s.ciphOctets (Reg.CIPH_NONCE k 0) 8)
      let r := openFrame key (frameNonce ext h.fcnt h.level) l h
      h.ok = true → h.sec = true → h.unsupported = false → h.hdrLen + micLen h.level ≤ len →
      (r.2 = true → Completes (.frameDec m n v) s fun t =>
        s.CipherStarts t k { status := 0, dst := dst, out := r.1, blocks := ccmBlocks h.hdrLen (len - h.hdrLen - micLen h.level) }) ∧
      (r.2 = false → Completes (.frameDec m n v) s fun t => ((t.ciph k).job.map (·.status)) = some 0x20)) ∧
    (slot = 0 → len = 56 → sram src 56 → (s.slot 0).valid = true →
      (kwUnwrap (s.slot 0).key (s.bytes src 56) = none →
        Completes (.unwrap m n v) s fun t => s.CipherStarts t k { status := 0x20, blocks := 36 }) ∧
      (∀ f, s.unwrapBlob (s.bytes src 56) = .ok f →
        Completes (.unwrap m n v) s fun t => s.CipherStarts t k { status := 0, blocks := 36, fill := some f })) ∧
    (8 ≤ slot → (s.slot slot).valid = true → (s.slot slot).mask.testBit k = true →
      Completes (.keyErase m n v) s fun t => s.CipherStarts t k { status := 0, fill := some (slot, {}) }) ∧
    (slot < 8 → Completes (.keyErase m n v) s fun t => s.CipherStarts t k { status := 3 }) ∧
    (s.keyFor slot useRaw k = none → len ≤ 65535 → sram src (alen + len) → sram dst len → ∀ x ∈ [Instr.ccmEnc m n v, .ccmDec m n v],
      Completes x s fun t => s.CipherStarts t k { status := 0x22 })

/-- PROGRAM of blank flash from main SRAM, and ERASE, for a caller in SYS mode: the checks of R280 in their order and their
effects (R279–R282, R287, R288). The journal's active sector has room. PROGRAM between two of its units: the window in which an
interrupt is taken, how it goes on, and its end once its lock was revoked (R281, R443; log entry 64). -/
def Obligations.FlashProgramErase : Prop :=
  ∀ (vsys : Nat) (s : State),
    let a := (s.g 1).toNat
    let src := (s.g 2).toNat
    let n := (s.g 3).toNat
    let u := unitOf a
    let stat := s.fld Reg.FLASHC_STAT_STATE
    let checks (erase : Bool) (st : Nat) : Prop :=
      (s.unitLocked u = true ∧ st = 8) ∨
      (s.unitLocked u = false ∧
        let busy := stat = 1 ∨ stat = 3 ∨ s.dev.flash.prog ≠ none ∨ stat = 2 ∧ (erase = true ∨ s.fld Reg.FLASHC_STAT_UNIT = u)
        (busy ∧ st = 2) ∨
        (¬ busy ∧ ((u ∈ s.bad ∧ st = 0x34) ∨
          (u ∉ s.bad ∧ ((erase = false ∧ (s.unit u).torn = true ∧ st = 0x35) ∨
            (¬ (erase = false ∧ (s.unit u).torn = true) ∧ ((vsys < 2800 ∧ st = 0x30) ∨ (2800 ≤ vsys ∧ st = 0))))))))
    let quiet (w : Word) : Prop := bitOf w.toNat 7 = false ∨ s.topLine = none
    (s.Serves 0xF000 → s.callerTask = false →
      (a % 16 = 0 → n % 16 = 0 → 16 ≤ n → n ≤ 4096 → 0x01000000 ≤ a → a + n ≤ 0x01400000 → u = unitOf (a + n - 1) →
        src % 4 = 0 → 0x20000000 ≤ src → src + n ≤ 0x20080000 →
        (∀ st ∈ [8, 2, 0x34, 0x35, 0x30], checks false st → ∀ f l,
          Completes (.program vsys f l) s fun t => s.Served t [(0, st), (1, 0), (2, 0)]) ∧
        (checks false 0 → (∀ x, a ≤ x → x < a + n → s.byte x = 0xFF) → s.dev.eccBad = [] →
          (quiet s.callerSt →
            (Completes (.program vsys none {}) s fun t =>
              s.Served t [(0, 0), (1, n), (2, 0)] { mem := fun x => decide (a ≤ x ∧ x < a + n) } ∧
              t.bytes a n = s.bytes src n ∧ t.core.icache = [] ∧ t.dev.flash.prog = none ∧ (16 ≤ u → t.dev.pwr.token = false)) ∧
            (∀ i < n / 16, Completes (.program vsys (some i) {}) s fun t =>
              s.Served t [(0, 0x33), (1, 16 * i), (2, a + 16 * i)] { mem := fun x => decide (a ≤ x ∧ x < a + 16 * i + 16) } ∧
              t.bytes a (16 * i) = s.bytes src (16 * i)) ∧
            (∀ i < n / 16, Completes (.program vsys none { low := some i }) s fun t =>
              s.Served t [(0, 0x30), (1, 16 * i), (2, a + 16 * i)] { mem := fun x => decide (a ≤ x ∧ x < a + 16 * i) } ∧
              t.bytes a (16 * i) = s.bytes src (16 * i)) ∧
            (∀ k < n / 16, Completes (.program vsys none { steps := some k }) s fun t =>
              t.fld Reg.FLASHC_STAT_STATE = 3 ∧ t.bytes a (16 * k) = s.bytes src (16 * k) ∧ (∀ r, t.g r = s.g r) ∧
              (∃ p, t.dev.flash.prog = some p ∧ p.dst = a ∧ p.src = src ∧ p.total = n / 16 ∧ p.done = k ∧ p.was = stat ∧
                p.ended = false ∧ t.core.pc = p.pc ∧ p.pc.toNat < 0x10000 ∧
                p.back = (if s.core.pc = 0x40 then s.core.xpc else s.core.pc, s.callerSt)) ∧
              s.Within { regs := (onlyRegs [Reg.FLASHC_STAT]).regs, mem := fun x => decide (a ≤ x ∧ x < a + 16 * k), core := true } t)) ∧
          (∀ L, bitOf s.callerSt.toNat 7 = true → 32 ≤ n → s.core.slot = none → s.topLine = some L → s.linePrio L < s.pl →
            s.VectorAt (32 + L) → Completes (.program vsys none {}) s fun t =>
              t.fld Reg.FLASHC_STAT_STATE = 3 ∧ t.bytes a 16 = s.bytes src 16 ∧ (∀ r, t.g r = s.g r) ∧
              (∃ p, t.dev.flash.prog = some p ∧ p.done = 1 ∧ p.ended = false ∧ t.core.xpc = p.pc) ∧
              bitsGet t.core.st 11 8 = s.linePrio L ∧
              t.core.pc = s.memWord (s.core.vbase + BitVec.ofNat 32 (4 * (32 + L))).toNat &&& 0xFFFFFFFC))) ∧
      (a % 16 ≠ 0 ∨ n % 16 ≠ 0 ∨ n < 16 ∨ 4096 < n ∨ a < 0x01000000 ∨ 0x01400000 < a + n ∨ src % 4 ≠ 0 → ∀ f l,
        Completes (.program vsys f l) s fun t => s.Served t [(0, 3), (1, 0), (2, 0)])) ∧
    (∀ p, s.Inv → s.executes = true → s.dev.flash.prog = some p → s.core.pc = p.pc →
      let back (t : State) (st i : Nat) : Prop :=
        t.g 0 = BitVec.ofNat 32 st ∧ t.g 1 = BitVec.ofNat 32 (16 * i) ∧ (∀ r, 3 ≤ r → t.g r = s.g r) ∧
        t.core.pc = p.back.1 &&& 0xFFFFFFFC ∧ t.core.st = p.back.2 &&& stMask ∧ t.core.xpc = p.keep.1 ∧
        t.core.xst = p.keep.2 ∧ t.dev.flash.prog = none ∧ t.core.icache = []
      (p.ended = true → ∀ f l, Completes (.program vsys f l) s fun t => back t 7 p.done ∧ s.Within { core := true } t) ∧
      (p.ended = false → quiet p.back.2 → p.done < p.total → p.was < 4 → 0x01000000 ≤ p.dst → p.dst + 16 * p.total ≤ 0x01400000 →
        0x20000000 ≤ p.src → p.src + 16 * p.total ≤ 0x20080000 → Completes (.program vsys none {}) s fun t =>
          let m := 16 * p.done
          back t 0 p.total ∧ t.g 2 = 0 ∧ t.fld Reg.FLASHC_STAT_STATE = p.was ∧
          t.bytes (p.dst + m) (16 * p.total - m) = s.bytes (p.src + m) (16 * p.total - m) ∧
          s.Within { regs := (onlyRegs [Reg.FLASHC_STAT]).regs
                     mem := fun x => decide (p.dst + m ≤ x ∧ x < p.dst + 16 * p.total), core := true } t)) ∧
    (s.Serves 0xF001 → s.callerTask = false →
      (a = unitBase u → 0x01000000 ≤ a → a + 16 ≤ 0x01400000 →
        (∀ st ∈ [8, 2, 0x34, 0x30], checks true st → Completes (.erase vsys) s fun t => s.Served t [(0, st)]) ∧
        (checks true 0 → s.dev.flash.jOpen = true → s.dev.flash.jNext + 2 ≤ 256 →
          let r := unitBase s.dev.flash.jSector + 16 * s.dev.flash.jNext
          Completes (.erase vsys) s fun t =>
            s.Served t [(0, 0)] { regs := (onlyRegs [Reg.FLASHC_STAT]).regs, mem := fun x => decide (r ≤ x ∧ x < r + 16) } ∧
            t.fld Reg.FLASHC_STAT_STATE = 1 ∧ t.fld Reg.FLASHC_STAT_UNIT = u ∧ t.fld Reg.FLASHC_STAT_PULSES = 0 ∧
            (t.unit u).count = (s.unit u).count + 1 ∧ t.bytes r 16 = jRecord 1 u 0 ((s.unit u).count + 1) s.dev.flash.jSeq ∧
            t.dev.flash.jNext = s.dev.flash.jNext + 1)) ∧
      (a ≠ unitBase u → Completes (.erase vsys) s fun t => s.Served t [(0, 3)]))

/-- The pulses of an erase, SUSPEND, RESUME, STATUS and READ_COUNTERS (R276, R279, R282, R283, R287). -/
def Obligations.FlashErasing : Prop :=
  ∀ s : State, s.Inv →
    let stat := s.fld Reg.FLASHC_STAT_STATE
    let u := s.fld Reg.FLASHC_STAT_UNIT
    let n := s.fld Reg.FLASHC_STAT_PULSES + 1
    let r := unitBase s.dev.flash.jSector + 16 * s.dev.flash.jNext
    let inUnit : Nat → Bool := fun x => decide (unitBase u ≤ x ∧ x < unitBase u + unitSize u)
    let room := s.dev.flash.orphan = false ∧ s.dev.flash.jOpen = true ∧ s.dev.flash.jNext + 1 ≤ 256 ∧ s.dev.flash.jSector < 2
    (stat = 1 → 2 ≤ u → u < 79 → n < 16384 → room →
      (Completes (.erasePulseEnd true) s fun t =>
        (∀ x, inUnit x = true → t.byte x = 0xFF) ∧ t.bytes r 16 = jRecord 2 u n (s.unit u).count s.dev.flash.jSeq ∧
        t.fld Reg.FLASHC_STAT_STATE = 0 ∧ t.fld Reg.FLASHC_STAT_PULSES = n ∧
        t.fld Reg.FLASHC_STAT_LAST = (if warnPulses u < n then 0x31 else 0) ∧ (t.unit u).pulses = n ∧ (t.unit u).torn = false ∧
        t.events = s.events ++ [0x58] ∧
        s.Within { regs := fun a => decide (a ∈ Reg.FLASHC_STAT :: perfOf flashcPage)
                   mem := fun x => inUnit x || decide (r ≤ x ∧ x < r + 16), core := true } t) ∧
      (n < maxPulses u → Completes (.erasePulseEnd false) s fun t => s.Sets t [(Reg.FLASHC_STAT_PULSES, n)]) ∧
      (maxPulses u ≤ n → Completes (.erasePulseEnd false) s fun t =>
        u ∈ t.bad ∧ t.bytes r 16 = jRecord 3 u n (s.unit u).count s.dev.flash.jSeq ∧
        t.fld Reg.FLASHC_STAT_STATE = 0 ∧ t.fld Reg.FLASHC_STAT_LAST = 0x32 ∧ t.events = s.events ++ [0x58] ∧
        s.Within { regs := fun a => decide (a ∈ Reg.FLASHC_STAT :: perfOf flashcPage)
                   mem := fun x => decide (r ≤ x ∧ x < r + 16), core := true, bad := true } t)) ∧
    (∀ blank, stat ≠ 1 → Completes (.erasePulseEnd blank) s fun t => s.Within {} t) ∧
    (s.Serves 0xF002 →
      (stat = 1 → Completes .suspend s fun t =>
        s.Served t [(0, 0), (1, n - 1)] (onlyRegs [Reg.FLASHC_STAT]) ∧ t.reg Reg.FLASHC_STAT = s.after [(Reg.FLASHC_STAT_STATE, 2)] Reg.FLASHC_STAT) ∧
      (stat ≠ 1 → Completes .suspend s fun t => s.Served t [(0, 1), (1, n - 1)])) ∧
    (s.Serves 0xF003 →
      (∀ vsys, stat = 2 → 2800 ≤ vsys → Completes (.resume vsys) s fun t =>
        s.Served t [(0, 0)] (onlyRegs [Reg.FLASHC_STAT]) ∧ t.reg Reg.FLASHC_STAT = s.after [(Reg.FLASHC_STAT_STATE, 1)] Reg.FLASHC_STAT) ∧
      (∀ vsys, stat = 2 → vsys < 2800 → Completes (.resume vsys) s fun t => s.Served t [(0, 0x30)]) ∧
      (∀ vsys, stat ≠ 2 → Completes (.resume vsys) s fun t => s.Served t [(0, 1)])) ∧
    (s.Serves 0xF004 →
      Completes .flashStatus s fun t => s.Served t [(0, s.fld Reg.FLASHC_STAT_LAST), (1, stat), (2, u), (3, n - 1)]) ∧
    (s.Serves 0xF005 →
      let k := (s.g 1).toNat
      (k < 79 → Completes .readCounters s fun t =>
        s.Served t [(0, 0), (1, (s.unit k).count),
          (2, (s.unit k).pulses + (if (s.unit k).torn then 2 ^ 30 else 0) + if k ∈ s.bad then 2 ^ 31 else 0)]) ∧
      (79 ≤ k → Completes .readCounters s fun t => s.Served t [(0, 3)])) ∧
    (∀ n, s.Inv → s.executes = true → s.core.pc = 0x40 → s.core.svc ≠ some n →
      (n = 0xF002 → Completes .suspend s fun t => t = s) ∧ (n = 0xF004 → Completes .flashStatus s fun t => t = s) ∧
      (n = 0xF005 → Completes .readCounters s fun t => t = s))

/-- The XSPI sequencer and the polling of a device's status (R295, R296). A DMA channel starts, refuses its parameters, stops,
and moves an element within main SRAM; the last one completes the transfer (R297–R300). -/
def Obligations.StorageTransfers : Prop :=
  (∀ s : State, s.Inv →
    (∀ v : Word, v.toNat.testBit 31 = true →
      (s.bit Reg.XSPI_STAT_BUSY = true → Completes (.xspiSequence v) s fun t =>
        t.dev.xseq = s.dev.xseq ∧ t.bit (fltBit xspiPage fltState) = true ∧ s.Within (onlyRegs (Reg.XSPI_SEQCMD :: evRegs xspiPage)) t) ∧
      (s.bit Reg.XSPI_STAT_BUSY = false → s.en xspiPage = true → Completes (.xspiSequence v) s fun t =>
        t.dev.xseq = some { cs := bitsGet v 30 30, dir := bitsGet v 29 28, len := s.fld Reg.XSPI_SEQLEN_LEN, wip := v.toNat.testBit 26 } ∧
        s.Sets t [(Reg.XSPI_STAT_BUSY, 1)] [Reg.XSPI_SEQCMD])) ∧
    (∀ j rx, s.dev.xseq = some j →
      (j.len ≤ 256 → j.dir = 1 → rx.length = j.len →
        Completes (.xspiSequenceDone rx []) s fun t =>
          (∀ i < j.len, bitsGet (t.reg (Reg.XSPI_SEQBUF (i / 4))) (8 * (i % 4) + 7) (8 * (i % 4)) = (rx.getD i 0).toNat) ∧
          t.dev.xseq = none ∧ t.dev.xspi.lines = [] ∧ t.bit Reg.XSPI_STAT_BUSY = false ∧ t.fld Reg.XSPI_STAT_STATUS = 0 ∧
          (j.wip = true → t.bit Reg.XSPI_STAT_POLLING = true) ∧
          s.Within { regs := fun a => decide (a = Reg.XSPI_STAT) || decide (Reg.XSPI_SEQBUF 0 ≤ a ∧ a < Reg.XSPI_SEQBUF 64) } t) ∧
      (256 < j.len ∨ j.dir = 3 →
        Completes (.xspiSequenceDone rx []) s fun t =>
          t.dev.xseq = none ∧
          s.Sets t [(Reg.XSPI_STAT_BUSY, 0), (Reg.XSPI_STAT_STATUS, if 256 < j.len then 4 else 3)])) ∧
    (∀ b : Byte, s.bit Reg.XSPI_STAT_POLLING = true → b.toNat % 2 = 0 →
      Completes (.xspiStatusPoll b) s fun t => s.Sets t [(Reg.XSPI_STAT_POLLING, 0)]) ∧
    (∀ b : Byte, s.bit Reg.XSPI_STAT_POLLING = false ∨ b.toNat % 2 = 1 →
      Completes (.xspiStatusPoll b) s fun t => s.Within {} t)) ∧
  (∀ (n : Fin 8) (s : State), s.Inv → s.dev.parity = [] →
    let k := n.val
    let en : Fld := ⟨Reg.DMA_EN, k, k⟩
    let cnt := s.fld (Reg.DMA_CNT_CNT k)
    let z := 2 ^ s.fld (Reg.DMA_CFG_SIZE k)
    let src := (s.reg (Reg.DMA_SRC k)).toNat
    let dst := (s.reg (Reg.DMA_DST k)).toNat
    let i := (s.dma k).idx
    (∀ v : Word, v = s.reg Reg.DMA_EN ||| BitVec.ofNat 32 (2 ^ k) → s.bit en = false →
      (s.dmaOk k = true → cnt ≠ 0 → Completes (.dmaEnable v) s fun t =>
        t.dma k = { active := s.fld (Reg.DMA_CFG_TRIG k) % 3 == 0, idx := 0 } ∧ s.Sets t [(en, 1), (Reg.DMA_STAT_LEFT k, cnt)]) ∧
      (s.dmaOk k = false → Completes (.dmaEnable v) s fun t =>
        t.events = s.events ++ [0x50 + k] ∧ t.dev.intc.edge.testBit (17 + k) = true ∧
        s.Sets t [(Reg.DMA_STAT_LEFT k, cnt), (Reg.DMA_STAT_STATUS k, 3)] (perfOf dmaPage))) ∧
    (∀ v : Word, v = s.reg Reg.DMA_EN &&& ~~~(BitVec.ofNat 32 (2 ^ k)) → s.bit en = true →
      Completes (.dmaEnable v) s fun t => t.dma k = {} ∧ s.Sets t [(en, 0)]) ∧
    (s.bit en = true → (s.dma k).active = true → (∀ m < k, s.bit ⟨Reg.DMA_EN, m, m⟩ = false) → s.fld (Reg.DMA_CFG_SIZE k) < 3 →
      s.bit (Reg.DMA_CFG_SFIX k) = false → s.bit (Reg.DMA_CFG_DFIX k) = false → i < cnt → src % z = 0 → dst % z = 0 →
      0x20000000 ≤ src → src + z * cnt ≤ 0x20080000 → 0x20000000 ≤ dst → dst + z * cnt ≤ 0x20080000 →
      s.dev.eccOne = [] → s.dev.eccBad = [] →
      let F : Foot := { mem := fun x => decide (dst + i * z ≤ x ∧ x < dst + i * z + z) }
      (i + 1 < cnt → Completes (.dmaElement n false) s fun t =>
        t.bytes (dst + i * z) z = s.bytes (src + i * z) z ∧
        t.dma k = { active := s.fld (Reg.DMA_CFG_TRIG k) % 3 != 1, idx := i + 1 } ∧
        s.Sets t [(Reg.DMA_STAT_LEFT k, cnt - (i + 1))] (perfOf dmaPage) F) ∧
      (i + 1 = cnt → Completes (.dmaElement n false) s fun t =>
        t.bytes (dst + i * z) z = s.bytes (src + i * z) z ∧ t.dma k = {} ∧ t.events = s.events ++ [0x50 + k] ∧
        s.Sets t [(Reg.DMA_STAT_LEFT k, 0), (en, 0), (Reg.DMA_STAT_STATUS k, 0)] (perfOf dmaPage) F) ∧
      (Completes (.dmaElement n true) s fun t =>
        t.dma k = {} ∧ (∀ a, t.byte a = s.byte a) ∧ s.Sets t [(en, 0), (Reg.DMA_STAT_STATUS k, 0xFF)] (perfOf dmaPage))))

/-! ### Rigger, timers, clocks, energy -/

/-- A channel fires while it is enabled and below its limit in the LF tick: its count moves, a task acts; over the limit the
storm guard trips and an unlocked channel is disabled, a locked one discards the firing; in REST a firing into the main
region is held. Firing by software, locks, counts and a pending task (R322–R327, R330, R347, R498). -/
def Obligations.Rigger : Prop :=
  ∀ (n : Fin 64) (s : State), s.Inv → s.dev.rigger.taken = [] → (∀ x ∈ s.dev.rigger.pend, x.1 = 1) →
    let k := n.val
    let en : Fld := ⟨Reg.RIGGER_EN (k / 32), k % 32, k % 32⟩
    let storm : Fld := ⟨Reg.RIGGER_STORM (k / 32), k % 32, k % 32⟩
    let c := s.rig k
    let limit := max 1 (s.fld (Reg.RIGGER_SRC_STORM k))
    let soft := Instr.riggerSoftFire ⟨k / 32, by omega⟩ (BitVec.ofNat 32 (2 ^ (k % 32)))
    let only (t : Nat) : Prop := s.fld (Reg.RIGGER_TASK_TASK0 k) = t ∧ s.fld (Reg.RIGGER_TASK_TASK1 k) = 0 ∧
      s.fld (Reg.RIGGER_TASK_TASK2 k) = 0 ∧ s.fld (Reg.RIGGER_TASK_TASK3 k) = 0
    let counted (t : State) : Prop :=
      (t.rig k).fired = min (2 ^ 32 - 1) (c.fired + 1) ∧ (t.rig k).inTick = c.inTick + 1 ∧ (t.rig k).drop = c.drop ∧
        ∀ m ≠ k, t.rig m = s.rig m
    (s.rigLocked k = true → Completes soft s fun t =>
      t.dev.rigger = s.dev.rigger ∧ s.Reports t riggerPage fltState) ∧
    (s.srcFires k = false → Completes (.riggerChannelFire n) s fun t => t.dev = s.dev ∧ s.Within {} t) ∧
    (∀ x ∈ [Instr.riggerChannelFire n, soft], (s.rigLocked k = false ∨ x ≠ soft) → (s.srcFires k = true ∨ x = soft) →
      (s.bit en = false → Completes x s fun t => t.dev.rigger = s.dev.rigger ∧ s.Within {} t) ∧
      (s.bit en = true → s.dev.pwr.state = .run → c.inTick < limit →
        (only 0 → Completes x s fun t => counted t ∧ t.dev.rigger.gpo = s.dev.rigger.gpo ∧ s.Within {} t) ∧
        (∀ j : Fin 4,
          (only (0x98 + j.val) → Completes x s fun t =>
            counted t ∧ t.dev.rigger.gpo.testBit j.val = true ∧ s.Within (onlyRegs (perfOf gpioPage)) t) ∧
          (only (0x9C + j.val) → Completes x s fun t =>
            counted t ∧ t.dev.rigger.gpo.testBit j.val = false ∧ s.Within (onlyRegs (perfOf gpioPage)) t) ∧
          (only (0xA0 + j.val) → Completes x s fun t =>
            counted t ∧ t.dev.rigger.gpo.testBit j.val = !s.dev.rigger.gpo.testBit j.val ∧ s.Within (onlyRegs (perfOf gpioPage)) t)) ∧
        (∀ j : Fin 8, only (0x20 + j.val) → Completes x s fun t =>
          counted t ∧ t.dev.intc.edge.testBit (60 + j.val) = true ∧ s.Within (onlyRegs (perfOf riggerPage)) t)) ∧
      (s.bit en = true → s.dev.pwr.state = .run → limit ≤ c.inTick →
        (s.rigLocked k = false → Completes x s fun t =>
          t.bit en = false ∧ t.bit storm = true ∧ (t.rig k).trips = min 0xFFFF (c.trips + 1) ∧ (t.rig k).fired = c.fired ∧
          t.bit (fltBit riggerPage fltOvr) = true ∧ (s.dev.staged.length < 4 → t.dev.staged.length = s.dev.staged.length + 1) ∧
          s.Within (onlyRegs (Reg.LOGB_STAT :: Reg.RIGGER_EN (k / 32) :: Reg.RIGGER_STORM (k / 32) :: (evRegs riggerPage ++ perfOf logbPage))) t) ∧
        (s.rigLocked k = true → Completes x s fun t =>
          t.bit en = true ∧ t.bit storm = true ∧ (t.rig k).drop = min 0xFFFF (c.drop + 1) ∧ (t.rig k).disc = c.disc + 1 ∧
          t.dev.staged = s.dev.staged ∧ s.Within (onlyRegs (Reg.RIGGER_STORM (k / 32) :: evRegs riggerPage)) t)) ∧
      (s.bit en = true → 16 ≤ k → s.dev.pwr.state = .rest → s.dev.rigger.held = [] →
        Completes x s fun t => t.dev.rigger.held = [k] ∧ t.rig k = c ∧ s.Within {} t)) ∧
    (∀ (b : Fin 2) (v : Word),
      Completes (.riggerLock b v) s fun t =>
        s.Sets t [(⟨Reg.RIGGER_LOCK b.val, 31, 0⟩, (s.reg (Reg.RIGGER_LOCK b.val) ||| v).toNat)]) ∧
    (∀ v : Word, Completes (.riggerCountClear v) s fun t =>
      (∀ m < 64, t.rig m = if v.toNat.testBit 31 ∨ bitsGet v 5 0 = m then { s.rig m with drop := 0, fired := 0, trips := 0 } else s.rig m) ∧
      s.Within {} t) ∧
    (∀ ch, s.dev.rigger.pend = [(1, ch)] → s.dev.rtc.task = false →
      Completes (.pendingTask 1) s fun t =>
        t.dev.rigger.pend = [] ∧ t.dev.rtc.task = true ∧
        (s.dev.rtc.load = none → t.dev.rtc.load = some ((s.reg Reg.RTC_SETSEC).toNat, false)) ∧
        (∀ v, s.dev.rtc.load = some (v, true) → t.dev.rtc.load = some (v, true)) ∧ s.Within (onlyRegs (perfOf rtcPage)) t) ∧
    (∀ ch, s.dev.rigger.pend = [(1, ch)] → s.dev.rtc.task = true →
      Completes (.pendingTask 1) s fun t => t.dev.rigger.pend = [(1, ch)] ∧ t.dev.rtc = s.dev.rtc ∧ s.Within {} t)

/-- A tick of a short timer at every turn of its count, its compares and its registers; a tick of a long timer, its reload, its
compare and its enable (R329, R331–R339). The other channels' compares stand above TOP. -/
def Obligations.Timers : Prop :=
  ∀ s : State, s.Inv → s.dev.parity = [] →
    (∀ n : Fin 8,
      let k := n.val
      let cnt := s.fld (Reg.STIM_COUNT_COUNT k)
      let top := s.stTop k
      let now := (s.st k).held = none
      let runs := s.bit ⟨Reg.STIM_EN, k, k⟩ = true ∧ s.bit (Reg.STIM_CFG_CLK k) = false ∧ s.fld (Reg.STIM_CFG_GATE k) = 0
      let quiet (j : Nat) : Prop := top < s.fld (Reg.STIM_CC_CC k j)
      (s.bit ⟨Reg.STIM_EN, k, k⟩ = false ∨ s.bit (Reg.STIM_CFG_CLK k) = true → Completes (.stTick n) s fun t => s.Within {} t) ∧
      (runs → now → s.bit (Reg.STIM_COUNT_DOWN k) = false → cnt < top → (cnt + 1 < top ∨ s.bit (Reg.STIM_CFG_MODE k) = false) →
        ((∀ j < 4, quiet j) → Completes (.stTick n) s fun t => t.st k = s.st k ∧ s.Sets t [(Reg.STIM_COUNT_COUNT k, cnt + 1)]) ∧
        (∀ j < 4, (∀ i < 4, i ≠ j → quiet i) → s.fld (Reg.STIM_CC_CC k j) = cnt + 1 → (s.st k).armed.testBit j = true → s.stCap k j = false →
          Completes (.stTick n) s fun t =>
            t.events = s.events ++ [0x28 + 4 * k + j] ∧ (t.st k).armed.testBit j = false ∧
            (s.stOutMode k j = 1 → (t.st k).out.testBit j = !(s.st k).out.testBit j) ∧
            (s.stOutMode k j = 2 → (t.st k).out.testBit j = false) ∧ (s.stOutMode k j = 3 → (t.st k).out.testBit j = true) ∧
            (s.stOutMode k j = 0 → (t.st k).out = (s.st k).out) ∧
            s.Sets t [(Reg.STIM_COUNT_COUNT k, cnt + 1), (⟨(Reg.STIM_STAT_FLAGS k).addr, (Reg.STIM_STAT_FLAGS k).lo + j, (Reg.STIM_STAT_FLAGS k).lo + j⟩, 1)]
              (perfOf stimPage))) ∧
      (runs → now → s.bit (Reg.STIM_COUNT_DOWN k) = false → cnt + 1 = top → s.bit (Reg.STIM_CFG_MODE k) = true → (∀ j < 4, quiet j) →
        Completes (.stTick n) s fun t =>
          t.events = s.events ∧ (t.st k).armed = 0xF ∧ s.Sets t [(Reg.STIM_COUNT_DOWN k, 1), (Reg.STIM_COUNT_COUNT k, top)]) ∧
      (runs → now → s.bit (Reg.STIM_COUNT_DOWN k) = false → cnt = top → 0 < top → (∀ j < 4, quiet j) →
        (s.bit (Reg.STIM_CFG_MODE k) = false → Completes (.stTick n) s fun t =>
          t.events = s.events ++ [0x20 + k] ∧ (t.st k).armed = 0xF ∧
          s.Sets t [(Reg.STIM_COUNT_COUNT k, 0), (⟨(Reg.STIM_STAT_FLAGS k).addr, (Reg.STIM_STAT_FLAGS k).lo + 4, (Reg.STIM_STAT_FLAGS k).lo + 4⟩, 1)]
            (perfOf stimPage)) ∧
        (s.bit (Reg.STIM_CFG_MODE k) = true → 1 < top → Completes (.stTick n) s fun t =>
          t.events = s.events ∧ (t.st k).armed = 0xF ∧
          s.Sets t [(Reg.STIM_COUNT_DOWN k, 1), (Reg.STIM_COUNT_COUNT k, cnt - 1)])) ∧
      (runs → s.bit (Reg.STIM_COUNT_DOWN k) = true → s.bit (Reg.STIM_CFG_MODE k) = true → 1 < cnt → (∀ j < 4, quiet j) →
        Completes (.stTick n) s fun t => t.st k = s.st k ∧ s.Sets t [(Reg.STIM_COUNT_COUNT k, cnt - 1)]) ∧
      (runs → s.bit (Reg.STIM_COUNT_DOWN k) = true → s.bit (Reg.STIM_CFG_MODE k) = true → cnt = 1 → 0 < s.fld (Reg.STIM_TOP_TOP k) →
        (∀ j < 4, quiet j ∧ s.fld (Reg.STIM_TOP_TOP k) < s.fld (Reg.STIM_CC_CC k j)) →
        Completes (.stTick n) s fun t =>
          t.events = s.events ++ [0x20 + k] ∧ (t.st k).armed = 0xF ∧ (t.st k).held = none ∧
          s.Sets t [(Reg.STIM_COUNT_COUNT k, 0), (Reg.STIM_COUNT_DOWN k, 0),
            (⟨(Reg.STIM_STAT_FLAGS k).addr, (Reg.STIM_STAT_FLAGS k).lo + 4, (Reg.STIM_STAT_FLAGS k).lo + 4⟩, 1)] (perfOf stimPage)) ∧
      ∀ v : Word,
        (Completes (.stTopWrite n v) s fun t =>
          t.fld (Reg.STIM_TOP_TOP k) = bitsGet v 15 0 ∧ (t.st k).armed = (s.st k).armed ∧
          (s.bit (Reg.STIM_COUNT_DOWN k) = true → t.stTop k = top) ∧
          (s.bit (Reg.STIM_COUNT_DOWN k) = false → now → t.stTop k = bitsGet v 15 0) ∧
          (t.st k).out = (if t.stTop k = 0 ∧ cnt = 0 then 0 else (s.st k).out) ∧ s.Within (onlyRegs [Reg.STIM_TOP k]) t) ∧
        ∀ j : Fin 4, Completes (.stCcWrite n j v) s fun t =>
          t.fld (Reg.STIM_CC_CC k j.val) = bitsGet v 15 0 ∧ (t.st k).out = (s.st k).out ∧
          (∀ i, (t.st k).armed.testBit i = (decide (i = j.val) || (s.st k).armed.testBit i)) ∧ s.Within (onlyRegs [Reg.STIM_CC k j.val]) t) ∧
    (∀ n : Fin 2,
      let k := n.val
      let en : Fld := ⟨Reg.LTIM_EN, k, k⟩
      let cnt := s.fld (Reg.LTIM_COUNT_COUNT k)
      let cmp := s.fld (Reg.LTIM_CMP_CMP k)
      let buf := (s.reg (Reg.LTIM_BUF k)).toNat
      let armed := (Sparse.val {} s.dev.lt k).armed
      let past (c now : Nat) : Prop := (c + 2 ^ 32 - now) % 2 ^ 32 < 2 ^ 31
      let flag (b : Nat) : Fld := ⟨(Reg.LTIM_STAT_FLAGS k).addr, (Reg.LTIM_STAT_FLAGS k).lo + b, (Reg.LTIM_STAT_FLAGS k).lo + b⟩
      (s.bit en = false → Completes (.ltTick n) s fun t => s.Within {} t) ∧
      (s.bit en = true → s.bit (Reg.LTIM_CFG_CHAIN 1) = false →
        (1 < cnt → armed = false ∨ ¬ past cmp (cnt - 1) → Completes (.ltTick n) s fun t => s.Sets t [(Reg.LTIM_COUNT_COUNT k, cnt - 1)]) ∧
        (1 < cnt → armed = true → past cmp (cnt - 1) → Completes (.ltTick n) s fun t =>
          t.events = s.events ++ [0x4A + k] ∧ (Sparse.val {} t.dev.lt k).armed = false ∧
          s.Sets t [(Reg.LTIM_COUNT_COUNT k, cnt - 1), (flag 1, 1)] (perfOf ltimPage)) ∧
        (cnt = 1 → armed = false → Completes (.ltTick n) s fun t =>
          t.events = s.events ++ [0x48 + k] ∧ s.Sets t [(Reg.LTIM_COUNT_COUNT k, 0), (flag 0, 1)] (perfOf ltimPage)) ∧
        (cnt = 0 → 0 < buf → ¬ past cmp buf → Completes (.ltTick n) s fun t =>
          t.events = s.events ∧ (Sparse.val {} t.dev.lt k).armed = true ∧ s.Sets t [(Reg.LTIM_COUNT_COUNT k, buf)])) ∧
      (∀ v : Word, v = s.reg Reg.LTIM_EN ||| BitVec.ofNat 32 (2 ^ k) → s.bit en = false →
        Completes (.ltEnable v) s fun t =>
          (Sparse.val {} t.dev.lt k).armed = true ∧ s.Sets t [(en, 1), (Reg.LTIM_COUNT_COUNT k, buf)]) ∧
      (∀ v : Word, v = s.reg Reg.LTIM_EN &&& ~~~(BitVec.ofNat 32 (2 ^ k)) → s.bit en = true →
        Completes (.ltEnable v) s fun t =>
          (Sparse.val {} t.dev.lt k).armed = false ∧ s.Sets t [(en, 0), (Reg.LTIM_COUNT_COUNT k, 0)]) ∧
      ∀ v : Word, Completes (.ltCmpWrite n v) s fun t =>
        (Sparse.val {} t.dev.lt k).armed = true ∧ s.Sets t [(Reg.LTIM_CMP_CMP k, v.toNat)])

/-- The real-time clock: the second and its alarm, the load, the alarm's arming, the supply of its domain (R340–R344, R352,
R382). Clocks: what becomes ready, what is selected, what fails (R378–R381). -/
def Obligations.ClocksAndCalendar : Prop :=
  (∀ s : State, s.Inv →
    let now := s.reg Reg.RTC_SECONDS
    let armed := s.bit Reg.RTC_STAT_ARMED = true
    let due (sec alarm : Word) : Prop := (sec - alarm).toNat < 2 ^ 31
    let on := s.en rtcPage = true
    (¬ armed ∨ ¬ due (now + 1) (s.reg Reg.RTC_ALARM) →
      Completes .rtcSecond s fun t =>
        t.dev.rtc.prescaler = 0 ∧ (on → t.events = s.events ++ [0x01]) ∧ (¬ on → t.events = s.events) ∧
        s.Sets t [(⟨Reg.RTC_SECONDS, 31, 0⟩, (now + 1).toNat), (Reg.RTC_STAT_SECF, 1)] (perfOf rtcPage)) ∧
    (armed → due (now + 1) (s.reg Reg.RTC_ALARM) →
      Completes .rtcSecond s fun t =>
        (on → t.events = s.events ++ [0x01, 0x02]) ∧ t.dev.pwr.wake.testBit 0 = true ∧
        s.Sets t [(⟨Reg.RTC_SECONDS, 31, 0⟩, (now + 1).toNat), (Reg.RTC_STAT_SECF, 1), (Reg.RTC_STAT_ARMED, 0), (Reg.RTC_STAT_ALARMF, 1)]
          (perfOf rtcPage)) ∧
    (∀ v : Word, Completes (.rtcSecondsWrite v) s fun t => t.dev.rtc.load = some (v.toNat, true) ∧ s.Within {} t) ∧
    (∀ x, s.dev.rtc.load = some x → ¬ armed →
      Completes .rtcLoad s fun t =>
        t.dev.rtc.prescaler = 0 ∧ t.dev.rtc.load = none ∧ t.dev.rtc.task = false ∧
        s.Sets t [(⟨Reg.RTC_SECONDS, 31, 0⟩, x.1), (Reg.RTC_STAT_TIME_VALID, 1)]) ∧
    (s.dev.rtc.load = none → Completes .rtcLoad s fun t => t.dev.rtc = s.dev.rtc ∧ s.Within {} t) ∧
    (∀ v : Word,
      (¬ due now v → Completes (.rtcAlarmWrite v) s fun t => s.Sets t [(⟨Reg.RTC_ALARM, 31, 0⟩, v.toNat), (Reg.RTC_STAT_ARMED, 1)]) ∧
      (due now v → Completes (.rtcAlarmWrite v) s fun t =>
        t.dev.pwr.wake.testBit 0 = true ∧ (on → t.events = s.events ++ [0x02]) ∧
        s.Sets t [(⟨Reg.RTC_ALARM, 31, 0⟩, v.toNat), (Reg.RTC_STAT_ARMED, 0), (Reg.RTC_STAT_ALARMF, 1)] (perfOf rtcPage))) ∧
    ∀ vaon vbak : Nat,
      let sel := if vaon + 50 < vbak then 1 else if vbak + 50 < vaon then 0 else s.fld Reg.RTC_STAT_VBAK
      Completes (.vrtcSwitch vaon vbak) s fun t =>
        t.dev.supply.vrtc = (if sel = 1 then vbak else vaon) ∧ s.Sets t [(Reg.RTC_STAT_VBAK, sel)]) ∧
  (∀ s : State, s.Inv →
    (s.xoRuns = true → Completes .xoStable s fun t => s.Sets t [(Reg.PWR_CLKSTAT_XOOK, 1)]) ∧
    (s.xoRuns = false → Completes .xoStable s fun t => s.Within {} t) ∧
    (s.bit Reg.PWR_CLKREQ_PLLEN = true → s.xoOk = true → Completes .pllLock s fun t => s.Sets t [(Reg.PWR_CLKSTAT_PLLLOCK, 1)]) ∧
    (s.bit Reg.PWR_CLKREQ_PLLEN = false ∨ s.xoOk = false → Completes .pllLock s fun t => s.Within {} t) ∧
    (∀ v : Word,
      (v.toNat.testBit 8 = true → s.pllOk = false → Completes (.clockSelect v) s fun t => s.Reports t pwrPage fltState) ∧
      (v.toNat.testBit 8 = false ∨ s.pllOk = true → Completes (.clockSelect v) s fun t =>
        t.reg Reg.PWR_CLKSEL = v &&& BitVec.ofNat 32 (Reg.maskOf Reg.PWR_CLKSEL) ∧ t.bit Reg.PWR_CLKSTAT_SRC = v.toNat.testBit 8 ∧
        s.Within (onlyRegs [Reg.PWR_CLKSEL, Reg.PWR_CLKSTAT]) t)) ∧
    (s.bit Reg.PWR_CLKSTAT_SRC = false → Completes .xoFail s fun t =>
      s.Sets t [(Reg.PWR_CLKSTAT_XOOK, 0), (Reg.PWR_CLKSTAT_PLLLOCK, 0)]) ∧
    (s.bit Reg.PWR_CLKSTAT_SRC = true → s.dev.staged.length < 4 → Completes .xoFail s fun t =>
      t.dev.intc.edge.testBit 52 = true ∧ t.dev.staged.length = s.dev.staged.length + 1 ∧
      s.Sets t [(Reg.PWR_CLKSTAT_XOOK, 0), (Reg.PWR_CLKSTAT_PLLLOCK, 0), (Reg.PWR_CLKSEL_SRC, 0), (Reg.PWR_CLKSTAT_SRC, 0),
        (Reg.PWR_CLKSTAT_XOFAIL, 1), (Reg.LOGB_STAT_COUNT, s.dev.staged.length + 1)] (perfOf logbPage)) ∧
    (Completes .lfCrystalOk s fun t => s.Sets t [(Reg.PWR_CLKSTAT_LFOK, 1)]) ∧
    (s.bit Reg.PWR_CLKSTAT_LFOK = true → s.dev.staged.length < 4 → Completes .lfCrystalFail s fun t =>
      t.dev.staged.length = s.dev.staged.length + 1 ∧
      s.Sets t [(Reg.PWR_CLKSTAT_LFOK, 0), (Reg.PWR_CLKSTAT_LFFAIL, 1), (Reg.LOGB_STAT_COUNT, s.dev.staged.length + 1)] (perfOf logbPage)) ∧
    (s.bit Reg.PWR_CLKSTAT_LFOK = false → Completes .lfCrystalFail s fun t => s.Within {} t))

/-- The governor: charging up to the ceiling and again below 0.98 of it, the overshoot, bleeds by the door and by command and how
they end, the lockout; the power path, the store regulator and the relay pulses (R355, R356, R362, R364–R367, R369, R376,
R386, R387, R488). IDLE and CHARGE follow R364's conditions. -/
def Obligations.Governor : Prop :=
  ∀ s : State, s.Inv →
    let st := s.fld Reg.GOV_STAT_STATE
    let ceil := s.fld Reg.GOV_VCEIL_VCEIL
    let en := s.bit Reg.GOV_CHG_EN
    let vin := s.bit Reg.PWR_PATH_VINOK
    let stay (vin : Bool) (mv : Nat) : Nat := if st ≤ 1 then (if en && vin && decide (mv < ceil) then 1 else 0) else st
    let idle (mv : Nat) : Nat := if en && vin && decide (mv < ceil) then 1 else 0
    let v := s.dev.supply.vstore
    let up (item w : Nat) : Nat := min 0xFFFFFFFF (s.ctr govPage item w + 1)
    let g := s.dev.gov
    (vin = true → Completes .vinLost s fun t =>
      let r := s.dev.supply.storeReady
      t.dev.supply.vsys = (if r then 3300 else 0) ∧ t.events = s.events ++ [0x07] ∧
      s.Sets t [(Reg.PWR_PATH_VINOK, 0), (Reg.GOV_STAT_VINOK, 0), (Reg.PWR_PATH_SRC, 1), (Reg.PWR_PATH_REGON, if r then 1 else 0),
        (Reg.GOV_STAT_STATE, stay false v)] (perfOf pwrPage)) ∧
    (vin = false → Completes .vinReturn s fun t =>
      t.events = s.events ++ [0x08] ∧ t.dev.pwr.wake.testBit 12 = true ∧
      s.Sets t [(Reg.PWR_PATH_VINOK, 1), (Reg.GOV_STAT_VINOK, 1), (Reg.PWR_PATH_SRC, 0), (Reg.PWR_PATH_REGON, 0),
        (Reg.GOV_STAT_STATE, stay true v)] (perfOf pwrPage)) ∧
    (vin = true → Completes .vinReturn s fun t => s.Within {} t) ∧ (vin = false → Completes .vinLost s fun t => s.Within {} t) ∧
    (vin = false → Completes .storeRegulatorStart s fun t =>
      t.dev.supply.vsys = 3300 ∧ s.Sets t [(Reg.PWR_PATH_REGON, 1), (Reg.PWR_PATH_SRC, 1)]) ∧
    (s.bit Reg.PWR_PATH_REGON = true → Completes .storeRegulatorStop s fun t =>
      t.dev.supply.vsys = 0 ∧ t.dev.supply.storeReady = false ∧ s.Sets t [(Reg.PWR_PATH_REGON, 0)]) ∧
    (∀ mv : Nat,
      (st ≠ 7 → Completes (.vstoreMeasurement mv) s fun t =>
        t.ctr govPage 1 0 = (if g.measured then min g.vmin (min 0xFFFF mv) else min 0xFFFF mv) ∧
        t.ctr govPage 1 1 = (if g.measured then max g.vmax (min 0xFFFF mv) else min 0xFFFF mv) ∧
        s.Sets t [(Reg.GOV_LEVEL_VSTORE, min 0xFFFF mv), (Reg.GOV_STAT_STATE, stay vin mv)]) ∧
      (st = 7 → Completes (.vstoreMeasurement mv) s fun t =>
        s.Sets t [(Reg.GOV_LEVEL_VSTORE, min 0xFFFF mv), (Reg.GOV_STAT_DISCH, if 100 < mv then 1 else 0)])) ∧
    (st = 1 → Completes .chargeCeiling s fun t => t.events = s.events ++ [0x04] ∧ s.Sets t [(Reg.GOV_STAT_STATE, 2)] (perfOf govPage)) ∧
    (st ≠ 1 → Completes .chargeCeiling s fun t => s.Within {} t) ∧
    (st = 2 → Completes .chargeRestart s fun t => s.Sets t [(Reg.GOV_STAT_STATE, idle (ceil * 98 / 100))]) ∧
    (st ≤ 2 → Completes .overshootBleed s fun t =>
      t.ctr govPage 1 3 = up 1 3 ∧ s.Sets t [(Reg.GOV_STAT_STATE, 3), (Reg.GOV_STAT_DISCH, 1)]) ∧
    (st = 5 → Completes .overshootBleed s fun t => t.ctr govPage 1 3 = up 1 3 ∧ s.Sets t [(Reg.GOV_STAT_DISCH, 1)]) ∧
    (st = 3 → Completes .overshootBleedEnd s fun t => s.Sets t [(Reg.GOV_STAT_DISCH, 0), (Reg.GOV_STAT_STATE, 2)]) ∧
    (s.bit Reg.GOV_STAT_DOOR = false → Completes .doorOpen s fun t =>
      t.events = s.events ++ [0x03] ∧ t.dev.pwr.wake.testBit 10 = true ∧ (st ≤ 3 → t.dev.gov.byDoor = true ∧ t.ctr govPage 1 2 = up 1 2) ∧
      s.Sets t ((Reg.GOV_STAT_DOOR, 1) :: if st ≤ 3 then [(Reg.GOV_STAT_STATE, 4), (Reg.GOV_STAT_DISCH, 1)] else []) (perfOf govPage)) ∧
    (s.bit Reg.GOV_STAT_DOOR = true → Completes .doorClosed s fun t =>
      t.events = s.events ++ [0x03] ∧
      s.Sets t ((Reg.GOV_STAT_DOOR, 0) :: if st = 5 ∧ g.byDoor = true then [(Reg.GOV_STAT_STATE, idle v)] else []) (perfOf govPage)) ∧
    (st ≤ 3 → Completes .govDischarge s fun t =>
      t.dev.gov.byDoor = false ∧ t.ctr govPage 1 2 = up 1 2 ∧ s.Sets t [(Reg.GOV_STAT_STATE, 4), (Reg.GOV_STAT_DISCH, 1)]) ∧
    (4 ≤ st → Completes .govDischarge s fun t => t.dev.gov = g ∧ s.Within {} t) ∧
    (st = 5 → g.byDoor = false → Completes .govResume s fun t => s.Sets t [(Reg.GOV_STAT_STATE, idle v)]) ∧
    (st ≠ 5 ∨ g.byDoor = true → Completes .govResume s fun t => t.dev.gov = g ∧ s.Within {} t) ∧
    (st = 4 → g.byDoor = false ∨ s.bit Reg.GOV_STAT_DOOR = true → Completes .bleedSafe s fun t =>
      t.events = s.events ++ [0x05] ∧ s.Sets t [(Reg.GOV_STAT_DISCH, 0), (Reg.GOV_STAT_STATE, 5)] (perfOf govPage)) ∧
    (st = 4 → s.dev.staged.length < 4 → Completes .bleedTimeout s fun t =>
      t.ctr govPage 2 3 = up 2 3 ∧ t.dev.intc.edge.testBit 54 = true ∧ t.dev.staged.length = s.dev.staged.length + 1 ∧
      s.Sets t [(Reg.GOV_STAT_STATE, 6), (Reg.LOGB_STAT_COUNT, s.dev.staged.length + 1)] (perfOf govPage ++ perfOf logbPage)) ∧
    (∀ w : Word,
      (s.rlyFree = true → Completes (.relayPulseStart w) s fun t =>
        t.dev.gov.pulse = some (bitsGet (t.reg Reg.LUM_RLY) Reg.LUM_RLY_DIR.hi Reg.LUM_RLY_DIR.lo) ∧ t.ctr govPage 2 0 = up 2 0 ∧
        s.Sets t [(Reg.GOV_STAT_RLYBUSY, 1), (Reg.LUM_STAT_RLYBUSY, 1), (Reg.LUM_STAT_STATUS, 0)] [Reg.LUM_RLY]) ∧
      (s.rlyFree = false → Completes (.relayPulseStart w) s fun t =>
        t.dev.gov = g ∧ t.ctr govPage 2 2 = up 2 2 ∧ s.Sets t [(Reg.LUM_STAT_STATUS, 2)] [Reg.LUM_RLY])) ∧
    (g.pulse.isSome = true → Completes .relayPulseEnd s fun t =>
      t.dev.gov = { g with pulse := none } ∧ t.events = s.events ++ [0x60] ∧
      t.ctr govPage 2 1 = (if s.rlyTmax < g.pulseLen then up 2 1 else s.ctr govPage 2 1) ∧
      s.Sets t [(Reg.GOV_STAT_RLYBUSY, if g.interval then 1 else 0), (Reg.LUM_STAT_RLYBUSY, if g.interval then 1 else 0)] (perfOf lumPage)) ∧
    (g.pulse = none → Completes .relayIntervalEnd s fun t =>
      t.dev.gov = { g with interval := false } ∧ s.Sets t [(Reg.GOV_STAT_RLYBUSY, 0), (Reg.LUM_STAT_RLYBUSY, 0)])

/-- Entry into REST and EASY and the wakes from them, with the radio asleep and its link side at rest (R273, R370–R377). -/
def Obligations.LowPower : Prop :=
  ∀ s : State, s.Inv → s.Quiet → s.Unwatched → s.radio = 0 →
    let bank (banks a : Nat) : Bool := sramMem a && banks.testBit ((a - 0x20000000) / 0x10000)
    let lost := 0xFF - s.fld Reg.PWR_SLEEPCFG_RETAIN
    (∀ src : BitVec 14, s.dev.pwr.entry = .stopped → s.dev.pwr.toEasy = false → s.dev.time.restore = false →
      let carried (t : State) : Prop := t.fld Reg.NTIME_STAT_CVALID = 1 ∧
        t.dev.time.carry = some s.carryNow
      (s.wakeNow src.toNat = 0 → Completes (.entryLfEdge src) s fun t =>
        carried t ∧ t.dev.pwr = { s.dev.pwr with entry := .edge } ∧
        s.Within { regs := fun a => decide (a = Reg.NTIME_STAT ∨ a / 0x1000 * 0x1000 ∈ [lanesPage, rxfePage]) } t) ∧
      (s.wakeNow src.toNat ≠ 0 → Completes (.entryLfEdge src) s fun t =>
        carried t ∧ t.dev.pwr = { s.dev.pwr with entry := .none, wake := 0 } ∧ t.core = { s.core with run := .run } ∧
        t.dev.time.restore = true ∧ t.bit Reg.PWR_STAT_ABANDON = true ∧ t.fld Reg.PWR_STAT_ABPT = 3 ∧
        t.ctr pwrPage 2 2 = min 0xFFFFFFFF (s.ctr pwrPage 2 2 + 1) ∧
        s.Within { regs := fun a => decide (a ∈ [Reg.NTIME_STAT, Reg.PWR_STAT] ∨ a / 0x1000 * 0x1000 ∈ [lanesPage, rxfePage]), core := true } t)) ∧
    (∀ src : BitVec 14, s.dev.pwr.entry ≠ .stopped → Completes (.entryLfEdge src) s fun t => s.Within {} t) ∧
    (s.dev.pwr.entry = .edge → s.dev.pwr.toEasy = false →
      Completes .entryComplete s fun t =>
        t.dev.pwr = { s.dev.pwr with state := .rest, entry := .none } ∧ t.core = { s.core with run := .lowPower } ∧
        t.ctr pwrPage 2 0 = min 0xFFFFFFFF (s.ctr pwrPage 2 0 + 1) ∧
        s.Sets t [(Reg.PWR_CLKSEL_SRC, 0), (Reg.PWR_CLKSTAT_SRC, 0), (Reg.PWR_CLKSTAT_PLLLOCK, 0), (Reg.PWR_CLKSTAT_XOOK, 0), (Reg.PWR_STAT_LAST, 2)]
          [] { core := true }) ∧
    (s.dev.pwr.entry = .edge → s.dev.pwr.toEasy = true →
      Completes .entryComplete s fun t =>
        t.dev.pwr.state = .easy ∧ t.core.run = .lowPower ∧ t.fld Reg.PWR_STAT_LAST = 3 ∧ t.ctr pwrPage 2 1 = min 0xFFFFFFFF (s.ctr pwrPage 2 1 + 1) ∧
        (∀ a, cellMem a = true → t.byte a = 0) ∧ (∀ x i, t.word x i = 0) ∧ t.Cleared inLink (Reg.NTIME_STAT :: otpShown) ∧
        (∀ i, t.otpByte i = s.otpByte i) ∧ (∀ a, Reg.pageOf a = rtcPage → t.reg a = s.reg a) ∧ t.dev.staged = s.dev.staged) ∧
    (∀ src : BitVec 14, s.dev.pwr.state = .rest → s.wakeNow src.toNat ≠ 0 → s.dev.rigger.held = [] →
      Completes (.wakeFromRest src) s fun t =>
        t.dev.pwr.state = .run ∧ t.core = { s.core with run := .run } ∧ t.dev.flood.missed = 0 ∧
        t.dev.time.restore = (s.dev.time.restore || s.dev.time.carry.isSome) ∧
        (∀ a, t.byte a = if bank lost a then 0 else s.byte a) ∧
        s.Sets t [(⟨Reg.PWR_WAKESRC, 31, 0⟩, s.wakeNow src.toNat), (Reg.PWR_CLKSEL_SRC, 0), (Reg.PWR_CLKSTAT_SRC, 0)] []
          { core := true, mem := bank lost, tab := (· == .seen) }) ∧
    (∀ src : BitVec 14, s.dev.pwr.state ≠ .rest ∨ s.wakeNow src.toNat = 0 → Completes (.wakeFromRest src) s fun t => s.Within {} t) ∧
    (∀ src : BitVec 14,
      let now := (src.toNat ||| s.dev.pwr.wake) &&& s.fld Reg.PWR_WAKEEN_EN &&& 0x3FFD
      (s.dev.pwr.state = .easy → now ≠ 0 → Completes (.wakeFromEasy src) s fun t =>
        t.dev.pwr.state = .run ∧ t.core.pc = 0 ∧ t.core.run = .run ∧ t.reg Reg.PWR_WAKESRC = BitVec.ofNat 32 now ∧
        t.fld Reg.SYS_RSTCAUSE_LAST = 4 ∧ (∀ a, sramMem a = true → t.byte a = 0) ∧ (∀ i, t.otpByte i = s.otpByte i) ∧
        (∀ a, Reg.pageOf a = rtcPage → t.reg a = s.reg a)) ∧
      (s.dev.pwr.state ≠ .easy ∨ now = 0 → Completes (.wakeFromEasy src) s fun t => s.Within {} t))

/-! ### OTP and the start -/

/-- The operations of OTPC: what each begins and what its checks find, and how one ends: programmed bits are added and nothing
else of OTP changes (R59, R60, R362, R401, R414–R418, R441). A writer without leave also sets FLT.STATE: log entry 50. -/
def Obligations.OtpOperations : Prop :=
  ∀ (m : Master) (vsys : Nat) (verified : Bool) (s : State), s.Inv →
    let off := s.fld Reg.OTPC_ADDR_OFFSET
    let wd := s.otpWd
    let begun (j : OtpJob) (t : State) : Prop := t.dev.otpc = some j ∧ s.Sets t [(Reg.OTPC_STAT_BUSY, 1)]
    let turned (t : State) : Prop := t.dev.otpc = some { status := 1 } ∧
      s.Sets t [(Reg.OTPC_STAT_BUSY, 1), (fltBit otpcPage fltState, 1)] (perfOf otpcPage)
    let programs (row gen : Nat) (data : List Byte) (t : State) : Prop :=
      (verified = true → begun { status := 0, row := row, gen := gen, data := data } t) ∧
      (verified = false → s.Sets t [(Reg.OTPC_STAT_BUSY, 1)] ∧ t.dev.otpc.isSome = true ∧ ∀ j, t.dev.otpc = some j →
        j.status = 0x33 ∧ j.row = row ∧ j.gen = gen ∧ j.data.length = data.length ∧
        ∀ i < data.length, octet j.data i &&& octet data i = octet j.data i)
    let record (base : Nat) (c : Instr) (op : Nat) (stricter : Bool) : Prop :=
      s.otpMay m op = true →
        (s.blankGen base = none → Completes c s (begun { status := 8 })) ∧
        (∀ g, s.blankGen base = some g →
          (bitOf (octet wd 3).toNat 7 = false ∨ (s.newestGen base ≠ none ∧ stricter = false) → Completes c s (begun { status := 3 })) ∧
          (bitOf (octet wd 3).toNat 7 = true → s.newestGen base = none ∨ stricter = true →
            (vsys < 3000 → Completes c s (begun { status := 0x30 })) ∧
            (3000 ≤ vsys → Completes c s (programs (base + 16 * g) g wd))))
    let free (off : Nat) : Prop := off % 16 = 0 ∧ (off = 0 ∨ off = 0x30 ∨ 0x1C0 ≤ off)
    (s.bit Reg.OTPC_STAT_BUSY = true →
      (Completes (.otpRead m) s fun t => t.dev.otpc = s.dev.otpc ∧ s.Reports t otpcPage fltState) ∧
      (Completes (.otpProgram m vsys verified) s fun t => t.dev.otpc = s.dev.otpc ∧ s.Reports t otpcPage fltState) ∧
      (Completes (.appendReg m vsys verified) s fun t => t.dev.otpc = s.dev.otpc ∧ s.Reports t otpcPage fltState) ∧
      (Completes (.appendGov m vsys verified) s fun t => t.dev.otpc = s.dev.otpc ∧ s.Reports t otpcPage fltState) ∧
      (Completes (.advance m vsys verified) s fun t => t.dev.otpc = s.dev.otpc ∧ s.Reports t otpcPage fltState) ∧
      (Completes (.raiseArb m vsys verified) s fun t => t.dev.otpc = s.dev.otpc ∧ s.Reports t otpcPage fltState)) ∧
    (s.bit Reg.OTPC_STAT_BUSY = false →
      (off % 16 ≠ 0 → Completes (.otpRead m) s (begun { status := 3 })) ∧
      (off % 16 = 0 → 0x200 ≤ off → off < 0x300 → Completes (.otpRead m) s (begun { status := 0x22, rd := List.replicate 16 0 })) ∧
      (off % 16 = 0 → 0x300 ≤ off → Completes (.otpRead m) s (begun { status := 0, rd := List.replicate 16 0 })) ∧
      (off % 16 = 0 → off < 0x200 → Completes (.otpRead m) s (begun { status := 0, rd := s.otpBytes off 16 })) ∧
      (s.otpMay m 2 = false → Completes (.otpProgram m vsys verified) s turned) ∧
      (s.otpMay m 3 = false → Completes (.appendReg m vsys verified) s turned) ∧
      (s.otpMay m 4 = false → Completes (.appendGov m vsys verified) s turned) ∧
      (s.otpMay m 5 = false → Completes (.advance m vsys verified) s turned) ∧
      (s.otpMay m 6 = false → Completes (.raiseArb m vsys verified) s turned) ∧
      (s.otpMay m 2 = true →
        (¬ free off → Completes (.otpProgram m vsys verified) s (begun { status := 3 })) ∧
        (free off → s.otpUsed off = true → Completes (.otpProgram m vsys verified) s (begun { status := 8 })) ∧
        (free off → s.otpUsed off = false → s.keyOrderBad off = true → Completes (.otpProgram m vsys verified) s (begun { status := 1 })) ∧
        (free off → s.otpUsed off = false → s.keyOrderBad off = false → 3000 ≤ vsys →
          Completes (.otpProgram m vsys verified) s (programs off 0 wd))) ∧
      record (regBase (s.fld Reg.OTPC_ADDR_PROF)) (.appendReg m vsys verified) 3
        (regStricter wd (s.newestRow (regBase (s.fld Reg.OTPC_ADDR_PROF)))) ∧
      record govBase (.appendGov m vsys verified) 4 (govStricter wd (s.newestRow govBase)) ∧
      (s.otpMay m 5 = true →
        (s.lifecycle = 3 → Completes (.advance m vsys verified) s (begun { status := 8 })) ∧
        (s.lifecycle < 3 → 3000 ≤ vsys → Completes (.advance m vsys verified) s (programs 0x10 0 [BitVec.ofNat 8 (2 ^ s.lifecycle)]))) ∧
      (s.otpMay m 6 = true →
        let n := (s.reg (Reg.OTPC_WD 0)).toNat % 64
        (n < s.arb → Completes (.raiseArb m vsys verified) s (begun { status := 3 })) ∧
        (s.arb ≤ n → 3000 ≤ vsys → Completes (.raiseArb m vsys verified) s (programs 0x20 0 (leBytes 8 (2 ^ n - 1)))))) ∧
    (s.dev.otpc = none → Completes .otpDone s fun t => s.Within {} t) ∧
    ∀ j, s.dev.otpc = some j →
      Completes .otpDone s fun t =>
        (∀ i, t.otpByte i = if j.row ≤ i ∧ i < j.row + j.data.length then s.otpByte i ||| octet j.data (i - j.row) else s.otpByte i) ∧
        t.dev.otpc = none ∧ t.bit Reg.OTPC_STAT_BUSY = false ∧ t.bit Reg.OTPC_STAT_DONE = true ∧ t.fld Reg.OTPC_STAT_STATUS = j.status % 256 ∧
        (j.rd.length = 16 → ∀ k < 4, t.reg (Reg.OTPC_RD k) = wordOf ((j.rd.drop (4 * k)).take 4)) ∧
        (j.data ≠ [] → 0x40 ≤ j.row → j.row < 0x180 → t.fld Reg.OTPC_STAT_GEN = j.gen % 4) ∧
        t.fld Reg.SYS_LIFECYCLE_ARB = t.arb ∧
        s.Within { onlyRegs (Reg.OTPC_STAT :: Reg.SYS_LIFECYCLE :: (List.range 4).map Reg.OTPC_RD) with otp := true } t

/-- Where the start sequence leads: it waits for VSYS; Dead for a watchdog that will not be fed, for a commit that fails and for
want of a crew sheet; the monitor, factory service, the unlock exchange and RETIRED; firmware, from a crew sheet and by the
core's own path (R388–R391, R407–R412, R471, R476). Log entry 69 says what the command takes as one. -/
def Obligations.StartSequence : Prop :=
  ∀ (straps : BitVec 2) (vsys fails : Nat) (s : State), s.Inv →
    let c := Instr.startSequence straps vsys fails
    let st := straps.toNat
    let dead (reason : Nat) (t : State) : Prop :=
      t.dev.sys.phase = .dead ∧ t.fld Reg.SYS_RSTCAUSE_DEADRSN = reason ∧ t.core.run = .doze ∧ t.fld Reg.LINK_STAT_MODE = 0 ∧
        t.radio = 0 ∧ t.bit Reg.SYS_WDOGSTAT_RUN = false ∧ t.Cleared (fun a => decide (Reg.pageOf a = gpioPage)) []
    let opens (ph : Phase) (t : State) : Prop :=
      t.dev.sys.phase = ph ∧ t.fld Reg.SYS_LIFECYCLE_STRAPS = st ∧ t.g 2 = s.reg Reg.SYS_RSTCAUSE ∧
        t.bit Reg.BP_MON_ROUTE = decide (ph = .monitor ∨ ph = .factory) ∧ t.dev.staged = []
    let entry (t : State) : Word := BitVec.ofNat 32 (0x01010080 + leNat (t.bytes (0x01010000 + 52) 4)) &&& 0xFFFFFFFC
    let rom := s.dev.sys.phase = .rom
    let ready := rom ∧ s.dev.sys.coreOnly = false ∧ 2800 ≤ vsys
    let kept := jLoad.run s = s
    let clean := kept ∧ s.tornUnits = [] ∧ s.earlierDead = none ∧ s.dev.sys.fails < 3 ∧ s.dev.staged = [] ∧ s.fld Reg.LOGB_STAT_DROPPED = 0
    (¬ rom → Completes c s fun t => s.Within {} t) ∧
    (rom → s.dev.sys.coreOnly = false → vsys < 2800 → s.bootWrites st = true → Completes c s fun t => s.Within {} t) ∧
    (ready → kept → 3 ≤ s.dev.sys.fails → Completes c s (dead 3)) ∧
    (ready → clean → s.commitPending = true → 3 ≤ fails → Completes c s (dead 4)) ∧
    (ready → clean → s.commitPending = false →
      (s.lc = 0 → Completes c s (opens .factory)) ∧
      (s.lc = 1 → st = 1 → Completes c s (opens .monitor)) ∧
      (s.lc = 1 → st = 2 → Completes c s (opens .factory)) ∧
      (s.lc = 2 → st = 1 → Completes c s (opens .unlock)) ∧
      (s.lc = 3 → Completes c s fun t => t.dev.sys.phase = .retired ∧ t.fld Reg.SYS_LIFECYCLE_STRAPS = st) ∧
      ((s.lc = 1 ∧ st ∉ [1, 2]) ∨ (s.lc = 2 ∧ st ≠ 1) →
        (s.crewHeaderOk (s.sheet 0 64) = false → s.crewHeaderOk (s.sheet 1 64) = false →
          Completes c s fun t => dead 1 t ∧ t.fld Reg.SYS_BOOTINFO_STAT_A = 0x40 ∧ t.fld Reg.SYS_BOOTINFO_STAT_B = 0x40) ∧
        (∀ k, s.sheetOrder.head? = some k → s.sheetStatus k = 0 →
          (Completes c s fun t => t.dev.sys.phase = .firmware ∨ dead 2 t) ∧
          (s.dev.pwr.token = true → s.dev.sys.aoMark = some (k, crewSeq (s.sheet k 64)) →
            (∀ r ∈ crewRecords (s.sheet k (crewLen (s.sheet k 64))) ((crewLen (s.sheet k 64) - 80) / 8), inAo r.1 = true) →
            Completes c s fun t =>
              t.dev.sys.phase = .firmware ∧ t.core.pc = entry s ∧ t.g 1 = 0x01010000 ∧ t.g 2 = s.reg Reg.SYS_RSTCAUSE ∧
              bitOf t.core.st.toNat 0 = true ∧ bitOf t.core.st.toNat 7 = false ∧ t.core.run = .run ∧
              t.fld Reg.SYS_BOOTINFO_SLOT = k ∧ t.reg Reg.SYS_CREWSEQ = BitVec.ofNat 32 (crewSeq (s.sheet k 64)) ∧
              t.bit Reg.SYS_BOOTINFO_TOKEN = true ∧ t.bit Reg.SYS_WDOGSTAT_RUN = true ∧ t.bit Reg.FLASHC_IMG_VALID = true ∧
              t.bit Reg.TXP_CFG_LOCK = true ∧ t.bit Reg.PWR_CLKSTAT_XOOK = true ∧
              (∀ a, 0x01010000 ≤ a → t.byte a = s.byte a) ∧ (∀ i, t.otpByte i = s.otpByte i))))) ∧
    (rom → s.dev.sys.coreOnly = true →
      (s.dev.pwr.token = true → Completes c s fun t =>
        t.dev.sys.phase = .firmware ∧ t.core.pc = entry s ∧ t.g 1 = 0x01010000 ∧ t.g 2 = s.reg Reg.SYS_RSTCAUSE ∧
        s.Sets t [(Reg.SYS_BOOTINFO_TOKEN, 1)] [] { core := true }) ∧
      (s.dev.pwr.token = false → s.bootCheck = false → 2800 ≤ vsys → Completes c s (dead 2)) ∧
      (s.dev.pwr.token = false → s.bootCheck = false → vsys < 2800 → Completes c s fun t => s.Within {} t))

/-! ### The host port -/

/-- Every command of the host port that is not taken: nothing happens on a transport that is off or asleep; Dead and an
unfinished start refuse with STATE, a second command with BUSY, a wrong payload is answered PARAM, and what the lifecycle
does not allow is refused with STATE (R419, R422, R423, R429–R432, R440). STATUS, the logbook, the statistics and the time
are read; NTIME and the RTC are set; a wrapped key is loaded; DISCHARGE starts a bleed (R215, R366, R432, R433, R439, R455). -/
def Obligations.HostReports : Prop :=
  (∀ (c : Instr) (tr : Tr) (tag : Byte) (code : Nat) (p : List Byte) (s : State), s.Inv → hostRow c = some (tr, tag, code, p) →
    let on := s.trOn (trNum tr) = true ∧ s.portAwake = true
    let dead := s.dev.sys.phase = .dead
    let out := (s.port (trNum tr)).out
    let state (t : State) : Prop :=
      s.Refuses t tr tag code 1 ∧ t.ctr hostpPage 1 1 = min 0xFFFFFFFF (s.ctr hostpPage 1 1 + 1) ∧
        t.bit (fltBit hostpPage fltState) = true
    (¬ on → Completes c s fun t => t.dev.hostp = s.dev.hostp ∧ s.Within {} t) ∧
    (on → dead → code ≠ 1 → Completes c s state) ∧
    (on → ¬ dead → code ≠ 3 → out ≠ none →
      Completes c s fun t => s.Refuses t tr tag code 2 ∧ t.ctr hostpPage 1 2 = min 0xFFFFFFFF (s.ctr hostpPage 1 2 + 1)) ∧
    (on → ¬ dead → code ≠ 3 → out = none →
      (s.starting = true → code ≠ 1 → Completes c s state) ∧
      (s.starting = false → sizeOk code p.length (trNum tr == 2) = false →
        Completes c s fun t =>
          (trNum tr < 2 → (s.port (trNum tr)).reply = none →
            (t.port (trNum tr)).reply = some { frame := replyFrame code tag.toNat 3 [] } ∧ (t.port (trNum tr)).out = none) ∧
          t.ctr hostpPage 1 0 = s.ctr hostpPage 1 0 ∧ s.Within (portFoot tr) t) ∧
      (s.starting = false → sizeOk code p.length (trNum tr == 2) = true → lcOk code s.lc (trNum tr == 2) = false → Completes c s state))) ∧
  (∀ (tr : Tr) (tag : Byte) (p : List Byte) (s : State),
    let ver := if s.bytes 0x01010000 4 = [0x51, 0x52, 0x42, 0x4C] then s.bytes 0x0101000C 4 else [0, 0, 0, 0]
    (s.Inv → s.trOn (trNum tr) = true → s.portAwake = true → (s.port (trNum tr)).out = none →
      Completes (.status tr tag) s fun t => s.Answers t tr tag 1 0
        (leBytes 1 s.lc ++ leBytes 1 (if s.dev.sys.phase = .dead then s.fld Reg.SYS_RSTCAUSE_DEADRSN else 0) ++
          leBytes 1 (s.fld Reg.HOSTP_STAT_ENGINE) ++ leBytes 1 (s.fld Reg.LINK_MODE_MODE) ++ leBytes 4 (s.reg Reg.SYS_RSTCAUSE).toNat ++
          ver ++ leBytes 4 (s.reg Reg.SYS_CREWSEQ).toNat ++
          leBytes 1 (s.fld Reg.SYS_WDOGSTAT_ALIVE + 2 * s.fld Reg.NTIME_STAT_SYNC + 4 * s.fld Reg.PWR_STAT_PADHOLD +
            8 * if s.starting then 1 else 0) ++ leBytes 1 (s.fld Reg.GOV_STAT_STATE) ++ leBytes 2 (s.fld Reg.GOV_LEVEL_VSTORE))) ∧
    (s.Takes tr 0x50 → p.length = 5 →
      let n := numAt p 4 1
      (n = 0 ∨ 63 < n → Completes (.logRead tr tag p) s fun t => s.Answers t tr tag 0x50 3 []) ∧
      (1 ≤ n → n ≤ 63 → Completes (.logRead tr tag p) s fun t =>
        s.Answers t tr tag 0x50 0 ((s.logFrom (numAt p 0 4) n).flatMap id))) ∧
    (s.Takes tr 0x51 → p.length = 1 →
      let set := numAt p 0 1
      (1 < set → Completes (.statsRead tr tag p) s fun t => s.Answers t tr tag 0x51 3 []) ∧
      (set = 0 → Completes (.statsRead tr tag p) s fun t =>
        s.Answers t tr tag 0x51 0 ((List.range 32).flatMap fun e => leBytes 4 (s.statShadow e))) ∧
      (set = 1 → Completes (.statsRead tr tag p) s fun t =>
        s.Answers t tr tag 0x51 0 ((List.range 32).flatMap fun e => leBytes 4 (s.statLive e)))) ∧
    (s.Takes tr 0x58 →
      Completes (.timeGet tr tag) s fun t => s.Answers t tr tag 0x58 0
        (leBytes 6 s.dev.time.ntime ++ leBytes 1 (s.fld Reg.NTIME_STAT_SYNC + 2 * s.fld Reg.RTC_STAT_TIME_VALID) ++ [0] ++
          leBytes 4 s.dev.time.ao ++ leBytes 4 (s.reg Reg.RTC_SECONDS).toNat ++ leBytes 2 s.dev.rtc.prescaler ++ [0, 0] ++
          leBytes 4 s.dev.time.ao)) ∧
    (s.Takes tr 0x59 → p.length = 11 →
      let fl := numAt p 0 1
      (fl % 4 = 0 → Completes (.timeSet tr tag p) s fun t => s.Answers t tr tag 0x59 3 []) ∧
      (fl % 4 = 2 → Completes (.timeSet tr tag p) s fun t =>
        t.dev.rtc.load = some (numAt p 7 4, true) ∧ s.Answers t tr tag 0x59 0 []) ∧
      (fl % 2 = 1 → s.dev.tx.jobs = [] → s.bit Reg.NTIME_STAT_CMPARMED = false → Completes (.timeSet tr tag p) s fun t =>
        t.dev.time.ntime = numAt p 1 6 ∧ t.bit Reg.NTIME_STAT_SYNC = true ∧ t.fld Reg.NTIME_TRIM_TRIM = 0 ∧
        t.dev.rtc.load = (if fl % 4 = 3 then some (numAt p 7 4, true) else s.dev.rtc.load) ∧
        s.Answers t tr tag 0x59 0 [] (onlyRegs [Reg.NTIME_STAT, Reg.NTIME_TRIM]))) ∧
    (s.Takes tr 0x60 →
      let F : Foot := { regs := fun a => decide (a ∈ Reg.CIPH_RESULT 1 :: perfOf (ciphPage 1)), keys := true }
      (p.length ≠ 56 → Completes (.keyLoad tr tag p) s fun t => s.Answers t tr tag 0x60 4 []) ∧
      (p.length = 56 → (s.ciph 1).job ≠ none → Completes (.keyLoad tr tag p) s fun t => s.Answers t tr tag 0x60 2 []) ∧
      (p.length = 56 → (s.ciph 1).job = none →
        (∀ st, s.unwrapBlob p = .error st → Completes (.keyLoad tr tag p) s fun t =>
          t.dev.keys = s.dev.keys ∧ s.Answers t tr tag 0x60 st [] F) ∧
        (∀ f, s.unwrapBlob p = .ok f → Completes (.keyLoad tr tag p) s fun t =>
          t.slot f.1 = f.2 ∧ (∀ k ≠ f.1, t.slot k = s.slot k) ∧ s.Answers t tr tag 0x60 0 [] F))) ∧
    (s.Takes tr 0x61 →
      let st := s.fld Reg.GOV_STAT_STATE
      (st ≤ 3 → Completes (.discharge tr tag) s fun t =>
        t.fld Reg.GOV_STAT_STATE = 4 ∧ t.bit Reg.GOV_STAT_DISCH = true ∧ t.dev.gov.byDoor = false ∧
        s.Answers t tr tag 0x61 0 [] (onlyRegs [Reg.GOV_STAT])) ∧
      (4 ≤ st → Completes (.discharge tr tag) s fun t => t.dev.gov = s.dev.gov ∧ s.Answers t tr tag 0x61 0 [])))

/-- READ_MEM and WRITE_MEM in main SRAM, whole, and what the access check turns away; frames to the host TX ring and from its RX
ring; APP, its answer and its time limit (R434–R436, R440, R444). -/
def Obligations.HostData : Prop :=
  ∀ (tr : Tr) (tag : Byte) (p : List Byte) (s : State),
    let a := numAt p 0 4
    let n := numAt p 4 2
    let m := p.length - 4
    (s.Takes tr 0x10 → p.length = 6 →
      (s.lc = 2 → a < 0x40000000 ∨ 0x43005000 < a + n → Completes (.readMem tr tag p) s fun t => s.Refuses t tr tag 0x10 1) ∧
      (s.lc ≠ 2 → (n = 0 ∨ 4092 < n ∨ s.readable .host a n = false) →
        Completes (.readMem tr tag p) s fun t => s.Answers t tr tag 0x10 3 []) ∧
      (s.lc ≠ 2 → 1 ≤ n → n ≤ 4092 → 0x20000000 ≤ a → a + n ≤ 0x20080000 → s.dev.eccBad = [] → s.dev.eccOne = [] →
        Completes (.readMem tr tag p) s fun t => s.Answers t tr tag 0x10 0 (s.bytes a n))) ∧
    (s.Takes tr 0x11 → 5 ≤ p.length → p.length ≤ 4094 →
      (s.writable .host a m = false → Completes (.writeMem tr tag p) s fun t => s.Answers t tr tag 0x11 3 []) ∧
      (0x20000000 ≤ a → a + m ≤ 0x20080000 → s.dev.eccBad = [] → s.dev.eccOne = [] →
        Completes (.writeMem tr tag p) s fun t =>
          (∀ i < m, t.byte (a + i) = octet p (4 + i)) ∧
          s.Answers t tr tag 0x11 0 [] { mem := fun x => decide (a ≤ x ∧ x < a + m) })) ∧
    (s.Takes tr 0x20 → 17 ≤ p.length →
      let l := p.drop 16
      let k := (l.length + 255) / 256
      (2047 < l.length → Completes (.sendFrame tr tag p) s fun t => s.Answers t tr tag 0x20 4 []) ∧
      (l.length ≤ 2047 → 16 ≤ s.hostSlots → Completes (.sendFrame tr tag p) s fun t => s.Answers t tr tag 0x20 2 []) ∧
      (l.length ≤ 2047 → s.hostSlots < 16 → s.canAlloc poolHost k = false →
        Completes (.sendFrame tr tag p) s fun t => s.Answers t tr tag 0x20 5 [] (onlyRegs (perfOf fbufPage))) ∧
      (l.length ≤ 2047 → s.hostSlots < 16 → s.canAlloc poolHost k = true → k ≤ s.freeCells.length →
        Completes (.sendFrame tr tag p) s fun t =>
          let d := wordOf (t.dev.hostp.tx.getLastD [])
          let cells := t.chain (bitsGet d 19 11)
          t.dev.hostp.tx.length = s.dev.hostp.tx.length + 1 ∧ t.dev.hostp.tx.take s.dev.hostp.tx.length = s.dev.hostp.tx ∧
          (t.dev.hostp.tx.getLastD []).drop 4 = (p.take 16).drop 4 ∧
          bitsGet d 10 0 = l.length ∧ bitsGet d 22 20 = k - 1 ∧ cells.length = k ∧ t.chainBytes cells l.length = l ∧
          (∀ c ∈ cells, (s.cell c).owner = ownFree ∧ (t.cell c).owner = ownHost) ∧
          s.Answers t tr tag 0x20 0 (leBytes 1 s.dev.hostp.slot ++ [0, 0, 0]) { onlyRegs (perfOf fbufPage) with mem := cellMem })) ∧
    (s.Takes tr 0x21 →
      (s.dev.hostp.rx = [] → Completes (.fetchFrame tr tag) s fun t => s.Answers t tr tag 0x21 5 []) ∧
      (∀ d rest, s.dev.hostp.rx = d :: rest →
        let cells := s.chainFrom (bitsGet (wordOf d) 22 20 + 1) (bitsGet (wordOf d) 19 11)
        Completes (.fetchFrame tr tag) s fun t =>
          t.dev.hostp.rx = rest ∧
          s.Answers t tr tag 0x21 0 (d ++ s.chainBytes cells (bitsGet (wordOf d) 10 0)) {} cells)) ∧
    (s.Takes tr 0x30 → p.length ≤ 4092 →
      let k := max 1 ((p.length + 255) / 256)
      (s.bit Reg.HOSTP_APPCTL_EN = false ∨ s.dev.hostp.app ≠ none →
        Completes (.app tr tag p) s fun t => s.Refuses t tr tag 0x30 1) ∧
      (s.bit Reg.HOSTP_APPCTL_EN = true → s.dev.hostp.app = none → s.canAlloc poolHost k = true → k ≤ s.freeCells.length →
        Completes (.app tr tag p) s fun t =>
          let cells := t.chainFrom k (t.fld Reg.HOSTP_APPIN_CELL)
          t.bit Reg.HOSTP_APPIN_VALID = true ∧ t.fld Reg.HOSTP_APPIN_NCM1 = k - 1 ∧ t.fld Reg.HOSTP_APPIN_LENGTH = p.length ∧
          cells.length = k ∧ t.chainBytes cells p.length = p ∧ (∀ c ∈ cells, (s.cell c).owner = ownFree ∧ (t.cell c).owner = ownCore) ∧
          t.dev.hostp.app = some (tr, tag.toNat) ∧ t.dev.hostp.appIrq = true ∧ (t.port (trNum tr)).out = some (0x30, tag.toNat) ∧
          s.Within { onlyRegs (Reg.HOSTP_STAT :: Reg.HOSTP_APPIN :: (perfOf hostpPage ++ perfOf fbufPage)) with mem := cellMem } t)) ∧
    (s.Inv →
      (∀ v : Word,
        let cells := (s.chainFrom 16 (bitsGet v 26 18)).take (bitsGet v 30 27 + 1)
        let len := bitsGet v 12 0
        (s.bit Reg.HOSTP_APPIN_VALID = false →
          Completes (.appReply v) s fun t =>
            t.dev.hostp = s.dev.hostp ∧ t.bit (fltBit hostpPage fltState) = true ∧
            s.Within (onlyRegs (Reg.HOSTP_APPOUT :: evRegs hostpPage)) t) ∧
        (∀ w, s.dev.hostp.app = some w → w.1 = tr → trNum tr < 2 → (s.port (trNum tr)).reply = none →
          s.bit Reg.HOSTP_APPIN_VALID = true → 1 ≤ len → len ≤ 4092 → (∀ c ∈ cells, (s.cell c).owner = ownCore) →
          len ≤ 256 * cells.length → cells.Nodup →
          Completes (.appReply v) s fun t =>
            t.dev.hostp.app = none ∧ t.dev.hostp.appIrq = false ∧ (∀ c ∈ cells, (t.cell c).owner ≠ ownCore) ∧
            (t.port (trNum tr)).reply = some { frame := replyFrame 0x30 w.2 0 (s.chainBytes cells len) } ∧
            (t.port (trNum tr)).out = none ∧ t.bit Reg.HOSTP_APPIN_VALID = false ∧
            s.Within (onlyRegs [Reg.HOSTP_APPOUT, Reg.HOSTP_APPIN, Reg.HOSTP_STAT]) t)) ∧
      (s.dev.hostp.app = none → Completes .appTimeout s fun t => t.dev.hostp = s.dev.hostp ∧ s.Within {} t) ∧
      (∀ w, s.dev.hostp.app = some w → w.1 = tr → trNum tr < 2 → (s.port (trNum tr)).reply = none →
        Completes .appTimeout s fun t =>
          t.dev.hostp.app = none ∧ t.dev.hostp.appIrq = false ∧ t.dev.cells = s.dev.cells ∧
          (t.port (trNum tr)).reply = some { frame := replyFrame 0x30 w.2 6 [] } ∧ (t.port (trNum tr)).out = none ∧
          s.Sets t [(Reg.HOSTP_APPIN_VALID, 0)] [Reg.HOSTP_STAT]))

/-- The update engine: a release header's checks in their order, blocks, the image's check and the COMMIT mark; a crew sheet's
header, blocks and checks; another transport's work in progress gives BUSY (R397, R402–R406, R437). Log entries 67 and 68 say
what the command takes as one and what a second programming leaves. -/
def Obligations.UpdateEngine : Prop :=
  ∀ (tr : Tr) (tag : Byte) (p : List Byte) (s : State),
    let e := s.fld Reg.HOSTP_STAT_ENGINE
    let u := s.dev.hostp.upd
    let other := e ≠ 0 ∧ u.owner ≠ trNum tr
    let F : Foot := onlyRegs [Reg.HOSTP_STAT]
    let ext (lo n : Nat) : Foot := { F with mem := fun x => decide (0x30000000 + lo ≤ x ∧ x < 0x30000000 + lo + n) }
    let idle (t : State) : Prop := t.fld Reg.HOSTP_STAT_ENGINE = 0
    let erased (t : State) (lo n : Nat) (h : List Byte) : Prop :=
      (∀ i < h.length, t.byte (0x30000000 + lo + i) = octet h i) ∧
      ∀ i, h.length ≤ i → i < n → t.byte (0x30000000 + lo + i) = 0xFF
    let len := bundleLen p
    let whole := (0x10000 + len + 0xFFFF) / 0x10000 * 0x10000
    let blank (lo n : Nat) : Prop := ∀ i < n, s.byte (0x30000000 + lo + i) = 0xFF
    let off := numAt p 0 4
    let l := p.drop 4
    let put (t : State) (lo : Nat) : Prop := ∀ i < l.length, t.byte (0x30000000 + lo + i) = octet l i
    (s.Takes tr 0x40 → p.length = 128 →
      (other → Completes (.updateBegin tr tag p) s fun t => t.dev.hostp.upd = u ∧ s.Answers t tr tag 0x40 2 []) ∧
      (¬ other →
        (s.bundleOk p = false → Completes (.updateBegin tr tag p) s fun t => idle t ∧ s.Answers t tr tag 0x40 0x40 [] F) ∧
        (s.bundleOk p = true → s.hdrCmacOk 1 p = false →
          Completes (.updateBegin tr tag p) s fun t => idle t ∧ s.Answers t tr tag 0x40 0x20 [] F) ∧
        (s.bundleOk p = true → s.hdrCmacOk 1 p = true → bundleSvn p < s.arb →
          Completes (.updateBegin tr tag p) s fun t => idle t ∧ s.Answers t tr tag 0x40 0x42 [] F) ∧
        (s.bundleOk p = true → s.hdrCmacOk 1 p = true → s.arb ≤ bundleSvn p →
          Completes (.updateBegin tr tag p) s fun t =>
            t.fld Reg.HOSTP_STAT_ENGINE = 1 ∧ t.dev.hostp.upd = { owner := trNum tr, hdr := p } ∧
            erased t 0x100000 whole p ∧ s.Answers t tr tag 0x40 0 [] (ext 0x100000 whole)))) ∧
    (s.Takes tr 0x41 → 5 ≤ p.length → sizeOk 0x41 p.length (trNum tr == 2) = true →
      (other → Completes (.updateBlock tr tag p) s fun t => t.dev.hostp.upd = u ∧ s.Answers t tr tag 0x41 2 []) ∧
      (¬ other → e ≠ 1 → Completes (.updateBlock tr tag p) s fun t => s.Refuses t tr tag 0x41 1) ∧
      (¬ other → e = 1 → bundleLen u.hdr < off + l.length →
        Completes (.updateBlock tr tag p) s fun t => t.dev.hostp.upd = u ∧ s.Answers t tr tag 0x41 0x43 []) ∧
      (¬ other → e = 1 → off + l.length ≤ bundleLen u.hdr → blank (0x110000 + off) l.length →
        Completes (.updateBlock tr tag p) s fun t =>
          put t (0x110000 + off) ∧ t.fld Reg.HOSTP_STAT_ENGINE = 1 ∧ s.Answers t tr tag 0x41 0 [] (ext (0x110000 + off) l.length))) ∧
    (s.Takes tr 0x42 →
      let good := u.spoilt = false ∧ s.imgCmacOk 1 u.hdr (s.bytes 0x30110000 (bundleLen u.hdr)) = true
      (other → Completes (.updateEnd tr tag) s fun t => t.dev.hostp.upd = u ∧ s.Answers t tr tag 0x42 2 []) ∧
      (¬ other → e ≠ 1 → Completes (.updateEnd tr tag) s fun t => s.Refuses t tr tag 0x42 1) ∧
      (¬ other → e = 1 → good →
        Completes (.updateEnd tr tag) s fun t => t.fld Reg.HOSTP_STAT_ENGINE = 2 ∧ t.dev.hostp.upd = u ∧ s.Answers t tr tag 0x42 0 [] F) ∧
      (¬ other → e = 1 → ¬ good →
        Completes (.updateEnd tr tag) s fun t => idle t ∧ s.Answers t tr tag 0x42 0x41 [] F)) ∧
    (s.Takes tr 0x43 →
      (other → Completes (.updateCommit tr tag) s fun t => t.dev.hostp.upd = u ∧ s.Answers t tr tag 0x43 2 []) ∧
      (¬ other → e ≠ 2 → Completes (.updateCommit tr tag) s fun t => s.Refuses t tr tag 0x43 1) ∧
      (¬ other → e = 2 → blank 0x100080 16 → s.dev.hostp.reset = none →
        Completes (.updateCommit tr tag) s fun t =>
          t.bytes 0x30100080 4 = [0x43, 0x4D, 0x49, 0x54] ∧ t.bytes 0x30100084 12 = s.bytes 0x30100060 12 ∧ idle t ∧
          (∃ j, t.dev.hostp.reset = some { scope := 3, src := 3, job := j } ∧ (trNum tr < 2 → j = none)) ∧ s.Answers t tr tag 0x43 0 [] (ext 0x100080 16) [] true)) ∧
    (s.Takes tr 0x48 → p.length = 64 →
      let slot := 1 - s.fld Reg.SYS_BOOTINFO_SLOT
      (other → Completes (.configBegin tr tag p) s fun t => t.dev.hostp.upd = u ∧ s.Answers t tr tag 0x48 2 []) ∧
      (¬ other → (s.crewHeaderOk p = false ∨ crewSeq p ≤ (s.reg Reg.SYS_CREWSEQ).toNat) →
        Completes (.configBegin tr tag p) s fun t => idle t ∧ s.Answers t tr tag 0x48 0x40 [] F) ∧
      (¬ other → s.crewHeaderOk p = true → (s.reg Reg.SYS_CREWSEQ).toNat < crewSeq p →
        Completes (.configBegin tr tag p) s fun t =>
          t.fld Reg.HOSTP_STAT_ENGINE = 3 ∧ t.dev.hostp.upd = { owner := trNum tr, hdr := p, slot := slot } ∧
          erased t (0x10000 * slot) 0x10000 p ∧ s.Answers t tr tag 0x48 0 [] (ext (0x10000 * slot) 0x10000))) ∧
    (s.Takes tr 0x49 → 5 ≤ p.length → sizeOk 0x49 p.length (trNum tr == 2) = true →
      let inside := 64 ≤ off ∧ off + l.length ≤ crewLen u.hdr
      (other → Completes (.configBlock tr tag p) s fun t => t.dev.hostp.upd = u ∧ s.Answers t tr tag 0x49 2 []) ∧
      (¬ other → e ≠ 3 → Completes (.configBlock tr tag p) s fun t => s.Refuses t tr tag 0x49 1) ∧
      (¬ other → e = 3 → ¬ inside → Completes (.configBlock tr tag p) s fun t => t.dev.hostp.upd = u ∧ s.Answers t tr tag 0x49 0x43 []) ∧
      (¬ other → e = 3 → inside → blank (0x10000 * u.slot + off) l.length →
        Completes (.configBlock tr tag p) s fun t =>
          put t (0x10000 * u.slot + off) ∧ t.dev.hostp.upd = u ∧ s.Answers t tr tag 0x49 0 [] (ext (0x10000 * u.slot + off) l.length))) ∧
    (s.Takes tr 0x4A →
      (other → Completes (.configEnd tr tag) s fun t => t.dev.hostp.upd = u ∧ s.Answers t tr tag 0x4A 2 []) ∧
      (¬ other → e ≠ 3 → Completes (.configEnd tr tag) s fun t => s.Refuses t tr tag 0x4A 1) ∧
      (¬ other → e = 3 →
        Completes (.configEnd tr tag) s fun t => idle t ∧
          s.Answers t tr tag 0x4A (s.crewStatus 1 (s.bytes (0x30000000 + 0x10000 * u.slot) (crewLen u.hdr))) [] F))

/-- RESET by scope: its reply waits and the reset follows the reply, or its instant, or takes place at once where the node is not
synchronised or the instant has passed; the delay and the instant carry it out (R32, R39, R438). Log entry 60 says what each
reset keeps. -/
def Obligations.HostResets : Prop :=
  ∀ (tr : Tr) (tag : Byte) (at_ : Option (BitVec 48)) (s : State),
    let src := if flooded tr then 2 else 1
    let waits (scope : Nat) (t : State) : Prop :=
      (at_ = none → s.dev.hostp.reset = none →
        (∃ j, t.dev.hostp.reset = some { scope := scope, src := src, job := j } ∧ (trNum tr < 2 → j = none)) ∧
        s.Answers t tr tag 2 0 [] {} [] true) ∧
      (∀ i, at_ = some i → s.bit Reg.NTIME_STAT_SYNC = true → 0 < ntDelta i.toNat s.dev.time.ntime →
        t.dev.hostp.timed = some { scope := scope, src := src, instant := some i.toNat } ∧ s.Answers t tr tag 2 0 [])
    let later := at_ = none ∧ s.dev.hostp.reset = none ∨
      ∃ i, at_ = some i ∧ s.bit Reg.NTIME_STAT_SYNC = true ∧ 0 < ntDelta i.toNat s.dev.time.ntime
    let atOnce := ∃ i, at_ = some i ∧ (s.bit Reg.NTIME_STAT_SYNC = false ∨ ntDelta i.toNat s.dev.time.ntime ≤ 0)
    let link (t : State) : Prop := t.Cleared inLink (Reg.NTIME_STAT :: otpShown) ∧ t.fld Reg.LINK_STAT_MODE = 0 ∧
      (∀ a, cellMem a = true → t.byte a = 0) ∧ ∀ a, cellMem a = false → t.byte a = s.byte a
    let radio (t : State) : Prop := t.Cleared inRadio ([Reg.RCTL_STAT, Reg.TXP_CFG] ++ otpShown) ∧ t.radio = 0
    let start (n : Nat) (t : State) : Prop := s.StartReset t 3 ∧ t.fld Reg.SYS_RSTCAUSE_SOFTSRC = n
    (s.Takes tr 2 →
      (later → (Completes (.resetLinkRegion tr tag at_) s (waits 1)) ∧ (Completes (.resetRadioDie tr tag at_) s (waits 2)) ∧
        (Completes (.resetStart tr tag at_) s (waits 3))) ∧
      (atOnce →
        (trNum tr < 2 → s.dev.tx.jobs = [] →
          (Completes (.resetLinkRegion tr tag at_) s fun t => link t) ∧
          (Completes (.resetRadioDie tr tag at_) s fun t => radio t)) ∧
        (trNum tr < 2 → s.onAir = none → Completes (.resetStart tr tag at_) s (start src)))) ∧
    (s.Inv → s.onAir = none → s.dev.tx.jobs = [] →
      (s.dev.hostp.reset = none → Completes .resetDelayExpiry s fun t => t.dev.hostp = s.dev.hostp ∧ s.Within {} t) ∧
      (∀ r, s.dev.hostp.reset = some r →
        (r.scope = 1 → Completes .resetDelayExpiry s fun t => t.dev.hostp.reset = none ∧ link t) ∧
        (r.scope = 2 → Completes .resetDelayExpiry s fun t => t.dev.hostp.reset = none ∧ radio t) ∧
        (r.scope = 3 → Completes .resetDelayExpiry s (start r.src))) ∧
      (s.dev.hostp.timed = none → Completes .timedReset s fun t => t.dev.hostp = s.dev.hostp ∧ s.Within {} t) ∧
      (∀ r, s.dev.hostp.timed = some r →
        (r.scope = 1 → Completes .timedReset s fun t => t.dev.hostp.timed = none ∧ link t) ∧
        (r.scope = 2 → Completes .timedReset s fun t => t.dev.hostp.timed = none ∧ radio t) ∧
        (r.scope = 3 → Completes .timedReset s (start r.src))))

/-- ABORT of each target: what stops, what it leaves, its reply, record and FLT.ABORTED (R42, R82, R213, R290, R298, R391, R442,
R443). Log entry 62 says which clusters FLT.ABORTED is set in. -/
def Obligations.HostAborts : Prop :=
  ∀ (tr : Tr) (tag : Byte) (s : State), s.Hears tr →
    let lanesF : Foot := { regs := fun a => decide (a / 0x1000 * 0x1000 ∈ [lanesPage, rxfePage] ∨ a ∈ Reg.LINK_STAT :: perfOf linkPage) }
    let radioF : Foot := onPages [rctlPage, synthPage, rxfePage, lanesPage, linkPage]
    let wide : Foot := { regs := fun a => inLink a || inRadio a, mem := fun _ => true }
    let quiet := s.dev.tx.jobs = []
    let plain := s.onAir = none ∧ ∀ j ∈ s.dev.tx.jobs, j.kind ∈ [TxKind.ring, .host, .ack, .relay, .beacon, .mgmt]
    let stby (t : State) : Prop := s.bit Reg.RCTL_STAT_UCODE_OK = true ∨ s.radio ≠ 0 →
      if s.radio = 1 ∧ s.dev.radio.walk = none then t.radio = 1 ∧ t.bit Reg.RCTL_STAT_BUSY = false
      else (t.dev.radio.walk.map fun w => (w.next, w.goal)) = some (1, 1) ∧ t.fld Reg.RCTL_STAT_TARGET = 1 ∧ t.bit Reg.RCTL_STAT_BUSY = true
    let relays := s.dev.tx.jobs.filter fun j => j.kind == .relay && j.stage == .reserved
    (quiet → Completes (.abortTx tr tag) s fun t => stby t ∧ t.dev.tx.jobs = [] ∧ s.Aborts t tr tag 12 false [] radioF) ∧
    (¬ quiet → plain → trNum tr < 2 →
      Completes (.abortTx tr tag) s fun t => stby t ∧ t.dev.tx.jobs = [] ∧ s.Aborts t tr tag 12 true [linkPage, txpPage] wide) ∧
    (∀ n : Fin 4,
      let on := s.bit ⟨Reg.LANES_ENABLE, n.val, n.val⟩
      Completes (.abortLane tr tag n) s fun t =>
        t.bit ⟨Reg.LANES_ENABLE, n.val, n.val⟩ = false ∧ (t.lane n.val).frame = none ∧
        (s.holds n.val = true → t.laneState n.val = 0 ∧ t.fld (Reg.LANES_LAST_DROP n.val) = 9) ∧
        (∀ m < 4, m ≠ n.val → (t.lane m).frame = (s.lane m).frame ∧ t.laneState m = s.laneState m ∧
          t.bit ⟨Reg.LANES_ENABLE, m, m⟩ = s.bit ⟨Reg.LANES_ENABLE, m, m⟩) ∧
        s.Aborts t tr tag 2 on (if on then [lanesPage] else []) lanesF) ∧
    (quiet → Completes (.abortLanes tr tag) s fun t =>
      let on := decide (s.fld Reg.LANES_ENABLE_EN ≠ 0)
      t.fld Reg.LANES_ENABLE_EN = 0 ∧ (∀ n < 4, (t.lane n).frame = none) ∧ stby t ∧
      s.Aborts t tr tag 2 on (if on then [lanesPage] else []) radioF) ∧
    (Completes (.abortRelays tr tag) s fun t =>
      (∀ j ∈ t.dev.tx.jobs, ¬ (j.kind = .relay ∧ j.stage = .reserved)) ∧ (relays = [] → t.dev.tx = s.dev.tx) ∧
      t.ctr linkPage 4 2 = min 0xFFFFFFFF (s.ctr linkPage 4 2 + relays.length) ∧
      s.Aborts t tr tag 2 (relays != []) (if relays = [] then [] else [linkPage]) (onlyRegs (Reg.LINK_STAT :: perfOf linkPage))) ∧
    (∀ n : Fin 8, n.val = 0 → (∀ k < 4, (∀ f ∈ (s.lane k).mics, f.keyErr ≠ 0) ∧ ∀ f, (s.lane k).frame = some f → f.latched = false) → (∀ j ∈ s.dev.tx.jobs, j.stage ≠ .securing) →
      Completes (.abortCiph tr tag n) s fun t => s.Aborts t tr tag 1 false [] (onPages [ciphPage 0])) ∧
    (∀ n : Fin 8, n.val = 0 → (∃ k, k < 4 ∧ ∃ f ∈ (s.lane k).mics, f.keyErr = 0) → quiet → trNum tr < 2 →
      Completes (.abortCiph tr tag n) s fun t =>
        (∀ k < 4, (t.lane k).mics = (s.lane k).mics.filter fun f => f.keyErr != 0) ∧
        (∀ k < 4, ∀ f, (s.lane k).frame = some f → f.latched = true →
          (t.lane k).frame = some { f with key := [], keySlot := 64, keyErr := 4 }) ∧ s.Aborts t tr tag 1 true [ciphPage 0] wide) ∧
    (∀ n : Fin 8, 1 ≤ n.val →
      (s.ciph n.val).job = none → Completes (.abortCiph tr tag n) s fun t =>
        (3 ≤ n.val → t.reg (Reg.CIPH_OWNER n.val) = 0) ∧ s.Aborts t tr tag 1 false [] (onPages [ciphPage n.val])) ∧
    (∀ (n : Fin 8), 1 ≤ n.val → ∀ j, (s.ciph n.val).job = some j →
      Completes (.abortCiph tr tag n) s fun t =>
        (t.ciph n.val).job = none ∧ t.fld (Reg.CIPH_RESULT_STATUS n.val) = 7 ∧ t.bit (Reg.CIPH_RESULT_BUSY n.val) = false ∧
        t.Cleared (fun a => decide (ciphPage n.val + 0x800 ≤ a) && decide (a < ciphPage n.val + 0x1000)) [Reg.CIPH_RESULT n.val] ∧
        (3 ≤ n.val → t.reg (Reg.CIPH_OWNER n.val) = 0) ∧
        s.Aborts t tr tag 1 true [ciphPage n.val]
          { onPages [ciphPage n.val] with mem := fun a => decide (j.dst ≤ a ∧ a < j.dst + j.out.length) }) ∧
    (∀ n : Fin 8,
      (s.dmaOn n.val = false → Completes (.abortDma tr tag n) s fun t => t.dev.dma = s.dev.dma ∧ s.Aborts t tr tag 4 false [] {}) ∧
      (s.dmaOn n.val = true → Completes (.abortDma tr tag n) s fun t =>
        t.dmaOn n.val = false ∧ t.fld (Reg.DMA_STAT_STATUS n.val) = 7 ∧ (∀ m < 8, m ≠ n.val → t.dmaOn m = s.dmaOn m) ∧
        s.Aborts t tr tag 4 true [dmaPage] (onlyRegs [Reg.DMA_EN, Reg.DMA_STAT n.val]))) ∧
    (s.fld Reg.FLASHC_STAT_STATE ≠ 3 → Completes (.abortFlashProg tr tag) s fun t => s.Aborts t tr tag 80 false [] {}) ∧
    (∀ p, s.fld Reg.FLASHC_STAT_STATE = 3 → s.dev.flash.prog = some p → p.ended = false → p.was < 4 →
      Completes (.abortFlashProg tr tag) s fun t =>
        t.fld Reg.FLASHC_STAT_STATE = p.was ∧
        (s.core.pc = p.pc → t.dev.flash.prog = none ∧ t.g 0 = 7 ∧ t.g 1 = BitVec.ofNat 32 (16 * p.done) ∧
          t.g 2 = BitVec.ofNat 32 (p.dst + 16 * p.done) ∧ t.core.pc = p.back.1 &&& 0xFFFFFFFC ∧ t.core.st = p.back.2 &&& stMask) ∧
        (s.core.pc ≠ p.pc → t.dev.flash.prog = some { p with ended := true } ∧ t.core = s.core) ∧
        s.Aborts t tr tag 80 true [flashcPage] { onlyRegs [Reg.FLASHC_STAT] with mem := s.progMem, core := true }) ∧
    (s.eraseState ∉ [1, 2] → Completes (.abortFlashErase tr tag) s fun t =>
      t.dev.flash = s.dev.flash ∧ s.Aborts t tr tag 60 false [] {}) ∧
    (s.eraseState ∈ [1, 2] → Completes (.abortFlashErase tr tag) s fun t =>
      let u := s.fld Reg.FLASHC_STAT_UNIT
      (t.unit u).torn = true ∧ (t.unit u).reached = s.fld Reg.FLASHC_STAT_PULSES ∧ (∀ v ≠ u, t.unit v = s.unit v) ∧
      t.eraseState = 0 ∧ (s.fld Reg.FLASHC_STAT_STATE ≠ 3 → t.fld Reg.FLASHC_STAT_STATE = 0) ∧ t.fld Reg.FLASHC_STAT_LAST = 7 ∧
      s.Aborts t tr tag 60 true [flashcPage] (onlyRegs [Reg.FLASHC_STAT])) ∧
    (let acts := s.bit Reg.XSPI_STAT_BUSY || s.bit Reg.XSPI_STAT_POLLING
     Completes (.abortXspi tr tag) s fun t =>
      t.dev.xseq = none ∧ t.dev.xspi.lines = [] ∧ t.bit Reg.XSPI_STAT_BUSY = false ∧ t.bit Reg.XSPI_STAT_POLLING = false ∧
      (s.bit Reg.XSPI_STAT_BUSY = true → t.fld Reg.XSPI_STAT_STATUS = 7) ∧
      s.Aborts t tr tag 20 acts (if acts then [xspiPage] else []) (onlyRegs [Reg.XSPI_STAT])) ∧
    (s.dev.hostp.app = none → Completes (.abortCore tr tag) s fun t =>
      t.core.pc = 0 ∧ t.core.st = 0x801 ∧ t.core.vbase = 0 ∧ t.core.run = .run ∧ t.dev.sys.phase = .rom ∧ t.dev.sys.coreOnly = true ∧
      t.reg Reg.LINK_RXIDX = 0 ∧
      (∀ c < 512, t.cell c = if (s.cell c).owner = ownCore then
        (if (s.cell c).hold then { s.cell c with owner := ownLink } else {}) else s.cell c) ∧
      (∀ n, 3 ≤ n → n < 8 → s.fld (Reg.CIPH_OWNER_MASTER n) = 1 → t.reg (Reg.CIPH_OWNER n) = 0 ∧ (t.ciph n).job = none) ∧
      (s.fld Reg.FLASHC_STAT_STATE = 1 → t.dev.flash.orphan = true) ∧ t.dev.flash.prog = none ∧
      (s.dev.flash.prog = none → t.reg Reg.FLASHC_STAT = s.reg Reg.FLASHC_STAT) ∧
      s.Aborts t tr tag 20 true [intcPage]
        { mem := s.progMem, regs := fun a => decide (Reg.pageOf a ∈ intcPage :: (List.range 5).map fun k => ciphPage (k + 3)) || inPrivate a ||
            decide (a ∈ [Reg.SYS_RSTCAUSE, Reg.LINK_RXIDX, Reg.FLASHC_STAT]), core := true }) ∧
    (plain → trNum tr < 2 → Completes (.abortCox tr tag) s fun t =>
      t.fld Reg.LINK_STAT_MODE = 0 ∧ t.reg Reg.LINK_MODE = 0 ∧ t.dev.tx.jobs = [] ∧
      t.fld Reg.LINK_STAT_UCODE_OK = s.fld Reg.LINK_STAT_UCODE_OK ∧ (∀ i, t.word .cox i = s.word .cox i) ∧
      (t.bit (fltBit linkPage fltAborted) = true) ∧ t.core = s.core ∧ (∀ i, t.otpByte i = s.otpByte i)) ∧
    (Completes (.abortUpdate tr tag) s fun t =>
      let was := decide (s.fld Reg.HOSTP_STAT_ENGINE ≠ 0)
      t.fld Reg.HOSTP_STAT_ENGINE = 0 ∧ t.dev.hostp.upd = {} ∧
      s.Aborts t tr tag 100 was (if was then [hostpPage] else []) {}) ∧
    (plain → trNum tr < 2 → s.dev.hostp.app = none → Completes (.abortAll tr tag) s fun t =>
      t.dev.tx.jobs = [] ∧ t.fld Reg.LANES_ENABLE_EN = 0 ∧ (∀ n < 4, (t.lane n).frame = none) ∧ (∀ n < 8, t.dmaOn n = false) ∧
      (∀ n < 8, (t.ciph n).job = none) ∧ t.fld Reg.FLASHC_STAT_STATE = 0 ∧ t.dev.xseq = none ∧ t.core.pc = 0 ∧
      t.fld Reg.LINK_STAT_MODE = 0 ∧ t.fld Reg.HOSTP_STAT_ENGINE = 0 ∧ (∀ c < 512, (t.cell c).owner ≠ ownHost ∧ (t.cell c).owner ≠ ownCore) ∧
      t.dev.sys.phase = .rom ∧ (∀ i, t.otpByte i = s.otpByte i))

/-- Frames as octets: what a bad frame leads to; a frame that leaves a queue; SPI's status octets, READ, WRITE and unknown OPs;
the UART's gap (R420–R426, R435, R438, R446, R447). -/
def Obligations.HostTransports : Prop :=
  ∀ s : State, s.Inv →
    let on (tr : Tr) : Prop := s.trOn (trNum tr) = true ∧ s.portAwake = true
    let up (page item w : Nat) : Nat := min 0xFFFFFFFF (s.ctr page item w + 1)
    -- the first frame that waits at transport n has left
    let left (n : Nat) (t : State) : Prop :=
      let p := s.port n
      let q := t.port n
      (p.aborts ≠ [] → q.aborts = p.aborts.drop 1 ∧ q.reply = p.reply ∧ q.refusal = p.refusal) ∧
      (p.aborts = [] → ∀ r, p.reply = some r → r.reset = false →
        q.reply = p.held ∧ q.held = none ∧ q.refusal = p.refusal ∧ (p.held ≠ none → q.out = none) ∧
        ∀ c ∈ r.cells, (t.cell c).owner ≠ ownHost) ∧
      (p.aborts = [] → p.reply = none → p.refusal ≠ none → q.refusal = none ∧ t.dev.hostp.txdone = s.dev.hostp.txdone) ∧
      (p.aborts = [] → p.reply = none → p.refusal = none → s.fld Reg.HOSTP_CFG_NOTE = n + 1 →
        if s.dev.hostp.rxNote = true then t.dev.hostp.rxNote = false ∧ t.dev.hostp.txdone = s.dev.hostp.txdone
        else t.dev.hostp.txdone = s.dev.hostp.txdone.drop 16)
    let spi := s.port 0
    let frames := s.waiting 0
    let head : List Byte :=
      leBytes 1 ((if frames = [] then 0 else 1) + 2 * (if spi.out = none then 0 else 1) + 4 * (if s.dev.sys.phase = .dead then 1 else 0) +
        8 * (if spi.dropped = true then 1 else 0)) ++ [0] ++ leBytes 2 (frames.headD []).length
    let live := s.dev.pwr.state ≠ .easy ∧ s.dev.pwr.state ≠ .rest ∧ s.bit Reg.HOSTP_CFG_SPIEN = true
    let spiF := [Reg.SPIH_STAT, Reg.HOSTP_STAT] ++ perfOf pwrPage
    (∀ (tr : Tr) (code tag : Byte),
      (¬ on tr →
        (Completes (.hostFrameTooLong tr code tag) s fun t => t.dev.hostp = s.dev.hostp ∧ s.Within {} t) ∧
        (Completes (.hostFrameShort tr code tag) s fun t => t.dev.hostp = s.dev.hostp ∧ s.Within {} t) ∧
        (Completes (.hostFrameCrcFail tr) s fun t => t.dev.hostp = s.dev.hostp ∧ s.Within {} t)) ∧
      (on tr →
        (Completes (.hostFrameTooLong tr code tag) s fun t =>
          s.Refuses t tr tag code.toNat 4 ∧ t.ctr hostpPage 2 0 = up hostpPage 2 0) ∧
        (Completes (.hostFrameShort tr code tag) s fun t =>
          s.Refuses t tr tag code.toNat 4 ∧ t.ctr hostpPage 2 0 = up hostpPage 2 0) ∧
        (Completes (.hostFrameCrcFail tr) s fun t =>
          t.dev.hostp = s.dev.hostp ∧ t.ctr hostpPage 1 3 = up hostpPage 1 3 ∧ s.Within {} t))) ∧
    (Completes .uartGapTimeout s fun t =>
      t.dev.hostp = { s.dev.hostp with buf := [], esc := false, isOpen := false } ∧ s.Within {} t) ∧
    (¬ (s.portAwake = true ∧ s.bit Reg.HOSTP_CFG_UARTEN = true) →
      Completes .hostUartFrameSent s fun t => t.dev.hostp = s.dev.hostp ∧ s.Within {} t) ∧
    (s.portAwake = true → s.bit Reg.HOSTP_CFG_UARTEN = true →
      (∀ r, (s.port 1).reply = some r → r.reset = false) →
      Completes .hostUartFrameSent s fun t => left 1 t ∧ s.Within (onlyRegs [Reg.HOSTP_STAT]) t) ∧
    (s.dev.pwr.state = .easy →
      Completes (.spiPoll true) s fun t =>
        t.events = s.events ++ [0x18] ∧ t.dev.pwr.wake.testBit 11 = true ∧ t.dev.hostp = s.dev.hostp ∧ s.Within (onlyRegs (perfOf pwrPage)) t) ∧
    (s.dev.pwr.state = .rest → s.bit Reg.HOSTP_CFG_SPIEN = true → s.dev.rigger.held = [] →
      Completes (.spiPoll true) s fun t =>
        t.dev.hostp = s.dev.hostp ∧ t.ctr spihPage 1 1 = up spihPage 1 1 ∧ (t.reg Reg.SPIH_EVT).toNat.testBit 0 = true) ∧
    (live → ∀ early : Bool,
      (Completes (.spiPoll early) s fun t =>
        t.dev.hostp.miso = head ∧ (t.port 0).dropped = false ∧ t.ctr spihPage 1 0 = up spihPage 1 0 ∧ t.fld Reg.SPIH_STAT_OP = 0 ∧
        t.events = s.events ++ [0x18] ∧ s.Within (onlyRegs spiF) t) ∧
      (∀ n : Nat, frames = [] →
        Completes (.spiRead n early) s fun t =>
          t.dev.hostp.miso = head ++ List.replicate n 0 ∧ t.fld Reg.SPIH_STAT_OP = 2 ∧ s.Within (onlyRegs spiF) t) ∧
      (∀ (n : Nat) f rest, frames = f :: rest →
        (n < f.length → Completes (.spiRead n early) s fun t =>
          t.dev.hostp.miso = head ++ f.take n ∧ t.waiting 0 = frames ∧ (t.reg Reg.SPIH_EVT).toNat.testBit 2 = true ∧
          t.ctr spihPage 1 3 = up spihPage 1 3 ∧ s.Within (onlyRegs (Reg.SPIH_EVT :: spiF)) t) ∧
        (f.length ≤ n → (∀ r, spi.reply = some r → r.reset = false) → Completes (.spiRead n early) s fun t =>
          t.dev.hostp.miso = head ++ f ++ List.replicate (n - f.length) 0 ∧ left 0 t ∧ s.Within (onlyRegs spiF) t)) ∧
      (∀ l : List Byte, l.length < 4 ∨ 4096 < numAt l 2 2 ∨ l.length < 6 + numAt l 2 2 →
        Completes (.spiWrite l early) s fun t =>
          t.ctr hostpPage 2 0 = up hostpPage 2 0 ∧
          (t.port 0).refusal = some (spi.refusal.getD (replyFrame (numAt l 0 1) (numAt l 1 1) 4 [])) ∧
          t.fld Reg.SPIH_STAT_OP = 1 ∧ s.Within (onlyRegs spiF) t) ∧
      (∀ l : List Byte, numAt l 2 2 ≤ 4096 → 6 + numAt l 2 2 ≤ l.length →
        numAt l (4 + numAt l 2 2) 2 ≠ crc16 0xFFFF (l.take (4 + numAt l 2 2)) →
        Completes (.spiWrite l early) s fun t =>
          t.ctr hostpPage 1 3 = up hostpPage 1 3 ∧ (t.port 0).reply = spi.reply ∧ (t.port 0).refusal = spi.refusal ∧
          (6 + numAt l 2 2 < l.length → (t.reg Reg.SPIH_EVT).toNat.testBit 3 = true) ∧ s.Within (onlyRegs (Reg.SPIH_EVT :: spiF)) t) ∧
      (∀ tag : Byte, spi.out = none → spi.reply = none →
        Completes (.spiWrite (hostFrame 1 tag.toNat []) early) s fun t =>
          (t.port 0).reply = some { frame := replyFrame 1 tag.toNat 0 s.statusData } ∧ (t.port 0).out = none ∧
          t.ctr hostpPage 1 0 = up hostpPage 1 0 ∧ s.Within (onlyRegs (spiF ++ perfOf hostpPage)) t)) ∧
    (∀ op : Byte, op.toNat ≤ 2 → Completes (.spiUnknownOp op) s fun t => t.dev.hostp = s.dev.hostp ∧ s.Within {} t) ∧
    (live → ∀ op : Byte, 2 < op.toNat → Completes (.spiUnknownOp op) s fun t =>
      (t.reg Reg.SPIH_EVT).toNat.testBit 1 = true ∧ t.ctr spihPage 1 2 = up spihPage 1 2 ∧ (t.port 0).reply = spi.reply ∧
      s.Within (onlyRegs (Reg.SPIH_EVT :: spiF)) t)

/-! ### Statistics, the logbook, the monitor -/

/-- A heat's end and its request; the tally unit's snapshots and buffer (R450–R463, R477, R478). Log entry 45 says how a snapshot
counts. Committing to the logbook: nothing to commit, one record into a blank slot, the supply, a slot that fails, a busy
flash; a USER record and its checks; the staging buffer's pop (R464–R469, R480). -/
def Obligations.HeatsAndLogbook : Prop :=
  (∀ s : State, s.Inv →
    let v := s.fld Reg.GOV_LEVEL_VSTORE
    let en := s.en tallyPage = true
    let busy := s.bit Reg.TALLY_STAT_BUSY = true
    let n := s.tallyPages.length
    let base := 16 * s.fld Reg.TALLY_BASE_BASE + s.fld Reg.TALLY_STAT_WR * (16 + 16 * n)
    (Completes .heatEnd s fun t =>
      (∀ e < 32, t.statShadow e = s.statLive e) ∧ (∀ e, 2 ≤ e → e < 24 → t.statLive e = 0) ∧ t.statLive 1 = 0 ∧
      t.statLive 0 = (s.statLive 0 + 1) % 2 ^ 32 ∧ t.ctr govPage 1 0 = v ∧ t.ctr govPage 1 1 = v ∧
      (∀ item w, item < 0x1000 → w < 4 → t.ctr hostpPage item w = 0 ∧ t.ctr linkPage item w = 0 ∧ t.ctr lanesPage item w = s.ctr lanesPage item w) ∧
      t.dev.heat = { start := s.dev.time.ao } ∧ t.events = s.events ++ [0x59] ∧
      s.Sets t [(⟨Reg.STATS_HEAT, 31, 0⟩, (s.reg Reg.STATS_HEAT + 1).toNat), (Reg.STATS_STAT_HEATF, 1)] (perfOf statsPage)) ∧
    (Completes .heatEndRequest s fun t => t.dev.heat = { s.dev.heat with req := true } ∧ s.Within {} t) ∧
    (¬ en → Completes .tallySnapshot s fun t => t.dev.tally = s.dev.tally ∧ s.Within {} t) ∧
    (en → ¬ busy → Completes .tallySnapshot s fun t =>
      t.dev.tally = { s.dev.tally with
        seq := s.dev.tally.seq + 1
        snap := leBytes 4 s.dev.tally.seq ++ leBytes 4 s.dev.time.ao ++
          leBytes 4 (if s.bit Reg.NTIME_STAT_SYNC = true then s.dev.time.ntime else 0) ++ leBytes 4 n ++
          s.tallyPages.flatMap fun p => (List.range 4).flatMap fun k => leBytes 4 (s.reg (Reg.PERF_CNT p k)).toNat } ∧
      s.Sets t [(Reg.TALLY_STAT_BUSY, 1)]) ∧
    (¬ busy → Completes .tallySnapshotDone s fun t => t.dev.tally = s.dev.tally ∧ s.Within {} t) ∧
    (busy → Completes .tallySnapshotDone s fun t =>
      (∀ i < s.dev.tally.snap.length, t.byte (base + i) = octet s.dev.tally.snap i) ∧ t.dev.tally.snap = [] ∧
      s.Sets t [(Reg.TALLY_STAT_BUSY, 0), (Reg.TALLY_STAT_WR, (s.fld Reg.TALLY_STAT_WR + 1) % (s.fld Reg.TALLY_DEPTH_DEPTH + 1))] []
        { mem := fun a => decide (base ≤ a ∧ a < base + s.dev.tally.snap.length) }) ∧
    Completes .tallyBufferClear s fun t =>
      t.Cleared (fun a => decide (Reg.TALLY_BUF 0 0 ≤ a) && decide (a < Reg.TALLY_BUF 64 0)) [] ∧ t.fld Reg.TALLY_BUFSTAT_N = 0 ∧
      t.bit Reg.TALLY_BUFSTAT_FULL = false ∧ t.dev.tally.next = 0 ∧
      s.Within { regs := fun a => decide (Reg.TALLY_BUF 0 0 ≤ a ∧ a < Reg.TALLY_BUF 64 0 ∨ a = Reg.TALLY_BUFSTAT) } t) ∧
  (∀ (vsys : Nat) (s : State),
    let q := s.logSeq
    let slot := 0x0100C000 + 64 * (q % 256)
    let stat := s.fld Reg.FLASHC_STAT_STATE
    let there : Nat → Bool := fun a => decide (slot ≤ a ∧ a < slot + 64)
    let sealed (r : List Byte) (l : List Byte) : Prop :=
      l.take 60 = r.take 4 ++ leBytes 4 q ++ (r.drop 8).take 52 ∧ leNat (l.drop 60) = crc32 (l.take 60)
    (s.Serves 0xF010 → (stat = 1 ∨ stat = 3) → ∀ f,
      (Completes (.logCommit vsys f) s fun t => t.g 0 = 2 ∧ t.g 1 = 0 ∧ t.dev.staged = s.dev.staged ∧ s.Within { core := true } t)) ∧
    (s.Serves 0xF010 → stat ≠ 1 → stat ≠ 3 → s.fld Reg.LOGB_STAT_DROPPED = 0 →
      (s.dev.staged = [] → ∀ f, Completes (.logCommit vsys f) s fun t => t.g 0 = 0 ∧ t.g 1 = 0 ∧ s.Within { core := true } t) ∧
      (∀ r, s.dev.staged = [r] → r.length = 64 →
        (vsys < 2800 → (stat = 2 → q % 64 ≠ 0) → ∀ f, Completes (.logCommit vsys f) s fun t =>
          t.g 0 = 0x30 ∧ t.g 1 = 0 ∧ t.dev.staged = [r] ∧ s.Within { core := true } t) ∧
        (2800 ≤ vsys → q % 64 ≠ 0 → s.fld Reg.LOGB_STAT_COUNT = 1 →
          (Completes (.logCommit vsys none) s fun t =>
            t.dev.staged = [] ∧ t.fld Reg.LOGB_STAT_COUNT = 0 ∧ sealed r (t.bytes slot 64) ∧
            s.Served t [(0, 0), (1, 1), (2, q % 2 ^ 32)] { onlyRegs [Reg.LOGB_STAT] with mem := there }) ∧
          (Completes (.logCommit vsys (some 0)) s fun t =>
            t.g 0 = 0x33 ∧ t.g 1 = 0 ∧ t.dev.staged = [r] ∧ s.Within { mem := there, core := true } t)))) ∧
    (s.Serves 0xF011 →
      let src := (s.g 2).toNat
      let type := bitsGet (s.g 1) 7 0
      (type < 0x80 ∨ src < 0x20000000 ∨ 0x20080000 < src + 40 → ∀ f,
        Completes (.logAppend vsys f) s fun t => t.g 0 = 3 ∧ t.g 1 = 0 ∧ t.dev.staged = s.dev.staged ∧ s.Within { core := true } t) ∧
      (0x80 ≤ type → 0x20000000 ≤ src → src + 40 ≤ 0x20080000 → s.callerTask = false → stat ≠ 1 → stat ≠ 3 → 2800 ≤ vsys →
        q % 64 ≠ 0 → s.dev.staged = [] → s.fld Reg.LOGB_STAT_DROPPED = 0 →
        Completes (.logAppend vsys none) s fun t =>
          (t.bytes slot 64).take 4 = [0x4C, 0x47, BitVec.ofNat 8 type, BitVec.ofNat 8 (2 * s.fld Reg.RTC_STAT_TIME_VALID)] ∧
          t.bytes (slot + 4) 4 = leBytes 4 q ∧ t.bytes (slot + 8) 4 = leBytes 4 (s.reg Reg.RTC_SECONDS).toNat ∧
          t.byte (slot + 15) = BitVec.ofNat 8 (bitsGet (s.g 1) 15 8) ∧ t.bytes (slot + 20) 40 = s.bytes src 40 ∧
          leNat (t.bytes (slot + 60) 4) = crc32 (t.bytes slot 60) ∧ s.Served t [(0, 0), (1, 1), (2, q % 2 ^ 32)] { mem := there })) ∧
    (s.Inv → ∀ m : Master,
      (m = .core true → Completes (.logPop m) s fun t =>
        t.dev.staged = s.dev.staged.drop 1 ∧ s.Sets t [(Reg.LOGB_STAT_COUNT, s.dev.staged.length - 1)]) ∧
      (m ≠ .core true → Completes (.logPop m) s fun t => t.dev.staged = s.dev.staged ∧ s.Reports t logbPage fltState)))

/-- R460: where the ring does not lie wholly in main SRAM, enabling TALLY leaves CTRL.EN at 0 and sets FLT.STATE; a trigger
during a snapshot becomes pending, a further one is dropped and counted. -/
def Obligations.TallyLimits : Prop :=
  ∀ s : State, s.Inv →
    let en := s.en tallyPage = true
    let busy := s.bit Reg.TALLY_STAT_BUSY = true
    let waits := s.dev.rigger.pend.any fun p => p.1 == 0x94
    let base := 16 * s.fld Reg.TALLY_BASE_BASE
    let size := (s.fld Reg.TALLY_DEPTH_DEPTH + 1) * (16 + 16 * s.tallyPages.length)
    (∀ (m : Master) (v : Word), s.powered tallyPage = true → ¬ en → v &&& 3 = 1 → s.parityCommon tallyPage = false →
      (base < 0x20000000 ∨ 0x20080000 < base + size) →
      Completes (.registerWrite m .word (BitVec.ofNat 32 (Reg.CTRL tallyPage)) v) s fun t =>
        t.bit (Reg.CTRL_EN tallyPage) = false ∧ t.bit (fltBit tallyPage fltState) = true ∧
        s.Within (onlyRegs (Reg.CTRL tallyPage :: evRegs tallyPage)) t) ∧
    (en → busy → waits = false → Completes .tallySnapshot s fun t =>
      t.dev.rigger.pend = s.dev.rigger.pend ++ [(0x94, 64)] ∧ t.dev.tally = s.dev.tally ∧ s.Within {} t) ∧
    (en → busy → waits = true → Completes .tallySnapshot s fun t =>
      t.dev.rigger.pend = s.dev.rigger.pend ∧ t.dev.tally = s.dev.tally ∧
      s.Sets t [(Reg.TALLY_STAT_OVERRUN, min 255 (s.fld Reg.TALLY_STAT_OVERRUN + 1))])

/-- Where the monitor takes no command lines: closed, nothing happens; in the unlock exchange they answer STATE. The exchange:
the challenge, a right response, a wrong one, its time limit; the baud rate (R388, R411, R471, R472, R476). The command lines
of the open monitor: words and octets read, written and filled in main SRAM, hex records, the program run and stepped,
comparators, saved registers, the flash service and the logbook (R411, R471–R475, R482). What a line looks like is left out:
log entry 75. -/
def Obligations.Monitor : Prop :=
  (∀ s : State, s.Inv →
    let locked := s.monLocked = true
    (∀ c : Instr, monRow c = true → s.monOpen = false →
      (¬ locked → Completes c s fun t => t.dev.mon = s.dev.mon ∧ s.Within {} t) ∧
      (locked → Completes c s fun t => s.Shows t 1 [])) ∧
    (∀ (l : List Byte) (cycles : List Word),
      let right := s.sealedCmac 0 2 ([0x55, 0x4E, 0x4C, 0x4B] ++ s.dev.mon.challenge ++ s.otpExt) = some l
      let staged (t : State) : Prop := s.dev.staged.length < 4 → t.dev.staged.length = s.dev.staged.length + 1
      (¬ locked → Completes (.monUnlock l cycles) s fun t => t.dev.mon = s.dev.mon ∧ s.Within {} t) ∧
      (locked → l = [] → Completes (.monUnlock l cycles) s fun t => s.Shows t 0 (s.dev.mon.challenge ++ s.otpExt)) ∧
      (locked → l ≠ [] → right → Completes (.monUnlock l cycles) s fun t =>
        t.monOpen = true ∧ t.dev.mon.tries = s.dev.mon.tries + 1 ∧ staged t ∧
        (s.dev.sys.phase = .unlock → t.dev.sys.phase = .monitor ∧ t.bit Reg.BP_MON_ROUTE = true) ∧
        s.Shows t 0 [] (onlyRegs (Reg.BP_MON :: Reg.LOGB_STAT :: evRegs logbPage))) ∧
      (locked → l ≠ [] → ¬ right → s.dev.mon.tries < 2 → Completes (.monUnlock l cycles) s fun t =>
        t.monLocked = true ∧ t.dev.mon.tries = s.dev.mon.tries + 1 ∧ t.dev.mon.challenge.length = 16 ∧ staged t ∧
        s.Shows t 0x20 [] (onlyRegs (Reg.LOGB_STAT :: evRegs logbPage)))) ∧
    (¬ locked → Completes .unlockTimeout s fun t => t.dev.mon = s.dev.mon ∧ s.Within {} t) ∧
    (locked → s.dev.sys.phase = .dead → Completes .unlockTimeout s fun t => t.monLocked = false ∧ s.Within {} t) ∧
    (locked → s.dev.sys.phase = .unlock → s.crewHeaderOk (s.sheet 0 64) = false → s.crewHeaderOk (s.sheet 1 64) = false →
      Completes .unlockTimeout s fun t => t.dev.sys.phase = .dead ∧ t.fld Reg.SYS_RSTCAUSE_DEADRSN = 1) ∧
    ∀ baud : Nat, Completes (.monBaudDetect baud) s fun t =>
      t.dev.mon.baud = (if (s.monOpen = true ∨ locked) ∧ 9600 ≤ baud ∧ baud ≤ 921600 then baud else s.dev.mon.baud) ∧
      s.Within {} t) ∧
  (∀ s : State, s.Inv → s.monOpen = true →
    let dead := s.dev.sys.phase = .dead
    let sram (a : Word) (n : Nat) : Prop := 0x20000000 ≤ a.toNat ∧ a.toNat + n ≤ 0x20080000 ∧ s.dev.eccBad = [] ∧ s.dev.eccOne = []
    let mine (a : Word) (n : Nat) : Prop := 0x20000000 ≤ a.toNat ∧ a.toNat + n ≤ 0x2007F000 ∧ s.dev.eccBad = [] ∧ s.dev.eccOne = []
    let at_ (a : Word) (n : Nat) : Foot := { mem := fun x => decide (a.toNat ≤ x ∧ x < a.toNat + n) }
    (∀ (a : Word) (n : Nat),
      (a.toNat % 4 ≠ 0 ∨ n = 0 ∨ 64 < n → Completes (.monRd a n) s fun t => s.Shows t 3 []) ∧
      (a.toNat % 4 = 0 → 1 ≤ n → n ≤ 64 → sram a (4 * n) →
        Completes (.monRd a n) s fun t => s.Shows t 0 (s.bytes a.toNat (4 * n))) ∧
      (n = 0 ∨ 4096 < n → Completes (.monDump a n) s fun t => s.Shows t 3 []) ∧
      (1 ≤ n → n ≤ 4096 → sram a n → Completes (.monDump a n) s fun t => s.Shows t 0 (s.bytes a.toNat n)) ∧
      ∀ v : Word,
        (a.toNat % 4 ≠ 0 ∨ monOwn a.toNat 4 = true → Completes (.monWr a v) s fun t => s.Shows t 3 []) ∧
        (a.toNat % 4 = 0 → mine a 4 → Completes (.monWr a v) s fun t => t.memWord a.toNat = v ∧ s.Shows t 0 [] (at_ a 4)) ∧
        (a.toNat % 4 ≠ 0 ∨ n = 0 ∨ 65535 < n ∨ monOwn a.toNat (4 * n) = true →
          Completes (.monFill a n v) s fun t => s.Shows t 3 []) ∧
        (a.toNat % 4 = 0 → 1 ≤ n → n ≤ 65535 → mine a (4 * n) → Completes (.monFill a n v) s fun t =>
          (∀ i < n, t.memWord (a.toNat + 4 * i) = v) ∧ s.Shows t 0 [] (at_ a (4 * n)))) ∧
    (Completes .monLoad s fun t => t.dev.mon.load = true ∧ s.Shows t 0 []) ∧
    (∀ (a : Word) (l : List Byte) (sum : Byte),
      let good := (((leBytes 4 a.toNat ++ l).foldl (fun x b => x + b.toNat) 0) + sum.toNat) % 256 = 0
      (s.dev.mon.load = false → Completes (.hexRecord a l sum) s fun t => t.dev.mon = s.dev.mon ∧ s.Within {} t) ∧
      (s.dev.mon.load = true → ¬ good ∨ 64 < l.length → Completes (.hexRecord a l sum) s fun t => s.Shows t 3 []) ∧
      (s.dev.mon.load = true → good → l = [] → Completes (.hexRecord a l sum) s fun t => t.dev.mon.load = false ∧ s.Shows t 0 []) ∧
      (s.dev.mon.load = true → good → 1 ≤ l.length → l.length ≤ 64 → mine a l.length → Completes (.hexRecord a l sum) s fun t =>
        (∀ i < l.length, t.byte (a.toNat + i) = octet l i) ∧ t.dev.mon.load = true ∧ s.Shows t 0 [] (at_ a l.length))) ∧
    (∀ (a : Word) (n : Nat),
      (dead → (Completes (.monGo a) s fun t => s.Shows t 1 []) ∧ (1 ≤ n → n ≤ 256 → Completes (.monStep n) s fun t => s.Shows t 1 [])) ∧
      (n = 0 ∨ 256 < n → Completes (.monStep n) s fun t => s.Shows t 3 []) ∧
      (¬ dead → Completes (.monGo a) s fun t =>
        t.dev.sys.phase = .firmware ∧ t.core = { s.core with pc := a &&& 0xFFFFFFFC, st := s.dev.mon.st &&& stMask, slot := none, run := .run } ∧
        t.bit Reg.BP_STEP_STEP = false ∧ s.Shows t 0 [] { onlyRegs [Reg.BP_STEP] with core := true }) ∧
      (¬ dead → 1 ≤ n → n ≤ 256 → Completes (.monStep n) s fun t =>
        t.dev.sys.phase = .firmware ∧ t.core.pc = s.dev.mon.pc &&& 0xFFFFFFFC ∧ bitOf t.core.st.toNat 7 = false ∧
        t.dev.mon.steps = n ∧ t.bit Reg.BP_STEP_STEP = true ∧ s.Shows t 0 [] { onlyRegs [Reg.BP_STEP] with core := true })) ∧
    (∀ (n : Nat) (a : Word) (kind mask : Nat),
      (4 ≤ n ∨ 4 ≤ kind ∨ 32 ≤ mask → Completes (.monBp n a kind mask) s fun t => s.Shows t 3 []) ∧
      (n < 4 → kind < 4 → mask < 32 → Completes (.monBp n a kind mask) s fun t =>
        t.reg (Reg.BP_ADDR n) = a &&& BitVec.ofNat 32 (Reg.maskOf (Reg.BP_ADDR n)) ∧
        t.fld (Reg.BP_CTL_MASK n) = mask ∧ t.fld (Reg.BP_CTL_KIND n) = kind ∧ t.bit (Reg.BP_CTL_EN n) = true ∧
        s.Shows t 0 [] (onlyRegs [Reg.BP_ADDR n, Reg.BP_CTL n])) ∧
      (4 ≤ n → Completes (.monBpc n) s fun t => s.Shows t 3 []) ∧
      (n < 4 → Completes (.monBpc n) s fun t => t.reg (Reg.BP_CTL n) = 0 ∧ s.Shows t 0 [] (onlyRegs [Reg.BP_CTL n]))) ∧
    (Completes .monRegs s fun t => s.Shows t 0 (((List.range 16).map s.g ++
      [s.dev.mon.pc, s.dev.mon.st, s.core.xpc, s.core.xst, s.core.xcause, s.core.faddr]).flatMap fun w => leBytes 4 w.toNat)) ∧
    (∀ (r : Fin 22) (v : Word), Completes (.monSet r v) s fun t =>
      (∀ k < 16, t.g k = if k = r.val then v else s.g k) ∧
      t.dev.mon.pc = (if r.val = 16 then v &&& 0xFFFFFFFC else s.dev.mon.pc) ∧
      t.dev.mon.st = (if r.val = 17 then v &&& stMask else s.dev.mon.st) ∧
      t.core.xpc = (if r.val = 18 then v else s.core.xpc) ∧ t.core.xst = (if r.val = 19 then v else s.core.xst) ∧
      t.core.xcause = (if r.val = 20 then v else s.core.xcause) ∧ t.core.faddr = (if r.val = 21 then v else s.core.faddr) ∧
      t.core.pc = s.core.pc ∧ t.core.st = s.core.st ∧ s.Shows t 0 [] { core := true }) ∧
    (s.dev.flash.owed = none → ∀ (a1 a2 a3 : Word) (vsys : Nat),
      (a1.toNat % 16 ≠ 0 → Completes (.monFlash 0 a1 a2 a3 vsys) s fun t => s.Shows t 3 (leBytes 4 3 ++ leBytes 4 0 ++ leBytes 4 0)) ∧
      (a1.toNat ≠ unitBase (unitOf a1.toNat) → Completes (.monFlash 1 a1 a2 a3 vsys) s fun t => s.Shows t 3 (leBytes 4 3)) ∧
      (Completes (.monFlash 2 a1 a2 a3 vsys) s fun t => s.Shows t 0
        (leBytes 4 (s.fld Reg.FLASHC_STAT_LAST) ++ leBytes 4 (s.fld Reg.FLASHC_STAT_STATE) ++ leBytes 4 (s.fld Reg.FLASHC_STAT_UNIT) ++
          leBytes 4 (s.fld Reg.FLASHC_STAT_PULSES))) ∧
      (79 ≤ a1.toNat → Completes (.monFlash 3 a1 a2 a3 vsys) s fun t => s.Shows t 3 (leBytes 4 3)) ∧
      (a1.toNat < 79 → Completes (.monFlash 3 a1 a2 a3 vsys) s fun t => s.Shows t 0
        (leBytes 4 0 ++ leBytes 4 (s.unit a1.toNat).count ++ leBytes 4 ((s.unit a1.toNat).pulses +
          (if (s.unit a1.toNat).torn = true then 2 ^ 30 else 0) + if a1.toNat ∈ s.bad then 2 ^ 31 else 0)))) ∧
    ∀ (seq : Word) (n : Nat),
      (n = 0 ∨ 63 < n → Completes (.monLog seq n) s fun t => s.Shows t 3 []) ∧
      (1 ≤ n → n ≤ 63 → Completes (.monLog seq n) s fun t => s.Shows t 0 ((s.logFrom seq.toNat n).flatMap id)))

/-! ### Interfaces -/

/-- DALI: a send's start and what refuses it, settling, the frame's end and its second copy, the reply window, a collision, the
bus failing and idle again, a foreign frame; the meter (R483–R487, R490, R499). -/
def Obligations.DaliAndMeter : Prop :=
  ∀ s : State, s.Inv →
    let d := s.dev.dali
    let on := s.en daliPage = true
    let busy := s.bit Reg.DALI_STAT_BUSY = true
    let twice := bitOf d.frame.toNat 29
    let asks := bitOf d.frame.toNat 30
    (∀ v : Word,
      let w := bitsPut v 31 31 0 &&& BitVec.ofNat 32 (Reg.maskOf Reg.DALI_FWD)
      (busy → Completes (.daliSend v) s fun t => t.dev.dali = d ∧ s.Reports t daliPage fltState) ∧
      (¬ busy → ¬ on → Completes (.daliSend v) s fun t => t.reg Reg.DALI_FWD = w ∧ t.dev.dali = d ∧ s.Within (onlyRegs [Reg.DALI_FWD]) t) ∧
      (¬ busy → on → bitOf w.toNat 29 = true → bitOf w.toNat 30 = true →
        Completes (.daliSend v) s fun t => t.reg Reg.DALI_FWD = w ∧ t.dev.dali = d ∧ s.Sets t [(Reg.DALI_STAT_STATUS, 3)] [Reg.DALI_FWD]) ∧
      (¬ busy → on → bitOf w.toNat 29 = false ∨ bitOf w.toNat 30 = false →
        (s.bit Reg.DALI_STAT_BUSFAIL = true →
          Completes (.daliSend v) s fun t => t.dev.dali = d ∧ s.Sets t [(Reg.DALI_STAT_STATUS, 1)] [Reg.DALI_FWD]) ∧
        (s.bit Reg.DALI_STAT_BUSFAIL = false → Completes (.daliSend v) s fun t =>
          t.dev.dali = { d with phase := .settling, frame := w, copy := 1, left := s.fld Reg.DALI_CFG_RETRY } ∧
          t.reg Reg.DALI_FWD = w ∧ s.Sets t [(Reg.DALI_STAT_BUSY, 1)] [Reg.DALI_FWD]))) ∧
    (d.phase = .settling → d.window = false → Completes .daliSettled s fun t => t.dev.dali = { d with phase := .sending } ∧ s.Within {} t) ∧
    (d.phase ≠ .settling ∨ d.window = true → Completes .daliSettled s fun t => t.dev.dali = d ∧ s.Within {} t) ∧
    (d.phase = .sending → twice = true → d.copy = 1 → Completes .daliForwardDone s fun t =>
      t.dev.dali = { d with phase := .settling, copy := 2 } ∧ s.Within {} t) ∧
    (d.phase = .sending → twice = false ∨ d.copy ≠ 1 → Completes .daliForwardDone s fun t =>
      t.dev.dali = { d with phase := .idle, window := asks } ∧ t.events = s.events ++ [0x5D] ∧
      s.Sets t [(Reg.DALI_STAT_BUSY, 0), (Reg.DALI_STAT_STATUS, 0), (Reg.DALI_STAT_REPLY, 0), (Reg.DALI_STAT_VALUE, 0)] (perfOf daliPage)) ∧
    (d.phase ≠ .sending →
      (Completes .daliForwardDone s fun t => t.dev.dali = d ∧ s.Within {} t) ∧
      (Completes .daliCollision s fun t => t.dev.dali = d ∧ s.Within {} t)) ∧
    (∀ value : Byte, d.window = true →
      (Completes (.daliBackwardFrame false value) s fun t =>
        t.dev.dali = { d with window := false } ∧ t.events = s.events ++ [0x5C] ∧
        s.Sets t [(Reg.DALI_STAT_REPLY, 1), (Reg.DALI_STAT_VALUE, value.toNat)] (perfOf daliPage)) ∧
      (Completes (.daliBackwardFrame true value) s fun t =>
        t.dev.dali = { d with window := false } ∧ t.events = s.events ++ [0x5C] ∧ s.Sets t [(Reg.DALI_STAT_REPLY, 3)] (perfOf daliPage)) ∧
      (Completes .daliReplyTimeout s fun t => t.dev.dali = { d with window := false } ∧ s.Sets t [(Reg.DALI_STAT_REPLY, 2)])) ∧
    (d.window = false → ∀ (f : Bool) (value : Byte),
      (Completes (.daliBackwardFrame f value) s fun t => t.dev.dali = d ∧ s.Within {} t) ∧
      (Completes .daliReplyTimeout s fun t => t.dev.dali = d ∧ s.Within {} t)) ∧
    (d.phase = .sending → 0 < d.left → Completes .daliCollision s fun t =>
      t.dev.dali = { d with phase := .settling, left := d.left - 1 } ∧ t.events = s.events ++ [0x5E] ∧ s.Within (onlyRegs (perfOf daliPage)) t) ∧
    (d.phase = .sending → d.left = 0 → Completes .daliCollision s fun t =>
      t.dev.dali = { d with phase := .idle } ∧ t.events = s.events ++ [0x5E] ∧
      s.Sets t [(Reg.DALI_STAT_BUSY, 0), (Reg.DALI_STAT_STATUS, 2)] (perfOf daliPage)) ∧
    (d.phase = .idle → Completes .daliBusFail s fun t => t.dev.dali = d ∧ s.Sets t [(Reg.DALI_STAT_BUSFAIL, 1)]) ∧
    (d.phase ≠ .idle → Completes .daliBusFail s fun t =>
      t.dev.dali = { d with phase := .idle } ∧ s.Sets t [(Reg.DALI_STAT_BUSFAIL, 1), (Reg.DALI_STAT_BUSY, 0), (Reg.DALI_STAT_STATUS, 1)]) ∧
    (Completes .daliBusIdle s fun t => t.dev.dali = d ∧ s.Sets t [(Reg.DALI_STAT_BUSFAIL, 0)]) ∧
    (Completes .daliForeignFrame s fun t => t.dev.dali = (if s.en daliPage then { d with foreign := d.foreign + 1 } else d) ∧ s.Within {} t) ∧
    (s.bit Reg.LUM_METER_EN = false → Completes .meterPulse s fun t => s.Within {} t) ∧
    (s.bit Reg.LUM_METER_EN = true → Completes .meterPulse s fun t =>
      t.events = s.events ++ [0x5F] ∧ s.Sets t [(⟨Reg.LUM_MCNT, 31, 0⟩, (s.reg Reg.LUM_MCNT + 1).toNat)] (perfOf lumPage)) ∧
    ∀ v : Word, Completes (.meterLoad v) s fun t => s.Sets t [(⟨Reg.LUM_MCNT, 31, 0⟩, v.toNat)]

/-- The ADC's sequence and its limits; the UARTs' FIFOs and the octets that are the host port's; I²C; the GP balls (R426,
R492–R499). Log entries 21 to 23 say what the source leaves open here. -/
def Obligations.SerialAndPins : Prop :=
  ∀ s : State, s.Inv →
    (s.bit Reg.ADC_STAT_BUSY = true → Completes .adcStart s fun t => s.Reports t adcPage fltState) ∧
    (s.bit Reg.ADC_STAT_BUSY = false → Completes .adcStart s fun t => s.Sets t (if s.en adcPage then [(Reg.ADC_STAT_BUSY, 1)] else [])) ∧
    (s.bit Reg.ADC_STAT_BUSY = false → ∀ codes, Completes (.adcSequenceDone codes) s fun t => s.Within {} t) ∧
    (∀ (ch : Fin 16) (code : BitVec 12), s.bit Reg.ADC_STAT_BUSY = true → s.fld Reg.ADC_SEQ_MASK = 2 ^ ch.val →
      let old := s.fld (Reg.ADC_RES_CODE ch.val)
      let hit := s.fld Reg.ADC_LIM_LCH = ch.val ∧ s.dev.adc.hadResult = true ∧
        ((bitOf (s.fld Reg.ADC_LIM_DIR) 0 = true ∧ code.toNat < s.fld Reg.ADC_LIM_LO ∧ s.fld Reg.ADC_LIM_LO ≤ old) ∨
          (bitOf (s.fld Reg.ADC_LIM_DIR) 1 = true ∧ s.fld Reg.ADC_LIM_HI < code.toNat ∧ old ≤ s.fld Reg.ADC_LIM_HI))
      Completes (.adcSequenceDone [code]) s fun t =>
        (hit → t.events = s.events ++ [0x5B, 0x5A]) ∧ (¬ hit → t.events = s.events ++ [0x5A]) ∧
        t.dev.adc.hadResult = (s.dev.adc.hadResult || decide (s.fld Reg.ADC_LIM_LCH = ch.val)) ∧
        s.Sets t [(Reg.ADC_RES_CODE ch.val, code.toNat), (Reg.ADC_STAT_BUSY, 0), (Reg.ADC_STAT_STATUS, 0)] (perfOf adcPage)) ∧
    (∀ (n : Fin 3) (b : Byte) (ferr perr : Bool) (v : Word),
      let u := s.uart n.val
      let ports := n.val = 1 ∧ s.bit Reg.HOSTP_CFG_UARTEN = true
      let h := s.dev.hostp
      let quiet (t : State) : Prop := (∀ m < 3, t.uart m = s.uart m) ∧ s.Within {} t
      (ports → s.portAwake = false → Completes (.uartRxOctet n b ferr perr) s fun t => t.dev.hostp = h ∧ quiet t) ∧
      (ports → s.portAwake = true →
        (b = 0x7E → h.isOpen = false ∨ h.buf = [] → Completes (.uartRxOctet n b ferr perr) s fun t =>
          t.dev.hostp = { h with buf := [], esc := false, isOpen := true } ∧ quiet t) ∧
        (b = 0x7D → h.isOpen = true → h.esc = false → Completes (.uartRxOctet n b ferr perr) s fun t =>
          t.dev.hostp = { h with esc := true } ∧ quiet t) ∧
        (b ≠ 0x7E → b ≠ 0x7D ∨ h.esc = true → h.isOpen = true → Completes (.uartRxOctet n b ferr perr) s fun t =>
          t.dev.hostp = { h with buf := h.buf ++ [if h.esc = true then b ^^^ 0x20 else b], esc := false } ∧ quiet t) ∧
        (b ≠ 0x7E → h.isOpen = false → Completes (.uartRxOctet n b ferr perr) s fun t => t.dev.hostp = h ∧ quiet t) ∧
        (∀ tag : Byte, b = 0x7E → h.isOpen = true → h.buf = hostFrame 1 tag.toNat [] → (s.port 1).out = none → (s.port 1).reply = none →
          Completes (.uartRxOctet n b ferr perr) s fun t =>
            (t.port 1).reply = some { frame := replyFrame 1 tag.toNat 0 s.statusData } ∧ t.dev.hostp.isOpen = false ∧ t.dev.hostp.buf = [] ∧
            s.Within (onlyRegs (Reg.HOSTP_STAT :: perfOf hostpPage)) t)) ∧
      (¬ ports → s.uartOn n.val = false → Completes (.uartRxOctet n b ferr perr) s quiet) ∧
      (¬ ports → s.uartOn n.val = true →
        Completes (.uartRxOctet n b ferr perr) s fun t =>
          t.uart n.val = (if u.rx.length < 16 then { u with rx := u.rx ++ [b] } else u) ∧ t.events = s.events ++ [0x62 + n.val] ∧
          s.Sets t ((if u.rx.length < 16 then [] else [(Reg.UART_STAT_OVR n.val, 1)]) ++
            (if ferr then [(Reg.UART_STAT_FERR n.val, 1)] else []) ++ if perr then [(Reg.UART_STAT_PERR n.val, 1)] else [])
            (perfOf (uartPage n.val))) ∧
      (Completes (.uartTxWrite n v) s fun t =>
        t.uart n.val = (if u.tx.length < 16 then { u with tx := u.tx ++ [BitVec.ofNat 8 v.toNat] } else u) ∧ s.Within {} t) ∧
      (Completes (.uartRxRead n) s fun t => t.uart n.val = { u with rx := u.rx.drop 1 } ∧ s.Within {} t) ∧
      (Completes (.uartTxOctetSent n) s fun t =>
        t.uart n.val = (if s.uartOn n.val = true then { u with tx := u.tx.drop 1 } else u) ∧ s.Within {} t)) ∧
    (∀ (n : Fin 2) (v : Word),
      let busy := s.bit (Reg.I2C_STAT_BUSY n.val) = true
      let wl := s.fld (Reg.I2C_CMD_WLEN n.val)
      let rl := s.fld (Reg.I2C_CMD_RLEN n.val)
      let w := bitsPut v 31 31 0 &&& BitVec.ofNat 32 (Reg.maskOf (Reg.I2C_CMD n.val))
      let ends (st : Nat) (t : State) : Prop :=
        t.bit (Reg.I2C_STAT_BUSY n.val) = false ∧ t.fld (Reg.I2C_STAT_STATUS n.val) = st ∧ t.events = s.events ++ [0x65 + n.val]
      let F := Reg.I2C_STAT n.val :: perfOf (i2cPage n.val)
      (busy → Completes (.i2cStart n v) s fun t => s.Reports t (i2cPage n.val) fltState) ∧
      (¬ busy → Completes (.i2cStart n v) s fun t =>
        t.reg (Reg.I2C_CMD n.val) = w ∧ s.Sets t (if s.en (i2cPage n.val) then [(Reg.I2C_STAT_BUSY n.val, 1)] else []) [Reg.I2C_CMD n.val]) ∧
      (¬ busy → ∀ e, Completes (.i2cDone n e) s fun t => s.Within {} t) ∧
      (busy → 32 < wl + rl → ∀ e, Completes (.i2cDone n e) s fun t => ends 4 t ∧ s.Within (onlyRegs F) t) ∧
      (busy → wl + rl ≤ 32 →
        (∀ rx : List Byte, Completes (.i2cDone n (.done rx)) s fun t =>
          ends 0 t ∧
          (∀ i < 32, bitsGet (t.reg (Reg.I2C_BUF n.val (i / 4))) (8 * (i % 4) + 7) (8 * (i % 4)) =
            if wl ≤ i ∧ i < wl + rl then (octet rx (i - wl)).toNat
            else bitsGet (s.reg (Reg.I2C_BUF n.val (i / 4))) (8 * (i % 4) + 7) (8 * (i % 4))) ∧
          s.Within (onlyRegs (F ++ (List.range 8).map (Reg.I2C_BUF n.val))) t) ∧
        (Completes (.i2cDone n .noAck) s fun t => ends 0x50 t ∧ s.Within (onlyRegs F) t) ∧
        (Completes (.i2cDone n .lost) s fun t => ends 2 t ∧ s.Within (onlyRegs F) t) ∧
        (Completes (.i2cDone n .stretched) s fun t => ends 0xFF t ∧ s.Within (onlyRegs F) t))) ∧
    (∀ (n : Fin 36) (rising : Bool),
      let b := if rising then 0 else 1
      let wakes := n.val < 8 ∧ bitOf (s.fld Reg.PWR_GPWAKE_EDGE / 4 ^ n.val % 4) b = true
      let flags := s.powered gpioPage = true ∧ bitOf (s.fld (Reg.GPIO_PIN_EDGE n.val)) b = true
      Completes (.gpioEdge n rising) s fun t =>
        (∀ i < 36, t.dev.gpIn.testBit i = if i = n.val then rising else s.dev.gpIn.testBit i) ∧
        (wakes → t.dev.pwr.wake.testBit (2 + n.val) = true) ∧ (¬ wakes → t.dev.pwr = s.dev.pwr) ∧
        t.events = s.events ++ (if wakes then [0x10 + n.val] else []) ++ (if flags then [0x68 + n.val] else []) ∧
        s.Sets t (if flags then [(⟨Reg.GPIO_FLAG (n.val / 32), n.val % 32, n.val % 32⟩, 1)] else []) (perfOf gpioPage ++ perfOf pwrPage)) ∧
    ∀ (k : Fin 2) (v : Word),
      let m := BitVec.ofNat 32 (Reg.maskOf (Reg.GPIO_OUT k.val))
      (Completes (.gpioSet k v) s fun t =>
        t.reg (Reg.GPIO_OUT k.val) = (s.reg (Reg.GPIO_OUT k.val) ||| v) &&& m ∧ s.Within (onlyRegs [Reg.GPIO_OUT k.val]) t) ∧
      (Completes (.gpioClr k v) s fun t =>
        t.reg (Reg.GPIO_OUT k.val) = (s.reg (Reg.GPIO_OUT k.val) &&& ~~~v) &&& m ∧ s.Within (onlyRegs [Reg.GPIO_OUT k.val]) t)
end

