-- ==== Sys2Proof/Laws/Sparse.lean ====
section
/-!
SUPPORT. The laws of sparse contents: what is read after a write or a drop, and that both keep the canonical form.
-/
namespace Sys2Proof.Machine

variable {α : Type}

/-- An unlisted key reads as unlisted. -/
theorem Sparse.get_unlisted (d : Nat → α) (m : Sparse α) (k : Nat) (h : ∀ e ∈ m, e.1 ≠ k) : Sparse.get d m k = d k := by
  induction m with
  | nil => rfl
  | cons e m ih =>
    simp only [Sparse.get, if_neg (h e (by simp))]
    exact ih fun x hx => h x (by simp [hx])

theorem Sparse.mem_del {m : Sparse α} {k : Nat} {e : Nat × α} : e ∈ Sparse.del m k ↔ e ∈ m ∧ e.1 ≠ k := by
  simp [Sparse.del]

theorem Sparse.get_del_other (d : Nat → α) (m : Sparse α) (k j : Nat) (h : j ≠ k) :
    Sparse.get d (Sparse.del m k) j = Sparse.get d m j := by
  induction m with
  | nil => rfl
  | cons e m ih =>
    obtain ⟨i, v⟩ := e
    by_cases hi : i = k
    · subst hi
      have : Sparse.del ((i, v) :: m) i = Sparse.del m i := by simp [Sparse.del]
      rw [this, ih, Sparse.get, if_neg (Ne.symm h)]
    · have : Sparse.del ((i, v) :: m) k = (i, v) :: Sparse.del m k := by simp [Sparse.del, hi]
      rw [this, Sparse.get, Sparse.get, ih]

theorem Sparse.mem_ins {m : Sparse α} {k : Nat} {v : α} {e : Nat × α} : e ∈ Sparse.ins m k v ↔ e = (k, v) ∨ e ∈ m := by
  induction m with
  | nil => simp [Sparse.ins]
  | cons x m ih =>
    obtain ⟨i, w⟩ := x
    simp only [Sparse.ins]
    split
    · simp
    · simp only [List.mem_cons, ih]
      tauto

theorem Sparse.get_ins_same (d : Nat → α) (m : Sparse α) (k : Nat) (v : α) (h : ∀ e ∈ m, e.1 ≠ k) :
    Sparse.get d (Sparse.ins m k v) k = v := by
  induction m with
  | nil => simp [Sparse.ins, Sparse.get]
  | cons x m ih =>
    obtain ⟨i, w⟩ := x
    have hi : i ≠ k := h (i, w) (by simp)
    simp only [Sparse.ins]
    split
    · simp [Sparse.get]
    · simp only [Sparse.get, if_neg hi]
      exact ih fun e he => h e (by simp [he])

theorem Sparse.get_ins_other (d : Nat → α) (m : Sparse α) (k j : Nat) (v : α) (h : j ≠ k) :
    Sparse.get d (Sparse.ins m k v) j = Sparse.get d m j := by
  induction m with
  | nil => simp [Sparse.ins, Sparse.get, Ne.symm h]
  | cons x m ih =>
    obtain ⟨i, w⟩ := x
    simp only [Sparse.ins]
    split
    · simp [Sparse.get, Ne.symm h]
    · simp only [Sparse.get, ih]

/-- A key reads what was stored there. -/
theorem Sparse.get_set_same [DecidableEq α] (d : Nat → α) (m : Sparse α) (k : Nat) (v : α) :
    Sparse.get d (Sparse.set d m k v) k = v := by
  unfold Sparse.set
  split
  · rename_i hv
    rw [hv]
    exact Sparse.get_unlisted d _ k fun e he => (Sparse.mem_del.mp he).2
  · exact Sparse.get_ins_same d _ k v fun e he => (Sparse.mem_del.mp he).2

/-- Every other key reads as before. -/
theorem Sparse.get_set_other [DecidableEq α] (d : Nat → α) (m : Sparse α) (k j : Nat) (v : α) (hj : j ≠ k) :
    Sparse.get d (Sparse.set d m k v) j = Sparse.get d m j := by
  unfold Sparse.set
  split
  · exact Sparse.get_del_other d m k j hj
  · rw [Sparse.get_ins_other d _ k j v hj, Sparse.get_del_other d m k j hj]

/-- A key that is dropped reads as unlisted, every other one as before. -/
theorem Sparse.get_drop (d : Nat → α) (p : Nat → Bool) (m : Sparse α) (k : Nat) :
    Sparse.get d (Sparse.drop p m) k = if p k then d k else Sparse.get d m k := by
  induction m with
  | nil => simp [Sparse.drop, Sparse.get]
  | cons e m ih =>
    obtain ⟨i, v⟩ := e
    by_cases hp : p i
    · have : Sparse.drop p ((i, v) :: m) = Sparse.drop p m := by simp [Sparse.drop, hp]
      rw [this, ih]
      by_cases hk : i = k
      · subst hk; simp [hp]
      · simp [Sparse.get, hk]
    · have : Sparse.drop p ((i, v) :: m) = (i, v) :: Sparse.drop p m := by simp [Sparse.drop, hp]
      rw [this]
      by_cases hk : i = k
      · subst hk; simp [Sparse.get, hp]
      · simp [Sparse.get, hk, ih]

/-- What a store lists was stored, or was listed before. -/
theorem Sparse.mem_set [DecidableEq α] (d : Nat → α) (m : Sparse α) (k : Nat) (v : α) (e : Nat × α)
    (h : e ∈ Sparse.set d m k v) : e ∈ m ∨ (e = (k, v) ∧ v ≠ d k) := by
  unfold Sparse.set at h
  split at h
  · exact .inl (Sparse.mem_del.mp h).1
  · rename_i hv
    rcases Sparse.mem_ins.mp h with rfl | h
    · exact .inr ⟨rfl, hv⟩
    · exact .inl (Sparse.mem_del.mp h).1

theorem Sparse.rising_ins (m : Sparse α) (k : Nat) (v : α) (h : m.Pairwise fun a b => a.1 < b.1)
    (hk : ∀ e ∈ m, e.1 ≠ k) : (Sparse.ins m k v).Pairwise fun a b => a.1 < b.1 := by
  induction m with
  | nil => simp [Sparse.ins]
  | cons x m ih =>
    obtain ⟨i, w⟩ := x
    obtain ⟨ha, hb⟩ := List.pairwise_cons.mp h
    simp only [Sparse.ins]
    split
    · rename_i hi
      exact List.pairwise_cons.mpr ⟨fun e he => by
        rcases List.mem_cons.mp he with rfl | he
        · exact hi
        · exact Nat.lt_trans hi (ha e he), h⟩
    · rename_i hi
      refine List.pairwise_cons.mpr ⟨fun e he => ?_, ih hb fun e he => hk e (by simp [he])⟩
      rcases Sparse.mem_ins.mp he with rfl | he
      · have : i ≠ k := hk (i, w) (by simp)
        show i < k
        omega
      · exact ha e he

/-- Storing keeps the canonical form. -/
theorem Sparse.wf_set [DecidableEq α] (d : Nat → α) (m : Sparse α) (k : Nat) (v : α) (h : Sparse.Wf d m) :
    Sparse.Wf d (Sparse.set d m k v) := by
  have hd : (Sparse.del m k).Pairwise fun a b => a.1 < b.1 := h.1.sublist List.filter_sublist
  refine ⟨?_, fun e he => ?_⟩
  · unfold Sparse.set
    split
    · exact hd
    · exact Sparse.rising_ins _ _ _ hd fun e he => (Sparse.mem_del.mp he).2
  · rcases Sparse.mem_set d m k v e he with he | ⟨rfl, hv⟩
    · exact h.2 e he
    · exact hv

/-- Dropping keeps the canonical form. -/
theorem Sparse.wf_drop (d : Nat → α) (p : Nat → Bool) (m : Sparse α) (h : Sparse.Wf d m) :
    Sparse.Wf d (Sparse.drop p m) :=
  ⟨h.1.sublist List.filter_sublist, fun e he => h.2 e (List.mem_filter.mp he).1⟩

/-- Nothing listed is the canonical form. -/
theorem Sparse.wf_nil (d : Nat → α) : Sparse.Wf d ([] : Sparse α) := ⟨List.Pairwise.nil, by simp⟩

end Sys2Proof.Machine
end

