-- ==== Sys2Proof/Laws/State.lean ====
section
/-!
SUPPORT. What each primitive change leaves in each field of the state: one law per field and change (guide: no later proof
unfolds a record update).
-/
namespace Sys2Proof.Machine

variable (s : State) (a i u e : Nat) (v : Word) (b : Byte) (p : Nat → Bool) (x : Tab) (f : Core → Core) (g : Dev → Dev)

/-! ### A table put in place -/

@[simp] theorem State.setTab_regs (m : Sparse Word) : (s.setTab x m).regs = s.regs := by cases x <;> rfl
@[simp] theorem State.setTab_mem (m : Sparse Word) : (s.setTab x m).mem = s.mem := by cases x <;> rfl
@[simp] theorem State.setTab_otp (m : Sparse Word) : (s.setTab x m).otp = s.otp := by cases x <;> rfl
@[simp] theorem State.setTab_bad (m : Sparse Word) : (s.setTab x m).bad = s.bad := by cases x <;> rfl
@[simp] theorem State.setTab_core (m : Sparse Word) : (s.setTab x m).core = s.core := by cases x <;> rfl
@[simp] theorem State.setTab_dev (m : Sparse Word) : (s.setTab x m).dev = s.dev := by cases x <;> rfl
@[simp] theorem State.setTab_events (m : Sparse Word) : (s.setTab x m).events = s.events := by cases x <;> rfl
@[simp] theorem State.setTab_free (m : Sparse Word) : (s.setTab x m).free = s.free := by cases x <;> rfl
@[simp] theorem State.setTab_pending (m : Sparse Word) : (s.setTab x m).pending = s.pending := by cases x <;> rfl
@[simp] theorem State.tab_setTab (m : Sparse Word) : (s.setTab x m).tab x = m := by cases x <;> rfl
theorem State.tab_setTab_ne (y : Tab) (m : Sparse Word) (h : y ≠ x) : (s.setTab x m).tab y = s.tab y := by
  cases x <;> cases y <;> first | rfl | exact absurd rfl h

/-! ### The fields a change does not touch -/

@[simp] theorem Prim.run_reg_mem : (Prim.run (.reg a v) s).mem = s.mem := rfl
@[simp] theorem Prim.run_reg_peer : (Prim.run (.reg a v) s).peer = s.peer := rfl
@[simp] theorem Prim.run_reg_seen : (Prim.run (.reg a v) s).seen = s.seen := rfl
@[simp] theorem Prim.run_reg_cox : (Prim.run (.reg a v) s).cox = s.cox := rfl
@[simp] theorem Prim.run_reg_bow : (Prim.run (.reg a v) s).bow = s.bow := rfl
@[simp] theorem Prim.run_reg_otp : (Prim.run (.reg a v) s).otp = s.otp := rfl
@[simp] theorem Prim.run_reg_bad : (Prim.run (.reg a v) s).bad = s.bad := rfl
@[simp] theorem Prim.run_reg_core : (Prim.run (.reg a v) s).core = s.core := rfl
@[simp] theorem Prim.run_reg_dev : (Prim.run (.reg a v) s).dev = s.dev := rfl
@[simp] theorem Prim.run_reg_events : (Prim.run (.reg a v) s).events = s.events := rfl
@[simp] theorem Prim.run_reg_free : (Prim.run (.reg a v) s).free = s.free := rfl
@[simp] theorem Prim.run_reg_pending : (Prim.run (.reg a v) s).pending = s.pending := rfl
@[simp] theorem Prim.run_regClear_mem : (Prim.run (.regClear p) s).mem = s.mem := rfl
@[simp] theorem Prim.run_regClear_peer : (Prim.run (.regClear p) s).peer = s.peer := rfl
@[simp] theorem Prim.run_regClear_seen : (Prim.run (.regClear p) s).seen = s.seen := rfl
@[simp] theorem Prim.run_regClear_cox : (Prim.run (.regClear p) s).cox = s.cox := rfl
@[simp] theorem Prim.run_regClear_bow : (Prim.run (.regClear p) s).bow = s.bow := rfl
@[simp] theorem Prim.run_regClear_otp : (Prim.run (.regClear p) s).otp = s.otp := rfl
@[simp] theorem Prim.run_regClear_bad : (Prim.run (.regClear p) s).bad = s.bad := rfl
@[simp] theorem Prim.run_regClear_core : (Prim.run (.regClear p) s).core = s.core := rfl
@[simp] theorem Prim.run_regClear_dev : (Prim.run (.regClear p) s).dev = s.dev := rfl
@[simp] theorem Prim.run_regClear_events : (Prim.run (.regClear p) s).events = s.events := rfl
@[simp] theorem Prim.run_regClear_free : (Prim.run (.regClear p) s).free = s.free := rfl
@[simp] theorem Prim.run_regClear_pending : (Prim.run (.regClear p) s).pending = s.pending := rfl
@[simp] theorem Prim.run_mem_regs : (Prim.run (.mem a b) s).regs = s.regs := rfl
@[simp] theorem Prim.run_mem_peer : (Prim.run (.mem a b) s).peer = s.peer := rfl
@[simp] theorem Prim.run_mem_seen : (Prim.run (.mem a b) s).seen = s.seen := rfl
@[simp] theorem Prim.run_mem_cox : (Prim.run (.mem a b) s).cox = s.cox := rfl
@[simp] theorem Prim.run_mem_bow : (Prim.run (.mem a b) s).bow = s.bow := rfl
@[simp] theorem Prim.run_mem_otp : (Prim.run (.mem a b) s).otp = s.otp := rfl
@[simp] theorem Prim.run_mem_bad : (Prim.run (.mem a b) s).bad = s.bad := rfl
@[simp] theorem Prim.run_mem_core : (Prim.run (.mem a b) s).core = s.core := rfl
@[simp] theorem Prim.run_mem_dev : (Prim.run (.mem a b) s).dev = s.dev := rfl
@[simp] theorem Prim.run_mem_events : (Prim.run (.mem a b) s).events = s.events := rfl
@[simp] theorem Prim.run_mem_free : (Prim.run (.mem a b) s).free = s.free := rfl
@[simp] theorem Prim.run_mem_pending : (Prim.run (.mem a b) s).pending = s.pending := rfl
@[simp] theorem Prim.run_memClear_regs : (Prim.run (.memClear p) s).regs = s.regs := rfl
@[simp] theorem Prim.run_memClear_peer : (Prim.run (.memClear p) s).peer = s.peer := rfl
@[simp] theorem Prim.run_memClear_seen : (Prim.run (.memClear p) s).seen = s.seen := rfl
@[simp] theorem Prim.run_memClear_cox : (Prim.run (.memClear p) s).cox = s.cox := rfl
@[simp] theorem Prim.run_memClear_bow : (Prim.run (.memClear p) s).bow = s.bow := rfl
@[simp] theorem Prim.run_memClear_otp : (Prim.run (.memClear p) s).otp = s.otp := rfl
@[simp] theorem Prim.run_memClear_bad : (Prim.run (.memClear p) s).bad = s.bad := rfl
@[simp] theorem Prim.run_memClear_core : (Prim.run (.memClear p) s).core = s.core := rfl
@[simp] theorem Prim.run_memClear_dev : (Prim.run (.memClear p) s).dev = s.dev := rfl
@[simp] theorem Prim.run_memClear_events : (Prim.run (.memClear p) s).events = s.events := rfl
@[simp] theorem Prim.run_memClear_free : (Prim.run (.memClear p) s).free = s.free := rfl
@[simp] theorem Prim.run_memClear_pending : (Prim.run (.memClear p) s).pending = s.pending := rfl
@[simp] theorem Prim.run_tab_regs : (Prim.run (.tab x i v) s).regs = s.regs := by cases x <;> rfl
@[simp] theorem Prim.run_tab_mem : (Prim.run (.tab x i v) s).mem = s.mem := by cases x <;> rfl
@[simp] theorem Prim.run_tab_otp : (Prim.run (.tab x i v) s).otp = s.otp := by cases x <;> rfl
@[simp] theorem Prim.run_tab_bad : (Prim.run (.tab x i v) s).bad = s.bad := by cases x <;> rfl
@[simp] theorem Prim.run_tab_core : (Prim.run (.tab x i v) s).core = s.core := by cases x <;> rfl
@[simp] theorem Prim.run_tab_dev : (Prim.run (.tab x i v) s).dev = s.dev := by cases x <;> rfl
@[simp] theorem Prim.run_tab_events : (Prim.run (.tab x i v) s).events = s.events := by cases x <;> rfl
@[simp] theorem Prim.run_tab_free : (Prim.run (.tab x i v) s).free = s.free := by cases x <;> rfl
@[simp] theorem Prim.run_tab_pending : (Prim.run (.tab x i v) s).pending = s.pending := by cases x <;> rfl
@[simp] theorem Prim.run_tabClear_regs : (Prim.run (.tabClear x p) s).regs = s.regs := by cases x <;> rfl
@[simp] theorem Prim.run_tabClear_mem : (Prim.run (.tabClear x p) s).mem = s.mem := by cases x <;> rfl
@[simp] theorem Prim.run_tabClear_otp : (Prim.run (.tabClear x p) s).otp = s.otp := by cases x <;> rfl
@[simp] theorem Prim.run_tabClear_bad : (Prim.run (.tabClear x p) s).bad = s.bad := by cases x <;> rfl
@[simp] theorem Prim.run_tabClear_core : (Prim.run (.tabClear x p) s).core = s.core := by cases x <;> rfl
@[simp] theorem Prim.run_tabClear_dev : (Prim.run (.tabClear x p) s).dev = s.dev := by cases x <;> rfl
@[simp] theorem Prim.run_tabClear_events : (Prim.run (.tabClear x p) s).events = s.events := by cases x <;> rfl
@[simp] theorem Prim.run_tabClear_free : (Prim.run (.tabClear x p) s).free = s.free := by cases x <;> rfl
@[simp] theorem Prim.run_tabClear_pending : (Prim.run (.tabClear x p) s).pending = s.pending := by cases x <;> rfl
@[simp] theorem Prim.run_otp_regs : (Prim.run (.otp i b) s).regs = s.regs := rfl
@[simp] theorem Prim.run_otp_mem : (Prim.run (.otp i b) s).mem = s.mem := rfl
@[simp] theorem Prim.run_otp_peer : (Prim.run (.otp i b) s).peer = s.peer := rfl
@[simp] theorem Prim.run_otp_seen : (Prim.run (.otp i b) s).seen = s.seen := rfl
@[simp] theorem Prim.run_otp_cox : (Prim.run (.otp i b) s).cox = s.cox := rfl
@[simp] theorem Prim.run_otp_bow : (Prim.run (.otp i b) s).bow = s.bow := rfl
@[simp] theorem Prim.run_otp_bad : (Prim.run (.otp i b) s).bad = s.bad := rfl
@[simp] theorem Prim.run_otp_core : (Prim.run (.otp i b) s).core = s.core := rfl
@[simp] theorem Prim.run_otp_dev : (Prim.run (.otp i b) s).dev = s.dev := rfl
@[simp] theorem Prim.run_otp_events : (Prim.run (.otp i b) s).events = s.events := rfl
@[simp] theorem Prim.run_otp_free : (Prim.run (.otp i b) s).free = s.free := rfl
@[simp] theorem Prim.run_otp_pending : (Prim.run (.otp i b) s).pending = s.pending := rfl
@[simp] theorem Prim.run_bad_regs : (Prim.run (.bad u) s).regs = s.regs := rfl
@[simp] theorem Prim.run_bad_mem : (Prim.run (.bad u) s).mem = s.mem := rfl
@[simp] theorem Prim.run_bad_peer : (Prim.run (.bad u) s).peer = s.peer := rfl
@[simp] theorem Prim.run_bad_seen : (Prim.run (.bad u) s).seen = s.seen := rfl
@[simp] theorem Prim.run_bad_cox : (Prim.run (.bad u) s).cox = s.cox := rfl
@[simp] theorem Prim.run_bad_bow : (Prim.run (.bad u) s).bow = s.bow := rfl
@[simp] theorem Prim.run_bad_otp : (Prim.run (.bad u) s).otp = s.otp := rfl
@[simp] theorem Prim.run_bad_core : (Prim.run (.bad u) s).core = s.core := rfl
@[simp] theorem Prim.run_bad_dev : (Prim.run (.bad u) s).dev = s.dev := rfl
@[simp] theorem Prim.run_bad_events : (Prim.run (.bad u) s).events = s.events := rfl
@[simp] theorem Prim.run_bad_free : (Prim.run (.bad u) s).free = s.free := rfl
@[simp] theorem Prim.run_bad_pending : (Prim.run (.bad u) s).pending = s.pending := rfl
@[simp] theorem Prim.run_core_regs : (Prim.run (.core f) s).regs = s.regs := rfl
@[simp] theorem Prim.run_core_mem : (Prim.run (.core f) s).mem = s.mem := rfl
@[simp] theorem Prim.run_core_peer : (Prim.run (.core f) s).peer = s.peer := rfl
@[simp] theorem Prim.run_core_seen : (Prim.run (.core f) s).seen = s.seen := rfl
@[simp] theorem Prim.run_core_cox : (Prim.run (.core f) s).cox = s.cox := rfl
@[simp] theorem Prim.run_core_bow : (Prim.run (.core f) s).bow = s.bow := rfl
@[simp] theorem Prim.run_core_otp : (Prim.run (.core f) s).otp = s.otp := rfl
@[simp] theorem Prim.run_core_bad : (Prim.run (.core f) s).bad = s.bad := rfl
@[simp] theorem Prim.run_core_dev : (Prim.run (.core f) s).dev = s.dev := rfl
@[simp] theorem Prim.run_core_events : (Prim.run (.core f) s).events = s.events := rfl
@[simp] theorem Prim.run_core_free : (Prim.run (.core f) s).free = s.free := rfl
@[simp] theorem Prim.run_core_pending : (Prim.run (.core f) s).pending = s.pending := rfl
@[simp] theorem Prim.run_dev_regs : (Prim.run (.dev g) s).regs = s.regs := rfl
@[simp] theorem Prim.run_dev_mem : (Prim.run (.dev g) s).mem = s.mem := rfl
@[simp] theorem Prim.run_dev_peer : (Prim.run (.dev g) s).peer = s.peer := rfl
@[simp] theorem Prim.run_dev_seen : (Prim.run (.dev g) s).seen = s.seen := rfl
@[simp] theorem Prim.run_dev_cox : (Prim.run (.dev g) s).cox = s.cox := rfl
@[simp] theorem Prim.run_dev_bow : (Prim.run (.dev g) s).bow = s.bow := rfl
@[simp] theorem Prim.run_dev_otp : (Prim.run (.dev g) s).otp = s.otp := rfl
@[simp] theorem Prim.run_dev_bad : (Prim.run (.dev g) s).bad = s.bad := rfl
@[simp] theorem Prim.run_dev_core : (Prim.run (.dev g) s).core = s.core := rfl
@[simp] theorem Prim.run_dev_events : (Prim.run (.dev g) s).events = s.events := rfl
@[simp] theorem Prim.run_dev_free : (Prim.run (.dev g) s).free = s.free := rfl
@[simp] theorem Prim.run_dev_pending : (Prim.run (.dev g) s).pending = s.pending := rfl
@[simp] theorem Prim.run_emit_regs : (Prim.run (.emit e) s).regs = s.regs := rfl
@[simp] theorem Prim.run_emit_mem : (Prim.run (.emit e) s).mem = s.mem := rfl
@[simp] theorem Prim.run_emit_peer : (Prim.run (.emit e) s).peer = s.peer := rfl
@[simp] theorem Prim.run_emit_seen : (Prim.run (.emit e) s).seen = s.seen := rfl
@[simp] theorem Prim.run_emit_cox : (Prim.run (.emit e) s).cox = s.cox := rfl
@[simp] theorem Prim.run_emit_bow : (Prim.run (.emit e) s).bow = s.bow := rfl
@[simp] theorem Prim.run_emit_otp : (Prim.run (.emit e) s).otp = s.otp := rfl
@[simp] theorem Prim.run_emit_bad : (Prim.run (.emit e) s).bad = s.bad := rfl
@[simp] theorem Prim.run_emit_core : (Prim.run (.emit e) s).core = s.core := rfl
@[simp] theorem Prim.run_emit_dev : (Prim.run (.emit e) s).dev = s.dev := rfl
@[simp] theorem Prim.run_emit_free : (Prim.run (.emit e) s).free = s.free := rfl
@[simp] theorem Prim.run_emit_pending : (Prim.run (.emit e) s).pending = s.pending := rfl
@[simp] theorem Prim.run_bump_regs : (Prim.run .bump s).regs = s.regs := rfl
@[simp] theorem Prim.run_bump_mem : (Prim.run .bump s).mem = s.mem := rfl
@[simp] theorem Prim.run_bump_peer : (Prim.run .bump s).peer = s.peer := rfl
@[simp] theorem Prim.run_bump_seen : (Prim.run .bump s).seen = s.seen := rfl
@[simp] theorem Prim.run_bump_cox : (Prim.run .bump s).cox = s.cox := rfl
@[simp] theorem Prim.run_bump_bow : (Prim.run .bump s).bow = s.bow := rfl
@[simp] theorem Prim.run_bump_otp : (Prim.run .bump s).otp = s.otp := rfl
@[simp] theorem Prim.run_bump_bad : (Prim.run .bump s).bad = s.bad := rfl
@[simp] theorem Prim.run_bump_core : (Prim.run .bump s).core = s.core := rfl
@[simp] theorem Prim.run_bump_dev : (Prim.run .bump s).dev = s.dev := rfl
@[simp] theorem Prim.run_bump_events : (Prim.run .bump s).events = s.events := rfl
@[simp] theorem Prim.run_bump_pending : (Prim.run .bump s).pending = s.pending := rfl

/-! ### The field a change is about -/

@[simp] theorem Prim.run_reg_regs :
    (Prim.run (.reg a v) s).regs = Sparse.set Reg.resetWord s.regs a (v &&& BitVec.ofNat 32 (Reg.maskOf a)) := rfl
@[simp] theorem Prim.run_regClear_regs : (Prim.run (.regClear p) s).regs = Sparse.drop p s.regs := rfl
@[simp] theorem Prim.run_mem_mem : (Prim.run (.mem a b) s).mem = Sparse.set memReset s.mem a b := rfl
@[simp] theorem Prim.run_memClear_mem : (Prim.run (.memClear p) s).mem = Sparse.drop p s.mem := rfl
@[simp] theorem Prim.run_tab_tab : (Prim.run (.tab x i v) s).tab x = Sparse.set wordReset (s.tab x) i v := by
  cases x <;> rfl
@[simp] theorem Prim.run_tabClear_tab : (Prim.run (.tabClear x p) s).tab x = Sparse.drop p (s.tab x) := by
  cases x <;> rfl
@[simp] theorem Prim.run_otp_otp :
    (Prim.run (.otp i b) s).otp = Sparse.set otpReset s.otp i (Sparse.get otpReset s.otp i ||| b) := rfl
@[simp] theorem Prim.run_bad_bad : (Prim.run (.bad u) s).bad = if u ∈ s.bad then s.bad else u :: s.bad := rfl
@[simp] theorem Prim.run_core_core : (Prim.run (.core f) s).core = (f s.core).norm := rfl
@[simp] theorem Prim.run_dev_dev : (Prim.run (.dev g) s).dev = g s.dev := rfl
@[simp] theorem Prim.run_emit_events : (Prim.run (.emit e) s).events = s.events ++ [e] := rfl
@[simp] theorem Prim.run_bump_free : (Prim.run .bump s).free = s.free + 1 := rfl

/-! ### What is read after a change -/

theorem State.tab_eq_of (t : State) (hp : t.peer = s.peer) (hs : t.seen = s.seen) (hc : t.cox = s.cox)
    (hb : t.bow = s.bow) (y : Tab) : t.tab y = s.tab y := by
  cases y <;> assumption

@[simp] theorem State.byte_reg (r : Nat) : (Prim.run (.reg a v) s).byte r = s.byte r := by simp [State.byte]
@[simp] theorem State.otpByte_reg (r : Nat) : (Prim.run (.reg a v) s).otpByte r = s.otpByte r := by simp [State.otpByte]
@[simp] theorem State.word_reg (y : Tab) (r : Nat) : (Prim.run (.reg a v) s).word y r = s.word y r := by cases y <;> rfl
@[simp] theorem State.g_reg (r : Nat) : (Prim.run (.reg a v) s).g r = s.g r := by simp [State.g]
@[simp] theorem State.byte_regClear (r : Nat) : (Prim.run (.regClear p) s).byte r = s.byte r := by simp [State.byte]
@[simp] theorem State.otpByte_regClear (r : Nat) : (Prim.run (.regClear p) s).otpByte r = s.otpByte r := by simp [State.otpByte]
@[simp] theorem State.word_regClear (y : Tab) (r : Nat) : (Prim.run (.regClear p) s).word y r = s.word y r := by cases y <;> rfl
@[simp] theorem State.g_regClear (r : Nat) : (Prim.run (.regClear p) s).g r = s.g r := by simp [State.g]
@[simp] theorem State.reg_mem (r : Nat) : (Prim.run (.mem a b) s).reg r = s.reg r := by simp [State.reg]
@[simp] theorem State.otpByte_mem (r : Nat) : (Prim.run (.mem a b) s).otpByte r = s.otpByte r := by simp [State.otpByte]
@[simp] theorem State.word_mem (y : Tab) (r : Nat) : (Prim.run (.mem a b) s).word y r = s.word y r := by cases y <;> rfl
@[simp] theorem State.g_mem (r : Nat) : (Prim.run (.mem a b) s).g r = s.g r := by simp [State.g]
@[simp] theorem State.reg_memClear (r : Nat) : (Prim.run (.memClear p) s).reg r = s.reg r := by simp [State.reg]
@[simp] theorem State.otpByte_memClear (r : Nat) : (Prim.run (.memClear p) s).otpByte r = s.otpByte r := by simp [State.otpByte]
@[simp] theorem State.word_memClear (y : Tab) (r : Nat) : (Prim.run (.memClear p) s).word y r = s.word y r := by cases y <;> rfl
@[simp] theorem State.g_memClear (r : Nat) : (Prim.run (.memClear p) s).g r = s.g r := by simp [State.g]
@[simp] theorem State.reg_tab (r : Nat) : (Prim.run (.tab x i v) s).reg r = s.reg r := by simp [State.reg]
@[simp] theorem State.byte_tab (r : Nat) : (Prim.run (.tab x i v) s).byte r = s.byte r := by simp [State.byte]
@[simp] theorem State.otpByte_tab (r : Nat) : (Prim.run (.tab x i v) s).otpByte r = s.otpByte r := by simp [State.otpByte]
@[simp] theorem State.g_tab (r : Nat) : (Prim.run (.tab x i v) s).g r = s.g r := by simp [State.g]
@[simp] theorem State.reg_tabClear (r : Nat) : (Prim.run (.tabClear x p) s).reg r = s.reg r := by simp [State.reg]
@[simp] theorem State.byte_tabClear (r : Nat) : (Prim.run (.tabClear x p) s).byte r = s.byte r := by simp [State.byte]
@[simp] theorem State.otpByte_tabClear (r : Nat) : (Prim.run (.tabClear x p) s).otpByte r = s.otpByte r := by simp [State.otpByte]
@[simp] theorem State.g_tabClear (r : Nat) : (Prim.run (.tabClear x p) s).g r = s.g r := by simp [State.g]
@[simp] theorem State.reg_otp (r : Nat) : (Prim.run (.otp i b) s).reg r = s.reg r := by simp [State.reg]
@[simp] theorem State.byte_otp (r : Nat) : (Prim.run (.otp i b) s).byte r = s.byte r := by simp [State.byte]
@[simp] theorem State.word_otp (y : Tab) (r : Nat) : (Prim.run (.otp i b) s).word y r = s.word y r := by cases y <;> rfl
@[simp] theorem State.g_otp (r : Nat) : (Prim.run (.otp i b) s).g r = s.g r := by simp [State.g]
@[simp] theorem State.reg_bad (r : Nat) : (Prim.run (.bad u) s).reg r = s.reg r := by simp [State.reg]
@[simp] theorem State.byte_bad (r : Nat) : (Prim.run (.bad u) s).byte r = s.byte r := by simp [State.byte]
@[simp] theorem State.otpByte_bad (r : Nat) : (Prim.run (.bad u) s).otpByte r = s.otpByte r := by simp [State.otpByte]
@[simp] theorem State.word_bad (y : Tab) (r : Nat) : (Prim.run (.bad u) s).word y r = s.word y r := by cases y <;> rfl
@[simp] theorem State.g_bad (r : Nat) : (Prim.run (.bad u) s).g r = s.g r := by simp [State.g]
@[simp] theorem State.reg_core (r : Nat) : (Prim.run (.core f) s).reg r = s.reg r := by simp [State.reg]
@[simp] theorem State.byte_core (r : Nat) : (Prim.run (.core f) s).byte r = s.byte r := by simp [State.byte]
@[simp] theorem State.otpByte_core (r : Nat) : (Prim.run (.core f) s).otpByte r = s.otpByte r := by simp [State.otpByte]
@[simp] theorem State.word_core (y : Tab) (r : Nat) : (Prim.run (.core f) s).word y r = s.word y r := by cases y <;> rfl
@[simp] theorem State.reg_dev (r : Nat) : (Prim.run (.dev g) s).reg r = s.reg r := by simp [State.reg]
@[simp] theorem State.byte_dev (r : Nat) : (Prim.run (.dev g) s).byte r = s.byte r := by simp [State.byte]
@[simp] theorem State.otpByte_dev (r : Nat) : (Prim.run (.dev g) s).otpByte r = s.otpByte r := by simp [State.otpByte]
@[simp] theorem State.word_dev (y : Tab) (r : Nat) : (Prim.run (.dev g) s).word y r = s.word y r := by cases y <;> rfl
@[simp] theorem State.g_dev (r : Nat) : (Prim.run (.dev g) s).g r = s.g r := by simp [State.g]
@[simp] theorem State.reg_emit (r : Nat) : (Prim.run (.emit e) s).reg r = s.reg r := by simp [State.reg]
@[simp] theorem State.byte_emit (r : Nat) : (Prim.run (.emit e) s).byte r = s.byte r := by simp [State.byte]
@[simp] theorem State.otpByte_emit (r : Nat) : (Prim.run (.emit e) s).otpByte r = s.otpByte r := by simp [State.otpByte]
@[simp] theorem State.word_emit (y : Tab) (r : Nat) : (Prim.run (.emit e) s).word y r = s.word y r := by cases y <;> rfl
@[simp] theorem State.g_emit (r : Nat) : (Prim.run (.emit e) s).g r = s.g r := by simp [State.g]
@[simp] theorem State.reg_bump (r : Nat) : (Prim.run .bump s).reg r = s.reg r := by simp [State.reg]
@[simp] theorem State.byte_bump (r : Nat) : (Prim.run .bump s).byte r = s.byte r := by simp [State.byte]
@[simp] theorem State.otpByte_bump (r : Nat) : (Prim.run .bump s).otpByte r = s.otpByte r := by simp [State.otpByte]
@[simp] theorem State.word_bump (y : Tab) (r : Nat) : (Prim.run .bump s).word y r = s.word y r := by cases y <;> rfl
@[simp] theorem State.g_bump (r : Nat) : (Prim.run .bump s).g r = s.g r := by simp [State.g]

/-- A register reads what was written, without the bits it does not have (R309). -/
theorem State.reg_written : (Prim.run (.reg a v) s).reg a = v &&& BitVec.ofNat 32 (Reg.maskOf a) :=
  Sparse.get_set_same _ _ _ _
theorem State.reg_other (r : Nat) (h : r ≠ a) : (Prim.run (.reg a v) s).reg r = s.reg r :=
  Sparse.get_set_other _ _ _ _ _ h
@[simp] theorem State.reg_cleared (r : Nat) :
    (Prim.run (.regClear p) s).reg r = if p r then Reg.resetWord r else s.reg r := Sparse.get_drop _ _ _ _
theorem State.byte_written : (Prim.run (.mem a b) s).byte a = b :=
  Sparse.get_set_same _ _ _ _
theorem State.byte_other (r : Nat) (h : r ≠ a) : (Prim.run (.mem a b) s).byte r = s.byte r :=
  Sparse.get_set_other _ _ _ _ _ h
@[simp] theorem State.byte_cleared (r : Nat) :
    (Prim.run (.memClear p) s).byte r = if p r then memReset r else s.byte r := Sparse.get_drop _ _ _ _
theorem State.word_written : (Prim.run (.tab x i v) s).word x i = v := by
  rw [State.word, Prim.run_tab_tab]; exact Sparse.get_set_same _ _ _ _
theorem State.word_other (j : Nat) (h : j ≠ i) : (Prim.run (.tab x i v) s).word x j = s.word x j := by
  rw [State.word, Prim.run_tab_tab]; exact Sparse.get_set_other _ _ _ _ _ h
theorem State.word_other_tab (y : Tab) (j : Nat) (h : y ≠ x) : (Prim.run (.tab x i v) s).word y j = s.word y j := by
  rw [State.word, State.word, Prim.run, State.tab_setTab_ne s x y _ h]
theorem State.word_cleared (y : Tab) (j : Nat) :
    (Prim.run (.tabClear x p) s).word y j = if y = x ∧ p j then wordReset j else s.word y j := by
  by_cases h : y = x
  · subst h
    rw [State.word, Prim.run_tabClear_tab, Sparse.get_drop]
    simp [State.word]
  · rw [State.word, Prim.run, State.tab_setTab_ne s x y _ h]
    simp [h, State.word]
theorem State.otpByte_written : (Prim.run (.otp i b) s).otpByte i = s.otpByte i ||| b := Sparse.get_set_same _ _ _ _
theorem State.otpByte_other (j : Nat) (h : j ≠ i) : (Prim.run (.otp i b) s).otpByte j = s.otpByte j :=
  Sparse.get_set_other _ _ _ _ _ h

end Sys2Proof.Machine
end

