-- ==== Sys2Proof/Laws/Act.lean ====
section
/-!
SUPPORT. What every act keeps, shown once over the primitive changes: canonical memories, reserved bits, the core's
reserved bits, OTP's bits, BAD marks, the queue (R238, R239, R269, R282, R309, R414). And how a meaning's act is followed
from state to state.
-/
namespace Sys2Proof.Machine

/-! ### From the primitive changes to acts -/

/-- What every primitive change keeps, every act keeps. -/
theorem Act.run_keeps {P : State → Prop} (h : ∀ p s, P s → P (Prim.run p s)) (a : Act) (s : State) (hs : P s) :
    P (a.run s) := by
  induction a generalizing s with
  | done => exact hs
  | prim p k ih => exact ih _ (h p s hs)
  | look k ih => exact ih s s hs

/-- What every primitive change relates, every act relates. -/
theorem Act.run_rel {R : State → State → Prop} (hr : ∀ s, R s s) (ht : ∀ s t u, R s t → R t u → R s u)
    (h : ∀ p s, R s (Prim.run p s)) (a : Act) (s : State) : R s (a.run s) := by
  induction a generalizing s with
  | done => exact hr s
  | prim p k ih => exact ht _ _ _ (h p s) (ih _)
  | look k ih => exact ih s s

/-- A word without the bits outside a mask has none of them. -/
theorem and_mask_idem (a m : Word) : a &&& m &&& m = a &&& m := by
  rw [BitVec.and_assoc, BitVec.and_self]

/-- The core's reserved bits read 0 after any change of the core (R238, R239). -/
theorem Core.norm_legal (c : Core) : c.norm.Legal :=
  ⟨and_mask_idem _ _, and_mask_idem _ _, and_mask_idem _ _⟩

theorem Prim.run_canonical (p : Prim) (s : State) (h : s.Canonical) : (Prim.run p s).Canonical := by
  obtain ⟨h1, h2, h3, h4, h5, h6, h7⟩ := h
  cases p with
  | reg a v => exact ⟨Sparse.wf_set _ _ _ _ h1, h2, h3, h4, h5, h6, h7⟩
  | regClear p => exact ⟨Sparse.wf_drop _ _ _ h1, h2, h3, h4, h5, h6, h7⟩
  | mem a b => exact ⟨h1, Sparse.wf_set _ _ _ _ h2, h3, h4, h5, h6, h7⟩
  | memClear p => exact ⟨h1, Sparse.wf_drop _ _ _ h2, h3, h4, h5, h6, h7⟩
  | tab t i v =>
    cases t
    · exact ⟨h1, h2, Sparse.wf_set _ _ _ _ h3, h4, h5, h6, h7⟩
    · exact ⟨h1, h2, h3, Sparse.wf_set _ _ _ _ h4, h5, h6, h7⟩
    · exact ⟨h1, h2, h3, h4, Sparse.wf_set _ _ _ _ h5, h6, h7⟩
    · exact ⟨h1, h2, h3, h4, h5, Sparse.wf_set _ _ _ _ h6, h7⟩
  | tabClear t p =>
    cases t
    · exact ⟨h1, h2, Sparse.wf_drop _ _ _ h3, h4, h5, h6, h7⟩
    · exact ⟨h1, h2, h3, Sparse.wf_drop _ _ _ h4, h5, h6, h7⟩
    · exact ⟨h1, h2, h3, h4, Sparse.wf_drop _ _ _ h5, h6, h7⟩
    · exact ⟨h1, h2, h3, h4, h5, Sparse.wf_drop _ _ _ h6, h7⟩
  | otp i b => exact ⟨h1, h2, h3, h4, h5, h6, Sparse.wf_set _ _ _ _ h7⟩
  | bad u => exact ⟨h1, h2, h3, h4, h5, h6, h7⟩
  | core f => exact ⟨h1, h2, h3, h4, h5, h6, h7⟩
  | dev f => exact ⟨h1, h2, h3, h4, h5, h6, h7⟩
  | emit e => exact ⟨h1, h2, h3, h4, h5, h6, h7⟩
  | bump => exact ⟨h1, h2, h3, h4, h5, h6, h7⟩

theorem Prim.run_masked (p : Prim) (s : State) (h : s.Masked) : (Prim.run p s).Masked := by
  cases p with
  | reg a v =>
    intro e he
    rcases Sparse.mem_set _ _ _ _ e he with he | ⟨rfl, _⟩
    · exact h e he
    · exact and_mask_idem _ _
  | regClear p => exact fun e he => h e (List.mem_filter.mp he).1
  | tab t i v => cases t <;> exact h
  | tabClear t p => cases t <;> exact h
  | _ => exact h

theorem Prim.run_legal (p : Prim) (s : State) (h : s.core.Legal) : (Prim.run p s).core.Legal := by
  cases p with
  | core f => exact Core.norm_legal _
  | tab t i v => cases t <;> exact h
  | tabClear t p => cases t <;> exact h
  | _ => exact h

/-- Every primitive change keeps what every state of the block has. -/
theorem Prim.run_inv (p : Prim) (s : State) (h : s.Inv) : (Prim.run p s).Inv :=
  ⟨Prim.run_canonical p s h.canonical, Prim.run_masked p s h.masked, Prim.run_legal p s h.core⟩

/-- Every act keeps it. -/
theorem Act.run_inv (a : Act) (s : State) (h : s.Inv) : (a.run s).Inv := Act.run_keeps Prim.run_inv a s h

/-- No act touches the queue. -/
theorem Act.run_pending (a : Act) (s : State) : (a.run s).pending = s.pending :=
  Act.run_rel (R := fun s t => t.pending = s.pending) (fun _ => rfl) (fun _ _ _ h g => g.trans h)
    (fun p s => by cases p <;> simp) a s

theorem State.keepsOtp_refl (s : State) : s.KeepsOtp s := ⟨fun _ => BitVec.and_self, fun _ h => h⟩

theorem State.keepsOtp_trans (s t u : State) (h : s.KeepsOtp t) (g : t.KeepsOtp u) : s.KeepsOtp u :=
  ⟨fun i => by rw [← h.1 i, BitVec.and_assoc, g.1 i], fun x hx => g.2 x (h.2 x hx)⟩

/-- OTP gains bits only and BAD marks stay, whatever the change (R282, R414). -/
theorem Prim.run_keepsOtp (p : Prim) (s : State) : s.KeepsOtp (Prim.run p s) := by
  cases p with
  | otp i b =>
    refine ⟨fun j => ?_, fun _ h => h⟩
    by_cases hj : j = i
    · subst hj
      rw [State.otpByte_written]
      ext k
      simp only [BitVec.getElem_and, BitVec.getElem_or]
      cases (s.otpByte j)[k] <;> simp
    · rw [State.otpByte_other _ _ _ _ hj, BitVec.and_self]
  | bad u =>
    refine ⟨fun j => by simp, fun x hx => ?_⟩
    simp only [Prim.run_bad_bad]
    split
    · exact hx
    · exact List.mem_cons_of_mem _ hx
  | tab t i v => exact ⟨fun j => by simp, fun x hx => by simpa using hx⟩
  | tabClear t q => exact ⟨fun j => by simp, fun x hx => by simpa using hx⟩
  | _ => exact State.keepsOtp_refl s

/-- Every act keeps OTP's bits and the BAD marks. -/
theorem Act.run_keepsOtp (a : Act) (s : State) : s.KeepsOtp (a.run s) :=
  Act.run_rel State.keepsOtp_refl State.keepsOtp_trans Prim.run_keepsOtp a s

/-! ### The latching of edges (R262) -/

section
variable (s t : State)
@[simp] theorem latchEdges_regs : (latchEdges s t).regs = t.regs := rfl
@[simp] theorem latchEdges_mem : (latchEdges s t).mem = t.mem := rfl
@[simp] theorem latchEdges_tab (x : Tab) : (latchEdges s t).tab x = t.tab x := by cases x <;> rfl
@[simp] theorem latchEdges_otp : (latchEdges s t).otp = t.otp := rfl
@[simp] theorem latchEdges_bad : (latchEdges s t).bad = t.bad := rfl
@[simp] theorem latchEdges_core : (latchEdges s t).core = t.core := rfl
@[simp] theorem latchEdges_events : (latchEdges s t).events = t.events := rfl
@[simp] theorem latchEdges_free : (latchEdges s t).free = t.free := rfl
@[simp] theorem latchEdges_pending : (latchEdges s t).pending = t.pending := rfl
@[simp] theorem latchEdges_reg (a : Nat) : (latchEdges s t).reg a = t.reg a := rfl
@[simp] theorem latchEdges_fld (f : Fld) : (latchEdges s t).fld f = t.fld f := rfl
@[simp] theorem latchEdges_bit (f : Fld) : (latchEdges s t).bit f = t.bit f := rfl
@[simp] theorem latchEdges_byte (a : Nat) : (latchEdges s t).byte a = t.byte a := rfl
@[simp] theorem latchEdges_word (x : Tab) (i : Nat) : (latchEdges s t).word x i = t.word x i := by cases x <;> rfl
@[simp] theorem latchEdges_otpByte (i : Nat) : (latchEdges s t).otpByte i = t.otpByte i := rfl
@[simp] theorem latchEdges_g (r : Nat) : (latchEdges s t).g r = t.g r := rfl
/-- Of the units' live state the latching changes the edge latches alone. -/
theorem latchEdges_dev : (latchEdges s t).dev = { t.dev with intc := { t.dev.intc with edge := (latchEdges s t).dev.intc.edge } } :=
  rfl
end

/-- A command's outcome is a next state. -/
theorem cmd_next (s : State) (m : M Unit) : cmd s m = .next (latchEdges s (m.run s)) := rfl

/-! ### Following an act (each named operation has one such law) -/

variable {α β : Type}

/-- From `s` the act of `m` comes to a result and a state of which `Q` holds, whatever follows it; what every state of the
block has is kept. -/
def M.Gives (m : M α) (s : State) (Q : α → State → Prop) : Prop :=
  ∃ a t, Q a t ∧ (s.Inv → t.Inv) ∧ ∀ k : α → Act, Act.run (m k) s = Act.run (k a) t

theorem M.Gives.run {m : M Unit} {s : State} {P : State → Prop} (h : m.Gives s fun _ t => P t) : P (m.run s) := by
  obtain ⟨a, t, hq, _, hk⟩ := h
  have := hk fun _ => Act.done
  rw [M.run, M.toAct, this]
  exact hq

theorem M.Gives.mono {m : M α} {s : State} {Q R : α → State → Prop} (h : m.Gives s Q) (g : ∀ a t, Q a t → R a t) :
    m.Gives s R := by
  obtain ⟨a, t, hq, hk⟩ := h
  exact ⟨a, t, g a t hq, hk⟩

/-- As `mono`, where the state before has what every state of the block has. -/
theorem M.Gives.monoInv {m : M α} {s : State} {Q R : α → State → Prop} (h : m.Gives s Q) (hs : s.Inv)
    (g : ∀ a t, t.Inv → Q a t → R a t) : m.Gives s R := by
  obtain ⟨a, t, hq, hi, hk⟩ := h
  exact ⟨a, t, g a t (hi hs) hq, hi, hk⟩

theorem gives_pure {a : α} {s : State} {Q : α → State → Prop} (h : Q a s) : (pure a : M α).Gives s Q :=
  ⟨a, s, h, id, fun _ => rfl⟩

theorem gives_bind {m : M α} {f : α → M β} {s : State} {Q : β → State → Prop}
    (h : m.Gives s fun a t => (f a).Gives t Q) : (m >>= f).Gives s Q := by
  obtain ⟨a, t, ⟨b, u, hq, hj, hk⟩, hi, hm⟩ := h
  refine ⟨b, u, hq, fun h => hj (hi h), fun k => ?_⟩
  rw [← hk k]
  exact hm fun x => f x k

theorem gives_getS {s : State} {Q : State → State → Prop} (h : Q s s) : getS.Gives s Q := ⟨s, s, h, id, fun _ => rfl⟩

theorem gives_act {p : Prim} {s : State} {Q : Unit → State → Prop} (h : Q () (Prim.run p s)) : (act p).Gives s Q :=
  ⟨(), Prim.run p s, h, Prim.run_inv p s, fun _ => rfl⟩

theorem gives_nop {s : State} {Q : Unit → State → Prop} (h : Q () s) : nop.Gives s Q := gives_pure h

/-- Over a list: what holds before, and is kept by each element's act, holds after. -/
theorem gives_forAll {l : List α} {f : α → M Unit} {s : State} {I : State → Prop} (h0 : I s)
    (h : ∀ x ∈ l, ∀ t, I t → (f x).Gives t fun _ u => I u) : (forAll l f).Gives s fun _ t => I t := by
  induction l generalizing s with
  | nil => exact gives_nop h0
  | cons x l ih =>
    exact gives_bind ((h x (by simp) s h0).mono fun _ t ht => ih ht fun y hy => h y (by simp [hy]))

end Sys2Proof.Machine
end

