-- ==== Sys2Proof/Laws/Keeps.lean ====
section
/-!
SUPPORT. What the named operations leave alone: each keeps to a footprint, whatever state it runs in.
-/
namespace Sys2Proof.Machine
open Sys2Proof.Reg

variable {α β : Type} {F : Foot}

theorem State.within_refl (s : State) (F : Foot) : s.Within F s :=
  ⟨fun _ _ => rfl, fun _ _ => rfl, fun _ _ _ => rfl, fun _ _ => rfl, fun _ => rfl, fun _ => rfl, fun _ => rfl, rfl⟩

theorem State.Within.trans {s t u : State} (h : s.Within F t) (g : t.Within F u) : s.Within F u :=
  ⟨fun a ha => (g.regs a ha).trans (h.regs a ha), fun a ha => (g.mem a ha).trans (h.mem a ha),
   fun x hx i => (g.tab x hx i).trans (h.tab x hx i), fun ho i => (g.otp ho i).trans (h.otp ho i),
   fun hb => (g.bad hb).trans (h.bad hb), fun hc => (g.core hc).trans (h.core hc),
   fun hk => (g.keys hk).trans (h.keys hk), g.pending.trans h.pending⟩

/-- A meaning's act keeps to a footprint from every state. -/
structure M.Keeps (F : Foot) (m : M α) : Prop where
  all : ∀ s : State, m.Gives s fun _ t => s.Within F t

theorem M.Keeps.run {m : M Unit} (h : m.Keeps F) (s : State) : s.Within F (m.run s) := (h.all s).run

/-- A command whose act keeps to a footprint keeps to it. -/
theorem M.Keeps.cmd {m : M Unit} (h : m.Keeps F) (s : State) : s.Within F (latchEdges s (m.run s)) := by
  obtain ⟨h1, h2, h3, h4, h5, h6, h7, h8⟩ := h.run s
  exact ⟨h1, h2, fun x hx i => by rw [latchEdges_word]; exact h3 x hx i, h4, h5, h6, h7, h8⟩

/-- A meaning may be followed with its footprint where its result is not needed. -/
theorem M.Keeps.gives {m : M α} (h : m.Keeps F) {s : State} {Q : α → State → Prop}
    (g : ∀ a t, s.Within F t → Q a t) : m.Gives s Q := (h.all s).mono g

/-! ### Composition -/

theorem keeps_pure (a : α) : (pure a : M α).Keeps F := ⟨fun s => gives_pure (s.within_refl F)⟩

theorem keeps_bind {m : M α} {f : α → M β} (h : m.Keeps F) (g : ∀ a, (f a).Keeps F) : (m >>= f).Keeps F :=
  ⟨fun s => gives_bind ((h.all s).mono fun a t ht => ((g a).all t).mono fun _ _ hu => ht.trans hu)⟩

theorem keeps_getS : M.Keeps F getS := ⟨fun s => gives_getS (s.within_refl F)⟩

theorem keeps_nop : M.Keeps F nop := keeps_pure ()

theorem keeps_ite {c : Prop} [Decidable c] {a b : M α} (h : a.Keeps F) (g : b.Keeps F) : (if c then a else b).Keeps F := by
  split <;> assumption

theorem keeps_forAll {l : List α} {f : α → M Unit} (h : ∀ x, (f x).Keeps F) : (forAll l f).Keeps F := by
  induction l with
  | nil => exact keeps_nop
  | cons x l ih => exact keeps_bind (h x) fun _ => ih

/-! ### The primitive changes -/

theorem keeps_act {p : Prim} (h : ∀ s : State, s.Within F (Prim.run p s)) : M.Keeps F (act p) :=
  ⟨fun s => gives_act (h s)⟩

theorem keeps_reg {a : Nat} {v : Word} (h : F.regs a = true) : M.Keeps F (act (.reg a v)) :=
  keeps_act fun s => ⟨fun r hr => State.reg_other _ _ _ _ (fun e => by simp [e, h] at hr), fun _ _ => by simp,
    fun _ _ _ => by simp, fun _ _ => by simp, fun _ => rfl, fun _ => rfl, fun _ => rfl, rfl⟩

theorem keeps_regClear {p : Nat → Bool} (h : ∀ a, p a = true → F.regs a = true) : M.Keeps F (act (.regClear p)) :=
  keeps_act fun s => ⟨fun r hr => by
      have : p r = false := by
        by_contra hp
        simp [h r (by simpa using hp)] at hr
      simp [this], fun _ _ => by simp,
    fun _ _ _ => by simp, fun _ _ => by simp, fun _ => rfl, fun _ => rfl, fun _ => rfl, rfl⟩

theorem keeps_mem {a : Nat} {b : Byte} (h : F.mem a = true) : M.Keeps F (act (.mem a b)) :=
  keeps_act fun s => ⟨fun _ _ => by simp, fun r hr => State.byte_other _ _ _ _ (fun e => by simp [e, h] at hr),
    fun _ _ _ => by simp, fun _ _ => by simp, fun _ => rfl, fun _ => rfl, fun _ => rfl, rfl⟩

theorem keeps_memClear {p : Nat → Bool} (h : ∀ a, p a = true → F.mem a = true) : M.Keeps F (act (.memClear p)) :=
  keeps_act fun s => ⟨fun _ _ => by simp, fun r hr => by
      have : p r = false := by
        by_contra hp
        simp [h r (by simpa using hp)] at hr
      simp [this],
    fun _ _ _ => by simp, fun _ _ => by simp, fun _ => rfl, fun _ => rfl, fun _ => rfl, rfl⟩

theorem keeps_tab {x : Tab} {i : Nat} {v : Word} (h : F.tab x = true) : M.Keeps F (act (.tab x i v)) :=
  keeps_act fun s => ⟨fun _ _ => by simp, fun _ _ => by simp,
    fun y hy j => State.word_other_tab _ _ _ _ _ _ (fun e => by simp [e, h] at hy), fun _ _ => by simp,
    fun _ => by simp, fun _ => by simp, fun _ => by simp, by simp⟩

theorem keeps_tabClear {x : Tab} {p : Nat → Bool} (h : F.tab x = true) : M.Keeps F (act (.tabClear x p)) :=
  keeps_act fun s => ⟨fun _ _ => by simp, fun _ _ => by simp,
    fun y hy j => by rw [State.word_cleared, if_neg]; rintro ⟨e, _⟩; simp [e, h] at hy, fun _ _ => by simp,
    fun _ => by simp, fun _ => by simp, fun _ => by simp, by simp⟩

theorem keeps_otp {i : Nat} {b : Byte} (h : F.otp = true) : M.Keeps F (act (.otp i b)) :=
  keeps_act fun s => ⟨fun _ _ => by simp, fun _ _ => by simp, fun _ _ _ => by simp, fun ho => by simp [h] at ho,
    fun _ => rfl, fun _ => rfl, fun _ => rfl, rfl⟩

theorem keeps_bad {u : Nat} (h : F.bad = true) : M.Keeps F (act (.bad u)) :=
  keeps_act fun s => ⟨fun _ _ => by simp, fun _ _ => by simp, fun _ _ _ => by simp, fun _ _ => by simp,
    fun hb => by simp [h] at hb, fun _ => rfl, fun _ => rfl, rfl⟩

theorem keeps_core {f : Core → Core} (h : F.core = true) : M.Keeps F (act (.core f)) :=
  keeps_act fun s => ⟨fun _ _ => by simp, fun _ _ => by simp, fun _ _ _ => by simp, fun _ _ => by simp,
    fun _ => rfl, fun hc => by simp [h] at hc, fun _ => rfl, rfl⟩

/-- A change of the units' live state that leaves the key slots. -/
theorem keeps_dev {f : Dev → Dev} (h : ∀ d, (f d).keys = d.keys) : M.Keeps F (act (.dev f)) :=
  keeps_act fun s => ⟨fun _ _ => by simp, fun _ _ => by simp, fun _ _ _ => by simp, fun _ _ => by simp,
    fun _ => rfl, fun _ => rfl, fun _ => h _, rfl⟩

theorem keeps_emitPrim {e : Nat} : M.Keeps F (act (.emit e)) :=
  keeps_act fun s => ⟨fun _ _ => by simp, fun _ _ => by simp, fun _ _ _ => by simp, fun _ _ => by simp,
    fun _ => rfl, fun _ => rfl, fun _ => rfl, rfl⟩

theorem keeps_bump : M.Keeps F (act .bump) :=
  keeps_act fun s => ⟨fun _ _ => by simp, fun _ _ => by simp, fun _ _ _ => by simp, fun _ _ => by simp,
    fun _ => rfl, fun _ => rfl, fun _ => rfl, rfl⟩

/-! ### The operations of every chapter -/

theorem keeps_rd {a : Nat} : M.Keeps F (rd a) := keeps_bind keeps_getS fun _ => keeps_pure _
theorem keeps_fld {f : Fld} : M.Keeps F (fld f) := keeps_bind keeps_getS fun _ => keeps_pure _
theorem keeps_bit {f : Fld} : M.Keeps F (bit f) := keeps_bind keeps_getS fun _ => keeps_pure _
theorem keeps_wr {a : Nat} {v : Word} (h : F.regs a = true) : M.Keeps F (wr a v) := keeps_reg h
theorem keeps_setFld {f : Fld} {v : Nat} (h : F.regs f.addr = true) : M.Keeps F (setFld f v) :=
  keeps_bind keeps_rd fun _ => keeps_reg h
theorem keeps_modDev {f : Dev → Dev} (h : ∀ d, (f d).keys = d.keys) : M.Keeps F (modDev f) := keeps_dev h
theorem keeps_modCore {f : Core → Core} (h : F.core = true) : M.Keeps F (modCore f) := keeps_core h
theorem keeps_setG {r : Nat} {v : Word} (h : F.core = true) : M.Keeps F (setG r v) := keeps_core h
theorem keeps_modTime {f : Time → Time} : M.Keeps F (modTime f) := keeps_dev fun _ => rfl
theorem keeps_modPwr {f : Pwr → Pwr} : M.Keeps F (modPwr f) := keeps_dev fun _ => rfl
theorem keeps_modGov {f : Gov → Gov} : M.Keeps F (modGov f) := keeps_dev fun _ => rfl
theorem keeps_modSupply {f : Supply → Supply} : M.Keeps F (modSupply f) := keeps_dev fun _ => rfl
theorem keeps_modFlash {f : Flash → Flash} : M.Keeps F (modFlash f) := keeps_dev fun _ => rfl
theorem keeps_modXspi {f : Xspi → Xspi} : M.Keeps F (modXspi f) := keeps_dev fun _ => rfl
theorem keeps_modIntc {f : Intc → Intc} : M.Keeps F (modIntc f) := keeps_dev fun _ => rfl
theorem keeps_modRigger {f : Rigger → Rigger} : M.Keeps F (modRigger f) := keeps_dev fun _ => rfl
theorem keeps_modRtc {f : Rtc → Rtc} : M.Keeps F (modRtc f) := keeps_dev fun _ => rfl
theorem keeps_freeNat : M.Keeps F freeNat :=
  keeps_bind keeps_getS fun _ => keeps_bind keeps_bump fun _ => keeps_pure _
theorem keeps_freeWord : M.Keeps F freeWord := keeps_bind keeps_freeNat fun _ => keeps_pure _
theorem keeps_freeByte : M.Keeps F freeByte := keeps_bind keeps_freeNat fun _ => keeps_pure _
theorem keeps_freeIn {lo hi : Nat} : M.Keeps F (freeIn lo hi) := keeps_bind keeps_freeNat fun _ => keeps_pure _
theorem keeps_freeBytes {n : Nat} : M.Keeps F (freeBytes n) := by
  induction n with
  | zero => exact keeps_pure _
  | succ n ih => exact keeps_bind keeps_freeByte fun _ => keeps_bind ih fun _ => keeps_pure _
theorem keeps_putBytes {a : Nat} {l : List Byte} (h : ∀ i < l.length, F.mem (a + i) = true) :
    M.Keeps F (putBytes a l) := by
  induction l generalizing a with
  | nil => exact keeps_nop
  | cons b l ih =>
    refine keeps_bind (keeps_mem (by simpa using h 0 (by simp))) fun _ => ih fun i hi => ?_
    have := h (i + 1) (by simpa using hi)
    rwa [Nat.add_assoc, Nat.add_comm 1 i]
theorem keeps_eccForget {p : Nat → Bool} : M.Keeps F (eccForget p) := keeps_dev fun _ => rfl
theorem keeps_setCtr {p i w v : Nat} : M.Keeps F (setCtr p i w v) := keeps_dev fun _ => rfl
theorem keeps_countN {b p i w n : Nat} : M.Keeps F (countN b p i w n) := keeps_bind keeps_getS fun _ => keeps_setCtr
theorem keeps_count {p i w : Nat} : M.Keeps F (count p i w) := keeps_countN
theorem keeps_statN {e n : Nat} : M.Keeps F (statN e n) := keeps_countN
theorem keeps_stat {e : Nat} : M.Keeps F (stat e) := keeps_statN
theorem keeps_openGate {p : Nat} : M.Keeps F (openGate p) := keeps_dev fun _ => rfl
theorem keeps_pulse {n : Nat} : M.Keeps F (pulse n) := keeps_dev fun _ => rfl

/-- A page's performance counters. -/
theorem keeps_perf {p e n : Nat} (h : ∀ k < 4, F.regs (PERF_CNT p k) = true) : M.Keeps F (perf p e n) := by
  have : ∀ l : List Nat, (∀ k ∈ l, k < 4) → M.Keeps F (forAll l fun k => do
      let sel ← rd (PERF_SEL p k)
      if sel.toNat = e ∧ e ≠ 0 ∧ n ≠ 0 then
        let c ← rd (PERF_CNT p k)
        wr (PERF_CNT p k) (c + BitVec.ofNat 32 n)) := by
    intro l
    induction l with
    | nil => exact fun _ => keeps_nop
    | cons k l ih =>
      intro hl
      refine keeps_bind (keeps_bind keeps_rd fun _ => keeps_ite (keeps_bind keeps_rd fun _ => keeps_wr (h k (hl k (by simp))))
        (keeps_pure _)) fun _ => ih fun j hj => hl j (by simp [hj])
  exact this _ fun k hk => List.mem_range.mp hk

/-- The registers an event of a page may move are in a footprint. -/
def Foot.Ev (F : Foot) (page : Nat) : Prop := F.regs (FLT page) = true ∧ ∀ k < 4, F.regs (PERF_CNT page k) = true

theorem keeps_emitNow {p e : Nat} (h : F.Ev p) : M.Keeps F (emitNow p e) :=
  keeps_bind keeps_emitPrim fun _ => keeps_perf h.2
theorem keeps_setFlt {p b : Nat} (h : F.Ev p) : M.Keeps F (setFlt p b) :=
  keeps_bind keeps_rd fun _ => keeps_bind (keeps_wr h.1) fun _ => keeps_emitNow h
theorem keeps_setFltAt {p b a : Nat} (h : F.Ev p) : M.Keeps F (setFltAt p b a) :=
  keeps_bind keeps_rd fun _ => keeps_bind (keeps_wr h.1) fun _ => keeps_emitNow h
theorem keeps_emit {p e : Nat} (h : F.Ev p) : M.Keeps F (emit p e) :=
  keeps_bind keeps_getS fun _ => keeps_ite (keeps_bind (keeps_dev fun _ => rfl) fun _ => keeps_setFlt h) (keeps_emitNow h)
theorem keeps_stage {t : Nat} {hw : Bool} {c k : Nat} {l : List Byte} (h : F.Ev logbPage) (g : F.regs LOGB_STAT = true) :
    M.Keeps F (stage t hw c k l) :=
  keeps_bind keeps_getS fun _ => keeps_ite
    (keeps_bind (keeps_modDev fun _ => rfl) fun _ => keeps_bind (keeps_setFld g) fun _ => keeps_bind keeps_stat fun _ => keeps_emit h)
    (keeps_bind (keeps_setFld g) fun _ => keeps_stat)

end Sys2Proof.Machine
end

