-- ==== Sys2Proof/Laws/Fields.lean ====
section
/-!
SUPPORT. The laws of register fields: what a field reads after it, or another one, was written (R5, R6, R309).
-/
namespace Sys2Proof.Machine
open Sys2Proof.Reg


/-- The bits of a field that is read. -/
theorem bitsGet_testBit (w : Word) (hi lo i : Nat) :
    (bitsGet w hi lo).testBit i = (decide (i < hi - lo + 1) && w.toNat.testBit (lo + i)) := by
  simp [bitsGet, Nat.testBit_mod_two_pow, Nat.testBit_shiftRight]

/-- A word with a field replaced is its upper bits, the field and its lower bits. -/
theorem put_nat (w hi lo v : Nat) (h : lo ≤ hi) :
    w - (w >>> lo) % 2 ^ (hi - lo + 1) * 2 ^ lo + v % 2 ^ (hi - lo + 1) * 2 ^ lo
      = (w >>> (hi + 1)) <<< (hi + 1) + (v % 2 ^ (hi - lo + 1)) <<< lo + w % 2 ^ lo := by
  have e1 : 2 ^ (hi + 1) = 2 ^ (hi - lo + 1) * 2 ^ lo := by rw [← Nat.pow_add]; congr 1; omega
  simp only [Nat.shiftRight_eq_div_pow, Nat.shiftLeft_eq]
  rw [e1, Nat.mul_comm (2 ^ (hi - lo + 1)) (2 ^ lo), ← Nat.div_div_eq_div_mul]
  set L := 2 ^ lo
  set K := 2 ^ (hi - lo + 1)
  have h1 : w = L * (w / L) + w % L := (Nat.div_add_mod w L).symm
  have h2 : w / L = K * (w / L / K) + (w / L) % K := (Nat.div_add_mod (w / L) K).symm
  have h3 : w = L * (K * (w / L / K)) + L * ((w / L) % K) + w % L := by
    conv_lhs => rw [h1, h2]
    ring
  have h4 : w - (w / L) % K * L = L * (K * (w / L / K)) + w % L := by
    have : (w / L) % K * L = L * ((w / L) % K) := Nat.mul_comm _ _
    omega
  rw [h4]
  ring

/-- The bits of a word with a field replaced. -/
theorem bitsPut_testBit (w : Word) (hi lo v i : Nat) (h : lo ≤ hi) (hi' : i < 32) :
    (bitsPut w hi lo v).toNat.testBit i
      = if lo ≤ i ∧ i ≤ hi then v.testBit (i - lo) else w.toNat.testBit i := by
  have hw : w.toNat < 2 ^ 32 := w.isLt
  rw [bitsPut, bitsGet, put_nat _ _ _ _ h, BitVec.toNat_ofNat, Nat.testBit_mod_two_pow]
  have e : (w.toNat >>> (hi + 1)) <<< (hi + 1) + (v % 2 ^ (hi - lo + 1)) <<< lo + w.toNat % 2 ^ lo
     = ((w.toNat >>> (hi + 1)) <<< (hi + 1) ||| (v % 2 ^ (hi - lo + 1)) <<< lo) ||| w.toNat % 2 ^ lo := by
    have b : v % 2 ^ (hi - lo + 1) < 2 ^ (hi - lo + 1) := Nat.mod_lt _ (by positivity)
    have b2 : (v % 2 ^ (hi - lo + 1)) <<< lo < 2 ^ (hi + 1) := by
      rw [Nat.shiftLeft_eq]
      have e1 : 2 ^ (hi + 1) = 2 ^ (hi - lo + 1) * 2 ^ lo := by rw [← Nat.pow_add]; congr 1; omega
      rw [e1]
      exact Nat.mul_lt_mul_of_pos_right b (by positivity)
    rw [← Nat.shiftLeft_add_eq_or_of_lt b2]
    have e2 : (w.toNat >>> (hi + 1)) <<< (hi + 1) + (v % 2 ^ (hi - lo + 1)) <<< lo
        = ((w.toNat >>> (hi + 1)) <<< (hi + 1 - lo) + v % 2 ^ (hi - lo + 1)) <<< lo := by
      simp only [Nat.shiftLeft_eq]
      have e1 : 2 ^ (hi + 1) = 2 ^ (hi + 1 - lo) * 2 ^ lo := by rw [← Nat.pow_add]; congr 1; omega
      rw [e1]; ring
    rw [e2]
    exact Nat.shiftLeft_add_eq_or_of_lt (Nat.mod_lt _ (by positivity)) _
  rw [e]
  simp only [Nat.testBit_or, Nat.testBit_shiftLeft, Nat.testBit_shiftRight, Nat.testBit_mod_two_pow]
  by_cases c1 : lo ≤ i
  · by_cases c2 : i ≤ hi
    · have : ¬ (hi + 1 ≤ i) := by omega
      have c3 : i - lo < hi - lo + 1 := by omega
      have c4 : ¬ i < lo := by omega
      simp [c1, c2, this, c3, c4, hi']
    · have : hi + 1 ≤ i := by omega
      have c3 : ¬ i - lo < hi - lo + 1 := by omega
      have c4 : ¬ i < lo := by omega
      have c5 : hi + 1 + (i - (hi + 1)) = i := by omega
      simp [c1, c2, this, c3, c4, c5, hi']
  · have c2 : ¬ (hi + 1 ≤ i) := by omega
    have c4 : i < lo := by omega
    simp [c1, c2, c4, hi']

/-- The field reads the low bits of what was put there. -/
theorem bitsGet_bitsPut_same (w : Word) (hi lo v : Nat) (h : lo ≤ hi) (hh : hi < 32) :
    bitsGet (bitsPut w hi lo v) hi lo = v % 2 ^ (hi - lo + 1) := by
  apply Nat.eq_of_testBit_eq
  intro i
  rw [bitsGet_testBit, Nat.testBit_mod_two_pow]
  by_cases hi' : i < hi - lo + 1
  · rw [bitsPut_testBit _ _ _ _ _ h (by omega), if_pos (by omega)]
    simp [hi']
  · simp [hi']

/-- A field apart from it reads as before. -/
theorem bitsGet_bitsPut_other (w : Word) (hi lo v hi' lo' : Nat) (h : lo ≤ hi) (h3 : lo' ≤ hi') (hh : hi' < 32)
    (hd : hi' < lo ∨ hi < lo') : bitsGet (bitsPut w hi lo v) hi' lo' = bitsGet w hi' lo' := by
  apply Nat.eq_of_testBit_eq
  intro i
  rw [bitsGet_testBit, bitsGet_testBit]
  by_cases hi2 : i < hi' - lo' + 1
  · rw [bitsPut_testBit _ _ _ _ _ h (by omega), if_neg (by omega)]
  · simp [hi2]

/-- Every bit of the field exists in its register (R309). -/
def Fld.Full (f : Fld) : Prop :=
  f.lo ≤ f.hi ∧ f.hi < 32 ∧ bitsGet (BitVec.ofNat 32 (maskOf f.addr)) f.hi f.lo = 2 ^ (f.hi - f.lo + 1) - 1

theorem bitsGet_and_mask (w m : Word) (hi lo : Nat) (h : bitsGet m hi lo = 2 ^ (hi - lo + 1) - 1) :
    bitsGet (w &&& m) hi lo = bitsGet w hi lo := by
  apply Nat.eq_of_testBit_eq
  intro i
  have hm : (bitsGet m hi lo).testBit i = (2 ^ (hi - lo + 1) - 1).testBit i := by rw [h]
  rw [bitsGet_testBit, Nat.testBit_two_pow_sub_one] at hm
  rw [bitsGet_testBit, bitsGet_testBit, BitVec.toNat_and, Nat.testBit_and]
  by_cases hi' : i < hi - lo + 1
  · simp only [hi', decide_true, Bool.true_and] at hm
    simp [hm]
  · simp [hi']

/-- The state with a field given a value, as `setFld` leaves it. -/
def State.put (s : State) (f : Fld) (v : Nat) : State := Prim.run (.reg f.addr (bitsPut (s.reg f.addr) f.hi f.lo v)) s

/-- The state with a register given a value, as `wr` leaves it. -/
def State.putReg (s : State) (a : Nat) (v : Word) : State := Prim.run (.reg a v) s

theorem gives_setFld {f : Fld} {v : Nat} {s : State} {Q : Unit → State → Prop} (h : Q () (s.put f v)) :
    (setFld f v).Gives s Q :=
  gives_bind (gives_bind (gives_getS (gives_pure (gives_act h))))

theorem gives_wr {a : Nat} {v : Word} {s : State} {Q : Unit → State → Prop} (h : Q () (s.putReg a v)) :
    (wr a v).Gives s Q := gives_act h

theorem State.Inv.put {s : State} (h : s.Inv) (f : Fld) (v : Nat) : (s.put f v).Inv := Prim.run_inv _ _ h
theorem State.Inv.putReg {s : State} (h : s.Inv) (a : Nat) (v : Word) : (s.putReg a v).Inv := Prim.run_inv _ _ h

theorem State.fld_put_same {s : State} {f : Fld} (hf : f.Full) (v : Nat) :
    (s.put f v).fld f = v % 2 ^ (f.hi - f.lo + 1) := by
  rw [State.fld, State.put, State.reg_written, bitsGet_and_mask _ _ _ _ hf.2.2,
    bitsGet_bitsPut_same _ _ _ _ hf.1 hf.2.1]

theorem State.fld_put_other {s : State} {f g : Fld} (v : Nat) (h : g.addr ≠ f.addr) : (s.put f v).fld g = s.fld g := by
  rw [State.fld, State.put, State.reg_other _ _ _ _ h, State.fld]

theorem State.fld_put_apart {s : State} {f g : Fld} (hf : f.Full) (hg : g.Full) (v : Nat)
    (hd : g.addr = f.addr → g.hi < f.lo ∨ f.hi < g.lo) : (s.put f v).fld g = s.fld g := by
  by_cases e : g.addr = f.addr
  · rw [State.fld, State.fld, State.put, e, State.reg_written,
      bitsGet_and_mask _ _ _ _ (e ▸ hg.2.2), bitsGet_bitsPut_other _ _ _ _ _ _ hf.1 hg.1 hg.2.1 (hd e)]
  · exact State.fld_put_other v e

theorem State.reg_put_other {s : State} {f : Fld} {a : Nat} (v : Nat) (h : a ≠ f.addr) : (s.put f v).reg a = s.reg a :=
  State.reg_other _ _ _ _ h
theorem State.reg_putReg_other {s : State} {a b : Nat} (v : Word) (h : b ≠ a) : (s.putReg a v).reg b = s.reg b :=
  State.reg_other _ _ _ _ h
theorem State.reg_putReg_same {s : State} {a : Nat} (v : Word) :
    (s.putReg a v).reg a = v &&& BitVec.ofNat 32 (maskOf a) := State.reg_written _ _ _

section
variable (s : State) (f : Fld) (n a : Nat) (v : Word)
@[simp] theorem State.put_dev : (s.put f n).dev = s.dev := rfl
@[simp] theorem State.put_core : (s.put f n).core = s.core := rfl
@[simp] theorem State.put_events : (s.put f n).events = s.events := rfl
@[simp] theorem State.put_free : (s.put f n).free = s.free := rfl
@[simp] theorem State.put_pending : (s.put f n).pending = s.pending := rfl
@[simp] theorem State.put_bad : (s.put f n).bad = s.bad := rfl
@[simp] theorem State.put_byte (i : Nat) : (s.put f n).byte i = s.byte i := rfl
@[simp] theorem State.put_otpByte (i : Nat) : (s.put f n).otpByte i = s.otpByte i := rfl
@[simp] theorem State.put_word (x : Tab) (i : Nat) : (s.put f n).word x i = s.word x i := by cases x <;> rfl
@[simp] theorem State.putReg_dev : (s.putReg a v).dev = s.dev := rfl
@[simp] theorem State.putReg_core : (s.putReg a v).core = s.core := rfl
@[simp] theorem State.putReg_events : (s.putReg a v).events = s.events := rfl
@[simp] theorem State.putReg_free : (s.putReg a v).free = s.free := rfl
@[simp] theorem State.putReg_pending : (s.putReg a v).pending = s.pending := rfl
@[simp] theorem State.putReg_bad : (s.putReg a v).bad = s.bad := rfl
@[simp] theorem State.putReg_byte (i : Nat) : (s.putReg a v).byte i = s.byte i := rfl
@[simp] theorem State.putReg_otpByte (i : Nat) : (s.putReg a v).otpByte i = s.otpByte i := rfl
@[simp] theorem State.putReg_word (x : Tab) (i : Nat) : (s.putReg a v).word x i = s.word x i := by cases x <;> rfl
end

end Sys2Proof.Machine
end

