-- ==== Sys2Proof/Laws/Noted.lean ====
section
/-!
SUPPORT. What events, FLT bits and performance counts leave: registers of their page alone (R305, R318, R319, R456).
-/
namespace Sys2Proof.Machine
open Sys2Proof.Reg

/-- From `s` to `t` only registers of a list moved, and events were added. -/
structure State.Noted (l : List Nat) (s t : State) : Prop where
  within : s.Within (onlyRegs l) t
  dev : t.dev = s.dev
  free : t.free = s.free

theorem State.noted_refl (l : List Nat) (s : State) : State.Noted l s s := ⟨s.within_refl _, rfl, rfl⟩
theorem State.Noted.trans {l : List Nat} {s t u : State} (h : State.Noted l s t) (g : State.Noted l t u) : State.Noted l s u :=
  ⟨h.within.trans g.within, g.dev.trans h.dev, g.free.trans h.free⟩
theorem State.Noted.core {l : List Nat} {s t : State} (h : State.Noted l s t) : t.core = s.core := h.within.core rfl
theorem State.Noted.reg {l : List Nat} {s t : State} (h : State.Noted l s t) {a : Nat} (ha : a ∉ l) : t.reg a = s.reg a :=
  h.within.regs a (by simpa [onlyRegs] using ha)

/-- A page's performance counters. -/
def perfRegs (p : Nat) : List Nat := [PERF_CNT p 0, PERF_CNT p 1, PERF_CNT p 2, PERF_CNT p 3]

theorem noted_putReg {l : List Nat} {s : State} {a : Nat} {v : Word} (h : a ∈ l) : State.Noted l s (s.putReg a v) :=
  ⟨⟨fun r hr => State.reg_putReg_other v (by rintro rfl; simp [onlyRegs, h] at hr), fun _ _ => rfl, fun _ _ _ => by simp, fun _ _ => rfl,
    fun _ => rfl, fun _ => rfl, fun _ => rfl, rfl⟩, rfl, rfl⟩

theorem gives_perf {p e n : Nat} {s : State} :
    (perf p e n).Gives s fun _ t => State.Noted (perfRegs p) s t ∧ t.events = s.events := by
  refine gives_forAll ⟨State.noted_refl _ _, rfl⟩ fun k hk t ht => ?_
  refine gives_bind (gives_bind (gives_getS (gives_pure ?_)))
  split
  · refine gives_bind (gives_bind (gives_getS (gives_pure (gives_wr ⟨ht.1.trans (noted_putReg ?_), ht.2⟩))))
    have := List.mem_range.mp hk
    rcases k with _ | _ | _ | _ | k <;> first | omega | simp [perfRegs]
  · exact gives_pure ht

theorem gives_emitNow {p e : Nat} {s : State} :
    (emitNow p e).Gives s fun _ t => State.Noted (perfRegs p) s t ∧ t.events = s.events ++ [e] := by
  refine gives_bind (gives_act ?_)
  refine gives_perf.mono fun _ t ht => ⟨State.Noted.trans ?_ ht.1, ht.2⟩
  exact ⟨⟨fun _ _ => by simp, fun _ _ => by simp, fun _ _ _ => by simp, fun _ _ => by simp,
    fun _ => rfl, fun _ => rfl, fun _ => rfl, rfl⟩, rfl, rfl⟩

theorem perfRegs_sub {p a : Nat} (h : a ∈ perfRegs p) : a ∈ evRegs p := by
  simp only [perfRegs, evRegs, List.mem_cons] at *; tauto

theorem State.Noted.sub {l m : List Nat} {s t : State} (h : State.Noted l s t) (g : ∀ a ∈ l, a ∈ m) : State.Noted m s t :=
  ⟨⟨fun a ha => h.reg fun hl => by simp [onlyRegs, g a hl] at ha, fun a _ => h.within.mem a rfl, fun x _ i => h.within.tab x rfl i,
    fun _ i => h.within.otp rfl i, fun _ => h.within.bad rfl, fun _ => h.within.core rfl, fun _ => h.within.keys rfl, h.within.pending⟩, h.dev, h.free⟩

theorem gives_setFlt {p b : Nat} {s : State} : (setFlt p b).Gives s fun _ t => State.Noted (evRegs p) s t := by
  refine gives_bind (gives_bind (gives_getS (gives_pure (gives_bind (gives_wr ?_)))))
  exact gives_emitNow.mono fun _ t ht => (noted_putReg (by simp [evRegs])).trans (ht.1.sub fun a => perfRegs_sub)

/-- An event leaves registers of FLT and of the performance counters alone different. -/
theorem gives_emit {p e : Nat} {s : State} : (emit p e).Gives s fun _ t => s.Within (onlyRegs (evRegs p)) t := by
  refine gives_bind (gives_getS ?_)
  split
  · refine gives_bind (gives_act (gives_setFlt.mono fun _ t ht => ?_))
    refine State.Within.trans ?_ ht.within
    exact ⟨fun _ _ => rfl, fun _ _ => rfl, fun _ _ _ => by simp, fun _ _ => rfl, fun _ => rfl, fun _ => rfl, fun _ => rfl, rfl⟩
  · exact gives_emitNow.mono fun _ t ht => (ht.1.sub fun a => perfRegs_sub).within

end Sys2Proof.Machine
end

