-- ==== Sys2Proof/Laws/Insn.lean ====
section
/-!
SUPPORT. How an instruction of the Stroke core runs where nothing stops it: the fetch, the body, the retirement (R250,
R256, R265, R267).
-/
namespace Sys2Proof.Machine
open Sys2Proof.Reg

/-- A word without its bits 1:0 is a multiple of 4. -/
theorem aligned_iff (x : Word) : x &&& (0xFFFFFFFC : Word) = x ↔ x.toNat % 4 = 0 := by
  have e : x &&& (0xFFFFFFFC : Word) = (x >>> 2) <<< 2 := by
    ext i hi
    have key : ∀ i : Fin 32, (0xFFFFFFFC : Word).getLsbD i = decide (2 ≤ i.val) := by decide
    have := key ⟨i, hi⟩
    simp only [BitVec.getLsbD_eq_getElem hi] at this
    rw [BitVec.getElem_and, this, BitVec.getElem_shiftLeft]
    by_cases h : i < 2
    · simp [h]
    · simp only [h, decide_false, Bool.not_false, Bool.true_and]
      have h2 : 2 + (i - 2) = i := by omega
      rw [BitVec.getElem_ushiftRight, h2, BitVec.getLsbD_eq_getElem hi, show decide (2 ≤ i) = true from by simp; omega]
      simp
  rw [e, ← BitVec.toNat_inj]
  simp only [BitVec.toNat_shiftLeft, BitVec.toNat_ushiftRight, Nat.shiftLeft_eq, Nat.shiftRight_eq_div_pow]
  have := x.isLt
  omega

theorem pc_next {c : Core} (h : c.Legal) : (c.pc + 4) &&& (0xFFFFFFFC : Word) = c.pc + 4 := by
  have := (aligned_iff _).mp h.1
  rw [aligned_iff]
  rw [BitVec.toNat_add, show (4 : Word).toNat = 4 from rfl]
  omega
theorem Core.norm_of_legal {c : Core} (h : c.Legal) : c.norm = c := by
  obtain ⟨h1, h2, h3⟩ := h
  rw [Core.norm, h1, h2, h3]

/-- Time passes for the core: CYCLE and INTC's performance counters move, nothing else. -/
structure State.Ticked (s t : State) : Prop where
  core : ∃ x, t.core = { s.core with cycle := x }
  dev : t.dev = s.dev
  free : t.free = s.free
  events : t.events = s.events
  within : s.Within coreFoot t

theorem coreFoot_perf {a : Nat} (h : coreFoot.regs a = false) : a ∉ perfRegs intcPage := by
  intro ha
  simp only [coreFoot, evRegs, perfRegs, List.tail_cons] at *
  simp [ha] at h

theorem State.Noted.coreFoot {s t : State} (h : State.Noted (perfRegs intcPage) s t) : s.Within coreFoot t :=
  ⟨fun _ ha => h.reg (coreFoot_perf ha), fun a _ => h.within.mem a rfl, fun x _ i => h.within.tab x rfl i,
    fun _ i => h.within.otp rfl i, fun _ => h.within.bad rfl, fun _ => h.within.core rfl, fun _ => h.within.keys rfl, h.within.pending⟩

theorem State.within_coreFoot (s : State) (f : Core → Core) : s.Within coreFoot (Prim.run (.core f) s) :=
  ⟨fun _ _ => by simp, fun _ _ => by simp, fun _ _ _ => by simp, fun _ _ => by simp,
    fun _ => rfl, fun hc => by simp [Sys2Proof.Machine.coreFoot] at hc, fun _ => rfl, rfl⟩

theorem gives_cyc {n : Nat} {s : State} (hs : s.Inv) : (cyc n).Gives s fun _ t => s.Ticked t := by
  refine gives_bind (gives_act (gives_bind (gives_getS ?_)))
  have h1 : s.Ticked (Prim.run (.core fun c => { c with cycle := c.cycle + BitVec.ofNat 32 n }) s) := by
    refine ⟨⟨s.core.cycle + BitVec.ofNat 32 n, ?_⟩, rfl, rfl, rfl, s.within_coreFoot _⟩
    exact Core.norm_of_legal (c := { s.core with cycle := _ }) hs.core
  split
  · refine gives_perf.mono fun _ t ht => ?_
    obtain ⟨⟨x, hx⟩, h2, h3, h4, h5⟩ := h1
    exact ⟨⟨x, ht.1.core.trans hx⟩, ht.1.dev.trans h2, ht.1.free.trans h3, ht.2.trans h4, h5.trans ht.1.coreFoot⟩
  · exact gives_pure h1

/-- What an instruction's fetch leaves where it goes no further: the error memory may have been mended (R272). -/
structure State.Fetched (s t : State) : Prop where
  core : t.core = s.core
  within : s.Within coreFoot t
  hw : t.dev = { s.dev with ctr := t.dev.ctr, eccOne := t.dev.eccOne, eccBad := t.dev.eccBad }

theorem gives_bpMiss {s : State} {kinds : List Nat} {a : Nat} (h : ∀ n < 4, s.bpMatch kinds a n = false) :
    (bpHit kinds a).Gives s fun b t => b = false ∧ t = s := by
  refine gives_bind (gives_getS ?_)
  have : ((List.range 4).filter fun n => s.bpMatch kinds a n) = [] := by
    simp only [List.filter_eq_nil_iff, List.mem_range]
    intro n hn
    simp [h n hn]
  simp only [this, List.isEmpty_nil, if_true]
  exact gives_pure ⟨rfl, rfl⟩

theorem gives_fetch {s : State} (h : s.Fetches) :
    fetch.Gives s fun c t => c = none ∧ s.Fetched t := by
  obtain ⟨⟨r, hr, hf, hk⟩, hm, hb⟩ := h
  refine gives_bind (gives_getS ?_)
  simp only [hr]
  rw [if_neg (by simp [hf, hm])]
  have hw : (s.windowWaits s.core.pc.toNat && !s.core.icache.any fun e => e.1 == s.core.pc.toNat / 32) = false := by
    by_cases hs : r.kind = .sram
    · obtain ⟨lo, hi, k⟩ := r
      simp only at hs
      subst hs
      simp [State.windowWaits, hr]
    · rw [if_neg hs] at hk
      simp [hk]
  rw [if_neg (by simp [hw])]
  refine gives_bind ((gives_bpMiss hb).mono ?_)
  rintro _ _ ⟨rfl, rfl⟩
  simp only [Bool.false_eq_true, if_false]
  split
  · rename_i hs
    rw [if_pos hs] at hk
    refine gives_bind (gives_bind (gives_getS ?_))
    simp only [hk, if_false]
    split
    · refine gives_bind (gives_bind (gives_getS (gives_act (gives_bind (gives_act (gives_pure ?_))))))
      rw [if_pos rfl]
      exact gives_pure ⟨rfl, rfl, ⟨fun _ _ => by simp, fun _ _ => by simp, fun _ _ _ => by simp, fun _ _ => by simp,
        fun _ => rfl, fun _ => rfl, fun _ => rfl, rfl⟩, rfl⟩
    · exact gives_pure (by rw [if_pos rfl]; exact gives_pure ⟨rfl, rfl, State.within_refl _ _, rfl⟩)
  · rename_i hs
    rw [if_neg hs] at hk
    simp only [hk, if_true]
    exact gives_pure ⟨rfl, rfl, State.within_refl _ _, rfl⟩

theorem gives_noSample {s : State} {pc w c : Word} {a b : Bool} (h : s.en tallyPage = false) :
    (tallySample pc w c a b).Gives s fun _ t => t = s := by
  refine gives_bind (gives_getS ?_)
  simp only [h, Bool.false_eq_true, if_false]
  exact gives_pure rfl

/-- The core once an instruction that leaves `c` has retired. -/
def Core.retired (c : Core) (next : Word) (slot : Option LdSlot) : Core :=
  let c := match c.slot with
    | some l => { c with g := Sparse.set wordReset c.g l.rd l.val }
    | none => c
  { c with pc := next, slot := slot, insn := false }

/-- An instruction retires: its load slot is written, PC moves. -/
theorem gives_retire {next : Word} {slot : Option LdSlot} {s : State} (hs : s.Inv) (hn : next &&& 0xFFFFFFFC = next) :
    (retire next slot).Gives s fun _ t => t.core = s.core.retired next slot ∧ s.Within coreFoot t ∧ t.dev = s.dev := by
  obtain ⟨h1, h2, h3⟩ := hs.core
  refine gives_bind (gives_getS ?_)
  cases hsl : s.core.slot with
  | none =>
    refine gives_bind (gives_nop (gives_act ⟨?_, s.within_coreFoot _, rfl⟩))
    simp only [Prim.run_core_core, Core.retired, hsl, Core.norm, hn, h2, h3]
  | some l =>
    refine gives_bind (gives_act (gives_act ⟨?_, (s.within_coreFoot _).trans (State.within_coreFoot _ _), rfl⟩))
    simp only [Prim.run_core_core, Core.retired, hsl, Core.norm, hn, h2, h3]

/-- How an instruction that has executed leaves the core, by the way its body ended. -/
def Done.leaves (d : Done) (pc : Word) (c : Core) : Option Core :=
  match d with
  | .next => some (c.retired (pc + 4) none)
  | .goto a => some (c.retired a none)
  | .load rd v => some (c.retired (pc + 4) (some ⟨rd, v, pc⟩))
  | _ => none

/-- An instruction executes: what its body comes to, retired. -/
theorem gives_insn {s : State} {word : Word} {forbid : Bool} {body : M Done} {Q : State → Prop} (h : s.Ready)
    (hf : forbid = false ∨ s.core.slot = none)
    (hb : ∀ u, s.Fetched u → u.Inv → body.Gives (Prim.run (.core fun c => { c with insn := true }) u) fun d t =>
      t.core.insn = true ∧ t.en tallyPage = false ∧ (∀ a, d = .goto a → a &&& (0xFFFFFFFC : Word) = a) ∧
      ∃ c, d.leaves s.core.pc t.core = some c ∧
        ∀ w : State, w.core = c → t.Within coreFoot w → w.dev = t.dev → Q w) :
    (insn word false forbid body).Gives s fun _ t => Q t := by
  have hp := pc_next h.inv.core
  refine gives_bind (gives_getS ?_)
  simp only [h.runs, if_true, h.noStep]
  refine gives_bind ((gives_fetch h.fetches).monoInv h.inv ?_)
  rintro _ u hui ⟨rfl, hu⟩
  simp only [Bool.false_eq_true, if_false]
  rw [if_neg (by rcases hf with hf | hf <;> simp [hf])]
  refine gives_bind (gives_act ?_)
  refine gives_bind ((hb u hu hui).monoInv (Prim.run_inv _ _ hui) ?_)
  rintro d t hti ⟨h1, h2, h3, c, hc, hq⟩
  have fin : ∀ (next : Word) (sl : Option LdSlot) (tail : M Unit) (w : State), State.Noted (perfRegs intcPage) t w → w.Inv →
      next &&& (0xFFFFFFFC : Word) = next → t.core.retired next sl = c →
      (∀ w, tail.Gives w fun _ x => x = w) →
      ((retire next sl) >>= fun _ => tail).Gives w fun _ x => Q x := by
    intro next sl tail w hw hwi hn hcc htail
    refine gives_bind ((gives_retire hwi hn).mono ?_)
    rintro _ x ⟨g1, g2, g3⟩
    refine (htail x).mono ?_
    rintro _ _ rfl
    exact hq _ (by rw [g1, hw.core, hcc]) (hw.coreFoot.trans g2) (by rw [g3, hw.dev])
  have step : ∀ w : State, (stepBrk false).Gives w fun _ x => x = w := by
    intro w
    refine gives_bind (gives_getS ?_)
    exact gives_pure rfl
  have pre : ∀ (k : M Unit), (∀ w : State, State.Noted (perfRegs intcPage) t w → w.Inv → k.Gives w fun _ x => Q x) →
      (getS >>= fun t' => perf intcPage 0x40 1 >>= fun _ =>
        tallySample s.core.pc word s.core.cycle s.core.slot.isSome false >>= fun _ =>
        if t'.core.insn = true then k else pure ()).Gives t fun _ x => Q x := by
    intro k hk
    refine gives_bind (gives_getS (gives_bind (gives_perf.monoInv hti ?_)))
    rintro _ w hwi ⟨hw, _⟩
    have he : w.en tallyPage = false := by
      rw [State.en, State.bit, State.fld, hw.reg (by decide)]
      exact h2
    refine gives_bind ((gives_noSample he).mono ?_)
    rintro _ _ rfl
    rw [if_pos h1]
    exact hk _ hw hwi
  cases d with
  | next =>
    simp only [Done.leaves, Option.some.injEq] at hc
    exact pre _ fun w hw hwi => fin _ _ _ w hw hwi hp hc step
  | goto a =>
    simp only [Done.leaves, Option.some.injEq] at hc
    exact pre _ fun w hw hwi => fin _ _ _ w hw hwi (h3 a rfl) hc step
  | load rd v =>
    simp only [Done.leaves, Option.some.injEq] at hc
    refine pre _ fun w hw hwi => ?_
    refine (gives_retire hwi hp).mono ?_
    rintro _ x ⟨g1, g2, g3⟩
    exact hq _ (by rw [g1, hw.core, hc]) (hw.coreFoot.trans g2) (by rw [g3, hw.dev])
  | stop c => simp [Done.leaves] at hc
  | svc n => simp [Done.leaves] at hc
  | again => simp [Done.leaves] at hc
  | ended => simp [Done.leaves] at hc

end Sys2Proof.Machine
end

