-- ==== Sys2Proof/Laws/Alu.lean ====
section
/-!
SUPPORT. What the Stroke core's arithmetic leaves: one general register, the flags, PC (R244, R245); and how a command's
act becomes its next state.
-/
namespace Sys2Proof.Machine
open Sys2Proof.Reg

/-- ST with a flag in 31:28 replaced has the same bits below. -/
theorem stMask_put {st : Word} {i v : Nat} (h : st &&& stMask = st) (hi : 28 ≤ i) (h32 : i < 32) :
    bitsPut st i i v &&& stMask = bitsPut st i i v := by
  rw [← BitVec.toNat_inj, BitVec.toNat_and]
  apply Nat.eq_of_testBit_eq
  intro j
  rw [Nat.testBit_and]
  by_cases hj : j < 32
  · rw [bitsPut_testBit _ _ _ _ _ (Nat.le_refl i) hj]
    split
    · rename_i hh
      have : ∀ j : Fin 32, 28 ≤ j.val → stMask.toNat.testBit j.val = true := by decide
      rw [this ⟨j, hj⟩ (by simp only; omega), Bool.and_true]
    · conv_rhs => rw [← h, BitVec.toNat_and, Nat.testBit_and]
  · rw [Nat.testBit_lt_two_pow (Nat.lt_of_lt_of_le (bitsPut st i i v).isLt (Nat.pow_le_pow_right (by omega) (by omega)))]
    rfl

theorem FlagOut.put_legal {f : FlagOut} {st : Word} (h : st &&& stMask = st) : f.put st &&& stMask = f.put st := by
  have key : ∀ (st : Word) (i : Nat) (b : Option Bool), 28 ≤ i → i < 32 → st &&& stMask = st →
      putFlag st i b &&& stMask = putFlag st i b := by
    intro st i b h1 h2 h
    cases b with
    | none => exact h
    | some b => exact stMask_put h h1 h2
  unfold FlagOut.put
  exact key _ _ _ (by omega) (by omega) (key _ _ _ (by omega) (by omega) (key _ _ _ (by omega) (by omega)
    (key _ _ _ (by omega) (by omega) h)))

/-- What the body of a plain instruction leaves of the core: CYCLE, one general register, ST. -/
theorem gives_plain {s : State} {word : Word} {body : M Done} {g : Nat → Word} {st : Word} (h : s.Ready)
    (hb : ∀ u : State, u.Inv → u.core = { s.core with insn := true } → s.Within coreFoot u →
      body.Gives u fun d t => d = .next ∧ (∃ x y, t.core = { u.core with cycle := x, g := y, st := st } ∧
        ∀ k, Sparse.get wordReset y k = g k) ∧ s.Within coreFoot t) :
    (insn word false false body).Gives s fun _ t => s.Executed t (s.core.pc + 4) g ∧ t.core.st = st := by
  refine gives_insn h (.inl rfl) fun u hu hui => ?_
  have hl : (Prim.run (.core fun c => { c with insn := true }) u).core = { s.core with insn := true } := by
    simp only [Prim.run_core_core, hu.core]
    exact Core.norm_of_legal (c := { s.core with insn := true }) h.inv.core
  refine (hb _ (Prim.run_inv _ _ hui) hl (hu.within.trans (State.within_coreFoot _ _))).mono ?_
  rintro d t ⟨rfl, ⟨x, y, hc, hg⟩, hw⟩
  rw [hl] at hc
  refine ⟨by rw [hc], ?_, by simp, _, rfl, fun w hwc hw2 hwd => ?_⟩
  · rw [State.en, State.bit, State.fld, hw.regs _ (by decide)]
    exact h.noSample
  · have hc' : w.core = Core.retired { s.core with cycle := x, g := y, st := st, insn := true } (s.core.pc + 4) none := by
      rw [hwc, hc]
    have hrest : s.Within coreFoot w := hw.trans hw2
    cases hsl : s.core.slot with
    | none =>
      simp only [Core.retired, hsl] at hc'
      refine ⟨⟨by rw [hc'], by rw [hc'], fun k => ?_, by rw [hc'], by rw [hc'], by rw [hc'], by rw [hc'], by rw [hc'],
        by rw [hc'], hrest⟩, by rw [hc']⟩
      rw [State.g, hc', State.slotted, hsl]
      exact hg k
    | some l =>
      simp only [Core.retired, hsl] at hc'
      refine ⟨⟨by rw [hc'], by rw [hc'], fun k => ?_, by rw [hc'], by rw [hc'], by rw [hc'], by rw [hc'], by rw [hc'],
        by rw [hc'], hrest⟩, by rw [hc']⟩
      rw [State.g, hc', State.slotted, hsl]
      by_cases hk : k = l.rd
      · subst hk
        simp [Sparse.get_set_same]
      · simp [Sparse.get_set_other _ _ _ _ _ hk, hk, hg]


/-- A flag of ST, put or left. -/
theorem putFlag_bit (st : Word) (i j : Nat) (b : Option Bool) (hi : i < 32) (hj : j < 32) :
    (putFlag st i b).toNat.testBit j = if j = i then b.getD (st.toNat.testBit i) else st.toNat.testBit j := by
  cases b with
  | none =>
    simp only [putFlag, Option.getD_none]
    split
    · rename_i e; rw [e]
    · rfl
  | some b =>
    simp only [putFlag, Option.getD_some]
    rw [bitsPut_testBit _ _ _ _ _ (Nat.le_refl i) hj]
    by_cases e : j = i
    · subst e; cases b <;> simp [b2n]
    · rw [if_neg (by omega), if_neg e]

theorem FlagOut.put_flags (f : FlagOut) (s t : State) (h : t.core.st = f.put s.core.st) :
    s.FlagsAre t f.n f.z f.c f.v := by
  have key : ∀ j < 32, (f.put s.core.st).toNat.testBit j =
      if j = 28 then f.v.getD (s.core.st.toNat.testBit 28) else if j = 29 then f.c.getD (s.core.st.toNat.testBit 29)
      else if j = 30 then f.z.getD (s.core.st.toNat.testBit 30) else if j = 31 then f.n.getD (s.core.st.toNat.testBit 31)
      else s.core.st.toNat.testBit j := by
    intro j hj
    have hj' : j = 28 ∨ j = 29 ∨ j = 30 ∨ j = 31 ∨ j < 28 := by omega
    rcases hj' with rfl | rfl | rfl | rfl | hl
    · simp [FlagOut.put, putFlag_bit]
    · simp [FlagOut.put, putFlag_bit]
    · simp [FlagOut.put, putFlag_bit]
    · simp [FlagOut.put, putFlag_bit]
    · have e1 : j ≠ 28 := by omega
      have e2 : j ≠ 29 := by omega
      have e3 : j ≠ 30 := by omega
      have e4 : j ≠ 31 := by omega
      simp [FlagOut.put, putFlag_bit, hj, e1, e2, e3, e4]
  refine ⟨?_, ?_, ?_, ?_, fun i hi => ?_⟩
  · rw [stN, bitOf, h, key 31 (by omega)]; rfl
  · rw [stZ, bitOf, h, key 30 (by omega)]; rfl
  · rw [stC, bitOf, h, key 29 (by omega)]; rfl
  · rw [stV, bitOf, h, key 28 (by omega)]; rfl
  · rw [h, key i (by omega), if_neg (by omega), if_neg (by omega), if_neg (by omega), if_neg (by omega)]


/-- The general registers of a core after one is written. -/
theorem get_setG (c : Core) (rd : Nat) (v : Word) (k : Nat) :
    Sparse.get wordReset (Sparse.set wordReset c.g rd v) k = if k = rd then v else Sparse.get wordReset c.g k := by
  by_cases h : k = rd
  · subst h; simp [Sparse.get_set_same]
  · simp [Sparse.get_set_other _ _ _ _ _ h, h]

/-- A register and register instruction: its result, and its flags. -/
theorem gives_aluInsn {s : State} {fn : Nat} {o : RegOps} {always writes : Bool} {f : Word → Word → Bool → Word × FlagOut}
    (h : s.Ready) (hr : o.res = 0) :
    (aluInsn fn o always writes f).Gives s fun _ t =>
      let x := f (s.g o.ra.val) (s.g o.rb.val) (stC s.core.st)
      s.Executed t (s.core.pc + 4) (if writes then s.gWith o.rd.val x.1 else s.g) ∧
        t.core.st = if always || o.s then x.2.put s.core.st else s.core.st := by
  rw [aluInsn, show (o.res != 0) = false from by simp [hr]]
  refine gives_plain h fun u hui huc huw => gives_bind ((gives_cyc hui).monoInv hui ?_)
  rintro _ v hvi ⟨⟨x, hx⟩, _, _, _, hvw⟩
  have hvc : v.core = { s.core with insn := true, cycle := x } := by rw [hx, huc]
  have hg : ∀ r, v.g r = s.g r := fun r => by rw [State.g, hvc, State.g]
  have hst : v.core.st = s.core.st := by rw [hvc]
  refine gives_bind (gives_getS ?_)
  simp only [hg, hst]
  have hlegal := h.inv.core
  have hput : ∀ q : FlagOut, q.put s.core.st &&& stMask = q.put s.core.st := fun q => FlagOut.put_legal hlegal.2.1
  generalize hx' : f (s.g o.ra.val) (s.g o.rb.val) (stC s.core.st) = r
  have tail : ∀ w : State, (∃ y, w.core = { v.core with g := y } ∧
        ∀ k, Sparse.get wordReset y k = (if writes then s.gWith o.rd.val r.1 else s.g) k) → s.Within coreFoot w →
      (if (always || o.s) = true then (modCore fun c => { c with st := r.2.put c.st }) >>= fun _ =>
        (pure Done.next : M Done) else pure Done.next).Gives w fun d t => d = .next ∧ (∃ x y,
          t.core = { u.core with cycle := x, g := y, st := if always || o.s then r.2.put s.core.st else s.core.st } ∧
        ∀ k, Sparse.get wordReset y k = (if writes then s.gWith o.rd.val r.1 else s.g) k) ∧ s.Within coreFoot t := by
    rintro w ⟨y, hw, hy⟩ hww
    cases hb : (always || o.s)
    · refine gives_pure ⟨rfl, ⟨x, y, ?_, hy⟩, hww⟩
      rw [hw, hvc, huc]
      simp
    · rw [if_pos rfl]
      refine gives_bind (gives_act (gives_pure ⟨rfl, ⟨x, y, ?_, hy⟩, hww.trans (State.within_coreFoot _ _)⟩))
      rw [Prim.run_core_core, hw, hvc, huc]
      exact Core.norm_of_legal ⟨hlegal.1, hput _, hlegal.2.2⟩
  cases writes
  · refine tail v ⟨v.core.g, rfl, fun k => ?_⟩ (huw.trans hvw)
    rw [hvc]
    rfl
  · rw [if_pos rfl]
    refine gives_bind (gives_act (tail _ ⟨Sparse.set wordReset v.core.g o.rd.val r.1, ?_, fun k => ?_⟩
      ((huw.trans hvw).trans (State.within_coreFoot _ _))))
    · rw [Prim.run_core_core]
      exact Core.norm_of_legal (c := { v.core with g := Sparse.set wordReset v.core.g o.rd.val r.1 }) hvi.core
    · rw [get_setG, hvc]
      rfl

/-- An immediate instruction: its result, and its flags. -/
theorem gives_immInsn {s : State} {op : Nat} {o : ImmOps} {always writes : Bool} {f : Word → Word × FlagOut}
    (h : s.Ready) (hr : o.res = false) :
    (immInsn op o always writes f).Gives s fun _ t =>
      let x := f (s.g o.ra.val)
      s.Executed t (s.core.pc + 4) (if writes then s.gWith o.rd.val x.1 else s.g) ∧
        t.core.st = if always || o.s then x.2.put s.core.st else s.core.st := by
  rw [immInsn, hr]
  refine gives_plain h fun u hui huc huw => gives_bind ((gives_cyc hui).monoInv hui ?_)
  rintro _ v hvi ⟨⟨x, hx⟩, _, _, _, hvw⟩
  have hvc : v.core = { s.core with insn := true, cycle := x } := by rw [hx, huc]
  have hg : ∀ r, v.g r = s.g r := fun r => by rw [State.g, hvc, State.g]
  refine gives_bind (gives_getS ?_)
  simp only [hg]
  have hlegal := h.inv.core
  have hput : ∀ q : FlagOut, q.put s.core.st &&& stMask = q.put s.core.st := fun q => FlagOut.put_legal hlegal.2.1
  generalize hx' : f (s.g o.ra.val) = r
  have tail : ∀ w : State, (∃ y, w.core = { v.core with g := y } ∧
        ∀ k, Sparse.get wordReset y k = (if writes then s.gWith o.rd.val r.1 else s.g) k) → s.Within coreFoot w →
      (if (always || o.s) = true then (modCore fun c => { c with st := r.2.put c.st }) >>= fun _ =>
        (pure Done.next : M Done) else pure Done.next).Gives w fun d t => d = .next ∧ (∃ x y,
          t.core = { u.core with cycle := x, g := y, st := if always || o.s then r.2.put s.core.st else s.core.st } ∧
        ∀ k, Sparse.get wordReset y k = (if writes then s.gWith o.rd.val r.1 else s.g) k) ∧ s.Within coreFoot t := by
    rintro w ⟨y, hw, hy⟩ hww
    cases hb : (always || o.s)
    · refine gives_pure ⟨rfl, ⟨x, y, ?_, hy⟩, hww⟩
      rw [hw, hvc, huc]
      simp
    · rw [if_pos rfl]
      refine gives_bind (gives_act (gives_pure ⟨rfl, ⟨x, y, ?_, hy⟩, hww.trans (State.within_coreFoot _ _)⟩))
      rw [Prim.run_core_core, hw, hvc, huc]
      exact Core.norm_of_legal ⟨hlegal.1, hput _, hlegal.2.2⟩
  cases writes
  · refine tail v ⟨v.core.g, rfl, fun k => ?_⟩ (huw.trans hvw)
    rw [hvc]
    rfl
  · rw [if_pos rfl]
    refine gives_bind (gives_act (tail _ ⟨Sparse.set wordReset v.core.g o.rd.val r.1, ?_, fun k => ?_⟩
      ((huw.trans hvw).trans (State.within_coreFoot _ _))))
    · rw [Prim.run_core_core]
      exact Core.norm_of_legal (c := { v.core with g := Sparse.set wordReset v.core.g o.rd.val r.1 }) hvi.core
    · rw [get_setG, hvc]
      rfl

/-- A command answers the state its act leaves, with the edges latched. -/
theorem completes_cmd {c : Instr} {s : State} {m : M Unit} {P : State → Prop} (h : exec c s = cmd s m)
    (g : m.Gives s fun _ t => P (latchEdges s t)) : Completes c s P :=
  ⟨_, h, g.run⟩

theorem State.Within.latch {s t u : State} {F : Foot} (h : s.Within F t) : s.Within F (latchEdges u t) := by
  obtain ⟨h1, h2, h3, h4, h5, h6, h7, h8⟩ := h
  exact ⟨h1, h2, fun x hx i => by rw [latchEdges_word]; exact h3 x hx i, h4, h5, h6, h7, h8⟩

theorem State.Executed.latch {s t u : State} {next : Word} {g : Nat → Word} (h : s.Executed t next g) :
    s.Executed (latchEdges u t) next g := by
  obtain ⟨h1, h2, h3, h4, h5, h6, h7, h8, h9, h10⟩ := h
  exact ⟨h1, h2, h3, h4, h5, h6, h7, h8, h9, h10.latch⟩

theorem State.FlagsAre.latch {s t u : State} {n z c v : Option Bool} (h : s.FlagsAre t n z c v) :
    s.FlagsAre (latchEdges u t) n z c v := by
  obtain ⟨h1, h2, h3, h4, h5⟩ := h
  exact ⟨h1, h2, h3, h4, h5⟩

/-- A register and register instruction completes as its row says, where its function gives the row's result and flags. -/
theorem alu_reg {s : State} {c : Instr} {fn : Nat} {o : RegOps} {always writes : Bool}
    {f : Word → Word → Bool → Word × FlagOut} {r : AluRow} (h : s.Ready) (hr : o.res = 0)
    (hc : exec c s = cmd s (aluInsn fn o always writes f))
    (hf : f (s.g o.ra.val) (s.g o.rb.val) (stC s.core.st) =
      (r.res, { n := some r.res.msb, z := some (r.res == 0), c := r.carry, v := r.ovf })) :
    s.Alu c (if writes then some o.rd.val else none) (always || o.s) r := by
  refine completes_cmd hc ((gives_aluInsn h hr).mono ?_)
  rintro _ t ⟨h1, h2⟩
  rw [hf] at h1 h2
  refine ⟨?_, ?_⟩
  · cases writes <;> exact h1.latch
  · cases hb : (always || o.s)
    · rw [hb] at h2
      exact (FlagOut.put_flags {} s t (by simpa [FlagOut.put, putFlag] using h2)).latch
    · rw [hb] at h2
      exact (FlagOut.put_flags _ s t h2).latch

/-- So for an immediate instruction. -/
theorem alu_imm {s : State} {c : Instr} {op : Nat} {o : ImmOps} {always writes : Bool}
    {f : Word → Word × FlagOut} {r : AluRow} (h : s.Ready) (hr : o.res = false)
    (hc : exec c s = cmd s (immInsn op o always writes f))
    (hf : f (s.g o.ra.val) =
      (r.res, { n := some r.res.msb, z := some (r.res == 0), c := r.carry, v := r.ovf })) :
    s.Alu c (if writes then some o.rd.val else none) (always || o.s) r := by
  refine completes_cmd hc ((gives_immInsn h hr).mono ?_)
  rintro _ t ⟨h1, h2⟩
  rw [hf] at h1 h2
  refine ⟨?_, ?_⟩
  · cases writes <;> exact h1.latch
  · cases hb : (always || o.s)
    · rw [hb] at h2
      exact (FlagOut.put_flags {} s t (by simpa [FlagOut.put, putFlag] using h2)).latch
    · rw [hb] at h2
      exact (FlagOut.put_flags _ s t h2).latch

theorem msb_bit (w : Word) : bitOf w.toNat 31 = w.msb := by
  rw [BitVec.msb_eq_getLsbD_last]; rfl

end Sys2Proof.Machine
end

