-- ==== Sys2Proof/WellFormed.lean ====
section
/-!
DEFINITION. Which commands can be sent at all: operands within the bounds the spec gives what they stand for. Meanings
are total and do not ask for it.
-/
namespace Sys2Proof

/-- The octets of an access (R248). -/
def Size.octets : Size → Nat
  | .byte => 1
  | .half => 2
  | .word => 4

/-- A page with the header of R301. -/
def clusterPage (page : Nat) : Bool := (Reg.pageRows page).isSome && Reg.hasHeader page

/-- A signed 16-bit level (R92). -/
def level16 (x : Int) : Bool := decide (-32768 ≤ x ∧ x < 32768)

/-- A management frame's MAC header ends by its 64th octet (R134). -/
def Tr.fits : Tr → Bool
  | .mesh hdr _ => decide (hdr.length ≤ 64)
  | _ => true

/-- An I²C read fits the 32-octet buffer (R496). -/
def I2cEnd.fits : I2cEnd → Bool
  | .done rx => decide (rx.length ≤ 32)
  | _ => true

/-- The operands are ones the command's source can give: pages and registers that exist (R269), header, frame and buffer
lengths (R102, R134, R293, R420, R473, R476, R496), levels (R92), rates (R471). -/
def Instr.wellFormed : Instr → Bool
  | .powerOnReset => true
  | .packageReset => true
  | .startSequence _ _ fails => decide (fails ≤ 3)
  | .linkRegionReset => true
  | .radioDieReset => true
  | .padRelease => true
  | .clusterReset page => clusterPage page
  | .clusterResetComplete page => clusterPage page
  | .clockGateClose page => clusterPage page
  | .registerWrite _ size a _ => decide (a.toNat % size.octets = 0) && (Reg.pageRows (Reg.pageOf a.toNat)).isSome
  | .parityFault a => (Reg.rowOf a.toNat).isSome
  | .d2dRxBurstError => true
  | .d2dTxBurstError => true
  | .d2dRegbusError _ => true
  | .bowUnresponsive => true
  | .radioRequestSleep _ _ => true
  | .radioRequestStby _ _ => true
  | .radioRequestSyn _ _ => true
  | .radioRequestRx _ _ => true
  | .radioTransitionDone => true
  | .channelChange _ _ _ => true
  | .cacheFlush => true
  | .synUnlock => true
  | .synLock => true
  | .lockTimeout => true
  | .txBlanking => true
  | .txCheck => true
  | .paRampUp => true
  | .txStart => true
  | .txEnd => true
  | .dutyMinuteBoundary => true
  | .profileLock _ => true
  | .testCarrierStart _ => true
  | .testCarrierStop => true
  | .testCarrierTimeout => true
  | .laneEnable _ => true
  | .laneDisable _ => true
  | .laneCounterClear _ => true
  | .agcUpdate _ _ => true
  | .preambleQualified _ pwr _ => level16 pwr
  | .stfDetected _ pwr _ => level16 pwr
  | .sfdDetected _ _ rssi => level16 rssi
  | .ltfEnd _ rssi _ => level16 rssi
  | .ltfMissing _ => true
  | .nosync _ => true
  | .phrDecoded _ p => decide (p.len < 2048 ∧ p.mcs < 32 ∧ p.seed < 4)
  | .energyMeasurement _ ed => level16 ed
  | .headerEnd _ hdr => decide (hdr.length ≤ 64)
  | .frameEnd _ psdu => decide (psdu.length < 2048)
  | .micResult _ => true
  | .linkModeOff => true
  | .linkModeSw => true
  | .linkModeHw => true
  | .coxUcodeLoad => true
  | .coxUcodeData _ => true
  | .coxUcodeDone => true
  | .coxUcodeCrcReady => true
  | .coxUcodeGood => true
  | .chainAlloc _ => true
  | .chainFree _ => true
  | .cellRevoke _ => true
  | .txDescriptorTake _ => true
  | .frameSecured => true
  | .txRelease => true
  | .ackWindowClose => true
  | .retryWaitExpiry => true
  | .peerWrite _ => true
  | .mailboxSelect _ page _ => clusterPage page
  | .mailboxSnapshot page => clusterPage page
  | .beaconPrepare => true
  | .seenAgeTick => true
  | .ntimeSet => true
  | .ntimeDesync => true
  | .ntimeCompareArm => true
  | .ntimeCompareMatch => true
  | .lfcalUpdate => true
  | .networkTimeCarry => true
  | .networkTimeRestore _ => true
  | .reanchor => true
  | .latticeAnchor => true
  | .rescan => true
  | .sampleWake => true
  | .sampleSynRequest => true
  | .sampleRxRequest => true
  | .sampleListenEnd => true
  | .sampleExtensionEnd => true
  | .strobeWake => true
  | .strobeMiss => true
  | .peerSweep _ => true
  | .beaconWindowOpen => true
  | .beaconWindowClose => true
  | .beaconHoldEnd => true
  | .scanTimeout => true
  | .pageBind _ _ _ => true
  | .frameDec _ _ _ => true
  | .ccmEnc _ _ _ => true
  | .ccmDec _ _ _ => true
  | .cmac _ _ _ => true
  | .cmacVerify _ _ _ => true
  | .unwrap _ _ _ => true
  | .keyErase _ _ _ => true
  | .cipherOpDone _ => true
  | .interruptAccept => true
  | .intcSet _ _ => true
  | .intcClr _ _ => true
  | .add _ => true
  | .adc _ => true
  | .sub _ => true
  | .sbc _ => true
  | .and _ => true
  | .or _ => true
  | .xor _ => true
  | .andn _ => true
  | .shl _ => true
  | .shr _ => true
  | .sar _ => true
  | .ror _ => true
  | .shli _ => true
  | .shri _ => true
  | .sari _ => true
  | .rori _ => true
  | .mul _ => true
  | .mulh _ => true
  | .mulhu _ => true
  | .div _ => true
  | .divu _ => true
  | .rem _ => true
  | .remu _ => true
  | .cmp _ => true
  | .tst _ => true
  | .swap _ => true
  | .sexb _ => true
  | .sexh _ => true
  | .clz _ => true
  | .addi _ => true
  | .andi _ => true
  | .ori _ => true
  | .xori _ => true
  | .cmpi _ => true
  | .tsti _ => true
  | .movi _ => true
  | .movh _ => true
  | .ld _ => true
  | .st _ => true
  | .bcc _ _ => true
  | .call _ => true
  | .jmp _ => true
  | .callr _ => true
  | .retx _ => true
  | .svc _ => true
  | .brk _ => true
  | .rdsp _ => true
  | .wrsp _ => true
  | .ei _ => true
  | .di _ => true
  | .waitDoze _ => true
  | .dozeEnd => true
  | .waitLowPower _ _ _ => true
  | .sync _ => true
  | .iinv _ => true
  | .movs _ => true
  | .fills _ => true
  | .cmps _ => true
  | .scans _ => true
  | .crcs _ => true
  | .callm _ => true
  | .retm _ => true
  | .program _ _ _ => true
  | .erase _ => true
  | .suspend => true
  | .resume _ => true
  | .flashStatus => true
  | .readCounters => true
  | .fcntReserve _ _ => true
  | .erasePulseEnd _ => true
  | .sramBankClearDone _ => true
  | .xspiSequence _ => true
  | .xspiSequenceDone rx device => decide (rx.length ≤ 256) && device.all fun c => decide (c.1 < 0x04000000)
  | .xspiStatusPoll _ => true
  | .dmaEnable _ => true
  | .dmaElement _ _ => true
  | .riggerChannelFire _ => true
  | .riggerSoftFire _ _ => true
  | .riggerLock _ _ => true
  | .riggerCountClear _ => true
  | .pendingTask _ => true
  | .stTick _ => true
  | .stTopWrite _ _ => true
  | .stCcWrite _ _ _ => true
  | .ltTick _ => true
  | .ltEnable _ => true
  | .ltCmpWrite _ _ => true
  | .rtcSecond => true
  | .rtcSecondsWrite _ => true
  | .rtcLoad => true
  | .rtcAlarmWrite _ => true
  | .rtcPowerOnReset => true
  | .vrtcSwitch _ _ => true
  | .vinLost => true
  | .vinReturn => true
  | .storeRegulatorStart => true
  | .storeRegulatorStop => true
  | .vstoreMeasurement _ => true
  | .chargeCeiling => true
  | .chargeRestart => true
  | .overshootBleed => true
  | .overshootBleedEnd => true
  | .doorOpen => true
  | .doorClosed => true
  | .govDischarge => true
  | .govResume => true
  | .bleedSafe => true
  | .bleedTimeout => true
  | .relayPulseStart _ => true
  | .relayPulseEnd => true
  | .relayIntervalEnd => true
  | .entryLfEdge _ => true
  | .entryComplete => true
  | .wakeFromRest _ => true
  | .wakeFromEasy _ => true
  | .xoStable => true
  | .pllLock => true
  | .clockSelect _ => true
  | .xoFail => true
  | .lfCrystalOk => true
  | .lfCrystalFail => true
  | .aliveWrite _ => true
  | .watchdogWarning => true
  | .watchdogExpiry => true
  | .softwareReset _ => true
  | .bowUcodeLoad => true
  | .bowUcodeData _ => true
  | .bowUcodeDone => true
  | .bowUcodeCrcReady => true
  | .bowUcodeGood => true
  | .otpRead _ => true
  | .otpProgram _ _ _ => true
  | .appendReg _ _ _ => true
  | .appendGov _ _ _ => true
  | .advance _ _ _ => true
  | .raiseArb _ _ _ => true
  | .otpDone => true
  | .status tr _ => tr.fits
  | .resetLinkRegion tr _ _ => tr.fits
  | .resetRadioDie tr _ _ => tr.fits
  | .resetStart tr _ _ => tr.fits
  | .resetDelayExpiry => true
  | .timedReset => true
  | .abortTx tr _ => tr.fits
  | .abortLane tr _ _ => tr.fits
  | .abortLanes tr _ => tr.fits
  | .abortRelays tr _ => tr.fits
  | .abortCiph tr _ _ => tr.fits
  | .abortDma tr _ _ => tr.fits
  | .abortFlashProg tr _ => tr.fits
  | .abortFlashErase tr _ => tr.fits
  | .abortXspi tr _ => tr.fits
  | .abortCore tr _ => tr.fits
  | .abortCox tr _ => tr.fits
  | .abortUpdate tr _ => tr.fits
  | .abortAll tr _ => tr.fits
  | .readMem tr _ p => tr.fits && decide (p.length ≤ 4096)
  | .writeMem tr _ p => tr.fits && decide (p.length ≤ 4096)
  | .sendFrame tr _ p => tr.fits && decide (p.length ≤ 4096)
  | .fetchFrame tr _ => tr.fits
  | .app tr _ p => tr.fits && decide (p.length ≤ 4096)
  | .appReply _ => true
  | .appTimeout => true
  | .updateBegin tr _ p => tr.fits && decide (p.length ≤ 4096)
  | .updateBlock tr _ p => tr.fits && decide (p.length ≤ 4096)
  | .updateEnd tr _ => tr.fits
  | .updateCommit tr _ => tr.fits
  | .configBegin tr _ p => tr.fits && decide (p.length ≤ 4096)
  | .configBlock tr _ p => tr.fits && decide (p.length ≤ 4096)
  | .configEnd tr _ => tr.fits
  | .logRead tr _ p => tr.fits && decide (p.length ≤ 4096)
  | .statsRead tr _ p => tr.fits && decide (p.length ≤ 4096)
  | .timeGet tr _ => tr.fits
  | .timeSet tr _ p => tr.fits && decide (p.length ≤ 4096)
  | .keyLoad tr _ p => tr.fits && decide (p.length ≤ 4096)
  | .discharge tr _ => tr.fits
  | .spiPoll _ => true
  | .spiWrite _ _ => true
  | .spiRead _ _ => true
  | .spiUnknownOp op => decide (2 < op.toNat)
  | .hostFrameTooLong tr _ _ => tr.fits
  | .hostFrameShort tr _ _ => tr.fits
  | .hostFrameCrcFail tr => tr.fits
  | .uartGapTimeout => true
  | .heatEnd => true
  | .heatEndRequest => true
  | .tallySnapshot => true
  | .tallySnapshotDone => true
  | .tallyBufferClear => true
  | .logCommit _ _ => true
  | .logAppend _ _ => true
  | .logPop _ => true
  | .monRd _ _ => true
  | .monWr _ _ => true
  | .monFill _ _ _ => true
  | .monDump _ _ => true
  | .monLoad => true
  | .hexRecord _ data _ => decide (data.length ≤ 64)
  | .monGo _ => true
  | .monBp _ _ _ _ => true
  | .monBpc _ => true
  | .monStep _ => true
  | .monRegs => true
  | .monSet _ _ => true
  | .monFlash _ _ _ _ _ => true
  | .monLog _ _ => true
  | .monUnlock response cycles => decide (response.length ≤ 16 ∧ cycles.length ≤ 16)
  | .unlockTimeout => true
  | .monBaudDetect baud => decide (9600 ≤ baud ∧ baud ≤ 921600)
  | .daliSend _ => true
  | .daliSettled => true
  | .daliForwardDone => true
  | .daliBackwardFrame _ _ => true
  | .daliReplyTimeout => true
  | .daliCollision => true
  | .daliBusFail => true
  | .daliBusIdle => true
  | .meterPulse => true
  | .meterLoad _ => true
  | .adcStart => true
  | .adcSequenceDone codes => decide (codes.length ≤ 16)
  | .uartRxOctet _ _ _ _ => true
  | .uartTxWrite _ _ => true
  | .uartRxRead _ => true
  | .i2cStart _ _ => true
  | .i2cDone _ e => e.fits
  | .gpioEdge _ _ => true
  | .gpioSet _ _ => true
  | .gpioClr _ _ => true
  | .headerOverlong _ => true
  | .daliForeignFrame => true
  | .uartTxOctetSent _ => true
  | .hostUartFrameSent => true

end Sys2Proof
end

