-- ==== Sys2Proof/Tests/Slice0.lean ====
section
/-!
SUPPORT. Tests: ill-formed commands that the check refuses, the spec's own numbers, and for each statement with hypotheses
states and operands that meet all of them together, at the ends of the ranges where a clause has one.
-/
open Sys2Proof Sys2Proof.Machine
namespace Sys2Proof.Tests

-- one evaluation after the other, which the memory they are given asks for
set_option Elab.async false

/-! ### States to look at, and what holds of them -/

/-- A state with some fields of registers written, one after the other. -/
def put (l : List (Fld × Nat)) (s : State) : State :=
  l.foldl (fun s x => (Prim.reg x.1.addr (bitsPut (s.reg x.1.addr) x.1.hi x.1.lo x.2)).run s) s

/-- A state with some octets of memory written. -/
def store (l : List (Nat × Nat)) (s : State) : State :=
  l.foldl (fun s x => (Prim.mem x.1 (BitVec.ofNat 8 x.2)).run s) s

/-- The canonical form, as a check. -/
def canon {α : Type} [DecidableEq α] (d : Nat → α) (m : Sparse α) : Bool :=
  decide (m.Pairwise fun a b => a.1 < b.1) && m.all fun e => decide (e.2 ≠ d e.1)

theorem canon_wf {α : Type} [DecidableEq α] {d : Nat → α} {m : Sparse α} (h : canon d m = true) : Sparse.Wf d m := by
  simp only [canon, Bool.and_eq_true, decide_eq_true_eq, List.all_eq_true] at h
  exact h

/-- What every state of the block has, as a check. -/
def invOk (s : State) : Bool :=
  canon Reg.resetWord s.regs && canon memReset s.mem && canon wordReset s.peer && canon wordReset s.seen &&
  canon wordReset s.cox && canon wordReset s.bow && canon otpReset s.otp &&
  (s.regs.all fun e => decide (e.2 &&& BitVec.ofNat 32 (Reg.maskOf e.1) = e.2)) &&
  decide (s.core.pc &&& 0xFFFFFFFC = s.core.pc ∧ s.core.st &&& stMask = s.core.st ∧ s.core.vbase &&& 0xFFFFFC00 = s.core.vbase)

theorem invOk_inv {s : State} (h : invOk s = true) : s.Inv := by
  simp only [invOk, Bool.and_eq_true, List.all_eq_true, decide_eq_true_eq] at h
  obtain ⟨⟨⟨⟨⟨⟨⟨⟨a, b⟩, c⟩, d⟩, e⟩, f⟩, g⟩, m⟩, k⟩ := h
  exact ⟨⟨canon_wf a, canon_wf b, canon_wf c, canon_wf d, canon_wf e, canon_wf f, canon_wf g⟩, m, k⟩

/-- The core is about to execute from main SRAM, as a check. -/
def readyOk (s : State) : Bool :=
  invOk s && s.executes && (s.rangeOf s.core.pc.toNat == some ⟨0x20000000, 0x20080000, .sram⟩) &&
  decide (s.core.pc.toNat / 4 * 4 ∉ s.dev.eccBad) && s.mpuOk Reg.MPU_RLIM_X s.core.pc.toNat &&
  (List.range 4).all (fun n => !s.bpMatch [0] s.core.pc.toNat n) && !s.bit Reg.BP_STEP_STEP && !s.en tallyPage

theorem readyOk_ready {s : State} (h : readyOk s = true) : s.Ready := by
  simp only [readyOk, Bool.and_eq_true, List.all_eq_true, decide_eq_true_eq, beq_iff_eq, Bool.not_eq_true', List.mem_range] at h
  obtain ⟨⟨⟨⟨⟨⟨⟨a, b⟩, c⟩, d⟩, e⟩, f⟩, g⟩, k⟩ := h
  exact ⟨invOk_inv a, b, ⟨⟨_, c, rfl, d⟩, e, f⟩, g, k⟩

/-- An access to main SRAM goes through, as a check. -/
def sramOk (s : State) (write : Bool) (a : Word) (n : Nat) : Bool :=
  decide (a.toNat % n = 0) && decide (0x20000000 ≤ a.toNat) && decide (a.toNat + n ≤ 0x20080000) &&
  s.mpuOk (if write then Reg.MPU_RLIM_W else Reg.MPU_RLIM_R) a.toNat &&
  (List.range 4).all (fun k => !s.bpMatch (if write then [2, 3] else [1, 3]) a.toNat k) && decide (a.toNat / 4 * 4 ∉ s.dev.eccBad)

theorem sramOk_at {s : State} {write : Bool} {a : Word} {n : Nat} (h : sramOk s write a n = true) : s.SramAt write a n := by
  simp only [sramOk, Bool.and_eq_true, List.all_eq_true, decide_eq_true_eq, Bool.not_eq_true', List.mem_range] at h
  obtain ⟨⟨⟨⟨⟨a, b⟩, c⟩, d⟩, e⟩, f⟩ := h
  exact ⟨a, b, c, d, e, f⟩

/-- A word of the vector table can be read, as a check. -/
def vecOk (s : State) (v : Nat) : Bool :=
  let a := (s.core.vbase + BitVec.ofNat 32 (4 * v)).toNat
  decide (0x20000000 ≤ a) && decide (a < 0x20080000) && decide (a ∉ s.dev.eccBad)

theorem vecOk_at {s : State} {v : Nat} (h : vecOk s v = true) : s.VectorAt v := by
  simp only [vecOk, Bool.and_eq_true, decide_eq_true_eq] at h
  exact ⟨h.1.1, h.1.2, h.2⟩

/-- The link side rests, as a check. -/
def quietOk (s : State) : Bool :=
  s.dev.tx.jobs == [] && s.dev.radio.walk == none && s.dev.radio.waiting == none && !s.bit Reg.RCTL_STAT_TXACT &&
  s.dev.lanes == [] && s.dev.hostp.mgmt == []

theorem quietOk_quiet {s : State} (h : quietOk s = true) : s.Quiet := by
  simp only [quietOk, Bool.and_eq_true, Bool.not_eq_true', beq_iff_eq] at h
  obtain ⟨⟨⟨⟨⟨a, b⟩, c⟩, d⟩, e⟩, f⟩ := h
  exact ⟨a, b, c, d, e, f⟩

/-- No window watches the lanes, as a check. -/
def unwatchedOk (s : State) : Bool :=
  !s.dev.samp.sample && s.dev.samp.main == 0 && s.dev.samp.rdv == none && !s.dev.samp.closing && s.dev.tx.jobs.all (!·.closed)

theorem unwatchedOk_un {s : State} (h : unwatchedOk s = true) : s.Unwatched := by
  simp only [unwatchedOk, Bool.and_eq_true, Bool.not_eq_true', beq_iff_eq, List.all_eq_true] at h
  obtain ⟨⟨⟨⟨a, b⟩, c⟩, d⟩, e⟩ := h
  exact ⟨a, b, c, d, e⟩

/-- Firmware runs in SYS mode from main SRAM; its vectors stand there too. -/
def cpu : State :=
  { State.reset with core := { pc := 0x20000000, vbase := 0x20000400 }
                     dev := { sys := { phase := .firmware } } }

/-- The same with general registers. -/
def cpuG (g : List (Nat × Word)) : State := { cpu with core := { cpu.core with g := g } }

/-- The same with ST. -/
def cpuSt (st : Word) : State := { cpu with core := { cpu.core with st := st } }

/-- The same behind a load. -/
def cpuSlot : State := { cpu with core := { cpu.core with slot := some ⟨15, 5, 0x1FFFFFFC⟩ } }

/-! ### Ill-formed commands, refused -/

theorem test_fails_over_three : (Instr.startSequence 0 2800 4).wellFormed = false := by decide
theorem test_cluster_of_no_page : (Instr.clusterReset 0x41000800).wellFormed = false ∧ (Instr.clusterResetComplete 1).wellFormed = false ∧
    (Instr.clockGateClose 0).wellFormed = false ∧ (Instr.mailboxSnapshot 2).wellFormed = false ∧ (Instr.mailboxSelect .host 3 0).wellFormed = false := by decide +kernel
theorem test_misaligned_write : (Instr.registerWrite .host .word 0x41000002 0).wellFormed = false ∧
    (Instr.registerWrite .host .half 0x41000001 0).wellFormed = false ∧ (Instr.registerWrite .host .byte 0x20000000 0).wellFormed = false := by decide +kernel
theorem test_parity_of_no_register : (Instr.parityFault 0x41000FFC).wellFormed = false := by decide +kernel
theorem test_level_of_17_bits : (Instr.preambleQualified 0 32768 0).wellFormed = false ∧ (Instr.stfDetected 0 (-32769) 0).wellFormed = false ∧
    (Instr.sfdDetected 0 false 32768).wellFormed = false ∧ (Instr.ltfEnd 0 32768 0).wellFormed = false ∧ (Instr.energyMeasurement 0 32768).wellFormed = false := by decide
theorem test_phr_fields : (Instr.phrDecoded 0 ⟨false, false, false, 2048, 0, 0, true⟩).wellFormed = false ∧
    (Instr.phrDecoded 0 ⟨false, false, false, 4, 32, 0, true⟩).wellFormed = false ∧
    (Instr.phrDecoded 0 ⟨false, false, false, 4, 0, 4, true⟩).wellFormed = false := by decide
theorem test_header_of_65 : (Instr.headerEnd 0 (List.replicate 65 0)).wellFormed = false := by decide
theorem test_psdu_of_2048 : (Instr.frameEnd 0 (List.replicate 2048 0)).wellFormed = false := by
  show decide ((List.replicate 2048 (0 : Byte)).length < 2048) = false
  rw [List.length_replicate]; decide
theorem test_xspi_beyond_device : (Instr.xspiSequenceDone [] [(0x04000000, 0)]).wellFormed = false ∧
    (Instr.xspiSequenceDone (List.replicate 257 0) []).wellFormed = false := by decide +kernel
theorem test_mesh_header_of_65 : (Instr.status (.mesh (List.replicate 65 0) 0) 0).wellFormed = false := by decide
theorem test_payload_of_4097 : (Instr.readMem .spi 0 (List.replicate 4097 0)).wellFormed = false := by
  show (true && decide ((List.replicate 4097 (0 : Byte)).length ≤ 4096)) = false
  rw [List.length_replicate]; decide
theorem test_known_op : (Instr.spiUnknownOp 2).wellFormed = false := by decide
theorem test_hex_record_of_65 : (Instr.hexRecord 0 (List.replicate 65 0) 0).wellFormed = false := by decide
theorem test_response_of_17 : (Instr.monUnlock (List.replicate 17 0) []).wellFormed = false ∧ (Instr.monUnlock [] (List.replicate 17 0)).wellFormed = false := by decide
theorem test_baud_out_of_range : (Instr.monBaudDetect 9599).wellFormed = false ∧ (Instr.monBaudDetect 921601).wellFormed = false := by decide
theorem test_seventeen_codes : (Instr.adcSequenceDone (List.replicate 17 0)).wellFormed = false := by decide
theorem test_i2c_read_of_33 : (Instr.i2cDone 0 (.done (List.replicate 33 0))).wellFormed = false := by decide

/-- The table gives no row bits, so no word is a command. -/
theorem test_no_word (nbits w : Nat) : decodeTableWord nbits w = none := rfl

/-! ### The spec's own numbers -/

/-- R516's two examples. -/
theorem test_round_half : roundDiv 5 2 = 3 ∧ roundDiv (-5) 2 = -3 := by decide

/-- A lane in a mode. -/
def laneIn (phy rate opt : Nat) : State := put [(Reg.LANES_MODE_PHY 0, phy), (Reg.LANES_MODE_RATE 0, rate), (Reg.LANES_MODE_OPT 0, opt)] cpu

/-- The rows of R119's table. -/
theorem test_airtimes_fsk : (laneIn 0 1 0).airtime 0 false 0 8 100 = 8960 ∧ (laneIn 0 2 0).airtime 0 false 0 8 60 = 3840 ∧
    (laneIn 0 0 0).airtime 0 true 0 8 40 = 16960 ∧ (laneIn 1 3 0).airtime 0 false 0 16 200 = 4760 ∧ (laneIn 0 0 0).airtime 0 false 0 8 2047 = 329440 ∧
    (laneIn 0 0 0).airtime 0 true 0 8 2047 = 659520 ∧ (laneIn 0 1 0).airtime 0 false 0 8 62 = 5920 := by decide +kernel
theorem test_airtimes_ofdm : (laneIn 2 0 1).airtime 0 false 3 0 1000 = 21480 ∧ (laneIn 2 0 0).airtime 0 false 3 0 2047 = 21600 ∧
    (laneIn 2 0 3).airtime 0 false 2 0 100 = 17640 := by decide +kernel

/-- N_unc of the coded frame there: 342 bits pad to 384. -/
theorem test_uncoded_bits : nUnc 40 = 384 := by decide

/-- R117's strobe: COUNT 130 for DSN 0x5C. -/
theorem test_strobe :
    (strobeOf [0x41, 0xAB, 0x14, 0x0E, 0x17, 0x02, 0, 0, 8, 0, 0x5A, 0x51, 0x48, 2, 0x82, 0, 0x5C, 2] 20).map
      (fun x => (x.pan, x.dst, x.src, x.count, x.dsn, x.flags)) = some (0x0E14, 0x0217, 0, 130, 0x5C, 2) := by decide

/-- The nonce of chapter 8's worked frame: counter 0x00032A10, level 6. -/
theorem test_nonce : frameNonce 0x0A5E71000E140000 0x00032A10 6 = [0x0A, 0x5E, 0x71, 0, 0x0E, 0x14, 0, 0, 0, 3, 0x2A, 0x10, 6] := by decide

/-- R363's worked ceiling: 45.0 J in 4.70 F. -/
theorem test_ceiling : vceil 450 470 = 4375 := by decide +kernel

/-- R47: a step is 38.147 Hz, to the nearest of which the frequency is rounded and shown. -/
theorem test_frequency : freqWord 40000000 = 2 ^ 20 ∧ wordHz (2 ^ 20) = 40000000 ∧ wordHz 1 = 38 ∧ wordHz 25 = 954 := by decide

/-- R473's record, and the same with another checksum. -/
theorem test_hex_record :
    (match exec (.hexRecord 0x20004000 [0x11, 0x22] 0x6D)
        { cpu with dev := { sys := { phase := .monitor }, mon := { load := true } } } with
      | .next t => (t.byte 0x20004000, t.byte 0x20004001, t.dev.mon.status) | _ => (0, 0, 99)) = (0x11, 0x22, 0) ∧
    (match exec (.hexRecord 0x20004000 [0x11, 0x22] 0x12)
        { cpu with dev := { sys := { phase := .monitor }, mon := { load := true } } } with
      | .next t => (t.byte 0x20004000, t.byte 0x20004001, t.dev.mon.status) | _ => (0, 0, 99)) = (0, 0, 3) := by decide +kernel

/-- AES-128 as FIPS 197 has it, in its appendix C.1. -/
theorem test_aes :
    aesEnc ((List.range 16).map (BitVec.ofNat 8)) ((List.range 16).map fun i => BitVec.ofNat 8 (17 * i)) =
      [0x69, 0xC4, 0xE0, 0xD8, 0x6A, 0x7B, 0x04, 0x30, 0xD8, 0xCD, 0xB7, 0x80, 0x70, 0xB4, 0xC5, 0x5A] := by decide +kernel

/-- A burst with the CRC-8 of its octets is good, one with a bit changed is bad (R25). -/
theorem test_burst :
    burstBad (List.replicate 48 0x5A) (BitVec.ofNat 8 (d2dCrc (List.replicate 48 0x5A))) = false ∧
    burstBad (0x5B :: List.replicate 47 0x5A) (BitVec.ofNat 8 (d2dCrc (List.replicate 48 0x5A))) = true := by decide +kernel

/-- The check values of CRC-32, CRC-16 of the frames and CRC-8 over the digits 1 to 9. -/
theorem test_crcs :
    crc32 ((List.range 9).map fun i => BitVec.ofNat 8 (0x31 + i)) = 0xCBF43926 ∧ crc16 0xFFFF ((List.range 9).map fun i => BitVec.ofNat 8 (0x31 + i)) = 0x29B1 ∧
    fcs16 ((List.range 9).map fun i => BitVec.ofNat 8 (0x31 + i)) = 0x2189 := by decide +kernel

/-! ### The block as a whole, and the Stroke core -/

theorem cpu_ready : cpu.Ready := readyOk_ready (by decide +kernel)

/-- `IdleStep`: an event on its way that an enabled channel takes; and nothing on its way. -/
theorem wit_IdleStep :
    (∃ s : State, s.Inv ∧ s.pending = [] ∧ s.events = [0x20] ∧ s.bit ⟨Reg.RIGGER_EN 1, 31, 31⟩ = true ∧ s.fld (Reg.RIGGER_SRC_SRC 63) = 0x20) ∧
    ∃ s : State, s.Inv ∧ s.pending = [] ∧ s.events = [] ∧ s.lfEdge = false ∧ s.dev.hostp.mgmt = [] ∧ s.Unwatched ∧
      s.linkClock = true ∧ s.fld Reg.NTIME_TRIM_TRIM = 0 ∧ s.dev.time.frac = 0 :=
  ⟨⟨put [(⟨Reg.RIGGER_EN 1, 31, 31⟩, 1), (Reg.RIGGER_SRC_SRC 63, 0x20)] { cpu with events := [0x20] },
      invOk_inv (by decide +kernel), rfl, rfl, by decide +kernel, by decide +kernel⟩,
    cpu, invOk_inv (by decide +kernel), rfl, rfl, by decide +kernel, rfl, unwatchedOk_un (by decide +kernel), by decide +kernel, by decide +kernel, rfl⟩

/-- `StepKeepsInv`, `StepKeepsOtp`: a state with the invariant, and a step it takes. -/
theorem wit_StepKeepsInv : ∃ s t : State, s.Inv ∧ s.pending = [.padRelease] ∧ step s = .next t :=
  ⟨{ cpu with pending := [.padRelease] }, _, invOk_inv (by decide +kernel), rfl, rfl⟩

/-- `AluInstructions`: a divisor of 0, another, and the one quotient outside the numbers. -/
theorem wit_AluInstructions (o : RegOps) (i : ImmOps) :
    ∃ s₀ s₁ s₂ : State, s₀.Ready ∧ s₁.Ready ∧ s₂.Ready ∧ { o with res := 0 }.res = 0 ∧ { i with res := false }.res = false ∧
      s₀.g 2 = 0 ∧ s₁.g 2 ≠ 0 ∧ (s₁.g 1 ≠ 0x80000000 ∨ s₁.g 2 ≠ 0xFFFFFFFF) ∧ s₂.g 1 = 0x80000000 ∧ s₂.g 2 = 0xFFFFFFFF :=
  ⟨cpu, cpuG [(2, 1)], cpuG [(1, 0x80000000), (2, 0xFFFFFFFF)], cpu_ready, readyOk_ready (by decide +kernel), readyOk_ready (by decide +kernel), rfl, rfl,
    by decide +kernel, by decide +kernel, by decide +kernel, by decide +kernel, by decide +kernel⟩

/-- `MemoryInstructions`: the last word of SRAM for LD, ST and SWAP; a SWAP in a page. -/
theorem wit_MemoryInstructions :
    (∃ (o : MemOps) (s : State), s.Ready ∧ o.res = false ∧ o.sz ≠ 3 ∧ o.sx = false ∧
      s.SramAt false (s.g o.ra.val + o.off.signExtend 32) (2 ^ o.sz.toNat) ∧
      s.SramAt true (s.g o.ra.val + o.off.signExtend 32) (2 ^ o.sz.toNat)) ∧
    ∃ (o : RegOps) (s s' : State), s.Ready ∧ s'.Ready ∧ o.res = 0 ∧ s.core.slot = none ∧ s'.core.slot = none ∧
      s.SramAt false (s.g o.ra.val) 4 ∧ s.SramAt true (s.g o.ra.val) 4 ∧
      (s'.g o.ra.val).toNat % 4 = 0 ∧ s'.swapHere (s'.g o.ra.val).toNat = false ∧ bitOf s'.core.st.toNat 6 = false ∧ s'.VectorAt 5 :=
  ⟨⟨⟨0, 1, 2, false, 0, false⟩, cpuG [(1, 0x2007FFFC)], readyOk_ready (by decide +kernel), rfl, by decide +kernel, rfl, sramOk_at (by decide +kernel),
      sramOk_at (by decide +kernel)⟩,
    ⟨0, 1, 2, false, 0, 0⟩, cpuG [(1, 0x2007FFFC)], cpuG [(1, 0x40000000)], readyOk_ready (by decide +kernel), readyOk_ready (by decide +kernel), rfl, rfl,
    rfl, sramOk_at (by decide +kernel), sramOk_at (by decide +kernel), by decide +kernel, by decide +kernel, by decide +kernel, vecOk_at (by decide +kernel)⟩

/-- `ControlFlow`: an aligned target; the last number of vector 6, a service, a number assigned nowhere; BRK's vector. -/
theorem wit_ControlFlow :
    ∃ s : State, s.Ready ∧ s.core.slot = none ∧ bitOf s.core.st.toNat 6 = false ∧ (s.g 1).toNat % 4 = 0 ∧ s.VectorAt 6 ∧
      (0xEFFF : Nat) < 0xF000 ∧ svcKnown 0xF000 = true ∧ svcKnown 0xF006 = true ∧ svcKnown 0xF007 = false ∧ svcKnown 0xFFFF = false ∧
      s.bit Reg.BP_MON_ROUTE = false ∧ s.VectorAt 7 :=
  ⟨cpu, cpu_ready, rfl, by decide +kernel, by decide +kernel, vecOk_at (by decide +kernel), by decide +kernel, by decide +kernel, by decide +kernel, by decide +kernel, by decide +kernel, by decide +kernel,
    vecOk_at (by decide +kernel)⟩

/-- `ReturnFromException`: an aligned XPC, a misaligned one, and that with HOLD at 1. -/
theorem wit_ReturnFromException :
    ∃ s₀ s₁ s₂ : State, (s₀.Ready ∧ s₀.sysMode = true ∧ s₀.core.slot = none ∧ s₀.core.xpc.toNat % 4 = 0) ∧
      (s₁.Ready ∧ s₁.sysMode = true ∧ s₁.core.slot = none ∧ s₁.core.xpc.toNat % 4 ≠ 0 ∧ bitOf s₁.core.st.toNat 6 = false ∧ s₁.VectorAt 3) ∧
      s₂.Ready ∧ s₂.sysMode = true ∧ s₂.core.slot = none ∧ s₂.core.xpc.toNat % 4 ≠ 0 ∧ bitOf s₂.core.st.toNat 6 = true :=
  ⟨cpu, { cpu with core := { cpu.core with xpc := 1 } }, { cpu with core := { cpu.core with xpc := 3, st := 0x841 } },
    ⟨cpu_ready, by decide +kernel, rfl, by decide +kernel⟩, ⟨readyOk_ready (by decide +kernel), by decide +kernel, rfl, by decide +kernel, by decide +kernel, vecOk_at (by decide +kernel)⟩,
    readyOk_ready (by decide +kernel), by decide +kernel, rfl, by decide +kernel, by decide +kernel⟩

/-- A line that an interrupt may come from: line 67, edge-latched, enabled. -/
def irq (st : Word) : State :=
  { put [(⟨Reg.INTC_EN 2, 3, 3⟩, 1)] (cpuSt st) with dev := { cpu.dev with intc := { soft := 2 ^ 67 } } }

/-- `SpecialFunctions`: SYS mode with an empty slot for WRSP and the waits; nothing pending for WAIT 0; a doze that a line ends; the entries
of WAIT 1: refused, abandoned at A1 or A2, begun towards REST and EASY. -/
theorem wit_SpecialFunctions :
    (∃ s : State, s.Ready ∧ s.sysMode = true ∧ s.core.slot = none ∧ s.topLine = none ∧ s.dev.dali.phase = .idle ∧ s.dev.gov.pulse = none ∧
      s.entryRefused (s.bit Reg.PWR_SLEEPCFG_TARGET) = false ∧ s.bit Reg.PWR_SLEEPCFG_TARGET = false ∧ s.linkWake = false ∧
      (1 ||| 0) &&& (s.fld Reg.PWR_WAKEEN_EN &&& 0x3FFF) ≠ 0 ∧ (2 ||| 0) &&& (s.fld Reg.PWR_WAKEEN_EN &&& 0x3FFF) = 0) ∧
    (∃ s : State, s.Ready ∧ s.sysMode = true ∧ s.core.slot = none ∧ s.dev.dali.phase = .idle ∧ s.dev.gov.pulse = none ∧
      s.bit Reg.PWR_SLEEPCFG_TARGET = true ∧ s.entryRefused true = false) ∧
    (∃ s : State, s.Ready ∧ s.sysMode = true ∧ s.core.slot = none ∧ s.dev.dali.phase = .idle ∧ s.dev.gov.pulse = none ∧
      s.entryRefused (s.bit Reg.PWR_SLEEPCFG_TARGET) = true) ∧
    ∃ s : State, s.Inv ∧ s.core.run = .doze ∧ (s.wouldAccept true).isSome = true :=
  ⟨⟨put [(Reg.PWR_WAKEEN_EN, 1)] cpu, readyOk_ready (by decide +kernel), by decide +kernel, rfl, by decide +kernel, rfl, rfl, by decide +kernel, by decide +kernel, by decide +kernel,
      by decide +kernel, by decide +kernel⟩,
    ⟨put [(Reg.PWR_SLEEPCFG_TARGET, 1)] cpu, readyOk_ready (by decide +kernel), by decide +kernel, rfl, rfl, rfl, by decide +kernel, by decide +kernel⟩,
    ⟨put [(Reg.FLASHC_STAT_STATE, 1)] cpu, readyOk_ready (by decide +kernel), by decide +kernel, rfl, rfl, rfl, by decide +kernel⟩,
    { irq 0x801 with core := { cpu.core with run := .doze } }, invOk_inv (by decide +kernel), rfl, by decide +kernel⟩

/-- Two words of each of g1 and g2, g3 elements to do. -/
def strG (st n : Word) : State := { cpuG [(1, 0x20000100), (2, 0x20000200), (3, n)] with core.st := st }

/-- SZ a word, D upwards. -/
def wordsUp : SpcOps := ⟨0, 4⟩

/-- `StringMoves`: two words up, IE at 0; and an interrupt that would be accepted, with elements left. -/
theorem wit_StringMoves :
    (∃ s : State, s.Ready ∧ s.core.slot = none ∧ wordsUp.x.toNat < 8 ∧ wordsUp.x.toNat / 2 % 4 ≠ 3 ∧ bitOf s.core.st.toNat 7 = false ∧
      (∀ k < (s.g 3).toNat, s.SramAt true (elemAddr wordsUp (s.g 2) k) 4) ∧ ∀ k < (s.g 3).toNat, s.SramAt false (elemAddr wordsUp (s.g 1) k) 4) ∧
    ∃ s : State, s.Ready ∧ s.core.slot = none ∧ (s.wouldAccept (bitOf s.core.st.toNat 7)).isSome = true ∧ 2 ≤ (s.g 3).toNat ∧
      s.SramAt false (s.g 1) 4 ∧ s.SramAt true (s.g 2) 4 := by
  refine ⟨⟨strG 0x801 2, readyOk_ready (by decide +kernel), rfl, by decide +kernel, by decide +kernel, by decide +kernel, fun k hk => sramOk_at ?_, fun k hk => sramOk_at ?_⟩,
    { irq 0x881 with core := (strG 0x881 2).core }, readyOk_ready (by decide +kernel), rfl, by decide +kernel, by decide +kernel, sramOk_at (by decide +kernel),
    sramOk_at (by decide +kernel)⟩
  · revert k; decide +kernel
  · revert k; decide +kernel

/-- `StringCompares`: equal elements to the end, and a stop at the second. -/
theorem wit_StringCompares :
    (∃ s : State, s.Ready ∧ s.core.slot = none ∧ (s.g 3).toNat = 2 ∧ (∀ k < 2, s.SramAt false (elemAddr wordsUp (s.g 1) k) 4) ∧ (∀ k < 2, s.SramAt false (elemAddr wordsUp (s.g 2) k) 4) ∧
      ∀ k < 2, s.bytes (elemAddr wordsUp (s.g 1) k).toNat 4 = s.bytes (elemAddr wordsUp (s.g 2) k).toNat 4) ∧
    ∃ s : State, s.Ready ∧ s.core.slot = none ∧ (s.g 3).toNat = 2 ∧
      s.bytes (elemAddr wordsUp (s.g 1) 0).toNat 4 = s.bytes (elemAddr wordsUp (s.g 2) 0).toNat 4 ∧
      wordOf (s.bytes (elemAddr wordsUp (s.g 1) 1).toNat 4) ≠ wordOf (s.bytes (elemAddr wordsUp (s.g 2) 1).toNat 4) := by
  refine ⟨⟨strG 0x801 2, readyOk_ready (by decide +kernel), rfl, by decide +kernel, fun k hk => sramOk_at ?_, fun k hk => sramOk_at ?_, by decide +kernel⟩,
    store [(0x20000104, 7)] (strG 0x801 2), readyOk_ready (by decide +kernel), rfl, by decide +kernel, by decide +kernel, by decide +kernel⟩
  · revert k; decide +kernel
  · revert k; decide +kernel

/-- `CallFrames`: an aligned stack with room for LK, g15, XPC and XST, and a misaligned one. -/
theorem wit_CallFrames :
    (∃ (o : CallmOps) (s : State), o.a = 0 ∧ o.x = 0x18000 ∧ s.Ready ∧ s.core.slot = none ∧ (s.g 13).toNat % 4 = 0 ∧
      (s.frame o.x.toNat).length = 4 ∧
      (∀ i < 4, s.SramAt true (s.g 13 - BitVec.ofNat 32 16 + BitVec.ofNat 32 (4 * i)) 4) ∧
      ∀ i < 4, s.SramAt false (s.g 13 + BitVec.ofNat 32 (4 * i)) 4) ∧
    ∃ s : State, s.Ready ∧ s.core.slot = none ∧ (s.g 13).toNat % 4 ≠ 0 ∧ bitOf s.core.st.toNat 6 = false ∧ s.VectorAt 3 := by
  refine ⟨⟨⟨0, 0x18000⟩, cpuG [(13, 0x20070000)], rfl, rfl, readyOk_ready (by decide +kernel), rfl, by decide +kernel, by decide +kernel,
      fun i hi => sramOk_at ?_, fun i hi => sramOk_at ?_⟩,
    cpuG [(13, 0x20070002)], readyOk_ready (by decide +kernel), rfl, by decide +kernel, by decide +kernel, vecOk_at (by decide +kernel)⟩
  · revert i; decide +kernel
  · revert i; decide +kernel

/-- `Exceptions`: the vectors in SYS and TASK mode, a misaligned word, a load before, and HOLD at 1. -/
theorem wit_Exceptions :
    (∃ s : State, s.Ready ∧ bitOf s.core.st.toNat 6 = false ∧ s.VectorAt 1 ∧ s.VectorAt 3 ∧ (s.g 1 + (0 : BitVec 14).signExtend 32).toNat % 4 ≠ 0) ∧
    (∃ s : State, s.Ready ∧ bitOf s.core.st.toNat 6 = false ∧ s.VectorAt 2 ∧ s.sysMode = false ∧ s.core.slot = none) ∧
    (∃ s : State, s.Ready ∧ bitOf s.core.st.toNat 6 = false ∧ s.VectorAt 1 ∧ s.core.slot.isSome = true) ∧
    ∃ s : State, s.Ready ∧ s.core.slot = none ∧ bitOf s.core.st.toNat 6 = true :=
  ⟨⟨cpuG [(1, 0x20000001)], readyOk_ready (by decide +kernel), by decide +kernel, vecOk_at (by decide +kernel), vecOk_at (by decide +kernel), by decide +kernel⟩,
    ⟨cpuSt 0x800, readyOk_ready (by decide +kernel), by decide +kernel, vecOk_at (by decide +kernel), by decide +kernel, rfl⟩,
    ⟨cpuSlot, readyOk_ready (by decide +kernel), by decide +kernel, vecOk_at (by decide +kernel), by decide +kernel⟩,
    cpuSt 0x841, readyOk_ready (by decide +kernel), rfl, by decide +kernel⟩

/-- `Interrupts`: line 67 is the only one pending, and is accepted; with PL at its priority nothing is. -/
theorem wit_Interrupts :
    (∃ s : State, s.Inv ∧ s.executes = true ∧ s.core.slot = none ∧ s.linePending 67 = true ∧
      (∀ m < 68, s.linePending m = true → s.linePrio 67 < s.linePrio m ∨ s.linePrio 67 = s.linePrio m ∧ 67 ≤ m) ∧
      bitOf s.core.st.toNat 7 = true ∧ bitOf s.core.st.toNat 6 = false ∧ s.linePrio 67 < s.pl ∧ s.VectorAt 99) ∧
    ∃ s : State, s.Inv ∧ s.executes = true ∧ s.core.slot = none ∧ ∀ n < 68, s.linePending n = true → s.pl ≤ s.linePrio n :=
  ⟨⟨irq 0x881, invOk_inv (by decide +kernel), by decide +kernel, rfl, by decide +kernel, by decide +kernel, by decide +kernel, by decide +kernel, by decide +kernel, vecOk_at (by decide +kernel)⟩,
    irq 0x081, invOk_inv (by decide +kernel), by decide +kernel, rfl, by decide +kernel⟩

/-! ### Resets, clusters and registers -/

/-- `Resets`: nothing in the air, the link clock running, and a latched profile. -/
theorem wit_Resets : ∃ s : State, s.Inv ∧ s.onAir = none ∧ s.linkClock = true ∧ s.dev.time.restore = false ∧ s.dev.radio.profLatch = some 3 :=
  ⟨{ cpu with dev := { cpu.dev with radio := { profLatch := some 3 } } }, invOk_inv (by decide +kernel), rfl, by decide +kernel, rfl, rfl⟩

/-- A plain configuration register, as a check: what `RegisterWrites` asks of it. -/
def plainReg (n : Nat) : Bool :=
  isConfig n && decide (n % 4 = 0) && (match Reg.rowOf n with | some r => r.w1c == 0 && r.clr0 == [] && r.rw != 0 | none => false) &&
  decide (Reg.pageOf n ≠ flashcPage ∧ Reg.pageOf n ≠ riggerPage ∧ (Reg.pageOf n < ciphPage 0 ∨ ciphPage 7 < Reg.pageOf n)) &&
  decide (n ∉ [Reg.TALLY_SAMP, Reg.GOV_CHG, Reg.SYNTH_CCTL, Reg.TXP_CFG, Reg.LTIM_CFG 0])

/-- `RegisterWrites`: a register of the link page and of the radio die with its cluster disabled and enabled, and a unit's; a failed
transfer; a page without power; an enable; a parity mismatch. -/
theorem wit_RegisterWrites :
    (plainReg Reg.LINK_CFG = true ∧ plainReg Reg.SYNTH_F0 = true ∧ plainReg (Reg.DMA_SRC 7) = true ∧
      cpu.Inv ∧ cpu.powered linkPage = true ∧ cpu.lockedReg Reg.LINK_CFG = false ∧ cpu.busVoid linkPage = false ∧
      cpu.bit (govFld Reg.LINK_CFG) = false) ∧
    (∃ s : State, s.Inv ∧ s.powered linkPage = true ∧ s.lockedReg Reg.LINK_CFG = false ∧ s.busVoid linkPage = false ∧
      s.bit (govFld Reg.LINK_CFG) = true) ∧
    (∃ s : State, s.Inv ∧ isCluster synthPage = true ∧ s.powered synthPage = true ∧ s.busVoid synthPage = true ∧
      Reg.SYNTH_F0 % accLen .word = 0) ∧
    (∃ s : State, s.Inv ∧ s.powered linkPage = false ∧ s.powered rtcPage = true) ∧
    (Reg.CTRL (uartPage 0) % accLen .half = 0 ∧ isCluster (uartPage 0) = true ∧ cpu.powered (uartPage 0) = true ∧ cpu.en (uartPage 0) = false ∧
      cpu.parityCommon (uartPage 0) = false ∧ cpu.busVoid (uartPage 0) = false ∧
      (uartPage 0) ∉ [sysPage, flashcPage, spihPage, tallyPage, linkPage, lanesPage, sampPage, rxfePage] ∧
      ((uartPage 0) < ciphPage 0 ∨ ciphPage 7 < (uartPage 0))) ∧
    (parityMask Reg.LINK_CFG ≠ 0 ∧ Reg.LINK_CFG ∉ cpu.dev.parity ∧ linkPage ≠ txpPage) ∧
    ∃ s : State, s.Inv ∧ isConfig (Reg.DMA_SRC 7) = true ∧ parityMask (Reg.DMA_SRC 7) ≠ 0 ∧ s.powered dmaPage = true ∧
      Reg.DMA_SRC 7 ∉ s.dev.parity ∧ s.bit (govFld (Reg.DMA_SRC 7)) = true :=
  ⟨⟨by decide +kernel, by decide +kernel, by decide +kernel, invOk_inv (by decide +kernel), by decide +kernel, by decide +kernel, by decide +kernel, by decide +kernel⟩,
    ⟨put [(Reg.CTRL_EN linkPage, 1)] cpu, invOk_inv (by decide +kernel), by decide +kernel, by decide +kernel, by decide +kernel, by decide +kernel⟩,
    ⟨{ cpu with dev := { cpu.dev with radio := { busFail := true } } }, invOk_inv (by decide +kernel), by decide +kernel, by decide +kernel, by decide +kernel, by decide +kernel⟩,
    ⟨{ cpu with dev := { cpu.dev with pwr := { state := .easy } } }, invOk_inv (by decide +kernel), by decide +kernel, by decide +kernel⟩,
    ⟨by decide +kernel, by decide +kernel, by decide +kernel, by decide +kernel, by decide +kernel, by decide +kernel, by decide +kernel, by decide +kernel⟩, ⟨by decide +kernel, by decide +kernel, by decide +kernel⟩,
    put [(⟨Reg.DMA_EN, 7, 7⟩, 1)] cpu, invOk_inv (by decide +kernel), by decide +kernel, by decide +kernel, by decide +kernel, by decide +kernel, by decide +kernel⟩

/-- `SystemControl`: a cluster with and without power, an idle page, the watchdog running and stopped, the loads of the Bow sequencer. -/
theorem wit_SystemControl :
    (∃ s : State, s.Inv ∧ isCluster linkPage = true ∧ s.powered linkPage = true ∧ s.pageBusy linkPage = false ∧
      s.bit (Reg.CTRL_CLKHOLD linkPage) = false ∧ s.bit Reg.SYS_WDOGSTAT_RUN = false ∧ s.radio = 0 ∧ s.dev.radio.walk = none ∧
      s.dev.bowLoad.isOpen = false ∧ s.dev.bowLoad.ready = false) ∧
    (∃ s : State, s.Inv ∧ isCluster linkPage = true ∧ s.powered linkPage = false) ∧
    (∃ s : State, s.Inv ∧ s.bit Reg.SYS_WDOGSTAT_RUN = true) ∧
    ∃ s : State, s.Inv ∧ s.dev.bowLoad.isOpen = true ∧ s.dev.bowLoad.crc = true ∧ s.dev.bowLoad.ready = true :=
  ⟨⟨cpu, invOk_inv (by decide +kernel), by decide +kernel, by decide +kernel, by decide +kernel, by decide +kernel, by decide +kernel, by decide +kernel, rfl, rfl, rfl⟩,
    ⟨{ cpu with dev := { cpu.dev with pwr := { state := .easy } } }, invOk_inv (by decide +kernel), by decide +kernel, by decide +kernel⟩,
    ⟨put [(Reg.SYS_WDOGSTAT_RUN, 1)] cpu, invOk_inv (by decide +kernel), by decide +kernel⟩,
    { cpu with dev := { cpu.dev with bowLoad := ⟨true, true, true⟩ } }, invOk_inv (by decide +kernel), rfl, rfl, rfl⟩

/-! ### The radio, the transmit path and the lanes -/

/-- The radio in a state, with lock or not, its Bow sequencer loaded, the synthesiser at 868.3 MHz. -/
def radioAt (st lock : Nat) : State :=
  put [(Reg.RCTL_STAT_STATE, st), (Reg.RCTL_STAT_LOCK, lock), (Reg.RCTL_STAT_UCODE_OK, 1), (Reg.SYNTH_F0_F0, 868300000)] cpu

/-- `RadioRequests`: the firmware owns the radio, and asks from each state; the link controller asks and is refused; the
frequencies at and just outside the synthesiser's range. -/
theorem wit_RadioRequests :
    (∀ st : Fin 4, (radioAt st.val 0).Inv ∧ (radioAt st.val 0).Quiet ∧ (radioAt st.val 0).bit Reg.RCTL_STAT_OWNER = false ∧
      (radioAt st.val 0).dev.radio.bowDead = false ∧ (radioAt st.val 0).bit Reg.RCTL_STAT_BUSY = false ∧ (radioAt st.val 0).radio = st.val ∧
      (radioAt st.val 0).bit Reg.RCTL_STAT_UCODE_OK = true ∧ (radioAt st.val 0).synthOk = true) ∧
    cpu.Inv ∧ cpu.Quiet ∧ cpu.bit Reg.RCTL_STAT_UCODE_OK = false ∧
    (put [(Reg.SYNTH_F0_F0, 400000000)] (radioAt 1 0)).synthOk = true ∧ (put [(Reg.SYNTH_F0_F0, 399999999)] (radioAt 1 0)).synthOk = false ∧
    (put [(Reg.SYNTH_F0_F0, 960000000)] (radioAt 1 0)).synthOk = true ∧ (put [(Reg.SYNTH_F0_F0, 960000001)] (radioAt 1 0)).synthOk = false :=
  ⟨fun st => ⟨invOk_inv (by revert st; decide +kernel), quietOk_quiet (by revert st; decide +kernel), by revert st; decide +kernel, by revert st; decide +kernel,
      by revert st; decide +kernel, by revert st; decide +kernel, by revert st; decide +kernel, by revert st; decide +kernel⟩,
    invOk_inv (by decide +kernel), quietOk_quiet (by decide +kernel), by decide +kernel, by decide +kernel, by decide +kernel, by decide +kernel, by decide +kernel⟩

/-- The radio with a walk. -/
def walking (st : Nat) (w : Walk) (unlock : Bool) : State :=
  { radioAt st 0 with dev := { cpu.dev with radio := { walk := some w, unlock := unlock } } }

/-- `RadioTransitions`: a walk that ends in RX, one whose tune has not locked, a lost lock, errors of the die-to-die link. -/
theorem wit_RadioTransitions :
    (∃ (s : State) (w : Walk) (r : RadioReq), s.Inv ∧ s.dev.tx.jobs = [] ∧ s.dev.lanes = [] ∧ s.dev.radio.waiting = none ∧
      s.dev.radio.bowDead = false ∧ s.dev.radio.walk = some w ∧ w.req = some r ∧ w.next = w.goal ∧ w.goal = 3 ∧ w.retune = false ∧
      w.tunes = true ∧ s.dev.radio.unlock = false) ∧
    (∃ (s : State) (w : Walk), s.Inv ∧ s.dev.tx.jobs = [] ∧ s.dev.lanes = [] ∧ s.dev.radio.waiting = none ∧ s.dev.radio.bowDead = false ∧
      s.dev.radio.walk = some w ∧ w.tunes = true ∧ s.dev.radio.unlock = true ∧ w.next = 2 ∧ 2 ≤ w.goal ∧ w.retune = false) ∧
    (∃ s : State, s.Inv ∧ s.Quiet ∧ s.dev.radio.bowDead = false ∧ s.dev.radio.d2dErrs = [] ∧ s.bit Reg.RCTL_STAT_LINKFAIL = false ∧
      s.bit Reg.RCTL_STAT_LOCK = true ∧ s.radio = 2) ∧
    (∃ s : State, s.Inv ∧ s.dev.tx.jobs = [] ∧ s.dev.lanes = [] ∧ s.dev.radio.waiting = none ∧ s.dev.radio.bowDead = false ∧
      s.dev.radio.walk = none ∧ s.dev.radio.unlock = true ∧ s.bit Reg.RCTL_STAT_LOCK = false ∧ s.radio = 2) :=
  ⟨⟨walking 2 { next := 3, goal := 3, tunes := true, req := some { goal := 3 } } false, _, _, invOk_inv (by decide +kernel), rfl, rfl, rfl, rfl, rfl,
      rfl, rfl, rfl, rfl, rfl, rfl⟩,
    ⟨walking 1 { next := 2, goal := 2, tunes := true } true, _, invOk_inv (by decide +kernel), rfl, rfl, rfl, rfl, rfl, rfl, rfl, rfl, by decide +kernel, rfl⟩,
    ⟨radioAt 2 1, invOk_inv (by decide +kernel), quietOk_quiet (by decide +kernel), rfl, rfl, by decide +kernel, by decide +kernel, by decide +kernel⟩,
    ⟨{ radioAt 2 0 with dev := { cpu.dev with radio := { unlock := true } } }, invOk_inv (by decide +kernel), rfl, rfl, rfl, rfl, rfl, rfl, by decide +kernel,
      by decide +kernel⟩⟩

/-- A profile of R59 (863–870 MHz, 14 dBm, 1 %, 4 s), the transmit path enabled, one frame in the queue. -/
def sending (st lock : Nat) (j : TxJob) : State :=
  { put [(Reg.TXP_PROF_WORD 0 0, 0x80000000 + 863000), (Reg.TXP_PROF_WORD 0 1, 870000), (Reg.TXP_PROF_WORD 0 2, 100 * 65536 + 14),
      (Reg.TXP_PROF_WORD 0 3, 4000), (Reg.CTRL_EN txpPage, 1)] (radioAt st lock) with
    dev := { cpu.dev with radio := { word := freqWord 868300000 }, tx := { jobs := [j] } } }

/-- What `Transmission` asks of every state. -/
def txOk (s : State) (j : TxJob) : Bool :=
  invOk s && unwatchedOk s && s.dev.tx.jobs == [j] && s.dev.lanes == [] && s.dev.radio.walk == none && j.kind == .ring && j.confirmed &&
  s.dev.tx.doneSlots == [] && decide (s.dev.duty.cur < 60) && !s.dev.radio.bowDead

/-- The frame at each stage: passing the checks (868.3 MHz ± 50 kHz, 10 ms), failing one (4,001 ms), with and without lock. -/
def jobAt (st : TxStage) (air : Nat) (timed ar : Bool) : TxJob := { stage := st, air := air, timed := timed, ar := ar }

/-- `Transmission`: the states of its clauses. -/
theorem wit_Transmission :
    (txOk (sending 3 1 (jobAt .ready 10000 false false)) (jobAt .ready 10000 false false) = true ∧
      (sending 3 1 (jobAt .ready 10000 false false)).jobCheck (jobAt .ready 10000 false false) false = 0) ∧
    (txOk (sending 2 0 (jobAt .ready 4000001 false false)) (jobAt .ready 4000001 false false) = true ∧
      (sending 2 0 (jobAt .ready 4000001 false false)).jobCheck (jobAt .ready 4000001 false false) false = stRegTxtime) ∧
    (txOk (sending 3 1 (jobAt .reserved 4000000 true false)) (jobAt .reserved 4000000 true false) = true ∧
      (sending 3 1 (jobAt .reserved 4000000 true false)).radio = 3 ∧ (sending 3 1 (jobAt .reserved 4000000 true false)).bit Reg.RCTL_STAT_BUSY = false ∧
      (sending 3 1 (jobAt .reserved 4000000 true false)).jobCheck (jobAt .reserved 4000000 true false) true = 0) ∧
    (txOk (sending 2 0 (jobAt .reserved 1 true false)) (jobAt .reserved 1 true false) = true ∧
      (sending 2 0 (jobAt .reserved 1 true false)).jobCheck (jobAt .reserved 1 true false) true = stLate) ∧
    (txOk (sending 2 1 (jobAt .checked 1 false false)) (jobAt .checked 1 false false) = true ∧
      (sending 2 1 (jobAt .checked 1 false false)).blocked = false ∧ (sending 2 1 (jobAt .checked 1 false false)).en txpPage = true ∧
      (sending 2 1 (jobAt .checked 1 false false)).bit Reg.RCTL_STAT_LOCK = true ∧ (sending 2 1 (jobAt .checked 1 false false)).radio = 2) ∧
    txOk (sending 4 1 (jobAt .ramping 1 false false)) (jobAt .ramping 1 false false) = true ∧
    txOk (sending 4 1 (jobAt .onAir 1 false false)) (jobAt .onAir 1 false false) = true ∧
    txOk (sending 4 1 (jobAt .onAir 1 false true)) (jobAt .onAir 1 false true) = true := by decide +kernel

/-- `TransmitLimits`: the minute, the lock, the carrier allowed, refused, and in the air. -/
theorem wit_TransmitLimits :
    (∃ s : State, s.Inv ∧ s.bit Reg.PWR_CLKSTAT_LFOK = true ∧ s.dev.duty.cur = 59) ∧
    (cpu.Inv ∧ cpu.bit Reg.TXP_CFG_LOCK = false ∧ cpu.en txpPage = false ∧ cpu.Quiet ∧ cpu.bit Reg.TXP_TEST_CW = false ∧ cpu.radio ≠ 2) ∧
    (∃ s : State, s.Inv ∧ s.bit Reg.TXP_CFG_LOCK = true ∧ s.en txpPage = true) ∧
    (∃ s : State, s.Inv ∧ s.Quiet ∧ s.bit Reg.TXP_TEST_CW = false ∧ s.bit Reg.RCTL_STAT_OWNER = false ∧ s.radio = 2 ∧
      s.bit Reg.RCTL_STAT_BUSY = false ∧ s.txCheck false (s.carrier2 0 0) 0 (s.txMax * 1000) 0 = 0) ∧
    ∃ (s : State) (j : TxJob), s.Inv ∧ s.dev.tx.jobs = [j] ∧ j.kind = .carrier ∧ j.stage = .onAir ∧ s.dev.radio.bowDead = false :=
  ⟨⟨{ put [(Reg.PWR_CLKSTAT_LFOK, 1)] cpu with dev := { cpu.dev with duty := { cur := 59 } } }, invOk_inv (by decide +kernel), by decide +kernel, rfl⟩,
    ⟨invOk_inv (by decide +kernel), by decide +kernel, by decide +kernel, quietOk_quiet (by decide +kernel), by decide +kernel, by decide +kernel⟩,
    ⟨put [(Reg.TXP_CFG_LOCK, 1), (Reg.CTRL_EN txpPage, 1)] cpu, invOk_inv (by decide +kernel), by decide +kernel, by decide +kernel⟩,
    ⟨{ sending 2 1 {} with dev := { (sending 2 1 {}).dev with tx := {} } }, invOk_inv (by decide +kernel), quietOk_quiet (by decide +kernel), by decide +kernel,
      by decide +kernel, by decide +kernel, by decide +kernel, by decide +kernel⟩,
    sending 4 1 { kind := .carrier, stage := .onAir }, { kind := .carrier, stage := .onAir }, invOk_inv (by decide +kernel), rfl, rfl, rfl, rfl⟩

/-- The radio in RX, lanes 0 and 1 enabled and searching. -/
def lanesUp : State :=
  put [(Reg.CTRL_EN lanesPage, 1), (⟨Reg.LANES_ENABLE, 1, 0⟩, 3), (laneStateFld 0, 1), (laneStateFld 1, 1)] (radioAt 3 1)

/-- Lane 0 receives a frame, detected at tick 5 of 7, and owns the gain. -/
def receiving (f : RxFrame) (st : Nat) : State :=
  { put [(laneStateFld 0, st), (Reg.LANES_STAT_OWNER, 0), (Reg.LANES_STAT_FROZEN, 1)] lanesUp with
    dev := { cpu.dev with lanes := [(0, { frame := some f })], time := { link := 7 } } }

/-- `LaneControl`: a lane configured well and badly, one that searches and one that holds a frame; the gain loop running, stopped,
frozen, and at the end of a re-settle. -/
theorem wit_LaneControl :
    (cpu.Inv ∧ cpu.Unwatched ∧ cpu.bit ⟨Reg.LANES_ENABLE, 3, 3⟩ = false ∧ cpu.dev.parity = [] ∧ cpu.laneCfgOk 3 = true ∧ cpu.rxRuns = false) ∧
    (∃ s : State, s.Inv ∧ s.Unwatched ∧ s.bit ⟨Reg.LANES_ENABLE, 3, 3⟩ = false ∧ s.dev.parity = [] ∧ s.laneCfgOk 3 = false) ∧
    (lanesUp.Inv ∧ lanesUp.Unwatched ∧ lanesUp.bit ⟨Reg.LANES_ENABLE, 0, 0⟩ = true ∧ lanesUp.holds 0 = false ∧ lanesUp.laneState 0 = laneSearch) ∧
    ((receiving {} 2).Inv ∧ (receiving {} 2).Unwatched ∧ (receiving {} 2).bit ⟨Reg.LANES_ENABLE, 0, 0⟩ = true ∧ (receiving {} 2).holds 0 = true ∧
      (receiving {} 2).rxRuns = true ∧ (receiving {} 2).bit Reg.LANES_STAT_FROZEN = true ∧ (receiving {} 2).laneState 0 ≠ laneSearch) ∧
    (∃ s : State, s.Inv ∧ s.rxRuns = true ∧ s.bit Reg.LANES_STAT_FROZEN = false ∧ s.dev.gain.rearm = none ∧
      s.bit Reg.RXFE_AGC_MANUAL = false ∧ s.en rxfePage = true) ∧
    ∃ s : State, s.Inv ∧ s.rxRuns = true ∧ s.dev.gain.rearm = some 3 ∧ s.dev.gain.updates = 3 :=
  ⟨⟨invOk_inv (by decide +kernel), unwatchedOk_un (by decide +kernel), by decide +kernel, rfl, by decide +kernel, by decide +kernel⟩,
    ⟨put [(Reg.LANES_MODE_PHY 3, 3)] cpu, invOk_inv (by decide +kernel), unwatchedOk_un (by decide +kernel), by decide +kernel, rfl, by decide +kernel⟩,
    ⟨invOk_inv (by decide +kernel), unwatchedOk_un (by decide +kernel), by decide +kernel, by decide +kernel, by decide +kernel⟩,
    ⟨invOk_inv (by decide +kernel), unwatchedOk_un (by decide +kernel), by decide +kernel, by decide +kernel, by decide +kernel, by decide +kernel, by decide +kernel⟩,
    ⟨put [(Reg.CTRL_EN rxfePage, 1)] lanesUp, invOk_inv (by decide +kernel), by decide +kernel, by decide +kernel, rfl, by decide +kernel, by decide +kernel⟩,
    { lanesUp with dev := { cpu.dev with gain := ⟨some 3, 3⟩ } }, invOk_inv (by decide +kernel), by decide +kernel, rfl, rfl⟩

/-- `Detection`: the level at DETMIN and just below it, no owner, an owner without and with priority, an OFDM lane. -/
theorem wit_Detection :
    (lanesUp.Inv ∧ lanesUp.dev.gain.rearm = none ∧ (lanesUp.lane 1).since ≤ lanesUp.dev.time.link ∧ lanesUp.laneState 1 = laneSearch ∧
      lanesUp.laneOn 1 = true ∧ lanesUp.fld Reg.LANES_STAT_OWNER = 7) ∧
    (∃ s : State, s.fld (Reg.LANES_DET_DETMIN 1) ≠ 0x80 ∧ (-401 : Int) < 4 * signed 8 (s.fld (Reg.LANES_DET_DETMIN 1)) ∧
      4 * signed 8 (s.fld (Reg.LANES_DET_DETMIN 1)) ≤ (-400 : Int) ∧ s.isOfdm 1 = true) ∧
    (∃ s : State, s.Inv ∧ s.fld Reg.LANES_STAT_OWNER = 0 ∧ (s.lane 0).frame = some { detAt := 5 } ∧ 5 < s.dev.time.link ∧ s.laneOn 1 = true ∧
      s.laneState 1 = laneSearch ∧ s.bit (Reg.LANES_MODE_PRIO 1) = false) ∧
    ∃ s : State, s.Inv ∧ s.fld Reg.LANES_STAT_OWNER = 0 ∧ s.bit (Reg.LANES_MODE_PRIO 1) = true ∧ s.bit (Reg.LANES_MODE_PRIO 0) = false ∧
      s.bit Reg.RXFE_AGC_MANUAL = false ∧ s.laneState 1 = laneSearch ∧ s.laneOn 1 = true :=
  ⟨⟨invOk_inv (by decide +kernel), rfl, by decide +kernel, by decide +kernel, by decide +kernel, by decide +kernel⟩,
    ⟨put [(Reg.LANES_DET_DETMIN 1, 0x9C), (Reg.LANES_MODE_PHY 1, 2)] lanesUp, by decide +kernel, by decide +kernel, by decide +kernel, by decide +kernel⟩,
    ⟨receiving { detAt := 5 } 2, invOk_inv (by decide +kernel), by decide +kernel, rfl, by decide +kernel, by decide +kernel, by decide +kernel, by decide +kernel⟩,
    put [(Reg.LANES_MODE_PRIO 1, 1)] (receiving { detAt := 5 } 2), invOk_inv (by decide +kernel), by decide +kernel, by decide +kernel, by decide +kernel, by decide +kernel,
    by decide +kernel, by decide +kernel⟩

/-- `OneFrameAtATime`: a lane in its preamble. -/
theorem wit_OneFrameAtATime : ∃ s : State, s.Inv ∧ s.laneState 0 ∈ [lanePreamble, laneHeader, lanePayload] :=
  ⟨receiving {} 2, invOk_inv (by decide +kernel), by decide +kernel⟩

/-- Lane 0 at a point of its frame, nothing of it stored. -/
def laneAt (st : Nat) (f : RxFrame) (l : List (Fld × Nat)) : State :=
  { put (l ++ [(laneStateFld 0, st)]) lanesUp with dev := { cpu.dev with lanes := [(0, { frame := some f })], time := { link := 7 } } }

/-- `LaneFrames`: an SFD in time, the preamble too long, a coded one without FEC; an OFDM lane; PHRs good and bad, with the mode OFF and not. -/
theorem wit_LaneFrames :
    (let s := laneAt 2 { detAt := 7 } []; s.Inv ∧ s.Unwatched ∧ (s.lane 0).frame = some { detAt := 7 } ∧ s.laneState 0 = lanePreamble ∧
      s.preOver 0 = false ∧ s.bit (Reg.LANES_MODE_FEC 0) = false) ∧
    (let s := laneAt 2 { detAt := 0 } [(Reg.LANES_LEN_PRELIM 0, 4), (Reg.LANES_MODE_FEC 0, 1)]
     { s with dev := { s.dev with time := { link := 1000000 } } }.preOver 0 = true ∧ s.bit (Reg.LANES_MODE_FEC 0) = true) ∧
    (let s := laneAt 3 {} [(Reg.LANES_MODE_PHY 0, 2)]; s.Inv ∧ s.Unwatched ∧ s.laneState 0 = laneHeader ∧ s.isOfdm 0 = true ∧
      mcsOk (s.fld (Reg.LANES_MODE_OPT 0)) 2 = true ∧ mcsOk (s.fld (Reg.LANES_MODE_OPT 0)) 7 = false) ∧
    (let s := laneAt 3 {} [(Reg.LINK_STAT_MODE, 1)]; s.Inv ∧ s.Unwatched ∧ s.laneState 0 = laneHeader ∧ s.isOfdm 0 = false ∧
      s.fld Reg.LINK_STAT_MODE ≠ 0 ∧ ¬ s.fld (Reg.LANES_LEN_MAXLEN 0) < 2047) ∧
    (laneAt 3 {} []).fld Reg.LINK_STAT_MODE = 0 :=
  ⟨⟨invOk_inv (by decide +kernel), unwatchedOk_un (by decide +kernel), by decide +kernel, by decide +kernel, by decide +kernel, by decide +kernel⟩,
    ⟨by decide +kernel, by decide +kernel⟩,
    ⟨invOk_inv (by decide +kernel), unwatchedOk_un (by decide +kernel), by decide +kernel, by decide +kernel, by decide +kernel, by decide +kernel⟩,
    ⟨invOk_inv (by decide +kernel), unwatchedOk_un (by decide +kernel), by decide +kernel, by decide +kernel, by decide +kernel, by decide +kernel⟩,
    by decide +kernel⟩

/-- A data frame's header: broadcast from short address 2, and to another node. -/
def hdrAll : List Byte := [0x41, 0x88, 0x01, 0xFF, 0xFF, 0xFF, 0xFF, 0x02, 0x00]
def hdrOther : List Byte := [0x41, 0x88, 0x01, 0x11, 0x11, 0x22, 0x22, 0x02, 0x00]

/-- `Verdicts`: a frame of 20 octets whose header the filter takes, and one it refuses. -/
theorem wit_Verdicts :
    let f : RxFrame := { len := 20 }
    let s := laneAt 4 f [(Reg.LINK_STAT_MODE, 1)]
    s.Inv ∧ s.Unwatched ∧ (s.lane 0).frame = some f ∧ s.laneState 0 = lanePayload ∧ f.verdict = none ∧ s.fld Reg.LINK_STAT_MODE = 1 ∧
      s.dev.tx.jobs = [] ∧ s.bit Reg.FILT_CFG_PROMISC = false ∧
      (∀ h ∈ [hdrAll, hdrOther], h.length ≤ 64 ∧ floodIe h (parseMac h) = none ∧ strobeOf h f.len = none ∧ (parseMac h).ftype = 1) ∧
      s.filterOk (parseMac hdrOther) none = false ∧ s.filterOk (parseMac hdrAll) none = true ∧ (parseMac hdrAll).sec = false ∧
      (parseMac hdrAll).ar = false ∧ s.peerHit (parseMac hdrAll).src = none ∧ s.bit Reg.LINK_CFG_HOSTRX = false ∧
      s.slotFree false = true ∧ s.canAlloc poolRx (cellsFor 16) = true ∧ cellsFor 16 ≤ s.freeCells.length :=
  ⟨invOk_inv (by decide +kernel), unwatchedOk_un (by decide +kernel), by decide +kernel, by decide +kernel, rfl, by decide +kernel, rfl,
    by decide +kernel, by decide +kernel, by decide +kernel, by decide +kernel, by decide +kernel, by decide +kernel, by decide +kernel,
    by decide +kernel, by decide +kernel, by decide +kernel, by decide +kernel⟩

/-- A frame with a verdict of delivery, cell 511 its chain. -/
def due : RxFrame := { len := 13, verdict := some .deliver, row := 8, cells := [511] }

/-- The same, secured at level 1 under a key of zeros: FCF, DSN, broadcast, source 0x1122334455667788, the auxiliary header, one octet,
and the MIC. -/
def secHdr : List Byte := [0x49, 0xC8, 0x01, 0xFF, 0xFF, 0xFF, 0xFF, 0x88, 0x77, 0x66, 0x55, 0x44, 0x33, 0x22, 0x11, 0x01, 0x05, 0x00, 0x00, 0x00, 0xAA]
def secBody : List Byte := secHdr ++ [0x62, 0x51, 0xF0, 0x06]

/-- `FrameEnds`: the end of a frame with a good FCS and a bad one, and MIC results that match and do not. -/
theorem wit_FrameEnds :
    let s := { laneAt 4 due [(Reg.LINK_STAT_MODE, 1)] with
      dev := { (laneAt 4 due []).dev with cells := [(511, { owner := ownLink, last := true })] } }
    (s.Inv ∧ s.Unwatched ∧ s.dev.tx.jobs = [] ∧ due.verdict = some .deliver ∧ due.cells.Nodup ∧
      (∀ c ∈ due.cells, c < 512 ∧ (s.cell c).owner = ownLink) ∧
      s.fld Reg.LINK_RXRING_BASE * 16 + 16 * s.fld Reg.LINK_RXIDX_WR + 16 ≤ 0x21000000 ∧ (s.lane 0).frame = some due ∧
      s.laneState 0 = lanePayload ∧ s.fld Reg.LINK_STAT_MODE ≠ 0 ∧ (hdrAll ++ leBytes 4 (crc32 hdrAll)).length = due.len ∧
      fcsOk false (hdrAll ++ leBytes 4 (crc32 hdrAll)) = true ∧ fcsOk false (hdrAll ++ [0, 0, 0, 0]) = false ∧ (s.lane 0).mics = [] ∧
      floodIe hdrAll (parseMac hdrAll) = none ∧ due.cells.length = cellsFor hdrAll.length) ∧
    secBody.length = 25 ∧ (parseMac secBody).sec = true ∧ floodIe secBody (parseMac secBody) = none ∧
      (openFrame (List.replicate 16 0) (frameNonce 0x1122334455667788 5 1) secBody (parseMac secBody)).2 = true ∧
      (openFrame (List.replicate 16 1) (frameNonce 0x1122334455667788 5 1) secBody (parseMac secBody)).2 = false :=
  ⟨⟨invOk_inv (by decide +kernel), unwatchedOk_un (by decide +kernel), rfl, rfl, by decide +kernel, by decide +kernel, by decide +kernel,
    by decide +kernel, by decide +kernel, by decide +kernel, by decide +kernel, by decide +kernel, by decide +kernel, by decide +kernel,
    by decide +kernel, by decide +kernel⟩, by decide +kernel, by decide +kernel, by decide +kernel, by decide +kernel, by decide +kernel⟩

/-! ### The link controller -/

/-- The link page in a mode, its microcode good, the radio in a state. -/
def linkAt (mode st : Nat) : State :=
  put [(Reg.CTRL_EN linkPage, 1), (Reg.LINK_STAT_UCODE_OK, 1), (Reg.LINK_STAT_MODE, mode), (Reg.RCTL_STAT_OWNER, if mode = 0 then 0 else 1)]
    (radioAt st 0)

/-- `LinkModes`: OFF with and without its conditions, HW with the radio in STBY, and the loads of the Cox microcode. -/
theorem wit_LinkModes :
    (∀ m : Fin 3, (linkAt m.val 1).Inv ∧ (linkAt m.val 1).Quiet ∧ (linkAt m.val 1).Unwatched ∧ (linkAt m.val 1).en sampPage = false ∧
      (linkAt m.val 1).en linkPage = true ∧ (linkAt m.val 1).bit Reg.LINK_STAT_UCODE_OK = true ∧ (linkAt m.val 1).fld Reg.LINK_STAT_MODE = m.val ∧
      (linkAt m.val 1).radio = 1 ∧ (linkAt m.val 1).bit Reg.RCTL_STAT_BUSY = false) ∧
    (cpu.Inv ∧ cpu.Quiet ∧ cpu.en sampPage = false ∧ cpu.en linkPage = false ∧ cpu.dev.coxLoad.isOpen = false ∧ cpu.dev.coxLoad.ready = false) ∧
    ∃ s : State, s.Inv ∧ s.Quiet ∧ s.en sampPage = false ∧ s.dev.coxLoad.isOpen = true ∧ s.dev.coxLoad.crc = true ∧ s.dev.coxLoad.ready = true :=
  ⟨fun m => ⟨invOk_inv (by revert m; decide +kernel), quietOk_quiet (by revert m; decide +kernel), unwatchedOk_un (by revert m; decide +kernel),
      by revert m; decide +kernel, by revert m; decide +kernel, by revert m; decide +kernel, by revert m; decide +kernel,
      by revert m; decide +kernel, by revert m; decide +kernel⟩,
    ⟨invOk_inv (by decide +kernel), quietOk_quiet (by decide +kernel), by decide +kernel, by decide +kernel, rfl, rfl⟩,
    { cpu with dev := { cpu.dev with coxLoad := ⟨true, true, true⟩ } }, invOk_inv (by decide +kernel), quietOk_quiet (by decide +kernel),
    by decide +kernel, rfl, rfl, rfl⟩

/-- A TX pool that is full: its quota and all shared cells it may hold are the core's. -/
def fullPool : Sparse Cell := (List.range 512).map fun c => (c, { owner := ownCore, pool := poolTx, last := true })

/-- `Cells`: room for the longest chain, and none; a cell of the core's, and one of nobody's. -/
theorem wit_Cells :
    (cpu.Inv ∧ cpu.canAlloc poolTx 8 = true ∧ 8 ≤ cpu.freeCells.length ∧ (cpu.cell 511).owner ≠ ownCore) ∧
    ∃ s : State, s.Inv ∧ s.canAlloc poolTx 1 = false ∧ (s.cell 511).owner = ownCore :=
  ⟨⟨invOk_inv (by decide +kernel), by decide +kernel, by decide +kernel, by decide +kernel⟩,
    { cpu with dev := { cpu.dev with cells := fullPool } }, invOk_inv (by decide +kernel), by decide +kernel, by decide +kernel⟩

/-- A descriptor of one octet in cell 0, sent from lane 0; and one out of range: a preamble of 3 octets. -/
def desc (pre : Nat) : List (Nat × Nat) :=
  [(0x20000000, 1), (0x20000006, pre), (0x20000004, 0x90), (0x20000005, 1)]

/-- The link controller in SW, its TX ring at the start of SRAM with one descriptor, cell 0 the core's. -/
def ringOf (pre : Nat) : State :=
  { store (desc pre) (put [(Reg.LINK_TXRING_BASE, 0x2000000), (Reg.LINK_TXIDX_WR, 1), (Reg.HOSTP_CFG_NOTE, 0)] (linkAt 1 0)) with
    dev := { cpu.dev with cells := [(0, { owner := ownCore, pool := poolTx, last := true })] } }

/-- The same with a frame of the queue alone. -/
def waitingJob (j : TxJob) : State := { linkAt 1 2 with dev := { cpu.dev with tx := { jobs := [j] } } }

/-- `DescriptorsAndWaits`: a descriptor in range and one out of it, a mode that takes none; frames that wait for their MIC, their
retry, their acknowledgement, with retries left and without, and with a frame arriving in the window. -/
theorem wit_DescriptorsAndWaits :
    ((ringOf 4).Inv ∧ (ringOf 4).dev.tx.jobs = [] ∧ (ringOf 4).takes = true ∧ (ringOf 4).ringWaits false = true ∧ (ringOf 4).dev.eccBad = [] ∧
      (ringOf 4).fld Reg.HOSTP_CFG_NOTE = 0 ∧
      let d := (ringOf 4).bytes 0x20000000 16
      (16 * (ringOf 4).fld Reg.LINK_TXRING_BASE = 0x20000000 ∧ (ringOf 4).descCheck d (jobOf false 0 d) = 0 ∧
        (jobOf false 0 d).timed = false ∧ (jobOf false 0 d).secured = false ∧ (ringOf 4).bit Reg.SAMP_RDV_EN = false ∧
        (ringOf 4).isOfdm 0 = false ∧ (ringOf 4).chain 0 = [0])) ∧
    ((ringOf 3).Inv ∧ (ringOf 3).takes = true ∧ (ringOf 3).ringWaits false = true ∧
      (ringOf 3).descCheck ((ringOf 3).bytes 0x20000000 16) (jobOf false 0 ((ringOf 3).bytes 0x20000000 16)) = 3) ∧
    (cpu.Inv ∧ cpu.dev.tx.jobs = [] ∧ cpu.takes = false) ∧
    (∃ s : State, s.Inv ∧ s.takes = true ∧ s.ringWaits true = true ∧ s.dev.eccBad = [] ∧ s.dev.tx.doneSlots = [] ∧
      s.fld Reg.HOSTP_CFG_NOTE = 0 ∧ s.descCheck [] (jobOf true 0 []) ≠ 0) ∧
    (∀ st ∈ [TxStage.securing, .retryWait, .ackWait], (waitingJob { stage := st }).Inv ∧
      (waitingJob { stage := st }).ackComing { stage := st } = false) ∧
    ∃ s : State, s.Inv ∧ s.dev.tx.jobs = [{ stage := .ackWait }] ∧ s.ackComing { stage := .ackWait } = true := by
  refine ⟨⟨invOk_inv (by decide +kernel), rfl, by decide +kernel, by decide +kernel, rfl, by decide +kernel, by decide +kernel⟩,
    ⟨invOk_inv (by decide +kernel), by decide +kernel, by decide +kernel, by decide +kernel⟩,
    ⟨invOk_inv (by decide +kernel), rfl, by decide +kernel⟩,
    ⟨{ put [(Reg.HOSTP_CFG_NOTE, 0)] (linkAt 1 0) with dev := { cpu.dev with hostp := { tx := [[]] } } }, invOk_inv (by decide +kernel), by decide +kernel, by decide +kernel,
      rfl, rfl, by decide +kernel, by decide +kernel⟩, fun st hs => ⟨invOk_inv ?_, ?_⟩,
    { laneAt 3 {} [] with dev := { (laneAt 3 {} []).dev with tx := { jobs := [{ stage := .ackWait }] } } }, invOk_inv (by decide +kernel), rfl,
    by decide +kernel⟩
  · revert st; decide +kernel
  · revert st; decide +kernel

/-- `QueuesGoOn`: descriptors beside another frame; the frame that secures, the one that retries and the one that waits; a page to
bind and one at work; a doze that ends, and the points of an entry. -/
theorem wit_QueuesGoOn :
    (∃ s : State, s.Inv ∧ s.takes = true ∧ s.ringWaits false = true ∧ s.ringWaits true = true ∧ s.dev.tx.jobs.length = 3 ∧
      (∃ j, (s.dev.tx.jobs.find? fun x => x.stage == .securing) = some j ∧ j.kind ≠ .beacon ∧ j.level = none ∧ j.timed = false) ∧
      (∃ j, s.pick (fun x => x.stage == .retryWait) = some j) ∧
      ∃ j, (s.dev.tx.jobs.find? fun x => x.stage == .ackWait) = some j ∧ s.ackComing j = false ∧ j.retries = 0 ∧ j.kind = .ring) ∧
    (∃ (s : State) (j : CiphJob), s.Inv ∧ s.en (ciphPage 3) = false ∧ s.sysMode = true ∧ s.fld (Reg.CIPH_OWNER_MASTER 3) = 0 ∧
      (s.ciph 4).job = some j) ∧
    (∃ s : State, s.Inv ∧ s.dev.pwr.entry = .stopped ∧ s.wakeNow (0 : BitVec 14).toNat = 0 ∧ s.wakeNow (1 : BitVec 14).toNat ≠ 0) ∧
    ∃ s : State, s.Inv ∧ s.dev.pwr.entry = .edge ∧ s.dev.pwr.toEasy = false :=
  ⟨⟨{ ringOf 4 with dev := { (ringOf 4).dev with
        tx := { jobs := [{ id := 1, stage := .securing }, { id := 2, stage := .retryWait }, { id := 3, stage := .ackWait }], nextId := 4 }
        hostp := { tx := [[]] } } },
      invOk_inv (by decide +kernel), by decide +kernel, by decide +kernel, by decide +kernel, rfl,
      ⟨{ id := 1, stage := .securing }, by decide +kernel, by decide +kernel, rfl, rfl⟩, ⟨{ id := 2, stage := .retryWait }, by decide +kernel⟩,
      { id := 3, stage := .ackWait }, by decide +kernel, by decide +kernel, rfl, rfl⟩,
    ⟨{ cpu with dev := { cpu.dev with ciph := [(4, { job := some { status := 0 } })] } }, { status := 0 }, invOk_inv (by decide +kernel),
      by decide +kernel, by decide +kernel, by decide +kernel, rfl⟩,
    ⟨{ put [(Reg.PWR_WAKEEN_EN, 1)] cpu with dev := { cpu.dev with pwr := { entry := .stopped } } }, invOk_inv (by decide +kernel), rfl,
      by decide +kernel, by decide +kernel⟩,
    { cpu with dev := { cpu.dev with pwr := { entry := .edge } } }, invOk_inv (by decide +kernel), rfl, rfl⟩

/-- `TablesAndMailboxes`: the link clock running and stopped, an item a page has and one it has not, a snapshot on its way. -/
theorem wit_TablesAndMailboxes :
    (cpu.Inv ∧ cpu.linkClock = true ∧ cpu.dev.peerWr = [] ∧ isCluster linkPage = true ∧ cpu.powered linkPage = true ∧
      (cpu.mbxItem linkPage 1).isSome = true ∧ cpu.mbxItem linkPage 0xFFFF = none) ∧
    (∃ s : State, s.Inv ∧ s.linkClock = false) ∧
    ∃ s : State, s.Inv ∧ Sparse.val 0x10000 s.dev.mbx linkPage = 1 ∧ (s.mbxItem linkPage 1).isSome = true :=
  ⟨⟨invOk_inv (by decide +kernel), by decide +kernel, rfl, by decide +kernel, by decide +kernel, by decide +kernel, by decide +kernel⟩,
    ⟨{ cpu with dev := { cpu.dev with pwr := { state := .rest } } }, invOk_inv (by decide +kernel), by decide +kernel⟩,
    { cpu with dev := { cpu.dev with mbx := [(linkPage, 1)] } }, invOk_inv (by decide +kernel), by decide +kernel, by decide +kernel⟩

/-- A TIME flood of node 1: FCF, DSN, PAN and broadcast, source, and the flood header IE. -/
def timeFlood : List Byte :=
  [0x41, 0xAA, 0x01, 0xFF, 0xFF, 0xFF, 0xFF, 0x01, 0x00, 0x15, 0x00, 0x5A, 0x51, 0x48, 0x01, 0x01, 0x00, 0, 0, 0, 0, 0x01, 0x00, 0x03, 0, 0,
    0, 0, 0, 0, 0, 0]

/-- A root whose template is that flood. -/
def root : State :=
  { store (timeFlood.mapIdx fun i b => (0x21000000 + i, b.toNat))
      (put [(Reg.NTIME_CFG_ROOT, 1), (Reg.FLOOD_BCN_EN, 1), (Reg.NTIME_STAT_SYNC, 1), (Reg.FILT_ADDR_SHORT, 1), (Reg.FLOOD_BTMPL_CELL, 0),
        (Reg.FLOOD_BTMPL_LENGTH, 32), (Reg.FLOOD_BCN_SECURE, 0)] (linkAt 1 3)) with
    dev := { cpu.dev with cells := [(0, { owner := ownCore, pool := poolTx, last := true })] } }

/-- The scheduler runs with the radio in RX, BSTATE and the main window as given. -/
def sched (b main misses : Nat) : State :=
  { put [(Reg.CTRL_EN sampPage, 1), (Reg.SAMP_STAT_BSTATE, b), (Reg.SAMP_STAT_MISSES, misses)] (linkAt 1 3) with
    dev := { cpu.dev with samp := { main := main } } }

/-- What `Beacons` asks of the scheduler's states. -/
def schedOk (s : State) : Bool :=
  invOk s && quietOk s && (List.range 4).all (fun n => s.laneState n == laneOff && !s.laneOn n) && s.radio == 3 && s.dev.pwr.state == .run &&
  s.dev.pwr.entry == .none && !s.dev.samp.woke && !s.dev.samp.closing && !s.dev.samp.sample && s.dev.samp.rdv == none

/-- `Beacons`: a node that is no root, a root with a template and without; windows in every state of BSTATE. -/
theorem wit_Beacons :
    (cpu.Inv ∧ cpu.dev.tx.jobs = [] ∧ cpu.bit Reg.NTIME_CFG_ROOT = false) ∧
    (root.Inv ∧ root.dev.tx.jobs = [] ∧ root.fld Reg.LINK_STAT_MODE ≠ 0 ∧ root.bit Reg.NTIME_STAT_SYNC = true ∧
      root.chainBytes (root.chain 0) 32 = timeFlood ∧ root.canAlloc poolTx (cellsFor 32) = true ∧ cellsFor 32 ≤ root.freeCells.length ∧
      root.bit Reg.FLOOD_BCN_SECURE = false ∧ root.laneCfgOk (root.fld Reg.FLOOD_BCN_LANE) = true ∧
      ∃ f, floodIe timeFlood (parseMac timeFlood) = some f ∧ root.mayOriginate (parseMac timeFlood) f = true ∧ f.cls = 3) ∧
    (∀ b : Fin 4, schedOk (sched b.val 0 0) = true ∧ (sched b.val 0 0).sampOn = true ∧ (sched b.val 0 0).fld Reg.SAMP_STAT_BSTATE = b.val) ∧
    schedOk (sched 1 3 1) = true ∧ schedOk (sched 1 3 2) = true ∧ schedOk (sched 1 5 0) = true ∧
    (put [(Reg.LINK_STAT_MODE, 2)] (sched 2 4 0)).fld Reg.LINK_STAT_MODE = 2 ∧
    floodIe (cpu.chainBytes (cpu.chain 0) 32) (parseMac (cpu.chainBytes (cpu.chain 0) 32)) = none :=
  ⟨⟨invOk_inv (by decide +kernel), rfl, by decide +kernel⟩,
    ⟨invOk_inv (by decide +kernel), rfl, by decide +kernel, by decide +kernel, by decide +kernel, by decide +kernel, by decide +kernel,
      by decide +kernel, by decide +kernel, ⟨11, 21, 1, 0, 0, 1, 3, 0, 0⟩, by decide +kernel, by decide +kernel, rfl⟩,
    by decide +kernel, by decide +kernel, by decide +kernel, by decide +kernel, by decide +kernel, by decide +kernel⟩

/-- `NetworkTime`: a compare ahead and one just reached, armed and not; a full calibration; a carry that waits for its restore. -/
theorem wit_NetworkTime :
    (cpu.Inv ∧ cpu.dev.tx.jobs = [] ∧ cpu.bit Reg.NTIME_STAT_CMPARMED = false ∧ cpu.linkClock = true ∧ cpu.dev.time.restore = false ∧
      (cpu.dev.time.ntime + 2 ^ 48 - (cpu.reg Reg.NTIME_CMPLO).toNat % 2 ^ 48) % 2 ^ 48 < 2 ^ 47) ∧
    (∃ s : State, s.Inv ∧ s.dev.tx.jobs = [] ∧ s.bit Reg.NTIME_STAT_CMPARMED = true ∧
      ¬ (s.dev.time.ntime + 2 ^ 48 - (s.reg Reg.NTIME_CMPLO).toNat % 2 ^ 48) % 2 ^ 48 < 2 ^ 47) ∧
    (∃ s : State, s.Inv ∧ s.dev.tx.jobs = [] ∧ 65536 ≤ s.dev.time.calLf) ∧
    ∃ (s : State) (c : Carry), s.Inv ∧ s.dev.tx.jobs = [] ∧ s.dev.time.carry = some c ∧ s.dev.time.restore = true ∧ s.en ntimePage = true ∧
      s.bit Reg.NTIME_STAT_CMPARMED = false :=
  ⟨⟨invOk_inv (by decide +kernel), rfl, by decide +kernel, by decide +kernel, rfl, by decide +kernel⟩,
    ⟨put [(Reg.NTIME_STAT_CMPARMED, 1), (Reg.NTIME_CMPLO_VALUE, 1)] cpu, invOk_inv (by decide +kernel), by decide +kernel, by decide +kernel, by decide +kernel⟩,
    ⟨{ cpu with dev := { cpu.dev with time := { calLf := 65536 } } }, invOk_inv (by decide +kernel), rfl, by decide +kernel⟩,
    { put [(Reg.CTRL_EN ntimePage, 1)] cpu with dev := { cpu.dev with time := { carry := some ⟨1, 0, 0, true⟩, restore := true } } },
    ⟨1, 0, 0, true⟩, invOk_inv (by decide +kernel), rfl, rfl, rfl, by decide +kernel, by decide +kernel⟩

/-- The scheduler of a leaf with its windows as given, the radio in a state, the device in RUN or REST. -/
def leaf (st : Nat) (x : Samp) (p : PwrState) : State :=
  { put [(Reg.CTRL_EN sampPage, 1), (Reg.SAMP_RDV_EXT, 1)] (linkAt 1 st) with dev := { cpu.dev with samp := x, pwr := { state := p } } }

/-- What `SampleWindows` asks of all those states. -/
def leafOk (s : State) : Bool :=
  invOk s && quietOk s && (List.range 4).all (fun n => s.laneState n == laneOff && !s.laneOn n) && s.bit Reg.RCTL_STAT_OWNER &&
  !s.dev.radio.bowDead && !s.bit Reg.RCTL_STAT_BUSY && s.bit Reg.RCTL_STAT_UCODE_OK && s.synthOk && !s.dev.samp.closing

/-- `SampleWindows`: the lattice, the window's instants from each state of the radio, in RUN and in REST, the strobe wait; and the same
with a frame at a lane. -/
theorem wit_SampleWindows :
    (leafOk (leaf 0 { anchor := some 0, reanchor := true } .run) && (leaf 0 { anchor := some 0, reanchor := true } .run).sampOn &&
      leafOk (leaf 4 { anchor := some 0 } .run) && leafOk (leaf 3 { anchor := some 0 } .run) &&
      leafOk (leaf 0 { anchor := some 0 } .rest) && (leaf 0 { anchor := some 0 } .rest).sampOn && !(leaf 0 { anchor := some 0 } .rest).linkClock &&
      leafOk (leaf 1 { sample := true, woke := true } .run) && leafOk (leaf 2 { sample := true, woke := true } .run) &&
      leafOk (leaf 3 { sample := true, energy := true } .run) && (leaf 3 { sample := true, energy := true } .run).fld Reg.SAMP_RDV_EXT != 0 &&
      leafOk (leaf 3 { sample := true, woke := true } .run) && leafOk (leaf 3 { sample := true, extended := true } .run) &&
      leafOk (leaf 3 { rdv := some ⟨9, 1, false, false⟩ } .run) && leafOk (leaf 0 { rdv := some ⟨9, 1, false, false⟩ } .run)) = true ∧
    ∀ x ∈ [({ sample := true, detected := true } : Samp), { sample := true, extended := true, detected := true },
        { rdv := some ⟨9, 1, true, true⟩ }, { main := 3, heard := true }, { main := 5 }],
      invOk { laneAt 3 {} [] with dev := { (laneAt 3 {} []).dev with samp := x } } = true ∧
      { laneAt 3 {} [] with dev := { (laneAt 3 {} []).dev with samp := x } }.rxQuiet = false := by
  refine ⟨by decide +kernel, ?_⟩
  decide +kernel

/-! ### Cipher pages, flash, transfers -/

/-- Page 3 is the core's and enabled; slot 8 holds a key of zeros for every use on it. -/
def cipher : State :=
  { put [(Reg.CIPH_OWNER_MASTER 3, 1), (Reg.CTRL_EN (ciphPage 3), 1), (Reg.CIPH_SRC_ADDR 3, 0x20000000), (Reg.CIPH_DST_ADDR 3, 0x20001000)] cpu
    with dev := { cpu.dev with keys := [(0, { valid := true, mask := 0xFF, usage := 7, key := List.replicate 16 0 }),
      (8, { valid := true, mask := 0xFF, usage := 7, key := List.replicate 16 0 })] } }

/-- `Serves`, as a check. -/
def servesOk (s : State) (n : Nat) : Bool :=
  invOk s && s.executes && (if s.core.pc = 0x40 then s.core.svc == some n else !bitOf s.core.st.toNat 6) &&
  s.dev.flash.prog == none && s.dev.flash.owed == none

theorem servesOk_serves {s : State} {n : Nat} (h : servesOk s n = true) : s.Serves n := by
  simp only [servesOk, Bool.and_eq_true, beq_iff_eq] at h
  obtain ⟨⟨⟨⟨a, b⟩, c⟩, d⟩, e⟩ := h
  refine ⟨invOk_inv a, b, ?_, fun p hp => by simp [d] at hp, e⟩
  by_cases h : s.core.pc = 0x40
  · rw [if_pos h]; rw [if_pos h] at c; exact eq_of_beq c
  · rw [if_neg h]; rw [if_neg h] at c; simpa using c

/-- At the services' entry because of an SVC of a number, for a caller in SYS mode. -/
def atSvc (n : Nat) (g : List (Nat × Word)) : State :=
  { cpu with core := { cpu.core with pc := 0x40, st := 0x841, xst := 0x801, xpc := 0x20000004, svc := some n, g := g } }

/-- `CipherPages`: a page nobody has, enabled or not, one of others', one at work; FCNT_RESERVE called where the reservation is low, not low,
not valid, with the flash busy and at rest, no record written yet. -/
theorem wit_CipherPages :
    (cpu.Inv ∧ cpu.mayBind (.core false) 3 = true ∧ cpu.en (ciphPage 3) = false ∧ cpu.mayBind (.core false) 2 = false ∧
      cpu.mayBind (.host) 7 = false ∧ cpu.ciphOwner .host 7 = false) ∧
    (∃ s : State, s.Inv ∧ s.mayBind (.core false) 7 = true ∧ s.en (ciphPage 7) = true) ∧
    (∃ s : State, s.Inv ∧ s.bit (Reg.CIPH_RESULT_BUSY 3) = true ∧ (s.ciph 3).job = some { status := 0 }) ∧
    ((atSvc 0xF006 []).Serves 0xF006 ∧ (atSvc 0xF006 []).bit Reg.CIPH0_FCSTAT_FCVALID = false ∧
      (atSvc 0xF006 []).fld Reg.FLASHC_STAT_STATE = 0 ∧ (atSvc 0xF006 []).fcCurrent = none) ∧
    (∃ s : State, s.Serves 0xF006 ∧ s.bit Reg.CIPH0_FCSTAT_FCVALID = true ∧ s.bit Reg.CIPH0_FCSTAT_LOW = false) ∧
    ∃ s : State, s.Serves 0xF006 ∧ s.bit Reg.CIPH0_FCSTAT_FCVALID = false ∧ s.fld Reg.FLASHC_STAT_STATE = 3 :=
  ⟨⟨invOk_inv (by decide +kernel), by decide +kernel, by decide +kernel, by decide +kernel, by decide +kernel, by decide +kernel⟩,
    ⟨put [(Reg.CTRL_EN (ciphPage 7), 1)] cpu, invOk_inv (by decide +kernel), by decide +kernel, by decide +kernel⟩,
    ⟨{ put [(Reg.CIPH_RESULT_BUSY 3, 1)] cpu with dev := { cpu.dev with ciph := [(3, { job := some { status := 0 } })] } },
      invOk_inv (by decide +kernel), by decide +kernel, rfl⟩,
    ⟨servesOk_serves (by decide +kernel), by decide +kernel, by decide +kernel, by decide +kernel⟩,
    ⟨put [(Reg.CIPH0_FCSTAT_FCVALID, 1), (Reg.CIPH0_FCSTAT_LOW, 0)] (atSvc 0xF006 []), servesOk_serves (by decide +kernel), by decide +kernel,
      by decide +kernel⟩,
    put [(Reg.FLASHC_STAT_STATE, 3)] (atSvc 0xF006 []), servesOk_serves (by decide +kernel), by decide +kernel, by decide +kernel⟩

/-- `CipherOps`: an enabled page of the core's, its keys and its inputs in main SRAM; a tag that matches and one that does not; a
secured frame to open; slots to unwrap into and to erase. -/
theorem wit_CipherOps :
    (cipher.Inv ∧ cipher.ciphOwner (.core false) 3 = true ∧ cipher.en (ciphPage 3) = true ∧ cipher.bit (Reg.CIPH_RESULT_BUSY 3) = false ∧
      cipher.keyFor 8 useRaw 3 = some (List.replicate 16 0) ∧ cipher.keyFor 8 useCmac 3 = some (List.replicate 16 0) ∧
      cipher.keyFor 8 useFrame 3 = some (List.replicate 16 0) ∧ cipher.keyFor 9 useRaw 3 = none ∧ (cipher.slot 0).valid = true ∧
      (cipher.slot 8).valid = true ∧ (cipher.slot 8).mask.testBit 3 = true ∧
      (cipher.reg (Reg.CIPH_SRC 3)).toNat = 0x20000000 ∧ (cipher.reg (Reg.CIPH_DST 3)).toNat = 0x20001000) ∧
    (cipher.ciphOctets (Reg.CIPH_TAG 3 0) 4 ≠
      ccmTag (List.replicate 16 0) (cipher.ciphOctets (Reg.CIPH_NONCE 3 0) 13) (cipher.bytes 0x20000000 0) [] 4) ∧
    (∃ s : State, s.ciphOctets (Reg.CIPH_TAG 3 0) 4 =
      ccmTag (List.replicate 16 0) (s.ciphOctets (Reg.CIPH_NONCE 3 0) 13) (s.bytes 0x20000000 0) [] 4) ∧
    (∃ s : State, (s.reg (Reg.CIPH_MLEN 3)).toNat = 25 ∧ s.bytes 0x20000000 25 = secBody ∧ (parseMac secBody).ok = true ∧
      (parseMac secBody).sec = true ∧ (parseMac secBody).unsupported = false ∧ (parseMac secBody).hdrLen + micLen (parseMac secBody).level ≤ 25) ∧
    ∃ s : State, (s.ciph 3).chain = some (List.replicate 16 0 ++ [0x31]) :=
  ⟨⟨invOk_inv (by decide +kernel), by decide +kernel, by decide +kernel, by decide +kernel, by decide +kernel, by decide +kernel,
      by decide +kernel, by decide +kernel, by decide +kernel, by decide +kernel, by decide +kernel, by decide +kernel, by decide +kernel⟩,
    by decide +kernel,
    ⟨put [(⟨Reg.CIPH_TAG 3 0, 31, 0⟩, leNat (ccmTag (List.replicate 16 0) (cipher.ciphOctets (Reg.CIPH_NONCE 3 0) 13) [] [] 4))] cipher,
      by decide +kernel⟩,
    ⟨store (secBody.mapIdx fun i b => (0x20000000 + i, b.toNat)) (put [(⟨Reg.CIPH_MLEN 3, 31, 0⟩, 25)] cipher), by decide +kernel,
      by decide +kernel, by decide +kernel, by decide +kernel, by decide +kernel, by decide +kernel⟩,
    { cipher with dev := { cipher.dev with ciph := [(3, { chain := some (List.replicate 16 0 ++ [0x31]) })] } }, rfl⟩

/-- PROGRAM of two units from the start of SRAM into erase unit 4, ERASE of it; and one in a locked unit. -/
def progG (a n : Word) : List (Nat × Word) := [(1, a), (2, 0x20000000), (3, n)]
def progAt (a n : Word) : State := atSvc 0xF000 (progG a n)

/-- `FlashProgramErase`: the smallest and the largest PROGRAM, one unit too many, a locked unit, BAD and torn ones, a busy flash; an erase with room in
the journal; a PROGRAM between two units, its lock kept and revoked. -/
theorem wit_FlashProgramErase :
    ((progAt 0x01004000 16).Serves 0xF000 ∧ (progAt 0x01004000 16).callerTask = false ∧ (progAt 0x01004000 16).unitLocked 4 = false ∧
      (progAt 0x01004000 16).fld Reg.FLASHC_STAT_STATE = 0 ∧ 4 ∉ (progAt 0x01004000 16).bad ∧ ((progAt 0x01004000 16).unit 4).torn = false ∧
      (progAt 0x01004000 16).bytes 0x01004000 16 = List.replicate 16 0xFF ∧ (progAt 0x01004000 16).topLine = none) ∧
    ((progAt 0x01004000 4096).Serves 0xF000 ∧ unitOf 0x01004000 = 4 ∧ unitOf (0x01004000 + 4096 - 1) = 4) ∧
    (progAt 0x01003000 16).unitLocked (unitOf 0x01003000) = true ∧
    (∃ s : State, s.Serves 0xF000 ∧ s.unitLocked 4 = false ∧ s.fld Reg.FLASHC_STAT_STATE = 2 ∧ s.fld Reg.FLASHC_STAT_UNIT = 4) ∧
    (∃ s : State, s.Serves 0xF000 ∧ s.unitLocked 4 = false ∧ 4 ∈ s.bad) ∧
    (∃ s : State, s.Serves 0xF000 ∧ s.unitLocked 4 = false ∧ 4 ∉ s.bad ∧ (s.unit 4).torn = true) ∧
    (∃ s : State, s.Serves 0xF001 ∧ s.callerTask = false ∧ s.unitLocked 4 = false ∧ (s.g 1).toNat = unitBase 4 ∧ s.dev.flash.jOpen = true ∧
      s.dev.flash.jNext + 2 = 256) ∧
    (∃ s : State, s.Serves 0xF000 ∧ s.core.slot = none ∧ bitOf s.callerSt.toNat 7 = true ∧ s.topLine = some 67 ∧ s.linePrio 67 < s.pl ∧
      s.VectorAt 99) ∧
    ∀ e : Bool, ∃ (s : State) (p : Prog), s.Inv ∧ s.executes = true ∧ s.dev.flash.prog = some p ∧ s.core.pc = p.pc ∧ p.ended = e ∧
      p.done < p.total ∧ p.was < 4 ∧ bitOf p.back.2.toNat 7 = false :=
  ⟨⟨servesOk_serves (by decide +kernel), by decide +kernel, by decide +kernel, by decide +kernel, by decide +kernel, by decide +kernel,
      by decide +kernel, by decide +kernel⟩,
    ⟨servesOk_serves (by decide +kernel), by decide +kernel, by decide +kernel⟩, by decide +kernel,
    ⟨put [(Reg.FLASHC_STAT_STATE, 2), (Reg.FLASHC_STAT_UNIT, 4)] (progAt 0x01004000 16), servesOk_serves (by decide +kernel), by decide +kernel,
      by decide +kernel, by decide +kernel⟩,
    ⟨{ progAt 0x01004000 16 with bad := [4] }, servesOk_serves (by decide +kernel), by decide +kernel, by decide +kernel⟩,
    ⟨{ progAt 0x01004000 16 with dev := { cpu.dev with flash := { units := [(4, { torn := true })] } } }, servesOk_serves (by decide +kernel),
      by decide +kernel, by decide +kernel, by decide +kernel⟩,
    ⟨{ atSvc 0xF001 (progG 0x01004000 0) with dev := { cpu.dev with flash := { jOpen := true, jNext := 254 } } }, servesOk_serves (by decide +kernel),
      by decide +kernel, by decide +kernel, by decide +kernel, rfl, rfl⟩,
    ⟨{ irq 0x801 with core := { (progAt 0x01004000 32).core with xst := 0x881 } }, servesOk_serves (by decide +kernel), rfl, by decide +kernel,
      by decide +kernel, by decide +kernel, vecOk_at (by decide +kernel)⟩,
    fun e => ⟨{ atSvc 0xF000 [] with
        core := { (atSvc 0xF000 []).core with pc := 0x44 }
        dev := { cpu.dev with flash := { prog := some { dst := 0x01004000, src := 0x20000000, total := 2, done := 1, was := 0, pc := 0x44
                                                        back := (0x20000004, 0x801), keep := (0, 0), ended := e } } } },
      _, invOk_inv (by revert e; decide +kernel), by revert e; decide +kernel, rfl, rfl, rfl, Nat.lt_succ_self 1, Nat.zero_lt_succ 3,
      show bitOf 0x801 7 = false from by decide⟩⟩

/-- The flash in a state with a unit and pulses, the core at the services' entry. -/
def flashAt (svc st u pulses : Nat) (g : List (Nat × Word)) : State :=
  { put [(Reg.FLASHC_STAT_STATE, st), (Reg.FLASHC_STAT_UNIT, u), (Reg.FLASHC_STAT_PULSES, pulses)] (atSvc svc g) with
    dev := { cpu.dev with flash := { jOpen := true, jNext := 255, jSector := 1 } } }

/-- `FlashErasing`: an erase below and at its last pulse, suspended, at rest; the services called, and called without their SVC. -/
theorem wit_FlashErasing :
    ((flashAt 0xF002 1 2 0 []).Inv ∧ (flashAt 0xF002 1 2 0 []).fld Reg.FLASHC_STAT_STATE = 1 ∧ (0 + 1 : Nat) < maxPulses 2 ∧
      (flashAt 0xF002 1 78 (maxPulses 78 - 1) []).fld Reg.FLASHC_STAT_PULSES + 1 = maxPulses 78 ∧ maxPulses 78 < 16384 ∧
      (flashAt 0xF002 1 2 0 []).dev.flash.orphan = false) ∧
    ((flashAt 0xF002 1 2 0 []).Serves 0xF002 ∧ (flashAt 0xF002 0 2 0 []).Serves 0xF002 ∧ (flashAt 0xF003 2 2 0 []).Serves 0xF003 ∧
      (flashAt 0xF003 1 2 0 []).Serves 0xF003 ∧ (flashAt 0xF004 0 2 0 []).Serves 0xF004 ∧ (flashAt 0xF005 0 2 0 [(1, 78)]).Serves 0xF005 ∧
      (flashAt 0xF005 0 2 0 [(1, 79)]).Serves 0xF005) ∧
    ((flashAt 0xF005 0 2 0 []).executes = true ∧ (flashAt 0xF005 0 2 0 []).core.pc = 0x40 ∧ (flashAt 0xF005 0 2 0 []).core.svc ≠ some 0xF002) :=
  ⟨⟨invOk_inv (by decide +kernel), by decide +kernel, by decide +kernel, by decide +kernel, by decide +kernel, rfl⟩,
    ⟨servesOk_serves (by decide +kernel), servesOk_serves (by decide +kernel), servesOk_serves (by decide +kernel),
      servesOk_serves (by decide +kernel), servesOk_serves (by decide +kernel), servesOk_serves (by decide +kernel),
      servesOk_serves (by decide +kernel)⟩, by decide +kernel, rfl, by decide +kernel⟩

/-- DMA channel 7 copies words within main SRAM, at element i of n. -/
def dma (en i n : Nat) : State :=
  { put [(⟨Reg.DMA_EN, 7, 7⟩, en), (Reg.DMA_CNT_CNT 7, n), (Reg.DMA_CFG_SIZE 7, 2), (⟨Reg.DMA_SRC 7, 31, 0⟩, 0x20000000),
      (⟨Reg.DMA_DST 7, 31, 0⟩, 0x20001000)] cpu with dev := { cpu.dev with dma := if en = 1 then [(7, { active := true, idx := i })] else [] } }

/-- `StorageTransfers`: the sequencer busy and free, a sequence of each kind, polling; a channel's parameters good and bad, an element in the middle and the last. -/
theorem wit_StorageTransfers :
    (∃ s : State, s.Inv ∧ s.bit Reg.XSPI_STAT_BUSY = false ∧ s.en xspiPage = true ∧ (0x80000000 : Word).toNat.testBit 31 = true) ∧
    (∃ s : State, s.Inv ∧ s.bit Reg.XSPI_STAT_BUSY = true ∧ s.bit Reg.XSPI_STAT_POLLING = true ∧
      s.dev.xseq = some { cs := 0, dir := 1, len := 256, wip := true }) ∧
    (∃ s : State, s.Inv ∧ s.dev.xseq = some { cs := 0, dir := 3, len := 257, wip := false } ∧ s.bit Reg.XSPI_STAT_POLLING = false) ∧
    ((dma 0 0 2).Inv ∧ (dma 0 0 2).dev.parity = [] ∧ (dma 0 0 2).dmaOk 7 = true ∧ (dma 0 0 2).fld (Reg.DMA_CNT_CNT 7) ≠ 0 ∧
      (dma 0 0 2).bit ⟨Reg.DMA_EN, 7, 7⟩ = false ∧ cpu.dmaOk 7 = false) ∧
    ∀ i : Fin 2, (dma 1 i.val 2).Inv ∧ (dma 1 i.val 2).bit ⟨Reg.DMA_EN, 7, 7⟩ = true ∧ ((dma 1 i.val 2).dma 7).active = true ∧
      (∀ m < 7, (dma 1 i.val 2).bit ⟨Reg.DMA_EN, m, m⟩ = false) ∧ (dma 1 i.val 2).fld (Reg.DMA_CFG_SIZE 7) < 3 ∧
      (dma 1 i.val 2).bit (Reg.DMA_CFG_SFIX 7) = false ∧ (dma 1 i.val 2).bit (Reg.DMA_CFG_DFIX 7) = false ∧
      ((dma 1 i.val 2).dma 7).idx < (dma 1 i.val 2).fld (Reg.DMA_CNT_CNT 7) :=
  ⟨⟨put [(Reg.CTRL_EN xspiPage, 1)] cpu, invOk_inv (by decide +kernel), by decide +kernel, by decide +kernel, by decide +kernel⟩,
    ⟨{ put [(Reg.XSPI_STAT_BUSY, 1), (Reg.XSPI_STAT_POLLING, 1)] cpu with dev := { cpu.dev with xseq := some ⟨0, 1, 256, true⟩ } },
      invOk_inv (by decide +kernel), by decide +kernel, by decide +kernel, rfl⟩,
    ⟨{ cpu with dev := { cpu.dev with xseq := some ⟨0, 3, 257, false⟩ } }, invOk_inv (by decide +kernel), rfl, by decide +kernel⟩,
    ⟨invOk_inv (by decide +kernel), rfl, by decide +kernel, by decide +kernel, by decide +kernel, by decide +kernel⟩,
    fun i => ⟨invOk_inv (by revert i; decide +kernel), by revert i; decide +kernel, by revert i; decide +kernel, by revert i; decide +kernel,
      by revert i; decide +kernel, by revert i; decide +kernel, by revert i; decide +kernel, by revert i; decide +kernel⟩⟩

/-! ### Rigger, timers, clocks, energy -/

/-- Channel 63 with a source and a task, enabled and locked as given, so many firings in the tick. -/
def rigger (en lock task fired : Nat) : State :=
  { put [(⟨Reg.RIGGER_EN 1, 31, 31⟩, en), (⟨Reg.RIGGER_LOCK 1, 31, 31⟩, lock), (Reg.RIGGER_SRC_SRC 63, 0x20), (Reg.RIGGER_TASK_TASK0 63, task)] cpu with
    dev := { cpu.dev with rigger := { ch := if fired = 0 then [] else [(63, { inTick := fired })] } } }

/-- `Rigger`: a source that exists and none, a channel off, on and locked, below and at its limit, in RUN and REST; each kind of task; a task that waits. -/
theorem wit_Rigger :
    ((rigger 1 0 0 0).Inv ∧ (rigger 1 0 0 0).dev.rigger.taken = [] ∧ (rigger 1 0 0 0).srcFires 63 = true ∧ cpu.srcFires 63 = false ∧
      (rigger 1 0 0 0).bit ⟨Reg.RIGGER_EN 1, 31, 31⟩ = true ∧ (rigger 0 0 0 0).bit ⟨Reg.RIGGER_EN 1, 31, 31⟩ = false ∧
      (rigger 1 1 0 0).rigLocked 63 = true ∧ (rigger 1 0 0 0).rigLocked 63 = false ∧ (rigger 1 0 0 0).dev.pwr.state = .run ∧
      ((rigger 1 0 0 0).rig 63).inTick < max 1 ((rigger 1 0 0 0).fld (Reg.RIGGER_SRC_STORM 63))) ∧
    (∀ t ∈ [0, 0x20, 0x27, 0x98, 0x9B, 0x9C, 0xA0, 0xA3], (rigger 1 0 t 0).Inv ∧ (rigger 1 0 t 0).fld (Reg.RIGGER_TASK_TASK0 63) = t ∧
      (rigger 1 0 t 0).fld (Reg.RIGGER_TASK_TASK1 63) = 0 ∧ (rigger 1 0 t 0).fld (Reg.RIGGER_TASK_TASK2 63) = 0 ∧
      (rigger 1 0 t 0).fld (Reg.RIGGER_TASK_TASK3 63) = 0) ∧
    max 1 ((rigger 1 0 0 255).fld (Reg.RIGGER_SRC_STORM 63)) ≤ ((rigger 1 0 0 255).rig 63).inTick ∧
    ∀ b : Bool, ∃ s : State, s.Inv ∧ s.dev.rigger.taken = [] ∧ s.dev.rigger.pend = [(1, 63)] ∧ s.dev.rtc.task = b :=
  ⟨⟨invOk_inv (by decide +kernel), rfl, by decide +kernel, by decide +kernel, by decide +kernel, by decide +kernel, by decide +kernel,
      by decide +kernel, rfl, by decide +kernel⟩,
    fun t ht => ⟨invOk_inv (by revert t; decide +kernel), by revert t; decide +kernel⟩, by decide +kernel,
    fun b => ⟨{ cpu with dev := { cpu.dev with rigger := { pend := [(1, 63)] }, rtc := { task := b } } }, invOk_inv (by revert b; decide +kernel),
      rfl, rfl, rfl⟩⟩

/-- Short timer 7 runs on the bus clock with TOP 4 and its compares above it but for CC3, in a mode, at a count. -/
def stAt (mode down cnt cc3 : Nat) : State :=
  put ([(⟨Reg.STIM_EN, 7, 7⟩, 1), (Reg.STIM_CFG_CLK 7, 0), (Reg.STIM_CFG_GATE 7, 0), (Reg.STIM_CFG_MODE 7, mode), (Reg.STIM_TOP_TOP 7, 4),
      (Reg.STIM_COUNT_COUNT 7, cnt), (Reg.STIM_COUNT_DOWN 7, down), (Reg.STIM_CC_CC 7 3, cc3)]
    ++ (List.range 3).map fun j => (Reg.STIM_CC_CC 7 j, 5)) cpu

/-- A short timer runs with the registers given, as a check. -/
def stOk (s : State) (mode down cnt : Nat) (cc3 : Nat) : Bool :=
  invOk s && s.dev.parity == [] && (s.st 7).held == none && s.stTop 7 == 4 && s.fld (Reg.STIM_COUNT_COUNT 7) == cnt &&
  s.bit ⟨Reg.STIM_EN, 7, 7⟩ && !s.bit (Reg.STIM_CFG_CLK 7) && s.fld (Reg.STIM_CFG_GATE 7) == 0 && s.fld (Reg.STIM_CFG_MODE 7) == mode &&
  s.fld (Reg.STIM_COUNT_DOWN 7) == down && (List.range 3).all (fun j => decide (4 < s.fld (Reg.STIM_CC_CC 7 j))) &&
  s.fld (Reg.STIM_CC_CC 7 3) == cc3 && (s.st 7).armed.testBit 3 && !s.stCap 7 3

/-- Long timer 1 with a count, a compare and a reload. -/
def ltAt (cnt cmp buf : Nat) (armed : Bool) : State :=
  { put [(⟨Reg.LTIM_EN, 1, 1⟩, 1), (Reg.LTIM_COUNT_COUNT 1, cnt), (Reg.LTIM_CMP_CMP 1, cmp), (⟨Reg.LTIM_BUF 1, 31, 0⟩, buf)] cpu with
    dev := { cpu.dev with lt := if armed then [(1, { armed := true })] else [] } }

/-- `Timers`: a short timer on the way up, at a compare, at and below TOP, on the way down and at 1; a long timer on its way, at its compare, at 1 and at 0. -/
theorem wit_Timers :
    (stOk (stAt 0 0 0 5) 0 0 0 5 && stOk (stAt 0 0 2 3) 0 0 2 3 && stOk (stAt 1 0 3 5) 1 0 3 5 && stOk (stAt 0 0 4 5) 0 0 4 5 &&
      stOk (stAt 1 0 4 5) 1 0 4 5 && stOk (stAt 1 1 2 5) 1 1 2 5 && stOk (stAt 1 1 1 5) 1 1 1 5 && !cpu.bit ⟨Reg.STIM_EN, 7, 7⟩) = true ∧
    ((ltAt 2 1 0 true).Inv ∧ (ltAt 2 1 0 true).bit ⟨Reg.LTIM_EN, 1, 1⟩ = true ∧ (ltAt 2 1 0 true).bit (Reg.LTIM_CFG_CHAIN 1) = false ∧
      (ltAt 2 1 0 true).dev.parity = [] ∧ (1 + 2 ^ 32 - (2 - 1)) % 2 ^ 32 < 2 ^ 31) ∧
    ((ltAt 1 0 0 false).Inv ∧ (ltAt 1 0 0 false).fld (Reg.LTIM_COUNT_COUNT 1) = 1) ∧
    (ltAt 0 1 2 false).Inv ∧ ((ltAt 0 1 2 false).reg (Reg.LTIM_BUF 1)).toNat = 2 ∧ ¬ (1 + 2 ^ 32 - 2) % 2 ^ 32 < 2 ^ 31 :=
  ⟨by decide +kernel, ⟨invOk_inv (by decide +kernel), by decide +kernel, by decide +kernel, rfl, by decide +kernel⟩,
    ⟨invOk_inv (by decide +kernel), by decide +kernel⟩, invOk_inv (by decide +kernel), by decide +kernel, by decide +kernel⟩

/-- `ClocksAndCalendar`: an alarm that the next second reaches and none, a load that waits; the crystal and the PLL, running or not. -/
theorem wit_ClocksAndCalendar :
    (cpu.Inv ∧ cpu.bit Reg.RTC_STAT_ARMED = false ∧ cpu.dev.rtc.load = none ∧ cpu.en rtcPage = false ∧ cpu.xoRuns = false ∧
      cpu.bit Reg.PWR_CLKREQ_PLLEN = false ∧ cpu.pllOk = false ∧ cpu.bit Reg.PWR_CLKSTAT_SRC = false ∧ cpu.bit Reg.PWR_CLKSTAT_LFOK = false) ∧
    (∃ s : State, s.Inv ∧ s.bit Reg.RTC_STAT_ARMED = true ∧ s.en rtcPage = true ∧
      (s.reg Reg.RTC_SECONDS + 1 - s.reg Reg.RTC_ALARM).toNat < 2 ^ 31 ∧ ¬ (s.reg Reg.RTC_SECONDS - s.reg Reg.RTC_ALARM).toNat < 2 ^ 31) ∧
    (∃ s : State, s.Inv ∧ s.dev.rtc.load = some (7, true) ∧ s.bit Reg.RTC_STAT_ARMED = false) ∧
    ∃ s : State, s.Inv ∧ s.xoRuns = true ∧ s.xoOk = true ∧ s.bit Reg.PWR_CLKREQ_PLLEN = true ∧ s.pllOk = true ∧
      s.bit Reg.PWR_CLKSTAT_SRC = true ∧ s.dev.staged.length < 4 ∧ s.bit Reg.PWR_CLKSTAT_LFOK = true :=
  ⟨⟨invOk_inv (by decide +kernel), by decide +kernel, rfl, by decide +kernel, by decide +kernel, by decide +kernel, by decide +kernel,
      by decide +kernel, by decide +kernel⟩,
    ⟨put [(Reg.RTC_STAT_ARMED, 1), (⟨Reg.RTC_ALARM, 31, 0⟩, 1), (Reg.CTRL_EN rtcPage, 1)] cpu, invOk_inv (by decide +kernel), by decide +kernel,
      by decide +kernel, by decide +kernel, by decide +kernel⟩,
    ⟨{ cpu with dev := { cpu.dev with rtc := { load := some (7, true) } } }, invOk_inv (by decide +kernel), rfl, by decide +kernel⟩,
    put [(Reg.PWR_CLKSTAT_SRC, 1), (Reg.PWR_CLKSTAT_XOOK, 1), (Reg.PWR_CLKSTAT_PLLLOCK, 1), (Reg.PWR_CLKREQ_PLLEN, 1), (Reg.PWR_CLKSTAT_LFOK, 1)] cpu,
    invOk_inv (by decide +kernel), by decide +kernel, by decide +kernel, by decide +kernel, by decide +kernel, by decide +kernel,
    by decide +kernel, by decide +kernel⟩

/-! ### Power, OTP, the start -/

/-- `Governor`: every state of the governor with VIN good and the door closed; a door's bleed held; a bleed with the door open; the relay free,
not free, pulsing for longer than the limit. -/
theorem wit_Governor :
    (∀ n < 8, ∃ s : State, s.Inv ∧ s.fld Reg.GOV_STAT_STATE = n ∧ s.bit Reg.PWR_PATH_VINOK = true ∧ s.bit Reg.GOV_STAT_DOOR = false ∧
      s.dev.staged.length < 4 ∧ s.dev.gov.byDoor = false ∧ s.bit Reg.PWR_PATH_REGON = true) ∧
    (∃ s : State, s.Inv ∧ s.fld Reg.GOV_STAT_STATE = 5 ∧ s.bit Reg.PWR_PATH_VINOK = false ∧ s.bit Reg.GOV_STAT_DOOR = true ∧ s.dev.gov.byDoor = true) ∧
    (∃ s : State, s.Inv ∧ s.fld Reg.GOV_STAT_STATE = 4 ∧ s.bit Reg.GOV_STAT_DOOR = true ∧ s.dev.gov.byDoor = true) ∧
    (∃ s : State, s.Inv ∧ s.rlyFree = true) ∧ (cpu.Inv ∧ cpu.rlyFree = false ∧ cpu.dev.gov.pulse = none) ∧
    ∃ s : State, s.Inv ∧ s.dev.gov.pulse.isSome = true ∧ s.rlyTmax < s.dev.gov.pulseLen := by
  refine ⟨fun n h => ⟨put [(Reg.GOV_STAT_STATE, n), (Reg.PWR_PATH_VINOK, 1), (Reg.PWR_PATH_REGON, 1), (Reg.GOV_STAT_DOOR, 0)] cpu, invOk_inv ?_, ?_, ?_, ?_, ?_, ?_, ?_⟩,
    ⟨put [(Reg.GOV_STAT_STATE, 5), (Reg.PWR_PATH_VINOK, 0), (Reg.GOV_STAT_DOOR, 1)] { cpu with dev := { cpu.dev with gov := { byDoor := true } } },
      invOk_inv (by decide +kernel), by decide +kernel, by decide +kernel, by decide +kernel, by decide +kernel⟩,
    ⟨put [(Reg.GOV_STAT_STATE, 4), (Reg.GOV_STAT_DOOR, 1)] { cpu with dev := { cpu.dev with gov := { byDoor := true } } },
      invOk_inv (by decide +kernel), by decide +kernel, by decide +kernel, by decide +kernel⟩,
    ⟨put [(⟨Reg.GOV_REC 0, 31, 31⟩, 1), (⟨Reg.GOV_REC 2, 6, 0⟩, 100)] cpu, invOk_inv (by decide +kernel), by decide +kernel⟩,
    ⟨invOk_inv (by decide +kernel), by decide +kernel, rfl⟩,
    { cpu with dev := { cpu.dev with gov := { pulse := some 0, pulseLen := 101 } } }, invOk_inv (by decide +kernel), rfl, by decide +kernel⟩
  all_goals revert n; decide +kernel

/-- The core waits in an entry, the radio asleep. -/
def entering (e : Entry) (easy : Bool) (wake : Nat) : State :=
  { put [(Reg.PWR_WAKEEN_EN, 1)] cpu with
    dev := { cpu.dev with pwr := { entry := e, toEasy := easy, wake := wake } }, core := { cpu.core with run := .lowPower } }

/-- Asleep. -/
def asleep (st : PwrState) : State := { entering .none false 0 with dev := { cpu.dev with pwr := { state := st } } }

/-- `LowPower`: an entry that goes on and one that a source stops, both targets, the two sleeps and a wake from each. -/
theorem wit_LowPower :
    (∀ e ∈ [Entry.stopped, .edge], ∀ easy : Bool, (entering e easy 0).Inv ∧ (entering e easy 0).Quiet ∧ (entering e easy 0).Unwatched ∧
      (entering e easy 0).radio = 0 ∧ (entering e easy 0).dev.time.restore = false ∧ (entering e easy 0).wakeNow 0 = 0 ∧
      (entering e easy 0).wakeNow 1 ≠ 0) ∧
    ∀ st ∈ [PwrState.run, .rest, .easy], (asleep st).Inv ∧ (asleep st).Quiet ∧ (asleep st).Unwatched ∧ (asleep st).radio = 0 ∧
      (asleep st).dev.pwr.state = st ∧ (asleep st).dev.rigger.held = [] ∧ (asleep st).wakeNow 1 ≠ 0 ∧ (asleep st).wakeNow 0 = 0 ∧
      (1 ||| (asleep st).dev.pwr.wake) &&& (asleep st).fld Reg.PWR_WAKEEN_EN &&& 0x3FFD ≠ 0 := by
  refine ⟨fun e he easy => ⟨invOk_inv ?_, quietOk_quiet ?_, unwatchedOk_un ?_, ?_, ?_, ?_, ?_⟩,
    fun st hst => ⟨invOk_inv ?_, quietOk_quiet ?_, unwatchedOk_un ?_, ?_, ?_, ?_, ?_, ?_, ?_⟩⟩
  case' refine_1 | refine_2 | refine_3 | refine_4 | refine_5 | refine_6 | refine_7 => revert easy; revert e
  case' refine_8 | refine_9 | refine_10 | refine_11 | refine_12 | refine_13 | refine_14 | refine_15 | refine_16 => revert st
  all_goals decide +kernel

/-- OTPC_ADDR and OTPC_WD as an operation finds them, the ROM running. -/
def otp (off w0 w1 : Nat) (lc : Nat) (o : Sparse Byte) (ph : Phase) : State :=
  { put [(Reg.OTPC_ADDR_OFFSET, off), (⟨Reg.OTPC_WD 0, 31, 0⟩, w0), (⟨Reg.OTPC_WD 1, 31, 0⟩, w1), (Reg.SYS_LIFECYCLE_LC, lc)] cpu with
    otp := o, dev := { sys := { phase := ph } } }

/-- A generation's VALID bit at an offset. -/
def validAt (l : List Nat) : Sparse Byte := l.map fun a => (a + 3, 0x80)

/-- `OtpOperations`: a busy controller; READ at each range's ends; who may do what; PROGRAM of a free row, a used one, one against the key
order; a record with no generation, one, all four, stricter and not; each lifecycle; the counter's value below, at and above. -/
theorem wit_OtpOperations :
    (∃ s : State, s.Inv ∧ s.bit Reg.OTPC_STAT_BUSY = true) ∧
    (∀ off ∈ [0, 0x1F0, 0x200, 0x2F0, 0x300, 0x3F0, 1], ∃ s : State, s.Inv ∧ s.bit Reg.OTPC_STAT_BUSY = false ∧ s.fld Reg.OTPC_ADDR_OFFSET = off) ∧
    (∀ op ∈ [2, 3, 4, 5, 6], (otp 0 0 0 0 [] .firmware).otpMay (.dma 0) op = false) ∧
    (∀ op ∈ [2, 3, 4, 5], (otp 0 0 0 0 [] .firmware).otpMay .host op = true) ∧ (otp 0 0 0 0 [] .rom).otpMay (.core true) 6 = true ∧
    ((otp 0x1C0 0 0 0 [] .rom).keyOrderBad 0x1C0 = true ∧ (otp 0x280 0 0 0 [] .rom).keyOrderBad 0x280 = false ∧
      (otp 0x280 0 0 0 [] .rom).otpUsed 0x280 = false ∧ (otp 0x30 0 0 0 [(0x30, 1)] .rom).otpUsed 0x30 = true) ∧
    ((otp 0 0 0 0 [] .rom).blankGen govBase = some 0 ∧ (otp 0 0 0 0 [] .rom).newestGen govBase = none ∧
      (otp 0 0 0 0 (validAt [0x40, 0x50, 0x60, 0x70]) .rom).Inv ∧ (otp 0 0 0 0 (validAt [0x40, 0x50, 0x60, 0x70]) .rom).blankGen govBase = none ∧
      (otp 0 0 0 0 (validAt [0x40]) .rom).blankGen govBase = some 1 ∧ (otp 0 0 0 0 (validAt [0x40]) .rom).newestGen govBase ≠ none) ∧
    (bitOf (octet (otp 0 0x80000000 0 0 [] .rom).otpWd 3).toNat 7 = true ∧ bitOf (octet (otp 0 0x7FFFFFFF 0 0 [] .rom).otpWd 3).toNat 7 = false ∧
      govStricter (otp 0 0x80000000 0 0 (validAt [0x40]) .rom).otpWd ((otp 0 0x80000000 0 0 (validAt [0x40]) .rom).newestRow govBase) = true ∧
      govStricter (otp 0 0x8FFF0000 0 0 (validAt [0x40]) .rom).otpWd ((otp 0 0x80000000 0 0 (validAt [0x40]) .rom).newestRow govBase) = false ∧
      regStricter (otp 0 0x80000000 0 0 (validAt [0x80]) .rom).otpWd ((otp 0 0x80000000 0 0 (validAt [0x80]) .rom).newestRow (regBase 0)) = true ∧
      regStricter (otp 0 0x80000000 1 0 (validAt [0x80]) .rom).otpWd ((otp 0 0x80000000 0 0 (validAt [0x80]) .rom).newestRow (regBase 0)) = false) ∧
    ((otp 0 0 0 0 [] .rom).lifecycle = 0 ∧ (otp 0 0 0 0 [(0x10, 3)] .rom).lifecycle = 2 ∧ (otp 0 0 0 0 [(0x10, 7)] .rom).lifecycle = 3) ∧
    ((otp 0 0 0 0 [(0x20, 1)] .rom).Inv ∧ ((otp 0 0 0 0 [(0x20, 1)] .rom).reg (Reg.OTPC_WD 0)).toNat % 64 < (otp 0 0 0 0 [(0x20, 1)] .rom).arb ∧
      ((otp 0 1 0 0 [(0x20, 1)] .rom).reg (Reg.OTPC_WD 0)).toNat % 64 = (otp 0 1 0 0 [(0x20, 1)] .rom).arb) ∧
    ∃ s : State, s.Inv ∧ s.dev.otpc = some { status := 0, rd := List.replicate 16 0, row := 0x40, gen := 3, data := [1] } := by
  refine ⟨⟨put [(Reg.OTPC_STAT_BUSY, 1)] cpu, invOk_inv (by decide +kernel), by decide +kernel⟩,
    fun off h => ⟨otp off 0 0 0 [] .rom, invOk_inv ?_, ?_, ?_⟩,
    by decide +kernel, by decide +kernel, by decide +kernel, ⟨by decide +kernel, by decide +kernel, by decide +kernel, by decide +kernel⟩,
    ⟨by decide +kernel, by decide +kernel, invOk_inv (by decide +kernel), by decide +kernel, by decide +kernel, by decide +kernel⟩,
    ⟨by decide +kernel, by decide +kernel, by decide +kernel, by decide +kernel, by decide +kernel, by decide +kernel⟩,
    ⟨by decide +kernel, by decide +kernel, by decide +kernel⟩, ⟨invOk_inv (by decide +kernel), by decide +kernel, by decide +kernel⟩,
    { cpu with dev := { cpu.dev with otpc := some { status := 0, rd := List.replicate 16 0, row := 0x40, gen := 3, data := [1] } } },
    invOk_inv (by decide +kernel), rfl⟩
  all_goals revert off; decide +kernel

/-- The ROM before its start sequence, in a lifecycle. -/
def romAt (lc : Nat) : State := put [(Reg.SYS_LIFECYCLE_LC, lc)] State.reset

/-- A device's octets of external flash from 0x30000000. -/
def ext (a : Nat) (l : List Byte) (s : State) : State := store (l.mapIdx fun i b => (0x30000000 + a + i, b.toNat)) s

/-- An empty crew sheet with SEQ 1 and its CMAC under a key of zeros. -/
def crew : List Byte :=
  [0x43, 0x52, 0x45, 0x57, 1, 0, 64, 0, 1, 0, 0, 0] ++ List.replicate 8 0 ++ [0x44, 0x71, 0, 0, 80, 0, 0, 0] ++ List.replicate 36 0 ++
  [0x9C, 0xEB, 0x41, 0x8D, 0x4A, 0x09, 0x9E, 0xCF, 0x9F, 0xB6, 0xE3, 0x4A, 0x53, 0x69, 0x87, 0x15]

/-- The ROM with that sheet in slot 0, its key in sealed slot 2, the token and the AO mark as a wake finds them. -/
def romCrew : State :=
  { ext 0 crew (romAt 1) with
    dev := { State.reset.dev with keys := [(2, { valid := true, mask := 6, usage := 4, size := 1, key := List.replicate 32 0 })]
                                  pwr := { State.reset.dev.pwr with token := true }
                                  sys := { State.reset.dev.sys with aoMark := some (0, 1) } } }

/-- `StartSequence`: a clean start in each lifecycle, fails enough for Dead, a commit pending, a sheet that is used, the core alone reset; a start that
waits for VSYS. -/
theorem wit_StartSequence :
    (∀ lc < 4, (romAt lc).Inv ∧ (romAt lc).dev.sys.phase = .rom ∧ (romAt lc).dev.sys.coreOnly = false ∧ (romAt lc).lc = lc) ∧
    (romAt 1).jActive = none ∧ jLoad.run (romAt 1) = romAt 1 ∧ (romAt 1).tornUnits = [] ∧ (romAt 1).earlierDead = none ∧ (romAt 1).dev.sys.fails < 3 ∧
    (romAt 1).dev.staged = [] ∧ (romAt 1).fld Reg.LOGB_STAT_DROPPED = 0 ∧ (romAt 1).commitPending = false ∧
    (romAt 1).crewHeaderOk ((romAt 1).sheet 0 64) = false ∧ (romAt 1).crewHeaderOk ((romAt 1).sheet 1 64) = false ∧
    ({ romAt 1 with dev := { State.reset.dev with sys := { fails := 3 } } } : State).bootWrites 0 = true ∧
    (ext 0x100080 ([0x43, 0x4D, 0x49, 0x54] ++ List.replicate 12 0xFF) (romAt 1)).commitPending = true ∧
    (romCrew.Inv ∧ romCrew.sheetOrder.head? = some 0 ∧ romCrew.sheetStatus 0 = 0 ∧ romCrew.dev.pwr.token = true ∧
      romCrew.dev.sys.aoMark = some (0, crewSeq (romCrew.sheet 0 64)) ∧
      ∀ r ∈ crewRecords (romCrew.sheet 0 (crewLen (romCrew.sheet 0 64))) ((crewLen (romCrew.sheet 0 64) - 80) / 8), inAo r.1 = true) ∧
    ∀ token : Bool, ∃ s : State, s.Inv ∧ s.dev.sys.phase = .rom ∧ s.dev.sys.coreOnly = true ∧ s.dev.pwr.token = token ∧ s.bootCheck = false :=
  ⟨fun lc h => ⟨invOk_inv (by revert lc; decide +kernel), by revert lc; decide +kernel, by revert lc; decide +kernel, by revert lc; decide +kernel⟩,
    by decide +kernel, by decide +kernel, by decide +kernel, by decide +kernel, by decide +kernel, rfl, by decide +kernel, by decide +kernel, by decide +kernel, by decide +kernel,
    by decide +kernel, by decide +kernel,
    ⟨invOk_inv (by decide +kernel), by decide +kernel, by decide +kernel, rfl, by decide +kernel, by decide +kernel⟩,
    fun token => ⟨{ State.reset with dev := { State.reset.dev with sys := { coreOnly := true }, pwr := { State.reset.dev.pwr with token := token } } },
      invOk_inv (by revert token; decide +kernel), rfl, rfl, rfl, by revert token; decide +kernel⟩⟩

/-! ### The host port -/

/-- `Hears`, as a check. -/
def hearsOk (s : State) (tr : Tr) : Bool := invOk s && s.trOn (trNum tr) && s.portAwake && decide (s.dev.sys.phase ≠ .dead)

theorem hearsOk_hears {s : State} {tr : Tr} (h : hearsOk s tr = true) : s.Hears tr := by
  simp only [hearsOk, Bool.and_eq_true, decide_eq_true_eq] at h
  exact ⟨invOk_inv h.1.1.1, h.1.1.2, h.1.2, h.2⟩

/-- `Takes`, as a check. -/
def takesOk (s : State) (tr : Tr) (code : Nat) : Bool :=
  hearsOk s tr && !s.starting && decide ((s.port (trNum tr)).out = none) && lcOk code s.lc (trNum tr == 2)

theorem takesOk_takes {s : State} {tr : Tr} {code : Nat} (h : takesOk s tr code = true) : s.Takes tr code := by
  simp only [takesOk, Bool.and_eq_true, decide_eq_true_eq, Bool.not_eq_true'] at h
  exact ⟨hearsOk_hears h.1.1.1, h.1.1.2, h.1.2, h.2⟩

/-- The three transports enabled, in a lifecycle, firmware running. -/
def node (lc : Nat) : State :=
  put [(Reg.HOSTP_CFG_SPIEN, 1), (Reg.HOSTP_CFG_UARTEN, 1), (Reg.HOSTP_CFG_MESHEN, 1), (Reg.SYS_LIFECYCLE_LC, lc), (Reg.HOSTP_APPCTL_EN, 1)] cpu

/-- The port with some of its state. -/
def nodeP (h : Hostp) : State := { node 1 with dev := { cpu.dev with hostp := h } }

/-- A key to unwrap under in slot 0, and an operation on page 1. -/
def nodeK (j : Option CiphJob) : State :=
  { node 1 with dev := { cpu.dev with keys := [(0, { valid := true, mask := 4, usage := 4, size := 1, key := List.replicate 32 0 })], ciph := [(1, { job := j })] } }

/-- Each transport. -/
def trs : List Tr := [.spi, .uart, .mesh [] 0]

/-- `HostReports`: the port off, asleep, Dead, starting, with a command outstanding, a payload of a wrong size, a lifecycle that does not allow it; and
each command taken, its payloads at the ends of their ranges; the governor bleeding; slot 0 empty and not. -/
theorem wit_HostReports :
    ((∃ s : State, s.Inv ∧ s.trOn 0 = false) ∧ (∃ s : State, s.Inv ∧ s.trOn 0 = true ∧ s.portAwake = false)) ∧
    (∃ s : State, s.Inv ∧ s.trOn 0 = true ∧ s.portAwake = true ∧ s.dev.sys.phase = .dead) ∧
    (∃ s : State, s.Inv ∧ s.trOn 0 = true ∧ s.portAwake = true ∧ s.dev.sys.phase = .firmware ∧ (s.port 0).out = some (0x10, 7)) ∧
    (∃ s : State, s.Inv ∧ s.trOn 0 = true ∧ s.portAwake = true ∧ s.dev.sys.phase = .rom ∧ (s.port 0).out = none ∧ s.starting = true) ∧
    (∀ tr ∈ trs, (node 1).Takes tr 0x50) ∧ sizeOk 0x50 4 false = false ∧ sizeOk 0x10 6 true = true ∧ lcOk 0x10 1 true = false ∧
    (∀ tr ∈ trs, ∀ code ∈ [0x50, 0x51, 0x58, 0x60, 0x61], (node 1).Takes tr code) ∧ (∀ tr ∈ trs.take 2, (node 1).Takes tr 0x59) ∧
    (∀ n ∈ [0, 1, 63, 64], ∃ p : List Byte, p.length = 5 ∧ numAt p 4 1 = n) ∧ (∀ n ∈ [0, 1, 2], ∃ p : List Byte, p.length = 1 ∧ numAt p 0 1 = n) ∧
    (∀ n < 4, ∃ p : List Byte, p.length = 11 ∧ numAt p 0 1 % 4 = n) ∧
    ((node 1).dev.tx.jobs = [] ∧ (node 1).bit Reg.NTIME_STAT_CMPARMED = false) ∧
    ((nodeK none).Takes .spi 0x60 ∧ ((nodeK none).ciph 1).job = none) ∧
    (∃ j, (nodeK (some j)).Takes .spi 0x60 ∧ ((nodeK (some j)).ciph 1).job ≠ none) ∧
    ((node 1).unwrapBlob (List.replicate 56 0) = .error 0x22 ∧ ((node 1).ciph 1).job = none) ∧
    ∀ n ∈ [3, 4, 7], ∃ s : State, s.Takes .uart 0x61 ∧ s.fld Reg.GOV_STAT_STATE = n := by
  refine ⟨⟨⟨put [(Reg.HOSTP_CFG_SPIEN, 0)] cpu, invOk_inv (by decide +kernel), by decide +kernel⟩, { node 1 with dev := { cpu.dev with pwr := { state := .rest } } }, invOk_inv (by decide +kernel), by decide +kernel, rfl⟩,
    ⟨{ node 1 with dev := { sys := { phase := .dead } } }, invOk_inv (by decide +kernel), by decide +kernel, rfl, rfl⟩,
    ⟨nodeP { spi := { out := some (0x10, 7) } }, invOk_inv (by decide +kernel), by decide +kernel, rfl, rfl, rfl⟩,
    ⟨{ node 1 with dev := { sys := { phase := .rom } } }, invOk_inv (by decide +kernel), by decide +kernel, rfl, rfl, rfl, rfl⟩,
    fun tr h => takesOk_takes ?_, by decide, by decide, by decide, fun tr h code hc => takesOk_takes ?_, fun tr h => takesOk_takes ?_,
    fun n h => ⟨[0, 0, 0, 0, BitVec.ofNat 8 n], rfl, ?_⟩, fun n h => ⟨[BitVec.ofNat 8 n], rfl, ?_⟩,
    fun n h => ⟨BitVec.ofNat 8 n :: List.replicate 10 0, rfl, ?_⟩, ⟨rfl, by decide +kernel⟩, ⟨takesOk_takes (by decide +kernel), rfl⟩,
    ⟨{ status := 0 }, takesOk_takes (by decide +kernel), by decide +kernel⟩, ⟨rfl, rfl⟩,
    fun n h => ⟨put [(Reg.GOV_STAT_STATE, n)] (node 1), takesOk_takes ?_, ?_⟩⟩
  case refine_1 | refine_3 => revert tr; decide +kernel
  case refine_2 => revert code; revert tr; decide +kernel
  all_goals revert n; decide +kernel

/-- A descriptor of one cell and three octets in cell 5, which is the host's. -/
def rxDesc : List Byte := leBytes 4 (5 * 2048 + 3) ++ List.replicate 12 0

/-- `HostData`: READ_MEM and WRITE_MEM at the ends of SRAM and outside; frames of no octets too many, with room and without; the rings empty and
not; APP off, waiting, and at its largest; an answer of one cell; the time limit. -/
theorem wit_HostData :
    ((node 1).Takes .spi 0x10 ∧ (node 1).Takes .spi 0x11 ∧ (node 2).Takes .uart 0x10 ∧ (node 1).lc ≠ 2 ∧ (node 2).lc = 2) ∧
    (∃ p : List Byte, p.length = 6 ∧ numAt p 0 4 = 0x2007F004 ∧ numAt p 4 2 = 4092 ∧ numAt p 0 4 + numAt p 4 2 = 0x20080000) ∧
    (∃ p : List Byte, p.length = 6 ∧ numAt p 0 4 = 0x20000000 ∧ numAt p 4 2 = 1) ∧
    (∃ p : List Byte, p.length = 6 ∧ numAt p 4 2 = 4093) ∧ (node 1).readable .host 0x50000000 1 = false ∧ (node 1).writable .host 0x50000000 1 = false ∧
    ((node 1).dev.eccBad = [] ∧ (node 1).dev.eccOne = []) ∧
    (∃ p : List Byte, p.length = 5 ∧ numAt p 0 4 = 0x2007FFFF ∧ numAt p 0 4 + (p.length - 4) = 0x20080000) ∧
    ((node 1).Takes .spi 0x20 ∧ (node 1).hostSlots < 16 ∧ (node 1).canAlloc poolHost 1 = true ∧ 1 ≤ (node 1).freeCells.length ∧
      (List.replicate 17 (0 : Byte)).length = 17 ∧ ((List.replicate 2064 (0 : Byte)).drop 16).length = 2048) ∧
    (∃ s : State, s.Takes .spi 0x20 ∧ s.hostSlots = 16) ∧
    (∃ s : State, s.Takes .spi 0x20 ∧ s.hostSlots < 16 ∧ s.canAlloc poolHost 1 = false) ∧
    ((node 1).Takes .spi 0x21 ∧ (node 1).dev.hostp.rx = [] ∧ ∃ s : State, s.Takes .spi 0x21 ∧ s.dev.hostp.rx = [rxDesc]) ∧
    ((node 1).Takes .spi 0x30 ∧ (node 1).bit Reg.HOSTP_APPCTL_EN = true ∧ (node 1).dev.hostp.app = none ∧ (node 1).canAlloc poolHost 16 = true ∧
      16 ≤ (node 1).freeCells.length ∧ max 1 ((4092 + 255) / 256) = 16 ∧ max 1 ((0 + 255) / 256) = 1) ∧
    (∃ s : State, s.Takes .spi 0x30 ∧ s.bit Reg.HOSTP_APPCTL_EN = false) ∧ (∃ s : State, s.Takes .spi 0x30 ∧ s.dev.hostp.app ≠ none) ∧
    ((node 1).Inv ∧ (node 1).bit Reg.HOSTP_APPIN_VALID = false) ∧
    ∃ (s : State) (w : Tr × Nat) (v : Word), s.Inv ∧ s.dev.hostp.app = some w ∧ w.1 = .spi ∧ (s.port 0).reply = none ∧ s.bit Reg.HOSTP_APPIN_VALID = true ∧
      bitsGet v 12 0 = 1 ∧ ((s.chainFrom 16 (bitsGet v 26 18)).take (bitsGet v 30 27 + 1)) = [5] ∧ (s.cell 5).owner = ownCore := by
  refine ⟨⟨takesOk_takes (by decide +kernel), takesOk_takes (by decide +kernel), takesOk_takes (by decide +kernel), by decide +kernel, by decide +kernel⟩,
    ⟨leBytes 4 0x2007F004 ++ leBytes 2 4092, by decide +kernel, by decide +kernel, by decide +kernel, by decide +kernel⟩,
    ⟨leBytes 4 0x20000000 ++ leBytes 2 1, by decide +kernel, by decide +kernel, by decide +kernel⟩, ⟨leBytes 4 0 ++ leBytes 2 4093, by decide +kernel, by decide +kernel⟩,
    by decide +kernel, by decide +kernel, ⟨rfl, rfl⟩, ⟨leBytes 4 0x2007FFFF ++ [1], by decide +kernel, by decide +kernel, by decide +kernel⟩,
    ⟨takesOk_takes (by decide +kernel), by decide +kernel, by decide +kernel, by decide +kernel, by rw [List.length_replicate],
      by rw [List.length_drop, List.length_replicate]⟩,
    ⟨nodeP { tx := List.replicate 16 rxDesc }, takesOk_takes (by decide +kernel), by decide +kernel⟩,
    ⟨{ put [(Reg.FBUF_SHMAX_HOST, 0)] (node 1) with
        dev := { cpu.dev with cells := (List.range 32).map fun c => (c, { owner := ownHost, pool := 2, last := true }) } }, takesOk_takes (by decide +kernel), by decide +kernel, by decide +kernel⟩,
    ⟨takesOk_takes (by decide +kernel), rfl, nodeP { rx := [rxDesc] }, takesOk_takes (by decide +kernel), rfl⟩,
    ⟨takesOk_takes (by decide +kernel), by decide +kernel, rfl, by decide +kernel, by decide +kernel, by decide, by decide⟩,
    ⟨put [(Reg.HOSTP_APPCTL_EN, 0)] (node 1), takesOk_takes (by decide +kernel), by decide +kernel⟩,
    ⟨nodeP { app := some (.spi, 1) }, takesOk_takes (by decide +kernel), by decide +kernel⟩,
    ⟨invOk_inv (by decide +kernel), by decide +kernel⟩,
    { put [(Reg.HOSTP_APPIN_VALID, 1)] (node 1) with
      dev := { cpu.dev with hostp := { app := some (.spi, 1) }, cells := [(5, { owner := ownCore, pool := 2, last := true })] } },
    (.spi, 1), BitVec.ofNat 32 (5 * 2 ^ 18 + 1), invOk_inv (by decide +kernel), rfl, rfl, rfl, by decide +kernel, by decide +kernel, by decide +kernel, by decide +kernel⟩

/-- A release header: SVN 1, a payload of 40,976 octets; and its CMAC under a key of zeros. -/
def bundle : List Byte :=
  [0x51, 0x52, 0x42, 0x4C, 1, 0, 128, 0, 0x44, 0x71, 0, 0, 0, 0, 0, 1] ++ [0x10, 0xA0, 0, 0, 0, 0, 0, 0, 16, 0, 0, 0, 16, 0, 0, 0] ++
  [0, 0x80, 0, 0, 0, 0, 0, 0, 0x10, 0x80, 0, 0, 0, 0x20, 0, 0] ++ List.replicate 16 0 ++ List.replicate 8 0xFF ++ List.replicate 24 0 ++
  [0x6D, 0x60, 0x89, 0xEB, 0xEE, 0xB6, 0x8F, 0xB3, 0x0B, 0xFF, 0x5A, 0x00, 0x31, 0x55, 0x9D, 0xCE] ++ List.replicate 16 0

/-- The engine in a state, owned by a transport, with its keys and OTP. -/
def engine (e : Nat) (u : Upd) (o : Sparse Byte) : State :=
  { put [(Reg.HOSTP_STAT_ENGINE, e)] (node 1) with
    otp := o
    dev := { cpu.dev with hostp := { upd := u }
                          keys := [(1, { valid := true, mask := 6, usage := 4, size := 1, key := List.replicate 32 0 }),
                                   (2, { valid := true, mask := 6, usage := 4, size := 1, key := List.replicate 32 0 })] } }

/-- `UpdateEngine`: another transport's work; a header that fails, one that does not verify, one below the counter, one that passes; blocks and
sheets' blocks at their ends and behind; an image spoilt, a commit, a sheet with an old SEQ and one with a new; each command in a wrong state. -/
theorem wit_UpdateEngine :
    (∀ code ∈ [0x40, 0x41, 0x42, 0x43, 0x48, 0x49, 0x4A], ∀ e < 4, (engine e {} []).Takes .spi code ∧ (engine e {} []).fld Reg.HOSTP_STAT_ENGINE = e ∧
      (engine e { owner := 1 } []).Takes .spi code ∧ (engine e { owner := 1 } []).dev.hostp.upd.owner ≠ trNum .spi) ∧
    (bundle.length = 128 ∧ (engine 0 {} []).bundleOk (List.replicate 128 0) = false ∧ (engine 0 {} []).bundleOk bundle = true ∧
      (node 1).hdrCmacOk 1 bundle = false ∧ (node 1).bundleOk bundle = true ∧ (engine 0 {} []).hdrCmacOk 1 bundle = true ∧ bundleSvn bundle = 1 ∧ (engine 0 {} []).arb = 0 ∧
      (engine 0 {} [(0x20, 1)]).arb = 1 ∧ (engine 0 {} [(0x20, 3)]).arb = 2 ∧ (engine 0 {} [(0x20, 3)]).bundleOk bundle = true ∧ bundleLen bundle = 40976) ∧
    (∃ p : List Byte, p.length = 5 ∧ numAt p 0 4 + (p.drop 4).length = 40976 ∧ sizeOk 0x41 p.length false = true) ∧
    (∃ p : List Byte, p.length = 5 ∧ numAt p 0 4 + (p.drop 4).length = 40977) ∧ (engine 1 { hdr := bundle } []).byte 0x3011A00F = 0xFF ∧
    (∃ s : State, s.Takes .spi 0x42 ∧ s.fld Reg.HOSTP_STAT_ENGINE = 1 ∧ s.dev.hostp.upd.spoilt = true) ∧
    ((∀ i < 16, (engine 2 {} []).byte (0x30100080 + i) = 0xFF) ∧ (engine 2 {} []).dev.hostp.reset = none) ∧
    ((node 1).crewHeaderOk (crew.take 64) = true ∧ ((node 1).reg Reg.SYS_CREWSEQ).toNat < crewSeq (crew.take 64) ∧
      (∃ s : State, s.Takes .spi 0x48 ∧ s.crewHeaderOk (crew.take 64) = true ∧ crewSeq (crew.take 64) ≤ (s.reg Reg.SYS_CREWSEQ).toNat)) ∧
    (∃ p : List Byte, p.length = 5 ∧ numAt p 0 4 = 64 ∧ crewLen crew = 80 ∧ (engine 3 { hdr := crew.take 64 } []).byte (0x30000000 + 64) = 0xFF) ∧
    (∃ p : List Byte, p.length = 5 ∧ numAt p 0 4 = 63) ∧ ∃ p : List Byte, p.length = 5 ∧ numAt p 0 4 = 80 := by
  refine ⟨fun code h e he => ⟨takesOk_takes ?_, ?_, takesOk_takes ?_, Nat.one_ne_zero⟩,
    ⟨by decide +kernel, by decide +kernel, by decide +kernel, by decide +kernel, by decide +kernel, by decide +kernel, by decide +kernel, by decide +kernel, by decide +kernel,
      by decide +kernel, by decide +kernel, by decide +kernel⟩,
    ⟨leBytes 4 40975 ++ [1], by decide +kernel, by decide +kernel, by decide +kernel⟩, ⟨leBytes 4 40976 ++ [1], by decide +kernel, by decide +kernel⟩, by decide +kernel,
    ⟨engine 1 { spoilt := true } [], takesOk_takes (by decide +kernel), by decide +kernel, rfl⟩, ⟨by decide +kernel, rfl⟩,
    ⟨by decide +kernel, by decide +kernel, put [(⟨Reg.SYS_CREWSEQ, 31, 0⟩, 1)] (node 1), takesOk_takes (by decide +kernel), by decide +kernel, by decide +kernel⟩,
    ⟨leBytes 4 64 ++ [1], by decide +kernel, by decide +kernel, by decide +kernel, by decide +kernel⟩, ⟨leBytes 4 63 ++ [1], by decide +kernel, by decide +kernel⟩,
    leBytes 4 80 ++ [1], by decide +kernel, by decide +kernel⟩
  case refine_2 => revert e; decide +kernel
  all_goals revert e; revert code; decide +kernel

/-- Synchronised, NTIME at 100. -/
def synced : State :=
  { put [(Reg.NTIME_STAT_SYNC, 1)] (node 1) with dev := { cpu.dev with time := { ntime := 100 } } }

/-- `HostResets`: no instant, one ahead, one passed and one without synchronisation; nothing waiting, and each scope waiting for its delay or its
instant. -/
theorem wit_HostResets :
    ((node 1).Takes .spi 2 ∧ (node 1).dev.hostp.reset = none ∧ (node 1).dev.tx.jobs = [] ∧ (node 1).onAir = none ∧ (node 1).bit Reg.NTIME_STAT_SYNC = false) ∧
    (synced.Takes .uart 2 ∧ synced.bit Reg.NTIME_STAT_SYNC = true ∧ 0 < ntDelta 101 synced.dev.time.ntime ∧ ntDelta 100 synced.dev.time.ntime ≤ 0 ∧
      synced.dev.tx.jobs = [] ∧ synced.onAir = none) ∧
    ∀ n ∈ [1, 2, 3], ∃ s : State, s.Inv ∧ s.onAir = none ∧ s.dev.tx.jobs = [] ∧ s.dev.hostp.reset = some { scope := n, src := 1 } ∧
      s.dev.hostp.timed = some { scope := n, src := 2, instant := some 5 } :=
  ⟨⟨takesOk_takes (by decide +kernel), rfl, rfl, rfl, by decide +kernel⟩, ⟨takesOk_takes (by decide +kernel), by decide +kernel, by decide +kernel, by decide +kernel, rfl, rfl⟩,
    fun n _ => ⟨nodeP { reset := some { scope := n, src := 1 }, timed := some { scope := n, src := 2, instant := some 5 } }, invOk_inv (show invOk (node 1) = true from by decide +kernel), rfl, rfl, rfl,
      rfl⟩⟩

/-- The node with some of its state. -/
def nodeD (d : Dev) : State := { node 1 with dev := { d with sys := cpu.dev.sys } }

/-- A PROGRAM between its two units, with the core where it goes on, or in a handler. -/
def halfway (c : Bool) : Prog :=
  { dst := 0x01004000, src := 0x20000000, total := 2, done := 1, was := 2, pc := if c then 0x20000000 else 0x44, back := (0x20000004, 0x801), keep := (0, 0) }

/-- `HostAborts`: nothing waiting to be sent, frames that wait; a lane with a frame and without; a relay; frames awaiting their check; an idle
page and one at work; a channel on and off; PROGRAM and ERASE in progress and not; a core with an erase of its own; an update. -/
theorem wit_HostAborts :
    (∀ tr ∈ trs, (node 1).Hears tr) ∧ ((node 1).dev.tx.jobs = [] ∧ (node 1).onAir = none ∧ (node 1).dev.hostp.app = none) ∧
    (∃ s : State, s.Hears .uart ∧ s.dev.tx.jobs ≠ [] ∧ s.onAir = none ∧ (∃ j ∈ s.dev.tx.jobs, j.kind = .relay ∧ j.stage = .reserved) ∧
      ∀ j ∈ s.dev.tx.jobs, j.kind ∈ [TxKind.ring, .host, .ack, .relay, .beacon, .mgmt]) ∧
    (∃ s : State, s.Hears .spi ∧ s.holds 3 = true ∧ s.bit ⟨Reg.LANES_ENABLE, 3, 3⟩ = true) ∧
    ((∀ k < 4, (∀ f ∈ ((node 1).lane k).mics, f.keyErr ≠ 0) ∧ ∀ f, ((node 1).lane k).frame = some f → f.latched = false) ∧
      ∃ s : State, s.Hears .spi ∧ s.dev.tx.jobs = [] ∧ ∃ k, k < 4 ∧ ∃ f ∈ (s.lane k).mics, f.keyErr = 0) ∧
    (∀ n : Fin 8, ((node 1).ciph n.val).job = none) ∧
    (∀ n : Fin 8, ∃ (s : State) (j : CiphJob), s.Hears .spi ∧ (s.ciph n.val).job = some j) ∧
    (∀ n : Fin 8, (node 1).dmaOn n.val = false ∧ ∃ s : State, s.Hears .spi ∧ s.dmaOn n.val = true) ∧
    (∀ c : Bool, ∃ (s : State) (p : Prog), s.Hears .spi ∧ s.fld Reg.FLASHC_STAT_STATE = 3 ∧ s.dev.flash.prog = some p ∧ p.ended = false ∧ p.was < 4 ∧
      (s.core.pc = p.pc ↔ c = true)) ∧
    ((node 1).fld Reg.FLASHC_STAT_STATE ≠ 3 ∧ (node 1).eraseState ∉ [1, 2]) ∧
    (∀ st ∈ [1, 2], ∃ s : State, s.Hears .spi ∧ s.dev.hostp.app = none ∧ s.eraseState = st) ∧
    ∃ s : State, s.Hears .spi ∧ s.bit Reg.XSPI_STAT_BUSY = true ∧ s.fld Reg.HOSTP_STAT_ENGINE ≠ 0 := by
  refine ⟨fun tr h => hearsOk_hears ?_, ⟨rfl, rfl, rfl⟩,
    ⟨nodeD { tx := { jobs := [{ id := 1, kind := .relay, stage := .reserved }] } }, hearsOk_hears (by decide +kernel), by decide +kernel, rfl, by decide +kernel, by decide +kernel⟩,
    ⟨put [(⟨Reg.LANES_ENABLE, 3, 3⟩, 1), (laneStateFld 3, 3)] (nodeD { lanes := [(3, { frame := some {} })] }), hearsOk_hears (by decide +kernel), by decide +kernel, by decide +kernel⟩,
    ⟨fun k _ => ⟨fun f hf => (nomatch hf), fun f hf => (nomatch hf)⟩, nodeD { lanes := [(3, { mics := [{}] })] }, hearsOk_hears (by decide +kernel), rfl, 3, by decide, {}, by decide +kernel, rfl⟩,
    fun n => rfl, fun n => ⟨nodeD { ciph := [(n.val, { job := some { status := 0 } })] }, { status := 0 }, hearsOk_hears ?_, ?_⟩,
    fun n => ⟨?_, put [(⟨Reg.DMA_EN, n.val, n.val⟩, 1)] (node 1), hearsOk_hears ?_, ?_⟩,
    fun c => ⟨put [(Reg.FLASHC_STAT_STATE, 3)] (nodeD { flash := { prog := some (halfway c) } }),
      _, hearsOk_hears ?_, ?_, rfl, rfl, show 2 < 4 from by decide, ?_⟩,
    ⟨by decide +kernel, by decide +kernel⟩, fun st h => ⟨put [(Reg.FLASHC_STAT_STATE, st)] (node 1), hearsOk_hears ?_, rfl, ?_⟩,
    put [(Reg.XSPI_STAT_BUSY, 1), (Reg.HOSTP_STAT_ENGINE, 3)] (node 1), hearsOk_hears (by decide +kernel), by decide +kernel, by decide +kernel⟩
  case refine_1 => revert tr; decide +kernel
  case refine_2 | refine_3 | refine_4 | refine_5 | refine_6 => revert n; decide +kernel
  case refine_7 | refine_8 | refine_9 => revert c; decide +kernel
  all_goals revert st; decide +kernel

/-- `HostTransports`: a transport on and off; the port awake and not; frames of each kind waiting; a poll in EASY, in REST, live; WRITE's payload short,
too long, with a wrong CRC; an OP below and above the last. -/
theorem wit_HostTransports :
    (∀ tr ∈ trs, (node 1).trOn (trNum tr) = true ∧ (node 1).portAwake = true) ∧
    (∃ s : State, s.Inv ∧ s.trOn 0 = false ∧ s.bit Reg.HOSTP_CFG_UARTEN = false) ∧
    (∃ s : State, s.Inv ∧ (s.port 1).aborts ≠ [] ∧ (s.port 0).aborts ≠ []) ∧
    (∃ (s : State) (r : Reply), s.Inv ∧ (s.port 1).aborts = [] ∧ (s.port 1).reply = some r ∧ r.reset = false ∧ s.waiting 1 ≠ []) ∧
    (∃ s : State, s.Inv ∧ (s.port 0).aborts = [] ∧ (s.port 0).reply = none ∧ (s.port 0).refusal ≠ none ∧ s.waiting 0 ≠ []) ∧
    (∃ s : State, s.Inv ∧ s.waiting 0 ≠ [] ∧ s.fld Reg.HOSTP_CFG_NOTE = 1 ∧ (s.port 0).aborts = [] ∧ (s.port 0).reply = none ∧ (s.port 0).refusal = none) ∧
    (∀ st ∈ [PwrState.easy, .rest, .run], ∃ s : State, s.Inv ∧ s.dev.pwr.state = st ∧ s.bit Reg.HOSTP_CFG_SPIEN = true ∧ s.dev.rigger.held = [] ∧ s.waiting 0 = []) ∧
    (∃ l : List Byte, l.length = 3) ∧ (∃ l : List Byte, numAt l 2 2 = 4097) ∧
    (∃ l : List Byte, numAt l 2 2 ≤ 4096 ∧ 6 + numAt l 2 2 = l.length ∧ numAt l (4 + numAt l 2 2) 2 ≠ crc16 0xFFFF (l.take (4 + numAt l 2 2))) ∧
    (2 : Byte).toNat ≤ 2 ∧ 2 < (3 : Byte).toNat := by
  refine ⟨fun tr h => ⟨?_, rfl⟩, ⟨put [(Reg.HOSTP_CFG_SPIEN, 0), (Reg.HOSTP_CFG_UARTEN, 0)] (node 1), invOk_inv (by decide +kernel), by decide +kernel, by decide +kernel⟩,
    ⟨nodeP { uart := { aborts := [[]] }, spi := { aborts := [[]] } }, invOk_inv (by decide +kernel), by decide +kernel, by decide +kernel⟩,
    ⟨nodeP { uart := { reply := some { frame := [1] } } }, { frame := [1] }, invOk_inv (by decide +kernel), rfl, rfl, rfl, by decide +kernel⟩,
    ⟨nodeP { spi := { refusal := some [1] } }, invOk_inv (by decide +kernel), rfl, rfl, by decide +kernel, by decide +kernel⟩,
    ⟨put [(Reg.HOSTP_CFG_NOTE, 1)] (nodeP { rxNote := true }), invOk_inv (by decide +kernel), by decide +kernel, by decide +kernel, rfl, rfl, rfl⟩,
    fun st h => ⟨{ node 1 with dev := { cpu.dev with pwr := { state := st } } }, invOk_inv ?_, rfl, ?_, rfl, ?_⟩,
    ⟨[0, 0, 0], rfl⟩, ⟨[0, 0, 1, 16], by decide +kernel⟩, ⟨List.replicate 6 0, by decide +kernel, by decide +kernel, by decide +kernel⟩, by decide, by decide⟩
  case refine_1 => revert tr; decide +kernel
  all_goals revert st; decide +kernel

/-! ### Statistics, the logbook, the monitor, the interfaces -/

/-- A record with SEQ 0 in the log's first slot, the core at LOG_COMMIT's or LOG_APPEND's service. -/
def logAt (svc : Nat) (g : List (Nat × Word)) : State :=
  store ([(0x0100C000, 0x4C), (0x0100C001, 0x47)] ++ (List.range 58).map (fun i => (0x0100C002 + i, 0)) ++
    [(0x0100C03C, 165), (0x0100C03D, 138), (0x0100C03E, 88), (0x0100C03F, 89)]) (atSvc svc g)

/-- The same with records staged. -/
def logStaged (n : Nat) : State :=
  { put [(Reg.LOGB_STAT_COUNT, n)] (logAt 0xF010 []) with dev := { cpu.dev with staged := List.replicate n (List.replicate 64 0) } }

/-- `HeatsAndLogbook`: the tally unit off, on, at work; the flash busy and at rest, nothing staged and one record, its slot the first of a sector and not;
LOG_APPEND's type and source at their ends; who may pop. -/
theorem wit_HeatsAndLogbook :
    (cpu.Inv ∧ cpu.en tallyPage = false ∧ cpu.bit Reg.TALLY_STAT_BUSY = false) ∧
    (∃ s : State, s.Inv ∧ s.en tallyPage = true ∧ s.bit Reg.TALLY_STAT_BUSY = false) ∧
    (∃ s : State, s.Inv ∧ s.en tallyPage = true ∧ s.bit Reg.TALLY_STAT_BUSY = true) ∧
    (∀ st ∈ [1, 3], ∃ s : State, s.Serves 0xF010 ∧ s.fld Reg.FLASHC_STAT_STATE = st) ∧
    ((logStaged 0).Serves 0xF010 ∧ (logStaged 0).fld Reg.FLASHC_STAT_STATE = 0 ∧ (logStaged 0).fld Reg.LOGB_STAT_DROPPED = 0 ∧ (logStaged 0).dev.staged = []) ∧
    ((logStaged 1).Serves 0xF010 ∧ (logStaged 1).dev.staged = [List.replicate 64 0] ∧ (logStaged 1).logSeq = 1 ∧ (logStaged 1).fld Reg.LOGB_STAT_COUNT = 1 ∧
      (logStaged 1).fld Reg.FLASHC_STAT_STATE = 0 ∧ (logStaged 1).fld Reg.LOGB_STAT_DROPPED = 0) ∧
    (∃ s : State, s.Serves 0xF011 ∧ bitsGet (s.g 1) 7 0 = 0x7F) ∧ (∃ s : State, s.Serves 0xF011 ∧ 0x20080000 < (s.g 2).toNat + 40) ∧
    ∃ s : State, s.Serves 0xF011 ∧ bitsGet (s.g 1) 7 0 = 0x80 ∧ (s.g 2).toNat + 40 = 0x20080000 ∧ s.callerTask = false ∧ s.fld Reg.FLASHC_STAT_STATE = 0 ∧
      s.logSeq = 1 ∧ s.dev.staged = [] ∧ s.fld Reg.LOGB_STAT_DROPPED = 0 := by
  refine ⟨⟨invOk_inv (by decide +kernel), by decide +kernel, by decide +kernel⟩, ⟨put [(Reg.CTRL_EN tallyPage, 1)] cpu, invOk_inv (by decide +kernel), by decide +kernel, by decide +kernel⟩,
    ⟨put [(Reg.CTRL_EN tallyPage, 1), (Reg.TALLY_STAT_BUSY, 1)] cpu, invOk_inv (by decide +kernel), by decide +kernel, by decide +kernel⟩,
    fun st h => ⟨put [(Reg.FLASHC_STAT_STATE, st)] (atSvc 0xF010 []), servesOk_serves ?_, ?_⟩,
    ⟨servesOk_serves (by decide +kernel), by decide +kernel, by decide +kernel, rfl⟩,
    ⟨servesOk_serves (by decide +kernel), rfl, by decide +kernel, by decide +kernel, by decide +kernel, by decide +kernel⟩,
    ⟨atSvc 0xF011 [(1, 0x7F)], servesOk_serves (by decide +kernel), by decide +kernel⟩,
    ⟨atSvc 0xF011 [(1, 0x80), (2, 0x2007FFD9)], servesOk_serves (by decide +kernel), by decide +kernel⟩,
    logAt 0xF011 [(1, 0x80), (2, 0x2007FFD8)], servesOk_serves (by decide +kernel), by decide +kernel, by decide +kernel, by decide +kernel, by decide +kernel, by decide +kernel, rfl,
    by decide +kernel⟩
  all_goals revert st; decide +kernel

/-- `TallyLimits`: a ring one slot too long, and one that begins too low; a trigger behind a snapshot, one waiting and none. -/
theorem wit_TallyLimits :
    (∃ s : State, s.Inv ∧ s.powered tallyPage = true ∧ s.en tallyPage = false ∧ s.parityCommon tallyPage = false ∧
      16 * s.fld Reg.TALLY_BASE_BASE + (s.fld Reg.TALLY_DEPTH_DEPTH + 1) * (16 + 16 * s.tallyPages.length) = 0x20080010) ∧
    (∃ s : State, s.Inv ∧ s.powered tallyPage = true ∧ s.en tallyPage = false ∧ s.parityCommon tallyPage = false ∧ 16 * s.fld Reg.TALLY_BASE_BASE < 0x20000000) ∧
    (∃ s : State, s.Inv ∧ s.en tallyPage = true ∧ s.bit Reg.TALLY_STAT_BUSY = true ∧ s.dev.rigger.pend = []) ∧
    (∃ s : State, s.Inv ∧ s.en tallyPage = true ∧ s.bit Reg.TALLY_STAT_BUSY = true ∧ s.dev.rigger.pend = [(0x94, 64)]) ∧ (1 : Word) &&& 3 = 1 :=
  ⟨⟨put [(Reg.TALLY_BASE_BASE, 0x2007FF0), (Reg.TALLY_DEPTH_DEPTH, 16)] cpu, invOk_inv (by decide +kernel), by decide +kernel, by decide +kernel, by decide +kernel,
      by decide +kernel⟩,
    ⟨put [(Reg.TALLY_BASE_BASE, 0x1FFFFFF)] cpu, invOk_inv (by decide +kernel), by decide +kernel, by decide +kernel, by decide +kernel, by decide +kernel⟩,
    ⟨put [(Reg.CTRL_EN tallyPage, 1), (Reg.TALLY_STAT_BUSY, 1)] cpu, invOk_inv (by decide +kernel), by decide +kernel, by decide +kernel, rfl⟩,
    ⟨{ put [(Reg.CTRL_EN tallyPage, 1), (Reg.TALLY_STAT_BUSY, 1)] cpu with dev := { cpu.dev with rigger := { pend := [(0x94, 64)] } } }, invOk_inv (by decide +kernel),
      by decide +kernel, by decide +kernel, rfl⟩, by decide⟩

/-- The monitor in a phase, lifecycle and state of its own. -/
def monAt (ph : Phase) (lc : Nat) (m : Mon) : State :=
  { put [(Reg.SYS_LIFECYCLE_LC, lc), (Reg.SYS_LIFECYCLE_STRAPS, 1)] cpu with dev := { sys := { phase := ph }, mon := m } }

/-- `Monitor`: closed, locked, open, Dead open and locked, with attempts left and on the last; no sheet to start from; reads, writes and fills at the ends of SRAM
and of what is the monitor's own; hex records good, bad, empty and at their longest. -/
theorem wit_Monitor :
    (cpu.Inv ∧ cpu.monOpen = false ∧ cpu.monLocked = false) ∧
    (∀ n ∈ [0, 1, 2], ∃ s : State, s.Inv ∧ s.monOpen = false ∧ s.monLocked = true ∧ s.dev.sys.phase = .unlock ∧ s.dev.mon.tries = n ∧ s.dev.staged.length < 4 ∧
      s.crewHeaderOk (s.sheet 0 64) = false ∧ s.crewHeaderOk (s.sheet 1 64) = false ∧ s.sealedCmac 0 2 ([0x55, 0x4E, 0x4C, 0x4B] ++ s.dev.mon.challenge ++ s.otpExt) ≠ some [0]) ∧
    (∃ s : State, s.Inv ∧ s.monLocked = true ∧ s.dev.sys.phase = .dead) ∧
    (∃ (s : State) (l : List Byte), s.Inv ∧ s.monLocked = true ∧ l ≠ [] ∧ s.sealedCmac 0 2 ([0x55, 0x4E, 0x4C, 0x4B] ++ s.dev.mon.challenge ++ s.otpExt) = some l) ∧
    (∀ ph ∈ [Phase.monitor, .dead], ∀ load : Bool, ∃ s : State, s.Inv ∧ s.monOpen = true ∧ s.dev.sys.phase = ph ∧ s.dev.mon.load = load ∧ s.dev.eccBad = [] ∧ s.dev.eccOne = [] ∧
      s.dev.flash.owed = none) ∧
    ((0x2007FFFC : Word).toNat % 4 = 0 ∧ (0x2007FFFC : Word).toNat + 4 * 1 = 0x20080000 ∧ (0x2007EFFC : Word).toNat + 4 * 1 = 0x2007F000 ∧
      (0x20000000 : Word).toNat + 4096 ≤ 0x20080000 ∧ (0x20000000 : Word).toNat + 4 * 65535 ≤ 0x2007F000 ∧ monOwn 0x2007F000 4 = true) ∧
    (∀ n ∈ [0, 1, 64], ∃ sum : Byte,
      (((leBytes 4 (0x20000000 : Word).toNat ++ List.replicate n (1 : Byte)).foldl (fun x b => x + b.toNat) 0) + sum.toNat) % 256 = 0) ∧
    ¬ (((leBytes 4 (0x20000000 : Word).toNat ++ ([] : List Byte)).foldl (fun x b => x + b.toNat) 0) + (0 : Byte).toNat) % 256 = 0 := by
  refine ⟨⟨invOk_inv (by decide +kernel), by decide +kernel, by decide +kernel⟩,
    fun n h => ⟨monAt .unlock 2 { tries := n, challenge := List.replicate 16 0 }, invOk_inv ?_, ?_, ?_, rfl, rfl, Nat.zero_lt_succ 3, ?_, ?_, ?_⟩,
    ⟨monAt .dead 2 {}, invOk_inv (by decide +kernel), by decide +kernel, rfl⟩,
    ⟨{ monAt .unlock 2 {} with dev := { (monAt .unlock 2 {}).dev with keys := [(0, { valid := true, mask := 4, usage := 4, size := 1, key := List.replicate 32 0 })] } }, _,
      invOk_inv (by decide +kernel), by decide +kernel, ?_, rfl⟩,
    fun ph h load => ⟨monAt ph 1 { load := load }, invOk_inv ?_, ?_, rfl, rfl, rfl, rfl, rfl⟩,
    ⟨by decide +kernel, by decide +kernel, by decide +kernel, by decide +kernel, by decide +kernel, by decide +kernel⟩,
    fun n h => ⟨BitVec.ofNat 8 (224 - n), ?_⟩, by decide +kernel⟩
  case refine_7 => decide +kernel
  case refine_8 | refine_9 => revert load; revert ph; decide +kernel
  all_goals revert n; decide +kernel

/-- DALI in a phase, with tries left and its window, the cluster enabled. -/
def dali (d : Dali) : State := { put [(Reg.CTRL_EN daliPage, 1)] cpu with dev := { cpu.dev with dali := d } }

/-- `DaliAndMeter`: a send with the bus busy, off, both options, bus failed and good; each phase, both copies, tries left and none, the window open and closed; the
meter off and on. -/
theorem wit_DaliAndMeter :
    (∃ s : State, s.Inv ∧ s.bit Reg.DALI_STAT_BUSY = true) ∧ (cpu.Inv ∧ cpu.bit Reg.DALI_STAT_BUSY = false ∧ cpu.en daliPage = false) ∧
    (∀ b : Bool, ∃ s : State, s.Inv ∧ s.bit Reg.DALI_STAT_BUSY = false ∧ s.en daliPage = true ∧ s.bit Reg.DALI_STAT_BUSFAIL = b) ∧
    (bitOf (bitsPut 0x60000000 31 31 0 &&& BitVec.ofNat 32 (Reg.maskOf Reg.DALI_FWD) : Word).toNat 29 = true ∧
      bitOf (bitsPut 0x60000000 31 31 0 &&& BitVec.ofNat 32 (Reg.maskOf Reg.DALI_FWD) : Word).toNat 30 = true) ∧
    (∀ p ∈ [DaliPhase.idle, .settling, .sending], ∀ w : Bool, (dali { phase := p, window := w }).Inv) ∧
    (∀ c ∈ [1, 2], ∀ l ∈ [0, 1], (dali { phase := .sending, frame := 0x20000000, copy := c, left := l }).Inv ∧ bitOf (0x20000000 : Word).toNat 29 = true) ∧
    ∃ s : State, s.Inv ∧ s.bit Reg.LUM_METER_EN = true := by
  refine ⟨⟨put [(Reg.DALI_STAT_BUSY, 1)] cpu, invOk_inv (by decide +kernel), by decide +kernel⟩, ⟨invOk_inv (by decide +kernel), by decide +kernel, by decide +kernel⟩,
    fun b => ⟨put [(Reg.DALI_STAT_BUSFAIL, b.toNat)] (dali {}), invOk_inv ?_, ?_, ?_, ?_⟩, ⟨by decide +kernel, by decide +kernel⟩, fun p _ w => invOk_inv ?_,
    fun c _ l _ => ⟨invOk_inv ?_, by decide⟩, put [(Reg.LUM_METER_EN, 1)] cpu, invOk_inv (by decide +kernel), by decide +kernel⟩
  case refine_5 | refine_6 => exact (by decide +kernel : invOk (dali {}) = true)
  all_goals revert b; decide +kernel

/-- `SerialAndPins`: the ADC busy, a code under, at and over a limit's edge; a UART that is the port's, off, on, its FIFO with room and full; a frame opened, escaped, closed;
an I²C transfer of 32 octets and of 33; a ball that wakes and flags, and one that does neither. -/
theorem wit_SerialAndPins :
    (cpu.Inv ∧ cpu.bit Reg.ADC_STAT_BUSY = false ∧ cpu.uartOn 0 = false ∧ cpu.bit (Reg.I2C_STAT_BUSY 1) = false) ∧
    (∃ s : State, s.Inv ∧ s.bit Reg.ADC_STAT_BUSY = true ∧ s.fld Reg.ADC_SEQ_MASK = 2 ^ 15 ∧ s.fld Reg.ADC_LIM_LCH = 15 ∧ s.dev.adc.hadResult = true ∧
      bitOf (s.fld Reg.ADC_LIM_DIR) 0 = true ∧ s.fld Reg.ADC_LIM_LO = 100 ∧ s.fld (Reg.ADC_RES_CODE 15) = 100) ∧
    (∃ s : State, s.Inv ∧ s.bit Reg.HOSTP_CFG_UARTEN = true ∧ s.portAwake = true ∧ s.dev.hostp.isOpen = true ∧ s.dev.hostp.esc = true) ∧
    (∃ s : State, s.Inv ∧ s.bit Reg.HOSTP_CFG_UARTEN = true ∧ s.portAwake = true ∧ s.dev.hostp.isOpen = true ∧ s.dev.hostp.buf = hostFrame 1 0x5A [] ∧ (s.port 1).out = none ∧
      (s.port 1).reply = none) ∧
    (∃ s : State, s.Inv ∧ s.bit Reg.HOSTP_CFG_UARTEN = true ∧ s.portAwake = false) ∧
    (∀ n ∈ [15, 16], ∃ s : State, s.Inv ∧ s.uartOn 2 = true ∧ (s.uart 2).rx.length = n ∧ (s.uart 2).tx.length = n) ∧
    (∀ n ∈ [16, 17], ∃ s : State, s.Inv ∧ s.bit (Reg.I2C_STAT_BUSY 1) = true ∧ s.fld (Reg.I2C_CMD_WLEN 1) = 16 ∧ s.fld (Reg.I2C_CMD_RLEN 1) = n) ∧
    (∃ s : State, s.Inv ∧ bitOf (s.fld Reg.PWR_GPWAKE_EDGE / 4 ^ 7 % 4) 0 = true ∧ s.powered gpioPage = true ∧ bitOf (s.fld (Reg.GPIO_PIN_EDGE 7)) 0 = true) := by
  refine ⟨⟨invOk_inv (by decide +kernel), by decide +kernel, by decide +kernel, by decide +kernel⟩,
    ⟨put [(Reg.ADC_STAT_BUSY, 1), (Reg.ADC_SEQ_MASK, 0x8000), (Reg.ADC_LIM_LCH, 15), (Reg.ADC_LIM_DIR, 1), (Reg.ADC_LIM_LO, 100), (Reg.ADC_RES_CODE 15, 100)]
        { cpu with dev := { cpu.dev with adc := { hadResult := true } } }, invOk_inv (by decide +kernel), by decide +kernel, by decide +kernel, by decide +kernel, rfl, by decide +kernel,
      by decide +kernel, by decide +kernel⟩,
    ⟨nodeP { isOpen := true, esc := true }, invOk_inv (by decide +kernel), by decide +kernel, rfl, rfl, rfl⟩,
    ⟨nodeP { isOpen := true, buf := hostFrame 1 0x5A [] }, invOk_inv (by decide +kernel), by decide +kernel, rfl, rfl, rfl, rfl, rfl⟩,
    ⟨{ node 1 with dev := { cpu.dev with pwr := { state := .rest } } }, invOk_inv (by decide +kernel), by decide +kernel, rfl⟩,
    fun n h => ⟨{ put [(Reg.CTRL_EN (uartPage 2), 1)] cpu with dev := { cpu.dev with uart := [(2, { rx := List.replicate n 0, tx := List.replicate n 0 })] } }, invOk_inv ?_, ?_, ?_, ?_⟩,
    fun n h => ⟨put [(Reg.I2C_STAT_BUSY 1, 1), (Reg.I2C_CMD_WLEN 1, 16), (Reg.I2C_CMD_RLEN 1, n)] cpu, invOk_inv ?_, ?_, ?_, ?_⟩,
    put [(⟨Reg.PWR_GPWAKE_EDGE.addr, Reg.PWR_GPWAKE_EDGE.lo + 15, Reg.PWR_GPWAKE_EDGE.lo + 14⟩, 1), (Reg.GPIO_PIN_EDGE 7, 1)] cpu, invOk_inv (by decide +kernel), by decide +kernel,
    by decide +kernel, by decide +kernel⟩
  all_goals revert n; decide +kernel

end Sys2Proof.Tests
end

section
/-!
A lane that receives takes no second frame (R78): a detection on a lane that does not search leaves the block's state as it is.
-/
namespace Sys2Proof.Machine

/-- A lane in PREAMBLE, HEADER or PAYLOAD does not search (R78). -/
theorem State.laneState_ne_search {s : State} {k : Nat}
    (h : s.laneState k ∈ [lanePreamble, laneHeader, lanePayload]) : s.laneState k ≠ laneSearch := by
  intro hs
  rw [hs] at h
  exact absurd h (by decide)

theorem gives_detect_of_not_search {k : Nat} {pwr cfo : Int} {st : Nat} {s : State} (h : s.laneState k ≠ laneSearch) :
    (detect k pwr cfo st).Gives s fun _ t => t = s := by
  refine gives_bind (gives_getS ?_)
  rw [if_neg fun hc => h hc.1]
  exact gives_pure rfl

/-- A detection guarded by the lane's kind of PHY, in whichever of the two commands, on a lane that does not search. -/
theorem gives_detectIf_of_not_search {b : Bool} {k : Nat} {pwr cfo : Int} {st : Nat} {s : State}
    (h : s.laneState k ≠ laneSearch) :
    (if b then detect k pwr cfo st else pure ()).Gives s fun _ t => t = s := by
  cases b
  · exact gives_pure rfl
  · exact gives_detect_of_not_search h

/-- A command whose act ends in the state it began in completes and leaves lanes, gain and everything that software reaches. -/
theorem completes_lanes_of_gives_eq {c : Instr} {s : State} {m : M Unit} {k : Nat} (hc : exec c s = cmd s m)
    (hm : m.Gives s fun _ t => t = s) :
    Completes c s fun t =>
      (∀ i, t.lane i = s.lane i) ∧ t.laneState k = s.laneState k ∧ t.dev.gain = s.dev.gain ∧ s.Within {} t := by
  refine completes_cmd hc (hm.mono ?_)
  rintro _ t rfl
  exact ⟨fun _ => rfl, rfl, rfl, (t.within_refl {}).latch⟩

/-- Settles O26: either detection's act does nothing on a lane that receives. -/
theorem oneFrameAtATime : Obligations.OneFrameAtATime := by
  intro n pwr cfo s _ hrecv c hc
  have hbusy := State.laneState_ne_search hrecv
  rcases List.mem_pair.mp hc with rfl | rfl
  case inl => exact completes_lanes_of_gives_eq rfl (gives_detectIf_of_not_search (b := !s.isOfdm n) hbusy)
  case inr => exact completes_lanes_of_gives_eq rfl (gives_detectIf_of_not_search (b := s.isOfdm n) hbusy)

end Sys2Proof.Machine
end

section
/-!
How an instruction ends in a synchronous exception (R243, R256, R257).
-/
namespace Sys2Proof.Machine
open Sys2Proof.Reg

variable {α : Type}

/-! ### Error correction, and the fetch -/

/-- Two laws of one act, the second about the state alone, hold together: an act has one outcome. -/
theorem M.Gives.and {m : M α} {s : State} {Q : α → State → Prop} {R : State → Prop} (h : m.Gives s Q)
    (g : m.Gives s fun _ t => R t) : m.Gives s fun a t => Q a t ∧ R t := by
  obtain ⟨a, t, hq, hi, hk⟩ := h
  obtain ⟨b, u, hr, _, hk'⟩ := g
  have htu : t = u := (hk fun _ => Act.done).symm.trans (hk' fun _ => Act.done)
  exact ⟨a, t, ⟨hq, htu ▸ hr⟩, hi, hk⟩

/-- Of what a program can reach nothing changes where an SRAM word is checked, and no error is added (R272). -/
structure State.Checked (s t : State) : Prop where
  core : t.core = s.core
  within : ∀ F : Foot, s.Within F t
  eccBad : t.dev.eccBad ⊆ s.dev.eccBad

theorem State.checked_refl (s : State) : s.Checked s := ⟨rfl, s.within_refl, List.Subset.refl _⟩

theorem gives_stat {e : Nat} {s : State} :
    (stat e).Gives s fun _ t => ∃ x, t = Prim.run (.dev fun d => { d with ctr := x }) s :=
  gives_bind (gives_getS (gives_act ⟨_, rfl⟩))

theorem gives_sramCheck {s : State} {a : Nat} (h : a / 4 * 4 ∉ s.dev.eccBad) :
    (sramCheck a).Gives s fun b t => b = true ∧ s.Checked t := by
  refine gives_bind (gives_getS ?_)
  rw [if_neg h]
  split
  · refine gives_bind (gives_stat.mono ?_)
    rintro _ _ ⟨x, rfl⟩
    refine gives_bind (gives_act (gives_pure ⟨rfl, rfl, fun _ => ?_, List.filter_subset_self _⟩))
    exact ⟨fun _ _ => by simp, fun _ _ => by simp, fun _ _ _ => by simp, fun _ _ => by simp,
      fun _ => rfl, fun _ => rfl, fun _ => rfl, rfl⟩
  · exact gives_pure ⟨rfl, s.checked_refl⟩

/-- A fetch that goes no further adds no error. -/
theorem gives_fetch_eccBad {s : State} (h : s.Fetches) : fetch.Gives s fun _ t => t.dev.eccBad ⊆ s.dev.eccBad := by
  obtain ⟨⟨r, hr, hf, hk⟩, hm, hb⟩ := h
  have hw : s.windowWaits s.core.pc.toNat = true → s.core.icache.any (fun e => e.1 == s.core.pc.toNat / 32) = true := by
    intro hw
    split at hk
    case isTrue hs =>
      obtain ⟨lo, hi, kind⟩ := r
      subst hs
      simp [State.windowWaits, hr] at hw
    case isFalse => exact hk
  refine gives_bind (gives_getS ?_)
  simp only [hr, hf, hm]
  rw [if_neg (by simp), if_neg (by simpa using hw)]
  refine gives_bind ((gives_bpMiss hb).mono ?_)
  rintro _ _ ⟨rfl, rfl⟩
  by_cases hs : r.kind = .sram
  · rw [if_pos hs] at hk
    simp only [Bool.false_eq_true, if_false, if_pos hs]
    refine gives_bind ((gives_sramCheck hk).mono ?_)
    rintro _ t ⟨rfl, ht⟩
    exact gives_pure ht.eccBad
  · rw [if_neg hs] at hk
    simp only [Bool.false_eq_true, if_false, if_neg hs, hk, if_true]
    exact gives_pure (List.Subset.refl _)

/-- The state in which an instruction that stops raises its exception: nothing has happened but its fetch. -/
structure State.Stopped (s u : State) : Prop where
  core : u.core = { s.core with insn := false }
  dev : u.dev = { s.dev with ctr := u.dev.ctr, eccOne := u.dev.eccOne, eccBad := u.dev.eccBad }
  eccBad : u.dev.eccBad ⊆ s.dev.eccBad
  within : s.Within coreFoot u

theorem Core.Legal.insn {c : Core} (h : c.Legal) (b : Bool) : ({ c with insn := b } : Core).Legal := h

/-- An instruction whose body stops with an exception, having changed nothing, raises it. -/
theorem gives_insn_stop {s : State} {word : Word} {forbid : Bool} {body : M Done} {c : Cause} {Q : Unit → State → Prop}
    (h : s.Ready) (hs : s.core.slot = none) (hc : c ≠ stalled)
    (hb : ∀ u : State, u.core = { s.core with insn := true } → body.Gives u fun d t => d = .stop c ∧ t = u)
    (hq : ∀ u : State, u.Inv → s.Stopped u → (raise c s.core.pc none).Gives u Q) :
    (insn word false forbid body).Gives s Q := by
  refine gives_bind (gives_getS ?_)
  simp only [h.runs, if_true, h.noStep, hs]
  refine gives_bind (((gives_fetch h.fetches).and (gives_fetch_eccBad h.fetches)).monoInv h.inv ?_)
  rintro _ u hui ⟨⟨rfl, hu⟩, hecc⟩
  simp only [Bool.false_eq_true, if_false, Option.isSome_none, Bool.and_false]
  have hcore (b : Bool) (v : State) (hv : ∃ x, v.core = { s.core with insn := x }) :
      (Prim.run (.core fun x => { x with insn := b }) v).core = { s.core with insn := b } := by
    obtain ⟨x, hv⟩ := hv
    rw [Prim.run_core_core, hv]
    exact Core.norm_of_legal (h.inv.core.insn b)
  refine gives_bind (gives_act (gives_bind ((hb _ (hcore true u ⟨_, hu.core⟩)).mono ?_)))
  rintro _ _ ⟨rfl, rfl⟩
  refine gives_bind (gives_act ?_)
  rw [if_neg hc]
  have hw : s.Within coreFoot (Prim.run (.core fun x => { x with insn := true }) u) :=
    hu.within.trans (State.within_coreFoot _ _)
  refine gives_bind ((gives_noSample ?_).mono ?_)
  · rw [State.en, State.bit, State.fld, State.reg_core, hw.regs _ (by decide)]
    exact h.noSample
  · rintro _ _ rfl
    refine hq _ (Prim.run_inv _ _ (Prim.run_inv _ _ hui)) ⟨hcore false _ ⟨_, hcore true u ⟨_, hu.core⟩⟩, hu.hw, hecc,
      hw.trans (State.within_coreFoot _ _)⟩

/-! ### Raising it -/

/-- ST as the entry to a handler leaves it, PL apart: MODE at SYS, IE 0, HOLD 1 (R257). -/
def entrySt (st : Word) : Word := bitsPut (bitsPut (bitsPut st 0 0 1) 7 7 0) 6 6 1

theorem entrySt_testBit {st : Word} (h : st &&& stMask = st) {i : Nat} (hi : i < 32) :
    (entrySt st &&& stMask).toNat.testBit i =
      if i = 0 ∨ i = 6 then true else if i = 7 then false else st.toNat.testBit i := by
  have hm : st.toNat.testBit i = (st.toNat.testBit i && stMask.toNat.testBit i) := by
    conv_lhs => rw [← h, BitVec.toNat_and, Nat.testBit_and]
  have h067 : ∀ j ∈ [0, 6, 7], stMask.toNat.testBit j = true := by decide
  rw [BitVec.toNat_and, Nat.testBit_and, entrySt]
  simp only [bitsPut_testBit _ 0 0 _ i (Nat.le_refl _) hi, bitsPut_testBit _ 6 6 _ i (Nat.le_refl _) hi,
    bitsPut_testBit _ 7 7 _ i (Nat.le_refl _) hi]
  by_cases h0 : i = 0
  · subst h0; simp [h067]
  by_cases h6 : i = 6
  · subst h6; simp [h067]
  by_cases h7 : i = 7
  · subst h7; simp
  rw [if_neg (by omega), if_neg (by omega), if_neg (by omega), if_neg (by omega), if_neg h7, ← hm]

/-- The bits of a status from 28 on, its upper end passed. -/
theorem testBit_of_le {w : Word} {i : Nat} (hi : 32 ≤ i) : w.toNat.testBit i = false :=
  Nat.testBit_lt_two_pow (Nat.lt_of_lt_of_le w.isLt (Nat.pow_le_pow_right (by omega) hi))

/-- A word of main SRAM, read by whom it may (R248, R269). -/
theorem gives_busRead_sram {s : State} {m : Master} {a : Nat} (hlo : 0x20000000 ≤ a) (hhi : a < 0x20080000)
    (h4 : a % 4 = 0) (he : a ∉ s.dev.eccBad) :
    (busRead m .word a).Gives s fun e t => e = .ok (s.memWord a) ∧ s.Checked t := by
  have hr : s.rangeOf a = some ⟨0x20000000, 0x20080000, .sram⟩ := by
    rw [State.rangeOf, State.ranges, List.find?_cons_of_neg, List.find?_cons_of_neg, List.find?_cons_of_pos]
    all_goals simp only [Bool.and_eq_true, decide_eq_true_eq]; omega
  refine gives_bind (gives_getS ?_)
  simp only [hr]
  refine gives_bind ((gives_sramCheck ?_).mono ?_)
  · rwa [Nat.div_mul_cancel (Nat.dvd_of_mod_eq_zero h4)]
  · rintro _ t ⟨rfl, ht⟩
    exact gives_pure ⟨by rfl, ht⟩

/-- The address of a vector is a multiple of 4 (R239, R257). -/
theorem vector_aligned {c : Core} (h : c.Legal) (v : Nat) : (c.vbase + BitVec.ofNat 32 (4 * v)).toNat % 4 = 0 := by
  have hb : c.vbase.toNat % 4 = 0 := by
    rw [← aligned_iff, ← h.2.2, BitVec.and_assoc]
    rfl
  rw [BitVec.toNat_add, BitVec.toNat_ofNat]
  omega

/-- The core once it has entered a handler (R257). -/
def Core.entered (c : Core) (xpc pc cycle : Word) : Core :=
  { c with xpc := xpc, xst := c.st, slot := none, st := entrySt c.st &&& stMask, cycle := cycle, pc := pc &&& 0xFFFFFFFC }

theorem State.Entered.of_core {s t : State} {xpc pc x : Word} (hs : s.Inv) (ht : t.core = s.core.entered xpc pc x)
    (hw : s.Within coreFoot t) : s.Entered t xpc pc s.g := by
  have hbit : ∀ {i : Nat}, i < 32 → t.core.st.toNat.testBit i =
      if i = 0 ∨ i = 6 then true else if i = 7 then false else s.core.st.toNat.testBit i := by
    rw [ht]
    exact entrySt_testBit hs.core.2.1
  refine ⟨by rw [ht]; rfl, by rw [ht]; rfl, hbit (by omega), hbit (by omega), hbit (by omega), fun i hi => ?_,
    by rw [ht]; rfl, by rw [ht]; rfl, by rw [ht]; rfl, fun k => by rw [State.g, ht]; rfl, hw⟩
  by_cases h : i < 32
  · rw [hbit h, if_neg (by omega), if_neg (by omega)]
  · rw [testBit_of_le (by omega), testBit_of_le (by omega)]

/-- A synchronous exception leaves ST.PL (R257). -/
theorem entrySt_priority {st : Word} (h : st &&& stMask = st) : bitsGet (entrySt st &&& stMask) 11 8 = bitsGet st 11 8 := by
  apply Nat.eq_of_testBit_eq
  intro i
  rw [bitsGet_testBit, bitsGet_testBit]
  by_cases hi : i < 11 - 8 + 1
  · rw [entrySt_testBit h (by omega), if_neg (by omega), if_neg (by omega)]
  · simp [hi]

/-- The entry to a handler through the vector table (R257). -/
theorem gives_enter {s : State} {v : Nat} {xpc : Word} (hs : s.Inv) (hv : s.VectorAt v) :
    (enter v xpc none none).Gives s fun _ t =>
      (∃ x, t.core = s.core.entered xpc (s.memWord (s.core.vbase + BitVec.ofNat 32 (4 * v)).toNat) x) ∧
        s.Within coreFoot t := by
  obtain ⟨hpc, hst, hvb⟩ := hs.core
  refine gives_bind (gives_getS (gives_bind (gives_act (gives_bind ((gives_cyc (Prim.run_inv _ _ hs)).mono ?_)))))
  rintro _ t ⟨⟨x, hx⟩, hdev, _, _, htw⟩
  have hw : s.Within coreFoot t := (s.within_coreFoot _).trans htw
  refine gives_bind ((gives_busRead_sram hv.lo hv.hi (vector_aligned hs.core v) ?_).mono ?_)
  · rw [hdev]
    exact hv.clean
  · rintro _ u ⟨rfl, hu⟩
    refine gives_act ⟨⟨x, ?_⟩, (hw.trans (hu.within _)).trans (State.within_coreFoot _ _)⟩
    have hword (a : Nat) : t.memWord a = s.memWord a := by simp only [State.memWord, State.bytes, hw.mem _ rfl]
    rw [Prim.run_core_core, hu.core, hx, hword]
    simp only [Prim.run_core_core, Core.norm, hpc, hvb, and_mask_idem]
    rfl

/-- An entry seen from an earlier state, between which and the entry neither ST nor VBASE moved. -/
theorem State.Entered.since {s u t : State} {xpc pc : Word} {g : Nat → Word} (h : u.Entered t xpc pc g)
    (hst : u.core.st = s.core.st) (hvb : u.core.vbase = s.core.vbase) (hw : s.Within coreFoot u) :
    s.Entered t xpc pc g :=
  ⟨h.xpc, h.xst.trans hst, h.mode, h.ie, h.hold, fun i hi => (h.flags i hi).trans (by rw [hst]), h.pc, h.vbase.trans hvb,
    h.slot, h.regs, hw.trans h.rest⟩

theorem State.Within.memWord {s t : State} {F : Foot} (h : s.Within F t) (hF : ∀ a, F.mem a = false) (a : Nat) :
    t.memWord a = s.memWord a := by
  simp only [State.memWord, State.bytes, h.mem _ (hF _)]

/-- A synchronous exception other than BRK, with HOLD at 0 (R256, R257). -/
theorem gives_raise {s : State} {c : Cause} {xpc : Word} (hs : s.Inv) (hhold : bitOf s.core.st.toNat 6 = false)
    (hbrk : c.v ≠ vBrk) (hv : s.VectorAt c.v) :
    (raise c xpc none).Gives s fun _ t => s.Traps t c.v c.kind c.addr xpc s.g := by
  refine gives_bind (gives_getS ?_)
  rw [hhold, if_neg Bool.false_ne_true]
  refine gives_bind (gives_perf.monoInv hs ?_)
  rintro _ t hti ⟨ht, _⟩
  refine gives_bind (gives_act ?_)
  rw [if_neg fun h => hbrk h.1]
  generalize hu : Prim.run _ t = u
  have hui : u.Inv := hu ▸ Prim.run_inv _ _ hti
  have hcore : u.core = { s.core with xcause := BitVec.ofNat 32 (c.v + 256 * c.kind), faddr := c.addr } := by
    rw [← hu, Prim.run_core_core, ht.core]
    exact Core.norm_of_legal (c := { s.core with xcause := _, faddr := _ }) hs.core
  have hvb : u.core.vbase = s.core.vbase := by rw [hcore]
  have hst : u.core.st = s.core.st := by rw [hcore]
  have hw : s.Within coreFoot u := hu ▸ ht.coreFoot.trans (State.within_coreFoot _ _)
  have hvu : u.VectorAt c.v := by
    obtain ⟨hlo, hhi, hclean⟩ := hv
    refine ⟨hvb ▸ hlo, hvb ▸ hhi, ?_⟩
    rw [hvb, ← hu, Prim.run_core_dev, ht.dev]
    exact hclean
  have hg : u.g = s.g := by
    funext k
    rw [State.g, hcore, State.g]
  refine (gives_enter hui hvu).mono ?_
  rintro _ v ⟨⟨x, hx⟩, hvw⟩
  have he := (State.Entered.of_core hui hx hvw).since hst hvb hw
  rw [hw.memWord fun _ => rfl, hvb, hg] at he
  refine ⟨he, by rw [hx, hcore]; rfl, by rw [hx, hcore]; rfl, ?_⟩
  rw [hx, ← hst]
  exact entrySt_priority hui.core.2.1

theorem State.Traps.latch {s t u : State} {v kind : Nat} {faddr xpc : Word} {g : Nat → Word}
    (h : s.Traps t v kind faddr xpc g) : s.Traps (latchEdges u t) v kind faddr xpc g := by
  obtain ⟨⟨h1, h2, h3, h4, h5, h6, h7, h8, h9, h10, h11⟩, hc, hf, hp⟩ := h
  exact ⟨⟨h1, h2, h3, h4, h5, h6, h7, h8, h9, h10, h11.latch⟩, hc, hf, hp⟩

/-- The exception of an instruction that stops, seen from before its fetch (R256, R257). -/
theorem State.Stopped.gives_raise {s u : State} {c : Cause} (h : s.Stopped u) (hu : u.Inv)
    (hhold : bitOf s.core.st.toNat 6 = false) (hbrk : c.v ≠ vBrk) (hv : s.VectorAt c.v) :
    (raise c s.core.pc none).Gives u fun _ t => s.Traps t c.v c.kind c.addr s.core.pc s.g := by
  have hst : u.core.st = s.core.st := by rw [h.core]
  have hvb : u.core.vbase = s.core.vbase := by rw [h.core]
  have hg : u.g = s.g := by
    funext k
    rw [State.g, h.core, State.g]
  obtain ⟨hlo, hhi, hclean⟩ := hv
  have hvu : u.VectorAt c.v := ⟨hvb ▸ hlo, hvb ▸ hhi, hvb ▸ fun hmem => hclean (h.eccBad hmem)⟩
  refine (Machine.gives_raise hu (hst ▸ hhold) hbrk hvu).mono ?_
  rintro _ t ⟨he, hcause, hfaddr, hpl⟩
  have he' := he.since hst hvb h.within
  rw [h.within.memWord fun _ => rfl, hvb, hg] at he'
  exact ⟨he', hcause, hfaddr, hst ▸ hpl⟩

end Sys2Proof.Machine
end

section
/-!
What a start reset leaves (R32, R33, R241, R413), followed through its parts: the stages of the reset, each part taking one
stage to the next.
-/
namespace Sys2Proof.Machine
open Sys2Proof.Reg

variable {α β : Type}

/-! ### The stages -/

/-- The units' live state that steers a start reset: a PROGRAM, the transmissions, the lanes; and the phase it ends in. -/
structure Seen where
  prog : Option Prog
  jobs : List TxJob
  lanes : Sparse Lane
  phase : Phase

def Dev.seen (d : Dev) : Seen := ⟨d.flash.prog, d.tx.jobs, d.lanes, d.sys.phase⟩

/-- How far a start reset has come: the regions whose registers are clear, the memories that are, and what holds of the live
state and of the core. -/
structure ResetStage where
  link : Bool := false
  radio : Bool := false
  main : Bool := false
  cells : Bool := false
  tabs : Tab → Bool := fun _ => false
  seen : Seen → Prop
  core : Core → Prop := fun _ => True

/-- The registers of the regions that a start reset clears which yet show something of their own after it (R33, R413,
R414). -/
def resetKept : List Nat :=
  [NTIME_STAT, RCTL_STAT, TXP_CFG, SYS_RSTCAUSE, SYS_BOOTINFO, LUM_STAT, LUM_MCNT] ++ otpShown

/-- A register that reads its reset value at this stage. -/
def ResetStage.clears (p : ResetStage) (a : Nat) : Bool :=
  (p.link && inLink a || p.radio && inRadio a || p.main && (inMain a || inPrivate a)) && decide (a ∉ resetKept)

/-- A state that a start reset begun in `s₀` may have at a stage: what is clear, and what no part of it touches. -/
structure State.AtStage (s₀ : State) (p : ResetStage) (t : State) : Prop where
  regs : ∀ a, p.clears a = true → t.reg a = resetWord a
  rtc : ∀ a, pageOf a = rtcPage → t.reg a = s₀.reg a
  cells : p.cells = true → ∀ a, cellMem a = true → t.byte a = 0
  mem : ∀ a, cellMem a = false → s₀.progMem a = false → t.byte a = s₀.byte a
  tabs : ∀ x, p.tabs x = true → ∀ i, t.word x i = 0
  otp : ∀ i, t.otpByte i = s₀.otpByte i
  bad : t.bad = s₀.bad
  seen : p.seen t.dev.seen
  core : p.core t.core

/-- An act takes a start reset from one stage to another. -/
structure M.Takes (s₀ : State) (p q : ResetStage) (m : M α) : Prop where
  all : ∀ s, s₀.AtStage p s → m.Gives s fun _ t => s₀.AtStage q t

/-- An act leaves the stage as it is. -/
abbrev M.Stays (s₀ : State) (p : ResetStage) (m : M α) : Prop := m.Takes s₀ p p

variable {s₀ : State} {p q r : ResetStage}

theorem stays_pure (a : α) : M.Stays s₀ p (pure a : M α) := ⟨fun _ h => gives_pure h⟩
theorem stays_nop : M.Stays s₀ p nop := stays_pure ()

theorem takes_bind {m : M α} {f : α → M β} (h : m.Takes s₀ p q) (g : ∀ a, (f a).Takes s₀ q r) : (m >>= f).Takes s₀ p r :=
  ⟨fun s hs => gives_bind ((h.all s hs).mono fun a _ ht => (g a).all _ ht)⟩

/-- What follows a look at the state may use that it is at the stage. -/
theorem takes_getS {f : State → M β} (g : ∀ s, s₀.AtStage p s → (f s).Takes s₀ p q) : (getS >>= f).Takes s₀ p q :=
  ⟨fun s hs => gives_bind (gives_getS ((g s hs).all s hs))⟩

theorem takes_ite {c : Prop} [Decidable c] {a b : M α} (h : c → a.Takes s₀ p q) (g : ¬ c → b.Takes s₀ p q) :
    (if c then a else b).Takes s₀ p q := by
  split
  case isTrue hc => exact h hc
  case isFalse hc => exact g hc

theorem stays_forAll {l : List α} {f : α → M Unit} (h : ∀ x ∈ l, (f x).Stays s₀ p) : (forAll l f).Stays s₀ p :=
  ⟨fun _ hs => gives_forAll hs fun x hx t ht => (h x hx).all t ht⟩

/-! ### Registers -/

/-- A register that is not clear at a stage and is not one of the RTC domain: a part of the reset may write it. -/
structure ResetStage.Free (p : ResetStage) (a : Nat) : Prop where
  clears : p.clears a = false
  rtc : pageOf a ≠ rtcPage

theorem rtc_bounds {a : Nat} (h : pageOf a = rtcPage) : 0x42008000 ≤ a ∧ a < 0x42009000 := by
  have : a / 0x1000 * 0x1000 = 0x42008000 := h
  omega

theorem ResetStage.clears_region {a : Nat} (h : p.clears a = true) :
    (p.link = true ∧ 0x41000000 ≤ a ∧ a < 0x42000000) ∨ (p.radio = true ∧ 0x43000000 ≤ a ∧ a < 0x44000000) ∨
      (p.main = true ∧ (0x40000000 ≤ a ∧ a < 0x41000000 ∨ 0xE0000000 ≤ a)) := by
  have h := (Bool.and_eq_true_iff.mp h).1
  simpa [inLink, inRadio, inMain, inPrivate, or_assoc] using h

/-- A register is free where every region that it lies in is yet to be cleared. -/
theorem free_of {a : Nat} (hrtc : a < 0x42008000 ∨ 0x42009000 ≤ a)
    (hl : 0x41000000 ≤ a → a < 0x42000000 → p.link = false) (hr : 0x43000000 ≤ a → a < 0x44000000 → p.radio = false)
    (hm : a < 0x41000000 ∨ 0xE0000000 ≤ a → p.main = false) : p.Free a := by
  refine ⟨Bool.eq_false_iff.mpr fun hc => ?_, fun h => ?_⟩
  · rcases ResetStage.clears_region hc with ⟨h, h1, h2⟩ | ⟨h, h1, h2⟩ | ⟨h, h1⟩
    · simp [hl h1 h2] at h
    · simp [hr h1 h2] at h
    · simp [hm (h1.imp And.right id)] at h
  · have := rtc_bounds h
    omega

/-- The AO region's registers are none of a start reset's. -/
theorem free_of_ao {a : Nat} (h : inAo a = true) : p.Free a := by
  simp only [inAo, Bool.and_eq_true, decide_eq_true_eq] at h
  exact free_of (by omega) (by omega) (by omega) (by omega)

theorem free_of_kept {a : Nat} (h : a ∈ resetKept) : p.Free a :=
  ⟨by simp [ResetStage.clears, h], by revert a; decide⟩

theorem free_of_radio {a : Nat} (hp : p.radio = false) (h : inRadio a = true) : p.Free a := by
  simp only [inRadio, Bool.and_eq_true, decide_eq_true_eq] at h
  exact free_of (by omega) (by omega) (fun _ _ => hp) (by omega)

theorem free_of_main {a : Nat} (hp : p.main = false) (h : inMain a = true) : p.Free a := by
  simp only [inMain, Bool.and_eq_true, decide_eq_true_eq] at h
  exact free_of (by omega) (by omega) (by omega) fun _ => hp

/-- A register is written that is free, or with the value it shows when it is clear. -/
theorem stays_reg {a : Nat} {v : Word} (hr : pageOf a ≠ rtcPage)
    (h : p.clears a = true → v &&& BitVec.ofNat 32 (maskOf a) = resetWord a) : M.Stays s₀ p (act (.reg a v)) := by
  refine ⟨fun s hs => gives_act ?_⟩
  obtain ⟨h1, h2, h3, h4, h5, h6, h7, h8, h9⟩ := hs
  refine ⟨fun b hb => ?_, fun b hb => ?_, by simpa using h3, by simpa using h4, by simpa using h5, by simpa using h6,
    h7, h8, h9⟩
  · by_cases e : b = a
    · subst e
      rw [State.reg_written, h hb]
    · rw [State.reg_other _ _ _ _ e, h1 b hb]
  · rw [State.reg_other _ _ _ _ (by rintro rfl; exact hr hb), h2 b hb]

theorem stays_wr {a : Nat} {v : Word} (h : p.Free a) : (wr a v).Stays s₀ p :=
  stays_reg h.rtc fun hc => absurd hc (by simp [h.clears])

theorem stays_setFld {f : Fld} {v : Nat} (h : p.Free f.addr) : (setFld f v).Stays s₀ p :=
  takes_bind (takes_getS fun _ _ => stays_pure _) fun _ => stays_wr h

theorem stays_setFld_kept {f : Fld} {v : Nat} (h : f.addr ∈ resetKept) : (setFld f v).Stays s₀ p :=
  stays_setFld (free_of_kept h)

theorem stays_setFld_ao {f : Fld} {v : Nat} (h : inAo f.addr = true) : (setFld f v).Stays s₀ p :=
  stays_setFld (free_of_ao h)

theorem stays_setFld_radio {f : Fld} {v : Nat} (hr : p.radio = false) (h : inRadio f.addr = true) :
    (setFld f v).Stays s₀ p :=
  stays_setFld (free_of_radio hr h)

/-- A field of a register that is clear gets the value it has. -/
theorem stays_setFld_same {f : Fld} {v : Nat} (hr : pageOf f.addr ≠ rtcPage)
    (h : bitsPut (resetWord f.addr) f.hi f.lo v &&& BitVec.ofNat 32 (maskOf f.addr) = resetWord f.addr) :
    (setFld f v).Stays s₀ p :=
  ⟨fun s hs => gives_bind (gives_bind (gives_getS (gives_pure
    ((stays_reg hr fun hc => (hs.regs _ hc).symm ▸ h).all s hs))))⟩

/-- A page's registers that its events move are free. -/
def ResetStage.FreePage (p : ResetStage) (page : Nat) : Prop := p.Free (FLT page) ∧ ∀ k < 4, p.Free (PERF_CNT page k)

theorem freePage_of {page : Nat} (h : ∀ a, page ≤ a → a < page + 0x60 → p.Free a) : p.FreePage page :=
  ⟨h _ (by simp only [FLT]; omega) (by simp only [FLT]; omega),
    fun k hk => h _ (by simp only [PERF_CNT]; omega) (by simp only [PERF_CNT]; omega)⟩

theorem freePage_of_ao {page : Nat} (h : 0x42000000 ≤ page ∧ page ≤ 0x42007000) : p.FreePage page :=
  freePage_of fun a h1 h2 => free_of_ao (by simp only [inAo, Bool.and_eq_true, decide_eq_true_eq]; omega)

theorem freePage_of_radio {page : Nat} (hp : p.radio = false) (h : 0x43000000 ≤ page ∧ page ≤ 0x43FFF000) :
    p.FreePage page :=
  freePage_of fun a h1 h2 => free_of_radio hp (by simp only [inRadio, Bool.and_eq_true, decide_eq_true_eq]; omega)

theorem freePage_of_main {page : Nat} (hp : p.main = false) (h : 0x40000000 ≤ page ∧ page ≤ 0x40FFF000) :
    p.FreePage page :=
  freePage_of fun a h1 h2 => free_of_main hp (by simp only [inMain, Bool.and_eq_true, decide_eq_true_eq]; omega)

/-! ### The other primitive changes -/

/-- A change of the core and of the units' live state alone. -/
theorem State.AtStage.live {s t : State} {S : Seen → Prop} {C : Core → Prop} (h : s₀.AtStage p s)
    (hw : s.Within { core := true, keys := true } t) (hs : S t.dev.seen) (hc : C t.core) :
    s₀.AtStage { p with seen := S, core := C } t where
  regs a ha := (hw.regs a rfl).trans (h.regs a ha)
  rtc a ha := (hw.regs a rfl).trans (h.rtc a ha)
  cells hz a ha := (hw.mem a rfl).trans (h.cells hz a ha)
  mem a ha hb := (hw.mem a rfl).trans (h.mem a ha hb)
  tabs x hx i := (hw.tab x rfl i).trans (h.tabs x hx i)
  otp i := (hw.otp rfl i).trans (h.otp i)
  bad := (hw.bad rfl).trans h.bad
  seen := hs
  core := hc

theorem State.within_dev (s : State) (f : Dev → Dev) : s.Within { core := true, keys := true } (Prim.run (.dev f) s) :=
  ⟨fun _ _ => by simp, fun _ _ => by simp, fun _ _ _ => by simp, fun _ _ => by simp, fun _ => rfl, fun _ => rfl,
    fun h => by simp at h, rfl⟩

theorem State.within_core (s : State) (f : Core → Core) : s.Within { core := true, keys := true } (Prim.run (.core f) s) :=
  ⟨fun _ _ => by simp, fun _ _ => by simp, fun _ _ _ => by simp, fun _ _ => by simp, fun _ => rfl,
    fun h => by simp at h, fun _ => rfl, rfl⟩

/-- A change of the units' live state. -/
theorem takes_modDev {f : Dev → Dev} {S : Seen → Prop} (h : ∀ d, p.seen d.seen → S (f d).seen) :
    (modDev f).Takes s₀ p { p with seen := S } :=
  ⟨fun s hs => gives_act (hs.live (s.within_dev f) (h _ hs.seen) hs.core)⟩

/-- One that leaves what steers the reset. -/
theorem stays_modDev {f : Dev → Dev} (h : ∀ d, (f d).seen = d.seen) : (modDev f).Stays s₀ p :=
  takes_modDev fun d hd => (h d).symm ▸ hd

theorem takes_modCore {f : Core → Core} {C : Core → Prop} (h : ∀ c, p.core c → C (f c).norm) :
    (modCore f).Takes s₀ p { p with core := C } :=
  ⟨fun s hs => gives_act (hs.live (s.within_core f) hs.seen (h _ hs.core))⟩

theorem stays_emitPrim {e : Nat} : M.Stays s₀ p (act (.emit e)) :=
  ⟨fun _ hs => gives_act (hs.live ⟨fun _ _ => by simp, fun _ _ => by simp, fun _ _ _ => by simp, fun _ _ => by simp,
    fun _ => rfl, fun _ => rfl, fun _ => rfl, rfl⟩ hs.seen hs.core)⟩

theorem stays_freeNat : M.Stays s₀ p freeNat :=
  ⟨fun _ hs => gives_bind (gives_getS (gives_bind (gives_act (gives_pure (hs.live ⟨fun _ _ => by simp, fun _ _ => by simp,
    fun _ _ _ => by simp, fun _ _ => by simp, fun _ => rfl, fun _ => rfl, fun _ => rfl, rfl⟩ hs.seen hs.core)))))⟩

theorem stays_freeWord : M.Stays s₀ p freeWord := takes_bind stays_freeNat fun _ => stays_pure _

/-- Registers are cleared, those of the RTC domain never. -/
theorem takes_regClear {g : Nat → Bool} {l r m : Bool} (hr : ∀ a, pageOf a = rtcPage → g a = false)
    (h : ∀ a, ({ p with link := l, radio := r, main := m } : ResetStage).clears a = true → g a = false → p.clears a = true) :
    M.Takes s₀ p { p with link := l, radio := r, main := m } (act (.regClear g)) := by
  refine ⟨fun s hs => gives_act ?_⟩
  obtain ⟨h1, h2, h3, h4, h5, h6, h7, h8, h9⟩ := hs
  refine ⟨fun a ha => ?_, fun a ha => ?_, by simpa using h3, by simpa using h4, by simpa using h5, by simpa using h6,
    h7, h8, h9⟩
  · rw [State.reg_cleared]
    split
    case isTrue => rfl
    case isFalse hg => exact h1 a (h a ha (by simpa using hg))
  · rw [State.reg_cleared, hr a ha]
    exact h2 a ha

/-- The frame buffer's octets are cleared (R23, R273). -/
theorem takes_memClear {g : Nat → Bool} (h : ∀ a, g a = cellMem a) :
    M.Takes s₀ p { p with cells := true } (act (.memClear g)) := by
  refine ⟨fun s hs => gives_act ?_⟩
  obtain ⟨h1, h2, h3, h4, h5, h6, h7, h8, h9⟩ := hs
  refine ⟨fun a ha => by simpa using h1 a ha, by simpa using h2, fun _ a ha => ?_, fun a ha hb => ?_, by simpa using h5,
    by simpa using h6, h7, h8, h9⟩
  · rw [State.byte_cleared, h, ha, if_pos rfl]
    simp only [cellMem, Bool.and_eq_true, decide_eq_true_eq] at ha
    rw [memReset, if_neg (by omega), if_neg (by omega), if_neg (by omega)]
  · rw [State.byte_cleared, h, ha]
    exact h4 a ha hb

/-- A table is cleared (R23, R27). -/
theorem takes_tabClear {x : Tab} :
    M.Takes s₀ p { p with tabs := fun y => p.tabs y || decide (y = x) } (act (.tabClear x fun _ => true)) := by
  refine ⟨fun s hs => gives_act ?_⟩
  obtain ⟨h1, h2, h3, h4, h5, h6, h7, h8, h9⟩ := hs
  refine ⟨fun a ha => by simpa using h1 a ha, by simpa using h2, by simpa using h3, by simpa using h4, fun y hy i => ?_,
    by simpa using h6, by simpa using h7, by simpa using h8, by simpa using h9⟩
  rw [State.word_cleared]
  by_cases e : y = x
  · rw [if_pos ⟨e, rfl⟩]
    rfl
  · rw [if_neg fun h => e h.1]
    exact h5 y (by simpa [e] using hy) i

/-- An octet is stored where a PROGRAM is cut off (R291). -/
theorem stays_mem {a : Nat} {b : Byte} (hc : cellMem a = false) (hp : s₀.progMem a = true) :
    M.Stays s₀ p (act (.mem a b)) := by
  refine ⟨fun s hs => gives_act ?_⟩
  obtain ⟨h1, h2, h3, h4, h5, h6, h7, h8, h9⟩ := hs
  refine ⟨by simpa using h1, by simpa using h2, fun hz x hx => ?_, fun x hx hy => ?_, by simpa using h5, by simpa using h6,
    h7, h8, h9⟩
  · rw [State.byte_other _ _ _ _ (by rintro rfl; simp [hc] at hx)]
    exact h3 hz x hx
  · rw [State.byte_other _ _ _ _ (by rintro rfl; simp [hp] at hy)]
    exact h4 x hx hy

/-! ### The operations of every chapter -/

theorem stays_rd {a : Nat} : (rd a).Stays s₀ p := takes_getS fun _ _ => stays_pure _

theorem stays_stat {e : Nat} : (stat e).Stays s₀ p := takes_getS fun _ _ => stays_modDev fun _ => rfl
theorem stays_count {page i w : Nat} : (count page i w).Stays s₀ p := takes_getS fun _ _ => stays_modDev fun _ => rfl

theorem stays_perf {page e n : Nat} (h : p.FreePage page) : (perf page e n).Stays s₀ p :=
  stays_forAll fun k hk => takes_bind stays_rd fun _ =>
    takes_ite (fun _ => takes_bind stays_rd fun _ => stays_wr (h.2 k (List.mem_range.mp hk))) fun _ => stays_pure _

theorem stays_emitNow {page e : Nat} (h : p.FreePage page) : (emitNow page e).Stays s₀ p :=
  takes_bind stays_emitPrim fun _ => stays_perf h

theorem stays_setFlt {page b : Nat} (h : p.FreePage page) : (setFlt page b).Stays s₀ p :=
  takes_bind stays_rd fun _ => takes_bind (stays_wr h.1) fun _ => stays_emitNow h

theorem stays_emit {page e : Nat} (h : p.FreePage page) : (emit page e).Stays s₀ p :=
  takes_getS fun _ _ => takes_ite (fun _ => takes_bind (stays_modDev fun _ => rfl) fun _ => stays_setFlt h)
    fun _ => stays_emitNow h

theorem stays_stage {t c k : Nat} {hw : Bool} {l : List Byte} : (stage t hw c k l).Stays s₀ p :=
  takes_getS fun _ _ => takes_ite
    (fun _ => takes_bind (stays_modDev fun _ => rfl) fun _ => takes_bind (stays_setFld_ao rfl) fun _ =>
      takes_bind stays_stat fun _ => stays_emit (freePage_of_ao (by decide)))
    fun _ => takes_bind (stays_setFld_ao rfl) fun _ => stays_stat

end Sys2Proof.Machine
end

section
/-!
What the parts of a start reset leave as they find it: lanes, transmit path, radio, the scheduler and what shows OTP.
-/
namespace Sys2Proof.Machine
open Sys2Proof.Reg

variable {s₀ : State} {p q r : ResetStage} {prog : Option Prog}

/-- From the link region's reset on: the PROGRAM as before, no transmission but a test carrier, no frame at a lane (R23). -/
structure Seen.Idle (prog : Option Prog) (v : Seen) : Prop where
  prog : v.prog = prog
  jobs : ∀ j ∈ v.jobs, j.kind = .carrier
  lanes : ∀ n, (Sparse.val {} v.lanes n).frame = none

/-! ### The lanes -/

theorem stays_setBlank {b : Bool} : (setBlank b).Stays s₀ p := stays_modDev fun _ => rfl
theorem stays_modGain {f : Gain → Gain} : (modGain f).Stays s₀ p := stays_modDev fun _ => rfl

/-- A lane without a frame is put where none has one. -/
theorem stays_setLane {n : Nat} {l : Lane} (hi : p.seen = Seen.Idle prog) (hl : l.frame = none) :
    (setLane n l).Stays s₀ p := by
  refine takes_modDev (S := p.seen) ?_
  rw [hi]
  rintro d ⟨hp, hj, hf⟩
  refine ⟨hp, hj, fun k => ?_⟩
  by_cases e : k = n
  · subst e
    rw [Sparse.val, Dev.seen, Sparse.get_set_same, hl]
  · rw [Sparse.val, Dev.seen, Sparse.get_set_other _ _ _ _ _ e]
    exact hf k

/-- A lane that goes off shows what a cleared one shows (R77, R93). -/
theorem stays_setLaneState_off {n : Nat} (hi : p.seen = Seen.Idle prog) (hn : n < 4) :
    (setLaneState n laneOff).Stays s₀ p := by
  have hstate : ∀ k < 4, bitsPut (resetWord LANES_STAT) (4 * k + 3) (4 * k) laneOff &&& BitVec.ofNat 32 (maskOf LANES_STAT)
      = resetWord LANES_STAT := by decide +kernel
  have hstale : ∀ k < 4, pageOf (LANES_ED k) ≠ rtcPage ∧
      bitsPut (resetWord (LANES_ED k)) 31 31 1 &&& BitVec.ofNat 32 (maskOf (LANES_ED k)) = resetWord (LANES_ED k) := by
    decide +kernel
  refine takes_bind (stays_setFld_same (show pageOf LANES_STAT ≠ rtcPage by decide) (hstate n hn)) fun _ =>
    takes_getS fun s hs => ?_
  rw [if_neg (by decide)]
  refine takes_bind (stays_setFld_same (hstale n hn).1 (hstale n hn).2) fun _ => stays_setLane hi ?_
  exact (hi ▸ hs.seen : Seen.Idle prog s.dev.seen).lanes n

theorem stays_laneDrop {n reason : Nat} (hi : p.seen = Seen.Idle prog) (hn : n < 4) :
    (laneDrop n reason laneOff).Stays s₀ p := by
  refine takes_getS fun s hs => ?_
  have hf : (s.lane n).frame = none := (hi ▸ hs.seen : Seen.Idle prog s.dev.seen).lanes n
  rw [if_neg (by simp [State.holds, hf])]
  exact stays_setLaneState_off hi hn

/-- No lane owns the gain: what a cleared LANES_STAT shows (R84, R95). -/
theorem stays_setFreeze (hr : p.radio = false) : (setFreeze 7).Stays s₀ p :=
  takes_bind (stays_setFld_same (by decide) (by decide +kernel)) fun _ =>
    takes_bind (stays_setFld_same (by decide) (by decide +kernel)) fun _ => stays_setFld_radio hr rfl

theorem stays_lanesOff {reason : Nat} (hi : p.seen = Seen.Idle prog) (hr : p.radio = false) :
    (lanesOff reason).Stays s₀ p :=
  takes_bind stays_setBlank fun _ =>
    takes_bind (stays_forAll fun _ hn => stays_laneDrop hi (List.mem_range.mp hn)) fun _ =>
    takes_bind stays_modGain fun _ => takes_bind (stays_setFld_same (by decide) (by decide +kernel)) fun _ =>
    takes_bind (stays_setFreeze hr) fun _ => stays_setFld_radio hr rfl

/-! ### The transmit path -/

theorem stays_setTxActive {b : Bool} (hr : p.radio = false) : (setTxActive b).Stays s₀ p := by
  refine takes_getS fun s _ => ?_
  have h : (if (s.bit RCTL_STAT_TXACT != b) = true then do
      setFld RCTL_STAT_TXACT (b2n b)
      emit txpPage (if b then 0xBA else 0xBB)
    else pure () : M Unit).Stays s₀ p :=
    takes_ite (fun _ => takes_bind (stays_setFld_radio hr rfl) fun _ =>
      stays_emit (freePage_of_radio hr (by decide))) fun _ => stays_pure _
  exact takes_ite (fun _ => takes_bind (stays_modDev fun _ => rfl) fun _ => h) fun _ => h

/-- Where nothing but a carrier transmits LINK_STAT.TXQ is 0, what it shows when it is clear. -/
theorem stays_dropJob {id : Nat} (hi : p.seen = Seen.Idle prog) : (dropJob id).Stays s₀ p := by
  refine takes_getS fun s hs => ?_
  have hj : ∀ j ∈ s.jobs, j.kind = .carrier := (hi ▸ hs.seen : Seen.Idle prog s.dev.seen).jobs
  have hl : ∀ j ∈ s.jobs.filter fun j => j.id != id, j.kind = .carrier := fun j h => hj j (List.mem_filter.mp h).1
  generalize s.jobs.filter (fun j => j.id != id) = l at hl
  have hq : l.filter TxJob.queued = [] := by
    rw [List.filter_eq_nil_iff]
    intro j h
    simp [TxJob.queued, hl j h]
  refine takes_bind (q := p) (takes_modDev (S := p.seen) ?_) fun _ => ?_
  · rw [hi]
    rintro d ⟨h1, _, h3⟩
    exact ⟨h1, hl, h3⟩
  · rw [hq]
    exact stays_setFld_same (by decide) (by decide +kernel)

theorem stays_cutAir {st : Nat} (hi : p.seen = Seen.Idle prog) (hr : p.radio = false) : (cutAir st).Stays s₀ p := by
  refine takes_getS fun s hs => ?_
  have hj : ∀ j ∈ s.jobs, j.kind = .carrier := (hi ▸ hs.seen : Seen.Idle prog s.dev.seen).jobs
  cases ha : s.onAir with
  | none => exact stays_pure _
  | some j =>
    refine takes_bind (stays_setTxActive hr) fun _ => ?_
    rw [if_pos (hj j (List.mem_of_find?_eq_some ha))]
    exact takes_bind (stays_setFld_radio hr rfl) fun _ => takes_bind (stays_dropJob hi) fun _ => stays_pure _

/-! ### The radio -/

theorem stays_modRadio {f : Radio → Radio} : (modRadio f).Stays s₀ p := stays_modDev fun _ => rfl

theorem stays_setIdle : setIdle.Stays s₀ p :=
  takes_getS fun _ _ => takes_bind (stays_setFld_kept (by decide)) fun _ => stays_setFld_kept (by decide)

theorem stays_setBusy {goal : Nat} : (setBusy goal).Stays s₀ p :=
  takes_bind (stays_setFld_kept (by decide)) fun _ => stays_setFld_kept (by decide)

theorem stays_enterState {st : Nat} : (enterState st).Stays s₀ p :=
  takes_bind (stays_setFld_kept (by decide)) fun _ => takes_getS fun _ _ => stays_modRadio

theorem stays_setLock {b : Bool} (hr : p.radio = false) : (setLock b).Stays s₀ p :=
  takes_bind (stays_setFld_radio hr rfl) fun _ => stays_setFld_radio hr rfl

theorem stays_reqDone {q : RadioReq} {st : Nat} (hr : p.radio = false) : (reqDone q st).Stays s₀ p :=
  takes_getS fun _ _ => takes_bind (stays_setFld_radio hr rfl) fun _ =>
    takes_bind (stays_setFld_radio hr rfl) fun _ => stays_emit (freePage_of_radio hr (by decide))

theorem stays_waitingCut {st : Nat} (hr : p.radio = false) : (waitingCut st).Stays s₀ p := by
  refine takes_getS fun s _ => ?_
  cases s.dev.radio.waiting with
  | none => exact stays_nop
  | some q => exact takes_bind stays_modRadio fun _ => stays_reqDone hr

theorem stays_walkCut {st : Nat} (hr : p.radio = false) : (walkCut st).Stays s₀ p := by
  refine takes_getS fun s _ => ?_
  cases s.dev.radio.walk with
  | none => exact stays_nop
  | some w =>
    refine takes_bind stays_modRadio fun _ => takes_bind (stays_setFld_radio hr rfl) fun _ => ?_
    cases w.req with
    | none => exact stays_nop
    | some q => exact stays_reqDone hr

/-- A step of a walk downwards, which tunes nothing (R42, R91). -/
theorem stays_stepStart {next goal : Nat} {retune : Bool} {req : Option RadioReq} (hi : p.seen = Seen.Idle prog)
    (hr : p.radio = false) (hn : next < 2) : (stepStart next goal retune req).Stays s₀ p := by
  refine takes_getS fun s _ => ?_
  have ht : (next == 2 && (s.radio == 1 || (s.radio == 2 && retune))) = false := by
    simp only [Bool.and_eq_false_iff, beq_eq_false_iff_ne]
    exact .inl (by omega)
  simp only [ht, if_pos hn, Bool.false_eq_true, if_false]
  refine takes_ite (fun _ => takes_bind (stays_lanesOff hi hr) fun _ => ?_) fun _ => ?_
  all_goals exact takes_bind (stays_setLock hr) fun _ => takes_bind (stays_pure _) fun _ =>
    takes_bind stays_setBusy fun _ => stays_modRadio

/-- Taking the radio down at once (R43). -/
theorem stays_radioCut {goal : Nat} (hi : p.seen = Seen.Idle prog) (hr : p.radio = false) :
    (radioCut goal none).Stays s₀ p := by
  refine takes_bind (stays_waitingCut hr) fun _ => takes_getS fun s _ => takes_bind (stays_walkCut hr) fun _ =>
    takes_bind (stays_cutAir hi hr) fun _ => takes_bind stays_modRadio fun _ => takes_getS fun t _ => ?_
  refine takes_ite (fun _ => stays_setIdle) fun _ =>
    takes_ite (fun _ => takes_bind stays_setIdle fun _ => stays_nop) fun _ => stays_stepStart hi hr ?_
  split <;> omega

/-- The radio is off at once (R27). -/
theorem stays_radioOff {st : Nat} (hi : p.seen = Seen.Idle prog) (hr : p.radio = false) : (radioOff st).Stays s₀ p :=
  takes_bind (stays_cutAir hi hr) fun _ => takes_bind (stays_lanesOff hi hr) fun _ => takes_bind stays_modRadio fun _ =>
    takes_bind (stays_setLock hr) fun _ => takes_bind stays_enterState fun _ => stays_setIdle

/-! ### What shows OTP, and the scheduler -/

theorem stays_showExt : showExt.Stays s₀ p :=
  takes_getS fun _ _ => takes_bind (stays_wr (free_of_kept (by decide))) fun _ => stays_wr (free_of_kept (by decide))

theorem stays_showIdentity : showIdentity.Stays s₀ p :=
  takes_getS fun _ _ => takes_bind stays_showExt fun _ => takes_bind (stays_setFld_kept (by decide)) fun _ =>
    takes_bind (stays_setFld_kept (by decide)) fun _ => takes_bind (stays_setFld_kept (by decide)) fun _ =>
    takes_bind (stays_setFld_kept (by decide)) fun _ => stays_setFld_kept (by decide)

theorem stays_showLifecycle : showLifecycle.Stays s₀ p :=
  takes_getS fun _ _ => takes_bind (stays_setFld_kept (by decide)) fun _ => stays_setFld_kept (by decide)

theorem stays_loadProfiles : loadProfiles.Stays s₀ p := by
  have hprof : ∀ k < 4, ∀ w < 4, TXP_PROF k w ∈ resetKept := by decide
  refine takes_getS fun s _ => takes_bind (stays_forAll fun k hk => stays_forAll fun w hw =>
    stays_wr (free_of_kept (hprof k (List.mem_range.mp hk) w (List.mem_range.mp hw)))) fun _ => ?_
  cases s.dev.radio.profLatch with
  | none => exact stays_nop
  | some k => exact takes_bind (stays_setFld_kept (by decide)) fun _ => stays_setFld_kept (by decide)

theorem stays_loadKeys : loadKeys.Stays s₀ p :=
  takes_bind (stays_modDev fun _ => rfl) fun _ => takes_getS fun _ _ => stays_forAll fun _ _ => stays_modDev fun _ => rfl

theorem stays_carryMake : carryMake.Stays s₀ p :=
  takes_getS fun _ _ => takes_ite (fun _ => takes_bind (stays_modDev fun _ => rfl) fun _ =>
    stays_setFld_kept (by decide)) fun _ => stays_pure _

/-- Windows that close start no clock (R372). -/
theorem linkClock_of_shut {s t : State} {x : Samp} (hd : t.dev = { s.dev with samp := x }) (hx : x.holds = false)
    (ht : t.linkClock = true) : s.linkClock = true := by
  rw [State.linkClock, hd] at ht
  rw [State.linkClock]
  simp only [hx] at ht
  cases hp : s.dev.pwr.state <;> simp_all

theorem ResetStage.clears_of_link {a : Nat} (hl : p.link = true) (ha : inLink a = true) (hk : a ∉ resetKept) :
    p.clears a = true := by
  simp [ResetStage.clears, hl, ha, hk]

/-- Lanes that are clear are off and stay so while LANES is disabled (R77, R190). -/
theorem stays_lanesFit (hl : p.link = true) : lanesFit.Stays s₀ p := by
  have hoff : ∀ n < 4, bitsGet (resetWord LANES_STAT) (4 * n + 3) (4 * n) = laneOff := by decide +kernel
  refine takes_getS fun s hs => takes_ite (fun _ => stays_forAll fun n hn => ?_) fun _ => stays_pure _
  have hen : s.en lanesPage = false := by
    rw [State.en, State.bit, State.fld, hs.regs _ (ResetStage.clears_of_link hl rfl (by decide))]
    decide +kernel
  have hst : s.laneState n = laneOff := by
    rw [State.laneState, State.fld, hs.regs LANES_STAT (ResetStage.clears_of_link hl rfl (by decide))]
    exact hoff n (List.mem_range.mp hn)
  rw [if_neg (by simp [State.laneOn, State.laneUp, hen]), if_neg (by simp [hst])]
  exact stays_nop

/-- Windows close, none is left (R190, R206). -/
theorem stays_setWin {f : Samp → Samp} (hl : p.link = true) (hf : ∀ x, (f x).holds = false) : (setWin f).Stays s₀ p := by
  refine ⟨fun s hs => gives_bind (gives_getS (gives_bind (gives_act (gives_bind (gives_getS ?_)))))⟩
  generalize ht : Prim.run _ s = t
  have hstage : s₀.AtStage p t := ht ▸ hs.live (s.within_dev _) hs.seen hs.core
  have hdev : t.dev = { s.dev with samp := f s.dev.samp } := by rw [← ht]; rfl
  have hclock : (!s.linkClock && t.linkClock) = false := by
    cases h : t.linkClock
    · simp
    · simp [linkClock_of_shut hdev (hf _) h]
  refine (takes_bind (stays_setFld_ao rfl) fun _ => ?_ : M.Stays s₀ p _).all t hstage
  simp only [hclock, Bool.false_eq_true, if_false]
  exact takes_ite (fun _ => takes_bind stays_carryMake fun _ => stays_lanesFit hl) fun _ => stays_lanesFit hl

theorem stays_sampStop (hl : p.link = true) : sampStop.Stays s₀ p :=
  takes_bind (stays_setWin hl fun _ => rfl) fun _ => takes_bind (stays_setFld_ao rfl) fun _ =>
    stays_setFld_ao rfl

end Sys2Proof.Machine
end

section
/-!
A start reset from one end to the other: the link region, the radio die, the main region, the cause; and the lockup that
begins one.
-/
namespace Sys2Proof.Machine
open Sys2Proof.Reg

variable {α β : Type} {s₀ : State} {p q r : ResetStage} {prog : Option Prog}

/-- A part that is done where it is called for, and then the rest. -/
theorem takes_when {c : Prop} [Decidable c] {m : M Unit} {f : Unit → M β} (hm : c → m.Stays s₀ p)
    (hf : ∀ x, (f x).Takes s₀ p q) : (if c then m >>= f else f ()).Takes s₀ p q :=
  takes_ite (fun hc => takes_bind (hm hc) hf) fun _ => hf ()

/-! ### The link region (R23) -/

/-- Before a start reset: the PROGRAM as it stands. -/
def stageBegun (prog : Option Prog) : ResetStage := { seen := fun v => v.prog = prog }

/-- The tables that a link-region reset clears. -/
def linkTabs (x : Tab) : Bool := ((false || decide (x = .peer)) || decide (x = .seen)) || decide (x = .cox)

/-- After a link-region reset (R23). -/
def stageLink (prog : Option Prog) : ResetStage :=
  { link := true, cells := true, tabs := linkTabs, seen := Seen.Idle prog }

/-- The registers of a region are cleared, with what goes with them. -/
theorem takes_clearPages {g : Nat → Bool} {l r m : Bool} (hr : ∀ a, pageOf a = rtcPage → g a = false)
    (h : ∀ a, ({ p with link := l, radio := r, main := m } : ResetStage).clears a = true → g a = false → p.clears a = true) :
    (clearPages g).Takes s₀ p { p with link := l, radio := r, main := m } :=
  takes_bind (takes_regClear hr h) fun _ => stays_modDev fun _ => rfl

theorem takes_clearLink : (clearPages inLink).Takes s₀ p { p with link := true } :=
  takes_clearPages (fun a h => by have := rtc_bounds h; simp [inLink]; omega) fun _ h hg => by
    simpa [ResetStage.clears, hg] using h

theorem takes_clearRadio : (clearPages inRadio).Takes s₀ p { p with radio := true } :=
  takes_clearPages (fun a h => by have := rtc_bounds h; simp [inRadio]; omega) fun _ h hg => by
    simpa [ResetStage.clears, hg] using h

theorem takes_clearMain : (clearPages fun a => inMain a || inPrivate a).Takes s₀ p { p with main := true } :=
  takes_clearPages (fun a h => by have := rtc_bounds h; simp [inMain, inPrivate]; omega) fun _ h hg => by
    simpa [ResetStage.clears, hg] using h

/-- The transmissions but for a carrier, the frames at the lanes and what the host port waits for go (R23). -/
theorem takes_idle {l : List TxJob} {f : Dev → Dev} (hl : ∀ j ∈ l, j.kind = .carrier)
    (hf : ∀ d, (f d).seen = { d.seen with jobs := l, lanes := [] }) :
    (modDev f).Takes s₀ (stageBegun prog) { seen := Seen.Idle prog } := by
  refine takes_modDev fun d hd => ?_
  rw [hf]
  exact ⟨hd, hl, fun n => rfl⟩

theorem takes_linkRegionReset : linkRegionReset.Takes s₀ (stageBegun prog) (stageLink prog) := by
  refine takes_getS fun s _ => takes_when (fun _ => stays_carryMake) fun _ =>
    takes_when (fun _ => stays_setTxActive rfl) fun _ =>
    takes_bind (takes_idle (l := s.jobs.filter fun j => j.kind == .carrier) ?_ fun _ => rfl) fun _ =>
    takes_bind (stays_setFld_kept (by decide)) fun _ => takes_bind stays_setBlank fun _ =>
    takes_bind (stays_setFld_radio rfl rfl) fun _ => ?_
  · exact fun j hj => by simpa using (List.mem_filter.mp hj).2
  refine takes_ite (fun _ => takes_when (fun _ => stays_radioCut rfl rfl) fun _ => ?_) fun _ => ?_
  all_goals
    exact takes_bind takes_clearLink fun _ => takes_bind stays_showIdentity fun _ =>
      takes_bind (takes_memClear fun _ => rfl) fun _ => takes_bind takes_tabClear fun _ => takes_bind takes_tabClear fun _ =>
      takes_bind (r := stageLink prog) takes_tabClear fun _ => takes_bind (stays_sampStop rfl) fun _ =>
      takes_bind (stays_modDev fun _ => rfl) fun _ => takes_getS fun _ _ => stays_setFld_kept (by decide)

/-! ### The radio die (R27) -/

/-- After a radio-die reset that follows the link region's. -/
def stageRadio (prog : Option Prog) : ResetStage :=
  { link := true, radio := true, cells := true, tabs := fun x => linkTabs x || decide (x = .bow), seen := Seen.Idle prog }

theorem takes_radioDieReset : radioDieReset.Takes s₀ (stageLink prog) (stageRadio prog) :=
  takes_getS fun _ _ => takes_bind (stays_radioOff rfl rfl) fun _ => takes_bind stays_modRadio fun _ =>
    takes_bind (stays_modDev fun _ => rfl) fun _ =>
    takes_bind takes_clearRadio fun _ =>
    takes_bind (stays_setFld_kept (by decide)) fun _ => takes_bind (q := stageRadio prog) takes_tabClear fun _ =>
    takes_bind stays_loadProfiles fun _ => takes_bind stays_showIdentity fun _ => takes_bind stays_enterState fun _ =>
    stays_setIdle

/-! ### On-chip flash (R289–R291) -/

/-- No PROGRAM goes on. -/
def Seen.Ended (v : Seen) : Prop := ∀ x, v.prog = some x → x.ended = true

/-- Nothing is to be done for a fact that follows. -/
theorem takes_nop {S : Seen → Prop} (h : ∀ v, p.seen v → S v) : M.Takes s₀ p { p with seen := S } nop :=
  ⟨fun _ hs => gives_nop (hs.live (State.within_refl _ _) (h _ hs.seen) hs.core)⟩

theorem stays_putBytes {a : Nat} {l : List Byte} (h : ∀ i < l.length, cellMem (a + i) = false ∧ s₀.progMem (a + i) = true) :
    (putBytes a l).Stays s₀ p := by
  induction l generalizing a with
  | nil => exact stays_nop
  | cons b l ih =>
    have h0 := h 0 (by simp)
    refine takes_bind (stays_mem h0.1 h0.2) fun _ => ih fun i hi => ?_
    have := h (i + 1) (by simpa using hi)
    rwa [Nat.add_assoc, Nat.add_comm 1 i]

theorem stays_freeByte : M.Stays s₀ p freeByte := takes_bind stays_freeNat fun _ => stays_pure _

theorem gives_freeBytes {n : Nat} {s : State} (hs : s₀.AtStage p s) :
    (freeBytes n).Gives s fun l t => l.length = n ∧ s₀.AtStage p t := by
  induction n generalizing s with
  | zero => exact gives_pure ⟨rfl, hs⟩
  | succ n ih =>
    refine gives_bind ((stays_freeByte.all s hs).mono fun b t ht => ?_)
    refine gives_bind ((ih ht).mono ?_)
    rintro l u ⟨hl, hu⟩
    exact gives_pure ⟨by simp [hl], hu⟩

theorem stays_spoilUnit {a : Nat} (h : ∀ i < 16, cellMem (a + i) = false ∧ s₀.progMem (a + i) = true) :
    (spoilUnit a).Stays s₀ p := by
  refine ⟨fun s hs => gives_bind ((gives_freeBytes hs).mono ?_)⟩
  rintro l t ⟨hl, ht⟩
  refine (takes_bind stays_freeNat fun k => takes_bind (stays_putBytes (hl ▸ h)) fun _ => ?_ : M.Stays s₀ p _).all t ht
  exact takes_ite (fun _ => stays_modDev fun _ => rfl) fun _ => stays_pure _

/-- The unit that a PROGRAM is to write lies in on-chip flash, whole where both its ends do (R275, R291). -/
theorem progMem_unit {s : State} {x : Prog} {i : Nat} (hx : s.dev.flash.prog = some x)
    (h0 : s.progMem (x.dst + 16 * x.done) = true) (h15 : s.progMem (x.dst + 16 * x.done + 15) = true) (hi : i < 16) :
    cellMem (x.dst + 16 * x.done + i) = false ∧ s.progMem (x.dst + 16 * x.done + i) = true := by
  simp only [State.progMem, hx, Bool.and_eq_true, decide_eq_true_eq, cellMem, Bool.and_eq_false_iff,
    decide_eq_false_iff_not] at *
  obtain ⟨⟨he, h1⟩, h2⟩ := h0
  exact ⟨by omega, ⟨he, by omega⟩, by omega⟩

theorem progMem_congr {s t : State} (h : t.dev.flash.prog = s.dev.flash.prog) (a : Nat) : t.progMem a = s.progMem a := by
  rw [State.progMem, h, State.progMem]

/-- A PROGRAM is cut off (R291). -/
theorem takes_progCut (hp : ∀ v, p.seen v → v.prog = s₀.dev.flash.prog) (hm : p.main = false) :
    progCut.Takes s₀ p { p with seen := Seen.Ended } := by
  refine takes_getS fun s hs => ?_
  have hprog : s.dev.flash.prog = s₀.dev.flash.prog := hp _ hs.seen
  cases hx : s.dev.flash.prog with
  | none =>
    refine takes_nop fun v hv x h => ?_
    rw [hp v hv, ← hprog, hx] at h
    cases h
  | some x =>
    refine takes_ite (fun _ => ?_) fun he => takes_nop fun v hv y hy => ?_
    · have hunit {i : Nat} (hi : i < 16)
          (h : (s.progMem (x.dst + 16 * x.done) && s.progMem (x.dst + 16 * x.done + 15)) = true) :
          cellMem (x.dst + 16 * x.done + i) = false ∧ s₀.progMem (x.dst + 16 * x.done + i) = true := by
        rw [← progMem_congr hprog]
        rw [Bool.and_eq_true] at h
        exact progMem_unit hx h.1 h.2 hi
      have hrest : M.Takes s₀ p { p with seen := Seen.Ended } (do
          setFld FLASHC_STAT_STATE x.was
          modFlash fun f => { f with prog := some { x with ended := true } }) :=
        takes_bind (stays_setFld (free_of_main hm rfl)) fun _ => takes_modDev fun d _ y hy => by
          rw [← Option.some_inj.mp hy]
      refine takes_bind stays_freeNat fun k => takes_ite (fun h => takes_ite (fun _ => ?_) fun _ =>
        takes_when (fun _ => stays_spoilUnit fun i hi => hunit hi h) fun _ => hrest) fun _ => hrest
      refine takes_bind (stays_putBytes fun i hi => hunit (by simpa [State.bytes] using hi) h) fun _ => hrest
    · rw [hp v hv, ← hprog, hx] at hy
      rw [← Option.some_inj.mp hy]
      simpa using he

/-- An erase under way is torn, a PROGRAM cut off (R289–R291). -/
theorem takes_flashTear (hp : ∀ v, p.seen v → v.prog = s₀.dev.flash.prog) (hm : p.main = false) :
    flashTear.Takes s₀ p { p with seen := Seen.Ended } := by
  refine takes_bind (takes_progCut hp hm) fun _ => takes_getS fun s _ =>
    takes_when (fun _ => stays_modDev fun _ => rfl) fun _ => ?_
  cases s.dev.flash.owed with
  | none => exact takes_bind stays_nop fun _ => stays_modDev fun _ => rfl
  | some o => exact takes_bind (stays_modDev fun _ => rfl) fun _ => stays_modDev fun _ => rfl

/-! ### The Stroke core (R241) -/

/-- The core at the ROM's entry, its cache empty (R241). -/
def Core.AtEntry (c : Core) : Prop := c.pc = 0 ∧ c.st = 0x801 ∧ c.vbase = 0 ∧ c.icache = []

/-- The core's reset, where a PROGRAM no longer goes on. -/
theorem takes_coreReset (hp : ∀ v, p.seen v → v.Ended) (hs : ∀ v, p.seen v → p.seen { v with prog := none }) :
    coreReset.Takes s₀ p { p with core := Core.AtEntry } := by
  have hentry {f : Core → Core}
      (hf : ∀ c, (f c).pc = c.pc ∧ (f c).st = c.st ∧ (f c).vbase = c.vbase ∧ (f c).icache = c.icache) :
      (modCore f).Stays s₀ { p with core := Core.AtEntry } := by
    refine takes_modCore (C := Core.AtEntry) fun c ⟨h1, h2, h3, h4⟩ => ?_
    obtain ⟨e1, e2, e3, e4⟩ := hf c
    exact ⟨by rw [Core.norm, e1, h1]; rfl, by rw [Core.norm, e2, h2]; rfl, by rw [Core.norm, e3, h3]; rfl, e4.trans h4⟩
  have hcut : progCut.Stays s₀ { p with core := Core.AtEntry } := by
    refine takes_getS fun s hs => ?_
    cases hx : s.dev.flash.prog with
    | none => exact stays_nop
    | some x =>
      have he : x.ended = true := hp _ hs.seen x hx
      exact takes_ite (fun h => absurd he (by simpa using h)) fun _ => stays_pure _
  have hst : (0x801 : Word) &&& stMask = 0x801 := by decide
  exact takes_bind (takes_modCore (C := Core.AtEntry) fun _ _ => ⟨BitVec.zero_and, hst, BitVec.zero_and, rfl⟩) fun _ =>
    takes_bind hcut fun _ =>
    takes_bind (takes_modDev (S := p.seen) fun d hd => hs _ hd) fun _ =>
    takes_bind (stays_forAll fun _ _ => takes_bind stays_freeWord fun _ => hentry fun _ => ⟨rfl, rfl, rfl, rfl⟩) fun _ =>
    takes_bind stays_freeWord fun _ => takes_bind stays_freeWord fun _ => takes_bind stays_freeWord fun _ =>
    takes_bind stays_freeWord fun _ => takes_bind (hentry fun _ => ⟨rfl, rfl, rfl, rfl⟩) fun _ =>
    takes_bind (stays_modDev fun _ => rfl) fun _ => stays_modDev fun _ => rfl

/-! ### The main region (R33) -/

theorem stays_setRlyBusy {b : Bool} : (setRlyBusy b).Stays s₀ p :=
  takes_bind (stays_setFld_ao rfl) fun _ => stays_setFld_kept (by decide)

theorem stays_endPulse {cut : Bool} (hm : p.main = false) : (endPulse cut).Stays s₀ p :=
  takes_getS fun _ _ => takes_ite (fun _ => takes_when (fun _ => stays_count) fun _ =>
    takes_bind (stays_modDev fun _ => rfl) fun _ =>
    takes_bind stays_setRlyBusy fun _ => stays_emit (freePage_of_main hm (by decide))) fun _ => stays_pure _

theorem stays_putBack {s : State} {l : List Fld} (h : ∀ f ∈ l, p.Free f.addr) : (putBack (s.keep l)).Stays s₀ p :=
  stays_forAll fun x hx => by
    obtain ⟨f, hf, rfl⟩ := List.mem_map.mp hx
    exact stays_setFld (h f hf)

theorem stays_statsClear : statsClear.Stays s₀ p :=
  takes_bind (stays_modDev fun _ => rfl) fun _ => takes_bind (stays_modDev fun _ => rfl) fun _ => takes_getS fun _ _ =>
    stays_modDev fun _ => rfl

/-- What a channel of the Rigger that is not locked loses lies outside the RTC domain (R33). -/
theorem rigLoses_of_rtc {s : State} {a : Nat} (h : pageOf a = rtcPage) : s.rigLoses a = false := by
  have := rtc_bounds h
  simp only [State.rigLoses, List.any_eq_false, List.mem_range, rigRegs, RIGGER_SRC, RIGGER_TASK, Bool.and_eq_true,
    Bool.or_eq_true, beq_iff_eq]
  rintro k hk ⟨_, rfl | rfl⟩ <;> omega

theorem stays_rigLose {s : State} : M.Stays s₀ p (act (.regClear s.rigLoses)) :=
  takes_regClear (l := p.link) (r := p.radio) (m := p.main) (fun _ h => rigLoses_of_rtc h) fun _ h _ => h

theorem stays_rigOff {n : Nat} (hn : n < 64) : M.Stays s₀ p (do
    setRigOn n false
    setFld ⟨RIGGER_STORM (n / 32), n % 32, n % 32⟩ 0) := by
  have hao : ∀ k < 2, inAo (RIGGER_EN k) = true ∧ inAo (RIGGER_STORM k) = true := by decide
  obtain ⟨he, hs⟩ := hao (n / 32) (by omega)
  exact takes_bind (stays_setFld (free_of_ao he)) fun _ => stays_setFld (free_of_ao hs)

/-- After the main region's clearing: every region is clear, and the ROM's start sequence is next. -/
def stageMain (p : ResetStage) : ResetStage :=
  { p with main := true, seen := fun v => v.Ended ∧ v.phase = .rom, core := Core.AtEntry }

theorem takes_mainClear (hp : ∀ v, p.seen v → v.prog = s₀.dev.flash.prog) (hm : p.main = false) :
    mainClear.Takes s₀ p (stageMain p) := by
  refine takes_getS fun s _ => takes_bind (stays_endPulse hm) fun _ => takes_bind (takes_flashTear hp hm) fun _ =>
    takes_bind takes_clearMain fun _ => takes_bind (stays_putBack ?_) fun _ =>
    takes_bind (stays_setFld_kept (by decide)) fun _ => takes_bind stays_rigLose fun _ =>
    takes_bind (stays_forAll fun n hn => stays_rigOff (List.mem_range.mp (List.mem_filter.mp hn).1)) fun _ =>
    takes_bind (takes_modDev (S := fun v => v.Ended ∧ v.phase = .rom) fun _ h => ⟨h, rfl⟩) fun _ => takes_getS fun _ _ =>
    takes_bind stays_setRlyBusy fun _ => takes_bind stays_statsClear fun _ =>
    takes_bind (takes_coreReset (fun _ h => h.1) fun v h => ⟨fun _ h => (by cases h), h.2⟩) fun _ =>
    takes_bind stays_showIdentity fun _ => takes_bind stays_showLifecycle fun _ => stays_loadKeys
  simp only [List.mem_cons, List.not_mem_nil, or_false, forall_eq_or_imp, forall_eq]
  exact ⟨free_of_kept (by decide), free_of_kept (by decide)⟩

/-! ### The whole of it (R32, R260, R413) -/

theorem stays_clocksDefault : clocksDefault.Stays s₀ p :=
  takes_bind (stays_setFld_ao rfl) fun _ => takes_bind (stays_setFld_ao rfl) fun _ =>
    takes_bind (stays_setFld_ao rfl) fun _ => takes_bind (stays_setFld_ao rfl) fun _ =>
    takes_bind (stays_setFld_ao rfl) fun _ => takes_bind (stays_setFld_ao rfl) fun _ =>
    stays_modDev fun _ => rfl

theorem stays_rstCause {cause : Nat} : (rstCause cause).Stays s₀ p :=
  takes_bind (stays_setFld_kept (show SYS_RSTCAUSE ∈ resetKept by decide)) fun _ =>
    stays_setFld_kept (by decide)

/-- The causes that have a bit of SYS_RSTCAUSE show it, and their code (R413). -/
theorem gives_rstCause {cause : Nat} {s : State} (h : cause < 7) :
    (rstCause cause).Gives s fun _ t => t.fld SYS_RSTCAUSE_LAST = cause ∧ t.bit ⟨SYS_RSTCAUSE, cause, cause⟩ = true := by
  have hbit : ∀ c < 7, bitsGet (BitVec.ofNat 32 (maskOf SYS_RSTCAUSE)) c c = 2 ^ (c - c + 1) - 1 := by decide +kernel
  have hfull : Fld.Full ⟨SYS_RSTCAUSE, cause, cause⟩ := ⟨Nat.le_refl _, by simp only; omega, hbit cause h⟩
  have hlast : Fld.Full SYS_RSTCAUSE_LAST := ⟨by decide, by decide, by decide +kernel⟩
  refine gives_bind (gives_setFld (gives_setFld ⟨?_, ?_⟩))
  · rw [State.fld_put_same hlast]
    exact Nat.mod_eq_of_lt (by simp only; omega)
  · rw [State.bit, State.fld_put_apart hlast hfull _ fun _ => ?_, State.fld_put_same hfull]
    · simp
    · exact .inl (by simp only; omega)

/-- The last stage of a start reset, with its cause shown, is what R33 and R413 say of one. -/
theorem State.AtStage.startReset {t : State} {cause : Nat} (h : s₀.AtStage (stageMain (stageRadio s₀.dev.flash.prog)) t)
    (hl : t.fld SYS_RSTCAUSE_LAST = cause) (hb : t.bit ⟨SYS_RSTCAUSE, cause, cause⟩ = true) : s₀.StartReset t cause := by
  obtain ⟨hpc, hst, hvb, hic⟩ := h.core
  have hkept : ∀ a ∈ resetKept,
      (inMain a = true → a ∈ [SYS_RSTCAUSE, SYS_BOOTINFO, LUM_STAT, LUM_MCNT] ++ otpShown) ∧ inPrivate a = false ∧
      (inLink a = true → a ∈ NTIME_STAT :: otpShown) ∧ (inRadio a = true → a ∈ [RCTL_STAT, TXP_CFG] ++ otpShown) := by
    decide
  refine ⟨hpc, hst, hvb, hic, hl, hb, fun a ha hk => h.regs a ?_, fun a ha _ => h.regs a ?_, fun a ha hk => h.regs a ?_,
    fun a ha hk => h.regs a ?_, h.cells rfl, fun x => h.tabs x (by cases x <;> rfl), h.rtc, h.mem, h.otp, h.bad, h.seen.2⟩
  all_goals simp only [ResetStage.clears, stageMain, stageRadio, ha, Bool.and_eq_true, decide_eq_true_eq]
  · exact ⟨by simp, fun h => hk ((hkept a h).1 ha)⟩
  · exact ⟨by simp, fun h => by simp [(hkept a h).2.1] at ha⟩
  · exact ⟨by simp, fun h => hk ((hkept a h).2.2.1 ha)⟩
  · exact ⟨by simp, fun h => hk ((hkept a h).2.2.2 ha)⟩

/-- A start reset from any state leaves what R33 and R413 say of it. -/
theorem gives_startReset {cause : Nat} {s : State} (h : cause < 7) (hs : s₀.AtStage (stageBegun s₀.dev.flash.prog) s) :
    (startReset cause).Gives s fun _ t => s₀.StartReset t cause := by
  refine gives_bind ((takes_linkRegionReset.all s hs).mono fun _ t ht => gives_bind ((takes_radioDieReset.all t ht).mono
    fun _ u hu => gives_bind (((takes_mainClear (fun _ => Seen.Idle.prog) rfl).all u hu).mono fun _ v hv =>
      gives_bind ((stays_clocksDefault.all v hv).mono fun _ w hw => ?_))))
  refine ((stays_rstCause.all w hw).and (gives_rstCause h)).mono ?_
  rintro _ x ⟨hx, hl, hb⟩
  exact hx.startReset hl hb

/-- An exception while HOLD is 1 is a lockup: its record, and the start reset (R260). -/
theorem gives_raise_hold {c : Cause} {xpc : Word} {s : State} (hhold : bitOf s.core.st.toNat 6 = true)
    (hs : s₀.AtStage (stageBegun s₀.dev.flash.prog) s) :
    (raise c xpc none).Gives s fun _ t => s₀.StartReset t rstLockup := by
  refine gives_bind (gives_getS ?_)
  rw [if_pos hhold]
  exact gives_bind (gives_getS (gives_bind ((stays_stage.all s hs).mono fun _ _ ht => gives_startReset (by decide) ht)))

theorem State.StartReset.latch {s t u : State} {cause : Nat} (h : s.StartReset t cause) :
    s.StartReset (latchEdges u t) cause := by
  obtain ⟨h1, h2, h3, h4, h5, h6, h7, h8, h9, h10, h11, h12, h13, h14, h15, h16, h17⟩ := h
  exact ⟨h1, h2, h3, h4, h5, h6, h7, h8, h9, h10, h11, fun x i => by rw [latchEdges_word]; exact h12 x i, h13, h14, h15,
    h16, h17⟩

/-- An instruction that stops has changed nothing that a start reset looks at. -/
theorem State.Stopped.atStage {s u : State} (h : s.Stopped u) : s.AtStage (stageBegun s.dev.flash.prog) u where
  regs a ha := by simp [stageBegun, ResetStage.clears] at ha
  rtc a ha := by
    have hperf : ∀ r ∈ (evRegs intcPage).tail, pageOf r ≠ rtcPage := by decide
    exact h.within.regs a (decide_eq_false fun hr => hperf a hr ha)
  cells hz := by simp [stageBegun] at hz
  mem a _ _ := h.within.mem a rfl
  tabs x hx := by simp [stageBegun] at hx
  otp := h.within.otp rfl
  bad := h.within.bad rfl
  seen := by rw [stageBegun, Dev.seen, h.dev]
  core := trivial

end Sys2Proof.Machine
end

section
/-!
RETX (R246, R259): back to an aligned XPC, ALIGN from another, and a lockup where HOLD is 1.
-/
namespace Sys2Proof.Machine
open Sys2Proof.Reg

/-- A privileged instruction in SYS mode (R240). -/
theorem gives_sysOnly {s : State} {body : M Done} {Q : Done → State → Prop} (h : s.sysMode = true) (hb : body.Gives s Q) :
    (sysOnly body).Gives s Q := by
  refine gives_bind (gives_getS ?_)
  rwa [if_pos h]

/-- RETX from an aligned XPC (R259). -/
theorem completes_retx_aligned {s : State} (o : SpcOps) (h : s.Ready) (hm : s.sysMode = true) (hs : s.core.slot = none)
    (hx : s.core.xpc.toNat % 4 = 0) :
    Completes (.retx o) s fun t =>
      t.core.pc = s.core.xpc ∧ t.core.st = s.core.xst &&& stMask ∧ t.core.xpc = s.core.xpc ∧ t.core.xst = s.core.xst ∧
        (∀ k, t.g k = s.g k) ∧ s.Within coreFoot t := by
  refine completes_cmd rfl (gives_insn h (.inr hs) fun u hu hui => ?_)
  generalize hv : Prim.run _ u = v
  have hvi : v.Inv := hv ▸ Prim.run_inv _ _ hui
  have hvc : v.core = { s.core with insn := true } := by
    rw [← hv, Prim.run_core_core, hu.core]
    exact Core.norm_of_legal (h.inv.core.insn true)
  have hvw : s.Within coreFoot v := hv ▸ hu.within.trans (State.within_coreFoot _ _)
  refine gives_sysOnly (by rw [State.sysMode, hvc]; exact hm) (gives_bind (gives_getS ?_))
  rw [hvc, if_neg fun h => h hx]
  refine gives_bind ((gives_cyc hvi).mono ?_)
  rintro _ w ⟨⟨x, hwc⟩, _, _, _, hww⟩
  have hcore : (Prim.run (.core fun c => { c with st := c.xst }) w).core =
      { s.core with insn := true, cycle := x, st := s.core.xst &&& stMask } := by
    obtain ⟨hpc, _, hvb⟩ := h.inv.core
    rw [Prim.run_core_core, hwc, hvc, Core.norm]
    simp only [hpc, hvb]
  have hw : s.Within coreFoot (Prim.run (.core fun c => { c with st := c.xst }) w) :=
    (hvw.trans hww).trans (State.within_coreFoot _ _)
  refine gives_bind (gives_act (gives_pure ⟨by rw [hcore], ?_, ?_, _, rfl, fun t htc htw _ => ?_⟩))
  · rw [State.en, State.bit, State.fld, hw.regs _ (by decide)]
    exact h.noSample
  · rintro _ ⟨⟩
    exact (aligned_iff _).mpr hx
  · simp only [hcore, Core.retired, hs] at htc
    exact ⟨by rw [latchEdges_core, htc], by rw [latchEdges_core, htc], by rw [latchEdges_core, htc],
      by rw [latchEdges_core, htc], fun k => by rw [latchEdges_g, State.g, htc, State.g], (hw.trans htw).latch⟩

/-- RETX from an XPC that is not a multiple of 4 raises ALIGN with FADDR = XPC (R259). -/
theorem completes_retx_misaligned {s : State} {P : State → Prop} (o : SpcOps) (h : s.Ready) (hm : s.sysMode = true)
    (hs : s.core.slot = none) (hx : s.core.xpc.toNat % 4 ≠ 0)
    (hr : ∀ u : State, u.Inv → s.Stopped u →
      (raise ⟨vAlign, kFetch, s.core.xpc⟩ s.core.pc none).Gives u fun _ t => P (latchEdges s t)) :
    Completes (.retx o) s P := by
  refine completes_cmd rfl (gives_insn_stop h hs (c := ⟨vAlign, kFetch, s.core.xpc⟩) ?_ (fun u hu => ?_) hr)
  · rintro ⟨⟩
  · refine gives_sysOnly (by rw [State.sysMode, hu]; exact hm) (gives_bind (gives_getS ?_))
    rw [hu, if_pos hx]
    exact gives_pure ⟨rfl, rfl⟩

/-- Settles O10: RETX's body goes on at an aligned XPC; a misaligned one raises ALIGN, which HOLD turns into a lockup. -/
theorem returnFromException : Obligations.ReturnFromException := by
  intro o s h hm hs
  refine ⟨completes_retx_aligned o h hm hs, fun hx hhold hv => ?_, fun hx hhold => ?_⟩
  · exact completes_retx_misaligned o h hm hs hx fun u hu hstop =>
      (hstop.gives_raise hu hhold (show vAlign ≠ vBrk by decide) hv).mono fun _ _ ht => ht.latch
  · refine completes_retx_misaligned o h hm hs hx fun u _ hstop => ?_
    refine (gives_raise_hold (by rwa [hstop.core]) hstop.atStage).mono fun _ _ ht => ht.latch

end Sys2Proof.Machine
end

section
/-!
TALLY's limits (R458, R460): an enable with a ring outside main SRAM, followed through the bus to the unit, and the triggers
that come while a snapshot runs.
-/
namespace Sys2Proof.Machine
open Sys2Proof.Reg

/-! ### Footprints of registers, and a field that a command sets -/

theorem State.Within.reg {s t : State} {l : List Nat} (h : s.Within (onlyRegs l) t) {a : Nat} (ha : a ∉ l) :
    t.reg a = s.reg a := h.regs a (decide_eq_false ha)

theorem State.Within.onlyRegs_mono {s t : State} {l m : List Nat} (h : s.Within (onlyRegs l) t) (hlm : l ⊆ m) :
    s.Within (onlyRegs m) t :=
  ⟨fun _ ha => h.reg fun hl => of_decide_eq_false ha (hlm hl), fun a _ => h.mem a rfl, fun x _ => h.tab x rfl,
    fun _ => h.otp rfl, fun _ => h.bad rfl, fun _ => h.core rfl, fun _ => h.keys rfl, h.pending⟩

theorem State.within_put {s : State} {F : Foot} {f : Fld} (v : Nat) (h : F.regs f.addr = true) : s.Within F (s.put f v) :=
  ⟨fun _ ha => State.reg_put_other v (by rintro rfl; simp [h] at ha), fun _ _ => rfl, fun _ _ _ => by simp, fun _ _ => rfl,
    fun _ => rfl, fun _ => rfl, fun _ => rfl, rfl⟩

/-- What is read is listed, or as unlisted. -/
theorem Sparse.get_mem {α : Type} (d : Nat → α) (m : Sparse α) (k : Nat) :
    (k, Sparse.get d m k) ∈ m ∨ Sparse.get d m k = d k := by
  induction m with
  | nil => exact .inr rfl
  | cons e m ih =>
    obtain ⟨i, v⟩ := e
    by_cases hi : i = k
    · simp [Sparse.get, hi]
    · rw [Sparse.get, if_neg hi]
      exact ih.imp_left (List.mem_cons_of_mem _)

/-- A change of the units' live state that leaves the key slots. -/
theorem State.within_live (s : State) {F : Foot} {f : Dev → Dev} (h : (f s.dev).keys = s.dev.keys) :
    s.Within F (Prim.run (.dev f) s) :=
  ⟨fun _ _ => by simp, fun _ _ => by simp, fun _ _ _ => by simp, fun _ _ => by simp, fun _ => rfl, fun _ => rfl,
    fun _ => h, rfl⟩

/-- A register shows no bit that it does not have (R309). -/
theorem State.Inv.reg_and_mask {s : State} (h : s.Inv) {a : Nat}
    (ha : resetWord a &&& BitVec.ofNat 32 (maskOf a) = resetWord a) :
    s.reg a &&& BitVec.ofNat 32 (maskOf a) = s.reg a := by
  rcases Sparse.get_mem resetWord s.regs a with hlisted | hreset
  · exact h.masked _ hlisted
  · rw [State.reg, hreset, ha]

/-- A field whose bits all exist, put into a word without other bits, leaves no bit to mask away. -/
theorem bitsPut_and_mask {w m : Word} {hi lo v : Nat} (h : lo ≤ hi)
    (hm : bitsGet m hi lo = 2 ^ (hi - lo + 1) - 1) (hw : w &&& m = w) : bitsPut w hi lo v &&& m = bitsPut w hi lo v := by
  refine BitVec.eq_of_toNat_eq (Nat.eq_of_testBit_eq fun i => ?_)
  rw [BitVec.toNat_and, Nat.testBit_and]
  by_cases hi32 : i < 32
  case neg => rw [testBit_of_le (by omega), Bool.false_and]
  rw [bitsPut_testBit _ _ _ _ _ h hi32]
  split
  case isTrue hin =>
    have hmi : (bitsGet m hi lo).testBit (i - lo) = (2 ^ (hi - lo + 1) - 1).testBit (i - lo) := by rw [hm]
    rw [bitsGet_testBit, Nat.testBit_two_pow_sub_one, decide_eq_true (show i - lo < hi - lo + 1 by omega), Bool.true_and,
      Nat.add_sub_cancel' hin.1] at hmi
    rw [hmi, Bool.and_true]
  case isFalse => rw [← Nat.testBit_and, ← BitVec.toNat_and, hw]

theorem State.Inv.sets_put {s : State} (h : s.Inv) {f : Fld} (hf : f.Full)
    (hr : resetWord f.addr &&& BitVec.ofNat 32 (maskOf f.addr) = resetWord f.addr) (v : Nat) :
    s.Sets (s.put f v) [(f, v)] := by
  obtain ⟨hle, -, hm⟩ := hf
  refine ⟨fun a _ _ => ?_, State.within_put v rfl⟩
  by_cases ha : f.addr = a
  · subst ha
    rw [State.put, State.reg_written, bitsPut_and_mask hle hm (h.reg_and_mask hr)]
    simp [State.after]
  · rw [State.reg_put_other v (Ne.symm ha)]
    simp [State.after, ha]

theorem State.Sets.latch {s t u : State} {l : List (Fld × Nat)} {noted : List Nat} {F : Foot} (h : s.Sets t l noted F) :
    s.Sets (latchEdges u t) l noted F := ⟨h.regs, h.rest.latch⟩

/-- A bit that is put into a word reads 1. -/
theorem bitsGet_or_bit (w : Word) {b : Nat} (hb : b < 32) : bitsGet (w ||| BitVec.ofNat 32 (2 ^ b)) b b = 1 := by
  refine Nat.eq_of_testBit_eq fun i => ?_
  rw [bitsGet_testBit, BitVec.toNat_or, Nat.testBit_or, BitVec.toNat_ofNat, Nat.testBit_mod_two_pow]
  cases i with
  | zero => simp [hb]
  | succ i => simp [Nat.testBit_succ]

/-- The hardware's setting of a bit of FLT leaves it set (R305). -/
theorem gives_setFlt_bit {p b : Nat} {s : State} (hf : (fltBit p b).Full) :
    (setFlt p b).Gives s fun _ t => t.bit (fltBit p b) = true ∧ s.Within (onlyRegs (evRegs p)) t := by
  refine M.Gives.and ?_ (gives_setFlt.mono fun _ _ ht => ht.within)
  refine gives_bind (gives_bind (gives_getS (gives_pure (gives_bind (gives_wr (gives_emitNow.mono ?_))))))
  rintro _ t ⟨ht, _⟩
  have hflt : FLT p ∉ perfRegs p := by simp [perfRegs]
  have hreg : t.reg (FLT p) = (s.reg (FLT p) ||| BitVec.ofNat 32 (2 ^ b)) &&& BitVec.ofNat 32 (maskOf (FLT p)) :=
    (ht.reg hflt).trans (State.reg_putReg_same _)
  obtain ⟨-, hb, hmask⟩ := hf
  simp only [State.bit, State.fld, fltBit] at hb hmask ⊢
  rw [hreg, bitsGet_and_mask _ _ _ _ hmask, bitsGet_or_bit _ hb]
  rfl

/-! ### A write of a page's CTRL, from the bus to the unit -/

theorem State.fitted_le (s : State) (cs : Nat) : s.fitted cs ≤ 0x4000000 := by
  simp only [State.fitted]
  split
  case isTrue hz => exact Nat.pow_le_pow_right (by omega) (show _ ≤ 26 by omega)
  case isFalse => omega

/-- The main clusters' pages are one range of R269, which no external window reaches. -/
theorem State.rangeOf_mainPage (s : State) {a : Nat} (hlo : 0x40000000 ≤ a) (hhi : a < 0x40015000) :
    s.rangeOf a = some ⟨0x40000000, 0x40015000, .pages⟩ := by
  have h0 := s.fitted_le 0
  have h1 := s.fitted_le 1
  rw [State.rangeOf, State.ranges]
  iterate 6 rw [List.find?_cons_of_neg (by simp only [Bool.and_eq_true, decide_eq_true_eq]; omega)]
  exact List.find?_cons_of_pos (by simp only [Bool.and_eq_true, decide_eq_true_eq]; omega)

/-- A bus write of a register page that exists is the register's write (R269, R309). -/
theorem gives_busWrite_page {s : State} {m : Master} {size : Size} {a : Nat} {v : Word} {r : Range}
    {Q : BusEnd → State → Prop} (hr : s.rangeOf a = some r) (hk : r.kind = .pages)
    (hp : (pageRows (pageOf a)).isSome = true)
    (h : (regWrite m size (a / 4 * 4) v).Gives s fun _ t => Q (.ok 0) t) : (busWrite m size a v).Gives s Q := by
  refine gives_bind (gives_getS ?_)
  simp only [hr, hk]
  rw [if_neg (by simpa [Option.isSome_iff_ne_none] using hp)]
  exact gives_bind (h.mono fun _ _ ht => gives_pure ht)

theorem perfCnt_mem_perfRegs {p k : Nat} (hk : k < 4) : PERF_CNT p k ∈ perfRegs p := by
  interval_cases k <;> simp [perfRegs]

/-- An access is counted by its page and moves nothing else that software reaches (R18, R311, R456). -/
theorem gives_enterPage {p : Nat} {s : State} :
    (enterPage p).Gives s fun _ t => t.dev.parity = s.dev.parity ∧ s.Within (onlyRegs (perfRegs p)) t := by
  refine M.Gives.and ?_ (M.Keeps.all ?_ s)
  · refine gives_bind (gives_act ?_)
    split
    · exact gives_bind (gives_act (gives_perf.mono fun _ t ht => by rw [ht.1.dev]; rfl))
    · exact gives_pure rfl
  · refine keeps_bind (keeps_modDev fun _ => rfl) fun _ => keeps_ite (keeps_bind keeps_openGate fun _ => ?_) (keeps_pure _)
    exact keeps_perf fun k hk => decide_eq_true (perfCnt_mem_perfRegs hk)

/-- A word written to the CTRL of a powered cluster that lies outside the radio die and is neither FLASHC nor a cipher page:
the access is counted, and CTRL is written (R18, R303). -/
theorem gives_regWrite_ctrl {s : State} {m : Master} {p : Nat} {v : Word} {Q : Unit → State → Prop}
    (hbase : pageOf (CTRL p) = p) (hhead : hasHeader p = true) (hradio : inRadio p = false) (hciph : isCiph p = false)
    (hflash : p ≠ flashcPage) (hpow : s.powered p = true)
    (h : ∀ t : State, t.dev.parity = s.dev.parity → s.Within (onlyRegs (perfRegs p)) t → (ctrlWrite p v).Gives t Q) :
    (regWrite m .word (CTRL p) v).Gives s Q := by
  refine gives_bind (gives_getS ?_)
  simp only [hbase, hpow, State.busVoid, hradio]
  refine gives_bind (gives_enterPage.mono ?_)
  rintro _ t ⟨hpar, hw⟩
  simpa [hflash, hciph, hhead] using h t hpar hw

/-- CTRL written with EN and without CRST: CLKHOLD is taken over, and the cluster is to be enabled (R303). -/
theorem gives_ctrlWrite_enable {s : State} {p : Nat} {v : Word} {Q : Unit → State → Prop} (hv : v &&& 3 = 1)
    (hp : p ≠ spihPage) (h : (enableCluster p).Gives (s.put (CTRL_CLKHOLD p) (bitsGet v 2 2)) Q) :
    (ctrlWrite p v).Gives s Q := by
  have hbit (i : Nat) : (v.toNat.testBit i && (3 : Word).toNat.testBit i) = (1 : Word).toNat.testBit i := by
    rw [← Nat.testBit_and, ← BitVec.toNat_and, hv]
  have hen : bitOf v.toNat 0 = true := (Bool.and_true _).symm.trans (hbit 0)
  have hcrst : bitOf v.toNat 1 = false := (Bool.and_true _).symm.trans (hbit 1)
  unfold ctrlWrite
  rw [hcrst, if_neg Bool.false_ne_true]
  refine gives_bind (gives_setFld ?_)
  rwa [if_neg hp, if_pos hen]

/-! ### The ring of the tally unit (R459, R460) -/

/-- The ring's place is read from BASE, DEPTH and the list of pages, none of which a refused enable moves. -/
theorem State.Within.tallyRingOk {s t : State} (h : s.Within (onlyRegs (CTRL tallyPage :: evRegs tallyPage)) t) :
    t.tallyRingOk = s.tallyRingOk := by
  have hlow : ∀ a ∈ CTRL tallyPage :: evRegs tallyPage, a < TALLY_PAGE 0 := by decide
  have hpage (i : Nat) : t.reg (TALLY_PAGE i) = s.reg (TALLY_PAGE i) :=
    h.reg fun hi => absurd (hlow _ hi) (Nat.not_lt.mpr (Nat.le_add_right _ _))
  have hpages : t.tallyPages = s.tallyPages := by simp only [State.tallyPages, State.bit, State.fld, hpage]
  unfold State.tallyRingOk State.tallySlot State.fld
  rw [hpages, h.reg (a := TALLY_BASE) (by decide), h.reg (a := TALLY_DEPTH) (by decide)]

/-- A ring that begins below main SRAM or ends above it does not lie wholly there (R459, R460). -/
theorem State.tallyRingOk_eq_false {s : State}
    (h : 16 * s.fld TALLY_BASE_BASE < 0x20000000 ∨
      0x20080000 < 16 * s.fld TALLY_BASE_BASE + (s.fld TALLY_DEPTH_DEPTH + 1) * (16 + 16 * s.tallyPages.length)) :
    s.tallyRingOk = false := by
  simp only [State.tallyRingOk, State.tallySlot, Bool.and_eq_false_iff, decide_eq_false_iff_not,
    Nat.mul_comm _ 16] at h ⊢
  omega

/-- CLKHOLD lies beside EN (R303). -/
theorem State.en_put_clkhold {s : State} (v : Nat) : (s.put (CTRL_CLKHOLD tallyPage) v).en tallyPage = s.en tallyPage := by
  have hclk : (CTRL_CLKHOLD tallyPage).Full := ⟨by decide, by decide, by decide +kernel⟩
  have hen : (CTRL_EN tallyPage).Full := ⟨by decide, by decide, by decide +kernel⟩
  rw [State.en, State.bit, State.fld_put_apart hclk hen v fun _ => .inl (by decide), State.en, State.bit]

theorem State.Within.en {s t : State} {l : List Nat} (h : s.Within (onlyRegs l) t) {p : Nat} (hp : CTRL p ∉ l) :
    t.en p = s.en p := by
  rw [State.en, State.en, State.bit, State.bit, State.fld, State.fld, h.reg hp]

/-- TALLY's enable is refused where its ring does not lie in main SRAM (R460). -/
theorem gives_enableCluster_tally_refused {s : State} (hen : s.en tallyPage = false) (hpar : s.parityCommon tallyPage = false)
    (hring : s.tallyRingOk = false) :
    (enableCluster tallyPage).Gives s fun _ t =>
      t.en tallyPage = false ∧ t.bit (fltBit tallyPage fltState) = true ∧ s.Within (onlyRegs (evRegs tallyPage)) t := by
  refine gives_bind (gives_getS ?_)
  rw [hen, hpar]
  refine gives_bind (gives_getS ?_)
  rw [hen, hring]
  refine (gives_setFlt_bit ⟨by decide, by decide, by decide +kernel⟩).mono ?_
  rintro _ t ⟨hbit, hw⟩
  exact ⟨(hw.en (by decide)).trans hen, hbit, hw⟩

/-! ### Settling the statement -/

/-- The enable as the bus master that writes it sees it: refused and reported (R460). -/
theorem completes_enable_tally_refused {s : State} (m : Master) {v : Word} (hpow : s.powered tallyPage = true)
    (hen : s.en tallyPage = false) (hv : v &&& 3 = 1) (hpar : s.parityCommon tallyPage = false)
    (hring : s.tallyRingOk = false) :
    Completes (.registerWrite m .word (BitVec.ofNat 32 (CTRL tallyPage)) v) s fun t =>
      t.en tallyPage = false ∧ t.bit (fltBit tallyPage fltState) = true ∧
        s.Within (onlyRegs (CTRL tallyPage :: evRegs tallyPage)) t := by
  have haddr : (BitVec.ofNat 32 (CTRL tallyPage)).toNat = CTRL tallyPage := by decide
  refine completes_cmd rfl ?_
  rw [haddr, if_pos (by decide)]
  refine gives_bind (gives_busWrite_page (s.rangeOf_mainPage (by decide) (by decide)) rfl (by decide) ?_)
  refine gives_regWrite_ctrl (by decide) (by decide) (by decide) (by decide) (by decide) hpow fun t htpar htw => ?_
  refine gives_ctrlWrite_enable hv (by decide) ?_
  have huw : s.Within (onlyRegs (CTRL tallyPage :: evRegs tallyPage)) (t.put (CTRL_CLKHOLD tallyPage) (bitsGet v 2 2)) :=
    (htw.onlyRegs_mono (by decide)).trans (State.within_put _ (by decide))
  have huen := (State.en_put_clkhold (s := t) (bitsGet v 2 2)).trans ((htw.en (by decide)).trans hen)
  have hupar : t.parityCommon tallyPage = false := by
    rw [State.parityCommon, htpar]
    exact hpar
  refine (gives_enableCluster_tally_refused huen hupar (huw.tallyRingOk.trans hring)).mono ?_
  rintro - w ⟨hwen, hwbit, hww⟩
  exact gives_pure ⟨hwen, hwbit, (huw.trans (hww.onlyRegs_mono (List.subset_cons_self _ _))).latch⟩

/-- A trigger during a snapshot, with none waiting, waits (R460; log entry 45). -/
theorem completes_tallySnapshot_waits {s : State} (hen : s.en tallyPage = true) (hbusy : s.bit TALLY_STAT_BUSY = true)
    (hfree : (s.dev.rigger.pend.any fun p => p.1 == tallyTask) = false) :
    Completes .tallySnapshot s fun t =>
      t.dev.rigger.pend = s.dev.rigger.pend ++ [(tallyTask, noChannel)] ∧ t.dev.tally = s.dev.tally ∧ s.Within {} t := by
  refine completes_cmd rfl ?_
  rw [if_pos hen, hbusy, if_neg (by simp), hfree, if_neg (by simp)]
  exact gives_act ⟨rfl, rfl, (State.within_live s rfl).latch⟩

/-- A trigger during a snapshot, with one waiting, is dropped and counted (R460). -/
theorem completes_tallySnapshot_dropped {s : State} (h : s.Inv) (hen : s.en tallyPage = true)
    (hbusy : s.bit TALLY_STAT_BUSY = true) (hwaits : (s.dev.rigger.pend.any fun p => p.1 == tallyTask) = true) :
    Completes .tallySnapshot s fun t =>
      t.dev.rigger.pend = s.dev.rigger.pend ∧ t.dev.tally = s.dev.tally ∧
        s.Sets t [(TALLY_STAT_OVERRUN, min 255 (s.fld TALLY_STAT_OVERRUN + 1))] := by
  refine completes_cmd rfl ?_
  rw [if_pos hen, hbusy, if_neg (by simp), hwaits, if_pos rfl]
  refine gives_bind (gives_bind (gives_getS (gives_pure (gives_setFld ⟨rfl, rfl, ?_⟩))))
  exact (h.sets_put ⟨by decide, by decide, by decide +kernel⟩ (by decide +kernel) _).latch

/-- Settles O56: the refused enable, followed from the bus to the unit, and the two triggers during a snapshot. -/
theorem tallyLimits : Obligations.TallyLimits := by
  intro s h
  refine ⟨fun m v hpow hen hv hpar hring => ?_, completes_tallySnapshot_waits, completes_tallySnapshot_dropped h⟩
  exact completes_enable_tally_refused m hpow (by simpa using hen) hv hpar (State.tallyRingOk_eq_false hring)

end Sys2Proof.Machine
end

section
/-!
The block as a whole: every command is an act whose rising lines are latched, so what every act keeps every command and every
step keeps.
-/
namespace Sys2Proof.Machine
open Sys2Proof.Reg

/-- Whatever the command, its outcome is the state an act leaves, with the edges latched. -/
theorem exec_is_cmd (c : Instr) (s : State) : ∃ m : M Unit, exec c s = cmd s m := by
  cases c <;> exact ⟨_, rfl⟩

theorem latchEdges_inv {s t : State} (h : t.Inv) : (latchEdges s t).Inv :=
  ⟨⟨h.canonical.regs, h.canonical.mem, h.canonical.peer, h.canonical.seen, h.canonical.cox, h.canonical.bow, h.canonical.otp⟩,
    h.masked, h.core⟩

/-- The queue is none of what every state of the block has. -/
theorem State.Inv.withPending {s : State} (h : s.Inv) (l : List Instr) : ({ s with pending := l } : State).Inv :=
  ⟨⟨h.canonical.regs, h.canonical.mem, h.canonical.peer, h.canonical.seen, h.canonical.cox, h.canonical.bow, h.canonical.otp⟩,
    h.masked, h.core⟩

theorem State.Inv.withEvents {s : State} (h : s.Inv) (l : List Nat) : ({ s with events := l } : State).Inv :=
  ⟨⟨h.canonical.regs, h.canonical.mem, h.canonical.peer, h.canonical.seen, h.canonical.cox, h.canonical.bow, h.canonical.otp⟩,
    h.masked, h.core⟩

theorem exec_inv {c : Instr} {s t : State} (hs : s.Inv) (h : exec c s = .next t) : t.Inv := by
  obtain ⟨m, hm⟩ := exec_is_cmd c s
  rw [hm, cmd_next, Host.Outcome.next.injEq] at h
  exact h ▸ latchEdges_inv (Act.run_inv _ _ hs)

theorem exec_keepsOtp {c : Instr} {s t : State} (h : exec c s = .next t) : s.KeepsOtp t := by
  obtain ⟨m, hm⟩ := exec_is_cmd c s
  rw [hm, cmd_next, Host.Outcome.next.injEq] at h
  exact h ▸ Act.run_keepsOtp m.toAct s

/-- What the block does by itself while no command waits is an act as well: with an event on its way, or with none. -/
theorem idleNext_is_act (s : State) :
    ∃ (m : M Unit) (l : List Nat), (idleNext s).1 = latchEdges s (m.run { s with events := l }) := by
  unfold idleNext
  split
  next ev rest _ => exact ⟨eventArrives ev, rest, rfl⟩
  next h => exact ⟨tick, s.events, rfl⟩

theorem idleNext_inv {s : State} (hs : s.Inv) : (idleNext s).1.Inv := by
  obtain ⟨m, l, h⟩ := idleNext_is_act s
  exact h ▸ latchEdges_inv (Act.run_inv _ _ (hs.withEvents l))

theorem idleNext_keepsOtp (s : State) : s.KeepsOtp (idleNext s).1 := by
  obtain ⟨m, l, h⟩ := idleNext_is_act s
  exact h ▸ Act.run_keepsOtp m.toAct { s with events := l }

/-- A step runs a command on the rest of the queue, or with an empty queue what the block does by itself. -/
theorem step_cases {s t : State} (h : step s = .next t) :
    (∃ c rest, s.pending = c :: rest ∧ exec c { s with pending := rest } = .next t) ∨
      (s.pending = [] ∧ t = { (idleNext s).1 with pending := (idleNext s).2 }) := by
  unfold step at h
  split at h
  next c rest hp => exact .inl ⟨c, rest, hp, h⟩
  next hp => exact .inr ⟨hp, (Host.Outcome.next.inj h).symm⟩

/-- Settles O5: a command's act keeps it, and so does the idle step's. -/
theorem stepKeepsInv : Obligations.StepKeepsInv := by
  intro s t hs h
  rcases step_cases h with ⟨c, rest, _, hc⟩ | ⟨_, rfl⟩
  · exact exec_inv (hs.withPending rest) hc
  · exact (idleNext_inv hs).withPending _

/-- Settles O6: every primitive change only adds bits to OTP and marks to the BAD units. -/
theorem stepKeepsOtp : Obligations.StepKeepsOtp := by
  intro s t h
  rcases step_cases h with ⟨c, rest, _, hc⟩ | ⟨_, rfl⟩
  · exact (exec_keepsOtp hc : ({ s with pending := rest } : State).KeepsOtp t)
  · exact idleNext_keepsOtp s

/-- Settles O3: no primitive change touches the queue. -/
theorem commandsKeepQueue : Obligations.CommandsKeepQueue := by
  intro c s
  obtain ⟨m, hm⟩ := exec_is_cmd c s
  exact ⟨_, hm.trans (cmd_next s m), Act.run_pending m.toAct s⟩

/-- Settles O1, by the definition of a step. -/
theorem stepRunsFront : Obligations.StepRunsFront := fun _ _ _ => rfl

theorem State.masked_set {m : Sparse Word} {a : Nat} {v : Word} (h : ∀ e ∈ m, e.2 &&& BitVec.ofNat 32 (maskOf e.1) = e.2)
    (hv : v &&& BitVec.ofNat 32 (maskOf a) = v) :
    ∀ e ∈ Sparse.set resetWord m a v, e.2 &&& BitVec.ofNat 32 (maskOf e.1) = e.2 := by
  intro e he
  rcases Sparse.mem_set _ _ _ _ e he with he | ⟨rfl, _⟩
  · exact h e he
  · exact hv

/-- The registers that differ from their reset values right after power-on: the cause of the reset, and the governor without a
record. -/
theorem reset_regs :
    State.reset.regs = Sparse.set resetWord (Sparse.set resetWord [] SYS_RSTCAUSE 1) GOV_STAT 7 := rfl

/-- Settles O4: of the registers only two differ from their reset values, and both keep to their bits. -/
theorem resetInv : Obligations.ResetInv := by
  have hreg : Sparse.Wf resetWord State.reset.regs :=
    reset_regs ▸ Sparse.wf_set resetWord _ _ _ (Sparse.wf_set resetWord _ _ _ (Sparse.wf_nil _))
  have hcause : (1 : Word) &&& BitVec.ofNat 32 (maskOf SYS_RSTCAUSE) = 1 := by decide
  have hgov : (7 : Word) &&& BitVec.ofNat 32 (maskOf GOV_STAT) = 7 := by decide
  have hmask : State.reset.Masked := State.masked_set (State.masked_set (m := []) (by simp) hcause) hgov
  exact ⟨⟨hreg, Sparse.wf_nil _, Sparse.wf_nil _, Sparse.wf_nil _, Sparse.wf_nil _, Sparse.wf_nil _, Sparse.wf_nil _⟩,
    hmask, by decide, by decide, by decide⟩

end Sys2Proof.Machine
end

section
/-!
Following a command's act by equations: what an act leaves, computed step by step, and what is read from it afterwards.
-/
namespace Sys2Proof.Machine
open Sys2Proof.Reg

variable {α β : Type}

/-! ### Running an act -/

/-- The state with the units' live state changed, as `modDev` leaves it. -/
def State.live (s : State) (f : Dev → Dev) : State := Prim.run (.dev f) s

@[simp] theorem run_getS (f : State → M Unit) (s : State) : (getS >>= f).run s = (f s).run s := (rfl)
@[simp] theorem run_pure_bind (a : α) (f : α → M Unit) (s : State) : ((pure a : M α) >>= f).run s = (f a).run s := (rfl)
@[simp] theorem run_pure (s : State) : (pure () : M Unit).run s = s := (rfl)
@[simp] theorem run_nop (s : State) : nop.run s = s := (rfl)
@[simp] theorem run_nop_bind (f : Unit → M Unit) (s : State) : (nop >>= f).run s = (f ()).run s := (rfl)
@[simp] theorem run_assoc (m : M α) (f : α → M β) (g : β → M Unit) (s : State) :
    ((m >>= f) >>= g).run s = (m >>= fun x => f x >>= g).run s := (rfl)
@[simp] theorem run_ite (c : Prop) [Decidable c] (a b : M Unit) (s : State) :
    (if c then a else b).run s = if c then a.run s else b.run s := by split <;> rfl
@[simp] theorem run_ite_bind (c : Prop) [Decidable c] (a b : M α) (f : α → M Unit) (s : State) :
    ((if c then a else b) >>= f).run s = if c then (a >>= f).run s else (b >>= f).run s := by split <;> rfl
@[simp] theorem run_rd (a : Nat) (f : Word → M Unit) (s : State) : (rd a >>= f).run s = (f (s.reg a)).run s := (rfl)
@[simp] theorem run_fld (x : Fld) (f : Nat → M Unit) (s : State) : (fld x >>= f).run s = (f (s.fld x)).run s := (rfl)
@[simp] theorem run_bit (x : Fld) (f : Bool → M Unit) (s : State) : (bit x >>= f).run s = (f (s.bit x)).run s := (rfl)
@[simp] theorem run_wr (a : Nat) (v : Word) (s : State) : (wr a v).run s = s.putReg a v := (rfl)
@[simp] theorem run_wr_bind (a : Nat) (v : Word) (f : Unit → M Unit) (s : State) :
    (wr a v >>= f).run s = (f ()).run (s.putReg a v) := (rfl)
@[simp] theorem run_setFld (x : Fld) (v : Nat) (s : State) : (setFld x v).run s = s.put x v := (rfl)
@[simp] theorem run_setFld_bind (x : Fld) (v : Nat) (f : Unit → M Unit) (s : State) :
    (setFld x v >>= f).run s = (f ()).run (s.put x v) := (rfl)
@[simp] theorem run_modDev (g : Dev → Dev) (s : State) : (modDev g).run s = s.live g := (rfl)
@[simp] theorem run_modDev_bind (g : Dev → Dev) (f : Unit → M Unit) (s : State) :
    (modDev g >>= f).run s = (f ()).run (s.live g) := (rfl)
@[simp] theorem run_actDev (g : Dev → Dev) (s : State) : (act (.dev g)).run s = s.live g := (rfl)
@[simp] theorem run_actDev_bind (g : Dev → Dev) (f : Unit → M Unit) (s : State) :
    (act (.dev g) >>= f).run s = (f ()).run (s.live g) := (rfl)

/-- An act without a result that is followed from a state: what comes after it starts where it ends. -/
theorem M.Gives.run_bind {m : M Unit} {s : State} {Q : Unit → State → Prop} (h : m.Gives s Q) (f : Unit → M Unit) :
    (m >>= f).run s = (f ()).run (m.run s) := by
  obtain ⟨_, t, _, _, hk⟩ := h
  rw [show m.run s = t from hk _]
  exact hk fun x => f x fun _ => Act.done

/-- As `completes_cmd`, with the state that the act leaves written out. -/
theorem completes_run {c : Instr} {s : State} {m : M Unit} {P : State → Prop} (h : exec c s = cmd s m)
    (g : P (latchEdges s (m.run s))) : Completes c s P := ⟨_, h, g⟩

@[simp] theorem forAll_nil (f : α → M Unit) : forAll [] f = nop := (rfl)
@[simp] theorem forAll_cons (x : α) (l : List α) (f : α → M Unit) : forAll (x :: l) f = (f x >>= fun _ => forAll l f) := (rfl)

section
variable (s : State) (f : Dev → Dev)
@[simp] theorem State.live_dev : (s.live f).dev = f s.dev := (rfl)
@[simp] theorem State.live_core : (s.live f).core = s.core := (rfl)
@[simp] theorem State.live_events : (s.live f).events = s.events := (rfl)
@[simp] theorem State.live_free : (s.live f).free = s.free := (rfl)
@[simp] theorem State.live_pending : (s.live f).pending = s.pending := (rfl)
@[simp] theorem State.live_bad : (s.live f).bad = s.bad := (rfl)
@[simp] theorem State.live_reg (a : Nat) : (s.live f).reg a = s.reg a := (rfl)
@[simp] theorem State.live_fld (x : Fld) : (s.live f).fld x = s.fld x := (rfl)
@[simp] theorem State.live_bit (x : Fld) : (s.live f).bit x = s.bit x := (rfl)
@[simp] theorem State.live_byte (i : Nat) : (s.live f).byte i = s.byte i := (rfl)
@[simp] theorem State.live_otpByte (i : Nat) : (s.live f).otpByte i = s.otpByte i := (rfl)
@[simp] theorem State.live_word (x : Tab) (i : Nat) : (s.live f).word x i = s.word x i := by cases x <;> rfl
@[simp] theorem State.live_g (r : Nat) : (s.live f).g r = s.g r := (rfl)
@[simp] theorem State.put_g (x : Fld) (n r : Nat) : (s.put x n).g r = s.g r := (rfl)
@[simp] theorem State.putReg_g (a : Nat) (v : Word) (r : Nat) : (s.putReg a v).g r = s.g r := (rfl)
end

end Sys2Proof.Machine
end

section
/-!
The block with no command waiting (log entry 1): an event on its way reaches the Rigger's channels (R318, R322), or, with none,
25 ns pass (R4, R177).
-/
namespace Sys2Proof.Machine
open Sys2Proof.Reg

/-- An event's arrival changes of the block only the Rigger's cycle and the heat's beacons. -/
theorem gives_eventArrives {ev : Nat} {s : State} :
    (eventArrives ev).Gives s fun _ t => ∃ r h, t = s.live fun d => { d with rigger := r, heat := h } := by
  refine gives_bind (gives_act (gives_bind (gives_getS ?_)))
  dsimp only
  generalize (if State.bit _ NTIME_CFG_ROOT = true then 0xB1 else 0xA4) = want
  split
  · split
    · exact gives_act ⟨_, _, rfl⟩
    · exact gives_act ⟨_, _, rfl⟩
  · exact gives_pure ⟨_, s.dev.heat, rfl⟩

/-- A channel fires that listens to the event and is enabled (R322). -/
theorem riggerChannelFire_mem_firings {s : State} {ev : Nat} (n : Fin 64) :
    Instr.riggerChannelFire n ∈ s.firings ev ↔ s.rigOn n.val = true ∧ s.fld (RIGGER_SRC_SRC n.val) = ev := by
  have hn : n.val % 64 = n.val := Nat.mod_eq_of_lt n.isLt
  simp only [State.firings, State.listeners, List.mem_map, List.mem_filter, List.mem_range, Bool.and_eq_true, beq_iff_eq,
    Instr.riggerChannelFire.injEq, Fin.ext_iff]
  constructor
  · rintro ⟨k, ⟨hk, hon, hsrc⟩, he⟩
    have hkn : k = n.val := (Nat.mod_eq_of_lt hk).symm.trans he
    exact ⟨hkn ▸ hon, hkn ▸ hsrc⟩
  · rintro ⟨hon, hsrc⟩
    exact ⟨n.val, ⟨n.isLt, hon, hsrc⟩, hn⟩

theorem firings_are_fires {s : State} {ev : Nat} {c : Instr} (h : c ∈ s.firings ev) : ∃ n : Fin 64, c = .riggerChannelFire n := by
  obtain ⟨k, _, rfl⟩ := List.mem_map.mp h
  exact ⟨_, rfl⟩

/-- The idle step with an event on its way (R318, R322). -/
theorem step_event {s : State} {ev : Nat} {rest : List Nat} (hp : s.pending = []) (he : s.events = ev :: rest) :
    ∃ t, step s = .next t ∧ t.events = rest ∧
      (∀ n : Fin 64, Instr.riggerChannelFire n ∈ t.pending ↔ s.rigOn n.val = true ∧ s.fld (RIGGER_SRC_SRC n.val) = ev) ∧
      (∀ c ∈ t.pending, ∃ n : Fin 64, c = .riggerChannelFire n) ∧
      (∀ a, t.reg a = s.reg a) ∧ (∀ a, t.byte a = s.byte a) ∧ t.core = s.core := by
  obtain ⟨r, h, harr⟩ := (gives_eventArrives (ev := ev) (s := { s with events := rest })).run
  have hidle : idleNext s = (latchEdges s ((eventArrives ev).run { s with events := rest }),
      (latchEdges s ((eventArrives ev).run { s with events := rest })).firings ev) := by
    simp only [idleNext, he]
  refine ⟨_, by rw [step, hp, hidle], ?_⟩
  rw [harr]
  exact ⟨rfl, riggerChannelFire_mem_firings, fun c hc => firings_are_fires hc, fun _ => rfl, fun _ => rfl, rfl⟩

/-- Where nothing of the scheduler's or of an acknowledgement's waits for a frame to be over, nothing is settled (R149, R191). -/
theorem run_frameOver {s : State} (h : s.Unwatched) : frameOver.run s = s := by
  obtain ⟨hsample, hmain, hrdv, hclosing, hclosed⟩ := h
  have hnone : (s.jobs.find? fun j => j.stage == .ackWait && j.closed && !s.ackComing j) = none :=
    List.find?_eq_none.mpr fun j hj => by simp [hclosed j hj]
  simp [frameOver, ackSettle, winSettle, hnone, hsample, hmain, hrdv, hclosing]

theorem run_mgmtRun_bind {s : State} (h : s.dev.hostp.mgmt = []) (f : Unit → M Unit) :
    (mgmtRun >>= f).run s = (f ()).run s := by
  rw [mgmtRun, run_assoc, run_getS, h]
  rfl

/-- The counters of time after 25 ns that no LF edge falls in (R4, R177, R182). -/
def State.timeTicked (s : State) : Time :=
  let t := s.dev.time
  let n := ntimeNext t.ntime t.frac (signed 20 (s.fld NTIME_TRIM_TRIM))
  if s.linkClock then
    { t with now := t.now + 1, lfPhase := t.lfPhase + 64, link := t.link + 1, ntime := n.1, frac := n.2
             calLink := t.calLink + (n.1 + 2 ^ 48 - t.ntime % 2 ^ 48) % 2 ^ 48 }
  else { t with now := t.now + 1, lfPhase := t.lfPhase + 64 }

/-- 25 ns without an LF edge and without a management frame change the counters of time and end a fabric cycle (R4, R321). -/
theorem run_tick {s : State} (hl : s.lfEdge = false) (hm : s.dev.hostp.mgmt = []) (hu : s.Unwatched) :
    tick.run s = s.live fun d =>
      { d with rigger := { d.rigger with taken := d.rigger.taken.filter fun x => x.2 < 16 }, time := s.timeTicked } := by
  have hclock (f : Dev → Dev) (hpwr : (f s.dev).pwr = s.dev.pwr) (hsamp : (f s.dev).samp = s.dev.samp) :
      (s.live f).linkClock = s.linkClock := by
    rw [State.linkClock, State.live_dev, hpwr, hsamp, State.linkClock]
  have hlive (f g : Dev → Dev) : (s.live f).live g = s.live fun d => g (f d) := rfl
  have hrest (f : Dev → Dev) (hhost : (f s.dev).hostp = s.dev.hostp) (hsamp : (f s.dev).samp = s.dev.samp)
      (htx : (f s.dev).tx = s.dev.tx) : (mgmtRun >>= fun _ => frameOver).run (s.live f) = s.live f := by
    obtain ⟨h1, h2, h3, h4, h5⟩ := hu
    rw [run_mgmtRun_bind (by rw [State.live_dev, hhost, hm]), run_frameOver]
    exact ⟨by rwa [State.live_dev, hsamp], by rwa [State.live_dev, hsamp], by rwa [State.live_dev, hsamp],
      by rwa [State.live_dev, hsamp], by rwa [State.live_dev, htx]⟩
  simp only [tick, run_getS, modTime, fabricCycle, modRigger, run_modDev_bind, linkTick, run_assoc, run_ite_bind, hl,
    Bool.false_eq_true, if_false, hlive, hclock, State.timeTicked]
  cases s.linkClock
  case true =>
    rw [if_pos rfl, hrest _ rfl rfl rfl]
    rfl
  case false =>
    rw [if_neg Bool.false_ne_true, run_pure_bind, run_modDev_bind, hlive, hrest _ rfl rfl rfl]
    rfl

/-- Settles O2: an event's arrival and the passing of 25 ns, each an act that moves little. -/
theorem idleStep : Obligations.IdleStep := by
  intro s _ hp
  refine ⟨fun ev rest he => step_event hp he, fun he hl hm hu => ?_⟩
  have hidle : idleNext s = (latchEdges s (tick.run s), tickDue s (latchEdges s (tick.run s))) := by
    simp only [idleNext, he]
  refine ⟨_, by rw [step, hp, hidle], ?_⟩
  simp only [run_tick hl hm hu]
  refine ⟨?_, ?_, fun hclock htrim hfrac => ?_, fun _ => rfl, fun _ => rfl, fun _ => rfl, rfl⟩
  · show s.timeTicked.now = _
    unfold State.timeTicked
    split <;> rfl
  · show s.timeTicked.link = _
    unfold State.timeTicked
    split <;> simp_all
  · show s.timeTicked.ntime = _
    simp [State.timeTicked, hclock, htrim, hfrac, ntimeNext, signed]

end Sys2Proof.Machine
end

section
/-!
The ALU and immediate instructions (R244, R245, R247): each row's result and flags, from the functions that the model computes
them by.
-/
namespace Sys2Proof.Machine
open Sys2Proof.Reg

/-! ### Divisions, whose cycles depend on the operands (R267) -/

/-- The result of an ALU function written to a register, and its flags to ST. -/
theorem gives_aluBody_div {s v : State} {o : RegOps} {x : Word} {f : Word → Word → Bool → Word × FlagOut} (h : s.Ready)
    (hvc : v.core = { s.core with insn := true, cycle := x }) (hw : s.Within coreFoot v) :
    (aluBody o false true f).Gives v fun d t => d = .next ∧ (∃ y,
      t.core = { s.core with insn := true, cycle := x, g := y
                             st := if o.s then (f (s.g o.ra.val) (s.g o.rb.val) (stC s.core.st)).2.put s.core.st else s.core.st } ∧
      ∀ k, Sparse.get wordReset y k = s.gWith o.rd.val (f (s.g o.ra.val) (s.g o.rb.val) (stC s.core.st)).1 k) ∧
      s.Within coreFoot t := by
  have hg : ∀ r, v.g r = s.g r := fun r => by rw [State.g, hvc, State.g]
  have hst : v.core.st = s.core.st := by rw [hvc]
  have hlegal := h.inv.core
  refine gives_bind (gives_getS ?_)
  simp only [hg, hst, if_true, Bool.false_or]
  generalize f (s.g o.ra.val) (s.g o.rb.val) (stC s.core.st) = r
  refine gives_bind (gives_act ?_)
  have hcore : (Prim.run (.core fun c => { c with g := Sparse.set wordReset c.g o.rd.val r.1 }) v).core =
      { s.core with insn := true, cycle := x, g := Sparse.set wordReset s.core.g o.rd.val r.1 } := by
    rw [Prim.run_core_core, hvc]
    exact Core.norm_of_legal ⟨hlegal.1, hlegal.2.1, hlegal.2.2⟩
  have hwr := hw.trans (v.within_coreFoot fun c => { c with g := Sparse.set wordReset c.g o.rd.val r.1 })
  cases o.s
  case false => exact gives_pure ⟨rfl, ⟨_, hcore, get_setG _ _ _⟩, hwr⟩
  case true =>
    refine gives_bind (gives_act (gives_pure ⟨rfl, ⟨_, ?_, get_setG s.core _ _⟩, hwr.trans (State.within_coreFoot _ _)⟩))
    rw [Prim.run_core_core, hcore]
    exact Core.norm_of_legal ⟨hlegal.1, FlagOut.put_legal hlegal.2.1, hlegal.2.2⟩

theorem gives_divInsn {s : State} {fn : Nat} {o : RegOps} {m : Word → Nat} {f : Word → Word → Word × FlagOut} (h : s.Ready)
    (hr : o.res = 0) :
    (divInsn fn o m f).Gives s fun _ t =>
      let x := f (s.g o.ra.val) (s.g o.rb.val)
      s.Executed t (s.core.pc + 4) (s.gWith o.rd.val x.1) ∧ t.core.st = if o.s then x.2.put s.core.st else s.core.st := by
  rw [divInsn, show (o.res != 0) = false from by simp [hr]]
  refine gives_plain h fun u hui huc huw => gives_bind (gives_getS (gives_bind ((gives_cyc hui).mono ?_)))
  rintro _ v ⟨⟨x, hx⟩, _, _, _, hvw⟩
  refine (gives_aluBody_div h (by rw [hx, huc]) (huw.trans hvw)).mono ?_
  rintro d t ⟨hd, ⟨y, hc, hy⟩, hw⟩
  exact ⟨hd, ⟨x, y, by rw [hc, huc], hy⟩, hw⟩

/-- A division completes as its row says, where its function gives the row's result and flags. -/
theorem alu_div {s : State} {c : Instr} {fn : Nat} {o : RegOps} {m : Word → Nat} {f : Word → Word → Word × FlagOut}
    {r : AluRow} (h : s.Ready) (hr : o.res = 0) (hc : exec c s = cmd s (divInsn fn o m f))
    (hf : f (s.g o.ra.val) (s.g o.rb.val) =
      (r.res, { n := some r.res.msb, z := some (r.res == 0), c := r.carry, v := r.ovf })) :
    s.Alu c (some o.rd.val) o.s r := by
  refine completes_cmd hc ((gives_divInsn h hr).mono ?_)
  rintro _ t ⟨h1, h2⟩
  rw [hf] at h1 h2
  refine ⟨h1.latch, ?_⟩
  cases hb : o.s
  · rw [hb] at h2
    exact (FlagOut.put_flags {} s t (by simpa [FlagOut.put, putFlag] using h2)).latch
  · rw [hb] at h2
    exact (FlagOut.put_flags _ s t h2).latch

/-- An immediate instruction that sets no flag (R244). -/
theorem alu_mov {s : State} {c : Instr} {op : Nat} {o : ImmOps} {v : Word} (h : s.Ready) (hr : o.res = false)
    (hc : exec c s = cmd s (immInsn op o false true fun _ => (v, {}))) : s.Alu c (some o.rd.val) false ⟨v, none, none⟩ := by
  refine completes_cmd hc ((gives_immInsn h hr).mono ?_)
  rintro _ t ⟨h1, h2⟩
  refine ⟨h1.latch, (FlagOut.put_flags {} s t ?_).latch⟩
  simpa [FlagOut.put, putFlag] using h2

/-! ### Results and flags -/

theorem nzOf_eq (r : Word) : nzOf r = { n := some r.msb, z := some (r == 0) } := by
  rw [nzOf, msb_bit]

/-- A signed sum differs from what 32 bits show of it where it is no signed 32-bit number (R245). -/
theorem ne_toInt_ofInt (x : Int) : (x != (BitVec.ofInt 32 x).toInt) = outside32 x := by
  rw [Bool.eq_iff_iff, bne_iff_ne, outside32, decide_eq_true_iff, BitVec.toInt_ofInt, Int.bmod_def]
  split <;> omega

theorem addOp_eq (a b : Word) (c : Bool) :
    addOp a b c = (a + b + BitVec.ofNat 32 (b2n c),
      { n := some (a + b + BitVec.ofNat 32 (b2n c)).msb, z := some (a + b + BitVec.ofNat 32 (b2n c) == 0)
        c := some (decide (2 ^ 32 ≤ a.toNat + b.toNat + b2n c)), v := some (outside32 (a.toInt + b.toInt + b2n c)) }) := by
  have hr : BitVec.ofNat 32 (a.toNat + b.toNat + b2n c) = a + b + BitVec.ofNat 32 (b2n c) := by
    simp [BitVec.ofNat_add]
  have hv : a + b + BitVec.ofNat 32 (b2n c) = BitVec.ofInt 32 (a.toInt + b.toInt + b2n c) := by
    simp [BitVec.ofInt_add]
  simp only [addOp, hr, nzOf_eq]
  rw [← ne_toInt_ofInt, ← hv]

theorem subOp_eq (a b : Word) (c : Bool) :
    subOp a b c = (a - b - BitVec.ofNat 32 (1 - b2n c),
      { n := some (a - b - BitVec.ofNat 32 (1 - b2n c)).msb, z := some (a - b - BitVec.ofNat 32 (1 - b2n c) == 0)
        c := some (decide (b.toNat + (1 - b2n c) ≤ a.toNat))
        v := some (outside32 (a.toInt - b.toInt - (1 - b2n c : Nat))) }) := by
  have hv : a - b - BitVec.ofNat 32 (1 - b2n c) = BitVec.ofInt 32 (a.toInt - b.toInt - (1 - b2n c : Nat)) := by
    simp only [sub_eq_add_neg, BitVec.ofInt_add, BitVec.ofInt_neg, BitVec.ofInt_toInt, BitVec.ofInt_natCast]
  simp only [subOp, nzOf_eq]
  rw [← ne_toInt_ofInt, ← hv]

theorem addOp_zero (a b : Word) :
    addOp a b false = (a + b, { n := some (a + b).msb, z := some (a + b == 0), c := some (decide (2 ^ 32 ≤ a.toNat + b.toNat))
                                v := some (outside32 (a.toInt + b.toInt)) }) := by
  simpa [b2n] using addOp_eq a b false

theorem subOp_one (a b : Word) :
    subOp a b true = (a - b, { n := some (a - b).msb, z := some (a - b == 0), c := some (decide (b.toNat ≤ a.toNat))
                               v := some (outside32 (a.toInt - b.toInt)) }) := by
  simpa [b2n] using subOp_eq a b true

theorem plainOp_eq (r : Word) : plainOp r = (r, { n := some r.msb, z := some (r == 0), c := none, v := none }) := by
  rw [plainOp, nzOf_eq]

theorem shiftOut_eq (r : Word) (c : Option Bool) :
    shiftOut r c = (r, { n := some r.msb, z := some (r == 0), c := c, v := none }) := by
  rw [shiftOut, nzOf_eq]

theorem divOut_eq (r : Word) (v : Bool) :
    divOut r v = (r, { n := some r.msb, z := some (r == 0), c := none, v := some v }) := by
  rw [divOut, nzOf_eq]

theorem divOver_iff (a b : Word) : divOver a b = true ↔ a = 0x80000000 ∧ b = 0xFFFFFFFF := by
  simp [divOver]

/-- The signed value of the low bits is what sign extension gives (R245). -/
theorem sextOf_eq {n : Nat} (hn : 0 < n) (a : Word) : sextOf n a = (a.setWidth n).signExtend 32 := by
  rw [sextOf, BitVec.signExtend, BitVec.toInt_eq_toNat_cond, signed, BitVec.toNat_setWidth]
  congr 1
  have hp : 2 ^ n = 2 * 2 ^ (n - 1) := by rw [← Nat.pow_succ']; congr 1; omega
  split <;> split <;> first | rfl | omega

/-- The bits a number needs bound it (R245). -/
theorem lt_two_pow_bitLen (n : Nat) : n < 2 ^ bitLen n := by
  unfold bitLen
  split
  case isTrue h => simp [h]
  case isFalse h => exact Nat.lt_log2_self

theorem two_pow_le_of_bitLen {n : Nat} (h : n ≠ 0) : 2 ^ (bitLen n - 1) ≤ n := by
  rw [bitLen, if_neg h, Nat.add_sub_cancel]
  exact Nat.log2_self_le h

theorem bitLen_le {n k : Nat} (h : n < 2 ^ k) : bitLen n ≤ k := by
  unfold bitLen
  split
  case isTrue => exact Nat.zero_le k
  case isFalse h0 => exact (Nat.log2_lt h0).mpr h

/-! ### The rows -/

variable {s : State} {c : Instr} {o : RegOps} {i : ImmOps} {r : AluRow} {n : Nat}

/-- The rows that write a register and set flags where S says so. -/
theorem alu_write {f : Word → Word → Bool → Word × FlagOut} (h : s.Ready) (hr : o.res = 0)
    (hc : exec c s = cmd s (aluInsn n o false true f))
    (hf : f (s.g o.ra.val) (s.g o.rb.val) (stC s.core.st) =
      (r.res, { n := some r.res.msb, z := some (r.res == 0), c := r.carry, v := r.ovf })) :
    s.Alu c (some o.rd.val) o.s r := alu_reg (always := false) (writes := true) h hr hc hf

/-- The rows that set flags alone. -/
theorem alu_test {f : Word → Word → Bool → Word × FlagOut} (h : s.Ready) (hr : o.res = 0)
    (hc : exec c s = cmd s (aluInsn n o true false f))
    (hf : f (s.g o.ra.val) (s.g o.rb.val) (stC s.core.st) =
      (r.res, { n := some r.res.msb, z := some (r.res == 0), c := r.carry, v := r.ovf })) :
    s.Alu c none true r := alu_reg (always := true) (writes := false) h hr hc hf

theorem alu_immWrite {f : Word → Word × FlagOut} (h : s.Ready) (hr : i.res = false)
    (hc : exec c s = cmd s (immInsn n i false true f))
    (hf : f (s.g i.ra.val) = (r.res, { n := some r.res.msb, z := some (r.res == 0), c := r.carry, v := r.ovf })) :
    s.Alu c (some i.rd.val) i.s r := alu_imm (always := false) (writes := true) h hr hc hf

theorem alu_immTest {f : Word → Word × FlagOut} (h : s.Ready) (hr : i.res = false)
    (hc : exec c s = cmd s (immInsn n i true false f))
    (hf : f (s.g i.ra.val) = (r.res, { n := some r.res.msb, z := some (r.res == 0), c := r.carry, v := r.ovf })) :
    s.Alu c none true r := alu_imm (always := true) (writes := false) h hr hc hf

theorem alu_arithmetic (h : s.Ready) (hr : o.res = 0) :
    let a := s.g o.ra.val
    let b := s.g o.rb.val
    let k := b2n (stC s.core.st)
    let rd := some o.rd.val
    s.Alu (.add o) rd o.s ⟨a + b, some (decide (2 ^ 32 ≤ a.toNat + b.toNat)), some (outside32 (a.toInt + b.toInt))⟩ ∧
    s.Alu (.adc o) rd o.s ⟨a + b + BitVec.ofNat 32 k, some (decide (2 ^ 32 ≤ a.toNat + b.toNat + k)),
      some (outside32 (a.toInt + b.toInt + k))⟩ ∧
    s.Alu (.sub o) rd o.s ⟨a - b, some (decide (b.toNat ≤ a.toNat)), some (outside32 (a.toInt - b.toInt))⟩ ∧
    s.Alu (.sbc o) rd o.s ⟨a - b - BitVec.ofNat 32 (1 - k), some (decide (b.toNat + (1 - k) ≤ a.toNat)),
      some (outside32 (a.toInt - b.toInt - (1 - k : Nat)))⟩ ∧
    s.Alu (.cmp o) none true ⟨a - b, some (decide (b.toNat ≤ a.toNat)), some (outside32 (a.toInt - b.toInt))⟩ :=
  ⟨alu_write h hr rfl (addOp_zero _ _), alu_write h hr rfl (addOp_eq _ _ _), alu_write h hr rfl (subOp_one _ _),
    alu_write h hr rfl (subOp_eq _ _ _), alu_test h hr rfl (subOp_one _ _)⟩

theorem alu_divide (h : s.Ready) (hr : o.res = 0) :
    let a := s.g o.ra.val
    let b := s.g o.rb.val
    let rd := some o.rd.val
    (b = 0 →
      s.Alu (.div o) rd o.s ⟨0xFFFFFFFF, none, some true⟩ ∧ s.Alu (.divu o) rd o.s ⟨0xFFFFFFFF, none, some true⟩ ∧
      s.Alu (.rem o) rd o.s ⟨a, none, some true⟩ ∧ s.Alu (.remu o) rd o.s ⟨a, none, some true⟩) ∧
    (b ≠ 0 →
      s.Alu (.divu o) rd o.s ⟨BitVec.ofNat 32 (a.toNat / b.toNat), none, some false⟩ ∧
      s.Alu (.remu o) rd o.s ⟨BitVec.ofNat 32 (a.toNat % b.toNat), none, some false⟩) ∧
    (a = 0x80000000 → b = 0xFFFFFFFF →
      s.Alu (.div o) rd o.s ⟨0x80000000, none, some true⟩ ∧ s.Alu (.rem o) rd o.s ⟨0, none, some true⟩) ∧
    (b ≠ 0 → (a ≠ 0x80000000 ∨ b ≠ 0xFFFFFFFF) →
      s.Alu (.div o) rd o.s ⟨BitVec.ofInt 32 (a.toInt.tdiv b.toInt), none, some false⟩ ∧
      s.Alu (.rem o) rd o.s ⟨BitVec.ofInt 32 (a.toInt.tmod b.toInt), none, some false⟩) := by
  intro a b rd
  refine ⟨fun hb => ?_, fun hb => ?_, fun ha hb => ?_, fun hb hab => ?_⟩
  · refine ⟨alu_div h hr rfl ?_, alu_div h hr rfl ?_, alu_div h hr rfl ?_, alu_div h hr rfl ?_⟩
    · rw [divOp, if_pos hb, divOut_eq]
    · rw [divuOp, if_pos hb, divOut_eq]
    · rw [remOp, if_pos hb, divOut_eq]
    · rw [remuOp, if_pos hb, divOut_eq]
  · refine ⟨alu_div h hr rfl ?_, alu_div h hr rfl ?_⟩
    · rw [divuOp, if_neg hb, divOut_eq]
    · rw [remuOp, if_neg hb, divOut_eq]
  · have hb0 : b ≠ 0 := by rw [hb]; decide
    refine ⟨alu_div h hr rfl ?_, alu_div h hr rfl ?_⟩
    · rw [divOp, if_neg hb0, if_pos ((divOver_iff _ _).mpr ⟨ha, hb⟩), divOut_eq]
    · rw [remOp, if_neg hb0, if_pos ((divOver_iff _ _).mpr ⟨ha, hb⟩), divOut_eq]
  · have hover : ¬ divOver a b = true := fun hd => hab.elim (absurd ((divOver_iff _ _).mp hd).1)
      (absurd ((divOver_iff _ _).mp hd).2)
    refine ⟨alu_div h hr rfl ?_, alu_div h hr rfl ?_⟩
    · rw [divOp, if_neg hb, if_neg hover, divOut_eq]
    · rw [remOp, if_neg hb, if_neg hover, divOut_eq]

/-- The count of leading zeros, by what it says of the number (R245). -/
theorem alu_clz (h : s.Ready) (hr : o.res = 0) :
    ∃ n ≤ 32, s.Alu (.clz o) (some o.rd.val) o.s ⟨BitVec.ofNat 32 n, none, none⟩ ∧ (s.g o.ra.val).toNat < 2 ^ (32 - n) ∧
      (n < 32 → 2 ^ (31 - n) ≤ (s.g o.ra.val).toNat) := by
  generalize ha : s.g o.ra.val = a
  have hlen : bitLen a.toNat ≤ 32 := bitLen_le a.isLt
  refine ⟨32 - bitLen a.toNat, Nat.sub_le _ _, alu_write h hr rfl (ha ▸ plainOp_eq _), ?_, fun hn => ?_⟩
  · rw [Nat.sub_sub_self hlen]
    exact lt_two_pow_bitLen _
  · have h0 : a.toNat ≠ 0 := by
      intro h0
      simp [h0, bitLen] at hn
    have he : 31 - (32 - bitLen a.toNat) = bitLen a.toNat - 1 := by omega
    exact he ▸ two_pow_le_of_bitLen h0

/-- Settles O7: each row is an instruction whose function gives the row's result and flags. -/
theorem aluInstructions : Obligations.AluInstructions := by
  refine ⟨fun o s h hr => ?_, fun o s h hr => ?_, fun o s h hr => ?_, fun o s h hr => ?_⟩
  · obtain ⟨hadd, hadc, hsub, hsbc, hcmp⟩ := alu_arithmetic h hr
    refine ⟨hadd, hadc, hsub, hsbc, hcmp, alu_write h hr rfl ?_, alu_write h hr rfl (plainOp_eq _),
      alu_write h hr rfl (plainOp_eq _), alu_divide h hr⟩
    have hmul (a b : Word) : mulOp a b = plainOp (BitVec.ofNat 32 (a.toNat * b.toNat)) := by
      rw [mulOp, BitVec.ofNat_mul, BitVec.ofNat_toNat, BitVec.ofNat_toNat, BitVec.setWidth_eq, BitVec.setWidth_eq]
    rw [hmul, plainOp_eq]
  · exact ⟨alu_immWrite h hr rfl (addOp_zero _ _), alu_immWrite h hr rfl (plainOp_eq _), alu_immWrite h hr rfl (plainOp_eq _),
      alu_immWrite h hr rfl (plainOp_eq _), alu_immTest h hr rfl (subOp_one _ _), alu_immTest h hr rfl (plainOp_eq _), alu_mov h hr rfl,
      alu_mov h hr rfl⟩
  · refine ⟨alu_write h hr rfl (plainOp_eq _), alu_write h hr rfl (plainOp_eq _), alu_write h hr rfl (plainOp_eq _),
      alu_write h hr rfl (plainOp_eq _), alu_test h hr rfl (plainOp_eq _), alu_write h hr rfl ?_, alu_write h hr rfl ?_, alu_clz h hr⟩
    · rw [sextOf_eq (by decide), plainOp_eq]
    · rw [sextOf_eq (by decide), plainOp_eq]
  · exact ⟨alu_write h hr rfl (shiftOut_eq _ _), alu_write h hr rfl (shiftOut_eq _ _), alu_write h hr rfl (shiftOut_eq _ _),
      alu_write h hr rfl (shiftOut_eq _ _), alu_write h hr rfl (shiftOut_eq _ _), alu_write h hr rfl (shiftOut_eq _ _),
      alu_write h hr rfl (shiftOut_eq _ _), alu_write h hr rfl (shiftOut_eq _ _)⟩

end Sys2Proof.Machine
end

section
/-!
What is read after an act, equation by equation: fields that were put or left, events and faults whose registers nothing else looks
at, counts, and footprints peeled change by change.
-/
namespace Sys2Proof.Machine
open Sys2Proof.Reg

variable {s t u : State} {F : Foot} {α : Type}

/-! ### Fields -/

theorem State.bit_put_other {f g : Fld} (v : Nat) (h : g.addr ≠ f.addr) : (s.put f v).bit g = s.bit g := by
  rw [State.bit, State.fld_put_other v h, State.bit]
theorem State.bit_put_apart {f g : Fld} (hf : f.Full) (hg : g.Full) (v : Nat) (hd : g.addr = f.addr → g.hi < f.lo ∨ f.hi < g.lo) :
    (s.put f v).bit g = s.bit g := by rw [State.bit, State.fld_put_apart hf hg v hd, State.bit]
theorem State.bit_put_same {f : Fld} (hf : f.Full) (v : Nat) : (s.put f v).bit f = (v % 2 ^ (f.hi - f.lo + 1) == 1) := by
  rw [State.bit, State.fld_put_same hf]
theorem State.fld_putReg_other {a : Nat} {g : Fld} (v : Word) (h : g.addr ≠ a) : (s.putReg a v).fld g = s.fld g := by
  rw [State.fld, State.reg_putReg_other v h, State.fld]
theorem State.bit_putReg_other {a : Nat} {g : Fld} (v : Word) (h : g.addr ≠ a) : (s.putReg a v).bit g = s.bit g := by
  rw [State.bit, State.fld_putReg_other v h, State.bit]

/-- A register written is read through its mask. -/
theorem State.fld_putReg_same {g : Fld} (hg : g.Full) (v : Word) : (s.putReg g.addr v).fld g = bitsGet v g.hi g.lo := by
  rw [State.fld, State.reg_putReg_same, bitsGet_and_mask _ _ _ _ hg.2.2]

/-! ### Events, faults, performance counts -/

/-- The events lost by the time that an event has been emitted. -/
def State.evLostBy (s : State) (p e : Nat) : Sparse Nat := ((emit p e).run s).dev.evLost

theorem emit_noted (s : State) (p e : Nat) :
    s.Within (onlyRegs (evRegs p)) ((emit p e).run s) ∧ ((emit p e).run s).dev = { s.dev with evLost := s.evLostBy p e } ∧
      ((emit p e).run s).free = s.free := by
  have key : (emit p e).Gives s fun _ t => s.Within (onlyRegs (evRegs p)) t ∧ t.dev = { s.dev with evLost := t.dev.evLost } ∧
      t.free = s.free := by
    refine gives_bind (gives_getS ?_)
    split
    · refine gives_bind (gives_act (gives_setFlt.mono fun _ t ht => ⟨?_, ?_, ht.free⟩))
      · exact (State.within_live s rfl).trans ht.within
      · rw [ht.dev]; rfl
    · exact gives_emitNow.mono fun _ t ht => ⟨(ht.1.sub fun a => perfRegs_sub).within, by rw [ht.1.dev], ht.1.free⟩
  exact key.run

theorem setFlt_noted (s : State) (p b : Nat) : State.Noted (evRegs p) s ((setFlt p b).run s) := gives_setFlt.run
theorem perf_noted (s : State) (p e n : Nat) : State.Noted (perfRegs p) s ((perf p e n).run s) :=
  (gives_perf.mono fun _ _ h => h.1).run

section
variable (s : State) (p e n b : Nat) (f : Unit → M Unit)
@[simp] theorem run_emit_bind : (emit p e >>= f).run s = (f ()).run ((emit p e).run s) :=
  M.Gives.run_bind (gives_emit (s := s)) f
@[simp] theorem run_setFlt_bind : (setFlt p b >>= f).run s = (f ()).run ((setFlt p b).run s) :=
  M.Gives.run_bind (gives_setFlt (s := s)) f
@[simp] theorem run_perf_bind : (perf p e n >>= f).run s = (f ()).run ((perf p e n).run s) :=
  M.Gives.run_bind (gives_perf (s := s)) f

@[simp] theorem emit_dev : ((emit p e).run s).dev = { s.dev with evLost := s.evLostBy p e } := (emit_noted s p e).2.1
@[simp] theorem emit_core : ((emit p e).run s).core = s.core := (emit_noted s p e).1.core rfl
@[simp] theorem emit_free : ((emit p e).run s).free = s.free := (emit_noted s p e).2.2
@[simp] theorem emit_bad : ((emit p e).run s).bad = s.bad := (emit_noted s p e).1.bad rfl
@[simp] theorem emit_byte (i : Nat) : ((emit p e).run s).byte i = s.byte i := (emit_noted s p e).1.mem i rfl
@[simp] theorem emit_g (r : Nat) : ((emit p e).run s).g r = s.g r := by rw [State.g, emit_core, State.g]
@[simp] theorem emit_word (x : Tab) (i : Nat) : ((emit p e).run s).word x i = s.word x i := (emit_noted s p e).1.tab x rfl i
@[simp] theorem emit_otpByte (i : Nat) : ((emit p e).run s).otpByte i = s.otpByte i := (emit_noted s p e).1.otp rfl i
@[simp] theorem emit_pending : ((emit p e).run s).pending = s.pending := (emit_noted s p e).1.pending

@[simp] theorem setFlt_dev : ((setFlt p b).run s).dev = s.dev := (setFlt_noted s p b).dev
@[simp] theorem setFlt_core : ((setFlt p b).run s).core = s.core := (setFlt_noted s p b).core
@[simp] theorem setFlt_free : ((setFlt p b).run s).free = s.free := (setFlt_noted s p b).free
@[simp] theorem setFlt_bad : ((setFlt p b).run s).bad = s.bad := (setFlt_noted s p b).within.bad rfl
@[simp] theorem setFlt_byte (i : Nat) : ((setFlt p b).run s).byte i = s.byte i := (setFlt_noted s p b).within.mem i rfl
@[simp] theorem setFlt_g (r : Nat) : ((setFlt p b).run s).g r = s.g r := by rw [State.g, setFlt_core, State.g]
@[simp] theorem setFlt_word (x : Tab) (i : Nat) : ((setFlt p b).run s).word x i = s.word x i := (setFlt_noted s p b).within.tab x rfl i
@[simp] theorem setFlt_otpByte (i : Nat) : ((setFlt p b).run s).otpByte i = s.otpByte i := (setFlt_noted s p b).within.otp rfl i
@[simp] theorem setFlt_pending : ((setFlt p b).run s).pending = s.pending := (setFlt_noted s p b).within.pending

@[simp] theorem perf_dev : ((perf p e n).run s).dev = s.dev := (perf_noted s p e n).dev
@[simp] theorem perf_core : ((perf p e n).run s).core = s.core := (perf_noted s p e n).core
@[simp] theorem perf_byte (i : Nat) : ((perf p e n).run s).byte i = s.byte i := (perf_noted s p e n).within.mem i rfl
@[simp] theorem perf_g (r : Nat) : ((perf p e n).run s).g r = s.g r := by rw [State.g, perf_core, State.g]
end

section
variable {p e n b a : Nat} {f : Fld}
theorem emit_reg (h : a ∉ evRegs p) : ((emit p e).run s).reg a = s.reg a := (emit_noted s p e).1.reg h
theorem emit_fld (h : f.addr ∉ evRegs p) : ((emit p e).run s).fld f = s.fld f := by rw [State.fld, emit_reg h, State.fld]
theorem emit_bit (h : f.addr ∉ evRegs p) : ((emit p e).run s).bit f = s.bit f := by rw [State.bit, emit_fld h, State.bit]
theorem setFlt_reg (h : a ∉ evRegs p) : ((setFlt p b).run s).reg a = s.reg a := (setFlt_noted s p b).reg h
theorem setFlt_fld (h : f.addr ∉ evRegs p) : ((setFlt p b).run s).fld f = s.fld f := by rw [State.fld, setFlt_reg h, State.fld]
theorem setFlt_bit (h : f.addr ∉ evRegs p) : ((setFlt p b).run s).bit f = s.bit f := by rw [State.bit, setFlt_fld h, State.bit]
theorem setFlt_bit_set (h : (fltBit p b).Full) : ((setFlt p b).run s).bit (fltBit p b) = true := ((gives_setFlt_bit h).run).1
theorem perf_reg (h : a ∉ perfRegs p) : ((perf p e n).run s).reg a = s.reg a := (perf_noted s p e n).reg h
theorem perf_fld (h : f.addr ∉ perfRegs p) : ((perf p e n).run s).fld f = s.fld f := by rw [State.fld, perf_reg h, State.fld]
theorem perf_bit (h : f.addr ∉ perfRegs p) : ((perf p e n).run s).bit f = s.bit f := by rw [State.bit, perf_fld h, State.bit]
end

/-! ### Counts -/

/-- The state with a mailbox count given a value. -/
def State.counted (s : State) (p i w v : Nat) : State :=
  s.live fun d => { d with ctr := Sparse.set (fun _ => 0) d.ctr (ctrKey p i w) v }

section
variable (s : State) (p i w v bits n : Nat) (f : Unit → M Unit)
@[simp] theorem run_countN : (countN bits p i w n).run s = s.counted p i w (min (2 ^ bits - 1) (s.ctr p i w + n)) := (rfl)
@[simp] theorem run_countN_bind :
    (countN bits p i w n >>= f).run s = (f ()).run (s.counted p i w (min (2 ^ bits - 1) (s.ctr p i w + n))) := (rfl)
@[simp] theorem run_count : (count p i w).run s = s.counted p i w (min 0xFFFFFFFF (s.ctr p i w + 1)) := (rfl)
@[simp] theorem run_count_bind : (count p i w >>= f).run s = (f ()).run (s.counted p i w (min 0xFFFFFFFF (s.ctr p i w + 1))) := (rfl)
@[simp] theorem run_setCtr : (setCtr p i w v).run s = s.counted p i w v := (rfl)
@[simp] theorem run_setCtr_bind : (setCtr p i w v >>= f).run s = (f ()).run (s.counted p i w v) := (rfl)
@[simp] theorem run_stat (e : Nat) : (stat e).run s = s.counted statsPage (0x20 + e / 4) (e % 4)
    (min 0xFFFFFFFF (s.ctr statsPage (0x20 + e / 4) (e % 4) + 1)) := (rfl)
@[simp] theorem run_stat_bind (e : Nat) : (stat e >>= f).run s = (f ()).run (s.counted statsPage (0x20 + e / 4) (e % 4)
    (min 0xFFFFFFFF (s.ctr statsPage (0x20 + e / 4) (e % 4) + 1))) := (rfl)
@[simp] theorem State.counted_dev :
    (s.counted p i w v).dev = { s.dev with ctr := Sparse.set (fun _ => 0) s.dev.ctr (ctrKey p i w) v } := (rfl)
@[simp] theorem State.counted_core : (s.counted p i w v).core = s.core := (rfl)
@[simp] theorem State.counted_reg (a : Nat) : (s.counted p i w v).reg a = s.reg a := (rfl)
@[simp] theorem State.counted_fld (x : Fld) : (s.counted p i w v).fld x = s.fld x := (rfl)
@[simp] theorem State.counted_bit (x : Fld) : (s.counted p i w v).bit x = s.bit x := (rfl)
@[simp] theorem State.counted_byte (a : Nat) : (s.counted p i w v).byte a = s.byte a := (rfl)
@[simp] theorem State.counted_g (r : Nat) : (s.counted p i w v).g r = s.g r := (rfl)
@[simp] theorem State.counted_word (x : Tab) (j : Nat) : (s.counted p i w v).word x j = s.word x j := by cases x <;> rfl
@[simp] theorem State.counted_otpByte (j : Nat) : (s.counted p i w v).otpByte j = s.otpByte j := (rfl)
@[simp] theorem State.ctr_put (x : Fld) (m : Nat) : (s.put x m).ctr p i w = s.ctr p i w := (rfl)
@[simp] theorem State.ctr_putReg (a : Nat) (m : Word) : (s.putReg a m).ctr p i w = s.ctr p i w := (rfl)
@[simp] theorem State.ctr_emit (q e : Nat) : ((emit q e).run s).ctr p i w = s.ctr p i w := by rw [State.ctr, emit_dev, State.ctr]
@[simp] theorem State.ctr_setFlt (q b : Nat) : ((setFlt q b).run s).ctr p i w = s.ctr p i w := by rw [State.ctr, setFlt_dev, State.ctr]
@[simp] theorem State.ctr_perf (q e m : Nat) : ((perf q e m).run s).ctr p i w = s.ctr p i w := by rw [State.ctr, perf_dev, State.ctr]
@[simp] theorem State.ctr_counted_same : (s.counted p i w v).ctr p i w = v := by
  rw [State.ctr, State.counted_dev, Sparse.get_set_same]
end

theorem State.ctr_counted_other {p i w v p' i' w' : Nat} (h : ctrKey p' i' w' ≠ ctrKey p i w) :
    (s.counted p i w v).ctr p' i' w' = s.ctr p' i' w' := by
  rw [State.ctr, State.counted_dev, Sparse.get_set_other _ _ _ _ _ h, State.ctr]

/-- A change of the units that leaves the counts. -/
theorem State.ctr_live {f : Dev → Dev} (h : (f s.dev).ctr = s.dev.ctr) (p i w : Nat) : (s.live f).ctr p i w = s.ctr p i w := by
  rw [State.ctr, State.live_dev, h, State.ctr]

/-! ### The core -/

/-- The state with the core changed, as `modCore` leaves it. -/
def State.recore (s : State) (f : Core → Core) : State := Prim.run (.core f) s

section
variable (s : State) (f : Core → Core) (g : Unit → M Unit)
@[simp] theorem run_modCore : (modCore f).run s = s.recore f := (rfl)
@[simp] theorem run_modCore_bind : (modCore f >>= g).run s = (g ()).run (s.recore f) := (rfl)
@[simp] theorem run_setG (r : Nat) (v : Word) : (setG r v).run s = s.recore fun c => { c with g := Sparse.set wordReset c.g r v } := (rfl)
@[simp] theorem run_setG_bind (r : Nat) (v : Word) :
    (setG r v >>= g).run s = (g ()).run (s.recore fun c => { c with g := Sparse.set wordReset c.g r v }) := (rfl)
@[simp] theorem State.recore_core : (s.recore f).core = (f s.core).norm := (rfl)
@[simp] theorem State.recore_dev : (s.recore f).dev = s.dev := (rfl)
@[simp] theorem State.recore_reg (a : Nat) : (s.recore f).reg a = s.reg a := (rfl)
@[simp] theorem State.recore_fld (x : Fld) : (s.recore f).fld x = s.fld x := (rfl)
@[simp] theorem State.recore_bit (x : Fld) : (s.recore f).bit x = s.bit x := (rfl)
@[simp] theorem State.recore_byte (i : Nat) : (s.recore f).byte i = s.byte i := (rfl)
@[simp] theorem State.recore_otpByte (i : Nat) : (s.recore f).otpByte i = s.otpByte i := (rfl)
@[simp] theorem State.recore_ctr (p i w : Nat) : (s.recore f).ctr p i w = s.ctr p i w := (rfl)
@[simp] theorem State.recore_pending : (s.recore f).pending = s.pending := (rfl)
end

/-! ### Footprints, peeled -/

/-- A change that a footprint allows may be left out. -/
theorem State.within_iff_of_within (h : t.Within F u) : s.Within F u ↔ s.Within F t :=
  ⟨fun g => ⟨fun a ha => (h.regs a ha).symm.trans (g.regs a ha), fun a ha => (h.mem a ha).symm.trans (g.mem a ha),
    fun x hx i => (h.tab x hx i).symm.trans (g.tab x hx i), fun ho i => (h.otp ho i).symm.trans (g.otp ho i),
    fun hb => (h.bad hb).symm.trans (g.bad hb), fun hc => (h.core hc).symm.trans (g.core hc),
    fun hk => (h.keys hk).symm.trans (g.keys hk), h.pending.symm.trans g.pending⟩, fun g => g.trans h⟩

theorem State.within_put_iff {f : Fld} {v : Nat} (h : F.regs f.addr = true) : s.Within F (t.put f v) ↔ s.Within F t :=
  State.within_iff_of_within (State.within_put v h)

theorem State.within_putReg {a : Nat} {v : Word} (h : F.regs a = true) : t.Within F (t.putReg a v) :=
  (keeps_reg h).all t |>.run

theorem State.within_putReg_iff {a : Nat} {v : Word} (h : F.regs a = true) : s.Within F (t.putReg a v) ↔ s.Within F t :=
  State.within_iff_of_within (State.within_putReg h)

theorem State.within_live_iff {f : Dev → Dev} (h : (f t.dev).keys = t.dev.keys) : s.Within F (t.live f) ↔ s.Within F t :=
  State.within_iff_of_within (State.within_live t h)

@[simp] theorem State.within_counted_iff {p i w v : Nat} : s.Within F (t.counted p i w v) ↔ s.Within F t :=
  State.within_live_iff rfl

theorem State.Within.of_onlyRegs {l : List Nat} (h : t.Within (onlyRegs l) u) (hl : ∀ a ∈ l, F.regs a = true) : t.Within F u :=
  ⟨fun a ha => h.reg fun hm => by simp [hl a hm] at ha, fun a _ => h.mem a rfl, fun x _ => h.tab x rfl,
    fun _ => h.otp rfl, fun _ => h.bad rfl, fun _ => h.core rfl, fun _ => h.keys rfl, h.pending⟩

theorem State.within_emit_iff {p e : Nat} (h : ∀ a ∈ evRegs p, F.regs a = true) : s.Within F ((emit p e).run t) ↔ s.Within F t :=
  State.within_iff_of_within ((emit_noted t p e).1.of_onlyRegs h)

theorem State.within_setFlt_iff {p b : Nat} (h : ∀ a ∈ evRegs p, F.regs a = true) : s.Within F ((setFlt p b).run t) ↔ s.Within F t :=
  State.within_iff_of_within ((setFlt_noted t p b).within.of_onlyRegs h)

theorem State.within_perf_iff {p e n : Nat} (h : ∀ a ∈ perfRegs p, F.regs a = true) : s.Within F ((perf p e n).run t) ↔ s.Within F t :=
  State.within_iff_of_within ((perf_noted t p e n).within.of_onlyRegs h)

theorem State.within_recore_iff {f : Core → Core} (h : F.core = true) : s.Within F (t.recore f) ↔ s.Within F t :=
  State.within_iff_of_within (((keeps_core h : M.Keeps F (act (.core f))).all t).run)

@[simp] theorem State.within_latch_iff : s.Within F (latchEdges u t) ↔ s.Within F t :=
  State.within_iff_of_within (State.within_refl t F).latch

@[simp] theorem State.within_self : s.Within F s := s.within_refl F

/-! ### Fields that a command sets, one after the other -/

theorem State.sets_refl {noted : List Nat} : s.Sets s [] noted F := ⟨fun _ _ _ => rfl, s.within_refl _⟩

theorem State.Sets.put {l : List (Fld × Nat)} {noted : List Nat} (h : s.Sets t l noted F) (ht : t.Inv) {f : Fld} (hf : f.Full)
    (hr : resetWord f.addr &&& BitVec.ofNat 32 (maskOf f.addr) = resetWord f.addr) (v : Nat) :
    s.Sets (t.put f v) (l ++ [(f, v)]) noted F := by
  obtain ⟨hle, -, hm⟩ := hf
  refine ⟨fun a hn hF => ?_, (State.within_put_iff rfl).mpr h.rest⟩
  have hafter : s.after (l ++ [(f, v)]) a = if f.addr = a then bitsPut (s.after l a) f.hi f.lo v else s.after l a := by
    simp [State.after, List.foldl_append]
  rw [hafter]
  by_cases ha : f.addr = a
  · subst ha
    rw [if_pos rfl, State.put, State.reg_written, bitsPut_and_mask hle hm (ht.reg_and_mask hr), h.regs _ hn hF]
  · rw [if_neg ha, State.reg_put_other v (Ne.symm ha), h.regs a hn hF]

/-- A change of what is noted, of memory or of the units may be left out. -/
theorem State.Sets.step {l : List (Fld × Nat)} {noted : List Nat} (h : s.Sets t l noted F)
    (hw : t.Within { F with regs := fun a => F.regs a || decide (a ∈ noted) } u) : s.Sets u l noted F :=
  ⟨fun a hn hF => (hw.regs a (by simp [hn, hF])).trans (h.regs a hn hF), h.rest.trans
    { hw with regs := fun a ha => absurd ha (by simp) }⟩

/-! ### Acts without a result -/

/-- An act that has one outcome in every state: it is built from primitive changes alone. -/
structure M.Total (m : M α) : Prop where
  all : ∀ s : State, m.Gives s fun _ _ => True

theorem M.Keeps.total {m : M α} (h : m.Keeps F) : m.Total := ⟨fun s => (h.all s).mono fun _ _ _ => trivial⟩
theorem total_pure (a : α) : (pure a : M α).Total := ⟨fun _ => gives_pure trivial⟩
theorem total_getS : M.Total getS := ⟨fun _ => gives_getS trivial⟩
theorem total_act (p : Prim) : M.Total (act p) := ⟨fun _ => gives_act trivial⟩
theorem total_bind {β : Type} {m : M α} {f : α → M β} (h : m.Total) (g : ∀ a, (f a).Total) : (m >>= f).Total :=
  ⟨fun s => gives_bind ((h.all s).mono fun a t _ => (g a).all t)⟩
theorem total_ite {c : Prop} [Decidable c] {a b : M α} (h : a.Total) (g : b.Total) : (if c then a else b).Total := by
  split
  · exact h
  · exact g
theorem total_setFld (f : Fld) (v : Nat) : (setFld f v).Total := ⟨fun _ => gives_setFld trivial⟩
theorem total_wr (a : Nat) (v : Word) : (wr a v).Total := total_act _
theorem total_emit (p e : Nat) : (emit p e).Total := ⟨fun _ => gives_emit.mono fun _ _ _ => trivial⟩
theorem total_setFlt (p b : Nat) : (setFlt p b).Total := ⟨fun _ => gives_setFlt.mono fun _ _ _ => trivial⟩
theorem total_count (p i w : Nat) : (count p i w).Total := total_bind total_getS fun _ => total_act _

/-- Where such an act ends is where it is run to. -/
theorem M.Total.gives_run {m : M Unit} (h : m.Total) (s : State) : m.Gives s fun _ t => t = m.run s := by
  obtain ⟨a, t, _, hi, hk⟩ := h.all s
  exact ⟨a, t, (show m.run s = t from hk _).symm, hi, hk⟩

theorem M.Total.run_bind {m : M Unit} (h : m.Total) (f : Unit → M Unit) (s : State) : (m >>= f).run s = (f ()).run (m.run s) :=
  (h.all s).run_bind f

/-! ### Invariants along the way -/

theorem State.Inv.live (h : s.Inv) (f : Dev → Dev) : (s.live f).Inv := Prim.run_inv _ _ h
theorem State.Inv.counted (h : s.Inv) (p i w v : Nat) : (s.counted p i w v).Inv := h.live _
theorem State.Inv.run (h : s.Inv) (m : M Unit) : (m.run s).Inv := Act.run_inv _ _ h

end Sys2Proof.Machine
end

section
/-!
The body of an instruction: the state it begins in, and where each way of ending leads (R243, R250, R251, R256).
-/
namespace Sys2Proof.Machine
open Sys2Proof.Reg

variable {α : Type}

/-- The state in which an instruction's body begins: nothing has happened since `s` but its fetch. -/
structure State.Begun (s u : State) : Prop where
  inv : u.Inv
  core : u.core = { s.core with insn := true }
  within : s.Within coreFoot u
  dev : u.dev = { s.dev with ctr := u.dev.ctr, eccOne := u.dev.eccOne, eccBad := u.dev.eccBad }
  eccBad : u.dev.eccBad ⊆ s.dev.eccBad
  powerCtr : ∀ i k, u.ctr pwrPage i k = s.ctr pwrPage i k

/-- What is to be shown of an instruction's body that ends in one of its ways: `Q` of every state in which the instruction is
over, or of what raising its exception or calling its service comes to. -/
def Done.Settles (d : Done) (s t : State) (Q : State → Prop) : Prop :=
  let finishes (next : Word) (slot : Option LdSlot) : Prop :=
    t.core.insn = true ∧ ∀ w : State, w.Inv → w.core = t.core.retired next slot → t.Within coreFoot w → w.dev = t.dev → Q w
  match d with
  | .next | .ended => finishes (s.core.pc + 4) none
  | .goto a => finishes (a &&& 0xFFFFFFFC) none
  | .load rd v => finishes (s.core.pc + 4) (some ⟨rd, v, s.core.pc⟩)
  | .stop c => c ≠ stalled ∧ ∀ w : State, w.Inv → w.core = { t.core with insn := false } → t.Within coreFoot w → w.dev = t.dev →
      (raise c s.faultPc none).Gives w fun _ x => Q x
  | .svc n => t.core.insn = true ∧ ∀ w : State, w.Inv → w.core = t.core.retired (s.core.pc + 4) none → t.Within coreFoot w →
      w.dev = t.dev → (serviceCall n (s.core.pc + 4)).Gives w fun _ x => Q x
  | .again => ∀ w : State, w.Inv → w.core = { t.core with insn := false } → t.Within coreFoot w → w.dev = t.dev → Q w

theorem gives_modCore_insn {b : Bool} {s : State} {Q : Unit → State → Prop} (hs : s.Inv)
    (h : ∀ t : State, t.Inv → t.core = { s.core with insn := b } → s.Within coreFoot t → t.dev = s.dev → Q () t) :
    (modCore fun c => { c with insn := b }).Gives s Q :=
  gives_act (h _ (Prim.run_inv _ _ hs) (Core.norm_of_legal (hs.core.insn b)) (s.within_coreFoot _) rfl)

/-- Sampling looks on where TALLY is disabled, and does so after any change of the core. -/
theorem State.Within.noSample {s t : State} {F : Foot} (h : s.Within F t) (hF : F.regs (CTRL tallyPage) = false)
    (hs : s.en tallyPage = false) : t.en tallyPage = false := by
  rw [State.en, State.bit, State.fld, h.regs _ hF]
  exact hs

/-- A check of error-free memory counts at most an error corrected, in STATS. -/
theorem gives_sramCheck_powerCtr {s : State} {a : Nat} (h : a / 4 * 4 ∉ s.dev.eccBad) :
    (sramCheck a).Gives s fun b t => b = true ∧ ∀ i k, t.ctr pwrPage i k = s.ctr pwrPage i k := by
  have hstat (i k : Nat) : ((stat 0x14).run s).ctr pwrPage i k = s.ctr pwrPage i k := by
    rw [run_stat, State.ctr_counted_other]
    simp only [ctrKey, pwrPage, statsPage, ne_eq]
    omega
  refine gives_bind (gives_getS ?_)
  rw [if_neg h]
  split
  · refine gives_bind ((((total_count statsPage 0x25 0).gives_run s : (stat 0x14).Gives s _)).mono ?_)
    rintro _ _ rfl
    exact gives_bind (gives_act (gives_pure (And.intro rfl hstat)))
  · exact gives_pure (And.intro rfl fun _ _ => rfl)

/-- A fetch that goes through counts at most an error corrected. -/
theorem gives_fetch_powerCtr {s : State} (h : s.Fetches) :
    fetch.Gives s fun _ t => ∀ i k, t.ctr pwrPage i k = s.ctr pwrPage i k := by
  obtain ⟨⟨r, hr, hf, hk⟩, hm, hb⟩ := h
  have hw : s.windowWaits s.core.pc.toNat = true → s.core.icache.any (fun e => e.1 == s.core.pc.toNat / 32) = true := by
    intro hw
    split at hk
    case isTrue hs =>
      obtain ⟨lo, hi, kind⟩ := r
      subst hs
      simp [State.windowWaits, hr] at hw
    case isFalse => exact hk
  refine gives_bind (gives_getS ?_)
  simp only [hr, hf, hm]
  rw [if_neg (by simp), if_neg (by simpa using hw)]
  refine gives_bind ((gives_bpMiss hb).mono ?_)
  rintro _ _ ⟨rfl, rfl⟩
  simp only [Bool.false_eq_true, if_false]
  split
  case isTrue hs =>
    rw [if_pos hs] at hk
    refine gives_bind ((gives_sramCheck_powerCtr hk).mono ?_)
    rintro _ t ⟨rfl, ht⟩
    exact gives_pure ht
  case isFalse hs =>
    rw [if_neg hs] at hk
    rw [if_pos hk]
    exact gives_pure fun _ _ => rfl

/-- The fetch, and the start of the body. -/
theorem gives_fetch_begun {s : State} (h : s.Ready) :
    fetch.Gives s fun c t => c = none ∧ t.Inv ∧ s.Fetched t ∧ t.dev.eccBad ⊆ s.dev.eccBad ∧
      ∀ i k, t.ctr pwrPage i k = s.ctr pwrPage i k :=
  (((gives_fetch h.fetches).and (gives_fetch_eccBad h.fetches)).and (gives_fetch_powerCtr h.fetches)).monoInv h.inv
    fun _ _ hi ⟨⟨⟨hc, hf⟩, he⟩, hp⟩ => ⟨hc, hi, hf, he, hp⟩

theorem State.Fetched.begun {s u v : State} (hu : s.Fetched u) (he : u.dev.eccBad ⊆ s.dev.eccBad)
    (hp : ∀ i k, u.ctr pwrPage i k = s.ctr pwrPage i k) (hv : v.Inv)
    (hc : v.core = { u.core with insn := true }) (hw : u.Within coreFoot v) (hd : v.dev = u.dev) : s.Begun v :=
  ⟨hv, by rw [hc, hu.core], hu.within.trans hw, by rw [hd]; exact hu.hw, by rw [hd]; exact he,
    fun i k => by rw [State.ctr, hd]; exact hp i k⟩

/-- As `gives_retire`, wherever execution goes on: PC has no bits 1:0 (R238). -/
theorem gives_retire_masked {next : Word} {slot : Option LdSlot} {s : State} (hs : s.Inv) :
    (retire next slot).Gives s fun _ t => t.core = s.core.retired (next &&& 0xFFFFFFFC) slot ∧ s.Within coreFoot t ∧ t.dev = s.dev := by
  obtain ⟨h1, h2, h3⟩ := hs.core
  refine gives_bind (gives_getS ?_)
  cases hsl : s.core.slot with
  | none =>
    refine gives_bind (gives_nop (gives_act ⟨?_, s.within_coreFoot _, rfl⟩))
    simp only [Prim.run_core_core, Core.retired, hsl, Core.norm, h2, h3]
  | some l =>
    refine gives_bind (gives_act (gives_act ⟨?_, (s.within_coreFoot _).trans (State.within_coreFoot _ _), rfl⟩))
    simp only [Prim.run_core_core, Core.retired, hsl, Core.norm, h2, h3]

/-- The end of a body that completes the instruction, its retirement. -/
theorem gives_ends {t w : State} {next : Word} {slot : Option LdSlot} {k : M Unit} {Q : State → Prop} (hwi : w.Inv)
    (hw : State.Noted (perfRegs intcPage) t w) 
    (hk : ∀ x : State, x.Inv → x.core = t.core.retired (next &&& 0xFFFFFFFC) slot → t.Within coreFoot x → x.dev = t.dev →
      k.Gives x fun _ y => Q y) :
    ((retire next slot) >>= fun _ => k).Gives w fun _ y => Q y := by
  refine gives_bind ((gives_retire_masked hwi).monoInv hwi ?_)
  rintro _ x hxi ⟨g1, g2, g3⟩
  exact hk x hxi (by rw [g1, hw.core]) (hw.coreFoot.trans g2) (by rw [g3, hw.dev])

theorem gives_stepBrk_off {s : State} : (stepBrk false).Gives s fun _ t => t = s :=
  gives_bind (gives_getS (gives_pure rfl))

/-- An instruction that is not reserved runs its body; what comes of each end is to be shown. -/
theorem gives_insn_body {s : State} {word : Word} {forbid : Bool} {body : M Done} {Q : State → Prop} (h : s.Ready)
    (hf : forbid = false ∨ s.core.slot = none)
    (hb : ∀ u, s.Begun u → body.Gives u fun d t => t.en tallyPage = false ∧ d.Settles s t Q) :
    (insn word false forbid body).Gives s fun _ t => Q t := by
  have hp := pc_next h.inv.core
  refine gives_bind (gives_getS ?_)
  simp only [h.runs, if_true, h.noStep]
  refine gives_bind ((gives_fetch_begun h).mono ?_)
  rintro _ u ⟨rfl, hui, hu, hecc, hpow⟩
  simp only [Bool.false_eq_true, if_false]
  rw [if_neg (by rcases hf with hf | hf <;> simp [hf])]
  refine gives_bind (gives_modCore_insn hui fun v hvi hvc hvw hvd => ?_)
  refine gives_bind ((hb v (hu.begun hecc hpow hvi hvc hvw hvd)).monoInv hvi ?_)
  rintro d t hti ⟨hen, hd⟩
  have sample {w : State} {a b c : Word} {x y : Bool} {Q : Unit → State → Prop} (hw : State.Noted (perfRegs intcPage) t w)
      (hq : Q () w) : (tallySample a b c x y).Gives w Q := by
    refine (gives_noSample ?_).mono fun _ _ e => e ▸ hq
    rw [State.en, State.bit, State.fld, hw.reg (by decide)]
    exact hen
  have step {w : State} (hq : Q w) : (stepBrk false).Gives w fun _ y => Q y := gives_stepBrk_off.mono fun _ _ e => e ▸ hq
  cases d with
  | stop c =>
    obtain ⟨hc, hr⟩ := hd
    refine gives_bind (gives_modCore_insn hti fun w hwi hwc hww hwd => ?_)
    rw [if_neg hc]
    refine gives_bind ((gives_noSample (hww.noSample (by decide) hen)).mono ?_)
    rintro _ _ rfl
    exact hr _ hwi hwc hww hwd
  | again =>
    refine gives_bind (gives_modCore_insn hti fun w hwi hwc hww hwd => ?_)
    refine (gives_noSample (hww.noSample (by decide) hen)).mono ?_
    rintro _ _ rfl
    exact hd _ hwi hwc hww hwd
  | ended =>
    obtain ⟨h1, h3⟩ := hd
    refine gives_bind (gives_getS (gives_bind (sample (State.noted_refl _ _) ?_)))
    rw [if_pos h1]
    exact gives_ends hti (State.noted_refl _ _) fun x hxi g1 g2 g3 => step (h3 x hxi (hp ▸ g1) g2 g3)
  | next =>
    obtain ⟨h1, h3⟩ := hd
    refine gives_bind (gives_getS (gives_bind (gives_perf.monoInv hti ?_)))
    rintro _ w hwi ⟨hw, _⟩
    refine gives_bind (sample hw ?_)
    rw [if_pos h1]
    exact gives_ends hwi hw fun x hxi g1 g2 g3 => step (h3 x hxi (hp ▸ g1) g2 g3)
  | goto a =>
    obtain ⟨h1, h3⟩ := hd
    refine gives_bind (gives_getS (gives_bind (gives_perf.monoInv hti ?_)))
    rintro _ w hwi ⟨hw, _⟩
    refine gives_bind (sample hw ?_)
    rw [if_pos h1]
    exact gives_ends hwi hw fun x hxi g1 g2 g3 => step (h3 x hxi g1 g2 g3)
  | load rd v =>
    obtain ⟨h1, h3⟩ := hd
    refine gives_bind (gives_getS (gives_bind (gives_perf.monoInv hti ?_)))
    rintro _ w hwi ⟨hw, _⟩
    refine gives_bind (sample hw ?_)
    rw [if_pos h1]
    refine (gives_retire hwi hp).monoInv hwi ?_
    rintro _ x hxi ⟨g1, g2, g3⟩
    exact h3 x hxi (by rw [g1, hw.core]) (hw.coreFoot.trans g2) (by rw [g3, hw.dev])
  | svc n =>
    obtain ⟨h1, h3⟩ := hd
    refine gives_bind (gives_getS (gives_bind (gives_perf.monoInv hti ?_)))
    rintro _ w hwi ⟨hw, _⟩
    refine gives_bind (sample hw ?_)
    rw [if_pos h1]
    exact gives_ends hwi hw fun x hxi g1 g2 g3 => h3 x hxi (hp ▸ g1) g2 g3

/-- A reserved encoding raises ILLEGAL in place of its body (R243). -/
theorem gives_insn_reserved {s : State} {word : Word} {forbid : Bool} {body : M Done} {Q : Unit → State → Prop} (h : s.Ready)
    (hq : ∀ w : State, w.Inv → w.core = { s.core with insn := false } → s.Within coreFoot w → w.dev.eccBad ⊆ s.dev.eccBad →
      (raise illegal s.faultPc none).Gives w Q) : (insn word true forbid body).Gives s Q := by
  refine gives_bind (gives_getS ?_)
  simp only [h.runs, if_true, h.noStep]
  refine gives_bind ((gives_fetch_begun h).mono ?_)
  rintro _ u ⟨rfl, hui, hu, hecc, hpow⟩
  refine gives_bind (gives_modCore_insn hui fun w hwi hwc hww hwd => ?_)
  rw [if_neg (by decide)]
  have hsw := hu.within.trans hww
  refine gives_bind ((gives_noSample (hsw.noSample (by decide) h.noSample)).mono ?_)
  rintro _ _ rfl
  exact hq _ hwi (by rw [hwc, hu.core]) hsw (hwd ▸ hecc)

/-- What may not stand in a load slot retires the load and raises ILLEGAL (R251). -/
theorem gives_insn_forbidden {s : State} {word : Word} {body : M Done} {l : LdSlot} {Q : Unit → State → Prop} (h : s.Ready)
    (hl : s.core.slot = some l)
    (hq : ∀ w : State, w.Inv → w.core = s.core.retired s.core.pc none → s.Within coreFoot w → w.dev.eccBad ⊆ s.dev.eccBad →
      (raise ⟨vIllegal, kSlot, 0⟩ s.core.pc none).Gives w Q) : (insn word false true body).Gives s Q := by
  refine gives_bind (gives_getS ?_)
  simp only [h.runs, if_true, h.noStep, hl]
  refine gives_bind ((gives_fetch_begun h).mono ?_)
  rintro _ u ⟨rfl, hui, hu, hecc, hpow⟩
  simp only [Bool.false_eq_true, if_false, Option.isSome_some, Bool.and_self, if_true]
  refine gives_bind ((gives_retire hui h.inv.core.1).monoInv hui ?_)
  rintro _ w hwi ⟨g1, g2, g3⟩
  have hsw := hu.within.trans g2
  refine gives_bind ((gives_noSample (hsw.noSample (by decide) h.noSample)).mono ?_)
  rintro _ _ rfl
  exact hq _ hwi (by rw [g1, hu.core]) hsw (g3 ▸ hecc)

/-! ### What a body sees of the state before it -/

theorem State.Begun.g {s u : State} (h : s.Begun u) (r : Nat) : u.g r = s.g r := by rw [State.g, h.core, State.g]
theorem State.Begun.st {s u : State} (h : s.Begun u) : u.core.st = s.core.st := by rw [h.core]
theorem State.Begun.pc {s u : State} (h : s.Begun u) : u.core.pc = s.core.pc := by rw [h.core]
theorem State.Begun.noSample {s u : State} (h : s.Begun u) (hs : s.Ready) : u.en tallyPage = false :=
  h.within.noSample (by decide) hs.noSample
theorem State.Begun.sysMode {s u : State} (h : s.Begun u) : u.sysMode = s.sysMode := by rw [State.sysMode, h.st, State.sysMode]

/-- A later state in which the MPU, the breakpoints and the mode are as before, and no error has been added to memory: an access
that goes through before goes through then. -/
structure State.Steady (s t : State) : Prop where
  regs : ∀ a, coreFoot.regs a = false → t.reg a = s.reg a
  st : t.core.st = s.core.st
  eccBad : t.dev.eccBad ⊆ s.dev.eccBad

theorem State.steady_refl (s : State) : s.Steady s := ⟨fun _ _ => rfl, rfl, List.Subset.refl _⟩
theorem State.Steady.trans {s t u : State} (h : s.Steady t) (g : t.Steady u) : s.Steady u :=
  ⟨fun a ha => (g.regs a ha).trans (h.regs a ha), g.st.trans h.st, List.Subset.trans g.eccBad h.eccBad⟩
theorem State.Begun.steady {s u : State} (h : s.Begun u) : s.Steady u := ⟨h.within.regs, h.st, h.eccBad⟩

/-- The registers that the MPU and the breakpoints look at are none that the core counts in. -/
theorem coreFoot_regs {a : Nat} (h : a ∉ perfRegs intcPage) : coreFoot.regs a = false :=
  decide_eq_false (by simpa [evRegs, perfRegs] using h)

theorem not_mem_perf_of_private {a : Nat} (h : 0xE0000000 ≤ a) : a ∉ perfRegs intcPage := by
  simp only [perfRegs, List.mem_cons, List.not_mem_nil, or_false, PERF_CNT, intcPage]
  omega

theorem mpuRlim_ge (i : Nat) : 0xE0000000 ≤ MPU_RLIM i := by rw [MPU_RLIM]; omega
theorem mpuRbase_ge (i : Nat) : 0xE0000000 ≤ MPU_RBASE i := by rw [MPU_RBASE]; omega
theorem bpCtl_ge (n : Nat) : 0xE0000000 ≤ BP_CTL n := by rw [BP_CTL]; omega
theorem bpAddr_ge (n : Nat) : 0xE0000000 ≤ BP_ADDR n := by rw [BP_ADDR]; omega

theorem State.Steady.fld {s t : State} (h : s.Steady t) {f : Fld} (hf : 0xE0000000 ≤ f.addr) : t.fld f = s.fld f := by
  rw [State.fld, h.regs _ (coreFoot_regs (not_mem_perf_of_private hf)), State.fld]

theorem State.Steady.bit {s t : State} (h : s.Steady t) {f : Fld} (hf : 0xE0000000 ≤ f.addr) : t.bit f = s.bit f := by
  rw [State.bit, h.fld hf, State.bit]

theorem State.Steady.sysMode {s t : State} (h : s.Steady t) : t.sysMode = s.sysMode := by
  rw [State.sysMode, h.st, State.sysMode]

theorem State.Steady.mpuOk {s t : State} (h : s.Steady t) {need : Nat → Fld} (hn : ∀ i, 0xE0000000 ≤ (need i).addr) (a : Nat) :
    t.mpuOk need a = s.mpuOk need a := by
  have hhas (i : Nat) : t.mpuHas i a = s.mpuHas i a := by
    simp only [State.mpuHas, h.bit (f := MPU_RLIM_EN i) (mpuRlim_ge i), h.fld (f := MPU_RBASE_BASE i) (mpuRbase_ge i),
      h.fld (f := MPU_RLIM_LIMIT i) (mpuRlim_ge i)]
  have hneed (i : Nat) : t.bit (need i) = s.bit (need i) := h.bit (hn i)
  have hS (i : Nat) : t.bit (MPU_RLIM_S i) = s.bit (MPU_RLIM_S i) := h.bit (mpuRlim_ge i)
  have hen : t.bit MPU_CTRL_EN = s.bit MPU_CTRL_EN := h.bit (by decide)
  simp only [State.mpuOk, State.mpuSys, State.mpuTask, h.sysMode, hhas, hneed, hS, hen]

theorem State.Steady.bpMatch {s t : State} (h : s.Steady t) (kinds : List Nat) (a n : Nat) :
    t.bpMatch kinds a n = s.bpMatch kinds a n := by
  have haddr : t.reg (BP_ADDR n) = s.reg (BP_ADDR n) :=
    h.regs _ (coreFoot_regs (not_mem_perf_of_private (bpAddr_ge n)))
  simp only [State.bpMatch, h.bit (f := BP_CTL_EN n) (bpCtl_ge n), h.fld (f := BP_CTL_KIND n) (bpCtl_ge n),
    h.fld (f := BP_CTL_MASK n) (bpCtl_ge n), haddr]

theorem need_private (write : Bool) (i : Nat) : 0xE0000000 ≤ ((if write then MPU_RLIM_W else MPU_RLIM_R) i).addr := by
  cases write <;> exact mpuRlim_ge i

theorem State.Steady.sramAt {s t : State} (h : s.Steady t) {write : Bool} {a : Word} {n : Nat} (hs : s.SramAt write a n) :
    t.SramAt write a n :=
  ⟨hs.aligned, hs.lo, hs.hi, (h.mpuOk (need_private write) _).trans hs.mpu,
    fun k hk => (h.bpMatch _ _ _).trans (hs.noBreak k hk), fun hm => hs.clean (h.eccBad hm)⟩

/-! ### Accesses to main SRAM -/

theorem State.rangeOf_sram (s : State) {a : Nat} (hlo : 0x20000000 ≤ a) (hhi : a < 0x20080000) :
    s.rangeOf a = some ⟨0x20000000, 0x20080000, .sram⟩ := by
  rw [State.rangeOf, State.ranges, List.find?_cons_of_neg, List.find?_cons_of_neg, List.find?_cons_of_pos]
  all_goals simp only [Bool.and_eq_true, decide_eq_true_eq]; omega

theorem State.SramAt.rangeOf {s : State} {write : Bool} {a : Word} {n : Nat} (h : s.SramAt write a n) (hn : 0 < n) (t : State) :
    t.rangeOf a.toNat = some ⟨0x20000000, 0x20080000, .sram⟩ := by
  have := h.hi
  exact t.rangeOf_sram h.lo (by omega)

/-- Nothing stops an access to main SRAM that may be made. -/
theorem gives_accessStop_sram {p s : State} {write : Bool} {a : Word} {n : Nat} (h : s.SramAt write a n) (hn : 0 < n)
    (hp : p.SramAt write a n) : (accessStop p write n a).Gives s fun c t => c = none ∧ t = s := by
  have hr := h.rangeOf hn
  refine gives_bind (gives_getS ?_)
  have hwait : s.windowWaits a.toNat = false := by simp [State.windowWaits, hr]
  have hbus : s.busRefuses s.coreMaster write a.toNat = false := by simp [State.busRefuses, hr]
  rw [if_neg (by simp [h.aligned]), if_neg (by simp [hp.mpu]), if_neg (by simp [hwait])]
  refine gives_bind ((gives_bpMiss h.noBreak).mono ?_)
  rintro _ _ ⟨rfl, rfl⟩
  rw [if_neg (by decide), if_neg (by simp [hbus])]
  exact gives_pure ⟨rfl, rfl⟩

theorem accLen_pos (z : Size) : 0 < accLen z := by cases z <;> decide

theorem gives_coreGet_sram {s : State} {z : Size} {a : Word} (h : s.SramAt false a (accLen z)) :
    (coreGet z a).Gives s fun e t => e = .ok (wordOf (s.bytes a.toNat (accLen z))) ∧ s.Checked t := by
  have hr := h.rangeOf (accLen_pos z)
  refine gives_bind (gives_getS (gives_bind (gives_bind (gives_getS ?_))))
  simp only [hr]
  refine gives_bind ((gives_sramCheck h.clean).mono ?_)
  rintro _ t ⟨rfl, ht⟩
  exact gives_pure (gives_pure ⟨rfl, ht⟩)

/-- A read of main SRAM by the core. -/
theorem gives_coreRead_sram {p s : State} {z : Size} {a : Word} (h : s.SramAt false a (accLen z)) (hp : p.SramAt false a (accLen z)) :
    (coreRead p z a).Gives s fun e t => e = .ok (wordOf (s.bytes a.toNat (accLen z))) ∧ s.Checked t := by
  refine gives_bind ((gives_accessStop_sram h (accLen_pos z) hp).mono ?_)
  rintro _ _ ⟨rfl, rfl⟩
  exact gives_coreGet_sram h

theorem State.Checked.steady {s t : State} (h : s.Checked t) : s.Steady t :=
  ⟨fun a _ => (h.within {}).regs a rfl, by rw [h.core], h.eccBad⟩

/-! ### Octets stored -/

/-- The state with octets stored from an address upwards. -/
def State.putMem (s : State) : Nat → List Byte → State
  | _, [] => s
  | a, b :: l => State.putMem (Prim.run (.mem a b) s) (a + 1) l

theorem gives_putBytes {a : Nat} {l : List Byte} {s : State} {Q : Unit → State → Prop} (h : Q () (s.putMem a l)) :
    (putBytes a l).Gives s Q := by
  induction l generalizing s a with
  | nil => exact gives_nop h
  | cons b l ih => exact gives_bind (gives_act (ih h))

@[simp] theorem State.putMem_core (s : State) (a : Nat) (l : List Byte) : (s.putMem a l).core = s.core := by
  induction l generalizing s a with
  | nil => rfl
  | cons b l ih => exact ih _ _

@[simp] theorem State.putMem_dev (s : State) (a : Nat) (l : List Byte) : (s.putMem a l).dev = s.dev := by
  induction l generalizing s a with
  | nil => rfl
  | cons b l ih => exact ih _ _

@[simp] theorem State.putMem_reg (s : State) (a : Nat) (l : List Byte) (r : Nat) : (s.putMem a l).reg r = s.reg r := by
  induction l generalizing s a with
  | nil => rfl
  | cons b l ih => exact (ih _ _).trans (by simp)

theorem State.putMem_byte (s : State) (a : Nat) (l : List Byte) (x : Nat) :
    (s.putMem a l).byte x = if a ≤ x ∧ x < a + l.length then l.getD (x - a) 0 else s.byte x := by
  induction l generalizing s a with
  | nil => rw [if_neg (by simp)]; rfl
  | cons b l ih =>
    rw [State.putMem, ih]
    by_cases hx : x = a
    · subst hx
      rw [if_neg (by omega), State.byte_written, if_pos (by simp)]
      simp
    · rw [State.byte_other _ _ _ _ hx, List.length_cons]
      by_cases h : a + 1 ≤ x ∧ x < a + 1 + l.length
      · rw [if_pos h, if_pos (by omega), show x - a = x - (a + 1) + 1 from by omega]
        simp
      · rw [if_neg h, if_neg (by omega)]

theorem State.putMem_within {s : State} {F : Foot} {a : Nat} {l : List Byte} (h : ∀ i < l.length, F.mem (a + i) = true) :
    s.Within F (s.putMem a l) :=
  have hw := (keeps_putBytes (F := F) h).all s
  hw.run |> fun h => by
    rwa [show (putBytes a l).run s = s.putMem a l from
      (gives_putBytes (Q := fun _ t => t = s.putMem a l) rfl).run (P := fun t => t = s.putMem a l)] at h

theorem leBytes_length (n v : Nat) : (leBytes n v).length = n := by
  induction n generalizing v with
  | zero => rfl
  | succ n ih => simp [leBytes, ih]

/-- The octets just stored are read back. -/
theorem State.putMem_bytes (s : State) (a : Nat) (l : List Byte) : (s.putMem a l).bytes a l.length = l := by
  refine List.ext_getElem (by simp [State.bytes]) fun i h1 h2 => ?_
  simp only [State.bytes, List.getElem_map, List.getElem_range, State.putMem_byte]
  rw [if_pos (by omega), Nat.add_sub_cancel_left, List.getD_eq_getElem _ _ h2]

/-- What a write of main SRAM by the core leaves. -/
structure State.Stored (s t : State) (a n v : Nat) : Prop where
  core : t.core = s.core
  steady : s.Steady t
  within : s.Within (storeFoot a n) t
  byte : ∀ x, t.byte x = if a ≤ x ∧ x < a + n then (leBytes n v).getD (x - a) 0 else s.byte x

theorem State.Stored.bytes {s t : State} {a n v : Nat} (h : s.Stored t a n v) : t.bytes a n = leBytes n v := by
  refine List.ext_getElem (by simp [State.bytes, leBytes_length]) fun i h1 h2 => ?_
  simp only [State.bytes, List.getElem_map, List.getElem_range, h.byte]
  simp only [State.bytes, List.length_map, List.length_range] at h1
  rw [if_pos (by omega), Nat.add_sub_cancel_left, List.getD_eq_getElem _ _ h2]

theorem State.stored_putMem {s t : State} (hc : t.core = s.core) (hw : ∀ F : Foot, s.Within F t)
    (he : t.dev.eccBad ⊆ s.dev.eccBad) (a n v : Nat) : s.Stored (t.putMem a (leBytes n v)) a n v := by
  have hlen := leBytes_length n v
  refine ⟨by rw [State.putMem_core, hc], ⟨fun r _ => ?_, by rw [State.putMem_core, hc], by rw [State.putMem_dev]; exact he⟩,
    (hw _).trans (State.putMem_within fun i hi => ?_), fun x => ?_⟩
  · rw [State.putMem_reg, (hw {}).regs _ rfl]
  · exact decide_eq_true (by omega)
  · rw [State.putMem_byte, hlen, (hw {}).mem _ rfl]

theorem gives_busWrite_sram {s : State} {m : Master} {z : Size} {a : Nat} {v : Word} (hlo : 0x20000000 ≤ a)
    (hhi : a < 0x20080000) (hclean : a / 4 * 4 ∉ s.dev.eccBad) :
    (busWrite m z a v).Gives s fun e t => e = .ok 0 ∧ s.Stored t a (accLen z) v.toNat := by
  refine gives_bind (gives_getS ?_)
  simp only [s.rangeOf_sram hlo hhi]
  split
  · refine gives_bind (gives_act (gives_bind (gives_putBytes (gives_pure ⟨rfl, State.stored_putMem (s := s) ?_ (fun F => ?_) ?_ _ _ _⟩))))
    · rfl
    · exact ⟨fun _ _ => by simp, fun _ _ => by simp, fun _ _ _ => by simp, fun _ _ => by simp, fun _ => rfl, fun _ => rfl,
        fun _ => rfl, rfl⟩
    · exact List.filter_subset_self _
  · refine gives_bind ((gives_sramCheck hclean).mono ?_)
    rintro _ t ⟨rfl, ht⟩
    exact gives_bind (gives_putBytes (gives_pure ⟨rfl, State.stored_putMem (s := s) ht.core ht.within ht.eccBad _ _ _⟩))

theorem gives_corePut_sram {s : State} {z : Size} {a v : Word} (h : s.SramAt true a (accLen z)) :
    (corePut z a v).Gives s fun c t => c = none ∧ s.Stored t a.toNat (accLen z) v.toNat := by
  have hhi := h.hi
  have hpos := accLen_pos z
  refine gives_bind (gives_getS (gives_bind ((gives_busWrite_sram h.lo (by omega) h.clean).mono ?_)))
  rintro _ t ⟨rfl, ht⟩
  exact gives_pure ⟨rfl, ht⟩

/-- A write of main SRAM by the core. -/
theorem gives_coreWrite_sram {p s : State} {z : Size} {a v : Word} (h : s.SramAt true a (accLen z)) (hp : p.SramAt true a (accLen z)) :
    (coreWrite p z a v).Gives s fun c t => c = none ∧ s.Stored t a.toNat (accLen z) v.toNat := by
  refine gives_bind ((gives_accessStop_sram h (accLen_pos z) hp).mono ?_)
  rintro _ _ ⟨rfl, rfl⟩
  exact gives_corePut_sram h

theorem gives_accessCycles_sram {s : State} {write : Bool} {a : Word} {n : Nat} (h : s.SramAt write a n) (hn : 0 < n) :
    (accessCycles a.toNat).Gives s fun k t => k = 1 ∧ t = s := by
  refine gives_bind (gives_getS ?_)
  simp only [h.rangeOf hn s]
  exact gives_pure ⟨rfl, rfl⟩

theorem State.Ticked.steady {s t : State} (h : s.Ticked t) : s.Steady t := by
  obtain ⟨x, hx⟩ := h.core
  exact ⟨h.within.regs, by rw [hx], by rw [h.dev]; exact List.Subset.refl _⟩

end Sys2Proof.Machine
end

section
/-!
An instruction that goes through: what its body leaves of the core, step by step, and what it comes to once it has retired (R250).
-/
namespace Sys2Proof.Machine
open Sys2Proof.Reg

variable {s t u w : State}

/-- The core's footprint with some octets of memory. -/
def memFoot (m : Nat → Bool) : Foot := { coreFoot with mem := m }

theorem State.Within.memFoot {m : Nat → Bool} (h : s.Within coreFoot t) : s.Within (memFoot m) t :=
  ⟨h.regs, fun a _ => h.mem a rfl, h.tab, h.otp, h.bad, h.core, h.keys, h.pending⟩

/-- What a body has done by a point of it where it has touched nothing but CYCLE, the general registers and memory: the general
registers and the octets of memory as they stand. -/
structure State.Worked (s t : State) (g : Nat → Word) (b : Nat → Byte := s.byte) : Prop where
  core : ∃ x y, t.core = { s.core with insn := true, cycle := x, g := y }
  regs : ∀ k, t.g k = g k
  mem : ∀ x, t.byte x = b x
  rest : s.Within (memFoot fun _ => true) t
  eccBad : t.dev.eccBad ⊆ s.dev.eccBad

theorem State.Begun.worked (h : s.Begun u) : s.Worked u s.g :=
  ⟨⟨_, _, h.core⟩, h.g, fun x => h.within.mem x rfl, h.within.memFoot, h.eccBad⟩

variable {g : Nat → Word} {b : Nat → Byte} {m : Nat → Bool}

theorem State.Worked.within (h : s.Worked t g b) (hm : ∀ x, m x = false → b x = s.byte x) : s.Within (memFoot m) t :=
  { h.rest with mem := fun x hx => (h.mem x).trans (hm x hx) }

theorem State.Worked.steady (h : s.Worked t g b) : s.Steady t := by
  obtain ⟨x, y, hc⟩ := h.core
  exact ⟨h.rest.regs, by rw [hc], h.eccBad⟩

theorem State.Worked.noSample (h : s.Worked t g b) (hs : s.Ready) : t.en tallyPage = false :=
  h.rest.noSample (by simp [Sys2Proof.Machine.memFoot, coreFoot, evRegs]; decide) hs.noSample

/-- Time that passes, and words that are checked, change nothing of it. -/
theorem State.Worked.ticked (h : s.Worked t g b) (ht : t.Ticked u) : s.Worked u g b := by
  obtain ⟨x, y, hc⟩ := h.core
  obtain ⟨z, hz⟩ := ht.core
  exact ⟨⟨z, y, by rw [hz, hc]⟩, fun k => by rw [← h.regs k, State.g, hz, State.g],
    fun x => (ht.within.mem x rfl).trans (h.mem x), h.rest.trans ht.within.memFoot, by rw [ht.dev]; exact h.eccBad⟩

theorem State.Worked.checked (h : s.Worked t g b) (ht : t.Checked u) : s.Worked u g b :=
  ⟨by rw [ht.core]; exact h.core, fun k => by rw [← h.regs k, State.g, ht.core, State.g],
    fun x => ((ht.within {}).mem x rfl).trans (h.mem x), h.rest.trans (ht.within _), List.Subset.trans ht.eccBad h.eccBad⟩

/-- Memory with the low octets of a value stored, least significant first. -/
def storeAt (b : Nat → Byte) (a n v x : Nat) : Byte := if a ≤ x ∧ x < a + n then (leBytes n v).getD (x - a) 0 else b x

theorem storeAt_other {a n v x : Nat} (h : ¬ (a ≤ x ∧ x < a + n)) : storeAt b a n v x = b x := if_neg h

theorem State.Worked.stored {a n v : Nat} (h : s.Worked t g b) (ht : t.Stored u a n v) : s.Worked u g (storeAt b a n v) := by
  refine ⟨by rw [ht.core]; exact h.core, fun k => by rw [← h.regs k, State.g, ht.core, State.g],
    fun x => by rw [ht.byte, storeAt, h.mem], h.rest.trans ?_, List.Subset.trans ht.steady.eccBad h.eccBad⟩
  exact { ht.within with mem := fun x hx => absurd hx (by simp [Sys2Proof.Machine.memFoot]) }

/-- One general register of a function of them. -/
def regWith (g : Nat → Word) (r : Nat) (v : Word) (k : Nat) : Word := if k = r then v else g k

theorem State.Worked.setG {r : Nat} {v : Word} {Q : Unit → State → Prop} (h : s.Worked t g b) (hs : s.Inv) (ht : t.Inv)
    (hq : ∀ u : State, u.Inv → s.Worked u (regWith g r v) b → Q () u) : (setG r v).Gives t Q := by
  obtain ⟨x, y, hc⟩ := h.core
  refine gives_act (hq _ (Prim.run_inv _ _ ht) ⟨⟨x, Sparse.set wordReset y r v, ?_⟩, fun k => ?_, h.mem, h.rest.trans
    (State.within_coreFoot _ _).memFoot, h.eccBad⟩)
  · rw [Prim.run_core_core, hc]
    exact Core.norm_of_legal hs.core
  · rw [State.g, Prim.run_core_core, regWith, ← h.regs k, State.g]
    exact get_setG t.core r v k

theorem State.Worked.cyc {n : Nat} {Q : Unit → State → Prop} (h : s.Worked t g b) (ht : t.Inv)
    (hq : ∀ u : State, u.Inv → s.Worked u g b → Q () u) : (cyc n).Gives t Q :=
  (gives_cyc ht).monoInv ht fun _ _ hi hu => hq _ hi (h.ticked hu)

/-! ### Retirement -/

section
variable (c : Core) (next : Word) (sl : Option LdSlot)
@[simp] theorem Core.retired_pc : (c.retired next sl).pc = next := rfl
@[simp] theorem Core.retired_slot : (c.retired next sl).slot = sl := rfl
@[simp] theorem Core.retired_st : (c.retired next sl).st = c.st := by cases h : c.slot <;> simp [Core.retired, h]
@[simp] theorem Core.retired_xpc : (c.retired next sl).xpc = c.xpc := by cases h : c.slot <;> simp [Core.retired, h]
@[simp] theorem Core.retired_xst : (c.retired next sl).xst = c.xst := by cases h : c.slot <;> simp [Core.retired, h]
@[simp] theorem Core.retired_vbase : (c.retired next sl).vbase = c.vbase := by cases h : c.slot <;> simp [Core.retired, h]
@[simp] theorem Core.retired_xcause : (c.retired next sl).xcause = c.xcause := by cases h : c.slot <;> simp [Core.retired, h]
@[simp] theorem Core.retired_faddr : (c.retired next sl).faddr = c.faddr := by cases h : c.slot <;> simp [Core.retired, h]
@[simp] theorem Core.retired_icache : (c.retired next sl).icache = c.icache := by cases h : c.slot <;> simp [Core.retired, h]
@[simp] theorem Core.retired_run : (c.retired next sl).run = c.run := by cases h : c.slot <;> simp [Core.retired, h]
end

/-- A general register once an instruction has retired: a load in the slot before it is written last (R250). -/
theorem State.g_retired {next : Word} {sl : Option LdSlot} (hw : w.core = t.core.retired next sl)
    (hs : t.core.slot = s.core.slot) (k : Nat) : w.g k = s.slotted k (t.g k) := by
  rw [State.g, hw, State.slotted, ← hs]
  cases h : t.core.slot with
  | none => simp [Core.retired, h, State.g]
  | some l =>
    by_cases hk : k = l.rd
    · subst hk
      simp [Core.retired, h, Sparse.get_set_same]
    · simp [Core.retired, h, Sparse.get_set_other _ _ _ _ _ hk, hk, State.g]

/-- An instruction whose body leaves `t` has retired. -/
theorem State.Worked.executed {next : Word} (h : s.Worked t g b) (hm : ∀ x, m x = false → b x = s.byte x)
    (hw : w.core = t.core.retired next none) (hin : t.Within coreFoot w) : s.Executed w next g (memFoot m) ∧ w.core.st = s.core.st := by
  obtain ⟨x, y, hc⟩ := h.core
  refine ⟨⟨?_, ?_, fun k => ?_, ?_, ?_, ?_, ?_, ?_, ?_, (h.within hm).trans hin.memFoot⟩, ?_⟩
  case refine_3 => rw [State.g_retired (s := s) hw (by rw [hc]), h.regs]
  all_goals rw [hw]; simp [hc]

/-- How an instruction whose body leaves CYCLE, general registers and memory alone different completes: at `next`, what holds of
the state once it has retired. -/
theorem Done.settles_of_worked {d : Done} {Q : State → Prop} {next : Word} (m : Nat → Bool) (h : s.Worked t g b)
    (hm : ∀ x, m x = false → b x = s.byte x) (hd : d = .next ∧ next = s.core.pc + 4 ∨ d = .goto next ∧ next &&& 0xFFFFFFFC = next)
    (hq : ∀ w : State, s.Executed w next g (memFoot m) → w.core.st = s.core.st → (∀ x, w.byte x = b x) → Q w) :
    d.Settles s t Q := by
  obtain ⟨x, y, hc⟩ := h.core
  have fin (w : State) (hw : w.core = t.core.retired next none) (hin : t.Within coreFoot w) : Q w :=
    hq w (h.executed hm hw hin).1 (h.executed hm hw hin).2 fun x => (hin.mem x rfl).trans (h.mem x)
  rcases hd with ⟨rfl, rfl⟩ | ⟨rfl, hn⟩
  · exact ⟨by rw [hc], fun w _ hw hin _ => fin w hw hin⟩
  · exact ⟨by rw [hc], fun w _ hw hin _ => fin w (hn ▸ hw) hin⟩

/-- As `Done.settles_of_worked`, of a body that leaves memory alone. -/
theorem Done.settles_of_worked_regs {d : Done} {Q : State → Prop} {next : Word} (h : s.Worked t g)
    (hd : d = .next ∧ next = s.core.pc + 4 ∨ d = .goto next ∧ next &&& 0xFFFFFFFC = next)
    (hq : ∀ w : State, s.Executed w next g → w.core.st = s.core.st → Q w) : d.Settles s t Q :=
  Done.settles_of_worked (fun _ => false) h (fun _ _ => rfl) hd fun w he hst _ => hq w he hst

/-- A command whose act is an instruction that is not reserved completes as its body settles. -/
theorem completes_insn {c : Instr} {word : Word} {bad forbid : Bool} {body : M Done} {P : State → Prop} (h : s.Ready)
    (hc : exec c s = cmd s (insn word bad forbid body)) (hbad : bad = false) (hf : forbid = false ∨ s.core.slot = none)
    (hb : ∀ u, s.Begun u → body.Gives u fun d t => t.en tallyPage = false ∧ d.Settles s t fun w => P (latchEdges s w)) :
    Completes c s P :=
  completes_cmd (hbad ▸ hc) (gives_insn_body h hf hb)

theorem State.Executed.latched {next : Word} {F : Foot} (h : s.Executed t next g F) : s.Executed (latchEdges u t) next g F :=
  { h with rest := h.rest.latch }

@[simp] theorem latchEdges_bytes (a n : Nat) : (latchEdges s t).bytes a n = t.bytes a n := rfl
@[simp] theorem latchEdges_memWord (a : Nat) : (latchEdges s t).memWord a = t.memWord a := rfl

/-- The octets of an access that lies outside a footprint read as before. -/
theorem State.Within.bytes {F : Foot} (h : s.Within F t) {a n : Nat} (hF : ∀ i < n, F.mem (a + i) = false) :
    t.bytes a n = s.bytes a n :=
  List.map_congr_left fun i hi => h.mem _ (hF i (List.mem_range.mp hi))

/-! ### An exception, from the body's end -/

theorem State.faultPc_of_empty (h : s.core.slot = none) : s.faultPc = s.core.pc := by rw [State.faultPc, h]

/-- Raising an exception with HOLD at 0 enters its handler with XCAUSE and FADDR set (R257), but for a BRK that goes to the ROM. -/
theorem gives_raise_enter {c : Cause} {xpc : Word} {at_ : Option Word} {Q : Unit → State → Prop} (hw : w.Inv)
    (hhold : bitOf w.core.st.toNat 6 = false) (hbrk : c.v ≠ vBrk ∨ w.bit BP_MON_ROUTE = false)
    (hq : ∀ u : State, u.Inv → u.core = { w.core with xcause := BitVec.ofNat 32 (c.v + 256 * c.kind), faddr := c.addr } →
      w.Within coreFoot u → u.dev = w.dev → (enter c.v xpc none at_).Gives u Q) : (raise c xpc at_).Gives w Q := by
  refine gives_bind (gives_getS ?_)
  rw [hhold, if_neg Bool.false_ne_true]
  refine gives_bind (gives_perf.monoInv hw ?_)
  rintro _ t hti ⟨ht, _⟩
  refine gives_bind (gives_act ?_)
  rw [if_neg (by rcases hbrk with h | h <;> simp [h])]
  refine hq _ (Prim.run_inv _ _ hti) ?_ (ht.coreFoot.trans (State.within_coreFoot _ _)) ht.dev
  rw [Prim.run_core_core, ht.core]
  exact Core.norm_of_legal (c := { w.core with xcause := _, faddr := _ }) hw.core

/-- The entry to a handler at an address of its own (R258, R474). -/
theorem gives_enter_at {v : Nat} {xpc a : Word} (hs : s.Inv) :
    (enter v xpc none (some a)).Gives s fun _ t => (∃ x, t.core = s.core.entered xpc a x) ∧ s.Within coreFoot t := by
  obtain ⟨hpc, hst, hvb⟩ := hs.core
  refine gives_bind (gives_getS (gives_bind (gives_act (gives_bind ((gives_cyc (Prim.run_inv _ _ hs)).mono ?_)))))
  rintro _ t ⟨⟨x, hx⟩, _, _, _, htw⟩
  refine gives_act ⟨⟨x, ?_⟩, ((s.within_coreFoot _).trans htw).trans (State.within_coreFoot _ _)⟩
  rw [Prim.run_core_core, hx]
  simp only [Prim.run_core_core, Core.norm, hpc, hvb, and_mask_idem]
  rfl

/-- The exception of an instruction, raised where nothing but its fetch has happened, and nothing of the core but `g`. -/
theorem gives_raise_traps {c : Cause} {xpc : Word} (hw : w.Inv) (hhold : bitOf s.core.st.toNat 6 = false)
    (hbrk : c.v ≠ vBrk ∨ s.bit BP_MON_ROUTE = false) (hv : s.VectorAt c.v) (hst : w.core.st = s.core.st)
    (hvb : w.core.vbase = s.core.vbase) (hin : s.Within coreFoot w) (hecc : w.dev.eccBad ⊆ s.dev.eccBad) (hg : ∀ k, w.g k = g k) :
    (raise c xpc none).Gives w fun _ t => s.Traps (latchEdges s t) c.v c.kind c.addr xpc g := by
  have hroute : w.bit BP_MON_ROUTE = s.bit BP_MON_ROUTE := by
    rw [State.bit, State.fld, hin.regs _ (by decide), State.bit, State.fld]
  refine gives_raise_enter hw (hst ▸ hhold) (hbrk.imp_right fun h => hroute.trans h) fun u hui hcore hwu hdu => ?_
  have hsu := hin.trans hwu
  have hvb' : u.core.vbase = s.core.vbase := by rw [hcore]; exact hvb
  have hst' : u.core.st = s.core.st := by rw [hcore]; exact hst
  have hg' : u.g = g := funext fun k => by rw [← hg k, State.g, hcore, State.g]
  refine (gives_enter hui ⟨hvb' ▸ hv.lo, hvb' ▸ hv.hi, fun hm => hv.clean (hvb' ▸ hecc (hdu ▸ hm))⟩).mono ?_
  rintro _ t ⟨⟨x, hx⟩, htw⟩
  refine State.Traps.latch (u := s) ⟨?_, by rw [hx, hcore]; rfl, by rw [hx, hcore]; rfl, ?_⟩
  · have h := (State.Entered.of_core hui hx htw).since hst' hvb' hsu
    rwa [hsu.memWord (fun _ => rfl), hvb', hg'] at h
  · rw [hx, ← hst']
    exact entrySt_priority hui.core.2.1

/-- A body that stops with an exception before it has changed anything. -/
theorem Done.settles_stop {v kind : Nat} {a : Word} {Q : State → Prop} (h0 : v ≠ 0)
    (hbrk : v ≠ vBrk ∨ s.bit BP_MON_ROUTE = false) (hhold : bitOf s.core.st.toNat 6 = false) (hv : s.VectorAt v) (h : s.Worked t s.g)
    (hq : ∀ w : State, s.Traps (latchEdges s w) v kind a s.faultPc s.g → Q w) : (Done.stop ⟨v, kind, a⟩).Settles s t Q := by
  obtain ⟨x, y, hcore⟩ := h.core
  have hwt : s.Within coreFoot t := h.within (m := fun _ => false) fun _ _ => rfl
  refine ⟨fun e => h0 (congrArg Cause.v e), fun w hwi hw hin hd => (gives_raise_traps (c := ⟨v, kind, a⟩) (g := s.g) hwi hhold hbrk hv
    ?_ ?_ (hwt.trans hin) ?_ ?_).mono fun _ x hx => hq x hx⟩
  · rw [hw, hcore]
  · rw [hw, hcore]
  · rw [hd]; exact h.eccBad
  · intro k
    rw [← h.regs k, State.g, hw, State.g]

end Sys2Proof.Machine
end

section
/-!
LD, ST and SWAP over main SRAM (R248–R250), and SWAP elsewhere (R249).
-/
namespace Sys2Proof.Machine
open Sys2Proof.Reg

variable {s : State}

theorem accLen_sizeOf {x : BitVec 2} (h : x ≠ 3) : accLen (sizeOf x.toNat) = 2 ^ x.toNat := by
  have key : ∀ x : BitVec 2, x ≠ 3 → accLen (sizeOf x.toNat) = 2 ^ x.toNat := by decide
  exact key x h

/-- A narrow load's value is sign-extended or not (R248). -/
theorem extendTo_eq (z : Size) (sx : Bool) (v : Word) :
    extendTo z sx v = if sx then BitVec.ofInt 32 (signed (8 * accLen z) v.toNat) else v := rfl

theorem storeAt_other_of_foot {b : Nat → Byte} {a n v x : Nat} (h : (storeFoot a n).mem x = false) : storeAt b a n v x = b x :=
  storeAt_other (of_decide_eq_false h)

/-- The octets just stored are read back. -/
theorem bytes_of_storeAt {w : State} {b : Nat → Byte} {a n v : Nat} (h : ∀ x, w.byte x = storeAt b a n v x) :
    w.bytes a n = leBytes n v := by
  refine List.ext_getElem (by simp [State.bytes, leBytes_length]) fun i h1 h2 => ?_
  have hi : i < n := by simpa [State.bytes] using h1
  simp only [State.bytes, List.getElem_map, List.getElem_range, h, storeAt]
  rw [if_pos (by omega), Nat.add_sub_cancel_left, List.getD_eq_getElem _ _ h2]

/-- What is fitted outside is no register that the core counts in. -/
theorem State.Steady.rangeOf {u : State} (h : s.Steady u) (a : Nat) : u.rangeOf a = s.rangeOf a := by
  have hf (i : Nat) : u.fitted i = s.fitted i := by
    have hx : XSPI_CS_CFG i ∉ perfRegs intcPage := by
      simp only [perfRegs, List.mem_cons, List.not_mem_nil, or_false, PERF_CNT, intcPage, XSPI_CS_CFG]
      omega
    rw [State.fitted, State.fld, h.regs _ (coreFoot_regs hx), State.fitted, State.fld]
  rw [State.rangeOf, State.ranges, hf, hf, State.rangeOf, State.ranges]

theorem State.Begun.swapHere {u : State} (h : s.Begun u) (a : Nat) : u.swapHere a = s.swapHere a := by
  rw [State.swapHere, h.steady.rangeOf, State.swapHere]

/-- LD from main SRAM (R248, R250). -/
theorem ld_sram {o : MemOps} (h : s.Ready) (hr : o.res = false) (hz : o.sz ≠ 3)
    (ha : s.SramAt false (s.g o.ra.val + o.off.signExtend 32) (2 ^ o.sz.toNat)) :
    Completes (.ld o) s fun t =>
      let v : Word := wordOf (s.bytes (s.g o.ra.val + o.off.signExtend 32).toNat (2 ^ o.sz.toNat))
      t.core.slot = some ⟨o.rd.val, if o.sx then BitVec.ofInt 32 (signed (8 * 2 ^ o.sz.toNat) v.toNat) else v, s.core.pc⟩ ∧
      t.core.pc = s.core.pc + 4 ∧ (∀ k, t.g k = s.slotted k (s.g k)) ∧ t.core.st = s.core.st ∧
      t.core.xpc = s.core.xpc ∧ t.core.xst = s.core.xst ∧ t.core.vbase = s.core.vbase ∧ s.Within coreFoot t := by
  have hlen := accLen_sizeOf hz
  have hpos := accLen_pos (sizeOf o.sz.toNat)
  refine completes_insn h rfl (by simpa [hr] using hz) (.inl rfl) fun u hu => gives_bind (gives_getS ?_)
  rw [← hlen] at ha ⊢
  simp only [State.memAddr, hu.g]
  refine gives_bind ((gives_coreRead_sram (hu.steady.sramAt ha) (hu.steady.sramAt ha)).monoInv hu.inv ?_)
  rintro _ v hvi ⟨rfl, hv⟩
  refine gives_bind ((gives_accessCycles_sram ((hu.steady.trans hv.steady).sramAt ha) hpos).mono ?_)
  rintro _ _ ⟨rfl, rfl⟩
  refine gives_bind ((hu.worked.checked hv).cyc hvi fun t hti (ht : s.Worked t s.g) => gives_pure ⟨ht.noSample h, ?_⟩)
  obtain ⟨x, y, hc⟩ := ht.core
  refine ⟨by rw [hc], fun w hwi hw hin hd => ?_⟩
  refine ⟨?_, by rw [latchEdges_core, hw]; rfl, fun k => ?_, ?_, ?_, ?_, ?_, ((ht.within (m := fun _ => false) fun _ _ => rfl : s.Within coreFoot t).trans hin).latch⟩
  · rw [latchEdges_core, hw, Core.retired_slot, extendTo_eq, hu.within.bytes fun _ _ => rfl]
  · rw [latchEdges_g, State.g_retired (s := s) hw (by rw [hc]), ht.regs]
  all_goals rw [latchEdges_core, hw]; simp [hc]

/-- ST to main SRAM (R248). -/
theorem st_sram {o : MemOps} (h : s.Ready) (hr : o.res = false) (hz : o.sz ≠ 3) (hx : o.sx = false)
    (ha : s.SramAt true (s.g o.ra.val + o.off.signExtend 32) (2 ^ o.sz.toNat)) :
    Completes (.st o) s fun t =>
      s.Executed t (s.core.pc + 4) s.g (storeFoot (s.g o.ra.val + o.off.signExtend 32).toNat (2 ^ o.sz.toNat)) ∧
      t.core.st = s.core.st ∧
      t.bytes (s.g o.ra.val + o.off.signExtend 32).toNat (2 ^ o.sz.toNat) = leBytes (2 ^ o.sz.toNat) (s.g o.rd.val).toNat := by
  have hlen := accLen_sizeOf hz
  refine completes_insn h rfl (by simpa [hr, hx] using hz) (.inl rfl) fun u hu => gives_bind (gives_getS ?_)
  rw [← hlen] at ha ⊢
  simp only [State.memAddr, hu.g]
  refine gives_bind ((gives_accessCycles_sram (hu.steady.sramAt ha) (accLen_pos _)).mono ?_)
  rintro _ _ ⟨rfl, rfl⟩
  refine gives_bind (hu.worked.cyc hu.inv fun v hvi hv => gives_bind ?_)
  refine (gives_coreWrite_sram (hv.steady.sramAt ha) (hu.steady.sramAt ha)).mono ?_
  rintro _ t ⟨rfl, ht⟩
  have hwt := hv.stored ht
  refine gives_pure ⟨hwt.noSample h, Done.settles_of_worked (storeFoot _ _).mem hwt (fun x => storeAt_other_of_foot) (.inl ⟨rfl, rfl⟩)
    fun w he hst hb => ⟨he.latched, hst, ?_⟩⟩
  exact bytes_of_storeAt hb

theorem swapHere_sram {a : Nat} (hlo : 0x20000000 ≤ a) (hhi : a < 0x20080000) : s.swapHere a = true := by
  rw [State.swapHere, s.rangeOf_sram hlo hhi]

/-- SWAP of an aligned word of main SRAM (R249). -/
theorem swap_sram {o : RegOps} (h : s.Ready) (hr : o.res = 0) (hs : s.core.slot = none) (har : s.SramAt false (s.g o.ra.val) 4)
    (haw : s.SramAt true (s.g o.ra.val) 4) :
    Completes (.swap o) s fun t =>
      s.Executed t (s.core.pc + 4) (s.gWith o.rd.val (wordOf (s.bytes (s.g o.ra.val).toNat 4))) (storeFoot (s.g o.ra.val).toNat 4) ∧
      t.core.st = s.core.st ∧ t.bytes (s.g o.ra.val).toNat 4 = leBytes 4 (s.g o.rb.val).toNat := by
  have hhi := har.hi
  refine completes_insn h rfl (by simp [hr]) (.inr hs) fun u hu => gives_bind (gives_getS ?_)
  simp only [hu.g]
  rw [if_neg (by simp [har.aligned]), if_neg (by simp [swapHere_sram har.lo (by omega)])]
  have hread := hu.steady.sramAt har
  have hwrite := hu.steady.sramAt haw
  refine gives_bind ((gives_accessStop_sram hwrite (by decide) hwrite).mono ?_)
  rintro _ _ ⟨rfl, rfl⟩
  refine gives_bind ((gives_coreRead_sram (z := .word) hread hread).monoInv hu.inv ?_)
  rintro _ v hvi ⟨rfl, hv⟩
  have hvw := hu.worked.checked hv
  refine gives_bind ((gives_busWrite_sram har.lo (by omega) (hvw.steady.sramAt haw).clean).monoInv hvi ?_)
  rintro _ w hwi ⟨rfl, hw⟩
  refine gives_bind ((hvw.stored hw).setG h.inv hwi fun x hxi hx => gives_bind (hx.cyc hxi fun t hti ht => ?_))
  refine gives_pure ⟨ht.noSample h, Done.settles_of_worked (storeFoot _ _).mem ht (fun x => storeAt_other_of_foot) (.inl ⟨rfl, rfl⟩)
    fun w he hst hb => ⟨?_, hst, bytes_of_storeAt hb⟩⟩
  rw [accLen, hu.within.bytes fun _ _ => rfl] at he
  exact he.latched

/-- SWAP of an aligned word elsewhere (R249). -/
theorem swap_elsewhere {o : RegOps} (h : s.Ready) (hr : o.res = 0) (hs : s.core.slot = none) (h4 : (s.g o.ra.val).toNat % 4 = 0)
    (hsw : s.swapHere (s.g o.ra.val).toNat = false) (hhold : bitOf s.core.st.toNat 6 = false) (hv : s.VectorAt 5) :
    Completes (.swap o) s fun t => s.Traps t 5 1 (s.g o.ra.val) s.core.pc s.g := by
  refine completes_insn h rfl (by simp [hr]) (.inr hs) fun u hu => gives_bind (gives_getS ?_)
  simp only [hu.g]
  rw [if_neg (by simp [h4]), if_pos (by rw [hu.swapHere, hsw]; rfl)]
  exact gives_pure ⟨hu.noSample h, Done.settles_stop (by decide) (.inl (by decide)) hhold hv hu.worked fun w hw =>
    State.faultPc_of_empty hs ▸ hw⟩

/-- Settles O8: each access goes through where main SRAM may be accessed, and what it finds and leaves is that of its octets. -/
theorem memoryInstructions : Obligations.MemoryInstructions :=
  ⟨fun _ _ h hr hz ha => ld_sram h hr hz ha, fun _ _ h hr hz hx ha => st_sram h hr hz hx ha,
    fun _ _ h hr hs => ⟨fun har haw => swap_sram h hr hs har haw, fun h4 hsw hhold hv => swap_elsewhere h hr hs h4 hsw hhold hv⟩⟩

end Sys2Proof.Machine
end

section
/-!
Branches and calls (R244, R246, R247), SVC and BRK (R246, R256, R258, R279).
-/
namespace Sys2Proof.Machine
open Sys2Proof.Reg

variable {s : State}

theorem shiftLeft_two (x : Word) : x <<< 2 = 4 * x := by
  rw [← BitVec.toNat_inj, BitVec.toNat_shiftLeft, BitVec.toNat_mul, Nat.shiftLeft_eq]
  congr 1
  exact Nat.mul_comm _ _

/-- A branch's target is a multiple of 4, as PC is (R238, R244). -/
theorem target_aligned {c : Core} (h : c.Legal) (x : Word) : (c.pc + 4 * x) &&& (0xFFFFFFFC : Word) = c.pc + 4 * x := by
  have := (aligned_iff _).mp h.1
  rw [aligned_iff, BitVec.toNat_add, BitVec.toNat_mul, show (4 : Word).toNat = 4 from rfl]
  omega

theorem brTarget_eq (pc : Word) (o : BrOps) : brTarget pc o = pc + 4 * o.disp.signExtend 32 := by rw [brTarget, shiftLeft_two]

theorem bcc_completes {c : Fin 15} {o : BrOps} (h : s.Ready) (hr : o.res = 0) :
    Completes (.bcc c o) s fun t =>
      s.Executed t (if condHolds c.val s.core.st then s.core.pc + 4 * o.disp.signExtend 32 else s.core.pc + 4) s.g ∧
      t.core.st = s.core.st := by
  refine completes_insn h rfl (by simp [hr]) (.inl rfl) fun u hu => gives_bind (gives_getS ?_)
  simp only [hu.st, hu.pc, brTarget_eq]
  split
  · refine gives_bind (hu.worked.cyc hu.inv fun t _ ht => gives_pure ⟨ht.noSample h, ?_⟩)
    exact Done.settles_of_worked_regs ht (.inr ⟨rfl, target_aligned h.inv.core _⟩) fun w he hst => ⟨he.latched, hst⟩
  · refine gives_bind (hu.worked.cyc hu.inv fun t _ ht => gives_pure ⟨ht.noSample h, ?_⟩)
    exact Done.settles_of_worked_regs ht (.inl ⟨rfl, rfl⟩) fun w he hst => ⟨he.latched, hst⟩

/-- A jump with no other effect, and one that leaves the return address in LK. -/
theorem jump_completes {c : Instr} {word a : Word} {f : State → Word} (h : s.Ready)
    (hc : exec c s = cmd s (insn word false false (getS >>= fun u => cyc 2 >>= fun _ => pure (.goto (f u)))))
    (hf : ∀ u, s.Begun u → f u = a) (ha : a &&& 0xFFFFFFFC = a) :
    Completes c s fun t => s.Executed t a s.g ∧ t.core.st = s.core.st := by
  refine completes_insn h hc rfl (.inl rfl) fun u hu => gives_bind (gives_getS ?_)
  refine gives_bind (hu.worked.cyc hu.inv fun t _ ht => gives_pure ⟨ht.noSample h, ?_⟩)
  exact Done.settles_of_worked_regs ht (.inr ⟨congrArg _ (hf u hu), ha⟩) fun w he hst => ⟨he.latched, hst⟩

theorem link_completes {c : Instr} {word a : Word} {bad : Bool} {f : State → Word} (h : s.Ready)
    (hc : exec c s = cmd s (insn word bad false
      (getS >>= fun u => cyc 2 >>= fun _ => setG regLk (u.core.pc + 4) >>= fun _ => pure (.goto (f u)))))
    (hbad : bad = false) (hf : ∀ u, s.Begun u → f u = a) (ha : a &&& 0xFFFFFFFC = a) :
    Completes c s fun t => s.Executed t a (s.gWith 14 (s.core.pc + 4)) ∧ t.core.st = s.core.st := by
  refine completes_insn h hc hbad (.inl rfl) fun u hu => gives_bind (gives_getS ?_)
  refine gives_bind (hu.worked.cyc hu.inv fun t hti ht => gives_bind (ht.setG h.inv hti fun v hvi hv =>
    gives_pure ⟨hv.noSample h, ?_⟩))
  refine Done.settles_of_worked_regs hv (.inr ⟨congrArg _ (hf u hu), ha⟩) fun w he hst => ⟨?_, hst⟩
  rw [hu.pc] at he
  exact he.latched

/-- SVC, from its retirement on: what comes of calling the service (R256, R258). -/
theorem svc_completes {o : SpcOps} {P : State → Prop} (h : s.Ready) (hs : s.core.slot = none)
    (hq : ∀ w x, w.Inv → w.core = { s.core with pc := s.core.pc + 4, insn := false, cycle := x } → s.Within coreFoot w →
      w.dev.eccBad ⊆ s.dev.eccBad → w.dev.seen = s.dev.seen → (serviceCall (o.x.toNat % 2 ^ 16) (s.core.pc + 4)).Gives w fun _ t => P (latchEdges s t)) :
    Completes (.svc o) s P := by
  refine completes_insn h rfl rfl (.inr hs) fun u hu => gives_pure ⟨hu.noSample h, ?_⟩
  refine ⟨by rw [hu.core], fun w hwi hwc hww hwd => hq w s.core.cycle hwi ?_ (hu.within.trans hww) (hwd ▸ hu.eccBad)
    (by rw [hwd, Dev.seen, hu.dev, Dev.seen])⟩
  rw [hwc, hu.core]
  simp [Core.retired, hs]

theorem svc_vector {o : SpcOps} (h : s.Ready) (hs : s.core.slot = none) (hhold : bitOf s.core.st.toNat 6 = false)
    (hn : o.x.toNat % 2 ^ 16 < 0xF000) (hv : s.VectorAt 6) :
    Completes (.svc o) s fun t => s.Traps t 6 0 0 (s.core.pc + 4) s.g := by
  refine svc_completes h hs fun w x hwi hwc hww hecc _ => ?_
  rw [serviceCall, if_pos hn]
  exact gives_raise_traps (c := ⟨vSvc, kNone, 0⟩) hwi hhold (.inl (by decide)) hv (by rw [hwc]) (by rw [hwc]) hww hecc
    fun k => by rw [State.g, hwc, State.g]

/-- SVC into the ROM: the entry at 0x40, from which what follows goes on (R258). -/
theorem svc_rom {o : SpcOps} {P : State → Prop} (h : s.Ready) (hs : s.core.slot = none) (hhold : bitOf s.core.st.toNat 6 = false)
    (hn : 0xF000 ≤ o.x.toNat % 2 ^ 16)
    (hq : ∀ u : State, u.Inv → (∃ x, u.core = { s.core with svc := some (o.x.toNat % 2 ^ 16), xcause := 6, faddr := 0, insn := false
                                                            xpc := s.core.pc + 4, xst := s.core.st, cycle := x, pc := 0x40
                                                            st := entrySt s.core.st &&& stMask }) → s.Within coreFoot u →
      (if !svcKnown (o.x.toNat % 2 ^ 16) then do setG 0 (BitVec.ofNat 32 stParam); retx else pure ()).Gives u
        fun _ t => P (latchEdges s t)) :
    Completes (.svc o) s P := by
  refine svc_completes h hs fun w x hwi hwc hww _ _ => ?_
  have hhold' : bitOf w.core.st.toNat 6 = false := by rw [hwc]; exact hhold
  rw [serviceCall, if_neg (Nat.not_lt.mpr hn)]
  refine gives_bind (gives_getS (gives_bind (gives_raise_enter hwi hhold' (.inl (by decide)) fun u hui huc huw _ => ?_)))
  refine (gives_enter_at hui).monoInv hui ?_
  rintro _ v hvi ⟨⟨y, hvc⟩, hvw⟩
  rw [if_pos (by rw [hhold']; rfl)]
  refine gives_bind (gives_act (hq _ (Prim.run_inv _ _ hvi) ⟨y, ?_⟩
    (((hww.trans huw).trans hvw).trans (State.within_coreFoot _ _))))
  rw [Prim.run_core_core, Core.norm_of_legal (c := { v.core with svc := some _ }) hvi.core, hvc, huc, hwc]
  simp [Core.entered, hs]

theorem svc_known {o : SpcOps} (h : s.Ready) (hs : s.core.slot = none) (hhold : bitOf s.core.st.toNat 6 = false)
    (hn : 0xF000 ≤ o.x.toNat % 2 ^ 16) (hk : svcKnown (o.x.toNat % 2 ^ 16) = true) :
    Completes (.svc o) s fun t => s.Entered t (s.core.pc + 4) 0x40 s.g ∧ t.core.xcause = 6 := by
  refine svc_rom h hs hhold hn fun u _ huc huw => ?_
  obtain ⟨x, huc⟩ := huc
  rw [hk, if_neg (by decide)]
  have hbit {i : Nat} (hi : i < 32) := entrySt_testBit h.inv.core.2.1 hi
  refine gives_pure ⟨⟨by simp [huc], by simp [huc], ?_, ?_, ?_, fun i hi => ?_, by simp [huc], by simp [huc], by simp [huc, hs],
    fun k => by simp [State.g, huc], huw.latch⟩, by simp [huc]⟩
  case refine_4 =>
    rw [latchEdges_core, huc]
    by_cases hlt : i < 32
    · rw [hbit hlt, if_neg (by omega), if_neg (by omega)]
    · rw [testBit_of_le (by omega), testBit_of_le (by omega)]
  all_goals rw [latchEdges_core, huc]; exact hbit (by omega)

theorem svc_unknown {o : SpcOps} (h : s.Ready) (hs : s.core.slot = none) (hhold : bitOf s.core.st.toNat 6 = false)
    (hn : 0xF000 ≤ o.x.toNat % 2 ^ 16) (hk : svcKnown (o.x.toNat % 2 ^ 16) = false) :
    Completes (.svc o) s fun t => t.core.pc = s.core.pc + 4 ∧ t.core.st = s.core.st ∧ ∀ k, t.g k = if k = 0 then 3 else s.g k := by
  refine svc_rom h hs hhold hn fun u hui huc huw => ?_
  obtain ⟨x, huc⟩ := huc
  rw [hk, Bool.not_false, if_pos rfl]
  refine gives_bind (gives_act (gives_act ⟨?_, ?_, fun k => ?_⟩))
  · simp only [latchEdges_core, Prim.run_core_core, huc, Core.norm]
    exact pc_next h.inv.core
  · simp only [latchEdges_core, Prim.run_core_core, huc, Core.norm]
    exact h.inv.core.2.1
  · rw [latchEdges_g, State.g]
    simp only [Prim.run_core_core, huc, Core.norm]
    exact get_setG s.core 0 _ k

theorem brk_completes {o : SpcOps} (h : s.Ready) (hs : s.core.slot = none) (hhold : bitOf s.core.st.toNat 6 = false)
    (hr : s.bit BP_MON_ROUTE = false) (hv : s.VectorAt 7) : Completes (.brk o) s fun t => s.Traps t 7 0 0 s.core.pc s.g :=
  completes_insn h rfl rfl (.inr hs) fun _ hu => gives_pure ⟨hu.noSample h,
    Done.settles_stop (by decide) (.inr hr) hhold hv hu.worked fun _ hw => State.faultPc_of_empty hs ▸ hw⟩

/-- Settles O9: each of them by what its body leaves and where it ends. -/
theorem controlFlow : Obligations.ControlFlow := by
  refine ⟨fun s h => ⟨fun c o hr => bcc_completes h hr, fun o hr => ?_, fun o h4 => ?_⟩, fun o s h hs hhold =>
    ⟨svc_vector h hs hhold, svc_known h hs hhold, svc_unknown h hs hhold, brk_completes h hs hhold⟩⟩
  · exact link_completes h rfl (by simp [hr]) (fun u hu => by rw [hu.pc, brTarget_eq]) (target_aligned h.inv.core _)
  · exact ⟨jump_completes h rfl (fun u hu => hu.g _) ((aligned_iff _).mpr h4),
      link_completes h rfl rfl (fun u hu => hu.g _) ((aligned_iff _).mpr h4)⟩

end Sys2Proof.Machine
end

section
/-!
CALLM and RETM: the frame of R252 written upwards and read back (R252, R253).
-/
namespace Sys2Proof.Machine
open Sys2Proof.Reg

variable {s t : State} {g : Nat → Word} {b : Nat → Byte}

/-! ### Words in memory -/

/-- A word is what its octets spell. -/
theorem wordOf_leBytes (w : Word) : wordOf (leBytes 4 w.toNat) = w := by
  have h := w.isLt
  rw [← BitVec.toNat_inj]
  simp only [wordOf, leBytes, List.take_succ_cons, List.take_zero, leNat, BitVec.toNat_ofNat]
  omega

/-- Memory with words stored upwards from an address. -/
def storeWords (b : Nat → Byte) : Nat → List Word → Nat → Byte
  | _, [] => b
  | a, w :: l => storeWords (storeAt b a 4 w.toNat) (a + 4) l

theorem storeWords_other {a x : Nat} {l : List Word} (h : ¬ (a ≤ x ∧ x < a + 4 * l.length)) : storeWords b a l x = b x := by
  induction l generalizing b a with
  | nil => rfl
  | cons w l ih =>
    rw [List.length_cons] at h
    rw [storeWords, ih (by omega), storeAt_other (by omega)]

/-- Each of the words stored is read back at its place. -/
theorem wordOf_storeWords {a i : Nat} {l : List Word} (hi : i < l.length) :
    wordOf ((List.range 4).map fun k => storeWords b a l (a + 4 * i + k)) = l.getD i 0 := by
  induction l generalizing b a i with
  | nil => exact absurd hi (Nat.not_lt_zero i)
  | cons w l ih =>
    cases i with
    | zero =>
      have hbytes : ((List.range 4).map fun k => storeWords b a (w :: l) (a + 4 * 0 + k)) = leBytes 4 w.toNat := by
        refine List.ext_getElem (by simp [leBytes_length]) fun k h1 h2 => ?_
        have hk : k < 4 := by simpa using h1
        simp only [List.getElem_map, List.getElem_range]
        rw [storeWords, storeWords_other (by omega), storeAt, if_pos (by omega), List.getD_eq_getElem _ _ (by rw [leBytes_length]; omega)]
        congr 1
        omega
      rw [hbytes, wordOf_leBytes]
      rfl
    | succ i =>
      have he : ∀ k, a + 4 * (i + 1) + k = a + 4 + 4 * i + k := fun k => by omega
      simp only [storeWords, he]
      exact ih (by simpa using hi)

theorem memWord_of_storeWords {w : State} {a i : Nat} {l : List Word} (h : ∀ x, w.byte x = storeWords b a l x) (hi : i < l.length) :
    w.memWord (a + 4 * i) = l.getD i 0 := by
  rw [← wordOf_storeWords (b := b) (a := a) hi]
  simp only [State.memWord, State.bytes, h]

/-- Words of main SRAM that follow one another do not wrap round. -/
theorem State.SramAt.next {write : Bool} {a : Word} (h : s.SramAt write a 4) : (a + 4).toNat = a.toNat + 4 := by
  have := h.hi
  rw [BitVec.toNat_add, show (4 : Word).toNat = 4 from rfl]
  omega

theorem add_four_mul (a : Word) (i : Nat) : a + BitVec.ofNat 32 (4 * (i + 1)) = a + 4 + BitVec.ofNat 32 (4 * i) := by
  rw [← BitVec.toNat_inj]
  simp only [BitVec.toNat_add, BitVec.toNat_ofNat, show (4 : Word).toNat = 4 from rfl]
  omega

/-! ### CALLM (R252) -/

/-- Words pushed into main SRAM. -/
theorem gives_pushWords {p : State} {a : Word} {n : Nat} {l : List Word} (hp : s.Steady p) (h : s.Worked t g b) (ht : t.Inv)
    (ha : ∀ i < l.length, s.SramAt true (a + BitVec.ofNat 32 (4 * i)) 4) :
    (pushWords p a n l).Gives t fun r u => r.1 = none ∧ u.Inv ∧ s.Worked u g (storeWords b a.toNat l) := by
  induction l generalizing a n t b with
  | nil => exact gives_pure ⟨rfl, ht, h⟩
  | cons w l ih =>
    have h0 : s.SramAt true a 4 := by simpa using ha 0 (by simp)
    refine gives_bind ((gives_coreWrite_sram (z := .word) (h.steady.sramAt h0) (hp.sramAt h0)).monoInv ht ?_)
    rintro _ u hui ⟨rfl, hu⟩
    have hn := ih (a := a + 4) (n := n + 1) (h.stored hu) hui fun i hi => by
      rw [← add_four_mul]
      exact ha (i + 1) (by simpa using hi)
    rwa [h0.next] at hn

theorem State.Begun.frameWords {u : State} (h : s.Begun u) (mask : Nat) :
    (u.core.pc + 4) :: u.frameWords mask = s.frame mask := by
  have hg : u.g = s.g := funext h.g
  rw [State.frameWords, State.frame, hg, h.pc, h.core]
  rfl

theorem length_frame (mask : Nat) : (s.frame mask).length = frameLen mask := by
  rw [State.frame, frameLen, bitOf]
  cases mask.testBit 16 <;> simp [onesOf, b2n] <;> omega

theorem callm_completes {o : CallmOps} (h : s.Ready) (hs : s.core.slot = none) (h4 : (s.g 13).toNat % 4 = 0)
    (ha : ∀ i < (s.frame o.x.toNat).length,
      s.SramAt true (s.g 13 - BitVec.ofNat 32 (4 * (s.frame o.x.toNat).length) + BitVec.ofNat 32 (4 * i)) 4) :
    let n := (s.frame o.x.toNat).length
    let new := s.g 13 - BitVec.ofNat 32 (4 * n)
    Completes (.callm o) s fun t =>
      s.Executed t (s.core.pc + 4 * o.a.signExtend 32) (s.gWith 13 new) (storeFoot new.toNat (4 * n)) ∧
      t.core.st = s.core.st ∧ ∀ i < n, t.memWord (new.toNat + 4 * i) = (s.frame o.x.toNat).getD i 0 := by
  intro n new
  refine completes_insn h rfl rfl (.inr hs) fun u hu => gives_bind (gives_getS ?_)
  simp only [hu.frameWords]
  rw [hu.g, if_neg (by simp [h4]), ← length_frame (s := s)]
  refine gives_bind ((gives_pushWords hu.steady hu.worked hu.inv ha).mono ?_)
  rintro ⟨_, _⟩ v ⟨rfl, hvi, hv⟩
  refine gives_bind (hv.setG h.inv hvi fun w hwi hw => gives_bind (hw.cyc hwi fun x _ hx => gives_pure ⟨hx.noSample h, ?_⟩))
  have hfoot : ∀ y, (storeFoot new.toNat (4 * n)).mem y = false → storeWords s.byte new.toNat (s.frame o.x.toNat) y = s.byte y :=
    fun y hy => storeWords_other (of_decide_eq_false hy)
  refine Done.settles_of_worked _ hx hfoot (.inr ⟨rfl, ?_⟩) fun y he hst hb => ⟨?_, hst, fun i hi => ?_⟩
  · rw [shiftLeft_two, hu.pc]
    exact target_aligned h.inv.core _
  · rw [shiftLeft_two, hu.pc] at he
    exact he.latched
  · rw [latchEdges_memWord]
    exact memWord_of_storeWords hb hi

theorem callm_misaligned {o : CallmOps} (h : s.Ready) (hs : s.core.slot = none) (h4 : (s.g 13).toNat % 4 ≠ 0)
    (hhold : bitOf s.core.st.toNat 6 = false) (hv : s.VectorAt 3) :
    Completes (.callm o) s fun t => s.Traps t 3 2 (s.g 13) s.core.pc s.g := by
  refine completes_insn h rfl rfl (.inr hs) fun u hu => gives_bind (gives_getS ?_)
  simp only [hu.g]
  rw [if_pos h4]
  exact gives_pure ⟨hu.noSample h, Done.settles_stop (by decide) (.inl (by decide)) hhold hv hu.worked fun _ hw =>
    State.faultPc_of_empty hs ▸ hw⟩

/-! ### RETM (R253) -/

/-- Words read from main SRAM. -/
theorem gives_popWords {p : State} {a : Word} {n : Nat} (hp : s.Steady p) (h : s.Worked t g) (ht : t.Inv)
    (ha : ∀ i < n, s.SramAt false (a + BitVec.ofNat 32 (4 * i)) 4) :
    (popWords p a n).Gives t fun r u =>
      r = .ok ((List.range n).map fun i => s.memWord (a + BitVec.ofNat 32 (4 * i)).toNat) ∧ u.Inv ∧ s.Worked u g := by
  induction n generalizing a t with
  | zero => exact gives_pure ⟨rfl, ht, h⟩
  | succ n ih =>
    have h0 : s.SramAt false a 4 := by simpa using ha 0 (by simp)
    refine gives_bind ((gives_coreRead_sram (z := .word) (h.steady.sramAt h0) (hp.sramAt h0)).monoInv ht ?_)
    rintro _ u hui ⟨rfl, hu⟩
    refine gives_bind ((ih (a := a + 4) (h.checked hu) hui fun i hi => ?_).mono ?_)
    · rw [← add_four_mul]
      exact ha (i + 1) (by omega)
    · rintro _ v ⟨rfl, hvi, hv⟩
      refine gives_pure ⟨congrArg _ ?_, hvi, hv⟩
      have hword : wordOf (t.bytes a.toNat (accLen .word)) = s.memWord a.toNat := by
        rw [State.memWord, State.bytes, State.bytes]
        simp only [h.mem, accLen]
      rw [hword, List.range_succ_eq_map, List.map_cons, List.map_map]
      simp only [Nat.mul_zero, BitVec.ofNat_eq_ofNat, BitVec.add_zero]
      congr 1
      refine List.map_congr_left fun i _ => ?_
      rw [Function.comp, Nat.succ_eq_add_one, add_four_mul]
      rfl

/-- The general registers once those named got the words of a frame, g13 excepted (R253). -/
def restored (g : Nat → Word) : List Nat → List Word → Nat → Word
  | r :: rs, w :: ws => restored (if r = regSp then g else regWith g r w) rs ws
  | _, _ => g

theorem gives_restore {rs : List Nat} {ws : List Word} (hs : s.Inv) (h : s.Worked t g) (ht : t.Inv) :
    (restore rs ws).Gives t fun _ u => u.Inv ∧ s.Worked u (restored g rs ws) := by
  induction rs generalizing ws g t with
  | nil => exact gives_pure ⟨ht, h⟩
  | cons r rs ih =>
    cases ws with
    | nil => exact gives_pure ⟨ht, h⟩
    | cons w ws =>
      rw [restored]
      by_cases hr : r = regSp
      · rw [restore, if_neg (not_not.mpr hr), if_pos hr]
        exact ih h ht
      · rw [restore, if_pos hr, if_neg hr]
        exact gives_bind (h.setG hs ht fun u hui hu => ih hu hui)

/-- A register named once has the word at its place. -/
theorem restored_eq {rs : List Nat} {ws : List Word} {k : Nat} (hk : k ≠ regSp) (hn : rs.Nodup) (hl : rs.length ≤ ws.length) :
    restored g rs ws k = if k ∈ rs then ws.getD (rs.idxOf k) 0 else g k := by
  induction rs generalizing ws g with
  | nil => rfl
  | cons r rs ih =>
    cases ws with
    | nil => simp at hl
    | cons w ws =>
      obtain ⟨hr, hn⟩ := List.nodup_cons.mp hn
      rw [restored, ih hn (by simpa using hl)]
      by_cases hkr : k = r
      · subst hkr
        rw [if_neg hr, if_neg hk]
        simp [regWith]
      · have hg : (if r = regSp then g else regWith g r w) k = g k := by split <;> simp [regWith, hkr]
        rw [hg, List.idxOf_cons_ne _ (Ne.symm hkr)]
        simp [hkr]

/-- Where a register stands among those of a mask: after those below it. -/
theorem idxOf_onesOf {n mask k : Nat} (hk : k < n) (hb : mask.testBit k = true) :
    (onesOf n mask).idxOf k = (onesOf k mask).length := by
  have hsplit : onesOf n mask = onesOf k mask ++ ((List.range' k (n - k)).filter fun i => mask.testBit i) := by
    have h := List.range'_append_1 (s := 0) (m := k) (n := n - k)
    rw [Nat.zero_add, Nat.add_sub_cancel' hk.le] at h
    rw [onesOf, onesOf, ← List.filter_append, List.range_eq_range', List.range_eq_range', h]
  have hout : k ∉ onesOf k mask := fun h => by simp [onesOf] at h
  rw [hsplit, List.idxOf_append_of_notMem hout, show n - k = (n - k - 1) + 1 from by omega, List.range'_succ,
    List.filter_cons_of_pos hb, List.idxOf_cons_self, Nat.add_zero]

theorem mem_onesOf {n mask k : Nat} : k ∈ onesOf n mask ↔ k < n ∧ mask.testBit k = true := by simp [onesOf]

theorem nodup_onesOf (n mask : Nat) : (onesOf n mask).Nodup := List.Nodup.filter _ List.nodup_range

/-- The end of RETM, the special registers restored where the frame has them: g13 beyond the frame, and the return address. -/
theorem gives_retm_end {v : State} {c : Core} {x y : _} {sp a : Word} {k : Nat} {P : State → Prop} (h : s.Ready) (hv : v.Inv)
    (hc : v.core = { c with insn := true, cycle := x, g := y }) (hslot : c.slot = none) (hin : s.Within coreFoot v)
    (hq : ∀ z : State, z.core.pc = a &&& 0xFFFFFFFC → (∀ r, z.g r = regWith v.g 13 sp r) → z.core.xpc = c.xpc → z.core.xst = c.xst →
      z.core.st = c.st → z.core.vbase = c.vbase → z.core.slot = none → s.Within coreFoot z → P z) :
    (setG regSp sp >>= fun _ => cyc k >>= fun _ => (pure (.goto a) : M Done)).Gives v fun d t =>
      t.en tallyPage = false ∧ d.Settles s t P := by
  refine gives_bind (gives_act (gives_bind ((gives_cyc (Prim.run_inv _ _ hv)).mono ?_)))
  rintro _ t ⟨⟨x', hx⟩, -, -, -, htw⟩
  rw [Prim.run_core_core, Core.norm_of_legal (c := { v.core with g := Sparse.set wordReset v.core.g regSp sp }) hv.core, hc] at hx
  have hst : s.Within coreFoot t := (hin.trans (v.within_coreFoot _)).trans htw
  refine gives_pure ⟨hst.noSample (by decide) h.noSample, by rw [hx], fun w _ hw hww _ => ?_⟩
  rw [Core.retired, hx] at hw
  simp only [hslot] at hw
  refine hq _ ?_ (fun r => ?_) ?_ ?_ ?_ ?_ ?_ (hst.trans hww)
  case refine_2 =>
    rw [State.g, hw]
    have := get_setG v.core 13 sp r
    rw [hc] at this
    rw [regWith, State.g, hc]
    exact this
  all_goals rw [hw]

/-- The word at position i of a frame in memory. -/
def State.frameWord (s : State) (i : Nat) : Word := s.memWord (s.g 13 + BitVec.ofNat 32 (4 * i)).toNat

/-- A general register that RETM restores has the word at its place in the frame (R253). -/
theorem regWith_restored {mask n : Nat} {v : Word} (hn : n = frameLen mask) (k : Nat) :
    regWith (restored s.g (onesOf 16 mask) ((List.range n).map s.frameWord).tail) 13 v k =
      if k = 13 then v else if k < 16 ∧ mask.testBit k then s.frameWord (1 + (onesOf k mask).length) else s.g k := by
  rw [regWith]
  by_cases hk : k = 13
  · rw [if_pos hk, if_pos hk]
  · have hlen : (onesOf 16 mask).length ≤ ((List.range n).map s.frameWord).tail.length := by
      rw [List.length_tail, List.length_map, List.length_range, hn, frameLen]
      omega
    rw [if_neg hk, if_neg hk, restored_eq hk (nodup_onesOf _ _) hlen]
    simp only [mem_onesOf]
    split
    case isFalse => rfl
    case isTrue hm =>
      have hidx := idxOf_onesOf hm.1 hm.2
      have hlt : (onesOf k mask).length < (onesOf 16 mask).length := by
        rw [← hidx]
        exact List.idxOf_lt_length_of_mem (mem_onesOf.mpr hm)
      rw [List.length_tail, List.length_map, List.length_range] at hlen
      rw [hidx, List.getD_eq_getElem _ _ (by rw [List.length_tail, List.length_map, List.length_range]; omega), List.getElem_tail,
        List.getElem_map, List.getElem_range, Nat.add_comm]

/-- ST once RETM has restored XPC and XST: HOLD 1 and IE 0 (R253). -/
theorem retm_st_testBit {st : Word} (h : st &&& stMask = st) {i : Nat} (hi : i < 32) :
    (bitsPut (bitsPut st 6 6 1) 7 7 0 &&& stMask).toNat.testBit i =
      if i = 6 then true else if i = 7 then false else st.toNat.testBit i := by
  have hm : st.toNat.testBit i = (st.toNat.testBit i && stMask.toNat.testBit i) := by
    conv_lhs => rw [← h, BitVec.toNat_and, Nat.testBit_and]
  have h6 : stMask.toNat.testBit 6 = true := by decide
  rw [BitVec.toNat_and, Nat.testBit_and]
  simp only [bitsPut_testBit _ 6 6 _ i (Nat.le_refl _) hi, bitsPut_testBit _ 7 7 _ i (Nat.le_refl _) hi]
  by_cases e6 : i = 6
  · subst e6; simp [h6]
  by_cases e7 : i = 7
  · subst e7; simp
  rw [if_neg (by omega), if_neg (by omega), if_neg e6, if_neg e7, ← hm]

theorem retm_completes {o : CallmOps} (h : s.Ready) (hs : s.core.slot = none) (ho : o.a = 0) (h4 : (s.g 13).toNat % 4 = 0)
    (ha : ∀ i < (s.frame o.x.toNat).length, s.SramAt false (s.g 13 + BitVec.ofNat 32 (4 * i)) 4) :
    let n := (s.frame o.x.toNat).length
    Completes (.retm o) s fun t =>
      t.core.pc = s.frameWord 0 &&& 0xFFFFFFFC ∧
      (∀ k, t.g k = if k = 13 then s.g 13 + BitVec.ofNat 32 (4 * n)
        else if k < 16 ∧ o.x.toNat.testBit k then s.frameWord (1 + (onesOf k o.x.toNat).length) else s.g k) ∧
      (o.x.toNat.testBit 16 = false → t.core.xpc = s.core.xpc ∧ t.core.xst = s.core.xst ∧ t.core.st = s.core.st) ∧
      (o.x.toNat.testBit 16 = true → t.core.xpc = s.frameWord (n - 2) ∧ t.core.xst = s.frameWord (n - 1) ∧
        ∀ i < 32, t.core.st.toNat.testBit i = if i = 6 then true else if i = 7 then false else s.core.st.toNat.testBit i) ∧
      t.core.vbase = s.core.vbase ∧ t.core.slot = none ∧ s.Within coreFoot t := by
  intro n
  have hlen : n = frameLen o.x.toNat := length_frame _
  have hn : 0 < n := by rw [hlen, frameLen]; omega
  refine completes_insn h rfl (by simp [ho]) (.inr hs) fun u hu => gives_bind (gives_getS ?_)
  simp only [hu.g]
  rw [if_neg (by simp [h4]), ← length_frame (s := s)]
  refine gives_bind ((gives_popWords hu.steady hu.worked hu.inv ha).mono ?_)
  rintro _ v ⟨rfl, hvi, hv⟩
  refine gives_bind ((gives_restore h.inv hv hvi).mono ?_)
  rintro _ w ⟨hwi, hw⟩
  obtain ⟨x, y, hc⟩ := hw.core
  have hwf : s.Within coreFoot w := hw.within (m := fun _ => false) fun _ _ => rfl
  have hpc : ((List.range n).map s.frameWord).headD 0 = s.frameWord 0 := by
    rw [← Nat.sub_one_add_one hn.ne', List.range_succ_eq_map]
    rfl
  have hwg : w.g = restored s.g (onesOf 16 o.x.toNat) ((List.range n).map s.frameWord).tail := funext hw.regs
  have hregs (z : State) (hz : ∀ r, z.g r = regWith w.g 13 (s.g 13 + BitVec.ofNat 32 (4 * n)) r) (k : Nat) : z.g k = _ :=
    ((hz k).trans (by rw [hwg])).trans (regWith_restored (s := s) hlen k)
  split
  case isTrue hb =>
    have hword {i : Nat} (hi : i < n) : ((List.range n).map s.frameWord).getD i 0 = s.frameWord i := by
      rw [List.getD_eq_getElem _ _ (by simpa using hi), List.getElem_map, List.getElem_range]
    refine gives_bind (gives_act (gives_retm_end (x := x) (y := y) (c := { s.core with
      xpc := ((List.range n).map s.frameWord).getD (n - 2) 0, xst := ((List.range n).map s.frameWord).getD (n - 1) 0
      st := bitsPut (bitsPut s.core.st 6 6 1) 7 7 0 &&& stMask }) h (Prim.run_inv _ _ hwi) ?_ hs (hwf.trans (w.within_coreFoot _)) ?_))
    · obtain ⟨hcpc, -, hcvb⟩ := h.inv.core
      rw [Prim.run_core_core, hc, Core.norm]
      simp only [hcpc, hcvb]
      rfl
    · intro z hzpc hzg hxpc hxst hst hvb hsl hzw
      refine ⟨hzpc.trans (congrArg (· &&& 0xFFFFFFFC) hpc), hregs z hzg, fun hb' => absurd (hb.symm.trans hb') (by decide), fun _ =>
        ⟨hxpc.trans (hword (by omega)), hxst.trans (hword (by omega)), fun i hi => ?_⟩, hvb, hsl, hzw.latch⟩
      rw [latchEdges_core, hst]
      exact retm_st_testBit h.inv.core.2.1 hi
  case isFalse hb =>
    refine gives_retm_end h hwi hc hs hwf fun z hzpc hzg hxpc hxst hst hvb hsl hzw =>
      ⟨hzpc.trans (congrArg (· &&& 0xFFFFFFFC) hpc), hregs z hzg, fun _ => ⟨hxpc, hxst, hst⟩, fun hb' => absurd hb' hb, hvb, hsl, hzw.latch⟩

/-- Settles O14: the frame's words are written, or read and restored, one after the other in main SRAM. -/
theorem callFrames : Obligations.CallFrames :=
  fun _ _ h hs => ⟨callm_completes h hs, callm_misaligned h hs, retm_completes h hs⟩

end Sys2Proof.Machine
end

section
/-!
Synchronous exceptions (R240, R243, R248, R251, R256, R257) and lockup (R260), instruction by instruction.
-/
namespace Sys2Proof.Machine
open Sys2Proof.Reg

variable {s t : State}

/-! ### What a reserved encoding and a load slot stop -/

/-- A command that is an instruction with a reserved encoding. -/
def Reserved (s : State) (c : Instr) : Prop :=
  ∃ word bad forbid body, exec c s = cmd s (insn word bad forbid body) ∧ bad = true

theorem traps_of_reserved {c : Instr} (h : s.Ready) (hhold : bitOf s.core.st.toNat 6 = false) (hv : s.VectorAt 1)
    (hc : Reserved s c) : Completes c s fun t => s.Traps t 1 5 0 s.faultPc s.g := by
  obtain ⟨word, bad, forbid, body, hc, rfl⟩ := hc
  refine completes_cmd hc (gives_insn_reserved h fun w hwi hwc hww hecc => ?_)
  exact gives_raise_traps (c := illegal) hwi hhold (.inl (by decide)) hv (by rw [hwc]) (by rw [hwc]) hww hecc
    fun k => by rw [State.g, hwc, State.g]

/-- A command that is an instruction that may not stand in a load slot, its encoding not reserved. -/
def Unslotted (s : State) (c : Instr) : Prop :=
  ∃ word bad body, exec c s = cmd s (insn word bad true body) ∧ bad = false

theorem traps_of_unslotted {c : Instr} (h : s.Ready) (hhold : bitOf s.core.st.toNat 6 = false) (hv : s.VectorAt 1)
    (hs : s.core.slot.isSome = true) (hc : Unslotted s c) :
    Completes c s fun t => s.Traps t 1 4 0 s.core.pc fun k => s.slotted k (s.g k) := by
  obtain ⟨word, bad, body, hc, rfl⟩ := hc
  obtain ⟨l, hl⟩ := Option.isSome_iff_exists.mp hs
  refine completes_cmd hc (gives_insn_forbidden h hl fun w hwi hwc hww hecc => ?_)
  exact gives_raise_traps (c := ⟨vIllegal, kSlot, 0⟩) hwi hhold (.inl (by decide)) hv (by rw [hwc]; simp) (by rw [hwc]; simp) hww
    hecc (State.g_retired (t := s) hwc rfl)

theorem reserved_reg {o : RegOps} (hr : o.res ≠ 0) :
    ∀ x ∈ [Instr.add o, .adc o, .sub o, .sbc o, .and o, .or o, .xor o, .andn o, .shl o, .shr o, .sar o, .ror o, .shli o,
        .shri o, .sari o, .rori o, .mul o, .mulh o, .mulhu o, .div o, .divu o, .rem o, .remu o, .cmp o, .tst o, .swap o,
        .sexb o, .sexh o, .clz o], Reserved s x := by
  have hb : (o.res != 0) = true := bne_iff_ne.mpr hr
  simp only [List.forall_mem_cons, List.not_mem_nil, false_imp_iff, implies_true, and_true]
  and_intros
  all_goals exact ⟨_, _, _, _, rfl, hb⟩

theorem reserved_imm {i : ImmOps} (hr : i.res = true) :
    ∀ x ∈ [Instr.addi i, .andi i, .ori i, .xori i, .cmpi i, .tsti i, .movi i, .movh i], Reserved s x := by
  simp only [List.forall_mem_cons, List.not_mem_nil, false_imp_iff, implies_true, and_true]
  and_intros
  all_goals exact ⟨_, _, _, _, rfl, hr⟩

theorem reserved_branch {b : BrOps} {m : MemOps} {c : Fin 15} (hb : b.res ≠ 0) (hm : m.res = true ∨ m.sz = 3) :
    ∀ x ∈ [Instr.bcc c b, .call b, .ld m, .st m], Reserved s x := by
  have hb' : (b.res != 0) = true := bne_iff_ne.mpr hb
  have hm' : (m.res || m.sz == 3) = true := by simpa using hm
  simp only [List.forall_mem_cons, List.not_mem_nil, false_imp_iff, implies_true, and_true]
  exact ⟨⟨_, _, _, _, rfl, hb'⟩, ⟨_, _, _, _, rfl, hb'⟩, ⟨_, _, _, _, rfl, hm'⟩, ⟨_, _, _, _, rfl, by rw [hm', Bool.true_or]⟩⟩

theorem reserved_wait {w : WaitOps} {p q : BitVec 14} (hr : w.res ≠ 0) :
    ∀ x ∈ [Instr.waitDoze w, .waitLowPower w p q], Reserved s x := by
  have hb : (w.res != 0) = true := bne_iff_ne.mpr hr
  simp only [List.forall_mem_cons, List.not_mem_nil, false_imp_iff, implies_true, and_true]
  exact ⟨⟨_, _, _, _, rfl, hb⟩, ⟨_, _, _, _, rfl, hb⟩⟩

/-- The forms of a string instruction without POLY, reserved or not (R254). -/
theorem strBad_of_lt {o : SpcOps} {crc : Bool} (hx : o.x.toNat < 6) : strBad crc o = false := by
  have h3 : o.x.toNat / 2 % 4 ≠ 3 := by omega
  have h0 : o.x.toNat / 8 % 4 = 0 := by omega
  simp [strBad, strEsz, strPoly, h3, h0]
  omega

theorem unslotted_all {o : SpcOps} {r : RegOps} {c : CallmOps} {w : WaitOps} {a b : BitVec 14} (hx : o.x.toNat < 6) (hr : r.res = 0)
    (hc : c.a = 0) (hw : w.res = 0) :
    ∀ x ∈ [Instr.movs o, .fills o, .cmps o, .scans o, .crcs o, .callm c, .retm c, .swap r, .wrsp o, .svc o, .brk o, .retx o,
        .waitDoze w, .waitLowPower w a b], Unslotted s x := by
  have hstr (crc : Bool) : strBad crc o = false := strBad_of_lt hx
  have hr' : (r.res != 0) = false := by simp [hr]
  have hc' : (c.a != 0) = false := by simp [hc]
  have hw' : (w.res != 0) = false := by simp [hw]
  have hx' : decide (7 ≤ o.x.toNat) = false := decide_eq_false (by omega)
  simp only [List.forall_mem_cons, List.not_mem_nil, false_imp_iff, implies_true, and_true]
  exact ⟨⟨_, _, _, rfl, hstr _⟩, ⟨_, _, _, rfl, hstr _⟩, ⟨_, _, _, rfl, hstr _⟩, ⟨_, _, _, rfl, hstr _⟩, ⟨_, _, _, rfl, hstr _⟩,
    ⟨_, _, _, rfl, rfl⟩, ⟨_, _, _, rfl, hc'⟩, ⟨_, _, _, rfl, hr'⟩, ⟨_, _, _, rfl, hx'⟩, ⟨_, _, _, rfl, rfl⟩, ⟨_, _, _, rfl, rfl⟩,
    ⟨_, _, _, rfl, rfl⟩, ⟨_, _, _, rfl, hw'⟩, ⟨_, _, _, rfl, hw'⟩⟩

/-! ### Privileged instructions in TASK mode (R240) -/

/-- An instruction whose body is for SYS mode alone raises PRIV in TASK mode. -/
theorem traps_of_sysOnly {c : Instr} {word : Word} {bad forbid : Bool} {body : M Done} (h : s.Ready)
    (hhold : bitOf s.core.st.toNat 6 = false) (hv : s.VectorAt 2) (hm : s.sysMode = false)
    (hc : exec c s = cmd s (insn word bad forbid (sysOnly body))) (hbad : bad = false) (hf : forbid = false ∨ s.core.slot = none) :
    Completes c s fun t => s.Traps t 2 6 0 s.faultPc s.g := by
  refine completes_insn h hc hbad hf fun u hu => gives_bind (gives_getS ?_)
  rw [hu.sysMode, hm, if_neg Bool.false_ne_true]
  exact gives_pure ⟨hu.noSample h, Done.settles_stop (by decide) (.inl (by decide)) hhold hv hu.worked fun _ hw => hw⟩

theorem traps_rdsp {o : SpcOps} (h : s.Ready) (hhold : bitOf s.core.st.toNat 6 = false) (hv : s.VectorAt 2) (hm : s.sysMode = false)
    (h1 : 1 ≤ o.x.toNat) (h5 : o.x.toNat ≤ 5) : Completes (.rdsp o) s fun t => s.Traps t 2 6 0 s.faultPc s.g := by
  refine completes_insn h rfl (decide_eq_false (by omega)) (.inl rfl) fun u hu => gives_bind (gives_getS ?_)
  have h0 : (o.x.toNat == 0) = false := by simpa using Nat.ne_of_gt h1
  have h6 : (o.x.toNat == 6) = false := by simpa using Nat.ne_of_lt (Nat.lt_succ_of_le h5)
  simp only [hu.sysMode, hm, h0, h6, Bool.or_self, Bool.false_eq_true, if_false]
  exact gives_pure ⟨hu.noSample h, Done.settles_stop (by decide) (.inl (by decide)) hhold hv hu.worked fun _ hw => hw⟩

/-! ### Misaligned accesses (R248) -/

theorem gives_freeNat_checked : freeNat.Gives s fun _ t => s.Checked t :=
  gives_bind (gives_getS (gives_bind (gives_act (gives_pure ⟨rfl, fun _ => ⟨fun _ _ => rfl, fun _ _ => rfl, fun x _ i => by cases x <;> rfl,
    fun _ _ => rfl, fun _ => rfl, fun _ => rfl, fun _ => rfl, rfl⟩, List.Subset.refl _⟩))))

/-- How many cycles an access takes is open at most places; finding it out changes nothing (R267). -/
theorem gives_accessCycles {a : Nat} : (accessCycles a).Gives s fun _ t => s.Checked t := by
  have hfree {f : Nat → Nat} : (freeNat >>= fun n => (pure (f n) : M Nat)).Gives s fun _ t => s.Checked t :=
    gives_bind (gives_freeNat_checked.mono fun _ _ h => gives_pure h)
  refine gives_bind (gives_getS ?_)
  split
  case h_1 => exact gives_pure s.checked_refl
  case h_2 => exact gives_pure s.checked_refl
  case h_3 =>
    refine gives_bind (gives_bind (gives_freeNat_checked.mono fun n t ht => gives_pure ?_))
    split
    case isTrue => exact gives_pure ht
    case isFalse =>
      exact gives_bind (gives_freeNat_checked.mono fun _ u hu => gives_pure
        ⟨hu.core.trans ht.core, fun F => (ht.within F).trans (hu.within F), List.Subset.trans hu.eccBad ht.eccBad⟩)
  case h_4 => exact hfree

theorem gives_accessStop_misaligned {p : State} {write : Bool} {n : Nat} {a : Word} (ha : a.toNat % n ≠ 0) :
    (accessStop p write n a).Gives s fun c t => c = some ⟨vAlign, if write then kWrite else kRead, a⟩ ∧ t = s := by
  refine gives_bind (gives_getS ?_)
  rw [if_pos ha]
  exact gives_pure ⟨rfl, rfl⟩

theorem ld_misaligned {o : MemOps} (h : s.Ready) (hhold : bitOf s.core.st.toNat 6 = false) (hv : s.VectorAt 3) (hr : o.res = false)
    (hz : o.sz ≠ 3) (ha : (s.g o.ra.val + o.off.signExtend 32).toNat % 2 ^ o.sz.toNat ≠ 0) :
    Completes (.ld o) s fun t => s.Traps t 3 1 (s.g o.ra.val + o.off.signExtend 32) s.faultPc s.g := by
  rw [← accLen_sizeOf hz] at ha
  refine completes_insn h rfl (by simpa [hr] using hz) (.inl rfl) fun u hu => gives_bind (gives_getS ?_)
  simp only [State.memAddr, hu.g]
  refine gives_bind (gives_bind ((gives_accessStop_misaligned ha).mono ?_))
  rintro _ _ ⟨rfl, rfl⟩
  exact gives_pure (gives_pure ⟨hu.noSample h, Done.settles_stop (by decide) (.inl (by decide)) hhold hv hu.worked fun _ hw => hw⟩)

theorem st_misaligned {o : MemOps} (h : s.Ready) (hhold : bitOf s.core.st.toNat 6 = false) (hv : s.VectorAt 3) (hr : o.res = false)
    (hz : o.sz ≠ 3) (hx : o.sx = false) (ha : (s.g o.ra.val + o.off.signExtend 32).toNat % 2 ^ o.sz.toNat ≠ 0) :
    Completes (.st o) s fun t => s.Traps t 3 2 (s.g o.ra.val + o.off.signExtend 32) s.faultPc s.g := by
  rw [← accLen_sizeOf hz] at ha
  refine completes_insn h rfl (by simpa [hr, hx] using hz) (.inl rfl) fun u hu => gives_bind (gives_getS ?_)
  simp only [State.memAddr, hu.g]
  refine gives_bind (gives_accessCycles.monoInv hu.inv fun _ v hvi hv' => gives_bind ((hu.worked.checked hv').cyc hvi fun w _ hw =>
    gives_bind (gives_bind ((gives_accessStop_misaligned ha).mono ?_))))
  rintro _ _ ⟨rfl, rfl⟩
  exact gives_pure (gives_pure ⟨hw.noSample h, Done.settles_stop (by decide) (.inl (by decide)) hhold hv hw fun _ hw => hw⟩)

/-! ### Lockup (R260) -/

/-- Nothing that a start reset looks at has changed where only the core has moved. -/
theorem State.Within.atStage {u : State} (h : s.Within coreFoot u) (hd : u.dev.seen = s.dev.seen) :
    s.AtStage (stageBegun s.dev.flash.prog) u where
  regs a ha := by simp [stageBegun, ResetStage.clears] at ha
  rtc a ha := by
    have hperf : ∀ r ∈ (evRegs intcPage).tail, pageOf r ≠ rtcPage := by decide
    exact h.regs a (decide_eq_false fun hr => hperf a hr ha)
  cells hz := by simp [stageBegun] at hz
  mem a _ _ := h.mem a rfl
  tabs x hx := by simp [stageBegun] at hx
  otp := h.otp rfl
  bad := h.bad rfl
  seen := by rw [stageBegun, hd]; rfl
  core := trivial

/-- No line is pending after a start reset: none is enabled (R262, R264). -/
theorem State.StartReset.linePending {cause : Nat} (h : s.StartReset t cause) {n : Nat} (hn : n < 68) : t.linePending n = false := by
  have hreg : ∀ k < 3, inPrivate (INTC_EN k) = true ∧ resetWord (INTC_EN k) = 0 := by decide
  obtain ⟨h1, h2⟩ := hreg (n / 32) (by omega)
  rw [State.linePending, State.lineBit, h.private_ _ h1 List.not_mem_nil, h2]
  simp [bitOf]

theorem lockup_completes {c : Instr} (hc : Completes c s fun t => s.StartReset t rstLockup) :
    Completes c s fun t => t.core.pc = 0 ∧ t.core.st = 0x801 ∧ t.core.vbase = 0 ∧ t.core.icache = [] ∧
      t.fld SYS_RSTCAUSE_LAST = 6 ∧ ∀ n < 68, t.linePending n = false := by
  obtain ⟨t, ht, h⟩ := hc
  exact ⟨t, ht, h.pc, h.st, h.vbase, h.icache, h.last, fun n hn => h.linePending hn⟩

theorem brk_lockup {o : SpcOps} (h : s.Ready) (hs : s.core.slot = none) (hhold : bitOf s.core.st.toNat 6 = true) :
    Completes (.brk o) s fun t => s.StartReset t rstLockup := by
  refine completes_insn h rfl rfl (.inr hs) fun u hu => gives_pure ⟨hu.noSample h, by decide, fun w _ hwc hww hwd => ?_⟩
  refine (gives_raise_hold (by rw [hwc, hu.core]; exact hhold) ((hu.within.trans hww).atStage ?_)).mono fun _ _ ht => ht.latch
  rw [hwd, Dev.seen, hu.dev, Dev.seen]

theorem svc_lockup {o : SpcOps} (h : s.Ready) (hs : s.core.slot = none) (hhold : bitOf s.core.st.toNat 6 = true)
    (hx : o.x.toNat < 0xF000) : Completes (.svc o) s fun t => s.StartReset t rstLockup := by
  refine svc_completes h hs fun w x _ hwc hww _ hwd => ?_
  rw [serviceCall, if_pos (Nat.lt_of_le_of_lt (Nat.mod_le _ _) hx)]
  exact (gives_raise_hold (by rw [hwc]; exact hhold) (hww.atStage hwd)).mono fun _ _ ht => ht.latch

/-- Settles O15: each exception by what stops the instruction. -/
theorem exceptions : Obligations.Exceptions := by
  refine ⟨fun s h hhold => ⟨fun hv w p q hw x hx => ?_, fun hv o i b m c ho hi hb hm x hx => ?_, fun hv hm o h1 h5 => ?_,
    fun hv hm hs o w a b hx hw => ?_, fun hv o hr hz ha => ⟨ld_misaligned h hhold hv hr hz ha, fun hx =>
      st_misaligned h hhold hv hr hz hx ha⟩, fun hv hs o r c w a b hx hr hc hw x hmem => ?_⟩, fun o s h hs hhold hx => ?_⟩
  · exact traps_of_reserved h hhold hv (reserved_wait hw x hx)
  · refine traps_of_reserved h hhold hv ?_
    exact (List.forall_mem_append.mpr ⟨reserved_reg ho, List.forall_mem_append.mpr ⟨reserved_imm hi, reserved_branch hb hm⟩⟩) x hx
  · simp only [List.forall_mem_cons, List.not_mem_nil, false_imp_iff, implies_true, and_true]
    exact ⟨traps_of_sysOnly h hhold hv hm rfl rfl (.inl rfl), traps_of_sysOnly h hhold hv hm rfl rfl (.inl rfl),
      traps_of_sysOnly h hhold hv hm rfl rfl (.inl rfl), traps_rdsp h hhold hv hm h1 h5⟩
  · simp only [List.forall_mem_cons, List.not_mem_nil, false_imp_iff, implies_true, and_true, ← State.faultPc_of_empty hs]
    exact ⟨traps_of_sysOnly h hhold hv hm rfl rfl (.inr hs), traps_of_sysOnly h hhold hv hm rfl (decide_eq_false (by omega)) (.inr hs),
      traps_of_sysOnly h hhold hv hm rfl (by simp [hw]) (.inr hs), traps_of_sysOnly h hhold hv hm rfl (by simp [hw]) (.inr hs)⟩
  · exact traps_of_unslotted h hhold hv hs (unslotted_all hx hr hc hw x hmem)
  · simp only [List.forall_mem_cons, List.not_mem_nil, false_imp_iff, implies_true, and_true]
    exact ⟨lockup_completes (brk_lockup h hs hhold), lockup_completes (svc_lockup h hs hhold hx)⟩

end Sys2Proof.Machine
end

section
/-!
The interrupt controller: the line that would be accepted, its acceptance, the software latches (R262, R264).
-/
namespace Sys2Proof.Machine
open Sys2Proof.Reg

variable {s t : State}

/-! ### Single bits of a number -/

/-- Taking away a bit that is set leaves the others. -/
theorem testBit_sub_two_pow {n i : Nat} (h : n.testBit i = true) (k : Nat) :
    (n - 2 ^ i).testBit k = (decide (k ≠ i) && n.testBit k) := by
  induction i generalizing n k with
  | zero =>
    have h1 : n % 2 = 1 := by simpa using h
    cases k with
    | zero => simp; omega
    | succ k => rw [Nat.testBit_add_one, Nat.testBit_add_one, show (n - 2 ^ 0) / 2 = n / 2 from by omega]; simp
  | succ i ih =>
    have hle := Nat.ge_two_pow_of_testBit h
    rw [Nat.pow_succ] at hle
    cases k with
    | zero =>
      have : (n - 2 ^ (i + 1)) % 2 = n % 2 := by rw [Nat.pow_succ]; omega
      simp [this]
    | succ k =>
      rw [Nat.testBit_add_one] at h
      rw [Nat.testBit_add_one, Nat.testBit_add_one, show (n - 2 ^ (i + 1)) / 2 = n / 2 - 2 ^ i from by rw [Nat.pow_succ]; omega, ih h]
      simp

theorem bitClr_testBit (n i k : Nat) : (bitClr n i).testBit k = (decide (k ≠ i) && n.testBit k) := by
  unfold bitClr
  split
  case isTrue h => exact testBit_sub_two_pow h k
  case isFalse h =>
    by_cases hk : k = i
    · subst hk; simp [h]
    · simp [hk]

theorem bitSet_testBit (n i k : Nat) : (bitSet n i).testBit k = (n.testBit k || decide (k = i)) := by
  rw [bitSet, Nat.testBit_or, Nat.testBit_two_pow]
  simp only [eq_comm]

/-! ### The levels of the lines' sources -/

/-- The levels of the lines look at no register that the core counts in, and of the units' live state at two notes alone. -/
theorem State.level_congr (hr : ∀ a, a ∉ perfRegs intcPage → t.reg a = s.reg a) (hw : t.dev.sys.warned = s.dev.sys.warned)
    (ha : t.dev.hostp.appIrq = s.dev.hostp.appIrq) (n : Nat) : t.level n = s.level n := by
  have hstim (k : Nat) : t.reg (STIM_STAT k) = s.reg (STIM_STAT k) := hr _ (by
    simp only [perfRegs, List.mem_cons, List.not_mem_nil, or_false, PERF_CNT, intcPage, STIM_STAT]; omega)
  have hciph (k : Nat) : t.reg (FLT (ciphPage k)) = s.reg (FLT (ciphPage k)) := hr _ (by
    simp only [perfRegs, List.mem_cons, List.not_mem_nil, or_false, PERF_CNT, intcPage, FLT, ciphPage]; omega)
  simp only [State.level, State.fault, State.fld, State.bit, State.en, hw, ha, hstim, hciph]
  split <;> simp (disch := decide) only [hr]

/-- Where no line's source rises, no edge is latched (R262). -/
theorem latchEdges_of_level (h : ∀ n, t.level n = s.level n) : latchEdges s t = t := by
  have hfold (l : List Nat) (x : Nat) :
      l.foldl (fun acc n => if t.level n && !s.level n then bitSet acc n else acc) x = x := by
    induction l with
    | nil => rfl
    | cons n l ih => simpa [h n] using ih
  simp only [latchEdges, hfold]

/-! ### The line that would be accepted (R262) -/

/-- One step of the search for the pending line of highest priority. -/
def State.better (s : State) (best : Option Nat) (n : Nat) : Option Nat :=
  if s.linePending n then
    match best with
    | none => some n
    | some b => if s.linePrio n < s.linePrio b then some n else some b
  else best

theorem State.topLine_eq (s : State) : s.topLine = (List.range 68).foldl s.better none := rfl

/-- What the search has found is a pending line. -/
theorem State.better_pending (k : Nat) : ∀ n, (List.range k).foldl s.better none = some n → n < k ∧ s.linePending n = true := by
  induction k with
  | zero => intro n h; simp at h
  | succ k ih =>
    intro n h
    rw [List.range_succ, List.foldl_append, List.foldl_cons, List.foldl_nil] at h
    generalize (List.range k).foldl s.better none = r at h ih
    unfold State.better at h
    split at h
    case isFalse => exact ⟨Nat.lt_succ_of_lt (ih n h).1, (ih n h).2⟩
    case isTrue hk =>
      cases r with
      | none => obtain rfl := Option.some.inj h; exact ⟨Nat.lt_succ_self _, hk⟩
      | some b =>
        simp only at h
        split at h
        · obtain rfl := Option.some.inj h; exact ⟨Nat.lt_succ_self _, hk⟩
        · obtain rfl := Option.some.inj h; exact ⟨Nat.lt_succ_of_lt (ih b rfl).1, (ih b rfl).2⟩

/-- The first of the pending lines of highest priority, once the search has passed it. -/
theorem State.better_of_first {n : Nat} (hn : s.linePending n = true)
    (hmin : ∀ m < 68, s.linePending m = true → s.linePrio n < s.linePrio m ∨ s.linePrio n = s.linePrio m ∧ n ≤ m) (k : Nat)
    (hk : n + 1 + k ≤ 68) : (List.range (n + 1 + k)).foldl s.better none = some n := by
  induction k with
  | zero =>
    have hbefore := s.better_pending n
    rw [Nat.add_zero, List.range_succ, List.foldl_append, List.foldl_cons, List.foldl_nil]
    generalize (List.range n).foldl s.better none = r at hbefore ⊢
    unfold State.better
    rw [if_pos hn]
    cases r with
    | none => rfl
    | some b =>
      obtain ⟨hb, hp⟩ := hbefore b rfl
      exact if_pos ((hmin b (by omega) hp).resolve_right fun h => absurd h.2 (by omega))
  | succ k ih =>
    rw [← Nat.add_assoc, List.range_succ, List.foldl_append, List.foldl_cons, List.foldl_nil, ih (by omega)]
    unfold State.better
    split
    case isFalse => rfl
    case isTrue hp =>
      refine if_neg ?_
      rcases hmin _ (by omega) hp with h | h <;> omega

theorem State.topLine_of_first {n : Nat} (hlt : n < 68) (hn : s.linePending n = true)
    (hmin : ∀ m < 68, s.linePending m = true → s.linePrio n < s.linePrio m ∨ s.linePrio n = s.linePrio m ∧ n ≤ m) :
    s.topLine = some n := by
  have h := State.better_of_first hn hmin (67 - n) (by omega)
  rwa [show n + 1 + (67 - n) = 68 from by omega] at h

theorem State.wouldAccept_none (h : (∀ n < 68, s.linePending n = true → s.pl ≤ s.linePrio n) ∨ bitOf s.core.st.toNat 7 = false ∨
    bitOf s.core.st.toNat 6 = true) : s.wouldAccept (bitOf s.core.st.toNat 7) = none := by
  rw [State.wouldAccept]
  cases ht : s.topLine with
  | none => rfl
  | some n =>
    obtain ⟨hn, hp⟩ := s.better_pending 68 n ht
    refine if_neg fun hc => ?_
    simp only [Bool.and_eq_true, Bool.not_eq_true', decide_eq_true_eq] at hc
    obtain ⟨⟨h7, h6⟩, hpl⟩ := hc
    rcases h with h | h | h
    · exact absurd (h n hn hp) (Nat.not_le.mpr hpl)
    · rw [h] at h7; exact absurd h7 Bool.false_ne_true
    · rw [h] at h6; exact absurd h6.symm Bool.false_ne_true

/-! ### Its acceptance (R257, R262) -/

theorem stMask_priority : bitsGet stMask 11 8 = 15 := by decide

/-- ST at the entry for a line: as for an exception, and PL at the line's priority. -/
theorem lineSt_testBit {st : Word} (h : st &&& stMask = st) {p i : Nat} (hi : i < 32) :
    (bitsPut (entrySt st) 11 8 p &&& stMask).toNat.testBit i =
      if 8 ≤ i ∧ i ≤ 11 then p.testBit (i - 8) else if i = 0 ∨ i = 6 then true else if i = 7 then false else st.toNat.testBit i := by
  have hm : ∀ i : Fin 32, 8 ≤ i.val ∧ i.val ≤ 11 → stMask.toNat.testBit i.val = true := by decide
  have he := entrySt_testBit h hi
  rw [BitVec.toNat_and, Nat.testBit_and] at he ⊢
  rw [bitsPut_testBit _ 11 8 _ i (by decide) hi]
  split
  case isTrue hr => rw [hm ⟨i, hi⟩ hr, Bool.and_true]
  case isFalse => exact he

/-- The core once it has entered the handler of a line (R257). -/
def Core.accepted (c : Core) (p : Nat) (pc cycle : Word) : Core :=
  { c with xpc := c.pc, xst := c.st, slot := none, st := bitsPut (entrySt c.st) 11 8 p &&& stMask, cycle := cycle, pc := pc &&& 0xFFFFFFFC }

/-- A look at a word of SRAM leaves the units alone, its error counts and error memory apart (R272). -/
theorem gives_sramCheck_dev {a : Nat} : (sramCheck a).Gives s fun _ t =>
    t.dev = { s.dev with ctr := t.dev.ctr, eccOne := t.dev.eccOne, eccBad := t.dev.eccBad } := by
  refine gives_bind (gives_getS ?_)
  by_cases h : a / 4 * 4 ∈ s.dev.eccBad
  · rw [if_pos h]
    refine gives_bind (gives_stat.mono ?_)
    rintro _ _ ⟨x, rfl⟩
    exact gives_pure rfl
  · rw [if_neg h]
    split
    · refine gives_bind (gives_stat.mono ?_)
      rintro _ _ ⟨x, rfl⟩
      exact gives_bind (gives_act (gives_pure rfl))
    · exact gives_pure rfl

theorem gives_busRead_sram_dev {m : Master} {a : Nat} (hlo : 0x20000000 ≤ a) (hhi : a < 0x20080000) :
    (busRead m .word a).Gives s fun _ t => t.dev = { s.dev with ctr := t.dev.ctr, eccOne := t.dev.eccOne, eccBad := t.dev.eccBad } := by
  refine gives_bind (gives_getS ?_)
  simp only [s.rangeOf_sram hlo hhi]
  refine gives_bind (gives_sramCheck_dev.mono fun b t ht => ?_)
  cases b <;> exact gives_pure ht

theorem gives_enter_line {v p : Nat} (hs : s.Inv) (hv : s.VectorAt v) :
    (enter v s.core.pc (some p) none).Gives s fun _ t =>
      (∃ x, t.core = s.core.accepted p (s.memWord (s.core.vbase + BitVec.ofNat 32 (4 * v)).toNat) x) ∧ s.Within coreFoot t ∧
        t.dev = { s.dev with ctr := t.dev.ctr, eccOne := t.dev.eccOne, eccBad := t.dev.eccBad } := by
  obtain ⟨hpc, hst, hvb⟩ := hs.core
  refine gives_bind (gives_getS (gives_bind (gives_act (gives_bind ((gives_cyc (Prim.run_inv _ _ hs)).mono ?_)))))
  rintro _ t ⟨⟨x, hx⟩, hdev, _, _, htw⟩
  have hw : s.Within coreFoot t := (s.within_coreFoot _).trans htw
  refine gives_bind (((gives_busRead_sram hv.lo hv.hi (vector_aligned hs.core v) ?_).and (gives_busRead_sram_dev hv.lo hv.hi)).mono ?_)
  · rw [hdev]
    exact hv.clean
  · rintro _ u ⟨⟨rfl, hu⟩, hud⟩
    refine gives_act ⟨⟨x, ?_⟩, (hw.trans (hu.within _)).trans (State.within_coreFoot _ _), by rw [Prim.run_core_dev, hud, hdev]; rfl⟩
    rw [Prim.run_core_core, hu.core, hx, hw.memWord fun _ => rfl]
    simp only [Prim.run_core_core, Core.norm, hpc, hvb, and_mask_idem]
    rfl

theorem State.Entered.of_accepted {p : Nat} {pc x : Word} (hs : s.Inv) (ht : t.core = s.core.accepted p pc x)
    (hw : s.Within coreFoot t) (hp : p < 16) : s.Entered t s.core.pc pc s.g ∧ bitsGet t.core.st 11 8 = p := by
  have hst : t.core.st = bitsPut (entrySt s.core.st) 11 8 p &&& stMask := by rw [ht]; rfl
  have hbit {i : Nat} (hi : i < 32) := hst ▸ lineSt_testBit (p := p) hs.core.2.1 hi
  refine ⟨⟨by rw [ht]; rfl, by rw [ht]; rfl, hbit (by omega), hbit (by omega), hbit (by omega), fun i hi => ?_,
    by rw [ht]; rfl, by rw [ht]; rfl, by rw [ht]; rfl, fun k => by rw [State.g, ht]; rfl, hw⟩, Nat.eq_of_testBit_eq fun i => ?_⟩
  · by_cases h : i < 32
    · rw [hbit h, if_neg (by omega), if_neg (by omega), if_neg (by omega)]
    · rw [testBit_of_le (by omega), testBit_of_le (by omega)]
  · rw [bitsGet_testBit]
    by_cases hi : i < 4
    · rw [hbit (by omega), if_pos (by omega), Nat.add_sub_cancel_left]
      simp [hi]
    · rw [Nat.testBit_lt_two_pow (Nat.lt_of_lt_of_le (show p < 2 ^ 4 from hp) (Nat.pow_le_pow_right (by decide) (Nat.not_lt.mp hi)))]
      simp; omega

theorem State.linePrio_lt (s : State) (n : Nat) : s.linePrio n < 16 := by
  rw [State.linePrio, State.fld, bitsGet, Nat.add_sub_cancel_left]
  exact Nat.lt_of_lt_of_le (Nat.mod_lt _ (by decide)) (by decide)

theorem interruptAccept_takes {n : Nat} (hs : s.Inv) (he : s.executes = true) (hslot : s.core.slot = none) (hlt : n < 68)
    (hn : s.linePending n = true)
    (hmin : ∀ m < 68, s.linePending m = true → s.linePrio n < s.linePrio m ∨ s.linePrio n = s.linePrio m ∧ n ≤ m)
    (hie : bitOf s.core.st.toNat 7 = true) (hhold : bitOf s.core.st.toNat 6 = false) (hpl : s.linePrio n < s.pl)
    (hv : s.VectorAt (32 + n)) :
    Completes .interruptAccept s fun t =>
      s.Entered t s.core.pc (s.memWord (s.core.vbase + BitVec.ofNat 32 (4 * (32 + n))).toNat) s.g ∧
      bitsGet t.core.st 11 8 = s.linePrio n ∧ t.core.xcause = s.core.xcause ∧ t.core.faddr = s.core.faddr ∧
      (∀ k, t.dev.intc.edge.testBit k = (decide (k ≠ n) && s.dev.intc.edge.testBit k)) ∧
      ∀ k, t.dev.intc.soft.testBit k = (decide (k ≠ n) && s.dev.intc.soft.testBit k) := by
  have hacc : s.wouldAccept true = some n := by
    rw [State.wouldAccept, State.topLine_of_first hlt hn hmin]
    exact if_pos (by simp [hhold, hpl])
  refine completes_cmd rfl (gives_bind (gives_getS ?_))
  rw [if_pos (by simp [he, hslot]), hie, hacc]
  refine gives_bind (gives_perf.monoInv hs ?_)
  rintro _ t hti ⟨ht, _⟩
  refine gives_bind (gives_act ?_)
  generalize hu : Prim.run _ t = u
  have hui : u.Inv := hu ▸ Prim.run_inv _ _ hti
  have huc : u.core = s.core := by rw [← hu, Prim.run_dev_core, ht.core]
  have huw : s.Within coreFoot u := hu ▸ ht.coreFoot.trans (t.within_live rfl)
  have hud : u.dev = { s.dev with intc := { soft := bitClr s.dev.intc.soft n, edge := bitClr s.dev.intc.edge n } } := by
    rw [← hu, Prim.run_dev_dev, ht.dev]
  have hvu : u.VectorAt (32 + n) := ⟨by rw [huc]; exact hv.lo, by rw [huc]; exact hv.hi, by rw [huc, hud]; exact hv.clean⟩
  have henter := gives_enter_line (p := s.linePrio n) hui hvu
  rw [huc] at henter
  refine henter.mono ?_
  rintro _ v ⟨⟨x, hvc⟩, hvw, hvd⟩
  have hw := huw.trans hvw
  have hsame : latchEdges s v = v :=
    latchEdges_of_level (State.level_congr (fun a ha => hw.regs a (coreFoot_regs ha)) (by rw [hvd, hud]) (by rw [hvd, hud]))
  rw [huw.memWord fun _ => rfl] at hvc
  obtain ⟨hent, hprio⟩ := State.Entered.of_accepted hs hvc hw (s.linePrio_lt n)
  rw [hsame]
  refine ⟨hent, hprio, by rw [hvc]; rfl, by rw [hvc]; rfl, fun k => ?_, fun k => ?_⟩
  · rw [hvd, hud]; exact bitClr_testBit _ _ _
  · rw [hvd, hud]; exact bitClr_testBit _ _ _

theorem interruptAccept_nothing (he : s.executes = true) (hslot : s.core.slot = none)
    (h : (∀ n < 68, s.linePending n = true → s.pl ≤ s.linePrio n) ∨ bitOf s.core.st.toNat 7 = false ∨ bitOf s.core.st.toNat 6 = true) :
    Completes .interruptAccept s fun t => t = s := by
  refine completes_cmd rfl (gives_bind (gives_getS ?_))
  rw [if_pos (by simp [he, hslot]), State.wouldAccept_none h]
  exact gives_nop (latchEdges_of_level fun _ => rfl)

/-! ### The software latches (R262, R264) -/

theorem mem_onesOf_32 {v : Word} {k n : Nat} : n / 32 = k ∧ v.toNat.testBit (n % 32) = true ↔ ∃ j ∈ onesOf 32 v.toNat, n = 32 * k + j := by
  simp only [mem_onesOf]
  constructor
  · rintro ⟨hk, hb⟩
    exact ⟨n % 32, ⟨Nat.mod_lt _ (by decide), hb⟩, by omega⟩
  · rintro ⟨j, ⟨hj, hb⟩, rfl⟩
    refine ⟨by omega, ?_⟩
    rwa [show (32 * k + j) % 32 = j from by omega]

/-- Setting the software latches of some lines, one after the other. -/
theorem gives_setLatches {k : Nat} {l : List Nat} :
    (forAll l fun j => modIntc fun i => { i with soft := bitSet i.soft (32 * k + j) }).Gives s fun _ t =>
      ∃ x, t = s.live (fun d => { d with intc := { d.intc with soft := x } }) ∧
        ∀ n, x.testBit n = (s.dev.intc.soft.testBit n || decide (∃ j ∈ l, n = 32 * k + j)) := by
  induction l generalizing s with
  | nil => exact gives_nop ⟨s.dev.intc.soft, rfl, fun n => by simp⟩
  | cons j l ih =>
    refine gives_bind (gives_act (ih.mono ?_))
    rintro _ _ ⟨x, rfl, hx⟩
    refine ⟨x, rfl, fun n => ?_⟩
    rw [hx, Prim.run_dev_dev, bitSet_testBit]
    simp [Bool.or_assoc]

theorem gives_clearLatches {k : Nat} {l : List Nat} :
    (forAll l fun j => clearLine (32 * k + j)).Gives s fun _ t =>
      ∃ x y, t = s.live (fun d => { d with intc := { soft := x, edge := y } }) ∧
        (∀ n, x.testBit n = (s.dev.intc.soft.testBit n && !decide (∃ j ∈ l, n = 32 * k + j))) ∧
        ∀ n, y.testBit n = (s.dev.intc.edge.testBit n && !decide (∃ j ∈ l, n = 32 * k + j)) := by
  induction l generalizing s with
  | nil => exact gives_nop ⟨s.dev.intc.soft, s.dev.intc.edge, rfl, fun n => by simp, fun n => by simp⟩
  | cons j l ih =>
    refine gives_bind (gives_act (ih.mono ?_))
    rintro _ _ ⟨x, y, rfl, hx, hy⟩
    refine ⟨x, y, rfl, fun n => ?_, fun n => ?_⟩
    · rw [hx, Prim.run_dev_dev, bitClr_testBit]
      simp [Bool.and_comm, Bool.and_assoc]
    · rw [hy, Prim.run_dev_dev, bitClr_testBit]
      simp [Bool.and_comm, Bool.and_assoc]

theorem latchEdges_latches (s : State) (f : Intc → Intc) :
    latchEdges s (s.live fun d => { d with intc := f d.intc }) = s.live fun d => { d with intc := f d.intc } :=
  latchEdges_of_level (State.level_congr (fun _ _ => rfl) rfl rfl)

/-- Settles O16: the search for the first pending line, its entry, and the latches bit by bit. -/
theorem interrupts : Obligations.Interrupts := by
  refine ⟨fun s hs he hslot => ⟨fun n hlt hn hmin hie hhold hpl hv => interruptAccept_takes hs he hslot hlt hn hmin hie hhold hpl hv,
    interruptAccept_nothing he hslot⟩, fun k v s => ⟨completes_cmd rfl (gives_setLatches.mono ?_),
    completes_cmd rfl (gives_clearLatches.mono ?_)⟩⟩
  · rintro _ _ ⟨x, rfl, hx⟩
    rw [latchEdges_latches s fun i => { i with soft := x }]
    refine ⟨fun n => ?_, rfl, s.within_live rfl⟩
    rw [State.live_dev, hx]
    simp only [← mem_onesOf_32, Bool.decide_and, Bool.decide_eq_true]
  · rintro _ _ ⟨x, y, rfl, hx, hy⟩
    rw [latchEdges_latches s fun _ => { soft := x, edge := y }]
    refine ⟨fun n => ?_, fun n => ?_, s.within_live rfl⟩
    · rw [State.live_dev, hx]
      simp only [← mem_onesOf_32, Bool.decide_and, Bool.decide_eq_true]
    · rw [State.live_dev, hy]
      simp only [← mem_onesOf_32, Bool.decide_and, Bool.decide_eq_true]

end Sys2Proof.Machine
end

section
/-!
Special registers, EI, DI, SYNC, IINV, WAIT and the end of DOZE (R238, R239, R246, R370–R373).
-/
namespace Sys2Proof.Machine
open Sys2Proof.Reg

variable {s t : State}

theorem State.Begun.special {u : State} (h : s.Begun u) {x : Nat} (hx : x < 6) : u.special x = s.special x := by
  have key : ∀ c : Core, c = { s.core with insn := true } → ∀ u : State, u.core = c → u.special x = s.special x := by
    rintro _ rfl u hu
    match x, hx with
    | 0, _ | 1, _ | 2, _ | 3, _ | 4, _ | 5, _ => simp only [State.special, hu]
  exact key _ rfl u h.core

theorem rdsp_completes {o : SpcOps} (h : s.Ready) (hx : o.x.toNat < 6) (hm : s.sysMode = true ∨ o.x.toNat = 0) :
    Completes (.rdsp o) s fun t =>
      s.Executed t (s.core.pc + 4) (s.gWith o.r.val (s.special o.x.toNat)) ∧ t.core.st = s.core.st := by
  refine completes_insn h rfl (decide_eq_false (by omega)) (.inl rfl) fun u hu => gives_bind (gives_getS ?_)
  rw [if_pos (by rw [hu.sysMode]; rcases hm with hm | hm <;> simp [hm])]
  refine gives_bind (hu.worked.cyc hu.inv fun v hvi hv => gives_bind (hv.setG h.inv hvi fun w hwi hw =>
    gives_pure ⟨hw.noSample h, ?_⟩))
  rw [hu.special hx] at hw
  exact Done.settles_of_worked_regs hw (.inl ⟨rfl, rfl⟩) fun x he hst => ⟨he.latched, hst⟩

/-- The end of a body that changes special registers or the cache, and the general registers not. -/
theorem gives_modCore_next {u : State} {f : Core → Core} {P : State → Prop} (h : s.Ready) (hu : s.Worked u s.g)
    (hi : ∀ c, (f c).insn = c.insn) (hg : ∀ c, (f c).g = c.g) (hs : ∀ c, (f c).slot = c.slot)
    (hq : ∀ w x y, w.core = Core.retired (f { s.core with insn := true, cycle := x, g := y }).norm (s.core.pc + 4) none →
      (∀ k, w.g k = s.slotted k (s.g k)) → s.Within coreFoot w → P w) :
    (modCore f >>= fun _ => (pure .next : M Done)).Gives u fun d t => t.en tallyPage = false ∧ d.Settles s t P := by
  obtain ⟨x, y, hc⟩ := hu.core
  have hw : s.Within coreFoot (Prim.run (.core f) u) :=
    (hu.within (m := fun _ => false) fun _ _ => rfl : s.Within coreFoot u).trans (u.within_coreFoot f)
  refine gives_bind (gives_act (gives_pure ⟨hw.noSample (by decide) h.noSample, ?_, fun w _ hwc hww _ => ?_⟩))
  · rw [Prim.run_core_core]
    exact (hi _).trans (by rw [hc])
  · refine hq w x y (by rw [hwc, Prim.run_core_core, hc]) (fun k => ?_) (hw.trans hww)
    rw [State.g_retired (s := s) hwc ((hs _).trans (by rw [hc])), ← hu.regs k]
    exact congrArg _ (congrArg (Sparse.get wordReset · k) (hg u.core))

theorem gives_sysOnly_begun {u : State} {body : M Done} {Q : Done → State → Prop} (hu : s.Begun u) (h : s.sysMode = true)
    (hb : body.Gives u Q) : (sysOnly body).Gives u Q := gives_sysOnly (by rw [hu.sysMode]; exact h) hb

/-- WRSP's effect on the core. -/
def Core.wrsp (c : Core) (x : Nat) (v : Word) : Core :=
  match x with
  | 0 => { c with st := v }
  | 1 => { c with xpc := v }
  | 2 => { c with xst := v }
  | 3 => { c with vbase := v }
  | _ => c

section
variable (c : Core) (x : Nat) (v : Word)
theorem Core.norm_st : c.norm.st = c.st &&& stMask := rfl
theorem Core.norm_xpc : c.norm.xpc = c.xpc := rfl
theorem Core.norm_xst : c.norm.xst = c.xst := rfl
theorem Core.norm_vbase : c.norm.vbase = c.vbase &&& 0xFFFFFC00 := rfl
theorem Core.norm_xcause : c.norm.xcause = c.xcause := rfl
theorem Core.norm_faddr : c.norm.faddr = c.faddr := rfl
theorem Core.wrsp_st : (c.wrsp x v).st = if x = 0 then v else c.st := by rcases x with _ | _ | _ | _ | x <;> rfl
theorem Core.wrsp_xpc : (c.wrsp x v).xpc = if x = 1 then v else c.xpc := by rcases x with _ | _ | _ | _ | x <;> rfl
theorem Core.wrsp_xst : (c.wrsp x v).xst = if x = 2 then v else c.xst := by rcases x with _ | _ | _ | _ | x <;> rfl
theorem Core.wrsp_vbase : (c.wrsp x v).vbase = if x = 3 then v else c.vbase := by rcases x with _ | _ | _ | _ | x <;> rfl
theorem Core.wrsp_xcause : (c.wrsp x v).xcause = c.xcause := by rcases x with _ | _ | _ | _ | x <;> rfl
theorem Core.wrsp_faddr : (c.wrsp x v).faddr = c.faddr := by rcases x with _ | _ | _ | _ | x <;> rfl
end

theorem wrsp_completes {o : SpcOps} (h : s.Ready) (hx : o.x.toNat < 7) (hm : s.sysMode = true) (hs : s.core.slot = none) :
    Completes (.wrsp o) s fun t =>
      let v := s.g o.r.val
      t.core.pc = s.core.pc + 4 ∧
      t.core.st = (if o.x.toNat = 0 then v &&& stMask else s.core.st) ∧
      t.core.xpc = (if o.x.toNat = 1 then v else s.core.xpc) ∧
      t.core.xst = (if o.x.toNat = 2 then v else s.core.xst) ∧
      t.core.vbase = (if o.x.toNat = 3 then v &&& 0xFFFFFC00 else s.core.vbase) ∧
      t.core.xcause = s.core.xcause ∧ t.core.faddr = s.core.faddr ∧ (∀ k, t.g k = s.g k) ∧ s.Within coreFoot t := by
  obtain ⟨-, hst, hvb⟩ := h.inv.core
  refine completes_insn h rfl (decide_eq_false (by omega)) (.inr hs) fun u hu => gives_sysOnly_begun hu hm (gives_bind (gives_getS ?_))
  refine gives_bind (hu.worked.cyc hu.inv fun v hvi hv => gives_modCore_next (f := fun c => c.wrsp o.x.toNat (u.g o.r.val)) h hv
    (fun c => ?_) (fun c => ?_) (fun c => ?_) fun w x y hwc hwg hww => ?_)
  · unfold Core.wrsp; split <;> rfl
  · unfold Core.wrsp; split <;> rfl
  · unfold Core.wrsp; split <;> rfl
  · have hg : ∀ k, w.g k = s.g k := fun k => by rw [hwg, State.slotted, hs]
    rw [hu.g] at hwc
    refine ⟨by rw [latchEdges_core, hwc]; rfl, ?_, ?_, ?_, ?_, ?_, ?_, hg, hww.latch⟩
    · rw [latchEdges_core, hwc, Core.retired_st, Core.norm_st, Core.wrsp_st]
      split
      · rfl
      · exact hst
    · rw [latchEdges_core, hwc, Core.retired_xpc, Core.norm_xpc, Core.wrsp_xpc]
    · rw [latchEdges_core, hwc, Core.retired_xst, Core.norm_xst, Core.wrsp_xst]
    · rw [latchEdges_core, hwc, Core.retired_vbase, Core.norm_vbase, Core.wrsp_vbase]
      split
      · rfl
      · exact hvb
    · rw [latchEdges_core, hwc, Core.retired_xcause, Core.norm_xcause, Core.wrsp_xcause]
    · rw [latchEdges_core, hwc, Core.retired_faddr, Core.norm_faddr, Core.wrsp_faddr]

/-- EI and DI, which change ST alone. -/
theorem st_completes {c : Instr} {word : Word} {f : Word → Word} {P : Word → Prop} (h : s.Ready) (hm : s.sysMode = true)
    (hc : exec c s = cmd s (insn word false false (sysOnly (cyc 1 >>= fun _ => modCore (fun c => { c with st := f c.st }) >>= fun _ =>
      (pure .next : M Done))))) (hP : P (f s.core.st &&& stMask)) :
    Completes c s fun t => s.Executed t (s.core.pc + 4) s.g ∧ P t.core.st := by
  obtain ⟨hpc, -, hvb⟩ := h.inv.core
  refine completes_insn h hc rfl (.inl rfl) fun u hu => gives_sysOnly_begun hu hm ?_
  refine gives_bind (hu.worked.cyc hu.inv fun v hvi hv => gives_modCore_next h hv (fun _ => rfl) (fun _ => rfl) (fun _ => rfl)
    fun w x y hwc hwg hww => ⟨⟨?_, ?_, hwg, ?_, ?_, ?_, ?_, ?_, ?_, hww.latch⟩, ?_⟩)
  case refine_9 => rw [latchEdges_core, hwc, Core.retired_st]; exact hP
  case refine_5 => rw [latchEdges_core, hwc, Core.retired_vbase]; exact hvb
  all_goals rw [latchEdges_core, hwc]; simp [Core.norm]

/-- A bit of ST put, and the bits ST does not have cleared. -/
theorem stMask_bitsPut {st : Word} (h : st &&& stMask = st) {b v i : Nat} (hb : stMask.toNat.testBit b = true) (hb' : b < 32)
    (hi : i < 32) : (bitsPut st b b v &&& stMask).toNat.testBit i = if i = b then v.testBit 0 else st.toNat.testBit i := by
  have hm : st.toNat.testBit i = (st.toNat.testBit i && stMask.toNat.testBit i) := by
    conv_lhs => rw [← h, BitVec.toNat_and, Nat.testBit_and]
  rw [BitVec.toNat_and, Nat.testBit_and, bitsPut_testBit _ b b _ i (Nat.le_refl _) hi]
  by_cases e : i = b
  · subst e; simp [hb]
  · rw [if_neg (by omega), if_neg e, ← hm]

theorem sync_completes {o : SpcOps} (h : s.Ready) :
    Completes (.sync o) s fun t => s.Executed t (s.core.pc + 4) s.g ∧ t.core.st = s.core.st := by
  refine completes_insn h rfl rfl (.inl rfl) fun u hu => gives_bind (gives_freeNat_checked.monoInv hu.inv fun k v hvi hv => ?_)
  refine gives_bind ((hu.worked.checked hv).cyc hvi fun w _ hw => gives_pure ⟨hw.noSample h, ?_⟩)
  exact Done.settles_of_worked_regs hw (.inl ⟨rfl, rfl⟩) fun x he hst => ⟨he.latched, hst⟩

theorem iinv_completes {o : SpcOps} (h : s.Ready) (hm : s.sysMode = true) :
    Completes (.iinv o) s fun t =>
      t.core.icache = [] ∧ t.core.pc = s.core.pc + 4 ∧ (∀ k, t.g k = s.slotted k (s.g k)) ∧ t.core.st = s.core.st ∧
        s.Within coreFoot t := by
  have hst := h.inv.core.2.1
  refine completes_insn h rfl rfl (.inl rfl) fun u hu => gives_sysOnly_begun hu hm ?_
  refine gives_bind (gives_freeNat_checked.monoInv hu.inv fun k v hvi hv => ?_)
  refine gives_bind ((hu.worked.checked hv).cyc hvi fun w hwi hw => gives_modCore_next h hw (fun _ => rfl) (fun _ => rfl) (fun _ => rfl)
    fun w x y hwc hwg hww => ⟨?_, ?_, hwg, ?_, hww.latch⟩)
  all_goals rw [latchEdges_core, hwc]; simp [Core.norm, hst]

/-! ### WAIT 0 and the end of DOZE (R246, R370) -/

/-- Which lines are pending, where the registers and latches that say so are as before. -/
theorem State.linePending_congr {l : List Nat} (hr : ∀ a ∉ l, t.reg a = s.reg a) (hl : ∀ k, INTC_EN k ∉ l ∧ INTC_MODE k ∉ l)
    (hi : t.dev.intc = s.dev.intc) {n : Nat} (hlev : t.level n = s.level n) : t.linePending n = s.linePending n := by
  simp only [State.linePending, State.lineBit, State.asserted, hr _ (hl _).1, hr _ (hl _).2, hi, hlev]
  rfl

theorem intcRegs_not_perf (k : Nat) : INTC_EN k ∉ perfRegs intcPage ∧ INTC_MODE k ∉ perfRegs intcPage :=
  ⟨not_mem_perf_of_private (by rw [INTC_EN]; omega), not_mem_perf_of_private (by rw [INTC_MODE]; omega)⟩

/-- The search for the first pending line finds the same where the same lines are pending. -/
theorem State.topLine_congr (hp : ∀ n, t.linePending n = s.linePending n) (hq : ∀ n, t.linePrio n = s.linePrio n) :
    t.topLine = s.topLine := by
  simp only [State.topLine, hp, hq]

theorem State.linePrio_congr (hr : ∀ k, t.reg (INTC_PRIO k) = s.reg (INTC_PRIO k)) (n : Nat) : t.linePrio n = s.linePrio n := by
  rw [State.linePrio, State.fld, hr, State.linePrio, State.fld]

theorem gives_freeNat_dev : freeNat.Gives s fun _ t => t.dev = s.dev :=
  gives_bind (gives_getS (gives_bind (gives_act (gives_pure rfl))))

/-- The units' live state but for counts and the error memory, which the fetch and the data accesses note in. -/
def Dev.SameUnits (d e : Dev) : Prop := e = { d with ctr := e.ctr, eccOne := e.eccOne, eccBad := e.eccBad }

/-- The lines are as before while an instruction has touched but the core. -/
theorem State.Worked.lines {u : State} {g : Nat → Word} {b : Nat → Byte} (h : s.Worked u g b) (hd : s.dev.SameUnits u.dev) :
    (∀ n, u.linePending n = s.linePending n) ∧ u.topLine = s.topLine := by
  have hregs : ∀ a ∉ perfRegs intcPage, u.reg a = s.reg a := fun a ha => h.rest.regs a (coreFoot_regs ha)
  have hp (n : Nat) : u.linePending n = s.linePending n :=
    State.linePending_congr hregs intcRegs_not_perf (by rw [hd]) (State.level_congr hregs (by rw [hd]) (by rw [hd]) n)
  exact ⟨hp, State.topLine_congr hp (State.linePrio_congr fun k =>
    hregs _ (not_mem_perf_of_private (by rw [INTC_PRIO]; omega)))⟩

/-- A WAIT's body has taken its time: nothing but the core has moved, and the units are as before. -/
theorem gives_waited {k : M Done} {u : State} {Q : Done → State → Prop} (hu : s.Begun u)
    (hk : ∀ w, w.Inv → s.Worked w s.g → s.dev.SameUnits w.dev → (∀ i j, w.ctr pwrPage i j = s.ctr pwrPage i j) → k.Gives w Q) :
    (freeNat >>= fun n => cyc (1 + n) >>= fun _ => k).Gives u Q := by
  refine gives_bind ((gives_freeNat_checked.and gives_freeNat_dev).monoInv hu.inv fun n v hvi ⟨hv, hvd⟩ => ?_)
  refine gives_bind ((gives_cyc hvi).monoInv hvi fun _ w hwi hw => hk w hwi ((hu.worked.checked hv).ticked hw) ?_ ?_)
  · rw [Dev.SameUnits, hw.dev, hvd]
    exact hu.dev
  · intro i j
    rw [State.ctr, hw.dev, hvd]
    exact hu.powerCtr i j

theorem waitDoze_completes {o : WaitOps} (hr : o.res = 0) (h : s.Ready) (hm : s.sysMode = true) (hs : s.core.slot = none)
    (ht : s.topLine = none) :
    Completes (.waitDoze o) s fun t =>
      t.core.run = .doze ∧ t.core.pc = s.core.pc + 4 ∧ (∀ k, t.g k = s.g k) ∧ t.core.st = s.core.st ∧ t.dev.pwr.state = .doze := by
  refine completes_insn h rfl (by simp [hr]) (.inr hs) fun u hu => gives_sysOnly_begun hu hm (gives_waited hu fun w hwi hw hd _ => ?_)
  refine gives_bind (gives_getS ?_)
  have hacc : (w.wouldAccept true).isNone = true := by rw [State.wouldAccept, (hw.lines hd).2, ht]; rfl
  rw [if_pos hacc]
  refine gives_bind (gives_act (gives_bind (gives_act (gives_bind (gives_setFld (gives_pure ?_))))))
  obtain ⟨x, y, hc⟩ := hw.core
  have hcore : (Prim.run (.core fun c => { c with run := .doze }) w).core =
      { s.core with insn := true, cycle := x, g := y, run := .doze } := by
    rw [Prim.run_core_core, hc]
    exact Core.norm_of_legal (c := { s.core with insn := true, cycle := x, g := y, run := .doze }) h.inv.core
  refine ⟨?_, ?_, fun v _ hvc _ hvd => ?_⟩
  · rw [State.en, State.bit_put_other _ (by decide)]
    exact hw.noSample h
  · rw [State.put_core, Prim.run_dev_core, hcore]
  · rw [State.put_core, Prim.run_dev_core, hcore] at hvc
    refine ⟨by rw [latchEdges_core, hvc, Core.retired_run], by rw [latchEdges_core, hvc, Core.retired_pc], fun k => ?_,
      by rw [latchEdges_core, hvc, Core.retired_st], ?_⟩
    · rw [latchEdges_g, State.g, hvc]
      simp only [Core.retired, hs]
      rw [← hw.regs k, State.g, hc]
    · rw [latchEdges_dev, hvd]
      rfl

theorem dozeEnd_completes (hs : s.Inv) (hr : s.core.run = .doze) (ha : (s.wouldAccept true).isSome = true) :
    Completes .dozeEnd s fun t => t.core = { s.core with run := .run } ∧ t.dev.pwr.state = .run ∧ s.Within coreFoot t := by
  refine completes_cmd rfl ?_
  rw [if_pos ⟨hr, ha⟩]
  refine gives_bind (gives_act (gives_act ⟨?_, ?_, ((s.within_coreFoot _).trans (State.within_live _ rfl)).latch⟩))
  · rw [latchEdges_core, Prim.run_dev_core, Prim.run_core_core]
    exact Core.norm_of_legal (c := { s.core with run := .run }) hs.core
  · rw [latchEdges_dev]
    rfl

/-! ### WAIT 1 (R246, R371–R373) -/

theorem total_padsLatch : padsLatch.Total := by
  refine total_bind total_getS fun s => ?_
  split
  · exact total_bind (total_pure _) fun _ => total_setFld _ _
  · exact total_bind (total_act _) fun _ => total_setFld _ _

theorem total_abandon (k : Nat) : (abandon k).Total :=
  total_bind (total_setFld _ _) fun _ => total_bind (total_setFld _ _) fun _ => total_bind (total_count _ _ _) fun _ =>
    total_bind (total_act _) fun _ => total_act _

/-- The footprint of an entry that is begun or abandoned: the core, and PWR_STAT. -/
def entryFoot : Foot := { coreFoot with regs := fun a => coreFoot.regs a || decide (a = PWR_STAT) }

/-- What an abandoned entry leaves (R373). -/
theorem abandon_run (k : Nat) (w : State) (hk : k < 4) (hc : w.core.Legal) :
    ((abandon k).run w).core = { w.core with run := .run } ∧ ((abandon k).run w).dev.pwr.entry = .none ∧
      ((abandon k).run w).bit PWR_STAT_ABANDON = true ∧ ((abandon k).run w).fld PWR_STAT_ABPT = k ∧
      ((abandon k).run w).fld PWR_STAT_RESULT = w.fld PWR_STAT_RESULT ∧
      ((abandon k).run w).ctr pwrPage 2 2 = min 0xFFFFFFFF (w.ctr pwrPage 2 2 + 1) ∧ w.Within entryFoot ((abandon k).run w) := by
  have hA : PWR_STAT_ABANDON.Full := ⟨by decide, by decide, by decide⟩
  have hP : PWR_STAT_ABPT.Full := ⟨by decide, by decide, by decide⟩
  have hR : PWR_STAT_RESULT.Full := ⟨by decide, by decide, by decide⟩
  have hne : k % 2 ^ (PWR_STAT_ABPT.hi - PWR_STAT_ABPT.lo + 1) = k := Nat.mod_eq_of_lt hk
  simp only [abandon, modPwr, run_setFld_bind, run_count_bind, run_modDev_bind, run_modCore]
  refine ⟨?_, rfl, ?_, ?_, ?_, ?_, ?_⟩
  · rw [State.recore_core, State.live_core, State.counted_core, State.put_core, State.put_core]
    exact Core.norm_of_legal (c := { w.core with run := .run }) hc
  · simp (disch := decide) [State.bit_put_apart hP hA, State.bit_put_same hA]
  · simp only [State.recore_fld, State.live_fld, State.counted_fld, State.fld_put_same hP, hne]
  · simp (disch := decide) [State.fld_put_apart hP hR, State.fld_put_apart hA hR]
  · rw [State.recore_ctr, State.ctr_live rfl, State.ctr_counted_same, State.ctr_put, State.ctr_put]
  · rw [State.within_recore_iff rfl, State.within_live_iff rfl, State.within_counted_iff, State.within_put_iff (by decide),
      State.within_put_iff (by decide)]
    exact w.within_refl _

/-- A DALI frame that is not on the bus, and a pulse that does not run, have no end. -/
theorem run_daliRelease_idle {w : State} {f : Unit → M Unit} (h : w.dev.dali.phase = .idle) :
    (daliRelease >>= f).run w = (f ()).run w := by
  have hg : daliRelease.Gives w fun _ t => t = w := by
    refine gives_bind (gives_getS ?_)
    rw [if_neg (not_not.mpr h)]
    exact gives_pure rfl
  rw [hg.run_bind, hg.run (P := fun t => t = w)]

theorem run_endPulse_none {w : State} {b : Bool} {f : Unit → M Unit} (h : w.dev.gov.pulse = none) :
    (endPulse b >>= f).run w = (f ()).run w := by
  have hg : (endPulse b).Gives w fun _ t => t = w := by
    refine gives_bind (gives_getS ?_)
    rw [if_neg (by simp [h])]
    exact gives_pure rfl
  rw [hg.run_bind, hg.run (P := fun t => t = w)]

/-- The state in which the wake sources are sampled: the entry's aim is noted (R372). -/
def State.entering (w : State) : State :=
  (w.put PWR_STAT_RESULT stOk).live fun d => { d with pwr := { d.pwr with
    toEasy := w.bit PWR_SLEEPCFG_TARGET, wake := 0, latched := w.bit PWR_SLEEPCFG_TARGET && w.dev.pads.isNone } }

theorem lowPower_run_refused {w : State} (a b : Nat) (h : w.entryRefused (w.bit PWR_SLEEPCFG_TARGET) = true) :
    (lowPower a b).run w = (count pwrPage 2 3).run ((setFlt pwrPage fltState).run (w.put PWR_STAT_RESULT 1)) := by
  simp only [lowPower, run_getS, h, if_true, run_setFld_bind, run_setFlt_bind]

theorem lowPower_run {w : State} (a b : Nat) (h : w.entryRefused (w.bit PWR_SLEEPCFG_TARGET) = false)
    (hd : w.dev.dali.phase = .idle) (hp : w.dev.gov.pulse = none) :
    (lowPower a b).run w =
      if w.entering.wakeNow a ≠ 0 then (abandon 1).run w.entering
      else if w.entering.wakeNow b ≠ 0 then (abandon 2).run w.entering
      else (((if w.bit PWR_SLEEPCFG_TARGET then padsLatch.run w.entering else w.entering).live
        fun d => { d with pwr := { d.pwr with entry := .stopped } }).recore fun c => { c with run := .lowPower }) := by
  simp only [lowPower, run_getS, h, Bool.false_eq_true, if_false, run_setFld_bind, modPwr, run_modDev_bind]
  rw [run_daliRelease_idle (by exact hd), run_endPulse_none (by exact hp)]
  simp only [run_getS, run_ite, total_padsLatch.run_bind, run_modDev_bind, run_modCore, State.entering]
  by_cases hb : w.bit PWR_SLEEPCFG_TARGET = true
  · simp only [if_pos hb]
  · simp only [if_neg hb]

theorem State.fld_lt {f : Fld} {n : Nat} (h : f.hi - f.lo + 1 = n) : s.fld f < 2 ^ n := by
  rw [State.fld, bitsGet, h]
  exact Nat.mod_lt _ (Nat.two_pow_pos n)

theorem State.Worked.sleepcfg {w : State} (h : s.Worked w s.g) {a : Nat} (ha : a ∉ perfRegs intcPage) : w.reg a = s.reg a :=
  h.rest.regs a (coreFoot_regs ha)

/-- The LINK wake source looks at a few registers alone (R376). -/
theorem State.linkWake_congr {l : List Nat} (hr : ∀ a ∉ l, t.reg a = s.reg a) (hl : ∀ a ∈ l, a ∈ PWR_STAT :: perfRegs intcPage)
    (hi : t.dev.intc = s.dev.intc) : t.linkWake = s.linkWake := by
  have hreg (a : Nat) (ha : a ∉ PWR_STAT :: perfRegs intcPage) : t.reg a = s.reg a := hr a fun hm => ha (hl a hm)
  have hintc (k : Nat) : INTC_EN k ∉ l ∧ INTC_MODE k ∉ l := by
    have h1 := (intcRegs_not_perf k).1
    have h2 := (intcRegs_not_perf k).2
    refine ⟨fun hm => ?_, fun hm => ?_⟩
    · rcases List.mem_cons.mp (hl _ hm) with h | h
      · rw [INTC_EN, PWR_STAT] at h; omega
      · exact h1 h
    · rcases List.mem_cons.mp (hl _ hm) with h | h
      · rw [INTC_MODE, PWR_STAT] at h; omega
      · exact h2 h
  have hp (n : Nat) (hlev : t.level n = s.level n) : t.linePending n = s.linePending n := State.linePending_congr hr hintc hi hlev
  simp only [State.linkWake, List.any_cons, List.any_nil, Bool.or_false]
  rw [hp 36 ?_, hp 35 ?_, hp 41 ?_, hp 42 ?_, hp 55 ?_, hp 59 ?_]
  all_goals simp (disch := decide) only [State.level, State.fault, State.fld, State.bit, hreg]

/-- Which wake sources an entry that has begun finds at an abort point (R373, R376). -/
theorem wakeNow_entering {w : State} (h : s.Worked w s.g) (hd : s.dev.SameUnits w.dev) (a : Nat) :
    w.entering.wakeNow a = (a ||| if s.linkWake then 2 else 0) &&&
      (s.fld PWR_WAKEEN_EN &&& if s.bit PWR_SLEEPCFG_TARGET then 0x3FFD else 0x3FFF) := by
  have hregs : ∀ a ∉ PWR_STAT :: perfRegs intcPage, w.entering.reg a = s.reg a := fun a ha => by
    rw [List.mem_cons, not_or] at ha
    rw [State.entering, State.live_reg, State.reg_put_other _ ha.1, h.sleepcfg ha.2]
  have hlink : w.entering.linkWake = s.linkWake := State.linkWake_congr hregs (fun _ => id) (by
    rw [State.entering, State.live_dev, State.put_dev, hd])
  have hen : w.entering.fld PWR_WAKEEN_EN = s.fld PWR_WAKEEN_EN := by rw [State.fld, hregs _ (by decide), State.fld]
  have heasy : w.entering.dev.pwr.toEasy = s.bit PWR_SLEEPCFG_TARGET := by
    rw [State.entering, State.live_dev]
    show w.bit PWR_SLEEPCFG_TARGET = _
    rw [State.bit, State.fld, h.sleepcfg (by decide), State.bit, State.fld]
  have hwake : w.entering.dev.pwr.wake = 0 := rfl
  have hlt : s.fld PWR_WAKEEN_EN < 2 ^ 14 := State.fld_lt (by decide)
  rw [State.wakeNow, hlink, hen, heasy, hwake, Nat.or_zero]
  cases s.bit PWR_SLEEPCFG_TARGET
  · have hmask : s.fld PWR_WAKEEN_EN &&& 0x3FFF = s.fld PWR_WAKEEN_EN := Nat.and_two_pow_sub_one_of_lt_two_pow hlt
    simp only [Bool.false_eq_true, if_false, hmask]
  · simp only [if_true]
    rw [Nat.and_assoc, Nat.and_comm 0x3FFD]

/-- An act that has an outcome in a state has the one it runs to. -/
theorem M.Gives.to_run {m : M Unit} {w : State} {Q : Unit → State → Prop} (h : m.Gives w Q) : m.Gives w fun _ t => t = m.run w := by
  obtain ⟨a, t, _, hi, hk⟩ := h
  exact ⟨a, t, (show m.run w = t from hk _).symm, hi, hk⟩

theorem gives_lowPower {w : State} (a b : Nat) (hd : w.dev.dali.phase = .idle) (hp : w.dev.gov.pulse = none) :
    (lowPower a b).Gives w fun _ t => t = (lowPower a b).run w := by
  refine M.Gives.to_run (Q := fun _ _ => True) (gives_bind (gives_getS ?_))
  by_cases h : w.entryRefused (w.bit PWR_SLEEPCFG_TARGET) = true
  · simp only [h, if_true]
    exact (total_bind (total_setFld _ _) fun _ => total_bind (total_setFlt _ _) fun _ => total_count _ _ _).all _
  · simp only [h, Bool.false_eq_true, if_false]
    refine gives_bind (gives_setFld (gives_bind (gives_act (gives_bind (gives_bind (gives_getS ?_))))))
    rw [if_neg (by exact not_not.mpr hd)]
    refine gives_pure (gives_bind (gives_bind (gives_getS ?_)))
    rw [if_neg (by exact Bool.eq_false_iff.mp (Option.isSome_eq_false_iff.mpr (Option.isNone_iff_eq_none.mpr hp)))]
    refine gives_pure ((total_bind total_getS fun s => total_ite (total_abandon _) (total_ite (total_abandon _) ?_)).all _)
    have hstop : M.Total (modPwr (fun p => { p with entry := .stopped }) >>= fun _ => modCore fun c => { c with run := .lowPower }) :=
      total_bind (total_act _) fun _ => total_act _
    exact total_ite (total_bind total_padsLatch fun _ => hstop) hstop

/-- The core after WAIT: at the next instruction, its registers as before. -/
def State.Waited (s t : State) : Prop := t.core.pc = s.core.pc + 4 ∧ (∀ k, t.g k = s.g k) ∧ t.core.st = s.core.st

/-- WAIT 1, where its body leaves the core as it was but for its clock. -/
theorem lowPower_completes {o : WaitOps} {a1 a2 : BitVec 14} {P : State → Prop} (hr : o.res = 0) (h : s.Ready) (hm : s.sysMode = true)
    (hs : s.core.slot = none) (hd : s.dev.dali.phase = .idle) (hp : s.dev.gov.pulse = none)
    (hb : ∀ w, w.Inv → s.Worked w s.g → s.dev.SameUnits w.dev → (∀ i j, w.ctr pwrPage i j = s.ctr pwrPage i j) →
      ∀ t, t = (lowPower a1.toNat a2.toNat).run w → t.en tallyPage = false ∧ ∃ r, t.core = { w.core with run := r } ∧
        ∀ x : State, x.core.run = r → s.Waited x → t.Within coreFoot x →
          x.dev = { t.dev with intc := { t.dev.intc with edge := x.dev.intc.edge } } → P x) :
    Completes (.waitLowPower o a1 a2) s P := by
  refine completes_insn h rfl (by simp [hr]) (.inr hs) fun u hu => gives_sysOnly_begun hu hm (gives_waited hu fun w hwi hw hdv hcw => ?_)
  refine gives_bind ((gives_lowPower _ _ (by rw [hdv]; exact hd) (by rw [hdv]; exact hp)).mono ?_)
  rintro _ t ht
  obtain ⟨hen, r, hcore, hP⟩ := hb w hwi hw hdv hcw t ht
  obtain ⟨x, y, hc⟩ := hw.core
  rw [hc] at hcore
  refine gives_pure ⟨hen, by rw [hcore], fun v _ hvc hvw hvd => hP _ ?_ ⟨?_, fun k => ?_, ?_⟩ hvw.latch ?_⟩
  · rw [latchEdges_core, hvc, Core.retired_run, hcore]
  · rw [latchEdges_core, hvc, Core.retired_pc]
  · rw [latchEdges_g, State.g, hvc, hcore]
    simp only [Core.retired, hs]
    rw [← hw.regs k, State.g, hc]
  · rw [latchEdges_core, hvc, Core.retired_st, hcore]
  · rw [latchEdges_dev, hvd]

/-- The core's footprint with some registers. -/
theorem State.Within.coreAnd (h : s.Within coreFoot t) (l : List Nat) :
    s.Within { coreFoot with regs := fun a => coreFoot.regs a || decide (a ∈ l) } t :=
  { h with regs := fun a ha => h.regs a (by simp only [Bool.or_eq_false_iff] at ha; exact ha.1) }

/-- What refuses an entry is read off a few registers (R371). -/
theorem State.entryRefused_congr {w : State} (h : s.Worked w s.g) (e : Bool) : w.entryRefused e = s.entryRefused e := by
  have hr {a : Nat} (ha : a ∉ perfRegs intcPage) : w.reg a = s.reg a := h.sleepcfg ha
  simp (disch := decide) only [State.entryRefused, State.fld, State.bit, hr]

theorem State.Worked.target {w : State} (h : s.Worked w s.g) : w.bit PWR_SLEEPCFG_TARGET = s.bit PWR_SLEEPCFG_TARGET := by
  rw [State.bit, State.fld, h.sleepcfg (by decide), State.bit, State.fld]

theorem State.Worked.run_eq {w : State} {g : Nat → Word} (h : s.Worked w g) : w.core.run = s.core.run := by
  obtain ⟨x, y, hc⟩ := h.core
  rw [hc]

/-- The state in which the wake sources are sampled, beside the one before the instruction. -/
theorem State.entering_within {w : State} (h : s.Worked w s.g) : s.Within entryFoot w.entering := by
  rw [State.entering, State.within_live_iff rfl, State.within_put_iff (by decide)]
  have hw : s.Within coreFoot w := h.within (m := fun _ => false) fun _ _ => rfl
  exact { hw with regs := fun a ha => hw.regs a (by simp only [entryFoot, Bool.or_eq_false_iff] at ha; exact ha.1) }

/-- The bits set where something holds, over the numbers below `k`. -/
theorem foldl_bitSet_testBit (p : Nat → Bool) (k i : Nat) :
    ((List.range k).foldl (fun a n => if p n then bitSet a n else a) 0).testBit i = (decide (i < k) && p i) := by
  induction k with
  | zero => simp
  | succ k ih =>
    rw [List.range_succ, List.foldl_append, List.foldl_cons, List.foldl_nil]
    split
    case isTrue h =>
      rw [bitSet_testBit, ih]
      by_cases hi : i = k
      · subst hi; simp [h]
      · simp [hi, show i < k + 1 ↔ i < k by omega]
    case isFalse h =>
      rw [ih]
      by_cases hi : i = k
      · subst hi; simp [h]
      · simp [show i < k + 1 ↔ i < k by omega]

/-- What the device drives on a ball looks at the ball's registers, a timer's and the Rigger's levels alone. -/
theorem State.gpDrive_congr {w : State} {n : Nat} (hg : w.reg (GPIO_PIN n) = s.reg (GPIO_PIN n))
    (ho : w.reg (GPIO_OUT (n / 32)) = s.reg (GPIO_OUT (n / 32))) (hc : ∀ k < 8, w.reg (STIM_CHCFG k) = s.reg (STIM_CHCFG k))
    (hst : w.dev.st = s.dev.st) (hri : w.dev.rigger = s.dev.rigger) : w.gpDrive n = s.gpDrive n := by
  have hsel : s.fld (GPIO_PIN_TSEL n) < 2 ^ 5 := State.fld_lt (f := GPIO_PIN_TSEL n) rfl
  have htim : w.stOut (s.fld (GPIO_PIN_TSEL n)) = s.stOut (s.fld (GPIO_PIN_TSEL n)) := by
    simp only [State.stOut, hc _ (show s.fld (GPIO_PIN_TSEL n) / 4 < 8 by omega), hst]
  have htsel : w.fld (GPIO_PIN_TSEL n) = s.fld (GPIO_PIN_TSEL n) := by rw [State.fld, hg, State.fld]
  simp only [State.gpDrive, htsel, htim, hri]
  simp only [State.fld, State.bit, hg, ho]
  rfl

/-- The levels that `padsLatch` holds. -/
def State.latchedOut (w : State) : Nat := (List.range 36).foldl (fun a n => if w.gpDrive n == some true then bitSet a n else a) 0
def State.latchedDir (w : State) : Nat := (List.range 36).foldl (fun a n => if (w.gpDrive n).isSome then bitSet a n else a) 0

theorem padsLatch_run (w : State) :
    padsLatch.run w = (if w.dev.pads.isSome then w else w.live fun d =>
      { d with pads := some { out := w.latchedOut, dir := w.latchedDir, dim := w.dimPwm, dali := w.daliTx } }).put PWR_STAT_PADHOLD 1 := by
  simp only [padsLatch, run_getS]
  cases h : w.dev.pads with
  | some p => simp
  | none => simp [State.latchedOut, State.latchedDir]

/-- A latched pad drives what the ball drove (R377). -/
theorem State.latched_level (w : State) {n : Nat} (hn : n < 36) :
    (if bitOf w.latchedDir n then some (bitOf w.latchedOut n) else none) = w.gpDrive n := by
  have ho : bitOf w.latchedOut n = (w.gpDrive n == some true) := by
    rw [bitOf, State.latchedOut, foldl_bitSet_testBit, decide_eq_true hn, Bool.true_and]
  have hd : bitOf w.latchedDir n = (w.gpDrive n).isSome := by
    rw [bitOf, State.latchedDir, foldl_bitSet_testBit, decide_eq_true hn, Bool.true_and]
  rw [ho, hd]
  rcases w.gpDrive n with _ | _ | _ <;> rfl

/-- Of all else the latching leaves all as it is. -/
theorem padsLatch_keeps (w : State) : (padsLatch.run w).core = w.core ∧ (padsLatch.run w).dev.pwr = w.dev.pwr ∧
    (padsLatch.run w).padsIdle = w.padsIdle ∧ (padsLatch.run w).fld PWR_STAT_RESULT = w.fld PWR_STAT_RESULT ∧
    (padsLatch.run w).bit PWR_STAT_PADHOLD = true ∧ w.Within entryFoot (padsLatch.run w) := by
  have hP : PWR_STAT_PADHOLD.Full := ⟨by decide, by decide, by decide⟩
  have hR : PWR_STAT_RESULT.Full := ⟨by decide, by decide, by decide⟩
  rw [padsLatch_run]
  refine ⟨?_, ?_, ?_, ?_, ?_, ?_⟩
  · rw [State.put_core]; split <;> rfl
  · rw [State.put_dev]; split <;> rfl
  · rw [State.padsIdle, State.put_dev]; split <;> rfl
  · rw [State.fld_put_apart hP hR _ (by decide)]; split <;> rfl
  · rw [State.bit_put_same hP]; rfl
  · rw [State.within_put_iff (by decide)]
    split
    · exact w.within_refl _
    · exact State.within_live _ rfl

/-- A ball whose pad is held. -/
theorem State.gpOut_held {p : Pads} (hp : t.dev.pads = some p) (hs : t.padsIdle = s.padsIdle) (n : Nat) :
    t.gpOut n = if s.padsIdle then none else if bitOf p.dir n then some (bitOf p.out n) else none := by
  rw [State.gpOut, hs, hp]

/-- The pads held on the way to EASY: those held before, or the levels driven. -/
theorem State.entering_held {w : State} (hw : s.Worked w s.g) (hd : s.dev.SameUnits w.dev) :
    ∃ p, (padsLatch.run w.entering).dev.pads = some p ∧
      ∀ n < 36, (if s.padsIdle then none else if bitOf p.dir n then some (bitOf p.out n) else none) = s.gpOut n := by
  have hpads : w.entering.dev.pads = s.dev.pads := by
    show w.dev.pads = _
    rw [hd]
  have hreg {a : Nat} (ha : a ∉ perfRegs intcPage) (hb : a ≠ PWR_STAT) : w.entering.reg a = s.reg a := by
    rw [State.entering, State.live_reg, State.reg_put_other _ hb, hw.sleepcfg ha]
  have hdrive (n : Nat) (hn : n < 36) : w.entering.gpDrive n = s.gpDrive n := by
    refine State.gpDrive_congr (hreg ?_ ?_) (hreg ?_ ?_) (fun k hk => hreg ?_ ?_) (show w.dev.st = _ by rw [hd])
      (show w.dev.rigger = _ by rw [hd])
    all_goals
      simp only [perfRegs, List.mem_cons, List.not_mem_nil, or_false, PERF_CNT, intcPage, GPIO_PIN, GPIO_OUT, STIM_CHCFG, PWR_STAT]
      omega
  rw [padsLatch_run, State.put_dev, hpads]
  cases hs : s.dev.pads with
  | some p =>
    refine ⟨p, by rw [if_pos (by rfl), hpads, hs], fun n _ => ?_⟩
    rw [State.gpOut, hs]
  | none =>
    refine ⟨_, by rw [if_neg (by simp), State.live_dev], fun n hn => ?_⟩
    rw [State.latched_level _ hn, hdrive n hn, State.gpOut, hs]

section
variable {o : WaitOps} {a1 a2 : BitVec 14} (hr : o.res = 0) (h : s.Ready) (hm : s.sysMode = true)
    (hs : s.core.slot = none) (hd : s.dev.dali.phase = .idle) (hp : s.dev.gov.pulse = none)
include hr h hm hs hd hp

theorem waitLowPower_refused (he : s.entryRefused (s.bit PWR_SLEEPCFG_TARGET) = true) :
    Completes (.waitLowPower o a1 a2) s fun t =>
      s.Waited t ∧ t.core.run = s.core.run ∧ t.dev.pwr = s.dev.pwr ∧ t.fld PWR_STAT_RESULT = 1 ∧ t.bit (fltBit pwrPage fltState) = true ∧
        t.ctr pwrPage 2 3 = min 0xFFFFFFFF (s.ctr pwrPage 2 3 + 1) ∧
        s.Within { coreFoot with regs := fun a => coreFoot.regs a || decide (a ∈ PWR_STAT :: evRegs pwrPage) } t := by
  have hR : PWR_STAT_RESULT.Full := ⟨by decide, by decide, by decide⟩
  refine lowPower_completes hr h hm hs hd hp fun w hwi hw hdv hcw t ht => ?_
  rw [lowPower_run_refused _ _ (by rw [hw.target, State.entryRefused_congr hw]; exact he)] at ht
  have hcore : t.core = w.core := by rw [ht, run_count, State.counted_core, setFlt_core, State.put_core]
  have hwin : s.Within { coreFoot with regs := fun a => coreFoot.regs a || decide (a ∈ PWR_STAT :: evRegs pwrPage) } t := by
    rw [ht, run_count, State.within_counted_iff, State.within_setFlt_iff (by decide), State.within_put_iff (by decide)]
    exact (hw.within (m := fun _ => false) fun _ _ => rfl : s.Within coreFoot w).coreAnd _
  have hres : t.fld PWR_STAT_RESULT = 1 := by
    rw [ht, run_count, State.counted_fld, setFlt_fld (by decide), State.fld_put_same hR]; rfl
  have hflt : t.bit (fltBit pwrPage fltState) = true := by
    rw [ht, run_count, State.counted_bit, setFlt_bit_set ⟨by decide, by decide, by decide⟩]
  have hctr : t.ctr pwrPage 2 3 = min 0xFFFFFFFF (s.ctr pwrPage 2 3 + 1) := by
    rw [ht, run_count, State.ctr_counted_same, State.ctr_setFlt, State.ctr_put, hcw]
  have hpwr : t.dev.pwr = s.dev.pwr := by rw [ht, run_count, State.counted_dev, setFlt_dev, State.put_dev, hdv]
  refine ⟨hwin.noSample (by decide) h.noSample, s.core.run, by rw [hcore, ← hw.run_eq], fun x hxr hxw hx hxd => ?_⟩
  refine ⟨hxw, hxr, ?_, ?_, ?_, ?_, hwin.trans (hx.coreAnd _)⟩
  · rw [hxd]; exact hpwr
  · rw [State.fld, hx.regs _ (by decide)]; exact hres
  · rw [State.bit, State.fld, hx.regs _ (by decide)]; exact hflt
  · rw [State.ctr, hxd]; exact hctr

/-- An entry that is abandoned at one of its first two points. -/
theorem waitLowPower_left {k : Nat} (hk : k < 4)
    (hrun : ∀ w, s.Worked w s.g → s.dev.SameUnits w.dev → (lowPower a1.toNat a2.toNat).run w = (abandon k).run w.entering) :
    Completes (.waitLowPower o a1 a2) s fun t =>
      s.Waited t ∧ t.core.run = .run ∧ t.dev.pwr.entry = .none ∧
        t.bit PWR_STAT_ABANDON = true ∧ t.fld PWR_STAT_ABPT = k ∧ t.fld PWR_STAT_RESULT = 0 ∧
        t.ctr pwrPage 2 2 = min 0xFFFFFFFF (s.ctr pwrPage 2 2 + 1) ∧
        s.Within { coreFoot with regs := fun a => coreFoot.regs a || decide (a ∈ [PWR_STAT, GOV_STAT, LUM_STAT]) } t := by
  have hR : PWR_STAT_RESULT.Full := ⟨by decide, by decide, by decide⟩
  refine lowPower_completes hr h hm hs hd hp fun w hwi hw hdv hcw t ht => ?_
  rw [hrun w hw hdv] at ht
  obtain ⟨hcore, hentry, hab, hpt, hres, hctr, hwin⟩ := abandon_run k w.entering hk hwi.core
  rw [← ht] at hcore hentry hab hpt hres hctr hwin
  have hall := (State.entering_within hw).trans hwin
  refine ⟨hall.noSample (by decide) h.noSample, .run, hcore, fun x hxr hxw hx hxd => ⟨hxw, hxr, ?_, ?_, ?_, ?_, ?_, ?_⟩⟩
  · rw [hxd]; exact hentry
  · rw [State.bit, State.fld, hx.regs _ (by decide)]; exact hab
  · rw [State.fld, hx.regs _ (by decide)]; exact hpt
  · rw [State.fld, hx.regs _ (by decide), ← State.fld, hres, State.entering, State.live_fld, State.fld_put_same hR]; rfl
  · rw [State.ctr, hxd]
    show t.ctr pwrPage 2 2 = _
    rw [hctr, State.entering, State.ctr_live rfl, State.ctr_put, hcw]
  · refine State.Within.trans (t := t) { hall with regs := fun a ha => hall.regs a ?_ } (hx.coreAnd _)
    simp only [entryFoot, Bool.or_eq_false_iff, decide_eq_false_iff_not, List.mem_cons, not_or] at ha ⊢
    exact ⟨ha.1, ha.2.1⟩

/-- An entry that no wake source abandons stops the core, and on the way to EASY holds the pads. -/
theorem waitLowPower_stopped 
    (hrun : ∀ w, s.Worked w s.g → s.dev.SameUnits w.dev → (lowPower a1.toNat a2.toNat).run w =
      (((if w.bit PWR_SLEEPCFG_TARGET then padsLatch.run w.entering else w.entering).live
        fun d => { d with pwr := { d.pwr with entry := .stopped } }).recore fun c => { c with run := .lowPower })) :
    Completes (.waitLowPower o a1 a2) s fun t =>
      s.Waited t ∧ t.core.run = .lowPower ∧ t.dev.pwr.entry = .stopped ∧ t.dev.pwr.toEasy = s.bit PWR_SLEEPCFG_TARGET ∧
        t.fld PWR_STAT_RESULT = 0 ∧
        (s.bit PWR_SLEEPCFG_TARGET = true → t.bit PWR_STAT_PADHOLD = true ∧ t.dev.pads.isSome = true ∧
          ∀ n < 36, t.gpOut n = s.gpOut n) ∧
        s.Within { coreFoot with regs := fun a => coreFoot.regs a || decide (a ∈ [PWR_STAT, GOV_STAT, LUM_STAT]) } t := by
  have hR : PWR_STAT_RESULT.Full := ⟨by decide, by decide, by decide⟩
  refine lowPower_completes hr h hm hs hd hp fun w hwi hw hdv hcw t ht => ?_
  rw [hrun w hw hdv] at ht
  obtain ⟨hcl, hpl, hil, hrl, hbl, hwl⟩ := padsLatch_keeps w.entering
  let v : State := if w.bit PWR_SLEEPCFG_TARGET then padsLatch.run w.entering else w.entering
  have hcv : v.core = w.core := by dsimp only [v]; split; exacts [hcl, rfl]
  have heasy : v.dev.pwr.toEasy = s.bit PWR_SLEEPCFG_TARGET := by
    rw [← hw.target]; dsimp only [v]; split
    · exact congrArg _ hpl
    · rfl
  have hres : v.fld PWR_STAT_RESULT = 0 := by
    refine Eq.trans (b := w.entering.fld PWR_STAT_RESULT) (by dsimp only [v]; split; exacts [hrl, rfl]) ?_
    rw [State.entering, State.live_fld, State.fld_put_same hR]
    rfl
  have hwv : s.Within entryFoot v := (State.entering_within hw).trans (by dsimp only [v]; split; exacts [hwl, State.within_refl _ _])
  have hcore : t.core = { w.core with run := .lowPower } := by
    rw [ht, State.recore_core, State.live_core, hcv]
    exact Core.norm_of_legal (c := { w.core with run := .lowPower }) hwi.core
  have hwt : s.Within entryFoot t := by
    rw [ht, State.within_recore_iff rfl, State.within_live_iff rfl]; exact hwv
  refine ⟨hwt.noSample (by decide) h.noSample, .lowPower, hcore, fun x hxr hxw hx hxd => ⟨hxw, hxr, ?_, ?_, ?_, ?_, ?_⟩⟩
  · rw [hxd, ht]; rfl
  · rw [hxd, ht]; exact heasy
  · rw [State.fld, hx.regs _ (by decide), ← State.fld, ht, State.recore_fld, State.live_fld]; exact hres
  · intro he
    have hv : v = padsLatch.run w.entering := if_pos (by rw [hw.target]; exact he)
    obtain ⟨p, hpads, hlev⟩ := State.entering_held hw hdv
    have hxp : x.dev.pads = some p := by rw [hxd, ht]; exact (congrArg (·.dev.pads) hv).trans hpads
    have hxi : x.padsIdle = s.padsIdle := by
      rw [State.padsIdle, hxd, ht]
      refine (congrArg State.padsIdle hv).trans (hil.trans ?_)
      show w.padsIdle = _
      rw [State.padsIdle, hdv, State.padsIdle]
    refine ⟨?_, by rw [hxp]; rfl, fun n hn => (State.gpOut_held hxp hxi n).trans (hlev n hn)⟩
    rw [State.bit, State.fld, hx.regs _ (by decide), ← State.fld, ← State.bit, ht, State.recore_bit, State.live_bit]
    exact (congrArg (·.bit PWR_STAT_PADHOLD) hv).trans hbl
  · refine State.Within.trans (t := t) { hwt with regs := fun a ha => hwt.regs a ?_ } (hx.coreAnd _)
    simp only [entryFoot, Bool.or_eq_false_iff, decide_eq_false_iff_not, List.mem_cons, not_or] at ha ⊢
    exact ⟨ha.1, ha.2.1⟩

end

/-- Bits 6 and 7 of ST put, and the bits ST does not have cleared. -/
theorem stMask_ei {st : Word} (h : st &&& stMask = st) {i : Nat} (hi : i < 32) :
    (bitsPut (bitsPut st 7 7 1) 6 6 0 &&& stMask).toNat.testBit i =
      if i = 7 then true else if i = 6 then false else st.toNat.testBit i := by
  have hm : st.toNat.testBit i = (st.toNat.testBit i && stMask.toNat.testBit i) := by
    conv_lhs => rw [← h, BitVec.toNat_and, Nat.testBit_and]
  rw [BitVec.toNat_and, Nat.testBit_and, bitsPut_testBit _ 6 6 _ i (Nat.le_refl _) hi, bitsPut_testBit _ 7 7 _ i (Nat.le_refl _) hi]
  by_cases h7 : i = 7
  · subst h7
    rw [if_neg (by omega), if_pos (by omega), if_pos rfl]
    decide
  · by_cases h6 : i = 6
    · subst h6
      rw [if_pos (by omega), if_neg (by omega), if_pos rfl]
      decide
    · rw [if_neg (by omega), if_neg (by omega), if_neg h7, if_neg h6, ← hm]

/-- Settles O11: an instruction's body settles what is left once it has retired; WAIT 1's by what refuses the entry, or by the
first point that finds a wake source. -/
theorem specialFunctions : Obligations.SpecialFunctions := by
  refine ⟨fun o s h => ⟨fun hx hm => rdsp_completes h hx hm, fun hx hm hs => wrsp_completes h hx hm hs, fun hm => ⟨?_, ?_⟩⟩,
    fun s => ⟨fun o hr h hm hs ht => waitDoze_completes hr h hm hs ht, fun hi hr ha => dozeEnd_completes hi hr ha,
      fun o h => sync_completes h, fun o h hm => iinv_completes h hm, ?_⟩⟩
  · exact st_completes (f := fun st => bitsPut (bitsPut st 7 7 1) 6 6 0)
      (P := fun st => ∀ i < 32, st.toNat.testBit i = if i = 7 then true else if i = 6 then false else s.core.st.toNat.testBit i)
      h hm rfl fun i hi => stMask_ei h.inv.core.2.1 hi
  · exact st_completes (f := fun st => bitsPut st 7 7 0)
      (P := fun st => ∀ i < 32, st.toNat.testBit i = if i = 7 then false else s.core.st.toNat.testBit i)
      h hm rfl fun i hi => stMask_bitsPut h.inv.core.2.1 (by decide) (by decide) hi
  · intro o a1 a2 hr h hm hs hd hp
    have hrun (he : s.entryRefused (s.bit PWR_SLEEPCFG_TARGET) = false) (w : State) (hw : s.Worked w s.g)
        (hd' : s.dev.SameUnits w.dev) := lowPower_run (w := w) a1.toNat a2.toNat
      (by rw [hw.target, State.entryRefused_congr hw]; exact he) (by rw [hd']; exact hd) (by rw [hd']; exact hp)
    refine ⟨waitLowPower_refused hr h hm hs hd hp, ?_, ?_, ?_⟩
    · intro he h1
      refine waitLowPower_left hr h hm hs hd hp (by decide) fun w hw hd' => ?_
      rw [hrun he w hw hd', wakeNow_entering hw hd', if_pos h1]
    · intro he h1 h2
      refine waitLowPower_left hr h hm hs hd hp (by decide) fun w hw hd' => ?_
      rw [hrun he w hw hd', wakeNow_entering hw hd', wakeNow_entering hw hd', if_neg (not_not.mpr h1), if_pos h2]
    · intro he h1 h2
      refine waitLowPower_stopped hr h hm hs hd hp fun w hw hd' => ?_
      rw [hrun he w hw hd', wakeNow_entering hw hd', wakeNow_entering hw hd', if_neg (not_not.mpr h1), if_neg (not_not.mpr h2)]

end Sys2Proof.Machine
end

section
/-!
String instructions over main SRAM: the loop over the elements, with what each leaves of the registers, memory and flags
(R254, R255).
-/
namespace Sys2Proof.Machine
open Sys2Proof.Reg

variable {s t u p : State}

/-- The state with ST given a value: what an instruction that writes flags on its way works from. -/
def State.withSt (s : State) (st : Word) : State := { s with core := { s.core with st := st } }

theorem State.withSt_self (s : State) : s.withSt s.core.st = s := rfl

theorem State.Inv.withSt {st : Word} (h : s.Inv) (hst : st &&& stMask = st) : (s.withSt st).Inv :=
  let ⟨⟨h1, h2, h3, h4, h5, h6, h7⟩, hm, hc⟩ := h
  ⟨⟨h1, h2, h3, h4, h5, h6, h7⟩, hm, hc.1, hst, hc.2.2⟩

/-- With IE at 0 no line would be accepted. -/
theorem State.wouldAccept_masked {ie : Bool} (h : ie = false) : s.wouldAccept ie = none := by
  rw [State.wouldAccept, h]
  cases s.topLine <;> rfl

theorem State.Within.of_withSt {st : Word} {F : Foot} (h : (s.withSt st).Within F t) (hF : F.core = true) : s.Within F t :=
  ⟨h.regs, h.mem, fun x hx i => (h.tab x hx i).trans (by cases x <;> rfl), h.otp, h.bad, fun hc => absurd hF (by simp [hc]),
    h.keys, h.pending⟩

theorem State.withSt_sramAt {st : Word} {write : Bool} {a : Word} {n : Nat} (h : s.SramAt write a n)
    (hm : (s.withSt st).sysMode = s.sysMode) : (s.withSt st).SramAt write a n := by
  refine ⟨h.aligned, h.lo, h.hi, Eq.trans ?_ h.mpu, h.noBreak, h.clean⟩
  have hhas (i : Nat) : (s.withSt st).mpuHas i a.toNat = s.mpuHas i a.toNat := rfl
  have hbit (f : Fld) : (s.withSt st).bit f = s.bit f := rfl
  simp only [State.mpuOk, State.mpuSys, State.mpuTask, hm, hhas, hbit]

/-! ### An element's accesses -/

/-- The octets of an access, of memory as it stands. -/
def bytesIn (b : Nat → Byte) (a n : Nat) : List Byte := (List.range n).map fun i => b (a + i)

theorem State.Worked.bytes {g : Nat → Word} {b : Nat → Byte} (h : s.Worked t g b) (a n : Nat) : t.bytes a n = bytesIn b a n :=
  List.map_congr_left fun _ _ => h.mem _

theorem gives_accessCheck_sram {write : Bool} {z : Size} {a : Word} (h : t.SramAt write a (accLen z)) (hp : p.SramAt write a (accLen z)) :
    (accessCheck p write z a).Gives t fun c u => c = none ∧ u = t := by
  refine gives_bind ((gives_accessStop_sram h (accLen_pos z) hp).mono ?_)
  rintro _ _ ⟨rfl, rfl⟩
  refine gives_bind (gives_getS ?_)
  rw [if_neg (by simp [State.accessFails, h.rangeOf (accLen_pos z), h.clean])]
  exact gives_pure ⟨rfl, rfl⟩

theorem gives_elemCycles_sram {n : Nat} {l : List Word} (ht : t.Inv) (h : ∀ a ∈ l, 0x20000000 ≤ a.toNat ∧ a.toNat < 0x20080000) :
    (elemCycles n l).Gives t fun _ u => t.Ticked u := by
  have hr : ∀ a ∈ l, t.rangeOf a.toNat = some ⟨0x20000000, 0x20080000, .sram⟩ := fun a ha => t.rangeOf_sram (h a ha).1 (h a ha).2
  refine gives_bind (gives_getS (gives_bind ((gives_cyc ht).mono fun _ u hu => ?_)))
  rw [if_neg, if_neg]
  · exact gives_nop hu
  all_goals
    simp only [List.any_eq_true, not_exists, not_and]
    intro a ha
    rw [hr a ha]
    exact Bool.false_ne_true

theorem State.Worked.noted {g : Nat → Word} {b : Nat → Byte} (h : s.Worked t g b) (hn : State.Noted (perfRegs intcPage) t u) :
    s.Worked u g b :=
  ⟨by rw [hn.core]; exact h.core, fun k => by rw [← h.regs k, State.g, hn.core, State.g],
    fun x => (hn.within.mem x rfl).trans (h.mem x), h.rest.trans hn.coreFoot.memFoot, by rw [hn.dev]; exact h.eccBad⟩

/-! ### The loop -/

section
variable {G : Nat → Nat → Word} {B : Nat → Nat → Byte} {S : Nat → Word} {elem : M Elem} {done : M Unit} {Q : Done → State → Prop}

/-- The loop goes through the first `m` elements, each of which leaves what the next begins with, and then as it may. -/
theorem gives_strLoop {n m : Nat} (hs : s.Inv) (hS : ∀ k, S k &&& stMask = S k) (hie : ∀ k ≤ m, bitOf (S k).toNat 7 = false)
    (hG : ∀ k < m, G (k + 1) 3 = G k 3 - 1) (hmn : m ≤ n)
    (hmore : ∀ k < m, ∀ t : State, t.Inv → (s.withSt (S k)).Worked t (G k) (B k) →
      elem.Gives t fun e u => e = .more ∧ (s.withSt (S (k + 1))).Worked u (regWith (G (k + 1)) 3 (G k 3)) (B (k + 1)))
    (hend : ∀ t : State, t.Inv → (s.withSt (S m)).Worked t (G m) (B m) → (strLoop elem done (n - m)).Gives t Q) :
    ∀ j k, k + j = m → ∀ t : State, t.Inv → (s.withSt (S k)).Worked t (G k) (B k) → (strLoop elem done (n - k)).Gives t Q := by
  intro j
  induction j with
  | zero => rintro k rfl t hti ht; exact hend t hti ht
  | succ j ih =>
    intro k hk t hti ht
    rw [show n - k = n - (k + 1) + 1 by omega, strLoop]
    refine gives_bind ((hmore k (by omega) t hti ht).monoInv hti ?_)
    rintro _ u hui ⟨rfl, hu⟩
    refine gives_bind (gives_perf.monoInv hui fun _ v hvi hn => gives_bind (gives_getS (gives_bind ?_)))
    have hv := hu.noted hn.1
    obtain ⟨x, y, hc⟩ := hv.core
    refine hv.setG (hs.withSt (hS _)) hvi fun w hwi hw => ?_
    have h3 : v.g 3 = G k 3 := hv.regs 3
    have hacc : (v.wouldAccept (bitOf v.core.st.toNat 7)).isSome = false := by
      rw [State.wouldAccept_masked]
      · rfl
      · rw [hc]
        exact hie (k + 1) (by omega)
    have hgo : regWith (regWith (G (k + 1)) 3 (G k 3)) 3 (v.g 3 - 1) = G (k + 1) := by
      funext r
      by_cases hr : r = 3
      · subst hr; rw [regWith, if_pos rfl, h3, hG k (by omega)]
      · simp only [regWith, if_neg hr]
    rw [hgo] at hw
    rw [if_neg (by rw [hc]; simp), if_neg (by rw [hacc]; simp)]
    exact ih (k + 1) (by omega) w hwi hw
end

/-- The end of a string instruction that leaves ST at `st`. -/
theorem Done.settles_ended {st : Word} {g : Nat → Word} {b : Nat → Byte} {Q : State → Prop} (m : Nat → Bool)
    (h : (s.withSt st).Worked t g b) (hm : ∀ x, m x = false → b x = s.byte x)
    (hq : ∀ w : State, s.Executed w (s.core.pc + 4) g (memFoot m) → w.core.st = st → (∀ x, w.byte x = b x) → Q w) :
    Done.ended.Settles s t Q := by
  have hsettles : Done.next.Settles (s.withSt st) t Q :=
    Done.settles_of_worked m h hm (.inl ⟨rfl, rfl⟩) fun w he hst hb => hq w { he with rest := he.rest.of_withSt rfl } hst hb
  exact hsettles

/-- A string instruction that is not reserved completes as its loop settles. -/
theorem completes_str {c : Instr} {fn : Nat} {o : SpcOps} {crc : Bool} {elem : State → M Elem} {done : M Unit} {P : State → Prop}
    (h : s.Ready) (hs : s.core.slot = none) (hc : exec c s = cmd s (strInsn fn o crc elem done)) (hbad : strBad crc o = false)
    (h0 : (s.g 3).toNat = 0 → ∀ t, s.Worked t s.g → Done.ended.Settles s t fun w => P (latchEdges s w))
    (hl : (s.g 3).toNat ≠ 0 → ∀ p : State, p.Inv → s.Worked p s.g → s.dev.SameUnits p.dev → (strLoop (elem p) done (s.g 3).toNat).Gives p fun d t =>
      t.en tallyPage = false ∧ d.Settles s t fun w => P (latchEdges s w)) : Completes c s P := by
  refine completes_insn h hc hbad (.inr hs) fun u hu => gives_bind ((gives_cyc hu.inv).monoInv hu.inv
    fun _ p hpi ht => gives_bind (gives_getS ?_))
  have hp := hu.worked.ticked ht
  rw [hp.regs 3]
  by_cases hn : (s.g 3).toNat = 0
  · rw [if_pos hn]
    exact gives_pure ⟨hp.noSample h, h0 hn p hp⟩
  · rw [if_neg hn]
    exact hl hn p hpi hp (by rw [Dev.SameUnits, ht.dev]; exact hu.dev)

/-! ### Elements and their addresses -/

/-- The octets of an element. -/
def elemSize (o : SpcOps) : Nat := 2 ^ (o.x.toNat / 2 % 4)

theorem accLen_elem {o : SpcOps} (h : o.x.toNat / 2 % 4 ≠ 3) : accLen (sizeOf (strEsz o)) = elemSize o := by
  have hlt : o.x.toNat / 2 % 4 < 4 := Nat.mod_lt _ (by decide)
  rw [elemSize, strEsz]
  generalize o.x.toNat / 2 % 4 = k at h hlt
  match k, h, hlt with
  | 0, _, _ | 1, _, _ | 2, _, _ => rfl
  | 3, h, _ => exact absurd rfl h

theorem elemSize_cases {o : SpcOps} (h : o.x.toNat / 2 % 4 ≠ 3) : elemSize o = 1 ∨ elemSize o = 2 ∨ elemSize o = 4 := by
  have hlt : o.x.toNat / 2 % 4 < 4 := Nat.mod_lt _ (by decide)
  rw [elemSize]
  generalize o.x.toNat / 2 % 4 = k at h hlt
  match k, h, hlt with
  | 0, _, _ | 1, _, _ | 2, _, _ => simp
  | 3, h, _ => exact absurd rfl h

theorem elemAddr_zero (o : SpcOps) (a : Word) : elemAddr o a 0 = a := by
  simp [elemAddr]

theorem strMove_elemAddr {o : SpcOps} (h : o.x.toNat / 2 % 4 ≠ 3) (a : Word) (k : Nat) :
    strMove o (elemAddr o a k) = elemAddr o a (k + 1) := by
  have hd : strDown o = decide (o.x.toNat % 2 = 1) := by
    rw [strDown, bitOf, Nat.testBit_zero]
  have hk : BitVec.ofNat 32 ((k + 1) * elemSize o) = BitVec.ofNat 32 (k * elemSize o) + BitVec.ofNat 32 (elemSize o) := by
    rw [← BitVec.ofNat_add, Nat.add_mul, Nat.one_mul]
  rw [strMove, accLen_elem h, hd, elemAddr, elemAddr, ← elemSize, hk]
  by_cases hx : o.x.toNat % 2 = 1
  · simp only [hx, decide_true, if_true]
    rw [BitVec.sub_sub]
  · simp only [hx, decide_false, Bool.false_eq_true, if_false]
    rw [BitVec.add_assoc]

theorem strBad_false {o : SpcOps} {crc : Bool} (h : o.x.toNat / 2 % 4 ≠ 3) (hx : o.x.toNat < if crc then 24 else 8) :
    strBad crc o = false := by
  cases crc
  · simp only [Bool.false_eq_true, if_false] at hx
    simp [strBad, strEsz, strPoly, h]
    omega
  · simp only [if_true] at hx
    simp [strBad, strEsz, strPoly, h]
    omega

/-- The registers after `k` elements: the pointers that move, and the count. -/
def afterElems (o : SpcOps) (s : State) (src dst : Bool) (k r : Nat) : Word :=
  if r = 1 ∧ src then elemAddr o (s.g 1) k else if r = 2 ∧ dst then elemAddr o (s.g 2) k
  else if r = 3 then s.g 3 - BitVec.ofNat 32 k else s.g r

theorem afterElems_zero (o : SpcOps) (s : State) (src dst : Bool) : afterElems o s src dst 0 = s.g := by
  funext r
  simp only [afterElems, elemAddr_zero]
  split_ifs with h1 h2 h3
  · rw [h1.1]
  · rw [h2.1]
  · rw [h3]; simp
  · rfl

theorem sub_succ (w : Word) (k : Nat) : w - BitVec.ofNat 32 (k + 1) = w - BitVec.ofNat 32 k - 1 := by
  rw [BitVec.ofNat_add, BitVec.sub_sub]
  rfl

/-- The count left, as a number. -/
theorem sub_ofNat_toNat {w : Word} {m : Nat} (h : m ≤ w.toNat) : w - BitVec.ofNat 32 m = BitVec.ofNat 32 (w.toNat - m) := by
  have := w.isLt
  bv_omega

theorem afterElems_count (o : SpcOps) (s : State) (src dst : Bool) (k : Nat) :
    afterElems o s src dst (k + 1) 3 = afterElems o s src dst k 3 - 1 := by
  simp [afterElems, sub_succ]

theorem afterElems_src {o : SpcOps} {dst : Bool} {k : Nat} : afterElems o s true dst k 1 = elemAddr o (s.g 1) k := by
  simp [afterElems]

theorem afterElems_dst {o : SpcOps} {src : Bool} {k : Nat} : afterElems o s src true k 2 = elemAddr o (s.g 2) k := by
  simp [afterElems]

theorem afterElems_both {o : SpcOps} (hz : o.x.toNat / 2 % 4 ≠ 3) (k : Nat) :
    regWith (regWith (afterElems o s true true k) 1 (strMove o (afterElems o s true true k 1))) 2
        (strMove o (afterElems o s true true k 2)) =
      regWith (afterElems o s true true (k + 1)) 3 (afterElems o s true true k 3) := by
  rw [afterElems_src, afterElems_dst, strMove_elemAddr hz, strMove_elemAddr hz]
  funext r
  by_cases h1 : r = 1
  · subst h1; simp [regWith, afterElems]
  · by_cases h2 : r = 2
    · subst h2; simp [regWith, afterElems]
    · by_cases h3 : r = 3
      · subst h3; simp [regWith, afterElems]
      · simp [regWith, afterElems, h1, h2, h3]

/-! ### The octets of an element -/

theorem leNat_lt (l : List Byte) : leNat l < 256 ^ l.length := by
  induction l with
  | nil => simp [leNat]
  | cons b l ih =>
    have := b.isLt
    rw [leNat, List.length_cons, Nat.pow_succ]
    omega

theorem leBytes_leNat (l : List Byte) : leBytes l.length (leNat l) = l := by
  induction l with
  | nil => rfl
  | cons b l ih =>
    have hb := b.isLt
    rw [leNat, List.length_cons, leBytes, show (b.toNat + 256 * leNat l) / 256 = leNat l from by omega, ih]
    congr 1
    rw [← BitVec.toNat_inj, BitVec.toNat_ofNat]
    omega

/-- The octets that a word was read from. -/
theorem leBytes_wordOf {n : Nat} {l : List Byte} (hl : l.length = n) (hn : n ≤ 4) : leBytes n (wordOf l).toNat = l := by
  subst hl
  have h1 := leNat_lt l
  have h2 : 256 ^ l.length ≤ 256 ^ 4 := Nat.pow_le_pow_right (by decide) hn
  rw [wordOf, List.take_of_length_le hn, BitVec.toNat_ofNat, Nat.mod_eq_of_lt (by omega), leBytes_leNat]

theorem bytesIn_length (b : Nat → Byte) (a n : Nat) : (bytesIn b a n).length = n := by simp [bytesIn]

/-- An element copied. -/
theorem storeAt_bytesIn {b : Nat → Byte} {a c n x : Nat} (hn : n ≤ 4) :
    storeAt b a n (wordOf (bytesIn b c n)).toNat x = if a ≤ x ∧ x < a + n then b (c + (x - a)) else b x := by
  rw [storeAt, leBytes_wordOf (bytesIn_length b c n) hn]
  split
  case isTrue h => simp [bytesIn, List.getD, List.getElem?_map, List.getElem?_range (show x - a < n by omega)]
  case isFalse => rfl

/-- An element that reads and one that reads or writes meet no stop in main SRAM. -/
theorem gives_pairStop {o : SpcOps} {write : Bool} (h1 : t.SramAt false (t.g 1) (accLen (sizeOf (strEsz o))))
    (h2 : t.SramAt write (t.g 2) (accLen (sizeOf (strEsz o)))) (p1 : p.SramAt false (t.g 1) (accLen (sizeOf (strEsz o))))
    (p2 : p.SramAt write (t.g 2) (accLen (sizeOf (strEsz o)))) : (pairStop p o write).Gives t fun c u => c = none ∧ u = t := by
  refine gives_bind (gives_getS (gives_bind ((gives_accessCheck_sram h1 p1).mono ?_)))
  rintro _ _ ⟨rfl, rfl⟩
  exact gives_accessCheck_sram h2 p2

theorem State.SramAt.range {write : Bool} {a : Word} {z : Size} (h : s.SramAt write a (accLen z)) :
    0x20000000 ≤ a.toNat ∧ a.toNat < 0x20080000 := by
  have := accLen_pos z
  have := h.hi
  exact ⟨h.lo, by omega⟩

/-! ### MOVS and FILLS -/

/-- An element of MOVS. -/
def movsElem (o : SpcOps) (p : State) : M Elem := do
  match ← pairStop p o true with
  | some c => return .stop c
  | none =>
    let s ← getS
    let size := sizeOf (strEsz o)
    match ← coreGet size (s.g 1) with
    | .error c => return .stop c
    | .ok x =>
      match ← corePut size (s.g 2) x with
      | some c => return .stop c
      | none =>
        elemCycles 2 [s.g 1, s.g 2]
        setG 1 (strMove o (s.g 1))
        setG 2 (strMove o (s.g 2))
        return .more

theorem exec_movs (o : SpcOps) (s : State) : exec (.movs o) s = cmd s (strInsn 0 o false (movsElem o) nop) := rfl

theorem Dev.SameUnits.trans {d e f : Dev} (h : d.SameUnits e) (g : e.SameUnits f) : d.SameUnits f := by
  rw [Dev.SameUnits, g, h]

theorem gives_coreGet_dev {z : Size} {a : Word} (h : s.SramAt false a (accLen z)) :
    (coreGet z a).Gives s fun _ t => s.dev.SameUnits t.dev := by
  refine gives_bind (gives_getS (gives_bind (gives_bind (gives_getS ?_))))
  simp only [h.rangeOf (accLen_pos z)]
  refine gives_bind ((gives_sramCheck h.clean |>.and gives_sramCheck_dev).mono ?_)
  rintro _ t ⟨⟨rfl, -⟩, ht⟩
  exact gives_pure (gives_pure ht)

theorem gives_corePut_dev {z : Size} {a v : Word} (h : s.SramAt true a (accLen z)) :
    (corePut z a v).Gives s fun _ t => s.dev.SameUnits t.dev := by
  refine gives_bind (gives_getS (gives_bind (gives_bind (gives_getS ?_))))
  simp only [h.rangeOf (accLen_pos z)]
  split
  · refine gives_bind (gives_act (gives_bind (gives_putBytes (gives_pure (gives_pure ?_)))))
    rw [Dev.SameUnits, State.putMem_dev]
    rfl
  · refine gives_bind ((gives_sramCheck h.clean |>.and gives_sramCheck_dev).mono ?_)
    rintro _ t ⟨⟨rfl, -⟩, ht⟩
    refine gives_bind (gives_putBytes (gives_pure (gives_pure ?_)))
    rw [Dev.SameUnits, State.putMem_dev]
    exact ht

theorem State.Worked.gives_setG {g : Nat → Word} {b : Nat → Byte} {r : Nat} {v : Word} (h : s.Worked t g b) (hs : s.Inv) (ht : t.Inv) :
    (Machine.setG r v).Gives t fun _ u => u.Inv ∧ s.Worked u (regWith g r v) b ∧ u.dev = t.dev :=
  ((h.setG hs ht fun _ hui hu => ⟨hui, hu⟩ : (Machine.setG r v).Gives t fun _ u => u.Inv ∧ s.Worked u (regWith g r v) b).and
    (gives_act rfl : (Machine.setG r v).Gives t fun _ u => u.dev = t.dev)).mono fun _ _ ⟨⟨hui, hu⟩, hd⟩ => ⟨hui, hu, hd⟩

/-- An element moved: its octets copied, both pointers on, the units as before. -/
theorem movsElem_gives {o : SpcOps} {g : Nat → Word} {b : Nat → Byte} (hz : o.x.toNat / 2 % 4 ≠ 3) (hs : s.Inv) (hti : t.Inv)
    (ht : s.Worked t g b) (hp : s.Steady p) (hsrc : s.SramAt false (g 1) (elemSize o)) (hdst : s.SramAt true (g 2) (elemSize o)) :
    (movsElem o p).Gives t fun e u => e = .more ∧ t.dev.SameUnits u.dev ∧
      s.Worked u (regWith (regWith g 1 (strMove o (g 1))) 2 (strMove o (g 2)))
        (fun x => if (g 2).toNat ≤ x ∧ x < (g 2).toNat + elemSize o then b ((g 1).toNat + (x - (g 2).toNat)) else b x) := by
  have hle : elemSize o ≤ 4 := by rcases elemSize_cases hz with e | e | e <;> omega
  have e1 := ht.regs 1
  have e2 := ht.regs 2
  rw [← e1, ← accLen_elem hz] at hsrc
  rw [← e2, ← accLen_elem hz] at hdst
  refine gives_bind ((gives_pairStop (ht.steady.sramAt hsrc) (ht.steady.sramAt hdst) (hp.sramAt hsrc) (hp.sramAt hdst)).mono ?_)
  rintro _ t ⟨rfl, rfl⟩
  refine gives_bind (gives_getS (gives_bind (((gives_coreGet_sram (ht.steady.sramAt hsrc)).and
    (gives_coreGet_dev (ht.steady.sramAt hsrc))).monoInv hti ?_)))
  rintro _ u hui ⟨⟨rfl, hu⟩, hud⟩
  have hu' := ht.checked hu
  refine gives_bind (((gives_corePut_sram (hu'.steady.sramAt hdst)).and (gives_corePut_dev (hu'.steady.sramAt hdst))).monoInv hui ?_)
  rintro _ v hvi ⟨⟨rfl, hv⟩, hvd⟩
  refine gives_bind ((gives_elemCycles_sram hvi ?_).monoInv hvi fun _ w hwi hwt => ?_)
  · simp only [List.mem_cons, List.not_mem_nil, or_false]
    rintro a (rfl | rfl)
    exacts [hsrc.range, hdst.range]
  have hw := (hu'.stored hv).ticked hwt
  refine gives_bind ((hw.gives_setG hs hwi).mono ?_)
  rintro _ y ⟨hyi, hy, hyd⟩
  refine gives_bind ((hy.gives_setG hs hyi).mono ?_)
  rintro _ q ⟨_, hq, hqd⟩
  refine gives_pure ⟨rfl, ?_, ?_⟩
  · rw [Dev.SameUnits, hqd, hyd, hwt.dev]
    exact hud.trans hvd
  · have hcopy : storeAt b (t.g 2).toNat (accLen (sizeOf (strEsz o)))
        (wordOf (t.bytes (t.g 1).toNat (accLen (sizeOf (strEsz o))))).toNat =
        fun x => if (g 2).toNat ≤ x ∧ x < (g 2).toNat + elemSize o then b ((g 1).toNat + (x - (g 2).toNat)) else b x := funext fun x => by
      rw [ht.bytes, accLen_elem hz, storeAt_bytesIn hle, e1, e2]
    rw [hcopy, e1, e2] at hq
    exact hq

theorem movs_completes {o : SpcOps} (h : s.Ready) (hs : s.core.slot = none) (hx : o.x.toNat < 8) (hz : o.x.toNat / 2 % 4 ≠ 3)
    (hie : bitOf s.core.st.toNat 7 = false) {m : Nat → Bool} (hm : ∀ x, m x = false →
      moveElems (elemSize o) (elemAddr o (s.g 1)) (elemAddr o (s.g 2)) (s.g 3).toNat s.byte x = s.byte x)
    (hsrc : ∀ k < (s.g 3).toNat, s.SramAt false (elemAddr o (s.g 1) k) (elemSize o))
    (hdst : ∀ k < (s.g 3).toNat, s.SramAt true (elemAddr o (s.g 2) k) (elemSize o)) :
    Completes (.movs o) s fun t =>
      s.Executed t (s.core.pc + 4) (afterElems o s true true (s.g 3).toNat) (memFoot m) ∧ t.core.st = s.core.st ∧
        ∀ x, t.byte x = moveElems (elemSize o) (elemAddr o (s.g 1)) (elemAddr o (s.g 2)) (s.g 3).toNat s.byte x := by
  have hend (t : State) (ht : s.Worked t (afterElems o s true true (s.g 3).toNat)
      (moveElems (elemSize o) (elemAddr o (s.g 1)) (elemAddr o (s.g 2)) (s.g 3).toNat s.byte)) :=
    Done.settles_ended m (s := s) (st := s.core.st) (Q := fun w => s.Executed (latchEdges s w) (s.core.pc + 4)
        (afterElems o s true true (s.g 3).toNat) (memFoot m) ∧ (latchEdges s w).core.st = s.core.st ∧
        ∀ x, (latchEdges s w).byte x = moveElems (elemSize o) (elemAddr o (s.g 1)) (elemAddr o (s.g 2)) (s.g 3).toNat s.byte x)
      ht hm fun w he hst hb => ⟨he.latched, hst, hb⟩
  refine completes_str h hs (exec_movs o s) (strBad_false hz hx) (fun h0 t ht => hend t ?_) fun hn p hpi hp _ => ?_
  · rw [h0, afterElems_zero]; exact ht
  refine gives_strLoop (s := s) (G := afterElems o s true true) (S := fun _ => s.core.st)
    (B := fun k => moveElems (elemSize o) (elemAddr o (s.g 1)) (elemAddr o (s.g 2)) k s.byte) (n := (s.g 3).toNat) (m := (s.g 3).toNat)
    h.inv (fun _ => h.inv.core.2.1) (fun _ _ => hie) (fun k _ => afterElems_count o s true true k) (Nat.le_refl _) (fun k hk t hti ht => ?_)
    (fun t hti ht => ?_) (s.g 3).toNat 0 (Nat.zero_add _) p hpi (by rw [afterElems_zero]; exact hp)
  · exact (movsElem_gives hz h.inv hti ht hp.steady (by rw [afterElems_src]; exact hsrc k hk)
      (by rw [afterElems_dst]; exact hdst k hk)).mono fun e u ⟨he, _, hu⟩ => by
        rw [afterElems_both hz, afterElems_src, afterElems_dst] at hu
        exact ⟨he, hu⟩
  · rw [Nat.sub_self]
    exact gives_bind (gives_nop (gives_pure ⟨ht.noSample h, hend t ht⟩))

/-- Memory after the first `k` elements of a fill. -/
def fillElems (z : Nat) (dst : Nat → Word) (v : Nat) : Nat → (Nat → Byte) → Nat → Byte
  | 0, b => b
  | k + 1, b => storeAt (fillElems z dst v k b) (dst k).toNat z v

/-- An aligned element that was filled stays so: a later one is apart from it, or the same. -/
theorem fillElems_done {z n : Nat} {dst : Nat → Word} {v : Nat} {b : Nat → Byte} (hal : ∀ k < n, (dst k).toNat % z = 0) :
    ∀ k ≤ n, ∀ j < k, ∀ i < z, fillElems z dst v k b ((dst j).toNat + i) = (leBytes z v).getD i 0 := by
  intro k
  induction k with
  | zero => intro _ j hj; omega
  | succ k ih =>
    intro hk j hj i hi
    rw [fillElems, storeAt]
    split
    case isTrue h =>
      have h1 := hal k (by omega)
      have h2 := hal j (by omega)
      have he : (dst k).toNat = (dst j).toNat := by
        obtain ⟨p, hp⟩ := Nat.dvd_of_mod_eq_zero h1
        obtain ⟨q, hq⟩ := Nat.dvd_of_mod_eq_zero h2
        have h3 : z * p < z * (q + 1) := by rw [Nat.mul_succ]; omega
        have h4 : z * q < z * (p + 1) := by rw [Nat.mul_succ]; omega
        have h5 := Nat.lt_of_mul_lt_mul_left h3
        have h6 := Nat.lt_of_mul_lt_mul_left h4
        rw [hp, hq, show p = q by omega]
      rw [he, Nat.add_sub_cancel_left]
    case isFalse h =>
      exact ih (by omega) j (by rcases Nat.lt_succ_iff_lt_or_eq.mp hj with h' | rfl; exacts [h', absurd ⟨by omega, by omega⟩ h]) i hi

theorem fillElems_other {z n : Nat} {dst : Nat → Word} {v : Nat} {b : Nat → Byte} {x : Nat}
    (h : ∀ k < n, ¬ ((dst k).toNat ≤ x ∧ x < (dst k).toNat + z)) : fillElems z dst v n b x = b x := by
  induction n with
  | zero => rfl
  | succ n ih => rw [fillElems, storeAt_other (h n (by omega)), ih fun k hk => h k (by omega)]

theorem moveElems_other {z n : Nat} {src dst : Nat → Word} {b : Nat → Byte} {x : Nat}
    (h : ∀ k < n, ¬ ((dst k).toNat ≤ x ∧ x < (dst k).toNat + z)) : moveElems z src dst n b x = b x := by
  induction n with
  | zero => rfl
  | succ n ih => exact (if_neg (h n (by omega))).trans (ih fun k hk => h k (by omega))

theorem fills_completes {o : SpcOps} (h : s.Ready) (hs : s.core.slot = none) (hx : o.x.toNat < 8) (hz : o.x.toNat / 2 % 4 ≠ 3)
    (hie : bitOf s.core.st.toNat 7 = false) {m : Nat → Bool} (hm : ∀ x, m x = false →
      fillElems (elemSize o) (elemAddr o (s.g 2)) (s.g 4).toNat (s.g 3).toNat s.byte x = s.byte x)
    (hdst : ∀ k < (s.g 3).toNat, s.SramAt true (elemAddr o (s.g 2) k) (elemSize o)) :
    Completes (.fills o) s fun t =>
      s.Executed t (s.core.pc + 4) (afterElems o s false true (s.g 3).toNat) (memFoot m) ∧ t.core.st = s.core.st ∧
        ∀ x, t.byte x = fillElems (elemSize o) (elemAddr o (s.g 2)) (s.g 4).toNat (s.g 3).toNat s.byte x := by
  have hend (t : State) (ht : s.Worked t (afterElems o s false true (s.g 3).toNat)
      (fillElems (elemSize o) (elemAddr o (s.g 2)) (s.g 4).toNat (s.g 3).toNat s.byte)) :=
    Done.settles_ended m (s := s) (st := s.core.st) (Q := fun w => s.Executed (latchEdges s w) (s.core.pc + 4)
        (afterElems o s false true (s.g 3).toNat) (memFoot m) ∧ (latchEdges s w).core.st = s.core.st ∧
        ∀ x, (latchEdges s w).byte x = fillElems (elemSize o) (elemAddr o (s.g 2)) (s.g 4).toNat (s.g 3).toNat s.byte x)
      ht hm fun w he hst hb => ⟨he.latched, hst, hb⟩
  refine completes_str h hs rfl (strBad_false hz hx) (fun h0 t ht => hend t ?_) fun hn p hpi hp _ => ?_
  · rw [h0, afterElems_zero]; exact ht
  refine gives_strLoop (s := s) (G := afterElems o s false true) (S := fun _ => s.core.st)
    (B := fun k => fillElems (elemSize o) (elemAddr o (s.g 2)) (s.g 4).toNat k s.byte) (n := (s.g 3).toNat) (m := (s.g 3).toNat)
    h.inv (fun _ => h.inv.core.2.1) (fun _ _ => hie) (fun k _ => afterElems_count o s false true k) (Nat.le_refl _) (fun k hk t hti ht => ?_)
    (fun t hti ht => ?_) (s.g 3).toNat 0 (Nat.zero_add _) p hpi (by rw [afterElems_zero]; exact hp)
  · have e2 : t.g 2 = elemAddr o (s.g 2) k := (ht.regs 2).trans afterElems_dst
    have e4 : t.g 4 = s.g 4 := (ht.regs 4).trans (by simp [afterElems])
    have hw : s.SramAt true (t.g 2) (accLen (sizeOf (strEsz o))) := by rw [e2, accLen_elem hz]; exact hdst k hk
    have hst : s.Worked t _ _ := ht
    refine gives_bind (gives_getS (gives_bind ((gives_coreWrite_sram (hst.steady.sramAt hw) (hp.steady.sramAt hw)).monoInv hti ?_)))
    rintro _ v hvi ⟨rfl, hv⟩
    refine gives_bind ((gives_elemCycles_sram hvi fun a ha => ?_).monoInv hvi fun _ w hwi hwt => ?_)
    · rw [List.mem_singleton.mp ha]
      exact hw.range
    refine gives_bind (((hst.stored hv).ticked hwt).setG h.inv hwi fun q _ hq => gives_pure ⟨rfl, ?_⟩)
    have hregs : regWith (afterElems o s false true k) 2 (strMove o (t.g 2)) =
        regWith (afterElems o s false true (k + 1)) 3 (afterElems o s false true k 3) := by
      rw [e2, strMove_elemAddr hz]
      funext r
      by_cases h2 : r = 2
      · subst h2; simp [regWith, afterElems]
      · by_cases h3 : r = 3
        · subst h3; simp [regWith, afterElems]
        · simp [regWith, afterElems, h2, h3]
    rw [hregs, e2, e4, accLen_elem hz] at hq
    exact hq
  · rw [Nat.sub_self]
    exact gives_bind (gives_nop (gives_pure ⟨ht.noSample h, hend t ht⟩))

/-- The registers as the statement gives them. -/
theorem afterElems_all (o : SpcOps) (s : State) (src dst : Bool) : afterElems o s src dst (s.g 3).toNat =
    fun r => if r = 1 ∧ src then elemAddr o (s.g 1) (s.g 3).toNat else if r = 2 ∧ dst then elemAddr o (s.g 2) (s.g 3).toNat
      else if r = 3 then 0 else s.g r := by
  funext r
  rw [afterElems, sub_ofNat_toNat (Nat.le_refl _), Nat.sub_self]
  rfl

/-- The octets that the elements of a string lie in. -/
def elemMem (n z : Nat) (dst : Nat → Word) (x : Nat) : Bool := (List.range n).any fun k => decide ((dst k).toNat ≤ x ∧ x < (dst k).toNat + z)

theorem elemMem_false {n z : Nat} {dst : Nat → Word} {x : Nat} (h : elemMem n z dst x = false) :
    ∀ k < n, ¬ ((dst k).toNat ≤ x ∧ x < (dst k).toNat + z) := fun k hk hx => by
  have := List.any_eq_false.mp h k (List.mem_range.mpr hk)
  exact this (decide_eq_true hx)

theorem State.Worked.wouldAccept {g : Nat → Word} {b : Nat → Byte} (h : s.Worked u g b) (hd : s.dev.SameUnits u.dev) (ie : Bool) :
    u.wouldAccept ie = s.wouldAccept ie := by
  obtain ⟨x, y, hc⟩ := h.core
  have hprio (n : Nat) : u.linePrio n = s.linePrio n := State.linePrio_congr (fun k =>
    h.rest.regs _ (coreFoot_regs (not_mem_perf_of_private (by rw [INTC_PRIO]; omega)))) n
  simp only [State.wouldAccept, (h.lines hd).2, State.pl, hprio, show u.core.st = s.core.st by rw [hc]]
  rfl

/-- An interrupt that would be accepted stops a move after its first element (log entry 82). -/
theorem movs_interrupted {o : SpcOps} (h : s.Ready) (hs : s.core.slot = none) (hx : o.x.toNat < 8) (hz : o.x.toNat / 2 % 4 ≠ 3)
    (hi : (s.wouldAccept (bitOf s.core.st.toNat 7)).isSome = true) (hn : 2 ≤ (s.g 3).toNat)
    (hsrc : s.SramAt false (s.g 1) (elemSize o)) (hdst : s.SramAt true (s.g 2) (elemSize o)) :
    Completes (.movs o) s fun t =>
      s.Executed t s.core.pc (afterElems o s true true 1) (storeFoot (s.g 2).toNat (elemSize o)) ∧
      t.core.st = s.core.st ∧ t.bytes (s.g 2).toNat (elemSize o) = s.bytes (s.g 1).toNat (elemSize o) := by
  refine completes_str h hs (exec_movs o s) (strBad_false hz hx) (fun h0 => by omega) fun _ p hpi hp hpd => ?_
  obtain ⟨n, hn⟩ : ∃ n, (s.g 3).toNat = n + 2 := ⟨(s.g 3).toNat - 2, by omega⟩
  rw [hn, strLoop]
  refine gives_bind ((movsElem_gives hz h.inv hpi hp hp.steady hsrc hdst).monoInv hpi ?_)
  rintro _ u hui ⟨rfl, hud, hu⟩
  refine gives_bind (gives_perf.monoInv hui fun _ v hvi hn' => gives_bind (gives_getS (gives_bind ?_)))
  have hv := hu.noted hn'.1
  have hvd : s.dev.SameUnits v.dev := by
    rw [Dev.SameUnits, hn'.1.dev]
    exact hpd.trans hud
  obtain ⟨x, y, hc⟩ := hv.core
  have hacc : (v.wouldAccept (bitOf v.core.st.toNat 7)).isSome = true := by
    rw [hv.wouldAccept hvd, show v.core.st = s.core.st by rw [hc]]
    exact hi
  rw [if_neg (by rw [hc]; simp), if_pos (by simp [hacc])]
  have h3 : v.g 3 = s.g 3 := hv.regs 3
  have h0 := afterElems_zero o s true true
  have hb := afterElems_both (s := s) hz 0
  have hc3 := afterElems_count o s true true 0
  rw [h0] at hb hc3
  have hgo : regWith (regWith (regWith s.g 1 (strMove o (s.g 1))) 2 (strMove o (s.g 2))) 3 (v.g 3 - 1) = afterElems o s true true 1 := by
    rw [hb, h3, ← hc3]
    funext r
    by_cases hr : r = 3
    · subst hr; simp [regWith]
    · simp [regWith, hr]
  refine hv.setG h.inv hvi fun w hwi hw => gives_pure ⟨hw.noSample h, fun x _ hxc hxw _ => ?_⟩
  rw [hgo] at hw
  obtain ⟨cy, gr, hwc⟩ := hw.core
  have hwin := (hw.within (m := fun x => decide ((s.g 2).toNat ≤ x ∧ x < (s.g 2).toNat + elemSize o)) fun x hx =>
    if_neg (of_decide_eq_false hx)).trans hxw.memFoot
  refine ⟨⟨?_, ?_, fun k => ?_, ?_, ?_, ?_, ?_, ?_, ?_, hwin.latch⟩, ?_, ?_⟩
  case refine_3 =>
    rw [latchEdges_g, State.slotted, hs, ← hw.regs k, State.g, hxc, State.g]
  case refine_11 =>
    rw [latchEdges_bytes]
    refine List.map_congr_left fun i hi => ?_
    have hi := List.mem_range.mp hi
    rw [hxw.mem _ rfl, hw.mem, if_pos (by omega), Nat.add_sub_cancel_left]
  all_goals rw [latchEdges_core, hxc, hwc]
  exact hs

/-- Settles O12: MOVS and FILLS go through their elements one by one, or stop after the first where a line would be accepted. -/
theorem stringMoves : Obligations.StringMoves := by
  refine ⟨fun o s h hs hx hz => ?_, fun o s h hs hx hz => ?_⟩
  · intro z n src dst F hdst hie
    refine ⟨fun hsrc => ?_, ?_⟩
    · have hm := movs_completes h hs hx hz hie (m := elemMem n z dst) (fun x hx => moveElems_other (elemMem_false hx)) hsrc hdst
      have hregs : afterElems o s true true n = fun r => if r = 1 then src n else if r = 2 then dst n else if r = 3 then 0 else s.g r := by
        rw [afterElems_all]; simp [src, dst, n]
      rw [hregs] at hm
      exact hm
    · obtain ⟨t, he, hex, hst, hb⟩ := fills_completes h hs hx hz hie (m := elemMem n z dst)
        (fun x hx => fillElems_other (elemMem_false hx)) hdst
      have hregs : afterElems o s false true n = fun r => if r = 2 then dst n else if r = 3 then 0 else s.g r := by
        rw [afterElems_all]; simp [dst, n]
      rw [hregs] at hex
      refine ⟨t, he, hex, hst, fun k hk => List.ext_getElem (by simp [State.bytes, leBytes_length]) fun i h1 h2 => ?_⟩
      simp only [State.bytes, List.length_map, List.length_range] at h1
      simp only [State.bytes, List.getElem_map, List.getElem_range, hb]
      exact (fillElems_done (fun k hk => (hdst k hk).aligned) n (Nat.le_refl _) k hk i h1).trans (List.getD_eq_getElem _ _ h2)
  · intro z hi hn hsrc hdst
    have hm := movs_interrupted h hs hx hz hi hn hsrc hdst
    have hregs : afterElems o s true true 1 = fun r => if r = 1 then elemAddr o (s.g 1) 1 else if r = 2 then elemAddr o (s.g 2) 1
        else if r = 3 then s.g 3 - 1 else s.g r := by
      funext r; simp [afterElems]
    rw [hregs] at hm
    exact hm

end Sys2Proof.Machine
end

section
/-!
String instructions that read only: CMPS, SCANS and CRCS (R254).
-/
namespace Sys2Proof.Machine
open Sys2Proof.Reg

variable {s t u p : State} {o : SpcOps} {g : Nat → Word}

/-- ST given a value on the way: what the body works from is as before but for it. -/
theorem State.Worked.gives_modSt {f : Word → Word} {b : Nat → Byte} (h : s.Worked t g b) (hs : s.Inv)
    (hf : f s.core.st &&& stMask = f s.core.st) :
    (modCore fun c => { c with st := f c.st }).Gives t fun _ u => (s.withSt (f s.core.st)).Worked u g b := by
  obtain ⟨x, y, hc⟩ := h.core
  refine gives_act ⟨⟨x, y, ?_⟩, h.regs, h.mem, ?_, h.eccBad⟩
  · rw [Prim.run_core_core, hc]
    exact Core.norm_of_legal (c := { s.core with insn := true, cycle := x, g := y, st := f s.core.st }) ⟨hs.core.1, hf, hs.core.2.2⟩
  · have hw : s.Within (memFoot fun _ => true) (Prim.run (.core fun c => { c with st := f c.st }) t) :=
      h.rest.trans (State.within_coreFoot t _).memFoot
    exact { hw with
      tab := fun x hx i => (hw.tab x hx i).trans (by cases x <;> rfl)
      core := fun hc => absurd hc (by simp [memFoot, coreFoot]) }

/-- A flag is put or left, and ST's low bits stay. -/
theorem FlagOut.put_low (s : State) (f : FlagOut) (st : Word) {i : Nat} (hi : i < 28) : (f.put st).toNat.testBit i = st.toNat.testBit i :=
  (FlagOut.put_flags f (s.withSt st) (s.withSt (f.put st)) rfl).rest i hi

/-- Flags that are all written, over an ST of which the low bits are as before. -/
theorem FlagOut.put_flags_of_low {f : FlagOut} {st : Word} {a b c d : Bool} (hf : f = ⟨some a, some b, some c, some d⟩)
    (h : t.core.st = f.put st) (hl : ∀ i < 28, st.toNat.testBit i = s.core.st.toNat.testBit i) :
    s.FlagsAre t (some a) (some b) (some c) (some d) := by
  subst hf
  obtain ⟨h1, h2, h3, h4, h5⟩ := FlagOut.put_flags _ (s.withSt st) t h
  exact ⟨h1, h2, h3, h4, fun i hi => (h5 i hi).trans (hl i hi)⟩

theorem State.Worked.noSample' {st : Word} {b : Nat → Byte} (h : (s.withSt st).Worked t g b) (hs : s.Ready) : t.en tallyPage = false :=
  h.rest.noSample (by simp [Sys2Proof.Machine.memFoot, coreFoot, evRegs]; decide) hs.noSample

/-! ### CMPS -/

/-- An element of CMPS. -/
def cmpsElem (o : SpcOps) (p : State) : M Elem := do
  match ← pairStop p o false with
  | some c => return .stop c
  | none =>
    let s ← getS
    let size := sizeOf (strEsz o)
    match ← coreGet size (s.g 1) with
    | .error c => return .stop c
    | .ok x =>
      match ← coreGet size (s.g 2) with
      | .error c => return .stop c
      | .ok y =>
        elemCycles 2 [s.g 1, s.g 2]
        modCore fun c => { c with st := (subOp x y true).2.put c.st }
        if x = y then
          setG 1 (strMove o (s.g 1))
          setG 2 (strMove o (s.g 2))
          return .more
        else return .found

theorem exec_cmps (o : SpcOps) (s : State) : exec (.cmps o) s = cmd s (strInsn 2 o false (cmpsElem o) nop) := rfl

/-- An element compared: the flags of the difference, and both pointers on where the two are equal. -/
theorem cmpsElem_gives (hz : o.x.toNat / 2 % 4 ≠ 3) (hs : s.Inv) (hti : t.Inv) {b : Nat → Byte} (ht : s.Worked t g b)
    (h1 : s.SramAt false (g 1) (elemSize o)) (h2 : s.SramAt false (g 2) (elemSize o)) (p1 : p.SramAt false (g 1) (elemSize o))
    (p2 : p.SramAt false (g 2) (elemSize o)) {x y : Word} (hx : x = wordOf (bytesIn b (g 1).toNat (elemSize o)))
    (hy : y = wordOf (bytesIn b (g 2).toNat (elemSize o))) :
    (cmpsElem o p).Gives t fun e u =>
      (x = y → e = .more ∧ (s.withSt ((subOp x y true).2.put s.core.st)).Worked u
        (regWith (regWith g 1 (strMove o (g 1))) 2 (strMove o (g 2))) b) ∧
      (x ≠ y → e = .found ∧ (s.withSt ((subOp x y true).2.put s.core.st)).Worked u g b) := by
  have e1 := ht.regs 1
  have e2 := ht.regs 2
  rw [← e1, ← accLen_elem hz] at h1 p1
  rw [← e2, ← accLen_elem hz] at h2 p2
  refine gives_bind ((gives_pairStop (ht.steady.sramAt h1) (ht.steady.sramAt h2) p1 p2).mono ?_)
  rintro _ t ⟨rfl, rfl⟩
  refine gives_bind (gives_getS (gives_bind ((gives_coreGet_sram (ht.steady.sramAt h1)).monoInv hti ?_)))
  rintro _ u hui ⟨rfl, hu⟩
  have hu' := ht.checked hu
  refine gives_bind ((gives_coreGet_sram (hu'.steady.sramAt h2)).monoInv hui ?_)
  rintro _ v hvi ⟨rfl, hv⟩
  have hv' := hu'.checked hv
  refine gives_bind ((gives_elemCycles_sram hvi ?_).monoInv hvi fun _ w hwi hwt => ?_)
  · simp only [List.mem_cons, List.not_mem_nil, or_false]
    rintro a (rfl | rfl)
    exacts [h1.range, h2.range]
  have hw := hv'.ticked hwt
  have hx' : wordOf (t.bytes (t.g 1).toNat (accLen (sizeOf (strEsz o)))) = x := by rw [hx, ht.bytes, e1, accLen_elem hz]
  have hy' : wordOf (u.bytes (t.g 2).toNat (accLen (sizeOf (strEsz o)))) = y := by rw [hy, hu'.bytes, e2, accLen_elem hz]
  rw [hx', hy']
  have hlegal := FlagOut.put_legal (f := (subOp x y true).2) hs.core.2.1
  refine gives_bind ((hw.gives_modSt (f := fun st => (subOp x y true).2.put st) hs hlegal).monoInv hwi fun _ a hai ha => ?_)
  split
  case isTrue hxy =>
    refine gives_bind ((ha.gives_setG (hs.withSt hlegal) hai).mono ?_)
    rintro _ q ⟨hqi, hq, _⟩
    refine gives_bind ((hq.gives_setG (hs.withSt hlegal) hqi).mono ?_)
    rintro _ c ⟨_, hc, _⟩
    rw [e1, e2] at hc
    exact gives_pure ⟨fun _ => ⟨rfl, hc⟩, fun h => absurd hxy h⟩
  case isFalse hxy =>
    exact gives_pure ⟨fun h => absurd h hxy, fun _ => ⟨rfl, ha⟩⟩

/-- ST after the first `k` comparisons. -/
def cmpsSt (x y : Nat → Word) (st : Word) : Nat → Word
  | 0 => st
  | k + 1 => (subOp (x k) (y k) true).2.put (cmpsSt x y st k)

theorem cmpsSt_legal {x y : Nat → Word} {st : Word} (h : st &&& stMask = st) (k : Nat) : cmpsSt x y st k &&& stMask = cmpsSt x y st k := by
  induction k with
  | zero => exact h
  | succ k ih => exact FlagOut.put_legal ih

theorem cmpsSt_low (s : State) (x y : Nat → Word) (st : Word) (k : Nat) {i : Nat} (hi : i < 28) :
    (cmpsSt x y st k).toNat.testBit i = st.toNat.testBit i := by
  induction k with
  | zero => rfl
  | succ k ih => exact (FlagOut.put_low s _ _ hi).trans ih

theorem State.bytes_eq_bytesIn (s : State) (a n : Nat) : s.bytes a n = bytesIn s.byte a n := rfl

theorem testBit_toNat_eq_bitOf (w : Word) (i : Nat) : bitOf w.toNat i = w.toNat.testBit i := rfl

section
variable (h : s.Ready) (hs : s.core.slot = none) (hz : o.x.toNat / 2 % 4 ≠ 3) (hie : bitOf s.core.st.toNat 7 = false)
  {m : Nat} {x y : Nat → Word} (hx8 : o.x.toNat < 8) (hm : m ≤ (s.g 3).toNat)
  (hsrc : ∀ k < (s.g 3).toNat, s.SramAt false (elemAddr o (s.g 1) k) (elemSize o))
  (hx : ∀ k, x k = wordOf (s.bytes (elemAddr o (s.g 1) k).toNat (elemSize o)))
include h hs hz hie hx8 hm hsrc hx

theorem cmps_completes (hdst : ∀ k < (s.g 3).toNat, s.SramAt false (elemAddr o (s.g 2) k) (elemSize o))
    (hy : ∀ k, y k = wordOf (s.bytes (elemAddr o (s.g 2) k).toNat (elemSize o)))
    (heq : ∀ k < m, x k = y k) (hne : m < (s.g 3).toNat → x m ≠ y m) :
    Completes (.cmps o) s fun t =>
      s.Executed t (s.core.pc + 4) (afterElems o s true true m) ∧
      t.core.st = if m = (s.g 3).toNat then cmpsSt x y s.core.st m else cmpsSt x y s.core.st (m + 1) := by
  have hbyte (st : Word) : (s.withSt st).byte = s.byte := funext fun _ => rfl
  have hmode (k : Nat) : (s.withSt (cmpsSt x y s.core.st k)).sysMode = s.sysMode := cmpsSt_low s x y s.core.st k (by decide)
  have hend {st : Word} (hst : st = if m = (s.g 3).toNat then cmpsSt x y s.core.st m else cmpsSt x y s.core.st (m + 1)) (t : State)
      (ht : (s.withSt st).Worked t (afterElems o s true true m) s.byte) :=
    Done.settles_ended (fun _ => false) (s := s) (st := st) (Q := fun w => s.Executed (latchEdges s w) (s.core.pc + 4)
        (afterElems o s true true m) ∧ (latchEdges s w).core.st = if m = (s.g 3).toNat then cmpsSt x y s.core.st m
          else cmpsSt x y s.core.st (m + 1))
      ht (fun _ _ => rfl) fun w he hst' hb => ⟨he.latched, hst'.trans hst⟩
  have helem (p : State) (hp : s.Steady p) (k : Nat) (hk : k < (s.g 3).toNat) (t : State) (hti : t.Inv)
      (ht : (s.withSt (cmpsSt x y s.core.st k)).Worked t (afterElems o s true true k) s.byte) :=
    cmpsElem_gives (p := p) (x := x k) (y := y k) hz (h.inv.withSt (cmpsSt_legal h.inv.core.2.1 k)) hti ht
      (by rw [afterElems_src]; exact State.withSt_sramAt (hsrc k hk) (hmode k))
      (by rw [afterElems_dst]; exact State.withSt_sramAt (hdst k hk) (hmode k))
      (by rw [afterElems_src]; exact hp.sramAt (hsrc k hk)) (by rw [afterElems_dst]; exact hp.sramAt (hdst k hk))
      (by rw [hx, State.bytes_eq_bytesIn, afterElems_src]) (by rw [hy, State.bytes_eq_bytesIn, afterElems_dst])
  refine completes_str h hs (exec_cmps o s) (strBad_false hz hx8) (fun h0 t ht => ?_) fun hn p hpi hp _ => ?_
  · have h0m : m = 0 := by omega
    exact hend (st := s.core.st) (by rw [if_pos (by omega), h0m]; rfl) t (by rw [h0m, afterElems_zero]; exact ht)
  refine gives_strLoop (s := s) (G := afterElems o s true true) (S := cmpsSt x y s.core.st) (B := fun _ => s.byte)
    (n := (s.g 3).toNat) (m := m) h.inv (cmpsSt_legal h.inv.core.2.1) (fun k _ => (cmpsSt_low s x y s.core.st k (by decide)).trans hie)
    (fun k _ => afterElems_count o s true true k) hm (fun k hk t hti ht => ?_)
    (fun t hti ht => ?_) m 0 (Nat.zero_add _) p hpi (by rw [afterElems_zero]; exact hp)
  · refine (helem p hp.steady k (by omega) t hti ht).mono fun e u hu => ?_
    obtain ⟨he, hw⟩ := hu.1 (heq k hk)
    rw [afterElems_both hz] at hw
    exact ⟨he, hw⟩
  · by_cases hmn : m = (s.g 3).toNat
    · rw [show (s.g 3).toNat - m = 0 by omega]
      exact gives_bind (gives_nop (gives_pure ⟨ht.noSample' h, hend (by rw [if_pos hmn]) t ht⟩))
    · rw [show (s.g 3).toNat - m = (s.g 3).toNat - m - 1 + 1 by omega, strLoop]
      refine gives_bind ((helem p hp.steady m (by omega) t hti ht).monoInv hti fun e u hui hu => ?_)
      obtain ⟨rfl, hw⟩ := hu.2 (hne (by omega))
      refine gives_bind (gives_perf.monoInv hui fun _ v hvi hn => gives_pure ?_)
      have hv : (s.withSt (cmpsSt x y s.core.st (m + 1))).Worked v _ s.byte := hw.noted hn.1
      exact ⟨hv.noSample' h, hend (by rw [if_neg hmn]) v hv⟩
end

/-! ### SCANS -/

/-- An element of SCANS. -/
def scansElem (o : SpcOps) (p : State) : M Elem := do
  let s ← getS
  let size := sizeOf (strEsz o)
  match ← coreRead p size (s.g 1) with
  | .error c => return .stop c
  | .ok x =>
    elemCycles 1 [s.g 1]
    if x = elemOf size (s.g 4) then
      modCore fun c => { c with st := bitsPut c.st 30 30 1 }
      return .found
    else
      setG 1 (strMove o (s.g 1))
      return .more

theorem exec_scans (o : SpcOps) (s : State) : exec (.scans o) s =
    cmd s (strInsn 3 o false (scansElem o) (modCore fun c => { c with st := bitsPut c.st 30 30 0 })) := rfl

/-- ST with Z alone written. -/
def zOnly (b : Bool) : FlagOut := { z := some b }
theorem zOnly_put (b : Bool) (st : Word) : (zOnly b).put st = bitsPut st 30 30 (b2n b) := rfl

theorem afterElems_read {k : Nat} (hz : o.x.toNat / 2 % 4 ≠ 3) : regWith (afterElems o s true false k) 1 (strMove o (elemAddr o (s.g 1) k)) =
    regWith (afterElems o s true false (k + 1)) 3 (afterElems o s true false k 3) := by
  rw [strMove_elemAddr hz]
  funext r
  by_cases h1 : r = 1
  · subst h1; simp [regWith, afterElems]
  · by_cases h3 : r = 3
    · subst h3; simp [regWith, afterElems]
    · simp [regWith, afterElems, h1, h3]

/-- An element looked at: Z set where it is the value sought, the pointer on where it is not. -/
theorem scansElem_gives (hz : o.x.toNat / 2 % 4 ≠ 3) (hs : s.Inv) (hti : t.Inv) (ht : s.Worked t g) (hp : s.Steady p)
    (h1 : s.SramAt false (g 1) (elemSize o)) {x : Word} (hx : x = wordOf (bytesIn s.byte (g 1).toNat (elemSize o))) :
    (scansElem o p).Gives t fun e u =>
      (x ≠ BitVec.ofNat 32 ((g 4).toNat % 2 ^ (8 * elemSize o)) → e = .more ∧ s.Worked u (regWith g 1 (strMove o (g 1)))) ∧
      (x = BitVec.ofNat 32 ((g 4).toNat % 2 ^ (8 * elemSize o)) → e = .found ∧
        (s.withSt ((zOnly true).put s.core.st)).Worked u g s.byte) := by
  have e1 := ht.regs 1
  have e4 := ht.regs 4
  rw [← e1, ← accLen_elem hz] at h1
  refine gives_bind (gives_getS (gives_bind ((gives_coreRead_sram (ht.steady.sramAt h1) (hp.sramAt h1)).monoInv hti ?_)))
  rintro _ u hui ⟨rfl, hu⟩
  refine gives_bind ((gives_elemCycles_sram hui fun a ha => ?_).monoInv hui fun _ w hwi hwt => ?_)
  · rw [List.mem_singleton.mp ha]
    exact h1.range
  have hw := (ht.checked hu).ticked hwt
  have hx' : wordOf (t.bytes (t.g 1).toNat (accLen (sizeOf (strEsz o)))) = x := by rw [hx, ht.bytes, e1, accLen_elem hz]
  rw [hx', elemOf, accLen_elem hz, e4]
  split
  case isTrue hxv =>
    have hm := hw.gives_modSt (f := fun st => (zOnly true).put st) hs (FlagOut.put_legal hs.core.2.1)
    exact gives_bind (hm.mono fun _ a ha => gives_pure ⟨fun hne => absurd hxv hne, fun _ => ⟨rfl, ha⟩⟩)
  case isFalse hxv =>
    refine gives_bind ((hw.gives_setG hs hwi).mono ?_)
    rintro _ q ⟨_, hq, _⟩
    rw [e1] at hq
    exact gives_pure ⟨fun _ => ⟨rfl, hq⟩, fun he => absurd he hxv⟩

section
variable (h : s.Ready) (hs : s.core.slot = none) (hz : o.x.toNat / 2 % 4 ≠ 3) (hie : bitOf s.core.st.toNat 7 = false)
  {m : Nat} {x : Nat → Word} 
  (hsrc : ∀ k < (s.g 3).toNat, s.SramAt false (elemAddr o (s.g 1) k) (elemSize o))
  (hx : ∀ k, x k = wordOf (s.bytes (elemAddr o (s.g 1) k).toNat (elemSize o)))
include h hs hz hie hsrc hx

theorem scans_completes (hx8 : o.x.toNat < 8) (hm : m ≤ (s.g 3).toNat) (hne : ∀ k < m, x k ≠ BitVec.ofNat 32 ((s.g 4).toNat % 2 ^ (8 * elemSize o)))
    (heq : m < (s.g 3).toNat → x m = BitVec.ofNat 32 ((s.g 4).toNat % 2 ^ (8 * elemSize o))) :
    Completes (.scans o) s fun t =>
      s.Executed t (s.core.pc + 4) (afterElems o s true false m) ∧
      t.core.st = if (s.g 3).toNat = 0 then s.core.st else (zOnly (decide (m < (s.g 3).toNat))).put s.core.st := by
  have hend {st : Word} (hst : st = if (s.g 3).toNat = 0 then s.core.st else (zOnly (decide (m < (s.g 3).toNat))).put s.core.st) (t : State)
      (ht : (s.withSt st).Worked t (afterElems o s true false m) s.byte) :=
    Done.settles_ended (fun _ => false) (s := s) (st := st) (Q := fun w => s.Executed (latchEdges s w) (s.core.pc + 4)
        (afterElems o s true false m) ∧ (latchEdges s w).core.st = if (s.g 3).toNat = 0 then s.core.st
          else (zOnly (decide (m < (s.g 3).toNat))).put s.core.st)
      ht (fun _ _ => rfl) fun w he hst' hb => ⟨he.latched, hst'.trans hst⟩
  have h4 (k : Nat) : afterElems o s true false k 4 = s.g 4 := by simp [afterElems]
  have helem (p : State) (hp : s.Steady p) (k : Nat) (hk : k < (s.g 3).toNat) (t : State) (hti : t.Inv)
      (ht : s.Worked t (afterElems o s true false k)) :=
    scansElem_gives (p := p) (x := x k) hz h.inv hti ht hp (by rw [afterElems_src]; exact hsrc k hk)
      (by rw [hx, State.bytes_eq_bytesIn, afterElems_src])
  refine completes_str h hs (exec_scans o s) (strBad_false hz hx8) (fun h0 t ht => ?_) fun hn p hpi hp _ => ?_
  · have h0m : m = 0 := by omega
    exact hend (st := s.core.st) (by rw [if_pos h0]) t (by rw [h0m, afterElems_zero]; exact ht)
  refine gives_strLoop (s := s) (G := afterElems o s true false) (S := fun _ => s.core.st) (B := fun _ => s.byte)
    (n := (s.g 3).toNat) (m := m) h.inv (fun _ => h.inv.core.2.1) (fun _ _ => hie)
    (fun k _ => afterElems_count o s true false k) hm (fun k hk t hti ht => ?_)
    (fun t hti ht => ?_) m 0 (Nat.zero_add _) p hpi (by rw [afterElems_zero]; exact hp)
  · refine (helem p hp.steady k (by omega) t hti ht).mono fun e u hu => ?_
    rw [h4, afterElems_src, afterElems_read hz] at hu
    exact hu.1 (hne k hk)
  · by_cases hmn : m = (s.g 3).toNat
    · rw [show (s.g 3).toNat - m = 0 by omega]
      have hm := State.Worked.gives_modSt (s := s) (f := fun st => (zOnly false).put st) ht h.inv (FlagOut.put_legal h.inv.core.2.1)
      refine gives_bind (hm.mono fun _ a ha => gives_pure ⟨ha.noSample' h, hend ?_ a ha⟩)
      rw [if_neg hn, decide_eq_false (by omega)]
    · rw [show (s.g 3).toNat - m = (s.g 3).toNat - m - 1 + 1 by omega, strLoop]
      refine gives_bind ((helem p hp.steady m (by omega) t hti ht).monoInv hti fun e u hui hu => ?_)
      rw [h4] at hu
      obtain ⟨rfl, hw⟩ := hu.2 (heq (by omega))
      refine gives_bind (gives_perf.monoInv hui fun _ v hvi hn' => gives_pure ?_)
      have hv : (s.withSt ((zOnly true).put s.core.st)).Worked v _ s.byte := hw.noted hn'.1
      refine ⟨hv.noSample' h, hend ?_ v hv⟩
      rw [if_neg hn, decide_eq_true (by omega)]
end

/-! ### CRCS -/

/-- An element of CRCS. -/
def crcsElem (o : SpcOps) (p : State) : M Elem := do
  let s ← getS
  let size := sizeOf (strEsz o)
  match ← coreRead p size (s.g 1) with
  | .error c => return .stop c
  | .ok x =>
    elemCycles (accLen size) [s.g 1]
    setG 4 (BitVec.ofNat 32 ((leBytes (accLen size) x.toNat).foldl (crcsStep (strPoly o)) (s.g 4).toNat))
    setG 1 (strMove o (s.g 1))
    return .more

theorem exec_crcs (o : SpcOps) (s : State) : exec (.crcs o) s = cmd s (strInsn 4 o true (crcsElem o) nop) := rfl

/-- A step takes of what it has so far the bits a word has. -/
theorem crcsStep_mod (poly acc : Nat) (b : Byte) : crcsStep poly (acc % 2 ^ 32) b = crcsStep poly acc b := by
  match poly with
  | 0 => simp only [crcsStep, Nat.mod_mod]
  | 1 => simp only [crcsStep, Nat.mod_mod_of_dvd acc (show 2 ^ 16 ∣ 2 ^ 32 by decide)]
  | _ + 2 => simp only [crcsStep, Nat.mod_mod_of_dvd acc (show 2 ^ 8 ∣ 2 ^ 32 by decide)]

theorem foldl_crcsStep_word (poly acc : Nat) (l : List Byte) :
    BitVec.ofNat 32 (l.foldl (crcsStep poly) (BitVec.ofNat 32 acc).toNat) = BitVec.ofNat 32 (l.foldl (crcsStep poly) acc) := by
  cases l with
  | nil =>
    rw [List.foldl_nil, List.foldl_nil, BitVec.ofNat_toNat, BitVec.setWidth_eq]
  | cons b l => rw [List.foldl_cons, List.foldl_cons, BitVec.toNat_ofNat, crcsStep_mod]

/-- The CRC over the first `k` elements. -/
def crcElems (o : SpcOps) (s : State) (k : Nat) : Word :=
  BitVec.ofNat 32 (((List.range k).flatMap fun k => s.bytes (elemAddr o (s.g 1) k).toNat (elemSize o)).foldl
    (crcsStep (o.x.toNat / 8 % 4)) (s.g 4).toNat)

theorem crcElems_zero : crcElems o s 0 = s.g 4 := by simp [crcElems]

theorem crcElems_succ (k : Nat) : BitVec.ofNat 32 ((s.bytes (elemAddr o (s.g 1) k).toNat (elemSize o)).foldl
    (crcsStep (o.x.toNat / 8 % 4)) (crcElems o s k).toNat) = crcElems o s (k + 1) := by
  rw [crcElems, foldl_crcsStep_word, ← List.foldl_append, crcElems, List.range_succ, List.flatMap_append]
  simp

/-- The registers after `k` elements of CRCS. -/
def afterCrcs (o : SpcOps) (s : State) (k r : Nat) : Word := if r = 4 then crcElems o s k else afterElems o s true false k r

theorem afterCrcs_zero : afterCrcs o s 0 = s.g := by
  funext r
  rw [afterCrcs, afterElems_zero, crcElems_zero]
  split
  · rename_i h; rw [h]
  · rfl

theorem afterCrcs_succ (hz : o.x.toNat / 2 % 4 ≠ 3) (k : Nat) :
    regWith (regWith (afterCrcs o s k) 4 (crcElems o s (k + 1))) 1 (strMove o (elemAddr o (s.g 1) k)) =
      regWith (afterCrcs o s (k + 1)) 3 (afterCrcs o s k 3) := by
  rw [strMove_elemAddr hz]
  funext r
  by_cases h1 : r = 1
  · subst h1; simp [regWith, afterCrcs, afterElems]
  · by_cases h3 : r = 3
    · subst h3; simp [regWith, afterCrcs, afterElems]
    · by_cases h4 : r = 4
      · subst h4; simp [regWith, afterCrcs]
      · simp [regWith, afterCrcs, afterElems, h1, h3, h4]

theorem crcs_completes (h : s.Ready) (hs : s.core.slot = none) (hz : o.x.toNat / 2 % 4 ≠ 3) (hie : bitOf s.core.st.toNat 7 = false)
    (hsrc : ∀ k < (s.g 3).toNat, s.SramAt false (elemAddr o (s.g 1) k) (elemSize o)) (hx24 : o.x.toNat < 24) :
    Completes (.crcs o) s fun t => s.Executed t (s.core.pc + 4) (afterCrcs o s (s.g 3).toNat) ∧ t.core.st = s.core.st := by
  have hle : elemSize o ≤ 4 := by rcases elemSize_cases hz with e | e | e <;> omega
  have hend (t : State) (ht : s.Worked t (afterCrcs o s (s.g 3).toNat)) :=
    Done.settles_ended (fun _ => false) (s := s) (st := s.core.st) (Q := fun w => s.Executed (latchEdges s w) (s.core.pc + 4)
        (afterCrcs o s (s.g 3).toNat) ∧ (latchEdges s w).core.st = s.core.st)
      ht (fun _ _ => rfl) fun w he hst hb => ⟨he.latched, hst⟩
  refine completes_str h hs (exec_crcs o s) (strBad_false hz hx24) (fun h0 t ht => hend t ?_) fun hn p hpi hp _ => ?_
  · rw [h0, afterCrcs_zero]; exact ht
  refine gives_strLoop (s := s) (G := afterCrcs o s) (S := fun _ => s.core.st) (B := fun _ => s.byte)
    (n := (s.g 3).toNat) (m := (s.g 3).toNat) h.inv (fun _ => h.inv.core.2.1) (fun _ _ => hie)
    (fun k _ => afterElems_count o s true false k) (Nat.le_refl _) (fun k hk t hti ht => ?_)
    (fun t hti ht => ?_) (s.g 3).toNat 0 (Nat.zero_add _) p hpi (by rw [afterCrcs_zero]; exact hp)
  · have hst : s.Worked t (afterCrcs o s k) := ht
    have e1 : t.g 1 = elemAddr o (s.g 1) k := hst.regs 1
    have e4 : t.g 4 = crcElems o s k := hst.regs 4
    have h1 : s.SramAt false (t.g 1) (accLen (sizeOf (strEsz o))) := by rw [e1, accLen_elem hz]; exact hsrc k hk
    refine gives_bind (gives_getS (gives_bind ((gives_coreRead_sram (hst.steady.sramAt h1) (hp.steady.sramAt h1)).monoInv hti ?_)))
    rintro _ u hui ⟨rfl, hu⟩
    refine gives_bind ((gives_elemCycles_sram hui fun a ha => ?_).monoInv hui fun _ w hwi hwt => ?_)
    · rw [List.mem_singleton.mp ha]
      exact h1.range
    have hcrc : BitVec.ofNat 32 ((leBytes (accLen (sizeOf (strEsz o))) (wordOf (t.bytes (t.g 1).toNat (accLen (sizeOf (strEsz o))))).toNat).foldl
        (crcsStep (strPoly o)) (t.g 4).toNat) = crcElems o s (k + 1) := by
      rw [hst.bytes, accLen_elem hz, leBytes_wordOf (bytesIn_length _ _ _) hle, e1, e4, strPoly, ← State.bytes_eq_bytesIn]
      exact crcElems_succ k
    rw [hcrc, e1]
    refine gives_bind ((((hst.checked hu).ticked hwt).gives_setG h.inv hwi).mono ?_)
    rintro _ q ⟨hqi, hq, _⟩
    refine gives_bind ((hq.gives_setG h.inv hqi).mono ?_)
    rintro _ y ⟨_, hy, _⟩
    rw [afterCrcs_succ hz] at hy
    exact gives_pure ⟨rfl, hy⟩
  · rw [Nat.sub_self]
    exact gives_bind (gives_nop (gives_pure ⟨State.Worked.noSample (s := s) ht h, hend t ht⟩))

/-- Settles O13: each string instruction that only reads is its loop, element by element. -/
theorem stringCompares : Obligations.StringCompares := by
  intro o s h hs hz hie z n src dst x y v hsrc
  refine ⟨fun hx8 hdst m hm heq hne => ?_, fun hx8 m hm hne heq => ?_, fun hx24 => ?_⟩
  · obtain ⟨t, he, hex, hst⟩ := cmps_completes (x := x) (y := y) h hs hz hie hx8 hm hsrc (fun _ => rfl) hdst (fun _ => rfl) heq hne
    have hregs : afterElems o s true true m = fun r => if r = 1 then src m else if r = 2 then dst m
        else if r = 3 then BitVec.ofNat 32 (n - m) else s.g r := by
      funext r
      rw [afterElems, sub_ofNat_toNat hm]
      simp [src, dst, n]
    rw [hregs] at hex
    refine ⟨t, he, hex, ?_⟩
    have hlow (k : Nat) (i : Nat) (hi : i < 28) := cmpsSt_low s x y s.core.st k hi
    by_cases hn : n = 0
    · rw [if_pos hn, hst, if_pos (show m = n by omega), show m = 0 by omega]
      rfl
    · rw [if_neg hn]
      by_cases hmn : m = n
      · rw [if_pos hmn]
        obtain ⟨k, rfl⟩ : ∃ k, m = k + 1 := ⟨m - 1, by omega⟩
        rw [if_pos hmn] at hst
        refine FlagOut.put_flags_of_low ?_ hst (hlow k)
        rw [subOp_one, heq k (by omega)]
        simp [outside32]
      · rw [if_neg hmn]
        rw [if_neg hmn] at hst
        refine FlagOut.put_flags_of_low ?_ hst (hlow m)
        rw [subOp_one]
        have hxy : (x m - y m == 0) = false := by
          have := hne (by omega)
          simp only [beq_eq_false_iff_ne, ne_eq]
          intro h0
          exact this (sub_eq_zero.mp h0)
        rw [hxy]
  · obtain ⟨t, he, hex, hst⟩ := scans_completes (x := x) h hs hz hie hsrc (fun _ => rfl) hx8 hm hne heq
    have hregs : afterElems o s true false m = fun r => if r = 1 then src m 
        else if r = 3 then BitVec.ofNat 32 (n - m) else s.g r := by
      funext r
      rw [afterElems, sub_ofNat_toNat hm]
      simp [src, n]
    rw [hregs] at hex
    refine ⟨t, he, hex, ?_⟩
    by_cases hn : n = 0
    · rw [if_pos hn, hst, if_pos hn]
    · rw [if_neg hn]
      rw [if_neg hn] at hst
      exact FlagOut.put_flags _ s t hst
  · obtain ⟨t, he, hex, hst⟩ := crcs_completes h hs hz hie hsrc hx24
    have hregs : afterCrcs o s n = fun r => if r = 1 then src n else if r = 3 then 0
            else if r = 4 ∧ n ≠ 0 then
              BitVec.ofNat 32 (((List.range n).flatMap fun k => s.bytes (src k).toNat z).foldl (crcsStep (o.x.toNat / 8 % 4)) (s.g 4).toNat)
            else s.g r := by
      funext r
      rw [afterCrcs, afterElems_all]
      by_cases h4 : r = 4
      · subst h4
        by_cases hn : n = 0
        · simp [hn, crcElems_zero]
        · simp [hn, crcElems, src, z, elemSize]
      · simp [h4, src, n]
    rw [← hregs]
    exact ⟨t, he, hex, hst⟩

end Sys2Proof.Machine
end

section
/-!
Faults reported: FLT's bit as a field that is put (R305).
-/
namespace Sys2Proof.Machine
open Sys2Proof.Reg

variable {s t u : State} {F : Foot} {l : List (Fld × Nat)} {noted : List Nat} {p b : Nat}

/-! ### What a register's change leaves, as rewriting steps: no proof then compares the register files -/

@[simp] theorem State.dev_put (s : State) (f : Fld) (n : Nat) : (s.put f n).dev = s.dev := (rfl)
@[simp] theorem State.core_put (s : State) (f : Fld) (n : Nat) : (s.put f n).core = s.core := (rfl)
@[simp] theorem State.events_put (s : State) (f : Fld) (n : Nat) : (s.put f n).events = s.events := (rfl)
@[simp] theorem State.dev_putReg (s : State) (a : Nat) (v : Word) : (s.putReg a v).dev = s.dev := (rfl)
@[simp] theorem State.core_putReg (s : State) (a : Nat) (v : Word) : (s.putReg a v).core = s.core := (rfl)
@[simp] theorem State.events_putReg (s : State) (a : Nat) (v : Word) : (s.putReg a v).events = s.events := (rfl)

/-! ### A fault -/

theorem or_bit_eq_bitsPut (w : Word) {b : Nat} (hb : b < 32) : w ||| BitVec.ofNat 32 (2 ^ b) = bitsPut w b b 1 := by
  refine BitVec.eq_of_toNat_eq (Nat.eq_of_testBit_eq fun i => ?_)
  by_cases hi : i < 32
  · rw [BitVec.toNat_or, Nat.testBit_or, BitVec.toNat_ofNat, Nat.testBit_mod_two_pow, bitsPut_testBit _ _ _ _ _ (Nat.le_refl b) hi,
      Nat.testBit_two_pow]
    by_cases h : i = b
    · subst h; simp [hb]
    · rw [if_neg (by omega)]
      simp [show ¬ b = i from fun e => h e.symm]
  · rw [testBit_of_le (by omega), testBit_of_le (by omega)]

/-- A fault set is its bit put, its event's counts aside. -/
theorem setFlt_put (s : State) (p : Nat) (hb : b < 32) : State.Noted (perfRegs p) (s.put (fltBit p b) 1) ((setFlt p b).run s) := by
  refine M.Gives.run (P := State.Noted (perfRegs p) (s.put (fltBit p b) 1))
    (gives_bind (gives_bind (gives_getS (gives_pure (gives_bind (gives_wr (gives_emitNow.mono ?_)))))))
  rintro _ t ⟨ht, _⟩
  rw [or_bit_eq_bitsPut _ hb] at ht
  exact ht

theorem State.Sets.setFlt (h : s.Sets t l noted F) (ht : t.Inv) (hf : (fltBit p b).Full)
    (hr : resetWord (FLT p) &&& BitVec.ofNat 32 (maskOf (FLT p)) = resetWord (FLT p))
    (hn : ∀ a ∈ perfRegs p, F.regs a = true ∨ a ∈ noted) : s.Sets ((Machine.setFlt p b).run t) (l ++ [(fltBit p b, 1)]) noted F :=
  (h.put ht hf hr 1).step ((setFlt_put t p hf.2.1).within.of_onlyRegs fun a ha => by simpa using hn a ha)

/-- A page of the clusters that has FLT reports a fault. -/
theorem reports_setFlt (h : s.Inv) (hf : (fltBit p b).Full)
    (hr : resetWord (FLT p) &&& BitVec.ofNat 32 (maskOf (FLT p)) = resetWord (FLT p)) : s.Reports ((setFlt p b).run s) p b :=
  State.sets_refl.setFlt h hf hr fun _ => .inr

theorem State.Reports.latch (h : s.Reports t p b) : s.Reports (latchEdges u t) p b := State.Sets.latch h

theorem State.Sets.live (h : s.Sets t l noted F) {f : Dev → Dev} (hk : (f t.dev).keys = t.dev.keys) : s.Sets (t.live f) l noted F :=
  h.step (State.within_live t hk)

theorem State.Sets.perf (h : s.Sets t l noted F) {e n : Nat} (hn : ∀ a ∈ perfRegs p, F.regs a = true ∨ a ∈ noted) :
    s.Sets ((Machine.perf p e n).run t) l noted F :=
  h.step ((perf_noted t p e n).within.of_onlyRegs fun a ha => by simpa using hn a ha)

/-! ### Events that no latch holds up (R319) -/

theorem emit_unlatched (s : State) (p : Nat) {e : Nat} (h : latchOf e = none) :
    State.Noted (perfRegs p) s ((emit p e).run s) ∧ ((emit p e).run s).events = s.events ++ [e] := by
  refine M.Gives.run (P := fun t => State.Noted (perfRegs p) s t ∧ t.events = s.events ++ [e]) (gives_bind (gives_getS ?_))
  rw [if_neg (by simp [State.latchFull, h])]
  exact gives_emitNow

theorem State.Sets.emit (h : s.Sets t l noted F) {e : Nat} (he : latchOf e = none) (hn : ∀ a ∈ perfRegs p, F.regs a = true ∨ a ∈ noted) :
    s.Sets ((Machine.emit p e).run t) l noted F :=
  h.step ((emit_unlatched t p he).1.within.of_onlyRegs fun a ha => by simpa using hn a ha)

theorem emit_events {e : Nat} (h : latchOf e = none) : ((emit p e).run s).events = s.events ++ [e] := (emit_unlatched s p h).2
theorem emit_unlatched_dev {e : Nat} (h : latchOf e = none) : ((emit p e).run s).dev = s.dev := (emit_unlatched s p h).1.dev

/-! ### A register written whole -/

theorem bitsPut_whole (w v : Word) : bitsPut w 31 0 v.toNat = v := by
  refine BitVec.eq_of_toNat_eq (Nat.eq_of_testBit_eq fun i => ?_)
  by_cases hi : i < 32
  · rw [bitsPut_testBit _ _ _ _ _ (by decide) hi, if_pos (by omega), Nat.sub_zero]
  · rw [testBit_of_le (by omega), testBit_of_le (by omega)]

theorem State.reg_putReg_whole {a : Nat} {v : Word} (h : BitVec.ofNat 32 (maskOf a) = BitVec.allOnes 32) : (s.putReg a v).reg a = v := by
  rw [State.reg_putReg_same, h, BitVec.and_allOnes]

/-- The write of a register whose bits can all be written. -/
theorem State.Sets.wr (h : s.Sets t l noted F) {a : Nat} {v : Word} (hm : BitVec.ofNat 32 (maskOf a) = BitVec.allOnes 32) :
    s.Sets (t.putReg a v) (l ++ [(⟨a, 31, 0⟩, v.toNat)]) noted F := by
  refine ⟨fun b hn hF => ?_, (State.within_putReg_iff rfl).mpr h.rest⟩
  have hafter : s.after (l ++ [(⟨a, 31, 0⟩, v.toNat)]) b = if a = b then bitsPut (s.after l b) 31 0 v.toNat else s.after l b := by
    simp [State.after, List.foldl_append]
  rw [hafter]
  by_cases hb : a = b
  · subst hb
    rw [if_pos rfl, State.reg_putReg_whole hm, bitsPut_whole]
  · rw [if_neg hb, State.reg_putReg_other _ (Ne.symm hb), h.regs b hn hF]

/-- The write of a register that is noted. -/
theorem State.Sets.wr_noted (h : s.Sets t l noted F) {a : Nat} {v : Word} (hn : a ∈ noted) : s.Sets (t.putReg a v) l noted F :=
  h.step (State.within_putReg (by simp [hn]))

/-! ### What a command has set so far -/

/-- A field whose bits exist, in a register that resets to bits it has: it can be put in any state of the invariant. -/
def Fld.settable (f : Fld) : Bool :=
  decide (f.lo ≤ f.hi) && decide (f.hi < 32) && (bitsGet (BitVec.ofNat 32 (maskOf f.addr)) f.hi f.lo == 2 ^ (f.hi - f.lo + 1) - 1) &&
    (resetWord f.addr &&& BitVec.ofNat 32 (maskOf f.addr) == resetWord f.addr)

theorem Fld.full_of_settable {f : Fld} (h : f.settable = true) : f.Full := by
  simp only [Fld.settable, Bool.and_eq_true, decide_eq_true_eq, beq_iff_eq] at h
  exact ⟨h.1.1.1, h.1.1.2, h.1.2⟩

theorem Fld.reset_of_settable {f : Fld} (h : f.settable = true) :
    resetWord f.addr &&& BitVec.ofNat 32 (maskOf f.addr) = resetWord f.addr := by
  simp only [Fld.settable, Bool.and_eq_true, decide_eq_true_eq, beq_iff_eq] at h
  exact h.2

/-- On the way of a command from `s`: the fields set so far, in a state of the invariant. -/
structure State.Did (s t : State) (l : List (Fld × Nat)) (noted : List Nat := []) (F : Foot := {}) : Prop where
  inv : t.Inv
  sets : s.Sets t l noted F

theorem did_refl (h : s.Inv) : s.Did s [] noted F := ⟨h, State.sets_refl⟩

section
variable (h : s.Did t l noted F)
include h
theorem State.Did.put {f : Fld} (hf : f.settable = true) (v : Nat) : s.Did (t.put f v) (l ++ [(f, v)]) noted F :=
  ⟨h.inv.put _ _, h.sets.put h.inv (Fld.full_of_settable hf) (Fld.reset_of_settable hf) v⟩
theorem State.Did.put_noted {f : Fld} (hf : F.regs f.addr = true ∨ f.addr ∈ noted) (v : Nat) : s.Did (t.put f v) l noted F :=
  ⟨h.inv.put _ _, h.sets.step (State.within_put v (by simpa using hf))⟩
theorem State.Did.wr {a : Nat} {v : Word} (hm : maskOf a = 0xFFFFFFFF) : s.Did (t.putReg a v) (l ++ [(⟨a, 31, 0⟩, v.toNat)]) noted F :=
  ⟨h.inv.putReg _ _, h.sets.wr (by rw [hm]; rfl)⟩
theorem State.Did.wr_noted {a : Nat} {v : Word} (hn : F.regs a = true ∨ a ∈ noted) : s.Did (t.putReg a v) l noted F :=
  ⟨h.inv.putReg _ _, h.sets.step (State.within_putReg (by simpa using hn))⟩
theorem State.Did.live {f : Dev → Dev} (hk : (f t.dev).keys = t.dev.keys) : s.Did (t.live f) l noted F :=
  ⟨h.inv.live _, h.sets.live hk⟩
theorem State.Did.counted (p i w v : Nat) : s.Did (t.counted p i w v) l noted F := ⟨h.inv.counted _ _ _ _, h.sets.live rfl⟩
theorem State.Did.setFlt {p b : Nat} (hf : (fltBit p b).settable = true) (hn : ∀ a ∈ perfRegs p, F.regs a = true ∨ a ∈ noted) :
    s.Did ((Machine.setFlt p b).run t) (l ++ [(fltBit p b, 1)]) noted F :=
  ⟨h.inv.run _, h.sets.setFlt h.inv (Fld.full_of_settable hf) (Fld.reset_of_settable hf) hn⟩
theorem State.Did.setFlt_noted {p b : Nat} (hn : ∀ a ∈ evRegs p, F.regs a = true ∨ a ∈ noted) : s.Did ((Machine.setFlt p b).run t) l noted F :=
  ⟨h.inv.run _, h.sets.step ((Machine.setFlt_noted t p b).within.of_onlyRegs fun a ha => by simpa using hn a ha)⟩
theorem State.Did.perf {p e n : Nat} (hn : ∀ a ∈ perfRegs p, F.regs a = true ∨ a ∈ noted) : s.Did ((Machine.perf p e n).run t) l noted F :=
  ⟨h.inv.run _, h.sets.perf hn⟩
theorem State.Did.emit {p e : Nat} (he : latchOf e = none) (hn : ∀ a ∈ perfRegs p, F.regs a = true ∨ a ∈ noted) :
    s.Did ((Machine.emit p e).run t) l noted F := ⟨h.inv.run _, h.sets.emit he hn⟩
theorem State.Did.emit_noted {p e : Nat} (hn : ∀ a ∈ evRegs p, F.regs a = true ∨ a ∈ noted) : s.Did ((Machine.emit p e).run t) l noted F :=
  ⟨h.inv.run _, h.sets.step ((Machine.emit_noted t p e).1.of_onlyRegs fun a ha => by simpa using hn a ha)⟩
theorem State.Did.recore {f : Core → Core} (hF : F.core = true) : s.Did (t.recore f) l noted F :=
  ⟨Prim.run_inv _ _ h.inv, h.sets.step (by rw [State.within_recore_iff (by exact hF)]; exact t.within_refl _)⟩
/-! The same steps, the values left to be found. -/
theorem State.Did.puts {f : Fld} {v : Nat} (hf : f.settable = true) : s.Did (t.put f v) (l ++ [(f, v)]) noted F := h.put hf v
theorem State.Did.notes {f : Fld} {v : Nat} (hf : F.regs f.addr = true ∨ f.addr ∈ noted) : s.Did (t.put f v) l noted F :=
  h.put_noted hf v
theorem State.Did.wrote {a : Nat} {v : Word} (hm : maskOf a = 0xFFFFFFFF) :
    s.Did (t.putReg a v) (l ++ [(⟨a, 31, 0⟩, v.toNat)]) noted F := h.wr hm
theorem State.Did.lived {f : Dev → Dev} (hk : (f t.dev).keys = t.dev.keys) : s.Did (t.live f) l noted F := h.live hk
theorem State.Did.emits {p e : Nat} (he : latchOf e = none)
    (hn : ∀ a ∈ perfRegs p, F.regs a = true ∨ a ∈ noted) : s.Did ((Machine.emit p e).run t) l noted F := h.emit he hn
/-- What is shown of the command's end. -/
theorem State.Did.latched (u : State) : s.Sets (latchEdges u t) l noted F := h.sets.latch
end

end Sys2Proof.Machine
end

section
/-!
The latching of edges, field by field of the units' live state: it touches the edge latches alone (R262).
-/
namespace Sys2Proof.Machine

variable (s t : State)

@[simp] theorem latchEdges_flash : (latchEdges s t).dev.flash = t.dev.flash := (rfl)
@[simp] theorem latchEdges_xspi : (latchEdges s t).dev.xspi = t.dev.xspi := (rfl)
@[simp] theorem latchEdges_dma : (latchEdges s t).dev.dma = t.dev.dma := (rfl)
@[simp] theorem latchEdges_rigger : (latchEdges s t).dev.rigger = t.dev.rigger := (rfl)
@[simp] theorem latchEdges_st : (latchEdges s t).dev.st = t.dev.st := (rfl)
@[simp] theorem latchEdges_lt : (latchEdges s t).dev.lt = t.dev.lt := (rfl)
@[simp] theorem latchEdges_rtc : (latchEdges s t).dev.rtc = t.dev.rtc := (rfl)
@[simp] theorem latchEdges_time : (latchEdges s t).dev.time = t.dev.time := (rfl)
@[simp] theorem latchEdges_supply : (latchEdges s t).dev.supply = t.dev.supply := (rfl)
@[simp] theorem latchEdges_pwr : (latchEdges s t).dev.pwr = t.dev.pwr := (rfl)
@[simp] theorem latchEdges_gov : (latchEdges s t).dev.gov = t.dev.gov := (rfl)
@[simp] theorem latchEdges_radio : (latchEdges s t).dev.radio = t.dev.radio := (rfl)
@[simp] theorem latchEdges_duty : (latchEdges s t).dev.duty = t.dev.duty := (rfl)
@[simp] theorem latchEdges_lanes : (latchEdges s t).dev.lanes = t.dev.lanes := (rfl)
@[simp] theorem latchEdges_gain : (latchEdges s t).dev.gain = t.dev.gain := (rfl)
@[simp] theorem latchEdges_tx : (latchEdges s t).dev.tx = t.dev.tx := (rfl)
@[simp] theorem latchEdges_keys : (latchEdges s t).dev.keys = t.dev.keys := (rfl)
@[simp] theorem latchEdges_ciph : (latchEdges s t).dev.ciph = t.dev.ciph := (rfl)
@[simp] theorem latchEdges_samp : (latchEdges s t).dev.samp = t.dev.samp := (rfl)
@[simp] theorem latchEdges_flood : (latchEdges s t).dev.flood = t.dev.flood := (rfl)
@[simp] theorem latchEdges_cells : (latchEdges s t).dev.cells = t.dev.cells := (rfl)
@[simp] theorem latchEdges_heat : (latchEdges s t).dev.heat = t.dev.heat := (rfl)
@[simp] theorem latchEdges_tally : (latchEdges s t).dev.tally = t.dev.tally := (rfl)
@[simp] theorem latchEdges_peerWr : (latchEdges s t).dev.peerWr = t.dev.peerWr := (rfl)
@[simp] theorem latchEdges_coxLoad : (latchEdges s t).dev.coxLoad = t.dev.coxLoad := (rfl)
@[simp] theorem latchEdges_bowLoad : (latchEdges s t).dev.bowLoad = t.dev.bowLoad := (rfl)
@[simp] theorem latchEdges_dali : (latchEdges s t).dev.dali = t.dev.dali := (rfl)
@[simp] theorem latchEdges_uart : (latchEdges s t).dev.uart = t.dev.uart := (rfl)
@[simp] theorem latchEdges_adc : (latchEdges s t).dev.adc = t.dev.adc := (rfl)
@[simp] theorem latchEdges_gpIn : (latchEdges s t).dev.gpIn = t.dev.gpIn := (rfl)
@[simp] theorem latchEdges_pads : (latchEdges s t).dev.pads = t.dev.pads := (rfl)
@[simp] theorem latchEdges_sys : (latchEdges s t).dev.sys = t.dev.sys := (rfl)
@[simp] theorem latchEdges_otpc : (latchEdges s t).dev.otpc = t.dev.otpc := (rfl)
@[simp] theorem latchEdges_otpBad : (latchEdges s t).dev.otpBad = t.dev.otpBad := (rfl)
@[simp] theorem latchEdges_mon : (latchEdges s t).dev.mon = t.dev.mon := (rfl)
@[simp] theorem latchEdges_xseq : (latchEdges s t).dev.xseq = t.dev.xseq := (rfl)
@[simp] theorem latchEdges_hostp : (latchEdges s t).dev.hostp = t.dev.hostp := (rfl)
@[simp] theorem latchEdges_evLost : (latchEdges s t).dev.evLost = t.dev.evLost := (rfl)
@[simp] theorem latchEdges_staged : (latchEdges s t).dev.staged = t.dev.staged := (rfl)
@[simp] theorem latchEdges_eccOne : (latchEdges s t).dev.eccOne = t.dev.eccOne := (rfl)
@[simp] theorem latchEdges_eccBad : (latchEdges s t).dev.eccBad = t.dev.eccBad := (rfl)
@[simp] theorem latchEdges_parity : (latchEdges s t).dev.parity = t.dev.parity := (rfl)
@[simp] theorem latchEdges_mbx : (latchEdges s t).dev.mbx = t.dev.mbx := (rfl)
@[simp] theorem latchEdges_resetting : (latchEdges s t).dev.resetting = t.dev.resetting := (rfl)
@[simp] theorem latchEdges_gates : (latchEdges s t).dev.gates = t.dev.gates := (rfl)
@[simp] theorem latchEdges_ctr : (latchEdges s t).dev.ctr = t.dev.ctr := (rfl)
@[simp] theorem latchEdges_intc_soft : (latchEdges s t).dev.intc.soft = t.dev.intc.soft := (rfl)
@[simp] theorem latchEdges_ctr_read (p i w : Nat) : (latchEdges s t).ctr p i w = t.ctr p i w := (rfl)
@[simp] theorem latchEdges_radioState : (latchEdges s t).radio = t.radio := (rfl)

end Sys2Proof.Machine
end

section
/-!
The frame buffer's cells: chains allocated, released and revoked (R124–R128, R158).
-/
namespace Sys2Proof.Machine
open Sys2Proof.Reg

variable {s t u : State}

/-! ### What changes cells alone -/

/-- From `s` to `t` the cells alone have changed, and which free choice comes next. -/
structure State.CellsOnly (s t : State) : Prop where
  dev : t.dev = { s.dev with cells := t.dev.cells }
  within : ∀ F : Foot, s.Within F t

theorem State.cellsOnly_refl (s : State) : s.CellsOnly s := ⟨rfl, s.within_refl⟩
theorem State.CellsOnly.trans (h : s.CellsOnly t) (g : t.CellsOnly u) : s.CellsOnly u :=
  ⟨by rw [g.dev, h.dev], fun F => (h.within F).trans (g.within F)⟩

theorem State.CellsOnly.reg (h : s.CellsOnly t) (a : Nat) : t.reg a = s.reg a := (h.within {}).regs a rfl
theorem State.CellsOnly.core (h : s.CellsOnly t) : t.core = s.core := (h.within {}).core rfl
theorem State.CellsOnly.fld (h : s.CellsOnly t) (f : Fld) : t.fld f = s.fld f := by rw [State.fld, h.reg, State.fld]
theorem State.CellsOnly.bit (h : s.CellsOnly t) (f : Fld) : t.bit f = s.bit f := by rw [State.bit, h.fld, State.bit]

theorem gives_setCell {c : Nat} {v : Cell} : (setCell c v).Gives s fun _ t => s.CellsOnly t ∧ ∀ x, t.cell x = if x = c then v else s.cell x := by
  refine gives_act ⟨⟨rfl, fun F => State.within_live s rfl⟩, fun x => ?_⟩
  simp only [State.cell, Sparse.val, Prim.run_dev_dev]
  split
  case isTrue h => rw [h, Sparse.get_set_same]
  case isFalse h => rw [Sparse.get_set_other _ _ _ _ _ h]

theorem State.cell_congr (h : t.dev.cells = s.dev.cells) (x : Nat) : t.cell x = s.cell x := by rw [State.cell, h, State.cell]
@[simp] theorem latchEdges_cell (x : Nat) : (latchEdges s t).cell x = t.cell x := State.cell_congr (latchEdges_cells s t) x
@[simp] theorem State.put_cell (f : Fld) (v x : Nat) : (s.put f v).cell x = s.cell x := State.cell_congr (by rw [State.put_dev]) x
@[simp] theorem State.putReg_cell (a : Nat) (v : Word) (x : Nat) : (s.putReg a v).cell x = s.cell x :=
  State.cell_congr (by rw [State.putReg_dev]) x

/-- Cells changed one after the other, each as the state before them all says: one that comes twice is changed as once. -/
theorem gives_forAll_cells {f : Nat → M Unit} {g : Nat → Cell} {p : Nat → Cell → Prop} {l : List Nat}
    (hf : ∀ c ∈ l, ∀ t : State, s.CellsOnly t → p c (t.cell c) → (f c).Gives t fun _ u => t.CellsOnly u ∧
      ∀ x, u.cell x = if x = c then g c else t.cell x)
    (hp : ∀ c ∈ l, p c (s.cell c)) (hg : ∀ c ∈ l, p c (g c)) :
    (forAll l f).Gives s fun _ t => s.CellsOnly t ∧ ∀ x, t.cell x = if x ∈ l then g x else s.cell x := by
  suffices h : ∀ (l' : List Nat) (t : State), (∀ c ∈ l', c ∈ l) → s.CellsOnly t → (∀ c ∈ l', p c (t.cell c)) →
      (forAll l' f).Gives t fun _ u => s.CellsOnly u ∧ ∀ x, u.cell x = if x ∈ l' then g x else t.cell x from
    h l s (fun _ hc => hc) s.cellsOnly_refl hp
  intro l'
  induction l' with
  | nil => exact fun t _ ht _ => gives_nop ⟨ht, fun x => by simp⟩
  | cons c l' ih =>
    intro t hl ht hpt
    refine gives_bind ((hf c (hl c (by simp)) t ht (hpt c (by simp))).mono fun _ u ⟨hu, hc⟩ => ?_)
    refine (ih u (fun d hd => hl d (by simp [hd])) (ht.trans hu) fun d hd => ?_).mono fun _ v ⟨hv, hx⟩ => ⟨hv, fun x => ?_⟩
    · rw [hc]
      split
      case isTrue h => rw [h]; exact hg c (hl c (by simp))
      case isFalse => exact hpt d (by simp [hd])
    · rw [hx, hc]
      by_cases h1 : x ∈ l'
      · simp [h1]
      · by_cases h2 : x = c
        · subst h2; simp [h1]
        · simp [h1, h2]

/-! ### Release -/

/-- A cell let go is so still when it is let go again. -/
theorem gives_releaseCell {c : Nat} {v : Cell} (h : t.cell c = v ∨ t.cell c = if v.hold then { v with owner := ownLink } else {}) :
    (releaseCell c).Gives t fun _ u => t.CellsOnly u ∧
      ∀ x, u.cell x = if x = c then if v.hold then { v with owner := ownLink } else {} else t.cell x := by
  refine gives_bind (gives_getS ?_)
  by_cases hv : v.hold = true
  · have hh : (t.cell c).hold = true := by rcases h with h | h <;> simp [h, hv]
    have he : { t.cell c with owner := ownLink } = { v with owner := ownLink } := by rcases h with h | h <;> simp [h, hv]
    rw [if_pos hh, if_pos hv, he]
    exact gives_setCell
  · have hh : (t.cell c).hold = false := by rcases h with h | h <;> simp [h, hv]
    rw [if_neg (by simp [hh]), if_neg hv]
    exact gives_setCell

theorem gives_releaseCells (s : State) (l : List Nat) :
    (releaseCells l).Gives s fun _ t => s.CellsOnly t ∧ ∀ x, t.cell x = if x ∈ l then s.letGo x else s.cell x :=
  gives_forAll_cells (g := s.letGo) (p := fun c v => v = s.cell c ∨ v = s.letGo c) (fun _ _ _ _ hc => gives_releaseCell hc)
    (fun _ _ => .inl rfl) (fun _ _ => .inr rfl)

theorem chainFree_completes {v : Word} (hc : (s.cell (bitsGet v 8 0)).owner = ownCore) :
    Completes (.chainFree v) s fun t =>
      (∀ x, t.cell x = if x ∈ s.chainFrom 512 (bitsGet v 8 0) ∧ (s.cell x).owner = ownCore then s.letGo x else s.cell x) ∧
        s.Within {} t := by
  refine completes_cmd rfl (gives_bind (gives_getS ?_))
  rw [if_pos hc]
  refine (gives_releaseCells s _).mono fun _ t ⟨ht, hx⟩ => ⟨fun x => (hx x).trans ?_, (ht.within {}).latch⟩
  simp

theorem chainFree_refused {v : Word} (hi : s.Inv) (hc : (s.cell (bitsGet v 8 0)).owner ≠ ownCore) :
    Completes (.chainFree v) s fun t => t.dev.cells = s.dev.cells ∧ s.Reports t fbufPage fltState := by
  refine completes_run (m := fbufFree v) rfl ?_
  simp only [fbufFree, run_getS, if_neg hc]
  refine ⟨by rw [latchEdges_dev, setFlt_dev], (reports_setFlt hi ⟨by decide, by decide, by decide⟩ (by decide)).latch⟩

/-! ### Allocation -/

/-- The cells picked are distinct ones of the list, and nothing else has happened. -/
theorem gives_pickCells : ∀ (n : Nat) (l : List Nat) (s : State), l.Nodup → n ≤ l.length →
    (pickCells n l).Gives s fun r t => s.CellsOnly t ∧ t.dev = s.dev ∧ r.length = n ∧ r.Nodup ∧ ∀ x ∈ r, x ∈ l := by
  intro n
  induction n with
  | zero => exact fun l s _ _ => gives_pure ⟨s.cellsOnly_refl, rfl, rfl, List.nodup_nil, by simp⟩
  | succ n ih =>
    intro l s hl hn
    refine gives_bind (gives_bind (gives_getS (gives_bind (gives_act (gives_pure ?_)))))
    have hb : s.CellsOnly (Prim.run .bump s) := ⟨rfl, fun F =>
      ⟨fun _ _ => rfl, fun _ _ => rfl, fun _ _ _ => by simp, fun _ _ => rfl, fun _ => rfl, fun _ => rfl, fun _ => rfl, rfl⟩⟩
    generalize hi : Config.freeNat s.free % l.length = i
    have hlt : i < l.length := hi ▸ Nat.mod_lt _ (by omega)
    have hget : l.getD i 0 = l[i] := List.getD_eq_getElem _ _ hlt
    have hmem : l[i] ∈ l := List.getElem_mem hlt
    rw [hget]
    refine gives_bind ((ih (l.erase l[i]) _ (hl.erase _) ?_).mono ?_)
    · rw [List.length_erase_of_mem hmem]; omega
    rintro r t ⟨ht, htd, hr, hrn, hrl⟩
    refine gives_pure ⟨hb.trans ht, htd, by simp [hr], List.nodup_cons.mpr ⟨fun h => ?_, hrn⟩, ?_⟩
    · exact hl.not_mem_erase (hrl _ h)
    · simp only [List.mem_cons]
      rintro x (rfl | hx)
      · exact hmem
      · exact List.mem_of_mem_erase (hrl x hx)

/-- What linking makes of a cell of a list. -/
def linked (owner pool : Nat) (hold : Bool) : List Nat → Nat → Option Cell
  | [], _ => none
  | [c], x => if x = c then some { owner := owner, pool := pool, next := 0, last := true, hold := hold } else none
  | c :: d :: l, x => if x = c then some { owner := owner, pool := pool, next := d, last := false, hold := hold }
    else linked owner pool hold (d :: l) x

theorem linked_none {owner pool : Nat} {hold : Bool} {x : Nat} : ∀ {l : List Nat}, x ∉ l → linked owner pool hold l x = none
  | [], _ => rfl
  | [c], h => if_neg (by simpa using h)
  | c :: d :: l, h => by
    rw [List.mem_cons, not_or] at h
    rw [linked, if_neg h.1, linked_none h.2]

theorem gives_linkCells {owner pool : Nat} {hold : Bool} : ∀ (l : List Nat) (s : State), l.Nodup →
    (linkCells owner pool hold l).Gives s fun _ t => s.CellsOnly t ∧ ∀ x, t.cell x = (linked owner pool hold l x).getD (s.cell x)
  | [], s, _ => gives_nop ⟨s.cellsOnly_refl, fun _ => rfl⟩
  | [c], s, _ => gives_setCell.mono fun _ t ⟨ht, hx⟩ => ⟨ht, fun x => by rw [hx, linked]; split <;> rfl⟩
  | c :: d :: l, s, hl => by
    obtain ⟨hc, hl⟩ := List.nodup_cons.mp hl
    refine gives_bind (gives_setCell.mono fun _ t ⟨ht, hx⟩ => (gives_linkCells (d :: l) t hl).mono fun _ u ⟨hu, hy⟩ => ⟨ht.trans hu, fun x => ?_⟩)
    rw [hy, hx, linked]
    by_cases h : x = c
    · subst h
      rw [linked_none hc, if_pos rfl, if_pos rfl]
      rfl
    · rw [if_neg h, if_neg h]

/-- Every cell of a linked list is its owner's. -/
theorem linked_mem {owner pool : Nat} {hold : Bool} {x : Nat} : ∀ {l : List Nat}, x ∈ l → ∃ c, linked owner pool hold l x = some c ∧
    c.owner = owner ∧ c.pool = pool ∧ c.hold = hold
  | [c], h => ⟨_, if_pos (by simpa using h), rfl, rfl, rfl⟩
  | c :: d :: l, h => by
    rw [linked]
    by_cases hx : x = c
    · exact ⟨_, if_pos hx, rfl, rfl, rfl⟩
    · rw [if_neg hx]
      exact linked_mem (by simpa [hx] using h)

/-- The chain linked is the list. -/
theorem chainFrom_linked {owner pool : Nat} {hold : Bool} : ∀ (l : List Nat) (c k : Nat), (c :: l).Nodup → (c :: l).length ≤ k →
    (∀ x ∈ c :: l, some (t.cell x) = linked owner pool hold (c :: l) x) → t.chainFrom k c = c :: l := by
  intro l
  induction l with
  | nil =>
    intro c k _ hk h
    obtain ⟨k, rfl⟩ : ∃ j, k = j + 1 := ⟨k - 1, by simp at hk; omega⟩
    have hc : t.cell c = _ := Option.some.inj ((h c (by simp)).trans (if_pos rfl))
    rw [State.chainFrom, hc, if_pos rfl]
  | cons d l ih =>
    intro c k hn hk h
    obtain ⟨k, rfl⟩ : ∃ j, k = j + 1 := ⟨k - 1, by simp at hk; omega⟩
    have hc : t.cell c = _ := Option.some.inj ((h c (by simp)).trans (if_pos rfl))
    obtain ⟨hcn, hn⟩ := List.nodup_cons.mp hn
    rw [State.chainFrom, hc, if_neg (by simp), ih d k hn (by simp at hk ⊢; omega) fun x hx => ?_]
    rw [h x (List.mem_cons_of_mem _ hx), linked, if_neg (by rintro rfl; exact hcn hx)]

/-- A chain allocated whole: distinct free cells, linked, and theirs alone are changed. -/
theorem gives_allocChain {pool owner n : Nat} (h : s.canAlloc pool n = true) (hn : n ≤ s.freeCells.length) :
    (allocChain pool owner n).Gives s fun r t => ∃ l : List Nat, r = some l ∧ l.length = n ∧ l.Nodup ∧
      (∀ x ∈ l, x < 512 ∧ (s.cell x).owner = ownFree) ∧ (∀ x, t.cell x = (linked owner pool false l x).getD (s.cell x)) ∧
      t.dev = { s.dev with cells := t.dev.cells } ∧ s.Within (onlyRegs (perfOf fbufPage)) t := by
  have hfree : s.freeCells.Nodup := List.nodup_range.filter _
  refine gives_bind (gives_getS ?_)
  rw [if_pos h]
  refine gives_bind ((gives_pickCells n s.freeCells s hfree hn).mono ?_)
  rintro l t ⟨ht, htd, hlen, hnd, hl⟩
  refine gives_bind ((gives_linkCells l t hnd).mono fun _ u ⟨hu, hx⟩ => gives_bind (gives_perf.mono fun _ v ⟨hv, _⟩ => gives_pure ?_))
  refine ⟨l, rfl, hlen, hnd, fun x hxl => ?_, fun x => ?_, ?_, ?_⟩
  · have := hl x hxl
    simp only [State.freeCells, List.mem_filter, List.mem_range, beq_iff_eq] at this
    exact this
  · rw [State.cell, hv.dev, ← State.cell, hx, State.cell, htd, ← State.cell]
  · rw [hv.dev, hu.dev, htd]
  · exact ((ht.within _).trans (hu.within _)).trans hv.within

theorem gives_allocChain_none {pool owner n : Nat} (h : s.canAlloc pool n = false) :
    (allocChain pool owner n).Gives s fun r t => r = none ∧ State.Noted (perfRegs fbufPage) s t := by
  refine gives_bind (gives_getS ?_)
  rw [if_neg (by simp [h])]
  exact gives_bind (gives_perf.mono fun _ t ht => gives_pure ⟨rfl, ht.1⟩)

theorem State.canAlloc_put {f : Fld} {v : Nat} (h : f.addr ≠ FBUF_SHMAX) (p n : Nat) : (s.put f v).canAlloc p n = s.canAlloc p n := by
  have hs (g : Fld) (hg : g.addr = FBUF_SHMAX) : (s.put f v).fld g = s.fld g := State.fld_put_other v (by rw [hg]; exact h.symm)
  have hr : (s.put f v).fld FBUF_SHMAX_RX = s.fld FBUF_SHMAX_RX := hs _ rfl
  have ht : (s.put f v).fld FBUF_SHMAX_TX = s.fld FBUF_SHMAX_TX := hs _ rfl
  have hh : (s.put f v).fld FBUF_SHMAX_HOST = s.fld FBUF_SHMAX_HOST := hs _ rfl
  simp only [State.canAlloc, State.poolShare, State.poolUse, State.put_dev, hr, ht, hh]
  rfl

theorem chainAlloc_completes {v : Word} (hc : s.canAlloc poolTx (bitsGet v 11 9 + 1) = true)
    (hn : bitsGet v 11 9 + 1 ≤ s.freeCells.length) :
    Completes (.chainAlloc v) s fun t =>
      t.fld FBUF_ALLOC_STATUS = 0 ∧ (t.chain (t.fld FBUF_ALLOC_CELL)).length = bitsGet v 11 9 + 1 ∧ (t.chain (t.fld FBUF_ALLOC_CELL)).Nodup ∧
        (∀ x ∈ t.chain (t.fld FBUF_ALLOC_CELL), (s.cell x).owner = ownFree ∧ (t.cell x).owner = ownCore ∧ (t.cell x).pool = poolTx ∧
          (t.cell x).hold = false) ∧
        (∀ x ∉ t.chain (t.fld FBUF_ALLOC_CELL), t.cell x = s.cell x) ∧ s.Within (onlyRegs (FBUF_ALLOC :: perfOf fbufPage)) t := by
  have hC : FBUF_ALLOC_CELL.Full := ⟨by decide, by decide, by decide⟩
  have hS : FBUF_ALLOC_STATUS.Full := ⟨by decide, by decide, by decide⟩
  refine completes_cmd rfl (gives_bind (gives_setFld (gives_bind ((gives_allocChain (s := s.put _ _) ?_ ?_).mono ?_))))
  · rw [State.canAlloc_put (by decide)]; exact hc
  · exact hn
  rintro _ t ⟨l, rfl, hlen, hnd, hl, hx, htd, htw⟩
  obtain ⟨c, l, rfl⟩ : ∃ c l', l = c :: l' := by
    cases l with
    | nil => simp at hlen
    | cons c l => exact ⟨c, l, rfl⟩
  refine gives_bind (gives_setFld (gives_setFld ?_))
  have hcell (x : Nat) : (latchEdges s (((t.put FBUF_ALLOC_CELL ((c :: l).headD 0)).put FBUF_ALLOC_STATUS stOk))).cell x = t.cell x := by
    rw [latchEdges_cell, State.put_cell, State.put_cell]
  have hfld : (latchEdges s (((t.put FBUF_ALLOC_CELL ((c :: l).headD 0)).put FBUF_ALLOC_STATUS stOk))).fld FBUF_ALLOC_CELL = c := by
    have hlt : c < 2 ^ 9 := (hl c (by simp)).1
    rw [latchEdges_fld, State.fld_put_apart hS hC _ (by decide), State.fld_put_same hC]
    exact Nat.mod_eq_of_lt hlt
  have hchain : (latchEdges s (((t.put FBUF_ALLOC_CELL ((c :: l).headD 0)).put FBUF_ALLOC_STATUS stOk))).chain c = c :: l := by
    have h8 : bitsGet v 11 9 < 8 := Nat.mod_lt _ (by decide)
    refine chainFrom_linked (owner := ownCore) (pool := poolTx) (hold := false) l c 8 hnd (by omega) fun x hxl => ?_
    obtain ⟨y, hy, -⟩ := linked_mem (owner := ownCore) (pool := poolTx) (hold := false) hxl
    rw [hcell, hx, hy]
    rfl
  rw [hfld, hchain]
  refine ⟨?_, hlen, hnd, fun x hxl => ?_, fun x hxl => ?_, ?_⟩
  · rw [latchEdges_fld, State.fld_put_same hS]; rfl
  · obtain ⟨y, hy, h1, h2, h3⟩ := linked_mem (owner := ownCore) (pool := poolTx) (hold := false) hxl
    rw [hcell, hx, hy]
    exact ⟨(hl x hxl).2, h1, h2, h3⟩
  · rw [hcell, hx, linked_none hxl]
    rfl
  · rw [State.within_latch_iff, State.within_put_iff (by decide), State.within_put_iff (by decide)]
    exact (State.within_put _ (by decide)).trans (htw.onlyRegs_mono fun a => List.mem_cons_of_mem _)

theorem chainAlloc_refused {v : Word} (hi : s.Inv) (hc : s.canAlloc poolTx (bitsGet v 11 9 + 1) = false) :
    Completes (.chainAlloc v) s fun t => t.dev.cells = s.dev.cells ∧
      s.Sets t [(FBUF_ALLOC_NCM1, bitsGet v 11 9), (FBUF_ALLOC_CELL, 0), (FBUF_ALLOC_STATUS, 5)] (perfOf fbufPage) := by
  have hr : resetWord FBUF_ALLOC &&& BitVec.ofNat 32 (maskOf FBUF_ALLOC) = resetWord FBUF_ALLOC := by decide
  refine completes_cmd rfl (gives_bind (gives_setFld (gives_bind ((gives_allocChain_none (s := s.put _ _) ?_).monoInv (hi.put _ _) ?_))))
  · rw [State.canAlloc_put (by decide)]; exact hc
  rintro _ t hti ⟨rfl, ht⟩
  refine gives_bind (gives_setFld (gives_setFld ⟨by rw [latchEdges_dev, State.put_dev, State.put_dev, ht.dev]; rfl, State.Sets.latch ?_⟩))
  have h1 : s.Sets t [(FBUF_ALLOC_NCM1, bitsGet v 11 9)] (perfOf fbufPage) :=
    ((State.sets_refl (noted := perfOf fbufPage)).put hi ⟨by decide, by decide, by decide⟩ hr _).step
      (ht.within.of_onlyRegs fun a (ha : a ∈ perfOf fbufPage) => by simpa using ha)
  exact (h1.put hti ⟨by decide, by decide, by decide⟩ hr 0).put (hti.put _ _) ⟨by decide, by decide, by decide⟩ hr stNobuf

/-! ### Revocation -/

theorem gives_forgetCells {gone : List Nat} : (forgetCells gone).Gives s fun _ t => t.dev.cells = s.dev.cells ∧ (∀ F : Foot, s.Within F t) ∧
    ∀ j ∈ t.dev.tx.jobs, ∀ x ∈ j.cells, x ∉ gone := by
  refine gives_act ⟨rfl, fun F => State.within_live s rfl, fun j hj x hx => ?_⟩
  simp only [Prim.run_dev_dev, List.mem_map] at hj
  obtain ⟨k, -, rfl⟩ := hj
  simpa using (List.mem_filter.mp hx).2

theorem State.mem_ownedBy {o x : Nat} : x ∈ s.ownedBy o ↔ x < 512 ∧ (s.cell x).owner = o := by
  simp [State.ownedBy]

theorem cellRevoke_completes (v : Word) :
    Completes (.cellRevoke v) s fun t =>
      (∀ x, t.cell x = if bitsGet v 1 0 ≠ ownFree ∧ x < 512 ∧ (s.cell x).owner = bitsGet v 1 0 then s.letGo x else s.cell x) ∧
      (bitsGet v 1 0 = ownLink → ∀ j ∈ t.dev.tx.jobs, ∀ x ∈ j.cells, x < 512 → (s.cell x).owner = ownLink → (s.cell x).hold = true) ∧
      (bitsGet v 1 0 = ownCore → t.reg LINK_RXIDX = 0) ∧ s.Within (onlyRegs (if bitsGet v 1 0 = ownCore then [LINK_RXIDX] else [])) t := by
  generalize ho : bitsGet v 1 0 = o
  have hexec : exec (.cellRevoke v) s = cmd s (revoke o) := by rw [← ho]; rfl
  have h4 : o < 4 := ho ▸ Nat.mod_lt _ (by decide)
  refine completes_cmd hexec (gives_bind (gives_getS ?_))
  by_cases h0 : o = ownFree
  · subst h0
    exact gives_nop ⟨fun x => by simp, fun h => absurd h (by decide), fun h => absurd h (by decide), by simp⟩
  rw [if_pos h0]
  refine gives_bind ((gives_releaseCells s _).mono fun _ t ⟨ht, hx⟩ => ?_)
  have hcell (x : Nat) : t.cell x = if o ≠ ownFree ∧ x < 512 ∧ (s.cell x).owner = o then s.letGo x else s.cell x := by
    rw [hx]
    simp only [State.mem_ownedBy, h0, ne_eq, not_false_eq_true, true_and]
  by_cases h1 : o = ownLink
  · subst h1
    rw [if_pos rfl]
    refine gives_bind (gives_forgetCells.mono fun _ u ⟨hu, huw, hj⟩ => ?_)
    rw [if_neg (by decide)]
    refine gives_nop ⟨fun x => ?_, fun _ j hjm x hxm hlt how => ?_, fun h => absurd h (by decide), ?_⟩
    · rw [latchEdges_cell, State.cell_congr hu, hcell]
    · rw [latchEdges_dev] at hjm
      by_contra hne
      refine hj j hjm x hxm (List.mem_filter.mpr ⟨State.mem_ownedBy.mpr ⟨hlt, how⟩, by simpa using hne⟩)
    · rw [State.within_latch_iff]
      exact (ht.within _).trans (huw _)
  rw [if_neg h1]
  by_cases h2 : o = ownCore
  · subst h2
    rw [if_pos rfl]
    refine gives_wr ⟨fun x => ?_, fun h => absurd h (by decide), fun _ => ?_, ?_⟩
    · rw [latchEdges_cell, State.putReg_cell, hcell]
    · rw [latchEdges_reg, State.reg_putReg_same]
      exact BitVec.zero_and
    · rw [State.within_latch_iff, State.within_putReg_iff (by decide)]
      exact ht.within _
  · rw [if_neg h2]
    exact gives_nop ⟨fun x => by rw [latchEdges_cell, hcell], fun h => absurd h h1, fun h => absurd h h2,
      (ht.within _).latch⟩

/-- Settles O31: a chain is taken whole or not, and released cell by cell. -/
theorem cells : Obligations.Cells := fun _ _ hi =>
  ⟨fun hc hn => chainAlloc_completes hc hn, fun hc => chainAlloc_refused hi hc, fun hc => chainFree_completes hc,
    fun hc => chainFree_refused hi hc, cellRevoke_completes _⟩

end Sys2Proof.Machine
end

section
/-!
The radio and the link controller at rest: what ends transitions, requests and transmissions finds none (R43, R58, R121).
-/
namespace Sys2Proof.Machine
open Sys2Proof.Reg

variable {s t u : State} {α : Type}

/-- An act that answers a value and leaves a state: what comes after it starts there. -/
theorem M.Gives.run_bind_eq {m : M α} {a : α} (h : m.Gives s fun b u => b = a ∧ u = t) (f : α → M Unit) :
    (m >>= f).run s = (f a).run t := by
  obtain ⟨_, _, ⟨rfl, rfl⟩, _, hk⟩ := h
  exact hk fun x => f x fun _ => Act.done

/-- As `run_bind_eq`, of an act without a result. -/
theorem M.Gives.run_bind_to {m : M Unit} (h : m.Gives s fun _ u => u = t) (f : Unit → M Unit) : (m >>= f).run s = (f ()).run t := by
  rw [h.run_bind, h.run (P := fun u => u = t)]

theorem State.onAir_none (h : s.dev.tx.jobs = []) : s.onAir = none := by rw [State.onAir, State.jobs, h]; rfl

theorem gives_waitingCut {st : Nat} (h : s.dev.radio.waiting = none) : (waitingCut st).Gives s fun _ t => t = s := by
  refine gives_bind (gives_getS ?_)
  rw [h]
  exact gives_nop rfl

theorem gives_walkCut {st : Nat} (h : s.dev.radio.walk = none) : (walkCut st).Gives s fun _ t => t = s := by
  refine gives_bind (gives_getS ?_)
  rw [h]
  exact gives_nop rfl

theorem gives_cutAir {st : Nat} (h : s.onAir = none) : (cutAir st).Gives s fun b t => b = false ∧ t = s := by
  refine gives_bind (gives_getS ?_)
  rw [h]
  exact gives_pure ⟨rfl, rfl⟩

theorem gives_cancelAll {st : Nat} (h : s.dev.tx.jobs = []) : (cancelAll st).Gives s fun _ t => t = s := by
  refine gives_bind (gives_getS ?_)
  rw [State.jobs, h]
  exact gives_nop rfl

theorem gives_cancelRelays (h : s.dev.tx.jobs = []) : cancelRelays.Gives s fun _ t => t = s := by
  refine gives_bind (gives_getS ?_)
  rw [State.jobs, h]
  exact gives_nop rfl

/-- The radio set idle in the state it is in (R68). -/
def State.idled (s : State) : State := (s.put RCTL_STAT_BUSY 0).put RCTL_STAT_TARGET s.radio

theorem gives_setIdle (s : State) : setIdle.Gives s fun _ t => t = s.idled :=
  gives_bind (gives_getS (gives_bind (gives_setFld (gives_setFld rfl))))

/-- The radio taken to the state it rests in. -/
theorem gives_radioCut_rest {goal : Nat} (hw : s.dev.radio.waiting = none) (hk : s.dev.radio.walk = none) (hj : s.dev.tx.jobs = [])
    (hg : s.radio = goal) :
    (radioCut goal none).Gives s fun _ t => t = (s.live fun d => { d with radio := { d.radio with unlock := false } }).idled := by
  refine gives_bind ((gives_waitingCut hw).mono ?_)
  rintro _ _ rfl
  refine gives_bind (gives_getS ?_)
  rw [hk]
  refine gives_bind ((gives_walkCut hk).mono ?_)
  rintro _ _ rfl
  refine gives_bind ((gives_cutAir (State.onAir_none hj)).mono ?_)
  rintro _ _ ⟨rfl, rfl⟩
  refine gives_bind (gives_act (gives_bind (gives_getS ?_)))
  split
  · exact gives_setIdle _
  · rw [if_pos (by exact ⟨hg, by simp, by simp⟩)]
    exact gives_bind ((gives_setIdle _).mono fun _ t ht => gives_nop ht)

end Sys2Proof.Machine
end

section
/-!
LINK_MODE with nothing queued, and the loading of the Cox microcode (R120, R121, R123, R188).
-/
namespace Sys2Proof.Machine
open Sys2Proof.Reg

variable {s t u : State}

theorem sampStart_off (h : s.en sampPage = false) : sampStart.run s = s := by
  rw [sampStart, run_getS, if_neg]
  · rfl
  · simp [State.sampOn, h]

/-- Both fields of the mode set (R121). -/
def State.moded (s : State) (v m : Nat) : State := (s.put LINK_MODE_MODE v).put LINK_STAT_MODE m

theorem State.moded_en (s : State) (v m p : Nat) (hp : CTRL p ≠ LINK_MODE) (hq : CTRL p ≠ LINK_STAT) : (s.moded v m).en p = s.en p := by
  rw [State.moded, State.en, State.bit_put_other _ hq, State.bit_put_other _ hp, State.en]

/-- Setting a mode other than OFF (R121). -/
theorem setMode_on {v : Nat} (hv : v = 1 ∨ v = 2) (hj : s.dev.tx.jobs = []) (hs : s.en sampPage = false) (he : s.en linkPage = true)
    (hu : s.bit LINK_STAT_UCODE_OK = true) :
    (setMode v).run s = if s.fld LINK_STAT_MODE = 0 then (s.moded v v).put RCTL_STAT_OWNER 1 else s.moded v v := by
  have h3 : (if v < 3 then v else 0) = v := if_pos (by omega)
  have h0 : v ≠ 0 := by omega
  have hsamp : ((s.moded v v).put RCTL_STAT_OWNER 1).en sampPage = false := by
    rw [State.en, State.bit_put_other _ (by decide), ← State.en, State.moded_en _ _ _ _ (by decide) (by decide), hs]
  have hjm : (s.moded v v).dev.tx.jobs = [] := hj
  rw [setMode, run_getS]
  simp only [h3]
  rw [if_neg (by simp [he, hu]), run_setFld_bind, run_setFld_bind]
  change M.run _ (s.moded v v) = _
  by_cases hm : s.fld LINK_STAT_MODE = 0
  · rw [if_neg (by simp [hm]), if_neg (by simp [h0]), if_pos ⟨hm, h0⟩, if_pos hm, run_setFld_bind]
    exact sampStart_off hsamp
  · by_cases h2 : s.fld LINK_STAT_MODE = 2 ∧ v ≠ 2
    · rw [if_pos h2, (gives_cancelRelays hjm).run_bind_to, if_neg (by simp [h0]), if_neg (fun h => hm h.1), if_neg hm]
      rfl
    · rw [if_neg h2, if_neg (by simp [h0]), if_neg (fun h => hm h.1), if_neg hm]
      rfl

theorem gives_lanesFit (h : s.rxRuns = false) : lanesFit.Gives s fun _ t => t = s := by
  refine gives_bind (gives_getS ?_)
  rw [if_neg (by simp [h])]
  exact gives_nop rfl

/-- Nothing but the window state is touched where no window holds the radio and no lane receives. -/
theorem gives_setWin {f : Samp → Samp} (hh : s.dev.samp.holds = false) (hf : (f s.dev.samp).holds = false) (hr : s.rxRuns = false) :
    (setWin f).Gives s fun _ t => t = (s.live fun d => { d with samp := f d.samp }).put SAMP_STAT_WIN (f s.dev.samp).shown := by
  have hclock : (s.live fun d => { d with samp := f d.samp }).linkClock = s.linkClock := by
    simp only [State.linkClock, State.live_dev, hh, hf]
  have hrx : ((s.live fun d => { d with samp := f d.samp }).put SAMP_STAT_WIN (f s.dev.samp).shown).rxRuns = false := by
    rw [State.rxRuns, State.fld_put_other _ (by decide)]
    exact hr
  refine gives_bind (gives_getS (gives_bind (gives_act (gives_bind (gives_getS (gives_bind (gives_setFld ?_)))))))
  have h1 : (s.linkClock && !(Prim.run (.dev fun d => { d with samp := f d.samp }) s).linkClock) = false := by
    rw [show (Prim.run (.dev fun d => { d with samp := f d.samp }) s).linkClock = s.linkClock from hclock, Bool.and_not_self]
  have h2 : (!s.linkClock && (Prim.run (.dev fun d => { d with samp := f d.samp }) s).linkClock) = false := by
    rw [show (Prim.run (.dev fun d => { d with samp := f d.samp }) s).linkClock = s.linkClock from hclock, Bool.not_and_self]
  rw [if_neg (by simp [h1]), if_neg (by simp [h2])]
  exact gives_lanesFit hrx

/-- The scheduler stopped (R204). -/
def State.sampStopped (s : State) : State := (((s.live fun d => { d with samp :=
  { d.samp.shut with anchor := none, reanchor := false, woke := false, closing := false } }).put SAMP_STAT_WIN winNone).put
    SAMP_STAT_BSTATE bOff).put SAMP_STAT_MISSES 0

theorem gives_sampStop (hh : s.dev.samp.holds = false) (hr : s.rxRuns = false) : sampStop.Gives s fun _ t => t = s.sampStopped := by
  refine gives_bind ((gives_setWin hh rfl hr).mono ?_)
  rintro _ _ rfl
  exact gives_bind (gives_setFld (gives_setFld rfl))

theorem State.Unwatched.holds (h : s.Unwatched) : s.dev.samp.holds = false := by
  rw [Samp.holds, h.sample, h.main, h.rdv]
  rfl

/-- Setting OFF where it is set already (R121). -/
theorem setMode_off_off (h : s.fld LINK_STAT_MODE = 0) : (setMode 0).run s = s.moded 0 0 := by
  simp [setMode, h, State.moded]

/-- Setting OFF from another mode, the radio at rest in STBY (R121). -/
theorem setMode_off (h : s.fld LINK_STAT_MODE ≠ 0) (hq : s.Quiet) (hr : s.radio = 1) (hu : s.Unwatched) :
    ∃ u, (setMode 0).run s = u.sampStopped ∧ u.bit RCTL_STAT_OWNER = false ∧ u.fld LINK_STAT_MODE = 0 ∧ u.radio = 1 ∧
      u.dev = { s.dev with radio := { s.dev.radio with unlock := false } } ∧ s.Within (onlyRegs [LINK_MODE, LINK_STAT, RCTL_STAT]) u := by
  have hO : RCTL_STAT_OWNER.Full := ⟨by decide, by decide, by decide⟩
  have hM : LINK_STAT_MODE.Full := ⟨by decide, by decide, by decide⟩
  have hS : RCTL_STAT_STATE.Full := ⟨by decide, by decide, by decide⟩
  have hB : RCTL_STAT_BUSY.Full := ⟨by decide, by decide, by decide⟩
  have hT : RCTL_STAT_TARGET.Full := ⟨by decide, by decide, by decide⟩
  have hj : (s.moded 0 0).dev.tx.jobs = [] := hq.jobs
  have hrad : ((s.moded 0 0).put RCTL_STAT_OWNER 0).radio = 1 := by
    rw [State.radio, State.fld_put_apart hO hS _ (by decide), State.moded, State.fld_put_other _ (by decide), State.fld_put_other _ (by decide)]
    exact hr
  let v := (s.moded 0 0).put RCTL_STAT_OWNER 0
  refine ⟨(v.live fun d => { d with radio := { d.radio with unlock := false } }).idled, ?_, ?_, ?_, ?_, ?_, ?_⟩
  · have hcut := gives_radioCut_rest (s := v) (goal := radStby) hq.waiting hq.walk hq.jobs hrad
    have hrx : (v.live fun d => { d with radio := { d.radio with unlock := false } }).idled.rxRuns = false := by
      rw [State.rxRuns, State.idled, State.fld_put_apart hT hS _ (by decide), State.fld_put_apart hB hS _ (by decide), State.live_fld,
        ← State.radio, hrad]
      rfl
    have hstop := gives_sampStop (s := (v.live fun d => { d with radio := { d.radio with unlock := false } }).idled) hu.holds hrx
    have hair : ¬ s.onAir.isSome = true := by rw [State.onAir_none hq.jobs]; simp
    have hwake : s.bit RCTL_STAT_UCODE_OK = true ∨ s.radio ≠ radSleep := .inr (by rw [hr]; decide)
    have hm0 : (if (0 : Nat) < 3 then 0 else 0) = 0 := rfl
    rw [setMode, run_getS]
    simp only [hm0]
    rw [if_neg (by simp), run_setFld_bind, run_setFld_bind]
    change M.run _ (s.moded 0 0) = _
    by_cases h2 : s.fld LINK_STAT_MODE = 2 ∧ 0 ≠ 2
    · rw [if_pos h2, (gives_cancelRelays hj).run_bind_to, if_pos ⟨h, trivial⟩, if_neg hair, (gives_cancelAll hj).run_bind_to, run_setFld_bind,
        if_pos hwake, hcut.run_bind_to, hstop.run_bind_to, if_neg (fun h' => h h'.1), run_pure]
    · rw [if_neg h2, if_pos ⟨h, trivial⟩, if_neg hair, (gives_cancelAll hj).run_bind_to, run_setFld_bind,
        if_pos hwake, hcut.run_bind_to, hstop.run_bind_to, if_neg (fun h' => h h'.1), run_pure]
  · rw [State.idled, State.bit_put_apart hT hO _ (by decide), State.bit_put_apart hB hO _ (by decide), State.live_bit, State.bit_put_same hO]
    rfl
  · rw [State.idled, State.fld_put_other _ (by decide), State.fld_put_other _ (by decide), State.live_fld, State.fld_put_other _ (by decide),
      State.moded, State.fld_put_same hM]
    rfl
  · rw [State.radio, State.idled, State.fld_put_apart hT hS _ (by decide), State.fld_put_apart hB hS _ (by decide), State.live_fld]
    exact hrad
  · rfl
  · rw [State.idled, State.within_put_iff (by decide), State.within_put_iff (by decide), State.within_live_iff rfl,
      State.within_put_iff (by decide), State.moded, State.within_put_iff (by decide), State.within_put_iff (by decide)]
    exact s.within_refl _

theorem coxPage_resets : resetWord LINK_STAT &&& BitVec.ofNat 32 (maskOf LINK_STAT) = resetWord LINK_STAT ∧
    resetWord LINK_MODE &&& BitVec.ofNat 32 (maskOf LINK_MODE) = resetWord LINK_MODE ∧
    resetWord LINK_UCCTL &&& BitVec.ofNat 32 (maskOf LINK_UCCTL) = resetWord LINK_UCCTL ∧
    resetWord RCTL_STAT &&& BitVec.ofNat 32 (maskOf RCTL_STAT) = resetWord RCTL_STAT ∧
    resetWord (FLT linkPage) &&& BitVec.ofNat 32 (maskOf (FLT linkPage)) = resetWord (FLT linkPage) := by
  decide

/-- The link controller reports a fault of state. -/
theorem reports_link (h : s.Inv) : s.Reports (latchEdges s ((setFlt linkPage fltState).run s)) linkPage fltState :=
  (reports_setFlt h ⟨by decide, by decide, by decide⟩ coxPage_resets.2.2.2.2).latch

theorem moded_sets (h : s.Inv) (v m : Nat) : s.Sets (s.moded v m) [(LINK_MODE_MODE, v), (LINK_STAT_MODE, m)] :=
  (State.sets_refl.put h ⟨by decide, by decide, by decide⟩ coxPage_resets.2.1 v).put (h.put _ _)
    ⟨by decide, by decide, by decide⟩ coxPage_resets.1 m

theorem linkMode_sets {c : Instr} {v : Nat} (hc : exec c s = cmd s (setMode v)) (hv : v = 1 ∨ v = 2) (h : s.Inv) (hj : s.dev.tx.jobs = [])
    (hs : s.en sampPage = false) (he : s.en linkPage = true) (hu : s.bit LINK_STAT_UCODE_OK = true) :
    Completes c s fun t => s.Sets t ([(LINK_MODE_MODE, v), (LINK_STAT_MODE, v)] ++
      if s.fld LINK_STAT_MODE = 0 then [(RCTL_STAT_OWNER, 1)] else []) := by
  refine completes_run hc (State.Sets.latch ?_)
  rw [setMode_on hv hj hs he hu]
  split
  · exact (moded_sets h v v).put ((h.put _ _).put _ _) ⟨by decide, by decide, by decide⟩ coxPage_resets.2.2.2.1 1
  · exact moded_sets h v v

theorem linkMode_refused {c : Instr} {v : Nat} (hc : exec c s = cmd s (setMode v)) (hv : v = 1 ∨ v = 2) (h : s.Inv)
    (hn : s.en linkPage = false ∨ s.bit LINK_STAT_UCODE_OK = false) : Completes c s fun t => s.Reports t linkPage fltState := by
  refine completes_run hc ?_
  have h3 : (if v < 3 then v else 0) = v := if_pos (by omega)
  rw [setMode, run_getS]
  simp only [h3]
  rw [if_pos ⟨by omega, by rcases hn with hn | hn <;> simp [hn]⟩, run_setFlt_bind, run_count]
  have hr := reports_setFlt (p := linkPage) (b := fltState) h ⟨by decide, by decide, by decide⟩ coxPage_resets.2.2.2.2
  exact (hr.step (State.within_live _ rfl)).latch

/-- A field given the value it has. -/
theorem bitsPut_self (w : Word) (hi lo : Nat) (h : lo ≤ hi) : bitsPut w hi lo (bitsGet w hi lo) = w := by
  refine BitVec.eq_of_toNat_eq (Nat.eq_of_testBit_eq fun i => ?_)
  by_cases hi' : i < 32
  · rw [bitsPut_testBit _ _ _ _ _ h hi']
    split
    case isTrue hin =>
      rw [bitsGet_testBit, decide_eq_true (by omega), Bool.true_and, Nat.add_sub_cancel' hin.1]
    case isFalse => rfl
  · rw [testBit_of_le (by omega), testBit_of_le (by omega)]

theorem linkModeOff_again (h : s.Inv) (hm : s.fld LINK_STAT_MODE = 0) :
    Completes .linkModeOff s fun t => s.Sets t [(LINK_MODE_MODE, 0)] := by
  refine completes_run (m := setMode 0) rfl (State.Sets.latch ?_)
  rw [setMode_off_off hm]
  refine ⟨fun a hn hF => ((moded_sets h 0 0).regs a hn hF).trans ?_, (moded_sets h 0 0).rest⟩
  simp only [State.after, List.foldl_cons, List.foldl_nil]
  by_cases ha : LINK_STAT = a
  · subst ha
    have hself : bitsPut (s.reg LINK_STAT) LINK_STAT_MODE.hi LINK_STAT_MODE.lo (s.fld LINK_STAT_MODE) = s.reg LINK_STAT :=
      bitsPut_self _ _ _ (by decide)
    rw [hm] at hself
    have hne : ¬ LINK_MODE = LINK_STAT := by decide
    simp only [hne, if_true, if_false]
    exact hself
  · rw [if_neg ha]

theorem linkModeOff_stops (hm : s.fld LINK_STAT_MODE ≠ 0) (hq : s.Quiet) (hr : s.radio = 1) (hu : s.Unwatched) :
    Completes .linkModeOff s fun t =>
      t.fld LINK_STAT_MODE = 0 ∧ t.bit RCTL_STAT_OWNER = false ∧ t.radio = 1 ∧ t.fld SAMP_STAT_BSTATE = 0 ∧
        t.dev.tx.jobs = [] ∧ s.Within (onlyRegs [LINK_MODE, LINK_STAT, RCTL_STAT, SAMP_STAT]) t := by
  obtain ⟨u, hrun, h1, h2, h3, h4, h5⟩ := setMode_off hm hq hr hu
  refine completes_run (m := setMode 0) rfl ?_
  rw [hrun, State.sampStopped]
  refine ⟨?_, ?_, ?_, ?_, ?_, ?_⟩
  · simpa (disch := decide) [State.fld_put_other] using h2
  · simpa (disch := decide) [State.bit_put_other] using h1
  · rw [State.radio] at h3 ⊢
    simpa (disch := decide) [State.fld_put_other] using h3
  · have hB : SAMP_STAT_BSTATE.Full := ⟨by decide, by decide, by decide⟩
    have hM : SAMP_STAT_MISSES.Full := ⟨by decide, by decide, by decide⟩
    rw [latchEdges_fld, State.fld_put_apart hM hB _ (by decide), State.fld_put_same hB]
    rfl
  · rw [latchEdges_dev, State.put_dev, State.put_dev, State.put_dev, State.live_dev, h4]
    exact hq.jobs
  · rw [State.within_latch_iff, State.within_put_iff (by decide), State.within_put_iff (by decide), State.within_put_iff (by decide),
      State.within_live_iff rfl]
    exact h5.onlyRegs_mono (by decide)

/-! ### The Cox microcode (R123) -/

theorem coxUcodeLoad_opens (h : s.Inv) (hm : s.fld LINK_STAT_MODE = 0) :
    Completes .coxUcodeLoad s fun t => t.dev.coxLoad = { s.dev.coxLoad with isOpen := true, ready := false } ∧ s.Sets t [(LINK_STAT_UCODE_OK, 0)] := by
  refine completes_run (m := coxLoad) rfl ?_
  rw [coxLoad, run_getS, if_neg (not_not.mpr hm), run_setFld_bind, modCox, run_modDev]
  refine ⟨by rw [latchEdges_dev, State.live_dev]; rfl, State.Sets.latch ?_⟩
  exact (h.sets_put ⟨by decide, by decide, by decide⟩ coxPage_resets.1 0).step (State.within_live _ rfl)

theorem coxUcodeLoad_refused (h : s.Inv) (hm : s.fld LINK_STAT_MODE ≠ 0) :
    Completes .coxUcodeLoad s fun t => s.Reports t linkPage fltState := by
  refine completes_run (m := coxLoad) rfl ?_
  rw [coxLoad, run_getS, if_pos hm]
  exact reports_link h

theorem coxUcodeData_writes (h : s.Inv) (ho : s.dev.coxLoad.isOpen = true) (v : Word) :
    Completes (.coxUcodeData v) s fun t =>
      t.word .cox (s.fld LINK_UCCTL_ADDR) = v ∧ (∀ k ≠ s.fld LINK_UCCTL_ADDR, t.word .cox k = s.word .cox k) ∧
        s.Sets t [(LINK_UCCTL_ADDR, (s.fld LINK_UCCTL_ADDR + 1) % 2 ^ 13)] [] { tab := (· == .cox) } := by
  have hi : (Prim.run (.tab .cox (s.fld LINK_UCCTL_ADDR) v) s).Inv := Prim.run_inv _ _ h
  refine completes_cmd rfl (gives_bind (gives_getS ?_))
  rw [if_pos ho]
  refine gives_bind (gives_act (gives_setFld ⟨?_, fun k hk => ?_, State.Sets.latch ?_⟩))
  · rw [latchEdges_word, State.put_word, State.word_written]
  · rw [latchEdges_word, State.put_word, State.word_other _ _ _ _ _ hk]
  · refine State.Sets.put (l := []) ⟨fun _ _ _ => by simp [State.after], ?_⟩ hi ⟨by decide, by decide, by decide⟩ coxPage_resets.2.2.1 _
    have hw := (keeps_tab (F := { tab := (· == Tab.cox) }) (x := .cox) (i := s.fld LINK_UCCTL_ADDR) (v := v) rfl).all s
    exact { hw.run with regs := fun a ha => absurd ha (by simp) }

theorem coxUcodeData_refused (h : s.Inv) (ho : s.dev.coxLoad.isOpen = false) (v : Word) :
    Completes (.coxUcodeData v) s fun t => s.Reports t linkPage fltState := by
  refine completes_run (m := coxData v) rfl ?_
  rw [coxData, run_getS, if_neg (by simp [ho])]
  exact reports_link h

theorem coxUcodeDone_closes (h : s.Inv) (ho : s.dev.coxLoad.isOpen = true) :
    Completes .coxUcodeDone s fun t => t.dev.coxLoad = { isOpen := false, crc := true } ∧ s.Sets t [(LINK_UCCTL_DONE, 1)] := by
  refine completes_run (m := coxDone) rfl ?_
  rw [coxDone, run_getS, if_pos ho, modCox, run_modDev_bind, run_setFld]
  refine ⟨by rw [latchEdges_dev, State.put_dev, State.live_dev], State.Sets.latch ?_⟩
  exact State.Sets.put (l := []) (State.sets_refl.live rfl) (h.live _)
    ⟨by decide, by decide, by decide⟩ coxPage_resets.2.2.1 1

theorem coxUcodeDone_refused (h : s.Inv) (ho : s.dev.coxLoad.isOpen = false) :
    Completes .coxUcodeDone s fun t => s.Reports t linkPage fltState := by
  refine completes_run (m := coxDone) rfl ?_
  rw [coxDone, run_getS, if_neg (by simp [ho])]
  exact reports_link h

theorem coxUcodeCrcReady_shows (hc : s.dev.coxLoad.crc = true) :
    Completes .coxUcodeCrcReady s fun t =>
      t.dev.coxLoad = { s.dev.coxLoad with crc := false, ready := !s.dev.coxLoad.isOpen } ∧
        t.reg LINK_UCCRC = BitVec.ofNat 32 (crc32 ((List.range 8192).flatMap fun k => leBytes 4 (s.word .cox k).toNat)) ∧
        t.bit LINK_UCCTL_DONE = false ∧ s.Within (onlyRegs [LINK_UCCRC, LINK_UCCTL]) t := by
  have hD : LINK_UCCTL_DONE.Full := ⟨by decide, by decide, by decide⟩
  refine completes_run rfl ?_
  rw [if_pos hc, run_wr_bind, run_setFld_bind, modCox, run_modDev]
  refine ⟨by rw [latchEdges_dev, State.live_dev, State.put_dev, State.putReg_dev], ?_, ?_, ?_⟩
  · rw [latchEdges_reg, State.live_reg, State.reg_put_other _ (by decide), State.reg_putReg_same, State.tabBytes,
      show BitVec.ofNat 32 (maskOf LINK_UCCRC) = BitVec.allOnes 32 by decide, BitVec.and_allOnes]
  · rw [latchEdges_bit, State.live_bit, State.bit_put_same hD]
    rfl
  · rw [State.within_latch_iff, State.within_live_iff rfl, State.within_put_iff (by decide), State.within_putReg_iff (by decide)]
    exact s.within_refl _

theorem coxUcodeGood_verified (h : s.Inv) (hr : s.dev.coxLoad.ready = true) :
    Completes .coxUcodeGood s fun t => s.Sets t [(LINK_STAT_UCODE_OK, 1)] := by
  refine completes_run (m := coxGood) rfl (State.Sets.latch ?_)
  rw [coxGood, run_getS, if_pos hr, modCox, run_modDev_bind, run_setFld]
  exact State.Sets.put (l := []) (State.sets_refl.live rfl) (h.live _)
    ⟨by decide, by decide, by decide⟩ coxPage_resets.1 1

theorem coxUcodeGood_refused (h : s.Inv) (hr : s.dev.coxLoad.ready = false) :
    Completes .coxUcodeGood s fun t => s.Reports t linkPage fltState := by
  refine completes_run (m := coxGood) rfl ?_
  rw [coxGood, run_getS, if_neg (by simp [hr])]
  exact reports_link h

/-- Settles O30: a mode is set, or refused, or stops what runs; the microcode is loaded in its order. -/
theorem linkModes : Obligations.LinkModes := by
  intro s h hq hs
  refine ⟨fun x hx => ?_, linkModeOff_again h, fun hm hr _ hu => linkModeOff_stops hm hq hr hu, coxUcodeLoad_opens h, coxUcodeLoad_refused h,
    fun ho v => ⟨coxUcodeData_writes h ho v, coxUcodeDone_closes h ho⟩, fun ho v => ⟨coxUcodeData_refused h ho v, coxUcodeDone_refused h ho⟩,
    coxUcodeCrcReady_shows, coxUcodeGood_verified h, coxUcodeGood_refused h⟩
  simp only [List.mem_cons, List.not_mem_nil, or_false] at hx
  rcases hx with rfl | rfl
  · exact ⟨linkMode_sets rfl (.inl rfl) h hq.jobs hs, linkMode_refused rfl (.inl rfl) h⟩
  · exact ⟨linkMode_sets rfl (.inr rfl) h hq.jobs hs, linkMode_refused rfl (.inr rfl) h⟩

end Sys2Proof.Machine
end

section
/-!
Chains of fields set, tidied: a field set twice, a field set to what it holds, one bit of a field, a staged record (R467).
-/
namespace Sys2Proof.Machine
open Sys2Proof.Reg

variable {s t : State} {F : Foot} {l l' : List (Fld × Nat)} {noted : List Nat} {f g : Fld} {a b : Nat}

/-! ### Fields of a word -/

/-- Two words with the same bits are equal. -/
theorem word_ext {x y : Word} (h : ∀ i < 32, x.toNat.testBit i = y.toNat.testBit i) : x = y := by
  refine BitVec.eq_of_toNat_eq (Nat.eq_of_testBit_eq fun i => ?_)
  by_cases hi : i < 32
  · exact h i hi
  · rw [testBit_of_le (by omega), testBit_of_le (by omega)]

theorem bitsPut_over (w : Word) {hi lo : Nat} (h : lo ≤ hi) (x y : Nat) : bitsPut (bitsPut w hi lo x) hi lo y = bitsPut w hi lo y :=
  word_ext fun i hi' => by
    rw [bitsPut_testBit _ _ _ _ _ h hi', bitsPut_testBit _ _ _ _ _ h hi', bitsPut_testBit _ _ _ _ _ h hi']
    split <;> rfl

/-- Fields apart may be set in either order. -/
theorem bitsPut_comm (w : Word) {hi lo hi' lo' : Nat} (h : lo ≤ hi) (h' : lo' ≤ hi') (ha : hi < lo' ∨ hi' < lo) (x y : Nat) :
    bitsPut (bitsPut w hi lo x) hi' lo' y = bitsPut (bitsPut w hi' lo' y) hi lo x :=
  word_ext fun i hi => by
    simp only [bitsPut_testBit _ _ _ _ _ h hi, bitsPut_testBit _ _ _ _ _ h' hi]
    split <;> split <;> first | rfl | omega

theorem bitsGet_whole (w : Word) : bitsGet w 31 0 = w.toNat := by
  show w.toNat >>> 0 % 2 ^ 32 = w.toNat
  rw [Nat.shiftRight_zero, Nat.mod_eq_of_lt w.isLt]

/-- A one-bit field is the bit of its register. -/
theorem State.bit_testBit (s : State) (a i : Nat) : s.bit ⟨a, i, i⟩ = (s.reg a).toNat.testBit i := by
  have hb : s.fld ⟨a, i, i⟩ = ((s.reg a).toNat.testBit i).toNat := by
    show (s.reg a).toNat >>> i % 2 ^ (i - i + 1) = _
    rw [Nat.sub_self, Nat.zero_add, Nat.pow_one, Nat.testBit, Nat.and_comm, Nat.and_one_is_mod]
    rcases Nat.mod_two_eq_zero_or_one ((s.reg a).toNat >>> i) with h | h <;> rw [h] <;> rfl
  rw [State.bit, hb]
  cases (s.reg a).toNat.testBit i <;> rfl

/-- One bit of a field raised is that bit of the word raised. -/
theorem bitsPut_bitSet (w : Word) {hi lo k : Nat} (h : lo + k ≤ hi) :
    bitsPut w hi lo (bitSet (bitsGet w hi lo) k) = bitsPut w (lo + k) (lo + k) 1 :=
  word_ext fun i hi' => by
    rw [bitsPut_testBit _ _ _ _ _ (by omega) hi', bitsPut_testBit _ _ _ _ _ (by omega) hi', bitSet, Nat.testBit_or, bitsGet_testBit,
      Nat.testBit_two_pow]
    by_cases hin : lo ≤ i ∧ i ≤ hi
    · by_cases hk : i = lo + k
      · subst hk
        simp [hin]
      · rw [if_pos hin, if_neg (by omega), decide_eq_true (by omega), decide_eq_false (by omega), Nat.add_sub_cancel' hin.1,
          Bool.true_and, Bool.or_false]
    · rw [if_neg hin, if_neg (by omega)]

/-- A bit of a field set is the bit of the register set. -/
theorem State.put_bitSet (s : State) (f : Fld) {k : Nat} (h : f.lo + k ≤ f.hi) :
    s.put f (bitSet (s.fld f) k) = s.put ⟨f.addr, f.lo + k, f.lo + k⟩ 1 := by
  rw [State.put, State.put, State.fld, bitsPut_bitSet _ h]

/-! ### Lists of fields -/

theorem State.after_append (s : State) (l l' : List (Fld × Nat)) (a : Nat) :
    s.after (l ++ l') a = l'.foldl (fun w x => if x.1.addr = a then bitsPut w x.1.hi x.1.lo x.2 else w) (s.after l a) := by
  rw [State.after, List.foldl_append, State.after]

theorem State.Sets.of_after (h : s.Sets t l noted F) (ha : ∀ a, s.after l a = s.after l' a) : s.Sets t l' noted F :=
  ⟨fun a hn hF => by rw [h.regs a hn hF, ha], h.rest⟩

theorem State.Did.of_after (h : s.Did t l noted F) (ha : ∀ a, s.after l a = s.after l' a) : s.Did t l' noted F := ⟨h.inv, h.sets.of_after ha⟩

/-- Of a field set twice, the second value stays. -/
theorem State.Did.again (h : s.Did t (l ++ [(f, a)] ++ [(f, b)]) noted F) (hf : f.lo ≤ f.hi) :
    s.Did t (l ++ [(f, b)]) noted F :=
  h.of_after fun x => by
    simp only [State.after_append, List.foldl_cons, List.foldl_nil]
    split
    · exact bitsPut_over _ hf _ _
    · rfl

/-- Of a field set, another, and the first again, the first value may be left out where the fields are apart. -/
theorem State.Did.again_past {c : Nat} (h : s.Did t (l ++ [(f, a)] ++ [(g, b)] ++ [(f, c)]) noted F) (hf : f.lo ≤ f.hi)
    (hg : g.lo ≤ g.hi) (hfg : f.addr ≠ g.addr ∨ f.hi < g.lo ∨ g.hi < f.lo ) :
    s.Did t (l ++ [(g, b)] ++ [(f, c)]) noted F :=
  h.of_after fun x => by
    simp only [State.after_append, List.foldl_cons, List.foldl_nil]
    by_cases hx : f.addr = x
    · by_cases hy : g.addr = x
      · simp only [hx, hy, if_true]
        rw [bitsPut_comm _ hf hg (hfg.resolve_left fun h => h (hx.trans hy.symm)), bitsPut_over _ hf]
      · simp only [hx, hy, if_true, if_false]
        exact bitsPut_over _ hf _ _
    · simp only [hx, if_false]

/-- A field set to the value it has is not set. -/
theorem State.Did.puts_same (h : s.Did t l noted F) {v : Nat} (hv : t.fld f = v) (hs : f.settable = true) :
    s.Did (t.put f v) l noted F := by
  subst hv
  have hf := (Fld.full_of_settable hs).1
  have hput : bitsPut (t.reg f.addr) f.hi f.lo (t.fld f) = t.reg f.addr := bitsPut_self _ _ _ hf
  refine ⟨h.inv.put _ _, ⟨fun x hn hF => ?_, (State.within_put_iff rfl).mpr h.sets.rest⟩⟩
  rw [← h.sets.regs x hn hF]
  by_cases hx : f.addr = x
  · subst hx
    rw [State.put, hput, State.reg_written, h.inv.reg_and_mask (Fld.reset_of_settable hs)]
  · exact State.reg_put_other _ (Ne.symm hx)

/-! ### What is read after a field is set -/

/-- Two fields that can be set and do not overlap. -/
def Fld.apart (f g : Fld) : Bool := f.settable && g.settable && (f.addr != g.addr || decide (g.hi < f.lo) || decide (f.hi < g.lo))

theorem State.fld_apart (v : Nat) (h : f.apart g = true) : (s.put f v).fld g = s.fld g := by
  simp only [Fld.apart, Bool.and_eq_true, Bool.or_eq_true, bne_iff_ne, decide_eq_true_eq] at h
  obtain ⟨⟨hf, hg⟩, ho⟩ := h
  exact State.fld_put_apart (Fld.full_of_settable hf) (Fld.full_of_settable hg) v fun he => by
    rcases ho with (hn | hl) | hr
    · exact absurd he.symm hn
    · exact .inl hl
    · exact .inr hr

theorem State.bit_apart (v : Nat) (h : f.apart g = true) : (s.put f v).bit g = s.bit g := by rw [State.bit, State.fld_apart v h, State.bit]
theorem State.fld_self (v : Nat) (h : f.settable = true) : (s.put f v).fld f = v % 2 ^ (f.hi - f.lo + 1) :=
  State.fld_put_same (Fld.full_of_settable h) v
theorem State.bit_self (v : Nat) (h : f.settable = true) : (s.put f v).bit f = (v % 2 ^ (f.hi - f.lo + 1) == 1) := by
  rw [State.bit, State.fld_self v h]

/-! ### Parts of the units' live state -/

section
variable (s : State) (k : Unit → M Unit)
@[simp] theorem run_modPwr (f : Pwr → Pwr) : (modPwr f).run s = s.live fun d => { d with pwr := f d.pwr } := (rfl)
@[simp] theorem run_modPwr_bind (f : Pwr → Pwr) : (modPwr f >>= k).run s = (k ()).run (s.live fun d => { d with pwr := f d.pwr }) := (rfl)
@[simp] theorem run_modGov (f : Gov → Gov) : (modGov f).run s = s.live fun d => { d with gov := f d.gov } := (rfl)
@[simp] theorem run_modGov_bind (f : Gov → Gov) : (modGov f >>= k).run s = (k ()).run (s.live fun d => { d with gov := f d.gov }) := (rfl)
@[simp] theorem run_modSupply (f : Supply → Supply) : (modSupply f).run s = s.live fun d => { d with supply := f d.supply } := (rfl)
@[simp] theorem run_modSupply_bind (f : Supply → Supply) :
    (modSupply f >>= k).run s = (k ()).run (s.live fun d => { d with supply := f d.supply }) := (rfl)
@[simp] theorem run_modRtc (f : Rtc → Rtc) : (modRtc f).run s = s.live fun d => { d with rtc := f d.rtc } := (rfl)
@[simp] theorem run_modRtc_bind (f : Rtc → Rtc) : (modRtc f >>= k).run s = (k ()).run (s.live fun d => { d with rtc := f d.rtc }) := (rfl)
@[simp] theorem run_modIntc (f : Intc → Intc) : (modIntc f).run s = s.live fun d => { d with intc := f d.intc } := (rfl)
@[simp] theorem run_modIntc_bind (f : Intc → Intc) : (modIntc f >>= k).run s = (k ()).run (s.live fun d => { d with intc := f d.intc }) := (rfl)
@[simp] theorem run_modRigger (f : Rigger → Rigger) : (modRigger f).run s = s.live fun d => { d with rigger := f d.rigger } := (rfl)
@[simp] theorem run_modRigger_bind (f : Rigger → Rigger) :
    (modRigger f >>= k).run s = (k ()).run (s.live fun d => { d with rigger := f d.rigger }) := (rfl)
end

/-! ### A record staged while there is room (R467) -/

/-- The units with a record staged. -/
def State.withStaged (s : State) (r : List Byte) : State :=
  (s.live fun d => { d with staged := d.staged ++ [r] }).put LOGB_STAT_COUNT (s.dev.staged.length + 1)

theorem stage_run {type code cluster : Nat} {hw : Bool} {payload : List Byte} (h : s.dev.staged.length < 4) :
    (stage type hw code cluster payload).run s =
      (emit logbPage 0x0C).run ((stat 0x16).run (s.withStaged (s.recordOf type hw code cluster payload))) := by
  rw [stage, run_getS, if_pos h, run_modDev_bind, run_setFld_bind, run_stat_bind, State.withStaged, run_stat]

section
variable (r : List Byte)
@[simp] theorem withStaged_dev : (s.withStaged r).dev = { s.dev with staged := s.dev.staged ++ [r] } := by
  rw [State.withStaged, State.dev_put, State.live_dev]
@[simp] theorem withStaged_events : (s.withStaged r).events = s.events := by rw [State.withStaged, State.events_put, State.live_events]

theorem State.Did.staged (h : s.Did t l noted F) (hl : t.dev.staged.length < 4) {type code cluster : Nat} {hw : Bool} {payload : List Byte}
    (hn : ∀ a ∈ perfRegs logbPage, F.regs a = true ∨ a ∈ noted) :
    s.Did ((stage type hw code cluster payload).run t) (l ++ [(LOGB_STAT_COUNT, t.dev.staged.length + 1)]) noted F := by
  rw [stage_run hl, run_stat]
  exact ((h.lived (by rfl)).puts (by decide)).counted _ _ _ _ |>.emits (by decide) (hn := hn)
end

theorem total_rd (a : Nat) : (rd a).Total := total_bind total_getS fun _ => total_pure _
theorem total_fld (x : Fld) : (fld x).Total := total_bind total_getS fun _ => total_pure _
theorem total_bit (x : Fld) : (bit x).Total := total_bind total_getS fun _ => total_pure _

theorem total_stage {type code cluster : Nat} {hw : Bool} {payload : List Byte} : (stage type hw code cluster payload).Total :=
  total_bind total_getS fun _ => total_ite
    (total_bind (total_act _) fun _ => total_bind (total_setFld _ _) fun _ => total_bind (total_count _ _ _) fun _ => total_emit _ _)
    (total_bind (total_setFld _ _) fun _ => total_count _ _ _)

/-- What staging leaves of the units, the statistics aside. -/
theorem stage_dev {type code cluster : Nat} {hw : Bool} {payload : List Byte} (h : s.dev.staged.length < 4) :
    ((stage type hw code cluster payload).run s).dev =
      { s.dev with staged := s.dev.staged ++ [s.recordOf type hw code cluster payload],
                   ctr := ((stage type hw code cluster payload).run s).dev.ctr } := by
  rw [stage_run h, emit_unlatched_dev (by decide), run_stat, State.counted_dev, withStaged_dev]

/-! ### Reports and pulses at a command's end -/

theorem State.Inv.reports (h : s.Inv) {p b : Nat} (hs : (fltBit p b).settable = true) :
    s.Reports (latchEdges s ((setFlt p b).run s)) p b :=
  (reports_setFlt h (Fld.full_of_settable hs) (Fld.reset_of_settable hs)).latch

theorem foldl_bitSet_keeps (p : Nat → Bool) {n x : Nat} (h : x.testBit n = true) (l : List Nat) :
    (l.foldl (fun a n => if p n then bitSet a n else a) x).testBit n = true := by
  induction l generalizing x with
  | nil => exact h
  | cons m l ih =>
    refine ih ?_
    dsimp only
    split
    · rw [bitSet, Nat.testBit_or, h, Bool.true_or]
    · exact h

/-- An edge latched stays latched at the command's end. -/
theorem latchEdges_edge {n : Nat} (h : t.dev.intc.edge.testBit n = true) : (latchEdges s t).dev.intc.edge.testBit n = true :=
  foldl_bitSet_keeps (fun n => t.level n && !s.level n) h _

end Sys2Proof.Machine
end

section
/-!
The DALI controller and the meter (R483–R487, R490, R499).
-/
namespace Sys2Proof.Machine
open Sys2Proof.Reg

variable {s t u : State}

theorem dali_perf : ∀ a ∈ perfRegs daliPage, ({} : Foot).regs a = true ∨ a ∈ perfOf daliPage := fun _ => .inr
theorem lum_perf : ∀ a ∈ perfRegs lumPage, ({} : Foot).regs a = true ∨ a ∈ perfOf lumPage := fun _ => .inr

/-- Nothing is done: nothing changes. -/
theorem completes_nothing {c : Instr} {P : State → Prop} {m : M Unit} (hc : exec c s = cmd s m) (hm : m.run s = s) (hP : P (latchEdges s s)) :
    Completes c s P := completes_run hc (by rw [hm]; exact hP)

theorem bitOf_bitsPut_same (w : Word) {b : Nat} (hb : b < 32) (x : Nat) : bitOf (bitsPut w b b x).toNat b = x.testBit 0 := by
  rw [bitOf, bitsPut_testBit _ _ _ _ _ (Nat.le_refl b) hb, if_pos ⟨Nat.le_refl b, Nat.le_refl b⟩, Nat.sub_self]

/-! ### DALI_FWD.SEND (R485, R499) -/

/-- DALI_FWD as a send leaves it. -/
def daliWord (v : Word) : Word := bitsPut v 31 31 0 &&& BitVec.ofNat 32 (maskOf DALI_FWD)

theorem State.en_live (f : Dev → Dev) (p : Nat) : (s.live f).en p = s.en p := (rfl)
theorem State.en_putReg_other {a : Nat} {v : Word} {p : Nat} (h : CTRL p ≠ a) : (s.putReg a v).en p = s.en p := State.bit_putReg_other v h

/-- The state with the gate of DALI open. -/
def State.daliOpen (s : State) : State :=
  s.live fun d => { d with gates := if daliPage ∈ d.gates then d.gates else daliPage :: d.gates }

theorem daliSend_run (v : Word) (s : State) : (openGate daliPage >>= fun _ => daliWrite (bitsPut v 31 31 1)).run s =
    if s.bit DALI_STAT_BUSY then (setFlt daliPage fltState).run s.daliOpen
    else daliStart.run (s.daliOpen.putReg DALI_FWD (bitsPut v 31 31 0)) := by
  have h31 : bitOf (bitsPut v 31 31 1).toNat 31 = true := bitOf_bitsPut_same v (by decide) 1
  have hb : s.daliOpen.bit DALI_STAT_BUSY = s.bit DALI_STAT_BUSY := State.live_bit _ _ _
  rw [openGate, run_modDev_bind, ← State.daliOpen, daliWrite, run_bit, hb, h31, bitsPut_over _ (Nat.le_refl 31)]
  cases s.bit DALI_STAT_BUSY
  · simp
  · simp

theorem daliSend_busy (h : s.Inv) (hb : s.bit DALI_STAT_BUSY = true) (v : Word) :
    Completes (.daliSend v) s fun t => t.dev.dali = s.dev.dali ∧ s.Reports t daliPage fltState := by
  refine completes_run rfl ?_
  rw [daliSend_run, if_pos hb]
  refine ⟨by simp [-State.put_dev, -State.putReg_dev, State.daliOpen], ?_⟩
  exact (((did_refl h).live rfl).setFlt (by decide) dali_perf).latched s

theorem daliSend_off (hb : ¬ s.bit DALI_STAT_BUSY = true) (he : ¬ s.en daliPage = true) (v : Word) :
    Completes (.daliSend v) s fun t => t.reg DALI_FWD = daliWord v ∧ t.dev.dali = s.dev.dali ∧ s.Within (onlyRegs [DALI_FWD]) t := by
  refine completes_run rfl ?_
  rw [daliSend_run, if_neg hb, daliStart, run_getS, if_neg (by rw [State.en_putReg_other (by decide)]; exact he)]
  refine ⟨by rw [run_pure, latchEdges_reg, State.reg_putReg_same, daliWord], by simp [-State.put_dev, -State.putReg_dev, State.daliOpen], ?_⟩
  rw [run_pure, State.within_latch_iff, State.within_putReg_iff (by decide), State.daliOpen, State.within_live_iff rfl]
  exact s.within_refl _

/-- The state in which a send starts: the gate open, the word in DALI_FWD. -/
def State.daliSends (s : State) (v : Word) : State := s.daliOpen.putReg DALI_FWD (bitsPut v 31 31 0)

theorem daliSends_word (v : Word) : (s.daliSends v).reg DALI_FWD = daliWord v := by rw [State.daliSends, State.reg_putReg_same, daliWord]
theorem did_daliSends (h : s.Inv) (v : Word) : s.Did (s.daliSends v) [] [DALI_FWD] := ((did_refl h).lived (by rfl)).wr_noted (by decide)
@[simp] theorem daliSends_dev (v : Word) : (s.daliSends v).dev.dali = s.dev.dali := by simp [-State.put_dev, -State.putReg_dev, State.daliSends, State.daliOpen]

/-- A send that is not refused for its state starts, or ends with a status at once (R485, R487). -/
theorem daliStart_run (v : Word) (he : s.en daliPage = true) : daliStart.run (s.daliSends v) =
    if (bitOf (daliWord v).toNat 29 && bitOf (daliWord v).toNat 30) = true then (s.daliSends v).put DALI_STAT_STATUS stParam
    else if s.bit DALI_STAT_BUSFAIL then (s.daliSends v).put DALI_STAT_STATUS stState
    else ((s.daliSends v).put DALI_STAT_BUSY 1).live fun d =>
      { d with dali := { d.dali with phase := .settling, frame := daliWord v, copy := 1, left := s.fld DALI_CFG_RETRY } } := by
  have hf : (s.daliSends v).bit DALI_STAT_BUSFAIL = s.bit DALI_STAT_BUSFAIL := State.bit_putReg_other _ (by decide)
  have hr : (s.daliSends v).fld DALI_CFG_RETRY = s.fld DALI_CFG_RETRY := State.fld_putReg_other _ (by decide)
  have hen : (s.daliSends v).en daliPage = true := by rw [State.daliSends, State.en_putReg_other (by decide)]; exact he
  rw [daliStart, run_getS, if_pos hen, daliSends_word, hf, hr]
  simp only [run_ite, run_setFld, run_setFld_bind, modDali, run_modDev]

section
variable (h : s.Inv) (hb : ¬ s.bit DALI_STAT_BUSY = true) (he : s.en daliPage = true) (v : Word)
include h hb he

omit h he in
theorem daliSend_to (P : State → Prop) (hP : P (latchEdges s (daliStart.run (s.daliSends v)))) : Completes (.daliSend v) s P := by
  refine completes_run rfl ?_
  rwa [daliSend_run, if_neg hb, ← State.daliSends]

theorem daliSend_both (h9 : bitOf (daliWord v).toNat 29 = true) (h0 : bitOf (daliWord v).toNat 30 = true) :
    Completes (.daliSend v) s fun t =>
      t.reg DALI_FWD = daliWord v ∧ t.dev.dali = s.dev.dali ∧ s.Sets t [(DALI_STAT_STATUS, 3)] [DALI_FWD] := by
  refine daliSend_to hb v _ ?_
  rw [daliStart_run v he, if_pos (by rw [h9, h0]; rfl)]
  exact ⟨by rw [latchEdges_reg, State.reg_put_other _ (by decide), daliSends_word], by simp [-State.put_dev, -State.putReg_dev], ((did_daliSends h v).puts (by decide)).latched s⟩

theorem daliSend_failed (hn : bitOf (daliWord v).toNat 29 = false ∨ bitOf (daliWord v).toNat 30 = false)
    (hf : s.bit DALI_STAT_BUSFAIL = true) : Completes (.daliSend v) s fun t => t.dev.dali = s.dev.dali ∧ s.Sets t [(DALI_STAT_STATUS, 1)] [DALI_FWD] := by
  refine daliSend_to hb v _ ?_
  rw [daliStart_run v he, if_neg (by rcases hn with hn | hn <;> simp [hn]), if_pos hf]
  exact ⟨by simp [-State.put_dev, -State.putReg_dev], ((did_daliSends h v).puts (by decide)).latched s⟩

theorem daliSend_starts (hn : bitOf (daliWord v).toNat 29 = false ∨ bitOf (daliWord v).toNat 30 = false)
    (hf : s.bit DALI_STAT_BUSFAIL = false) : Completes (.daliSend v) s fun t =>
      t.dev.dali = { s.dev.dali with phase := .settling, frame := daliWord v, copy := 1, left := s.fld DALI_CFG_RETRY } ∧
        t.reg DALI_FWD = daliWord v ∧ s.Sets t [(DALI_STAT_BUSY, 1)] [DALI_FWD] := by
  refine daliSend_to hb v _ ?_
  rw [daliStart_run v he, if_neg (by rcases hn with hn | hn <;> simp [hn]), if_neg (by simp [hf])]
  refine ⟨by simp [-State.put_dev, -State.putReg_dev], ?_, ((((did_daliSends h v).puts (by decide))).lived (by rfl)).latched s⟩
  rw [latchEdges_reg, State.live_reg, State.reg_put_other _ (by decide), daliSends_word]
end

/-! ### The frame and its end (R485) -/

theorem daliSettled_waits (hw : s.dev.dali.phase ≠ .settling ∨ s.dev.dali.window = true) :
    Completes .daliSettled s fun t => t.dev.dali = s.dev.dali ∧ s.Within {} t := by
  have hno : ¬ (s.dev.dali.phase = .settling ∧ (!s.dev.dali.window) = true) := by rcases hw with hw | hw <;> simp [hw]
  exact completes_nothing rfl (by rw [if_neg hno, run_pure]) ⟨by simp, by simp⟩

theorem daliSettled_sends (hp : s.dev.dali.phase = .settling) (hw : s.dev.dali.window = false) :
    Completes .daliSettled s fun t => t.dev.dali = { s.dev.dali with phase := .sending } ∧ s.Within {} t := by
  refine completes_run rfl ?_
  rw [if_pos ⟨hp, by rw [hw]; rfl⟩, modDali, run_modDev]
  exact ⟨by simp, by simp [State.within_live_iff]⟩

theorem daliForwardDone_again (hp : s.dev.dali.phase = .sending) (ht : bitOf s.dev.dali.frame.toNat 29 = true) (hc : s.dev.dali.copy = 1) :
    Completes .daliForwardDone s fun t => t.dev.dali = { s.dev.dali with phase := .settling, copy := 2 } ∧ s.Within {} t := by
  refine completes_run rfl ?_
  simp only [hp, ht, hc, modDali, BEq.rfl, Bool.and_self, if_true, run_modDev]
  exact ⟨by simp, by simp [State.within_live_iff]⟩

theorem daliForwardDone_ends (h : s.Inv) (hp : s.dev.dali.phase = .sending) (hl : bitOf s.dev.dali.frame.toNat 29 = false ∨ s.dev.dali.copy ≠ 1) :
    Completes .daliForwardDone s fun t =>
      t.dev.dali = { s.dev.dali with phase := .idle, window := bitOf s.dev.dali.frame.toNat 30 } ∧ t.events = s.events ++ [0x5D] ∧
      s.Sets t [(DALI_STAT_BUSY, 0), (DALI_STAT_STATUS, 0), (DALI_STAT_REPLY, 0), (DALI_STAT_VALUE, 0)] (perfOf daliPage) := by
  have hno : ¬ (bitOf s.dev.dali.frame.toNat 29 && s.dev.dali.copy == 1) = true := by rcases hl with hl | hl <;> simp [hl]
  refine completes_run rfl ?_
  simp only [hp, hno, if_true, if_false, daliEnd, modDali, Bool.false_eq_true, run_assoc, run_setFld_bind, run_modDev_bind]
  refine ⟨by simp [-State.put_dev, -State.putReg_dev], by rw [latchEdges_events]; simp (disch := decide) [-State.put_events, -State.putReg_events, emit_events], ?_⟩
  exact ((((((((did_refl h).puts (by decide)).puts (by decide)).lived (by rfl)).puts (by decide)).puts (by decide)).lived (by rfl)).emits (by decide) (by exact fun _ => .inr)).latched s

theorem daliForwardDone_not (hp : s.dev.dali.phase ≠ .sending) :
    Completes .daliForwardDone s fun t => t.dev.dali = s.dev.dali ∧ s.Within {} t :=
  completes_nothing rfl (by simp only [hp, if_false, run_pure]) ⟨by simp, by simp⟩

theorem daliCollision_not (hp : s.dev.dali.phase ≠ .sending) :
    Completes .daliCollision s fun t => t.dev.dali = s.dev.dali ∧ s.Within {} t :=
  completes_nothing rfl (by simp only [hp, if_false, run_pure]) ⟨by simp, by simp⟩

/-! ### The reply window (R485) -/

theorem daliBackwardFrame_closed (hw : s.dev.dali.window = false) (f : Bool) (value : Byte) :
    Completes (.daliBackwardFrame f value) s fun t => t.dev.dali = s.dev.dali ∧ s.Within {} t :=
  completes_nothing rfl (by rw [hw, if_neg (by decide), run_pure]) ⟨by simp, by simp⟩

theorem daliReplyTimeout_closed (hw : s.dev.dali.window = false) :
    Completes .daliReplyTimeout s fun t => t.dev.dali = s.dev.dali ∧ s.Within {} t :=
  completes_nothing rfl (by rw [hw, if_neg (by decide), run_pure]) ⟨by simp, by simp⟩

section
variable (h : s.Inv) (hw : s.dev.dali.window = true)
include h hw

theorem daliBackwardFrame_value (value : Byte) : Completes (.daliBackwardFrame false value) s fun t =>
    t.dev.dali = { s.dev.dali with window := false } ∧ t.events = s.events ++ [0x5C] ∧
      s.Sets t [(DALI_STAT_REPLY, 1), (DALI_STAT_VALUE, value.toNat)] (perfOf daliPage) := by
  refine completes_run rfl ?_
  simp only [hw, if_true, modDali, Bool.false_eq_true, if_false, Bool.not_false, run_setFld_bind, run_modDev_bind]
  exact ⟨by simp [-State.put_dev, -State.putReg_dev], by rw [latchEdges_events]; simp (disch := decide) [-State.put_events, -State.putReg_events, emit_events], (((((did_refl h).puts (by decide)).puts (by decide)).lived (by rfl)).emits (by decide) (by exact fun _ => .inr)).latched s⟩

theorem daliBackwardFrame_framing (value : Byte) : Completes (.daliBackwardFrame true value) s fun t =>
    t.dev.dali = { s.dev.dali with window := false } ∧ t.events = s.events ++ [0x5C] ∧ s.Sets t [(DALI_STAT_REPLY, 3)] (perfOf daliPage) := by
  refine completes_run rfl ?_
  simp only [hw, if_true, if_false, modDali, Bool.false_eq_true, Bool.not_true, run_setFld_bind, run_modDev_bind]
  exact ⟨by simp [-State.put_dev, -State.putReg_dev], by rw [latchEdges_events]; simp (disch := decide) [-State.put_events, -State.putReg_events, emit_events], ((((did_refl h).puts (by decide)).lived (by rfl)).emits (by decide) (by exact fun _ => .inr)).latched s⟩

theorem daliReplyTimeout_ends : Completes .daliReplyTimeout s fun t =>
    t.dev.dali = { s.dev.dali with window := false } ∧ s.Sets t [(DALI_STAT_REPLY, 2)] := by
  refine completes_run rfl ?_
  rw [if_pos hw, run_setFld_bind, modDali, run_modDev]
  exact ⟨by simp [-State.put_dev, -State.putReg_dev], (((did_refl h).puts (by decide)).lived (by rfl)).latched s⟩
end

/-! ### Collisions and the bus (R486, R487) -/

section
variable (h : s.Inv)
include h

omit h in
theorem daliCollision_again (hp : s.dev.dali.phase = .sending) (hl : 0 < s.dev.dali.left) : Completes .daliCollision s fun t =>
    t.dev.dali = { s.dev.dali with phase := .settling, left := s.dev.dali.left - 1 } ∧ t.events = s.events ++ [0x5E] ∧
      s.Within (onlyRegs (perfOf daliPage)) t := by
  refine completes_run rfl ?_
  simp only [hp, if_true, run_emit_bind, modDali, Nat.ne_of_gt hl, if_false, run_modDev]
  refine ⟨by simp [-State.put_dev, -State.putReg_dev], by rw [latchEdges_events]; simp (disch := decide) [-State.put_events, -State.putReg_events, emit_events], ?_⟩
  rw [State.within_latch_iff, State.within_live_iff rfl]
  exact (emit_unlatched s daliPage (by decide)).1.within

theorem daliCollision_ends (hp : s.dev.dali.phase = .sending) (hl : s.dev.dali.left = 0) : Completes .daliCollision s fun t =>
    t.dev.dali = { s.dev.dali with phase := .idle } ∧ t.events = s.events ++ [0x5E] ∧
      s.Sets t [(DALI_STAT_BUSY, 0), (DALI_STAT_STATUS, 2)] (perfOf daliPage) := by
  refine completes_run rfl ?_
  simp only [hp, if_true]
  rw [if_pos hl, run_emit_bind, daliEnd, run_setFld_bind, run_setFld_bind, modDali, run_modDev]
  exact ⟨by simp [-State.put_dev, -State.putReg_dev], by rw [latchEdges_events]; simp (disch := decide) [-State.put_events, -State.putReg_events, emit_events], (((((did_refl h).emits (by decide) (by exact fun _ => .inr)).puts (by decide)).puts (by decide)).lived (by rfl)).latched s⟩

theorem daliBusFail_idle (hp : s.dev.dali.phase = .idle) :
    Completes .daliBusFail s fun t => t.dev.dali = s.dev.dali ∧ s.Sets t [(DALI_STAT_BUSFAIL, 1)] := by
  refine completes_run rfl ?_
  simp only [hp, ne_eq, not_true_eq_false, if_false, run_setFld_bind, run_pure]
  exact ⟨by simp [-State.put_dev, -State.putReg_dev], ((did_refl h).puts (by decide)).latched s⟩

theorem daliBusFail_ends (hp : s.dev.dali.phase ≠ .idle) : Completes .daliBusFail s fun t =>
    t.dev.dali = { s.dev.dali with phase := .idle } ∧ s.Sets t [(DALI_STAT_BUSFAIL, 1), (DALI_STAT_BUSY, 0), (DALI_STAT_STATUS, 1)] := by
  refine completes_run rfl ?_
  rw [if_pos hp, run_setFld_bind, daliEnd, run_setFld_bind, run_setFld_bind, modDali, run_modDev]
  exact ⟨by simp [-State.put_dev, -State.putReg_dev], (((((did_refl h).puts (by decide)).puts (by decide)).puts (by decide)).lived (by rfl)).latched s⟩

theorem daliBusIdle_clears : Completes .daliBusIdle s fun t => t.dev.dali = s.dev.dali ∧ s.Sets t [(DALI_STAT_BUSFAIL, 0)] :=
  completes_run rfl ⟨by simp [-State.put_dev, -State.putReg_dev], ((did_refl h).puts (by decide)).latched s⟩

omit h in
theorem daliForeignFrame_counts : Completes .daliForeignFrame s fun t =>
    t.dev.dali = (if s.en daliPage then { s.dev.dali with foreign := s.dev.dali.foreign + 1 } else s.dev.dali) ∧ s.Within {} t := by
  refine completes_run rfl ?_
  by_cases he : s.en daliPage = true
  · rw [if_pos he, if_pos he, modDali, run_modDev]
    exact ⟨by simp, by simp [State.within_live_iff]⟩
  · rw [if_neg he, if_neg he, run_pure]
    exact ⟨by simp, by simp⟩

/-! ### The meter (R490) -/

omit h in
theorem meterPulse_off (he : s.bit LUM_METER_EN = false) : Completes .meterPulse s fun t => s.Within {} t :=
  completes_nothing rfl (by rw [he, if_neg (by decide), run_pure]) (by simp)

theorem meterPulse_on (he : s.bit LUM_METER_EN = true) : Completes .meterPulse s fun t =>
    t.events = s.events ++ [0x5F] ∧ s.Sets t [(⟨LUM_MCNT, 31, 0⟩, (s.reg LUM_MCNT + 1).toNat)] (perfOf lumPage) := by
  refine completes_run rfl ?_
  rw [if_pos he, run_wr_bind]
  exact ⟨by rw [latchEdges_events]; simp (disch := decide) [-State.put_events, -State.putReg_events, emit_events], (((did_refl h).wrote (by decide)).emits (by decide) (by exact fun _ => .inr)).latched s⟩

theorem meterLoad_loads (v : Word) : Completes (.meterLoad v) s fun t => s.Sets t [(⟨LUM_MCNT, 31, 0⟩, v.toNat)] :=
  completes_run rfl (((did_refl h).wrote (by decide)).latched s)
end

/-- Settles O58: each command's guards pick its case, and each case is a chain of fields set. -/
theorem daliAndMeter : Obligations.DaliAndMeter := by
  intro s h
  exact ⟨fun v => ⟨fun hb => daliSend_busy h hb v, fun hb he => daliSend_off hb he v, fun hb he => daliSend_both h hb he v,
      fun hb he hn => ⟨daliSend_failed h hb he v hn, daliSend_starts h hb he v hn⟩⟩,
    daliSettled_sends, daliSettled_waits, daliForwardDone_again, daliForwardDone_ends h,
    fun hp => ⟨daliForwardDone_not hp, daliCollision_not hp⟩,
    fun v hw => ⟨daliBackwardFrame_value h hw v, daliBackwardFrame_framing h hw v, daliReplyTimeout_ends h hw⟩,
    fun hw f v => ⟨daliBackwardFrame_closed hw f v, daliReplyTimeout_closed hw⟩,
    daliCollision_again, daliCollision_ends h, daliBusFail_idle h, daliBusFail_ends h, daliBusIdle_clears h,
    daliForeignFrame_counts, meterPulse_off, meterPulse_on h, meterLoad_loads h⟩

end Sys2Proof.Machine
end

section
/-!
The real-time clock (R340–R344, R352, R382).
-/
namespace Sys2Proof.Machine
open Sys2Proof.Reg

variable {s t : State} {F : Foot} {l : List (Fld × Nat)} {noted : List Nat}

/-! ### Events and the alarm (R340, R344) -/

theorem run_rtcEmit (e : Nat) : (rtcEmit e).run s = if s.en rtcPage then (emit rtcPage e).run s else s := by
  rw [rtcEmit, run_getS, run_ite, run_pure]

theorem total_rtcEmit (e : Nat) : (rtcEmit e).Total := total_bind total_getS fun _ => total_ite (total_emit _ _) (total_pure _)

@[simp] theorem rtcEmit_dev {e : Nat} (he : latchOf e = none) : ((rtcEmit e).run s).dev = s.dev := by
  rw [run_rtcEmit]
  split
  · exact emit_unlatched_dev he
  · rfl

theorem rtcEmit_on {e : Nat} (h : s.en rtcPage = true) (he : latchOf e = none) : ((rtcEmit e).run s).events = s.events ++ [e] := by
  rw [run_rtcEmit, if_pos h, emit_events he]

theorem rtcEmit_off {e : Nat} (h : ¬ s.en rtcPage = true) : (rtcEmit e).run s = s := by rw [run_rtcEmit, if_neg h]

theorem rtcEmit_reg {e a : Nat} (h : a ∉ evRegs rtcPage) : ((rtcEmit e).run s).reg a = s.reg a := by
  rw [run_rtcEmit]
  split
  · exact emit_reg h
  · rfl

theorem State.Did.rtcEmits (h : s.Did t l noted F) {e : Nat} (he : latchOf e = none )
    (hn : ∀ a ∈ perfRegs rtcPage, F.regs a = true ∨ a ∈ noted) : s.Did ((rtcEmit e).run t) l noted F := by
  rw [run_rtcEmit]
  split
  · exact h.emit he hn
  · exact h

/-- The alarm stands and the seconds are at or past it (R344). -/
def State.alarmDue (s : State) : Prop := s.bit RTC_STAT_ARMED = true ∧ (s.reg RTC_SECONDS - s.reg RTC_ALARM).toNat < 2 ^ 31

/-- The alarm has fired, its event aside. -/
def State.alarmed (s : State) : State := (s.put RTC_STAT_ARMED 0).put RTC_STAT_ALARMF 1

@[simp] theorem alarmed_dev : s.alarmed.dev = s.dev := by rw [State.alarmed, State.dev_put, State.dev_put]
@[simp] theorem alarmed_events : s.alarmed.events = s.events := by rw [State.alarmed, State.events_put, State.events_put]
theorem alarmed_en : s.alarmed.en rtcPage = s.en rtcPage := by
  rw [State.alarmed, State.en, State.bit_put_other _ (by decide), State.bit_put_other _ (by decide), State.en]

theorem rtcAlarmCheck_not (h : ¬ s.alarmDue) : rtcAlarmCheck.run s = s := by
  rw [rtcAlarmCheck, run_getS, if_neg (show ¬ (_ ∧ _) from h), run_pure]

theorem rtcAlarmCheck_fires (h : s.alarmDue) : rtcAlarmCheck.run s =
    ((rtcEmit 0x02).run s.alarmed).live fun d => { d with pwr := { d.pwr with wake := bitSet d.pwr.wake 0 } } := by
  rw [rtcAlarmCheck, run_getS, if_pos (show _ ∧ _ from h), run_setFld_bind, run_setFld_bind, ← State.alarmed,
    (total_rtcEmit _).run_bind, run_modPwr]

/-! ### The second (R340, R344) -/

/-- The second has passed, the alarm not judged yet. -/
def State.ticked (s : State) : State :=
  (rtcEmit 0x01).run
    (((s.live fun d => { d with rtc := { d.rtc with prescaler := 0 } }).putReg RTC_SECONDS (s.reg RTC_SECONDS + 1)).put RTC_STAT_SECF 1)

theorem rtcSecond_to {P : State → Prop} (h : P (latchEdges s (rtcAlarmCheck.run s.ticked))) : Completes .rtcSecond s P :=
  completes_run rfl (by
    rw [run_modRtc_bind, run_wr_bind, run_setFld_bind, (total_rtcEmit _).run_bind]
    exact h)

theorem did_ticked (h : s.Inv) :
    s.Did s.ticked [(⟨RTC_SECONDS, 31, 0⟩, (s.reg RTC_SECONDS + 1).toNat), (RTC_STAT_SECF, 1)] (perfOf rtcPage) :=
  (((((did_refl h).lived (by rfl)).wrote (by decide)).puts (by decide)).rtcEmits (by decide) (by exact fun _ => .inr))

theorem ticked_dev : s.ticked.dev = { s.dev with rtc := { s.dev.rtc with prescaler := 0 } } := by
  rw [State.ticked, rtcEmit_dev (by decide), State.dev_put, State.dev_putReg, State.live_dev]

theorem ticked_events : s.ticked.events = if s.en rtcPage then s.events ++ [0x01] else s.events := by
  have hen : (((s.live fun d => { d with rtc := { d.rtc with prescaler := 0 } }).putReg RTC_SECONDS (s.reg RTC_SECONDS + 1)).put
      RTC_STAT_SECF 1).en rtcPage = s.en rtcPage := by
    rw [State.en, State.bit_put_other _ (by decide), State.bit_putReg_other _ (by decide), State.live_bit, State.en]
  by_cases he : s.en rtcPage = true
  · rw [State.ticked, rtcEmit_on (hen.trans he) (by decide), State.events_put, State.events_putReg, State.live_events, if_pos he]
  · rw [State.ticked, rtcEmit_off (by rw [hen]; exact he), State.events_put, State.events_putReg, State.live_events, if_neg he]

theorem ticked_due : s.ticked.alarmDue ↔
    s.bit RTC_STAT_ARMED = true ∧ (s.reg RTC_SECONDS + 1 - s.reg RTC_ALARM).toNat < 2 ^ 31 := by
  have hb : s.ticked.bit RTC_STAT_ARMED = s.bit RTC_STAT_ARMED := by
    rw [State.bit, State.fld, State.ticked, rtcEmit_reg (by decide), ← State.fld, ← State.bit, State.bit_apart _ (by decide),
      State.bit_putReg_other _ (by decide), State.live_bit]
  have hs : s.ticked.reg RTC_SECONDS = s.reg RTC_SECONDS + 1 := by
    rw [State.ticked, rtcEmit_reg (by decide), State.reg_put_other _ (by decide), State.reg_putReg_whole (by decide)]
  have ha : s.ticked.reg RTC_ALARM = s.reg RTC_ALARM := by
    rw [State.ticked, rtcEmit_reg (by decide), State.reg_put_other _ (by decide), State.reg_putReg_other _ (by decide), State.live_reg]
  rw [State.alarmDue, hb, hs, ha]

/-- What an alarm that fires leaves, from the state in which it is judged. -/
theorem alarm_did (h : s.Did t l noted F) (hn : ∀ a ∈ perfRegs rtcPage, F.regs a = true ∨ a ∈ noted) (ha : t.alarmDue) :
    s.Did (rtcAlarmCheck.run t) (l ++ [(RTC_STAT_ARMED, 0)] ++ [(RTC_STAT_ALARMF, 1)]) noted F := by
  rw [rtcAlarmCheck_fires ha]
  exact (((h.puts (by decide)).puts (by decide)).rtcEmits (by decide) (hn := hn)) |>.lived (by rfl)

theorem alarm_wakes (ha : t.alarmDue) : (rtcAlarmCheck.run t).dev.pwr.wake.testBit 0 = true := by
  rw [rtcAlarmCheck_fires ha, State.live_dev, rtcEmit_dev (by decide), alarmed_dev, bitSet, Nat.testBit_or]
  simp

theorem alarm_events (ha : t.alarmDue) (he : t.en rtcPage = true) : (rtcAlarmCheck.run t).events = t.events ++ [0x02] := by
  rw [rtcAlarmCheck_fires ha, State.live_events, rtcEmit_on (by rw [alarmed_en, he]) (by decide), alarmed_events]

theorem ticked_en : s.ticked.en rtcPage = s.en rtcPage := by
  rw [State.en, State.bit, State.fld, State.ticked, rtcEmit_reg (by decide), ← State.fld, ← State.bit, State.bit_put_other _ (by decide),
    State.bit_putReg_other _ (by decide), State.live_bit, State.en]

theorem rtcSecond_passes (h : s.Inv) (hd : ¬ (s.bit RTC_STAT_ARMED = true) ∨ ¬ (s.reg RTC_SECONDS + 1 - s.reg RTC_ALARM).toNat < 2 ^ 31) :
    Completes .rtcSecond s fun t =>
      t.dev.rtc.prescaler = 0 ∧ (s.en rtcPage = true → t.events = s.events ++ [0x01]) ∧ (¬ s.en rtcPage = true → t.events = s.events) ∧
      s.Sets t [(⟨RTC_SECONDS, 31, 0⟩, (s.reg RTC_SECONDS + 1).toNat), (RTC_STAT_SECF, 1)] (perfOf rtcPage) := by
  refine rtcSecond_to ?_
  rw [rtcAlarmCheck_not (fun hf => hd.elim (fun g => g (ticked_due.mp hf).1) fun g => g (ticked_due.mp hf).2)]
  refine ⟨by rw [latchEdges_rtc, ticked_dev], fun he => ?_, fun he => ?_, (did_ticked h).latched s⟩
  · rw [latchEdges_events, ticked_events, if_pos he]
  · rw [latchEdges_events, ticked_events, if_neg he]

theorem rtcSecond_alarms (h : s.Inv) (ha : s.bit RTC_STAT_ARMED = true) (hd : (s.reg RTC_SECONDS + 1 - s.reg RTC_ALARM).toNat < 2 ^ 31) :
    Completes .rtcSecond s fun t =>
      (s.en rtcPage = true → t.events = s.events ++ [0x01, 0x02]) ∧ t.dev.pwr.wake.testBit 0 = true ∧
      s.Sets t [(⟨RTC_SECONDS, 31, 0⟩, (s.reg RTC_SECONDS + 1).toNat), (RTC_STAT_SECF, 1), (RTC_STAT_ARMED, 0), (RTC_STAT_ALARMF, 1)]
        (perfOf rtcPage) := by
  have hdue := ticked_due.mpr ⟨ha, hd⟩
  refine rtcSecond_to ⟨fun he => ?_, by rw [latchEdges_pwr, alarm_wakes hdue], (alarm_did (did_ticked h) (fun _ => .inr) hdue).latched s⟩
  rw [latchEdges_events, alarm_events hdue (by rw [ticked_en, he]), ticked_events, if_pos he, List.append_assoc]
  rfl

/-! ### Loads and the alarm's arming (R341, R344) -/

theorem rtcSecondsWrite_asks (v : Word) : Completes (.rtcSecondsWrite v) s fun t => t.dev.rtc.load = some (v.toNat, true) ∧ s.Within {} t := by
  refine completes_run rfl ?_
  rw [rtcSecondsWrite, run_modRtc]
  exact ⟨by simp, by simp [State.within_live_iff]⟩

theorem rtcLoad_none (hl : s.dev.rtc.load = none) : Completes .rtcLoad s fun t => t.dev.rtc = s.dev.rtc ∧ s.Within {} t :=
  completes_nothing rfl (by rw [hl, run_nop]) ⟨by simp, by simp⟩

theorem rtcLoad_loads (h : s.Inv) {x : Nat × Bool} (hl : s.dev.rtc.load = some x) (ha : ¬ s.bit RTC_STAT_ARMED = true) :
    Completes .rtcLoad s fun t =>
      t.dev.rtc.prescaler = 0 ∧ t.dev.rtc.load = none ∧ t.dev.rtc.task = false ∧
      s.Sets t [(⟨RTC_SECONDS, 31, 0⟩, x.1), (RTC_STAT_TIME_VALID, 1)] := by
  obtain ⟨v, b⟩ := x
  refine completes_run rfl ?_
  rw [hl, run_wr_bind, run_modRtc_bind, run_setFld_bind, rtcAlarmCheck_not fun hf => ha ?_]
  · refine ⟨by simp [-State.put_dev, -State.putReg_dev], by simp [-State.put_dev, -State.putReg_dev], by simp [-State.put_dev, -State.putReg_dev], ?_⟩
    have hd := ((did_refl (noted := []) (F := {}) h).wrote (by decide) (a := RTC_SECONDS) (v := BitVec.ofNat 32 v)).of_after
      (l' := [(⟨RTC_SECONDS, 31, 0⟩, v)]) fun a => ?_
    · exact ((hd.lived (by rfl)).puts (by decide)).latched s
    · simp only [State.after, List.nil_append, List.foldl_cons, List.foldl_nil]
      split
      · refine word_ext fun i hi => ?_
        rw [bitsPut_testBit _ _ _ _ _ (by decide) hi, bitsPut_testBit _ _ _ _ _ (by decide) hi, BitVec.toNat_ofNat, Nat.testBit_mod_two_pow]
        simp [hi]
      · rfl
  · rw [← hf.1, State.bit_apart _ (by decide), State.live_bit, State.bit_putReg_other _ (by decide)]

theorem alarmWrite_run (v : Word) : (rtcAlarmWrite v).run s = rtcAlarmCheck.run ((s.putReg RTC_ALARM v).put RTC_STAT_ARMED 1) := by
  rw [rtcAlarmWrite, run_wr_bind, run_setFld_bind]

theorem alarmWrite_due (v : Word) : ((s.putReg RTC_ALARM v).put RTC_STAT_ARMED 1).alarmDue ↔ (s.reg RTC_SECONDS - v).toNat < 2 ^ 31 := by
  rw [State.alarmDue, State.bit_self _ (by decide), State.reg_put_other _ (by decide), State.reg_put_other _ (by decide),
    State.reg_putReg_whole (by decide), State.reg_putReg_other _ (by decide)]
  simp

theorem rtcAlarmWrite_waits (h : s.Inv) (v : Word) (hd : ¬ (s.reg RTC_SECONDS - v).toNat < 2 ^ 31) :
    Completes (.rtcAlarmWrite v) s fun t => s.Sets t [(⟨RTC_ALARM, 31, 0⟩, v.toNat), (RTC_STAT_ARMED, 1)] := by
  refine completes_run rfl ?_
  rw [alarmWrite_run, rtcAlarmCheck_not (fun hf => hd ((alarmWrite_due v).mp hf))]
  exact (((did_refl h).wrote (by decide)).puts (by decide)).latched s

theorem rtcAlarmWrite_fires (h : s.Inv) (v : Word) (hd : (s.reg RTC_SECONDS - v).toNat < 2 ^ 31) :
    Completes (.rtcAlarmWrite v) s fun t =>
      t.dev.pwr.wake.testBit 0 = true ∧ (s.en rtcPage = true → t.events = s.events ++ [0x02]) ∧
      s.Sets t [(⟨RTC_ALARM, 31, 0⟩, v.toNat), (RTC_STAT_ARMED, 0), (RTC_STAT_ALARMF, 1)] (perfOf rtcPage) := by
  have hdue := (alarmWrite_due v).mpr hd
  refine completes_run rfl ?_
  rw [alarmWrite_run]
  refine ⟨by rw [latchEdges_pwr, alarm_wakes hdue], fun he => ?_, ?_⟩
  · rw [latchEdges_events, alarm_events hdue, State.events_put, State.events_putReg]
    rw [State.en, State.bit_put_other _ (by decide), State.bit_putReg_other _ (by decide), ← State.en, he]
  · rw [rtcAlarmCheck_fires hdue]
    exact ((((((((did_refl h).wrote (by decide)).puts (by decide)).puts (by decide)).again (by decide)).puts (by decide)).rtcEmits (by decide) (by exact fun _ => .inr)).lived (by rfl)).latched s

/-! ### The supply of the domain (R352, R382) -/

theorem vrtcSwitch_selects (h : s.Inv) (vaon vbak : Nat) : Completes (.vrtcSwitch vaon vbak) s fun t =>
    t.dev.supply.vrtc = (if (if vaon + 50 < vbak then 1 else if vbak + 50 < vaon then 0 else s.fld RTC_STAT_VBAK) = 1 then vbak else vaon) ∧
      s.Sets t [(RTC_STAT_VBAK, if vaon + 50 < vbak then 1 else if vbak + 50 < vaon then 0 else s.fld RTC_STAT_VBAK)] := by
  have hlt : s.fld RTC_STAT_VBAK < 2 := State.fld_lt (n := 1) rfl
  have hsel : b2n (if vaon + 50 < vbak then true else if vbak + 50 < vaon then false else s.bit RTC_STAT_VBAK) =
      if vaon + 50 < vbak then 1 else if vbak + 50 < vaon then 0 else s.fld RTC_STAT_VBAK := by
    rw [State.bit]
    split
    · rfl
    · split
      · rfl
      · rcases (by omega : s.fld RTC_STAT_VBAK = 0 ∨ s.fld RTC_STAT_VBAK = 1) with hv | hv <;> rw [hv] <;> rfl
  refine completes_run rfl ?_
  rw [run_modSupply_bind, run_setFld, hsel]
  refine ⟨?_, (((did_refl h).lived (by rfl)).puts (by decide)).latched s⟩
  rw [latchEdges_supply, State.dev_put, State.live_dev, ← hsel]
  cases (if vaon + 50 < vbak then true else if vbak + 50 < vaon then false else s.bit RTC_STAT_VBAK) <;> rfl

end Sys2Proof.Machine
end

section
/-!
The clock sources (R378–R381).
-/
namespace Sys2Proof.Machine
open Sys2Proof.Reg

variable {s t : State}

theorem stageClkFail_run : stageClkFail.run s =
    (stage 0x09 true stInternal (s.reg pwrPage).toNat (leBytes 4 (s.reg PWR_CLKSTAT).toNat)).run s := by rw [stageClkFail, run_getS]

/-! ### The crystal and the PLL become ready (R379) -/

theorem xoStable_runs (h : s.Inv) (hx : s.xoRuns = true) : Completes .xoStable s fun t => s.Sets t [(PWR_CLKSTAT_XOOK, 1)] := by
  refine completes_run rfl ?_
  rw [if_pos hx, run_setFld_bind, run_modPwr]
  exact (((did_refl h).puts (by decide)).lived (by rfl)).latched s

theorem xoStable_not (hx : s.xoRuns = false) : Completes .xoStable s fun t => s.Within {} t :=
  completes_nothing rfl (by rw [hx, if_neg (by decide), run_pure]) (by simp)

theorem pllLock_locks (h : s.Inv) (hr : s.bit PWR_CLKREQ_PLLEN = true) (hx : s.xoOk = true) :
    Completes .pllLock s fun t => s.Sets t [(PWR_CLKSTAT_PLLLOCK, 1)] := by
  refine completes_run rfl ?_
  rw [if_pos ⟨hr, hx⟩, run_setFld]
  exact ((did_refl h).puts (by decide)).latched s

theorem pllLock_not (hn : s.bit PWR_CLKREQ_PLLEN = false ∨ s.xoOk = false) : Completes .pllLock s fun t => s.Within {} t :=
  completes_nothing rfl (by rw [if_neg (by rcases hn with hn | hn <;> simp [hn]), run_pure]) (by simp)

/-! ### Selection (R379) -/

theorem clockSelect_refused (h : s.Inv) {v : Word} (hv : v.toNat.testBit 8 = true) (hp : s.pllOk = false) :
    Completes (.clockSelect v) s fun t => s.Reports t pwrPage fltState := by
  refine completes_run rfl ?_
  rw [clkSelWrite, run_getS, if_pos (by rw [bitOf, hv, hp]; rfl)]
  exact (h.reports (by decide))

theorem clockSelect_selects {v : Word} (hv : v.toNat.testBit 8 = false ∨ s.pllOk = true) : Completes (.clockSelect v) s fun t =>
    t.reg PWR_CLKSEL = v &&& BitVec.ofNat 32 (maskOf PWR_CLKSEL) ∧ t.bit PWR_CLKSTAT_SRC = v.toNat.testBit 8 ∧
      s.Within (onlyRegs [PWR_CLKSEL, PWR_CLKSTAT]) t := by
  refine completes_run rfl ?_
  rw [clkSelWrite, run_getS, if_neg (by rw [bitOf]; rcases hv with hv | hv <;> simp [hv]), run_wr_bind, run_setFld]
  refine ⟨?_, ?_, ?_⟩
  · rw [latchEdges_reg, State.reg_put_other _ (by decide), State.reg_putReg_same]
  · rw [latchEdges_bit, State.bit_self _ (by decide), bitOf]
    cases v.toNat.testBit 8 <;> rfl
  · rw [State.within_latch_iff, State.within_put_iff (by decide), State.within_putReg_iff (by decide)]
    exact s.within_refl _

/-! ### What fails (R380, R381) -/

section
variable (h : s.Inv)
include h

theorem xoFail_idle (hb : s.bit PWR_CLKSTAT_SRC = false) : Completes .xoFail s fun t =>
    s.Sets t [(PWR_CLKSTAT_XOOK, 0), (PWR_CLKSTAT_PLLLOCK, 0)] := by
  refine completes_run rfl ?_
  rw [run_setFld_bind, run_setFld_bind, run_modPwr_bind, hb, if_neg (by decide), run_pure]
  exact ((((did_refl h).puts (by decide)).puts (by decide)).lived (by rfl)).latched s

theorem xoFail_moves (hb : s.bit PWR_CLKSTAT_SRC = true) (hl : s.dev.staged.length < 4) : Completes .xoFail s fun t =>
    t.dev.intc.edge.testBit 52 = true ∧ t.dev.staged.length = s.dev.staged.length + 1 ∧
      s.Sets t [(PWR_CLKSTAT_XOOK, 0), (PWR_CLKSTAT_PLLLOCK, 0), (PWR_CLKSEL_SRC, 0), (PWR_CLKSTAT_SRC, 0),
        (PWR_CLKSTAT_XOFAIL, 1), (LOGB_STAT_COUNT, s.dev.staged.length + 1)] (perfOf logbPage) := by
  refine completes_run rfl ?_
  rw [run_setFld_bind, run_setFld_bind, run_modPwr_bind, if_pos hb, toHfrc, run_assoc, run_setFld_bind, run_setFld_bind, run_setFld_bind,
    pulse, run_modIntc_bind, stageClkFail_run]
  refine ⟨latchEdges_edge ?_, ?_, ?_⟩
  · rw [stage_dev (by simpa [-State.put_dev, -State.putReg_dev] using hl)]
    simp only [State.live_dev, bitSet, Nat.testBit_or]
    exact Bool.or_eq_true_iff.mpr (.inr (by decide))
  · rw [latchEdges_staged, stage_dev (by simpa [-State.put_dev, -State.putReg_dev] using hl)]
    simp [-State.put_dev, -State.putReg_dev]
  · exact ((((((((did_refl h).puts (by decide)).puts (by decide)).lived (by rfl)).puts (by decide)).puts (by decide)).puts (by decide)).lived (by rfl)) |>.staged (by simpa [-State.put_dev, -State.putReg_dev] using hl) (by exact fun _ => .inr) |>.latched s

theorem lfCrystalOk_shows : Completes .lfCrystalOk s fun t => s.Sets t [(PWR_CLKSTAT_LFOK, 1)] := by
  refine completes_run rfl ?_
  rw [run_setFld]
  exact ((did_refl h).puts (by decide)).latched s

theorem lfCrystalFail_shows (hb : s.bit PWR_CLKSTAT_LFOK = true) (hl : s.dev.staged.length < 4) : Completes .lfCrystalFail s fun t =>
    t.dev.staged.length = s.dev.staged.length + 1 ∧
      s.Sets t [(PWR_CLKSTAT_LFOK, 0), (PWR_CLKSTAT_LFFAIL, 1), (LOGB_STAT_COUNT, s.dev.staged.length + 1)] (perfOf logbPage) := by
  refine completes_run rfl ?_
  rw [if_pos hb, run_setFld_bind, run_setFld_bind, stageClkFail_run]
  refine ⟨?_, (((did_refl h).puts (by decide)).puts (by decide)) |>.staged (by simpa [-State.put_dev, -State.putReg_dev] using hl) (by exact fun _ => .inr) |>.latched s⟩
  rw [latchEdges_staged, stage_dev (by simpa [-State.put_dev, -State.putReg_dev] using hl)]
  simp [-State.put_dev, -State.putReg_dev]
end

theorem lfCrystalFail_not (hb : s.bit PWR_CLKSTAT_LFOK = false) : Completes .lfCrystalFail s fun t => s.Within {} t :=
  completes_nothing rfl (by rw [hb, if_neg (by decide), run_pure]) (by simp)

/-- Settles O44: the alarm's condition is judged in the state the second leaves; the sources are chains of fields set. -/
theorem clocksAndCalendar : Obligations.ClocksAndCalendar :=
  ⟨fun _ h => ⟨rtcSecond_passes h, rtcSecond_alarms h, rtcSecondsWrite_asks, fun _ hl ha => rtcLoad_loads h hl ha, rtcLoad_none,
      fun v => ⟨rtcAlarmWrite_waits h v, rtcAlarmWrite_fires h v⟩, vrtcSwitch_selects h⟩,
    fun _ h => ⟨xoStable_runs h, xoStable_not, pllLock_locks h, pllLock_not, fun _ => ⟨clockSelect_refused h, clockSelect_selects⟩,
      xoFail_idle h, xoFail_moves h, lfCrystalOk_shows h, lfCrystalFail_shows h, lfCrystalFail_not⟩⟩

end Sys2Proof.Machine
end

section
/-!
The short timers (R329, R331–R334).
-/
namespace Sys2Proof.Machine
open Sys2Proof.Reg

variable {s t u : State} {α : Type}

/-! ### A loop of acts that have one outcome each -/

theorem total_forAll {l : List α} {f : α → M Unit} (h : ∀ x, (f x).Total) : (forAll l f).Total := by
  induction l with
  | nil => exact total_pure _
  | cons x l ih => exact total_bind (h x) fun _ => ih

theorem forAll_run {f : α → M Unit} (h : ∀ x, (f x).Total) (l : List α) (s : State) : (forAll l f).run s = l.foldl (fun t x => (f x).run t) s := by
  induction l generalizing s with
  | nil => rfl
  | cons x l ih => rw [forAll_cons, (h x).run_bind, ih, List.foldl_cons]

theorem foldl_fixed {f : State → α → State} {l : List α} (h : ∀ x ∈ l, f s x = s) : l.foldl f s = s := by
  induction l with
  | nil => rfl
  | cons x l ih => rw [List.foldl_cons, h x (by simp), ih fun y hy => h y (List.mem_cons_of_mem _ hy)]

/-- A loop in which one turn alone does something. -/
theorem foldl_one {f : State → α → State} {j : α} {l : List α} (hl : l.Nodup) (hj : j ∈ l) (hb : ∀ x ∈ l, x ≠ j → f s x = s)
    (ha : ∀ x ∈ l, x ≠ j → f (f s j) x = f s j) : l.foldl f s = f s j := by
  induction l with
  | nil => simp at hj
  | cons x l ih =>
    obtain ⟨hx, hl⟩ := List.nodup_cons.mp hl
    rw [List.foldl_cons]
    by_cases hxj : x = j
    · subst hxj
      exact foldl_fixed fun y hy => ha y (List.mem_cons_of_mem _ hy) fun h => hx (h ▸ hy)
    · rw [hb x (by simp) hxj]
      exact ih hl ((List.mem_cons.mp hj).resolve_left (Ne.symm hxj)) (fun y hy => hb y (List.mem_cons_of_mem _ hy))
        fun y hy => ha y (List.mem_cons_of_mem _ hy)

/-! ### What a timer's compares are judged by -/

/-- The registers that a tick reads and leaves. -/
def timerRegs (k : Nat) : List Nat := [STIM_TOP k, STIM_CHCFG k, STIM_CFG k, STIM_CC k 0, STIM_CC k 1, STIM_CC k 2, STIM_CC k 3]

/-- Two states between which a timer's configuration and the TOP in force stay. -/
structure State.SameTimer (k : Nat) (s t : State) : Prop where
  regs : ∀ a ∈ timerRegs k, t.reg a = s.reg a
  held : (t.st k).held = (s.st k).held

theorem sameTimer_refl (k : Nat) (s : State) : s.SameTimer k s := ⟨fun _ _ => rfl, rfl⟩

section
variable {k : Nat} (h : s.SameTimer k t)
include h

theorem State.SameTimer.top : t.stTop k = s.stTop k := by
  rw [State.stTop, h.held, State.fld, h.regs _ (by simp [timerRegs]), State.stTop, State.fld]

theorem State.SameTimer.cc {j : Nat} (hj : j < 4) : t.fld (STIM_CC_CC k j) = s.fld (STIM_CC_CC k j) := by
  have hm : STIM_CC k j ∈ timerRegs k := by
    rcases (by omega : j = 0 ∨ j = 1 ∨ j = 2 ∨ j = 3) with rfl | rfl | rfl | rfl <;> simp [timerRegs]
  rw [State.fld, h.regs _ hm, State.fld]

theorem State.SameTimer.outMode (j : Nat) : t.stOutMode k j = s.stOutMode k j := by
  rw [State.stOutMode, h.regs _ (by simp [timerRegs]), State.stOutMode]

theorem State.SameTimer.cap (j : Nat) : t.stCap k j = s.stCap k j := by
  rw [State.stCap, h.regs _ (by simp [timerRegs]), State.stCap]

theorem State.SameTimer.cfg (hi lo : Nat) : t.bit ⟨STIM_CFG k, hi, lo⟩ = s.bit ⟨STIM_CFG k, hi, lo⟩ := by
  rw [State.bit, State.fld, h.regs _ (by simp [timerRegs]), State.bit, State.fld]

theorem State.SameTimer.put {f : Fld} (v : Nat) (hf : f.addr ∉ timerRegs k) : s.SameTimer k (t.put f v) :=
  ⟨fun a ha => by rw [State.reg_put_other _ fun he => hf (he ▸ ha), h.regs a ha], h.held⟩

theorem State.SameTimer.live {f : Dev → Dev} (hf : (Sparse.val {} (f t.dev).st k).held = (t.st k).held) : s.SameTimer k (t.live f) :=
  ⟨fun a ha => by rw [State.live_reg, h.regs a ha], by rw [State.st, State.live_dev, hf, h.held]⟩

theorem State.SameTimer.emit {p e : Nat} (hp : ∀ a ∈ timerRegs k, a ∉ evRegs p) (he : latchOf e = none) : s.SameTimer k ((Machine.emit p e).run t) :=
  ⟨fun a ha => by rw [emit_reg (hp a ha), h.regs a ha], by rw [State.st, emit_unlatched_dev he, ← State.st, h.held]⟩
end

theorem stim_page_apart : ∀ k < 8, ∀ a ∈ timerRegs k, a ∉ evRegs stimPage := by decide
theorem stim_count_apart : ∀ k < 8, STIM_COUNT k ∉ timerRegs k := by decide
theorem stim_stat_apart : ∀ k < 8, STIM_STAT k ∉ timerRegs k := by decide

theorem val_upd_same {β : Type} [DecidableEq β] (d : β) (m : Sparse β) (k : Nat) (f : β → β) : Sparse.val d (Sparse.upd d m k f) k = f (Sparse.val d m k) := by
  rw [Sparse.upd, Sparse.val, Sparse.get_set_same]

@[simp] theorem run_modSt (k : Nat) (f : StLive → StLive) (s : State) :
    (modSt k f).run s = s.live fun d => { d with st := Sparse.upd {} d.st k f } := (rfl)
@[simp] theorem run_modSt_bind (k : Nat) (f : StLive → StLive) (g : Unit → M Unit) (s : State) :
    (modSt k f >>= g).run s = (g ()).run (s.live fun d => { d with st := Sparse.upd {} d.st k f }) := (rfl)
theorem total_modSt (k : Nat) (f : StLive → StLive) : (modSt k f).Total := total_act _

/-! ### Compares (R333, R334) -/

theorem total_setStOut (n k : Nat) (b : Bool) : (setStOut n k b).Total := total_modSt _ _

theorem total_stFire (n k : Nat) (d : Bool) : (stFire n k d).Total := by
  refine total_bind total_getS fun _ => total_bind (total_modSt _ _) fun _ => total_bind (total_setFld _ _) fun _ =>
    total_bind (total_emit _ _) fun _ => ?_
  split
  · exact total_modSt _ _
  · exact total_setStOut _ _ _
  · exact total_setStOut _ _ _
  · exact total_pure _

/-- The judgement of one channel's compare. -/
def stJudge (n : Nat) (down : Bool) (k : Nat) : M Unit := do
  let s ← getS
  let cc := s.fld (STIM_CC_CC n k)
  let cnt := s.fld (STIM_COUNT_COUNT n)
  let behind := if down then (cc + 0x10000 - cnt) % 0x10000 else (cnt + 0x10000 - cc) % 0x10000
  if bitOf (s.st n).armed k ∧ !s.stCap n k ∧ cc ≤ s.stTop n ∧ behind < 0x8000 then
    stFire n k down

theorem total_stJudge (n : Nat) (d : Bool) (k : Nat) : (stJudge n d k).Total :=
  total_bind total_getS fun _ => total_ite (total_stFire _ _ _) (total_pure _)

theorem stCompare_run (n : Nat) (d : Bool) (s : State) :
    (stCompare n d).run s = (List.range 4).foldl (fun t k => (stJudge n d k).run t) s :=
  forAll_run (f := stJudge n d) (total_stJudge n d) _ _

theorem total_stCompare (n : Nat) (d : Bool) : (stCompare n d).Total := total_forAll (total_stJudge n d)

theorem stJudge_quiet {n k : Nat} (d : Bool) (h : s.stTop n < s.fld (STIM_CC_CC n k)) : (stJudge n d k).run s = s := by
  rw [stJudge, run_getS, if_neg fun hf => absurd hf.2.2.1 (Nat.not_le.mpr h), run_pure]

/-- Compares above TOP do not fire. -/
theorem stCompare_quiet {n : Nat} (d : Bool) (h : ∀ j < 4, s.stTop n < s.fld (STIM_CC_CC n j)) : (stCompare n d).run s = s := by
  rw [stCompare_run]
  exact foldl_fixed fun j hj => stJudge_quiet d (h j (by simpa using hj))

/-- The state in which channel j of timer n has fired, its output aside. -/
def State.fired (s : State) (n j : Nat) : State :=
  (emit stimPage (0x28 + 4 * n + j)).run
    ((s.live fun d => { d with st := Sparse.upd {} d.st n fun t => { t with armed := bitClr t.armed j } }).put
      ⟨(STIM_STAT_FLAGS n).addr, (STIM_STAT_FLAGS n).lo + j, (STIM_STAT_FLAGS n).lo + j⟩ 1)

/-- What a firing makes of an output (R334). -/
def stOutNext (mode : Nat) (down : Bool) (j out : Nat) : Nat :=
  match mode with
  | 1 => if bitOf out j then bitClr out j else bitSet out j
  | 2 => bitClr out j
  | 3 => if !down then bitSet out j else bitClr out j
  | _ => out

/-- The state with an output moved as a firing moves it; in mode 0 nothing is done. -/
def State.outMoved (s : State) (n j mode : Nat) (down : Bool) : State :=
  if 1 ≤ mode ∧ mode ≤ 3 then
    s.live fun x => { x with st := Sparse.upd {} x.st n fun t => { t with out := stOutNext mode down j t.out } }
  else s

theorem stFire_run {n j : Nat} (d : Bool) (hj : j < 4) : (stFire n j d).run s = (s.fired n j).outMoved n j (s.stOutMode n j) d := by
  have hput : ∀ t : State, t.put (STIM_STAT_FLAGS n) (bitSet (t.fld (STIM_STAT_FLAGS n)) j) =
      t.put ⟨(STIM_STAT_FLAGS n).addr, (STIM_STAT_FLAGS n).lo + j, (STIM_STAT_FLAGS n).lo + j⟩ 1 := fun t =>
    t.put_bitSet (STIM_STAT_FLAGS n) (by show 0 + j ≤ 4; omega)
  rw [stFire, run_getS, run_modSt_bind, run_setFld_bind, ← State.live_fld, hput, run_emit_bind, ← State.fired, State.outMoved]
  split
  case h_1 hm => rw [hm, if_pos (by omega)]; rfl
  case h_2 hm => rw [hm, if_pos (by omega)]; rfl
  case h_3 hm => rw [hm, if_pos (by omega)]; rfl
  case h_4 h1 h2 h3 =>
    have hno : ¬ (1 ≤ s.stOutMode n j ∧ s.stOutMode n j ≤ 3) := fun hm => by
      rcases (by omega : s.stOutMode n j = 1 ∨ s.stOutMode n j = 2 ∨ s.stOutMode n j = 3) with e | e | e
      exacts [h1 e, h2 e, h3 e]
    rw [run_nop, if_neg hno]

theorem outMoved_st {n j mode : Nat} {d : Bool} : (s.outMoved n j mode d).st n = { s.st n with out := stOutNext mode d j (s.st n).out } := by
  rw [State.outMoved]
  split
  · rw [State.st, State.live_dev, val_upd_same, ← State.st]
  · rename_i hm
    have hout : stOutNext mode d j (s.st n).out = (s.st n).out := by
      rcases (by omega : mode = 0 ∨ 4 ≤ mode) with rfl | hge
      · rfl
      · obtain ⟨m, rfl⟩ := Nat.exists_eq_add_of_le' hge
        rfl
    rw [hout]

@[simp] theorem outMoved_events {n j mode : Nat} {d : Bool} : (s.outMoved n j mode d).events = s.events := by
  rw [State.outMoved]
  split <;> rfl

theorem fire_latch : ∀ n < 8, ∀ j < 4, latchOf (0x28 + 4 * n + j) = none := by decide
theorem period_latch : ∀ n < 8, latchOf (0x20 + n) = none := by decide

section
variable {n j : Nat} (hn : n < 8) (hj : j < 4)
include hn hj

theorem fired_st : (s.fired n j).st n = { s.st n with armed := bitClr (s.st n).armed j } := by
  rw [State.fired, State.st, emit_unlatched_dev (fire_latch n hn j hj), State.dev_put, State.live_dev, val_upd_same, ← State.st]

theorem fired_events : (s.fired n j).events = s.events ++ [0x28 + 4 * n + j] := by
  rw [State.fired, emit_events (fire_latch n hn j hj), State.events_put, State.live_events]

theorem stim_flag_settable : Fld.settable ⟨(STIM_STAT_FLAGS n).addr, (STIM_STAT_FLAGS n).lo + j, (STIM_STAT_FLAGS n).lo + j⟩ = true :=
  (show ∀ n < 8, ∀ j < 4, Fld.settable ⟨(STIM_STAT_FLAGS n).addr, (STIM_STAT_FLAGS n).lo + j, (STIM_STAT_FLAGS n).lo + j⟩ = true by
    decide) n hn j hj

theorem State.Did.fires {l : List (Fld × Nat)} (h : s.Did t l (perfOf stimPage)) (d : Bool) : s.Did ((stFire n j d).run t)
    (l ++ [(⟨(STIM_STAT_FLAGS n).addr, (STIM_STAT_FLAGS n).lo + j, (STIM_STAT_FLAGS n).lo + j⟩, 1)]) (perfOf stimPage) := by
  have hf := (h.lived (by rfl) (f := fun d => { d with st := Sparse.upd {} d.st n fun t => { t with armed := bitClr t.armed j } }))
    |>.put (stim_flag_settable hn hj) 1 |>.emit (p := stimPage) (fire_latch n hn j hj) fun _ => .inr
  rw [stFire_run d hj, State.outMoved]
  split
  · exact (hf.lived (by rfl))
  · exact hf

theorem fired_sameTimer (d : Bool) : s.SameTimer n ((stFire n j d).run s) := by
  have hf : s.SameTimer n (s.fired n j) :=
    (((sameTimer_refl n s).live (by rw [val_upd_same, ← State.st])).put 1 (stim_stat_apart n hn)).emit (stim_page_apart n hn)
      (fire_latch n hn j hj)
  rw [stFire_run d hj, State.outMoved]
  split
  · exact hf.live (by rw [val_upd_same, ← State.st])
  · exact hf

/-- One channel's compare fires, the others' stand above TOP. -/
theorem stCompare_one (d : Bool) (hq : ∀ i < 4, i ≠ j → s.stTop n < s.fld (STIM_CC_CC n i)) (hf : (stJudge n d j).run s = (stFire n j d).run s) :
    (stCompare n d).run s = (stFire n j d).run s := by
  have hsame := fired_sameTimer (s := s) hn hj d
  rw [stCompare_run, ← hf]
  refine foldl_one (f := fun t k => (stJudge n d k).run t) (by decide) (by simpa using hj)
    (fun i hi hij => stJudge_quiet d (hq i (by simpa using hi) hij)) fun i hi hij => ?_
  have hi4 : i < 4 := by simpa using hi
  show (stJudge n d i).run ((stJudge n d j).run s) = (stJudge n d j).run s
  rw [hf]
  exact stJudge_quiet d (by rw [hsame.top, hsame.cc hi4]; exact hq i hi4 hij)
end

/-! ### Turns and periods (R332, R333) -/

theorem total_stTurn (n c : Nat) : (stTurn n c).Total :=
  total_bind (total_setFld _ _) fun _ => total_bind (total_setFld _ _) fun _ => total_bind (total_modSt _ _) fun _ => total_stCompare _ _

/-- The state with every compare of a timer armed. -/
def State.armed (s : State) (k : Nat) : State := s.live fun d => { d with st := Sparse.upd {} d.st k fun t => { t with armed := 0xF } }

theorem armed_st (k : Nat) : (s.armed k).st k = { s.st k with armed := 0xF } := by rw [State.armed, State.st, State.live_dev, val_upd_same, ← State.st]

theorem State.SameTimer.quiet {k : Nat} (h : s.SameTimer k t) (hq : ∀ j < 4, s.stTop k < s.fld (STIM_CC_CC k j)) :
    ∀ j < 4, t.stTop k < t.fld (STIM_CC_CC k j) := fun j hj => by rw [h.top, h.cc hj]; exact hq j hj

/-- The turn to counting down where no compare fires. -/
theorem stTurn_quiet {k c : Nat} (hk : k < 8) (hq : ∀ j < 4, s.stTop k < s.fld (STIM_CC_CC k j)) :
    (stTurn k c).run s = ((s.put (STIM_COUNT_DOWN k) 1).put (STIM_COUNT_COUNT k) c).armed k := by
  have hs : s.SameTimer k (((s.put (STIM_COUNT_DOWN k) 1).put (STIM_COUNT_COUNT k) c).armed k) :=
    (((sameTimer_refl k s).put 1 (stim_count_apart k hk)).put c (stim_count_apart k hk)).live (by rw [val_upd_same]; rfl)
  rw [stTurn, run_setFld_bind, run_setFld_bind, stArm, run_modSt_bind, ← State.armed, stCompare_quiet _ (hs.quiet hq)]

theorem foldl_keeps {β : Type} {f : β → α → β} {P : β → Prop} (hf : ∀ t x, P t → P (f t x)) (l : List α) {b : β} (h : P b) : P (l.foldl f b) := by
  induction l generalizing b with
  | nil => exact h
  | cons x l ih => exact ih (hf _ _ h)

/-- What the start of a period has done, from the state with the compares armed. -/
structure State.Started (s u t : State) (k : Nat) (l : List (Fld × Nat)) : Prop where
  did : s.Did t l (perfOf stimPage)
  same : u.SameTimer k t
  armed : (t.st k).armed = 0xF
  events : t.events = u.events

theorem total_stPeriodBody (k x : Nat) : M.Total (do let s ← getS; if s.stOutMode k x = 2 then setStOut k x true) :=
  total_bind total_getS fun _ => total_ite (total_setStOut _ _ _) (total_pure _)

theorem total_stPeriodEnd (k : Nat) : (stPeriodEnd k).Total :=
  total_bind (total_bind total_getS fun _ => total_pure _) fun _ => total_bind (total_setFld _ _) fun _ => total_bind (total_emit _ _) fun _ =>
    total_bind (total_modSt _ _) fun _ => total_forAll (total_stPeriodBody k)

theorem stPeriodStart_run {k : Nat} {l : List (Fld × Nat)} (h : s.Did u l (perfOf stimPage)) : s.Started u ((stPeriodStart k).run u) k l := by
  rw [stPeriodStart, stArm, run_modSt_bind, ← State.armed, forAll_run (total_stPeriodBody k)]
  refine foldl_keeps (P := fun t => s.Started u t k l) (fun t x ht => ?_) _
    ⟨(h.lived (by rfl)), (sameTimer_refl k u).live (by rw [val_upd_same]; rfl), by rw [armed_st], rfl⟩
  rw [run_getS, run_ite, setStOut, run_modSt, run_pure]
  split
  · refine ⟨(ht.did.lived (by rfl)), ht.same.live (by rw [val_upd_same]; rfl), ?_, ht.events⟩
    rw [State.st, State.live_dev, val_upd_same]
    exact ht.armed
  · exact ht

/-- The flag of a period's end. -/
def stEndFlag (k : Nat) : Fld := ⟨(STIM_STAT_FLAGS k).addr, (STIM_STAT_FLAGS k).lo + 4, (STIM_STAT_FLAGS k).lo + 4⟩

theorem stEndFlag_settable : ∀ k < 8, (stEndFlag k).settable = true := by decide

/-- The state of a timer that counts up from here on: no TOP is held back (R332). -/
def State.upped (s : State) (k : Nat) : State :=
  (s.put (STIM_COUNT_DOWN k) 0).live fun d => { d with st := Sparse.upd {} d.st k fun x => { x with held := none } }

theorem upped_st (k : Nat) : (s.upped k).st k = { s.st k with held := none } := by
  rw [State.upped, State.st, State.live_dev, val_upd_same, State.dev_put, ← State.st]
@[simp] theorem upped_events (k : Nat) : (s.upped k).events = s.events := by rw [State.upped, State.live_events, State.events_put]

section
variable {k : Nat} (hk : k < 8)
include hk

theorem upped_reg {a : Nat} (ha : a ∈ timerRegs k) : (s.upped k).reg a = s.reg a := by
  have hne : a ≠ (STIM_COUNT_DOWN k).addr := fun he => by
    subst he
    exact stim_count_apart k hk ha
  rw [State.upped, State.live_reg, State.reg_put_other _ hne]

theorem upped_top : (s.upped k).stTop k = s.fld (STIM_TOP_TOP k) := by
  rw [State.stTop, upped_st, Option.getD_none, State.fld, upped_reg hk (by simp [timerRegs]), State.fld]

theorem upped_cc {j : Nat} (hj : j < 4) : (s.upped k).fld (STIM_CC_CC k j) = s.fld (STIM_CC_CC k j) := by
  have hm : (STIM_CC_CC k j).addr ∈ timerRegs k := by
    rcases (by omega : j = 0 ∨ j = 1 ∨ j = 2 ∨ j = 3) with rfl | rfl | rfl | rfl <;> simp [timerRegs]
  rw [State.fld, upped_reg hk hm, State.fld]

/-- The state in which a period's end has been reported. -/
def State.periodEnded (s : State) (k : Nat) : State := (emit stimPage (0x20 + k)).run (s.put (stEndFlag k) 1)

omit hk in
theorem stPeriodEnd_run : (stPeriodEnd k).run s = (stPeriodStart k).run (s.periodEnded k) := by
  rw [stPeriodEnd, run_fld, run_setFld_bind, s.put_bitSet (STIM_STAT_FLAGS k) (by show 0 + 4 ≤ 4; omega), run_emit_bind, State.periodEnded,
    stEndFlag]

theorem periodEnded_same : s.SameTimer k (s.periodEnded k) :=
  ((sameTimer_refl k s).put 1 (stim_stat_apart k hk)).emit (stim_page_apart k hk) (period_latch k hk)

theorem periodEnded_events : (s.periodEnded k).events = s.events ++ [0x20 + k] := by
  rw [State.periodEnded, emit_events (period_latch k hk), State.events_put]

/-- Count 0 reached where no compare fires: the period ends. -/
theorem stBottom_quiet {l : List (Fld × Nat)} (h : s.Did (t.put (STIM_COUNT_DOWN k) 0) l (perfOf stimPage))
    (hp : 0 < t.fld (STIM_TOP_TOP k)) (hq : ∀ j < 4, t.fld (STIM_TOP_TOP k) < t.fld (STIM_CC_CC k j)) :
    ((stBottom k).run t).events = t.events ++ [0x20 + k] ∧ (((stBottom k).run t).st k).armed = 0xF ∧
      (((stBottom k).run t).st k).held = none ∧ s.Did ((stBottom k).run t) (l ++ [(stEndFlag k, 1)]) (perfOf stimPage) := by
  have hsame := periodEnded_same (s := t.upped k) hk
  have hw : s.Did ((t.upped k).periodEnded k) (l ++ [(stEndFlag k, 1)]) (perfOf stimPage) :=
    ((h.lived (by rfl)).put (stEndFlag_settable k hk) 1).emit (period_latch k hk) fun _ => .inr
  obtain ⟨hdid, hsame', harm, hev⟩ := stPeriodStart_run (k := k) hw
  have hquiet : ∀ j < 4, ((stPeriodStart k).run ((t.upped k).periodEnded k)).stTop k <
      ((stPeriodStart k).run ((t.upped k).periodEnded k)).fld (STIM_CC_CC k j) := fun j hj => by
    rw [hsame'.top, hsame'.cc hj, hsame.top, hsame.cc hj, upped_top hk, upped_cc hk hj]
    exact hq j hj
  have hrun : (stBottom k).run t = (stPeriodStart k).run ((t.upped k).periodEnded k) := by
    rw [stBottom, stUp, run_assoc, run_setFld_bind, run_modSt_bind, ← State.upped, run_getS, if_neg (by rw [upped_top hk]; omega),
      (total_stPeriodEnd k).run_bind, stPeriodEnd_run, stCompare_quiet _ hquiet]
  rw [hrun]
  refine ⟨?_, harm, ?_, hdid⟩
  · rw [hev, periodEnded_events hk, upped_events]
  · rw [hsame'.held, hsame.held, upped_st]
end

/-! ### The tick's cases (R332) -/

/-- The timer's clock runs: enabled, on the bus clock, its gate open (R331). -/
def State.stRuns (s : State) (k : Nat) : Prop :=
  s.bit ⟨STIM_EN, k, k⟩ = true ∧ s.bit (STIM_CFG_CLK k) = false ∧ s.fld (STIM_CFG_GATE k) = 0

theorem gateOpen_of_none {k : Nat} (h : s.fld (STIM_CFG_GATE k) = 0) : s.gateOpen k = true := by
  simp [State.gateOpen, h]

theorem stTick_to {n : Fin 8} {P : State → Prop} (hr : s.stRuns n.val) (hP : P (latchEdges s ((stTick n.val).run s))) : Completes (.stTick n) s P :=
  completes_run rfl (by rw [hr.2.1, Bool.not_false, if_pos rfl]; exact hP)

theorem stTick_not {n : Fin 8} (h : s.bit ⟨STIM_EN, n.val, n.val⟩ = false ∨ s.bit (STIM_CFG_CLK n.val) = true) :
    Completes (.stTick n) s fun t => s.Within {} t := by
  refine completes_nothing rfl ?_ (by simp)
  rcases h with h | h
  · simp [h, stTick]
  · simp [h]

section
variable {k : Nat} (hr : s.stRuns k)
include hr

theorem stTick_up (hd : s.bit (STIM_COUNT_DOWN k) = false) (hlt : s.fld (STIM_COUNT_COUNT k) < s.stTop k) :
    (stTick k).run s = (stCompare k false >>= fun _ =>
      if s.bit (STIM_CFG_MODE k) = true ∧ s.fld (STIM_COUNT_COUNT k) + 1 = s.stTop k then stTurn k (s.stTop k) else pure ()).run
        (s.put (STIM_COUNT_COUNT k) (s.fld (STIM_COUNT_COUNT k) + 1)) := by
  have hne : ¬ s.fld (STIM_COUNT_COUNT k) = s.stTop k := by omega
  rw [stTick, run_getS, if_pos ⟨hr.1, gateOpen_of_none hr.2.2⟩, if_neg (by omega), hd, Bool.not_false, if_pos rfl, if_neg (by omega), if_neg hne,
    run_setFld_bind]

theorem stTick_top (hd : s.bit (STIM_COUNT_DOWN k) = false) (hm : s.bit (STIM_CFG_MODE k) = false) (he : s.fld (STIM_COUNT_COUNT k) = s.stTop k)
    (hp : 0 < s.stTop k) : (stTick k).run s = (stBottom k).run (s.put (STIM_COUNT_COUNT k) 0) := by
  rw [stTick, run_getS, if_pos ⟨hr.1, gateOpen_of_none hr.2.2⟩, if_neg (by omega), hd, Bool.not_false, if_pos rfl,
    if_neg (by simp [hm]; omega), if_pos he, run_setFld_bind]

theorem stTick_turn (hd : s.bit (STIM_COUNT_DOWN k) = false) (hm : s.bit (STIM_CFG_MODE k) = true) (he : s.fld (STIM_COUNT_COUNT k) = s.stTop k)
    (hp : 1 < s.stTop k) : (stTick k).run s = (stTurn k (s.fld (STIM_COUNT_COUNT k) - 1)).run s := by
  rw [stTick, run_getS, if_pos ⟨hr.1, gateOpen_of_none hr.2.2⟩, if_neg (by omega), hd, Bool.not_false, if_pos rfl,
    if_pos (.inr ⟨hm, he⟩), if_neg (by omega), if_neg (by simp [hm]), (total_stTurn _ _).run_bind, run_pure]

theorem stTick_down (hd : s.bit (STIM_COUNT_DOWN k) = true) (hm : s.bit (STIM_CFG_MODE k) = true) (hp : 0 < s.fld (STIM_COUNT_COUNT k)) :
    (stTick k).run s = (stCompare k true >>= fun _ => if s.fld (STIM_COUNT_COUNT k) ≤ 1 then stBottom k else pure ()).run
      (s.put (STIM_COUNT_COUNT k) (s.fld (STIM_COUNT_COUNT k) - 1)) := by
  rw [stTick, run_getS, if_pos ⟨hr.1, gateOpen_of_none hr.2.2⟩, if_neg (by omega), hd, Bool.not_true, if_neg (by decide), run_setFld_bind]
  simp only [hm, if_true]
end

/-! ### What the tick leaves, case by case -/

theorem stim_count_settable : ∀ k < 8, (STIM_COUNT_COUNT k).settable = true ∧ (STIM_COUNT_DOWN k).settable = true := by decide
theorem stim_count_down_apart : ∀ k < 8, (STIM_COUNT_COUNT k).apart (STIM_COUNT_DOWN k) = true := by decide

/-- The flag of a channel's compare. -/
def stChFlag (k j : Nat) : Fld := ⟨(STIM_STAT_FLAGS k).addr, (STIM_STAT_FLAGS k).lo + j, (STIM_STAT_FLAGS k).lo + j⟩

section
variable {k : Nat} (hk : k < 8)
include hk

theorem counted_same (c : Nat) : s.SameTimer k (s.put (STIM_COUNT_COUNT k) c) := (sameTimer_refl k s).put c (stim_count_apart k hk)

theorem State.Did.count {l : List (Fld × Nat)} {noted : List Nat} (h : s.Did t l noted) (c : Nat) :
    s.Did (t.put (STIM_COUNT_COUNT k) c) (l ++ [(STIM_COUNT_COUNT k, c)]) noted := h.put (stim_count_settable k hk).1 c
end

section
variable {n : Fin 8} (h : s.Inv) (hr : s.stRuns n.val)
include h hr

theorem stTick_counts (hd : s.bit (STIM_COUNT_DOWN n.val) = false) (hlt : s.fld (STIM_COUNT_COUNT n.val) < s.stTop n.val)
    (hm : s.fld (STIM_COUNT_COUNT n.val) + 1 < s.stTop n.val ∨ s.bit (STIM_CFG_MODE n.val) = false)
    (hq : ∀ j < 4, s.stTop n.val < s.fld (STIM_CC_CC n.val j)) :
    Completes (.stTick n) s fun t => t.st n.val = s.st n.val ∧ s.Sets t [(STIM_COUNT_COUNT n.val, s.fld (STIM_COUNT_COUNT n.val) + 1)] := by
  have hno : ¬ (s.bit (STIM_CFG_MODE n.val) = true ∧ s.fld (STIM_COUNT_COUNT n.val) + 1 = s.stTop n.val) := by
    rcases hm with hm | hm
    · omega
    · simp [hm]
  refine stTick_to hr ?_
  rw [stTick_up hr hd hlt, (total_stCompare _ _).run_bind, if_neg hno, run_pure, stCompare_quiet _ ((counted_same n.isLt _).quiet hq)]
  exact ⟨by rw [State.st, latchEdges_st, State.dev_put, ← State.st], ((did_refl h).count n.isLt _).latched s⟩

theorem stTick_fires {j : Nat} (hd : s.bit (STIM_COUNT_DOWN n.val) = false) (hlt : s.fld (STIM_COUNT_COUNT n.val) < s.stTop n.val)
    (hm : s.fld (STIM_COUNT_COUNT n.val) + 1 < s.stTop n.val ∨ s.bit (STIM_CFG_MODE n.val) = false) (hj : j < 4)
    (hq : ∀ i < 4, i ≠ j → s.stTop n.val < s.fld (STIM_CC_CC n.val i)) (hc : s.fld (STIM_CC_CC n.val j) = s.fld (STIM_COUNT_COUNT n.val) + 1)
    (ha : (s.st n.val).armed.testBit j = true) (hcap : s.stCap n.val j = false) :
    Completes (.stTick n) s fun t =>
      t.events = s.events ++ [0x28 + 4 * n.val + j] ∧
      t.st n.val = { s.st n.val with armed := bitClr (s.st n.val).armed j, out := stOutNext (s.stOutMode n.val j) false j (s.st n.val).out } ∧
      s.Sets t [(STIM_COUNT_COUNT n.val, s.fld (STIM_COUNT_COUNT n.val) + 1), (stChFlag n.val j, 1)] (perfOf stimPage) := by
  have hno : ¬ (s.bit (STIM_CFG_MODE n.val) = true ∧ s.fld (STIM_COUNT_COUNT n.val) + 1 = s.stTop n.val) := by
    rcases hm with hm | hm
    · omega
    · simp [hm]
  have hs := counted_same (s := s) n.isLt (s.fld (STIM_COUNT_COUNT n.val) + 1)
  have hcnt : (s.put (STIM_COUNT_COUNT n.val) (s.fld (STIM_COUNT_COUNT n.val) + 1)).fld (STIM_COUNT_COUNT n.val) =
      s.fld (STIM_COUNT_COUNT n.val) + 1 := by
    have hcc : s.fld (STIM_CC_CC n.val j) < 2 ^ 16 := State.fld_lt rfl
    rw [State.fld_self _ (stim_count_settable _ n.isLt).1]
    show (s.fld (STIM_COUNT_COUNT n.val) + 1) % 2 ^ 16 = _
    exact Nat.mod_eq_of_lt (by rw [← hc]; exact hcc)
  have hjudge : (stJudge n.val false j).run (s.put (STIM_COUNT_COUNT n.val) (s.fld (STIM_COUNT_COUNT n.val) + 1)) =
      (stFire n.val j false).run (s.put (STIM_COUNT_COUNT n.val) (s.fld (STIM_COUNT_COUNT n.val) + 1)) := by
    have hle : s.fld (STIM_COUNT_COUNT n.val) + 1 ≤ s.stTop n.val := by omega
    rw [stJudge, run_getS]
    simp only [hs.cc hj, hc, hcnt, hs.top, hs.cap, hcap, Bool.false_eq_true, if_false]
    rw [if_pos ⟨ha, rfl, hle, by omega⟩]
  refine stTick_to hr ?_
  rw [stTick_up hr hd hlt, (total_stCompare _ _).run_bind, if_neg hno, run_pure,
    stCompare_one n.isLt hj _ (fun i hi hij => by rw [hs.top, hs.cc hi]; exact hq i hi hij) hjudge]
  refine ⟨?_, ?_, (((did_refl h).count n.isLt _).fires n.isLt hj false).latched s⟩
  · rw [latchEdges_events, stFire_run _ hj, outMoved_events, fired_events n.isLt hj, State.events_put]
  · rw [State.st, latchEdges_st, ← State.st, stFire_run _ hj, outMoved_st, fired_st n.isLt hj, hs.outMode]
    rfl

theorem stTick_turns (hd : s.bit (STIM_COUNT_DOWN n.val) = false) (he : s.fld (STIM_COUNT_COUNT n.val) + 1 = s.stTop n.val)
    (hm : s.bit (STIM_CFG_MODE n.val) = true) (hq : ∀ j < 4, s.stTop n.val < s.fld (STIM_CC_CC n.val j)) :
    Completes (.stTick n) s fun t => t.events = s.events ∧ (t.st n.val).armed = 0xF ∧
      s.Sets t [(STIM_COUNT_DOWN n.val, 1), (STIM_COUNT_COUNT n.val, s.stTop n.val)] := by
  have hs := counted_same (s := s) n.isLt (s.fld (STIM_COUNT_COUNT n.val) + 1)
  have hdid := (((did_refl (noted := []) (F := {}) h).count n.isLt (s.fld (STIM_COUNT_COUNT n.val) + 1)).put
    (stim_count_settable _ n.isLt).2 1).count n.isLt (s.stTop n.val)
  refine stTick_to hr ?_
  rw [stTick_up hr hd (by omega), (total_stCompare _ _).run_bind, if_pos ⟨hm, he⟩, stCompare_quiet _ (hs.quiet hq), stTurn_quiet n.isLt (hs.quiet hq)]
  refine ⟨?_, ?_, ((hdid.again_past (l := []) (Nat.zero_le 15) (Nat.le_refl 16) (.inr (.inl (Nat.lt_succ_self 15)))).lived (by rfl)).latched s⟩
  · rw [latchEdges_events, State.armed, State.live_events, State.events_put, State.events_put, State.events_put]
  · rw [State.st, latchEdges_st, ← State.st, armed_st]

theorem stTick_turns_at_top (hd : s.bit (STIM_COUNT_DOWN n.val) = false) (he : s.fld (STIM_COUNT_COUNT n.val) = s.stTop n.val)
    (hm : s.bit (STIM_CFG_MODE n.val) = true) (hp : 1 < s.stTop n.val) (hq : ∀ j < 4, s.stTop n.val < s.fld (STIM_CC_CC n.val j)) :
    Completes (.stTick n) s fun t => t.events = s.events ∧ (t.st n.val).armed = 0xF ∧
      s.Sets t [(STIM_COUNT_DOWN n.val, 1), (STIM_COUNT_COUNT n.val, s.fld (STIM_COUNT_COUNT n.val) - 1)] := by
  refine stTick_to hr ?_
  rw [stTick_turn hr hd hm he hp, stTurn_quiet n.isLt hq]
  refine ⟨?_, ?_, ((((did_refl h).put (stim_count_settable _ n.isLt).2 1).count n.isLt _).lived (by rfl)).latched s⟩
  · rw [latchEdges_events, State.armed, State.live_events, State.events_put, State.events_put]
  · rw [State.st, latchEdges_st, ← State.st, armed_st]

theorem stTick_ends (hh : (s.st n.val).held = none) (hd : s.bit (STIM_COUNT_DOWN n.val) = false)
    (he : s.fld (STIM_COUNT_COUNT n.val) = s.stTop n.val)
    (hm : s.bit (STIM_CFG_MODE n.val) = false) (hp : 0 < s.stTop n.val) (hq : ∀ j < 4, s.stTop n.val < s.fld (STIM_CC_CC n.val j)) :
    Completes (.stTick n) s fun t => t.events = s.events ++ [0x20 + n.val] ∧ (t.st n.val).armed = 0xF ∧
      s.Sets t [(STIM_COUNT_COUNT n.val, 0), (stEndFlag n.val, 1)] (perfOf stimPage) := by
  have hs := counted_same (s := s) n.isLt 0
  have htop : (s.put (STIM_COUNT_COUNT n.val) 0).fld (STIM_TOP_TOP n.val) = s.stTop n.val := by
    rw [State.fld, hs.regs _ (by simp [timerRegs]), State.stTop, hh, Option.getD_none, State.fld]
  have hdown : (s.put (STIM_COUNT_COUNT n.val) 0).fld (STIM_COUNT_DOWN n.val) = 0 := by
    have hlt : s.fld (STIM_COUNT_DOWN n.val) < 2 := State.fld_lt (n := 1) (by show 16 - 16 + 1 = 1; rfl)
    have hne : s.fld (STIM_COUNT_DOWN n.val) ≠ 1 := by simpa [State.bit] using hd
    rw [State.fld_apart _ (stim_count_down_apart _ n.isLt)]
    omega
  obtain ⟨hev, harm, -, hdid⟩ := stBottom_quiet n.isLt
    (((did_refl (noted := perfOf stimPage) h).count n.isLt 0).puts_same hdown (stim_count_settable _ n.isLt).2)
    (by rw [htop]; exact hp) (fun j hj => by rw [htop, hs.cc hj]; exact hq j hj)
  refine stTick_to hr ?_
  rw [stTick_top hr hd hm he hp]
  refine ⟨by rw [latchEdges_events, hev, State.events_put], ?_, hdid.latched s⟩
  rw [State.st, latchEdges_st, ← State.st, harm]

theorem stTick_counts_down (hd : s.bit (STIM_COUNT_DOWN n.val) = true) (hm : s.bit (STIM_CFG_MODE n.val) = true)
    (hp : 1 < s.fld (STIM_COUNT_COUNT n.val)) (hq : ∀ j < 4, s.stTop n.val < s.fld (STIM_CC_CC n.val j)) :
    Completes (.stTick n) s fun t => t.st n.val = s.st n.val ∧ s.Sets t [(STIM_COUNT_COUNT n.val, s.fld (STIM_COUNT_COUNT n.val) - 1)] := by
  refine stTick_to hr ?_
  rw [stTick_down hr hd hm (by omega), (total_stCompare _ _).run_bind, if_neg (by omega), run_pure,
    stCompare_quiet _ ((counted_same n.isLt _).quiet hq)]
  exact ⟨by rw [State.st, latchEdges_st, State.dev_put, ← State.st], ((did_refl h).count n.isLt _).latched s⟩

theorem stTick_bottoms (hd : s.bit (STIM_COUNT_DOWN n.val) = true) (hm : s.bit (STIM_CFG_MODE n.val) = true)
    (he : s.fld (STIM_COUNT_COUNT n.val) = 1) (hp : 0 < s.fld (STIM_TOP_TOP n.val))
    (hq : ∀ j < 4, s.stTop n.val < s.fld (STIM_CC_CC n.val j) ∧ s.fld (STIM_TOP_TOP n.val) < s.fld (STIM_CC_CC n.val j)) :
    Completes (.stTick n) s fun t => t.events = s.events ++ [0x20 + n.val] ∧ (t.st n.val).armed = 0xF ∧ (t.st n.val).held = none ∧
      s.Sets t [(STIM_COUNT_COUNT n.val, 0), (STIM_COUNT_DOWN n.val, 0), (stEndFlag n.val, 1)] (perfOf stimPage) := by
  have hs := counted_same (s := s) n.isLt 0
  have htop : (s.put (STIM_COUNT_COUNT n.val) 0).fld (STIM_TOP_TOP n.val) = s.fld (STIM_TOP_TOP n.val) := by
    rw [State.fld, hs.regs _ (by simp [timerRegs]), State.fld]
  obtain ⟨hev, harm, hheld, hdid⟩ := stBottom_quiet n.isLt
    (((did_refl (noted := perfOf stimPage) h).count n.isLt 0).put (stim_count_settable _ n.isLt).2 0)
    (by rw [htop]; exact hp) (fun j hj => by rw [htop, hs.cc hj]; exact (hq j hj).2)
  refine stTick_to hr ?_
  rw [stTick_down hr hd hm (by omega), (total_stCompare _ _).run_bind, if_pos (by omega), he, Nat.sub_self,
    stCompare_quiet _ (hs.quiet fun j hj => (hq j hj).1)]
  refine ⟨by rw [latchEdges_events, hev, State.events_put], ?_, ?_, hdid.latched s⟩
  · rw [State.st, latchEdges_st, ← State.st, harm]
  · rw [State.st, latchEdges_st, ← State.st, hheld]
end

/-! ### Registers written (R332, R333) -/

theorem stim_word_masks : ∀ k < 8, (STIM_TOP_TOP k).settable = true ∧ ∀ j < 4, (STIM_CC_CC k j).settable = true := by decide
theorem stim_top_count : ∀ k < 8, STIM_COUNT k ≠ STIM_TOP k := by decide

theorem stTop_congr {k : Nat} (hh : (t.st k).held = (s.st k).held) (ht : t.reg (STIM_TOP k) = s.reg (STIM_TOP k)) : t.stTop k = s.stTop k := by
  rw [State.stTop, hh, State.fld, ht, State.stTop, State.fld]

/-- The write of TOP, the outputs not judged yet: where the timer counts down, the TOP in force is held (R332). -/
def State.topWritten (s : State) (k : Nat) (v : Word) : State :=
  (if s.bit (STIM_COUNT_DOWN k) then s.live fun d => { d with st := Sparse.upd {} d.st k fun x => { x with held := some (s.stTop k) } }
    else s).putReg (STIM_TOP k) v

theorem stLow_run (k : Nat) : (stLow k).run s = if s.stTop k = 0 ∧ s.fld (STIM_COUNT_COUNT k) = 0 then
    s.live fun d => { d with st := Sparse.upd {} d.st k fun x => { x with out := 0 } } else s := by
  rw [stLow, run_getS, run_ite, run_modSt, run_pure]

theorem topWritten_st (k : Nat) (v : Word) : (s.topWritten k v).st k =
    if s.bit (STIM_COUNT_DOWN k) then { s.st k with held := some (s.stTop k) } else s.st k := by
  rw [State.topWritten, State.st, State.dev_putReg]
  split
  · rw [State.live_dev, val_upd_same, ← State.st]
  · rfl

theorem topWritten_reg (k : Nat) (v : Word) (hk : k < 8) : (s.topWritten k v).fld (STIM_TOP_TOP k) = bitsGet v 15 0 :=
  State.fld_putReg_same (Fld.full_of_settable (stim_word_masks k hk).1) v

theorem topWritten_within (k : Nat) (v : Word) : s.Within (onlyRegs [STIM_TOP k]) (s.topWritten k v) := by
  rw [State.topWritten, State.within_putReg_iff (by simp [onlyRegs])]
  split
  · rw [State.within_live_iff rfl]
    exact s.within_refl _
  · exact s.within_refl _

/-- What the write of TOP leaves in force (R332). -/
theorem topWritten_top {k : Nat} (v : Word) (hk : k < 8) : (s.topWritten k v).stTop k =
    if s.bit (STIM_COUNT_DOWN k) then s.stTop k else (s.st k).held.getD (bitsGet v 15 0) := by
  rw [State.stTop, topWritten_st, topWritten_reg k v hk]
  split <;> rfl

theorem stTopWrite_writes {n : Fin 8} (v : Word) : Completes (.stTopWrite n v) s fun t =>
    t.fld (STIM_TOP_TOP n.val) = bitsGet v 15 0 ∧ (t.st n.val).armed = (s.st n.val).armed ∧
      (s.bit (STIM_COUNT_DOWN n.val) = true → t.stTop n.val = s.stTop n.val) ∧
      (s.bit (STIM_COUNT_DOWN n.val) = false → (s.st n.val).held = none → t.stTop n.val = bitsGet v 15 0) ∧
      (t.st n.val).out = (if t.stTop n.val = 0 ∧ s.fld (STIM_COUNT_COUNT n.val) = 0 then 0 else (s.st n.val).out) ∧
      s.Within (onlyRegs [STIM_TOP n.val]) t := by
  have hrun : (stTopWrite n.val v).run s = (stLow n.val).run (s.topWritten n.val v) := by
    simp only [stTopWrite, run_getS, run_ite, run_modSt_bind, run_wr_bind, State.topWritten]
    split <;> rfl
  have hcount : (s.topWritten n.val v).fld (STIM_COUNT_COUNT n.val) = s.fld (STIM_COUNT_COUNT n.val) := by
    rw [State.topWritten, State.fld_putReg_other _ (stim_top_count _ n.isLt)]
    split <;> rfl
  have harmed : ((s.topWritten n.val v).st n.val).armed = (s.st n.val).armed := by rw [topWritten_st]; split <;> rfl
  have hout : ((s.topWritten n.val v).st n.val).out = (s.st n.val).out := by rw [topWritten_st]; split <;> rfl
  have hlow : ∀ u, u = s.topWritten n.val v ∨ u = (s.topWritten n.val v).live (fun d =>
      { d with st := Sparse.upd {} d.st n.val fun x => { x with out := 0 } }) →
      u.fld (STIM_TOP_TOP n.val) = bitsGet v 15 0 ∧ (u.st n.val).armed = (s.st n.val).armed ∧
        u.stTop n.val = (s.topWritten n.val v).stTop n.val ∧ s.Within (onlyRegs [STIM_TOP n.val]) u := by
    rintro u (rfl | rfl)
    · exact ⟨topWritten_reg _ v n.isLt, harmed, rfl, topWritten_within _ v⟩
    · refine ⟨topWritten_reg _ v n.isLt, ?_, stTop_congr ?_ rfl, by rw [State.within_live_iff rfl]; exact topWritten_within _ v⟩
      · rw [State.st, State.live_dev, val_upd_same, ← State.st, harmed]
      · rw [State.st, State.live_dev, val_upd_same, ← State.st]
  have hall : ∀ u, (u = s.topWritten n.val v ∨ u = (s.topWritten n.val v).live (fun d =>
      { d with st := Sparse.upd {} d.st n.val fun x => { x with out := 0 } })) →
      (u.st n.val).out = (if u.stTop n.val = 0 ∧ s.fld (STIM_COUNT_COUNT n.val) = 0 then 0 else (s.st n.val).out) →
      (latchEdges s u).fld (STIM_TOP_TOP n.val) = bitsGet v 15 0 ∧ ((latchEdges s u).st n.val).armed = (s.st n.val).armed ∧
      (s.bit (STIM_COUNT_DOWN n.val) = true → (latchEdges s u).stTop n.val = s.stTop n.val) ∧
      (s.bit (STIM_COUNT_DOWN n.val) = false → (s.st n.val).held = none → (latchEdges s u).stTop n.val = bitsGet v 15 0) ∧
      ((latchEdges s u).st n.val).out = (if (latchEdges s u).stTop n.val = 0 ∧ s.fld (STIM_COUNT_COUNT n.val) = 0 then 0 else (s.st n.val).out) ∧
      s.Within (onlyRegs [STIM_TOP n.val]) (latchEdges s u) := by
    intro u hu ho
    obtain ⟨h1, h2, h3, h4⟩ := hlow u hu
    have hst : (latchEdges s u).st n.val = u.st n.val := by rw [State.st, latchEdges_st, State.st]
    have htop : (latchEdges s u).stTop n.val = u.stTop n.val := stTop_congr (by rw [hst]) (latchEdges_reg ..)
    rw [hst, htop, State.within_latch_iff]
    refine ⟨h1, h2, fun hd => ?_, fun hd hh => ?_, ho, h4⟩
    · rw [h3, topWritten_top v n.isLt, if_pos hd]
    · rw [h3, topWritten_top v n.isLt, if_neg (by simp [hd]), hh, Option.getD_none]
  refine completes_run rfl ?_
  rw [hrun, stLow_run, hcount]
  split
  case isTrue hc =>
    refine hall _ (.inr rfl) ?_
    rw [if_pos ⟨by rw [(hlow _ (.inr rfl)).2.2.1]; exact hc.1, hc.2⟩, State.st, State.live_dev, val_upd_same]
  case isFalse hc => exact hall _ (.inl rfl) (by rw [if_neg hc, hout])

theorem stCcWrite_writes {n : Fin 8} (v : Word) (j : Fin 4) : Completes (.stCcWrite n j v) s fun t =>
    t.fld (STIM_CC_CC n.val j.val) = bitsGet v 15 0 ∧ (t.st n.val).out = (s.st n.val).out ∧
      (∀ i, (t.st n.val).armed.testBit i = (decide (i = j.val) || (s.st n.val).armed.testBit i)) ∧
      s.Within (onlyRegs [STIM_CC n.val j.val]) t := by
  refine completes_run rfl ?_
  rw [stCcWrite, run_wr_bind, run_modSt]
  refine ⟨?_, ?_, fun i => ?_, ?_⟩
  · rw [latchEdges_fld, State.live_fld]
    exact State.fld_putReg_same (Fld.full_of_settable ((stim_word_masks _ n.isLt).2 _ j.isLt)) v
  · rw [State.st, latchEdges_st, State.live_dev, val_upd_same, State.dev_putReg, ← State.st]
  · rw [State.st, latchEdges_st, State.live_dev, val_upd_same, State.dev_putReg, ← State.st, bitSet, Nat.testBit_or, Nat.testBit_two_pow,
      Bool.or_comm]
    simp [eq_comm]
  · rw [State.within_latch_iff, State.within_live_iff rfl, State.within_putReg_iff (by simp [onlyRegs])]
    exact s.within_refl _

end Sys2Proof.Machine
end

section
/-!
The long timers (R337–R339).
-/
namespace Sys2Proof.Machine
open Sys2Proof.Reg

variable {s t : State}

/-! ### Parts of a long timer -/

/-- The state with a long timer's compare armed or not. -/
def State.ltArmed (s : State) (k : Nat) (b : Bool) : State := s.live fun d => { d with lt := Sparse.upd {} d.lt k fun _ => { armed := b } }

@[simp] theorem run_setLtArmed (k : Nat) (b : Bool) (s : State) : (setLtArmed k b).run s = s.ltArmed k b := (rfl)
@[simp] theorem run_setLtArmed_bind (k : Nat) (b : Bool) (f : Unit → M Unit) (s : State) :
    (setLtArmed k b >>= f).run s = (f ()).run (s.ltArmed k b) := (rfl)

theorem ltArmed_armed (k : Nat) (b : Bool) : (Sparse.val {} (s.ltArmed k b).dev.lt k).armed = b := by
  rw [State.ltArmed, State.live_dev, val_upd_same]
@[simp] theorem ltArmed_events (k : Nat) (b : Bool) : (s.ltArmed k b).events = s.events := (rfl)
@[simp] theorem ltArmed_fld (k : Nat) (b : Bool) (f : Fld) : (s.ltArmed k b).fld f = s.fld f := (rfl)

/-- A flag of a long timer. -/
def ltFlag (k b : Nat) : Fld := ⟨(LTIM_STAT_FLAGS k).addr, (LTIM_STAT_FLAGS k).lo + b, (LTIM_STAT_FLAGS k).lo + b⟩

theorem put_ltFlag (s : State) (k : Nat) {b : Nat} (hb : b < 2) : s.put (LTIM_STAT_FLAGS k) (bitSet (s.fld (LTIM_STAT_FLAGS k)) b) = s.put (ltFlag k b) 1 :=
  s.put_bitSet (LTIM_STAT_FLAGS k) (by show 0 + b ≤ 1; omega)

theorem ltim_settable : ∀ k < 2, (LTIM_COUNT_COUNT k).settable = true ∧ (LTIM_CMP_CMP k).settable = true ∧ (ltFlag k 0).settable = true ∧
    (ltFlag k 1).settable = true ∧ Fld.settable ⟨LTIM_EN, k, k⟩ = true := by decide
theorem ltim_masks : ∀ k < 2, maskOf (LTIM_COUNT k) = 0xFFFFFFFF ∧ maskOf (LTIM_CMP k) = 0xFFFFFFFF := by decide
theorem ltim_apart : ∀ k < 2, LTIM_CMP k ≠ LTIM_COUNT k ∧ LTIM_BUF k ≠ LTIM_EN := by decide
theorem lt_latch : ∀ k < 2, latchOf (0x48 + k) = none ∧ latchOf (0x4A + k) = none := by decide

/-- The compare lies at or behind the count (R339). -/
abbrev ltPast (c now : Nat) : Prop := (c + 2 ^ 32 - now) % 2 ^ 32 < 2 ^ 31

theorem fld_count_lt (k : Nat) : s.fld (LTIM_COUNT_COUNT k) < 2 ^ 32 := State.fld_lt rfl

/-! ### The tick's parts (R337, R339) -/

/-- The count moves: down, or loaded from BUF with the compare armed. -/
def State.ltMoved (s : State) (k : Nat) : State :=
  if s.fld (LTIM_COUNT_COUNT k) = 0 then (s.putReg (LTIM_COUNT k) (s.reg (LTIM_BUF k))).ltArmed k true
  else s.put (LTIM_COUNT_COUNT k) (s.fld (LTIM_COUNT_COUNT k) - 1)

/-- What a tick does of the zero event, judged in a state. -/
def ltZero (k : Nat) (t : State) : M Unit :=
  if t.fld (LTIM_COUNT_COUNT k) = 0 then do
    setFld (LTIM_STAT_FLAGS k) (bitSet (t.fld (LTIM_STAT_FLAGS k)) 0)
    emit ltimPage (0x48 + k)
  else pure ()

/-- What a tick does of the compare, judged in a state. -/
def ltMatch (k : Nat) (t : State) : M Unit :=
  if (Sparse.val {} t.dev.lt k).armed = true ∧ ltPast (t.fld (LTIM_CMP_CMP k)) (t.fld (LTIM_COUNT_COUNT k)) then do
    setLtArmed k false
    let f ← fld (LTIM_STAT_FLAGS k)
    setFld (LTIM_STAT_FLAGS k) (bitSet f 1)
    emit ltimPage (0x4A + k)
  else pure ()

theorem ltStep_run (k : Nat) : (ltStep k).run s = (ltMatch k (s.ltMoved k)).run ((ltZero k (s.ltMoved k)).run (s.ltMoved k)) := by
  have hzero : ∀ u : State, ∀ m : M Unit, (if u.fld (LTIM_COUNT_COUNT k) = 0 then do
        setFld (LTIM_STAT_FLAGS k) (bitSet (u.fld (LTIM_STAT_FLAGS k)) 0)
        let _ ← emit ltimPage (0x48 + k)
        m
      else m).run u = m.run ((ltZero k u).run u) := by
    intro u m
    rw [ltZero]
    split
    · rw [run_setFld_bind, run_emit_bind, run_setFld_bind]
    · rfl
  rw [ltStep, run_fld, State.ltMoved]
  split
  · rw [ltLoad, run_assoc, run_rd, run_assoc, run_wr_bind, run_setLtArmed_bind, run_getS]
    exact hzero _ _
  · rw [run_setFld_bind, run_getS]
    exact hzero _ _

/-! ### The tick (R337–R339) -/

section
variable {n : Fin 2} (h : s.Inv) (he : s.bit ⟨LTIM_EN, n.val, n.val⟩ = true) (hc : s.bit (LTIM_CFG_CHAIN 1) = false)

theorem ltTick_off (hn : s.bit ⟨LTIM_EN, n.val, n.val⟩ = false) : Completes (.ltTick n) s fun t => s.Within {} t :=
  completes_nothing rfl (by simp [hn]) (by simp)

include he hc in
theorem ltTick_to {P : State → Prop} (hP : P (latchEdges s ((ltStep n.val).run s))) : Completes (.ltTick n) s P :=
  completes_run rfl (by
    simp only [he, hc, Bool.and_false, Bool.not_false, and_self, if_true, Bool.false_eq_true, false_and, and_false, if_false]
    exact hP)

theorem ltMoved_down (hp : 0 < s.fld (LTIM_COUNT_COUNT n.val)) :
    s.ltMoved n.val = s.put (LTIM_COUNT_COUNT n.val) (s.fld (LTIM_COUNT_COUNT n.val) - 1) := by
  rw [State.ltMoved, if_neg (by omega)]

theorem ltMoved_down_count (hp : 0 < s.fld (LTIM_COUNT_COUNT n.val)) :
    (s.ltMoved n.val).fld (LTIM_COUNT_COUNT n.val) = s.fld (LTIM_COUNT_COUNT n.val) - 1 := by
  have hlt := fld_count_lt (s := s) n.val
  rw [ltMoved_down hp, State.fld_self _ (ltim_settable _ n.isLt).1]
  exact Nat.mod_eq_of_lt (by show _ < 2 ^ 32; omega)

theorem ltMoved_down_cmp (hp : 0 < s.fld (LTIM_COUNT_COUNT n.val)) :
    (s.ltMoved n.val).fld (LTIM_CMP_CMP n.val) = s.fld (LTIM_CMP_CMP n.val) := by
  rw [ltMoved_down hp, State.fld_put_other _ (ltim_apart _ n.isLt).1]

theorem ltMoved_down_dev (hp : 0 < s.fld (LTIM_COUNT_COUNT n.val)) : (s.ltMoved n.val).dev = s.dev := by rw [ltMoved_down hp, State.dev_put]
theorem ltMoved_down_events (hp : 0 < s.fld (LTIM_COUNT_COUNT n.val)) : (s.ltMoved n.val).events = s.events := by
  rw [ltMoved_down hp, State.events_put]

include h in
theorem did_ltMoved_down {noted : List Nat} (hp : 0 < s.fld (LTIM_COUNT_COUNT n.val)) :
    s.Did (s.ltMoved n.val) [(LTIM_COUNT_COUNT n.val, s.fld (LTIM_COUNT_COUNT n.val) - 1)] noted := by
  rw [ltMoved_down hp]
  exact (did_refl h).put (ltim_settable _ n.isLt).1 _

include h he hc

theorem ltTick_counts (hp : 1 < s.fld (LTIM_COUNT_COUNT n.val)) (hm : (Sparse.val {} s.dev.lt n.val).armed = false ∨
      ¬ ltPast (s.fld (LTIM_CMP_CMP n.val)) (s.fld (LTIM_COUNT_COUNT n.val) - 1)) :
    Completes (.ltTick n) s fun t => s.Sets t [(LTIM_COUNT_COUNT n.val, s.fld (LTIM_COUNT_COUNT n.val) - 1)] := by
  have hno : ¬ ((Sparse.val {} s.dev.lt n.val).armed = true ∧ ltPast (s.fld (LTIM_CMP_CMP n.val)) (s.fld (LTIM_COUNT_COUNT n.val) - 1)) := by
    rcases hm with hm | hm
    · simp [hm]
    · exact fun hf => hm hf.2
  have hp' : 0 < s.fld (LTIM_COUNT_COUNT n.val) := by omega
  refine ltTick_to he hc ?_
  rw [ltStep_run, ltZero, ltMatch, ltMoved_down_count hp', ltMoved_down_cmp hp', ltMoved_down_dev hp', if_neg hno, if_neg (by omega), run_pure,
    run_pure]
  exact (did_ltMoved_down h hp').latched s

theorem ltTick_matches (hp : 1 < s.fld (LTIM_COUNT_COUNT n.val)) (ha : (Sparse.val {} s.dev.lt n.val).armed = true)
    (hm : ltPast (s.fld (LTIM_CMP_CMP n.val)) (s.fld (LTIM_COUNT_COUNT n.val) - 1)) :
    Completes (.ltTick n) s fun t => t.events = s.events ++ [0x4A + n.val] ∧ (Sparse.val {} t.dev.lt n.val).armed = false ∧
      s.Sets t [(LTIM_COUNT_COUNT n.val, s.fld (LTIM_COUNT_COUNT n.val) - 1), (ltFlag n.val 1, 1)] (perfOf ltimPage) := by
  have hp' : 0 < s.fld (LTIM_COUNT_COUNT n.val) := by omega
  have hlatch := (lt_latch _ n.isLt).2
  refine ltTick_to he hc ?_
  rw [ltStep_run, ltZero, ltMatch, ltMoved_down_count hp', ltMoved_down_cmp hp', ltMoved_down_dev hp', if_pos ⟨ha, hm⟩, if_neg (by omega), run_pure,
    run_setLtArmed_bind, run_fld, run_setFld_bind, put_ltFlag _ _ (by decide)]
  refine ⟨?_, ?_, ?_⟩
  · rw [latchEdges_events, emit_events hlatch, State.events_put, ltArmed_events, ltMoved_down_events hp']
  · rw [latchEdges_lt, emit_unlatched_dev hlatch, State.dev_put, ltArmed_armed]
  · exact (((did_ltMoved_down h hp').lived (by rfl)).put (ltim_settable _ n.isLt).2.2.2.1 1 |>.emit hlatch fun _ => .inr).latched s

theorem ltTick_zero (hp : s.fld (LTIM_COUNT_COUNT n.val) = 1) (ha : (Sparse.val {} s.dev.lt n.val).armed = false) :
    Completes (.ltTick n) s fun t => t.events = s.events ++ [0x48 + n.val] ∧
      s.Sets t [(LTIM_COUNT_COUNT n.val, 0), (ltFlag n.val 0, 1)] (perfOf ltimPage) := by
  have hp' : 0 < s.fld (LTIM_COUNT_COUNT n.val) := by omega
  have hlatch := (lt_latch _ n.isLt).1
  have hdid := did_ltMoved_down (noted := perfOf ltimPage) h hp'
  rw [hp] at hdid
  refine ltTick_to he hc ?_
  rw [ltStep_run, ltZero, ltMatch, ltMoved_down_dev hp', if_neg (by simp [ha]), if_pos (by rw [ltMoved_down_count hp', hp]), run_pure,
    run_setFld_bind, put_ltFlag _ _ (by decide)]
  refine ⟨?_, ?_⟩
  · rw [latchEdges_events, emit_events hlatch, State.events_put, ltMoved_down_events hp']
  · exact ((hdid.put (ltim_settable _ n.isLt).2.2.1 1).emit hlatch fun _ => .inr).latched s

theorem ltTick_reloads (hp : s.fld (LTIM_COUNT_COUNT n.val) = 0) (hb : 0 < (s.reg (LTIM_BUF n.val)).toNat)
    (hm : ¬ ltPast (s.fld (LTIM_CMP_CMP n.val)) (s.reg (LTIM_BUF n.val)).toNat) :
    Completes (.ltTick n) s fun t => t.events = s.events ∧ (Sparse.val {} t.dev.lt n.val).armed = true ∧
      s.Sets t [(LTIM_COUNT_COUNT n.val, (s.reg (LTIM_BUF n.val)).toNat)] := by
  have hmoved : s.ltMoved n.val = (s.putReg (LTIM_COUNT n.val) (s.reg (LTIM_BUF n.val))).ltArmed n.val true := by rw [State.ltMoved, if_pos hp]
  have hcount : (s.ltMoved n.val).fld (LTIM_COUNT_COUNT n.val) = (s.reg (LTIM_BUF n.val)).toNat := by
    rw [hmoved, ltArmed_fld, State.fld, State.reg_putReg_whole (by rw [(ltim_masks _ n.isLt).1]; rfl)]
    exact bitsGet_whole _
  have hcmp : (s.ltMoved n.val).fld (LTIM_CMP_CMP n.val) = s.fld (LTIM_CMP_CMP n.val) := by
    rw [hmoved, ltArmed_fld, State.fld_putReg_other _ (ltim_apart _ n.isLt).1]
  refine ltTick_to he hc ?_
  rw [ltStep_run, ltZero, ltMatch, hcount, hcmp, if_neg (fun hf => hm hf.2), if_neg (by omega), run_pure, run_pure, hmoved]
  refine ⟨by rw [latchEdges_events, ltArmed_events, State.events_putReg], by rw [latchEdges_lt, ltArmed_armed], ?_⟩
  exact (((did_refl h).wr (ltim_masks _ n.isLt).1).lived (by rfl)).latched s
end

/-! ### The enables and the compare written (R15, R337, R339) -/

/-- What a write of the enables does to timer n, by its bits before and after. -/
def ltTurn (old v n : Nat) : M Unit := do
  if bitOf v n && !bitOf old n then ltLoad n
  if bitOf old n && !bitOf v n then
    wr (LTIM_COUNT n) 0
    setLtArmed n false

theorem total_ltLoad (n : Nat) : (ltLoad n).Total :=
  total_bind (total_rd _) fun _ => total_bind (total_wr _ _) fun _ => total_act _

theorem total_ltTurn (old v n : Nat) : (ltTurn old v n).Total := by
  have hlast : M.Total (if bitOf old n && !bitOf v n then do
      wr (LTIM_COUNT n) 0
      setLtArmed n false
      else pure ()) := total_ite (total_bind (total_wr _ _) fun _ => total_act _) (total_pure _)
  exact total_ite (total_bind (total_ltLoad n) fun _ => hlast) hlast

theorem ltTurn_run (old v n : Nat) (s : State) : (ltTurn old v n).run s =
    if bitOf v n = true ∧ bitOf old n = false then (s.putReg (LTIM_COUNT n) (s.reg (LTIM_BUF n))).ltArmed n true
    else if bitOf old n = true ∧ bitOf v n = false then (s.putReg (LTIM_COUNT n) 0).ltArmed n false else s := by
  cases hv : bitOf v n <;> cases ho : bitOf old n <;> simp [ltTurn, hv, ho, ltLoad]

theorem ltEnable_run (hp : s.dev.parity = []) (v : Nat) :
    (ltEnable v).run s = [0, 1].foldl (fun t n => (ltTurn (s.fld LTIM_EN_EN) v n).run t) (s.put LTIM_EN_EN v) := by
  have hpar : ∀ a b, s.parityIn a b = false := fun a b => by simp [State.parityIn, hp]
  rw [ltEnable, run_getS]
  simp only [hpar, Bool.false_and, Bool.false_eq_true, if_false, List.foldl_cons, List.foldl_nil, ne_eq, not_true_eq_false, run_setFld_bind, Nat.sub_zero]
  exact forAll_run (total_ltTurn _ _) _ _

theorem ltEnable_to {v : Word} {P : State → Prop} (hp : s.dev.parity = []) (hP : ∀ u, u = s.live (fun d =>
      { d with gates := if ltimPage ∈ d.gates then d.gates else ltimPage :: d.gates }) →
      P (latchEdges s ([0, 1].foldl (fun t n => (ltTurn (s.fld LTIM_EN_EN) (v.toNat % 4) n).run t) (u.put LTIM_EN_EN (v.toNat % 4))))) :
    Completes (.ltEnable v) s P := by
  refine completes_run rfl ?_
  rw [openGate, run_modDev_bind]
  exact (ltEnable_run (s := s.live fun d => { d with gates := if ltimPage ∈ d.gates then d.gates else ltimPage :: d.gates }) hp _).symm ▸ hP _ rfl

/-- The enables as a number, bit by bit. -/
theorem bitOf_enables {m : Nat} (hm : m < 2) : bitOf (s.fld LTIM_EN_EN) m = (s.reg LTIM_EN).toNat.testBit m := by
  rw [bitOf, State.fld, bitsGet_testBit, Nat.zero_add]
  simp only [Nat.sub_zero]
  rw [decide_eq_true hm, Bool.true_and]

theorem bitOf_mod_four (x : Nat) {m : Nat} (hm : m < 2) : bitOf (x % 4) m = x.testBit m := by
  rw [bitOf, show (4 : Nat) = 2 ^ 2 from rfl, Nat.testBit_mod_two_pow, decide_eq_true hm, Bool.true_and]

/-- The enables written with one bit changed are that bit set. -/
theorem put_enables {v : Word} {k b : Nat} (hk : k < 2)
    (hv : ∀ i < 32, v.toNat.testBit i = if i = k then b.testBit 0 else (s.reg LTIM_EN).toNat.testBit i) :
    s.put LTIM_EN_EN (v.toNat % 4) = s.put ⟨LTIM_EN, k, k⟩ b := by
  have hw : bitsPut (s.reg LTIM_EN) 1 0 (v.toNat % 4) = bitsPut (s.reg LTIM_EN) k k b := word_ext fun i hi => by
    rw [bitsPut_testBit _ _ _ _ _ (by decide) hi, bitsPut_testBit _ _ _ _ _ (Nat.le_refl k) hi]
    by_cases hi2 : i < 2
    · rw [if_pos (by omega), Nat.sub_zero, ← bitOf, bitOf_mod_four _ hi2, hv i hi]
      by_cases he : i = k
      · rw [if_pos he, if_pos (by omega), he, Nat.sub_self]
      · rw [if_neg he, if_neg (by omega)]
    · rw [if_neg (by omega), if_neg (by omega)]
  rw [State.put, State.put]
  exact congrArg (fun w => Prim.run (.reg LTIM_EN w) s) hw

/-- Of the two timers' turns, that of the timer whose bit changed is left. -/
theorem ltTurns_one {v : Word} {k : Nat} (hk : k < 2) (hv : ∀ i < 2, i ≠ k → v.toNat.testBit i = (s.reg LTIM_EN).toNat.testBit i) (u : State) :
    [0, 1].foldl (fun t n => (ltTurn (s.fld LTIM_EN_EN) (v.toNat % 4) n).run t) u = (ltTurn (s.fld LTIM_EN_EN) (v.toNat % 4) k).run u := by
  have hother : ∀ i < 2, i ≠ k → ∀ t, (ltTurn (s.fld LTIM_EN_EN) (v.toNat % 4) i).run t = t := fun i hi hik t => by
    rw [ltTurn_run, bitOf_mod_four _ hi, bitOf_enables hi, hv i hi hik]
    cases (s.reg LTIM_EN).toNat.testBit i <;> rfl
  have hmem : ∀ i ∈ [0, 1], i < 2 := by decide
  exact foldl_one (f := fun t n => (ltTurn (s.fld LTIM_EN_EN) (v.toNat % 4) n).run t) (by decide)
    (by rcases (by omega : k = 0 ∨ k = 1) with rfl | rfl <;> simp) (fun i hi hik => hother i (hmem i hi) hik _)
    fun i hi hik => hother i (hmem i hi) hik _

theorem two_pow_word {k : Nat} (hk : k < 2) (i : Nat) : (BitVec.ofNat 32 (2 ^ k)).toNat.testBit i = decide (i = k) := by
  rw [BitVec.toNat_ofNat, Nat.mod_eq_of_lt (Nat.pow_lt_pow_right (by decide) (by omega)), Nat.testBit_two_pow]
  simp [eq_comm]

section
variable {n : Fin 2} (h : s.Inv) (hp : s.dev.parity = [])
include h hp

theorem ltEnable_rises (he : s.bit ⟨LTIM_EN, n.val, n.val⟩ = false) :
    Completes (.ltEnable (s.reg LTIM_EN ||| BitVec.ofNat 32 (2 ^ n.val))) s fun t => (Sparse.val {} t.dev.lt n.val).armed = true ∧
      s.Sets t [(⟨LTIM_EN, n.val, n.val⟩, 1), (LTIM_COUNT_COUNT n.val, (s.reg (LTIM_BUF n.val)).toNat)] := by
  have hbit : ∀ i, (s.reg LTIM_EN ||| BitVec.ofNat 32 (2 ^ n.val)).toNat.testBit i = ((s.reg LTIM_EN).toNat.testBit i || decide (i = n.val)) :=
    fun i => by rw [BitVec.toNat_or, Nat.testBit_or, two_pow_word n.isLt]
  rw [State.bit_testBit] at he
  refine ltEnable_to hp ?_
  rintro u rfl
  rw [ltTurns_one n.isLt (fun i _ hik => by rw [hbit, decide_eq_false hik, Bool.or_false]),
    put_enables (b := 1) n.isLt (fun i hi => by rw [hbit, State.live_reg]; split <;> simp [*]), ltTurn_run, bitOf_mod_four _ n.isLt, bitOf_enables n.isLt,
    hbit, he, if_pos ⟨by simp, rfl⟩]
  refine ⟨by rw [latchEdges_lt, ltArmed_armed], ?_⟩
  rw [State.reg_put_other _ (ltim_apart _ n.isLt).2, State.live_reg]
  exact ((((((did_refl h).lived (by rfl))).put (ltim_settable _ n.isLt).2.2.2.2 1).wr (ltim_masks _ n.isLt).1).lived (by rfl)).latched s

theorem ltEnable_falls (he : s.bit ⟨LTIM_EN, n.val, n.val⟩ = true) :
    Completes (.ltEnable (s.reg LTIM_EN &&& ~~~(BitVec.ofNat 32 (2 ^ n.val)))) s fun t => (Sparse.val {} t.dev.lt n.val).armed = false ∧
      s.Sets t [(⟨LTIM_EN, n.val, n.val⟩, 0), (LTIM_COUNT_COUNT n.val, 0)] := by
  have hbit : ∀ i < 32, (s.reg LTIM_EN &&& ~~~(BitVec.ofNat 32 (2 ^ n.val))).toNat.testBit i =
      ((s.reg LTIM_EN).toNat.testBit i && !decide (i = n.val)) := fun i hi => by
    have hnot : (~~~(BitVec.ofNat 32 (2 ^ n.val))).toNat.testBit i = !decide (i = n.val) := by
      rw [← two_pow_word n.isLt i]
      show (~~~(BitVec.ofNat 32 (2 ^ n.val))).getLsbD i = _
      rw [BitVec.getLsbD_not, decide_eq_true hi, Bool.true_and]
      rfl
    rw [BitVec.toNat_and, Nat.testBit_and, hnot]
  rw [State.bit_testBit] at he
  refine ltEnable_to hp ?_
  rintro u rfl
  rw [ltTurns_one n.isLt (fun i hi hik => by rw [hbit i (by omega), decide_eq_false hik, Bool.not_false, Bool.and_true]),
    put_enables (b := 0) n.isLt (fun i hi => by rw [hbit i hi, State.live_reg]; split <;> simp [*]), ltTurn_run, bitOf_mod_four _ n.isLt,
    bitOf_enables n.isLt, hbit _ (by omega), he, if_neg (by simp), if_pos ⟨rfl, by simp⟩]
  exact ⟨by rw [latchEdges_lt, ltArmed_armed],
    ((((((did_refl h).lived (by rfl))).put (ltim_settable _ n.isLt).2.2.2.2 0).wr (ltim_masks _ n.isLt).1).lived (by rfl)).latched s⟩
end

theorem ltCmpWrite_writes {n : Fin 2} (h : s.Inv) (v : Word) : Completes (.ltCmpWrite n v) s fun t =>
    (Sparse.val {} t.dev.lt n.val).armed = true ∧ s.Sets t [(LTIM_CMP_CMP n.val, v.toNat)] := by
  refine completes_run rfl ?_
  rw [ltCmpWrite, run_wr_bind, run_setLtArmed]
  exact ⟨by rw [latchEdges_lt, ltArmed_armed], (((did_refl h).wr (ltim_masks _ n.isLt).2).lived (by rfl)).latched s⟩

theorem bitSet_testBit_self (n i : Nat) : (bitSet n i).testBit i = true := by rw [bitSet, Nat.testBit_or, Nat.testBit_two_pow_self, Bool.or_true]
theorem bitClr_testBit_self (n i : Nat) : (bitClr n i).testBit i = false := by
  rw [bitClr]
  split
  case isTrue h => rw [testBit_sub_two_pow h, decide_eq_false (fun hn => hn rfl), Bool.false_and]
  case isFalse h => simpa using h

theorem stOut_toggled (j out : Nat) : (stOutNext 1 false j out).testBit j = !out.testBit j := by
  show (if bitOf out j = true then bitClr out j else bitSet out j).testBit j = _
  rw [bitOf]
  split
  case isTrue h => rw [bitClr_testBit_self, h, Bool.not_true]
  case isFalse h => rw [bitSet_testBit_self, Bool.eq_false_iff.mpr h, Bool.not_false]

/-- Settles O43: a tick is followed from the count's turn to the compares, which stand above TOP or meet the count. -/
theorem timers : Obligations.Timers := by
  intro s h hp
  refine ⟨fun n => ⟨stTick_not, fun hr hh hd hlt hm => ⟨fun hq => stTick_counts h hr hd hlt hm hq, fun j hj hq hc ha hcap => ?_⟩,
      fun hr _ hd he hm hq => stTick_turns h hr hd he hm hq,
      fun hr hh hd he hp hq => ⟨fun hm => stTick_ends h hr hh hd he hm hp hq, fun hm hp' => stTick_turns_at_top h hr hd he hm hp' hq⟩,
      fun hr hd hm hp hq => stTick_counts_down h hr hd hm hp hq, fun hr hd hm he hp hq => stTick_bottoms h hr hd hm he hp hq,
      fun v => ⟨stTopWrite_writes v, stCcWrite_writes v⟩⟩,
    fun n => ⟨ltTick_off, fun he hc => ⟨ltTick_counts h he hc, ltTick_matches h he hc, ltTick_zero h he hc, ltTick_reloads h he hc⟩,
      fun v hv he => hv ▸ ltEnable_rises h hp he, fun v hv he => hv ▸ ltEnable_falls h hp he, ltCmpWrite_writes h⟩⟩
  obtain ⟨t, ht, hev, hst, hset⟩ := stTick_fires h hr hd hlt hm hj hq hc ha hcap
  refine ⟨t, ht, hev, ?_, fun hm => ?_, fun hm => ?_, fun hm => ?_, fun hm => ?_, hset⟩
  · rw [hst, bitClr_testBit_self]
  · rw [hst, hm]
    exact stOut_toggled _ _
  · rw [hst, hm]
    exact bitClr_testBit_self _ _
  · rw [hst, hm]
    exact bitSet_testBit_self _ _
  · rw [hst, hm]
    rfl

end Sys2Proof.Machine
end

section
/-!
The Rigger's channels: what a firing sends, what the storm guard does, and the tasks of event outputs and interrupt lines
(R322–R327, R347, R498).
-/
namespace Sys2Proof.Machine
open Sys2Proof.Reg

variable {s t : State}

theorem val_upd_other {β : Type} [DecidableEq β] (d : β) (m : Sparse β) {k j : Nat} (h : j ≠ k) (f : β → β) :
    Sparse.val d (Sparse.upd d m k f) j = Sparse.val d m j := by
  rw [Sparse.upd, Sparse.val, Sparse.get_set_other _ _ _ _ _ h, Sparse.val]

/-- Nothing has happened: no line has risen. -/
theorem latchEdges_self (s : State) : latchEdges s s = s := by
  have hup : ∀ l : List Nat, ∀ x, l.foldl (fun acc n => if s.level n && !s.level n then bitSet acc n else acc) x = x := fun l => by
    induction l with
    | nil => exact fun _ => rfl
    | cons n l ih => exact fun x => by rw [List.foldl_cons, Bool.and_not_self, if_neg (by decide), ih]
  rw [latchEdges, hup]

/-! ### A channel's state -/

/-- The state with a channel's counts changed. -/
def State.rigged (s : State) (n : Nat) (f : RigCh → RigCh) : State :=
  s.live fun d => { d with rigger := { d.rigger with ch := Sparse.upd {} d.rigger.ch n f } }

@[simp] theorem run_modRig (n : Nat) (f : RigCh → RigCh) (s : State) : (modRig n f).run s = s.rigged n f := (rfl)
@[simp] theorem run_modRig_bind (n : Nat) (f : RigCh → RigCh) (g : Unit → M Unit) (s : State) :
    (modRig n f >>= g).run s = (g ()).run (s.rigged n f) := (rfl)

theorem rig_congr (h : t.dev.rigger.ch = s.dev.rigger.ch) (m : Nat) : t.rig m = s.rig m := by rw [State.rig, h, State.rig]
theorem rigged_same (n : Nat) (f : RigCh → RigCh) : (s.rigged n f).rig n = f (s.rig n) := by
  rw [State.rig, State.rigged, State.live_dev, val_upd_same, ← State.rig]
theorem rigged_other {n m : Nat} (f : RigCh → RigCh) (h : m ≠ n) : (s.rigged n f).rig m = s.rig m := by
  rw [State.rig, State.rigged, State.live_dev, val_upd_other _ _ h, ← State.rig]

theorem rigged_bit (n : Nat) (f : RigCh → RigCh) (x : Fld) : (s.rigged n f).bit x = s.bit x := State.live_bit _ _ _

theorem rigDrop_run {n : Nat} (hn : n < 64) : (rigDrop n).run s = s.rigged n fun c => { c with drop := min 0xFFFF (c.drop + 1) } := by
  rw [rigDrop, if_pos hn, run_modRig]

/-! ### A set of tasks sent -/

/-- What a fabric cycle sends, in the order of R336. -/
def sendAll (ts : List (Nat × Nat)) : M Unit :=
  forAll (List.range 9) fun k => forAll (ts.filter fun x => taskOrder x.1 == k) fun x => sendTask x.1 x.2

theorem sendAll_nil : (sendAll []).run s = s := (rfl)

theorem sendAll_one {x ch : Nat} (h : taskOrder x < 9) : sendAll [(x, ch)] = sendTask x ch := by
  have hcase : ∀ o < 9, taskOrder x = o → sendAll [(x, ch)] = sendTask x ch := fun o ho he => by
    simp only [sendAll, List.filter, he]
    rcases (by omega : o = 0 ∨ o = 1 ∨ o = 2 ∨ o = 3 ∨ o = 4 ∨ o = 5 ∨ o = 6 ∨ o = 7 ∨ o = 8) with
      rfl | rfl | rfl | rfl | rfl | rfl | rfl | rfl | rfl <;> rfl
  exact hcase _ h rfl

theorem fireSet_one {k : Nat} (ht : s.dev.rigger.taken = []) : (fireSet [k]).run s = (rigFire k >>= fun ts => sendAll (ts ++ [])).run s := by
  rw [fireSet, run_getS, if_neg (by simp [ht])]
  rfl

/-! ### What a firing does at its channel (R322, R326) -/

theorem fire_off {k : Nat} (ht : s.dev.rigger.taken = []) (he : s.rigOn k = false) : (fireSet [k]).run s = s := by
  rw [fireSet_one ht, rigFire, run_assoc, run_getS, he]
  exact sendAll_nil

/-- The state in which a firing is counted. -/
def State.rigFired (s : State) (k : Nat) : State := s.rigged k fun c => { c with inTick := c.inTick + 1, fired := min (2 ^ 32 - 1) (c.fired + 1) }

theorem fire_counted {k : Nat} (ht : s.dev.rigger.taken = []) (he : s.rigOn k = true) (hr : s.dev.pwr.state = .run)
    (hl : (s.rig k).inTick < max 1 (s.fld (RIGGER_SRC_STORM k))) :
    (fireSet [k]).run s = (sendAll ((s.rigTasks k).map fun t => (t, k))).run (s.rigFired k) := by
  rw [fireSet_one ht, rigFire, run_assoc, run_getS, he, hr]
  simp only [Bool.not_true, Bool.false_eq_true, if_false, reduceCtorEq, and_false, if_neg (Nat.not_le.mpr hl), run_modRig_bind, run_assoc,
    run_pure_bind, List.append_nil]
  rfl

theorem fire_held {k : Nat} (ht : s.dev.rigger.taken = []) (he : s.rigOn k = true) (hk : 16 ≤ k) (hr : s.dev.pwr.state = .rest) :
    (fireSet [k]).run s = s.live fun d => { d with rigger := { d.rigger with
      held := if k ∈ d.rigger.held then d.rigger.held else d.rigger.held ++ [k] } } := by
  rw [fireSet_one ht, rigFire, run_assoc, run_getS, he]
  simp only [Bool.not_true, Bool.false_eq_true, if_false, hk, hr, and_self, if_true, run_modRigger_bind, run_assoc, run_pure_bind, List.append_nil]
  rfl

theorem total_modRig (n : Nat) (f : RigCh → RigCh) : (modRig n f).Total := total_act _
theorem total_rigDrop (n : Nat) : (rigDrop n).Total := total_ite (total_modRig _ _) (total_pure _)

theorem total_rigStorm (k : Nat) : (rigStorm k).Total :=
  total_bind total_getS fun _ => total_bind (total_setFld _ _) fun _ => total_bind (total_setFlt _ _) fun _ =>
    total_ite (total_bind (total_rigDrop _) fun _ => total_modRig _ _)
      (total_bind (total_setFld _ _) fun _ => total_bind (total_modRig _ _) fun _ => total_stage)

theorem fire_storm {k : Nat} (ht : s.dev.rigger.taken = []) (he : s.rigOn k = true) (hr : s.dev.pwr.state = .run)
    (hl : max 1 (s.fld (RIGGER_SRC_STORM k)) ≤ (s.rig k).inTick) : (fireSet [k]).run s = (rigStorm k).run s := by
  rw [fireSet_one ht, rigFire, run_assoc, run_getS, he, hr]
  simp only [Bool.not_true, Bool.false_eq_true, if_false, reduceCtorEq, and_false, if_pos hl, run_assoc, run_pure_bind, List.append_nil,
    (total_rigStorm k).run_bind]
  exact sendAll_nil

/-! ### Tasks (R323, R324, R330) -/

/-- The state in which a task is on its way, sent by a channel. -/
def State.sent (s : State) (x ch : Nat) : State := s.live fun d => { d with rigger := { d.rigger with taken := (x, ch) :: d.rigger.taken } }

theorem sendTask_free {x ch p : Nat} (hp : taskPage x = some p) (ht : s.dev.rigger.taken = []) (hpow : s.powered p = true)
    (hpend : ∀ y ∈ s.dev.rigger.pend, y.1 ≠ x) (hb : s.taskBusy x = false) : (sendTask x ch).run s = (taskAct x ch).run (s.sent x ch) := by
  have hfind : (s.sent x ch).dev.rigger.pend.find? (fun y => y.1 == x) = none := by
    rw [List.find?_eq_none]
    exact fun y hy => by simpa using hpend y hy
  have hbusy : (s.sent x ch).taskBusy x = false := hb
  rw [sendTask, run_getS, hp]
  simp only [ht, List.any_nil, Bool.false_eq_true, if_false, hpow, Bool.not_true, run_modRigger_bind]
  have hnone : (pendAct x).Gives (s.sent x ch) fun _ u => u = s.sent x ch := gives_bind (gives_getS (by rw [hfind]; exact gives_pure rfl))
  refine (hnone.run_bind_to _).trans ?_
  rw [run_getS, hbusy, if_neg (by decide)]

/-- A task at its consumer: the clock gate opens and the task is counted, then it acts (R18, R330, R456). -/
def State.tasked (s : State) (p : Nat) : State := (perf p 0x05 1).run (s.live fun d => { d with gates := if p ∈ d.gates then d.gates else p :: d.gates })

/-- What a task of the event outputs makes of them (R498). -/
def gpoAfter (x g : Nat) : Nat :=
  if x ≤ 0x9B then bitSet g (x - 0x98) else if x ≤ 0x9F then bitClr g (x - 0x9C)
  else if bitOf g (x - 0xA0) then bitClr g (x - 0xA0) else bitSet g (x - 0xA0)

theorem taskPage_gpo {x : Nat} (h : 0x98 ≤ x) (h' : x ≤ 0xA3) : taskPage x = some gpioPage := by
  rw [taskPage, if_neg (by omega), if_neg (by omega), if_neg (by omega), if_neg (by omega), if_neg (by omega), if_neg (by omega), if_neg (by omega),
    if_neg (by omega), if_neg (by omega), if_neg (by omega), if_neg (by omega), if_neg (by omega), if_neg (by rw [tallyTask]; omega),
    if_neg (by omega), if_pos ⟨h, h'⟩]

theorem taskAct_gpo {x : Nat} (ch : Nat) (h : 0x98 ≤ x) (h' : x ≤ 0xA3) : (taskAct x ch).run s =
    (s.tasked gpioPage).live fun d => { d with rigger := { d.rigger with gpo := gpoAfter x d.rigger.gpo } } := by
  rw [taskAct, run_getS, taskPage_gpo h h']
  simp only [openGate, run_modDev_bind, run_perf_bind]
  rw [if_neg (by omega), if_neg (by omega), if_neg (by omega), if_neg (by omega), if_neg (by omega), if_neg (by omega), if_neg (by omega),
    if_neg (by omega), if_neg (by omega), if_neg (by omega), if_neg (by omega), if_neg (by omega), if_neg (by rw [tallyTask]; omega),
    if_neg (by omega)]
  by_cases h1 : x ≤ 0x9B
  · rw [if_pos h1, run_modRigger]
    simp only [State.tasked, gpoAfter, h1, if_true]
  · by_cases h2 : x ≤ 0x9F
    · rw [if_neg h1, if_pos h2, run_modRigger]
      simp only [State.tasked, gpoAfter, h1, if_false, h2, if_true]
    · rw [if_neg h1, if_neg h2, if_pos h', run_modRigger]
      simp only [State.tasked, gpoAfter, h1, if_false, h2]

theorem taskPage_line {x : Nat} (h : 0x20 ≤ x) (h' : x ≤ 0x27) : taskPage x = some riggerPage := by
  rw [taskPage, if_neg (by omega), if_neg (by omega), if_neg (by omega), if_neg (by omega), if_neg (by omega), if_pos ⟨h, h'⟩]

theorem taskAct_line {x : Nat} (ch : Nat) (h : 0x20 ≤ x) (h' : x ≤ 0x27) : (taskAct x ch).run s =
    (s.tasked riggerPage).live fun d => { d with intc := { d.intc with edge := bitSet d.intc.edge (60 + (x - 0x20)) } } := by
  rw [taskAct, run_getS, taskPage_line h h']
  simp only [openGate, run_modDev_bind, run_perf_bind]
  rw [if_neg (by omega), if_neg (by omega), if_neg (by omega), if_neg (by omega), if_neg (by omega), if_pos h', pulse, run_modIntc, State.tasked]

theorem rigTasks_only {k x : Nat} (h0 : s.fld (RIGGER_TASK_TASK0 k) = x) (h1 : s.fld (RIGGER_TASK_TASK1 k) = 0)
    (h2 : s.fld (RIGGER_TASK_TASK2 k) = 0) (h3 : s.fld (RIGGER_TASK_TASK3 k) = 0) : s.rigTasks k = [x].filter fun t => (taskPage t).isSome := by
  have h0' : (taskPage 0).isSome = false := by decide
  rw [State.rigTasks, h0, h1, h2, h3]
  by_cases hx : x = 0
  · subst hx
    rfl
  · simp [List.eraseDups_cons, show ¬ 0 = x from fun h => hx h.symm, h0', List.filter_cons]

theorem taskOrder_gpo {x : Nat} (h : 0x98 ≤ x) : taskOrder x < 9 := by
  rw [taskOrder, if_neg (by omega)]
  split
  · decide
  · split <;> decide

theorem taskOrder_line {x : Nat} (h : x ≤ 0x27) : taskOrder x < 9 := by
  rw [taskOrder, if_neg (by omega), if_neg (by omega), if_neg (by omega)]
  decide

/-- With the clocks running, the event outputs and the interrupt lines are never busy (R324). -/
theorem taskBusy_gpo {x : Nat} (hr : s.dev.pwr.state = .run) (h : 0x98 ≤ x) (h' : x ≤ 0xA3) : s.taskBusy x = false := by
  rw [State.taskBusy, hr, if_neg (by omega), if_neg (by omega), if_neg (by omega), if_neg (by omega), if_neg (by omega),
    if_neg (by rw [tallyTask]; omega)]
  rfl

theorem taskBusy_line {x : Nat} (hr : s.dev.pwr.state = .run) (h : 0x20 ≤ x) (h' : x ≤ 0x27) : s.taskBusy x = false := by
  rw [State.taskBusy, hr, if_neg (by omega), if_neg (by omega), if_neg (by omega), if_neg (by omega), if_neg (by omega),
    if_neg (by rw [tallyTask]; omega)]
  rfl

theorem within_tasked {F : Foot} {p : Nat} (h : ∀ a ∈ perfOf p, F.regs a = true) : s.Within F (t.tasked p) ↔ s.Within F t := by
  rw [State.tasked, State.within_perf_iff h, State.within_live_iff rfl]

/-! ### The two ways a channel fires (R322, R347) -/

/-- The write of RIGGER_FIREk that fires one channel. -/
def softFire (n : Fin 64) : Instr := .riggerSoftFire ⟨n.val / 32, by omega⟩ (BitVec.ofNat 32 (2 ^ (n.val % 32)))

theorem softFire_channels (n : Fin 64) :
    (onesOf 32 (BitVec.ofNat 32 (2 ^ (n.val % 32))).toNat).map (fun j => 32 * (n.val / 32) + j) = [n.val] :=
  (show ∀ n : Fin 64, (onesOf 32 (BitVec.ofNat 32 (2 ^ (n.val % 32))).toNat).map (fun j => 32 * (n.val / 32) + j) = [n.val] by decide) n

theorem fires_to {n : Fin 64} {x : Instr} (hx : x ∈ [Instr.riggerChannelFire n, softFire n]) (hl : s.rigLocked n.val = false ∨ x ≠ softFire n)
    (hf : s.srcFires n.val = true ∨ x = softFire n) {P : State → Prop} (hP : P (latchEdges s ((fireSet [n.val]).run s))) : Completes x s P := by
  rcases List.mem_pair.mp hx with rfl | rfl
  · have hs : s.srcFires n.val = true := hf.resolve_right (by simp [softFire])
    exact completes_run rfl (by rw [if_pos hs]; exact hP)
  · have hno : s.rigLocked n.val = false := hl.resolve_right fun h => h rfl
    refine completes_run (m := rigSoftFire (n.val / 32) (BitVec.ofNat 32 (2 ^ (n.val % 32))).toNat) rfl ?_
    rw [rigSoftFire, run_getS, softFire_channels]
    simpa [hno] using hP

/-! ### A firing below the limit (R322, R498) -/

/-- A firing was counted, and nothing else of the channels has changed. -/
def State.Fired (s : State) (k : Nat) (t : State) : Prop :=
  (t.rig k).fired = min (2 ^ 32 - 1) ((s.rig k).fired + 1) ∧ (t.rig k).inTick = (s.rig k).inTick + 1 ∧ (t.rig k).drop = (s.rig k).drop ∧
    ∀ m ≠ k, t.rig m = s.rig m

theorem fired_of_ch {k : Nat} (h : t.dev.rigger.ch = (s.rigFired k).dev.rigger.ch) : s.Fired k t := by
  refine ⟨?_, ?_, ?_, fun m hm => ?_⟩
  · rw [rig_congr h, State.rigFired, rigged_same]
  · rw [rig_congr h, State.rigFired, rigged_same]
  · rw [rig_congr h, State.rigFired, rigged_same]
  · rw [rig_congr h, State.rigFired, rigged_other _ hm]

/-- The four tasks of a channel: one and no other. -/
def State.RigOnly (s : State) (k x : Nat) : Prop :=
  s.fld (RIGGER_TASK_TASK0 k) = x ∧ s.fld (RIGGER_TASK_TASK1 k) = 0 ∧ s.fld (RIGGER_TASK_TASK2 k) = 0 ∧ s.fld (RIGGER_TASK_TASK3 k) = 0

section
variable {n : Fin 64} {x : Instr} (ht : s.dev.rigger.taken = []) (hpend : ∀ y ∈ s.dev.rigger.pend, y.1 = 1)
  (hx : x ∈ [Instr.riggerChannelFire n, softFire n]) (hl : s.rigLocked n.val = false ∨ x ≠ softFire n)
  (hf : s.srcFires n.val = true ∨ x = softFire n)

include ht hx hl hf

theorem fires_off (he : s.rigOn n.val = false) : Completes x s fun t => t.dev.rigger = s.dev.rigger ∧ s.Within {} t :=
  fires_to hx hl hf (by rw [fire_off ht he]; exact ⟨by simp, by simp⟩)

theorem fires_held (he : s.rigOn n.val = true) (hk : 16 ≤ n.val) (hr : s.dev.pwr.state = .rest) (hh : s.dev.rigger.held = []) :
    Completes x s fun t => t.dev.rigger.held = [n.val] ∧ t.rig n.val = s.rig n.val ∧ s.Within {} t :=
  fires_to hx hl hf (by
    rw [fire_held ht he hk hr]
    exact ⟨by simp [hh], rig_congr (by simp) _, by simp [State.within_live_iff]⟩)

variable (he : s.rigOn n.val = true) (hr : s.dev.pwr.state = .run) (hlim : (s.rig n.val).inTick < max 1 (s.fld (RIGGER_SRC_STORM n.val)))
include he hr hlim

theorem fires_nothing (ho : s.RigOnly n.val 0) : Completes x s fun t => s.Fired n.val t ∧ t.dev.rigger.gpo = s.dev.rigger.gpo ∧ s.Within {} t := by
  obtain ⟨h0, h1, h2, h3⟩ := ho
  refine fires_to hx hl hf ?_
  rw [fire_counted ht he hr hlim, rigTasks_only h0 h1 h2 h3, show List.filter (fun t => (taskPage t).isSome) [0] = [] from rfl, List.map_nil, sendAll_nil]
  exact ⟨fired_of_ch (by simp), by simp [State.rigFired, State.rigged], by rw [State.rigFired, State.rigged]; simp [State.within_live_iff]⟩

include hpend

/-- A firing with one task that its consumer takes at once. -/
theorem fires_task {y p : Nat} (ho : s.RigOnly n.val y) (hp : taskPage y = some p) (hord : taskOrder y < 9) (hy : y ≠ 1) (hb : s.taskBusy y = false)
    {P : State → Prop} (hP : P (latchEdges s ((taskAct y n.val).run ((s.rigFired n.val).sent y n.val)))) : Completes x s P := by
  obtain ⟨h0, h1, h2, h3⟩ := ho
  have hpow : s.powered p = true := by
    rw [State.powered, hr]
    split <;> rfl
  refine fires_to hx hl hf ?_
  rw [fire_counted ht he hr hlim, rigTasks_only h0 h1 h2 h3]
  simp only [List.filter_cons, hp, Option.isSome_some, if_true, List.filter_nil, List.map_cons, List.map_nil]
  rw [sendAll_one hord, sendTask_free (s := s.rigFired n.val) hp ht hpow (fun z hz => by rw [hpend z hz]; exact hy.symm) hb]
  exact hP

theorem fires_gpo {y : Nat} (ho : s.RigOnly n.val y) (h1 : 0x98 ≤ y) (h2 : y ≤ 0xA3) : Completes x s fun t =>
    s.Fired n.val t ∧ t.dev.rigger.gpo = gpoAfter y s.dev.rigger.gpo ∧ s.Within (onlyRegs (perfOf gpioPage)) t := by
  refine fires_task ht hpend hx hl hf he hr hlim ho (taskPage_gpo h1 h2) (taskOrder_gpo h1) (by omega) (taskBusy_gpo hr h1 h2) ?_
  rw [taskAct_gpo _ h1 h2]
  exact ⟨fired_of_ch (by simp [State.tasked, State.sent]), by simp [State.tasked, State.sent, State.rigFired, State.rigged], by
    rw [State.within_latch_iff, State.within_live_iff rfl, within_tasked fun a ha => decide_eq_true ha]
    simp [State.sent, State.rigFired, State.rigged, State.within_live_iff]⟩

theorem fires_line {j : Nat} (ho : s.RigOnly n.val (0x20 + j)) (hj : j < 8) : Completes x s fun t =>
    s.Fired n.val t ∧ t.dev.intc.edge.testBit (60 + j) = true ∧ s.Within (onlyRegs (perfOf riggerPage)) t := by
  refine fires_task ht hpend hx hl hf he hr hlim ho (taskPage_line (by omega) (by omega)) (taskOrder_line (by omega)) (by omega)
    (taskBusy_line hr (by omega) (by omega)) ?_
  rw [taskAct_line _ (by omega) (by omega), Nat.add_sub_cancel_left]
  refine ⟨fired_of_ch (by simp [State.tasked, State.sent]), latchEdges_edge ?_, by
    rw [State.within_latch_iff, State.within_live_iff rfl, within_tasked fun a ha => decide_eq_true ha]
    simp [State.sent, State.rigFired, State.rigged, State.within_live_iff]⟩
  rw [State.live_dev]
  exact bitSet_testBit_self _ _
end

/-! ### The storm guard (R326) -/

theorem rig_settable : ∀ b < 2, ∀ i < 32, Fld.settable ⟨RIGGER_EN b, i, i⟩ = true ∧ Fld.settable ⟨RIGGER_STORM b, i, i⟩ = true := by decide
theorem rig_apart : ∀ b < 2, RIGGER_EN b ∉ LOGB_STAT :: perfOf logbPage ∧ RIGGER_STORM b ∉ LOGB_STAT :: perfOf logbPage ∧
    RIGGER_EN b ∉ evRegs riggerPage ∧ RIGGER_STORM b ∉ evRegs riggerPage ∧ FLT riggerPage ≠ RIGGER_EN b ∧ RIGGER_EN b ≠ RIGGER_STORM b ∧
    RIGGER_STORM b ≠ RIGGER_EN b ∧ RIGGER_LOCK b ≠ RIGGER_STORM b ∧ RIGGER_LOCK b ∉ evRegs riggerPage := by decide

section
variable {type code cluster : Nat} {hw : Bool} {payload : List Byte}

/-- What staging may touch. -/
theorem stage_within : s.Within (onlyRegs (LOGB_STAT :: perfOf logbPage)) ((stage type hw code cluster payload).run s) := by
  by_cases hl : s.dev.staged.length < 4
  · rw [stage_run hl, run_stat]
    refine State.Within.trans ?_ ((emit_unlatched _ logbPage (by decide)).1.within.of_onlyRegs fun a ha =>
      decide_eq_true (List.mem_cons_of_mem _ ha))
    rw [State.within_counted_iff, State.withStaged, State.within_put_iff (by decide), State.within_live_iff rfl]
    exact s.within_refl _
  · rw [stage, run_getS, if_neg hl, run_setFld_bind, run_stat, State.within_counted_iff, State.within_put_iff (by decide)]
    exact s.within_refl _

theorem stage_rigger : ((stage type hw code cluster payload).run s).dev.rigger = s.dev.rigger := by
  by_cases hl : s.dev.staged.length < 4
  · rw [stage_dev hl]
  · rw [stage, run_getS, if_neg hl, run_setFld_bind, run_stat, State.counted_dev, State.dev_put]
end

/-- The storm guard has tripped at a channel: the bit and the fault (R326). -/
def State.stormed (s : State) (k : Nat) : State := (setFlt riggerPage fltOvr).run (s.put ⟨RIGGER_STORM (k / 32), k % 32, k % 32⟩ 1)

@[simp] theorem stormed_dev (k : Nat) : (s.stormed k).dev = s.dev := by rw [State.stormed, setFlt_dev, State.dev_put]

section
variable (n : Fin 64)

theorem stormed_storm : (s.stormed n.val).bit ⟨RIGGER_STORM (n.val / 32), n.val % 32, n.val % 32⟩ = true := by
  obtain ⟨-, -, -, h, -⟩ := rig_apart (n.val / 32) (by omega)
  rw [State.stormed, setFlt_bit h, State.bit_self _ (rig_settable _ (by omega) _ (by omega)).2, Nat.sub_self]
  rfl

theorem stormed_en : (s.stormed n.val).bit ⟨RIGGER_EN (n.val / 32), n.val % 32, n.val % 32⟩ = s.bit ⟨RIGGER_EN (n.val / 32), n.val % 32, n.val % 32⟩ := by
  obtain ⟨-, -, h, -, -, h', -⟩ := rig_apart (n.val / 32) (by omega)
  rw [State.stormed, setFlt_bit h, State.bit_put_other _ h']

theorem stormed_ovr : (s.stormed n.val).bit (fltBit riggerPage fltOvr) = true := by
  rw [State.stormed]
  exact setFlt_bit_set (Fld.full_of_settable (by decide))

theorem stormed_within {F : Foot} (h : F.regs (RIGGER_STORM (n.val / 32)) = true) (h' : ∀ a ∈ evRegs riggerPage, F.regs a = true) :
    s.Within F (s.stormed n.val) := by
  rw [State.stormed, State.within_setFlt_iff h', State.within_put_iff (by exact h)]
  exact s.within_refl _

theorem rigStorm_locked (hl : s.rigLocked n.val = true) : (rigStorm n.val).run s =
    ((s.stormed n.val).rigged n.val fun c => { c with drop := min 0xFFFF (c.drop + 1) }).rigged n.val fun c =>
      { c with disc := c.disc + 1, trips := if c.disc = 0 then min 0xFFFF (c.trips + 1) else c.trips } := by
  rw [rigStorm, run_getS, run_setFld_bind, run_setFlt_bind, ← State.stormed, hl, if_pos rfl, (total_rigDrop _).run_bind, rigDrop_run n.isLt, run_modRig]

/-- The state in which a storm has disabled its channel, the record aside. -/
def State.disabled (s : State) (k : Nat) : State :=
  ((s.stormed k).put ⟨RIGGER_EN (k / 32), k % 32, k % 32⟩ 0).rigged k fun c => { c with trips := min 0xFFFF (c.trips + 1) }

theorem rigStorm_unlocked (hl : s.rigLocked n.val = false) : (rigStorm n.val).run s =
    (stage 0x02 true stBusy (s.reg riggerPage).toNat (leBytes 1 n.val ++ leBytes 1 0 ++ leBytes 2 ((s.rig n.val).disc + 1))).run (s.disabled n.val) := by
  rw [rigStorm, run_getS, run_setFld_bind, run_setFlt_bind, ← State.stormed, hl, if_neg (by decide), setRigOn, run_setFld_bind, run_modRig_bind]
  rfl
end

section
variable {n : Fin 64} {x : Instr} (ht : s.dev.rigger.taken = [])
  (hx : x ∈ [Instr.riggerChannelFire n, softFire n]) (hl : s.rigLocked n.val = false ∨ x ≠ softFire n)
  (hf : s.srcFires n.val = true ∨ x = softFire n) (he : s.rigOn n.val = true) (hr : s.dev.pwr.state = .run)
  (hlim : max 1 (s.fld (RIGGER_SRC_STORM n.val)) ≤ (s.rig n.val).inTick)
include ht hx hl hf he hr hlim

theorem fires_storm_locked (hk : s.rigLocked n.val = true) : Completes x s fun t =>
    t.bit ⟨RIGGER_EN (n.val / 32), n.val % 32, n.val % 32⟩ = true ∧ t.bit ⟨RIGGER_STORM (n.val / 32), n.val % 32, n.val % 32⟩ = true ∧
      (t.rig n.val).drop = min 0xFFFF ((s.rig n.val).drop + 1) ∧ (t.rig n.val).disc = (s.rig n.val).disc + 1 ∧
      t.dev.staged = s.dev.staged ∧ s.Within (onlyRegs (RIGGER_STORM (n.val / 32) :: evRegs riggerPage)) t := by
  refine fires_to hx hl hf ?_
  rw [fire_storm ht he hr hlim, rigStorm_locked n hk]
  have hrig : ∀ u : State, (latchEdges s u).rig n.val = u.rig n.val := fun u => rig_congr (by simp) _
  refine ⟨?_, ?_, ?_, ?_, ?_, ?_⟩
  · rw [latchEdges_bit, rigged_bit, rigged_bit, stormed_en]
    exact he
  · rw [latchEdges_bit, rigged_bit, rigged_bit, stormed_storm]
  · rw [hrig, rigged_same, rigged_same, rig_congr (t := s.stormed n.val) (s := s) (by rw [stormed_dev])]
  · rw [hrig, rigged_same, rigged_same, rig_congr (t := s.stormed n.val) (s := s) (by rw [stormed_dev])]
  · rw [latchEdges_staged, State.rigged, State.live_dev, State.rigged, State.live_dev, stormed_dev]
  · rw [State.within_latch_iff, State.rigged, State.within_live_iff rfl, State.rigged, State.within_live_iff rfl]
    exact stormed_within n (by simp [onlyRegs]) fun a ha => by simp [onlyRegs, ha]

theorem fires_storm_unlocked (hk : s.rigLocked n.val = false) : Completes x s fun t =>
    t.bit ⟨RIGGER_EN (n.val / 32), n.val % 32, n.val % 32⟩ = false ∧ t.bit ⟨RIGGER_STORM (n.val / 32), n.val % 32, n.val % 32⟩ = true ∧
      (t.rig n.val).trips = min 0xFFFF ((s.rig n.val).trips + 1) ∧ (t.rig n.val).fired = (s.rig n.val).fired ∧
      t.bit (fltBit riggerPage fltOvr) = true ∧ (s.dev.staged.length < 4 → t.dev.staged.length = s.dev.staged.length + 1) ∧
      s.Within (onlyRegs (LOGB_STAT :: RIGGER_EN (n.val / 32) :: RIGGER_STORM (n.val / 32) :: (evRegs riggerPage ++ perfOf logbPage))) t := by
  refine fires_to hx hl hf ?_
  rw [fire_storm ht he hr hlim, rigStorm_unlocked n hk]
  have hstage := stage_within (s := s.disabled n.val) (type := 0x02) (hw := true) (code := stBusy) (cluster := (s.reg riggerPage).toNat)
    (payload := leBytes 1 n.val ++ leBytes 1 0 ++ leBytes 2 ((s.rig n.val).disc + 1))
  have hbit : ∀ f : Fld, f.addr ∉ LOGB_STAT :: perfOf logbPage → ∀ u, (s.disabled n.val).Within (onlyRegs (LOGB_STAT :: perfOf logbPage)) u →
      u.bit f = (s.disabled n.val).bit f := fun f hf u hu => by
    rw [State.bit, State.fld, hu.regs _ (by simpa [onlyRegs] using hf), ← State.fld, ← State.bit]
  have hrig : ∀ u : State, u.dev.rigger = (s.disabled n.val).dev.rigger → (latchEdges s u).rig n.val =
      { s.rig n.val with trips := min 0xFFFF ((s.rig n.val).trips + 1) } := fun u hu => by
    rw [rig_congr (s := s.disabled n.val) (by rw [latchEdges_rigger, hu]), State.disabled, rigged_same, rig_congr (s := s) (by rw [State.dev_put, stormed_dev])]
  obtain ⟨h1, h2, h3, h4, h5, h6, h7, -⟩ := rig_apart (n.val / 32) (by omega)
  refine ⟨?_, ?_, ?_, ?_, ?_, fun hroom => ?_, ?_⟩
  · rw [latchEdges_bit, hbit _ h1 _ hstage]
    rw [State.disabled, rigged_bit, State.bit_self _ (rig_settable _ (by omega) _ (by omega)).1, Nat.zero_mod]
    rfl
  · rw [latchEdges_bit, hbit _ h2 _ hstage]
    rw [State.disabled, rigged_bit, State.bit_put_other _ h7, stormed_storm]
  · rw [hrig _ stage_rigger]
  · rw [hrig _ stage_rigger]
  · rw [latchEdges_bit, hbit _ (by decide) _ hstage]
    rw [State.disabled, rigged_bit, State.bit_put_other _ h5, stormed_ovr]
  · have hst : (s.disabled n.val).dev.staged = s.dev.staged := by
      rw [State.disabled, State.rigged, State.live_dev, State.dev_put, stormed_dev]
    rw [latchEdges_staged, stage_dev (by rw [hst]; exact hroom), hst, List.length_append]
    rfl
  · rw [State.within_latch_iff]
    refine State.Within.trans ?_ (hstage.of_onlyRegs fun a ha => ?_)
    · rw [State.disabled, State.rigged, State.within_live_iff rfl, State.within_put_iff (by simp [onlyRegs])]
      exact stormed_within n (by simp [onlyRegs]) fun a ha => by simp [onlyRegs, ha]
    · rcases List.mem_cons.mp ha with rfl | ha <;> simp [onlyRegs, *]
end

/-! ### Locks, counts, a pending task (R324, R325, R347) -/

theorem softFire_locked {n : Fin 64} (h : s.Inv) (ht : s.dev.rigger.taken = []) (hk : s.rigLocked n.val = true) : Completes (softFire n) s fun t =>
    t.dev.rigger = s.dev.rigger ∧ s.Reports t riggerPage fltState := by
  have hempty : ∀ u : State, u.dev.rigger.taken = [] → (fireSet []).run u = u := fun u hu => by
    rw [fireSet, run_getS, if_neg (by simp [hu])]
    rfl
  refine completes_run (m := rigSoftFire (n.val / 32) (BitVec.ofNat 32 (2 ^ (n.val % 32))).toNat) rfl ?_
  rw [rigSoftFire, run_getS, softFire_channels]
  simp only [List.any_cons, hk, Bool.true_or, if_true, run_setFlt_bind, List.filter_cons, Bool.not_true, Bool.false_eq_true, if_false, List.filter_nil]
  rw [hempty _ (by rw [setFlt_dev, ht])]
  exact ⟨by simp, (h.reports (by decide))⟩

theorem channelFire_not {n : Fin 64} (hs : s.srcFires n.val = false) : Completes (.riggerChannelFire n) s fun t => t.dev = s.dev ∧ s.Within {} t :=
  completes_nothing rfl (by rw [hs, if_neg (by decide), run_pure]) (by rw [latchEdges_self]; exact ⟨rfl, by simp⟩)

theorem riggerLock_locks (h : s.Inv) (b : Fin 2) (v : Word) : Completes (.riggerLock b v) s fun t =>
    s.Sets t [(⟨RIGGER_LOCK b.val, 31, 0⟩, (s.reg (RIGGER_LOCK b.val) ||| v).toNat)] := by
  have hm : ∀ b < 2, maskOf (RIGGER_LOCK b) = 0xFFFFFFFF := by decide
  refine completes_run rfl ?_
  rw [rigLock, run_rd, run_wr]
  exact ((did_refl h).wr (hm _ b.isLt)).latched s

/-- A channel with its counts cleared (R347). -/
def cntCleared (c : RigCh) : RigCh := { c with drop := 0, fired := 0, trips := 0 }

theorem val_foldl_upd {β : Type} [DecidableEq β] (d : β) (f : β → β) {l : List Nat} (hl : l.Nodup) (m : Sparse β) (k : Nat) :
    Sparse.val d (l.foldl (fun m n => Sparse.upd d m n f) m) k = if k ∈ l then f (Sparse.val d m k) else Sparse.val d m k := by
  induction l generalizing m with
  | nil => rfl
  | cons n l ih =>
    obtain ⟨hn, hl⟩ := List.nodup_cons.mp hl
    rw [List.foldl_cons, ih hl]
    by_cases hk : k = n
    · subst hk
      rw [if_neg hn, val_upd_same, if_pos List.mem_cons_self]
    · rw [val_upd_other _ _ hk]
      simp only [List.mem_cons, hk, false_or]

theorem riggerCountClear_clears (v : Word) : Completes (.riggerCountClear v) s fun t =>
    (∀ m < 64, t.rig m = if v.toNat.testBit 31 ∨ bitsGet v 5 0 = m then { s.rig m with drop := 0, fired := 0, trips := 0 } else s.rig m) ∧
      s.Within {} t := by
  refine completes_run rfl ?_
  rw [rigCntClr, run_modRigger]
  refine ⟨fun m hm => ?_, by simp [State.within_live_iff]⟩
  have hall : Sparse.val {} ((List.range 64).foldl (fun m n => Sparse.upd {} m n cntCleared) s.dev.rigger.ch) m = cntCleared (s.rig m) := by
    rw [val_foldl_upd _ _ List.nodup_range, if_pos (List.mem_range.mpr hm), ← State.rig]
  rw [State.rig, latchEdges_rigger, State.live_dev, bitOf]
  by_cases hb : v.toNat.testBit 31 = true
  · simp only [hb, if_true, true_or]
    exact hall
  · simp only [hb, Bool.false_eq_true, if_false, false_or]
    by_cases hk : bitsGet v 5 0 = m
    · rw [if_pos hk, hk, val_upd_same, ← State.rig]
    · rw [if_neg hk, val_upd_other _ _ (Ne.symm hk), ← State.rig]

/-- The load task of the real-time clock at its consumer (R341, R342). -/
theorem taskAct_load (ch : Nat) : (taskAct 1 ch).run s = rtcTaskLoad.run (s.tasked rtcPage) := by
  rw [taskAct, run_getS, show taskPage 1 = some rtcPage from rfl]
  simp only [openGate, run_modDev_bind, run_perf_bind, if_true, State.tasked]

section
variable {ch : Nat} (hp : s.dev.rigger.pend = [(1, ch)])
include hp

theorem pendAct_run : (pendAct 1).run s = if s.dev.rtc.task then s else
    (taskAct 1 ch).run (s.live fun d => { d with rigger := { d.rigger with pend := d.rigger.pend.erase (1, ch) } }) := by
  have hb : s.taskBusy 1 = s.dev.rtc.task := by
    rw [State.taskBusy, show taskPage 1 = some rtcPage from rfl]
    simp [show ¬ rtcPage < 0x42000000 by decide]
  rw [pendAct, run_getS, hp, List.find?_cons_of_pos rfl]
  simp only [hb, run_ite, run_modRigger_bind, run_pure]
  cases s.dev.rtc.task <;> rfl

theorem pendingTask_waits (hb : s.dev.rtc.task = true) : Completes (.pendingTask 1) s fun t =>
    t.dev.rigger.pend = [(1, ch)] ∧ t.dev.rtc = s.dev.rtc ∧ s.Within {} t :=
  completes_nothing (m := pendAct 1) rfl (by rw [pendAct_run hp, if_pos hb]) ⟨by rw [latchEdges_rigger, hp], by simp, by simp⟩

theorem pendingTask_acts (hb : s.dev.rtc.task = false) : Completes (.pendingTask 1) s fun t =>
    t.dev.rigger.pend = [] ∧ t.dev.rtc.task = true ∧
      (s.dev.rtc.load = none → t.dev.rtc.load = some ((s.reg RTC_SETSEC).toNat, false)) ∧
      (∀ v, s.dev.rtc.load = some (v, true) → t.dev.rtc.load = some (v, true)) ∧ s.Within (onlyRegs (perfOf rtcPage)) t := by
  refine completes_run (m := pendAct 1) rfl ?_
  rw [pendAct_run hp, if_neg (by simp [hb]), taskAct_load, rtcTaskLoad, run_getS, run_modRtc]
  have hset : ∀ u : State, (u.tasked rtcPage).reg RTC_SETSEC = u.reg RTC_SETSEC := fun u => by
    rw [State.tasked, perf_reg (by decide), State.live_reg]
  refine ⟨?_, ?_, fun hn => ?_, fun v hv => ?_, ?_⟩
  · simp [State.tasked, hp]
  · simp
  · simp only [latchEdges_rtc, State.live_dev, hset, State.live_reg]
    simp [State.tasked, hn]
  · simp [State.tasked, hv]
  · rw [State.within_latch_iff, State.within_live_iff rfl, within_tasked fun a ha => decide_eq_true ha, State.within_live_iff rfl]
    exact s.within_refl _
end

/-- Settles O42: a firing is followed to the one task that it sends; the guard and the locks are chains of fields set. -/
theorem rigger : Obligations.Rigger := by
  intro n s h ht hpend
  refine ⟨softFire_locked h ht, channelFire_not, fun x hx hl hf => ⟨fires_off ht hx hl hf, fun he hr hlim =>
      ⟨fires_nothing ht hx hl hf he hr hlim, fun j => ⟨fun ho => ?_, fun ho => ?_, fun ho => ?_⟩,
        fun j ho => fires_line ht hpend hx hl hf he hr hlim ho j.isLt⟩,
      fun he hr hlim => ⟨fires_storm_unlocked ht hx hl hf he hr hlim, fires_storm_locked ht hx hl hf he hr hlim⟩,
      fun he hk hr hh => fires_held ht hx hl hf he hk hr hh⟩,
    riggerLock_locks h, riggerCountClear_clears, fun ch hp hb => pendingTask_acts hp hb, fun ch hp hb => pendingTask_waits hp hb⟩
  all_goals
    obtain ⟨t, hc, hfired, hgpo, hw⟩ := fires_gpo ht hpend hx hl hf he hr hlim ho (by omega) (by omega)
    refine ⟨t, hc, hfired, ?_, hw⟩
    rw [hgpo, gpoAfter]
  · rw [if_pos (by omega), Nat.add_sub_cancel_left, bitSet_testBit_self]
  · rw [if_neg (by omega), if_pos (by omega), Nat.add_sub_cancel_left, bitClr_testBit_self]
  · rw [if_neg (by omega), if_neg (by omega), Nat.add_sub_cancel_left]
    exact stOut_toggled _ _

end Sys2Proof.Machine
end

section
/-!
The transmit queue and the transmission in the air, as commands change them; a fault with the offset it was found at.
-/
namespace Sys2Proof.Machine
open Sys2Proof.Reg

variable {s t : State} {F : Foot} {l : List (Fld × Nat)} {noted : List Nat}

/-! ### A fault at an offset (R305, R310) -/

theorem run_setFltAt (p b a : Nat) (s : State) : (setFltAt p b a).run s =
    (emitNow p (fltEvent p)).run (s.putReg (FLT p) (bitsPut (s.reg (FLT p) ||| BitVec.ofNat 32 (2 ^ b)) 27 16 (a % 0x1000))) := by
  rw [setFltAt, run_rd, run_wr_bind]

theorem emitNow_noted (p e : Nat) : State.Noted (perfRegs p) s ((emitNow p e).run s) := (M.Gives.run (gives_emitNow (s := s))).1

theorem setFltAt_noted (p b a : Nat) : State.Noted (evRegs p) s ((setFltAt p b a).run s) := by
  rw [run_setFltAt]
  exact (noted_putReg (by simp [evRegs])).trans ((emitNow_noted _ _).sub fun _ => perfRegs_sub)

theorem total_setFltAt (p b a : Nat) : (setFltAt p b a).Total :=
  total_bind (total_rd _) fun _ => total_bind (total_wr _ _) fun _ => ⟨fun _ => gives_emitNow.mono fun _ _ _ => trivial⟩

@[simp] theorem setFltAt_dev (p b a : Nat) : ((setFltAt p b a).run s).dev = s.dev := (setFltAt_noted p b a).dev

/-- A fault at an offset is its bit and the offset set. -/
theorem State.Did.setFltAt (h : s.Did t l noted F) {p b a : Nat} (hb : (fltBit p b).settable = true) (ho : (FLT_LASTOFS p).settable = true)
    (hn : ∀ a ∈ perfRegs p, F.regs a = true ∨ a ∈ noted) :
    s.Did ((Machine.setFltAt p b a).run t) (l ++ [(fltBit p b, 1)] ++ [(FLT_LASTOFS p, a % 0x1000)]) noted F := by
  have hput := (h.put hb 1).put ho (a % 0x1000)
  have hreg : ∀ r, (t.putReg (FLT p) (bitsPut (t.reg (FLT p) ||| BitVec.ofNat 32 (2 ^ b)) 27 16 (a % 0x1000))).reg r =
      ((t.put (fltBit p b) 1).put (FLT_LASTOFS p) (a % 0x1000)).reg r := fun r => by
    by_cases hr : r = FLT p
    · subst hr
      have hm := Fld.full_of_settable hb
      have hb32 : b < 32 := hm.2.1
      have hone : (t.put (fltBit p b) 1).reg (FLT p) = bitsPut (t.reg (FLT p)) b b 1 := by
        show (Prim.run (.reg (FLT p) (bitsPut (t.reg (FLT p)) b b 1)) t).reg (FLT p) = _
        rw [State.reg_written]
        exact bitsPut_and_mask hm.1 hm.2.2 (h.inv.reg_and_mask (Fld.reset_of_settable hb))
      rw [State.reg_putReg_same, State.put, State.reg_written, hone, or_bit_eq_bitsPut _ hb32]
    · rw [State.reg_putReg_other _ hr, State.reg_put_other _ hr, State.reg_put_other _ hr]
  refine ⟨h.inv.run _, ?_⟩
  rw [run_setFltAt]
  refine State.Sets.step ⟨fun r hr hF => by rw [hreg r, hput.sets.regs r hr hF], ?_⟩
    ((emitNow_noted p _).within.of_onlyRegs fun r hr => by simpa using hn r hr)
  rw [State.within_putReg_iff rfl]
  exact h.sets.rest

theorem setFltAt_bit_set (h : s.Inv) {p b a : Nat} (hb : (fltBit p b).apart (FLT_LASTOFS p) = true) (hn : FLT p ∉ perfRegs p) :
    ((setFltAt p b a).run s).bit (fltBit p b) = true := by
  have hap := hb
  simp only [Fld.apart, Bool.and_eq_true, Bool.or_eq_true, bne_iff_ne, decide_eq_true_eq] at hb
  obtain ⟨⟨hf, hg⟩, ho⟩ := hb
  have hd := ((did_refl (F := {}) (noted := perfRegs p) h).setFltAt (a := a) hf hg fun _ => .inr).sets.regs (FLT p) hn rfl
  have hput := (((did_refl (F := {}) (noted := perfRegs p) h).put hf 1).put hg (a % 0x1000)).sets.regs (FLT p) hn rfl
  have hbit : ((s.put (fltBit p b) 1).put (FLT_LASTOFS p) (a % 0x1000)).bit (fltBit p b) = true := by
    rw [State.bit_put_apart (Fld.full_of_settable hg) (Fld.full_of_settable hf), State.bit_self _ hf]
    · show (1 % 2 ^ (b - b + 1) == 1) = true
      rw [Nat.sub_self]
      rfl
    · intro _
      rcases ho with (hne | hl) | hr
      · exact absurd rfl hne
      · exact .inr hl
      · exact .inl hr
  rw [State.bit, State.fld] at hbit ⊢
  rwa [show ((setFltAt p b a).run s).reg (fltBit p b).addr = _ from hd.trans hput.symm]

/-- A fault leaves the other bits of FLT. -/
theorem setFlt_bit_apart {p b : Nat} {f : Fld} (h : (fltBit p b).apart f = true) (hn : f.addr ∉ perfRegs p) : ((setFlt p b).run s).bit f = s.bit f := by
  have hb : b < 32 := by
    simp only [Fld.apart, Bool.and_eq_true] at h
    exact (Fld.full_of_settable h.1.1).2.1
  rw [State.bit, State.fld, (setFlt_put s p hb).reg hn, ← State.fld, ← State.bit, State.bit_apart _ h]

/-! ### The queue -/

@[simp] theorem run_modTx (f : TxEng → TxEng) (s : State) : (modTx f).run s = s.live fun d => { d with tx := f d.tx } := (rfl)
@[simp] theorem run_modTx_bind (f : TxEng → TxEng) (k : Unit → M Unit) (s : State) :
    (modTx f >>= k).run s = (k ()).run (s.live fun d => { d with tx := f d.tx }) := (rfl)
@[simp] theorem run_modRadio (f : Radio → Radio) (s : State) : (modRadio f).run s = s.live fun d => { d with radio := f d.radio } := (rfl)
@[simp] theorem run_modRadio_bind (f : Radio → Radio) (k : Unit → M Unit) (s : State) :
    (modRadio f >>= k).run s = (k ()).run (s.live fun d => { d with radio := f d.radio }) := (rfl)
@[simp] theorem run_modDuty (f : Duty → Duty) (s : State) : (modDuty f).run s = s.live fun d => { d with duty := f d.duty } := (rfl)
@[simp] theorem run_modDuty_bind (f : Duty → Duty) (k : Unit → M Unit) (s : State) :
    (modDuty f >>= k).run s = (k ()).run (s.live fun d => { d with duty := f d.duty }) := (rfl)

/-- The state with the queue replaced; LINK_STAT.TXQ follows. -/
def State.requeued (s : State) (l : List TxJob) : State :=
  (s.live fun d => { d with tx := { d.tx with jobs := l } }).put LINK_STAT_TXQ (min 16 (l.filter TxJob.queued).length)

@[simp] theorem run_setJobs (l : List TxJob) (s : State) : (setJobs l).run s = s.requeued l := by
  rw [setJobs, run_modTx_bind, run_setFld, State.requeued]
@[simp] theorem run_setJobs_bind (l : List TxJob) (k : Unit → M Unit) (s : State) : (setJobs l >>= k).run s = (k ()).run (s.requeued l) := by
  rw [setJobs, run_assoc, run_modTx_bind, run_setFld_bind, State.requeued]

@[simp] theorem requeued_dev (l : List TxJob) : (s.requeued l).dev = { s.dev with tx := { s.dev.tx with jobs := l } } := by
  rw [State.requeued, State.dev_put, State.live_dev]
@[simp] theorem requeued_events (l : List TxJob) : (s.requeued l).events = s.events := by rw [State.requeued, State.events_put, State.live_events]
theorem requeued_reg {a : Nat} (l : List TxJob) (h : a ≠ LINK_STAT) : (s.requeued l).reg a = s.reg a := by
  rw [State.requeued, State.reg_put_other _ h, State.live_reg]
theorem requeued_fld {f : Fld} (l : List TxJob) (h : f.addr ≠ LINK_STAT) : (s.requeued l).fld f = s.fld f := by
  rw [State.fld, requeued_reg l h, State.fld]
theorem requeued_bit {f : Fld} (l : List TxJob) (h : f.addr ≠ LINK_STAT) : (s.requeued l).bit f = s.bit f := by
  rw [State.bit, requeued_fld l h, State.bit]
theorem within_requeued_iff {l : List TxJob} (h : F.regs LINK_STAT = true) : s.Within F (t.requeued l) ↔ s.Within F t := by
  rw [State.requeued, State.within_put_iff (by exact h), State.within_live_iff rfl]

/-- The state with a job added to the queue. -/
def State.jobAdded (s : State) (j : TxJob) : State :=
  (s.live fun d => { d with tx := { d.tx with nextId := d.tx.nextId + 1 } }).requeued (s.dev.tx.jobs ++ [{ j with id := s.dev.tx.nextId }])

theorem run_addJob_bind (j : TxJob) (f : Nat → M Unit) (s : State) : (addJob j >>= f).run s = (f s.dev.tx.nextId).run (s.jobAdded j) := by
  rw [addJob, run_assoc, run_getS, run_assoc, run_modTx_bind, run_assoc, run_setJobs_bind, run_pure_bind]
  rfl

theorem jobAdded_reg {a : Nat} (j : TxJob) (h : a ≠ LINK_STAT) : (s.jobAdded j).reg a = s.reg a := by
  rw [State.jobAdded, requeued_reg _ h, State.live_reg]
theorem jobAdded_fld {f : Fld} (j : TxJob) (h : f.addr ≠ LINK_STAT) : (s.jobAdded j).fld f = s.fld f := by
  rw [State.fld, jobAdded_reg j h, State.fld]
theorem jobAdded_bit {f : Fld} (j : TxJob) (h : f.addr ≠ LINK_STAT) : (s.jobAdded j).bit f = s.bit f := by
  rw [State.bit, jobAdded_fld j h, State.bit]
theorem jobAdded_jobs (j : TxJob) : (s.jobAdded j).dev.tx.jobs = s.dev.tx.jobs ++ [{ j with id := s.dev.tx.nextId }] := by
  rw [State.jobAdded, requeued_dev]
theorem within_jobAdded_iff {j : TxJob} (h : F.regs LINK_STAT = true) : s.Within F (t.jobAdded j) ↔ s.Within F t := by
  rw [State.jobAdded, within_requeued_iff h, State.within_live_iff rfl]

theorem run_dropJob (id : Nat) (s : State) : (dropJob id).run s = s.requeued (s.dev.tx.jobs.filter fun j => j.id != id) := by
  rw [dropJob, run_getS, run_setJobs, State.jobs]
theorem run_dropJob_bind (id : Nat) (k : Unit → M Unit) (s : State) :
    (dropJob id >>= k).run s = (k ()).run (s.requeued (s.dev.tx.jobs.filter fun j => j.id != id)) := by
  rw [dropJob, run_assoc, run_getS, run_setJobs_bind, State.jobs]

/-! ### TX_ACTIVE (R24, R329) -/

/-- The state with TX_ACTIVE raised. -/
def State.txRaised (s : State) : State := (emit txpPage 0xBA).run (s.put RCTL_STAT_TXACT 1)

theorem txRaised_reg {a : Nat} (h : a ∉ RCTL_STAT :: evRegs txpPage) : s.txRaised.reg a = s.reg a := by
  rw [State.txRaised, emit_reg fun hm => h (List.mem_cons_of_mem _ hm), State.reg_put_other _ (List.ne_of_not_mem_cons h)]
theorem txRaised_fld {f : Fld} (h : RCTL_STAT_TXACT.apart f = true) (hn : f.addr ∉ evRegs txpPage) : s.txRaised.fld f = s.fld f := by
  rw [State.txRaised, emit_fld hn, State.fld_apart _ h]
theorem txRaised_bit {f : Fld} (h : RCTL_STAT_TXACT.apart f = true) (hn : f.addr ∉ evRegs txpPage) : s.txRaised.bit f = s.bit f := by
  rw [State.bit, txRaised_fld h hn, State.bit]
theorem txRaised_txact : s.txRaised.bit RCTL_STAT_TXACT = true := by
  rw [State.txRaised, emit_bit (by decide), State.bit_self _ (by decide)]
  rfl
theorem txRaised_tx : s.txRaised.dev.tx = s.dev.tx := by rw [State.txRaised, emit_dev, State.dev_put]
theorem within_txRaised_iff (h : ∀ a ∈ RCTL_STAT :: evRegs txpPage, F.regs a = true) : s.Within F t.txRaised ↔ s.Within F t := by
  rw [State.txRaised, State.within_emit_iff fun a ha => h a (List.mem_cons_of_mem _ ha), State.within_put_iff (h _ List.mem_cons_self)]

/-- The state with TX_ACTIVE fallen. -/
def State.txFallen (s : State) : State :=
  let u := s.live fun d => { d with tx := { d.tx with air := none } }
  if s.bit RCTL_STAT_TXACT then (emit txpPage 0xBB).run (u.put RCTL_STAT_TXACT 0) else u

theorem run_setTxActive_raise (h : s.bit RCTL_STAT_TXACT = false) : (setTxActive true).run s = s.txRaised := by
  simp [setTxActive, h, State.txRaised, b2n]
theorem run_setTxActive_raise_bind (h : s.bit RCTL_STAT_TXACT = false) (k : Unit → M Unit) : (setTxActive true >>= k).run s = (k ()).run s.txRaised := by
  simp [setTxActive, h, State.txRaised, b2n]
theorem run_setTxActive_fall : (setTxActive false).run s = s.txFallen := by
  cases h : s.bit RCTL_STAT_TXACT <;> simp [setTxActive, h, State.txFallen, b2n]
theorem run_setTxActive_fall_bind (k : Unit → M Unit) : (setTxActive false >>= k).run s = (k ()).run s.txFallen := by
  cases h : s.bit RCTL_STAT_TXACT <;> simp [setTxActive, h, State.txFallen, b2n]

end Sys2Proof.Machine
end

section
/-!
The duty meter's minute (R64, R65), the profile lock (R61) and the test carrier (R518).
-/
namespace Sys2Proof.Machine
open Sys2Proof.Reg

variable {s t : State} {F : Foot}

theorem dutyMinute_turns (hl : s.bit PWR_CLKSTAT_LFOK = true) : Completes .dutyMinuteBoundary s fun t =>
    t.dev.duty.cur = (s.dev.duty.cur + 1) % 60 ∧ t.dev.duty.bucket t.dev.duty.cur = 0 ∧
      (∀ k ≠ t.dev.duty.cur, t.dev.duty.bucket k = s.dev.duty.bucket k) ∧ t.dev.duty.residue = s.dev.duty.residue ∧ s.Within {} t := by
  refine completes_run rfl ?_
  rw [if_pos hl, dutyMinute, run_modDuty]
  refine ⟨by simp, ?_, fun k hk => ?_, by simp, by simp [State.within_live_iff]⟩
  · rw [latchEdges_duty, State.live_dev, Duty.bucket, Sparse.val, Sparse.get_set_same]
  · rw [latchEdges_duty, State.live_dev] at hk ⊢
    rw [Duty.bucket, Sparse.val, Sparse.get_set_other _ _ _ _ _ hk, Duty.bucket, Sparse.val]

/-! ### The profile lock (R61) -/

theorem profileLock_locks (h : s.Inv) (v : Word) (hl : s.bit TXP_CFG_LOCK = false) (he : s.en txpPage = false) : Completes (.profileLock v) s fun t =>
    t.dev.radio.profLatch = some (bitsGet v 5 4) ∧
      s.Sets t [(TXP_CFG_CEIL, bitsGet v 15 8), (TXP_CFG_CLAMP, bitsGet v 0 0), (TXP_CFG_PROFILE, bitsGet v 5 4), (TXP_CFG_LOCK, 1)] := by
  refine completes_run rfl ?_
  rw [he, if_neg (by decide), run_setFld_bind, run_setFld_bind, profileLock, run_getS, State.bit_apart _ (by decide), State.bit_apart _ (by decide), hl,
    if_neg (by decide), run_setFld_bind, run_setFld_bind, run_modRadio]
  exact ⟨by simp [-State.put_dev, -State.putReg_dev], ((((((did_refl h).puts (by decide)).puts (by decide)).puts (by decide)).puts (by decide)).lived (by rfl)).latched s⟩

theorem profileLock_refused (h : s.Inv) (v : Word) (hl : s.bit TXP_CFG_LOCK = true) (he : s.en txpPage = true) : Completes (.profileLock v) s fun t =>
    t.reg TXP_CFG = s.reg TXP_CFG ∧ t.dev.radio.profLatch = s.dev.radio.profLatch ∧
      t.bit (fltBit txpPage fltState) = true ∧ t.bit (fltBit txpPage fltWign) = true ∧ s.Within (onlyRegs (evRegs txpPage)) t := by
  have hn := setFltAt_noted (s := s) txpPage fltWign TXP_CFG
  have hlock : ((setFltAt txpPage fltWign TXP_CFG).run s).bit TXP_CFG_LOCK = true := by
    rw [State.bit, State.fld, hn.reg (by decide), ← State.fld, ← State.bit, hl]
  refine completes_run rfl ?_
  rw [he, if_pos rfl, (total_setFltAt _ _ _).run_bind, profileLock, run_getS, hlock, if_pos rfl]
  refine ⟨?_, by simp, ?_, ?_, ?_⟩
  · rw [latchEdges_reg, setFlt_reg (by decide), hn.reg (by decide)]
  · rw [latchEdges_bit, setFlt_bit_set (Fld.full_of_settable (by decide))]
  · rw [latchEdges_bit, setFlt_bit_apart (by decide) (by decide), setFltAt_bit_set h (by decide) (by decide)]
  · rw [State.within_latch_iff, State.within_setFlt_iff fun a ha => decide_eq_true ha]
    exact hn.within

/-! ### The test carrier starts (R518) -/

/-- A check that went well, noted (R63). -/
def State.okNoted (s : State) (i : Nat) : State :=
  (((s.put TXP_STAT_STATUS stOk).put TXP_STAT_INDEX i).put TXP_STAT_CODE (s.appliedCode i)).put TXP_STAT_CLAMPED
    (b2n (decide (s.appliedCode i < s.tableCode i)))

theorem txNote_ok_bind (i : Nat) (k : Unit → M Unit) : (txNote stOk i >>= k).run s = (k ()).run (s.okNoted i) := by
  rw [txNote]
  simp [stOk, stRegPower, stRegTxtime, stLate, State.okNoted]

/-- The carrier's check has gone well, and the airtime is charged. -/
def State.carrierNoted (s : State) (i : Nat) : State :=
  (dutyCharge (s.txMax * 1000)).run (((s.put TXP_TEST_INDEX i)).okNoted i)

/-- The carrier's registers and the radio's state, TX_ACTIVE and the queue aside. -/
def State.carrierUp (s : State) (i : Nat) : State :=
  ((((s.carrierNoted i).put TXP_TEST_CW 1).live fun d => { d with radio := { d.radio with back := radSyn, fem := s.femOf radTx } }).put
    RCTL_STAT_STATE radTx).put RCTL_STAT_TARGET radTx

/-- The job of a carrier. -/
def carrierJob (s : State) (i : Nat) : TxJob := { kind := .carrier, stage := .onAir, pwr := i, air := s.txMax * 1000, ts := s.dev.time.link }

theorem dutyCharge_run (a : Nat) : (dutyCharge a).run s = (s.live fun d => { d with duty := { d.duty with
    residue := (s.dev.duty.residue + a) % 1000, buckets := Sparse.upd 0 d.duty.buckets d.duty.cur (· + (s.dev.duty.residue + a) / 1000) } }).counted
      statsPage (0x20 + 0x0F / 4) (0x0F % 4) (min (2 ^ 32 - 1) (s.ctr statsPage (0x20 + 0x0F / 4) (0x0F % 4) + (s.dev.duty.residue + a) / 1000)) := by
  rw [dutyCharge, run_getS, run_modDuty_bind, statN, run_countN, State.ctr_live rfl]

theorem carrierNoted_dev (i : Nat) : (s.carrierNoted i).dev = { s.dev with duty := (s.carrierNoted i).dev.duty, ctr := (s.carrierNoted i).dev.ctr } := by
  rw [State.carrierNoted, dutyCharge_run, State.counted_dev, State.live_dev, State.okNoted]
  simp only [State.dev_put]

theorem carrierNoted_reg (i : Nat) {a : Nat} (h : a ≠ TXP_STAT) : (s.carrierNoted i).reg a = (s.put TXP_TEST_INDEX i).reg a := by
  rw [State.carrierNoted, dutyCharge_run, State.counted_reg, State.live_reg, State.okNoted, State.reg_put_other _ h, State.reg_put_other _ h,
    State.reg_put_other _ h, State.reg_put_other _ h]

theorem carrierNoted_within {F : Foot} (i : Nat) (h : F.regs TXP_STAT = true) (h' : F.regs TXP_TEST = true) : s.Within F (s.carrierNoted i) := by
  rw [State.carrierNoted, dutyCharge_run, State.within_counted_iff, State.within_live_iff rfl, State.okNoted, State.within_put_iff (by exact h),
    State.within_put_iff (by exact h), State.within_put_iff (by exact h), State.within_put_iff (by exact h), State.within_put_iff (by exact h')]
  exact s.within_refl _

theorem total_dutyCharge (a : Nat) : (dutyCharge a).Total :=
  total_bind total_getS fun _ => total_bind (total_act _) fun _ => total_bind total_getS fun _ => total_act _

theorem carrierUp_bit {f : Fld} (i : Nat) (h1 : TXP_TEST_CW.apart f = true) (h2 : RCTL_STAT_STATE.apart f = true)
    (h3 : RCTL_STAT_TARGET.apart f = true) (h4 : f.addr ≠ TXP_STAT) (h5 : TXP_TEST_INDEX.apart f = true) : (s.carrierUp i).bit f = s.bit f := by
  rw [State.carrierUp, State.bit_apart _ h3, State.bit_apart _ h2, State.live_bit, State.bit_apart _ h1, State.bit, State.fld,
    carrierNoted_reg _ h4, ← State.fld, ← State.bit, State.bit_apart _ h5]

theorem carrierUp_cw (i : Nat) : (s.carrierUp i).bit TXP_TEST_CW = true := by
  rw [State.carrierUp, State.bit_apart _ (by decide), State.bit_apart _ (by decide), State.live_bit, State.bit_self _ (by decide)]
  rfl

theorem carrierUp_index (i : Nat) : (s.carrierUp i).fld TXP_TEST_INDEX = i % 2 ^ 6 := by
  rw [State.carrierUp, State.fld_apart _ (by decide), State.fld_apart _ (by decide), State.live_fld, State.fld_apart _ (by decide), State.fld,
    carrierNoted_reg _ (by decide), ← State.fld, State.fld_self _ (by decide)]
  rfl

theorem carrierUp_radio (i : Nat) : (s.carrierUp i).fld RCTL_STAT_STATE = 4 := by
  rw [State.carrierUp, State.fld_apart _ (by decide), State.fld_self _ (by decide)]
  rfl

theorem carrierUp_tx (i : Nat) : (s.carrierUp i).dev.tx = s.dev.tx := by
  rw [State.carrierUp, State.dev_put, State.dev_put, State.live_dev, State.dev_put, carrierNoted_dev]

theorem carrierUp_within (i : Nat) :
    s.Within (onlyRegs ([TXP_TEST, TXP_STAT, RCTL_STAT, LINK_STAT] ++ evRegs txpPage)) (s.carrierUp i) := by
  rw [State.carrierUp, State.within_put_iff (by decide), State.within_put_iff (by decide), State.within_live_iff rfl, State.within_put_iff (by decide)]
  exact carrierNoted_within _ (by decide) (by decide)

theorem carrierStart_run {i : Nat} (ho : s.bit RCTL_STAT_OWNER = false) (hr : s.radio = 2) (hb : s.bit RCTL_STAT_BUSY = false)
    (hx : s.bit RCTL_STAT_TXACT = false) (hc : s.txCheck false (s.carrier2 0 0) 0 (s.txMax * 1000) i = 0) :
    (carrierStart i).run s = (s.carrierUp i).txRaised.jobAdded (carrierJob s i) := by
  have hact : (s.carrierUp i).bit RCTL_STAT_TXACT = false := by
    rw [carrierUp_bit i (by decide) (by decide) (by decide) (by decide) (by decide), hx]
  rw [carrierStart, run_getS, if_neg (by simp [ho, hr, State.radioIdle, hb, radSyn]), run_setFld_bind]
  simp only [hc]
  rw [txNote_ok_bind, if_pos trivial, (total_dutyCharge _).run_bind, ← State.carrierNoted, run_setFld_bind, run_modRadio_bind, run_setFld_bind,
    run_setFld_bind, ← State.carrierUp, run_setTxActive_raise_bind hact, run_addJob_bind, run_pure, carrierJob]

theorem carrierStart_word (i : BitVec 6) :
    bitOf (BitVec.ofNat 32 (i.toNat * 256 + 1)).toNat 0 = true ∧ bitsGet (BitVec.ofNat 32 (i.toNat * 256 + 1)) 13 8 = i.toNat := by
  have hi := i.isLt
  have hv : (BitVec.ofNat 32 (i.toNat * 256 + 1)).toNat = i.toNat * 256 + 1 := by
    rw [BitVec.toNat_ofNat]; omega
  refine ⟨?_, ?_⟩
  · rw [hv, bitOf, Nat.testBit_zero, decide_eq_true_eq]; omega
  · rw [bitsGet, hv, Nat.shiftRight_eq_div_pow]; omega

theorem testCarrierStart_starts {i : BitVec 6} (hq : s.Quiet) (hcw : s.bit TXP_TEST_CW = false) (ho : s.bit RCTL_STAT_OWNER = false)
    (hr : s.radio = 2) (hb : s.bit RCTL_STAT_BUSY = false) (hc : s.txCheck false (s.carrier2 0 0) 0 (s.txMax * 1000) i.toNat = 0) :
    Completes (.testCarrierStart i) s fun t =>
      t.bit TXP_TEST_CW = true ∧ t.fld TXP_TEST_INDEX = i.toNat ∧ t.radio = 4 ∧ t.bit RCTL_STAT_TXACT = true ∧ t.dev.tx.jobs.length = 1 ∧
        s.Within (onlyRegs ([TXP_TEST, TXP_STAT, RCTL_STAT, LINK_STAT] ++ evRegs txpPage)) t := by
  obtain ⟨hgo, hidx⟩ := carrierStart_word i
  have hi : i.toNat % 2 ^ 6 = i.toNat := Nat.mod_eq_of_lt i.isLt
  refine completes_run rfl ?_
  rw [testWrite, run_getS, hgo, hcw, hidx, Bool.not_true, if_neg (by decide), Bool.not_false, if_pos rfl, carrierStart_run ho hr hb hq.txact hc]
  refine ⟨?_, ?_, ?_, ?_, ?_, ?_⟩
  · rw [latchEdges_bit, jobAdded_bit _ (by decide), txRaised_bit (by decide) (by decide), carrierUp_cw]
  · rw [latchEdges_fld, jobAdded_fld _ (by decide), txRaised_fld (by decide) (by decide), carrierUp_index, hi]
  · rw [State.radio, latchEdges_fld, jobAdded_fld _ (by decide), txRaised_fld (by decide) (by decide), carrierUp_radio]
  · rw [latchEdges_bit, jobAdded_bit _ (by decide), txRaised_txact]
  · rw [latchEdges_tx, jobAdded_jobs, txRaised_tx, carrierUp_tx, hq.jobs]
    rfl
  · rw [State.within_latch_iff, within_jobAdded_iff (by decide), within_txRaised_iff (by decide)]
    exact carrierUp_within _

theorem testCarrierStart_refused {i : BitVec 6} (hcw : s.bit TXP_TEST_CW = false) (h : s.bit RCTL_STAT_OWNER = true ∨ s.radio ≠ 2) :
    Completes (.testCarrierStart i) s fun t =>
      t.bit (fltBit txpPage fltState) = true ∧ t.bit TXP_TEST_CW = false ∧ s.Within (onlyRegs (evRegs txpPage)) t := by
  obtain ⟨hgo, hidx⟩ := carrierStart_word i
  have hno : (s.bit RCTL_STAT_OWNER || s.radio != radSyn || !s.radioIdle) = true := by
    rcases h with h | h
    · rw [h, Bool.true_or, Bool.true_or]
    · rw [bne_iff_ne.mpr h, Bool.or_true, Bool.true_or]
  refine completes_run rfl ?_
  rw [testWrite, run_getS, hgo, hcw, hidx, Bool.not_true, if_neg (by decide), Bool.not_false, if_pos rfl, carrierStart, run_getS, if_pos hno]
  refine ⟨?_, ?_, ?_⟩
  · rw [latchEdges_bit, setFlt_bit_set (Fld.full_of_settable (by decide))]
  · rw [latchEdges_bit, setFlt_bit (by decide), hcw]
  · rw [State.within_latch_iff, State.within_setFlt_iff fun a ha => decide_eq_true ha]
    exact s.within_refl _

/-! ### The test carrier ends (R518) -/

theorem txFallen_bit : s.txFallen.bit RCTL_STAT_TXACT = false := by
  rw [State.txFallen]
  split
  · rw [emit_bit (by decide), State.bit_self _ (by decide)]; rfl
  next h => rw [State.live_bit]; exact Bool.eq_false_iff.mpr h

theorem txFallen_jobs : s.txFallen.dev.tx.jobs = s.dev.tx.jobs := by
  rw [State.txFallen]
  split
  · rw [emit_dev, State.dev_put, State.live_dev]
  · rw [State.live_dev]

theorem txFallen_radio : s.txFallen.dev.radio = s.dev.radio := by
  rw [State.txFallen]
  split
  · rw [emit_dev, State.dev_put, State.live_dev]
  · rw [State.live_dev]

theorem within_txFallen_iff (h : ∀ a ∈ RCTL_STAT :: evRegs txpPage, F.regs a = true) : s.Within F t.txFallen ↔ s.Within F t := by
  rw [State.txFallen]
  split
  · rw [State.within_emit_iff fun a ha => h a (List.mem_cons_of_mem _ ha), State.within_put_iff (h _ List.mem_cons_self), State.within_live_iff rfl]
  · rw [State.within_live_iff rfl]

theorem onAir_sole {j : TxJob} (h : s.dev.tx.jobs = [j]) (ha : j.stage = .onAir) : s.onAir = some j := by
  rw [State.onAir, State.jobs, h, List.find?_cons_of_pos (by simp [ha])]

theorem cutAir_carrier_bind {j : TxJob} (h : s.dev.tx.jobs = [j]) (hk : j.kind = .carrier) (ha : j.stage = .onAir) (st : Nat) (k : Bool → M Unit) :
    (cutAir st >>= k).run s = (k true).run ((s.txFallen.put TXP_TEST_CW 0).requeued []) := by
  rw [cutAir, run_assoc, run_getS, onAir_sole h ha]
  simp only [run_assoc]
  rw [run_setTxActive_fall_bind, if_pos hk, run_assoc, run_setFld_bind, run_assoc, run_dropJob_bind, State.dev_put, txFallen_jobs, h,
    List.filter_cons_of_neg (by simp), List.filter_nil, run_pure_bind]

/-- The state in which the carrier's end leaves the radio: on its way back (R518). -/
def State.carrierDown (s : State) : State :=
  ((((s.txFallen.put TXP_TEST_CW 0).requeued []).put RCTL_STAT_BUSY 1).put RCTL_STAT_TARGET s.dev.radio.back).live fun d =>
    { d with radio := { d.radio with walk := some { next := s.dev.radio.back, goal := s.dev.radio.back, req := none } } }

theorem carrierStop_run {j : TxJob} (h : s.dev.tx.jobs = [j]) (hk : j.kind = .carrier) (ha : j.stage = .onAir) (hb : s.dev.radio.bowDead = false) :
    carrierStop.run s = s.carrierDown := by
  have hrad : ((s.txFallen.put TXP_TEST_CW 0).requeued []).dev.radio = s.dev.radio := by
    rw [requeued_dev, State.dev_put, txFallen_radio]
  rw [carrierStop, run_getS, State.jobs, h, List.find?_cons_of_pos (by simp [hk])]
  simp only []
  rw [cutAir_carrier_bind h hk ha, txReturn, run_getS, hrad, hb, if_neg (by decide), setBusy, run_assoc, run_setFld_bind, run_setFld_bind, run_modRadio]
  rfl

theorem testCarrier_ends {j : TxJob} (h : s.dev.tx.jobs = [j]) (hk : j.kind = .carrier) (ha : j.stage = .onAir) (hb : s.dev.radio.bowDead = false)
    {x : Instr} (hx : x ∈ [Instr.testCarrierStop, .testCarrierTimeout]) : Completes x s fun t =>
      t.dev.tx.jobs = [] ∧ t.bit TXP_TEST_CW = false ∧ t.bit RCTL_STAT_TXACT = false ∧ t.bit RCTL_STAT_BUSY = true ∧
        t.fld RCTL_STAT_TARGET = s.dev.radio.back % 8 ∧ s.Within (onlyRegs ([TXP_TEST, RCTL_STAT, LINK_STAT] ++ evRegs txpPage)) t := by
  have hx : exec x s = cmd s carrierStop := by
    rcases List.mem_pair.mp hx with rfl | rfl <;> rfl
  refine completes_run hx ?_
  rw [carrierStop_run h hk ha hb, State.carrierDown]
  refine ⟨?_, ?_, ?_, ?_, ?_, ?_⟩
  · rw [latchEdges_tx, State.live_dev, State.dev_put, State.dev_put, requeued_dev]
  · rw [latchEdges_bit, State.live_bit, State.bit_apart _ (by decide), State.bit_apart _ (by decide), requeued_bit _ (by decide), State.bit_self _ (by decide)]
    rfl
  · rw [latchEdges_bit, State.live_bit, State.bit_apart _ (by decide), State.bit_apart _ (by decide), requeued_bit _ (by decide),
      State.bit_apart _ (by decide), txFallen_bit]
  · rw [latchEdges_bit, State.live_bit, State.bit_apart _ (by decide), State.bit_self _ (by decide)]
    rfl
  · rw [latchEdges_fld, State.live_fld, State.fld_self _ (by decide)]
    rfl
  · rw [State.within_latch_iff, State.within_live_iff rfl, State.within_put_iff (by decide), State.within_put_iff (by decide),
      within_requeued_iff (by decide), State.within_put_iff (by decide), within_txFallen_iff (by decide)]
    exact s.within_refl _

/-- Settles O23: the minute of the duty meter, the profile lock and the test carrier's start, refusal and end. -/
theorem transmitLimits : Obligations.TransmitLimits := fun _ h =>
  ⟨fun hl _ => dutyMinute_turns hl, profileLock_locks h, profileLock_refused h,
    fun _ hq hcw => ⟨testCarrierStart_starts hq hcw, testCarrierStart_refused hcw⟩,
    fun _ hj hk ha hb _ hx => testCarrier_ends hj hk ha hb hx⟩

end Sys2Proof.Machine
end

section
/-!
A cluster reset of the front end's page while a lane holds the gain (R17, R86): RXFE_GAIN.FROZEN shows the freeze again, for
LANES_STAT of another page still stands.
-/
namespace Sys2Proof.Machine
open Sys2Proof.Reg

variable {s : State}

theorem run_act_bind (p : Prim) (f : Unit → M Unit) : (act p >>= f).run s = (f ()).run (Prim.run p s) := (rfl)

/-- What a command completes with holds of the state its act leaves. -/
theorem Completes.of_run {c : Instr} {m : M Unit} {P : State → Prop} (h : exec c s = cmd s m) (g : Completes c s P) : P (latchEdges s (m.run s)) := by
  obtain ⟨t, ht, hP⟩ := g
  rw [h] at ht
  exact Host.Outcome.next.inj ht ▸ hP

/-- The state after reset, with the gain frozen by a lane. -/
def gainFrozen : State := State.reset.put LANES_STAT_FROZEN 1

theorem gainFrozen_inv : gainFrozen.Inv := by
  have h := resetInv.run (setFld LANES_STAT_FROZEN 1)
  rwa [run_setFld] at h

/-- A cluster reset of the front end's page stops nothing first. -/
theorem clusterStop_rxfe_bind (k : Unit → M Unit) : (clusterStop rxfePage >>= k).run s = (k ()).run s := by
  simp [clusterStop, rxfePage, sysPage, intcPage, dmaPage, flashcPage, xspiPage, hostpPage, uartPage, gpioPage, adcPage, stimPage, ltimPage, daliPage,
    lumPage, tallyPage, statsPage, otpcPage, linkPage, lanesPage, ciphPage, riggerPage, govPage, sampPage, rctlPage, synthPage, txpPage]

/-- It shows the freeze of the gain. -/
theorem clusterShow_rxfe_bind (k : Unit → M Unit) :
    (clusterShow rxfePage >>= k).run s = (k ()).run (s.put RXFE_GAIN_FROZEN (s.fld LANES_STAT_FROZEN)) := by
  simp [clusterShow, rxfePage, linkPage, lumPage, govPage, pwrPage, rctlPage, sampPage, filtPage]

theorem clusterKeeps_rxfe : s.clusterKeeps rxfePage = [wholeReg RXFE_CAL] := (rfl)

/-- A cluster reset of the front end's page shows the lane's freeze of the gain in the register it has just cleared. -/
theorem clusterReset_rxfe_frozen (h : s.fld LANES_STAT_FROZEN = 1) : ((clusterReset rxfePage).run s).bit RXFE_GAIN_FROZEN = true := by
  rw [clusterReset, run_getS, clusterStop_rxfe_bind, modRigger, run_modDev_bind, run_getS, clusterKeeps_rxfe, clearPages, run_assoc, run_act_bind,
    run_modDev_bind, State.keep, List.map_cons, List.map_nil, putBack, forAll_cons, forAll_nil, run_assoc, run_setFld_bind, run_nop_bind,
    clusterShow_rxfe_bind, if_neg (by decide), run_modDev, State.live_bit, State.bit_self _ (by decide),
    State.fld, State.reg_put_other _ (show LANES_STAT_FROZEN.addr ≠ RXFE_CAL by decide), State.live_reg, State.reg_cleared, if_neg (by decide),
    State.live_reg, ← State.fld, h]
  rfl

/-- Refutes O19: with the gain frozen by a lane, a cluster reset of the front end's page leaves RXFE_GAIN.FROZEN at 1, which no
record names among the registers that do not return to their reset values. -/
theorem not_systemControl : ¬ Obligations.SystemControl := by
  intro h
  have hfrozen : gainFrozen.fld LANES_STAT_FROZEN = 1 := State.fld_self _ (by decide)
  have hrun : exec (.clusterReset rxfePage) gainFrozen = cmd gainFrozen (clusterReset rxfePage) := (rfl)
  have hcleared := (((h.1 gainFrozen gainFrozen_inv).1 rxfePage (by decide) (by decide)).of_run hrun).1 RXFE_GAIN (by decide) (by decide)
  have hset := clusterReset_rxfe_frozen hfrozen
  rw [latchEdges_reg] at hcleared
  rw [State.bit, State.fld, hcleared] at hset
  exact absurd hset (by decide)

end Sys2Proof.Machine
end

section
/-!
The external flash controller's sequences (R295) and the polling of a device's status (R296).
-/
namespace Sys2Proof.Machine
open Sys2Proof.Reg

variable {s t : State}

/-! ### The sequence buffer -/

/-- The octet k of the sequence buffer. -/
def seqLane (k : Nat) : Fld := ⟨XSPI_SEQBUF (k / 4), 8 * (k % 4) + 7, 8 * (k % 4)⟩

theorem mask_seqbuf : ∀ w : Fin 64, maskOf (XSPI_SEQBUF w) = 0xFFFFFFFF := by decide

theorem lane_of_word : ∀ r : Fin 4, bitsGet (BitVec.ofNat 32 0xFFFFFFFF) (8 * r.val + 7) (8 * r.val) = 2 ^ (8 * r.val + 7 - 8 * r.val + 1) - 1 := by decide

theorem seqLane_full {k : Nat} (h : k < 256) : (seqLane k).Full := by
  have hm : maskOf (XSPI_SEQBUF (k / 4)) = 0xFFFFFFFF := mask_seqbuf ⟨k / 4, by omega⟩
  refine ⟨by simp only [seqLane]; omega, by simp only [seqLane]; omega, ?_⟩
  simp only [seqLane, hm]
  exact lane_of_word ⟨k % 4, by omega⟩

theorem seqLane_apart {j k : Nat} (h : j ≠ k) (ha : (seqLane j).addr = (seqLane k).addr) :
    (seqLane j).hi < (seqLane k).lo ∨ (seqLane k).hi < (seqLane j).lo := by
  simp only [seqLane, XSPI_SEQBUF] at ha ⊢
  omega

theorem seqbufPut_cons (k : Nat) (b : Byte) (l : List Byte) (s : State) :
    (seqbufPut k (b :: l)).run s = (seqbufPut (k + 1) l).run (s.put (seqLane k) b.toNat) := by
  rw [seqbufPut, run_rd, run_wr_bind]
  rfl

theorem seqbufPut_octets {k : Nat} {l : List Byte} (h : k + l.length ≤ 256) {i : Nat} (hi : i < 256) (s : State) :
    ((seqbufPut k l).run s).fld (seqLane i) = if k ≤ i ∧ i < k + l.length then (l.getD (i - k) 0).toNat else s.fld (seqLane i) := by
  induction l generalizing k s with
  | nil => rw [if_neg (by simp)]; rfl
  | cons b l ih =>
    simp only [List.length_cons] at h ⊢
    rw [seqbufPut_cons, ih (by omega)]
    obtain hk | hk | hk := Nat.lt_trichotomy i k
    · rw [if_neg (by omega), if_neg (by omega), State.fld_put_apart (seqLane_full (by omega)) (seqLane_full hi) _ (seqLane_apart (by omega))]
    · subst hk
      rw [if_neg (by omega), if_pos (by omega), State.fld_put_same (seqLane_full hi), Nat.sub_self, List.getD_cons_zero]
      simp only [seqLane, Nat.add_sub_cancel_left]
      exact Nat.mod_eq_of_lt b.isLt
    · rw [State.fld_put_apart (seqLane_full (by omega)) (seqLane_full hi) _ (seqLane_apart (by omega)), show i - k = i - (k + 1) + 1 by omega,
        List.getD_cons_succ]
      simp only [show k + 1 ≤ i ∧ i < k + 1 + l.length ↔ k ≤ i ∧ i < k + (l.length + 1) by omega]

theorem seqbufPut_other {k : Nat} {l : List Byte} (h : k + l.length ≤ 256) {F : Foot}
    (hF : ∀ a, XSPI_SEQBUF 0 ≤ a → a < XSPI_SEQBUF 64 → F.regs a = true) (s : State) :
    s.Within F ((seqbufPut k l).run s) ∧ ((seqbufPut k l).run s).dev = s.dev := by
  induction l generalizing k s with
  | nil => exact ⟨s.within_refl _, rfl⟩
  | cons b l ih =>
    simp only [List.length_cons] at h
    rw [seqbufPut_cons]
    obtain ⟨hw, hd⟩ := ih (k := k + 1) (by omega) (s.put (seqLane k) b.toNat)
    refine ⟨(State.within_put _ (hF _ ?_ ?_)).trans hw, hd.trans (State.dev_put ..)⟩
    · simp only [seqLane, XSPI_SEQBUF]; omega
    · simp only [seqLane, XSPI_SEQBUF]; omega

theorem total_seqbufPut (k : Nat) (l : List Byte) : (seqbufPut k l).Total := by
  induction l generalizing k with
  | nil => exact total_pure _
  | cons b l ih => exact total_bind (total_rd _) fun _ => total_bind (total_wr _ _) fun _ => ih _

@[simp] theorem run_modXspi (f : Xspi → Xspi) (s : State) : (modXspi f).run s = s.live fun d => { d with xspi := f d.xspi } := (rfl)
@[simp] theorem run_modXspi_bind (f : Xspi → Xspi) (k : Unit → M Unit) (s : State) :
    (modXspi f >>= k).run s = (k ()).run (s.live fun d => { d with xspi := f d.xspi }) := (rfl)

/-! ### Sequences -/

theorem xspiSequence_busy {v : Word} (hv : v.toNat.testBit 31 = true) (hb : s.bit XSPI_STAT_BUSY = true) : Completes (.xspiSequence v) s fun t =>
    t.dev.xseq = s.dev.xseq ∧ t.bit (fltBit xspiPage fltState) = true ∧ s.Within (onlyRegs (XSPI_SEQCMD :: evRegs xspiPage)) t := by
  refine completes_run rfl ?_
  rw [xspiWrite, run_getS, run_wr_bind, bitOf, hv, if_pos rfl, hb, if_pos rfl]
  refine ⟨?_, ?_, ?_⟩
  · rw [latchEdges_xseq, setFlt_dev, State.dev_putReg]
  · rw [latchEdges_bit, setFlt_bit_set (Fld.full_of_settable (by decide))]
  · rw [State.within_latch_iff, State.within_setFlt_iff fun a ha => decide_eq_true (List.mem_cons_of_mem _ ha), State.within_putReg_iff (by decide)]
    exact s.within_refl _

theorem xspiSequence_starts (h : s.Inv) {v : Word} (hv : v.toNat.testBit 31 = true) (hb : s.bit XSPI_STAT_BUSY = false) (he : s.en xspiPage = true) :
    Completes (.xspiSequence v) s fun t =>
      t.dev.xseq = some { cs := bitsGet v 30 30, dir := bitsGet v 29 28, len := s.fld XSPI_SEQLEN_LEN, wip := v.toNat.testBit 26 } ∧
        s.Sets t [(XSPI_STAT_BUSY, 1)] [XSPI_SEQCMD] := by
  refine completes_run rfl ?_
  rw [xspiWrite, run_getS, run_wr_bind, bitOf, hv, if_pos rfl, hb, if_neg (by decide), he, if_pos rfl, run_setFld_bind, run_modDev]
  exact ⟨by rw [latchEdges_xseq, State.live_dev]; rfl, ((((did_refl h).wr_noted (.inr (List.mem_singleton.mpr rfl))).puts (by decide)).lived (by rfl)).latched s⟩

/-- What a sequence's end leaves of its state (R295). -/
def State.seqEnded (s : State) (j : XspiSeq) (st : Nat) : State :=
  ((s.live fun d => { d with xspi := { d.xspi with lines := [], pollCs := if j.wip then j.cs else d.xspi.pollCs } }).put XSPI_STAT_BUSY 0).put
    XSPI_STAT_STATUS st

/-- The state after a sequence that read: its octets in the buffer, its state, and the polling it asks for. -/
def State.seqRead (s : State) (j : XspiSeq) (rx : List Byte) : State :=
  let u := ((seqbufPut 0 (sliceOf rx 0 j.len)).run (s.live fun d => { d with xseq := none })).seqEnded j stOk
  if j.wip then u.put XSPI_STAT_POLLING 1 else u

theorem xspiDone_refused {j : XspiSeq} (hj : s.dev.xseq = some j) (h : 256 < j.len ∨ j.dir = 3) (rx : List Byte) :
    (xspiDone rx []).run s = (s.live fun d => { d with xseq := none }).seqEnded j (if 256 < j.len then 4 else 3) := by
  have hst : (if 256 < j.len then stLength else if j.dir = 3 then stParam else stOk) = if 256 < j.len then 4 else 3 := by
    by_cases hl : 256 < j.len
    · rw [if_pos hl, if_pos hl]
    · rw [if_neg hl, if_neg hl, if_pos (h.resolve_left hl)]
  have hno : (if 256 < j.len then 4 else 3) ≠ stOk := by split <;> decide
  rw [xspiDone, run_getS, hj]
  simp only [hst]
  rw [run_modDev_bind, if_neg hno, run_modXspi_bind, run_setFld_bind, run_setFld_bind, if_neg (fun hc => hno hc.1), run_pure]
  rfl

theorem xspiDone_read {j : XspiSeq} (hj : s.dev.xseq = some j) (hl : j.len ≤ 256) (hd : j.dir = 1) (rx : List Byte) :
    (xspiDone rx []).run s = s.seqRead j rx := by
  have hst : (if 256 < j.len then stLength else if j.dir = 3 then stParam else stOk) = stOk := by
    rw [if_neg (by omega), if_neg (by omega)]
  rw [xspiDone, run_getS, hj]
  simp only [hst]
  rw [run_modDev_bind, if_pos trivial, if_pos hd, (total_seqbufPut _ _).run_bind, devicePut, forAll_nil, run_nop_bind, run_modXspi_bind,
    run_setFld_bind, run_setFld_bind, run_ite, run_setFld, run_pure, State.seqRead]
  simp only [true_and]
  rfl

theorem xspiSequenceDone_refused (h : s.Inv) {j : XspiSeq} (hj : s.dev.xseq = some j) (hno : 256 < j.len ∨ j.dir = 3) (rx : List Byte) :
    Completes (.xspiSequenceDone rx []) s fun t =>
      t.dev.xseq = none ∧ s.Sets t [(XSPI_STAT_BUSY, 0), (XSPI_STAT_STATUS, if 256 < j.len then 4 else 3)] := by
  refine completes_run rfl ?_
  rw [xspiDone_refused hj hno, State.seqEnded]
  exact ⟨by rw [latchEdges_xseq, State.dev_put, State.dev_put, State.live_dev, State.live_dev], (((((did_refl h).lived (by rfl)).lived (by rfl)).puts (by decide)).puts (by decide)).latched s⟩

theorem seqEnded_xspi (j : XspiSeq) (st : Nat) : (s.seqEnded j st).dev.xseq = s.dev.xseq ∧ (s.seqEnded j st).dev.xspi.lines = [] ∧
    (s.seqEnded j st).bit XSPI_STAT_BUSY = false ∧ (s.seqEnded j st).fld XSPI_STAT_STATUS = st % 2 ^ 8 := by
  refine ⟨?_, ?_, ?_, ?_⟩ <;> rw [State.seqEnded]
  · rw [State.dev_put, State.dev_put, State.live_dev]
  · rw [State.dev_put, State.dev_put, State.live_dev]
  · rw [State.bit_apart _ (by decide), State.bit_self _ (by decide)]; rfl
  · rw [State.fld_self _ (by decide)]; rfl

theorem seqEnded_lane {i : Nat} (j : XspiSeq) (st : Nat) : (s.seqEnded j st).fld (seqLane i) = s.fld (seqLane i) := by
  have ha : (seqLane i).addr ≠ XSPI_STAT := by simp only [seqLane, XSPI_SEQBUF, XSPI_STAT]; omega
  rw [State.seqEnded, State.fld_put_other _ ha, State.fld_put_other _ ha, State.live_fld]

/-- The footprint of a sequence that reads. -/
def seqFoot : Foot := { regs := fun a => decide (a = XSPI_STAT) || decide (XSPI_SEQBUF 0 ≤ a ∧ a < XSPI_SEQBUF 64) }

theorem within_seqEnded_iff {j : XspiSeq} {st : Nat} : s.Within seqFoot (t.seqEnded j st) ↔ s.Within seqFoot t := by
  rw [State.seqEnded, State.within_put_iff (by rfl), State.within_put_iff (by rfl), State.within_live_iff rfl]

theorem xspiSequenceDone_read {j : XspiSeq} {rx : List Byte} (hj : s.dev.xseq = some j) (hl : j.len ≤ 256) (hd : j.dir = 1) (hr : rx.length = j.len) :
    Completes (.xspiSequenceDone rx []) s fun t =>
      (∀ i < j.len, bitsGet (t.reg (XSPI_SEQBUF (i / 4))) (8 * (i % 4) + 7) (8 * (i % 4)) = (rx.getD i 0).toNat) ∧
        t.dev.xseq = none ∧ t.dev.xspi.lines = [] ∧ t.bit XSPI_STAT_BUSY = false ∧ t.fld XSPI_STAT_STATUS = 0 ∧
        (j.wip = true → t.bit XSPI_STAT_POLLING = true) ∧ s.Within seqFoot t := by
  have hlen : 0 + (sliceOf rx 0 j.len).length ≤ 256 := by rw [sliceOf, List.length_map, List.length_range]; omega
  obtain ⟨hw, hdev⟩ := seqbufPut_other hlen (F := seqFoot) (fun a h1 h2 => by simp [seqFoot, h1, h2]) (s.live fun d => { d with xseq := none })
  obtain ⟨hx, hlines, hb, hst⟩ := seqEnded_xspi (s := (seqbufPut 0 (sliceOf rx 0 j.len)).run (s.live fun d => { d with xseq := none })) j stOk
  have hlane : ∀ i < j.len, (((seqbufPut 0 (sliceOf rx 0 j.len)).run (s.live fun d => { d with xseq := none })).seqEnded j stOk).fld (seqLane i) =
      (rx.getD i 0).toNat := fun i hi => by
    have hget : (sliceOf rx 0 j.len).getD i 0 = rx.getD i 0 := by simp [sliceOf, hi]
    rw [seqEnded_lane, seqbufPut_octets hlen (by omega), if_pos (by rw [sliceOf, List.length_map, List.length_range]; omega), Nat.sub_zero, hget]
  refine completes_run rfl ?_
  rw [xspiDone_read hj hl hd, State.seqRead]
  have hW := (s.within_live_iff (F := seqFoot) (f := fun d => { d with xseq := none }) rfl).mpr (s.within_refl _) |>.trans hw
  cases hwip : j.wip
  · simp only [if_neg Bool.false_ne_true]
    refine ⟨fun i hi => ?_, ?_, ?_, ?_, ?_, fun hc => by simp at hc, ?_⟩
    · rw [latchEdges_reg]; exact hlane i hi
    · rw [latchEdges_xseq, hx, hdev, State.live_dev]
    · rw [latchEdges_xspi, hlines]
    · rw [latchEdges_bit, hb]
    · rw [latchEdges_fld, hst]; rfl
    · rwa [State.within_latch_iff, within_seqEnded_iff]
  · simp only [if_true]
    refine ⟨fun i hi => ?_, ?_, ?_, ?_, ?_, fun _ => ?_, ?_⟩
    · have ha : (seqLane i).addr ≠ XSPI_STAT := by simp only [seqLane, XSPI_SEQBUF, XSPI_STAT]; omega
      rw [latchEdges_reg, State.reg_put_other _ ha]; exact hlane i hi
    · rw [latchEdges_xseq, State.dev_put, hx, hdev, State.live_dev]
    · rw [latchEdges_xspi, State.dev_put, hlines]
    · rw [latchEdges_bit, State.bit_apart _ (by decide), hb]
    · rw [latchEdges_fld, State.fld_apart _ (by decide), hst]; rfl
    · rw [latchEdges_bit, State.bit_self _ (by decide)]; rfl
    · rwa [State.within_latch_iff, State.within_put_iff (by rfl), within_seqEnded_iff]

/-! ### Polling (R296) -/

theorem statusPoll_ends (h : s.Inv) {b : Byte} (hp : s.bit XSPI_STAT_POLLING = true) (hb : b.toNat % 2 = 0) :
    Completes (.xspiStatusPoll b) s fun t => s.Sets t [(XSPI_STAT_POLLING, 0)] := by
  have hlow : bitOf b.toNat 0 = false := by rw [bitOf, Nat.testBit_zero, decide_eq_false_iff_not]; omega
  refine completes_run rfl ?_
  rw [hp, hlow, if_pos ⟨rfl, rfl⟩, run_setFld]
  exact ((did_refl h).puts (by decide)).latched s

theorem statusPoll_waits {b : Byte} (h : s.bit XSPI_STAT_POLLING = false ∨ b.toNat % 2 = 1) : Completes (.xspiStatusPoll b) s fun t => s.Within {} t := by
  have hno : ¬ (s.bit XSPI_STAT_POLLING = true ∧ (!bitOf b.toNat 0) = true) := by
    rintro ⟨hp, hb⟩
    rw [Bool.not_eq_true', bitOf, Nat.testBit_zero, decide_eq_false_iff_not] at hb
    rcases h with h | h
    · rw [h] at hp; exact absurd hp (by decide)
    · exact hb h
  refine completes_run rfl ?_
  rw [if_neg hno, run_pure, State.within_latch_iff]
  exact s.within_refl _

end Sys2Proof.Machine
end

section
/-!
The DMA channels: how they start, refuse and stop (R297, R298), and an element moved within main SRAM (R299, R300).
-/
namespace Sys2Proof.Machine
open Sys2Proof.Reg

variable {s t : State} {F : Foot} {l : List (Fld × Nat)} {noted : List Nat} {k m : Nat}

/-! ### A channel's fields -/

/-- A channel's enable. -/
abbrev dmaEn (k : Nat) : Fld := ⟨DMA_EN, k, k⟩

theorem dmaEn_settable (hk : k < 8) : (dmaEn k).settable = true := (by decide : ∀ k : Fin 8, (dmaEn k).settable = true) ⟨k, hk⟩
theorem dmaLeft_settable (hk : k < 8) : (DMA_STAT_LEFT k).settable = true := (by decide : ∀ k : Fin 8, (DMA_STAT_LEFT k).settable = true) ⟨k, hk⟩
theorem dmaStatus_settable (hk : k < 8) : (DMA_STAT_STATUS k).settable = true :=
  (by decide : ∀ k : Fin 8, (DMA_STAT_STATUS k).settable = true) ⟨k, hk⟩
theorem dmaEn_apart (hk : k < 8) (hm : m < 8) (h : m ≠ k) : (dmaEn k).apart (dmaEn m) = true := by
  simp only [Fld.apart, dmaEn_settable hk, dmaEn_settable hm, Bool.true_and, Bool.or_eq_true, decide_eq_true_eq]
  omega
theorem dmaStat_ne : DMA_EN ≠ DMA_STAT k := by rw [DMA_EN, DMA_STAT]; omega
theorem dmaEvent_unlatched (hk : k < 8) : latchOf (0x50 + k) = none := (by decide : ∀ k : Fin 8, latchOf (0x50 + k.val) = none) ⟨k, hk⟩

theorem dma_set_same (d : List (Nat × DmaCh)) (c : DmaCh) : Sparse.val {} (Sparse.upd {} d k fun _ => c) k = c := by
  rw [Sparse.upd, Sparse.val, Sparse.get_set_same]

/-! ### The end of a transfer (R298) -/

/-- The state in which the transfer of channel k has ended with a status. -/
def State.dmaEnded (s : State) (k st : Nat) : State :=
  ((emit dmaPage (0x50 + k)).run (((s.put (dmaEn k) 0).put (DMA_STAT_STATUS k) st).live fun d =>
    { d with dma := Sparse.upd {} d.dma k fun _ => {} })).live fun d => { d with intc := { d.intc with edge := bitSet d.intc.edge (17 + k) } }

theorem dmaComplete_run (k st : Nat) (s : State) : (dmaComplete k st).run s = s.dmaEnded k st := by
  rw [dmaComplete, run_setFld_bind, run_setFld_bind, modDma, run_modDev_bind, run_emit_bind, pulse, run_modIntc, State.dmaEnded]

theorem total_dmaComplete (k st : Nat) : (dmaComplete k st).Total :=
  total_bind (total_setFld _ _) fun _ => total_bind (total_setFld _ _) fun _ => total_bind (total_act _) fun _ =>
    total_bind (total_emit _ _) fun _ => total_act _

theorem dmaEnded_dma (k st : Nat) : (s.dmaEnded k st).dma k = {} := by
  rw [State.dma, State.dmaEnded, State.live_dev, emit_dev, State.live_dev]
  simp only [dma_set_same]

theorem dmaEnded_events (hk : k < 8) (st : Nat) : (s.dmaEnded k st).events = s.events ++ [0x50 + k] := by
  rw [State.dmaEnded, State.live_events, emit_events (dmaEvent_unlatched hk), State.live_events, State.events_put, State.events_put]

theorem dmaEnded_edge (k st : Nat) : (s.dmaEnded k st).dev.intc.edge.testBit (17 + k) = true := by
  rw [State.dmaEnded, State.live_dev]
  exact bitSet_testBit_self _ _

theorem dmaEnded_on (hk : k < 8) (hm : m < 8) (h : m ≠ k) (st : Nat) : (s.dmaEnded k st).dmaOn m = s.dmaOn m := by
  rw [State.dmaOn, State.dmaEnded, State.live_bit, emit_bit (show DMA_EN ∉ evRegs dmaPage by decide), State.live_bit,
    State.bit_put_other _ dmaStat_ne, State.bit_apart _ (dmaEn_apart hk hm h), State.dmaOn]

theorem State.Did.dmaEnded (h : s.Did t l noted F) (hk : k < 8) (hn : ∀ a ∈ perfRegs dmaPage, F.regs a = true ∨ a ∈ noted) (st : Nat) :
    s.Did (t.dmaEnded k st) (l ++ [(dmaEn k, 0)] ++ [(DMA_STAT_STATUS k, st)]) noted F :=
  (((((h.put (dmaEn_settable hk) 0).put (dmaStatus_settable hk) st).lived (by rfl)).emit (dmaEvent_unlatched hk) hn).lived (by rfl))

/-! ### The enable rises or falls (R15, R297) -/

/-- The state in which the enable of channel k has risen. -/
def State.dmaRisen (s : State) (k : Nat) : State :=
  let u := (s.put (dmaEn k) 1).put (DMA_STAT_LEFT k) (s.fld (DMA_CNT_CNT k))
  if !s.dmaOk k then u.dmaEnded k 3
  else if s.fld (DMA_CNT_CNT k) = 0 then u.dmaEnded k 0
  else u.live fun d => { d with dma := Sparse.upd {} d.dma k fun _ => { active := s.dmaTrig k == 0, idx := 0 } }

theorem dmaRise_run (k : Nat) (s : State) : (dmaRise k).run s = s.dmaRisen k := by
  rw [dmaRise, run_getS, run_setFld_bind, run_setFld_bind, run_ite, run_ite, dmaComplete_run, dmaComplete_run, modDma, run_modDev]
  rfl

theorem total_dmaRise (k : Nat) : (dmaRise k).Total :=
  total_bind total_getS fun _ => total_bind (total_setFld _ _) fun _ => total_bind (total_setFld _ _) fun _ =>
    total_ite (total_dmaComplete _ _) (total_ite (total_dmaComplete _ _) (total_act _))

theorem dmaRisen_on (hk : k < 8) (hm : m < 8) (h : m ≠ k) : (s.dmaRisen k).dmaOn m = s.dmaOn m := by
  have hu : ∀ v, ((s.put (dmaEn k) 1).put (DMA_STAT_LEFT k) v).dmaOn m = s.dmaOn m := fun v => by
    rw [State.dmaOn, State.bit_put_other _ dmaStat_ne, State.bit_apart _ (dmaEn_apart hk hm h), State.dmaOn]
  rw [State.dmaRisen]
  split
  · rw [dmaEnded_on hk hm h, hu]
  · split
    · rw [dmaEnded_on hk hm h, hu]
    · rw [State.dmaOn, State.live_bit, ← State.dmaOn, hu]

/-- The state in which the enable of channel k has fallen. -/
def State.dmaFallen (s : State) (k : Nat) : State :=
  (s.put (dmaEn k) 0).live fun d => { d with dma := Sparse.upd {} d.dma k fun _ => {} }

/-- What a write of DMA_EN does to channel n. -/
def State.dmaTurned (v : Nat) (s : State) (n : Nat) : State :=
  if bitOf v n && !s.dmaOn n then s.dmaRisen n else if !bitOf v n && s.dmaOn n then s.dmaFallen n else s

theorem dmaEnable_run (v : Nat) (hp : s.dev.parity = []) : (dmaEnable v).run s = (List.range 8).foldl (State.dmaTurned v) s := by
  have hheld : ∀ n, (bitOf v n && !s.dmaOn n && s.parityIn (DMA_SRC n) (DMA_CFG n)) = false := fun n => by
    rw [State.parityIn, hp, List.any_nil, Bool.and_false]
  have hany : (List.range 8).any (fun _ => false) = false := by decide
  rw [dmaEnable, run_getS]
  simp only [hheld, hany, Bool.false_eq_true, if_false, Bool.not_false, List.filter_true]
  rw [forAll_run]
  · refine congrArg (fun f => (List.range 8).foldl f s) (funext fun t => funext fun n => ?_)
    rw [run_getS, run_ite, run_ite, dmaRise_run, run_setFld_bind, modDma, run_modDev]
    rfl
  · exact fun n => total_bind total_getS fun _ => total_ite (total_dmaRise _)
      (total_ite (total_bind (total_setFld _ _) fun _ => total_act _) (total_pure _))

theorem dmaTurned_same {v n : Nat} (h : bitOf v n = s.dmaOn n) : s.dmaTurned v n = s := by
  rw [State.dmaTurned, h]
  cases s.dmaOn n <;> rfl

/-- A write of DMA_EN that changes one channel's bit turns that channel alone. -/
theorem dmaEnable_one {v : Nat} (hp : s.dev.parity = []) (hk : k < 8) (hv : ∀ m < 8, m ≠ k → bitOf v m = s.dmaOn m)
    (hon : ∀ m < 8, m ≠ k → (s.dmaTurned v k).dmaOn m = s.dmaOn m) : (dmaEnable v).run s = s.dmaTurned v k := by
  rw [dmaEnable_run v hp]
  refine foldl_one List.nodup_range (List.mem_range.mpr hk) (fun m hm hmk => dmaTurned_same (hv m (List.mem_range.mp hm) hmk)) fun m hm hmk => ?_
  exact dmaTurned_same (by rw [hon m (List.mem_range.mp hm) hmk, hv m (List.mem_range.mp hm) hmk])

/-! ### DMA_ENABLE (R297, R300) -/

theorem bitOf_low {v n : Nat} (hn : n < 8) : bitOf (v % 256) n = v.testBit n := by
  rw [bitOf, show 256 = 2 ^ 8 by rfl, Nat.testBit_mod_two_pow, decide_eq_true hn, Bool.true_and]

theorem one_bit_word (hk : k < 32) (i : Nat) : (BitVec.ofNat 32 (2 ^ k)).toNat.testBit i = decide (i = k) := by
  rw [BitVec.toNat_ofNat, Nat.mod_eq_of_lt (Nat.pow_lt_pow_right (by decide) hk), Nat.testBit_two_pow]
  simp [eq_comm]

/-- The bits of DMA_EN with one raised. -/
theorem bitOf_raised {n : Nat} (hk : k < 8) (hn : n < 8) :
    bitOf ((s.reg DMA_EN ||| BitVec.ofNat 32 (2 ^ k)).toNat % 256) n = (s.dmaOn n || decide (n = k)) := by
  rw [bitOf_low hn, BitVec.toNat_or, Nat.testBit_or, one_bit_word (by omega), State.dmaOn, State.bit_testBit]

/-- The bits of DMA_EN with one cleared. -/
theorem bitOf_cleared {n : Nat} (hk : k < 8) (hn : n < 8) :
    bitOf ((s.reg DMA_EN &&& ~~~(BitVec.ofNat 32 (2 ^ k))).toNat % 256) n = (s.dmaOn n && !decide (n = k)) := by
  rw [bitOf_low hn, BitVec.testBit_toNat, BitVec.getLsbD_and, BitVec.getLsbD_not, ← BitVec.testBit_toNat, ← BitVec.testBit_toNat, one_bit_word (by omega),
    decide_eq_true (show n < 32 by omega), Bool.true_and, State.dmaOn, State.bit_testBit]

/-- The bus's clock gate of the page opened. -/
abbrev gateOpened (s : State) (p : Nat) : State := s.live fun d => { d with gates := if p ∈ d.gates then d.gates else p :: d.gates }

/-- A channel's enable raised. -/
theorem dmaEnable_raised (hp : s.dev.parity = []) (hk : k < 8) (he : s.bit (dmaEn k) = false) {v : Word}
    (hv : v = s.reg DMA_EN ||| BitVec.ofNat 32 (2 ^ k)) :
    (do openGate dmaPage; dmaEnable (v.toNat % 256) : M Unit).run s = (gateOpened s dmaPage).dmaRisen k := by
  have hon : (gateOpened s dmaPage).dmaOn = s.dmaOn := funext fun n => by rw [State.dmaOn, State.live_bit, State.dmaOn]
  have hoff : s.dmaOn k = false := he
  have hturn : (gateOpened s dmaPage).dmaTurned (v.toNat % 256) k = (gateOpened s dmaPage).dmaRisen k := by
    rw [State.dmaTurned, hv, bitOf_raised hk hk, hon, hoff, decide_eq_true rfl, if_pos (by decide)]
  rw [openGate, run_modDev_bind, dmaEnable_one (s := gateOpened s dmaPage) (k := k) hp hk, hturn]
  · intro m hm hmk
    rw [hv, bitOf_raised hk hm, hon, decide_eq_false hmk, Bool.or_false]
  · intro m hm hmk
    rw [hturn, dmaRisen_on hk hm hmk]

theorem dmaEnable_cleared (hp : s.dev.parity = []) (hk : k < 8) (he : s.bit (dmaEn k) = true) {v : Word}
    (hv : v = s.reg DMA_EN &&& ~~~(BitVec.ofNat 32 (2 ^ k))) :
    (do openGate dmaPage; dmaEnable (v.toNat % 256) : M Unit).run s = (gateOpened s dmaPage).dmaFallen k := by
  have hon : (gateOpened s dmaPage).dmaOn = s.dmaOn := funext fun n => by rw [State.dmaOn, State.live_bit, State.dmaOn]
  have hup : s.dmaOn k = true := he
  have hturn : (gateOpened s dmaPage).dmaTurned (v.toNat % 256) k = (gateOpened s dmaPage).dmaFallen k := by
    rw [State.dmaTurned, hv, bitOf_cleared hk hk, hon, hup, decide_eq_true rfl, if_neg (by decide), if_pos (by decide)]
  rw [openGate, run_modDev_bind, dmaEnable_one (s := gateOpened s dmaPage) (k := k) hp hk, hturn]
  · intro m hm hmk
    rw [hv, bitOf_cleared hk hm, hon, decide_eq_false hmk, Bool.not_false, Bool.and_true]
  · intro m hm hmk
    rw [hturn, State.dmaFallen, State.dmaOn, State.live_bit, State.bit_apart _ (dmaEn_apart hk hm hmk), State.dmaOn]

theorem dmaEnable_starts (h : s.Inv) (hp : s.dev.parity = []) (hk : k < 8) {v : Word} (hv : v = s.reg DMA_EN ||| BitVec.ofNat 32 (2 ^ k))
    (he : s.bit (dmaEn k) = false) (hok : s.dmaOk k = true) (hc : s.fld (DMA_CNT_CNT k) ≠ 0) : Completes (.dmaEnable v) s fun t =>
      t.dma k = { active := s.fld (DMA_CFG_TRIG k) % 3 == 0, idx := 0 } ∧
        s.Sets t [(dmaEn k, 1), (DMA_STAT_LEFT k, s.fld (DMA_CNT_CNT k))] := by
  refine completes_run rfl ?_
  rw [dmaEnable_raised hp hk he hv, State.dmaRisen]
  have hok' : (gateOpened s dmaPage).dmaOk k = true := hok
  rw [hok', State.live_fld]
  simp only [Bool.not_true, Bool.false_eq_true, if_false, hc]
  refine ⟨?_, ((((((did_refl h).lived (by rfl))).put (dmaEn_settable hk) 1).put (dmaLeft_settable hk) _).lived (by rfl)).latched s⟩
  rw [State.dma, latchEdges_dma, State.live_dev]
  simp only [dma_set_same]
  rfl

theorem dmaEnable_refused (h : s.Inv) (hp : s.dev.parity = []) (hk : k < 8) {v : Word} (hv : v = s.reg DMA_EN ||| BitVec.ofNat 32 (2 ^ k))
    (he : s.bit (dmaEn k) = false) (hok : s.dmaOk k = false) : Completes (.dmaEnable v) s fun t =>
      t.events = s.events ++ [0x50 + k] ∧ t.dev.intc.edge.testBit (17 + k) = true ∧
        s.Sets t [(DMA_STAT_LEFT k, s.fld (DMA_CNT_CNT k)), (DMA_STAT_STATUS k, 3)] (perfOf dmaPage) := by
  refine completes_run rfl ?_
  rw [dmaEnable_raised hp hk he hv, State.dmaRisen]
  have hok' : (gateOpened s dmaPage).dmaOk k = false := hok
  rw [hok', State.live_fld]
  simp only [Bool.not_false, if_true]
  refine ⟨?_, latchEdges_edge (dmaEnded_edge _ _), ?_⟩
  · rw [latchEdges_events, dmaEnded_events hk, State.events_put, State.events_put, State.live_events]
  · have hzero : bitsGet (s.reg DMA_EN) k k = 0 := by
      have hlt : s.fld (dmaEn k) < 2 ^ 1 := State.fld_lt (by simp)
      rw [State.bit, beq_eq_false_iff_ne] at he
      show s.fld (dmaEn k) = 0
      omega
    refine ((((((did_refl h).lived (by rfl))).put (dmaEn_settable hk) 1).put (dmaLeft_settable hk) _).dmaEnded hk (fun _ => .inr) 3).of_after (fun a => ?_) |>.latched s
    by_cases ha : a = DMA_EN
    · subst ha
      have hback : bitsPut (bitsPut (s.reg DMA_EN) k k 1) k k 0 = s.reg DMA_EN := by
        rw [bitsPut_over _ (Nat.le_refl k)]
        exact hzero ▸ bitsPut_self _ _ _ (Nat.le_refl k)
      simp [State.after, dmaStat_ne.symm, hback]
    · simp [State.after, Ne.symm ha]

theorem dmaEnable_stops (h : s.Inv) (hp : s.dev.parity = []) (hk : k < 8) {v : Word} (hv : v = s.reg DMA_EN &&& ~~~(BitVec.ofNat 32 (2 ^ k)))
    (he : s.bit (dmaEn k) = true) : Completes (.dmaEnable v) s fun t => t.dma k = {} ∧ s.Sets t [(dmaEn k, 0)] := by
  refine completes_run rfl ?_
  rw [dmaEnable_cleared hp hk he hv, State.dmaFallen]
  refine ⟨?_, ((((did_refl h).lived (by rfl)).put (dmaEn_settable hk) 0).lived (by rfl)).latched s⟩
  rw [State.dma, latchEdges_dma, State.live_dev]
  simp only [dma_set_same]

/-! ### An element within main SRAM (R299, R300) -/

theorem perf_events (p e n : Nat) (s : State) : ((perf p e n).run s).events = s.events := by
  rw [perf, forAll_run fun _ => total_bind (total_rd _) fun _ => total_ite (total_bind (total_rd _) fun _ => total_wr _ _) (total_pure _)]
  refine foldl_keeps (P := fun t : State => t.events = s.events) (fun t k ht => ?_) _ rfl
  rw [run_rd, run_ite, run_rd]
  split <;> exact ht

theorem State.putMem_events (s : State) (a : Nat) (l : List Byte) : (s.putMem a l).events = s.events := by
  induction l generalizing s a with
  | nil => rfl
  | cons b l ih => exact ih _ _

theorem State.Inv.putMem (h : s.Inv) (a : Nat) (l : List Byte) : (s.putMem a l).Inv := by
  have hi := h.run (putBytes a l)
  rwa [show (putBytes a l).run s = s.putMem a l from (gives_putBytes (Q := fun _ t => t = s.putMem a l) rfl).run (P := fun t => t = s.putMem a l)] at hi

theorem State.Did.putMem (h : s.Did t l noted F) {a : Nat} {b : List Byte} (hF : ∀ i < b.length, F.mem (a + i) = true) :
    s.Did (t.putMem a b) l noted F :=
  ⟨h.inv.putMem _ _, h.sets.step (State.putMem_within hF)⟩

/-- A check of main SRAM that is free of errors changes nothing (R272). -/
theorem gives_sramCheck_clean (h1 : s.dev.eccOne = []) (h2 : s.dev.eccBad = []) (a : Nat) : (sramCheck a).Gives s fun b t => b = true ∧ t = s := by
  refine gives_bind (gives_getS ?_)
  rw [h1, h2, if_neg List.not_mem_nil, if_neg List.not_mem_nil]
  exact gives_pure ⟨rfl, rfl⟩

theorem gives_busRead_clean (h1 : s.dev.eccOne = []) (h2 : s.dev.eccBad = []) {a : Nat} (hlo : 0x20000000 ≤ a) (hhi : a < 0x20080000) (m : Master)
    (z : Size) : (busRead m z a).Gives s fun e t => e = .ok (wordOf (s.bytes a (accLen z))) ∧ t = s := by
  refine gives_bind (gives_getS ?_)
  simp only [s.rangeOf_sram hlo hhi]
  refine gives_bind ((gives_sramCheck_clean h1 h2 a).mono ?_)
  rintro _ t ⟨rfl, rfl⟩
  exact gives_pure ⟨rfl, rfl⟩

theorem gives_busWrite_clean (h1 : s.dev.eccOne = []) (h2 : s.dev.eccBad = []) {a : Nat} (hlo : 0x20000000 ≤ a) (hhi : a < 0x20080000) (m : Master)
    (z : Size) (v : Word) : (busWrite m z a v).Gives s fun e t => e = .ok 0 ∧ t = s.putMem a (leBytes (accLen z) v.toNat) := by
  refine gives_bind (gives_getS ?_)
  simp only [s.rangeOf_sram hlo hhi]
  split
  · have hdev : ({ s.dev with eccOne := s.dev.eccOne.filter fun x => !(x == a), eccBad := s.dev.eccBad.filter fun x => !(x == a) } : Dev) = s.dev := by
      rw [h1, h2]
      exact congrArg₂ (fun x y => { s.dev with eccOne := x, eccBad := y }) h1.symm h2.symm
    refine gives_bind (gives_act (gives_bind (gives_putBytes (gives_pure ⟨rfl, ?_⟩))))
    refine congrArg (fun u : State => u.putMem a (leBytes (accLen z) v.toNat)) ?_
    exact congrArg (fun d => { s with dev := d }) hdev
  · refine gives_bind ((gives_sramCheck_clean h1 h2 a).mono ?_)
    rintro _ t ⟨rfl, rfl⟩
    exact gives_bind (gives_putBytes (gives_pure ⟨rfl, rfl⟩))

/-- Channel k is to move the element i, of z octets, within main SRAM. -/
structure State.DmaMoves (s : State) (k i z src dst : Nat) : Prop where
  lt : k < 8
  on : s.bit (dmaEn k) = true
  active : (s.dma k).active = true
  lowest : ∀ m < k, s.bit (dmaEn m) = false
  idx : (s.dma k).idx = i
  size : s.fld (DMA_CFG_SIZE k) < 3
  octets : z = 2 ^ s.fld (DMA_CFG_SIZE k)
  sfix : s.bit (DMA_CFG_SFIX k) = false
  dfix : s.bit (DMA_CFG_DFIX k) = false
  srcAt : (s.reg (DMA_SRC k)).toNat = src
  dstAt : (s.reg (DMA_DST k)).toNat = dst
  srcLo : 0x20000000 ≤ src + i * z
  srcHi : src + i * z < 0x20080000
  dstLo : 0x20000000 ≤ dst + i * z
  dstHi : dst + i * z < 0x20080000
  one : s.dev.eccOne = []
  bad : s.dev.eccBad = []

/-- The state in which the element has been written and counted. -/
def State.moved (s : State) (k i z src dst : Nat) : State := (perf dmaPage (0x40 + k) 1).run (s.putMem (dst + i * z) (s.bytes (src + i * z) z))

section
variable {i z src dst : Nat} (d : s.DmaMoves k i z src dst)
include d

theorem State.DmaMoves.width : accLen (s.dmaWidth k) = z := by
  have hs := d.size
  rw [d.octets, State.dmaWidth]
  generalize s.fld (DMA_CFG_SIZE k) = n at hs ⊢
  match n, hs with
  | 0, _ | 1, _ | 2, _ => rfl

theorem State.DmaMoves.le_four : z ≤ 4 := by
  rw [d.octets]
  exact Nat.pow_le_pow_right (n := 2) (by decide) (Nat.le_of_lt_succ d.size)

theorem State.DmaMoves.found : (List.range 8).find? (fun m => s.dmaOn m && (s.dma m).active) = some k := by
  rw [List.find?_range_eq_some]
  refine ⟨by rw [State.dmaOn, d.on, d.active]; rfl, List.mem_range.mpr d.lt, fun m hm => ?_⟩
  rw [State.dmaOn, d.lowest m hm]
  rfl

theorem State.DmaMoves.stays_put : s.windowWaits (src + i * z) = false := by
  rw [State.windowWaits, s.rangeOf_sram d.srcLo d.srcHi]

/-- The element goes from source to destination; what follows is the channel's own. -/
theorem dmaElement_run : (dmaElement k false).run s =
    if s.fld (DMA_CNT_CNT k) ≤ i + 1 then ((s.moved k i z src dst).put (DMA_STAT_LEFT k) (s.fld (DMA_CNT_CNT k) - (i + 1))).dmaEnded k 0
    else ((s.moved k i z src dst).put (DMA_STAT_LEFT k) (s.fld (DMA_CNT_CNT k) - (i + 1))).live fun v =>
      { v with dma := Sparse.upd {} v.dma k fun _ => { active := s.dmaTrig k != 1, idx := i + 1 } } := by
  have hz : s.dmaSize k = z := d.octets.symm
  have hlen : (s.bytes (src + i * z) z).length = z := by simp [State.bytes]
  have hon : (s.moved k i z src dst).dmaOn k = true := by
    rw [State.moved, State.dmaOn, perf_bit (show DMA_EN ∉ perfRegs dmaPage by decide), State.bit, State.fld, State.putMem_reg, ← State.fld, ← State.bit, d.on]
  rw [dmaElement, run_getS, d.found, if_pos rfl]
  simp only [d.sfix, d.dfix, d.srcAt, d.dstAt, d.idx, hz, Bool.false_eq_true, if_false]
  rw [d.stays_put, if_neg (by decide), (gives_busRead_clean d.one d.bad d.srcLo d.srcHi _ _).run_bind_eq]
  simp only []
  rw [(gives_busWrite_clean d.one d.bad d.dstLo d.dstHi _ _ _).run_bind_eq]
  simp only []
  rw [d.width, leBytes_wordOf hlen d.le_four, run_perf_bind, ← State.moved, run_getS, hon, if_pos rfl, run_setFld_bind, run_ite, dmaComplete_run, modDma,
    run_modDev]

end

/-- An uncorrectable element ends the transfer, counted where its memory counts it (R272, R298). -/
theorem dmaElement_failed {i z src dst : Nat} (d : s.DmaMoves k i z src dst) : (dmaElement k true).run s =
    (s.counted statsPage (0x20 + 0x15 / 4) (0x15 % 4) (min (2 ^ 32 - 1) (s.ctr statsPage (0x20 + 0x15 / 4) (0x15 % 4) + 1))).dmaEnded k 0xFF := by
  have hz : s.dmaSize k = z := d.octets.symm
  rw [dmaElement, run_getS, d.found, if_pos rfl]
  simp only [d.sfix, d.dfix, d.srcAt, d.dstAt, d.idx, hz, Bool.false_eq_true, if_false]
  rw [d.stays_put, if_neg (by decide), if_pos trivial, countUncorr, run_assoc, run_assoc, run_getS, s.rangeOf_sram d.srcLo d.srcHi]
  simp only []
  rw [run_stat_bind, run_pure_bind, dmaComplete_run]
  rfl

theorem bytes_of_byte {u : State} (h : ∀ x, t.byte x = u.byte x) (a n : Nat) : t.bytes a n = u.bytes a n := by
  rw [State.bytes, State.bytes]
  exact List.map_congr_left fun x _ => h _

theorem State.byte_put (f : Fld) (v x : Nat) : (s.put f v).byte x = s.byte x := by rw [State.put, State.byte_reg]

theorem dmaEnded_byte (k st x : Nat) : (s.dmaEnded k st).byte x = s.byte x := by
  rw [State.dmaEnded, State.live_byte, emit_byte, State.live_byte, State.byte_put, State.byte_put]

theorem moved_bytes {i z src dst : Nat} : (s.moved k i z src dst).bytes (dst + i * z) z = s.bytes (src + i * z) z := by
  have hlen : (s.bytes (src + i * z) z).length = z := by simp [State.bytes]
  rw [State.moved, bytes_of_byte fun x => perf_byte _ _ _ _ x]
  exact (congrArg _ hlen.symm).trans (State.putMem_bytes _ _ _)

theorem Did_moved {i z src dst : Nat} (h : s.Inv) :
    s.Did (s.moved k i z src dst) [] (perfOf dmaPage) { mem := fun x => decide (dst + i * z ≤ x ∧ x < dst + i * z + z) } := by
  refine ((did_refl h).putMem fun j hj => ?_).perf fun _ => .inr
  rw [State.bytes, List.length_map, List.length_range] at hj
  exact decide_eq_true (by omega)

theorem dmaElement_moves {i z src dst : Nat} (h : s.Inv) (d : s.DmaMoves k i z src dst) :
    let F : Foot := { mem := fun x => decide (dst + i * z ≤ x ∧ x < dst + i * z + z) }
    let cnt := s.fld (DMA_CNT_CNT k)
    (i + 1 < cnt → Completes (.dmaElement ⟨k, d.lt⟩ false) s fun t =>
      t.bytes (dst + i * z) z = s.bytes (src + i * z) z ∧ t.dma k = { active := s.fld (DMA_CFG_TRIG k) % 3 != 1, idx := i + 1 } ∧
        s.Sets t [(DMA_STAT_LEFT k, cnt - (i + 1))] (perfOf dmaPage) F) ∧
    (i + 1 = cnt → Completes (.dmaElement ⟨k, d.lt⟩ false) s fun t =>
      t.bytes (dst + i * z) z = s.bytes (src + i * z) z ∧ t.dma k = {} ∧ t.events = s.events ++ [0x50 + k] ∧
        s.Sets t [(DMA_STAT_LEFT k, 0), (dmaEn k, 0), (DMA_STAT_STATUS k, 0)] (perfOf dmaPage) F) := by
  refine ⟨fun hc => completes_run rfl ?_, fun hc => completes_run rfl ?_⟩
  · rw [dmaElement_run d, if_neg (by omega)]
    refine ⟨?_, ?_, (((Did_moved h).put (dmaLeft_settable d.lt) _).lived (by rfl)).latched s⟩
    · rw [← moved_bytes (s := s) (k := k) (dst := dst)]
      exact bytes_of_byte (fun x => by rw [latchEdges_byte, State.live_byte, State.byte_put]) _ _
    · rw [State.dma, latchEdges_dma, State.live_dev]
      simp only [dma_set_same]
      rfl
  · rw [dmaElement_run d, if_pos (by omega), hc, Nat.sub_self]
    refine ⟨?_, ?_, ?_, (((Did_moved h).put (dmaLeft_settable d.lt) 0).dmaEnded d.lt (fun _ => .inr) 0).latched s⟩
    · rw [← moved_bytes (s := s) (k := k) (dst := dst)]
      exact bytes_of_byte (fun x => by rw [latchEdges_byte, dmaEnded_byte, State.byte_put]) _ _
    · rw [State.dma, latchEdges_dma, ← State.dma, dmaEnded_dma]
    · rw [latchEdges_events, dmaEnded_events d.lt, State.events_put, State.moved, perf_events, State.putMem_events]

theorem dmaElement_ends {i z src dst : Nat} (h : s.Inv) (d : s.DmaMoves k i z src dst) : Completes (.dmaElement ⟨k, d.lt⟩ true) s fun t =>
    t.dma k = {} ∧ (∀ a, t.byte a = s.byte a) ∧ s.Sets t [(dmaEn k, 0), (DMA_STAT_STATUS k, 0xFF)] (perfOf dmaPage) := by
  refine completes_run rfl ?_
  rw [dmaElement_failed d]
  refine ⟨?_, fun a => ?_, (((did_refl h).counted _ _ _ _).dmaEnded d.lt (fun _ => .inr) 0xFF).latched s⟩
  · rw [State.dma, latchEdges_dma, ← State.dma, dmaEnded_dma]
  · rw [latchEdges_byte, dmaEnded_byte]
    rfl

/-- Settles O41: the XSPI sequencer, the polling of a device, and the DMA channels. -/
theorem storageTransfers : Obligations.StorageTransfers := by
  refine ⟨fun s h => ⟨fun v hv => ⟨xspiSequence_busy hv, xspiSequence_starts h hv⟩, fun j rx hj =>
    ⟨xspiSequenceDone_read hj, fun hno => xspiSequenceDone_refused h hj hno rx⟩, fun b => statusPoll_ends h, fun b => statusPoll_waits⟩, ?_⟩
  intro n s h hp
  refine ⟨fun v hv he => ⟨dmaEnable_starts h hp n.isLt hv he, dmaEnable_refused h hp n.isLt hv he⟩, fun v hv he => dmaEnable_stops h hp n.isLt hv he, ?_⟩
  intro hon hact hlow hsize hsf hdf hi _ _ hsl hsh hdl hdh h1 h2
  have hstep : ((s.dma n.val).idx + 1) * 2 ^ s.fld (DMA_CFG_SIZE n.val) ≤ 2 ^ s.fld (DMA_CFG_SIZE n.val) * s.fld (DMA_CNT_CNT n.val) := by
    rw [Nat.mul_comm]
    exact Nat.mul_le_mul_left _ hi
  rw [Nat.succ_mul] at hstep
  have hpos := Nat.two_pow_pos (s.fld (DMA_CFG_SIZE n.val))
  have d : s.DmaMoves n.val (s.dma n.val).idx (2 ^ s.fld (DMA_CFG_SIZE n.val)) (s.reg (DMA_SRC n.val)).toNat (s.reg (DMA_DST n.val)).toNat :=
    ⟨n.isLt, hon, hact, hlow, rfl, hsize, rfl, hsf, hdf, rfl, rfl, by omega, by omega, by omega, by omega, h1, h2⟩
  exact ⟨(dmaElement_moves h d).1, (dmaElement_moves h d).2, dmaElement_ends h d⟩

end Sys2Proof.Machine
end

section
/-!
The energy governor: the power path (R355, R356), charging and its ceiling (R364), bleeds (R365–R367), relay pulses (R369, R488).
-/
namespace Sys2Proof.Machine
open Sys2Proof.Reg

variable {s t : State} {F : Foot} {l : List (Fld × Nat)} {noted : List Nat}

/-! ### IDLE and CHARGE (R364) -/

/-- The governor's state as R364's conditions leave it. -/
def State.settled (s : State) : Nat :=
  if s.fld GOV_STAT_STATE ≤ 1 then
    (if s.bit GOV_CHG_EN && s.bit PWR_PATH_VINOK && decide (s.dev.supply.vstore < s.fld GOV_VCEIL_VCEIL) then 1 else 0)
  else s.fld GOV_STAT_STATE

theorem govSettle_run : govSettle.run s = if s.fld GOV_STAT_STATE ≤ 1 then s.put GOV_STAT_STATE s.settled else s := by
  rw [govSettle, run_getS, run_ite, run_ite, setGovState, setGovState, run_setFld, run_setFld, run_pure, State.settled]
  by_cases h : s.fld GOV_STAT_STATE ≤ 1
  · rw [if_pos (by simp only [govIdle, govCharge]; omega), if_pos h, if_pos h]
    by_cases hc : s.bit GOV_CHG_EN = true ∧ s.bit PWR_PATH_VINOK = true ∧ s.dev.supply.vstore < s.fld GOV_VCEIL_VCEIL
    · rw [if_pos hc, if_pos (by simpa [and_assoc] using hc)]
    · rw [if_neg hc, if_neg (by simpa [and_assoc] using hc)]
  · rw [if_neg (by simp only [govIdle, govCharge]; omega), if_neg h]

@[simp] theorem govSettle_dev : (govSettle.run s).dev = s.dev := by
  rw [govSettle_run]
  split
  · rw [State.dev_put]
  · rfl

@[simp] theorem govSettle_events : (govSettle.run s).events = s.events := by
  rw [govSettle_run]
  split
  · rw [State.events_put]
  · rfl

theorem total_govSettle : govSettle.Total :=
  total_bind total_getS fun _ => total_ite (total_ite (total_setFld _ _) (total_setFld _ _)) (total_pure _)

/-- A field may be listed with the value it has. -/
theorem State.Did.has (h : s.Did t l noted F) {f : Fld} {v : Nat} (hv : t.fld f = v) (hs : f.settable = true) :
    s.Did t (l ++ [(f, v)]) noted F := by
  subst hv
  have hput : bitsPut (t.reg f.addr) f.hi f.lo (t.fld f) = t.reg f.addr := bitsPut_self _ _ _ (Fld.full_of_settable hs).1
  refine ⟨h.inv, ⟨fun x hn hF => ?_, h.sets.rest⟩⟩
  rw [← (h.put hs (t.fld f)).sets.regs x hn hF]
  by_cases hx : x = f.addr
  · subst hx
    rw [State.put, hput, State.reg_written, h.inv.reg_and_mask (Fld.reset_of_settable hs)]
  · exact (State.reg_put_other _ hx).symm

theorem State.Did.settle (h : s.Did t l noted F) {v : Nat} (hv : t.settled = v) : s.Did (govSettle.run t) (l ++ [(GOV_STAT_STATE, v)]) noted F := by
  subst hv
  rw [govSettle_run]
  split
  · exact (h.puts (by decide))
  next hn => exact h.has (by rw [State.settled, if_neg hn]) (by decide)

/-- HELD left: IDLE, or CHARGE where R364 has it. -/
theorem State.Did.leaveHeld (h : s.Did t l noted F) {v : Nat}
    (hv : (if t.bit GOV_CHG_EN && t.bit PWR_PATH_VINOK && decide (t.dev.supply.vstore < t.fld GOV_VCEIL_VCEIL) then 1 else 0) = v) :
    s.Did (leaveHeld.run t) (l ++ [(GOV_STAT_STATE, v)]) noted F := by
  have hs : (t.put GOV_STAT_STATE 0).settled = v := by
    rw [State.settled, State.fld_self _ (by decide), if_pos (by decide), State.bit_apart _ (by decide), State.bit_apart _ (by decide), State.dev_put,
      State.fld_put_other _ (by decide), hv]
  rw [Machine.leaveHeld, setGovState, run_setFld_bind]
  exact (((h.puts (by decide) (f := GOV_STAT_STATE) (v := 0)).settle hs).again (by decide))

theorem leaveHeld_dev : (leaveHeld.run s).dev = s.dev := by rw [leaveHeld, setGovState, run_setFld_bind, govSettle_dev, State.dev_put]
theorem leaveHeld_events : (leaveHeld.run s).events = s.events := by rw [leaveHeld, setGovState, run_setFld_bind, govSettle_events, State.events_put]

/-! ### The power path (R355, R356) -/

theorem vinLost_switches (h : s.Inv) (hv : s.bit PWR_PATH_VINOK = true) : Completes .vinLost s fun t =>
    t.dev.supply.vsys = (if s.dev.supply.storeReady then 3300 else 0) ∧ t.events = s.events ++ [0x07] ∧
      s.Sets t [(PWR_PATH_VINOK, 0), (GOV_STAT_VINOK, 0), (PWR_PATH_SRC, 1), (PWR_PATH_REGON, if s.dev.supply.storeReady then 1 else 0),
        (GOV_STAT_STATE, if s.fld GOV_STAT_STATE ≤ 1 then
          (if s.bit GOV_CHG_EN && false && decide (s.dev.supply.vstore < s.fld GOV_VCEIL_VCEIL) then 1 else 0) else s.fld GOV_STAT_STATE)] (perfOf pwrPage) := by
  refine completes_run rfl ?_
  rw [hv, if_pos rfl]
  simp only [run_modSupply_bind, run_setFld_bind, run_emit_bind, b2n]
  refine ⟨?_, ?_, ?_⟩
  · rw [latchEdges_supply, govSettle_dev, emit_dev, State.dev_put, State.dev_put, State.dev_put, State.dev_put, State.live_dev]
  · rw [latchEdges_events, govSettle_events, emit_events (by decide), State.events_put, State.events_put, State.events_put, State.events_put, State.live_events]
  · refine (((((((((((((did_refl h).lived (by rfl)).puts (by decide))).puts (by decide))).puts (by decide))).puts (by decide))).emits (by decide) (by exact fun _ => .inr))).settle ?_).latched s
    simp (disch := decide) only [State.settled, emit_fld, emit_bit, emit_dev, State.fld_apart, State.bit_apart, State.live_fld, State.live_bit, State.live_dev, State.dev_put, State.bit_self]
    rfl

theorem vinReturn_switches (h : s.Inv) (hv : s.bit PWR_PATH_VINOK = false) : Completes .vinReturn s fun t =>
    t.events = s.events ++ [0x08] ∧ t.dev.pwr.wake.testBit 12 = true ∧
      s.Sets t [(PWR_PATH_VINOK, 1), (GOV_STAT_VINOK, 1), (PWR_PATH_SRC, 0), (PWR_PATH_REGON, 0),
        (GOV_STAT_STATE, if s.fld GOV_STAT_STATE ≤ 1 then
          (if s.bit GOV_CHG_EN && true && decide (s.dev.supply.vstore < s.fld GOV_VCEIL_VCEIL) then 1 else 0) else s.fld GOV_STAT_STATE)]
        (perfOf pwrPage) := by
  refine completes_run rfl ?_
  rw [hv, Bool.not_false, if_pos rfl]
  simp only [run_modSupply_bind, run_setFld_bind, run_emit_bind, wakeSource, run_modPwr_bind]
  refine ⟨?_, ?_, ?_⟩
  · rw [latchEdges_events, govSettle_events, State.live_events, emit_events (by decide), State.events_put, State.events_put, State.events_put,
      State.events_put, State.live_events]
  · rw [latchEdges_pwr, govSettle_dev, State.live_dev]
    exact bitSet_testBit_self _ _
  · refine (((((((((((((((did_refl h).lived (by rfl)).puts (by decide))).puts (by decide))).puts (by decide))).puts (by decide))).emits (by decide) (by exact fun _ => .inr))).lived (by rfl))).settle ?_).latched s
    simp (disch := decide) only [State.settled, emit_fld, emit_bit, emit_dev, State.fld_apart, State.bit_apart, State.live_fld, State.live_bit, State.live_dev, State.dev_put, State.bit_self]
    rfl

theorem vinReturn_nothing (hv : s.bit PWR_PATH_VINOK = true) : Completes .vinReturn s fun t => s.Within {} t :=
  completes_run rfl (by rw [hv, if_neg (by decide), run_pure, State.within_latch_iff]; exact s.within_refl _)
theorem vinLost_nothing (hv : s.bit PWR_PATH_VINOK = false) : Completes .vinLost s fun t => s.Within {} t :=
  completes_run rfl (by rw [hv, if_neg (by decide), run_pure, State.within_latch_iff]; exact s.within_refl _)

theorem storeRegulator_starts (h : s.Inv) (hv : s.bit PWR_PATH_VINOK = false) : Completes .storeRegulatorStart s fun t =>
    t.dev.supply.vsys = 3300 ∧ s.Sets t [(PWR_PATH_REGON, 1), (PWR_PATH_SRC, 1)] := by
  refine completes_run rfl ?_
  rw [hv, Bool.not_false, if_pos rfl, run_modSupply_bind, run_setFld_bind, run_setFld]
  exact ⟨by rw [latchEdges_supply, State.dev_put, State.dev_put, State.live_dev], (((((did_refl h).lived (by rfl)).puts (by decide))).puts (by decide)).latched s⟩

theorem storeRegulator_stops (h : s.Inv) (hr : s.bit PWR_PATH_REGON = true) : Completes .storeRegulatorStop s fun t =>
    t.dev.supply.vsys = 0 ∧ t.dev.supply.storeReady = false ∧ s.Sets t [(PWR_PATH_REGON, 0)] := by
  refine completes_run rfl ?_
  rw [hr, run_modSupply_bind, if_pos rfl, run_setFld_bind, run_modSupply]
  refine ⟨?_, ?_, (((((did_refl h).lived (by rfl)).puts (by decide))).lived (by rfl)).latched s⟩
  · rw [latchEdges_supply, State.live_dev]
  · rw [latchEdges_supply, State.live_dev, State.dev_put, State.live_dev]

/-! ### Measuring and charging (R362, R364, R386, R387) -/

/-- The extremes that a measurement leaves. -/
def State.vminOf (s : State) (mv : Nat) : Nat := if s.dev.gov.measured then min s.dev.gov.vmin (min 0xFFFF mv) else min 0xFFFF mv
def State.vmaxOf (s : State) (mv : Nat) : Nat := if s.dev.gov.measured then max s.dev.gov.vmax (min 0xFFFF mv) else min 0xFFFF mv

/-- The state in which a measurement has been counted. -/
def State.measured (s : State) (mv : Nat) : State :=
  ((((((s.live fun d => { d with supply := { d.supply with vstore := mv, storeReady := d.supply.storeReady || decide (2200 ≤ mv) } }).put
    GOV_LEVEL_VSTORE (min 0xFFFF mv)).live fun d => { d with gov := { d.gov with measured := true, vmin := s.vminOf mv, vmax := s.vmaxOf mv } }).counted
      govPage 1 0 (s.vminOf mv)).counted govPage 1 1 (s.vmaxOf mv)).counted statsPage 0x26 0 (s.vminOf mv)).counted statsPage 0x26 1 (s.vmaxOf mv)

theorem measured_ctr (mv : Nat) : (s.measured mv).ctr govPage 1 0 = s.vminOf mv ∧ (s.measured mv).ctr govPage 1 1 = s.vmaxOf mv := by
  constructor
  · rw [State.measured, State.ctr_counted_other (by decide), State.ctr_counted_other (by decide), State.ctr_counted_other (by decide),
      State.ctr_counted_same]
  · rw [State.measured, State.ctr_counted_other (by decide), State.ctr_counted_other (by decide), State.ctr_counted_same]

theorem Did_measured (h : s.Inv) (mv : Nat) : s.Did (s.measured mv) [(GOV_LEVEL_VSTORE, min 0xFFFF mv)] :=
  (((((((((did_refl h).lived (by rfl)).puts (by decide))).lived (by rfl))).counted _ _ _ _).counted _ _ _ _).counted _ _ _ _).counted _ _ _ _

theorem measurement_counts (h : s.Inv) (mv : Nat) (hst : s.fld GOV_STAT_STATE ≠ 7) : Completes (.vstoreMeasurement mv) s fun t =>
    t.ctr govPage 1 0 = s.vminOf mv ∧ t.ctr govPage 1 1 = s.vmaxOf mv ∧
      s.Sets t [(GOV_LEVEL_VSTORE, min 0xFFFF mv), (GOV_STAT_STATE, if s.fld GOV_STAT_STATE ≤ 1 then
        (if s.bit GOV_CHG_EN && s.bit PWR_PATH_VINOK && decide (mv < s.fld GOV_VCEIL_VCEIL) then 1 else 0) else s.fld GOV_STAT_STATE)] := by
  refine completes_run rfl ?_
  simp only [run_modSupply_bind, run_setFld_bind, run_modGov_bind, run_setCtr_bind, hst, if_false]
  rw [← State.vminOf, ← State.vmaxOf, ← State.measured]
  refine ⟨?_, ?_, ((Did_measured h mv).settle ?_).latched s⟩
  · rw [State.ctr, latchEdges_ctr, govSettle_dev, ← State.ctr, (measured_ctr mv).1]
  · rw [State.ctr, latchEdges_ctr, govSettle_dev, ← State.ctr, (measured_ctr mv).2]
  · simp (disch := decide) only [State.settled, State.measured, State.counted_fld, State.counted_bit, State.counted_dev, State.live_fld, State.live_bit,
      State.live_dev, State.dev_put, State.fld_apart, State.bit_apart]

theorem measurement_drives (h : s.Inv) (mv : Nat) (hst : s.fld GOV_STAT_STATE = 7) : Completes (.vstoreMeasurement mv) s fun t =>
    s.Sets t [(GOV_LEVEL_VSTORE, min 0xFFFF mv), (GOV_STAT_DISCH, if 100 < mv then 1 else 0)] := by
  refine completes_run rfl ?_
  simp only [run_modSupply_bind, run_setFld_bind, run_modGov_bind, run_setCtr_bind, hst, if_true]
  rw [← State.vminOf, ← State.vmaxOf, ← State.measured, govSettle_run, if_neg]
  · have hb : b2n (decide (100 < mv)) = if 100 < mv then 1 else 0 := by by_cases h100 : 100 < mv <;> simp [b2n, h100]
    rw [← hb]
    exact ((Did_measured h mv).puts (by decide)).latched s
  · simp (disch := decide) only [State.measured, State.counted_fld, State.live_fld, State.fld_apart, hst]
    decide

theorem chargeCeiling_stops (h : s.Inv) (hst : s.fld GOV_STAT_STATE = 1) : Completes .chargeCeiling s fun t =>
    t.events = s.events ++ [0x04] ∧ s.Sets t [(GOV_STAT_STATE, 2)] (perfOf govPage) := by
  refine completes_run rfl ?_
  rw [hst, if_pos rfl, run_modSupply_bind, setGovState, run_setFld_bind]
  exact ⟨by rw [latchEdges_events, emit_events (by decide), State.events_put, State.live_events], (((((did_refl h).lived (by rfl)).puts (by decide))).emits (by decide) (by exact fun _ => .inr)).latched s⟩

theorem chargeCeiling_nothing (hst : s.fld GOV_STAT_STATE ≠ 1) : Completes .chargeCeiling s fun t => s.Within {} t :=
  completes_run rfl (by rw [if_neg hst, run_pure, State.within_latch_iff]; exact s.within_refl _)

/-- Where R364's conditions put the governor at a store voltage. -/
def State.chargeAt (s : State) (mv : Nat) : Nat :=
  if s.bit GOV_CHG_EN && s.bit PWR_PATH_VINOK && decide (mv < s.fld GOV_VCEIL_VCEIL) then 1 else 0

theorem chargeRestart_settles (h : s.Inv) (hst : s.fld GOV_STAT_STATE = 2) : Completes .chargeRestart s fun t =>
    s.Sets t [(GOV_STAT_STATE, s.chargeAt (s.fld GOV_VCEIL_VCEIL * 98 / 100))] := by
  refine completes_run rfl ?_
  rw [hst, if_pos rfl, run_modSupply_bind]
  exact (((did_refl h).lived (by rfl)).leaveHeld (by rfl)).latched s

/-! ### Bleeds (R365–R367) -/

theorem overshoot_bleeds (h : s.Inv) (hst : s.fld GOV_STAT_STATE ≤ 2) : Completes .overshootBleed s fun t =>
    t.ctr govPage 1 3 = min 0xFFFFFFFF (s.ctr govPage 1 3 + 1) ∧ s.Sets t [(GOV_STAT_STATE, 3), (GOV_STAT_DISCH, 1)] := by
  refine completes_run rfl ?_
  rw [if_pos (by simp only [govIdle, govCharge, govFull, govHeld]; omega), if_pos (by simp only [govHeld]; omega), setGovState, run_setFld_bind,
    run_setFld_bind, run_modSupply_bind, run_count]
  refine ⟨?_, ((((((did_refl h).puts (by decide))).puts (by decide)).lived (by rfl)).counted _ _ _ _).latched s⟩
  rw [State.ctr, latchEdges_ctr, ← State.ctr, State.ctr_counted_same, State.ctr_live rfl]
  rfl

theorem overshoot_held (h : s.Inv) (hst : s.fld GOV_STAT_STATE = 5) : Completes .overshootBleed s fun t =>
    t.ctr govPage 1 3 = min 0xFFFFFFFF (s.ctr govPage 1 3 + 1) ∧ s.Sets t [(GOV_STAT_DISCH, 1)] := by
  refine completes_run rfl ?_
  rw [hst, if_pos (by decide), if_neg (by decide), run_setFld_bind, run_modSupply_bind, run_count]
  refine ⟨?_, ((((did_refl h).puts (by decide)).lived (by rfl)).counted _ _ _ _).latched s⟩
  rw [State.ctr, latchEdges_ctr, ← State.ctr, State.ctr_counted_same, State.ctr_live rfl]
  rfl

theorem overshoot_ends (h : s.Inv) (hst : s.fld GOV_STAT_STATE = 3) : Completes .overshootBleedEnd s fun t =>
    s.Sets t [(GOV_STAT_DISCH, 0), (GOV_STAT_STATE, 2)] := by
  refine completes_run rfl ?_
  rw [hst, if_pos (.inl rfl), run_setFld_bind, run_modSupply_bind, if_pos rfl, setGovState, run_setFld]
  exact ((((did_refl h).puts (by decide)).lived (by rfl)).puts (by decide)).latched s

/-- The state in which a bleed has begun. -/
def State.bled (s : State) (byDoor : Bool) : State :=
  (((s.put GOV_STAT_STATE 4).put GOV_STAT_DISCH 1).live fun d => { d with gov := { d.gov with byDoor := byDoor } }).counted govPage 1 2
    (min 0xFFFFFFFF (s.ctr govPage 1 2 + 1))

theorem startBleed_run (d : Bool) : (startBleed d).run s = if s.fld GOV_STAT_STATE ≤ 3 then s.bled d else s := by
  have hlt : s.fld GOV_STAT_STATE < 2 ^ 3 := State.fld_lt rfl
  rw [startBleed, run_getS, run_ite, run_nop, setGovState, run_setFld_bind, run_setFld_bind, run_modGov_bind, run_count, State.ctr_live rfl]
  by_cases hst : s.fld GOV_STAT_STATE ≤ 3
  · rw [if_neg (by simp only [govBleed, govHeld, govLockout, govNorec]; omega), if_pos hst]
    rfl
  · rw [if_pos (by simp only [govBleed, govHeld, govLockout, govNorec]; omega), if_neg hst]

theorem total_startBleed (d : Bool) : (startBleed d).Total :=
  total_bind total_getS fun _ => total_ite (total_pure _) (total_bind (total_setFld _ _) fun _ => total_bind (total_setFld _ _) fun _ =>
    total_bind (total_act _) fun _ => total_count _ _ _)

theorem State.counted_events (p i w v : Nat) : (s.counted p i w v).events = s.events := (rfl)

theorem bled_ctr (d : Bool) : (s.bled d).ctr govPage 1 2 = min 0xFFFFFFFF (s.ctr govPage 1 2 + 1) := by rw [State.bled, State.ctr_counted_same]
theorem bled_byDoor (d : Bool) : (s.bled d).dev.gov.byDoor = d := by rw [State.bled, State.counted_dev, State.live_dev]
theorem bled_events (d : Bool) : (s.bled d).events = s.events := by
  rw [State.bled, State.counted_events, State.live_events, State.events_put, State.events_put]
theorem State.Did.bled (h : s.Did t l noted F) (d : Bool) : s.Did (t.bled d) (l ++ [(GOV_STAT_STATE, 4)] ++ [(GOV_STAT_DISCH, 1)]) noted F :=
  (((((h.puts (by decide))).puts (by decide))).lived (by rfl)).counted _ _ _ _

theorem doorOpen_bleeds (h : s.Inv) (hd : s.bit GOV_STAT_DOOR = false) : Completes .doorOpen s fun t =>
    t.events = s.events ++ [0x03] ∧ t.dev.pwr.wake.testBit 10 = true ∧
      (s.fld GOV_STAT_STATE ≤ 3 → t.dev.gov.byDoor = true ∧ t.ctr govPage 1 2 = min 0xFFFFFFFF (s.ctr govPage 1 2 + 1)) ∧
      s.Sets t ((GOV_STAT_DOOR, 1) :: if s.fld GOV_STAT_STATE ≤ 3 then [(GOV_STAT_STATE, 4), (GOV_STAT_DISCH, 1)] else []) (perfOf govPage) := by
  refine completes_run rfl ?_
  rw [hd, Bool.not_false, if_pos rfl]
  simp only [run_modSupply_bind, run_setFld_bind, run_emit_bind, wakeSource, run_modPwr_bind]
  have hfld : ∀ f g : Dev → Dev, (((emit govPage 0x03).run ((s.put GOV_STAT_DOOR 1).live f)).live g).fld GOV_STAT_STATE = s.fld GOV_STAT_STATE :=
    fun f g => by rw [State.live_fld, emit_fld (by decide), State.live_fld, State.fld_apart _ (by decide)]
  have hev : ∀ f g : Dev → Dev, (((emit govPage 0x03).run ((s.put GOV_STAT_DOOR 1).live f)).live g).events = s.events ++ [0x03] :=
    fun f g => by rw [State.live_events, emit_events (by decide), State.live_events, State.events_put]
  rw [startBleed_run, hfld]
  by_cases hst : s.fld GOV_STAT_STATE ≤ 3
  · rw [if_pos hst, if_pos hst]
    refine ⟨?_, ?_, fun _ => ⟨?_, ?_⟩, ((((((((did_refl h).puts (by decide)).lived (by rfl)).emits (by decide) (by exact fun _ => .inr))).lived (by rfl))).bled true).latched s⟩
    · rw [latchEdges_events, bled_events, hev]
    · rw [latchEdges_pwr, State.bled, State.counted_dev, State.live_dev, State.dev_put, State.dev_put, State.live_dev]
      exact bitSet_testBit_self _ _
    · rw [latchEdges_gov, bled_byDoor]
    · rw [State.ctr, latchEdges_ctr, ← State.ctr, bled_ctr, State.ctr_live rfl, State.ctr_emit, State.ctr_live rfl, State.ctr_put]
  · rw [if_neg hst, if_neg hst]
    refine ⟨by rw [latchEdges_events, hev], ?_, fun hc => absurd hc hst, ((((((did_refl h).puts (by decide)).lived (by rfl)).emits (by decide) (by exact fun _ => .inr))).lived (by rfl)).latched s⟩
    rw [latchEdges_pwr, State.live_dev]
    exact bitSet_testBit_self _ _

theorem doorClosed_leaves (h : s.Inv) (hd : s.bit GOV_STAT_DOOR = true) : Completes .doorClosed s fun t =>
    t.events = s.events ++ [0x03] ∧
      s.Sets t ((GOV_STAT_DOOR, 0) :: if s.fld GOV_STAT_STATE = 5 ∧ s.dev.gov.byDoor = true then
        [(GOV_STAT_STATE, s.chargeAt s.dev.supply.vstore)] else []) (perfOf govPage) := by
  refine completes_run rfl ?_
  rw [hd, if_pos rfl]
  simp only [run_modSupply_bind, run_setFld_bind, run_emit_bind, run_ite, run_pure]
  have hev : ∀ f : Dev → Dev, ((emit govPage 0x03).run ((s.put GOV_STAT_DOOR 0).live f)).events = s.events ++ [0x03] :=
    fun f => by rw [emit_events (by decide), State.live_events, State.events_put]
  by_cases hst : s.fld GOV_STAT_STATE = 5 ∧ s.dev.gov.byDoor = true
  · rw [if_pos hst, if_pos hst]
    refine ⟨by rw [latchEdges_events, leaveHeld_events, hev], ((((((did_refl h).puts (by decide)).lived (by rfl)).emits (by decide) (by exact fun _ => .inr))).leaveHeld ?_).latched s⟩
    simp (disch := decide) only [emit_bit, emit_fld, emit_dev, State.live_bit, State.live_fld, State.live_dev, State.dev_put, State.bit_apart, State.fld_put_other]
    rfl
  · rw [if_neg hst, if_neg hst]
    exact ⟨by rw [latchEdges_events, hev], ((((did_refl h).puts (by decide)).lived (by rfl)).emits (by decide) (by exact fun _ => .inr)).latched s⟩

theorem govDischarge_bleeds (h : s.Inv) (hst : s.fld GOV_STAT_STATE ≤ 3) : Completes .govDischarge s fun t =>
    t.dev.gov.byDoor = false ∧ t.ctr govPage 1 2 = min 0xFFFFFFFF (s.ctr govPage 1 2 + 1) ∧
      s.Sets t [(GOV_STAT_STATE, 4), (GOV_STAT_DISCH, 1)] := by
  refine completes_run rfl ?_
  rw [govCmd, if_pos (by decide), (total_startBleed _).run_bind, if_neg (by decide), run_pure, startBleed_run, if_pos hst]
  exact ⟨by rw [latchEdges_gov, bled_byDoor], by rw [State.ctr, latchEdges_ctr, ← State.ctr, bled_ctr], ((did_refl h).bled false).latched s⟩

theorem govDischarge_absorbed (hst : 4 ≤ s.fld GOV_STAT_STATE) : Completes .govDischarge s fun t => t.dev.gov = s.dev.gov ∧ s.Within {} t := by
  refine completes_run rfl ?_
  rw [govCmd, if_pos (by decide), (total_startBleed _).run_bind, if_neg (by decide), run_pure, startBleed_run, if_neg (by omega)]
  exact ⟨by rw [latchEdges_gov], by rw [State.within_latch_iff]; exact s.within_refl _⟩

theorem govResume_leaves (h : s.Inv) (hst : s.fld GOV_STAT_STATE = 5) (hd : s.dev.gov.byDoor = false) : Completes .govResume s fun t =>
    s.Sets t [(GOV_STAT_STATE, s.chargeAt s.dev.supply.vstore)] := by
  refine completes_run rfl ?_
  rw [govCmd, if_neg (by decide), if_pos (by decide), run_getS, if_pos ⟨hst, by rw [hd]; rfl⟩]
  exact ((did_refl h).leaveHeld (by rfl)).latched s

theorem govResume_nothing (hno : s.fld GOV_STAT_STATE ≠ 5 ∨ s.dev.gov.byDoor = true) : Completes .govResume s fun t =>
    t.dev.gov = s.dev.gov ∧ s.Within {} t := by
  refine completes_run rfl ?_
  rw [govCmd, if_neg (by decide), if_pos (by decide), run_getS, if_neg, run_pure]
  · exact ⟨by rw [latchEdges_gov], by rw [State.within_latch_iff]; exact s.within_refl _⟩
  · rintro ⟨hst, hd⟩
    rcases hno with hno | hno
    · exact hno hst
    · rw [hno] at hd; exact absurd hd (by decide)

theorem bleedSafe_holds (h : s.Inv) (hst : s.fld GOV_STAT_STATE = 4) (hd : s.dev.gov.byDoor = false ∨ s.bit GOV_STAT_DOOR = true) :
    Completes .bleedSafe s fun t => t.events = s.events ++ [0x05] ∧ s.Sets t [(GOV_STAT_DISCH, 0), (GOV_STAT_STATE, 5)] (perfOf govPage) := by
  have hno : ¬ (s.dev.gov.byDoor = true ∧ (!s.bit GOV_STAT_DOOR) = true) := by
    rintro ⟨h1, h2⟩
    rcases hd with hd | hd
    · rw [hd] at h1; exact absurd h1 (by decide)
    · rw [hd] at h2; exact absurd h2 (by decide)
  refine completes_run rfl ?_
  rw [hst, if_pos rfl, run_setFld_bind, setGovState, run_setFld_bind, run_emit_bind, if_neg hno, run_pure]
  exact ⟨by rw [latchEdges_events, emit_events (by decide), State.events_put, State.events_put], ((((((did_refl h).puts (by decide))).puts (by decide))).emits (by decide) (by exact fun _ => .inr)).latched s⟩

theorem stage_ctr {type code cluster p i w : Nat} {hw : Bool} {payload : List Byte} (h : s.dev.staged.length < 4)
    (hk : ctrKey p i w ≠ ctrKey statsPage (0x20 + 0x16 / 4) (0x16 % 4)) :
    ((stage type hw code cluster payload).run s).ctr p i w = s.ctr p i w := by
  rw [stage_run h, run_stat, State.ctr_emit, State.ctr_counted_other hk, State.ctr, withStaged_dev, State.ctr]

theorem bleedTimeout_locks (h : s.Inv) (hst : s.fld GOV_STAT_STATE = 4) (hl : s.dev.staged.length < 4) : Completes .bleedTimeout s fun t =>
    t.ctr govPage 2 3 = min 0xFFFFFFFF (s.ctr govPage 2 3 + 1) ∧ t.dev.intc.edge.testBit 54 = true ∧
      t.dev.staged.length = s.dev.staged.length + 1 ∧
      s.Sets t [(GOV_STAT_STATE, 6), (LOGB_STAT_COUNT, s.dev.staged.length + 1)] (perfOf govPage ++ perfOf logbPage) := by
  refine completes_run rfl ?_
  rw [hst, if_pos rfl, setGovState, run_setFld_bind, run_emit_bind, pulse, run_modIntc_bind, run_count_bind]
  have hdev : ∀ v, ((((emit govPage 0x06).run (s.put GOV_STAT_STATE govLockout)).live fun d =>
      { d with intc := { d.intc with edge := bitSet d.intc.edge 54 } }).counted govPage 0x02 3 v).dev.staged = s.dev.staged := fun v => by
    rw [State.counted_dev, State.live_dev, emit_dev, State.dev_put]
  have hstage : ∀ v, ((((emit govPage 0x06).run (s.put GOV_STAT_STATE govLockout)).live fun d =>
      { d with intc := { d.intc with edge := bitSet d.intc.edge 54 } }).counted govPage 0x02 3 v).dev.staged.length < 4 := fun v => by rw [hdev]; exact hl
  refine ⟨?_, latchEdges_edge ?_, ?_, ?_⟩
  · rw [State.ctr, latchEdges_ctr, ← State.ctr, stage_ctr (hstage _) (by decide), State.ctr_counted_same, State.ctr_live rfl, State.ctr_emit, State.ctr_put]
  · rw [stage_dev (hstage _), State.counted_dev, State.live_dev]
    exact bitSet_testBit_self _ _
  · rw [latchEdges_staged, stage_dev (hstage _), List.length_append, hdev]
    rfl
  · have hn : ∀ a ∈ perfRegs logbPage, (({} : Foot).regs a = true ∨ a ∈ perfOf govPage ++ perfOf logbPage) := fun a ha => .inr (List.mem_append_right _ ha)
    have hm : ∀ a ∈ perfRegs govPage, (({} : Foot).regs a = true ∨ a ∈ perfOf govPage ++ perfOf logbPage) := fun a ha => .inr (List.mem_append_left _ ha)
    have d := fun v => ((((((did_refl h).puts (by decide) (f := GOV_STAT_STATE) (v := 6))).emits (by decide) (e := 0x06) (hn := hm))).lived (by rfl)
      (f := fun d => { d with intc := { d.intc with edge := bitSet d.intc.edge 54 } })).counted govPage 0x02 3 v |>.staged (hstage v) hn
        (type := 0x04) (hw := true) (code := stInternal) (cluster := (s.reg govPage).toNat)
        (payload := leBytes 2 s.dev.supply.vstore ++ leBytes 2 s.bleedMax)
    simp only [hdev] at d
    exact (d _).latched s

/-! ### Relay coil pulses (R369, R488) -/

theorem setRlyBusy_run (b : Bool) : (setRlyBusy b).run s = (s.put GOV_STAT_RLYBUSY (b2n b)).put LUM_STAT_RLYBUSY (b2n b) := by
  rw [setRlyBusy, run_setFld_bind, run_setFld]
theorem setRlyBusy_bind (b : Bool) (k : Unit → M Unit) :
    (setRlyBusy b >>= k).run s = (k ()).run ((s.put GOV_STAT_RLYBUSY (b2n b)).put LUM_STAT_RLYBUSY (b2n b)) := by
  rw [setRlyBusy, run_assoc, run_setFld_bind, run_setFld_bind]

theorem rlyFree_putReg (v : Word) : (s.putReg LUM_RLY v).rlyFree = s.rlyFree := by
  rw [State.rlyFree, State.rlyTmax, State.govValid, State.dev_putReg, State.reg_putReg_other _ (by decide), State.reg_putReg_other _ (by decide),
    ← State.govValid, ← State.rlyTmax, ← State.rlyFree]

/-- START set is seen. -/
theorem start_bit (w : Word) : bitOf (bitsPut w 31 31 1).toNat 31 = true := by
  rw [bitOf, bitsPut_testBit _ _ _ _ _ (by decide) (by decide)]
  rfl

theorem relayPulse_starts (h : s.Inv) (w : Word) (hf : s.rlyFree = true) : Completes (.relayPulseStart w) s fun t =>
    t.dev.gov.pulse = some (bitsGet (t.reg LUM_RLY) LUM_RLY_DIR.hi LUM_RLY_DIR.lo) ∧
      t.ctr govPage 2 0 = min 0xFFFFFFFF (s.ctr govPage 2 0 + 1) ∧
      s.Sets t [(GOV_STAT_RLYBUSY, 1), (LUM_STAT_RLYBUSY, 1), (LUM_STAT_STATUS, 0)] [LUM_RLY] := by
  refine completes_run rfl ?_
  rw [relayWrite, run_wr_bind, start_bit, if_pos rfl, run_getS, rlyFree_putReg, hf, if_pos rfl, startPulse, run_assoc, run_getS, run_assoc, run_modGov_bind,
    run_assoc, setRlyBusy_bind, run_count_bind, run_setFld]
  refine ⟨?_, ?_, (((((((((did_refl h).wr_noted (.inr (List.mem_singleton.mpr rfl))).lived (by rfl))).puts (by decide))).puts (by decide)).counted _ _ _ _).puts (by decide)).latched s⟩
  · rw [latchEdges_gov, State.dev_put, State.counted_dev, State.dev_put, State.dev_put, State.live_dev, latchEdges_reg, State.reg_put_other _ (by decide),
      State.counted_reg, State.reg_put_other _ (by decide), State.reg_put_other _ (by decide), State.live_reg]
    rfl
  · rw [State.ctr, latchEdges_ctr, ← State.ctr, State.ctr_put, State.ctr_counted_same, State.ctr_put, State.ctr_put, State.ctr_live rfl, State.ctr_putReg]

theorem relayPulse_refused (h : s.Inv) (w : Word) (hf : s.rlyFree = false) : Completes (.relayPulseStart w) s fun t =>
    t.dev.gov = s.dev.gov ∧ t.ctr govPage 2 2 = min 0xFFFFFFFF (s.ctr govPage 2 2 + 1) ∧ s.Sets t [(LUM_STAT_STATUS, 2)] [LUM_RLY] := by
  refine completes_run rfl ?_
  rw [relayWrite, run_wr_bind, start_bit, if_pos rfl, run_getS, rlyFree_putReg, hf, if_neg (by decide), run_setFld_bind, run_count]
  refine ⟨?_, ?_, (((((did_refl h).wr_noted (.inr (List.mem_singleton.mpr rfl))).puts (by decide))).counted _ _ _ _).latched s⟩
  · rw [latchEdges_gov, State.counted_dev, State.dev_put, State.dev_putReg]
  · rw [State.ctr, latchEdges_ctr, ← State.ctr, State.ctr_counted_same, State.ctr_put, State.ctr_putReg]

/-- The state in which a pulse has ended, its clip not counted yet. -/
def State.pulseEnded (s : State) (b : Bool) : State :=
  (emit lumPage 0x60).run (((s.live fun d => { d with gov := { d.gov with pulse := none } }).put GOV_STAT_RLYBUSY (b2n b)).put LUM_STAT_RLYBUSY (b2n b))

theorem relayPulse_ends (h : s.Inv) (hp : s.dev.gov.pulse.isSome = true) : Completes .relayPulseEnd s fun t =>
    t.dev.gov = { s.dev.gov with pulse := none } ∧ t.events = s.events ++ [0x60] ∧
      t.ctr govPage 2 1 = (if s.rlyTmax < s.dev.gov.pulseLen then min 0xFFFFFFFF (s.ctr govPage 2 1 + 1) else s.ctr govPage 2 1) ∧
      s.Sets t [(GOV_STAT_RLYBUSY, if s.dev.gov.interval then 1 else 0), (LUM_STAT_RLYBUSY, if s.dev.gov.interval then 1 else 0)] (perfOf lumPage) := by
  have hgov : ∀ u : State, (u.pulseEnded s.dev.gov.interval).dev.gov = { u.dev.gov with pulse := none } := fun u => by
    rw [State.pulseEnded, emit_dev, State.dev_put, State.dev_put, State.live_dev]
  have hev : ∀ u : State, (u.pulseEnded s.dev.gov.interval).events = u.events ++ [0x60] := fun u => by
    rw [State.pulseEnded, emit_events (by decide), State.events_put, State.events_put, State.live_events]
  have hctr : ∀ u : State, (u.pulseEnded s.dev.gov.interval).ctr govPage 2 1 = u.ctr govPage 2 1 := fun u => by
    rw [State.pulseEnded, State.ctr_emit, State.ctr_put, State.ctr_put, State.ctr_live rfl]
  have hdid : ∀ u : State, s.Did u [] (perfOf lumPage) → s.Did (u.pulseEnded s.dev.gov.interval)
      [(GOV_STAT_RLYBUSY, if s.dev.gov.interval then 1 else 0), (LUM_STAT_RLYBUSY, if s.dev.gov.interval then 1 else 0)] (perfOf lumPage) :=
    fun u d => ((((((d.lived (by rfl)).puts (by decide))).puts (by decide))).emits (by decide) (by exact fun _ => .inr))
  refine completes_run rfl ?_
  rw [endPulse, run_getS, hp, if_pos rfl, Bool.false_or]
  simp only [run_ite, run_count_bind, run_modGov_bind, setRlyBusy_bind]
  by_cases hclip : s.rlyTmax < s.dev.gov.pulseLen
  · rw [decide_eq_true hclip, if_pos rfl, if_pos hclip]
    refine ⟨?_, ?_, ?_, (hdid _ ((did_refl h).counted _ _ _ _)).latched s⟩
    · rw [latchEdges_gov, ← State.pulseEnded, hgov, State.counted_dev]
    · rw [latchEdges_events, ← State.pulseEnded, hev, State.counted_events]
    · rw [State.ctr, latchEdges_ctr, ← State.ctr, ← State.pulseEnded, hctr, State.ctr_counted_same]
  · rw [decide_eq_false hclip, if_neg (by decide), if_neg hclip]
    refine ⟨?_, ?_, ?_, (hdid _ (did_refl h)).latched s⟩
    · rw [latchEdges_gov, ← State.pulseEnded, hgov]
    · rw [latchEdges_events, ← State.pulseEnded, hev]
    · rw [State.ctr, latchEdges_ctr, ← State.ctr, ← State.pulseEnded, hctr]

theorem relayInterval_ends (h : s.Inv) (hp : s.dev.gov.pulse = none) : Completes .relayIntervalEnd s fun t =>
    t.dev.gov = { s.dev.gov with interval := false } ∧ s.Sets t [(GOV_STAT_RLYBUSY, 0), (LUM_STAT_RLYBUSY, 0)] := by
  refine completes_run rfl ?_
  rw [run_modGov_bind, hp, if_pos (by rfl), setRlyBusy_run]
  exact ⟨by rw [latchEdges_gov, State.dev_put, State.dev_put, State.live_dev], (((((did_refl h).lived (by rfl)).puts (by decide))).puts (by decide)).latched s⟩

/-- Settles O45: the power path, charging, bleeds and relay pulses. -/
theorem governor : Obligations.Governor := fun _ h =>
  ⟨vinLost_switches h, vinReturn_switches h, vinReturn_nothing, vinLost_nothing, storeRegulator_starts h, storeRegulator_stops h,
    fun mv => ⟨measurement_counts h mv, measurement_drives h mv⟩, chargeCeiling_stops h, chargeCeiling_nothing, chargeRestart_settles h,
    overshoot_bleeds h, overshoot_held h, overshoot_ends h, doorOpen_bleeds h, doorClosed_leaves h, govDischarge_bleeds h, govDischarge_absorbed,
    govResume_leaves h, govResume_nothing, bleedSafe_holds h, bleedTimeout_locks h, fun w => ⟨relayPulse_starts h w, relayPulse_refused h w⟩,
    relayPulse_ends h, relayInterval_ends h⟩

end Sys2Proof.Machine
end

section
/-!
Free values drawn, and the operations of the OTPC page (R417): what each begins, and how one ends.
-/
namespace Sys2Proof.Machine
open Sys2Proof.Reg

variable {s t : State} {F : Foot} {l : List (Fld × Nat)} {noted : List Nat}

/-! ### Free values -/

/-- The state with a number of free values taken. -/
def State.drawn : Nat → State → State
  | 0, s => s
  | n + 1, s => State.drawn n (Prim.run .bump s)

/-- The free octets that are next. -/
def freeOctets : Nat → Nat → List Byte
  | 0, _ => []
  | n + 1, k => BitVec.ofNat 8 (Config.freeNat k) :: freeOctets n (k + 1)

theorem freeOctets_length (n k : Nat) : (freeOctets n k).length = n := by
  induction n generalizing k with
  | zero => rfl
  | succ n ih => rw [freeOctets, List.length_cons, ih]

theorem run_freeNat_bind (f : Nat → M Unit) : (freeNat >>= f).run s = (f (Config.freeNat s.free)).run (s.drawn 1) := (rfl)

theorem run_freeBytes_bind (n : Nat) (f : List Byte → M Unit) : (freeBytes n >>= f).run s = (f (freeOctets n s.free)).run (s.drawn n) := by
  induction n generalizing s f with
  | zero => rfl
  | succ n ih =>
    have hstep : (freeBytes (n + 1) >>= f).run s =
        (freeBytes n >>= fun l => f (BitVec.ofNat 8 (Config.freeNat s.free) :: l)).run (Prim.run .bump s) := (rfl)
    rw [hstep, ih]
    rfl

section
variable (n : Nat)
@[simp] theorem State.drawn_dev : (s.drawn n).dev = s.dev := by
  induction n generalizing s with
  | zero => rfl
  | succ n ih => exact ih
@[simp] theorem State.drawn_reg (a : Nat) : (s.drawn n).reg a = s.reg a := by
  induction n generalizing s with
  | zero => rfl
  | succ n ih => exact ih
theorem State.drawn_within : s.Within F (s.drawn n) := by
  induction n generalizing s with
  | zero => exact s.within_refl _
  | succ n ih =>
    have hstep : s.Within F (Prim.run .bump s) := ⟨fun _ _ => rfl, fun _ _ => rfl, fun x _ i => by cases x <;> rfl, fun _ _ => rfl, fun _ => rfl, fun _ => rfl,
      fun _ => rfl, rfl⟩
    exact hstep.trans ih
theorem State.Inv.drawn (h : s.Inv) : (s.drawn n).Inv := by
  induction n generalizing s with
  | zero => exact h
  | succ n ih => exact ih (Prim.run_inv _ _ h)
theorem State.Did.drawn (h : s.Did t l noted F) : s.Did (t.drawn n) l noted F := ⟨h.inv.drawn n, h.sets.step (t.drawn_within n)⟩
end

/-! ### What an operation begins (R417) -/

/-- The state in which the OTP block has a job. -/
def State.otpBegun (s : State) (j : OtpJob) : State := (s.put OTPC_STAT_BUSY 1).live fun d => { d with otpc := some j }

/-- What a READ will give. -/
def State.otpReadJob (s : State) : OtpJob :=
  if s.fld OTPC_ADDR_OFFSET % 16 ≠ 0 then { status := stParam }
  else if (keyRow (s.fld OTPC_ADDR_OFFSET)).isSome then { status := stKey, rd := List.replicate 16 0 }
  else { status := stOk, rd := if 0x300 ≤ s.fld OTPC_ADDR_OFFSET then List.replicate 16 0 else s.otpRow (s.fld OTPC_ADDR_OFFSET) }

/-- A PROGRAM that does not verify. -/
def failedJob (row gen : Nat) (data k : List Byte) : OtpJob := { status := stProgFail, gen := gen, row := row, data := List.zipWith (· &&& ·) data k }

theorem State.Did.jobbed (h : s.Did t l noted F) (j : Option OtpJob) : s.Did (t.live fun d => { d with otpc := j }) l noted F := (h.lived (by rfl))

variable {m : Master} {op vsys : Nat} {verified : Bool}

theorem otpStart_busy (hb : s.bit OTPC_STAT_BUSY = true) : (otpStart m op vsys verified).run s = (setFlt otpcPage fltState).run s := by
  rw [otpStart, run_getS, hb, if_pos rfl]

theorem otpStart_read (hb : s.bit OTPC_STAT_BUSY = false) : (otpStart m 1 vsys verified).run s = s.otpBegun s.otpReadJob := by
  rw [otpStart, run_getS, hb, if_neg (by decide)]
  simp only [run_setFld_bind, if_true]
  rw [State.otpReadJob, State.otpBegun]
  split
  · rfl
  · split <;> rfl

theorem otpStart_checked (hb : s.bit OTPC_STAT_BUSY = false) (ho : 2 ≤ op ∧ op ≤ 6) {st : Nat} (hm : s.otpMay m op = true)
    (hc : s.otpCheck m op vsys = .error st) : (otpStart m op vsys verified).run s = s.otpBegun { status := st } := by
  rw [otpStart, run_getS, hb, if_neg (by decide)]
  simp only [run_setFld_bind, hc, hm]
  rw [if_neg (by omega), if_neg (by omega)]
  rfl

theorem otpStart_turned (hb : s.bit OTPC_STAT_BUSY = false) (ho : 2 ≤ op ∧ op ≤ 6) (hm : s.otpMay m op = false) :
    (otpStart m op vsys verified).run s =
      ((setFlt otpcPage fltState).run (s.put OTPC_STAT_BUSY 1)).live fun d => { d with otpc := some { status := 1 } } := by
  have hc : s.otpCheck m op vsys = .error stState := by rw [State.otpCheck, hm]; rfl
  rw [otpStart, run_getS, hb, if_neg (by decide)]
  simp only [run_setFld_bind, hc, hm]
  rw [if_neg (by omega), if_neg (by omega)]
  simp only [Bool.not_false, if_true, run_setFlt_bind, run_pure_bind, run_modDev]

theorem otpStart_programs (hb : s.bit OTPC_STAT_BUSY = false) (ho : 2 ≤ op ∧ op ≤ 6) {row gen : Nat} {data : List Byte}
    (hc : s.otpCheck m op vsys = .ok (row, gen, data)) : (otpStart m op vsys true).run s = s.otpBegun { status := 0, row := row, gen := gen, data := data } := by
  rw [otpStart, run_getS, hb, if_neg (by decide)]
  simp only [run_setFld_bind, hc]
  rw [if_neg (by omega), if_neg (by omega)]
  rfl

theorem otpStart_fails (hb : s.bit OTPC_STAT_BUSY = false) (ho : 2 ≤ op ∧ op ≤ 6) {row gen : Nat} {data : List Byte}
    (hc : s.otpCheck m op vsys = .ok (row, gen, data)) : (otpStart m op vsys false).run s =
      (((s.put OTPC_STAT_BUSY 1).drawn data.length).live fun d =>
        { d with otpc := some (failedJob row gen data (freeOctets data.length (s.put OTPC_STAT_BUSY 1).free)) }) := by
  rw [otpStart, run_getS, hb, if_neg (by decide)]
  simp only [run_setFld_bind, hc]
  rw [if_neg (by omega), if_neg (by omega)]
  simp only [Bool.false_eq_true, if_false, run_freeBytes_bind, run_pure_bind, run_modDev]
  rfl

/-! ### The checks and what they find (R417) -/

section
variable (m vsys)

theorem otpCheck_program (hm : s.otpMay m 2 = true) :
    let off := s.fld OTPC_ADDR_OFFSET
    s.otpCheck m 2 vsys =
      if off % 16 ≠ 0 ∨ (0x010 ≤ off ∧ off < 0x030) ∨ (0x040 ≤ off ∧ off < 0x1C0) then .error 3
      else if s.otpUsed off then .error 8 else if s.keyOrderBad off then .error 1 else if vsys < 3000 then .error 0x30 else .ok (off, 0, s.otpWd) := by
  simp [State.otpCheck, hm]

/-- An append's checks, whichever record it appends to. -/
theorem otpCheck_append (hop : op = 3 ∨ op = 4) (hm : s.otpMay m op = true) {base : Nat} {stricter : Bool}
    (hb : base = if op = 3 then regBase (s.fld OTPC_ADDR_PROF) else govBase)
    (hs : stricter = if op = 3 then regStricter s.otpWd (s.newestRow base) else govStricter s.otpWd (s.newestRow base)) :
    s.otpCheck m op vsys =
      if s.blankGen base = none then .error 8
      else if (!bitOf (octet s.otpWd 3).toNat 7) = true ∨ (s.newestGen base ≠ none ∧ stricter = false) then .error 3
      else if vsys < 3000 then .error 0x30
      else .ok (base + 16 * (s.blankGen base).getD 0, (s.blankGen base).getD 0, s.otpWd) := by
  have h2 : op ≠ 2 := by omega
  have h5 : op ≠ 5 := by omega
  have h6 : op ≠ 6 := by omega
  simp only [State.otpCheck, hm, ← hb, ← hs, h2, h5, h6, hop, Bool.not_true, Bool.false_eq_true, if_false, false_and, true_and, if_true]

theorem otpCheck_advance (hm : s.otpMay m 5 = true) : s.otpCheck m 5 vsys =
    if s.lifecycle = 3 then .error 8 else if vsys < 3000 then .error 0x30 else .ok (0x010, 0, leBytes 1 (2 ^ s.lifecycle)) := by
  simp [State.otpCheck, hm]

theorem otpCheck_raise (hm : s.otpMay m 6 = true) : s.otpCheck m 6 vsys =
    if (s.reg (OTPC_WD 0)).toNat % 64 < s.arb then .error 3 else if vsys < 3000 then .error 0x30
    else .ok (0x020, 0, leBytes 8 (2 ^ ((s.reg (OTPC_WD 0)).toNat % 64) - 1)) := by
  simp [State.otpCheck, hm]
end

/-! ### How an operation begins, as a command -/

/-- A command of the OTPC page. -/
def OtpCommand (c : Instr) (s : State) (m : Master) (op vsys : Nat) (verified : Bool) : Prop := exec c s = cmd s (otpStart m op vsys verified)

section
variable {c : Instr} (hx : OtpCommand c s m op vsys verified) (h : s.Inv)
include hx h

theorem otp_busy (hb : s.bit OTPC_STAT_BUSY = true) : Completes c s fun t => t.dev.otpc = s.dev.otpc ∧ s.Reports t otpcPage fltState := by
  refine completes_run hx ?_
  rw [otpStart_busy hb]
  exact ⟨by rw [latchEdges_otpc, setFlt_dev], (h.reports (by decide))⟩

/-- The command has begun the job, and nothing else. -/
theorem otp_begins {j : OtpJob} (hr : (otpStart m op vsys verified).run s = s.otpBegun j) : Completes c s fun t =>
    t.dev.otpc = some j ∧ s.Sets t [(OTPC_STAT_BUSY, 1)] := by
  refine completes_run hx ?_
  rw [hr, State.otpBegun]
  exact ⟨by rw [latchEdges_otpc, State.live_dev], (((did_refl h).puts (by decide)).lived (by rfl)).latched s⟩

theorem otp_turns (hb : s.bit OTPC_STAT_BUSY = false) (ho : 2 ≤ op ∧ op ≤ 6) (hm : s.otpMay m op = false) : Completes c s fun t =>
    t.dev.otpc = some { status := 1 } ∧ s.Sets t [(OTPC_STAT_BUSY, 1), (fltBit otpcPage fltState, 1)] (perfOf otpcPage) := by
  refine completes_run hx ?_
  rw [otpStart_turned hb ho hm]
  have d : s.Did ((setFlt otpcPage fltState).run (s.put OTPC_STAT_BUSY 1)) [(OTPC_STAT_BUSY, 1), (fltBit otpcPage fltState, 1)] (perfOf otpcPage) {} :=
    ((did_refl h).puts (by decide)).setFlt (by decide) fun _ => .inr
  exact ⟨by rw [latchEdges_otpc, State.live_dev], (d.jobbed _).latched s⟩

theorem otp_errs (hb : s.bit OTPC_STAT_BUSY = false) (ho : 2 ≤ op ∧ op ≤ 6) {st : Nat} (hm : s.otpMay m op = true)
    (hc : s.otpCheck m op vsys = .error st) : Completes c s fun t => t.dev.otpc = some { status := st } ∧ s.Sets t [(OTPC_STAT_BUSY, 1)] :=
  otp_begins hx h (otpStart_checked hb ho hm hc)

theorem otp_programs (hb : s.bit OTPC_STAT_BUSY = false) (ho : 2 ≤ op ∧ op ≤ 6) {row gen : Nat} {data : List Byte}
    (hc : s.otpCheck m op vsys = .ok (row, gen, data)) : Completes c s fun t =>
      (verified = true → t.dev.otpc = some { status := 0, row := row, gen := gen, data := data } ∧ s.Sets t [(OTPC_STAT_BUSY, 1)]) ∧
      (verified = false → s.Sets t [(OTPC_STAT_BUSY, 1)] ∧ t.dev.otpc.isSome = true ∧ ∀ j, t.dev.otpc = some j →
        j.status = 0x33 ∧ j.row = row ∧ j.gen = gen ∧ j.data.length = data.length ∧
          ∀ i < data.length, octet j.data i &&& octet data i = octet j.data i) := by
  refine completes_run hx ?_
  cases verified with
  | true =>
    rw [otpStart_programs hb ho hc, State.otpBegun]
    exact ⟨fun _ => ⟨by rw [latchEdges_otpc, State.live_dev], (((did_refl h).puts (by decide)).lived (by rfl)).latched s⟩, fun hn => absurd hn (by decide)⟩
  | false =>
    rw [otpStart_fails hb ho hc]
    refine ⟨fun hn => absurd hn (by decide), fun _ => ⟨((((did_refl h).puts (by decide)).drawn _).lived (by rfl)).latched s, by rw [latchEdges_otpc, State.live_dev]; rfl, ?_⟩⟩
    intro j hj
    rw [latchEdges_otpc, State.live_dev] at hj
    obtain rfl := Option.some.inj hj
    have hlen := freeOctets_length data.length (s.put OTPC_STAT_BUSY 1).free
    refine ⟨rfl, rfl, rfl, ?_, fun i hi => ?_⟩
    · rw [failedJob, List.length_zipWith, hlen, Nat.min_self]
    · simp only [failedJob, octet, List.getD_eq_getElem?_getD, List.getElem?_zipWith]
      rw [List.getElem?_eq_getElem hi, List.getElem?_eq_getElem (hlen.symm ▸ hi)]
      simp only [Option.getD_some]
      rw [BitVec.and_assoc, BitVec.and_comm _ data[i], ← BitVec.and_assoc, BitVec.and_self]
end

/-! ### How an operation ends (R417) -/

/-- The state with octets of OTP programmed. -/
def State.burnt (s : State) : Nat → List Byte → State
  | _, [] => s
  | i, b :: l => State.burnt (Prim.run (.otp i b) s) (i + 1) l

theorem run_otpPut_bind (i : Nat) (b : List Byte) (k : Unit → M Unit) : (otpPut i b >>= k).run s = (k ()).run (s.burnt i b) := by
  induction b generalizing i s with
  | nil => rfl
  | cons b l ih =>
    rw [otpPut, run_assoc, run_act_bind, ih]
    rfl

theorem burnt_dev (i : Nat) (b : List Byte) : (s.burnt i b).dev = s.dev := by
  induction b generalizing i s with
  | nil => rfl
  | cons b l ih => exact ih _

theorem burnt_reg (i a : Nat) (b : List Byte) : (s.burnt i b).reg a = s.reg a := by
  induction b generalizing i s with
  | nil => rfl
  | cons b l ih => exact ih _

theorem burnt_within (hF : F.otp = true) (i : Nat) (b : List Byte) : s.Within F (s.burnt i b) := by
  induction b generalizing i s with
  | nil => exact s.within_refl _
  | cons b l ih =>
    have hstep : s.Within F (Prim.run (.otp i b) s) := ⟨fun _ _ => rfl, fun _ _ => rfl, fun x _ i => by cases x <;> rfl,
      fun hno => absurd hF (by rw [hno]; decide), fun _ => rfl, fun _ => rfl, fun _ => rfl, rfl⟩
    exact hstep.trans (ih _)

theorem burnt_octet (i x : Nat) (b : List Byte) :
    (s.burnt i b).otpByte x = if i ≤ x ∧ x < i + b.length then s.otpByte x ||| octet b (x - i) else s.otpByte x := by
  induction b generalizing i s with
  | nil => rw [if_neg (by simp)]; rfl
  | cons b l ih =>
    have hstep : (Prim.run (.otp i b) s).otpByte x = if x = i then s.otpByte x ||| b else s.otpByte x := by
      by_cases hx : x = i
      · subst hx
        rw [if_pos rfl]
        exact Sparse.get_set_same _ _ _ _
      · rw [if_neg hx]
        exact Sparse.get_set_other _ _ _ _ _ hx
    rw [State.burnt, ih, hstep, List.length_cons]
    obtain hx | hx | hx := Nat.lt_trichotomy x i
    · rw [if_neg (by omega), if_neg (by omega), if_neg (by omega)]
    · subst hx
      rw [if_neg (by omega), if_pos rfl, if_pos (by omega), Nat.sub_self]
      rfl
    · rw [if_neg (show x ≠ i by omega), show x - i = x - (i + 1) + 1 by omega]
      simp only [show i + 1 ≤ x ∧ x < i + 1 + l.length ↔ i ≤ x ∧ x < i + (l.length + 1) by omega]
      rfl

/-- The octets read, shown. -/
def State.rdShown (s : State) (rd : List Byte) : State :=
  if rd = [] then s else
    (((s.putReg (OTPC_RD 0) (wordOf (sliceOf rd 0 4))).putReg (OTPC_RD 1) (wordOf (sliceOf rd 4 4))).putReg (OTPC_RD 2) (wordOf (sliceOf rd 8 4))).putReg
      (OTPC_RD 3) (wordOf (sliceOf rd 12 4))

/-- The memory of a job's end: its octets shown and programmed, the block free. -/
def State.otpWritten (s : State) (j : OtpJob) : State :=
  ((s.rdShown j.rd).burnt j.row j.data).live fun d =>
    { d with otpc := none
             otpBad := if j.status = stProgFail ∧ j.row ≠ 0x010 ∧ j.row ≠ 0x020 then j.row :: d.otpBad else d.otpBad }

/-- The generation appended, shown. -/
def State.genShown (s : State) (j : OtpJob) : State :=
  if j.data ≠ [] ∧ (0x040 ≤ j.row ∧ j.row < 0x180) then s.put OTPC_STAT_GEN j.gen else s

/-- The state in which a job has ended, SYS_LIFECYCLE.ARB aside. -/
def State.otpEnded (s : State) (j : OtpJob) : State :=
  ((((s.otpWritten j).genShown j).put OTPC_STAT_STATUS j.status).put OTPC_STAT_BUSY 0).put OTPC_STAT_DONE 1

theorem otpDone_run {j : OtpJob} (hj : s.dev.otpc = some j) : otpDone.run s = (s.otpEnded j).put SYS_LIFECYCLE_ARB (s.otpEnded j).arb := by
  have hrange : List.range 4 = [0, 1, 2, 3] := (rfl)
  rw [otpDone, run_getS, hj]
  by_cases hr : j.rd = [] <;> by_cases hg : j.data ≠ [] ∧ (0x040 ≤ j.row ∧ j.row < 0x180)
  all_goals
    simp only [hr, hg, hrange, ne_eq, not_true_eq_false, not_false_eq_true, if_true, if_false, and_self, run_otpPut_bind, run_modDev_bind, run_setFld_bind,
      run_getS, run_setFld, forAll_cons, forAll_nil, run_assoc, run_wr_bind, run_nop_bind]
    rw [State.otpEnded, State.genShown, State.otpWritten, State.rdShown]
    simp only [hr, hg, ne_eq, not_false_eq_true, if_true, if_false, and_self]

theorem onesFrom_le (v k i : Nat) : onesFrom v k i ≤ k := by
  induction k generalizing i with
  | zero => exact Nat.le_refl 0
  | succ k ih =>
    rw [onesFrom]
    split
    · have := ih (i + 1); omega
    · omega

/-- The registers that a job's end writes. -/
def otpRegs : List Nat := OTPC_STAT :: SYS_LIFECYCLE :: (List.range 4).map OTPC_RD

section
variable (j : OtpJob)

theorem rdShown_dev : (s.rdShown j.rd).dev = s.dev := by
  rw [State.rdShown]
  split
  · rfl
  · rw [State.dev_putReg, State.dev_putReg, State.dev_putReg, State.dev_putReg]

theorem rdShown_octet (x : Nat) : (s.rdShown j.rd).otpByte x = s.otpByte x := by
  rw [State.rdShown]
  split
  · rfl
  · simp only [State.putReg, State.otpByte_reg]

theorem rdShown_within (hF : ∀ a ∈ otpRegs, F.regs a = true) : s.Within F (s.rdShown j.rd) := by
  rw [State.rdShown]
  split
  · exact s.within_refl _
  · rw [State.within_putReg_iff (hF _ (by decide)), State.within_putReg_iff (hF _ (by decide)), State.within_putReg_iff (hF _ (by decide)),
      State.within_putReg_iff (hF _ (by decide))]
    exact s.within_refl _

theorem otpEnded_octet (x : Nat) : (s.otpEnded j).otpByte x =
    if j.row ≤ x ∧ x < j.row + j.data.length then s.otpByte x ||| octet j.data (x - j.row) else s.otpByte x := by
  have hgen : (s.otpEnded j).otpByte x = (s.otpWritten j).otpByte x := by
    rw [State.otpEnded, State.genShown]
    split <;> simp only [State.put, State.otpByte_reg]
  rw [hgen, State.otpWritten, State.live_otpByte, burnt_octet, rdShown_octet]

theorem otpEnded_otpc : (s.otpEnded j).dev.otpc = none := by
  rw [State.otpEnded, State.dev_put, State.dev_put, State.dev_put, State.genShown]
  split
  · rw [State.dev_put, State.otpWritten, State.live_dev]
  · rw [State.otpWritten, State.live_dev]

theorem otpEnded_within (hF : ∀ a ∈ otpRegs, F.regs a = true) (ho : F.otp = true) : s.Within F (s.otpEnded j) := by
  have hw : s.Within F (s.otpWritten j) := by
    rw [State.otpWritten, State.within_live_iff rfl]
    exact (rdShown_within j hF).trans (burnt_within ho _ _)
  have hs : F.regs OTPC_STAT = true := hF _ (by decide)
  rw [State.otpEnded, State.within_put_iff hs, State.within_put_iff hs, State.within_put_iff hs, State.genShown]
  split
  · rwa [State.within_put_iff hs]
  · exact hw

theorem otpEnded_stat : (s.otpEnded j).bit OTPC_STAT_BUSY = false ∧ (s.otpEnded j).bit OTPC_STAT_DONE = true ∧
    (s.otpEnded j).fld OTPC_STAT_STATUS = j.status % 256 := by
  refine ⟨?_, ?_, ?_⟩ <;> rw [State.otpEnded]
  · rw [State.bit_apart _ (by decide), State.bit_self _ (by decide)]; rfl
  · rw [State.bit_self _ (by decide)]; rfl
  · rw [State.fld_apart _ (by decide), State.fld_apart _ (by decide), State.fld_self _ (by decide)]; rfl

theorem otpEnded_gen (h1 : j.data ≠ []) (h2 : 0x40 ≤ j.row) (h3 : j.row < 0x180) : (s.otpEnded j).fld OTPC_STAT_GEN = j.gen % 4 := by
  rw [State.otpEnded, State.fld_apart _ (by decide), State.fld_apart _ (by decide), State.fld_apart _ (by decide), State.genShown, if_pos ⟨h1, h2, h3⟩,
    State.fld_self _ (by decide)]
  rfl

theorem otpEnded_rd {k : Nat} (hk : k < 4) (hl : j.rd.length = 16) : (s.otpEnded j).reg (OTPC_RD k) = wordOf ((j.rd.drop (4 * k)).take 4) := by
  have hne : OTPC_RD k ≠ OTPC_STAT := by rw [OTPC_RD, OTPC_STAT]; omega
  have hslice : sliceOf j.rd (4 * k) 4 = (j.rd.drop (4 * k)).take 4 := by
    refine List.ext_getElem (by simp [sliceOf]; omega) fun i h1 h2 => ?_
    simp only [sliceOf, List.length_map, List.length_range] at h1
    simp [sliceOf, List.getD_eq_getElem?_getD, show 4 * k + i < j.rd.length by omega]
  have hgen : (s.otpEnded j).reg (OTPC_RD k) = (s.rdShown j.rd).reg (OTPC_RD k) := by
    rw [State.otpEnded, State.reg_put_other _ hne, State.reg_put_other _ hne, State.reg_put_other _ hne, State.genShown]
    split
    · rw [State.reg_put_other _ hne, State.otpWritten, State.live_reg, burnt_reg]
    · rw [State.otpWritten, State.live_reg, burnt_reg]
  rw [hgen, ← hslice, State.rdShown, if_neg (by intro he; rw [he] at hl; exact absurd hl (by decide))]
  match k, hk with
  | 0, _ =>
    rw [State.reg_putReg_other _ (by decide), State.reg_putReg_other _ (by decide), State.reg_putReg_other _ (by decide),
      State.reg_putReg_whole (show BitVec.ofNat 32 (maskOf (OTPC_RD 0)) = BitVec.allOnes 32 by decide)]
  | 1, _ => rw [State.reg_putReg_other _ (by decide), State.reg_putReg_other _ (by decide), State.reg_putReg_whole (show BitVec.ofNat 32 (maskOf (OTPC_RD 1)) = BitVec.allOnes 32 by decide)]
  | 2, _ => rw [State.reg_putReg_other _ (by decide), State.reg_putReg_whole (show BitVec.ofNat 32 (maskOf (OTPC_RD 2)) = BitVec.allOnes 32 by decide)]
  | 3, _ => rw [State.reg_putReg_whole (show BitVec.ofNat 32 (maskOf (OTPC_RD 3)) = BitVec.allOnes 32 by decide)]
end

theorem arb_of_octets {u : State} (h : ∀ x, t.otpByte x = u.otpByte x) : t.arb = u.arb := by
  rw [State.arb, State.arb, State.otpBytes, State.otpBytes]
  simp only [h]

theorem otpDone_ends {j : OtpJob} (hj : s.dev.otpc = some j) : Completes .otpDone s fun t =>
    (∀ i, t.otpByte i = if j.row ≤ i ∧ i < j.row + j.data.length then s.otpByte i ||| octet j.data (i - j.row) else s.otpByte i) ∧
      t.dev.otpc = none ∧ t.bit OTPC_STAT_BUSY = false ∧ t.bit OTPC_STAT_DONE = true ∧ t.fld OTPC_STAT_STATUS = j.status % 256 ∧
      (j.rd.length = 16 → ∀ k < 4, t.reg (OTPC_RD k) = wordOf ((j.rd.drop (4 * k)).take 4)) ∧
      (j.data ≠ [] → 0x40 ≤ j.row → j.row < 0x180 → t.fld OTPC_STAT_GEN = j.gen % 4) ∧
      t.fld SYS_LIFECYCLE_ARB = t.arb ∧
      s.Within { onlyRegs (OTPC_STAT :: SYS_LIFECYCLE :: (List.range 4).map OTPC_RD) with otp := true } t := by
  obtain ⟨hb, hd, hst⟩ := otpEnded_stat (s := s) j
  refine completes_run rfl ?_
  rw [otpDone_run hj]
  refine ⟨fun i => ?_, ?_, ?_, ?_, ?_, fun hl k hk => ?_, fun h1 h2 h3 => ?_, ?_, ?_⟩
  · rw [latchEdges_otpByte, State.put, State.otpByte_reg, otpEnded_octet]
  · rw [latchEdges_otpc, State.dev_put, otpEnded_otpc]
  · rw [latchEdges_bit, State.bit_put_other _ (by decide), hb]
  · rw [latchEdges_bit, State.bit_put_other _ (by decide), hd]
  · rw [latchEdges_fld, State.fld_put_other _ (by decide), hst]
  · have hne : OTPC_RD k ≠ SYS_LIFECYCLE := by rw [OTPC_RD, SYS_LIFECYCLE]; omega
    rw [latchEdges_reg, State.reg_put_other _ hne, otpEnded_rd j hk hl]
  · rw [latchEdges_fld, State.fld_put_other _ (by decide), otpEnded_gen j h1 h2 h3]
  · have harb : (latchEdges s ((s.otpEnded j).put SYS_LIFECYCLE_ARB (s.otpEnded j).arb)).arb = (s.otpEnded j).arb :=
      arb_of_octets fun x => by rw [latchEdges_otpByte, State.put, State.otpByte_reg]
    rw [latchEdges_fld, State.fld_self _ (by decide), harb]
    exact Nat.mod_eq_of_lt (Nat.lt_succ_of_le (onesFrom_le _ _ _))
  · rw [State.within_latch_iff, State.within_put_iff (by decide)]
    exact otpEnded_within j (fun a ha => decide_eq_true ha) rfl

theorem otpDone_nothing (h : s.dev.otpc = none) : Completes .otpDone s fun t => s.Within {} t :=
  completes_run rfl (by rw [otpDone, run_getS, h, State.within_latch_iff]; exact s.within_refl _)

/-! ### The operations (R60, R362, R401, R416, R417) -/

/-- The rows that PROGRAM may write. -/
theorem otpFree_iff (off : Nat) : (off % 16 = 0 ∧ (off = 0 ∨ off = 0x30 ∨ 0x1C0 ≤ off)) ↔
    ¬ (off % 16 ≠ 0 ∨ (0x010 ≤ off ∧ off < 0x030) ∨ (0x040 ≤ off ∧ off < 0x1C0)) := by omega

theorem otpReadJob_param (ho : s.fld OTPC_ADDR_OFFSET % 16 ≠ 0) : s.otpReadJob = { status := 3 } := by rw [State.otpReadJob, if_pos ho]

theorem otpReadJob_key (ho : s.fld OTPC_ADDR_OFFSET % 16 = 0) (h1 : 0x200 ≤ s.fld OTPC_ADDR_OFFSET) (h2 : s.fld OTPC_ADDR_OFFSET < 0x300) :
    s.otpReadJob = { status := 0x22, rd := List.replicate 16 0 } := by
  have hk : keyRow (s.fld OTPC_ADDR_OFFSET) = some ((s.fld OTPC_ADDR_OFFSET - 0x200) / 32) := if_pos ⟨h1, h2⟩
  rw [State.otpReadJob, if_neg (by omega), hk, if_pos (by rfl)]

theorem otpReadJob_row (ho : s.fld OTPC_ADDR_OFFSET % 16 = 0) (h : s.fld OTPC_ADDR_OFFSET < 0x200 ∨ 0x300 ≤ s.fld OTPC_ADDR_OFFSET) :
    s.otpReadJob = { status := 0, rd := if 0x300 ≤ s.fld OTPC_ADDR_OFFSET then List.replicate 16 0 else s.otpBytes (s.fld OTPC_ADDR_OFFSET) 16 } := by
  have hk : keyRow (s.fld OTPC_ADDR_OFFSET) = none := if_neg (by omega)
  rw [State.otpReadJob, if_neg (by omega), hk, if_neg (by decide)]
  rfl

section
variable (h : s.Inv) (hb : s.bit OTPC_STAT_BUSY = false)
include h hb

/-- What PROGRAM, APPEND_REG and the others have begun once their checks have passed. -/
abbrev State.OtpPrograms (s t : State) (verified : Bool) (row gen : Nat) (data : List Byte) : Prop :=
  (verified = true → t.dev.otpc = some { status := 0, row := row, gen := gen, data := data } ∧ s.Sets t [(OTPC_STAT_BUSY, 1)]) ∧
  (verified = false → s.Sets t [(OTPC_STAT_BUSY, 1)] ∧ t.dev.otpc.isSome = true ∧ ∀ j, t.dev.otpc = some j →
    j.status = 0x33 ∧ j.row = row ∧ j.gen = gen ∧ j.data.length = data.length ∧ ∀ i < data.length, octet j.data i &&& octet data i = octet j.data i)

/-- A job has been begun. -/
abbrev State.OtpBegun (s t : State) (j : OtpJob) : Prop := t.dev.otpc = some j ∧ s.Sets t [(OTPC_STAT_BUSY, 1)]

theorem otpRead_begins {j : OtpJob} (hj : s.otpReadJob = j) : Completes (.otpRead m) s (s.OtpBegun · j) :=
  otp_begins (show OtpCommand (.otpRead m) s m 1 0 true from rfl) h (by rw [otpStart_read hb, hj])

theorem otpProgram_checked (hm : s.otpMay m 2 = true) :
    let off := s.fld OTPC_ADDR_OFFSET
    let free := off % 16 = 0 ∧ (off = 0 ∨ off = 0x30 ∨ 0x1C0 ≤ off)
    (¬ free → Completes (.otpProgram m vsys verified) s (s.OtpBegun · { status := 3 })) ∧
    (free → s.otpUsed off = true → Completes (.otpProgram m vsys verified) s (s.OtpBegun · { status := 8 })) ∧
    (free → s.otpUsed off = false → s.keyOrderBad off = true → Completes (.otpProgram m vsys verified) s (s.OtpBegun · { status := 1 })) ∧
    (free → s.otpUsed off = false → s.keyOrderBad off = false → 3000 ≤ vsys →
      Completes (.otpProgram m vsys verified) s (s.OtpPrograms · verified off 0 s.otpWd)) := by
  have hx : OtpCommand (.otpProgram m vsys verified) s m 2 vsys verified := rfl
  have ho : 2 ≤ 2 ∧ 2 ≤ 6 := by decide
  have hc := otpCheck_program m vsys hm
  simp only [otpFree_iff] at hc ⊢
  refine ⟨fun hf => ?_, fun hf hu => ?_, fun hf hu hk => ?_, fun hf hu hk hv => ?_⟩
  · exact otp_errs hx h hb ho hm (hc.trans (if_pos (not_not.mp hf)))
  · exact otp_errs hx h hb ho hm (hc.trans (by rw [if_neg hf, if_pos hu]))
  · exact otp_errs hx h hb ho hm (hc.trans (by rw [if_neg hf, hu, if_neg (by decide), if_pos hk]))
  · exact otp_programs hx h hb ho (hc.trans (by rw [if_neg hf, hu, if_neg (by decide), hk, if_neg (by decide), if_neg (by omega)]))

theorem otpAppend_checked {c : Instr} (hx : OtpCommand c s m op vsys verified) (hop : op = 3 ∨ op = 4) {base : Nat} {stricter : Bool}
    (hbase : base = if op = 3 then regBase (s.fld OTPC_ADDR_PROF) else govBase)
    (hs : stricter = if op = 3 then regStricter s.otpWd (s.newestRow base) else govStricter s.otpWd (s.newestRow base)) (hm : s.otpMay m op = true) :
    (s.blankGen base = none → Completes c s (s.OtpBegun · { status := 8 })) ∧
    (∀ g, s.blankGen base = some g →
      (bitOf (octet s.otpWd 3).toNat 7 = false ∨ (s.newestGen base ≠ none ∧ stricter = false) → Completes c s (s.OtpBegun · { status := 3 })) ∧
      (bitOf (octet s.otpWd 3).toNat 7 = true → s.newestGen base = none ∨ stricter = true →
        (vsys < 3000 → Completes c s (s.OtpBegun · { status := 0x30 })) ∧
        (3000 ≤ vsys → Completes c s (s.OtpPrograms · verified (base + 16 * g) g s.otpWd)))) := by
  have ho : 2 ≤ op ∧ op ≤ 6 := by omega
  have hc := otpCheck_append m vsys hop hm hbase hs
  refine ⟨fun hg => otp_errs hx h hb ho hm (hc.trans (if_pos hg)), fun g hg => ?_⟩
  rw [if_neg (by rw [hg]; exact Option.some_ne_none g), hg] at hc
  refine ⟨fun hno => otp_errs hx h hb ho hm (hc.trans (if_pos (hno.imp_left fun h => by rw [h]; rfl))), fun hv hok => ?_⟩
  have hpass : ¬ ((!bitOf (octet s.otpWd 3).toNat 7) = true ∨ (s.newestGen base ≠ none ∧ stricter = false)) := by
    rintro (hno | ⟨hn, hst⟩)
    · rw [hv] at hno; exact absurd hno (by decide)
    · rcases hok with hok | hok
      · exact hn hok
      · rw [hok] at hst; exact absurd hst (by decide)
  rw [if_neg hpass] at hc
  exact ⟨fun hlow => otp_errs hx h hb ho hm (hc.trans (if_pos hlow)), fun hhigh => otp_programs hx h hb ho (hc.trans (if_neg (by omega)))⟩

theorem otpAdvance_checked (hm : s.otpMay m 5 = true) :
    (s.lifecycle = 3 → Completes (.advance m vsys verified) s (s.OtpBegun · { status := 8 })) ∧
    (s.lifecycle < 3 → 3000 ≤ vsys →
      Completes (.advance m vsys verified) s (s.OtpPrograms · verified 0x10 0 [BitVec.ofNat 8 (2 ^ s.lifecycle)])) := by
  have hx : OtpCommand (.advance m vsys verified) s m 5 vsys verified := rfl
  have ho : 2 ≤ 5 ∧ 5 ≤ 6 := by decide
  have hc := otpCheck_advance m vsys hm
  exact ⟨fun hl => otp_errs hx h hb ho hm (hc.trans (if_pos hl)),
    fun hl hv => otp_programs hx h hb ho (hc.trans (by rw [if_neg (by omega), if_neg (by omega)]; rfl))⟩

theorem otpRaise_checked (hm : s.otpMay m 6 = true) :
    let n := (s.reg (OTPC_WD 0)).toNat % 64
    (n < s.arb → Completes (.raiseArb m vsys verified) s (s.OtpBegun · { status := 3 })) ∧
    (s.arb ≤ n → 3000 ≤ vsys → Completes (.raiseArb m vsys verified) s (s.OtpPrograms · verified 0x20 0 (leBytes 8 (2 ^ n - 1)))) := by
  have hx : OtpCommand (.raiseArb m vsys verified) s m 6 vsys verified := rfl
  have ho : 2 ≤ 6 ∧ 6 ≤ 6 := by decide
  have hc := otpCheck_raise m vsys hm
  exact ⟨fun hl => otp_errs hx h hb ho hm (hc.trans (if_pos hl)),
    fun hl hv => otp_programs hx h hb ho (hc.trans (by rw [if_neg (by omega), if_neg (by omega)]))⟩
end

/-- Settles O47: what each operation of OTPC begins and what its checks find, and how one ends. -/
theorem otpOperations : Obligations.OtpOperations := by
  intro m vsys verified s h
  have hread : OtpCommand (.otpRead m) s m 1 0 true := rfl
  have hprog : OtpCommand (.otpProgram m vsys verified) s m 2 vsys verified := rfl
  have hreg : OtpCommand (.appendReg m vsys verified) s m 3 vsys verified := rfl
  have hgov : OtpCommand (.appendGov m vsys verified) s m 4 vsys verified := rfl
  have hadv : OtpCommand (.advance m vsys verified) s m 5 vsys verified := rfl
  have harb : OtpCommand (.raiseArb m vsys verified) s m 6 vsys verified := rfl
  refine ⟨fun hb => ⟨otp_busy hread h hb, otp_busy hprog h hb, otp_busy hreg h hb, otp_busy hgov h hb, otp_busy hadv h hb, otp_busy harb h hb⟩,
    fun hb => ?_, otpDone_nothing, fun j => otpDone_ends⟩
  refine ⟨fun ho => otpRead_begins h hb (otpReadJob_param ho), fun ho h1 h2 => otpRead_begins h hb (otpReadJob_key ho h1 h2),
    fun ho h1 => otpRead_begins h hb ((otpReadJob_row ho (.inr h1)).trans (by rw [if_pos h1])),
    fun ho h1 => otpRead_begins h hb ((otpReadJob_row ho (.inl h1)).trans (by rw [if_neg (by omega)])),
    otp_turns hprog h hb (by decide), otp_turns hreg h hb (by decide), otp_turns hgov h hb (by decide), otp_turns hadv h hb (by decide),
    otp_turns harb h hb (by decide), otpProgram_checked h hb, otpAppend_checked h hb hreg (.inl rfl) rfl rfl,
    otpAppend_checked h hb hgov (.inr rfl) rfl rfl, otpAdvance_checked h hb, otpRaise_checked h hb⟩

end Sys2Proof.Machine
end

section
/-!
The radio's small operations, each as the state it leaves; requests and channel changes while nothing else is on (R40–R45, R47, R68,
R69).
-/
namespace Sys2Proof.Machine
open Sys2Proof.Reg

variable {s t : State} {F : Foot} {l : List (Fld × Nat)} {noted : List Nat} {goal next : Nat} {link : Bool} {temp : Int}

/-! ### States that the radio's operations leave -/

/-- SYN_LOCK and its mirrors set (R24). -/
def State.locked (s : State) (b : Bool) : State := (s.put RCTL_STAT_LOCK (b2n b)).put SYNTH_STAT_LOCK (b2n b)

/-- BUSY set on the way to a state (R68). -/
def State.busied (s : State) (goal : Nat) : State := (s.put RCTL_STAT_BUSY 1).put RCTL_STAT_TARGET goal

/-- A request completed (R43). -/
def State.answered (s : State) (r : RadioReq) (st : Nat) : State :=
  (emit rctlPage 0xBC).run ((s.put RCTL_CMDSTAT_STATUS st).put RCTL_CMDSTAT_TIME (min 0xFFFF ((s.dev.time.link - r.at_) / 40)))

/-- A request refused (R40). -/
def State.turnedDown (s : State) : State :=
  (emit rctlPage 0xBC).run ((setFlt rctlPage fltState).run
    (((s.put RCTL_CMDSTAT_REFUSED (min 255 (s.fld RCTL_CMDSTAT_REFUSED + 1))).put RCTL_CMDSTAT_STATUS 1).put RCTL_CMDSTAT_TIME 0))

/-- A state of the radio entered (R42, R67). -/
def State.entered (s : State) (st : Nat) : State :=
  (s.put RCTL_STAT_STATE st).live fun d => { d with radio := { d.radio with fem := (s.put RCTL_STAT_STATE st).femOf st } }

/-- The newest use of the cache entry that a tune hits (R48). -/
def State.cacheUsed (s : State) : Option CalEntry → State
  | some e => s.live fun d => { d with radio := { d.radio with cache := e :: d.radio.cache.erase e } }
  | none => s

/-- Did the cache miss (R48)? -/
def State.tuneMisses (s : State) : Bool := (s.cacheHit (freqWord s.synthHz)).isNone

/-- The count of the cache that a tune moves. -/
def State.tuneCount (s : State) : Fld := if (s.cacheHit (freqWord s.synthHz)).isSome then SYNTH_CACHE_HITS else SYNTH_CACHE_MISSES

/-- A tune begun (R47, R48). -/
def State.tuning (s : State) : State :=
  (((((((s.locked false).live fun d => { d with radio := { d.radio with word := freqWord s.synthHz } }).put SYNTH_FREQ_FREQ
    (wordHz (freqWord s.synthHz)))).cacheUsed (s.cacheHit (freqWord s.synthHz))).put SYNTH_STAT_HIT
      (b2n (s.cacheHit (freqWord s.synthHz)).isSome)).put SYNTH_STAT_CAL (b2n s.tuneMisses)).put s.tuneCount (min 0xFFFF (s.fld s.tuneCount + 1))

/-- A walk begun (R42). -/
def State.walkSet (s : State) (w : Walk) : State := s.live fun d => { d with radio := { d.radio with walk := some w } }

/-- No loss of lock is pending. -/
def State.unlockOver (s : State) : State := s.live fun d => { d with radio := { d.radio with unlock := false } }

/-- The die temperature noted. -/
def State.warmed (s : State) (temp : Int) : State := s.live fun d => { d with radio := { d.radio with temp := temp } }

section
variable (k : Unit → M Unit)
theorem setLock_run (b : Bool) : (setLock b).run s = s.locked b := by rw [setLock, run_setFld_bind, run_setFld, State.locked]
theorem setLock_bind (b : Bool) : (setLock b >>= k).run s = (k ()).run (s.locked b) := by
  rw [setLock, run_assoc, run_setFld_bind, run_setFld_bind, State.locked]
theorem setBusy_bind : (setBusy goal >>= k).run s = (k ()).run (s.busied goal) := by
  rw [setBusy, run_assoc, run_setFld_bind, run_setFld_bind, State.busied]
theorem setIdle_run : setIdle.run s = s.idled := by rw [setIdle, run_getS, run_setFld_bind, run_setFld, State.idled]
theorem setIdle_bind : (setIdle >>= k).run s = (k ()).run s.idled := by
  rw [setIdle, run_assoc, run_getS, run_assoc, run_setFld_bind, run_setFld_bind, State.idled]
theorem reqDone_run (r : RadioReq) (st : Nat) : (reqDone r st).run s = s.answered r st := by
  rw [reqDone, run_getS, run_setFld_bind, run_setFld_bind, State.answered]
theorem reqDone_bind (r : RadioReq) (st : Nat) : (reqDone r st >>= k).run s = (k ()).run (s.answered r st) := by
  rw [reqDone, run_assoc, run_getS, run_assoc, run_setFld_bind, run_assoc, run_setFld_bind, run_emit_bind, State.answered]
theorem reqRefused_run : reqRefused.run s = s.turnedDown := by
  rw [reqRefused, run_getS, run_setFld_bind, run_setFld_bind, run_setFld_bind, run_setFlt_bind, State.turnedDown]
theorem enterState_bind (st : Nat) : (enterState st >>= k).run s = (k ()).run (s.entered st) := by
  rw [enterState, run_assoc, run_setFld_bind, run_assoc, run_getS, run_modRadio_bind, State.entered]
end

theorem tuneStart_bind (k : Bool → M Unit) : (tuneStart >>= k).run s = (k s.tuneMisses).run s.tuning := by
  rw [tuneStart, run_assoc, run_getS, State.tuning, State.tuneMisses, State.tuneCount]
  simp only [run_assoc, setLock_bind, run_modRadio_bind, run_setFld_bind]
  generalize s.cacheHit (freqWord s.synthHz) = hit
  cases hit with
  | none => simp only [run_assoc, run_nop_bind, run_setFld_bind, run_pure_bind, State.cacheUsed]
  | some e => simp only [run_assoc, run_modRadio_bind, run_setFld_bind, run_pure_bind, State.cacheUsed]

theorem waitingCut_bind (h : s.dev.radio.waiting = none) (st : Nat) (k : Unit → M Unit) : (waitingCut st >>= k).run s = (k ()).run s :=
  (gives_waitingCut h).run_bind_to k
theorem walkCut_bind (h : s.dev.radio.walk = none) (st : Nat) (k : Unit → M Unit) : (walkCut st >>= k).run s = (k ()).run s :=
  (gives_walkCut h).run_bind_to k
theorem cutAir_bind (h : s.onAir = none) (st : Nat) (k : Bool → M Unit) : (cutAir st >>= k).run s = (k false).run s :=
  (gives_cutAir h).run_bind_eq k

/-! ### What these states show -/

theorem State.Did.locked (h : s.Did t l noted F) (b : Bool) :
    s.Did (t.locked b) (l ++ [(RCTL_STAT_LOCK, b2n b)] ++ [(SYNTH_STAT_LOCK, b2n b)]) noted F := (((h.puts (by decide))).puts (by decide))
theorem State.Did.busied (h : s.Did t l noted F) (goal : Nat) :
    s.Did (t.busied goal) (l ++ [(RCTL_STAT_BUSY, 1)] ++ [(RCTL_STAT_TARGET, goal)]) noted F := (((h.puts (by decide))).puts (by decide))
theorem State.Did.idled (h : s.Did t l noted F) : s.Did t.idled (l ++ [(RCTL_STAT_BUSY, 0)] ++ [(RCTL_STAT_TARGET, t.radio)]) noted F := (((h.puts (by decide))).puts (by decide))
theorem State.Did.answered (h : s.Did t l noted F) (hn : ∀ a ∈ evRegs rctlPage, F.regs a = true ∨ a ∈ noted) (r : RadioReq) (st : Nat) :
    s.Did (t.answered r st)
      (l ++ [(RCTL_CMDSTAT_STATUS, st)] ++ [(RCTL_CMDSTAT_TIME, min 0xFFFF ((t.dev.time.link - r.at_) / 40))]) noted F :=
  (((h.puts (by decide))).puts (by decide)).emit_noted hn
theorem State.Did.walkSet (h : s.Did t l noted F) (w : Walk) : s.Did (t.walkSet w) l noted F := (h.lived (by rfl))
theorem State.Did.unlockOver (h : s.Did t l noted F) : s.Did t.unlockOver l noted F := (h.lived (by rfl))
theorem State.Did.warmed (h : s.Did t l noted F) (temp : Int) : s.Did (t.warmed temp) l noted F := (h.lived (by rfl))

theorem locked_dev (b : Bool) : (s.locked b).dev = s.dev := by rw [State.locked, State.dev_put, State.dev_put]
theorem busied_dev : (s.busied goal).dev = s.dev := by rw [State.busied, State.dev_put, State.dev_put]
theorem idled_dev : s.idled.dev = s.dev := by rw [State.idled, State.dev_put, State.dev_put]
theorem answered_dev (r : RadioReq) (st : Nat) : (s.answered r st).dev = { s.dev with evLost := (s.answered r st).dev.evLost } := by
  rw [State.answered, emit_dev, State.dev_put, State.dev_put]
theorem answered_radio (r : RadioReq) (st : Nat) : (s.answered r st).dev.radio = s.dev.radio := by rw [answered_dev]
theorem turnedDown_radio : s.turnedDown.dev.radio = s.dev.radio := by
  rw [State.turnedDown, emit_dev, setFlt_dev, State.dev_put, State.dev_put, State.dev_put]

theorem answered_reg {a : Nat} (h : a ∉ RCTL_CMDSTAT :: evRegs rctlPage) (r : RadioReq) (st : Nat) : (s.answered r st).reg a = s.reg a := by
  have hc : a ≠ RCTL_CMDSTAT := List.ne_of_not_mem_cons h
  rw [State.answered, emit_reg fun hm => h (List.mem_cons_of_mem _ hm), State.reg_put_other _ hc, State.reg_put_other _ hc]
theorem answered_fld {f : Fld} (h : f.addr ∉ RCTL_CMDSTAT :: evRegs rctlPage) (r : RadioReq) (st : Nat) : (s.answered r st).fld f = s.fld f := by
  rw [State.fld, answered_reg h, State.fld]
theorem answered_bit {f : Fld} (h : f.addr ∉ RCTL_CMDSTAT :: evRegs rctlPage) (r : RadioReq) (st : Nat) : (s.answered r st).bit f = s.bit f := by
  rw [State.bit, answered_fld h, State.bit]
theorem answered_status (r : RadioReq) (st : Nat) : (s.answered r st).fld RCTL_CMDSTAT_STATUS = st % 256 := by
  rw [State.answered, emit_fld (by decide), State.fld_apart _ (by decide), State.fld_self _ (by decide)]
  rfl
theorem answered_time (r : RadioReq) (st : Nat) : (s.answered r st).fld RCTL_CMDSTAT_TIME = min 0xFFFF ((s.dev.time.link - r.at_) / 40) := by
  rw [State.answered, emit_fld (by decide), State.fld_self _ (by decide)]
  exact Nat.mod_eq_of_lt (by show _ < 2 ^ 16; omega)
theorem within_answered_iff {r : RadioReq} {st : Nat} (h : ∀ a ∈ RCTL_CMDSTAT :: evRegs rctlPage, F.regs a = true) :
    s.Within F (t.answered r st) ↔ s.Within F t := by
  have hc : F.regs RCTL_CMDSTAT = true := h _ List.mem_cons_self
  rw [State.answered, State.within_emit_iff fun a ha => h a (List.mem_cons_of_mem _ ha), State.within_put_iff hc, State.within_put_iff hc]
theorem within_idled_iff (h : F.regs RCTL_STAT = true) : s.Within F t.idled ↔ s.Within F t := by
  rw [State.idled, State.within_put_iff h, State.within_put_iff h]
theorem within_busied_iff (h : F.regs RCTL_STAT = true) : s.Within F (t.busied goal) ↔ s.Within F t := by
  rw [State.busied, State.within_put_iff h, State.within_put_iff h]
theorem within_locked_iff {b : Bool} (h : F.regs RCTL_STAT = true) (h' : F.regs SYNTH_STAT = true) : s.Within F (t.locked b) ↔ s.Within F t := by
  rw [State.locked, State.within_put_iff h', State.within_put_iff h]
theorem within_turnedDown_iff (h : ∀ a ∈ RCTL_CMDSTAT :: evRegs rctlPage, F.regs a = true) : s.Within F t.turnedDown ↔ s.Within F t := by
  have hc : F.regs RCTL_CMDSTAT = true := h _ List.mem_cons_self
  have he : ∀ a ∈ evRegs rctlPage, F.regs a = true := fun a ha => h a (List.mem_cons_of_mem _ ha)
  rw [State.turnedDown, State.within_emit_iff he, State.within_setFlt_iff he, State.within_put_iff hc, State.within_put_iff hc, State.within_put_iff hc]
theorem turnedDown_status : s.turnedDown.fld RCTL_CMDSTAT_STATUS = 1 := by
  rw [State.turnedDown, emit_fld (by decide), setFlt_fld (by decide), State.fld_apart _ (by decide), State.fld_self _ (by decide)]
  rfl
/-- An event on its way leaves every bit but the one for a latch that was still full (R319). -/
theorem emit_bit_apart {p e : Nat} {f : Fld} (h : (fltBit p fltOvr).apart f = true) (hn : f.addr ∉ perfRegs p) :
    ((emit p e).run s).bit f = s.bit f := by
  rw [emit, run_getS, run_ite]
  split
  · rw [run_act_bind, setFlt_bit_apart h hn]
    rfl
  · rw [State.bit, State.fld, (gives_emitNow (s := s) (p := p) (e := e)).run.1.reg hn, State.bit, State.fld]

theorem turnedDown_flt : s.turnedDown.bit (fltBit rctlPage fltState) = true := by
  rw [State.turnedDown, emit_bit_apart (by decide) (by decide), setFlt_bit_set ⟨by decide, by decide, by decide⟩]
theorem idled_radio : s.idled.radio = s.radio := by
  rw [State.radio, State.idled, State.fld_apart _ (by decide), State.fld_apart _ (by decide), State.radio]

/-- What a tune leaves apart from the registers it writes. -/
theorem cacheUsed_dev (e : Option CalEntry) : ∃ c, (s.cacheUsed e).dev = { s.dev with radio := { s.dev.radio with cache := c } } := by
  cases e <;> exact ⟨_, rfl⟩

/-- A tune's word and its use of the cache, after lock fell, are all it does to the devices. -/
theorem tuned_dev (w n : Nat) (hit : Option CalEntry) :
    ∃ c, ((((s.locked false).live fun d => { d with radio := { d.radio with word := w } }).put SYNTH_FREQ_FREQ n).cacheUsed hit).dev
      = { s.dev with radio := { s.dev.radio with word := w, cache := c } } := by
  obtain ⟨c, hc⟩ := cacheUsed_dev (s := ((s.locked false).live fun d => { d with radio := { d.radio with word := w } }).put SYNTH_FREQ_FREQ n) hit
  refine ⟨c, hc.trans ?_⟩
  rw [State.dev_put, State.live_dev, locked_dev]

theorem tuning_dev : ∃ c, s.tuning.dev = { s.dev with radio := { s.dev.radio with word := freqWord s.synthHz, cache := c } } := by
  rw [State.tuning, State.dev_put, State.dev_put, State.dev_put]
  exact tuned_dev _ _ _

/-! ### BUSY, TARGET and the tune, read back -/

theorem busied_busy : (s.busied goal).bit RCTL_STAT_BUSY = true := by
  rw [State.busied, State.bit_apart _ (by decide), State.bit_self _ (by decide)]
  decide
theorem busied_target (h : goal < 8) : (s.busied goal).fld RCTL_STAT_TARGET = goal := by
  rw [State.busied, State.fld_self _ (by decide)]
  exact Nat.mod_eq_of_lt h
theorem busied_bit {f : Fld} (h : RCTL_STAT_BUSY.apart f = true) (h' : RCTL_STAT_TARGET.apart f = true) : (s.busied goal).bit f = s.bit f := by
  rw [State.busied, State.bit_apart _ h', State.bit_apart _ h]
theorem busied_fld {f : Fld} (h : RCTL_STAT_BUSY.apart f = true) (h' : RCTL_STAT_TARGET.apart f = true) : (s.busied goal).fld f = s.fld f := by
  rw [State.busied, State.fld_apart _ h', State.fld_apart _ h]
theorem busied_reg {a : Nat} (h : a ≠ RCTL_STAT) : (s.busied goal).reg a = s.reg a := by
  rw [State.busied, State.reg_put_other _ h, State.reg_put_other _ h]
theorem locked_lock (b : Bool) : (s.locked b).bit RCTL_STAT_LOCK = b := by
  rw [State.locked, State.bit_apart _ (by decide), State.bit_self _ (by decide)]
  cases b <;> decide

theorem cacheUsed_reg (e : Option CalEntry) (a : Nat) : (s.cacheUsed e).reg a = s.reg a := by cases e <;> rfl
theorem tuneCount_addr : s.tuneCount.addr = SYNTH_CACHE := by
  rw [State.tuneCount]
  split <;> rfl

/-- A tune leaves the registers of the radio's page that it does not name. -/
theorem tuning_reg {a : Nat} (h : a ∉ [SYNTH_STAT, SYNTH_FREQ, SYNTH_CACHE]) : s.tuning.reg a = (s.locked false).reg a := by
  simp only [List.mem_cons, List.not_mem_nil, or_false, not_or] at h
  obtain ⟨hs, hf, hc⟩ := h
  rw [State.tuning, State.reg_put_other _ (by rw [tuneCount_addr]; exact hc), State.reg_put_other _ (by exact hs), State.reg_put_other _ (by exact hs),
    cacheUsed_reg, State.reg_put_other _ (by exact hf), State.live_reg]
theorem tuning_bit {f : Fld} (h : f.addr ∉ [SYNTH_STAT, SYNTH_FREQ, SYNTH_CACHE]) : s.tuning.bit f = (s.locked false).bit f := by
  rw [State.bit, State.fld, tuning_reg h, State.bit, State.fld]
theorem tuning_lock : s.tuning.bit RCTL_STAT_LOCK = false := by rw [tuning_bit (by decide), locked_lock]
theorem tuning_freq : s.tuning.fld SYNTH_FREQ_FREQ = wordHz (freqWord s.synthHz) % 2 ^ 30 := by
  rw [State.tuning, State.fld, State.reg_put_other _ (by rw [tuneCount_addr]; decide), ← State.fld, State.fld_apart _ (by decide),
    State.fld_apart _ (by decide), State.fld, cacheUsed_reg, ← State.fld, State.fld_self _ (by decide)]
  rfl
theorem within_cacheUsed_iff {e : Option CalEntry} : s.Within F (t.cacheUsed e) ↔ s.Within F t := by
  cases e
  · exact Iff.rfl
  · exact State.within_live_iff rfl
theorem within_tuning_iff (h : ∀ a ∈ [RCTL_STAT, SYNTH_STAT, SYNTH_FREQ, SYNTH_CACHE], F.regs a = true) : s.Within F t.tuning ↔ s.Within F t := by
  have hs : F.regs SYNTH_STAT = true := h _ (by simp)
  have hf : F.regs SYNTH_FREQ = true := h _ (by simp)
  have hc : F.regs SYNTH_CACHE = true := h _ (by simp)
  rw [State.tuning, State.within_put_iff (by rw [tuneCount_addr]; exact hc), State.within_put_iff hs, State.within_put_iff hs, within_cacheUsed_iff,
    State.within_put_iff hf, State.within_live_iff rfl, within_locked_iff (h _ (by simp)) hs]

/-! ### Steps of a walk, requests and cuts -/

section
variable {s : State} {r : RadioReq} {req : Option RadioReq} {retune : Bool}

theorem stepStart_down (hr : s.radio ≠ 3) (hn : next < 2) :
    (stepStart next goal retune req).run s = ((s.locked false).busied goal).walkSet { next := next, goal := goal, retune := retune, req := req } := by
  have h2 : (next == 2) = false := by simp; omega
  simp only [stepStart, run_getS, if_neg hr, if_pos hn, setLock_bind, h2, Bool.false_and, Bool.false_eq_true, if_false, run_pure_bind,
    setBusy_bind, run_modRadio]
  simp [State.walkSet]

theorem stepStart_tune (hr : s.radio = 1) :
    (stepStart 2 goal retune req).run s
      = (s.tuning.busied goal).walkSet { next := 2, goal := goal, tunes := true, retune := false, miss := s.tuneMisses, req := req } := by
  have h3 : s.radio ≠ radRx := by rw [hr]; decide
  have ht : (2 == 2 && (s.radio == 1 || s.radio == 2 && retune)) = true := by simp [hr]
  simp only [stepStart, run_getS, if_neg h3, if_neg (show ¬ 2 < 2 by decide), ht, if_true, tuneStart_bind, setBusy_bind, run_modRadio]
  simp [State.walkSet]

theorem radioCut_stay (hq : s.Quiet) (hb : s.dev.radio.bowDead = false) (hg : s.radio = goal) :
    (radioCut goal (some r)).run s = s.unlockOver.idled.answered r 0 := by
  have hr : (s.unlockOver).radio = goal := hg
  rw [radioCut, waitingCut_bind hq.waiting, run_getS, walkCut_bind hq.walk, cutAir_bind (State.onAir_none hq.jobs), run_modRadio_bind, run_getS,
    if_neg (by simp [hb]), if_pos ⟨hr, by simp [hq.walk], by decide⟩, setIdle_bind, reqDone_run, State.unlockOver]

theorem radioCut_leave (hw : s.dev.radio.waiting = none) (hk : s.dev.radio.walk = none) (hj : s.dev.tx.jobs = []) (hb : s.dev.radio.bowDead = false) (hg : s.radio ≠ goal) :
    (radioCut goal req).run s = (stepStart (if s.radio = 1 ∧ goal = 0 then 0 else 1) goal false req).run s.unlockOver := by
  have hr : s.unlockOver.radio ≠ goal := hg
  rw [radioCut.eq_def, waitingCut_bind hw, run_getS, walkCut_bind hk, cutAir_bind (State.onAir_none hj), run_modRadio_bind,
    run_getS, if_neg (by simp [hb]), if_neg (fun h => hr h.1)]
  simp only [hk, Option.isSome_none, Bool.not_false, and_true]
  rfl

theorem carryOut_off (h2 : 2 ≤ r.goal) (hk : s.synthOk = false) : (carryOut r).run s = s.idled.answered r 3 := by
  rw [carryOut, run_getS, if_pos ⟨h2, by simp [hk]⟩, setIdle_bind, reqDone_run]

theorem carryOut_met (hk : 2 ≤ r.goal → s.synthOk = true) (hw : walkNext s.radio r.goal r.retune = none) :
    (carryOut r).run s = s.idled.answered r 0 := by
  rw [carryOut, run_getS, if_neg (fun h => by simp [hk h.1] at h), hw]
  exact (setIdle_bind _).trans (reqDone_run _ _)

theorem carryOut_walk (hk : 2 ≤ r.goal → s.synthOk = true) (hw : walkNext s.radio r.goal r.retune = some next) :
    (carryOut r).run s = (stepStart next r.goal r.retune (some r)).run s := by
  rw [carryOut, run_getS, if_neg (fun h => by simp [hk h.1] at h), hw]

/-- A request that neither is refused nor asks for less than SYN is carried out when it is accepted (R40, R43). -/
theorem radioReq_up (ho : s.bit RCTL_STAT_OWNER = link) (hb : s.dev.radio.bowDead = false) (hu : s.bit RCTL_STAT_UCODE_OK = true)
    (hy : s.bit RCTL_STAT_BUSY = false) (hr : s.radio ≤ 3) (h2 : 2 ≤ goal) (h3 : goal ≤ 3) :
    (radioReq goal false link).run s = (carryOut { goal := goal, retune := false, link := link, at_ := s.dev.time.link }).run s := by
  rw [radioReq, run_getS, if_neg (by simp [ho, hb, hu]), if_neg (by omega), if_neg (by omega),
    if_pos ⟨by simp [State.radioIdle, hy], by simp only [radTx]; omega⟩]

theorem radioReq_down (ho : s.bit RCTL_STAT_OWNER = link) (hb : s.dev.radio.bowDead = false)
    (hu : s.bit RCTL_STAT_UCODE_OK = true ∨ goal = 0) (h1 : goal ≤ 1) :
    (radioReq goal false link).run s = (radioCut goal (some { goal := goal, retune := false, link := link, at_ := s.dev.time.link })).run s := by
  rw [radioReq, run_getS, if_neg (by rcases hu with hu | hu <;> simp [ho, hb, hu]), if_neg (by omega), if_pos ⟨h1, by decide⟩]

theorem radioReq_refused
    (h : s.bit RCTL_STAT_OWNER ≠ link ∨ s.dev.radio.bowDead = true ∨ (s.bit RCTL_STAT_UCODE_OK = false ∧ goal ≠ 0)) :
    (radioReq goal retune link).run s = s.turnedDown := by
  rw [radioReq, run_getS, if_pos (by rcases h with h | h | h <;> simp [h]), reqRefused_run]
end

end Sys2Proof.Machine
end

section
/-!
Radio requests, channel changes and the cache's flush, with the link side at rest (R40–R45, R47, R68, R69).
-/
namespace Sys2Proof.Machine
open Sys2Proof.Reg

variable {s t : State} {F : Foot} {l : List (Fld × Nat)} {noted : List Nat} {goal next : Nat} {link : Bool} {temp : Int} {x : Nat × Instr}
  {P : State → Prop}

/-- The four requests, each with the state it asks for. -/
def radioCmds (link : Bool) (temp : Int) : List (Nat × Instr) :=
  [(0, .radioRequestSleep link temp), (1, .radioRequestStby link temp), (2, .radioRequestSyn link temp), (3, .radioRequestRx link temp)]

theorem goal_le_three (hx : x ∈ radioCmds link temp) : x.1 ≤ 3 := by
  simp only [radioCmds, List.mem_cons, List.not_mem_nil, or_false] at hx
  rcases hx with rfl | rfl | rfl | rfl <;> simp

/-- A request as a command is the request of its state, the die temperature noted. -/
theorem completes_request (hx : x ∈ radioCmds link temp) (g : P (latchEdges s ((radioReq x.1 false link).run (s.warmed temp)))) :
    Completes x.2 s P := by
  have h : (radioCmd x.1 link temp).run s = (radioReq x.1 false link).run (s.warmed temp) := by rw [radioCmd, run_modRadio_bind, State.warmed]
  rw [← h] at g
  simp only [radioCmds, List.mem_cons, List.not_mem_nil, or_false] at hx
  rcases hx with rfl | rfl | rfl | rfl <;> exact completes_run rfl g

theorem State.Quiet.warmed (hq : s.Quiet) (temp : Int) : (s.warmed temp).Quiet := ⟨hq.jobs, hq.walk, hq.waiting, hq.txact, hq.lanes, hq.mgmt⟩

theorem did_warmed (h : s.Inv) (temp : Int) : s.Did (s.warmed temp) [] noted F := (did_refl h).warmed temp

theorem State.Did.turnedDown (h : s.Did t l noted F) (hn : ∀ a ∈ evRegs rctlPage, F.regs a = true ∨ a ∈ noted) :
    s.Did t.turnedDown (l ++ [(RCTL_CMDSTAT_REFUSED, min 255 (t.fld RCTL_CMDSTAT_REFUSED + 1))] ++ [(RCTL_CMDSTAT_STATUS, 1)]
      ++ [(RCTL_CMDSTAT_TIME, 0)]) noted F :=
  (((((h.puts (by decide)).puts (by decide)).puts (by decide))).setFlt_noted hn).emit_noted hn

/-! ### Refusals (R40, R45) -/

theorem request_notOwner (hi : s.Inv) (hq : s.Quiet) (hx : x ∈ radioCmds link temp) (ho : s.bit RCTL_STAT_OWNER ≠ link) :
    Completes x.2 s fun t =>
      s.Sets t [(RCTL_CMDSTAT_REFUSED, min 255 (s.fld RCTL_CMDSTAT_REFUSED + 1)), (RCTL_CMDSTAT_STATUS, 1), (RCTL_CMDSTAT_TIME, 0)]
        (evRegs rctlPage) ∧ t.bit (fltBit rctlPage fltState) = true ∧ t.dev.radio.walk = none := by
  refine completes_request hx ?_
  rw [radioReq_refused (s := s.warmed temp) (.inl ho)]
  refine ⟨((did_warmed hi temp).turnedDown fun a ha => .inr ha).latched s, by rw [latchEdges_bit, turnedDown_flt], ?_⟩
  rw [latchEdges_radio, turnedDown_radio]
  exact hq.walk

theorem request_noUcode (hx : x ∈ radioCmds link temp) (hu : s.bit RCTL_STAT_UCODE_OK = false) (h0 : x.1 ≠ 0) :
    Completes x.2 s fun t =>
      t.fld RCTL_CMDSTAT_STATUS = 1 ∧ t.bit (fltBit rctlPage fltState) = true ∧ s.Within (onPages [rctlPage]) t := by
  refine completes_request hx ?_
  rw [radioReq_refused (s := s.warmed temp) (.inr (.inr ⟨hu, h0⟩))]
  refine ⟨by rw [latchEdges_fld, turnedDown_status], by rw [latchEdges_bit, turnedDown_flt], ?_⟩
  rw [State.within_latch_iff, within_turnedDown_iff (by decide)]
  exact (State.within_live_iff rfl).mpr (s.within_refl _)

/-! ### Requests carried out (R41–R43, R47) -/

/-- A request met at once: its registers, and no walk. -/
theorem sets_met (hd : s.Did t [] (evRegs rctlPage)) (hr : t.radio = goal) {r : RadioReq} (hl : t.dev.time.link = r.at_) (hw : t.dev.radio.walk = none) :
    s.Sets (latchEdges s (t.idled.answered r 0))
        [(RCTL_STAT_BUSY, 0), (RCTL_STAT_TARGET, goal), (RCTL_CMDSTAT_STATUS, 0), (RCTL_CMDSTAT_TIME, 0)] (evRegs rctlPage) ∧
      (latchEdges s (t.idled.answered r 0)).dev.radio.walk = none := by
  have h := (hd.idled.answered (fun a ha => .inr ha) r 0).latched s
  have hz : min 0xFFFF ((t.idled.dev.time.link - r.at_) / 40) = 0 := by rw [idled_dev, hl, Nat.sub_self]; rfl
  rw [hz, hr] at h
  refine ⟨h, ?_⟩
  rw [latchEdges_radio, answered_radio, idled_dev]
  exact hw

/-- A step down begun: its registers, and its walk. -/
theorem sets_down (hd : s.Did t []) {w : Walk} {g : Nat} (hg : goal = g) :
    s.Sets (latchEdges s (((t.locked false).busied goal).walkSet w))
        [(RCTL_STAT_LOCK, 0), (SYNTH_STAT_LOCK, 0), (RCTL_STAT_BUSY, 1), (RCTL_STAT_TARGET, g)] ∧
      (latchEdges s (((t.locked false).busied goal).walkSet w)).dev.radio.walk = some w :=
  ⟨hg ▸ (((hd.locked false).busied goal).walkSet w).latched s, by simp only [latchEdges_radio, State.walkSet, State.live_dev]⟩

section
variable (hi : s.Inv) (hq : s.Quiet) (hx : x ∈ radioCmds link temp) (ho : s.bit RCTL_STAT_OWNER = link) (hb : s.dev.radio.bowDead = false)
  (hu : s.bit RCTL_STAT_UCODE_OK = true)
include hx ho hb hu

theorem completes_up (hy : s.bit RCTL_STAT_BUSY = false) (hr : s.radio ≤ 3) (h2 : 2 ≤ x.1)
    (g : P (latchEdges s ((carryOut { goal := x.1, retune := false, link := link, at_ := s.dev.time.link }).run (s.warmed temp)))) :
    Completes x.2 s P := by
  refine completes_request hx ?_
  rwa [radioReq_up (s := s.warmed temp) ho hb hu hy hr h2 (goal_le_three hx)]

theorem completes_down (h1 : x.1 ≤ 1)
    (g : P (latchEdges s ((radioCut x.1 (some { goal := x.1, retune := false, link := link, at_ := s.dev.time.link })).run (s.warmed temp)))) :
    Completes x.2 s P := by
  refine completes_request hx ?_
  rwa [radioReq_down (s := s.warmed temp) ho hb (.inl hu) h1]

theorem request_outOfRange (hy : s.bit RCTL_STAT_BUSY = false) (hr : s.radio ≤ 3) (h2 : 2 ≤ x.1) (hk : s.synthOk = false) :
    Completes x.2 s fun t => t.fld RCTL_CMDSTAT_STATUS = 3 ∧ t.radio = s.radio ∧ s.Within (onPages [rctlPage]) t := by
  refine completes_up hx ho hb hu hy hr h2 ?_
  rw [carryOut_off h2 (s := s.warmed temp) hk]
  refine ⟨by rw [latchEdges_fld, answered_status], ?_, ?_⟩
  · rw [State.radio, latchEdges_fld, answered_fld (by decide), ← State.radio, idled_radio]
    rfl
  · rw [State.within_latch_iff, within_answered_iff (by decide), within_idled_iff (by decide)]
    exact (State.within_live_iff rfl).mpr (s.within_refl _)

theorem request_tunes (hy : s.bit RCTL_STAT_BUSY = false) (h2 : 2 ≤ x.1) (hk : s.synthOk = true) (hr : s.radio = 1) :
    Completes x.2 s fun t =>
      t.bit RCTL_STAT_BUSY = true ∧ t.fld RCTL_STAT_TARGET = x.1 ∧ t.bit RCTL_STAT_LOCK = false ∧
      t.fld SYNTH_FREQ_FREQ = (freqWord s.synthHz * 40000000 + 2 ^ 19) / 2 ^ 20 % 2 ^ 30 ∧
      (t.dev.radio.walk.map fun w => (w.next, w.goal, w.tunes)) = some (2, x.1, true) ∧
      s.Within (onPages [rctlPage, synthPage]) t := by
  have h3 := goal_le_three hx
  refine completes_up hx ho hb hu hy (by omega) h2 ?_
  have hw : walkNext (s.warmed temp).radio x.1 false = some 2 := by
    rw [show (s.warmed temp).radio = 1 from hr, walkNext, if_neg (by omega)]
    rfl
  rw [carryOut_walk (s := s.warmed temp) (fun _ => hk) hw, stepStart_tune (s := s.warmed temp) hr]
  refine ⟨by rw [latchEdges_bit, State.walkSet, State.live_bit, busied_busy],
    by rw [latchEdges_fld, State.walkSet, State.live_fld, busied_target (by show x.1 < 8; omega)], ?_, ?_, ?_, ?_⟩
  · rw [latchEdges_bit, State.walkSet, State.live_bit, busied_bit (by decide) (by decide), tuning_lock]
  · rw [latchEdges_fld, State.walkSet, State.live_fld, State.fld, busied_reg (by decide), ← State.fld, tuning_freq, wordHz]
    rfl
  · simp only [latchEdges_radio, State.walkSet, State.live_dev, Option.map_some]
  · rw [State.within_latch_iff, State.walkSet, State.within_live_iff rfl, within_busied_iff (by decide), within_tuning_iff (by decide)]
    exact (State.within_live_iff rfl).mpr (s.within_refl _)

include hi hq

theorem request_met (hy : s.bit RCTL_STAT_BUSY = false) (hk : 2 ≤ x.1 → s.synthOk = true) (hr : s.radio = x.1) :
    Completes x.2 s fun t =>
      s.Sets t [(RCTL_STAT_BUSY, 0), (RCTL_STAT_TARGET, x.1), (RCTL_CMDSTAT_STATUS, 0), (RCTL_CMDSTAT_TIME, 0)] (evRegs rctlPage) ∧
        t.dev.radio.walk = none := by
  have h3 := goal_le_three hx
  rcases Nat.lt_or_ge x.1 2 with h1 | h2
  · refine completes_down hx ho hb hu (by omega) ?_
    rw [radioCut_stay (hq.warmed temp) hb hr]
    exact sets_met (did_warmed hi temp).unlockOver hr rfl hq.walk
  · have hw : walkNext (s.warmed temp).radio x.1 false = none := by
      rw [show (s.warmed temp).radio = x.1 from hr]
      interval_cases x.1 <;> rfl
    refine completes_up hx ho hb hu hy (by omega) h2 ?_
    rw [carryOut_met (s := s.warmed temp) hk hw]
    exact sets_met (did_warmed hi temp) hr rfl hq.walk

theorem request_down (h1 : x.1 ≤ 1) (hr : s.radio = 2 ∨ s.radio = 0 ∧ x.1 ≠ 0) :
    Completes x.2 s fun t =>
      s.Sets t [(RCTL_STAT_LOCK, 0), (SYNTH_STAT_LOCK, 0), (RCTL_STAT_BUSY, 1), (RCTL_STAT_TARGET, x.1)] ∧
        (t.dev.radio.walk.map fun w => (w.next, w.goal)) = some (1, x.1) := by
  have hs : (s.warmed temp).radio = s.radio := rfl
  have hu' : (s.warmed temp).unlockOver.radio = s.radio := rfl
  refine completes_down hx ho hb hu h1 ?_
  rw [radioCut_leave (s := s.warmed temp) hq.waiting hq.walk hq.jobs hb (by rw [hs]; omega), if_neg (by rw [hs]; omega), stepStart_down (by rw [hu']; omega) (by decide)]
  obtain ⟨hsets, hwalk⟩ := sets_down (did_warmed hi temp).unlockOver (goal := x.1) (g := x.1) rfl
    (w := { next := 1, goal := x.1, req := some { goal := x.1, retune := false, link := link, at_ := s.dev.time.link } })
  exact ⟨hsets, by rw [hwalk]; rfl⟩

theorem request_wakes (hy : s.bit RCTL_STAT_BUSY = false) (hk : 2 ≤ x.1 → s.synthOk = true) (hr : s.radio = 0) (h0 : x.1 ≠ 0) :
    Completes x.2 s fun t =>
      s.Sets t [(RCTL_STAT_LOCK, 0), (SYNTH_STAT_LOCK, 0), (RCTL_STAT_BUSY, 1), (RCTL_STAT_TARGET, x.1)] ∧
        (t.dev.radio.walk.map fun w => (w.next, w.goal)) = some (1, x.1) := by
  rcases Nat.lt_or_ge x.1 2 with h1 | h2
  · exact request_down hi hq hx ho hb hu (by omega) (.inr ⟨hr, h0⟩)
  · have hw : walkNext (s.warmed temp).radio x.1 false = some 1 := by
      rw [show (s.warmed temp).radio = 0 from hr, walkNext, if_neg (by omega)]
      rfl
    refine completes_up hx ho hb hu hy (by omega) h2 ?_
    rw [carryOut_walk (s := s.warmed temp) hk hw, stepStart_down (by rw [show (s.warmed temp).radio = 0 from hr]; decide) (by decide)]
    obtain ⟨hsets, hwalk⟩ := sets_down (did_warmed hi temp) (goal := x.1) (g := x.1) rfl
      (w := { next := 1, goal := x.1, req := some { goal := x.1, retune := false, link := link, at_ := s.dev.time.link } })
    exact ⟨hsets, by rw [hwalk]; rfl⟩
end

/-! ### A channel change, and the cache (R47, R48, R69) -/

theorem channel_waits (hi : s.Inv) (v : Word) (ho : s.bit RCTL_STAT_OWNER = link) (hr : s.radio ≤ 1) :
    Completes (.channelChange v link temp) s fun t => s.Sets t [(SYNTH_CHAN_N, bitsGet v 9 0)] := by
  refine completes_run rfl ?_
  rw [run_modRadio_bind, ← State.warmed, chanWrite, run_getS, if_neg (by simp [State.warmed, ho]), run_setFld_bind,
    if_neg (fun h => absurd (Nat.le_trans h.1 hr) (by decide))]
  exact ((did_warmed hi temp).puts (by decide)).latched s

theorem channel_refused (hi : s.Inv) (v : Word) (ho : s.bit RCTL_STAT_OWNER ≠ link) :
    Completes (.channelChange v link temp) s fun t => s.Reports t synthPage fltState := by
  refine completes_run rfl ?_
  rw [run_modRadio_bind, ← State.warmed, chanWrite, run_getS, if_pos (by simp [State.warmed, ho])]
  exact ((did_warmed hi temp).setFlt (by decide) fun a ha => .inr ha).latched s

theorem cacheFlush_empties : Completes .cacheFlush s fun t => t.dev.radio.cache = [] ∧ s.Within {} t := by
  refine completes_run rfl ?_
  rw [cacheFlush, run_modRadio]
  exact ⟨by simp, (State.within_latch_iff).mpr ((State.within_live_iff rfl).mpr (s.within_refl _))⟩

/-- Settles O20: refusals and requests already met leave the radio where it is, any other begins the first step of its walk. -/
theorem radioRequests : Obligations.RadioRequests := by
  intro s link temp hi hq
  refine ⟨fun ho x hx => request_notOwner hi hq hx ho, fun ho hb hy hr => ⟨fun hu x hx h0 => request_noUcode hx hu h0, fun hu x hx => ⟨?_, ?_, ?_, ?_, ?_⟩⟩,
    fun v ho _ hr => channel_waits hi v ho hr, fun v ho => channel_refused hi v ho, cacheFlush_empties⟩
  · exact fun h2 hk => request_outOfRange hx ho hb hu hy hr h2 hk
  · exact fun h2 hk h1 => request_tunes hx ho hb hu hy h2 hk h1
  · exact fun hk hr => request_met hi hq hx ho hb hu hy hk hr
  · exact fun hk hr h0 => request_wakes hi hq hx ho hb hu hy hk hr h0
  · exact fun h1 hr => request_down hi hq hx ho hb hu h1 (.inl hr)

end Sys2Proof.Machine
end

section
/-!
The lanes' operations, each as the state it leaves: a lane's entry, its state, the freeze of the gain, and a drop (R77–R79, R84, R86).
-/
namespace Sys2Proof.Machine
open Sys2Proof.Reg

variable {s t : State} {F : Foot} {l : List (Fld × Nat)} {noted : List Nat} {n m v : Nat}

/-! ### A lane's entry and its state -/

/-- A lane's entry replaced. -/
def State.laneSet (s : State) (n : Nat) (x : Lane) : State := s.live fun d => { d with lanes := Sparse.set (fun _ => {}) d.lanes n x }

/-- A lane's state entered (R77, R88, R93). -/
def State.laned (s : State) (n v : Nat) : State :=
  if v = laneSearch then (s.put (laneStateFld n) v).laneSet n
    { s.lane n with since := s.nextBurst, digRuns := true }
  else ((s.put (laneStateFld n) v).put (LANES_ED_STALE n) 1).laneSet n { s.lane n with digRuns := false }

/-- The gain's freeze and its owner (R84). -/
def State.frozenBy (s : State) (owner : Nat) : State :=
  ((s.put LANES_STAT_OWNER owner).put LANES_STAT_FROZEN (b2n (decide (owner < 7)))).put RXFE_GAIN_FROZEN (b2n (decide (owner < 7)))

section
variable (k : Unit → M Unit)
theorem run_setLane (n : Nat) (x : Lane) : (setLane n x).run s = s.laneSet n x := (rfl)
theorem setLane_bind (n : Nat) (x : Lane) : (setLane n x >>= k).run s = (k ()).run (s.laneSet n x) := (rfl)
theorem setFreeze_run (o : Nat) : (setFreeze o).run s = s.frozenBy o := by
  rw [setFreeze, run_setFld_bind, run_setFld_bind, run_setFld, State.frozenBy]
theorem setFreeze_bind (o : Nat) : (setFreeze o >>= k).run s = (k ()).run (s.frozenBy o) := by
  rw [setFreeze, run_assoc, run_setFld_bind, run_assoc, run_setFld_bind, run_setFld_bind, State.frozenBy]
theorem run_modGain (f : Gain → Gain) : (modGain f).run s = s.live fun d => { d with gain := f d.gain } := (rfl)
theorem run_modGain_bind (f : Gain → Gain) : (modGain f >>= k).run s = (k ()).run (s.live fun d => { d with gain := f d.gain }) := (rfl)
end

theorem lane_put (f : Fld) : (s.put f v).lane n = s.lane n := by rw [State.lane, State.dev_put, State.lane]
theorem lane_live {f : Dev → Dev} (h : (f s.dev).lanes = s.dev.lanes) : (s.live f).lane n = s.lane n := by
  rw [State.lane, State.live_dev, h, State.lane]
theorem lane_laneSet_same (x : Lane) : (s.laneSet n x).lane n = x := by
  rw [State.lane, State.laneSet, State.live_dev]
  exact Sparse.get_set_same _ _ _ _
theorem lane_laneSet_other (x : Lane) (h : m ≠ n) : (s.laneSet n x).lane m = s.lane m := by
  rw [State.lane, State.laneSet, State.live_dev, State.lane]
  exact Sparse.get_set_other _ _ _ _ _ h
theorem laneSet_reg (x : Lane) (a : Nat) : (s.laneSet n x).reg a = s.reg a := State.live_reg ..
theorem within_laneSet_iff {x : Lane} : s.Within F (t.laneSet n x) ↔ s.Within F t := State.within_live_iff rfl
theorem State.Did.laneSet (h : s.Did t l noted F) (n : Nat) (x : Lane) : s.Did (t.laneSet n x) l noted F := (h.lived (by rfl))

theorem nextBurst_put (f : Fld) : (s.put f v).nextBurst = s.nextBurst := by rw [State.nextBurst, State.dev_put, State.nextBurst]

theorem setLaneState_run : (setLaneState n v).run s = s.laned n v := by
  rw [setLaneState, run_setFld_bind, run_getS, run_ite, State.laned]
  split
  · rw [run_setLane, lane_put, nextBurst_put]
  · rw [run_setFld_bind, run_setLane, lane_put]
theorem setLaneState_bind (k : Unit → M Unit) : (setLaneState n v >>= k).run s = (k ()).run (s.laned n v) := by
  rw [setLaneState, run_assoc, run_setFld_bind, run_assoc, run_getS, run_ite_bind, State.laned]
  split
  · rw [setLane_bind, lane_put, nextBurst_put]
  · rw [run_assoc, run_setFld_bind, setLane_bind, lane_put]

/-- A lane's state leaves what the lane holds. -/
theorem lane_laned_same : ((s.laned n v).lane n).frame = (s.lane n).frame ∧ ((s.laned n v).lane n).digRuns = decide (v = laneSearch) := by
  rw [State.laned]
  split <;> rw [lane_laneSet_same] <;> simp [*]
theorem lane_laned_other (h : m ≠ n) : (s.laned n v).lane m = s.lane m := by
  rw [State.laned]
  split
  · rw [lane_laneSet_other _ h, lane_put]
  · rw [lane_laneSet_other _ h, lane_put, lane_put]
theorem frame_laned : ((s.laned n v).lane m).frame = (s.lane m).frame := by
  rcases eq_or_ne m n with rfl | h
  · exact lane_laned_same.1
  · rw [lane_laned_other h]
theorem laned_reg {a : Nat} (h : a ∉ [LANES_STAT, LANES_ED n]) : (s.laned n v).reg a = s.reg a := by
  simp only [List.mem_cons, List.not_mem_nil, or_false, not_or] at h
  rw [State.laned]
  split
  · rw [laneSet_reg, State.reg_put_other _ (by exact h.1)]
  · rw [laneSet_reg, State.reg_put_other _ (by exact h.2), State.reg_put_other _ (by exact h.1)]
theorem laned_fld {f : Fld} (h : f.addr ∉ [LANES_STAT, LANES_ED n]) : (s.laned n v).fld f = s.fld f := by rw [State.fld, laned_reg h, State.fld]
theorem laned_bit {f : Fld} (h : f.addr ∉ [LANES_STAT, LANES_ED n]) : (s.laned n v).bit f = s.bit f := by rw [State.bit, laned_fld h, State.bit]
theorem laned_stat (h : LANES_STAT ≠ LANES_ED n) : (s.laned n v).reg LANES_STAT = (s.put (laneStateFld n) v).reg LANES_STAT := by
  rw [State.laned]
  split
  · rw [laneSet_reg]
  · rw [laneSet_reg, State.reg_put_other _ (by exact h)]
theorem laned_fld_stat {f : Fld} (h : LANES_STAT ≠ LANES_ED n) (ha : f.addr = LANES_STAT) : (s.laned n v).fld f = (s.put (laneStateFld n) v).fld f := by
  rw [State.fld, State.fld, ha, laned_stat h]
theorem laned_dev : ∃ x, (s.laned n v).dev = { s.dev with lanes := x } := by
  rw [State.laned]
  split
  · exact ⟨_, by rw [State.laneSet, State.live_dev, State.dev_put]⟩
  · exact ⟨_, by rw [State.laneSet, State.live_dev, State.dev_put, State.dev_put]⟩

theorem stat_ne_ed (hn : n < 4) : LANES_STAT ≠ LANES_ED n := by simp only [LANES_STAT, LANES_ED]; omega
theorem laneStates_apart : ∀ n < 4, ∀ k < 4, k ≠ n → (laneStateFld n).apart (laneStateFld k) = true := by decide
theorem laneState_apart {k : Nat} (hn : n < 4) (hk : k < 4) (h : k ≠ n) : (laneStateFld n).apart (laneStateFld k) = true :=
  laneStates_apart n hn k hk h

theorem laned_laneState_same (hn : n < 4) (hv : v < 16) : (s.laned n v).laneState n = v := by
  rw [State.laneState, laned_fld_stat (stat_ne_ed hn) rfl, State.fld_self _ (by interval_cases n <;> decide)]
  have hw : (laneStateFld n).hi - (laneStateFld n).lo + 1 = 4 := by show 4 * n + 3 - 4 * n + 1 = 4; omega
  rw [hw]
  exact Nat.mod_eq_of_lt hv
theorem laned_laneState_other {k : Nat} (hn : n < 4) (hk : k < 4) (h : k ≠ n) : (s.laned n v).laneState k = s.laneState k := by
  rw [State.laneState, laned_fld_stat (stat_ne_ed hn) rfl, State.fld_apart _ (laneState_apart hn hk h), State.laneState]
theorem laned_stat_fld {f : Fld} (hn : n < 4) (ha : f.addr = LANES_STAT) (h : (laneStateFld n).apart f = true) : (s.laned n v).fld f = s.fld f := by
  rw [laned_fld_stat (stat_ne_ed hn) ha, State.fld_apart _ h]

theorem within_laned_iff (h : F.regs LANES_STAT = true) (h' : F.regs (LANES_ED n) = true) : s.Within F (t.laned n v) ↔ s.Within F t := by
  rw [State.laned]
  split
  · rw [within_laneSet_iff, State.within_put_iff h]
  · rw [within_laneSet_iff, State.within_put_iff h', State.within_put_iff h]

theorem laneFlds_settable (hn : n < 4) : (laneStateFld n).settable = true ∧ (LANES_ED_STALE n).settable = true := by
  interval_cases n <;> decide
theorem State.Did.searches (h : s.Did t l noted F) (hn : n < 4) : s.Did (t.laned n laneSearch) (l ++ [(laneStateFld n, 1)]) noted F := by
  rw [State.laned, if_pos rfl]
  exact (h.put (laneFlds_settable hn).1 _).laneSet _ _
theorem State.Did.rests (h : s.Did t l noted F) (hn : n < 4) (hv : v ≠ laneSearch) :
    s.Did (t.laned n v) (l ++ [(laneStateFld n, v)] ++ [(LANES_ED_STALE n, 1)]) noted F := by
  rw [State.laned, if_neg hv]
  exact ((h.put (laneFlds_settable hn).1 _).put (laneFlds_settable hn).2 _).laneSet _ _

/-! ### All four lanes brought to a state -/

/-- Each lane's state entered, from lane 0 on. -/
def State.lanesTo (s : State) (f : Nat → Nat) : State := (((s.laned 0 (f 0)).laned 1 (f 1)).laned 2 (f 2)).laned 3 (f 3)

theorem range_four : List.range 4 = [0, 1, 2, 3] := by decide

section
variable (f : Nat → Nat) (k : Unit → M Unit)
theorem lanesTo_run : (forAll (List.range 4) fun n => setLaneState n (f n)).run s = s.lanesTo f := by
  rw [range_four, forAll_cons, forAll_cons, forAll_cons, forAll_cons, forAll_nil, setLaneState_bind, setLaneState_bind, setLaneState_bind,
    setLaneState_bind, run_nop, State.lanesTo]
theorem lanesTo_bind : ((forAll (List.range 4) fun n => setLaneState n (f n)) >>= k).run s = (k ()).run (s.lanesTo f) := by
  rw [range_four, forAll_cons, forAll_cons, forAll_cons, forAll_cons, forAll_nil, run_assoc, setLaneState_bind, run_assoc, setLaneState_bind,
    run_assoc, setLaneState_bind, run_assoc, setLaneState_bind, run_nop_bind, State.lanesTo]

theorem lanesTo_reg {a : Nat} (h : a ∉ [LANES_STAT, LANES_ED 0, LANES_ED 1, LANES_ED 2, LANES_ED 3]) : (s.lanesTo f).reg a = s.reg a := by
  simp only [List.mem_cons, List.not_mem_nil, or_false, not_or] at h
  obtain ⟨hs, h0, h1, h2, h3⟩ := h
  rw [State.lanesTo, laned_reg (by simp [hs, h3]), laned_reg (by simp [hs, h2]), laned_reg (by simp [hs, h1]), laned_reg (by simp [hs, h0])]
theorem lanesTo_fld {x : Fld} (h : x.addr ∉ [LANES_STAT, LANES_ED 0, LANES_ED 1, LANES_ED 2, LANES_ED 3]) : (s.lanesTo f).fld x = s.fld x := by
  rw [State.fld, lanesTo_reg f h, State.fld]
theorem lanesTo_bit {x : Fld} (h : x.addr ∉ [LANES_STAT, LANES_ED 0, LANES_ED 1, LANES_ED 2, LANES_ED 3]) : (s.lanesTo f).bit x = s.bit x := by
  rw [State.bit, lanesTo_fld f h, State.bit]
theorem lanesTo_dev : ∃ x, (s.lanesTo f).dev = { s.dev with lanes := x } := by
  obtain ⟨a, ha⟩ := laned_dev (s := s) (n := 0) (v := f 0)
  obtain ⟨b, hb⟩ := laned_dev (s := s.laned 0 (f 0)) (n := 1) (v := f 1)
  obtain ⟨c, hc⟩ := laned_dev (s := (s.laned 0 (f 0)).laned 1 (f 1)) (n := 2) (v := f 2)
  obtain ⟨d, hd⟩ := laned_dev (s := ((s.laned 0 (f 0)).laned 1 (f 1)).laned 2 (f 2)) (n := 3) (v := f 3)
  exact ⟨d, by rw [State.lanesTo, hd, hc, hb, ha]⟩
theorem lanesTo_laneState (hn : n < 4) (hf : ∀ k < 4, f k < 16) : (s.lanesTo f).laneState n = f n := by
  have h := hf n hn
  interval_cases n
  · rw [State.lanesTo, laned_laneState_other (by decide) (by decide) (by decide), laned_laneState_other (by decide) (by decide) (by decide),
      laned_laneState_other (by decide) (by decide) (by decide), laned_laneState_same (by decide) h]
  · rw [State.lanesTo, laned_laneState_other (by decide) (by decide) (by decide), laned_laneState_other (by decide) (by decide) (by decide),
      laned_laneState_same (by decide) h]
  · rw [State.lanesTo, laned_laneState_other (by decide) (by decide) (by decide), laned_laneState_same (by decide) h]
  · rw [State.lanesTo, laned_laneState_same (by decide) h]
theorem frame_lanesTo : ((s.lanesTo f).lane n).frame = (s.lane n).frame := by
  rw [State.lanesTo, frame_laned, frame_laned, frame_laned, frame_laned]
theorem within_lanesTo_iff (h : ∀ a ∈ [LANES_STAT, LANES_ED 0, LANES_ED 1, LANES_ED 2, LANES_ED 3], F.regs a = true) :
    s.Within F (t.lanesTo f) ↔ s.Within F t := by
  rw [State.lanesTo, within_laned_iff (h _ (by simp)) (h _ (by simp)), within_laned_iff (h _ (by simp)) (h _ (by simp)),
    within_laned_iff (h _ (by simp)) (h _ (by simp)), within_laned_iff (h _ (by simp)) (h _ (by simp))]
end

/-! ### The freeze -/

theorem frozenBy_dev (o : Nat) : (s.frozenBy o).dev = s.dev := by rw [State.frozenBy, State.dev_put, State.dev_put, State.dev_put]
theorem frozenBy_lane (o : Nat) : (s.frozenBy o).lane n = s.lane n := by rw [State.lane, frozenBy_dev, State.lane]
theorem frozenBy_reg {a : Nat} (o : Nat) (h : a ∉ [LANES_STAT, RXFE_GAIN]) : (s.frozenBy o).reg a = s.reg a := by
  simp only [List.mem_cons, List.not_mem_nil, or_false, not_or] at h
  rw [State.frozenBy, State.reg_put_other _ (by exact h.2), State.reg_put_other _ (by exact h.1), State.reg_put_other _ (by exact h.1)]
theorem frozenBy_fld {f : Fld} (o : Nat) (h : f.addr ∉ [LANES_STAT, RXFE_GAIN]) : (s.frozenBy o).fld f = s.fld f := by
  rw [State.fld, frozenBy_reg o h, State.fld]
theorem frozenBy_bit {f : Fld} (o : Nat) (h : f.addr ∉ [LANES_STAT, RXFE_GAIN]) : (s.frozenBy o).bit f = s.bit f := by
  rw [State.bit, frozenBy_fld o h, State.bit]
theorem frozenBy_apart {f : Fld} (o : Nat) (h : LANES_STAT_OWNER.apart f = true) (h' : LANES_STAT_FROZEN.apart f = true)
    (hg : RXFE_GAIN_FROZEN.apart f = true) : (s.frozenBy o).fld f = s.fld f := by
  rw [State.frozenBy, State.fld_apart _ hg, State.fld_apart _ h', State.fld_apart _ h]
theorem frozenBy_laneState (o : Nat) (hn : n < 4) : (s.frozenBy o).laneState n = s.laneState n :=
  frozenBy_apart o (by interval_cases n <;> decide) (by interval_cases n <;> decide) (by interval_cases n <;> decide)
theorem frozenBy_owner {o : Nat} (ho : o < 8) : (s.frozenBy o).fld LANES_STAT_OWNER = o := by
  rw [State.frozenBy, State.fld_apart _ (by decide), State.fld_apart _ (by decide), State.fld_self _ (by decide)]
  exact Nat.mod_eq_of_lt ho
theorem bit_put_b2n {f : Fld} (b : Bool) (h : f.settable = true) (hw : f.hi = f.lo) : (s.put f (b2n b)).bit f = b := by
  rw [State.bit_self _ h, hw, Nat.sub_self]
  cases b <;> rfl
theorem frozenBy_frozen (o : Nat) : (s.frozenBy o).bit LANES_STAT_FROZEN = decide (o < 7) := by
  rw [State.frozenBy, State.bit_apart _ (by decide), bit_put_b2n _ (by decide) rfl]
theorem frozenBy_gainFrozen (o : Nat) : (s.frozenBy o).bit RXFE_GAIN_FROZEN = decide (o < 7) := by
  rw [State.frozenBy, bit_put_b2n _ (by decide) rfl]
theorem within_frozenBy_iff {o : Nat} (h : F.regs LANES_STAT = true) (h' : F.regs RXFE_GAIN = true) : s.Within F (t.frozenBy o) ↔ s.Within F t := by
  rw [State.frozenBy, State.within_put_iff h', State.within_put_iff h, State.within_put_iff h]
theorem State.Did.frozenBy (h : s.Did t l noted F) (o : Nat) :
    s.Did (t.frozenBy o) (l ++ [(LANES_STAT_OWNER, o)] ++ [(LANES_STAT_FROZEN, b2n (decide (o < 7)))] ++ [(RXFE_GAIN_FROZEN, b2n (decide (o < 7)))])
      noted F := (((h.puts (by decide)).puts (by decide)).puts (by decide))

end Sys2Proof.Machine
end

section
/-!
The end of a walk's step, and of the walk (R42, R43, R48, R77).
-/
namespace Sys2Proof.Machine
open Sys2Proof.Reg

variable {s t : State} {F : Foot} {l : List (Fld × Nat)} {noted : List Nat} {n m v : Nat}

/-- A tune's calibration kept (R48). -/
def State.tuneStored (s : State) (miss : Bool) : State := (tuneStore miss).run s

/-- A tune's calibration entry, stored before the ones in use. -/
theorem tuneStored_dev (miss : Bool) :
    ∃ c : Nat, (s.tuneStored miss).dev = { s.dev with radio := { s.dev.radio with cache :=
      if miss then ({ word := s.dev.radio.word, code := c, temp := s.dev.radio.temp } :: s.dev.radio.cache).take 16 else s.dev.radio.cache } } := by
  rw [State.tuneStored, tuneStore, run_setFld_bind, run_ite]
  cases miss with
  | false => exact ⟨0, by rw [if_neg (by decide), run_pure, State.dev_put, if_neg (by decide)]⟩
  | true =>
    rw [if_pos rfl, freeIn, run_assoc, run_freeNat_bind, run_pure_bind, run_modRadio]
    exact ⟨_, by rw [State.live_dev, State.drawn_dev, State.dev_put, if_pos rfl]⟩

theorem tuneStored_reg {a : Nat} (miss : Bool) (h : a ≠ SYNTH_STAT) : (s.tuneStored miss).reg a = s.reg a := by
  rw [State.tuneStored, tuneStore, run_setFld_bind, run_ite]
  cases miss with
  | false => rw [if_neg (by decide), run_pure, State.reg_put_other _ (by exact h)]
  | true =>
    rw [if_pos rfl, freeIn, run_assoc, run_freeNat_bind, run_pure_bind, run_modRadio, State.live_reg, State.drawn_reg,
      State.reg_put_other _ (by exact h)]

theorem tuneStored_fld {f : Fld} (miss : Bool) (h : f.addr ≠ SYNTH_STAT) : (s.tuneStored miss).fld f = s.fld f := by
  rw [State.fld, tuneStored_reg miss h, State.fld]
theorem tuneStored_bit {f : Fld} (miss : Bool) (h : f.addr ≠ SYNTH_STAT) : (s.tuneStored miss).bit f = s.bit f := by
  rw [State.bit, tuneStored_fld miss h, State.bit]
theorem total_freeCode : (freeIn 0 0xFFFFFFFF).Total := total_bind (total_bind total_getS fun _ => total_bind (total_act _) fun _ => total_pure _) fun _ => total_pure _
theorem total_tuneStore (miss : Bool) : (tuneStore miss).Total :=
  total_bind (total_setFld _ _) fun _ => total_ite (total_bind total_freeCode fun _ => total_act _) (total_pure _)
theorem keeps_tuneStore (miss : Bool) (h : F.regs SYNTH_STAT = true) : M.Keeps F (tuneStore miss) :=
  keeps_bind (keeps_setFld h) fun _ => keeps_ite (keeps_bind keeps_freeIn fun _ => keeps_dev fun _ => rfl) (keeps_pure _)

/-- Lock found: no loss of it is pending (R49). -/
def State.lockRisen (s : State) : State := s.unlockOver.locked true

/-- The state of the radio entered, and after a tune its calibration kept and lock risen (R42, R48, R49). -/
def State.stepEnded (s : State) (w : Walk) : State :=
  if w.tunes then ((s.entered w.next).tuneStored w.miss).lockRisen else s.entered w.next

/-- The receive stream started: no lane owns the gain, STEP at its start or held (R90, R97, R519). -/
def State.rxEntered (s : State) : State :=
  let a := s.frozenBy 7
  let b := if s.dev.radio.blank then a else a.put RXFE_GAIN_STEP (min 12 (s.fld RXFE_AGC_INIT))
  let c := if b.bit RXFE_AGC_MANUAL && b.en rxfePage then b.put RXFE_GAIN_STEP (min 12 (b.fld RXFE_MGAIN_STEP)) else b
  c.live fun d => { d with radio := { d.radio with blank := false, rxAt := d.time.link } }

/-- The lanes are not blanked. -/
def State.unblanked (s : State) : State := s.live fun d => { d with radio := { d.radio with blank := false } }

/-- The lanes as the radio's state has them: at rest in RX, and off elsewhere (R77). -/
def State.lanesFor (s : State) (st : Nat) : State :=
  if st = radRx then s.rxEntered.lanesTo s.rxEntered.laneRest else s.unblanked.lanesTo fun _ => laneOff

theorem lanesEnterRx_bind (k : Unit → M Unit) : (lanesEnterRx >>= k).run s = (k ()).run (s.rxEntered.lanesTo s.rxEntered.laneRest) := by
  rw [lanesEnterRx, run_assoc, run_getS, run_assoc, setFreeze_bind, State.rxEntered]
  cases hb : s.dev.radio.blank <;>
    simp only [Bool.not_true, Bool.not_false, Bool.false_eq_true, if_true, if_false, run_assoc, run_setFld_bind, run_pure_bind, gainHold, run_getS,
      run_ite_bind, run_modDev_bind, lanesTo_bind] <;>
    split <;> rfl


/-! ### What entering a state leaves -/

theorem rxEntered_reg {a : Nat} (h : a ∉ [LANES_STAT, RXFE_GAIN]) : s.rxEntered.reg a = s.reg a := by
  have hg : a ≠ RXFE_GAIN := fun hm => h (by simp [hm])
  rw [State.rxEntered]
  simp only [State.live_reg]
  have hp : ∀ (t : State) (v : Nat), (t.put RXFE_GAIN_STEP v).reg a = t.reg a := fun t v => State.reg_put_other v hg
  split <;> split <;> simp only [hp, frozenBy_reg 7 h]

theorem rxEntered_dev : s.rxEntered.dev = { s.dev with radio := { s.dev.radio with blank := false, rxAt := s.dev.time.link } } := by
  rw [State.rxEntered]
  simp only [State.live_dev]
  split <;> split <;> simp only [State.dev_put, frozenBy_dev]

theorem within_rxEntered_iff (h : F.regs LANES_STAT = true) (h' : F.regs RXFE_GAIN = true) : s.Within F t.rxEntered ↔ s.Within F t := by
  rw [State.rxEntered]
  have hp : ∀ (u : State) (v : Nat), s.Within F (u.put RXFE_GAIN_STEP v) ↔ s.Within F u := fun u v => State.within_put_iff h'
  refine (State.within_live_iff rfl).trans ?_
  split <;> split <;> simp only [hp, within_frozenBy_iff h h']

theorem lanesFor_reg {a : Nat} (st : Nat) (h : a ∉ [LANES_STAT, LANES_ED 0, LANES_ED 1, LANES_ED 2, LANES_ED 3, RXFE_GAIN]) :
    (s.lanesFor st).reg a = s.reg a := by
  have hl : a ∉ [LANES_STAT, LANES_ED 0, LANES_ED 1, LANES_ED 2, LANES_ED 3] := fun hm => h (by simp at hm ⊢; tauto)
  have hg : a ∉ [LANES_STAT, RXFE_GAIN] := fun hm => h (by simp at hm ⊢; tauto)
  rw [State.lanesFor]
  split
  · rw [lanesTo_reg _ hl, rxEntered_reg hg]
  · rw [lanesTo_reg _ hl, State.unblanked, State.live_reg]
theorem lanesFor_fld {f : Fld} (st : Nat) (h : f.addr ∉ [LANES_STAT, LANES_ED 0, LANES_ED 1, LANES_ED 2, LANES_ED 3, RXFE_GAIN]) :
    (s.lanesFor st).fld f = s.fld f := by rw [State.fld, lanesFor_reg st h, State.fld]
theorem lanesFor_bit {f : Fld} (st : Nat) (h : f.addr ∉ [LANES_STAT, LANES_ED 0, LANES_ED 1, LANES_ED 2, LANES_ED 3, RXFE_GAIN]) :
    (s.lanesFor st).bit f = s.bit f := by rw [State.bit, lanesFor_fld st h, State.bit]

theorem lanesFor_dev (st : Nat) : ∃ x r, (s.lanesFor st).dev = { s.dev with lanes := x, radio := { s.dev.radio with blank := false, rxAt := r } } := by
  rw [State.lanesFor]
  split
  · obtain ⟨x, hx⟩ := lanesTo_dev (s := s.rxEntered) s.rxEntered.laneRest
    exact ⟨x, s.dev.time.link, by rw [hx, rxEntered_dev]⟩
  · obtain ⟨x, hx⟩ := lanesTo_dev (s := s.unblanked) fun _ => laneOff
    exact ⟨x, s.dev.radio.rxAt, by rw [hx, State.unblanked, State.live_dev]⟩

theorem within_lanesFor_iff {st : Nat} (h : ∀ a ∈ [LANES_STAT, LANES_ED 0, LANES_ED 1, LANES_ED 2, LANES_ED 3, RXFE_GAIN], F.regs a = true) :
    s.Within F (t.lanesFor st) ↔ s.Within F t := by
  have hl : ∀ a ∈ [LANES_STAT, LANES_ED 0, LANES_ED 1, LANES_ED 2, LANES_ED 3], F.regs a = true := fun a hm => h a (by simp at hm ⊢; tauto)
  rw [State.lanesFor]
  split
  · rw [within_lanesTo_iff _ hl, within_rxEntered_iff (h _ (by simp)) (h _ (by simp))]
  · rw [within_lanesTo_iff _ hl, State.unblanked, State.within_live_iff rfl]

theorem lanesFor_off {st : Nat} (h : st ≠ radRx) (hn : n < 4) : (s.lanesFor st).laneState n = laneOff := by
  rw [State.lanesFor, if_neg h, lanesTo_laneState _ hn fun _ _ => by decide]

theorem laneRest_lt (n : Nat) : s.laneRest n < 16 := by
  rw [State.laneRest]
  split
  · decide
  · split <;> decide

/-- In RX, with a Bow sequencer that answers, a lane searches or is off (R77). -/
theorem lanesFor_rx (h : s.radio = 3) (hb : s.dev.radio.bowDead = false) (hn : n < 4) :
    (s.lanesFor radRx).laneState n = if s.laneUp n then laneSearch else laneOff := by
  have hup : s.rxEntered.laneUp n = s.laneUp n := by
    have hr : ∀ {a : Nat}, a ∉ [LANES_STAT, RXFE_GAIN] → s.rxEntered.reg a = s.reg a := fun h => rxEntered_reg h
    simp only [State.laneUp, State.windowLanes, State.en, State.bit, State.fld, rxEntered_dev, hr (a := LANES_ENABLE) (by decide),
      hr (a := SAMP_CFG) (by decide), hr (a := (CTRL_EN lanesPage).addr) (by decide)]
  have hruns : s.rxEntered.rxRuns = true := by
    have h3 : s.rxEntered.fld RCTL_STAT_STATE = 3 := by rw [State.fld, rxEntered_reg (by decide), ← State.fld, ← State.radio, h]
    simp [State.rxRuns, h3, rxEntered_dev, hb]
  have hblank : s.rxEntered.dev.radio.blank = false := by rw [rxEntered_dev]
  rw [State.lanesFor, if_pos rfl, lanesTo_laneState _ hn fun _ _ => laneRest_lt _, State.laneRest, State.laneOn, hruns, hup, hblank, Bool.and_true,
    Bool.and_false, if_neg (by decide : ¬ false = true)]

/-! ### The step's end and the walk's -/

/-- The walk is over. -/
def State.walkGone (s : State) : State := s.live fun d => { d with radio := { d.radio with walk := none } }

theorem lockHeard_bind (h : s.dev.tx.jobs = []) (k : Unit → M Unit) : (lockHeard >>= k).run s = (k ()).run s := by
  rw [lockHeard, run_assoc, run_getS, State.jobs, h]
  rfl
theorem lockHeard_run (h : s.dev.tx.jobs = []) : lockHeard.run s = s := by
  rw [lockHeard, run_getS, State.jobs, h]
  rfl
theorem lockGo_run (h : s.dev.tx.jobs = []) : lockGo.run s = s := by
  rw [lockGo, run_getS, run_ite]
  split
  · rw [State.jobs, h]
    rfl
  · rfl
theorem lockRise_bind (k : Unit → M Unit) : (lockRise >>= k).run s = (k ()).run s.lockRisen := by
  rw [lockRise, run_assoc, run_modRadio_bind, setLock_bind, State.lockRisen, State.unlockOver]

theorem walkOver_run (hj : s.dev.tx.jobs = []) (hw : s.dev.radio.waiting = none) : walkOver.run s = s.walkGone.idled := by
  have hwait : s.walkGone.idled.dev.radio.waiting = none := by rw [idled_dev, State.walkGone, State.live_dev]; exact hw
  rw [walkOver, run_modRadio_bind, ← State.walkGone, setIdle_bind, run_getS, hwait]
  exact (run_nop_bind ..).trans (lockGo_run (by rw [idled_dev, State.walkGone, State.live_dev]; exact hj))

theorem entered_dev (st : Nat) : ∃ x, (s.entered st).dev = { s.dev with radio := { s.dev.radio with fem := x } } :=
  ⟨_, by rw [State.entered, State.live_dev, State.dev_put]⟩
theorem lockRisen_dev : s.lockRisen.dev = { s.dev with radio := { s.dev.radio with unlock := false } } := by
  rw [State.lockRisen, locked_dev, State.unlockOver, State.live_dev]

/-- What is left once the last state of a walk is entered: its request completes, and the walk is over. -/
def arrival (req : Option RadioReq) : M Unit := do
  match req with
  | some r =>
    modRadio fun x => { x with walk := none }
    setIdle
    reqDone r stOk
  | none => nop
  walkOver

theorem lanesSettle_run (st : Nat) (m : M Unit) :
    (if st = radRx then (do lanesEnterRx; m) else (do setBlank false; forAll (List.range 4) fun n => setLaneState n laneOff; m)).run s
      = m.run (s.lanesFor st) := by
  rw [run_ite, State.lanesFor]
  split
  · rw [lanesEnterRx_bind]
  · rw [setBlank, run_modDev_bind, lanesTo_bind, State.unblanked]

theorem tuned_run {b : Bool} (h : (s.tuneStored b).lockRisen.dev.tx.jobs = []) (m : M Unit) :
    (do tuneStore b; lockRise; lockHeard; m).run s = m.run (s.tuneStored b).lockRisen := by
  rw [(total_tuneStore b).run_bind, ← State.tuneStored, lockRise_bind, lockHeard_bind h]

/-- How a walk goes on from a state entered: to the next state, or to its end. -/
def stepAfter (w : Walk) : Option Nat → M Unit
  | some n => stepStart n w.goal w.retune w.req
  | none => arrival w.req

/-- The end of a walk's step, up to how the walk goes on. -/
theorem stepDone_enters {w : Walk} {x : Option Nat} (hj : s.dev.tx.jobs = []) (hw : s.dev.radio.walk = some w)
    (hu : w.tunes = true → s.dev.radio.unlock = false) (hn : walkNext w.next w.goal w.retune = x) :
    stepDone.run s = (stepAfter w x).run ((s.stepEnded w).lanesFor w.next) := by
  have hc : (w.tunes && s.dev.radio.unlock) = false := by
    cases h : w.tunes with
    | false => rfl
    | true => rw [hu h]; rfl
  have hx : ((s.entered w.next).tuneStored w.miss).lockRisen.dev.tx.jobs = [] := by
    obtain ⟨c, hc⟩ := tuneStored_dev (s := s.entered w.next) w.miss
    obtain ⟨x, hx⟩ := entered_dev (s := s) w.next
    rw [lockRisen_dev, hc, hx]
    exact hj
  have hgoes : ∀ t : State, (if w.next = radRx then (do lanesEnterRx; stepAfter w x)
      else (do setBlank false; forAll (List.range 4) fun n => setLaneState n laneOff; stepAfter w x)).run t = (stepAfter w x).run (t.lanesFor w.next) :=
    fun t => lanesSettle_run w.next _
  rw [State.stepEnded]
  cases ht : w.tunes with
  | false =>
    rw [if_neg (by decide), ← hgoes]
    rw [ht] at hc
    cases x <;> simp only [stepDone, run_getS, hw, hc, ht, Bool.false_eq_true, if_false, enterState_bind, hn] <;> rfl
  | true =>
    rw [if_pos rfl, ← hgoes, ← tuned_run hx]
    rw [ht] at hc
    cases x <;> simp only [stepDone, run_getS, hw, hc, ht, Bool.false_eq_true, if_false, if_true, enterState_bind, hn] <;> rfl

theorem stepDone_arrives {w : Walk} (hj : s.dev.tx.jobs = []) (hw : s.dev.radio.walk = some w) (hu : w.tunes = true → s.dev.radio.unlock = false)
    (hn : walkNext w.next w.goal w.retune = none) : stepDone.run s = (arrival w.req).run ((s.stepEnded w).lanesFor w.next) :=
  stepDone_enters hj hw hu hn

/-- A walk that a request began ends: the request completes, and the radio is at rest (R43). -/
theorem arrival_run (hj : s.dev.tx.jobs = []) (hw : s.dev.radio.waiting = none) (r : RadioReq) :
    (arrival (some r)).run s = ((s.walkGone.idled).answered r 0).walkGone.idled := by
  rw [arrival]
  simp only [run_modRadio_bind]
  rw [← State.walkGone, setIdle_bind, reqDone_bind, walkOver_run]
  · rw [answered_dev, idled_dev, State.walkGone, State.live_dev]
    exact hj
  · rw [answered_radio, idled_dev, State.walkGone, State.live_dev]
    exact hw

/-- A walk that no request began ends. -/
theorem arrival_none (hj : s.dev.tx.jobs = []) (hw : s.dev.radio.waiting = none) : (arrival none).run s = s.walkGone.idled := by
  rw [arrival]
  exact (run_nop_bind ..).trans (walkOver_run hj hw)

end Sys2Proof.Machine
end

section
/-!
Transitions of the radio that end, and lock lost and found (R42, R43, R48–R50, R77).
-/
namespace Sys2Proof.Machine
open Sys2Proof.Reg

variable {s t : State} {F : Foot} {l : List (Fld × Nat)} {noted : List Nat} {n m v : Nat} {w : Walk}

/-! ### The last state of a walk entered -/

theorem stepEnded_dev (w : Walk) : ∃ x c, (s.stepEnded w).dev = { s.dev with radio := { s.dev.radio with
    fem := x
    cache := if w.tunes && w.miss then ({ word := s.dev.radio.word, code := c, temp := s.dev.radio.temp } :: s.dev.radio.cache).take 16
      else s.dev.radio.cache
    unlock := if w.tunes then false else s.dev.radio.unlock } } := by
  obtain ⟨x, hx⟩ := entered_dev (s := s) w.next
  rw [State.stepEnded]
  cases w.tunes with
  | false => exact ⟨x, 0, hx⟩
  | true =>
    obtain ⟨c, hc⟩ := tuneStored_dev (s := s.entered w.next) w.miss
    exact ⟨x, c, by rw [if_pos rfl, lockRisen_dev, hc, hx, Bool.true_and, if_pos rfl]⟩

theorem entered_reg {a : Nat} (st : Nat) (h : a ≠ RCTL_STAT) : (s.entered st).reg a = s.reg a := by
  rw [State.entered, State.live_reg, State.reg_put_other _ h]
theorem entered_radio {st : Nat} (h : st < 8) : (s.entered st).radio = st := by
  rw [State.radio, State.entered, State.live_fld, State.fld_self _ (by decide)]
  exact Nat.mod_eq_of_lt h
theorem lockRisen_reg {a : Nat} (h : a ∉ [RCTL_STAT, SYNTH_STAT]) : s.lockRisen.reg a = s.reg a := by
  simp only [List.mem_cons, List.not_mem_nil, or_false, not_or] at h
  rw [State.lockRisen, State.locked, State.reg_put_other _ (by exact h.2), State.reg_put_other _ (by exact h.1), State.unlockOver, State.live_reg]
theorem lockRisen_radio : s.lockRisen.radio = s.radio := by
  rw [State.radio, State.lockRisen, State.locked, State.fld_apart _ (by decide), State.fld_apart _ (by decide), State.unlockOver, State.live_fld,
    State.radio]
theorem stepEnded_reg {a : Nat} (w : Walk) (h : a ∉ [RCTL_STAT, SYNTH_STAT]) : (s.stepEnded w).reg a = s.reg a := by
  have hr : a ≠ RCTL_STAT := fun hm => h (by simp [hm])
  have hs : a ≠ SYNTH_STAT := fun hm => h (by simp [hm])
  rw [State.stepEnded]
  split
  · rw [lockRisen_reg h, tuneStored_reg _ hs, entered_reg _ hr]
  · rw [entered_reg _ hr]
theorem stepEnded_radio (h : w.next < 8) : (s.stepEnded w).radio = w.next := by
  rw [State.stepEnded]
  split
  · rw [lockRisen_radio, State.radio, tuneStored_fld _ (by decide), ← State.radio, entered_radio h]
  · rw [entered_radio h]
theorem stepEnded_lock (h : w.tunes = true) : (s.stepEnded w).bit RCTL_STAT_LOCK = true := by
  rw [State.stepEnded, if_pos h, State.lockRisen, locked_lock]
theorem stepEnded_laneUp (w : Walk) : (s.stepEnded w).laneUp n = s.laneUp n := by
  obtain ⟨x, c, hd⟩ := stepEnded_dev (s := s) w
  simp only [State.laneUp, State.windowLanes, State.en, State.bit, State.fld, hd, stepEnded_reg w (a := LANES_ENABLE) (by decide),
    stepEnded_reg w (a := SAMP_CFG) (by decide), stepEnded_reg w (a := (CTRL_EN lanesPage).addr) (by decide)]

theorem within_tuneStored_iff {miss : Bool} (h : F.regs SYNTH_STAT = true) (hs : s.Within F t) : s.Within F (t.tuneStored miss) :=
  hs.trans ((keeps_tuneStore miss h).run t)
theorem within_stepEnded {w : Walk} (h : F.regs RCTL_STAT = true) (h' : F.regs SYNTH_STAT = true) : s.Within F (s.stepEnded w) := by
  have he : s.Within F (s.entered w.next) := by
    rw [State.entered, State.within_live_iff rfl, State.within_put_iff h]
    exact s.within_refl _
  rw [State.stepEnded]
  split
  · rw [State.lockRisen, within_locked_iff h h', State.unlockOver, State.within_live_iff rfl]
    exact within_tuneStored_iff h' he
  · exact he

theorem idled_busy : s.idled.bit RCTL_STAT_BUSY = false := by
  rw [State.idled, State.bit_apart _ (by decide), State.bit_self _ (by decide)]
  decide
theorem idled_target : s.idled.fld RCTL_STAT_TARGET = s.radio := by
  rw [State.idled, State.fld_self _ (by decide)]
  exact Nat.mod_eq_of_lt (State.fld_lt rfl)
theorem idled_reg {a : Nat} (h : a ≠ RCTL_STAT) : s.idled.reg a = s.reg a := by
  rw [State.idled, State.reg_put_other _ h, State.reg_put_other _ h]
theorem idled_fld {f : Fld} (h : RCTL_STAT_BUSY.apart f = true) (h' : RCTL_STAT_TARGET.apart f = true) : s.idled.fld f = s.fld f := by
  rw [State.idled, State.fld_apart _ h', State.fld_apart _ h]
theorem walkGone_dev : s.walkGone.dev = { s.dev with radio := { s.dev.radio with walk := none } } := by rw [State.walkGone, State.live_dev]
theorem walkGone_reg (a : Nat) : s.walkGone.reg a = s.reg a := by rw [State.walkGone, State.live_reg]
theorem walkGone_fld (f : Fld) : s.walkGone.fld f = s.fld f := by rw [State.walkGone, State.live_fld]
theorem walkGone_radio : s.walkGone.radio = s.radio := walkGone_fld _
theorem within_walkGone_iff : s.Within F t.walkGone ↔ s.Within F t := State.within_live_iff rfl

/-- A request's walk that ends. -/
def State.arrived (s : State) (r : RadioReq) : State := ((s.walkGone.idled).answered r 0).walkGone.idled

theorem arrived_reg {a : Nat} (r : RadioReq) (h : a ∉ RCTL_STAT :: RCTL_CMDSTAT :: evRegs rctlPage) : (s.arrived r).reg a = s.reg a := by
  have hs : a ≠ RCTL_STAT := List.ne_of_not_mem_cons h
  rw [State.arrived, idled_reg hs, walkGone_reg, answered_reg (fun hm => h (List.mem_cons_of_mem _ hm)), idled_reg hs, walkGone_reg]
theorem arrived_stat {f : Fld} (r : RadioReq) (hf : f.addr = RCTL_STAT) (h : RCTL_STAT_BUSY.apart f = true) (h' : RCTL_STAT_TARGET.apart f = true) :
    (s.arrived r).fld f = s.fld f := by
  rw [State.arrived, idled_fld h h', walkGone_fld, answered_fld (by rw [hf]; decide), idled_fld h h', walkGone_fld]
theorem arrived_radio (r : RadioReq) : (s.arrived r).radio = s.radio := arrived_stat r rfl (by decide) (by decide)
theorem arrived_busy (r : RadioReq) : (s.arrived r).bit RCTL_STAT_BUSY = false := by rw [State.arrived, idled_busy]
theorem arrived_target (r : RadioReq) : (s.arrived r).fld RCTL_STAT_TARGET = s.radio := by
  rw [State.arrived, idled_target, walkGone_radio, State.radio, answered_fld (by decide), ← State.radio, idled_radio, walkGone_radio]
theorem arrived_status (r : RadioReq) : (s.arrived r).fld RCTL_CMDSTAT_STATUS = 0 := by
  rw [State.arrived, idled_fld (by decide) (by decide), walkGone_fld, answered_status]
theorem arrived_time (r : RadioReq) : (s.arrived r).fld RCTL_CMDSTAT_TIME = min 0xFFFF ((s.dev.time.link - r.at_) / 40) := by
  rw [State.arrived, idled_fld (by decide) (by decide), walkGone_fld, answered_time, idled_dev, walkGone_dev]
theorem arrived_dev (r : RadioReq) : ∃ x, (s.arrived r).dev = { s.dev with radio := { s.dev.radio with walk := none }, evLost := x } :=
  ⟨_, by rw [State.arrived, idled_dev, walkGone_dev, answered_dev, idled_dev, walkGone_dev]⟩
theorem within_arrived_iff {r : RadioReq} (h : ∀ a ∈ RCTL_STAT :: RCTL_CMDSTAT :: evRegs rctlPage, F.regs a = true) :
    s.Within F (t.arrived r) ↔ s.Within F t := by
  have hs : F.regs RCTL_STAT = true := h _ List.mem_cons_self
  rw [State.arrived, within_idled_iff hs, within_walkGone_iff, within_answered_iff fun a ha => h a (List.mem_cons_of_mem _ ha), within_idled_iff hs,
    within_walkGone_iff]

/-- The registers that the lanes show a change of the radio's state in. -/
def laneShown : List Nat := [LANES_STAT, LANES_ED 0, LANES_ED 1, LANES_ED 2, LANES_ED 3, RXFE_GAIN]

theorem walkNext_arrived {g : Nat} (h : g ≤ 3) : walkNext g g false = none := by interval_cases g <;> rfl

theorem walk_ends (hj : s.dev.tx.jobs = []) (hwait : s.dev.radio.waiting = none) (hb : s.dev.radio.bowDead = false) {r : RadioReq}
    (hw : s.dev.radio.walk = some w) (hr : w.req = some r) (hng : w.next = w.goal) (hg : w.goal ≤ 3) (hret : w.retune = false)
    (hu : w.tunes = true → s.dev.radio.unlock = false) :
    Completes .radioTransitionDone s fun t =>
      t.radio = w.goal ∧ t.bit RCTL_STAT_BUSY = false ∧ t.fld RCTL_STAT_TARGET = w.goal ∧
      t.fld RCTL_CMDSTAT_STATUS = 0 ∧ t.fld RCTL_CMDSTAT_TIME = min 0xFFFF ((s.dev.time.link - r.at_) / 40) ∧
      t.dev.radio.walk = none ∧
      (w.tunes = true → t.bit RCTL_STAT_LOCK = true ∧
        t.dev.radio.cache.tail = (if w.miss then s.dev.radio.cache.take 15 else s.dev.radio.cache.tail) ∧
        (w.miss = true → (t.dev.radio.cache.head?.map fun e => (e.word, e.temp)) = some (s.dev.radio.word, s.dev.radio.temp))) ∧
      (w.goal = 3 → ∀ n < 4, t.laneState n =
        if s.en lanesPage && s.bit ⟨LANES_ENABLE, n, n⟩ && bitOf s.windowLanes n then laneSearch else laneOff) ∧
      (w.goal < 3 → ∀ n < 4, t.laneState n = laneOff) ∧
      s.Within (onPages [rctlPage, synthPage, lanesPage, rxfePage]) t := by
  obtain ⟨x, c, hd⟩ := stepEnded_dev (s := s) w
  obtain ⟨y, z, hl⟩ := lanesFor_dev (s := s.stepEnded w) w.next
  have hrad : ((s.stepEnded w).lanesFor w.next).radio = w.goal := by
    rw [State.radio, lanesFor_fld _ (by decide), ← State.radio, stepEnded_radio (by omega), hng]
  have hlane : ∀ {n}, n < 4 → (((s.stepEnded w).lanesFor w.next).arrived r).laneState n = ((s.stepEnded w).lanesFor w.next).laneState n :=
    fun _ => by rw [State.laneState, State.fld, arrived_reg (a := LANES_STAT) _ (by decide), State.laneState, State.fld]
  have hrun : stepDone.run s = ((s.stepEnded w).lanesFor w.next).arrived r := by
    rw [stepDone_arrives hj hw hu (by rw [hng, hret]; exact walkNext_arrived hg), hr]
    exact arrival_run (by rw [hl, hd]; exact hj) (by rw [hl, hd]; exact hwait) r
  obtain ⟨e, he⟩ := arrived_dev (s := (s.stepEnded w).lanesFor w.next) r
  refine completes_run rfl ?_
  rw [hrun]
  refine ⟨?_, ?_, ?_, ?_, ?_, ?_, ?_, ?_, ?_, ?_⟩
  · rw [State.radio, latchEdges_fld, ← State.radio, arrived_radio, hrad]
  · rw [latchEdges_bit, arrived_busy]
  · rw [latchEdges_fld, arrived_target, hrad]
  · rw [latchEdges_fld, arrived_status]
  · rw [latchEdges_fld, arrived_time, hl, hd]
  · rw [latchEdges_radio, he]
  · intro ht
    refine ⟨?_, ?_, ?_⟩
    · rw [latchEdges_bit, State.bit, arrived_stat _ rfl (by decide) (by decide), ← State.bit, lanesFor_bit _ (by decide), stepEnded_lock ht]
    · rw [latchEdges_radio, he, hl, hd, ht]
      cases w.miss <;> simp
    · intro hm
      rw [latchEdges_radio, he, hl, hd, ht, hm]
      rfl
  · intro h3 n hn
    rw [State.laneState, latchEdges_fld, ← State.laneState, hlane hn, hng, h3, lanesFor_rx (by rw [stepEnded_radio (by omega), hng, h3]) (by rw [hd]; exact hb) hn,
      stepEnded_laneUp, State.laneUp]
  · intro h3 n hn
    rw [State.laneState, latchEdges_fld, ← State.laneState, hlane hn, lanesFor_off (by rw [hng]; exact Nat.ne_of_lt h3) hn]
  · rw [State.within_latch_iff, within_arrived_iff (by decide), within_lanesFor_iff (by decide)]
    exact within_stepEnded (by decide) (by decide)

end Sys2Proof.Machine
end

section
/-!
Lock lost and found, errors on the die-to-die link, and a Bow sequencer that stops responding (R26, R46, R49, R50).
-/
namespace Sys2Proof.Machine
open Sys2Proof.Reg

variable {s t : State} {F : Foot} {l : List (Fld × Nat)} {noted : List Nat} {n m v : Nat} {w : Walk}

/-! ### A tune that ends without lock, or with it (R49) -/

theorem tuning_radio : s.tuning.radio = s.radio := by
  rw [State.radio, State.fld, tuning_reg (by decide), ← State.fld, State.locked, State.fld_apart _ (by decide), State.fld_apart _ (by decide), State.radio]

theorem tune_repeats (hw : s.dev.radio.walk = some w) (ht : w.tunes = true) (hu : s.dev.radio.unlock = true) :
    Completes .radioTransitionDone s fun t =>
      t.radio = s.radio ∧ t.bit RCTL_STAT_LOCK = false ∧ t.dev.radio.unlock = true ∧
      (t.dev.radio.walk.map fun x => (x.next, x.goal, x.tunes, x.req)) = some (w.next, w.goal, true, w.req) ∧
      s.Within (onlyRegs [RCTL_STAT, SYNTH_STAT, SYNTH_FREQ, SYNTH_CACHE]) t := by
  have hrun : stepDone.run s = (s.tuneStored w.miss).tuning.walkSet { w with miss := (s.tuneStored w.miss).tuneMisses } := by
    simp only [stepDone, run_getS, hw, ht, hu, Bool.and_self, if_true, (total_tuneStore w.miss).run_bind, tuneStart_bind, run_modRadio]
    rfl
  obtain ⟨c, hc⟩ := tuneStored_dev (s := s) w.miss
  obtain ⟨d, hd⟩ := tuning_dev (s := s.tuneStored w.miss)
  refine completes_run rfl ?_
  rw [hrun]
  refine ⟨?_, ?_, ?_, ?_, ?_⟩
  · rw [State.radio, latchEdges_fld, State.walkSet, State.live_fld, ← State.radio, tuning_radio, State.radio, tuneStored_fld _ (by decide), ← State.radio]
  · rw [latchEdges_bit, State.walkSet, State.live_bit, tuning_lock]
  · rw [latchEdges_radio, State.walkSet, State.live_dev, hd, hc]
    exact hu
  · rw [latchEdges_radio, State.walkSet, State.live_dev, Option.map_some, ht]
  · rw [State.within_latch_iff, State.walkSet, State.within_live_iff rfl, within_tuning_iff (by decide)]
    exact within_tuneStored_iff (by decide) (s.within_refl _)

theorem lockRisen_synth : s.lockRisen.bit SYNTH_STAT_LOCK = true := by
  rw [State.lockRisen, State.locked, State.bit_self _ (by decide)]
  decide
theorem stepEnded_synth (h : w.tunes = true) : (s.stepEnded w).bit SYNTH_STAT_LOCK = true := by rw [State.stepEnded, if_pos h, lockRisen_synth]

/-- What a tune that found lock leaves, wherever the walk goes from there. -/
structure State.Tuned (t : State) : Prop where
  radio : t.radio = 2
  lock : t.bit RCTL_STAT_LOCK = true
  synth : t.bit SYNTH_STAT_LOCK = true
  unlock : t.dev.radio.unlock = false

theorem State.Tuned.arrived (h : s.Tuned) (r : RadioReq) : (s.arrived r).Tuned := by
  obtain ⟨x, hx⟩ := arrived_dev (s := s) r
  refine ⟨by rw [arrived_radio, h.radio], ?_, ?_, by rw [hx]; exact h.unlock⟩
  · rw [State.bit, arrived_stat r rfl (by decide) (by decide), ← State.bit, h.lock]
  · rw [State.bit, State.fld, arrived_reg r (by decide), ← State.fld, ← State.bit, h.synth]

theorem State.Tuned.over (h : s.Tuned) : s.walkGone.idled.Tuned := by
  refine ⟨by rw [idled_radio, walkGone_radio, h.radio], ?_, ?_, by rw [idled_dev, walkGone_dev]; exact h.unlock⟩
  · rw [State.bit, idled_fld (by decide) (by decide), walkGone_fld, ← State.bit, h.lock]
  · rw [State.bit, idled_fld (by decide) (by decide), walkGone_fld, ← State.bit, h.synth]

theorem State.Tuned.walks (h : s.Tuned) (g : Nat) (x : Walk) : ((s.busied g).walkSet x).Tuned := by
  refine ⟨?_, ?_, ?_, by rw [State.walkSet, State.live_dev, busied_dev]; exact h.unlock⟩
  · rw [State.radio, State.walkSet, State.live_fld, busied_fld (by decide) (by decide), ← State.radio, h.radio]
  · rw [State.walkSet, State.live_bit, busied_bit (by decide) (by decide), h.lock]
  · rw [State.walkSet, State.live_bit, busied_bit (by decide) (by decide), h.synth]

theorem tuned_stepEnded (hn : w.next = 2) (ht : w.tunes = true) : ((s.stepEnded w).lanesFor w.next).Tuned := by
  obtain ⟨x, c, hd⟩ := stepEnded_dev (s := s) w
  obtain ⟨y, z, hl⟩ := lanesFor_dev (s := s.stepEnded w) w.next
  refine ⟨?_, ?_, ?_, by rw [hl, hd, ht]; rfl⟩
  · rw [State.radio, lanesFor_fld _ (by decide), ← State.radio, stepEnded_radio (by omega), hn]
  · rw [lanesFor_bit _ (by decide), stepEnded_lock ht]
  · rw [lanesFor_bit _ (by decide), stepEnded_synth ht]

/-- A step upward that tunes nothing: only the walk is noted. -/
theorem stepStart_up {goal next : Nat} {retune : Bool} {req : Option RadioReq} (hr : s.radio ≠ 3) (hn : 2 < next) :
    (stepStart next goal retune req).run s = (s.busied goal).walkSet { next := next, goal := goal, retune := retune, req := req } := by
  have h2 : (next == 2) = false := by simp; omega
  simp only [stepStart, run_getS, if_neg hr, if_neg (show ¬ next < 2 by omega), h2, Bool.false_and, Bool.false_eq_true, if_false, run_pure_bind,
    setBusy_bind, run_modRadio]
  simp [State.walkSet]

theorem lock_found (hj : s.dev.tx.jobs = []) (hwait : s.dev.radio.waiting = none) (hw : s.dev.radio.walk = some w) (ht : w.tunes = true)
    (hn : w.next = 2) (hg : 2 ≤ w.goal) (hret : w.retune = false) :
    Completes .synLock s fun t =>
      t.radio = 2 ∧ t.bit RCTL_STAT_LOCK = true ∧ t.bit SYNTH_STAT_LOCK = true ∧ t.dev.radio.unlock = false := by
  have hwu : s.unlockOver.dev.radio.walk = some w := hw
  refine completes_run rfl ?_
  simp only [hw, ht, if_true, run_modRadio_bind]
  have hT : (stepDone.run s.unlockOver).Tuned := by
    rw [stepDone_enters (s := s.unlockOver) hj hwu (fun _ => rfl) rfl]
    have hend := tuned_stepEnded (s := s.unlockOver) hn ht
    obtain ⟨x, c, hd⟩ := stepEnded_dev (s := s.unlockOver) w
    obtain ⟨y, z, hl⟩ := lanesFor_dev (s := s.unlockOver.stepEnded w) w.next
    have hjobs : ((s.unlockOver.stepEnded w).lanesFor w.next).dev.tx.jobs = [] := by rw [hl, hd]; exact hj
    have hwaits : ((s.unlockOver.stepEnded w).lanesFor w.next).dev.radio.waiting = none := by rw [hl, hd]; exact hwait
    by_cases h3 : w.goal = 3
    · have hon : walkNext w.next w.goal w.retune = some 3 := by rw [hn, hret, h3]; rfl
      rw [hon, stepAfter, stepStart_up (by rw [hend.radio]; decide) (by decide)]
      exact hend.walks _ _
    · have hnone : walkNext w.next w.goal w.retune = none := by
        rw [hn, hret, walkNext, if_neg (by omega), if_neg (by decide), if_neg (by decide), if_pos rfl, if_neg (by decide), if_neg h3]
      rw [hnone, stepAfter]
      cases w.req with
      | none =>
        rw [arrival_none hjobs hwaits]
        exact hend.over
      | some r =>
        rw [arrival_run hjobs hwaits]
        exact hend.arrived r
  exact ⟨hT.radio, hT.lock, hT.synth, hT.unlock⟩

theorem lock_again (hi : s.Inv) (hj : s.dev.tx.jobs = []) (hw : s.dev.radio.walk = none) (hl : s.bit RCTL_STAT_LOCK = false) (hr : 2 ≤ s.radio) :
    Completes .synLock s fun t => t.dev.radio.unlock = false ∧ s.Sets t [(RCTL_STAT_LOCK, 1), (SYNTH_STAT_LOCK, 1)] := by
  refine completes_run rfl ?_
  simp only [hw, hl, hr, Bool.not_false, and_self, if_true]
  have hjr : s.lockRisen.dev.tx.jobs = [] := by rw [lockRisen_dev]; exact hj
  rw [lockRise_bind, lockHeard_bind hjr, lockGo_run hjr]
  exact ⟨by rw [latchEdges_radio, lockRisen_dev], (((did_refl hi).unlockOver).locked true).latched s⟩

/-! ### Lock lost (R49) -/

/-- Lock is low and its loss counted (R49). -/
def State.lockLost (s : State) : State :=
  (emit synthPage 0xB8).run ((((s.locked false).live fun d => { d with radio := { d.radio with unlock := true } })).put SYNTH_STAT_UNLOCKS
    (min 0xFFFF (s.fld SYNTH_STAT_UNLOCKS + 1)))

/-- A tune of the same channel afresh, the lanes off meanwhile (R49). -/
def State.relocking (s : State) (goal : Nat) (req : Option RadioReq) : State :=
  ((((s.tuning.entered radSyn).unblanked).lanesTo fun _ => laneOff).busied goal).walkSet
    { next := 2, goal := goal, tunes := true, retune := false, miss := s.tuneMisses, req := req }

theorem relock_run (goal : Nat) (req : Option RadioReq) : (relock goal req).run s = s.relocking goal req := by
  rw [relock, tuneStart_bind, enterState_bind, setBlank, run_modDev_bind, ← State.unblanked, lanesTo_bind, setBusy_bind, run_modRadio]
  rfl

theorem tuning_stat {f : Fld} (ha : f.addr = SYNTH_STAT) (h : SYNTH_STAT_HIT.apart f = true) (h' : SYNTH_STAT_CAL.apart f = true) :
    s.tuning.fld f = (s.locked false).fld f := by
  rw [State.tuning, State.fld, State.reg_put_other _ (by rw [tuneCount_addr, ha]; decide), ← State.fld, State.fld_apart _ h', State.fld_apart _ h,
    State.fld, cacheUsed_reg, State.reg_put_other _ (by rw [ha]; decide), State.live_reg, ← State.fld]

theorem relocking_stat {f : Fld} {goal : Nat} {req : Option RadioReq} (ha : f.addr = SYNTH_STAT) (h : SYNTH_STAT_HIT.apart f = true)
    (h' : SYNTH_STAT_CAL.apart f = true) : (s.relocking goal req).fld f = (s.locked false).fld f := by
  rw [State.relocking, State.walkSet, State.live_fld, State.fld, busied_reg (by rw [ha]; decide), lanesTo_reg _ (by rw [ha]; decide), State.unblanked,
    State.live_reg, entered_reg _ (by rw [ha]; decide), ← State.fld, tuning_stat ha h h']
theorem relocking_synth {goal : Nat} {req : Option RadioReq} : (s.relocking goal req).bit SYNTH_STAT_LOCK = false := by
  rw [State.bit, relocking_stat rfl (by decide) (by decide), State.locked, State.fld_self _ (by decide)]
  decide
theorem relocking_lock {goal : Nat} {req : Option RadioReq} : (s.relocking goal req).bit RCTL_STAT_LOCK = false := by
  rw [State.relocking, State.walkSet, State.live_bit, busied_bit (by decide) (by decide), lanesTo_bit _ (by decide), State.unblanked, State.live_bit,
    State.entered, State.live_bit, State.bit_apart _ (by decide), tuning_lock]
theorem relocking_radio {goal : Nat} {req : Option RadioReq} : (s.relocking goal req).radio = 2 := by
  rw [State.radio, State.relocking, State.walkSet, State.live_fld, busied_fld (by decide) (by decide), lanesTo_fld _ (by decide), State.unblanked,
    State.live_fld, ← State.radio, entered_radio (by decide)]
theorem relocking_busy {goal : Nat} {req : Option RadioReq} : (s.relocking goal req).bit RCTL_STAT_BUSY = true := by
  rw [State.relocking, State.walkSet, State.live_bit, busied_busy]
theorem within_relocking_iff {goal : Nat} {req : Option RadioReq}
    (h : ∀ a ∈ [RCTL_STAT, SYNTH_STAT, SYNTH_FREQ, SYNTH_CACHE, LANES_STAT, LANES_ED 0, LANES_ED 1, LANES_ED 2, LANES_ED 3], F.regs a = true) :
    s.Within F (t.relocking goal req) ↔ s.Within F t := by
  have hr : F.regs RCTL_STAT = true := h _ (by simp)
  rw [State.relocking, State.walkSet, State.within_live_iff rfl, within_busied_iff hr,
    within_lanesTo_iff _ fun a ha => h a (by simp only [List.mem_cons, List.not_mem_nil, or_false] at ha ⊢; tauto), State.unblanked,
    State.within_live_iff rfl, State.entered, State.within_live_iff rfl, State.within_put_iff hr,
    within_tuning_iff fun a ha => h a (by simp only [List.mem_cons, List.not_mem_nil, or_false] at ha ⊢; tauto)]

theorem lock_lost (hj : s.dev.tx.jobs = []) (hb : s.dev.radio.bowDead = false) (hw : s.dev.radio.walk = none)
    (hl : s.bit RCTL_STAT_LOCK = true) (hr : s.radio = 2) :
    Completes .synUnlock s fun t =>
      t.bit RCTL_STAT_LOCK = false ∧ t.bit SYNTH_STAT_LOCK = false ∧ t.radio = 2 ∧
      t.fld SYNTH_STAT_UNLOCKS = min 0xFFFF (s.fld SYNTH_STAT_UNLOCKS + 1) ∧ t.bit RCTL_STAT_BUSY = true ∧
      (t.dev.radio.walk.map fun w => (w.next, w.goal, w.tunes)) = some (2, 2, true) ∧
      s.Within (onPages [rctlPage, synthPage, lanesPage]) t := by
  have hon : s.onAir = none := State.onAir_none hj
  have hrun : synUnlock.run s = s.lockLost.relocking 2 none := by
    simp only [synUnlock, run_getS, hl, if_true, hb, hon, hw, Option.isSome_none, Bool.false_eq_true, if_false, hr, setLock_bind,
      run_modRadio_bind, run_setFld_bind, run_emit_bind]
    rw [if_neg (by decide), relock_run]
    rfl
  refine completes_run rfl ?_
  rw [hrun]
  refine ⟨by rw [latchEdges_bit, relocking_lock], by rw [latchEdges_bit, relocking_synth], by rw [State.radio, latchEdges_fld, ← State.radio, relocking_radio],
    ?_, by rw [latchEdges_bit, relocking_busy], ?_, ?_⟩
  · rw [latchEdges_fld, relocking_stat rfl (by decide) (by decide), State.locked, State.fld_apart _ (by decide), State.fld_apart _ (by decide),
      State.lockLost, emit_fld (by decide), State.fld_self _ (by decide)]
    exact Nat.mod_eq_of_lt (by show _ < 2 ^ 16; omega)
  · rw [latchEdges_radio, State.relocking, State.walkSet, State.live_dev, Option.map_some]
  · rw [State.within_latch_iff, within_relocking_iff (by decide), State.lockLost, State.within_emit_iff (by decide), State.within_put_iff (by decide),
      State.within_live_iff rfl, within_locked_iff (by decide) (by decide)]
    exact s.within_refl _

/-- The time limit of a loss of lock noted, with its interrupt (R49). -/
def State.lockGivenUp (s : State) : State :=
  ((s.put SYNTH_STAT_LOCKTO 1).live fun d => { d with intc := { d.intc with edge := bitSet d.intc.edge 58 } }).unlockOver

theorem lockGivenUp_dev : s.lockGivenUp.dev =
    { s.dev with intc := { s.dev.intc with edge := bitSet s.dev.intc.edge 58 }, radio := { s.dev.radio with unlock := false } } := by
  rw [State.lockGivenUp, State.unlockOver, State.live_dev, State.live_dev, State.dev_put]
theorem lockGivenUp_radio : s.lockGivenUp.radio = s.radio := by
  rw [State.radio, State.lockGivenUp, State.unlockOver, State.live_fld, State.live_fld, State.fld_apart _ (by decide), State.radio]
theorem State.Did.lockGivenUp (h : s.Did t l noted F) : s.Did t.lockGivenUp (l ++ [(SYNTH_STAT_LOCKTO, 1)]) noted F :=
  ((h.puts (by decide)).lived (by rfl)).unlockOver

/-- No lock within 1,000 µs after a loss: the radio goes to STBY (R49). -/
theorem lock_timesOut (hi : s.Inv) (hj : s.dev.tx.jobs = []) (hwait : s.dev.radio.waiting = none) (hb : s.dev.radio.bowDead = false)
    (hw : s.dev.radio.walk = none) (hu : s.dev.radio.unlock = true) (hl : s.bit RCTL_STAT_LOCK = false) (hr : s.radio = 2) :
    Completes .lockTimeout s fun t =>
      s.Sets t [(SYNTH_STAT_LOCKTO, 1), (RCTL_STAT_LOCK, 0), (SYNTH_STAT_LOCK, 0), (RCTL_STAT_BUSY, 1), (RCTL_STAT_TARGET, 1)] ∧
        (t.dev.radio.walk.map fun w => (w.next, w.goal)) = some (1, 1) := by
  have hnone : (s.jobs.find? fun j => j.stage == .lockWait) = none := by rw [State.jobs, hj]; rfl
  refine completes_run rfl ?_
  simp only [hnone, hu, hl, Bool.not_false, and_self, if_true, run_nop_bind, run_setFld_bind, pulse, run_modIntc_bind, run_modRadio_bind]
  have hcut : (radioCut radStby none).run s.lockGivenUp
      = ((s.lockGivenUp.unlockOver.locked false).busied 1).walkSet { next := 1, goal := 1, retune := false, req := none } := by
    have hr' : s.lockGivenUp.radio = 2 := by rw [lockGivenUp_radio, hr]
    have hr'' : s.lockGivenUp.unlockOver.radio = 2 := hr'
    rw [radioCut_leave (by rw [lockGivenUp_dev]; exact hwait) (by rw [lockGivenUp_dev]; exact hw) (by rw [lockGivenUp_dev]; exact hj)
      (by rw [lockGivenUp_dev]; exact hb) (by rw [hr']; decide), if_neg (by rw [hr']; decide), stepStart_down (by rw [hr'']; decide) (by decide)]
  have hrun : (radioCut radStby none).run (((s.put SYNTH_STAT_LOCKTO 1).live fun d => { d with intc := { d.intc with edge := bitSet d.intc.edge 58 } }).live
      fun d => { d with radio := { d.radio with unlock := false } }) = _ := hcut
  rw [hrun]
  exact ⟨((((((did_refl hi).lockGivenUp).unlockOver).locked false).busied 1).walkSet _).latched s,
    by rw [latchEdges_radio, State.walkSet, State.live_dev, Option.map_some]⟩

/-! ### Errors on the die-to-die link (R26) -/

/-- The errors of the last millisecond, with one now. -/
def State.d2dRecent (s : State) : List Nat := (s.dev.time.link :: s.dev.radio.d2dErrs).filter fun t => decide (s.dev.time.link - t < 40000)

/-- An error noted with its time. -/
def State.d2dNoted (s : State) : State := s.live fun d => { d with radio := { d.radio with d2dErrs := s.d2dRecent.take 4 } }

theorem d2dError_few (h : s.dev.radio.d2dErrs.length < 3) : d2dError.run s = s.d2dNoted := by
  have hlen : s.d2dRecent.length < 4 := lt_of_le_of_lt (List.length_filter_le _ _) (by rw [List.length_cons]; omega)
  rw [d2dError, run_getS, run_modRadio_bind, if_neg (fun hc => absurd hc.1 (by exact Nat.not_le.mpr hlen)), run_pure]
  rfl

theorem d2dNoted_few (h : s.dev.radio.d2dErrs.length < m) : s.d2dNoted.dev.radio.d2dErrs.length < m + 1 := by
  have hlen : s.d2dRecent.length ≤ s.dev.radio.d2dErrs.length + 1 := List.length_filter_le _ _
  rw [State.d2dNoted, State.live_dev]
  show (s.d2dRecent.take 4).length < m + 1
  rw [List.length_take]
  omega

theorem airInternal_bind (h : s.dev.tx.jobs = []) (k : Unit → M Unit) : (airInternal >>= k).run s = (k ()).run s := by
  rw [airInternal, run_assoc, cutAir_bind (State.onAir_none h)]
  rfl
theorem airInternal_run (h : s.dev.tx.jobs = []) : airInternal.run s = s := by
  rw [airInternal, cutAir_bind (State.onAir_none h)]
  rfl

theorem d2dCount_bind (f : Fld) (k : Unit → M Unit) : (d2dCount f >>= k).run s = (k ()).run (s.put f (min 255 (s.fld f + 1))) := by
  rw [d2dCount, run_assoc, run_fld, run_setFld_bind]

theorem State.Did.d2dNoted (h : s.Did t l noted F) : s.Did t.d2dNoted l noted F := h.lived (by rfl)
theorem d2dErrs_put (f : Fld) : (s.put f v).dev.radio.d2dErrs = s.dev.radio.d2dErrs := by rw [State.dev_put]

theorem rxBurst_counted (hi : s.Inv) (hq : s.Quiet) (he : s.dev.radio.d2dErrs = []) :
    Completes .d2dRxBurstError s fun t => s.Sets t [(RCTL_D2DERR_RXBURST, min 255 (s.fld RCTL_D2DERR_RXBURST + 1))] := by
  have hnone : ∀ n, s.holds n = false := fun n => by rw [State.holds, State.lane, hq.lanes]; rfl
  refine completes_run rfl ?_
  simp only [d2dCount_bind, range_four, forAll_cons, forAll_nil, hnone, Bool.false_eq_true, if_false, run_assoc, run_nop_bind]
  rw [airInternal_bind (by rw [State.dev_put]; exact hq.jobs), d2dError_few (by rw [d2dErrs_put, he]; decide)]
  exact ((did_refl hi).puts (by decide)).d2dNoted.latched s

theorem txBurst_counted (hi : s.Inv) (hq : s.Quiet) (he : s.dev.radio.d2dErrs = []) :
    Completes .d2dTxBurstError s fun t => s.Sets t [(RCTL_D2DERR_TXBURST, min 255 (s.fld RCTL_D2DERR_TXBURST + 1))] := by
  refine completes_run rfl ?_
  rw [d2dCount_bind, airInternal_bind (by rw [State.dev_put]; exact hq.jobs), d2dError_few (by rw [d2dErrs_put, he]; decide)]
  exact ((did_refl hi).puts (by decide)).d2dNoted.latched s

/-- One failed attempt of a register transfer, counted and noted (R26). -/
def attemptFailed : M Unit := do
  d2dCount RCTL_D2DERR_REGBUS
  d2dError

theorem attemptFailed_few (h : s.dev.radio.d2dErrs.length < 3) :
    attemptFailed.run s = (s.put RCTL_D2DERR_REGBUS (min 255 (s.fld RCTL_D2DERR_REGBUS + 1))).d2dNoted := by
  rw [attemptFailed, d2dCount_bind, d2dError_few (by rw [d2dErrs_put]; exact h)]

theorem total_d2dError : d2dError.Total :=
  total_bind total_getS fun _ => total_bind (total_act _) fun _ => total_ite
    (total_bind (total_setFld _ _) fun _ => total_bind (total_setFld _ _) fun _ => total_bind (total_emit _ _) fun _ =>
      total_bind (total_act _) fun _ => total_stage)
    (total_pure _)
theorem total_attemptFailed : attemptFailed.Total := total_bind (total_bind (total_fld _) fun _ => total_setFld _ _) fun _ => total_d2dError

/-- Failed attempts add up, fewer than four of them. -/
theorem attempts_add (a : List Nat) (ht : s.Did t [(RCTL_D2DERR_REGBUS, v)]) (hv : t.fld RCTL_D2DERR_REGBUS = v)
    (hl : t.dev.radio.d2dErrs.length + a.length < 4) :
    s.Did ((forAll a fun _ => attemptFailed).run t) [(RCTL_D2DERR_REGBUS, min 255 (v + a.length))] := by
  induction a generalizing t v with
  | nil =>
    have hlt : t.fld RCTL_D2DERR_REGBUS < 2 ^ 8 := State.fld_lt rfl
    rw [forAll_nil, run_nop, List.length_nil, Nat.add_zero, Nat.min_eq_right (by omega)]
    exact ht
  | cons x a ih =>
    rw [List.length_cons] at hl
    have hput : (t.put RCTL_D2DERR_REGBUS (min 255 (v + 1))).d2dNoted.fld RCTL_D2DERR_REGBUS = min 255 (v + 1) := by
      rw [State.d2dNoted, State.live_fld, State.fld_self _ (by decide)]
      exact Nat.mod_eq_of_lt (by show _ < 2 ^ 8; omega)
    have hrest := ih (((ht.puts (v := min 255 (v + 1)) (by decide)).again (l := []) (by decide)).d2dNoted) hput (by
      have h := d2dNoted_few (s := t.put RCTL_D2DERR_REGBUS (min 255 (v + 1))) (m := t.dev.radio.d2dErrs.length + 1)
        (by rw [d2dErrs_put]; omega)
      omega)
    rw [forAll_cons, total_attemptFailed.run_bind, attemptFailed_few (by omega), hv, List.length_cons]
    rwa [show min 255 (min 255 (v + 1) + a.length) = min 255 (v + (a.length + 1)) by omega] at hrest

/-- A transfer's failed attempts; the fourth voids the access (R26). -/
def attempts (k : Fin 4) : M Unit := do
  forAll (List.range (k.val + 1)) fun _ => attemptFailed
  if k.val = 3 then
    modRadio fun r => { r with busFail := true }
    setFlt rctlPage fltPar
    airInternal

theorem regbus_counted (hi : s.Inv) (he : s.dev.radio.d2dErrs = []) (k : Fin 4) (hk : k.val < 3) :
    Completes (.d2dRegbusError k) s fun t =>
      s.Sets t [(RCTL_D2DERR_REGBUS, min 255 (s.fld RCTL_D2DERR_REGBUS + k.val + 1))] := by
  refine completes_run (m := attempts k) rfl ?_
  rw [attempts, (total_forAll fun _ => total_attemptFailed).run_bind, if_neg (by omega), run_pure]
  have h := attempts_add (s := s) (List.range (k.val + 1)) ((did_refl hi).has rfl (by decide)) rfl (by rw [he, List.length_range]; simp; omega)
  rw [List.length_range, ← Nat.add_assoc] at h
  exact h.latched s

/-! The fourth failed attempt within a millisecond. -/

/-- So many of the newest errors are of this instant, and a link found failed is shown so in both registers. -/
structure State.Attempted (s t : State) (j : Nat) : Prop where
  errs : List.replicate j s.dev.time.link <+: t.dev.radio.d2dErrs
  time : t.dev.time.link = s.dev.time.link
  tx : t.dev.tx = s.dev.tx
  rest : s.Within (onPages [rctlPage, logbPage]) t
  failed : t.bit RCTL_STAT_LINKFAIL = true → t.bit RCTL_D2DERR_FAILED = true

theorem stage_units {type code cluster : Nat} {hw : Bool} {payload : List Byte} :
    ((stage type hw code cluster payload).run s).dev.radio = s.dev.radio ∧ ((stage type hw code cluster payload).run s).dev.time = s.dev.time ∧
      ((stage type hw code cluster payload).run s).dev.tx = s.dev.tx := by
  by_cases h : s.dev.staged.length < 4
  · rw [stage_dev h]
    exact ⟨rfl, rfl, rfl⟩
  · rw [stage, run_getS, if_neg h, run_setFld_bind, run_stat, State.counted_dev, State.dev_put]
    exact ⟨rfl, rfl, rfl⟩

theorem replicate_recent {j : Nat} (h : List.replicate j s.dev.time.link <+: s.dev.radio.d2dErrs) :
    List.replicate (j + 1) s.dev.time.link <+: s.d2dRecent := by
  have hp := (List.prefix_cons_inj s.dev.time.link).mpr h
  rw [← List.replicate_succ] at hp
  have hf := hp.filter fun t => decide (s.dev.time.link - t < 40000)
  rwa [List.filter_replicate_of_pos (by simp)] at hf

/-- The link found failed, and recorded so (R26). -/
def State.linkLost (s : State) : State := ((s.d2dNoted.put RCTL_STAT_LINKFAIL 1).put RCTL_D2DERR_FAILED 1)

/-- What reports a link found failed. -/
def linkReport (s : State) : M Unit := do
  emit rctlPage 0xB9
  pulse 59
  stage 0x03 true stInternal (s.reg rctlPage).toNat (leBytes 4 (s.reg RCTL_D2DERR).toNat)

theorem d2dError_lost (h : 4 ≤ s.d2dRecent.length) (hl : s.bit RCTL_STAT_LINKFAIL = false) : d2dError.run s = (linkReport s).run s.linkLost := by
  have hc : 4 ≤ ((s.dev.time.link :: s.dev.radio.d2dErrs).filter fun t => decide (s.dev.time.link - t < 40000)).length ∧
      (!s.bit RCTL_STAT_LINKFAIL) = true := ⟨h, by rw [hl]; rfl⟩
  rw [d2dError, run_getS, run_modRadio_bind, if_pos hc, run_setFld_bind, run_setFld_bind]
  rfl
theorem d2dError_noted (h : ¬ 4 ≤ s.d2dRecent.length ∨ s.bit RCTL_STAT_LINKFAIL = true) : d2dError.run s = s.d2dNoted := by
  have hc : ¬ (4 ≤ ((s.dev.time.link :: s.dev.radio.d2dErrs).filter fun t => decide (s.dev.time.link - t < 40000)).length ∧
      (!s.bit RCTL_STAT_LINKFAIL) = true) := fun hc => h.elim (fun h => h hc.1) fun h => by simp [h] at hc
  rw [d2dError, run_getS, run_modRadio_bind, if_neg hc, run_pure]
  rfl

theorem keeps_linkReport (s : State) : M.Keeps (onlyRegs (LOGB_STAT :: (evRegs rctlPage ++ evRegs logbPage))) (linkReport s) := by
  exact keeps_bind (keeps_emit ⟨by decide, by decide⟩) fun _ => keeps_bind keeps_pulse fun _ => keeps_stage ⟨by decide, by decide⟩ (by decide)

theorem linkReport_reg {a : Nat} (h : a ∉ LOGB_STAT :: (evRegs rctlPage ++ evRegs logbPage)) : ((linkReport t).run s).reg a = s.reg a :=
  ((keeps_linkReport t).run s).regs a (decide_eq_false h)
theorem linkReport_bit {f : Fld} (h : f.addr ∉ LOGB_STAT :: (evRegs rctlPage ++ evRegs logbPage)) : ((linkReport t).run s).bit f = s.bit f := by
  rw [State.bit, State.fld, linkReport_reg h, State.bit, State.fld]
theorem linkReport_units : ((linkReport t).run s).dev.radio = s.dev.radio ∧ ((linkReport t).run s).dev.time = s.dev.time ∧
    ((linkReport t).run s).dev.tx = s.dev.tx := by
  rw [linkReport, run_emit_bind, pulse, run_modIntc_bind, stage_units.1, stage_units.2.1, stage_units.2.2, State.live_dev, emit_dev]
  exact ⟨rfl, rfl, rfl⟩
theorem linkReport_within : s.Within (onPages [rctlPage, logbPage]) ((linkReport t).run s) :=
  ((keeps_linkReport t).run s).of_onlyRegs (by decide)

theorem State.Attempted.count {j : Nat} (h : s.Attempted t j) : s.Attempted (t.put RCTL_D2DERR_REGBUS v) j := by
  refine ⟨by rw [State.dev_put]; exact h.errs, by rw [State.dev_put, h.time], by rw [State.dev_put, h.tx],
    (State.within_put_iff (by decide)).mpr h.rest, ?_⟩
  rw [State.bit_apart _ (by decide), State.bit_apart _ (by decide)]
  exact h.failed

theorem State.Attempted.errsNext {j : Nat} (h : s.Attempted t j) (hj : j < 4) : List.replicate (j + 1) s.dev.time.link <+: t.d2dRecent.take 4 := by
  have hp := replicate_recent (s := t) (j := j) (by rw [h.time]; exact h.errs)
  rw [h.time] at hp
  exact List.prefix_take_iff.mpr ⟨hp, by rw [List.length_replicate]; omega⟩

theorem State.Attempted.oneMore {j : Nat} (h : s.Attempted t j) (hj : j < 4) : s.Attempted t.d2dNoted (j + 1) :=
  ⟨h.errsNext hj, h.time, h.tx, (State.within_live_iff rfl).mpr h.rest, h.failed⟩

theorem State.Attempted.lost {j : Nat} (h : s.Attempted t j) (hj : j < 4) :
    s.Attempted ((linkReport t).run t.linkLost) (j + 1) ∧ ((linkReport t).run t.linkLost).bit RCTL_STAT_LINKFAIL = true := by
  obtain ⟨hr, ht, hx⟩ := linkReport_units (s := t.linkLost) (t := t)
  have hd : t.linkLost.dev = t.d2dNoted.dev := by rw [State.linkLost, State.dev_put, State.dev_put]
  have hn := h.oneMore hj
  refine ⟨⟨by rw [hr, hd]; exact hn.errs, by rw [ht, hd]; exact hn.time, by rw [hx, hd]; exact hn.tx, ?_, fun _ => ?_⟩, ?_⟩
  · refine Within.trans ?_ linkReport_within
    rw [State.linkLost, State.within_put_iff (by decide), State.within_put_iff (by decide)]
    exact hn.rest
  · rw [linkReport_bit (by decide), State.linkLost, State.bit_self _ (by decide)]
    decide
  · rw [linkReport_bit (by decide), State.linkLost, State.bit_apart _ (by decide), State.bit_self _ (by decide)]
    decide

theorem State.Attempted.next {j : Nat} (h : s.Attempted t j) (hj : j < 4) :
    s.Attempted (attemptFailed.run t) (j + 1) ∧ (j = 3 → (attemptFailed.run t).bit RCTL_STAT_LINKFAIL = true) := by
  have hc := h.count (v := min 255 (t.fld RCTL_D2DERR_REGBUS + 1))
  rw [attemptFailed, d2dCount_bind]
  by_cases hl : (t.put RCTL_D2DERR_REGBUS (min 255 (t.fld RCTL_D2DERR_REGBUS + 1))).bit RCTL_STAT_LINKFAIL = true
  · rw [d2dError_noted (.inr hl)]
    exact ⟨hc.oneMore hj, fun _ => hl⟩
  · by_cases h4 : 4 ≤ (t.put RCTL_D2DERR_REGBUS (min 255 (t.fld RCTL_D2DERR_REGBUS + 1))).d2dRecent.length
    · rw [d2dError_lost h4 (by simpa using hl)]
      exact ⟨(hc.lost hj).1, fun _ => (hc.lost hj).2⟩
    · rw [d2dError_noted (.inl h4)]
      refine ⟨hc.oneMore hj, fun h3 => absurd ?_ h4⟩
      have hlen := (replicate_recent (j := j) (by rw [hc.time]; exact hc.errs)).length_le
      rw [List.length_replicate] at hlen
      omega

theorem attempted_refl (hl : s.bit RCTL_STAT_LINKFAIL = false) : s.Attempted s 0 :=
  ⟨List.nil_prefix, rfl, rfl, s.within_refl _, fun h => absurd h (by simp [hl])⟩

theorem regbus_fails (hq : s.Quiet) (hl : s.bit RCTL_STAT_LINKFAIL = false) :
    Completes (.d2dRegbusError 3) s fun t =>
      t.dev.radio.busFail = true ∧ t.bit (fltBit rctlPage fltPar) = true ∧ t.bit RCTL_STAT_LINKFAIL = true ∧ t.bit RCTL_D2DERR_FAILED = true ∧
      s.Within (onPages [rctlPage, logbPage]) t := by
  obtain ⟨h4, hfail⟩ := ((((attempted_refl hl).next (by decide)).1.next (by decide)).1.next (by decide)).1.next (by decide)
  have hlost := hfail rfl
  refine completes_run (m := attempts 3) rfl ?_
  have hrange : List.range ((3 : Fin 4).val + 1) = [0, 1, 2, 3] := by decide
  rw [attempts, hrange]
  simp only [forAll_cons, forAll_nil, run_assoc, total_attemptFailed.run_bind, run_nop_bind]
  generalize attemptFailed.run (attemptFailed.run (attemptFailed.run (attemptFailed.run s))) = u at h4 hlost
  have hjobs : ((setFlt rctlPage fltPar).run (u.live fun d => { d with radio := { d.radio with busFail := true } })).dev.tx.jobs = [] := by
    rw [setFlt_dev, State.live_dev]
    exact (congrArg TxEng.jobs h4.tx).trans hq.jobs
  rw [if_pos (by decide), run_modRadio_bind, run_setFlt_bind, airInternal_run hjobs]
  refine ⟨by rw [latchEdges_radio, setFlt_dev, State.live_dev], by rw [latchEdges_bit, setFlt_bit_set ⟨by decide, by decide, by decide⟩],
    by rw [latchEdges_bit, setFlt_bit (by decide), State.live_bit, hlost],
    by rw [latchEdges_bit, setFlt_bit (by decide), State.live_bit, h4.failed hlost], ?_⟩
  rw [State.within_latch_iff, State.within_setFlt_iff (by decide), State.within_live_iff rfl]
  exact h4.rest

/-! ### A Bow sequencer that stops responding (R46) -/

/-- The lanes off, nothing of the gain left over (R77, R91). -/
def State.lanesStopped (s : State) : State :=
  ((((s.unblanked.lanesTo fun _ => laneOff).live fun d => { d with gain := {} }).put LANES_STAT_RESETTLE 0).frozenBy 7).put RXFE_GAIN_LEVEL 0x80

/-- A lane that holds nothing is brought to its state alone. -/
theorem laneDrop_bind {reason : Nat} (h : (s.lane n).frame = none) (k : Unit → M Unit) : (laneDrop n reason v >>= k).run s = (k ()).run (s.laned n v) := by
  have hh : s.holds n = false := by rw [State.holds, h]; rfl
  rw [laneDrop, run_assoc, run_getS, hh, run_ite_bind, if_neg (by decide), setLaneState_bind]

theorem lanesOff_bind {reason : Nat} (h : ∀ n, (s.lane n).frame = none) (k : Unit → M Unit) :
    (lanesOff reason >>= k).run s = (k ()).run s.lanesStopped := by
  have hu : ∀ n, (s.unblanked.lane n).frame = none := h
  rw [lanesOff, run_assoc, setBlank, run_modDev_bind, ← State.unblanked, range_four, forAll_cons, forAll_cons, forAll_cons, forAll_cons, forAll_nil]
  rw [run_assoc, run_assoc, laneDrop_bind (hu 0), run_assoc, laneDrop_bind (by rw [frame_laned]; exact hu 1), run_assoc,
    laneDrop_bind (by rw [frame_laned, frame_laned]; exact hu 2), run_assoc, laneDrop_bind (by rw [frame_laned, frame_laned, frame_laned]; exact hu 3),
    run_nop_bind, run_assoc, run_modGain_bind, run_assoc, run_setFld_bind, run_assoc, setFreeze_bind, run_setFld_bind,
    State.lanesStopped, State.lanesTo]

theorem lanesStopped_dev : ∃ x, s.lanesStopped.dev = { s.dev with lanes := x, gain := {}, radio := { s.dev.radio with blank := false } } := by
  obtain ⟨x, hx⟩ := lanesTo_dev (s := s.unblanked) fun _ => laneOff
  exact ⟨x, by rw [State.lanesStopped, State.dev_put, frozenBy_dev, State.dev_put, State.live_dev, hx, State.unblanked, State.live_dev]⟩
theorem lanesStopped_reg {a : Nat} (h : a ∉ laneShown) : s.lanesStopped.reg a = s.reg a := by
  have hg : a ≠ RXFE_GAIN := fun hm => h (by simp [laneShown, hm])
  have hs : a ≠ LANES_STAT := fun hm => h (by simp [laneShown, hm])
  rw [State.lanesStopped, State.reg_put_other _ (by exact hg), frozenBy_reg 7 (by simp [hg, hs]), State.reg_put_other _ (by exact hs), State.live_reg,
    lanesTo_reg _ (fun hm => h (by simp only [laneShown, List.mem_cons, List.not_mem_nil, or_false] at hm ⊢; tauto)), State.unblanked, State.live_reg]
theorem lanesStopped_bit {f : Fld} (h : f.addr ∉ laneShown) : s.lanesStopped.bit f = s.bit f := by
  rw [State.bit, State.fld, lanesStopped_reg h, State.bit, State.fld]
theorem within_lanesStopped_iff (h : ∀ a ∈ laneShown, F.regs a = true) : s.Within F t.lanesStopped ↔ s.Within F t := by
  have hg : F.regs RXFE_GAIN = true := h _ (by simp [laneShown])
  have hs : F.regs LANES_STAT = true := h _ (by simp [laneShown])
  rw [State.lanesStopped, State.within_put_iff hg, within_frozenBy_iff hs hg, State.within_put_iff hs, State.within_live_iff rfl,
    within_lanesTo_iff _ fun a ha => h a (by simp only [laneShown, List.mem_cons, List.not_mem_nil, or_false] at ha ⊢; tauto), State.unblanked,
    State.within_live_iff rfl]

theorem bow_stops (hq : s.Quiet) (hb : s.dev.radio.bowDead = false) :
    Completes .bowUnresponsive s fun t =>
      t.dev.radio.bowDead = true ∧ t.bit RCTL_STAT_UCODE_OK = false ∧ t.bit RCTL_STAT_BUSY = false ∧
      s.Within (onPages [rctlPage, lanesPage, rxfePage]) t := by
  have hd : ((s.live fun d => { d with radio := { d.radio with bowDead := true } }).put RCTL_STAT_UCODE_OK 0).dev =
      { s.dev with radio := { s.dev.radio with bowDead := true } } := by rw [State.dev_put, State.live_dev]
  refine completes_run rfl ?_
  rw [if_pos (by simp [hb]), run_modRadio_bind, run_setFld_bind, cutAir_bind (State.onAir_none (by rw [hd]; exact hq.jobs))]
  generalize hu : (s.live fun d => { d with radio := { d.radio with bowDead := true } }).put RCTL_STAT_UCODE_OK 0 = u at hd
  obtain ⟨x, hx⟩ := lanesStopped_dev (s := u)
  rw [lanesOff_bind (fun n => by rw [State.lane, hd]; exact congrArg Lane.frame (congrArg (Sparse.val {} · n) hq.lanes)),
    walkCut_bind (by rw [hx, hd]; exact hq.walk), waitingCut_bind (by rw [hx, hd]; exact hq.waiting), setIdle_run]
  refine ⟨by rw [latchEdges_radio, idled_dev, hx, hd], ?_, by rw [latchEdges_bit, idled_busy], ?_⟩
  · rw [latchEdges_bit, State.bit, idled_fld (by decide) (by decide), ← State.bit, lanesStopped_bit (by decide), ← hu, State.bit_self _ (by decide)]
    decide
  · rw [State.within_latch_iff, within_idled_iff (by decide), within_lanesStopped_iff (by decide), ← hu, State.within_put_iff (by decide),
      State.within_live_iff rfl]
    exact s.within_refl _

/-- Settles O21: a walk's last step as its state, its lock and its lanes; a loss of lock as its tune afresh; an error of the link as its count. -/
theorem radioTransitions : Obligations.RadioTransitions := by
  refine ⟨fun s hi hj hlanes hwait hb => ⟨?_, ?_, ?_, ?_, ?_, ?_⟩, fun s hi hq => ⟨fun he => ⟨?_, ?_, ?_⟩, ?_, ?_⟩⟩
  · exact fun w r hw hr hng hg hret hu => walk_ends hj hwait hb hw hr hng hg hret hu
  · exact fun w hw ht hu => tune_repeats hw ht hu
  · exact fun w hw ht hn hg hret => lock_found hj hwait hw ht hn hg hret
  · exact fun hw hl hr => lock_lost hj hb hw hl hr
  · exact fun hw hl hr => lock_again hi hj hw hl hr
  · exact fun hw hu hl hr => lock_timesOut hi hj hwait hb hw hu hl hr
  · exact rxBurst_counted hi hq he
  · exact txBurst_counted hi hq he
  · exact fun k hk => regbus_counted hi he k hk
  · exact fun hl => regbus_fails hq hl
  · exact fun hb => bow_stops hq hb

end Sys2Proof.Machine
end

section
/-!
A lane lets its frame go (R78, R79, R86): what a drop leaves of the lane, of the other lanes and of everything else.
-/
namespace Sys2Proof.Machine
open Sys2Proof.Reg

variable {s t : State} {F : Foot} {l : List (Fld × Nat)} {noted : List Nat} {n m v reason : Nat} {f : RxFrame}

/-! ### The frame gone (R79, R138) -/

theorem clearCells_run (a : List Nat) : ∃ c, (forAll a fun x => setCell x {}).run s = s.live fun d => { d with cells := c } := by
  induction a generalizing s with
  | nil => exact ⟨s.dev.cells, rfl⟩
  | cons x a ih =>
    obtain ⟨c, hc⟩ := ih (s := s.live fun d => { d with cells := Sparse.set (fun _ => {}) d.cells x {} })
    exact ⟨c, hc⟩

/-- The jobs that a frame's end leaves: neither its acknowledgement nor its relay (R79). -/
def RxFrame.leaves (f : RxFrame) (j : TxJob) : Bool := !(some j.id == f.ackJob || some j.id == f.relayJob)

/-- A frame's cells released and its answers cancelled. -/
def State.unheld (s : State) (c : Sparse Cell) (f : RxFrame) : State :=
  s.live fun d => { d with cells := c, tx := { d.tx with jobs := d.tx.jobs.filter f.leaves } }

theorem total_releaseLink (a : List Nat) : (releaseLink a).Total := total_bind total_getS fun _ => total_forAll fun _ => total_act _

theorem frameGone_run (h : (s.lane n).frame = some f) :
    ∃ c, (frameGone n).run s = (s.unheld c f).laneSet n { s.lane n with frame := none } := by
  obtain ⟨c, hc⟩ := clearCells_run (s := s) (f.cells.filter fun c => (s.cell c).owner == ownLink)
  have hgo : ∀ k : Unit → M Unit, (releaseLink f.cells >>= k).run s = (k ()).run (s.live fun d => { d with cells := c }) := fun k => by
    rw [(total_releaseLink _).run_bind, releaseLink, run_getS, hc]
  refine ⟨c, ?_⟩
  rw [frameGone, run_getS, h]
  exact (hgo _).trans rfl

/-! ### The freeze passed on (R86) -/

/-- The freeze of the gain goes to another lane, or nowhere (R86). -/
structure State.Passed (s t : State) : Prop where
  dev : ∃ g, t.dev = { s.dev with gain := g }
  regs : ∀ a, a ≠ LANES_STAT → a ≠ RXFE_GAIN → t.reg a = s.reg a
  lanes : ∀ k < 4, t.laneState k = s.laneState k
  rest : s.Within (onlyRegs [LANES_STAT, RXFE_GAIN]) t

theorem passed_refl : s.Passed s := ⟨⟨_, rfl⟩, fun _ _ _ => rfl, fun _ _ => rfl, s.within_refl _⟩

theorem State.Passed.freeze (h : s.Passed t) (o : Nat) : s.Passed (t.frozenBy o) := by
  obtain ⟨g, hg⟩ := h.dev
  exact ⟨⟨g, by rw [frozenBy_dev, hg]⟩, fun a h1 h2 => by rw [frozenBy_reg o (by simp [h1, h2]), h.regs a h1 h2],
    fun k hk => by rw [frozenBy_laneState o hk, h.lanes k hk], (within_frozenBy_iff (by decide) (by decide)).mpr h.rest⟩

theorem passFreeze_passes (n : Nat) : s.Passed ((passFreeze n).run s) := by
  rw [passFreeze, run_getS, run_ite]
  split
  · rw [run_modGain_bind, run_setFld_bind, setFreeze_run]
    refine State.Passed.freeze ⟨⟨{ s.dev.gain with rearm := none }, by rw [State.dev_put, State.live_dev]⟩, fun a h1 _ => ?_, fun k hk => ?_, ?_⟩ _
    · rw [State.reg_put_other _ (by exact h1), State.live_reg]
    · rw [State.laneState, State.fld_apart _ (by interval_cases k <;> decide), State.live_fld, State.laneState]
    · rw [State.within_put_iff (by decide), State.within_live_iff rfl]
      exact s.within_refl _
  · rw [run_ite]
    split
    · rw [setFreeze_run]
      exact passed_refl.freeze _
    · rw [run_pure]
      exact passed_refl

theorem total_setFreeze (o : Nat) : (setFreeze o).Total :=
  total_bind (total_setFld _ _) fun _ => total_bind (total_setFld _ _) fun _ => total_setFld _ _
theorem total_passFreeze (n : Nat) : (passFreeze n).Total :=
  total_bind total_getS fun _ => total_ite
    (total_bind (total_act _) fun _ => total_bind (total_setFld _ _) fun _ => total_setFreeze _) (total_ite (total_setFreeze _) (total_pure _))

/-! ### A drop (R79) -/

/-- The registers that a drop on a lane moves. -/
def dropRegs (n : Nat) : List Nat := [LANES_STAT, LANES_ED n, LANES_LAST n, RXFE_GAIN] ++ evRegs lanesPage

/-- A lane has dropped its frame and is in a state: the other lanes, the scheduler, the radio and time are as they were, and the queue has lost
the frame's own answers at most. -/
structure State.Fell (s t : State) (n reason v : Nat) : Prop where
  frame : (t.lane n).frame = none
  lane : t.laneState n = v
  last : t.fld (LANES_LAST_DROP n) = reason
  others : ∀ m, m ≠ n → t.lane m = s.lane m
  states : ∀ m < 4, m ≠ n → t.laneState m = s.laneState m
  samp : t.dev.samp = s.dev.samp
  radio : t.dev.radio = s.dev.radio
  time : t.dev.time = s.dev.time
  jobs : ∀ j ∈ t.dev.tx.jobs, j ∈ s.dev.tx.jobs
  regs : ∀ a, a ∉ dropRegs n → t.reg a = s.reg a
  rest : s.Within (onlyRegs (dropRegs n)) t

theorem countDrop_run (n reason : Nat) : ∃ i w x, (countDrop n reason).run s = s.counted lanesPage i w x := by
  rw [countDrop, run_ite]
  split <;> exact ⟨_, _, _, run_countN ..⟩

/-- The lane without its frame, in its state, with its reason noted and counted. -/
def State.dropNoted (s : State) (n reason v : Nat) (c : Sparse Cell) (f : RxFrame) (i w x : Nat) : State :=
  (((((s.unheld c f).laneSet n { s.lane n with frame := none }).laned n v).put (LANES_LAST_DROP n) reason).counted lanesPage i w x)

theorem total_frameGone (n : Nat) : (frameGone n).Total := by
  refine total_bind total_getS fun s => ?_
  cases (s.lane n).frame with
  | none => exact total_pure _
  | some f => exact total_bind (total_releaseLink _) fun _ => total_bind (total_act _) fun _ => total_act _
theorem total_countDrop (n reason : Nat) : (countDrop n reason).Total :=
  total_ite (total_bind total_getS fun _ => total_act _) (total_bind total_getS fun _ => total_act _)

theorem laneDrop_run (h : s.holds n = true) (hf : (s.lane n).frame = some f) :
    ∃ c i w x, (laneDrop n reason v).run s = (passFreeze n).run ((emit lanesPage (0x9C + n)).run (s.dropNoted n reason v c f i w x)) := by
  obtain ⟨c, hc⟩ := frameGone_run hf
  obtain ⟨i, w, x, hx⟩ := countDrop_run (s := (((s.unheld c f).laneSet n { s.lane n with frame := none }).laned n v).put (LANES_LAST_DROP n) reason)
    n reason
  refine ⟨c, i, w, x, ?_⟩
  rw [laneDrop, run_getS, h, if_pos rfl, (total_frameGone n).run_bind, hc, setLaneState_bind, run_setFld_bind, (total_countDrop n reason).run_bind, hx,
    run_emit_bind, State.dropNoted]

section
variable {c : Sparse Cell} {i w x : Nat}
theorem dropNoted_reg {a : Nat} (h : a ∉ [LANES_STAT, LANES_ED n, LANES_LAST n]) : (s.dropNoted n reason v c f i w x).reg a = s.reg a := by
  simp only [List.mem_cons, List.not_mem_nil, or_false, not_or] at h
  rw [State.dropNoted, State.counted_reg, State.reg_put_other _ (by exact h.2.2), laned_reg (by simp [h]), laneSet_reg, State.unheld, State.live_reg]
theorem dropNoted_dev : ∃ y k, (s.dropNoted n reason v c f i w x).dev =
    { s.dev with cells := c, tx := { s.dev.tx with jobs := s.dev.tx.jobs.filter f.leaves }, lanes := y, ctr := k } := by
  obtain ⟨y, hy⟩ := laned_dev (s := (s.unheld c f).laneSet n { s.lane n with frame := none }) (n := n) (v := v)
  exact ⟨y, _, by rw [State.dropNoted, State.counted_dev, State.dev_put, hy, State.laneSet, State.live_dev, State.unheld, State.live_dev]⟩
theorem dropNoted_lane {m : Nat} : (s.dropNoted n reason v c f i w x).lane m =
    ((((s.unheld c f).laneSet n { s.lane n with frame := none }).laned n v)).lane m := by
  rw [State.dropNoted, State.lane, State.counted_dev, State.dev_put]
  rfl
theorem dropNoted_frame : ((s.dropNoted n reason v c f i w x).lane n).frame = none := by
  rw [dropNoted_lane, frame_laned, lane_laneSet_same]
theorem dropNoted_others {m : Nat} (h : m ≠ n) : (s.dropNoted n reason v c f i w x).lane m = s.lane m := by
  rw [dropNoted_lane, lane_laned_other h, lane_laneSet_other _ h]
  rfl
theorem dropNoted_last (hn : n < 4) (hr : reason < 16) : (s.dropNoted n reason v c f i w x).fld (LANES_LAST_DROP n) = reason := by
  rw [State.dropNoted, State.fld, State.counted_reg, ← State.fld, State.fld_self _ (by interval_cases n <;> decide)]
  exact Nat.mod_eq_of_lt hr
theorem dropNoted_state {k : Nat} : (s.dropNoted n reason v c f i w x).laneState k =
    ((((s.unheld c f).laneSet n { s.lane n with frame := none }).laned n v)).laneState k := by
  rw [State.laneState, State.dropNoted, State.fld, State.counted_reg, State.reg_put_other _ (by show LANES_STAT ≠ LANES_LAST n; simp only [LANES_STAT, LANES_LAST]; omega)]
  rfl
end

/-- A lane that holds a frame and drops it. -/
theorem laneDrop_fell (hn : n < 4) (hv : v < 16) (hr : reason < 16) (h : s.holds n = true) : s.Fell ((laneDrop n reason v).run s) n reason v := by
  obtain ⟨f, hf⟩ : ∃ f, (s.lane n).frame = some f := by
    rw [State.holds, Bool.and_eq_true, Option.isSome_iff_exists] at h
    exact h.1
  obtain ⟨c, i, w, x, hrun⟩ := laneDrop_run (reason := reason) (v := v) h hf
  have hp := passFreeze_passes (s := (emit lanesPage (0x9C + n)).run (s.dropNoted n reason v c f i w x)) n
  obtain ⟨y, k, hd⟩ := dropNoted_dev (s := s) (n := n) (reason := reason) (v := v) (c := c) (f := f) (i := i) (w := w) (x := x)
  obtain ⟨g, hg⟩ := hp.dev
  have hw : s.Within (onlyRegs (dropRegs n)) ((emit lanesPage (0x9C + n)).run (s.dropNoted n reason v c f i w x)) := by
    rw [State.within_emit_iff fun a ha => by simp [onlyRegs, dropRegs, ha], State.dropNoted, State.within_counted_iff,
      State.within_put_iff (by simp [onlyRegs, dropRegs]), within_laned_iff (by simp [onlyRegs, dropRegs]) (by simp [onlyRegs, dropRegs]),
      within_laneSet_iff, State.unheld, State.within_live_iff rfl]
    exact s.within_refl _
  rw [hrun]
  generalize (passFreeze n).run ((emit lanesPage (0x9C + n)).run (s.dropNoted n reason v c f i w x)) = t at hp hg
  rw [emit_dev] at hg
  have hlane : ∀ m, t.lane m = (s.dropNoted n reason v c f i w x).lane m := fun m => by rw [State.lane, hg]; rfl
  have hreg : ∀ a, a ∉ [LANES_STAT, RXFE_GAIN] ++ evRegs lanesPage → t.reg a = (s.dropNoted n reason v c f i w x).reg a := fun a ha => by
    rw [hp.regs a (fun hm => ha (by simp [hm])) (fun hm => ha (by simp [hm])), emit_reg fun hm => ha (by simp [hm])]
  have hstate : ∀ m < 4, t.laneState m = (s.dropNoted n reason v c f i w x).laneState m := fun m hm => by
    rw [hp.lanes m hm, State.laneState, State.fld, emit_reg (show LANES_STAT ∉ evRegs lanesPage by decide), State.laneState, State.fld]
  refine ⟨by rw [hlane, dropNoted_frame], ?_, ?_, fun m hm => by rw [hlane, dropNoted_others hm], fun m h4 hm => ?_, by rw [hg, hd], by rw [hg, hd], by rw [hg, hd],
    fun j hj => ?_, fun a ha => ?_, ?_⟩
  · rw [hstate n hn, dropNoted_state, laned_laneState_same hn hv]
  · rw [State.fld, hreg _ (by interval_cases n <;> decide), ← State.fld, dropNoted_last hn hr]
  · rw [hstate m h4, dropNoted_state, laned_laneState_other hn h4 hm, State.laneState, State.fld, laneSet_reg, State.unheld, State.live_reg]
    rfl
  · rw [hg, hd] at hj
    exact (List.mem_filter.mp hj).1
  · have ha' := ha
    simp only [dropRegs, List.mem_append, List.mem_cons, List.not_mem_nil, or_false, not_or] at ha'
    obtain ⟨⟨hs, he, hl, hx⟩, hev⟩ := ha'
    rw [hreg a (by simp only [List.mem_append, List.mem_cons, List.not_mem_nil, or_false, not_or]; exact ⟨⟨hs, hx⟩, hev⟩), dropNoted_reg (by simp [hs, he, hl])]
  · exact hw.trans (hp.rest.of_onlyRegs (by simp [onlyRegs, dropRegs]))

end Sys2Proof.Machine
end

section
/-!
From the SFD or the LTF to the PHR (R79–R81, R92, R99, R520).
-/
namespace Sys2Proof.Machine
open Sys2Proof.Reg

variable {s t u : State} {F : Foot} {l : List (Fld × Nat)} {noted : List Nat} {n m v reason : Nat} {f : RxFrame}

/-! ### A command that ends in a drop -/

theorem State.Fell.unwatched (h : s.Fell t n reason v) (hu : s.Unwatched) : t.Unwatched :=
  ⟨by rw [h.samp, hu.sample], by rw [h.samp, hu.main], by rw [h.samp, hu.rdv], by rw [h.samp, hu.closing], fun j hj => hu.closed j (h.jobs j hj)⟩

/-- Where a drop may leave traces beside its lane. -/
def droppedFoot : Foot := { regs := fun a => decide (a / 0x1000 * 0x1000 ∈ [lanesPage, rxfePage] ∨ a ∈ LINK_STAT :: perfOf linkPage) }

theorem dropRegs_dropped : ∀ m < 4, ∀ a ∈ dropRegs m, droppedFoot.regs a = true := by decide

/-- A drop as the command's end shows it, whatever of those places moved before. -/
theorem State.Fell.dropped (h : u.Fell t n reason v) (hn : n < 4) (hlane : ∀ m, u.lane m = s.lane m) (hstate : ∀ m, u.laneState m = s.laneState m)
    (hw : s.Within droppedFoot u) : s.Dropped (latchEdges s t) n reason v := by
  have hl : ∀ m, (latchEdges s t).lane m = t.lane m := fun m => by rw [State.lane, latchEdges_lanes, State.lane]
  refine ⟨by rw [hl, h.frame], by rw [State.laneState, latchEdges_fld]; exact h.lane, by rw [latchEdges_fld, h.last],
    fun m h4 hm => ⟨by rw [hl, h.others m hm, hlane m], ?_⟩, ?_⟩
  · rw [State.laneState, latchEdges_fld, ← State.laneState, h.states m h4 hm, hstate]
  · rw [State.within_latch_iff]
    exact hw.trans (h.rest.of_onlyRegs (dropRegs_dropped n hn))

theorem completes_dropped {c : Instr} {m : M Unit} (hi : exec c s = cmd s m) (hm : m.run s = frameOver.run ((laneDrop n reason v).run s))
    (hn : n < 4) (hv : v < 16) (hr : reason < 16) (hh : s.holds n = true) (hu : s.Unwatched) : Completes c s fun t => s.Dropped t n reason v := by
  have hf := laneDrop_fell hn hv hr hh
  refine completes_run hi ?_
  rw [hm, run_frameOver (hf.unwatched hu)]
  exact hf.dropped hn (fun _ => rfl) (fun _ => rfl) (s.within_refl _)

theorem holds_of (hf : (s.lane n).frame = some f) (hs : s.laneState n ∈ [lanePreamble, laneHeader, lanePayload]) : s.holds n = true := by
  rw [State.holds, hf, Option.isSome_some, Bool.true_and, decide_eq_true_eq]
  exact hs

theorem total_setLaneState (n v : Nat) : (setLaneState n v).Total :=
  total_bind (total_setFld _ _) fun _ => total_bind total_getS fun _ => total_ite (total_act _) (total_bind (total_setFld _ _) fun _ => total_act _)
theorem total_laneDrop (n reason v : Nat) : (laneDrop n reason v).Total :=
  total_bind total_getS fun _ => total_ite
    (total_bind (total_frameGone n) fun _ => total_bind (total_setLaneState _ _) fun _ => total_bind (total_setFld _ _) fun _ =>
      total_bind (total_countDrop _ _) fun _ => total_bind (total_emit _ _) fun _ => total_passFreeze n)
    (total_setLaneState _ _)

/-! ### The SFD, and the end of the LTF (R92) -/

/-- RSSI and SNR in a lane's frame and in its registers. -/
def State.ranged (s : State) (n : Nat) (f : RxFrame) (coded : Bool) (rssi : Int) (snr : Nat) : State :=
  ((s.laneSet n { s.lane n with frame := some { f with sfdAt := s.dev.time.link, coded := coded, rssi := rssi, snr := snr } }).put
    (LANES_LAST_RSSI n) (unsigned 16 rssi)).put (LANES_LAST_SNR n) snr

/-- RSSI and SNR latched, the SFD counted and reported (R92, R96). -/
def State.sfdHeard (s : State) (n : Nat) (f : RxFrame) (coded : Bool) (rssi : Int) (snr : Nat) : State :=
  (emit lanesPage (0x94 + n)).run ((s.ranged n f coded rssi snr).counted lanesPage (0x10 + n + 0x8000) 0
    (min (2 ^ 16 - 1) ((s.ranged n f coded rssi snr).ctr lanesPage (0x10 + n + 0x8000) 0 + 1)))

variable {coded : Bool} {rssi : Int} {snr : Nat}

theorem lane_emit {p e : Nat} : ((emit p e).run s).lane n = s.lane n := by
  rw [State.lane, emit_dev]
  rfl
theorem lane_counted {p i w x : Nat} : (s.counted p i w x).lane n = s.lane n := by
  rw [State.lane, State.counted_dev]
  rfl

theorem latch_bind (hf : (s.lane n).frame = some f) (k : Unit → M Unit) :
    (latch n coded rssi snr >>= k).run s = (k ()).run (s.sfdHeard n f coded rssi snr) := by
  rw [latch, run_assoc, run_getS, run_assoc, modFrame, run_assoc, run_getS, hf]
  simp only [setLane_bind, run_setFld_bind, run_assoc, laneCount, if_true, run_countN_bind, run_emit_bind]
  rfl

theorem latch_run (hf : (s.lane n).frame = some f) : (latch n coded rssi snr).run s = s.sfdHeard n f coded rssi snr := by
  rw [latch, run_getS, modFrame, run_assoc, run_getS, hf]
  simp only [setLane_bind, run_setFld_bind, laneCount, if_true, run_countN_bind]
  rfl

theorem sfdHeard_dev : ∃ x k e, (s.sfdHeard n f coded rssi snr).dev = { s.dev with lanes := x, ctr := k, evLost := e } :=
  ⟨_, _, _, by rw [State.sfdHeard, emit_dev, State.counted_dev, State.ranged, State.dev_put, State.dev_put, State.laneSet, State.live_dev]⟩

theorem sfdHeard_lanes : (s.sfdHeard n f coded rssi snr).lane m =
    (s.laneSet n { s.lane n with frame := some { f with sfdAt := s.dev.time.link, coded := coded, rssi := rssi, snr := snr } }).lane m := by
  rw [State.sfdHeard, lane_emit, lane_counted, State.ranged, lane_put, lane_put]
theorem sfdHeard_lane : (s.sfdHeard n f coded rssi snr).lane n =
    { s.lane n with frame := some { f with sfdAt := s.dev.time.link, coded := coded, rssi := rssi, snr := snr } } := by
  rw [sfdHeard_lanes, lane_laneSet_same]
theorem sfdHeard_others (hm : m ≠ n) : (s.sfdHeard n f coded rssi snr).lane m = s.lane m := by rw [sfdHeard_lanes, lane_laneSet_other _ hm]

theorem lastFlds_settable : ∀ n < 4, (LANES_LAST_RSSI n).settable = true ∧ (LANES_LAST_SNR n).settable = true := by decide

theorem did_sfdHeard (hi : s.Inv) (hn : n < 4) :
    s.Did (s.sfdHeard n f coded rssi snr) ([(LANES_LAST_RSSI n, unsigned 16 rssi)] ++ [(LANES_LAST_SNR n, snr)]) (evRegs lanesPage) :=
  (((((did_refl hi).laneSet n _).put (lastFlds_settable n hn).1 _).put (lastFlds_settable n hn).2 _).counted _ _ _ _).emit_noted fun _ => .inr

theorem sfdHeard_unwatched (hu : s.Unwatched) : (s.sfdHeard n f coded rssi snr).Unwatched := by
  obtain ⟨x, k, e, h⟩ := sfdHeard_dev (s := s) (n := n) (f := f) (coded := coded) (rssi := rssi) (snr := snr)
  exact ⟨by rw [h]; exact hu.sample, by rw [h]; exact hu.main, by rw [h]; exact hu.rdv, by rw [h]; exact hu.closing, by rw [h]; exact hu.closed⟩

theorem laned_unwatched (hu : s.Unwatched) : (s.laned n v).Unwatched := by
  obtain ⟨x, h⟩ := laned_dev (s := s) (n := n) (v := v)
  exact ⟨by rw [h]; exact hu.sample, by rw [h]; exact hu.main, by rw [h]; exact hu.rdv, by rw [h]; exact hu.closing, by rw [h]; exact hu.closed⟩

section
variable (k : Fin 4) (hu : s.Unwatched) (hf : (s.lane k.val).frame = some f)
include hu hf

theorem sfd_late (hs : s.laneState k.val = lanePreamble) (ho : s.preOver k.val = true) (hc : coded = false) :
    Completes (.sfdDetected k coded rssi) s fun t => s.Dropped t k.val 6 laneSearch := by
  refine completes_dropped rfl ?_ k.isLt (by decide) (by decide) (holds_of hf (by rw [hs]; decide)) hu
  rw [sfdFound, run_assoc, run_getS, if_pos ⟨hs, .inl hc⟩, run_ite_bind, if_pos ho, (total_laneDrop _ _ _).run_bind]

theorem sfd_heard (hi : s.Inv) (hs : s.laneState k.val = lanePreamble) (ho : s.preOver k.val = false)
    (hc : coded = false ∨ s.bit (LANES_MODE_FEC k.val) = true) :
    Completes (.sfdDetected k coded rssi) s fun t =>
      (t.lane k.val).frame = some { f with sfdAt := s.dev.time.link, coded := coded, rssi := rssi, snr := 0 } ∧
      (∀ m < 4, m ≠ k.val → t.lane m = s.lane m) ∧
      s.Sets t [(LANES_LAST_RSSI k.val, unsigned 16 rssi), (LANES_LAST_SNR k.val, 0), (laneStateFld k.val, laneHeader), (LANES_ED_STALE k.val, 1)]
        (evRegs lanesPage) := by
  refine completes_run rfl ?_
  rw [sfdFound, run_assoc, run_getS, if_pos ⟨hs, hc⟩, run_ite_bind, if_neg (by rw [ho]; decide), run_assoc, latch_bind hf, setLaneState_bind,
    run_frameOver (laned_unwatched (sfdHeard_unwatched hu))]
  refine ⟨?_, fun m _ hm => ?_, ((did_sfdHeard hi k.isLt).rests k.isLt (by decide)).latched s⟩
  · rw [State.lane, latchEdges_lanes, ← State.lane, frame_laned, sfdHeard_lane]
  · rw [State.lane, latchEdges_lanes, ← State.lane, lane_laned_other hm, sfdHeard_others hm]

theorem ltf_missed (hs : s.laneState k.val = laneHeader) (ho : s.isOfdm k.val = true) :
    Completes (.ltfMissing k) s fun t => s.Dropped t k.val 4 laneSearch := by
  refine completes_dropped rfl ?_ k.isLt (by decide) (by decide) (holds_of hf (by rw [hs]; decide)) hu
  rw [if_pos ⟨hs, ho⟩, (total_laneDrop _ _ _).run_bind]

theorem sfd_missed (hs : s.laneState k.val = lanePreamble) : Completes (.nosync k) s fun t => s.Dropped t k.val 6 laneSearch := by
  refine completes_dropped rfl ?_ k.isLt (by decide) (by decide) (holds_of hf (by rw [hs]; decide)) hu
  rw [if_pos hs, (total_laneDrop _ _ _).run_bind]
end

theorem sfd_ignored (k : Fin 4) (hu : s.Unwatched) (hc : coded = true) (hb : s.bit (LANES_MODE_FEC k.val) = false) :
    Completes (.sfdDetected k coded rssi) s fun t => s.Within {} t := by
  refine completes_run rfl ?_
  rw [sfdFound, run_assoc, run_getS, if_neg (by simp [hc, hb]), run_pure_bind, run_frameOver hu, State.within_latch_iff]
  exact s.within_refl _

theorem ltf_heard (k : Fin 4) (hf : (s.lane k.val).frame = some f) (hi : s.Inv) (hs : s.laneState k.val = laneHeader) (ho : s.isOfdm k.val = true) (x : Byte) :
    Completes (.ltfEnd k rssi x) s fun t =>
      (t.lane k.val).frame = some { f with sfdAt := s.dev.time.link, coded := false, rssi := rssi, snr := x.toNat } ∧
      (∀ m < 4, m ≠ k.val → t.lane m = s.lane m) ∧
      s.Sets t [(LANES_LAST_RSSI k.val, unsigned 16 rssi), (LANES_LAST_SNR k.val, x.toNat)] (evRegs lanesPage) := by
  refine completes_run rfl ?_
  rw [if_pos ⟨hs, ho⟩, latch_run hf]
  refine ⟨?_, fun m _ hm => ?_, (did_sfdHeard hi k.isLt).latched s⟩
  · rw [State.lane, latchEdges_lanes, ← State.lane, sfdHeard_lane]
  · rw [State.lane, latchEdges_lanes, ← State.lane, sfdHeard_others hm]

/-! ### The PHR (R80, R81, R99) -/

/-- The link controller's count of a frame too long. -/
def State.longCounted (s : State) : State :=
  (perf linkPage 0x40 1).run (s.counted linkPage 0x02 2 (min 0xFFFFFFFF (s.ctr linkPage 0x02 2 + 1)))

theorem longCounted_dev : ∃ k, s.longCounted.dev = { s.dev with ctr := k } :=
  ⟨_, by rw [State.longCounted, perf_dev, State.counted_dev]⟩
theorem longCounted_lane : s.longCounted.lane n = s.lane n := by
  obtain ⟨k, hk⟩ := longCounted_dev (s := s)
  rw [State.lane, hk]
  rfl
theorem longCounted_state : s.longCounted.laneState n = s.laneState n := by
  rw [State.laneState, State.longCounted, perf_fld (show LANES_STAT ∉ perfRegs linkPage by decide), State.fld, State.counted_reg, ← State.fld,
    State.laneState]
theorem longCounted_within : s.Within (onlyRegs (perfOf linkPage)) s.longCounted := by
  have h := (keeps_perf (F := onlyRegs (perfOf linkPage)) (p := linkPage) (e := 0x40) (n := 1) (by decide)).run
    (s.counted linkPage 0x02 2 (min 0xFFFFFFFF (s.ctr linkPage 0x02 2 + 1)))
  exact State.Within.trans (State.within_counted_iff.mpr (s.within_refl _)) h
theorem longCounted_unwatched (hu : s.Unwatched) : s.longCounted.Unwatched := by
  obtain ⟨k, h⟩ := longCounted_dev (s := s)
  exact ⟨by rw [h]; exact hu.sample, by rw [h]; exact hu.main, by rw [h]; exact hu.rdv, by rw [h]; exact hu.closing, by rw [h]; exact hu.closed⟩

section
variable (k : Fin 4) {p : Phr} (hu : s.Unwatched) (hs : s.laneState k.val = laneHeader)
include hu hs

theorem phr_dropped (hf : (s.lane k.val).frame = some f) {r : Nat} (h : s.phrDrop k.val p = some r) (hr : r < 16) :
    Completes (.phrDecoded k p) s fun t => s.Dropped t k.val r laneSearch := by
  have hh : s.holds k.val = true := holds_of hf (by rw [hs]; decide)
  by_cases hlong : r = dropLength ∧ s.fld LINK_STAT_MODE ≠ 0
  · have hhl : s.longCounted.holds k.val = true := by rw [State.holds, longCounted_lane, longCounted_state, ← State.holds, hh]
    have hfell := laneDrop_fell (s := s.longCounted) k.isLt (v := laneSearch) (by decide) hr hhl
    refine completes_run rfl ?_
    rw [phrJudge, run_assoc, run_getS, if_pos hs, h]
    simp only [if_pos hlong, run_assoc, run_count_bind, run_perf_bind, (total_laneDrop _ _ _).run_bind]
    rw [← State.longCounted, run_frameOver (hfell.unwatched (longCounted_unwatched hu))]
    exact hfell.dropped k.isLt (fun _ => longCounted_lane) (fun _ => longCounted_state)
      (longCounted_within.of_onlyRegs (by decide))
  · refine completes_dropped rfl ?_ k.isLt (by decide) hr hh hu
    rw [phrJudge, run_assoc, run_getS, if_pos hs, h]
    simp only [if_neg hlong, run_assoc, run_pure_bind, (total_laneDrop _ _ _).run_bind]

theorem phr_taken (hi : s.Inv) (hf : (s.lane k.val).frame = some f) (h : s.phrDrop k.val p = none) :
    Completes (.phrDecoded k p) s fun t =>
      (t.lane k.val).frame = some { f with len := p.len, fcs2 := p.fcs2 && !s.isOfdm k.val, white := p.white, mcs := p.mcs, seed := p.seed } ∧
      (∀ m < 4, m ≠ k.val → t.lane m = s.lane m) ∧ s.Sets t [(laneStateFld k.val, lanePayload), (LANES_ED_STALE k.val, 1)] := by
  have hun : ∀ x : Lane, (s.laneSet k.val x).Unwatched := fun x => ⟨hu.sample, hu.main, hu.rdv, hu.closing, hu.closed⟩
  refine completes_run rfl ?_
  rw [phrJudge, run_assoc, run_getS, if_pos hs, h]
  simp only [modFrame, run_assoc, run_getS, hf, setLane_bind, setLaneState_bind]
  rw [run_frameOver (laned_unwatched (hun _))]
  refine ⟨?_, fun m _ hm => ?_, (((did_refl hi).laneSet k.val _).rests k.isLt (by decide)).latched s⟩
  · rw [State.lane, latchEdges_lanes, ← State.lane, frame_laned, lane_laneSet_same]
  · rw [State.lane, latchEdges_lanes, ← State.lane, lane_laned_other hm, lane_laneSet_other _ hm]
end

/-- Settles O27: a frame's SFD or LTF and its PHR as the lane judges them, each refusal as its drop. -/
theorem laneFrames : Obligations.LaneFrames := by
  intro n f s hi hu hf k others
  refine ⟨fun hs coded rssi => ⟨fun ho hc => sfd_late n hu hf hs ho hc, fun ho hc => sfd_heard n hu hf hi hs ho hc, fun hc hb => sfd_ignored n hu hc hb⟩,
    fun hs ho rssi snr => ltf_heard n hf hi hs ho snr, fun hs ho => ltf_missed n hu hf hs ho, fun hs => sfd_missed n hu hf hs, fun hs p => ?_⟩
  refine ⟨fun hb => phr_dropped n hu hs hf ?_ (by decide), fun hb hl => phr_dropped n hu hs hf ?_ (by decide),
    fun hb hl hm => phr_dropped n hu hs hf ?_ (by decide), fun hb hl hm hsh => phr_dropped n hu hs hf ?_ (by decide),
    fun hb hl hm hsh => ⟨fun h0 => phr_dropped n hu hs hf ?_ (by decide), fun h0 => phr_taken n hu hs hi hf ?_⟩⟩
  · rw [State.phrDrop, if_pos hb]
  · rw [State.phrDrop, if_neg (by rw [hb]; decide), if_pos (of_decide_eq_true hl)]
  · rw [State.phrDrop, if_neg (by rw [hb]; decide), if_neg (of_decide_eq_false hl), if_pos hm]
  · rw [State.phrDrop, if_neg (by rw [hb]; decide), if_neg (of_decide_eq_false hl), if_neg (by rw [hm]; decide), if_pos hsh]
  · rw [State.phrDrop, if_neg (by rw [hb]; decide), if_neg (of_decide_eq_false hl), if_neg (by rw [hm]; decide), if_neg (by rw [hsh]; decide), if_pos h0]
  · rw [State.phrDrop, if_neg (by rw [hb]; decide), if_neg (of_decide_eq_false hl), if_neg (by rw [hm]; decide), if_neg (by rw [hsh]; decide), if_neg h0]

end Sys2Proof.Machine
end

section
/-!
A detection on a lane, and the freeze of the gain (R84, R86–R88, R93).
-/
namespace Sys2Proof.Machine
open Sys2Proof.Reg

variable {s t u : State} {F : Foot} {l : List (Fld × Nat)} {noted : List Nat} {n m v st : Nat} {cfo pwr : Int}

theorem laneSet_gain (x : Lane) : (s.laneSet n x).dev.gain = s.dev.gain := by rw [State.laneSet, State.live_dev]
theorem laneSet_fld (x : Lane) (f : Fld) : (s.laneSet n x).fld f = s.fld f := by rw [State.fld, laneSet_reg, State.fld]
theorem laneSet_bit (x : Lane) (f : Fld) : (s.laneSet n x).bit f = s.bit f := by rw [State.bit, laneSet_fld, State.bit]

/-! ### Fields set keep to a footprint -/

theorem State.after_other {a : Nat} (h : ∀ x ∈ l, x.1.addr ≠ a) : s.after l a = s.reg a := by
  rw [State.after]
  generalize s.reg a = w
  induction l generalizing w with
  | nil => rfl
  | cons x l ih =>
    rw [List.foldl_cons, if_neg (h x List.mem_cons_self)]
    exact ih (fun y hy => h y (List.mem_cons_of_mem _ hy)) w

theorem State.Sets.within (h : s.Sets t l noted) (hl : ∀ x ∈ l, F.regs x.1.addr = true) (hn : ∀ a ∈ noted, F.regs a = true) : s.Within F t where
  regs a ha := by
    rw [h.regs a (fun hm => by simp [hn a hm] at ha) rfl, State.after_other fun x hx he => by simp [← he, hl x hx] at ha]
  mem a _ := h.rest.mem a rfl
  tab x _ := h.rest.tab x rfl
  otp _ := h.rest.otp rfl
  bad _ := h.rest.bad rfl
  core _ := h.rest.core rfl
  keys _ := h.rest.keys rfl
  pending := h.rest.pending

/-! ### The frame seen and noted (R84, R191) -/

/-- What the scheduler notes of a detection (R191, R193, R201). -/
def Samp.noting (y x : Samp) (now : Nat) : Samp :=
  { y with detected := x.detected || x.sample, heard := x.heard || x.main == 3
           rdv := x.rdv.map fun r => if r.at_ ≤ now + 4000 + r.half then { r with hit := true } else r }

/-- A detection as the scheduler takes it. -/
def State.sampNoted (s : State) : State :=
  ((if s.dev.samp.sample then (emit sampPage 0x09).run (s.counted sampPage 0x02 3 (min 0xFFFFFFFF (s.ctr sampPage 0x02 3 + 1))) else s).live
    fun d => { d with samp := d.samp.noting s.dev.samp s.dev.time.now })

theorem sampDetect_bind (k : Unit → M Unit) : (sampDetect >>= k).run s = (k ()).run s.sampNoted := by
  rw [sampDetect, run_assoc, run_getS, State.sampNoted]
  by_cases h : s.dev.samp.sample = true
  · simp only [if_pos h, run_assoc, run_count_bind, run_emit_bind, run_modDev_bind]
    rfl
  · simp only [if_neg h, run_modDev_bind]
    rfl

theorem sampNoted_dev : ∃ k e, s.sampNoted.dev = { s.dev with samp := s.dev.samp.noting s.dev.samp s.dev.time.now, ctr := k, evLost := e } := by
  rw [State.sampNoted, State.live_dev]
  split
  · rw [emit_dev, State.counted_dev]
    exact ⟨_, _, rfl⟩
  · exact ⟨s.dev.ctr, s.dev.evLost, rfl⟩
theorem sampNoted_reg {a : Nat} (h : a ∉ perfRegs sampPage) : s.sampNoted.reg a = s.reg a := by
  rw [State.sampNoted, State.live_reg]
  split
  · rw [((emit_unlatched _ sampPage (e := 0x09) (by decide)).1).reg h, State.counted_reg]
  · rfl
theorem State.Did.sampNoted (h : s.Did t l noted F) (hn : ∀ a ∈ perfRegs sampPage, F.regs a = true ∨ a ∈ noted) : s.Did t.sampNoted l noted F := by
  rw [State.sampNoted]
  split
  · exact ((h.counted _ _ _ _).emit (by decide) hn).lived (by rfl)
  · exact h.lived (by rfl)

/-- The lane with its frame, in its state; the scheduler, the counters and the event told (R84). -/
def State.spotted (s : State) (n : Nat) (cfo : Int) (st : Nat) : State :=
  let a := ((s.laneSet n { s.lane n with frame := some { detAt := s.dev.time.link, cfo := cfo } }).laned n st).sampNoted
  (emit lanesPage (0x90 + n)).run ((perf lanesPage (0x40 + n) 1).run ((stat (0x02 + n)).run
    (a.counted lanesPage (0x10 + n) 0 (min (2 ^ 16 - 1) (a.ctr lanesPage (0x10 + n) 0 + 1)))))

theorem detect_run (hs : s.laneState n = laneSearch) (ho : s.laneOn n = true) (hc : (s.lane n).since ≤ s.dev.time.link)
    (hd : s.fld (LANES_DET_DETMIN n) = 0x80 ∨ 4 * signed 8 (s.fld (LANES_DET_DETMIN n)) ≤ pwr) :
    (detect n pwr cfo st).run s = (do
      detectFreeze n
      let t ← getS
      if t.dev.gain.rearm = some n then setLane n { t.lane n with digRuns := true } else digitalFreeze n : M Unit).run (s.spotted n cfo st) := by
  rw [detect, run_getS, if_pos ⟨hs, ho, hc, hd⟩, setLane_bind, setLaneState_bind, sampDetect_bind, laneCount]
  simp only [Bool.false_eq_true, if_false, Nat.add_zero, run_countN_bind, run_stat_bind, run_perf_bind, run_emit_bind]
  rfl

theorem detect_run_none (h : ¬ (s.fld (LANES_DET_DETMIN n) = 0x80 ∨ 4 * signed 8 (s.fld (LANES_DET_DETMIN n)) ≤ pwr)) :
    (detect n pwr cfo st).run s = s := by
  rw [detect, run_getS, if_neg fun hc => h hc.2.2.2, run_pure]

/-! ### What a detection leaves before the gain is settled -/

/-- The registers that a detection's events move. -/
def spotRegs : List Nat := evRegs lanesPage ++ perfOf sampPage

theorem modeApart : ∀ m < 4, ∀ n < 4, (LANES_MODE_PRIO m).addr ∉ LANES_STAT :: LANES_ED n :: spotRegs := by decide
theorem agcApart : ∀ n < 4, RXFE_AGC_MANUAL.addr ∉ LANES_STAT :: LANES_ED n :: spotRegs := by decide
theorem ownerApart : ∀ n < 4, (laneStateFld n).apart LANES_STAT_OWNER = true := by decide

section
theorem spotted_dev : ∃ x k e, (s.spotted n cfo st).dev = { s.dev with lanes := x, samp := s.dev.samp.noting s.dev.samp s.dev.time.now, ctr := k, evLost := e } := by
  obtain ⟨x, hx⟩ := laned_dev (s := s.laneSet n { s.lane n with frame := some { detAt := s.dev.time.link, cfo := cfo } }) (n := n) (v := st)
  obtain ⟨k, e, hk⟩ := sampNoted_dev (s := (s.laneSet n { s.lane n with frame := some { detAt := s.dev.time.link, cfo := cfo } }).laned n st)
  rw [State.spotted, emit_dev, perf_dev, run_stat, State.counted_dev, State.counted_dev, hk, hx, State.laneSet, State.live_dev]
  exact ⟨x, _, _, rfl⟩
theorem lane_sampNoted : s.sampNoted.lane m = s.lane m := by
  obtain ⟨k, e, h⟩ := sampNoted_dev (s := s)
  rw [State.lane, h]
  rfl
theorem lane_perf {p e x : Nat} : ((perf p e x).run s).lane m = s.lane m := by rw [State.lane, perf_dev, State.lane]
theorem spotted_lanes : (s.spotted n cfo st).lane m =
    ((s.laneSet n { s.lane n with frame := some { detAt := s.dev.time.link, cfo := cfo } }).laned n st).lane m := by
  rw [State.spotted, lane_emit, lane_perf, run_stat, lane_counted, lane_counted, lane_sampNoted]
theorem spotted_lane : ((s.spotted n cfo st).lane n).frame = some { detAt := s.dev.time.link, cfo := cfo } := by
  rw [spotted_lanes, frame_laned, lane_laneSet_same]
theorem spotted_others (h : m ≠ n) : (s.spotted n cfo st).lane m = s.lane m := by
  rw [spotted_lanes, lane_laned_other h, lane_laneSet_other _ h]

theorem spotted_reg {a : Nat} (h : a ∉ spotRegs) :
    (s.spotted n cfo st).reg a = ((s.laneSet n { s.lane n with frame := some { detAt := s.dev.time.link, cfo := cfo } }).laned n st).reg a := by
  have he : a ∉ evRegs lanesPage := fun hm => h (List.mem_append_left _ hm)
  rw [State.spotted, emit_reg he, perf_reg (fun hm => he (List.mem_cons_of_mem _ hm)), run_stat, State.counted_reg, State.counted_reg,
    sampNoted_reg fun hm => h (List.mem_append_right _ hm)]
theorem spotted_fld {f : Fld} (h : f.addr ∉ spotRegs) :
    (s.spotted n cfo st).fld f = ((s.laneSet n { s.lane n with frame := some { detAt := s.dev.time.link, cfo := cfo } }).laned n st).fld f := by
  rw [State.fld, spotted_reg h, State.fld]
theorem spotted_keeps {a : Nat} (h : a ∉ LANES_STAT :: LANES_ED n :: spotRegs) : (s.spotted n cfo st).reg a = s.reg a := by
  simp only [List.mem_cons, not_or] at h
  rw [spotted_reg h.2.2, laned_reg (by simp [h.1, h.2.1]), laneSet_reg]
theorem spotted_stat {f : Fld} (hn : n < 4) (ha : f.addr = LANES_STAT) (h : (laneStateFld n).apart f = true) : (s.spotted n cfo st).fld f = s.fld f := by
  rw [spotted_fld (by rw [ha]; decide), laned_stat_fld hn ha h, State.fld, laneSet_reg, State.fld]
theorem spotted_laneState (hn : n < 4) (hst : st < 16) : (s.spotted n cfo st).laneState n = st := by
  rw [State.laneState, spotted_fld (show LANES_STAT ∉ spotRegs by decide), ← State.laneState, laned_laneState_same hn hst]
theorem spotted_state {k : Nat} (hn : n < 4) (hk : k < 4) (h : k ≠ n) : (s.spotted n cfo st).laneState k = s.laneState k :=
  spotted_stat hn rfl (laneState_apart hn hk h)

theorem did_spotted (hi : s.Inv) (hn : n < 4) (hst : st ≠ laneSearch) :
    s.Did (s.spotted n cfo st) ([(laneStateFld n, st)] ++ [(LANES_ED_STALE n, 1)]) spotRegs := by
  have h := (((did_refl (noted := spotRegs) (F := {}) hi).laneSet n { s.lane n with frame := some { detAt := s.dev.time.link, cfo := cfo } }).rests hn hst)
  exact ((((h.sampNoted (by decide)).counted _ _ _ _).counted _ _ _ _).perf (by decide)).emit_noted (by decide)
end

/-! ### The freeze at a detection (R84, R86–R88) -/

/-- The lane's digital loop frozen where it stands (R88). -/
def State.digFrozen (s : State) (n : Nat) : State := (digitalFreeze n).run s

theorem digFrozen_eq : ∃ g, s.digFrozen n = (s.drawn 1).laneSet n { s.lane n with digRuns := false, dig := g } := ⟨Config.freeNat s.free, rfl⟩
theorem digFrozen_lane : ((s.digFrozen n).lane n).frame = (s.lane n).frame ∧ ((s.digFrozen n).lane n).digRuns = false := by
  obtain ⟨g, h⟩ := digFrozen_eq (s := s) (n := n)
  rw [h, lane_laneSet_same]
  exact ⟨rfl, rfl⟩
theorem digFrozen_reg (a : Nat) : (s.digFrozen n).reg a = s.reg a := by
  obtain ⟨g, h⟩ := digFrozen_eq (s := s) (n := n)
  rw [h, laneSet_reg, State.drawn_reg]
theorem digFrozen_fld (f : Fld) : (s.digFrozen n).fld f = s.fld f := by rw [State.fld, digFrozen_reg, State.fld]
theorem digFrozen_dev : ∃ x, (s.digFrozen n).dev = { s.dev with lanes := x } := by
  obtain ⟨g, h⟩ := digFrozen_eq (s := s) (n := n)
  exact ⟨_, by rw [h, State.laneSet, State.live_dev, State.drawn_dev]⟩
theorem State.Did.digFrozen (h : s.Did t l noted F) (n : Nat) : s.Did (t.digFrozen n) l noted F := by
  obtain ⟨g, hg⟩ := digFrozen_eq (s := t) (n := n)
  rw [hg]
  exact (h.drawn 1).laneSet _ _

section
variable (k : Unit → M Unit) (hr : s.dev.gain.rearm = none)
include hr
theorem detectFreeze_first (ho : s.fld LANES_STAT_OWNER = 7) : (detectFreeze n >>= k).run s = (k ()).run (s.frozenBy n) := by
  rw [detectFreeze, run_assoc, run_getS]
  simp only [hr, ho, if_true, setFreeze_bind]

variable (ho : s.fld LANES_STAT_OWNER ≠ 7) (hj : s.justDetected (s.fld LANES_STAT_OWNER) = false)
include ho hj
theorem detectFreeze_stays (hp : (s.bit (LANES_MODE_PRIO n) && !s.bit (LANES_MODE_PRIO (s.fld LANES_STAT_OWNER))) = false) :
    (detectFreeze n >>= k).run s = (k ()).run s := by
  rw [detectFreeze, run_assoc, run_getS]
  simp only [hr, if_neg ho, hj, hp, Bool.false_eq_true, if_false, run_pure_bind]
variable (hp : (s.bit (LANES_MODE_PRIO n) && !s.bit (LANES_MODE_PRIO (s.fld LANES_STAT_OWNER))) = true)
include hp
theorem detectFreeze_manual (hm : s.bit RXFE_AGC_MANUAL = true) : (detectFreeze n >>= k).run s = (k ()).run (s.frozenBy n) := by
  rw [detectFreeze, run_assoc, run_getS]
  simp only [hr, if_neg ho, hj, hp, hm, Bool.false_eq_true, if_false, if_true, setFreeze_bind]
theorem detectFreeze_rearms (hm : s.bit RXFE_AGC_MANUAL = false) : (detectFreeze n >>= k).run s = (gainRearm n >>= k).run s := by
  rw [detectFreeze, run_assoc, run_getS]
  simp only [hr, if_neg ho, hj, hp, hm, Bool.false_eq_true, if_false, if_true]
end

/-- What is left of a detection once the freeze is settled (R88). -/
def digitalSettle (n : Nat) : M Unit := do
  let t ← getS
  if t.dev.gain.rearm = some n then setLane n { t.lane n with digRuns := true } else digitalFreeze n

theorem digitalSettle_freezes (h : s.dev.gain.rearm = none) : (digitalSettle n).run s = s.digFrozen n := by
  rw [digitalSettle, run_getS, if_neg (by rw [h]; exact nofun), State.digFrozen]

/-! ### The detecting command -/

/-- The command of a detection on a lane, and the state it brings the lane to. -/
def State.detector (s : State) (n : Fin 4) (pwr cfo : Int) : Instr := if s.isOfdm n.val then .stfDetected n pwr cfo else .preambleQualified n pwr cfo
def State.detected (s : State) (n : Nat) : Nat := if s.isOfdm n then laneHeader else lanePreamble

theorem completes_detector {n : Fin 4} {P : State → Prop} (h : P (latchEdges s ((detect n.val pwr cfo (s.detected n.val)).run s))) :
    Completes (s.detector n pwr cfo) s P := by
  rw [State.detector]
  rw [State.detected] at h
  split at h
  case isTrue ho =>
    rw [if_pos ho]
    exact completes_run rfl (by rwa [if_pos ho])
  case isFalse ho =>
    rw [if_neg ho]
    exact completes_run rfl (by rwa [if_pos (by simpa using ho)])

theorem other_ignored (n : Fin 4) :
    Completes (if s.isOfdm n.val then Instr.preambleQualified n pwr cfo else .stfDetected n pwr cfo) s fun t => s.Within {} t := by
  split
  case isTrue ho =>
    refine completes_run rfl ?_
    rw [if_neg (by simp [ho]), run_pure, State.within_latch_iff]
    exact s.within_refl _
  case isFalse ho =>
    refine completes_run rfl ?_
    rw [if_neg ho, run_pure, State.within_latch_iff]
    exact s.within_refl _

theorem detected_range (s : State) (n : Nat) : s.detected n ≠ laneSearch ∧ s.detected n < 16 := by
  rw [State.detected]
  split <;> decide

/-! ### A lane of priority takes the gain (R87) -/

/-- Does a lane of priority take this lane's frame? -/
def State.preempts (s : State) (n m : Nat) : Prop := m ≠ n ∧ s.holds m = true ∧ s.justDetected m = false

/-- Of the lanes gone through, those with an earlier frame have dropped it; the others are as they were. -/
structure State.Preempted (s t : State) (n : Nat) (done : List Nat) : Prop where
  gone : ∀ m ∈ done, m < 4 → s.preempts n m → (t.lane m).frame = none ∧ t.laneState m = laneSearch ∧ t.fld (LANES_LAST_DROP m) = 1
  same : ∀ m < 4, m ∉ done ∨ ¬ s.preempts n m → t.lane m = s.lane m ∧ t.laneState m = s.laneState m
  rest : s.Within (onPages [lanesPage, rxfePage]) t

/-- One lane of the round. -/
def preemptLane (s : State) (n m : Nat) : M Unit :=
  if m ≠ n ∧ s.holds m ∧ s.justDetected m = false then (do stat 0x12; laneDrop m dropGainPreempt laneSearch) else nop

theorem total_preemptLane (s : State) (n m : Nat) : (preemptLane s n m).Total :=
  total_ite (total_bind (total_count _ _ _) fun _ => total_laneDrop _ _ _) (total_pure _)

theorem dropRegs_pages : ∀ m < 4, ∀ a ∈ dropRegs m, (onPages [lanesPage, rxfePage]).regs a = true := by decide
theorem lastDrop_apart : ∀ k < 4, ∀ m < 4, k ≠ m → (LANES_LAST_DROP k).addr ∉ dropRegs m := by decide

theorem lane_stat {e : Nat} : ((stat e).run s).lane m = s.lane m := by rw [run_stat, lane_counted]
theorem fld_stat {e : Nat} {f : Fld} : ((stat e).run s).fld f = s.fld f := by rw [run_stat, State.fld, State.counted_reg, State.fld]
theorem state_stat {e : Nat} : ((stat e).run s).laneState m = s.laneState m := fld_stat

theorem State.Preempted.next {done : List Nat} (h : s.Preempted t n done) (hm : m < 4) (hd : m ∉ done) :
    s.Preempted ((preemptLane s n m).run t) n (done ++ [m]) := by
  have hin : ∀ {k}, k ∈ done ++ [m] ↔ k ∈ done ∨ k = m := by simp
  by_cases hc : s.preempts n m
  · obtain ⟨hl, hst⟩ := h.same m hm (.inl hd)
    have hholds : ((stat 0x12).run t).holds m = true := by
      rw [State.holds, lane_stat, state_stat, hl, hst]
      exact hc.2.1
    have hf := laneDrop_fell (reason := dropGainPreempt) (v := laneSearch) hm (by decide) (by decide) hholds
    rw [preemptLane, if_pos (show m ≠ n ∧ s.holds m = true ∧ s.justDetected m = false from hc), (show (stat 0x12).Total from total_count _ _ _).run_bind]
    refine ⟨fun k hk h4 hp => ?_, fun k h4 hk => ?_, ?_⟩
    · by_cases hkm : k = m
      · rw [hkm]
        exact ⟨hf.frame, hf.lane, hf.last⟩
      · obtain ⟨h1, h2, h3⟩ := h.gone k ((hin.mp hk).resolve_right hkm) h4 hp
        refine ⟨by rw [hf.others k hkm, lane_stat, h1], by rw [hf.states k h4 hkm, state_stat, h2], ?_⟩
        rw [State.fld, hf.regs _ (lastDrop_apart k h4 m hm hkm), ← State.fld, fld_stat, h3]
    · have hkm : k ≠ m := by
        rintro rfl
        exact hk.elim (fun h => h (hin.mpr (.inr rfl))) fun h => h hc
      obtain ⟨h1, h2⟩ := h.same k h4 (hk.imp (fun hm hd => hm (hin.mpr (.inl hd))) id)
      exact ⟨by rw [hf.others k hkm, lane_stat, h1], by rw [hf.states k h4 hkm, state_stat, h2]⟩
    · refine h.rest.trans (State.Within.trans ?_ (hf.rest.of_onlyRegs (dropRegs_pages m hm)))
      rw [run_stat, State.within_counted_iff]
      exact t.within_refl _
  · rw [preemptLane, if_neg (show ¬ (m ≠ n ∧ s.holds m = true ∧ s.justDetected m = false) from hc), run_nop]
    refine ⟨fun k hk h4 hp => ?_, fun k h4 hk => h.same k h4 ?_, h.rest⟩
    · rcases hin.mp hk with hk | rfl
      · exact h.gone k hk h4 hp
      · exact absurd hp hc
    · rcases hk with hk | hk
      · exact .inl fun hm => hk (hin.mpr (.inl hm))
      · exact .inr hk

theorem preempted_all : s.Preempted ((forAll (List.range 4) (preemptLane s n)).run s) n (List.range 4) := by
  have h0 : s.Preempted s n [] := ⟨fun _ h => absurd h List.not_mem_nil, fun _ _ _ => ⟨rfl, rfl⟩, s.within_refl _⟩
  have h1 := h0.next (m := 0) (by decide) (by decide)
  have h2 := h1.next (m := 1) (by decide) (by decide)
  have h3 := h2.next (m := 2) (by decide) (by decide)
  have h4 := h3.next (m := 3) (by decide) (by decide)
  rw [range_four, forAll_cons, forAll_cons, forAll_cons, forAll_cons, forAll_nil, (total_preemptLane _ _ _).run_bind, (total_preemptLane _ _ _).run_bind,
    (total_preemptLane _ _ _).run_bind, (total_preemptLane _ _ _).run_bind, run_nop]
  exact h4

/-- The gain settles afresh for a lane of priority (R87). -/
def State.rearmed (s : State) (n : Nat) : State :=
  (emit lanesPage 0xA0).run ((((((forAll (List.range 4) (preemptLane s n)).run s).frozenBy 7).put LANES_STAT_RESETTLE 1).live
    fun d => { d with gain := { rearm := some n, updates := 0 } }))

theorem gainRearm_bind (k : Unit → M Unit) : (gainRearm n >>= k).run s = (k ()).run (s.rearmed n) := by
  have hloop : gainRearm n = (getS >>= fun s => forAll (List.range 4) (preemptLane s n) >>= fun _ => setFreeze 7 >>= fun _ =>
    setFld LANES_STAT_RESETTLE 1 >>= fun _ => modGain (fun _ => { rearm := some n, updates := 0 }) >>= fun _ => emit lanesPage 0xA0) := rfl
  rw [hloop, run_assoc, run_getS, run_assoc, (total_forAll fun _ => total_preemptLane _ _ _).run_bind, run_assoc, setFreeze_bind, run_assoc,
    run_setFld_bind, run_assoc, run_modGain_bind, run_emit_bind, State.rearmed]

section
variable (s : State) (n : Nat)
theorem rearmed_gain : (s.rearmed n).dev.gain = { rearm := some n, updates := 0 } := by rw [State.rearmed, emit_dev, State.live_dev]
theorem rearmed_lane (m : Nat) : (s.rearmed n).lane m = ((forAll (List.range 4) (preemptLane s n)).run s).lane m := by
  rw [State.rearmed, lane_emit, lane_live rfl, lane_put, frozenBy_lane]
theorem rearmed_state {m : Nat} (hm : m < 4) : (s.rearmed n).laneState m = ((forAll (List.range 4) (preemptLane s n)).run s).laneState m := by
  rw [State.laneState, State.rearmed, emit_fld (show LANES_STAT ∉ evRegs lanesPage by decide), State.live_fld,
    State.fld_apart _ (by interval_cases m <;> decide), ← State.laneState, frozenBy_laneState _ hm]
theorem rearmed_last {m : Nat} (hm : m < 4) : (s.rearmed n).fld (LANES_LAST_DROP m) =
    ((forAll (List.range 4) (preemptLane s n)).run s).fld (LANES_LAST_DROP m) := by
  rw [State.rearmed, emit_fld (by interval_cases m <;> decide), State.live_fld, State.fld, State.reg_put_other _ (by interval_cases m <;> decide),
    ← State.fld, frozenBy_fld _ (by interval_cases m <;> decide)]
theorem rearmed_resettle : (s.rearmed n).bit LANES_STAT_RESETTLE = true := by
  rw [State.rearmed, emit_bit (by decide), State.live_bit, State.bit_self _ (by decide)]
  decide
theorem rearmed_frozen : (s.rearmed n).bit LANES_STAT_FROZEN = false := by
  rw [State.rearmed, emit_bit (by decide), State.live_bit, State.bit_apart _ (by decide), frozenBy_frozen]
  decide
theorem rearmed_gainFrozen : (s.rearmed n).bit RXFE_GAIN_FROZEN = false := by
  rw [State.rearmed, emit_bit (by decide), State.live_bit, State.bit_apart _ (by decide), frozenBy_gainFrozen]
  decide
theorem rearmed_within : s.Within (onPages [lanesPage, rxfePage]) (s.rearmed n) := by
  rw [State.rearmed, State.within_emit_iff (by decide), State.within_live_iff rfl, State.within_put_iff (by decide),
    within_frozenBy_iff (by decide) (by decide)]
  exact preempted_all.rest
end

/-- Where a detection of priority leaves the lanes (R87). -/
def priorityFoot : Foot := { regs := fun a => decide (a / 0x1000 * 0x1000 ∈ [lanesPage, rxfePage] ∨ a ∈ LINK_STAT :: perfOf sampPage) }

theorem spotted_priority {n : Fin 4} (hi : s.Inv) : s.Within priorityFoot (s.spotted n.val cfo (s.detected n.val)) := by
  refine ((did_spotted (cfo := cfo) hi n.isLt (detected_range s n.val).1).sets).within ?_ (by decide)
  have h : ∀ k < 4, priorityFoot.regs (LANES_ED_STALE k).addr = true := by decide
  simp only [List.cons_append, List.nil_append, List.mem_cons, List.not_mem_nil, or_false, forall_eq_or_imp, forall_eq]
  exact ⟨by decide, h n.val n.isLt⟩

theorem State.Within.of_pages {p : List Nat} (h : s.Within (onPages p) t) (hp : ∀ a, (onPages p).regs a = true → F.regs a = true) : s.Within F t where
  regs a ha := h.regs a (by
    cases hx : (onPages p).regs a with
    | false => rfl
    | true => simp [hp a hx] at ha)
  mem a _ := h.mem a rfl
  tab x _ := h.tab x rfl
  otp _ := h.otp rfl
  bad _ := h.bad rfl
  core _ := h.core rfl
  keys _ := h.keys rfl
  pending := h.pending

section
variable {n : Fin 4} (hi : s.Inv) (hg : s.dev.gain.rearm = none) (hs : s.laneState n.val = laneSearch) (hon : s.laneOn n.val = true)
  (hc : (s.lane n.val).since ≤ s.dev.time.link)
  (hd : s.fld (LANES_DET_DETMIN n.val) = 0x80 ∨ 4 * signed 8 (s.fld (LANES_DET_DETMIN n.val)) ≤ pwr)
include hi hg hs hon hc hd

theorem detect_first (ho : s.fld LANES_STAT_OWNER = 7) : Completes (s.detector n pwr cfo) s fun t =>
    (t.lane n.val).frame = some { detAt := s.dev.time.link, cfo := cfo } ∧ (t.lane n.val).digRuns = false ∧
    t.dev.samp.detected = (s.dev.samp.detected || s.dev.samp.sample) ∧
    s.Sets t [(laneStateFld n.val, s.detected n.val), (LANES_ED_STALE n.val, 1), (LANES_STAT_OWNER, n.val), (LANES_STAT_FROZEN, 1),
      (RXFE_GAIN_FROZEN, 1)] (evRegs lanesPage ++ perfOf sampPage) := by
  have h7 : n.val < 7 := by omega
  obtain ⟨hst, h16⟩ := detected_range s n.val
  obtain ⟨x, k, e, hdev⟩ := spotted_dev (s := s) (n := n.val) (cfo := cfo) (st := s.detected n.val)
  have how : (s.spotted n.val cfo (s.detected n.val)).fld LANES_STAT_OWNER = 7 := by
    rw [spotted_stat n.isLt rfl (ownerApart n.val n.isLt), ho]
  have hrun : (detect n.val pwr cfo (s.detected n.val)).run s = ((s.spotted n.val cfo (s.detected n.val)).frozenBy n.val).digFrozen n.val := by
    rw [detect_run hs hon hc hd, detectFreeze_first _ (by rw [hdev]; exact hg) how]
    exact digitalSettle_freezes (by rw [frozenBy_dev, hdev]; exact hg)
  obtain ⟨y, hy⟩ := digFrozen_dev (s := (s.spotted n.val cfo (s.detected n.val)).frozenBy n.val) (n := n.val)
  refine completes_detector ?_
  rw [hrun]
  refine ⟨?_, ?_, ?_, ?_⟩
  · rw [State.lane, latchEdges_lanes, ← State.lane, digFrozen_lane.1, frozenBy_lane, spotted_lane]
  · rw [State.lane, latchEdges_lanes, ← State.lane, digFrozen_lane.2]
  · rw [latchEdges_samp, hy, frozenBy_dev, hdev]
    rfl
  · have h := ((did_spotted (cfo := cfo) hi n.isLt hst).frozenBy n.val).digFrozen n.val
    rw [decide_eq_true h7] at h
    exact h.latched s
/-! A lane that owns the freeze already, of a frame seen before. -/

variable {g : RxFrame} (h4 : s.fld LANES_STAT_OWNER < 4) (hne : s.fld LANES_STAT_OWNER ≠ n.val) (hf : (s.lane (s.fld LANES_STAT_OWNER)).frame = some g)
  (hbefore : g.detAt < s.dev.time.link)

omit hi hs hon hc hd in
include h4 hne hf hbefore in
/-- What the freeze is judged by, after the detection. -/
theorem spotted_judged :
    let t := s.spotted n.val cfo (s.detected n.val)
    t.dev.gain.rearm = none ∧ t.fld LANES_STAT_OWNER = s.fld LANES_STAT_OWNER ∧ t.justDetected (s.fld LANES_STAT_OWNER) = false ∧
      t.bit (LANES_MODE_PRIO n.val) = s.bit (LANES_MODE_PRIO n.val) ∧
      t.bit (LANES_MODE_PRIO (s.fld LANES_STAT_OWNER)) = s.bit (LANES_MODE_PRIO (s.fld LANES_STAT_OWNER)) ∧ t.bit RXFE_AGC_MANUAL = s.bit RXFE_AGC_MANUAL := by
  obtain ⟨x, k, e, hdev⟩ := spotted_dev (s := s) (n := n.val) (cfo := cfo) (st := s.detected n.val)
  have hprio : ∀ m < 4, (s.spotted n.val cfo (s.detected n.val)).bit (LANES_MODE_PRIO m) = s.bit (LANES_MODE_PRIO m) := fun m hm => by
    rw [State.bit, State.fld, spotted_keeps (modeApart m hm n.val n.isLt), ← State.fld, ← State.bit]
  refine ⟨by rw [hdev]; exact hg, by rw [spotted_stat n.isLt rfl (ownerApart n.val n.isLt)], ?_, hprio _ n.isLt, hprio _ h4, ?_⟩
  · rw [State.justDetected, spotted_others hne, hf, hdev]
    exact beq_false_of_ne (Nat.ne_of_lt hbefore)
  · rw [State.bit, State.fld, spotted_keeps (agcApart n.val n.isLt), ← State.fld, ← State.bit]

include h4 hne hf hbefore

theorem detect_shares (hp : s.bit (LANES_MODE_PRIO n.val) = false ∨ s.bit (LANES_MODE_PRIO (s.fld LANES_STAT_OWNER)) = true) :
    Completes (s.detector n pwr cfo) s fun t =>
      (t.lane n.val).frame = some { detAt := s.dev.time.link, cfo := cfo } ∧ t.dev.gain = s.dev.gain ∧
      s.Sets t [(laneStateFld n.val, s.detected n.val), (LANES_ED_STALE n.val, 1)] (evRegs lanesPage ++ perfOf sampPage) := by
  obtain ⟨hst, h16⟩ := detected_range s n.val
  obtain ⟨x, k, e, hdev⟩ := spotted_dev (s := s) (n := n.val) (cfo := cfo) (st := s.detected n.val)
  obtain ⟨hr, ho, hj, hpn, hpo, -⟩ := spotted_judged (cfo := cfo) hg h4 hne hf hbefore
  have hrun : (detect n.val pwr cfo (s.detected n.val)).run s = (s.spotted n.val cfo (s.detected n.val)).digFrozen n.val := by
    rw [detect_run hs hon hc hd, detectFreeze_stays _ hr (by rw [ho]; omega) (by rw [ho]; exact hj)
      (by rw [ho, hpn, hpo]; rcases hp with hp | hp <;> simp [hp])]
    exact digitalSettle_freezes hr
  obtain ⟨y, hy⟩ := digFrozen_dev (s := s.spotted n.val cfo (s.detected n.val)) (n := n.val)
  refine completes_detector ?_
  rw [hrun]
  refine ⟨?_, by rw [latchEdges_gain, hy, hdev], ((did_spotted (cfo := cfo) hi n.isLt hst).digFrozen n.val).latched s⟩
  rw [State.lane, latchEdges_lanes, ← State.lane, digFrozen_lane.1, spotted_lane]

theorem detect_takes (hp : s.bit (LANES_MODE_PRIO n.val) = true) (hq : s.bit (LANES_MODE_PRIO (s.fld LANES_STAT_OWNER)) = false)
    (hm : s.bit RXFE_AGC_MANUAL = true) :
    Completes (s.detector n pwr cfo) s fun t =>
      t.fld LANES_STAT_OWNER = n.val ∧ t.bit LANES_STAT_FROZEN = true ∧ t.laneState n.val = s.detected n.val ∧
      s.Within (onlyRegs (LANES_STAT :: LANES_ED n.val :: RXFE_GAIN :: (evRegs lanesPage ++ perfOf sampPage))) t := by
  obtain ⟨hst, h16⟩ := detected_range s n.val
  obtain ⟨hr, ho, hj, hpn, hpo, hman⟩ := spotted_judged (cfo := cfo) hg h4 hne hf hbefore
  have hrun : (detect n.val pwr cfo (s.detected n.val)).run s = ((s.spotted n.val cfo (s.detected n.val)).frozenBy n.val).digFrozen n.val := by
    rw [detect_run hs hon hc hd, detectFreeze_manual _ hr (by rw [ho]; omega) (by rw [ho]; exact hj) (by rw [ho, hpn, hpo, hp, hq]; rfl)
      (by rw [hman, hm])]
    exact digitalSettle_freezes (by rw [frozenBy_dev]; exact hr)
  refine completes_detector ?_
  rw [hrun]
  refine ⟨by rw [latchEdges_fld, digFrozen_fld, frozenBy_owner (by omega)], ?_, ?_, ?_⟩
  · rw [latchEdges_bit, State.bit, digFrozen_fld, ← State.bit, frozenBy_frozen, decide_eq_true (by omega : n.val < 7)]
  · rw [State.laneState, latchEdges_fld, digFrozen_fld, ← State.laneState, frozenBy_laneState _ n.isLt, spotted_laneState n.isLt h16]
  · refine ((((did_spotted (cfo := cfo) hi n.isLt hst).frozenBy n.val).digFrozen n.val).latched s).within ?_ ?_
    · simp [onlyRegs]
    · exact fun a ha => decide_eq_true (List.mem_cons_of_mem _ (List.mem_cons_of_mem _ (List.mem_cons_of_mem _ ha)))

theorem detect_rearms (hp : s.bit (LANES_MODE_PRIO n.val) = true) (hq : s.bit (LANES_MODE_PRIO (s.fld LANES_STAT_OWNER)) = false)
    (hm : s.bit RXFE_AGC_MANUAL = false) :
    Completes (s.detector n pwr cfo) s fun t =>
      t.dev.gain.rearm = some n.val ∧ t.dev.gain.updates = 0 ∧ t.bit LANES_STAT_RESETTLE = true ∧
      t.bit LANES_STAT_FROZEN = false ∧ t.bit RXFE_GAIN_FROZEN = false ∧ t.laneState n.val = s.detected n.val ∧
      (t.lane n.val).digRuns = true ∧
      (∀ m < 4, m ≠ n.val → s.holds m = true → s.justDetected m = false →
        (t.lane m).frame = none ∧ t.laneState m = laneSearch ∧ t.fld (LANES_LAST_DROP m) = 1) ∧
      s.Within priorityFoot t := by
  obtain ⟨hst, h16⟩ := detected_range s n.val
  obtain ⟨x, k, e, hdev⟩ := spotted_dev (s := s) (n := n.val) (cfo := cfo) (st := s.detected n.val)
  obtain ⟨hr, ho, hj, hpn, hpo, hman⟩ := spotted_judged (cfo := cfo) hg h4 hne hf hbefore
  have hrun : (detect n.val pwr cfo (s.detected n.val)).run s = ((s.spotted n.val cfo (s.detected n.val)).rearmed n.val).laneSet n.val
      { ((s.spotted n.val cfo (s.detected n.val)).rearmed n.val).lane n.val with digRuns := true } := by
    rw [detect_run hs hon hc hd, detectFreeze_rearms _ hr (by rw [ho]; omega) (by rw [ho]; exact hj) (by rw [ho, hpn, hpo, hp, hq]; rfl)
      (by rw [hman, hm]), gainRearm_bind, run_getS, if_pos (by rw [rearmed_gain]), run_setLane]
  have hall := preempted_all (s := s.spotted n.val cfo (s.detected n.val)) (n := n.val)
  refine completes_detector ?_
  rw [hrun]
  refine ⟨by rw [latchEdges_gain, laneSet_gain, rearmed_gain], by rw [latchEdges_gain, laneSet_gain, rearmed_gain],
    by rw [latchEdges_bit, laneSet_bit, rearmed_resettle], by rw [latchEdges_bit, laneSet_bit, rearmed_frozen],
    by rw [latchEdges_bit, laneSet_bit, rearmed_gainFrozen], ?_, ?_, fun m hm4 hmn hh hjd => ?_, ?_⟩
  · rw [State.laneState, latchEdges_fld, laneSet_fld, ← State.laneState, rearmed_state _ _ n.isLt,
      (hall.same n.val n.isLt (.inr fun h => h.1 rfl)).2, spotted_laneState n.isLt h16]
  · rw [State.lane, latchEdges_lanes, ← State.lane, lane_laneSet_same]
  · have hpre : (s.spotted n.val cfo (s.detected n.val)).preempts n.val m := by
      refine ⟨hmn, ?_, ?_⟩
      · rw [State.holds, spotted_others hmn, spotted_state n.isLt hm4 hmn]
        exact hh
      · rw [State.justDetected, spotted_others hmn, hdev]
        exact hjd
    obtain ⟨h1, h2, h3⟩ := hall.gone m (List.mem_range.mpr hm4) hm4 hpre
    refine ⟨?_, ?_, ?_⟩
    · rw [State.lane, latchEdges_lanes, ← State.lane, lane_laneSet_other _ hmn, rearmed_lane, h1]
    · rw [State.laneState, latchEdges_fld, laneSet_fld, ← State.laneState, rearmed_state _ _ hm4, h2]
    · rw [latchEdges_fld, laneSet_fld, rearmed_last _ _ hm4, h3]
  · rw [State.within_latch_iff, within_laneSet_iff]
    refine (spotted_priority hi).trans ((rearmed_within _ _).of_pages fun a ha => ?_)
    exact decide_eq_true (.inl (of_decide_eq_true ha))
end

/-- Settles O25: a detection that the power admits, by who owns the freeze of the gain and which lane has priority. -/
theorem detection : Obligations.Detection := by
  intro n pwr cfo s hi hg hc k dm c other st owner F
  refine ⟨other_ignored n, fun h80 hlow => ?_, fun hs hon hd => ⟨fun ho => detect_first hi hg hs hon hc hd ho, fun f h4 hne hf hb => ⟨?_, ?_, ?_⟩⟩⟩
  · refine completes_detector ?_
    rw [detect_run_none (fun h => h.elim h80 fun h => absurd hlow (not_lt.mpr h)), State.within_latch_iff]
    exact s.within_refl _
  · exact fun hp => detect_shares hi hg hs hon hc hd h4 hne hf hb hp
  · exact fun hp hq hm => detect_takes hi hg hs hon hc hd h4 hne hf hb hp hq hm
  · exact fun hp hq hm => detect_rearms hi hg hs hon hc hd h4 hne hf hb hp hq hm

end Sys2Proof.Machine
end

section
/-!
Lane enables, counters, the gain control and energy detection (R76, R79, R83, R93, R96).
-/
namespace Sys2Proof.Machine
open Sys2Proof.Reg

variable {s t u : State} {F : Foot} {l : List (Fld × Nat)} {noted : List Nat} {n m v : Nat}

/-! ### One lane's enable written (R76) -/

/-- The enable of a lane. -/
def laneOnFld (n : Nat) : Fld := ⟨LANES_ENABLE, n, n⟩

/-- What a write of LANES_ENABLE does for one lane. -/
def laneSwitch (v n : Nat) : M Unit := do
  let on ← bit (laneOnFld n)
  if bitOf v n && !on then laneStart n
  if !bitOf v n && on then laneStop n

theorem total_openGate (p : Nat) : (openGate p).Total := total_act _
theorem total_laneStart (n : Nat) : (laneStart n).Total :=
  total_bind total_getS fun _ => total_ite
    (total_bind (total_setFld _ _) fun _ => total_bind (total_setFld _ _) fun _ => total_bind (total_openGate _) fun _ => total_bind total_getS fun _ =>
      total_ite (total_setLaneState _ _) (total_pure _))
    (total_setFld _ _)
theorem total_laneStop (n : Nat) : (laneStop n).Total := total_bind (total_setFld _ _) fun _ => total_laneDrop _ _ _
theorem total_laneSwitch (v n : Nat) : (laneSwitch v n).Total :=
  total_bind (total_bit _) fun _ => total_ite
    (total_bind (total_laneStart n) fun _ => total_ite (total_laneStop n) (total_pure _)) (total_ite (total_laneStop n) (total_pure _))

theorem laneSwitch_fixed (h : s.bit (laneOnFld n) = bitOf v n) : (laneSwitch v n).run s = s := by
  rw [laneSwitch, run_bit, h]
  cases bitOf v n <;> rfl
theorem laneSwitch_on (h : s.bit (laneOnFld n) = false) (hv : bitOf v n = true) : (laneSwitch v n).run s = (laneStart n).run s := by
  simp only [laneSwitch, run_bit, h, hv, Bool.not_false, Bool.and_self, if_true, Bool.not_true, Bool.false_and, Bool.false_eq_true, if_false]
  exact ((total_laneStart n).run_bind _ _).trans (run_pure _)
theorem laneSwitch_off (h : s.bit (laneOnFld n) = true) (hv : bitOf v n = false) : (laneSwitch v n).run s = (laneStop n).run s := by
  simp only [laneSwitch, run_bit, h, hv, Bool.not_false, Bool.and_self, if_true, Bool.not_true, Bool.false_eq_true, if_false]

/-- A write of LANES_ENABLE that switches one lane, no parity in its way. -/
theorem lanesEnableWrite_one (hn : n < 4) (hheld : ∀ m < 4, (bitOf v m && !s.bit (laneOnFld m) && s.parityIn (LANES_MODE m) (LANES_LEN m)) = false)
    (hb : ∀ m < 4, m ≠ n → s.bit (laneOnFld m) = bitOf v m) (ha : ∀ m < 4, m ≠ n → ((laneSwitch v n).run s).bit (laneOnFld m) = bitOf v m) :
    (lanesEnableWrite v).run s = (laneSwitch v n).run s := by
  have hnone : ((List.range 4).any fun m => bitOf v m && !s.bit (laneOnFld m) && s.parityIn (LANES_MODE m) (LANES_LEN m)) = false :=
    List.any_eq_false.mpr fun m hm => by simp [hheld m (List.mem_range.mp hm)]
  have hall : ((List.range 4).filter fun m => !(bitOf v m && !s.bit (laneOnFld m) && s.parityIn (LANES_MODE m) (LANES_LEN m))) = List.range 4 :=
    List.filter_eq_self.mpr fun m hm => by simp [hheld m (List.mem_range.mp hm)]
  have hloop : (forAll (List.range 4) (laneSwitch v)).run s = (laneSwitch v n).run s := by
    rw [forAll_run (total_laneSwitch v)]
    exact foldl_one List.nodup_range (List.mem_range.mpr hn) (fun m hm hmn => laneSwitch_fixed (hb m (List.mem_range.mp hm) hmn))
      fun m hm hmn => laneSwitch_fixed (ha m (List.mem_range.mp hm) hmn)
  rw [lanesEnableWrite, run_getS]
  simp only [laneOnFld] at hnone hall
  simp only [hnone, Bool.false_eq_true, if_false, hall]
  exact hloop

/-! ### Enabling and disabling -/

/-- A lane configured and enabled, before it starts to search. -/
def State.laneEnabled (s : State) (k : Nat) : State :=
  ((s.put ⟨LANES_CFGERR, 8 * k + 7, 8 * k⟩ stOk).put (laneOnFld k) 1).live
    fun d => { d with gates := if lanesPage ∈ d.gates then d.gates else lanesPage :: d.gates }

theorem laneStart_ok (h : s.laneCfgOk n = true) : (laneStart n).run s =
    if (s.laneEnabled n).laneRest n ≠ laneOff then (s.laneEnabled n).laned n ((s.laneEnabled n).laneRest n) else s.laneEnabled n := by
  rw [laneStart, run_getS, if_pos h, run_setFld_bind, run_setFld_bind, openGate, run_modDev_bind, run_getS, run_ite, setLaneState_run, run_pure]
  rfl

theorem laneStart_bad (h : s.laneCfgOk n = false) : (laneStart n).run s = s.put ⟨LANES_CFGERR, 8 * n + 7, 8 * n⟩ stParam := by
  rw [laneStart, run_getS, if_neg (by simp [h]), run_setFld]

theorem laneEnabled_dev : (s.laneEnabled n).dev = { s.dev with gates := if lanesPage ∈ s.dev.gates then s.dev.gates else lanesPage :: s.dev.gates } := by
  rw [State.laneEnabled, State.live_dev, State.dev_put, State.dev_put]
theorem laneEnabled_reg {a : Nat} (h : a ≠ LANES_CFGERR) (h' : a ≠ LANES_ENABLE) : (s.laneEnabled n).reg a = s.reg a := by
  rw [State.laneEnabled, State.live_reg, State.reg_put_other _ (by exact h'), State.reg_put_other _ (by exact h)]
theorem enableFlds : ∀ k < 4, (⟨LANES_CFGERR, 8 * k + 7, 8 * k⟩ : Fld).settable = true ∧ (laneOnFld k).settable = true := by decide
theorem onFlds_apart : ∀ k < 4, ∀ m < 4, m ≠ k → (laneOnFld k).apart (laneOnFld m) = true := by decide
theorem laneEnabled_on (hn : n < 4) : (s.laneEnabled n).bit (laneOnFld n) = true := by
  rw [State.laneEnabled, State.live_bit, State.bit_self _ (enableFlds n hn).2]
  show (1 % 2 ^ (n - n + 1) == 1) = true
  rw [Nat.sub_self]
  decide
theorem laneEnabled_others (hn : n < 4) (hm : m < 4) (h : m ≠ n) : (s.laneEnabled n).bit (laneOnFld m) = s.bit (laneOnFld m) := by
  rw [State.laneEnabled, State.live_bit, State.bit_apart _ (onFlds_apart n hn m hm h), State.bit, State.fld, State.reg_put_other _ (by show LANES_ENABLE ≠ LANES_CFGERR; decide)]
  rfl

theorem laneEnabled_rest (hn : n < 4) : (s.laneEnabled n).laneRest n =
    if s.en lanesPage && bitOf s.windowLanes n && s.rxRuns then laneSearch
    else if s.en lanesPage && bitOf s.windowLanes n && s.dev.radio.blank then laneBlanked else laneOff := by
  have hr : ∀ {a : Nat}, a ≠ LANES_CFGERR → a ≠ LANES_ENABLE → (s.laneEnabled n).reg a = s.reg a := laneEnabled_reg
  have hup : (s.laneEnabled n).laneUp n = (s.en lanesPage && bitOf s.windowLanes n) := by
    have hon := laneEnabled_on (s := s) hn
    rw [laneOnFld] at hon
    rw [State.laneUp, hon, Bool.and_true]
    simp only [State.en, State.bit, State.fld, State.windowLanes, laneEnabled_dev, hr (a := SAMP_CFG) (by decide) (by decide),
      hr (a := (CTRL_EN lanesPage).addr) (by decide) (by decide)]
  have hruns : (s.laneEnabled n).rxRuns = s.rxRuns := by
    simp only [State.rxRuns, State.fld, laneEnabled_dev, hr (a := RCTL_STAT_STATE.addr) (by decide) (by decide)]
  rw [State.laneRest, State.laneOn, hup, hruns, laneEnabled_dev]

theorem dropRegs_enable : ∀ k < 4, LANES_ENABLE ∉ dropRegs k := by decide
theorem enable_dropped : droppedFoot.regs LANES_ENABLE = true := by decide
theorem enable_apart : ∀ k < 4, LANES_ENABLE ∉ [LANES_STAT, LANES_ED k] := by decide
theorem total_lanesEnableWrite (v : Nat) : (lanesEnableWrite v).Total :=
  total_bind total_getS fun _ => total_ite
    (total_bind (total_setFltAt _ _ _) fun _ => total_forAll fun n => total_laneSwitch v n) (total_forAll fun n => total_laneSwitch v n)

/-- Is a lane's enable what a word with one bit set or cleared says? -/
theorem bitOf_or_one (w : Word) {k : Nat} (hm : m < 4) :
    bitOf (w ||| BitVec.ofNat 32 (2 ^ k)).toNat m = (w.toNat.testBit m || decide (k = m)) := by
  rw [bitOf, BitVec.toNat_or, Nat.testBit_or, BitVec.toNat_ofNat, Nat.testBit_mod_two_pow, Nat.testBit_two_pow, decide_eq_true (by omega : m < 32),
    Bool.true_and]
theorem bitOf_clear_one (w : Word) {k : Nat} (hm : m < 4) :
    bitOf (w &&& ~~~(BitVec.ofNat 32 (2 ^ k))).toNat m = (w.toNat.testBit m && !decide (k = m)) := by
  have hbit : ∀ x : Word, x.toNat.testBit m = x.getLsbD m := fun x => rfl
  rw [bitOf, hbit, hbit, BitVec.getLsbD_and, BitVec.getLsbD_not, BitVec.getLsbD_ofNat, Nat.testBit_two_pow, decide_eq_true (by omega : m < 32),
    Bool.true_and, Bool.true_and]
theorem laneOn_bit : s.bit (laneOnFld m) = (s.reg LANES_ENABLE).toNat.testBit m := State.bit_testBit s LANES_ENABLE m

section
variable (k : Fin 4) {w : Word}

theorem laneEnabled_unwatched (hu : s.Unwatched) : (s.laneEnabled n).Unwatched :=
  ⟨by rw [laneEnabled_dev]; exact hu.sample, by rw [laneEnabled_dev]; exact hu.main, by rw [laneEnabled_dev]; exact hu.rdv,
    by rw [laneEnabled_dev]; exact hu.closing, by rw [laneEnabled_dev]; exact hu.closed⟩

theorem did_laneEnabled (hi : s.Inv) : s.Did (s.laneEnabled k.val) [(⟨LANES_CFGERR, 8 * k.val + 7, 8 * k.val⟩, 0), (laneOnFld k.val, 1)] :=
  (((did_refl hi).put (enableFlds k.val k.isLt).1 _).put (enableFlds k.val k.isLt).2 _).lived (by rfl)

variable (hw : w = s.reg LANES_ENABLE ||| BitVec.ofNat 32 (2 ^ k.val)) (hoff : s.bit (laneOnFld k.val) = false)
  (hp : s.dev.parity = [])
include hw hoff hp

/-- A write that sets one lane's enable starts that lane alone. -/
theorem laneEnable_run (ha : ∀ m < 4, m ≠ k.val → ((laneStart k.val).run s).bit (laneOnFld m) = s.bit (laneOnFld m)) :
    (lanesEnableWrite w.toNat).run s = (laneStart k.val).run s := by
  have hbit : ∀ m < 4, m ≠ k.val → s.bit (laneOnFld m) = bitOf w.toNat m := fun m hm hmk => by
    rw [hw, bitOf_or_one _ hm, laneOn_bit, decide_eq_false (Ne.symm hmk), Bool.or_false]
  have hon : (laneSwitch w.toNat k.val).run s = (laneStart k.val).run s :=
    laneSwitch_on hoff (by rw [hw, bitOf_or_one _ k.isLt, decide_eq_true rfl, Bool.or_true])
  rw [lanesEnableWrite_one k.isLt (fun m _ => by rw [State.parityIn, hp, List.any_nil, Bool.and_false]) hbit
    (fun m hm hmk => by rw [hon, ha m hm hmk, hbit m hm hmk]), hon]

theorem lane_enabled (hi : s.Inv) (hu : s.Unwatched) (hc : s.laneCfgOk k.val = true) :
    Completes (.laneEnable w) s fun t =>
      lanesPage ∈ t.dev.gates ∧
      s.Sets t ([(⟨LANES_CFGERR, 8 * k.val + 7, 8 * k.val⟩, 0), (laneOnFld k.val, 1)] ++
        if s.en lanesPage && bitOf s.windowLanes k.val && s.rxRuns then [(laneStateFld k.val, 1)]
        else if s.en lanesPage && bitOf s.windowLanes k.val && s.dev.radio.blank then [(laneStateFld k.val, 5), (LANES_ED_STALE k.val, 1)]
        else []) := by
  have hgate : lanesPage ∈ (s.laneEnabled k.val).dev.gates := by
    rw [laneEnabled_dev]
    dsimp only
    split
    · assumption
    · exact List.mem_cons_self
  have hgates : ∀ t : State, (latchEdges s t).dev.gates = t.dev.gates := fun _ => rfl
  have hlaned : ∀ x, lanesPage ∈ ((s.laneEnabled k.val).laned k.val x).dev.gates := fun x => by
    obtain ⟨y, hy⟩ := laned_dev (s := s.laneEnabled k.val) (n := k.val) (v := x)
    rw [hy]
    exact hgate
  have hothers : ∀ m < 4, m ≠ k.val → ((laneStart k.val).run s).bit (laneOnFld m) = s.bit (laneOnFld m) := fun m hm hmk => by
    rw [laneStart_ok hc]
    split
    · rw [laned_bit (enable_apart k.val k.isLt), laneEnabled_others k.isLt hm hmk]
    · rw [laneEnabled_others k.isLt hm hmk]
  refine completes_run rfl ?_
  rw [(total_lanesEnableWrite _).run_bind, laneEnable_run k hw hoff hp hothers, laneStart_ok hc, laneEnabled_rest k.isLt]
  have hun := laneEnabled_unwatched (n := k.val) hu
  have hd := did_laneEnabled k hi
  split
  · rw [if_pos (by decide), run_frameOver (laned_unwatched hun)]
    exact ⟨by rw [hgates]; exact hlaned _, (hd.searches k.isLt).latched s⟩
  · split
    · rw [if_pos (by decide), run_frameOver (laned_unwatched hun)]
      exact ⟨by rw [hgates]; exact hlaned _, (hd.rests k.isLt (by decide)).latched s⟩
    · rw [if_neg (by decide), run_frameOver hun]
      exact ⟨by rw [hgates]; exact hgate, by rw [List.append_nil]; exact hd.latched s⟩

theorem lane_refused (hi : s.Inv) (hu : s.Unwatched) (hc : s.laneCfgOk k.val = false) :
    Completes (.laneEnable w) s fun t => s.Sets t [(⟨LANES_CFGERR, 8 * k.val + 7, 8 * k.val⟩, 3)] := by
  have hun : (s.put ⟨LANES_CFGERR, 8 * k.val + 7, 8 * k.val⟩ stParam).Unwatched :=
    ⟨by rw [State.dev_put]; exact hu.sample, by rw [State.dev_put]; exact hu.main, by rw [State.dev_put]; exact hu.rdv,
      by rw [State.dev_put]; exact hu.closing, by rw [State.dev_put]; exact hu.closed⟩
  refine completes_run rfl ?_
  rw [(total_lanesEnableWrite _).run_bind, laneEnable_run k hw hoff hp (fun m _ _ => by
    rw [laneStart_bad hc, State.bit, State.fld, State.reg_put_other _ (by show LANES_ENABLE ≠ LANES_CFGERR; decide), State.bit, State.fld]),
    laneStart_bad hc, run_frameOver hun]
  exact ((did_refl hi).put (enableFlds k.val k.isLt).1 _).latched s
end

/-! A lane disabled (R79). -/

theorem laneStop_run : (laneStop n).run s = (laneDrop n dropStopped laneOff).run (s.put (laneOnFld n) 0) := by
  rw [laneStop, run_setFld_bind]
  rfl

/-- A lane that holds no frame only changes its state. -/
theorem laneDrop_rest {reason : Nat} (h : s.holds n = false) : (laneDrop n reason v).run s = s.laned n v := by
  rw [laneDrop, run_getS, if_neg (by rw [h]; decide), setLaneState_run]

section
variable (k : Fin 4) {w : Word} (hu : s.Unwatched) (hw : w = s.reg LANES_ENABLE &&& ~~~(BitVec.ofNat 32 (2 ^ k.val))) (hon : s.bit (laneOnFld k.val) = true)
include hw hon

/-- A write that clears one lane's enable stops that lane alone. -/
theorem laneDisable_run (ha : ∀ m < 4, m ≠ k.val → ((laneStop k.val).run s).bit (laneOnFld m) = s.bit (laneOnFld m)) :
    (lanesEnableWrite w.toNat).run s = (laneStop k.val).run s := by
  have hself : bitOf w.toNat k.val = false := by rw [hw, bitOf_clear_one _ k.isLt, decide_eq_true rfl, Bool.not_true, Bool.and_false]
  have hbit : ∀ m < 4, m ≠ k.val → s.bit (laneOnFld m) = bitOf w.toNat m := fun m hm hmk => by
    rw [hw, bitOf_clear_one _ hm, laneOn_bit, decide_eq_false (Ne.symm hmk), Bool.not_false, Bool.and_true]
  have hheld : ∀ m < 4, (bitOf w.toNat m && !s.bit (laneOnFld m) && s.parityIn (LANES_MODE m) (LANES_LEN m)) = false := fun m hm => by
    by_cases hmk : m = k.val
    · rw [hmk, hself, Bool.false_and, Bool.false_and]
    · rw [hbit m hm hmk, Bool.and_not_self, Bool.false_and]
  have hoff : (laneSwitch w.toNat k.val).run s = (laneStop k.val).run s := laneSwitch_off hon hself
  rw [lanesEnableWrite_one k.isLt hheld hbit (fun m hm hmk => by rw [hoff, ha m hm hmk, hbit m hm hmk]), hoff]

omit hw hon in
theorem offPut_unwatched (hu : s.Unwatched) : (s.put (laneOnFld k.val) 0).Unwatched :=
  ⟨by rw [State.dev_put]; exact hu.sample, by rw [State.dev_put]; exact hu.main, by rw [State.dev_put]; exact hu.rdv,
    by rw [State.dev_put]; exact hu.closing, by rw [State.dev_put]; exact hu.closed⟩
omit hw hon in
theorem offPut_state (m : Nat) : (s.put (laneOnFld k.val) 0).laneState m = s.laneState m := by
  rw [State.laneState, State.fld, State.reg_put_other _ (by show LANES_STAT ≠ LANES_ENABLE; decide), State.laneState, State.fld]
omit hw hon in
theorem offPut_holds : (s.put (laneOnFld k.val) 0).holds k.val = s.holds k.val := by rw [State.holds, lane_put, offPut_state, State.holds]
omit hw hon in
theorem offPut_others (hm : m < 4) (h : m ≠ k.val) : (s.put (laneOnFld k.val) 0).bit (laneOnFld m) = s.bit (laneOnFld m) := by
  rw [State.bit_apart _ (onFlds_apart k.val k.isLt m hm h)]

include hu

theorem lane_disabled (hi : s.Inv) (hh : s.holds k.val = false) :
    Completes (.laneDisable w) s fun t => s.Sets t [(laneOnFld k.val, 0), (laneStateFld k.val, 0), (LANES_ED_STALE k.val, 1)] := by
  have hstop : (laneStop k.val).run s = (s.put (laneOnFld k.val) 0).laned k.val laneOff :=
    laneStop_run.trans (laneDrop_rest ((offPut_holds k).trans hh))
  refine completes_run rfl ?_
  rw [(total_lanesEnableWrite _).run_bind, laneDisable_run k hw hon (fun m hm hmk => by
    rw [hstop, laned_bit (enable_apart k.val k.isLt), offPut_others k hm hmk]), hstop, run_frameOver (laned_unwatched (offPut_unwatched k hu))]
  exact (((did_refl hi).put (enableFlds k.val k.isLt).2 _).rests k.isLt (by decide)).latched s

theorem lane_drops (hh : s.holds k.val = true) :
    Completes (.laneDisable w) s fun t => t.bit (laneOnFld k.val) = false ∧ s.Dropped t k.val 9 0 := by
  have hf := laneDrop_fell (reason := dropStopped) (v := laneOff) k.isLt (by decide) (by decide) ((offPut_holds k).trans hh)
  have hstop : (laneStop k.val).run s = (laneDrop k.val dropStopped laneOff).run (s.put (laneOnFld k.val) 0) := laneStop_run
  have hreg : LANES_ENABLE ∉ dropRegs k.val := dropRegs_enable k.val k.isLt
  have hbits : ∀ m, ((laneStop k.val).run s).bit (laneOnFld m) = (s.put (laneOnFld k.val) 0).bit (laneOnFld m) := fun m => by
    rw [hstop, State.bit, State.fld, hf.regs _ (by exact hreg), ← State.fld, ← State.bit]
  refine completes_run rfl ?_
  rw [(total_lanesEnableWrite _).run_bind, laneDisable_run k hw hon (fun m hm hmk => by rw [hbits, offPut_others k hm hmk]),
    run_frameOver (by rw [hstop]; exact hf.unwatched (offPut_unwatched k hu))]
  refine ⟨?_, ?_⟩
  · rw [latchEdges_bit, hbits, State.bit_self _ (enableFlds k.val k.isLt).2, Nat.zero_mod]
    decide
  · rw [hstop]
    exact hf.dropped k.isLt (fun m => lane_put _) (offPut_state k) ((State.within_put_iff (by exact enable_dropped)).mpr (s.within_refl _))
end

theorem total_freeNat : freeNat.Total := total_bind total_getS fun _ => total_bind (total_act _) fun _ => total_pure _

/-! ### Counters cleared (R96) -/

/-- Counts of the lanes' mailbox, by item and word, taken to 0. -/
def State.zeroed (s : State) (l : List (Nat × Nat)) : State := l.foldl (fun t x => t.counted lanesPage x.1 x.2 0) s

/-- The counts that a word written to LANES_CNTCLR names. -/
def clearedCounts (v : Nat) : List (Nat × Nat) :=
  (onesOf 4 v).flatMap fun n => [0x10 + n, 0x20 + n, 0x30 + n, 0x8010 + n, 0x8020 + n].flatMap fun item => (List.range 4).map fun w => (item, w)

theorem foldl_congr_fun {α β : Type} {f g : β → α → β} (h : ∀ b x, f b x = g b x) (l : List α) (b : β) : l.foldl f b = l.foldl g b := by
  rw [show f = g from funext fun b => funext fun x => h b x]

theorem lanesCntClr_run : (lanesCntClr v).run s = s.zeroed (clearedCounts v) := by
  have htotal : ∀ i w : Nat, (setCtr lanesPage i w 0).Total := fun i w => total_act _
  rw [lanesCntClr, forAll_run fun n => total_forAll fun i => total_forAll fun w => htotal i w, State.zeroed, clearedCounts, List.foldl_flatMap]
  refine foldl_congr_fun (fun a n => ?_) _ _
  rw [forAll_run fun i => total_forAll fun w => htotal i w, List.foldl_flatMap]
  refine foldl_congr_fun (fun b i => ?_) _ _
  rw [forAll_run (htotal i), List.foldl_map]
  exact foldl_congr_fun (fun c w => run_setCtr _ _ _ _ _) _ _

theorem ctrKey_inj {p i j w x : Nat} (hw : w < 4) (hx : x < 4) (h : ctrKey p i w = ctrKey p j x) : i = j ∧ w = x := by
  simp only [ctrKey] at h
  omega

theorem ctr_zeroed {l : List (Nat × Nat)} (hl : ∀ x ∈ l, x.2 < 4) {i w : Nat} (hw : w < 4) :
    (s.zeroed l).ctr lanesPage i w = if (i, w) ∈ l then 0 else s.ctr lanesPage i w := by
  induction l generalizing s with
  | nil => rfl
  | cons x l ih =>
    have hstep : (s.zeroed (x :: l)) = (s.counted lanesPage x.1 x.2 0).zeroed l := rfl
    rw [hstep, ih fun y hy => hl y (List.mem_cons_of_mem _ hy)]
    by_cases hx : (i, w) = x
    · rw [← hx, State.ctr_counted_same, if_pos List.mem_cons_self, ite_self]
    · have hkey : ctrKey lanesPage i w ≠ ctrKey lanesPage x.1 x.2 := fun h => hx (by
        obtain ⟨hi, hj⟩ := ctrKey_inj hw (hl x List.mem_cons_self) h
        rw [hi, hj])
      rw [State.ctr_counted_other hkey]
      simp only [List.mem_cons, hx, false_or]

theorem within_zeroed (l : List (Nat × Nat)) : s.Within F (s.zeroed l) :=
  foldl_keeps (P := fun t => s.Within F t) (fun _ _ h => State.within_counted_iff.mpr h) l (s.within_refl F)

theorem clearedCounts_word : ∀ x ∈ clearedCounts v, x.2 < 4 := by
  simp only [clearedCounts, List.mem_flatMap, List.mem_map, List.mem_range]
  rintro x ⟨n, hn, i, hi, w, hw, rfl⟩
  exact hw

/-- Every count of a lane stands in the list exactly where the word names the lane. -/
theorem mem_clearedCounts (k : Fin 4) {item w : Nat} (hi : item ∈ [0x10, 0x20, 0x30, 0x8010, 0x8020]) (hw : w < 4) :
    (item + k.val, w) ∈ clearedCounts v ↔ v.testBit k.val = true := by
  have hk := k.isLt
  simp only [clearedCounts, onesOf, List.mem_flatMap, List.mem_filter, List.mem_map, List.mem_range]
  simp only [List.mem_cons, List.not_mem_nil, or_false] at hi ⊢
  constructor
  · rintro ⟨n, ⟨hn, hb⟩, i, hin, x, hx, he⟩
    have hik : i = item + k.val := congrArg Prod.fst he
    have hnk : n = k.val := by omega
    rwa [← hnk]
  · intro hb
    exact ⟨k.val, ⟨hk, hb⟩, item + k.val, by omega, w, hw, rfl⟩

theorem lane_cleared (k : Fin 4) (v : Word) : Completes (.laneCounterClear v) s fun t =>
    (∀ item ∈ [0x10, 0x20, 0x30, 0x8010, 0x8020], ∀ w < 4,
      t.ctr lanesPage (item + k.val) w = if v.toNat.testBit k.val then 0 else s.ctr lanesPage (item + k.val) w) ∧ s.Within {} t := by
  refine completes_run rfl ?_
  rw [lanesCntClr_run]
  refine ⟨fun item hi w hw => ?_, State.within_latch_iff.mpr (within_zeroed _)⟩
  show (s.zeroed (clearedCounts v.toNat)).ctr lanesPage (item + k.val) w = _
  rw [ctr_zeroed clearedCounts_word hw]
  simp only [mem_clearedCounts k hi hw]

/-! ### Energy detection (R93) -/

theorem edFlds : ∀ k < 4, (LANES_ED_ED k).settable = true ∧ (LANES_ED_STALE k).settable = true := by decide
theorem edth_apart : ∀ k < 4, SAMP_CFG_EDTH.addr ≠ LANES_ED k := by decide

/-- The energy of an averaging window, as the lane stores it. -/
def State.edNoted (s : State) (k : Nat) (ed : Int) : State := (s.put (LANES_ED_ED k) (unsigned 16 ed)).put (LANES_ED_STALE k) 0

theorem energy_searching (k : Fin 4) (ed : Int) (hi : s.Inv) (h : s.laneState k.val = laneSearch) :
    Completes (.energyMeasurement k ed) s fun t =>
      t.dev.samp.energy = (s.dev.samp.energy || decide (4 * signed 8 (s.fld SAMP_CFG_EDTH) ≤ ed)) ∧
      s.Sets t [(LANES_ED_ED k.val, unsigned 16 ed), (LANES_ED_STALE k.val, 0)] := by
  have hd : s.Did (s.edNoted k.val ed) [(LANES_ED_ED k.val, unsigned 16 ed), (LANES_ED_STALE k.val, 0)] :=
    ((did_refl hi).put (edFlds k.val k.isLt).1 _).put (edFlds k.val k.isLt).2 _
  have hdev : (s.edNoted k.val ed).dev = s.dev := by rw [State.edNoted, State.dev_put, State.dev_put]
  refine completes_run rfl ?_
  rw [if_pos h, run_setFld_bind, run_setFld_bind]
  change (fun t => t.dev.samp.energy = _ ∧ s.Sets t _) (latchEdges s ((if _ then _ else _ : M Unit).run (s.edNoted k.val ed)))
  by_cases he : 4 * signed 8 (s.fld SAMP_CFG_EDTH) ≤ ed
  · rw [if_pos he, run_modDev]
    refine ⟨?_, (hd.lived (by rfl)).latched s⟩
    rw [latchEdges_samp, State.live_dev, decide_eq_true he, Bool.or_true]
  · rw [if_neg he, run_pure]
    refine ⟨?_, hd.latched s⟩
    rw [latchEdges_samp, hdev, decide_eq_false he, Bool.or_false]

theorem energy_elsewhere (k : Fin 4) (ed : Int) (h : s.laneState k.val ≠ laneSearch) :
    Completes (.energyMeasurement k ed) s fun t => s.Within {} t := by
  refine completes_run rfl ?_
  rw [if_neg h, run_pure]
  exact State.within_latch_iff.mpr (s.within_refl {})

/-! ### The gain control (R83, R87, R88) -/

/-- Clipping in the air counted for every lane that holds a frame (R96). -/
def clipCounts (s : State) : M Unit := forAll (List.range 4) fun n => if s.holds n then laneCount 0x10 n 2 false else nop

/-- The state once an interval's level and clipping are noted. -/
def State.agcHeard (s : State) (level : Int) (clipped : Bool) : State :=
  let a := s.put RXFE_GAIN_LEVEL (unsigned 8 level)
  let b := a.put RXFE_CLIP_ALL (min 0xFFFF (s.fld RXFE_CLIP_ALL + 1))
  if clipped then
    if s.bit LANES_STAT_FROZEN then (clipCounts s).run (b.put RXFE_CLIP_FROZEN (min 0xFFFF (s.fld RXFE_CLIP_FROZEN + 1))) else b
  else a

/-- Does the loop move the gain? -/
def State.agcRuns (s : State) : Bool := s.en rxfePage && !s.bit LANES_STAT_FROZEN && !s.bit RXFE_AGC_MANUAL

/-- The step and the settling of one interval. -/
def State.agcNext (s : State) (level : Int) (clipped : Bool) : Nat × Bool :=
  agcStep (s.fld RXFE_GAIN_STEP) level (signed 8 (s.fld RXFE_AGC_TARGET)) (s.fld RXFE_AGC_DBAND) clipped

/-- The state once the loop has moved the gain, where it runs. -/
def State.agcMoved (s : State) (level : Int) (clipped : Bool) : State :=
  let a := s.agcHeard level clipped
  if s.agcRuns then a.put RXFE_GAIN_STEP (s.agcNext level clipped).1 else a

/-- A re-settle in progress ends or goes on (R87). -/
def rearmCheck (s : State) (settled : Bool) : M Unit :=
  match s.dev.gain.rearm with
  | none => nop
  | some n => if (s.agcRuns && settled) || decide (3 ≤ s.dev.gain.updates) then resettleEnd n else modGain fun g => { g with updates := g.updates + 1 }

theorem total_clipCounts (s : State) : (clipCounts s).Total :=
  total_forAll fun _ => total_ite (total_bind total_getS fun _ => total_act _) (total_pure _)

theorem agcUpdate_run (level : Int) (clipped : Bool) (h : s.rxRuns = true) :
    exec (.agcUpdate level clipped) s = .next (latchEdges s ((rearmCheck s (s.agcNext level clipped).2).run (s.agcMoved level clipped))) := by
  have hmove : ∀ u : State, (if s.agcRuns then setFld RXFE_GAIN_STEP (s.agcNext level clipped).1 >>= fun _ => rearmCheck s (s.agcNext level clipped).2
      else rearmCheck s (s.agcNext level clipped).2).run u = (rearmCheck s (s.agcNext level clipped).2).run
        (if s.agcRuns then u.put RXFE_GAIN_STEP (s.agcNext level clipped).1 else u) := fun u => by
    split <;> rfl
  have hcounts : ∀ (u : State) (f : Unit → M Unit), (clipCounts s >>= f).run u = (f ()).run ((clipCounts s).run u) := fun u f =>
    (total_clipCounts s).run_bind f u
  show cmd s _ = _
  rw [cmd, if_pos h]
  rw [run_setFld_bind, State.agcMoved, State.agcHeard]
  cases clipped
  · exact congrArg (fun u => Host.Outcome.next (latchEdges s u)) (hmove _)
  · simp only [if_true]
    rw [run_setFld_bind]
    by_cases hf : s.bit LANES_STAT_FROZEN = true
    · rw [if_pos hf, if_pos hf, run_setFld_bind]
      exact congrArg (fun u => Host.Outcome.next (latchEdges s u)) ((hcounts _ _).trans (hmove _))
    · rw [if_neg hf, if_neg hf]
      exact congrArg (fun u => Host.Outcome.next (latchEdges s u)) (hmove _)

theorem clipCounts_keeps {P : State → Prop} (h : ∀ t i w v, P t → P (t.counted lanesPage i w v)) (hs : P t) : P ((clipCounts s).run t) := by
  have ht : ∀ n, (if s.holds n then laneCount 0x10 n 2 false else nop).Total := fun n =>
    total_ite (total_bind total_getS fun _ => total_act _) (total_pure _)
  rw [clipCounts, forAll_run ht]
  refine foldl_keeps (P := P) (fun a n ha => ?_) _ hs
  split
  · exact h _ _ _ _ ha
  · exact ha

/-- What the level, the clipping and the loop leave: the gain's own registers and counters apart, everything. -/
structure State.GainOnly (s t : State) : Prop where
  regs (a : Nat) (h : a ∉ [RXFE_GAIN, RXFE_CLIP]) : t.reg a = s.reg a
  dev : ∃ c, t.dev = { s.dev with ctr := c }

theorem State.GainOnly.put (h : s.GainOnly t) {f : Fld} (hf : f.addr ∈ [RXFE_GAIN, RXFE_CLIP]) (v : Nat) : s.GainOnly (t.put f v) :=
  ⟨fun a ha => by rw [State.reg_put_other _ (fun he => ha (by rw [he]; exact hf)), h.regs a ha], by rw [State.dev_put]; exact h.dev⟩
theorem State.GainOnly.counted (h : s.GainOnly t) (p i w v : Nat) : s.GainOnly (t.counted p i w v) := by
  obtain ⟨c, hc⟩ := h.dev
  exact ⟨fun a ha => by rw [State.counted_reg, h.regs a ha], _, by rw [State.counted_dev, hc]⟩

variable (level : Int) (clipped : Bool)

theorem gainOnly_agcHeard : s.GainOnly (s.agcHeard level clipped) := by
  have h0 : s.GainOnly s := ⟨fun _ _ => rfl, s.dev.ctr, rfl⟩
  have h1 := h0.put (f := RXFE_GAIN_LEVEL) (by decide) (unsigned 8 level)
  rw [State.agcHeard]
  split
  · have h2 := h1.put (f := RXFE_CLIP_ALL) (by decide) (min 0xFFFF (s.fld RXFE_CLIP_ALL + 1))
    split
    · exact clipCounts_keeps (fun _ _ _ _ h => h.counted _ _ _ _) (h2.put (f := RXFE_CLIP_FROZEN) (by decide) _)
    · exact h2
  · exact h1

theorem gainOnly_agcMoved : s.GainOnly (s.agcMoved level clipped) := by
  rw [State.agcMoved]
  split
  · exact (gainOnly_agcHeard level clipped).put (f := RXFE_GAIN_STEP) (by decide) _
  · exact gainOnly_agcHeard level clipped

theorem agc_closed (h : s.rxRuns = false) : Completes (.agcUpdate level clipped) s fun t => s.Within {} t := by
  refine completes_run rfl ?_
  rw [if_neg (by rw [h]; decide), run_pure]
  exact State.within_latch_iff.mpr (s.within_refl {})

/-- The loop runs free. -/
theorem agc_free (hi : s.Inv) (hx : s.rxRuns = true) (hf : s.bit LANES_STAT_FROZEN = false) (hr : s.dev.gain.rearm = none)
    (hm : s.bit RXFE_AGC_MANUAL = false) (he : s.en rxfePage = true) :
    Completes (.agcUpdate level clipped) s fun t =>
      s.Sets t ([(RXFE_GAIN_LEVEL, unsigned 8 level), (RXFE_GAIN_STEP, (s.agcNext level clipped).1)] ++
        if clipped then [(RXFE_CLIP_ALL, min 0xFFFF (s.fld RXFE_CLIP_ALL + 1))] else []) := by
  have hruns : s.agcRuns = true := by rw [State.agcRuns, he, hf, hm]; rfl
  have hstop : ∀ u b, (rearmCheck s b).run u = u := fun u b => by rw [rearmCheck, hr]; rfl
  refine ⟨_, agcUpdate_run level clipped hx, ?_⟩
  rw [hstop, State.agcMoved, if_pos hruns, State.agcHeard, hf]
  have hd := (did_refl (noted := []) (F := {}) hi).put (f := RXFE_GAIN_LEVEL) (by decide) (unsigned 8 level)
  cases clipped
  · exact (hd.put (f := RXFE_GAIN_STEP) (by decide) _).latched s
  · refine State.Did.latched (State.Did.of_after ((hd.put (f := RXFE_CLIP_ALL) (by decide) _).put (f := RXFE_GAIN_STEP) (by decide) _) fun a => ?_) s
    simp only [State.after, List.nil_append, List.cons_append, List.foldl_cons, List.foldl_nil, if_true]
    by_cases hg : RXFE_GAIN = a
    · have hc : RXFE_CLIP ≠ a := by rw [← hg]; decide
      simp only [hg, hc, if_true, if_false]
    · simp only [hg, if_false]


/-! The end of a re-settle (R87, R88). -/

theorem lane_drawn (k : Nat) : (s.drawn k).lane m = s.lane m := by rw [State.lane, State.drawn_dev, State.lane]
theorem digFrozen_runs (h : ((s.digFrozen n).lane m).digRuns = true) : (s.lane m).digRuns = true := by
  by_cases hm : m = n
  · rw [hm, digFrozen_lane.2] at h
    exact absurd h (by decide)
  · obtain ⟨g, hg⟩ := digFrozen_eq (s := s) (n := n)
    rwa [hg, lane_laneSet_other _ hm, lane_drawn] at h

/-- The digital loops of those lanes frozen that still run. -/
def State.digClosed (s : State) (l : List Nat) (t : State) : State :=
  l.foldl (fun u m => if s.holds m && (s.lane m).digRuns then u.digFrozen m else u) t

theorem digClosed_regs (l : List Nat) : (∀ a, (s.digClosed l t).reg a = t.reg a) ∧ (s.digClosed l t).dev.gain = t.dev.gain := by
  refine foldl_keeps (P := fun u : State => (∀ a, u.reg a = t.reg a) ∧ u.dev.gain = t.dev.gain) (fun u m hu => ?_) l ⟨fun _ => rfl, rfl⟩
  split
  · obtain ⟨x, hx⟩ := digFrozen_dev (s := u) (n := m)
    exact ⟨fun a => by rw [digFrozen_reg, hu.1], by rw [hx]; exact hu.2⟩
  · exact hu

theorem digClosed_runs (l : List Nat) (h : ((s.digClosed l t).lane m).digRuns = true) : (t.lane m).digRuns = true := by
  induction l generalizing t with
  | nil => exact h
  | cons x l ih =>
    have hx := ih h
    dsimp only at hx
    split at hx
    · exact digFrozen_runs hx
    · exact hx

theorem digClosed_stopped (l : List Nat) (hm : m ∈ l) (hh : s.holds m = true) (hd : (s.lane m).digRuns = true) :
    ((s.digClosed l t).lane m).digRuns = false := by
  induction l generalizing t with
  | nil => exact absurd hm List.not_mem_nil
  | cons x l ih =>
    rcases List.mem_cons.mp hm with rfl | hl
    · by_contra hc
      have := digClosed_runs l (Bool.eq_true_of_not_eq_false hc)
      dsimp only at this
      rw [hh, hd, Bool.and_true, if_pos rfl, digFrozen_lane.2] at this
      exact absurd this (by decide)
    · exact ih hl

/-- The gain frozen anew for the lane that re-settled. -/
def State.resettled (s : State) (n : Nat) : State := ((s.live fun d => { d with gain := {} }).put LANES_STAT_RESETTLE 0).frozenBy n

theorem resettled_lane : (s.resettled n).lane m = s.lane m := by
  rw [State.resettled, frozenBy_lane, lane_put, lane_live rfl]
theorem resettled_holds (hm : m < 4) : (s.resettled n).holds m = s.holds m := by
  have happ : ∀ k < 4, LANES_STAT_RESETTLE.apart (laneStateFld k) = true := by decide
  rw [State.holds, resettled_lane, State.resettled, frozenBy_laneState n hm, State.laneState, State.fld_apart _ (happ m hm), State.live_fld,
    ← State.laneState, ← State.holds]

theorem resettleEnd_run : (resettleEnd n).run s = (s.resettled n).digClosed (List.range 4) (s.resettled n) := by
  have ht : ∀ m, (if (s.resettled n).holds m && ((s.resettled n).lane m).digRuns then digitalFreeze m else nop).Total := fun m =>
    total_ite (total_bind total_freeNat fun _ => total_bind total_getS fun _ => total_act _) (total_pure _)
  rw [resettleEnd, run_modGain_bind, run_setFld_bind, setFreeze_bind, run_getS]
  change (forAll (List.range 4) fun m => if (s.resettled n).holds m && ((s.resettled n).lane m).digRuns then digitalFreeze m else nop).run (s.resettled n) = _
  rw [forAll_run ht, State.digClosed]
  refine foldl_congr_fun (fun u m => ?_) _ _
  split
  · rfl
  · rfl

theorem agc_resettled (m : Fin 4) (hx : s.rxRuns = true) (hr : s.dev.gain.rearm = some m.val) (hu : s.dev.gain.updates = 3) :
    Completes (.agcUpdate level clipped) s fun t =>
      t.dev.gain.rearm = none ∧ t.bit LANES_STAT_RESETTLE = false ∧ t.fld LANES_STAT_OWNER = m.val ∧
      t.bit LANES_STAT_FROZEN = true ∧ t.bit RXFE_GAIN_FROZEN = true ∧ (∀ k < 4, s.holds k = true → (t.lane k).digRuns = false) := by
  obtain ⟨hregs, c, hdev⟩ := gainOnly_agcMoved (s := s) level clipped
  have hm : m.val < 7 := by omega
  refine ⟨_, agcUpdate_run level clipped hx, ?_⟩
  generalize s.agcMoved level clipped = u at hregs hdev ⊢
  generalize (s.agcNext level clipped).2 = b
  have hend : (rearmCheck s b).run u = (u.resettled m.val).digClosed (List.range 4) (u.resettled m.val) := by
    rw [rearmCheck, hr]
    dsimp only
    rw [hu, if_pos (by simp), resettleEnd_run]
  obtain ⟨hcr, hcg⟩ := digClosed_regs (s := u.resettled m.val) (t := u.resettled m.val) (List.range 4)
  have hlanes : ∀ k, u.lane k = s.lane k := fun k => by rw [State.lane, hdev, State.lane]
  have hstate : ∀ k, u.laneState k = s.laneState k := fun k => by
    rw [State.laneState, State.fld, hregs _ (by show LANES_STAT ∉ _; decide), ← State.fld, ← State.laneState]
  have hfld : ∀ f, ((u.resettled m.val).digClosed (List.range 4) (u.resettled m.val)).fld f = (u.resettled m.val).fld f := fun f => by
    rw [State.fld, hcr, State.fld]
  have hbit : ∀ f, ((u.resettled m.val).digClosed (List.range 4) (u.resettled m.val)).bit f = (u.resettled m.val).bit f := fun f => by
    rw [State.bit, hfld, State.bit]
  rw [hend]
  refine ⟨?_, ?_, ?_, ?_, ?_, fun k hk hh => ?_⟩
  · show (((u.resettled m.val).digClosed (List.range 4) (u.resettled m.val)).dev.gain).rearm = none
    rw [hcg, State.resettled, frozenBy_dev, State.dev_put, State.live_dev]
  · rw [latchEdges_bit, hbit, State.bit, State.resettled, frozenBy_apart (f := LANES_STAT_RESETTLE) _ (by decide) (by decide) (by decide),
      State.fld_self _ (by decide)]
    decide
  · rw [latchEdges_fld, hfld, State.resettled, frozenBy_owner (by omega)]
  · rw [latchEdges_bit, hbit, State.resettled, frozenBy_frozen, decide_eq_true hm]
  · rw [latchEdges_bit, hbit, State.resettled, frozenBy_gainFrozen, decide_eq_true hm]
  · show (((u.resettled m.val).digClosed (List.range 4) (u.resettled m.val)).lane k).digRuns = false
    have huh : (u.resettled m.val).holds k = true := by
      rw [resettled_holds hk, State.holds, hlanes, hstate, ← State.holds]
      exact hh
    cases hd : ((u.resettled m.val).lane k).digRuns
    · by_contra hc
      have := digClosed_runs _ (Bool.eq_true_of_not_eq_false hc)
      rw [hd] at this
      exact absurd this (by decide)
    · exact digClosed_stopped _ (List.mem_range.mpr hk) huh hd

theorem resettled_fld {f : Fld} (hr : LANES_STAT_RESETTLE.apart f = true) (ho : LANES_STAT_OWNER.apart f = true)
    (hf : LANES_STAT_FROZEN.apart f = true) (hg : RXFE_GAIN_FROZEN.apart f = true) : (s.resettled n).fld f = s.fld f := by
  rw [State.resettled, frozenBy_apart _ ho hf hg, State.fld_apart _ hr, State.live_fld]

/-- A re-settle, ended or going on, leaves the gain's fields. -/
theorem rearmCheck_fld {f : Fld} (b : Bool) (hr : LANES_STAT_RESETTLE.apart f = true) (ho : LANES_STAT_OWNER.apart f = true)
    (hf : LANES_STAT_FROZEN.apart f = true) (hg : RXFE_GAIN_FROZEN.apart f = true) : ((rearmCheck s b).run t).fld f = t.fld f := by
  rw [rearmCheck]
  split
  · rfl
  · rw [run_ite, resettleEnd_run, run_modGain]
    split
    · rw [State.fld, (digClosed_regs _).1, ← State.fld, resettled_fld hr ho hf hg]
    · rw [State.live_fld]

/-- Clipping counted while the gain stands frozen. -/
theorem agc_frozen (hx : s.rxRuns = true) (hf : s.bit LANES_STAT_FROZEN = true) :
    Completes (.agcUpdate level clipped) s fun t =>
      t.fld RXFE_GAIN_STEP = s.fld RXFE_GAIN_STEP ∧
      t.fld RXFE_CLIP_FROZEN = (if clipped then min 0xFFFF (s.fld RXFE_CLIP_FROZEN + 1) else s.fld RXFE_CLIP_FROZEN) := by
  have hstill : s.agcRuns = false := by rw [State.agcRuns, hf, Bool.not_true, Bool.and_false, Bool.false_and]
  have hcounts : ∀ (t : State) (f : Fld), ((clipCounts s).run t).fld f = t.fld f := fun t f =>
    clipCounts_keeps (P := fun u => u.fld f = t.fld f) (fun u _ _ _ h => (State.counted_fld _ _ _ _ _ _).trans h) rfl
  refine ⟨_, agcUpdate_run level clipped hx, ?_⟩
  dsimp only
  rw [latchEdges_fld, latchEdges_fld, rearmCheck_fld _ (by decide) (by decide) (by decide) (by decide),
    rearmCheck_fld _ (by decide) (by decide) (by decide) (by decide), State.agcMoved, if_neg (by rw [hstill]; decide), State.agcHeard]
  cases clipped
  · simp only [Bool.false_eq_true, if_false]
    rw [State.fld_apart _ (by decide), State.fld_apart _ (by decide)]
    exact ⟨rfl, rfl⟩
  · simp only [if_true, hf, hcounts]
    refine ⟨by rw [State.fld_apart _ (by decide), State.fld_apart _ (by decide), State.fld_apart _ (by decide)], ?_⟩
    rw [State.fld_self _ (by decide)]
    exact Nat.mod_eq_of_lt (by show _ < 65536; omega)

/-- Settles O24: a lane's enable written is that lane alone; the counters, the gain's interval and the energy by their cases. -/
theorem laneControl : Obligations.LaneControl := by
  unfold Obligations.LaneControl
  intro n s hi
  refine ⟨fun v hv hb hp hu => ⟨lane_enabled n hv hb hp hi hu, lane_refused n hv hb hp hi hu⟩,
    fun v hv hb hu => ⟨lane_disabled n hu hv hb hi, lane_drops n hu hv hb⟩, lane_cleared n, fun level clipped => ?_,
    fun ed => ⟨energy_searching n ed hi, energy_elsewhere n ed⟩⟩
  exact ⟨agc_closed level clipped, agc_free level clipped hi, agc_resettled level clipped, agc_frozen level clipped⟩

end Sys2Proof.Machine
end

section
/-!
A reset that waits names who asked for it in two bits of SYS_RSTCAUSE (R413, R438): the statement takes any number.
-/
namespace Sys2Proof.Machine
open Sys2Proof.Reg

/-- The state after reset, with a start reset waiting whose source has a number that SOFTSRC cannot show. -/
def sourceFour : State :=
  State.reset.live fun d => { d with hostp := { d.hostp with reset := some { scope := 3, src := 4 } } }

theorem sourceFour_inv : sourceFour.Inv := resetInv.live _

theorem fld_softsrc (s : State) : s.fld SYS_RSTCAUSE_SOFTSRC < 4 := Nat.mod_lt _ (by decide)

/-- Refutes O52: SOFTSRC has two bits, so that a start reset whose waiting request names source 4 leaves another number there. -/
theorem not_hostResets : ¬ Obligations.HostResets := by
  intro h
  obtain ⟨-, hdelay⟩ := h (.spi) 0 none sourceFour
  obtain ⟨-, hscope, -⟩ := hdelay sourceFour_inv rfl rfl
  obtain ⟨t, -, -, hsrc⟩ := (hscope { scope := 3, src := 4 } rfl).2.2 rfl
  have hlt := fld_softsrc t
  rw [hsrc] at hlt
  exact absurd hlt (by decide)

end Sys2Proof.Machine
end

section
/-!
ABORT of a lane that is off (R82, R442): nothing holds a frame there, and what the record of the lane still carries stays.
-/
namespace Sys2Proof.Machine
open Sys2Proof.Reg

variable {s : State} {n : Nat}

/-- What an ABORT does once its target has been stopped. -/
def abortFoot (tr : Tr) (tag target index bound : Nat) (pages : List Nat) : M Unit := do
  forAll pages fun p => setFlt p fltAborted
  let us ← freeIn 0 bound
  let s ← getS
  stage 0x0D true stAborted (s.reg hostpPage).toNat (leBytes 1 target ++ leBytes 1 index ++ leBytes 2 us)
  replyAbort tr tag stOk (leBytes 2 us ++ leBytes 1 (b2n !pages.isEmpty) ++ [0])

/-- The state as the port has taken an ABORT: counted, its event fired. -/
def State.abortTaken (s : State) : State :=
  (emit hostpPage 0x61).run ((count hostpPage 0x02 1).run ((count hostpPage 0x01 0).run s))

/-- An ABORT that a wire's transport takes stops its target and then reports. -/
theorem abort_run {tr : Tr} {tag target index bound : Nat} {m : M (List Nat)} (hplan : abortPlan target index = some (m, bound))
    (ht : target < 256) (hi : index < 256) (hon : s.trOn (trNum tr) = true) (ha : s.portAwake = true) (hd : s.dev.sys.phase ≠ .dead) :
    (hostCmd tr 0x03 tag (abortPayload target index)).run s = (m >>= abortFoot tr tag target index bound).run s.abortTaken := by
  have hsize : sizeOk 0x03 (abortPayload target index).length (trNum tr == 2) = true := rfl
  have htarget : numAt (abortPayload target index) 0 1 = target := by
    simp [abortPayload, leBytes, numAt, sliceOf, leNat, Nat.mod_eq_of_lt ht]
  have hindex : numAt (abortPayload target index) 1 1 = index := by
    simp [abortPayload, leBytes, numAt, sliceOf, leNat, List.range_succ, Nat.mod_eq_of_lt hi]
  rw [hostCmd, run_getS]
  simp only [hon, ha, Bool.and_self, if_true]
  rw [if_neg fun h => hd h.1, if_pos hsize, htarget, hindex, abortCmd, hplan]
  dsimp only
  rw [run_count_bind, run_count_bind, run_emit_bind]
  rfl

/-- What an ABORT reports leaves the lanes. -/
theorem lane_abortTaken {k : Nat} : s.abortTaken.lane k = s.lane k := by
  rw [State.abortTaken, lane_emit, run_count, lane_counted, run_count, lane_counted]

theorem lane_stage {type code cluster k : Nat} {hw : Bool} {payload : List Byte} : ((stage type hw code cluster payload).run s).lane k = s.lane k := by
  rw [stage, run_getS]
  split
  · rw [run_modDev_bind, run_setFld_bind, run_stat_bind, lane_emit, lane_counted, lane_put, lane_live rfl]
  · rw [run_setFld_bind, run_stat, lane_counted, lane_put]

/-- An ABORT of a lane that is off and disabled leaves what its record carries. -/
theorem abortLane_off {k : Nat} (hon : s.bit ⟨LANES_ENABLE, k, k⟩ = false) (hh : (s.put (laneOnFld k) 0).holds k = false) (tag bound : Nat) :
    (((abortLane k >>= abortFoot .spi tag 0x02 k bound).run s).lane k).frame = (s.lane k).frame := by
  have hstop : (laneStop k).run s = (s.put (laneOnFld k) 0).laned k laneOff := laneStop_run.trans (laneDrop_rest hh)
  rw [abortLane, run_assoc, run_getS, run_assoc, (total_laneStop k).run_bind, hstop, run_pure_bind, if_neg (by rw [hon]; decide), abortFoot, forAll_nil,
    run_nop_bind, freeIn, run_assoc, run_freeNat_bind, run_pure_bind, run_getS, total_stage.run_bind, replyAbort]
  · rw [modPort, modHostp, run_modDev, lane_live rfl, lane_stage, lane_drawn, frame_laned, lane_put]
  · exact nofun

/-- The state after reset with the port's SPI enabled, and a frame in the record of a lane that is off. -/
def strayFrame : State :=
  (State.reset.put HOSTP_CFG_SPIEN 1).laneSet 0 { frame := some {} }

theorem strayFrame_inv : strayFrame.Inv := (((did_refl (noted := []) (F := {}) resetInv).put (f := HOSTP_CFG_SPIEN) (by decide) 1).laneSet 0 _).inv

theorem strayFrame_bit {f : Fld} (h : f.addr ≠ HOSTP_CFG) : strayFrame.bit f = State.reset.bit f := by
  rw [strayFrame, laneSet_bit, State.bit, State.fld, State.reg_put_other _ (by exact h), State.bit, State.fld]

theorem strayFrame_dev : ∃ l, strayFrame.dev = { State.reset.dev with lanes := l } := by
  rw [strayFrame, State.laneSet, State.live_dev, State.dev_put]
  exact ⟨_, rfl⟩

theorem strayFrame_hears : strayFrame.Hears .spi where
  inv := strayFrame_inv
  on := by
    show strayFrame.bit HOSTP_CFG_SPIEN = true
    rw [strayFrame, laneSet_bit, State.bit_self _ (by decide)]
    decide
  awake := by
    obtain ⟨l, hl⟩ := strayFrame_dev
    rw [State.portAwake, hl]
    exact (show State.reset.portAwake = true by decide)
  alive := by
    obtain ⟨l, hl⟩ := strayFrame_dev
    rw [hl]
    exact (show State.reset.dev.sys.phase ≠ .dead by decide)

theorem abortTaken_reg {a : Nat} (h : a ∉ evRegs hostpPage) : s.abortTaken.reg a = s.reg a := by
  rw [State.abortTaken, emit_reg h, run_count, State.counted_reg, run_count, State.counted_reg]

theorem strayFrame_off : strayFrame.abortTaken.bit ⟨LANES_ENABLE, 0, 0⟩ = false := by
  rw [State.bit, State.fld, abortTaken_reg (by decide), ← State.fld, ← State.bit, strayFrame_bit (by decide)]
  decide

theorem strayFrame_rests : (strayFrame.abortTaken.put (laneOnFld 0) 0).holds 0 = false := by
  have hstate : (strayFrame.abortTaken.put (laneOnFld 0) 0).laneState 0 = 0 := by
    refine (offPut_state (s := strayFrame.abortTaken) (0 : Fin 4) 0).trans ?_
    rw [State.laneState, State.fld, abortTaken_reg (by decide), strayFrame, laneSet_reg, State.reg_put_other _ (by decide)]
    decide
  rw [State.holds, hstate, Bool.and_eq_false_iff]
  exact .inr (by decide)

/-- Refutes O53: an ABORT of a lane that is off takes nothing from it, so that a frame its record carries stays there. -/
theorem not_hostAborts : ¬ Obligations.HostAborts := by
  intro h
  obtain ⟨-, -, hlane, -⟩ := h .spi 0 strayFrame strayFrame_hears
  have hrun : exec (.abortLane .spi 0 0) strayFrame = cmd strayFrame (hostCmd .spi 0x03 0 (abortPayload 0x02 0)) := (rfl)
  obtain ⟨-, hgone, -⟩ := (hlane 0).of_run hrun
  obtain ⟨-, hon, hawake, halive⟩ := strayFrame_hears
  rw [abort_run (m := abortLane 0) (bound := 2) rfl (by decide) (by decide) hon hawake halive] at hgone
  have hframe : (strayFrame.lane 0).frame = none := (lane_abortTaken (s := strayFrame) (k := 0)) ▸
    (abortLane_off strayFrame_off strayFrame_rests 0 2).symm.trans hgone
  rw [strayFrame, lane_laneSet_same] at hframe
  exact absurd hframe nofun

end Sys2Proof.Machine
end

section
/-!
A management frame that waits is carried out behind every MIC result, one with no frame to check too (R138, R223, R428): what it
changes is the host port's.
-/
namespace Sys2Proof.Machine
open Sys2Proof.Reg

variable {s : State}

/-- Cells that the host port does not own are none to release. -/
theorem releaseHost_none {l : List Nat} (h : ∀ c ∈ l, (s.cell c).owner ≠ ownHost) : (releaseHost l).run s = s := by
  rw [releaseHost, run_getS, List.filter_eq_nil_iff.mpr fun c hc => by simp [h c hc]]
  rfl

theorem total_releaseHost (l : List Nat) : (releaseHost l).Total :=
  total_bind total_getS fun _ => total_forAll fun _ => total_bind total_getS fun _ => total_ite (total_act _) (total_act _)

/-- A command of four octets of the mesh, behind a header of three. -/
def meshCommand : List Byte := [0, 0, 0, 2, 0, 0, 0]

/-- The units at rest, some management frames waiting. -/
def mgmtDev (l : List (List Byte × List Byte)) : Dev := { hostp := { mgmt := l } }

/-- The state after reset with the mesh transport enabled and a management frame waiting. -/
def mgmtWaits : State := (State.reset.put HOSTP_CFG_MESHEN 1).live fun _ => mgmtDev [([], meshCommand)]

/-- The state once the frame has been taken from its queue. -/
def mgmtTaken : State := mgmtWaits.live fun d => { d with hostp := { d.hostp with mgmt := [] } }

theorem mgmtWaits_inv : mgmtWaits.Inv := (((did_refl (noted := []) (F := {}) resetInv).put (f := HOSTP_CFG_MESHEN) (by decide) 1).lived (by rfl)).inv

theorem mgmtWaits_dev : mgmtWaits.dev = mgmtDev [([], meshCommand)] := by rw [mgmtWaits, State.live_dev]
theorem mgmtTaken_dev : mgmtTaken.dev = mgmtDev [] := by
  rw [mgmtTaken, State.live_dev, mgmtWaits_dev]
  rfl
theorem mgmtTaken_meshOn : mgmtTaken.bit HOSTP_CFG_MESHEN = true := by
  rw [mgmtTaken, State.live_bit, mgmtWaits, State.live_bit, State.bit_self _ (by decide)]
  decide

theorem mgmtWaits_reg {a : Nat} (h : a ≠ HOSTP_CFG) : mgmtWaits.reg a = State.reset.reg a := by
  rw [mgmtWaits, State.live_reg, State.reg_put_other _ (by exact h)]

theorem mgmtWaits_jobs : mgmtWaits.dev.tx.jobs = [] := by
  rw [mgmtWaits_dev]
  rfl
theorem mgmtWaits_samp : mgmtWaits.dev.samp = {} := by
  rw [mgmtWaits_dev]
  rfl
theorem mgmtWaits_unwatched : mgmtWaits.Unwatched :=
  ⟨congrArg Samp.sample mgmtWaits_samp, congrArg Samp.main mgmtWaits_samp, congrArg Samp.rdv mgmtWaits_samp, congrArg Samp.closing mgmtWaits_samp,
    fun _ hj => absurd (mgmtWaits_jobs ▸ hj) List.not_mem_nil⟩

theorem mgmtWaits_slot : mgmtWaits.fld LINK_RXRING_BASE * 16 + 16 * mgmtWaits.fld LINK_RXIDX_WR + 16 ≤ 0x21000000 := by
  rw [State.fld, mgmtWaits_reg (by decide), State.fld, mgmtWaits_reg (by decide)]
  decide

/-- What the frame carries, taken apart. -/
theorem meshCommand_parts : numAt meshCommand 3 1 = 2 := by decide

theorem mgmtTaken_rom : mgmtTaken.dev.sys.phase = .rom := by
  rw [mgmtTaken_dev]
  rfl

/-- A mesh command that comes in the ROM is refused; a header that names no destination is not answered (R428, R430). -/
theorem hostCmd_unstarted {hdr p : List Byte} {lane : Fin 4} {code tag : Nat} (hon : s.trOn 2 = true) (ha : s.portAwake = true) (hp : s.dev.sys.phase = .rom)
    (ho : (s.port 2).out = none) (hm : (parseMac hdr).dst = .none) (hc : code ≠ 3) (hc' : code ≠ 1) :
    (hostCmd (.mesh hdr lane) code tag p).run s =
      (setFlt hostpPage fltState).run (s.counted hostpPage 1 1 (min 0xFFFFFFFF (s.ctr hostpPage 1 1 + 1))) := by
  have hstart : s.starting = true := by rw [State.starting, hp]; rfl
  have hquiet : ∀ u : State, u.meshAnswers hdr = false := fun u => by
    rw [State.meshAnswers, hm, State.dstOwn, Bool.and_false, Bool.false_and]
  rw [hostCmd, run_getS]
  simp only [trNum, hon, ha, ho, hp, hstart]
  rw [if_pos (by decide), if_neg (fun h => absurd h.1 (by decide)), if_neg hc, if_neg (by decide), if_pos (by simp [hc']), refuseState, run_count_bind, run_setFlt_bind, refuse,
    meshSend, run_getS, if_neg (by rw [hquiet]; decide), run_pure]

/-- The command that the frame carries comes before the start is complete, and is refused. -/
theorem mgmtOne_run : (mgmtOne [] meshCommand).run mgmtTaken =
    (setFlt hostpPage fltState).run (mgmtTaken.counted hostpPage 1 1 (min 0xFFFFFFFF (mgmtTaken.ctr hostpPage 1 1 + 1))) := by
  have hcells : ∀ l : List Nat, (releaseHost l).run mgmtTaken = mgmtTaken := fun l => releaseHost_none fun c _ => by
    have : mgmtTaken.cell c = {} := by rw [State.cell, mgmtTaken_dev]; rfl
    rw [this]
    decide
  have hl : (parseMac meshCommand).hdrLen = 3 ∧ (parseMac meshCommand).level = 0 := by decide
  have hp : sliceOf meshCommand 3 4 = [2, 0, 0, 0] := by decide
  have hawake : mgmtTaken.portAwake = true := by rw [State.portAwake, mgmtTaken_dev]; rfl
  have htr : mgmtTaken.trOn 2 = true := mgmtTaken_meshOn
  rw [mgmtOne, run_getS, (total_releaseHost _).run_bind, hcells, if_pos mgmtTaken_meshOn]
  simp only [hl.1, hl.2]
  rw [show sliceOf meshCommand 3 (meshCommand.length - 3 - micLen 0) = [2, 0, 0, 0] from hp, if_neg (by decide)]
  exact hostCmd_unstarted htr hawake mgmtTaken_rom (by
      rw [State.port, mgmtTaken_dev]
      · rfl
      · exact nofun
      · exact nofun) (by decide) (by decide) (by decide)

theorem mgmtRun_run : mgmtRun.run mgmtWaits = (mgmtOne [] meshCommand).run mgmtTaken := by
  have hm : mgmtWaits.dev.hostp.mgmt = [([], meshCommand)] := by
    rw [mgmtWaits_dev]
    rfl
  have ha : mgmtWaits.portAwake = true := by rw [State.portAwake, mgmtWaits_dev]; rfl
  rw [mgmtRun, run_getS, hm, List.length_singleton, mgmtTake, run_getS, hm]
  dsimp only
  rw [if_pos ha, modHostp, run_modDev_bind, mgmtTake]
  rfl

/-- Refutes O29: with no frame waiting for its MIC, a MIC result still carries out the management frame that waits, whose command
is refused in FLT. -/
theorem not_frameEnds : ¬ Obligations.FrameEnds := by
  intro h
  obtain ⟨-, hnone, -⟩ := h 0 { verdict := some .deliver, row := 8 } mgmtWaits mgmtWaits_inv mgmtWaits_jobs mgmtWaits_unwatched
    rfl rfl rfl rfl rfl rfl rfl List.nodup_nil nofun mgmtWaits_slot
  have hlane : (mgmtWaits.lane 0).mics = [] := by
    rw [State.lane, mgmtWaits_dev]
    rfl
  have hrun : exec (.micResult 0) mgmtWaits = cmd mgmtWaits (micResult 0 >>= fun _ => mgmtRun) := (rfl)
  have hnop : (micResult 0 >>= fun _ => mgmtRun).run mgmtWaits = mgmtRun.run mgmtWaits := by
    rw [micResult, run_assoc, run_getS, hlane, run_nop_bind]
  have hflt : ((mgmtOne [] meshCommand).run mgmtTaken).bit (fltBit hostpPage fltState) = true := by
    rw [mgmtOne_run]
    exact (gives_setFlt_bit (Fld.full_of_settable (by decide))).run.1
  have hsame := ((hnone hlane).of_run hrun).regs (FLT hostpPage) rfl
  rw [hnop, mgmtRun_run, latchEdges_reg, mgmtWaits_reg (by decide)] at hsame
  rw [State.bit, State.fld, show (fltBit hostpPage fltState).addr = FLT hostpPage from rfl, hsame] at hflt
  exact absurd hflt (by decide)

end Sys2Proof.Machine
end

section
/-!
A raw key of no octets makes the block cipher give no octets, so that CCM gives none back either (R216, R219): the statement takes any
key that a slot holds.
-/
namespace Sys2Proof.Machine
open Sys2Proof.Reg

theorem xorBytes_nil (l : List Byte) : xorBytes l [] = [] := by rw [xorBytes, List.zipWith_nil_right]

/-- The key schedule of no octets holds no octets. -/
theorem roundKeys_nil : (roundKeys []).getLastD [] = [] := by decide

theorem aesEnc_nil (b : List Byte) : aesEnc [] b = [] := by rw [aesEnc, roundKeys_nil, xorBytes_nil]

theorem ccmCrypt_nil (nonce msg : List Byte) : ccmCrypt [] nonce msg = [] := by
  simp only [ccmCrypt, ccmStream, aesEnc_nil, xorBytes_nil, List.flatMap_eq_nil_iff.mpr fun _ _ => rfl, List.take_nil]

theorem ccmTag_nil (nonce aad msg : List Byte) (n : Nat) : ccmTag [] nonce aad msg n = [] := by
  rw [ccmTag, ccmStream, aesEnc_nil, xorBytes_nil, List.take_nil]

theorem ciphOctets_length {s : State} {a n : Nat} (h : n ≤ 16) : (s.ciphOctets a n).length = n := by
  have h16 : ((List.range 4).flatMap fun k => leBytes 4 (s.reg (a + 4 * k)).toNat).length = 16 := by
    simp [List.length_flatMap, leBytes]
  rw [State.ciphOctets, List.length_take, h16, Nat.min_eq_left h]

variable {s : State} {m : Master} {n : Nat} {v : Word}

/-- A started operation of an enabled page whose check fails, and which has nothing to write, stands in its page as it was planned. -/
theorem ciphStart_job (ho : s.ciphOwner m n = true) (hb : s.bit (CIPH_RESULT_BUSY n) = false) (he : s.en (ciphPage n) = true)
    (hout : (s.ciphPlan n v).out = []) (hst : (s.ciphPlan n v).status ≠ stOk) :
    (((ciphStart m n v).run s).ciph n).job = some { s.ciphPlan n v with out := [] } := by
  rw [ciphStart, run_getS, if_neg (by simp [ho, hb]), run_wr_bind, if_pos (by simp [he]), if_neg hst, hout, List.length_nil, freeBytes]
  dsimp only
  rw [pure_bind, run_setFld_bind, modCiph, run_modDev, State.ciph, State.live_dev]
  rw [Sparse.upd, Sparse.val, Sparse.get_set_same]

/-- CCM under a key of no octets whose tag does not match completes with AUTH and nothing to write. -/
theorem ccmOp_nil {slot tlen : Nat} (hk : s.keyFor slot useRaw n = some []) (hl : (s.reg (CIPH_MLEN n)).toNat ≤ 65535)
    (hsrc : s.ciphAddr (ciphSide n) (s.reg (CIPH_SRC n)).toNat ((s.reg (CIPH_ALEN n)).toNat + (s.reg (CIPH_MLEN n)).toNat) = true)
    (hdst : s.ciphAddr (ciphSide n) (s.reg (CIPH_DST n)).toNat (s.reg (CIPH_MLEN n)).toNat = true) (ht : tlen ≠ 0) (ht' : tlen ≤ 16) :
    (s.ccmOp n slot tlen false).out = [] ∧ (s.ccmOp n slot tlen false).status ≠ stOk := by
  have hne : (s.ciphOctets (CIPH_TAG n 0) tlen == []) = false := by
    rw [beq_eq_false_iff_ne, ← List.length_pos_iff, ciphOctets_length ht']
    omega
  rw [State.ccmOp, if_neg (by omega), if_neg (by simp [hsrc, hdst]), hk]
  dsimp only
  rw [if_neg (by decide), ccmCrypt_nil]
  dsimp only
  rw [ccmTag_nil, hne]
  exact ⟨rfl, by decide⟩

/-- The units at rest, with a raw key of no octets in slot 8 that the host's page may use. -/
def emptyKeyDev : Dev := { keys := [(8, { valid := true, mask := 2, usage := 2, key := [] })] }

/-- The state after reset with the host's page enabled over one octet of main SRAM. -/
def emptyKey : State :=
  ((((State.reset.putReg (CIPH_MLEN 1) 1).putReg (CIPH_SRC 1) 0x20000000).putReg (CIPH_DST 1) 0x20000000).put (CTRL_EN (ciphPage 1)) 1).live fun _ => emptyKeyDev

theorem emptyKey_inv : emptyKey.Inv := ((((resetInv.putReg _ _).putReg _ _).putReg _ _).put _ _).live _

theorem emptyKey_reg {a : Nat} (h : a ≠ CTRL (ciphPage 1)) : emptyKey.reg a =
    (((State.reset.putReg (CIPH_MLEN 1) 1).putReg (CIPH_SRC 1) 0x20000000).putReg (CIPH_DST 1) 0x20000000).reg a := by
  rw [emptyKey, State.live_reg, State.reg_put_other _ (by exact h)]

theorem emptyKey_len : (emptyKey.reg (CIPH_MLEN 1)).toNat = 1 := by
  rw [emptyKey_reg (by decide), State.reg_putReg_other _ (by decide), State.reg_putReg_other _ (by decide), State.reg_putReg_same]
  decide
theorem emptyKey_src : (emptyKey.reg (CIPH_SRC 1)).toNat = 0x20000000 := by
  rw [emptyKey_reg (by decide), State.reg_putReg_other _ (by decide), State.reg_putReg_same]
  decide
theorem emptyKey_dst : (emptyKey.reg (CIPH_DST 1)).toNat = 0x20000000 := by
  rw [emptyKey_reg (by decide), State.reg_putReg_same]
  decide
theorem emptyKey_alen : (emptyKey.reg (CIPH_ALEN 1)).toNat = 0 := by
  rw [emptyKey_reg (by decide), State.reg_putReg_other _ (by decide), State.reg_putReg_other _ (by decide), State.reg_putReg_other _ (by decide)]
  decide
theorem emptyKey_idle : emptyKey.bit (CIPH_RESULT_BUSY 1) = false := by
  rw [State.bit, State.fld, emptyKey_reg (by decide), State.reg_putReg_other _ (by decide), State.reg_putReg_other _ (by decide), State.reg_putReg_other _ (by decide)]
  decide
theorem emptyKey_en : emptyKey.en (ciphPage 1) = true := by
  rw [emptyKey, State.en, State.live_bit, State.bit_self _ (by decide)]
  decide
theorem emptyKey_key : emptyKey.keyFor 8 useRaw 1 = some [] := by
  rw [State.keyFor, State.slot, emptyKey, State.live_dev]
  decide

/-- Refutes O38: under a raw key of no octets CCM_DEC of one octet, whose tag does not match, completes with no octet to write. -/
theorem not_cipherOps : ¬ Obligations.CipherOps := by
  intro h
  obtain ⟨hccm, -⟩ := h .host 1 0x100800 emptyKey emptyKey_inv rfl emptyKey_en emptyKey_idle
  obtain ⟨-, -, hdec⟩ := hccm [] emptyKey_key (by rw [show ((1 : Fin 8).val) = 1 from rfl, emptyKey_len]; decide)
    (by rw [show ((1 : Fin 8).val) = 1 from rfl, emptyKey_src, emptyKey_alen, emptyKey_len]; decide)
    (by rw [show ((1 : Fin 8).val) = 1 from rfl, emptyKey_dst, emptyKey_len]; decide)
  have haddr : emptyKey.ciphAddr (ciphSide 1) 0x20000000 1 = true := rfl
  have hplan : emptyKey.ciphPlan 1 (withOp 0x100800 3) = emptyKey.ccmOp 1 8 4 false := (rfl)
  obtain ⟨hout, hst⟩ := ccmOp_nil (s := emptyKey) (n := 1) (tlen := 4) emptyKey_key (by rw [emptyKey_len]; decide)
    (by rw [emptyKey_src, emptyKey_alen, emptyKey_len]; exact haddr) (by rw [emptyKey_dst, emptyKey_len]; exact haddr) (by decide) (by decide)
  have hjob := (hdec (by
    intro heq
    have hl := congrArg List.length heq
    rw [ccmTag_nil, ciphOctets_length (by decide)] at hl
    exact absurd hl (by decide))).of_run (show exec (.ccmDec .host 1 0x100800) emptyKey = cmd emptyKey (ciphStart .host 1 (withOp 0x100800 3)) from (rfl))
  rw [State.ciph, latchEdges_ciph, ← State.ciph, show ((1 : Fin 8).val) = 1 from rfl,
    ciphStart_job rfl emptyKey_idle emptyKey_en (hplan ▸ hout) (hplan ▸ hst), emptyKey_len] at hjob
  simp at hjob

end Sys2Proof.Machine
end

section
/-!
NTIME_CFG has a behaviour of its own (R188): a write that sets ROOT stops the scheduler, whose registers then move too.
-/
namespace Sys2Proof.Machine
open Sys2Proof.Reg

variable {s : State}

/-- The link clusters' pages are one range of R269, which no external window reaches. -/
theorem State.rangeOf_linkPage (s : State) {a : Nat} (hlo : 0x41000000 ≤ a) (hhi : a < 0x41018000) :
    s.rangeOf a = some ⟨0x41000000, 0x41018000, .pages⟩ := by
  have h0 := s.fitted_le 0
  have h1 := s.fitted_le 1
  rw [State.rangeOf, State.ranges]
  iterate 7 rw [List.find?_cons_of_neg (by simp only [Bool.and_eq_true, decide_eq_true_eq]; omega)]
  exact List.find?_cons_of_pos (by simp only [Bool.and_eq_true, decide_eq_true_eq]; omega)

/-- A page entered: of the units only its gate and its reset in progress move. -/
theorem gives_enterPage_dev {p : Nat} (hh : hasHeader p = true) : (enterPage p).Gives s fun _ t =>
    t.dev.samp = s.dev.samp ∧ t.dev.pwr = s.dev.pwr ∧ t.dev.radio = s.dev.radio ∧ s.Within (onlyRegs (perfRegs p)) t := by
  have hdev : (enterPage p).Gives s fun _ t => t.dev.samp = s.dev.samp ∧ t.dev.pwr = s.dev.pwr ∧ t.dev.radio = s.dev.radio := ?_
  · exact (hdev.and (gives_enterPage (s := s))).mono fun _ t h => ⟨h.1.1, h.1.2.1, h.1.2.2, h.2.2⟩
  refine gives_bind (gives_act ?_)
  rw [if_pos hh]
  refine gives_bind (gives_act (gives_perf.mono fun _ t ht => ?_))
  rw [ht.1.dev]
  exact ⟨rfl, rfl, rfl⟩

/-- Where the windows are shut and the radio was not woken for them, nothing is left to rest. -/
theorem gives_winRest_shut (h : s.dev.samp.holds = false) (hw : s.dev.samp.woke = false) (hc : s.dev.samp.closing = false) :
    winRest.Gives s fun _ t => t = s := by
  refine gives_bind (gives_getS ?_)
  simp only [h, hw, hc, Bool.not_false, if_true, Bool.false_eq_true, if_false]
  exact gives_pure rfl

theorem lockedReg_ntime : s.lockedReg NTIME_CFG = false := (rfl)

/-- The row of NTIME_CFG. -/
theorem rowOf_ntimeCfg : rowOf NTIME_CFG = some ⟨0x100, 1, 0, 1, 0, 0x42010064, 0xCF01FFFF, 0x0, 0x0, 0x0, [], 0x0, 0x0⟩ := by decide

/-- ROOT written to NTIME_CFG while NTIME is disabled: the trim's fields clear, and ROOT stands. -/
theorem gives_rootWrite (hen : s.en ntimePage = false) (hreg : s.reg NTIME_CFG = 0x42010064) :
    (plainWrite NTIME_CFG 0x80000000).Gives s fun _ t => t.dev.samp = s.dev.samp ∧ t.dev.radio = s.dev.radio ∧ t.bit NTIME_CFG_ROOT = true ∧ ∀ a, a ≠ NTIME_CFG → t.reg a = s.reg a := by
  have hgov : s.bit (govFld NTIME_CFG) = false := hen
  rw [plainWrite, rowOf_ntimeCfg]
  refine gives_bind (gives_getS ?_)
  simp only [hgov, lockedReg_ntime, hreg, Bool.or_false, Bool.and_false, Bool.false_and, Bool.false_eq_true, if_false, List.foldl_nil, Nat.or_zero,
    if_neg (show ¬ NTIME_CFG = LTIM_CFG 0 by decide)]
  rw [show ((0x42010064 &&& ~~~BitVec.ofNat 32 0xCF01FFFF ||| 0x80000000 &&& BitVec.ofNat 32 0xCF01FFFF) &&& ~~~(0x80000000 &&& 0#32) : Word) = 0x80000000 by decide]
  refine gives_bind (gives_wr ?_)
  rw [if_pos (by decide)]
  refine gives_bind (gives_act (gives_pure ?_))
  change (((s.putReg NTIME_CFG 0x80000000).live _).dev.samp = _) ∧ (((s.putReg NTIME_CFG 0x80000000).live _).dev.radio = _) ∧ ((s.putReg NTIME_CFG 0x80000000).live _).bit NTIME_CFG_ROOT = true ∧
    ∀ a, a ≠ NTIME_CFG → ((s.putReg NTIME_CFG 0x80000000).live _).reg a = _
  refine ⟨rfl, rfl, ?_, fun a ha => by rw [State.live_reg, State.reg_putReg_other _ ha]⟩
  rw [State.live_bit, State.bit, State.fld, State.reg_putReg_same]
  decide

theorem busVoid_ntime : s.busVoid ntimePage = false := (rfl)

/-- A scheduler with no window that holds the radio stops where the node becomes a root. -/
theorem gives_sampFollow_stop (hoff : s.sampOn = false) (hs : s.dev.samp = {}) (hr : s.rxRuns = false) :
    (sampFollow true).Gives s fun _ t => t.fld SAMP_STAT_MISSES = 0 := by
  have hh : s.dev.samp.holds = false := by rw [hs]; rfl
  refine gives_bind (gives_getS ?_)
  rw [hoff]
  simp only [Bool.not_false, Bool.and_true, if_true, Bool.not_true, Bool.false_and, if_false, Bool.false_eq_true]
  have hwin := gives_setWin (f := Samp.shut) hh (by rw [hs]; rfl) hr
  set u := (s.live fun d => { d with samp := d.samp.shut }).put SAMP_STAT_WIN s.dev.samp.shut.shown with hu
  have hus : u.dev.samp = Samp.shut {} := by rw [hu, State.put_dev, State.live_dev, hs]
  have hrest : (winEnd Samp.shut).Gives s fun _ t => t = u :=
    gives_bind (hwin.mono fun _ _ ht => by
      subst ht
      exact gives_winRest_shut (by rw [hus]; rfl) (by rw [hus]; rfl) (by rw [hus]; rfl))
  have hur : u.rxRuns = false := by
    rw [State.rxRuns, hu, State.fld_put_other _ (by decide)]
    exact hr
  have hstop := gives_sampStop (s := u) (by rw [hus]; rfl) hur
  refine gives_bind (hrest.mono fun _ _ ht => ht ▸ gives_bind (hstop.mono fun _ _ ht => ht ▸ gives_pure ?_))
  exact State.fld_put_same (Fld.full_of_settable (by decide)) 0

/-- The state after reset with a scheduler that runs and has missed a beacon. -/
def missedOne : State := ((State.reset.put (CTRL_EN sampPage) 1).put LINK_STAT_MODE 1).put SAMP_STAT_MISSES 1

theorem missedOne_inv : missedOne.Inv := ((resetInv.put _ _).put _ _).put _ _

theorem missedOne_dev : missedOne.dev = State.reset.dev := by rw [missedOne, State.put_dev, State.put_dev, State.put_dev]

theorem missedOne_reg {a : Nat} (h : a ∉ [CTRL sampPage, LINK_STAT, SAMP_STAT]) : missedOne.reg a = State.reset.reg a := by
  simp only [List.mem_cons, List.not_mem_nil, or_false, not_or] at h
  rw [missedOne, State.reg_put_other _ (by exact h.2.2), State.reg_put_other _ (by exact h.2.1), State.reg_put_other _ (by exact h.1)]

theorem missedOne_on : missedOne.sampOn = true := by
  have hen : missedOne.en sampPage = true := by
    rw [missedOne, State.en, State.bit, State.fld_put_other _ (by decide), State.fld_put_other _ (by decide), State.fld_put_same (Fld.full_of_settable (by decide))]
    decide
  have hmode : missedOne.fld LINK_STAT_MODE = 1 := by
    rw [missedOne, State.fld_put_other _ (by decide), State.fld_put_same (Fld.full_of_settable (by decide))]
    decide
  have hroot : missedOne.bit NTIME_CFG_ROOT = false := by
    rw [State.bit, State.fld, missedOne_reg (by decide)]
    decide
  rw [State.sampOn, hen, hmode, hroot, missedOne_dev]
  decide

/-- A bus write of ROOT stops a scheduler that ran. -/
theorem rootWrite_follows (hon : s.sampOn = true) (hs : s.dev.samp = {}) (hr : s.rxRuns = false) (hp : s.powered ntimePage = true) (hen : s.en ntimePage = false)
    (hreg : s.reg NTIME_CFG = 0x42010064) : (busWrite .host .word NTIME_CFG 0x80000000).Gives s fun _ t => t.fld SAMP_STAT_MISSES = 0 := by
  refine gives_busWrite_page (s.rangeOf_linkPage (by decide) (by decide)) rfl (by decide) ?_
  refine gives_bind (gives_getS ?_)
  rw [show pageOf (NTIME_CFG / 4 * 4) = ntimePage by decide]
  simp only [hp, Bool.not_true, Bool.false_eq_true, if_false, busVoid_ntime]
  refine gives_bind ((gives_enterPage_dev (by decide)).mono ?_)
  rintro - t ⟨hts, htp, htr, htw⟩
  have hkeep (a : Nat) (ha : a ∉ perfRegs ntimePage) : t.reg a = s.reg a := htw.regs a (decide_eq_false ha)
  rw [if_neg (by decide), if_neg (by decide), if_neg (by rw [show isCiph ntimePage = false by decide]; simp), if_neg (by decide), if_neg (by decide)]
  change M.Gives (getS >>= fun u => plainWrite NTIME_CFG 0x80000000 >>= fun _ => sampFollow u.sampOn) t _
  have hton : t.sampOn = true := by
    rw [← hon, State.sampOn, State.sampOn, htp, State.en, State.bit, State.bit, State.fld, State.fld, State.fld, hkeep _ (by decide), hkeep _ (by decide), hkeep _ (by decide)]
    rfl
  have hten : t.en ntimePage = false := by
    rw [← hen, State.en, State.bit, State.fld, hkeep _ (by decide)]
    rfl
  refine gives_bind (gives_getS ?_)
  rw [hton]
  refine gives_bind ((gives_rootWrite hten ((hkeep _ (by decide)).trans hreg)).mono ?_)
  rintro - u ⟨hus, hurad, huroot, hur⟩
  refine (gives_sampFollow_stop ?_ (hus.trans (hts.trans hs)) ?_).mono fun _ _ h => h
  · rw [State.sampOn, huroot]
    simp
  · rw [← hr, State.rxRuns, State.rxRuns, State.fld, State.fld, hur _ (by decide), hkeep _ (by decide), hurad, htr]

theorem missedOne_deaf : missedOne.rxRuns = false := by
  rw [State.rxRuns, State.fld, missedOne_reg (by decide)]
  decide

/-- A register write is the bus write of its address. -/
theorem registerWrite_run {m : Master} {size : Size} {a v : Word} {n : Nat} (hn : a.toNat = n) (hp : ((pageRows (pageOf n)).isSome && n % accLen size == 0) = true) :
    exec (.registerWrite m size a v) s = cmd s (busWrite m size n v >>= fun _ => nop) := by
  change cmd s _ = _
  rw [hn, if_pos hp]
  rfl

/-- Refutes O18: the write that makes a node a root clears the scheduler's count of beacons missed. -/
theorem not_registerWrites : ¬ Obligations.RegisterWrites := by
  intro h
  have hwrite := (h.1 .host (BitVec.ofNat 32 NTIME_CFG) 0x80000000 missedOne missedOne_inv).1
  dsimp only at hwrite
  rw [show (BitVec.ofNat 32 NTIME_CFG).toNat = NTIME_CFG by decide, show pageOf NTIME_CFG = ntimePage by decide] at hwrite
  have hen : missedOne.en ntimePage = false := by
    rw [State.en, State.bit, State.fld, missedOne_reg (by decide)]
    decide
  have hpow : missedOne.powered ntimePage = true := by
    rw [State.powered, missedOne_dev]
    decide
  have hdone := (hwrite _ rowOf_ntimeCfg (by decide) (by decide) rfl rfl hpow (by decide) (by decide) (by decide) (by decide) lockedReg_ntime
    busVoid_ntime).1 hen
  have hfollow := rootWrite_follows missedOne_on (by rw [missedOne_dev]; rfl) missedOne_deaf hpow hen
    (by rw [missedOne_reg (by decide)]; decide)
  have hrun := registerWrite_run (m := .host) (size := .word) (v := 0x80000000) (s := missedOne) (show (BitVec.ofNat 32 NTIME_CFG).toNat = NTIME_CFG by decide)
    (by decide)
  have hgone : ((busWrite .host .word NTIME_CFG 0x80000000 >>= fun _ => nop).run missedOne).fld SAMP_STAT_MISSES = 0 :=
    (gives_bind (hfollow.mono fun _ _ ht => gives_nop ht)).run
  have hreg := (hdone.of_run hrun).2.regs SAMP_STAT (by decide)
  rw [latchEdges_reg] at hreg
  rw [State.fld, show SAMP_STAT_MISSES.addr = SAMP_STAT from rfl, hreg, missedOne] at hgone
  change (State.put _ SAMP_STAT_MISSES 1).fld SAMP_STAT_MISSES = 0 at hgone
  rw [State.fld_put_same (Fld.full_of_settable (by decide))] at hgone
  exact absurd hgone (by decide)

end Sys2Proof.Machine
end

section
/-!
A sealed key of no octets makes a challenge of no octets (R216, R476): the statement takes any key that slot 0 holds.
-/
namespace Sys2Proof.Machine
open Sys2Proof.Reg

variable {s : State}

theorem cmac_nil (l : List Byte) : cmac [] l = [] := by rw [cmac, cmacFinish, aesEnc_nil]

theorem sealedCmac_nil {slot page : Nat} (h : s.keyFor slot useCmac page = some []) (l : List Byte) : s.sealedCmac slot page l = some [] := by
  rw [State.sealedCmac, h, Option.map_some, cmac_nil]

/-- The challenge that follows under a key of no octets. -/
theorem newChallenge_nil (h : s.keyFor 0 useCmac 2 = some []) (cycles : List Word) (f : Unit → M Unit) :
    (newChallenge cycles >>= f).run s = (f ()).run (s.live fun d => { d with mon := { d.mon with challenge := [] } }) := by
  rw [newChallenge, run_assoc, run_getS]
  simp only [sealedCmac_nil h]
  rfl

/-- A wrong response to the first challenge, under a key of no octets: the challenge that follows has no octets. -/
theorem monUnlock_wrong {l : List Byte} (hk : s.keyFor 0 useCmac 2 = some []) (hl : l ≠ []) (hlock : s.monLocked = true)
    (hst : s.dev.staged = []) (ht : s.dev.mon.tries = 0) {t : State} (h : exec (.monUnlock l []) s = .next t) : t.dev.mon.challenge = [] := by
  have hbad : (s.sealedCmac 0 2 s.unlockText == some l) = false := by
    rw [sealedCmac_nil hk, beq_eq_false_iff_ne]
    exact fun e => hl (Option.some.inj e).symm
  set u := (stage 0x0C false stAuth 0 (leBytes 1 1)).run s with hu
  have hdev : u.dev.keys = s.dev.keys := by rw [hu, stage_dev (by rw [hst]; decide)]
  have hkey : ∀ v : State, v.dev.keys = u.dev.keys → v.keyFor 0 useCmac 2 = some [] := fun v hv => by
    rw [← hk, State.keyFor, State.keyFor, State.slot, State.slot, hv, hdev]
  change cmd s _ = _ at h
  obtain rfl := Host.Outcome.next.inj h
  rw [latchEdges_mon]
  simp only [hlock, if_true, if_neg hl, hbad, ht, Bool.false_eq_true, if_false, Nat.zero_add]
  rw [total_stage.run_bind, ← hu, monReply, modMon, run_modDev_bind, modMon, run_modDev_bind,
    newChallenge_nil (hkey _ (by rw [State.live_dev, State.live_dev])), if_neg (by decide), run_pure, State.live_dev]

/-- The units at rest in the unlock exchange, slot 0 holding a key of no octets. -/
def noKeyDev : Dev := { sys := { phase := .unlock }, keys := [(0, { valid := true, mask := 4, usage := 4, key := [] })] }

/-- The state after reset in the unlock exchange, with such a key. -/
def noKey : State := State.reset.live fun _ => noKeyDev

theorem noKey_dev : noKey.dev = noKeyDev := by rw [noKey, State.live_dev]

/-- Refutes O57: under a key of no octets a wrong response leads to a challenge of no octets. -/
theorem not_monitor : ¬ Obligations.Monitor := by
  intro h
  have hkey : noKey.keyFor 0 useCmac 2 = some [] := by
    rw [State.keyFor, State.slot, noKey_dev]
    decide
  have hlock : noKey.monLocked = true := by
    rw [State.monLocked, noKey_dev]
    rfl
  have htries : noKey.dev.mon.tries = 0 := by
    rw [noKey_dev]
    rfl
  obtain ⟨-, hunlock, -⟩ := h.1 noKey (resetInv.live _)
  obtain ⟨-, -, -, hwrong⟩ := hunlock [0] []
  obtain ⟨t, hexec, -, -, hlen, -⟩ := hwrong hlock (by decide) (by
    rw [sealedCmac_nil hkey]
    decide) (by rw [htries]; decide)
  rw [monUnlock_wrong hkey (by decide) hlock (by rw [noKey_dev]; rfl) htries hexec] at hlen
  exact absurd hlen (by decide)

end Sys2Proof.Machine
end

section
/-!
Network time: steps, the compare, the LF calibration and the carry across sleep (R177, R179, R181–R183, R186).
-/
namespace Sys2Proof.Machine
open Sys2Proof.Reg

variable {s t : State} {F : Foot} {l : List (Fld × Nat)} {noted : List Nat}

/-! ### The compare (R183, R186) -/

/-- NTIME is at the compare's value, or less than half its range past it. -/
def State.cmpDue (s : State) : Prop := (s.dev.time.ntime + 2 ^ 48 - s.cmpValue % 2 ^ 48) % 2 ^ 48 < 2 ^ 47

theorem cmpReached_iff : s.cmpReached = true ↔ s.bit NTIME_STAT_CMPARMED = true ∧ s.cmpDue := by
  rw [State.cmpReached, Bool.and_eq_true, Bool.not_eq_true', behind, decide_eq_false_iff_not, Nat.not_le]
  rfl

theorem cmpFire_idle (h : ¬ (s.bit NTIME_STAT_CMPARMED = true ∧ s.cmpDue)) : cmpFire.run s = s := by
  rw [cmpFire, run_getS, if_neg (fun hr => h (cmpReached_iff.mp hr)), run_pure]

theorem cmpFire_fires (ha : s.bit NTIME_STAT_CMPARMED = true) (hd : s.cmpDue) : cmpFire.run s = (emit ntimePage 0xA6).run (s.put NTIME_STAT_CMPARMED 0) := by
  rw [cmpFire, run_getS, if_pos (cmpReached_iff.mpr ⟨ha, hd⟩), run_setFld_bind]

theorem total_cmpFire : cmpFire.Total := total_bind total_getS fun _ => total_ite (total_bind (total_setFld _ _) fun _ => total_emit _ _) (total_pure _)

theorem cmpDue_put_stat {f : Fld} (hf : f.addr = NTIME_STAT) (v : Nat) : (s.put f v).cmpDue ↔ s.cmpDue := by
  rw [State.cmpDue, State.cmpDue, State.cmpValue, State.cmpValue, State.reg_put_other _ (by rw [hf]; decide), State.fld, State.fld,
    State.reg_put_other _ (by rw [hf]; decide), State.dev_put]

theorem ntimeArm_reached (hi : s.Inv) (h : s.cmpDue) : Completes .ntimeCompareArm s fun t =>
    t.events = s.events ++ [0xA6] ∧ s.Sets t [(NTIME_STAT_CMPARMED, 0)] (perfOf ntimePage) :=
  completes_run rfl (by
    rw [ntimeArm, run_setFld_bind, cmpFire_fires (State.bit_self _ (by decide)) ((cmpDue_put_stat (by decide) _).mpr h)]
    refine ⟨?_, ((((did_refl hi).puts (by decide)).puts (by decide)).emits (by decide) (by exact fun _ => .inr)).again (by decide) |>.latched _⟩
    rw [latchEdges_events, emit_events (by decide), State.events_put, State.events_put])

theorem ntimeArm_waits (hi : s.Inv) (h : ¬ s.cmpDue) : Completes .ntimeCompareArm s fun t =>
    t.events = s.events ∧ s.Sets t [(NTIME_STAT_CMPARMED, 1)] :=
  completes_run rfl (by
    rw [ntimeArm, run_setFld_bind, cmpFire_idle fun hc => h ((cmpDue_put_stat (by decide) _).mp hc.2)]
    exact ⟨by rw [latchEdges_events, State.events_put], ((did_refl hi).puts (by decide)).latched _⟩)

theorem ntimeMatch_fires (hi : s.Inv) (ha : s.bit NTIME_STAT_CMPARMED = true) (h : s.cmpDue) : Completes .ntimeCompareMatch s fun t =>
    t.events = s.events ++ [0xA6] ∧ s.Sets t [(NTIME_STAT_CMPARMED, 0)] (perfOf ntimePage) :=
  completes_run rfl (by
    rw [cmpFire_fires ha h]
    refine ⟨?_, (((did_refl hi).puts (by decide)).emits (by decide) (by exact fun _ => .inr)).latched _⟩
    rw [latchEdges_events, emit_events (by decide), State.events_put])

/-! ### Steps (R177, R179, R183) -/

/-- NTIME at a value, the compare not judged yet. -/
def State.stepped (s : State) (v : Nat) : State := s.live fun d => { d with time := { d.time with ntime := v % 2 ^ 48 } }

/-- A step with no frame that waits for an instant and no compare armed moves NTIME alone. -/
theorem gives_timeStep (hj : s.dev.tx.jobs = []) (ha : ¬ s.bit NTIME_STAT_CMPARMED = true) (v : Nat) : (timeStep v).Gives s fun _ t => t = s.stepped v := by
  have hjobs : ((s.stepped v).jobs.map (·.id)) = [] := by rw [State.jobs, State.stepped, State.live_dev, hj]; rfl
  have hb : (s.stepped v).bit NTIME_STAT_CMPARMED = s.bit NTIME_STAT_CMPARMED := by rw [State.stepped, State.live_bit]
  refine gives_bind (gives_act (gives_bind (gives_getS (gives_bind ?_))))
  change M.Gives (forAll ((s.stepped v).jobs.map (·.id)) rejudge) (s.stepped v) _
  rw [hjobs]
  exact gives_nop ((total_cmpFire.gives_run _).mono fun _ t ht => ht.trans (cmpFire_idle fun h => ha (hb ▸ h.1)))

theorem stepped_dev (v : Nat) : (s.stepped v).dev = { s.dev with time := { s.dev.time with ntime := v % 2 ^ 48 } } := by rw [State.stepped, State.live_dev]

theorem ntimeSet_sets (hi : s.Inv) (hj : s.dev.tx.jobs = []) (ha : ¬ s.bit NTIME_STAT_CMPARMED = true) : Completes .ntimeSet s fun t =>
    t.dev.time = { s.dev.time with ntime := ((s.reg NTIME_SETLO).toNat + s.fld NTIME_SETHI_VALUE * 2 ^ 32) % 2 ^ 48 } ∧
    t.dev.flood.setAt = some s.dev.time.link ∧ s.Sets t [(NTIME_STAT_SYNC, 1), (NTIME_TRIM_TRIM, 0)] :=
  completes_run rfl (by
    set u := s.live fun d => { d with flood := { d.flood with setAt := some s.dev.time.link } } with hu
    have hstep := gives_timeStep (s := u) (by rw [hu, State.live_dev, hj]) (by rw [hu, State.live_bit]; exact ha)
      ((s.reg NTIME_SETLO).toNat + s.fld NTIME_SETHI_VALUE * 2 ^ 32)
    rw [ntimeSet, run_getS, modFlood, run_modDev_bind, ← hu, hstep.run_bind_to, run_setFld_bind, run_setFld]
    refine ⟨?_, ?_, ((((did_refl hi).lived (by rfl)).lived (by rfl)).puts (by decide) |>.puts (by decide)).latched _⟩
    · rw [latchEdges_time, State.dev_put, State.dev_put, stepped_dev, hu, State.live_dev]
    · rw [latchEdges_flood, State.dev_put, State.dev_put, stepped_dev, hu, State.live_dev])

theorem ntimeDesync_clears (hi : s.Inv) : Completes .ntimeDesync s fun t =>
    t.dev.time = s.dev.time ∧ s.Sets t [(NTIME_STAT_SYNC, 0), (NTIME_TRIM_TRIM, 0)] :=
  completes_run rfl (by
    rw [ntimeDesync, run_setFld_bind, run_setFld]
    exact ⟨by rw [latchEdges_time, State.dev_put, State.dev_put], (((did_refl hi).puts (by decide)).puts (by decide)).latched _⟩)

/-! ### Calibration and carry (R181, R182) -/

theorem lfcal_updates (hi : s.Inv) (h : 65536 ≤ s.dev.time.calLf) : Completes .lfcalUpdate s fun t =>
    t.dev.time = { s.dev.time with calLink := 0, calLf := 0 } ∧ s.Sets t [(NTIME_LFCAL_RATIO, s.dev.time.calLink % 2 ^ 32)] :=
  completes_run rfl (by
    rw [if_pos h, run_setFld_bind, modTime, run_modDev]
    exact ⟨by rw [latchEdges_time, State.live_dev, State.dev_put], (((did_refl hi).puts (by decide)).lived (by rfl)).latched _⟩)

theorem carry_made (hi : s.Inv) (hc : s.linkClock = true) (hr : s.dev.time.restore = false) : Completes .networkTimeCarry s fun t =>
    t.dev.time.carry = some s.carryNow ∧ s.Sets t [(NTIME_STAT_CVALID, 1)] :=
  completes_run rfl (by
    rw [if_pos hc, carryMake, run_getS, hr, if_pos (by decide)]
    dsimp only
    rw [modTime, run_modDev_bind, run_setFld]
    exact ⟨by rw [latchEdges_time, State.dev_put, State.live_dev]; rfl, (((did_refl hi).lived (by rfl)).puts (by decide)).latched _⟩)

theorem carry_not_made (h : s.linkClock = false ∨ s.dev.time.restore = true) : Completes .networkTimeCarry s fun t => t.dev.time = s.dev.time ∧ s.Within {} t :=
  completes_run rfl (by
    have hrun : (if s.linkClock = true then carryMake else pure ()).run s = s := by
      rcases h with h | h
      · rw [if_neg (by simp [h]), run_pure]
      · split
        · rw [carryMake, run_getS, if_neg (by simp [h]), run_pure]
        · rw [run_pure]
    rw [hrun]
    exact ⟨by rw [latchEdges_time], (s.within_refl _).latch⟩)

/-- The restore from a record, NTIME at its value and CVALID counted. -/
theorem carryRestore_run {c : Carry} {phase : Nat} (hj : s.dev.tx.jobs = []) (hc : s.dev.time.carry = some c)
    (he : s.en ntimePage = true) (ha : ¬ s.bit NTIME_STAT_CMPARMED = true) :
    (carryRestore phase).run s = (count ntimePage 0x04 2).run
      ((((s.stepped (c.ntime + s.lfToLink ((s.dev.time.ao + 2 ^ 48 - c.ao) % 2 ^ 48) + phase)).put NTIME_STAT_SYNC (b2n c.sync)).put NTIME_TRIM_TRIM c.trim).live
        fun d => { d with time := { d.time with restore := false } }) := by
  rw [carryRestore, run_getS, hc]
  dsimp only
  rw [if_pos he, (gives_timeStep hj ha _).run_bind_to, run_setFld_bind, run_setFld_bind, modTime, run_modDev_bind]

/-- The time that a restore leaves. -/
theorem restored_time (v : Nat) (b : Nat) (trim : Nat) : ((count ntimePage 0x04 2).run ((((s.stepped v).put NTIME_STAT_SYNC b).put NTIME_TRIM_TRIM trim).live
    fun d => { d with time := { d.time with restore := false } })).dev.time = { s.dev.time with restore := false, ntime := v % 2 ^ 48 } := by
  rw [run_count, State.counted_dev, State.live_dev, State.dev_put, State.dev_put, stepped_dev]

theorem carry_restored (phase : Fin 1221) {c : Carry} (hi : s.Inv) (hj : s.dev.tx.jobs = []) (hc : s.dev.time.carry = some c) (hr : s.dev.time.restore = true)
    (he : s.en ntimePage = true) (ha : ¬ s.bit NTIME_STAT_CMPARMED = true) : Completes (.networkTimeRestore phase) s fun t =>
      t.dev.time = { s.dev.time with
        restore := false
        ntime := (c.ntime + (2 * ((s.dev.time.ao + 2 ^ 48 - c.ao) % 2 ^ 48) * s.fld NTIME_LFCAL_RATIO + 65536) / 131072 + phase.val) % 2 ^ 48 } ∧
      s.Sets t [(NTIME_STAT_SYNC, if c.sync then 1 else 0), (NTIME_TRIM_TRIM, c.trim)] :=
  completes_run (m := if s.dev.time.restore then carryRestore phase else pure ()) rfl (by
    have hb : b2n c.sync = if c.sync then 1 else 0 := rfl
    rw [if_pos hr, carryRestore_run hj hc he ha, ← hb]
    refine ⟨by rw [latchEdges_time, restored_time, State.lfToLink], (((((did_refl hi).lived (by rfl)).puts (by decide)).puts (by decide)).lived (by rfl) |>.counted _ _ _ _).latched _⟩)

/-- What a command that does nothing leaves. -/
theorem nothing_moves {c : Instr} {m : M Unit} (h : exec c s = cmd s m) (hm : m.run s = s) : Completes c s fun t =>
    t.dev.time = s.dev.time ∧ t.events = s.events ∧ s.Within {} t :=
  completes_run h (by
    rw [hm]
    exact ⟨by rw [latchEdges_time], by rw [latchEdges_events], (s.within_refl _).latch⟩)

/-- Settles O35. -/
theorem networkTime : Obligations.NetworkTime := by
  intro s hi hj
  dsimp only
  have hdue : (s.dev.time.ntime + 2 ^ 48 - ((s.reg NTIME_CMPLO).toNat + s.fld NTIME_CMPHI_VALUE * 2 ^ 32) % 2 ^ 48) % 2 ^ 48 < 2 ^ 47 ↔ s.cmpDue := Iff.rfl
  refine ⟨fun ha => ntimeSet_sets hi hj ha, ntimeDesync_clears hi, fun h => ntimeArm_reached hi h, fun h => ntimeArm_waits hi h,
    fun ha h => ntimeMatch_fires hi ha h, fun h => ?_, fun h => lfcal_updates hi h, fun hc hr => carry_made hi hc hr, fun h => carry_not_made h,
    fun phase => ⟨fun c hc hr he ha => carry_restored phase hi hj hc hr he ha, fun hr => ?_⟩⟩
  · obtain ⟨t, ht, -, he, hw⟩ := nothing_moves (c := .ntimeCompareMatch) rfl (cmpFire_idle fun hc => h.elim (fun hn => hn hc.1) fun hn => hn hc.2)
    exact ⟨t, ht, he, hw⟩
  · obtain ⟨t, ht, htime, -, hw⟩ := nothing_moves (c := .networkTimeRestore phase) rfl (by rw [hr]; rfl)
    exact ⟨t, ht, htime, hw⟩

end Sys2Proof.Machine
end

section
/-!
A write to a page of the radio die whose transfer failed does nothing (R26): the statement about MBX_SEL takes any page.
-/
namespace Sys2Proof.Machine
open Sys2Proof.Reg

/-- The units at rest, a transfer to the radio die having failed four times. -/
def failedDev : Dev := { radio := { busFail := true } }

/-- The state after reset with such a transfer. -/
def failedTransfer : State := State.reset.live fun _ => failedDev

theorem failedTransfer_dev : failedTransfer.dev = failedDev := by rw [failedTransfer, State.live_dev]

/-- A register write that the die-to-die link has dropped. -/
theorem regWrite_void {s : State} {m : Master} {z : Size} {a : Nat} {v : Word} (hp : s.powered (pageOf a) = true) (hv : s.busVoid (pageOf a) = true) :
    (regWrite m z a v).run s = s.live fun d => { d with radio := { d.radio with busFail := false } } := by
  rw [regWrite, run_getS]
  dsimp only
  rw [hp, if_neg (by decide), hv, if_pos rfl]
  rfl

/-- Refutes O33: an item that SYNTH does not have is not refused where the write of MBX_SEL did not reach the radio die. -/
theorem not_tablesAndMailboxes : ¬ Obligations.TablesAndMailboxes := by
  intro h
  have hpow : failedTransfer.powered synthPage = true := by
    rw [State.powered, failedTransfer_dev]
    decide
  have hvoid : failedTransfer.busVoid synthPage = true := by
    rw [State.busVoid, failedTransfer_dev]
    decide
  obtain ⟨-, hnone, -⟩ := h.2 .host synthPage 0xFFFF failedTransfer (resetInv.live _) (by decide) hpow
  have hrun : exec (.mailboxSelect .host synthPage 0xFFFF) failedTransfer = cmd failedTransfer (regWrite .host .word (MBX_SEL synthPage) 0xFFFF) := (rfl)
  have hreg := ((hnone (by decide) (by decide)).of_run hrun).regs (MBX_STAT synthPage) (by decide) rfl
  rw [latchEdges_reg, regWrite_void (by exact hpow) (by exact hvoid), State.live_reg, State.after,
    show failedTransfer.reg (MBX_STAT synthPage) = 0 by rw [failedTransfer, State.live_reg]; decide] at hreg
  exact absurd hreg (by decide)

end Sys2Proof.Machine
end

section
/-!
A call of a ROM service (R279): what its body answers, the results it leaves in general registers, the return.
-/
namespace Sys2Proof.Machine
open Sys2Proof.Reg

variable {s t u : State} {F : Foot} {n : Nat} {rs : List (Nat × Nat)}

/-! ### Results in general registers -/

/-- The core with results in its general registers, one after the other. -/
def Core.withResults (rs : List (Nat × Nat)) (c : Core) : Core :=
  { c with g := rs.foldl (fun g r => Sparse.set wordReset g r.1 (BitVec.ofNat 32 r.2)) c.g }

/-- The state with results in the general registers. -/
def State.withResults (t : State) (rs : List (Nat × Nat)) : State := t.recore (Core.withResults rs)

theorem State.recore_eq {f : Core → Core} (h : (f t.core).norm = t.core) : t.recore f = t := by
  rw [State.recore, Prim.run, h]

theorem Core.norm_norm (c : Core) : c.norm.norm = c.norm := by
  simp only [Core.norm, BitVec.and_assoc, BitVec.and_self]

theorem withResults_cons {r : Nat × Nat} (h : t.core.norm = t.core) :
    t.withResults (r :: rs) = (t.recore fun c => { c with g := Sparse.set wordReset c.g r.1 (BitVec.ofNat 32 r.2) }).withResults rs := by
  have hn : ∀ g : Sparse Word, ({ t.core with g := g } : Core).norm = { t.core with g := g } := fun g => by
    have := congrArg (fun c : Core => { c with g := g }) h
    exact this
  rw [State.withResults, State.withResults, State.recore, State.recore, State.recore, Prim.run, Prim.run, Prim.run]
  rw [hn]
  rfl

theorem run_setResults (h : t.core.norm = t.core) : (forAll rs fun r => setG r.1 (BitVec.ofNat 32 r.2)).run t = t.withResults rs := by
  induction rs generalizing t with
  | nil => exact (State.recore_eq h).symm
  | cons r rs ih =>
    rw [forAll_cons, run_setG_bind, ih (by rw [State.recore_core, Core.norm_norm]), withResults_cons h]

theorem gives_setResults (h : t.core.norm = t.core) :
    (forAll rs fun r => setG r.1 (BitVec.ofNat 32 r.2)).Gives t fun _ u => u = t.withResults rs := by
  induction rs generalizing t with
  | nil => exact gives_nop (State.recore_eq h).symm
  | cons r rs ih =>
    exact gives_bind (gives_act ((ih (Core.norm_norm _)).mono fun _ u hu => hu.trans (withResults_cons h).symm))

/-- The state as a call that was made in `s` returns from `t`: the results, and the way back from the services' entry. -/
def State.comeBack (s t : State) (rs : List (Nat × Nat)) : State :=
  if s.core.pc = romSvc then (t.withResults rs).recore fun c => { c with pc := c.xpc, st := c.xst, svc := none } else t.withResults rs

theorem gives_called {m : M Unit} {Q : Unit → State → Prop} (h : s.Serves n) (hm : m.Gives s Q) : (called n m).Gives s Q := by
  refine gives_bind (gives_getS ?_)
  rw [if_pos h.runs]
  have hc := h.called
  by_cases hpc : s.core.pc = romSvc
  · rw [if_pos hpc] at hc ⊢
    rw [if_pos hc]
    exact hm
  · rw [if_neg hpc] at hc ⊢
    rw [hc, if_neg Bool.false_ne_true]
    exact hm

theorem gives_jOwed (h : s.dev.flash.owed = none) : jOwed.Gives s fun _ t => t = s := by
  refine gives_bind (gives_getS ?_)
  rw [h]
  exact gives_nop rfl

/-- A call of a service that may be called, its body followed to its answer. -/
theorem gives_service {body : M (List (Nat × Nat))} {Q : List (Nat × Nat) → State → Prop} (h : s.Serves n) (hb : body.Gives s Q) :
    (service n body).Gives s fun _ v => ∃ rs t, Q rs t ∧ t.Inv ∧ v = s.comeBack t rs := by
  refine gives_called h (gives_bind (gives_getS (gives_bind ((gives_jOwed h.owed).mono fun _ r hr => ?_))))
  rw [hr]
  refine gives_bind (hb.monoInv h.inv fun rs t ht hq => gives_bind ((gives_setResults (Core.norm_of_legal ht.core)).mono ?_))
  rintro _ _ rfl
  by_cases hpc : s.core.pc = romSvc
  · rw [if_pos hpc]
    exact gives_act ⟨rs, t, hq, ht, by rw [State.comeBack, if_pos hpc]; rfl⟩
  · rw [if_neg hpc]
    exact gives_nop ⟨rs, t, hq, ht, by rw [State.comeBack, if_neg hpc]⟩

/-! ### What is read after the return -/

section
variable (s t : State) (rs : List (Nat × Nat))
@[simp] theorem State.comeBack_dev : (s.comeBack t rs).dev = t.dev := by rw [State.comeBack]; split <;> rfl
@[simp] theorem State.comeBack_reg (a : Nat) : (s.comeBack t rs).reg a = t.reg a := by rw [State.comeBack]; split <;> rfl
@[simp] theorem State.comeBack_fld (f : Fld) : (s.comeBack t rs).fld f = t.fld f := by rw [State.comeBack]; split <;> rfl
@[simp] theorem State.comeBack_bit (f : Fld) : (s.comeBack t rs).bit f = t.bit f := by rw [State.comeBack]; split <;> rfl
@[simp] theorem State.comeBack_byte (a : Nat) : (s.comeBack t rs).byte a = t.byte a := by rw [State.comeBack]; split <;> rfl
@[simp] theorem State.comeBack_bytes (a k : Nat) : (s.comeBack t rs).bytes a k = t.bytes a k := by rw [State.comeBack]; split <;> rfl
@[simp] theorem State.comeBack_unit (k : Nat) : (s.comeBack t rs).unit k = t.unit k := by rw [State.comeBack]; split <;> rfl
@[simp] theorem State.comeBack_icache : (s.comeBack t rs).core.icache = t.core.icache := by rw [State.comeBack]; split <;> rfl
end

theorem State.within_comeBack (h : s.Within { F with core := true } t) : s.Within { F with core := true } (s.comeBack t rs) := by
  rw [State.comeBack]
  split
  · rw [State.within_recore_iff rfl, State.withResults, State.within_recore_iff rfl]; exact h
  · rw [State.withResults, State.within_recore_iff rfl]; exact h

theorem val_setResults (hd : (rs.map Prod.fst).Nodup) (g : Sparse Word) (k : Nat) :
    Sparse.get wordReset (rs.foldl (fun g r => Sparse.set wordReset g r.1 (BitVec.ofNat 32 r.2)) g) k =
      match rs.find? fun r => r.1 == k with | some r => BitVec.ofNat 32 r.2 | none => Sparse.get wordReset g k := by
  induction rs generalizing g with
  | nil => rfl
  | cons r rs ih =>
    obtain ⟨hr, hd⟩ := List.nodup_cons.mp hd
    rw [List.foldl_cons, ih hd]
    by_cases hk : r.1 = k
    · subst hk
      have hn : rs.find? (fun q => q.1 == r.1) = none :=
        List.find?_eq_none.mpr fun q hq he => hr (List.mem_map.mpr ⟨q, hq, by simpa using he⟩)
      rw [hn, List.find?_cons_of_pos (by simp)]
      exact Sparse.get_set_same _ _ _ _
    · rw [List.find?_cons_of_neg (by simpa using hk)]
      split
      · rfl
      · exact Sparse.get_set_other _ _ _ _ _ (Ne.symm hk)

/-- The core but for its instruction cache is as before: what the body of a service leaves of it. -/
def State.SameCore (s t : State) : Prop := t.core = { s.core with icache := t.core.icache }

/-- A service's return, where its body keeps the core but for the cache, and the footprint. -/
theorem served_comeBack (h : s.Serves n) (hd : (rs.map Prod.fst).Nodup) (hc : s.SameCore t) (hw : s.Within { F with core := true } t) :
    s.Served (latchEdges u (s.comeBack t rs)) rs F := by
  obtain ⟨hpc, hst, hv⟩ := h.inv.core
  obtain ⟨ic, hc⟩ : ∃ ic, t.core = { s.core with icache := ic } := ⟨_, hc⟩
  have key : (latchEdges u (s.comeBack t rs)).core = { Core.withResults rs s.core with
      icache := ic
      pc := if s.core.pc = romSvc then s.core.xpc &&& 0xFFFFFFFC else s.core.pc
      st := if s.core.pc = romSvc then s.core.xst &&& stMask else s.core.st
      svc := if s.core.pc = romSvc then none else s.core.svc } := by
    rw [latchEdges_core, State.comeBack]
    by_cases hp : s.core.pc = romSvc
    · simp only [if_pos hp, State.recore_core, State.withResults, hc, Core.withResults, Core.norm, hv]
    · simp only [if_neg hp, State.recore_core, State.withResults, hc, Core.withResults, Core.norm, hpc, hst, hv]
  refine ⟨fun k => ?_, ?_, ?_, ?_, ?_, ?_, (State.within_comeBack hw).latch⟩
  · rw [State.g, key]
    exact val_setResults hd _ _
  all_goals rw [key]
  all_goals rfl

/-- A command that is one call of a service: what the body answers is returned, and what holds of the state where it ends holds. -/
theorem completes_service {c : Instr} {body : M (List (Nat × Nat))} {P : State → Prop} (hx : exec c s = cmd s (service n body))
    (h : s.Serves n) (hd : (rs.map Prod.fst).Nodup)
    (hb : body.Gives s fun r t => r = rs ∧ s.SameCore t ∧ s.Within { F with core := true } t ∧
      (t.Inv → P (latchEdges s (s.comeBack t rs)))) :
    Completes c s fun t => s.Served t rs F ∧ P t := by
  refine ⟨_, hx, (gives_service h hb).run.elim fun _ hv => ?_⟩
  obtain ⟨t, ⟨rfl, hc, hw, hp⟩, ht, hv⟩ := hv
  rw [hv]
  exact ⟨served_comeBack h hd hc hw, hp ht⟩

/-- A service that answers and leaves the device as it is. -/
theorem completes_answer {c : Instr} {body : M (List (Nat × Nat))} (hx : exec c s = cmd s (service n body)) (h : s.Serves n)
    (hd : (rs.map Prod.fst).Nodup) (hb : body.Gives s fun r t => r = rs ∧ t = s) : Completes c s fun t => s.Served t rs := by
  obtain ⟨t, ht, hp, -⟩ := completes_service (F := {}) (P := fun _ => True) hx h hd (hb.mono fun r t ⟨hr, he⟩ => ⟨hr, by rw [he]; rfl,
    by rw [he]; exact s.within_refl _, fun _ => trivial⟩)
  exact ⟨t, ht, hp⟩

/-- At the entry of the services that another SVC led to nothing happens. -/
theorem service_elsewhere {body : M (List (Nat × Nat))} (hx : s.executes = true) (hpc : s.core.pc = romSvc) (hs : s.core.svc ≠ some n) :
    (service n body).run s = s := by
  rw [service, called, run_getS, if_pos hx, if_pos hpc, if_neg hs]
  rfl

end Sys2Proof.Machine
end

section
/-!
The pulses of an erase are counted in eleven bits (R282): the statement about a pulse's end takes a count above them.
-/
namespace Sys2Proof.Machine
open Sys2Proof.Reg

/-- The units at rest, the journal's first sector open. -/
def journalDev : Dev := { flash := { jOpen := true } }

/-- After reset: block 16 being erased, as many pulses counted as FLASHC_STAT can show. -/
def longErase : State :=
  (((State.reset.put FLASHC_STAT_PULSES 2047).put FLASHC_STAT_UNIT 16).put FLASHC_STAT_STATE 1).live fun _ => journalDev

theorem longErase_dev : longErase.dev = journalDev := by rw [longErase, State.live_dev]

/-- Refutes O40: after a pulse that is the 2,048th, PULSES cannot show it. -/
theorem not_flashErasing : ¬ Obligations.FlashErasing := by
  intro h
  have hinv : longErase.Inv := ((((resetInv.put _ _).put _ _).put _ _).live _)
  have hp : longErase.fld FLASHC_STAT_PULSES = 2047 := by rw [longErase, State.live_fld]; decide
  have hu : longErase.fld FLASHC_STAT_UNIT = 16 := by rw [longErase, State.live_fld]; decide
  have hs : longErase.fld FLASHC_STAT_STATE = 1 := by rw [longErase, State.live_fld]; decide
  obtain ⟨hpulse, -⟩ := h longErase hinv
  obtain ⟨⟨t, -, -, -, -, hn, -⟩, -⟩ := hpulse hs (by rw [hu]; decide) (by rw [hu]; decide) (by rw [hp]; decide)
    (by rw [longErase_dev]; decide)
  have hlt : t.fld FLASHC_STAT_PULSES < 2048 := Nat.mod_lt _ (by decide)
  rw [hn, hp] at hlt
  exact absurd hlt (by decide)

end Sys2Proof.Machine
end

section
/-!
Octets of numbers, of lists and of memory: little-endian values, stretches joined and cut, checksums within their width.
-/
namespace Sys2Proof.Machine
open Sys2Proof.Reg

variable {s t u : State} {l : List Byte}

theorem leNat_leBytes (n v : Nat) : leNat (leBytes n v) = v % 256 ^ n := by
  induction n generalizing v with
  | zero => simp [leBytes, leNat, Nat.mod_one]
  | succ n ih =>
    rw [leBytes, leNat, ih, BitVec.toNat_ofNat, Nat.pow_succ' (m := 256)]
    exact Nat.mod_mul.symm

/-! ### CRC-32 is a number of 32 bits -/

theorem times_lt {f : Nat → Nat} {b : Nat} (h : ∀ x < b, f x < b) (n : Nat) {x : Nat} (hx : x < b) : times n f x < b := by
  induction n generalizing x with
  | zero => exact hx
  | succ n ih => exact ih (h x hx)

theorem crcReflStep_lt {acc : Nat} (h : acc < 2 ^ 32) (b : Byte) : crcReflStep 0xEDB88320 acc b < 2 ^ 32 := by
  refine times_lt (fun x hx => ?_) 8 (Nat.xor_lt_two_pow h (by have := b.isLt; omega))
  split
  · exact Nat.xor_lt_two_pow (by omega) (by decide)
  · omega

theorem crc32_lt (l : List Byte) : crc32 l < 2 ^ 32 := by
  have key : ∀ (l : List Byte) (acc : Nat), acc < 2 ^ 32 → l.foldl (crcReflStep 0xEDB88320) acc < 2 ^ 32 := fun l => by
    induction l with
    | nil => exact fun _ h => h
    | cons b l ih => exact fun acc h => ih _ (crcReflStep_lt h b)
  exact Nat.xor_lt_two_pow (key l _ (by decide)) (by decide)

theorem leNat_crc32 (l : List Byte) : leNat (leBytes 4 (crc32 l)) = crc32 l := by
  rw [leNat_leBytes, Nat.mod_eq_of_lt (by exact crc32_lt l)]

/-! ### Stretches -/

@[simp] theorem sliceOf_length (l : List Byte) (i n : Nat) : (sliceOf l i n).length = n := by simp [sliceOf]

theorem sliceOf_eq {i n : Nat} (h : i + n ≤ l.length) : sliceOf l i n = (l.drop i).take n := by
  refine List.ext_getElem (by simp; omega) fun k h1 h2 => ?_
  simp only [sliceOf_length] at h1
  simp only [sliceOf, List.getElem_map, List.getElem_range, List.getElem_take, List.getElem_drop]
  exact List.getD_eq_getElem _ _ (by omega)

@[simp] theorem State.bytes_length (s : State) (a n : Nat) : (s.bytes a n).length = n := by simp [State.bytes]

theorem State.bytes_add (s : State) (a m n : Nat) : s.bytes a (m + n) = s.bytes a m ++ s.bytes (a + m) n := by
  simp [State.bytes, List.range_add, Nat.add_assoc, Function.comp_def]

theorem State.bytes_take (s : State) (a : Nat) {m n : Nat} (h : m ≤ n) : (s.bytes a n).take m = s.bytes a m := by
  obtain ⟨k, rfl⟩ := Nat.exists_eq_add_of_le h
  rw [State.bytes_add, List.take_left' (State.bytes_length _ _ _)]

theorem State.bytes_drop (s : State) (a m n : Nat) : (s.bytes a (m + n)).drop m = s.bytes (a + m) n := by
  rw [State.bytes_add, List.drop_left' (State.bytes_length _ _ _)]

/-- A stretch of what stands in memory. -/
theorem State.bytes_of_bytes {a n : Nat} (h : s.bytes a n = l) {i k : Nat} (hk : i + k ≤ n) : s.bytes (a + i) k = (l.drop i).take k := by
  obtain ⟨j, rfl⟩ := Nat.exists_eq_add_of_le hk
  rw [← h, Nat.add_assoc, State.bytes_drop, State.bytes_take _ _ (Nat.le_add_right k j)]

theorem State.byte_of_bytes {a n : Nat} (h : s.bytes a n = l) {i : Nat} (hi : i < n) : s.byte (a + i) = l.getD i 0 := by
  rw [← h, List.getD_eq_getElem _ _ (by simpa using hi)]
  simp [State.bytes]

/-- Octets stored elsewhere leave a stretch as it is. -/
theorem State.putMem_bytes_other {a b n : Nat} (h : b + n ≤ a ∨ a + l.length ≤ b) : (s.putMem a l).bytes b n = s.bytes b n := by
  refine List.ext_getElem (by simp) fun i h1 h2 => ?_
  simp only [State.bytes_length] at h1
  simp only [State.bytes, List.getElem_map, List.getElem_range, State.putMem_byte]
  exact if_neg (by omega)

/-- Two stretches stored one after the other are one stretch. -/
theorem State.putMem_append (s : State) (a : Nat) (l m : List Byte) : s.putMem a (l ++ m) = (s.putMem a l).putMem (a + l.length) m := by
  induction l generalizing s a with
  | nil => rfl
  | cons b l ih => rw [List.cons_append, State.putMem, State.putMem, ih, List.length_cons]; congr 1; omega

@[simp] theorem State.putMem_fld (s : State) (a : Nat) (l : List Byte) (f : Fld) : (s.putMem a l).fld f = s.fld f := by
  rw [State.fld, State.putMem_reg, State.fld]
@[simp] theorem State.putMem_bit (s : State) (a : Nat) (l : List Byte) (f : Fld) : (s.putMem a l).bit f = s.bit f := by
  rw [State.bit, State.putMem_fld, State.bit]

end Sys2Proof.Machine
end

section
/-!
The end of a heat (R450–R455) and the tally unit (R458–R463).
-/
namespace Sys2Proof.Machine
open Sys2Proof.Reg

variable {s t : State}

/-! ### Counts written one after the other -/

/-- Counts with the values of a list of entries written into them. -/
def ctrsSet (key val : Nat → Nat) (l : List Nat) (c : Sparse Nat) : Sparse Nat :=
  l.foldl (fun c e => Sparse.set (fun _ => 0) c (key e) (val e)) c

theorem ctrsSet_other {key val : Nat → Nat} {l : List Nat} {k : Nat} (h : ∀ e ∈ l, key e ≠ k) (c : Sparse Nat) :
    Sparse.get (fun _ => 0) (ctrsSet key val l c) k = Sparse.get (fun _ => 0) c k := by
  induction l generalizing c with
  | nil => rfl
  | cons e l ih =>
    rw [ctrsSet, List.foldl_cons]
    exact (ih (fun x hx => h x (by simp [hx])) _).trans (Sparse.get_set_other _ _ _ _ _ (Ne.symm (h e (by simp))))

theorem ctrsSet_mem {key val : Nat → Nat} {l : List Nat} (hl : l.Nodup) (hk : ∀ e ∈ l, ∀ x ∈ l, key e = key x → e = x) {e : Nat}
    (he : e ∈ l) (c : Sparse Nat) : Sparse.get (fun _ => 0) (ctrsSet key val l c) (key e) = val e := by
  induction l generalizing c with
  | nil => cases he
  | cons x l ih =>
    obtain ⟨hx, hl⟩ := List.nodup_cons.mp hl
    rw [ctrsSet, List.foldl_cons]
    rcases List.mem_cons.mp he with rfl | he
    · refine (ctrsSet_other (fun y hy h => hx ?_) _).trans (Sparse.get_set_same _ _ _ _)
      exact hk y (by simp [hy]) e (by simp) h ▸ hy
    · exact ih hl (fun a ha b hb => hk a (by simp [ha]) b (by simp [hb])) he _

theorem run_forAll_setCtr (p : Nat) (item w val : Nat → Nat) (l : List Nat) (f : Unit → M Unit) (s : State) :
    ((forAll l fun e => setCtr p (item e) (w e) (val e)) >>= f).run s =
      (f ()).run (s.live fun d => { d with ctr := ctrsSet (fun e => ctrKey p (item e) (w e)) val l d.ctr }) := by
  induction l generalizing s with
  | nil => rfl
  | cons e l ih => rw [forAll_cons, run_assoc, run_setCtr_bind]; exact ih _

/-! ### A heat's end -/

/-- The statistics shadowed, every count but the lanes' restarted, the store's level taken (R451, R453, R454). -/
def State.heatEnded (s : State) : State :=
  let v := s.fld GOV_LEVEL_VSTORE
  (((((((((s.live fun d => { d with ctr := ctrsSet (fun e => ctrKey statsPage (0x10 + e / 4) (e % 4)) s.statLive (List.range 32) d.ctr }).live
    fun d => { d with ctr := Sparse.drop (fun k => restartsWithHeat k) d.ctr }).live
    fun d => { d with ctr := ctrsSet (fun e => ctrKey statsPage (0x20 + e / 4) (e % 4)) (fun _ => 0) (List.range 32) d.ctr }).live
    fun d => { d with gov := { d.gov with measured := false } }).counted govPage 1 0 v).counted govPage 1 1 v).counted statsPage 0x26 0 v).counted
      statsPage 0x26 1 v).live fun d => { d with heat := { start := s.dev.time.ao } })

theorem heatEnd_run (s : State) : heatEnd.run s =
    (emit statsPage 0x59).run ((s.heatEnded.putReg STATS_HEAT (s.reg STATS_HEAT + 1)).put STATS_STAT_HEATF 1) := by
  simp only [heatEnd, modGov, modHeat, run_getS, run_forAll_setCtr, run_modDev_bind, run_setCtr_bind, run_wr_bind, run_setFld_bind]
  rw [State.heatEnded]

theorem State.heatEnded_ctr (s : State) {p i w : Nat} (h : ∀ x ∈ [ctrKey govPage 1 0, ctrKey govPage 1 1, ctrKey statsPage 0x26 0,
      ctrKey statsPage 0x26 1], ctrKey p i w ≠ x) :
    s.heatEnded.ctr p i w = Sparse.get (fun _ => 0)
      (ctrsSet (fun e => ctrKey statsPage (0x20 + e / 4) (e % 4)) (fun _ => 0) (List.range 32)
        (Sparse.drop (fun k => restartsWithHeat k)
          (ctrsSet (fun e => ctrKey statsPage (0x10 + e / 4) (e % 4)) s.statLive (List.range 32) s.dev.ctr))) (ctrKey p i w) := by
  rw [State.heatEnded, State.ctr_live rfl, State.ctr_counted_other (h _ (by simp)), State.ctr_counted_other (h _ (by simp)),
    State.ctr_counted_other (h _ (by simp)), State.ctr_counted_other (h _ (by simp))]
  simp only [State.ctr, State.live_dev]

theorem ctrKey_eq (p b e : Nat) : ctrKey p (b + e / 4) (e % 4) = p * 0x100000 + 4 * b + e := by
  rw [ctrKey]
  omega

/-- The shadow of a statistic. -/
theorem State.heatEnded_shadow (s : State) {e : Nat} (he : e < 32) : s.heatEnded.statShadow e = s.statLive e := by
  have h40 : ctrKey statsPage (0x10 + e / 4) (e % 4) = statsPage * 0x100000 + 4 * 0x10 + e := ctrKey_eq _ _ _
  rw [State.statShadow, State.heatEnded_ctr s fun x hx => ?_, ctrsSet_other fun x hx => ?_, Sparse.get_drop, if_neg ?_]
  · refine ctrsSet_mem (key := fun e => ctrKey statsPage (0x10 + e / 4) (e % 4)) List.nodup_range (fun x hx y hy hxy => ?_)
      (List.mem_range.mpr he) _
    rw [ctrKey_eq, ctrKey_eq] at hxy
    omega
  · have : (statsPage * 0x100000 + 4 * 0x10 + e) / 0x100000 = statsPage := by omega
    rw [h40, restartsWithHeat, this]
    decide
  · have hx := List.mem_range.mp hx
    rw [h40, ctrKey_eq]
    omega
  · rw [h40]
    simp only [List.mem_cons, List.not_mem_nil, or_false] at hx
    rcases hx with rfl | rfl | rfl | rfl <;> rw [ctrKey] <;> norm_num <;> omega

/-- A statistic of its own counts from 0 again. -/
theorem State.heatEnded_live (s : State) {e : Nat} (he : e < 24) : s.heatEnded.ctr statsPage (0x20 + e / 4) (e % 4) = 0 := by
  have h80 : ctrKey statsPage (0x20 + e / 4) (e % 4) = statsPage * 0x100000 + 4 * 0x20 + e := ctrKey_eq _ _ _
  rw [State.heatEnded_ctr s fun x hx => ?_]
  · refine ctrsSet_mem (key := fun e => ctrKey statsPage (0x20 + e / 4) (e % 4)) List.nodup_range (fun x hx y hy hxy => ?_)
      (List.mem_range.mpr (by omega)) _
    rw [ctrKey_eq, ctrKey_eq] at hxy
    omega
  · rw [h80]
    simp only [List.mem_cons, List.not_mem_nil, or_false] at hx
    rcases hx with rfl | rfl | rfl | rfl <;> rw [ctrKey] <;> norm_num <;> omega

/-- A count of a cluster that is none of STATS. -/
theorem State.heatEnded_count (s : State) {p i w : Nat} (hp : p ∈ [hostpPage, linkPage, lanesPage]) (hi : i < 0x1000) (hw : w < 4) :
    s.heatEnded.ctr p i w = if p = lanesPage then s.ctr p i w else 0 := by
  have hk : ctrKey p i w / 0x100000 = p := by rw [ctrKey]; omega
  have hne : ∀ q ∈ [govPage, statsPage], p ≠ q :=
    (show ∀ p ∈ [hostpPage, linkPage, lanesPage], ∀ q ∈ [govPage, statsPage], p ≠ q by decide) p hp
  have off : ∀ q j v, q ∈ [govPage, statsPage] → j < 0x1000 → v < 4 → ctrKey p i w ≠ ctrKey q j v := fun q j v hq hj hv h => by
    have : ctrKey q j v / 0x100000 = q := by rw [ctrKey]; omega
    rw [h, this] at hk
    exact hne q hq hk.symm
  rw [State.heatEnded_ctr s fun x hx => ?_, ctrsSet_other fun x hx => ?_, Sparse.get_drop, restartsWithHeat, hk, ctrsSet_other fun x hx => ?_]
  · have hs : p ≠ statsPage := hne _ (by simp)
    by_cases hl : p = lanesPage
    · simp [hl, State.ctr]
    · simp [hl, hs]
  · have := List.mem_range.mp hx
    exact (off _ _ _ (by simp) (by omega) (by omega)).symm
  · have := List.mem_range.mp hx
    exact (off _ _ _ (by simp) (by omega) (by omega)).symm
  · simp only [List.mem_cons, List.not_mem_nil, or_false] at hx
    rcases hx with rfl | rfl | rfl | rfl
    all_goals exact off _ _ _ (by simp) (by decide) (by decide)


theorem State.heatEnded_dev (s : State) :
    s.heatEnded.dev.time = s.dev.time ∧ s.heatEnded.dev.heat = { start := s.dev.time.ao } ∧ s.heatEnded.dev.keys = s.dev.keys := by
  simp only [State.heatEnded, State.live_dev, State.counted_dev, and_self]

theorem State.heatEnded_gov (s : State) : s.heatEnded.ctr govPage 1 0 = s.fld GOV_LEVEL_VSTORE ∧
    s.heatEnded.ctr govPage 1 1 = s.fld GOV_LEVEL_VSTORE := by
  constructor <;> rw [State.heatEnded, State.ctr_live rfl, State.ctr_counted_other (by decide), State.ctr_counted_other (by decide)]
  · rw [State.ctr_counted_other (by decide), State.ctr_counted_same]
  · rw [State.ctr_counted_same]

theorem State.did_heatEnded {noted : List Nat} (h : s.Inv) : s.Did s.heatEnded [] noted :=
  (((((((((did_refl h).lived (by rfl)).lived (by rfl)).lived (by rfl)).lived (by rfl)).counted _ _ _ _).counted _ _ _ _).counted _ _ _ _).counted
    _ _ _ _).lived (by rfl)


theorem State.heatEnded_events (s : State) : s.heatEnded.events = s.events := by
  simp only [State.heatEnded, State.counted, State.live_events]

theorem heatEnd_completes (h : s.Inv) : Completes .heatEnd s fun t =>
    (∀ e < 32, t.statShadow e = s.statLive e) ∧ (∀ e, 2 ≤ e → e < 24 → t.statLive e = 0) ∧ t.statLive 1 = 0 ∧
    t.statLive 0 = (s.statLive 0 + 1) % 2 ^ 32 ∧ t.ctr govPage 1 0 = s.fld GOV_LEVEL_VSTORE ∧ t.ctr govPage 1 1 = s.fld GOV_LEVEL_VSTORE ∧
    (∀ item w, item < 0x1000 → w < 4 → t.ctr hostpPage item w = 0 ∧ t.ctr linkPage item w = 0 ∧ t.ctr lanesPage item w = s.ctr lanesPage item w) ∧
    t.dev.heat = { start := s.dev.time.ao } ∧ t.events = s.events ++ [0x59] ∧
    s.Sets t [(⟨STATS_HEAT, 31, 0⟩, (s.reg STATS_HEAT + 1).toNat), (STATS_STAT_HEATF, 1)] (perfOf statsPage) := by
  refine completes_run rfl ?_
  rw [heatEnd_run]
  have hdid := (((State.did_heatEnded h (noted := perfOf statsPage)).wrote (a := STATS_HEAT) (v := s.reg STATS_HEAT + 1) (by decide)).puts
    (f := STATS_STAT_HEATF) (v := 1) (by decide)).emits (p := statsPage) (e := 0x59) (by decide) (by exact fun _ => .inr)
  generalize hu : (s.heatEnded.putReg STATS_HEAT (s.reg STATS_HEAT + 1)).put STATS_STAT_HEATF 1 = u at hdid
  obtain ⟨htime, hheat, -⟩ := s.heatEnded_dev
  have hctr : ∀ p i w, (latchEdges s ((emit statsPage 0x59).run u)).ctr p i w = s.heatEnded.ctr p i w := fun p i w => by
    rw [State.ctr, latchEdges_dev, ← State.ctr, State.ctr_emit, ← hu, State.ctr_put, State.ctr_putReg]
  have hreg : (latchEdges s ((emit statsPage 0x59).run u)).reg STATS_HEAT = s.reg STATS_HEAT + 1 := by
    rw [latchEdges_reg, emit_reg (by decide), ← hu, State.reg_put_other _ (by decide), State.reg_putReg_whole (by decide)]
  have hdev : (latchEdges s ((emit statsPage 0x59).run u)).dev.time = s.dev.time ∧
      (latchEdges s ((emit statsPage 0x59).run u)).dev.heat = { start := s.dev.time.ao } := by
    rw [latchEdges_dev, emit_dev, ← hu, State.dev_put, State.dev_putReg]
    exact ⟨htime, hheat⟩
  have hev : (latchEdges s ((emit statsPage 0x59).run u)).events = s.events ++ [0x59] := by
    rw [latchEdges_events, emit_events (by decide), ← hu, State.events_put, State.events_putReg, State.heatEnded_events]
  have hsets := hdid.latched s
  generalize latchEdges s ((emit statsPage 0x59).run u) = t at *
  refine ⟨fun e he => ?_, fun e h2 he => ?_, ?_, ?_, ?_, ?_, fun item w hi hw => ⟨?_, ?_, ?_⟩, hdev.2, hev, hsets⟩
  · exact (hctr _ _ _).trans (s.heatEnded_shadow he)
  · rw [State.statLive, if_neg (by omega), if_neg (by omega), if_neg (by omega)]
    exact (hctr _ _ _).trans (s.heatEnded_live he)
  · rw [State.statLive, if_neg (by decide), if_pos rfl, hdev.1, hdev.2, Nat.sub_self]
    rfl
  · rw [State.statLive, State.statLive, if_pos rfl, if_pos rfl, hreg, BitVec.toNat_add]
    simp
  · rw [hctr, s.heatEnded_gov.1]
  · rw [hctr, s.heatEnded_gov.2]
  · rw [hctr, s.heatEnded_count (by simp) hi hw, if_neg (by decide)]
  · rw [hctr, s.heatEnded_count (by simp) hi hw, if_neg (by decide)]
  · rw [hctr, s.heatEnded_count (by simp) hi hw, if_pos rfl]

/-! ### The tally unit -/

theorem tallySnapshot_starts (h : s.Inv) (hen : s.en tallyPage = true) (hb : s.bit TALLY_STAT_BUSY = false) :
    Completes .tallySnapshot s fun t =>
      t.dev.tally = { s.dev.tally with seq := s.dev.tally.seq + 1, snap := s.tallyImage } ∧ s.Sets t [(TALLY_STAT_BUSY, 1)] := by
  refine completes_run rfl ?_
  simp only [run_getS, hen, hb, if_true, Bool.not_false, tallyStart, modTally, run_modDev_bind, run_setFld]
  exact ⟨by rw [latchEdges_dev, State.dev_put, State.live_dev], (((did_refl h).lived (by rfl)).puts (by decide)).latched s⟩

theorem tallySnapshot_off (hen : s.en tallyPage = false) : Completes .tallySnapshot s fun t => t.dev.tally = s.dev.tally ∧ s.Within {} t := by
  refine completes_run rfl ?_
  simp only [hen]
  exact ⟨by rw [latchEdges_dev]; rfl, (s.within_refl _).latch⟩

theorem tallySnapshotDone_idle (hb : s.bit TALLY_STAT_BUSY = false) :
    Completes .tallySnapshotDone s fun t => t.dev.tally = s.dev.tally ∧ s.Within {} t := by
  refine completes_run rfl ?_
  simp only [hb]
  exact ⟨by rw [latchEdges_dev]; rfl, (s.within_refl _).latch⟩

/-- A snapshot that is complete stands in its slot of the ring. -/
def State.snapped (s : State) : State :=
  (((s.putMem (s.fld TALLY_BASE_BASE * 16 + s.fld TALLY_STAT_WR * s.tallySlot) s.dev.tally.snap).live
    fun d => { d with tally := { d.tally with snap := [] } }).put TALLY_STAT_BUSY 0).put TALLY_STAT_WR
      ((s.fld TALLY_STAT_WR + 1) % (s.fld TALLY_DEPTH_DEPTH + 1))

theorem run_putBytes_bind (a : Nat) (l : List Byte) (f : Unit → M Unit) (s : State) :
    (putBytes a l >>= f).run s = (f ()).run (s.putMem a l) :=
  (gives_putBytes (Q := fun _ t => t = s.putMem a l) rfl).run_bind_to f

theorem tallySnapshotDone_ends (h : s.Inv) (hb : s.bit TALLY_STAT_BUSY = true) {base : Nat}
    (hbase : base = 16 * s.fld TALLY_BASE_BASE + s.fld TALLY_STAT_WR * (16 + 16 * s.tallyPages.length)) :
    Completes .tallySnapshotDone s fun t =>
      (∀ i < s.dev.tally.snap.length, t.byte (base + i) = octet s.dev.tally.snap i) ∧ t.dev.tally.snap = [] ∧
      s.Sets t [(TALLY_STAT_BUSY, 0), (TALLY_STAT_WR, (s.fld TALLY_STAT_WR + 1) % (s.fld TALLY_DEPTH_DEPTH + 1))] []
        { mem := fun a => decide (base ≤ a ∧ a < base + s.dev.tally.snap.length) } := by
  have hb' : s.fld TALLY_BASE_BASE * 16 + s.fld TALLY_STAT_WR * s.tallySlot = base := by rw [hbase, State.tallySlot]; omega
  refine completes_run rfl ?_
  simp only [hb, if_true, modTally, run_putBytes_bind, run_modDev_bind, run_setFld_bind, run_setFld]
  rw [← State.snapped]
  refine ⟨fun i hi => ?_, ?_, ?_⟩
  · rw [State.snapped, latchEdges_byte, State.byte_put, State.byte_put, State.live_byte, hb', State.putMem_byte, if_pos (by omega),
      Nat.add_sub_cancel_left, octet]
  · rw [State.snapped, latchEdges_dev, State.dev_put, State.dev_put, State.live_dev]
  · rw [State.snapped, hb']
    exact (((((did_refl h).putMem fun i hi => decide_eq_true ⟨by omega, by omega⟩).lived (by simp)).puts (by decide)).puts (by decide)).latched s


/-- The registers of the sampling buffer. -/
def inTallyBuf (a : Nat) : Bool := decide (TALLY_BUF 0 0 ≤ a) && decide (a < TALLY_BUF 64 0)

/-- The sampling buffer emptied. -/
def State.bufEmptied (s : State) : State :=
  (((Prim.run (.regClear inTallyBuf) s).put TALLY_BUFSTAT_FULL 0).put TALLY_BUFSTAT_N 0).live
    fun d => { d with tally := { d.tally with next := 0, left := 0 } }

theorem State.bufEmptied_reg (s : State) {a : Nat} (h : a ≠ TALLY_BUFSTAT) :
    s.bufEmptied.reg a = if inTallyBuf a then resetWord a else s.reg a := by
  rw [State.bufEmptied, State.live_reg, State.reg_put_other _ h, State.reg_put_other _ h]
  exact Sparse.get_drop _ _ _ _

theorem tallyBufferClear_completes (s : State) : Completes .tallyBufferClear s fun t =>
    t.Cleared (fun a => decide (TALLY_BUF 0 0 ≤ a) && decide (a < TALLY_BUF 64 0)) [] ∧ t.fld TALLY_BUFSTAT_N = 0 ∧
    t.bit TALLY_BUFSTAT_FULL = false ∧ t.dev.tally.next = 0 ∧
    s.Within { regs := fun a => decide (TALLY_BUF 0 0 ≤ a ∧ a < TALLY_BUF 64 0 ∨ a = TALLY_BUFSTAT) } t := by
  have hrun : tallyBufClear.run s = s.bufEmptied := by rw [State.bufEmptied]; rfl
  refine completes_run (m := tallyBufClear) rfl ?_
  rw [hrun]
  refine ⟨fun a ha _ => ?_, ?_, ?_, ?_, ?_⟩
  · have hne : a ≠ TALLY_BUFSTAT := by rintro rfl; revert ha; decide
    rw [latchEdges_reg, s.bufEmptied_reg hne]
    exact if_pos ha
  · rw [latchEdges_fld, State.bufEmptied, State.live_fld, State.fld_put_same (Fld.full_of_settable (by decide))]
    rfl
  · rw [latchEdges_bit, State.bufEmptied, State.live_bit, State.bit_put_apart (Fld.full_of_settable (by decide)) (Fld.full_of_settable (by decide)) _ (by decide),
      State.bit_put_same (Fld.full_of_settable (by decide))]
    rfl
  · rw [latchEdges_dev, State.bufEmptied, State.live_dev]
  · have hclear : s.Within { regs := fun a => decide (TALLY_BUF 0 0 ≤ a ∧ a < TALLY_BUF 64 0 ∨ a = TALLY_BUFSTAT) }
        (Prim.run (.regClear inTallyBuf) s) :=
      ((keeps_regClear fun a ha => by
        have ha : TALLY_BUF 0 0 ≤ a ∧ a < TALLY_BUF 64 0 := by simpa [inTallyBuf] using ha
        exact decide_eq_true (.inl ha)).all s).run
    rw [State.within_latch_iff, State.bufEmptied, State.within_live_iff rfl, State.within_put_iff (by decide), State.within_put_iff (by decide)]
    exact hclear

end Sys2Proof.Machine
end

section
/-!
The logbook's ring (R464–R470): one record committed, or what keeps it staged.
-/
namespace Sys2Proof.Machine
open Sys2Proof.Reg

variable {s t u : State} {vsys : Nat} {r : List Byte} {failAt : Option Nat}

theorem Completes.imp {c : Instr} {P Q : State → Prop} (h : Completes c s P) (g : ∀ t, P t → Q t) : Completes c s Q := by
  obtain ⟨t, ht, hp⟩ := h
  exact ⟨t, ht, g t hp⟩

/-- A footprint of memory and the core lies within any that has them. -/
theorem State.Within.of_memCore {p : Nat → Bool} {F : Foot} (h : s.Within { mem := p, core := true } t) (hm : ∀ a, p a = true → F.mem a = true)
    (hc : F.core = true) : s.Within F t :=
  ⟨fun a _ => h.regs a rfl, fun a ha => h.mem a (Bool.eq_false_iff.mpr fun hp => absurd (ha.symm.trans (hm a hp)) (by decide)), fun x _ => h.tab x rfl,
    fun _ => h.otp rfl, fun _ => h.bad rfl, fun hf => absurd (hf.symm.trans hc) (by decide), fun _ => h.keys rfl, h.pending⟩

/-! ### Free values -/

/-- A state that differs in the free values drawn alone. -/
def State.Drawn (s t : State) : Prop := t = { s with free := t.free }

theorem State.Drawn.trans (h : s.Drawn t) (g : t.Drawn u) : s.Drawn u := by
  obtain ⟨k, rfl⟩ : ∃ k, t = { s with free := k } := ⟨_, h⟩
  exact g

theorem State.Drawn.within {F : Foot} (h : s.Drawn t) : s.Within F t := by
  obtain ⟨k, rfl⟩ : ∃ k, t = { s with free := k } := ⟨_, h⟩
  exact ⟨fun _ _ => rfl, fun _ _ => rfl, fun x _ _ => by cases x <;> rfl, fun _ _ => rfl, fun _ => rfl, fun _ => rfl, fun _ => rfl, rfl⟩

theorem State.Drawn.core (h : s.Drawn t) : t.core = s.core := by rw [h]
theorem State.Drawn.dev (h : s.Drawn t) : t.dev = s.dev := by rw [h]
theorem State.Drawn.byte (h : s.Drawn t) (a : Nat) : t.byte a = s.byte a := (h.within (F := {})).mem a rfl

theorem gives_freeNat_drawn : freeNat.Gives s fun _ t => s.Drawn t := gives_bind (gives_getS (gives_bind (gives_act (gives_pure rfl))))

theorem gives_freeBytes_drawn (n : Nat) : (freeBytes n).Gives s fun l t => l.length = n ∧ s.Drawn t := by
  induction n generalizing s with
  | zero => exact gives_pure ⟨rfl, rfl⟩
  | succ n ih =>
    refine gives_bind (gives_bind (gives_freeNat_drawn.mono fun k t ht => gives_pure (gives_bind (ih.mono ?_))))
    rintro l u ⟨hl, hu⟩
    exact gives_pure ⟨by rw [List.length_cons, hl], ht.trans hu⟩

theorem State.sameCore_dropCache (h : s.core.Legal) : s.SameCore (s.recore fun c => { c with icache := [] }) :=
  (Core.norm_of_legal (c := { s.core with icache := [] }) h : _)

/-! ### A unit of flash left with undefined contents -/

/-- From one state to the next some octets of memory, what is known of their errors and the instruction cache may have changed. -/
structure State.Burnt (s t : State) (p : Nat → Bool) : Prop where
  within : s.Within { mem := p, core := true } t
  core : s.SameCore t
  dev : t.dev = { s.dev with eccBad := t.dev.eccBad }

theorem State.burnt_refl (s : State) (p : Nat → Bool) : s.Burnt s p := ⟨s.within_refl _, rfl, rfl⟩

theorem State.Burnt.trans {p : Nat → Bool} (h : s.Burnt t p) (g : t.Burnt u p) : s.Burnt u p := by
  refine ⟨h.within.trans g.within, ?_, ?_⟩
  · have hc : u.core = { t.core with icache := u.core.icache } := g.core
    have hs : t.core = { s.core with icache := t.core.icache } := h.core
    show u.core = { s.core with icache := u.core.icache }
    rw [hs] at hc
    exact hc
  · have hc := g.dev
    rw [h.dev] at hc
    exact hc

theorem State.Drawn.burnt (h : s.Drawn t) (p : Nat → Bool) : s.Burnt t p :=
  ⟨h.within, by rw [State.SameCore, h.core], by rw [h.dev]⟩

theorem burnt_putMem {p : Nat → Bool} {a : Nat} {l : List Byte} (h : ∀ i < l.length, p (a + i) = true) : s.Burnt (s.putMem a l) p :=
  ⟨State.putMem_within h, by rw [State.SameCore, State.putMem_core], by rw [State.putMem_dev]⟩

theorem gives_spoilUnit {a : Nat} {p : Nat → Bool} (h : ∀ i < 16, p (a + i) = true) : (spoilUnit a).Gives s fun _ t => s.Burnt t p := by
  refine gives_bind ((gives_freeBytes_drawn 16).mono ?_)
  rintro l t ⟨hl, ht⟩
  refine gives_bind (gives_freeNat_drawn.mono fun k u hu => gives_bind (gives_putBytes ?_))
  have hb : s.Burnt (u.putMem a l) p := ((ht.trans hu).burnt p).trans (burnt_putMem (by rw [hl]; exact h))
  split
  · exact gives_act (hb.trans ⟨State.within_live _ rfl, rfl, rfl⟩)
  · exact gives_nop hb

/-! ### One record -/

/-- What keeps the record with SEQ q from being committed, in the order of the checks: a flash that is busy, the supply. -/
theorem gives_logPut_low (h1 : s.fld FLASHC_STAT_STATE ≠ 1) (h3 : s.fld FLASHC_STAT_STATE ≠ 3)
    (h2 : s.fld FLASHC_STAT_STATE = 2 → s.logSeq % 64 ≠ 0) (hv : vsys < 2800) (fail : Bool) :
    (logPut r vsys fail).Gives s fun x t => x = (0x30, s.logSeq) ∧ t = s := by
  refine gives_bind (gives_getS ?_)
  rw [if_neg (by tauto), if_pos hv]
  exact gives_pure ⟨rfl, rfl⟩

section
variable (h1 : s.fld FLASHC_STAT_STATE ≠ 1) (h3 : s.fld FLASHC_STAT_STATE ≠ 3) (hq : s.logSeq % 64 ≠ 0) (hv : 2800 ≤ vsys)
include h1 h3 hq hv

/-- The state with a record in the slot of its SEQ, as read afresh. -/
def State.logged (s : State) (r : List Byte) : State :=
  (s.putMem (logSlot s.logSeq) (logSealed r s.logSeq)).recore fun c => { c with icache := [] }

theorem gives_logPut (r : List Byte) : (logPut r vsys false).Gives s fun x t => x = (0, s.logSeq) ∧ t = s.logged r := by
  refine gives_bind (gives_getS ?_)
  rw [if_neg (by tauto), if_neg (by exact Nat.not_lt.mpr hv), if_neg hq]
  refine gives_bind (gives_pure ?_)
  exact gives_bind (gives_putBytes (gives_bind (gives_act (gives_pure ⟨rfl, rfl⟩))))

theorem gives_logPut_fails (r : List Byte) : (logPut r vsys true).Gives s fun x t =>
    x = (0x33, s.logSeq) ∧ s.Burnt t fun a => decide (logSlot s.logSeq ≤ a ∧ a < logSlot s.logSeq + 64) := by
  refine gives_bind (gives_getS ?_)
  rw [if_neg (by tauto), if_neg (by exact Nat.not_lt.mpr hv), if_neg hq]
  refine gives_bind (gives_pure ?_)
  simp only [Bool.not_true, Bool.false_eq_true, if_false, if_true]
  refine gives_bind ((gives_forAll (I := fun t => s.Burnt t _) (s.burnt_refl _) fun k hk t ht =>
    (gives_spoilUnit fun i hi => decide_eq_true ?_).mono fun _ u hu => ht.trans hu).mono fun _ t ht => gives_pure ⟨rfl, ht⟩)
  have := List.mem_range.mp hk
  omega

end

/-! ### Calls that commit -/

/-- A service whose third result is open: what the first two say. -/
theorem completes_openAnswer {n st k : Nat} {c : Instr} {body : M (List (Nat × Nat))} {F : Foot} {P : State → Prop}
    (hx : exec c s = cmd s (service n body)) (h : s.Serves n)
    (hb : body.Gives s fun x t => (∃ q, x = ret st [(1, k), (2, q)]) ∧ s.SameCore t ∧ s.Within { F with core := true } t ∧ ∀ x, P (latchEdges s (s.comeBack t x))) :
    Completes c s fun t => t.g 0 = BitVec.ofNat 32 st ∧ t.g 1 = BitVec.ofNat 32 k ∧ P t ∧ s.Within { F with core := true } t := by
  refine ⟨_, hx, (gives_service h hb).run.elim fun _ hv => ?_⟩
  obtain ⟨t, ⟨⟨q, rfl⟩, hc, hw, hp⟩, -, hv⟩ := hv
  have hs : s.Served (latchEdges s (s.comeBack t (ret st [(1, k), (2, q)]))) (ret st [(1, k), (2, q)]) F :=
    served_comeBack h (by simp [ret]) hc hw
  rw [hv]
  exact ⟨hs.regs 0, hs.regs 1, hp _, hs.rest⟩

theorem gives_logAll_stop {x : List Byte × M Unit} {st q : Nat} {Q : State → Prop} (hst : st ≠ 0)
    (h : (logPut x.1 vsys (failAt == some 0)).Gives s fun y t => y = (st, q) ∧ Q t) :
    (logAll vsys failAt none 0 [x]).Gives s fun y t => y = (st, 0, none) ∧ Q t := by
  refine gives_bind (h.mono ?_)
  rintro _ t ⟨rfl, ht⟩
  obtain ⟨k, rfl⟩ := Nat.exists_eq_succ_of_ne_zero hst
  exact gives_pure ⟨rfl, ht⟩

theorem gives_logAll_one {x : List Byte × M Unit} {q : Nat} {Q : State → Prop}
    (h : (logPut x.1 vsys (failAt == some 0)).Gives s fun y t => y = (0, q) ∧ x.2.Gives t fun _ u => Q u) :
    (logAll vsys failAt none 0 [x]).Gives s fun y t => y = (0, 1, some q) ∧ Q t := by
  refine gives_bind (h.mono ?_)
  rintro _ t ⟨rfl, ht⟩
  exact gives_bind (ht.mono fun _ u hu => gives_pure ⟨rfl, hu⟩)

/-- Nothing goes: the count is 0 and the last SEQ open. -/
theorem gives_logCommit_none {own : List (List Byte)} {st : Nat} {Q : State → Prop}
    (h : (logAll vsys failAt none 0 (s.logWork ++ own.map fun r => (r, nop))).Gives s fun y t => y = (st, 0, none) ∧ Q t) :
    (logCommit vsys failAt own).Gives s fun x t => (∃ q, x = ret st [(1, 0), (2, q)]) ∧ ∃ u, Q u ∧ u.Drawn t := by
  refine gives_bind (gives_getS (gives_bind (h.mono ?_)))
  rintro _ t ⟨rfl, ht⟩
  exact gives_bind (gives_freeNat_drawn.mono fun k u hu => gives_pure ⟨⟨_, rfl⟩, t, ht, hu⟩)

theorem gives_logCommit_one {own : List (List Byte)} {q : Nat} {Q : State → Prop}
    (h : (logAll vsys failAt none 0 (s.logWork ++ own.map fun r => (r, nop))).Gives s fun y t => y = (0, 1, some q) ∧ Q t) :
    (logCommit vsys failAt own).Gives s fun x t => x = ret 0 [(1, 1), (2, q % 2 ^ 32)] ∧ Q t := by
  refine gives_bind (gives_getS (gives_bind (h.mono ?_)))
  rintro _ t ⟨rfl, ht⟩
  exact gives_bind (gives_pure (gives_pure ⟨rfl, ht⟩))

/-- The oldest staged record is gone. -/
def dropStaged : M Unit := do
  modDev fun d => { d with staged := d.staged.drop 1 }
  let t ← getS
  setFld LOGB_STAT_COUNT (t.fld LOGB_STAT_COUNT - 1)

theorem State.logWork_eq (hd : s.fld LOGB_STAT_DROPPED = 0) : s.logWork = s.dev.staged.map fun r => (r, dropStaged) := by
  rw [State.logWork, if_neg (not_not.mpr hd), List.append_nil]
  rfl

/-! ### A record as it stands in its slot -/

theorem logSealed_length (hr : r.length = 64) (q : Nat) : (logSealed r q).length = 64 := by
  simp [logSealed, leBytes_length, hr]

theorem logSealed_take (hr : r.length = 64) (q : Nat) :
    (logSealed r q).take 60 = r.take 4 ++ leBytes 4 q ++ (r.drop 8).take 52 := by
  rw [logSealed, sliceOf_eq (by omega)]
  exact List.take_left' (by simp [leBytes_length, hr])

theorem logSealed_drop (hr : r.length = 64) (q : Nat) : leNat ((logSealed r q).drop 60) = crc32 ((logSealed r q).take 60) := by
  rw [logSealed_take hr, logSealed, sliceOf_eq (by omega), List.drop_left' (by simp [leBytes_length, hr]), leNat_crc32]

section
variable (s r)
@[simp] theorem State.logged_dev : (s.logged r).dev = s.dev := by rw [State.logged, State.recore_dev, State.putMem_dev]
@[simp] theorem State.logged_fld (f : Fld) : (s.logged r).fld f = s.fld f := by rw [State.logged, State.recore_fld, State.putMem_fld]
end

theorem State.logged_bytes (hr : r.length = 64) : (s.logged r).bytes (logSlot s.logSeq) 64 = logSealed r s.logSeq := by
  have := (State.putMem_bytes s (logSlot s.logSeq) (logSealed r s.logSeq))
  rw [logSealed_length hr] at this
  exact this

/-- The octets of a slot. -/
def inLogSlot (q a : Nat) : Bool := decide (logSlot q ≤ a ∧ a < logSlot q + 64)

theorem State.logged_burnt (hs : s.Inv) (hr : r.length = 64) : s.Burnt (s.logged r) (inLogSlot s.logSeq) := by
  have hb : s.Burnt (s.putMem (logSlot s.logSeq) (logSealed r s.logSeq)) (inLogSlot s.logSeq) :=
    burnt_putMem fun i hi => decide_eq_true (by rw [logSealed_length hr] at hi; omega)
  refine hb.trans ⟨?_, ?_, rfl⟩
  · rw [State.logged, State.within_recore_iff rfl]
    exact State.within_refl _ _
  · exact State.sameCore_dropCache (by rw [State.putMem_core]; exact hs.core)

/-! ### LOG_COMMIT -/

section
variable (h : s.Serves 0xF010)
include h

theorem logCommit_busy (hb : s.fld FLASHC_STAT_STATE = 1 ∨ s.fld FLASHC_STAT_STATE = 3) (f : Option Nat) :
    Completes (.logCommit vsys f) s fun t => t.g 0 = 2 ∧ t.g 1 = 0 ∧ t.dev.staged = s.dev.staged ∧ s.Within { core := true } t := by
  refine completes_openAnswer (st := 2) (k := 0) (F := {}) rfl h (gives_bind (gives_getS ?_))
  rw [if_pos hb]
  refine gives_bind (gives_freeNat_drawn.mono fun k t ht => gives_pure ⟨⟨_, rfl⟩, (ht.burnt fun _ => false).core, ht.within, fun x => ?_⟩)
  rw [latchEdges_dev, State.comeBack_dev, ht.dev]

variable (h1 : s.fld FLASHC_STAT_STATE ≠ 1) (h3 : s.fld FLASHC_STAT_STATE ≠ 3)
include h1 h3

/-- A commit of nothing that goes. -/
theorem logCommit_none {st : Nat} {p : Nat → Bool}
    (hq : (logAll vsys failAt none 0 s.logWork).Gives s fun y t => y = (st, 0, none) ∧ s.Burnt t p) :
    Completes (.logCommit vsys failAt) s fun t => t.g 0 = BitVec.ofNat 32 st ∧ t.g 1 = 0 ∧ t.dev.staged = s.dev.staged ∧
      s.Within { mem := p, core := true } t := by
  refine completes_openAnswer (st := st) (k := 0) (F := { mem := p }) rfl h (gives_bind (gives_getS ?_))
  rw [if_neg (by tauto)]
  refine (gives_logCommit_none (by rw [List.map_nil, List.append_nil]; exact hq)).mono ?_
  rintro x t ⟨hx, u, hu, ht⟩
  have hb := hu.trans (ht.burnt p)
  exact ⟨hx, hb.core, hb.within, fun x => by rw [latchEdges_dev, State.comeBack_dev, hb.dev]⟩

variable (hd : s.fld LOGB_STAT_DROPPED = 0)
include hd

theorem logCommit_nothing (hs : s.dev.staged = []) (f : Option Nat) :
    Completes (.logCommit vsys f) s fun t => t.g 0 = 0 ∧ t.g 1 = 0 ∧ s.Within { core := true } t := by
  refine (logCommit_none (vsys := vsys) (failAt := f) (st := 0) (p := fun _ => false) h h1 h3 ?_).imp
    fun t ⟨h0, h1, _, hw⟩ => ⟨h0, h1, hw⟩
  rw [s.logWork_eq hd, hs]
  exact gives_pure ⟨rfl, s.burnt_refl _⟩

variable {r : List Byte} (hs : s.dev.staged = [r])
include hs

theorem logCommit_low (h2 : s.fld FLASHC_STAT_STATE = 2 → s.logSeq % 64 ≠ 0) (hv : vsys < 2800) (f : Option Nat) :
    Completes (.logCommit vsys f) s fun t => t.g 0 = 0x30 ∧ t.g 1 = 0 ∧ t.dev.staged = [r] ∧ s.Within { core := true } t := by
  rw [← hs]
  refine logCommit_none (st := 0x30) (p := fun _ => false) h h1 h3 ?_
  rw [s.logWork_eq hd, hs]
  refine gives_logAll_stop (q := s.logSeq) (by decide) ((gives_logPut_low h1 h3 h2 hv _).mono ?_)
  rintro y t ⟨hy, rfl⟩
  exact ⟨hy, State.burnt_refl _ _⟩

variable (hq : s.logSeq % 64 ≠ 0) (hv : 2800 ≤ vsys)
include hq hv

theorem logCommit_fails : Completes (.logCommit vsys (some 0)) s fun t =>
    t.g 0 = 0x33 ∧ t.g 1 = 0 ∧ t.dev.staged = [r] ∧ s.Within { mem := inLogSlot s.logSeq, core := true } t := by
  rw [← hs]
  refine logCommit_none (st := 0x33) h h1 h3 ?_
  rw [s.logWork_eq hd, hs]
  exact gives_logAll_stop (q := s.logSeq) (by decide) (gives_logPut_fails h1 h3 hq hv r)

/-- A record goes into its slot and leaves the staging buffer. -/
theorem logCommit_one (hr : r.length = 64) (hc : s.fld LOGB_STAT_COUNT = 1) : Completes (.logCommit vsys none) s fun t =>
    s.Served t [(0, 0), (1, 1), (2, s.logSeq % 2 ^ 32)] { onlyRegs [LOGB_STAT] with mem := inLogSlot s.logSeq } ∧
    t.dev.staged = [] ∧ t.fld LOGB_STAT_COUNT = 0 ∧ t.bytes (logSlot s.logSeq) 64 = logSealed r s.logSeq := by
  refine completes_service rfl h (by simp) (gives_bind (gives_getS ?_))
  rw [if_neg (by tauto)]
  have hb := s.logged_burnt h.inv hr
  refine (gives_logCommit_one (q := s.logSeq) (Q := fun t => t = ((s.logged r).live fun d => { d with staged := d.staged.drop 1 }).put LOGB_STAT_COUNT 0) ?_).mono ?_
  · rw [s.logWork_eq hd, hs]
    refine gives_logAll_one ((gives_logPut h1 h3 hq hv r).mono ?_)
    rintro y t ⟨rfl, rfl⟩
    refine ⟨rfl, gives_bind (gives_act (gives_bind (gives_getS (gives_setFld ?_))))⟩
    show State.put ((s.logged r).live _) _ (State.fld ((s.logged r).live _) _ - 1) = _
    rw [State.live_fld, State.logged_fld, hc]
  · rintro x t ⟨rfl, rfl⟩
    refine ⟨rfl, ?_, ?_, fun _ => ⟨?_, ?_, ?_⟩⟩
    · rw [State.SameCore, State.core_put, State.live_core]
      exact hb.core
    · rw [State.within_put_iff (by rfl), State.within_live_iff rfl]
      exact hb.within.of_memCore (fun _ h => h) rfl
    · rw [latchEdges_dev, State.comeBack_dev, State.dev_put, State.live_dev, State.logged_dev, hs]
      rfl
    · rw [latchEdges_fld, State.comeBack_fld, State.fld_put_same (Fld.full_of_settable (by decide))]
      rfl
    · rw [latchEdges_bytes, State.comeBack_bytes]
      exact State.logged_bytes hr

end

/-! ### LOG_APPEND -/

section
variable (h : s.Serves 0xF011)
include h

theorem logAppend_refused (hx : bitsGet (s.g 1) 7 0 < 0x80 ∨ (s.g 2).toNat < 0x20000000 ∨ 0x20080000 < (s.g 2).toNat + 40) (f : Option Nat) :
    Completes (.logAppend vsys f) s fun t => t.g 0 = 3 ∧ t.g 1 = 0 ∧ t.dev.staged = s.dev.staged ∧ s.Within { core := true } t := by
  refine completes_openAnswer (st := 3) (k := 0) (F := {}) rfl h (gives_bind (gives_getS ?_))
  have hok : (decide (0x80 ≤ bitsGet (s.g 1) 7 0) && decide (0x20000000 ≤ (s.g 2).toNat ∧ (s.g 2).toNat + 40 ≤ 0x20080000) &&
      s.mayRead (s.g 2).toNat 40) = false := by
    rw [Bool.and_eq_false_iff, Bool.and_eq_false_iff, decide_eq_false_iff_not, decide_eq_false_iff_not]
    omega
  simp only [hok, Bool.not_false, true_or, if_true, Bool.false_eq_true, if_false]
  refine gives_bind (gives_freeNat_drawn.mono fun k t ht => gives_pure ⟨⟨_, rfl⟩, (ht.burnt fun _ => false).core, ht.within, fun x => ?_⟩)
  rw [latchEdges_dev, State.comeBack_dev, ht.dev]

variable (h1 : s.fld FLASHC_STAT_STATE ≠ 1) (h3 : s.fld FLASHC_STAT_STATE ≠ 3) (hd : s.fld LOGB_STAT_DROPPED = 0) (hs : s.dev.staged = [])
  (hq : s.logSeq % 64 ≠ 0) (hv : 2800 ≤ vsys) (ht : 0x80 ≤ bitsGet (s.g 1) 7 0) (hlo : 0x20000000 ≤ (s.g 2).toNat)
  (hhi : (s.g 2).toNat + 40 ≤ 0x20080000) (hc : s.callerTask = false)
include h1 h3 hd hs hq hv ht hlo hhi hc

/-- The caller's record, committed with nothing staged before it. -/
theorem logAppend_one : Completes (.logAppend vsys none) s fun t =>
    s.Served t [(0, 0), (1, 1), (2, s.logSeq % 2 ^ 32)] { mem := inLogSlot s.logSeq } ∧ t.bytes (logSlot s.logSeq) 64 =
      logSealed (s.recordOf (bitsGet (s.g 1) 7 0) false (bitsGet (s.g 1) 15 8) 0 (s.bytes (s.g 2).toNat 40)) s.logSeq := by
  generalize hr : s.recordOf (bitsGet (s.g 1) 7 0) false (bitsGet (s.g 1) 15 8) 0 (s.bytes (s.g 2).toNat 40) = r
  have hlen : r.length = 64 := by rw [← hr]; simp [State.recordOf, leBytes_length]
  refine completes_service rfl h (by simp) (gives_bind (gives_getS ?_))
  have hok : (decide (0x80 ≤ bitsGet (s.g 1) 7 0) && decide (0x20000000 ≤ (s.g 2).toNat ∧ (s.g 2).toNat + 40 ≤ 0x20080000) &&
      s.mayRead (s.g 2).toNat 40) = true := by
    simp [State.mayRead, ht, hlo, hhi, hc]
  simp only [hok, Bool.not_true, Bool.false_eq_true, false_or]
  rw [if_neg (by tauto), hr]
  have hb := s.logged_burnt h.inv hlen
  refine (gives_logCommit_one (q := s.logSeq) (Q := fun t => t = s.logged r) ?_).mono ?_
  · rw [s.logWork_eq hd, hs]
    exact gives_logAll_one ((gives_logPut h1 h3 hq hv r).mono fun y t ⟨hy, hx⟩ => ⟨hy, gives_nop hx⟩)
  · rintro x t ⟨rfl, rfl⟩
    refine ⟨rfl, hb.core, hb.within, fun _ => ?_⟩
    rw [latchEdges_bytes, State.comeBack_bytes]
    exact State.logged_bytes hlen

end

/-! ### The staging page -/

theorem logPop_rom (h : s.Inv) : Completes (.logPop (.core true)) s fun t =>
    t.dev.staged = s.dev.staged.drop 1 ∧ s.Sets t [(LOGB_STAT_COUNT, s.dev.staged.length - 1)] := by
  refine completes_run (m := logPop (.core true)) rfl ?_
  rw [logPop, run_getS, if_pos rfl]
  simp only [run_modDev_bind, run_setFld]
  exact ⟨by rw [latchEdges_dev, State.dev_put, State.live_dev], (((did_refl h).lived (by rfl)).puts (by decide)).latched s⟩

theorem logPop_other (h : s.Inv) {m : Master} (hm : m ≠ .core true) : Completes (.logPop m) s fun t =>
    t.dev.staged = s.dev.staged ∧ s.Reports t logbPage fltState := by
  refine completes_run (m := logPop m) rfl ?_
  rw [logPop, run_getS, if_neg hm]
  exact ⟨by rw [latchEdges_dev, setFlt_dev], (reports_setFlt h (Fld.full_of_settable (by decide)) (by decide)).latch⟩

/-- A sealed record's octets (R465). -/
theorem logSealed_recordOf {type code q : Nat} {p : List Byte} (hp : p.length = 40) :
    ∃ l : List Byte, l.length = 60 ∧ logSealed (s.recordOf type false code 0 p) q = l ++ leBytes 4 (crc32 l) ∧
      l = [0x4C, 0x47, BitVec.ofNat 8 type, BitVec.ofNat 8 (2 * s.fld RTC_STAT_TIME_VALID)] ++ leBytes 4 q ++
        leBytes 4 (s.reg RTC_SECONDS).toNat ++ leBytes 2 s.dev.rtc.prescaler ++ leBytes 1 (s.reg SYS_RSTCAUSE).toNat ++ leBytes 1 code ++
        leBytes 4 0 ++ p := by
  refine ⟨_, ?_, ?_, rfl⟩
  · simp [leBytes_length, hp]
  · have hlen : (s.recordOf type false code 0 p).length = 64 := by simp [State.recordOf, leBytes_length]
    have hs : sliceOf p 0 40 = p := by rw [sliceOf_eq (by omega), List.drop_zero, List.take_of_length_le (by omega)]
    have hl : (s.recordOf type false code 0 p).take 4 ++ leBytes 4 q ++ sliceOf (s.recordOf type false code 0 p) 8 52 =
        [0x4C, 0x47, BitVec.ofNat 8 type, BitVec.ofNat 8 (2 * s.fld RTC_STAT_TIME_VALID)] ++ leBytes 4 q ++
        leBytes 4 (s.reg RTC_SECONDS).toNat ++ leBytes 2 s.dev.rtc.prescaler ++ leBytes 1 (s.reg SYS_RSTCAUSE).toNat ++ leBytes 1 code ++
        leBytes 4 0 ++ p := by
      rw [sliceOf_eq (by omega), State.recordOf, hs]
      simp [leBytes, b2n, hp]
    rw [logSealed, hl]

/-- What a sealed record shows of the record that was staged. -/
theorem recordOf_sealed {type code q : Nat} {p : List Byte} (hp : p.length = 40)
    (hl : t.bytes (logSlot q) 64 = logSealed (s.recordOf type false code 0 p) q) :
    (t.bytes (logSlot q) 64).take 4 = [0x4C, 0x47, BitVec.ofNat 8 type, BitVec.ofNat 8 (2 * s.fld RTC_STAT_TIME_VALID)] ∧
    t.bytes (logSlot q + 4) 4 = leBytes 4 q ∧ t.bytes (logSlot q + 8) 4 = leBytes 4 (s.reg RTC_SECONDS).toNat ∧
    t.byte (logSlot q + 15) = BitVec.ofNat 8 code ∧ t.bytes (logSlot q + 20) 40 = p ∧
    leNat (t.bytes (logSlot q + 60) 4) = crc32 (t.bytes (logSlot q) 60) := by
  obtain ⟨l, hlen, hrec, hparts⟩ := logSealed_recordOf (s := s) (type := type) (code := code) (q := q) hp
  rw [hrec] at hl
  refine ⟨?_, ?_, ?_, ?_, ?_, ?_⟩
  · rw [hl, hparts]; rfl
  · rw [State.bytes_of_bytes hl (by decide), hparts]; simp [leBytes]
  · rw [State.bytes_of_bytes hl (by decide), hparts]; simp [leBytes]
  · rw [State.byte_of_bytes hl (by decide), hparts]; simp [leBytes]
  · rw [State.bytes_of_bytes hl (by decide), hparts]; simp [leBytes, hp]
  · rw [State.bytes_of_bytes hl (by decide), ← State.bytes_take t (logSlot q) (n := 64) (by decide), hl, List.take_left' hlen,
      List.drop_left' hlen, List.take_of_length_le (by simp [leBytes_length]), leNat_crc32]

/-- Settles O55: a heat's end, the tally unit, and the logbook's ring and staging page. -/
theorem heatsAndLogbook : Obligations.HeatsAndLogbook := by
  refine ⟨fun s h => ⟨heatEnd_completes h, ?_, fun hen => ?_, fun hen hb => ?_, fun hb => ?_, fun hb => ?_, tallyBufferClear_completes s⟩,
    fun vsys s => ⟨fun h hst f => logCommit_busy h hst f, fun h h1 h3 hd => ⟨fun hs f => logCommit_nothing h h1 h3 hd hs f, fun r hs hr =>
      ⟨fun hv h2 f => logCommit_low h h1 h3 hd hs h2 hv f, fun hv hq hc => ⟨?_, ?_⟩⟩⟩, fun h => ⟨fun hx f => logAppend_refused h hx f, ?_⟩, fun h m => ⟨?_, ?_⟩⟩⟩
  · exact completes_run rfl ⟨by rw [latchEdges_dev]; rfl, (State.within_live s rfl).latch⟩
  · exact tallySnapshot_off (by simpa using hen)
  · exact tallySnapshot_starts h hen (by simpa using hb)
  · exact tallySnapshotDone_idle (by simpa using hb)
  · exact tallySnapshotDone_ends h hb rfl
  · refine (logCommit_one h h1 h3 hd hs hq hv hr hc).imp fun t ⟨hserved, hstaged, hcount, hbytes⟩ => ⟨hstaged, hcount, ⟨?_, ?_⟩, hserved⟩
    · exact (congrArg (List.take 60) hbytes).trans (logSealed_take hr _)
    · show leNat ((t.bytes (logSlot s.logSeq) 64).drop 60) = crc32 ((t.bytes (logSlot s.logSeq) 64).take 60)
      rw [hbytes]
      exact logSealed_drop hr _
  · exact logCommit_fails h h1 h3 hd hs hq hv
  · intro ht hlo hhi hc h1 h3 hv hq hs hd
    refine (logAppend_one h h1 h3 hd hs hq hv ht hlo hhi hc).imp fun t ⟨hserved, hbytes⟩ => ?_
    obtain ⟨hhead, hseq, hsec, hcode, hpay, hcrc⟩ := recordOf_sealed (State.bytes_length _ _ _) hbytes
    exact ⟨hhead, hseq, hsec, hcode, hpay, hcrc, hserved⟩
  · rintro rfl
    exact logPop_rom h
  · exact fun hm => logPop_other h hm

end Sys2Proof.Machine
end

section
/-!
Cipher pages: their binding, operations refused, and an operation's end (R208–R213, R235).
-/
namespace Sys2Proof.Machine
open Sys2Proof.Reg

variable {s t : State} {m : Master} {v : Word}

theorem latchEdges_ciph' (n : Nat) : (latchEdges s t).ciph n = t.ciph n := by rw [State.ciph, latchEdges_dev, State.ciph]

theorem page_of_inside {a p : Nat} (hp : p % 0x1000 = 0) (hlo : p ≤ a) (hhi : a < p + 0x1000) : a / 0x1000 * 0x1000 = p := by omega

/-! ### Binding -/

/-- The data registers of a page. -/
def inCiphData (n a : Nat) : Bool := decide (ciphPage n + 0x800 ≤ a) && decide (a < ciphPage n + 0x1000)

/-- A page bound anew: its data registers and its work gone, its owner as written. -/
def State.bound (s : State) (n : Nat) (v : Word) : State :=
  (((Prim.run (.regClear (inCiphData n)) s).live fun d => { d with ciph := Sparse.upd {} d.ciph n fun _ => {} }).putReg (CIPH_OWNER n) v).live
    fun d => { d with parity := d.parity.filter (· != CIPH_OWNER n) }

theorem State.bound_reg (s : State) (n : Nat) (v : Word) {a : Nat} (h : a ≠ CIPH_OWNER n) :
    (s.bound n v).reg a = if inCiphData n a then resetWord a else s.reg a := by
  rw [State.bound, State.live_reg, State.reg_putReg_other _ h, State.live_reg]
  exact Sparse.get_drop _ _ _ _

theorem ciphPage_facts (n : Fin 8) : inCiphData n.val (CIPH_OWNER n.val) = false ∧
    CIPH_OWNER n.val / 0x1000 * 0x1000 = ciphPage n.val ∧ ciphPage n.val % 0x1000 = 0 := by
  revert n; decide

theorem pageBind_binds (n : Fin 8) (hm : s.mayBind m n.val = true) (he : s.en (ciphPage n.val) = false) :
    Completes (.pageBind m n v) s fun t =>
      t.reg (CIPH_OWNER n.val) = v &&& BitVec.ofNat 32 (maskOf (CIPH_OWNER n.val)) ∧
      t.Cleared (fun a => decide (ciphPage n.val + 0x800 ≤ a ∧ a < ciphPage n.val + 0x1000)) [] ∧ t.ciph n.val = {} ∧
      CIPH_OWNER n.val ∉ t.dev.parity ∧ s.Within (onPages [ciphPage n.val]) t := by
  have h3 : ¬ n.val < 3 := fun h => by
    cases m <;> simp [State.mayBind] at hm
    omega
  have hrun : (pageBind m n.val v).run s = s.bound n.val v := by
    rw [pageBind, run_getS, if_neg h3, if_neg (by simp [hm]), if_neg (by simp [he]), State.bound]
    rfl
  obtain ⟨hdata, hpage, halign⟩ := ciphPage_facts n
  refine completes_run (m := pageBind m n.val v) rfl ?_
  rw [hrun]
  refine ⟨?_, fun a ha _ => ?_, ?_, ?_, ?_⟩
  · rw [latchEdges_reg, State.bound, State.live_reg, State.reg_putReg_same]
  · have ha : inCiphData n.val a = true := by simpa [inCiphData] using ha
    rw [latchEdges_reg, State.bound_reg _ _ _ (by rintro rfl; rw [hdata] at ha; cases ha), if_pos ha]
  · rw [latchEdges_ciph', State.bound, State.ciph, State.live_dev, State.dev_putReg, State.live_dev]
    exact val_upd_same ({} : CiphPage) s.dev.ciph n.val fun _ => {}
  · rw [latchEdges_dev, State.bound, State.live_dev]
    simp
  · have hclear : s.Within (onPages [ciphPage n.val]) (Prim.run (.regClear (inCiphData n.val)) s) :=
      ((keeps_regClear fun a ha => by
        have ha : ciphPage n.val + 0x800 ≤ a ∧ a < ciphPage n.val + 0x1000 := by simpa [inCiphData] using ha
        exact decide_eq_true (List.mem_singleton.mpr (page_of_inside halign (Nat.le_of_add_right_le ha.1) ha.2))).all s).run
    have hput := (hclear.trans (State.within_live _ (f := fun d => { d with ciph := Sparse.upd {} d.ciph n.val fun _ => {} }) rfl)).trans
      (State.within_putReg (v := v) (by exact decide_eq_true (List.mem_singleton.mpr hpage)))
    exact (hput.trans (State.within_live _ rfl)).latch

theorem ciphPage_flt (n : Fin 8) : (fltBit (ciphPage n.val) fltState).settable = true ∧
    (fltBit (ciphPage n.val) fltWign).apart (FLT_LASTOFS (ciphPage n.val)) = true ∧ FLT (ciphPage n.val) ∉ perfRegs (ciphPage n.val) ∧
    CIPH_OWNER n.val ∉ evRegs (ciphPage n.val) := by
  revert n; decide

theorem pageBind_ignored (h : s.Inv) (n : Fin 8) (hm : s.mayBind m n.val = true) (he : s.en (ciphPage n.val) = true) :
    Completes (.pageBind m n v) s fun t =>
      t.reg (CIPH_OWNER n.val) = s.reg (CIPH_OWNER n.val) ∧ t.bit (fltBit (ciphPage n.val) fltWign) = true ∧
      s.Within (onlyRegs (evRegs (ciphPage n.val))) t := by
  have h3 : ¬ n.val < 3 := fun h => by
    cases m <;> simp [State.mayBind] at hm
    omega
  obtain ⟨-, hap, hperf, hown⟩ := ciphPage_flt n
  refine completes_run (m := pageBind m n.val v) rfl ?_
  rw [pageBind, run_getS, if_neg h3, if_neg (by simp [hm]), if_pos he, ((total_setFltAt _ _ _).gives_run s).run_bind]
  have hw : s.Within (onlyRegs (evRegs (ciphPage n.val))) ((perf (ciphPage n.val) 0x03 1).run ((setFltAt (ciphPage n.val) fltWign (CIPH_OWNER n.val)).run s)) :=
    (setFltAt_noted _ _ _).within.trans ((perf_noted _ _ _ _).sub fun a => perfRegs_sub).within
  refine ⟨?_, ?_, hw.latch⟩
  · rw [latchEdges_reg]
    exact hw.reg hown
  · rw [latchEdges_bit, perf_bit hperf]
    exact setFltAt_bit_set h hap hperf

theorem pageBind_fixed (n : Fin 8) (h : n.val < 3) : Completes (.pageBind m n v) s fun t => s.Within {} t := by
  refine completes_run (m := pageBind m n.val v) rfl ?_
  rw [pageBind, run_getS, if_pos h]
  exact (s.within_refl _).latch

theorem pageBind_refused (hs : s.Inv) (n : Fin 8) (h : 3 ≤ n.val) (hm : s.mayBind m n.val = false) :
    Completes (.pageBind m n v) s fun t => s.Reports t (ciphPage n.val) fltState := by
  have hf := (ciphPage_flt n).1
  refine completes_run (m := pageBind m n.val v) rfl ?_
  rw [pageBind, run_getS, if_neg (by omega), if_pos (by simp [hm])]
  exact (reports_setFlt hs (Fld.full_of_settable hf) (Fld.reset_of_settable hf)).latch

/-! ### Operations -/

theorem ciphStart_refused (hs : s.Inv) (n : Fin 8) (h : s.ciphOwner m n.val = false ∨ s.bit (CIPH_RESULT_BUSY n.val) = true) {c : Instr}
    (hx : exec c s = cmd s (ciphStart m n.val v)) :
    Completes c s fun t => (t.ciph n.val).job = (s.ciph n.val).job ∧ s.Reports t (ciphPage n.val) fltState := by
  have hf := (ciphPage_flt n).1
  refine completes_run hx ?_
  rw [ciphStart, run_getS, if_pos (by simpa using h)]
  exact ⟨by rw [latchEdges_ciph', State.ciph, setFlt_dev, State.ciph], (reports_setFlt hs (Fld.full_of_settable hf) (Fld.reset_of_settable hf)).latch⟩

/-! ### An operation's end -/

/-- A tag in CIPHn_TAG, where there is one. -/
def State.tagged (s : State) (n : Nat) : Option (List Byte) → State
  | some tag => (((s.putReg (CIPH_TAG n 0) (wordOf (sliceOf tag (4 * 0) 4))).putReg (CIPH_TAG n 1) (wordOf (sliceOf tag (4 * 1) 4))).putReg
      (CIPH_TAG n 2) (wordOf (sliceOf tag (4 * 2) 4))).putReg (CIPH_TAG n 3) (wordOf (sliceOf tag (4 * 3) 4))
  | none => s

/-- A key slot filled, where one is. -/
def State.filled (s : State) : Option (Nat × KeySlot) → State
  | some f => s.live fun d => { d with keys := Sparse.set (fun _ => {}) d.keys f.1 f.2 }
  | none => s

/-- The result word of an operation (R235). -/
def ciphResult (j : CiphJob) : Word := BitVec.ofNat 32 (min 0x7FFFFF j.blocks * 256 + j.status % 256)

/-- The state that an operation's effects leave, its event still to come. -/
def State.computed (s : State) (n : Nat) (j : CiphJob) : State :=
  ((((s.putMem j.dst j.out).tagged n j.tag).filled j.fill).live fun d =>
    { d with ciph := Sparse.upd {} d.ciph n fun _ => { job := none, chain := j.chain } }).putReg (CIPH_RESULT n) (ciphResult j)

/-- What the end of an operation may change. -/
def cipherFoot (n : Nat) (j : CiphJob) : Foot :=
  { regs := fun a => decide (a ∈ CIPH_RESULT n :: perfOf (ciphPage n)) || j.tag.isSome && decide (a ∈ (List.range 4).map (CIPH_TAG n))
    mem := fun a => decide (j.dst ≤ a ∧ a < j.dst + j.out.length), keys := j.fill.isSome }

theorem ciphDone_run {n : Nat} {j : CiphJob} (hj : (s.ciph n).job = some j) : (ciphDone n).run s =
    ((emit (ciphPage n) (0xA8 + n)).run ((perf (ciphPage n) 0x40 j.blocks).run (s.computed n j))).live
      fun d => { d with intc := { d.intc with edge := bitSet d.intc.edge (44 + n) } } := by
  rw [ciphDone, run_getS, hj]
  dsimp only
  rw [run_putBytes_bind]
  cases htag : j.tag <;> cases hfill : j.fill <;>
    simp only [State.computed, htag, hfill, State.tagged, State.filled, ciphResult, show List.range 4 = [0, 1, 2, 3] from rfl, forAll_cons,
      forAll_nil, setSlot, modCiph, pulse, modIntc, run_assoc, run_nop_bind, run_modDev, run_modDev_bind, run_wr_bind, run_perf_bind, run_emit_bind]

theorem ciph_result_facts (n : Fin 8) : latchOf (0xA8 + n.val) = none ∧ maskOf (CIPH_RESULT n.val) = 0xFFFFFFFF ∧
    (∀ k < 4, maskOf (CIPH_TAG n.val k) = 0xFFFFFFFF ∧ CIPH_TAG n.val k ≠ CIPH_RESULT n.val ∧ CIPH_TAG n.val k ∉ evRegs (ciphPage n.val) ∧
      ∀ j < 4, j ≠ k → CIPH_TAG n.val k ≠ CIPH_TAG n.val j) ∧ CIPH_RESULT n.val ∉ evRegs (ciphPage n.val) := by
  revert n; decide

theorem State.within_live_keys {F : Foot} {f : Dev → Dev} (h : F.keys = true) : t.Within F (t.live f) :=
  ⟨fun _ _ => rfl, fun _ _ => rfl, fun x _ _ => by cases x <;> rfl, fun _ _ => rfl, fun _ => rfl, fun _ => rfl,
    fun hk => absurd (hk.symm.trans h) (by decide), rfl⟩

section
variable (n : Fin 8) {j : CiphJob}

theorem State.tagged_within {F : Foot} {tag : Option (List Byte)} (h : s.Within F t)
    (hF : tag.isSome = true → ∀ k < 4, F.regs (CIPH_TAG n.val k) = true) : s.Within F (t.tagged n.val tag) := by
  cases tag with
  | none => exact h
  | some tag =>
    have hF := hF rfl
    exact (((h.trans (State.within_putReg (hF 0 (by decide)))).trans (State.within_putReg (hF 1 (by decide)))).trans
      (State.within_putReg (hF 2 (by decide)))).trans (State.within_putReg (hF 3 (by decide)))

theorem State.filled_within {F : Foot} {f : Option (Nat × KeySlot)} (h : s.Within F t) (hF : f.isSome = true → F.keys = true) :
    s.Within F (t.filled f) := by
  cases f with
  | none => exact h
  | some f => exact h.trans (State.within_live_keys (hF rfl))

theorem State.tagged_reg {tag : List Byte} {k : Nat} (hk : k < 4) :
    (t.tagged n.val (some tag)).reg (CIPH_TAG n.val k) = wordOf (sliceOf tag (4 * k) 4) := by
  have hcases : k = 0 ∨ k = 1 ∨ k = 2 ∨ k = 3 := by omega
  obtain ⟨-, -, htag, -⟩ := ciph_result_facts n
  obtain ⟨hm, -, -, hne⟩ := htag k hk
  have hfull : BitVec.ofNat 32 (maskOf (CIPH_TAG n.val k)) = BitVec.allOnes 32 := by rw [hm]; rfl
  rw [State.tagged]
  rcases hcases with rfl | rfl | rfl | rfl
  · rw [State.reg_putReg_other _ (hne 3 (by decide) (by decide)), State.reg_putReg_other _ (hne 2 (by decide) (by decide)),
      State.reg_putReg_other _ (hne 1 (by decide) (by decide)), State.reg_putReg_whole hfull]
  · rw [State.reg_putReg_other _ (hne 3 (by decide) (by decide)), State.reg_putReg_other _ (hne 2 (by decide) (by decide)),
      State.reg_putReg_whole hfull]
  · rw [State.reg_putReg_other _ (hne 3 (by decide) (by decide)), State.reg_putReg_whole hfull]
  · rw [State.reg_putReg_whole hfull]

theorem putReg_byte (s : State) (a x : Nat) (v : Word) : (s.putReg a v).byte x = s.byte x := rfl

section
variable (s) (j)
theorem State.tagged_dev (tag : Option (List Byte)) : (s.tagged n.val tag).dev = s.dev := by cases tag <;> rfl
theorem State.tagged_byte (tag : Option (List Byte)) (a : Nat) : (s.tagged n.val tag).byte a = s.byte a := by cases tag <;> rfl
theorem State.tagged_events (tag : Option (List Byte)) : (s.tagged n.val tag).events = s.events := by cases tag <;> rfl
theorem State.filled_byte (f : Option (Nat × KeySlot)) (a : Nat) : (s.filled f).byte a = s.byte a := by cases f <;> rfl
theorem State.filled_reg (f : Option (Nat × KeySlot)) (a : Nat) : (s.filled f).reg a = s.reg a := by cases f <;> rfl
theorem State.filled_events (f : Option (Nat × KeySlot)) : (s.filled f).events = s.events := by cases f <;> rfl

theorem State.computed_byte (a : Nat) : (s.computed n.val j).byte a = (s.putMem j.dst j.out).byte a := by
  rw [State.computed, putReg_byte, State.live_byte, State.filled_byte, State.tagged_byte]

theorem State.computed_events : (s.computed n.val j).events = s.events := by
  rw [State.computed, State.events_putReg, State.live_events, State.filled_events, State.tagged_events, State.putMem_events]

theorem State.computed_ciph : (s.computed n.val j).ciph n.val = { job := none, chain := j.chain } := by
  rw [State.computed, State.ciph, State.dev_putReg, State.live_dev]
  dsimp only
  rw [val_upd_same]

theorem State.computed_keys {f : Nat × KeySlot} (hf : j.fill = some f) (k : Nat) :
    (s.computed n.val j).slot k = if k = f.1 then f.2 else s.slot k := by
  rw [State.computed, State.slot, State.dev_putReg, State.live_dev, hf, State.filled, State.live_dev]
  dsimp only
  rw [State.tagged_dev, State.putMem_dev, Sparse.val]
  split
  · next h => subst h; exact Sparse.get_set_same _ _ _ _
  · next h => exact Sparse.get_set_other _ _ _ _ _ h

theorem State.computed_reg {a : Nat} (h : a ≠ CIPH_RESULT n.val) : (s.computed n.val j).reg a = ((s.putMem j.dst j.out).tagged n.val j.tag).reg a := by
  rw [State.computed, State.reg_putReg_other _ h, State.live_reg, State.filled_reg]

theorem State.computed_result : (s.computed n.val j).reg (CIPH_RESULT n.val) = ciphResult j := by
  have hm := (ciph_result_facts n).2.1
  rw [State.computed, State.reg_putReg_whole (by rw [hm]; rfl)]
end

/-- The fields of a result word. -/
theorem ciphResult_fields (j : CiphJob) : bitsGet (ciphResult j) 31 31 = 0 ∧ bitsGet (ciphResult j) 7 0 = j.status % 256 ∧
    bitsGet (ciphResult j) 30 8 = min 0x7FFFFF j.blocks := by
  have hb : min 0x7FFFFF j.blocks ≤ 0x7FFFFF := Nat.min_le_left _ _
  have hs : j.status % 256 < 256 := Nat.mod_lt _ (by decide)
  generalize hB : min 0x7FFFFF j.blocks = B at *
  generalize hS : j.status % 256 = S at *
  have hv : (ciphResult j).toNat = B * 256 + S := by rw [ciphResult, hB, hS, BitVec.toNat_ofNat, Nat.mod_eq_of_lt (by omega)]
  simp only [bitsGet, hv, Nat.shiftRight_eq_div_pow]
  norm_num
  omega

/-- The end of an operation (R212). -/
theorem cipherOpDone_ends (hj : (s.ciph n.val).job = some j) : Completes (.cipherOpDone n) s fun t =>
    t.bytes j.dst j.out.length = j.out ∧ (∀ tag, j.tag = some tag → ∀ k < 4, t.reg (CIPH_TAG n.val k) = wordOf (sliceOf tag (4 * k) 4)) ∧
    (∀ f, j.fill = some f → t.slot f.1 = f.2 ∧ ∀ k ≠ f.1, t.slot k = s.slot k) ∧
    t.ciph n.val = { job := none, chain := j.chain } ∧ t.bit (CIPH_RESULT_BUSY n.val) = false ∧
    t.fld (CIPH_RESULT_STATUS n.val) = j.status % 256 ∧ t.fld (CIPH_RESULT_BLOCKS n.val) = min 0x7FFFFF j.blocks ∧
    t.events = s.events ++ [0xA8 + n.val] ∧ t.dev.intc.edge.testBit (44 + n.val) = true ∧
    s.Within (cipherFoot n.val j) t := by
  obtain ⟨hlatch, -, htag, hresult⟩ := ciph_result_facts n
  refine completes_run (m := ciphDone n.val) rfl ?_
  rw [ciphDone_run hj]
  generalize hu : (emit (ciphPage n.val) (0xA8 + n.val)).run ((perf (ciphPage n.val) 0x40 j.blocks).run (s.computed n.val j)) = u
  have hreg : ∀ a ∉ evRegs (ciphPage n.val), (latchEdges s (u.live fun d => { d with intc := { d.intc with edge := bitSet d.intc.edge (44 + n.val) } })).reg a =
      (s.computed n.val j).reg a := fun a ha => by
    rw [latchEdges_reg, State.live_reg, ← hu, emit_reg ha, perf_reg fun h => ha (perfRegs_sub h)]
  have hres := (hreg _ hresult).trans (s.computed_result n j)
  obtain ⟨hbusy, hstatus, hblocks⟩ := ciphResult_fields j
  have hdev : ∀ k, (latchEdges s (u.live fun d => { d with intc := { d.intc with edge := bitSet d.intc.edge (44 + n.val) } })).slot k =
      (s.computed n.val j).slot k := fun k => by
    rw [State.slot, latchEdges_dev, State.live_dev, ← hu, emit_dev, perf_dev, State.slot]
  refine ⟨?_, fun tag ht k hk => ?_, fun f hf => ⟨?_, fun k hk => ?_⟩, ?_, ?_, ?_, ?_, ?_, ?_, ?_⟩
  · rw [latchEdges_bytes]
    refine (bytes_of_byte (fun x => ?_) _ _).trans (State.putMem_bytes s j.dst j.out)
    rw [State.live_byte, ← hu, emit_byte, perf_byte, State.computed_byte]
  · obtain ⟨-, hne, hev, -⟩ := htag k hk
    rw [hreg _ hev, State.computed_reg _ _ _ hne, ht, State.tagged_reg n hk]
  · rw [hdev, State.computed_keys _ _ _ hf, if_pos rfl]
  · rw [hdev, State.computed_keys _ _ _ hf, if_neg hk]
  · rw [State.ciph, latchEdges_dev, State.live_dev, ← hu, emit_dev, perf_dev]
    exact s.computed_ciph n j
  · rw [State.bit, State.fld, hres, hbusy]
    rfl
  · rw [State.fld, hres, hstatus]
  · rw [State.fld, hres, hblocks]
  · rw [latchEdges_events, State.live_events, ← hu, emit_events hlatch, perf_events, State.computed_events]
  · refine latchEdges_edge ?_
    rw [State.live_dev]
    exact bitSet_testBit_self _ _
  · have hperfs : ∀ a ∈ perfRegs (ciphPage n.val), (cipherFoot n.val j).regs a = true := fun a ha =>
      (Bool.or_eq_true _ _).mpr (.inl (decide_eq_true (List.mem_cons_of_mem _ ha)))
    have hcomp : s.Within (cipherFoot n.val j) (s.computed n.val j) := by
      refine ((State.filled_within (State.tagged_within n (State.putMem_within fun i hi => decide_eq_true ⟨by omega, by omega⟩)
        fun ht k hk => ?_) id).trans (State.within_live _ rfl)).trans (State.within_putReg ?_)
      · exact (Bool.or_eq_true _ _).mpr (.inr (by rw [ht, decide_eq_true (List.mem_map.mpr ⟨k, List.mem_range.mpr hk, rfl⟩)]; rfl))
      · exact (Bool.or_eq_true _ _).mpr (.inl (decide_eq_true List.mem_cons_self))
    refine State.Within.latch ?_
    refine State.Within.trans ?_ (State.within_live _ rfl)
    rw [← hu]
    exact (hcomp.trans ((perf_noted _ _ _ _).within.of_onlyRegs hperfs)).trans ((emit_unlatched _ _ hlatch).1.within.of_onlyRegs hperfs)

end

end Sys2Proof.Machine
end

section
/-!
The reservation of the outgoing frame counter (R227–R231).
-/
namespace Sys2Proof.Machine
open Sys2Proof.Reg

variable {s : State} {vsys : Nat} {verified : Bool}

/-- The limit of a current record, 0 where there is none, and the SEQ after its own (R228). -/
def limitOf : Option (Nat × Nat × Nat) → Nat
  | some (_, r, _) => r
  | none => 0
def seqAfter : Option (Nat × Nat × Nat) → Nat
  | some (_, _, q) => q + 1
  | none => 0

section
variable (h : s.Serves 0xF006)
include h

/-- A call that answers a status and changes nothing. -/
theorem fcntReserve_answers {st : Nat} (hb : (fcReserve vsys verified).Gives s fun r t => r = st ∧ t = s) :
    Completes (.fcntReserve vsys verified) s fun t => s.Served t [(0, st)] :=
  completes_answer rfl h (by simp) (gives_bind (hb.mono fun r t ⟨hr, ht⟩ => gives_pure ⟨by rw [hr]; rfl, ht⟩))

theorem fcntReserve_enough (hv : s.bit CIPH0_FCSTAT_FCVALID = true) (hl : s.bit CIPH0_FCSTAT_LOW = false) :
    Completes (.fcntReserve vsys verified) s fun t => s.Served t [(0, 0)] := by
  refine fcntReserve_answers h (gives_bind (gives_getS ?_))
  rw [if_pos (by simp [hv, hl])]
  exact gives_pure ⟨rfl, rfl⟩

variable (hv : s.bit CIPH0_FCSTAT_FCVALID = false)
include hv

theorem fcntReserve_busy (hs : s.fld FLASHC_STAT_STATE = 1 ∨ s.fld FLASHC_STAT_STATE = 3) :
    Completes (.fcntReserve vsys verified) s fun t => s.Served t [(0, 2)] := by
  refine fcntReserve_answers h (gives_bind (gives_getS ?_))
  rw [if_neg (by simp [hv]), if_neg (by simp [hv]), if_pos (by rcases hs with hs | hs <;> simp [hs])]
  exact gives_pure ⟨rfl, rfl⟩

variable (hs : s.fld FLASHC_STAT_STATE = 0)
include hs

theorem fcntReserve_low (hlow : vsys < 2800) : Completes (.fcntReserve vsys verified) s fun t => s.Served t [(0, 0x30)] := by
  refine fcntReserve_answers h (gives_bind (gives_getS ?_))
  rw [if_neg (by simp [hv]), if_neg (by simp [hv]), if_neg (by simp [hs]), if_pos hlow]
  exact gives_pure ⟨rfl, rfl⟩

variable {cur : Nat} (hcur : limitOf s.fcCurrent = cur) (hsup : 2800 ≤ vsys) (hc : cur + 4096 < 2 ^ 32)
include hcur hsup hc

omit h in
/-- Past the checks the resumption writes a record with the next limit, and takes it up where the write was verified. -/
theorem gives_fcReserve {Q : Nat → State → Prop} (hw : (fcWrite (cur + 4096) verified).Gives s fun r t =>
      if r = stOk then (setFld CIPH0_FCNT_FCNT cur >>= fun _ => setFld CIPH0_FCSTAT_FCVALID 1 >>= fun _ =>
        setFld CIPH0_FCRES_RES (cur + 4096) >>= fun _ => fcFlags).Gives t fun _ u => Q r u
      else Q r t) : (fcReserve vsys verified).Gives s Q := by
  refine gives_bind (gives_getS ?_)
  rw [if_neg (by simp [hv]), if_neg (by simp [hv]), if_neg (by simp [hs]), if_neg (by exact Nat.not_lt.mpr hsup)]
  cases hfc : s.fcCurrent
  all_goals
    simp only [hfc, limitOf] at hcur
    subst hcur
    simp only [hv, Bool.false_eq_true, if_false, Bool.not_false, if_true]
    rw [if_neg (Nat.not_le.mpr hc), if_neg (Nat.ne_of_lt (Nat.lt_add_of_pos_right (by decide)))]
    refine gives_bind (hw.mono fun r t ht => ?_)
    by_cases hr : r = stOk
    · rw [if_pos hr] at ht ⊢
      exact gives_bind (m := setFld CIPH0_FCNT_FCNT _ >>= fun _ => setFld CIPH0_FCSTAT_FCVALID 1 >>= fun _ =>
        setFld CIPH0_FCRES_RES _ >>= fun _ => fcFlags) (ht.mono fun _ u hu => gives_pure hu)
    · rw [if_neg hr] at ht ⊢
      exact gives_pure ht

end

/-! ### The record -/

/-- The record with a limit that comes next (R228). -/
def State.fcRecord (s : State) (res : Nat) : List Byte :=
  let l := leBytes 4 0x46434E54 ++ leBytes 4 res ++ leBytes 4 (seqAfter s.fcCurrent)
  l ++ leBytes 4 (crc32 l)

theorem State.fcRecord_length (s : State) (res : Nat) : (s.fcRecord res).length = 16 := by simp [State.fcRecord, leBytes_length]

/-- The state with a record in the next slot. -/
def State.fcWritten (s : State) (res : Nat) : State :=
  (s.putMem (fcSlot s.fcNext) (s.fcRecord res)).recore fun c => { c with icache := [] }

/-- The octets of a slot of the records. -/
def inFcSlot (i a : Nat) : Bool := decide (fcSlot i ≤ a ∧ a < fcSlot i + 16)

theorem State.fcWritten_burnt (hs : s.Inv) (res : Nat) : s.Burnt (s.fcWritten res) (inFcSlot s.fcNext) := by
  have hb : s.Burnt (s.putMem (fcSlot s.fcNext) (s.fcRecord res)) (inFcSlot s.fcNext) :=
    burnt_putMem fun i hi => decide_eq_true (by rw [State.fcRecord_length] at hi; omega)
  refine hb.trans ⟨?_, ?_, rfl⟩
  · rw [State.fcWritten, State.within_recore_iff rfl]
    exact State.within_refl _ _
  · exact State.sameCore_dropCache (by rw [State.putMem_core]; exact hs.core)

theorem State.recore_bytes (s : State) (f : Core → Core) (a n : Nat) : (s.recore f).bytes a n = s.bytes a n := rfl

theorem State.fcWritten_bytes (s : State) (res : Nat) : (s.fcWritten res).bytes (fcSlot s.fcNext) 16 = s.fcRecord res := by
  have := State.putMem_bytes s (fcSlot s.fcNext) (s.fcRecord res)
  rw [State.fcRecord_length] at this
  rw [State.fcWritten, State.recore_bytes, this]

theorem gives_fcWrite (he : s.fcErases = false) (res : Nat) : (fcWrite res true).Gives s fun r t => r = stOk ∧ t = s.fcWritten res := by
  have hb : s.fcBlank.isNone = false ∧ s.fcCount (s.fcNext / 256) ≠ 127 := by simpa [State.fcErases] using he
  refine gives_bind (gives_getS ?_)
  rw [hb.1]
  refine gives_bind (gives_pure ?_)
  simp only [Bool.not_true, Bool.false_eq_true, if_false, if_neg hb.2]
  refine gives_bind (gives_putBytes (gives_bind (gives_act (gives_pure ⟨rfl, ?_⟩))))
  rw [State.fcWritten, State.fcRecord, State.recore]
  cases s.fcCurrent <;> rfl

theorem gives_fcWrite_spoilt (hb : s.fcBlank.isSome = true) (res : Nat) :
    (fcWrite res false).Gives s fun r t => r = stProgFail ∧ s.Burnt t (inFcSlot s.fcNext) := by
  refine gives_bind (gives_getS ?_)
  rw [show s.fcBlank.isNone = false by rw [Option.isNone_eq_false_iff]; exact hb]
  refine gives_bind (gives_pure ?_)
  simp only [Bool.not_true, Bool.not_false, Bool.false_eq_true, if_false, if_true]
  exact gives_bind ((gives_spoilUnit fun i hi => decide_eq_true ⟨by omega, by omega⟩).mono fun _ t ht => gives_pure ⟨rfl, ht⟩)

/-- The counter resumed: what the registers show of it (R229, R236). -/
def State.fcResumed (s : State) (cur : Nat) : State :=
  (((((s.put CIPH0_FCNT_FCNT cur).put CIPH0_FCSTAT_FCVALID 1).put CIPH0_FCRES_RES (cur + 4096)).put CIPH0_FCSTAT_LIMIT 0).put CIPH0_FCSTAT_EXHAUSTED 0).put
    CIPH0_FCSTAT_LOW 0

theorem fcResumed_run {cur : Nat} (hc : cur + 4096 < 2 ^ 32) :
    (setFld CIPH0_FCNT_FCNT cur >>= fun _ => setFld CIPH0_FCSTAT_FCVALID 1 >>= fun _ =>
      setFld CIPH0_FCRES_RES (cur + 4096) >>= fun _ => fcFlags).Gives s fun _ t => t = s.fcResumed cur := by
  refine gives_bind (gives_setFld (gives_bind (gives_setFld (gives_bind (gives_setFld (gives_bind (gives_getS ?_)))))))
  have hcnt : (((s.put CIPH0_FCNT_FCNT cur).put CIPH0_FCSTAT_FCVALID 1).put CIPH0_FCRES_RES (cur + 4096)).fld CIPH0_FCNT_FCNT = cur := by
    rw [State.fld_put_other _ (by decide), State.fld_put_other _ (by decide), State.fld_put_same (Fld.full_of_settable (by decide))]
    exact Nat.mod_eq_of_lt (by exact Nat.lt_of_le_of_lt (Nat.le_add_right _ _) hc)
  have hres : (((s.put CIPH0_FCNT_FCNT cur).put CIPH0_FCSTAT_FCVALID 1).put CIPH0_FCRES_RES (cur + 4096)).fld CIPH0_FCRES_RES = cur + 4096 := by
    rw [State.fld_put_same (Fld.full_of_settable (by decide))]
    exact Nat.mod_eq_of_lt (by exact hc)
  rw [hcnt, hres]
  have hlimit : (cur == cur + 4096) = false := beq_eq_false_iff_ne.mpr (Nat.ne_of_lt (Nat.lt_add_of_pos_right (by decide)))
  have hlow : decide (cur + 4096 ≤ cur + 2048) = false := decide_eq_false (by omega)
  have hlast : (cur == 0xFFFFFFFF) = false := beq_eq_false_iff_ne.mpr (by omega)
  dsimp only
  rw [hlimit, hlow, hlast]
  simp only [Bool.and_false, Bool.false_and, b2n]
  exact gives_bind (gives_setFld (gives_bind (gives_setFld (gives_bind (gives_setFld (gives_nop rfl))))))

section
variable (cur : Nat)
theorem State.fcResumed_within {F : Foot} (h : ∀ a ∈ [CIPH0_FCNT, CIPH0_FCRES, CIPH0_FCSTAT], F.regs a = true) : s.Within F (s.fcResumed cur) := by
  have h1 := h CIPH0_FCNT (by simp)
  have h2 := h CIPH0_FCRES (by simp)
  have h3 := h CIPH0_FCSTAT (by simp)
  exact (((((State.within_put _ h1).trans (State.within_put _ h3)).trans (State.within_put _ h2)).trans (State.within_put _ h3)).trans
    (State.within_put _ h3)).trans (State.within_put _ h3)

theorem State.fcResumed_core : (s.fcResumed cur).core = s.core := by simp only [State.fcResumed, State.core_put]
theorem State.fcResumed_byte (a : Nat) : (s.fcResumed cur).byte a = s.byte a := by simp only [State.fcResumed, State.byte_put]
end

/-- What the counter's registers show once it has been resumed. -/
theorem State.fcResumed_fields {cur : Nat} (hc : cur + 4096 < 2 ^ 32) : (s.fcResumed cur).fld CIPH0_FCNT_FCNT = cur ∧
    (s.fcResumed cur).fld CIPH0_FCRES_RES = cur + 4096 ∧ (s.fcResumed cur).bit CIPH0_FCSTAT_FCVALID = true ∧
    (s.fcResumed cur).bit CIPH0_FCSTAT_LIMIT = false := by
  have full : ∀ f ∈ [CIPH0_FCNT_FCNT, CIPH0_FCRES_RES, CIPH0_FCSTAT_FCVALID, CIPH0_FCSTAT_LIMIT, CIPH0_FCSTAT_EXHAUSTED, CIPH0_FCSTAT_LOW], f.Full := by
    have : ∀ f ∈ [CIPH0_FCNT_FCNT, CIPH0_FCRES_RES, CIPH0_FCSTAT_FCVALID, CIPH0_FCSTAT_LIMIT, CIPH0_FCSTAT_EXHAUSTED, CIPH0_FCSTAT_LOW], f.settable = true := by decide
    exact fun f hf => Fld.full_of_settable (this f hf)
  have hcnt := full CIPH0_FCNT_FCNT (by simp)
  have hres := full CIPH0_FCRES_RES (by simp)
  have hval := full CIPH0_FCSTAT_FCVALID (by simp)
  have hlim := full CIPH0_FCSTAT_LIMIT (by simp)
  have hexh := full CIPH0_FCSTAT_EXHAUSTED (by simp)
  have hlow := full CIPH0_FCSTAT_LOW (by simp)
  refine ⟨?_, ?_, ?_, ?_⟩ <;> rw [State.fcResumed]
  · rw [State.fld_put_other _ (by decide), State.fld_put_other _ (by decide), State.fld_put_other _ (by decide), State.fld_put_other _ (by decide),
      State.fld_put_other _ (by decide), State.fld_put_same hcnt]
    exact Nat.mod_eq_of_lt (by exact Nat.lt_of_le_of_lt (Nat.le_add_right _ _) hc)
  · rw [State.fld_put_other _ (by decide), State.fld_put_other _ (by decide), State.fld_put_other _ (by decide), State.fld_put_same hres]
    exact Nat.mod_eq_of_lt (by exact hc)
  · rw [State.bit_put_apart hlow hval _ (by decide), State.bit_put_apart hexh hval _ (by decide), State.bit_put_apart hlim hval _ (by decide),
      State.bit_put_other _ (by decide), State.bit_put_same hval]
    rfl
  · rw [State.bit_put_apart hlow hlim _ (by decide), State.bit_put_apart hexh hlim _ (by decide), State.bit_put_same hlim]
    rfl

section
variable (h : s.Serves 0xF006) (hv : s.bit CIPH0_FCSTAT_FCVALID = false) (hs : s.fld FLASHC_STAT_STATE = 0) {cur : Nat}
  (hcur : limitOf s.fcCurrent = cur) (hsup : 2800 ≤ vsys) (hc : cur + 4096 < 2 ^ 32)
include h hv hs hcur hsup hc

/-- The resumption after power-on: from the limit recorded last, with the next limit recorded first. -/
theorem fcntReserve_resumes (he : s.fcErases = false) : Completes (.fcntReserve vsys true) s fun t =>
    s.Served t [(0, 0)] { regs := fun x => decide (x ∈ [CIPH0_FCNT, CIPH0_FCRES, CIPH0_FCSTAT] ++ perfOf (ciphPage 0)), mem := inFcSlot s.fcNext } ∧
    t.fld CIPH0_FCNT_FCNT = cur ∧ t.fld CIPH0_FCRES_RES = cur + 4096 ∧ t.bit CIPH0_FCSTAT_FCVALID = true ∧
    t.bit CIPH0_FCSTAT_LIMIT = false ∧ t.bytes (fcSlot s.fcNext) 16 = s.fcRecord (cur + 4096) := by
  have hb := s.fcWritten_burnt h.inv (cur + 4096)
  generalize inFcSlot s.fcNext = p at hb ⊢
  refine completes_service rfl h (by simp) (gives_bind ((gives_fcReserve (Q := fun r t => r = stOk ∧ t = (s.fcWritten (cur + 4096)).fcResumed cur)
    hv hs hcur hsup hc ((gives_fcWrite he _).mono fun r t ⟨hr, ht⟩ => ?_)).mono fun r t ⟨hr, ht⟩ => gives_pure ⟨by rw [hr]; rfl, ?_, ?_, fun _ => ?_⟩))
  · rw [if_pos hr, ht]
    exact (fcResumed_run hc).mono fun _ u hu => ⟨hr, hu⟩
  · rw [ht, State.SameCore, State.fcResumed_core]
    exact hb.core
  · rw [ht]
    exact (hb.within.of_memCore (by exact fun _ h => h) (by rfl)).trans (State.fcResumed_within _ fun a ha => decide_eq_true (List.mem_append_left _ ha))
  · obtain ⟨hcnt, hres, hval, hlim⟩ := State.fcResumed_fields (s := s.fcWritten (cur + 4096)) hc
    rw [latchEdges_fld, latchEdges_fld, latchEdges_bit, latchEdges_bit, latchEdges_bytes, State.comeBack_fld, State.comeBack_fld, State.comeBack_bit,
      State.comeBack_bit, State.comeBack_bytes, ht]
    exact ⟨hcnt, hres, hval, hlim, (bytes_of_byte (fun x => State.fcResumed_byte _ x) _ _).trans (s.fcWritten_bytes _)⟩

theorem fcntReserve_spoilt (hb : s.fcBlank.isSome = true) : Completes (.fcntReserve vsys false) s fun t =>
    s.Served t [(0, 0x33)] { mem := inFcSlot s.fcNext } := by
  have hw := gives_fcWrite_spoilt hb (cur + 4096)
  generalize inFcSlot s.fcNext = p at hw ⊢
  refine (completes_service (F := { mem := p }) (P := fun _ => True) rfl h (by simp) (gives_bind ((gives_fcReserve
    (Q := fun r t => r = stProgFail ∧ s.Burnt t p) hv hs hcur hsup hc (hw.mono fun r t ⟨hr, ht⟩ => ?_)).mono
      fun r t ⟨hr, ht⟩ => gives_pure ⟨by rw [hr]; rfl, ht.core, ht.within, fun _ => trivial⟩))).imp fun t ht => ht.1
  rw [if_neg (by rw [hr]; decide)]
  exact ⟨hr, ht⟩

end

/-- What the record of a limit shows. -/
theorem fcRecord_shown {t : State} {a res : Nat} (hr : res < 2 ^ 32) (h : t.bytes a 16 = s.fcRecord res) :
    leNat (t.bytes a 4) = 0x46434E54 ∧ leNat (t.bytes (a + 4) 4) = res ∧ leNat (t.bytes (a + 12) 4) = crc32 (t.bytes a 12) := by
  have hrec : ∃ q, s.fcRecord res = (leBytes 4 0x46434E54 ++ leBytes 4 res ++ leBytes 4 q) ++
      leBytes 4 (crc32 (leBytes 4 0x46434E54 ++ leBytes 4 res ++ leBytes 4 q)) := ⟨_, rfl⟩
  obtain ⟨q, hq⟩ := hrec
  rw [hq] at h
  refine ⟨?_, ?_, ?_⟩
  · rw [← State.bytes_take t a (n := 16) (by decide), h]
    simp [leBytes]
    rfl
  · rw [State.bytes_of_bytes h (by decide), List.append_assoc, List.append_assoc, List.drop_left' (leBytes_length _ _), List.take_left' (leBytes_length _ _),
      leNat_leBytes]
    exact Nat.mod_eq_of_lt hr
  · rw [State.bytes_of_bytes h (by decide), ← State.bytes_take t a (n := 16) (by decide), h, List.drop_left' (by simp [leBytes_length]),
      List.take_left' (by simp [leBytes_length]), List.take_of_length_le (by simp [leBytes_length]), leNat_crc32]

/-- Settles O37: the binding of pages, what their operations refuse and leave, and the reservation of the frame counter. -/
theorem cipherPages : Obligations.CipherPages := by
  refine ⟨fun m n v s h => ⟨fun hm he => pageBind_binds n hm he, fun hm he => pageBind_ignored h n hm he, fun h3 hm => pageBind_refused h n h3 hm,
    fun h3 => pageBind_fixed n h3, fun hr x hx => ?_, fun j hj => cipherOpDone_ends n hj, fun hj => ?_⟩, fun vsys verified s h =>
    ⟨fun hv hl => fcntReserve_enough h hv hl, fun hv hs => fcntReserve_busy h hv hs, fun hv hs hlow => fcntReserve_low h hv hs hlow,
      fun hv hs hsup hc he => ?_, fun hv hs hsup hc hb => ?_⟩⟩
  · simp only [List.mem_cons, List.not_mem_nil, or_false] at hx
    rcases hx with rfl | rfl | rfl | rfl | rfl | rfl | rfl <;> exact ciphStart_refused h n hr rfl
  · refine completes_run (m := ciphDone n.val) rfl ?_
    rw [ciphDone, run_getS, hj]
    exact (s.within_refl _).latch
  · cases hcur : s.fcCurrent <;> rw [hcur] at hc
    all_goals
      refine (fcntReserve_resumes h hv hs (congrArg limitOf hcur) hsup hc he).imp fun t ⟨hserved, hcnt, hres, hval, hlim, hrec⟩ => ?_
      obtain ⟨hmagic, hlimit, hcrc⟩ := fcRecord_shown hc hrec
      exact ⟨hserved, hcnt, hres, hval, hlim, hmagic, hlimit, hcrc⟩
  · cases hcur : s.fcCurrent <;> rw [hcur] at hc
    all_goals exact fcntReserve_spoilt h hv hs (congrArg limitOf hcur) hsup hc hb

end Sys2Proof.Machine
end

section
/-!
PROGRAM, unit by unit (R280, R281): what stands in memory after some of its units, and how a call of it ends.
-/
namespace Sys2Proof.Machine
open Sys2Proof.Reg

variable {s t u : State} {p : Prog} {failAt lowAt : Option Nat}

/-! ### Lines that nothing here touches (R262) -/

/-- Registers but those of FLASHC's state, and the parts of the units that lines look at, are as before. -/
structure State.LinesAs (s t : State) : Prop where
  regs : ∀ a ≠ FLASHC_STAT, t.reg a = s.reg a
  intc : t.dev.intc = s.dev.intc
  sys : t.dev.sys = s.dev.sys
  irq : t.dev.hostp.appIrq = s.dev.hostp.appIrq

theorem State.LinesAs.level (h : s.LinesAs t) (n : Nat) : t.level n = s.level n := by
  have hstim (k : Nat) : t.reg (STIM_STAT k) = s.reg (STIM_STAT k) := h.regs _ (by simp only [STIM_STAT, FLASHC_STAT]; omega)
  have hciph (k : Nat) : t.reg (FLT (ciphPage k)) = s.reg (FLT (ciphPage k)) := h.regs _ (by simp only [FLT, ciphPage, FLASHC_STAT]; omega)
  simp only [State.level, State.fault, State.fld, State.bit, State.en, h.sys, h.irq, hstim, hciph]
  split <;> simp (disch := decide) only [h.regs]

theorem State.LinesAs.linePrio (h : s.LinesAs t) (n : Nat) : t.linePrio n = s.linePrio n :=
  State.linePrio_congr (fun k => h.regs _ (by simp only [INTC_PRIO, FLASHC_STAT]; omega)) n

theorem State.LinesAs.topLine (h : s.LinesAs t) : t.topLine = s.topLine :=
  State.topLine_congr (fun n => State.linePending_congr (l := [FLASHC_STAT]) (fun a ha => h.regs a (by simpa using ha))
    (fun k => by simp only [List.mem_singleton, INTC_EN, INTC_MODE, FLASHC_STAT]; omega) h.intc (h.level n)) h.linePrio

theorem State.linesAs_refl (s : State) : s.LinesAs s := ⟨fun _ _ => rfl, rfl, rfl, rfl⟩

theorem State.LinesAs.trans (h : s.LinesAs t) (g : t.LinesAs u) : s.LinesAs u :=
  ⟨fun a ha => (g.regs a ha).trans (h.regs a ha), g.intc.trans h.intc, g.sys.trans h.sys, g.irq.trans h.irq⟩

/-- A window opens on nothing where the caller's IE was 0 or no line is pending. -/
theorem windowTaken_quiet (h : bitOf p.back.2.toNat 7 = false ∨ s.topLine = none) : s.windowTaken p = false := by
  rw [State.windowTaken]
  rcases h with h | h <;> simp [h]

/-! ### Units programmed -/

/-- k units programmed from the i-th on. -/
def State.units (t : State) (p : Prog) (i k : Nat) : State := t.putMem (p.dst + 16 * i) (t.bytes (p.src + 16 * i) (16 * k))

/-- The destination lies in flash and the source in main SRAM, so that programming does not change the source. -/
structure Prog.Placed (p : Prog) : Prop where
  dst : 0x01000000 ≤ p.dst
  top : p.dst + 16 * p.total ≤ 0x01400000
  src : 0x20000000 ≤ p.src

theorem gives_programUnit {i : Nat} (hl : lowAt ≠ some i) (hf : failAt ≠ some i) :
    (programUnit p.dst p.src failAt lowAt i).Gives t fun r u => r = none ∧ u = t.units p i 1 := by
  rw [programUnit, if_neg hl, if_neg hf]
  exact gives_bind (gives_getS (gives_bind (gives_putBytes (gives_pure ⟨rfl, rfl⟩))))

theorem State.units_add (hp : p.Placed) {i j k : Nat} (hi : i + j ≤ p.total) : (t.units p i j).units p (i + j) k = t.units p i (j + k) := by
  obtain ⟨hd, ht, hs⟩ := hp
  have hend : 16 * (i + j) ≤ 16 * p.total := Nat.mul_le_mul_left 16 hi
  have hsrc : (t.units p i j).bytes (p.src + 16 * (i + j)) (16 * k) = t.bytes (p.src + 16 * i + 16 * j) (16 * k) := by
    rw [State.units, State.putMem_bytes_other (by rw [State.bytes_length]; omega), Nat.mul_add, Nat.add_assoc]
  rw [State.units, hsrc, State.units, State.units, Nat.mul_add 16 j k, State.bytes_add, State.putMem_append, State.bytes_length,
    show p.dst + 16 * (i + j) = p.dst + 16 * i + 16 * j by omega]

section
variable (t p)
@[simp] theorem State.units_dev (i k : Nat) : (t.units p i k).dev = t.dev := State.putMem_dev _ _ _
@[simp] theorem State.units_core (i k : Nat) : (t.units p i k).core = t.core := State.putMem_core _ _ _
@[simp] theorem State.units_reg (i k a : Nat) : (t.units p i k).reg a = t.reg a := State.putMem_reg _ _ _ _
theorem State.units_bytes (i k : Nat) : (t.units p i k).bytes (p.dst + 16 * i) (16 * k) = t.bytes (p.src + 16 * i) (16 * k) := by
  have := State.putMem_bytes t (p.dst + 16 * i) (t.bytes (p.src + 16 * i) (16 * k))
  rwa [State.bytes_length] at this
theorem State.units_zero (i : Nat) : t.units p i 0 = t := rfl
theorem State.linesAs_units (i k : Nat) : t.LinesAs (t.units p i k) := ⟨fun a _ => by simp, by simp, by simp, by simp⟩
end

theorem State.Inv.units (h : t.Inv) (i k : Nat) : (t.units p i k).Inv := h.putMem _ _

/-! ### PROGRAM goes on -/

/-- What PROGRAM comes to after j more units, none of which it stops at, is what it comes to with them done. -/
theorem gives_progGo_skip {Q : Unit → State → Prop} (hp : p.Placed) {k : Nat} : ∀ (j i : Nat) (t : State),
    (bitOf p.back.2.toNat 7 = false ∨ t.topLine = none) → (∀ m, i ≤ m → m < i + j → lowAt ≠ some m ∧ failAt ≠ some m) → i + j < p.total →
    (progGo p failAt lowAt k (i + j)).Gives (t.units p i j) Q → (progGo p failAt lowAt (j + k) i).Gives t Q
  | 0, i, t, _, _, _, h => by rwa [Nat.zero_add]
  | j + 1, i, t, hq, hm, hj, h => by
    rw [Nat.add_right_comm, progGo]
    obtain ⟨hl, hf⟩ := hm i (Nat.le_refl i) (by omega)
    refine gives_bind ((gives_programUnit hl hf).mono ?_)
    rintro _ _ ⟨rfl, rfl⟩
    have hq' : bitOf p.back.2.toNat 7 = false ∨ (t.units p i 1).topLine = none := by rw [(t.linesAs_units p i 1).topLine]; exact hq
    refine gives_bind (gives_getS ?_)
    rw [if_neg (by omega), windowTaken_quiet hq', if_neg Bool.false_ne_true]
    refine gives_progGo_skip hp j (i + 1) _ hq' (fun m h1 h2 => hm m (by omega) (by omega)) (by omega) ?_
    rw [State.units_add hp (by omega), Nat.add_assoc, Nat.add_comm 1 j]
    exact h

/-! ### How PROGRAM ends -/

theorem State.within_recore {F : Foot} {f : Core → Core} (h : F.core = true) : t.Within F (t.recore f) :=
  (State.within_recore_iff h).mpr (t.within_refl F)

/-- The core as PROGRAM gives it back: the results, the caller's place, the registers saved (R279, R281). -/
def Prog.giveBack (p : Prog) (rs : List (Nat × Nat)) (c : Core) : Core :=
  { Core.withResults rs c with
    icache := [], pc := p.back.1 &&& 0xFFFFFFFC, st := p.back.2 &&& stMask, xpc := p.keep.1, xst := p.keep.2, svc := none }

/-- The state in which PROGRAM has ended with a status after i units. -/
structure State.Ended (t u : State) (p : Prog) (i st : Nat) : Prop where
  core : u.core = p.giveBack (programRet p.dst i st) t.core
  dev : u.dev = { t.dev with flash := { t.dev.flash with prog := none } }
  byte : ∀ x, u.byte x = t.byte x
  reg : ∀ a, u.reg a = (if p.ended then t else t.put FLASHC_STAT_STATE p.was).reg a
  within : t.Within { regs := fun a => !p.ended && decide (a = FLASHC_STAT), core := true } u

/-- PROGRAM's end once FLASHC_STAT shows the state before it. -/
def progRest (p : Prog) (i st : Nat) : M Unit := do
  modFlash fun f => { f with prog := none }
  dropCache
  forAll (programRet p.dst i st) fun r => setG r.1 (BitVec.ofNat 32 r.2)
  modCore fun c => { c with pc := p.back.1, st := p.back.2, xpc := p.keep.1, xst := p.keep.2, svc := none }

theorem gives_progRest (h : t.core.Legal) (i st : Nat) : (progRest p i st).Gives t fun _ u =>
    u.core = p.giveBack (programRet p.dst i st) t.core ∧ u.dev = { t.dev with flash := { t.dev.flash with prog := none } } ∧
      (∀ x, u.byte x = t.byte x) ∧ (∀ a, u.reg a = t.reg a) ∧ t.Within { core := true } u := by
  obtain ⟨hpc, hst, hv⟩ := h
  refine gives_bind (gives_act (gives_bind (gives_act (gives_bind ((gives_setResults (Core.norm_norm _)).mono ?_)))))
  rintro _ _ rfl
  refine gives_act ⟨?_, rfl, fun _ => rfl, fun _ => rfl, ?_⟩
  · simp [Prog.giveBack, State.withResults, Core.withResults, Core.norm, BitVec.and_assoc]
    exact hv
  · exact ((State.within_live t rfl).trans (State.within_recore rfl)).trans ((State.within_recore rfl).trans (State.within_recore rfl))

theorem gives_progEnd (h : t.Inv) (i st : Nat) : (progEnd p i st).Gives t fun _ u => t.Ended u p i st := by
  by_cases he : p.ended = true
  · have heq : progEnd p i st = progRest p i st := by rw [progEnd, he]; rfl
    rw [heq]
    refine (gives_progRest h.core i st).mono fun _ u ⟨hc, hd, hb, hr, hw⟩ => ⟨hc, hd, hb, fun a => ?_, ?_⟩
    · rw [hr, if_pos he]
    · rw [he]
      exact hw.of_memCore (fun _ h => h) rfl
  · have hf : p.ended = false := by simpa using he
    have heq : progEnd p i st = setFld FLASHC_STAT_STATE p.was >>= fun _ => progRest p i st := by rw [progEnd, hf]; rfl
    rw [heq]
    refine gives_bind (gives_setFld ((gives_progRest (h.put _ _).core i st).mono fun _ u ⟨hc, hd, hb, hr, hw⟩ => ⟨hc, hd, hb, fun a => ?_, ?_⟩))
    · rw [hr, if_neg he]
    · rw [hf]
      exact (State.within_put _ (by rfl)).trans (hw.of_memCore (fun _ h => h) rfl)

/-! ### PROGRAM between two units -/

/-- ST while PROGRAM stands between two units: the window is open where the caller's IE was 1 (R281). -/
def Prog.windowSt (p : Prog) (st : Word) : Word :=
  if bitOf p.back.2.toNat 7 then bitsPut (bitsPut (bitsPut st 0 0 1) 7 7 1) 6 6 0 else st

/-- The state in which PROGRAM pauses, the i-th unit next. -/
def State.paused (t : State) (p : Prog) (i : Nat) : State :=
  (t.live fun d => { d with flash := { d.flash with prog := some { p with done := i } } }).recore
    fun c => { c with pc := p.pc, svc := none, st := p.windowSt c.st }

theorem gives_progPause {i : Nat} {Q : Unit → State → Prop} (h : Q () (t.paused p i)) : (progPause p i).Gives t Q :=
  gives_bind (gives_act (gives_act h))

theorem State.paused_within (t : State) (p : Prog) (i : Nat) : t.Within { core := true } (t.paused p i) :=
  (State.within_live t rfl).trans (State.within_recore rfl)

theorem State.paused_core (ht : t.core.Legal) (hp : p.pc &&& 0xFFFFFFFC = p.pc) (i : Nat) :
    (t.paused p i).core = { t.core with pc := p.pc, svc := none, st := p.windowSt t.core.st &&& stMask } := by
  obtain ⟨-, -, hv⟩ := ht
  rw [State.paused, State.recore_core, State.live_core, Core.norm]
  simp only [hp, hv]

theorem State.Inv.paused (h : t.Inv) (p : Prog) (i : Nat) : (t.paused p i).Inv := by
  rw [State.paused, State.recore]
  exact Prim.run_inv _ _ (h.live _)

theorem State.linesAs_paused (t : State) (p : Prog) (i : Nat) : t.LinesAs (t.paused p i) := ⟨fun _ _ => rfl, rfl, rfl, rfl⟩

theorem Prog.windowSt_testBit {st : Word} (hst : st &&& stMask = st) (hp : bitOf p.back.2.toNat 7 = true) {i : Nat} (hi : i < 32) :
    (p.windowSt st &&& stMask).toNat.testBit i = if i = 6 then false else if i = 7 ∨ i = 0 then true else st.toNat.testBit i := by
  have hm : st.toNat.testBit i = (st.toNat.testBit i && stMask.toNat.testBit i) := by
    rw [← Nat.testBit_and, ← BitVec.toNat_and, hst]
  rw [Prog.windowSt, if_pos hp, BitVec.toNat_and, Nat.testBit_and, bitsPut_testBit _ _ _ _ _ (by decide) hi, bitsPut_testBit _ _ _ _ _ (by decide) hi,
    bitsPut_testBit _ _ _ _ _ (by decide) hi]
  by_cases h6 : i = 6
  · subst h6; rfl
  · by_cases h7 : i = 7
    · subst h7; rfl
    · by_cases h0 : i = 0
      · subst h0; rfl
      · rw [if_neg (by omega), if_neg (by omega), if_neg (by omega), if_neg h6, if_neg (by omega), ← hm]

/-! ### The checks that PROGRAM and ERASE share (R280) -/

/-- The checks of a unit, in their order, with the status that each ends in. -/
def State.Checks (s : State) (u : Nat) (erase : Bool) (vsys st : Nat) : Prop :=
  (s.unitLocked u = true ∧ st = 8) ∨
  (s.unitLocked u = false ∧
    let busy := s.fld FLASHC_STAT_STATE = 1 ∨ s.fld FLASHC_STAT_STATE = 3 ∨ s.dev.flash.prog ≠ none ∨
      s.fld FLASHC_STAT_STATE = 2 ∧ (erase = true ∨ s.fld FLASHC_STAT_UNIT = u)
    (busy ∧ st = 2) ∨
    (¬ busy ∧ ((u ∈ s.bad ∧ st = 0x34) ∨
      (u ∉ s.bad ∧ ((erase = false ∧ (s.unit u).torn = true ∧ st = 0x35) ∨
        (¬ (erase = false ∧ (s.unit u).torn = true) ∧ ((vsys < 2800 ∧ st = 0x30) ∨ (2800 ≤ vsys ∧ st = 0))))))))

theorem State.targetCheck_of_checks {u vsys st : Nat} {erase : Bool} (h : s.Checks u erase vsys st) : s.targetCheck u erase vsys = st := by
  have hbusy : (s.fld FLASHC_STAT_STATE = 1 ∨ s.fld FLASHC_STAT_STATE = 3 ∨ s.dev.flash.prog.isSome = true ∨
      (s.fld FLASHC_STAT_STATE = 2 ∧ (erase = true ∨ s.fld FLASHC_STAT_UNIT = u))) ↔
      (s.fld FLASHC_STAT_STATE = 1 ∨ s.fld FLASHC_STAT_STATE = 3 ∨ s.dev.flash.prog ≠ none ∨
      s.fld FLASHC_STAT_STATE = 2 ∧ (erase = true ∨ s.fld FLASHC_STAT_UNIT = u)) := by rw [Option.isSome_iff_ne_none]
  have htorn : (!erase && (s.unit u).torn) = true ↔ erase = false ∧ (s.unit u).torn = true := by simp
  unfold State.Checks at h
  simp only [State.targetCheck, hbusy, htorn]
  obtain ⟨hl, rfl⟩ | ⟨hl, ⟨hb, rfl⟩ | ⟨hb, ⟨hbad, rfl⟩ | ⟨hbad, ⟨he, ht, rfl⟩ | ⟨ht, ⟨hv, rfl⟩ | ⟨hv, rfl⟩⟩⟩⟩⟩ := h
  · rw [if_pos hl]
  · rw [if_neg (by rw [hl]; decide), if_pos hb]
  · rw [if_neg (by rw [hl]; decide), if_neg hb, if_pos hbad]
  · rw [if_neg (by rw [hl]; decide), if_neg hb, if_neg hbad, if_pos ⟨he, ht⟩]
  · rw [if_neg (by rw [hl]; decide), if_neg hb, if_neg hbad, if_neg ht, if_pos hv]
  · rw [if_neg (by rw [hl]; decide), if_neg hb, if_neg hbad, if_neg ht, if_neg (by exact Nat.not_lt.mpr hv)]

/-! ### PROGRAM's own checks -/

/-- A destination, a source and a length that PROGRAM takes (R279, R280). -/
structure ProgramArgs (a src n : Nat) : Prop where
  dst16 : a % 16 = 0
  len16 : n % 16 = 0
  least : 16 ≤ n
  most : n ≤ 4096
  flash : 0x01000000 ≤ a
  top : a + n ≤ 0x01400000
  one : unitOf a = unitOf (a + n - 1)
  src4 : src % 4 = 0
  sram : 0x20000000 ≤ src
  end_ : src + n ≤ 0x20080000

theorem ProgramArgs.ok {a src n : Nat} (h : ProgramArgs a src n) (hc : s.callerTask = false) :
    (a % 16 == 0 && n % 16 == 0 && decide (16 ≤ n ∧ n ≤ 4096) && inFlash a n && src % 4 == 0
      && decide (0x20000000 ≤ src ∧ src + n ≤ 0x20080000) && unitOf a == unitOf (a + n - 1) && s.mayRead src n) = true := by
  obtain ⟨h1, h2, h3, h4, h5, h6, h7, h8, h9, h10⟩ := h
  simp [inFlash, State.mayRead, h1, h2, h3, h4, h5, h6, ← h7, h8, h9, h10, hc]

theorem gives_programStop {a src n vsys st : Nat} (h : ProgramArgs a src n) (hc : s.callerTask = false) (hst : st ≠ 0)
    (hk : s.Checks (unitOf a) false vsys st) : (programStop a src n vsys).Gives s fun r t => r = some (ret st [(1, 0), (2, 0)]) ∧ t = s := by
  refine gives_bind (gives_getS ?_)
  dsimp only
  rw [h.ok hc, if_pos rfl, State.targetCheck_of_checks hk, if_pos hst]
  exact gives_pure ⟨rfl, rfl⟩

theorem gives_programStop_args {a src n vsys : Nat}
    (h : a % 16 ≠ 0 ∨ n % 16 ≠ 0 ∨ n < 16 ∨ 4096 < n ∨ a < 0x01000000 ∨ 0x01400000 < a + n ∨ src % 4 ≠ 0) :
    (programStop a src n vsys).Gives s fun r t => r = some (ret 3 [(1, 0), (2, 0)]) ∧ t = s := by
  have hok : (a % 16 == 0 && n % 16 == 0 && decide (16 ≤ n ∧ n ≤ 4096) && inFlash a n && src % 4 == 0
      && decide (0x20000000 ≤ src ∧ src + n ≤ 0x20080000) && unitOf a == unitOf (a + n - 1) && s.mayRead src n) = false := by
    rw [← Bool.not_eq_true]
    simp only [inFlash, Bool.and_eq_true, beq_iff_eq, decide_eq_true_eq]
    rintro ⟨⟨⟨⟨⟨⟨⟨h1, h2⟩, h3, h4⟩, h5, h6⟩, h7⟩, -⟩, -⟩, -⟩
    omega
  refine gives_bind (gives_getS ?_)
  dsimp only
  rw [hok, if_neg Bool.false_ne_true, if_pos (by decide)]
  exact gives_pure ⟨rfl, rfl⟩

theorem firstUsed_none {a n : Nat} (hb : ∀ x, a ≤ x → x < a + n → s.byte x = 0xFF) (he : s.dev.eccBad = []) : s.firstUsed a n = none := by
  rw [State.firstUsed, List.find?_eq_none]
  intro x hx
  obtain ⟨i, hi, rfl⟩ := List.mem_map.mp hx
  have hi := List.mem_range.mp hi
  have : s.blankAt (a + 16 * i) 16 = true := by
    rw [State.blankAt, he]
    simp only [List.any_nil, Bool.not_false, Bool.and_true, List.all_eq_true, State.bytes, List.mem_map, List.mem_range]
    rintro _ ⟨j, hj, rfl⟩
    rw [hb _ (by omega) (by omega)]
    decide
  simp [this]

theorem gives_programStop_none {a src n vsys : Nat} (h : ProgramArgs a src n) (hc : s.callerTask = false) (hk : s.Checks (unitOf a) false vsys 0)
    (hb : ∀ x, a ≤ x → x < a + n → s.byte x = 0xFF) (he : s.dev.eccBad = []) :
    (programStop a src n vsys).Gives s fun r t => r = none ∧ t = s := by
  refine gives_bind (gives_getS ?_)
  dsimp only
  rw [h.ok hc, if_pos rfl, State.targetCheck_of_checks hk, if_neg (by decide), firstUsed_none hb he]
  exact gives_pure ⟨rfl, rfl⟩

/-! ### A call -/

theorem State.reg_put_congr {f : Fld} {v : Nat} (h : ∀ a, t.reg a = s.reg a) (a : Nat) : (t.put f v).reg a = (s.put f v).reg a := by
  by_cases ha : a = f.addr
  · subst ha
    rw [State.put, State.put, State.reg_written, State.reg_written, h]
  · rw [State.reg_put_other _ ha, State.reg_put_other _ ha, h]

theorem State.Within.widen_nothing (h : s.Within {} t) (F : Foot) : s.Within F t :=
  ⟨fun a _ => h.regs a rfl, fun a _ => h.mem a rfl, fun x _ => h.tab x rfl, fun _ => h.otp rfl, fun _ => h.bad rfl, fun _ => h.core rfl,
    fun _ => h.keys rfl, h.pending⟩

/-- The token of the AO image goes with a program or erase of a block (R375). -/
theorem gives_dropToken {k : Nat} : (dropToken k).Gives s fun _ t =>
    (∃ x, t = s.live fun d => { d with pwr := { d.pwr with token := x } }) ∧ (16 ≤ k → t.dev.pwr.token = false) := by
  rw [dropToken]
  split
  · exact gives_act ⟨⟨false, rfl⟩, fun _ => rfl⟩
  · next hk => exact gives_nop ⟨⟨s.dev.pwr.token, rfl⟩, fun h => absurd h hk⟩

theorem gives_freeIn {lo hi : Nat} (h : lo ≤ hi) : (freeIn lo hi).Gives s fun k t => lo ≤ k ∧ k ≤ hi ∧ s.Drawn t :=
  gives_bind (gives_freeNat_drawn.mono fun k t ht => gives_pure ⟨Nat.le_add_right _ _, by
    have := Nat.mod_lt k (show 0 < hi - lo + 1 by omega)
    omega, ht⟩)

section
variable {vsys : Nat} {l : Stretch} (h : s.Serves 0xF000)
include h

/-- A command of PROGRAM where the core does not stand between two of its units. -/
theorem execProgram_call : exec (.program vsys failAt l) s = cmd s (called 0xF000 (progStart vsys failAt l.low l.steps)) := by
  show cmd s _ = cmd s _
  refine congrArg (cmd s) ?_
  cases hp : s.dev.flash.prog with
  | none => rfl
  | some p =>
    dsimp only
    rw [if_neg]
    simp [h.fresh p hp]

theorem program_stops {st : Nat} (hs : (programStop (s.g 1).toNat (s.g 2).toNat (s.g 3).toNat vsys).Gives s
    fun r t => r = some (ret st [(1, 0), (2, 0)]) ∧ t = s) :
    Completes (.program vsys failAt l) s fun t => s.Served t [(0, st), (1, 0), (2, 0)] := by
  refine completes_cmd (execProgram_call h) (gives_called h (gives_bind ((gives_jOwed h.owed).mono fun _ t ht => ?_)))
  rw [ht]
  refine gives_bind (gives_getS (gives_bind (hs.mono ?_)))
  rintro _ t ⟨rfl, ht⟩
  rw [ht]
  have hback : ∀ u, u = s.comeBack s (ret st [(1, 0), (2, 0)]) → s.Served (latchEdges s u) [(0, st), (1, 0), (2, 0)] := fun u hu => by
    rw [hu]
    exact served_comeBack h (by simp [ret]) rfl (s.within_refl _)
  refine gives_bind ((gives_setResults (Core.norm_of_legal h.inv.core)).mono ?_)
  rintro _ _ rfl
  by_cases hpc : s.core.pc = romSvc
  · rw [if_pos hpc]
    exact gives_act (hback _ (by rw [State.comeBack, if_pos hpc]; rfl))
  · rw [if_neg hpc]
    exact gives_nop (hback _ (by rw [State.comeBack, if_neg hpc]))

/-- The PROGRAM that a call begins: its parameters, the state before it, and what it gives back (R281). -/
def State.progOf (s : State) (pc : Nat) : Prog :=
  { dst := (s.g 1).toNat, src := (s.g 2).toNat, total := (s.g 3).toNat / 16, was := s.fld FLASHC_STAT_STATE, pc := BitVec.ofNat 32 (4 * pc)
    back := if s.core.pc = romSvc then (s.core.xpc, s.core.xst) else (s.core.pc, s.core.st), keep := (s.core.xpc, s.core.xst) }

/-- A PROGRAM has begun: FLASHC_STAT shows it, and nothing is programmed yet. -/
structure State.ProgBegun (s u : State) (p : Prog) : Prop where
  inv : u.Inv
  core : u.core = s.core
  reg : ∀ a, u.reg a = (s.put FLASHC_STAT_STATE 3).reg a
  byte : ∀ x, u.byte x = s.byte x
  prog : u.dev.flash.prog = some p
  lines : s.LinesAs u
  token : 16 ≤ unitOf p.dst → u.dev.pwr.token = false
  eccBad : u.dev.eccBad = s.dev.eccBad
  within : s.Within (onlyRegs [FLASHC_STAT]) u

/-- A call past its checks: PROGRAM goes on from its first unit. -/
theorem program_begins {P : State → Prop} (hs : (programStop (s.g 1).toNat (s.g 2).toNat (s.g 3).toNat vsys).Gives s fun r t => r = none ∧ t = s)
    (hg : ∀ pc, 0x400 ≤ pc → pc ≤ 0x3FFF → ∀ u, s.ProgBegun u (s.progOf pc) →
      (progGo (s.progOf pc) failAt l.low (l.steps.getD ((s.g 3).toNat / 16)) 0).Gives u fun _ v => P (latchEdges s v)) :
    Completes (.program vsys failAt l) s P := by
  refine completes_cmd (execProgram_call h) (gives_called h (gives_bind ((gives_jOwed h.owed).mono fun _ t ht => ?_)))
  rw [ht]
  refine gives_bind (gives_getS (gives_bind (hs.mono ?_)))
  rintro _ t ⟨rfl, ht⟩
  rw [ht]
  refine gives_bind (gives_dropToken.mono ?_)
  rintro _ t ⟨⟨x, ht⟩, htoken⟩
  have hti : t.Inv := ht ▸ h.inv.live _
  refine gives_bind ((gives_freeIn (by decide)).monoInv hti ?_)
  rintro pc u hu ⟨hlo, hhi, hdrawn⟩
  refine gives_bind (gives_act (gives_bind (gives_setFld (hg pc hlo hhi _ ?_))))
  have hw : s.Within {} u := (show s.Within {} t by rw [ht]; exact State.within_live s rfl).trans hdrawn.within
  have hdev : u.dev = { s.dev with pwr := { s.dev.pwr with token := x } } := by rw [hdrawn.dev, ht]; rfl
  have hreg : ∀ a, u.reg a = s.reg a := fun a => hw.regs a rfl
  refine ⟨Prim.run_inv _ _ (Prim.run_inv _ _ hu), ?_, fun a => ?_, fun y => ?_, rfl, ⟨fun a ha => ?_, ?_, ?_, ?_⟩, fun hk => ?_, ?_, ?_⟩
  · exact (hw.core rfl : u.core = s.core)
  · exact State.reg_put_congr (fun b => hreg b) a
  · exact hw.mem y rfl
  · exact (State.reg_put_other _ ha).trans (hreg a)
  · show u.dev.intc = _
    rw [hdev]
  · show u.dev.sys = _
    rw [hdev]
  · show u.dev.hostp.appIrq = _
    rw [hdev]
  · show u.dev.pwr.token = _
    rw [hdrawn.dev]
    exact htoken hk
  · show u.dev.eccBad = _
    rw [hdev]
  · exact ((hw.widen_nothing (onlyRegs [FLASHC_STAT])).trans (State.within_live _ rfl)).trans (State.within_put _ (by rfl))

end

/-! ### What PROGRAM comes to -/

section
variable (hp : p.Placed) (ht : t.Inv) (hq : bitOf p.back.2.toNat 7 = false ∨ t.topLine = none)
include hp ht hq

theorem gives_progGo_all {k i : Nat} (hi : i < p.total) (hk : p.total ≤ i + k) :
    (progGo p none none k i).Gives t fun _ u => (t.units p i (p.total - i)).Ended u p p.total stOk := by
  obtain ⟨j, hj⟩ := Nat.exists_eq_add_of_lt hi
  obtain ⟨m, rfl⟩ := Nat.exists_eq_add_of_lt (show j < k by omega)
  rw [Nat.add_assoc]
  refine gives_progGo_skip (k := m + 1) hp j i t hq (fun m _ _ => ⟨by simp, by simp⟩) (by omega) ?_
  refine gives_bind ((gives_programUnit (by simp) (by simp)).mono ?_)
  rintro _ _ ⟨rfl, rfl⟩
  refine gives_bind (gives_getS ?_)
  rw [if_pos (by omega), State.units_add hp (by omega), show j + 1 = p.total - i by omega, show i + j + 1 = p.total by omega]
  exact gives_progEnd (ht.units _ _) _ _

theorem gives_progGo_low {k i f : Nat} (hf : i ≤ f) (hk : f < i + k) (hi : f < p.total) :
    (progGo p none (some f) k i).Gives t fun _ u => (t.units p i (f - i)).Ended u p f stLowSupply := by
  obtain ⟨j, rfl⟩ := Nat.exists_eq_add_of_le hf
  obtain ⟨m, rfl⟩ := Nat.exists_eq_add_of_lt (show j < k by omega)
  rw [Nat.add_sub_cancel_left, Nat.add_assoc]
  refine gives_progGo_skip hp j i t hq (fun m h1 h2 => ⟨by simp; omega, by simp⟩) (by omega) ?_
  rw [progGo, programUnit, if_pos rfl]
  exact gives_bind (gives_pure (gives_progEnd (ht.units _ _) _ _))

/-- The octets of one unit. -/
def Prog.unitAt (p : Prog) (f x : Nat) : Bool := decide (p.dst + 16 * f ≤ x ∧ x < p.dst + 16 * f + 16)

theorem gives_progGo_fails {k i f : Nat} (hf : i ≤ f) (hk : f < i + k) (hi : f < p.total) :
    (progGo p (some f) none k i).Gives t fun _ u => ∃ v, (t.units p i (f - i)).Burnt v (p.unitAt f) ∧ v.Ended u p f stProgFail := by
  obtain ⟨j, rfl⟩ := Nat.exists_eq_add_of_le hf
  obtain ⟨m, rfl⟩ := Nat.exists_eq_add_of_lt (show j < k by omega)
  rw [Nat.add_sub_cancel_left, Nat.add_assoc]
  refine gives_progGo_skip hp j i t hq (fun m h1 h2 => ⟨by simp, by simp; omega⟩) (by omega) ?_
  rw [progGo, programUnit, if_neg (by simp), if_pos rfl]
  refine gives_bind (gives_bind ((gives_spoilUnit (p := p.unitAt (i + j)) fun x hx => decide_eq_true ⟨by omega, by omega⟩).monoInv (ht.units _ _)
    fun _ v hv hb => gives_pure ((gives_progEnd hv _ _).mono fun _ u hu => ⟨v, hb, hu⟩)))

end

/-! ### How a call has ended -/

/-- FLASHC_STAT as before, once STATE is put back. -/
theorem State.reg_put_back (h : s.Inv) (x a : Nat) :
    ((s.put FLASHC_STAT_STATE x).put FLASHC_STAT_STATE (s.fld FLASHC_STAT_STATE)).reg a = s.reg a := by
  by_cases ha : a = FLASHC_STAT
  · have hsets := ((did_refl (F := {}) (noted := []) h).put (f := FLASHC_STAT_STATE) (by decide) x).put (f := FLASHC_STAT_STATE) (by decide)
      (s.fld FLASHC_STAT_STATE)
    rw [hsets.sets.regs a (by simp) rfl, ha]
    simp only [State.after, List.nil_append, List.cons_append, List.foldl_cons, List.foldl_nil, if_true]
    rw [bitsPut_over _ (by decide)]
    exact bitsPut_self _ _ _ (by decide)
  · rw [State.reg_put_other _ ha, State.reg_put_other _ ha]

theorem State.Burnt.mono {q r : Nat → Bool} (h : s.Burnt t q) (hq : ∀ x, q x = true → r x = true) : s.Burnt t r :=
  ⟨h.within.of_memCore hq rfl, h.core, h.dev⟩

theorem State.burnt_units {i k : Nat} {q : Nat → Bool} (hq : ∀ x, p.dst + 16 * i ≤ x → x < p.dst + 16 * i + 16 * k → q x = true) :
    t.Burnt (t.units p i k) q :=
  burnt_putMem fun j hj => by
    rw [State.bytes_length] at hj
    exact hq _ (by omega) (by omega)

section
variable {pc i st : Nat} {v w : State} {q : Nat → Bool}

/-- A call of PROGRAM that began in `u`, programmed up to `v` and ended in `w`. -/
theorem served_ended (h : s.Serves 0xF000) (hb : s.ProgBegun u (s.progOf pc)) (hv : u.Burnt v q) (hw : v.Ended w (s.progOf pc) i st) :
    s.Served (latchEdges s w) (programRet (s.g 1).toNat i st) { mem := q } := by
  obtain ⟨hpc, hst, hvb⟩ := h.inv.core
  obtain ⟨ic, hc⟩ : ∃ ic, v.core = { s.core with icache := ic } := ⟨v.core.icache, by rw [← hb.core]; exact hv.core⟩
  have hcore : (latchEdges s w).core = (s.progOf pc).giveBack (programRet (s.g 1).toNat i st) s.core := by
    rw [latchEdges_core, hw.core, hc]
    rfl
  have hreg : ∀ a, w.reg a = s.reg a := fun a => by
    rw [hw.reg, if_neg (by exact Bool.false_ne_true), State.reg_put_congr (t := v) (s := s.put FLASHC_STAT_STATE 3)]
    · exact State.reg_put_back h.inv 3 a
    · exact fun b => (hv.within.regs b rfl).trans (hb.reg b)
  have hwit : s.Within { regs := fun _ => true, mem := q, core := true } w := by
    have h1 : s.Within { regs := fun _ => true, mem := q, core := true } u := hb.within.of_onlyRegs fun _ _ => rfl
    have h2 : u.Within { regs := fun _ => true, mem := q, core := true } v := hv.within.of_memCore (fun _ hx => hx) rfl
    have hww := hw.within
    exact (h1.trans h2).trans ⟨fun _ hf => Bool.noConfusion (hf : true = false), fun x _ => hww.mem x rfl, fun x _ => hww.tab x rfl, fun _ => hww.otp rfl,
      fun _ => hww.bad rfl, fun hf => Bool.noConfusion (hf : true = false), fun _ => hww.keys rfl, hww.pending⟩
  refine ⟨fun k => ?_, ?_, ?_, ?_, ?_, ?_, State.Within.latch ⟨fun a _ => hreg a, hwit.mem, hwit.tab, hwit.otp, hwit.bad, fun hf => Bool.noConfusion (hf : true = false),
    hwit.keys, hwit.pending⟩⟩
  · rw [State.g, hcore]
    exact val_setResults (by simp [programRet, ret]) _ _
  · rw [hcore, Prog.giveBack, State.progOf]
    by_cases hr : s.core.pc = romSvc
    · simp only [if_pos hr]
    · simp only [if_neg hr]; exact hpc
  · rw [hcore, Prog.giveBack, State.progOf]
    by_cases hr : s.core.pc = romSvc
    · simp only [if_pos hr]
    · simp only [if_neg hr]; exact hst
  all_goals rw [hcore]; rfl

end

/-! ### A call that runs to its end (R279–R281) -/

theorem ProgramArgs.placed (ha : ProgramArgs (s.g 1).toNat (s.g 2).toNat (s.g 3).toNat) (pc : Nat) : (s.progOf pc).Placed :=
  ⟨ha.flash, by have := ha.top; have := ha.len16; show (s.g 1).toNat + 16 * ((s.g 3).toNat / 16) ≤ _; omega, ha.sram⟩

theorem State.progOf_back (s : State) (pc : Nat) : (s.progOf pc).back = (if s.core.pc = romSvc then s.core.xpc else s.core.pc, s.callerSt) := by
  rw [State.progOf, State.callerSt]
  by_cases h : s.core.pc = romSvc
  · simp only [if_pos h]
  · simp only [if_neg h]

/-- Where PROGRAM stands in the ROM between two units. -/
theorem State.progOf_pc (s : State) {pc : Nat} (hlo : 0x400 ≤ pc) (hhi : pc ≤ 0x3FFF) :
    (s.progOf pc).pc &&& 0xFFFFFFFC = (s.progOf pc).pc ∧ (s.progOf pc).pc.toNat < 0x10000 := by
  have hv : (BitVec.ofNat 32 (4 * pc)).toNat = 4 * pc := by
    rw [BitVec.toNat_ofNat, Nat.mod_eq_of_lt (by omega)]
  refine ⟨(aligned_iff _).mpr ?_, ?_⟩
  · show (BitVec.ofNat 32 (4 * pc)).toNat % 4 = 0
    rw [hv]
    omega
  · show (BitVec.ofNat 32 (4 * pc)).toNat < 0x10000
    rw [hv]
    omega

theorem State.ProgBegun.quiet {pc : Nat} (hb : s.ProgBegun u (s.progOf pc)) (hq : bitOf s.callerSt.toNat 7 = false ∨ s.topLine = none) :
    bitOf (s.progOf pc).back.2.toNat 7 = false ∨ u.topLine = none := by
  rw [hb.lines.topLine, State.progOf_back]
  exact hq

/-- The source's octets at the destination. -/
theorem State.ProgBegun.units_bytes {pc : Nat} (hb : s.ProgBegun u (s.progOf pc)) (k : Nat) :
    (u.units (s.progOf pc) 0 k).bytes (s.g 1).toNat (16 * k) = s.bytes (s.g 2).toNat (16 * k) :=
  (State.units_bytes u (s.progOf pc) 0 k).trans (bytes_of_byte hb.byte _ _)

section
variable {vsys : Nat} (h : s.Serves 0xF000) (ha : ProgramArgs (s.g 1).toNat (s.g 2).toNat (s.g 3).toNat)
  (hs : (programStop (s.g 1).toNat (s.g 2).toNat (s.g 3).toNat vsys).Gives s fun r t => r = none ∧ t = s)
include h ha hs

/-- PROGRAM pauses between two units, the k-th next. -/
theorem program_pauses (hq : bitOf s.callerSt.toNat 7 = false ∨ s.topLine = none) {k : Nat} (hk : k < (s.g 3).toNat / 16) :
    Completes (.program vsys none { steps := some k }) s fun t =>
      t.fld FLASHC_STAT_STATE = 3 ∧ t.bytes (s.g 1).toNat (16 * k) = s.bytes (s.g 2).toNat (16 * k) ∧ (∀ r, t.g r = s.g r) ∧
      (∃ p, t.dev.flash.prog = some p ∧ p.dst = (s.g 1).toNat ∧ p.src = (s.g 2).toNat ∧ p.total = (s.g 3).toNat / 16 ∧ p.done = k ∧
        p.was = s.fld FLASHC_STAT_STATE ∧ p.ended = false ∧ t.core.pc = p.pc ∧ p.pc.toNat < 0x10000 ∧
        p.back = (if s.core.pc = 0x40 then s.core.xpc else s.core.pc, s.callerSt)) ∧
      s.Within { regs := (onlyRegs [FLASHC_STAT]).regs, mem := fun x => decide ((s.g 1).toNat ≤ x ∧ x < (s.g 1).toNat + 16 * k), core := true } t := by
  refine program_begins h hs fun pc hlo hhi u hb => ?_
  refine gives_progGo_skip (k := 0) (ha.placed pc) k 0 u (hb.quiet hq) (fun m _ _ => ⟨by simp, by simp⟩) (by rw [Nat.zero_add]; exact hk) ?_
  rw [Nat.zero_add, progGo]
  have hbase : (u.units (s.progOf pc) 0 k).core = s.core := (State.units_core _ _ _ _).trans hb.core
  have haligned := s.progOf_pc hlo hhi
  have hcore := State.paused_core (t := u.units (s.progOf pc) 0 k) (by rw [hbase]; exact h.inv.core) haligned.1 k
  rw [hbase] at hcore
  refine gives_progPause ⟨?_, ?_, fun r => ?_, ⟨{ s.progOf pc with done := k }, ?_, rfl, rfl, rfl, rfl, rfl, rfl, ?_, haligned.2, s.progOf_back pc⟩, ?_⟩
  · rw [latchEdges_fld]
    show ((u.units (s.progOf pc) 0 k).paused _ _).fld _ = 3
    rw [State.fld, (State.paused_within _ _ _).regs _ rfl, State.units_reg, hb.reg, ← State.fld, State.fld_put_same (Fld.full_of_settable (by decide))]
    rfl
  · rw [latchEdges_bytes, bytes_of_byte fun x => (State.paused_within (u.units (s.progOf pc) 0 k) _ _).mem x rfl]
    exact hb.units_bytes k
  · rw [latchEdges_g, State.g, hcore]
    rfl
  · rw [latchEdges_dev]
    rfl
  · rw [latchEdges_core, hcore]
  · have hfoot : u.Burnt (u.units (s.progOf pc) 0 k) fun x => decide ((s.g 1).toNat ≤ x ∧ x < (s.g 1).toNat + 16 * k) :=
      State.burnt_units fun x h1 h2 => decide_eq_true ⟨h1, h2⟩
    exact (((hb.within.of_onlyRegs fun a ha => decide_eq_true ha).trans (hfoot.within.of_memCore (fun _ hx => hx) rfl)).trans
      ((State.paused_within _ _ _).of_memCore (p := fun _ => false) (fun _ hx => by cases hx) rfl)).latch

variable (hq : bitOf s.callerSt.toNat 7 = false ∨ s.topLine = none)
include hq

theorem program_ends : Completes (.program vsys none {}) s fun t =>
    s.Served t [(0, 0), (1, (s.g 3).toNat), (2, 0)] { mem := fun x => decide ((s.g 1).toNat ≤ x ∧ x < (s.g 1).toNat + (s.g 3).toNat) } ∧
    t.bytes (s.g 1).toNat (s.g 3).toNat = s.bytes (s.g 2).toNat (s.g 3).toNat ∧ t.core.icache = [] ∧ t.dev.flash.prog = none ∧
    (16 ≤ unitOf (s.g 1).toNat → t.dev.pwr.token = false) := by
  have hn : 16 * ((s.g 3).toNat / 16) = (s.g 3).toNat := by have := ha.len16; omega
  have hpos : 0 < (s.g 3).toNat / 16 := by have := ha.least; omega
  refine program_begins h hs fun pc hlo hhi u hb => ?_
  refine (gives_progGo_all (ha.placed pc) hb.inv (hb.quiet hq) (k := (s.g 3).toNat / 16) (i := 0) hpos (Nat.le_add_left _ _)).mono fun _ w hw => ?_
  have hburnt : u.Burnt (u.units (s.progOf pc) 0 ((s.g 3).toNat / 16)) fun x => decide ((s.g 1).toNat ≤ x ∧ x < (s.g 1).toNat + (s.g 3).toNat) :=
    State.burnt_units fun x h1 h2 => decide_eq_true (by rw [hn] at h2; exact ⟨h1, h2⟩)
  have hserved := served_ended h hb hburnt hw
  rw [show programRet (s.g 1).toNat (s.progOf pc).total stOk = [(0, 0), (1, (s.g 3).toNat), (2, 0)] by
    rw [programRet, show (s.progOf pc).total = (s.g 3).toNat / 16 from rfl, hn]; rfl] at hserved
  refine ⟨hserved, ?_, ?_, ?_, fun hu => ?_⟩
  · rw [latchEdges_bytes, bytes_of_byte hw.byte]
    have := hb.units_bytes ((s.g 3).toNat / 16)
    rwa [hn] at this
  · rw [latchEdges_core, hw.core]; rfl
  · rw [latchEdges_dev, hw.dev]
  · rw [latchEdges_dev, hw.dev, State.units_dev]
    exact hb.token hu

theorem program_fails {i : Nat} (hi : i < (s.g 3).toNat / 16) : Completes (.program vsys (some i) {}) s fun t =>
    s.Served t [(0, 0x33), (1, 16 * i), (2, (s.g 1).toNat + 16 * i)] { mem := fun x => decide ((s.g 1).toNat ≤ x ∧ x < (s.g 1).toNat + 16 * i + 16) } ∧
    t.bytes (s.g 1).toNat (16 * i) = s.bytes (s.g 2).toNat (16 * i) := by
  refine program_begins h hs fun pc hlo hhi u hb => ?_
  refine (gives_progGo_fails (ha.placed pc) hb.inv (hb.quiet hq) (k := (s.g 3).toNat / 16) (i := 0) (f := i) (Nat.zero_le _) (by omega) hi).mono ?_
  rintro _ w ⟨v, hv, hw⟩
  rw [Nat.sub_zero] at hv
  have hburnt : u.Burnt v fun x => decide ((s.g 1).toNat ≤ x ∧ x < (s.g 1).toNat + 16 * i + 16) :=
    (State.burnt_units fun x h1 h2 => decide_eq_true ⟨h1, Nat.lt_of_lt_of_le h2 (Nat.le_add_right _ _)⟩).trans (hv.mono fun x hx => by
      obtain ⟨h1, h2⟩ := of_decide_eq_true hx
      exact decide_eq_true ⟨Nat.le_trans (Nat.le_add_right _ _) h1, h2⟩)
  refine ⟨served_ended h hb hburnt hw, ?_⟩
  rw [latchEdges_bytes, bytes_of_byte hw.byte, ← hb.units_bytes i]
  exact hv.within.bytes fun j hj => decide_eq_false fun hx => absurd hx.1 (Nat.not_le.mpr (Nat.add_lt_add_left hj _))

theorem program_low {i : Nat} (hi : i < (s.g 3).toNat / 16) : Completes (.program vsys none { low := some i }) s fun t =>
    s.Served t [(0, 0x30), (1, 16 * i), (2, (s.g 1).toNat + 16 * i)] { mem := fun x => decide ((s.g 1).toNat ≤ x ∧ x < (s.g 1).toNat + 16 * i) } ∧
    t.bytes (s.g 1).toNat (16 * i) = s.bytes (s.g 2).toNat (16 * i) := by
  refine program_begins h hs fun pc hlo hhi u hb => ?_
  refine (gives_progGo_low (ha.placed pc) hb.inv (hb.quiet hq) (k := (s.g 3).toNat / 16) (i := 0) (f := i) (Nat.zero_le _) (by omega) hi).mono fun _ w hw => ?_
  rw [Nat.sub_zero] at hw
  refine ⟨served_ended h hb (State.burnt_units fun x h1 h2 => decide_eq_true ⟨h1, h2⟩) hw, ?_⟩
  rw [latchEdges_bytes, bytes_of_byte hw.byte]
  exact hb.units_bytes i

end

/-! ### A window that opens on an interrupt (R262, R281) -/

theorem gives_accept {n : Nat} (hs : s.Inv) (he : s.executes = true) (hslot : s.core.slot = none)
    (hacc : s.wouldAccept (bitOf s.core.st.toNat 7) = some n) (hv : s.VectorAt (32 + n)) :
    acceptInterrupt.Gives s fun _ v =>
      (∃ x, v.core = s.core.accepted (s.linePrio n) (s.memWord (s.core.vbase + BitVec.ofNat 32 (4 * (32 + n))).toNat) x) ∧
      s.Within coreFoot v ∧ v.dev.flash = s.dev.flash := by
  refine gives_bind (gives_getS ?_)
  rw [if_pos (by simp [he, hslot]), hacc]
  refine gives_bind (gives_perf.monoInv hs ?_)
  rintro _ t hti ⟨ht, _⟩
  refine gives_bind (gives_act ?_)
  generalize hu : Prim.run _ t = u
  have hui : u.Inv := hu ▸ Prim.run_inv _ _ hti
  have huc : u.core = s.core := by rw [← hu, Prim.run_dev_core, ht.core]
  have huw : s.Within coreFoot u := hu ▸ ht.coreFoot.trans (t.within_live rfl)
  have hud : u.dev.flash = s.dev.flash ∧ u.dev.eccBad = s.dev.eccBad := by rw [← hu, Prim.run_dev_dev, ht.dev]; exact ⟨rfl, rfl⟩
  have hvu : u.VectorAt (32 + n) := ⟨by rw [huc]; exact hv.lo, by rw [huc]; exact hv.hi, by rw [huc, hud.2]; exact hv.clean⟩
  have henter := gives_enter_line (p := s.linePrio n) hui hvu
  rw [huc, huw.memWord fun _ => rfl] at henter
  exact henter.mono fun _ v ⟨hvc, hvw, hvd⟩ => ⟨hvc, huw.trans hvw, by rw [hvd, hud.1]⟩

theorem State.paused_accepts {i n : Nat} (ht : t.core.Legal) (hp : p.pc &&& 0xFFFFFFFC = p.pc) (hie : bitOf p.back.2.toNat 7 = true)
    (htop : t.topLine = some n) (hpl : t.linePrio n < t.pl) :
    (t.paused p i).wouldAccept (bitOf (t.paused p i).core.st.toNat 7) = some n := by
  have hst : (t.paused p i).core.st = p.windowSt t.core.st &&& stMask := by rw [State.paused_core ht hp]
  have hbit {j : Nat} (hj : j < 32) := hst ▸ Prog.windowSt_testBit (p := p) ht.2.1 hie hj
  have hpl' : (t.paused p i).pl = t.pl := by
    rw [State.pl, State.pl]
    congr 1
    refine Nat.eq_of_testBit_eq fun j => ?_
    rw [bitsGet_testBit, bitsGet_testBit]
    by_cases hj : j < 11 - 8 + 1
    · rw [hbit (by omega), if_neg (by omega), if_neg (by omega)]
    · simp [hj]
  rw [State.wouldAccept, (t.linesAs_paused p i).topLine, htop]
  dsimp only
  rw [(t.linesAs_paused p i).linePrio, hpl', bitOf, hbit (by decide), bitOf, hbit (by decide)]
  simp [hpl]

theorem program_taken {vsys n : Nat} (h : s.Serves 0xF000) (ha : ProgramArgs (s.g 1).toNat (s.g 2).toNat (s.g 3).toNat)
    (hs : (programStop (s.g 1).toNat (s.g 2).toNat (s.g 3).toNat vsys).Gives s fun r t => r = none ∧ t = s)
    (hie : bitOf s.callerSt.toNat 7 = true) (h32 : 32 ≤ (s.g 3).toNat) (hslot : s.core.slot = none) (htop : s.topLine = some n)
    (hpl : s.linePrio n < s.pl) (hv : s.VectorAt (32 + n)) (hecc : s.dev.eccBad = []) :
    Completes (.program vsys none {}) s fun t =>
      t.fld FLASHC_STAT_STATE = 3 ∧ t.bytes (s.g 1).toNat 16 = s.bytes (s.g 2).toNat 16 ∧ (∀ r, t.g r = s.g r) ∧
      (∃ p, t.dev.flash.prog = some p ∧ p.done = 1 ∧ p.ended = false ∧ t.core.xpc = p.pc) ∧
      bitsGet t.core.st 11 8 = s.linePrio n ∧
      t.core.pc = s.memWord (s.core.vbase + BitVec.ofNat 32 (4 * (32 + n))).toNat &&& 0xFFFFFFFC := by
  refine program_begins h hs fun pc hlo hhi u hb => ?_
  obtain ⟨k, hk⟩ : ∃ k, (s.g 3).toNat / 16 = k + 2 := ⟨(s.g 3).toNat / 16 - 2, by omega⟩
  show (progGo (s.progOf pc) none none ((s.g 3).toNat / 16) 0).Gives u _
  rw [hk]
  refine gives_bind ((gives_programUnit (by simp) (by simp)).mono ?_)
  rintro _ _ ⟨rfl, rfl⟩
  generalize hw : u.units (s.progOf pc) 0 1 = w
  have hlines : s.LinesAs w := hw ▸ hb.lines.trans (u.linesAs_units _ _ _)
  have hwc : w.core = s.core := by rw [← hw, State.units_core, hb.core]
  have hwi : w.Inv := hw ▸ hb.inv.units _ _
  have hback : bitOf (s.progOf pc).back.2.toNat 7 = true := by rw [State.progOf_back]; exact hie
  have htop' : w.topLine = some n := hlines.topLine.trans htop
  have hpl' : w.linePrio n < w.pl := by rw [hlines.linePrio, State.pl, hwc]; exact hpl
  have hwindow : w.windowTaken (s.progOf pc) = true := by rw [State.windowTaken, hback, htop']; simp [hpl']
  refine gives_bind (gives_getS ?_)
  rw [if_neg (by show ¬ (s.g 3).toNat / 16 ≤ 0 + 1; omega), hwindow, if_pos rfl]
  have haligned := (s.progOf_pc hlo hhi).1
  have hcore := State.paused_core (t := w) hwi.core haligned (0 + 1)
  rw [hwc] at hcore
  have hword : ∀ a, 0x20000000 ≤ a → (w.paused (s.progOf pc) (0 + 1)).memWord a = s.memWord a := fun a hlo' => by
    rw [State.memWord, State.memWord, bytes_of_byte (fun x => (State.paused_within w (s.progOf pc) (0 + 1)).mem x rfl), ← hw, State.units,
      State.putMem_bytes_other (.inr ?_), bytes_of_byte hb.byte]
    have := ha.top
    rw [State.bytes_length]
    show (s.g 1).toNat + 16 * 0 + 16 * 1 ≤ a
    omega
  have hvec : (w.paused (s.progOf pc) (0 + 1)).VectorAt (32 + n) := by
    have hvb : (w.paused (s.progOf pc) (0 + 1)).core.vbase = s.core.vbase := by rw [hcore]
    refine ⟨by rw [hvb]; exact hv.lo, by rw [hvb]; exact hv.hi, ?_⟩
    show _ ∉ w.dev.eccBad
    rw [← hw, State.units_dev, hb.eccBad, hecc]
    exact List.not_mem_nil
  have hexec : (w.paused (s.progOf pc) (0 + 1)).executes = true := by
    have := h.runs
    rw [State.executes] at this ⊢
    rw [hcore, show (w.paused (s.progOf pc) (0 + 1)).dev.sys = s.dev.sys from hlines.sys]
    exact this
  have hacc := State.paused_accepts (i := 0 + 1) hwi.core haligned hback htop' hpl'
  have hinv : (w.paused (s.progOf pc) (0 + 1)).Inv := hwi.paused _ _
  refine gives_bind (gives_progPause ((gives_accept hinv hexec (by rw [hcore]; exact hslot) hacc hvec).mono ?_))
  rintro _ v ⟨⟨x, hvc⟩, hvw, hvf⟩
  have hprio := (State.Entered.of_accepted hinv hvc hvw (State.linePrio_lt _ n)).2
  rw [(w.linesAs_paused _ _).linePrio, hlines.linePrio] at hprio
  have hvb : (w.paused (s.progOf pc) (0 + 1)).core.vbase = s.core.vbase := by rw [hcore]
  rw [hvb] at hvc
  rw [hcore, hword _ hv.lo, (w.linesAs_paused _ _).linePrio, hlines.linePrio] at hvc
  have hbytes : v.bytes (s.g 1).toNat 16 = s.bytes (s.g 2).toNat 16 := by
    rw [bytes_of_byte (fun x => (hvw.mem x rfl).trans ((State.paused_within w (s.progOf pc) (0 + 1)).mem x rfl)), ← hw]
    exact hb.units_bytes 1
  have hstat : v.fld FLASHC_STAT_STATE = 3 := by
    rw [State.fld, hvw.regs _ (by decide), (State.paused_within w (s.progOf pc) (0 + 1)).regs _ rfl, ← hw, State.units_reg, hb.reg, ← State.fld,
      State.fld_put_same (Fld.full_of_settable (by decide))]
    rfl
  refine ⟨by rw [latchEdges_fld]; exact hstat, by rw [latchEdges_bytes]; exact hbytes, fun r => ?_, ⟨{ s.progOf pc with done := 1 }, ?_, rfl, rfl, ?_⟩, ?_, ?_⟩
  · rw [latchEdges_g, State.g, hvc]; rfl
  · rw [latchEdges_dev]
    show v.dev.flash.prog = _
    rw [hvf]
    rfl
  · rw [latchEdges_core, hvc]; rfl
  · rw [latchEdges_core]; exact hprio
  · rw [latchEdges_core, hvc]; rfl

/-- What a PROGRAM that has ended gives back to its caller (R279, R281). -/
def State.GivenBack (s u : State) (p : Prog) (st i : Nat) : Prop :=
  u.g 0 = BitVec.ofNat 32 st ∧ u.g 1 = BitVec.ofNat 32 (16 * i) ∧ (∀ r, 3 ≤ r → u.g r = s.g r) ∧
    u.core.pc = p.back.1 &&& 0xFFFFFFFC ∧ u.core.st = p.back.2 &&& stMask ∧ u.core.xpc = p.keep.1 ∧ u.core.xst = p.keep.2 ∧
    u.dev.flash.prog = none ∧ u.core.icache = []

theorem State.GivenBack.latch {st i : Nat} (h : s.GivenBack u p st i) : s.GivenBack (latchEdges t u) p st i := h

theorem State.Ended.givesBack {i st : Nat} (h : t.Ended u p i st) (hg : t.core.g = s.core.g) : s.GivenBack u p st i := by
  have hget : ∀ k, u.g k = match (programRet p.dst i st).find? fun r => r.1 == k with
      | some r => BitVec.ofNat 32 r.2
      | none => Sparse.get wordReset t.core.g k := fun k => by
    rw [State.g, h.core]
    exact val_setResults (by simp [programRet, ret]) _ _
  refine ⟨hget 0, hget 1, fun r hr => ?_, ?_, ?_, ?_, ?_, by rw [h.dev], ?_⟩
  · have hnone : (programRet p.dst i st).find? (fun x => x.1 == r) = none := List.find?_eq_none.mpr (by
      simp only [programRet, ret, List.mem_cons, List.not_mem_nil, or_false, beq_iff_eq]
      rintro x (rfl | rfl | rfl) <;> dsimp only <;> omega)
    rw [hget, hnone, hg]
    rfl
  all_goals rw [h.core]; rfl

theorem State.Ended.g2 {i st : Nat} (h : t.Ended u p i st) : u.g 2 = BitVec.ofNat 32 (if st = stOk then 0 else p.dst + 16 * i) := by
  rw [State.g, h.core]
  exact val_setResults (rs := programRet p.dst i st) (by simp [programRet, ret]) t.core.g 2

/-! ### PROGRAM goes on after a window (R281, R443) -/

section
variable {vsys : Nat} {l : Stretch} (he : s.executes = true) (hprog : s.dev.flash.prog = some p) (hpc : s.core.pc = p.pc)
include he hprog hpc

theorem execProgram_resume : exec (.program vsys failAt l) s = cmd s (progResume p failAt l.low l.steps) := by
  show cmd s _ = cmd s _
  refine congrArg (cmd s) ?_
  rw [hprog]
  dsimp only
  rw [if_pos (by simp [hpc, he])]

/-- A PROGRAM whose lock was revoked ends (R443). -/
theorem program_revoked (hi : s.Inv) (hend : p.ended = true) : Completes (.program vsys failAt l) s fun t =>
    s.GivenBack t p 7 p.done ∧ s.Within { core := true } t := by
  refine completes_cmd (execProgram_resume he hprog hpc) ?_
  rw [progResume, hend, if_pos rfl]
  refine (gives_progEnd hi p.done stAborted).mono fun _ w hw => ⟨(hw.givesBack rfl).latch, State.Within.latch ?_⟩
  have hww := hw.within
  rw [hend] at hww
  exact hww.of_memCore (p := fun _ => false) (fun _ h => h) rfl

/-- The core as PROGRAM takes it up again: the ROM's status, and the registers it saved. -/
def State.resumed (s : State) (p : Prog) : State :=
  s.recore fun c => { c with xpc := p.keep.1, xst := p.keep.2, st := bitsPut (bitsPut (bitsPut c.st 0 0 1) 7 7 0) 6 6 1 }

omit he hprog hpc in
theorem State.Inv.resumed (h : s.Inv) (p : Prog) : (s.resumed p).Inv := by
  rw [State.resumed, State.recore]
  exact Prim.run_inv _ _ h

/-- A PROGRAM that goes on with no window taken runs to its end. -/
theorem program_resumes (hi : s.Inv) (hend : p.ended = false) (hq : bitOf p.back.2.toNat 7 = false ∨ s.topLine = none) (hdone : p.done < p.total)
    (hwas : p.was < 4) (hp : p.Placed) : Completes (.program vsys none {}) s fun t =>
      s.GivenBack t p 0 p.total ∧ t.g 2 = 0 ∧ t.fld FLASHC_STAT_STATE = p.was ∧
      t.bytes (p.dst + 16 * p.done) (16 * p.total - 16 * p.done) = s.bytes (p.src + 16 * p.done) (16 * p.total - 16 * p.done) ∧
      s.Within { regs := (onlyRegs [FLASHC_STAT]).regs
                 mem := fun x => decide (p.dst + 16 * p.done ≤ x ∧ x < p.dst + 16 * p.total), core := true } t := by
  refine completes_cmd (execProgram_resume he hprog hpc) ?_
  rw [progResume, hend, if_neg Bool.false_ne_true]
  refine gives_bind (gives_act ?_)
  have hlines : s.LinesAs (s.resumed p) := ⟨fun _ _ => rfl, rfl, rfl, rfl⟩
  have hq' : bitOf p.back.2.toNat 7 = false ∨ (s.resumed p).topLine = none := by rw [hlines.topLine]; exact hq
  refine (gives_progGo_all (k := p.total) hp (hi.resumed p) hq' hdone (Nat.le_add_left _ _)).mono fun _ w hw => ?_
  have hlen : 16 * (p.total - p.done) = 16 * p.total - 16 * p.done := Nat.mul_sub _ _ _
  refine ⟨(hw.givesBack (s := s) ?_).latch, ?_, ?_, ?_, State.Within.latch ?_⟩
  · rw [State.units_core]; rfl
  · rw [latchEdges_g, hw.g2]; rfl
  · rw [latchEdges_fld, State.fld, hw.reg, if_neg (by rw [hend]; decide), ← State.fld, State.fld_put_same (Fld.full_of_settable (by decide))]
    exact Nat.mod_eq_of_lt hwas
  · rw [latchEdges_bytes, bytes_of_byte hw.byte, ← hlen, State.units_bytes]
    rfl
  · have hburnt : (s.resumed p).Burnt ((s.resumed p).units p p.done (p.total - p.done))
        (fun x => decide (p.dst + 16 * p.done ≤ x ∧ x < p.dst + 16 * p.total)) :=
      State.burnt_units fun x h1 h2 => decide_eq_true ⟨h1, by rw [hlen] at h2; omega⟩
    have hww := hw.within
    exact ((State.within_recore rfl).trans (hburnt.within.of_memCore (fun _ h => h) rfl)).trans ⟨fun a ha => hww.regs a (by
        show (!p.ended && decide (a = FLASHC_STAT)) = false
        rw [hend, Bool.not_false, Bool.true_and]
        exact decide_eq_false fun h => of_decide_eq_false ha (List.mem_singleton.mpr h)), fun x _ => hww.mem x rfl, fun x _ => hww.tab x rfl,
      fun _ => hww.otp rfl, fun _ => hww.bad rfl, fun hf => Bool.noConfusion (hf : true = false), fun _ => hww.keys rfl, hww.pending⟩

end

/-! ### ERASE (R282) -/

section
variable {vsys : Nat} (h : s.Serves 0xF001) (hc : s.callerTask = false)
include h

theorem erase_args (ha : (s.g 1).toNat ≠ unitBase (unitOf (s.g 1).toNat)) : Completes (.erase vsys) s fun t => s.Served t [(0, 3)] := by
  refine completes_answer rfl h (by simp) (gives_bind (gives_getS ?_))
  dsimp only
  rw [show (inFlash (s.g 1).toNat 16 && (s.g 1).toNat == unitBase (unitOf (s.g 1).toNat)) = false by simp [ha]]
  rw [if_neg Bool.false_ne_true, if_neg (by decide)]
  exact gives_pure ⟨rfl, rfl⟩

variable (ha : (s.g 1).toNat = unitBase (unitOf (s.g 1).toNat)) (hlo : 0x01000000 ≤ (s.g 1).toNat) (hhi : (s.g 1).toNat + 16 ≤ 0x01400000)
include ha hlo hhi

theorem erase_stops {st : Nat} (hst : st ≠ 0) (hk : s.Checks (unitOf (s.g 1).toNat) true vsys st) :
    Completes (.erase vsys) s fun t => s.Served t [(0, st)] := by
  refine completes_answer rfl h (by simp) (gives_bind (gives_getS ?_))
  dsimp only
  rw [show (inFlash (s.g 1).toNat 16 && (s.g 1).toNat == unitBase (unitOf (s.g 1).toNat)) = true by simp [inFlash, hlo, hhi, ← ha], if_pos rfl,
    State.targetCheck_of_checks hk, if_neg hst]
  exact gives_pure ⟨rfl, rfl⟩

/-- A record in the journal's active sector (R287). -/
def State.journalled (s : State) (type unit pulses count : Nat) : State :=
  (s.putMem (unitBase s.dev.flash.jSector + 16 * s.dev.flash.jNext) (jRecord type unit pulses count s.dev.flash.jSeq)).live
    fun d => { d with flash := { d.flash with jNext := s.dev.flash.jNext + 1, jSeq := (s.dev.flash.jSeq + 1) % 2 ^ 32 } }

omit h ha hlo hhi in
theorem gives_jPut {type unit pulses count : Nat} {Q : Unit → State → Prop} (h : Q () (s.journalled type unit pulses count)) :
    (jPut type unit pulses count).Gives s Q :=
  gives_bind (gives_getS (gives_bind (gives_putBytes (gives_act h))))

omit h ha hlo hhi in
theorem jRecord_length (type unit pulses count seq : Nat) : (jRecord type unit pulses count seq).length = 16 := by
  simp [jRecord, leBytes_length]

/-- The state in which the erase of a unit has begun, its token as left. -/
def State.erasing (s : State) (u : Nat) (x : Bool) : State :=
  let v := (s.live fun d => { d with pwr := { d.pwr with token := x } }).live fun d =>
    { d with flash := { d.flash with units := Sparse.upd {} d.flash.units u fun y => { y with count := y.count + 1 } } }
  (((v.journalled 1 u 0 (v.unit u).count).put FLASHC_STAT_UNIT u).put FLASHC_STAT_PULSES 0).put FLASHC_STAT_STATE 1

omit h in
theorem gives_eraseCall (hk : s.Checks (unitOf (s.g 1).toNat) true vsys 0) (hopen : s.dev.flash.jOpen = true) (hroom : s.dev.flash.jNext + 2 ≤ 256) :
    (eraseCall (s.g 1).toNat vsys).Gives s fun r t => r = ret 0 [] ∧ ∃ x, t = s.erasing (unitOf (s.g 1).toNat) x := by
  refine gives_bind (gives_getS ?_)
  dsimp only
  rw [show (inFlash (s.g 1).toNat 16 && (s.g 1).toNat == unitBase (unitOf (s.g 1).toNat)) = true by simp [inFlash, hlo, hhi, ← ha], if_pos rfl,
    State.targetCheck_of_checks hk, if_pos rfl]
  refine gives_bind (gives_dropToken.mono ?_)
  rintro _ t ⟨⟨x, ht⟩, -⟩
  have hf : t.dev.flash = s.dev.flash := by rw [ht]; rfl
  have hjRoom : (jRoom 2).Gives t fun _ u => u = t := by
    refine gives_bind (gives_getS ?_)
    dsimp only
    rw [hf, hopen, if_neg (by decide), if_neg (Nat.not_lt.mpr hroom)]
    exact gives_nop rfl
  refine gives_bind (hjRoom.mono fun _ u hu => ?_)
  rw [hu]
  refine gives_bind (gives_act (gives_bind (gives_getS (gives_bind (gives_jPut (gives_bind (gives_setFld (gives_bind (gives_setFld
    (gives_bind (gives_setFld (gives_pure ⟨rfl, x, ?_⟩))))))))))))
  rw [State.erasing, ht]
  rfl

end

section
variable {k : Nat} {x : Bool}

theorem State.erasing_core : (s.erasing k x).core = s.core := by
  simp only [State.erasing, State.journalled, State.core_put, State.live_core, State.putMem_core]

/-- The record that an erase begins with. -/
theorem State.erasing_byte (y : Nat) : (s.erasing k x).byte y = (s.putMem (unitBase s.dev.flash.jSector + 16 * s.dev.flash.jNext)
    (jRecord 1 k 0 ((s.unit k).count + 1) s.dev.flash.jSeq)).byte y := by
  have hcount : (((s.live fun d => { d with pwr := { d.pwr with token := x } }).live fun d =>
      { d with flash := { d.flash with units := Sparse.upd {} d.flash.units k fun y => { y with count := y.count + 1 } } }).unit k).count =
      (s.unit k).count + 1 := by
    rw [State.unit, State.live_dev]
    dsimp only
    rw [val_upd_same]
    rfl
  simp only [State.erasing, hcount]
  simp only [State.byte_put, State.journalled, State.live_byte, State.putMem_byte, State.live_dev]

theorem State.erasing_dev : (s.erasing k x).dev.flash.jNext = s.dev.flash.jNext + 1 ∧
    ((s.erasing k x).unit k).count = (s.unit k).count + 1 := by
  constructor
  · simp only [State.erasing, State.journalled, State.dev_put, State.live_dev]
  · simp only [State.unit, State.erasing, State.journalled, State.dev_put, State.live_dev, State.putMem_dev, val_upd_same]

theorem State.erasing_fields (hk : k < 256) : (s.erasing k x).fld FLASHC_STAT_STATE = 1 ∧ (s.erasing k x).fld FLASHC_STAT_UNIT = k ∧
    (s.erasing k x).fld FLASHC_STAT_PULSES = 0 := by
  have full : ∀ f ∈ [FLASHC_STAT_STATE, FLASHC_STAT_UNIT, FLASHC_STAT_PULSES], f.settable = true := by decide
  have hst := Fld.full_of_settable (full FLASHC_STAT_STATE (by simp))
  have hun := Fld.full_of_settable (full FLASHC_STAT_UNIT (by simp))
  have hpu := Fld.full_of_settable (full FLASHC_STAT_PULSES (by simp))
  refine ⟨?_, ?_, ?_⟩ <;> simp only [State.erasing]
  · rw [State.fld_put_same hst]
    rfl
  · rw [State.fld_put_apart hst hun _ (by decide), State.fld_put_apart hpu hun _ (by decide), State.fld_put_same hun]
    exact Nat.mod_eq_of_lt hk
  · rw [State.fld_put_apart hst hpu _ (by decide), State.fld_put_same hpu]
    rfl

theorem State.journalled_within {F : Foot} {type unit pulses count : Nat}
    (hm : ∀ i < 16, F.mem (unitBase s.dev.flash.jSector + 16 * s.dev.flash.jNext + i) = true) :
    s.Within F (s.journalled type unit pulses count) := by
  rw [State.journalled]
  refine (State.putMem_within fun i hi => hm i ?_).trans (State.within_live _ (by rfl))
  rwa [jRecord_length] at hi

theorem State.erasing_within {F : Foot} (hr : F.regs FLASHC_STAT = true)
    (hm : ∀ i < 16, F.mem (unitBase s.dev.flash.jSector + 16 * s.dev.flash.jNext + i) = true) : s.Within F (s.erasing k x) := by
  simp only [State.erasing]
  refine State.Within.trans ?_ (State.within_put _ hr)
  refine State.Within.trans ?_ (State.within_put _ hr)
  refine State.Within.trans ?_ (State.within_put _ hr)
  refine State.Within.trans ?_ (State.journalled_within hm)
  exact (State.within_live s (by rfl)).trans (State.within_live _ (by rfl))

end

theorem erase_begins {vsys : Nat} (h : s.Serves 0xF001) (ha : (s.g 1).toNat = unitBase (unitOf (s.g 1).toNat)) (hlo : 0x01000000 ≤ (s.g 1).toNat)
    (hhi : (s.g 1).toNat + 16 ≤ 0x01400000) (hk : s.Checks (unitOf (s.g 1).toNat) true vsys 0) (hopen : s.dev.flash.jOpen = true)
    (hroom : s.dev.flash.jNext + 2 ≤ 256) {r : Nat} (hr : r = unitBase s.dev.flash.jSector + 16 * s.dev.flash.jNext) :
    Completes (.erase vsys) s fun t =>
      s.Served t [(0, 0)] { regs := (onlyRegs [FLASHC_STAT]).regs, mem := fun x => decide (r ≤ x ∧ x < r + 16) } ∧
      t.fld FLASHC_STAT_STATE = 1 ∧ t.fld FLASHC_STAT_UNIT = unitOf (s.g 1).toNat ∧ t.fld FLASHC_STAT_PULSES = 0 ∧
      (t.unit (unitOf (s.g 1).toNat)).count = (s.unit (unitOf (s.g 1).toNat)).count + 1 ∧
      t.bytes r 16 = jRecord 1 (unitOf (s.g 1).toNat) 0 ((s.unit (unitOf (s.g 1).toNat)).count + 1) s.dev.flash.jSeq ∧
      t.dev.flash.jNext = s.dev.flash.jNext + 1 := by
  have hu : unitOf (s.g 1).toNat < 256 := by rw [unitOf]; split <;> omega
  refine completes_service rfl h (by simp) ((gives_eraseCall ha hlo hhi hk hopen hroom).mono ?_)
  rintro rs t ⟨rfl, x, rfl⟩
  obtain ⟨hnext, hcount⟩ := State.erasing_dev (s := s) (k := unitOf (s.g 1).toNat) (x := x)
  obtain ⟨hst, hun, hpu⟩ := State.erasing_fields (s := s) (x := x) hu
  refine ⟨rfl, ?_, ?_, fun _ => ⟨?_, ?_, ?_, ?_, ?_, ?_⟩⟩
  · rw [State.SameCore, State.erasing_core]
  · exact State.erasing_within (by rfl) fun i hi => decide_eq_true (by subst hr; omega)
  · rw [latchEdges_fld, State.comeBack_fld, hst]
  · rw [latchEdges_fld, State.comeBack_fld, hun]
  · rw [latchEdges_fld, State.comeBack_fld, hpu]
  · rw [State.unit, latchEdges_dev, State.comeBack_dev]
    exact hcount
  · rw [latchEdges_bytes, State.comeBack_bytes, bytes_of_byte fun y => State.erasing_byte y, hr]
    have := State.putMem_bytes s (unitBase s.dev.flash.jSector + 16 * s.dev.flash.jNext)
      (jRecord 1 (unitOf (s.g 1).toNat) 0 ((s.unit (unitOf (s.g 1).toNat)).count + 1) s.dev.flash.jSeq)
    rwa [jRecord_length] at this
  · rw [latchEdges_dev, State.comeBack_dev]
    exact hnext

/-- Settles O39: the checks and effects of PROGRAM and ERASE, the window between two units, and how PROGRAM goes on. -/
theorem flashProgramErase : Obligations.FlashProgramErase := by
  refine fun vsys s => ⟨fun h hc => ⟨fun h1 h2 h3 h4 h5 h6 h7 h8 h9 h10 => ?_, fun hx f l => program_stops h (gives_programStop_args hx)⟩,
    fun p hi he hprog hpc => ⟨fun hend f l => program_revoked he hprog hpc hi hend, fun hend hq hdone hwas hd htop hsrc _ => ?_⟩,
    fun h hc => ⟨fun ha hlo hhi => ⟨fun st hst hk => ?_, fun hk hopen hroom => erase_begins h ha hlo hhi hk hopen hroom rfl⟩, fun ha => erase_args h ha⟩⟩
  · have ha : ProgramArgs (s.g 1).toNat (s.g 2).toNat (s.g 3).toNat := ⟨h1, h2, h3, h4, h5, h6, h7, h8, h9, h10⟩
    refine ⟨fun st hst hk f l => program_stops h (gives_programStop ha hc (by rintro rfl; revert hst; decide) hk), fun hk hblank hecc => ?_⟩
    have hs := gives_programStop_none ha hc hk hblank hecc
    exact ⟨fun hq => ⟨program_ends h ha hs hq, fun i hi => program_fails h ha hs hq hi, fun i hi => program_low h ha hs hq hi,
      fun k hk => program_pauses h ha hs hq hk⟩, fun L hie h32 hslot htop hpl hv => program_taken h ha hs hie h32 hslot htop hpl hv hecc⟩
  · refine (program_resumes he hprog hpc hi hend hq hdone hwas ⟨hd, htop, hsrc⟩).imp fun t ⟨hback, h2, hst, hbytes, hw⟩ => ⟨hback, h2, hst, hbytes, hw⟩
  · exact erase_stops h ha hlo hhi (by rintro rfl; revert hst; decide) hk

end Sys2Proof.Machine
end


section
/-!
Answers on the host port's transports: what a reply or a refusal leaves besides its port, and when a command is carried out
(R419–R431, R440).
-/
namespace Sys2Proof.Machine
open Sys2Proof.Reg

variable {α β : Type} {F : Foot} {s t u : State}

/-! ### Footprints side by side -/

/-- A footprint lies within another. -/
structure Foot.Sub (F G : Foot) : Prop where
  regs : ∀ a, F.regs a = true → G.regs a = true
  mem : ∀ a, F.mem a = true → G.mem a = true
  tab : ∀ x, F.tab x = true → G.tab x = true
  otp : F.otp = true → G.otp = true
  bad : F.bad = true → G.bad = true
  core : F.core = true → G.core = true
  keys : F.keys = true → G.keys = true

theorem State.Within.widen {G : Foot} (h : s.Within F t) (hs : F.Sub G) : s.Within G t where
  regs a ha := h.regs a (Bool.eq_false_iff.mpr fun hf => by simp [hs.regs a hf] at ha)
  mem a ha := h.mem a (Bool.eq_false_iff.mpr fun hf => by simp [hs.mem a hf] at ha)
  tab x hx := h.tab x (Bool.eq_false_iff.mpr fun hf => by simp [hs.tab x hf] at hx)
  otp ho := h.otp (Bool.eq_false_iff.mpr fun hf => by simp [hs.otp hf] at ho)
  bad hb := h.bad (Bool.eq_false_iff.mpr fun hf => by simp [hs.bad hf] at hb)
  core hc := h.core (Bool.eq_false_iff.mpr fun hf => by simp [hs.core hf] at hc)
  keys hk := h.keys (Bool.eq_false_iff.mpr fun hf => by simp [hs.keys hf] at hk)
  pending := h.pending

theorem Foot.sub_with_left (F G : Foot) : F.Sub (F.with G) := by constructor <;> simp +contextual [Foot.with]
theorem Foot.sub_with_right (F G : Foot) : G.Sub (F.with G) := by constructor <;> simp +contextual [Foot.with]

theorem Foot.sub_of_regs {p q m : Nat → Bool} (h : ∀ a, p a = true → q a = true) : Foot.Sub { regs := p, mem := m } { regs := q, mem := m } :=
  ⟨h, fun _ => id, fun _ => id, id, id, id, id⟩

/-! ### What an answer leaves -/

/-- The units as no answer on a transport changes them: all but the ports, the transmissions, the cells, the counts and the
interrupt lines. -/
def Dev.besides (d : Dev) : Dev :=
  { d with hostp := { d.hostp with spi := {}, uart := {}, mesh := {} }, tx := {}, cells := [], ctr := [], intc := {}, evLost := [] }

/-- From `s` to `t` an answer has been sent, as far as it may reach: the units beside it, the events under way and the counts of
the commands stand, up to the first of item 2, that of the frames discarded. -/
structure State.Aside (F : Foot) (s t : State) : Prop where
  dev : t.dev.besides = s.dev.besides
  events : s.events <+: t.events
  ctr : ∀ w < 7, t.ctr hostpPage 1 w = s.ctr hostpPage 1 w
  within : s.Within F t

theorem State.aside_refl (s : State) (F : Foot) : s.Aside F s := ⟨rfl, List.prefix_rfl, fun _ _ => rfl, s.within_refl F⟩
theorem State.Aside.trans (h : s.Aside F t) (g : t.Aside F u) : s.Aside F u :=
  ⟨g.dev.trans h.dev, h.events.trans g.events, fun w hw => (g.ctr w hw).trans (h.ctr w hw), h.within.trans g.within⟩

theorem State.Aside.live {f : Dev → Dev} (hb : (f s.dev).besides = s.dev.besides) (hc : (f s.dev).ctr = s.dev.ctr) : s.Aside F (s.live f) :=
  ⟨hb, List.prefix_rfl, fun _ _ => State.ctr_live hc _ _ _, s.within_live (congrArg Dev.keys hb :)⟩

theorem State.Aside.noted {l : List Nat} (h : State.Noted l s t) (he : s.events <+: t.events) (hl : ∀ a ∈ l, F.regs a = true) : s.Aside F t :=
  ⟨by rw [h.dev], he, fun _ _ => by rw [State.ctr, h.dev, State.ctr], h.within.of_onlyRegs hl⟩

/-- An act that is an answer or a part of one, from every state. -/
structure M.Aside (F : Foot) (m : M α) : Prop where
  all : ∀ s : State, m.Gives s fun _ t => s.Aside F t

theorem M.Aside.gives {m : M α} (h : m.Aside F) {Q : α → State → Prop} (g : ∀ a t, s.Aside F t → Q a t) : m.Gives s Q := (h.all s).mono g

theorem aside_pure (a : α) : (pure a : M α).Aside F := ⟨fun s => gives_pure (s.aside_refl F)⟩
theorem aside_nop : M.Aside F nop := aside_pure ()
theorem aside_getS : M.Aside F getS := ⟨fun s => gives_getS (s.aside_refl F)⟩
theorem aside_bind {m : M α} {f : α → M β} (h : m.Aside F) (g : ∀ a, (f a).Aside F) : (m >>= f).Aside F :=
  ⟨fun s => gives_bind ((h.all s).mono fun a t ht => ((g a).all t).mono fun _ _ hu => ht.trans hu)⟩
theorem aside_ite {c : Prop} [Decidable c] {a b : M α} (h : a.Aside F) (g : b.Aside F) : (if c then a else b).Aside F := by
  split
  exacts [h, g]
theorem aside_forAll {l : List α} {f : α → M Unit} (h : ∀ x, (f x).Aside F) : (forAll l f).Aside F :=
  ⟨fun s => gives_forAll (s.aside_refl F) fun x _ _ ht => ((h x).all _).mono fun _ _ hu => ht.trans hu⟩
theorem aside_modDev {f : Dev → Dev} (hb : ∀ d, (f d).besides = d.besides) (hc : ∀ d, (f d).ctr = d.ctr) : (modDev f).Aside F :=
  ⟨fun _ => gives_act (.live (hb _) (hc _))⟩
theorem aside_wr {a : Nat} {v : Word} (h : F.regs a = true) : (wr a v).Aside F :=
  ⟨fun s => gives_wr ⟨by rw [State.putReg_dev], List.prefix_rfl, fun _ _ => State.ctr_putReg .., State.within_putReg h⟩⟩
theorem aside_setFld {f : Fld} {v : Nat} (h : F.regs f.addr = true) : (setFld f v).Aside F :=
  aside_bind (aside_bind aside_getS fun _ => aside_pure _) fun _ => aside_wr h
theorem aside_mem {a : Nat} {b : Byte} (h : F.mem a = true) : M.Aside F (act (.mem a b)) :=
  ⟨fun s => gives_act ⟨rfl, List.prefix_rfl, fun _ _ => rfl, (keeps_mem h).run s⟩⟩
theorem State.Drawn.aside (h : s.Drawn t) : s.Aside F t :=
  ⟨by rw [h.dev], by rw [h], fun _ _ => by rw [State.ctr, h.dev, State.ctr], h.within⟩
theorem aside_freeNat : M.Aside F freeNat := ⟨fun _ => gives_freeNat_drawn.mono fun _ _ ht => ht.aside⟩
theorem aside_count {p i w : Nat} (h : ∀ k < 7, ctrKey hostpPage 1 k ≠ ctrKey p i w) : (count p i w).Aside F :=
  ⟨fun s => ((total_count p i w).gives_run s).mono fun _ t ht => by
    rw [ht, run_count]
    exact ⟨rfl, List.prefix_rfl, fun k hk => State.ctr_counted_other (h k hk), keeps_count.run s⟩⟩
theorem aside_perf {p e n : Nat} (h : ∀ a ∈ perfRegs p, F.regs a = true) : (perf p e n).Aside F :=
  ⟨fun _ => gives_perf.mono fun _ _ ht => .noted ht.1 (by rw [ht.2]) h⟩
theorem aside_emit {p e : Nat} (he : latchOf e = none) (h : ∀ a ∈ perfRegs p, F.regs a = true) : (emit p e).Aside F :=
  ⟨fun s => ((total_emit p e).gives_run s).mono fun _ t ht => by
    rw [ht]
    exact .noted (emit_unlatched s p he).1 (by rw [emit_events he]; exact List.prefix_append ..) h⟩
theorem aside_setFlt {p b : Nat} (h : ∀ a ∈ evRegs p, F.regs a = true) : (setFlt p b).Aside F :=
  aside_bind (aside_bind aside_getS fun _ => aside_pure _) fun _ => aside_bind (aside_wr (h _ (by simp [evRegs]))) fun _ => by
    refine ⟨fun s => gives_emitNow.mono fun _ t ht => .noted ht.1 (by rw [ht.2]; exact List.prefix_append ..) fun a ha => h a (perfRegs_sub ha)⟩
theorem aside_pulse {n : Nat} : (pulse n).Aside F := aside_modDev (fun _ => rfl) fun _ => rfl
theorem aside_putBytes {a : Nat} {l : List Byte} (h : ∀ i < l.length, F.mem (a + i) = true) : (putBytes a l).Aside F := by
  induction l generalizing a with
  | nil => exact aside_nop
  | cons b l ih =>
    refine aside_bind (aside_mem (by simpa using h 0 (by simp))) fun _ => ih fun i hi => ?_
    have := h (i + 1) (by simpa using hi)
    rwa [Nat.add_assoc, Nat.add_comm 1 i]
theorem aside_setCell {c : Nat} {v : Cell} : (setCell c v).Aside F := aside_modDev (fun _ => rfl) fun _ => rfl

/-! ### A management reply -/

/-- What the sending of a management reply may touch. -/
def meshSendFoot : Foot :=
  { regs := fun a => decide (a ∈ LINK_STAT :: CIPH0_FCNT :: CIPH0_FCSTAT :: (evRegs (ciphPage 0) ++ perfOf fbufPage)), mem := cellMem }

/-- What a management reply may touch. -/
def meshFoot : Foot :=
  { regs := fun a => decide (a ∈ HOSTP_STAT :: LINK_STAT :: CIPH0_FCNT :: CIPH0_FCSTAT :: (evRegs (ciphPage 0) ++ perfOf fbufPage)), mem := cellMem }

/-- What a reply or a refusal may touch: of `portFoot` all but the events of HOSTP. -/
def replyFoot : Tr → Foot
  | .mesh _ _ => meshFoot
  | _ => onlyRegs [HOSTP_STAT]

theorem replyFoot_sub : ∀ tr : Tr, (replyFoot tr).Sub (portFoot tr)
  | .mesh _ _ => Foot.sub_of_regs fun a h => decide_eq_true (by
      have := of_decide_eq_true h
      simp only [List.mem_cons, List.mem_append] at this ⊢
      tauto)
  | .spi | .uart => Foot.sub_of_regs fun a h => decide_eq_true (List.mem_cons.mpr (.inl (List.mem_singleton.mp (of_decide_eq_true h))))

theorem mesh_regs {l : List Nat} (h : l.all (fun a => meshSendFoot.regs a) = true) : ∀ a ∈ l, meshSendFoot.regs a = true :=
  List.all_eq_true.mp h

theorem aside_fcFlags : fcFlags.Aside meshSendFoot :=
  aside_bind aside_getS fun _ => aside_bind (aside_setFld (by decide)) fun _ => aside_bind (aside_setFld (by decide)) fun _ =>
    aside_bind (aside_setFld (by decide)) fun _ =>
      aside_ite (aside_bind (aside_emit (by decide) (mesh_regs (by decide))) fun _ => aside_pulse) (aside_pure _)

theorem aside_takeFcnt : takeFcnt.Aside meshSendFoot :=
  aside_bind aside_getS fun _ => aside_ite (aside_bind (aside_count (by decide)) fun _ => aside_pure _)
    (aside_bind (aside_setFld (by decide)) fun _ => aside_bind aside_fcFlags fun _ => aside_pure _)

theorem aside_secureTx (l : List Byte) : (secureTx l).Aside meshSendFoot := by
  refine aside_bind aside_getS fun s => aside_ite (aside_pure _) (aside_ite (aside_pure _) ?_)
  split
  · exact aside_bind (aside_count (by decide)) fun _ => aside_pure _
  · refine aside_bind aside_takeFcnt fun r => ?_
    cases r with
    | none => exact aside_pure _
    | some n =>
      exact aside_bind (aside_count (by decide)) fun _ => aside_bind (aside_perf (mesh_regs (by decide))) fun _ => aside_pure _

theorem aside_noteDropped (n : Nat) : (noteDropped n).Aside F :=
  aside_bind (aside_count (by decide)) fun _ => aside_modDev (fun d => by rcases n with _ | _ | n <;> rfl) fun _ => rfl

theorem aside_linkCells {owner pool : Nat} {hold : Bool} : ∀ l : List Nat, (linkCells owner pool hold l).Aside F
  | [] => aside_nop
  | [_] => aside_setCell
  | _ :: d :: l => aside_bind aside_setCell fun _ => aside_linkCells (d :: l)

/-- The cells picked from a list lie below what its cells, and 0, lie below. -/
theorem gives_pickCells_lt {b : Nat} (hb : 0 < b) : ∀ (n : Nat) {l : List Nat} {s : State}, (∀ c ∈ l, c < b) →
    (pickCells n l).Gives s fun r t => (∀ c ∈ r, c < b) ∧ s.Aside F t
  | 0, _, s, _ => gives_pure ⟨nofun, s.aside_refl F⟩
  | n + 1, l, s, hl => by
    refine gives_bind ((aside_freeNat (F := F)).gives fun i t ht => gives_bind ((gives_pickCells_lt hb n fun c hc => hl c (List.mem_of_mem_erase hc)).mono ?_))
    rintro r u ⟨hr, hu⟩
    refine gives_pure ⟨fun c hc => ?_, ht.trans hu⟩
    rcases List.mem_cons.mp hc with rfl | hc
    · rw [List.getD_eq_getElem?_getD]
      cases hg : l[i % l.length]? with
      | none => exact hb
      | some c => exact hl c (List.mem_of_getElem? hg)
    · exact hr c hc

/-- A chain allocated: its cells are cells of the frame buffer. -/
theorem gives_allocChain_cells {pool owner n : Nat} (h : ∀ a ∈ perfRegs fbufPage, F.regs a = true) :
    (allocChain pool owner n).Gives s fun r t => (∀ l, r = some l → ∀ c ∈ l, c < 512) ∧ s.Aside F t := by
  refine gives_bind (gives_getS ?_)
  split
  · refine gives_bind ((gives_pickCells_lt (F := F) (b := 512) (by decide) n fun c hc => ?_).mono fun l t ⟨hl, ht⟩ => ?_)
    · exact List.mem_range.mp (List.mem_filter.mp hc).1
    · refine gives_bind ((aside_linkCells (F := F) l).gives fun _ u hu => gives_bind ((aside_perf h).gives fun _ v hv => gives_pure ?_))
      exact ⟨by rintro _ ⟨⟩; exact hl, (ht.trans hu).trans hv⟩
  · exact gives_bind ((aside_perf h).gives fun _ v hv => gives_pure ⟨nofun, hv⟩)

theorem aside_chainWrite (h : ∀ a, cellMem a = true → F.mem a = true) : ∀ (cells : List Nat) (l : List Byte), (∀ c ∈ cells, c < 512) →
    (chainWrite cells l).Aside F
  | [], _, _ => aside_nop
  | c :: cs, l, hc => by
    refine aside_bind (aside_putBytes fun i hi => h _ ?_) fun _ => aside_chainWrite h cs _ fun d hd => hc d (by simp [hd])
    have := hc c (by simp)
    rw [List.length_take] at hi
    have hmem : 0x21000000 ≤ cellAddr c + i ∧ cellAddr c + i < 0x21020000 := by rw [cellAddr]; omega
    simpa [cellMem] using hmem

theorem aside_modTx {f : TxEng → TxEng} : (modTx f).Aside F := aside_modDev (fun _ => rfl) fun _ => rfl

theorem aside_takeSeed (n : Nat) : (takeSeed n).Aside F :=
  aside_bind aside_getS fun _ => aside_ite (aside_bind aside_modTx fun _ => aside_pure _) (aside_pure _)

theorem aside_addJob (h : F.regs LINK_STAT = true) (j : TxJob) : (addJob j).Aside F :=
  aside_bind aside_getS fun _ => aside_bind aside_modTx fun _ =>
    aside_bind (aside_bind aside_modTx fun _ => aside_setFld h) fun _ => aside_pure _

/-- A management reply keeps to the footprint of an answer over the mesh, whether it can be stored and secured or not. -/
theorem aside_meshSend (hdr : List Byte) (n : Nat) (l : List Byte) : (meshSend hdr n l).Aside meshSendFoot := by
  refine aside_bind aside_getS fun s => aside_ite (aside_bind aside_freeNat fun _ => aside_bind (aside_secureTx _) fun r => ?_) (aside_pure _)
  match r with
  | .error _ => exact aside_noteDropped 2
  | .ok (l', k) =>
    refine aside_ite (aside_noteDropped 2) ⟨fun t => ?_⟩
    refine gives_bind ((gives_allocChain_cells (mesh_regs (by decide))).mono ?_)
    rintro (_ | cells) u ⟨hc, hu⟩
    · exact (aside_noteDropped 2).gives fun _ _ hv => hu.trans hv
    · refine M.Aside.gives ?_ fun _ _ hv => hu.trans hv
      exact aside_bind (aside_chainWrite (fun _ h => h) _ _ (hc _ rfl)) fun _ => aside_bind aside_getS fun _ => aside_bind (aside_takeSeed _) fun _ =>
        aside_bind (aside_addJob (by decide) _) fun _ => aside_pure _

theorem M.Aside.widen {G : Foot} {m : M α} (h : m.Aside F) (hs : F.Sub G) : m.Aside G :=
  ⟨fun s => (h.all s).mono fun _ _ ht => ⟨ht.dev, ht.events, ht.ctr, ht.within.widen hs⟩⟩

theorem meshSendFoot_sub : meshSendFoot.Sub meshFoot := Foot.sub_of_regs fun _ h => decide_eq_true (List.mem_cons_of_mem _ (of_decide_eq_true h))

/-! ### Ports -/

/-- A port changed, as `modPort` leaves it. -/
def Hostp.ported (n : Nat) (f : Port → Port) (h : Hostp) : Hostp :=
  match n with
  | 0 => { h with spi := f h.spi }
  | 1 => { h with uart := f h.uart }
  | _ => { h with mesh := f h.mesh }

def State.ported (s : State) (n : Nat) (f : Port → Port) : State := s.live fun d => { d with hostp := d.hostp.ported n f }

theorem run_modPort (n : Nat) (f : Port → Port) (s : State) : (modPort n f).run s = s.ported n f := (rfl)

theorem State.port_ported (s : State) (n : Nat) (f : Port → Port) : (s.ported n f).port n = f (s.port n) := by
  rcases n with _ | _ | n <;> rfl

theorem State.port_congr (h : t.dev.hostp = s.dev.hostp) (n : Nat) : t.port n = s.port n := by
  rcases n with _ | _ | n <;> simp only [State.port, h]

@[simp] theorem State.port_put (s : State) (f : Fld) (v n : Nat) : (s.put f v).port n = s.port n := State.port_congr (by rw [State.put_dev]) n
@[simp] theorem latchEdges_port (n : Nat) : (latchEdges s t).port n = t.port n := State.port_congr (by rw [latchEdges_dev]) n

theorem aside_modPort (n : Nat) (f : Port → Port) : (modPort n f).Aside F :=
  aside_modDev (fun d => by rcases n with _ | _ | n <;> rfl) fun _ => rfl

theorem aside_setOut (h : F.regs HOSTP_STAT = true) (n : Nat) (v : Option (Nat × Nat)) : (setOut n v).Aside F :=
  aside_bind (aside_modPort n _) fun _ => aside_setFld h

theorem portFoot_ev : ∀ (tr : Tr), ∀ a ∈ evRegs hostpPage, (portFoot tr).regs a = true
  | .mesh _ _ => List.all_eq_true.mp (by decide : (evRegs hostpPage).all (fun a => (portFoot (.mesh [] 0)).regs a) = true)
  | .spi => by decide
  | .uart => by decide

/-! ### Replies and refusals (R421–R423) -/

/-- A reply queued at a wire: into the slot, or held while that is taken. -/
def wireReply (n : Nat) (r : Reply) : M Unit := do
  let s ← getS
  if (s.port n).reply.isNone then
    modPort n fun p => { p with reply := some r }
    setOut n none
  else
    modPort n fun p => { p with held := some r }
    setOut n (some ((octet r.frame 0).toNat - 0x80, (octet r.frame 1).toNat))

/-- A refusal queued at a wire, or lost where one waits. -/
def wireRefuse (n code tag st : Nat) : M Unit := do
  let s ← getS
  if (s.port n).refusal.isNone then modPort n fun p => { p with refusal := some (replyFrame code tag st []) } else noteDropped n

theorem queueReply_wire : ∀ {tr : Tr}, trNum tr < 2 → ∀ r : Reply, queueReply tr r = wireReply (trNum tr) r
  | .spi, _, _ => rfl
  | .uart, _, _ => rfl

theorem refuse_wire : ∀ {tr : Tr}, trNum tr < 2 → ∀ code tag st : Nat, refuse tr code tag st = wireRefuse (trNum tr) code tag st
  | .spi, _, _, _, _ => rfl
  | .uart, _, _, _, _ => rfl

theorem aside_wireReply (h : F.regs HOSTP_STAT = true) (n : Nat) (r : Reply) : (wireReply n r).Aside F :=
  aside_bind aside_getS fun _ => aside_ite (aside_bind (aside_modPort n _) fun _ => aside_setOut h n _)
    (aside_bind (aside_modPort n _) fun _ => aside_setOut h n _)

theorem aside_wireRefuse (n code tag st : Nat) : (wireRefuse n code tag st).Aside F :=
  aside_bind aside_getS fun _ => aside_ite (aside_modPort n _) (aside_noteDropped n)

theorem aside_queueReply : ∀ (tr : Tr) (r : Reply), (queueReply tr r).Aside (replyFoot tr)
  | .mesh hdr lane, r => show M.Aside meshFoot (queueReply (.mesh hdr lane) r) from
    aside_bind ((aside_meshSend hdr lane.val r.frame).widen meshSendFoot_sub) fun _ => aside_setOut (by decide) 2 none
  | .spi, r => aside_wireReply (by decide) 0 r
  | .uart, r => aside_wireReply (by decide) 1 r

theorem aside_refuse : ∀ (tr : Tr) (code tag st : Nat), (refuse tr code tag st).Aside (replyFoot tr)
  | .mesh hdr lane, _, _, _ => (aside_meshSend hdr lane.val _).widen meshSendFoot_sub
  | .spi, _, _, _ => aside_wireRefuse 0 _ _ _
  | .uart, _, _, _ => aside_wireRefuse 1 _ _ _

/-- A wire's reply takes the free slot, and nothing is outstanding any more; while the slot is taken it is held (R423). -/
structure State.Slotted (s t : State) (n : Nat) (r : Reply) : Prop where
  empty : (s.port n).reply = none → (t.port n).reply = some r ∧ (t.port n).out = none
  full : ∀ x, (s.port n).reply = some x → (t.port n).reply = some x ∧ (t.port n).held = some r ∧
    (t.port n).out = some ((octet r.frame 0).toNat - 0x80, (octet r.frame 1).toNat)
  beside : t.dev = { s.dev with hostp := t.dev.hostp }

/-- What is outstanding at a port, and whether anything is, as `setOut` leaves it. -/
def State.outSet (s : State) (n : Nat) (v : Option (Nat × Nat)) : State :=
  (s.ported n fun p => { p with out := v }).put ⟨HOSTP_STAT, 8 + n, 8 + n⟩ (b2n v.isSome)

theorem run_setOut (n : Nat) (v : Option (Nat × Nat)) (s : State) : (setOut n v).run s = s.outSet n v := (rfl)

theorem State.port_outSet (s : State) (n : Nat) (v : Option (Nat × Nat)) : (s.outSet n v).port n = { s.port n with out := v } := by
  rw [State.outSet, State.port_put, State.port_ported]

theorem wireReply_run (n : Nat) (r : Reply) (s : State) : (wireReply n r).run s =
    if (s.port n).reply.isNone = true then (s.ported n fun p => { p with reply := some r }).outSet n none
    else (s.ported n fun p => { p with held := some r }).outSet n (some ((octet r.frame 0).toNat - 0x80, (octet r.frame 1).toNat)) := by
  rw [wireReply, run_getS, run_ite]
  rfl

theorem slotted_wireReply (n : Nat) (r : Reply) (s : State) : s.Slotted ((wireReply n r).run s) n r := by
  rw [wireReply_run]
  constructor
  · intro hn
    rw [if_pos (by rw [hn]; rfl), State.port_outSet, State.port_ported]
    exact ⟨rfl, rfl⟩
  · intro x hx
    rw [if_neg (by rw [hx]; exact Bool.false_ne_true), State.port_outSet, State.port_ported]
    exact ⟨hx, rfl, rfl⟩
  · split
    · rfl
    · rfl

theorem M.Gives.wire {m m' : M Unit} {R P : State → Prop} {tr : Tr} (h : m.Gives s fun _ t => R t) (he : trNum tr < 2 → m = m') (hm : m'.Total)
    (hp : P (m'.run s)) : m.Gives s fun _ t => R t ∧ (trNum tr < 2 → P t) := by
  cases htr : decide (trNum tr < 2)
  · exact h.mono fun _ t ht => ⟨ht, fun h => absurd h (of_decide_eq_false htr)⟩
  · refine M.Gives.and h ?_
    rw [he (of_decide_eq_true htr)]
    exact (hm.gives_run s).mono fun _ t ht _ => ht ▸ hp

theorem gives_queueReply (tr : Tr) (r : Reply) : (queueReply tr r).Gives s fun _ t =>
    s.Aside (replyFoot tr) t ∧ (trNum tr < 2 → s.Slotted t (trNum tr) r) :=
  ((aside_queueReply tr r).all s).wire (queueReply_wire · r)
    (total_bind total_getS fun _ => total_ite (total_bind (total_act _) fun _ => total_bind (total_act _) fun _ => total_setFld ..)
      (total_bind (total_act _) fun _ => total_bind (total_act _) fun _ => total_setFld ..)) (slotted_wireReply _ r s)

/-- A refusal at a wire: it waits, or is dropped where one waits; the rest of the port stands (R423). -/
structure State.Refused (s t : State) (n : Nat) (frame : List Byte) : Prop where
  refusal : (t.port n).refusal = some ((s.port n).refusal.getD frame)
  dropped : (s.port n).refusal.isSome = true → (t.port n).dropped = true
  reply : (t.port n).reply = (s.port n).reply
  out : (t.port n).out = (s.port n).out

theorem refused_wireRefuse (n code tag st : Nat) (s : State) : s.Refused ((wireRefuse n code tag st).run s) n (replyFrame code tag st []) := by
  rw [wireRefuse, run_getS, run_ite, run_modPort, noteDropped, run_count_bind, run_modPort]
  have hc (v : Nat) : (s.counted hostpPage 2 3 v).port n = s.port n := State.port_congr rfl n
  cases h : (s.port n).refusal with
  | none =>
    rw [if_pos (by rfl)]
    constructor <;> rw [State.port_ported]
    · rw [h]; rfl
    · rw [h]; exact nofun
  | some x =>
    rw [if_neg (by exact Bool.false_ne_true)]
    constructor <;> rw [State.port_ported, hc]
    · rw [h]; rfl
    · exact fun _ => rfl

theorem gives_refuse (tr : Tr) (code tag st : Nat) : (refuse tr code tag st).Gives s fun _ t =>
    s.Aside (replyFoot tr) t ∧ (trNum tr < 2 → s.Refused t (trNum tr) (replyFrame code tag st [])) :=
  ((aside_refuse tr code tag st).all s).wire (refuse_wire · code tag st)
    (total_bind total_getS fun _ => total_ite (total_act _) (total_bind (total_count ..) fun _ => total_act _)) (refused_wireRefuse _ _ _ _ s)

/-- A refusal after what leaves the port's units. -/
theorem State.Aside.refuses {tr : Tr} {tag : Byte} {code st : Nat} (ha : t.Aside (replyFoot tr) u)
    (hr : trNum tr < 2 → t.Refused u (trNum tr) (replyFrame code tag.toNat st [])) (hh : t.dev.hostp = s.dev.hostp) (hw : s.Within (portFoot tr) t) :
    s.Refuses (latchEdges s u) tr tag code st := by
  have hdev := congrArg Dev.hostp ha.dev
  refine ⟨fun h => ?_, ?_, ?_, ?_⟩
  · obtain ⟨h1, h2, h3, h4⟩ := hr h
    rw [State.port_congr hh] at h1 h2 h3 h4
    simp only [latchEdges_port]
    exact ⟨h1, h2, h3, h4⟩
  · rw [latchEdges_dev, ← hh]
    exact (congrArg Hostp.app hdev :)
  · rw [latchEdges_dev, ← hh]
    exact (congrArg Hostp.upd hdev :)
  · rw [State.within_latch_iff]
    exact hw.trans (ha.within.widen (replyFoot_sub tr))

/-! ### A command as it is received (R422, R429–R432, R440) -/

/-- A state STATE refuses from: counted, FLT.STATE set. -/
def State.stateFlagged (s : State) : State :=
  (setFlt hostpPage fltState).run (s.counted hostpPage 1 1 (min 0xFFFFFFFF (s.ctr hostpPage 1 1 + 1)))

theorem gives_refuseState {tr : Tr} {code tag : Nat} {Q : Unit → State → Prop} (h : (refuse tr code tag stState).Gives s.stateFlagged Q) :
    (refuseState tr code tag).Gives s Q :=
  gives_bind (((total_count ..).gives_run s).mono fun _ t ht => gives_bind (((total_setFlt ..).gives_run t).mono fun _ u hu => by
    rw [hu, ht]; exact h))

theorem State.counted_within {p i w v : Nat} : s.Within F (s.counted p i w v) := by
  rw [State.counted, State.within_live_iff rfl]
  exact s.within_refl F

theorem State.stateFlagged_within {tr : Tr} : s.Within (portFoot tr) s.stateFlagged := by
  rw [State.stateFlagged, State.within_setFlt_iff (portFoot_ev tr)]
  exact State.counted_within

/-- Refused with STATE: as O49 says it. -/
def State.StateRefused (s t : State) (tr : Tr) (tag : Byte) (code : Nat) : Prop :=
  s.Refuses t tr tag code 1 ∧ t.ctr hostpPage 1 1 = min 0xFFFFFFFF (s.ctr hostpPage 1 1 + 1) ∧ t.bit (fltBit hostpPage fltState) = true

theorem replyFoot_flt : ∀ tr : Tr, (replyFoot tr).regs (fltBit hostpPage fltState).addr = false
  | .mesh _ _ => (by decide : meshFoot.regs (FLT hostpPage) = false)
  | .spi | .uart => by decide

/-- What is refused with STATE waits as a refusal, counted, and FLT.STATE says so (R430). -/
theorem gives_stateRefused (tr : Tr) (code : Nat) (tag : Byte) :
    (refuseState tr code tag.toNat).Gives s fun _ t => s.StateRefused (latchEdges s t) tr tag code := by
  refine gives_refuseState ((gives_refuse tr code tag.toNat stState).mono fun _ t ⟨ha, hr⟩ => ⟨ha.refuses hr ?_ s.stateFlagged_within, ?_, ?_⟩)
  · rw [State.stateFlagged, setFlt_dev]
    rfl
  · rw [show (latchEdges s t).ctr hostpPage 1 1 = t.ctr hostpPage 1 1 from rfl, ha.ctr 1 (by decide), State.stateFlagged, State.ctr_setFlt,
      State.ctr_counted_same]
  · rw [latchEdges_bit, State.bit, State.fld, ha.within.regs _ (replyFoot_flt tr), ← State.fld, ← State.bit, State.stateFlagged]
    exact setFlt_bit_set ⟨by decide, by decide, by decide⟩

section
variable {tr : Tr} {code tag : Nat} {p : List Byte} {Q : Unit → State → Prop}

theorem gives_hostCmd_off (h : ¬ (s.trOn (trNum tr) = true ∧ s.portAwake = true)) (hq : Q () s) : (hostCmd tr code tag p).Gives s Q := by
  refine gives_bind (gives_getS ?_)
  dsimp only
  rw [if_neg (by simpa using h)]
  exact gives_pure hq

variable (hon : s.trOn (trNum tr) = true) (haw : s.portAwake = true)
include hon haw

theorem gives_hostCmd_dead (hd : s.dev.sys.phase = .dead) (hc : code ≠ 1) (hq : (refuseState tr code tag).Gives s Q) : (hostCmd tr code tag p).Gives s Q := by
  refine gives_bind (gives_getS ?_)
  dsimp only
  rwa [hon, haw, if_pos (by rfl), if_pos ⟨hd, hc⟩]

variable (hd : s.dev.sys.phase = .dead → code = 1) (hc : code ≠ 3)
include hd hc

theorem gives_hostCmd_busy (ho : (s.port (trNum tr)).out ≠ none)
    (hq : (refuse tr code tag stBusy).Gives (s.counted hostpPage 1 2 (min 0xFFFFFFFF (s.ctr hostpPage 1 2 + 1))) Q) : (hostCmd tr code tag p).Gives s Q := by
  refine gives_bind (gives_getS ?_)
  dsimp only
  rw [hon, haw, if_pos (by rfl), if_neg fun h => h.2 (hd h.1), if_neg hc, if_pos (Option.isSome_iff_ne_none.mpr ho)]
  exact gives_bind (((total_count ..).gives_run s).mono fun _ t ht => by rw [ht]; exact hq)

variable (ho : (s.port (trNum tr)).out = none)
include ho

/-- A command on a transport with none outstanding: the start, the payload and the lifecycle are looked at in turn. -/
theorem gives_hostCmd_free (hq : (if s.starting && code != 0x01 then refuseState tr code tag
      else if !sizeOk code p.length (trNum tr == 2) then reply tr code tag stParam []
      else if !lcOk code s.lc (trNum tr == 2) then refuseState tr code tag
      else do
        count hostpPage 0x01 0
        emit hostpPage 0x61
        carryOutCmd tr code tag p).Gives s Q) : (hostCmd tr code tag p).Gives s Q := by
  refine gives_bind (gives_getS ?_)
  dsimp only
  rwa [hon, haw, if_pos (by rfl), if_neg fun h => h.2 (hd h.1), if_neg hc, if_neg (by rw [ho]; exact Bool.false_ne_true)]

theorem gives_hostCmd_starting (hs : s.starting = true) (h1 : code ≠ 1) (hq : (refuseState tr code tag).Gives s Q) : (hostCmd tr code tag p).Gives s Q := by
  refine gives_hostCmd_free hon haw hd hc ho ?_
  rwa [if_pos (by simp [hs, h1])]

variable (hs : s.starting = true → code = 1)
include hs

theorem gives_hostCmd_size (hz : sizeOk code p.length (trNum tr == 2) = false) (hq : (reply tr code tag stParam []).Gives s Q) :
    (hostCmd tr code tag p).Gives s Q := by
  refine gives_hostCmd_free hon haw hd hc ho ?_
  rwa [if_neg (by simpa using hs), if_pos (by rw [hz]; rfl)]

theorem gives_hostCmd_lc (hz : sizeOk code p.length (trNum tr == 2) = true) (hl : lcOk code s.lc (trNum tr == 2) = false)
    (hq : (refuseState tr code tag).Gives s Q) : (hostCmd tr code tag p).Gives s Q := by
  refine gives_hostCmd_free hon haw hd hc ho ?_
  rwa [if_neg (by simpa using hs), if_neg (by rw [hz]; decide), if_pos (by rw [hl]; rfl)]

end

/-! ### A command taken -/

/-- The port takes a command with a payload of n octets: `Takes`, with STATUS in every phase, and the payload's size (R422, R429–R432). -/
structure State.Accepts (s : State) (tr : Tr) (code n : Nat) : Prop where
  on : s.trOn (trNum tr) = true
  awake : s.portAwake = true
  alive : s.dev.sys.phase = .dead → code = 1
  started : s.starting = true → code = 1
  free : (s.port (trNum tr)).out = none
  lc : lcOk code s.lc (trNum tr == 2) = true
  size : sizeOk code n (trNum tr == 2) = true
  code : code ≠ 3

theorem State.Takes.accepts {tr : Tr} {code n : Nat} (h : s.Takes tr code) (hz : sizeOk code n (trNum tr == 2) = true) (hc : code ≠ 3) :
    s.Accepts tr code n :=
  ⟨h.hears.on, h.hears.awake, fun hd => absurd hd h.hears.alive, fun hs => by simp [h.started] at hs, h.free, h.lc, hz, hc⟩

/-- The state in which a command is carried out: counted, its event fired (R445). -/
def State.accepted (s : State) : State := (emit hostpPage 0x61).run (s.counted hostpPage 1 0 (min 0xFFFFFFFF (s.ctr hostpPage 1 0 + 1)))

theorem gives_hostCmd {tr : Tr} {code tag : Nat} {p : List Byte} {Q : Unit → State → Prop} (h : s.Accepts tr code p.length)
    (hq : (carryOutCmd tr code tag p).Gives s.accepted Q) : (hostCmd tr code tag p).Gives s Q := by
  obtain ⟨hon, haw, hd, hs, ho, hl, hz, hc⟩ := h
  refine gives_hostCmd_free hon haw hd hc ho ?_
  rw [if_neg (by simpa using hs), if_neg (by rw [hz]; decide), if_neg (by rw [hl]; decide)]
  exact gives_bind (((total_count ..).gives_run s).mono fun _ t ht => gives_bind (((total_emit ..).gives_run t).mono fun _ u hu => by rw [hu, ht]; exact hq))

@[simp] theorem accepted_dev : s.accepted.dev = { s.dev with
    ctr := Sparse.set (fun _ => 0) s.dev.ctr (ctrKey hostpPage 1 0) (min 0xFFFFFFFF (s.ctr hostpPage 1 0 + 1)) } := by
  rw [State.accepted, emit_unlatched_dev (by decide), State.counted_dev]

theorem accepted_noted : State.Noted (perfRegs hostpPage) (s.counted hostpPage 1 0 (min 0xFFFFFFFF (s.ctr hostpPage 1 0 + 1))) s.accepted :=
  (emit_unlatched _ hostpPage (by decide)).1

theorem accepted_within : s.Within (onlyRegs (perfRegs hostpPage)) s.accepted := State.counted_within.trans accepted_noted.within
theorem accepted_reg {a : Nat} (h : a ∉ perfRegs hostpPage) : s.accepted.reg a = s.reg a := accepted_within.reg h
theorem accepted_fld {f : Fld} (h : f.addr ∉ perfRegs hostpPage) : s.accepted.fld f = s.fld f := by rw [State.fld, accepted_reg h, State.fld]
theorem accepted_bit {f : Fld} (h : f.addr ∉ perfRegs hostpPage) : s.accepted.bit f = s.bit f := by rw [State.bit, accepted_fld h, State.bit]
theorem accepted_byte (a : Nat) : s.accepted.byte a = s.byte a := accepted_within.mem a rfl
theorem accepted_bytes (a n : Nat) : s.accepted.bytes a n = s.bytes a n := bytes_of_byte accepted_byte a n
theorem accepted_events : s.accepted.events = s.events ++ [0x61] := by
  rw [State.accepted, emit_events (by decide)]
  rfl
theorem accepted_ctr : s.accepted.ctr hostpPage 1 0 = min 0xFFFFFFFF (s.ctr hostpPage 1 0 + 1) := by
  rw [State.accepted, State.ctr_emit, State.ctr_counted_same]

/-- A command has been carried out and is about to be answered: counted, its event fired, the slot as it was. -/
structure State.Carried (s t : State) (tr : Tr) (F : Foot := {}) : Prop where
  counted : t.ctr hostpPage 1 0 = min 0xFFFFFFFF (s.ctr hostpPage 1 0 + 1)
  event : s.events ++ [0x61] <+: t.events
  reply : (t.port (trNum tr)).reply = (s.port (trNum tr)).reply
  within : s.Within (F.with (portFoot tr)) t

theorem accepted_carried {tr : Tr} : s.Carried s.accepted tr F where
  counted := accepted_ctr
  event := by rw [accepted_events]
  reply := congrArg Port.reply (State.port_congr (by rw [accepted_dev]) _)
  within := accepted_within.of_onlyRegs fun a ha => by
    rw [Foot.with, Bool.or_eq_true]
    exact .inr (portFoot_ev tr a (perfRegs_sub ha))

theorem octet_leBytes_append {n : Nat} (hn : n < 256) (l : List Byte) : (octet (leBytes 1 n ++ l) 0).toNat = n := by
  simp [octet, leBytes, Nat.mod_eq_of_lt hn]

/-- A reply's frame names its command and its tag. -/
theorem replyFrame_code {code st : Nat} (tag : Byte) {data : List Byte} (h : code < 0x80) :
    (octet (replyFrame code tag.toNat st data) 0).toNat - 0x80 = code ∧ (octet (replyFrame code tag.toNat st data) 1).toNat = tag.toNat := by
  simp [replyFrame, hostFrame, octet, leBytes]
  omega

theorem State.Carried.answers {tr : Tr} {tag : Byte} {code st : Nat} {data : List Byte} {cells : List Nat} {reset : Bool} (hb : s.Carried t tr F)
    (ha : t.Aside (replyFoot tr) u) (hs : trNum tr < 2 → t.Slotted u (trNum tr) { frame := replyFrame code tag.toNat st data, cells := cells, reset := reset })
    (hc : code < 0x80) : s.Answers (latchEdges s u) tr tag code st data F cells reset where
  counted := (ha.ctr 0 (by decide)).trans hb.counted
  event := by
    obtain ⟨l, hl⟩ := hb.event.trans ha.events
    rw [latchEdges_events, ← hl, List.take_left' (by simp)]
  empty h hr := by rw [latchEdges_port]; exact (hs h).empty (hb.reply.trans hr)
  full h r hr := by
    rw [latchEdges_port]
    obtain ⟨h1, h2, h3⟩ := (hs h).full r (hb.reply.trans hr)
    obtain ⟨hcode, htag⟩ := replyFrame_code (code := code) (st := st) tag (data := data) hc
    rw [hcode, htag] at h3
    exact ⟨h1, h2, h3⟩
  rest := by
    rw [State.within_latch_iff]
    exact hb.within.trans ((ha.within.widen (replyFoot_sub tr)).widen (F.sub_with_right _))

section
variable {c : Instr} {tr : Tr} {tag : Byte} {code st : Nat} {p data : List Byte} {body : M (Nat × List Byte)} {P : State → Prop}

theorem completes_gives {m : M Unit} {P : State → Prop} (hc : exec c s = cmd s m) (h : m.Gives s fun _ t => P (latchEdges s t)) : Completes c s P :=
  completes_run hc h.run

/-- A command that answers what its body gives. -/
theorem completes_answered (hx : exec c s = cmd s (hostCmd tr code tag.toNat p)) (h : s.Accepts tr code p.length) (hc : code < 0x80)
    (hr : carryOutCmd tr code tag.toNat p = answer tr code tag.toNat body)
    (hb : body.Gives s.accepted fun r t => r = (st, data) ∧ st ≠ stState ∧ s.Carried t tr F ∧
      ∀ u, t.Aside (replyFoot tr) u → (trNum tr < 2 → u.dev = { t.dev with hostp := u.dev.hostp }) → P (latchEdges s u)) :
    Completes c s fun t => P t ∧ s.Answers t tr tag code st data F := by
  refine completes_gives hx (gives_hostCmd h ?_)
  rw [hr]
  refine gives_bind (hb.mono ?_)
  rintro _ t ⟨rfl, hst, hcar, hP⟩
  dsimp only
  rw [if_neg hst]
  exact (gives_queueReply tr _).mono fun _ u ⟨ha, hs⟩ => ⟨hP u ha fun h => (hs h).beside, hcar.answers ha hs hc⟩

/-- A command that only reads. -/
theorem completes_read (hx : exec c s = cmd s (hostCmd tr code tag.toNat p)) (h : s.Accepts tr code p.length) (hc : code < 0x80)
    (hr : carryOutCmd tr code tag.toNat p = answer tr code tag.toNat body) (hst : st ≠ stState)
    (hb : body.Gives s.accepted fun r t => r = (st, data) ∧ t = s.accepted) : Completes c s fun t => s.Answers t tr tag code st data :=
  (completes_answered (P := fun _ => True) hx h hc hr (hb.mono fun _ _ ⟨hr, ht⟩ => ⟨hr, hst, ht ▸ accepted_carried, fun _ _ _ => trivial⟩)).imp fun _ ht => ht.2

end

end Sys2Proof.Machine
end

section
/-!
Host commands that are not taken, and those that report: STATUS, the logbook, the statistics, the time, keys and DISCHARGE
(R215, R366, R419–R440, R455).
-/
namespace Sys2Proof.Machine
open Sys2Proof.Reg

variable {s t u : State} {F : Foot} {tr : Tr} {tag : Byte} {p : List Byte}

/-! ### Commands that are not taken -/

/-- A row of the host port receives its command. -/
theorem hostRow_exec {c : Instr} {code : Nat} (h : hostRow c = some (tr, tag, code, p)) : exec c s = cmd s (hostCmd tr code tag.toNat p) := by
  cases c <;> cases h <;> rfl

theorem hostCmd_unheard {c : Instr} {code : Nat} (hx : exec c s = cmd s (hostCmd tr code tag.toNat p)) (h : ¬ (s.trOn (trNum tr) = true ∧ s.portAwake = true)) :
    Completes c s fun t => t.dev.hostp = s.dev.hostp ∧ s.Within {} t :=
  completes_gives hx (gives_hostCmd_off h ⟨by rw [latchEdges_dev], by rw [State.within_latch_iff]; exact s.within_refl _⟩)

theorem hostCmd_busy {c : Instr} {code : Nat} (hx : exec c s = cmd s (hostCmd tr code tag.toNat p)) (hon : s.trOn (trNum tr) = true)
    (haw : s.portAwake = true) (hd : s.dev.sys.phase = .dead → code = 1) (hc : code ≠ 3) (ho : (s.port (trNum tr)).out ≠ none) :
    Completes c s fun t => s.Refuses t tr tag code 2 ∧ t.ctr hostpPage 1 2 = min 0xFFFFFFFF (s.ctr hostpPage 1 2 + 1) := by
  refine completes_gives hx (gives_hostCmd_busy hon haw hd hc ho ((gives_refuse tr code tag.toNat stBusy).mono fun _ t ⟨ha, hr⟩ =>
    ⟨ha.refuses hr rfl State.counted_within, ?_⟩))
  rw [show (latchEdges s t).ctr hostpPage 1 2 = t.ctr hostpPage 1 2 from rfl, ha.ctr 2 (by decide), State.ctr_counted_same]

/-- A payload of a wrong size is answered PARAM at once, and counts as no command (R432). -/
theorem hostCmd_misfit {c : Instr} {code : Nat} (hx : exec c s = cmd s (hostCmd tr code tag.toNat p)) (hon : s.trOn (trNum tr) = true)
    (haw : s.portAwake = true) (hd : s.dev.sys.phase = .dead → code = 1) (hc : code ≠ 3) (ho : (s.port (trNum tr)).out = none)
    (hs : s.starting = true → code = 1) (hz : sizeOk code p.length (trNum tr == 2) = false) :
    Completes c s fun t =>
      (trNum tr < 2 → (s.port (trNum tr)).reply = none →
        (t.port (trNum tr)).reply = some { frame := replyFrame code tag.toNat 3 [] } ∧ (t.port (trNum tr)).out = none) ∧
      t.ctr hostpPage 1 0 = s.ctr hostpPage 1 0 ∧ s.Within (portFoot tr) t := by
  refine completes_gives hx (gives_hostCmd_size hon haw hd hc ho hs hz ((gives_queueReply tr _).mono fun _ t ⟨ha, hr⟩ => ⟨fun h hn => ?_, ?_, ?_⟩))
  · rw [latchEdges_port]
    exact (hr h).empty hn
  · exact ha.ctr 0 (by decide)
  · rw [State.within_latch_iff]
    exact ha.within.widen (replyFoot_sub tr)

/-! ### Reports -/

theorem leBytes_add (m n v : Nat) : leBytes (m + n) v = leBytes m v ++ leBytes n (v / 256 ^ m) := by
  induction m generalizing v with
  | zero => simp [leBytes]
  | succ m ih => rw [Nat.succ_add, leBytes, leBytes, ih, Nat.div_div_eq_div_mul, ← Nat.pow_succ']; rfl

theorem accepted_starting : s.accepted.starting = s.starting := by simp only [State.starting, accepted_dev]
theorem accepted_lc : s.accepted.lc = s.lc := accepted_fld (by decide)

theorem accepted_statusData : s.accepted.statusData = s.statusData := by
  have hv : s.accepted.imgVersion = s.imgVersion := by simp only [State.imgVersion, accepted_bytes]
  simp only [State.statusData, hv, accepted_starting, accepted_lc, accepted_dev, State.engine]
  rw [accepted_fld (f := SYS_RSTCAUSE_DEADRSN) (by decide), accepted_fld (f := HOSTP_STAT_ENGINE) (by decide), accepted_fld (f := LINK_MODE_MODE) (by decide),
    accepted_reg (a := SYS_RSTCAUSE) (by decide), accepted_reg (a := SYS_CREWSEQ) (by decide), accepted_fld (f := SYS_WDOGSTAT_ALIVE) (by decide),
    accepted_fld (f := NTIME_STAT_SYNC) (by decide), accepted_fld (f := PWR_STAT_PADHOLD) (by decide), accepted_fld (f := GOV_STAT_STATE) (by decide),
    accepted_fld (f := GOV_LEVEL_VSTORE) (by decide)]

/-- The octets of a STATUS reply, as R433 lists them. -/
theorem statusData_eq : s.statusData =
    leBytes 1 s.lc ++ leBytes 1 (if s.dev.sys.phase = .dead then s.fld SYS_RSTCAUSE_DEADRSN else 0) ++
      leBytes 1 (s.fld HOSTP_STAT_ENGINE) ++ leBytes 1 (s.fld LINK_MODE_MODE) ++ leBytes 4 (s.reg SYS_RSTCAUSE).toNat ++
      (if s.bytes 0x01010000 4 = [0x51, 0x52, 0x42, 0x4C] then s.bytes 0x0101000C 4 else [0, 0, 0, 0]) ++ leBytes 4 (s.reg SYS_CREWSEQ).toNat ++
      leBytes 1 (s.fld SYS_WDOGSTAT_ALIVE + 2 * s.fld NTIME_STAT_SYNC + 4 * s.fld PWR_STAT_PADHOLD +
        8 * if s.starting then 1 else 0) ++ leBytes 1 (s.fld GOV_STAT_STATE) ++ leBytes 2 (s.fld GOV_LEVEL_VSTORE) := by
  have hv : leBytes 4 s.imgVersion = if s.bytes 0x01010000 4 = [0x51, 0x52, 0x42, 0x4C] then s.bytes 0x0101000C 4 else [0, 0, 0, 0] := by
    simp only [State.imgVersion, beq_iff_eq]
    split
    · have h := leBytes_leNat (s.bytes (imgBase + 12) 4)
      rwa [State.bytes_length] at h
    · rfl
  rw [State.statusData, hv, State.engine]
  simp only [beq_iff_eq]
  rfl

/-- STATUS is answered with its data, in any phase. -/
theorem completes_status (hon : s.trOn (trNum tr) = true) (haw : s.portAwake = true) (ho : (s.port (trNum tr)).out = none) :
    Completes (.status tr tag) s fun t => s.Answers t tr tag 1 0 s.statusData := by
  refine completes_read rfl ⟨hon, haw, fun _ => rfl, fun _ => rfl, ho, rfl, rfl, by decide⟩ (by decide) rfl (by decide)
    (gives_bind (gives_getS (gives_pure ⟨?_, rfl⟩)))
  rw [accepted_statusData]

/-- STATUS received on a wire: its reply takes the slot. -/
theorem gives_status_wire (hw : trNum tr < 2) (hon : s.trOn (trNum tr) = true) (haw : s.portAwake = true) (ho : (s.port (trNum tr)).out = none) :
    (hostCmd tr 1 tag.toNat []).Gives s fun _ t =>
      s.accepted.Aside (replyFoot tr) t ∧ s.accepted.Slotted t (trNum tr) { frame := replyFrame 1 tag.toNat 0 s.statusData } := by
  refine gives_hostCmd ⟨hon, haw, fun _ => rfl, fun _ => rfl, ho, rfl, rfl, by decide⟩ (gives_bind (gives_bind (gives_getS (gives_pure ?_))))
  dsimp only
  rw [if_neg (by decide), accepted_statusData]
  exact (gives_queueReply tr _).mono fun _ t ⟨ha, hs⟩ => ⟨ha, hs hw⟩

theorem accepted_logNext : s.accepted.logNext = s.logNext := by simp only [State.logNext, accepted_bytes]
theorem accepted_logFrom (q n : Nat) : s.accepted.logFrom q n = s.logFrom q n := by
  simp only [State.logFrom, accepted_logNext, accepted_bytes]

theorem completes_logRead (h : s.Takes tr 0x50) (hp : p.length = 5) :
    (numAt p 4 1 = 0 ∨ 63 < numAt p 4 1 → Completes (.logRead tr tag p) s fun t => s.Answers t tr tag 0x50 3 []) ∧
    (1 ≤ numAt p 4 1 → numAt p 4 1 ≤ 63 → Completes (.logRead tr tag p) s fun t =>
      s.Answers t tr tag 0x50 0 ((s.logFrom (numAt p 0 4) (numAt p 4 1)).flatMap id)) := by
  have ha := h.accepts (n := p.length) (by rw [hp]; rfl) (by decide)
  refine ⟨fun hn => ?_, fun h1 h2 => ?_⟩
  · refine completes_read rfl ha (by decide) rfl (by decide) (gives_bind (gives_getS ?_))
    rw [if_pos hn]
    exact gives_pure ⟨rfl, rfl⟩
  · refine completes_read rfl ha (by decide) rfl (by decide) (gives_bind (gives_getS ?_))
    rw [if_neg (by omega), accepted_logFrom]
    exact gives_pure ⟨rfl, rfl⟩

theorem ctrKey_stats {i w : Nat} (h : i < 0x1000 ∧ w < 4) : ctrKey statsPage i w ≠ ctrKey hostpPage 1 0 := by
  simp only [ctrKey, statsPage, hostpPage]; omega

theorem accepted_statShadow {e : Nat} (h : e < 32) : s.accepted.statShadow e = s.statShadow e := by
  rw [State.statShadow, State.accepted, State.ctr_emit, State.ctr_counted_other (ctrKey_stats ⟨by omega, by omega⟩), State.statShadow]

theorem accepted_statLive {e : Nat} (h : e < 32) : s.accepted.statLive e = s.statLive e := by
  rw [State.statLive, accepted_reg (by decide), accepted_dev, State.statLive, State.accepted, State.ctr_emit,
    State.ctr_counted_other (ctrKey_stats ⟨by omega, by omega⟩)]

theorem completes_statsRead (h : s.Takes tr 0x51) (hp : p.length = 1) :
    (1 < numAt p 0 1 → Completes (.statsRead tr tag p) s fun t => s.Answers t tr tag 0x51 3 []) ∧
    (numAt p 0 1 = 0 → Completes (.statsRead tr tag p) s fun t =>
      s.Answers t tr tag 0x51 0 ((List.range 32).flatMap fun e => leBytes 4 (s.statShadow e))) ∧
    (numAt p 0 1 = 1 → Completes (.statsRead tr tag p) s fun t =>
      s.Answers t tr tag 0x51 0 ((List.range 32).flatMap fun e => leBytes 4 (s.statLive e))) := by
  have ha := h.accepts (n := p.length) (by rw [hp]; rfl) (by decide)
  refine ⟨fun hn => ?_, fun hn => ?_, fun hn => ?_⟩
  · refine completes_read rfl ha (by decide) rfl (by decide) (gives_bind (gives_getS ?_))
    rw [if_pos hn]
    exact gives_pure ⟨rfl, rfl⟩
  · refine completes_read rfl ha (by decide) rfl (by decide) (gives_bind (gives_getS ?_))
    rw [if_neg (by omega)]
    refine gives_pure ⟨congrArg (Prod.mk stOk) (List.flatMap_congr fun e he => ?_), rfl⟩
    rw [if_pos hn, accepted_statShadow (List.mem_range.mp he)]
  · refine completes_read rfl ha (by decide) rfl (by decide) (gives_bind (gives_getS ?_))
    rw [if_neg (by omega)]
    refine gives_pure ⟨congrArg (Prod.mk stOk) (List.flatMap_congr fun e he => ?_), rfl⟩
    rw [if_neg (by omega), accepted_statLive (List.mem_range.mp he)]

theorem completes_timeGet (h : s.Takes tr 0x58) : Completes (.timeGet tr tag) s fun t => s.Answers t tr tag 0x58 0
    (leBytes 6 s.dev.time.ntime ++ leBytes 1 (s.fld NTIME_STAT_SYNC + 2 * s.fld RTC_STAT_TIME_VALID) ++ [0] ++
      leBytes 4 s.dev.time.ao ++ leBytes 4 (s.reg RTC_SECONDS).toNat ++ leBytes 2 s.dev.rtc.prescaler ++ [0, 0] ++ leBytes 4 s.dev.time.ao) := by
  refine completes_read rfl (h.accepts rfl (by decide)) (by decide) rfl (by decide) (gives_bind (gives_getS (gives_pure ⟨?_, rfl⟩)))
  have hn : s.accepted.mbxItem ntimePage 0x01 = some [s.dev.time.ntime, s.dev.time.ntime / 2 ^ 32, s.dev.time.ao, s.fld NTIME_STAT_SYNC] := by
    change s.accepted.mbxNtime 1 = _
    rw [State.mbxNtime, if_pos rfl, State.ntime, accepted_dev, accepted_fld (by decide)]
  have hr : s.accepted.mbxItem rtcPage 0x01 = some [(s.reg RTC_SECONDS).toNat, s.dev.rtc.prescaler, s.dev.time.ao, s.fld RTC_STAT_TIME_VALID] := by
    change some [(s.accepted.reg RTC_SECONDS).toNat, s.accepted.dev.rtc.prescaler, s.accepted.dev.time.ao, s.accepted.fld RTC_STAT_TIME_VALID] = _
    rw [accepted_reg (by decide), accepted_dev, accepted_fld (by decide)]
  have h1 : s.fld NTIME_STAT_SYNC < 2 := State.fld_lt rfl
  have h2 : s.fld RTC_STAT_TIME_VALID < 2 := State.fld_lt rfl
  rw [State.timeData, hn, hr, show (6 : Nat) = 4 + 2 from rfl, leBytes_add]
  simp [Nat.mod_eq_of_lt h1, Nat.mod_eq_of_lt h2]

/-! ### TIME_SET (R439) -/

theorem numAt_lt (l : List Byte) (i n : Nat) : numAt l i n < 256 ^ n := by
  have h := leNat_lt (sliceOf l i n)
  rwa [sliceOf_length] at h

theorem bitOf_zero_iff {n : Nat} : bitOf n 0 = true ↔ n % 2 = 1 := by rw [bitOf, Nat.testBit_zero, decide_eq_true_iff]
theorem bitOf_one_iff {n : Nat} : bitOf n 1 = true ↔ n / 2 % 2 = 1 := by
  rw [bitOf, Nat.testBit_succ, Nat.testBit_zero, decide_eq_true_iff]

/-- The RTC with a load asked for (R343). -/
def State.loading (s : State) (sec : Nat) : State := s.live fun d => { d with rtc := { d.rtc with load := some (sec, true) } }

theorem gives_rtcSecondsWrite {sec : Nat} (h : sec < 2 ^ 32) {Q : Unit → State → Prop} (hq : Q () (s.loading sec)) :
    (rtcSecondsWrite (BitVec.ofNat 32 sec)).Gives s Q := by
  refine gives_act ?_
  rw [BitVec.toNat_ofNat, Nat.mod_eq_of_lt h]
  exact hq

theorem State.Carried.step (h : s.Carried t tr F) (hc : u.ctr hostpPage 1 0 = t.ctr hostpPage 1 0) (he : t.events <+: u.events)
    (hp : u.dev.hostp = t.dev.hostp) (hw : t.Within (F.with (portFoot tr)) u) : s.Carried u tr F :=
  ⟨hc.trans h.counted, h.event.trans he, (congrArg Port.reply (State.port_congr hp _)).trans h.reply, h.within.trans hw⟩

theorem State.Carried.live (h : s.Carried t tr F) {f : Dev → Dev} (hh : (f t.dev).hostp = t.dev.hostp) (hc : (f t.dev).ctr = t.dev.ctr)
    (hk : (f t.dev).keys = t.dev.keys) : s.Carried (t.live f) tr F :=
  h.step (State.ctr_live hc _ _ _) List.prefix_rfl hh (State.within_live t hk)

theorem State.Carried.put (h : s.Carried t tr F) {f : Fld} {v : Nat} (hf : F.regs f.addr = true) : s.Carried (t.put f v) tr F :=
  h.step (State.ctr_put ..) (by rw [State.events_put]) (by rw [State.put_dev]) (State.within_put v ((F.sub_with_left _).regs _ hf))

theorem State.Aside.rtc (h : t.Aside F u) : u.dev.rtc = t.dev.rtc := (congrArg Dev.rtc h.dev :)
theorem State.Aside.time (h : t.Aside F u) : u.dev.time = t.dev.time := (congrArg Dev.time h.dev :)
theorem State.Aside.gov (h : t.Aside F u) : u.dev.gov = t.dev.gov := (congrArg Dev.gov h.dev :)
theorem State.Aside.keys (h : t.Aside F u) : u.dev.keys = t.dev.keys := (congrArg Dev.keys h.dev :)

theorem State.Aside.fld (h : t.Aside (replyFoot tr) u) {f : Fld} (hf : ∀ tr : Tr, (replyFoot tr).regs f.addr = false) : u.fld f = t.fld f := by
  rw [State.fld, h.within.regs _ (hf tr), State.fld]
theorem State.Aside.bit (h : t.Aside (replyFoot tr) u) {f : Fld} (hf : ∀ tr : Tr, (replyFoot tr).regs f.addr = false) : u.bit f = t.bit f := by
  rw [State.bit, h.fld hf, State.bit]

/-- A register that no reply touches. -/
theorem replyFoot_apart {a : Nat} (h : meshFoot.regs a = false ∧ (onlyRegs [HOSTP_STAT]).regs a = false) : ∀ tr : Tr, (replyFoot tr).regs a = false
  | .mesh _ _ => h.1
  | .spi | .uart => h.2

theorem timeSet_none (h : s.Takes tr 0x59) (hp : p.length = 11) (hf : numAt p 0 1 % 4 = 0) :
    Completes (.timeSet tr tag p) s fun t => s.Answers t tr tag 0x59 3 [] := by
  refine completes_read rfl (h.accepts (by rw [hp]; rfl) (by decide)) (by decide) rfl (by decide) ?_
  rw [timeSet, if_pos hf]
  exact gives_pure ⟨rfl, rfl⟩

theorem timeSet_rtc (h : s.Takes tr 0x59) (hp : p.length = 11) (hf : numAt p 0 1 % 4 = 2) :
    Completes (.timeSet tr tag p) s fun t => t.dev.rtc.load = some (numAt p 7 4, true) ∧ s.Answers t tr tag 0x59 0 [] := by
  refine completes_answered rfl (h.accepts (by rw [hp]; rfl) (by decide)) (by decide) rfl ?_
  rw [timeSet, if_neg (by omega), if_neg (by rw [bitOf_zero_iff]; omega), if_pos (by rw [bitOf_one_iff]; omega)]
  refine gives_bind (gives_rtcSecondsWrite (numAt_lt _ _ _) (gives_pure ⟨rfl, by decide, accepted_carried.live rfl rfl rfl, fun u hu _ => ?_⟩))
  rw [latchEdges_dev]
  exact congrArg Rtc.load hu.rtc

/-- NTIME set, its SYNC on and its trim clear. -/
def State.synced (s : State) (v : Nat) : State := ((s.stepped v).put NTIME_STAT_SYNC 1).put NTIME_TRIM_TRIM 0

theorem synced_carried (v : Nat) : s.Carried (s.accepted.synced v) tr (onlyRegs [NTIME_STAT, NTIME_TRIM]) :=
  ((accepted_carried.live rfl rfl rfl).put (by decide)).put (by decide)

theorem synced_shows (v : Nat) : (s.synced v).dev.time.ntime = v % 2 ^ 48 ∧ (s.synced v).bit NTIME_STAT_SYNC = true ∧ (s.synced v).fld NTIME_TRIM_TRIM = 0 := by
  refine ⟨?_, ?_, ?_⟩
  · rw [State.synced, State.dev_put, State.dev_put, stepped_dev]
  · rw [State.synced, State.bit_put_other _ (by decide)]
    exact State.bit_self _ (by decide)
  · rw [State.synced, State.fld_put_same (Fld.full_of_settable (by decide))]
    rfl

theorem timeSet_ntime (h : s.Takes tr 0x59) (hp : p.length = 11) (hf : numAt p 0 1 % 2 = 1) (hj : s.dev.tx.jobs = []) (ha : s.bit NTIME_STAT_CMPARMED = false) :
    Completes (.timeSet tr tag p) s fun t =>
      t.dev.time.ntime = numAt p 1 6 ∧ t.bit NTIME_STAT_SYNC = true ∧ t.fld NTIME_TRIM_TRIM = 0 ∧
      t.dev.rtc.load = (if numAt p 0 1 % 4 = 3 then some (numAt p 7 4, true) else s.dev.rtc.load) ∧
      s.Answers t tr tag 0x59 0 [] (onlyRegs [NTIME_STAT, NTIME_TRIM]) := by
  have hv : numAt p 1 6 % 2 ^ 48 = numAt p 1 6 := Nat.mod_eq_of_lt (numAt_lt p 1 6)
  obtain ⟨hnt, hsync, htrim⟩ := synced_shows (s := s.accepted) (numAt p 1 6)
  have hshow (u v : State) (hd : v.dev.time = (s.accepted.synced (numAt p 1 6)).dev.time) (hr : ∀ a, v.reg a = (s.accepted.synced (numAt p 1 6)).reg a)
      (hu : v.Aside (replyFoot tr) u) : (latchEdges s u).dev.time.ntime = numAt p 1 6 ∧ (latchEdges s u).bit NTIME_STAT_SYNC = true ∧
        (latchEdges s u).fld NTIME_TRIM_TRIM = 0 := by
    rw [latchEdges_dev, latchEdges_bit, latchEdges_fld, hu.bit (replyFoot_apart (by decide)), hu.fld (replyFoot_apart (by decide)), State.bit, State.fld, State.fld, hr, hr]
    exact ⟨by rw [hu.time, hd, hnt, hv], hsync, htrim⟩
  refine (completes_answered (P := fun t => t.dev.time.ntime = numAt p 1 6 ∧ t.bit NTIME_STAT_SYNC = true ∧ t.fld NTIME_TRIM_TRIM = 0 ∧
      t.dev.rtc.load = (if numAt p 0 1 % 4 = 3 then some (numAt p 7 4, true) else s.dev.rtc.load))
    rfl (h.accepts (by rw [hp]; rfl) (by decide)) (by decide) rfl ?_).imp fun t ⟨⟨h1, h2, h3, h4⟩, h5⟩ => ⟨h1, h2, h3, h4, h5⟩
  rw [timeSet, if_neg (by omega), if_pos (by rw [bitOf_zero_iff]; omega)]
  refine gives_bind ((gives_timeStep (by rw [accepted_dev]; exact hj) (by rw [accepted_bit (by decide), ha]; decide) _).mono ?_)
  rintro _ t ht
  rw [ht]
  refine gives_bind (gives_setFld (gives_bind (gives_setFld ?_)))
  change M.Gives _ (s.accepted.synced (numAt p 1 6)) _
  by_cases h3 : numAt p 0 1 % 4 = 3
  · rw [if_pos (by rw [bitOf_one_iff]; omega), if_pos h3]
    refine gives_bind (gives_rtcSecondsWrite (numAt_lt _ _ _) (gives_pure ⟨rfl, by decide, (synced_carried _).live rfl rfl rfl, fun u hu _ => ?_⟩))
    obtain ⟨h1, h2, h3⟩ := hshow u (State.loading _ _) rfl (fun _ => rfl) hu
    refine ⟨h1, h2, h3, ?_⟩
    rw [latchEdges_dev]
    exact congrArg Rtc.load hu.rtc
  · rw [if_neg (by rw [bitOf_one_iff]; omega), if_neg h3]
    refine (gives_pure ⟨rfl, by decide, synced_carried _, fun u hu _ => ?_⟩)
    obtain ⟨h1, h2, h3⟩ := hshow u _ rfl (fun _ => rfl) hu
    refine ⟨h1, h2, h3, ?_⟩
    rw [latchEdges_dev]
    refine (congrArg Rtc.load hu.rtc).trans ?_
    rw [State.synced, State.dev_put, State.dev_put, stepped_dev, accepted_dev]

/-! ### KEY_LOAD (R215) -/

/-- What KEY_LOAD may touch besides its answer. -/
def keyFoot : Foot := { regs := fun a => decide (a ∈ CIPH_RESULT 1 :: perfOf (ciphPage 1)), keys := true }

/-- The operation KEY_LOAD gives to page P1. -/
def State.keyJob (s : State) (blob : List Byte) : CiphJob :=
  match s.unwrapBlob blob with
  | .error st => { status := st, blocks := if st = stKey then 0 else 36 }
  | .ok f => { status := stOk, blocks := 36, fill := some f }

/-- The state in which page P1 has its operation. -/
def State.keyed (s : State) (j : CiphJob) : State := s.live fun d => { d with ciph := Sparse.upd {} d.ciph 1 fun p => { p with job := some j } }

theorem keyed_job (j : CiphJob) : ((s.keyed j).ciph 1).job = some j := by
  rw [State.keyed, State.ciph, State.live_dev]
  dsimp only
  rw [val_upd_same]

theorem total_ciphDone (n : Nat) : (ciphDone n).Total := by
  have hmem (a : Nat) (l : List Byte) : (putBytes a l).Total := (keeps_putBytes (F := { mem := fun _ => true }) fun _ _ => rfl).total
  have hend (j : CiphJob) : M.Total (do
      modCiph n fun _ => { job := none, chain := j.chain }
      wr (CIPH_RESULT n) (BitVec.ofNat 32 (min 0x7FFFFF j.blocks * 256 + j.status % 256))
      perf (ciphPage n) 0x40 j.blocks
      emit (ciphPage n) (0xA8 + n)
      pulse (44 + n)) :=
    total_bind (total_act _) fun _ => total_bind (total_wr _ _) fun _ => total_bind ⟨fun s => gives_perf.mono fun _ _ _ => trivial⟩ fun _ =>
      total_bind (total_emit _ _) fun _ => total_act _
  refine total_bind total_getS fun s => ?_
  cases (s.ciph n).job with
  | none => exact total_pure ()
  | some j =>
    have hset (k : Nat) (x : KeySlot) : (setSlot k x).Total := total_act _
    have hwrs (l : List Byte) : M.Total (forAll (List.range 4) fun k => wr (CIPH_TAG n k) (wordOf (sliceOf l (4 * k) 4))) :=
      (keeps_forAll (F := { regs := fun _ => true }) fun _ => keeps_wr rfl).total
    refine total_bind (hmem _ _) fun _ => ?_
    cases j.tag with
    | none =>
      cases j.fill with
      | none => exact total_bind (total_pure ()) fun _ => total_bind (total_pure ()) fun _ => hend j
      | some f => exact total_bind (total_pure ()) fun _ => total_bind (hset _ _) fun _ => hend j
    | some l =>
      cases j.fill with
      | none => exact total_bind (hwrs l) fun _ => total_bind (total_pure ()) fun _ => hend j
      | some f => exact total_bind (hwrs l) fun _ => total_bind (hset _ _) fun _ => hend j

theorem keyDone_carried {j : CiphJob} (hjob : (t.ciph 1).job = some j) (ht : j.tag = none) (ho : j.out = []) (h : s.Carried t tr keyFoot) :
    s.Carried ((ciphDone 1).run t) tr keyFoot := by
  obtain ⟨-, -, -, -, -, -, -, hev, -, hw⟩ := (cipherOpDone_ends (n := 1) hjob).of_run rfl
  rw [State.within_latch_iff] at hw
  have hdev : ((ciphDone 1).run t).dev.hostp = t.dev.hostp ∧ ((ciphDone 1).run t).dev.ctr = t.dev.ctr := by
    rw [ciphDone_run hjob, State.live_dev, emit_dev, perf_dev, State.computed, ht, ho]
    cases j.fill <;> exact ⟨rfl, rfl⟩
  refine h.step (by rw [State.ctr, hdev.2, State.ctr]) ⟨[0xA9], hev.symm⟩ hdev.1 (hw.widen ⟨fun a ha => ?_, fun a ha => ?_, nofun, nofun, nofun, nofun, fun _ => rfl⟩)
  · rw [cipherFoot, ht] at ha
    exact (keyFoot.sub_with_left _).regs a (by simpa [keyFoot] using ha)
  · rw [cipherFoot, ho] at ha
    have := of_decide_eq_true ha
    simp only [List.length_nil] at this
    omega

theorem keyDone_keys {j : CiphJob} (hjob : (t.ciph 1).job = some j) (hf : j.fill = none) (ho : j.out = []) :
    ((ciphDone 1).run t).dev.keys = t.dev.keys := by
  rw [ciphDone_run hjob, State.live_dev, emit_dev, perf_dev, State.computed, hf, ho]
  cases j.tag <;> rfl

theorem accepted_unwrap (l : List Byte) : s.accepted.unwrapBlob l = s.unwrapBlob l := by
  simp only [State.unwrapBlob, State.slot, accepted_dev]

theorem accepted_ciph (n : Nat) : s.accepted.ciph n = s.ciph n := by simp only [State.ciph, accepted_dev]

/-- An unwrapping never ends in STATE. -/
theorem unwrapBlob_state {l : List Byte} {st : Nat} (h : s.unwrapBlob l = .error st) : st ≠ stState := by
  simp only [State.unwrapBlob] at h
  split at h
  · cases h; decide
  split at h
  · cases h; decide
  split at h
  · cases h; decide
  split at h
  · cases h; decide
  · cases h

/-- KEY_LOAD with a blob of the right length and the page free: the operation runs, and its status is the answer. -/
theorem completes_keyLoad {P : State → Prop} {st : Nat} (h : s.Takes tr 0x60) (hp : p.length = 56) (hj : (s.ciph 1).job = none) (hst : st ≠ stState)
    (hs : (s.keyJob p).status = st) (hP : ∀ u, ((ciphDone 1).run (s.accepted.keyed (s.keyJob p))).Aside (replyFoot tr) u → P (latchEdges s u)) :
    Completes (.keyLoad tr tag p) s fun t => P t ∧ s.Answers t tr tag 0x60 st [] keyFoot := by
  have hshape : (s.keyJob p).tag = none ∧ (s.keyJob p).out = [] := by
    rw [State.keyJob]
    cases s.unwrapBlob p <;> exact ⟨rfl, rfl⟩
  have hjob := keyed_job (s := s.accepted) (s.keyJob p)
  refine completes_answered rfl (h.accepts rfl (by decide)) (by decide) rfl ?_
  refine gives_bind (gives_getS ?_)
  rw [if_neg (by simp [hp]), accepted_ciph, hj, accepted_unwrap, if_neg (by decide)]
  refine gives_bind (gives_act ?_)
  change M.Gives _ (s.accepted.keyed (s.keyJob p)) _
  refine gives_bind (((total_ciphDone 1).gives_run _).mono ?_)
  rintro _ t rfl
  exact gives_pure ⟨congrArg (·, []) hs, hst, keyDone_carried hjob hshape.1 hshape.2 (accepted_carried.live rfl rfl rfl), fun u hu _ => hP u hu⟩

theorem keyLoad_reports (h : s.Takes tr 0x60) :
    (p.length ≠ 56 → Completes (.keyLoad tr tag p) s fun t => s.Answers t tr tag 0x60 4 []) ∧
    (p.length = 56 → (s.ciph 1).job ≠ none → Completes (.keyLoad tr tag p) s fun t => s.Answers t tr tag 0x60 2 []) ∧
    (p.length = 56 → (s.ciph 1).job = none →
      (∀ st, s.unwrapBlob p = .error st → Completes (.keyLoad tr tag p) s fun t =>
        t.dev.keys = s.dev.keys ∧ s.Answers t tr tag 0x60 st [] keyFoot) ∧
      (∀ f, s.unwrapBlob p = .ok f → Completes (.keyLoad tr tag p) s fun t =>
        (t.slot f.1 = f.2 ∧ ∀ k ≠ f.1, t.slot k = s.slot k) ∧ s.Answers t tr tag 0x60 0 [] keyFoot)) := by
  have ha := h.accepts (n := p.length) rfl (by decide)
  refine ⟨fun hp => ?_, fun hp hj => ?_, fun hp hj => ⟨fun st hst => ?_, fun f hf => ?_⟩⟩
  · refine completes_read rfl ha (by decide) rfl (by decide) (gives_bind (gives_getS ?_))
    rw [if_pos hp]
    exact gives_pure ⟨rfl, rfl⟩
  · refine completes_read rfl ha (by decide) rfl (by decide) (gives_bind (gives_getS ?_))
    rw [if_neg (by simp [hp]), accepted_ciph, if_pos (Option.isSome_iff_ne_none.mpr hj)]
    exact gives_pure ⟨rfl, rfl⟩
  · have hjob : s.keyJob p = { status := st, blocks := if st = stKey then 0 else 36 } := by rw [State.keyJob, hst]
    refine completes_keyLoad h hp hj (unwrapBlob_state hst) (by rw [hjob]) fun u hu => ?_
    rw [latchEdges_dev]
    refine hu.keys.trans ((keyDone_keys (keyed_job _) (by rw [hjob]) (by rw [hjob])).trans ?_)
    rw [State.keyed, State.live_dev, accepted_dev]
  · have hjob : s.keyJob p = { status := stOk, blocks := 36, fill := some f } := by rw [State.keyJob, hf]
    refine completes_keyLoad h hp hj (by decide) (by rw [hjob]) fun u hu => ?_
    obtain ⟨-, -, hfill, -⟩ := (cipherOpDone_ends (n := 1) (keyed_job (s := s.accepted) (s.keyJob p))).of_run rfl
    obtain ⟨h1, h2⟩ := hfill f (by rw [hjob])
    have hslot (k : Nat) : (latchEdges s u).slot k = (latchEdges (s.accepted.keyed (s.keyJob p)) ((ciphDone 1).run (s.accepted.keyed (s.keyJob p)))).slot k := by
      rw [State.slot, State.slot, latchEdges_dev, latchEdges_dev]
      exact congrArg (Sparse.val {} · k) hu.keys
    refine ⟨(hslot _).trans h1, fun k hk => (hslot _).trans ((h2 k hk).trans ?_)⟩
    rw [State.slot, State.keyed, State.live_dev, accepted_dev, State.slot]

/-! ### DISCHARGE (R366) -/

theorem discharge_reports (h : s.Takes tr 0x61) :
    (s.fld GOV_STAT_STATE ≤ 3 → Completes (.discharge tr tag) s fun t =>
      (t.fld GOV_STAT_STATE = 4 ∧ t.bit GOV_STAT_DISCH = true ∧ t.dev.gov.byDoor = false) ∧ s.Answers t tr tag 0x61 0 [] (onlyRegs [GOV_STAT])) ∧
    (4 ≤ s.fld GOV_STAT_STATE → Completes (.discharge tr tag) s fun t => t.dev.gov = s.dev.gov ∧ s.Answers t tr tag 0x61 0 []) := by
  have ha := h.accepts (n := ([] : List Byte).length) rfl (by decide)
  have hcmd {Q : Nat × List Byte → State → Prop} (hq : Q (stOk, []) ((startBleed false).run s.accepted)) :
      (do govCmd 1; return (stOk, []) : M (Nat × List Byte)).Gives s.accepted Q :=
    gives_bind (gives_bind (((total_startBleed false).gives_run _).mono fun _ t ht => gives_pure (gives_pure (by rw [ht]; exact hq))))
  refine ⟨fun hst => ?_, fun hst => ?_⟩
  · refine completes_answered rfl ha (by decide) rfl (hcmd ?_)
    rw [startBleed_run, accepted_fld (by decide), if_pos hst]
    refine ⟨rfl, by decide, ?_, fun u hu _ => ⟨?_, ?_, ?_⟩⟩
    · refine (((accepted_carried.put (by decide)).put (by decide)).live rfl rfl rfl).step (State.ctr_counted_other (by decide)) (by rw [State.bled, State.counted_events])
        (by rw [State.bled, State.counted_dev]) ?_
      exact State.counted_within
    · rw [latchEdges_fld, hu.fld (replyFoot_apart (by decide)), State.bled, State.counted_fld, State.live_fld, State.fld_apart _ (by decide),
        State.fld_put_same (Fld.full_of_settable (by decide))]
      rfl
    · rw [latchEdges_bit, hu.bit (replyFoot_apart (by decide)), State.bled, State.counted_bit, State.live_bit]
      exact State.bit_self _ (by decide)
    · rw [latchEdges_dev]
      exact (congrArg Gov.byDoor hu.gov).trans (bled_byDoor false)
  · refine completes_answered rfl ha (by decide) rfl (hcmd ?_)
    rw [startBleed_run, accepted_fld (by decide), if_neg (by omega)]
    refine ⟨rfl, by decide, accepted_carried, fun u hu _ => ?_⟩
    rw [latchEdges_dev]
    exact hu.gov.trans (by rw [accepted_dev])

/-- Settles O49: what the port does with a command that it does not take, and what the reports answer. -/
theorem hostReports : Obligations.HostReports := by
  refine ⟨fun c tr tag code p s _ hrow => ?_, fun tr tag p s => ⟨fun _ hon haw ho => ?_, fun h hp => completes_logRead h hp,
    fun h hp => completes_statsRead h hp, completes_timeGet, fun h hp => ⟨timeSet_none h hp, timeSet_rtc h hp, timeSet_ntime h hp⟩,
    fun h => ?_, fun h => ?_⟩⟩
  · have hx := hostRow_exec (s := s) hrow
    refine ⟨hostCmd_unheard hx, fun ⟨hon, haw⟩ hd hc => ?_, fun ⟨hon, haw⟩ hd hc ho => hostCmd_busy hx hon haw (absurd · hd) hc ho,
      fun ⟨hon, haw⟩ hd hc ho => ⟨fun hs h1 => ?_, fun hs hz => hostCmd_misfit hx hon haw (absurd · hd) hc ho (by simp [hs]) hz, fun hs hz hl => ?_⟩⟩
    · exact completes_gives hx (gives_hostCmd_dead hon haw hd hc (gives_stateRefused tr code tag))
    · exact completes_gives hx (gives_hostCmd_starting hon haw (absurd · hd) hc ho hs h1 (gives_stateRefused tr code tag))
    · exact completes_gives hx (gives_hostCmd_lc hon haw (absurd · hd) hc ho (by simp [hs]) hz hl (gives_stateRefused tr code tag))
  · rw [← statusData_eq]
    exact completes_status hon haw ho
  · obtain ⟨h1, h2, h3⟩ := keyLoad_reports (p := p) (tag := tag) h
    exact ⟨h1, h2, fun hp hj => ⟨(h3 hp hj).1, fun f hf => ((h3 hp hj).2 f hf).imp fun _ ⟨⟨ha, hb⟩, hc⟩ => ⟨ha, hb, hc⟩⟩⟩
  · obtain ⟨h1, h2⟩ := discharge_reports (tag := tag) h
    exact ⟨fun hst => (h1 hst).imp fun _ ⟨⟨ha, hb, hc⟩, hd⟩ => ⟨ha, hb, hc, hd⟩, h2⟩

end Sys2Proof.Machine
end

section
/-!
Frames as octets: what is received of a frame that is whole (R420, R422), and the octets of the port's UART (R426).
-/
namespace Sys2Proof.Machine
open Sys2Proof.Reg

variable {s t u : State} {F : Foot}

/-! ### A frame's octets -/

theorem crc16_lt {i : Nat} (h : i < 2 ^ 16) (l : List Byte) : crc16 i l < 2 ^ 16 := by
  rw [crc16]
  induction l generalizing i with
  | nil => exact h
  | cons b l ih =>
    refine ih (times_lt (fun x hx => ?_) 8 (Nat.mod_lt _ (by decide)))
    split
    · exact Nat.xor_lt_two_pow (Nat.mod_lt _ (by decide)) (by decide)
    · exact Nat.mod_lt _ (by decide)

/-- A number laid down in the midst of octets is read back. -/
theorem numAt_append (a c : List Byte) (n v : Nat) : numAt (a ++ leBytes n v ++ c) a.length n = v % 256 ^ n := by
  have hl : (leBytes n v).length = n := leBytes_length n v
  rw [numAt, sliceOf_eq (by simp [hl]), List.append_assoc, List.drop_left, List.take_left' hl, leNat_leBytes]

/-- The octets of a frame before its CRC. -/
def frameBody (code tag : Nat) (p : List Byte) : List Byte := leBytes 1 code ++ leBytes 1 tag ++ leBytes 2 p.length ++ p

theorem hostFrame_eq (code tag : Nat) (p : List Byte) : hostFrame code tag p = frameBody code tag p ++ leBytes 2 (crc16 0xFFFF (frameBody code tag p)) := rfl

theorem frameBody_length (code tag : Nat) (p : List Byte) : (frameBody code tag p).length = 4 + p.length := by
  simp [frameBody, leBytes_length]
  omega

theorem hostFrame_length (code tag : Nat) (p : List Byte) : (hostFrame code tag p).length = 6 + p.length := by
  rw [hostFrame_eq, List.length_append, frameBody_length, leBytes_length]
  omega

/-- A frame names the size of its payload. -/
theorem hostFrame_size (code tag : Nat) {p : List Byte} (hp : p.length ≤ 4096) : numAt (hostFrame code tag p) 2 2 = p.length := by
  rw [hostFrame_eq]
  generalize crc16 0xFFFF (frameBody code tag p) = k
  have h := numAt_append (leBytes 1 code ++ leBytes 1 tag) (p ++ leBytes 2 k) 2 p.length
  rw [frameBody]
  simpa [leBytes_length, Nat.mod_eq_of_lt (show p.length < 65536 by omega)] using h

/-- A frame received whole is its command. -/
theorem frameIn_hostFrame (tr : Tr) {code tag : Nat} {p : List Byte} (hc : code < 256) (ht : tag < 256) (hp : p.length ≤ 4096) :
    frameIn tr (hostFrame code tag p) = hostCmd tr code tag p := by
  have hbody := frameBody_length code tag p
  have hcode : numAt (hostFrame code tag p) 0 1 = code := by
    rw [hostFrame_eq]
    generalize crc16 0xFFFF (frameBody code tag p) = k
    have h := numAt_append [] (leBytes 1 tag ++ leBytes 2 p.length ++ p ++ leBytes 2 k) 1 code
    rw [frameBody]
    simpa [Nat.mod_eq_of_lt hc] using h
  have htag : numAt (hostFrame code tag p) 1 1 = tag := by
    rw [hostFrame_eq]
    generalize crc16 0xFFFF (frameBody code tag p) = k
    have h := numAt_append (leBytes 1 code) (leBytes 2 p.length ++ p ++ leBytes 2 k) 1 tag
    rw [frameBody]
    simpa [leBytes_length, Nat.mod_eq_of_lt ht] using h
  have hlen := hostFrame_size code tag hp
  have hcrc : numAt (hostFrame code tag p) (4 + p.length) 2 = crc16 0xFFFF (frameBody code tag p) := by
    have h := numAt_append (frameBody code tag p) [] 2 (crc16 0xFFFF (frameBody code tag p))
    rw [List.append_nil, ← hostFrame_eq, hbody] at h
    rw [h, Nat.mod_eq_of_lt]
    exact crc16_lt (by decide) _
  have htake : (hostFrame code tag p).take (4 + p.length) = frameBody code tag p := by rw [hostFrame_eq, ← hbody, List.take_left]
  have hpay : sliceOf (hostFrame code tag p) 4 p.length = p := by
    rw [sliceOf_eq (by rw [hostFrame_eq, List.length_append, hbody, leBytes_length]; omega), hostFrame_eq, frameBody, List.append_assoc]
    rw [List.drop_left' (by simp [leBytes_length]), List.take_left]
  have hall := hostFrame_length code tag p
  rw [frameIn, hcode, htag, hlen, hcrc, htake, hpay, hall, if_neg (by omega), if_neg (fun h => h rfl)]

end Sys2Proof.Machine
end

section
/-!
The ADC and the UARTs' FIFOs (R492–R495).
-/
namespace Sys2Proof.Machine
open Sys2Proof.Reg

variable {s t u : State} {F : Foot}

/-! ### ADC (R492–R494) -/

theorem adc_perf : ∀ a ∈ perfRegs adcPage, ({} : Foot).regs a = true ∨ a ∈ perfOf adcPage := fun _ => .inr

/-- The state with a page's clock gate open. -/
def State.ungated (s : State) (p : Nat) : State := s.live fun d => { d with gates := if p ∈ d.gates then d.gates else p :: d.gates }

theorem run_openGate_bind (p : Nat) (f : Unit → M Unit) (s : State) : (openGate p >>= f).run s = (f ()).run (s.ungated p) := (rfl)
theorem ungated_bit (p : Nat) (f : Fld) : (s.ungated p).bit f = s.bit f := State.live_bit _ _ _
theorem ungated_en (p q : Nat) : (s.ungated p).en q = s.en q := ungated_bit p _
theorem ungated_reg (p a : Nat) : (s.ungated p).reg a = s.reg a := State.live_reg _ _ _
theorem did_ungated (h : s.Inv) (p : Nat) : s.Did (s.ungated p) [] noted F := (did_refl h).lived (by rfl)

theorem adcStart_run : (openGate adcPage >>= fun _ => adcWrite 1).run s =
    if s.bit ADC_STAT_BUSY then (setFlt adcPage fltState).run (s.ungated adcPage)
    else if s.en adcPage then (s.ungated adcPage).put ADC_STAT_BUSY 1 else s.ungated adcPage := by
  rw [run_openGate_bind, adcWrite, if_pos (by decide), run_bit, ungated_bit, run_ite, adcStart, run_getS, run_ite, ungated_en, run_setFld, run_pure]

theorem adcStart_busy (h : s.Inv) (hb : s.bit ADC_STAT_BUSY = true) : Completes .adcStart s fun t => s.Reports t adcPage fltState :=
  completes_run rfl (by
    rw [adcStart_run, if_pos hb]
    exact ((did_ungated h adcPage).setFlt (by decide) adc_perf).latched s)

theorem adcStart_starts (h : s.Inv) (hb : s.bit ADC_STAT_BUSY = false) :
    Completes .adcStart s fun t => s.Sets t (if s.en adcPage then [(ADC_STAT_BUSY, 1)] else []) := by
  refine completes_run rfl ?_
  rw [adcStart_run, if_neg (by rw [hb]; decide)]
  split
  · exact ((did_ungated h adcPage).puts (by decide)).latched s
  · exact (did_ungated h adcPage).latched s

theorem onesOf_single (ch : Fin 16) : onesOf 16 (2 ^ ch.val) = [ch.val] := by revert ch; decide

/-- A result of the limit channel that crosses a limit, seen against the result before it (R494). -/
def State.adcHit (s : State) (ch : Nat) (code : BitVec 12) : Prop :=
  s.fld ADC_LIM_LCH = ch ∧ s.dev.adc.hadResult = true ∧
    ((bitOf (s.fld ADC_LIM_DIR) 0 = true ∧ code.toNat < s.fld ADC_LIM_LO ∧ s.fld ADC_LIM_LO ≤ s.fld (ADC_RES_CODE ch)) ∨
      (bitOf (s.fld ADC_LIM_DIR) 1 = true ∧ s.fld ADC_LIM_HI < code.toNat ∧ s.fld (ADC_RES_CODE ch) ≤ s.fld ADC_LIM_HI))

theorem limitHit_iff {dir lo hi old new : Nat} : limitHit dir lo hi old new = true ↔
    (bitOf dir 0 = true ∧ new < lo ∧ lo ≤ old) ∨ (bitOf dir 1 = true ∧ hi < new ∧ old ≤ hi) := by
  simp only [limitHit, Bool.or_eq_true, Bool.and_eq_true, Bool.not_eq_true', decide_eq_true_eq, decide_eq_false_iff_not, Nat.not_lt]
  tauto

/-- The limit channel has a result. -/
def State.resulted (s : State) : State := s.live fun d => { d with adc := { d.adc with hadResult := true } }

/-- The state in which one channel's result has been judged and is about to be stored. -/
def State.adcJudged (s : State) (ch : Nat) (code : BitVec 12) : State :=
  if ch = s.fld ADC_LIM_LCH then
    (if s.dev.adc.hadResult && limitHit (s.fld ADC_LIM_DIR) (s.fld ADC_LIM_LO) (s.fld ADC_LIM_HI) (s.fld (ADC_RES_CODE ch)) code.toNat then
      (emit adcPage 0x5B).run s else s).resulted
  else s

theorem adcJudged_hit {ch : Nat} {code : BitVec 12} (h : s.adcHit ch code) : s.adcJudged ch code = ((emit adcPage 0x5B).run s).resulted := by
  obtain ⟨hch, hhad, hlim⟩ := h
  rw [State.adcJudged, if_pos hch.symm, hhad, limitHit_iff.mpr hlim, Bool.and_self, if_pos rfl]

theorem adcJudged_miss {ch : Nat} {code : BitVec 12} (h : ¬ s.adcHit ch code) : s.adcJudged ch code = if ch = s.fld ADC_LIM_LCH then s.resulted else s := by
  rw [State.adcJudged]
  split
  next hch =>
    rw [if_neg]
    rw [Bool.and_eq_true, limitHit_iff]
    exact fun ⟨h1, h2⟩ => h ⟨hch.symm, h1, h2⟩
  next => rfl

theorem adcJudged_did (h : s.Inv) (ch : Nat) (code : BitVec 12) : s.Did (s.adcJudged ch code) [] (perfOf adcPage) := by
  rw [State.adcJudged]
  split
  · split
    · exact ((did_refl h).emits (by decide) adc_perf).lived (by rfl)
    · exact (did_refl h).lived (by rfl)
  · exact did_refl h

theorem adcJudged_had (ch : Nat) (code : BitVec 12) :
    (s.adcJudged ch code).dev.adc.hadResult = (s.dev.adc.hadResult || decide (s.fld ADC_LIM_LCH = ch)) := by
  rw [State.adcJudged]
  by_cases hch : ch = s.fld ADC_LIM_LCH
  · rw [if_pos hch, State.resulted, State.live_dev, decide_eq_true hch.symm, Bool.or_true]
  · rw [if_neg hch, decide_eq_false (Ne.symm hch), Bool.or_false]

theorem adcResults_single (ch : Nat) (code : BitVec 12) : (adcResults [ch] [code]).run s = (s.adcJudged ch code).put (ADC_RES_CODE ch) code.toNat := by
  rw [adcResults, run_getS, State.adcJudged]
  dsimp only [List.headD_cons]
  by_cases hch : ch = s.fld ADC_LIM_LCH
  · rw [if_pos hch, if_pos hch]
    split
    · rw [run_emit_bind]; rfl
    · rfl
  · rw [if_neg hch, if_neg hch]; rfl

theorem adcSequence_idle (hb : s.bit ADC_STAT_BUSY = false) (codes : List (BitVec 12)) : Completes (.adcSequenceDone codes) s fun t => s.Within {} t :=
  completes_nothing rfl (by rw [hb, if_neg (by decide), run_pure]) (by rw [State.within_latch_iff]; exact s.within_refl _)

theorem total_adcResults : ∀ (l : List Nat) (codes : List (BitVec 12)), (adcResults l codes).Total
  | [], _ => total_pure ()
  | _ :: l, _ => total_bind total_getS fun _ => total_ite
    (total_ite (total_bind (total_emit _ _) fun _ => total_bind (total_act _) fun _ => total_bind (total_setFld _ _) fun _ => total_adcResults l _)
      (total_bind (total_act _) fun _ => total_bind (total_setFld _ _) fun _ => total_adcResults l _))
    (total_bind (total_setFld _ _) fun _ => total_adcResults l _)

theorem adc_results (ch : Fin 16) : (ADC_RES_CODE ch.val).settable = true := by revert ch; decide

theorem adcSequence_ends (h : s.Inv) (ch : Fin 16) (code : BitVec 12) (hb : s.bit ADC_STAT_BUSY = true) (hm : s.fld ADC_SEQ_MASK = 2 ^ ch.val) :
    Completes (.adcSequenceDone [code]) s fun t =>
      (s.adcHit ch.val code → t.events = s.events ++ [0x5B, 0x5A]) ∧ (¬ s.adcHit ch.val code → t.events = s.events ++ [0x5A]) ∧
      t.dev.adc.hadResult = (s.dev.adc.hadResult || decide (s.fld ADC_LIM_LCH = ch.val)) ∧
      s.Sets t [(ADC_RES_CODE ch.val, code.toNat), (ADC_STAT_BUSY, 0), (ADC_STAT_STATUS, 0)] (perfOf adcPage) := by
  refine completes_run rfl ?_
  rw [hb, if_pos rfl, hm, onesOf_single, (total_adcResults _ _).run_bind, adcResults_single, run_setFld_bind, run_setFld_bind]
  have hev : ((emit adcPage 0x5A).run ((((s.adcJudged ch.val code).put (ADC_RES_CODE ch.val) code.toNat).put ADC_STAT_BUSY 0).put ADC_STAT_STATUS stOk)).events =
      (s.adcJudged ch.val code).events ++ [0x5A] := by
    rw [emit_events (by decide), State.events_put, State.events_put, State.events_put]
  refine ⟨fun hit => ?_, fun hmiss => ?_, ?_, ?_⟩
  · rw [latchEdges_events, hev, adcJudged_hit hit, State.resulted, State.live_events, emit_events (by decide), List.append_assoc]
    rfl
  · rw [latchEdges_events, hev, adcJudged_miss hmiss]
    split <;> rfl
  · rw [latchEdges_adc, emit_dev, State.dev_put, State.dev_put, State.dev_put]
    exact adcJudged_had ch.val code
  · exact (((((adcJudged_did h ch.val code).puts (adc_results ch)).puts (by decide)).puts (by decide)).emits (by decide) adc_perf).latched s

/-! ### The UARTs' FIFOs (R495) -/

/-- A UART changed. -/
def State.uarted (s : State) (n : Nat) (f : Uart → Uart) : State := s.live fun d => { d with uart := Sparse.upd {} d.uart n f }

theorem run_modUart (n : Nat) (f : Uart → Uart) (s : State) : (modUart n f).run s = s.uarted n f := (rfl)

theorem run_modUart_bind (n : Nat) (f : Uart → Uart) (g : Unit → M Unit) (s : State) : (modUart n f >>= g).run s = (g ()).run (s.uarted n f) := (rfl)

theorem uart_uarted (n : Nat) (f : Uart → Uart) : (s.uarted n f).uart n = f (s.uart n) := by
  rw [State.uarted, State.uart, State.live_dev]
  exact val_upd_same _ _ _ _

theorem State.uart_congr (h : t.dev.uart = s.dev.uart) (n : Nat) : t.uart n = s.uart n := by rw [State.uart, h, State.uart]
theorem latchEdges_uarts (n : Nat) : (latchEdges s t).uart n = t.uart n := State.uart_congr (latchEdges_uart s t) n

theorem within_uarted (n : Nat) (f : Uart → Uart) : s.Within F (s.uarted n f) := by
  rw [State.uarted, State.within_live_iff rfl]
  exact s.within_refl F

theorem uart_facts (n : Fin 3) : (UART_STAT_OVR n.val).settable = true ∧ (UART_STAT_FERR n.val).settable = true ∧
    (UART_STAT_PERR n.val).settable = true ∧ latchOf (0x62 + n.val) = none := by revert n; decide

/-- An octet taken into the FIFO, or dropped with OVR. -/
def State.fifoIn (s : State) (n : Nat) (b : Byte) : State :=
  if (s.uart n).rx.length < 16 then s.uarted n fun u => { u with rx := u.rx ++ [b] } else s.put (UART_STAT_OVR n) 1

/-- An error flag set, where the error came. -/
def State.flagIf (s : State) (c : Bool) (f : Fld) : State := if c then s.put f 1 else s

theorem State.flagIf_dev (s : State) (c : Bool) (f : Fld) : (s.flagIf c f).dev = s.dev ∧ (s.flagIf c f).events = s.events := by
  cases c
  · exact ⟨rfl, rfl⟩
  · exact ⟨State.dev_put .., State.events_put ..⟩

theorem State.Did.flagIf {l : List (Fld × Nat)} {noted : List Nat} (h : s.Did t l noted F) {f : Fld} (hf : f.settable = true) (c : Bool) :
    s.Did (t.flagIf c f) (l ++ if c = true then [(f, 1)] else []) noted F := by
  cases c
  · rw [if_neg (by decide), List.append_nil]; exact h
  · exact h.puts hf

theorem uartReceive_run (n : Nat) (b : Byte) (ferr perr : Bool) : (uartReceive n b ferr perr).run s =
    if s.uartOn n then (emit (uartPage n) (0x62 + n)).run (((s.fifoIn n b).flagIf ferr (UART_STAT_FERR n)).flagIf perr (UART_STAT_PERR n)) else s := by
  have hbits (t : State) : M.run (if ferr = true then do
        setFld (UART_STAT_FERR n) 1
        if perr = true then do
          setFld (UART_STAT_PERR n) 1
          emit (uartPage n) (0x62 + n)
        else emit (uartPage n) (0x62 + n)
      else
        if perr = true then do
          setFld (UART_STAT_PERR n) 1
          emit (uartPage n) (0x62 + n)
        else emit (uartPage n) (0x62 + n)) t = (emit (uartPage n) (0x62 + n)).run ((t.flagIf ferr (UART_STAT_FERR n)).flagIf perr (UART_STAT_PERR n)) := by
    rw [State.flagIf, State.flagIf]
    cases ferr <;> cases perr <;> simp only [if_true, if_false, Bool.false_eq_true, run_setFld_bind]
  rw [uartReceive, run_getS, run_ite, run_ite, State.fifoIn, run_modUart_bind, run_setFld_bind]
  refine if_congr Iff.rfl ?_ rfl
  split
  · exact hbits _
  · exact hbits _

theorem uartReceive_off (n : Fin 3) (b : Byte) (ferr perr : Bool) (hp : ¬ (n.val = 1 ∧ s.bit HOSTP_CFG_UARTEN = true)) (ho : s.uartOn n.val = false) :
    Completes (.uartRxOctet n b ferr perr) s fun t => (∀ m < 3, t.uart m = s.uart m) ∧ s.Within {} t :=
  completes_nothing (m := uartReceive n.val b ferr perr) (by exact congrArg (cmd s) (if_neg hp)) (by rw [uartReceive_run, if_neg (by simp [ho])])
    ⟨fun _ _ => latchEdges_uarts _, by rw [State.within_latch_iff]; exact s.within_refl _⟩

theorem uartReceive_takes (h : s.Inv) (n : Fin 3) (b : Byte) (ferr perr : Bool) (hp : ¬ (n.val = 1 ∧ s.bit HOSTP_CFG_UARTEN = true))
    (ho : s.uartOn n.val = true) : Completes (.uartRxOctet n b ferr perr) s fun t =>
      t.uart n.val = (if (s.uart n.val).rx.length < 16 then { s.uart n.val with rx := (s.uart n.val).rx ++ [b] } else s.uart n.val) ∧
      t.events = s.events ++ [0x62 + n.val] ∧
      s.Sets t ((if (s.uart n.val).rx.length < 16 then [] else [(UART_STAT_OVR n.val, 1)]) ++
        (if ferr then [(UART_STAT_FERR n.val, 1)] else []) ++ if perr then [(UART_STAT_PERR n.val, 1)] else []) (perfOf (uartPage n.val)) := by
  obtain ⟨hovr, hferr, hperr, hlatch⟩ := uart_facts n
  refine completes_run (m := uartReceive n.val b ferr perr) (by exact congrArg (cmd s) (if_neg hp)) ?_
  rw [uartReceive_run, if_pos ho]
  have hin : (s.fifoIn n.val b).events = s.events ∧ (s.fifoIn n.val b).uart n.val =
      (if (s.uart n.val).rx.length < 16 then { s.uart n.val with rx := (s.uart n.val).rx ++ [b] } else s.uart n.val) ∧
      s.Did (s.fifoIn n.val b) (if (s.uart n.val).rx.length < 16 then [] else [(UART_STAT_OVR n.val, 1)]) (perfOf (uartPage n.val)) := by
    rw [State.fifoIn]
    split
    · exact ⟨rfl, uart_uarted _ _, (did_refl h).lived (by rfl)⟩
    · exact ⟨State.events_put .., State.uart_congr (by rw [State.dev_put]) _, (did_refl h).puts hovr⟩
  obtain ⟨hev, hua, hdid⟩ := hin
  refine ⟨?_, ?_, (((hdid.flagIf hferr ferr).flagIf hperr perr).emits hlatch (by exact fun _ => .inr)).latched s⟩
  · rw [latchEdges_uarts, ← hua]
    exact State.uart_congr (by rw [emit_dev, (State.flagIf_dev ..).1, (State.flagIf_dev ..).1]) _
  · rw [latchEdges_events, emit_events hlatch, (State.flagIf_dev ..).2, (State.flagIf_dev ..).2, hev]

theorem uartTx_writes (n : Fin 3) (v : Word) : Completes (.uartTxWrite n v) s fun t =>
    t.uart n.val = (if (s.uart n.val).tx.length < 16 then { s.uart n.val with tx := (s.uart n.val).tx ++ [BitVec.ofNat 8 v.toNat] } else s.uart n.val) ∧
    s.Within {} t := by
  refine completes_run (m := uartWrite n.val v) rfl ?_
  rw [uartWrite, run_getS, run_ite, run_modUart, run_pure, latchEdges_uarts, State.within_latch_iff]
  split
  · exact ⟨uart_uarted _ _, within_uarted _ _⟩
  · exact ⟨rfl, s.within_refl _⟩

theorem uartTx_sends (n : Fin 3) : Completes (.uartTxOctetSent n) s fun t =>
    t.uart n.val = (if s.uartOn n.val = true then { s.uart n.val with tx := (s.uart n.val).tx.drop 1 } else s.uart n.val) ∧ s.Within {} t := by
  refine completes_run (m := if s.uartOn n.val then modUart n.val fun u => { u with tx := u.tx.tail } else pure ()) rfl ?_
  rw [run_ite, run_modUart, run_pure, latchEdges_uarts, State.within_latch_iff]
  split
  · exact ⟨(uart_uarted _ _).trans (by rw [List.drop_one]), within_uarted _ _⟩
  · exact ⟨rfl, s.within_refl _⟩

theorem uartRx_reads (n : Fin 3) : Completes (.uartRxRead n) s fun t =>
    t.uart n.val = { s.uart n.val with rx := (s.uart n.val).rx.drop 1 } ∧ s.Within {} t := by
  have hread : (uartRead n.val).Gives s fun _ t => t.uart n.val = { s.uart n.val with rx := (s.uart n.val).rx.drop 1 } ∧ s.Within {} t := by
    refine gives_bind (gives_getS ?_)
    cases hrx : (s.uart n.val).rx with
    | nil =>
      refine gives_bind (gives_freeNat_drawn.mono fun _ t ht => gives_pure ⟨?_, ht.within⟩)
      calc t.uart n.val = { s.uart n.val with rx := (s.uart n.val).rx } := State.uart_congr (by rw [ht.dev]) _
        _ = { s.uart n.val with rx := [].drop 1 } := by rw [hrx, List.drop_nil]
    | cons b l => exact gives_bind (gives_act (gives_pure ⟨uart_uarted n.val fun u => { u with rx := l }, within_uarted _ _⟩))
  refine completes_gives (m := do let _ ← uartRead n.val) rfl (gives_bind (hread.mono fun _ t ht => gives_pure ?_))
  rwa [latchEdges_uarts, State.within_latch_iff]

end Sys2Proof.Machine
end

section
/-!
The octets of UART1 while they are the host port's (R426).
-/
namespace Sys2Proof.Machine
open Sys2Proof.Reg

variable {s t u : State} {F : Foot} {n : Fin 3} {b : Byte} {ferr perr : Bool}

/-- The host port's units changed, its UART and those beside it as they were. -/
def State.hosted (s : State) (f : Hostp → Hostp) : State := s.live fun d => { d with hostp := f d.hostp }

theorem run_modHostp (f : Hostp → Hostp) (s : State) : (modHostp f).run s = s.hosted f := (rfl)

/-- An octet of the port's UART that is kept: the port's units alone change. -/
theorem hosted_quiet (f : Hostp → Hostp) : (latchEdges s (s.hosted f)).dev.hostp = f s.dev.hostp ∧
    (∀ m < 3, (latchEdges s (s.hosted f)).uart m = s.uart m) ∧ s.Within {} (latchEdges s (s.hosted f)) := by
  refine ⟨by rw [latchEdges_hostp, State.hosted, State.live_dev], fun m _ => (latchEdges_uarts m).trans (State.uart_congr rfl m), ?_⟩
  rw [State.within_latch_iff, State.hosted, State.within_live_iff rfl]
  exact s.within_refl _

section
variable (hp : n.val = 1 ∧ s.bit HOSTP_CFG_UARTEN = true)
include hp

theorem uartPort_asleep (ha : s.portAwake = false) : Completes (.uartRxOctet n b ferr perr) s fun t =>
    t.dev.hostp = s.dev.hostp ∧ (∀ m < 3, t.uart m = s.uart m) ∧ s.Within {} t :=
  completes_nothing (m := pure ()) (by exact congrArg (cmd s) ((if_pos hp).trans (if_neg (by simp [ha])))) rfl
    ⟨by rw [latchEdges_hostp], fun m _ => latchEdges_uarts m, by rw [State.within_latch_iff]; exact s.within_refl _⟩

variable (ha : s.portAwake = true)
include ha

theorem uartPort_in : exec (.uartRxOctet n b ferr perr) s = cmd s (uartIn b) := by exact congrArg (cmd s) ((if_pos hp).trans (if_pos ha))

/-- An octet that is kept. -/
theorem uartPort_keeps {f : Hostp → Hostp} (h : (uartIn b).run s = s.hosted f) : Completes (.uartRxOctet n b ferr perr) s fun t =>
    t.dev.hostp = f s.dev.hostp ∧ (∀ m < 3, t.uart m = s.uart m) ∧ s.Within {} t :=
  completes_run (uartPort_in hp ha) (by rw [h]; exact hosted_quiet f)

theorem uartPort_flag (hb : b = 0x7E) (h : s.dev.hostp.isOpen = false ∨ s.dev.hostp.buf = []) : Completes (.uartRxOctet n b ferr perr) s fun t =>
    t.dev.hostp = { s.dev.hostp with buf := [], esc := false, isOpen := true } ∧ (∀ m < 3, t.uart m = s.uart m) ∧ s.Within {} t :=
  uartPort_keeps hp ha (f := fun x => { x with buf := [], esc := false, isOpen := true }) (by
    rw [uartIn, run_getS]
    dsimp only
    rw [if_pos hb, if_neg (by rcases h with h | h <;> simp [h]), run_modHostp])

theorem uartPort_escape (hb : b = 0x7D) (ho : s.dev.hostp.isOpen = true) (he : s.dev.hostp.esc = false) :
    Completes (.uartRxOctet n b ferr perr) s fun t =>
      t.dev.hostp = { s.dev.hostp with esc := true } ∧ (∀ m < 3, t.uart m = s.uart m) ∧ s.Within {} t :=
  uartPort_keeps hp ha (f := fun x => { x with esc := true }) (by
    rw [uartIn, run_getS]
    dsimp only
    rw [if_neg (by rw [hb]; decide), if_pos ho, if_pos ⟨hb, by rw [he]; rfl⟩, run_modHostp])

theorem uartPort_data (hb : b ≠ 0x7E) (hd : b ≠ 0x7D ∨ s.dev.hostp.esc = true) (ho : s.dev.hostp.isOpen = true) :
    Completes (.uartRxOctet n b ferr perr) s fun t =>
      t.dev.hostp = { s.dev.hostp with buf := s.dev.hostp.buf ++ [if s.dev.hostp.esc = true then b ^^^ 0x20 else b], esc := false } ∧
      (∀ m < 3, t.uart m = s.uart m) ∧ s.Within {} t :=
  uartPort_keeps hp ha (f := fun x => { x with buf := x.buf ++ [if s.dev.hostp.esc = true then b ^^^ 0x20 else b], esc := false }) (by
    rw [uartIn, run_getS]
    dsimp only
    rw [if_neg hb, if_pos ho, if_neg (fun h => hd.elim (fun hd => hd h.1) fun hd => by simp [hd] at h), run_modHostp])

theorem uartPort_between (hb : b ≠ 0x7E) (ho : s.dev.hostp.isOpen = false) : Completes (.uartRxOctet n b ferr perr) s fun t =>
    t.dev.hostp = s.dev.hostp ∧ (∀ m < 3, t.uart m = s.uart m) ∧ s.Within {} t :=
  uartPort_keeps hp ha (f := id) (by
    rw [uartIn, run_getS]
    dsimp only
    rw [if_neg hb, if_neg (by simp [ho])]
    rfl)

/-- A frame that asks for STATUS is closed: it is answered. -/
theorem uartPort_status {tag : Byte} (hb : b = 0x7E) (ho : s.dev.hostp.isOpen = true) (hf : s.dev.hostp.buf = hostFrame 1 tag.toNat [])
    (hout : (s.port 1).out = none) (hr : (s.port 1).reply = none) : Completes (.uartRxOctet n b ferr perr) s fun t =>
      (t.port 1).reply = some { frame := replyFrame 1 tag.toNat 0 s.statusData } ∧ t.dev.hostp.isOpen = false ∧ t.dev.hostp.buf = [] ∧
      s.Within (onlyRegs (HOSTP_STAT :: perfOf hostpPage)) t := by
  have hne : hostFrame 1 tag.toNat [] ≠ [] := by simp [hostFrame, leBytes]
  have hport (k : Nat) : (s.hosted fun x => { x with buf := [], esc := false, isOpen := false }).port k = s.port k := by
    rcases k with _ | _ | k <;> rfl
  refine completes_gives (uartPort_in hp ha) (gives_bind (gives_getS ?_))
  dsimp only
  rw [if_pos hb, if_pos ⟨ho, by rw [hf]; exact hne⟩, hf, frameIn_hostFrame .uart (by decide) tag.isLt (by decide)]
  refine gives_bind (gives_act ?_)
  change M.Gives _ (s.hosted fun x => { x with buf := [], esc := false, isOpen := false }) _
  have hstatus := gives_status_wire (s := s.hosted fun x => { x with buf := [], esc := false, isOpen := false }) (tr := .uart) (tag := tag) (by decide)
    hp.2 ha ((congrArg Port.out (hport 1)).trans hout)
  refine hstatus.mono fun _ t ⟨ht, hs⟩ => ⟨?_, ?_, ?_, ?_⟩
  · rw [latchEdges_port]
    refine (hs.empty ?_).1
    exact (congrArg Port.reply ((State.port_congr (by rw [accepted_dev]) 1).trans (hport 1))).trans hr
  · rw [latchEdges_hostp]
    exact (congrArg (fun d => d.hostp.isOpen) ht.dev : t.dev.hostp.isOpen = _).trans (by simp only [accepted_dev, Dev.besides, State.hosted, State.live_dev])
  · rw [latchEdges_hostp]
    exact (congrArg (fun d => d.hostp.buf) ht.dev : t.dev.hostp.buf = _).trans (by simp only [accepted_dev, Dev.besides, State.hosted, State.live_dev])
  · rw [State.within_latch_iff]
    refine (State.within_live s rfl).trans ((accepted_within.of_onlyRegs fun a ha => ?_).trans (ht.within.of_onlyRegs fun a ha => ?_))
    · exact decide_eq_true (List.mem_cons_of_mem _ ha)
    · exact decide_eq_true (List.mem_cons.mpr (.inl (List.mem_singleton.mp ha)))

end

end Sys2Proof.Machine
end

section
/-!
The I²C controllers and the GP balls (R496–R499).
-/
namespace Sys2Proof.Machine
open Sys2Proof.Reg

variable {s t u : State} {F : Foot}

/-! ### I²C (R496) -/

theorem i2c_facts (n : Fin 2) : (I2C_STAT_BUSY n.val).settable = true ∧ (I2C_STAT_STATUS n.val).settable = true ∧ latchOf (0x65 + n.val) = none ∧
    I2C_STAT n.val ∉ evRegs (i2cPage n.val) ∧ I2C_CMD n.val ≠ I2C_STAT n.val ∧ CTRL (i2cPage n.val) ≠ I2C_CMD n.val ∧
    (fltBit (i2cPage n.val) fltState).settable = true ∧
    ∀ k < 8, maskOf (I2C_BUF n.val k) = 0xFFFFFFFF ∧ I2C_BUF n.val k ≠ I2C_STAT n.val ∧ I2C_BUF n.val k ∉ evRegs (i2cPage n.val) := by revert n; decide

/-- The word a start leaves in I2Cn_CMD: START reads as 0. -/
def i2cWord (n : Nat) (v : Word) : Word := bitsPut v 31 31 0 &&& BitVec.ofNat 32 (maskOf (I2C_CMD n))

theorem i2cStart_run (n : Fin 2) (v : Word) : (openGate (i2cPage n.val) >>= fun _ => i2cWrite n.val (bitsPut v 31 31 1)).run s =
    if s.bit (I2C_STAT_BUSY n.val) then (setFlt (i2cPage n.val) fltState).run (s.ungated (i2cPage n.val))
    else if s.en (i2cPage n.val) then ((s.ungated (i2cPage n.val)).putReg (I2C_CMD n.val) (bitsPut v 31 31 0)).put (I2C_STAT_BUSY n.val) 1
    else (s.ungated (i2cPage n.val)).putReg (I2C_CMD n.val) (bitsPut v 31 31 0) := by
  rw [run_openGate_bind, i2cWrite, run_getS, start_bit, ungated_bit, ungated_en, bitsPut_over _ (Nat.le_refl 31), Bool.true_and, Bool.true_and, run_ite]
  rw [run_wr_bind, run_ite, run_setFld, run_pure]

theorem i2cStart_busy (h : s.Inv) (n : Fin 2) (v : Word) (hb : s.bit (I2C_STAT_BUSY n.val) = true) :
    Completes (.i2cStart n v) s fun t => s.Reports t (i2cPage n.val) fltState := by
  obtain ⟨-, -, -, -, -, -, hflt, -⟩ := i2c_facts n
  refine completes_run rfl ?_
  rw [i2cStart_run, if_pos hb]
  exact ((did_ungated h _).setFlt hflt (by exact fun _ => .inr)).latched s

theorem i2cStart_starts (h : s.Inv) (n : Fin 2) (v : Word) (hb : ¬ s.bit (I2C_STAT_BUSY n.val) = true) :
    Completes (.i2cStart n v) s fun t => t.reg (I2C_CMD n.val) = i2cWord n.val v ∧
      s.Sets t (if s.en (i2cPage n.val) then [(I2C_STAT_BUSY n.val, 1)] else []) [I2C_CMD n.val] := by
  obtain ⟨hbusy, -, -, -, hcmd, -, -, -⟩ := i2c_facts n
  have hw : s.Did ((s.ungated (i2cPage n.val)).putReg (I2C_CMD n.val) (bitsPut v 31 31 0)) [] [I2C_CMD n.val] :=
    (did_ungated h _).wr_noted (.inr (List.mem_singleton.mpr rfl))
  refine completes_run rfl ?_
  rw [i2cStart_run, if_neg hb]
  split
  · exact ⟨by rw [latchEdges_reg, State.reg_put_other _ hcmd, State.reg_putReg_same, i2cWord], (hw.puts hbusy).latched s⟩
  · exact ⟨by rw [latchEdges_reg, State.reg_putReg_same, i2cWord], hw.latched s⟩

theorem i2cDone_idle (n : Fin 2) (e : I2cEnd) (hb : ¬ s.bit (I2C_STAT_BUSY n.val) = true) : Completes (.i2cDone n e) s fun t => s.Within {} t :=
  completes_nothing (m := pure ()) (by exact congrArg (cmd s) (if_neg hb)) rfl (by rw [State.within_latch_iff]; exact s.within_refl _)

/-- An octet of the controller's buffer. -/
def State.i2cOctet (s : State) (n i : Nat) : Nat := bitsGet (s.reg (I2C_BUF n (i / 4))) (8 * (i % 4) + 7) (8 * (i % 4))

/-- An octet stored in the buffer. -/
def State.i2cPut (s : State) (n i : Nat) (b : Byte) : State :=
  s.putReg (I2C_BUF n (i / 4)) (bitsPut (s.reg (I2C_BUF n (i / 4))) (8 * (i % 4) + 7) (8 * (i % 4)) b.toNat)

theorem i2cPut_octet (n : Fin 2) {i j : Nat} (hi : i < 32) (b : Byte) :
    (s.i2cPut n.val i b).i2cOctet n.val j = if j = i then b.toNat else s.i2cOctet n.val j := by
  obtain ⟨-, -, -, -, -, -, -, hbuf⟩ := i2c_facts n
  obtain ⟨hmask, -, -⟩ := hbuf (i / 4) (by omega)
  rw [State.i2cPut, State.i2cOctet, State.i2cOctet]
  by_cases hw : j / 4 = i / 4
  · rw [hw, State.reg_putReg_whole (by rw [hmask]; rfl)]
    by_cases hj : j = i
    · rw [hj, if_pos rfl, bitsGet_bitsPut_same _ _ _ _ (by omega) (by omega), Nat.mod_eq_of_lt]
      have := b.isLt
      rw [show 8 * (i % 4) + 7 - 8 * (i % 4) + 1 = 8 by omega]
      omega
    · rw [if_neg hj, bitsGet_bitsPut_other _ _ _ _ _ _ (by omega) (by omega) (by omega) (by omega)]
  · rw [State.reg_putReg_other _ (by simp only [I2C_BUF]; omega), if_neg (by rintro rfl; exact hw rfl)]

/-- Octets stored one after the other, those beyond the buffer dropped. -/
def State.i2cStored (s : State) (n : Nat) : Nat → List Byte → State
  | _, [] => s
  | i, b :: l => State.i2cStored (if i < 32 then s.i2cPut n i b else s) n (i + 1) l

theorem i2cStore_run (n : Nat) : ∀ (l : List Byte) (i : Nat) (s : State), (i2cStore n i l).run s = s.i2cStored n i l := by
  intro l
  induction l with
  | nil => exact fun _ _ => rfl
  | cons b l ih =>
    intro i s
    rw [i2cStore, State.i2cStored]
    split
    · rw [run_rd, run_wr_bind, ih]; rfl
    · exact ih _ _

theorem total_i2cStore (n : Nat) : ∀ (l : List Byte) (i : Nat), (i2cStore n i l).Total
  | [], _ => total_pure ()
  | _ :: l, _ => total_ite (total_bind (total_bind total_getS fun _ => total_pure _) fun _ => total_bind (total_wr _ _) fun _ => total_i2cStore n l _)
      (total_i2cStore n l _)

theorem i2cStored_octet (n : Fin 2) {j : Nat} : ∀ (l : List Byte) (i : Nat) (s : State), i + l.length ≤ 32 →
    (s.i2cStored n.val i l).i2cOctet n.val j = if i ≤ j ∧ j < i + l.length then (octet l (j - i)).toNat else s.i2cOctet n.val j := by
  intro l
  induction l with
  | nil => exact fun i s _ => (if_neg (by simp only [List.length_nil]; omega)).symm
  | cons b l ih =>
    intro i s hl
    rw [List.length_cons] at hl
    rw [State.i2cStored, if_pos (by omega), ih (i + 1) _ (by omega), i2cPut_octet n (by omega), List.length_cons]
    by_cases hj : j = i
    · rw [if_neg (by omega), if_pos hj, if_pos (by omega), hj, Nat.sub_self]; rfl
    · rw [if_neg hj]
      by_cases hlt : i < j ∧ j < i + 1 + l.length
      · rw [if_pos (by omega), if_pos (by omega), show j - i = j - (i + 1) + 1 by omega]
        rfl
      · rw [if_neg (by omega), if_neg (by omega)]

theorem i2cPut_within (n : Fin 2) {i : Nat} (hi : i < 32) (b : Byte) :
    s.Within (onlyRegs ((List.range 8).map (I2C_BUF n.val))) (s.i2cPut n.val i b) :=
  State.within_putReg (decide_eq_true (List.mem_map.mpr ⟨i / 4, List.mem_range.mpr (by omega), rfl⟩))

theorem i2cStored_within (n : Fin 2) : ∀ (l : List Byte) (i : Nat) (s : State),
    s.Within (onlyRegs ((List.range 8).map (I2C_BUF n.val))) (s.i2cStored n.val i l) ∧ (s.i2cStored n.val i l).events = s.events
  | [], _, s => ⟨s.within_refl _, rfl⟩
  | b :: l, i, s => by
    rw [State.i2cStored]
    obtain ⟨hw, he⟩ := i2cStored_within n l (i + 1) (if i < 32 then s.i2cPut n.val i b else s)
    split at hw
    next hi => rw [if_pos hi] at he ⊢; exact ⟨(i2cPut_within n hi b).trans hw, he.trans (State.events_putReg ..)⟩
    next hi => rw [if_neg hi] at he ⊢; exact ⟨hw, he⟩

theorem octet_sliceOf (l : List Byte) {k n : Nat} (h : k < n) : octet (sliceOf l 0 n) k = octet l k := by
  simp [octet, sliceOf, List.getD_eq_getElem?_getD, List.getElem?_map, List.getElem?_range h]

theorem i2cStatus_lt : ∀ e : I2cEnd, i2cStatus e < 256
  | .done _ => (by decide : stOk < 256)
  | .noAck => by decide
  | .lost => by decide
  | .stretched => by decide

/-- A transfer's end: its status and its event. -/
def State.i2cEnded (s : State) (n st : Nat) : State := (emit (i2cPage n) (0x65 + n)).run (s.put (I2C_STAT_STATUS n) st)

/-- What an ended transfer shows. -/
def State.i2cEnds (s t : State) (n st : Nat) : Prop :=
  t.bit (I2C_STAT_BUSY n) = false ∧ t.fld (I2C_STAT_STATUS n) = st ∧ t.events = s.events ++ [0x65 + n]

section
variable (n : Fin 2) {st : Nat} (hst : st < 256)
include hst

/-- The end of a transfer, its buffer written in between. -/
theorem i2cEnded_ends (hs : t.reg (I2C_STAT n.val) = (s.put (I2C_STAT_BUSY n.val) 0).reg (I2C_STAT n.val)) (he : t.events = s.events) :
    s.i2cEnds (latchEdges s (t.i2cEnded n.val st)) n.val st := by
  obtain ⟨hbusy, hstat, hlatch, hev, -⟩ := i2c_facts n
  have hb := Fld.full_of_settable hbusy
  have hf := Fld.full_of_settable hstat
  have hbit : t.bit (I2C_STAT_BUSY n.val) = (s.put (I2C_STAT_BUSY n.val) 0).bit (I2C_STAT_BUSY n.val) := by simp only [State.bit, State.fld, hs]
  refine ⟨?_, ?_, ?_⟩
  · rw [latchEdges_bit, State.i2cEnded, emit_bit hev, State.bit_put_apart hf hb _ (fun _ => .inr (show 7 < 31 by decide)), hbit, State.bit_put_same hb]
    rw [Nat.zero_mod]
    rfl
  · rw [latchEdges_fld, State.i2cEnded, emit_fld hev, State.fld_put_same hf]
    exact Nat.mod_eq_of_lt hst
  · rw [latchEdges_events, State.i2cEnded, emit_events hlatch, State.events_put, he]

omit hst in
theorem i2cEnded_within {l : List Nat} (h : s.Within (onlyRegs (I2C_STAT n.val :: perfOf (i2cPage n.val) ++ l)) t) :
    s.Within (onlyRegs (I2C_STAT n.val :: perfOf (i2cPage n.val) ++ l)) (latchEdges s (t.i2cEnded n.val st)) := by
  obtain ⟨-, -, hlatch, -⟩ := i2c_facts n
  rw [State.within_latch_iff, State.i2cEnded]
  refine (h.trans (State.within_put _ (decide_eq_true (by simp)))).trans ((emit_unlatched _ _ hlatch).1.within.of_onlyRegs fun a ha => decide_eq_true ?_)
  exact List.mem_append_left _ (List.mem_cons_of_mem _ ha)

end

section
variable (h : s.Inv) (n : Fin 2) (hb : s.bit (I2C_STAT_BUSY n.val) = true)
include hb

theorem i2cDone_run (e : I2cEnd) : exec (.i2cDone n e) s = cmd s (do
    setFld (I2C_STAT_BUSY n.val) 0
    if 32 < s.fld (I2C_CMD_WLEN n.val) + s.fld (I2C_CMD_RLEN n.val) then
      setFld (I2C_STAT_STATUS n.val) stLength
      emit (i2cPage n.val) (0x65 + n.val)
    else
      match e with
      | .done rx => i2cStore n.val (s.fld (I2C_CMD_WLEN n.val)) (sliceOf rx 0 (s.fld (I2C_CMD_RLEN n.val)))
      | _ => nop
      setFld (I2C_STAT_STATUS n.val) (i2cStatus e)
      emit (i2cPage n.val) (0x65 + n.val)) := by
  refine congrArg (cmd s) ((if_pos hb).trans ?_)
  cases e <;> rfl

theorem i2cDone_short {st : Nat} {e : I2cEnd} (hst : st < 256) (hrun : ∀ t : State,
      M.run (if 32 < s.fld (I2C_CMD_WLEN n.val) + s.fld (I2C_CMD_RLEN n.val) then do
        setFld (I2C_STAT_STATUS n.val) stLength
        emit (i2cPage n.val) (0x65 + n.val)
      else do
        match e with
        | .done rx => i2cStore n.val (s.fld (I2C_CMD_WLEN n.val)) (sliceOf rx 0 (s.fld (I2C_CMD_RLEN n.val)))
        | _ => nop
        setFld (I2C_STAT_STATUS n.val) (i2cStatus e)
        emit (i2cPage n.val) (0x65 + n.val)) t = t.i2cEnded n.val st) :
    Completes (.i2cDone n e) s fun t => s.i2cEnds t n.val st ∧ s.Within (onlyRegs (I2C_STAT n.val :: perfOf (i2cPage n.val))) t := by
  refine completes_run (i2cDone_run n hb e) ?_
  rw [run_setFld_bind, hrun]
  refine ⟨i2cEnded_ends n hst rfl (State.events_put ..), ?_⟩
  have hw := i2cEnded_within (st := st) (l := []) n (State.within_put (s := s) (f := I2C_STAT_BUSY n.val) 0 (decide_eq_true (by simp)))
  rwa [List.append_nil] at hw

theorem i2cDone_long (e : I2cEnd) (hl : 32 < s.fld (I2C_CMD_WLEN n.val) + s.fld (I2C_CMD_RLEN n.val)) :
    Completes (.i2cDone n e) s fun t => s.i2cEnds t n.val 4 ∧ s.Within (onlyRegs (I2C_STAT n.val :: perfOf (i2cPage n.val))) t :=
  i2cDone_short n hb (by decide) fun t => by rw [if_pos hl, run_setFld_bind]; rfl

variable (hl : s.fld (I2C_CMD_WLEN n.val) + s.fld (I2C_CMD_RLEN n.val) ≤ 32)
include hl

theorem i2cDone_stopped {e : I2cEnd} (he : ∀ rx, e ≠ .done rx) :
    Completes (.i2cDone n e) s fun t => s.i2cEnds t n.val (i2cStatus e) ∧ s.Within (onlyRegs (I2C_STAT n.val :: perfOf (i2cPage n.val))) t := by
  refine i2cDone_short n hb (i2cStatus_lt e) fun t => ?_
  rw [if_neg (by omega)]
  cases e with
  | done rx => exact absurd rfl (he rx)
  | noAck | lost | stretched => rw [run_nop_bind, run_setFld_bind]; rfl

theorem i2cDone_reads (rx : List Byte) : Completes (.i2cDone n (.done rx)) s fun t =>
    s.i2cEnds t n.val 0 ∧
    (∀ i < 32, t.i2cOctet n.val i =
      if s.fld (I2C_CMD_WLEN n.val) ≤ i ∧ i < s.fld (I2C_CMD_WLEN n.val) + s.fld (I2C_CMD_RLEN n.val) then (octet rx (i - s.fld (I2C_CMD_WLEN n.val))).toNat
      else s.i2cOctet n.val i) ∧
    s.Within (onlyRegs (I2C_STAT n.val :: perfOf (i2cPage n.val) ++ (List.range 8).map (I2C_BUF n.val))) t := by
  obtain ⟨-, -, hlatch, -, -, -, -, hbuf⟩ := i2c_facts n
  generalize hwl : s.fld (I2C_CMD_WLEN n.val) = wl at hl ⊢
  generalize hrl : s.fld (I2C_CMD_RLEN n.val) = rl at hl ⊢
  refine completes_run (i2cDone_run n hb (.done rx)) ?_
  rw [run_setFld_bind, hwl, hrl, if_neg (by omega)]
  dsimp only
  rw [(total_i2cStore _ _ _).run_bind, i2cStore_run, run_setFld_bind]
  change _ ∧ (∀ i < 32, (latchEdges s (((s.put (I2C_STAT_BUSY n.val) 0).i2cStored n.val wl (sliceOf rx 0 rl)).i2cEnded n.val 0)).i2cOctet n.val i = _) ∧ _
  obtain ⟨hw, he⟩ := i2cStored_within n (sliceOf rx 0 rl) wl (s.put (I2C_STAT_BUSY n.val) 0)
  have hoctet := fun j => i2cStored_octet n (j := j) (sliceOf rx 0 rl) wl (s.put (I2C_STAT_BUSY n.val) 0) (by rw [sliceOf_length]; exact hl)
  refine ⟨i2cEnded_ends (st := 0) n (by decide) (hw.reg ?_) (he.trans (State.events_put ..)), fun i hi => ?_, i2cEnded_within n (State.Within.trans ?_ (hw.of_onlyRegs ?_))⟩
  · rintro hmem
    obtain ⟨k, hk, hkeq⟩ := List.mem_map.mp hmem
    exact (hbuf k (List.mem_range.mp hk)).2.1 hkeq
  · obtain ⟨-, hne, hnev⟩ := hbuf (i / 4) (by omega)
    have hsame (u : State) : (latchEdges s (u.i2cEnded n.val 0)).i2cOctet n.val i = u.i2cOctet n.val i := by
      rw [State.i2cOctet, latchEdges_reg, State.i2cEnded, emit_reg hnev, State.reg_put_other _ hne, State.i2cOctet]
    rw [hsame, hoctet, sliceOf_length]
    by_cases hin : wl ≤ i ∧ i < wl + rl
    · rw [if_pos hin, if_pos hin, octet_sliceOf rx (by omega)]
    · rw [if_neg hin, if_neg hin, State.i2cOctet, State.reg_put_other _ hne, State.i2cOctet]
  · exact State.within_put _ (decide_eq_true (by simp))
  · exact fun a ha => decide_eq_true (List.mem_append_right _ ha)

end

/-! ### GP balls (R497–R499) -/

/-- A ball's level taken in. -/
def State.levelled (s : State) (n : Nat) (rising : Bool) : State :=
  s.live fun d => { d with gpIn := if rising then bitSet d.gpIn n else bitClr d.gpIn n }

theorem levelled_reg (n : Nat) (rising : Bool) (a : Nat) : (s.levelled n rising).reg a = s.reg a := by rw [State.levelled, State.live_reg]

/-- A wake edge of a ball. -/
def State.wakeEdge (s : State) (n : Nat) : State :=
  ((emit pwrPage (0x10 + n)).run s).live fun d => { d with pwr := { d.pwr with wake := bitSet d.pwr.wake (2 + n) } }

/-- A flag of a ball, and its event. -/
def State.flagEdge (s : State) (n : Nat) : State :=
  (emit gpioPage (0x68 + n)).run (s.put ⟨GPIO_FLAG (n / 32), n % 32, n % 32⟩ 1)

theorem gpio_facts (n : Fin 36) : latchOf (0x68 + n.val) = none ∧ (n.val < 8 → latchOf (0x10 + n.val) = none) ∧
    (⟨GPIO_FLAG (n.val / 32), n.val % 32, n.val % 32⟩ : Fld).settable = true ∧ GPIO_FLAG (n.val / 32) ∉ evRegs pwrPage := by revert n; decide

/-- Which balls wake by an edge, and which have a flag for it (R384, R499). -/
def State.wakesOn (s : State) (n : Nat) (rising : Bool) : Bool :=
  decide (n < 8) && bitOf (s.fld PWR_GPWAKE_EDGE / 4 ^ n % 4) (if rising then 0 else 1)
def State.flagsOn (s : State) (n : Nat) (rising : Bool) : Bool :=
  s.powered gpioPage && bitOf (s.fld (GPIO_PIN_EDGE n)) (if rising then 0 else 1)

theorem edgeTaken_eq (sel : Nat) (rising : Bool) : edgeTaken sel rising = bitOf sel (if rising then 0 else 1) := by cases rising <;> rfl

/-- A wake edge, where the ball has one. -/
def State.wakeIf (s : State) (c : Bool) (n : Nat) : State := if c then s.wakeEdge n else s
def State.flagEdgeIf (s : State) (c : Bool) (n : Nat) : State := if c then s.flagEdge n else s

theorem flag_word (n : Fin 36) : t.putReg (GPIO_FLAG (n.val / 32)) (t.reg (GPIO_FLAG (n.val / 32)) ||| BitVec.ofNat 32 (2 ^ (n.val % 32))) =
    t.put ⟨GPIO_FLAG (n.val / 32), n.val % 32, n.val % 32⟩ 1 := by
  rw [or_bit_eq_bitsPut _ (Nat.mod_lt _ (by decide))]
  rfl

theorem wakeIf_flag (n : Fin 36) (c rising : Bool) :
    ((s.levelled n.val rising).wakeIf c n.val).reg (GPIO_FLAG (n.val / 32)) = s.reg (GPIO_FLAG (n.val / 32)) := by
  cases c
  · exact levelled_reg n.val rising _
  · rw [State.wakeIf, if_pos rfl, State.wakeEdge, State.live_reg, emit_reg (gpio_facts n).2.2.2]
    exact levelled_reg n.val rising _

theorem gpioEdge_completes (n : Fin 36) (rising : Bool) {P : State → Prop}
    (h : P (latchEdges s (((s.levelled n.val rising).wakeIf (s.wakesOn n.val rising) n.val).flagEdgeIf (s.flagsOn n.val rising) n.val))) :
    Completes (.gpioEdge n rising) s P := by
  have hflag : (M.run (if s.powered gpioPage = true ∧ edgeTaken (s.fld (GPIO_PIN_EDGE n.val)) rising = true then do
        let a := GPIO_FLAG (n.val / 32)
        wr a (s.reg a ||| BitVec.ofNat 32 (2 ^ (n.val % 32)))
        emit gpioPage (0x68 + n.val)
      else pure ()) ((s.levelled n.val rising).wakeIf (s.wakesOn n.val rising) n.val)) =
      ((s.levelled n.val rising).wakeIf (s.wakesOn n.val rising) n.val).flagEdgeIf (s.flagsOn n.val rising) n.val := by
    rw [run_ite, run_wr_bind, run_pure, State.flagEdgeIf, State.flagsOn, ← edgeTaken_eq, State.flagEdge, ← wakeIf_flag n (s.wakesOn n.val rising) rising, flag_word]
    exact if_congr (by rw [Bool.and_eq_true]) rfl rfl
  refine completes_run rfl ?_
  rw [run_modDev_bind]
  change P (latchEdges s (M.run _ (s.levelled n.val rising)))
  have hwake : s.wakesOn n.val rising = true ↔ n.val < 8 ∧ edgeTaken (s.fld PWR_GPWAKE_EDGE / 4 ^ n.val % 4) rising = true := by
    rw [State.wakesOn, ← edgeTaken_eq, Bool.and_eq_true, decide_eq_true_iff]
  by_cases hw : n.val < 8 ∧ edgeTaken (s.fld PWR_GPWAKE_EDGE / 4 ^ n.val % 4) rising = true
  · rw [hwake.mpr hw] at hflag h
    rw [if_pos hw, run_emit_bind, wakeSource, run_modPwr_bind]
    exact Eq.mpr (congrArg (fun t => P (latchEdges s t)) hflag) h
  · have hn : s.wakesOn n.val rising = false := Bool.eq_false_iff.mpr fun h => hw (hwake.mp h)
    rw [hn] at hflag h
    rw [if_neg hw]
    exact Eq.mpr (congrArg (fun t => P (latchEdges s t)) hflag) h

theorem levelled_testBit (n : Nat) (rising : Bool) (i : Nat) :
    (s.levelled n rising).dev.gpIn.testBit i = if i = n then rising else s.dev.gpIn.testBit i := by
  rw [State.levelled, State.live_dev]
  cases rising
  · simp only [Bool.false_eq_true, if_false, bitClr_testBit]
    by_cases h : i = n <;> simp [h]
  · simp only [if_true, bitSet_testBit]
    by_cases h : i = n <;> simp [h]

theorem wakeIf_dev (c : Bool) (n : Nat) (hn : c = true → latchOf (0x10 + n) = none) :
    (t.wakeIf c n).dev.gpIn = t.dev.gpIn ∧ (c = true → (t.wakeIf c n).dev.pwr.wake.testBit (2 + n) = true) ∧ (c = false → (t.wakeIf c n).dev.pwr = t.dev.pwr) ∧
    (t.wakeIf c n).events = t.events ++ if c = true then [0x10 + n] else [] := by
  cases c
  · exact ⟨rfl, nofun, fun _ => rfl, (List.append_nil _).symm⟩
  · rw [State.wakeIf, if_pos rfl, State.wakeEdge, State.live_dev, State.live_events, emit_events (hn rfl), emit_dev]
    exact ⟨rfl, fun _ => bitSet_testBit_self _ _, nofun, rfl⟩

theorem flagEdgeIf_dev (c : Bool) (n : Nat) (hn : latchOf (0x68 + n) = none) : (t.flagEdgeIf c n).dev.gpIn = t.dev.gpIn ∧ (t.flagEdgeIf c n).dev.pwr = t.dev.pwr ∧
    (t.flagEdgeIf c n).events = t.events ++ if c = true then [0x68 + n] else [] := by
  cases c
  · exact ⟨rfl, rfl, (List.append_nil _).symm⟩
  · rw [State.flagEdgeIf, if_pos rfl, State.flagEdge, emit_dev, State.dev_put, emit_events hn, State.events_put]
    exact ⟨rfl, rfl, rfl⟩

theorem gpioEdge_taken (h : s.Inv) (n : Fin 36) (rising : Bool) : Completes (.gpioEdge n rising) s fun t =>
    (∀ i < 36, t.dev.gpIn.testBit i = if i = n.val then rising else s.dev.gpIn.testBit i) ∧
    (s.wakesOn n.val rising = true → t.dev.pwr.wake.testBit (2 + n.val) = true) ∧ (s.wakesOn n.val rising = false → t.dev.pwr = s.dev.pwr) ∧
    t.events = s.events ++ (if s.wakesOn n.val rising = true then [0x10 + n.val] else []) ++ (if s.flagsOn n.val rising = true then [0x68 + n.val] else []) ∧
    s.Sets t (if s.flagsOn n.val rising = true then [(⟨GPIO_FLAG (n.val / 32), n.val % 32, n.val % 32⟩, 1)] else []) (perfOf gpioPage ++ perfOf pwrPage) := by
  obtain ⟨hgp, hpw, hset, -⟩ := gpio_facts n
  have hn : s.wakesOn n.val rising = true → latchOf (0x10 + n.val) = none := fun hw => by
    rw [State.wakesOn, Bool.and_eq_true, decide_eq_true_iff] at hw
    exact hpw hw.1
  refine gpioEdge_completes n rising ?_
  obtain ⟨hin, hwake, hsame, hev⟩ := wakeIf_dev (t := s.levelled n.val rising) (s.wakesOn n.val rising) n.val hn
  obtain ⟨hin', hpwr', hev'⟩ := flagEdgeIf_dev (t := (s.levelled n.val rising).wakeIf (s.wakesOn n.val rising) n.val) (s.flagsOn n.val rising) n.val hgp
  refine ⟨fun i _ => ?_, fun hw => ?_, fun hw => ?_, ?_, ?_⟩
  · rw [latchEdges_gpIn, hin', hin, levelled_testBit]
  · rw [latchEdges_pwr, hpwr', hwake hw]
  · rw [latchEdges_pwr, hpwr', hsame hw]; rfl
  · rw [latchEdges_events, hev', hev]; rfl
  · have hd : s.Did ((s.levelled n.val rising).wakeIf (s.wakesOn n.val rising) n.val) [] (perfOf gpioPage ++ perfOf pwrPage) := by
      rw [State.wakeIf]
      split
      next hw => exact (((did_refl h).lived (by rfl)).emits (hn hw) (by exact fun a ha => .inr (List.mem_append_right _ ha))).lived (by rfl)
      next => exact (did_refl h).lived (by rfl)
    rw [State.flagEdgeIf]
    split
    · exact ((hd.puts hset).emits hgp (by exact fun a ha => .inr (List.mem_append_left _ ha))).latched s
    · exact hd.latched s

theorem gpioOut_writes (a : Nat) (v : Word) {c : Instr} {m : M Unit} (hx : exec c s = cmd s m) (hm : m.run s = s.putReg a v) :
    Completes c s fun t => t.reg a = v &&& BitVec.ofNat 32 (maskOf a) ∧ s.Within (onlyRegs [a]) t :=
  completes_run hx (by
    rw [hm, latchEdges_reg, State.reg_putReg_same, State.within_latch_iff]
    exact ⟨rfl, State.within_putReg (decide_eq_true (List.mem_singleton.mpr rfl))⟩)

/-- Settles O59: the ADC, the UARTs and the port's octets on UART1, the I²C controllers and the GP balls. -/
theorem serialAndPins : Obligations.SerialAndPins := by
  refine fun s h => ⟨adcStart_busy h, adcStart_starts h, adcSequence_idle, fun ch code hb hm => adcSequence_ends h ch code hb hm, fun n b ferr perr v => ?_,
    fun n v => ?_, fun n rising => ?_, fun k v => ⟨gpioOut_writes _ _ rfl rfl, gpioOut_writes _ _ rfl rfl⟩⟩
  · exact ⟨fun hp ha => uartPort_asleep hp ha, fun hp ha => ⟨uartPort_flag hp ha, uartPort_escape hp ha, uartPort_data hp ha, uartPort_between hp ha,
      fun tag => uartPort_status hp ha⟩, uartReceive_off n b ferr perr, uartReceive_takes h n b ferr perr, uartTx_writes n v, uartRx_reads n, uartTx_sends n⟩
  · exact ⟨i2cStart_busy h n v, i2cStart_starts h n v, fun hb e => i2cDone_idle n e hb, fun hb hl e => i2cDone_long n hb e hl,
      fun hb hl => ⟨i2cDone_reads n hb hl, i2cDone_stopped n hb hl nofun, i2cDone_stopped n hb hl nofun, i2cDone_stopped n hb hl nofun⟩⟩
  · have hwake : s.wakesOn n.val rising = true ↔ n.val < 8 ∧ bitOf (s.fld PWR_GPWAKE_EDGE / 4 ^ n.val % 4) (if rising then 0 else 1) = true := by
      rw [State.wakesOn, Bool.and_eq_true, decide_eq_true_iff]
    have hflag : s.flagsOn n.val rising = true ↔ s.powered gpioPage = true ∧ bitOf (s.fld (GPIO_PIN_EDGE n.val)) (if rising then 0 else 1) = true := by
      rw [State.flagsOn, Bool.and_eq_true]
    refine (gpioEdge_taken h n rising).imp fun t ⟨h1, h2, h3, h4, h5⟩ => ?_
    simp only [hwake, hflag] at h2 h4 h5
    exact ⟨h1, h2, fun hw => h3 (Bool.eq_false_iff.mpr (hwake.not.mpr hw)), h4, h5⟩

end Sys2Proof.Machine
end

section
/-!
READ_MEM and WRITE_MEM over main SRAM (R434, R440).
-/
namespace Sys2Proof.Machine
open Sys2Proof.Reg

variable {s t u : State} {F : Foot} {tr : Tr} {tag : Byte} {p : List Byte}

/-! ### Commands that are refused once they are looked at -/

theorem Foot.sub_refl (F : Foot) : F.Sub F := ⟨fun _ => id, fun _ => id, fun _ => id, id, id, id, id⟩

/-- A refusal with STATE of a command that has been taken. -/
theorem gives_refusedAfter {code : Nat} (hh : t.dev.hostp = s.dev.hostp) (hw : s.Within (portFoot tr) t) :
    (refuseState tr code tag.toNat).Gives t fun _ u => s.Refuses (latchEdges s u) tr tag code 1 :=
  gives_refuseState ((gives_refuse tr code tag.toNat stState).mono fun _ u ⟨ha, hr⟩ =>
    ha.refuses hr (by rw [State.stateFlagged, setFlt_dev]; exact hh) (hw.trans State.stateFlagged_within))

theorem accepted_port : s.Within (portFoot tr) s.accepted := accepted_within.of_onlyRegs fun a ha => portFoot_ev tr a (perfRegs_sub ha)

/-- A command whose body comes to STATE is refused. -/
theorem completes_refused {c : Instr} {code : Nat} {body : M (Nat × List Byte)} (hx : exec c s = cmd s (hostCmd tr code tag.toNat p))
    (h : s.Accepts tr code p.length) (hr : carryOutCmd tr code tag.toNat p = answer tr code tag.toNat body)
    (hb : body.Gives s.accepted fun r t => r.1 = stState ∧ t.dev.hostp = s.dev.hostp ∧ s.Within (portFoot tr) t) :
    Completes c s fun t => s.Refuses t tr tag code 1 := by
  refine completes_gives hx (gives_hostCmd h ?_)
  rw [hr]
  refine gives_bind (hb.mono ?_)
  rintro ⟨st, l⟩ t ⟨hst, hh, hw⟩
  dsimp only at hst ⊢
  rw [if_pos hst]
  exact gives_refusedAfter hh hw

/-! ### Commands of the wires alone -/

theorem State.Carried.aside {G : Foot} (h : s.Carried t tr F) (ha : t.Aside G u) (hG : G.Sub (F.with (portFoot tr))) (hp : u.dev.hostp = t.dev.hostp) :
    s.Carried u tr F :=
  h.step (ha.ctr 0 (by decide)) ha.events hp (ha.within.widen hG)

/-- A command that no lifecycle allows over the mesh comes by a wire. -/
theorem State.Takes.wire {code : Nat} (h : s.Takes tr code) (hm : ∀ lc, lcOk code lc true = false) : trNum tr < 2 := by
  cases tr with
  | spi | uart => decide
  | mesh hdr lane => exact absurd ((hm s.lc).symm.trans h.lc) Bool.false_ne_true

theorem replyFoot_wire : ∀ {tr : Tr}, trNum tr < 2 → replyFoot tr = onlyRegs [HOSTP_STAT]
  | .spi, _ => rfl
  | .uart, _ => rfl

/-- A reply at a wire leaves memory. -/
theorem State.Aside.wire_byte (h : t.Aside (replyFoot tr) u) (hw : trNum tr < 2) (a : Nat) : u.byte a = t.byte a := by
  have hm := h.within
  rw [replyFoot_wire hw] at hm
  exact hm.mem a rfl

/-! ### Octets over the bus -/

theorem leBytes_take (m n v : Nat) : (leBytes (m + n) v).take m = leBytes m v := by rw [leBytes_add, List.take_left' (leBytes_length m v)]

/-- A word read whole or in part: its octets. -/
theorem read_octets {z : Size} {l : List Byte} (h : l.length = accLen z) : (leBytes 4 (wordOf l).toNat).take (accLen z) = l := by
  have hz : accLen z ≤ 4 := by cases z <;> decide
  have h4 : leBytes 4 (wordOf l).toNat = leBytes (accLen z + (4 - accLen z)) (wordOf l).toNat := by rw [Nat.add_sub_cancel' hz]
  rw [h4, leBytes_take, leBytes_wordOf h hz]

section
variable {a : Nat} (h1 : s.dev.eccOne = []) (h2 : s.dev.eccBad = []) (hlo : 0x20000000 ≤ a)
include h1 h2 hlo

theorem gives_readAll {m : Master} {k n : Nat} (hk : n ≤ k) (hhi : a + n ≤ 0x20080000) :
    (readAll m (accesses k a n)).Gives s fun r t => r = some (s.bytes a n) ∧ t = s := by
  induction k generalizing a n with
  | zero =>
    obtain rfl : n = 0 := by omega
    exact gives_pure ⟨rfl, rfl⟩
  | succ k ih =>
    have hstep (z : Size) (hz : accLen z ≤ n) (hz0 : 0 < accLen z) :
        (readAll m ((a, z) :: accesses k (a + accLen z) (n - accLen z))).Gives s fun r t => r = some (s.bytes a n) ∧ t = s := by
      refine gives_bind ((gives_busRead_clean h1 h2 hlo (by omega) m z).mono ?_)
      rintro _ t ⟨rfl, rfl⟩
      refine gives_bind ((ih (by omega) (by omega) (by omega)).mono ?_)
      rintro _ t ⟨rfl, rfl⟩
      refine gives_pure ⟨congrArg some ?_, rfl⟩
      dsimp only
      rw [read_octets (State.bytes_length ..), ← State.bytes_add, Nat.add_sub_cancel' hz]
    rw [accesses]
    split
    next hn => subst hn; exact gives_pure ⟨rfl, rfl⟩
    next hn =>
      split
      next hw => exact hstep .word hw.2 (by decide)
      next => exact hstep .byte (by change 1 ≤ n; omega) (by decide)

theorem gives_writeAll {m : Master} {k : Nat} {l : List Byte} (hk : l.length ≤ k) (hhi : a + l.length ≤ 0x20080000) :
    (writeAll m (accesses k a l.length) l).Gives s fun _ t => t = s.putMem a l := by
  induction k generalizing s a l with
  | zero =>
    obtain rfl : l = [] := List.eq_nil_of_length_eq_zero (by omega)
    exact gives_pure rfl
  | succ k ih =>
    have hstep (z : Size) (hz : accLen z ≤ l.length) (hz0 : 0 < accLen z) :
        (writeAll m ((a, z) :: accesses k (a + accLen z) (l.length - accLen z)) l).Gives s fun _ t => t = s.putMem a l := by
      have hz4 : accLen z ≤ 4 := by cases z <;> decide
      have hlen : (l.take (accLen z)).length = accLen z := by rw [List.length_take, Nat.min_eq_left hz]
      refine gives_bind ((gives_busWrite_clean h1 h2 hlo (by omega) m z _).mono ?_)
      rintro _ t ⟨-, rfl⟩
      rw [leBytes_wordOf hlen hz4]
      have hd : (l.drop (accLen z)).length = l.length - accLen z := List.length_drop
      have h := ih (s := s.putMem a (l.take (accLen z))) (a := a + accLen z) (l := l.drop (accLen z)) (by rw [State.putMem_dev]; exact h1)
        (by rw [State.putMem_dev]; exact h2) (by omega) (by omega) (by omega)
      rw [hd] at h
      refine h.mono fun _ t ht => ht.trans ?_
      have happ := State.putMem_append s a (l.take (accLen z)) (l.drop (accLen z))
      rw [List.take_append_drop, hlen] at happ
      exact happ.symm
    rw [accesses]
    split
    next hn => obtain rfl := List.eq_nil_of_length_eq_zero hn; exact gives_pure rfl
    next hn =>
      split
      next hw => exact hstep .word hw.2 (by decide)
      next => exact hstep .byte (by change 1 ≤ l.length; omega) (by decide)

omit h1 h2 in
/-- Main SRAM is open to the host, whole and in part. -/
theorem sram_readable {n : Nat} (hn : 0 < n) (hhi : a + n ≤ 0x20080000) (m : Master) : s.readable m a n = true := by
  simp [State.readable, s.rangeOf_sram hlo (show a < 0x20080000 by omega), hhi]

omit h1 in
theorem sram_writable {n : Nat} (hn : 0 < n) (hhi : a + n ≤ 0x20080000) (m : Master) : s.writable m a n = true := by
  rw [State.writable, sram_readable hlo hn hhi, s.rangeOf_sram hlo (show a < 0x20080000 by omega)]
  simp [h2]

end

theorem accepted_rangeOf (a : Nat) : s.accepted.rangeOf a = s.rangeOf a := by
  have h0 : s.accepted.fitted 0 = s.fitted 0 := by rw [State.fitted, accepted_fld (by decide), State.fitted]
  have h1 : s.accepted.fitted 1 = s.fitted 1 := by rw [State.fitted, accepted_fld (by decide), State.fitted]
  rw [State.rangeOf, State.ranges, h0, h1, State.rangeOf, State.ranges]

theorem accepted_core : s.accepted.core = s.core := accepted_within.core rfl

theorem accepted_readable (a n : Nat) : s.accepted.readable .host a n = s.readable .host a n := by
  simp only [State.readable, accepted_rangeOf]
  rfl

theorem accepted_writable (a n : Nat) : s.accepted.writable .host a n = s.writable .host a n := by
  simp only [State.writable, accepted_readable, accepted_rangeOf, State.cellWritable, State.cell, accepted_dev]

/-! ### READ_MEM and WRITE_MEM -/

section
variable (h : s.Takes tr 0x10) (hp : p.length = 6)
include h hp

theorem readMem_refused (hl : s.lc = 2) (ha : numAt p 0 4 < 0x40000000 ∨ 0x43005000 < numAt p 0 4 + numAt p 4 2) :
    Completes (.readMem tr tag p) s fun t => s.Refuses t tr tag 0x10 1 := by
  refine completes_refused rfl (h.accepts (by rw [hp]; rfl) (by decide)) rfl (gives_bind (gives_getS ?_))
  rw [accepted_lc, if_pos ⟨hl, by omega⟩]
  exact gives_pure ⟨rfl, by rw [accepted_dev], accepted_port⟩

theorem readMem_param (hl : s.lc ≠ 2) (hn : numAt p 4 2 = 0 ∨ 4092 < numAt p 4 2 ∨ s.readable .host (numAt p 0 4) (numAt p 4 2) = false) :
    Completes (.readMem tr tag p) s fun t => s.Answers t tr tag 0x10 3 [] := by
  refine completes_read rfl (h.accepts (by rw [hp]; rfl) (by decide)) (by decide) rfl (by decide) (gives_bind (gives_getS ?_))
  rw [accepted_lc, if_neg (fun hc => hl hc.1), accepted_readable, if_pos (by simpa using hn)]
  exact gives_pure ⟨rfl, rfl⟩

theorem readMem_reads (hl : s.lc ≠ 2) (hn : 1 ≤ numAt p 4 2) (hn' : numAt p 4 2 ≤ 4092) (hlo : 0x20000000 ≤ numAt p 0 4)
    (hhi : numAt p 0 4 + numAt p 4 2 ≤ 0x20080000) (h2 : s.dev.eccBad = []) (h1 : s.dev.eccOne = []) :
    Completes (.readMem tr tag p) s fun t => s.Answers t tr tag 0x10 0 (s.bytes (numAt p 0 4) (numAt p 4 2)) := by
  refine completes_read rfl (h.accepts (by rw [hp]; rfl) (by decide)) (by decide) rfl (by decide) (gives_bind (gives_getS ?_))
  rw [accepted_lc, if_neg (fun hc => hl hc.1), accepted_readable, sram_readable hlo hn hhi, if_neg (by simp; omega)]
  refine gives_bind ((gives_readAll (by rw [accepted_dev]; exact h1) (by rw [accepted_dev]; exact h2) hlo le_rfl hhi).mono ?_)
  rintro _ t ⟨rfl, rfl⟩
  exact gives_pure ⟨by rw [accepted_bytes], rfl⟩

end

section
variable (h : s.Takes tr 0x11) (hp : 5 ≤ p.length) (hp' : p.length ≤ 4094)
include h hp hp'

theorem writeMem_accepts : s.Accepts tr 0x11 p.length :=
  h.accepts (decide_eq_true ⟨hp, hp'⟩) (by decide)

theorem writeMem_param (hw : s.writable .host (numAt p 0 4) (p.length - 4) = false) :
    Completes (.writeMem tr tag p) s fun t => s.Answers t tr tag 0x11 3 [] := by
  refine completes_read rfl (writeMem_accepts h hp hp') (by decide) rfl (by decide) (gives_bind (gives_getS ?_))
  rw [accepted_writable, List.length_drop, if_neg (by rw [hw]; decide)]
  exact gives_pure ⟨rfl, rfl⟩

theorem writeMem_writes (hlo : 0x20000000 ≤ numAt p 0 4) (hhi : numAt p 0 4 + (p.length - 4) ≤ 0x20080000) (h2 : s.dev.eccBad = []) (h1 : s.dev.eccOne = []) :
    Completes (.writeMem tr tag p) s fun t =>
      (∀ i < p.length - 4, t.byte (numAt p 0 4 + i) = octet p (4 + i)) ∧
      s.Answers t tr tag 0x11 0 [] { mem := fun x => decide (numAt p 0 4 ≤ x ∧ x < numAt p 0 4 + (p.length - 4)) } := by
  have hlen : (p.drop 4).length = p.length - 4 := List.length_drop
  have hwire : trNum tr < 2 := h.wire fun _ => rfl
  refine completes_answered rfl (writeMem_accepts h hp hp') (by decide) rfl (gives_bind (gives_getS ?_))
  rw [accepted_writable, hlen, sram_writable h2 hlo (by omega) hhi, if_pos rfl, ← hlen]
  refine gives_bind ((gives_writeAll (by rw [accepted_dev]; exact h1) (by rw [accepted_dev]; exact h2) hlo le_rfl (by rw [hlen]; exact hhi)).mono ?_)
  rintro _ t rfl
  refine gives_pure ⟨rfl, by decide, ?_, fun u hu _ i hi => ?_⟩
  · refine accepted_carried.step (by rw [State.ctr, State.putMem_dev, State.ctr]) (by rw [State.putMem_events]) (by rw [State.putMem_dev]) ?_
    refine State.putMem_within fun i hi => (Foot.sub_with_left _ _).mem _ (decide_eq_true ?_)
    omega
  · have hb := State.byte_of_bytes (State.putMem_bytes s.accepted (numAt p 0 4) (p.drop 4)) (i := i) hi
    rw [latchEdges_byte, hu.wire_byte hwire, hb, octet, List.getD_eq_getElem?_getD, List.getElem?_drop, List.getD_eq_getElem?_getD]

end

end Sys2Proof.Machine
end

section
/-!
Chains of cells allocated for the host port and filled, and the frames of gateways (R125, R435).
-/
namespace Sys2Proof.Machine
open Sys2Proof.Reg

variable {s t u : State} {F : Foot} {tr : Tr} {tag : Byte} {p l : List Byte} {cells : List Nat}

/-! ### A chain filled (R125) -/

/-- The state with octets stored in a chain, 256 to a cell. -/
def State.cellsPut (s : State) : List Nat → List Byte → State
  | [], _ => s
  | c :: cs, l => State.cellsPut (s.putMem (cellAddr c) (l.take 256)) cs (l.drop 256)

theorem gives_chainWrite {Q : Unit → State → Prop} (h : Q () (s.cellsPut cells l)) : (chainWrite cells l).Gives s Q := by
  induction cells generalizing s l with
  | nil => exact gives_nop h
  | cons c cs ih => exact gives_bind (gives_putBytes (ih h))

theorem cellsPut_dev : ∀ (cells : List Nat) (l : List Byte) (s : State), (s.cellsPut cells l).dev = s.dev
  | [], _, _ => rfl
  | _ :: cs, _, s => (cellsPut_dev cs _ _).trans (s.putMem_dev _ _)

theorem cellsPut_bytes_other {c : Nat} : ∀ (cells : List Nat) (l : List Byte) (s : State), c ∉ cells →
    (s.cellsPut cells l).bytes (cellAddr c) 256 = s.bytes (cellAddr c) 256
  | [], _, _, _ => rfl
  | d :: cs, l, s, h => by
    rw [List.mem_cons, not_or] at h
    rw [State.cellsPut, cellsPut_bytes_other cs _ _ h.2]
    refine State.putMem_bytes_other ?_
    have : (l.take 256).length ≤ 256 := List.length_take_le _ _
    have := h.1
    simp only [cellAddr]
    omega

theorem take_cell (s : State) (c : Nat) (l : List Byte) : ((s.putMem (cellAddr c) (l.take 256)).bytes (cellAddr c) 256).take l.length = l.take 256 := by
  have hlen : (l.take 256).length = min 256 l.length := List.length_take
  have h := State.bytes_take (s.putMem (cellAddr c) (l.take 256)) (cellAddr c) (hlen.trans_le (Nat.min_le_left ..))
  rw [State.putMem_bytes] at h
  refine (List.take_eq_take_iff.mpr ?_).trans h
  rw [State.bytes_length, hlen]
  omega

/-- What was stored in a chain is read back. -/
theorem chainBytes_cellsPut : ∀ (cells : List Nat) (l : List Byte) (s : State), cells.Nodup → l.length ≤ 256 * cells.length →
    (s.cellsPut cells l).chainBytes cells l.length = l
  | [], l, _, _, hl => by
    obtain rfl : l = [] := List.eq_nil_of_length_eq_zero (by simpa using hl)
    rfl
  | c :: cs, l, s, hn, hl => by
    obtain ⟨hc, hn⟩ := List.nodup_cons.mp hn
    have ih := chainBytes_cellsPut cs (l.drop 256) (s.putMem (cellAddr c) (l.take 256)) hn (by rw [List.length_drop]; rw [List.length_cons] at hl; omega)
    rw [State.chainBytes, List.length_drop] at ih
    rw [State.cellsPut, State.chainBytes, List.flatMap_cons, List.take_append, State.bytes_length, ih, cellsPut_bytes_other cs _ _ hc, take_cell,
      List.take_append_drop]

/-- From `s` to `t` a chain has been allocated whole to an owner, and octets stored in it. -/
structure State.Chained (s t : State) (owner n : Nat) (l : List Byte) (cells : List Nat) : Prop where
  length : cells.length = n
  nodup : cells.Nodup
  free : ∀ x ∈ cells, x < 512 ∧ (s.cell x).owner = ownFree
  cell : ∀ x, t.cell x = (linked owner poolHost false cells x).getD (s.cell x)
  dev : t.dev = { s.dev with cells := t.dev.cells }
  bytes : t.chainBytes cells l.length = l
  aside : s.Aside { onlyRegs (perfOf fbufPage) with mem := cellMem } t

theorem gives_chained {owner n : Nat} (h : s.canAlloc poolHost n = true) (hn : n ≤ s.freeCells.length) (hl : l.length ≤ 256 * n)
    {β : Type} {f : Option (List Nat) → M β} {g : List Nat → M β} (hf : ∀ cells, f (some cells) = chainWrite cells l >>= fun _ => g cells)
    {Q : β → State → Prop} (hq : ∀ cells t, s.Chained t owner n l cells → (g cells).Gives t Q) : (allocChain poolHost owner n >>= f).Gives s Q := by
  have hcells := gives_allocChain_cells (pool := poolHost) (owner := owner) (n := n) (s := s)
    (F := { onlyRegs (perfOf fbufPage) with mem := cellMem }) fun a ha => decide_eq_true ha
  refine gives_bind (((gives_allocChain h hn).and (hcells.mono fun _ _ h => h.2)).mono ?_)
  rintro _ t ⟨⟨cells, rfl, hlen, hnd, hfree, hcell, hdev, -⟩, ha⟩
  rw [hf]
  refine gives_bind ?_
  have hput : (chainWrite cells l).Gives t fun _ u => u = t.cellsPut cells l := gives_chainWrite rfl
  refine (hput.and ((aside_chainWrite (F := { onlyRegs (perfOf fbufPage) with mem := cellMem }) (fun _ h => h) cells l fun c hc => (hfree c hc).1).all t)).mono ?_
  rintro _ u ⟨rfl, hu⟩
  refine hq cells _ ⟨hlen, hnd, hfree, fun x => ?_, ?_, chainBytes_cellsPut cells l t hnd (by rw [hlen]; exact hl), ha.trans hu⟩
  · rw [← hcell, State.cell, cellsPut_dev, State.cell]
  · rw [cellsPut_dev, hdev]

section
variable {owner n : Nat} (h : s.Chained t owner n l cells)
include h

theorem State.Chained.owned {c : Nat} (hc : c ∈ cells) : (t.cell c).owner = owner := by
  obtain ⟨x, hx, ho, -⟩ := linked_mem (owner := owner) (pool := poolHost) (hold := false) hc
  rw [h.cell, hx]
  exact ho

/-- The chain is found from its first cell. -/
theorem State.Chained.chainFrom {k : Nat} (hn : 0 < n) (hk : n ≤ k) : t.chainFrom k (cells.headD 0) = cells := by
  have hlen := h.length
  cases cells with
  | nil => simp at hlen; omega
  | cons c cs =>
    refine chainFrom_linked (owner := owner) (pool := poolHost) (hold := false) cs c k h.nodup (by rw [hlen]; exact hk) fun x hx => ?_
    obtain ⟨y, hy, -⟩ := linked_mem (owner := owner) (pool := poolHost) (hold := false) hx
    rw [h.cell, hy]
    rfl

theorem State.Chained.head_lt : cells.headD 0 < 512 := by
  cases cells with
  | nil => decide
  | cons c cs => exact (h.free c List.mem_cons_self).1

end

theorem chainFrom_congr (h : ∀ x, t.cell x = s.cell x) : ∀ k c : Nat, t.chainFrom k c = s.chainFrom k c
  | 0, _ => rfl
  | k + 1, c => by rw [State.chainFrom, State.chainFrom, h, chainFrom_congr h]

theorem chainBytes_congr (h : ∀ a, t.byte a = s.byte a) (cells : List Nat) (n : Nat) : t.chainBytes cells n = s.chainBytes cells n := by
  simp only [State.chainBytes, bytes_of_byte h]

theorem accepted_cell (x : Nat) : s.accepted.cell x = s.cell x := by rw [State.cell, accepted_dev, State.cell]

theorem accepted_canAlloc (pool n : Nat) : s.accepted.canAlloc pool n = s.canAlloc pool n := by
  simp only [State.canAlloc, State.poolUse, State.poolShare, accepted_dev]
  rw [accepted_fld (f := FBUF_SHMAX_RX) (by decide), accepted_fld (f := FBUF_SHMAX_TX) (by decide), accepted_fld (f := FBUF_SHMAX_HOST) (by decide)]
  rfl

theorem accepted_freeCells : s.accepted.freeCells = s.freeCells := by simp only [State.freeCells, accepted_cell]

theorem accepted_hostSlots : s.accepted.hostSlots = s.hostSlots := by simp only [State.hostSlots, State.jobs, accepted_dev]

theorem accepted_chainFrom (k c : Nat) : s.accepted.chainFrom k c = s.chainFrom k c := chainFrom_congr accepted_cell k c
theorem accepted_chainBytes (cells : List Nat) (n : Nat) : s.accepted.chainBytes cells n = s.chainBytes cells n := chainBytes_congr accepted_byte cells n

end Sys2Proof.Machine
end

section
/-!
The frames of gateways, APP, and the settlement of the host port's data commands (R434–R436, R444).
-/
namespace Sys2Proof.Machine
open Sys2Proof.Reg

variable {s t u : State} {F : Foot} {tr : Tr} {tag : Byte} {p : List Byte}

/-! ### SEND_FRAME (R435) -/

/-- A field within one that was put. -/
theorem bitsGet_bitsPut_sub (w : Word) {hi lo v hi' lo' : Nat} (h : lo ≤ lo') (h2 : lo' ≤ hi') (h3 : hi' ≤ hi) (hh : hi < 32) :
    bitsGet (bitsPut w hi lo v) hi' lo' = v / 2 ^ (lo' - lo) % 2 ^ (hi' - lo' + 1) := by
  refine Nat.eq_of_testBit_eq fun i => ?_
  rw [bitsGet_testBit, Nat.testBit_mod_two_pow, ← Nat.shiftRight_eq_div_pow, Nat.testBit_shiftRight]
  by_cases hi' : i < hi' - lo' + 1
  · rw [bitsPut_testBit _ _ _ _ _ (by omega) (by omega), if_pos (by omega), show lo' + i - lo = lo' - lo + i by omega]
  · simp [hi']

/-- The state in which a frame of the host's, its chain allocated and filled, waits in its ring. -/
def State.frameSent (s : State) (d : List Byte) : State :=
  s.live fun x => { x with hostp := { x.hostp with tx := x.hostp.tx ++ [d], slot := (x.hostp.slot + 1) % 16 } }

theorem cellsFor_eq (n : Nat) : cellsFor n = (n + 255) / 256 := by
  rw [cellsFor, ceilDiv, Nat.add_sub_assoc (by decide)]

theorem wordOf_append {w : Word} {l : List Byte} : wordOf (leBytes 4 w.toNat ++ l) = w := by
  have h := wordOf_leBytes w
  rw [wordOf, List.take_of_length_le (leBytes_length ..).le] at h
  rw [wordOf, List.take_left' (leBytes_length ..), h]

/-- From `s` to `t` a frame of the host's has been queued: its chain in `cells`, filled, and its descriptor at the end of the ring. -/
structure State.Queued (s t : State) (d l : List Byte) (k : Nat) (cells : List Nat) : Prop where
  length : cells.length = k
  head_lt : cells.headD 0 < 512
  owned : ∀ c ∈ cells, (s.cell c).owner = ownFree ∧ (t.cell c).owner = ownHost
  chain : t.chain (cells.headD 0) = cells
  bytes : t.chainBytes cells l.length = l
  ring : t.dev.hostp.tx = s.dev.hostp.tx ++ [leBytes 4 (bitsPut (wordOf d) 22 0 ((k - 1) * 2 ^ 20 + cells.headD 0 * 2 ^ 11 + l.length)).toNat ++ d.drop 4]

/-- The port's units beside its slots changed by a command carried out. -/
theorem State.Carried.hosted (h : s.Carried t tr F) {f : Dev → Dev} (hp : ((f t.dev).hostp.spi, (f t.dev).hostp.uart, (f t.dev).hostp.mesh) =
    (t.dev.hostp.spi, t.dev.hostp.uart, t.dev.hostp.mesh)) (hr : ((f t.dev).ctr, (f t.dev).keys) = (t.dev.ctr, t.dev.keys)) : s.Carried (t.live f) tr F where
  counted := (State.ctr_live (congrArg Prod.fst hr) ..).trans h.counted
  event := h.event
  reply := by
    refine Eq.trans ?_ h.reply
    obtain ⟨h1, h2, h3⟩ : _ ∧ _ ∧ _ := by simpa using hp
    rcases trNum tr with _ | _ | n
    exacts [congrArg Port.reply h1, congrArg Port.reply h2, congrArg Port.reply h3]
  within := h.within.trans (State.within_live t (congrArg Prod.snd hr))

section
variable (h : s.Takes tr 0x20) (hp : 17 ≤ p.length)
include h hp

theorem sendFrame_accepts : s.Accepts tr 0x20 p.length := h.accepts (decide_eq_true hp) (by decide)

theorem sendFrame_length (hl : 2047 < (p.drop 16).length) : Completes (.sendFrame tr tag p) s fun t => s.Answers t tr tag 0x20 4 [] := by
  refine completes_read rfl (sendFrame_accepts h hp) (by decide) rfl (by decide) (gives_bind (gives_getS ?_))
  rw [if_pos hl]
  exact gives_pure ⟨rfl, rfl⟩

theorem sendFrame_busy (hl : (p.drop 16).length ≤ 2047) (hs : 16 ≤ s.hostSlots) :
    Completes (.sendFrame tr tag p) s fun t => s.Answers t tr tag 0x20 2 [] := by
  refine completes_read rfl (sendFrame_accepts h hp) (by decide) rfl (by decide) (gives_bind (gives_getS ?_))
  rw [if_neg (by omega), accepted_hostSlots, if_pos hs]
  exact gives_pure ⟨rfl, rfl⟩

theorem sendFrame_nobuf (hl : (p.drop 16).length ≤ 2047) (hs : s.hostSlots < 16) (hk : s.canAlloc poolHost (((p.drop 16).length + 255) / 256) = false) :
    Completes (.sendFrame tr tag p) s fun t => s.Answers t tr tag 0x20 5 [] (onlyRegs (perfOf fbufPage)) := by
  refine (completes_answered (P := fun _ => True) rfl (sendFrame_accepts h hp) (by decide) rfl (gives_bind (gives_getS ?_))).imp fun _ ht => ht.2
  rw [if_neg (by omega), accepted_hostSlots, if_neg (by omega)]
  have ha : (allocChain poolHost ownHost (cellsFor (p.drop 16).length)).Gives s.accepted fun _ t => s.accepted.Aside (onlyRegs (perfOf fbufPage)) t :=
    (gives_allocChain_cells fun a ha => decide_eq_true ha).mono fun _ _ h => h.2
  refine gives_bind (((gives_allocChain_none (by rw [accepted_canAlloc, cellsFor_eq]; exact hk)).and ha).mono ?_)
  rintro _ t ⟨⟨rfl, hn⟩, ha⟩
  exact gives_pure ⟨rfl, by decide, accepted_carried.aside ha (Foot.sub_with_left _ _) (by rw [hn.dev]), fun _ _ _ => trivial⟩

theorem sendFrame_sends {l : List Byte} {k : Nat} (hdef : p.drop 16 = l) (hkdef : (l.length + 255) / 256 = k) (hl : l.length ≤ 2047) (hs : s.hostSlots < 16)
    (hk : s.canAlloc poolHost k = true) (hf : k ≤ s.freeCells.length) :
    Completes (.sendFrame tr tag p) s fun t =>
      (∃ cells, s.Queued t (p.take 16) l k cells) ∧
      s.Answers t tr tag 0x20 0 (leBytes 1 s.dev.hostp.slot ++ [0, 0, 0]) { onlyRegs (perfOf fbufPage) with mem := cellMem } := by
  have hwire : trNum tr < 2 := h.wire fun _ => rfl
  have hlen : l.length = p.length - 16 := by rw [← hdef, List.length_drop]
  refine completes_answered rfl (sendFrame_accepts h hp) (by decide) rfl (gives_bind (gives_getS ?_))
  rw [hdef, if_neg (by omega), accepted_hostSlots, if_neg (by omega), cellsFor_eq, hkdef]
  refine gives_chained (l := l) (by rw [accepted_canAlloc]; exact hk) (by rw [accepted_freeCells]; exact hf) (by omega) (fun _ => rfl) fun cells t ht => ?_
  refine gives_bind (gives_act (gives_pure ⟨by rw [accepted_dev], by decide, ?_, fun u hu hdev => ⟨cells, ?_⟩⟩))
  · exact (accepted_carried.aside ht.aside (Foot.sub_with_left _ _) (by rw [ht.dev])).hosted rfl rfl
  · have hc : ∀ x, (latchEdges s u).cell x = t.cell x := fun x => by rw [latchEdges_cell, State.cell, hdev hwire]; rfl
    have hb : ∀ a, (latchEdges s u).byte a = t.byte a := fun a => by rw [latchEdges_byte, hu.wire_byte hwire]; rfl
    exact {
      length := ht.length
      head_lt := ht.head_lt
      owned := fun c hx => ⟨by rw [← accepted_cell]; exact (ht.free c hx).2, by rw [hc]; exact ht.owned hx⟩
      chain := (chainFrom_congr hc _ _).trans (ht.chainFrom (by omega) (by omega))
      bytes := (chainBytes_congr hb _ _).trans ht.bytes
      ring := by
        rw [latchEdges_dev]
        have htx : t.dev.hostp.tx = s.dev.hostp.tx := by rw [ht.dev, accepted_dev]
        rw [← htx, ← ht.length]
        exact (congrArg (fun d : Dev => d.hostp.tx) hu.dev :) }

omit h hp in
/-- What the ring and the cells then show, as O50 says it. -/
theorem State.Queued.shown {d l : List Byte} {k : Nat} {cells : List Nat} (hq : s.Queued t d l k cells) (hl : l.length ≤ 2047) (hk : k ≤ 8) :
    let e := wordOf (t.dev.hostp.tx.getLastD [])
    t.dev.hostp.tx.length = s.dev.hostp.tx.length + 1 ∧ t.dev.hostp.tx.take s.dev.hostp.tx.length = s.dev.hostp.tx ∧
      (t.dev.hostp.tx.getLastD []).drop 4 = d.drop 4 ∧ bitsGet e 10 0 = l.length ∧ bitsGet e 22 20 = k - 1 ∧
      (t.chain (bitsGet e 19 11)).length = k ∧ t.chainBytes (t.chain (bitsGet e 19 11)) l.length = l ∧
      ∀ c ∈ t.chain (bitsGet e 19 11), (s.cell c).owner = ownFree ∧ (t.cell c).owner = ownHost := by
  have hlast : t.dev.hostp.tx.getLastD [] =
      leBytes 4 (bitsPut (wordOf d) 22 0 ((k - 1) * 2 ^ 20 + cells.headD 0 * 2 ^ 11 + l.length)).toNat ++ d.drop 4 := by
    rw [hq.ring, List.getLastD_concat]
  have hlt := hq.head_lt
  intro e
  have he : e = bitsPut (wordOf d) 22 0 ((k - 1) * 2 ^ 20 + cells.headD 0 * 2 ^ 11 + l.length) := by
    rw [show e = wordOf _ from rfl, hlast, wordOf_append]
  have hcell : bitsGet e 19 11 = cells.headD 0 := by
    rw [he, bitsGet_bitsPut_sub _ (by decide) (by decide) (by decide) (by decide)]
    omega
  rw [hcell, hq.chain]
  refine ⟨by rw [hq.ring]; simp, by rw [hq.ring]; simp, ?_, ?_, ?_, hq.length, hq.bytes, hq.owned⟩
  · rw [hlast, List.drop_left' (leBytes_length ..)]
  · rw [he, bitsGet_bitsPut_sub _ (by decide) (by decide) (by decide) (by decide)]
    omega
  · rw [he, bitsGet_bitsPut_sub _ (by decide) (by decide) (by decide) (by decide)]
    omega

end

/-! ### FETCH_FRAME (R435) -/

section
variable (h : s.Takes tr 0x21)
include h

theorem fetchFrame_none (hr : s.dev.hostp.rx = []) : Completes (.fetchFrame tr tag) s fun t => s.Answers t tr tag 0x21 5 [] := by
  refine completes_gives rfl (gives_hostCmd (p := []) (h.accepts rfl (by decide)) (gives_bind (gives_getS ?_)))
  have hr' : s.accepted.dev.hostp.rx = [] := by rw [accepted_dev]; exact hr
  rw [hr']
  exact (gives_queueReply tr _).mono fun _ t ⟨ha, hs⟩ => accepted_carried.answers ha hs (by decide)

theorem fetchFrame_some {d : List Byte} {rest : List (List Byte)} (hr : s.dev.hostp.rx = d :: rest) :
    let cells := s.chainFrom (bitsGet (wordOf d) 22 20 + 1) (bitsGet (wordOf d) 19 11)
    Completes (.fetchFrame tr tag) s fun t => t.dev.hostp.rx = rest ∧
      s.Answers t tr tag 0x21 0 (d ++ s.chainBytes cells (bitsGet (wordOf d) 10 0)) {} cells := by
  intro cells
  refine completes_gives rfl (gives_hostCmd (p := []) (h.accepts rfl (by decide)) (gives_bind (gives_getS ?_)))
  have hr' : s.accepted.dev.hostp.rx = d :: rest := by rw [accepted_dev]; exact hr
  rw [hr']
  dsimp only
  rw [accepted_chainFrom, accepted_chainBytes]
  refine gives_bind (gives_act ((gives_queueReply tr _).mono fun _ t ⟨ha, hs⟩ => ⟨?_, (accepted_carried.hosted rfl rfl).answers ha hs (by decide)⟩))
  rw [latchEdges_dev]
  exact (congrArg (fun d : Dev => d.hostp.rx) ha.dev :)

end

/-! ### APP and its answer (R436, R444) -/

theorem gives_passCells (s : State) (l : List Nat) (owner : Nat) :
    (passCells l owner).Gives s fun _ t => s.CellsOnly t ∧ ∀ x, t.cell x = if x ∈ l then { s.cell x with owner := owner } else s.cell x :=
  gives_forAll_cells (g := fun x => { s.cell x with owner := owner }) (p := fun c v => { v with owner := owner } = { s.cell c with owner := owner })
    (fun _ _ _ _ hc => gives_bind (gives_getS (by rw [hc]; exact gives_setCell))) (fun _ _ => rfl) (fun _ _ => rfl)

/-- A chain is followed past a change of owners. -/
theorem chainFrom_owned {cells : List Nat} {owner : Nat} (h : ∀ x, t.cell x = if x ∈ cells then { s.cell x with owner := owner } else s.cell x) :
    ∀ k c : Nat, t.chainFrom k c = s.chainFrom k c
  | 0, _ => rfl
  | k + 1, c => by
    have hc : (t.cell c).last = (s.cell c).last ∧ (t.cell c).next = (s.cell c).next := by rw [h]; split <;> exact ⟨rfl, rfl⟩
    rw [State.chainFrom, State.chainFrom, hc.1, hc.2, chainFrom_owned h]

theorem app_accepts (h : s.Takes tr 0x30) (hp : p.length ≤ 4092) : s.Accepts tr 0x30 p.length := h.accepts (decide_eq_true hp) (by decide)

theorem app_refused (h : s.Takes tr 0x30) (hp : p.length ≤ 4092) (hr : s.bit HOSTP_APPCTL_EN = false ∨ s.dev.hostp.app ≠ none) :
    Completes (.app tr tag p) s fun t => s.Refuses t tr tag 0x30 1 := by
  refine completes_gives rfl (gives_hostCmd (app_accepts h hp) (gives_bind (gives_getS ?_)))
  rw [accepted_bit (by decide), accepted_dev, if_pos (by simpa [Option.isSome_iff_ne_none] using hr)]
  exact gives_refusedAfter (by rw [accepted_dev]) accepted_port

/-- APPIN as APP fills it. -/
def State.appIn (s : State) (cells : List Nat) (n : Nat) : State :=
  (((s.put HOSTP_APPIN_NCM1 (cells.length - 1)).put HOSTP_APPIN_CELL (cells.headD 0)).put HOSTP_APPIN_LENGTH n).put HOSTP_APPIN_VALID 1

/-- The firmware is told of APP: the core's line raised. -/
def State.appTold (s : State) (tr : Tr) (tag : Nat) : State := s.live fun d => { d with hostp := { d.hostp with app := some (tr, tag), appIrq := true } }

/-- The state in which APP waits for the firmware, and is outstanding. -/
def State.appWaits (s : State) (tr : Tr) (tag : Nat) : State := (s.outSet (trNum tr) (some (0x30, tag))).appTold tr tag

theorem appTold_hostp {k : Nat} : (s.appTold tr k).dev.hostp.app = some (tr, k) ∧ (s.appTold tr k).dev.hostp.appIrq = true ∧
    ((s.appTold tr k).port (trNum tr)).out = (s.port (trNum tr)).out := by
  refine ⟨rfl, rfl, ?_⟩
  cases tr <;> rfl

theorem appTold_cells {k : Nat} : (s.appTold tr k).dev.cells = s.dev.cells := (rfl)

section
variable {cells : List Nat} {n k : Nat}

theorem appIn_within (F : Foot) (hi : F.regs HOSTP_APPIN = true) : s.Within F (s.appIn cells n) :=
  (((State.within_put (f := HOSTP_APPIN_NCM1) _ hi).trans (State.within_put (f := HOSTP_APPIN_CELL) _ hi)).trans
    (State.within_put (f := HOSTP_APPIN_LENGTH) _ hi)).trans (State.within_put (f := HOSTP_APPIN_VALID) _ hi)

theorem State.outSet_within {F : Foot} (n : Nat) (v : Option (Nat × Nat)) (h : F.regs HOSTP_STAT = true) : s.Within F (s.outSet n v) := by
  rw [State.outSet, State.within_put_iff h, State.ported, State.within_live_iff rfl]
  exact s.within_refl F

theorem State.outSet_byte (n : Nat) (v : Option (Nat × Nat)) (a : Nat) : (s.outSet n v).byte a = s.byte a := by
  rw [State.outSet, State.put_byte, State.ported, State.live_byte]

theorem State.outSet_cells (n : Nat) (v : Option (Nat × Nat)) : (s.outSet n v).dev.cells = s.dev.cells := by
  rw [State.outSet, State.put_dev, State.ported, State.live_dev]

theorem State.outSet_fld {f : Fld} (n : Nat) (v : Option (Nat × Nat)) (h : f.addr ≠ HOSTP_STAT) : (s.outSet n v).fld f = s.fld f := by
  rw [State.outSet, State.fld_put_other (f := ⟨HOSTP_STAT, 8 + n, 8 + n⟩) _ h, State.ported, State.live_fld]

theorem appWaits_within {F : Foot} (hs : F.regs HOSTP_STAT = true) : s.Within F (s.appWaits tr k) := by
  rw [State.appWaits, State.appTold, State.within_live_iff rfl]
  exact State.outSet_within _ _ hs

theorem appIn_dev : (s.appIn cells n).dev = s.dev := by rw [State.appIn, State.put_dev, State.put_dev, State.put_dev, State.put_dev]
theorem appIn_byte (a : Nat) : (s.appIn cells n).byte a = s.byte a := by rw [State.appIn, State.put_byte, State.put_byte, State.put_byte, State.put_byte]
theorem appWaits_byte (a : Nat) : (s.appWaits tr k).byte a = s.byte a := by rw [State.appWaits, State.appTold, State.live_byte, State.outSet_byte]
theorem appWaits_cells : (s.appWaits tr k).dev.cells = s.dev.cells := by
  rw [State.appWaits, appTold_cells, State.outSet_cells]

theorem appWaits_fld {f : Fld} (h : f.addr = HOSTP_APPIN) : (s.appWaits tr k).fld f = s.fld f := by
  rw [State.appWaits, State.appTold, State.live_fld, State.outSet_fld _ _ (by rw [h]; decide)]

theorem appin_full : HOSTP_APPIN_NCM1.Full ∧ HOSTP_APPIN_CELL.Full ∧ HOSTP_APPIN_LENGTH.Full ∧ HOSTP_APPIN_VALID.Full :=
  ⟨Fld.full_of_settable (by decide), Fld.full_of_settable (by decide), Fld.full_of_settable (by decide), Fld.full_of_settable (by decide)⟩

/-- The fields of APPIN then. -/
theorem appIn_fields (hc : cells.length ≤ 16) (hh : cells.headD 0 < 512) (hn : n ≤ 4092) :
    (s.appIn cells n).bit HOSTP_APPIN_VALID = true ∧ (s.appIn cells n).fld HOSTP_APPIN_NCM1 = cells.length - 1 ∧
      (s.appIn cells n).fld HOSTP_APPIN_CELL = cells.headD 0 ∧ (s.appIn cells n).fld HOSTP_APPIN_LENGTH = n := by
  obtain ⟨f1, f2, f3, f4⟩ := appin_full
  rw [State.appIn]
  refine ⟨?_, ?_, ?_, ?_⟩
  · rw [State.bit_put_same f4]
    rfl
  · rw [State.fld_put_apart f4 f1 _ fun _ => by decide, State.fld_put_apart f3 f1 _ fun _ => by decide,
      State.fld_put_apart f2 f1 _ fun _ => by decide, State.fld_put_same f1]
    exact Nat.mod_eq_of_lt (by change _ < 16; omega)
  · rw [State.fld_put_apart f4 f2 _ fun _ => by decide, State.fld_put_apart f3 f2 _ fun _ => by decide, State.fld_put_same f2]
    exact Nat.mod_eq_of_lt hh
  · rw [State.fld_put_apart f4 f3 _ fun _ => by decide, State.fld_put_same f3]
    exact Nat.mod_eq_of_lt (by change _ < 8192; omega)

theorem appWaits_hostp : (s.appWaits tr k).dev.hostp.app = some (tr, k) ∧ (s.appWaits tr k).dev.hostp.appIrq = true ∧
    ((s.appWaits tr k).port (trNum tr)).out = some (0x30, k) := by
  obtain ⟨h1, h2, h3⟩ := appTold_hostp (s := s.outSet (trNum tr) (some (0x30, k))) (tr := tr) (k := k)
  exact ⟨h1, h2, h3.trans (by rw [State.port_outSet])⟩

end

/-- APP waits for the firmware: its chain is the core's and in APPIN, what is outstanding is its tag. -/
structure State.AppWaiting (s t : State) (tr : Tr) (tag : Byte) (p : List Byte) (k : Nat) (cells : List Nat) : Prop where
  valid : t.bit HOSTP_APPIN_VALID = true
  ncm1 : t.fld HOSTP_APPIN_NCM1 = k - 1
  size : t.fld HOSTP_APPIN_LENGTH = p.length
  chain : t.chainFrom k (t.fld HOSTP_APPIN_CELL) = cells
  length : cells.length = k
  bytes : t.chainBytes cells p.length = p
  owned : ∀ c ∈ cells, (s.cell c).owner = ownFree ∧ (t.cell c).owner = ownCore
  app : t.dev.hostp.app = some (tr, tag.toNat)
  irq : t.dev.hostp.appIrq = true
  out : (t.port (trNum tr)).out = some (0x30, tag.toNat)
  within : s.Within { onlyRegs (HOSTP_STAT :: HOSTP_APPIN :: (perfOf hostpPage ++ perfOf fbufPage)) with mem := cellMem } t

theorem app_waits {k : Nat} (h : s.Takes tr 0x30) (hp : p.length ≤ 4092) (hkdef : max 1 ((p.length + 255) / 256) = k)
    (he : s.bit HOSTP_APPCTL_EN = true) (ha : s.dev.hostp.app = none) (hk : s.canAlloc poolHost k = true) (hf : k ≤ s.freeCells.length) :
    Completes (.app tr tag p) s fun t =>
      ∃ cells, s.AppWaiting t tr tag p k cells := by
  refine completes_gives rfl (gives_hostCmd (app_accepts h hp) (gives_bind (gives_getS ?_)))
  rw [accepted_bit (by decide), accepted_dev, if_neg (by simp [he, ha]), cellsFor_eq, hkdef]
  refine gives_chained (l := p) (by rw [accepted_canAlloc]; exact hk) (by rw [accepted_freeCells]; exact hf) (by omega) (fun _ => rfl) fun cells t ht => ?_
  refine gives_bind ((gives_passCells t cells ownCore).mono fun _ u ⟨hu, hcell⟩ => ?_)
  refine gives_bind (gives_setFld (gives_bind (gives_setFld (gives_bind (gives_setFld (gives_bind (gives_setFld ?_)))))))
  refine gives_bind (gives_bind (gives_act (gives_setFld (gives_act ?_))))
  obtain ⟨h1, h2, h3, h4⟩ := appIn_fields (s := u) (n := p.length) (by rw [ht.length]; omega) ht.head_lt hp
  obtain ⟨h5, h6, h7⟩ := appWaits_hostp (s := u.appIn cells p.length) (tr := tr) (k := tag.toNat)
  refine ⟨cells, ?_⟩
  change s.AppWaiting (latchEdges s ((u.appIn cells p.length).appWaits tr tag.toNat)) tr tag p k cells
  have hnext : ∀ x, (latchEdges s ((u.appIn cells p.length).appWaits tr tag.toNat)).cell x = u.cell x := fun x => by
    rw [latchEdges_cell, State.cell_congr appWaits_cells]
    exact State.cell_congr (by rw [appIn_dev]) x
  have hbyte : ∀ a, (latchEdges s ((u.appIn cells p.length).appWaits tr tag.toNat)).byte a = t.byte a := fun a => by
    rw [latchEdges_byte, appWaits_byte, appIn_byte]
    exact (hu.within {}).mem a rfl
  have hown : ∀ c ∈ cells, (u.cell c).owner = ownCore := fun c hc => by rw [hcell, if_pos hc]
  have hchain : u.chainFrom k (cells.headD 0) = cells := by
    rw [chainFrom_owned hcell]
    exact ht.chainFrom (by omega) le_rfl
  exact {
    valid := by rw [latchEdges_bit, State.bit, appWaits_fld rfl]; exact h1
    ncm1 := by rw [latchEdges_fld, appWaits_fld rfl, h2, ht.length]
    size := by rw [latchEdges_fld, appWaits_fld rfl, h4]
    chain := by rw [latchEdges_fld, appWaits_fld rfl, h3, chainFrom_congr hnext, hchain]
    length := ht.length
    bytes := (chainBytes_congr hbyte _ _).trans ht.bytes
    owned := fun c hc => ⟨by rw [← accepted_cell]; exact (ht.free c hc).2, by rw [hnext]; exact hown c hc⟩
    app := by rw [latchEdges_dev]; exact h5
    irq := by rw [latchEdges_dev]; exact h6
    out := by rw [latchEdges_port]; exact h7
    within := by
      rw [State.within_latch_iff]
      refine State.Within.trans ?_ (appWaits_within rfl)
      refine State.Within.trans ?_ (appIn_within _ rfl)
      refine State.Within.trans ?_ (hu.within _)
      refine (accepted_within.of_onlyRegs fun a ha => ?_).trans (ht.aside.within.widen ?_)
      · exact decide_eq_true (List.mem_cons_of_mem _ (List.mem_cons_of_mem _ (List.mem_append_left _ ha)))
      · exact Foot.sub_of_regs fun a ha => decide_eq_true
          (List.mem_cons_of_mem _ (List.mem_cons_of_mem _ (List.mem_append_right _ (of_decide_eq_true ha)))) }

/-- What SEND does not reach of a write to APPOUT. -/
theorem appOut_field (v : Word) {hi lo : Nat} (h : lo ≤ hi) (hh : hi < 31) : bitsGet (bitsPut v 31 31 1) hi lo = bitsGet v hi lo :=
  bitsGet_bitsPut_other v 31 31 1 hi lo le_rfl h (by omega) (.inl hh)

theorem appReply_unasked {v : Word} (h : s.bit HOSTP_APPIN_VALID = false) :
    Completes (.appReply v) s fun t => t.dev.hostp = s.dev.hostp ∧ t.bit (fltBit hostpPage fltState) = true ∧
      s.Within (onlyRegs (HOSTP_APPOUT :: evRegs hostpPage)) t := by
  refine completes_gives rfl (gives_bind (gives_getS (gives_bind (gives_wr ?_))))
  rw [start_bit, if_pos rfl, if_pos (by rw [h]; rfl)]
  refine (total_setFlt ..).gives_run _ |>.mono fun _ t ht => ?_
  rw [ht]
  refine ⟨by rw [latchEdges_dev, setFlt_dev, State.putReg_dev], by rw [latchEdges_bit]; exact setFlt_bit_set ⟨by decide, by decide, by decide⟩, ?_⟩
  rw [State.within_latch_iff, State.within_setFlt_iff fun a ha => decide_eq_true (List.mem_cons_of_mem _ ha)]
  exact State.within_putReg rfl

/-- The APP in progress ends, its answer queued at a wire. -/
theorem gives_appEnd {st : Nat} {data : List Byte} {k : Nat} (ha : s.dev.hostp.app = some (tr, k)) (hw : trNum tr < 2) :
    (appEnd st data).Gives s fun _ t => ∃ u,
      u = (s.live fun d => { d with hostp := { d.hostp with app := none, appIrq := false } }).put HOSTP_APPIN_VALID 0 ∧
      u.Aside (onlyRegs [HOSTP_STAT]) t ∧ u.Slotted t (trNum tr) { frame := replyFrame 0x30 k st data } := by
  refine gives_bind (gives_getS ?_)
  rw [ha]
  refine gives_bind (gives_act (gives_bind (gives_setFld ((gives_queueReply tr _).mono fun _ t ⟨h, hs⟩ => ⟨_, rfl, ?_, hs hw⟩))))
  rw [← replyFoot_wire hw]
  exact h

theorem appEnd_port (n : Nat) : ((s.live fun d => { d with hostp := { d.hostp with app := none, appIrq := false } }).put HOSTP_APPIN_VALID 0).port n =
    s.port n := by
  rw [State.port_put]
  rcases n with _ | _ | n <;> rfl

theorem appTimeout_none (h : s.dev.hostp.app = none) : Completes .appTimeout s fun t => t.dev.hostp = s.dev.hostp ∧ s.Within {} t := by
  refine completes_gives rfl (gives_bind (gives_getS ?_))
  rw [h]
  exact gives_nop ⟨by rw [latchEdges_dev], by rw [State.within_latch_iff]; exact s.within_refl _⟩

/-- What the end of APP shows at its wire. -/
structure State.AppEnded (s t : State) (tr : Tr) (k st : Nat) (data : List Byte) : Prop where
  app : t.dev.hostp.app = none
  irq : t.dev.hostp.appIrq = false
  cells : t.dev.cells = s.dev.cells
  reply : (t.port (trNum tr)).reply = some { frame := replyFrame 0x30 k st data }
  out : (t.port (trNum tr)).out = none
  valid : t.bit HOSTP_APPIN_VALID = false
  within : s.Within (onlyRegs [HOSTP_APPIN, HOSTP_STAT]) t
  sets : s.Inv → s.Sets t [(HOSTP_APPIN_VALID, 0)] [HOSTP_STAT]

theorem gives_appEnded {st : Nat} {data : List Byte} {k : Nat} (ha : s.dev.hostp.app = some (tr, k)) (hw : trNum tr < 2)
    (hr : (s.port (trNum tr)).reply = none) : (appEnd st data).Gives s fun _ t => s.AppEnded t tr k st data := by
  refine (gives_appEnd ha hw).mono ?_
  rintro _ t ⟨u, hu, hua, hs⟩
  have hp : u.port (trNum tr) = s.port (trNum tr) := by rw [hu, appEnd_port]
  obtain ⟨h1, h2⟩ := hs.empty (by rw [hp]; exact hr)
  have hdev : t.dev = { u.dev with hostp := t.dev.hostp } := hs.beside
  have hb := congrArg Dev.hostp hua.dev
  exact {
    app := (congrArg Hostp.app hb :).trans (by rw [hu, State.put_dev, State.live_dev]; rfl)
    irq := (congrArg Hostp.appIrq hb :).trans (by rw [hu, State.put_dev, State.live_dev]; rfl)
    cells := by rw [hdev, hu, State.put_dev, State.live_dev]
    reply := h1
    out := h2
    valid := by
      rw [State.bit, State.fld, hua.within.regs _ rfl, ← State.fld, ← State.bit, hu, State.bit_put_same (Fld.full_of_settable (by decide))]
      rfl
    within := by
      refine State.Within.trans ?_ (hua.within.of_onlyRegs fun a ha => decide_eq_true (List.mem_cons_of_mem _ ha))
      rw [hu, State.within_put_iff rfl, State.within_live_iff rfl]
      exact s.within_refl _
    sets := fun hi => by
      refine State.Sets.step (t := u) ?_ (hua.within.of_onlyRegs fun a ha => by simpa using ha)
      rw [hu]
      exact (((did_refl hi).lived rfl).puts (by decide)).sets }

theorem appTimeout_some {k : Nat} (hi : s.Inv) (ha : s.dev.hostp.app = some (tr, k)) (hw : trNum tr < 2) (hr : (s.port (trNum tr)).reply = none) :
    Completes .appTimeout s fun t =>
      t.dev.hostp.app = none ∧ t.dev.hostp.appIrq = false ∧ t.dev.cells = s.dev.cells ∧
        (t.port (trNum tr)).reply = some { frame := replyFrame 0x30 k 6 [] } ∧ (t.port (trNum tr)).out = none ∧
        s.Sets t [(HOSTP_APPIN_VALID, 0)] [HOSTP_STAT] := by
  refine completes_gives rfl ((gives_appEnded (st := stLate) (data := []) ha hw hr).mono fun _ t ht => ?_)
  rw [latchEdges_port, latchEdges_cells, latchEdges_dev]
  exact ⟨ht.app, ht.irq, ht.cells, ht.reply, ht.out, (ht.sets hi).latch⟩

theorem appReply_sends {v : Word} {k : Nat} (ha : s.dev.hostp.app = some (tr, k)) (hw : trNum tr < 2) (hr : (s.port (trNum tr)).reply = none)
    (hv : s.bit HOSTP_APPIN_VALID = true) (h1 : 1 ≤ bitsGet v 12 0) (h2 : bitsGet v 12 0 ≤ 4092) :
    let cells := (s.chainFrom 16 (bitsGet v 26 18)).take (bitsGet v 30 27 + 1)
    (∀ c ∈ cells, (s.cell c).owner = ownCore) → bitsGet v 12 0 ≤ 256 * cells.length →
    Completes (.appReply v) s fun t =>
      t.dev.hostp.app = none ∧ t.dev.hostp.appIrq = false ∧ (∀ c ∈ cells, (t.cell c).owner ≠ ownCore) ∧
        (t.port (trNum tr)).reply = some { frame := replyFrame 0x30 k 0 (s.chainBytes cells (bitsGet v 12 0)) } ∧
        (t.port (trNum tr)).out = none ∧ t.bit HOSTP_APPIN_VALID = false ∧
        s.Within (onlyRegs [HOSTP_APPOUT, HOSTP_APPIN, HOSTP_STAT]) t := by
  intro cells hown hlen
  refine completes_gives rfl (gives_bind (gives_getS (gives_bind (gives_wr ?_))))
  rw [start_bit, if_pos rfl]
  dsimp only
  have hne : bitsGet v 12 0 ≠ 0 := by omega
  rw [appOut_field v (by decide) (by decide), appOut_field v (by decide) (by decide), appOut_field v (by decide) (by decide),
    if_neg (show ¬ bitsGet v 12 0 = 0 from hne), if_pos hne, if_neg]
  · refine gives_bind ((gives_releaseCells _ cells).mono fun _ t ⟨ht, hcell⟩ => ?_)
    have hd : t.dev = { s.dev with cells := t.dev.cells } := ht.dev.trans (by rw [State.putReg_dev])
    have hp : t.port (trNum tr) = s.port (trNum tr) := State.port_congr (by rw [hd]) _
    refine (gives_appEnded (st := stOk) (by rw [hd]; exact ha) hw (by rw [hp]; exact hr)).mono fun _ u hu => ?_
    refine ⟨by rw [latchEdges_dev]; exact hu.app, by rw [latchEdges_dev]; exact hu.irq, fun c hc => ?_, by rw [latchEdges_port]; exact hu.reply,
      by rw [latchEdges_port]; exact hu.out, by rw [latchEdges_bit]; exact hu.valid, ?_⟩
    · rw [latchEdges_cell, State.cell_congr hu.cells, hcell, if_pos hc, State.letGo]
      split
      · exact (by decide : ownLink ≠ ownCore)
      · exact (by decide : ownFree ≠ ownCore)
    · rw [State.within_latch_iff]
      refine (State.within_putReg (v := bitsPut (bitsPut v 31 31 1) 31 31 0) rfl).trans ((ht.within _).trans (hu.within.of_onlyRegs fun a ha => ?_))
      exact decide_eq_true (List.mem_cons_of_mem _ ha)
  · simp only [Bool.or_eq_true, Bool.and_eq_true, decide_eq_true_eq, not_or, not_and]
    refine ⟨⟨by rw [hv]; decide, by omega⟩, fun _ => ⟨?_, Nat.not_lt.mpr hlen⟩⟩
    rw [List.any_eq_true]
    rintro ⟨c, hc, hn⟩
    simp [hown c hc] at hn

/-- Settles O50: each command is carried out on the counted state, its body read off the model, and what the answer leaves is
that of any answer at its wire; a chain is filled as it was allocated, so the frame or APP's payload is read back from it. -/
theorem hostData : Obligations.HostData := by
  unfold Obligations.HostData
  intro tr tag p s a n m
  refine ⟨fun h hp => ⟨fun hl ha => readMem_refused h hp hl ha, fun hl hn => readMem_param h hp hl hn,
      fun hl h1 h2 hlo hhi hb ho => readMem_reads h hp hl h1 h2 hlo hhi hb ho⟩,
    fun h hp hp' => ⟨fun hw => writeMem_param h hp hp' hw, fun hlo hhi hb ho => writeMem_writes h hp hp' hlo hhi hb ho⟩,
    fun h hp => ?_, fun h => ⟨fun hr => fetchFrame_none h hr, fun d rest hr => fetchFrame_some h hr⟩, fun h hp => ?_, fun hi => ?_⟩
  · refine ⟨fun hl => sendFrame_length h hp hl, fun hl hs => sendFrame_busy h hp hl hs, fun hl hs hk => sendFrame_nobuf h hp hl hs hk,
      fun hl hs hk hf => (sendFrame_sends h hp rfl rfl hl hs hk hf).imp fun t ht => ?_⟩
    obtain ⟨⟨cells, hq⟩, ha⟩ := ht
    obtain ⟨h1, h2, h3, h4, h5, h6, h7, h8⟩ := hq.shown hl (by omega)
    exact ⟨h1, h2, h3, h4, h5, h6, h7, h8, ha⟩
  · refine ⟨fun hr => app_refused h hp hr, fun he ha hk hf => (app_waits h hp rfl he ha hk hf).imp fun t ht => ?_⟩
    obtain ⟨cells, hq⟩ := ht
    intro cells'
    rw [show cells' = cells from hq.chain]
    exact ⟨hq.valid, hq.ncm1, hq.size, hq.length, hq.bytes, hq.owned, hq.app, hq.irq, hq.out, hq.within⟩
  · refine ⟨fun v => ⟨fun hv => appReply_unasked hv, ?_⟩, fun ha => appTimeout_none ha, ?_⟩
    · rintro ⟨_, k⟩ ha rfl hw hr hv h1 h2 hown hlen -
      exact appReply_sends ha hw hr hv h1 h2 hown hlen
    · rintro ⟨_, k⟩ ha rfl hw hr
      exact appTimeout_some hi ha hw hr

end Sys2Proof.Machine
end

section
/-!
The update engine over the host port (R397, R402–R406, R437).
-/
namespace Sys2Proof.Machine
open Sys2Proof.Reg

variable {s t u : State} {F : Foot} {tr : Tr} {tag : Byte} {p : List Byte}

/-! ### A reply leaves the engine's field -/

theorem setOut_field {f : Fld} (hf : f.Full) {n : Nat} (hn : n < 3) (hd : 10 < f.lo) (v : Option (Nat × Nat)) :
    (s.outSet n v).fld f = s.fld f := by
  have hfull : Fld.Full ⟨HOSTP_STAT, 8 + n, 8 + n⟩ := by
    have : n = 0 ∨ n = 1 ∨ n = 2 := by omega
    rcases this with rfl | rfl | rfl <;> exact Fld.full_of_settable (by decide)
  rw [State.outSet, State.fld_put_apart hfull hf _ fun _ => .inr (by change 8 + n < f.lo; omega), State.ported, State.live_fld]

theorem wireReply_field {f : Fld} (hf : f.Full) {n : Nat} (hn : n < 3) (hd : 10 < f.lo) (r : Reply) :
    ((wireReply n r).run s).fld f = s.fld f := by
  rw [wireReply_run]
  split <;> rw [setOut_field hf hn hd, State.ported, State.live_fld]

theorem total_setOut (n : Nat) (v : Option (Nat × Nat)) : (setOut n v).Total := total_bind (total_act _) fun _ => total_setFld ..
theorem total_wireReply (n : Nat) (r : Reply) : (wireReply n r).Total :=
  total_bind total_getS fun _ => total_ite (total_bind (total_act _) fun _ => total_setOut ..) (total_bind (total_act _) fun _ => total_setOut ..)

/-- A reply at any transport leaves the fields of HOSTP_STAT above what is outstanding. -/
theorem queueReply_field {f : Fld} (h : f.addr = HOSTP_STAT) (hf : f.Full) (hd : 10 < f.lo) :
    ∀ (tr : Tr) (r : Reply), (queueReply tr r).Gives s fun _ t => t.fld f = s.fld f
  | .spi, r => ((total_wireReply 0 r).gives_run s).mono fun _ t ht => by rw [ht]; exact wireReply_field hf (by decide) hd r
  | .uart, r => ((total_wireReply 1 r).gives_run s).mono fun _ t ht => by rw [ht]; exact wireReply_field hf (by decide) hd r
  | .mesh hdr lane, r => gives_bind ((aside_meshSend hdr lane.val r.frame).gives fun _ t ht => ((total_setOut 2 none).gives_run t).mono fun _ u hu => by
      rw [hu, run_setOut, setOut_field hf (by decide) hd, State.fld, ht.within.regs _ (by rw [h]; decide), State.fld])

/-! ### External flash erased and programmed (R403, R404) -/

/-- Octets of the device programmed that were erased. -/
def State.extProgrammed (s : State) (a : Nat) (l : List Byte) : State :=
  (s.putMem (extAt a) l).live fun d => { d with xspi := { d.xspi with lines := [] } }

theorem gives_extPut {a : Nat} {l : List Byte} (hb : ∀ i < l.length, s.byte (extAt a + i) = 0xFF) : (extPut a l).Gives s fun _ t => t = s.extProgrammed a l := by
  induction l generalizing s a with
  | nil => exact gives_act rfl
  | cons b l ih =>
    refine gives_bind (gives_getS ?_)
    dsimp only
    have h0 := hb 0 (by simp)
    rw [Nat.add_zero] at h0
    rw [if_pos h0]
    refine gives_bind (gives_act (ih fun i hi => ?_))
    have he : extAt (a + 1) + i = extAt a + (i + 1) := by simp only [extAt]; omega
    rw [he, State.byte_other _ _ _ _ (by omega)]
    exact hb (i + 1) (by simpa using hi)

/-- Units of the device erased. -/
def State.extErased (s : State) (a n : Nat) : State :=
  (Prim.run (.memClear fun x => decide (extAt (a / 0x10000 * 0x10000) ≤ x) && decide (x < extAt (ceilDiv (a + n) 0x10000 * 0x10000))) s).live
    fun d => { d with xspi := { d.xspi with lines := [] } }

theorem gives_extErase {a n : Nat} : (extErase a n).Gives s fun _ t => t = s.extErased a n := gives_bind (gives_act (gives_act rfl))

theorem extErased_byte (a n x : Nat) : (s.extErased a n).byte x =
    if extAt (a / 0x10000 * 0x10000) ≤ x ∧ x < extAt (ceilDiv (a + n) 0x10000 * 0x10000) then memReset x else s.byte x := by
  rw [State.extErased, State.live_byte, State.byte, Prim.run_memClear_mem, Sparse.get_drop]
  simp only [Bool.and_eq_true, decide_eq_true_eq]
  rfl

theorem extProgrammed_byte (a : Nat) (l : List Byte) (x : Nat) : (s.extProgrammed a l).byte x =
    if extAt a ≤ x ∧ x < extAt a + l.length then l.getD (x - extAt a) 0 else s.byte x := by
  rw [State.extProgrammed, State.live_byte, State.putMem_byte]

section
variable {lo n whole : Nat} {h : List Byte}

/-- What an erase and the programming of a header leave. -/
structure State.Staged (t : State) (lo whole : Nat) (h : List Byte) : Prop where
  header : ∀ i < h.length, t.byte (0x30000000 + lo + i) = octet h i
  blank : ∀ i, h.length ≤ i → i < whole → t.byte (0x30000000 + lo + i) = 0xFF

/-- Erased where a header is to be programmed. -/
theorem extErased_blank (halign : lo / 0x10000 * 0x10000 = lo) (hw : ceilDiv (lo + n) 0x10000 * 0x10000 = lo + whole) (hlt : lo + whole ≤ 0x8000000)
    {i : Nat} (hi : i < whole) : (s.extErased lo n).byte (0x30000000 + lo + i) = 0xFF := by
  rw [extErased_byte, halign, hw, if_pos ⟨by rw [extAt, csBase]; omega, by rw [extAt, csBase]; omega⟩, memReset, if_neg (by omega), if_neg (by omega),
    if_pos (by omega)]

theorem staged (halign : lo / 0x10000 * 0x10000 = lo) (hw : ceilDiv (lo + n) 0x10000 * 0x10000 = lo + whole) (hlt : lo + whole ≤ 0x8000000) :
    ((s.extErased lo n).extProgrammed lo h).Staged lo whole h := by
  have hat : extAt lo = 0x30000000 + lo := by rw [extAt, csBase]
  constructor
  · intro i hi
    rw [extProgrammed_byte, hat, if_pos (by omega), Nat.add_sub_cancel_left]
    rfl
  · intro i hi hi'
    rw [extProgrammed_byte, hat, if_neg (by omega)]
    exact extErased_blank halign hw hlt hi'

end

theorem extErased_within {lo n whole : Nat} (halign : lo / 0x10000 * 0x10000 = lo) (hw : ceilDiv (lo + n) 0x10000 * 0x10000 = lo + whole)
    (hF : ∀ x, 0x30000000 + lo ≤ x → x < 0x30000000 + lo + whole → F.mem x = true) : s.Within F (s.extErased lo n) := by
  rw [State.extErased, State.within_live_iff rfl]
  refine (keeps_memClear fun a ha => ?_).run s
  rw [Bool.and_eq_true, decide_eq_true_eq, decide_eq_true_eq, halign, hw, extAt, extAt, csBase] at ha
  exact hF a (by omega) (by omega)

theorem extProgrammed_within {a : Nat} {l : List Byte} (hF : ∀ i < l.length, F.mem (extAt a + i) = true) : s.Within F (s.extProgrammed a l) := by
  rw [State.extProgrammed, State.within_live_iff rfl]
  exact State.putMem_within hF

/-! ### The engine's steps while a command is carried out -/

/-- The engine's work in progress replaced. -/
def State.updated (s : State) (v : Upd) : State := s.live fun d => { d with hostp := { d.hostp with upd := v } }

/-- The engine brought to IDLE. -/
def State.engStopped (s : State) : State := (s.put HOSTP_STAT_ENGINE 0).updated {}

theorem gives_engStop : engStop.Gives s fun _ t => t = s.engStopped := gives_bind (gives_setFld (gives_act rfl))

theorem gives_modUpd {f : Upd → Upd} {Q : Unit → State → Prop} (h : Q () (s.updated (f s.dev.hostp.upd))) : (modUpd f).Gives s Q := gives_act h

theorem engine_full : HOSTP_STAT_ENGINE.Full := Fld.full_of_settable (by decide)

theorem updated_fld (v : Upd) (f : Fld) : (s.updated v).fld f = s.fld f := by rw [State.updated, State.live_fld]
theorem updated_byte (v : Upd) (a : Nat) : (s.updated v).byte a = s.byte a := by rw [State.updated, State.live_byte]
theorem updated_upd (v : Upd) : (s.updated v).dev.hostp.upd = v := (rfl)
theorem engStopped_engine : s.engStopped.fld HOSTP_STAT_ENGINE = 0 := by rw [State.engStopped, updated_fld, State.fld_put_same engine_full]; rfl
theorem extProgrammed_fld (a : Nat) (l : List Byte) (f : Fld) : (s.extProgrammed a l).fld f = s.fld f := by
  rw [State.extProgrammed, State.live_fld, State.putMem_fld]
theorem extProgrammed_hostp (a : Nat) (l : List Byte) : (s.extProgrammed a l).dev.hostp = s.dev.hostp := by
  rw [State.extProgrammed, State.live_dev, State.putMem_dev]

theorem State.Carried.updated (h : s.Carried t tr F) (v : Upd) : s.Carried (t.updated v) tr F := h.hosted rfl rfl

theorem State.Carried.engStopped (h : s.Carried t tr F) (hF : F.regs HOSTP_STAT = true) : s.Carried t.engStopped tr F := by
  have h1 : s.Carried (t.put HOSTP_STAT_ENGINE 0) tr F := h.put hF
  exact h1.updated {}

theorem State.Carried.extErased {lo n whole : Nat} (h : s.Carried t tr F) (halign : lo / 0x10000 * 0x10000 = lo)
    (hw : ceilDiv (lo + n) 0x10000 * 0x10000 = lo + whole) (hF : ∀ x, 0x30000000 + lo ≤ x → x < 0x30000000 + lo + whole → F.mem x = true) :
    s.Carried (t.extErased lo n) tr F :=
  h.step rfl List.prefix_rfl rfl (extErased_within halign hw fun x h1 h2 => (F.sub_with_left _).mem x (hF x h1 h2))

theorem State.Carried.extProgrammed (h : s.Carried t tr F) {a : Nat} {l : List Byte} (hF : ∀ i < l.length, F.mem (extAt a + i) = true) :
    s.Carried (t.extProgrammed a l) tr F := by
  refine h.step ?_ ?_ (extProgrammed_hostp a l) (extProgrammed_within fun i hi => (F.sub_with_left _).mem _ (hF i hi))
  · rw [State.extProgrammed, State.ctr_live rfl, State.ctr, State.putMem_dev, State.ctr]
  · rw [State.extProgrammed, State.live_events, State.putMem_events]

/-! ### Answers of the engine -/

section
variable {c : Instr} {code st : Nat} {body : M Nat} {P : State → Prop} (hx : exec c s = cmd s (hostCmd tr code tag.toNat p))
  (h : s.Accepts tr code p.length) (hr : carryOutCmd tr code tag.toNat p = answer tr code tag.toNat (bare body))
include hx h hr

/-- A command of the engine that answers a status alone. -/
theorem completes_engine (hc : code < 0x80) (hst : st ≠ stState)
    (hb : body.Gives s.accepted fun r t => r = st ∧ s.Carried t tr F ∧
      ∀ u, t.Aside (replyFoot tr) u → u.fld HOSTP_STAT_ENGINE = t.fld HOSTP_STAT_ENGINE → P (latchEdges s u)) :
    Completes c s fun t => P t ∧ s.Answers t tr tag code st [] F := by
  refine completes_gives hx (gives_hostCmd h ?_)
  rw [hr]
  refine gives_bind (gives_bind (hb.mono ?_))
  rintro _ t ⟨rfl, hcar, hP⟩
  refine gives_pure ?_
  dsimp only
  rw [if_neg hst]
  exact ((gives_queueReply tr _).and (queueReply_field rfl engine_full (by decide) tr _)).mono fun _ u ⟨⟨ha, hs⟩, he⟩ => ⟨hP u ha he, hcar.answers ha hs hc⟩

theorem completes_engine_refused (hb : body.Gives s.accepted fun r t => r = stState ∧ t = s.accepted) : Completes c s fun t => s.Refuses t tr tag code 1 := by
  refine completes_refused hx h hr (gives_bind (hb.mono ?_))
  rintro _ t ⟨rfl, rfl⟩
  exact gives_pure ⟨rfl, by rw [accepted_dev], accepted_port⟩

/-- A command of the engine that changes nothing of its work. -/
theorem completes_engine_kept (hc : code < 0x80) (hst : st ≠ stState) (hb : body.Gives s.accepted fun r t => r = st ∧ t = s.accepted) :
    Completes c s fun t => t.dev.hostp.upd = s.dev.hostp.upd ∧ s.Answers t tr tag code st [] F := by
  refine completes_engine hx h hr hc hst (hb.mono ?_)
  rintro _ t ⟨hr, rfl⟩
  refine ⟨hr, accepted_carried, fun u hu _ => ?_⟩
  rw [latchEdges_dev]
  exact (congrArg (fun d : Dev => d.hostp.upd) hu.dev :).trans (by rw [accepted_dev]; rfl)

/-- A command after which the engine is IDLE. -/
theorem completes_engine_stopped (hc : code < 0x80) (hst : st ≠ stState) (hb : body.Gives s.accepted fun r t => r = st ∧ t = s.accepted.engStopped) :
    Completes c s fun t => t.fld HOSTP_STAT_ENGINE = 0 ∧ s.Answers t tr tag code st [] (onlyRegs [HOSTP_STAT]) := by
  refine completes_engine hx h hr hc hst (hb.mono ?_)
  rintro _ t ⟨hr, rfl⟩
  refine ⟨hr, accepted_carried.engStopped rfl, fun u _ he => ?_⟩
  rw [latchEdges_fld, he, engStopped_engine]

end

theorem accepted_engine : s.accepted.fld HOSTP_STAT_ENGINE = s.fld HOSTP_STAT_ENGINE := accepted_fld (by decide)

theorem accepted_engElse {n : Nat} : s.accepted.engElse n = true ↔ s.fld HOSTP_STAT_ENGINE ≠ 0 ∧ s.dev.hostp.upd.owner ≠ n := by
  rw [State.engElse, State.engine, accepted_engine, accepted_dev, Bool.and_eq_true, bne_iff_ne, bne_iff_ne]

/-! ### What the checks read, once the command is counted -/

theorem accepted_otpExt : s.accepted.otpExt = s.otpExt := by rw [State.otpExt, accepted_dev, State.otpExt]
theorem accepted_bundleOk : s.accepted.bundleOk p = s.bundleOk p := by
  rw [State.bundleOk, accepted_otpExt, accepted_fld (by decide), State.bundleOk]
theorem accepted_sealedCmac (slot page : Nat) (l : List Byte) : s.accepted.sealedCmac slot page l = s.sealedCmac slot page l := by
  simp only [State.sealedCmac, State.keyFor, State.slot, accepted_dev]
  rfl
theorem accepted_hdrCmacOk (page : Nat) : s.accepted.hdrCmacOk page p = s.hdrCmacOk page p := by
  rw [State.hdrCmacOk, accepted_sealedCmac, State.hdrCmacOk]
theorem accepted_imgCmacOk (page : Nat) (l : List Byte) : s.accepted.imgCmacOk page p l = s.imgCmacOk page p l := by
  rw [State.imgCmacOk, accepted_sealedCmac, State.imgCmacOk]
theorem accepted_arb : s.accepted.arb = s.arb := by
  have hb : ∀ a, s.accepted.otpByte a = s.otpByte a := fun a => accepted_within.otp rfl a
  simp only [State.arb, State.otpBytes, hb]
theorem accepted_crewHeaderOk : s.accepted.crewHeaderOk p = s.crewHeaderOk p := by
  rw [State.crewHeaderOk, accepted_otpExt, accepted_fld (by decide), accepted_lc, State.crewHeaderOk]
theorem accepted_crewStatus (page : Nat) (l : List Byte) : s.accepted.crewStatus page l = s.crewStatus page l := by
  simp only [State.crewStatus, accepted_sealedCmac]

/-! ### External flash beside a reply -/

/-- A reply leaves external flash. -/
theorem replyFoot_ext {a : Nat} (ha : 0x30000000 ≤ a) : ∀ tr : Tr, (replyFoot tr).mem a = false
  | .spi | .uart => rfl
  | .mesh _ _ => by
    change cellMem a = false
    rw [cellMem]
    simp only [Bool.and_eq_false_iff, decide_eq_false_iff_not]
    omega

theorem State.Aside.ext_byte (h : t.Aside (replyFoot tr) u) {a : Nat} (ha : 0x30000000 ≤ a) : u.byte a = t.byte a := h.within.mem a (replyFoot_ext ha tr)

/-- The footprint of a command of the engine that programs a stretch of the device. -/
def extFoot (lo n : Nat) : Foot := { onlyRegs [HOSTP_STAT] with mem := fun x => decide (0x30000000 + lo ≤ x ∧ x < 0x30000000 + lo + n) }

theorem extFoot_mem {lo n x : Nat} (h1 : 0x30000000 + lo ≤ x) (h2 : x < 0x30000000 + lo + n) : (extFoot lo n).mem x = true := decide_eq_true ⟨h1, h2⟩

/-- A stretch is erased, a header programmed in it, and the engine's work begins. -/
theorem gives_begin {lo n whole v : Nat} {w : Upd} (halign : lo / 0x10000 * 0x10000 = lo) (hw : ceilDiv (lo + n) 0x10000 * 0x10000 = lo + whole)
    (hlt : lo + whole ≤ 0x8000000) (hl : p.length ≤ whole) (hv : v < 8) :
    (do extErase lo n
        extPut lo p
        setEngine v
        modUpd fun _ => w
        return stOk : M Nat).Gives s.accepted.engStopped fun r t => r = stOk ∧ s.Carried t tr (extFoot lo whole) ∧
      ∀ u, t.Aside (replyFoot tr) u → u.fld HOSTP_STAT_ENGINE = t.fld HOSTP_STAT_ENGINE →
        (latchEdges s u).fld HOSTP_STAT_ENGINE = v ∧ (latchEdges s u).dev.hostp.upd = w ∧ (latchEdges s u).Staged lo whole p := by
  have hat : extAt lo = 0x30000000 + lo := by rw [extAt, csBase]
  refine gives_bind (gives_extErase.mono ?_)
  rintro _ t ht
  refine gives_bind ((gives_extPut fun i hi => ?_).mono ?_)
  · rw [ht, hat]
    exact extErased_blank halign hw hlt (by omega)
  rintro _ t' ht'
  refine gives_bind (gives_setFld (gives_bind (gives_act (gives_pure ?_))))
  change stOk = stOk ∧ s.Carried ((t'.put HOSTP_STAT_ENGINE v).updated w) tr (extFoot lo whole) ∧ ∀ u, ((t'.put HOSTP_STAT_ENGINE v).updated w).Aside (replyFoot tr) u →
    u.fld HOSTP_STAT_ENGINE = ((t'.put HOSTP_STAT_ENGINE v).updated w).fld HOSTP_STAT_ENGINE → _
  rw [ht] at ht'
  have hc : s.Carried t' tr (extFoot lo whole) := by
    rw [ht']
    refine ((accepted_carried.engStopped rfl).extErased halign hw fun x => extFoot_mem).extProgrammed fun i hi => ?_
    rw [hat]
    exact extFoot_mem (by omega) (by omega)
  have hc' : s.Carried (t'.put HOSTP_STAT_ENGINE v) tr (extFoot lo whole) := hc.put rfl
  refine ⟨rfl, hc'.updated w, fun u hu he => ⟨?_, ?_, ?_⟩⟩
  · rw [latchEdges_fld, he, updated_fld, State.fld_put_same engine_full]
    exact Nat.mod_eq_of_lt hv
  · rw [latchEdges_dev]
    exact (congrArg (fun d : Dev => d.hostp.upd) hu.dev :)
  · have hs : t'.Staged lo whole p := by rw [ht']; exact staged halign hw hlt
    have hb (i : Nat) : (latchEdges s u).byte (0x30000000 + lo + i) = t'.byte (0x30000000 + lo + i) := by
      rw [latchEdges_byte, hu.ext_byte (by omega), updated_byte, State.put_byte]
    exact ⟨fun i hi => by rw [hb, hs.header i hi], fun i h1 h2 => by rw [hb, hs.blank i h1 h2]⟩

/-- The lifecycles in which the engine is at work. -/
theorem engine_lc (hl : s.lc = 1 ∨ s.lc = 2) : (!(s.accepted.lc == 1 || s.accepted.lc == 2)) = false := by
  rw [accepted_lc]
  rcases hl with h | h <;> rw [h] <;> rfl

/-! ### UPDATE_BEGIN (R402, R403) -/

theorem staged_end (n : Nat) : ceilDiv (0x100000 + (0x10000 + n)) 0x10000 * 0x10000 = 0x100000 + (0x10000 + n + 0xFFFF) / 0x10000 * 0x10000 := by
  rw [ceilDiv]
  omega

theorem bundleLen_le (h : s.bundleOk p = true) : bundleLen p ≤ 4128640 := by
  simp only [State.bundleOk, Bool.and_eq_true, decide_eq_true_eq] at h
  obtain ⟨⟨⟨⟨⟨⟨⟨⟨⟨⟨⟨⟨⟨⟨⟨-, hlen⟩, -⟩, -⟩, -⟩, -⟩, -⟩, -⟩, -⟩, -⟩, -⟩, -⟩, -⟩, -⟩, -⟩, -⟩ := h
  exact hlen.2

section
variable (h : s.Takes tr 0x40) (hp : p.length = 128)
include h hp

theorem updateBegin_accepts : s.Accepts tr 0x40 p.length := h.accepts (by rw [hp]; rfl) (by decide)

theorem updateBegin_busy (ho : s.fld HOSTP_STAT_ENGINE ≠ 0 ∧ s.dev.hostp.upd.owner ≠ trNum tr) :
    Completes (.updateBegin tr tag p) s fun t => t.dev.hostp.upd = s.dev.hostp.upd ∧ s.Answers t tr tag 0x40 2 [] := by
  refine completes_engine_kept rfl (updateBegin_accepts h hp) rfl (by decide) (by decide) (gives_bind (gives_getS ?_))
  rw [if_pos (accepted_engElse.mpr ho)]
  exact gives_pure ⟨rfl, rfl⟩

section
variable (ho : ¬ (s.fld HOSTP_STAT_ENGINE ≠ 0 ∧ s.dev.hostp.upd.owner ≠ trNum tr))
include ho

omit hp in
/-- UPDATE_BEGIN by whoever may begin: the engine stops, then the header is looked at. -/
theorem gives_updateBegin {Q : Nat → State → Prop} (hq : (if !s.bundleOk p then (pure stHeader : M Nat) else if !s.hdrCmacOk 1 p then pure stAuth
      else if bundleSvn p < s.arb then pure stRollback
      else do
        extErase 0x100000 (0x10000 + bundleLen p)
        extPut 0x100000 p
        setEngine engReceiving
        modUpd fun _ => { owner := trNum tr, hdr := p }
        return stOk).Gives s.accepted.engStopped Q) : (updateBegin (trNum tr) p).Gives s.accepted Q := by
  refine gives_bind (gives_getS ?_)
  rw [if_neg (mt accepted_engElse.mp ho)]
  refine gives_bind (gives_engStop.mono ?_)
  rintro _ t rfl
  rwa [engine_lc (of_decide_eq_true h.lc), if_neg Bool.false_ne_true, accepted_bundleOk, accepted_hdrCmacOk, accepted_arb]

theorem updateBegin_header (hb : s.bundleOk p = false) :
    Completes (.updateBegin tr tag p) s fun t => t.fld HOSTP_STAT_ENGINE = 0 ∧ s.Answers t tr tag 0x40 0x40 [] (onlyRegs [HOSTP_STAT]) := by
  refine completes_engine_stopped rfl (updateBegin_accepts h hp) rfl (by decide) (by decide) (gives_updateBegin h ho ?_)
  rw [hb]
  exact gives_pure ⟨rfl, rfl⟩

theorem updateBegin_auth (hb : s.bundleOk p = true) (hm : s.hdrCmacOk 1 p = false) :
    Completes (.updateBegin tr tag p) s fun t => t.fld HOSTP_STAT_ENGINE = 0 ∧ s.Answers t tr tag 0x40 0x20 [] (onlyRegs [HOSTP_STAT]) := by
  refine completes_engine_stopped rfl (updateBegin_accepts h hp) rfl (by decide) (by decide) (gives_updateBegin h ho ?_)
  rw [hb, hm]
  exact gives_pure ⟨rfl, rfl⟩

theorem updateBegin_rollback (hb : s.bundleOk p = true) (hm : s.hdrCmacOk 1 p = true) (hv : bundleSvn p < s.arb) :
    Completes (.updateBegin tr tag p) s fun t => t.fld HOSTP_STAT_ENGINE = 0 ∧ s.Answers t tr tag 0x40 0x42 [] (onlyRegs [HOSTP_STAT]) := by
  refine completes_engine_stopped rfl (updateBegin_accepts h hp) rfl (by decide) (by decide) (gives_updateBegin h ho ?_)
  rw [hb, hm, if_neg (by decide), if_neg (by decide), if_pos hv]
  exact gives_pure ⟨rfl, rfl⟩

theorem updateBegin_begins {whole : Nat} (hw : (0x10000 + bundleLen p + 0xFFFF) / 0x10000 * 0x10000 = whole) (hb : s.bundleOk p = true)
    (hm : s.hdrCmacOk 1 p = true) (hv : s.arb ≤ bundleSvn p) :
    Completes (.updateBegin tr tag p) s fun t =>
      (t.fld HOSTP_STAT_ENGINE = 1 ∧ t.dev.hostp.upd = { owner := trNum tr, hdr := p } ∧ t.Staged 0x100000 whole p) ∧
        s.Answers t tr tag 0x40 0 [] (extFoot 0x100000 whole) := by
  refine completes_engine rfl (updateBegin_accepts h hp) rfl (by decide) (by decide) (gives_updateBegin h ho ?_)
  rw [hb, hm, if_neg (by decide), if_neg (by decide), if_neg (by omega)]
  have hlen := bundleLen_le hb
  exact gives_begin (by norm_num) ((staged_end _).trans (by rw [hw])) (by omega) (by omega) (by decide)

end

end

/-! ### UPDATE_BLOCK and UPDATE_END (R404, R405) -/

/-- A stretch of the device holds octets. -/
def State.Holds (t : State) (lo : Nat) (l : List Byte) : Prop := ∀ i < l.length, t.byte (0x30000000 + lo + i) = octet l i

/-- What a command shows that has programmed a block: it stands in the device, the engine goes on. -/
theorem programmed_shown {lo : Nat} {l : List Byte} (ha : (t.extProgrammed lo l).Aside (replyFoot tr) u) : (latchEdges s u).Holds lo l := by
  intro i hi
  rw [latchEdges_byte, ha.ext_byte (by omega), extProgrammed_byte, extAt, csBase, if_pos (by omega), show 0x30000000 + lo + i - (0x30000000 + 0x04000000 * 0 + lo) = i by omega]
  rfl

theorem accepted_blank {lo n : Nat} (hb : ∀ i < n, s.byte (0x30000000 + lo + i) = 0xFF) : ∀ i < n, s.accepted.byte (extAt lo + i) = 0xFF := fun i hi => by
  rw [accepted_byte, extAt, csBase, Nat.mul_zero, Nat.add_zero]
  exact hb i hi

theorem State.Carried.block {lo : Nat} {l : List Byte} (h : s.Carried t tr (extFoot lo l.length)) : s.Carried (t.extProgrammed lo l) tr (extFoot lo l.length) :=
  h.extProgrammed fun i hi => by
    rw [extAt, csBase, Nat.mul_zero, Nat.add_zero]
    exact extFoot_mem (by omega) (by omega)

section
variable (h : s.Takes tr 0x41) (hz : sizeOk 0x41 p.length (trNum tr == 2) = true)
include h hz

theorem updateBlock_busy (ho : s.fld HOSTP_STAT_ENGINE ≠ 0 ∧ s.dev.hostp.upd.owner ≠ trNum tr) :
    Completes (.updateBlock tr tag p) s fun t => t.dev.hostp.upd = s.dev.hostp.upd ∧ s.Answers t tr tag 0x41 2 [] := by
  refine completes_engine_kept rfl (h.accepts hz (by decide)) rfl (by decide) (by decide) (gives_bind (gives_getS ?_))
  rw [if_pos (accepted_engElse.mpr ho)]
  exact gives_pure ⟨rfl, rfl⟩

section
variable (ho : ¬ (s.fld HOSTP_STAT_ENGINE ≠ 0 ∧ s.dev.hostp.upd.owner ≠ trNum tr))
include ho

theorem updateBlock_state (he : s.fld HOSTP_STAT_ENGINE ≠ 1) : Completes (.updateBlock tr tag p) s fun t => s.Refuses t tr tag 0x41 1 := by
  refine completes_engine_refused rfl (h.accepts hz (by decide)) rfl (gives_bind (gives_getS ?_))
  rw [if_neg (mt accepted_engElse.mp ho), State.engine, accepted_engine, if_pos he]
  exact gives_pure ⟨rfl, rfl⟩

theorem updateBlock_offset (he : s.fld HOSTP_STAT_ENGINE = 1) (hl : bundleLen s.dev.hostp.upd.hdr < numAt p 0 4 + (p.drop 4).length) :
    Completes (.updateBlock tr tag p) s fun t => t.dev.hostp.upd = s.dev.hostp.upd ∧ s.Answers t tr tag 0x41 0x43 [] := by
  refine completes_engine_kept rfl (h.accepts hz (by decide)) rfl (by decide) (by decide) (gives_bind (gives_getS ?_))
  rw [if_neg (mt accepted_engElse.mp ho), State.engine, accepted_engine, if_neg (not_not.mpr he), accepted_dev, if_pos hl]
  exact gives_pure ⟨rfl, rfl⟩

theorem updateBlock_programs (he : s.fld HOSTP_STAT_ENGINE = 1) (hl : numAt p 0 4 + (p.drop 4).length ≤ bundleLen s.dev.hostp.upd.hdr)
    (hb : ∀ i < (p.drop 4).length, s.byte (0x30000000 + (0x110000 + numAt p 0 4) + i) = 0xFF) :
    Completes (.updateBlock tr tag p) s fun t => (t.Holds (0x110000 + numAt p 0 4) (p.drop 4) ∧ t.fld HOSTP_STAT_ENGINE = 1) ∧
      s.Answers t tr tag 0x41 0 [] (extFoot (0x110000 + numAt p 0 4) (p.drop 4).length) := by
  refine completes_engine rfl (h.accepts hz (by decide)) rfl (by decide) (by decide) (gives_bind (gives_getS ?_))
  rw [if_neg (mt accepted_engElse.mp ho), State.engine, accepted_engine, if_neg (not_not.mpr he), if_neg (by rw [accepted_dev]; exact Nat.not_lt.mpr hl)]
  refine gives_bind (gives_modUpd ?_)
  generalize hs : s.accepted.updated _ = t
  have hc : s.Carried t tr (extFoot (0x110000 + numAt p 0 4) (p.drop 4).length) := hs ▸ accepted_carried.updated _
  refine gives_bind ((gives_extPut fun i hi => ?_).mono ?_)
  · rw [← hs, updated_byte]
    exact accepted_blank hb i hi
  rintro _ u rfl
  refine gives_pure ⟨rfl, hc.block, fun v ha hf => ⟨programmed_shown ha, ?_⟩⟩
  rw [latchEdges_fld, hf, extProgrammed_fld, ← hs, updated_fld, accepted_engine, he]

end
end

/-- The image is checked as it stands in the device. -/
theorem accepted_image : (!s.accepted.dev.hostp.upd.spoilt && s.accepted.imgCmacOk 1 s.accepted.dev.hostp.upd.hdr
      (s.accepted.bytes (extAt 0x110000) (bundleLen s.accepted.dev.hostp.upd.hdr))) = true ↔
    s.dev.hostp.upd.spoilt = false ∧ s.imgCmacOk 1 s.dev.hostp.upd.hdr (s.bytes 0x30110000 (bundleLen s.dev.hostp.upd.hdr)) = true := by
  rw [accepted_imgCmacOk, accepted_bytes, accepted_dev, Bool.and_eq_true, Bool.not_eq_true']
  rfl

section
variable (h : s.Takes tr 0x42)
include h

theorem updateEnd_busy (ho : s.fld HOSTP_STAT_ENGINE ≠ 0 ∧ s.dev.hostp.upd.owner ≠ trNum tr) :
    Completes (.updateEnd tr tag) s fun t => t.dev.hostp.upd = s.dev.hostp.upd ∧ s.Answers t tr tag 0x42 2 [] := by
  refine completes_engine_kept (p := []) rfl (h.accepts rfl (by decide)) rfl (by decide) (by decide) (gives_bind (gives_getS ?_))
  rw [if_pos (accepted_engElse.mpr ho)]
  exact gives_pure ⟨rfl, rfl⟩

section
variable (ho : ¬ (s.fld HOSTP_STAT_ENGINE ≠ 0 ∧ s.dev.hostp.upd.owner ≠ trNum tr))
include ho

theorem updateEnd_state (he : s.fld HOSTP_STAT_ENGINE ≠ 1) : Completes (.updateEnd tr tag) s fun t => s.Refuses t tr tag 0x42 1 := by
  refine completes_engine_refused (p := []) rfl (h.accepts rfl (by decide)) rfl (gives_bind (gives_getS ?_))
  rw [if_neg (mt accepted_engElse.mp ho), State.engine, accepted_engine, if_pos he]
  exact gives_pure ⟨rfl, rfl⟩

theorem updateEnd_image (he : s.fld HOSTP_STAT_ENGINE = 1) (hg : ¬ (s.dev.hostp.upd.spoilt = false ∧
      s.imgCmacOk 1 s.dev.hostp.upd.hdr (s.bytes 0x30110000 (bundleLen s.dev.hostp.upd.hdr)) = true)) :
    Completes (.updateEnd tr tag) s fun t => t.fld HOSTP_STAT_ENGINE = 0 ∧ s.Answers t tr tag 0x42 0x41 [] (onlyRegs [HOSTP_STAT]) := by
  refine completes_engine_stopped (p := []) rfl (h.accepts rfl (by decide)) rfl (by decide) (by decide) (gives_bind (gives_getS ?_))
  dsimp only
  rw [if_neg (mt accepted_engElse.mp ho), State.engine, accepted_engine, if_neg (not_not.mpr he), if_neg (mt accepted_image.mp hg)]
  refine gives_bind (gives_engStop.mono ?_)
  rintro _ t rfl
  exact gives_pure ⟨rfl, rfl⟩

theorem updateEnd_checked (he : s.fld HOSTP_STAT_ENGINE = 1) (hg : s.dev.hostp.upd.spoilt = false ∧
      s.imgCmacOk 1 s.dev.hostp.upd.hdr (s.bytes 0x30110000 (bundleLen s.dev.hostp.upd.hdr)) = true) :
    Completes (.updateEnd tr tag) s fun t => (t.fld HOSTP_STAT_ENGINE = 2 ∧ t.dev.hostp.upd = s.dev.hostp.upd) ∧
      s.Answers t tr tag 0x42 0 [] (onlyRegs [HOSTP_STAT]) := by
  refine completes_engine (p := []) rfl (h.accepts rfl (by decide)) rfl (by decide) (by decide) (gives_bind (gives_getS ?_))
  dsimp only
  rw [if_neg (mt accepted_engElse.mp ho), State.engine, accepted_engine, if_neg (not_not.mpr he), if_pos (accepted_image.mpr hg)]
  have hc : s.Carried (s.accepted.put HOSTP_STAT_ENGINE 2) tr (onlyRegs [HOSTP_STAT]) := accepted_carried.put rfl
  refine gives_bind (gives_setFld (gives_pure ⟨rfl, hc, fun u ha hf => ⟨?_, ?_⟩⟩))
  · rw [latchEdges_fld, hf, State.fld_put_same engine_full]
    rfl
  · rw [latchEdges_dev]
    exact (congrArg (fun d : Dev => d.hostp.upd) ha.dev :).trans (by rw [State.put_dev, accepted_dev]; rfl)

end
end

/-! ### UPDATE_COMMIT (R406, R438) -/

/-- The reset asked for is told which transmission it follows. -/
def State.resetTied (s : State) (n : Nat) : State :=
  s.live fun d => { d with hostp := { d.hostp with reset := d.hostp.reset.map fun r => { r with job := some n } } }

theorem gives_resetFollows {n : Nat} : (resetFollows n).Gives s fun _ t => t = if n < s.dev.tx.nextId then s.resetTied n else s := by
  refine gives_bind (gives_getS ?_)
  split
  · exact gives_act rfl
  · exact gives_nop rfl

theorem resetTied_port (n k : Nat) : (s.resetTied n).port k = s.port k := by rcases k with _ | _ | k <;> rfl

/-- An answer is as it was once the reset knows what it follows. -/
theorem State.Answers.tied {code st n : Nat} {data : List Byte} {cells : List Nat} {reset : Bool} (h : s.Answers (latchEdges s u) tr tag code st data F cells reset) :
    s.Answers (latchEdges s (u.resetTied n)) tr tag code st data F cells reset where
  counted := h.counted
  event := h.event
  empty := by simpa only [latchEdges_port, resetTied_port] using h.empty
  full := by simpa only [latchEdges_port, resetTied_port] using h.full
  rest := by
    rw [State.within_latch_iff, State.resetTied, State.within_live_iff rfl]
    exact State.within_latch_iff.mp h.rest

section
variable (h : s.Takes tr 0x43)
include h

theorem updateCommit_accepts : s.Accepts tr 0x43 ([] : List Byte).length := h.accepts rfl (by decide)

theorem updateCommit_busy (ho : s.fld HOSTP_STAT_ENGINE ≠ 0 ∧ s.dev.hostp.upd.owner ≠ trNum tr) :
    Completes (.updateCommit tr tag) s fun t => t.dev.hostp.upd = s.dev.hostp.upd ∧ s.Answers t tr tag 0x43 2 [] := by
  have hb : (updateCommit (trNum tr)).Gives s.accepted fun r t => r = stBusy ∧ t = s.accepted := by
    refine gives_bind (gives_getS ?_)
    rw [if_pos (accepted_engElse.mpr ho)]
    exact gives_pure ⟨rfl, rfl⟩
  refine completes_gives rfl (gives_hostCmd (updateCommit_accepts h) (gives_bind (gives_getS (gives_bind (hb.mono ?_)))))
  rintro _ t ⟨rfl, rfl⟩
  rw [if_neg (by decide)]
  refine gives_bind (gives_pure ?_)
  dsimp only
  rw [if_neg (by decide)]
  refine (gives_queueReply tr _).mono fun _ u ⟨ha, hs⟩ => ⟨?_, accepted_carried.answers ha hs (by decide)⟩
  rw [latchEdges_dev]
  exact (congrArg (fun d : Dev => d.hostp.upd) ha.dev :).trans (by rw [accepted_dev]; rfl)

section
variable (ho : ¬ (s.fld HOSTP_STAT_ENGINE ≠ 0 ∧ s.dev.hostp.upd.owner ≠ trNum tr))
include ho

theorem updateCommit_state (he : s.fld HOSTP_STAT_ENGINE ≠ 2) : Completes (.updateCommit tr tag) s fun t => s.Refuses t tr tag 0x43 1 := by
  have hb : (updateCommit (trNum tr)).Gives s.accepted fun r t => r = stState ∧ t = s.accepted := by
    refine gives_bind (gives_getS ?_)
    rw [if_neg (mt accepted_engElse.mp ho), State.engine, accepted_engine, if_pos he]
    exact gives_pure ⟨rfl, rfl⟩
  refine completes_gives rfl (gives_hostCmd (updateCommit_accepts h) (gives_bind (gives_getS (gives_bind (hb.mono ?_)))))
  rintro _ t ⟨rfl, rfl⟩
  rw [if_neg (by decide)]
  refine gives_bind (gives_pure ?_)
  dsimp only
  rw [if_pos (by decide)]
  exact gives_refusedAfter (by rw [accepted_dev]) accepted_port

/-- The state in which UPDATE_COMMIT is answered. -/
def State.committed (s : State) : State :=
  (s.accepted.extProgrammed 0x100080 s.commitMark).engStopped.live fun d =>
    { d with hostp := { d.hostp with reset := some (resetMerge d.hostp.reset { scope := 3, src := 3 }) } }

omit h in
theorem gives_updateCommit (he : s.fld HOSTP_STAT_ENGINE = 2) (hb : ∀ i < 16, s.byte (0x30000000 + 0x100080 + i) = 0xFF) :
    (updateCommit (trNum tr)).Gives s.accepted fun r t => r = stOk ∧ t = s.committed := by
  have hm : s.accepted.commitMark = s.commitMark := by rw [State.commitMark, accepted_bytes, State.commitMark]
  refine gives_bind (gives_getS ?_)
  rw [if_neg (mt accepted_engElse.mp ho), State.engine, accepted_engine, if_neg (not_not.mpr he), hm]
  refine gives_bind ((gives_extPut fun i hi => accepted_blank hb i (by simpa [State.commitMark, State.bytes_length] using hi)).mono ?_)
  rintro _ t rfl
  refine gives_bind (gives_engStop.mono ?_)
  rintro _ t rfl
  exact gives_bind (gives_act (gives_pure ⟨rfl, rfl⟩))

omit h ho in
theorem committed_carried : s.Carried s.committed tr (extFoot 0x100080 16) := by
  have hlen : s.commitMark.length = 16 := by rw [State.commitMark, List.length_append, State.bytes_length]; rfl
  have h1 : s.Carried (s.accepted.extProgrammed 0x100080 s.commitMark) tr (extFoot 0x100080 16) := by
    have h0 : s.Carried s.accepted tr (extFoot 0x100080 s.commitMark.length) := accepted_carried
    have := h0.block
    rwa [hlen] at this
  exact (h1.engStopped rfl).hosted rfl rfl

omit h ho in
theorem committed_reset (hr : s.dev.hostp.reset = none) : s.committed.dev.hostp.reset = some { scope := 3, src := 3 } := by
  have h0 : (s.accepted.extProgrammed 0x100080 s.commitMark).engStopped.dev.hostp.reset = none := by
    rw [State.engStopped, State.updated, State.live_dev, State.put_dev, extProgrammed_hostp, accepted_dev, hr]
  rw [State.committed, State.live_dev, h0]
  rfl

omit h ho in
theorem committed_nextId : s.committed.dev.tx = s.dev.tx := by
  rw [State.committed, State.live_dev, State.engStopped, State.updated, State.live_dev, State.put_dev, State.extProgrammed, State.live_dev, State.putMem_dev,
    accepted_dev]

/-- The engine IDLE, a start reset to follow the reply, the mark in the device. -/
structure State.Committed (s t : State) (n : Nat) : Prop where
  mark : t.bytes 0x30100080 4 = [0x43, 0x4D, 0x49, 0x54]
  tag : t.bytes 0x30100084 12 = s.bytes 0x30100060 12
  idle : t.fld HOSTP_STAT_ENGINE = 0
  reset : ∃ j, t.dev.hostp.reset = some { scope := 3, src := 3, job := j } ∧ (n < 2 → j = none)

omit h ho in
theorem committed_shown (ha : s.committed.Aside (replyFoot tr) u) (he : u.fld HOSTP_STAT_ENGINE = s.committed.fld HOSTP_STAT_ENGINE)
    {v : State} (hb : ∀ a, v.byte a = u.byte a) (hv : v.fld HOSTP_STAT_ENGINE = u.fld HOSTP_STAT_ENGINE) {n : Nat}
    (hj : ∃ j, v.dev.hostp.reset = some { scope := 3, src := 3, job := j } ∧ (n < 2 → j = none)) : s.Committed v n := by
  have hm (x : Nat) (hx : 0x30000000 ≤ x) : v.byte x = (s.accepted.extProgrammed 0x100080 s.commitMark).byte x := by
    rw [hb, ha.ext_byte hx, State.committed, State.live_byte, State.engStopped, updated_byte, State.put_byte]
  have hl : s.commitMark.length = 16 := by rw [State.commitMark, List.length_append, State.bytes_length]; rfl
  have hc : v.bytes 0x30100080 16 = s.commitMark := by
    have hput := State.putMem_bytes s.accepted (extAt 0x100080) s.commitMark
    rw [hl] at hput
    refine (List.map_congr_left fun i _ => ?_).trans hput
    rw [hm _ (by omega), State.extProgrammed, State.live_byte]
    rfl
  have hsplit : v.bytes 0x30100080 4 ++ v.bytes 0x30100084 12 = [0x43, 0x4D, 0x49, 0x54] ++ s.bytes 0x30100060 12 :=
    (v.bytes_add 0x30100080 4 12).symm.trans hc
  obtain ⟨h1, h2⟩ := List.append_inj hsplit (by rw [State.bytes_length]; rfl)
  refine ⟨h1, h2, ?_, hj⟩
  rw [hv, he, State.committed, State.live_fld, engStopped_engine]

theorem updateCommit_commits (he : s.fld HOSTP_STAT_ENGINE = 2) (hb : ∀ i < 16, s.byte (0x30000000 + 0x100080 + i) = 0xFF) (hr : s.dev.hostp.reset = none) :
    Completes (.updateCommit tr tag) s fun t => s.Committed t (trNum tr) ∧ s.Answers t tr tag 0x43 0 [] (extFoot 0x100080 16) [] true := by
  refine completes_gives rfl (gives_hostCmd (updateCommit_accepts h) (gives_bind (gives_getS (gives_bind ((gives_updateCommit ho he hb).mono ?_)))))
  rintro _ t ⟨rfl, ht⟩
  have hcar : s.Carried t tr (extFoot 0x100080 16) := ht ▸ committed_carried
  have hres : t.dev.hostp.reset = some { scope := 3, src := 3 } := ht ▸ committed_reset hr
  have htx : t.dev.tx = s.dev.tx := ht ▸ committed_nextId
  rw [if_pos rfl]
  refine gives_bind (((gives_queueReply tr _).and (queueReply_field rfl engine_full (by decide) tr _)).mono fun _ u ⟨⟨ha, hs⟩, hf⟩ => ?_)
  refine gives_resetFollows.mono ?_
  rintro _ v hv
  have hans := hcar.answers ha hs (by decide : 0x43 < 0x80)
  have hreset : u.dev.hostp.reset = some { scope := 3, src := 3 } := (congrArg (fun d : Dev => d.hostp.reset) ha.dev :).trans hres
  rw [ht] at ha hf
  rw [hv]
  split
  case isTrue hn =>
    refine ⟨committed_shown ha hf (fun a => ?_) ?_ ⟨some s.accepted.dev.tx.nextId, ?_, fun hw => ?_⟩, hans.tied⟩
    · rw [latchEdges_byte, State.resetTied, State.live_byte]
    · rw [latchEdges_fld, State.resetTied, State.live_fld]
    · rw [latchEdges_dev, State.resetTied, State.live_dev, hreset]
      rfl
    · rw [(hs hw).beside, accepted_dev] at hn
      exact absurd hn (by rw [htx]; exact Nat.lt_irrefl _)
  case isFalse =>
    exact ⟨committed_shown ha hf (fun a => latchEdges_byte ..) (latchEdges_fld ..) ⟨none, by rw [latchEdges_dev]; exact hreset, fun _ => rfl⟩, hans⟩

end
end

/-! ### CONFIG_BEGIN, CONFIG_BLOCK and CONFIG_END (R397, R437) -/

section
variable (h : s.Takes tr 0x48) (hp : p.length = 64)
include h hp

theorem configBegin_accepts : s.Accepts tr 0x48 p.length := h.accepts (by rw [hp]; rfl) (by decide)

theorem configBegin_busy (ho : s.fld HOSTP_STAT_ENGINE ≠ 0 ∧ s.dev.hostp.upd.owner ≠ trNum tr) :
    Completes (.configBegin tr tag p) s fun t => t.dev.hostp.upd = s.dev.hostp.upd ∧ s.Answers t tr tag 0x48 2 [] := by
  refine completes_engine_kept rfl (configBegin_accepts h hp) rfl (by decide) (by decide) (gives_bind (gives_getS ?_))
  rw [if_pos (accepted_engElse.mpr ho)]
  exact gives_pure ⟨rfl, rfl⟩

section
variable (ho : ¬ (s.fld HOSTP_STAT_ENGINE ≠ 0 ∧ s.dev.hostp.upd.owner ≠ trNum tr))
include ho

omit hp in
/-- CONFIG_BEGIN by whoever may begin: the engine stops, then the header is looked at. -/
theorem gives_configBegin {Q : Nat → State → Prop} (hq : (if (!s.crewHeaderOk p || decide (crewSeq p ≤ (s.reg SYS_CREWSEQ).toNat)) = true then (pure stHeader : M Nat)
      else do
        extErase (0x10000 * s.accepted.otherSlot) 0x10000
        extPut (0x10000 * s.accepted.otherSlot) p
        setEngine engConfig
        modUpd fun _ => { owner := trNum tr, hdr := p, slot := s.accepted.otherSlot }
        return stOk).Gives s.accepted.engStopped Q) : (configBegin (trNum tr) p).Gives s.accepted Q := by
  refine gives_bind (gives_getS ?_)
  rw [if_neg (mt accepted_engElse.mp ho)]
  refine gives_bind (gives_engStop.mono ?_)
  rintro _ t rfl
  rwa [engine_lc (of_decide_eq_true h.lc), if_neg Bool.false_ne_true, accepted_crewHeaderOk, accepted_reg (by decide)]

theorem configBegin_header (hb : s.crewHeaderOk p = false ∨ crewSeq p ≤ (s.reg SYS_CREWSEQ).toNat) :
    Completes (.configBegin tr tag p) s fun t => t.fld HOSTP_STAT_ENGINE = 0 ∧ s.Answers t tr tag 0x48 0x40 [] (onlyRegs [HOSTP_STAT]) := by
  refine completes_engine_stopped rfl (configBegin_accepts h hp) rfl (by decide) (by decide) (gives_configBegin h ho ?_)
  rw [if_pos (by simpa using hb)]
  exact gives_pure ⟨rfl, rfl⟩

theorem configBegin_begins {slot : Nat} (hs : 1 - s.fld SYS_BOOTINFO_SLOT = slot) (hb : s.crewHeaderOk p = true)
    (hv : (s.reg SYS_CREWSEQ).toNat < crewSeq p) :
    Completes (.configBegin tr tag p) s fun t =>
      (t.fld HOSTP_STAT_ENGINE = 3 ∧ t.dev.hostp.upd = { owner := trNum tr, hdr := p, slot := slot } ∧ t.Staged (0x10000 * slot) 0x10000 p) ∧
        s.Answers t tr tag 0x48 0 [] (extFoot (0x10000 * slot) 0x10000) := by
  have hslot : s.accepted.otherSlot = slot := by rw [State.otherSlot, accepted_fld (by decide), hs]
  have hle : slot ≤ 1 := by omega
  refine completes_engine rfl (configBegin_accepts h hp) rfl (by decide) (by decide) (gives_configBegin h ho ?_)
  rw [if_neg (by simp [hb, hv]), hslot]
  exact gives_begin (by rw [Nat.mul_div_cancel_left _ (by norm_num), Nat.mul_comm]) (by rw [ceilDiv]; omega) (by omega) (by omega) (by decide)

end
end

section
variable (h : s.Takes tr 0x49) (hz : sizeOk 0x49 p.length (trNum tr == 2) = true)
include h hz

theorem configBlock_busy (ho : s.fld HOSTP_STAT_ENGINE ≠ 0 ∧ s.dev.hostp.upd.owner ≠ trNum tr) :
    Completes (.configBlock tr tag p) s fun t => t.dev.hostp.upd = s.dev.hostp.upd ∧ s.Answers t tr tag 0x49 2 [] := by
  refine completes_engine_kept rfl (h.accepts hz (by decide)) rfl (by decide) (by decide) (gives_bind (gives_getS ?_))
  dsimp only
  rw [if_pos (accepted_engElse.mpr ho)]
  exact gives_pure ⟨rfl, rfl⟩

section
variable (ho : ¬ (s.fld HOSTP_STAT_ENGINE ≠ 0 ∧ s.dev.hostp.upd.owner ≠ trNum tr))
include ho

theorem configBlock_state (he : s.fld HOSTP_STAT_ENGINE ≠ 3) : Completes (.configBlock tr tag p) s fun t => s.Refuses t tr tag 0x49 1 := by
  refine completes_engine_refused rfl (h.accepts hz (by decide)) rfl (gives_bind (gives_getS ?_))
  dsimp only
  rw [if_neg (mt accepted_engElse.mp ho), State.engine, accepted_engine, if_pos he]
  exact gives_pure ⟨rfl, rfl⟩

omit h hz in
/-- CONFIG_BLOCK while a crew sheet is received. -/
theorem gives_configBlock (he : s.fld HOSTP_STAT_ENGINE = 3) {Q : Nat → State → Prop}
    (hq : (if numAt p 0 4 < 64 ∨ crewLen s.dev.hostp.upd.hdr < numAt p 0 4 + (p.drop 4).length then (pure stOffset : M Nat)
      else do
        extPut (0x10000 * s.dev.hostp.upd.slot + numAt p 0 4) (p.drop 4)
        return stOk).Gives s.accepted Q) : (configBlock (trNum tr) (numAt p 0 4) (p.drop 4)).Gives s.accepted Q := by
  refine gives_bind (gives_getS ?_)
  dsimp only
  rw [if_neg (mt accepted_engElse.mp ho), State.engine, accepted_engine, if_neg (not_not.mpr he), accepted_dev]
  exact hq

theorem configBlock_offset (he : s.fld HOSTP_STAT_ENGINE = 3)
    (hl : ¬ (64 ≤ numAt p 0 4 ∧ numAt p 0 4 + (p.drop 4).length ≤ crewLen s.dev.hostp.upd.hdr)) :
    Completes (.configBlock tr tag p) s fun t => t.dev.hostp.upd = s.dev.hostp.upd ∧ s.Answers t tr tag 0x49 0x43 [] := by
  refine completes_engine_kept rfl (h.accepts hz (by decide)) rfl (by decide) (by decide) (gives_configBlock ho he ?_)
  rw [if_pos (by omega)]
  exact gives_pure ⟨rfl, rfl⟩

theorem configBlock_programs (he : s.fld HOSTP_STAT_ENGINE = 3)
    (hl : 64 ≤ numAt p 0 4 ∧ numAt p 0 4 + (p.drop 4).length ≤ crewLen s.dev.hostp.upd.hdr)
    (hb : ∀ i < (p.drop 4).length, s.byte (0x30000000 + (0x10000 * s.dev.hostp.upd.slot + numAt p 0 4) + i) = 0xFF) :
    Completes (.configBlock tr tag p) s fun t =>
      (t.Holds (0x10000 * s.dev.hostp.upd.slot + numAt p 0 4) (p.drop 4) ∧ t.dev.hostp.upd = s.dev.hostp.upd) ∧
        s.Answers t tr tag 0x49 0 [] (extFoot (0x10000 * s.dev.hostp.upd.slot + numAt p 0 4) (p.drop 4).length) := by
  refine completes_engine rfl (h.accepts hz (by decide)) rfl (by decide) (by decide) (gives_configBlock ho he ?_)
  rw [if_neg (by omega)]
  refine gives_bind ((gives_extPut (accepted_blank hb)).mono ?_)
  rintro _ t rfl
  refine gives_pure ⟨rfl, accepted_carried.block, fun u ha _ => ⟨programmed_shown ha, ?_⟩⟩
  rw [latchEdges_dev]
  refine (congrArg (fun d : Dev => d.hostp.upd) ha.dev :).trans ?_
  change (s.accepted.extProgrammed _ _).dev.hostp.upd = _
  rw [extProgrammed_hostp, accepted_dev]

end
end

section
variable (h : s.Takes tr 0x4A)
include h

theorem configEnd_busy (ho : s.fld HOSTP_STAT_ENGINE ≠ 0 ∧ s.dev.hostp.upd.owner ≠ trNum tr) :
    Completes (.configEnd tr tag) s fun t => t.dev.hostp.upd = s.dev.hostp.upd ∧ s.Answers t tr tag 0x4A 2 [] := by
  refine completes_engine_kept (p := []) rfl (h.accepts rfl (by decide)) rfl (by decide) (by decide) (gives_bind (gives_getS ?_))
  dsimp only
  rw [if_pos (accepted_engElse.mpr ho)]
  exact gives_pure ⟨rfl, rfl⟩

section
variable (ho : ¬ (s.fld HOSTP_STAT_ENGINE ≠ 0 ∧ s.dev.hostp.upd.owner ≠ trNum tr))
include ho

theorem configEnd_state (he : s.fld HOSTP_STAT_ENGINE ≠ 3) : Completes (.configEnd tr tag) s fun t => s.Refuses t tr tag 0x4A 1 := by
  refine completes_engine_refused (p := []) rfl (h.accepts rfl (by decide)) rfl (gives_bind (gives_getS ?_))
  dsimp only
  rw [if_neg (mt accepted_engElse.mp ho), State.engine, accepted_engine, if_pos he]
  exact gives_pure ⟨rfl, rfl⟩

omit h ho in
theorem crewStatus_ne (l : List Byte) : s.crewStatus 1 l ≠ stState := by
  rw [State.crewStatus]
  split
  · decide
  · split <;> decide

theorem configEnd_checks (he : s.fld HOSTP_STAT_ENGINE = 3) :
    Completes (.configEnd tr tag) s fun t => t.fld HOSTP_STAT_ENGINE = 0 ∧ s.Answers t tr tag 0x4A
      (s.crewStatus 1 (s.bytes (0x30000000 + 0x10000 * s.dev.hostp.upd.slot) (crewLen s.dev.hostp.upd.hdr))) [] (onlyRegs [HOSTP_STAT]) := by
  refine completes_engine_stopped (p := []) rfl (h.accepts rfl (by decide)) rfl (by decide) (crewStatus_ne _) (gives_bind (gives_getS ?_))
  dsimp only
  rw [if_neg (mt accepted_engElse.mp ho), State.engine, accepted_engine, if_neg (not_not.mpr he), accepted_crewStatus, accepted_bytes, accepted_dev]
  refine gives_bind (gives_engStop.mono ?_)
  rintro _ t rfl
  exact gives_pure ⟨rfl, rfl⟩

end
end

/-- Settles O51: each command is read off the model on the counted state, and its reply leaves the engine's field and external
flash, so what the engine has done is seen behind it; a stretch that was erased holds exactly what is programmed in it. -/
theorem updateEngine : Obligations.UpdateEngine := by
  unfold Obligations.UpdateEngine
  intro tr tag p s e u other F ext idle erased len whole blank off l put
  refine ⟨fun h hp => ⟨updateBegin_busy h hp, fun ho => ⟨updateBegin_header h hp ho, updateBegin_auth h hp ho, updateBegin_rollback h hp ho,
      fun hb hm hv => (updateBegin_begins h hp ho rfl hb hm hv).imp ?_⟩⟩,
    fun h _ hz => ⟨updateBlock_busy h hz, fun ho he => updateBlock_state h hz ho he, fun ho he hl => updateBlock_offset h hz ho he hl,
      fun ho he hl hb => (updateBlock_programs h hz ho he hl hb).imp ?_⟩,
    fun h => ⟨updateEnd_busy h, fun ho he => updateEnd_state h ho he, fun ho he hg => (updateEnd_checked h ho he hg).imp ?_,
      fun ho he hg => updateEnd_image h ho he hg⟩,
    fun h => ⟨updateCommit_busy h, fun ho he => updateCommit_state h ho he, fun ho he hb hr => (updateCommit_commits h ho he hb hr).imp ?_⟩,
    fun h hp => ⟨configBegin_busy h hp, fun ho hb => configBegin_header h hp ho hb, fun ho hb hv => (configBegin_begins h hp ho rfl hb hv).imp ?_⟩,
    fun h _ hz => ⟨configBlock_busy h hz, fun ho he => configBlock_state h hz ho he, fun ho he hl => configBlock_offset h hz ho he hl,
      fun ho he hl hb => (configBlock_programs h hz ho he hl hb).imp ?_⟩,
    fun h => ⟨configEnd_busy h, fun ho he => configEnd_state h ho he, fun ho he => configEnd_checks h ho he⟩⟩
  · rintro t ⟨⟨h1, h2, h3⟩, h4⟩
    exact ⟨h1, h2, ⟨h3.header, h3.blank⟩, h4⟩
  · rintro t ⟨⟨h1, h2⟩, h3⟩
    exact ⟨h1, h2, h3⟩
  · rintro t ⟨⟨h1, h2⟩, h3⟩
    exact ⟨h1, h2, h3⟩
  · rintro t ⟨⟨h1, h2, h3, h4⟩, h5⟩
    exact ⟨h1, h2, h3, h4, h5⟩
  · rintro t ⟨⟨h1, h2, h3⟩, h4⟩
    exact ⟨h1, h2, ⟨h3.header, h3.blank⟩, h4⟩
  · rintro t ⟨⟨h1, h2⟩, h3⟩
    exact ⟨h1, h2, h3⟩

end Sys2Proof.Machine
end

section
/-!
Frames as octets on the host port's wires: frames discarded, frames that leave, transactions on SPI (R420–R426, R435, R438, R446,
R447).
-/
namespace Sys2Proof.Machine
open Sys2Proof.Reg

variable {s t u : State} {F : Foot} {tr : Tr} {tag : Byte} {n : Nat}

/-! ### Frames discarded (R422) -/

section
variable {c : Instr} {m : M Unit} (hx : exec c s = cmd s m)
include hx

theorem completes_still (h : m.Gives s fun _ t => t = s) : Completes c s fun t => t.dev.hostp = s.dev.hostp ∧ s.Within {} t :=
  completes_gives hx (h.mono fun _ t ht => by rw [ht]; exact ⟨by rw [latchEdges_dev], by rw [State.within_latch_iff]; exact s.within_refl _⟩)

end

theorem gives_frameBad_off {code tag : Nat} (h : ¬ (s.trOn (trNum tr) = true ∧ s.portAwake = true)) : (frameBad tr code tag).Gives s fun _ t => t = s := by
  refine gives_bind (gives_getS ?_)
  rw [if_neg (by simpa using h)]
  exact gives_pure rfl

theorem gives_frameCrc_off (h : ¬ (s.trOn (trNum tr) = true ∧ s.portAwake = true)) : (frameCrc tr).Gives s fun _ t => t = s := by
  refine gives_bind (gives_getS ?_)
  rw [if_neg (by simpa using h)]
  exact gives_pure rfl

/-- A state in which a frame is discarded with LENGTH: counted. -/
def State.lengthCounted (s : State) : State := s.counted hostpPage 2 0 (min 0xFFFFFFFF (s.ctr hostpPage 2 0 + 1))

theorem gives_frameBad {code tag : Nat} (h : s.trOn (trNum tr) = true ∧ s.portAwake = true) : (frameBad tr code tag).Gives s fun _ t =>
    s.lengthCounted.Aside (replyFoot tr) t ∧ (trNum tr < 2 → s.lengthCounted.Refused t (trNum tr) (replyFrame code tag 4 [])) := by
  refine gives_bind (gives_getS ?_)
  rw [if_pos (by simpa using h)]
  refine gives_bind (((total_count ..).gives_run s).mono fun _ t ht => ?_)
  rw [ht, run_count]
  exact gives_refuse tr code tag stLength

theorem completes_frameBad {c : Instr} {code : Nat} (hx : exec c s = cmd s (frameBad tr code tag.toNat)) (h : s.trOn (trNum tr) = true ∧ s.portAwake = true) :
    Completes c s fun t => s.Refuses t tr tag code 4 ∧ t.ctr hostpPage 2 0 = min 0xFFFFFFFF (s.ctr hostpPage 2 0 + 1) := by
  refine completes_gives hx ((gives_frameBad h).mono fun _ t ⟨ha, hr⟩ => ⟨ha.refuses hr rfl State.counted_within, ?_⟩)
  exact (ha.ctr 4 (by decide)).trans (State.ctr_counted_same ..)

theorem gives_frameCrc (h : s.trOn (trNum tr) = true ∧ s.portAwake = true) : (frameCrc tr).Gives s fun _ t =>
    t = s.counted hostpPage 1 3 (min 0xFFFFFFFF (s.ctr hostpPage 1 3 + 1)) := by
  refine gives_bind (gives_getS ?_)
  rw [if_pos (by simpa using h)]
  exact ((total_count ..).gives_run s).mono fun _ t ht => ht.trans (run_count ..)

theorem completes_frameCrc {c : Instr} (hx : exec c s = cmd s (frameCrc tr)) (h : s.trOn (trNum tr) = true ∧ s.portAwake = true) :
    Completes c s fun t => t.dev.hostp = s.dev.hostp ∧ t.ctr hostpPage 1 3 = min 0xFFFFFFFF (s.ctr hostpPage 1 3 + 1) ∧ s.Within {} t := by
  refine completes_gives hx ((gives_frameCrc h).mono fun _ t ht => ?_)
  rw [ht]
  exact ⟨by rw [latchEdges_dev, State.counted_dev], State.ctr_counted_same .., by rw [State.within_latch_iff]; exact State.counted_within⟩

/-- The gap of a frame on the UART: what has come of it is dropped. -/
theorem completes_gap : Completes .uartGapTimeout s fun t =>
    t.dev.hostp = { s.dev.hostp with buf := [], esc := false, isOpen := false } ∧ s.Within {} t :=
  completes_gives rfl (gives_act ⟨by rw [latchEdges_dev]; rfl, by rw [State.within_latch_iff]; exact State.within_live s rfl⟩)

/-! ### A frame that leaves (R423, R424, R435) -/

/-- From `s` to `t` the first frame that waits at a transport has left. -/
structure State.Left (s t : State) (n : Nat) : Prop where
  abort : (s.port n).aborts ≠ [] →
    (t.port n).aborts = (s.port n).aborts.drop 1 ∧ (t.port n).reply = (s.port n).reply ∧ (t.port n).refusal = (s.port n).refusal
  reply : (s.port n).aborts = [] → ∀ r, (s.port n).reply = some r → r.reset = false →
    (t.port n).reply = (s.port n).held ∧ (t.port n).held = none ∧ (t.port n).refusal = (s.port n).refusal ∧
      ((s.port n).held ≠ none → (t.port n).out = none) ∧ ∀ c ∈ r.cells, (t.cell c).owner ≠ ownHost
  refusal : (s.port n).aborts = [] → (s.port n).reply = none → (s.port n).refusal ≠ none →
    (t.port n).refusal = none ∧ t.dev.hostp.txdone = s.dev.hostp.txdone
  note : (s.port n).aborts = [] → (s.port n).reply = none → (s.port n).refusal = none → s.fld HOSTP_CFG_NOTE = n + 1 →
    if s.dev.hostp.rxNote = true then t.dev.hostp.rxNote = false ∧ t.dev.hostp.txdone = s.dev.hostp.txdone
    else t.dev.hostp.txdone = s.dev.hostp.txdone.drop 16

theorem gives_releaseHost (l : List Nat) : (releaseHost l).Gives s fun _ t => s.CellsOnly t ∧ ∀ c ∈ l, (t.cell c).owner ≠ ownHost := by
  refine gives_bind (gives_getS ((gives_releaseCells s _).mono fun _ t ⟨ht, hc⟩ => ⟨ht, fun c hl => ?_⟩))
  rw [hc]
  simp only [List.mem_filter, beq_iff_eq]
  split
  next =>
    rw [State.letGo]
    split
    · exact (by decide : ownLink ≠ ownHost)
    · exact (by decide : ownFree ≠ ownHost)
  next h => exact fun ho => h ⟨hl, ho⟩

theorem ported_cell (f : Port → Port) (x : Nat) : (s.ported n f).cell x = s.cell x := State.cell_congr (by rw [State.ported, State.live_dev]) x

/-- A reply leaves: its cells go free, and the one that was held takes the slot. -/
theorem gives_popReply {r : Reply} (hr : (s.port n).reply = some r) (hz : r.reset = false) : (popReply n).Gives s fun _ t =>
    ((t.port n).reply = (s.port n).held ∧ (t.port n).held = none ∧ (t.port n).refusal = (s.port n).refusal ∧
      ((s.port n).held ≠ none → (t.port n).out = none) ∧ ∀ c ∈ r.cells, (t.cell c).owner ≠ ownHost) ∧ s.Within (onlyRegs [HOSTP_STAT]) t := by
  refine gives_bind (gives_getS ?_)
  rw [hr]
  refine gives_bind ((gives_releaseHost r.cells).mono fun _ t ⟨ht, hc⟩ => ?_)
  have hp : t.port n = s.port n := State.port_congr (by rw [ht.dev]) n
  cases hh : (s.port n).held with
  | none =>
    refine gives_bind (((total_act _).gives_run t).mono fun _ u hu => ?_)
    rw [hz, if_neg Bool.false_ne_true]
    have hu : u = t.ported n fun p => { p with reply := none } := hu
    refine gives_pure ⟨?_, ?_⟩
    · rw [hu, State.port_ported, hp]
      exact ⟨rfl, hh, rfl, fun h => absurd rfl h, fun c h => by rw [ported_cell]; exact hc c h⟩
    · rw [hu, State.ported, State.within_live_iff rfl]
      exact ht.within _
  | some h =>
    refine gives_bind (((total_act _).gives_run t).mono fun _ u hu => gives_bind (((total_setOut n none).gives_run u).mono fun _ v hv => ?_))
    rw [hz, if_neg Bool.false_ne_true]
    have hu : u = t.ported n fun p => { p with reply := some h, held := none } := hu
    rw [run_setOut] at hv
    refine gives_pure ⟨?_, ?_⟩
    · rw [hv, State.port_outSet, hu, State.port_ported, hp]
      refine ⟨rfl, rfl, rfl, fun _ => rfl, fun c h => ?_⟩
      rw [State.cell_congr (State.outSet_cells _ _), ported_cell]
      exact hc c h
    · rw [hv]
      refine State.Within.trans ?_ (State.outSet_within _ _ rfl)
      rw [hu, State.ported, State.within_live_iff rfl]
      exact ht.within _

/-- A note leaves, where one waits. -/
theorem gives_popNote (hn : n < 2) : (if (s.noteOf n).isSome then popNote else nop).Gives s fun _ t =>
    (s.fld HOSTP_CFG_NOTE = n + 1 → if s.dev.hostp.rxNote = true then t.dev.hostp.rxNote = false ∧ t.dev.hostp.txdone = s.dev.hostp.txdone
      else t.dev.hostp.txdone = s.dev.hostp.txdone.drop 16) ∧ s.Within (onlyRegs [HOSTP_STAT]) t := by
  split
  case isTrue =>
    refine gives_act ⟨fun _ => ?_, State.within_live s rfl⟩
    split
    next h => simp [h]
    next h => simp [h]
  case isFalse h =>
    refine gives_nop ⟨fun hc => ?_, s.within_refl _⟩
    rw [State.noteOf, if_neg (by omega)] at h
    split
    next hx => rw [if_pos hx] at h; exact absurd rfl h
    next hx =>
      rw [if_neg hx] at h
      cases hl : s.dev.hostp.txdone with
      | nil => rfl
      | cons x l => rw [hl, if_neg (by exact Bool.false_ne_true)] at h; exact absurd rfl h

/-- The first frame that waits leaves: an ABORT's reply, a reply, a refusal, or a note. -/
theorem gives_popFrame (hn : n < 2) (hz : ∀ r, (s.port n).reply = some r → r.reset = false) :
    (popFrame n).Gives s fun _ t => s.Left t n ∧ s.Within (onlyRegs [HOSTP_STAT]) t := by
  refine gives_bind (gives_getS ?_)
  dsimp only
  by_cases ha : (s.port n).aborts = []
  case neg =>
    rw [if_pos (by simpa using ha)]
    refine ((total_act _).gives_run s).mono fun _ t ht => ?_
    have ht : t = s.ported n fun q => { q with aborts := q.aborts.drop 1 } := ht
    have hp : t.port n = { s.port n with aborts := (s.port n).aborts.drop 1 } := by rw [ht, State.port_ported]
    refine ⟨⟨fun _ => by rw [hp]; exact ⟨rfl, rfl, rfl⟩, fun h => absurd h ha, fun h => absurd h ha, fun h => absurd h ha⟩, ?_⟩
    rw [ht, State.ported, State.within_live_iff rfl]
    exact s.within_refl _
  rw [if_neg (by rw [ha]; decide)]
  cases hr : (s.port n).reply with
  | some r =>
    rw [if_pos (by rfl)]
    refine (gives_popReply hr (hz r hr)).mono fun _ t ⟨h, hw⟩ => ⟨⟨fun h => absurd ha h, ?_, fun _ h => ?_, fun _ h => ?_⟩, hw⟩
    · rintro _ r' hr' -
      obtain rfl : r = r' := Option.some.inj (hr.symm.trans hr')
      exact h
    · rw [hr] at h; exact absurd h (by simp)
    · rw [hr] at h; exact absurd h (by simp)
  | none =>
    rw [if_neg (by exact Bool.false_ne_true)]
    cases hf : (s.port n).refusal with
    | some f =>
      rw [if_pos (by rfl)]
      refine ((total_act _).gives_run s).mono fun _ t ht => ?_
      have ht : t = s.ported n fun q => { q with refusal := none } := ht
      have hp : t.port n = { s.port n with refusal := none } := by rw [ht, State.port_ported]
      refine ⟨⟨fun h => absurd ha h, fun _ r h => ?_, fun _ _ _ => ⟨by rw [hp], ?_⟩, fun _ _ h => ?_⟩, ?_⟩
      · rw [hr] at h; exact absurd h (by simp)
      · rw [ht, State.ported, State.live_dev]
        rcases n with _ | _ | n <;> rfl
      · rw [hf] at h; exact absurd h (by simp)
      · rw [ht, State.ported, State.within_live_iff rfl]
        exact s.within_refl _
    | none =>
      rw [if_neg (by exact Bool.false_ne_true)]
      refine (gives_popNote hn).mono fun _ t ⟨h, hw⟩ => ⟨⟨fun h => absurd ha h, fun _ r h => ?_, fun _ _ h => absurd hf h, fun _ _ _ => h⟩, hw⟩
      rw [hr] at h; exact absurd h (by simp)

theorem completes_uartSent_off (h : ¬ (s.portAwake = true ∧ s.bit HOSTP_CFG_UARTEN = true)) :
    Completes .hostUartFrameSent s fun t => t.dev.hostp = s.dev.hostp ∧ s.Within {} t := by
  refine completes_still rfl ?_
  rw [if_neg h]
  exact gives_pure rfl

/-- What has left is not brought back by the latches of lines. -/
theorem State.Left.latch (h : s.Left t n) : s.Left (latchEdges u t) n := ⟨h.abort, h.reply, h.refusal, h.note⟩

theorem completes_uartSent (ha : s.portAwake = true) (he : s.bit HOSTP_CFG_UARTEN = true) (hz : ∀ r, (s.port 1).reply = some r → r.reset = false) :
    Completes .hostUartFrameSent s fun t => s.Left t 1 ∧ s.Within (onlyRegs [HOSTP_STAT]) t := by
  refine completes_gives rfl ?_
  rw [if_pos ⟨ha, he⟩]
  exact (gives_popFrame (by decide) hz).mono fun _ t ⟨h, hw⟩ => ⟨h.latch, State.within_latch_iff.mpr hw⟩

/-! ### A transaction on SPI (R424, R447) -/

/-- The state in which a transaction is carried out: its beginning counted, its OP shown, the lost frame forgotten. -/
def State.spiOpened (s : State) (op : Nat) : State :=
  ((((emit pwrPage 0x18).run s).counted spihPage 1 0 (min 0xFFFFFFFF (s.ctr spihPage 1 0 + 1))).put SPIH_STAT_OP op).ported 0
    fun p => { p with dropped := false }

/-- The state after a transaction: what was sent, and the octets counted. -/
def State.spiClosed (s : State) (m : List Byte) (taken sent : Nat) : State :=
  let u := s.live fun d => { d with hostp := { d.hostp with miso := m } }
  let v := u.counted spihPage 2 2 (min 0xFFFFFFFF (u.ctr spihPage 2 2 + (4 + taken)))
  v.counted spihPage 2 3 (min 0xFFFFFFFF (v.ctr spihPage 2 3 + (4 + sent)))

section
variable {op : Nat}

theorem spiOpened_within : s.Within (onlyRegs (SPIH_STAT :: perfRegs pwrPage)) (s.spiOpened op) := by
  rw [State.spiOpened, State.ported, State.within_live_iff rfl, State.within_put_iff rfl]
  exact ((emit_unlatched s pwrPage (e := 0x18) (by decide)).1.within.of_onlyRegs fun a ha => decide_eq_true (List.mem_cons_of_mem _ ha)).trans State.counted_within

theorem spiOpened_hostp : (s.spiOpened op).dev.hostp = { s.dev.hostp with spi := { s.dev.hostp.spi with dropped := false } } := by
  rw [State.spiOpened, State.ported, State.live_dev, State.put_dev, State.counted_dev, emit_unlatched_dev (by decide)]
  rfl

theorem spiOpened_events : (s.spiOpened op).events = s.events ++ [0x18] := by
  rw [State.spiOpened, State.ported, State.live_events, State.put_events, State.counted_events, emit_events (by decide)]

theorem spiOpened_ctr {p i w : Nat} (h : ctrKey p i w ≠ ctrKey spihPage 1 0) : (s.spiOpened op).ctr p i w = s.ctr p i w := by
  rw [State.spiOpened, State.ported, State.ctr_live rfl, State.ctr_put, State.ctr_counted_other h, State.ctr_emit]

theorem spiOpened_count : (s.spiOpened op).ctr spihPage 1 0 = min 0xFFFFFFFF (s.ctr spihPage 1 0 + 1) := by
  rw [State.spiOpened, State.ported, State.ctr_live rfl, State.ctr_put, State.ctr_counted_same]

theorem spiOpened_reg {a : Nat} (h : a ∉ SPIH_STAT :: perfRegs pwrPage) : (s.spiOpened op).reg a = s.reg a := spiOpened_within.reg h
theorem spiOpened_fld {f : Fld} (h : f.addr ∉ SPIH_STAT :: perfRegs pwrPage) : (s.spiOpened op).fld f = s.fld f := by
  rw [State.fld, spiOpened_reg h, State.fld]

theorem spiOpened_op (h : op < 4) : (s.spiOpened op).fld SPIH_STAT_OP = op := by
  rw [State.spiOpened, State.ported, State.live_fld, State.fld_put_same (Fld.full_of_settable (by decide))]
  exact Nat.mod_eq_of_lt h

end

theorem State.noteOf_congr (hh : t.dev.hostp = s.dev.hostp) (hf : t.fld HOSTP_CFG_NOTE = s.fld HOSTP_CFG_NOTE) : t.noteOf n = s.noteOf n := by
  rw [State.noteOf, hh, hf, State.noteOf]

theorem State.waiting_congr (hh : t.dev.hostp = s.dev.hostp) (hf : t.fld HOSTP_CFG_NOTE = s.fld HOSTP_CFG_NOTE) : t.waiting n = s.waiting n := by
  rw [State.waiting, State.port_congr hh, State.noteOf_congr hh hf, State.waiting]

theorem State.spiStatus_congr (hh : t.dev.hostp = s.dev.hostp) (hs : t.dev.sys = s.dev.sys) (hf : t.fld HOSTP_CFG_NOTE = s.fld HOSTP_CFG_NOTE) :
    t.spiStatus = s.spiStatus := by
  rw [State.spiStatus, State.waiting_congr hh hf, State.port_congr hh, hs, State.spiStatus]

/-- The status octets, as R424 lists them. -/
theorem spiStatus_eq : s.spiStatus =
    leBytes 1 ((if s.waiting 0 = [] then 0 else 1) + 2 * (if (s.port 0).out = none then 0 else 1) + 4 * (if s.dev.sys.phase = .dead then 1 else 0) +
      8 * (if (s.port 0).dropped = true then 1 else 0)) ++ [0] ++ leBytes 2 ((s.waiting 0).headD []).length := by
  have h1 : b2n (!(s.waiting 0).isEmpty) = if s.waiting 0 = [] then 0 else 1 := by cases s.waiting 0 <;> rfl
  have h2 : b2n (s.port 0).out.isSome = if (s.port 0).out = none then 0 else 1 := by cases (s.port 0).out <;> rfl
  have h3 : b2n (s.dev.sys.phase == .dead) = if s.dev.sys.phase = .dead then 1 else 0 := by cases s.dev.sys.phase <;> rfl
  have h4 : b2n (s.port 0).dropped = if (s.port 0).dropped = true then 1 else 0 := by cases (s.port 0).dropped <;> rfl
  rw [State.spiStatus, h1, h2, h3, h4]
  cases s.waiting 0 <;> rfl

theorem total_countN (b p i w k : Nat) : (countN b p i w k).Total := total_bind total_getS fun _ => total_act _

/-- SPI receives: the device is in a state with its clocks, the transport enabled. -/
structure State.SpiLive (s : State) : Prop where
  easy : s.dev.pwr.state ≠ .easy
  rest : s.dev.pwr.state ≠ .rest
  on : s.bit HOSTP_CFG_SPIEN = true

theorem gives_spiBegin {early : Bool} {op : Nat} {body : M (List Byte × Nat)} {Q : Unit → State → Prop} (hl : s.SpiLive)
    (hb : body.Gives (s.spiOpened op) fun r t => Q () (t.spiClosed (s.spiStatus ++ r.1) r.2 r.1.length)) : (spiBegin early op body).Gives s Q := by
  obtain ⟨he, hr, hon⟩ := hl
  refine gives_bind (gives_getS (gives_bind (((total_emit pwrPage 0x18).gives_run s).mono fun _ t ht => ?_)))
  have htd : t.dev = s.dev := by rw [ht, emit_unlatched_dev (by decide)]
  have htr {a : Nat} (h : a ∉ perfRegs pwrPage) : t.reg a = s.reg a := by rw [ht]; exact (emit_unlatched s pwrPage (by decide)).1.within.reg h
  split
  next h => exact absurd h he
  next =>
    rw [if_neg hr]
    refine gives_bind (gives_getS ?_)
    rw [if_pos (by rw [State.bit, State.fld, htr (by decide)]; exact hon)]
    refine gives_bind (((total_count ..).gives_run t).mono fun _ u hu => ?_)
    rw [if_neg (by simp [hr])]
    refine gives_bind (((total_setFld ..).gives_run u).mono fun _ v hv => gives_bind (((total_act _).gives_run v).mono fun _ w hw => ?_))
    have hopened : w = s.spiOpened op := by
      rw [run_count, State.ctr, htd, ← State.ctr] at hu
      rw [State.spiOpened, ← ht, ← hu]
      rw [run_setFld] at hv
      rw [← hv]
      exact hw
    have hhead : t.spiStatus = s.spiStatus := State.spiStatus_congr (by rw [htd]) (by rw [htd]) (by rw [State.fld, htr (by decide), State.fld])
    rw [hopened, hhead]
    refine gives_bind (hb.mono ?_)
    rintro ⟨out, taken⟩ x hq
    refine gives_bind (((total_act _).gives_run x).mono fun _ y hy => ?_)
    refine gives_bind (((total_countN ..).gives_run y).mono fun _ z hz => ((total_countN ..).gives_run z).mono fun _ k hk => ?_)
    rw [run_countN] at hz hk
    rw [hk, hz, hy]
    exact hq

section
variable {m : List Byte} {k l : Nat}

theorem spiClosed_hostp : (s.spiClosed m k l).dev.hostp = { s.dev.hostp with miso := m } := by
  rw [State.spiClosed, State.counted_dev, State.counted_dev, State.live_dev]

theorem spiClosed_port (n : Nat) : (s.spiClosed m k l).port n = s.port n := by
  rcases n with _ | _ | n <;> simp only [State.port, spiClosed_hostp]

theorem spiClosed_reg (a : Nat) : (s.spiClosed m k l).reg a = s.reg a := by rw [State.spiClosed, State.counted_reg, State.counted_reg, State.live_reg]
theorem spiClosed_fld (f : Fld) : (s.spiClosed m k l).fld f = s.fld f := by rw [State.fld, spiClosed_reg, State.fld]
theorem spiClosed_events : (s.spiClosed m k l).events = s.events := by
  rw [State.spiClosed, State.counted_events, State.counted_events, State.live_events]
theorem spiClosed_cell (x : Nat) : (s.spiClosed m k l).cell x = s.cell x :=
  State.cell_congr (by rw [State.spiClosed, State.counted_dev, State.counted_dev, State.live_dev]) x

theorem spiClosed_ctr {p i w : Nat} (h2 : ctrKey p i w ≠ ctrKey spihPage 2 2) (h3 : ctrKey p i w ≠ ctrKey spihPage 2 3) :
    (s.spiClosed m k l).ctr p i w = s.ctr p i w := by
  rw [State.spiClosed, State.ctr_counted_other h3, State.ctr_counted_other h2, State.ctr_live rfl]

theorem spiClosed_within : s.Within F (s.spiClosed m k l) := by
  rw [State.spiClosed]
  exact (State.within_live s (f := fun d => { d with hostp := { d.hostp with miso := m } }) rfl).trans (State.counted_within.trans State.counted_within)

end

/-- What every transaction shows: its octets, its OP, the rest within a footprint. -/
structure State.SpiDone (s t : State) (op : Nat) (out : List Byte) (l : List Nat) : Prop where
  miso : t.dev.hostp.miso = s.spiStatus ++ out
  op : t.fld SPIH_STAT_OP = op
  within : s.Within (onlyRegs (l ++ ([SPIH_STAT, HOSTP_STAT] ++ perfOf pwrPage))) t

/-- A transaction whose body is known. -/
theorem completes_spi {c : Instr} {early : Bool} {op : Nat} {body : M (List Byte × Nat)} {P : State → Prop} (hx : exec c s = cmd s (spiBegin early op body))
    (hl : s.SpiLive) (hb : body.Gives (s.spiOpened op) fun r t => P (latchEdges s (t.spiClosed (s.spiStatus ++ r.1) r.2 r.1.length))) : Completes c s P :=
  completes_gives hx (gives_spiBegin hl hb)

theorem spiDone {op : Nat} (r : List Byte × Nat) {l : List Nat} (hop : op < 4) (hl : SPIH_STAT ∉ l)
    (hw : (s.spiOpened op).Within (onlyRegs (l ++ [HOSTP_STAT])) t) : s.SpiDone (latchEdges s (t.spiClosed (s.spiStatus ++ r.1) r.2 r.1.length)) op r.1 l where
  miso := by rw [latchEdges_dev, spiClosed_hostp]
  op := by
    rw [latchEdges_fld, spiClosed_fld, State.fld, hw.regs _ (decide_eq_false (by simp [hl])), ← State.fld, spiOpened_op hop]
  within := by
    rw [State.within_latch_iff]
    refine (spiOpened_within.of_onlyRegs fun a ha => ?_).trans ((hw.of_onlyRegs fun a ha => ?_).trans spiClosed_within)
    · rcases List.mem_cons.mp ha with rfl | ha
      · exact decide_eq_true (by simp)
      · exact decide_eq_true (List.mem_append_right _ (List.mem_append_right _ ha))
    · rcases List.mem_append.mp ha with ha | ha
      · exact decide_eq_true (List.mem_append_left _ ha)
      · exact decide_eq_true (by simp_all)

theorem spiPoll_live {early : Bool} (hl : s.SpiLive) : Completes (.spiPoll early) s fun t =>
    s.SpiDone t 0 [] [] ∧ (t.port 0).dropped = false ∧ t.ctr spihPage 1 0 = min 0xFFFFFFFF (s.ctr spihPage 1 0 + 1) ∧ t.events = s.events ++ [0x18] := by
  refine completes_spi (body := pure ([], 0)) rfl hl (gives_pure ?_)
  refine ⟨spiDone ([], 0) (by decide) (by decide) (State.within_refl _ _), ?_, ?_, ?_⟩
  · rw [latchEdges_port, spiClosed_port, State.port, spiOpened_hostp]
  · rw [latchEdges_ctr_read, spiClosed_ctr (by decide) (by decide), spiOpened_count]
  · rw [latchEdges_events, spiClosed_events, spiOpened_events]

theorem sliceOf_short {l : List Byte} {n : Nat} (h : n ≤ l.length) : sliceOf l 0 n = l.take n := by
  refine List.ext_getElem (by simp [sliceOf_length, h]) fun i h1 h2 => ?_
  rw [sliceOf_length] at h1
  simp [sliceOf, List.getElem?_eq_getElem (show i < l.length by omega)]

theorem sliceOf_long {l : List Byte} {n : Nat} (h : l.length ≤ n) : sliceOf l 0 n = l ++ List.replicate (n - l.length) 0 := by
  refine List.ext_getElem (by simp [sliceOf_length, h]) fun i h1 h2 => ?_
  rw [List.getElem_append]
  split
  next hi => simp [sliceOf, List.getElem?_eq_getElem hi]
  next hi => simp [sliceOf, List.getElem?_eq_none (show l.length ≤ i by omega)]

/-- SPIH_EVT with a bit set and its cause counted. -/
def State.spihNoted (s : State) (b i w : Nat) : State :=
  (s.putReg SPIH_EVT (s.reg SPIH_EVT ||| BitVec.ofNat 32 (2 ^ b))).counted spihPage i w (min 0xFFFFFFFF (s.ctr spihPage i w + 1))

theorem gives_spihEvent {b i w : Nat} : (spihEvent b i w).Gives s fun _ t => t = s.spihNoted b i w := by
  refine gives_bind (gives_bind (gives_getS (gives_pure ?_)))
  refine gives_bind (gives_wr (((total_count ..).gives_run _).mono fun _ t ht => ?_))
  rw [ht, run_count, State.ctr, State.putReg_dev]
  rfl

section
variable {b i w : Nat}

theorem spihNoted_dev : (s.spihNoted b i w).dev = { s.dev with ctr := Sparse.set (fun _ => 0) s.dev.ctr (ctrKey spihPage i w) (min 0xFFFFFFFF (s.ctr spihPage i w + 1)) } := by
  rw [State.spihNoted, State.counted_dev, State.putReg_dev]

theorem spihNoted_within (h : F.regs SPIH_EVT = true) : s.Within F (s.spihNoted b i w) := by
  rw [State.spihNoted]
  exact (State.within_putReg h).trans State.counted_within

theorem spihNoted_bit (hb : b < 5) : ((s.spihNoted b i w).reg SPIH_EVT).toNat.testBit b = true := by
  have hm : BitVec.ofNat 32 (maskOf SPIH_EVT) = 31#32 := by decide
  have h31 : (31 : Nat).testBit b = true := by interval_cases b <;> rfl
  rw [State.spihNoted, State.counted_reg, State.reg_putReg_same, hm, BitVec.toNat_and, Nat.testBit_and, BitVec.toNat_or, Nat.testBit_or, BitVec.toNat_ofNat,
    Nat.testBit_mod_two_pow, Nat.testBit_two_pow_self]
  simp [show b < 32 by omega, h31]

theorem spihNoted_count : (s.spihNoted b i w).ctr spihPage i w = min 0xFFFFFFFF (s.ctr spihPage i w + 1) := by
  rw [State.spihNoted, State.ctr_counted_same]

theorem spihNoted_ctr {p' i' w' : Nat} (h : ctrKey p' i' w' ≠ ctrKey spihPage i w) : (s.spihNoted b i w).ctr p' i' w' = s.ctr p' i' w' := by
  rw [State.spihNoted, State.ctr_counted_other h, State.ctr, State.putReg_dev, State.ctr]

end

/-! ### SPI_READ (R424, R447) -/

section
variable {op : Nat}

theorem spiOpened_port : (s.spiOpened op).port 0 = { s.port 0 with dropped := false } := by rw [State.port, spiOpened_hostp, State.port]

theorem spiOpened_waiting : (s.spiOpened op).waiting 0 = s.waiting 0 := by
  have hn : (s.spiOpened op).noteOf 0 = s.noteOf 0 := by rw [State.noteOf, spiOpened_fld (by decide), spiOpened_hostp, State.noteOf]
  rw [State.waiting, spiOpened_port, hn, State.waiting]

theorem latchEdges_waiting (n : Nat) : (latchEdges s t).waiting n = t.waiting n := State.waiting_congr (by rw [latchEdges_dev]) (by rw [latchEdges_fld])

theorem spiClosed_waiting {m : List Byte} {k l : Nat} (n : Nat) : (s.spiClosed m k l).waiting n = s.waiting n := by
  have hn : (s.spiClosed m k l).noteOf n = s.noteOf n := by rw [State.noteOf, spiClosed_fld, spiClosed_hostp, State.noteOf]
  rw [State.waiting, spiClosed_port, hn, State.waiting]

theorem spihNoted_waiting {b i w : Nat} (n : Nat) : (s.spihNoted b i w).waiting n = s.waiting n :=
  State.waiting_congr (by rw [spihNoted_dev]) (by rw [State.spihNoted, State.counted_fld, State.fld_putReg_other _ (by decide)])

theorem State.Left.closed {m : List Byte} {k l : Nat} (h : (s.spiOpened op).Left t 0) : s.Left (latchEdges s (t.spiClosed m k l)) 0 := by
  obtain ⟨h1, h2, h3, h4⟩ := h
  rw [spiOpened_port] at h1 h2 h3 h4
  rw [spiOpened_hostp] at h3 h4
  rw [spiOpened_fld (by decide)] at h4
  have hp : (t.spiClosed m k l).port 0 = t.port 0 := spiClosed_port 0
  refine State.Left.latch ⟨?_, ?_, ?_, ?_⟩
  · rw [hp]; exact h1
  · rw [hp]; simpa only [spiClosed_cell] using h2
  · rw [hp, spiClosed_hostp]; exact h3
  · rw [spiClosed_hostp]; exact h4

end

theorem spiRead_none {early : Bool} (hl : s.SpiLive) (hf : s.waiting 0 = []) : Completes (.spiRead n early) s fun t => s.SpiDone t 2 (List.replicate n 0) [] := by
  refine completes_spi rfl hl (gives_bind (gives_getS ?_))
  rw [spiOpened_waiting, hf]
  exact gives_pure (spiDone (List.replicate n 0, n) (by decide) (by decide) (State.within_refl _ _))

theorem spiRead_part {early : Bool} {f : List Byte} {rest : List (List Byte)} (hl : s.SpiLive) (hf : s.waiting 0 = f :: rest) (hn : n < f.length) :
    Completes (.spiRead n early) s fun t => s.SpiDone t 2 (f.take n) [SPIH_EVT] ∧ t.waiting 0 = f :: rest ∧
      (t.reg SPIH_EVT).toNat.testBit 2 = true ∧ t.ctr spihPage 1 3 = min 0xFFFFFFFF (s.ctr spihPage 1 3 + 1) := by
  refine completes_spi rfl hl (gives_bind (gives_getS ?_))
  rw [spiOpened_waiting, hf]
  dsimp only
  rw [if_pos hn, sliceOf_short hn.le]
  refine gives_bind (gives_spihEvent.mono ?_)
  rintro _ t rfl
  refine gives_pure ⟨spiDone (f.take n, n) (by decide) (by decide) (spihNoted_within rfl), ?_, ?_, ?_⟩
  · rw [latchEdges_waiting, spiClosed_waiting, spihNoted_waiting, spiOpened_waiting, hf]
  · rw [latchEdges_reg, spiClosed_reg]
    exact spihNoted_bit (by decide)
  · rw [latchEdges_ctr_read, spiClosed_ctr (by decide) (by decide), spihNoted_count, spiOpened_ctr (by decide)]

theorem spiRead_whole {early : Bool} {f : List Byte} {rest : List (List Byte)} (hl : s.SpiLive) (hf : s.waiting 0 = f :: rest) (hn : f.length ≤ n)
    (hz : ∀ r, (s.port 0).reply = some r → r.reset = false) :
    Completes (.spiRead n early) s fun t => s.SpiDone t 2 (f ++ List.replicate (n - f.length) 0) [] ∧ s.Left t 0 := by
  refine completes_spi rfl hl (gives_bind (gives_getS ?_))
  rw [spiOpened_waiting, hf]
  dsimp only
  rw [if_neg (by omega), sliceOf_long hn]
  refine gives_bind ((gives_popFrame (by decide) (by rw [spiOpened_port]; exact hz)).mono fun _ t ⟨h, hw⟩ => ?_)
  exact gives_pure ⟨spiDone (f ++ List.replicate (n - f.length) 0, n) (by decide) (by decide) hw, h.closed⟩

/-! ### SPI_WRITE (R420, R422, R424, R447) -/

section
variable {op : Nat}

theorem spiOpened_dev : (s.spiOpened op).dev = { s.dev with hostp := (s.spiOpened op).dev.hostp, ctr := (s.spiOpened op).dev.ctr } := by
  rw [State.spiOpened, State.ported, State.live_dev, State.put_dev, State.counted_dev, emit_unlatched_dev (by decide)]

theorem spiOpened_hears (hl : s.SpiLive) : (s.spiOpened op).trOn (trNum .spi) = true ∧ (s.spiOpened op).portAwake = true := by
  obtain ⟨he, hr, hon⟩ := hl
  refine ⟨?_, ?_⟩
  · change (s.spiOpened op).bit HOSTP_CFG_SPIEN = true
    rw [State.bit, spiOpened_fld (by decide)]
    exact hon
  · rw [State.portAwake, spiOpened_dev]
    simp [he, hr]

end

theorem spiOpened_statusData {op : Nat} : (s.spiOpened op).statusData = s.statusData := by
  have hb : ∀ a n, (s.spiOpened op).bytes a n = s.bytes a n := bytes_of_byte fun a => spiOpened_within.mem a rfl
  have hv : (s.spiOpened op).imgVersion = s.imgVersion := by simp only [State.imgVersion, hb]
  have hs : (s.spiOpened op).dev.sys = s.dev.sys := by rw [spiOpened_dev]
  have hst : (s.spiOpened op).starting = s.starting := by simp only [State.starting, hs]
  have hlc : (s.spiOpened op).lc = s.lc := spiOpened_fld (by decide)
  simp only [State.statusData, hv, hst, hlc, hs, State.engine]
  rw [spiOpened_fld (f := SYS_RSTCAUSE_DEADRSN) (by decide), spiOpened_fld (f := HOSTP_STAT_ENGINE) (by decide), spiOpened_fld (f := LINK_MODE_MODE) (by decide),
    spiOpened_reg (a := SYS_RSTCAUSE) (by decide), spiOpened_reg (a := SYS_CREWSEQ) (by decide), spiOpened_fld (f := SYS_WDOGSTAT_ALIVE) (by decide),
    spiOpened_fld (f := NTIME_STAT_SYNC) (by decide), spiOpened_fld (f := PWR_STAT_PADHOLD) (by decide), spiOpened_fld (f := GOV_STAT_STATE) (by decide),
    spiOpened_fld (f := GOV_LEVEL_VSTORE) (by decide)]

/-- A write whose octets are no frame is discarded with LENGTH. -/
theorem spiWrite_bad {early : Bool} {l : List Byte} (hl : s.SpiLive) (hb : l.length < 4 ∨ 4096 < numAt l 2 2 ∨ l.length < 6 + numAt l 2 2) :
    Completes (.spiWrite l early) s fun t => t.ctr hostpPage 2 0 = min 0xFFFFFFFF (s.ctr hostpPage 2 0 + 1) ∧
      (t.port 0).refusal = some ((s.port 0).refusal.getD (replyFrame (numAt l 0 1) (numAt l 1 1) 4 [])) ∧
      s.SpiDone t 1 (List.replicate l.length 0) [] := by
  refine completes_spi rfl hl ?_
  rw [if_neg (by omega)]
  refine gives_bind ?_
  rw [frameIn, if_pos hb]
  refine (gives_frameBad (spiOpened_hears hl)).mono fun _ t ⟨ha, hr⟩ => gives_pure ⟨?_, ?_, ?_⟩
  · rw [latchEdges_ctr_read, spiClosed_ctr (by decide) (by decide)]
    refine (ha.ctr 4 (by decide)).trans ((State.ctr_counted_same ..).trans ?_)
    rw [spiOpened_ctr (by decide)]
  · rw [latchEdges_port, spiClosed_port]
    refine (hr (by decide)).refusal.trans ?_
    rw [State.port_congr (s := s.spiOpened 1) (by rw [State.lengthCounted, State.counted_dev]), show trNum .spi = 0 from rfl, spiOpened_port]
  · exact spiDone (List.replicate l.length 0, l.length) (by decide) (by decide) (State.counted_within.trans ha.within)

section
variable {l : List Byte} (hb : ¬ (l.length < 4 ∨ 4096 < numAt l 2 2 ∨ l.length < 6 + numAt l 2 2))
  (hc : numAt l (4 + numAt l 2 2) 2 ≠ crc16 0xFFFF (l.take (4 + numAt l 2 2)))
include hb hc

/-- A frame whose CRC fails, once the octets after it are recorded. -/
theorem gives_crcFails (hh : u.dev.hostp = (s.spiOpened 1).dev.hostp) (hear : u.trOn (trNum .spi) = true ∧ u.portAwake = true)
    (hctr : u.ctr hostpPage 1 3 = s.ctr hostpPage 1 3) (hw : (s.spiOpened 1).Within (onlyRegs ([SPIH_EVT] ++ [HOSTP_STAT])) u)
    (he : 6 + numAt l 2 2 < l.length → (u.reg SPIH_EVT).toNat.testBit 3 = true) :
    (do frameIn .spi l
        return (List.replicate l.length 0, l.length) : M (List Byte × Nat)).Gives u fun r t =>
      (fun t : State => t.ctr hostpPage 1 3 = min 0xFFFFFFFF (s.ctr hostpPage 1 3 + 1) ∧
        (t.port 0).reply = (s.port 0).reply ∧ (t.port 0).refusal = (s.port 0).refusal ∧
        (6 + numAt l 2 2 < l.length → (t.reg SPIH_EVT).toNat.testBit 3 = true) ∧ s.SpiDone t 1 (List.replicate l.length 0) [SPIH_EVT])
      (latchEdges s (t.spiClosed (s.spiStatus ++ r.1) r.2 r.1.length)) := by
  have hp : u.port 0 = { s.port 0 with dropped := false } := (State.port_congr hh 0).trans spiOpened_port
  refine gives_bind ?_
  rw [frameIn, if_neg hb, if_pos hc]
  refine (gives_frameCrc hear).mono fun _ t ht => gives_pure ⟨?_, ?_, ?_, fun hl => ?_, ?_⟩
  · rw [latchEdges_ctr_read, spiClosed_ctr (by decide) (by decide), ht, State.ctr_counted_same, hctr]
  · rw [latchEdges_port, spiClosed_port, State.port_congr (s := u) (by rw [ht, State.counted_dev]), hp]
  · rw [latchEdges_port, spiClosed_port, State.port_congr (s := u) (by rw [ht, State.counted_dev]), hp]
  · rw [latchEdges_reg, spiClosed_reg, ht, State.counted_reg]
    exact he hl
  · refine spiDone (List.replicate l.length 0, l.length) (by decide) (by decide) ?_
    rw [ht]
    exact hw.trans State.counted_within

end

theorem spiWrite_crc {early : Bool} {l : List Byte} (hl : s.SpiLive) (h1 : numAt l 2 2 ≤ 4096) (h2 : 6 + numAt l 2 2 ≤ l.length)
    (hc : numAt l (4 + numAt l 2 2) 2 ≠ crc16 0xFFFF (l.take (4 + numAt l 2 2))) :
    Completes (.spiWrite l early) s fun t => t.ctr hostpPage 1 3 = min 0xFFFFFFFF (s.ctr hostpPage 1 3 + 1) ∧
      (t.port 0).reply = (s.port 0).reply ∧ (t.port 0).refusal = (s.port 0).refusal ∧
      (6 + numAt l 2 2 < l.length → (t.reg SPIH_EVT).toNat.testBit 3 = true) ∧ s.SpiDone t 1 (List.replicate l.length 0) [SPIH_EVT] := by
  have hb : ¬ (l.length < 4 ∨ 4096 < numAt l 2 2 ∨ l.length < 6 + numAt l 2 2) := by omega
  have hh := spiOpened_hears (op := 1) hl
  refine completes_spi rfl hl ?_
  split
  case isTrue =>
    refine gives_bind (gives_spihEvent.mono ?_)
    rintro _ t ht
    refine gives_crcFails hb hc (by rw [ht, spihNoted_dev]) ?_ (by rw [ht, spihNoted_ctr (by decide), spiOpened_ctr (by decide)]) (ht ▸ spihNoted_within rfl)
      fun _ => by rw [ht]; exact spihNoted_bit (by decide)
    obtain ⟨hon, haw⟩ := hh
    refine ⟨?_, ?_⟩
    · rw [ht]
      change State.bit _ HOSTP_CFG_SPIEN = true
      rw [State.spihNoted, State.counted_bit, State.bit_putReg_other _ (by decide)]
      exact hon
    · rw [State.portAwake, ht, spihNoted_dev]
      exact haw
  case isFalse h => exact gives_crcFails hb hc rfl hh (spiOpened_ctr (by decide)) (State.within_refl _ _) fun h' => absurd ⟨h', h1⟩ h

theorem spiWrite_status {early : Bool} (hl : s.SpiLive) (ho : (s.port 0).out = none) (hr : (s.port 0).reply = none) :
    Completes (.spiWrite (hostFrame 1 tag.toNat []) early) s fun t =>
      (t.port 0).reply = some { frame := replyFrame 1 tag.toNat 0 s.statusData } ∧ (t.port 0).out = none ∧
        t.ctr hostpPage 1 0 = min 0xFFFFFFFF (s.ctr hostpPage 1 0 + 1) ∧ s.SpiDone t 1 (List.replicate 6 0) (perfOf hostpPage) := by
  have hlen : (hostFrame 1 tag.toNat []).length = 6 := hostFrame_length ..
  refine completes_spi rfl hl ?_
  rw [hlen, if_neg (by omega)]
  refine gives_bind ?_
  rw [frameIn_hostFrame .spi (by decide) tag.isLt (by decide)]
  obtain ⟨hon, haw⟩ := spiOpened_hears (op := 1) hl
  refine (gives_status_wire (by decide) hon haw (by rw [show trNum .spi = 0 from rfl, spiOpened_port]; exact ho)).mono fun _ t ⟨ha, hs⟩ => gives_pure ?_
  have hp : (s.spiOpened 1).accepted.port (trNum .spi) = { s.port 0 with dropped := false } := by
    rw [State.port_congr (s := s.spiOpened 1) (by rw [accepted_dev]), show trNum .spi = 0 from rfl, spiOpened_port]
  obtain ⟨h1, h2⟩ := hs.empty (by rw [hp]; exact hr)
  refine ⟨?_, ?_, ?_, ?_⟩
  · rw [latchEdges_port, spiClosed_port, ← spiOpened_statusData]
    exact h1
  · rw [latchEdges_port, spiClosed_port]
    exact h2
  · rw [latchEdges_ctr_read, spiClosed_ctr (by decide) (by decide)]
    refine (ha.ctr 0 (by decide)).trans (accepted_ctr.trans ?_)
    rw [spiOpened_ctr (by decide)]
  · refine spiDone (List.replicate 6 0, 6) (by decide) (by decide) ?_
    refine (accepted_within.of_onlyRegs fun a ha => ?_).trans (ha.within.of_onlyRegs fun a ha => ?_)
    · exact decide_eq_true (List.mem_append_left _ ha)
    · exact decide_eq_true (List.mem_append_right _ ha)

/-! ### Unknown OPs, and transactions in EASY and in REST (R370, R374–R376, R424, R447) -/

theorem spiUnknown_known {op : Byte} (h : op.toNat ≤ 2) : Completes (.spiUnknownOp op) s fun t => t.dev.hostp = s.dev.hostp ∧ s.Within {} t := by
  refine completes_still rfl ?_
  rw [if_neg (by omega)]
  exact gives_pure rfl

theorem spiUnknown_noted {op : Byte} (hl : s.SpiLive) (h : 2 < op.toNat) : Completes (.spiUnknownOp op) s fun t =>
    (t.reg SPIH_EVT).toNat.testBit 1 = true ∧ t.ctr spihPage 1 2 = min 0xFFFFFFFF (s.ctr spihPage 1 2 + 1) ∧ (t.port 0).reply = (s.port 0).reply ∧
      s.SpiDone t (op.toNat % 4) [] [SPIH_EVT] := by
  refine completes_gives rfl ?_
  rw [if_pos h]
  refine gives_spiBegin hl (gives_bind (gives_spihEvent.mono ?_))
  rintro _ t rfl
  refine gives_pure ⟨?_, ?_, ?_, spiDone ([], 0) (Nat.mod_lt _ (by decide)) (by decide) (spihNoted_within rfl)⟩
  · rw [latchEdges_reg, spiClosed_reg]
    exact spihNoted_bit (by decide)
  · rw [latchEdges_ctr_read, spiClosed_ctr (by decide) (by decide), spihNoted_count, spiOpened_ctr (by decide)]
  · rw [latchEdges_port, spiClosed_port, State.port_congr (s := s.spiOpened (op.toNat % 4)) (by rw [spihNoted_dev]), spiOpened_port]

theorem spiPoll_easy {early : Bool} (h : s.dev.pwr.state = .easy) : Completes (.spiPoll early) s fun t =>
    t.events = s.events ++ [0x18] ∧ t.dev.pwr.wake.testBit 11 = true ∧ t.dev.hostp = s.dev.hostp ∧ s.Within (onlyRegs (perfOf pwrPage)) t := by
  refine completes_gives rfl (gives_bind (gives_getS (gives_bind (((total_emit pwrPage 0x18).gives_run s).mono fun _ t ht => ?_))))
  rw [h]
  have hd : t.dev = s.dev := by rw [ht, emit_unlatched_dev (by decide)]
  refine ((total_act _).gives_run t).mono fun _ u hu => ?_
  have hu : u = t.live fun d => { d with pwr := { d.pwr with wake := bitSet d.pwr.wake 11 } } := hu
  refine ⟨?_, ?_, ?_, ?_⟩
  · rw [latchEdges_events, hu, State.live_events, ht, emit_events (by decide)]
  · rw [latchEdges_dev, hu, State.live_dev]
    exact bitSet_testBit_self _ _
  · rw [latchEdges_dev, hu, State.live_dev, hd]
  · rw [State.within_latch_iff, hu, State.within_live_iff rfl, ht]
    exact (emit_unlatched s pwrPage (by decide)).1.within

/-- Between two states the port, the counts, the Rigger and which transports are enabled are the same. -/
structure State.Besides (s t : State) : Prop where
  hostp : t.dev.hostp = s.dev.hostp
  ctr : t.dev.ctr = s.dev.ctr
  rigger : t.dev.rigger = s.dev.rigger
  cfg : t.reg HOSTP_CFG = s.reg HOSTP_CFG

theorem State.besides_refl (s : State) : s.Besides s := ⟨rfl, rfl, rfl, rfl⟩
theorem State.Besides.trans (h : s.Besides t) (g : t.Besides u) : s.Besides u :=
  ⟨g.hostp.trans h.hostp, g.ctr.trans h.ctr, g.rigger.trans h.rigger, g.cfg.trans h.cfg⟩

/-- An act that leaves them so from every state. -/
def M.Besides (m : M Unit) : Prop := ∀ s : State, m.Gives s fun _ t => s.Besides t

theorem besides_bind {m : M Unit} {f : Unit → M Unit} (h : m.Besides) (g : ∀ a, (f a).Besides) : (m >>= f).Besides := fun s =>
  gives_bind ((h s).mono fun a t ht => (g a t).mono fun _ _ hu => ht.trans hu)
theorem besides_getS {f : State → M Unit} (h : ∀ s, (f s).Besides) : (getS >>= f).Besides := fun s => gives_bind (gives_getS (h s s))
theorem besides_nop : nop.Besides := fun s => gives_nop s.besides_refl
theorem besides_ite {c : Prop} [Decidable c] {a b : M Unit} (h : a.Besides) (g : b.Besides) : (if c then a else b).Besides := by
  split
  exacts [h, g]
theorem besides_wr {a : Nat} {v : Word} (h : HOSTP_CFG ≠ a) : (wr a v).Besides := fun s =>
  gives_wr ⟨by rw [State.putReg_dev], by rw [State.putReg_dev], by rw [State.putReg_dev], State.reg_putReg_other _ h⟩
theorem besides_setFld {f : Fld} {v : Nat} (h : HOSTP_CFG ≠ f.addr) : (setFld f v).Besides := fun s =>
  gives_setFld ⟨by rw [State.put_dev], by rw [State.put_dev], by rw [State.put_dev], State.reg_put_other v h⟩
theorem besides_modDev {f : Dev → Dev} (h : ∀ d, ((f d).hostp, (f d).ctr, (f d).rigger) = (d.hostp, d.ctr, d.rigger)) : (modDev f).Besides := fun s => by
  obtain ⟨h1, h2, h3⟩ : _ ∧ _ ∧ _ := by simpa using h s.dev
  exact gives_act ⟨h1, h2, h3, rfl⟩

theorem besides_seenAge (n : Nat) : (seenAge n).Besides := besides_getS fun _ t => by
  refine gives_forAll t.besides_refl fun kv _ u hu => ?_
  split
  · exact gives_act ⟨hu.hostp, hu.ctr, hu.rigger, hu.cfg⟩
  · exact gives_nop hu

theorem besides_clockStart : clockStart.Besides :=
  besides_getS fun _ => besides_bind (besides_seenAge _) fun _ => besides_bind (besides_modDev fun _ => rfl) fun _ => besides_modDev fun _ => rfl

theorem besides_sramPowerUp (b : Nat) : (sramPowerUp b).Besides :=
  besides_bind (fun _ => gives_act ⟨rfl, rfl, rfl, rfl⟩) fun _ => besides_bind (fun _ => gives_act ⟨rfl, rfl, rfl, rfl⟩) fun _ => besides_modDev fun _ => rfl

theorem gives_fireSet_nil : (fireSet []).Gives s fun _ t => t = s := by
  refine gives_bind (gives_getS ?_)
  rw [if_neg (by simp)]
  refine gives_bind (gives_pure (gives_forAll rfl fun k _ t ht => gives_forAll ht fun x hx => ?_))
  simp at hx

theorem besides_toHfrc : toHfrc.Besides := besides_bind (besides_setFld (by decide)) fun _ => besides_setFld (by decide)

/-- What of a wake stands, whatever the Rigger held. -/
theorem gives_rigRelease_none (h : s.dev.rigger.held = []) : rigRelease.Gives s fun _ t =>
    t.dev.hostp = s.dev.hostp ∧ t.dev.ctr = s.dev.ctr ∧ t.reg HOSTP_CFG = s.reg HOSTP_CFG := by
  refine gives_bind (gives_getS (gives_bind (gives_act (gives_bind (gives_act ?_)))))
  rw [h]
  exact gives_fireSet_nil.mono fun _ t ht => by rw [ht]; exact ⟨rfl, rfl, rfl⟩

/-- A wake from REST, nothing of the Rigger's held, leaves the port and its counts. -/
theorem gives_wakeRest (h : s.dev.rigger.held = []) {src : Nat} : (wakeRest src).Gives s fun _ t =>
    t.dev.hostp = s.dev.hostp ∧ t.dev.ctr = s.dev.ctr ∧ t.reg HOSTP_CFG = s.reg HOSTP_CFG := by
  refine gives_bind (gives_getS ?_)
  split
  case isFalse => exact gives_nop ⟨rfl, rfl, rfl⟩
  refine gives_bind ((besides_wr (by decide) s).mono fun _ t h1 => gives_bind ((besides_toHfrc t).mono fun _ u h2 => ?_))
  have hrun : (modPwr fun p => { p with state := .run, wake := 0 }).Besides := besides_modDev fun _ => rfl
  refine gives_bind ((hrun u).mono fun _ v h3 => gives_bind (gives_act ?_))
  have h4 : s.Besides (Prim.run (.core fun c => { c with run := .run }) v) := (h1.trans h2).trans (h3.trans ⟨rfl, rfl, rfl, rfl⟩)
  refine gives_bind ((besides_sramPowerUp _ _).mono fun _ w h5 => ?_)
  have h5 := h4.trans h5
  have hend {x : State} (hx : s.Besides x) : rigRelease.Gives x fun _ t =>
      t.dev.hostp = s.dev.hostp ∧ t.dev.ctr = s.dev.ctr ∧ t.reg HOSTP_CFG = s.reg HOSTP_CFG :=
    (gives_rigRelease_none (by rw [hx.rigger]; exact h)).mono fun _ t ⟨g1, g2, g3⟩ => ⟨g1.trans hx.hostp, g2.trans hx.ctr, g3.trans hx.cfg⟩
  split
  · exact gives_bind ((besides_clockStart w).mono fun _ x hx => hend (h5.trans hx))
  · exact hend h5

theorem spiPoll_rest (h : s.dev.pwr.state = .rest) (hon : s.bit HOSTP_CFG_SPIEN = true) (hh : s.dev.rigger.held = []) :
    Completes (.spiPoll true) s fun t => t.dev.hostp = s.dev.hostp ∧ t.ctr spihPage 1 1 = min 0xFFFFFFFF (s.ctr spihPage 1 1 + 1) ∧
      (t.reg SPIH_EVT).toNat.testBit 0 = true := by
  refine completes_gives rfl (gives_bind (gives_getS (gives_bind (((total_emit pwrPage 0x18).gives_run s).mono fun _ t ht => ?_))))
  have hd : t.dev = s.dev := by rw [ht, emit_unlatched_dev (by decide)]
  have hcfg : t.reg HOSTP_CFG = s.reg HOSTP_CFG := by rw [ht]; exact (emit_unlatched s pwrPage (by decide)).1.within.reg (by decide)
  split
  next he => exact absurd (h.symm.trans he) (by decide)
  next =>
    rw [if_pos h]
    refine gives_bind ((gives_wakeRest (by rw [hd]; exact hh)).mono fun _ u ⟨g1, g2, g3⟩ => ?_)
    refine gives_bind (gives_getS ?_)
    rw [if_pos (by rw [State.bit, State.fld, g3, hcfg]; exact hon)]
    refine gives_bind (((total_count ..).gives_run u).mono fun _ v hv => ?_)
    rw [if_pos (by simp [h])]
    refine gives_spihEvent.mono fun _ w hw => ⟨?_, ?_, ?_⟩
    · rw [latchEdges_dev, hw, spihNoted_dev, hv, run_count, State.counted_dev]
      exact g1.trans (by rw [hd])
    · rw [latchEdges_ctr_read, hw, spihNoted_count, hv, run_count, State.ctr_counted_other (by decide), State.ctr, g2, hd, ← State.ctr]
    · rw [latchEdges_reg, hw]
      exact spihNoted_bit (by decide)

/-- Settles O54: a transaction opens and closes around a body that is read off the model, so its status octets, its OP and its
counts are shown once for all; what a frame that leaves, or one that is discarded, changes is a lemma of its own. -/
theorem hostTransports : Obligations.HostTransports := by
  unfold Obligations.HostTransports
  intro s _ on up left spi frames head live spiF
  have hleft {n : Nat} {t : State} (h : s.Left t n) : left n t := ⟨h.abort, h.reply, h.refusal, h.note⟩
  have hhead : s.spiStatus = head := spiStatus_eq
  have hlive : live → s.SpiLive := fun ⟨h1, h2, h3⟩ => ⟨h1, h2, h3⟩
  refine ⟨fun tr code tag => ⟨fun h => ⟨completes_still rfl (gives_frameBad_off h), completes_still rfl (gives_frameBad_off h),
      completes_still rfl (gives_frameCrc_off h)⟩, fun h => ⟨completes_frameBad rfl h, completes_frameBad rfl h, completes_frameCrc rfl h⟩⟩,
    completes_gap, completes_uartSent_off, fun ha he hz => (completes_uartSent ha he hz).imp fun t ht => ⟨hleft ht.1, ht.2⟩,
    fun h => spiPoll_easy h, fun h hon hh => spiPoll_rest h hon hh, fun hl early => ?_, fun op h => spiUnknown_known h, fun hl op h => ?_⟩
  · have hl := hlive hl
    refine ⟨?_, fun n hf => ?_, fun n f rest hf => ⟨fun hn => ?_, fun hn hz => ?_⟩, fun l hb => ?_, fun l h1 h2 hc => ?_, fun tag ho hr => ?_⟩
    · refine (spiPoll_live hl).imp fun t ⟨hd, h1, h2, h3⟩ => ⟨?_, h1, h2, hd.op, h3, hd.within⟩
      rw [hd.miso, hhead, List.append_nil]
    · exact (spiRead_none hl hf).imp fun t hd => ⟨by rw [hd.miso, hhead], hd.op, hd.within⟩
    · exact (spiRead_part hl hf hn).imp fun t ⟨hd, h1, h2, h3⟩ => ⟨by rw [hd.miso, hhead], h1.trans hf.symm, h2, h3, hd.within⟩
    · exact (spiRead_whole hl hf hn hz).imp fun t ⟨hd, h1⟩ => ⟨by rw [hd.miso, ← List.append_assoc, hhead], hleft h1, hd.within⟩
    · exact (spiWrite_bad hl hb).imp fun t ⟨h1, h2, hd⟩ => ⟨h1, h2, hd.op, hd.within⟩
    · exact (spiWrite_crc hl h1 h2 hc).imp fun t ⟨g1, g2, g3, g4, hd⟩ => ⟨g1, g2, g3, g4, hd.within⟩
    · refine (spiWrite_status hl ho hr).imp fun t ⟨h1, h2, h3, hd⟩ => ⟨h1, h2, h3, hd.within.of_onlyRegs fun a ha => ?_⟩
      refine decide_eq_true (List.mem_append.mpr ?_)
      exact (List.mem_append.mp ha).symm
  · exact (spiUnknown_noted (hlive hl) h).imp fun t ⟨h1, h2, h3, hd⟩ => ⟨h1, h2, h3, hd.within⟩

end Sys2Proof.Machine
end

section
/-!
The scheduler's windows: what opening and closing one leaves of the lanes, the link clock and the radio (R189–R191, R193, R194,
R204–R206, R372).
-/
namespace Sys2Proof.Machine
open Sys2Proof.Reg

variable {s t u : State} {F : Foot} {f : Samp → Samp} {k : Unit → M Unit} {P : State → Prop} {c : Instr}

/-! ### The lanes of the open windows -/

/-- The registers that show the lanes. -/
def laneRegs : List Nat := [LANES_STAT, LANES_ED 0, LANES_ED 1, LANES_ED 2, LANES_ED 3]

/-- Lanes came to other states, and nothing else did: no lane's frame. -/
structure State.Refit (s t : State) : Prop where
  dev : ∃ x, t.dev = { s.dev with lanes := x }
  frame : ∀ n, (t.lane n).frame = (s.lane n).frame
  within : s.Within (onlyRegs laneRegs) t

theorem State.refit_refl (s : State) : s.Refit s := ⟨⟨_, rfl⟩, fun _ => rfl, s.within_refl _⟩

theorem laneEd_mem {n : Nat} (hn : n < 4) : LANES_ED n ∈ laneRegs := by
  interval_cases n <;> decide

theorem State.Refit.laned (h : s.Refit t) {n v : Nat} (hn : n < 4) : s.Refit (t.laned n v) := by
  obtain ⟨x, hx⟩ := h.dev
  obtain ⟨y, hy⟩ := laned_dev (s := t) (n := n) (v := v)
  refine ⟨⟨y, by rw [hy, hx]⟩, fun m => by rw [frame_laned, h.frame], ?_⟩
  exact (within_laned_iff (by decide) (decide_eq_true (laneEd_mem hn))).mpr h.within

theorem State.Refit.reg (h : s.Refit t) {a : Nat} (ha : a ∉ laneRegs) : t.reg a = s.reg a := h.within.reg ha
theorem State.Refit.fld (h : s.Refit t) {x : Fld} (ha : x.addr ∉ laneRegs) : t.fld x = s.fld x := by rw [State.fld, h.reg ha, State.fld]
theorem State.Refit.bit (h : s.Refit t) {x : Fld} (ha : x.addr ∉ laneRegs) : t.bit x = s.bit x := by rw [State.bit, h.fld ha, State.bit]

theorem gives_setLaneState {n v : Nat} : (setLaneState n v).Gives s fun _ t => t = s.laned n v :=
  ((total_setLaneState n v).gives_run s).mono fun _ _ h => h.trans setLaneState_run

/-- Windows that open or close move lanes alone (R190, R201). -/
theorem gives_lanesRefit : lanesFit.Gives s fun _ t => s.Refit t := by
  refine gives_bind (gives_getS ?_)
  split
  · refine gives_forAll s.refit_refl fun n hn t ht => ?_
    have hn : n < 4 := List.mem_range.mp hn
    split
    · exact gives_setLaneState.mono fun _ u hu => hu ▸ ht.laned hn
    · split
      · exact gives_setLaneState.mono fun _ u hu => hu ▸ ht.laned hn
      · exact gives_nop ht
  · exact gives_nop s.refit_refl

/-- Lanes that are as the windows select them stay (R77). -/
theorem State.LanesFit.gives (h : s.LanesFit) : lanesFit.Gives s fun _ t => t = s := by
  refine gives_bind (gives_getS ?_)
  split
  · refine gives_forAll rfl fun n hn t ht => ?_
    obtain ⟨hoff, hsearch⟩ := h n (List.mem_range.mp hn)
    rw [if_neg (fun hx => by simp [hoff hx.1] at hx), if_neg (fun hx => by simp [hsearch hx.1] at hx)]
    exact gives_nop ht
  · exact gives_nop rfl

/-! ### Windows that open or close -/

/-- The scheduler's windows as they become, and WIN with them (R206). -/
def State.windowed (s : State) (f : Samp → Samp) : State :=
  (s.live fun d => { d with samp := f d.samp }).put SAMP_STAT_WIN (f s.dev.samp).shown

theorem windowed_dev : (s.windowed f).dev = { s.dev with samp := f s.dev.samp } := by rw [State.windowed, State.dev_put, State.live_dev]
theorem windowed_reg {a : Nat} (h : a ≠ SAMP_STAT) : (s.windowed f).reg a = s.reg a := by
  rw [State.windowed, State.reg_put_other _ h, State.live_reg]
theorem windowed_fld {x : Fld} (h : x.addr ≠ SAMP_STAT) : (s.windowed f).fld x = s.fld x := by rw [State.fld, windowed_reg h, State.fld]
theorem windowed_bit {x : Fld} (h : x.addr ≠ SAMP_STAT) : (s.windowed f).bit x = s.bit x := by rw [State.bit, windowed_fld h, State.bit]
theorem windowed_win : (s.windowed f).fld SAMP_STAT_WIN = (f s.dev.samp).shown % 8 := by
  rw [State.windowed, State.fld_self _ (by decide)]
  rfl
theorem windowed_radio : (s.windowed f).radio = s.radio := windowed_fld (by decide)
theorem within_windowed_iff (h : F.regs SAMP_STAT = true) : s.Within F (t.windowed f) ↔ s.Within F t := by
  rw [State.windowed, State.within_put_iff h, State.within_live_iff rfl]
theorem State.Did.windowed {l : List (Fld × Nat)} {noted : List Nat} (h : s.Did t l noted F) :
    s.Did (t.windowed f) (l ++ [(SAMP_STAT_WIN, (f t.dev.samp).shown)]) noted F := (h.lived (by rfl)).puts (by decide)

/-- The link clock runs on: in RUN with no entry begun it does whatever window opens or closes (R372). -/
def State.Awake (s : State) : Prop := s.dev.pwr.state = .run ∧ s.dev.pwr.entry = .none

theorem State.Awake.linkClock (h : s.Awake) : s.linkClock = true := by
  obtain ⟨hs, he⟩ := h
  rw [State.linkClock, hs, he]
  rfl

theorem State.Awake.windowed (h : s.Awake) : (s.windowed f).Awake := by rwa [State.Awake, windowed_dev]

/-- Windows move with the link clock as it was: only the lanes may follow. -/
theorem gives_setWin_refit (hc : (s.live fun d => { d with samp := f d.samp }).linkClock = s.linkClock) :
    (setWin f).Gives s fun _ t => (s.windowed f).Refit t := by
  have hc' : (Prim.run (.dev fun d => { d with samp := f d.samp }) s).linkClock = s.linkClock := hc
  refine gives_bind (gives_getS (gives_bind (gives_act (gives_bind (gives_getS (gives_bind (gives_setFld ?_)))))))
  rw [if_neg (by rw [hc', Bool.and_not_self]; decide), if_neg (by rw [hc', Bool.not_and_self]; decide)]
  exact gives_lanesRefit

/-- A lane is on as the windows select it (R77, R190). -/
theorem windowed_laneOn (h : (s.windowed f).windowLanes = s.windowLanes) (n : Nat) : (s.windowed f).laneOn n = s.laneOn n := by
  rw [State.laneOn, State.laneUp, h, State.en, windowed_bit (by decide), windowed_bit (x := ⟨LANES_ENABLE, n, n⟩) (show LANES_ENABLE ≠ SAMP_STAT by decide), State.rxRuns,
    windowed_fld (by decide), windowed_dev, State.laneOn, State.laneUp, State.rxRuns, State.en]

theorem State.LanesFit.windowed (h : s.LanesFit) (hw : (s.windowed f).windowLanes = s.windowLanes) : (s.windowed f).LanesFit := fun n hn => by
  rw [windowed_laneOn hw, State.laneState, windowed_fld (x := laneStateFld n) (show LANES_STAT ≠ SAMP_STAT by decide), ← State.laneState]
  exact h n hn

/-- Where the scheduler did not wake the radio, its windows select every lane (R190). -/
theorem windowLanes_own (h : s.dev.samp.woke = false) (hf : (f s.dev.samp).woke = false) : (s.windowed f).windowLanes = s.windowLanes := by
  rw [State.windowLanes, windowed_dev, State.windowLanes, if_pos (by simp [hf]), if_pos (by simp [h])]

theorem windowed_rxRuns (h : s.radio ≠ 3) : (s.windowed f).rxRuns = false := by
  rw [State.rxRuns, windowed_fld (by decide), ← State.radio, beq_false_of_ne h]
  rfl

theorem State.Awake.clock (h : s.Awake) : (s.live fun d => { d with samp := f d.samp }).linkClock = s.linkClock := by
  rw [h.linkClock]
  exact State.Awake.linkClock (s := s.live fun d => { d with samp := f d.samp }) h

/-- Windows that leave the clock and every lane as they were. -/
theorem gives_setWin_still (hc : (s.live fun d => { d with samp := f d.samp }).linkClock = s.linkClock)
    (hl : lanesFit.Gives (s.windowed f) fun _ t => t = s.windowed f) : (setWin f).Gives s fun _ t => t = s.windowed f := by
  have hc' : (Prim.run (.dev fun d => { d with samp := f d.samp }) s).linkClock = s.linkClock := hc
  refine gives_bind (gives_getS (gives_bind (gives_act (gives_bind (gives_getS (gives_bind (gives_setFld ?_)))))))
  rw [if_neg (by rw [hc', Bool.and_not_self]; decide), if_neg (by rw [hc', Bool.not_and_self]; decide)]
  exact hl

theorem State.Awake.gives_setWin (h : s.Awake) (hl : s.radio ≠ 3 ∨ s.LanesFit ∧ (s.windowed f).windowLanes = s.windowLanes) :
    (setWin f).Gives s fun _ t => t = s.windowed f := by
  refine gives_setWin_still h.clock ?_
  rcases hl with hr | ⟨hl, hw⟩
  · exact gives_lanesFit (windowed_rxRuns hr)
  · exact (hl.windowed hw).gives

/-- A window closes; the radio, which the scheduler did not wake, is left alone (R190). -/
theorem State.Awake.winEnd_run (h : s.Awake) (hl : s.LanesFit) (hw : s.dev.samp.woke = false) (hf : (f s.dev.samp).woke = false)
    (hc : (f s.dev.samp).closing = false) : (winEnd f).run s = s.windowed f := by
  rw [winEnd, (h.gives_setWin (.inr ⟨hl, windowLanes_own hw hf⟩)).run_bind_to, winRest, run_getS, windowed_dev]
  simp only [hf, hc]
  split <;> rfl

/-! ### The lattice (R189, R194) -/

theorem completes_reanchor : Completes .reanchor s fun t =>
    t.dev.samp = { s.dev.samp with reanchor := s.dev.samp.reanchor || s.sampOn } ∧ s.Within {} t := by
  refine completes_run (m := reanchor) rfl ?_
  rw [reanchor, run_getS]
  cases hs : s.sampOn
  · rw [if_neg (by decide)]
    exact ⟨by rw [run_pure, latchEdges_samp, Bool.or_false], State.within_latch_iff.mpr (s.within_refl _)⟩
  · rw [if_pos rfl]
    rw [modSamp, run_modDev]
    exact ⟨by rw [latchEdges_samp, State.live_dev, Bool.or_true],
      State.within_latch_iff.mpr ((State.within_live_iff rfl).mpr (s.within_refl _))⟩

/-- The lattice anchored at this LF edge (R189). -/
def State.anchored (s : State) : State := s.live fun d => { d with samp := { d.samp with anchor := some s.dev.time.ao, reanchor := false } }

theorem latticeAnchor_completes (hr : s.dev.samp.reanchor = true) (hon : s.sampOn = true) : Completes .latticeAnchor s fun t =>
    t.dev.samp = { s.dev.samp with anchor := some s.dev.time.ao, reanchor := false } ∧
    (s.dev.samp.anchor.isSome = true → t.ctr sampPage 3 3 = min 0xFFFFFFFF (s.ctr sampPage 3 3 + 1)) ∧ s.Within {} t := by
  refine completes_run rfl ?_
  rw [run_ite, if_pos (by rw [hr, hon]; rfl)]
  cases ha : s.dev.samp.anchor.isSome
  · dsimp only
    rw [if_neg (by decide), modSamp, run_modDev]
    exact ⟨rfl, fun h => absurd h (by decide), State.within_latch_iff.mpr ((State.within_live_iff rfl).mpr (s.within_refl _))⟩
  · dsimp only
    rw [if_pos rfl, run_count_bind, modSamp, run_modDev]
    refine ⟨rfl, fun _ => ?_, State.within_latch_iff.mpr ((State.within_live_iff rfl).mpr (State.within_counted_iff.mpr (s.within_refl _)))⟩
    rw [latchEdges_ctr_read, State.ctr_live rfl, State.ctr_counted_same]

/-! ### Requests of the scheduler (R190) -/

/-- The link controller owns a radio that answers, and nothing of it is under way. -/
structure State.Rested (s : State) : Prop where
  owner : s.bit RCTL_STAT_OWNER = true
  bow : s.dev.radio.bowDead = false
  ucode : s.bit RCTL_STAT_UCODE_OK = true
  jobs : s.dev.tx.jobs = []
  walk : s.dev.radio.walk = none
  waiting : s.dev.radio.waiting = none

theorem State.Rested.of_eq (h : s.Rested) (hr : t.dev.radio = s.dev.radio) (ht : t.dev.tx = s.dev.tx) (hs : t.reg RCTL_STAT = s.reg RCTL_STAT) :
    t.Rested := by
  obtain ⟨ho, hb, hu, hj, hw, hq⟩ := h
  have hbit {x : Fld} (hx : x.addr = RCTL_STAT) : t.bit x = s.bit x := by rw [State.bit, State.fld, hx, hs, State.bit, State.fld, hx]
  exact ⟨(hbit rfl).trans ho, hr ▸ hb, (hbit rfl).trans hu, ht ▸ hj, hr ▸ hw, hr ▸ hq⟩

theorem State.Rested.windowed (h : s.Rested) : (s.windowed f).Rested := h.of_eq (by rw [windowed_dev]) (by rw [windowed_dev]) (windowed_reg (by decide))
theorem State.Rested.counted (h : s.Rested) (p i w v : Nat) : (s.counted p i w v).Rested := h.of_eq rfl rfl rfl
theorem State.Rested.refit (h : s.Rested) (hf : s.Refit t) : t.Rested := by
  obtain ⟨x, hx⟩ := hf.dev
  exact h.of_eq (by rw [hx]) (by rw [hx]) (hf.reg (by decide))

/-- The walk of a request of the scheduler's. -/
def State.asking (s : State) (next goal : Nat) (tunes miss : Bool) : Walk :=
  { next := next, goal := goal, tunes := tunes, retune := false, miss := miss
    req := some { goal := goal, retune := false, link := true, at_ := s.dev.time.link } }

section
variable {goal : Nat}

theorem State.Rested.ask_down (h : s.Rested) (h1 : goal ≤ 1) (hg : s.radio ≠ goal) (hr : s.radio ≠ 3) :
    (radioReq goal false true).run s
      = ((s.unlockOver.locked false).busied goal).walkSet (s.asking (if s.radio = 1 ∧ goal = 0 then 0 else 1) goal false false) := by
  rw [radioReq_down h.owner h.bow (.inl h.ucode) h1, radioCut_leave h.waiting h.walk h.jobs h.bow hg,
    stepStart_down (s := s.unlockOver) hr (by split <;> omega)]
  rfl

/-- From RX the lanes stop first (R77). -/
theorem State.Rested.ask_sleep (h : s.Rested) (hr : s.radio = 3) (hl : ∀ n, (s.lane n).frame = none) :
    (radioReq 0 false true).run s = ((s.unlockOver.lanesStopped.locked false).busied 0).walkSet (s.asking 1 0 false false) := by
  have h3 : s.unlockOver.radio = radRx := hr
  rw [radioReq_down h.owner h.bow (.inl h.ucode) (by decide), radioCut_leave h.waiting h.walk h.jobs h.bow (by rw [hr]; decide),
    if_neg (fun hc => by rw [hr] at hc; exact absurd hc.1 (by decide))]
  simp only [stepStart, run_getS, if_pos h3]
  rw [lanesOff_bind (s := s.unlockOver) hl, if_pos (by decide), setLock_bind]
  simp only [show ((1 : Nat) == 2) = false from rfl, Bool.false_and, Bool.false_eq_true, if_false, run_pure_bind, setBusy_bind, run_modRadio]
  rfl

theorem State.Rested.ask_up (h : s.Rested) (hy : s.bit RCTL_STAT_BUSY = false) (hr : s.radio ≤ 3) (h2 : 2 ≤ goal) (h3 : goal ≤ 3)
    (hk : s.synthOk = true) {next : Nat} (hw : walkNext s.radio goal false = some next) :
    (radioReq goal false true).run s
      = (stepStart next goal false (some { goal := goal, retune := false, link := true, at_ := s.dev.time.link })).run s := by
  rw [radioReq_up h.owner h.bow h.ucode hy hr h2 h3, carryOut_walk (fun _ => hk) hw]

end

theorem sampleSyn_completes (h : s.Rested) (hs : s.dev.samp.sample = true) (hw : s.dev.samp.woke = true) (hy : s.bit RCTL_STAT_BUSY = false)
    (hk : s.synthOk = true) (hr : s.radio = 1) : Completes .sampleSynRequest s fun t =>
      t.bit RCTL_STAT_BUSY = true ∧ t.fld RCTL_STAT_TARGET = 2 ∧
      (t.dev.radio.walk.map fun w => (w.next, w.goal, w.tunes)) = some (2, 2, true) ∧ t.dev.samp = s.dev.samp ∧
      s.Within (onPages [rctlPage, synthPage]) t := by
  refine completes_run rfl ?_
  rw [if_pos ⟨hs, hw⟩, h.ask_up hy (by omega) (by decide) (by decide) hk (next := 2) (by rw [hr]; rfl), stepStart_tune hr]
  refine ⟨by rw [latchEdges_bit, State.walkSet, State.live_bit, busied_busy],
    by rw [latchEdges_fld, State.walkSet, State.live_fld, busied_target (by decide)], ?_, ?_, ?_⟩
  · rw [latchEdges_radio, State.walkSet, State.live_dev, Option.map_some]
  · obtain ⟨c, hc⟩ := tuning_dev (s := s)
    rw [latchEdges_samp, State.walkSet, State.live_dev, busied_dev, hc]
  · rw [State.within_latch_iff, State.walkSet, State.within_live_iff rfl, within_busied_iff (by decide), within_tuning_iff (by decide)]
    exact s.within_refl _

theorem sampleRx_completes (hi : s.Inv) (h : s.Rested) (hs : s.dev.samp.sample = true) (hw : s.dev.samp.woke = true)
    (hy : s.bit RCTL_STAT_BUSY = false) (hk : s.synthOk = true) (hr : s.radio = 2) : Completes .sampleRxRequest s fun t =>
      (t.dev.radio.walk.map fun w => (w.next, w.goal, w.tunes)) = some (3, 3, false) ∧ t.dev.samp = s.dev.samp ∧
      s.Sets t [(RCTL_STAT_BUSY, 1), (RCTL_STAT_TARGET, 3)] := by
  refine completes_run rfl ?_
  rw [if_pos ⟨hs, hw⟩, h.ask_up hy (by omega) (by decide) (by decide) hk (next := 3) (by rw [hr]; rfl), stepStart_up (by rw [hr]; decide) (by decide)]
  refine ⟨by rw [latchEdges_radio, State.walkSet, State.live_dev, Option.map_some], ?_, (((did_refl hi).busied 3).walkSet _).latched s⟩
  rw [latchEdges_samp, State.walkSet, State.live_dev, busied_dev]

theorem sample_asleep (h : s.dev.samp.sample = false ∨ s.dev.samp.woke = false) {c : Instr} (hc : c ∈ [Instr.sampleSynRequest, .sampleRxRequest]) :
    Completes c s fun t => t.dev.samp = s.dev.samp ∧ s.Within {} t := by
  have hn : ¬ (s.dev.samp.sample = true ∧ s.dev.samp.woke = true) := by rcases h with h | h <;> simp [h]
  have hP : (latchEdges s s).dev.samp = s.dev.samp ∧ s.Within {} (latchEdges s s) := ⟨by rw [latchEdges_samp], State.within_latch_iff.mpr (s.within_refl _)⟩
  simp only [List.mem_cons, List.not_mem_nil, or_false] at hc
  rcases hc with rfl | rfl <;> exact completes_nothing rfl (by rw [if_neg hn]; rfl) hP

/-! ### Sample windows (R190, R191, R205) -/

/-- What a sample instant opens. -/
def Samp.waking (x : Samp) (at_ : Nat) : Samp := { x.sampleEnd with sample := true, woke := true, openAt := at_ }

/-- A sample instant is counted (R206). -/
def State.instant (s : State) (w : Nat) : State := s.counted sampPage 2 w (min 0xFFFFFFFF (s.ctr sampPage 2 w + 1))

section
variable (hon : s.sampOn = true) (ha : s.dev.samp.anchor.isSome = true) (hcl : s.dev.samp.closing = false)
  (hx : s.bit RCTL_STAT_TXACT = false)
include hon ha hcl

theorem wake_counts (w : Nat) (h : (s.bit RCTL_STAT_TXACT || s.radio == radTx) = decide (w = 1))
    (hw : w ≠ 1 → w = 0 ∧ (s.dev.samp.shown ≠ winNone ∨ s.radio = radRx)) :
    Completes .sampleWake s fun t => t.ctr sampPage 2 w = min 0xFFFFFFFF (s.ctr sampPage 2 w + 1) ∧ t.dev.samp = s.dev.samp ∧ s.Within {} t := by
  have hP : (latchEdges s (s.instant w)).ctr sampPage 2 w = min 0xFFFFFFFF (s.ctr sampPage 2 w + 1) ∧
      (latchEdges s (s.instant w)).dev.samp = s.dev.samp ∧ s.Within {} (latchEdges s (s.instant w)) :=
    ⟨by rw [latchEdges_ctr_read, State.instant, State.ctr_counted_same], by rw [latchEdges_samp, State.instant, State.counted_dev],
      State.within_latch_iff.mpr (State.within_counted_iff.mpr (s.within_refl _))⟩
  refine completes_run rfl ?_
  rw [if_pos (by simp [hon, ha, hcl]), h]
  by_cases h1 : w = 1
  · subst h1
    rw [if_pos (by decide), run_count]
    exact hP
  · obtain ⟨rfl, hs⟩ := hw h1
    rw [if_neg (by decide), if_pos hs, run_count]
    exact hP

/-- A wake proper: the instant counted, the window opened, STBY asked for. -/
theorem wake_run (hx : s.bit RCTL_STAT_TXACT = false) (hr : s.radio = 0) (hsh : s.dev.samp.shown = 0) (hP : P (latchEdges s
    ((setWin (Samp.waking · (s.dev.time.now + 26855)) >>= fun _ => radioReq radStby false true).run (s.instant 0)))) : Completes .sampleWake s P := by
  refine completes_run rfl ?_
  rw [if_pos (by simp [hon, ha, hcl]), if_neg (by simp [hx, hr]), if_neg (by simp [hsh, hr]), run_count_bind]
  exact hP

end

theorem Samp.waking_shown {x : Samp} (h : x.shown = 0) (at_ : Nat) : (x.waking at_).shown = 1 := by
  obtain ⟨hm, hr⟩ : x.main = 0 ∧ x.rdv = none := by
    simp only [Samp.shown] at h
    split at h
    · exact absurd h ‹_›
    · split at h
      · exact absurd h (by decide)
      · next hm hr => exact ⟨by simpa using hm, by simpa using hr⟩
  simp [Samp.shown, Samp.waking, Samp.sampleEnd, hm, hr]

/-- A sample window wakes the radio: the walk to STBY begins (R190). -/
theorem sampleWake_runs (hi : s.Inv) (h : s.Rested) (hon : s.sampOn = true) (ha : s.dev.samp.anchor.isSome = true)
    (hcl : s.dev.samp.closing = false) (hx : s.bit RCTL_STAT_TXACT = false) (hr : s.radio = 0) (hsh : s.dev.samp.shown = 0) (hw : s.Awake) :
    Completes .sampleWake s fun t => t.ctr sampPage 2 0 = min 0xFFFFFFFF (s.ctr sampPage 2 0 + 1) ∧
      (∃ at_, t.dev.samp = s.dev.samp.waking at_) ∧ (t.dev.radio.walk.map fun w => (w.next, w.goal)) = some (1, 1) ∧
      s.Sets t [(SAMP_STAT_WIN, 1), (RCTL_STAT_LOCK, 0), (SYNTH_STAT_LOCK, 0), (RCTL_STAT_BUSY, 1), (RCTL_STAT_TARGET, 1)] := by
  refine wake_run hon ha hcl hx hr hsh ?_
  have hr' : (s.instant 0).radio = 0 := hr
  have hw' : (s.instant 0).Awake := hw
  have h' : (s.instant 0).Rested := h.counted ..
  have hsets : s.Did (s.instant 0) [] [] := (did_refl hi).counted ..
  rw [(hw'.gives_setWin (f := (Samp.waking · (s.dev.time.now + 26855))) (.inl (by rw [hr']; decide))).run_bind_to,
    h'.windowed.ask_down (by decide) (by rw [windowed_radio, hr']; decide) (by rw [windowed_radio, hr']; decide)]
  have hd := hsets.windowed (f := (Samp.waking · (s.dev.time.now + 26855)))
  rw [State.instant, State.counted_dev, Samp.waking_shown (by exact hsh), ← State.instant] at hd
  refine ⟨?_, ⟨s.dev.time.now + 26855, ?_⟩, ?_, (((hd.unlockOver.locked false).busied 1).walkSet _).latched s⟩
  · rw [latchEdges_ctr_read, State.walkSet, State.ctr_live rfl, State.busied, State.ctr_put, State.ctr_put, State.locked, State.ctr_put,
      State.ctr_put, State.unlockOver, State.ctr_live rfl, State.windowed, State.ctr_put, State.ctr_live rfl, State.instant, State.ctr_counted_same]
  · rw [latchEdges_samp, State.walkSet, State.live_dev, busied_dev, locked_dev, State.unlockOver, State.live_dev, windowed_dev, State.instant,
      State.counted_dev]
  · rw [latchEdges_radio, State.walkSet, State.live_dev, Option.map_some, State.asking]
    simp [windowed_radio, hr']

/-! ### The link clock started again (R176, R181, R372) -/

/-- What the link clock's start leaves. -/
structure State.Clocked (s t : State) : Prop where
  dev : t.dev = { s.dev with flood := { s.dev.flood with missed := 0 }, time := { s.dev.time with restore := s.dev.time.restore || s.dev.time.carry.isSome } }
  reg : ∀ a, t.reg a = s.reg a
  within : s.Within { tab := (· == .seen) } t

theorem gives_seenAge (n : Nat) : (seenAge n).Gives s fun _ t => t.dev = s.dev ∧ (∀ a, t.reg a = s.reg a) ∧ s.Within { tab := (· == .seen) } t := by
  refine gives_bind (gives_getS (gives_forAll ⟨rfl, fun _ => rfl, s.within_refl _⟩ fun kv _ t ⟨hd, hr, hw⟩ => ?_))
  split
  · refine gives_act ⟨hd, hr, hw.trans ⟨fun _ _ => rfl, fun _ _ => rfl, fun x hx i => ?_, fun _ _ => rfl, fun _ => rfl, fun _ => rfl, fun _ => rfl, rfl⟩⟩
    cases x
    case seen => exact absurd hx (by decide)
    all_goals rfl
  · exact gives_nop ⟨hd, hr, hw⟩

theorem State.Clocked.fld (h : s.Clocked t) (x : Fld) : t.fld x = s.fld x := by rw [State.fld, h.reg, State.fld]
theorem State.Clocked.rxRuns (h : s.Clocked t) : t.rxRuns = s.rxRuns := by rw [State.rxRuns, h.fld, h.dev, State.rxRuns]

theorem gives_clockStart : clockStart.Gives s fun _ t => s.Clocked t := by
  refine gives_bind (gives_getS (gives_bind ((gives_seenAge _).mono fun _ t ⟨hd, hr, hw⟩ => gives_bind (gives_act (gives_act ⟨?_, hr, ?_⟩)))))
  · exact hd ▸ rfl
  · exact hw.trans ((State.within_live_iff (t := t.live _) rfl).mpr ((State.within_live_iff rfl).mpr (t.within_refl _)))

/-- A window opened while the link clock stands and the radio sleeps starts the clock (R372). -/
theorem gives_setWin_clock (hc : s.linkClock = false) (hc' : (s.live fun d => { d with samp := f d.samp }).linkClock = true) (hr : s.radio ≠ 3) :
    (setWin f).Gives s fun _ t => (s.windowed f).Clocked t := by
  have hd : (Prim.run (.dev fun d => { d with samp := f d.samp }) s).linkClock = true := hc'
  refine gives_bind (gives_getS (gives_bind (gives_act (gives_bind (gives_getS (gives_bind (gives_setFld ?_)))))))
  rw [if_neg (by simp [hc]), if_pos (by simp [hc, hd])]
  refine gives_bind (gives_clockStart.mono fun _ t ht => ?_)
  exact (gives_lanesFit (ht.rxRuns.trans (windowed_rxRuns hr))).mono fun _ u hu => hu ▸ ht

theorem State.Rested.clocked (h : s.Rested) (hc : s.Clocked t) : t.Rested := h.of_eq (by rw [hc.dev]) (by rw [hc.dev]) (hc.reg _)

theorem asked_fld {x : Fld} (h : x.addr ∉ [RCTL_STAT, SYNTH_STAT]) {goal : Nat} {w : Walk} :
    (((s.unlockOver.locked false).busied goal).walkSet w).fld x = s.fld x := by
  simp only [List.mem_cons, List.not_mem_nil, or_false, not_or] at h
  rw [State.walkSet, State.live_fld, State.fld, busied_reg h.1, State.locked, State.reg_put_other _ (by exact h.2), State.reg_put_other _ (by exact h.1),
    State.unlockOver, State.live_reg, State.fld]

theorem asked_dev {goal : Nat} {w : Walk} : (((s.unlockOver.locked false).busied goal).walkSet w).dev
    = { s.dev with radio := { s.dev.radio with unlock := false, walk := some w } } := by
  rw [State.walkSet, State.live_dev, busied_dev, locked_dev, State.unlockOver, State.live_dev]

theorem within_asked_iff {goal : Nat} {w : Walk} (h : F.regs RCTL_STAT = true) (h' : F.regs SYNTH_STAT = true) :
    s.Within F (((t.unlockOver.locked false).busied goal).walkSet w) ↔ s.Within F t := by
  rw [State.walkSet, State.within_live_iff rfl, within_busied_iff h, within_locked_iff h h', State.unlockOver, State.within_live_iff rfl]

/-- In REST the sample window starts the link clock (R372). -/
theorem sampleWake_rest (h : s.Rested) (hon : s.sampOn = true) (ha : s.dev.samp.anchor.isSome = true)
    (hcl : s.dev.samp.closing = false) (hx : s.bit RCTL_STAT_TXACT = false) (hr : s.radio = 0) (hsh : s.dev.samp.shown = 0)
    (hp : s.dev.pwr.state = .rest) (hc : s.linkClock = false) : Completes .sampleWake s fun t =>
      t.linkClock = true ∧ t.fld SAMP_STAT_WIN = 1 ∧ t.dev.flood.missed = 0 ∧
      t.dev.time.restore = (s.dev.time.restore || s.dev.time.carry.isSome) ∧
      s.Within { regs := fun a => decide (a = SAMP_STAT ∨ a / 0x1000 * 0x1000 ∈ [rctlPage, synthPage]), tab := (· == .seen) } t := by
  refine wake_run hon ha hcl hx hr hsh ?_
  have hrest : ∀ {t : State}, t.dev.pwr.state = .rest → t.linkClock = t.dev.samp.holds := fun ht => by rw [State.linkClock, ht]
  have hset := gives_setWin_clock (s := s.instant 0) (f := (Samp.waking · (s.dev.time.now + 26855))) hc (hrest hp) (by show s.radio ≠ 3; omega)
  have hu := hset.run
  rw [hset.run_bind]
  generalize (setWin (Samp.waking · (s.dev.time.now + 26855))).run (s.instant 0) = u at hu
  have hd : u.dev.samp = s.dev.samp.waking (s.dev.time.now + 26855) := by rw [hu.dev, windowed_dev]; rfl
  have hr' : u.radio = 0 := (hu.fld _).trans (windowed_radio.trans hr)
  have hw := hu.within
  rw [(((h.counted ..).windowed).clocked hu).ask_down (by decide) (by rw [hr']; decide) (by rw [hr']; decide)]
  refine ⟨?_, ?_, ?_, ?_, ?_⟩
  · have hrest' : u.dev.pwr.state = .rest := by rw [hu.dev, windowed_dev]; exact hp
    rw [hrest (by rw [latchEdges_pwr, asked_dev]; exact hrest'), latchEdges_samp, asked_dev, hd]
    rfl
  · rw [latchEdges_fld, asked_fld (by decide), hu.fld, windowed_win, State.instant, State.counted_dev, Samp.waking_shown hsh]
  · rw [latchEdges_flood, asked_dev, hu.dev]
  · rw [latchEdges_time, asked_dev, hu.dev, windowed_dev]
    rfl
  · rw [State.within_latch_iff, within_asked_iff (by decide) (by decide)]
    refine ((within_windowed_iff (by decide)).mpr (State.within_counted_iff.mpr (s.within_refl _))).trans (hw.widen ⟨nofun, nofun, fun _ h => h, nofun, nofun, nofun, nofun⟩)

/-! ### Windows that end (R190, R191) -/

/-- No lane holds anything and nothing a frame earned is due (R191). -/
theorem State.Quiet.rxQuiet (h : s.Quiet) : s.rxQuiet = true := by
  have hl : ∀ n, s.lane n = {} := fun n => by rw [State.lane, h.lanes]; rfl
  simp [State.rxQuiet, hl, State.jobs, h.jobs]

/-- The detection or the energy is noted as an extension (R191). -/
def State.extend (s : State) : State := s.live fun d => { d with samp := { d.samp with extended := true } }

/-- A window that a detection held open settles as it closes (R191). -/
theorem winSettle_sample (hq : s.rxQuiet = true) (hc : s.dev.samp.closing = false) (hs : s.dev.samp.sample = true)
    (he : s.dev.samp.extended = true) (hd : s.dev.samp.detected = true) (hm : s.dev.samp.main = 0) (hr : s.dev.samp.rdv = none) :
    winSettle.run s = (winEnd Samp.sampleEnd).run s := by
  rw [winSettle, run_getS, if_pos hq]
  simp only [hc, hs, he, hd, hm, hr, Bool.false_eq_true, if_false, Bool.and_self, if_true, Option.any_none]
  rfl

/-- The listening window closes: with a detection over which nothing is left, or with nothing heard (R191). -/
theorem listenEnd_closes (hq : s.rxQuiet = true) (hc : s.dev.samp.closing = false) (hs : s.dev.samp.sample = true)
    (he : s.dev.samp.extended = false) (hm : s.dev.samp.main = 0) (hr : s.dev.samp.rdv = none)
    (hd : s.dev.samp.detected = true ∨ s.dev.samp.energy = false)
    (h : ∀ u, u = s ∨ u = s.extend → P (latchEdges s ((winEnd Samp.sampleEnd).run u))) : Completes .sampleListenEnd s P := by
  refine completes_run rfl ?_
  rw [if_pos ⟨hs, by simp [he]⟩]
  cases hdet : s.dev.samp.detected
  · rw [if_neg (by decide), if_neg (by simp [hd.resolve_left (by simp [hdet])])]
    exact h s (.inl rfl)
  · rw [if_pos rfl, modSamp, run_modDev_bind, ← State.extend, winSettle_sample (s := s.extend) hq hc hs rfl hdet hm hr]
    exact h _ (.inr rfl)

theorem sampleEnd_shown {x : Samp} (hm : x.main = 0) (hr : x.rdv = none) : x.sampleEnd.shown = 0 := by
  simp [Samp.shown, Samp.sampleEnd, hm, hr]
theorem sampleEnd_holds {x : Samp} (hm : x.main = 0) (hr : x.rdv = none) : x.sampleEnd.holds = false := by
  simp [Samp.holds, Samp.sampleEnd, hm, hr]

/-- Where the radio runs by itself, the sample window's end is WIN's (R190). -/
theorem sampleEnd_completes (hi : s.Inv) (ha : s.Awake) (hl : s.LanesFit) (hw : s.dev.samp.woke = false) (hc : s.dev.samp.closing = false)
    (hm : s.dev.samp.main = 0) (hr : s.dev.samp.rdv = none) (hu : u = s ∨ u = s.extend) :
    (latchEdges s ((winEnd Samp.sampleEnd).run u)).dev.samp = s.dev.samp.sampleEnd ∧
      s.Sets (latchEdges s ((winEnd Samp.sampleEnd).run u)) [(SAMP_STAT_WIN, 0)] := by
  have hdid : s.Did u [] [] := by
    rcases hu with rfl | rfl
    · exact did_refl hi
    · exact (did_refl hi).lived (by rfl)
  have hsamp : u.dev.samp.sampleEnd = s.dev.samp.sampleEnd := by rcases hu with rfl | rfl <;> rfl
  have hrun : (winEnd Samp.sampleEnd).run u = u.windowed Samp.sampleEnd := by
    rcases hu with rfl | rfl
    · exact ha.winEnd_run hl hw hw hc
    · exact State.Awake.winEnd_run (s := s.extend) ha hl hw hw hc
  rw [hrun]
  have hd := hdid.windowed (f := Samp.sampleEnd)
  rw [hsamp, sampleEnd_shown hm hr] at hd
  exact ⟨by rw [latchEdges_samp, windowed_dev, ← hsamp], hd.latched s⟩

/-- The scheduler that woke the radio lets it return to SLEEP (R190). -/
theorem winEnd_sleeps {f : Samp → Samp} (ha : u.Awake) (h : u.Rested) (hl : ∀ n, (u.lane n).frame = none) (hr : u.radio = 3)
    (hw : (f u.dev.samp).woke = true) (hc : (f u.dev.samp).closing = false) (hh : (f u.dev.samp).holds = false) :
    ∃ v, (winEnd f).run u = ((v.lanesStopped.locked false).busied 0).walkSet (v.asking 1 0 false false) ∧
      v.dev.samp = { f u.dev.samp with woke := false } ∧ v.fld SAMP_STAT_WIN = (f u.dev.samp).shown % 8 ∧
      u.Within (onlyRegs (SAMP_STAT :: laneRegs)) v := by
  have hset := gives_setWin_refit (f := f) ha.clock
  have ht := hset.run
  generalize hv : (setWin f).run u = t at ht
  obtain ⟨x, hx⟩ := ht.dev
  have hsamp : t.dev.samp = f u.dev.samp := by rw [hx, windowed_dev]
  refine ⟨(t.live fun d => { d with samp := { d.samp with woke := false } }).unlockOver, ?_, ?_, ?_, ?_⟩
  · have hrad : t.radio = 3 := by rw [State.radio, ht.fld (by decide), ← State.radio, windowed_radio, hr]
    have hrest : (t.live fun d => { d with samp := { d.samp with woke := false } }).Rested := (h.windowed.refit ht).of_eq rfl rfl rfl
    have hframes : ∀ n, ((t.live fun d => { d with samp := { d.samp with woke := false } }).lane n).frame = none := fun n => by
      rw [lane_live rfl, ht.frame, State.lane, windowed_dev]
      exact hl n
    rw [winEnd, hset.run_bind, hv, winRest, run_getS, hsamp, hh, if_pos (by decide), hw, hc]
    dsimp only
    rw [if_pos (by decide), modSamp, run_modDev_bind, if_pos (.inl (by rw [hrad]; decide))]
    simp only [Bool.false_eq_true, if_false]
    exact hrest.ask_sleep hrad hframes
  · rw [State.unlockOver, State.live_dev, State.live_dev, hsamp]
  · rw [State.unlockOver, State.live_fld, State.live_fld, ht.fld (by decide), windowed_win]
  · rw [State.unlockOver, State.within_live_iff rfl, State.within_live_iff rfl]
    exact ((within_windowed_iff (by decide)).mpr (u.within_refl _)).trans (ht.within.widen
      ⟨fun a h => decide_eq_true (List.mem_cons_of_mem _ (of_decide_eq_true h)), nofun, nofun, nofun, nofun, nofun, nofun⟩)

theorem State.Quiet.frame (h : s.Quiet) (n : Nat) : (s.lane n).frame = none := by rw [State.lane, h.lanes]; rfl

/-- The registers that move as the scheduler lets the radio rest. -/
def restFoot : Foot := { regs := fun a => decide (a = SAMP_STAT ∨ a / 0x1000 * 0x1000 ∈ [rctlPage, synthPage, lanesPage, rxfePage]) }

theorem sampleEnd_sleeps (ha : s.Awake) (hq : s.Quiet) (h : s.Rested) (hr3 : s.radio = 3) (hw : s.dev.samp.woke = true)
    (hc : s.dev.samp.closing = false) (hm : s.dev.samp.main = 0) (hr : s.dev.samp.rdv = none) (hu : u = s ∨ u = s.extend) :
    (latchEdges s ((winEnd Samp.sampleEnd).run u)).fld SAMP_STAT_WIN = 0 ∧
      (latchEdges s ((winEnd Samp.sampleEnd).run u)).dev.samp = { s.dev.samp.sampleEnd with woke := false } ∧
      (latchEdges s ((winEnd Samp.sampleEnd).run u)).bit RCTL_STAT_BUSY = true ∧
      (latchEdges s ((winEnd Samp.sampleEnd).run u)).fld RCTL_STAT_TARGET = 0 ∧
      ((latchEdges s ((winEnd Samp.sampleEnd).run u)).dev.radio.walk.map fun w => (w.next, w.goal)) = some (1, 0) ∧
      s.Within restFoot (latchEdges s ((winEnd Samp.sampleEnd).run u)) := by
  have hwu : s.Within {} u := by
    rcases hu with rfl | rfl
    · exact State.within_refl _ _
    · exact (State.within_live_iff rfl).mpr (s.within_refl _)
  have hsamp : u.dev.samp.sampleEnd = s.dev.samp.sampleEnd := by rcases hu with rfl | rfl <;> rfl
  have hend : ∃ v, (winEnd Samp.sampleEnd).run u = ((v.lanesStopped.locked false).busied 0).walkSet (v.asking 1 0 false false) ∧
      v.dev.samp = { u.dev.samp.sampleEnd with woke := false } ∧ v.fld SAMP_STAT_WIN = u.dev.samp.sampleEnd.shown % 8 ∧
      u.Within (onlyRegs (SAMP_STAT :: laneRegs)) v := by
    rcases hu with rfl | rfl
    · exact winEnd_sleeps ha h hq.frame hr3 hw hc (sampleEnd_holds hm hr)
    · exact winEnd_sleeps (u := s.extend) ha (h.of_eq rfl rfl rfl) hq.frame hr3 hw hc (sampleEnd_holds hm hr)
  obtain ⟨v, hv, hvs, hvw, hvin⟩ := hend
  rw [hsamp] at hvs hvw
  rw [sampleEnd_shown hm hr] at hvw
  obtain ⟨x, hx⟩ := lanesStopped_dev (s := v)
  rw [hv]
  refine ⟨?_, ?_, ?_, ?_, ?_, ?_⟩
  · rw [latchEdges_fld, State.walkSet, State.live_fld, State.fld, busied_reg (by decide), State.locked, State.reg_put_other _ (by decide),
      State.reg_put_other _ (by decide), lanesStopped_reg (by decide), ← State.fld, hvw]
  · rw [latchEdges_samp, State.walkSet, State.live_dev, busied_dev, locked_dev, hx, hvs]
  · rw [latchEdges_bit, State.walkSet, State.live_bit, busied_busy]
  · rw [latchEdges_fld, State.walkSet, State.live_fld, busied_target (by decide)]
  · rw [latchEdges_radio, State.walkSet, State.live_dev, Option.map_some]
    rfl
  · have hsub : (onlyRegs (SAMP_STAT :: laneRegs)).Sub restFoot :=
      ⟨fun a h => (by decide : ∀ a ∈ SAMP_STAT :: laneRegs, restFoot.regs a = true) a (of_decide_eq_true h), nofun, nofun, nofun, nofun, nofun, nofun⟩
    rw [State.within_latch_iff, State.walkSet, State.within_live_iff rfl, within_busied_iff (by decide), within_locked_iff (by decide) (by decide),
      within_lanesStopped_iff (by decide)]
    exact (hwu.widen_nothing _).trans (hvin.widen hsub)

/-! ### Strobe waits (R193) -/

/-- The wait is to be spent in RX from now on. -/
def Samp.strobing (x : Samp) : Samp := { x with rdv := x.rdv.map fun r => { r with awake := true } }

theorem strobing_of {x : Samp} {r : Rdv} (h : x.rdv = some r) : x.strobing = { x with rdv := some { r with awake := true } } := by
  rw [Samp.strobing, h, Option.map_some]
theorem strobing_shown (x : Samp) : x.strobing.shown = x.shown := by
  cases h : x.rdv <;> simp [Samp.shown, Samp.strobing, h]

theorem strobing_lanes : (s.windowed Samp.strobing).windowLanes = s.windowLanes := by
  have hs : (s.windowed Samp.strobing).fld SAMP_CFG_SLANES = s.fld SAMP_CFG_SLANES := windowed_fld (by decide)
  have hb : (s.windowed Samp.strobing).fld SAMP_CFG_BLANES = s.fld SAMP_CFG_BLANES := windowed_fld (by decide)
  rw [State.windowLanes, hs, hb, windowed_dev, State.windowLanes]
  cases h : s.dev.samp.rdv <;> simp only [Samp.strobing, h, Option.map_none, Option.map_some, Option.isSome_some]

theorem windowed_synthOk : (s.windowed f).synthOk = s.synthOk := by
  rw [State.synthOk, State.synthHz, windowed_fld (by decide), windowed_fld (by decide), windowed_fld (by decide), State.synthOk, State.synthHz]

theorem completes_strobeWake {r : Rdv} (hr : s.dev.samp.rdv = some r)
    (h : P (latchEdges s ((setWin Samp.strobing >>= fun _ => listen).run s))) : Completes .strobeWake s P := by
  refine completes_run rfl ?_
  rw [if_pos (by rw [hr]; rfl)]
  exact h

theorem strobeWake_stays (hi : s.Inv) (ha : s.Awake) (hl : s.LanesFit) {r : Rdv} (hr : s.dev.samp.rdv = some r) (h3 : s.radio = 3) :
    Completes .strobeWake s fun t => t.dev.samp = { s.dev.samp with rdv := some { r with awake := true } } ∧
      s.Sets t [(SAMP_STAT_WIN, s.dev.samp.shown)] := by
  have hd := (did_refl (F := {}) (noted := []) hi).windowed (f := Samp.strobing)
  rw [strobing_shown] at hd
  refine completes_strobeWake hr ?_
  rw [(ha.gives_setWin (f := Samp.strobing) (.inr ⟨hl, strobing_lanes⟩)).run_bind_to, listen, run_getS,
    if_neg (fun h => h.1 (windowed_radio.trans h3))]
  exact ⟨by rw [run_pure, latchEdges_samp, windowed_dev, strobing_of hr], hd.latched s⟩

theorem strobeWake_wakes (hi : s.Inv) (ha : s.Awake) (h : s.Rested) (hy : s.bit RCTL_STAT_BUSY = false) (hk : s.synthOk = true) {r : Rdv}
    (hr : s.dev.samp.rdv = some r) (h0 : s.radio = 0) : Completes .strobeWake s fun t =>
      t.dev.samp = { s.dev.samp with rdv := some { r with awake := true }, woke := true } ∧
      (t.dev.radio.walk.map fun w => (w.next, w.goal)) = some (1, 3) ∧
      s.Sets t [(SAMP_STAT_WIN, s.dev.samp.shown), (RCTL_STAT_LOCK, 0), (SYNTH_STAT_LOCK, 0), (RCTL_STAT_BUSY, 1), (RCTL_STAT_TARGET, 3)] := by
  have hd := (did_refl (F := {}) (noted := []) hi).windowed (f := Samp.strobing)
  rw [strobing_shown] at hd
  have hrad : (s.windowed Samp.strobing).radio = 0 := windowed_radio.trans h0
  have hv : ((s.windowed Samp.strobing).live fun d => { d with samp := { d.samp with woke := true } }).Rested := h.windowed.of_eq rfl rfl rfl
  refine completes_strobeWake hr ?_
  rw [(ha.gives_setWin (f := Samp.strobing) (.inl (by omega))).run_bind_to, listen, run_getS,
    if_pos (by rw [hrad]; decide), if_pos (.inl hrad), modSamp, run_modDev_bind,
    hv.ask_up (goal := 3) (next := 1) ((windowed_bit (by decide)).trans hy) (by rw [State.radio, State.live_fld, ← State.radio, hrad]; decide)
      (by decide) (by decide) (windowed_synthOk.trans hk) (by rw [State.radio, State.live_fld, ← State.radio, hrad]; rfl),
    stepStart_down (by rw [State.radio, State.live_fld, ← State.radio, hrad]; decide) (by decide)]
  refine ⟨?_, ?_, (((((hd.lived (by rfl)).locked false).busied 3).walkSet _).latched s)⟩
  · rw [latchEdges_samp, State.walkSet, State.live_dev, busied_dev, locked_dev, State.live_dev, windowed_dev, strobing_of hr]
  · rw [latchEdges_radio, State.walkSet, State.live_dev, Option.map_some]

theorem strobeMiss_over (hi : s.Inv) (ha : s.Awake) (hl : s.LanesFit) {r : Rdv} (hr : s.dev.samp.rdv = some r) (hh : r.hit = false)
    (hw : s.dev.samp.woke = false) (hc : s.dev.samp.closing = false) : Completes .strobeMiss s fun t =>
      t.ctr sampPage 3 1 = min 0xFFFFFFFF (s.ctr sampPage 3 1 + 1) ∧ t.dev.samp = { s.dev.samp with rdv := none } ∧
      s.Sets t [(SAMP_STAT_WIN, { s.dev.samp with rdv := none }.shown)] := by
  let v := s.counted sampPage 3 1 (min 0xFFFFFFFF (s.ctr sampPage 3 1 + 1))
  have hd : s.Did v [] [] := (did_refl hi).counted ..
  refine completes_run rfl ?_
  rw [hr]
  dsimp only
  rw [if_neg (by rw [hh]; decide), run_count_bind, State.Awake.winEnd_run (s := v) ha hl hw hw hc]
  refine ⟨?_, by rw [latchEdges_samp, windowed_dev]; rfl, hd.windowed.latched s⟩
  rw [latchEdges_ctr_read, State.windowed, State.ctr_put, State.ctr_live rfl, State.ctr_counted_same]

/-! ### What a detection keeps open (R191, R193, R202, R203; log entry 123) -/

/-- While a lane holds a frame nothing settles (R191). -/
theorem winSettle_busy (h : s.rxQuiet = false) : winSettle.run s = s := by
  rw [winSettle, run_getS, if_neg (by simp [h]), run_pure]

/-- The beacon window's or hold's time is over (R202, R203). -/
def State.timeOver (s : State) : State := s.live fun d => { d with samp := { d.samp with ended := true } }

theorem kept (h : s.rxQuiet = false) :
    (s.dev.samp.sample = true → s.dev.samp.extended = false → s.dev.samp.detected = true →
      Completes .sampleListenEnd s fun t => t.dev.samp = { s.dev.samp with extended := true } ∧ s.Within {} t) ∧
    (s.dev.samp.sample = true → s.dev.samp.extended = true → s.dev.samp.detected = true →
      Completes .sampleExtensionEnd s fun t => t.dev.samp = s.dev.samp ∧ s.Within {} t) ∧
    (∀ r, s.dev.samp.rdv = some r → r.hit = true → Completes .strobeMiss s fun t => t.dev.samp = s.dev.samp ∧ s.Within {} t) ∧
    (s.dev.samp.main = 3 → s.dev.samp.updated = false → s.dev.samp.heard = true →
      Completes .beaconWindowClose s fun t => t.dev.samp = { s.dev.samp with ended := true } ∧ s.Within {} t) ∧
    (s.dev.samp.main = 5 → Completes .beaconHoldEnd s fun t => t.dev.samp = { s.dev.samp with ended := true } ∧ s.Within {} t) := by
  have hs : (latchEdges s s).dev.samp = s.dev.samp ∧ s.Within {} (latchEdges s s) :=
    ⟨by rw [latchEdges_samp], State.within_latch_iff.mpr (s.within_refl _)⟩
  have he : (latchEdges s s.extend).dev.samp = { s.dev.samp with extended := true } ∧ s.Within {} (latchEdges s s.extend) :=
    ⟨by rw [latchEdges_samp]; rfl, State.within_latch_iff.mpr ((State.within_live_iff rfl).mpr (s.within_refl _))⟩
  have ho : (latchEdges s s.timeOver).dev.samp = { s.dev.samp with ended := true } ∧ s.Within {} (latchEdges s s.timeOver) :=
    ⟨by rw [latchEdges_samp]; rfl, State.within_latch_iff.mpr ((State.within_live_iff rfl).mpr (s.within_refl _))⟩
  refine ⟨fun h1 h2 h3 => completes_run rfl ?_, fun h1 h2 h3 => completes_nothing rfl ?_ hs, fun r hr hh => completes_nothing rfl ?_ hs,
    fun h1 h2 h3 => completes_run rfl ?_, fun h1 => completes_run rfl ?_⟩
  · rw [if_pos ⟨h1, by simp [h2]⟩, if_pos h3, modSamp, run_modDev_bind, ← State.extend, winSettle_busy (s := s.extend) h]
    exact he
  · rw [if_neg (by simp [h3, h]), run_pure]
  · rw [hr]
    dsimp only
    rw [if_pos hh, winSettle_busy h]
  · rw [if_pos ⟨h1, by simp [h2]⟩, if_pos h3, modSamp, run_modDev_bind, ← State.timeOver, winSettle_busy (s := s.timeOver) h]
    exact ho
  · rw [if_pos h1, modSamp, run_modDev_bind, ← State.timeOver, winSettle_busy (s := s.timeOver) h]
    exact ho

/-- Settles O36: every window as WIN and the lanes, the walks of the scheduler's requests after them. -/
theorem sampleWindows : Obligations.SampleWindows := by
  refine ⟨fun s hi hq hl ho hb hy hu hk hc => ?_, fun s _ h => kept h⟩
  have hrest : s.Rested := ⟨ho, hb, hu, hq.jobs, hq.walk, hq.waiting⟩
  refine ⟨completes_reanchor, latticeAnchor_completes, fun hon ha => ⟨fun h4 => ?_, fun h3 => ?_, fun h0 hsh => ⟨fun hr => ?_, fun hp hcl => ?_⟩⟩,
    fun hs hw => ⟨fun h1 => sampleSyn_completes hrest hs hw hy hk h1, fun h2 => sampleRx_completes hi hrest hs hw hy hk h2⟩,
    fun h x hx => sample_asleep h hx, fun ha hs hm hr => ⟨fun he hd hen hx => ?_, fun he hd hw => ?_, fun he hd h3 hw => ?_, fun he hw => ?_⟩,
    fun r ha hr => ⟨strobeWake_stays hi ha hl hr, strobeWake_wakes hi ha hrest hy hk hr, fun hh hw => strobeMiss_over hi ha hl hr hh hw hc⟩⟩
  · exact wake_counts hon ha hc 1 (by simp [h4]) (fun h => absurd rfl h)
  · exact wake_counts hon ha hc 0 (by rcases h3 with h3 | h3 <;> simp [hq.txact, h3]) fun _ => ⟨rfl, h3.symm.imp (·.2) id⟩
  · exact sampleWake_runs hi hrest hon ha hc hq.txact h0 hsh hr
  · exact sampleWake_rest hrest hon ha hc hq.txact h0 hsh hp hcl
  · refine completes_run rfl ?_
    rw [if_pos ⟨hs, by simp [he]⟩, if_neg (by simp [hd]), if_pos ⟨hen, hx⟩, modSamp, run_modDev_bind, run_count]
    exact ⟨rfl, by rw [latchEdges_ctr_read, State.ctr_counted_same]; rfl,
      State.within_latch_iff.mpr (State.within_counted_iff.mpr ((State.within_live_iff rfl).mpr (s.within_refl _)))⟩
  · exact listenEnd_closes hq.rxQuiet hc hs he hm hr hd fun u hu => sampleEnd_completes hi ha hl hw hc hm hr hu
  · exact listenEnd_closes hq.rxQuiet hc hs he hm hr hd fun u hu => sampleEnd_sleeps ha hq hrest h3 hw hc hm hr hu
  · refine completes_run rfl ?_
    rw [if_pos ⟨hs, he, .inr hq.rxQuiet⟩]
    exact sampleEnd_completes hi ha hl hw hc hm hr (.inl rfl)

end Sys2Proof.Machine
end

section
/-!
A beacon prepared, and beacon windows, holds, scans and RESCAN (R122, R165, R166, R201–R204, R206).
-/
namespace Sys2Proof.Machine
open Sys2Proof.Reg

variable {s t u v : State} {F : Foot} {l : List Byte} {f : FloodIe} {P : State → Prop}

/-! ### Octets replaced, and where a flood header lies -/

theorem patch_length {i : Nat} {v : List Byte} (h : i + v.length ≤ l.length) : (patch l i v).length = l.length := by
  simp only [patch, List.length_append, List.length_take, List.length_drop]
  omega

/-- A header IE lies within the frame. -/
theorem iesFrom_within : ∀ (k i : Nat) (e : Ie), e ∈ (iesFrom l k i).1 → e.at_ + e.len ≤ l.length
  | 0, _, _, h => by simp [iesFrom] at h
  | k + 1, i, e, h => by
    rw [iesFrom] at h
    split at h
    · simp at h
    split at h
    · simp at h
    dsimp only at h
    split at h
    · simp at h
    split at h
    · simp at h
    split at h
    · simp at h
    next hlen =>
    rcases List.mem_cons.mp h with rfl | h
    · simpa using hlen
    · exact iesFrom_within k _ e h

theorem parseMac_ies {e : Ie} (h : e ∈ (parseMac l).ies) : e.at_ + e.len ≤ l.length := by
  simp only [parseMac] at h
  split at h
  · exact iesFrom_within _ _ _ h
  · simp at h

theorem floodIe_within (h : floodIe l (parseMac l) = some f) : f.at_ + f.len ≤ l.length := by
  rw [floodIe] at h
  split at h
  · exact absurd h (by simp)
  next e he =>
    obtain rfl := (Option.some.inj h).symm
    exact parseMac_ies (List.mem_of_find?_eq_some he)

/-- A TIME flood's header has ORIGIN. -/
theorem mayOriginate_time {m : Mac} (h : s.mayOriginate m f = true) (hc : f.cls = 3) : f.len = 21 := by
  simp only [State.mayOriginate, floodValid, hc, Bool.and_eq_true, beq_iff_eq, if_true] at h
  exact h.1.1.1.1.1.1.1.1.1.1.1

/-! ### A flood originated (R165, R168) -/

/-- From `s` to `t` a flood was originated: FSEQ moved on, and the seen cache has the flood. -/
structure State.Floods (s t : State) : Prop where
  seq : t.fld FLOOD_SEQ_NEXT = (s.fld FLOOD_SEQ_NEXT + 1) % 2 ^ 16
  dev : ∃ k, t.dev = { s.dev with ctr := k }
  byte : ∀ a, t.byte a = s.byte a
  within : s.Within { onlyRegs [FLOOD_SEQ] with tab := (· == .seen) } t

/-- From `s` to `t` counters and the seen cache moved alone. -/
structure State.Seen (s t : State) : Prop where
  dev : ∃ k, t.dev = { s.dev with ctr := k }
  reg : ∀ a, t.reg a = s.reg a
  within : s.Within { tab := (· == .seen) } t

theorem State.seen_refl (s : State) : s.Seen s := ⟨⟨_, rfl⟩, fun _ => rfl, s.within_refl _⟩

theorem State.Seen.count (h : s.Seen t) {p i w : Nat} {Q : Unit → State → Prop} (hq : ∀ u, s.Seen u → Q () u) : (count p i w).Gives t Q := by
  obtain ⟨⟨k, hk⟩, hr, hw⟩ := h
  refine ((total_count p i w).gives_run t).mono fun _ u hu => hq u ?_
  rw [run_count] at hu
  subst hu
  exact ⟨⟨_, by rw [State.counted_dev, hk]⟩, hr, State.within_counted_iff.mpr hw⟩

theorem State.Seen.drawn (h : s.Seen t) (hd : t.Drawn u) : s.Seen u := by
  obtain ⟨⟨k, hk⟩, hr, hw⟩ := h
  exact ⟨⟨k, hd.dev.trans hk⟩, fun a => ((hd.within (F := {})).regs a rfl).trans (hr a), hw.trans hd.within⟩

theorem State.Seen.write (h : s.Seen t) (i : Nat) (v : Word) : s.Seen (Prim.run (.tab .seen i v) t) := by
  obtain ⟨hd, hr, hw⟩ := h
  refine ⟨hd, hr, hw.trans ⟨fun _ _ => rfl, fun _ _ => rfl, fun x hx _ => ?_, fun _ _ => rfl, fun _ => rfl, fun _ => rfl, fun _ => rfl, rfl⟩⟩
  cases x
  case seen => exact absurd hx (by decide)
  all_goals rfl

theorem gives_seenInsert (orig fseq hop cnt : Nat) : (seenInsert orig fseq hop cnt).Gives s fun _ t => s.Seen t := by
  have hend {t : State} (ht : s.Seen t) {e : Nat → Nat} {v w : Word} : (do
        let i ← freeNat
        act (.tab .seen (2 * e i) v)
        act (.tab .seen (2 * e i + 1) w)
        count floodPage 0x03 3 : M Unit).Gives t fun _ u => s.Seen u :=
    gives_bind (gives_freeNat_drawn.mono fun _ _ hd => gives_bind (gives_act (gives_bind (gives_act
      ((((ht.drawn hd).write _ _).write _ _).count fun _ hu => hu)))))
  refine gives_bind (gives_getS ?_)
  dsimp only
  split
  · exact gives_bind (s.seen_refl.count fun _ hu => hend hu)
  · exact hend s.seen_refl

theorem gives_originate (o : Nat) : (originate l f (some o)).Gives s fun r t =>
    r = patch (patch l (f.at_ + 6) (leBytes 2 (s.fld FLOOD_SEQ_NEXT))) (f.at_ + 15) (leBytes 6 (o % 2 ^ 48)) ∧ s.Floods t := by
  refine gives_bind (gives_getS (gives_bind (gives_setFld (gives_bind ((gives_seenInsert _ _ _ _).mono fun _ t ht => gives_bind (ht.count fun u hu => ?_))))))
  obtain ⟨⟨k, hd⟩, hr, hw⟩ := hu
  refine gives_pure ⟨rfl, ?_, ⟨k, by rw [hd, State.dev_put]⟩, fun a => hw.mem a rfl, ?_⟩
  · rw [State.fld, hr, ← State.fld, State.fld_self _ (by decide)]
    exact Nat.mod_mod _ _
  · exact ((State.within_put_iff (by decide)).mpr (s.within_refl _)).trans (hw.widen ⟨nofun, nofun, fun _ h => h, nofun, nofun, nofun, nofun⟩)

theorem gives_takeSeed (lane : Nat) : (takeSeed lane).Gives s fun _ t =>
    ∃ x, t = s.live fun d => { d with tx := { d.tx with seed := x } } := by
  refine gives_bind (gives_getS ?_)
  split
  · exact gives_bind (gives_act (gives_pure ⟨_, rfl⟩))
  · exact gives_pure ⟨s.dev.tx.seed, rfl⟩

/-! ### BEACON_PREPARE (R166) -/

/-- The root sends beacons (R166). -/
def State.beacons (s : State) : Bool :=
  s.bit NTIME_CFG_ROOT && s.bit FLOOD_BCN_EN && s.bit NTIME_STAT_SYNC && s.fld LINK_STAT_MODE != 0

theorem beacon_off (h : s.beacons = false) : Completes .beaconPrepare s fun t => s.Within {} t := by
  refine completes_nothing rfl ?_ (State.within_latch_iff.mpr (s.within_refl _))
  rw [if_neg (by rw [← State.beacons, h]; decide), run_pure]

/-- A beacon is counted as missed (R166). -/
theorem beacon_none (h : s.beacons = true) (hj : s.dev.tx.jobs = [])
    (hf : floodIe (s.chainBytes (s.chain (s.fld FLOOD_BTMPL_CELL)) (s.fld FLOOD_BTMPL_LENGTH))
      (parseMac (s.chainBytes (s.chain (s.fld FLOOD_BTMPL_CELL)) (s.fld FLOOD_BTMPL_LENGTH))) = none) :
    Completes .beaconPrepare s fun t =>
      t.ctr floodPage 4 2 = min 0xFFFFFFFF (s.ctr floodPage 4 2 + 1) ∧ t.dev.tx.jobs = [] ∧ s.Within {} t := by
  refine completes_run rfl ?_
  rw [if_pos (by rw [← State.beacons, h])]
  dsimp only
  rw [hf]
  dsimp only [Option.filter_none]
  rw [bcnMiss, run_count_bind, run_stat]
  refine ⟨?_, hj, State.within_latch_iff.mpr (State.within_counted_iff.mpr (State.within_counted_iff.mpr (s.within_refl _)))⟩
  rw [latchEdges_ctr_read, State.ctr_counted_other (by decide), State.ctr_counted_same]

theorem chainBytes_length {c : List Nat} {n : Nat} (h : n ≤ 256 * c.length) : (s.chainBytes c n).length = n := by
  rw [State.chainBytes, List.length_take, List.length_flatMap]
  simp only [State.bytes_length, List.map_const', List.sum_replicate, smul_eq_mul]
  omega

theorem le_cells (n : Nat) : n ≤ 256 * cellsFor n := by
  simp only [cellsFor, ceilDiv]
  omega

theorem gives_addJob (j : TxJob) : (addJob j).Gives s fun _ t => t = s.jobAdded j :=
  gives_bind (gives_getS (gives_bind (gives_act (gives_bind (gives_bind (gives_act (gives_setFld (gives_pure rfl))))))))

theorem jobAdded_byte (j : TxJob) (a : Nat) : (s.jobAdded j).byte a = s.byte a :=
  ((within_jobAdded_iff (F := onlyRegs [LINK_STAT]) (by decide)).mpr (s.within_refl _)).mem a rfl

theorem jobAdded_cells (j : TxJob) : (s.jobAdded j).dev.cells = s.dev.cells := by rw [State.jobAdded, requeued_dev, State.live_dev]

/-- A chain's octets lie in its cells. -/
theorem within_cellsPut {cells : List Nat} (h : ∀ c ∈ cells, c < 512) (hF : ∀ a, cellMem a = true → F.mem a = true) :
    s.Within F (s.cellsPut cells l) := by
  have hput : (chainWrite cells l).Gives s fun _ u => u = s.cellsPut cells l := gives_chainWrite rfl
  obtain ⟨hu, hw⟩ := (hput.and ((aside_chainWrite hF cells l h).all s)).run
  exact hu ▸ hw.within

/-- The octets of a beacon: the template with FSEQ and ORIGIN (R165, R166). -/
def beaconOctets (l : List Byte) (f : FloodIe) (q o : Nat) : List Byte :=
  patch (patch l (f.at_ + 6) (leBytes 2 q)) (f.at_ + 15) (leBytes 6 (o % 2 ^ 48))

theorem beaconOctets_length {q o : Nat} (h : f.at_ + 21 ≤ l.length) : (beaconOctets l f q o).length = l.length := by
  have h1 : (patch l (f.at_ + 6) (leBytes 2 q)).length = l.length := patch_length (by rw [leBytes_length]; omega)
  rw [beaconOctets, patch_length (by rw [leBytes_length, h1]; exact h), h1]

/-- Where a placed beacon's footprint lies. -/
def beaconFoot : Foot := { regs := fun a => decide (a ∈ FLOOD_SEQ :: LINK_STAT :: perfOf fbufPage), mem := cellMem, tab := (· == .seen) }

theorem beacon_placed {tc : List Nat} {len : Nat} {lane : Nat} (htc : s.chain (s.fld FLOOD_BTMPL_CELL) = tc) (hlen : s.fld FLOOD_BTMPL_LENGTH = len)
    (hl : s.chainBytes tc len = l) (hlane : s.fld FLOOD_BCN_LANE = lane)
    (h : s.beacons = true) (hj : s.dev.tx.jobs = []) (hf : floodIe l (parseMac l) = some f) (hm : s.mayOriginate (parseMac l) f = true)
    (hc : f.cls = 3) (hown : tc.all (fun c => (s.cell c).owner == ownCore) = true) (hcells : cellsFor len ≤ tc.length)
    (ha : s.canAlloc poolTx (cellsFor len) = true) (hn : cellsFor len ≤ s.freeCells.length) (hs : s.bit FLOOD_BCN_SECURE = false)
    (hok : s.laneCfgOk lane = true) (hmax : len + 4 ≤ 2047) {air : Nat}
    (hair : s.airtime lane false (lowMcs (s.fld (LANES_MODE_OPT lane))) s.rpre (len + 4) = air) {octets : List Byte}
    (hoct : beaconOctets l f (s.fld FLOOD_SEQ_NEXT) (s.bcnInstant + 40 * air) = octets) :
    Completes .beaconPrepare s fun t =>
      t.fld FLOOD_SEQ_NEXT = (s.fld FLOOD_SEQ_NEXT + 1) % 2 ^ 16 ∧
      (t.dev.tx.jobs.map fun j => (j.kind, j.stage, j.lane, j.octets)) = [(.beacon, .reserved, lane, octets)] ∧
      (∀ j ∈ t.dev.tx.jobs,
        j.nt = some s.bcnInstant ∧ j.air = air ∧ j.ts = s.dev.time.link + (s.bcnInstant + 2 ^ 48 - s.dev.time.ntime) % 2 ^ 48 ∧
        j.cells.length = cellsFor len ∧ t.chainBytes j.cells octets.length = octets ∧
        ∀ c ∈ j.cells, (s.cell c).owner = ownFree ∧ (t.cell c).owner = ownLink) ∧
      s.Within beaconFoot t := by
  have hbody : l.length = len := by rw [← hl]; exact chainBytes_length ((le_cells len).trans (Nat.mul_le_mul_left 256 hcells))
  have hie := floodIe_within hf
  rw [mayOriginate_time hm hc, hbody] at hie
  have holen : octets.length = len := by rw [← hoct, beaconOctets_length (by rw [hbody]; exact hie), hbody]
  have hfil : (some f).filter (fun f => s.mayOriginate (parseMac l) f && f.cls == 3) = some f := by simp [Option.filter, hm, hc]
  refine completes_gives rfl ?_
  rw [if_pos (by rw [← State.beacons, h])]
  dsimp only
  rw [hlane, hlen, htc, hl, hf, hfil]
  dsimp only
  have hmine : (tc.any fun c => (s.cell c).owner != ownCore) = false := by
    rw [List.any_eq_false]
    intro c hc
    rw [bne_iff_ne, not_not, ← beq_iff_eq]
    exact List.all_eq_true.mp hown c hc
  rw [if_neg (by simp [hmine, hok]; omega)]
  refine gives_bind ((gives_allocChain ha hn).mono ?_)
  rintro _ t ⟨cells, rfl, hcl, hnd, hfree, hcell, hdev, hin⟩
  dsimp only
  refine gives_bind ((gives_originate _).mono fun r u ⟨hr, hu⟩ => gives_bind ((gives_takeSeed _).mono ?_))
  rintro seed _ ⟨x, rfl⟩
  rw [if_neg (by rw [State.taken, State.jobs, hj]; simp), if_neg (by rw [hs]; decide)]
  refine gives_bind (gives_chainWrite (gives_bind ((gives_addJob _).mono fun _ v hv => gives_pure ?_)))
  have hseq : t.fld FLOOD_SEQ_NEXT = s.fld FLOOD_SEQ_NEXT := by rw [State.fld, hin.reg (by decide), State.fld]
  have hro : r = octets := by rw [hr, hseq, hair]; exact hoct
  obtain ⟨k, hud⟩ := hu.dev
  generalize hw : (u.live fun d => { d with tx := { d.tx with seed := x } }) = w at hv
  have hwd : w.dev = { u.dev with tx := { u.dev.tx with seed := x } } := hw ▸ rfl
  have htx : (w.cellsPut cells r).dev.tx.jobs = [] := by rw [cellsPut_dev, hwd, hud, hdev]; exact hj
  have hcellw : ∀ c, v.cell c = t.cell c := fun c => by rw [State.cell, hv, jobAdded_cells, cellsPut_dev, hwd, hud, State.cell]
  refine ⟨?_, ?_, ?_, ?_⟩
  · rw [latchEdges_fld, hv, jobAdded_fld _ (by decide), State.fld, (within_cellsPut (F := { mem := cellMem }) (fun c hc => (hfree c hc).1) fun _ h => h).regs _ rfl,
      ← State.fld, ← hw, State.live_fld, hu.seq, hseq]
  · rw [latchEdges_tx, hv, jobAdded_jobs, htx, hro]
    rfl
  · intro j hjm
    rw [latchEdges_tx, hv, jobAdded_jobs, htx, List.nil_append, List.mem_singleton] at hjm
    subst hjm
    refine ⟨rfl, hair, rfl, hcl, ?_, fun c hc => ⟨(hfree c hc).2, ?_⟩⟩
    · rw [chainBytes_congr (t := latchEdges s v) (s := w.cellsPut cells r) (fun a => by rw [latchEdges_byte, hv, jobAdded_byte]), hro]
      exact chainBytes_cellsPut _ _ _ hnd (by rw [holen, hcl]; exact le_cells len)
    · obtain ⟨y, hy, ho, -⟩ := linked_mem (owner := ownLink) (pool := poolTx) (hold := false) hc
      rw [latchEdges_cell, hcellw, hcell, hy]
      exact ho
  · have h1 : s.Within beaconFoot t := hin.widen ⟨fun a h => by
      refine decide_eq_true (List.mem_cons_of_mem _ (List.mem_cons_of_mem _ (of_decide_eq_true h))), nofun, nofun, nofun, nofun, nofun, nofun⟩
    have h2 : t.Within beaconFoot u := hu.within.widen ⟨fun a h => by
      obtain rfl := List.mem_singleton.mp (of_decide_eq_true h)
      decide, nofun, fun _ h => h, nofun, nofun, nofun, nofun⟩
    rw [State.within_latch_iff, hv, within_jobAdded_iff (by decide)]
    refine (h1.trans h2).trans (State.Within.trans (t := w) ?_ (within_cellsPut (fun c hc => (hfree c hc).1) fun _ h => h))
    exact hw ▸ (State.within_live_iff rfl).mpr (u.within_refl _)

/-! ### Beacon windows, holds and scans, the radio in RX by itself (R201–R204) -/

/-- The radio receives without the scheduler's doing, its lanes as they are to be, and beside the beacon's no window is open. -/
structure State.Tracks (s : State) : Prop where
  awake : s.Awake
  fit : s.LanesFit
  rx : s.radio = 3
  quiet : s.rxQuiet = true
  woke : s.dev.samp.woke = false
  closing : s.dev.samp.closing = false
  sample : s.dev.samp.sample = false
  rdv : s.dev.samp.rdv = none

/-- The registers that a lane's selection is read from. -/
def fitRegs : List Nat := [CTRL lanesPage, LANES_ENABLE, LANES_STAT, RCTL_STAT]

theorem State.LanesFit.of_own (h : s.LanesFit) (hw : s.dev.samp.woke = false) (hw' : t.dev.samp.woke = false) (hr : t.dev.radio = s.dev.radio)
    (hreg : ∀ a ∈ fitRegs, t.reg a = s.reg a) : t.LanesFit := fun n hn => by
  have hf {x : Fld} (hx : x.addr ∈ fitRegs) : t.fld x = s.fld x := by rw [State.fld, hreg _ hx, State.fld]
  have hb {x : Fld} (hx : x.addr ∈ fitRegs) : t.bit x = s.bit x := by rw [State.bit, hf hx, State.bit]
  have hs : t.laneState n = s.laneState n := hf (x := laneStateFld n) (show LANES_STAT ∈ fitRegs by decide)
  have hl : t.windowLanes = s.windowLanes := by rw [State.windowLanes, State.windowLanes, if_pos (by simp [hw']), if_pos (by simp [hw])]
  have ho : t.laneOn n = s.laneOn n := by
    rw [State.laneOn, State.laneUp, hl, State.en, hb (by decide), hb (x := ⟨LANES_ENABLE, n, n⟩) (show LANES_ENABLE ∈ fitRegs by decide), State.rxRuns,
      hf (by decide), hr, State.laneOn, State.laneUp, State.rxRuns, State.en]
  rw [hs, ho]
  exact h n hn

/-- What touches no lane keeps all this. -/
theorem State.Tracks.of_eq (h : s.Tracks) {y : Samp} (hd : t.dev = { s.dev with samp := y, ctr := t.dev.ctr, intc := t.dev.intc })
    (hw : y.woke = false) (hc : y.closing = false) (hs : y.sample = false) (hr : y.rdv = none)
    (hreg : ∀ a ∈ fitRegs, t.reg a = s.reg a) : t.Tracks := by
  have hsamp : t.dev.samp = y := by rw [hd]
  refine ⟨?_, h.fit.of_own h.woke (hsamp ▸ hw) (by rw [hd]) hreg, ?_, ?_, hsamp ▸ hw, hsamp ▸ hc, hsamp ▸ hs, hsamp ▸ hr⟩
  · rw [State.Awake, hd]
    exact h.awake
  · rw [State.radio, State.fld, hreg _ (by decide), ← State.fld]
    exact h.rx
  · have hl : ∀ n, t.lane n = s.lane n := fun n => by rw [State.lane, hd, State.lane]
    have hj : t.jobs = s.jobs := by rw [State.jobs, hd, State.jobs]
    have hq := h.quiet
    rw [State.rxQuiet] at hq ⊢
    simpa only [hl, hj] using hq

/-- A beacon window opens, moves or closes: WIN alone follows. -/
theorem State.Tracks.gives_setWin (h : s.Tracks) {f : Samp → Samp} (hw : (f s.dev.samp).woke = false) :
    (setWin f).Gives s fun _ t => t = s.windowed f := h.awake.gives_setWin (.inr ⟨h.fit, windowLanes_own h.woke hw⟩)

/-- A beacon window that closes leaves the radio in RX (R190). -/
theorem State.Tracks.gives_winEnd (h : s.Tracks) {f : Samp → Samp} (hw : (f s.dev.samp).woke = false) (hc : (f s.dev.samp).closing = false) :
    (winEnd f).Gives s fun _ t => t = s.windowed f := by
  refine gives_bind ((h.gives_setWin hw).mono ?_)
  rintro _ _ rfl
  refine gives_bind (gives_getS ?_)
  have hd : (s.windowed f).dev.samp = f s.dev.samp := by rw [windowed_dev]
  rw [hd, hw, hc]
  split
  · exact gives_nop rfl
  · exact gives_nop rfl

/-- The radio receives already (R201). -/
theorem listen_run (h : s.radio = 3) : listen.run s = s := by rw [listen, run_getS, if_neg (fun hc => hc.1 h), run_pure]

theorem mainOpen_shown {x : Samp} {w : Nat} (h : w ≠ 0) : (x.mainOpen w).shown = w := by simp [Samp.shown, Samp.mainOpen, h]
theorem mainEnd_shown {x : Samp} (hs : x.sample = false) (hr : x.rdv = none) : x.mainEnd.shown = 0 := by simp [Samp.shown, Samp.mainEnd, hs, hr]

theorem windowOpen_completes (hi : s.Inv) (h : s.Tracks) (hon : s.sampOn = true) (hb : s.fld SAMP_STAT_BSTATE = 1) (hm : s.dev.samp.main = 0) :
    Completes .beaconWindowOpen s fun t =>
      t.dev.samp = { s.dev.samp.mainOpen 3 with tracked := s.dev.samp.tracked + 1 } ∧ s.Sets t [(SAMP_STAT_WIN, 3)] := by
  let f : Samp → Samp := fun x => { x.mainOpen winBeacon with tracked := x.tracked + 1 }
  have hw : (f s.dev.samp).shown = 3 := mainOpen_shown (x := { s.dev.samp with tracked := s.dev.samp.tracked + 1 }) (w := winBeacon) (by decide)
  have hd := (did_refl (F := {}) (noted := []) hi).windowed (f := f)
  rw [hw] at hd
  refine completes_run rfl ?_
  rw [if_pos (by simp [hon, hb, h.closing, hm]), (h.gives_setWin (f := f) h.woke).run_bind_to, listen_run (windowed_radio.trans h.rx)]
  exact ⟨by rw [latchEdges_samp, windowed_dev], hd.latched s⟩

theorem windowOpen_none (h : s.fld SAMP_STAT_BSTATE ≠ 1 ∨ s.dev.samp.main ≠ 0) :
    Completes .beaconWindowOpen s fun t => t.dev.samp = s.dev.samp ∧ s.Within {} t := by
  refine completes_nothing rfl ?_ ⟨by rw [latchEdges_samp], State.within_latch_iff.mpr (s.within_refl _)⟩
  rw [if_neg (by rcases h with h | h <;> simp [h]), run_pure]

/-! ### A beacon missed (R202, R204) -/

theorem run_through_stat (e : Nat) (k : Unit → M Unit) : (stat e >>= k).run s = (k ()).run ((stat e).run s) := by rw [run_stat_bind, run_stat]

/-- A missed beacon counted and told (R206). -/
def State.missed (s : State) : State :=
  (emit sampPage 0x0A).run ((stat 0x13).run (s.counted sampPage 4 1 (min 0xFFFFFFFF (s.ctr sampPage 4 1 + 1))))

theorem missed_dev : s.missed.dev = { s.dev with ctr := s.missed.dev.ctr } := by
  rw [State.missed, emit_unlatched_dev (by decide), run_stat, State.counted_dev, State.counted_dev]
theorem missed_reg {a : Nat} (h : a ∉ perfRegs sampPage) : s.missed.reg a = s.reg a := by
  rw [State.missed, (emit_unlatched _ _ (by decide)).1.reg h, run_stat, State.counted_reg, State.counted_reg]
theorem missed_events : s.missed.events = s.events ++ [0x0A] := by rw [State.missed, emit_events (by decide), run_stat, State.counted_events, State.counted_events]
theorem missed_count : s.missed.ctr sampPage 4 1 = min 0xFFFFFFFF (s.ctr sampPage 4 1 + 1) := by
  rw [State.missed, State.ctr_emit, run_stat, State.ctr_counted_other (by decide), State.ctr_counted_same]
theorem missed_losses : s.missed.ctr sampPage 4 2 = s.ctr sampPage 4 2 := by
  rw [State.missed, State.ctr_emit, run_stat, State.ctr_counted_other (by decide), State.ctr_counted_other (by decide)]
theorem State.Did.missed {l : List (Fld × Nat)} {noted : List Nat} (h : s.Did t l noted F) (hn : ∀ a ∈ perfRegs sampPage, F.regs a = true ∨ a ∈ noted) :
    s.Did t.missed l noted F := by
  refine State.Did.emit ?_ (by decide) hn
  rw [run_stat]
  exact (h.counted _ _ _ _).counted _ _ _ _

theorem State.Tracks.missed (h : s.Tracks) : s.missed.Tracks :=
  h.of_eq (y := s.dev.samp) (by rw [missed_dev]) h.woke h.closing h.sample h.rdv
    fun _ ha => missed_reg (by simp only [fitRegs, List.mem_cons, List.not_mem_nil, or_false] at ha; rcases ha with rfl | rfl | rfl | rfl <;> decide)

theorem State.Tracks.put (h : s.Tracks) {f : Fld} (hf : f.addr ∉ fitRegs) (x : Nat) : (s.put f x).Tracks :=
  h.of_eq (y := s.dev.samp) (by rw [State.dev_put]) h.woke h.closing h.sample h.rdv
    fun a ha => State.reg_put_other _ fun he => hf (he ▸ ha)

theorem missed_misses : s.missed.fld SAMP_STAT_MISSES = s.fld SAMP_STAT_MISSES := by rw [State.fld, missed_reg (by decide), State.fld]

/-- A miss that leaves tracking on (R202). -/
theorem beaconMissed_few (h : s.Tracks) (hm : s.fld SAMP_STAT_MISSES < 2) :
    beaconMissed.run s = (s.missed.put SAMP_STAT_MISSES (s.fld SAMP_STAT_MISSES + 1)).windowed Samp.mainEnd := by
  have ht := h.missed.put (f := SAMP_STAT_MISSES) (by decide) (s.fld SAMP_STAT_MISSES + 1)
  rw [beaconMissed, run_count_bind, run_through_stat, run_emit_bind, ← State.missed, run_getS]
  dsimp only
  rw [missed_misses, if_pos hm, run_setFld_bind, ht.awake.winEnd_run ht.fit ht.woke ht.woke ht.closing]

/-- Tracking given up: SYNC falls and a scan begins (R204). -/
def State.lostBeacon (s : State) : State :=
  ((emit sampPage 0x0B).run ((s.missed.put NTIME_STAT_SYNC 0).counted sampPage 4 2 (min 0xFFFFFFFF (s.ctr sampPage 4 2 + 1)))).live
    fun d => { d with intc := { d.intc with edge := bitSet d.intc.edge 55 } }

theorem State.Tracks.lostBeacon (h : s.Tracks) : s.lostBeacon.Tracks := by
  have ht := h.missed.put (f := NTIME_STAT_SYNC) (by decide) 0
  refine ht.of_eq (y := s.dev.samp) ?_ h.woke h.closing h.sample h.rdv fun a ha => ?_
  · rw [State.lostBeacon, State.live_dev, emit_unlatched_dev (by decide), State.counted_dev, State.dev_put, missed_dev]
  · have hn : a ∉ perfRegs sampPage := by
      simp only [fitRegs, List.mem_cons, List.not_mem_nil, or_false] at ha
      rcases ha with rfl | rfl | rfl | rfl <;> decide
    rw [State.lostBeacon, State.live_reg, (emit_unlatched _ _ (by decide)).1.reg hn, State.counted_reg]

theorem scanOpen_run (h : s.Tracks) : scanOpen.run s = (s.put SAMP_STAT_BSTATE bScan).windowed (Samp.mainOpen · winScan) := by
  have ht := h.put (f := SAMP_STAT_BSTATE) (by decide) bScan
  rw [scanOpen, run_setFld_bind, (ht.gives_setWin (f := (Samp.mainOpen · winScan)) ht.woke).run_bind_to, listen_run (windowed_radio.trans ht.rx)]

theorem beaconMissed_many (h : s.Tracks) (hm : 2 ≤ s.fld SAMP_STAT_MISSES) :
    beaconMissed.run s = (s.lostBeacon.put SAMP_STAT_BSTATE bScan).windowed (Samp.mainOpen · winScan) := by
  rw [beaconMissed, run_count_bind, run_through_stat, run_emit_bind, ← State.missed, run_getS]
  dsimp only
  rw [missed_misses, if_neg (by omega), run_setFld_bind, run_count_bind, run_emit_bind, pulse, run_modIntc_bind, State.ctr_put, missed_losses,
    ← State.lostBeacon, scanOpen_run h.lostBeacon]

/-! ### Windows and holds that close (R202, R203) -/

theorem State.Tracks.timeOver (h : s.Tracks) : s.timeOver.Tracks :=
  h.of_eq (y := { s.dev.samp with ended := true }) rfl h.woke h.closing h.sample h.rdv fun _ _ => rfl

theorem winSettle_miss (h : s.Tracks) (hm : s.dev.samp.main = 3) (hu : s.dev.samp.updated = false) :
    winSettle.run s.timeOver = beaconMissed.run s.timeOver := by
  have hu' : s.timeOver.dev.samp.updated = false := hu
  have hm' : s.timeOver.dev.samp.main = 3 := hm
  rw [winSettle, run_getS, if_pos h.timeOver.quiet]
  simp only [h.timeOver.closing, h.timeOver.sample, h.timeOver.rdv, hm', hu', show s.timeOver.dev.samp.ended = true from rfl, Bool.or_true, Bool.false_and,
    Bool.false_eq_true, if_false, if_true, Option.any_none]
  rfl

/-- A beacon window without an update closes as a miss, whether or not a detection kept it (R202). -/
theorem windowClose_misses (h : s.Tracks) (hm : s.dev.samp.main = 3) (hu : s.dev.samp.updated = false)
    (hP : ∀ v, v = s ∨ v = s.timeOver → P (latchEdges s (beaconMissed.run v))) : Completes .beaconWindowClose s P := by
  refine completes_run rfl ?_
  rw [if_pos ⟨hm, by simp [hu]⟩]
  split
  · rw [modSamp, run_modDev_bind, ← State.timeOver, winSettle_miss h hm hu]
    exact hP _ (.inr rfl)
  · exact hP _ (.inl rfl)

theorem windowClose_first (hi : s.Inv) (h : s.Tracks) (hm : s.fld SAMP_STAT_MISSES < 2) (hv : v = s ∨ v = s.timeOver) :
    (latchEdges s (beaconMissed.run v)).ctr sampPage 4 1 = min 0xFFFFFFFF (s.ctr sampPage 4 1 + 1) ∧
      (latchEdges s (beaconMissed.run v)).events = s.events ++ [0x0A] ∧ (latchEdges s (beaconMissed.run v)).dev.samp = s.dev.samp.mainEnd ∧
      s.Sets (latchEdges s (beaconMissed.run v)) [(SAMP_STAT_MISSES, s.fld SAMP_STAT_MISSES + 1), (SAMP_STAT_WIN, 0)] (perfOf sampPage) := by
  obtain ⟨hd, ht, hctr, hev, hend, hfld⟩ : s.Did v [] (perfOf sampPage) ∧ v.Tracks ∧ v.ctr sampPage 4 1 = s.ctr sampPage 4 1 ∧ v.events = s.events ∧
      v.dev.samp.mainEnd = s.dev.samp.mainEnd ∧ v.fld SAMP_STAT_MISSES = s.fld SAMP_STAT_MISSES := by
    rcases hv with rfl | rfl
    · exact ⟨did_refl hi, h, rfl, rfl, rfl, rfl⟩
    · exact ⟨(did_refl hi).lived (by rfl), h.timeOver, rfl, rfl, rfl, rfl⟩
  rw [beaconMissed_few ht (hfld ▸ hm), hfld]
  have hsamp : (v.missed.put SAMP_STAT_MISSES (s.fld SAMP_STAT_MISSES + 1)).dev.samp.mainEnd = s.dev.samp.mainEnd := by
    rw [State.dev_put, missed_dev, ← hend]
  have hsets := (((hd.missed (by decide)).puts (f := SAMP_STAT_MISSES) (v := s.fld SAMP_STAT_MISSES + 1) (by decide)).windowed (f := Samp.mainEnd)).latched s
  rw [hsamp, mainEnd_shown h.sample h.rdv] at hsets
  refine ⟨?_, ?_, by rw [latchEdges_samp, windowed_dev, ← hsamp], hsets⟩
  · rw [latchEdges_ctr_read, State.windowed, State.ctr_put, State.ctr_live rfl, State.ctr_put, missed_count, hctr]
  · rw [latchEdges_events, State.windowed, State.events_put, State.live_events, State.events_put, missed_events, hev]

theorem windowClose_third (hi : s.Inv) (h : s.Tracks) (hm : 2 ≤ s.fld SAMP_STAT_MISSES) (hv : v = s ∨ v = s.timeOver) :
    (latchEdges s (beaconMissed.run v)).ctr sampPage 4 1 = min 0xFFFFFFFF (s.ctr sampPage 4 1 + 1) ∧
      (latchEdges s (beaconMissed.run v)).ctr sampPage 4 2 = min 0xFFFFFFFF (s.ctr sampPage 4 2 + 1) ∧
      (latchEdges s (beaconMissed.run v)).events = s.events ++ [0x0A, 0x0B] ∧ (latchEdges s (beaconMissed.run v)).dev.intc.edge.testBit 55 = true ∧
      (latchEdges s (beaconMissed.run v)).dev.samp = s.dev.samp.mainOpen 4 ∧
      s.Sets (latchEdges s (beaconMissed.run v)) [(NTIME_STAT_SYNC, 0), (SAMP_STAT_BSTATE, 2), (SAMP_STAT_WIN, 4)] (perfOf sampPage) := by
  obtain ⟨hd, ht, hc1, hc2, hev, hend, hfld⟩ : s.Did v [] (perfOf sampPage) ∧ v.Tracks ∧ v.ctr sampPage 4 1 = s.ctr sampPage 4 1 ∧
      v.ctr sampPage 4 2 = s.ctr sampPage 4 2 ∧ v.events = s.events ∧
      v.dev.samp.mainOpen 4 = s.dev.samp.mainOpen 4 ∧ v.fld SAMP_STAT_MISSES = s.fld SAMP_STAT_MISSES := by
    rcases hv with rfl | rfl
    · exact ⟨did_refl hi, h, rfl, rfl, rfl, rfl, rfl⟩
    · exact ⟨(did_refl hi).lived (by rfl), h.timeOver, rfl, rfl, rfl, rfl, rfl⟩
  rw [beaconMissed_many ht (hfld ▸ hm)]
  have hlost : v.lostBeacon.dev.samp = v.dev.samp := by
    rw [State.lostBeacon, State.live_dev, emit_unlatched_dev (by decide), State.counted_dev, State.dev_put, missed_dev]
  have hdid : s.Did v.lostBeacon [(NTIME_STAT_SYNC, 0)] (perfOf sampPage) :=
    ((((hd.missed (by decide)).puts (f := NTIME_STAT_SYNC) (v := 0) (by decide)).counted _ _ _ _).emits (by decide) (by decide)).lived (by rfl)
  have hsets := ((hdid.puts (f := SAMP_STAT_BSTATE) (v := bScan) (by decide)).windowed (f := (Samp.mainOpen · winScan))).latched s
  rw [mainOpen_shown (by decide)] at hsets
  refine ⟨?_, ?_, ?_, ?_, ?_, hsets⟩
  · rw [latchEdges_ctr_read, State.windowed, State.ctr_put, State.ctr_live rfl, State.ctr_put, State.lostBeacon, State.ctr_live rfl, State.ctr_emit,
      State.ctr_counted_other (by decide), State.ctr_put, missed_count, hc1]
  · rw [latchEdges_ctr_read, State.windowed, State.ctr_put, State.ctr_live rfl, State.ctr_put, State.lostBeacon, State.ctr_live rfl, State.ctr_emit,
      State.ctr_counted_same, hc2]
  · rw [latchEdges_events, State.windowed, State.events_put, State.live_events, State.events_put, State.lostBeacon, State.live_events,
      emit_events (by decide), State.counted_events, State.events_put, missed_events, hev, List.append_assoc]
    rfl
  · refine latchEdges_edge ?_
    rw [windowed_dev, State.dev_put, State.lostBeacon, State.live_dev]
    rw [bitSet_testBit]
    simp
  · rw [latchEdges_samp, windowed_dev, State.dev_put, hlost, ← hend]

theorem windowClose_none (h : s.dev.samp.main ≠ 3 ∨ s.dev.samp.updated = true) :
    Completes .beaconWindowClose s fun t => t.dev.samp = s.dev.samp ∧ s.Within {} t := by
  refine completes_nothing rfl ?_ ⟨by rw [latchEdges_samp], State.within_latch_iff.mpr (s.within_refl _)⟩
  rw [if_neg (by rcases h with h | h <;> simp [h]), run_pure]

theorem holdEnd_closes (hi : s.Inv) (h : s.Tracks) (hm : s.dev.samp.main = 5) :
    Completes .beaconHoldEnd s fun t => t.dev.samp = s.dev.samp.mainEnd ∧ s.Sets t [(SAMP_STAT_WIN, 0)] := by
  have hm' : s.timeOver.dev.samp.main = 5 := hm
  have ht := h.timeOver
  have hd := ((did_refl (F := {}) (noted := []) hi).lived (f := fun d => { d with samp := { d.samp with ended := true } }) (by rfl)).windowed (f := Samp.mainEnd)
  rw [← State.timeOver, mainEnd_shown ht.sample ht.rdv] at hd
  refine completes_run rfl ?_
  rw [if_pos hm, modSamp, run_modDev_bind, ← State.timeOver, winSettle, run_getS, if_pos ht.quiet]
  simp only [ht.closing, ht.sample, ht.rdv, hm', show s.timeOver.dev.samp.ended = true from rfl, Bool.false_and, Bool.false_eq_true, if_false, and_self,
    if_true, Option.any_none, show (5 : Nat) ≠ winBeacon from by decide, show (5 : Nat) = winHold from rfl]
  rw [ht.awake.winEnd_run ht.fit ht.woke ht.woke ht.closing]
  exact ⟨by rw [latchEdges_samp, windowed_dev]; rfl, hd.latched s⟩

theorem holdEnd_none (h : s.dev.samp.main ≠ 5) : Completes .beaconHoldEnd s fun t => t.dev.samp = s.dev.samp ∧ s.Within {} t :=
  completes_nothing rfl (by rw [if_neg h, run_pure]) ⟨by rw [latchEdges_samp], State.within_latch_iff.mpr (s.within_refl _)⟩

/-! ### Scans (R122, R204) -/

theorem rescan_scans (hi : s.Inv) (h : s.Tracks) (hb : s.fld SAMP_STAT_BSTATE = 1 ∨ s.fld SAMP_STAT_BSTATE = 3) : Completes .rescan s fun t =>
    s.Sets t [(NTIME_STAT_SYNC, 0), (SAMP_STAT_MISSES, 0), (SAMP_STAT_BSTATE, 2), (SAMP_STAT_WIN, 4)] := by
  have ht := (h.put (f := NTIME_STAT_SYNC) (by decide) 0).put (f := SAMP_STAT_MISSES) (by decide) 0
  have hd := ((((did_refl (F := {}) (noted := []) hi).puts (f := NTIME_STAT_SYNC) (v := 0) (by decide)).puts (f := SAMP_STAT_MISSES) (v := 0) (by decide)).puts
    (f := SAMP_STAT_BSTATE) (v := bScan) (by decide)).windowed (f := (Samp.mainOpen · winScan))
  rw [mainOpen_shown (by decide)] at hd
  refine completes_run (m := rescan) rfl ?_
  rw [rescan, run_getS]
  dsimp only
  rw [if_pos hb.symm, run_setFld_bind, run_setFld_bind, scanOpen_run ht]
  exact hd.latched s

theorem rescan_refused (hi : s.Inv) (hb : s.fld SAMP_STAT_BSTATE = 0 ∨ s.fld SAMP_STAT_BSTATE = 2) :
    Completes .rescan s fun t => s.Reports t sampPage fltState := by
  refine completes_run (m := rescan) rfl ?_
  rw [rescan, run_getS]
  dsimp only
  rw [if_neg (by rcases hb with hb | hb <;> simp [hb])]
  exact (reports_setFlt hi ⟨by decide, by decide, by decide⟩ (by decide)).latch

/-- HW lowered to SW with nothing queued (R122). -/
theorem setMode_lower (hm : s.fld LINK_STAT_MODE = 2) (hj : s.dev.tx.jobs = []) (he : s.en linkPage = true) (hu : s.bit LINK_STAT_UCODE_OK = true)
    (k : Unit → M Unit) : (setMode 1 >>= k).run s = (k ()).run (s.moded 1 1) := by
  have hset : (setMode 1).Gives s fun _ t => t = s.moded 1 1 := by
    refine gives_bind (gives_getS ?_)
    dsimp only
    rw [if_neg (by simp [he, hu])]
    refine gives_bind (gives_setFld (gives_bind (gives_setFld ?_)))
    rw [if_pos ⟨hm, by decide⟩]
    refine gives_bind ((gives_cancelRelays (s := s.moded 1 1) hj).mono ?_)
    rintro _ _ rfl
    rw [if_neg (by simp), if_neg (by simp [hm])]
    exact gives_pure rfl
  exact hset.run_bind_to k

/-- The scan is over, its window closed (R204). -/
def State.scanOver (s : State) : State :=
  ((s.put SAMP_STAT_BSTATE bLost).counted sampPage 4 3 (min 0xFFFFFFFF (s.ctr sampPage 4 3 + 1))).windowed Samp.mainEnd

theorem scanTimeout_run (h : s.Tracks) (hb : s.fld SAMP_STAT_BSTATE = 2) (hP : P (latchEdges s (autoSw.run s.scanOver))) : Completes .scanTimeout s P := by
  have ht : ((s.put SAMP_STAT_BSTATE bLost).counted sampPage 4 3 (min 0xFFFFFFFF (s.ctr sampPage 4 3 + 1))).Tracks :=
    (h.put (f := SAMP_STAT_BSTATE) (by decide) bLost).of_eq (y := s.dev.samp) (by rw [State.counted_dev, State.dev_put]) h.woke h.closing h.sample h.rdv
      fun _ _ => rfl
  have hend : (winEnd Samp.mainEnd).Gives ((s.put SAMP_STAT_BSTATE bLost).counted sampPage 4 3 (min 0xFFFFFFFF (s.ctr sampPage 4 3 + 1)))
      fun _ t => t = s.scanOver :=
    ht.gives_winEnd ht.woke ht.closing
  refine completes_run rfl ?_
  rw [if_pos hb, run_setFld_bind, run_count_bind, State.ctr_put, hend.run_bind_to]
  exact hP

theorem scanOver_fld {f : Fld} (h : f.addr ≠ SAMP_STAT) : s.scanOver.fld f = s.fld f := by
  rw [State.scanOver, windowed_fld h, State.counted_fld, State.fld_put_other _ h]
theorem scanOver_bit {f : Fld} (h : f.addr ≠ SAMP_STAT) : s.scanOver.bit f = s.bit f := by rw [State.bit, scanOver_fld h, State.bit]
theorem scanOver_count : s.scanOver.ctr sampPage 4 3 = min 0xFFFFFFFF (s.ctr sampPage 4 3 + 1) := by
  rw [State.scanOver, State.windowed, State.ctr_put, State.ctr_live rfl, State.ctr_counted_same]
theorem scanOver_jobs : s.scanOver.dev.tx = s.dev.tx := by rw [State.scanOver, windowed_dev, State.counted_dev, State.dev_put]

theorem did_scanOver {noted : List Nat} (hi : s.Inv) (h : s.Tracks) : s.Did s.scanOver [(SAMP_STAT_BSTATE, 3), (SAMP_STAT_WIN, 0)] noted := by
  have hd := (((did_refl (F := {}) (noted := noted) hi).puts (f := SAMP_STAT_BSTATE) (v := bLost) (by decide)).counted sampPage 4 3
    (min 0xFFFFFFFF (s.ctr sampPage 4 3 + 1))).windowed (f := Samp.mainEnd)
  rw [State.counted_dev, State.dev_put, mainEnd_shown h.sample h.rdv] at hd
  exact hd

theorem scanTimeout_sw (hi : s.Inv) (h : s.Tracks) (hb : s.fld SAMP_STAT_BSTATE = 2) (hm : s.fld LINK_STAT_MODE = 1) : Completes .scanTimeout s fun t =>
    t.ctr sampPage 4 3 = min 0xFFFFFFFF (s.ctr sampPage 4 3 + 1) ∧ s.Sets t [(SAMP_STAT_BSTATE, 3), (SAMP_STAT_WIN, 0)] := by
  refine scanTimeout_run h hb ?_
  rw [autoSw, run_getS, if_neg (by rw [scanOver_fld (by decide), hm]; decide), run_pure]
  exact ⟨by rw [latchEdges_ctr_read, scanOver_count], (did_scanOver hi h).latched s⟩

theorem scanTimeout_hw (hi : s.Inv) (hq : s.dev.tx.jobs = []) (h : s.Tracks) (hb : s.fld SAMP_STAT_BSTATE = 2) (hm : s.fld LINK_STAT_MODE = 2)
    (he : s.en linkPage = true) (hu : s.bit LINK_STAT_UCODE_OK = true) : Completes .scanTimeout s fun t =>
      t.ctr sampPage 4 3 = min 0xFFFFFFFF (s.ctr sampPage 4 3 + 1) ∧
      s.Sets t [(SAMP_STAT_BSTATE, 3), (SAMP_STAT_WIN, 0), (LINK_MODE_MODE, 1), (LINK_STAT_MODE, 1), (LINK_STAT_AUTOSW, 1)] (evRegs linkPage) := by
  have hm' : s.scanOver.fld LINK_STAT_MODE = 2 := (scanOver_fld (by decide)).trans hm
  have hd := (((did_scanOver (noted := evRegs linkPage) hi h).puts (f := LINK_MODE_MODE) (v := 1) (by decide)).puts (f := LINK_STAT_MODE) (v := 1) (by decide)).puts
    (f := LINK_STAT_AUTOSW) (v := 1) (by decide)
  refine scanTimeout_run h hb ?_
  rw [autoSw, run_getS, if_pos hm', setMode_lower hm' (by rw [scanOver_jobs]; exact hq) ((scanOver_bit (by decide)).trans he)
    ((scanOver_bit (by decide)).trans hu), run_setFld_bind]
  refine ⟨?_, (hd.emit_noted fun a ha => .inr ha).latched s⟩
  rw [latchEdges_ctr_read, State.ctr_emit, State.ctr_put, State.moded, State.ctr_put, State.ctr_put, scanOver_count]

/-- Settles O34: a beacon as its frame and its counters; a beacon window, hold or scan as its state of the scheduler and WIN. -/
theorem beacons : Obligations.Beacons := by
  refine ⟨fun s _ hj => ⟨beacon_off, fun h hf => beacon_none h hj hf, fun h f hf hm hc hown hcells ha hn hs hok hmax =>
    beacon_placed rfl rfl rfl rfl h hj hf hm hc hown hcells ha hn hs hok hmax rfl rfl⟩,
    fun s hi hq hl hr hp he hw hc hs hrd => ?_⟩
  have h : s.Tracks := ⟨⟨hp, he⟩, hl, hr, hq.rxQuiet, hw, hc, hs, hrd⟩
  exact ⟨windowOpen_completes hi h, windowOpen_none,
    fun hm hu => ⟨fun hf => windowClose_misses h hm hu fun v hv => windowClose_first hi h hf hv,
      fun hf => windowClose_misses h hm hu fun v hv => windowClose_third hi h hf hv⟩,
    windowClose_none, holdEnd_closes hi h, holdEnd_none, scanTimeout_sw hi h, scanTimeout_hw hi hq.jobs h, rescan_scans hi h, rescan_refused hi⟩

end Sys2Proof.Machine
end

section
/-!
A descriptor taken and a frame completed; securing, acknowledgement windows and retries of a frame that is alone (R129–R133, R149, R151,
R153, R225).
-/
namespace Sys2Proof.Machine
open Sys2Proof.Reg

variable {s t u : State} {F : Foot} {P : State → Prop} {j : TxJob} {st : Nat}

/-! ### Frames in the queue -/

theorem gives_setJobs (l : List TxJob) : (setJobs l).Gives s fun _ t => t = s.requeued l := gives_bind (gives_act (gives_setFld rfl))
theorem gives_putJob (j : TxJob) : (putJob j).Gives s fun _ t => t = s.requeued (s.dev.tx.jobs.map fun k => if k.id = j.id then j else k) :=
  gives_bind (gives_getS (gives_setJobs _))

theorem gives_addJob_id {k : TxJob} : (addJob k).Gives s fun i t => i = s.dev.tx.nextId ∧ t = s.jobAdded k :=
  gives_bind (gives_getS (gives_bind (gives_act (gives_bind (gives_bind (gives_act (gives_setFld (gives_pure ⟨rfl, rfl⟩))))))))

theorem requeued_cells (l : List TxJob) : (s.requeued l).dev.cells = s.dev.cells := by rw [requeued_dev]
theorem requeued_cell (l : List TxJob) (x : Nat) : (s.requeued l).cell x = s.cell x := State.cell_congr (requeued_cells l) x

/-! ### Completed slots (R132) -/

/-- DONE has moved over completed slots, and nothing else has. -/
structure State.Slid (s t : State) : Prop where
  dev : ∃ l, t.dev = { s.dev with tx := { s.dev.tx with doneSlots := l } }
  within : s.Within (onlyRegs [LINK_TXIDX]) t

theorem State.slid_refl (s : State) : s.Slid s := ⟨⟨_, rfl⟩, s.within_refl _⟩

/-- One slot on. -/
def State.slidOn (s : State) : State :=
  (s.live fun d => { d with tx := { d.tx with doneSlots := d.tx.doneSlots.erase (s.fld LINK_TXIDX_DONE) } }).put LINK_TXIDX_DONE
    ((s.fld LINK_TXIDX_DONE + 1) % ringSize (s.fld LINK_TXRING_SIZE))

theorem gives_advanceDone_stop {k : Nat} (h : s.fld LINK_TXIDX_DONE ∉ s.dev.tx.doneSlots) : (advanceDone k).Gives s fun _ t => t = s := by
  cases k with
  | zero => exact gives_nop rfl
  | succ k =>
    refine gives_bind (gives_getS ?_)
    rw [if_neg h]
    exact gives_pure rfl

theorem gives_advanceDone_on {k : Nat} {Q : Unit → State → Prop} (h : s.fld LINK_TXIDX_DONE ∈ s.dev.tx.doneSlots)
    (hq : (advanceDone k).Gives s.slidOn Q) : (advanceDone (k + 1)).Gives s Q := by
  refine gives_bind (gives_getS ?_)
  rw [if_pos h]
  exact gives_bind (gives_act (gives_bind (gives_setFld hq)))

theorem gives_advanceDone : ∀ (k : Nat) (s : State), (advanceDone k).Gives s fun _ t => s.Slid t
  | 0, s => gives_nop s.slid_refl
  | k + 1, s => by
    by_cases h : s.fld LINK_TXIDX_DONE ∈ s.dev.tx.doneSlots
    · refine gives_advanceDone_on h ((gives_advanceDone k s.slidOn).mono fun _ t ⟨⟨l, hl⟩, hw⟩ => ⟨⟨l, ?_⟩, State.Within.trans ?_ hw⟩)
      · rw [hl, State.slidOn, State.dev_put, State.live_dev]
      · rw [State.slidOn, State.within_put_iff (by decide), State.within_live_iff rfl]
        exact s.within_refl _
    · exact (gives_advanceDone_stop h).mono fun _ t ht => ht ▸ s.slid_refl

/-- The descriptor slot of a frame of the firmware's ring. -/
def State.slotAt (s : State) (j : TxJob) : Nat := s.fld LINK_TXRING_BASE * 16 + 16 * j.slot

theorem completionOf_length (j : TxJob) (st : Nat) : (completionOf j st).length = 16 := by
  simp only [completionOf, List.length_append, leBytes_length]

/-! ### What a completion is told with (R132, R153) -/

/-- A completion's counts and its event. -/
def State.told (s : State) (st : Nat) : State :=
  (emit linkPage 0xA3).run ((perf linkPage 0x42 1).run
    (if st = stNoAck then (stat 0x0B).run (s.counted linkPage 3 3 (min 0xFFFFFFFF (s.ctr linkPage 3 3 + 1))) else s))

theorem told_dev : ∃ k e, (s.told st).dev = { s.dev with ctr := k, evLost := e } := by
  rw [State.told, emit_dev, perf_dev]
  split
  · rw [run_stat, State.counted_dev, State.counted_dev]
    exact ⟨_, _, rfl⟩
  · exact ⟨_, _, rfl⟩

theorem told_within (h : ∀ a ∈ evRegs linkPage, F.regs a = true) : s.Within F (s.told st) := by
  rw [State.told, State.within_emit_iff h, State.within_perf_iff fun a ha => h a (perfRegs_sub ha)]
  split
  · rw [run_stat, State.within_counted_iff, State.within_counted_iff]
    exact s.within_refl _
  · exact s.within_refl _

theorem told_count : (s.told stNoAck).ctr linkPage 3 3 = min 0xFFFFFFFF (s.ctr linkPage 3 3 + 1) := by
  rw [State.told, State.ctr_emit, State.ctr_perf, if_pos rfl, run_stat, State.ctr_counted_other (by decide), State.ctr_counted_same]

/-! ### The end of a frame of a ring (R132, R133) -/

/-- The footprint of a completion. -/
def doneFoot (s : State) (j : TxJob) : Foot :=
  { onPages [linkPage] with mem := fun x => decide (j.kind = .ring) && decide (s.slotAt j ≤ x ∧ x < s.slotAt j + 16) }

/-- From `s` to `t` a frame was reported complete with a status. -/
structure State.Reported (s t : State) (j : TxJob) (st : Nat) : Prop where
  tx : ∃ l, t.dev.tx = { s.dev.tx with doneSlots := l }
  cells : t.dev.cells = s.dev.cells
  host : t.dev.hostp.tx = s.dev.hostp.tx
  slot : j.kind = .ring → t.bytes (s.slotAt j) 16 = completionOf j st
  done : j.kind = .ring → s.dev.tx.doneSlots = [] → j.slot = s.fld LINK_TXIDX_DONE →
    t.fld LINK_TXIDX_DONE = (j.slot + 1) % ringSize (s.fld LINK_TXRING_SIZE)
  count : st = stNoAck → t.ctr linkPage 3 3 = min 0xFFFFFFFF (s.ctr linkPage 3 3 + 1)
  within : s.Within (doneFoot s j) t

theorem ringSize_le (v : Nat) : ringSize v ≤ 1024 := by
  rw [ringSize, show (1024 : Nat) = 2 ^ 10 from rfl]
  exact Nat.pow_le_pow_right (by decide) (Nat.min_le_left _ _)

theorem ringSize_pos (v : Nat) : 0 < ringSize v := Nat.two_pow_pos _

/-- A report into the slot, before DONE moves. -/
def State.slotDone (s : State) (j : TxJob) (st : Nat) : State :=
  (s.putMem (s.slotAt j) (completionOf j st)).live fun d => { d with tx := { d.tx with doneSlots := d.tx.doneSlots ++ [j.slot] } }

theorem slotDone_fld (f : Fld) : (s.slotDone j st).fld f = s.fld f := by rw [State.slotDone, State.live_fld, State.putMem_fld]
theorem slotDone_dev : (s.slotDone j st).dev = { s.dev with tx := { s.dev.tx with doneSlots := s.dev.tx.doneSlots ++ [j.slot] } } := by
  rw [State.slotDone, State.live_dev, State.putMem_dev]

theorem slid_done (h : s.dev.tx.doneSlots = []) (hd : j.slot = s.fld LINK_TXIDX_DONE) :
    (advanceDone 1024).Gives (s.slotDone j st) fun _ t => t.fld LINK_TXIDX_DONE = (j.slot + 1) % ringSize (s.fld LINK_TXRING_SIZE) := by
  have hs : (s.slotDone j st).dev.tx.doneSlots = [j.slot] := by rw [slotDone_dev, h]; rfl
  have hf : (s.slotDone j st).fld LINK_TXIDX_DONE = j.slot := by rw [slotDone_fld, hd]
  refine gives_advanceDone_on (by rw [hs, hf]; exact List.mem_singleton_self _) ((gives_advanceDone_stop ?_).mono ?_)
  · have he : (s.slotDone j st).slidOn.dev.tx.doneSlots = [] := by
      rw [State.slidOn, State.dev_put, State.live_dev]
      simp only [hs, hf, List.erase_cons_head]
    rw [he]
    exact List.not_mem_nil
  · rintro _ _ rfl
    rw [State.slidOn, State.fld_self _ (by decide), hf, slotDone_fld]
    exact Nat.mod_eq_of_lt ((Nat.mod_lt _ (ringSize_pos _)).trans_le (ringSize_le _))

/-- A report is told: the counts and the event come last. -/
theorem reported_told {v : State} (htx : ∃ l, v.dev.tx = { s.dev.tx with doneSlots := l }) (hc : v.dev.cells = s.dev.cells)
    (hh : v.dev.hostp.tx = s.dev.hostp.tx) (hk : v.dev.ctr = s.dev.ctr) (hs : j.kind = .ring → v.bytes (s.slotAt j) 16 = completionOf j st)
    (hd : j.kind = .ring → s.dev.tx.doneSlots = [] → j.slot = s.fld LINK_TXIDX_DONE →
      v.fld LINK_TXIDX_DONE = (j.slot + 1) % ringSize (s.fld LINK_TXRING_SIZE))
    (hw : s.Within (doneFoot s j) v) : s.Reported (v.told st) j st := by
  obtain ⟨k, e, hdev⟩ := told_dev (s := v) (st := st)
  have hev : ∀ a ∈ evRegs linkPage, (doneFoot s j).regs a = true := fun a ha => (by decide : ∀ a ∈ evRegs linkPage, (onPages [linkPage]).regs a = true) a ha
  have htold : v.Within (onlyRegs (evRegs linkPage)) (v.told st) := told_within fun a ha => decide_eq_true ha
  refine ⟨by rw [hdev]; exact htx, by rw [hdev]; exact hc, by rw [hdev]; exact hh, fun hr => ?_, fun hr h0 h1 => ?_, fun hn => ?_, hw.trans (told_within hev)⟩
  · rw [← hs hr]
    exact bytes_of_byte (fun a => htold.mem a rfl) _ _
  · rw [State.fld, htold.reg (by decide), ← State.fld]
    exact hd hr h0 h1
  · subst hn
    rw [told_count, State.ctr, hk, ← State.ctr]

theorem gives_counted (p i w : Nat) : (count p i w).Gives s fun _ t => t = s.counted p i w (min 0xFFFFFFFF (s.ctr p i w + 1)) :=
  ((total_count p i w).gives_run s).mono fun _ _ h => h.trans (run_count ..)

theorem total_stat (e : Nat) : (stat e).Total := total_bind total_getS fun _ => total_act _

theorem gives_perfEmit (p e n ev : Nat) : (perf p e n >>= fun _ => emit p ev).Gives s fun _ t => t = (emit p ev).run ((perf p e n).run s) :=
  gives_bind ((gives_perf (s := s)).to_run.mono fun _ _ ht => ht ▸ (total_emit p ev).gives_run _)

theorem gives_reportDone : (reportDone j st).Gives s fun _ t => s.Reported t j st := by
  have htail {v : State} {P : State → Prop} (h : P (v.told st)) : ((if st = stNoAck then do
        count linkPage 0x03 3
        stat 0x0B
        perf linkPage 0x42 1
        emit linkPage 0xA3
      else do
        perf linkPage 0x42 1
        emit linkPage 0xA3) : M Unit).Gives v fun _ t => P t := by
    rw [State.told] at h
    split
    · next hs =>
      rw [if_pos hs] at h
      refine gives_bind ((gives_counted _ _ _).mono ?_)
      rintro _ _ rfl
      refine gives_bind (((total_stat _).gives_run _).mono ?_)
      rintro _ _ rfl
      exact (gives_perfEmit _ _ _ _).mono fun _ _ ht => ht ▸ h
    · next hs =>
      rw [if_neg hs] at h
      exact (gives_perfEmit _ _ _ _).mono fun _ _ ht => ht ▸ h
  have hev : ∀ a ∈ evRegs linkPage, (doneFoot s j).regs a = true := fun a ha => (by decide : ∀ a ∈ evRegs linkPage, (onPages [linkPage]).regs a = true) a ha
  refine gives_bind (gives_getS ?_)
  dsimp only
  split
  · next hr =>
    refine gives_bind (gives_putBytes (gives_bind (gives_act (gives_bind ?_))))
    change (advanceDone 1024).Gives (s.slotDone j st) _
    have hslid := gives_advanceDone 1024 (s.slotDone j st)
    have hin : s.Within (doneFoot s j) (s.slotDone j st) := by
      rw [State.slotDone, State.within_live_iff rfl]
      refine State.putMem_within fun i hi => ?_
      rw [completionOf_length] at hi
      simp only [doneFoot, hr, decide_true, Bool.true_and, decide_eq_true_eq]
      omega
    have hend {v : State} (hv : (s.slotDone j st).Slid v) (hd : s.dev.tx.doneSlots = [] → j.slot = s.fld LINK_TXIDX_DONE →
        v.fld LINK_TXIDX_DONE = (j.slot + 1) % ringSize (s.fld LINK_TXRING_SIZE)) : s.Reported (v.told st) j st := by
      obtain ⟨⟨l, hl⟩, hw⟩ := hv
      rw [slotDone_dev] at hl
      refine reported_told ⟨l, by rw [hl]⟩ (by rw [hl]) (by rw [hl]) (by rw [hl]) (fun _ => ?_) (fun _ => hd) (hin.trans (hw.widen ⟨fun a ha => ?_, nofun, nofun,
        nofun, nofun, nofun, nofun⟩))
      · rw [bytes_of_byte fun a => hw.mem a rfl, State.slotDone]
        exact (congrArg (State.bytes _ _) (completionOf_length j st).symm).trans (State.putMem_bytes s _ _)
      · obtain rfl := List.mem_singleton.mp (of_decide_eq_true ha)
        exact (by decide : (onPages [linkPage]).regs LINK_TXIDX = true)
    by_cases h0 : s.dev.tx.doneSlots = [] ∧ j.slot = s.fld LINK_TXIDX_DONE
    · exact (hslid.and (slid_done h0.1 h0.2)).mono fun _ v ⟨hv, hd⟩ => htail (hend hv fun _ _ => hd)
    · exact hslid.mono fun _ v hv => htail (hend hv fun h1 h2 => absurd ⟨h1, h2⟩ h0)
  · next hr =>
    split
    · refine gives_bind (gives_act (htail (reported_told ⟨_, rfl⟩ rfl rfl rfl (fun h => absurd h hr) (fun h => absurd h hr) ?_)))
      exact State.within_live s rfl
    · exact htail (reported_told ⟨_, rfl⟩ rfl rfl rfl (fun h => absurd h hr) (fun h => absurd h hr) (s.within_refl _))

/-- The other frames: all but a frame and its strobes. -/
def State.without (s : State) (j : TxJob) : List TxJob := s.dev.tx.jobs.filter fun k => k.id != j.id && !(k.kind == .strobe && k.parent == j.id)

/-- From `s` to `t` a frame of a ring came to its end with a status. -/
structure State.Finished (s t : State) (j : TxJob) (st : Nat) : Prop where
  tx : ∃ l, t.dev.tx = { s.dev.tx with jobs := s.without j, doneSlots := l }
  cell : ∀ x, t.cell x = if x ∈ j.cells then s.letGo x else s.cell x
  host : t.dev.hostp.tx = s.dev.hostp.tx
  slot : j.kind = .ring → t.bytes (s.slotAt j) 16 = completionOf j st
  done : j.kind = .ring → s.dev.tx.doneSlots = [] → j.slot = s.fld LINK_TXIDX_DONE →
    t.fld LINK_TXIDX_DONE = (j.slot + 1) % ringSize (s.fld LINK_TXRING_SIZE)
  count : st = stNoAck → t.ctr linkPage 3 3 = min 0xFFFFFFFF (s.ctr linkPage 3 3 + 1)
  within : s.Within (doneFoot s j) t

theorem gives_finishJob (hk : j.kind = .ring ∨ j.kind = .host) : (finishJob j st).Gives s fun _ t => s.Finished t j st := by
  have hend {t : State} (ht : (s.requeued (s.without j)).Reported t j st) :
      (releaseCells j.cells).Gives t fun _ u => s.Finished u j st := by
    obtain ⟨⟨l, hl⟩, hc, hh, hs, hd, hn, hw⟩ := ht
    refine (gives_releaseCells t j.cells).mono fun _ u ⟨hu, hx⟩ => ?_
    have hslot : (s.requeued (s.without j)).slotAt j = s.slotAt j := by
      rw [State.slotAt, requeued_fld _ (by decide), State.slotAt]
    have hcell : ∀ x, t.cell x = s.cell x := fun x => (State.cell_congr hc x).trans (requeued_cell _ x)
    refine ⟨⟨l, by rw [hu.dev, hl, requeued_dev]⟩, fun x => ?_, by rw [hu.dev, hh, requeued_dev], fun hr => ?_, fun hr h0 h1 => ?_, fun h => ?_, ?_⟩
    · rw [hx, State.letGo, State.letGo, hcell]
    · rw [bytes_of_byte fun a => (hu.within {}).mem a rfl, ← hslot]
      exact hs hr
    · rw [hu.fld, hd hr (by rw [requeued_dev]; exact h0) (by rw [requeued_fld _ (by decide)]; exact h1), requeued_fld _ (by decide)]
    · have hr : (s.requeued (s.without j)).ctr linkPage 3 3 = s.ctr linkPage 3 3 := by
        rw [State.ctr, requeued_dev, State.ctr]
      rw [State.ctr, hu.dev, ← State.ctr, hn h, hr]
    · rw [doneFoot, hslot, ← doneFoot] at hw
      refine State.Within.trans ?_ (hw.trans (hu.within _))
      exact (within_requeued_iff (F := doneFoot s j) (show (onPages [linkPage]).regs LINK_STAT = true by decide)).mpr (s.within_refl _)
  refine gives_bind (gives_getS (gives_bind ((gives_setJobs _).mono ?_)))
  rintro _ _ rfl
  rcases hk with hk | hk <;> rw [hk] <;> exact gives_bind (gives_reportDone.mono fun _ t ht => hend ht)

/-- The random wait of R153, from the close of the window or from now. -/
theorem gives_waitRandom (j : TxJob) : (waitRandom j).Gives s fun _ t => ∃ w v, w ≤ 1000 * s.fld LINK_CFG_WAITMAX ∧ s.Drawn v ∧
    t = v.requeued (v.dev.tx.jobs.map fun k => if k.id = j.id then
      { j with stage := .retryWait, closed := false, ts := (if j.closed then j.tend + s.ackSpan j.lane else s.dev.time.link) + 40 * w } else k) := by
  refine gives_bind (gives_getS (gives_bind ((gives_freeIn (Nat.zero_le _)).mono fun w v ⟨_, hw, hv⟩ => ?_)))
  exact (gives_putJob _).mono fun _ t ht => ⟨w, v, hw, hv, ht⟩

/-! ### A frame that is alone in the queue (R149, R153, R225) -/

section
variable (h : s.dev.tx.jobs = [j])
include h

/-- A frame alone in the queue goes on. -/
theorem gives_putJob_one {k : TxJob} (hk : k.id = j.id) : (putJob k).Gives s fun _ t => t.dev.tx.jobs = [k] ∧ s.Within (onlyRegs [LINK_STAT]) t := by
  refine (gives_putJob k).mono fun _ t ht => ?_
  subst ht
  refine ⟨?_, (within_requeued_iff (by decide)).mpr (s.within_refl _)⟩
  rw [requeued_dev, h, List.map_singleton, if_pos hk.symm]

theorem completes_putJob {c : Instr} {m : M Unit} {k : TxJob} (hc : exec c s = cmd s m) (hm : m = putJob k) (hk : k.id = j.id) :
    Completes c s fun t => t.dev.tx.jobs = [k] ∧ s.Within (onlyRegs [LINK_STAT]) t := by
  subst hm
  exact completes_gives hc ((gives_putJob_one h hk).mono fun _ t ⟨hj, hw⟩ => ⟨by rw [latchEdges_tx, hj], State.within_latch_iff.mpr hw⟩)

theorem frameSecured_ready (hl : j.level = none) (ht : j.timed = false) (hk : j.kind = .ring) (hs : j.stage = .securing) :
    Completes .frameSecured s fun t => t.dev.tx.jobs = [{ j with stage := .ready }] ∧ s.Within (onlyRegs [LINK_STAT]) t := by
  refine completes_gives rfl ?_
  have hf : s.jobs.find? (fun k => k.stage == .securing) = some j := by rw [State.jobs, h]; simp [hs]
  rw [hf]
  dsimp only
  rw [if_neg (by rw [hk]; decide)]
  refine gives_bind (gives_getS ?_)
  split
  · next hl' => exact absurd (hl.symm.trans hl') (by simp)
  rw [if_neg (by simp [ht])]
  exact (gives_putJob_one h (k := { j with stage := .ready }) rfl).mono fun _ t ⟨hj, hw⟩ => ⟨by rw [latchEdges_tx, hj], State.within_latch_iff.mpr hw⟩

theorem frameSecured_none (hs : j.stage ≠ .securing) : Completes .frameSecured s fun t => s.Within {} t := by
  refine completes_nothing rfl ?_ (State.within_latch_iff.mpr (s.within_refl _))
  have hf : s.jobs.find? (fun k => k.stage == .securing) = none := by rw [State.jobs, h]; simp [hs]
  rw [hf]
  rfl

theorem retryExpiry_one (hs : j.stage = .retryWait) : Completes .retryWaitExpiry s fun t =>
    t.dev.tx.jobs = [{ j with stage := .ready }] ∧ s.Within (onlyRegs [LINK_STAT]) t := by
  have hp : s.pick (fun k => k.stage == .retryWait) = some j := by
    rw [State.pick, State.jobs, h, List.filter_cons_of_pos (by rw [hs]; rfl)]
    rfl
  refine completes_putJob h (k := { j with stage := .ready }) rfl ?_ rfl
  rw [hp]

theorem find_ackWait (hs : j.stage = .ackWait) : s.jobs.find? (fun k => k.stage == .ackWait) = some j := by rw [State.jobs, h]; simp [hs]

theorem ackClose_held (hs : j.stage = .ackWait) (ha : s.ackComing j = true) : Completes .ackWindowClose s fun t =>
    t.dev.tx.jobs = [{ j with closed := true }] ∧ s.Within (onlyRegs [LINK_STAT]) t := by
  refine completes_putJob h (k := { j with closed := true }) rfl ?_ rfl
  rw [find_ackWait h hs]
  dsimp only
  rw [if_pos ha]

theorem ackClose_noAck (hl : j.level = none) (hs : j.stage = .ackWait) (ha : s.ackComing j = false) (hk : j.kind = .ring) (hr : j.retries = 0) :
    Completes .ackWindowClose s fun t =>
      t.dev.tx.jobs = [] ∧ t.bytes (s.slotAt j) 16 = completionOf j 0x50 ∧ t.ctr linkPage 3 3 = min 0xFFFFFFFF (s.ctr linkPage 3 3 + 1) ∧
      s.Within (doneFoot s j) t := by
  refine completes_gives rfl ?_
  rw [find_ackWait h hs]
  dsimp only
  rw [if_neg (by simp [ha])]
  refine gives_bind (gives_getS (gives_bind (((total_stat _).gives_run _).mono fun _ u hu => ?_)))
  rw [run_stat] at hu
  dsimp only
  rw [if_pos hr]
  refine ?_
  rw [noAck, if_neg (by simp [hl])]
  change (finishJob j stNoAck).Gives u _
  have hw : s.Within {} u := hu ▸ State.within_counted_iff.mpr (s.within_refl _)
  have hjobs : u.dev.tx.jobs = [j] := by rw [hu, State.counted_dev]; exact h
  have hslot : u.slotAt j = s.slotAt j := by rw [State.slotAt, State.fld, hw.regs _ rfl, ← State.fld, State.slotAt]
  refine (gives_finishJob (.inl hk)).mono fun _ t ⟨⟨l, hl⟩, _, _, hs, _, hc, hin⟩ => ⟨?_, ?_, ?_, ?_⟩
  · simp [hl, State.without, hjobs]
  · rw [latchEdges_bytes, ← hslot, hs hk]
  · rw [latchEdges_ctr_read, hc rfl, hu, State.ctr_counted_other (by decide)]
  · rw [doneFoot, hslot, ← doneFoot] at hin
    exact State.within_latch_iff.mpr ((hw.widen_nothing _).trans hin)

theorem ackClose_waits (hl : j.level = none) (ht : j.timed = false) (hs : j.stage = .ackWait) (ha : s.ackComing j = false) (hc : j.closed = false)
    (hr : j.retries ≠ 0) : Completes .ackWindowClose s fun t =>
      (t.dev.tx.jobs.map fun k => { k with ts := j.ts }) = [{ j with stage := .retryWait, retries := j.retries - 1, nt := none }] ∧
      (∀ k ∈ t.dev.tx.jobs, s.dev.time.link ≤ k.ts ∧ k.ts ≤ s.dev.time.link + 40000 * s.fld LINK_CFG_WAITMAX) ∧
      s.Within (onlyRegs [LINK_STAT]) t := by
  refine completes_gives rfl ?_
  rw [find_ackWait h hs]
  dsimp only
  rw [if_neg (by simp [ha])]
  refine gives_bind (gives_getS (gives_bind (((total_stat _).gives_run _).mono fun _ u hu => ?_)))
  rw [run_stat] at hu
  dsimp only
  rw [if_neg hr]
  split
  · next hl' => exact absurd (hl.symm.trans hl') (by simp)
  have hw : s.Within {} u := hu ▸ State.within_counted_iff.mpr (s.within_refl _)
  have hd : u.dev.tx.jobs = s.dev.tx.jobs ∧ u.dev.time = s.dev.time := by rw [hu, State.counted_dev]; exact ⟨rfl, rfl⟩
  have hmax : u.fld LINK_CFG_WAITMAX = s.fld LINK_CFG_WAITMAX := by rw [State.fld, hw.regs _ rfl, ← State.fld]
  refine (gives_waitRandom _).mono fun _ t ⟨w, v, hwm, hv, ht'⟩ => ?_
  have hjobs : t.dev.tx.jobs = [{ j with stage := .retryWait, retries := j.retries - 1, nt := none, ts := s.dev.time.link + 40 * w }] := by
    rw [ht', requeued_dev, hv.dev, hd.1, h, List.map_singleton, if_pos rfl, hc, hd.2, ht]
    rfl
  refine ⟨?_, fun k hk => ?_, ?_⟩
  · rw [latchEdges_tx, hjobs, List.map_singleton]
  · rw [latchEdges_tx, hjobs, List.mem_singleton] at hk
    subst hk
    rw [hmax] at hwm
    dsimp only
    omega
  · rw [State.within_latch_iff, ht', within_requeued_iff (by decide)]
    exact (hw.widen_nothing _).trans hv.within

end

/-! ### Lanes as they are configured (R74–R76, R118) -/

section
variable (h : ∀ a, lanesPage ≤ a → t.reg a = s.reg a)
include h

theorem lane_fld {f : Fld} (hf : lanesPage ≤ f.addr) : t.fld f = s.fld f := by rw [State.fld, h _ hf, State.fld]
theorem lane_bit {f : Fld} (hf : lanesPage ≤ f.addr) : t.bit f = s.bit f := by rw [State.bit, lane_fld h hf, State.bit]

theorem lane_phy (n : Nat) : t.lanePhy n = s.lanePhy n := lane_fld h (show lanesPage ≤ LANES_MODE n by simp only [LANES_MODE, lanesPage]; omega)
theorem lane_ofdm (n : Nat) : t.isOfdm n = s.isOfdm n := by rw [State.isOfdm, lane_phy h, State.isOfdm]
theorem lane_mode {hi lo n : Nat} : t.fld ⟨LANES_MODE n, hi, lo⟩ = s.fld ⟨LANES_MODE n, hi, lo⟩ :=
  lane_fld h (show lanesPage ≤ LANES_MODE n by simp only [LANES_MODE, lanesPage]; omega)
theorem lane_fec (n : Nat) : t.bit (LANES_MODE_FEC n) = s.bit (LANES_MODE_FEC n) :=
  lane_bit h (show lanesPage ≤ LANES_MODE n by simp only [LANES_MODE, lanesPage]; omega)
theorem lane_enable (n : Nat) : t.bit ⟨LANES_ENABLE, n, n⟩ = s.bit ⟨LANES_ENABLE, n, n⟩ := lane_bit h (show lanesPage ≤ LANES_ENABLE by decide)
theorem lane_ofs (n : Nat) : t.laneOfs n = s.laneOfs n :=
  congrArg (signed 12) (lane_fld h (show lanesPage ≤ LANES_OFS n by simp only [LANES_OFS, lanesPage]; omega))
theorem lane_len (n : Nat) : t.fld (LANES_LEN_MAXLEN n) = s.fld (LANES_LEN_MAXLEN n) :=
  lane_fld h (show lanesPage ≤ LANES_LEN n by simp only [LANES_LEN, lanesPage]; omega)
theorem lane_sfd {hi lo : Nat} (n : Nat) : t.fld ⟨LANES_SFD n, hi, lo⟩ = s.fld ⟨LANES_SFD n, hi, lo⟩ :=
  lane_fld h (show lanesPage ≤ LANES_SFD n by simp only [LANES_SFD, lanesPage]; omega)
theorem lane_rate (n : Nat) : t.laneRate n = s.laneRate n := by rw [State.laneRate, lane_mode h, State.laneRate]
theorem lane_width (n : Nat) : t.laneWidth n = s.laneWidth n := by
  rw [State.laneWidth, lane_ofdm h, lane_phy h, lane_mode h, lane_mode h, State.laneWidth]
theorem lane_same (m n : Nat) : t.sameMode m n = s.sameMode m n := by
  simp only [State.sameMode, lane_phy h, lane_ofdm h, lane_mode h]
theorem lane_shared (m n : Nat) : t.sfdShared m n = s.sfdShared m n := by
  simp only [State.sfdShared, lane_fec h, lane_sfd h]
theorem lane_cfgOk (n : Nat) : t.laneCfgOk n = s.laneCfgOk n := by
  simp only [State.laneCfgOk, lane_phy h, lane_mode h, lane_ofs h, lane_width h, lane_len h, lane_enable h, lane_same h, lane_ofdm h, lane_shared h]
theorem lane_airtime (n : Nat) (coded : Bool) (mcs p l : Nat) : t.airtime n coded mcs p l = s.airtime n coded mcs p l := by
  simp only [State.airtime, lane_phy h, lane_rate h, lane_mode h]

/-- A descriptor's check sees the lanes and the cells alone (R131). -/
theorem descCheck_congr (hc : ∀ x, t.cell x = s.cell x) (d : List Byte) (i : Nat) : t.descCheck d { j with id := i } = s.descCheck d j := by
  have hchain : ∀ c, t.chain c = s.chain c := fun c => chainFrom_congr hc 8 c
  have hopt : t.fld (LANES_MODE_OPT j.lane) = s.fld (LANES_MODE_OPT j.lane) := lane_mode h
  simp only [State.descCheck, State.descOk, lane_cfgOk h, lane_phy h, hopt, hchain, hc, TxJob.sender]
  rfl

end

/-! ### A descriptor taken (R129–R133) -/

/-- The descriptor at the front of a ring, and the frame it names. -/
def State.frontDesc (s : State) (host : Bool) : List Byte :=
  if host then s.dev.hostp.tx.headD [] else s.bytes (s.fld LINK_TXRING_BASE * 16 + 16 * s.dev.tx.take) 16
def State.frontJob (s : State) (host : Bool) : TxJob := jobOf host (if host then 0 else s.dev.tx.take) (s.frontDesc host)

/-- The ring without its front. -/
def State.pulled (s : State) (host : Bool) : State := s.live fun d =>
  if host then { d with hostp := { d.hostp with tx := d.hostp.tx.drop 1 } }
  else { d with tx := { d.tx with take := (d.tx.take + 1) % ringSize (s.fld LINK_TXRING_SIZE) } }

/-- The state in which a descriptor is checked: its frame stands in the queue. -/
def State.fetched (s : State) (host : Bool) : State := (s.pulled host).jobAdded (s.frontJob host)

theorem pulled_tx {host : Bool} : (s.pulled host).dev.tx.jobs = s.dev.tx.jobs ∧ (s.pulled host).dev.tx.nextId = s.dev.tx.nextId := by
  cases host <;> exact ⟨rfl, rfl⟩

theorem completes_take {host : Bool} (ht : s.takes = true) (hw : s.ringWaits host = true) (he : s.dev.eccBad = [])
    (h : (takeDesc (s.frontDesc host) { s.frontJob host with id := s.dev.tx.nextId }).Gives (s.fetched host) fun _ t => P (latchEdges s t)) :
    Completes (.txDescriptorTake host) s P := by
  refine completes_gives rfl ?_
  rw [if_pos (by rw [ht, hw]; rfl)]
  cases host with
  | true => exact gives_bind (gives_act (gives_bind (gives_addJob_id.mono fun i t hi => by obtain ⟨rfl, rfl⟩ := hi; exact h)))
  | false =>
    refine gives_bind (gives_act (gives_bind (gives_addJob_id.mono fun i t hi => ?_)))
    obtain ⟨rfl, rfl⟩ := hi
    dsimp only
    rw [if_neg (by rw [he]; simp)]
    exact h

/-- A frame whose descriptor fails its check, with what its sender owns of its chain (R132). -/
def State.refusedJob (s : State) (d : List Byte) (j : TxJob) : TxJob :=
  { j with cells := (s.chain (bitsGet (descWord d 0) 19 11)).filter fun c => (s.cell c).owner == j.sender }

theorem gives_takeDesc_refused {d : List Byte} (hk : j.kind = .ring ∨ j.kind = .host) (h : s.descCheck d j ≠ stOk) :
    (takeDesc d j).Gives s fun _ t => s.Finished t (s.refusedJob d j) (s.descCheck d j) := by
  refine gives_bind (gives_getS ?_)
  dsimp only
  rw [if_pos h]
  exact gives_finishJob (j := s.refusedJob d j) hk

section
variable {host : Bool}

theorem fetched_reg {a : Nat} (h : a ≠ LINK_STAT) : (s.fetched host).reg a = s.reg a := by
  rw [State.fetched, jobAdded_reg _ h, State.pulled, State.live_reg]
theorem fetched_fld {f : Fld} (h : f.addr ≠ LINK_STAT) : (s.fetched host).fld f = s.fld f := by rw [State.fld, fetched_reg h, State.fld]
theorem fetched_lanes : ∀ a, lanesPage ≤ a → (s.fetched host).reg a = s.reg a :=
  fun a ha => fetched_reg (by simp only [lanesPage, LINK_STAT] at *; omega)
theorem fetched_cell (x : Nat) : (s.fetched host).cell x = s.cell x := by
  refine State.cell_congr ?_ x
  rw [State.fetched, jobAdded_cells, State.pulled, State.live_dev]
  cases host <;> rfl
theorem fetched_within : s.Within (onlyRegs [LINK_STAT]) (s.fetched host) := by
  rw [State.fetched, within_jobAdded_iff (by decide), State.pulled, State.within_live_iff (by cases host <;> rfl)]
  exact s.within_refl _
theorem fetched_jobs : (s.fetched host).dev.tx.jobs = s.dev.tx.jobs ++ [{ s.frontJob host with id := s.dev.tx.nextId }] := by
  rw [State.fetched, jobAdded_jobs, pulled_tx.1, pulled_tx.2]
theorem fetched_tx : (s.fetched host).dev.tx = { (s.pulled host).dev.tx with
    nextId := (s.pulled host).dev.tx.nextId + 1, jobs := (s.pulled host).dev.tx.jobs ++ [{ s.frontJob host with id := (s.pulled host).dev.tx.nextId }] } := by
  rw [State.fetched, State.jobAdded, requeued_dev, State.live_dev]
theorem fetched_hostp : (s.fetched host).dev.hostp = (s.pulled host).dev.hostp := by rw [State.fetched, State.jobAdded, requeued_dev, State.live_dev]
theorem fetched_slots : (s.fetched host).dev.tx.doneSlots = s.dev.tx.doneSlots := by rw [fetched_tx]; cases host <;> rfl
theorem fetched_byte (a : Nat) : (s.fetched host).byte a = s.byte a := fetched_within.mem a rfl

/-- The cells that a descriptor names. -/
def State.frontCells (s : State) (host : Bool) : List Nat := s.chain (bitsGet (descWord (s.frontDesc host) 0) 19 11)
def State.frontBytes (s : State) (host : Bool) : List Byte := s.chainBytes (s.frontCells host) (bitsGet (descWord (s.frontDesc host) 0) 10 0)

theorem fetched_chain (c : Nat) : (s.fetched host).chain c = s.chain c := chainFrom_congr fetched_cell 8 c

theorem fetched_check : (s.fetched host).descCheck (s.frontDesc host) { s.frontJob host with id := s.dev.tx.nextId }
    = s.descCheck (s.frontDesc host) (s.frontJob host) := descCheck_congr fetched_lanes fetched_cell _ _

/-- A descriptor that fails its check ends at once, with what its sender owns of its chain (R132). -/
def State.failedJob (s : State) (host : Bool) : TxJob :=
  { s.frontJob host with id := s.dev.tx.nextId, cells := (s.frontCells host).filter fun c => (s.cell c).owner == (s.frontJob host).sender }

theorem gives_take_refused (h : s.descCheck (s.frontDesc host) (s.frontJob host) ≠ 0) :
    (takeDesc (s.frontDesc host) { s.frontJob host with id := s.dev.tx.nextId }).Gives (s.fetched host) fun _ t =>
      (s.fetched host).Finished t (s.failedJob host) (s.descCheck (s.frontDesc host) (s.frontJob host)) := by
  have hk : (s.frontJob host).kind = .ring ∨ (s.frontJob host).kind = .host := by cases host <;> simp [State.frontJob, jobOf]
  have hcheck := fetched_check (s := s) (host := host)
  have hg := gives_takeDesc_refused (s := s.fetched host) (d := s.frontDesc host) (j := { s.frontJob host with id := s.dev.tx.nextId }) hk (hcheck ▸ h)
  have hjob : (s.fetched host).refusedJob (s.frontDesc host) { s.frontJob host with id := s.dev.tx.nextId } = s.failedJob host := by
    have hcells : (fun c => ((s.fetched host).cell c).owner == (s.frontJob host).sender) = fun c => (s.cell c).owner == (s.frontJob host).sender :=
      funext fun c => by rw [fetched_cell]
    rw [State.refusedJob, fetched_chain, State.failedJob, State.frontCells, ← hcells]
    rfl
  rw [hcheck, hjob] at hg
  exact hg

theorem take_refused (hj : s.dev.tx.jobs = []) (ht : s.takes = true) (hw : s.ringWaits host = true) (he : s.dev.eccBad = []) (hd : s.dev.tx.doneSlots = [])
    (h : s.descCheck (s.frontDesc host) (s.frontJob host) ≠ 0) : Completes (.txDescriptorTake host) s fun t =>
      t.dev.tx.jobs = [] ∧
      (∀ c, t.cell c = if c ∈ s.frontCells host ∧ (s.cell c).owner = (s.frontJob host).sender then s.letGo c else s.cell c) ∧
      (host = false → t.bytes (s.slotAt (s.frontJob host)) 16 = completionOf (s.frontJob host) (s.descCheck (s.frontDesc host) (s.frontJob host)) ∧
        t.dev.tx.take = (s.dev.tx.take + 1) % ringSize (s.fld LINK_TXRING_SIZE) ∧
        (s.dev.tx.take = s.fld LINK_TXIDX_DONE → t.fld LINK_TXIDX_DONE = (s.dev.tx.take + 1) % ringSize (s.fld LINK_TXRING_SIZE))) ∧
      (host = true → t.dev.hostp.tx = s.dev.hostp.tx.drop 1) ∧ s.Within (doneFoot s (s.frontJob host)) t := by
  refine completes_take ht hw he ((gives_take_refused h).mono fun _ t hf => ?_)
  obtain ⟨⟨l, hl⟩, hc, hh, hs, hdn, -, hin⟩ := hf
  have hslot : (s.fetched host).slotAt (s.failedJob host) = s.slotAt (s.frontJob host) := by rw [State.slotAt, fetched_fld (by decide)]; rfl
  refine ⟨?_, fun c => ?_, fun hf => ⟨?_, ?_, fun h0 => ?_⟩, fun ht => ?_, ?_⟩
  · rw [latchEdges_tx, hl, State.without, fetched_jobs, hj]
    simp [State.failedJob]
  · rw [latchEdges_cell, hc, State.letGo, fetched_cell, ← State.letGo]
    simp [State.failedJob]
  · rw [latchEdges_bytes, ← hslot, hs (by subst hf; rfl)]
    rfl
  · subst hf
    rw [latchEdges_tx, hl, fetched_tx]
    rfl
  · subst hf
    rw [latchEdges_fld, hdn rfl (fetched_slots.trans hd) (h0.trans (fetched_fld (by decide)).symm), fetched_fld (by decide)]
    rfl
  · subst ht
    rw [latchEdges_dev, hh, fetched_hostp]
    rfl
  · have hfoot : doneFoot (s.fetched host) (s.failedJob host) = doneFoot s (s.frontJob host) := by rw [doneFoot, hslot]; rfl
    rw [hfoot] at hin
    refine State.within_latch_iff.mpr ((fetched_within.widen ⟨fun a ha => ?_, nofun, nofun, nofun, nofun, nofun, nofun⟩).trans hin)
    obtain rfl := List.mem_singleton.mp (of_decide_eq_true ha)
    exact (by decide : (onPages [linkPage]).regs LINK_STAT = true)

end

/-! ### A frame that needs nothing more (R131) -/

theorem takeSeed_gives (lane : Nat) : (takeSeed lane).Gives s fun r t =>
    (∃ y, t = s.live fun d => { d with tx := { d.tx with seed := y } }) ∧ (s.isOfdm lane = false → r = 0 ∧ t = s) := by
  refine gives_bind (gives_getS ?_)
  split
  · next h => exact gives_bind (gives_act (gives_pure ⟨⟨_, rfl⟩, fun hn => absurd h (by simp [hn])⟩))
  · exact gives_pure ⟨⟨s.dev.tx.seed, rfl⟩, fun _ => ⟨rfl, rfl⟩⟩

/-- A plain immediate frame as it stands in the queue. -/
def State.readyJob (s : State) (j : TxJob) (cells : List Nat) (l : List Byte) (seed : Nat) : TxJob :=
  { j with stage := .ready, cells := cells, octets := l, seed := seed, ar := (parseMac l).ok && (parseMac l).ar, ts := 0, peer := 0, level := none
           air := s.airtime j.lane j.coded j.mcs j.pre (l.length + if j.fcs2 then 2 else 4) }

theorem gives_takeDesc_ready {Q : State → Prop} {d : List Byte} {cells : List Nat} {l : List Byte} (h : s.descCheck d j = 0) (hcells : s.chain (bitsGet (descWord d 0) 19 11) = cells)
    (hl : s.chainBytes cells (bitsGet (descWord d 0) 10 0) = l) (ht : j.timed = false) (hn : j.nt = none) (hs : j.secured = false)
    (hr : s.bit SAMP_RDV_EN = false) (hf : floodIe l (parseMac l) = none)
    (hq : ∀ v w seed t, s.CellsOnly v → (∀ x, v.cell x = if x ∈ cells then { s.cell x with owner := ownLink } else s.cell x) →
      (∃ y, w = v.live fun d => { d with tx := { d.tx with seed := y } }) → (s.isOfdm j.lane = false → seed = 0 ∧ w = v) →
      t = (w.cellsPut cells l).requeued (w.dev.tx.jobs.map fun k => if k.id = j.id then s.readyJob j cells l seed else k) → Q t) :
    (takeDesc d j).Gives s fun _ t => Q t := by
  subst hcells hl
  refine gives_bind (gives_getS ?_)
  extract_lets st w0 cells l m j1 j2 lad flood bad badFlood inst
  have hlad : lad = none := by simp [lad, State.ladder, hr]
  have hflood : flood = none := hf
  have hinst : inst = .ok 0 := by simp [inst, j2, j1, hn]
  have hbad : (bad || badFlood) = false := by simp only [bad, badFlood, hlad, hflood, Bool.or_self]
  have hj2 : j2 = { j with cells := cells, octets := l, ar := m.ok && m.ar, air := s.airtime j.lane j.coded j.mcs j.pre (l.length + if j.fcs2 then 2 else 4) } := rfl
  rw [if_neg (by simp [st, h])]
  refine gives_bind ((gives_passCells s cells ownLink).mono fun _ v ⟨hv, hx⟩ => ?_)
  rw [if_neg (by simp [hbad])]
  clear_value bad badFlood inst flood lad
  split
  · exact absurd hinst (by simp)
  next ts =>
  obtain rfl : ts = 0 := Except.ok.inj hinst
  clear_value j2
  extract_lets j3 gap t0 j4
  have hj4 : j4 = { j2 with ts := 0, peer := 0, level := none } := by
    have hgap : gap = false := by simp only [gap, hflood]
    simp only [j4, hgap, j3, hlad, Bool.false_eq_true, if_false]
    rfl
  clear_value j4
  rw [hflood]
  refine gives_bind (gives_pure (gives_bind ((takeSeed_gives _).mono fun seed w ⟨hw, hseed⟩ => ?_)))
  extract_lets j5
  have hj5 : j5 = { s.readyJob j cells l seed with stage := j.stage } := by
    simp only [j5, hj4, hj2]
    rfl
  clear_value j5
  have hsec : j5.secured = false := by rw [hj5]; exact hs
  have htim : j5.timed = false := by rw [hj5]; exact ht
  have hlev : j5.level = none := by rw [hj5]; rfl
  rw [if_neg (by simp [hsec])]
  refine gives_bind (gives_chainWrite (gives_bind (gives_getS ?_)))
  split
  · next hl => exact absurd (hlev.symm.trans hl) (by simp)
  rw [if_neg (by simp [htim])]
  refine (gives_putJob _).mono fun _ t ht => hq v w seed t hv hx hw (fun ho => ?_) ?_
  · refine hseed ?_
    have hlane : j4.lane = j.lane := by rw [hj4, hj2]
    rw [hlane, State.isOfdm, State.lanePhy, hv.fld]
    exact ho
  · rw [ht, cellsPut_dev, hj5]
    rfl

/-- What a chain holds already is stored in it without a change. -/
theorem cellsPut_self : ∀ (cells : List Nat) (n : Nat) (s : State) (a : Nat), (s.cellsPut cells (s.chainBytes cells n)).byte a = s.byte a
  | [], _, _, _ => rfl
  | c :: cs, n, s, a => by
    have hsplit : s.chainBytes (c :: cs) n = (s.bytes (cellAddr c) 256).take n ++ s.chainBytes cs (n - 256) := by
      rw [State.chainBytes, List.flatMap_cons, List.take_append, State.bytes_length, State.chainBytes]
    have htake : (s.chainBytes (c :: cs) n).take 256 = (s.bytes (cellAddr c) 256).take n := by
      rw [hsplit, List.take_append, List.length_take, State.bytes_length, List.take_of_length_le (by rw [List.length_take, State.bytes_length]; omega)]
      rcases Nat.le_total n 256 with h | h
      · rw [Nat.sub_eq_zero_of_le h, State.chainBytes, List.take_zero, List.take_nil, List.append_nil]
      · rw [Nat.min_eq_right h, Nat.sub_self, List.take_zero, List.append_nil]
    have hdrop : (s.chainBytes (c :: cs) n).drop 256 = s.chainBytes cs (n - 256) := by
      rw [hsplit, List.drop_append, List.length_take, State.bytes_length, List.drop_eq_nil_of_le (by rw [List.length_take, State.bytes_length]; omega),
        List.nil_append]
      rcases Nat.le_total n 256 with h | h
      · rw [Nat.sub_eq_zero_of_le h, State.chainBytes, List.take_zero, List.drop_nil]
      · rw [Nat.min_eq_right h, Nat.sub_self, List.drop_zero]
    have hsame : ∀ x, (s.putMem (cellAddr c) ((s.bytes (cellAddr c) 256).take n)).byte x = s.byte x := fun x => by
      rw [State.putMem_byte]
      split
      · next h =>
        rw [List.length_take, State.bytes_length] at h
        rw [List.getD_eq_getElem?_getD, List.getElem?_take_of_lt (by omega), State.bytes, List.getElem?_map, List.getElem?_range (by omega), Option.map_some,
          Option.getD_some, Nat.add_sub_cancel' h.1]
      · rfl
    rw [State.cellsPut, htake, hdrop, ← chainBytes_congr hsame, cellsPut_self cs _ _ a, hsame]

theorem take_ready {host : Bool} (hj : s.dev.tx.jobs = []) (ht : s.takes = true) (hw : s.ringWaits host = true) (he : s.dev.eccBad = [])
    (h : s.descCheck (s.frontDesc host) (s.frontJob host) = 0) (htim : (s.frontJob host).timed = false) (hsec : (s.frontJob host).secured = false)
    (hr : s.bit SAMP_RDV_EN = false) (hf : floodIe (s.frontBytes host) (parseMac (s.frontBytes host)) = none) (ho : s.isOfdm (s.frontJob host).lane = false)
    (hc : ∀ c ∈ s.frontCells host, c < 512) :
    Completes (.txDescriptorTake host) s fun t =>
      t.dev.tx.jobs = [{ s.readyJob (s.frontJob host) (s.frontCells host) (s.frontBytes host) 0 with id := s.dev.tx.nextId }] ∧
      (∀ c ∈ s.frontCells host, (t.cell c).owner = ownLink) ∧ s.Within (onlyRegs [LINK_STAT]) t := by
  have hn : (s.frontJob host).nt = none := if_neg (by rw [show bitOf (descWord (s.frontDesc host) 0).toNat 30 = false from htim]; decide)
  have hbytes : (s.fetched host).chainBytes (s.frontCells host) (bitsGet (descWord (s.frontDesc host) 0) 10 0) = s.frontBytes host :=
    chainBytes_congr fetched_byte _ _
  refine completes_take ht hw he (gives_takeDesc_ready (fetched_check.trans h) (cells := s.frontCells host) (fetched_chain _) hbytes htim hn hsec
    (by rw [State.bit, fetched_fld (by decide)]; exact hr) hf ?_)
  intro v w seed t hv hx _ hseed ht
  obtain ⟨rfl, rfl⟩ := hseed ((lane_ofdm fetched_lanes _).trans ho)
  have hwj : w.dev.tx.jobs = [{ s.frontJob host with id := s.dev.tx.nextId }] := by rw [hv.dev, fetched_jobs, hj]; rfl
  have hready : (s.fetched host).readyJob { s.frontJob host with id := s.dev.tx.nextId } (s.frontCells host) (s.frontBytes host) 0
      = { s.readyJob (s.frontJob host) (s.frontCells host) (s.frontBytes host) 0 with id := s.dev.tx.nextId } := by
    rw [State.readyJob, lane_airtime fetched_lanes]
    rfl
  refine ⟨?_, fun c hc => ?_, ?_⟩
  · rw [latchEdges_tx, ht, requeued_dev, hwj, hready]
    simp
  · rw [latchEdges_cell, ht, requeued_cell, State.cell, cellsPut_dev, ← State.cell, hx, if_pos hc]
  · have hself : w.Within {} (w.cellsPut (s.frontCells host) (s.frontBytes host)) := by
      have hb : s.frontBytes host = w.chainBytes (s.frontCells host) (bitsGet (descWord (s.frontDesc host) 0) 10 0) := by
        rw [← hbytes]
        exact (chainBytes_congr (fun a => (hv.within {}).mem a rfl) _ _).symm
      have hrest := within_cellsPut (F := { mem := cellMem }) (s := w) (l := s.frontBytes host) hc fun _ h => h
      exact { hrest with mem := fun a _ => by rw [hb, cellsPut_self] }
    rw [State.within_latch_iff, ht, within_requeued_iff (by decide)]
    exact (fetched_within.trans (hv.within _)).trans (hself.widen_nothing _)

theorem frontDesc_eq {host : Bool} :
    s.frontDesc host = if host then s.dev.hostp.tx.headD [] else s.bytes (16 * s.fld LINK_TXRING_BASE + 16 * s.dev.tx.take) 16 := by
  rw [State.frontDesc, Nat.mul_comm]

theorem slotAt_eq : s.slotAt j = 16 * s.fld LINK_TXRING_BASE + 16 * j.slot := by rw [State.slotAt, Nat.mul_comm]

theorem doneFoot_mem {host : Bool} (x : Nat) : (doneFoot s (s.frontJob host)).mem x =
    (!host && decide (16 * s.fld LINK_TXRING_BASE + 16 * s.dev.tx.take ≤ x ∧ x < 16 * s.fld LINK_TXRING_BASE + 16 * s.dev.tx.take + 16)) := by
  simp only [doneFoot, slotAt_eq]
  cases host <;> rfl

theorem doneFoot_front {host : Bool} : doneFoot s (s.frontJob host) =
    { onPages [linkPage] with
      mem := fun x => !host && decide (16 * s.fld LINK_TXRING_BASE + 16 * s.dev.tx.take ≤ x ∧ x < 16 * s.fld LINK_TXRING_BASE + 16 * s.dev.tx.take + 16) } := by
  rw [← funext (doneFoot_mem (s := s) (host := host))]
  rfl

theorem doneFoot_ring (hk : j.kind = .ring) : doneFoot s j =
    { onPages [linkPage] with mem := fun x => decide (16 * s.fld LINK_TXRING_BASE + 16 * j.slot ≤ x ∧ x < 16 * s.fld LINK_TXRING_BASE + 16 * j.slot + 16) } := by
  simp only [doneFoot, slotAt_eq, hk, decide_true, Bool.true_and]

theorem take_nothing {host : Bool} (h : s.takes = false) : Completes (.txDescriptorTake host) s fun t => s.Within {} t := by
  refine completes_nothing rfl ?_ (State.within_latch_iff.mpr (s.within_refl _))
  rw [if_neg (by rw [h]; exact Bool.false_ne_true)]
  rfl

/-- Settles O32: a descriptor of either ring taken, and the steps of a frame that is alone in the queue. -/
theorem descriptorsAndWaits : Obligations.DescriptorsAndWaits := by
  unfold Obligations.DescriptorsAndWaits
  refine ⟨?_, ?_⟩
  · intro host s _ hj slot a d j st cells l slotMem
    have hd : d = s.frontDesc host := frontDesc_eq.symm
    clear_value d
    subst hd
    refine ⟨take_nothing,
      fun ht hw he hd hn => ⟨fun h => ?_, fun h htim hsec hr hf ho _ hc => take_ready hj ht hw he h htim hsec hr hf ho hc⟩⟩
    obtain ⟨t, hrun, hjobs, hcell, hring, hhost, hin⟩ := take_refused hj ht hw he hd h
    rw [doneFoot_front] at hin
    refine ⟨t, hrun, hjobs, hcell, fun hh => ?_, hhost, hin⟩
    subst hh
    have := hring rfl
    rw [slotAt_eq] at this
    exact this
  · intro j s _ hj hl htim
    refine ⟨frameSecured_ready hj hl htim, frameSecured_none hj, retryExpiry_one hj, ackClose_held hj, fun h hc hcl hk _ _ => ⟨fun hr => ?_, ackClose_waits hj hl htim h hc hcl⟩⟩
    have hno := ackClose_noAck hj hl h hc hk hr
    rw [doneFoot_ring hk, slotAt_eq] at hno
    exact hno

end Sys2Proof.Machine
end


section
/-!
A frame taken, sent or cut short: where the firmware's ring is read next, the host port's ring, the power state and the numbers
given to frames (R131, R133). None of the parts of taking a descriptor goes back behind them, whatever else stands in the queue.
-/
namespace Sys2Proof.Machine
open Sys2Proof.Reg

variable {α β : Type} {s t u : State}

/-- The front of either ring, and the power state. -/
def Dev.fronts (d : Dev) : Nat × List (List Byte) × Pwr := (d.tx.take, d.hostp.tx, d.pwr)

/-- Between two states the fronts of the rings and the power state stand, and no frame's number comes again. -/
structure State.Onward (s t : State) : Prop where
  fronts : t.dev.fronts = s.dev.fronts
  nextId : s.dev.tx.nextId ≤ t.dev.tx.nextId

theorem State.onward_refl (s : State) : s.Onward s := ⟨rfl, le_rfl⟩
theorem State.Onward.trans (h : s.Onward t) (g : t.Onward u) : s.Onward u := ⟨g.fronts.trans h.fronts, h.nextId.trans g.nextId⟩

/-- An act that goes on so from every state. -/
structure M.Onward (m : M α) : Prop where
  all : ∀ s : State, m.Gives s fun _ t => s.Onward t

theorem onward_pure (a : α) : (pure a : M α).Onward := ⟨fun s => gives_pure s.onward_refl⟩
theorem onward_nop : nop.Onward := onward_pure ()
theorem onward_bind {m : M α} {f : α → M β} (h : m.Onward) (g : ∀ a, (f a).Onward) : (m >>= f).Onward :=
  ⟨fun s => gives_bind ((h.all s).mono fun a _ ht => ((g a).all _).mono fun _ _ hu => ht.trans hu)⟩
theorem onward_getS {f : State → M β} (h : ∀ s, (f s).Onward) : (getS >>= f).Onward := ⟨fun s => gives_bind (gives_getS ((h s).all s))⟩
theorem onward_ite {c : Prop} [Decidable c] {a b : M α} (h : a.Onward) (g : b.Onward) : (if c then a else b).Onward := by
  split
  exacts [h, g]
theorem onward_forAll {l : List α} {f : α → M Unit} (h : ∀ x, (f x).Onward) : (forAll l f).Onward :=
  ⟨fun s => gives_forAll s.onward_refl fun x _ _ ht => ((h x).all _).mono fun _ _ hu => ht.trans hu⟩
/-- A part that leaves the units' live state as it is. -/
theorem onward_same {m : M α} (h : ∀ s, m.Gives s fun _ t => t.dev = s.dev) : m.Onward :=
  ⟨fun s => (h s).mono fun _ t ht => ⟨by rw [ht], by rw [ht]⟩⟩
theorem onward_wr (a : Nat) (v : Word) : (wr a v).Onward := onward_same fun _ => gives_wr (State.putReg_dev ..)
theorem onward_mem (a : Nat) (b : Byte) : (act (.mem a b)).Onward := onward_same fun _ => gives_act rfl
theorem onward_tab (x : Tab) (i : Nat) (v : Word) : (act (.tab x i v)).Onward := onward_same fun _ => gives_act (by simp)
theorem onward_setFld (f : Fld) (v : Nat) : (setFld f v).Onward := onward_same fun _ => gives_setFld (State.put_dev ..)
theorem onward_modDev {f : Dev → Dev} (h : ∀ d, (f d).fronts = d.fronts) (hn : ∀ d, (f d).tx.nextId = d.tx.nextId) : (modDev f).Onward :=
  ⟨fun s => gives_act ⟨h s.dev, (hn s.dev).ge⟩⟩
theorem onward_freeNat : freeNat.Onward := ⟨fun _ => gives_freeNat_drawn.mono fun _ _ h => ⟨by rw [h.dev], by rw [h.dev]⟩⟩

/-! ### Events, counts and cells -/

theorem onward_perf (p e n : Nat) : (perf p e n).Onward := onward_same fun _ => gives_perf.mono fun _ _ h => h.1.dev
theorem onward_emit (p e : Nat) : (emit p e).Onward :=
  ⟨fun s => ((total_emit p e).gives_run s).mono fun _ _ h => by rw [h]; exact ⟨by rw [emit_dev]; rfl, by rw [emit_dev]⟩⟩
theorem onward_setFlt (p b : Nat) : (setFlt p b).Onward := onward_same fun _ => gives_setFlt.mono fun _ _ h => h.dev
theorem onward_countN (bits page item w n : Nat) : (countN bits page item w n).Onward := onward_getS fun _ => onward_modDev (fun _ => rfl) fun _ => rfl
theorem onward_count (page item w : Nat) : (count page item w).Onward := onward_countN ..
theorem onward_stat (e : Nat) : (stat e).Onward := onward_countN ..
theorem onward_modIntc (f : Intc → Intc) : (modIntc f).Onward := onward_modDev (fun _ => rfl) fun _ => rfl
theorem onward_setCell (c : Nat) (v : Cell) : (setCell c v).Onward := onward_modDev (fun _ => rfl) fun _ => rfl
theorem onward_releaseCell (c : Nat) : (releaseCell c).Onward := onward_getS fun _ => onward_ite (onward_setCell ..) (onward_setCell ..)
theorem onward_releaseCells (l : List Nat) : (releaseCells l).Onward := onward_forAll onward_releaseCell
theorem onward_passCells (l : List Nat) (owner : Nat) : (passCells l owner).Onward := onward_forAll fun _ => onward_getS fun _ => onward_setCell ..
theorem onward_clearHold (c : Nat) : (clearHold c).Onward :=
  onward_getS fun _ => onward_ite (onward_ite (onward_setCell ..) (onward_setCell ..)) onward_nop
theorem onward_dropHold (id c : Nat) : (dropHold id c).Onward := onward_getS fun _ => onward_ite (onward_setCell ..) (onward_clearHold c)
theorem onward_releaseLink (l : List Nat) : (releaseLink l).Onward := onward_getS fun _ => onward_forAll fun _ => onward_setCell ..
theorem onward_putBytes : ∀ (a : Nat) (l : List Byte), (putBytes a l).Onward
  | _, [] => onward_nop
  | a, b :: _ => onward_bind (onward_mem a b) fun _ => onward_putBytes (a + 1) _
theorem onward_chainWrite : ∀ (cells : List Nat) (l : List Byte), (chainWrite cells l).Onward
  | [], _ => onward_nop
  | _ :: cs, _ => onward_bind (onward_putBytes ..) fun _ => onward_chainWrite cs _

/-! ### The queue (R132, R158) -/

theorem onward_setJobs (l : List TxJob) : (setJobs l).Onward := onward_bind (onward_modDev (fun _ => rfl) fun _ => rfl) fun _ => onward_setFld ..
theorem onward_putJob (j : TxJob) : (putJob j).Onward := onward_getS fun _ => onward_setJobs _
theorem onward_dropJob (id : Nat) : (dropJob id).Onward := onward_getS fun _ => onward_setJobs _
theorem onward_addJob (j : TxJob) : (addJob j).Onward :=
  ⟨fun s => gives_addJob_id.mono fun _ t ⟨_, ht⟩ => by
    rw [ht]
    exact ⟨by rw [State.jobAdded, requeued_dev]; rfl, by rw [State.jobAdded, requeued_dev]; exact Nat.le_succ _⟩⟩
theorem onward_advanceDone : ∀ k, (advanceDone k).Onward
  | 0 => onward_nop
  | k + 1 => onward_getS fun _ => onward_ite
      (onward_bind (onward_modDev (fun _ => rfl) fun _ => rfl) fun _ => onward_bind (onward_setFld ..) fun _ => onward_advanceDone k) onward_nop
theorem onward_told : (do
    perf linkPage 0x42 1
    emit linkPage 0xA3).Onward := onward_bind (onward_perf ..) fun _ => onward_emit ..
theorem onward_reportDone (j : TxJob) (st : Nat) : (reportDone j st).Onward := by
  refine onward_getS fun s => ?_
  have hend : (if st = stNoAck then do
      count linkPage 0x03 3
      stat 0x0B
      perf linkPage 0x42 1
      emit linkPage 0xA3 else do
      perf linkPage 0x42 1
      emit linkPage 0xA3).Onward :=
    onward_ite (onward_bind (onward_count ..) fun _ => onward_bind (onward_stat _) fun _ => onward_told) onward_told
  refine onward_ite (onward_bind (onward_putBytes ..) fun _ => onward_bind (onward_modDev (fun _ => rfl) fun _ => rfl) fun _ =>
    onward_bind (onward_advanceDone _) fun _ => hend) (onward_ite (onward_bind (onward_modDev (fun _ => rfl) fun _ => rfl) fun _ => hend) hend)
theorem onward_relayGone (j : TxJob) : (relayGone j).Onward :=
  onward_bind (onward_modDev (fun _ => rfl) fun _ => rfl) fun _ => onward_forAll fun _ => onward_dropHold ..
theorem onward_finishJob (j : TxJob) (st : Nat) : (finishJob j st).Onward := by
  refine onward_getS fun s => onward_bind (onward_setJobs _) fun _ => ?_
  split
  · exact onward_bind (onward_reportDone ..) fun _ => onward_releaseCells _
  · exact onward_bind (onward_reportDone ..) fun _ => onward_releaseCells _
  · exact onward_releaseCells _
  · exact onward_ite (onward_bind (onward_count ..) fun _ => onward_stat _) onward_nop
  · refine onward_bind (onward_relayGone j) fun _ => onward_ite (onward_bind (onward_count ..) fun _ => onward_bind (onward_stat _) fun _ =>
      onward_ite (onward_count ..) onward_nop) (onward_ite (onward_count ..) (onward_ite (onward_count ..) onward_nop))
  · exact onward_bind (onward_releaseCells _) fun _ => onward_ite (onward_count ..) (onward_bind (onward_count ..) fun _ => onward_stat _)
  all_goals exact onward_nop

/-! ### Taking a descriptor (R131, R165, R195, R225) -/

theorem onward_takeSeed (lane : Nat) : (takeSeed lane).Onward := onward_getS fun _ =>
  onward_ite (onward_bind (onward_modDev (fun _ => rfl) fun _ => rfl) fun _ => onward_pure _) (onward_pure _)
theorem onward_fcFlags : fcFlags.Onward := onward_getS fun _ => onward_bind (onward_setFld ..) fun _ => onward_bind (onward_setFld ..) fun _ =>
  onward_bind (onward_setFld ..) fun _ => onward_ite (onward_bind (onward_emit ..) fun _ => onward_modIntc _) onward_nop
theorem onward_takeFcnt : takeFcnt.Onward := onward_getS fun _ => onward_ite (onward_bind (onward_count ..) fun _ => onward_pure _)
  (onward_bind (onward_setFld ..) fun _ => onward_bind onward_fcFlags fun _ => onward_pure _)
theorem onward_secureTx (l : List Byte) : (secureTx l).Onward := by
  refine onward_getS fun s => onward_ite (onward_pure _) (onward_ite (onward_pure _) ?_)
  split
  · exact onward_bind (onward_count ..) fun _ => onward_pure _
  · refine onward_bind onward_takeFcnt fun r => ?_
    cases r with
    | none => exact onward_pure _
    | some n => exact onward_bind (onward_count ..) fun _ => onward_bind (onward_perf ..) fun _ => onward_pure _
theorem onward_seenInsert (orig fseq hop cnt : Nat) : (seenInsert orig fseq hop cnt).Onward := by
  refine onward_getS fun s => ?_
  extract_lets _ _ _ _ _ jp
  have hjp : ∀ r, (jp r).Onward := fun _ => onward_bind onward_freeNat fun _ => onward_bind (onward_tab ..) fun _ =>
    onward_bind (onward_tab ..) fun _ => onward_count ..
  exact onward_ite (onward_bind (onward_count ..) hjp) (hjp ())
theorem onward_originate (l : List Byte) (f : FloodIe) (o : Option Nat) : (originate l f o).Onward :=
  onward_getS fun _ => onward_bind (onward_setFld ..) fun _ => onward_bind (onward_seenInsert ..) fun _ => onward_bind (onward_count ..) fun _ => onward_pure _
theorem onward_dropStrobes (id : Nat) : (dropStrobes id).Onward := onward_getS fun _ => onward_setJobs _
theorem onward_waitRandom (j : TxJob) : (waitRandom j).Onward :=
  onward_getS fun _ => onward_bind (onward_bind onward_freeNat fun _ => onward_pure _) fun _ => onward_putJob _
theorem onward_ladTry : ∀ (k : Nat) (j : TxJob) (lo earliest past : Nat), (ladTry k j lo earliest past).Onward
  | 0, j, _, _, _ => onward_finishJob j _
  | k + 1, _, _, _, _ => onward_getS fun _ => onward_ite (onward_finishJob ..) (onward_ite (onward_waitRandom _)
      (onward_ite (onward_bind (onward_count ..) fun _ => onward_bind (onward_putJob _) fun _ => onward_ite (onward_finishJob ..) (onward_ladTry k ..))
        (onward_bind (onward_putJob _) fun _ => onward_forAll fun x => onward_bind (onward_addJob x) fun _ => onward_pure _)))
theorem onward_ladDefer (j : TxJob) : (ladDefer j).Onward :=
  onward_bind (onward_dropStrobes _) fun _ => onward_bind (onward_count ..) fun _ => onward_bind (onward_putJob _) fun _ =>
    onward_getS fun _ => onward_ite (onward_finishJob ..) (onward_ladTry ..)
theorem onward_yieldJob (j : TxJob) : (yieldJob j).Onward := by
  refine onward_getS fun s => onward_ite ?_ (onward_ite (onward_ladDefer j) (onward_finishJob ..))
  split
  exacts [onward_ladDefer _, onward_dropJob _]
theorem onward_enqueue (j : TxJob) : (enqueue j).Onward := by
  refine onward_getS fun s => ?_
  split
  · exact onward_bind (onward_putJob _) fun _ => onward_ladTry ..
  · exact onward_ite (onward_getS fun _ => onward_ite (onward_yieldJob j) (onward_putJob _)) (onward_putJob _)
theorem onward_takeDesc (d : List Byte) (j : TxJob) : (takeDesc d j).Onward := by
  refine onward_getS fun s => ?_
  extract_lets st w0 cells l m j₁ j₂ lad flood bad badFlood inst
  refine onward_ite (onward_finishJob ..) (onward_bind (onward_passCells ..) fun _ => ?_)
  clear_value flood bad badFlood inst
  refine onward_ite (onward_finishJob ..) ?_
  cases inst with
  | error e => exact onward_finishJob ..
  | ok ts =>
    refine onward_bind ?_ fun l => onward_bind (onward_takeSeed _) fun seed => ?_
    · split
      exacts [onward_originate .., onward_pure _]
    · refine onward_ite (onward_bind (onward_secureTx l) fun r => ?_) (onward_bind (onward_chainWrite ..) fun _ => onward_enqueue _)
      split
      · exact onward_finishJob ..
      · exact onward_bind (onward_chainWrite ..) fun _ => onward_putJob _

/-! ### The radio cut short, and the lanes off (R41, R42, R78) -/

theorem onward_setTxActive (b : Bool) : (setTxActive b).Onward := by
  refine onward_getS fun s => ?_
  have hend : (if (s.bit RCTL_STAT_TXACT != b) = true then do
      setFld RCTL_STAT_TXACT (b2n b)
      emit txpPage (if b then 0xBA else 0xBB) else pure ()).Onward :=
    onward_ite (onward_bind (onward_setFld ..) fun _ => onward_emit ..) onward_nop
  exact onward_ite (onward_bind (onward_modDev (fun _ => rfl) fun _ => rfl) fun _ => hend) hend
theorem onward_cutAir (st : Nat) : (cutAir st).Onward := by
  refine onward_getS fun s => ?_
  split
  · exact onward_pure _
  · next j _ =>
    have hend (b : Bool) : ((pure b : M Bool)).Onward := onward_pure _
    refine onward_bind (onward_setTxActive _) fun _ => onward_ite (onward_bind (onward_setFld ..) fun _ => onward_bind (onward_dropJob _) fun _ => hend _)
      (onward_ite (onward_bind (onward_dropJob _) fun _ => ?_) (onward_bind (onward_finishJob ..) fun _ => hend _))
    split
    exacts [onward_bind (onward_finishJob ..) fun _ => hend _, onward_bind onward_nop fun _ => hend _]
theorem onward_modRadio (f : Radio → Radio) : (modRadio f).Onward := onward_modDev (fun _ => rfl) fun _ => rfl
theorem onward_setIdle : setIdle.Onward := onward_getS fun _ => onward_bind (onward_setFld ..) fun _ => onward_setFld ..
theorem onward_reqDone (r : RadioReq) (st : Nat) : (reqDone r st).Onward :=
  onward_getS fun _ => onward_bind (onward_setFld ..) fun _ => onward_bind (onward_setFld ..) fun _ => onward_emit ..
theorem onward_setLock (b : Bool) : (setLock b).Onward := onward_bind (onward_setFld ..) fun _ => onward_setFld ..
theorem onward_walkCut (st : Nat) : (walkCut st).Onward := by
  refine onward_getS fun s => ?_
  split
  · exact onward_nop
  · refine onward_bind (onward_modRadio _) fun _ => onward_bind (onward_setFld ..) fun _ => ?_
    split
    exacts [onward_reqDone .., onward_nop]
theorem onward_waitingCut (st : Nat) : (waitingCut st).Onward := by
  refine onward_getS fun s => ?_
  split
  exacts [onward_nop, onward_bind (onward_modRadio _) fun _ => onward_reqDone ..]
theorem onward_setLane (n : Nat) (l : Lane) : (setLane n l).Onward := onward_modDev (fun _ => rfl) fun _ => rfl
theorem onward_setLaneState (n v : Nat) : (setLaneState n v).Onward := onward_bind (onward_setFld ..) fun _ => onward_getS fun _ =>
  onward_ite (onward_setLane ..) (onward_bind (onward_setFld ..) fun _ => onward_setLane ..)
theorem onward_setFreeze (owner : Nat) : (setFreeze owner).Onward :=
  onward_bind (onward_setFld ..) fun _ => onward_bind (onward_setFld ..) fun _ => onward_setFld ..
theorem onward_modGain (f : Gain → Gain) : (modGain f).Onward := onward_modDev (fun _ => rfl) fun _ => rfl
theorem onward_passFreeze (n : Nat) : (passFreeze n).Onward :=
  onward_getS fun _ => onward_ite (onward_bind (onward_modGain _) fun _ => onward_bind (onward_setFld ..) fun _ => onward_setFreeze _)
    (onward_ite (onward_setFreeze _) onward_nop)
theorem onward_frameGone (n : Nat) : (frameGone n).Onward := by
  refine onward_getS fun s => ?_
  split
  · exact onward_nop
  · exact onward_bind (onward_releaseLink _) fun _ => onward_bind (onward_modDev (fun _ => rfl) fun _ => rfl) fun _ => onward_setLane ..
theorem onward_laneDrop (n reason after : Nat) : (laneDrop n reason after).Onward :=
  onward_getS fun _ => onward_ite (onward_bind (onward_frameGone n) fun _ => onward_bind (onward_setLaneState ..) fun _ =>
    onward_bind (onward_setFld ..) fun _ => onward_bind (onward_ite (onward_countN ..) (onward_countN ..)) fun _ =>
    onward_bind (onward_emit ..) fun _ => onward_passFreeze n) (onward_setLaneState ..)
theorem onward_lanesOff (reason : Nat) : (lanesOff reason).Onward :=
  onward_bind (onward_modDev (fun _ => rfl) fun _ => rfl) fun _ => onward_bind (onward_forAll fun _ => onward_laneDrop ..) fun _ =>
    onward_bind (onward_modGain _) fun _ => onward_bind (onward_setFld ..) fun _ => onward_bind (onward_setFreeze _) fun _ => onward_setFld ..
theorem onward_tuneStart : tuneStart.Onward := by
  refine onward_getS fun s => onward_bind (onward_setLock _) fun _ => onward_bind (onward_modRadio _) fun _ => onward_bind (onward_setFld ..) fun _ => ?_
  extract_lets hit f jp
  have hjp : ∀ r, (jp r).Onward := fun _ => onward_bind (onward_setFld ..) fun _ => onward_bind (onward_setFld ..) fun _ =>
    onward_bind (onward_setFld ..) fun _ => onward_pure _
  clear_value jp
  clear f
  cases hit with
  | none => exact onward_bind onward_nop hjp
  | some e => exact onward_bind (onward_modRadio _) hjp
theorem onward_stepStart (next goal : Nat) (retune : Bool) (req : Option RadioReq) : (stepStart next goal retune req).Onward := by
  refine onward_getS fun s => ?_
  extract_lets tunes kWalk kTune kLock
  have hwalk : ∀ miss, (kWalk miss).Onward := fun _ =>
    onward_bind (onward_bind (onward_setFld ..) fun _ => onward_setFld ..) fun _ => onward_modRadio _
  have htune : ∀ r, (kTune r).Onward := fun _ => onward_ite (onward_bind onward_tuneStart hwalk) (onward_bind (onward_pure _) hwalk)
  have hlock : ∀ r, (kLock r).Onward := fun _ => onward_ite (onward_bind (onward_setLock _) htune) (htune ())
  exact onward_ite (onward_bind (onward_lanesOff _) hlock) (hlock ())
theorem onward_radioCut (goal : Nat) (req : Option RadioReq) : (radioCut goal req).Onward := by
  refine onward_bind (onward_waitingCut _) fun _ => onward_getS fun _ => onward_bind (onward_walkCut _) fun _ => onward_bind (onward_cutAir _) fun _ =>
    onward_bind (onward_modRadio _) fun _ => onward_getS fun _ => onward_ite onward_setIdle (onward_ite (onward_bind onward_setIdle fun _ => ?_) (onward_stepStart ..))
  split
  exacts [onward_reqDone .., onward_nop]
theorem onward_carryMake : carryMake.Onward := onward_getS fun _ => onward_ite
  (onward_bind (onward_modDev (fun _ => rfl) fun _ => rfl) fun _ => onward_setFld ..) onward_nop

end Sys2Proof.Machine
end


section
/-!
What goes on whatever else stands in the queue: a descriptor taken beside other frames, the frame that has been securing longest, the
earliest retry, the frame whose acknowledgement window closes (R129, R131, R149, R150, R153, R199).
-/
namespace Sys2Proof.Machine
open Sys2Proof.Reg

variable {s t u : State} {j k : TxJob} {st : Nat} {i : Nat}

/-! ### A descriptor -/

theorem completes_take_onward {host : Bool} (ht : s.takes = true) (hw : s.ringWaits host = true) :
    Completes (.txDescriptorTake host) s fun t => (s.fetched host).Onward t := by
  have hend {m : M Unit} (h : m.Onward) {x : State} (hx : (s.fetched host).Onward x) : m.Gives x fun _ t => (s.fetched host).Onward (latchEdges s t) :=
    (h.all x).mono fun _ t ht => (hx.trans ht).trans ⟨by rw [latchEdges_dev]; rfl, by rw [latchEdges_tx]⟩
  refine completes_gives rfl ?_
  rw [if_pos (by rw [ht, hw]; rfl)]
  cases host with
  | true =>
    refine gives_bind (gives_act (gives_bind (gives_addJob_id.mono fun i t hi => ?_)))
    obtain ⟨rfl, rfl⟩ := hi
    exact hend (onward_takeDesc ..) (State.onward_refl _)
  | false =>
    refine gives_bind (gives_act (gives_bind (gives_addJob_id.mono fun i t hi => ?_)))
    obtain ⟨rfl, rfl⟩ := hi
    dsimp only
    split
    · exact hend (onward_bind (onward_stat _) fun _ => onward_finishJob ..) (State.onward_refl _)
    · exact hend (onward_takeDesc ..) (State.onward_refl _)

theorem take_ring (ht : s.takes = true) (hw : s.ringWaits false = true) : Completes (.txDescriptorTake false) s fun t =>
    t.dev.tx.take = (s.dev.tx.take + 1) % ringSize (s.fld LINK_TXRING_SIZE) ∧ s.dev.tx.nextId < t.dev.tx.nextId := by
  refine (completes_take_onward ht hw).imp fun t ⟨h, hn⟩ => ⟨?_, ?_⟩
  · have h := congrArg Prod.fst h
    exact h.trans (by rw [Dev.fronts, fetched_tx]; rfl)
  · exact Nat.lt_of_lt_of_le (by rw [fetched_tx, pulled_tx.2]; exact Nat.lt_succ_self _) hn

theorem take_host (ht : s.takes = true) (hw : s.ringWaits true = true) : Completes (.txDescriptorTake true) s fun t =>
    t.dev.hostp.tx = s.dev.hostp.tx.drop 1 ∧ s.dev.tx.nextId < t.dev.tx.nextId := by
  refine (completes_take_onward ht hw).imp fun t ⟨h, hn⟩ => ⟨?_, ?_⟩
  · have h := congrArg (fun x => x.2.1) h
    exact h.trans (by rw [Dev.fronts, fetched_hostp]; rfl)
  · exact Nat.lt_of_lt_of_le (by rw [fetched_tx, pulled_tx.2]; exact Nat.lt_succ_self _) hn

theorem take_beside {host : Bool} (ht : s.takes = true) (hw : s.ringWaits host = true) (he : s.dev.eccBad = [])
    (h : s.descCheck (s.frontDesc host) (s.frontJob host) = 0) (htim : (s.frontJob host).timed = false) (hsec : (s.frontJob host).secured = false)
    (hr : s.bit SAMP_RDV_EN = false) (hf : floodIe (s.frontBytes host) (parseMac (s.frontBytes host)) = none)
    (hid : ∀ x ∈ s.dev.tx.jobs, x.id ≠ s.dev.tx.nextId) :
    Completes (.txDescriptorTake host) s fun t => ∃ k, t.dev.tx.jobs = s.dev.tx.jobs ++ [k] ∧ k.id = s.dev.tx.nextId ∧ k.stage = .ready ∧
      k.octets = s.frontBytes host ∧ k.kind = (s.frontJob host).kind := by
  have hn : (s.frontJob host).nt = none := if_neg (by rw [show bitOf (descWord (s.frontDesc host) 0).toNat 30 = false from htim]; decide)
  have hbytes : (s.fetched host).chainBytes (s.frontCells host) (bitsGet (descWord (s.frontDesc host) 0) 10 0) = s.frontBytes host :=
    chainBytes_congr fetched_byte _ _
  refine completes_take ht hw he (gives_takeDesc_ready (fetched_check.trans h) (cells := s.frontCells host) (fetched_chain _) hbytes htim hn hsec
    (by rw [State.bit, fetched_fld (by decide)]; exact hr) hf ?_)
  rintro v w seed t hv _ ⟨y, rfl⟩ _ ht
  refine ⟨(s.fetched host).readyJob { s.frontJob host with id := s.dev.tx.nextId } (s.frontCells host) (s.frontBytes host) seed, ?_, rfl, rfl, rfl, rfl⟩
  rw [latchEdges_tx, ht, requeued_dev, State.live_dev, hv.dev, fetched_jobs, List.map_append, List.map_singleton, if_pos rfl,
    List.map_congr_left fun x hx => if_neg (hid x hx), List.map_id']

/-! ### A frame that goes on -/

/-- From `s` to `t` one frame has become another, and the other frames stand. -/
def State.Goes (s : State) (j k : TxJob) (t : State) : Prop := t.dev.tx.jobs = s.dev.tx.jobs.map fun x => if x.id = j.id then k else x

theorem completes_goes {c : Instr} {m : M Unit} (hc : exec c s = cmd s m) (hm : m = putJob k) (hk : k.id = j.id) : Completes c s (s.Goes j k) := by
  subst hm
  refine completes_gives hc ((gives_putJob k).mono fun _ t ht => ?_)
  rw [State.Goes, latchEdges_tx, ht, requeued_dev, hk]

/-- No frame of a number waits for its securing or for its acknowledgement. -/
def State.Moved (s : State) (i : Nat) : Prop := ∀ k ∈ s.dev.tx.jobs, k.id = i → k.stage ≠ .securing ∧ k.stage ≠ .ackWait

theorem moved_put (h : k.stage ≠ .securing ∧ k.stage ≠ .ackWait) : (s.requeued (s.dev.tx.jobs.map fun x => if x.id = k.id then k else x)).Moved k.id := by
  intro x hx hi
  rw [requeued_dev] at hx
  obtain ⟨y, hy, rfl⟩ := List.mem_map.mp hx
  split at hi
  · rwa [if_pos ‹_›]
  · exact absurd hi ‹_›

theorem State.Finished.gone (h : s.Finished t j st) : ∀ k ∈ t.dev.tx.jobs, k.id ≠ j.id := by
  obtain ⟨l, hl⟩ := h.tx
  intro k hk
  rw [hl] at hk
  have := (List.mem_filter.mp hk).2
  simp at this
  exact this.1

theorem ladPlace_frame (plan : Nat × Nat × Nat) :
    (s.ladPlace j plan).1.id = j.id ∧ ((s.ladPlace j plan).1.stage = .reserved ∨ (s.ladPlace j plan).1.stage = .ready) := by
  obtain ⟨level, e, g⟩ := plan
  match level with
  | 0 => exact ⟨rfl, .inl rfl⟩
  | 1 => exact ⟨rfl, .inl rfl⟩
  | _ + 2 => exact ⟨rfl, .inr rfl⟩

theorem ladPlace_strobes (plan : Nat × Nat × Nat) : ∀ x ∈ (s.ladPlace j plan).2, x.stage = .reserved := by
  obtain ⟨level, e, g⟩ := plan
  intro x hx
  match level with
  | 0 => exact absurd hx List.not_mem_nil
  | 1 =>
    obtain ⟨i, _, rfl⟩ := List.mem_map.mp hx
    rfl
  | _ + 2 => exact absurd hx List.not_mem_nil

theorem State.Moved.added (h : s.Moved i) (hk : k.stage = .reserved) : (s.jobAdded k).Moved i := by
  intro x hx hi
  rw [jobAdded_jobs] at hx
  rcases List.mem_append.mp hx with hx | hx
  · exact h x hx hi
  · rw [List.mem_singleton.mp hx]
    exact ⟨by rw [hk]; decide, by rw [hk]; decide⟩

theorem State.Moved.of_jobs (h : s.Moved i) (ht : t.dev.tx.jobs = s.dev.tx.jobs) : t.Moved i := fun k hk => h k (ht ▸ hk)

/-- A frame for the ladder is placed, defers, waits, or ends: it does not stay where it was (R199). -/
theorem gives_ladTry_moved : ∀ (n : Nat) (j : TxJob) (lo earliest past : Nat) (s : State), j.kind = .ring → (ladTry n j lo earliest past).Gives s fun _ t => t.Moved j.id := by
  have hfin {x : State} {j' : TxJob} {i st : Nat} (hk : j'.kind = .ring) (hi : j'.id = i) : (finishJob j' st).Gives x fun _ t => t.Moved i :=
    (gives_finishJob (.inl hk)).mono fun _ _ ht => fun k hm hj => absurd (hj.trans hi.symm) (ht.gone k hm)
  intro n
  induction n with
  | zero => exact fun j _ _ _ s hk => hfin hk rfl
  | succ n ih =>
    intro j lo earliest past s hk
    refine gives_bind (gives_getS ?_)
    extract_lets plan
    obtain ⟨hid, hstage⟩ := ladPlace_frame (s := s) (j := j) plan
    have hx := ladPlace_strobes (s := s) (j := j) plan
    generalize s.ladPlace j plan = place at *
    obtain ⟨f, strobes⟩ := place
    dsimp only at *
    split
    · exact hfin hk rfl
    split
    · refine (gives_waitRandom f).mono fun _ t ⟨w, v, _, _, ht⟩ => ?_
      rw [ht, ← hid]
      exact moved_put (k := { f with stage := .retryWait, closed := false, ts := (if f.closed then f.tend + s.ackSpan f.lane else s.dev.time.link) + 40 * w }) ⟨TxStage.noConfusion, TxStage.noConfusion⟩
    split
    · refine gives_bind (((total_count ..).gives_run s).mono fun _ u _ => gives_bind ((gives_putJob _).mono fun _ v _ => ?_))
      split
      · exact hfin hk rfl
      · exact ih _ _ _ _ v hk
    · refine gives_bind ((gives_putJob f).mono fun _ u hu => gives_forAll ?_ fun x hm v hv => gives_bind (gives_addJob_id.mono fun _ w ⟨_, hw⟩ => gives_pure ?_))
      · rw [hu, ← hid]
        exact moved_put (by rcases hstage with h | h <;> rw [h] <;> decide)
      · rw [hw]
        exact hv.added (hx x hm)

/-! ### Securing, the retry and the window (R149, R150, R153, R225) -/

theorem secured_beacon (hf : s.jobs.find? (fun k => k.stage == .securing) = some j) (hk : j.kind = .beacon) :
    Completes .frameSecured s (s.Goes j { j with stage := .reserved }) := by
  refine completes_goes rfl ?_ rfl
  rw [hf]
  exact if_pos hk

theorem secured_lattice (hf : s.jobs.find? (fun k => k.stage == .securing) = some j) (hl : j.level ≠ none) (hk : j.kind = .ring) :
    Completes .frameSecured s fun t => ∀ k ∈ t.dev.tx.jobs, k.id = j.id → k.stage ≠ .securing := by
  refine completes_gives rfl ?_
  rw [hf]
  dsimp only
  rw [if_neg (by rw [hk]; decide)]
  refine gives_bind (gives_getS ?_)
  split
  · exact gives_bind ((gives_putJob _).mono fun _ u _ => (gives_ladTry_moved 8 { j with stage := .ready } _ _ _ u hk).mono fun _ t ht k hm hi => (ht k (by rwa [latchEdges_tx] at hm) hi).1)
  · next h => exact absurd h hl

/-- A frame off the ladder is secured. -/
theorem secured_flat {Q : State → Prop} (hf : s.jobs.find? (fun k => k.stage == .securing) = some j) (hk : j.kind ≠ .beacon) (hl : j.level = none)
    (h : (if j.timed then reserveTimed j else putJob { j with stage := .ready }).Gives s fun _ t => Q (latchEdges s t)) : Completes .frameSecured s Q := by
  refine completes_gives rfl ?_
  rw [hf]
  dsimp only
  rw [if_neg hk]
  refine gives_bind (gives_getS ?_)
  split
  · next h => exact absurd (hl.symm.trans h) (by simp)
  · exact h

theorem goes_put (hk : k.id = j.id) : (putJob k).Gives s fun _ t => s.Goes j k (latchEdges s t) :=
  (gives_putJob k).mono fun _ t ht => by rw [State.Goes, latchEdges_tx, ht, requeued_dev, hk]

theorem secured_ready (hf : s.jobs.find? (fun k => k.stage == .securing) = some j) (hk : j.kind ≠ .beacon) (hl : j.level = none) (ht : j.timed = false) :
    Completes .frameSecured s (s.Goes j { j with stage := .ready }) :=
  secured_flat hf hk hl (by rw [if_neg (by simp [ht])]; exact goes_put rfl)

theorem secured_reserved (hf : s.jobs.find? (fun k => k.stage == .securing) = some j) (hk : j.kind ≠ .beacon) (hl : j.level = none) (ht : j.timed = true)
    (hn : s.taken j = false) : Completes .frameSecured s (s.Goes j { j with stage := .reserved }) :=
  secured_flat hf hk hl (by
    rw [if_pos ht]
    refine gives_bind (gives_getS ?_)
    rw [if_neg (by simp [hn])]
    exact goes_put rfl)

theorem secured_late (hf : s.jobs.find? (fun k => k.stage == .securing) = some j) (hk : j.kind = .ring ∨ j.kind = .host) (hl : j.level = none)
    (ht : j.timed = true) (hn : s.taken j = true) : Completes .frameSecured s fun t => ∀ k ∈ t.dev.tx.jobs, k.id ≠ j.id :=
  secured_flat hf (by rcases hk with h | h <;> rw [h] <;> decide) hl (by
    rw [if_pos ht]
    refine gives_bind (gives_getS ?_)
    rw [if_pos hn]
    refine gives_bind (gives_getS ?_)
    rw [if_neg (by rcases hk with h | h <;> rw [h] <;> decide), if_neg (by simp [TxJob.onLattice, hl])]
    exact (gives_finishJob hk).mono fun _ t h k hm => h.gone k (by rwa [latchEdges_tx] at hm))

theorem retry_goes (h : s.pick (fun k => k.stage == .retryWait) = some j) : Completes .retryWaitExpiry s (s.Goes j { j with stage := .ready }) := by
  refine completes_goes rfl ?_ rfl
  rw [h]

theorem window_held (hf : s.jobs.find? (fun k => k.stage == .ackWait) = some j) (h : s.ackComing j = true) :
    Completes .ackWindowClose s (s.Goes j { j with closed := true }) := by
  refine completes_goes rfl ?_ rfl
  rw [hf]
  exact if_pos h

/-- A window closes without an acknowledgement: it is counted, and what follows depends on the retries. -/
theorem window_closes {Q : State → Prop} (hf : s.jobs.find? (fun k => k.stage == .ackWait) = some j) (ha : s.ackComing j = false)
    (h : ∀ v, (if j.retries = 0 then noAck j else
      match j.level with
      | some l => do
        putJob { j with retries := j.retries - 1, timed := false, nt := none, stage := TxStage.ready, defers := 0 }
        ladTry 8 { j with retries := j.retries - 1, timed := false, nt := none, stage := TxStage.ready, defers := 0 } (l + 1) (j.tend + s.ackSpan j.lane + 40000) 0
      | none => waitRandom { j with retries := j.retries - 1, timed := false, nt := none }).Gives (s.counted statsPage (0x20 + 0x0A / 4) (0x0A % 4) v)
        fun _ t => Q (latchEdges s t)) :
    Completes .ackWindowClose s Q := by
  refine completes_gives rfl ?_
  rw [hf]
  dsimp only
  rw [if_neg (by simp [ha])]
  refine gives_bind (gives_getS (gives_bind (((total_stat _).gives_run _).mono fun _ u hu => ?_)))
  rw [run_stat] at hu
  rw [hu]
  exact h _

theorem gives_setPeerBits (s : State) (i w hi lo v : Nat) : (setPeerBits i w hi lo v).Gives s fun _ t => t.dev = s.dev := by
  refine gives_bind (gives_getS (gives_bind (gives_getS ?_)))
  split
  exacts [gives_act (by simp), gives_nop rfl]

theorem window_noAck (hf : s.jobs.find? (fun k => k.stage == .ackWait) = some j) (ha : s.ackComing j = false) (hr : j.retries = 0)
    (hk : j.kind = .ring ∨ j.kind = .host) : Completes .ackWindowClose s fun t =>
      (∀ k ∈ t.dev.tx.jobs, k.id ≠ j.id) ∧ t.ctr linkPage 3 3 = min 0xFFFFFFFF (s.ctr linkPage 3 3 + 1) := by
  refine window_closes hf ha fun v => ?_
  have hend {u : State} (hu : u.ctr linkPage 3 3 = s.ctr linkPage 3 3) : (finishJob j stNoAck).Gives u fun _ t =>
      (∀ k ∈ (latchEdges s t).dev.tx.jobs, k.id ≠ j.id) ∧ (latchEdges s t).ctr linkPage 3 3 = min 0xFFFFFFFF (s.ctr linkPage 3 3 + 1) :=
    (gives_finishJob hk).mono fun _ t ht => ⟨fun k hm => ht.gone k (by rwa [latchEdges_tx] at hm), by rw [latchEdges_ctr_read, ht.count rfl, hu]⟩
  have hv : (s.counted statsPage (0x20 + 0x0A / 4) (0x0A % 4) v).ctr linkPage 3 3 = s.ctr linkPage 3 3 := State.ctr_counted_other (by decide)
  rw [if_pos hr, noAck]
  split
  · refine gives_bind ((gives_setPeerBits ..).mono fun _ u hu => gives_bind (((total_count ..).gives_run _).mono fun _ w hw => hend ?_))
    rw [hw, run_count, State.ctr_counted_other (by decide), State.ctr, hu, ← State.ctr, hv]
  · exact hend hv

theorem window_waits (hf : s.jobs.find? (fun k => k.stage == .ackWait) = some j) (ha : s.ackComing j = false) (hr : j.retries ≠ 0) (hl : j.level = none) :
    Completes .ackWindowClose s fun t => ∃ w, w ≤ 1000 * s.fld LINK_CFG_WAITMAX ∧
      s.Goes j { j with stage := .retryWait, retries := j.retries - 1, timed := false, nt := none, closed := false
                        ts := (if j.closed = true then j.tend + s.ackSpan j.lane else s.dev.time.link) + 40 * w } t := by
  refine window_closes hf ha fun v => ?_
  rw [if_neg hr]
  split
  · next h => exact absurd (hl.symm.trans h) (by simp)
  refine (gives_waitRandom _).mono fun _ t ⟨w, x, hw, hx, ht⟩ => ⟨w, hw, ?_⟩
  rw [State.Goes, latchEdges_tx, ht, requeued_dev, hx.dev]
  rfl

theorem window_lattice (hf : s.jobs.find? (fun k => k.stage == .ackWait) = some j) (ha : s.ackComing j = false) (hr : j.retries ≠ 0) (hl : j.level ≠ none)
    (hk : j.kind = .ring) : Completes .ackWindowClose s fun t => ∀ k ∈ t.dev.tx.jobs, k.id = j.id → k.stage ≠ .ackWait := by
  refine window_closes hf ha fun v => ?_
  rw [if_neg hr]
  split
  · exact gives_bind ((gives_putJob _).mono fun _ u _ => (gives_ladTry_moved 8 { j with retries := j.retries - 1, timed := false, nt := none, stage := TxStage.ready, defers := 0 } _ _ _ u hk).mono fun _ t ht k hm hi => (ht k (by rwa [latchEdges_tx] at hm) hi).2)
  · next h => exact absurd h hl

/-- A step that may be left out, whatever it leaves. -/
theorem gives_when {c : Prop} [Decidable c] {m : M Unit} {k : Unit → M Unit} {Q : Unit → State → Prop} (hm : m.Total) (h : ∀ v, (k ()).Gives v Q) :
    (if c then m >>= k else k ()).Gives s Q := by
  split
  exacts [gives_bind ((hm.all s).mono fun _ v _ => h v), h s]

/-! ### An entry into a low-power state (R372, R373) -/

/-- What comes first at the edge: the carry, and the radio and the lanes where no window holds them. -/
theorem lfEdge_begun {k : Unit → M Unit} {Q : State → Prop} (h : ∀ u, s.Onward u → (k ()).Gives u fun _ t => Q t) :
    (carryMake >>= fun _ => if !s.dev.samp.holds then
      if s.radio ≠ radSleep ∨ s.dev.radio.walk.isSome then radioCut radSleep none >>= fun _ => lanesOff dropRadio >>= k else lanesOff dropRadio >>= k
      else k ()).Gives s fun _ t => Q t := by
  refine gives_bind ((onward_carryMake.all s).mono fun _ u hu => ?_)
  have hlanes {v : State} (hv : s.Onward v) : (lanesOff dropRadio >>= k).Gives v fun _ t => Q t :=
    gives_bind (((onward_lanesOff _).all v).mono fun _ w hw => h w (hv.trans hw))
  split
  · split
    · exact gives_bind (((onward_radioCut ..).all u).mono fun _ v hv => hlanes (hu.trans hv))
    · exact hlanes hu
  · exact h u hu

theorem lfEdge_goes (he : s.dev.pwr.entry = .stopped) (src : BitVec 14) (hw : s.wakeNow src.toNat = 0) :
    Completes (.entryLfEdge src) s fun t => t.dev.pwr.entry = .edge := by
  refine completes_gives rfl ?_
  rw [if_pos he]
  refine lfEdge_begun fun u _ => ?_
  dsimp only
  rw [if_neg (by simp [hw])]
  exact gives_act (by rw [latchEdges_dev]; rfl)

theorem gives_abandon (n : Nat) : (abandon n).Gives s fun _ t => t.dev.pwr.entry = .none ∧ t.core.run = .run :=
  gives_bind (gives_setFld (gives_bind (gives_setFld (gives_bind (((total_count ..).gives_run _).mono fun _ _ _ =>
    gives_bind (gives_act (gives_act ⟨rfl, rfl⟩)))))))

theorem lfEdge_abandons (he : s.dev.pwr.entry = .stopped) (src : BitVec 14) (hw : s.wakeNow src.toNat ≠ 0) :
    Completes (.entryLfEdge src) s fun t => t.dev.pwr.entry = .none ∧ t.core.run = .run := by
  refine completes_gives rfl ?_
  rw [if_pos he]
  refine lfEdge_begun fun u _ => ?_
  dsimp only
  rw [if_pos hw]
  have hend (v : State) : (abandon 3).Gives v fun _ t => (latchEdges s t).dev.pwr.entry = .none ∧ (latchEdges s t).core.run = .run :=
    (gives_abandon 3).mono fun _ t ht => by rwa [latchEdges_dev]
  exact gives_when (total_act _) fun _ => gives_when (total_act _) fun _ => gives_when (total_bind (total_act _) fun _ => total_setFld ..) hend

theorem entry_rests (he : s.dev.pwr.entry = .edge) (hn : s.dev.pwr.toEasy = false) :
    Completes .entryComplete s fun t => t.dev.pwr.state = .rest ∧ t.dev.pwr.entry = .none ∧ t.core.run = .lowPower := by
  refine completes_gives rfl ?_
  rw [if_pos he]
  have hend (v : State) : (do
      modPwr fun p => { p with state := .rest, entry := .none }
      setFld PWR_STAT_LAST 2
      count pwrPage 0x02 0
      modCore fun c => { c with run := .lowPower }).Gives v fun _ t =>
        (latchEdges s t).dev.pwr.state = PwrState.rest ∧ (latchEdges s t).dev.pwr.entry = Entry.none ∧ (latchEdges s t).core.run = CoreRun.lowPower :=
    gives_bind (gives_act (gives_bind (gives_setFld (gives_bind (((total_count ..).gives_run _).mono fun _ t ht => gives_act (by
      rw [latchEdges_dev, ht, run_count]
      exact ⟨by simp, by simp, rfl⟩))))))
  refine gives_bind (gives_bind (gives_setFld (gives_setFld (gives_bind (gives_setFld ?_)))))
  dsimp only
  rw [if_neg (show ¬ s.dev.pwr.toEasy = true by simp [hn])]
  split
  exacts [gives_bind (gives_setFld (hend _)), hend _]

/-- Settles O60: the steps of the queue keep what stands beside the frame they are about; a page's binding, the end of an operation, the end of
DOZE and the edges of an entry are lemmas of their own. -/
theorem queuesGoOn : Obligations.QueuesGoOn := by
  unfold Obligations.QueuesGoOn
  intro s hi n goes gone
  refine ⟨take_ring, take_host, ?_, fun j hf => ⟨secured_beacon hf, secured_ready hf, secured_reserved hf, secured_late hf, fun hl hk => secured_lattice hf hl hk⟩,
    fun j => retry_goes, fun j hf => ⟨window_held hf, window_noAck hf, window_waits hf, window_lattice hf⟩, ?_, fun p j hj => ?_,
    fun hr ha => (dozeEnd_completes hi hr ha).imp fun t ht => ht.1, fun src he => ⟨lfEdge_goes he src, lfEdge_abandons he src⟩, entry_rests⟩
  · intro host a d j l ht hw he h htim hsec hr hf hid
    have hd : d = s.frontDesc host := frontDesc_eq.symm
    clear_value d
    subst hd
    exact take_beside ht hw he h htim hsec hr hf hid
  · intro fromRom p v h3 he hs ho
    refine (pageBind_binds p (m := .core fromRom) ?_ he).imp fun t ⟨h1, _, h2, _⟩ => ⟨h1, by rw [h2]⟩
    simp [State.mayBind, h3, hs, ho]
  · exact (cipherOpDone_ends p hj).imp fun t ⟨h1, _, _, h2, h3, _⟩ => ⟨by rw [h2], h1, h3⟩

end Sys2Proof.Machine
end
